-- ==== Sys2Proof/Word.lean ====
section
/-! DEFINITION. The word types of the Tenar panel model: registers, rows and masks as bit vectors.
A row of 512 bytes is one 4,096-bit vector, byte k at bits 8k to 8k + 7 (R8: little-endian). -/

namespace Sys2Proof

/-- One byte. -/
abbrev Byte := BitVec 8

/-- A 64-bit scalar register, an extension word or a setup register (R11, R158). -/
abbrev Word := BitVec 64

/-- A tarn row or a row register: 512 bytes (R73, Table 2.1). -/
abbrev Row := BitVec 4096

/-- The byte mask of a row register, one bit for each byte (R47). -/
abbrev Mask := BitVec 512

/-- A 64 B submission descriptor (R393). -/
abbrev Desc := BitVec 512

/-- A 32 B handle entry (Table 3.6). -/
abbrev HandleEntry := BitVec 256

end Sys2Proof
end

