-- ==== Sys2Proof/Syntax.lean ====
section
/-! DEFINITION. The commands the panel takes, one constructor for each row of spec/opcode_table.json, with the
operands the row's rule names; and the data those operands carry. What a host, a sensor, a pin or a partner
supplies comes with the command; everything inside the panel is read from the state. -/

namespace Sys2Proof

/-- A disturbance the environment brings to an access: none, a register-file parity error (Table 2.7), an Electrum
parity or residue error (R156), or a change of a stored row against its CRC (R81), given as the CRC difference. -/
inductive Upset where
  | none
  | regParity
  | engine
  | row (x : BitVec 32)
  deriving DecidableEq, Repr

/-- An instruction of cluster `c` that reaches retirement: the base word of Table 6.1 without its opcode, which the
constructor gives, its extension words, and the disturbance met. -/
structure Issue where
  c : Nat
  pg : BitVec 3 := 0
  pn : Bool := false
  ext : BitVec 2 := 0
  rsv : BitVec 2 := 0
  opnds : BitVec 48 := 0
  x0 : Word := 0
  x1 : Word := 0
  u : Upset := .none
  deriving DecidableEq, Repr

/-- Who waits on a fill tag (Table 3.5): a cluster at retirement, a code fetch of a line, descriptor `k` of queue
pair `q`, entry `k` of cluster `c`'s remote-wait queue, or core `n`. -/
inductive Waiter where
  | cluster (c : Nat)
  | fetch (c line : Nat)
  | dma (q k : Nat)
  | remote (c k : Nat)
  | core (n : Nat)
  deriving DecidableEq, Repr

/-- The tag changes of a spilled row, each one atomic compare-and-update (R98). -/
inductive TagStep where
  | claimRead | endRead | claimWrite | endWrite
  deriving DecidableEq, Repr

/-- What the error correction of an HBM sector met on a read (R340): nothing, one corrected symbol, or an
uncorrectable sector. -/
inductive Ecc where
  | clean | corrected | uncorrectable
  deriving DecidableEq, Repr

/-- One hop of a packet (R258): the region of the hop, the link it arrived on, whether the header check and the
packet CRC pass there, whether this hop holds the whole packet, and whether it is the endpoint. -/
structure Hop where
  region : Nat
  link : Option Nat
  hdrOk : Bool
  crcOk : Bool
  whole : Bool
  endpoint : Bool
  deriving DecidableEq, Repr

/-- What one tester reports of a tested position (R534). -/
inductive TestResult where
  | pass | routerFail | tarnFail | noResponse
  deriving DecidableEq, Repr

/-- A verdict of the neighbour test: tester and target position of one compute site. -/
structure Verdict where
  site : Nat
  tester : Nat
  target : Nat
  result : TestResult
  deriving DecidableEq, Repr

/-- What enumeration and SPDM find behind a CXL port (R350, R351, R445). -/
structure CxlDevice where
  id : Nat
  flit256 : Bool
  mem : Bool
  logicalDevices : Nat
  spdmOk : Bool
  rootHash : BitVec 256
  classicalOnly : Bool
  capacity : Nat
  deriving DecidableEq, Repr

/-- Who makes a register access or a doorbell write (R558): the operator through the lease holder, with the lease
epoch and whether the command is an Administrator's; a function, with the IDE T bit of its
request (R454); or a host-processor core. -/
inductive Agent where
  | operator (epoch : Nat) (admin : Bool)
  | function (f : Nat) (trusted : Bool)
  | core (n : Nat)
  deriving DecidableEq, Repr

/-- Cache and core faults of Table 12.4. -/
inductive CoreFaultKind where
  | correctedEcc
  | cleanLine
  | modifiedLine (line : Nat)
  | directoryEntry (line : Nat) (lost : Bool)
  | controlState
  | interconnect
  deriving DecidableEq, Repr

/-- A manifest (R416, R417): its header, its shard table, the common section and each layout's 16 B entries. -/
structure Manifest where
  len : Nat
  header : BitVec 1024
  shards : List Desc
  common : List (BitVec 128)
  layouts : List (List (BitVec 128))
  deriving DecidableEq, Repr

/-- An image envelope as read from its address (Table 14.1): key, signature and key block are the bytes as numbers. -/
structure Image where
  header : BitVec 2048
  pubKey : Nat
  signature : Nat
  kemCiphertext : Nat
  wrappedKey : BitVec 384
  keyReserved : BitVec 128
  manifest : Manifest
  deriving DecidableEq, Repr

/-- How a shard fetch ends (R426): with the ciphertext it brought, poisoned or with an error. -/
inductive FetchResult where
  | arrived (hash : BitVec 256) (tagOk : Bool)
  | poisoned
  deriving DecidableEq, Repr

/-- The transport an SPDM request comes over (R440). -/
inductive SpdmPath where
  | doe (f : Nat)
  | mctpI3c
  | mctpPcie (l : Nat)
  | tcp
  deriving DecidableEq, Repr

/-- The algorithms a NEGOTIATE_ALGORITHMS request offers (R441). -/
structure SpdmAlgorithms where
  mldsa65 : Bool
  mldsa44 : Bool
  mlkem768 : Bool
  sha3 : Bool
  aesGcm : Bool
  deriving DecidableEq, Repr

/-- Vendor requests (R440, R452): programming an IDE stream key of a link, a TDISP message, or another protocol. -/
inductive VendorRequest where
  | ideKeyProg (link stream : Nat) (key : BitVec 256)
  | tdispStart (f : Nat)
  | tdispStop (f : Nat)
  | other
  deriving DecidableEq, Repr

/-- Policy fuses an operator command may write (R438). -/
inductive FuseValue where
  | operatorKeyHash (h : BitVec 256)
  | cosignRequired
  | revoke (k : Nat)
  | svnMin (v : Word)
  deriving DecidableEq, Repr

/-- What begins a debug session (R460), and which JTAG instruction it is (R461). -/
inductive DebugTrigger where
  | jtagHarmless
  | jtagPinControl
  | jtagOther
  | ieee1687
  | pewterCommand
  deriving DecidableEq, Repr

/-- What operator debug halts, resumes or steps (R459). -/
inductive DebugTarget where
  | cluster (c : Nat)
  | core (n : Nat)
  deriving DecidableEq, Repr

/-- What operator debug reads (Table 15.8). -/
inductive DebugObject where
  | clusterState (c : Nat)
  | programCounter (c : Nat)
  | scalar (c i : Nat)
  | predicate (c : Nat)
  | rowRegister (c i : Nat)
  | rowMask (c i : Nat)
  | accumulator (c i lane : Nat)
  | weightBank (c b : Nat)
  | tarnRow (c row : Nat)
  | page (addr : Nat)
  | journal (p : Nat)
  | key
  deriving DecidableEq, Repr

/-- One sample of the manifold sensors, each absent where it reads invalid (R500): flow in 0.1 L/min, differential
pressure in kPa, temperatures in 0.125 K. -/
structure Manifold where
  flow0 : Option Nat
  flow1 : Option Nat
  dp0 : Option Nat
  dp1 : Option Nat
  inlet : Option Nat
  outlet : Option Nat
  deriving DecidableEq, Repr

/-- The three voters of the lease (18, "The lease"). -/
inductive Voter where
  | north | south | bpm
  deriving DecidableEq, Repr

/-- The role of a Redfish account (R523), or an account that failed to log in. -/
inductive RedfishUser where
  | administrator | operator | readOnly
  | badLogin (account : Nat)
  deriving DecidableEq, Repr

/-- Redfish requests (Table 18.6). -/
inductive RedfishAction where
  | read
  | killContext (x : Nat)
  | failCluster (c : Nat)
  | substitute (c : Nat)
  | retireRegion (r : Nat)
  | condemnStack (stack : Nat)
  | retirePc (stack pc : Nat)
  | resetPartition (p : Nat)
  | railOff (mask : BitVec 8)
  | segmentOff (mask : BitVec 8)
  | accountChange
  deriving DecidableEq, Repr

/-- MCTP messages (R522): PLDM platform monitoring, PLDM firmware update, SPDM, or an unsupported type. -/
inductive MctpKind where
  | pldmBase | pldmSensor (n : Nat) | pldmFirmware | spdm | unsupported
  deriving DecidableEq, Repr

/-- A firmware image as it is checked by R437: the digest of its manifest, its svn, and its two signatures. -/
structure FirmwareImage where
  readOk : Bool
  mfw : BitVec 256
  svn : Word
  romKey : Nat
  signature : Nat
  cosigKeyHash : BitVec 256
  cosignature : Nat
  writeOk : Bool
  deriving DecidableEq, Repr

/-- What Wellspring's self-test gives (R434 event 1). -/
inductive BootCheck where
  | ok | selfTestFailed
  deriving DecidableEq, Repr

/-- A die's report of its position fuse block over the sideband of one site (R31). -/
structure DieReport where
  region : Nat
  site : Nat
  fuse : BitVec 128
  deriving DecidableEq, Repr

/-- The commands: one constructor for each row of the table of operations and events. -/
inductive Instr where
  /-- NOP (R166). Cluster NOP instruction retires with no effect other than advancing the program counter. -/
  | nop (i : Issue)
  /-- END (R170). END retires once older instructions and fabric operations are done, reports the cluster's part of the step complete and enters Idle. -/
  | endStep (i : Issue)
  /-- BR (R171). Branch retires and transfers to PC + 8 × imm32. -/
  | br (i : Issue)
  /-- JAL (R171). Jump and link retires, writes the link and transfers to PC + 8 × imm32. -/
  | jal (i : Issue)
  /-- JALR (R172). Register jump retires, or traps with operand error on a misaligned or out-of-range target. -/
  | jalr (i : Issue)
  /-- LOOP (R174). LOOP retires, captures its count and pushes a loop-stack entry or skips its body. -/
  | loop (i : Issue)
  /-- TRAP (R173). TRAP instruction traps with cause software trap and records imm16 in sw_code. -/
  | trap (i : Issue)
  /-- ADD (R176). Scalar add retires. -/
  | add (i : Issue)
  /-- SUB (R176). Scalar subtract retires. -/
  | sub (i : Issue)
  /-- AND (R176). Scalar bitwise AND retires. -/
  | and (i : Issue)
  /-- OR (R176). Scalar bitwise OR retires. -/
  | or (i : Issue)
  /-- XOR (R176). Scalar bitwise XOR retires. -/
  | xor (i : Issue)
  /-- SLL (R176). Scalar logical left shift retires. -/
  | sll (i : Issue)
  /-- SRL (R176). Scalar logical right shift retires. -/
  | srl (i : Issue)
  /-- SRA (R176). Scalar arithmetic right shift retires. -/
  | sra (i : Issue)
  /-- MUL (R176). Scalar multiply, low 64 bits, retires. -/
  | mul (i : Issue)
  /-- MULH (R176). Scalar signed multiply, high 64 bits, retires. -/
  | mulh (i : Issue)
  /-- MULHU (R176). Scalar unsigned multiply, high 64 bits, retires. -/
  | mulhu (i : Issue)
  /-- DIV (R177). Scalar signed divide retires, with the defined results for zero divisor and overflow. -/
  | div (i : Issue)
  /-- DIVU (R177). Scalar unsigned divide retires. -/
  | divu (i : Issue)
  /-- REM (R177). Scalar signed remainder retires. -/
  | rem (i : Issue)
  /-- REMU (R177). Scalar unsigned remainder retires. -/
  | remu (i : Issue)
  /-- MIN (R176). Scalar signed minimum retires. -/
  | min (i : Issue)
  /-- MAX (R176). Scalar signed maximum retires. -/
  | max (i : Issue)
  /-- MINU (R176). Scalar unsigned minimum retires. -/
  | minu (i : Issue)
  /-- MAXU (R176). Scalar unsigned maximum retires. -/
  | maxu (i : Issue)
  /-- LI (R178). Load immediate writes the sign-extended imm32 to a scalar register. -/
  | li (i : Issue)
  /-- LIX (R178). Load extended immediate writes its extension word to a scalar register. -/
  | lix (i : Issue)
  /-- CMP (R179). Compare sets a predicate from a scalar comparison. -/
  | cmp (i : Issue)
  /-- PLOG (R179). Predicate logic sets a predicate from two predicates. -/
  | plog (i : Issue)
  /-- RDCNT (R180). Read counter writes the selected cycle, tick, retired, wait or timeout value to a scalar register. -/
  | rdcnt (i : Issue)
  /-- MOVSV (R181). Moves a 64-bit word of a row register to a scalar register. -/
  | movsv (i : Issue)
  /-- MOVVS (R181). Moves a scalar register into a word of a row register under its mask. -/
  | movvs (i : Issue)
  /-- VMOV (R183). Copies one row register into another under the destination mask. -/
  | vmov (i : Issue)
  /-- VBCAST (R183). Broadcasts a scalar into every word of a row register under its mask. -/
  | vbcast (i : Issue)
  /-- MSK (R183). Writes the byte mask of a row register by one of four modes. -/
  | msk (i : Issue)
  /-- LD (R184). Row load retires, reading a tarn row into a row register with a tagged or untagged read. -/
  | ld (i : Issue)
  /-- PK (R185). Row peek retires, reading a tarn row without consuming it. -/
  | pk (i : Issue)
  /-- ST (R185). Row store retires, writing all 512 B of a row register to a tarn row. -/
  | st (i : Issue)
  /-- MOVR (R186). Row move checks both handle ranges and begins its row operations. -/
  | movr (i : Issue)
  /-- MOVR_ROW_OPERATION (R186). One MOVR row pair starts once both tags permit and moves the row in two engine-port cycles. -/
  | movrRowOperation (c : Nat) (u : Upset)
  /-- FILL (R186). Row fill checks its range and begins writing a row register to a run of rows. -/
  | fill (i : Issue)
  /-- FILL_ROW_OPERATION (R169). One FILL row write takes effect when its tag permits. -/
  | fillRowOperation (c : Nat)
  /-- TAGRD (R188). Reads a row's tag code into a scalar register without waiting or checking the CRC. -/
  | tagrd (i : Issue)
  /-- WAITT (R189). Waits at retirement until a row's tag is FULL or EMPTY, then retires claiming nothing. -/
  | waitt (i : Issue)
  /-- WAITT_POLL (R189). A WAITT on a spilled handle polls the tag bitmap at its interval. -/
  | waittPoll (c : Nat)
  /-- TWAIT (R190). Tick wait reaches retirement and retires at once, raises a late event, traps with schedule error, or holds. -/
  | twait (i : Issue)
  /-- TWAIT_RELEASE (R190). A holding TWAIT retires when the tick counter reaches its target. -/
  | twaitRelease (c : Nat)
  /-- FETCH_FAULT_REREAD (R586). A marked integrity fetch fault reaching retirement rereads its line and traps or continues. -/
  | fetchFaultReread (c : Nat) (u : Upset)
  /-- INSTRUCTION_FETCH (R42). A code line arrives from tarn or HBM into the instruction cache, marked or not as a fetch fault. -/
  | instructionFetch (c : Nat) (line : Nat) (u : Upset)
  /-- WLD (R198). Weight load reads a weight tile and its scales into a weight bank and retires after the last row. -/
  | wld (i : Issue)
  /-- MMA (R200). Tile operation adds one granule per activation vector into a run of accumulator rows. -/
  | mma (i : Issue)
  /-- DRN (R202). Rounded drain checks its run and begins writing accumulator rows to tarn in a destination format. -/
  | drn (i : Issue)
  /-- DRNP (R204). Partial drain checks its run and begins writing accumulator rows as unrounded slots. -/
  | drnp (i : Issue)
  /-- DRAIN_ROW_OPERATION (R206). One row operation of DRN or DRNP writes a destination row through its tag policy; the clear follows the last. -/
  | drainRowOperation (c : Nat) (u : Upset)
  /-- ACLR (R207). Clears a run of accumulator rows to unbound. -/
  | aclr (i : Issue)
  /-- VADD (R208). Elementwise vector add. -/
  | vadd (i : Issue)
  /-- VSUB (R208). Elementwise vector subtract. -/
  | vsub (i : Issue)
  /-- VMUL (R208). Elementwise vector multiply. -/
  | vmul (i : Issue)
  /-- VDIV (R208). Elementwise vector divide. -/
  | vdiv (i : Issue)
  /-- VMIN (R208). Elementwise vector minimum. -/
  | vmin (i : Issue)
  /-- VMAX (R208). Elementwise vector maximum. -/
  | vmax (i : Issue)
  /-- VFMA (R208). Elementwise fused multiply-add with one rounding. -/
  | vfma (i : Issue)
  /-- VCMP (R209). Elementwise compare writes the whole mask of the destination. -/
  | vcmp (i : Issue)
  /-- VSQRT (R208). Elementwise square root. -/
  | vsqrt (i : Issue)
  /-- VABS (R208). Elementwise absolute value. -/
  | vabs (i : Issue)
  /-- VNEG (R208). Elementwise negation. -/
  | vneg (i : Issue)
  /-- VFUN (R154). Elementwise approximate FP32 function selected by f. -/
  | vfun (i : Issue)
  /-- VRSUM (R210). Row sum by the fixed tree, rounded once into element 0. -/
  | vrsum (i : Issue)
  /-- VRMAX (R210). Row maximum written into element 0. -/
  | vrmax (i : Issue)
  /-- VRMIN (R210). Row minimum written into element 0. -/
  | vrmin (i : Issue)
  /-- VCVT (R211). Converts elements between unscaled formats. -/
  | vcvt (i : Issue)
  /-- VQNT (R212). Quantises elements into a scaled format and writes block scales. -/
  | vqnt (i : Issue)
  /-- VDQ (R212). Dequantises scaled elements into an unscaled format. -/
  | vdq (i : Issue)
  /-- EHINT (R213). Declares or withdraws the cluster's expected energy level for a duration. -/
  | ehint (i : Issue)
  /-- SEND (R217). SEND retires when its WRITE packet leaves, or holds on a closed window. -/
  | send (i : Issue)
  /-- RECV (R218). RECV retires when its row arrives, possibly through a prefetch consume. -/
  | recv (i : Issue)
  /-- MCAST (R224). Multicast retires when a packet to every span member has left. -/
  | mcast (i : Issue)
  /-- REDUCE (R227). Member issues a reduction to rank 0 over a span pair. -/
  | reduce (i : Issue)
  /-- ALLRED (R227). Member issues an all-reduce over a span pair. -/
  | allred (i : Issue)
  /-- RSCAT (R227). Member issues a reduce-scatter over a span pair. -/
  | rscat (i : Issue)
  /-- AGATH (R227). Member issues an all-gather over a span pair. -/
  | agath (i : Issue)
  /-- MLD (R226). Memory load by address is checked and sends one MEM_RD packet. -/
  | mld (i : Issue)
  /-- MST (R226). Memory store by address is checked and sends one MEM_WR packet. -/
  | mst (i : Issue)
  /-- FENCEF (R222). Fabric fence retires, or traps by CLU_FAB_FAULT, once all outstanding operations finish. -/
  | fencef (i : Issue)
  /-- FABRIC_OP_TIMEOUT (R219). A fabric operation without progress for the fabric operation timeout fails, trapping or being recorded. -/
  | fabricOpTimeout (c tag : Nat)
  /-- RUN_AHEAD_LOAD (R53). While retirement waits, the sequencer issues a local row peek into a run-ahead buffer entry or parks it. -/
  | runAheadLoad (c h : Nat) (row : Option Word) (u : Upset)
  /-- RUN_AHEAD_PARKED_PEEK (R53). A parked run-ahead load peeks when its row becomes FULL. -/
  | runAheadParkedPeek (c k : Nat) (u : Upset)
  /-- RECEIVE_PREFETCH (R56). Run-ahead issues a watched remote peek for a RECV. -/
  | receivePrefetch (c h : Nat) (row dst : Option Word)
  /-- TAG_WAIT_SATISFIED (R80). An access waiting on a fill tag proceeds when the tag allows it. -/
  | tagWaitSatisfied (w : Waiter) (u : Upset)
  /-- TAG_WAIT_TIMEOUT (R84). A tag wait expires and the accessor traps, faults, completes with error or is dropped. -/
  | tagWaitTimeout (w : Waiter)
  /-- SPILLED_TAG_UPDATE (R98). An atomic compare-and-update of a spilled row's tag completes at the HBM controller. -/
  | spilledTagUpdate (c h : Nat) (row : Word) (t : TagStep)
  /-- HEARTBEAT_MISS (R68). Three absent heartbeats or a self-check failure marks the cluster Failed. -/
  | heartbeatMiss (c : Nat) (selfCheck : Bool)
  /-- AGEING_SAMPLE (R70). The ageing monitor takes its per-second sample and raises warn or a substitution request. -/
  | ageingSample (c : Nat) (drift : BitVec 16)
  /-- SUBSTITUTION_REREQUEST (R71). An unserved substitution request is raised again once a day. -/
  | substitutionRerequest (c : Nat)
  /-- CLU_AGE_THRESH_WRITE (R71). Operator writes the ageing thresholds; an invalid write is ignored with an event. -/
  | cluAgeThreshWrite (warn migrate : BitVec 7)
  /-- WRITE (R220). A WRITE packet is performed at the owning cluster's tarn through its DMA port. -/
  | write (p : Nat)
  /-- READ (R56). A READ packet is served at the owner as consuming read, peek or watched peek. -/
  | read (p : Nat) (u : Upset)
  /-- CONSUME (R57). A consume-after-watch packet performs the tag transition if the watch is intact. -/
  | consume (p : Nat) (u : Upset)
  /-- COLL (R264). A collective partial or header-only wave arrives at a tree node and is compared and combined. -/
  | coll (p : Nat)
  /-- COLL_RES (R264). A collective result row or completion wave arrives at a member. -/
  | collRes (p : Nat)
  /-- COMPLETION_WAVE_START (R265). Rank 0 starts the completion wave once all result rows are acknowledged. -/
  | completionWaveStart (c k : Nat)
  /-- MEM_RD (R226). A MEM_RD is checked and served by the target agent. -/
  | memRd (p : Nat) (ecc : Ecc) (reply : Option Row)
  /-- MEM_WR (R226). A MEM_WR is checked and performed by the target agent. -/
  | memWr (p : Nat)
  /-- DATA (R218). A DATA response arrives at the requester and completes its entry. -/
  | data (p : Nat)
  /-- ACK (R254). An ACK arrives and completes, refuses or marks busy an outstanding operation. -/
  | ack (p : Nat)
  /-- STALE (R56). A stale notice arrives and breaks the requester's prefetch watch. -/
  | stale (p : Nat)
  /-- BUSY_REPRESENT (R85). An access answered busy is presented again after 64 cycles. -/
  | busyRepresent (c tag : Nat)
  /-- PACKET_HOP (R258). A router checks and forwards, stomps or discards a packet at one hop. -/
  | packetHop (p : Nat) (hop : Hop)
  /-- PACKET_LIFETIME_EXPIRY (R261). A packet older than 1,000 ticks is discarded. -/
  | packetLifetimeExpiry (p : Nat)
  /-- CREDIT_STALL (R239). A transmitter without credit for 1,200 ticks declares its link down for retraining. -/
  | creditStall (r link : Nat) (ticks : Nat)
  /-- LINK_RETRAIN (R239). A link reaching its CRC threshold is retrained at the applicable moment. -/
  | linkRetrain (r link : Nat)
  /-- LINK_RETRAIN_TIMEOUT (R238). A link failing to train within its retrain time is treated as exhausted. -/
  | linkRetrainTimeout (r link : Nat)
  /-- PERIMETER_RETRAIN_HOLD_TIMEOUT (R239). Served partitions not all held within 100 ms; the perimeter link is retrained at once. -/
  | perimeterRetrainHoldTimeout (die : Nat)
  /-- LOCH_LOCK_LOSS (R240). A Loch receiver loses lock; the port stops and retrains on its spare wavelength. -/
  | lochLockLoss (r link : Nat)
  /-- ROUTE_ENTRY_WRITE (R246). The lease holder writes a route table entry, incrementing its epoch. -/
  | routeEntryWrite (r d : Nat) (entry : BitVec 32) (epoch : Nat)
  /-- FLOW_ROUTE_RESUME (R250). A flow held on a route change resumes on the new route once its outstanding count is zero. -/
  | flowRouteResume (c k : Nat)
  /-- ABORT_DRAIN_END (R262). 2,000 ticks after an abort or kill, scrub and restore may begin. -/
  | abortDrainEnd (p : Nat)
  /-- REF_10M_WINDOW (R271). A 10 ms REF_10M measurement window ends and qualification is updated. -/
  | ref10mWindow (ppm : Int)
  /-- REF_10M_EDGE_LOSS (R271). No REF_10M edge for 1 µs disqualifies reference A. -/
  | ref10mEdgeLoss
  /-- REF_PPS_PULSE (R271). A PPS pulse arrives and is accepted or discarded. -/
  | refPpsPulse (frac : Int)
  /-- REF_PPS_MISSING (R271). An expected PPS pulse does not arrive in its window. -/
  | refPpsMissing
  /-- PTP_SAMPLE (R271). A PTP offset and rate sample is filtered and steers the timebase. -/
  | ptpSample (offset : Int) (delayNs : Nat) (clockClass : Nat)
  /-- PTP_SAMPLE_TIMEOUT (R271). No PTP sample accepted for 4 s disqualifies reference B. -/
  | ptpSampleTimeout
  /-- REFERENCE_REVERT (R273). The timebase returns to the primary after 60 s qualified. -/
  | referenceRevert
  /-- TBS_TOD_SET (R276). Operator sets the TAI second of the next pulse. -/
  | tbsTodSet (second : BitVec 48)
  /-- TB_XO_EDGE_LOSS (R555). The local oscillator loses its edges. -/
  | tbXoEdgeLoss
  /-- BEACON_STROBE (R284). A domain takes a valid beacon and corrects its tick accumulator. -/
  | beaconStrobe (d : Nat) (word : BitVec 96)
  /-- BEACON_MISS (R301). Three consecutive missed beacons raise a corrected event. -/
  | beaconMiss (d : Nat)
  /-- BEACON_MISS_RETIRE (R301). After 100 missed beacons a region is retired or a fixed domain is device-fatal. -/
  | beaconMissRetire (d : Nat)
  /-- TICK_LOSS (R302). A domain loses the tick clock and enters Hold; loss at every receiver is device-fatal. -/
  | tickLoss (d : Option Nat)
  /-- STEP_CHANGE_PLL_LOCKED (R286). The idle PLL locks and crossings stop accepting words and drain. -/
  | stepChangePllLocked (r : Nat)
  /-- CLOCK_SWITCH (R287). The region clock switches to the new PLL once set points are reached and rescales its accumulator. -/
  | clockSwitch (r : Nat)
  /-- CROSSING_CALIBRATION (R292). A crossing calibration sends marker words and derives its latency. -/
  | crossingCalibration (x : Nat) (markers : List Nat)
  /-- CROSSING_CALIBRATION_END (R293). A calibration ends, storing L or failing and scheduling a retry or out-of-service. -/
  | crossingCalibrationEnd (x : Nat)
  /-- CROSSING_WORD_RELEASE (R291). A crossing word reaches the FIFO head and is released, slipping if late. -/
  | crossingWordRelease (x late : Nat)
  /-- DROOP_STRETCH (R288). The droop detector stretches the next period of a domain. -/
  | droopStretch (d : Nat) (deep : Bool)
  /-- DROOP_GATE_EXPIRY (R289). Droop persisting 64 gated periods puts the domain in Hold. -/
  | droopGateExpiry (d : Nat)
  /-- DROOP_HOLD_EXIT (R289). The domain leaves droop Hold when its set point recovers. -/
  | droopHoldExit (d : Nat)
  /-- STEP_LAUNCH (R397). A STEP_LAUNCH descriptor is accepted and waits for the launch arbiter. -/
  | stepLaunch (q k : Nat)
  /-- STEP_RELEASE (R303). The launch arbiter releases a step at one panel tick to its cluster set. -/
  | stepRelease (p : Nat)
  /-- STEP_COMPLETE (R305). Every cluster has retired END; the COMPLETE record is written and the completion reported. -/
  | stepComplete (p : Nat)
  /-- CHECKPOINT (R316). A CHECKPOINT descriptor starts writing the context's rows and tables at the boundary. -/
  | checkpoint (q k : Nat)
  /-- CHECKPOINT_DURABLE (R316). All checkpoint writes are acknowledged; the record is written and the descriptor completes. -/
  | checkpointDurable (p : Nat)
  /-- RECOVERY_START (R321). A contained error or failed cluster starts recovery: abort, ABORT record, recovery started. -/
  | recoveryStart (p : Nat)
  /-- NEIGHBOUR_TEST_TARGET (R536). The neighbours of a named cluster test it and the steward judges it. -/
  | neighbourTestTarget (c : Nat) (verdicts : List Verdict)
  /-- RECOVERY_RESTORE (R321). After the drain, replacement, scrub and pre-images, the checkpoint is restored. -/
  | recoveryRestore (p : Nat)
  /-- RECOVERY_RESTORE_DONE (R321). Restore completes and replay of journalled steps begins. -/
  | recoveryRestoreDone (p : Nat)
  /-- RECOVERY_RERELEASE (R321). After replay, the aborted step is released again and recovery complete is reported. -/
  | recoveryRerelease (p : Nat)
  /-- SHRINK_TIMEOUT (R328). No layout selected within the shrink timeout makes the context context-fatal. -/
  | shrinkTimeout (p : Nat)
  /-- SUBSTITUTION_COPY_DONE (R330). The copy completes; handle table copied, map changed, tags restored. -/
  | substitutionCopyDone (c : Nat) (ok : Bool)
  /-- CORRECTED_WRITE_BACK (R340). The corrected sector is written back within 1 µs unless overwritten. -/
  | correctedWriteBack (sector : Nat)
  /-- REFRESH (R344). The HBM controller refreshes at its temperature-dependent interval. -/
  | refresh (stack : Nat)
  /-- PATROL_SCRUB (R345). Patrol scrub reads a sector in an idle cycle, correcting or marking it. -/
  | patrolScrub (sector : Nat) (ecc : Ecc)
  /-- PATROL_PERIOD_END (R345). A patrol period ends, counting an overrun if incomplete. -/
  | patrolPeriodEnd (stack : Nat) (complete : Bool)
  /-- VACATE_TIMEOUT (R348). The vacate timeout expires and retirement proceeds at the next boundary. -/
  | vacateTimeout (stack : Nat)
  /-- STACK_FAILURE (R349). A stack fails; accesses return poison and owning contexts become fatal. -/
  | stackFailure (stack : Nat)
  /-- STACK_FAILURE_REMAP (R349). Once no page of the slice is mapped, the region remaps onto the surviving stack. -/
  | stackFailureRemap (r : Nat)
  /-- CXL_LINK_UP (R353). A CXL port links up and its device is enumerated, authenticated and reported. -/
  | cxlLinkUp (port : Nat) (dev : CxlDevice)
  /-- WINDOW_CREATE (R353). Operator creates a tier-2 window; decoders are programmed and zeroing starts. -/
  | windowCreate (w part base size : Nat) (devs : List Nat)
  /-- WINDOW_ZEROING_DONE (R353). Zeroing completes and the window becomes ONLINE. -/
  | windowZeroingDone (w : Nat)
  /-- WINDOW_OFFLINE (R354). Operator requests offline; refused while pages are mapped. -/
  | windowOffline (w : Nat)
  /-- WINDOW_DELETE (R352). Operator deletes an OFFLINE or LOST window, which becomes FREE. -/
  | windowDelete (w : Nat)
  /-- CXL_DEVICE_LOSS (R355). A window device goes down; the window becomes LOST and answers poison. -/
  | cxlDeviceLoss (w : Nat)
  /-- CXL_MEM_TIMEOUT (R356). A CXL.mem request unanswered for 200 µs completes with poison. -/
  | cxlMemTimeout (port : Nat)
  /-- CXL_IDE_REKEY (R453). The panel refreshes a CXL port's IDE keys at its rekey interval. -/
  | cxlIdeRekey (port : Nat)
  /-- VL8RE8_V (R367). A core reads a whole tarn row through the cluster's DMA port. -/
  | vl8re8V (n : Nat) (addr : Word) (u : Upset)
  /-- VS8R_V (R367). A core writes a whole tarn row through the cluster's DMA port. -/
  | vs8rV (n : Nat) (addr : Word) (data : Row)
  /-- QTARNCTL_WRITE (R367). A core writes qtarnctl to select peek for tarn loads. -/
  | qtarnctlWrite (n : Nat) (v : Word)
  /-- TARN_ACCESS_CANCEL (R368). An interrupt during a core's tarn wait requests cancellation at the owner. -/
  | tarnAccessCancel (n : Nat)
  /-- STEP_INPUT_STORE (R365). A core store to a step_input page is written through and journalled as CORE_DATA. -/
  | stepInputStore (n addr len : Nat) (data : Row)
  /-- DIRECTORY_EVICTION (R363). The coherence directory evicts an entry, invalidating and writing back the line. -/
  | directoryEviction (r line : Nat)
  /-- MSI_WRITE (R375). An MSI write reaches a hart's IMSIC, or is refused across partitions. -/
  | msiWrite (sender : Agent) (hart file identity : Nat)
  /-- CORE_FAULT (R377). A cache or core fault is handled, possibly failing the core or chiplet. -/
  | coreFault (n : Nat) (kind : CoreFaultKind)
  /-- CONFIGURATION_REQUEST (R380). A host-port die answers a configuration request, with RRS during bring-up. -/
  | configurationRequest (die : Nat)
  /-- BAR2_READ (R382). A host read through the device memory aperture is checked and served. -/
  | bar2Read (f : Nat) (trusted : Bool) (off len : Nat) (u : Upset)
  /-- BAR2_WRITE (R382). A host write through the aperture is checked and performed or dropped. -/
  | bar2Write (f : Nat) (trusted : Bool) (off len : Nat) (data : Row)
  /-- SQ_DOORBELL (R389). A write to the submission tail doorbell. -/
  | sqDoorbell (w : Agent) (q : Nat) (v : Word)
  /-- CQ_DOORBELL (R389). A write to the completion head doorbell. -/
  | cqDoorbell (w : Agent) (q : Nat) (v : Word)
  /-- QP_ENABLE (R388). Setting HPT_QP_CFG.enable starts the queue pair afresh or sets cfg_error. -/
  | qpEnable (f q : Nat) (cfg : Word)
  /-- QP_DISABLE (R392). Clearing enable stops fetching; enable clears after in-progress descriptors complete. -/
  | qpDisable (f q : Nat)
  /-- CONTEXT_CREATE (R386). HPT_CTX_CREATE.create creates a context or records a refusal. -/
  | contextCreate (f : Nat) (debugOpen : Bool)
  /-- DESCRIPTOR_FETCH (R390). The device fetches a descriptor when the completion ring has room. -/
  | descriptorFetch (q : Nat) (d : Desc)
  /-- DESCRIPTOR_START (R395). A fetched descriptor starts once its ordering constraints are met. -/
  | descriptorStart (q k : Nat)
  /-- DESCRIPTOR_NOP (R407). NOP descriptor completes with success. -/
  | descriptorNop (q k : Nat)
  /-- DMA_COPY (R399). DMA_COPY checks all its addresses and rights and begins its transfer. -/
  | dmaCopy (q k : Nat)
  /-- DMA_UNIT (R400). One unit of a DMA_COPY moves, converts or sets tags when its tag permits. -/
  | dmaUnit (q k : Nat) (host : Row) (u : Upset)
  /-- HOST_COMPLETION_TIMEOUT (R406). A host request unanswered within cpl_timeout completes as host error. -/
  | hostCompletionTimeout (w : Waiter)
  /-- JOURNAL_MARK (R308). Writes a MARK record and completes. -/
  | journalMark (q k : Nat)
  /-- FENCE (R395). FENCE descriptor completes once earlier descriptors of its scope complete. -/
  | fence (q k : Nat)
  /-- SET_PARAM (R404). CONTEXT_CTL sets a context parameter for the next boundary. -/
  | setParam (q k : Nat)
  /-- SELECT_LAYOUT (R432). CONTEXT_CTL selects a layout of an image slot, at once during a shrink. -/
  | selectLayout (q k : Nat)
  /-- SET_HANDLE (R90). CONTEXT_CTL writes a handle entry for the next boundary. -/
  | setHandle (q k : Nat)
  /-- SET_SPAN (R95). CONTEXT_CTL defines a span handle. -/
  | setSpan (q k : Nat) (bytes : List Word)
  /-- SPILL_HANDLE (R100). CONTEXT_CTL spills a handle to a backing tier at the boundary. -/
  | spillHandle (q k : Nat)
  /-- RESTORE_HANDLE (R100). CONTEXT_CTL restores a spilled handle to tarn at the boundary. -/
  | restoreHandle (q k : Nat)
  /-- MAP_PAGES (R405). CONTEXT_CTL gives the context ownership of pages. -/
  | mapPages (q k : Nat)
  /-- UNMAP_PAGES (R405). CONTEXT_CTL releases pages of the context. -/
  | unmapPages (q k : Nat)
  /-- ASSIGN_CORES (R371). CONTEXT_CTL assigns or unassigns host-processor cores, resetting them. -/
  | assignCores (q k : Nat)
  /-- KILL (R410). CONTEXT_CTL KILL starts the kill sequence of its context. -/
  | kill (q k : Nat)
  /-- KILL_CRYPTO_ERASE (R410). After drain and scrub, the context key is destroyed and the kill is reported complete. -/
  | killCryptoErase (x : Nat)
  /-- PAGE_ZEROING_DONE (R405). Background zeroing of erased pages ends and they become mappable. -/
  | pageZeroingDone (pages : List Nat)
  /-- PRT_CTX_KILL (R410). A physical function kills a context of its partition by register. -/
  | prtCtxKill (a : Agent) (p x : Nat)
  /-- CONTEXT_SAVE_DONE (R409). The save completes and the tarn scrub begins. -/
  | contextSaveDone (p : Nat)
  /-- SCRUB_DONE (R106). The scrub completes with every row zero and EMPTY. -/
  | scrubDone (p : Nat)
  /-- CONTEXT_RESTORE_DONE (R409). The incoming context's tarn is restored and its first step may be released. -/
  | contextRestoreDone (p : Nat)
  /-- FUNCTION_LEVEL_RESET (R383). FLR resets a function and kills its contexts. -/
  | functionLevelReset (f : Nat)
  /-- HOT_RESET (R383). A hot reset resets every function of the link. -/
  | hotReset (l : Nat)
  /-- LINK_DOWN (R383). A host link goes down, resetting every function of the link. -/
  | linkDown (l : Nat)
  /-- LOAD_IMAGE (R423). LOAD_IMAGE checks envelope and manifest, unwraps the key, chooses a layout and reserves. -/
  | loadImage (q k : Nat) (img : Image)
  /-- SHARD_FETCH_DONE (R426). A shard fetch completes; it is checked, decrypted or fetched again. -/
  | shardFetchDone (x slot shard : Nat) (r : FetchResult) (rows : List Row)
  /-- SHARD_COPY_DONE (R425). A shard copied from a sharing partition completes. -/
  | shardCopyDone (x slot shard : Nat)
  /-- SHARD_TIMEOUT (R426). A shard not fully arrived within shard_timeout completes the load with host error. -/
  | shardTimeout (x slot shard : Nat)
  /-- SHARD_ROWS_RECEIVED (R424). A chain region writes its rows of a shard and forwards the rest; the load may complete. -/
  | shardRowsReceived (x slot shard r : Nat)
  /-- SWAP_IMAGE (R428). SWAP_IMAGE is accepted for the next boundary. -/
  | swapImage (q k : Nat)
  /-- SLOT_RETIRE_RELEASE (R430). A RETIRING slot with no pinning queue pair becomes EMPTY. -/
  | slotRetireRelease (x slot : Nat)
  /-- GET_VERSION (R440). SPDM GET_VERSION request. -/
  | getVersion (m : SpdmPath)
  /-- GET_CAPABILITIES (R440). SPDM GET_CAPABILITIES request. -/
  | getCapabilities (m : SpdmPath)
  /-- NEGOTIATE_ALGORITHMS (R441). SPDM algorithm negotiation. -/
  | negotiateAlgorithms (m : SpdmPath) (a : SpdmAlgorithms)
  /-- GET_DIGESTS (R443). SPDM GET_DIGESTS reports both certificate slots. -/
  | getDigests (m : SpdmPath)
  /-- GET_CERTIFICATE (R443). SPDM GET_CERTIFICATE returns a Pewter chain. -/
  | getCertificate (m : SpdmPath) (slot off len : Nat)
  /-- CHALLENGE (R443). SPDM CHALLENGE signed by the lease holder. -/
  | challenge (m : SpdmPath) (slot : Nat) (nonce : BitVec 256)
  /-- GET_MEASUREMENTS (R439). SPDM GET_MEASUREMENTS returns signed measurement blocks and context reports. -/
  | getMeasurements (m : SpdmPath) (slot index : Nat) (nonce : BitVec 256)
  /-- KEY_EXCHANGE (R442). SPDM KEY_EXCHANGE with ML-KEM encapsulation on the panel. -/
  | keyExchange (m : SpdmPath) (slot : Nat) (key : Nat)
  /-- FINISH (R440). SPDM FINISH completes session establishment. -/
  | finish (m : SpdmPath) (session : Nat) (ok : Bool)
  /-- HEARTBEAT (R444). SPDM session HEARTBEAT. -/
  | heartbeat (m : SpdmPath) (session : Nat)
  /-- KEY_UPDATE (R440). SPDM KEY_UPDATE. -/
  | keyUpdate (m : SpdmPath) (session : Nat)
  /-- END_SESSION (R440). SPDM END_SESSION. -/
  | endSession (m : SpdmPath) (session : Nat)
  /-- CHUNK_SEND (R440). SPDM CHUNK_SEND. -/
  | chunkSend (m : SpdmPath) (session handle seq : Nat) (last : Bool)
  /-- CHUNK_GET (R440). SPDM CHUNK_GET. -/
  | chunkGet (m : SpdmPath) (session handle seq : Nat)
  /-- VENDOR_DEFINED_REQUEST (R452). SPDM vendor request carrying IDE_KM or TDISP. -/
  | vendorDefinedRequest (m : SpdmPath) (session : Nat) (v : VendorRequest)
  /-- LOCK_INTERFACE (R454). TDISP LOCK_INTERFACE freezes a virtual function's configuration. -/
  | lockInterface (f : Nat)
  /-- SPDM_SESSION_TIMEOUT (R444). A session ends after three heartbeat periods without a message. -/
  | spdmSessionTimeout (session : Nat)
  /-- FUSE_WRITE (R438). The lease holder writes a policy fuse on an operator command. -/
  | fuseWrite (epoch : Nat) (v : FuseValue)
  /-- DEBUG_SESSION_START (R460). A JTAG instruction load or debug command begins a debug session. -/
  | debugSessionStart (t : DebugTrigger)
  /-- DEBUG_SESSION_END (R460). A debug session ends after Test-Logic-Reset and 60 s without commands. -/
  | debugSessionEnd
  /-- DEBUG_HALT (R459). Operator debug halts a cluster or core. -/
  | debugHalt (t : DebugTarget)
  /-- DEBUG_RESUME (R459). Operator debug resumes a halted cluster or core. -/
  | debugResume (t : DebugTarget)
  /-- DEBUG_SINGLE_STEP (R459). Operator debug single-steps a halted cluster or core. -/
  | debugSingleStep (t : DebugTarget)
  /-- DEBUG_READ (R458). Operator debug reads state, returning zeros or ciphertext for sealed data and logging it. -/
  | debugRead (o : DebugObject)
  /-- BUDGET_REQ (R470). A steward's 100 µs budget request reaches the lease holder, which sets grants and caps. -/
  | budgetReq (r : Nat) (req : Word)
  /-- BUDGET_GRANT (R472). A steward receives its grant and adjusts gating. -/
  | budgetGrant (r : Nat) (grant : BitVec 96)
  /-- GRANT_TIMEOUT (R473). A steward without a grant for three intervals falls back to its safe grant. -/
  | grantTimeout (r : Nat)
  /-- STATUS (R464). A BPM STATUS frame updates segment ratings, sense faults and available power. -/
  | status (port : Nat) (f : BitVec 256)
  /-- TELEMETRY (R480). A BPM TELEMETRY frame is policed. -/
  | telemetry (port : Nat) (f : BitVec 256)
  /-- BPM_ACK (R477). The BPM acknowledges a command. -/
  | bpmAck (port : Nat) (f : BitVec 256)
  /-- ALERT (R477). The BPM reports a fault. -/
  | alert (port : Nat) (f : BitVec 256)
  /-- KEEPALIVE (R478). The lease holder sends the BPM a keepalive every 2 ms. -/
  | keepalive
  /-- BPM_STATUS_TIMEOUT (R480). No valid STATUS for 300 µs on a port or both ports. -/
  | bpmStatusTimeout (port : Nat)
  /-- BPM_PG_FAILURE (R480). BPM_PG falls while rails are on; regions Hold and rails are re-commanded. -/
  | bpmPgFailure
  /-- BPM_PRESENT_N (R480). BPM presence changes. -/
  | bpmPresentN (level : Bool)
  /-- BPM_HOLD_N (R478). BPM_HOLD_N falls and every region enters Hold; management lost is signalled. -/
  | bpmHoldN
  /-- PNL_KILL_N (R479). PNL_KILL_N is driven low and every rail except VAON is removed. -/
  | pnlKillN
  /-- JUNCTION_KILL_COMPARATOR (R499). A thermal diode reaches its kill threshold and drives PNL_KILL_N. -/
  | junctionKillComparator (r site : Nat)
  /-- OVERCURRENT_TRIP (R468). A region's input switch opens on overcurrent. -/
  | overcurrentTrip (r : Nat)
  /-- PHASE_FAILURE (R467). A final-stage phase fails, with sharing, a cap or Dark. -/
  | phaseFailure (r phase : Nat)
  /-- REGION_POWER_UP (R484). Operator commands a region in no partition up from Dark. -/
  | regionPowerUp (r : Nat)
  /-- SOFT_START_CHECK (R482). Every 10 µs the steward checks whether the segment admits a soft start. -/
  | softStartCheck (r iseg : Nat)
  /-- SOFT_START_STEP_DOWN (R483). After 5 ms the partner region steps down or holds to admit the soft start. -/
  | softStartStepDown (r : Nat)
  /-- SOFT_START_ABANDON (R483). enable_timeout expires and the region stays Dark. -/
  | softStartAbandon (r : Nat)
  /-- SOFT_START_DONE (R481). The 128 µs soft start ends and the region's rails ramp. -/
  | softStartDone (r : Nat)
  /-- REGION_POWER_UP_DONE (R484). HBM training ends and the region enters Run. -/
  | regionPowerUpDone (r : Nat)
  /-- HOLD_ENTRY (R486). The lease holder moves a region to Hold. -/
  | holdEntry (r : Nat) (epoch : Nat)
  /-- QUIET_ENTRY (R487). A region enters Quiet by its sequence. -/
  | quietEntry (r : Nat) (epoch : Nat)
  /-- QUIET_EXIT (R487). A region leaves Quiet, calibrates and aborts a running step for recovery. -/
  | quietExit (r : Nat)
  /-- PARK_ENTRY (R488). Operator requests Park; refused if its condition fails. -/
  | parkEntry (r : Nat) (epoch : Nat)
  /-- PARK_EXIT (R62). A region leaves Park to Run and its clusters enter Idle or Reserve. -/
  | parkExit (r : Nat) (epoch : Nat)
  /-- DARK_COMMAND (R486). Operator powers a region in no partition to Dark. -/
  | darkCommand (r : Nat) (epoch : Nat)
  /-- JUNCTION_SAMPLE (R493). The steward samples junction sensors and applies warn and throttle. -/
  | junctionSample (r site hot : Nat) (diode ringOsc : Int)
  /-- HBM_SENSOR_SAMPLE (R493). An HBM controller reads its stack sensor every 1 ms. -/
  | hbmSensorSample (stack : Nat) (t : Int)
  /-- THROTTLE_ESCALATION (R495). Each further 10 ms at throttle lowers the thermal cap. -/
  | throttleEscalation (r : Nat)
  /-- THERMAL_CAP_RAISE (R496). After 100 ms cool the thermal cap rises by one step. -/
  | thermalCapRaise (r : Nat)
  /-- HARD_TRIP_KILL_CHECK (R498). 10 ms after Quiet a junction still at 110 °C drives PNL_KILL_N. -/
  | hardTripKillCheck
  /-- HARD_TRIP_RECOVERY (R498). Every hot spot below 90 °C for 100 ms; the region leaves Quiet capped. -/
  | hardTripRecovery (r : Nat)
  /-- MANIFOLD_SAMPLE (R500). The lease holder samples flow, pressure and coolant temperatures. -/
  | manifoldSample (m : Manifold)
  /-- OUTLET_CAP_STEP (R503). Outlet hot: the cap drops one step every 10 ms. -/
  | outletCapStep
  /-- COOLANT_HOLD_EXIT (R503). Flow and outlet recovered for 1 s; regions leave coolant Hold. -/
  | coolantHoldExit
  /-- COOLANT_COMPARATOR (R504). A hardware flow or pressure comparator moves every region to Hold and Quiet. -/
  | coolantComparator (pewter : Nat) (m : Manifold)
  /-- COOLANT_QUIET_EXIT (R504). Coolant recovered for 5 s; regions return to Run. -/
  | coolantQuietExit
  /-- ROTATION_COPY_DONE (R506). The exchange completes and the map entries change. -/
  | rotationCopyDone (r : Nat)
  /-- CHANGE_RECORD (R511). The standby applies a mirrored change record and acknowledges it. -/
  | changeRecord (seq : Nat)
  /-- MIRROR_ACK_TIMEOUT (R511). No acknowledgement in 100 µs marks the standby SYNCING. -/
  | mirrorAckTimeout
  /-- STANDBY_SYNC_DONE (R512). The standby has applied every record and becomes IN_STEP. -/
  | standbySyncDone (lastSeq : Nat)
  /-- ACQUIRE (R514). A voter answers a lease ACQUIRE request. -/
  | acquire (v : Voter) (f : BitVec 256)
  /-- RENEW (R514). A voter answers a lease RENEW. -/
  | renew (v : Voter) (f : BitVec 256)
  /-- RELEASE (R514). A voter ends a grant on RELEASE. -/
  | release (v : Voter) (f : BitVec 256)
  /-- VOTE (R517). A candidate or holder receives a vote and becomes holder, retries or stands down. -/
  | vote (at_ : Voter) (fromV : Voter) (f : BitVec 256)
  /-- LEASE_RENEWAL (R516). Every 2 ms the holder sends RENEW to the other voters. -/
  | leaseRenewal
  /-- LEASE_LOSS (R516). Holding fewer than two votes, the holder stops issuing commands. -/
  | leaseLoss
  /-- HOLDER_SILENCE (R517). After 6 ms of holder silence an IN_STEP standby becomes a candidate. -/
  | holderSilence
  /-- SOUTH_CANDIDACY (R517). Pewter South seeks the lease after 20 ms without North's requests. -/
  | southCandidacy
  /-- MGT_LEASE_CTL_HANDOVER (R519). Operator hands the lease to the IN_STEP standby. -/
  | mgtLeaseCtlHandover
  /-- HANDOVER_RECORD (R519). The standby receives a handover record and acquires the lease. -/
  | handoverRecord
  /-- MGMT_PORT_DOWN (R521). A management port link goes down and traffic fails over. -/
  | mgmtPortDown (i : Nat)
  /-- REDFISH_REQUEST (R523). An authorised Redfish request is served or carried out as a holder command. -/
  | redfishRequest (who : RedfishUser) (r : RedfishAction)
  /-- PARTITION_FORM (R385). Operator forms a partition; keys, step_seq and firewalls are set up. -/
  | partitionForm (p : Nat) (regions : List Nat)
  /-- PARTITION_DISSOLVE (R384). Operator dissolves a partition holding no context. -/
  | partitionDissolve (p : Nat)
  /-- HOST_LINK_BIND (R384). Operator binds a host link to a partition. -/
  | hostLinkBind (l : Nat) (p : Option Nat)
  /-- MCTP_MESSAGE (R522). An MCTP message carrying PLDM or SPDM is received. -/
  | mctpMessage (len : Nat) (kind : MctpKind)
  /-- FIRMWARE_UPDATE (R527). A new firmware image is received, checked and written to flash. -/
  | firmwareUpdate (img : FirmwareImage)
  /-- TELEMETRY_PUBLISH (R524). The holder publishes telemetry at its period, marking stale readings unavailable. -/
  | telemetryPublish (quantity : Nat)
  /-- UART_COMMAND (R522). A read-only status command arrives on the UART console. -/
  | uartCommand (len : Nat) (readOnly : Bool)
  /-- BOOT_RETRY (R528). A Pewter in recovery retries its boot every 10 s. -/
  | bootRetry (pewter : Nat) (check : BootCheck)
  /-- MGT_RCV_START (R529). Recovery mailbox opens an image transfer of a stated length. -/
  | mgtRcvStart (len : Nat)
  /-- MGT_RCV_DATA (R529). Recovery mailbox receives one image word. -/
  | mgtRcvData (w : BitVec 32)
  /-- MGT_RCV_COMMIT (R529). Recovery mailbox checks and writes the image, then resets both Pewters. -/
  | mgtRcvCommit (img : FirmwareImage)
  /-- COLD_RESET (R540). A cold reset is released and bring-up runs from event 1. -/
  | coldReset
  /-- PNL_POR_N (R540). PNL_POR_N held low for 10 µs starts a cold reset. -/
  | pnlPorN (lowNs : Nat)
  /-- PNL_WRST_N (R541). PNL_WRST_N held low for 10 µs starts a panel warm reset. -/
  | pnlWrstN (lowNs : Nat)
  /-- PNL_RESET_CTL_COLD (R540). Register command starts a cold reset. -/
  | pnlResetCtlCold
  /-- PNL_RESET_CTL_WARM (R541). Register command starts a panel warm reset. -/
  | pnlResetCtlWarm
  /-- BOOT_TIMEBASE_START (R531). Event 1: timebase leaves cold reset and Pewters self-test. -/
  | bootTimebaseStart (north south : BootCheck)
  /-- BOOT_IMAGE_CHECK (R531). Event 2: each Pewter checks its image and derives its Alias key. -/
  | bootImageCheck (north south : FirmwareImage)
  /-- BOOT_LEASE_FORMATION (R531). Event 3: Pewter link session, fuse checks, lease and tree calibration. -/
  | bootLeaseFormation (fuseNorth fuseSouth : BitVec 128) (treeDelay : List (Nat × Nat))
  /-- BOOT_DIE_CHECK (R531). Event 4: auxiliary rails on, every die checked, host-port dies released. -/
  | bootDieCheck (reports : List DieReport)
  /-- BOOT_REGION_POWER (R531). Event 5: segments on, regions soft-start and self-test their tiles. -/
  | bootRegionPower (r : Nat) (tileOk : Bool)
  /-- NEIGHBOUR_TEST (R534). Event 6: every position is tested by its mesh neighbours and judged. -/
  | neighbourTest (r : Nat) (verdicts : List Verdict)
  /-- SPARE_MAPPING (R537). Event 7: cluster maps are built with spares and mapped clusters enter Idle. -/
  | spareMapping (r : Nat)
  /-- BOOT_CROSSING_CALIBRATION (R531). Event 8: every present crossing is calibrated. -/
  | bootCrossingCalibration (ls : List (Nat × List Nat))
  /-- BOOT_HBM_TRAINING (R531). Event 9: HBM stacks trained, repairs made hard, sectors zeroed. -/
  | bootHbmTraining (failed : List Nat)
  /-- BOOT_LOCH_TRAINING (R531). Event 10: Loch ports trained and route tables built. -/
  | bootLochTraining (failed : List (Nat × Nat))
  /-- BOOT_CXL_TRAINING (R531). Event 11: CXL ports trained and devices enumerated; functions set up. -/
  | bootCxlTraining (devs : List (Nat × CxlDevice))
  /-- BOOT_COMPLETE (R531). Event 12: bring-up complete and host ports stop answering RRS. -/
  | bootComplete
  /-- PERST (R532). A port's PERST changes, ending or starting the host-port die's reset. -/
  | perst (port : Nat) (asserted : Bool) (ns : Nat)
  /-- PRT_RESET (R542). A partition reset is started and every context of the partition is killed. -/
  | prtReset (a : Agent) (p : Nat)
  /-- PARTITION_RESET_KILLS_DONE (R542). All kills ended; journal emptied, partition key replaced, reset complete reported. -/
  | partitionResetKillsDone (p : Nat)
  /-- PRT_ERRQ_CFG_ENABLE (R550). Enabling an error queue is accepted or sets cfg_error. -/
  | prtErrqCfgEnable (a : Agent) (p e : Nat) (base cfg : Word)
  /-- PRT_ERRQ_HEAD (R552). A head write frees error-queue space and raises 0x0003 for lost entries. -/
  | prtErrqHead (a : Agent) (p e : Nat) (head : BitVec 16)
  /-- LS_VDD18_LOSS (R582). LS_VDD18 leaves tolerance; low-speed pins tristate and references are lost. -/
  | lsVdd18Loss
  /-- SETUP_REGISTER_WRITE (R563). A write to a setup register without behaviour of its own stores, clears or is refused. -/
  | setupRegisterWrite (a : Agent) (off : Nat) (width : Nat) (v : Word)
  /-- LS_VDD18_RETURN (R582). LS_VDD18 returns to tolerance and the low-speed pins, monitors and references recover automatically. -/
  | lsVdd18Return
  /-- VAON_REMOVAL (R486). Removal of VAON takes the panel to Off, losing everything including the event log. -/
  | vaonRemoval
  /-- HOST_LINK_UP (R532). A host link finishes training to 128 GT/s and comes up, setting link_up. -/
  | hostLinkUp (l : Nat)
  /-- BPM_PG_RISE (R531). BPM_PG goes high after RAIL_ON and bring-up event 4 proceeds with its die checks. -/
  | bpmPgRise
  /-- RAIL_ON_PG_TIMEOUT (R539). BPM_PG not high 100 ms after RAIL_ON: rails are commanded again once, and a second failure stops bring-up. -/
  | railOnPgTimeout
  /-- LINK_RETRAIN_DONE (R238). A link or Loch port finishes retraining with its repair and returns to service, releasing the waiting launch. -/
  | linkRetrainDone (r link : Nat)
  /-- PC_RETIREMENT_DONE (R348). The pseudo-channel relocation copy ends; units are redirected, q is marked retired and its granules are unmapped. -/
  | pcRetirementDone (stack : Nat)
  /-- TRANSIT_END (R100). A handle's spill to its backing, or its restore to tarn, finishes and its rows leave HELD. -/
  | transitEnd (c h : Nat)
  /-- MGMT_PORT_UP (R521). A management port's link comes back up and can again carry the holder's traffic and PTP. -/
  | mgmtPortUp (i : Nat)
  deriving DecidableEq, Repr

end Sys2Proof
end

