-- ==== Sys2Proof/Decode.lean ====
section
/-! DEFINITION. The command a word spells by the table's bits. No row of the table of commands gives bits (a command of
the block is not encoded), so no word spells a command. The fields of a cluster instruction word are read in
Machine/Operands.lean. -/

namespace Sys2Proof

/-- The command that `nbits` bits `w` spell: none, since no row of the table gives bits. -/
def decodeTableWord (_nbits _w : Nat) : Option Instr := none

end Sys2Proof
end

