-- ==== Sys2Proof/Config.lean ====
section
/-! DEFINITION. What one panel fixes and what the manual leaves open. Every `opaque` constant below is a free value:
it has no body, nothing can be proved of it but that it is a value, and notes/assumptions/2.md lists each. -/

namespace Sys2Proof

/-- The result of VFUN function `f` on an FP32 input: a fixed function of the input bits, used where it lies within the
bound of Table 5.5 (R154). Free value. -/
opaque Config.vfun : BitVec 3 → BitVec 32 → BitVec 32

/-- Bytes the manual leaves open, the `n`-th draw: those of a row register that one instruction writes twice, its
elements and its scales (R212 with v[a] and v[c] the same register). Free value. -/
opaque Config.freeRow : Nat → Row

/-- The offset that the last samples of reference B predict for the next (Table 9.1), in ticks. Free value. -/
opaque Config.ptpPredict : List Int → Int

/-- SHA3-256 of a manifest (R412). Free value: the digest is not computed. -/
opaque Config.manifestHash : Manifest → BitVec 256

/-- SHA3-256 of a public key given as a number (R412). Free value. -/
opaque Config.keyHash : Nat → BitVec 256

/-- Whether an ML-DSA-44 signature verifies under a key over a message (R414). Free value. -/
opaque Config.verify44 : (key : BitVec 256) → (message : BitVec 256) → (signature : Nat) → Bool

/-- The content key that the context key of generation `g`, a KEM ciphertext and a wrapped key give by R415, or none
where the unwrapping fails. Free value. -/
opaque Config.unwrap : (g : Nat) → (ciphertext : Nat) → (wrapped : BitVec 384) → BitVec 256 → BitVec 256 →
  Option (BitVec 256)

/-- The ciphertext that operator debug reads of a page of a sealed context (Table 15.8, R449). Free value. -/
opaque Config.cipher : (key : Nat) → (addr : Nat) → BitVec 512 → BitVec 512

/-- The signature the lease holder makes over an SPDM transcript (R442). Free value. -/
opaque Config.sign : (die : Nat) → (transcript : Nat) → Nat

/-- The encapsulation and the digest material of a KEY_EXCHANGE response (R442). Free value. -/
opaque Config.kemReply : (key : Nat) → (n : Nat) → Nat

/-- SHA3-256 of a number's bytes (R439). Free value: the digest is not computed. -/
opaque Config.digest : Nat → BitVec 256

/-- The digest of a Pewter die's Wellspring ROM (Table 15.2, index 1). Free value. -/
opaque Config.romDigest : (die : Nat) → BitVec 256

/-- The bytes of a Pewter die's certificate chain under a firmware digest and version (R436). Free value. -/
opaque Config.certChain : (die : Nat) → (mfw : BitVec 256) → (svn : Word) → List Nat

/-- The BPM's firmware version and digest as it reports them (Table 15.2, index 8). Free value. -/
opaque Config.bpmMeasurement : Nat

/-- The encapsulation key of the context key of a generation (R415). Free value. -/
opaque Config.encapsKey : (g : Nat) → Nat

/-- What a CHUNK_RESPONSE carries (R440). Free value. -/
opaque Config.chunk : (handle seq : Nat) → Nat

/-- A key generated on the panel, the `n`-th (R448, R453). Free value. -/
opaque Config.newKey : Nat → BitVec 256

/-- The measured residual of branch calibrations, the fused base power, the thermal resistance and other values fused
or measured at test are free: base power in W of region `r` at a step (R471). -/
opaque Config.baseW : (r step : Nat) → Nat

/-- The mean power of cluster `c` over the 100 µs before tick `t`, in mW (R471, R497). Free value. -/
opaque Config.meanW : (c t : Nat) → Nat

/-- How the lease holder chooses among the grants that R472 allows, the `n`-th choice. Free value. -/
opaque Config.grantPick : Nat → Nat

/-- Which page the device would take first when it allocates memory of its own, the `n`-th allocation (R386, R421, R357).
Free value. -/
opaque Config.pick : Nat → Nat

/-- The error code of a completion whose status no code of Table 20.2 names. Free value. -/
opaque Config.statusCode : (status : Nat) → Nat

/-- The code of the event that a slot is released for want of a layout (R432), which no code of Table 20.2 names: its low
byte. Free value. -/
opaque Config.slotReleaseCode : Nat

/-- The SHA3-256 hash of firmware key `k` in the Wellspring ROM, 0 to 3 (R437). Free value. -/
opaque Config.romKeyHash : (k : Nat) → BitVec 256

/-- Whether a firmware signature, or a co-signature, verifies under the key of a hash over a manifest digest (R437).
Free value. -/
opaque Config.verifyFirmware : (cosign : Bool) → (key : BitVec 256) → (digest : BitVec 256) → (signature : Nat) → Bool

/-- The code of the event that no lease has formed within 1 s of event 2 (R539), which no code of Table 20.2 names: its
low byte. Free value. -/
opaque Config.leaseLateCode : Nat

/-- The value a PLDM sensor reads (R522), the `n`-th read. Free value. -/
opaque Config.sensorValue : (sensor n : Nat) → Nat

/-- The code of the event of a rail's sense fault, which no code of Table 20.2 names: its low byte. Free value. -/
opaque Config.railSenseCode : Nat

/-- The code of the event of a host-processor fault of a kind (Table 12.4), which no code of Table 20.2 names: its bits
below the class. Free value. -/
opaque Config.coreFaultCode : (kind : Nat) → Nat

/-- The repairs that remain in an HBM stack as training measures them, the `n`-th draw (Table 21.7). Free value. -/
opaque Config.repairsLeft : (stack n : Nat) → Nat

/-- The thermal resistance of hot spot `h` of site `site` of region `r`, in mK per W (R497). Free value. -/
opaque Config.theta : (r site h : Nat) → Nat

/-- What a byte encrypted under the context key of one generation reads as under that of another (R448). Free value. -/
opaque Config.otherKey : (old new n addr : Nat) → Byte

/-- What a read of a checkpoint area gives (R316: what it reads has no defined meaning). Free value. -/
opaque Config.checkpointByte : (context addr : Nat) → Byte

end Sys2Proof
end

