-- ==== Sys2Proof/Machine/Tbl.lean ====
section
/-! DEFINITION. Sparse tables: lists of (key, value) pairs in one canonical form, keys strictly rising and no entry
equal to what an unlisted key reads as, so that equal tables are equal lists. -/

namespace Sys2Proof.Machine

/-- A sparse table over natural keys; what an unlisted key reads as is given at each access. -/
abbrev Tbl (α : Type) := List (Nat × α)

/-- The value at key `k`; an unlisted key reads as `d k`. -/
def Tbl.get {α : Type} (d : Nat → α) : Tbl α → Nat → α
  | [], k => d k
  | (j, v) :: t, k => if k = j then v else Tbl.get d t k

/-- The table without key `k`. -/
def Tbl.erase {α : Type} : Tbl α → Nat → Tbl α
  | [], _ => []
  | (j, w) :: t, k => if k = j then Tbl.erase t k else (j, w) :: Tbl.erase t k

/-- The table with an entry put in at its place among rising keys. -/
def Tbl.insert {α : Type} : Tbl α → Nat → α → Tbl α
  | [], k, v => [(k, v)]
  | (j, w) :: t, k, v => if k < j then (k, v) :: (j, w) :: t else (j, w) :: Tbl.insert t k v

/-- The table with key `k` at `v`, in canonical form again. -/
def Tbl.set {α : Type} [DecidableEq α] (d : Nat → α) (t : Tbl α) (k : Nat) (v : α) : Tbl α :=
  if v = d k then Tbl.erase t k else Tbl.insert (Tbl.erase t k) k v

/-- Every key of the table lies above `lo`, where there is one, and keys rise strictly. -/
def Tbl.rising {α : Type} : Option Nat → Tbl α → Bool
  | _, [] => true
  | lo, (j, _) :: t => (match lo with | none => true | some l => decide (l < j)) && Tbl.rising (some j) t

/-- The canonical form of a table. -/
def Tbl.wf {α : Type} [DecidableEq α] (d : Nat → α) (t : Tbl α) : Bool :=
  Tbl.rising none t && t.all (fun e => decide (e.2 ≠ d e.1))

/-- Every listed value is replaced by `f` of its key and it; entries that become what an unlisted key reads as go. -/
def Tbl.mapVal {α : Type} [DecidableEq α] (d : Nat → α) (f : Nat → α → α) : Tbl α → Tbl α
  | [] => []
  | (j, v) :: t => if f j v = d j then Tbl.erase (Tbl.mapVal d f t) j else (j, f j v) :: Tbl.mapVal d f t

/-- The table without the keys for which `p` holds. -/
def Tbl.drop {α : Type} (p : Nat → Bool) (t : Tbl α) : Tbl α := t.filter (fun e => !p e.1)

/-- The keys listed for which `p` holds. -/
def Tbl.keysWhere {α : Type} (p : Nat → α → Bool) (t : Tbl α) : List Nat :=
  (t.filter (fun e => p e.1 e.2)).map Prod.fst

end Sys2Proof.Machine
end

