-- ==== Sys2Proof/Machine/State.lean ====
section
/-! DEFINITION. The state of the panel as plain data, every piece of state the manual names (INVENTORY.md, "State"),
and the state after reset. -/

namespace Sys2Proof.Machine

/-- Why the panel's model stops with a fault: no command of the table does; the manual describes an outcome for every
error. Kept closed: raised by nobody (safe). -/
inductive Fault where
  /-- Raised by nobody: every error of the manual has an effect of its own (safe). -/
  | none
  deriving DecidableEq, Repr

/-- Why the model refuses a command. -/
inductive Refusal where
  /-- Raised only by an arm of exec whose command has no meaning yet (safe). -/
  | notModelled (mnemonic : String)
  deriving DecidableEq, Repr

/-! ## Packets (08) -/

/-- Packet types (Table 8.4). -/
inductive PType where
  | write | read | consume | coll | collRes | memRd | memWr | data | ack | stale
  deriving DecidableEq, Repr

/-- Agents a packet names (Table 8.3). -/
inductive Node where
  | cluster (c : Nat)
  | hbm (stack : Nat)
  | chiplet (r : Nat)
  | hostDie (p : Nat)
  | cxlDie (k : Nat)
  deriving DecidableEq, Repr

/-- A packet in the fabric, its header fields (Table 8.3) and data. -/
structure Packet where
  id : Nat
  ptype : PType
  src : Node
  dst : Node
  handle : Nat := 0
  index : Word := 0
  context : Nat := 0
  partition : Nat := 0
  opTag : Nat := 0
  opGen : BitVec 16 := 0
  access : Nat := 0
  status : Nat := 0
  injectTick : Nat := 0
  span : Nat := 0
  rank : Nat := 0
  ext : Word := 0
  collDst : Word := 0
  collCount : Word := 0
  units : Nat := 0
  data : Row := 0
  stomp : Bool := false
  opcode : BitVec 8 := 0
  nth : Nat := 0
  deriving DecidableEq, Repr

/-! ## The tensor cluster -/

/-- Cluster states (Table 2.5). -/
inductive CState where
  | off | reserve | idle | running | waiting | trapped | halted | failed
  deriving DecidableEq, Repr

/-- One entry of the loop stack (R174); addresses are code offsets. -/
structure LoopEntry where
  start : Nat
  fin : Nat
  remaining : Word
  deriving DecidableEq, Repr

/-- How a code line is marked when it was fetched (R43, R586). -/
inductive Mark where
  | clean
  | address
  | integrityTarn
  | integrityHbm
  deriving DecidableEq, Repr

/-- Where a step's code lies (02, "Instruction fetch"). -/
inductive CodeSrc where
  | none
  | tarn (h : Nat)
  | hbm (base : Nat)
  deriving DecidableEq, Repr

/-- One accumulator cell (Table 5.3) or FP64 lane (R141): the integer V, the flags, the granule count, the stack of
FP64 levels, and the running sum of free-order mode (R151). -/
structure Cell where
  v : Int := 0
  nan : Bool := false
  posInf : Bool := false
  negInf : Bool := false
  range : Bool := false
  below : Bool := false
  count : Nat := 0
  stack : List (Option Word) := []
  sum : Option Word := none
  deriving DecidableEq, Repr

/-- One accumulator row: its binding (format code and anchor) and its cells (R134). -/
structure AccRow where
  bound : Option (Nat × Int) := none
  cells : Tbl Cell := []
  deriving DecidableEq, Repr

/-- A weight bank (R132, R199): the tile's element codes by column, its block scales by element block. -/
structure Bank where
  loaded : Bool := false
  fmt : Nat := 0
  scaled : Bool := false
  codes : List Nat := []
  scales : List Nat := []
  deriving DecidableEq, Repr

/-- A run-ahead load buffer entry (R53): its handle and physical row, whether it is parked, its data, its stale bit. -/
structure RaEntry where
  handle : Nat
  row : Nat
  parked : Bool
  data : Row
  stale : Bool
  deriving DecidableEq, Repr

/-- A receive-prefetch buffer entry (R56, R57). -/
structure Prefetch where
  owner : Nat
  handle : Nat
  index : Word
  tag : Nat
  data : Option Row
  watched : Bool
  stale : Bool
  deriving DecidableEq, Repr

/-- A watch served by an owner (R56). -/
structure Watch where
  requester : Nat
  row : Nat
  handle : Nat
  deriving DecidableEq, Repr

/-- What an outstanding operation is (07, "Point-to-point fabric instructions"). -/
inductive OpKind where
  | send | recv | prefetch | consume | mcast | mld | mst
  | coll
  deriving DecidableEq, Repr

/-- An entry of the outstanding-operation table (R215, R219, R254). -/
structure Op where
  tag : Nat
  gen : BitVec 16
  kind : OpKind
  pc : BitVec 32
  dst : Nat
  flow : Nat
  progress : Nat
  busyUntil : Option Nat := none
  pkt : Packet
  deriving DecidableEq, Repr

/-- A flow entry (R250, R253): its key, the route epoch of its last packet, its packets outstanding. -/
structure Flow where
  key : Nat
  region : Nat
  epoch : Nat
  outstanding : Nat
  heldOnRoute : Bool := false
  deriving DecidableEq, Repr

/-- CLU_FAB_FAULT (R221). -/
structure FabFault where
  cause : BitVec 8 := 0
  more : BitVec 8 := 0
  dst : BitVec 13 := 0
  pc : BitVec 32 := 0
  deriving DecidableEq, Repr

/-- A collective in progress at one member (R264, R265): the number it has on its source span, its parameters, its
rank and members, its own source rows, the rows its children delivered in the order they arrived, the packets it still
has to send and the rows it still has to write into its own tarn, how many of its packets wait for their
acknowledgement, its status, and the tick of its last progress. -/
structure Coll where
  nth : Nat
  pc : BitVec 32
  opcode : BitVec 8
  ext : Word
  src : Word
  dst : Word
  n : Nat
  rank : Nat
  members : List Nat
  dstHandles : List Nat
  still : Bool
  own : List Row
  progress : Nat
  child : List (Nat × Row) := []
  seen : List Nat := []
  sent : Nat := 0
  finished : Bool := false
  outq : List Packet := []
  localq : List Packet := []
  due : Nat := 0
  status : Nat := 0
  childWaves : List Nat := []
  waveUp : Bool := false
  done : Bool := false
  deriving DecidableEq, Repr

/-- What holds retirement (R585): the instruction's opcode and word, the row operation it has reached, and the panel
time its present wait began, if it waits. -/
structure Hold where
  opcode : BitVec 8
  iss : Issue
  j : Nat := 0
  since : Option Nat := none
  target : Nat := 0
  tag : Nat := 128
  left : List Nat := []
  data : Option Row := none
  deriving DecidableEq, Repr

/-- An access held in an owner's remote-wait queue (R84): its packet and when its wait began. -/
structure RemoteWait where
  pkt : Packet
  since : Nat
  deriving DecidableEq, Repr

/-- The architectural registers of a cluster (Table 2.1). -/
structure Regs where
  s : Tbl Word := []
  p : BitVec 8 := 1
  v : Tbl Row := []
  m : Tbl Mask := []
  pc : BitVec 32 := 0
  loops : List LoopEntry := []
  deriving DecidableEq, Repr

/-- The trap registers of a cluster (R40, Table 21.11). -/
structure TrapRegs where
  cause : BitVec 8 := 0
  sw : BitVec 16 := 0
  row : BitVec 14 := 0
  pc : BitVec 32 := 0
  deriving DecidableEq, Repr

/-- The code range and the fetched lines of a cluster (R42 to R44). -/
structure CodeState where
  src : CodeSrc := .none
  len : Nat := 0
  lines : Tbl (Option Row) := []
  marks : Tbl Mark := []
  waits : Tbl (Option Nat) := []
  deriving DecidableEq, Repr

/-- The Electrum engine of a cluster (05). -/
structure Engine where
  accs : Tbl AccRow := []
  bank0 : Bank := {}
  bank1 : Bank := {}
  deriving DecidableEq, Repr

/-- Run-ahead state of a cluster (R50 to R58). -/
structure Ahead where
  loads : List RaEntry := []
  prefetch : List Prefetch := []
  watches : List Watch := []
  deriving DecidableEq, Repr

/-- Fabric state of a cluster (07, 08). -/
structure FabState where
  ops : List Op := []
  gens : Tbl (BitVec 16) := []
  flows : List Flow := []
  fault : FabFault := {}
  colls : List Coll := []
  remoteWait : List RemoteWait := []
  collBuf : List Packet := []
  collCount : Tbl Nat := []
  windowReads : Nat := 0
  deriving DecidableEq, Repr

/-- The counters of a cluster (Table 2.6, R118, R139, R142, R192). -/
structure Counters where
  retired : Word := 0
  waitTicks : Word := 0
  sqMispredict : BitVec 32 := 0
  sqTrap : BitVec 32 := 0
  sqStale : BitVec 32 := 0
  sqAbort : BitVec 32 := 0
  sqSwitch : BitVec 32 := 0
  raStale : BitVec 32 := 0
  crcMismatch : BitVec 32 := 0
  portConflict : BitVec 32 := 0
  parity : BitVec 16 := 0
  deriving DecidableEq, Repr

/-- The arithmetic event counters of a cluster (R118, R139, R142, R192). -/
structure Events where
  sat : BitVec 32 := 0
  nanOut : BitVec 32 := 0
  nanScale : BitVec 32 := 0
  nanToInt : BitVec 32 := 0
  residue : BitVec 32 := 0
  range : BitVec 32 := 0
  below : BitVec 32 := 0
  late : BitVec 32 := 0
  lateMax : Nat := 0
  deriving DecidableEq, Repr

/-- Health of a cluster (R66 to R71, R105): fault times, heartbeats, ageing, spare rows. -/
structure Health where
  parityTimes : List Nat := []
  engineTimes : List Nat := []
  ageSamples : List (BitVec 16) := []
  warn : Bool := false
  migrate : Bool := false
  subst : Bool := false
  substTick : Nat := 0
  rowFails : List Nat := []
  retiring : List Nat := []
  redirected : List Nat := []
  spareLeft : Nat := 128
  deriving DecidableEq, Repr

/-- One tensor cluster, by its logical cluster number (Table 2.1). -/
structure Cluster where
  st : CState := .off
  haltedFrom : CState := .off
  regs : Regs := {}
  trap : TrapRegs := {}
  code : CodeState := {}
  eng : Engine := {}
  ahead : Ahead := {}
  fab : FabState := {}
  cnt : Counters := {}
  ev : Events := {}
  health : Health := {}
  handles : Tbl HandleEntry := []
  hold : Option Hold := none
  hintLevel : BitVec 4 := 0
  hintUntil : Nat := 0
  stepOne : Bool := false
  deriving DecidableEq, Repr

/-! ## Tarn and memory -/

/-- Fill tags (Table 3.3). -/
inductive Tag where
  | empty | full | poisoned | held
  deriving DecidableEq, Repr

/-- A tarn row (R74, R80): data, fill tag, the difference between the stored CRC and the CRC of the data (0 where the
CRC is right), and the tag to return to when a holder ends. -/
structure TarnRow where
  data : Row := 0
  tag : Tag := .empty
  syndrome : BitVec 32 := 0
  former : Tag := .empty
  deriving DecidableEq, Repr

/-- What a 4 KiB page is held for (R386, R405, R316, R422). -/
inductive PageUse where
  | free | mapped | stepInput | save | checkpoint | image | zeroing
  deriving DecidableEq, Repr

/-- A 4 KiB page of HBM or tier 2: its use, its owner context, and the generation + 1 of the context key its bytes are
encrypted under, 0 where none (R448). -/
structure Page where
  use : PageUse := .free
  owner : Nat := 0
  unmapped : Bool := false
  key : Nat := 0
  deriving DecidableEq, Repr

/-! ## Regions and time -/

/-- Power states (Table 16.11). -/
inductive PState where
  | run | hold | quiet | park | dark
  deriving DecidableEq, Repr

/-- Why a region is in Hold or Quiet (Table 16.12, Table 17.5). -/
inductive HoldCause where
  | droop | tick | bpmHold | bpmPg | softStart | coolant | hardTrip | command | powerShort | fatal
  deriving DecidableEq, Repr

/-- A frequency step change in progress (R286): the step it goes to, and how far it is. -/
structure StepChange where
  target : Nat
  stage : Nat
  started : Nat
  deriving DecidableEq, Repr

/-- A hot spot's two sensors (R493). -/
structure HotSpot where
  diode : Int := 0
  ring : Int := 0
  diodePrev : Option Int := none
  ringPrev : Option Int := none
  diodeValid : Bool := false
  ringValid : Bool := false
  reading : Int := 0
  recent : List Int := []
  history : List (Nat × Int) := []
  filtered : Int := 0
  flagged : Bool := false
  apartSince : Option Nat := none
  agreeSince : Option Nat := none
  blind : Bool := false
  validSince : Option Nat := none
  warnTick : Option Nat := none
  throttleTick : Option Nat := none
  tripCount : Nat := 0
  deriving DecidableEq, Repr

/-- The budget state of a region steward (R470 to R474). -/
structure Budget where
  grant : Nat := 0
  maxStep : Nat := 8
  measured : Nat := 0
  forecast : Nat := 0
  seq : Nat := 0
  lastGrant : Nat := 0
  issued : Nat := 0
  gating : Nat := 0
  fallback : Bool := false
  deriving DecidableEq, Repr

/-- A soft start in progress (R481 to R484); at bring-up it is kept until the region enters Run, with how far event 5 (1),
6 (2) and 7 (3) have been done for the region. -/
structure SoftStart where
  started : Nat
  begun : Option Nat := none
  partnerStep : Option Nat := none
  partnerHeld : Bool := false
  partnerDue : Bool := false
  ramped : Bool := false
  bootStage : Nat := 0
  deriving DecidableEq, Repr

/-- A rotation or a planned substitution in progress (R330, R506). -/
structure Exchange where
  a : Nat
  b : Nat
  rotation : Bool
  deriving DecidableEq, Repr

/-- One region (01, 16, 17). -/
structure Region where
  part : Option Nat := none
  inService : Bool := true
  pstate : PState := .dark
  causes : List HoldCause := []
  step : Nat := 8
  change : Option StepChange := none
  thermalCap : Nat := 0
  capTick : Nat := 0
  coolTick : Option Nat := none
  cycle : Word := 0
  halfPeriods : Nat := 0
  gateCount : Nat := 0
  cmap : Tbl (BitVec 32) := []
  condemned : List (Nat × Nat) := []
  sitesFailed : List Nat := []
  epoch : Nat := 0
  epochRejects : Nat := 0
  budget : Budget := {}
  phases : Word := 0
  darkTrips : Nat := 0
  soft : Option SoftStart := none
  exchange : Option Exchange := none
  hot : Tbl HotSpot := []
  quietTick : Nat := 0
  droopHolds : List Nat := []
  droopLower : Bool := false
  syncLate : BitVec 32 := 0
  stepLate : Nat := 0
  stepLateMax : Nat := 0
  retire : Bool := false
  upperUnmapped : Bool := false
  linear : Option Nat := none
  slips : List Nat := []
  rotTick : Tbl Nat := []
  senseFault : Bool := false
  blocker : Option Nat := none
  cores : Bool := true
  deriving DecidableEq, Repr

/-- One of the 25 clock domains (09, Table 9.4). -/
structure Domain where
  ticks : Nat := 0
  phase : Nat := 0
  pend : Nat := 0
  deficit : Nat := 0
  treeDelay : BitVec 24 := 0
  lastBeacon : Option Nat := none
  missed : Nat := 0
  ignored : BitVec 32 := 0
  large : BitVec 32 := 0
  stretch125 : BitVec 32 := 0
  stretch150 : BitVec 32 := 0
  droopGates : BitVec 32 := 0
  gatedPeriods : BitVec 32 := 0
  burst : Nat := 0
  gateLeft : Nat := 0
  tickLost : Bool := false
  hold : Bool := false
  outOfService : Bool := false
  deriving DecidableEq, Repr

/-- One crossing (Table 9.9, R292): the entry's fields, and the state of its calibration. -/
structure Crossing where
  latency : Nat := 0
  fifoPeak : Nat := 0
  outOfService : Bool := false
  txStep : Nat := 0
  rxStep : Nat := 0
  attempts : Nat := 0
  maxSlip : Nat := 0
  slips : Nat := 0
  calibrating : Bool := false
  best : Option Nat := none
  failures : Nat := 0
  retryAtBeacon : Bool := false
  logged : Option Nat := none
  deriving DecidableEq, Repr

/-- Reference states (Table 9.2). -/
inductive RefState where
  | freerun | acquire | locked | holdover
  deriving DecidableEq, Repr

/-- The timebase die (09). -/
structure Timebase where
  running : Bool := false
  now : Nat := 0
  ref : RefState := .freerun
  source : Bool := false
  primary : Bool := false
  revert : Bool := true
  tenWindows : Nat := 0
  tenQualified : Bool := false
  ppsGood : Nat := 0
  ppsBad : Nat := 0
  ppsExpected : Option Nat := none
  aDiscards : BitVec 16 := 0
  aQualified : Bool := false
  ptpGood : Nat := 0
  ptpPast : List Int := []
  bDiscards : BitVec 16 := 0
  bQualified : Bool := false
  lastPtp : Nat := 0
  primarySince : Option Nat := none
  epochOffset : BitVec 63 := 0
  epochValid : Bool := false
  todSet : BitVec 48 := 0
  todWritten : Bool := false
  ptpDomain : BitVec 8 := 0
  ptpPorts : BitVec 2 := 3
  xoLost : Bool := false
  steering : Int := 0
  deriving DecidableEq, Repr

/-! ## Fabric -/

/-- A link (R238 to R240), by region and link number (21, FAB_ numbering). -/
structure FabLink where
  crcDiscards : BitVec 32 := 0
  recent : List Nat := []
  repairs : Nat := 0
  outOfService : Bool := false
  due : Bool := false
  retraining : Option Nat := none
  heldSince : Option Nat := none
  rejoin : Bool := false
  deriving DecidableEq, Repr

/-! ## Partitions, contexts and queues -/

/-- Journal record types (Table 10.4) with what each holds (Table 10.2). -/
inductive JRec where
  | pad
  | launch (d : Desc) (still : Bool) (layout epoch q : Nat)
  | complete
  | abort (cause : Nat)
  | hostData (addr len : Nat) (data : Row)
  | tagSet (addr : Nat) (full : Bool)
  | windowRead (c n addr len : Nat) (data : Row)
  | coreData (addr len : Nat) (data : Row)
  | preImage (page : Nat) (bytes : List Host.Cell) (mask : BitVec 128)
  | ctl (param : Nat) (old new : Word)
  | mark (tag : Word)
  | checkpoint (area len : Nat)
  | epoch (old new : Nat)
  deriving DecidableEq, Repr

/-- A journal record (Table 10.3): its context, sequence number, tick, length in 64 B units, and content. -/
structure JEntry where
  ctx : Nat
  seq : Nat
  tick : Nat
  units : Nat
  body : JRec
  deriving DecidableEq, Repr

/-- A step that runs (R303): its context, queue pair and descriptor, its clusters in rank order, and which have
retired END. -/
structure RunStep where
  ctx : Nat
  q : Nat
  k : Nat
  desc : Desc
  seq : Nat
  still : Bool
  epoch : Nat
  clusters : List Nat
  ended : List Nat := []
  starts : Nat := 0
  replay : Bool := false
  feed : List JEntry := []
  feedSince : Option Nat := none
  deriving DecidableEq, Repr

/-- Stages of a recovery (R321). -/
inductive RStage where
  | draining | waitLayout | replaced | restoring | replaying | done
  deriving DecidableEq, Repr

/-- A recovery in progress (R320 to R329). -/
structure Recovery where
  stage : RStage
  cause : Nat
  started : Nat
  step : Option RunStep
  lost : List Nat := []
  layoutDeadline : Option Nat := none
  journalFull : Bool := false
  script : List JEntry := []
  since : Option Nat := none
  deriving DecidableEq, Repr

/-- Stages of a context switch (R409). -/
inductive SwitchStage where
  | saving | scrubbing | restoring
  deriving DecidableEq, Repr

/-- A context switch in progress (R409). -/
structure CtxSwitch where
  stage : SwitchStage
  outgoing : Option Nat
  incoming : Nat
  deriving DecidableEq, Repr

/-- An error queue (R550 to R552). -/
structure ErrQ where
  base : Word := 0
  log2 : Nat := 4
  minClass : Nat := 0
  enable : Bool := false
  vector : Nat := 0
  hart : Nat := 0
  file : Nat := 0
  identity : Nat := 0
  head : Nat := 0
  tail : Nat := 0
  phase : Bool := true
  lost : BitVec 32 := 0
  unreported : Nat := 0
  cfgError : Bool := false
  deriving DecidableEq, Repr

/-- An accepted launch that waits for the arbiter (R397, R398). -/
structure Launch where
  q : Nat
  k : Nat
  ctx : Nat
  desc : Desc
  epoch : Nat
  deriving DecidableEq, Repr

/-- A partition (10, 13). -/
structure Part where
  formed : Bool := false
  regions : List Nat := []
  keyGen : Nat := 0
  journalBase : Nat := 0
  journalGib : Nat := 4
  journalReserve : Nat := 1
  journalHead : Nat := 0
  journal : List JEntry := []
  journalLow : Bool := false
  stepSeq : Nat := 1
  resident : Option Nat := none
  residentSince : Nat := 0
  running : Option RunStep := none
  launches : List Launch := []
  lastQ : Option Nat := none
  pendingCause : Option (Nat × Nat) := none
  recovery : Option Recovery := none
  drain : Option Nat := none
  switching : Option CtxSwitch := none
  scrubbing : Bool := false
  errqs : Tbl ErrQ := []
  interleave : Bool := false
  quantum : Nat := 10
  shareAllow : Bool := false
  shardTimeout : Nat := 2000
  resetting : Bool := false
  retrainHold : Bool := false
  ckptBusy : Option (Nat × Nat × Nat) := none
  testDue : List Nat := []
  lateWrites : List (Nat × Word) := []
  deriving DecidableEq, Repr

/-- Context states (Table 13.3). -/
inductive XState where
  | free | waiting | resident | recovering | killing
  deriving DecidableEq, Repr

/-- The parameters of a context (Table 13.10). -/
structure Params where
  tagWaitUs : Nat := 100
  window : Nat := 16
  fabTimeoutUs : Nat := 20
  shrinkS : Nat := 10
  seed : Word := 0
  hostBase : Nat := 0
  pasid : Nat := 0
  deriving DecidableEq, Repr

/-- A member of a span (Table 3.7). -/
structure SpanMember where
  cluster : Nat
  handle : Nat
  deriving DecidableEq, Repr

/-- A span handle (R94). -/
structure Span where
  members : List SpanMember := []
  stripe : Nat := 0
  tagged : Bool := false
  format : Nat := 0
  deriving DecidableEq, Repr

/-- Slot states (Table 14.5). -/
inductive SlotState where
  | empty | loading | staged | current | retiring
  deriving DecidableEq, Repr

/-- An image slot (14). -/
structure Slot where
  state : SlotState := .empty
  layout : Nat := 0
  epoch : Nat := 0
  still : Bool := false
  share : Bool := false
  image : Option Image := none
  contentKey : BitVec 256 := 0
  q : Nat := 0
  k : Nat := 0
  started : Nat := 0
  fetched : List Nat := []
  retries : Tbl Nat := []
  rows : Tbl (List Row) := []
  written : List (Nat × Nat) := []
  handles : List (Nat × Nat × HandleEntry) := []
  spans : List (Nat × Span) := []
  areas : List Nat := []
  directory : Nat := 0
  staging : Option (Nat × Nat) := none
  requestTicks : Tbl Nat := []
  deriving DecidableEq, Repr

/-- A change that takes effect at the next step boundary (R403). -/
inductive Deferred where
  | param (param : Nat) (value : Word)
  | handle (c h : Nat) (e : HandleEntry)
  | span (n : Nat) (s : Span)
  | spill (c h tier : Nat) (addr : Nat)
  | restore (c h : Nat)
  | unmap (base count : Nat)
  | swap (old new : Nat)
  | current (slot : Nat)
  | checkpoint (area len : Nat)
  deriving DecidableEq, Repr

/-- A handle on its way to its backing, or back to tarn (R100): where its rows and its tag bitmap go. -/
structure Transit where
  c : Nat
  h : Nat
  spill : Bool
  backing : Nat
  addr : Nat
  bitmap : Nat
  deriving DecidableEq, Repr

/-- What a checkpoint or a save area holds (R316, R386). -/
structure Saved where
  rows : Tbl TarnRow := []
  handles : Tbl HandleEntry := []
  spans : Tbl Span := []
  params : Params := {}
  layout : Nat := 0
  epoch : Nat := 0
  live : List (Nat × List (Nat × Nat × HandleEntry) × List (Nat × Span)) := []
  deriving DecidableEq, Repr

/-- A context (13). -/
structure Ctx where
  st : XState := .free
  fn : Nat := 0
  part : Nat := 0
  debugOpen : Bool := false
  keyGen : Nat := 0
  quota : Nat := 0
  lastError : Nat := 0
  params : Params := {}
  deferred : List (Option (Nat × Nat) × Deferred) := []
  transit : Option (Option (Nat × Nat) × Transit) := none
  spans : Tbl Span := []
  slots : Tbl Slot := []
  epoch : Nat := 0
  layout : Nat := 0
  written : Tbl Bool := []
  ckpt : Option (Nat × Nat) := none
  ckptSaved : Saved := {}
  ckptPending : Option (Nat × Nat) := none
  save : Option Saved := none
  saveRuns : List (Nat × Nat) := []
  debugReads : BitVec 32 := 0
  recoverPending : Option Nat := none
  needLayout : Bool := false
  killQ : Option (Nat × Nat) := none
  killStage : Nat := 0
  lastTimeout : Option (Nat × Nat × Nat × Nat) := none
  beenResident : Bool := false
  deriving DecidableEq, Repr

/-- A descriptor fetched and not yet completed (R390). Of a DMA_COPY: the units read and written, the source rows and
scale rows read and still needed, the destination scales not yet written, the scale rows written, when its wait on a tag
began, and when its read of the host was sent. -/
structure Prog where
  k : Nat
  desc : Desc
  started : Bool := false
  running : Bool := false
  read : Nat := 0
  moved : Nat := 0
  buf : List Row := []
  scaleRead : Nat := 0
  scaleBuf : List Row := []
  scaleOut : List Nat := []
  scaleMoved : Nat := 0
  since : Option Nat := none
  hostSince : Option Nat := none
  order : Nat := 0
  deriving DecidableEq, Repr

/-- A queue pair (R388 to R392, R428, R588). -/
structure Qp where
  fn : Nat := 0
  configured : Bool := false
  sqBase : Word := 0
  cqBase : Word := 0
  cfg : Word := 0
  enabled : Bool := false
  disabling : Bool := false
  cfgError : Bool := false
  sqTail : Nat := 0
  fetch : Nat := 0
  cqHead : Nat := 0
  cqTail : Nat := 0
  phase : Bool := true
  prog : List Prog := []
  badDoorbell : BitVec 32 := 0
  epoch : Nat := 0
  openReq : Bool := false
  deriving DecidableEq, Repr

/-- TDISP states of a virtual function (R454). -/
inductive Tdi where
  | unlocked | locked | run | error
  deriving DecidableEq, Repr

/-- A function (R381, Table 21.5). -/
structure Fn where
  limit : Nat := 16
  lastCtx : BitVec 10 := 0
  createError : Bool := false
  apertureBase : Word := 0
  apertureCtx : Nat := 0
  apertureValid : Bool := false
  tdi : Tdi := .unlocked
  deriving DecidableEq, Repr

/-- A host link (Table 21.4). -/
structure Link where
  up : Bool := false
  part : Option Nat := none
  mgmtLost : Bool := false
  bootFailed : Bool := false
  fatal : Bool := false
  cplTimeout : Nat := 200
  deriving DecidableEq, Repr

/-- A host port (R378, R532). -/
structure Port where
  split : Bool := false
  lock : Bool := false
  splitNow : Bool := false
  released : Bool := false
  perst : Bool := true
  epoch : Nat := 0
  absent : Bool := false
  deriving DecidableEq, Repr

/-! ## Memory tiers and host processors -/

/-- An HBM stack (11). -/
structure Stack where
  corrected : Tbl Nat := []
  uncorrectable : Tbl Nat := []
  rowTimes : List (Nat × Nat) := []
  uncorrRows : List Nat := []
  softDue : List Nat := []
  soft : Nat := 0
  hard : Nat := 0
  harden : Nat := 0
  remaining : Nat := 0
  candidate : Option Nat := none
  candidates : List Nat := []
  pending : Bool := false
  pendingSince : Nat := 0
  copying : Bool := false
  retiredPc : Option Nat := none
  failed : Bool := false
  temp : Nat := 0
  throttled : Bool := false
  refreshDiv : Nat := 1
  refreshes : Nat := 0
  patrolPos : Nat := 0
  trained : Bool := false
  selfRefresh : Bool := false
  writeBack : List Nat := []
  lastSensor : Nat := 0
  warnTick : Option Nat := none
  throttleTick : Option Nat := none
  tripCount : Nat := 0
  deriving DecidableEq, Repr

/-- A CXL port (Table 21.7, R351, R445, R453). -/
structure CxlPort where
  up : Bool := false
  devices : List CxlDevice := []
  unconfigured : List Nat := []
  classical : Bool := false
  timeouts : BitVec 32 := 0
  timeoutTicks : List Nat := []
  ideRequired : Bool := false
  ideRekey : Nat := 24
  ideKey : Option (BitVec 256) := none
  rekeyTick : Nat := 0
  epoch : Nat := 0
  deriving DecidableEq, Repr

/-- Window states (Table 11.4). -/
inductive WState where
  | free | zeroing | online | offline | lost
  deriving DecidableEq, Repr

/-- A tier-2 window (R352); base and size in 256 MiB units. -/
structure Window where
  st : WState := .free
  part : Nat := 0
  base : Nat := 0
  size : Nat := 0
  devs : List Nat := []
  deriving DecidableEq, Repr

/-- A tarn access a core waits on (R368). -/
structure CoreWait where
  addr : Nat
  write : Bool
  data : Row
  since : Nat
  deriving DecidableEq, Repr

/-- A host-processor core (12). -/
structure Core where
  owner : Option Nat := none
  running : Bool := false
  entry : Nat := 0
  a0 : Word := 0
  a1 : Word := 0
  v8 : Row := 0
  peek : Bool := false
  wait : Option CoreWait := none
  mcause : Nat := 0
  tval : Word := 0
  irqTaken : Bool := false
  fault : BitVec 31 := 0
  failed : Bool := false
  errTimes : List Nat := []
  imsic : List (Nat × Nat) := []
  halted : Bool := false
  stepOne : Bool := false
  deriving DecidableEq, Repr

/-- A line of the coherence directory (R363): which chiplets hold it, whether one holds it modified, with its data,
and the context that filled it. -/
structure DirLine where
  holders : List Nat := []
  modified : Bool := false
  data : Desc := 0
  ctx : Nat := 0
  deriving DecidableEq, Repr

/-! ## Power, cooling, management, security, boot -/

/-- The BPM as the panel sees it (16). -/
structure Bpm where
  ratings : Tbl Nat := []
  ratingFrom : Tbl Nat := []
  segmentsOn : BitVec 8 := 0
  railsOn : BitVec 5 := 0
  senseRails : BitVec 5 := 0
  available : Nat := 0
  lastStatusN : Option Nat := none
  lastStatusS : Option Nat := none
  lostN : Bool := false
  lostS : Bool := false
  pg : Bool := false
  present : Bool := false
  hold : Bool := false
  killed : Bool := false
  discards : BitVec 16 := 0
  cmdSeq : Nat := 0
  cmdOpen : Option (Nat × Nat × BitVec 8) := none
  railsWanted : Bool := false
  recommanded : Option Nat := none
  fault : Option (Nat × Nat) := none
  volts : Tbl Nat := []
  amps : Tbl Nat := []
  cut : Tbl Nat := []
  capSegs : List Nat := []
  temp : Nat := 0
  keepaliveTick : Nat := 0
  deriving DecidableEq, Repr

/-- Coolant responses, the stronger later (Table 17.5). -/
inductive CoolResponse where
  | none | cap | hold | quiet
  deriving DecidableEq, Repr

/-- Coolant supervision (17). -/
structure Coolant where
  last : Manifold := ⟨none, none, none, none, none, none⟩
  flow : Nat := 0
  history : List (Nat × Nat) := []
  falling : Bool := false
  projected : Nat := 0
  inlet : Nat := 320
  cap : Nat := 15
  outletSteps : Nat := 0
  outletHot : Option Nat := none
  outletTick : Nat := 0
  response : CoolResponse := .none
  goodSince : Option Nat := none
  raiseSince : Option Nat := none
  apartSince : Option Nat := none
  exitTick : Nat := 0
  deriving DecidableEq, Repr

/-- Pewter roles (Table 18.1). -/
inductive Role where
  | holder | inStep | syncing | mismatch | absent
  deriving DecidableEq, Repr

/-- What a voter keeps (R514). -/
structure VoterRec where
  epoch : Nat := 0
  holder : Option Voter := none
  termEnd : Nat := 0
  lastRenew : Nat := 0
  deriving DecidableEq, Repr

/-- A Pewter die (18). -/
structure Pewter where
  role : Role := .absent
  vote : VoterRec := {}
  seen : Nat := 0
  candidate : Option Nat := none
  granted : List Voter := []
  retried : Bool := false
  noSeekUntil : Nat := 0
  retryTick : Nat := 0
  lastAckEach : Tbl Nat := []
  mfw : BitVec 256 := 0
  svn : Word := 0
  booted : Bool := false
  selfTest : Bool := false
  imageOk : Bool := false
  fuseOk : Bool := false
  recovery : Bool := false
  handover : Bool := false
  deriving DecidableEq, Repr

/-- An event log entry (Table 18.8). -/
structure LogEntry where
  seq : BitVec 32
  tick : Nat
  code : Nat
  region : Nat := 31
  site : Nat := 0
  part : Nat := 31
  ctx : Option Nat := none
  epoch : Nat := 0
  detail : List Nat := []
  repeats : Nat := 0
  deriving DecidableEq, Repr

/-- The recovery mailbox (R529). -/
structure Mailbox where
  state : Nat := 0
  fail : Nat := 0
  len : Nat := 0
  offset : Nat := 0
  deriving DecidableEq, Repr

/-- Management state (18). -/
structure Mgt where
  north : Pewter := {}
  south : Pewter := {}
  bpmVote : VoterRec := {}
  epoch : Nat := 0
  log : List LogEntry := []
  nextSeq : BitVec 32 := 0
  logLost : BitVec 32 := 0
  changeSeq : Nat := 0
  ackedSeq : Nat := 0
  changeTick : Nat := 0
  heardTick : Nat := 0
  lastRenewal : Nat := 0
  port0 : Bool := false
  port1 : Bool := false
  activePort : Nat := 0
  msgDiscards : BitVec 16 := 0
  logins : List (Nat × Nat) := []
  locks : List (Nat × Nat) := []
  telemetry : Tbl Nat := []
  flash : Option FirmwareImage := none
  activation : Bool := false
  mailbox : Mailbox := {}
  sessionOpen : Bool := false
  deriving DecidableEq, Repr

/-- An SPDM session (R444). -/
structure Session where
  id : Nat
  path : SpdmPath
  established : Bool
  last : Nat
  keyUpdates : Nat := 0
  deriving DecidableEq, Repr

/-- Security state (15). -/
structure Sec where
  version : List SpdmPath := []
  caps : List SpdmPath := []
  algs : List SpdmPath := []
  sessions : List Session := []
  nextSession : Nat := 1
  chunks : List (Nat × Nat × Nat) := []
  ideKeys : List (Nat × Nat × BitVec 256) := []
  cosign : Bool := false
  revoked : BitVec 4 := 0
  svnMin : Word := 0
  opHash : BitVec 256 := 0
  opHashSet : Bool := false
  cosignNext : Bool := false
  revokedNext : BitVec 4 := 0
  svnMinNext : Word := 0
  opHashNext : BitVec 256 := 0
  debugActive : Bool := false
  debugSinceReset : Bool := false
  debugCount : BitVec 16 := 0
  debugStart : Nat := 0
  debugLast : Nat := 0
  nextKey : Nat := 0
  deriving DecidableEq, Repr

/-- Bring-up state (19, PNL_BOOT_STATUS). -/
structure Boot where
  event : Nat := 0
  complete : Bool := false
  stopped : Bool := false
  glitch : Bool := false
  diesFailed : Nat := 0
  condemned : Nat := 0
  linksOut : Nat := 0
  warm : Bool := false
  coldHeld : Bool := false
  diesOff : List (Nat × Nat) := []
  vaon : Bool := true
  ls18 : Bool := true
  panelMap : List (Nat × Nat × Nat) := []
  serial : BitVec 48 := 0
  eventTick : Nat := 0
  tries : Nat := 0
  tryTick : Nat := 0
  railTick : Option Nat := none
  deriving DecidableEq, Repr

/-! ## What leaves the block -/

/-- A completion entry (Table 13.5). -/
structure Completion where
  q : Nat
  k : Nat
  phase : Bool
  status : Nat
  code : Nat
  tag : BitVec 32
  result : Word
  tick : Nat
  detail : Nat
  deriving DecidableEq, Repr

/-- What the block sends outward. -/
inductive Output where
  | completion (index : Nat) (e : Completion)
  | interrupt (fn vector : Nat)
  | coreMsi (hart file identity : Nat)
  | errEntry (part queue index : Nat) (phase : Bool) (e : LogEntry)
  | hostWrite (link addr len : Nat) (data : Row)
  | hostRead (link addr len : Nat)
  | bar (f : Nat) (status : Nat) (len : Nat) (data : Row)
  | cfgReply (die : Nat) (retry : Bool)
  | bpmCmd (opcode : Nat) (mask : BitVec 8) (epoch : Nat)
  | keepalive (epoch : Nat)
  | voteReq (src dst : Voter) (kind epoch : Nat) (inStep : Bool) (tick : Nat)
  | vote (src dst : Voter) (result epoch : Nat) (holder : Option Voter) (tick left : Nat)
  | budgetReq (r seq : Nat)
  | budgetGrant (r seq grant maxStep epoch : Nat)
  | spdm (path : SpdmPath) (code : Nat) (body : List Nat)
  | redfish (status : Nat)
  | pldm (code value : Nat)
  | telemetry (q : Nat) (available : Bool)
  | uart (code : Nat)
  | debug (o : DebugObject) (value : Row)
  | cxlKey (port : Nat) (key : BitVec 256)
  | killLine
  | tagRead (c : Nat) (w : Word)
  deriving DecidableEq, Repr

/-! ## The panel -/

/-- The whole state of the panel, with the queue of waiting commands. -/
structure State where
  pending : List Instr := []
  out : List Output := []
  fresh : Nat := 0
  order : Nat := 0
  variant36 : Bool := false
  enabled : Tbl (BitVec 18) := []
  clusters : Tbl Cluster := []
  tarn : Tbl TarnRow := []
  mem : List Host.Cell := []
  poison : Tbl Bool := []
  pages : Tbl Page := []
  zeroRuns : List (Nat × Nat) := []
  regions : Tbl Region := []
  domains : Tbl Domain := []
  xings : Tbl Crossing := []
  tb : Timebase := {}
  net : List Packet := []
  nextPkt : Nat := 0
  routes : Tbl (BitVec 32) := []
  perimRoutes : Tbl (BitVec 32) := []
  fabLinks : Tbl FabLink := []
  discards : Tbl (BitVec 32) := []
  parts : Tbl Part := []
  ctxs : Tbl Ctx := []
  qps : Tbl Qp := []
  fns : Tbl Fn := []
  links : Tbl Link := []
  ports : Tbl Port := []
  hbms : Tbl Stack := []
  cxlPorts : Tbl CxlPort := []
  windows : Tbl Window := []
  cores : Tbl Core := []
  dir : Tbl DirLine := []
  bpm : Bpm := {}
  cool : Coolant := {}
  mgt : Mgt := {}
  sec : Sec := {}
  boot : Boot := {}
  regs : Tbl Word := []
  sels : Tbl Word := []
  halves : Tbl Word := []
  deriving DecidableEq, Repr

/-- The panel right after a cold reset is released (R540, R576): panel time 0 in FREERUN, every region Dark, nothing
formed, memory with nothing listed. Values the manual does not give are those of notes/assumptions/6.md and 7.md. -/
def State.reset : State := {}

end Sys2Proof.Machine
end

