-- ==== Sys2Proof/Machine/Ops.lean ====
section
/-! DEFINITION. The named operations over the state: reads and writes of each table, geometry (01), bytes of memory
and poison (11), the event log and the error queues (18, 20), and completions (13). -/

namespace Sys2Proof.Machine

/-- What a meaning answers. -/
abbrev Result := Host.Outcome State Fault Refusal

/-- Bits [hi:lo] of a word as a number. -/
def bitsOf {n : Nat} (w : BitVec n) (hi lo : Nat) : Nat := w.toNat / 2 ^ lo % 2 ^ (hi + 1 - lo)

/-- Bit `i` of a word. -/
def bitOf {n : Nat} (w : BitVec n) (i : Nat) : Bool := w.getLsbD i

/-- A counter of width `n` counted up by one, saturating (R561). -/
def satInc {n : Nat} (c : BitVec n) : BitVec n := if c = BitVec.allOnes n then c else c + 1

/-- A counter of width `n` counted up by `k`, saturating. -/
def satAdd {n : Nat} (c : BitVec n) (k : Nat) : BitVec n :=
  if c.toNat + k < 2 ^ n then BitVec.ofNat n (c.toNat + k) else BitVec.allOnes n

/-- Ticks of 10 ns in one second (00, "Notation"). -/
def ticksPerS : Nat := 100000000

/-- Ticks in one microsecond. -/
def ticksPerUs : Nat := 100

/-- Ticks in one millisecond. -/
def ticksPerMs : Nat := 100000

/-! ## Sorting -/

/-- An element put into a sorted list, before those it is not above. -/
def insertBy {α : Type} (le : α → α → Bool) (a : α) : List α → List α
  | [] => [a]
  | b :: l => if le a b then a :: b :: l else b :: insertBy le a l

/-- A list sorted; equal elements keep their order. -/
def sortBy {α : Type} (le : α → α → Bool) : List α → List α
  | [] => []
  | a :: l => insertBy le a (sortBy le l)

/-- Numbers in ascending order. -/
def sortNat : List Nat → List Nat := sortBy (fun a b => decide (a ≤ b))

/-! ## Tables -/

/-- Panel time (R275). -/
def State.now (s : State) : Nat := s.tb.now

def State.cl (s : State) (c : Nat) : Cluster := Tbl.get (fun _ => {}) s.clusters c
def State.setCl (s : State) (c : Nat) (v : Cluster) : State := { s with clusters := Tbl.set (fun _ => {}) s.clusters c v }
def State.modCl (s : State) (c : Nat) (f : Cluster → Cluster) : State := s.setCl c (f (s.cl c))

def State.part (s : State) (p : Nat) : Part := Tbl.get (fun _ => {}) s.parts p
def State.setPart (s : State) (p : Nat) (v : Part) : State := { s with parts := Tbl.set (fun _ => {}) s.parts p v }
def State.modPart (s : State) (p : Nat) (f : Part → Part) : State := s.setPart p (f (s.part p))

def State.ctx (s : State) (x : Nat) : Ctx := Tbl.get (fun _ => {}) s.ctxs x
def State.setCtx (s : State) (x : Nat) (v : Ctx) : State := { s with ctxs := Tbl.set (fun _ => {}) s.ctxs x v }
def State.modCtx (s : State) (x : Nat) (f : Ctx → Ctx) : State := s.setCtx x (f (s.ctx x))

def State.qp (s : State) (q : Nat) : Qp := Tbl.get (fun _ => {}) s.qps q
def State.setQp (s : State) (q : Nat) (v : Qp) : State := { s with qps := Tbl.set (fun _ => {}) s.qps q v }
def State.modQp (s : State) (q : Nat) (f : Qp → Qp) : State := s.setQp q (f (s.qp q))

def State.fn (s : State) (f : Nat) : Fn := Tbl.get (fun _ => {}) s.fns f
def State.setFn (s : State) (f : Nat) (v : Fn) : State := { s with fns := Tbl.set (fun _ => {}) s.fns f v }
def State.modFn (s : State) (f : Nat) (g : Fn → Fn) : State := s.setFn f (g (s.fn f))

def State.link (s : State) (l : Nat) : Link := Tbl.get (fun _ => {}) s.links l
def State.setLink (s : State) (l : Nat) (v : Link) : State := { s with links := Tbl.set (fun _ => {}) s.links l v }
def State.modLink (s : State) (l : Nat) (f : Link → Link) : State := s.setLink l (f (s.link l))

def State.port (s : State) (i : Nat) : Port := Tbl.get (fun _ => {}) s.ports i
def State.setPort (s : State) (i : Nat) (v : Port) : State := { s with ports := Tbl.set (fun _ => {}) s.ports i v }
def State.modPort (s : State) (i : Nat) (f : Port → Port) : State := s.setPort i (f (s.port i))

def State.region (s : State) (r : Nat) : Region := Tbl.get (fun _ => {}) s.regions r
def State.setRegion (s : State) (r : Nat) (v : Region) : State :=
  { s with regions := Tbl.set (fun _ => {}) s.regions r v }
def State.modRegion (s : State) (r : Nat) (f : Region → Region) : State := s.setRegion r (f (s.region r))

def State.domain (s : State) (d : Nat) : Domain := Tbl.get (fun _ => {}) s.domains d
def State.setDomain (s : State) (d : Nat) (v : Domain) : State :=
  { s with domains := Tbl.set (fun _ => {}) s.domains d v }
def State.modDomain (s : State) (d : Nat) (f : Domain → Domain) : State := s.setDomain d (f (s.domain d))

def State.xing (s : State) (x : Nat) : Crossing := Tbl.get (fun _ => {}) s.xings x
def State.setXing (s : State) (x : Nat) (v : Crossing) : State := { s with xings := Tbl.set (fun _ => {}) s.xings x v }
def State.modXing (s : State) (x : Nat) (f : Crossing → Crossing) : State := s.setXing x (f (s.xing x))

def State.hbm (s : State) (k : Nat) : Stack := Tbl.get (fun _ => {}) s.hbms k
def State.setHbm (s : State) (k : Nat) (v : Stack) : State := { s with hbms := Tbl.set (fun _ => {}) s.hbms k v }
def State.modHbm (s : State) (k : Nat) (f : Stack → Stack) : State := s.setHbm k (f (s.hbm k))

def State.cxl (s : State) (k : Nat) : CxlPort := Tbl.get (fun _ => {}) s.cxlPorts k
def State.setCxl (s : State) (k : Nat) (v : CxlPort) : State :=
  { s with cxlPorts := Tbl.set (fun _ => {}) s.cxlPorts k v }
def State.modCxl (s : State) (k : Nat) (f : CxlPort → CxlPort) : State := s.setCxl k (f (s.cxl k))

def State.win (s : State) (k : Nat) : Window := Tbl.get (fun _ => {}) s.windows k
def State.setWin (s : State) (k : Nat) (v : Window) : State := { s with windows := Tbl.set (fun _ => {}) s.windows k v }
def State.modWin (s : State) (k : Nat) (f : Window → Window) : State := s.setWin k (f (s.win k))

def State.core (s : State) (n : Nat) : Core := Tbl.get (fun _ => {}) s.cores n
def State.setCore (s : State) (n : Nat) (v : Core) : State := { s with cores := Tbl.set (fun _ => {}) s.cores n v }
def State.modCore (s : State) (n : Nat) (f : Core → Core) : State := s.setCore n (f (s.core n))

def State.dirLine (s : State) (a : Nat) : DirLine := Tbl.get (fun _ => {}) s.dir a
def State.setDir (s : State) (a : Nat) (v : DirLine) : State := { s with dir := Tbl.set (fun _ => {}) s.dir a v }

def State.page (s : State) (g : Nat) : Page := Tbl.get (fun _ => {}) s.pages g
def State.setPage (s : State) (g : Nat) (v : Page) : State := { s with pages := Tbl.set (fun _ => {}) s.pages g v }
def State.modPage (s : State) (g : Nat) (f : Page → Page) : State := s.setPage g (f (s.page g))

/-- A link of a region, links numbered as the text of Table 21.8 numbers them. -/
def State.fabLink (s : State) (r n : Nat) : FabLink := Tbl.get (fun _ => {}) s.fabLinks (r * 128 + n)
def State.setFabLink (s : State) (r n : Nat) (v : FabLink) : State :=
  { s with fabLinks := Tbl.set (fun _ => {}) s.fabLinks (r * 128 + n) v }
def State.modFabLink (s : State) (r n : Nat) (f : FabLink → FabLink) : State := s.setFabLink r n (f (s.fabLink r n))

/-- Puts something the block sends outward behind what it has sent. -/
def State.emit (s : State) (o : Output) : State := { s with out := s.out ++ [o] }

/-- An interrupt sent: an MSI to a hart becomes pending in its IMSIC (R375). -/
def State.sendIrq (s : State) (o : Output) : State :=
  match o with
  | .coreMsi h f i => (s.modCore h (fun v => if v.imsic.contains (f, i) then v else { v with imsic := v.imsic ++ [(f, i)] })).emit o
  | _ => s.emit o

/-- The next number free values are drawn at. -/
def State.draw (s : State) : State := { s with fresh := s.fresh + 1 }

/-! ## Commands to a region (R26, R518) -/

/-- A region command under a lease epoch: the steward rejects one lower than the highest it has seen, and counts it. -/
def State.regionCmd (s : State) (r epoch : Nat) (f : State → State) : State :=
  if epoch < (s.region r).epoch then s.modRegion r (fun v => { v with epochRejects := v.epochRejects + 1 })
  else f (s.modRegion r (fun v => { v with epoch := epoch }))

/-! ## Telemetry readings (R524) -/

/-- The reading of a kind of Table 18.7, numbered from 0 in its order, and an index in it. -/
def readingNo (kind index : Nat) : Nat := 8 * index + kind

/-- A reading is refreshed now. -/
def State.refreshReading (s : State) (n : Nat) : State :=
  { s with mgt := { s.mgt with telemetry := Tbl.set (fun _ => 0) s.mgt.telemetry n (s.now + 1) } }

/-! ## Setup registers kept by offset (21) -/

/-- The nominal set points of a step, in 5 mV units, packed as PWR_VID_FUSE packs them (Table 16.3); the values fused in
one panel lie within 0.03 V of these (notes/assumptions/7.md). -/
def nominalVid (step : Nat) : Word :=
  match step with
  | 0 => 0xAAAAAA
  | 1 => 0xA4A4A4
  | 2 => 0x9E9E9E
  | 3 => 0x989898
  | 4 => 0x929292
  | 5 => 0x888C88
  | 6 => 0x828C7E
  | 7 => 0x828C76
  | _ => 0x828C6E

/-- The reset values of the registers held by their offset (Tables 21.2 to 21.11); all others reset to 0. -/
def resetReg (variant36 : Bool) (off : Nat) : Word :=
  if 0x700000 ≤ off ∧ off < 0x700480 ∧ off % 8 = 0 then nominalVid ((off - 0x700000) / 8 % 9)
  else match off with
  | 0x500810 => 16
  | 0x402000 => 0x3C040004
  | 0x402008 => 24
  | 0x700580 => if variant36 then 2560 else 2600
  | 0x700588 => 1000
  | 0x800018 => 0x5F55645F
  | 0x800020 => 1
  | 0xA00010 => 0x3000000000000
  | 0xA00018 => 0x2000000000000
  | 0xA00038 => 0x3C1062
  | 0xB00078 => 0x2314
  | _ => 0

/-- The value of the setup register at an offset. -/
def State.reg (s : State) (off : Nat) : Word := Tbl.get (resetReg s.variant36) s.regs off
def State.setReg (s : State) (off : Nat) (v : Word) : State :=
  { s with regs := Tbl.set (resetReg s.variant36) s.regs off v }

/-! ## Geometry (01) -/

/-- The region of logical cluster c = x + 48 y: rx = x div 12, ry = y div 24 (R15, "Logical geometry"). -/
def regionOf (c : Nat) : Nat := c % 48 / 12 + 4 * (c / 48 / 24)

/-- The local index l = lx + 12 ly (01, "Logical geometry and the cluster map"). -/
def localOf (c : Nat) : Nat := c % 48 % 12 + 12 * (c / 48 % 24)

/-- The logical cluster at local index l of region r. -/
def clusterAt (r l : Nat) : Nat := (r % 4 * 12 + l % 12) + 48 * (r / 4 * 24 + l / 12)

/-- The chiplet slot k of local index l (R21). -/
def slotOf (l : Nat) : Nat := l % 12 / 4 + 3 * (l / 12 / 4)

/-- The index q within the slot (R21). -/
def slotIdx (l : Nat) : Nat := l % 12 % 4 + 4 * (l / 12 % 4)

/-- The positions enabled on compute site k of region r (R18); positions 0 to 15 unless the fuse block says otherwise
(notes/assumptions/6.md). -/
def State.enabledAt (s : State) (r k : Nat) : BitVec 18 := Tbl.get (fun _ => 0xFFFF) s.enabled (r * 19 + k)

/-- The q-th of the positions set in a mask, from position `p` on, with `n` positions left to look at. -/
def nthSet (m : BitVec 18) : (n p q : Nat) → Nat
  | 0, _, _ => 0
  | n + 1, p, q => if bitOf m p then (if q = 0 then p else nthSet m n (p + 1) (q - 1)) else nthSet m n (p + 1) q

/-- The entry a cluster map has from the factory (R22, Table 1.6). -/
def State.factoryEntry (s : State) (r l : Nat) : BitVec 32 :=
  BitVec.ofNat 32 (slotOf l + 32 * nthSet (s.enabledAt r (slotOf l)) 18 0 (slotIdx l))

/-- A cluster map entry (R23). -/
def State.cmapEntry (s : State) (r l : Nat) : BitVec 32 :=
  Tbl.get (fun l => s.factoryEntry r l) (s.region r).cmap l

/-- A cluster map entry's site, position, state and remap count (Table 1.6). -/
def entrySite (e : BitVec 32) : Nat := bitsOf e 4 0
def entryPos (e : BitVec 32) : Nat := bitsOf e 9 5
def entryState (e : BitVec 32) : Nat := bitsOf e 11 10
def entryCount (e : BitVec 32) : Nat := bitsOf e 23 16

def mkEntry (site pos st count : Nat) : BitVec 32 := BitVec.ofNat 32 (site + 32 * pos + 1024 * st + 65536 * count)

/-- Whether logical position c is vacant (R24, R29). -/
def State.vacant (s : State) (c : Nat) : Bool := entryState (s.cmapEntry (regionOf c) (localOf c)) == 2

/-- The logical clusters of a region. -/
def clustersOfRegion (r : Nat) : List Nat := (List.range 288).map (clusterAt r)

/-- Whether cluster c lies in one of the regions listed. -/
def inRegions (rs : List Nat) (c : Nat) : Bool := rs.contains (regionOf c)

/-- The partition of a cluster's region (R384). -/
def State.partOf (s : State) (c : Nat) : Option Nat := (s.region (regionOf c)).part

/-- The context resident on a cluster's partition (R387). -/
def State.ctxOf (s : State) (c : Nat) : Option Nat := (s.partOf c).bind (fun p => (s.part p).resident)

/-- Every cluster listed in the regions of partition p, changed by `f`; unlisted clusters are Off and hold nothing. -/
def State.modPartClusters (s : State) (p : Nat) (f : Nat → Cluster → Cluster) : State :=
  { s with clusters := Tbl.mapVal (fun _ => {}) (fun c v => if inRegions (s.part p).regions c then f c v else v) s.clusters }

/-! ## CRCs (R583, Table 0.7) -/

/-- One bit of CRC-32C, reflected: 0x82F63B78 is the reflected polynomial 0x1EDC_6F41. -/
def crc32cBit (crc : BitVec 32) : BitVec 32 :=
  if bitOf crc 0 then (crc >>> 1) ^^^ 0x82F63B78#32 else crc >>> 1

/-- One byte of CRC-32C. -/
def crc32cByte (crc : BitVec 32) (b : Byte) : BitVec 32 :=
  (List.range 8).foldl (fun c _ => crc32cBit c) (crc ^^^ b.setWidth 32)

/-- CRC-32C over bytes with the initial value `init` (R583). -/
def crc32c (init : BitVec 32) (bs : List Byte) : BitVec 32 := bs.foldl crc32cByte init ^^^ 0xFFFFFFFF#32

/-- One byte of CRC-16/CCITT, not reflected. -/
def crc16Byte (crc : BitVec 16) (b : Byte) : BitVec 16 :=
  (List.range 8).foldl (fun c _ => if bitOf c 15 then (c <<< 1) ^^^ 0x1021#16 else c <<< 1)
    (crc ^^^ (b.setWidth 16 <<< 8))

/-- CRC-16/CCITT over bytes (R583). -/
def crc16 (bs : List Byte) : BitVec 16 := bs.foldl crc16Byte 0xFFFF#16

/-- Byte k of a word, little-endian (R8). -/
def byteOf {n : Nat} (w : BitVec n) (k : Nat) : Byte := BitVec.ofNat 8 (w.toNat / 2 ^ (8 * k))

/-- The first `n` bytes of a word. -/
def bytesOf {m : Nat} (w : BitVec m) (n : Nat) : List Byte := (List.range n).map (byteOf w)

/-- The stored CRC of a tarn row: the right CRC of R74 changed by the row's syndrome. -/
def rowCrc (n : Nat) (r : TarnRow) : BitVec 32 :=
  crc32c (BitVec.ofNat 32 n ^^^ 0xFFFFFFFF#32) (bytesOf r.data 512) ^^^ r.syndrome

/-! ## Bytes of HBM and tier 2 (11) -/

/-- The canonical form of memory: addresses rise and no entry is the 0 an unlisted address reads as. -/
def Memory.wf (m : List Host.Cell) : Bool := Tbl.wf (fun _ => (0 : Byte)) m

/-- The byte memory holds at an address; one that nothing has written reads 0 (event 9 of R531 zeroes memory;
notes/assumptions/3.md). -/
def State.rawByte (s : State) (a : Nat) : Byte := Tbl.get (fun _ => 0) s.mem a

/-- The byte any agent reads at an address: that of the modified line a host-processor chiplet holds, else what memory
holds (R364). -/
def State.byte (s : State) (a : Nat) : Byte :=
  if (s.dirLine (a / 64)).modified then BitVec.ofNat 8 ((s.dirLine (a / 64)).data.toNat / 256 ^ (a % 64)) else s.rawByte a

/-- A byte written. -/
def State.setByte (s : State) (a : Nat) (b : Byte) : State := { s with mem := Tbl.set (fun _ => 0) s.mem a b }

/-- `n` bytes from `a` on as a little-endian number (R8). -/
def State.readNat (s : State) (a : Nat) : Nat → Nat
  | 0 => 0
  | n + 1 => s.readNat a n + (s.byte (a + n)).toNat * 256 ^ n

/-- The first `n` bytes of a number written from `a` on. -/
def State.writeNat (s : State) (a v : Nat) : Nat → State
  | 0 => s
  | n + 1 => (s.writeNat a v n).setByte (a + n) (BitVec.ofNat 8 (v / 256 ^ n))

/-- `n` bytes written as 0. -/
def State.zeroBytes (s : State) (a n : Nat) : State :=
  { s with mem := Tbl.drop (fun k => decide (a ≤ k) && decide (k < a + n)) s.mem }

/-- Whether the 32 B sector of an address is poisoned (R341). -/
def State.sectorPoison (s : State) (a : Nat) : Bool := Tbl.get (fun _ => false) s.poison (a / 32)

def State.setPoison (s : State) (sector : Nat) (b : Bool) : State :=
  { s with poison := Tbl.set (fun _ => false) s.poison sector b }

/-- The sectors that `n` bytes from `a` on touch. -/
def sectorsOf (a n : Nat) : List Nat := if n = 0 then [] else (List.range ((a + n - 1) / 32 - a / 32 + 1)).map (a / 32 + ·)

/-- Whether some byte of a range reads as poison; a line held modified reads as it is held. -/
def State.rangePoison (s : State) (a n : Nat) : Bool :=
  (sectorsOf a n).any (fun k => Tbl.get (fun _ => false) s.poison k && !(s.dirLine (k / 2)).modified)

/-- A write that covers a whole poisoned sector ends its poison; a partial one leaves it (R341). -/
def State.healSectors (s : State) (a n : Nat) : State :=
  (sectorsOf a n).foldl (fun s k => if a ≤ 32 * k && 32 * k + 32 ≤ a + n then s.setPoison k false else s) s

/-! ## The event log (R525, R526) and error queues (R550 to R553) -/

/-- The class of an error code: bits [15:12] (R548). -/
def codeClass (code : Nat) : Nat := code / 4096

/-- Where an event is from and whom it concerns (Table 18.8). -/
structure Source where
  region : Nat := 31
  site : Nat := 0
  part : Nat := 31
  ctx : Option Nat := none
  detail : List Nat := []
  deriving DecidableEq, Repr

/-- Whether a log entry is one that an event merges into (R526). -/
def mergesInto (now code : Nat) (src : Source) (e : LogEntry) : Bool :=
  decide (codeClass code ≤ 1) && e.code == code && e.region == src.region && e.site == src.site &&
    decide (e.ctx = src.ctx) && decide (now ≤ e.tick + ticksPerS)

/-- The log without the entry that a new one overwrites: the oldest of class 0 or 1, else the oldest (R526). -/
def dropOldest (log : List LogEntry) : List LogEntry :=
  if log.any (fun e => decide (codeClass e.code ≤ 1)) then log.eraseP (fun e => decide (codeClass e.code ≤ 1))
  else log.drop 1

/-- Sends the interrupt of an error queue: the MSI-X vector of its link's physical function, or the MSI of the core
queue (R550). -/
def errqInterrupt (key : Nat) (q : ErrQ) : Output :=
  if key < 16 then .interrupt (64 * key) q.vector else .coreMsi q.hart q.file q.identity

/-- The detail an entry shows: zero where its context's function is a TDI in CONFIG_LOCKED or RUN (R553). -/
def State.shownDetail (s : State) (e : LogEntry) : LogEntry :=
  match e.ctx with
  | none => e
  | some x =>
    match (s.fn (s.ctx x).fn).tdi with
    | .locked => { e with detail := [] }
    | .run => { e with detail := [] }
    | _ => e

/-- Whether an error queue is full: one entry separates its tail from its head (R552). -/
def ErrQ.full (q : ErrQ) : Bool := (q.tail + 1) % 2 ^ q.log2 == q.head

/-- An entry written to queue `key` of partition p, or counted as lost where the queue is full (R551, R552). -/
def State.postErr (s : State) (p key : Nat) (e : LogEntry) : State :=
  let q := Tbl.get (fun _ => {}) (s.part p).errqs key
  if q.full then
    let q' := { q with lost := satInc q.lost, unreported := q.unreported + 1 }
    s.modPart p (fun v => { v with errqs := Tbl.set (fun _ => {}) v.errqs key q' })
  else
    let q' := { q with tail := (q.tail + 1) % 2 ^ q.log2,
                       phase := if q.tail + 1 = 2 ^ q.log2 then !q.phase else q.phase }
    ((s.modPart p (fun v => { v with errqs := Tbl.set (fun _ => {}) v.errqs key q' })).emit
      (.errEntry p key q.tail q.phase (s.shownDetail e))).sendIrq (errqInterrupt key q)

/-- The enabled queues of partition p that take an event of a class (R551). -/
def State.errTakers (s : State) (p cls : Nat) : List Nat :=
  Tbl.keysWhere (fun _ q => q.enable && decide (q.minClass ≤ cls)) (s.part p).errqs

/-- An entry delivered to the queues it belongs to (R551): those of its partition, or every enabled queue for class 5. -/
def State.deliver (s : State) (e : LogEntry) : State :=
  if codeClass e.code = 5 then
    (List.range 16).foldl (fun s p => (s.errTakers p 5).foldl (fun s k => s.postErr p k e) s) s
  else (s.errTakers e.part (codeClass e.code)).foldl (fun s k => s.postErr e.part k e) s

/-- A change of the mirrored state gets the next number; the oldest not acknowledged dates the wait for it (R511). -/
def State.changed (s : State) : State :=
  { s with mgt := { s.mgt with
      changeSeq := s.mgt.changeSeq + 1,
      changeTick := if s.mgt.ackedSeq = s.mgt.changeSeq then s.now else s.mgt.changeTick } }

/-- A new entry of the log (R525, R526). -/
def State.addLog (s : State) (e : LogEntry) : State :=
  let full := decide (8192 ≤ s.mgt.log.length)
  { s with mgt := { s.mgt with
      log := (if full then dropOldest s.mgt.log else s.mgt.log) ++ [e],
      nextSeq := s.mgt.nextSeq + 1,
      logLost := if full then satInc s.mgt.logLost else s.mgt.logLost } }.changed

/-- The entry an event makes. -/
def State.entryOf (s : State) (code : Nat) (src : Source) : LogEntry :=
  { seq := s.mgt.nextSeq, tick := s.now, code := code, region := src.region, site := src.site, part := src.part,
    ctx := src.ctx, epoch := s.mgt.epoch, detail := src.detail }

/-- An event is raised: it merges into an entry of the last second, or is entered and delivered (R526, R544, R551).
The action of its class is the caller's. -/
def State.note (s : State) (code : Nat) (src : Source) : State :=
  if s.mgt.log.any (mergesInto s.now code src) then
    { s with mgt := { s.mgt with log := s.mgt.log.map (fun e =>
        if mergesInto s.now code src e then { e with repeats := min 65535 (e.repeats + 1) } else e) } }
  else
    let e := s.entryOf code src
    let t := (s.addLog e).deliver e
    if codeClass code = 4 ∨ codeClass code = 5 then t.emit (.uart code) else t

/-- An input violation: 0x0F01, at most once per second per input (R555). -/
def State.violation (s : State) (input value : Nat) : State :=
  if s.mgt.log.any (fun e => e.code == 0x0F01 && e.detail.head? == some input && decide (s.now < e.tick + ticksPerS))
  then s else
    let e := s.entryOf 0x0F01 { detail := [input, value] }
    (s.addLog e).deliver e

/-- The source of an event that names cluster c. -/
def State.atCluster (s : State) (c : Nat) (detail : List Nat) : Source :=
  { region := regionOf c, part := (s.partOf c).getD 31, ctx := s.ctxOf c, detail := detail,
    site := entrySite (s.cmapEntry (regionOf c) (localOf c)) }

/-! ## Completions (R390 to R392, R394) -/

/-- The MSI-X vector, and for a core-side queue pair the hart, file and identity, of HPT_QP_CFG (Table 21.5). -/
def qpInterrupt (v : Qp) : Output :=
  if bitOf v.cfg 32 then .coreMsi (bitsOf v.cfg 41 33) (bitsOf v.cfg 44 42) (bitsOf v.cfg 52 45)
  else .interrupt v.fn (bitsOf v.cfg 30 20)

/-- The owning context of a queue pair (Table 21.5). -/
def Qp.ctx (v : Qp) : Nat := bitsOf v.cfg 19 10

/-- Entries of the submission and completion rings. -/
def Qp.sqSize (v : Qp) : Nat := 2 ^ bitsOf v.cfg 4 0
def Qp.cqSize (v : Qp) : Nat := 2 ^ bitsOf v.cfg 9 5

/-- Whether a disabled queue pair has nothing in progress any more (R392). -/
def Qp.settle (v : Qp) : Qp := if v.disabling && v.prog.isEmpty then { v with enabled := false, disabling := false } else v

/-- The fetched descriptor at ring index k of queue pair q. -/
def State.prog (s : State) (q k : Nat) : Option Prog := (s.qp q).prog.find? (fun e => e.k == k)

def State.modProg (s : State) (q k : Nat) (f : Prog → Prog) : State :=
  s.modQp q (fun v => { v with prog := v.prog.map (fun e => if e.k = k then f e else e) })

/-- Status codes of Table 13.6. -/
def stOk : Nat := 0
def stRejected : Nat := 1
def stAddress : Nat := 2
def stAlign : Nat := 3
def stHandle : Nat := 4
def stTimeout : Nat := 5
def stIntegrity : Nat := 6
def stCapacity : Nat := 7
def stStep : Nat := 8
def stJournal : Nat := 9
def stKilled : Nat := 10
def stHost : Nat := 11
def stAbandoned : Nat := 12

/-- The bytes of a completion entry as a number (Table 13.5). -/
def Completion.bytes (e : Completion) : Nat :=
  e.k % 65536 + e.q % 2048 * 2 ^ 16 + (if e.phase then 2 ^ 31 else 0) + e.status % 256 * 2 ^ 32 + e.code % 65536 * 2 ^ 40 +
    e.tag.toNat * 2 ^ 64 + e.result.toNat * 2 ^ 96 + e.tick % 2 ^ 64 * 2 ^ 160 + e.detail % 2 ^ 32 * 2 ^ 224

end Sys2Proof.Machine
end

