-- ==== Sys2Proof/Machine/Life.lean ====
section
/-! DEFINITION. What an event's class makes the device do (20): aborting a step, contained errors, killing a context,
partition-fatal and device-fatal errors, traps; and the Oxbow journal (10). -/

namespace Sys2Proof.Machine

open Sys2Proof

/-! ## The Oxbow journal (R307 to R315) -/

/-- 64 B units of a partition's journal ring (R307). -/
def Part.ringUnits (v : Part) : Nat := v.journalGib * 2 ^ 24

/-- Whether context x has a CHECKPOINT record in a list of records. -/
def hasCheckpoint (x : Nat) (es : List JEntry) : Bool :=
  es.any (fun e => e.ctx == x && match e.body with | .checkpoint _ _ => true | _ => false)

/-- Whether a record at the front of the ring, `rest` behind it, is still held by its context's tail (R313): no
CHECKPOINT of its context follows it, and without a checkpoint it belongs to the running step. -/
def heldRecord (v : Part) (ckpted : Nat → Bool) (e : JEntry) (rest : List JEntry) : Bool :=
  if ckpted e.ctx then !hasCheckpoint e.ctx rest
  else match v.running with
    | some st => st.ctx == e.ctx && decide (st.seq ≤ e.seq)
    | none => false

/-- The records that hold ring space: those from the oldest tail on (R313). -/
def trimRecords (v : Part) (ckpted : Nat → Bool) : List JEntry → List JEntry
  | [] => []
  | e :: rest => if heldRecord v ckpted e rest then e :: rest else trimRecords v ckpted rest

/-- Units the records take, headers included (R311). -/
def recordUnits (es : List JEntry) : Nat := (es.map (fun e => e.units + 1)).sum

/-- Whether context x has a durable checkpoint (R316, R319). -/
def State.ckpted (s : State) (x : Nat) : Bool := (s.ctx x).ckpt.isSome

/-- Free units of partition p's ring (R313). -/
def State.journalFree (s : State) (p : Nat) : Nat :=
  (s.part p).ringUnits - recordUnits (trimRecords (s.part p) s.ckpted (s.part p).journal)

/-- Whether free space is below the reserve (R314). -/
def State.journalLow (s : State) (p : Nat) : Bool :=
  decide (s.journalFree p < (s.part p).ringUnits / 8 * (s.part p).journalReserve)

/-- The step_seq a record of context x carries: that of the running step, or of the next step to be released (R312). -/
def State.recordSeq (s : State) (p : Nat) : Nat :=
  match (s.part p).running with
  | some st => st.seq
  | none => (s.part p).stepSeq

/-- A record written at the head of the ring: a PAD record fills the ring's end first where the record does not fit
there (R311). A record that would overrun the tail is not written; its step is to be aborted (R315). -/
def State.record (s : State) (p x units : Nat) (body : JRec) : State :=
  let v := s.part p
  let kept := trimRecords v s.ckpted v.journal
  let left := v.ringUnits - v.journalHead
  let padding := if left < units + 1 then left else 0
  let seq := s.recordSeq p
  if v.ringUnits < recordUnits kept + padding + units + 1 then
    let t := s.note 0x0803 { part := p, ctx := some x, detail := [seq] }
    t.modPart p (fun v => if v.pendingCause.isNone then { v with pendingCause := some (0x0803, seq) } else v)
  else
    let pad : List JEntry := if padding = 0 then [] else
      [{ ctx := x, seq := seq, tick := s.now, units := padding - 1, body := .pad }]
    let e : JEntry := { ctx := x, seq := seq, tick := s.now, units := units, body := body }
    let head := if padding = 0 then v.journalHead + units + 1 else units + 1
    let t := s.setPart p { v with journal := kept ++ pad ++ [e], journalHead := head % (v.ringUnits + 1) }
    if t.journalLow p && !v.journalLow then
      (t.modPart p (fun v => { v with journalLow := true })).note 0x0802
        { part := p, detail := [t.journalFree p * 64] }
    else t

/-- The bytes of a page as they stand, poisoned sectors as zeros, and the mask of poisoned sectors (R309). -/
def State.pageBytes (s : State) (g : Nat) : List Host.Cell :=
  s.mem.filter (fun e => e.1 / 4096 == g && !s.sectorPoison e.1)

def State.pageMask (s : State) (g : Nat) : BitVec 128 :=
  BitVec.ofNat 128 ((List.range 128).foldl (fun a k => if Tbl.get (fun _ => false) s.poison (g * 128 + k) then a + 2 ^ k else a) 0)

/-- The first write to a page of a context after its last durable checkpoint is recorded with the old bytes
(R308, R309); a context without a checkpoint takes none (R313). -/
def State.preImage (s : State) (g : Nat) : State :=
  let pg := s.page g
  match pg.use with
  | .mapped | .stepInput =>
    let x := pg.owner
    if s.ckpted x && !(Tbl.get (fun _ => false) (s.ctx x).written g) then
      (s.record (s.ctx x).part x 64 (.preImage g (s.pageBytes g) (s.pageMask g))).modCtx x
        (fun v => { v with written := Tbl.set (fun _ => false) v.written g true })
    else s
  | _ => s

/-- The 4 KiB pages that `n` bytes from `a` on touch. -/
def pagesOf (a n : Nat) : List Nat := if n = 0 then [] else (List.range ((a + n - 1) / 4096 - a / 4096 + 1)).map (a / 4096 + ·)

/-- A line leaves every cache, written back where it is modified (R363, R364). -/
def State.evictLine (s : State) (l : Nat) : State :=
  let d := s.dirLine l
  let t := s.setDir l {}
  if d.modified then ((t.preImage (l / 64)).writeNat (64 * l) d.data.toNat 64).healSectors (64 * l) 64 else t

/-- The lines listed in the directory that `n` bytes from `a` on touch leave every cache. -/
def State.evictRange (s : State) (a n : Nat) : State :=
  (Tbl.keysWhere (fun l _ => decide (a / 64 ≤ l) && decide (64 * l < a + n)) s.dir).foldl State.evictLine s

/-- `n` bytes of `v` written to HBM or tier 2 through the home directory, with the pre-images they need; sectors covered
whole lose their poison (R341, R364). -/
def State.writeMem (s : State) (a v n : Nat) : State :=
  (((pagesOf a n).foldl State.preImage (s.evictRange a n)).writeNat a v n).healSectors a n

/-! ## Completions (R391, R394, R396) -/

/-- A completion entry written where its ring lies: host memory, or HBM pages of the context for a core-side queue pair
(R374, R388). -/
def State.putCompletion (s : State) (v : Qp) (e : Completion) : State :=
  let a := v.cqBase.toNat + 32 * v.cqTail
  let t := s.emit (.completion v.cqTail e)
  if bitOf v.cfg 32 && (s.page (a / 4096)).owner == v.ctx && decide ((s.page (a / 4096)).use = .mapped) then t.writeMem a e.bytes 32
  else t

/-- Descriptor k of queue pair q completes: its entry is written at the completion tail, and its interrupt follows
where irq is set (R391, R394). -/
def State.complete (s : State) (q k status code result detail : Nat) : State :=
  match s.prog q k with
  | none => s
  | some e =>
    let v := s.qp q
    let entry : Completion :=
      { q := q, k := k, phase := v.phase, status := status, code := code, tag := e.desc.extractLsb' 32 32,
        result := BitVec.ofNat 64 result, tick := s.now, detail := detail }
    let wraps := decide (v.cqTail + 1 = v.cqSize)
    let v' := { v with prog := v.prog.filter (fun e => e.k != k), cqTail := if wraps then 0 else v.cqTail + 1,
                       phase := if wraps then !v.phase else v.phase }
    let t := (s.setQp q v'.settle).putCompletion v entry
    if bitOf e.desc 9 then t.sendIrq (qpInterrupt v) else t

/-! ## Fabric drops counted (R260) -/

/-- Counts a discard of region r under a cause of R260, numbered 0 to 8 in the order listed there. -/
def State.countDiscard (s : State) (r cause : Nat) : State :=
  let n := satInc (Tbl.get (fun _ => 0) s.discards (r * 16 + cause))
  { s with discards := Tbl.set (fun _ => 0) s.discards (r * 16 + cause) n }

/-- The region an agent of the fabric lies in; a perimeter die lies in its attached region (Table 1.3). -/
def nodeRegion : Node → Nat
  | .cluster c => regionOf c
  | .hbm k => k / 2
  | .chiplet r => r
  | .hostDie p => ([1, 2, 7, 11, 14, 13, 8, 4].getD p 0)
  | .cxlDie k => ([3, 15, 12, 0].getD k 0)

/-- Whether a packet type is a request (Table 8.4). -/
def PType.isRequest : PType → Bool
  | .data | .ack | .stale => false
  | _ => true

/-- Request packets of context x still in flight are discarded, counted under "aborted context" (R262). -/
def State.dropRequests (s : State) (x : Nat) : State :=
  let gone := s.net.filter (fun k => k.ptype.isRequest && k.context == x)
  let t := { s with net := s.net.filter (fun k => !(k.ptype.isRequest && k.context == x)) }
  gone.foldl (fun s k => s.countDiscard (nodeRegion k.dst) 8) t

/-! ## Aborting a step -/

/-- A cluster whose step is aborted: run-ahead squashed (R60), watches dropped (R58), the outstanding-operation table
and CLU_FAB_FAULT discarded (R223). A Failed or Off cluster keeps its state; a Halted one stays Halted. -/
def abortCluster (v : Cluster) : Cluster :=
  let st := match v.st with
    | .running | .waiting | .trapped => .idle
    | st => st
  let squash := !v.ahead.loads.isEmpty || !v.ahead.prefetch.isEmpty
  { v with st := st, haltedFrom := if v.st = .halted then .idle else v.haltedFrom, hold := none, ahead := {},
           fab := { v.fab with ops := [], flows := [], fault := {}, colls := [], collBuf := [], collCount := [] },
           regs := { v.regs with loops := [] }, stepOne := false,
           cnt := { v.cnt with sqAbort := if squash then satInc v.cnt.sqAbort else v.cnt.sqAbort } }

/-- The running step of partition p stops on every cluster, and the abort drain begins (R262, R321). -/
def State.haltStep (s : State) (p : Nat) : State :=
  match (s.part p).running with
  | none => s
  | some st =>
    ((s.modPartClusters p (fun _ v => abortCluster v)).dropRequests st.ctx).modPart p
      (fun v => { v with running := none, drain := some s.now })

/-! ## Power states used by errors (R486) -/

/-- A region enters Hold for a cause, or holds for one more; a region in Quiet, Park or Dark stays as it is. -/
def holdRegion (cause : HoldCause) (v : Region) : Region :=
  match v.pstate with
  | .run => { v with pstate := .hold, causes := [cause] }
  | .hold => if v.causes.contains cause then v else { v with causes := v.causes ++ [cause] }
  | _ => v

/-- A cause of Hold ends; with no cause left the region leaves Hold to Run (R486). -/
def releaseRegion (cause : HoldCause) (v : Region) : Region :=
  let cs := v.causes.filter (fun k => decide (k ≠ cause))
  match v.pstate with
  | .hold => { v with causes := cs, pstate := if cs.isEmpty then .run else .hold }
  | _ => { v with causes := cs }

/-- Every region changed. -/
def State.allRegions (s : State) (f : Region → Region) : State :=
  (List.range 16).foldl (fun s r => s.modRegion r f) s

/-! ## Killing a context (R410) -/

/-- Every descriptor in progress of queue pair q completes as killed, but the one named; the queue pair stops. -/
def State.killQp (s : State) (keep : Option (Nat × Nat)) (q : Nat) : State :=
  let t := (s.qp q).prog.foldl (fun s e => if keep = some (q, e.k) then s else s.complete q e.k stKilled (Config.statusCode stKilled % 65536) 0 0) s
  t.modQp q (fun v => { v with enabled := false, disabling := false })

/-- The queue pairs of a context. -/
def State.qpsOf (s : State) (x : Nat) : List Nat := Tbl.keysWhere (fun _ v => v.configured && v.ctx == x) s.qps

/-- A core stops: it is unassigned and reset (R373). -/
def stopCore (v : Core) : Core := { failed := v.failed, errTimes := v.errTimes }

/-- The cores of a context are stopped and the lines it filled are discarded (R410 event 2, R373). -/
def State.stopCores (s : State) (x : Nat) : State :=
  { s with cores := Tbl.mapVal (fun _ => {}) (fun _ v => if v.owner = some x then stopCore v else v) s.cores,
           dir := s.dir.filter (fun e => e.2.ctx != x) }

/-- The part of a partition's state that a kill of context x stops: its recovery, its launches, its switch (R411). -/
def killPart (x now : Nat) (v : Part) : Part :=
  { v with
    launches := v.launches.filter (fun l => l.ctx != x),
    recovery := match v.recovery with
      | some r => if (r.step.map RunStep.ctx) = some x then none else some r
      | none => none,
    pendingCause := if v.resident = some x then none else v.pendingCause,
    ckptBusy := if v.resident = some x then none else v.ckptBusy,
    switching := match v.switching with
      | some w => if w.outgoing = some x ∧ w.stage = .saving then some { w with stage := .scrubbing }
                  else if w.incoming = x then none else some w
      | none => none,
    scrubbing := v.scrubbing || (match v.switching with
      | some w => decide (w.incoming = x) && decide (w.stage = .restoring)
      | none => false),
    drain := some now }

/-- A TDI whose context is killed by another, or whose physical function is reset, goes to ERROR (R454). -/
def Fn.spoil (v : Fn) : Fn :=
  match v.tdi with
  | .locked => { v with tdi := .error }
  | .run => { v with tdi := .error }
  | _ => v

/-- The kill sequence of context x begins: event 1 of R410, and its cores are stopped. The KILL descriptor that asked
for it, if any, is kept to complete last. -/
def State.killStart (s : State) (x : Nat) (own : Option (Nat × Nat)) : State :=
  let c := s.ctx x
  match c.st with
  | .free | .killing => s
  | _ =>
    let p := c.part
    let t := if ((s.part p).running.map RunStep.ctx) = some x then s.haltStep p else s.dropRequests x
    let t := t.modPart p (killPart x s.now)
    let t := (s.qpsOf x).foldl (fun s q => s.killQp own q) t
    let t := (t.stopCores x).modFn c.fn (fun v => if own.isNone then v.spoil else v)
    t.modCtx x (fun v => { v with st := .killing, killQ := own, killStage := 1, deferred := [],
                                  recoverPending := none, needLayout := false, ckptPending := none })

/-! ## Classes (R544 to R547) -/

/-- The completion of the launch whose step a context-fatal error ends (Table 13.6, status 0x08). -/
def State.endLaunch (s : State) (x code detail : Nat) : State :=
  let v := s.part (s.ctx x).part
  let st := match v.running with
    | some st => some st
    | none => v.recovery.bind Recovery.step
  match st with
  | some st => if st.ctx = x then s.complete st.q st.k stStep code st.seq detail else s
  | none => s

/-- A context-fatal error (class 0x3): the step ends, and the context is killed (R544). -/
def State.contextFatal (s : State) (x code : Nat) (src : Source) : State :=
  let t := s.note code { src with ctx := some x }
  match (s.ctx x).st with
  | .free | .killing => t
  | _ => ((t.endLaunch x code (src.detail.headD 0)).modCtx x (fun v => { v with lastError := code })).killStart x none

/-- Whether the running step of a partition is one of context x. -/
def Part.runs (v : Part) (x : Nat) : Bool := decide (v.running.map RunStep.ctx = some x)

/-- Whether the running step has started recovery three times: its next start is the fourth (R323). -/
def Part.worn (v : Part) : Bool := match v.running with
  | some st => decide (3 ≤ st.starts)
  | none => false

/-- A recovery of context x is asked for: in a running step it is due at once (R320); in a recovery it returns that to
event 1 (R334); with no step running it runs before the context's next step (R546). -/
def State.dueRecovery (s : State) (x code detail : Nat) : State :=
  let p := (s.ctx x).part
  let v := s.part p
  if v.runs x then s.modPart p (fun v => if v.pendingCause.isNone then { v with pendingCause := some (code, detail) } else v)
  else match v.recovery with
    | some r =>
      if v.resident = some x then
        s.modPart p (fun v => { v with recovery := some { r with stage := .draining, layoutDeadline := none }, drain := some s.now })
      else s.modCtx x (fun c => { c with recoverPending := some code })
    | none => s.modCtx x (fun c => { c with recoverPending := some code })

/-- Whether a contained code names the logical cluster that heads its detail (R320, Table 20.2). -/
def namesCluster (code : Nat) : Bool :=
  decide (1 ≤ code / 256 % 16) && decide (code / 256 % 16 ≤ 3) && decide (code ≠ 0x2142)

/-- A contained error (class 0x2) of context x: without a durable checkpoint it is context-fatal from the moment it is
raised (R546), and so is one that would start a step's recovery a fourth time (R323, R545); else a recovery is due. -/
def State.contained (s : State) (x code : Nat) (src : Source) : State :=
  let c := s.ctx x
  match c.st with
  | .free | .killing => s.note code { src with ctx := some x }
  | _ =>
    if c.ckpt.isNone || ((s.part c.part).runs x && (s.part c.part).worn) then s.contextFatal x (code % 4096 + 0x3000) src
    else ((s.note code { src with ctx := some x }).dueRecovery x code (src.detail.headD 0)).modPart c.part
      (fun v => if namesCluster code && !v.testDue.contains (src.detail.headD 0) then
        { v with testDue := v.testDue ++ [src.detail.headD 0] } else v)

/-- A failure that asks for a recovery of context x without an event of its own (R487, R507): without a checkpoint, or
at the fourth start, the recovery's event is context-fatal (R319, R323, R545). -/
def State.askRecovery (s : State) (x : Nat) (src : Source) : State :=
  let c := s.ctx x
  match c.st with
  | .free | .killing => s
  | _ =>
    if c.ckpt.isNone || ((s.part c.part).runs x && (s.part c.part).worn) then s.contextFatal x 0x3804 src
    else s.dueRecovery x 0 (src.detail.headD 0)

/-- Region r is to be retired at its partition's next step boundary; a running step that uses it is aborted first; a
region of no partition is out of service at once (R333). -/
def State.orderRetire (s : State) (r : Nat) : State :=
  match (s.region r).part with
  | none => s.modRegion r (fun v => { v with inService := false })
  | some p =>
    let t := s.modRegion r (fun v => { v with retire := true })
    match (s.part p).running with
    | some st => if st.clusters.any (fun c => regionOf c == r) then t.askRecovery st.ctx { region := r, part := p } else t
    | none => t

/-- The contexts of a partition that exist. -/
def State.ctxsOf (s : State) (p : Nat) : List Nat := Tbl.keysWhere (fun _ v => v.part == p && decide (v.st ≠ .free)) s.ctxs

/-- A partition reset begins: every context of the partition is killed (R542, R544). -/
def State.resetPart (s : State) (p : Nat) : State :=
  (((s.ctxsOf p).foldl (fun s x => s.killStart x none) s)).modPart p (fun v => { v with resetting := true })

/-- A partition-fatal error (class 0x4). -/
def State.partFatal (s : State) (p code : Nat) (src : Source) : State :=
  (s.note code { src with part := p }).resetPart p

/-- A device-fatal error (class 0x5): every region enters Hold, every enabled error queue gets an entry, and every
link sets device_fatal and sends vector 0 of its physical function (R547). -/
def State.deviceFatal (s : State) (code : Nat) (src : Source) : State :=
  let t := (s.note code src).allRegions (holdRegion .fatal)
  (List.range 16).foldl (fun s l =>
    let s' := s.modLink l (fun v => { v with fatal := true })
    if (s.link l).up && !(s.link l).fatal then s'.emit (.interrupt (64 * l) 0) else s') t

/-- An event with the action of its class; the context and partition are those of its source. -/
def State.raise (s : State) (code : Nat) (src : Source) : State :=
  match codeClass code, src.ctx with
  | 2, some x => s.contained x code src
  | 3, some x => s.contextFatal x code src
  | 4, _ => s.partFatal src.part code src
  | 5, _ => s.deviceFatal code src
  | _, _ => s.note code src

/-! ## Traps (R40, R168, R196) -/

/-- The class of a trap cause (Tables 6.5 and 7.2). -/
def trapClass (cause : Nat) : Nat := if cause = 0x03 ∨ cause = 0x06 ∨ cause = 0x07 ∨ cause = 0x20 then 2 else 3

/-- Whether a timeout repeats the one before: the same step, cluster and program counter in a replay (R86). -/
def State.repeatsTimeout (s : State) (x c pc : Nat) : Bool :=
  match (s.ctx x).lastTimeout, (s.part (s.ctx x).part).running with
  | some (seq, c', pc', starts), some st => seq == st.seq && c' == c && pc' == pc && decide (starts < st.starts)
  | _, _ => false

/-- Records a timeout of the running step for R86. -/
def State.noteTimeout (s : State) (x c pc : Nat) : State :=
  match (s.part (s.ctx x).part).running with
  | some st => s.modCtx x (fun v => { v with lastTimeout := some (st.seq, c, pc, st.starts) })
  | none => s

/-- Whether the running step of context x is a replay of a step whose COMPLETE record is present (R325). -/
def State.replaying (s : State) (x : Nat) : Bool :=
  match (s.part (s.ctx x).part).running with
  | some st => st.replay && st.ctx == x
  | none => false

/-- The event of a trap: code 0x?1cc with the class of the cause, escalated on a repeated timeout (R86, R549), or the
replay fault of R325. Causes 0x03 and 0x07 are logged by the failure that raised them. -/
def State.trapEvent (s : State) (c cause : Nat) : State :=
  match s.ctxOf c with
  | none => s
  | some x =>
    let pc := (s.cl c).trap.pc.toNat
    if s.replaying x then s.contextFatal x 0x3808 (s.atCluster c [(s.recordSeq ((s.ctx x).part)), c])
    else if cause = 0x03 ∨ cause = 0x07 then s
    else if cause = 0x06 ∨ cause = 0x20 then
      let code := if s.repeatsTimeout x c pc then 0x3100 + cause else 0x2100 + cause
      (s.noteTimeout x c pc).raise code (s.atCluster c [c, pc])
    else s.raise (trapClass cause * 4096 + 0x100 + cause) (s.atCluster c [c, pc])

/-- What a trap leaves in the cluster: the cause and the trapping program counter recorded, the cluster Trapped,
run-ahead squashed and counted under its cause (R40, R60, R168, R173, R169). -/
def trapCluster (cause sw row : Nat) (pc : BitVec 32) (v : Cluster) : Cluster :=
  let squash := !v.ahead.loads.isEmpty || !v.ahead.prefetch.isEmpty
  { v with st := if v.stepOne then .halted else .trapped, haltedFrom := if v.stepOne then .trapped else v.haltedFrom, stepOne := false,
           hold := none, ahead := { v.ahead with loads := [], prefetch := [] },
           trap := { cause := BitVec.ofNat 8 cause, sw := BitVec.ofNat 16 sw, row := BitVec.ofNat 14 row, pc := pc },
           cnt := { v.cnt with sqTrap := if squash then satInc v.cnt.sqTrap else v.cnt.sqTrap } }

/-- Cluster c traps at its program counter. -/
def State.trap (s : State) (c cause sw row : Nat) : State :=
  (s.modCl c (trapCluster cause sw row (s.cl c).regs.pc)).trapEvent c cause

/-- The tarn integrity fault of R102: a contained error that names the cluster holding the row, and the row. -/
def State.integrityEvent (s : State) (c n : Nat) : State := s.raise 0x2201 (s.atCluster c [c, n])

/-- The tick of the last heartbeat of a cluster, `absent` beacons of its region back from the last one (R67, R68). -/
def State.beatTick (s : State) (c absent : Nat) : Nat := ((s.domain (regionOf c)).lastBeacon.getD 0) - 1024 * absent

/-- A cluster is marked Failed (R66, R68): the failure is reported, and a recovery is due where a step may run. -/
def State.failCluster (s : State) (c absent : Nat) : State :=
  let e := s.cmapEntry (regionOf c) (localOf c)
  (s.modCl c (fun v => { v with st := .failed, hold := none, ahead := {} })).raise 0x2142
    (s.atCluster c [entrySite e, entryPos e, s.beatTick c absent])

end Sys2Proof.Machine
end

