-- ==== Sys2Proof/Machine/Tarn.lean ====
section
/-! DEFINITION. Tarn (03): rows and fill tags, handles, spans, spilled rows, and the address checks of 01. -/

namespace Sys2Proof.Machine

open Sys2Proof

/-! ## Rows and tags -/

/-- The key of row n of logical cluster c in the table of tarn rows. -/
def rowKey (c n : Nat) : Nat := c * 16384 + n

def State.trow (s : State) (c n : Nat) : TarnRow := Tbl.get (fun _ => {}) s.tarn (rowKey c n)
def State.setTrow (s : State) (c n : Nat) (v : TarnRow) : State :=
  { s with tarn := Tbl.set (fun _ => {}) s.tarn (rowKey c n) v }

/-- Whether every row of cluster c is HELD at once: its partition scrubs (R106), or it is the source or the target of a
copy (R330, R506). -/
def State.allHeld (s : State) (c : Nat) : Bool :=
  (match s.partOf c with
   | some p => (s.part p).scrubbing
   | none => false) ||
  (match (s.region (regionOf c)).exchange with
   | some x => x.a == c || x.b == c
   | none => false)

/-- The tag of row n of cluster c. -/
def State.rowTag (s : State) (c n : Nat) : Tag := if s.allHeld c then .held else (s.trow c n).tag

/-- The accesses of Table 3.4. -/
inductive Access where
  | taggedRead | peek | taggedWrite | untaggedRead | untaggedWrite | setEmpty | setFull | hold
  deriving DecidableEq, Repr

/-- Whether an access reads the row's data, and so checks its CRC (R74). -/
def Access.reads : Access → Bool
  | .taggedRead | .peek | .untaggedRead => true
  | _ => false

/-- Whether an access stores data. -/
def Access.stores : Access → Bool
  | .taggedWrite | .untaggedWrite => true
  | _ => false

/-- What a tag answers an access: go on to a tag, wait, or fail. -/
inductive TagAnswer where
  | go (t : Tag)
  | wait
  | fail
  deriving DecidableEq, Repr

/-- Table 3.4 (R80). -/
def tagTable : Access → Tag → TagAnswer
  | _, .held => .wait
  | .taggedRead, .empty => .wait
  | .taggedRead, .full => .go .empty
  | .taggedRead, .poisoned => .fail
  | .peek, .empty => .wait
  | .peek, .full => .go .full
  | .peek, .poisoned => .fail
  | .taggedWrite, .empty => .go .full
  | .taggedWrite, .full => .wait
  | .taggedWrite, .poisoned => .fail
  | .untaggedRead, .empty => .go .empty
  | .untaggedRead, .full => .go .full
  | .untaggedRead, .poisoned => .fail
  | .untaggedWrite, _ => .go .full
  | .setEmpty, _ => .go .empty
  | .setFull, .poisoned => .fail
  | .setFull, _ => .go .full
  | .hold, _ => .go .held

/-- What becomes of an access: it went through, with the data read; it waits; or it failed its CRC or met poison. -/
inductive RowAnswer where
  | done (d : Row) (s : State)
  | wait
  | bad (s : State)

/-- A cluster's run-ahead entries for a row become stale (R54). -/
def markStale (n : Nat) (v : Cluster) : Cluster :=
  { v with ahead := { v.ahead with loads := v.ahead.loads.map (fun e => if e.row = n && !e.parked then { e with stale := true } else e),
                                   watches := v.ahead.watches.filter (fun w => w.row != n) } }

/-- A packet put into the fabric: it gets the next number and the tick of its injection (R242). -/
def State.inject (s : State) (k : Packet) : State :=
  { s with net := s.net ++ [{ k with id := s.nextPkt, injectTick := s.now % 65536 }], nextPkt := s.nextPkt + 1 }

/-- The stale notice an owner sends when it breaks a watch (R56). -/
def staleNotice (c : Nat) (w : Watch) (p x : Nat) : Packet :=
  { id := 0, ptype := .stale, src := .cluster c, dst := .cluster w.requester, handle := w.handle, partition := p,
    context := x, index := BitVec.ofNat 64 w.row }

/-- A write to row n of cluster c, a change of its tag, a scrub or HELD reaches run-ahead: entries become stale and
watches break with a stale notice each (R54, R56). -/
def State.touch (s : State) (c n : Nat) : State :=
  let ws := (s.cl c).ahead.watches.filter (fun w => w.row == n)
  let t := if (s.cl c).ahead.loads.isEmpty && (s.cl c).ahead.watches.isEmpty then s else s.modCl c (markStale n)
  ws.foldl (fun s w => s.inject (staleNotice c w ((s.partOf c).getD 0) ((s.ctxOf c).getD 0))) t

/-- A row that fails its CRC a second time since the last cold reset is to be retired (R105). -/
def noteRowFail (n : Nat) (v : Cluster) : Cluster :=
  { v with health := if v.health.rowFails.contains n
      then (if v.health.retiring.contains n || v.health.redirected.contains n then v.health
            else { v.health with retiring := v.health.retiring ++ [n] })
      else { v.health with rowFails := v.health.rowFails ++ [n] } }

/-- The CRC difference an environment's disturbance adds. -/
def upsetOf : Upset → BitVec 32
  | .row x => x
  | _ => 0

/-- One access to row n of cluster c by Table 3.4, with data `w` to store. A read of an EMPTY or FULL row whose CRC
does not match makes it POISONED (R81). -/
def State.rowAccess (s : State) (c n : Nat) (a : Access) (w : Row) (u : Upset) : RowAnswer :=
  let r := s.trow c n
  match tagTable a (s.rowTag c n) with
  | .wait => .wait
  | .fail => .bad s
  | .go t =>
    if a.reads then
      let syn := r.syndrome ^^^ upsetOf u
      if syn = 0 then
        let s' := s.setTrow c n { r with syndrome := 0, tag := t }
        .done r.data (if t = r.tag then s' else s'.touch c n)
      else .bad (((s.setTrow c n { r with syndrome := syn, tag := .poisoned }).touch c n).modCl c (noteRowFail n))
    else if a.stores then
      .done 0 ((s.setTrow c n { data := w, tag := t, syndrome := 0, former := r.former }).touch c n)
    else .done 0 ((s.setTrow c n { r with tag := t, former := if a = .hold then r.tag else r.former }).touch c n)

/-- A peek of run-ahead, of a remote prefetch or of an instruction fetch: a CRC mismatch discards the data and changes
no tag (R81). -/
def State.quietPeek (s : State) (c n : Nat) (u : Upset) : RowAnswer :=
  let r := s.trow c n
  match tagTable .peek (s.rowTag c n) with
  | .wait => .wait
  | .fail => .bad s
  | .go _ =>
    let syn := r.syndrome ^^^ upsetOf u
    let s' := s.setTrow c n { r with syndrome := syn }
    if syn = 0 then .done r.data s' else .bad s'

/-! ## Handles (R88 to R93) -/

def hBase (e : HandleEntry) : Nat := bitsOf e 13 0
def hCount (e : HandleEntry) : Nat := bitsOf e 29 15
def hWrap (e : HandleEntry) : Bool := bitOf e 30
def hTagged (e : HandleEntry) : Bool := bitOf e 31
def hFormat (e : HandleEntry) : Nat := bitsOf e 35 32
def hOwner (e : HandleEntry) : Nat := bitsOf e 57 48
def hBacking (e : HandleEntry) : Nat := bitsOf e 59 58
def hBackAddr (e : HandleEntry) : Nat := bitsOf e 115 64
def hBitmap (e : HandleEntry) : Nat := bitsOf e 179 128
def hGen (e : HandleEntry) : Nat := bitsOf e 207 192

/-- The rights of Table 3.6, by their bit. -/
inductive Right where
  | engineRead | engineWrite | dmaRead | dmaWrite | remoteRead | remoteWrite
  deriving DecidableEq, Repr

def Right.bit : Right → Nat
  | .engineRead => 36
  | .engineWrite => 37
  | .dmaRead => 38
  | .dmaWrite => 39
  | .remoteRead => 40
  | .remoteWrite => 41

def State.handle (s : State) (c h : Nat) : HandleEntry := Tbl.get (fun _ => 0) (s.cl c).handles h

/-- Whether an access through a handle entry to index i passes R92, for an accessor of context x. -/
def handleOk (e : HandleEntry) (x : Option Nat) (right : Right) (i : Nat) : Bool :=
  decide (0 < hCount e) && bitOf e right.bit && decide (x = some (hOwner e)) && (hWrap e || decide (i < hCount e))

/-- The same over a whole range of n indices from i on. -/
def handleRangeOk (e : HandleEntry) (x : Option Nat) (right : Right) (i n : Nat) : Bool :=
  decide (0 < hCount e) && bitOf e right.bit && decide (x = some (hOwner e)) &&
    (hWrap e || decide (i + n ≤ hCount e))

/-- The physical row, or the spilled row's own index, that index i reaches (R91). -/
def handleRow (e : HandleEntry) (i : Nat) : Nat :=
  if hWrap e then (if hBacking e = 0 then hBase e + i % hCount e else i % hCount e)
  else (if hBacking e = 0 then hBase e + i else i)

/-- A row that a handle covers lies in its range (R91). -/
def handleCovers (e : HandleEntry) (n : Nat) : Bool :=
  decide (hBacking e = 0) && decide (hBase e ≤ n) && decide (n < hBase e + hCount e)

/-- The tag policy by which row n of cluster c may be reached by address, for context x and a right (R93). -/
def State.coverOf (s : State) (c n : Nat) (x : Option Nat) (right : Right) : Option Bool :=
  match (s.cl c).handles.find? (fun e => handleCovers e.2 n && bitOf e.2 right.bit && decide (x = some (hOwner e.2))) with
  | some e => some (hTagged e.2)
  | none => none

/-- A handle entry as R90 checks its fields alone: no reserved value, and the rows of a resident handle fit. -/
def handleFieldsOk (e : HandleEntry) : Bool :=
  !bitOf e 14 && decide (hCount e ≤ 16384) && !(decide (0xB ≤ hFormat e) && decide (hFormat e ≤ 0xE)) &&
  bitsOf e 47 42 == 0 && bitsOf e 63 60 == 0 && bitsOf e 127 116 == 0 && bitsOf e 191 180 == 0 && bitsOf e 255 208 == 0 &&
  (if hBacking e = 0 then decide (hBase e + hCount e ≤ 16384) else bitsOf e 75 64 == 0 && bitsOf e 133 128 == 0)

/-- Whether the rows of two resident entries overlap (R90). -/
def handlesOverlap (e f : HandleEntry) : Bool :=
  decide (hBacking e = 0) && decide (hBacking f = 0) && decide (0 < hCount e) && decide (0 < hCount f) &&
    decide (hBase e < hBase f + hCount f) && decide (hBase f < hBase e + hCount e)

/-- Whether an entry may stand in cluster c's table at h beside the others (R90). -/
def State.handleFits (s : State) (c h : Nat) (e : HandleEntry) : Bool :=
  !(s.cl c).handles.any (fun o => o.1 != h && handlesOverlap e o.2 && (hTagged e != hTagged o.2))

/-- An entry written by the device: its generation is one above that of the entry it replaces (Table 3.6). -/
def State.writeHandle (s : State) (c h : Nat) (e : HandleEntry) : State :=
  let g := (hGen (s.handle c h) + 1) % 65536
  let e' := BitVec.ofNat 256 (e.toNat - hGen e * 2 ^ 192 + g * 2 ^ 192)
  s.modCl c (fun v => { v with handles := Tbl.set (fun _ => 0) v.handles h e' })

/-! ## Spilled rows (R97, R98) -/

/-- The tag codes of Table 3.3. -/
def Tag.code : Tag → Nat
  | .empty => 0
  | .full => 1
  | .poisoned => 2
  | .held => 3

def tagOfCode (k : Nat) : Tag := if k = 0 then .empty else if k = 1 then .full else if k = 2 then .poisoned else .held

/-! ## Spans (R94 to R96) -/

/-- The span table entry of a context; none where it is undefined. -/
def State.span (s : State) (x n : Nat) : Option Span := ((s.ctx x).spans.find? (fun e => e.1 == n)).map Prod.snd

/-- The member index and handle row of logical row r (R96). -/
def spanMemberOf (sp : Span) (r : Nat) : Nat := r / sp.stripe % sp.members.length
def spanRowOf (sp : Span) (r : Nat) : Nat := r / (sp.stripe * sp.members.length) * sp.stripe + r % sp.stripe

/-! ## The address map (R35 to R38) -/

/-- GiB in bytes. -/
def gib : Nat := 2 ^ 30

/-- The size of a region's HBM slice (R36). -/
def State.sliceSize (s : State) : Nat := if s.variant36 then 72 * gib else 96 * gib

/-- The ranges of Table 1.10 that an access may lie in. -/
inductive Place where
  | hbm (off : Nat)
  | tier2 (off : Nat)
  | tarn (c off : Nat)
  | setup (off : Nat)
  | host (l off : Nat)
  | none
  deriving DecidableEq, Repr

/-- The range an address lies in. -/
def placeOf (a : Nat) : Place :=
  if a < 0x180_0000_0000 then .hbm a
  else if 0x1_0000_0000_0000 ≤ a ∧ a < 0x1_1000_0000_0000 then .tier2 (a - 0x1_0000_0000_0000)
  else if 0x2_0000_0000_0000 ≤ a ∧ a < 0x2_0009_0000_0000 then
    .tarn ((a - 0x2_0000_0000_0000) / 0x80_0000) ((a - 0x2_0000_0000_0000) % 0x80_0000)
  else if 0x3_0000_0000_0000 ≤ a ∧ a < 0x3_0000_1000_0000 then .setup (a - 0x3_0000_0000_0000)
  else if 0x4_0000_0000_0000 ≤ a ∧ a < 0x5_0000_0000_0000 then
    .host ((a - 0x4_0000_0000_0000) / 0x1000_0000_0000) ((a - 0x4_0000_0000_0000) % 0x1000_0000_0000)
  else .none

/-- Whether n bytes from a on lie in one range of R37, each host window a range of its own. -/
def oneRange (a n : Nat) : Bool :=
  match placeOf a, placeOf (a + n - 1) with
  | .hbm _, .hbm _ => true
  | .tier2 _, .tier2 _ => true
  | .tarn _ _, .tarn _ _ => true
  | .setup _, .setup _ => true
  | .host l _, .host l' _ => l == l'
  | _, _ => false

/-- The stack and stack offset of an HBM address under the interleave in force (R336, R337), and after a stack's
failure (R349). -/
def State.hbmPlace (s : State) (a : Nat) : Nat × Nat :=
  let S := s.sliceSize
  let r := a / S
  let off := a % S
  match (s.region r).linear with
  | some k => (k, off)
  | none =>
    let wide := match (s.region r).part with
      | some p => (s.part p).interleave
      | none => false
    if wide then
      let rs := sortNat (s.part ((s.region r).part.getD 0)).regions
      let p := rs.idxOf r * S + off
      let g := p / 4096
      let m := 2 * rs.length
      let k := g % m
      (2 * rs.getD (k / 2) r + k % 2, g / m * 4096 + p % 4096)
    else
      let g := off / 4096
      (2 * r + g % 2, g / 2 * 4096 + off % 4096)

/-- The relocation cut of a stack: 31C / 32 (R347). -/
def State.cutOf (s : State) : Nat := s.sliceSize / 2 / 32 * 31

/-- Whether an HBM address is mapped: its region in service, the slice's upper half unless unmapped (Table 1.9), its
granule unless a retired pseudo-channel's (R347), its page unless unmapped by a retirement. -/
def State.hbmMapped (s : State) (a : Nat) : Bool :=
  let r := a / s.sliceSize
  let q := s.hbmPlace a
  decide (a < 16 * s.sliceSize) && (s.region r).inService && !((s.region r).upperUnmapped && decide (s.sliceSize / 2 ≤ a % s.sliceSize)) &&
    !((s.hbm q.1).retiredPc.isSome && decide (s.cutOf ≤ q.2)) && !(s.page (a / 4096)).unmapped

/-- The window a tier-2 offset lies in, with a number of bytes (R351). -/
def State.windowAt (s : State) (off n : Nat) : Option Nat :=
  (s.windows.find? (fun e => decide (e.2.st ≠ .free) && decide (e.2.base * 2 ^ 28 ≤ off) &&
    decide (off + n ≤ (e.2.base + e.2.size) * 2 ^ 28))).map Prod.fst

/-- Whether R37 and R38 let an agent of partition p reach n bytes at a; host windows are judged by the caller. -/
def State.reachable (s : State) (p : Nat) (a n : Nat) : Bool :=
  oneRange a n &&
  match placeOf a with
  | .hbm o => s.hbmMapped o && s.hbmMapped (o + n - 1) && decide ((s.region (o / s.sliceSize)).part = some p) &&
      decide ((s.region ((o + n - 1) / s.sliceSize)).part = some p)
  | .tier2 o => match s.windowAt o n with
      | some w => (decide ((s.win w).st = .online) || decide ((s.win w).st = .lost)) && (s.win w).part == p
      | none => false
  | .tarn c _ => (s.region (regionOf c)).inService && !s.vacant c && decide (s.partOf c = some p)
  | .host l _ => (s.link l).up
  | _ => false

/-- The page of context x that n bytes of HBM or tier 2 lie in are all its own (R405, R422). -/
def State.ownPages (s : State) (x a n : Nat) : Bool :=
  (pagesOf a n).all (fun g => (s.page g).owner == x && match (s.page g).use with
    | .mapped | .stepInput | .checkpoint | .image => true
    | _ => false)

/-- Whether a write may go there: checkpoint areas in force refuse (R316), and an image's pages refuse (R422). -/
def State.writablePages (s : State) (a n : Nat) : Bool :=
  (pagesOf a n).all (fun g => match (s.page g).use with
    | .checkpoint | .image | .save | .zeroing => false
    | _ => true)

/-- Whether a read of memory returns poison: a poisoned sector, a failed stack, or a LOST window (R341, R349, R355). -/
def State.readsPoison (s : State) (a n : Nat) : Bool :=
  s.rangePoison a n ||
  match placeOf a with
  | .hbm o => (s.hbm (s.hbmPlace o).1).failed
  | .tier2 o => match s.windowAt o n with
      | some w => decide ((s.win w).st = .lost)
      | none => false
  | _ => false

/-- The tag of row i of a spilled handle in its bitmap: 2 bits per row (R97). -/
def State.bitmapTag (s : State) (e : HandleEntry) (i : Nat) : Tag :=
  tagOfCode ((s.byte (hBitmap e + i / 4)).toNat / 4 ^ (i % 4) % 4)

/-- A tag of the bitmap changed, at the HBM controller and so in no cache (R98, R363). -/
def State.setBitmapTag (s : State) (e : HandleEntry) (i : Nat) (t : Tag) : State :=
  let a := hBitmap e + i / 4
  let b := (s.byte a).toNat
  ((s.evictLine (a / 64)).preImage (a / 4096)).setByte a (BitVec.ofNat 8 (b - b / 4 ^ (i % 4) % 4 * 4 ^ (i % 4) + t.code * 4 ^ (i % 4)))

/-- Where the data of row i of a spilled handle lies. -/
def spillAddr (e : HandleEntry) (i : Nat) : Nat := hBackAddr e + i * 512

/-- One access to row i of a spilled handle, its three parts together (R98); a poisoned backing row makes the row
POISONED in the bitmap and the access fail (R101). -/
def State.spilledAccess (s : State) (e : HandleEntry) (i : Nat) (a : Access) (w : Row) : RowAnswer :=
  match tagTable a (s.bitmapTag e i) with
  | .wait => .wait
  | .fail => .bad s
  | .go t =>
    if a.reads then
      if s.readsPoison (spillAddr e i) 512 then .bad (s.setBitmapTag e i .poisoned)
      else .done (BitVec.ofNat 4096 (s.readNat (spillAddr e i) 512)) (s.setBitmapTag e i t)
    else if a.stores then .done 0 ((s.writeMem (spillAddr e i) w.toNat 512).setBitmapTag e i t)
    else .done 0 (s.setBitmapTag e i t)

/-- The access through a handle entry to row j (R91 applied): resident in cluster c's tarn, or spilled. -/
def State.entryAccess (s : State) (c : Nat) (e : HandleEntry) (j : Nat) (a : Access) (w : Row) (u : Upset) : RowAnswer :=
  if hBacking e = 0 then s.rowAccess c j a w u else s.spilledAccess e j a w

/-- The tag a handle's row shows (R188). -/
def State.entryTag (s : State) (c : Nat) (e : HandleEntry) (j : Nat) : Tag :=
  if hBacking e = 0 then s.rowTag c j else s.bitmapTag e j

/-- Whether an address lies in a partition's journal ring (R307). -/
def State.journalAt (s : State) (a : Nat) : Option Nat :=
  (s.parts.find? (fun e => e.2.formed && decide (e.2.journalBase ≤ a) &&
    decide (a < e.2.journalBase + e.2.journalGib * gib))).map Prod.fst

/-- The event of a poisoned read, for the context that owns the page (R342). -/
def State.poisonEvent (s : State) (a : Nat) : State :=
  let pg := s.page (a / 4096)
  let x := pg.owner
  let src : Source := { region := if a < 16 * s.sliceSize then a / s.sliceSize else 31, part := (s.ctx x).part,
                        ctx := some x, detail := [a] }
  match s.journalAt a with
  | some p =>
    ((((s.part p).journal.map JEntry.ctx).eraseDups).foldl (fun s x => s.contextFatal x 0x3602 { src with ctx := some x, part := p }) s)
  | none =>
    match pg.use with
    | .free | .zeroing =>
      (match s.ctxs.find? (fun e => e.2.saveRuns.any (fun r => decide (r.1 ≤ a / 4096) && decide (a / 4096 < r.1 + r.2))) with
       | some e => s.contextFatal e.1 0x3602 { src with ctx := some e.1, part := e.2.part }
       | none => s.note 0x0602 { src with ctx := none, part := 31 })
    | .checkpoint => s.contextFatal x 0x3602 src
    | _ => if Tbl.get (fun _ => false) (s.ctx x).written (a / 4096) then s.contained x 0x2602 src
           else s.contextFatal x 0x3602 src

end Sys2Proof.Machine
end

