-- ==== Sys2Proof/Machine/Ecc.lean ====
section
/-! DEFINITION. Error correction of HBM (11): corrected and uncorrectable sectors, soft repair, and candidates for
pseudo-channel retirement. -/

namespace Sys2Proof.Machine

open Sys2Proof

/-- Ticks of 24 hours. -/
def dayTicks : Nat := 86400 * ticksPerS

/-- The pseudo-channel of a stack offset (R339). -/
def pcOf (o : Nat) : Nat := o / 256 % 32

/-- The DRAM row of a stack offset, numbered so that its pseudo-channel is the number mod 32; a row holds 1 KiB
(PRESUMED, notes/assumptions/62.md). -/
def dramRow (o : Nat) : Nat := o / 32768 * 32 + pcOf o

/-- The thresholds of HBM_RAS_CFG. -/
def State.rowThresh (s : State) : Nat := bitsOf (s.reg 0x402000) 7 0
def State.pcThresh (s : State) : Nat := bitsOf (s.reg 0x402000) 23 8

/-- Soft repairs due in a stack are made, as far as its resources go (R343). -/
def softRepair (v : Stack) : Stack :=
  let n := min v.softDue.length v.remaining
  { v with soft := v.soft + n, remaining := v.remaining - n, softDue := [],
           rowTimes := v.rowTimes.filter (fun e => !(v.softDue.take n).contains e.1) }

/-- Pseudo-channel q of stack k becomes a candidate: the first is pending and reported with its cut; a later one stays in
service and is reported (R346, R348 event 1). -/
def State.pcCandidate (s : State) (k q : Nat) : State :=
  let v := s.hbm k
  let src : Source := { region := k / 2, part := ((s.region (k / 2)).part).getD 31, detail := [k, q, s.cutOf] }
  if v.failed || decide (v.candidate = some q) || v.candidates.contains q then s
  else if v.candidate.isSome then (s.modHbm k (fun v => { v with candidates := v.candidates ++ [q] })).note 0x1601 src
  else (s.modHbm k (fun v => { v with candidate := some q, pending := true, pendingSince := s.now })).note 0x1601 src

/-- What a stack keeps of a corrected sector: its count, its row's times within 24 h, and the write-back it owes. -/
def noteCorrected (now thresh o sector : Nat) (v : Stack) : Stack :=
  let row := dramRow o
  let times := v.rowTimes.filter (fun e => decide (now < e.2 + dayTicks)) ++ [(row, now)]
  let due := decide (thresh ≤ ((times.filter (fun e => e.1 == row)).map Prod.snd).eraseDups.length)
  { v with corrected := Tbl.set (fun _ => 0) v.corrected (pcOf o) (min 0xFFFFFFFF (Tbl.get (fun _ => 0) v.corrected (pcOf o) + 1)),
           rowTimes := times, writeBack := v.writeBack ++ [sector],
           softDue := if due && !v.softDue.contains row then v.softDue ++ [row] else v.softDue }

/-- What a stack keeps of an uncorrectable sector. -/
def noteUncorrectable (o : Nat) (v : Stack) : Stack :=
  { v with uncorrectable := Tbl.set (fun _ => 0) v.uncorrectable (pcOf o) (min 65535 (Tbl.get (fun _ => 0) v.uncorrectable (pcOf o) + 1)),
           uncorrRows := if v.uncorrRows.contains (dramRow o) then v.uncorrRows else v.uncorrRows ++ [dramRow o] }

/-- A read of HBM counts what error correction met there, and stores an uncorrectable sector as poisoned (R340, R341);
soft repairs and candidates follow (R343, R346). -/
def State.eccAt (s : State) (a : Nat) (e : Ecc) : State :=
  match placeOf a, e with
  | .hbm o, .corrected =>
    let k := s.hbmPlace o
    let t := s.modHbm k.1 (noteCorrected s.now s.rowThresh k.2 (a / 32))
    let t := if (s.region (k.1 / 2)).part.isNone then t.modHbm k.1 softRepair else t
    if s.pcThresh ≤ ((t.hbm k.1).rowTimes.filter (fun e => e.1 % 32 == pcOf k.2)).length then t.pcCandidate k.1 (pcOf k.2) else t
  | .hbm o, .uncorrectable =>
    let k := s.hbmPlace o
    let t := (s.modHbm k.1 (noteUncorrectable k.2)).setPoison (a / 32) true
    if 2 ≤ ((t.hbm k.1).uncorrRows.filter (fun r => r % 32 == pcOf k.2)).length then t.pcCandidate k.1 (pcOf k.2) else t
  | _, _ => s

end Sys2Proof.Machine
end

