-- ==== Sys2Proof/Machine/Flags.lean ====
section
/-! DEFINITION. Conditions, predicates and masks: the predicate a comparison sets, predicate logic, guards, and byte
masks (06). -/

namespace Sys2Proof.Machine

open Sys2Proof

/-- The conditions of CMP selected by f[3:1] (R179); codes 6 and 7 are reserved. -/
def condHolds (cond : Nat) (x y : Word) : Bool :=
  match cond with
  | 0 => x == y
  | 1 => x != y
  | 2 => x.slt y
  | 3 => x.ult y
  | 4 => !x.slt y
  | _ => !x.ult y

/-- PLOG's operations selected by f[2:1] (R179). -/
def plogOp (op : Nat) (x y : Bool) : Bool :=
  match op with
  | 0 => x && y
  | 1 => x || y
  | 2 => xor x y
  | _ => x && !y

/-- Predicate k; p0 is always true (R45). -/
def Regs.pred (r : Regs) (k : Nat) : Bool := k == 0 || r.p.getLsbD k

/-- Predicate k written; a write to p0 is discarded (R45). -/
def Regs.setPred (r : Regs) (k : Nat) (b : Bool) : Regs :=
  if k = 0 then r else
    { r with p := if b then r.p ||| BitVec.ofNat 8 (2 ^ k) else r.p &&& ~~~BitVec.ofNat 8 (2 ^ k) }

/-- The guard of R163. -/
def guardHolds (r : Regs) (pg : BitVec 3) (pn : Bool) : Bool := xor (r.pred pg.toNat) pn

/-- The mask with bit i set exactly when lo ≤ i < hi (MSK mode 2, R183). -/
def maskRange (lo hi : Nat) : Mask := if lo < hi then BitVec.ofNat 512 (2 ^ hi - 2 ^ lo) else 0

/-- The mask with bit i set exactly when byte i of a row is non-zero (MSK mode 3, R183). -/
def maskNonZero (d : Row) : Mask :=
  BitVec.ofNat 512 ((List.range 512).foldl (fun a i => if d.toNat / 256 ^ i % 256 = 0 then a else a + 2 ^ i) 0)

/-- A byte mask spread to bits: byte i is all ones where mask bit i is set. -/
def maskBits (m : Mask) : Row :=
  BitVec.ofNat 4096 ((List.range 512).foldl (fun a i => if bitOf m i then a + 255 * 256 ^ i else a) 0)

/-- A result merged into a row register under its mask: a byte whose mask bit is clear keeps its old value (R47). -/
def mergeRow (m : Mask) (old new : Row) : Row :=
  if m = BitVec.allOnes 512 then new else (new &&& maskBits m) ||| (old &&& ~~~maskBits m)

end Sys2Proof.Machine
end

