-- ==== Sys2Proof/Machine/Operands.lean ====
section
/-! DEFINITION. Instruction words (06, R158 to R167): their fields, the illegal encodings, and retirement: fetch
faults, guards, the loop stack, traps and holds. -/

namespace Sys2Proof.Machine

open Sys2Proof

/-! ## Fields of the base word (Tables 6.1 and 6.2) -/

def fA (i : Issue) : Nat := bitsOf i.opnds 4 0
def fB (i : Issue) : Nat := bitsOf i.opnds 9 5
def fC (i : Issue) : Nat := bitsOf i.opnds 14 10
def fH (i : Issue) : Nat := bitsOf i.opnds 20 15
def fD (i : Issue) : Nat := bitsOf i.opnds 25 21
def fF (i : Issue) : Nat := bitsOf i.opnds 31 26
def fImm16 (i : Issue) : BitVec 16 := i.opnds.extractLsb' 32 16
def fImm32 (i : Issue) : BitVec 32 := i.opnds.extractLsb' 10 32

/-- The sign-extended immediates. -/
def sImm16 (i : Issue) : Word := (fImm16 i).signExtend 64
def sImm32 (i : Issue) : Int := (fImm32 i).toInt

/-- The base word an issue stands for, its opcode put in (Table 6.1). -/
def baseWord (op : BitVec 8) (i : Issue) : Word :=
  BitVec.ofNat 64 (i.pg.toNat + (if i.pn then 8 else 0) + i.ext.toNat * 16 + i.rsv.toNat * 64 + op.toNat * 256 +
    i.opnds.toNat * 65536)

/-- The issue that a base word of cluster c spells, with two extension words. -/
def issueOf (c : Nat) (w x0 x1 : Word) : Issue :=
  { c := c, pg := w.extractLsb' 0 3, pn := w.getLsbD 3, ext := w.extractLsb' 4 2, rsv := w.extractLsb' 6 2,
    opnds := w.extractLsb' 16 48, x0 := x0, x1 := x1 }

/-- How an opcode uses a field of layout R. -/
inductive Use where
  | unused | scalar | small
  deriving DecidableEq, Repr

/-- Whether a field's value is legal: an unused one is zero (R159), a predicate or row register is at most 7 (R160). -/
def Use.ok : Use → Nat → Bool
  | .unused, v => v == 0
  | .scalar, _ => true
  | .small, v => decide (v < 8)

/-- The form of an opcode: its layout, extension words and use of fields. -/
structure Form where
  layoutL : Bool := false
  ext : Nat := 0
  a : Use := .unused
  b : Use := .unused
  c : Use := .unused
  d : Use := .unused
  h : Bool := false
  fmask : Nat := 0
  imm : Bool := false
  deriving DecidableEq, Repr

/-- The checks of R167 that the base word alone decides. -/
def Form.legal (m : Form) (i : Issue) : Bool :=
  i.ext.toNat == m.ext && i.rsv == 0 && !(i.pg == 0 && i.pn) && m.a.ok (fA i) && m.b.ok (fB i) &&
  (if m.layoutL then bitsOf i.opnds 47 42 == 0
   else m.c.ok (fC i) && m.d.ok (fD i) && (m.h || fH i == 0) && (fF i &&& (63 - m.fmask)) == 0 &&
     (m.imm || fImm16 i == 0))

/-! ## Registers (R45, R47) -/

def Regs.sreg (r : Regs) (k : Nat) : Word := if k = 0 then 0 else Tbl.get (fun _ => 0) r.s k
def Regs.setSreg (r : Regs) (k : Nat) (w : Word) : Regs := if k = 0 then r else { r with s := Tbl.set (fun _ => 0) r.s k w }
def Regs.row (r : Regs) (k : Nat) : Row := Tbl.get (fun _ => 0) r.v k
def Regs.setRow (r : Regs) (k : Nat) (d : Row) : Regs := { r with v := Tbl.set (fun _ => 0) r.v k d }
def Regs.mask (r : Regs) (k : Nat) : Mask := Tbl.get (fun _ => BitVec.allOnes 512) r.m k
def Regs.setMask (r : Regs) (k : Nat) (m : Mask) : Regs := { r with m := Tbl.set (fun _ => BitVec.allOnes 512) r.m k m }

/-- A row register written under its own mask (R47). -/
def Regs.mergeRow (r : Regs) (k : Nat) (d : Row) : Regs := r.setRow k (Machine.mergeRow (r.mask k) (r.row k) d)

/-- A row register written under its mask, but only in the bytes of `bits`. -/
def Regs.mergeBits (r : Regs) (k : Nat) (bits d : Row) : Regs :=
  let m := maskBits (r.mask k) &&& bits
  r.setRow k ((d &&& m) ||| (r.row k &&& ~~~m))

def State.regsOf (s : State) (c : Nat) : Regs := (s.cl c).regs
def State.modRegs (s : State) (c : Nat) (f : Regs → Regs) : State := s.modCl c (fun v => { v with regs := f v.regs })

/-- The value of s[k] in cluster c. -/
def State.sr (s : State) (c k : Nat) : Word := (s.regsOf c).sreg k

/-! ## Retirement -/

/-- How an instruction's own effect ends. -/
inductive Effect where
  | ok (s : State)
  | jump (s : State) (pc : Nat)
  | skip (s : State) (pc : Nat)
  | stop (s : State)
  | trap (s : State) (cause sw row : Nat)
  | integ (s : State) (e : HandleEntry) (n row : Nat)
  | hold (s : State) (h : Hold) (waits : Bool)

/-- Loop-back after a retiring instruction whose next program counter is `next` (R174); the top of the stack is the
head of the list. -/
def loopBack (seq : Bool) (next : Nat) : List LoopEntry → List LoopEntry × Nat
  | [] => ([], next)
  | t :: rest =>
    if next = t.fin && seq then
      (if t.remaining - 1 ≠ 0 then ({ t with remaining := t.remaining - 1 } :: rest, t.start) else loopBack seq next rest)
    else if next < t.start || t.fin ≤ next then loopBack seq next rest
    else (t :: rest, next)

/-- A cluster whose instruction has retired: one more is counted, loops act, the program counter moves. -/
def retireCluster (seq : Bool) (next : Nat) (v : Cluster) : Cluster :=
  let l := loopBack seq next v.regs.loops
  { v with st := if v.stepOne then .halted else .running, haltedFrom := if v.stepOne then .running else v.haltedFrom, stepOne := false,
           hold := none, regs := { v.regs with loops := l.1, pc := BitVec.ofNat 32 l.2 },
           cnt := { v.cnt with retired := satInc v.cnt.retired } }

/-- The next sequential program counter (R161). -/
def nextPc (s : State) (i : Issue) : Nat := ((s.regsOf i.c).pc.toNat + 8 * (1 + i.ext.toNat)) % 2 ^ 32

/-- The panel time a wait began: that of the wait it continues, or now (R83). -/
def State.since (s : State) (c : Nat) : Nat := (((s.cl c).hold.bind Hold.since).getD s.now)

/-- The event of a row that failed, of tarn or of a spilled handle's backing (R102, R549). -/
def State.badRowEvent (s : State) (c : Nat) (e : HandleEntry) (n : Nat) : State :=
  if hBacking e = 0 then s.integrityEvent c n else s.poisonEvent (spillAddr e n)

/-- An integrity fault at retirement: the trap of cause 0x07, then the event of the row (R102). -/
def State.integrityTrap (s : State) (c : Nat) (e : HandleEntry) (n row : Nat) : State :=
  (s.trap c 0x07 0 row).badRowEvent c e n

/-- An effect carried out on cluster i.c (R39, R40). -/
def State.finish (s : State) (i : Issue) : Effect → State
  | .ok t => t.modCl i.c (retireCluster true (nextPc s i))
  | .jump t pc => t.modCl i.c (retireCluster false pc)
  | .skip t pc => t.modCl i.c (retireCluster true pc)
  | .stop t => t.modCl i.c (fun v => { v with hold := none, stepOne := false, cnt := { v.cnt with retired := satInc v.cnt.retired } })
  | .trap t cause sw row => t.trap i.c cause sw row
  | .integ t e n row => t.integrityTrap i.c e n row
  | .hold t h waits => t.modCl i.c (fun v => { v with st := if waits then .waiting else .running, hold := some h })

/-- The issue without its disturbance: what a held instruction is known by. -/
def calm (i : Issue) : Issue := { i with u := .none }

/-- Whether cluster i.c can retire this instruction: it runs, its region is in Run, and no other instruction holds
retirement. -/
def State.canRetire (s : State) (op : Nat) (i : Issue) : Bool :=
  let v := s.cl i.c
  decide (i.c < 4608) && decide ((s.region (regionOf i.c)).pstate = .run) &&
  (match v.st, v.hold with
   | .running, none => true
   | .running, some h | .waiting, some h => h.opcode == BitVec.ofNat 8 op && decide (h.iss = calm i)
   | _, _ => false)

/-- A hold record for this instruction, its wait going on since it began. -/
def State.holdFor (s : State) (op : Nat) (i : Issue) : Hold :=
  { opcode := BitVec.ofNat 8 op, iss := calm i, since := some (s.since i.c) }

/-! ### Fetch faults (R42, R43, R162, R586) -/

/-- Whether the program counter is misaligned or some word lies outside the code range, or its line was marked with
an address fault. -/
def State.fetchAddressFault (s : State) (i : Issue) : Bool :=
  let v := s.cl i.c
  let pc := v.regs.pc.toNat
  let last := pc + 8 * (1 + i.ext.toNat) - 1
  decide (pc % 8 ≠ 0) || decide (v.code.len ≤ last) ||
    decide (Tbl.get (fun _ => Mark.clean) v.code.marks (pc / 512) = .address) ||
    decide (Tbl.get (fun _ => Mark.clean) v.code.marks (last / 512) = .address)

/-- The first line of the instruction that is marked with an integrity fault. -/
def State.integrityLine (s : State) (i : Issue) : Option Nat :=
  let v := s.cl i.c
  let pc := v.regs.pc.toNat
  let bad := fun n => decide (Tbl.get (fun _ => Mark.clean) v.code.marks n = .integrityTarn) ||
    decide (Tbl.get (fun _ => Mark.clean) v.code.marks n = .integrityHbm)
  if bad (pc / 512) then some (pc / 512)
  else if bad ((pc + 8 * (1 + i.ext.toNat) - 1) / 512) then some ((pc + 8 * (1 + i.ext.toNat) - 1) / 512) else none

/-- A marked line read once more at retirement (R103, R586): none where it is bad again, with the state it leaves and
the event of its failure, or the state in which the line is fetched afresh. -/
def State.rereadLine (s : State) (c line : Nat) (u : Upset) : Bool × State :=
  let v := s.cl c
  let fresh (s : State) (d : Row) : State := s.modCl c (fun v => { v with code :=
    { v.code with lines := Tbl.set (fun _ => none) v.code.lines line (some d), marks := Tbl.set (fun _ => .clean) v.code.marks line .clean } })
  match v.code.src with
  | .none => (true, s)
  | .tarn h =>
    let n := handleRow (s.handle c h) line
    match s.rowAccess c n .peek 0 u with
    | .done d t => (true, fresh t d)
    | .wait => (true, s)
    | .bad t => (false, t)
  | .hbm base =>
    if s.readsPoison (base + line * 512) 512 || decide (upsetOf u ≠ 0) then (false, s)
    else (true, fresh s (BitVec.ofNat 4096 (s.readNat (base + line * 512) 512)))

/-- The trap of a line that failed again: cause 0x03, and the event of the failure (R103, R549, R586). -/
def State.fetchIntegrityTrap (s : State) (c line : Nat) : State :=
  let t := s.trap c 0x03 0 0
  match (s.cl c).code.src with
  | .tarn h => t.integrityEvent c (handleRow (s.handle c h) line)
  | .hbm base => t.poisonEvent (base + line * 512)
  | .none => t

/-! ### Register-file parity (R66) -/

/-- A register-file parity error at a read by a retiring instruction: the step is run again, and the third within 1 s
fails the cluster (Table 2.7). -/
def State.regParity (s : State) (c : Nat) : State :=
  let v := s.cl c
  let times := (v.health.parityTimes.filter (fun t => decide (s.now < t + ticksPerS))) ++ [s.now]
  let t := s.setCl c { v with cnt := { v.cnt with parity := satInc v.cnt.parity }, health := { v.health with parityTimes := times } }
  if 3 ≤ times.length then t.failCluster c 0
  else t.raise 0x2141 (s.atCluster c [c])

/-- What a legal, fetched instruction does: its guard is tried, then its body acts. -/
def State.perform (s : State) (i : Issue) (off : State → Effect) (body : State → Effect) : State :=
  if i.u = .regParity then s.regParity i.c
  else if guardHolds (s.regsOf i.c) i.pg i.pn then s.finish i (body s)
  else s.finish i (off s)

/-- An instruction of cluster i.c reaches retirement: fetch faults first, then the encoding, the guard and the effect
(R163, R164, R167). `off` is what a false guard leaves. -/
def State.retireWith (s : State) (op : Nat) (i : Issue) (legal : Bool) (off body : State → Effect) : State :=
  if s.canRetire op i then
    if s.fetchAddressFault i then s.trap i.c 0x02 0 0
    else match s.integrityLine i with
      | some line =>
        let r := s.rereadLine i.c line i.u
        if r.1 then (if legal then r.2.perform { i with u := .none } off body else r.2.trap i.c 0x01 0 0)
        else r.2.fetchIntegrityTrap i.c line
      | none => if legal then s.perform i off body else s.trap i.c 0x01 0 0
  else s

/-- Retirement of an instruction that a false guard turns into an advance of the program counter (R46). -/
def State.retire (s : State) (op : Nat) (i : Issue) (legal : Bool) (body : State → Effect) : Result :=
  .next (s.retireWith op i legal (fun s => .ok s) body)

end Sys2Proof.Machine
end

