-- ==== Sys2Proof/Machine/Control.lean ====
section
/-! DEFINITION. Control, scalar, predicate and row-register instructions (06). -/

namespace Sys2Proof.Machine

open Sys2Proof

/-! ## Control (R170 to R175) -/

def formR : Form := {}
def formBr : Form := { layoutL := true }

def execNop (i : Issue) (s : State) : Result := s.retire 0x00 i (formR.legal i) (fun s => .ok s)

/-- Whether every fabric operation of a cluster has completed or failed (R222). -/
def fabricDone (v : Cluster) : Bool := v.fab.ops.isEmpty && v.fab.colls.all (fun k => k.done && k.outq.isEmpty && k.localq.isEmpty)

/-- FENCEF and END: retirement holds for outstanding operations, then a recorded failure traps (R221, R222). -/
def fenceEffect (op : Nat) (i : Issue) (s : State) (after : State → Effect) : Effect :=
  let v := s.cl i.c
  if fabricDone v then
    (if v.fab.fault.cause = 0 then after (s.modCl i.c (fun v => { v with fab := { v.fab with colls := [] } }))
     else .trap s v.fab.fault.cause.toNat 0 0)
  else .hold s (s.holdFor op i) true

/-- The cluster reports its part of the step complete and enters Idle (R170). -/
def State.endPart (s : State) (c : Nat) : State :=
  let t := s.modCl c (fun v => { v with st := .idle, regs := { v.regs with loops := [] } })
  match s.partOf c with
  | some p => t.modPart p (fun v => { v with running := v.running.map (fun st =>
      if st.clusters.contains c && !st.ended.contains c then { st with ended := st.ended ++ [c] } else st) })
  | none => t

def bodyEnd (i : Issue) (s : State) : Effect := fenceEffect 0x01 i s (fun s => .stop (s.endPart i.c))
def execEndStep (i : Issue) (s : State) : Result := s.retire 0x01 i (formR.legal i) (bodyEnd i)

/-- PC + 8 × imm32 (R171), modulo 2^32. -/
def branchTarget (s : State) (i : Issue) : Nat :=
  (((s.regsOf i.c).pc.toNat : Int) + 8 * sImm32 i).emod (2 ^ 32) |>.toNat

def execBr (i : Issue) (s : State) : Result := s.retire 0x02 i (formBr.legal i) (fun s => .jump s (branchTarget s i))

/-- The link: the next sequential program counter, zero-extended (R171). -/
def linkOf (s : State) (i : Issue) : Word := BitVec.ofNat 64 (nextPc s i)

def formJal : Form := { layoutL := true, a := .scalar }
def execJal (i : Issue) (s : State) : Result :=
  s.retire 0x03 i (formJal.legal i) (fun s =>
    .jump (s.modRegs i.c (fun r => r.setSreg (fA i) (linkOf s i))) (branchTarget s i))

def formJalr : Form := { a := .scalar, b := .scalar, imm := true }
/-- JALR: target s[b] + 8 × imm16 modulo 2^64; misaligned or at or above 2^32 traps (R171, R172). -/
def bodyJalr (i : Issue) (s : State) : Effect :=
  let t := s.sr i.c (fB i) + 8 * sImm16 i
  if t.toNat % 8 ≠ 0 ∨ 2 ^ 32 ≤ t.toNat then .trap s 0x04 0 0
  else .jump (s.modRegs i.c (fun r => r.setSreg (fA i) (linkOf s i))) t.toNat
def execJalr (i : Issue) (s : State) : Result := s.retire 0x04 i (formJalr.legal i) (bodyJalr i)

def formLoop : Form := { layoutL := true, b := .scalar }
def loopEnd (s : State) (i : Issue) : Nat := (s.regsOf i.c).pc.toNat + 8 + 8 * (sImm32 i).toNat
/-- LOOP (R174): the body is skipped, or an entry is pushed on a stack of four. -/
def bodyLoop (i : Issue) (s : State) : Effect :=
  let count := s.sr i.c (fB i)
  if count = 0 ∨ sImm32 i = 0 then .skip s (loopEnd s i)
  else if 4 ≤ (s.regsOf i.c).loops.length then .trap s 0x09 0 0
  else
    let e : LoopEntry := { start := (s.regsOf i.c).pc.toNat + 8, fin := loopEnd s i, remaining := count }
    .ok (s.modRegs i.c (fun r => { r with loops := e :: r.loops }))
/-- A guarded-off LOOP goes to the end of its body (R165); a negative length is illegal (R194). -/
def execLoop (i : Issue) (s : State) : Result :=
  .next (s.retireWith 0x05 i (formLoop.legal i && decide (0 ≤ sImm32 i)) (fun s => .skip s (loopEnd s i)) (bodyLoop i))

def formTrap : Form := { imm := true }
def execTrap (i : Issue) (s : State) : Result :=
  s.retire 0x06 i (formTrap.legal i) (fun s => .trap s 0x0A (fImm16 i).toNat 0)

/-! ## Scalar arithmetic (R176, R177) -/

/-- The second operand: s[c], or the sign-extended imm16 when f[0] is 1. -/
def opY (s : State) (i : Issue) : Word := if fF i % 2 = 1 then sImm16 i else s.sr i.c (fC i)

/-- The form in which f[0] chooses between s[c] and imm16; the one not chosen is reserved. -/
def formAlu (i : Issue) (a : Use) (fmask : Nat) : Form :=
  if fF i % 2 = 1 then { a := a, b := .scalar, fmask := fmask, imm := true }
  else { a := a, b := .scalar, c := .scalar, fmask := fmask }

/-- s[a] ← op of s[b] and y. -/
def aluBody (f : Word → Word → Word) (i : Issue) (s : State) : Effect :=
  .ok (s.modRegs i.c (fun r => r.setSreg (fA i) (f (s.sr i.c (fB i)) (opY s i))))
def aluExec (op : Nat) (f : Word → Word → Word) (i : Issue) (s : State) : Result :=
  s.retire op i ((formAlu i .scalar 1).legal i) (aluBody f i)

/-- The high halves of the products. -/
def mulHigh (x y : Word) : Word := BitVec.ofInt 64 ((x.toInt * y.toInt) / 2 ^ 64)
def mulHighU (x y : Word) : Word := BitVec.ofNat 64 (x.toNat * y.toNat / 2 ^ 64)

/-- Signed quotient and remainder, rounded toward zero; a zero divisor gives all ones and b (R177). -/
def divS (x y : Word) : Word := if y = 0 then BitVec.allOnes 64 else BitVec.ofInt 64 (x.toInt.tdiv y.toInt)
def remS (x y : Word) : Word := if y = 0 then x else BitVec.ofInt 64 (x.toInt.tmod y.toInt)
def divU (x y : Word) : Word := if y = 0 then BitVec.allOnes 64 else x / y
def remU (x y : Word) : Word := if y = 0 then x else x % y

/-- A shift amount: y[5:0]. -/
def shiftOf (y : Word) : Nat := y.toNat % 64

def execAdd (i : Issue) (s : State) : Result := aluExec 0x10 (fun x y => x + y) i s
def execSub (i : Issue) (s : State) : Result := aluExec 0x11 (fun x y => x - y) i s
def execAnd (i : Issue) (s : State) : Result := aluExec 0x12 (fun x y => x &&& y) i s
def execOr (i : Issue) (s : State) : Result := aluExec 0x13 (fun x y => x ||| y) i s
def execXor (i : Issue) (s : State) : Result := aluExec 0x14 (fun x y => x ^^^ y) i s
def execSll (i : Issue) (s : State) : Result := aluExec 0x15 (fun x y => x <<< shiftOf y) i s
def execSrl (i : Issue) (s : State) : Result := aluExec 0x16 (fun x y => x >>> shiftOf y) i s
def execSra (i : Issue) (s : State) : Result := aluExec 0x17 (fun x y => x.sshiftRight (shiftOf y)) i s
def execMul (i : Issue) (s : State) : Result := aluExec 0x18 (fun x y => x * y) i s
def execMulh (i : Issue) (s : State) : Result := aluExec 0x19 mulHigh i s
def execMulhu (i : Issue) (s : State) : Result := aluExec 0x1A mulHighU i s
def execDiv (i : Issue) (s : State) : Result := aluExec 0x1B divS i s
def execDivu (i : Issue) (s : State) : Result := aluExec 0x1C divU i s
def execRem (i : Issue) (s : State) : Result := aluExec 0x1D remS i s
def execRemu (i : Issue) (s : State) : Result := aluExec 0x1E remU i s
def execMin (i : Issue) (s : State) : Result := aluExec 0x1F (fun x y => if y.slt x then y else x) i s
def execMax (i : Issue) (s : State) : Result := aluExec 0x20 (fun x y => if x.slt y then y else x) i s
def execMinu (i : Issue) (s : State) : Result := aluExec 0x21 (fun x y => if y.ult x then y else x) i s
def execMaxu (i : Issue) (s : State) : Result := aluExec 0x22 (fun x y => if x.ult y then y else x) i s

/-! ## Immediates, predicates, counters (R178 to R181) -/

def formLi : Form := { layoutL := true, a := .scalar }
def execLi (i : Issue) (s : State) : Result :=
  s.retire 0x23 i (formLi.legal i) (fun s => .ok (s.modRegs i.c (fun r => r.setSreg (fA i) ((fImm32 i).signExtend 64))))

def formLix : Form := { a := .scalar, ext := 1 }
def execLix (i : Issue) (s : State) : Result :=
  s.retire 0x24 i (formLix.legal i) (fun s => .ok (s.modRegs i.c (fun r => r.setSreg (fA i) i.x0)))

def cmpCond (i : Issue) : Nat := fF i / 2 % 8
def execCmp (i : Issue) (s : State) : Result :=
  s.retire 0x25 i ((formAlu i .small 15).legal i && decide (cmpCond i < 6)) (fun s =>
    .ok (s.modRegs i.c (fun r => r.setPred (fA i) (condHolds (cmpCond i) (s.sr i.c (fB i)) (opY s i)))))

def formPlog : Form := { a := .small, b := .small, c := .small, fmask := 6 }
def execPlog (i : Issue) (s : State) : Result :=
  s.retire 0x26 i (formPlog.legal i) (fun s => .ok (s.modRegs i.c (fun r =>
    r.setPred (fA i) (plogOp (fF i / 2 % 4) (r.pred (fB i)) (r.pred (fC i))))))

/-- The tag-wait timeout of a context, in ticks (R82). -/
def State.tagTicks (s : State) (x : Nat) : Nat := (s.ctx x).params.tagWaitUs * ticksPerUs

/-- The tag-wait timeout of the context resident on a cluster's partition, in ticks. -/
def State.tagTicksAt (s : State) (c : Nat) : Nat :=
  match s.ctxOf c with
  | some x => s.tagTicks x
  | none => 10000

/-- The tick counter of R65: panel time in the region's tick accumulator. -/
def State.tickCounter (s : State) (c : Nat) : Word := BitVec.ofNat 64 (s.domain (regionOf c)).ticks

/-- The value RDCNT selects (R180). -/
def counterOf (s : State) (c f : Nat) : Word :=
  match f with
  | 0 => (s.region (regionOf c)).cycle
  | 1 => s.tickCounter c
  | 2 => (s.cl c).cnt.retired
  | 3 => (s.cl c).cnt.waitTicks
  | _ => BitVec.ofNat 64 (s.tagTicksAt c)

def formRdcnt : Form := { a := .scalar, fmask := 63 }
def execRdcnt (i : Issue) (s : State) : Result :=
  s.retire 0x27 i (formRdcnt.legal i && decide (fF i < 5)) (fun s =>
    .ok (s.modRegs i.c (fun r => r.setSreg (fA i) (counterOf s i.c (fF i)))))

/-- The index of MOVSV and MOVVS (R181). -/
def wordIndex (s : State) (i : Issue) : Word := opY s i

def formMovsv (i : Issue) : Form :=
  if fF i % 2 = 1 then { a := .scalar, b := .small, fmask := 1, imm := true }
  else { a := .scalar, b := .small, c := .scalar, fmask := 1 }
def bodyMovsv (i : Issue) (s : State) : Effect :=
  let k := (wordIndex s i).toNat
  if 64 ≤ k then .trap s 0x04 0 0
  else .ok (s.modRegs i.c (fun r => r.setSreg (fA i) ((r.row (fB i)).extractLsb' (64 * k) 64)))
def execMovsv (i : Issue) (s : State) : Result := s.retire 0x28 i ((formMovsv i).legal i) (bodyMovsv i)

def formMovvs (i : Issue) : Form :=
  if fF i % 2 = 1 then { a := .small, b := .scalar, fmask := 1, imm := true }
  else { a := .small, b := .scalar, c := .scalar, fmask := 1 }
/-- All-ones bits of `n` bytes from byte `k` on. -/
def byteBits (k n : Nat) : Row := BitVec.ofNat 4096 ((2 ^ (8 * n) - 1) * 2 ^ (8 * k))
def bodyMovvs (i : Issue) (s : State) : Effect :=
  let k := (wordIndex s i).toNat
  if 64 ≤ k then .trap s 0x04 0 0
  else .ok (s.modRegs i.c (fun r => r.mergeBits (fA i) (byteBits (8 * k) 8)
    ((r.sreg (fB i)).setWidth 4096 <<< (64 * k))))
def execMovvs (i : Issue) (s : State) : Result := s.retire 0x29 i ((formMovvs i).legal i) (bodyMovvs i)

/-! ## Row registers and masks (R183) -/

def formVmov : Form := { a := .small, b := .small }
def execVmov (i : Issue) (s : State) : Result :=
  s.retire 0x30 i (formVmov.legal i) (fun s => .ok (s.modRegs i.c (fun r => r.mergeRow (fA i) (r.row (fB i)))))

/-- A 64-bit word in each of the 64 words of a row. -/
def splat (w : Word) : Row := BitVec.ofNat 4096 (w.toNat * ((2 ^ 4096 - 1) / (2 ^ 64 - 1)))

def formVbcast : Form := { a := .small, b := .scalar }
def execVbcast (i : Issue) (s : State) : Result :=
  s.retire 0x31 i (formVbcast.legal i) (fun s => .ok (s.modRegs i.c (fun r => r.mergeRow (fA i) (splat (r.sreg (fB i))))))

def formMsk (i : Issue) : Form :=
  match fF i % 4 with
  | 2 => { a := .small, b := .scalar, c := .scalar, fmask := 3 }
  | 3 => { a := .small, c := .small, fmask := 3 }
  | _ => { a := .small, fmask := 3 }
def bodyMsk (i : Issue) (s : State) : Effect :=
  match fF i % 4 with
  | 0 => .ok (s.modRegs i.c (fun r => r.setMask (fA i) (BitVec.allOnes 512)))
  | 1 => .ok (s.modRegs i.c (fun r => r.setMask (fA i) 0))
  | 2 => if 512 < (s.sr i.c (fC i)).toNat then .trap s 0x04 0 0
         else .ok (s.modRegs i.c (fun r => r.setMask (fA i) (maskRange (r.sreg (fB i)).toNat (r.sreg (fC i)).toNat)))
  | _ => .ok (s.modRegs i.c (fun r => r.setMask (fA i) (maskNonZero (r.row (fC i)))))
def execMsk (i : Issue) (s : State) : Result := s.retire 0x32 i ((formMsk i).legal i) (bodyMsk i)

end Sys2Proof.Machine
end

