-- ==== Sys2Proof/Machine/Rows.lean ====
section
/-! DEFINITION. Tarn row instructions, tag waits, tick-scheduled waits and code fetch (06, 02). -/

namespace Sys2Proof.Machine

open Sys2Proof

/-- The handle row index s[b] + imm16 modulo 2^64 (R184). -/
def rowIndex (s : State) (i : Issue) : Nat := (s.sr i.c (fB i) + sImm16 i).toNat

/-- How a read and a write go through a handle's tag policy (Table 6.9). -/
def readBy (e : HandleEntry) (peek : Bool) : Access := if hTagged e then (if peek then .peek else .taggedRead) else .untaggedRead
def writeBy (e : HandleEntry) : Access := if hTagged e then .taggedWrite else .untaggedWrite

/-- One access of a cluster instruction to a row of a handle, checked by R92: what to do when it goes through is `k`. -/
def rowEffect (op : Nat) (i : Issue) (s : State) (h idx : Nat) (right : Right) (a : HandleEntry → Access) (w : Row)
    (k : Row → State → Effect) : Effect :=
  let e := s.handle i.c h
  if handleOk e (s.ctxOf i.c) right idx then
    let n := handleRow e idx
    match s.entryAccess i.c e n (a e) w i.u with
    | .done d t => k d t
    | .wait => .hold s (s.holdFor op i) true
    | .bad t => .integ t e n 0
  else .trap s 0x05 0 0

/-- A run-ahead entry that holds this row, peeked and not stale (R55). -/
def State.aheadEntry (s : State) (c h n : Nat) : Option RaEntry :=
  (s.cl c).ahead.loads.find? (fun e => e.handle == h && e.row == n && !e.parked)

/-- The run-ahead entry of a row is used up at retirement; a stale one is counted, and with it run-ahead is squashed
(R55, R60). -/
def useAhead (h n : Nat) (v : Cluster) : Cluster :=
  match v.ahead.loads.find? (fun e => e.handle == h && e.row == n && !e.parked) with
  | none => { v with ahead := { v.ahead with loads := v.ahead.loads.filter (fun e => !(e.handle == h && e.row == n)) } }
  | some e =>
    if e.stale then { v with ahead := { v.ahead with loads := [], prefetch := [] },
                             cnt := { v.cnt with raStale := satInc v.cnt.raStale, sqStale := satInc v.cnt.sqStale } }
    else { v with ahead := { v.ahead with loads := v.ahead.loads.filter (fun e => !(e.handle == h && e.row == n)) } }

def formRow : Form := { a := .small, b := .scalar, h := true, imm := true }

/-- LD and PK: a read through the handle into v[a] under its mask (R184, R185). -/
def bodyLoad (op : Nat) (peek : Bool) (i : Issue) (s : State) : Effect :=
  rowEffect op i s (fH i) (rowIndex s i) .engineRead (fun e => readBy e peek) 0 (fun d t =>
    .ok ((t.modCl i.c (useAhead (fH i) (handleRow (s.handle i.c (fH i)) (rowIndex s i)))).modRegs i.c
      (fun r => r.mergeRow (fA i) d)))
def bodyLd (i : Issue) (s : State) : Effect := bodyLoad 0x40 false i s
def bodyPk (i : Issue) (s : State) : Effect := bodyLoad 0x41 true i s
def execLd (i : Issue) (s : State) : Result := s.retire 0x40 i (formRow.legal i) (bodyLd i)
def execPk (i : Issue) (s : State) : Result := s.retire 0x41 i (formRow.legal i) (bodyPk i)

/-- ST: all 512 B of v[a] (R185). -/
def bodySt (i : Issue) (s : State) : Effect :=
  rowEffect 0x42 i s (fH i) (rowIndex s i) .engineWrite writeBy ((s.regsOf i.c).row (fA i)) (fun _ t => .ok t)
def execSt (i : Issue) (s : State) : Result := s.retire 0x42 i (formRow.legal i) (bodySt i)

/-! ## MOVR and FILL (R169, R186, R187) -/

/-- The rows an instruction that moves several rows names: s[d]. -/
def rowCount (s : State) (i : Issue) : Nat := (s.sr i.c (fD i)).toNat

def formMovr : Form := { b := .scalar, c := .scalar, d := .scalar, h := true, fmask := 63 }
def formFill : Form := { b := .scalar, c := .small, d := .scalar, h := true }

/-- MOVR checks both ranges and holds retirement for its row operations; a count of 0 has no effect (R186). -/
def bodyMovr (i : Issue) (s : State) : Effect :=
  let n := rowCount s i
  let src := s.handle i.c (fF i)
  let dst := s.handle i.c (fH i)
  if n = 0 then .ok s
  else if (s.cl i.c).hold.isSome then .hold s (((s.cl i.c).hold).getD (s.holdFor 0x43 i)) (decide ((s.cl i.c).st = .waiting))
  else if handleRangeOk src (s.ctxOf i.c) .engineRead (s.sr i.c (fC i)).toNat n &&
      handleRangeOk dst (s.ctxOf i.c) .engineWrite (s.sr i.c (fB i)).toNat n then
    .hold s { opcode := 0x43, iss := calm i } false
  else .trap s 0x05 0 0
def execMovr (i : Issue) (s : State) : Result := s.retire 0x43 i (formMovr.legal i) (bodyMovr i)

def bodyFill (i : Issue) (s : State) : Effect :=
  let n := rowCount s i
  if n = 0 then .ok s
  else if (s.cl i.c).hold.isSome then .hold s (((s.cl i.c).hold).getD (s.holdFor 0x44 i)) (decide ((s.cl i.c).st = .waiting))
  else if handleRangeOk (s.handle i.c (fH i)) (s.ctxOf i.c) .engineWrite (s.sr i.c (fB i)).toNat n then
    .hold s { opcode := 0x44, iss := calm i } false
  else .trap s 0x05 0 0
def execFill (i : Issue) (s : State) : Result := s.retire 0x44 i (formFill.legal i) (bodyFill i)

/-- A row operation of a held instruction took effect: the next is due, and after the last the instruction retires. -/
def State.rowOpDone (s : State) (h : Hold) (n : Nat) : State :=
  if h.j + 1 = n then s.finish h.iss (.ok s)
  else s.modCl h.iss.c (fun v => { v with st := .running, hold := some { h with j := h.j + 1, since := none } })

/-- A row operation whose tag does not permit it yet: its wait begins, or goes on (R187). -/
def State.rowOpWait (s : State) (h : Hold) : State :=
  s.modCl h.iss.c (fun v => { v with st := .waiting, hold := some { h with since := some (h.since.getD s.now) } })

/-- Whether a cluster holds on this opcode and may act. -/
def State.heldOn (s : State) (c op : Nat) : Option Hold :=
  match (s.cl c).st, (s.cl c).hold with
  | .running, some h | .waiting, some h =>
    if h.opcode = BitVec.ofNat 8 op ∧ (s.region (regionOf c)).pstate = .run then some h else none
  | _, _ => none

/-- One row pair of MOVR: it starts only when the read and then the write are permitted, and moves the row (R186). -/
def State.movrOp (s : State) (h : Hold) (u : Upset) : State :=
  let i := h.iss
  let c := i.c
  let src := s.handle c (fF i)
  let dst := s.handle c (fH i)
  let a := handleRow src ((s.sr c (fC i)).toNat + h.j)
  let b := handleRow dst ((s.sr c (fB i)).toNat + h.j)
  match s.entryAccess c src a (readBy src false) 0 u with
  | .wait => s.rowOpWait h
  | .bad t => t.integrityTrap c src a h.j
  | .done d t =>
    match t.entryAccess c dst b (writeBy dst) d .none with
    | .wait => s.rowOpWait h
    | .bad _ => s.integrityTrap c dst b h.j
    | .done _ t => t.rowOpDone h (rowCount s i)

def execMovrRowOperation (c : Nat) (u : Upset) (s : State) : Result :=
  match s.heldOn c 0x43 with
  | some h => .next (s.movrOp h u)
  | none => .next s

/-- One row write of FILL. -/
def State.fillOp (s : State) (h : Hold) : State :=
  let i := h.iss
  let dst := s.handle i.c (fH i)
  let b := handleRow dst ((s.sr i.c (fB i)).toNat + h.j)
  match s.entryAccess i.c dst b (writeBy dst) ((s.regsOf i.c).row (fC i)) .none with
  | .wait => s.rowOpWait h
  | .bad t => t.integrityTrap i.c dst b h.j
  | .done _ t => t.rowOpDone h (rowCount s i)

def execFillRowOperation (c : Nat) (s : State) : Result :=
  match s.heldOn c 0x44 with
  | some h => .next (s.fillOp h)
  | none => .next s

/-! ## Tags (R188, R189) -/

def formTagrd : Form := { a := .scalar, b := .scalar, h := true, imm := true }
def bodyTagrd (i : Issue) (s : State) : Effect :=
  let e := s.handle i.c (fH i)
  if handleOk e (s.ctxOf i.c) .engineRead (rowIndex s i) then
    .ok (s.modRegs i.c (fun r => r.setSreg (fA i)
      (BitVec.ofNat 64 (s.entryTag i.c e (handleRow e (rowIndex s i))).code)))
  else .trap s 0x05 0 0
def execTagrd (i : Issue) (s : State) : Result := s.retire 0x45 i (formTagrd.legal i) (bodyTagrd i)

def formWaitt : Form := { b := .scalar, h := true, fmask := 1, imm := true }
/-- WAITT: FULL when f[0] is 0, EMPTY when it is 1; it fails on a POISONED row (R189). -/
def bodyWaitt (i : Issue) (s : State) : Effect :=
  let e := s.handle i.c (fH i)
  if handleOk e (s.ctxOf i.c) .engineRead (rowIndex s i) then
    let n := handleRow e (rowIndex s i)
    match s.entryTag i.c e n with
    | .poisoned => .integ s e n 0
    | t => if t = (if fF i % 2 = 0 then .full else .empty) then .ok s else .hold s (s.holdFor 0x46 i) true
  else .trap s 0x05 0 0
def execWaitt (i : Issue) (s : State) : Result := s.retire 0x46 i (formWaitt.legal i) (bodyWaitt i)

/-- A poll of the tag bitmap by a WAITT that holds on a spilled handle (R189). -/
def execWaittPoll (c : Nat) (s : State) : Result :=
  match s.heldOn c 0x46 with
  | some h => if hBacking (s.handle c (fH h.iss)) = 0 then .next s else .next (s.finish h.iss (bodyWaitt h.iss s))
  | none => .next s

/-! ## TWAIT (R190 to R193) -/

def formTwait : Form := { b := .scalar, fmask := 63, imm := true }
def twaitTarget (s : State) (i : Issue) : Nat := (s.sr i.c (fB i) + sImm16 i).toNat

/-- A late event: counted, reported to the region steward, which keeps the largest lateness of the step (R192, R299). -/
def State.lateEvent (s : State) (c late : Nat) : State :=
  (s.modCl c (fun v => { v with ev := { v.ev with late := satInc v.ev.late, lateMax := max v.ev.lateMax late } })).modRegion
    (regionOf c) (fun v => { v with syncLate := satInc v.syncLate, stepLate := v.stepLate + 1,
                                    stepLateMax := max v.stepLateMax late })

/-- TWAIT at tick t: it holds before T, is on time up to T + g, and late after it; a wait longer than the tag-wait
timeout is a schedule error (R190, R191). -/
def bodyTwait (i : Issue) (s : State) : Effect :=
  let T := twaitTarget s i
  let t := (s.tickCounter i.c).toNat
  if t < T then
    (if s.tagTicksAt i.c < T - t then .trap s 0x08 0 0 else .hold s { s.holdFor 0x50 i with target := T } false)
  else if t ≤ T + fF i then .ok s
  else .ok (s.lateEvent i.c (t - T))
def execTwait (i : Issue) (s : State) : Result := s.retire 0x50 i (formTwait.legal i) (bodyTwait i)

/-- A holding TWAIT retires once the tick counter reads its target or more (R190). -/
def execTwaitRelease (c : Nat) (s : State) : Result :=
  match s.heldOn c 0x50 with
  | some h => if h.target ≤ (s.tickCounter c).toNat then .next (s.finish h.iss (.ok s)) else .next s
  | none => .next s

/-! ## Code fetch (R42, R43, R103, R586) -/

/-- A line of code whose fetch is due is marked or kept. -/
def State.setLine (s : State) (c line : Nat) (d : Option Row) (m : Mark) : State :=
  s.modCl c (fun v => { v with code := { v.code with
    lines := Tbl.set (fun _ => none) v.code.lines line d, marks := Tbl.set (fun _ => .clean) v.code.marks line m,
    waits := Tbl.set (fun _ => none) v.code.waits line none } })

/-- A code line arrives: from tarn by a peek that changes no tag, from HBM as a block; faults are marked (R42, R43). -/
def State.fetchLine (s : State) (c line : Nat) (u : Upset) : State :=
  let v := s.cl c
  match v.code.src with
  | .none => s.setLine c line none .address
  | .tarn h =>
    let e := s.handle c h
    if handleOk e (s.ctxOf c) .engineRead line then
      (match s.quietPeek c (handleRow e line) u with
       | .done d t => t.setLine c line (some d) .clean
       | .wait => s.modCl c (fun v => { v with code := { v.code with
           waits := Tbl.set (fun _ => none) v.code.waits line (some (((Tbl.get (fun _ => none) v.code.waits line)).getD s.now)) } })
       | .bad t => t.setLine c line none .integrityTarn)
    else s.setLine c line none .address
  | .hbm base =>
    let a := base + line * 512
    match s.partOf c with
    | some p =>
      if s.reachable p a 512 then
        (if s.readsPoison a 512 then s.setLine c line none .integrityHbm
         else s.setLine c line (some (BitVec.ofNat 4096 (s.readNat a 512))) .clean)
      else s.setLine c line none .address
    | none => s.setLine c line none .address

def execInstructionFetch (c : Nat) (line : Nat) (u : Upset) (s : State) : Result :=
  match (s.cl c).st with
  | .running | .waiting => .next (s.fetchLine c line u)
  | _ => .next s

/-- A marked integrity fault reaches retirement: its line is read once more, and traps or is fetched afresh
(R103, R586). -/
def execFetchFaultReread (c : Nat) (u : Upset) (s : State) : Result :=
  let v := s.cl c
  let line := v.regs.pc.toNat / 512
  match v.st, Tbl.get (fun _ => Mark.clean) v.code.marks line with
  | .running, .integrityTarn | .running, .integrityHbm =>
    let r := s.rereadLine c line u
    if r.1 then .next r.2 else .next (r.2.fetchIntegrityTrap c line)
  | _, _ => .next s

end Sys2Proof.Machine
end

