-- ==== Sys2Proof/Machine/Fabric.lean ====
section
/-! DEFINITION. Point-to-point fabric instructions, memory access by address, the outstanding-operation table and
flows (07), and the packets that serve them at the owner (02, 08). -/

namespace Sys2Proof.Machine

open Sys2Proof

/-! ## Flows and the outstanding-operation table (R250 to R257) -/

/-- Numbers an agent among all agents. -/
def nodeCode : Node → Nat
  | .cluster c => c
  | .hbm k => 8192 + k
  | .chiplet r => 8448 + r
  | .hostDie p => 8704 + p
  | .cxlDie k => 8960 + k

/-- The key of a flow: a destination with a handle, a destination with a span, or a target agent, in place of
whose handle 2048 stands (R226, R253). -/
def flowKey (d : Node) (h : Nat) : Nat := nodeCode d * 8192 + h
def collFlowKey (c span : Nat) : Nat := c * 8192 + 4096 + span

/-- The route entry of region r towards region d (R246). -/
def State.route (s : State) (r d : Nat) : BitVec 32 := Tbl.get (fun _ => 0) s.routes (r * 16 + d)
def routeEpoch (e : BitVec 32) : Nat := bitsOf e 15 8

/-- The fabric window of the context on cluster c (R256). -/
def State.fabWindow (s : State) (c : Nat) : Nat := match s.ctxOf c with
  | some x => (s.ctx x).params.window
  | none => 16

/-- The fabric operation timeout in ticks (R256). -/
def State.fabTicks (s : State) (c : Nat) : Nat := match s.ctxOf c with
  | some x => (s.ctx x).params.fabTimeoutUs * ticksPerUs
  | none => 2000

/-- The context whose traffic cluster c sends. -/
def State.sendCtx (s : State) (c : Nat) : Nat := (s.ctxOf c).getD 0

/-- The flow entry of a key, if one is allocated. -/
def flowOf (v : Cluster) (key : Nat) : Option Flow := v.fab.flows.find? (fun f => f.key == key)

/-- The route epoch a packet to region d would carry (R250). -/
def State.epochTo (s : State) (c d : Nat) : Nat := routeEpoch (s.route (regionOf c) d)

/-- Whether a request of cluster c on a flow may be sent now: the window is open, a flow entry is free, the route of
the flow has not changed under outstanding packets, and the table has room (R217, R250, R254, R255). -/
def State.maySend (s : State) (c key d : Nat) : Bool :=
  let v := s.cl c
  decide (v.fab.ops.length < 128) &&
  match flowOf v key with
  | some f => decide (f.outstanding < s.fabWindow c) && !f.heldOnRoute && (f.epoch == s.epochTo c d || f.outstanding == 0)
  | none => decide (v.fab.flows.length < 64)

/-- A flow whose route changed under outstanding packets holds its next packet (R250). -/
def State.holdFlow (s : State) (c key d : Nat) : State :=
  s.modCl c (fun v => { v with fab := { v.fab with flows := v.fab.flows.map (fun f =>
    if f.key = key ∧ f.epoch ≠ s.epochTo c d ∧ 0 < f.outstanding then { f with heldOnRoute := true } else f) } })

/-- One place of a flow taken (R254). -/
def takePlace (key d epoch : Nat) (fs : List Flow) : List Flow :=
  if fs.any (fun f => f.key == key) then
    fs.map (fun f => if f.key = key then { f with outstanding := f.outstanding + 1, epoch := epoch } else f)
  else fs ++ [{ key := key, region := d, epoch := epoch, outstanding := 1 }]

/-- One place of a flow returned; an entry with none outstanding is freed, unless it waits to resume (R253, R254). -/
def returnPlace (key : Nat) (fs : List Flow) : List Flow :=
  (fs.map (fun f => if f.key = key then { f with outstanding := f.outstanding - 1 } else f)).filter
    (fun f => decide (0 < f.outstanding) || f.heldOnRoute)

/-- The first free entry of the outstanding-operation table. -/
def freeTag (ops : List Op) : Nat := ((List.range 128).find? (fun t => !ops.any (fun o => o.tag == t))).getD 127

/-- Whether region d is a destination of region r's partition that no route reaches (R247, R251). -/
def State.noRoute (s : State) (r d : Nat) : Bool :=
  decide (r ≠ d) && decide ((s.region r).part = (s.region d).part) && bitsOf (s.route r d) 1 0 == 0

/-- The attached region and number of a perimeter die: host-port dies 0 to 7, CXL dies 8 to 11. -/
def dieOf : Node → Option Nat
  | .hostDie p => some p
  | .cxlDie k => some (8 + k)
  | _ => none

/-- The perimeter entry of a region for a perimeter die (R248). -/
def State.perimRoute (s : State) (r die : Nat) : BitVec 32 := Tbl.get (fun _ => 0) s.perimRoutes (r * 16 + die)

/-- Whether a perimeter die lies outside region r's partition and no perimeter route reaches it (R248). -/
def State.noPerimeter (s : State) (r : Nat) (n : Node) : Bool :=
  match dieOf n with
  | some die => decide ((s.region (nodeRegion n)).part ≠ (s.region r).part) && !bitOf (s.perimRoute r die) 0
  | none => false

/-- A request of cluster c sent: it takes an entry with a new generation and a place of its flow, and its packet
leaves; with no route it is discarded at the source, its operation is left to time out, and the higher-numbered region is
retired at the next step boundary (R251, R254, R257). -/
def State.sendOp (s : State) (c key : Nat) (kind : OpKind) (k : Packet) : State :=
  let v := s.cl c
  let d := nodeRegion k.dst
  let t := freeTag v.fab.ops
  let g := Tbl.get (fun _ => 0) v.fab.gens t + 1
  let k := { k with src := .cluster c, opTag := t, opGen := g, context := s.sendCtx c, partition := (s.partOf c).getD 0 }
  let o : Op := { tag := t, gen := g, kind := kind, pc := v.regs.pc, dst := nodeCode k.dst, flow := key, progress := s.now, pkt := k }
  let s' := s.setCl c { v with fab := { v.fab with ops := v.fab.ops ++ [o], gens := Tbl.set (fun _ => 0) v.fab.gens t g,
                                                   flows := takePlace key d (s.epochTo c d) v.fab.flows } }
  if s.noPerimeter (regionOf c) k.dst then s'.countDiscard (regionOf c) 6
  else if s.noRoute (regionOf c) d then
    ((s'.countDiscard (regionOf c) 6).modRegion (max (regionOf c) d) (fun v => { v with retire := true })).note 0x0404
      { region := regionOf c, part := (s.partOf c).getD 31, ctx := s.ctxOf c, detail := [regionOf c, d] }
  else s'.inject k

/-- The tag the next operation of cluster c takes. -/
def State.nextTag (s : State) (c : Nat) : Nat := freeTag (s.cl c).fab.ops

/-- The entry of a response: its tag and generation must both match (R257). -/
def opOf (v : Cluster) (k : Packet) : Option Op := v.fab.ops.find? (fun o => o.tag == k.opTag && o.gen == k.opGen)

/-- An operation ends: its entry is freed and its place returned. -/
def endOp (o : Op) (v : Cluster) : Cluster :=
  { v with fab := { v.fab with ops := v.fab.ops.filter (fun q => q.tag != o.tag),
                               flows := if o.busyUntil.isSome then v.fab.flows else returnPlace o.flow v.fab.flows } }

/-- A failure after retirement: the first is kept in CLU_FAB_FAULT, later ones are counted (R221). -/
def recordFault (cause : Nat) (o : Op) (v : Cluster) : Cluster :=
  let f := v.fab.fault
  let f' : FabFault := if f.cause = 0 then { cause := BitVec.ofNat 8 cause, more := 0, dst := BitVec.ofNat 13 o.dst, pc := o.pc }
    else { f with more := satInc f.more }
  { v with fab := { v.fab with fault := f' } }

/-- A request packet of cluster c for an agent; its entry, generation and context are filled in when it is sent. -/
def reqPacket (c : Nat) (ty : PType) (d : Node) (h : Nat) (idx : Nat) (access units : Nat) (data : Row) : Packet :=
  { id := 0, ptype := ty, src := .cluster c, dst := d, handle := h, index := BitVec.ofNat 64 idx, access := access,
    units := units, data := data }

/-! ## SEND, RECV, MCAST (R215 to R224) -/

/-- A destination that traps at retirement: no cluster, or one outside the partition (R216). -/
def State.badDest (s : State) (c d : Nat) : Bool := decide (4608 ≤ d) || decide (s.partOf d ≠ s.partOf c)

def formSend : Form := { a := .small, b := .scalar, c := .scalar, h := true, imm := true }
/-- SEND: it holds while its window is closed, and retires when its WRITE leaves (R215 to R217). -/
def bodySend (i : Issue) (s : State) : Effect :=
  let d := (s.sr i.c (fC i)).toNat
  if s.badDest i.c d then .trap s 0x22 0 0
  else
    let key := flowKey (.cluster d) (fH i)
    if s.maySend i.c key (regionOf d) then
      .ok (s.sendOp i.c key .send (reqPacket i.c .write (.cluster d) (fH i) (rowIndex s i) 4 8 ((s.regsOf i.c).row (fA i))))
    else .hold (s.holdFlow i.c key (regionOf d)) (s.holdFor 0xC0 i) true
def execSend (i : Issue) (s : State) : Result := s.retire 0xC0 i (formSend.legal i) (bodySend i)

def formRecv : Form := { a := .small, b := .scalar, c := .scalar, h := true, fmask := 1, imm := true }

/-- The prefetch of a row, if run-ahead has made one (R57). -/
def State.prefetchOf (s : State) (c d h idx : Nat) : Option Prefetch :=
  (s.cl c).ahead.prefetch.find? (fun p => p.owner == d && p.handle == h && p.index == BitVec.ofNat 64 idx)

/-- A prefetch used up or thrown away; a stale one is counted, and run-ahead squashed with it (R57, R60). -/
def dropPrefetch (p : Prefetch) (stale : Bool) (v : Cluster) : Cluster :=
  let rest := v.ahead.prefetch.filter (fun q => !(q.owner == p.owner && q.handle == p.handle && q.index == p.index))
  if stale then { v with ahead := { v.ahead with prefetch := [], loads := [] },
                         cnt := { v.cnt with raStale := satInc v.cnt.raStale, sqStale := satInc v.cnt.sqStale } }
  else { v with ahead := { v.ahead with prefetch := rest } }

/-- RECV's ordinary READ: consuming, or a peek where f[0] is 1 (R215). -/
def recvRead (i : Issue) (d idx : Nat) (s : State) : Effect :=
  let key := flowKey (.cluster d) (fH i)
  if s.maySend i.c key (regionOf d) then
    let t := s.nextTag i.c
    .hold (s.sendOp i.c key .recv (reqPacket i.c .read (.cluster d) (fH i) idx (fF i % 2) 0 0))
      { s.holdFor 0xC1 i with tag := t, since := some s.now } true
  else .hold (s.holdFlow i.c key (regionOf d)) (s.holdFor 0xC1 i) true

/-- RECV: through a watched prefetch by a consume request, else by an ordinary remote read; it holds until its row
arrives (R57, R218). -/
def bodyRecv (i : Issue) (s : State) : Effect :=
  let d := (s.sr i.c (fC i)).toNat
  let idx := rowIndex s i
  if s.badDest i.c d then .trap s 0x22 0 0
  else match (s.cl i.c).hold with
    | some h =>
      if h.tag < 128 then .hold s h true
      else if h.tag = 130 then .ok (s.modRegs i.c (fun r => r.mergeRow (fA i) (h.data.getD 0)))
      else recvRead i d idx s
    | none =>
      match s.prefetchOf i.c d (fH i) idx with
      | some p =>
        (match p.data with
         | some row =>
           if p.watched && !p.stale then
             (if fF i % 2 = 1 then .ok ((s.modCl i.c (dropPrefetch p false)).modRegs i.c (fun r => r.mergeRow (fA i) row))
              else
                let key := flowKey (.cluster d) (fH i)
                if s.maySend i.c key (regionOf d) then
                  let t := s.nextTag i.c
                  .hold (s.sendOp i.c key .consume (reqPacket i.c .consume (.cluster d) (fH i) idx 3 0 0))
                    { s.holdFor 0xC1 i with tag := t, data := some row } true
                else .hold s (s.holdFor 0xC1 i) true)
           else recvRead i d idx (s.modCl i.c (dropPrefetch p true))
         | none => recvRead i d idx (s.modCl i.c (dropPrefetch p false)))
      | none => recvRead i d idx s
def execRecv (i : Issue) (s : State) : Result := s.retire 0xC1 i (formRecv.legal i) (bodyRecv i)

def formMcast : Form := { a := .small, b := .scalar, ext := 1, fmask := 1, imm := true }

/-- MCAST's packets to the members still left, each on its own flow: what could be sent, and who is left (R224). -/
def mcastSend (i : Issue) (row : Row) (idx : Nat) : List SpanMember → State → State × List Nat
  | [], s => (s, [])
  | m :: rest, s =>
    let key := flowKey (.cluster m.cluster) m.handle
    if s.maySend i.c key (regionOf m.cluster) then
      mcastSend i row idx rest (s.sendOp i.c key .mcast
        (reqPacket i.c .write (.cluster m.cluster) m.handle idx 4 8 row))
    else
      let r := mcastSend i row idx rest s
      (r.1, m.cluster :: r.2)

/-- MCAST (R224). -/
def bodyMcast (i : Issue) (s : State) : Effect :=
  let n := bitsOf i.x0 11 0
  match (s.ctxOf i.c).bind (fun x => s.span x n) with
  | none => .trap s 0x05 0 0
  | some sp =>
    let all := sp.members.filter (fun m => !(fF i % 2 == 1 && m.cluster == i.c))
    let todo := match (s.cl i.c).hold with
      | some h => all.filter (fun m => h.left.contains m.cluster)
      | none => all
    let r := mcastSend i ((s.regsOf i.c).row (fA i)) (rowIndex s i) todo s
    if r.2.isEmpty then .ok r.1 else .hold r.1 { s.holdFor 0xC2 i with left := r.2 } true
def execMcast (i : Issue) (s : State) : Result :=
  s.retire 0xC2 i (formMcast.legal i && bitsOf i.x0 63 12 == 0) (bodyMcast i)

/-! ## MLD and MST (R225, R226, R587) -/

/-- The agent that holds address a (R225). -/
def State.agentOf (s : State) (a : Nat) : Node :=
  match placeOf a with
  | .tarn c _ => .cluster c
  | .tier2 o => match s.windowAt o 1 with
      | some w => .cxlDie ((((s.win w).devs.getD ((o - (s.win w).base * 2 ^ 28) / 4096 % max 1 (s.win w).devs.length) 0) / 8) / 2)
      | none => .cxlDie 0
  | .host l _ => .hostDie (l / 2)
  | _ => .hbm (s.hbmPlace a).1

/-- Whether the issuing region refuses an access itself: its target lies in a region outside the partition, or its
tier-2 address in no window ONLINE or LOST for it (R587). -/
def State.sourceRefuses (s : State) (p : Option Nat) (a : Nat) : Bool :=
  match placeOf a with
  | .hbm o => decide ((s.region (o / s.sliceSize)).part ≠ p)
  | .tarn c _ => decide (s.partOf c ≠ p)
  | .tier2 o => match s.windowAt o 1 with
      | some w => !((decide ((s.win w).st = .online) || decide ((s.win w).st = .lost)) && decide (p = some (s.win w).part))
      | none => true
  | _ => false

/-- The address s[b] + imm16 modulo 2^64 and the units f[3:0] (R225). -/
def memAddr (s : State) (i : Issue) : Nat := (s.sr i.c (fB i) + sImm16 i).toNat
def memUnits (i : Issue) : Nat := fF i % 16
def unitsLegal (i : Issue) : Bool := decide (1 ≤ memUnits i) && decide (memUnits i ≤ 8)

/-- The traps of R226 at retirement: operand error, then address error. -/
def State.memTrap (s : State) (i : Issue) : Option Nat :=
  let a := memAddr s i
  let tarnBad := match placeOf a with
    | .tarn _ _ => decide (memUnits i ≠ 8) || decide (a % 512 ≠ 0)
    | _ => false
  if a % 64 ≠ 0 || tarnBad then some 0x04
  else match placeOf a with
    | .none | .setup _ => some 0x0B
    | _ => if oneRange a (64 * memUnits i) then none else some 0x0B

def formMld : Form := { a := .small, b := .scalar, fmask := 31, imm := true }
def formMst : Form := { a := .small, b := .scalar, fmask := 15, imm := true }

/-- MLD: one MEM_RD packet; it holds until its data arrive (R226). -/
def bodyMld (i : Issue) (s : State) : Effect :=
  match s.memTrap i with
  | some cause => .trap s cause 0 0
  | none =>
    let a := memAddr s i
    match (s.cl i.c).hold with
    | some h =>
      if h.tag < 128 then .hold s h true
      else if h.tag = 130 then .ok (s.modRegs i.c (fun r =>
        r.mergeBits (fA i) (byteBits 0 (64 * memUnits i)) (h.data.getD 0)))
      else go a s
    | none => go a s
where
  go (a : Nat) (s : State) : Effect :=
    if s.sourceRefuses (s.partOf i.c) a then .trap (s.countDiscard (regionOf i.c) 4) 0x0B 0 0
    else
      let d := s.agentOf a
      let key := flowKey d 2048
      if s.maySend i.c key (nodeRegion d) then
        let t := s.nextTag i.c
        .hold (s.sendOp i.c key .mld (reqPacket i.c .memRd d 0 a (fF i / 16 % 2) (memUnits i) 0))
          { s.holdFor 0xC7 i with tag := t, since := some s.now } true
      else .hold (s.holdFlow i.c key (nodeRegion d)) (s.holdFor 0xC7 i) true
def execMld (i : Issue) (s : State) : Result := s.retire 0xC7 i (formMld.legal i && unitsLegal i) (bodyMld i)

/-- MST: one MEM_WR packet; a refusal by the source's own region is recorded as one after retirement (R226, R587). -/
def bodyMst (i : Issue) (s : State) : Effect :=
  match s.memTrap i with
  | some cause => .trap s cause 0 0
  | none =>
    let a := memAddr s i
    let d := s.agentOf a
    let key := flowKey d 2048
    if s.sourceRefuses (s.partOf i.c) a then
      let v := s.cl i.c
      let o : Op := { tag := 0, gen := 0, kind := .mst, pc := v.regs.pc, dst := nodeCode d, flow := key, progress := s.now,
                      pkt := reqPacket i.c .memWr d 0 a 4 (memUnits i) 0 }
      .ok ((s.countDiscard (regionOf i.c) 4).modCl i.c (recordFault 0x0B o))
    else if s.maySend i.c key (nodeRegion d) then
      .ok (s.sendOp i.c key .mst (reqPacket i.c .memWr d 0 a 4 (memUnits i) ((s.regsOf i.c).row (fA i))))
    else .hold (s.holdFlow i.c key (nodeRegion d)) (s.holdFor 0xC8 i) true
def execMst (i : Issue) (s : State) : Result := s.retire 0xC8 i (formMst.legal i && unitsLegal i) (bodyMst i)

def bodyFencef (i : Issue) (s : State) : Effect := fenceEffect 0xDF i s (fun s => .ok s)
def execFencef (i : Issue) (s : State) : Result := s.retire 0xDF i (formR.legal i) (bodyFencef i)

/-! ## Energy hints (R213, R214) -/

def formEhint : Form := { b := .scalar, fmask := 15 }
def execEhint (i : Issue) (s : State) : Result :=
  s.retire 0xB0 i (formEhint.legal i) (fun s =>
    let d := min (s.sr i.c (fB i)).toNat 10000000
    .ok (s.modCl i.c (fun v => if d = 0 then { v with hintLevel := 0, hintUntil := 0 }
      else { v with hintLevel := BitVec.ofNat 4 (fF i), hintUntil := s.now + d })))

/-! ## Arrival of packets (R258 to R263) -/

/-- The age of a packet by the tick of its injection (R261). -/
def State.ageOf (s : State) (k : Packet) : Nat := (s.now % 65536 + 65536 - k.injectTick) % 65536

def State.removePkt (s : State) (p : Nat) : State := { s with net := s.net.filter (fun k => k.id != p) }

/-- The partition a packet's endpoint belongs to: a perimeter die serves any. -/
def State.nodePart (s : State) : Node → Option (Option Nat)
  | .cluster c => some (s.partOf c)
  | .hbm k => some (s.region (k / 2)).part
  | .chiplet r => some (s.region r).part
  | .hostDie _ => none
  | .cxlDie _ => none

/-- Whether an earlier request of a packet's flow is still on its way, or held at the owner: the packets of one flow are
performed in the order sent (R220). -/
def byAddress (k : Packet) : Bool := decide (k.ptype = .memRd) || decide (k.ptype = .memWr)
def sameFlow (k q : Packet) : Bool :=
  decide (q.src = k.src) && decide (q.dst = k.dst) && q.handle == k.handle && q.span == k.span && byAddress k == byAddress q
def State.behindFlow (s : State) (k : Packet) : Bool :=
  k.ptype.isRequest && s.net.any (fun q => decide (q.id < k.id) && q.ptype.isRequest && sameFlow k q)
def heldFlow (v : Cluster) (k : Packet) : Bool :=
  v.fab.remoteWait.any (fun w => sameFlow k w.pkt)

/-- Packet p of a type arrives at its endpoint: too old, stomped, stopped by the firewall, or for a vacant position it
is discarded and counted; else `f` acts on it (R29, R258 to R263). -/
def State.arrive (s : State) (p : Nat) (ty : PType) (f : Packet → State → State) : State :=
  match s.net.find? (fun k => k.id == p) with
  | none => s
  | some k =>
    if k.ptype ≠ ty || s.behindFlow k then s
    else
      let t := s.removePkt p
      let r := nodeRegion k.dst
      if 1000 < s.ageOf k then t.countDiscard r 3
      else if k.stomp then t.countDiscard r 2
      else match s.nodePart k.dst with
        | some q =>
          if q ≠ some k.partition then
            (t.countDiscard r 4).note 0x0402 { region := r, part := q.getD 31, detail := [k.partition] }
          else (match k.dst with
            | .cluster c => if s.vacant c then t.countDiscard r 5 else f k t
            | _ => f k t)
        | none => f k t

/-- The response to a request. -/
def respond (k : Packet) (ty : PType) (status units : Nat) (d : Row) : Packet :=
  { id := 0, ptype := ty, src := k.dst, dst := k.src, handle := k.handle, index := k.index, context := k.context,
    partition := k.partition, opTag := k.opTag, opGen := k.opGen, access := k.access, status := status, units := units,
    data := d }

def State.ackTo (s : State) (k : Packet) (status : Nat) : State := s.inject (respond k .ack status 0 0)
def State.dataTo (s : State) (k : Packet) (status units : Nat) (d : Row) : State := s.inject (respond k .data status units d)

/-- A remote access that its row's tag blocks: held in the 16-entry remote-wait queue, or answered busy (R84, R85). -/
def State.holdRemote (s : State) (c : Nat) (k : Packet) : State :=
  let v := s.cl c
  if v.fab.remoteWait.length < 16 then
    s.setCl c { v with fab := { v.fab with remoteWait := v.fab.remoteWait ++ [{ pkt := k, since := s.now }] } }
  else s.ackTo k 1

/-- What an owner does with a served access: `block` says what to do where the tag makes it wait. -/
def State.serveRow (s : State) (c : Nat) (k : Packet) (e : HandleEntry) (n : Nat) (a : Access) (u : Upset) (status : Nat)
    (block : State) : State :=
  match s.entryAccess c e n a k.data u with
  | .wait => block
  | .bad t => (t.badRowEvent c e n).ackTo k 3
  | .done d t => if a.reads then t.dataTo k status 8 d else t.ackTo k 0

/-- The owner performs a WRITE or READ it may serve (R56, R215, R220). -/
def State.serve (s : State) (c : Nat) (k : Packet) (u : Upset) (block : State) : State :=
  let e := s.handle c k.handle
  let right := if k.ptype = .write then Right.remoteWrite else Right.remoteRead
  if handleOk e (some k.context) right k.index.toNat then
    let n := handleRow e k.index.toNat
    if k.ptype = .write then s.serveRow c k e n (writeBy e) .none 0 block
    else if k.access = 2 && hBacking e = 0 then
      (match s.quietPeek c n u with
       | .wait => block
       | .bad t => (t.modCl c (fun v => { v with cnt := { v.cnt with crcMismatch := satInc v.cnt.crcMismatch } })).ackTo k 3
       | .done d t =>
         (match k.src with
          | .cluster r =>
            if (t.cl c).ahead.watches.length < 64 then
              (t.modCl c (fun v => { v with ahead := { v.ahead with
                 watches := v.ahead.watches ++ [{ requester := r, row := n, handle := k.handle }] } })).dataTo k 0 8 d
            else t.dataTo k 4 8 d
          | _ => t.dataTo k 4 8 d))
    else if k.access = 2 then s.serveRow c k e n .peek u 4 block
    else s.serveRow c k e n (readBy e (k.access == 1)) u 0 block
  else s.ackTo k 2

def execWrite (p : Nat) (s : State) : Result :=
  .next (s.arrive p .write (fun k t => match k.dst with
    | .cluster c => if heldFlow (t.cl c) k then t.holdRemote c k else t.serve c k .none (t.holdRemote c k)
    | _ => t))

def execRead (p : Nat) (u : Upset) (s : State) : Result :=
  .next (s.arrive p .read (fun k t => match k.dst with
    | .cluster c => if heldFlow (t.cl c) k then t.holdRemote c k else t.serve c k u (t.holdRemote c k)
    | _ => t))

/-- Whether a watch of the requester on a row is intact (R57). -/
def watchIntact (v : Cluster) (k : Packet) (n : Nat) : Bool :=
  v.ahead.watches.any (fun w => w.row == n && w.handle == k.handle && decide (Node.cluster w.requester = k.src))

/-- CONSUME: the tag transition of the read takes place only while the watch is intact (R57). -/
def State.consume (s : State) (c : Nat) (k : Packet) (u : Upset) : State :=
  let e := s.handle c k.handle
  let n := handleRow e k.index.toNat
  if handleOk e (some k.context) .remoteRead k.index.toNat then
    if watchIntact (s.cl c) k n then
      let t := s.modCl c (fun v => { v with ahead := { v.ahead with
        watches := v.ahead.watches.filter (fun w => !(w.row == n && w.handle == k.handle && decide (Node.cluster w.requester = k.src))) } })
      match t.entryAccess c e n (readBy e false) 0 u with
      | .done _ t' => t'.ackTo k 0
      | .bad t' => (t'.badRowEvent c e n).ackTo k 3
      | .wait => t.ackTo k 4
    else s.ackTo k 4
  else s.ackTo k 2

def execConsume (p : Nat) (u : Upset) (s : State) : Result :=
  .next (s.arrive p .consume (fun k t => match k.dst with
    | .cluster c => t.consume c k u
    | _ => t))

/-! ## MEM_RD and MEM_WR at the target (R226) -/

/-- The host link a host-window access of context x may use, and the base it needs (R406). -/
def State.hostWindowOk (s : State) (x l : Nat) : Bool :=
  (s.ctx x).fn / 64 == l && decide ((s.ctx x).params.hostBase ≠ 0) && (s.link l).up

/-- Whether the target serves an access of context x in partition p to its memory (R226). -/
def State.targetServes (s : State) (x p a n : Nat) (write : Bool) : Bool :=
  match placeOf a with
  | .host l _ => s.hostWindowOk x l
  | _ => s.reachable p a n && s.ownPages x a n && (!write || s.writablePages a n)

/-- A MEM_RD served or refused with status 7; a poisoned read is answered with status 3. A host window's data comes
with the command, is journalled as WINDOW_READ, and in a replay is served from the journal (R226, R308, R324). -/
def State.memRead (s : State) (k : Packet) (ecc : Ecc) (reply : Option Row) : State :=
  let a := k.index.toNat
  let n := 64 * k.units
  match placeOf a with
  | .tarn c off =>
    (match s.coverOf c (off / 512) (some k.context) .remoteRead with
     | some tagged =>
       if heldFlow (s.cl c) k then s.holdRemote c k
       else if off % 512 = 0 && decide (k.units = 8) then
         let acc : Access := if tagged then (if k.access = 1 then .peek else .taggedRead) else .untaggedRead
         (match s.rowAccess c (off / 512) acc 0 .none with
          | .wait => s.holdRemote c k
          | .bad t => (t.integrityEvent c (off / 512)).ackTo k 3
          | .done d t => t.dataTo k 0 8 d)
       else s.ackTo k 7
     | none => s.ackTo k 7)
  | .host l off =>
    if s.hostWindowOk k.context l then
      (match reply with
       | some d =>
         let c := match k.src with
           | .cluster c => c
           | _ => 0
         let cl := s.cl c
         let t := s.record k.partition k.context 8 (.windowRead c cl.fab.windowReads a n d)
         (t.modCl c (fun v => { v with fab := { v.fab with windowReads := v.fab.windowReads + 1 } })).dataTo k 0 k.units d
       | none =>
         let t := s.emit (.hostRead l ((s.ctx k.context).params.hostBase + off) n)
         { t with net := t.net ++ [k] })
    else s.ackTo k 7
  | _ =>
    if s.targetServes k.context k.partition a n false then
      let t := s.eccAt a ecc
      if t.readsPoison a n then (t.poisonEvent a).ackTo k 3
      else t.dataTo k 0 k.units (BitVec.ofNat 4096 (t.readNat a n))
    else s.ackTo k 7

/-- A WINDOW_READ record of the step being replayed, by logical cluster and read number (R324). -/
def State.windowRecord (s : State) (p seq c n : Nat) : Option (Nat × Nat × Row) :=
  ((s.part p).journal.findSome? (fun e => match e.body with
    | .windowRead c' n' a len d => if c' = c ∧ n' = n ∧ e.seq = seq then some (a, len, d) else none
    | _ => none))

/-- A host-window read of a replayed step or of the step released again: served from its record; a missing record of a
replayed step, or a record that differs, is a replay fault (R324, R325). -/
def State.replayRead (s : State) (k : Packet) : Option State :=
  match k.src, (s.part k.partition).running, placeOf k.index.toNat with
  | .cluster c, some st, .host _ _ =>
    (match s.windowRecord k.partition st.seq c (s.cl c).fab.windowReads with
     | some (a, len, d) =>
       if a = k.index.toNat ∧ len = 64 * k.units then
         some ((s.modCl c (fun v => { v with fab := { v.fab with windowReads := v.fab.windowReads + 1 } })).dataTo k 0 k.units d)
       else some (s.contextFatal k.context 0x3808 (s.atCluster c [st.seq, c]))
     | none => if st.replay then some (s.contextFatal k.context 0x3808 (s.atCluster c [st.seq, c])) else none)
  | _, _, _ => none

def execMemRd (p : Nat) (ecc : Ecc) (reply : Option Row) (s : State) : Result :=
  .next (s.arrive p .memRd (fun k t => match t.replayRead k with
    | some t' => t'
    | none => t.memRead k ecc reply))

/-- A MEM_WR performed or refused; writes of a replayed step to a host window are suppressed (R226, R324). -/
def State.memWrite (s : State) (k : Packet) : State :=
  let a := k.index.toNat
  let n := 64 * k.units
  match placeOf a with
  | .tarn c off =>
    (match s.coverOf c (off / 512) (some k.context) .remoteWrite with
     | some tagged =>
       if heldFlow (s.cl c) k then s.holdRemote c k
       else if off % 512 = 0 && decide (k.units = 8) then
         (match s.rowAccess c (off / 512) (if tagged then .taggedWrite else .untaggedWrite) k.data .none with
          | .wait => s.holdRemote c k
          | .bad t => (t.integrityEvent c (off / 512)).ackTo k 3
          | .done _ t => t.ackTo k 0)
       else s.ackTo k 7
     | none => s.ackTo k 7)
  | .host l off =>
    if s.hostWindowOk k.context l then
      (if s.replaying k.context then s.ackTo k 0
       else (s.emit (.hostWrite l ((s.ctx k.context).params.hostBase + off) n k.data)).ackTo k 0)
    else s.ackTo k 7
  | _ =>
    if s.targetServes k.context k.partition a n true then (s.writeMem a (k.data.toNat % 256 ^ n) n).ackTo k 0
    else s.ackTo k 7

def execMemWr (p : Nat) (s : State) : Result := .next (s.arrive p .memWr (fun k t => t.memWrite k))

/-! ## Stale notices and prefetch (R53 to R57) -/

/-- A stale notice breaks the requester's prefetch watch (R56). -/
def execStale (p : Nat) (s : State) : Result :=
  .next (s.arrive p .stale (fun k t => match k.dst, k.src with
    | .cluster c, .cluster o => t.modCl c (fun v => { v with ahead := { v.ahead with prefetch := v.ahead.prefetch.map (fun f =>
        if f.owner = o ∧ f.handle = k.handle ∧ handleRow (t.handle o f.handle) f.index.toNat = k.index.toNat
        then { f with stale := true } else f) } })
    | _, _ => t))

/-- Whether run-ahead may issue: retirement waits and the region runs (R50). -/
def State.runsAhead (s : State) (c : Nat) : Bool :=
  decide ((s.cl c).st = .waiting) && decide ((s.region (regionOf c)).pstate = .run)

/-- A run-ahead load of row `row` of handle h: a FULL row is peeked into an entry, an EMPTY or HELD row parks, a
POISONED one is not issued; an unknown address, a failing handle or a spilled row issues nothing (R51 to R53, R99). -/
def execRunAheadLoad (c h : Nat) (row : Option Word) (u : Upset) (s : State) : Result :=
  match row with
  | none => .next s
  | some w =>
    let e := s.handle c h
    let v := s.cl c
    if s.runsAhead c && handleOk e (s.ctxOf c) .engineRead w.toNat && decide (hBacking e = 0) && decide (v.ahead.loads.length < 8) then
      let n := handleRow e w.toNat
      match s.rowTag c n with
      | .poisoned => .next s
      | .full =>
        (match s.quietPeek c n u with
         | .done d t => .next (t.modCl c (fun v => { v with ahead := { v.ahead with
             loads := v.ahead.loads ++ [{ handle := h, row := n, parked := false, data := d, stale := false }] } }))
         | .bad t => .next (t.modCl c (fun v => { v with cnt := { v.cnt with crcMismatch := satInc v.cnt.crcMismatch } }))
         | .wait => .next s)
      | _ => .next (s.modCl c (fun v => { v with ahead := { v.ahead with
          loads := v.ahead.loads ++ [{ handle := h, row := n, parked := true, data := 0, stale := false }] } }))
    else .next s

/-- Parked entry k peeks once its row is FULL (R53). -/
def execRunAheadParkedPeek (c k : Nat) (u : Upset) (s : State) : Result :=
  match (s.cl c).ahead.loads[k]? with
  | none => .next s
  | some e =>
    if e.parked && s.runsAhead c && decide (s.rowTag c e.row = .full) then
      (match s.quietPeek c e.row u with
       | .done d t => .next (t.modCl c (fun v => { v with ahead := { v.ahead with
           loads := v.ahead.loads.set k { e with parked := false, data := d, stale := false } } }))
       | .bad t => .next (t.modCl c (fun v => { v with ahead := { v.ahead with loads := v.ahead.loads.eraseIdx k },
                                                       cnt := { v.cnt with crcMismatch := satInc v.cnt.crcMismatch } }))
       | .wait => .next s)
    else .next s

/-- A receive prefetch: a watched remote peek, issued while retirement waits, with a known address and destination, a
place in its flow and room in the buffer of 8 (R51, R52, R56, R255). -/
def execReceivePrefetch (c h : Nat) (row dst : Option Word) (s : State) : Result :=
  match row, dst with
  | some w, some d =>
    let key := flowKey (.cluster d.toNat) h
    if s.runsAhead c && !s.badDest c d.toNat && decide ((s.cl c).ahead.prefetch.length < 8) && s.maySend c key (regionOf d.toNat) &&
        decide (hBacking (s.handle d.toNat h) = 0) then
      let t := s.nextTag c
      let f : Prefetch := { owner := d.toNat, handle := h, index := w, tag := t, data := none, watched := false, stale := false }
      .next ((s.sendOp c key .prefetch (reqPacket c .read (.cluster d.toNat) h w.toNat 2 0 0)).modCl c (fun v =>
        { v with ahead := { v.ahead with prefetch := v.ahead.prefetch ++ [f] } }))
    else .next s
  | _, _ => .next s

end Sys2Proof.Machine
end

