-- ==== Sys2Proof/Machine/Health.lean ====
section
/-! DEFINITION. Health of clusters and their replacement: heartbeats, ageing, retired rows, and the changes of the
cluster map (01, 02, 03). -/

namespace Sys2Proof.Machine

open Sys2Proof

/-! ## Replacement (R24, R25) -/

/-- Whether a position of site k is healthy: neither it nor its die is condemned. -/
def positionOk (v : Region) (k p : Nat) : Bool := !v.sitesFailed.contains k && !v.condemned.contains (k, p)

/-- The positions of site k that some entry of region r's map uses. -/
def State.usedPositions (s : State) (r k : Nat) : List Nat :=
  (List.range 288).filterMap (fun l =>
    let e := s.cmapEntry r l
    if entryState e ≠ 2 ∧ entrySite e = k then some (entryPos e) else none)

/-- Unused healthy positions of site k of region r, in ascending number. -/
def State.freePositions (s : State) (r k : Nat) : List Nat :=
  let used := s.usedPositions r k
  (List.range 18).filter (fun p => positionOk (s.region r) k p && !used.contains p)

/-- Mesh hops between two positions of one chiplet (R234). -/
def hops (p q : Nat) : Nat := ((p % 3 : Int) - q % 3).natAbs + ((p / 3 : Int) - (q / 3 : Nat)).natAbs

/-- The position of a list nearest to p, the lower number on a tie. -/
def nearest (p : Nat) : List Nat → Option Nat
  | [] => none
  | q :: rest =>
    match nearest p rest with
    | none => some q
    | some b => if hops p q ≤ hops p b then some q else some b

/-- The replacement of a failed position p of site k (R24): on the same chiplet, else on site 18, else none. -/
def State.replacement (s : State) (r k p : Nat) : Option (Nat × Nat) :=
  match (if k = 18 then none else nearest p (s.freePositions r k)) with
  | some q => some (k, q)
  | none => ((s.freePositions r 18).head?).map (fun q => (18, q))

/-- A map entry moved: to a place, or vacant; its count goes up, saturating at 255 (Table 1.6). -/
def State.moveEntry (s : State) (r l : Nat) (to' : Option (Nat × Nat)) : State :=
  let n := min 255 (entryCount (s.cmapEntry r l) + 1)
  let e := match to' with
    | some (k, p) => mkEntry k p 1 n
    | none => mkEntry 0 0 2 n
  s.modRegion r (fun v => { v with cmap := Tbl.set (fun l => s.factoryEntry r l) v.cmap l e })

/-- What a logical cluster holds once another position, or none, stands for it: nothing but what the steward keeps;
its rows are lost (R24, R320). -/
def State.freshCluster (s : State) (c : Nat) (st : CState) : State :=
  { s.setCl c { st := st } with tarn := Tbl.drop (fun k => k / 16384 == c) s.tarn }

/-- The position of cluster c is condemned and the cluster replaced by R24; a vacancy is reported (R538). -/
def State.replaceCluster (s : State) (c : Nat) : State :=
  let r := regionOf c
  let e := s.cmapEntry r (localOf c)
  let k := entrySite e
  let p := entryPos e
  let t := s.modRegion r (fun v => { v with condemned := if v.condemned.contains (k, p) then v.condemned else v.condemned ++ [(k, p)] })
  match t.replacement r k p with
  | some q => (t.moveEntry r (localOf c) (some q)).freshCluster c .idle
  | none => ((t.moveEntry r (localOf c) none).freshCluster c .off).note 0x0E02 (s.atCluster c [k, p])

/-- A die of site k of region r is condemned: the clusters mapped to it are Failed (R25, R237). -/
def State.condemnSite (s : State) (r k : Nat) : State :=
  let t := s.modRegion r (fun v => { v with sitesFailed := if v.sitesFailed.contains k then v.sitesFailed else v.sitesFailed ++ [k] })
  if k < 19 then
    ((List.range 288).filter (fun l => entryState (s.cmapEntry r l) ≠ 2 && entrySite (s.cmapEntry r l) == k)).foldl
      (fun s l => if (s.cl (clusterAt r l)).st = .failed then s else s.failCluster (clusterAt r l) 0) t
  else if k = 19 then t.modRegion r (fun v => { v with cores := false })
  else t

/-- The Failed clusters listed in a region that stand in its map. -/
def State.failedClusters (s : State) (r : Nat) : List Nat :=
  (s.clusters.filter (fun e => decide (e.2.st = .failed) && regionOf e.1 == r && !s.vacant e.1)).map Prod.fst

/-- The map of region r changes: every Failed cluster is replaced, in ascending number (R24 to R26). -/
def State.remapRegion (s : State) (r : Nat) : State := (s.failedClusters r).foldl State.replaceCluster s

/-- A cluster fails; in a region of no partition the map changes as soon as the replacement is chosen (R26). -/
def State.failAndMap (s : State) (c absent : Nat) : State :=
  let t := s.failCluster c absent
  if (s.partOf c).isNone then t.remapRegion (regionOf c) else t

/-! ## Retired rows (R105) and substitution requests (R70) -/

/-- A substitution request of a cluster: kept and logged; it is served at a step boundary (R70, R71). -/
def State.requestSubst (s : State) (c : Nat) : State :=
  (s.modCl c (fun v => { v with health := { v.health with subst := true, substTick := s.now } })).note 0x0144 (s.atCluster c [c])

/-- A row due for retirement goes to a spare row; its contents, CRC and tag stay as they were (R105). -/
def State.retireRow (s : State) (c n : Nat) : State :=
  let v := (s.cl c).health
  if v.spareLeft = 0 then
    (if v.subst then s else s.requestSubst c)
  else
    let h : Health := { v with spareLeft := v.spareLeft - 1, retiring := v.retiring.filter (· != n),
                               redirected := v.redirected ++ [n], rowFails := v.rowFails.filter (· != n) }
    (s.modCl c (fun w => { w with health := h })).note 0x1202 (s.atCluster c [c, n, v.spareLeft - 1])

/-- The rows due in a cluster are retired. -/
def State.retireRows (s : State) (c : Nat) : State := (s.cl c).health.retiring.foldl (fun s n => s.retireRow c n) s

/-! ## Heartbeats (R67, R68) -/

/-- States in which a cluster sends heartbeats. -/
def beats (st : CState) : Bool :=
  match st with
  | .idle | .running | .waiting | .trapped | .halted => true
  | _ => false

/-- Three absent heartbeats, or a failed self-check in one that came (R68). -/
def execHeartbeatMiss (c : Nat) (selfCheck : Bool) (s : State) : Result :=
  if beats (s.cl c).st && decide ((s.region (regionOf c)).pstate = .run) then
    .next (s.failAndMap c (if selfCheck then 0 else 3))
  else .next s

/-! ## Ageing (R70, R71) -/

def ageWarn (s : State) : Nat := bitsOf (s.reg 0xB00078) 6 0
def ageMigrate (s : State) : Nat := bitsOf (s.reg 0xB00078) 14 8

/-- The mean of the samples kept, in units of 0.01 %. -/
def ageMean (v : Health) : Nat := (v.ageSamples.map BitVec.toNat).sum / max 1 v.ageSamples.length

/-- One sample a second: the last 64 are kept, and the mean is held against the thresholds (R70). -/
def execAgeingSample (c : Nat) (drift : BitVec 16) (s : State) : Result :=
  if (s.cl c).st = .off then .next s
  else
    let h := (s.cl c).health
    let l := h.ageSamples ++ [drift]
    let h' := { h with ageSamples := l.drop (l.length - 64) }
    let warn := decide (10 * ageWarn s ≤ ageMean h')
    let mig := decide (10 * ageMigrate s ≤ ageMean h')
    let t := s.modCl c (fun v => { v with health := { h' with warn := warn, migrate := mig } })
    let t := if warn && !h.warn then t.note 0x0143 (s.atCluster c [ageMean h']) else t
    let t := t.refreshReading (readingNo 6 c)
    .next (if mig && !h.subst then t.requestSubst c else t)

/-- A request that no spare could serve is raised again once a day (R71). -/
def execSubstitutionRerequest (c : Nat) (s : State) : Result :=
  let h := (s.cl c).health
  if h.subst && decide (h.substTick + 86400 * ticksPerS ≤ s.now) then .next (s.requestSubst c) else .next s

/-- The thresholds in units of 0.1 %, from 5 to 100, warn below migrate (R71). -/
def execCluAgeThreshWrite (warn migrate : BitVec 7) (s : State) : Result :=
  if 5 ≤ warn.toNat ∧ warn.toNat < migrate.toNat ∧ migrate.toNat ≤ 100 then
    .next (s.setReg 0xB00078 (BitVec.ofNat 64 (warn.toNat + 256 * migrate.toNat)))
  else .next (s.note 0x0145 { detail := [0xB00078] })

end Sys2Proof.Machine
end

