-- ==== Sys2Proof/Machine/Links.lean ====
section
/-! DEFINITION. Links, hops, routes and the end of an abort drain (08). -/

namespace Sys2Proof.Machine

open Sys2Proof

/-! ## Link numbers (21, "FAB_ and TBS_") -/

/-- The classes of links a region numbers. -/
inductive LinkClass where
  | region
  | loch
  | perimeter
  | diePort
  deriving DecidableEq, Repr

def linkClass (n : Nat) : LinkClass := if n < 4 then .region else if n < 34 then .loch else if n = 34 then .perimeter else .diePort

/-- The neighbour of region r to the east, south, west or north. -/
def neighbour (r d : Nat) : Option Nat :=
  match d with
  | 0 => if r % 4 < 3 then some (r + 1) else none
  | 1 => if r / 4 < 3 then some (r + 4) else none
  | 2 => if 0 < r % 4 then some (r - 1) else none
  | _ => if 0 < r / 4 then some (r - 4) else none

/-- The other region of Loch link n of region r, the pair's port, and the link of the pair at region r. -/
def lochOther (r n : Nat) : Nat := if (n - 4) / 2 < r then (n - 4) / 2 else (n - 4) / 2 + 1
def lochPort (n : Nat) : Nat := n % 2
def lochLink (r other port : Nat) : Nat := 4 + 2 * (if other < r then other else other - 1) + port

/-- The perimeter die attached to a region: host-port dies 0 to 7, CXL dies 8 to 11 (Table 1.3). -/
def dieAt (r : Nat) : Option Nat :=
  match r with
  | 1 => some 0 | 2 => some 1 | 7 => some 2 | 11 => some 3 | 14 => some 4 | 13 => some 5 | 8 => some 6 | 4 => some 7
  | 3 => some 8 | 15 => some 9 | 12 => some 10 | 0 => some 11
  | _ => none

/-- The region a perimeter die is attached to. -/
def dieRegion (die : Nat) : Nat := if die < 8 then nodeRegion (.hostDie die) else nodeRegion (.cxlDie (die - 8))

/-- The region at the other end of a link, if it joins two regions. -/
def linkOther (r n : Nat) : Option Nat :=
  match linkClass n with
  | .region => neighbour r n
  | .loch => some (lochOther r n)
  | _ => none

/-- Whether link n of region r exists (absent links read as zero). -/
def linkExists (r n : Nat) : Bool :=
  decide (r < 16) && decide (n < 115) &&
  match linkClass n with
  | .region => (neighbour r n).isSome
  | .perimeter => (dieAt r).isSome
  | _ => true

/-- The retrain time of Table 8.2 in ticks. -/
def retrainTicks (n : Nat) : Nat :=
  match linkClass n with
  | .diePort => 2000
  | .loch => 10000
  | _ => 5000

/-- Repairs a link has (Tables 8.1 and 8.2); the lanes of a UCIe module are fused with it (notes/assumptions/7.md). -/
def linkSpares (n : Nat) : Nat :=
  match linkClass n with
  | .region => 8
  | .loch => 1
  | .perimeter => 4
  | .diePort => 4

/-! ## Partitions a link serves (R239) -/

/-- The CXL ports whose devices a window uses; a device number is 8 × port + its rank there. -/
def windowPorts (w : Window) : List Nat := (w.devs.map (· / 8)).eraseDups

/-- The partitions a perimeter die serves. -/
def State.servedBy (s : State) (die : Nat) : List Nat :=
  let bound := if die < 8 then ([2 * die, 2 * die + 1].filterMap (fun l => (s.link l).part)) else []
  let windows := if die < 8 then [] else s.windows.filterMap (fun e =>
    let near := (windowPorts e.2).any (fun p => p / 2 == die - 8)
    match e.2.st with
    | .zeroing | .online | .offline => if near then some e.2.part else none
    | _ => none)
  (bound ++ windows).eraseDups

/-- The partition that a link lies inside, if it does. -/
def State.linkPart (s : State) (r n : Nat) : Option Nat :=
  match linkOther r n with
  | some o => if (s.region r).part = (s.region o).part then (s.region r).part else none
  | none => (s.region r).part

/-- The partitions a retrain of a link waits for. -/
def State.retrainWaits (s : State) (r n : Nat) : List Nat :=
  match linkClass n with
  | .perimeter => (dieAt r).elim [] s.servedBy
  | _ => (s.linkPart r n).elim [] (fun p => [p])

/-- Whether a partition is at a step boundary: no step runs and none is recovered. -/
def State.atBoundary (s : State) (p : Nat) : Bool := (s.part p).running.isNone && (s.part p).recovery.isNone

/-! ## Routes (R246, R249) -/

def State.setRoute (s : State) (r d : Nat) (e : BitVec 32) : State :=
  { s with routes := Tbl.set (fun _ => 0) s.routes (r * 16 + d) e }

/-- An entry with its other bits as given and its epoch counted up if they change (Table 8.5). -/
def bumpRoute (old new : BitVec 32) : BitVec 32 :=
  let body := new &&& 0xFF#32
  if body = old &&& 0xFF#32 then old
  else body ||| (BitVec.ofNat 32 (((routeEpoch old + 1) % 256) * 256))

/-- The perimeter entry of region r for a perimeter die as bindings and ports have it: kind 1 where a partition the die
serves holds r but not the die's attached region, and a Loch port of the pair is in service (R248). -/
def State.perimWanted (s : State) (r die : Nat) : Bool :=
  match (s.region r).part with
  | some p => (s.servedBy die).contains p && decide ((s.region (dieRegion die)).part ≠ some p)
  | none => false

/-- The entry brought up to date; 0x0404 for the pair when a route in use is withdrawn. -/
def State.fixPerim (s : State) (r die : Nat) : State :=
  let a := dieRegion die
  let ports := s.route r a &&& 0xC0#32
  let old := s.perimRoute r die
  let wanted := s.perimWanted r die
  let e := bumpRoute old (ports ||| (if wanted && decide (ports ≠ 0) then 1#32 else 0#32))
  let t := { s with perimRoutes := Tbl.set (fun _ => 0) s.perimRoutes (r * 16 + die) e }
  if wanted && decide (ports = 0) && bitOf old 0 then
    t.note 0x0404 { region := r, part := ((s.region r).part).getD 31, detail := [r, a] } else t

/-- Every entry for the dies listed. -/
def State.fixPerims (s : State) (dies : List Nat) : State :=
  dies.foldl (fun (t : State) d => (List.range 16).foldl (fun (t : State) r => t.fixPerim r d) t) s

/-- A Loch port's bit in both route entries of a pair, and in the perimeter entries over it. -/
def State.setPortBit (s : State) (r d port : Nat) (on : Bool) : State :=
  let bit : BitVec 32 := BitVec.ofNat 32 (2 ^ (6 + port))
  let f := fun (e : BitVec 32) => bumpRoute e (if on then e ||| bit else e &&& ~~~bit)
  let t := (s.setRoute r d (f (s.route r d))).setRoute d r (f (s.route d r))
  let t := ((dieAt d).toList).foldl (fun (t : State) die => t.fixPerim r die) t
  ((dieAt r).toList).foldl (fun (t : State) die => t.fixPerim d die) t

/-- Whether a region link from r to its neighbour q is in service, seen from both ends. -/
def State.regionLinkOk (s : State) (r q : Nat) : Bool :=
  (List.range 4).any (fun d => decide (neighbour r d = some q) && !(s.fabLink r d).outOfService) &&
  (List.range 4).any (fun d => decide (neighbour q d = some r) && !(s.fabLink q d).outOfService)

/-- Whether port `port` of a pair is in service, seen from both ends. -/
def State.lochOk (s : State) (r d port : Nat) : Bool :=
  !(s.fabLink r (lochLink r d port)).outOfService && (s.fabLink r (lochLink r d port)).retraining.isNone &&
  !(s.fabLink d (lochLink d r port)).outOfService && (s.fabLink d (lochLink d r port)).retraining.isNone

/-- The regions a kind 3 route goes through, X then Y, the destination included. -/
def xyPath (r d : Nat) : List Nat :=
  let xs := if r % 4 ≤ d % 4 then (List.range (d % 4 - r % 4)).map (fun k => r + k + 1) else (List.range (r % 4 - d % 4)).map (fun k => r - k - 1)
  let m := r / 4 * 4 + d % 4
  xs ++ (if m ≤ d then (List.range ((d - m) / 4)).map (fun k => m + 4 * (k + 1)) else (List.range ((m - d) / 4)).map (fun k => m - 4 * (k + 1)))

/-- Whether a path of region links is in service, all within one partition. -/
def State.pathOk (s : State) (r : Nat) : List Nat → Bool
  | [] => true
  | q :: rest => s.regionLinkOk r q && decide ((s.region q).part = (s.region r).part) && State.pathOk s q rest

/-- The entry firmware builds from region r to d (R247): none between partitions; over Loch, over Loch and one region
link, or over region links, in this order. -/
def State.builtRoute (s : State) (r d : Nat) : BitVec 32 :=
  let ports := BitVec.ofNat 32 ((s.lochOk r d 0).toNat * 64 + (s.lochOk r d 1).toNat * 128)
  let p := (s.region r).part
  if r = d then 0
  else if p ≠ (s.region d).part then ports
  else if ports ≠ 0 then ports ||| 1#32
  else match (List.range 16).find? (fun v => decide (v ≠ r) && decide (v ≠ d) && decide ((s.region v).part = p) &&
      (s.lochOk r v 0 || s.lochOk r v 1) && s.regionLinkOk v d) with
    | some v => BitVec.ofNat 32 (2 + 4 * v)
    | none => if s.pathOk r (xyPath r d) then 3#32 else 0

/-- Route tables built for every pair of the regions listed with any region (R247). -/
def State.buildRoutes (s : State) (rs : List Nat) : State :=
  rs.foldl (fun (t : State) r => (List.range 16).foldl (fun (t : State) d =>
    (t.setRoute r d (bumpRoute (t.route r d) (t.builtRoute r d))).setRoute d r (bumpRoute (t.route d r) (t.builtRoute d r))) t) s

/-- A route entry written by the lease holder under its epoch (R246). -/
def execRouteEntryWrite (r d : Nat) (entry : BitVec 32) (epoch : Nat) (s : State) : Result :=
  if r < 16 ∧ d < 16 then .next (s.regionCmd r epoch (fun t => t.setRoute r d (bumpRoute (t.route r d) entry))) else .next s

/-- A flow held on a route change goes on over the new route once nothing of it is outstanding (R250). `k` is the
flow's key. -/
def execFlowRouteResume (c k : Nat) (s : State) : Result :=
  .next (s.modCl c (fun v => { v with fab := { v.fab with
    flows := v.fab.flows.filter (fun f => !(f.key == k && f.heldOnRoute && f.outstanding == 0)) } }))

/-! ## Hops (R258 to R263) -/

/-- A CRC failure counted against a link; at the threshold within 1 s its retraining is due (R239). -/
def noteCrc (now threshold : Nat) (v : FabLink) : FabLink :=
  let recent := (v.recent.filter (fun t => decide (now < t + ticksPerS))) ++ [now]
  { v with crcDiscards := satInc v.crcDiscards, recent := recent, due := v.due || decide (threshold ≤ recent.length) }

/-- Whether a packet to or from a perimeter die crosses that die's attached region (R263). -/
def transit (k : Packet) (r : Nat) : Bool :=
  (match k.src with
   | .hostDie p => nodeRegion (.hostDie p) == r
   | .cxlDie p => nodeRegion (.cxlDie p) == r
   | _ => false) ||
  (match k.dst with
   | .hostDie p => nodeRegion (.hostDie p) == r
   | .cxlDie p => nodeRegion (.cxlDie p) == r
   | _ => false)

/-- A router checks a packet: its age, its header, the partition where it enters a region, and its CRC (R258 to R263). -/
def State.hop (s : State) (k : Packet) (h : Hop) : State :=
  let gone := s.removePkt k.id
  let threshold := bitsOf (s.reg 0x500810) 7 0
  if 1000 < s.ageOf k then gone.countDiscard h.region 3
  else if !h.hdrOk then gone.countDiscard h.region 0
  else if h.link.isSome && decide ((s.region h.region).part ≠ some k.partition) && !transit k h.region then
    (gone.countDiscard h.region 4).note 0x0402 { region := h.region, part := ((s.region h.region).part).getD 31,
                                                 detail := [h.link.getD 0, k.partition] }
  else if !h.crcOk && !k.stomp then
    let t := (match h.link with
      | some n => s.modFabLink h.region n (noteCrc s.now threshold)
      | none => s).countDiscard h.region 1
    if h.endpoint then t.removePkt k.id
    else if h.whole then (t.removePkt k.id).countDiscard h.region 2
    else { t with net := t.net.map (fun q => if q.id = k.id then { q with stomp := true } else q) }
  else if k.stomp && (h.whole || h.endpoint) then gone.countDiscard h.region 2
  else s

def execPacketHop (p : Nat) (hop : Hop) (s : State) : Result :=
  match s.net.find? (fun k => k.id == p) with
  | some k => .next (s.hop k hop)
  | none => .next s

/-- A packet older than 1,000 ticks is discarded wherever it is (R261). -/
def execPacketLifetimeExpiry (p : Nat) (s : State) : Result :=
  match s.net.find? (fun k => k.id == p) with
  | some k => if 1000 < s.ageOf k then .next ((s.removePkt p).countDiscard (nodeRegion k.dst) 3) else .next s
  | none => .next s

/-! ## Retraining (R238 to R240) -/

/-- A transmitter that has had no credit for 1,200 ticks declares its link down for retraining (Table 8.6). -/
def execCreditStall (r link : Nat) (ticks : Nat) (s : State) : Result :=
  if 1200 ≤ ticks ∧ linkExists r link then .next (s.modFabLink r link (fun v => { v with due := true })) else .next s

/-- A retrain begins: the Loch port it stops leaves the routes (R239, R240). -/
def State.startRetrain (s : State) (r n : Nat) : State :=
  let t := s.modFabLink r n (fun v => { v with retraining := some s.now, heldSince := none })
  match linkClass n, linkOther r n with
  | .loch, some o => t.setPortBit r o (lochPort n) false
  | _, _ => t

/-- A link due for retraining begins once every partition it waits for is held at a step boundary; those that are at
one are held (R239). -/
def execLinkRetrain (r link : Nat) (s : State) : Result :=
  let v := s.fabLink r link
  if v.due && v.retraining.isNone && !v.outOfService && linkExists r link then
    let ps := s.retrainWaits r link
    let ready := ps.filter s.atBoundary
    let t := ready.foldl (fun s p => s.modPart p (fun v => { v with retrainHold := true })) s
    if ready.length = ps.length then .next (t.startRetrain r link)
    else .next (if ready.isEmpty then t
      else t.modFabLink r link (fun v => { v with heldSince := some (v.heldSince.getD s.now) }))
  else .next s

/-- The packets of a perimeter die in flight are lost. -/
def onDie (die : Nat) (k : Packet) : Bool :=
  let isDie := fun (n : Node) => match n with
    | .hostDie p => p == die
    | .cxlDie p => p + 8 == die
    | _ => false
  isDie k.src || isDie k.dst

/-- 100 ms after the first partition was held, the link is retrained at once and packets on it are lost (R239). -/
def execPerimeterRetrainHoldTimeout (die : Nat) (s : State) : Result :=
  let r := dieRegion die
  let v := s.fabLink r 34
  match v.heldSince with
  | some t => if v.due && v.retraining.isNone && decide (t + 100 * ticksPerMs ≤ s.now) then
      .next ({ s with net := s.net.filter (fun k => !onDie die k) }.startRetrain r 34) else .next s
  | none => .next s

/-- The partitions held for a retrain go on. -/
def State.releaseHolds (s : State) (r n : Nat) : State :=
  (s.retrainWaits r n).foldl (fun s p => s.modPart p (fun v => { v with retrainHold := false })) s

/-- A link comes back with its repair; a Loch port of one partition rejoins at its next step boundary (R238, R240). -/
def execLinkRetrainDone (r link : Nat) (s : State) : Result :=
  let v := s.fabLink r link
  match v.retraining with
  | none => .next s
  | some t0 =>
    if t0 + retrainTicks link < s.now then .next s
    else
      let t := (s.setFabLink r link { v with retraining := none, due := false, recent := [], heldSince := none,
                                             repairs := min (linkSpares link) (v.repairs + 1) }).releaseHolds r link
      let t := t.note 0x1401 { region := r, detail := [link] }
      match linkClass link, linkOther r link with
      | .loch, some o =>
        (match s.linkPart r link with
         | some p => if s.atBoundary p then .next (t.setPortBit r o (lochPort link) true)
                     else .next (t.modFabLink r link (fun v => { v with rejoin := true }))
         | none => .next (t.setPortBit r o (lochPort link) true))
      | _, _ => .next t

/-- A link whose repair is exhausted: out of service, with what Table 8.2 says follows. -/
def State.exhaustLink (s : State) (r n : Nat) : State :=
  let t := ((s.modFabLink r n (fun v => { v with outOfService := true, retraining := none, due := false })).releaseHolds r n).note
    0x1403 { region := r, detail := [n] }
  match linkClass n, linkOther r n with
  | .diePort, _ => t.condemnSite r ((n - 35) / 4)
  | .loch, some o => t.setPortBit r o (lochPort n) false
  | .perimeter, _ =>
    (match dieAt r with
     | some d => if d < 8 then t.modPort d (fun v => { v with absent := true })
                 else
                  let t := (t.modCxl (2 * (d - 8)) (fun v => { v with up := false })).modCxl (2 * (d - 8) + 1) (fun v => { v with up := false })
                  { t with boot := { t.boot with diesOff := t.boot.diesOff ++ [(16, d)] } }
     | none => t)
  | _, _ => t

/-- A link that has not trained within its retrain time is exhausted (R238, R239). -/
def execLinkRetrainTimeout (r link : Nat) (s : State) : Result :=
  match (s.fabLink r link).retraining with
  | some t0 => if t0 + retrainTicks link < s.now then .next (s.exhaustLink r link) else .next s
  | none => .next s

/-- The Loch port a packet between two regions takes (R249). -/
def portOf (e : BitVec 32) (k : Packet) : Nat :=
  let id := fun (n : Node) => match n with
    | .cluster c => c
    | .hbm p => p
    | .chiplet p => p
    | .hostDie p => p
    | .cxlDie p => p
  let h := match k.dst with
    | .cluster _ => k.handle
    | _ => 0
  if bitOf e 6 && bitOf e 7 then (id k.src + id k.dst + h) % 2 else if bitOf e 6 then 0 else 1

/-- The packets that may be on a Loch port: those whose route crosses it (notes/assumptions/10.md). -/
def State.onPort (s : State) (r o port : Nat) (k : Packet) : Bool :=
  let a := nodeRegion k.src
  let b := nodeRegion k.dst
  ((a == r && b == o) || (a == o && b == r)) && portOf (s.route a b) k == port

/-- A Loch receiver loses lock on a wavelength: the port stops, its packets are lost, the routes turn to the pair's other
port, and it retrains on its spare; a second failure takes it out of service (R240). -/
def execLochLockLoss (r link : Nat) (s : State) : Result :=
  let v := s.fabLink r link
  match linkClass link with
  | .loch =>
    if v.outOfService || !linkExists r link then .next s
    else
      let o := lochOther r link
      let t := { s with net := s.net.filter (fun k => !s.onPort r o (lochPort link) k) }
      if 1 ≤ v.repairs then .next (t.exhaustLink r link) else .next (t.startRetrain r link)
  | _ => .next s

/-- Loch ports that rejoin at a step boundary of partition p do so (R240). -/
def State.rejoinPorts (s : State) (p : Nat) : State :=
  (s.part p).regions.foldl (fun s r => (List.range 30).foldl (fun s k =>
    let n := k + 4
    if (s.fabLink r n).rejoin then
      (s.modFabLink r n (fun v => { v with rejoin := false })).setPortBit r (lochOther r n) (lochPort n) true
    else s) s) s

/-! ## Scrub (R106) -/

/-- The scrub of a partition begins: every row of its clusters is HELD (R106). -/
def State.startScrub (s : State) (p : Nat) : State := s.modPart p (fun v => { v with scrubbing := true })

end Sys2Proof.Machine
end

