-- ==== Sys2Proof/Machine/Clock.lean ====
section
/-! DEFINITION. Panel time: references, beacons, the tick accumulators, step changes, stretching and crossings (09). -/

namespace Sys2Proof.Machine

open Sys2Proof

/-! ## Domains (Tables 9.4 and 9.5) -/

/-- Twice the periods per tick of a frequency step. -/
def stepHalves (step : Nat) : Nat :=
  match step with
  | 0 => 54
  | 1 => 51
  | 2 => 48
  | 3 => 45
  | 4 => 42
  | 5 => 36
  | 6 => 30
  | 7 => 24
  | _ => 18

/-- Twice the periods per tick of a domain. -/
def State.domainHalves (s : State) (d : Nat) : Nat :=
  if d < 16 then stepHalves (s.region d).step
  else if d < 20 then 40
  else match d with
    | 20 => 68
    | 21 => 24
    | 22 => 25
    | 23 => 10
    | _ => 2

/-- The accumulator modulus M = 4N (R282). -/
def State.modulus (s : State) (d : Nat) : Nat := 2 * s.domainHalves d

/-! ## One panel tick (R275, R283, R64, R585) -/

/-- A tick of a domain's accumulator: its phase is kept, a deficit is absorbed before the integer goes on (R283, R284). -/
def tickDomain (M : Nat) (v : Domain) : Domain :=
  let q := v.phase * 256 + M * 256
  let phase := v.phase + v.pend
  let v := { v with burst := 0, pend := 0, gateLeft := 0, gatedPeriods := satAdd v.gatedPeriods (min v.gateLeft (M / 4)),
                    ticks := v.ticks + phase / M, phase := phase % M }
  if v.deficit = 0 then { v with ticks := v.ticks + 1 }
  else if q ≤ v.deficit * M then { v with deficit := v.deficit - 256 }
  else { v with ticks := v.ticks + (q - v.deficit * M) / (256 * M), phase := (q - v.deficit * M) % (256 * M) / 256, deficit := 0 }

/-- The periods a region runs in a tick, those of a droop gate apart. -/
def periodsOf (gated : Nat) (v : Region) : Nat := (v.halfPeriods + stepHalves v.step) / 2 - gated

/-- The periods of a tick that budget gating takes: one in every 8, 4 or 2 (R472). -/
def budgetGated (gated : Nat) (v : Region) : Nat :=
  if v.pstate = .run ∧ v.budget.gating ≠ 0 then (v.gateCount + periodsOf gated v) / v.budget.gating else 0

/-- The periods of a tick counted in a region whose clocks run: those not gated (R64, R283, R472). -/
def tickRegion (gated : Nat) (v : Region) : Region :=
  if v.pstate = .run then
    { v with cycle := satAdd v.cycle (periodsOf gated v - budgetGated gated v), halfPeriods := (v.halfPeriods + stepHalves v.step) % 2,
             gateCount := if v.budget.gating = 0 then 0 else (v.gateCount + periodsOf gated v) % v.budget.gating }
  else v

/-- A waiting cluster counts the tick (R585). -/
def tickCluster (v : Cluster) : Cluster :=
  if v.st = .waiting then { v with cnt := { v.cnt with waitTicks := satInc v.cnt.waitTicks } } else v

/-- One panel tick passes: what step does on an empty queue (notes/assumptions/1.md). -/
def State.tick (s : State) : State :=
  if s.tb.running then
    let gated := fun r => min (s.domain r).gateLeft (stepHalves (s.region r).step / 2)
    let t := { s with tb := { s.tb with now := s.tb.now + 1 },
                      clusters := Tbl.mapVal (fun _ => {}) (fun _ v => tickCluster v) s.clusters }
    let t := (List.range 16).foldl (fun (t : State) r => (t.modDomain r (fun v =>
      { v with gatedPeriods := satAdd v.gatedPeriods (budgetGated (gated r) (s.region r)) })).modRegion r (tickRegion (gated r))) t
    (List.range 25).foldl (fun (t : State) d => t.modDomain d (tickDomain (s.modulus d))) t
  else s

/-! ## References (Tables 9.1 and 9.2) -/

def RefState.code : RefState → Nat
  | .freerun => 0
  | .acquire => 1
  | .locked => 2
  | .holdover => 3

/-- Whether a reference is qualified: false is A, true is B. -/
def Timebase.qualified (v : Timebase) (b : Bool) : Bool := if b then v.bQualified else v.aQualified

/-- Whether some reference is on its way to being qualified. -/
def Timebase.qualifying (v : Timebase) : Bool := decide (0 < v.tenWindows) || decide (0 < v.ppsGood) || decide (0 < v.ptpGood)

/-- The state and source after a change of qualification (R272, R273). -/
def Timebase.choose (v : Timebase) : Timebase :=
  let other := !v.primary
  match v.ref with
  | .locked =>
    if v.qualified v.source then v
    else if v.qualified (!v.source) then { v with source := !v.source }
    else { v with ref := .holdover }
  | _ =>
    if v.qualified v.primary then { v with ref := .locked, source := v.primary }
    else if v.qualified other then { v with ref := .locked, source := other }
    else match v.ref with
      | .holdover => v
      | _ => { v with ref := if v.qualifying then .acquire else .freerun }

/-- Since when the primary reference has been qualified (R273). -/
def Timebase.trackPrimary (v : Timebase) : Timebase :=
  { v with primarySince := if v.qualified v.primary then some (v.primarySince.getD v.now) else none }

/-- The tick fails at every receiver: the panel goes to Hold and the error is device-fatal (R302). -/
def State.tickLossAll (s : State) : State :=
  ({ s with tb := { s.tb with running := false } }.allRegions (holdRegion .tick)).deviceFatal 0x5505 { detail := [24] }

/-- The timebase with its references as given: a change of state is logged, and with TB_XO lost no state but LOCKED has
a tick (R272, R302, Table 20.3). -/
def State.setTimebase (s : State) (v : Timebase) : State :=
  let w := v.choose.trackPrimary
  let t := { s with tb := w }
  let t := if w.ref = s.tb.ref then t else t.note 0x0501 { detail := [s.tb.ref.code, w.ref.code] }
  if w.xoLost && decide (w.ref ≠ .locked) && w.running then t.tickLossAll else t

/-- A 63-bit offset register as the signed number it stands for. -/
def Timebase.offset (v : Timebase) : Int := v.epochOffset.toInt

/-- The epoch offset written; a later change is logged (R276, R277). -/
def State.setOffset (s : State) (o : Int) : State :=
  let t := { s with tb := { s.tb with epochOffset := BitVec.ofInt 63 o, epochValid := true } }
  if s.tb.epochValid && decide (s.tb.offset ≠ o) then
    t.note 0x0502 { detail := [s.tb.epochOffset.toNat, (BitVec.ofInt 63 o).toNat] } else t

/-- Reference A is disqualified. -/
def Timebase.dropTen (v : Timebase) : Timebase :=
  { v with tenWindows := 0, tenQualified := false, ppsGood := 0, ppsBad := 0, ppsExpected := none, aQualified := false }

/-- Reference B is disqualified. -/
def Timebase.dropPtp (v : Timebase) : Timebase := { v with bQualified := false, ptpGood := 0, ptpPast := [] }

/-- A 10 ms window of REF_10M: in range within ±50 ppm; three in a row qualify it, one out of range disqualifies it. -/
def execRef10mWindow (ppm : Int) (s : State) : Result :=
  if s.tb.running = false then .next s
  else if ppm.natAbs ≤ 50 then
    let n := min 3 (s.tb.tenWindows + 1)
    .next (s.setTimebase { s.tb with tenWindows := n, tenQualified := s.tb.tenQualified || n == 3 })
  else .next (s.setTimebase { s.tb.dropTen with aDiscards := satInc s.tb.aDiscards })

def execRef10mEdgeLoss (s : State) : Result := .next (s.setTimebase s.tb.dropTen)

/-- A pulse discarded, or an expected one missing: the third in a row disqualifies reference A. -/
def Timebase.ppsFail (v : Timebase) : Timebase :=
  let bad := v.ppsBad + 1
  { v with ppsBad := bad, ppsGood := 0, aQualified := v.aQualified && decide (bad < 3) }

/-- How far the TAI second boundary lies from a panel time, to the nearest second, in ticks. -/
def secondError (now : Nat) (o : Int) : Int :=
  let m := ((now : Int) + o).emod ticksPerS
  if 2 * m ≤ ticksPerS then m else m - ticksPerS

/-- An accepted pulse sets or keeps the epoch offset under reference A (R276, R277). -/
def State.ppsEpoch (s : State) (first : Bool) : State :=
  if s.tb.todWritten then
    { s with tb := { s.tb with todWritten := false } }.setOffset ((s.tb.todSet.toNat : Int) * ticksPerS - s.tb.now)
  else if s.tb.epochValid && decide (s.tb.ref = .locked) && !s.tb.source then
    let e := secondError s.tb.now s.tb.offset
    if first || 1000 < e.natAbs then s.setOffset (s.tb.offset - e) else s
  else s

/-- A PPS pulse: the first after REF_10M qualifies sets the expected phase; another is accepted within ±100 ticks of
it; `frac` is its phase within the tick, which steering removes (R271, R277). -/
def execRefPpsPulse (frac : Int) (s : State) : Result :=
  let v := s.tb
  if v.running = false then .next s
  else if v.tenQualified = false then .next { s with tb := { v with aDiscards := satInc v.aDiscards } }
  else match v.ppsExpected with
    | none => .next { s with tb := { v with ppsExpected := some (v.now + ticksPerS) } }
    | some e =>
      if v.now ≤ e + 100 ∧ e ≤ v.now + 100 then
        let n := min 3 (v.ppsGood + 1)
        let was := v.aQualified
        let t := s.setTimebase { v with ppsGood := n, ppsBad := 0, ppsExpected := some (v.now + ticksPerS), steering := frac,
                                        aQualified := v.aQualified || n == 3 }
        .next (t.ppsEpoch (t.tb.aQualified && !was))
      else .next (s.setTimebase { v.ppsFail with aDiscards := satInc v.aDiscards })

/-- The window of an expected pulse ends without it. -/
def execRefPpsMissing (s : State) : Result :=
  match s.tb.ppsExpected with
  | some e => if e + 100 < s.tb.now then .next (s.setTimebase { s.tb.ppsFail with ppsExpected := some (e + ticksPerS) }) else .next s
  | none => .next s

/-- A PTP sample: `offset` is TAI minus panel time in ticks; it is discarded more than 100 ticks from the prediction or
with a path delay above 100 µs; 16 in a row qualify (R270, R271, R276, R277). -/
def execPtpSample (offset : Int) (delayNs : Nat) (clockClass : Nat) (s : State) : Result :=
  let v := s.tb
  if v.running = false ∨ clockClass = 248 ∨ clockClass = 255 then .next s
  else
    let off := !v.ptpPast.isEmpty && decide (100 < (offset - Config.ptpPredict v.ptpPast).natAbs)
    if off || decide (100000 < delayNs) then
      .next (s.setTimebase { v with bDiscards := satInc v.bDiscards, ptpGood := 0 })
    else
      let n := min 16 (v.ptpGood + 1)
      let past := v.ptpPast ++ [offset]
      let t := s.setTimebase { v with ptpGood := n, lastPtp := v.now, ptpPast := past.drop (past.length - 8),
                                      bQualified := v.bQualified || n == 16 }
      if t.tb.bQualified && (!v.bQualified || (t.tb.source && decide (t.tb.ref = .locked) && decide (1000 < (offset - v.offset).natAbs)))
      then .next (t.setOffset offset) else .next t

def execPtpSampleTimeout (s : State) : Result :=
  if s.tb.bQualified && decide (s.tb.lastPtp + 4 * ticksPerS ≤ s.tb.now) then .next (s.setTimebase s.tb.dropPtp) else .next s

/-- The timebase returns to the primary after it has been qualified for 60 s, where revert is set (R273). -/
def execReferenceRevert (s : State) : Result :=
  match s.tb.primarySince with
  | some t => if s.tb.ref = .locked ∧ s.tb.source ≠ s.tb.primary ∧ s.tb.revert ∧ t + 60 * ticksPerS ≤ s.tb.now then
      .next { s with tb := { s.tb with source := s.tb.primary } } else .next s
  | none => .next s

def execTbsTodSet (second : BitVec 48) (s : State) : Result :=
  .next { s with tb := { s.tb with todSet := second, todWritten := true } }

/-- TB_XO without an edge for 1 µs (Table 20.3). -/
def execTbXoEdgeLoss (s : State) : Result :=
  .next ((s.note 0x1504 { detail := [24] }).setTimebase { s.tb with xoLost := true })

/-! ## Beacons (R280, R284, R301) -/

def beaconTime (w : BitVec 96) : Nat := bitsOf w 63 0

/-- Whether a domain takes a beacon (R280). -/
def beaconValid (v : Domain) (w : BitVec 96) : Bool :=
  (crc16 (bytesOf w 10)).toNat == bitsOf w 95 80 && bitsOf w 79 68 == 0 &&
  (match v.lastBeacon with
   | none => true
   | some t => beaconTime w == t + 1024)

/-- The accumulator in units of 1/256 tick, its deficit apart. -/
def rawTime (M : Nat) (v : Domain) : Nat := v.ticks * 256 + v.phase * 256 / max 1 M

/-- The correction of R284: the integer never decreases. -/
def correct (M : Nat) (w : BitVec 96) (v : Domain) : Domain :=
  let target := beaconTime w * 256 + v.treeDelay.toNat
  let raw := rawTime M v
  let v := { v with lastBeacon := some (beaconTime w), missed := 0, pend := 0 }
  if raw ≤ target then { v with ticks := target / 256, phase := target % 256 * M / 256, deficit := 0 }
  else { v with deficit := raw - target }

/-- How far off the accumulator was, in 1/256 tick. -/
def beaconError (M : Nat) (w : BitVec 96) (v : Domain) : Nat :=
  ((beaconTime w * 256 + v.treeDelay.toNat : Int) - ((rawTime M v : Int) - v.deficit)).natAbs


/-- Beacons that a domain has missed by the panel time. -/
def State.beaconsMissed (s : State) (d : Nat) : Nat := match (s.domain d).lastBeacon with
  | some t => (s.now - t) / 1024
  | none => 0

def execBeaconMiss (d : Nat) (s : State) : Result :=
  let n := s.beaconsMissed d
  if d < 25 ∧ (s.domain d).tickLost = false ∧ 3 ≤ n ∧ (s.domain d).missed < 3 then
    .next ((s.modDomain d (fun v => { v with missed := n })).note 0x1504 { region := if d < 16 then d else 31, detail := [d] })
  else .next s

/-- After 100 missed beacons a region is to be retired at its boundary; a fixed domain is device-fatal (R301). -/
def execBeaconMissRetire (d : Nat) (s : State) : Result :=
  if d < 25 ∧ (s.domain d).tickLost = false ∧ 100 ≤ s.beaconsMissed d ∧ (s.domain d).missed < 100 then
    let t := s.modDomain d (fun v => { v with missed := 100 })
    if d < 16 then .next (t.orderRetire d)
    else .next (t.deviceFatal 0x5505 { detail := [d] })
  else .next s

/-- A domain loses its tick clock and enters Hold; none names all receivers at once (R302). -/
def execTickLoss (d : Option Nat) (s : State) : Result :=
  match d with
  | none => .next (if s.tb.running then s.tickLossAll else s)
  | some d =>
    let t := s.modDomain d (fun v => { v with tickLost := true, hold := decide (16 ≤ d) || v.hold })
    .next (if d < 16 then t.modRegion d (holdRegion .tick) else t)

/-! ## Crossings (Table 9.8, R291 to R297) -/

/-- The region and the other side of crossing x, where it is present. -/
def crossingRegion (x : Nat) : Nat :=
  if x < 64 then x / 4 else if x < 192 then x % 16 else if x < 204 then dieRegion (x - 192) else dieRegion (x - 208)
def crossingPresent (x : Nat) : Bool :=
  if x < 64 then (neighbour (x / 4) (x % 4)).isSome
  else decide (x < 204) || (decide (208 ≤ x) && decide (x < 220))

/-- The sending and receiving domain of crossing x. -/
def edgeDomain (die : Nat) : Nat := 16 + ([0, 0, 1, 1, 2, 2, 3, 3, 0, 1, 2, 3].getD die 0)
def fixedOf (k : Nat) : Nat := [22, 22, 21, 21, 20, 20, 23, 23].getD k 23
def crossingTx (x : Nat) : Nat :=
  if x < 64 then (neighbour (x / 4) (x % 4)).getD 0
  else if x < 192 then (if (x - 64) / 16 % 2 = 0 then fixedOf ((x - 64) / 16) else x % 16)
  else if x < 204 then edgeDomain (x - 192) else dieRegion (x - 208)
def crossingRx (x : Nat) : Nat :=
  if x < 64 then x / 4
  else if x < 192 then (if (x - 64) / 16 % 2 = 0 then x % 16 else fixedOf ((x - 64) / 16))
  else if x < 204 then dieRegion (x - 192) else edgeDomain (x - 208)

/-- The step a crossing entry records for a domain: 15 for a fixed one (Table 9.9). -/
def State.stepCode (s : State) (d : Nat) : Nat := if d < 16 then (s.region d).step else 15

/-- The crossings a region touches. -/
def crossingsOf (r : Nat) : List Nat :=
  (List.range 220).filter (fun x => crossingPresent x && (crossingTx x == r || crossingRx x == r))

/-- A calibration of a crossing begins. -/
def startCalibration (v : Crossing) : Crossing :=
  if v.outOfService then v else { v with calibrating := true, best := none, retryAtBeacon := false }

def State.calibrateAround (s : State) (r : Nat) : State :=
  (crossingsOf r).foldl (fun (s : State) x => s.modXing x startCalibration) s

/-- A crossing calibration's markers: with at least 24 kept, L is two above the largest record, and at least 3 (R292). -/
def measure (markers : List Nat) (v : Crossing) : Crossing :=
  if 24 ≤ markers.length then { v with best := some (max 3 (markers.foldl max 0 + 2)) } else { v with best := none }

/-- Whether a calibration of crossing x is under way: one that failed waits for the next beacon. -/
def State.measuring (s : State) (x : Nat) : Bool := crossingPresent x && (s.xing x).calibrating && !(s.xing x).retryAtBeacon

def execCrossingCalibration (x : Nat) (markers : List Nat) (s : State) : Result :=
  if s.measuring x then .next (s.modXing x (measure markers)) else .next s

/-- A step change whose crossings are all calibrated is complete (Table 9.7). -/
def State.settleChange (s : State) (r : Nat) : State :=
  match (s.region r).change with
  | some c => if c.stage = 2 && (crossingsOf r).all (fun x => !(s.xing x).calibrating) then
      s.modRegion r (fun v => { v with change := none }) else s
  | none => s

/-- A crossing out of service, with what R293 says follows. -/
def State.loseCrossing (s : State) (x : Nat) : State :=
  let r := crossingRegion x
  let t := s.modXing x (fun v => { v with outOfService := true, calibrating := false })
  if x < 64 then t.exhaustLink r (x % 4)
  else if x < 192 then t.orderRetire r
  else t.exhaustLink r 34

/-- A calibration ends: L is stored, or it failed, and is tried again at the next beacon, once (R292, R293). -/
def State.endCalibration (s : State) (x : Nat) : State :=
  let v := s.xing x
  let n := min 15 (v.attempts + 1)
  let good := match v.best with
    | some l => decide (l ≤ 12)
    | none => false
  if good then
    s.setXing x { v with latency := v.best.getD 3, attempts := n, calibrating := false, failures := 0, retryAtBeacon := false,
                         txStep := s.stepCode (crossingTx x), rxStep := s.stepCode (crossingRx x) }
  else if v.failures = 0 then s.setXing x { v with attempts := n, failures := 1, best := none, retryAtBeacon := true }
  else (s.setXing x { v with attempts := n, failures := 2 }).loseCrossing x

/-- At a beacon the crossings into a domain whose calibration failed once are calibrated again (R293). -/
def State.retryCrossings (s : State) (d : Nat) : State :=
  ((List.range 220).filter (fun x => crossingPresent x && crossingRx x == d && (s.xing x).retryAtBeacon)).foldl
    (fun (t : State) x => t.modXing x startCalibration) s

/-- A beacon strobe: a valid one corrects the accumulator (R280, R284). -/
def execBeaconStrobe (d : Nat) (word : BitVec 96) (s : State) : Result :=
  let v := s.domain d
  if 25 ≤ d || v.tickLost || v.outOfService then .next s
  else if beaconValid v word then
    let M := s.modulus d
    let t := s.retryCrossings d
    if 512 < beaconError M word v then
      .next ((t.setDomain d { correct M word v with large := satInc v.large }).note 0x0503
        { region := if d < 16 then d else 31, detail := [d, beaconError M word v] })
    else .next (t.setDomain d (correct M word v))
  else .next (s.setDomain d { v with ignored := satInc v.ignored })

def execCrossingCalibrationEnd (x : Nat) (s : State) : Result :=
  if s.measuring x then
    let t := s.endCalibration x
    .next ((List.range 16).foldl (fun (t : State) r => t.settleChange r) t)
  else .next s

/-- A slip counted and, the first in a beacon interval, logged (R296, R297). -/
def slipped (now late : Nat) (v : Crossing) : Crossing :=
  { v with slips := min 0xFFFFFFFF (v.slips + 1), maxSlip := min 255 (max v.maxSlip late), logged := some (now / 1024) }

def execCrossingWordRelease (x late : Nat) (s : State) : Result :=
  if late = 0 ∨ crossingPresent x = false then .next s
  else
    let t := s.modXing x (slipped s.now late)
    if (s.xing x).logged = some (s.now / 1024) then .next t
    else .next (t.note 0x0506 { region := crossingRegion x, detail := [x, late] })

/-! ## Step changes (Table 9.7, R287) -/

/-- The fused set points of a region and step, in 5 mV units (Table 21.9). -/
def State.setPoints (s : State) (r step : Nat) : List Nat :=
  let w := s.reg (0x700000 + (r * 9 + step) * 8)
  [bitsOf w 7 0, bitsOf w 15 8, bitsOf w 23 16]

/-- Ticks until the set points of a higher step are reached at 0.2 V/µs, rounded up. -/
def State.riseTicks (s : State) (r a b : Nat) : Nat :=
  let up := ((s.setPoints r b).zip (s.setPoints r a)).map (fun p => p.1 - p.2)
  ((up.foldl max 0) * 5 + 1) / 2

/-- A region begins a step change (R285, R286). -/
def State.startChange (s : State) (r step : Nat) : State :=
  if (s.region r).change.isSome || (s.region r).step == step then s
  else s.modRegion r (fun v => { v with change := some { target := step, stage := 0, started := s.now } })

/-- 1.00 µs after the command the idle PLL is locked, and the crossings stop accepting words. -/
def execStepChangePllLocked (r : Nat) (s : State) : Result :=
  match (s.region r).change with
  | some c => if c.stage = 0 ∧ c.started + 100 ≤ s.now then
      .next (s.modRegion r (fun v => { v with change := some { c with stage := 1 } })) else .next s
  | none => .next s

/-- The clock switches at 1.05 µs, or once the set points are reached: the accumulator rescales its phase to the new
modulus, and calibration of the crossings begins. -/
def execClockSwitch (r : Nat) (s : State) : Result :=
  match (s.region r).change with
  | some c =>
    if c.stage = 1 ∧ c.started + max 105 (s.riseTicks r (s.region r).step c.target) ≤ s.now then
      let M := s.modulus r
      let t := s.modRegion r (fun v => { v with step := c.target, change := some { c with stage := 2 } })
      .next ((t.modDomain r (fun v => { v with phase := v.phase * t.modulus r / max 1 M })).calibrateAround r)
    else .next s
  | none => .next s

/-! ## Stretching and the droop gate (R288, R289) -/

/-- One stretched period, or, after eight in a row, a droop gate. -/
def stretch (deep : Bool) (v : Domain) : Domain :=
  if 8 ≤ v.burst then
    (if v.gateLeft = 0 then { v with droopGates := satInc v.droopGates, gateLeft := 64 } else v)
  else if deep then { v with burst := v.burst + 1, pend := v.pend + 2, stretch150 := satInc v.stretch150 }
  else { v with burst := v.burst + 1, pend := v.pend + 1, stretch125 := satInc v.stretch125 }

def execDroopStretch (d : Nat) (deep : Bool) (s : State) : Result :=
  if 24 ≤ d then .next s else .next (s.modDomain d (stretch deep))

/-- The third droop Hold of a region within 1 ms ends its partition's running step as a contained error (R289). -/
def State.thirdDroop (s : State) (r : Nat) : State :=
  let t := s.modRegion r (fun v => { v with droopLower := true })
  match (s.region r).part with
  | some p => t.raise 0x2509 { region := r, part := p, ctx := ((s.part p).running.map RunStep.ctx), detail := [r] }
  | none => t.note 0x2509 { region := r, detail := [r] }

/-- Droop for 64 gated periods: the domain enters Hold (R289). -/
def execDroopGateExpiry (d : Nat) (s : State) : Result :=
  if 24 ≤ d || (s.domain d).gateLeft == 0 then .next s
  else
    let t := s.modDomain d (fun v => { v with gateLeft := 0, burst := 0, gatedPeriods := satAdd v.gatedPeriods 64 })
    if d < 16 then
      let times := ((s.region d).droopHolds.filter (fun k => decide (s.now < k + ticksPerMs))) ++ [s.now]
      let t := ((t.modRegion d (holdRegion .droop)).modRegion d (fun v => { v with droopHolds := times })).note 0x1508
        { region := d, part := ((s.region d).part).getD 31, detail := [d] }
      .next (if 3 ≤ times.length then t.thirdDroop d else t)
    else .next ((t.modDomain d (fun v => { v with hold := true })).note 0x1508 { detail := [d] })

/-- The remote sense shows the set point recovered (R289). -/
def execDroopHoldExit (d : Nat) (s : State) : Result :=
  if d < 16 then .next (s.modRegion d (releaseRegion .droop)) else .next (s.modDomain d (fun v => { v with hold := false }))

end Sys2Proof.Machine
end

