-- ==== Sys2Proof/Machine/Budget.lean ====
section
/-! DEFINITION. Forecasts of power and temperature and the step a steward chooses by them (16, 17), in exact integers:
power in units of 1 W / 780,300,000. -/

namespace Sys2Proof.Machine

open Sys2Proof

/-- Units of power in one watt: with f in 10 MHz and V in 5 mV, k(s) × 4.2 W ÷ 15 is 28 f V² of these (R471). -/
def wattUnits : Nat := 780300000

/-- The clock of a frequency step in 10 MHz (Table 9.5). -/
def stepFreq (step : Nat) : Nat := stepHalves step * 5

/-- Cluster c's share of the forecast at a step: its live hint, or its mean power over the last 100 µs (R471, R213). -/
def State.clusterShare (s : State) (c step : Nat) : Nat :=
  let v := s.cl c
  if s.now < v.hintUntil then
    v.hintLevel.toNat * stepFreq step * (((s.setPoints (regionOf c) step).headD 0) ^ 2) * 28
  else Config.meanW c s.now * (wattUnits / 1000)

/-- The forecast of region r at a step (R471). -/
def State.forecast (s : State) (r step : Nat) : Nat :=
  Config.baseW r step * wattUnits + ((clustersOfRegion r).map (fun c => s.clusterShare c step)).sum

/-! ## Hot spots (R492, R497) -/

/-- The hot spot of a position of a compute chiplet (R492). -/
def hotSpotOf (p : Nat) : Nat := if p / 3 ≤ 1 then 0 else if p / 3 = 2 then 1 else if p / 3 = 3 then 2 else 3

/-- The logical clusters of a hot spot. -/
def State.hotClusters (s : State) (r site h : Nat) : List Nat :=
  (clustersOfRegion r).filter (fun c =>
    let e := s.cmapEntry r (localOf c)
    entryState e != 2 && entrySite e == site && hotSpotOf (entryPos e) == h)

/-- The throttle and warn thresholds in °C (THM_THRESH). -/
def State.warnC (s : State) : Nat := bitsOf (s.reg 0x800018) 6 0
def State.throttleC (s : State) : Nat := bitsOf (s.reg 0x800018) 14 8
def State.hbmWarnC (s : State) : Nat := bitsOf (s.reg 0x800018) 22 16
def State.hbmThrottleC (s : State) : Nat := bitsOf (s.reg 0x800018) 30 24

/-- A hot spot's predicted temperature at a step, in mK × 780,300,000 (R497); its filtered reading is in 0.125 °C. -/
def State.predict (s : State) (r site h step : Nat) (v : HotSpot) : Int :=
  let cs := s.hotClusters r site h
  let fc : Nat := (cs.map (fun c => s.clusterShare c step)).sum
  let ms : Nat := (cs.map (fun c => Config.meanW c s.now * (wattUnits / 1000))).sum
  v.filtered * 125 * wattUnits + Config.theta r site h * ((fc : Int) - ms)

/-- The lowest step number the region's own sensors allow: its thermal cap, or step 8 while a hot spot has no valid
sensor (Table 17.3, R495). -/
def Region.cap (v : Region) : Nat := if v.hot.any (fun e => e.2.blind) then 8 else min 8 v.thermalCap

/-- Whether every hot spot of region r is predicted below throttle − 2 K at a step. -/
def State.coolAt (s : State) (r step : Nat) : Bool :=
  (s.region r).hot.all (fun e => decide (s.predict r (e.1 / 4) (e.1 % 4) step e.2 < ((s.throttleC : Int) - 2) * 1000 * wattUnits))

/-- The first step number from `lo` on, `n` of them left, at which `p` holds; 8 where none does. -/
def firstStep (p : Nat → Bool) : (n lo : Nat) → Nat
  | 0, _ => 8
  | n + 1, lo => if p lo then lo else firstStep p n (lo + 1)

/-- The cap the forecast of R497 sets for a boundary. -/
def State.forecastCap (s : State) (r : Nat) : Nat := firstStep (s.coolAt r) 9 0

/-! ## The step a steward chooses (R472, R289, R497) -/

/-- The step region r takes at a boundary: the lowest number, not below max_step and the caps, whose forecast fits the
grant; two lower than now after a third droop Hold; at or above step 8 there is no lower. -/
def State.chosenStep (s : State) (r : Nat) : Nat :=
  let v := s.region r
  let lo := max (max v.budget.maxStep v.cap) (s.forecastCap r)
  let n := firstStep (fun k => decide (s.forecast r k ≤ v.budget.grant * wattUnits)) (9 - lo) lo
  if v.droopLower then min 8 (max n (v.step + 2)) else min 8 n

/-! ## Coolant (R502) -/

/-- Whether n / d of a total forecast (in units of power) is within P_allow: `flow2` is the projected flow in
0.05 L/min, `inlet` the inlet temperature in 0.125 °C; the 0.8th power is compared by fifth powers. -/
def coolantAllows (flow2 inlet total n d : Nat) : Bool :=
  decide ((total * n * 224) ^ 5 * 800 ^ 4 ≤ (26000 * wattUnits * d * (min 224 (480 - inlet))) ^ 5 * flow2 ^ 4) &&
  decide (total * n * 1600 ≤ 663 * flow2 * (384 - inlet) * wattUnits * d)

/-- The regions' forecasts together at a step. -/
def State.panelForecast (s : State) (step : Nat) : Nat := ((List.range 16).map (fun r => s.forecast r step)).sum

/-! ## Caps of the lease holder (R465, R467, R472, R480, R502) -/

/-- The partner of a region (16, "Rails and segments"). -/
def partnerOf (r : Nat) : Nat := r ^^^ 1

/-- Failed phases of a rail's range. -/
def failedIn (w : Word) (lo n : Nat) : Nat := ((List.range n).filter (fun k => bitOf w (lo + k))).length

/-- Whether Table 16.4 caps a region at step 3. -/
def phaseCapped (w : Word) : Bool :=
  decide (7 ≤ failedIn w 0 64) || decide (4 ≤ failedIn w 40 12) || decide (4 ≤ failedIn w 52 12)

/-- Whether Table 16.4 takes a region Dark. -/
def phaseDark (w : Word) : Bool :=
  decide (12 < failedIn w 0 64) || decide (6 < failedIn w 40 12) || decide (6 < failedIn w 52 12)

/-- The lowest step number the caps on region r's grant allow. -/
def State.capOf (s : State) (r : Nat) : Nat :=
  let v := s.region r
  let three := v.senseFault || (s.region (partnerOf r)).senseFault || phaseCapped v.phases || s.bpm.capSegs.contains (r / 2)
  max (max (if three then 3 else 0) v.cap) (min 8 ((if s.cool.cap = 15 then 0 else s.cool.cap) + s.cool.outletSteps))

end Sys2Proof.Machine
end

