-- ==== Sys2Proof/Machine/Layout.lean ====
section
/-! DEFINITION. Manifests and layouts (14, "Manifest", "Placement"), and how a step's program and cluster set resolve
through them. -/

namespace Sys2Proof.Machine

open Sys2Proof

/-- An entry of a layout record or of the common section (R417). -/
abbrev LEntry := BitVec 128

/-- Entry types of Table 14.4. -/
def leType (e : LEntry) : Nat := bitsOf e 7 0

/-- The entries of a type. -/
def entriesOf (l : List LEntry) (ty : Nat) : List LEntry := l.filter (fun e => leType e == ty)

/-- LAYOUT fields. -/
def layoutRegions (l : List LEntry) : Nat := ((entriesOf l 1).map (fun e => bitsOf e 12 8)).headD 0
def layoutRankCount (l : List LEntry) : Nat := ((entriesOf l 1).map (fun e => bitsOf e 25 13)).headD 0
def layoutIndex (l : List LEntry) : Nat := ((entriesOf l 1).map (fun e => bitsOf e 29 26)).headD 0

/-- The (ordinal, local) pairs of the ranks, in rank order. -/
def layoutRanks (l : List LEntry) : List (Nat × Nat) := (entriesOf l 2).map (fun e => (bitsOf e 11 8, bitsOf e 20 12))

/-- A run of ranks. -/
def rankRun (first n : Nat) : List Nat := (List.range n).map (first + ·)

/-- HANDLE fields: first_rank, ranks, handle, rows, wrap, tagged, format, rights. -/
def leHandleRanks (e : LEntry) : List Nat := rankRun (bitsOf e 20 8) (bitsOf e 33 21)
def leHandle (e : LEntry) : Nat := bitsOf e 39 34
def leHandleRows (e : LEntry) : Nat := bitsOf e 54 40
def leHandleFormat (e : LEntry) : Nat := bitsOf e 60 57
def leHandleRights (e : LEntry) : Nat := bitsOf e 66 61

/-- The handle entry a HANDLE entry gives on a cluster, at a base row, for a context (Tables 14.4 and 3.6). -/
def leEntry (e : LEntry) (x base : Nat) : HandleEntry :=
  BitVec.ofNat 256 (base + leHandleRows e * 2 ^ 15 + (bitOf e 55).toNat * 2 ^ 30 + (bitOf e 56).toNat * 2 ^ 31 +
    leHandleFormat e * 2 ^ 32 + leHandleRights e * 2 ^ 36 + x * 2 ^ 48)

/-- SPAN fields: span, ranks, handle, stripe. -/
def leSpan (e : LEntry) : Nat := bitsOf e 19 8
def leSpanRanks (e : LEntry) : List Nat := rankRun (bitsOf e 32 20) (bitsOf e 45 33)
def leSpanHandle (e : LEntry) : Nat := bitsOf e 51 46
def leSpanStripe (e : LEntry) : Nat := bitsOf e 66 52

/-- EXTENT fields. -/
def leShard (e : LEntry) : Nat := bitsOf e 23 8
def leFirstRow (e : LEntry) : Nat := bitsOf e 40 24
def leRows (e : LEntry) : Nat := bitsOf e 58 41
def leKind (e : LEntry) : Nat := bitsOf e 60 59
def leTarget (e : LEntry) : Nat := bitsOf e 72 61
def leRank (e : LEntry) : Nat := bitsOf e 85 73
def leDest (e : LEntry) : Nat := bitsOf e 127 86

/-- HBM_AREA fields. -/
def leArea (e : LEntry) : Nat := bitsOf e 11 8
def leAreaPages (e : LEntry) : Nat := bitsOf e 47 12

/-- The rank list of a set (R417): the ranges of its SET entries, in their order. -/
def setRanks (l : List LEntry) (n : Nat) : List Nat :=
  ((entriesOf l 8).filter (fun e => bitsOf e 23 8 == n)).flatMap (fun e => rankRun (bitsOf e 36 24) (bitsOf e 49 37))

/-- Whether a layout's tables hold a set, or a program. -/
def hasSet (l : List LEntry) (n : Nat) : Bool := (entriesOf l 8).any (fun e => bitsOf e 23 8 == n)
def programOf (l : List LEntry) (n : Nat) : Option LEntry := (entriesOf l 7).find? (fun e => bitsOf e 23 8 == n)

/-! ## Placement (R419) -/

/-- A partition's regions in ascending number. -/
def Part.sorted (v : Part) : List Nat := sortNat v.regions

/-- The logical cluster of a rank on partition p, if the partition has its region. -/
def State.rankCluster (s : State) (p : Nat) (l : List LEntry) (k : Nat) : Option Nat :=
  match (layoutRanks l)[k]? with
  | some (o, i) => ((s.part p).sorted[o]?).map (fun r => clusterAt r i)
  | none => none

/-- The logical clusters of all ranks, in rank order; those without a region are left out. -/
def State.rankClusters (s : State) (p : Nat) (l : List LEntry) : List Nat :=
  (List.range (layoutRanks l).length).filterMap (s.rankCluster p l)

/-- Whether a layout resolves on partition p: it has the regions, all in service, and no position is vacant. -/
def State.layoutFits (s : State) (p : Nat) (l : List LEntry) : Bool :=
  decide (layoutRegions l ≤ (s.part p).regions.length) &&
  (List.range (layoutRanks l).length).all (fun k => match s.rankCluster p l k with
    | some c => !s.vacant c && (s.region (regionOf c)).inService
    | none => false)

/-- The positions of a layout that are vacant on partition p. -/
def State.vacancies (s : State) (p : Nat) (l : List LEntry) : List Nat := (s.rankClusters p l).filter s.vacant

/-- A layout of a slot's image. -/
def Slot.layoutOf (v : Slot) (i : Nat) : Option (List LEntry) := v.image.bind (fun m => m.manifest.layouts[i]?)

/-- The layout a slot is placed by. -/
def Slot.placed (v : Slot) : List LEntry := (v.layoutOf v.layout).getD []

def State.slot (s : State) (x n : Nat) : Slot := Tbl.get (fun _ => {}) (s.ctx x).slots n
def State.setSlot (s : State) (x n : Nat) (v : Slot) : State :=
  s.modCtx x (fun c => { c with slots := Tbl.set (fun _ => {}) c.slots n v })
def State.modSlot (s : State) (x n : Nat) (f : Slot → Slot) : State := s.setSlot x n (f (s.slot x n))

/-- The slot of context x that runs steps of a weight epoch (R429). -/
def State.slotOfEpoch (s : State) (x e : Nat) : Option Nat :=
  ((s.ctx x).slots.find? (fun t => t.2.epoch == e && (decide (t.2.state = .current) || decide (t.2.state = .retiring)))).map Prod.fst

/-- The CURRENT slot of a context. -/
def State.currentSlot (s : State) (x : Nat) : Option Nat :=
  ((s.ctx x).slots.find? (fun t => decide (t.2.state = .current))).map Prod.fst

/-- STEP_LAUNCH fields (Table 13.7). -/
def dProgram (d : Desc) : Nat := bitsOf d 79 64
def dSet (d : Desc) : Nat := bitsOf d 95 80
def dStill (d : Desc) : Bool := bitOf d 96
def dHintLevel (d : Desc) : Nat := bitsOf d 100 97
def dHintTicks (d : Desc) : Nat := bitsOf d 191 160
def dArg (d : Desc) (i : Nat) : Word := d.extractLsb' (192 + 64 * i) 64

/-- Whether a launch resolves: its program and set lie in the tables of the layout of its epoch's slot, and an image
with still set takes only Still-mode launches (R397, R429). -/
def State.launchOk (s : State) (x e : Nat) (d : Desc) : Bool :=
  match s.slotOfEpoch x e with
  | none => false
  | some n =>
    let v := s.slot x n
    (programOf v.placed (dProgram d)).isSome && hasSet v.placed (dSet d) && (!v.still || dStill d)

/-- The clusters a launch's set resolves to, in the order of their ranks in the set (R304, R417). -/
def State.launchClusters (s : State) (x e : Nat) (d : Desc) : List Nat :=
  match s.slotOfEpoch x e with
  | none => []
  | some n => (setRanks (s.slot x n).placed (dSet d)).filterMap (s.rankCluster (s.ctx x).part (s.slot x n).placed)

/-- Whether every position a launch uses is there (R29, R304). -/
def State.launchPlaced (s : State) (x e : Nat) (d : Desc) : Bool :=
  match s.slotOfEpoch x e with
  | none => false
  | some n =>
    let l := (s.slot x n).placed
    (setRanks l (dSet d)).all (fun k => match s.rankCluster (s.ctx x).part l k with
      | some c => !s.vacant c && (s.region (regionOf c)).inService
      | none => false)

/-- Where the code of a launch lies, and its length (Table 14.4). -/
def State.launchCode (s : State) (x e : Nat) (d : Desc) : CodeSrc × Nat :=
  match s.slotOfEpoch x e with
  | none => (.none, 0)
  | some n =>
    let v := s.slot x n
    match programOf v.placed (dProgram d) with
    | none => (.none, 0)
    | some pe =>
      if bitsOf pe 25 24 = 0 then (.tarn (bitsOf pe 31 26), bitsOf pe 67 36)
      else (.hbm (v.areas.getD (bitsOf pe 35 32) 0 + bitsOf pe 111 68), bitsOf pe 67 36)

end Sys2Proof.Machine
end

