-- ==== Sys2Proof/Machine/Descr.lean ====
section
/-! DEFINITION. Submission descriptors (13, "Descriptors"): the header, the reserved bits of every body, rejection,
and the order in which descriptors start. -/

namespace Sys2Proof.Machine

open Sys2Proof

/-- Header fields (Table 13.4). -/
def dType (d : Desc) : Nat := bitsOf d 7 0
def dFence (d : Desc) : Bool := bitOf d 8
def dContext (d : Desc) : Nat := bitsOf d 25 16

/-- The CONTEXT_CTL operation code (R403). -/
def dOp (d : Desc) : Nat := bitsOf d 71 64

/-- Whether the bits [hi:lo] of a descriptor are zero, over a list of fields. -/
def zeroFields (d : Desc) (fs : List (Nat × Nat)) : Bool := fs.all (fun f => bitsOf d f.1 f.2 == 0)

/-- The reserved fields of a CONTEXT_CTL operation: every bit its arguments do not use (Table 13.9). -/
def ctlReserved (op : Nat) : List (Nat × Nat) :=
  match op with
  | 1 => [(255, 136), (511, 320)]
  | 2 => [(511, 152)]
  | 3 => [(143, 141), (255, 150)]
  | 4 => [(191, 140), (511, 244)]
  | 5 => [(143, 141), (151, 150), (191, 154), (511, 244)]
  | 6 => [(143, 141), (511, 150)]
  | 7 => [(191, 128), (255, 244), (511, 289)]
  | 8 => [(191, 128), (255, 244), (511, 288)]
  | 9 => [(143, 137), (191, 150), (511, 244)]
  | _ => [(511, 128)]

/-- The reserved fields of a descriptor (Tables 13.4, 13.7 to 13.11). -/
def reservedFields (d : Desc) : List (Nat × Nat) :=
  [(15, 10), (31, 26)] ++
  match dType d with
  | 0 => [(511, 64)]
  | 1 => [(159, 101), (511, 448)]
  | 2 => [(127, 116), (191, 180), (255, 240), (335, 335), (351, 340), (415, 404), (511, 468)]
  | 3 => [(127, 116), (511, 137)]
  | 4 => [(127, 64), (511, 144)]
  | 5 => [(127, 116), (511, 192)]
  | 6 => [(511, 128)]
  | 7 => (127, 72) :: ctlReserved (dOp d)
  | _ => [(511, 65)]

/-- Why the header rejects a descriptor, if it does (R393, R403). -/
def headerCode (owner : Nat) (d : Desc) : Option Nat :=
  if 8 < dType d ∨ (dType d = 7 ∧ (dOp d = 0 ∨ 0xA < dOp d)) then some 0x0810
  else if zeroFields d (reservedFields d) = false then some 0x0811
  else if dContext d ≠ owner then some 0x0812
  else none

/-- A descriptor is rejected: the event names its byte offset in its ring, and the completion carries the code (R393,
R403, Table 20.2). -/
def State.rejectDesc (s : State) (q k code result : Nat) : State :=
  let x := (s.qp q).ctx
  (s.note code { part := (s.ctx x).part, ctx := some x, detail := [64 * k] }).complete q k stRejected code result 0

/-- A descriptor completes with a status that has no code of its own. -/
def State.failDesc (s : State) (q k status detail : Nat) : State :=
  s.complete q k status (Config.statusCode status % 65536) 0 detail

/-- The descriptor k of queue pair q where it has started, is of a type, and its effect has not begun. -/
def State.startedDesc (s : State) (q k ty : Nat) : Option Desc :=
  match s.prog q k with
  | some e => if e.started && !e.running && dType e.desc == ty then some e.desc else none
  | none => none

/-- The same for a CONTEXT_CTL operation. -/
def State.startedCtl (s : State) (q k op : Nat) : Option Desc :=
  (s.startedDesc q k 7).bind (fun d => if dOp d = op then some d else none)

/-- A descriptor's effect has begun and is to complete later. -/
def State.begin (s : State) (q k : Nat) : State := s.modProg q k (fun e => { e with running := true, since := some s.now })

/-- Descriptors that start only after every earlier one of their queue pair has completed (R395). -/
def waitsEarlier (d : Desc) : Bool :=
  dFence d || dType d == 1 || dType d == 4 || dType d == 5 || dType d == 7 || dType d == 8

/-- Whether context x's recovery waits for a layout (R328). -/
def State.waitsLayout (s : State) (x : Nat) : Bool :=
  match (s.part (s.ctx x).part).recovery with
  | some r => decide (r.stage = .waitLayout) && decide ((s.part (s.ctx x).part).resident = some x)
  | none => false

/-- Whether a SELECT_LAYOUT may go ahead of everything (R395). -/
def State.exempt (s : State) (x : Nat) (d : Desc) : Bool := dType d == 7 && dOp d == 2 && s.waitsLayout x

/-- Whether descriptor e of queue pair q may start by R395. -/
def State.mayStart (s : State) (q : Nat) (e : Prog) : Bool :=
  let v := s.qp q
  let earlier := v.prog.filter (fun o => decide (o.order < e.order))
  let all := dType e.desc == 8 && bitOf e.desc 64
  s.exempt v.ctx e.desc ||
  (earlier.all (fun o => o.started || s.exempt v.ctx o.desc) && (!waitsEarlier e.desc || earlier.isEmpty) &&
    (!all || (s.qpsOf v.ctx).all (fun q' => q' == q || (s.qp q').prog.all (fun o => decide (e.order < o.order)))))

end Sys2Proof.Machine
end

