-- ==== Sys2Proof/Machine/Alloc.lean ====
section
/-! DEFINITION. Pages of HBM and what holds them (R386, R405, R421), the device's own allocations, and the placement of an
image's handles (R419 to R421). Pages are numbered by address div 4,096; a run is a first page and a number of pages. -/

namespace Sys2Proof.Machine

open Sys2Proof

/-- Whether a page lies in a run. -/
def inRun (g : Nat) (r : Nat × Nat) : Bool := decide (r.1 ≤ g) && decide (g < r.1 + r.2)

/-- Whether two runs meet. -/
def runsMeet (a b : Nat × Nat) : Bool := decide (a.1 < b.1 + b.2) && decide (b.1 < a.1 + a.2) && decide (0 < a.2) && decide (0 < b.2)

/-- The journal ring of a partition as a run. -/
def Part.ringRun (v : Part) : Nat × Nat := (v.journalBase / 4096, v.journalGib * 2 ^ 18)

/-- The runs held otherwise than page by page: save areas, staging areas, journal rings, and runs being zeroed. -/
def State.heldRuns (s : State) : List (Nat × Nat) :=
  s.zeroRuns ++ s.ctxs.flatMap (fun e => e.2.saveRuns) ++
  s.ctxs.flatMap (fun e => e.2.slots.filterMap (fun t => t.2.staging)) ++
  (s.parts.filter (fun e => e.2.formed)).map (fun e => e.2.ringRun)

/-- Everything held, page by page or in runs. -/
def State.usedRuns (s : State) : List (Nat × Nat) :=
  s.heldRuns ++ (s.pages.filter (fun e => decide (e.2.use ≠ .free) || e.2.unmapped)).map (fun e => (e.1, 1))

/-- Whether a page is free (R386). -/
def State.pageFree (s : State) (g : Nat) : Bool :=
  decide ((s.page g).use = .free) && !(s.page g).unmapped && !s.heldRuns.any (inRun g)

/-- The pages of region r's HBM slice that are mapped: a run. -/
def State.sliceRun (s : State) (r : Nat) : Nat × Nat :=
  let n := s.sliceSize / 4096
  (r * n, if (s.region r).inService then (if (s.region r).upperUnmapped then n / 2 else n) else 0)

/-- A run cut by another. -/
def cutRun (a b : Nat × Nat) : List (Nat × Nat) :=
  if runsMeet a b then
    (if a.1 < b.1 then [(a.1, b.1 - a.1)] else []) ++
    (if b.1 + b.2 < a.1 + a.2 then [(b.1 + b.2, a.1 + a.2 - (b.1 + b.2))] else [])
  else [a]

/-- The free runs of a slice. -/
def State.freeRuns (s : State) (r : Nat) : List (Nat × Nat) :=
  s.usedRuns.foldl (fun acc u => acc.flatMap (fun a => cutRun a u)) [s.sliceRun r]

/-- The pages of a list of runs. -/
def runPages (rs : List (Nat × Nat)) : Nat := (rs.map Prod.snd).sum

/-- The first `n` pages of a list of runs. -/
def takeRuns : (n : Nat) → List (Nat × Nat) → List (Nat × Nat)
  | 0, _ => []
  | _, [] => []
  | n + 1, (a, m) :: rest => if n + 1 ≤ m then [(a, n + 1)] else (a, m) :: takeRuns (n + 1 - m) rest

/-- A contiguous run of `n` pages in a slice: the page the device picks where it fits, else the first that fits. -/
def State.allocRun (s : State) (rs : List Nat) (n : Nat) : Option (Nat × Nat) :=
  let free := rs.flatMap s.freeRuns
  let w := Config.pick s.fresh
  if free.any (fun f => decide (f.1 ≤ w) && decide (w + n ≤ f.1 + f.2)) then some (w, n)
  else (free.find? (fun f => decide (n ≤ f.2))).map (fun f => (f.1, n))

/-- Pages given a use and an owner. -/
def State.givePages (s : State) (run : Nat × Nat) (use : PageUse) (x : Nat) : State :=
  (List.range run.2).foldl (fun (s : State) k => s.modPage (run.1 + k) (fun v => { v with use := use, owner := x, key := (s.ctx x).keyGen + 1 })) s

/-- Pages given back. -/
def State.dropPages (s : State) (run : Nat × Nat) : State :=
  (List.range run.2).foldl (fun (s : State) k => s.modPage (run.1 + k) (fun v => { v with use := .free, owner := 0 })) s

/-- The pages a context owns, as R405 counts them against its quota. -/
def State.ownedPages (s : State) (x : Nat) : Nat :=
  (s.pages.filter (fun e => e.2.owner == x && match e.2.use with
    | .mapped | .stepInput | .checkpoint | .image => true
    | _ => false)).length

/-! ## Placing an image (R419 to R421) -/

/-- The lowest base row from which `n` rows meet none of the runs held, among 0 and the ends of those runs. -/
def firstFit (held : List (Nat × Nat)) (n : Nat) : Option Nat :=
  let ends := sortNat (0 :: held.map (fun r => r.1 + r.2))
  ends.find? (fun b => decide (b + n ≤ 16384) && !held.any (runsMeet (b, n)))

/-- Whether context x is resident on its partition. -/
def State.isResident (s : State) (x : Nat) : Bool := decide ((s.part (s.ctx x).part).resident = some x)

/-- The handles of cluster c for context x, by their numbers. -/
def State.ctxHandles (s : State) (x c : Nat) : List (Nat × HandleEntry) :=
  if s.isResident x then (s.cl c).handles
  else (((s.ctx x).save.getD {}).handles.filter (fun e => e.1 / 64 == c)).map (fun e => (e.1 % 64, e.2))

/-- The rows of cluster c under valid resident handles of context x, and under the handles of its slots. -/
def State.heldRows (s : State) (x c : Nat) : List (Nat × Nat) :=
  ((s.ctxHandles x c).filter (fun e => decide (0 < hCount e.2) && hBacking e.2 == 0)).map (fun e => (hBase e.2, hCount e.2)) ++
  (s.ctx x).slots.flatMap (fun t => (t.2.handles.filter (fun e => e.1 == c)).map (fun e => (hBase e.2.2, hCount e.2.2)))

/-- The handles of a layout placed one after the other beside the rows held: for each HANDLE entry and each rank of it, a
run of rows. -/
def State.placeBeside (s : State) (held : Nat → List (Nat × Nat)) (x p : Nat) (l : List LEntry) : Option (List (Nat × Nat × HandleEntry)) :=
  ((entriesOf l 3).flatMap (fun e => (leHandleRanks e).map (fun k => (e, k)))).foldl
    (fun (acc : Option (List (Nat × Nat × HandleEntry))) ek =>
      match acc, s.rankCluster p l ek.2 with
      | some done, some c =>
        let busy := held c ++ (done.filter (fun d => d.1 == c)).map (fun d => (hBase d.2.2, hCount d.2.2))
        (firstFit busy (leHandleRows ek.1)).map (fun b => done ++ [(c, leHandle ek.1, leEntry ek.1 x b)])
      | _, _ => none) (some [])

def State.placeHandles (s : State) (x p : Nat) (l : List LEntry) : Option (List (Nat × Nat × HandleEntry)) :=
  s.placeBeside (s.heldRows x) x p l

/-- The rows a layout lacks room for, in bytes: what a capacity error reports (R421). -/
def State.lackingRows (s : State) (x p : Nat) (l : List LEntry) : Nat :=
  (((entriesOf l 3).flatMap (fun e => (leHandleRanks e).map (fun k => (e, k)))).map (fun ek =>
    match s.rankCluster p l ek.2 with
    | some c => if (firstFit (s.heldRows x c) (leHandleRows ek.1)).isSome then 0 else leHandleRows ek.1 * 512
    | none => 0)).sum

/-- The spans of a layout, members in ascending logical cluster number (R419, R95). -/
def State.placeSpans (s : State) (p : Nat) (l : List LEntry) : List (Nat × Span) :=
  (entriesOf l 4).map (fun e =>
    let cs := sortNat ((leSpanRanks e).filterMap (s.rankCluster p l))
    let he := (entriesOf l 3).find? (fun h => leHandle h == leSpanHandle e && (leHandleRanks h).any ((leSpanRanks e).contains ·))
    (leSpan e, { members := cs.map (fun c => { cluster := c, handle := leSpanHandle e }), stripe := leSpanStripe e,
                 tagged := (he.map (fun h => bitOf h 56)).getD false, format := (he.map leHandleFormat).getD 0 }))

/-! ## A context's handles, spans and rows, resident or saved -/

/-- Handle h of context x on cluster c: in the cluster's table where the context is resident, else in its save area. -/
def State.ctxHandle (s : State) (x c h : Nat) : HandleEntry :=
  if s.isResident x then s.handle c h
  else match (s.ctx x).save with
    | some v => Tbl.get (fun _ => 0) v.handles (c * 64 + h)
    | none => 0

/-- The entry with the generation that follows another's. -/
def nextGen (old e : HandleEntry) : HandleEntry :=
  BitVec.ofNat 256 (e.toNat - hGen e * 2 ^ 192 + (hGen old + 1) % 65536 * 2 ^ 192)

/-- The entry written where the context's tables are (R89). -/
def State.setCtxHandle (s : State) (x c h : Nat) (e : HandleEntry) : State :=
  if s.isResident x then s.writeHandle c h e
  else
    let v := (s.ctx x).save.getD {}
    let old := Tbl.get (fun _ => (0 : HandleEntry)) v.handles (c * 64 + h)
    let e' := nextGen old e
    s.modCtx x (fun w => { w with save := some { v with handles := Tbl.set (fun _ => 0) v.handles (c * 64 + h) e' } })

/-- Whether an entry may stand beside them (R90). -/
def State.ctxFits (s : State) (x c h : Nat) (e : HandleEntry) : Bool :=
  !(s.ctxHandles x c).any (fun o => o.1 != h && handlesOverlap e o.2 && (hTagged e != hTagged o.2))

def State.ctxRow (s : State) (x c n : Nat) : TarnRow :=
  if s.isResident x then s.trow c n else Tbl.get (fun _ => {}) ((s.ctx x).save.getD {}).rows (rowKey c n)

def State.setCtxRow (s : State) (x c n : Nat) (r : TarnRow) : State :=
  if s.isResident x then s.setTrow c n r
  else
    let v := (s.ctx x).save.getD {}
    s.modCtx x (fun w => { w with save := some { v with rows := Tbl.set (fun _ => {}) v.rows (rowKey c n) r } })

/-- The rows of one handle entry of cluster c. -/
def entryKeys (c : Nat) (e : HandleEntry) : List Nat := (List.range (hCount e)).map (fun k => rowKey c (hBase e + k))

/-- Whether R316 saves the rows of a handle entry of context x. -/
def savesHandle (x : Nat) (e : HandleEntry) : Bool := decide (0 < hCount e) && hBacking e == 0 && hOwner e == x

/-- The handle tables of a context as one table, by cluster × 64 + handle. -/
def State.ctxTables (s : State) (x : Nat) : Tbl HandleEntry :=
  if s.isResident x then
    s.clusters.flatMap (fun e => if inRegions (s.part (s.ctx x).part).regions e.1 then
      e.2.handles.map (fun h => (e.1 * 64 + h.1, h.2)) else [])
  else ((s.ctx x).save.getD {}).handles

/-- The rows R316 saves: those under valid resident handles of the context, each once, by their keys. -/
def State.savedKeys (s : State) (x : Nat) : List Nat :=
  (((s.ctxTables x).filter (fun e => savesHandle x e.2)).flatMap (fun e => entryKeys (e.1 / 64) e.2)).eraseDups

/-- The bytes a checkpoint of context x needs (R317, PRT_CKPT_STATUS): its rows. -/
def State.ckptNeeds (s : State) (x : Nat) : Nat := 512 * (s.savedKeys x).length

end Sys2Proof.Machine
end

