-- ==== Sys2Proof/Machine/Boundary.lean ====
section
/-! DEFINITION. What a step boundary carries, in the order of Table 10.1: repairs and map changes, copies into spares,
handle changes, the weight epoch, checkpoints, context switches, frequency steps, and region retirement. -/

namespace Sys2Proof.Machine

open Sys2Proof

/-- The descriptor that asked for a change, if any, completes. -/
def State.closeDesc (s : State) (qk : Option (Nat × Nat)) (status result : Nat) : State :=
  match qk with
  | some (q, k) => if status = stOk then s.complete q k stOk 0 result 0 else s.failDesc q k status 0
  | none => s

/-! ## Actions 1 and 2: repairs, retired rows, the map after a failure -/

/-- A cluster's watches end at a boundary (R58), and nothing run ahead outlives its step. -/
def dropWatches (v : Cluster) : Cluster := { v with ahead := {} }

def State.boundaryRepair (s : State) (p : Nat) : State :=
  let rs := (s.part p).sorted
  let t := (s.rejoinPorts p).modPartClusters p (fun _ v => dropWatches v)
  let t := rs.foldl (fun (t : State) r =>
    ((t.clusters.filter (fun e => regionOf e.1 == r && !e.2.health.retiring.isEmpty)).map Prod.fst).foldl State.retireRows t) t
  let t := rs.foldl (fun (t : State) r => (t.modHbm (2 * r) softRepair).modHbm (2 * r + 1) softRepair) t
  if (t.part p).resident.isNone then rs.foldl State.remapRegion t else t

/-! ## Action 3: planned substitution, pseudo-channel retirement, rotation -/

/-- The spare a substitution of cluster c would go to (R24, R330). -/
def State.spareFor (s : State) (c : Nat) : Option (Nat × Nat) :=
  let e := s.cmapEntry (regionOf c) (localOf c)
  s.replacement (regionOf c) (entrySite e) (entryPos e)

/-- A copy of cluster c into a spare begins: its rows are HELD (R330). -/
def State.startSubst (s : State) (r : Nat) : State :=
  if (s.region r).exchange.isSome then s
  else match s.clusters.find? (fun e => regionOf e.1 == r && e.2.health.subst && decide (e.2.st ≠ .failed) && (s.spareFor e.1).isSome) with
    | some e => s.modRegion r (fun v => { v with exchange := some { a := e.1, b := e.1, rotation := false } })
    | none => s

/-- The pages of contexts that lie in the granules a retirement of stack k unmaps (R347). -/
def State.vacating (s : State) (k : Nat) : List (Nat × Page) :=
  s.pages.filter (fun e => decide (e.2.use ≠ .free) && decide (e.1 * 4096 < 16 * s.sliceSize) &&
    (s.hbmPlace (e.1 * 4096)).1 == k && decide (s.cutOf ≤ (s.hbmPlace (e.1 * 4096)).2))

/-- The vacate timeout in ticks (HBM_RAS_CFG). -/
def State.vacateTicks (s : State) : Nat := bitsOf (s.reg 0x402000) 35 24 * ticksPerS

/-- A retirement begins its copy once its granules are vacated or the timeout has passed; a context that still owns a
page there is context-fatal (R348 events 3 and 4). -/
def State.startRetirement (s : State) (k : Nat) : State :=
  let v := s.hbm k
  if v.pending && !v.copying && !v.failed then
    let left := s.vacating k
    if left.isEmpty || decide (v.pendingSince + s.vacateTicks ≤ s.now) then
      let owners := (left.map (fun e => e.2.owner)).eraseDups
      let t := owners.foldl (fun (t : State) x => t.contextFatal x 0x3603 { region := k / 2, part := (t.ctx x).part, detail := [k] }) s
      let t := left.foldl (fun (t : State) e => t.modPage e.1 (fun g => { g with use := .free, owner := 0 })) t
      t.modHbm k (fun v => { v with copying := true })
    else s
  else s

/-- The mean of a hot spot's readings over the last 100 ms (R505), in 0.125 °C. -/
def hotMean (v : HotSpot) : Int := (v.history.map Prod.snd).sum / max 1 v.history.length

/-- The hot spots listed of a site, by their mean, and the one that comes first by `better`. -/
def bestHot (better : Int → Int → Bool) : List (Nat × HotSpot) → Option (Nat × Int)
  | [] => none
  | (k, v) :: rest =>
    match bestHot better rest with
    | some (j, m) => if better m (hotMean v) then some (j, m) else some (k, hotMean v)
    | none => some (k, hotMean v)

/-- The cluster of a list whose mean power comes first. -/
def bestPower (better : Nat → Nat → Bool) (now : Nat) : List Nat → Option (Nat × Nat)
  | [] => none
  | c :: rest =>
    match bestPower better now rest with
    | some (d, w) => if better w (Config.meanW c now) then some (d, w) else some (c, Config.meanW c now)
    | none => some (c, Config.meanW c now)

/-- The exchange a steward asks for on a chiplet (R505). -/
def State.rotationOf (s : State) (r site : Nat) : Option (Nat × Nat) :=
  let hs := (s.region r).hot.filter (fun e => e.1 / 4 == site)
  match bestHot (fun a b => decide (b < a)) hs, bestHot (fun a b => decide (a < b)) hs with
  | some (h, mh), some (l, ml) =>
    if 90 * 8 ≤ mh ∧ ml + 6 * 8 ≤ mh then
      (match bestPower (fun a b => decide (b < a)) s.now (s.hotClusters r site (h % 4)),
             bestPower (fun a b => decide (a < b)) s.now (s.hotClusters r site (l % 4)) with
       | some (a, wa), some (b, wb) => if wb + 1000 ≤ wa then some (a, b) else none
       | _, _ => none)
    else none
  | _, _ => none

/-- A rotation begins on the first chiplet of region r that asks for one: none has a substitution pending there, and
50 ms have passed since its last (R505, R507). -/
def State.startRotation (s : State) (r : Nat) : State :=
  let v := s.region r
  if v.exchange.isSome || !bitOf (s.reg 0x800020) 0 then s
  else
    let ready := fun (site : Nat) =>
      !s.clusters.any (fun e => regionOf e.1 == r && entrySite (s.cmapEntry r (localOf e.1)) == site && e.2.health.subst) &&
      (match v.rotTick.find? (fun e => e.1 == site) with
       | some e => decide (e.2 + 50 * ticksPerMs ≤ s.now)
       | none => true)
    match ((List.range 19).filter ready).findSome? (fun site => (s.rotationOf r site).map (fun ab => (site, ab))) with
    | some (site, a, b) => s.modRegion r (fun v => { v with exchange := some { a := a, b := b, rotation := true },
                                                            rotTick := Tbl.set (fun _ => 0) v.rotTick site s.now })
    | none => s

def State.boundaryCopies (s : State) (p : Nat) : State :=
  (s.part p).sorted.foldl (fun (t : State) r =>
    ((((t.startSubst r).startRotation r).startRetirement (2 * r)).startRetirement (2 * r + 1))) s

/-- Whether a copy of action 3 goes on. -/
def State.copying (s : State) (p : Nat) : Bool :=
  (s.part p).regions.any (fun r => (s.region r).exchange.isSome || (s.hbm (2 * r)).copying || (s.hbm (2 * r + 1)).copying)

/-! ## Action 4: handles, spans, parameters, pages; spill and restore -/

/-- A parameter's value in its width. -/
def setParamOf (p : Params) (param : Nat) (v : Word) : Params :=
  match param with
  | 1 => { p with tagWaitUs := v.toNat }
  | 2 => { p with window := v.toNat }
  | 3 => { p with fabTimeoutUs := v.toNat }
  | 4 => { p with shrinkS := v.toNat }
  | 5 => { p with seed := v }
  | 6 => { p with hostBase := v.toNat }
  | 7 => { p with pasid := v.toNat }
  | _ => p

def paramOf (p : Params) (param : Nat) : Word :=
  match param with
  | 1 => BitVec.ofNat 64 p.tagWaitUs
  | 2 => BitVec.ofNat 64 p.window
  | 3 => BitVec.ofNat 64 p.fabTimeoutUs
  | 4 => BitVec.ofNat 64 p.shrinkS
  | 5 => p.seed
  | 6 => BitVec.ofNat 64 p.hostBase
  | _ => BitVec.ofNat 64 p.pasid

/-- A parameter changes, with its CTL record (R404, R308). -/
def State.changeParam (s : State) (x param : Nat) (v : Word) : State :=
  ((s.record (s.ctx x).part x 0 (.ctl param (paramOf (s.ctx x).params param) v))).modCtx x
    (fun c => { c with params := setParamOf c.params param v })

/-- A handle entry with its rows in a backing store (Table 3.6). -/
def withBacking (e : HandleEntry) (tier addr bitmap : Nat) : HandleEntry :=
  BitVec.ofNat 256 (e.toNat - hBacking e * 2 ^ 58 - hBackAddr e * 2 ^ 64 - hBitmap e * 2 ^ 128 +
    tier * 2 ^ 58 + addr * 2 ^ 64 + bitmap * 2 ^ 128)

/-- Bytes of a tag bitmap (R97). -/
def bitmapBytes (e : HandleEntry) : Nat := (hCount e + 255) / 256 * 64

/-- Every row of a handle becomes HELD (R100). -/
def State.holdRows (s : State) (x c : Nat) (e : HandleEntry) : State :=
  if s.isResident x then
    (List.range (hCount e)).foldl (fun (s : State) k =>
      match s.rowAccess c (hBase e + k) .hold 0 .none with
      | .done _ t => t
      | _ => s) s
  else s

/-- The pages a chosen backing takes in HBM, or in an ONLINE window of the partition (R357). -/
def State.chooseBacking (s : State) (x : Nat) (n : Nat) : Option (Nat × (Nat × Nat)) :=
  let p := (s.ctx x).part
  if (s.ctx x).quota < s.ownedPages x + n then none
  else match s.allocRun (s.part p).sorted n with
    | some r => some (1, r)
    | none =>
      let used := s.usedRuns
      ((s.windows.filter (fun e => decide (e.2.st = .online) && e.2.part == p)).findSome? (fun e =>
        let w : Nat × Nat := (2 ^ 36 + e.2.base * 65536, e.2.size * 65536)
        (used.foldl (fun acc u => acc.flatMap (fun a => cutRun a u)) [w]).find? (fun f => decide (n ≤ f.2)))).map
        (fun f => (2, (f.1, n)))

/-- A spill begins: its backing is the one named or the one the device chooses, its tag bitmap lies in HBM pages of the
context; without room it is refused (R100, R357). -/
def State.startSpill (s : State) (x : Nat) (qk : Option (Nat × Nat)) (c h tier addr : Nat) : State :=
  let e := s.ctxHandle x c h
  let rows := (hCount e * 512 + 4095) / 4096
  let bits := (bitmapBytes e + 4095) / 4096
  if hCount e = 0 ∨ hBacking e ≠ 0 then s.closeDesc qk stHandle 0
  else
    let place : Option (Nat × (Nat × Nat)) := if tier = 0 then s.chooseBacking x rows else some (tier, (addr / 4096, 0))
    match place with
    | none => s.closeDesc qk stCapacity 0
    | some (t, run) =>
      let s1 := s.draw.givePages run .mapped x
      match s1.allocRun (s.part (s.ctx x).part).sorted bits with
      | none => s.closeDesc qk stCapacity 0
      | some b =>
        let s2 := (s1.draw.givePages b .mapped x).holdRows x c e
        s2.modCtx x (fun v => { v with transit := some (qk,
          { c := c, h := h, spill := true, backing := t, addr := if tier = 0 then run.1 * 4096 else addr, bitmap := b.1 * 4096 }) })

/-- A restore begins: the rows the handle had in tarn are HELD until it ends; rows that now lie under a handle of another
policy refuse it (R90, R100). -/
def State.startRestore (s : State) (x : Nat) (qk : Option (Nat × Nat)) (c h : Nat) : State :=
  let e := s.ctxHandle x c h
  let back := withBacking e 0 0 0
  if hCount e = 0 ∨ hBacking e = 0 ∨ handleFieldsOk back = false ∨ s.ctxFits x c h back = false then s.closeDesc qk stHandle 0
  else (s.holdRows x c back).modCtx x (fun v => { v with transit := some (qk,
    { c := c, h := h, spill := false, backing := hBacking e, addr := hBackAddr e, bitmap := hBitmap e }) })

/-- Whether pages lie in a checkpoint area that refuses writes (R316). -/
def State.inCheckpoint (s : State) (base n : Nat) : Bool := (List.range n).any (fun k => decide ((s.page (base + k)).use = .checkpoint))

/-- Pages of a context released (R405). -/
def State.unmapPages (s : State) (x base n : Nat) : State :=
  (List.range n).foldl (fun (s : State) k => s.modPage (base + k) (fun v =>
    if v.owner = x ∧ (v.use = .mapped ∨ v.use = .stepInput) then { v with use := .free, owner := 0 } else v)) s

/-- One change of action 4 takes effect. -/
def State.applyChange (s : State) (x : Nat) (qk : Option (Nat × Nat)) (d : Deferred) : State :=
  match d with
  | .param n v => (s.changeParam x n v).closeDesc qk stOk 0
  | .handle c h e => if s.ctxFits x c h e then (s.setCtxHandle x c h e).closeDesc qk stOk 0 else s.closeDesc qk stHandle 0
  | .span n sp => (s.modCtx x (fun v => { v with spans := Tbl.set (fun _ => {}) v.spans n sp })).closeDesc qk stOk 0
  | .unmap b n => if s.inCheckpoint b n then s.closeDesc qk stRejected 0 else (s.unmapPages x b n).closeDesc qk stOk 0
  | .spill c h t a => s.startSpill x qk c h t a
  | .restore c h => s.startRestore x qk c h
  | _ => s

/-- Whether a change belongs to action 4. -/
def Deferred.isHandle : Deferred → Bool
  | .param _ _ | .handle _ _ _ | .span _ _ | .unmap _ _ | .spill _ _ _ _ | .restore _ _ => true
  | _ => false

/-- The changes of context x, in order, until one sends a handle on its way. -/
def State.applyChanges (s : State) (x : Nat) : List (Option (Nat × Nat) × Deferred) → State
  | [] => s
  | d :: rest =>
    if (s.ctx x).transit.isSome then (s.modCtx x (fun v => { v with deferred := d :: rest }))
    else if d.2.isHandle then
      ((s.modCtx x (fun v => { v with deferred := rest })).applyChange x d.1 d.2).applyChanges x rest
    else
      let t := (s.modCtx x (fun v => { v with deferred := rest })).applyChanges x rest
      t.modCtx x (fun v => { v with deferred := d :: v.deferred })

def State.boundaryHandles (s : State) (p : Nat) : State :=
  (s.ctxsOf p).foldl (fun (t : State) x => t.applyChanges x (t.ctx x).deferred) s

def State.inTransit (s : State) (p : Nat) : Bool := (s.ctxsOf p).any (fun x => (s.ctx x).transit.isSome)

/-! ## Action 5: the weight epoch (R423, R428) -/

/-- A slot becomes CURRENT under the next epoch: the record is written, and queue pairs without an open request take
it. -/
def State.switchEpoch (s : State) (x n : Nat) : State :=
  let e := (s.ctx x).epoch
  let t := s.record (s.ctx x).part x 0 (.epoch e (e + 1))
  let t := (t.modSlot x n (fun v => { v with state := .current, epoch := e + 1 })).modCtx x
    (fun v => { v with epoch := e + 1, layout := (s.slot x n).layout })
  (t.qpsOf x).foldl (fun (t : State) q => t.modQp q (fun v => if v.openReq then v else { v with epoch := e + 1 })) t

def State.applyEpoch (s : State) (x : Nat) (qk : Option (Nat × Nat)) (d : Deferred) : State :=
  match d with
  | .current n => if (s.currentSlot x).isNone then s.switchEpoch x n else s.modSlot x n (fun v => { v with state := .staged })
  | .swap old new =>
    if (s.slot x old).state = .current ∧ (s.slot x new).state = .staged ∧ (s.ctx x).epoch < 0xFFFFFFFF then
      ((s.modSlot x old (fun v => { v with state := .retiring })).switchEpoch x new).closeDesc qk stOk ((s.ctx x).epoch + 1)
    else s.closeDesc qk stRejected 0
  | _ => s

def Deferred.isEpoch : Deferred → Bool
  | .current _ | .swap _ _ => true
  | _ => false

def State.boundaryEpoch (s : State) (p : Nat) : State :=
  (s.ctxsOf p).foldl (fun (t : State) x =>
    let ds := (t.ctx x).deferred
    (ds.filter (fun d => d.2.isEpoch)).foldl (fun (t : State) d => t.applyEpoch x d.1 d.2)
      (t.modCtx x (fun v => { v with deferred := ds.filter (fun d => !d.2.isEpoch) }))) s

/-! ## Action 6: checkpoints (R316, R317) -/

/-- Whether the runs of two areas meet. -/
def areasMeet (a : Nat × Nat) (b : Option (Nat × Nat)) : Bool := match b with
  | some r => decide (a.1 < r.1 + r.2) && decide (r.1 < a.1 + a.2)
  | none => false

/-- The pages of an area as a run. -/
def areaPages (a n : Nat) : Nat × Nat := (a / 4096, (n + 4095) / 4096)

/-- The area of a checkpoint refuses writes from here on; one too small now for the rows is rejected with the size it
needs (R317). -/
def State.startCheckpoint (s : State) (p x : Nat) (qk : Option (Nat × Nat)) (area len : Nat) : State :=
  if len < s.ckptNeeds x ∨ areasMeet (area, len) (s.ctx x).ckpt then
    (match qk with
     | some (q, k) => s.rejectDesc q k 0x0813 (s.ckptNeeds x)
     | none => s)
  else
    let t := (s.givePages (areaPages area len) .checkpoint x).modCtx x (fun v => { v with ckptPending := some (area, len) })
    t.modPart p (fun v => { v with ckptBusy := qk.map (fun z => (x, z.1, z.2)) })

def State.boundaryCheckpoint (s : State) (p : Nat) : State :=
  (s.ctxsOf p).foldl (fun (t : State) x =>
    if (t.part p).ckptBusy.isSome then t
    else match (t.ctx x).deferred with
      | (qk, .checkpoint a n) :: rest => (t.modCtx x (fun v => { v with deferred := rest })).startCheckpoint p x qk a n
      | _ => t) s

/-! ## Action 7: the context switch (R408, R409) -/

/-- Whether context x has a launch ready. -/
def Part.ready (v : Part) (x : Nat) : Bool := v.launches.any (fun l => l.ctx == x)

/-- The next context with a ready launch after another, in ascending number, wrapping (R408). -/
def State.nextCtx (s : State) (p after : Nat) : Option Nat :=
  let cs := (s.ctxsOf p).filter (fun x => (s.part p).ready x && decide ((s.ctx x).st = .waiting))
  match cs.find? (fun x => decide (after < x)) with
  | some x => some x
  | none => cs.head?

/-- What a cluster loses at a context switch (R409 event 2, R41, Table 2.6). -/
def switchCluster (v : Cluster) : Cluster :=
  { v with ahead := {}, hold := none, ev := {}, code := {},
           fab := {}, eng := {},
           cnt := { parity := v.cnt.parity } }

/-- A switch begins where another context is ready and the resident one has none ready or has had its quantum; with no
resident context it begins at the restore. -/
def State.boundarySwitch (s : State) (p : Nat) : State :=
  let v := s.part p
  if v.switching.isSome || v.scrubbing || v.drain.isSome then s
  else match v.resident with
    | none =>
      (match s.nextCtx p 1023 with
       | some x => s.modPart p (fun v => { v with switching := some { stage := .restoring, outgoing := none, incoming := x } })
       | none => s)
    | some o =>
      (match s.nextCtx p o with
       | some x =>
         if x ≠ o ∧ (v.ready o = false ∨ v.residentSince + v.quantum * ticksPerMs ≤ s.now) then
           (s.modPart p (fun v => { v with switching := some { stage := .saving, outgoing := some o, incoming := x } })).modPartClusters p
             (fun _ c => switchCluster c)
         else s
       | none => s)

/-! ## Action 8: frequency steps (R285, R472, R483) -/

/-- The step region r goes to at a boundary; one lower for a partner's soft start. -/
def State.boundaryStep (s : State) (r : Nat) : State :=
  let v := s.region r
  if v.pstate ≠ .run ∨ v.change.isSome then s
  else match (s.region (partnerOf r)).soft with
    | some b =>
      if b.partnerDue then
        (if v.step = 8 then
          (s.modRegion r (holdRegion .softStart)).modRegion (partnerOf r)
            (fun w => { w with soft := some { b with partnerDue := false, partnerHeld := true } })
         else (s.startChange r (v.step + 1)).modRegion (partnerOf r)
            (fun w => { w with soft := some { b with partnerDue := false, partnerStep := some v.step } }))
      else if b.partnerStep.isSome then s
      else (s.startChange r (s.chosenStep r)).modRegion r (fun w => { w with droopLower := false })
    | none => (s.startChange r (s.chosenStep r)).modRegion r (fun w => { w with droopLower := false })

def State.boundarySteps (s : State) (p : Nat) : State := (s.part p).sorted.foldl State.boundaryStep s

/-- Whether a region of partition p changes its step or waits for a partner's soft start. -/
def State.changing (s : State) (p : Nat) : Bool :=
  (s.part p).regions.any (fun r => (s.region r).change.isSome ||
    (match (s.region (partnerOf r)).soft with
     | some b => b.partnerStep.isSome || b.partnerHeld
     | none => false))

/-! ## Action 9: region retirement and shrink (R328, R333) -/

/-- The recovery of a context holds for a layout, or goes on to the scrub (R328, R321). -/
def State.layoutGate (s : State) (p : Nat) (r : Recovery) : State :=
  match (s.part p).resident with
  | none => s
  | some x =>
    let l := match s.currentSlot x with
      | some n => (s.slot x n).placed
      | none => []
    if (s.ctx x).needLayout || !s.layoutFits p l then
      let r' := { r with stage := .waitLayout, layoutDeadline := some (s.now + (s.ctx x).params.shrinkS * ticksPerS) }
      (s.modPart p (fun v => { v with recovery := some r' })).note 0x2806
        { part := p, ctx := some x, detail := s.vacancies p l }
    else (s.modPart p (fun v => { v with recovery := some { r with stage := .replaced } })).startScrub p

/-- The resident context of a partition begins a recovery without an aborted step, at event 4 (R333: the shrink). -/
def State.startShrink (s : State) (p x : Nat) : State :=
  if (s.ctx x).ckpt.isNone then s.contextFatal x 0x3806 { part := p }
  else
    let r : Recovery := { stage := .replaced, cause := 0, started := s.now, step := none }
    ((s.modCtx x (fun v => { v with st := .recovering, needLayout := true })).modPart p
      (fun v => { v with recovery := some r })).layoutGate p r

/-- Whether the layout context x runs by uses a region of its partition. -/
def State.usesRegion (s : State) (x r : Nat) : Bool :=
  match s.currentSlot x with
  | some n => (s.rankClusters (s.ctx x).part (s.slot x n).placed).any (fun c => regionOf c == r)
  | none => false

/-- Whether context x owns something in a run of pages. -/
def State.ownsIn (s : State) (x : Nat) (run : Nat × Nat) : Bool :=
  s.pages.any (fun e => e.2.owner == x && inRun e.1 run && match e.2.use with
    | .mapped | .stepInput | .checkpoint | .image => true
    | _ => false) || (s.ctx x).saveRuns.any (runsMeet run)

/-- A region retired from its partition (R333): the slice is unmapped, contexts that own pages there are lost, with the
journal there the partition is; contexts whose layout used it must select another. -/
def State.retireRegion (s : State) (r : Nat) : State :=
  let run := s.sliceRun r
  let t := s.modRegion r (fun v => { v with retire := false, inService := false, part := none, exchange := none })
  let t := (t.modHbm (2 * r) (fun v => { v with pending := false, copying := false })).modHbm (2 * r + 1)
    (fun v => { v with pending := false, copying := false })
  match (s.region r).part with
  | none => t
  | some p =>
    let used := (s.ctxsOf p).filter (fun x => s.usesRegion x r)
    let lost := (s.ctxsOf p).filter (fun x => s.ownsIn x run)
    let t := t.modPart p (fun v => { v with regions := v.regions.filter (· != r) })
    let t := lost.foldl (fun (t : State) x => t.contextFatal x 0x3602 { region := r, part := p, detail := [run.1 * 4096] }) t
    let t := used.foldl (fun (t : State) x => t.modCtx x (fun v => { v with needLayout := true })) t
    if runsMeet (s.part p).ringRun run then
      ((t.ctxsOf p).foldl (fun (t : State) x => t.contextFatal x 0x3602 { region := r, part := p }) t).partFatal p 0x4604 { region := r }
    else match (t.part p).resident with
      | some x =>
        let v := t.part p
        if (t.ctx x).needLayout && decide ((t.ctx x).st = .resident) && v.running.isNone && v.recovery.isNone && v.pendingCause.isNone
        then t.startShrink p x else t
      | none => t

def State.boundaryRetire (s : State) (p : Nat) : State :=
  ((s.part p).sorted.filter (fun r => (s.region r).retire)).foldl State.retireRegion s

/-! ## The boundary (R306) -/

/-- Whether the partition is busy with something that no boundary action may overtake. -/
def Part.busy (v : Part) : Bool :=
  v.running.isSome || v.recovery.isSome || v.scrubbing || v.drain.isSome || v.resetting || v.pendingCause.isSome || !v.formed

/-- The boundary actions of partition p in the order of Table 10.1, as far as each is done before the next. -/
def State.boundaryWork (s : State) (p : Nat) : State :=
  if (s.part p).busy || (s.part p).switching.isSome || (s.part p).ckptBusy.isSome then s
  else
    let s := s.boundaryRepair p
    if (s.part p).retrainHold then s
    else
      let s := if s.copying p then s else s.boundaryCopies p
      if s.copying p || (s.part p).busy then s
      else
        let s := if s.inTransit p then s else s.boundaryHandles p
        if s.inTransit p then s
        else
          let s := (s.boundaryEpoch p).boundaryCheckpoint p
          if (s.part p).ckptBusy.isSome then s
          else
            let s := s.boundarySwitch p
            if (s.part p).switching.isSome then s
            else
              let s := if s.changing p then s else s.boundarySteps p
              if s.changing p then s else s.boundaryRetire p

end Sys2Proof.Machine
end

