-- ==== Sys2Proof/Machine/Extents.lean ====
section
/-! DEFINITION. Where an image's rows go (14): the destination of each row of an extent, and the writing of a shard's
rows. -/

namespace Sys2Proof.Machine

open Sys2Proof

/-- The place one row of an image goes to. -/
inductive Dest where
  | tarn (c n : Nat)
  | hbm (addr : Nat)
  deriving DecidableEq, Repr

/-- The handle entry a slot holds for handle h of cluster c. -/
def Slot.entry (v : Slot) (c h : Nat) : Option HandleEntry := (v.handles.find? (fun e => e.1 == c && e.2.1 == h)).map (fun e => e.2.2)

/-- The row of cluster c that row i of handle h lies in. -/
def Slot.rowAt (v : Slot) (c h i : Nat) : Option Dest := (v.entry c h).map (fun e => .tarn c (handleRow e i))

/-- The destination of the j-th row of an extent (Table 14.4, R96). -/
def State.destOf (s : State) (p : Nat) (v : Slot) (e : LEntry) (j : Nat) : Option Dest :=
  match leKind e with
  | 0 =>
    (match (v.spans.find? (fun t => t.1 == leTarget e)).map Prod.snd with
     | some sp => (sp.members[spanMemberOf sp (leDest e + j)]?).bind (fun m => v.rowAt m.cluster m.handle (spanRowOf sp (leDest e + j)))
     | none => none)
  | 1 => (s.rankCluster p v.placed (leRank e)).bind (fun c => v.rowAt c (leTarget e) (leDest e + j))
  | _ => (v.areas[leTarget e]?).map (fun a => .hbm (a + (leDest e + j) * 512))

/-- The region a destination lies in. -/
def State.destRegion (s : State) : Dest → Nat
  | .tarn c _ => regionOf c
  | .hbm a => a / s.sliceSize

/-- Every extent of a slot's image: those of its layout and the common ones. -/
def Slot.extents (v : Slot) : List LEntry :=
  entriesOf v.placed 5 ++ (match v.image with
    | some m => (entriesOf m.manifest.common 5).filter (fun e => leKind e == 2)
    | none => [])

/-- A row of context x's image written: a tarn row, or its place in the save area while the context is not resident, is
left FULL; HBM takes no pre-image (R422). -/
def State.putDest (s : State) (x : Nat) (d : Dest) (w : Row) : State :=
  match d with
  | .tarn c n => if s.isResident x then (s.setTrow c n { data := w, tag := .full }).touch c n
                 else s.setCtxRow x c n { data := w, tag := .full }
  | .hbm a => ((s.evictRange a 512).writeNat a w.toNat 512).healSectors a 512

/-- The rows of shard k that lie in region r are written; none of `r` means every region; only tarn rows where
`tarnOnly` (R424, R431). -/
def State.writeShard (s : State) (x p : Nat) (v : Slot) (k : Nat) (rows : List Row) (r : Option Nat) (tarnOnly : Bool) : State :=
  (v.extents.filter (fun e => leShard e == k)).foldl (fun (s : State) e =>
    (List.range (leRows e)).foldl (fun (s : State) j =>
      match s.destOf p v e j with
      | some d =>
        let here := match r with
          | some q => s.destRegion d == q
          | none => true
        let skip := match d with
          | .tarn _ _ => false
          | .hbm _ => tarnOnly
        if here && !skip then s.putDest x d (rows.getD (leFirstRow e + j) 0) else s
      | none => s) s) s

/-- Every row of the image handles of a slot written with zeros and left FULL (R422); extents are written over it. -/
def State.zeroHandles (s : State) (x : Nat) (v : Slot) : State :=
  v.handles.foldl (fun (s : State) e => (List.range (hCount e.2.2)).foldl (fun (s : State) i =>
    s.putDest x (.tarn e.1 (handleRow e.2.2 i)) 0) s) s

/-- All tarn extents of a slot written again from its shards (R431). -/
def State.refillSlot (s : State) (x p : Nat) (v : Slot) : State :=
  v.rows.foldl (fun (s : State) e => s.writeShard x p v e.1 e.2 none true) (s.zeroHandles x v)

end Sys2Proof.Machine
end

