-- ==== Sys2Proof/Machine/Steps.lean ====
section
/-! DEFINITION. Steps: launch, release and completion (10, 13); checkpoints; recovery, replay and shrink; planned
substitution and rotation. -/

namespace Sys2Proof.Machine

open Sys2Proof

/-! ## Releasing a step (R303, R48, R429) -/

/-- The registers of Table 2.3 at launch. -/
def launchRegs (c rank n tick : Nat) (d : Desc) : Regs :=
  { s := [(1, BitVec.ofNat 64 c), (2, BitVec.ofNat 64 rank), (3, BitVec.ofNat 64 n), (4, dArg d 0), (5, dArg d 1),
          (6, dArg d 2), (7, dArg d 3), (8, BitVec.ofNat 64 tick)].filter (fun (e : Nat × Word) => decide (e.2 ≠ 0)) }

/-- A cluster as its step starts: Running at program counter 0 with nothing outstanding; a cluster halted by debug
starts when it is resumed. -/
def launchCluster (d : Desc) (code : CodeSrc × Nat) (tick c rank n : Nat) (v : Cluster) : Cluster :=
  let ticks := min (dHintTicks d) 10000000
  { v with st := if v.st = .halted then .halted else .running, haltedFrom := if v.st = .halted then .running else v.haltedFrom,
           regs := launchRegs c rank n tick d, code := { src := code.1, len := code.2 }, eng := {}, ahead := {},
           fab := { gens := v.fab.gens }, hold := none,
           hintLevel := if ticks = 0 then 0 else BitVec.ofNat 4 (dHintLevel d), hintUntil := if ticks = 0 then 0 else tick + ticks }

/-- An image handle entry in a cluster's table: written where it differs from what stands there but for the
generation. -/
def State.placeHandle (s : State) (c h : Nat) (e : HandleEntry) : State :=
  let old := s.handle c h
  if old.toNat - hGen old * 2 ^ 192 = e.toNat - hGen e * 2 ^ 192 then s else s.writeHandle c h e

/-- The image handles and spans of the slot a step runs under are valid, those of the context's other slots for no step (R429,
Table 14.5). -/
def State.placeImage (s : State) (x n : Nat) : State :=
  let mine := (s.slot x n).handles
  let others := ((s.ctx x).slots.filter (fun t => t.1 != n)).flatMap (fun t => t.2.handles)
  let t := (others.filter (fun o => !mine.any (fun e => e.1 == o.1 && e.2.1 == o.2.1))).foldl
    (fun (t : State) o => t.placeHandle o.1 o.2.1 0) s
  let t := mine.foldl (fun (t : State) e => t.placeHandle e.1 e.2.1 e.2.2) t
  let theirs := ((s.ctx x).slots.filter (fun t => t.1 != n)).flatMap (fun t => t.2.spans.map Prod.fst)
  let spans := (s.slot x n).spans.foldl (fun (u : Tbl Span) e => Tbl.set (fun _ => {}) u e.1 e.2)
    (Tbl.drop (fun k => theirs.contains k) (s.ctx x).spans)
  t.modCtx x (fun c => { c with spans := spans })

/-- The clusters of a step start at one panel tick. -/
def State.startClusters (s : State) (d : Desc) (code : CodeSrc × Nat) (cs : List Nat) : State :=
  (cs.zipIdx).foldl (fun (s : State) e => s.modCl e.1 (launchCluster d code s.now e.1 e.2 cs.length)) s

/-- A step runs: its image handles are in place, and its cluster set starts. -/
def State.runStep (s : State) (p : Nat) (st : RunStep) : State :=
  let t := match s.slotOfEpoch st.ctx st.epoch with
    | some n => s.placeImage st.ctx n
    | none => s
  (t.startClusters st.desc (s.launchCode st.ctx st.epoch st.desc) st.clusters).modPart p (fun v => { v with running := some st })

/-- Whether a record of `units` fits the ring (R315). -/
def State.recordFits (s : State) (p units : Nat) : Bool :=
  let v := s.part p
  let left := v.ringUnits - v.journalHead
  let padding := if left < units + 1 then left else 0
  decide (recordUnits (trimRecords v s.ckpted v.journal) + padding + units + 1 ≤ v.ringUnits)

/-- The launch the arbiter takes: of the resident context's queue pairs, in round-robin order after the last (R398). -/
def Part.nextLaunch (v : Part) (x : Nat) : Option Launch :=
  let ls := sortBy (fun a b => decide (a.q ≤ b.q)) (v.launches.filter (fun l => l.ctx == x))
  match v.lastQ with
  | some q => (match ls.find? (fun l => decide (q < l.q)) with
      | some l => some l
      | none => ls.head?)
  | none => ls.head?

/-- A launch is released: the LAUNCH record carries its step_seq, mode, layout and epoch (R303, R308, R312); one that
does not resolve is rejected (R397); one whose record does not fit completes as journal full (R315). -/
def State.release (s : State) (p : Nat) (l : Launch) : State :=
  let s := s.modPart p (fun v => { v with launches := v.launches.filter (fun o => !(o.q == l.q && o.k == l.k)) })
  if s.launchOk l.ctx l.epoch l.desc && s.launchPlaced l.ctx l.epoch l.desc then
    let seq := (s.part p).stepSeq
    if s.recordFits p 1 then
      let t := s.record p l.ctx 1 (.launch l.desc (dStill l.desc) (s.ctx l.ctx).layout l.epoch l.q)
      let st : RunStep := { ctx := l.ctx, q := l.q, k := l.k, desc := l.desc, seq := seq, still := dStill l.desc, epoch := l.epoch,
                            clusters := s.launchClusters l.ctx l.epoch l.desc }
      (t.modPart p (fun v => { v with stepSeq := seq + 1, lastQ := some l.q })).runStep p st
    else (s.note 0x0803 { part := p, ctx := some l.ctx, detail := [seq] }).complete l.q l.k stJournal 0x0803 seq 0
  else s.rejectDesc l.q l.k 0x0813 0

/-- Whether nothing of the boundary is left to do and launches are not held (R306, R314, R239, R69). -/
def State.mayRelease (s : State) (p : Nat) : Bool :=
  let v := s.part p
  !v.busy && v.switching.isNone && v.ckptBusy.isNone && !v.retrainHold && !s.copying p && !s.inTransit p && !s.changing p &&
    !s.journalLow p &&
    v.regions.all (fun r => decide ((s.region r).pstate = .run)) &&
    (match v.resident with
     | some x => decide ((s.ctx x).st = .resident) && (s.ctx x).recoverPending.isNone && !(s.ctx x).needLayout
     | none => false)

/-- The crossings of a partition's regions are calibrated before a release (Table 10.1, action 8). -/
def State.calibrated (s : State) (p : Nat) : Bool :=
  (s.part p).regions.all (fun r => (crossingsOf r).all (fun x => !(s.xing x).calibrating))

/-! ## Records applied (R321, R324, R325) -/

/-- What becomes of a record that is applied: applied, waiting on a tag, or failed. -/
inductive Applied where
  | done (s : State)
  | wait
  | bad

/-- One row written to tarn by address, for context x, by its tag policy (R93). -/
def State.applyRow (s : State) (x c n : Nat) (w : Row) : Applied :=
  match s.coverOf c n (some x) .dmaWrite with
  | some tagged => (match s.rowAccess c n (if tagged then .taggedWrite else .untaggedWrite) w .none with
      | .done _ t => .done t
      | .wait => .wait
      | .bad _ => .bad)
  | none => .bad

/-- A write of HOST_DATA or CORE_DATA: to tarn as a write of its kind, to memory as it stands. -/
def State.applyWrite (s : State) (x a n : Nat) (d : Row) : Applied :=
  match placeOf a with
  | .tarn c off => s.applyRow x c (off / 512) d
  | .hbm _ => .done (s.writeMem a (d.toNat % 256 ^ n) n)
  | .tier2 _ => .done (s.writeMem a (d.toNat % 256 ^ n) n)
  | _ => .bad

/-- A record applied. -/
def State.applyRecord (s : State) (e : JEntry) : Applied :=
  match e.body with
  | .hostData a n d => s.applyWrite e.ctx a n d
  | .coreData a n d => s.applyWrite e.ctx a n d
  | .tagSet a full =>
    (match placeOf a with
     | .tarn c off => (match s.rowAccess c (off / 512) (if full then .setFull else .setEmpty) 0 .none with
        | .done _ t => .done t
        | .wait => .wait
        | .bad _ => .bad)
     | _ => .bad)
  | .ctl n _ v => if n = 8 then .done s else .done (s.modCtx e.ctx (fun c => { c with params := setParamOf c.params n v }))
  | _ => .done s

/-- The cluster a record writes to, for its event. -/
def recordCluster (e : JEntry) : Nat :=
  match e.body with
  | .hostData a _ _ | .coreData a _ _ | .tagSet a _ => (match placeOf a with
      | .tarn c _ => c
      | _ => 0)
  | _ => 0

/-- A record of a step that is replayed cannot be applied: a replay fault; of the step released again: a contained
error like any other (R325). -/
def State.recordFails (s : State) (x seq code : Nat) (replay : Bool) (e : JEntry) : State :=
  if replay then s.contextFatal x 0x3808 { part := (s.ctx x).part, detail := [seq] }
  else s.contained x code (s.atCluster (recordCluster e) [recordCluster e, 0])

/-- The records that a running step still has to take are applied in order, as far as their tags permit; a wait beyond
the context's tag-wait timeout fails (R321 event 9, R325). -/
def State.feedGo (p : Nat) (st : RunStep) : List JEntry → State → State
  | [], s => s.modPart p (fun v => { v with running := some { st with feed := [], feedSince := none } })
  | e :: rest, s =>
    match s.applyRecord e with
    | .done t => State.feedGo p { st with feedSince := none } rest t
    | .wait =>
      let since := st.feedSince.getD s.now
      let t := s.modPart p (fun v => { v with running := some { st with feed := e :: rest, feedSince := some since } })
      if since + s.tagTicks st.ctx ≤ s.now then t.recordFails st.ctx st.seq 0x2106 st.replay e else t
    | .bad => (s.modPart p (fun v => { v with running := some { st with feed := rest } })).recordFails st.ctx st.seq 0x2201 st.replay e

def State.feedStep (s : State) (p : Nat) : State :=
  match (s.part p).running with
  | some st => if st.feed.isEmpty then s else State.feedGo p st st.feed s
  | none => s

/-! ## Replay (R321 event 8, R324) -/

/-- The records of context x after its latest CHECKPOINT record. -/
def afterCheckpoint (x : Nat) (es : List JEntry) : List JEntry :=
  es.foldl (fun (acc : List JEntry) e => if e.ctx = x then (match e.body with
    | .checkpoint _ _ => []
    | _ => acc ++ [e]) else acc) []

/-- Whether a step has its COMPLETE record. -/
def completed (es : List JEntry) (seq : Nat) : Bool :=
  es.any (fun e => e.seq == seq && match e.body with
    | .complete => true
    | _ => false)

/-- Whether a record is data from outside that a running step takes. -/
def JEntry.isInput (e : JEntry) : Bool := match e.body with
  | .hostData _ _ _ | .coreData _ _ _ | .tagSet _ _ => true
  | _ => false

/-- Whether a record is the LAUNCH of a step. -/
def JEntry.launches (e : JEntry) (seq : Nat) : Bool := e.seq == seq && match e.body with
  | .launch _ _ _ _ _ => true
  | _ => false

/-- The records event 8 goes through: all before the aborted step's LAUNCH, or all where no step was aborted. -/
def replayScript (es : List JEntry) (aborted : Option Nat) : List JEntry :=
  match aborted with
  | some seq => es.takeWhile (fun e => !e.launches seq)
  | none => es

/-- The inputs of the aborted step: the data records after its LAUNCH (event 9). -/
def abortedFeed (es : List JEntry) (seq : Nat) : List JEntry :=
  (es.dropWhile (fun e => !e.launches seq)).filter JEntry.isInput

/-- The inputs of a replayed step: the data records between its LAUNCH and its COMPLETE. -/
def stepFeed (seq : Nat) (rest : List JEntry) : List JEntry :=
  (rest.takeWhile (fun e => !(e.seq == seq && (match e.body with
    | .complete => true
    | _ => false)))).filter JEntry.isInput

def afterStep (seq : Nat) (rest : List JEntry) : List JEntry :=
  (rest.dropWhile (fun e => !(e.seq == seq && (match e.body with
    | .complete => true
    | _ => false)))).drop 1

/-- The replay goes on: records between steps are applied, the next completed step runs again in its recorded mode, epoch
and step_seq; at the end of the records the replay is done. `n` bounds the records looked at. -/
def State.replayGo (p x : Nat) (r : Recovery) : (n : Nat) → List JEntry → State → State
  | 0, _, s => s.modPart p (fun v => { v with recovery := some { r with stage := .done, script := [] } })
  | _, [], s => s.modPart p (fun v => { v with recovery := some { r with stage := .done, script := [] } })
  | n + 1, e :: rest, s =>
    match e.body with
    | .launch d still _ epoch q =>
      if completed rest e.seq then
        let st : RunStep := { ctx := x, q := q, k := 0, desc := d, seq := e.seq, still := still, epoch := epoch,
                              clusters := s.launchClusters x epoch d, replay := true, feed := stepFeed e.seq rest }
        ((s.modPart p (fun v => { v with recovery := some { r with script := afterStep e.seq rest, since := none } })).runStep p st).feedStep p
      else State.replayGo p x r n rest s
    | _ =>
      match s.applyRecord e with
      | .done t => State.replayGo p x { r with since := none } n rest t
      | .wait =>
        let since := r.since.getD s.now
        if since + s.tagTicks x ≤ s.now then s.recordFails x e.seq 0 true e
        else s.modPart p (fun v => { v with recovery := some { r with script := e :: rest, since := some since } })
      | .bad => s.recordFails x e.seq 0 true e

def State.replayNext (s : State) (p : Nat) : State :=
  match (s.part p).recovery, (s.part p).resident, (s.part p).running with
  | some r, some x, none => if r.stage = .replaying then State.replayGo p x r (r.script.length + 1) r.script s else s
  | _, _, _ => s

/-! ## The rows of a step -/

/-- A STEP_LAUNCH is accepted: a fence opens a request on its queue pair under the current epoch; it waits for the
arbiter (R397, R428, R429). -/
def execStepLaunch (q k : Nat) (s : State) : Result :=
  match s.startedDesc q k 1 with
  | none => .next s
  | some d =>
    let v := s.qp q
    let x := v.ctx
    let epoch := if dFence d then (s.ctx x).epoch else v.epoch
    if s.launchOk x epoch d then
      let t := (s.begin q k).modQp q (fun v => { v with epoch := epoch, openReq := v.openReq || dFence d })
      .next (t.modPart (s.ctx x).part (fun v => { v with launches := v.launches ++ [{ q := q, k := k, ctx := x, desc := d, epoch := epoch }] }))
    else .next (s.rejectDesc q k 0x0813 0)

/-- The arbiter releases the next step of partition p, once the boundary's actions are done; in a replay, and for records
a step still has to take, it moves those on (R303, R306, R321). -/
def execStepRelease (p : Nat) (s : State) : Result :=
  if (s.part p).running.isSome then .next (s.feedStep p)
  else if (s.part p).recovery.isSome then .next (s.replayNext p)
  else
    let t := s.boundaryWork p
    if t.mayRelease p && t.calibrated p then
      (match (t.part p).resident.bind (t.part p).nextLaunch with
       | some l => .next (t.release p l)
       | none => .next t)
    else .next t

/-- One event for each region in which late events occurred, when the step ends (R299). -/
def State.lateEvents (s : State) (p : Nat) (x : Option Nat) : State :=
  (s.part p).sorted.foldl (fun (s : State) r =>
    let v := s.region r
    if v.stepLate = 0 then s
    else (s.modRegion r (fun v => { v with stepLate := 0, stepLateMax := 0 })).note 0x0507
      { region := r, part := p, ctx := x, detail := [v.stepLate, v.stepLateMax] }) s

/-- Whether every cluster of a step's set has retired END, and its records are all applied. -/
def RunStep.isOver (st : RunStep) : Bool := st.clusters.all (st.ended.contains ·) && st.feed.isEmpty

/-- The COMPLETE record, then the completion; the boundary begins (R305, R306). A replayed step reports nothing
(R324). -/
def execStepComplete (p : Nat) (s : State) : Result :=
  match (s.part p).running with
  | none => .next s
  | some st =>
    if !st.isOver || (s.part p).pendingCause.isSome then .next s
    else
      let s := s.lateEvents p (some st.ctx)
      if st.replay then .next ((s.modPart p (fun v => { v with running := none })).replayNext p)
      else if s.recordFits p 0 then
        let t := s.record p st.ctx 0 .complete
        let t := (t.modPart p (fun v => { v with running := none })).modCtx st.ctx (fun c => { c with lastTimeout := none })
        .next ((t.complete st.q st.k stOk 0 st.seq 0).boundaryWork p)
      else .next (s.record p st.ctx 0 .complete)

/-! ## Checkpoints (R316 to R318) -/

/-- CHECKPOINT fields (Table 13.11). -/
def dArea (d : Desc) : Nat := bitsOf d 115 64
def dAreaLen (d : Desc) : Nat := bitsOf d 191 128

/-- A CHECKPOINT is checked and waits for its boundary. -/
def execCheckpoint (q k : Nat) (s : State) : Result :=
  match s.startedDesc q k 5 with
  | none => .next s
  | some d =>
    let x := (s.qp q).ctx
    let a := dArea d
    let n := dAreaLen d
    if a % 4096 ≠ 0 then .next (s.failDesc q k stAlign 0)
    else if areasMeet (a, n) (s.ctx x).ckpt || decide (n < s.ckptNeeds x) then .next (s.rejectDesc q k 0x0813 (s.ckptNeeds x))
    else if decide (a + n ≤ 0x180_0000_0000) && s.reachable (s.ctx x).part a (max n 1) && s.ownPages x a n then
      .next (((s.begin q k).modCtx x (fun c => { c with deferred := c.deferred ++ [(some (q, k), .checkpoint a n)] })).boundaryWork (s.ctx x).part)
    else .next (s.failDesc q k stAddress 0)

/-- What a checkpoint of context x holds (R316, R318): rows by their stored tags, handle tables, spans, settings, and the
placement of the slots whose rows it holds. -/
def State.snapshot (s : State) (x : Nat) : Saved :=
  let c := s.ctx x
  { rows := (s.savedKeys x).foldl (fun (t : Tbl TarnRow) key =>
      Tbl.set (fun _ => {}) t key (s.ctxRow x (key / 16384) (key % 16384))) [],
    handles := s.ctxTables x, spans := c.spans, params := c.params, layout := c.layout, epoch := c.epoch,
    live := (c.slots.filter (fun t => decide (t.2.state = .current) || decide (t.2.state = .retiring))).map
      (fun t => (t.1, t.2.handles, t.2.spans)) }

/-- What the context may read of a checkpoint area has no defined meaning: its bytes are free (R316). -/
def State.freeBytes (s : State) (x a : Nat) : Nat → State
  | 0 => s
  | n + 1 => (s.freeBytes x a n).setByte (a + n) (Config.checkpointByte (x + 1024 * s.fresh) (a + n))

/-- Every write of a checkpoint is acknowledged: the record is written, the written bitmap cleared, the earlier area
released, and the descriptor completes. -/
def execCheckpointDurable (p : Nat) (s : State) : Result :=
  match (s.part p).ckptBusy with
  | none => .next s
  | some (x, q, k) =>
    match (s.ctx x).ckptPending with
    | none => .next s
    | some (a, n) =>
      let need := s.ckptNeeds x
      let t := ((s.freeBytes x a need).healSectors a need).draw
      let t := match (s.ctx x).ckpt with
        | some old => t.givePages (areaPages old.1 old.2) .mapped x
        | none => t
      let snap := s.snapshot x
      let t := t.modCtx x (fun c => { c with ckpt := some (a, n), ckptSaved := snap, ckptPending := none, written := [] })
      let t := t.record p x 0 (.checkpoint a n)
      let t := (t.modPart p (fun v => { v with ckptBusy := none })).complete q k stOk 0 need 0
      .next ((t.modPart p (fun v => { v with journalLow := t.journalLow p })).boundaryWork p)

/-! ## Recovery (R320 to R329, R334) -/

/-- A checkpoint being written is abandoned: its area is the context's own again (R334). -/
def State.abandonCheckpoint (s : State) (p : Nat) : State :=
  match (s.part p).ckptBusy with
  | none => s
  | some (x, q, k) =>
    let t := match (s.ctx x).ckptPending with
      | some (a, n) => s.givePages (areaPages a n) .mapped x
      | none => s
    ((t.modCtx x (fun c => { c with ckptPending := none })).modPart p (fun v => { v with ckptBusy := none })).failDesc q k stAbandoned 0

/-- Whether every region of a partition is in Run (R487). -/
def State.allRun (s : State) (p : Nat) : Bool := (s.part p).regions.all (fun r => decide ((s.region r).pstate = .run))

/-- Events 1 and 2: the step is aborted, the ABORT record written, and recovery started is reported; a second failure
returns a recovery to event 1 and reports nothing again (R321, R334). -/
def State.startRecovery (s : State) (p x : Nat) (cause : Nat) : State :=
  let v := s.part p
  let s := (s.lateEvents p (some x)).abandonCheckpoint p
  let seq := s.recordSeq p
  match v.recovery with
  | some r =>
    (s.haltStep p).modPart p (fun v => { v with recovery := some { r with stage := .draining, script := [], layoutDeadline := none },
                                                drain := some s.now, pendingCause := none })
  | none =>
    let r : Recovery := { stage := .draining, cause := cause, started := s.now, journalFull := decide (cause = 0x0803),
                          step := v.running.map (fun st => { st with starts := st.starts + 1, ended := [], feed := [] }) }
    let t := (s.record p x 0 (.abort cause)).haltStep p
    let t := (t.modPart p (fun v => { v with recovery := some r, drain := some s.now, pendingCause := none })).modCtx x
      (fun c => { c with st := .recovering, recoverPending := none })
    t.note 0x2804 { part := p, ctx := some x, detail := [seq, cause] }

/-- A recovery starts where one is due: in the running step, or before the resident context's next step; every region of
the partition is in Run (R320, R487, R546). A step whose records overrun the ring cannot be restored without a
checkpoint (R315, R319). -/
def execRecoveryStart (p : Nat) (s : State) : Result :=
  if !s.allRun p then .next s
  else match (s.part p).resident with
    | none => .next s
    | some x =>
      (match (s.part p).pendingCause, (s.ctx x).recoverPending with
       | some (cause, _), _ =>
         if (s.ctx x).ckpt.isNone then .next (s.contextFatal x (cause % 4096 + 0x3000) { part := p })
         else .next (s.startRecovery p x cause)
       | none, some cause =>
         if (s.part p).running.isNone && (s.part p).recovery.isNone && (s.part p).switching.isNone then .next (s.startRecovery p x cause)
         else .next s
       | none, none => .next s)

/-- 2,000 ticks after an abort or a kill the drain is over (R262). A killed context that is resident is scrubbed; a
recovery replaces its failed clusters and scrubs, or holds for a layout (R321 events 3 to 5, R328). -/
def execAbortDrainEnd (p : Nat) (s : State) : Result :=
  match (s.part p).drain with
  | none => .next s
  | some t0 =>
    if t0 + 2000 ≤ s.now then
      let t := s.modPart p (fun v => { v with drain := none })
      let t := (t.ctxsOf p).foldl (fun (t : State) x =>
        if (t.ctx x).st = .killing ∧ (t.ctx x).killStage = 1 then
          (if (t.part p).resident = some x then (t.modCtx x (fun v => { v with killStage := 2 })).startScrub p
           else t.modCtx x (fun v => { v with killStage := 3 }))
        else t) t
      match (t.part p).recovery with
      | some r => if r.stage = .draining then
          let u := ((t.part p).sorted.foldl State.remapRegion t).boundaryRetire p
          (match (u.part p).recovery with
           | some r => .next (u.layoutGate p r)
           | none => .next u) else .next t
      | none => .next t
    else .next s

/-- Failures that the rules of R535 find in the verdicts on one target. -/
def failuresOf (vs : List Verdict) (r : TestResult → Bool) : Nat := ((vs.filter (fun v => r v.result)).map Verdict.tester).eraseDups.length

def TestResult.isFail : TestResult → Bool
  | .pass => false
  | _ => true

def TestResult.isRouter : TestResult → Bool
  | .routerFail | .noResponse => true
  | _ => false

/-- The neighbours of a named cluster test it while its partition is aborted, before the restore; the test destroys its
tarn (R320, R535, R536). -/
def execNeighbourTestTarget (c : Nat) (verdicts : List Verdict) (s : State) : Result :=
  match s.partOf c with
  | none => .next s
  | some p =>
    if (s.part p).recovery.isNone || !(s.part p).testDue.contains c || (s.part p).running.isSome then .next s
    else
      let r := regionOf c
      let e := s.cmapEntry r (localOf c)
      let t := s.modPart p (fun v => { v with testDue := v.testDue.filter (· != c) })
      if s.vacant c then .next t
      else
        let t := { t with tarn := Tbl.drop (fun key => key / 16384 == c) t.tarn }
        let vs := verdicts.filter (fun v => v.site == entrySite e && v.target == entryPos e && (hops v.tester (entryPos e) == 1))
        let fails := failuresOf vs TestResult.isFail
        if 2 ≤ fails then
          (if 2 ≤ failuresOf vs TestResult.isRouter then .next (t.condemnSite r (entrySite e)) else .next (t.failCluster c 0))
        else if fails = 1 then .next (t.note 0x0E02 (s.atCluster c [entrySite e, entryPos e]))
        else .next t

/-- A page as its pre-image holds it: its bytes, and the sectors of its mask poisoned (R309). -/
def State.restorePage (s : State) (g : Nat) (bytes : List Host.Cell) (mask : BitVec 128) : State :=
  let t := { s with mem := Tbl.drop (fun a => a / 4096 == g) s.mem, poison := Tbl.drop (fun k => k / 128 == g) s.poison,
                    dir := s.dir.filter (fun e => e.1 / 64 != g) }
  let t := bytes.foldl (fun (t : State) e => t.setByte e.1 e.2) t
  (List.range 128).foldl (fun (t : State) k => if bitOf mask k then t.setPoison (g * 128 + k) true else t) t

/-- Event 6: the pre-images since the checkpoint, newest first. -/
def State.applyPreImages (s : State) (p x : Nat) : State :=
  (afterCheckpoint x (s.part p).journal).reverse.foldl (fun (s : State) e => match e.body with
    | .preImage g bytes mask => s.restorePage g bytes mask
    | _ => s) s

/-- Pre-images are applied and the restore begins, once the scrub has ended and the tests that R320 asks for are
done. -/
def execRecoveryRestore (p : Nat) (s : State) : Result :=
  match (s.part p).recovery, (s.part p).resident with
  | some r, some x =>
    if r.stage = .replaced && !(s.part p).scrubbing && (s.part p).drain.isNone && (s.part p).testDue.isEmpty then
      .next ((s.applyPreImages p x).modPart p (fun v => { v with recovery := some { r with stage := .restoring } }))
    else .next s
  | _, _ => .next s

/-- Rows as saved under the same placement. -/
def State.restoreRows (s : State) (rows : Tbl TarnRow) (keep : Nat → Bool) : State :=
  rows.foldl (fun (s : State) e => if keep (e.1 / 16384) then { s with tarn := Tbl.set (fun _ => {}) s.tarn e.1 e.2 } else s) s

/-- Handle tables as saved. -/
def State.restoreHandles (s : State) (hs : Tbl HandleEntry) (keep : Nat → Nat → Bool) : State :=
  hs.foldl (fun (s : State) e => if keep (e.1 / 64) (e.1 % 64) then
    s.modCl (e.1 / 64) (fun v => { v with handles := Tbl.set (fun _ => 0) v.handles (e.1 % 64) e.2 }) else s) s

/-- The handle tables of a partition's clusters emptied. -/
def State.clearHandles (s : State) (p : Nat) : State := s.modPartClusters p (fun _ v => { v with handles := [] })

/-- The physical row of logical row i of a span, by the entries given. -/
def spanPlace (sp : Span) (entry : Nat → Nat → Option HandleEntry) (i : Nat) : Option (Nat × Nat) :=
  (sp.members[spanMemberOf sp i]?).bind (fun m =>
    (entry m.cluster m.handle).bind (fun e =>
      if spanRowOf sp i < hCount e then some (m.cluster, handleRow e (spanRowOf sp i)) else none))

/-- A span rebuilt on its new members from the checkpoint's form (R318, R329). -/
def State.rebuildSpan (s : State) (rows : Tbl TarnRow) (old new : Span) (oldE newE : Nat → Nat → Option HandleEntry) : State :=
  let n := (old.members.map (fun m => ((oldE m.cluster m.handle).map hCount).getD 0)).sum
  (List.range n).foldl (fun (s : State) i =>
    match spanPlace old oldE i, spanPlace new newE i with
    | some a, some b => s.setTrow b.1 b.2 (Tbl.get (fun _ => {}) rows (rowKey a.1 a.2))
    | _, _ => s) s

/-- The entry for a cluster and handle in a list of placed handles. -/
def placedEntry (hs : List (Nat × Nat × HandleEntry)) (c h : Nat) : Option HandleEntry :=
  (hs.find? (fun e => e.1 == c && e.2.1 == h)).map (fun e => e.2.2)

/-- One slot of the checkpoint under its new layout: private image handles come from the image source, its spans from
the checkpoint. -/
def State.rebuildSlot (s : State) (p x : Nat) (rows : Tbl TarnRow) (old : Nat × List (Nat × Nat × HandleEntry) × List (Nat × Span)) : State :=
  let v := s.slot x old.1
  let t := s.refillSlot x p v
  old.2.2.foldl (fun (t : State) sp =>
    match (v.spans.find? (fun n => n.1 == sp.1)).map Prod.snd with
    | some new => t.rebuildSpan rows sp.2 new (placedEntry old.2.1) (placedEntry v.handles)
    | none => t) t

/-- The spans a context keeps after a shrink: those whose members its layout still uses, and those of its image. -/
def State.keptSpans (s : State) (x : Nat) (uses : List Nat) (spans : Tbl Span) : Tbl Span :=
  let img := match s.currentSlot x with
    | some n => (s.slot x n).spans
    | none => []
  let own := spans.filter (fun e => e.2.members.all (fun m => uses.contains m.cluster))
  img.foldl (fun (t : Tbl Span) e => Tbl.set (fun _ => {}) t e.1 e.2) own

/-- Event 7 and R431: the checkpoint's rows and tables are restored, under the layout in force; slots whose rows the
checkpoint does not hold are filled again from their image. -/
def State.restoreCheckpoint (s : State) (p x : Nat) : State :=
  let sv := (s.ctx x).ckptSaved
  let t := s.clearHandles p
  let t := if sv.layout = (s.ctx x).layout then
      let t := (t.restoreRows sv.rows (fun _ => true)).restoreHandles sv.handles (fun _ _ => true)
      t.modCtx x (fun c => { c with spans := sv.spans, params := sv.params })
    else
      let uses := match s.currentSlot x with
        | some n => s.rankClusters p (s.slot x n).placed
        | none => []
      let image := fun (c h : Nat) => sv.live.any (fun l => (placedEntry l.2.1 c h).isSome)
      let t := t.restoreHandles sv.handles (fun c h => uses.contains c && !image c h)
      let keys := ((sv.handles.filter (fun e => uses.contains (e.1 / 64) && !image (e.1 / 64) (e.1 % 64) && savesHandle x e.2)).flatMap
        (fun e => entryKeys (e.1 / 64) e.2))
      let t := t.restoreRows (sv.rows.filter (fun e => keys.contains e.1)) (fun _ => true)
      let t := sv.live.foldl (fun (t : State) l => t.rebuildSlot p x sv.rows l) t
      t.modCtx x (fun c => { c with spans := s.keptSpans x uses sv.spans, params := sv.params })
  ((s.ctx x).slots.filter (fun e => !sv.live.any (fun l => l.1 == e.1))).foldl (fun (t : State) e => match e.2.state with
    | .staged | .current | .retiring => t.refillSlot x p e.2
    | .loading => (t.zeroHandles x e.2).modSlot x e.1 (fun v => { v with written := [] })
    | .empty => t) t

/-- The restore ends and the replay begins (R321 events 7 and 8). -/
def execRecoveryRestoreDone (p : Nat) (s : State) : Result :=
  match (s.part p).recovery, (s.part p).resident with
  | some r, some x =>
    if r.stage = .restoring then
      let t := s.restoreCheckpoint p x
      let script := replayScript (afterCheckpoint x (s.part p).journal) (r.step.map RunStep.seq)
      .next ((t.modPart p (fun v => { v with recovery := some { r with stage := .replaying, script := script } })).replayNext p)
    else .next s
  | _, _ => .next s

/-- The shards of a paused load that are in flight are fetched again; their timeouts start afresh (Table 14.6). -/
def State.resumeLoads (s : State) (x : Nat) : State :=
  ((s.ctx x).slots.filter (fun e => decide (e.2.state = .loading))).foldl (fun (t : State) e =>
    t.modSlot x e.1 (fun v => { v with requestTicks := v.requestTicks.map (fun r => (r.1, s.now)) })) s

/-- The aborted step is released again with its step_seq and its inputs, and recovery complete is reported; a launch whose
journal overran completes as journal full instead; without an aborted step the recovery just ends (R321 event 9,
R315). -/
def execRecoveryRerelease (p : Nat) (s : State) : Result :=
  match (s.part p).recovery, (s.part p).resident with
  | some r, some x =>
    if r.stage = .done && !s.changing p then
      let t := (s.modPart p (fun v => { v with recovery := none, testDue := [] })).modCtx x
        (fun c => { c with st := .resident, recoverPending := none, needLayout := false })
      let t := (t.note 0x0805 { part := p, ctx := some x, detail := [(r.step.map RunStep.seq).getD (s.part p).stepSeq] }).resumeLoads x
      (match r.step with
       | none => .next (t.boundaryWork p)
       | some st =>
         if r.journalFull then .next ((t.complete st.q st.k stJournal 0x0803 st.seq 0).boundaryWork p)
         else
           let feed := abortedFeed (afterCheckpoint x (s.part p).journal) st.seq
           let st' := { st with clusters := t.launchClusters x st.epoch st.desc, feed := feed, feedSince := none, ended := [], replay := false }
           .next ((t.runStep p st').feedStep p))
    else .next s
  | _, _ => .next s

/-- No layout was selected within the shrink timeout (R328). -/
def execShrinkTimeout (p : Nat) (s : State) : Result :=
  match (s.part p).recovery, (s.part p).resident with
  | some r, some x =>
    (match r.layoutDeadline with
     | some t => if r.stage = .waitLayout ∧ t ≤ s.now then .next (s.contextFatal x 0x3807 { part := p }) else .next s
     | none => .next s)
  | _, _ => .next s

/-! ## Planned substitution and rotation (R330, R331, R506, R507) -/

/-- The rows of a cluster that fail their CRC as they are copied: POISONED at both ends, with an integrity fault
each. -/
def State.copyFaults (s : State) (c : Nat) : State :=
  let bad := s.tarn.filter (fun e => e.1 / 16384 == c && decide (e.2.syndrome ≠ 0) && decide (e.2.tag ≠ .poisoned))
  bad.foldl (fun (s : State) e =>
    ({ s with tarn := Tbl.set (fun _ => {}) s.tarn e.1 { e.2 with tag := .poisoned } }).integrityEvent c (e.1 % 16384)) s

/-- The cluster map entry of l, and of another, exchanged, each remapped once more (R506). -/
def State.swapEntries (s : State) (r a b : Nat) : State :=
  let ea := s.cmapEntry r a
  let eb := s.cmapEntry r b
  let na := mkEntry (entrySite eb) (entryPos eb) 1 (min 255 (entryCount ea + 1))
  let nb := mkEntry (entrySite ea) (entryPos ea) 1 (min 255 (entryCount eb + 1))
  let d := fun l => s.factoryEntry r l
  s.modRegion r (fun v => { v with cmap := Tbl.set d (Tbl.set d v.cmap a na) b nb })

/-- The copy into the spare ends: the handle table goes with it, the map changes, and rows take their former tags. A
source that failed meanwhile ends it; a spare that failed is condemned and another is taken. -/
def execSubstitutionCopyDone (c : Nat) (ok : Bool) (s : State) : Result :=
  let r := regionOf c
  match (s.region r).exchange with
  | none => .next s
  | some x =>
    if x.rotation || x.a != c then .next s
    else
      let t := s.modRegion r (fun v => { v with exchange := none })
      let again := fun (t : State) => match (s.region r).part with
        | some p => t.boundaryWork p
        | none => t
      match s.spareFor c with
      | none => .next t
      | some (k, q) =>
        if (s.cl c).st = .failed then .next t
        else if !ok then .next (again (t.modRegion r (fun v => { v with condemned := v.condemned ++ [(k, q)] })))
        else
          let t := (t.moveEntry r (localOf c) (some (k, q))).modCl c (fun v => { st := v.st, haltedFrom := v.haltedFrom, handles := v.handles })
          .next (again (t.copyFaults c))

/-- A rotation ends: the map entries of both positions change; it is abandoned, and both tarns are lost, where either
failed or the region left Run. -/
def execRotationCopyDone (r : Nat) (s : State) : Result :=
  match (s.region r).exchange with
  | none => .next s
  | some x =>
    if !x.rotation then .next s
    else
      let t := s.modRegion r (fun v => { v with exchange := none })
      let failed := decide ((s.cl x.a).st = .failed) || decide ((s.cl x.b).st = .failed)
      if failed || decide ((s.region r).pstate ≠ .run) then
        let t := { t with tarn := Tbl.drop (fun key => key / 16384 == x.a || key / 16384 == x.b) t.tarn }
        (match s.ctxOf x.a with
         | some y => .next (if failed then t else t.askRecovery y { region := r, part := ((s.region r).part).getD 31 })
         | none => .next t)
      else
        let ha := (s.cl x.a).health
        let hb := (s.cl x.b).health
        let t := (t.swapEntries r (localOf x.a) (localOf x.b))
        let t := (t.modCl x.a (fun v => { v with health := hb })).modCl x.b (fun v => { v with health := ha })
        let w := s.reg 0x800020
        let t := t.setReg 0x800020 (BitVec.ofNat 64 (w.toNat % 65536 + 65536 * min 65535 (w.toNat / 65536 + 1)))
        let t := (t.copyFaults x.a).copyFaults x.b
        (match (s.region r).part with
         | some p => .next (t.boundaryWork p)
         | none => .next t)

end Sys2Proof.Machine
end

