-- ==== Sys2Proof/Machine/Memory.lean ====
section
/-! DEFINITION. The memory tiers (11): correction, patrol, retirement of a pseudo-channel, the failure of a stack, CXL
devices and windows; and the end of a handle's way to its backing or back (03). -/

namespace Sys2Proof.Machine

open Sys2Proof

/-! ## Correction, refresh and patrol (R340 to R345) -/

/-- The stack of a sector of HBM. -/
def State.stackOf (s : State) (sector : Nat) : Nat := (s.hbmPlace (sector * 32)).1

/-- The write-back of a corrected sector: the corrected data, or the write that came meanwhile, stands already (R340,
Table 11.6). -/
def execCorrectedWriteBack (sector : Nat) (s : State) : Result :=
  .next (s.modHbm (s.stackOf sector) (fun v => { v with writeBack := v.writeBack.erase sector }))

/-- The refresh rate at a stack temperature in °C (R344): how often the interval is divided. -/
def refreshRate (temp : Nat) : Nat := if 95 < temp then 4 else if 85 < temp then 2 else 1

/-- A controller refreshes its stack; one in self-refresh, or that failed, does not (R344). -/
def execRefresh (stack : Nat) (s : State) : Result :=
  let v := s.hbm stack
  if v.failed || v.selfRefresh then .next s
  else .next (s.setHbm stack { v with refreshes := v.refreshes + 1, refreshDiv := refreshRate v.temp })

/-- Patrol scrub reads one sector: corrections and uncorrectable sectors as on any read, poison reported by R342. -/
def execPatrolScrub (sector : Nat) (ecc : Ecc) (s : State) : Result :=
  let a := sector * 32
  let k := s.stackOf sector
  if decide (a < 16 * s.sliceSize) && (s.region (a / s.sliceSize)).inService && !(s.hbm k).failed && !(s.hbm k).selfRefresh then
    let t := (s.eccAt a ecc).modHbm k (fun v => { v with patrolPos := sector + 1 })
    .next (if t.sectorPoison a then t.poisonEvent a else t)
  else .next s

/-- A period that ends incomplete is counted, saturating, and the next goes on where it stopped (R345). -/
def execPatrolPeriodEnd (stack : Nat) (complete : Bool) (s : State) : Result :=
  if complete then .next (s.modHbm stack (fun v => { v with patrolPos := 0 }))
  else
    let w := s.reg 0x402008
    .next (s.setReg 0x402008 (BitVec.ofNat 64 (w.toNat % 65536 + 65536 * min 65535 (bitsOf w 31 16 + 1))))

/-! ## Pseudo-channel retirement (R348) -/

/-- The vacate timeout of a stack has passed: the retirement goes on at the boundary of its partition, or at once where
its region has none. -/
def execVacateTimeout (stack : Nat) (s : State) : Result :=
  let v := s.hbm stack
  if v.pending && decide (v.pendingSince + s.vacateTicks ≤ s.now) then
    match (s.region (stack / 2)).part with
    | some p => .next (s.boundaryWork p)
    | none => .next (s.startRetirement stack)
  else .next s

/-- The copy ends: the pseudo-channel is retired, its granules unmapped, and the boundary goes on (R347, R348 event 5). -/
def execPcRetirementDone (stack : Nat) (s : State) : Result :=
  let v := s.hbm stack
  if v.copying then
    let t := s.setHbm stack { v with retiredPc := v.candidate, copying := false, pending := false }
    match (s.region (stack / 2)).part with
    | some p => .next (t.boundaryWork p)
    | none => .next t
  else .next s

/-! ## Stack failure (R349) -/

/-- Whether a page of HBM lies in a stack. -/
def State.pageOnStack (s : State) (k g : Nat) : Bool := decide (g * 4096 < 16 * s.sliceSize) && (s.hbmPlace (g * 4096)).1 == k

/-- Whether context x owns a page, a checkpoint area or a save area on a stack. -/
def State.ownsOnStack (s : State) (x k : Nat) : Bool :=
  s.pages.any (fun e => e.2.owner == x && s.pageOnStack k e.1 && match e.2.use with
    | .mapped | .stepInput | .checkpoint | .image | .save => true
    | _ => false) ||
  (s.ctx x).saveRuns.any (fun r => (List.range r.2).any (fun j => s.pageOnStack k (r.1 + j)))

/-- What a stack's failure does to the partition of its region: panel-wide interleave and a journal in the slice are
partition-fatal; else the contexts with pages on the stack are lost. -/
def State.stackLost (s : State) (k p : Nat) : State :=
  let r := k / 2
  let v := s.part p
  let lose := fun (t : State) (x : Nat) => t.contextFatal x 0x3602 { region := r, part := p, detail := [k] }
  if runsMeet v.ringRun (s.sliceRun r) then ((s.ctxsOf p).foldl lose s).partFatal p 0x4604 { region := r, detail := [k] }
  else
    let t := ((s.ctxsOf p).filter (fun x => s.ownsOnStack x k)).foldl lose s
    if v.interleave then t.partFatal p 0x4604 { region := r, detail := [k] } else t

/-- A stack fails: from now on it reads as poison; its retirement stops; with its region's other stack failed too the
region is out of service (R349, Table 11.6, Table 1.9). -/
def State.failStack (s : State) (k : Nat) : State :=
  let v := s.hbm k
  if v.failed then s
  else
    let r := k / 2
    let t := s.setHbm k { v with failed := true, pending := false, copying := false }
    let t := match (s.region r).part with
      | some p => t.stackLost k p
      | none => t
    let t := if (s.hbm (k ^^^ 1)).failed then t.orderRetire r else t
    match (s.region r).part with
    | some p => if v.copying then t.boundaryWork p else t
    | none => t

def execStackFailure (stack : Nat) (s : State) : Result := if stack < 32 then .next (s.failStack stack) else .next s

/-- Whether nothing of region r's slice is held or mapped. -/
def State.sliceEmpty (s : State) (r : Nat) : Bool :=
  !s.pages.any (fun e => inRun e.1 (s.sliceRun r) && decide (e.2.use ≠ .free)) && !s.heldRuns.any (runsMeet (s.sliceRun r))

/-- The slice as the surviving stack holds it: its lower half maps linearly onto that stack (Table 1.9). -/
def State.remapBytes (s : State) (r k : Nat) : State :=
  let lo := r * s.sliceSize
  let hi := lo + s.sliceSize
  let kept := fun (a : Nat) => decide (lo ≤ a) && decide (a < hi) && (a - lo) / 4096 % 2 == k % 2
  let place := fun (a : Nat) => lo + (a - lo) / 8192 * 4096 + (a - lo) % 4096
  let cells := s.mem.filter (fun e => kept e.1)
  let bad := s.poison.filter (fun e => kept (e.1 * 32))
  let t := { s with mem := Tbl.drop (fun a => decide (lo ≤ a) && decide (a < hi)) s.mem,
                    poison := Tbl.drop (fun j => decide (lo ≤ j * 32) && decide (j * 32 < hi)) s.poison }
  let t := cells.foldl (fun (t : State) e => t.setByte (place e.1) e.2) t
  bad.foldl (fun (t : State) e => t.setPoison (place (e.1 * 32) / 32) true) t

/-- With one stack failed and no page of the slice mapped, the region remaps onto the other (R349 event 3). -/
def execStackFailureRemap (r : Nat) (s : State) : Result :=
  let v := s.region r
  let a := (s.hbm (2 * r)).failed
  let b := (s.hbm (2 * r + 1)).failed
  let wide := match v.part with
    | some p => (s.part p).interleave
    | none => false
  if (a != b) && v.linear.isNone && v.inService && !wide && s.sliceEmpty r then
    let k := if a then 2 * r + 1 else 2 * r
    .next ((s.remapBytes r k).modRegion r (fun v => { v with linear := some k, upperUnmapped := true }))
  else .next s

/-! ## CXL devices (R350, R351, R353, R445, R453) -/

/-- Root hash i of CXP_TRUST_ROOTS. -/
def State.trustRoot (s : State) (i : Nat) : BitVec 256 :=
  BitVec.ofNat 256 ((List.range 4).foldl (fun a w => a + (s.reg (0x300100 + 8 * (4 * i + w))).toNat * 2 ^ (64 * w)) 0)

/-- Whether a device's chain ends in a trusted root; a root of zeros matches none (R445). -/
def State.cxlTrusted (s : State) (d : CxlDevice) : Bool :=
  d.spdmOk && decide (d.rootHash ≠ 0) && (List.range 8).any (fun i => decide (s.trustRoot i = d.rootHash))

/-- Why a device is left unconfigured, if it is (R351): 68 B flits only, CXL.cache only, several logical devices, failed
authentication where it is required, or a ninth device on a port. -/
def State.cxlReason (s : State) (port : Nat) (d : CxlDevice) : Option Nat :=
  if !d.flit256 then some 1
  else if !d.mem then some 2
  else if 1 < d.logicalDevices then some 3
  else if (s.cxl port).ideRequired && !s.cxlTrusted d then some 4
  else if 8 ≤ (s.cxl port).devices.length then some 5
  else none

/-- A new IDE key is generated on the panel and programmed into the devices of a port (R453). -/
def State.keyPort (s : State) (port : Nat) : State :=
  let key := Config.newKey s.fresh
  (s.draw.modCxl port (fun v => { v with ideKey := some key, rekeyTick := s.now })).emit (.cxlKey port key)

/-- A device is enumerated on a port whose link is up: it is authenticated, its IDE set up where required, and it is
reported; or it is left unconfigured with the reason (R351, R353 events 1 to 3). -/
def State.cxlDevice (s : State) (port : Nat) (d : CxlDevice) : State :=
  let t := s.modCxl port (fun v => { v with up := true })
  if (s.cxl port).devices.any (fun o => o.id == d.id) then t
  else match s.cxlReason port d with
    | some why => (t.modCxl port (fun v => { v with unconfigured := v.unconfigured ++ [d.id] })).note 0x0701 { detail := [port, d.id, why] }
    | none =>
      let t := t.modCxl port (fun v => { v with devices := v.devices ++ [d], classical := v.classical || (s.cxlTrusted d && d.classicalOnly) })
      if (s.cxl port).ideRequired then t.keyPort port else t

/-- Whether the ports of a CXL die are absent (Table 1.9). -/
def State.cxlAbsent (s : State) (port : Nat) : Bool := s.boot.diesOff.contains (16, 8 + port / 2)

def execCxlLinkUp (port : Nat) (dev : CxlDevice) (s : State) : Result :=
  if port < 8 ∧ s.cxlAbsent port = false then .next (s.cxlDevice port dev) else .next s

/-- The keys of a port are refreshed every ide_rekey hours (R453). -/
def execCxlIdeRekey (port : Nat) (s : State) : Result :=
  let v := s.cxl port
  if v.up && v.ideKey.isSome && decide (v.rekeyTick + v.ideRekey * 3600 * ticksPerS ≤ s.now) then .next (s.keyPort port) else .next s

/-! ## Windows (R351 to R356) -/

/-- The byte range of a window. -/
def Window.lo (w : Window) : Nat := 2 ^ 48 + w.base * 2 ^ 28
def Window.bytes (w : Window) : Nat := w.size * 2 ^ 28

/-- The pages of a window as a run. -/
def Window.run (w : Window) : Nat × Nat := (w.lo / 4096, w.bytes / 4096)

/-- The device of a number: 8 × port + its place there. -/
def State.cxlDev (s : State) (d : Nat) : Option CxlDevice := (s.cxl (d / 8)).devices[d % 8]?

/-- Whether a window may be created: within tier 2 and meeting no other, on 1, 2, 4 or 8 devices present in no other
window, each of which has its share (R351, R355). -/
def State.windowOk (s : State) (w part base size : Nat) (devs : List Nat) : Bool :=
  let others := s.windows.filter (fun e => e.1 != w && decide (e.2.st ≠ .free))
  decide (w < 32) && decide ((s.win w).st = .free) && (s.part part).formed && decide (0 < size) && decide (base + size ≤ 65536) &&
  [1, 2, 4, 8].contains devs.length && decide devs.Nodup &&
  devs.all (fun d => decide (d < 64) && (s.cxl (d / 8)).up && (match s.cxlDev d with
    | some v => decide (size * 2 ^ 28 ≤ devs.length * v.capacity)
    | none => false) && !others.any (fun e => e.2.devs.contains d)) &&
  others.all (fun e => decide (e.2.base + e.2.size ≤ base) || decide (base + size ≤ e.2.base))

/-- The operator creates a window: the decoders are programmed and it enters ZEROING; else nothing changes (R353 events 4
and 5). -/
def execWindowCreate (w part base size : Nat) (devs : List Nat) (s : State) : Result :=
  if s.windowOk w part base size devs then
    .next ((s.setWin w { st := .zeroing, part := part, base := base, size := size, devs := sortNat devs }).fixPerims [8, 9, 10, 11])
  else .next s

/-- A window's bytes as zeros without poison. -/
def State.clearWindow (s : State) (w : Window) : State :=
  { s with mem := Tbl.drop (fun a => decide (w.lo ≤ a) && decide (a < w.lo + w.bytes)) s.mem,
           poison := Tbl.drop (fun j => decide (w.lo ≤ j * 32) && decide (j * 32 < w.lo + w.bytes)) s.poison }

/-- Every granule is zero: the window is ONLINE, and its partition gets capacity added (R353 event 6). -/
def execWindowZeroingDone (w : Nat) (s : State) : Result :=
  let v := s.win w
  if v.st = .zeroing then
    .next (((s.clearWindow v).setWin w { v with st := .online }).note 0x0702 { part := v.part, detail := [w] })
  else .next s

/-- The pages of a window that are mapped. -/
def State.windowPages (s : State) (w : Window) : Nat :=
  (s.pages.filter (fun e => inRun e.1 w.run && match e.2.use with
    | .free | .zeroing => false
    | _ => true)).length

/-- Offline is refused with the number of pages mapped; with none the window goes OFFLINE, and the zeroing of pages in it
is abandoned (R354). -/
def execWindowOffline (w : Nat) (s : State) : Result :=
  let v := s.win w
  if v.st = .online then
    let n := s.windowPages v
    if n = 0 then
      .next ({ s with pages := Tbl.drop (fun g => inRun g v.run) s.pages,
                      zeroRuns := s.zeroRuns.filter (fun z => !runsMeet z v.run) }.setWin w { v with st := .offline })
    else .next (s.note 0x0703 { part := v.part, detail := [n] })
  else .next s

/-- An OFFLINE or LOST window is deleted: it is FREE, and nothing of it remains (Table 11.4). -/
def execWindowDelete (w : Nat) (s : State) : Result :=
  let v := s.win w
  if v.st = .offline ∨ v.st = .lost then
    let t := s.clearWindow v
    .next ({ t with pages := Tbl.drop (fun g => inRun g v.run) t.pages,
                    zeroRuns := t.zeroRuns.filter (fun z => !runsMeet z v.run) }.setWin w {} |>.fixPerims [8, 9, 10, 11])
  else .next s

/-- A window loses a device: it is LOST, and each context that owns pages in it is context-fatal (R332, R355). -/
def State.loseWindow (s : State) (w : Nat) : State :=
  let v := s.win w
  match v.st with
  | .online | .zeroing | .offline =>
    let t := s.setWin w { v with st := .lost }
    ((s.ctxsOf v.part).filter (fun x => s.ownsIn x v.run)).foldl (fun (t : State) x =>
      t.contextFatal x 0x3704 { part := v.part, detail := [w] }) t
  | _ => s

def execCxlDeviceLoss (w : Nat) (s : State) : Result := .next (s.loseWindow w)

/-- The windows with a device on a port. -/
def State.windowsOn (s : State) (port : Nat) : List Nat := Tbl.keysWhere (fun _ v => v.devs.any (fun d => d / 8 == port)) s.windows

/-- The oldest request in flight to a window of a port. -/
def State.waitingAt (s : State) (port : Nat) : Option Packet :=
  s.net.find? (fun k => (decide (k.ptype = .memRd) || decide (k.ptype = .memWr)) && match placeOf k.index.toNat with
    | .tier2 off => (match s.windowAt off 1 with
        | some w => (s.windowsOn port).contains w
        | none => false)
    | _ => false)

/-- A CXL.mem request has had no response for 200 µs: it completes with poison and is counted; the eighth within 1 s loses
every device behind the port (R356). -/
def execCxlMemTimeout (port : Nat) (s : State) : Result :=
  if port < 8 then
    let v := s.cxl port
    let recent := v.timeoutTicks.filter (fun t => decide (s.now < t + ticksPerS)) ++ [s.now]
    let t := s.setCxl port { v with timeouts := satInc v.timeouts, timeoutTicks := recent }
    let t := match s.waitingAt port with
      | some k =>
        let u := t.removePkt k.id
        (if k.ptype = .memRd then (u.poisonEvent k.index.toNat).ackTo k 3 else u.ackTo k 3)
      | none => t
    if 8 ≤ recent.length then
      .next (((s.windowsOn port).foldl State.loseWindow t).modCxl port (fun v => { v with devices := [], timeoutTicks := [] }))
    else .next t
  else .next s

/-! ## The end of a spill or a restore (R97, R100, R101) -/

/-- One row of a spilled handle leaves tarn: its CRC is checked as it leaves, and its tag goes to the bitmap; the row in
tarn takes its former tag back. -/
def State.spillRow (s : State) (x c : Nat) (e back : HandleEntry) (k : Nat) : State :=
  let n := hBase e + k
  let r := s.ctxRow x c n
  let tag := if r.tag = .held then r.former else r.tag
  let bad := decide (r.syndrome ≠ 0) && decide (tag ≠ .poisoned)
  let tag := if bad then .poisoned else tag
  let t := ((s.writeMem (spillAddr back k) r.data.toNat 512).setBitmapTag back k tag).setCtxRow x c n { r with tag := tag }
  if bad then t.raise 0x2201 { s.atCluster c [c, n] with ctx := some x } else t

/-- One row of a handle comes back to tarn with its tag and a CRC computed afresh; a poisoned one is POISONED. -/
def State.restoreRow (s : State) (x c : Nat) (e : HandleEntry) (k : Nat) : State :=
  let bad := s.readsPoison (spillAddr e k) 512
  let tag := if bad then .poisoned else s.bitmapTag e k
  s.setCtxRow x c (hBase e + k) { data := BitVec.ofNat 4096 (s.readNat (spillAddr e k) 512), tag := tag }

/-- The context whose handle h of cluster c is on its way. -/
def State.transitOf (s : State) (c h : Nat) : Option (Nat × Option (Nat × Nat) × Transit) :=
  s.ctxs.findSome? (fun e => match e.2.transit with
    | some (qk, tr) => if tr.c = c ∧ tr.h = h then some (e.1, qk, tr) else none
    | none => none)

def execTransitEnd (c h : Nat) (s : State) : Result :=
  match s.transitOf c h with
  | none => .next s
  | some (x, qk, tr) =>
    let e := s.ctxHandle x c h
    let t := if tr.spill then
        let back := withBacking e tr.backing tr.addr tr.bitmap
        (((List.range (hCount e)).foldl (fun (t : State) k => t.spillRow x c e back k) s).setCtxHandle x c h back)
      else
        ((List.range (hCount e)).foldl (fun (t : State) k => t.restoreRow x c e k) s).setCtxHandle x c h (withBacking e 0 0 0)
    .next (((t.modCtx x (fun v => { v with transit := none })).closeDesc qk stOk 0).boundaryWork (s.ctx x).part)

end Sys2Proof.Machine
end

