-- ==== Sys2Proof/Machine/Power.lean ====
section
/-! DEFINITION. Power (16): the budget exchange, the BPM link, phases, overcurrent and involuntary Dark, soft starts, and
the power-state ladder. -/

namespace Sys2Proof.Machine

open Sys2Proof

/-- The Pewter that holds the lease, if one does (Table 18.1). -/
def State.holder (s : State) : Option Voter :=
  if s.mgt.north.role = .holder then some .north else if s.mgt.south.role = .holder then some .south else none

/-- Whether an operator command carries the current lease epoch (R558). -/
def State.current (s : State) (epoch : Nat) : Bool := epoch == s.mgt.epoch

/-! ## Dark -/

/-- The bytes of an HBM slice and its poison are lost. -/
def State.loseSlice (s : State) (r : Nat) : State :=
  let lo := r * s.sliceSize
  let hi := lo + s.sliceSize
  { s with mem := Tbl.drop (fun a => decide (lo ≤ a) && decide (a < hi)) s.mem,
           poison := Tbl.drop (fun j => decide (lo ≤ j * 32) && decide (j * 32 < hi)) s.poison }

/-- A cluster without power keeps what its steward holds of its health. -/
def darkCluster (v : Cluster) : Cluster := { st := if v.st = .failed then .failed else .off, health := v.health }

/-- The clusters of a region changed. -/
def State.modRegionClusters (s : State) (r : Nat) (f : Nat → Cluster → Cluster) : State :=
  { s with clusters := Tbl.mapVal (fun _ => {}) (fun c v => if regionOf c = r then f c v else v) s.clusters }

/-- A region without power on any rail: what Table 16.11 says Dark loses. -/
def darkRegion (v : Region) : Region :=
  { v with pstate := .dark, causes := [], step := 8, change := none, cycle := 0, halfPeriods := 0, gateCount := 0, budget := {}, soft := none,
           exchange := none, hot := [], thermalCap := 0, droopHolds := [], droopLower := false, blocker := none }

/-- A region goes Dark: registers, tarn and HBM contents are lost, and its cores with them (Table 16.11). -/
def State.goDark (s : State) (r : Nat) : State :=
  let t := (s.modRegion r darkRegion).modRegionClusters r (fun _ v => darkCluster v)
  let t := { t with tarn := Tbl.drop (fun k => regionOf (k / 16384) == r) t.tarn,
                    cores := Tbl.mapVal (fun _ => {}) (fun n v => if n / 24 = r then stopCore v else v) t.cores,
                    dir := t.dir.filter (fun e => e.1 / (s.sliceSize / 64) != r) }
  let t := t.modDomain r (fun v => { v with lastBeacon := none, missed := 0 })
  ((t.loseSlice r).modHbm (2 * r) (fun v => { v with selfRefresh := false, trained := false })).modHbm (2 * r + 1)
    (fun v => { v with selfRefresh := false, trained := false })

/-- A region's links and crossings are out of service (R469). -/
def State.loseLinks (s : State) (r : Nat) : State :=
  let t := (List.range 115).foldl (fun (t : State) n =>
    if linkExists r n then t.modFabLink r n (fun v => { v with outOfService := true, retraining := none, due := false }) else t) s
  let t := ((List.range 16).filter (· != r)).foldl (fun (t : State) o => (t.setPortBit r o 0 false).setPortBit r o 1 false) t
  (crossingsOf r).foldl (fun (t : State) x => t.modXing x (fun v => { v with outOfService := true, calibrating := false })) t

/-- A region that goes Dark of itself (R469): the event, the abort of a running step, both stacks as failed, its links
and crossings out of service, and its retirement from its partition, at once. -/
def State.involuntaryDark (s : State) (r cause : Nat) : State :=
  let src : Source := { region := r, part := ((s.region r).part).getD 31, detail := [r, cause, s.now] }
  let both := fun (t : State) => (t.modHbm (2 * r) (fun v => { v with failed := true, pending := false, copying := false })).modHbm (2 * r + 1)
    (fun v => { v with failed := true, pending := false, copying := false })
  match (s.region r).part with
  | none => both (((s.note 0x2B02 src).loseLinks r).goDark r) |>.modRegion r (fun v => { v with inService := false })
  | some p =>
    let t := match (s.part p).running with
      | some st => s.contained st.ctx 0x2B02 { src with ctx := some st.ctx }
      | none => s.note 0x2B02 src
    let t := match (t.part p).resident, (t.part p).pendingCause with
      | some x, some (c, _) =>
        if (t.ctx x).ckpt.isSome && (t.part p).running.isSome && ((t.part p).regions.filter (· != r)).all (fun q => decide ((t.region q).pstate = PState.run))
        then t.startRecovery p x c else t
      | _, _ => t
    let t := (t.loseLinks r).goDark r
    let t := if (t.part p).interleave then (t.partFatal p 0x4604 { region := r, detail := [2 * r] }) else t
    both (t.retireRegion r)

/-! ## Bring-up (R531, R539) -/

/-- Whether bring-up is at an event, and not stopped. -/
def State.inEvent (s : State) (n : Nat) : Bool := s.boot.event == n && !s.boot.stopped && !s.boot.complete && !s.boot.coldHeld && s.boot.vaon

/-- Bring-up goes on to an event. -/
def State.toEvent (s : State) (n : Nat) : State := { s with boot := { s.boot with event := n, eventTick := s.now, tries := 0 } }

/-- Bring-up stops: a device-fatal error, and released host-port dies present what R533 says. -/
def State.bootStop (s : State) (failure : Nat) : State :=
  let t := { s with boot := { s.boot with stopped := true } }.deviceFatal 0x5002 { detail := [s.boot.event, failure] }
  (List.range 16).foldl (fun (t : State) l => if (t.port (l / 2)).released then t.modLink l (fun v => { v with bootFailed := true }) else t) t

/-- Whether a region in service has come as far as an event of bring-up asks. -/
def State.stageDone (s : State) (r n : Nat) : Bool := !(s.region r).inService || (match (s.region r).soft with
  | some b => decide (n ≤ b.bootStage)
  | none => false)

/-- Events 5 to 7 end when every region in service has ended them; with none in service bring-up stops (R539). -/
def State.endStage (s : State) : State :=
  let e := s.boot.event
  if 5 ≤ e ∧ e ≤ 7 ∧ s.boot.stopped = false then
    (if (List.range 16).all (fun r => !(s.region r).inService) then s.bootStop 4
     else if (List.range 16).all (fun r => s.stageDone r (e - 4)) then s.toEvent (e + 1) else s)
  else s

/-- A region that fails at bring-up is Dark and out of service (R539). -/
def State.bootFail (s : State) (r : Nat) : State := (s.goDark r).modRegion r (fun v => { v with inService := false })

/-! ## Budgets and grants (R470 to R474) -/

/-- The power the grants may sum to, in W: the lower of the panel limit and the available power, of which 75 % counts
while both STATUS streams are lost (R472, Table 16.9). -/
def State.powerLimit (s : State) : Nat :=
  let avail := if s.bpm.lostN && s.bpm.lostS then s.bpm.available * 30 / 4 else s.bpm.available * 10
  min (bitsOf (s.reg 0x700580) 15 0 * 10) avail

/-- A segment's rating in W. -/
def State.rating (s : State) (seg : Nat) : Nat := Tbl.get (fun _ => 0) s.bpm.ratings seg * 10

/-- What the two grants of a segment may sum to, in W: 95 % of its rating, less what an excess current cuts (R472, Table
16.9). -/
def State.segmentLimit (s : State) (seg : Nat) : Nat := s.rating seg * 95 / 100 - Tbl.get (fun _ => 0) s.bpm.cut seg

/-- A region's base power at step 8: the floor of its grants. -/
def baseOf (r : Nat) : Nat := Config.baseW r 8

/-- The grants in force of all regions but one. -/
def State.grantedElse (s : State) (r : Nat) : Nat := (((List.range 16).filter (· != r)).map (fun q => (s.region q).budget.issued)).sum

/-- The most that may be granted to region r beside the other grants in force. -/
def State.roomFor (s : State) (r : Nat) : Nat :=
  min (s.powerLimit - s.grantedElse r) (s.segmentLimit (r / 2) - (s.region (partnerOf r)).budget.issued)

/-- A grant the limits allow; never below the region's floor (R472). -/
def State.grantFor (s : State) (r : Nat) : Nat :=
  let room := s.roomFor r
  if baseOf r ≤ room then baseOf r + Config.grantPick s.fresh % (room - baseOf r + 1) else baseOf r

/-- A max_step no lower than the caps. -/
def State.maxStepFor (s : State) (r : Nat) : Nat := s.capOf r + Config.grantPick (s.fresh + 1) % (9 - s.capOf r)

/-- Whether region r is held for lack of power. -/
def State.powerHeld (s : State) (r : Nat) : Bool := decide ((s.region r).pstate = .hold) && (s.region r).causes.contains .powerShort

def State.runs (s : State) (r : Nat) : Bool := decide ((s.region r).pstate = .run)

/-- A region is moved to Hold for lack of power, without a grant (R474). -/
def State.shed (s : State) (r : Nat) : State :=
  ((s.modRegion r (holdRegion .powerShort)).modRegion r (fun v => { v with budget := { v.budget with issued := 0 } })).note 0x1B07
    { region := r, part := ((s.region r).part).getD 31, detail := [r, r / 2, 0] }

/-- It leaves Hold, its floor set aside for its next grant (R474). -/
def State.unshed (s : State) (r : Nat) : State :=
  ((s.modRegion r (releaseRegion .powerShort)).modRegion r (fun v => { v with budget := { v.budget with issued := baseOf r } })).note 0x1B07
    { region := r, part := ((s.region r).part).getD 31, detail := [r, r / 2, 1] }

/-- The step-8 base power of the regions in Run with the measured power of those in Hold (R474). -/
def State.neededW (s : State) : Nat :=
  ((List.range 16).map (fun r => match (s.region r).pstate with
    | .run => baseOf r
    | .hold => (s.region r).budget.measured
    | _ => 0)).sum

/-- Load is removed where the limits cannot be met: segment by segment, then in descending region number (R474). -/
def State.shedLoad (s : State) : State :=
  let t := (List.range 8).foldl (fun (t : State) g =>
    if t.runs (2 * g) && t.runs (2 * g + 1) && decide (t.rating g * 95 < (baseOf (2 * g) + baseOf (2 * g + 1)) * 100) then t.shed (2 * g + 1) else t) s
  (List.range 16).reverse.foldl (fun (t : State) r => if t.runs r && decide (t.powerLimit < t.neededW) then t.shed r else t) t

/-- Held regions whose floor fits under every limit again are released, in ascending number (R474). -/
def State.releaseLoad (s : State) (held : List Nat) : State :=
  held.foldl (fun (t : State) r =>
    let partner := partnerOf r
    let seg := decide (((if t.runs partner then baseOf partner else 0) + baseOf r) * 100 ≤ t.rating (r / 2) * 95)
    if t.powerHeld r && decide (baseOf r ≤ t.roomFor r) && seg && decide (t.neededW - (t.region r).budget.measured + baseOf r ≤ t.powerLimit)
    then t.unshed r else t) s

/-! ## The coolant cap (R502, R503) -/

/-- The step the sum of forecasts allows. -/
def State.coolTarget (s : State) : Nat :=
  firstStep (fun k => coolantAllows s.cool.projected s.cool.inlet (s.panelForecast k) 1 1) 9 0

/-- The coolant cap, set at every grant interval: lowered at once, raised by one step once the allowed power has exceeded
the forecast at the higher step by 5 % for 1 s. -/
def State.coolCap (s : State) : State :=
  let v := s.cool
  let cur := if v.cap = 15 then 0 else v.cap
  if v.history.isEmpty then s
  else if cur < s.coolTarget then
    { s with cool := { v with cap := s.coolTarget, raiseSince := none } }.note 0x1C06 { detail := [v.flow, v.inlet, s.coolTarget] }
  else if 0 < cur && coolantAllows v.projected v.inlet (s.panelForecast (cur - 1)) 105 100 then
    let since := v.raiseSince.getD s.now
    if since + ticksPerS ≤ s.now then { s with cool := { v with cap := if cur = 1 then 15 else cur - 1, raiseSince := some s.now } }
    else { s with cool := { v with raiseSince := some since } }
  else { s with cool := { v with raiseSince := none } }

/-! ## The exchange -/

/-- A request reaches the lease holder: caps and Holds are set, and a grant goes back, but to a region held for lack of
power (R470, R472, R474). -/
def execBudgetReq (r : Nat) (req : Word) (s : State) : Result :=
  if 16 ≤ r ∨ bitsOf req 3 0 ≠ r ∨ s.holder.isNone then .next s
  else
    let seq := bitsOf req 15 4
    let t := s.modRegion r (fun v => { v with budget := { v.budget with seq := seq, measured := bitsOf req 31 16, forecast := bitsOf req 47 32 } })
    let t := t.refreshReading (readingNo 2 r)
    let held := (List.range 16).filter t.powerHeld
    let t := (t.coolCap.shedLoad).releaseLoad held
    if t.powerHeld r then .next t
    else
      let g := t.grantFor r
      let m := t.maxStepFor r
      .next (((t.draw.draw).modRegion r (fun v => { v with budget := { v.budget with issued := g } })).emit (.budgetGrant r seq g m t.mgt.epoch))

/-- Whether a region must gate until its step changes for its temperature (R495). -/
def Region.hotNow (v : Region) (limit : Nat) : Bool := decide (v.step < v.cap) && v.hot.any (fun e => decide ((limit : Int) * 8 ≤ e.2.filtered))

/-- Budget gating after an interval: one period in 8, then in 4, then in 2, while the excess persists (R472, R495). -/
def nextGating (excess : Bool) (g : Nat) : Nat := if !excess then 0 else if g = 0 then 8 else if g = 8 then 4 else 2

/-- The gating of region r for the interval that begins. -/
def State.regate (s : State) (r : Nat) : State :=
  s.modRegion r (fun v => { v with budget := { v.budget with
    gating := nextGating (decide (v.budget.grant * 105 < v.budget.measured * 100) || v.hotNow s.throttleC) v.budget.gating } })

/-- A grant of the current epoch is taken and applied; a region of no partition changes its step at once (R285, R470,
R472). -/
def execBudgetGrant (r : Nat) (grant : BitVec 96) (s : State) : Result :=
  if r < 16 ∧ bitsOf grant 3 0 = r ∧ bitsOf grant 63 36 = 0 then
    .next (s.regionCmd r (bitsOf grant 95 64) (fun t =>
      let u := (t.modRegion r (fun v => { v with budget := { v.budget with
        grant := bitsOf grant 31 16, maxStep := bitsOf grant 35 32, lastGrant := s.now, fallback := false } })).regate r
      if (u.region r).part.isNone && u.boot.complete then u.boundaryStep r else u))
  else .next s

/-- Three intervals without a grant: the steward uses the lower of its last one and a sixteenth of the panel limit
(R473). -/
def execGrantTimeout (r : Nat) (s : State) : Result :=
  let b := (s.region r).budget
  if r < 16 ∧ b.lastGrant + 30000 ≤ s.now then
    let t := (s.modRegion r (fun v => { v with budget := { b with grant := min b.grant (bitsOf (s.reg 0x700580) 15 0 * 10 / 16), fallback := true } })).regate r
    .next (if b.fallback then t else t.note 0x1B03 { region := r, part := ((s.region r).part).getD 31, detail := [r] })
  else .next s

/-! ## The BPM link (R475 to R480) -/

/-- Whether a frame is one of a type from the BPM with a right CRC (R476, Table 16.7). -/
def frameOk (f : BitVec 256) (ftype : Nat) : Bool :=
  bitsOf f 3 0 == ftype && bitsOf f 7 4 == 0 && (crc32c 0xFFFFFFFF#32 (bytesOf f 28)).toNat == bitsOf f 255 224

/-- A frame discarded. -/
def State.badFrame (s : State) : State := { s with bpm := { s.bpm with discards := satInc s.bpm.discards } }

/-- A command of the lease holder to the BPM: no rail is commanded on while none is seated or power was removed. -/
def State.bpmCommand (s : State) (op : Nat) (mask : BitVec 8) : State :=
  if op = 1 ∧ (!s.bpm.present ∨ s.bpm.killed) then s
  else
    let seq := (s.bpm.cmdSeq + 1) % 256
    { s with bpm := { s.bpm with cmdSeq := seq, cmdOpen := some (seq, op, mask),
                                 railsWanted := if op = 1 then true else if op = 5 then false else s.bpm.railsWanted } }.emit
      (.bpmCmd op mask s.mgt.epoch)

/-- A segment's rating as the panel takes it: at most 3.6 kW, rising at most by 0.5 kW per second (Table 16.9); the first
is taken as it comes. -/
def takeRating (now v : Nat) (first : Bool) (old since : Nat) : Nat × Nat :=
  let v := min v 360
  let gain := (now - since) / 2000000
  if first || decide (v ≤ old + gain) then (v, now) else (old + gain, since + gain * 2000000)

/-- The ratings of a STATUS frame taken. -/
def State.takeRatings (s : State) (f : BitVec 256) : State :=
  let first := s.bpm.lastStatusN.isNone && s.bpm.lastStatusS.isNone
  (List.range 8).foldl (fun (t : State) g =>
    let old := Tbl.get (fun _ => 0) t.bpm.ratings g
    let q := takeRating s.now (bitsOf f (48 + 16 * g + 15) (48 + 16 * g)) first old (Tbl.get (fun _ => 0) t.bpm.ratingFrom g)
    { t with bpm := { t.bpm with ratings := Tbl.set (fun _ => 0) t.bpm.ratings g q.1,
                                 ratingFrom := Tbl.set (fun _ => 0) t.bpm.ratingFrom g q.2 } }) s

/-- A STATUS frame: ratings, sense faults, rails, segments and the power available (R464, R465, Table 16.8); a sense fault
of a rail is a corrected event. -/
def execStatus (port : Nat) (f : BitVec 256) (s : State) : Result :=
  if frameOk f 1 then
    let t := s.takeRatings f
    let t := (List.range 16).foldl (fun (t : State) r => t.modRegion r (fun v => { v with senseFault := bitOf f (48 + 136 + r) })) t
    let rails := f.extractLsb' (48 + 152) 5
    let b : Bpm := { t.bpm with
      segmentsOn := f.extractLsb' (48 + 128) 8, senseRails := rails, railsOn := f.extractLsb' (48 + 157) 5,
      available := bitsOf f (48 + 175) (48 + 162),
      lastStatusN := if port = 0 then some s.now else t.bpm.lastStatusN, lastStatusS := if port = 0 then t.bpm.lastStatusS else some s.now,
      lostN := t.bpm.lostN && decide (port ≠ 0), lostS := t.bpm.lostS && decide (port = 0) }
    let t := { t with bpm := b }
    .next (if rails = 0 then t else t.note (0x1B00 + Config.railSenseCode % 256) { detail := [rails.toNat] })
  else .next s.badFrame

/-- A TELEMETRY frame policed: a segment's voltage out of 0.90 to 1.00 V caps its regions at step 3; a current above 110 %
of the rating cuts its grants by the excess (R480, Table 16.9). -/
def execTelemetry (port : Nat) (f : BitVec 256) (s : State) : Result :=
  let which := bitsOf f 51 48
  if frameOk f 2 && decide (which ≤ 12) && bitsOf f 223 96 == 0 && decide (port < 2) then
    let mv := bitsOf f 67 52
    let amps := bitsOf f 87 68
    let s := s.refreshReading (readingNo 3 which)
    let b := { s.bpm with volts := Tbl.set (fun _ => 0) s.bpm.volts which mv, amps := Tbl.set (fun _ => 0) s.bpm.amps which amps,
                          temp := bitsOf f 95 88 }
    if which < 8 then
      let bad := decide (mv < 900) || decide (1000 < mv)
      let excess := (amps * 95 - 1100 * s.rating which + 999) / 1000
      let b := { b with cut := Tbl.set (fun _ => 0) b.cut which excess,
                        capSegs := if bad then (if b.capSegs.contains which then b.capSegs else b.capSegs ++ [which]) else b.capSegs.filter (· != which) }
      let t := { s with bpm := b }
      .next (if bad then t.note 0x0B04 { detail := [which] } else t)
    else .next { s with bpm := b }
  else .next s.badFrame

/-- What a command that is done leaves on. -/
def applyCmd (op : Nat) (mask : BitVec 8) (v : Bpm) : Bpm :=
  match op with
  | 1 => { v with railsOn := v.railsOn ||| mask.setWidth 5 }
  | 2 => { v with railsOn := v.railsOn &&& ~~~(mask.setWidth 5) }
  | 3 => { v with segmentsOn := v.segmentsOn ||| mask }
  | 4 => { v with segmentsOn := v.segmentsOn &&& ~~~mask }
  | _ => { v with segmentsOn := 0, railsOn := 0x08 }

/-- An acknowledgement closes the command it names; one done takes effect (R477). -/
def execBpmAck (port : Nat) (f : BitVec 256) (s : State) : Result :=
  if frameOk f 4 && decide (bitsOf f 63 56 ≤ 2) && decide (port < 2) then
    match s.bpm.cmdOpen with
    | some (seq, op, mask) =>
      if seq = bitsOf f 55 48 then
        let b := { s.bpm with cmdOpen := none }
        .next { s with bpm := if bitsOf f 63 56 = 0 then applyCmd op mask b else b }
      else .next s
    | none => .next s
  else .next s.badFrame

/-- An alert is kept with its cause and segment or rail (R477). -/
def execAlert (port : Nat) (f : BitVec 256) (s : State) : Result :=
  if frameOk f 8 && decide (1 ≤ bitsOf f 55 48) && decide (bitsOf f 55 48 ≤ 4) && decide (port < 2) then
    .next { s with bpm := { s.bpm with fault := some (bitsOf f 55 48, bitsOf f 63 56) } }
  else .next s.badFrame

/-- The lease holder's keepalive, and the RENEW that follows it (R478, R515, R516). -/
def execKeepalive (s : State) : Result :=
  match s.holder with
  | some v =>
    let b := s.mgt.bpmVote
    let b : VoterRec := if b.holder = some v then { b with lastRenew := s.now } else b
    .next (({ s with bpm := { s.bpm with keepaliveTick := s.now }, mgt := { s.mgt with bpmVote := b } }.emit (.keepalive s.mgt.epoch)).emit
      (.voteReq v .bpm 2 s.mgt.epoch true s.now))
  | none => .next s

/-- No valid STATUS for 300 µs on a port: it is lost (Table 16.9). -/
def execBpmStatusTimeout (port : Nat) (s : State) : Result :=
  let last := if port = 0 then s.bpm.lastStatusN else s.bpm.lastStatusS
  let lost := if port = 0 then s.bpm.lostN else s.bpm.lostS
  if port < 2 ∧ lost = false ∧ last.getD 0 + 30000 ≤ s.now then
    .next ({ s with bpm := { s.bpm with lostN := s.bpm.lostN || port == 0, lostS := s.bpm.lostS || port == 1 } }.note 0x1B03
      { detail := [31, port] })
  else .next s

/-- BPM_PG falls while rails are commanded on: every region enters Hold and the rails are commanded again, once; a second
failure within 1 s is device-fatal (Table 16.9). -/
def execBpmPgFailure (s : State) : Result :=
  if s.bpm.railsWanted then
    let t := { s with bpm := { s.bpm with pg := false } }.allRegions (holdRegion .bpmPg)
    let again := match s.bpm.recommanded with
      | some k => decide (s.now < k + ticksPerS)
      | none => false
    if again then .next (t.deviceFatal 0x5B05 { detail := [s.bpm.railsOn.toNat] })
    else .next (({ t with bpm := { t.bpm with recommanded := some s.now } }.note 0x1B05 { detail := [s.bpm.railsOn.toNat] }).bpmCommand 1
      (s.bpm.railsOn.setWidth 8))
  else .next { s with bpm := { s.bpm with pg := false } }

/-- The presence of the BPM (Table 16.9); one that goes while rails are commanded on counts as BPM_PG failing twice
(R582). -/
def execBpmPresentN (level : Bool) (s : State) : Result :=
  let t := { s with bpm := { s.bpm with present := !level } }
  if level && s.bpm.railsWanted && s.bpm.present then
    .next (({ t with bpm := { t.bpm with pg := false } }.allRegions (holdRegion .bpmPg)).deviceFatal 0x5B05 { detail := [s.bpm.railsOn.toNat] })
  else .next t

/-- Hosts see management lost: the bit of every link, and vector 0 of every enabled physical function once (R520). -/
def State.managementLost (s : State) : State :=
  (List.range 16).foldl (fun (t : State) l =>
    let u := t.modLink l (fun v => { v with mgmtLost := true })
    if (t.link l).up && !(t.link l).mgmtLost then u.emit (.interrupt (64 * l) 0) else u) (s.note 0x5D02 {})

/-- BPM_HOLD_N falls: every region in Run enters Hold, whatever it was last told; management is lost (R478, R520). -/
def execBpmHoldN (s : State) : Result :=
  let t := { s with bpm := { s.bpm with hold := true } }.allRegions (holdRegion .bpmHold)
  .next (if s.bpm.hold then t else t.managementLost)

/-! ## The removal of power (R479, R499) -/

/-- Every rail but VAON is removed: every region is Dark, dies on VIO are off, and every sequence ends; the log survives. -/
def State.removeRails (s : State) : State :=
  let t := (List.range 16).foldl (fun (t : State) p => t.haltStep p) s
  let t := (List.range 16).foldl State.goDark t
  { t with bpm := { t.bpm with killed := true, railsWanted := false, segmentsOn := 0, railsOn := 0x08, cmdOpen := none, pg := false },
           links := Tbl.mapVal (fun _ => {}) (fun _ v => { v with up := false }) t.links,
           cxlPorts := Tbl.mapVal (fun _ => {}) (fun _ v => { v with up := false, ideKey := none }) t.cxlPorts,
           net := [] }

/-- PNL_KILL_N is driven low for a hot spot: a device-fatal error, and the BPM removes the rails. -/
def State.powerRemoval (s : State) (detail : List Nat) : State :=
  if s.bpm.killed then s else ((s.deviceFatal 0x5C05 { detail := detail }).emit .killLine).removeRails

def execPnlKillN (s : State) : Result := .next (s.powerRemoval [])
def execJunctionKillComparator (r site : Nat) (s : State) : Result := .next (s.powerRemoval [r, site])

/-! ## Overcurrent and phases (R467, R468) -/

/-- The input switch opens; the second such Dark of a region lasts until the next cold reset. -/
def execOvercurrentTrip (r : Nat) (s : State) : Result :=
  if 16 ≤ r ∨ (s.region r).pstate = .dark then .next s
  else .next ((s.modRegion r (fun v => { v with darkTrips := min 3 (v.darkTrips + 1) })).involuntaryDark r 2)

/-- A phase fails, until the next cold reset: the rail shares the load, the region is capped, or it goes Dark (Table
16.4). -/
def execPhaseFailure (r phase : Nat) (s : State) : Result :=
  if 16 ≤ r ∨ 64 ≤ phase ∨ bitOf (s.region r).phases phase = true then .next s
  else
    let w := (s.region r).phases ||| BitVec.ofNat 64 (2 ^ phase)
    let t := s.modRegion r (fun v => { v with phases := w })
    if phaseDark w then .next (if (s.region r).pstate = .dark then t else t.involuntaryDark r 1)
    else .next (t.note 0x1B01 { region := r, part := ((s.region r).part).getD 31, detail := [r, failedIn w 0 64] })

/-! ## Bringing a region up (R481 to R484) -/

/-- The operator commands a region up: it is Dark, in no partition, and has not tripped Dark twice (R469, R484). -/
def execRegionPowerUp (r : Nat) (s : State) : Result :=
  let v := s.region r
  if r < 16 ∧ v.pstate = .dark ∧ v.part = none ∧ v.darkTrips < 2 ∧ v.soft = none ∧ s.bpm.killed = false then
    .next (s.modRegion r (fun v => { v with soft := some { started := s.now } }))
  else .next s

def State.modSoft (s : State) (r : Nat) (f : SoftStart → SoftStart) : State := s.modRegion r (fun v => { v with soft := v.soft.map f })

/-- Whether the segment admits a soft start: I_seg + 600 A ≤ 0.9 × its current rating (R482). -/
def State.admits (s : State) (r iseg : Nat) : Bool := decide ((iseg + 600) * 95 ≤ 90 * s.rating (r / 2))

/-- A check: the soft start begins where the segment admits it, within 5 ms, or after the partner's step-down (R482,
R483). -/
def execSoftStartCheck (r iseg : Nat) (s : State) : Result :=
  match (s.region r).soft with
  | some b =>
    let open' := decide (s.now ≤ b.started + 5 * ticksPerMs) || (b.partnerStep.isSome && (s.region (partnerOf r)).change.isNone) ||
      b.partnerHeld || decide ((s.region (partnerOf r)).pstate = .dark)
    if b.begun.isNone && open' && s.admits r iseg then .next (s.modSoft r (fun b => { b with begun := some s.now })) else .next s
  | none => .next s

/-- After 5 ms the partner steps down at once where it is at a boundary or in no partition, or at its next boundary; at
step 8 it enters Hold (R483). -/
def execSoftStartStepDown (r : Nat) (s : State) : Result :=
  let q := partnerOf r
  match (s.region r).soft with
  | some b =>
    if b.begun.isSome || b.partnerDue || b.partnerStep.isSome || b.partnerHeld || decide (s.now < b.started + 5 * ticksPerMs) ||
        decide ((s.region q).pstate ≠ .run) then .next s
    else
      let now := match (s.region q).part with
        | some p => s.atBoundary p
        | none => true
      if now && (s.region q).change.isNone then
        (if (s.region q).step = 8 then .next ((s.modRegion q (holdRegion .softStart)).modSoft r (fun b => { b with partnerHeld := true }))
         else .next ((s.startChange q ((s.region q).step + 1)).modSoft r (fun b => { b with partnerStep := some (s.region q).step })))
      else .next (s.modSoft r (fun b => { b with partnerDue := true }))
  | none => .next s

/-- The partner returns to its former step, or leaves Hold. -/
def State.restorePartner (s : State) (r : Nat) (b : SoftStart) : State :=
  let q := partnerOf r
  let t := if b.partnerHeld then s.modRegion q (releaseRegion .softStart) else s
  match b.partnerStep with
  | some k => t.startChange q k
  | none => t

/-- enable_timeout has passed without a soft start: the region stays Dark, at bring-up out of service (R483, R539). -/
def execSoftStartAbandon (r : Nat) (s : State) : Result :=
  match (s.region r).soft with
  | some b =>
    if b.begun.isNone && decide (b.started + bitsOf (s.reg 0x700588) 13 0 * ticksPerMs ≤ s.now) then
      let t := ((s.modRegion r (fun v => { v with soft := none })).restorePartner r b).note 0x0B06 { region := r, detail := [r] }
      .next (if s.inEvent 5 then (t.bootFail r).endStage else t)
    else .next s
  | none => .next s

/-- The soft start ends: the rails ramp to step 8, the rows are zero and EMPTY, the cycle counter starts from zero, and
the partner is restored (R75, R64, R481, R483). -/
def execSoftStartDone (r : Nat) (s : State) : Result :=
  match (s.region r).soft with
  | some b =>
    (match b.begun with
     | some t0 =>
       if b.ramped || decide (s.now < t0 + 12800) then .next s
       else
         let b' : SoftStart := { b with ramped := true, partnerStep := none, partnerHeld := false, partnerDue := false }
         let t := s.modRegion r (fun v => { v with step := 8, cycle := 0, halfPeriods := 0, soft := some b' })
         .next ({ t with tarn := Tbl.drop (fun k => regionOf (k / 16384) == r) t.tarn }.restorePartner r b)
     | none => .next s)
  | none => .next s

/-- Clusters of a region as they come back: mapped ones Idle, Failed ones Failed (R62). -/
def State.idleClusters (s : State) (r : Nat) : State :=
  (clustersOfRegion r).foldl (fun (t : State) c =>
    if t.vacant c ∨ (t.cl c).st = .failed then t else t.modCl c (fun v => { v with st := .idle })) s

/-- The state a region enters when it comes up: Run, or Quiet or Hold where the coolant or the BPM asks for it (Table
16.13). -/
def State.wakeState (s : State) : PState × List HoldCause :=
  if s.cool.response = .quiet then (.quiet, [.coolant])
  else if s.cool.response = .hold then (.hold, [.coolant])
  else if s.bpm.hold then (.hold, [.bpmHold])
  else (.run, [])

/-- The links, ports and crossings of a region are in service again; its crossings are calibrated (R484). -/
def State.restoreLinks (s : State) (r : Nat) : State :=
  let t := (List.range 115).foldl (fun (t : State) n =>
    if linkExists r n then t.modFabLink r n (fun v => { v with outOfService := false }) else t) s
  let t := ((List.range 16).filter (fun o => o != r && decide ((s.region o).pstate ≠ .dark))).foldl
    (fun (t : State) o => (t.setPortBit r o 0 true).setPortBit r o 1 true) t
  ((crossingsOf r).foldl (fun (t : State) x => t.modXing x (fun v => { v with outOfService := false, failures := 0 })) t).calibrateAround r

/-- The stacks are trained and the region is in service (R484, Table 16.10). -/
def State.regionUp (s : State) (r : Nat) : State :=
  let e := s.wakeState
  let heal := (s.hbm (2 * r)).failed && (s.hbm (2 * r + 1)).failed
  let train := fun (v : Stack) => { v with trained := true, failed := v.failed && !heal, selfRefresh := decide (e.1 = .quiet) }
  let t := s.modRegion r (fun v => { v with soft := none, pstate := e.1, causes := e.2, inService := true, retire := false })
  (((t.modHbm (2 * r) train).modHbm (2 * r + 1) train).idleClusters r).restoreLinks r

def execRegionPowerUpDone (r : Nat) (s : State) : Result :=
  match (s.region r).soft with
  | some b => if b.ramped ∧ b.bootStage = 0 ∧ s.inEvent 5 = false then .next (s.regionUp r) else .next s
  | none => .next s

/-! ## Hold, Quiet, Park and Dark (R485 to R488) -/

/-- The lease holder moves a region to Hold. -/
def execHoldEntry (r epoch : Nat) (s : State) : Result :=
  if r < 16 then .next (s.regionCmd r epoch (fun t => t.modRegion r (holdRegion .command))) else .next s

/-- What a cluster loses in Quiet: registers, accumulators, weight banks and tables; run-ahead is squashed (R487, Table
16.11). -/
def quietCluster (v : Cluster) : Cluster :=
  { v with regs := {}, eng := {}, ahead := {}, fab := {}, hold := none, code := { v.code with lines := [], marks := [], waits := [] } }

/-- A region enters Quiet for a cause; its stacks are in self-refresh (R487). -/
def State.enterQuiet (s : State) (r : Nat) (cause : HoldCause) : State :=
  match (s.region r).pstate with
  | .run | .hold =>
    let t := (s.modRegion r (fun v => { v with pstate := .quiet, causes := [cause], quietTick := s.now })).modRegionClusters r (fun _ v => quietCluster v)
    (t.modHbm (2 * r) (fun v => { v with selfRefresh := true })).modHbm (2 * r + 1) (fun v => { v with selfRefresh := true })
  | .quiet => s.modRegion r (fun v => if v.causes.contains cause then v else { v with causes := v.causes ++ [cause] })
  | _ => s

def execQuietEntry (r epoch : Nat) (s : State) : Result :=
  if r < 16 then .next (s.regionCmd r epoch (fun t => t.enterQuiet r .command)) else .next s

/-- A region leaves Quiet to Run: its crossings are calibrated, and a step of its partition, or its recovery, is aborted
for recovery (R292, R487). -/
def State.leaveQuiet (s : State) (r : Nat) : State :=
  let t := (s.modRegion r (fun v => { v with pstate := .run, causes := [] })).calibrateAround r
  let t := (t.modHbm (2 * r) (fun v => { v with selfRefresh := false })).modHbm (2 * r + 1) (fun v => { v with selfRefresh := false })
  match (s.region r).part with
  | none => t
  | some p =>
    (match (s.part p).running, (s.part p).recovery, (s.part p).resident with
     | some st, _, _ => t.askRecovery st.ctx { region := r, part := p }
     | none, some _, some x => t.askRecovery x { region := r, part := p }
     | _, _, _ => t)

/-- A cause of Quiet is over; with none left the region leaves it, unless BPM_HOLD_N holds it (Table 16.13). -/
def State.endQuiet (s : State) (r : Nat) (cause : HoldCause) : State :=
  let v := s.region r
  if v.pstate = .quiet then
    let cs := v.causes.filter (fun k => decide (k ≠ cause))
    if cs.isEmpty && !s.bpm.hold then s.leaveQuiet r else s.modRegion r (fun v => { v with causes := if cs.isEmpty then [cause] else cs })
  else s

def execQuietExit (r : Nat) (s : State) : Result := if r < 16 then .next (s.endQuiet r .command) else .next s

/-- Whether a page, journal, save area, image area or bitmap is held in region r's slice (R486). -/
def State.parkBlocked (s : State) (r : Nat) : Bool :=
  s.pages.any (fun e => inRun e.1 (s.sliceRun r) && decide (e.2.use ≠ .free)) || s.heldRuns.any (runsMeet (s.sliceRun r))

/-- The owner context of what blocks a Park first: of a page, else of a save or staging area (R488). -/
def State.parkBlocker (s : State) (r : Nat) : Option Nat :=
  match s.pages.find? (fun e => inRun e.1 (s.sliceRun r) && decide (e.2.use ≠ .free)) with
  | some e => some e.2.owner
  | none => (s.ctxs.find? (fun e => e.2.saveRuns.any (runsMeet (s.sliceRun r)) ||
      e.2.slots.any (fun t => t.2.staging.any (runsMeet (s.sliceRun r))))).map Prod.fst

/-- Park: refused while a step of the partition runs or something is owned in the slice; else the region keeps tarn,
handles and map, and loses the rest (R486, R488, Table 16.11, R62). -/
def State.enterPark (s : State) (r : Nat) : State :=
  let v := s.region r
  if ¬(v.pstate = .run ∨ v.pstate = .hold) then s
  else
    let stepRuns := match v.part with
      | some p => (s.part p).running.isSome || (s.part p).recovery.isSome
      | none => false
    if stepRuns || s.parkBlocked r then
      (s.modRegion r (fun v => { v with blocker := s.parkBlocker r })).note 0x0B06
        { region := r, part := (v.part).getD 31, detail := [r, (s.parkBlocker r).getD 1024] }
    else
      let t := (s.modRegion r (fun v => { v with pstate := .park, causes := [], blocker := none })).modRegionClusters r
        (fun _ v => { quietCluster v with st := if v.st = .failed then .failed else .off })
      t.loseSlice r

def execParkEntry (r epoch : Nat) (s : State) : Result :=
  if r < 16 then .next (s.regionCmd r epoch (fun t => t.enterPark r)) else .next s

/-- Park ends: Run, with crossings calibrated and mapped clusters Idle (R62, R292). -/
def execParkExit (r epoch : Nat) (s : State) : Result :=
  if r < 16 then .next (s.regionCmd r epoch (fun t =>
    if (t.region r).pstate = .park ∧ t.bpm.hold = false then
      ((t.modRegion r (fun v => { v with pstate := .run })).idleClusters r).calibrateAround r
    else t))
  else .next s

/-- The operator powers a region of no partition to Dark. -/
def execDarkCommand (r epoch : Nat) (s : State) : Result :=
  if r < 16 then .next (s.regionCmd r epoch (fun t =>
    if (t.region r).part = none ∧ (t.region r).pstate ≠ .dark then t.goDark r else t))
  else .next s

/-- BPM_PG goes high: regions held for it go on (R531 event 4, R480). -/
def execBpmPgRise (s : State) : Result :=
  .next ({ s with bpm := { s.bpm with pg := true }, boot := { s.boot with railTick := none } }.allRegions (releaseRegion .bpmPg))

end Sys2Proof.Machine
end

