-- ==== Sys2Proof/Machine/Cooling.lean ====
section
/-! DEFINITION. Thermal control (17): junction and stack sensors, caps, the hard trip, and coolant supervision.
Temperatures of junctions and coolant are in 0.125 °C, flow in 0.1 L/min. -/

namespace Sys2Proof.Machine

open Sys2Proof

/-! ## Junction sensors (R491 to R493) -/

/-- Hot spot h of a site, by one key. -/
def hotKey (site h : Nat) : Nat := site * 4 + h

def State.hotSpot (s : State) (r k : Nat) : HotSpot := Tbl.get (fun _ => {}) (s.region r).hot k
def State.setHot (s : State) (r k : Nat) (v : HotSpot) : State :=
  s.modRegion r (fun w => { w with hot := Tbl.set (fun _ => {}) w.hot k v })

/-- Whether a junction sample is valid: −20 °C to 150 °C, and within 20 K of the sensor's last valid one (R493). -/
def sampleValid (t : Int) (prev : Option Int) : Bool :=
  decide (-160 ≤ t) && decide (t ≤ 1200) && match prev with
    | some p => decide ((t - p).natAbs ≤ 160)
    | none => true

/-- The reading of a pair (Table 17.3); with neither valid, the throttle threshold. -/
def pairReading (a b : Int) (va vb : Bool) (throttle : Nat) : Int :=
  if va && vb then max a b else if va then a + 40 else if vb then b + 40 else (throttle : Int) * 8

/-- The pair's flag: set after 10 ms more than 6 K apart, cleared after 1 s of agreement (R493, Table 17.3). -/
def pairFlag (now : Nat) (apart : Bool) (v : HotSpot) : HotSpot :=
  if apart then
    let since := v.apartSince.getD now
    { v with apartSince := some since, agreeSince := none, flagged := v.flagged || decide (since + 10 * ticksPerMs < now) }
  else
    let since := v.agreeSince.getD now
    { v with apartSince := none, agreeSince := some since, flagged := v.flagged && decide (now < since + ticksPerS) }

/-- A hot spot with one more sample of each of its sensors. -/
def takeSample (now throttle : Nat) (a b : Int) (v : HotSpot) : HotSpot :=
  let va := sampleValid a v.diodePrev
  let vb := sampleValid b v.ringPrev
  let x := pairReading a b va vb throttle
  let recent := (v.recent ++ [x]).drop ((v.recent.length + 1) - 4)
  let since : Option Nat := if va || vb then some (v.validSince.getD now) else none
  let v := pairFlag now (va && vb && decide (48 < (a - b).natAbs)) v
  { v with diode := a, ring := b, diodePrev := if va then some a else v.diodePrev, ringPrev := if vb then some b else v.ringPrev,
           diodeValid := va, ringValid := vb, reading := x, recent := recent, filtered := recent.sum / recent.length,
           history := v.history.filter (fun e => decide (now < e.1 + 100 * ticksPerMs)) ++ [(now, x)],
           blind := !va && !vb || (v.blind && match since with
             | some t => decide (now < t + ticksPerS)
             | none => true),
           validSince := since, tripCount := if 880 ≤ x then v.tripCount + 1 else 0 }

/-- The source of a thermal event of a region. -/
def State.atHot (s : State) (r : Nat) (detail : List Nat) : Source := { region := r, part := ((s.region r).part).getD 31, detail := detail }

/-! ## Warn and throttle (R495, R496) -/

/-- A region at throttle: the cap goes to one step below the current one, and it gates until its step changes. -/
def State.throttleRegion (s : State) (r spot : Nat) : State :=
  let t := s.modRegion r (fun v => { v with thermalCap := max v.thermalCap (min 8 (v.step + 1)), capTick := s.now,
                                            budget := { v.budget with gating := if v.budget.gating = 0 then 8 else v.budget.gating } })
  t.note 0x1C02 (s.atHot r [spot, (t.region r).thermalCap])

/-- Whether every hot spot and stack of a region is at least 3 K below its throttle threshold (R496). -/
def State.coolNow (s : State) (r : Nat) : Bool :=
  (s.region r).hot.all (fun e => decide (e.2.filtered + 24 ≤ (s.throttleC : Int) * 8)) &&
  decide ((s.hbm (2 * r)).temp + 3 ≤ s.hbmThrottleC) && decide ((s.hbm (2 * r + 1)).temp + 3 ≤ s.hbmThrottleC)

/-- Since when that has been so. -/
def State.trackCool (s : State) (r : Nat) : State :=
  s.modRegion r (fun v => { v with coolTick := if s.coolNow r then some (v.coolTick.getD s.now) else none })

/-- A hard trip: the region goes to Hold and on to Quiet; a contained error for a step or recovery of its partition
(R498). -/
def State.hardTrip (s : State) (r spot : Nat) (reading : Int) : State :=
  let src := s.atHot r [spot, reading.toNat]
  let t := match (s.region r).part with
    | some p =>
      (match (s.part p).running, (s.part p).recovery, (s.part p).resident with
       | some st, _, _ => s.contained st.ctx 0x2C04 { src with ctx := some st.ctx }
       | none, some _, some x => s.contained x 0x2C04 { src with ctx := some x }
       | _, _, _ => s.note 0x2C04 src)
    | none => s.note 0x2C04 src
  (t.modRegion r (holdRegion .hardTrip)).enterQuiet r .hardTrip

/-- A sample of hot spot `hot` of a site: its reading, then warn, throttle and hard trip. A perimeter die's hot spot
(region 16) has no region to cap. -/
def execJunctionSample (r site hot : Nat) (diode ringOsc : Int) (s : State) : Result :=
  if 16 < r then .next s
  else
    let k := hotKey site hot
    let old := s.hotSpot r k
    let v := takeSample s.now s.throttleC diode ringOsc old
    let warned := decide ((s.warnC : Int) * 8 ≤ v.filtered) && (match old.warnTick with
      | some t => decide (t + ticksPerS ≤ s.now)
      | none => true)
    let hotNow := decide ((s.throttleC : Int) * 8 ≤ v.filtered)
    let fresh := hotNow && old.throttleTick.isNone
    let t := s.setHot r k { v with warnTick := if warned then some s.now else old.warnTick,
                                   throttleTick := if hotNow then some (old.throttleTick.getD s.now) else none }
    let t := if (v.flagged && !old.flagged) || !v.diodeValid || !v.ringValid then t.note 0x1C03 (s.atHot r [site, hot]) else t
    let t := if warned then t.note 0x0C01 (s.atHot r [site, hot]) else t
    let t := t.refreshReading (readingNo 0 (128 * r + k))
    if r = 16 then .next t
    else
      let t := if fresh then t.throttleRegion r k else t
      let t := if 2 ≤ v.tripCount then t.hardTrip r k v.reading else t
      .next (t.trackCool r)

/-- A stack's temperature sensor, in °C; with no valid reading for 10 ms the stack counts as at its throttle threshold
(R493, R344, R495). -/
def execHbmSensorSample (stack : Nat) (t : Int) (s : State) : Result :=
  if 32 ≤ stack then .next s
  else
    let v := s.hbm stack
    let r := stack / 2
    let valid := decide (-20 ≤ t) && decide (t ≤ 150)
    let temp := if valid then t.toNat else if v.lastSensor + 10 * ticksPerMs ≤ s.now then s.hbmThrottleC else v.temp
    let warned := decide (s.hbmWarnC ≤ temp) && (match v.warnTick with
      | some k => decide (k + ticksPerS ≤ s.now)
      | none => true)
    let hotNow := decide (s.hbmThrottleC ≤ temp)
    let trips := if valid ∧ 105 ≤ t then v.tripCount + 1 else 0
    let u := s.setHbm stack { v with temp := temp, throttled := hotNow, lastSensor := if valid then s.now else v.lastSensor,
                                     refreshDiv := refreshRate temp, warnTick := if warned then some s.now else v.warnTick,
                                     throttleTick := if hotNow then some (v.throttleTick.getD s.now) else none, tripCount := trips }
    let u := if warned then u.note 0x0C01 (s.atHot r [stack]) else u
    let u := if hotNow && v.throttleTick.isNone then u.throttleRegion r (80 + stack) else u
    let u := if 2 ≤ trips then u.hardTrip r (80 + stack) t else u
    .next (u.trackCool r)

/-- Each further 10 ms at throttle lowers the region's cap by one step, not below step 8 (R495). -/
def execThrottleEscalation (r : Nat) (s : State) : Result :=
  let due := fun (k : Option Nat) => match k with
    | some t => decide (t + 10 * ticksPerMs ≤ s.now)
    | none => false
  let v := s.region r
  if r < 16 ∧ v.capTick + 10 * ticksPerMs ≤ s.now ∧
      (v.hot.any (fun e => due e.2.throttleTick) || due (s.hbm (2 * r)).throttleTick || due (s.hbm (2 * r + 1)).throttleTick) = true then
    let cap := min 8 (v.thermalCap + 1)
    .next ((s.modRegion r (fun v => { v with thermalCap := cap, capTick := s.now })).note 0x1C02 (s.atHot r [31, cap]))
  else .next s

/-- After 100 ms cool, with the forecast at the higher step cool too, the cap rises by one step (R496). -/
def execThermalCapRaise (r : Nat) (s : State) : Result :=
  let v := s.region r
  match v.coolTick with
  | some t => if r < 16 ∧ 0 < v.thermalCap ∧ t + 100 * ticksPerMs ≤ s.now ∧ s.coolAt r (v.thermalCap - 1) = true then
      .next (s.modRegion r (fun v => { v with thermalCap := v.thermalCap - 1, coolTick := some s.now })) else .next s
  | none => .next s

/-! ## The hard trip (R498) and Table 17.5, last row -/

/-- Every junction of the panel. -/
def State.anyJunction (s : State) (p : HotSpot → Bool) : Option (Nat × Nat) :=
  (List.range 17).findSome? (fun r => ((s.region r).hot.find? (fun e => p e.2)).map (fun e => (r, e.1)))

/-- 10 ms after a region entered Quiet, a junction at or above 110 °C removes the power. -/
def execHardTripKillCheck (s : State) : Result :=
  let due := (List.range 16).any (fun r =>
    let v := s.region r
    decide (v.pstate = .quiet) && (v.causes.contains .hardTrip || v.causes.contains .coolant) && decide (v.quietTick + 10 * ticksPerMs ≤ s.now))
  match s.anyJunction (fun v => decide (880 ≤ v.reading)) with
  | some (r, k) => if due then .next (s.powerRemoval [r, k]) else .next s
  | none => .next s

/-- Every hot spot of the region below 90 °C for 100 ms: it leaves Quiet with a cap of step 8. -/
def execHardTripRecovery (r : Nat) (s : State) : Result :=
  let v := s.region r
  if r < 16 ∧ v.pstate = .quiet ∧ v.causes.contains .hardTrip = true ∧ v.quietTick + 100 * ticksPerMs ≤ s.now ∧
      v.hot.all (fun e => decide (e.2.reading < 720) && e.2.history.all (fun h => decide (s.now ≥ h.1 + 100 * ticksPerMs) || decide (h.2 < 720))) = true then
    .next ((s.modRegion r (fun v => { v with thermalCap := 8, coolTick := none })).endQuiet r .hardTrip)
  else .next s

/-! ## Coolant (R500 to R504) -/

/-- The lower of two readings that are valid. -/
def lowerOf (a b : Option Nat) (hi : Nat) : Option Nat :=
  match a.filter (fun x => decide (x ≤ hi)), b.filter (fun x => decide (x ≤ hi)) with
  | some x, some y => some (min x y)
  | some x, none => some x
  | none, some y => some y
  | none, none => none

/-- How far the flow has fallen over the last 500 ms, by the newest sample at least that old, else the oldest kept. -/
def declineOf (now flow : Nat) (h : List (Nat × Nat)) : Nat :=
  match (h.filter (fun e => decide (e.1 + 500 * ticksPerMs ≤ now))).getLast? with
  | some e => e.2 - flow
  | none => match h.head? with
    | some e => e.2 - flow
    | none => 0

/-- The samples worth keeping: those of the last 500 ms and the newest before them. -/
def keepFlow (now : Nat) (h : List (Nat × Nat)) : List (Nat × Nat) :=
  let old := h.filter (fun e => decide (e.1 + 500 * ticksPerMs ≤ now))
  old.drop (old.length - 1) ++ h.filter (fun e => !decide (e.1 + 500 * ticksPerMs ≤ now))

/-- The outlet's time at 50 °C or more; over once it is below 48 °C, or below 50 °C before 100 ms have passed. -/
def outletSince (now : Nat) (out : Option Nat) (since : Option Nat) : Option Nat :=
  match out, since with
  | some t, none => if 400 ≤ t then some now else none
  | some t, some k => if 400 ≤ t then some k else if t < 384 then none else if k + 100 * ticksPerMs ≤ now then some k else none
  | none, k => k

/-- Whether the coolant is good enough to leave the response in force (Table 17.5). -/
def State.coolGood (s : State) (m : Manifold) (flow : Nat) : Bool :=
  match s.cool.response with
  | .hold => decide (280 ≤ flow) && (match m.outlet with
      | some t => decide (t < 384)
      | none => false)
  | .quiet => (match m.flow0, m.flow1 with
      | some a, some b => decide (320 ≤ a) && decide (320 ≤ b)
      | _, _ => false) && (match lowerOf m.dp0 m.dp1 300 with
      | some d => decide (90 ≤ d)
      | none => false) && (s.anyJunction (fun v => decide (720 ≤ v.reading))).isNone
  | _ => false

/-- The supervision's state with one more sample of the manifold sensors (R500, R501). -/
def takeManifold (now : Nat) (m : Manifold) (good : Bool) (v : Coolant) : Coolant :=
  let flow := (lowerOf m.flow0 m.flow1 800).getD 0
  let d := declineOf now flow v.history
  let falling := decide (10 < d)
  let since := outletSince now m.outlet v.outletHot
  let apart := match m.flow0, m.flow1 with
    | some a, some b => decide (40 < max a b - min a b)
    | _, _ => false
  { v with last := m, flow := flow, history := keepFlow now (v.history ++ [(now, flow)]), falling := falling,
           projected := if falling then 2 * flow - d else 2 * flow, inlet := m.inlet.getD 320,
           outletHot := since, outletSteps := if since.isNone then 0 else v.outletSteps,
           goodSince := if good then some (v.goodSince.getD now) else none,
           apartSince := if apart then some (v.apartSince.getD now) else none }

/-- Flow below 60 % of nominal, or the outlet at 55 °C: every region to Hold; a stronger response stands (R503). -/
def State.coolHold (s : State) (m : Manifold) : State :=
  let hot := match m.outlet with
    | some t => decide (440 ≤ t)
    | none => false
  let weak := decide (s.cool.response = .none) || decide (s.cool.response = .cap)
  if (decide (s.cool.flow < 240) || hot) && weak then
    ({ s with cool := { s.cool with response := .hold, goodSince := none } }.allRegions (holdRegion .coolant)).note 0x1C06
      { detail := [s.cool.flow, s.cool.inlet, s.cool.cap] }
  else if weak then
    let cap := decide (s.cool.flow < 320) || s.cool.falling || decide (256 < s.cool.inlet) || s.cool.outletHot.isSome || decide (s.cool.cap ≠ 15)
    { s with cool := { s.cool with response := if cap then .cap else .none } }
  else s

/-- A sample of the manifold sensors by the lease holder (R490, R500, R503). -/
def execManifoldSample (m : Manifold) (s : State) : Result :=
  if s.holder.isNone then .next s
  else
    let flow := (lowerOf m.flow0 m.flow1 800).getD 0
    let t := { s with cool := takeManifold s.now m (s.coolGood m flow) s.cool }
    let t := match t.cool.apartSince with
      | some k => if k + ticksPerS ≤ s.now then t.note 0x1C03 { detail := [0x800010] } else t
      | none => t
    let cold := match m.inlet with
      | some k => decide (k < 120)
      | none => false
    .next ((if cold then t.note 0x0C08 {} else t).coolHold m |>.refreshReading (readingNo 1 0))

/-- With the outlet hot for 100 ms the cap drops one more step every 10 ms (Table 17.5). -/
def execOutletCapStep (s : State) : Result :=
  match s.cool.outletHot with
  | some k =>
    if k + 100 * ticksPerMs ≤ s.now ∧ (s.cool.outletSteps = 0 ∨ s.cool.outletTick + 10 * ticksPerMs ≤ s.now) then
      let n := min 8 (s.cool.outletSteps + 1)
      .next ({ s with cool := { s.cool with outletSteps := n, outletTick := s.now } }.note 0x1C06 { detail := [s.cool.flow, s.cool.inlet, n] })
    else .next s
  | none => .next s

/-- Flow at 70 % and outlet below 48 °C for 1 s: the coolant Hold ends (Table 17.5). -/
def execCoolantHoldExit (s : State) : Result :=
  match s.cool.response, s.cool.goodSince with
  | .hold, some k =>
    if k + ticksPerS ≤ s.now then
      .next ({ s with cool := { s.cool with response := .cap, goodSince := none } }.allRegions (releaseRegion .coolant))
    else .next s
  | _, _ => .next s

/-- Whether a comparator acts: a valid flow below 25 % of nominal or a valid pressure below 30 kPa, on either sensor
(R504). -/
def comparatorActs (m : Manifold) : Bool :=
  let below := fun (x : Option Nat) (hi lo : Nat) => match x with
    | some v => decide (v ≤ hi) && decide (v < lo)
    | none => false
  below m.flow0 800 100 || below m.flow1 800 100 || below m.dp0 300 30 || below m.dp1 300 30

/-- A comparator of either Pewter's interface: every region to Hold and on to Quiet; a contained error for each running
step, else an event (R503, R504). -/
def execCoolantComparator (pewter : Nat) (m : Manifold) (s : State) : Result :=
  if comparatorActs m && decide (s.cool.response ≠ .quiet) then
    let steps := (List.range 16).filterMap (fun p => (s.part p).running.map (fun st => (p, st.ctx)))
    let t := if steps.isEmpty then s.note 0x2C07 { detail := [pewter] }
      else steps.foldl (fun (t : State) e => t.contained e.2 0x2C07 { part := e.1, ctx := some e.2, detail := [pewter] }) s
    let t := t.allRegions (holdRegion .coolant)
    .next { (List.range 16).foldl (fun (t : State) r => t.enterQuiet r .coolant) t with
      cool := { s.cool with response := .quiet, goodSince := none } }
  else .next s

/-- The coolant has recovered for 5 s: the lowest-numbered region still in its Quiet returns to Run, 100 µs after the one
before, with a cap of step 8; after the last the response is over (R504). -/
def execCoolantQuietExit (s : State) : Result :=
  match s.cool.response, s.cool.goodSince with
  | .quiet, some k =>
    if k + 5 * ticksPerS ≤ s.now ∧ s.cool.exitTick + 10000 ≤ s.now then
      match (List.range 16).find? (fun r => decide ((s.region r).pstate = .quiet) && (s.region r).causes.contains .coolant) with
      | some r =>
        let t := { s with cool := { s.cool with exitTick := s.now } }
        .next ((t.modRegion r (fun v => { v with thermalCap := 8, coolTick := none })).endQuiet r .coolant)
      | none => .next { s with cool := { s.cool with response := .cap, goodSince := none } }
    else .next s
  | _, _ => .next s

end Sys2Proof.Machine
end

