-- ==== Sys2Proof/Machine/Cores.lean ====
section
/-! DEFINITION. Host-processor chiplets (12): tarn accesses of the cores, step_input stores, the coherence directory,
MSIs, and the faults of caches and cores. -/

namespace Sys2Proof.Machine

open Sys2Proof

/-- The region of a core (R17). -/
def coreRegion (n : Nat) : Nat := n / 24

/-- The reasons of HPT_FAULT_INFO (21). -/
inductive CoreReason where
  | form | misaligned | rights | noHandle | notResident | tagTimeout | integrity | address
  deriving DecidableEq, Repr

def CoreReason.code : CoreReason → Nat
  | .form => 1
  | .misaligned => 2
  | .rights => 3
  | .noHandle => 4
  | .notResident => 5
  | .tagTimeout => 6
  | .integrity => 7
  | .address => 8

/-- A tarn access fault of a core: mcause 5 for a load and 7 for a store, the address in the trap value, the reason in
HPT_FAULT_INFO (R366). -/
def State.coreFaults (s : State) (n : Nat) (write : Bool) (addr : Nat) (why : CoreReason) : State :=
  let place := match placeOf addr with
    | .tarn c off => c * 16 + off / 512 * 2 ^ 17
    | _ => 0
  s.modCore n (fun v => { v with wait := none, mcause := if write then 7 else 5, tval := BitVec.ofNat 64 addr,
                                 fault := BitVec.ofNat 31 (why.code + place) })

/-- Why the checks of R366, R92, R93 and R369 refuse core n of context x row access to an address, if they do. -/
def State.coreRefuses (s : State) (x n addr : Nat) (right : Right) : Option CoreReason :=
  match placeOf addr with
  | .tarn c off =>
    if off % 512 ≠ 0 then some .misaligned
    else match (s.region (coreRegion n)).part with
      | none => some .address
      | some p =>
        if !s.reachable p addr 512 then some .address
        else if (s.part p).resident ≠ some x then some .notResident
        else match s.coverOf c (off / 512) (some x) right with
          | some _ => none
          | none => if (s.cl c).handles.any (fun e => handleCovers e.2 (off / 512)) then some .rights else some .noHandle
  | _ => some .address

/-- Whether a recovery of context x is in progress, when its cores wait at its tarn and its step_input pages (R322). -/
def State.recovering (s : State) (x : Nat) : Bool := decide ((s.ctx x).st = .recovering)

/-- Core n tries its access to a tarn row: it is performed, it waits, or it faults (R367 to R369, R102). A performed
store is journalled (R308). -/
def State.coreAccess (s : State) (n : Nat) (w : CoreWait) (u : Upset) : State :=
  match (s.core n).owner with
  | none => s
  | some x =>
    let right : Right := if w.write then .dmaWrite else .dmaRead
    let stall := s.modCore n (fun v => { v with wait := some w })
    match s.coreRefuses x n w.addr right with
    | some why => s.coreFaults n w.write w.addr why
    | none =>
      if s.recovering x then stall
      else match placeOf w.addr with
        | .tarn c off =>
          let tagged := (s.coverOf c (off / 512) (some x) right).getD false
          let acc : Access := if w.write then (if tagged then .taggedWrite else .untaggedWrite)
            else if tagged then (if (s.core n).peek then .peek else .taggedRead) else .untaggedRead
          (match s.rowAccess c (off / 512) acc w.data u with
           | .wait => stall
           | .bad t => (t.integrityEvent c (off / 512)).coreFaults n w.write w.addr .integrity
           | .done d t =>
             if w.write then (t.modCore n (fun v => { v with wait := none })).record (s.ctx x).part x 8 (.coreData w.addr 512 w.data)
             else t.modCore n (fun v => { v with wait := none, v8 := d }))
        | _ => s

/-- Whether a core executes instructions: it is assigned, out of reset, not stopped, not in a wait, and not halted unless it is
stepped singly. -/
def Core.runs (v : Core) : Bool := v.owner.isSome && v.running && !v.failed && v.wait.isNone && (!v.halted || v.stepOne)

/-- An instruction of core n has been tried: a core stepped singly is halted again. -/
def State.coreDone (s : State) (n : Nat) : State :=
  s.modCore n (fun v => if v.stepOne then { v with stepOne := false, halted := true } else v)

/-- Whether an address is main memory that core n of context x may reach (R37, R38, R405). -/
def State.coreMemory (s : State) (x n addr len : Nat) : Bool :=
  match placeOf addr, (s.region (coreRegion n)).part with
  | .hbm _, some p => s.reachable p addr len && s.ownPages x addr len
  | .tier2 _, some p => s.reachable p addr len && s.ownPages x addr len
  | _, _ => false

/-- vl8re8.v: a tarn row by R366 to R369; 512 bytes of main memory as any load. -/
def execVl8re8V (n : Nat) (addr : Word) (u : Upset) (s : State) : Result :=
  match (s.core n).owner with
  | none => .next s
  | some x =>
    if !(s.core n).runs then .next s
    else if s.coreMemory x n addr.toNat 512 then
      (if s.readsPoison addr.toNat 512 then .next ((s.poisonEvent addr.toNat).coreFaults n false addr.toNat .integrity |>.coreDone n)
       else .next (s.modCore n (fun v => { v with v8 := BitVec.ofNat 4096 (s.readNat addr.toNat 512) }) |>.coreDone n))
    else .next (s.coreAccess n { addr := addr.toNat, write := false, data := 0, since := s.now } u |>.coreDone n)

/-- A line held modified by a chiplet, filled by a context (R363, R372). -/
def State.dirtyLine (s : State) (r x : Nat) (d : Row) (base l : Nat) : State :=
  (s.evictLine l).setDir l { holders := [r], modified := true, data := BitVec.ofNat 512 (d.toNat / 256 ^ (64 * l - base)), ctx := x }

/-- The pages n bytes lie in are step_input pages. -/
def State.stepInput (s : State) (a n : Nat) : Bool := (pagesOf a n).all (fun g => decide ((s.page g).use = .stepInput))

/-- A store to step_input pages: each 64 B unit is written through and journalled in order (R365, R308). -/
def State.storeInput (s : State) (x a n : Nat) (d : Row) : State :=
  (List.range ((a + n - 1) / 64 - a / 64 + 1)).foldl (fun (t : State) k =>
    let lo := max a ((a / 64 + k) * 64)
    let hi := min (a + n) ((a / 64 + k + 1) * 64)
    let v := d.toNat / 256 ^ (lo - a) % 256 ^ (hi - lo)
    (t.record (s.ctx x).part x 1 (.coreData lo (hi - lo) (BitVec.ofNat 4096 v))).writeMem lo v (hi - lo)) s

/-- vs8r.v: a tarn row by R366 to R369; 512 aligned bytes of main memory as any store, held modified in the chiplet's
cache, or written through where the page is step_input (R365). -/
def execVs8rV (n : Nat) (addr : Word) (data : Row) (s : State) : Result :=
  match (s.core n).owner with
  | none => .next s
  | some x =>
    let a := addr.toNat
    if !(s.core n).runs then .next s
    else if s.coreMemory x n a 512 && s.writablePages a 512 then
      (if s.stepInput a 512 then (if s.recovering x then .next s else .next ((s.storeInput x a 512 data).coreDone n))
       else if a % 64 = 0 then .next ((List.range 8).foldl (fun (t : State) k => t.dirtyLine (coreRegion n) x data a (a / 64 + k)) s |>.coreDone n)
       else .next ((s.writeMem a data.toNat 512).coreDone n))
    else .next (s.coreAccess n { addr := a, write := true, data := data, since := s.now } .none |>.coreDone n)

/-- qtarnctl keeps bit 0 (R367). -/
def execQtarnctlWrite (n : Nat) (v : Word) (s : State) : Result :=
  if (s.core n).runs then .next ((s.modCore n (fun c => { c with peek := bitOf v 0 })).coreDone n) else .next s

/-- An interrupt during a tarn wait: the owner cancels the access, which has not been performed, and the interrupt is
taken at the instruction; without a wait it is taken after it (R368). -/
def execTarnAccessCancel (n : Nat) (s : State) : Result :=
  if (s.core n).owner.isSome then .next (s.modCore n (fun v => { v with wait := none, irqTaken := true })) else .next s

/-- A core store to a step_input page (R365); during a recovery it waits (R322). -/
def execStepInputStore (n addr len : Nat) (data : Row) (s : State) : Result :=
  match (s.core n).owner with
  | none => .next s
  | some x =>
    if (s.core n).runs && decide (0 < len) && decide (len ≤ 512) && s.coreMemory x n addr len && s.stepInput addr len && !s.recovering x then
      .next ((s.storeInput x addr len data).coreDone n)
    else .next s

/-- The home region of a line (R363). -/
def State.homeOf (s : State) (line : Nat) : Option Nat :=
  match placeOf (64 * line) with
  | .hbm o => some (o / s.sliceSize)
  | .tier2 o => (s.windowAt o 64).bind (fun w => (s.part (s.win w).part).sorted.head?)
  | _ => none

/-- The directory evicts an entry: every copy is invalidated, a modified one written back (R363). -/
def execDirectoryEviction (r line : Nat) (s : State) : Result :=
  if s.homeOf line = some r then .next (s.evictLine line) else .next s

/-- The partition of an agent. -/
def State.agentPart (s : State) (a : Agent) : Option Nat :=
  match a with
  | .core n => (s.region (coreRegion n)).part
  | .function f _ => (s.link (f / 64)).part
  | .operator _ _ => none

/-- An MSI write to a hart's IMSIC; one to another partition is refused (R38, R375). -/
def execMsiWrite (sender : Agent) (hart file identity : Nat) (s : State) : Result :=
  let p := (s.region (coreRegion hart)).part
  if hart < 384 ∧ file < 9 ∧ 1 ≤ identity ∧ identity ≤ 255 ∧ p.isSome ∧ s.agentPart sender = p then
    .next (s.sendIrq (.coreMsi hart file identity))
  else .next s

/-! ## Faults of caches and cores (Table 12.4) -/

/-- The code of a core fault's event, in its class. -/
def coreCode (cls kind : Nat) : Nat := cls * 4096 + Config.coreFaultCode kind % 4096

/-- The source of a core's event. -/
def State.atCore (s : State) (n : Nat) : Source :=
  { region := coreRegion n, site := 19, part := ((s.region (coreRegion n)).part).getD 31, ctx := (s.core n).owner, detail := [n] }

/-- A core fails: it is held in reset, and its context receives a context-fatal error. -/
def State.failCore (s : State) (n kind : Nat) : State :=
  let t := s.setCore n { failed := true }
  match (s.core n).owner with
  | some x => t.contextFatal x (coreCode 3 kind) (s.atCore n)
  | none => t

/-- An uncorrectable error of a core; the third within 1 s fails it. -/
def State.coreError (s : State) (n : Nat) : State :=
  let times := (s.core n).errTimes.filter (fun t => decide (s.now < t + ticksPerS)) ++ [s.now]
  let t := s.modCore n (fun v => { v with errTimes := times })
  if 3 ≤ times.length ∧ (s.core n).failed = false then t.failCore n 4 else t

/-- A line is lost: it is poisoned at home, and the owning context's outcome follows R342. -/
def State.poisonLine (s : State) (line : Nat) : State :=
  (((s.setDir line {}).setPoison (2 * line) true).setPoison (2 * line + 1) true).poisonEvent (64 * line)

def execCoreFault (n : Nat) (kind : CoreFaultKind) (s : State) : Result :=
  if 384 ≤ n then .next s
  else match kind with
    | .correctedEcc => .next (s.note (coreCode 1 0) (s.atCore n))
    | .cleanLine => .next ((s.note (coreCode 1 1) (s.atCore n)).coreError n)
    | .modifiedLine line => .next ((s.poisonLine line).coreError n)
    | .directoryEntry line lost => .next (if lost then s.poisonLine line else s.setDir line {})
    | .controlState => .next (if (s.core n).failed then s else s.failCore n 5)
    | .interconnect =>
      let r := coreRegion n
      let owned := s.cores.any (fun e => coreRegion e.1 == r && e.2.owner.isSome)
      let t := s.modRegion r (fun v => { v with cores := false })
      let t := { t with cores := Tbl.mapVal (fun _ => {}) (fun m v => if coreRegion m = r then stopCore v else v) t.cores }
      (match (s.region r).part with
       | some p => .next (if owned then t.partFatal p (coreCode 4 6) { region := r, site := 19, detail := [r] } else t)
       | none => .next t)

end Sys2Proof.Machine
end

