-- ==== Sys2Proof/Machine/Formats.lean ====
section
/-! DEFINITION. Number formats (04): encodings, exact values, the one rounding of R116, stochastic rounding, special
inputs and overflow, and MX block quantisation. -/

namespace Sys2Proof.Machine

open Sys2Proof

/-! ## Formats (Tables 4.1 to 4.3) -/

/-- A floating-point element format: its width, mantissa width, bias, the magnitude code of its largest finite value,
that of infinity where it has one, and its canonical NaN where it has one. -/
structure Fmt where
  width : Nat
  m : Nat
  bias : Nat
  maxCode : Nat
  inf : Option Nat := none
  nan : Option Nat := none
  deriving DecidableEq, Repr

/-- Element formats of a floating point by their code (Tables 4.2 and 4.3); integers and E8M0 have none. -/
def fmtOf (code : Nat) : Option Fmt :=
  match code with
  | 0x0 => some ⟨64, 52, 1023, 0x7FEFFFFFFFFFFFFF, some 0x7FF0000000000000, some 0x7FF8000000000000⟩
  | 0x1 => some ⟨32, 23, 127, 0x7F7FFFFF, some 0x7F800000, some 0x7FC00000⟩
  | 0x2 => some ⟨16, 7, 127, 0x7F7F, some 0x7F80, some 0x7FC0⟩
  | 0x3 => some ⟨16, 10, 15, 0x7BFF, some 0x7C00, some 0x7E00⟩
  | 0x4 => some ⟨8, 3, 7, 0x7E, none, some 0x7F⟩
  | 0x5 => some ⟨8, 2, 15, 0x7B, some 0x7C, some 0x7E⟩
  | 0x6 => some ⟨6, 2, 3, 0x1F, none, none⟩
  | 0x7 => some ⟨6, 3, 1, 0x1F, none, none⟩
  | 0x8 => some ⟨4, 1, 1, 0x7, none, none⟩
  | _ => none

/-- The width of an element in bits (Table 4.1). -/
def elemWidth (code : Nat) : Nat :=
  match code with
  | 0x0 => 64
  | 0x1 => 32
  | 0x2 => 16
  | 0x3 => 16
  | 0x6 => 6
  | 0x7 => 6
  | 0x8 => 4
  | 0xA => 4
  | _ => 8

/-- Elements in one row (Table 4.4): 640 for MXFP6, whose last 32 bytes are padding. -/
def elemsPerRow (code : Nat) : Nat := if elemWidth code = 6 then 640 else 4096 / elemWidth code

/-- Codes that the table reserves (R109). -/
def fmtReserved (code : Nat) : Bool := decide (0xB ≤ code) && decide (code ≤ 0xE)

/-- Formats that are always scaled, and those that may be (Table 4.1). -/
def alwaysScaled (code : Nat) : Bool := code == 6 || code == 7 || code == 8
def mayScale (code : Nat) : Bool := alwaysScaled code || code == 4 || code == 5 || code == 9 || code == 0xA
def isInt (code : Nat) : Bool := code == 9 || code == 0xA

/-- Element k of a row: bits [w k + w - 1 : w k] for every format, MXFP6's 24-bit groups included (R112). -/
def elemAt (code : Nat) (row : Row) (k : Nat) : Nat :=
  row.toNat / 2 ^ (elemWidth code * k) % 2 ^ elemWidth code

/-- A row of element codes, element 0 first; bits above them are zero (R112, R113). -/
def packRow (code : Nat) (es : List Nat) : Row := BitVec.ofNat 4096 (es.foldr (fun e a => e + a * 2 ^ elemWidth code) 0)

/-! ## Exact values -/

/-- An exact value: NaN, an infinity, or (-1)^neg × (mant + ε) × 2^exp with 0 < ε < 1 exactly where `more` is set. -/
inductive Val where
  | nan
  | inf (neg : Bool)
  | fin (neg : Bool) (mant : Nat) (exp : Int) (more : Bool := false)
  deriving DecidableEq, Repr

/-- The value of a signed integer. -/
def Val.ofInt (v : Int) (exp : Int := 0) : Val := .fin (decide (v < 0)) v.natAbs exp

/-- The value an element's code stands for (R110, R111). -/
def decodeElem (code e : Nat) : Val :=
  match fmtOf code with
  | some f =>
    let neg := decide (2 ^ (f.width - 1) ≤ e)
    let mag := e % 2 ^ (f.width - 1)
    if some mag = f.inf then .inf neg
    else if f.maxCode < mag then .nan
    else
      let E := mag / 2 ^ f.m
      let M := mag % 2 ^ f.m
      .fin neg (if E = 0 then M else M + 2 ^ f.m) ((max E 1 : Nat) - (f.bias : Int) - f.m)
  | none =>
    let w := elemWidth code
    .ofInt (if 2 ^ (w - 1) ≤ e then (e : Int) - 2 ^ w else e)

/-- A value times a power of two. -/
def Val.scale (k : Int) : Val → Val
  | .fin n m e x => .fin n m (e + k) x
  | v => v

/-- A scaled element: elem × 2^(scale - 127), NaN under scale 0xFF (R126). -/
def scaledElem (code scale e : Nat) : Val := if scale = 0xFF then .nan else (decodeElem code e).scale ((scale : Int) - 127)

/-- The signed mantissa brought to exponent `e`, not above the value's own. -/
def signedAt (neg : Bool) (m : Nat) (x e : Int) : Int := (if neg then -(m : Int) else m) * 2 ^ (x - e).toNat

/-- The exact sum; the sign of an exact zero sum is that of both, else `zneg` (IEEE 754). -/
def Val.add (zneg : Bool) : Val → Val → Val
  | .nan, _ => .nan
  | _, .nan => .nan
  | .inf a, .inf b => if a = b then .inf a else .nan
  | .inf a, _ => .inf a
  | _, .inf b => .inf b
  | .fin a m x _, .fin b n y _ =>
    if m = 0 ∧ n = 0 then .fin (if a = b then a else zneg) 0 0
    else
      let e := min x y
      let v := signedAt a m x e + signedAt b n y e
      if v = 0 then .fin zneg 0 0 else .fin (decide (v < 0)) v.natAbs e

def Val.neg : Val → Val
  | .nan => .nan
  | .inf a => .inf (!a)
  | .fin a m e x => .fin (!a) m e x

def Val.abs : Val → Val
  | .nan => .nan
  | .inf _ => .inf false
  | .fin _ m e x => .fin false m e x

/-- The exact product; an infinity times zero is NaN. -/
def Val.mul : Val → Val → Val
  | .nan, _ => .nan
  | _, .nan => .nan
  | .inf a, .inf b => .inf (xor a b)
  | .inf a, .fin b n _ _ => if n = 0 then .nan else .inf (xor a b)
  | .fin a m _ _, .inf b => if m = 0 then .nan else .inf (xor a b)
  | .fin a m x _, .fin b n y _ => .fin (xor a b) (m * n) (x + y)

/-- The quotient, to 200 bits and a trace of what is left. -/
def Val.div : Val → Val → Val
  | .nan, _ => .nan
  | _, .nan => .nan
  | .inf _, .inf _ => .nan
  | .inf a, .fin b _ _ _ => .inf (xor a b)
  | .fin a _ _ _, .inf b => .fin (xor a b) 0 0
  | .fin a m x _, .fin b n y _ =>
    if n = 0 then (if m = 0 then .nan else .inf (xor a b))
    else .fin (xor a b) (m * 2 ^ 200 / n) (x - y - 200) (decide (m * 2 ^ 200 % n ≠ 0))

/-- The square root, to 100 bits and a trace of what is left. -/
def Val.sqrt : Val → Val
  | .nan => .nan
  | .inf a => if a then .nan else .inf false
  | .fin a m x _ =>
    if m = 0 then .fin a 0 0
    else if a then .nan
    else
      let k := if x % 2 = 0 then m * 2 ^ 200 else m * 2 ^ 201
      let e := if x % 2 = 0 then (x - 200) / 2 else (x - 201) / 2
      .fin false (Nat.sqrt k) e (decide (Nat.sqrt k * Nat.sqrt k ≠ k))

/-- Order of magnitudes of finite values: whether m × 2^x ≤ n × 2^y. -/
def magLe (m : Nat) (x : Int) (n : Nat) (y : Int) : Bool :=
  let e := min x y
  decide (m * 2 ^ (x - e).toNat ≤ n * 2 ^ (y - e).toNat)

/-- Whether a is below b; -0 counts as equal to +0; NaN is never below. -/
def Val.lt : Val → Val → Bool
  | .nan, _ => false
  | _, .nan => false
  | .inf a, .inf b => a && !b
  | .inf a, _ => a
  | _, .inf b => !b
  | .fin a m x _, .fin b n y _ =>
    let e := min x y
    decide (signedAt a m x e < signedAt b n y e)

/-- Minimum and maximum: -0 orders below +0, and a NaN operand gives NaN (Table 5.5). -/
def Val.isNeg : Val → Bool
  | .nan => false
  | .inf a => a
  | .fin a _ _ _ => a
def Val.min (a b : Val) : Val :=
  if a = .nan ∨ b = .nan then .nan else if a.lt b then a else if b.lt a then b else if a.isNeg then a else b
def Val.max (a b : Val) : Val :=
  if a = .nan ∨ b = .nan then .nan else if b.lt a then a else if a.lt b then b else if a.isNeg then b else a

/-! ## Stochastic rounding (R119 to R122) -/

/-- The 64-bit finaliser of R120. -/
def mix (z : Word) : Word :=
  let z := (z ^^^ (z >>> 30)) * 0xBF58476D1CE4E5B9#64
  let z := (z ^^^ (z >>> 27)) * 0x94D049BB133111EB#64
  z ^^^ (z >>> 31)

/-- The 16 random bits of an output element (R120). -/
def randomBits (seed seq position element : Word) : Nat := (mix (mix (mix (seed ^^^ seq) ^^^ position) ^^^ element) >>> 48).toNat

/-! ## Rounding (R115 to R118, R121, R123) -/

/-- What a rounding goes by: its mode, the saturation flag, and the random bits of each element. -/
structure Rounding where
  mode : Nat := 0
  sat : Bool := false
  seed : Word := 0
  seq : Word := 0
  position : Word := 0

def Rounding.bits (r : Rounding) (k : Nat) : Nat := randomBits r.seed r.seq r.position (BitVec.ofNat 64 k)

/-- What was counted at an element (R118). -/
inductive Count where
  | none | sat | nanOut | nanInt
  deriving DecidableEq, Repr

/-- An exact magnitude (m + ε) × 2^e divided by 2^q: its integer part, whether to round away from zero, by mode. -/
def roundAt (mode bits : Nat) (neg : Bool) (m : Nat) (e : Int) (more : Bool) (q : Int) : Nat × Bool :=
  if q ≤ e then (m * 2 ^ (e - q).toNat, more && ((mode == 2 && neg) || (mode == 3 && !neg)))
  else
    let sh := (q - e).toNat
    let n := m / 2 ^ sh
    let rem := m % 2 ^ sh
    let inexact := decide (rem ≠ 0) || more
    let up := match mode with
      | 0 => decide (2 ^ sh < 2 * rem) || (decide (2 * rem = 2 ^ sh) && (more || n % 2 == 1))
      | 1 => false
      | 2 => neg && inexact
      | 3 => !neg && inexact
      | _ => decide (bits < rem * 65536 / 2 ^ sh)
    (n, up)

/-- floor(log2) of m × 2^e for m > 0. -/
def floorLog2 (m : Nat) (e : Int) : Int := (Nat.log2 m : Int) + e

/-- The magnitude code of a value rounded to a floating-point format with no bound above, and whether it went to the
neighbour of larger magnitude (R116, R117). -/
def roundMag (f : Fmt) (mode bits : Nat) (neg : Bool) (m : Nat) (e : Int) (more : Bool) : Nat × Bool :=
  if m = 0 then (0, false)
  else
    let q := max (floorLog2 m e) (1 - f.bias) - f.m
    let r := roundAt mode bits neg m e more q
    (((q + f.m + f.bias - 1).toNat) * 2 ^ f.m + r.1 + (if r.2 then 1 else 0), r.2)

/-- Whether clause 7.4 of IEEE 754-2019 gives infinity for an overflow. -/
def overflowsToInf (mode : Nat) (neg away : Bool) : Bool :=
  match mode with
  | 0 => true
  | 1 => false
  | 2 => neg
  | 3 => !neg
  | _ => away

/-- A value rounded to a floating-point element, by Table 4.6 (R123). -/
def roundFloat (f : Fmt) (rd : Rounding) (k : Nat) (v : Val) : Nat × Count :=
  let sign := fun (n : Bool) => if n then 2 ^ (f.width - 1) else 0
  match v with
  | .nan => (f.nan.getD 0, .nanOut)
  | .inf n => (match f.inf with
      | some c => (c + sign n, .none)
      | none => (f.maxCode + sign n, .sat))
  | .fin n m e x =>
    let r := roundMag f rd.mode (rd.bits k) n m e x
    if r.1 ≤ f.maxCode then (r.1 + sign n, .none)
    else if rd.sat || !overflowsToInf rd.mode n r.2 then (f.maxCode + sign n, .sat)
    else (match f.inf, f.nan with
      | some c, _ => (c + sign n, .none)
      | none, some c => (c + sign n, .nanOut)
      | none, none => (f.maxCode + sign n, .sat))

/-- A value rounded to an integer element; scaled integers keep to the symmetric range (R124, R129). -/
def roundInt (code : Nat) (symmetric : Bool) (rd : Rounding) (k : Nat) (v : Val) : Nat × Count :=
  let w := elemWidth code
  let hi : Int := 2 ^ (w - 1) - 1
  let lo : Int := if symmetric then -hi else -(2 ^ (w - 1))
  let enc := fun (v : Int) => (v.emod (2 ^ w)).toNat
  match v with
  | .nan => (0, .nanInt)
  | .inf n => (enc (if n then lo else hi), .sat)
  | .fin n m e x =>
    let r := roundAt rd.mode (rd.bits k) n m e x 0
    let a : Int := r.1 + (if r.2 then 1 else 0)
    let s : Int := if n then -a else a
    if s < lo then (enc lo, .sat) else if hi < s then (enc hi, .sat) else (enc s, .none)

/-- A value rounded to an unscaled element of a format (R116, R123, R129). -/
def roundElem (code : Nat) (rd : Rounding) (k : Nat) (v : Val) : Nat × Count :=
  match fmtOf code with
  | some f => roundFloat f rd k v
  | none => roundInt code false rd k v

/-- A value rounded to FP64, to nearest even. -/
def rne64 (v : Val) : Word := BitVec.ofNat 64 (roundElem 0 {} 0 v).1

/-- The value of an FP64 word. -/
def val64 (w : Word) : Val := decodeElem 0 w.toNat

/-- rne64(a + b) (R140, R141, R144). -/
def add64 (a b : Word) : Word := rne64 ((val64 a).add false (val64 b))

/-! ## MX block quantisation (R124, R125) -/

/-- emax and max of an element format, max as a number and a power of two. -/
def quantMax (code : Nat) : Int × Nat × Int :=
  match code with
  | 0x8 => (2, 3, 1)
  | 0x7 => (2, 15, -1)
  | 0x6 => (4, 7, 2)
  | 0x4 => (8, 7, 6)
  | 0x5 => (15, 7, 13)
  | 0x9 => (6, 127, 0)
  | _ => (2, 7, 0)

/-- The largest magnitude of a block, as a mantissa and exponent. -/
def blockMax (vs : List Val) : Nat × Int :=
  vs.foldl (fun a v => match v with
    | .fin _ m e _ => if magLe m e a.1 a.2 then a else (m, e)
    | _ => a) (0, 0)

/-- Whether a value is NaN or an infinity. -/
def Val.special : Val → Bool
  | .fin _ _ _ _ => false
  | _ => true

/-- The smallest k with amax ≤ max × 2^k, from a first guess that is never too large. -/
def ceilScale (m : Nat) (e : Int) (mx : Nat) (xe : Int) : Int :=
  let k := floorLog2 m e - floorLog2 mx xe - 1
  if magLe m e mx (xe + k) then k else if magLe m e mx (xe + k + 1) then k + 1 else k + 2

/-- A quantised block: its scale, its elements with what each counted, and whether it was given the NaN scale; its
first element's index in the row is `k0`. -/
def quantBlock (code method : Nat) (rd : Rounding) (k0 : Nat) (vs : List Val) : Nat × List (Nat × Count) × Bool :=
  if vs.any Val.special then (0xFF, vs.map (fun _ => (0, .none)), true)
  else
    let a := blockMax vs
    let zero := fun (v : Val) => match fmtOf code with
      | some f => (if v.isNeg then 2 ^ (f.width - 1) else 0, Count.none)
      | none => (0, .none)
    if a.1 = 0 then (0x7F, vs.map zero, false)
    else
      let p := quantMax code
      let e := if method = 0 then floorLog2 a.1 a.2 - p.1 else ceilScale a.1 a.2 p.2.1 p.2.2
      let e := max (-127) (min 127 e)
      let one := fun (x : Val × Nat) => match fmtOf code with
        | some f => roundFloat f { rd with sat := true } (k0 + x.2) (x.1.scale (-e))
        | none => roundInt code true { rd with sat := true } (k0 + x.2) (x.1.scale (-e))
      ((e + 127).toNat, (vs.zipIdx).map one, false)

/-! ## Counting (R118) -/

/-- Counts of conversions of one instruction. -/
structure Counts where
  sat : Nat := 0
  nanOut : Nat := 0
  nanScale : Nat := 0
  nanInt : Nat := 0
  deriving DecidableEq, Repr

def countOf (cs : List Count) (nanScale : Nat := 0) : Counts :=
  { sat := cs.countP (· = .sat), nanOut := cs.countP (· = .nanOut), nanInt := cs.countP (· = .nanInt),
    nanScale := nanScale }

def Counts.add (a b : Counts) : Counts :=
  ⟨a.sat + b.sat, a.nanOut + b.nanOut, a.nanScale + b.nanScale, a.nanInt + b.nanInt⟩

/-- CLU_CONV_EVENTS counted up, saturating (R118). -/
def countConv (k : Counts) (v : Events) : Events :=
  { v with sat := satAdd v.sat k.sat, nanOut := satAdd v.nanOut k.nanOut, nanScale := satAdd v.nanScale k.nanScale,
           nanToInt := satAdd v.nanToInt k.nanInt }

end Sys2Proof.Machine
end

