-- ==== Sys2Proof/Machine/Dma.lean ====
section
/-! DEFINITION. DMA_COPY (13, "DMA_COPY"): its checks, its units, its conversions and its ends. A copy moves row by row
where a side is tarn or a conversion is made, else in units of 512 bytes. -/

namespace Sys2Proof.Machine

open Sys2Proof

/-- The body of a DMA_COPY (Table 13.8). -/
structure Dma where
  src : Nat
  dst : Nat
  length : Nat
  reps : Nat
  srcStride : Nat
  dstStride : Nat
  srcFmt : Nat
  dstFmt : Nat
  convert : Bool
  rmode : Nat
  sat : Bool
  method : Nat
  tagOp : Nat
  srcScaled : Bool
  dstScaled : Bool
  srcScale : Nat
  dstScale : Nat

def dmaOf (d : Desc) : Dma :=
  let sf := bitsOf d 323 320
  let df := bitsOf d 327 324
  { src := bitsOf d 115 64, dst := bitsOf d 179 128, length := bitsOf d 223 192, reps := bitsOf d 239 224,
    srcStride := bitsOf d 287 256, dstStride := bitsOf d 319 288, srcFmt := sf, dstFmt := df,
    convert := bitOf d 328 && bitsOf d 337 336 == 0, rmode := bitsOf d 331 329, sat := bitOf d 332, method := bitsOf d 334 333,
    tagOp := bitsOf d 337 336, srcScaled := alwaysScaled sf || (mayScale sf && bitOf d 338),
    dstScaled := alwaysScaled df || (mayScale df && bitOf d 339), srcScale := bitsOf d 403 352, dstScale := bitsOf d 467 416 }

/-- Whether a value of the body is reserved, or names a scale buffer as an operand (R9, R109, R115, Table 13.8). -/
def Dma.valuesOk (m : Dma) : Bool :=
  decide (m.rmode ≤ 4) && decide (m.method ≤ 1) && decide (m.tagOp ≤ 2) &&
  (decide (0 < m.tagOp) || (!fmtReserved m.srcFmt && !fmtReserved m.dstFmt)) &&
  (!m.convert || (m.srcFmt != 0xF && m.dstFmt != 0xF))

/-- Whether the copy moves nothing (R399). -/
def Dma.empty (m : Dma) : Bool := m.length == 0 || m.reps == 0

/-- Source and destination units of one repetition. -/
def Dma.srcUnits (m : Dma) : Nat := (m.length + 511) / 512
def Dma.dstUnits (m : Dma) : Nat :=
  if m.convert then m.length / 512 * elemsPerRow m.srcFmt / elemsPerRow m.dstFmt else m.srcUnits

/-- Destination bytes of one repetition. -/
def Dma.dstBytes (m : Dma) : Nat := if m.convert then 512 * m.dstUnits else m.length

/-- All destination units. -/
def Dma.total (m : Dma) : Nat := m.reps * m.dstUnits

/-- The length of unit j of a repetition. -/
def Dma.unitLen (m : Dma) (j : Nat) : Nat := if m.convert then 512 else min 512 (m.length - 512 * j)

/-- Address of the k-th unit of the source and of the destination, and the length of each. -/
def Dma.srcUnit (m : Dma) (k : Nat) : Nat × Nat :=
  (m.src + k / m.srcUnits * m.srcStride + 512 * (k % m.srcUnits), m.unitLen (k % m.srcUnits))
def Dma.dstOff (m : Dma) (k : Nat) : Nat := k / m.dstUnits * m.dstStride + 512 * (k % m.dstUnits)
def Dma.dstUnit (m : Dma) (k : Nat) : Nat × Nat := (m.dst + m.dstOff k, m.unitLen (k % m.dstUnits))

/-- Scale rows of each side over the whole descriptor (R114): one scale for 32 elements. -/
def Dma.srcScaleRows (m : Dma) : Nat :=
  if m.convert && m.srcScaled then (m.reps * m.srcUnits * (elemsPerRow m.srcFmt / 32) + 511) / 512 else 0
def Dma.dstScaleRows (m : Dma) : Nat :=
  if m.convert && m.dstScaled then (m.total * (elemsPerRow m.dstFmt / 32) + 511) / 512 else 0

/-- Whether an address lies in the tarn range. -/
def isTarn (a : Nat) : Bool := match placeOf a with
  | .tarn _ _ => true
  | _ => false

/-- Whether the counts of a conversion are right (R402, R128). -/
def Dma.countsOk (m : Dma) : Bool :=
  !m.convert || (m.length % 512 == 0 && m.length / 512 * elemsPerRow m.srcFmt % elemsPerRow m.dstFmt == 0)

/-- Whether the tarn sides meet R73 in address, length and stride. -/
def Dma.aligned (m : Dma) : Bool :=
  (decide (0 < m.tagOp) || !isTarn m.src || (m.src % 512 == 0 && m.length % 512 == 0 && m.srcStride % 512 == 0)) &&
  (!isTarn m.dst || (m.dst % 512 == 0 && m.length % 512 == 0 && m.dstStride % 512 == 0)) &&
  (!(m.convert && m.srcScaled) || !isTarn m.srcScale || m.srcScale % 512 == 0) &&
  (!(m.convert && m.dstScaled) || !isTarn m.dstScale || m.dstScale % 512 == 0)

/-- Whether context x's DMA may read or write n bytes at a: R37, R38, R93, R405, R406. -/
def State.dmaSide (s : State) (x a n : Nat) (write : Bool) : Bool :=
  let p := (s.ctx x).part
  oneRange a n &&
  match placeOf a with
  | .tarn c off => s.reachable p a n && (s.coverOf c (off / 512) (some x) (if write then .dmaWrite else .dmaRead)).isSome
  | .host l _ => s.hostWindowOk x l
  | _ => s.reachable p a n && s.ownPages x a n && (!write || s.writablePages a n)

/-- Whether everything the descriptor touches passes, unit by unit; a repetition lies in one range (R37, R400). -/
def State.dmaChecked (s : State) (x : Nat) (m : Dma) : Bool :=
  (List.range m.reps).all (fun r =>
    (decide (0 < m.tagOp) || oneRange (m.src + r * m.srcStride) m.length) && oneRange (m.dst + r * m.dstStride) m.dstBytes) &&
  (decide (0 < m.tagOp) || (List.range (m.reps * m.srcUnits)).all (fun k => s.dmaSide x (m.srcUnit k).1 (m.srcUnit k).2 false)) &&
  (List.range m.total).all (fun k => s.dmaSide x (m.dstUnit k).1 (m.dstUnit k).2 true) &&
  (m.tagOp == 0 || isTarn m.dst) &&
  (List.range m.srcScaleRows).all (fun k => s.dmaSide x (m.srcScale + 512 * k) 512 false) &&
  (List.range m.dstScaleRows).all (fun k => s.dmaSide x (m.dstScale + 512 * k) 512 true)

/-! ## What comes next -/

inductive DmaOp where
  | readScale | read | write | writeScale | done
  deriving DecidableEq, Repr

/-- The next move of a copy: source scales, source rows, then the destination row they fill, then its scales. -/
def dmaNext (m : Dma) (e : Prog) : DmaOp :=
  if 0 < m.tagOp then (if e.moved < m.total then .write else .done)
  else if m.convert then
    let last := decide (m.total ≤ e.moved)
    if 512 ≤ e.scaleOut.length || (last && !e.scaleOut.isEmpty) then .writeScale
    else if last then .done
    else if (e.moved + 1) * elemsPerRow m.dstFmt ≤ e.read * elemsPerRow m.srcFmt then .write
    else if m.srcScaled && decide (512 * e.scaleRead < (e.read + 1) * (elemsPerRow m.srcFmt / 32)) then .readScale
    else .read
  else if m.total ≤ e.moved then .done
  else if e.read ≤ e.moved then .read
  else .write

/-- Where the next read goes, if it is one. -/
def dmaReads (m : Dma) (e : Prog) : Option (Nat × Nat) :=
  match dmaNext m e with
  | .read => some (m.srcUnit e.read)
  | .readScale => some (m.srcScale + 512 * e.scaleRead, 512)
  | _ => none

/-! ## Ends -/

/-- The code a contained error of context x is raised with (R546, R323). -/
def State.containedCode (s : State) (x code : Nat) : Nat :=
  if (s.ctx x).ckpt.isNone || ((s.part (s.ctx x).part).runs x && (s.part (s.ctx x).part).worn) then code % 4096 + 0x3000 else code

/-- The code of a poisoned read at an address (R342). -/
def State.poisonCode (s : State) (a : Nat) : Nat :=
  let g := a / 4096
  let x := (s.page g).owner
  if (s.journalAt a).isSome then 0x3602
  else match (s.page g).use with
    | .free | .zeroing => if s.ctxs.any (fun e => e.2.saveRuns.any (inRun g)) then 0x3602 else 0x0602
    | .checkpoint => 0x3602
    | _ => if Tbl.get (fun _ => false) (s.ctx x).written g then s.containedCode x 0x2602 else 0x3602

/-- The bytes a copy has written. -/
def dmaMoved (m : Dma) (e : Prog) : Nat := ((List.range e.moved).map (fun k => (m.dstUnit k).2)).sum

/-- A copy ends at its present unit: the detail is that unit's offset from the first destination byte (R400). -/
def State.dmaEnd (s : State) (q k : Nat) (m : Dma) (e : Prog) (status code : Nat) : State :=
  s.complete q k status code (dmaMoved m e) (m.dstOff e.moved)

/-- A tarn row the copy met failed its CRC or is POISONED: integrity error, and the fault of R102. -/
def State.dmaRowFails (s : State) (q k : Nat) (m : Dma) (e : Prog) (x c n : Nat) : State :=
  (s.dmaEnd q k m e stIntegrity (s.containedCode x 0x2201)).integrityEvent c n

/-- The copy waits at a row; its timeout runs from the first moment of the wait (R83). -/
def State.dmaWaits (s : State) (q k : Nat) : State :=
  s.modProg q k (fun e => if e.since.isSome then e else { e with since := some s.now })

/-! ## Reads -/

/-- A unit read: of tarn by its tag policy, of a host window from what the host returned, or of memory (R399, Table 11.2). -/
def State.dmaRead (s : State) (q k x : Nat) (m : Dma) (e : Prog) (a n : Nat) (host : Row) (u : Upset)
    (keep : Row → Prog → Prog) : State :=
  let took := fun (t : State) (w : Row) => t.modProg q k (fun e => { keep w e with since := none, hostSince := none })
  if s.dmaSide x a n false then
    match placeOf a with
    | .tarn c off =>
      let tagged := (s.coverOf c (off / 512) (some x) .dmaRead).getD false
      (match s.rowAccess c (off / 512) (if tagged then .taggedRead else .untaggedRead) 0 u with
       | .done w t => took t w
       | .wait => s.dmaWaits q k
       | .bad t => t.dmaRowFails q k m e x c (off / 512))
    | .host _ _ => took s (BitVec.ofNat 4096 (host.toNat % 256 ^ n))
    | _ =>
      if s.readsPoison a n then (s.dmaEnd q k m e stIntegrity (s.poisonCode a)).poisonEvent a
      else took s (BitVec.ofNat 4096 (s.readNat a n))
  else s.dmaEnd q k m e stAddress (Config.statusCode stAddress % 65536)

/-! ## Conversion (R402, 04) -/

/-- Element g of the source, counted over the whole descriptor, as an exact value. -/
def dmaElem (m : Dma) (e : Prog) (g : Nat) : Val :=
  let es := elemsPerRow m.srcFmt
  let row := e.buf.getD (g / es - (e.read - e.buf.length)) 0
  let code := elemAt m.srcFmt row (g % es)
  if m.srcScaled then
    let b := g / 32
    let sc := e.scaleBuf.getD (b / 512 - (e.scaleRead - e.scaleBuf.length)) 0
    scaledElem m.srcFmt (sc.toNat / 256 ^ (b % 512) % 256) code
  else decodeElem m.srcFmt code

/-- The position of R120: the handle row index of a tarn row, else the row's offset in rows. -/
def State.dmaPosition (s : State) (x : Nat) (m : Dma) (k : Nat) : Nat :=
  match placeOf (m.dstUnit k).1 with
  | .tarn c off =>
    (match (s.cl c).handles.find? (fun h => handleCovers h.2 (off / 512) && bitOf h.2 Right.dmaWrite.bit && hOwner h.2 == x) with
     | some h => off / 512 - hBase h.2
     | none => 0)
  | _ => m.dstOff k / 512

/-- The next destination row of a conversion: its data, its scales, and what was counted. -/
def State.dmaRow (s : State) (x : Nat) (m : Dma) (e : Prog) : Row × List Nat × Counts :=
  let n := elemsPerRow m.dstFmt
  let vs := (List.range n).map (fun i => dmaElem m e (e.moved * n + i))
  let rd : Rounding := { mode := m.rmode, sat := m.sat, seed := (s.ctx x).params.seed,
                         seq := BitVec.ofNat 64 (s.recordSeq (s.ctx x).part), position := BitVec.ofNat 64 (s.dmaPosition x m e.moved) }
  if m.dstScaled then
    let bs := (List.range (n / 32)).map (fun b => quantBlock m.dstFmt m.method rd (32 * b) ((vs.drop (32 * b)).take 32))
    let es := bs.flatMap (fun b => b.2.1)
    (packRow m.dstFmt (es.map Prod.fst), bs.map Prod.fst, countOf (es.map Prod.snd) (bs.countP (fun b => b.2.2)))
  else
    let es := (vs.zipIdx).map (fun v => roundElem m.dstFmt rd v.2 v.1)
    (packRow m.dstFmt (es.map Prod.fst), [], countOf (es.map Prod.snd))

/-! ## Writes -/

/-- What a write of a unit does: it went through, it waits, or it failed at a row. -/
inductive DmaPut where
  | ok (s : State)
  | wait
  | bad (s : State) (c n : Nat)

/-- n bytes written: to tarn by its tag policy, to the host, or to memory; what enters tarn, HBM or tier 2 is journalled
(R308). -/
def State.dmaPut (s : State) (x a n : Nat) (w : Row) : DmaPut :=
  let p := (s.ctx x).part
  match placeOf a with
  | .tarn c off =>
    let tagged := (s.coverOf c (off / 512) (some x) .dmaWrite).getD false
    (match s.rowAccess c (off / 512) (if tagged then .taggedWrite else .untaggedWrite) w .none with
     | .done _ t => .ok (t.record p x 8 (.hostData a n w))
     | .wait => .wait
     | .bad t => .bad t c (off / 512))
  | .host l off => .ok (s.emit (.hostWrite l ((s.ctx x).params.hostBase + off) n w))
  | _ => .ok ((s.record p x ((n + 63) / 64) (.hostData a n w)).writeMem a w.toNat n)

/-- A destination row's tag set, no data moved (R401, Table 3.4). -/
def State.dmaTag (s : State) (x a : Nat) (full : Bool) : DmaPut :=
  match placeOf a with
  | .tarn c off =>
    (match s.rowAccess c (off / 512) (if full then .setFull else .setEmpty) 0 .none with
     | .done _ t => .ok (t.record (s.ctx x).part x 1 (.tagSet a full))
     | .wait => .wait
     | .bad t => .bad t c (off / 512))
  | _ => .ok s

/-- The counts of a conversion, in the cluster whose tarn the row went to (R118). -/
def State.dmaCount (s : State) (a : Nat) (n : Counts) : State :=
  match placeOf a with
  | .tarn c _ => s.modCl c (fun v => { v with ev := countConv n v.ev })
  | _ => s

/-- Source rows and scale rows that no later destination row needs are dropped. -/
def dmaDrop (m : Dma) (e : Prog) : Prog :=
  let used := e.moved * elemsPerRow m.dstFmt
  { e with buf := e.buf.drop (used / elemsPerRow m.srcFmt - (e.read - e.buf.length)),
           scaleBuf := e.scaleBuf.drop (used / 32 / 512 - (e.scaleRead - e.scaleBuf.length)) }

/-- A write done, or what stands in its way. -/
def State.dmaWrote (s : State) (q k x : Nat) (m : Dma) (e : Prog) (r : DmaPut) (f : Prog → Prog) : State :=
  match r with
  | .ok t => t.modProg q k (fun e => { f e with since := none })
  | .wait => s.dmaWaits q k
  | .bad t c n => t.dmaRowFails q k m e x c n

/-- One move of the copy. -/
def State.dmaMove (s : State) (q k x : Nat) (m : Dma) (e : Prog) (host : Row) (u : Upset) : State :=
  match dmaNext m e with
  | .done => s
  | .read => s.dmaRead q k x m e (m.srcUnit e.read).1 (m.srcUnit e.read).2 host u
      (fun w e => { e with buf := e.buf ++ [w], read := e.read + 1 })
  | .readScale => s.dmaRead q k x m e (m.srcScale + 512 * e.scaleRead) 512 host u
      (fun w e => { e with scaleBuf := e.scaleBuf ++ [w], scaleRead := e.scaleRead + 1 })
  | .write =>
    let a := (m.dstUnit e.moved).1
    let n := (m.dstUnit e.moved).2
    if !s.dmaSide x a n true then s.dmaEnd q k m e stAddress (Config.statusCode stAddress % 65536)
    else if 0 < m.tagOp then
      s.dmaWrote q k x m e (s.dmaTag x a (m.tagOp == 2)) (fun e => { e with moved := e.moved + 1 })
    else if m.convert then
      let r := s.dmaRow x m e
      let put := match s.dmaPut x a n r.1 with
        | .ok t => DmaPut.ok (t.dmaCount a r.2.2)
        | p => p
      s.dmaWrote q k x m e put (fun e => dmaDrop m { e with moved := e.moved + 1, scaleOut := e.scaleOut ++ r.2.1 })
    else s.dmaWrote q k x m e (s.dmaPut x a n (e.buf.headD 0)) (fun e => { e with moved := e.moved + 1, buf := e.buf.drop 1 })
  | .writeScale =>
    let a := m.dstScale + 512 * e.scaleMoved
    if s.dmaSide x a 512 true then
      s.dmaWrote q k x m e (s.dmaPut x a 512 (BitVec.ofNat 4096 ((e.scaleOut.take 512).foldr (fun b t => b + 256 * t) 0)))
        (fun e => { e with scaleOut := e.scaleOut.drop 512, scaleMoved := e.scaleMoved + 1 })
    else s.dmaEnd q k m e stAddress (Config.statusCode stAddress % 65536)

/-- A read of the host is sent where the copy needs it next; a copy with nothing left to do completes. -/
def State.dmaSettle (s : State) (q k x : Nat) (m : Dma) : State :=
  match s.prog q k with
  | none => s
  | some e =>
    match dmaNext m e with
    | .done => s.complete q k stOk 0 (dmaMoved m e) 0
    | _ =>
      (match dmaReads m e with
       | some (a, n) => (match placeOf a with
          | .host l off => if e.hostSince.isSome then s
              else (s.emit (.hostRead l ((s.ctx x).params.hostBase + off) n)).modProg q k (fun e => { e with hostSince := some s.now })
          | _ => s)
       | none => s)

/-- A move, and with a source row in hand the write it allows; then what the copy sends or ends with. -/
def State.dmaStep (s : State) (q k x : Nat) (m : Dma) (host : Row) (u : Upset) : State :=
  match s.prog q k with
  | none => s
  | some e =>
    let t := s.dmaMove q k x m e host u
    let t := match dmaReads m e, t.prog q k with
      | some _, some e' => if dmaNext m e' = DmaOp.write then t.dmaMove q k x m e' 0 .none else t
      | _, _ => t
    t.dmaSettle q k x m

/-! ## The rows -/

/-- DMA_COPY: every check before the first byte moves; a copy of nothing completes at once (R399, R400, R402). -/
def execDmaCopy (q k : Nat) (s : State) : Result :=
  match s.startedDesc q k 2 with
  | none => .next s
  | some d =>
    let m := dmaOf d
    let x := (s.qp q).ctx
    if !m.valuesOk then .next (s.rejectDesc q k 0x0813 0)
    else if m.empty then .next (s.complete q k stOk 0 0 0)
    else if !m.aligned then .next (s.failDesc q k stAlign 0)
    else if !m.countsOk then .next (s.rejectDesc q k 0x0813 0)
    else if !s.dmaChecked x m then .next (s.failDesc q k stAddress 0)
    else .next ((s.modProg q k (fun e => { e with running := true })).dmaSettle q k x m)

/-- A copy that runs. -/
def State.runningDma (s : State) (q k : Nat) : Option Prog :=
  match s.prog q k with
  | some e => if e.running && dType e.desc == 2 then some e else none
  | none => none

/-- One unit of a copy moves; during a recovery of its context the copy waits (R322). -/
def execDmaUnit (q k : Nat) (host : Row) (u : Upset) (s : State) : Result :=
  match s.runningDma q k with
  | none => .next s
  | some e =>
    let x := (s.qp q).ctx
    if s.recovering x then .next s else .next (s.dmaStep q k x (dmaOf e.desc) host u)

/-- A host request unanswered within cpl_timeout: the copy completes as host error; a cluster's read of a host window gets
no answer, and its fabric operation timeout decides (R406). -/
def execHostCompletionTimeout (w : Waiter) (s : State) : Result :=
  match w with
  | .dma q k =>
    (match s.runningDma q k with
     | none => .next s
     | some e =>
       (match e.hostSince with
        | none => .next s
        | some t =>
          if t + (s.link ((s.qp q).fn / 64)).cplTimeout * 50 * ticksPerUs ≤ s.now then
            .next (s.dmaEnd q k (dmaOf e.desc) e stHost (Config.statusCode stHost % 65536))
          else .next s))
  | .cluster c =>
    (match s.net.find? (fun k => decide (k.ptype = .memRd) && decide (k.src = .cluster c) && (match placeOf k.index.toNat with
        | .host _ _ => true
        | _ => false)) with
     | some k => .next { s with net := s.net.filter (fun o => o.id != k.id) }
     | none => .next s)
  | _ => .next s

end Sys2Proof.Machine
end

