-- ==== Sys2Proof/Machine/Queues.lean ====
section
/-! DEFINITION. Host ports and queues (13): configuration requests, the device memory aperture, doorbells, queue pairs,
context creation, and the fetch, start and simple ends of descriptors. -/

namespace Sys2Proof.Machine

open Sys2Proof

/-! ## Links -/

/-- The link of a function. -/
def fnLink (f : Nat) : Nat := f / 64

/-- Whether a host-port die ignores doorbells and refuses BAR2: management lost, a device-fatal error, or a stopped
bring-up (R520, R547, R533). -/
def Link.blocked (v : Link) : Bool := v.mgmtLost || v.fatal || v.bootFailed

/-- A die out of reset answers a configuration request, with Request Retry Status until bring-up ends or stops (R380). -/
def execConfigurationRequest (die : Nat) (s : State) : Result :=
  let v := s.port die
  if 8 ≤ die ∨ v.perst ∨ v.absent ∨ v.released = false then .next s
  else .next (s.emit (.cfgReply die (!(s.boot.complete || s.boot.stopped || s.boot.warm))))

/-! ## The device memory aperture (R382) -/

/-- Completion statuses of a host read: success, Completer Abort, poisoned, Unsupported Request. -/
def barOk : Nat := 0
def barAbort : Nat := 1
def barPoisoned : Nat := 2
def barUnsupported : Nat := 3

/-- Whether a request to function f's BARs is answered: a TDI in RUN takes none without the IDE T bit (R454). -/
def State.trustOk (s : State) (f : Nat) (trusted : Bool) : Bool := trusted || (match (s.fn f).tdi with
  | .run => false
  | _ => true)

/-- Whether context x is one that function f owns. -/
def State.ownsCtx (s : State) (f x : Nat) : Bool :=
  (s.ctx x).fn == f && (match (s.ctx x).st with
    | .free | .killing => false
    | _ => true)

/-- The context whose rights check an access through function f's aperture, if the access is one to be checked. -/
def State.apertureOf (s : State) (f : Nat) : Option Nat :=
  let v := s.fn f
  if v.apertureValid && s.ownsCtx f v.apertureCtx then some v.apertureCtx else none

/-- Whether the host may reach n bytes at a through context x: memory of the context, or whole rows of its tarn outside a
recovery and a switch (R73, R93, R322, R409). -/
def State.barMay (s : State) (x a n : Nat) (write : Bool) : Bool :=
  match placeOf a with
  | .tarn _ _ => a % 512 == 0 && n % 512 == 0 && !s.recovering x && (s.part (s.ctx x).part).switching.isNone && oneRange a n &&
      (List.range (n / 512)).all (fun k => s.dmaSide x (a + 512 * k) 512 write)
  | .hbm _ => s.dmaSide x a n write
  | .tier2 _ => s.dmaSide x a n write
  | _ => false

/-- A host read of the pieces of a range in order, each answered on its own; a row its tag blocks, or that fails, ends the
read with Completer Abort (R84, R102); poisoned memory is answered with the poisoned bit (Table 11.2). -/
def State.barPieces (f x a n : Nat) (u : Upset) : (count k : Nat) → State → State
  | 0, _, s => s
  | count + 1, k, s =>
    let b := a + 512 * k
    let m := min 512 (n - 512 * k)
    match placeOf b with
    | .tarn c off =>
      let tagged := (s.coverOf c (off / 512) (some x) .dmaRead).getD false
      (match s.rowAccess c (off / 512) (if tagged then .taggedRead else .untaggedRead) 0 u with
       | .done w t => State.barPieces f x a n .none count (k + 1) (t.emit (.bar f barOk 512 w))
       | .wait => s.emit (.bar f barAbort 0 0)
       | .bad t => (t.emit (.bar f barAbort 0 0)).integrityEvent c (off / 512))
    | _ =>
      let w := BitVec.ofNat 4096 (s.readNat b m)
      if s.readsPoison b m then State.barPieces f x a n u count (k + 1) ((s.emit (.bar f barPoisoned m w)).poisonEvent b)
      else State.barPieces f x a n u count (k + 1) (s.emit (.bar f barOk m w))

def execBar2Read (f : Nat) (trusted : Bool) (off len : Nat) (u : Upset) (s : State) : Result :=
  let l := s.link (fnLink f)
  if 1024 ≤ f ∨ l.up = false ∨ len = 0 ∨ 4096 < len ∨ 2 ^ 36 < off + len then .next s
  else if !s.trustOk f trusted then .next (s.emit (.bar f barUnsupported 0 0))
  else if l.blocked then .next (s.emit (.bar f barAbort 0 0))
  else
    let a := (s.fn f).apertureBase.toNat + off
    match s.apertureOf f with
    | none => .next (s.emit (.bar f barAbort 0 0))
    | some x => if s.barMay x a len false then .next (State.barPieces f x a len u ((len + 511) / 512) 0 s)
                else .next (s.emit (.bar f barAbort 0 0))

/-- A host write is dropped, and reported for the context whose rights it came under (R87, R382). -/
def State.barDrop (s : State) (x a : Nat) : State := s.contextFatal x 0x3203 { part := (s.ctx x).part, detail := [a] }

/-- A host write through the aperture: journalled where it goes to tarn (R308); a write its tag blocks is dropped (R84). -/
def execBar2Write (f : Nat) (trusted : Bool) (off len : Nat) (data : Row) (s : State) : Result :=
  let l := s.link (fnLink f)
  if 1024 ≤ f ∨ l.up = false ∨ s.trustOk f trusted = false ∨ l.blocked ∨ len = 0 ∨ 512 < len ∨ 2 ^ 36 < off + len then .next s
  else
    let a := (s.fn f).apertureBase.toNat + off
    match s.apertureOf f with
    | none => .next (s.note 0x3203 { part := l.part.getD 31, detail := [a] })
    | some x =>
      if s.barMay x a len true then
        match placeOf a with
        | .tarn _ _ => (match s.dmaPut x a len data with
            | .ok t => .next t
            | .wait => .next (s.barDrop x a)
            | .bad t c n => .next ((t.integrityEvent c n).barDrop x a))
        | _ => .next (s.writeMem a (data.toNat % 256 ^ len) len)
      else .next (s.barDrop x a)

/-! ## Doorbells (R389, R374) -/

/-- Whether an agent is the one queue pair q is bound to. -/
def State.rings (s : State) (w : Agent) (q : Nat) : Bool :=
  let v := s.qp q
  match w with
  | .function f _ => v.configured && !bitOf v.cfg 32 && v.fn == f && !(s.link (fnLink f)).blocked && (s.link (fnLink f)).up
  | .core n => v.configured && bitOf v.cfg 32 && decide ((s.core n).owner = some v.ctx)
  | .operator _ _ => false

/-- Whether a doorbell write is taken: by the bound writer, to an enabled queue pair of a context not KILLING, with a value
below the ring's size. -/
def State.doorbellOk (s : State) (w : Agent) (q v size : Nat) : Bool :=
  s.rings w q && (s.qp q).enabled && decide ((s.ctx (s.qp q).ctx).st ≠ .killing) && decide (v < size)

/-- An ignored doorbell write: counted, with an information event. -/
def State.badDoorbell (s : State) (q v : Nat) : State :=
  (s.modQp q (fun e => { e with badDoorbell := satInc e.badDoorbell })).note 0x0801 { part := (s.ctx (s.qp q).ctx).part, detail := [q, v] }

/-- What turns a doorbell access away before it is judged: a core of another context takes an access fault (R374), and a
request without the T bit to a TDI in RUN has no effect (R454). -/
def State.doorbellFault (s : State) (w : Agent) (q off : Nat) : Option State :=
  match w with
  | .core n => if (s.qp q).configured && bitOf (s.qp q).cfg 32 && decide ((s.core n).owner = some (s.qp q).ctx) then none
      else some (s.modCore n (fun c => { c with mcause := 7, tval := BitVec.ofNat 64 (0x3_0000_0800_0000 + q * 4096 + off) }))
  | .function f t => if s.trustOk f t then none else some s
  | _ => none

def execSqDoorbell (w : Agent) (q : Nat) (v : Word) (s : State) : Result :=
  if 2048 ≤ q then .next s
  else match s.doorbellFault w q 0 with
    | some t => .next t
    | none =>
      if s.doorbellOk w q v.toNat (s.qp q).sqSize then .next (s.modQp q (fun e => { e with sqTail := v.toNat }))
      else .next (s.badDoorbell q v.toNat)

def execCqDoorbell (w : Agent) (q : Nat) (v : Word) (s : State) : Result :=
  if 2048 ≤ q then .next s
  else match s.doorbellFault w q 8 with
    | some t => .next t
    | none =>
      if s.doorbellOk w q v.toNat (s.qp q).cqSize then .next (s.modQp q (fun e => { e with cqHead := v.toNat }))
      else .next (s.badDoorbell q v.toNat)

/-! ## Queue pairs (R388, R588, R392, R564) -/

/-- Whether a function's interface is locked by TDISP, which freezes its queue pairs, aperture and contexts (R454). -/
def State.lockedTdi (s : State) (f : Nat) : Bool :=
  match (s.fn f).tdi with
  | .locked | .run => true
  | _ => false

/-- A write that a locked interface ignores (R454). -/
def State.tdiIgnores (s : State) (f off : Nat) : State := s.note 0x0A03 { part := ((s.link (fnLink f)).part).getD 31, detail := [0x1000000 + f * 65536 + off] }

/-- Whether the device accepts an enable. -/
def State.enableOk (s : State) (f : Nat) (v : Qp) : Bool :=
  let k := bitsOf v.cfg 4 0
  let j := bitsOf v.cfg 9 5
  decide (4 ≤ k) && decide (k ≤ 16) && decide (4 ≤ j) && decide (j ≤ 16) &&
  v.sqBase.toNat % 4096 == 0 && v.cqBase.toNat % 4096 == 0 && s.ownsCtx f v.ctx && (s.link (fnLink f)).part.isSome

/-- Bits of HPT_QP_CFG that hold a value (Table 21.5). -/
def qpCfgMask : Word := 0x1FFFFFFFFFFFFF

/-- HPT_QP_CFG.enable is set: the queue pair starts afresh under the context's epoch, or cfg_error is set. -/
def execQpEnable (f q : Nat) (cfg : Word) (s : State) : Result :=
  let v := s.qp q
  if 1024 ≤ f ∨ 2048 ≤ q ∨ bitOf cfg 31 = false ∨ (v.configured ∧ v.fn ≠ f) then .next s
  else if s.lockedTdi f then .next (s.tdiIgnores f 0x18)
  else if v.enabled then .next (s.setQp q { v with cfgError := true })
  else
    let w := { v with cfg := cfg &&& qpCfgMask }
    if s.enableOk f w then
      .next (s.setQp q { fn := f, configured := true, sqBase := w.sqBase, cqBase := w.cqBase, cfg := w.cfg, enabled := true,
                         badDoorbell := w.badDoorbell, epoch := (s.ctx w.ctx).epoch })
    else .next (s.setQp q { w with fn := f, configured := true, cfg := w.cfg &&& ~~~0x80000000#64, cfgError := true })

/-- HPT_QP_CFG.enable is cleared: fetching stops at once, and enable clears when the descriptors in progress have
completed. -/
def execQpDisable (f q : Nat) (s : State) : Result :=
  let v := s.qp q
  if v.configured && v.fn == f && v.enabled then
    (if s.lockedTdi f then .next (s.tdiIgnores f 0x18)
     else .next (s.setQp q (Qp.settle { v with disabling := true, cfg := v.cfg &&& ~~~0x80000000#64 })))
  else .next s

/-! ## Creating a context (R386, R457) -/

/-- Pages of a region's share of a save area: 8 MiB + 8 KiB for each of its 288 positions. -/
def saveShare : Nat := 288 * 2050

/-- Contexts a function may own: HPT_CTX_LIMIT; 112 for a physical function (notes/assumptions/6.md). -/
def State.ctxLimit (s : State) (f : Nat) : Nat := if f % 64 = 0 then 112 else (s.fn f).limit

/-- The first context number unused. -/
def State.freeCtx (s : State) : Option Nat := (List.range 1024).find? (fun x => decide ((s.ctx x).st = .free))

/-- The save area of a context of a partition: each region's share in its own slice, or none where a slice cannot hold
it. -/
def State.saveArea (s : State) (p : Nat) : Option (List (Nat × Nat)) :=
  (s.part p).sorted.foldl (fun (acc : Option (List (Nat × Nat))) r =>
    acc.bind (fun runs => if saveShare ≤ runPages (s.freeRuns r) then some (runs ++ takeRuns saveShare (s.freeRuns r)) else none)) (some [])

/-- HPT_CTX_CREATE.create. -/
def execContextCreate (f : Nat) (debugOpen : Bool) (s : State) : Result :=
  if 1024 ≤ f then .next s
  else if s.lockedTdi f then .next ((s.tdiIgnores f 0x28).modFn f (fun v => { v with createError := v.createError || debugOpen }))
  else
    let owned := (s.ctxs.filter (fun e => e.2.fn == f && decide (e.2.st ≠ .free))).length
    match (s.link (fnLink f)).part, s.freeCtx with
    | some p, some x =>
      (match s.saveArea p with
       | some runs =>
         if owned < s.ctxLimit f then
           let t := s.setCtx x { st := .waiting, fn := f, part := p, debugOpen := debugOpen, keyGen := s.sec.nextKey, saveRuns := runs }
           let t := { t with sec := { t.sec with nextKey := t.sec.nextKey + 1 } }
           .next (t.modFn f (fun v => { v with lastCtx := BitVec.ofNat 10 x, createError := false }))
         else .next (s.modFn f (fun v => { v with createError := true }))
       | none => .next (s.modFn f (fun v => { v with createError := true })))
    | _, _ => .next (s.modFn f (fun v => { v with createError := true }))

/-! ## Fetching and starting descriptors (R390, R393, R395) -/

/-- Completion entries in use: those not yet released and those reserved by descriptors in progress. -/
def Qp.inUse (v : Qp) : Nat := (v.cqTail + v.cqSize - v.cqHead) % v.cqSize + v.prog.length

/-- Whether the device may fetch from a queue pair. -/
def State.mayFetch (s : State) (q : Nat) : Bool :=
  let v := s.qp q
  v.enabled && !v.disabling && decide (v.sqTail ≠ v.fetch) && decide (v.inUse < v.cqSize - 1) && s.ownsCtx v.fn v.ctx

/-- A descriptor is fetched: from host memory, or for a core-side queue pair from the ring in HBM (R374). -/
def execDescriptorFetch (q : Nat) (d : Desc) (s : State) : Result :=
  if s.mayFetch q then
    let v := s.qp q
    let body : Desc := if bitOf v.cfg 32 then BitVec.ofNat 512 (s.readNat (v.sqBase.toNat + 64 * v.fetch) 64) else d
    let e : Prog := { k := v.fetch, desc := body, order := s.order }
    .next ({ s with order := s.order + 1 }.setQp q { v with fetch := (v.fetch + 1) % v.sqSize, prog := v.prog ++ [e] })
  else .next s

/-- A fetched descriptor starts in its order, or is rejected for its header. -/
def execDescriptorStart (q k : Nat) (s : State) : Result :=
  match s.prog q k with
  | none => .next s
  | some e =>
    if e.started || !s.mayStart q e then .next s
    else match headerCode (s.qp q).ctx e.desc with
      | some code => .next (s.rejectDesc q k code 0)
      | none => .next (s.modProg q k (fun e => { e with started := true }))

/-- NOP completes with success (R407). -/
def execDescriptorNop (q k : Nat) (s : State) : Result :=
  match s.startedDesc q k 0 with
  | some _ => .next (s.complete q k stOk 0 0 0)
  | none => .next s

/-- JOURNAL_MARK: the MARK record, then success; journal full where the ring has no room for it (R308, R315). -/
def execJournalMark (q k : Nat) (s : State) : Result :=
  match s.startedDesc q k 6 with
  | none => .next s
  | some d =>
    let x := (s.qp q).ctx
    let p := (s.ctx x).part
    let t := s.record p x 0 (.mark (d.extractLsb' 64 64))
    if s.recordFits p 0 then .next (t.complete q k stOk 0 0 0) else .next (t.complete q k stJournal 0x0803 0 0)

/-- FENCE: its request, if one is open, ends, and it completes (R395, R428). -/
def execFence (q k : Nat) (s : State) : Result :=
  match s.startedDesc q k 8 with
  | none => .next s
  | some _ =>
    let t := s.modQp q (fun v => { v with openReq := false, epoch := (s.ctx v.ctx).epoch })
    .next (t.complete q k stOk 0 0 0)

end Sys2Proof.Machine
end

