-- ==== Sys2Proof/Machine/Contexts.lean ====
section
/-! DEFINITION. Contexts (13): the operations of CONTEXT_CTL, pages, cores, the kill of a context, the context switch, and
the resets of functions and links. -/

namespace Sys2Proof.Machine

open Sys2Proof

/-! ## CONTEXT_CTL fields (Table 13.9) -/

def cCluster (d : Desc) : Nat := bitsOf d 140 128
def cHandle (d : Desc) : Nat := bitsOf d 149 144
def cAddr (d : Desc) : Nat := bitsOf d 243 192
def cCount (d : Desc) : Nat := bitsOf d 287 256

/-- A change is kept for the next step boundary, which is now if the partition stands at one (R403). -/
def State.defer (s : State) (q k : Nat) (c : Deferred) : State :=
  let x := (s.qp q).ctx
  ((s.begin q k).modCtx x (fun v => { v with deferred := v.deferred ++ [(some (q, k), c)] })).boundaryWork (s.ctx x).part

/-- Whether a parameter's value lies in its range (Table 13.10). -/
def paramOk (param : Nat) (v : Word) : Bool :=
  let n := v.toNat
  match param with
  | 1 => decide (1 ≤ n) && decide (n ≤ 100000)
  | 2 => decide (1 ≤ n) && decide (n ≤ 64)
  | 3 => decide (1 ≤ n) && decide (n ≤ 10000)
  | 4 => decide (1 ≤ n) && decide (n ≤ 600)
  | 5 => true
  | 6 => n % 4096 == 0
  | 7 => decide (n ≤ 1048575)
  | _ => false

/-- SET_PARAM (R404). -/
def execSetParam (q k : Nat) (s : State) : Result :=
  match s.startedCtl q k 1 with
  | none => .next s
  | some d =>
    let n := bitsOf d 135 128
    let v := d.extractLsb' 256 64
    if paramOk n v then .next (s.defer q k (.param n v)) else .next (s.rejectDesc q k 0x0813 0)

/-! ## Handles and spans -/

/-- Whether cluster c is a position of context x's partition that has a tarn (R29, R38). -/
def State.ctxCluster (s : State) (x c : Nat) : Bool :=
  decide (c < 4608) && decide (s.partOf c = some (s.ctx x).part) && !s.vacant c && (s.region (regionOf c)).inService

/-- Whether a backing store of `bytes` at an address is one the context may map: its own HBM, its own tier-2 pages, or its
host window (R90). -/
def State.backingOk (s : State) (x tier addr bytes : Nat) : Bool :=
  match tier, placeOf addr with
  | 1, .hbm _ => s.reachable (s.ctx x).part addr (max 1 bytes) && s.ownPages x addr bytes
  | 2, .tier2 _ => s.reachable (s.ctx x).part addr (max 1 bytes) && s.ownPages x addr bytes
  | 3, .host l _ => s.hostWindowOk x l && oneRange addr (max 1 bytes)
  | _, _ => false

/-- Whether a handle of a cluster is one an image of context x defines (R421). -/
def State.imageHandle (s : State) (x c h : Nat) : Bool :=
  (s.ctx x).slots.any (fun t => t.2.handles.any (fun e => e.1 == c && e.2.1 == h))

/-- Whether an entry passes R90 but for its overlap, which is judged when it is written. -/
def State.entryOk (s : State) (x : Nat) (e : HandleEntry) : Bool :=
  handleFieldsOk e && hOwner e == x &&
  (hBacking e == 0 || (s.backingOk x (hBacking e) (hBackAddr e) (hCount e * 512) && s.backingOk x 1 (hBitmap e) (bitmapBytes e)))

/-- SET_HANDLE (R89, R90). -/
def execSetHandle (q k : Nat) (s : State) : Result :=
  match s.startedCtl q k 3 with
  | none => .next s
  | some d =>
    let x := (s.qp q).ctx
    let e : HandleEntry := d.extractLsb' 256 256
    if 4608 ≤ cCluster d then .next (s.rejectDesc q k 0x0813 0)
    else if !s.ctxCluster x (cCluster d) then .next (s.failDesc q k stAddress 0)
    else if s.imageHandle x (cCluster d) (cHandle d) then .next (s.rejectDesc q k 0x0813 0)
    else if s.entryOk x e then .next (s.defer q k (.handle (cCluster d) (cHandle d) e))
    else .next (s.failDesc q k stHandle 0)

/-- A span descriptor read from its 64-bit words: the header, then two members to a word (Table 3.7). -/
def spanMembers (ws : List Word) (n : Nat) : List (BitVec 32) :=
  (List.range n).map (fun i => (ws.getD (1 + i / 2) 0).extractLsb' (32 * (i % 2)) 32)

/-- Whether the members stand in strictly ascending cluster number. -/
def ascending : List Nat → Bool
  | a :: b :: rest => decide (a < b) && ascending (b :: rest)
  | _ => true

/-- The span a descriptor defines for context x, if R95 accepts it. -/
def State.spanOf (s : State) (x : Nat) (ws : List Word) : Option Span :=
  let h := ws.headD 0
  let n := bitsOf h 12 0
  let stripe := bitsOf h 30 16
  let ms := spanMembers ws n
  let cs := ms.map (fun m => bitsOf m 12 0)
  let ok := decide (1 ≤ n) && decide (n ≤ 4608) && bitsOf h 15 13 == 0 && decide (1 ≤ stripe) && decide (stripe ≤ 16384) &&
    bitsOf h 63 46 == 0 && bitsOf h 45 36 == x && ms.all (fun m => bitsOf m 31 19 == 0) && ascending cs &&
    ms.all (fun m =>
      let e := s.ctxHandle x (bitsOf m 12 0) (bitsOf m 18 13)
      s.ctxCluster x (bitsOf m 12 0) && decide (0 < hCount e) && hOwner e == x && hTagged e == bitOf h 31 && hFormat e == bitsOf h 35 32)
  if ok then some { members := ms.map (fun m => { cluster := bitsOf m 12 0, handle := bitsOf m 18 13 }), stripe := stripe,
                    tagged := bitOf h 31, format := bitsOf h 35 32 }
  else none

/-- The words of a span descriptor: those the host returned, or those memory holds at its address. -/
def State.spanWords (s : State) (a : Nat) (bytes : List Word) : List Word :=
  match placeOf a with
  | .host _ _ => bytes
  | _ =>
    let n := s.readNat a 8 % 8192
    (List.range (1 + (n + 1) / 2)).map (fun i => BitVec.ofNat 64 (s.readNat (a + 8 * i) 8))

/-- SET_SPAN (R94, R95). -/
def execSetSpan (q k : Nat) (bytes : List Word) (s : State) : Result :=
  match s.startedCtl q k 4 with
  | none => .next s
  | some d =>
    let x := (s.qp q).ctx
    let a := cAddr d
    let ws := s.spanWords a bytes
    let len := 8 + 4 * (bitsOf (ws.headD 0) 12 0)
    if isTarn a then .next (s.failDesc q k stAlign 0)
    else if !s.dmaSide x a len false then .next (s.failDesc q k stAddress 0)
    else if s.readsPoison a len then .next ((s.complete q k stIntegrity (s.poisonCode a) 0 0).poisonEvent a)
    else match s.spanOf x ws with
      | some sp => .next (s.defer q k (.span (bitsOf d 139 128) sp))
      | none => .next (s.rejectDesc q k 0x0813 0)

/-- SPILL_HANDLE: to a backing store named, which must be one the context may map, or one the device chooses (R100,
R357). -/
def execSpillHandle (q k : Nat) (s : State) : Result :=
  match s.startedCtl q k 5 with
  | none => .next s
  | some d =>
    let x := (s.qp q).ctx
    let tier := bitsOf d 153 152
    let e := s.ctxHandle x (cCluster d) (cHandle d)
    if 4608 ≤ cCluster d ∨ (tier = 0 ∧ cAddr d ≠ 0) then .next (s.rejectDesc q k 0x0813 0)
    else if !s.ctxCluster x (cCluster d) then .next (s.failDesc q k stAddress 0)
    else if tier ≠ 0 ∧ cAddr d % 4096 ≠ 0 then .next (s.failDesc q k stAlign 0)
    else if tier ≠ 0 ∧ s.backingOk x tier (cAddr d) (hCount e * 512) = false then .next (s.failDesc q k stAddress 0)
    else .next (s.defer q k (.spill (cCluster d) (cHandle d) tier (cAddr d)))

/-- RESTORE_HANDLE (R100). -/
def execRestoreHandle (q k : Nat) (s : State) : Result :=
  match s.startedCtl q k 6 with
  | none => .next s
  | some d =>
    let x := (s.qp q).ctx
    if 4608 ≤ cCluster d then .next (s.rejectDesc q k 0x0813 0)
    else if !s.ctxCluster x (cCluster d) then .next (s.failDesc q k stAddress 0)
    else .next (s.defer q k (.restore (cCluster d) (cHandle d)))

/-! ## Pages (R405) -/

/-- Whether a page lies where the context may map: mapped HBM of its partition, or an ONLINE window of it. -/
def State.mappable (s : State) (x g : Nat) : Bool :=
  let p := (s.ctx x).part
  s.reachable p (g * 4096) 4096 && s.pageFree g &&
  match placeOf (g * 4096) with
  | .hbm _ => true
  | .tier2 o => (match s.windowAt o 4096 with
      | some w => decide ((s.win w).st = .online)
      | none => false)
  | _ => false

/-- A page's bytes as another context's key shows them (R448). -/
def State.rekey (s : State) (g old new : Nat) : State :=
  (List.range 4096).foldl (fun (t : State) i => t.setByte (g * 4096 + i) (Config.otherKey old new s.fresh (g * 4096 + i)))
    (s.evictRange (g * 4096) 4096)

/-- A page mapped by context x: bytes that another context's key encrypted are lost. -/
def State.mapPage (s : State) (x g : Nat) (input : Bool) : State :=
  let pg := s.page g
  let key := (s.ctx x).keyGen + 1
  let t := if pg.key = 0 ∨ pg.key = key then s else (s.rekey g pg.key key).draw
  t.setPage g { use := if input then .stepInput else .mapped, owner := x, unmapped := pg.unmapped, key := key }

/-- MAP_PAGES: at once. -/
def execMapPages (q k : Nat) (s : State) : Result :=
  match s.startedCtl q k 7 with
  | none => .next s
  | some d =>
    let x := (s.qp q).ctx
    let n := cCount d
    let b := cAddr d / 4096
    if n = 0 then .next (s.complete q k stOk 0 0 0)
    else if cAddr d % 4096 ≠ 0 then .next (s.failDesc q k stAlign 0)
    else if !(List.range n).all (fun i => s.mappable x (b + i)) then .next (s.rejectDesc q k 0x0813 0)
    else if (s.ctx x).quota < s.ownedPages x + n then .next (s.failDesc q k stCapacity 0)
    else .next (((List.range n).foldl (fun (t : State) i => t.mapPage x (b + i) (bitOf d 288)) s).complete q k stOk 0 0 0)

/-- Whether a page is one a context mapped, its checkpoint areas among them. -/
def State.mappedBy (s : State) (x g : Nat) : Bool :=
  (s.page g).owner == x && match (s.page g).use with
    | .mapped | .stepInput | .checkpoint => true
    | _ => false

/-- UNMAP_PAGES: at once while the context is not resident, else at the next boundary. -/
def execUnmapPages (q k : Nat) (s : State) : Result :=
  match s.startedCtl q k 8 with
  | none => .next s
  | some d =>
    let x := (s.qp q).ctx
    let n := cCount d
    let b := cAddr d / 4096
    if n = 0 then .next (s.complete q k stOk 0 0 0)
    else if cAddr d % 4096 ≠ 0 then .next (s.failDesc q k stAlign 0)
    else if !(List.range n).all (fun i => s.mappedBy x (b + i)) then .next (s.failDesc q k stAddress 0)
    else if s.inCheckpoint b n then .next (s.rejectDesc q k 0x0813 0)
    else if s.isResident x then .next (s.defer q k (.unmap b n))
    else .next ((s.unmapPages x b n).complete q k stOk 0 0 0)

/-! ## Cores (R371) -/

/-- The modified lines a context holds in a chiplet are written back. -/
def State.flushChiplet (s : State) (r x : Nat) : State :=
  (Tbl.keysWhere (fun _ d => d.modified && d.ctx == x && d.holders.contains r) s.dir).foldl State.evictLine s

/-- A core taken from its context, if any, and given to another, which starts it at an entry address. -/
def State.giveCore (s : State) (n : Nat) (to' : Option (Nat × Nat)) : State :=
  let v := s.core n
  let t := match v.owner with
    | some y => s.flushChiplet (coreRegion n) y
    | none => s
  match to' with
  | some (x, entry) => t.setCore n { stopCore v with owner := some x, running := true, entry := entry, a0 := BitVec.ofNat 64 n, a1 := BitVec.ofNat 64 x }
  | none => t.setCore n (stopCore v)

/-- Whether context x may assign or unassign core n. -/
def State.coreMay (s : State) (x n : Nat) (unassign : Bool) : Bool :=
  let v := s.core n
  decide ((s.region (coreRegion n)).part = some (s.ctx x).part) && (s.region (coreRegion n)).cores && !v.failed &&
  (if unassign then decide (v.owner = some x) else v.owner.isNone || decide (v.owner = some x))

/-- ASSIGN_CORES: at once. -/
def execAssignCores (q k : Nat) (s : State) : Result :=
  match s.startedCtl q k 9 with
  | none => .next s
  | some d =>
    let x := (s.qp q).ctx
    let first := bitsOf d 136 128
    let n := bitsOf d 148 144
    let off := bitOf d 149
    if n = 0 then .next (s.complete q k stOk 0 0 0)
    else if 384 ≤ first ∨ 24 < n ∨ first % 24 + n > 24 ∨ (List.range n).all (fun i => s.coreMay x (first + i) off) = false then
      .next (s.rejectDesc q k 0x0813 0)
    else
      let t := (List.range n).foldl (fun (t : State) i => t.giveCore (first + i) (if off then none else some (x, cAddr d))) s
      .next (t.complete q k stOk 0 0 0)

/-! ## Killing a context (R410, R411) -/

/-- CONTEXT_CTL KILL: its descriptor completes last. -/
def execKill (q k : Nat) (s : State) : Result :=
  match s.startedCtl q k 10 with
  | none => .next s
  | some _ => .next ((s.begin q k).killStart (s.qp q).ctx (some (q, k)))

/-- The runs a context's slots and saves hold, freed when they have been zeroed. -/
def Ctx.runs (c : Ctx) : List (Nat × Nat) := c.saveRuns ++ c.slots.filterMap (fun t => t.2.staging)

/-- The pages and records of a killed context: crypto-erased pages wait to be zeroed, its records are void. -/
def State.eraseCtx (s : State) (x : Nat) : State :=
  let c := s.ctx x
  let t := { s with
    zeroRuns := s.zeroRuns ++ c.runs,
    pages := Tbl.mapVal (fun _ => {}) (fun _ (v : Page) => if v.owner = x ∧ v.use ≠ PageUse.free ∧ v.use ≠ PageUse.zeroing then
      { v with use := .zeroing, owner := 0 } else v) s.pages }
  let t := t.modPart c.part (fun v => { v with journal := v.journal.map (fun (e : JEntry) => if e.ctx = x then { e with body := .pad } else e) })
  t.setCtx x { fn := c.fn, lastError := c.lastError }

/-- Events 4 and 5: the context's key is destroyed, the kill is reported, and the context is FREE. -/
def execKillCryptoErase (x : Nat) (s : State) : Result :=
  let c := s.ctx x
  if c.st ≠ .killing ∨ c.killStage ≠ 3 then .next s
  else
    let t := (s.note 0x0809 { part := c.part, ctx := some x, detail := [x] }).eraseCtx x
    let t := t.modPart c.part (fun v => if v.resident = some x then { v with resident := none } else v)
    let t := match c.killQ with
      | some (q, k) => t.complete q k stOk 0 0 0
      | none => t
    .next ((t.modPart c.part (fun v => { v with journalLow := t.journalLow c.part })).boundaryWork c.part)

/-- A page zeroed in the background becomes mappable (R405, R410). -/
def State.zeroPage (s : State) (g : Nat) : State :=
  if (s.page g).use = .zeroing || s.zeroRuns.any (inRun g) then
    let t := s.zeroBytes (g * 4096) 4096
    let t := { t with poison := Tbl.drop (fun k => k / 128 == g) t.poison, dir := t.dir.filter (fun e => e.1 / 64 != g),
                      zeroRuns := t.zeroRuns.flatMap (fun r => cutRun r (g, 1)) }
    t.modPage g (fun v => if v.use = .zeroing then { v with use := .free, owner := 0, key := 0 } else { v with key := 0 })
  else s

def execPageZeroingDone (pages : List Nat) (s : State) : Result := .next (pages.foldl State.zeroPage s)

/-- PRT_CTX_KILL: written by the operator, or the physical function of a link of the partition; a context of another
partition is ignored. -/
def State.prtAgent (s : State) (a : Agent) (p : Nat) : Bool :=
  match a with
  | .operator e _ => e == s.mgt.epoch
  | .function f _ => f % 64 == 0 && decide (f < 1024) && decide ((s.link (fnLink f)).part = some p) && (s.link (fnLink f)).up
  | .core _ => false

def execPrtCtxKill (a : Agent) (p x : Nat) (s : State) : Result :=
  if s.prtAgent a p && decide (x < 1024) && (s.ctx x).part == p && decide ((s.ctx x).st ≠ .free) then .next (s.killStart x none) else .next s

/-! ## The context switch (R409) -/

/-- A row as it is saved: one that fails its CRC as it leaves is POISONED. -/
def savedRow (r : TarnRow) : TarnRow := if r.syndrome ≠ 0 then { r with tag := .poisoned } else r

/-- The rows of a partition that are listed. -/
def State.partRows (s : State) (p : Nat) : Tbl TarnRow := s.tarn.filter (fun e => inRegions (s.part p).regions (e.1 / 16384))

/-- The outgoing context's tarn is in its save area, and the scrub begins. -/
def execContextSaveDone (p : Nat) (s : State) : Result :=
  match (s.part p).switching with
  | some w =>
    (match w.stage, w.outgoing with
     | .saving, some o =>
       let rows := s.partRows p
       let sv : Saved := { rows := rows.map (fun e => (e.1, savedRow e.2)), handles := s.ctxTables o, layout := (s.ctx o).layout, epoch := (s.ctx o).epoch }
       let t := s.modCtx o (fun v => { v with st := .waiting, save := some sv })
       let t := (t.modPart p (fun v => { v with resident := none, switching := some { w with stage := .scrubbing } })).startScrub p
       let bad := rows.filter (fun e => decide (e.2.syndrome ≠ 0) && decide (e.2.tag ≠ .poisoned))
       .next (bad.foldl (fun (t : State) e => t.raise 0x2201
         { t.atCluster (e.1 / 16384) [e.1 / 16384, e.1 % 16384] with ctx := some o }) t)
     | _, _ => .next s)
  | none => .next s

/-- Every row of the partition is zero and EMPTY, every handle invalid (R106); what waited for it goes on. -/
def execScrubDone (p : Nat) (s : State) : Result :=
  if (s.part p).scrubbing = false then .next s
  else
    let t := { s with tarn := Tbl.drop (fun key => inRegions (s.part p).regions (key / 16384)) s.tarn }
    let t := t.clearHandles p
    let t := t.modPart p (fun v => { v with scrubbing := false, switching := match v.switching with
      | some w => some (if w.stage = .scrubbing then { w with stage := .restoring } else w)
      | none => none })
    let t := match (s.part p).resident with
      | some x => if (s.ctx x).st = XState.killing ∧ (s.ctx x).killStage = 2 then
          (t.modCtx x (fun v => { v with killStage := 3 })).modPart p (fun v => { v with resident := none }) else t
      | none => t
    .next (t.boundaryWork p)

/-- The incoming context's tarn is restored: rows with their saved tags, or the scrubbed tarn of a context never resident
before; it is resident from now on. -/
def execContextRestoreDone (p : Nat) (s : State) : Result :=
  match (s.part p).switching with
  | some w =>
    if w.stage = .restoring ∧ (s.part p).scrubbing = false ∧ (s.part p).drain = none then
      let x := w.incoming
      let here := fun (c : Nat) => inRegions (s.part p).regions c
      let t := match (s.ctx x).save with
        | some v => (s.restoreRows v.rows here).restoreHandles v.handles (fun c _ => here c)
        | none => s
      let t := (t.modCtx x (fun v => { v with st := .resident, save := none, beenResident := true })).modPart p
        (fun v => { v with resident := some x, residentSince := s.now, switching := none })
      let t := t.resumeLoads x
      .next (if (s.ctx x).needLayout then t.startShrink p x else t.boundaryWork p)
    else .next s
  | none => .next s

/-! ## Resets of functions and links (R383) -/

/-- The contexts of a function that exist. -/
def State.ctxsOfFn (s : State) (f : Nat) : List Nat := Tbl.keysWhere (fun _ v => v.fn == f && decide (v.st ≠ .free)) s.ctxs

/-- A function is reset: its contexts are killed, its queue pairs are free, its registers are as after reset. -/
def State.resetFn (s : State) (f : Nat) (byParent : Bool) : State :=
  let old := s.fn f
  let t := (s.ctxsOfFn f).foldl (fun (t : State) x => t.killStart x none) s
  let t := { t with qps := Tbl.mapVal (fun _ => {}) (fun _ v => if v.configured && v.fn == f then {} else v) t.qps }
  t.setFn f { limit := if byParent then 16 else old.limit, tdi := if byParent then old.spoil.tdi else .unlocked }

/-- Every function of a link. -/
def State.resetLinkFns (s : State) (l : Nat) : State :=
  (List.range 64).foldl (fun (t : State) v => t.resetFn (64 * l + v) true) s

/-- A function level reset; that of a physical function resets its link's virtual functions too. -/
def execFunctionLevelReset (f : Nat) (s : State) : Result :=
  if 1024 ≤ f then .next s else if f % 64 = 0 then .next (s.resetLinkFns (fnLink f)) else .next (s.resetFn f false)

def execHotReset (l : Nat) (s : State) : Result := if 16 ≤ l then .next s else .next (s.resetLinkFns l)

/-- A link goes down: every function of it is reset; what still addresses its window is refused by R37. -/
def execLinkDown (l : Nat) (s : State) : Result :=
  if 16 ≤ l ∨ (s.link l).up = false then .next s
  else .next ((s.modLink l (fun v => { v with up := false })).resetLinkFns l)

end Sys2Proof.Machine
end

