-- ==== Sys2Proof/Machine/Images.lean ====
section
/-! DEFINITION. Weight images (14): the checks of an envelope and a manifest, placement and reservation, shards and the
distribution chain, swaps, the release of a slot, and SELECT_LAYOUT. -/

namespace Sys2Proof.Machine

open Sys2Proof

/-! ## Envelope (R412 to R415) -/

def imgManifestLen (m : Image) : Nat := bitsOf m.header 95 64
def imgShards (m : Image) : Nat := bitsOf m.header 111 96
def imgLastRows (m : Image) : Nat := bitsOf m.header 191 160
def imgShardBase (m : Image) : Nat := bitsOf m.header 243 192
def imgManifestHash (m : Image) : BitVec 256 := m.header.extractLsb' 256 256
def imgKeyHash (m : Image) : BitVec 256 := m.header.extractLsb' 512 256

/-- Rows of shard k of an image. -/
def imgRows (m : Image) (k : Nat) : Nat := if k + 1 = imgShards m then imgLastRows m else 131072

/-- Bytes of an image. -/
def imgBytes (m : Image) : Nat := imgShardBase m + (imgShards m - 1) * 2 ^ 26 + imgLastRows m * 512

/-- Whether the header is one of Table 14.2. -/
def headerOk (m : Image) : Bool :=
  bitsOf m.header 31 0 == 0x474D4951 && bitsOf m.header 47 32 == 1 && bitsOf m.header 63 48 == 0 &&
  decide (128 ≤ imgManifestLen m) && decide (imgManifestLen m ≤ 2 ^ 26) && imgManifestLen m % 16 == 0 && m.manifest.len == imgManifestLen m &&
  decide (1 ≤ imgShards m) && bitsOf m.header 127 112 == 0 && bitsOf m.header 159 128 == 131072 &&
  decide (1 ≤ imgLastRows m) && decide (imgLastRows m ≤ 131072) && imgShardBase m % 4096 == 0 &&
  decide (0x2000 + imgManifestLen m ≤ imgShardBase m) && bitsOf m.header 255 244 == 0 && bitsOf m.header 2047 768 == 0 && m.keyReserved == 0

/-! ## Manifest (R416 to R418) -/

/-- Whether an entry's reserved bits are zero and its own values lie in their ranges (Table 14.4). -/
def entryFieldsOk (e : LEntry) : Bool :=
  match leType e with
  | 0 => bitsOf e 127 8 == 0
  | 1 => decide (1 ≤ bitsOf e 12 8) && decide (bitsOf e 12 8 ≤ 16) && decide (1 ≤ bitsOf e 25 13) && decide (bitsOf e 25 13 ≤ 4608) && bitsOf e 127 30 == 0
  | 2 => decide (bitsOf e 20 12 ≤ 287) && bitsOf e 127 21 == 0
  | 3 => decide (1 ≤ bitsOf e 33 21) && decide (bitsOf e 33 21 ≤ 4608) && decide (1 ≤ leHandleRows e) && decide (leHandleRows e ≤ 16384) &&
      !fmtReserved (leHandleFormat e) && bitsOf e 127 67 == 0
  | 4 => decide (1 ≤ bitsOf e 45 33) && decide (1 ≤ leSpanStripe e) && decide (leSpanStripe e ≤ 16384) && bitsOf e 127 67 == 0
  | 5 => decide (1 ≤ leRows e) && decide (leRows e ≤ 131072) && decide (leKind e ≤ 2) && (leKind e == 1 || leRank e == 0)
  | 7 => decide (bitsOf e 25 24 ≤ 1) && decide (8 ≤ bitsOf e 67 36) && bitsOf e 67 36 % 8 == 0 && (bitsOf e 25 24 == 1 || bitsOf e 111 68 == 0) &&
      bitsOf e 127 112 == 0
  | 8 => decide (1 ≤ bitsOf e 49 37) && bitsOf e 127 50 == 0
  | 9 => decide (1 ≤ leAreaPages e) && bitsOf e 127 48 == 0
  | _ => false

/-- Whether a layout record has the shape of R417: LAYOUT, its RANK entries, a mix of the others, END. -/
def layoutShape (i : Nat) (l : List LEntry) : Bool :=
  let n := layoutRankCount l
  decide (2 ≤ l.length) && decide (l.length ≤ 65536) && (l.head?.map leType) == some 1 && (l.getLast?.map leType) == some 0 &&
  layoutIndex l == i && ((l.drop 1).take n).all (fun e => leType e == 2) && (entriesOf l 2).length == n &&
  ((l.drop (n + 1)).dropLast).all (fun e => [3, 4, 5, 7, 8].contains (leType e) && (leType e != 5 || decide (leKind e ≤ 1))) &&
  l.all entryFieldsOk

/-- The HANDLE entry that defines a handle on a rank. -/
def handleAt (l : List LEntry) (rank h : Nat) : Option LEntry :=
  (entriesOf l 3).find? (fun e => leHandle e == h && (leHandleRanks e).contains rank)

/-- The rank and handle row that logical row i of a SPAN entry lies in, members in ascending position (R419). -/
def leSpanRow (l : List LEntry) (e : LEntry) (i : Nat) : Option (Nat × Nat) :=
  let pos := fun (k : Nat) => match (layoutRanks l)[k]? with
    | some (o, p) => o * 288 + p
    | none => 0
  let ks := sortBy (fun a b => decide (pos a ≤ pos b)) (leSpanRanks e)
  let st := leSpanStripe e
  (ks[i / st % ks.length]?).map (fun k => (k, i / (st * ks.length) * st + i % st))

/-- The handle rows an extent of a layout writes: rank, handle and row of each. -/
def extentRows (l : List LEntry) (e : LEntry) : List (Option (Nat × Nat × Nat)) :=
  (List.range (leRows e)).map (fun j =>
    if leKind e = 0 then
      ((entriesOf l 4).find? (fun t => leSpan t == leTarget e)).bind (fun t =>
        (leSpanRow l t (leDest e + j)).map (fun r => (r.1, leSpanHandle t, r.2)))
    else some (leRank e, leTarget e, leDest e + j))

/-- Whether every row of an extent lies within its handle, and its shard's format is the handle's. -/
def extentOk (m : Image) (l : List LEntry) (e : LEntry) : Bool :=
  decide (leShard e < imgShards m) && decide (leFirstRow e + leRows e ≤ imgRows m (leShard e)) &&
  (extentRows l e).all (fun r => match r with
    | some (k, h, row) => (match handleAt l k h with
        | some he => decide (row < leHandleRows he) && leHandleFormat he == bitsOf (m.manifest.shards.getD (leShard e) 0) 387 384
        | none => false)
    | none => false)

/-- Whether one layout's references all have their definitions, and no rank, position or destination row comes twice
(R418). -/
def layoutOk (m : Image) (l : List LEntry) : Bool :=
  let n := layoutRankCount l
  let areas := (entriesOf m.manifest.common 9).map leArea
  (layoutRanks l).all (fun r => decide (r.1 < layoutRegions l)) && decide (layoutRanks l).Nodup &&
  (entriesOf l 3).all (fun e => decide (bitsOf e 20 8 + bitsOf e 33 21 ≤ n)) &&
  (entriesOf l 4).all (fun e => decide (bitsOf e 32 20 + bitsOf e 45 33 ≤ n) && (leSpanRanks e).all (fun k => (handleAt l k (leSpanHandle e)).isSome)) &&
  (entriesOf l 5).all (extentOk m l) && decide ((entriesOf l 5).flatMap (extentRows l)).Nodup &&
  (entriesOf l 7).all (fun e => bitsOf e 25 24 == 0 || areas.contains (bitsOf e 35 32)) &&
  (entriesOf l 8).all (fun e => decide (bitsOf e 36 24 + bitsOf e 49 37 ≤ n) && decide (setRanks l (bitsOf e 23 8)).Nodup)

/-- The handle numbers a layout defines on a rank, in order. -/
def rankHandles (l : List LEntry) (k : Nat) : List Nat := (List.range 64).filter (fun h => (handleAt l k h).isSome)

/-- Whether two layouts define the same handle numbers on each rank both have, and as many programs and sets. -/
def layoutsAgree (a b : List LEntry) : Bool :=
  (List.range (min (layoutRankCount a) (layoutRankCount b))).all (fun k => rankHandles a k == rankHandles b k) &&
  ((entriesOf a 7).map (fun e => bitsOf e 23 8)).eraseDups.length == ((entriesOf b 7).map (fun e => bitsOf e 23 8)).eraseDups.length &&
  ((entriesOf a 8).map (fun e => bitsOf e 23 8)).eraseDups.length == ((entriesOf b 8).map (fun e => bitsOf e 23 8)).eraseDups.length

/-- Whether every image handle that a step, a copy or a remote cluster may write belongs to a span in every layout. -/
def writersSpanned (ls : List (List LEntry)) : Bool :=
  ls.all (fun l => (entriesOf l 3).all (fun e =>
    let r := leHandleRights e
    if r / 2 % 2 + r / 8 % 2 + r / 32 % 2 = 0 then true
    else ls.all (fun l' => (leHandleRanks e).all (fun k =>
      (entriesOf l' 4).any (fun t => leSpanHandle t == leHandle e && (leSpanRanks t).contains k)))))

/-- The HBM area rows a common extent writes. -/
def areaRows (e : LEntry) : List (Nat × Nat) := (List.range (leRows e)).map (fun j => (leTarget e, leDest e + j))

/-- Whether the common section holds HBM areas and extents into them alone, in range and without overlap. -/
def commonOk (m : Image) : Bool :=
  let c := m.manifest.common
  c.all (fun e => entryFieldsOk e && (leType e == 9 || (leType e == 5 && leKind e == 2))) &&
  decide ((entriesOf c 9).map leArea).Nodup &&
  (entriesOf c 5).all (fun e => decide (leShard e < imgShards m) && decide (leFirstRow e + leRows e ≤ imgRows m (leShard e)) &&
    (match (entriesOf c 9).find? (fun a => leArea a == leTarget e) with
     | some a => decide (leDest e + leRows e ≤ leAreaPages a * 8)
     | none => false)) &&
  decide ((entriesOf c 5).flatMap areaRows).Nodup

/-- Whether a manifest is one R416 to R418 accept. -/
def manifestOk (m : Image) : Bool :=
  let v := m.manifest
  let h := v.header
  bitsOf h 100 96 == v.layouts.length && decide (1 ≤ v.layouts.length) && decide (v.layouts.length ≤ 16) && bitsOf h 127 102 == 0 &&
  bitsOf h 143 128 == v.common.length && decide (v.common.length ≤ 4096) && bitsOf h 159 144 == 0 && bitsOf h 1023 672 == 0 &&
  v.shards.length == imgShards m && v.shards.all (fun e => !fmtReserved (bitsOf e 387 384) && bitsOf e 511 388 == 0) &&
  decide (128 + 64 * v.shards.length + 16 * v.common.length + 8 * v.layouts.length + 16 * (v.layouts.map List.length).sum ≤ v.len) &&
  (v.layouts.zipIdx).all (fun l => layoutShape l.2 l.1) && commonOk m && v.layouts.all (layoutOk m) &&
  v.layouts.all (fun a => v.layouts.all (layoutsAgree a)) && writersSpanned v.layouts

/-- The first check an image fails, by its code, or the content key it gives (R414, R415). -/
def State.imageCheck (s : State) (x : Nat) (m : Image) : Nat ⊕ BitVec 256 :=
  if headerOk m = false then .inl 0x0901
  else if Config.keyHash m.pubKey ≠ imgKeyHash m then .inl 0x0902
  else if Config.manifestHash m.manifest ≠ imgManifestHash m then .inl 0x0903
  else if Config.verify44 (imgKeyHash m) (imgManifestHash m) m.signature = false then .inl 0x0904
  else match Config.unwrap (s.ctx x).keyGen m.kemCiphertext m.wrappedKey (imgManifestHash m) (imgKeyHash m) with
    | none => .inl 0x0905
    | some key => if manifestOk m then .inr key else .inl 0x0906

/-! ## Placement and reservation (R419 to R421) -/

/-- The distribution chain of a partition: rows of regions in ascending order, eastward and westward in turn (R424). -/
def Part.chain (v : Part) : List Nat :=
  sortBy (fun a b =>
    let key := fun (r : Nat) => 4 * (r / 4) + (if r / 4 % 2 = 0 then r % 4 else 3 - r % 4)
    decide (key a ≤ key b)) v.regions

/-- Pages a load takes against the quota: its areas and the directory. -/
def imgPages (m : Image) : Nat := ((entriesOf m.manifest.common 9).map leAreaPages).sum + 3

/-- Whether an image handle number of a layout is held on a cluster by a handle that no image defines. -/
def State.handlesTaken (s : State) (x p : Nat) (l : List LEntry) : Bool :=
  (entriesOf l 3).any (fun e => (leHandleRanks e).any (fun k => match s.rankCluster p l k with
    | some c => (s.ctxHandles x c).any (fun h => h.1 == leHandle e && decide (0 < hCount h.2)) && !s.imageHandle x c (leHandle e)
    | none => false))

/-- HBM pages reserved one area after the other, then the directory's, each a run; their addresses. -/
def State.takeAreas (x : Nat) (rs : List Nat) : List Nat → State → Option (List Nat × State)
  | [], s => some ([], s)
  | n :: rest, s =>
    match s.allocRun rs n with
    | none => none
    | some r => (State.takeAreas x rs rest (s.draw.givePages r .image x)).map (fun t => (r.1 * 4096 :: t.1, t.2))

/-- What a load reserves: handles, areas by number, directory, staging; with the state that holds the pages. -/
structure Reserved where
  handles : List (Nat × Nat × HandleEntry)
  spans : List (Nat × Span)
  areas : List Nat
  directory : Nat
  staging : Nat × Nat
  after : State

/-- Everything R421 reserves for a layout, or none. -/
def State.reserve (s : State) (x p : Nat) (m : Image) (l : List LEntry) : Option Reserved :=
  let es := entriesOf m.manifest.common 9
  if (s.ctx x).quota < s.ownedPages x + imgPages m then none
  else match s.placeHandles x p l, (s.part p).chain.head? with
    | some hs, some r0 =>
      (match State.takeAreas x (s.part p).sorted (es.map leAreaPages ++ [3]) s with
       | none => none
       | some (as, t) =>
         (t.allocRun [r0] 65536).map (fun run =>
           { handles := hs, spans := s.placeSpans p l,
             areas := (List.range 16).map (fun n => ((es.zip as).find? (fun e => leArea e.1 == n)).elim 0 Prod.snd),
             directory := as.getLastD 0, staging := run, after := t.draw }))
    | _, _ => none

/-- The bytes that are lacking for a layout (R421). -/
def State.lacking (s : State) (x p : Nat) (m : Image) (l : List LEntry) : Nat :=
  s.lackingRows x p l + (s.ownedPages x + imgPages m - (s.ctx x).quota) * 4096 +
  (match (s.part p).chain.head? with
   | some r0 => if (s.allocRun [r0] 65536).isSome then 0 else 2 ^ 28
   | none => 0)

/-- The layouts to try: that of the CURRENT slot alone, else all in ascending number (R419). -/
def State.layoutChoices (s : State) (x : Nat) (m : Image) : List Nat :=
  match s.currentSlot x with
  | some n => [(s.slot x n).layout]
  | none => List.range m.manifest.layouts.length

/-- A directory: the area bases, and the cluster of each rank (R420). -/
def State.writeDirectory (s : State) (p a : Nat) (areas : List Nat) (l : List LEntry) : State :=
  let t := s.evictRange a 12288
  let t := (areas.zipIdx).foldl (fun (t : State) e => t.writeNat (a + 8 * e.2) e.1 8) t
  let t := (List.range (layoutRankCount l)).foldl (fun (t : State) k =>
    t.writeNat (a + 128 + 2 * k) ((s.rankCluster p l k).getD 0) 2) t
  t.healSectors a 12288

/-! ## Loads (R423 to R427) -/

/-- The shards of a load in flight: the first four not yet there. -/
def Slot.inFlight (v : Slot) : List Nat :=
  match v.image with
  | some m => ((List.range (imgShards m)).filter (fun k => !v.fetched.contains k)).take 4
  | none => []

/-- Shards newly in flight are requested now. -/
def Slot.request (now : Nat) (v : Slot) : Slot :=
  { v with requestTicks := v.inFlight.map (fun k => (k, ((v.requestTicks.find? (fun e => e.1 == k)).map Prod.snd).getD now)) }

/-- LOAD_IMAGE: the slot is LOADING, its shards are fetched; or the descriptor ends as R414, R421 or R423 says. -/
def execLoadImage (q k : Nat) (img : Image) (s : State) : Result :=
  match s.startedDesc q k 3 with
  | none => .next s
  | some d =>
    let x := (s.qp q).ctx
    let p := (s.ctx x).part
    let a := bitsOf d 115 64
    let n := bitsOf d 135 128
    if 16 ≤ n ∨ (s.slot x n).state ≠ .empty then .next (s.rejectDesc q k 0x0813 0)
    else if a % 4096 ≠ 0 then .next (s.failDesc q k stAlign 0)
    else if isTarn a || !s.dmaSide x a 0x2000 false || (headerOk img && !s.dmaSide x a (imgBytes img) false) then .next (s.failDesc q k stAddress 0)
    else match s.imageCheck x img with
      | .inl code => .next (s.rejectDesc q k code 0)
      | .inr key =>
        let ls := img.manifest.layouts
        (match (s.layoutChoices x img).filter (fun i => match ls[i]? with
           | some l => s.layoutFits p l
           | none => false) with
         | [] => .next (s.rejectDesc q k 0x0813 0)
         | tried@(i0 :: _) =>
           if tried.any (fun i => s.handlesTaken x p (ls.getD i [])) then .next (s.failDesc q k stHandle 0)
           else match tried.findSome? (fun i => (s.reserve x p img (ls.getD i [])).map (fun r => (i, r))) with
             | none =>
               let lack := s.lacking x p img (ls.getD i0 [])
               .next ((s.note 0x0907 { part := p, ctx := some x, detail := [lack] }).complete q k stCapacity 0x0907 lack 0)
             | some (i, r) =>
               let v : Slot := { state := .loading, layout := i, still := bitOf img.manifest.header 101, share := bitOf d 136, image := some img,
                                 contentKey := key, q := q, k := k, started := s.now, handles := r.handles, spans := r.spans, areas := r.areas,
                                 directory := r.directory, staging := some r.staging }
               .next (((r.after.setSlot x n (v.request s.now)).zeroHandles x v).begin q k))

/-- Whether a load goes on: its context has not been switched out and does not recover (Table 14.6). -/
def State.loadRuns (s : State) (x n : Nat) : Bool :=
  decide ((s.slot x n).state = .loading) && !s.recovering x && (s.isResident x || !(s.ctx x).beenResident)

/-- The resources of a slot released: its pages are zeroed before reuse, and the slot is EMPTY (R427). -/
def State.emptySlot (s : State) (x n : Nat) : State :=
  let v := s.slot x n
  let mine := fun (g : Nat) => (v.directory / 4096 ≤ g && g < v.directory / 4096 + 3) ||
    (match v.image with
     | some m => (entriesOf m.manifest.common 9).any (fun e => inRun g (v.areas.getD (leArea e) 0 / 4096, leAreaPages e))
     | none => false)
  let free := fun (g : Nat) (pg : Page) => if pg.use = PageUse.image ∧ pg.owner = x ∧ mine g then { pg with use := PageUse.zeroing, owner := 0 } else pg
  let t := { s with pages := Tbl.mapVal (fun _ => {}) free s.pages, zeroRuns := s.zeroRuns ++ v.staging.toList }
  t.setSlot x n {}

/-- A load fails: its descriptor completes, with the shard as its detail (R426, R427). -/
def State.loadFails (s : State) (x n status code shard : Nat) : State :=
  let v := s.slot x n
  let t := if code = 0 then s else s.note code { part := (s.ctx x).part, ctx := some x, detail := [shard] }
  (t.emptySlot x n).complete v.q v.k status (if code = 0 then Config.statusCode status % 65536 else code) 0 shard

/-- A shard's rows are there. -/
def State.shardArrives (s : State) (x n shard : Nat) (rows : List Row) : State :=
  let store := fun (v : Slot) => Tbl.set (fun _ => []) v.rows shard rows
  let ticks := fun (v : Slot) => v.requestTicks.filter (fun e => e.1 != shard)
  s.modSlot x n (fun v => Slot.request s.now { v with fetched := v.fetched ++ [shard], rows := store v, requestTicks := ticks v })

/-- Whether a shard of a slot is fetched again because a recovery restores its rows (R431). -/
def State.refetches (s : State) (x n shard : Nat) : Bool :=
  let v := s.slot x n
  s.isResident x && (match (s.part (s.ctx x).part).recovery with
    | some r => decide (r.stage = .restoring)
    | none => false) &&
  (match v.state with
   | .staged | .current | .retiring => true
   | _ => false) &&
  (match v.image with
   | some m => decide (shard < imgShards m)
   | none => false)

/-- The image source fails in a recovery: fatal for a slot that steps run by, else the slot's load ends (R431). -/
def State.sourceFails (s : State) (x n shard : Nat) : State :=
  if (s.slot x n).state = .staged then s.emptySlot x n
  else s.contextFatal x 0x390B { part := (s.ctx x).part, detail := [n, shard] }

/-- A corrupt shard: fetched again up to three times. -/
def State.refetch (s : State) (x n shard : Nat) : State :=
  let tries := Tbl.get (fun _ => 0) (s.slot x n).retries shard
  (s.modSlot x n (fun v => { v with retries := Tbl.set (fun _ => 0) v.retries shard (tries + 1) })).note 0x1908
    { part := (s.ctx x).part, ctx := some x, detail := [shard] }

/-- Whether what a fetch brought is the shard. -/
def shardGood (m : Image) (shard : Nat) (r : FetchResult) (rows : List Row) : Bool :=
  match r with
  | .arrived hash tagOk => decide (hash = (m.manifest.shards.getD shard 0).extractLsb' 0 256) && tagOk && rows.length == imgRows m shard
  | .poisoned => false

/-- A shard fetch ends: it is stored, fetched again up to three times, or fails the load as corrupt (R426). -/
def execShardFetchDone (x slot shard : Nat) (r : FetchResult) (rows : List Row) (s : State) : Result :=
  let v := s.slot x slot
  match v.image with
  | none => .next s
  | some m =>
    let worn := decide (3 ≤ Tbl.get (fun _ => 0) v.retries shard)
    if s.refetches x slot shard then
      (if shardGood m shard r rows then .next s
       else if worn then .next (s.sourceFails x slot shard) else .next (s.refetch x slot shard))
    else if !s.loadRuns x slot || !v.inFlight.contains shard then .next s
    else if shardGood m shard r rows then .next (s.shardArrives x slot shard rows)
    else if worn then .next (s.loadFails x slot stIntegrity 0x0909 shard)
    else .next (s.refetch x slot shard)

/-- A slot another partition shares that a shard may be copied from (R425). -/
def State.shareSource (s : State) (x : Nat) (v : Slot) : Option (Nat × Nat) :=
  match v.image with
  | none => none
  | some m =>
    (s.ctxs.filter (fun e => decide (e.2.st ≠ .free) && e.2.part != (s.ctx x).part && (s.part e.2.part).shareAllow)).findSome? (fun e =>
      (e.2.slots.find? (fun t => t.2.share && decide (t.2.contentKey = v.contentKey) &&
        (match t.2.state with
         | .staged | .current | .retiring => true
         | _ => false) &&
        (match t.2.image with
         | some o => imgManifestHash o == imgManifestHash m && imgKeyHash o == imgKeyHash m
         | none => false))).map (fun t => (e.1, t.1)))

/-- The rows of a shard as they stand in the source's slot, if all may be copied: rows of areas, and of tarn while the
source is resident. -/
def State.copyRows (s : State) (y : Nat) (o : Slot) (shard n : Nat) : Option (List Row) :=
  (List.range n).foldl (fun (acc : Option (List Row)) i =>
    acc.bind (fun done =>
      match (o.extents.filter (fun e => leShard e == shard && decide (leFirstRow e ≤ i) && decide (i < leFirstRow e + leRows e))).head? with
      | none => none
      | some e => (s.destOf (s.ctx y).part o e (i - leFirstRow e)).bind (fun d => match d with
          | .tarn c r => if s.isResident y then some (done ++ [(s.trow c r).data]) else none
          | .hbm a => some (done ++ [BitVec.ofNat 4096 (s.readNat a 512)])))) (some [])

/-- A shard is copied from a sharing partition instead of fetched. -/
def execShardCopyDone (x slot shard : Nat) (s : State) : Result :=
  let v := s.slot x slot
  match v.image, s.shareSource x v with
  | some m, some (y, o) =>
    if s.loadRuns x slot && v.inFlight.contains shard && v.share && (s.part (s.ctx x).part).shareAllow then
      (match s.copyRows y (s.slot y o) shard (imgRows m shard) with
       | some rows => .next (s.shardArrives x slot shard rows)
       | none => .next s)
    else .next s
  | _, _ => .next s

/-- A shard whose bytes have not all arrived in time fails its load as missing (R426). -/
def execShardTimeout (x slot shard : Nat) (s : State) : Result :=
  let v := s.slot x slot
  let limit := (s.part (s.ctx x).part).shardTimeout * ticksPerMs
  if s.refetches x slot shard then
    (match (s.part (s.ctx x).part).recovery with
     | some r => if r.started + limit ≤ s.now then .next (s.sourceFails x slot shard) else .next s
     | none => .next s)
  else match v.requestTicks.find? (fun e => e.1 == shard) with
    | none => .next s
    | some e =>
      if s.loadRuns x slot && v.inFlight.contains shard && decide (e.2 + limit ≤ s.now) then .next (s.loadFails x slot stHost 0x090A shard)
      else .next s

/-- Whether a region has rows of a shard to write. -/
def State.regionTakes (s : State) (p : Nat) (v : Slot) (shard r : Nat) : Bool :=
  (v.extents.filter (fun e => leShard e == shard)).any (fun e => (List.range (leRows e)).any (fun j => match s.destOf p v e j with
    | some d => s.destRegion d == r
    | none => false))

/-- Whether a region of the chain has had its rows of a shard. -/
def State.regionServed (s : State) (p : Nat) (v : Slot) (shard r : Nat) : Bool := v.written.contains (shard, r) || !s.regionTakes p v shard r

/-- The last rows are written: the directory, then the completion; the slot is STAGED, and CURRENT at the next boundary
where the context has none (R423). -/
def State.finishLoad (s : State) (x n : Nat) : State :=
  let v := s.slot x n
  let p := (s.ctx x).part
  let t := (s.writeDirectory p v.directory v.areas v.placed).modSlot x n (fun v => { v with state := .staged, staging := none, requestTicks := [] })
  let t := if (s.currentSlot x).isNone then t.modCtx x (fun c => { c with deferred := c.deferred ++ [(none, .current n)] }) else t
  (t.complete v.q v.k stOk 0 (v.directory % 2 ^ 52 + v.layout * 2 ^ 52) 0).boundaryWork p

/-- A region of the chain writes its rows of a shard, after the regions before it (R424). -/
def execShardRowsReceived (x slot shard r : Nat) (s : State) : Result :=
  let v := s.slot x slot
  let p := (s.ctx x).part
  let before := (s.part p).chain.takeWhile (fun k => k != r)
  if s.loadRuns x slot && v.fetched.contains shard && !v.written.contains (shard, r) && (s.part p).regions.contains r &&
      before.all (s.regionServed p v shard) then
    let t := (s.writeShard x p v shard (Tbl.get (fun _ => []) v.rows shard) (some r) false).modSlot x slot
      (fun w => { w with written := w.written ++ [(shard, r)] })
    let w := t.slot x slot
    let all := match v.image with
      | some m => (List.range (imgShards m)).all (fun k => w.fetched.contains k && (s.part p).chain.all (t.regionServed p w k))
      | none => false
    .next (if all then t.finishLoad x slot else t)
  else .next s

/-! ## Swap and release (R428, R430) -/

/-- SWAP_IMAGE: at the next boundary. -/
def execSwapImage (q k : Nat) (s : State) : Result :=
  match s.startedDesc q k 4 with
  | none => .next s
  | some d =>
    let x := (s.qp q).ctx
    let old := bitsOf d 135 128
    let new := bitsOf d 143 136
    if old < 16 ∧ new < 16 ∧ (s.slot x old).state = .current ∧ (s.slot x new).state = .staged ∧ (s.ctx x).epoch < 0xFFFFFFFF then
      .next (s.defer q k (.swap old new))
    else .next (s.rejectDesc q k 0x0813 0)

/-- Whether something still holds a weight epoch of context x: a queue pair, a step that runs, waits or recovers, or a
LAUNCH record after the checkpoint (R430, R319). -/
def State.epochHeld (s : State) (x e : Nat) : Bool :=
  let v := s.part (s.ctx x).part
  (s.qpsOf x).any (fun q => (s.qp q).enabled && (s.qp q).epoch == e) ||
  v.launches.any (fun l => l.ctx == x && l.epoch == e) ||
  (match v.running with
   | some st => st.ctx == x && st.epoch == e
   | none => false) ||
  (match v.recovery.bind Recovery.step with
   | some st => st.ctx == x && st.epoch == e
   | none => false) ||
  ((s.ctx x).ckpt.isSome && (afterCheckpoint x v.journal).any (fun r => match r.body with
    | .launch _ _ _ ep _ => ep == e
    | _ => false))

/-- A RETIRING slot that nothing holds is EMPTY, its handles gone (R430). -/
def execSlotRetireRelease (x slot : Nat) (s : State) : Result :=
  let v := s.slot x slot
  if v.state = .retiring ∧ s.epochHeld x v.epoch = false then
    let t := s.emptySlot x slot
    .next (v.handles.foldl (fun (t : State) e => if t.imageHandle x e.1 e.2.1 then t else t.setCtxHandle x e.1 e.2.1 0) t)
  else .next s

/-! ## SELECT_LAYOUT (R328, R329, R432) -/

/-- The rows of cluster c a shrinking context keeps for handles of its own: private handles of its checkpoint. -/
def State.keptRows (s : State) (x c : Nat) : List (Nat × Nat) :=
  let sv := (s.ctx x).ckptSaved
  (sv.handles.filter (fun e => e.1 / 64 == c && savesHandle x e.2 && !sv.live.any (fun l => (placedEntry l.2.1 c (e.1 % 64)).isSome))).map
    (fun e => (hBase e.2, hCount e.2))

/-- The slots of a context placed by another layout, one after the other; a slot that must be kept and cannot be gives
none; others that cannot be are listed for release. -/
def State.replaceSlots (s : State) (x p i : Nat) : List (Nat × Slot) → List (Nat × Slot) → List Nat → Option (List (Nat × Slot) × List Nat)
  | [], done, gone => some (done, gone)
  | (n, v) :: rest, done, gone =>
    let held := fun (c : Nat) => s.keptRows x c ++ done.flatMap (fun t => (t.2.handles.filter (fun e => e.1 == c)).map (fun e => (hBase e.2.2, hCount e.2.2)))
    let fit := (v.layoutOf i).bind (fun l => if s.layoutFits p l then (s.placeBeside held x p l).map (fun hs => (l, hs)) else none)
    match fit, v.state with
    | some (l, hs), _ => State.replaceSlots s x p i rest (done ++ [(n, { v with layout := i, handles := hs, spans := s.placeSpans p l, written := [] })]) gone
    | none, .current => none
    | none, .retiring => none
    | none, _ => State.replaceSlots s x p i rest done (gone ++ [n])

/-- A slot released because it cannot follow the layout: a load in it fails, and the release is reported. -/
def State.releaseSlot (s : State) (x n : Nat) : State :=
  let t := if (s.slot x n).state = .loading then s.loadFails x n stCapacity 0 0 else s.emptySlot x n
  t.note (0x0900 + Config.slotReleaseCode % 256) { part := (s.ctx x).part, ctx := some x, detail := [n] }

/-- A layout is selected under R328: the CTL record, every slot placed anew, and recovery goes on at event 5 (R329). -/
def State.takeLayout (s : State) (x p i : Nat) (placed : List (Nat × Slot)) (gone : List Nat) : State :=
  let t := s.record p x 0 (.ctl 8 (BitVec.ofNat 64 (s.ctx x).layout) (BitVec.ofNat 64 i))
  let t := gone.foldl (fun (t : State) n => t.releaseSlot x n) t
  let t := placed.foldl (fun (t : State) e => (t.setSlot x e.1 e.2).writeDirectory p e.2.directory e.2.areas e.2.placed) t
  let t := t.modCtx x (fun c => { c with layout := i, needLayout := false })
  (t.modPart p (fun v => { v with recovery := v.recovery.map (fun r => { r with stage := .replaced, layoutDeadline := none }) })).startScrub p

/-- SELECT_LAYOUT: under R328 at once; otherwise only the layout already placed may be named, and nothing changes. -/
def execSelectLayout (q k : Nat) (s : State) : Result :=
  match s.startedCtl q k 2 with
  | none => .next s
  | some d =>
    let x := (s.qp q).ctx
    let p := (s.ctx x).part
    let n := bitsOf d 135 128
    let i := bitsOf d 151 136
    if 16 ≤ n ∨ (s.slot x n).state = .empty ∨ ((s.slot x n).layoutOf i).isNone then .next (s.rejectDesc q k 0x0813 0)
    else if s.waitsLayout x then
      (match State.replaceSlots s x p i ((s.ctx x).slots.filter (fun e => decide (e.2.state ≠ .empty))) [] [] with
       | none => .next (s.rejectDesc q k 0x0813 0)
       | some (placed, gone) => .next ((s.takeLayout x p i placed gone).complete q k stOk 0 0 0))
    else if (s.slot x n).layout = i then .next (s.complete q k stOk 0 0 0)
    else .next (s.rejectDesc q k 0x0813 0)

end Sys2Proof.Machine
end

