-- ==== Sys2Proof/Machine/Security.lean ====
section
/-! DEFINITION. Identity, attestation and isolation (15): the SPDM responder, measurements and context reports, TDISP,
policy fuses, and operator debug. -/

namespace Sys2Proof.Machine

open Sys2Proof

/-! ## Answering SPDM (R440, R443)

The numbers of requests, responses and errors are those of SPDM 1.3 (notes/assumptions/85.md). -/

def spdmError : Nat := 0x7F
def errInvalid : Nat := 0x01
def errUnexpected : Nat := 0x04
def errDecrypt : Nat := 0x06
def errUnsupported : Nat := 0x07
def errSessions : Nat := 0x0A
def errSession : Nat := 0x02

/-- Whether a request can reach the responder over a transport. -/
def State.pathUp (s : State) (m : SpdmPath) : Bool :=
  match m with
  | .doe f => decide (f < 1024) && (s.link (fnLink f)).up
  | .mctpI3c => s.boot.ls18
  | .mctpPcie l => decide (l < 16) && (s.link l).up
  | .tcp => s.mgt.port0 || s.mgt.port1

/-- The die that answers, if one holds the lease: 0 North, 1 South; its slot has the same number. -/
def State.signer (s : State) : Option Nat := (s.holder).map (fun v => if v = .north then 0 else 1)

/-- The Pewter of a slot. -/
def State.die (s : State) (k : Nat) : Pewter := if k = 0 then s.mgt.north else s.mgt.south

/-- An SPDM error answered. -/
def State.spdmErr (s : State) (m : SpdmPath) (code : Nat) : State := s.emit (.spdm m spdmError [code])

/-- A request answered where a lease holder is reached; `ready` is what must have gone before it on its transport. -/
def State.answer (s : State) (m : SpdmPath) (ready : Bool) (f : Nat → State) : State :=
  if !s.pathUp m then s
  else match s.signer with
    | none => s
    | some die => if ready then f die else s.spdmErr m errUnexpected

/-- GET_VERSION: 1.3 alone; what the transport had negotiated before is void. -/
def execGetVersion (m : SpdmPath) (s : State) : Result :=
  let v := s.sec
  let sec := { v with version := v.version.filter (· ≠ m) ++ [m], caps := v.caps.filter (· ≠ m), algs := v.algs.filter (· ≠ m) }
  .next (s.answer m true (fun _ => ({ s with sec := sec }).emit (.spdm m 0x04 [0x13])))

def execGetCapabilities (m : SpdmPath) (s : State) : Result :=
  let sec := { s.sec with caps := s.sec.caps.filter (· ≠ m) ++ [m] }
  .next (s.answer m (s.sec.version.contains m) (fun _ => ({ s with sec := sec }).emit (.spdm m 0x61 [])))

/-- NEGOTIATE_ALGORITHMS: the vendor algorithms of Table 15.3 with SHA3-256 and AES-256-GCM; the Alias key signs with
ML-DSA-65 (R436, R441). -/
def execNegotiateAlgorithms (m : SpdmPath) (a : SpdmAlgorithms) (s : State) : Result :=
  let sec := { s.sec with algs := s.sec.algs.filter (· ≠ m) ++ [m] }
  .next (s.answer m (s.sec.caps.contains m) (fun _ =>
    if a.mldsa65 && a.mlkem768 && a.sha3 && a.aesGcm then ({ s with sec := sec }).emit (.spdm m 0x63 [1, 3])
    else s.spdmErr m errInvalid))

/-- The certificate chain of a slot (R436, R443). -/
def State.chainOf (s : State) (k : Nat) : List Nat := Config.certChain k (s.die k).mfw (s.die k).svn

/-- Bytes as a little-endian number. -/
def natOfBytes (bs : List Nat) : Nat := bs.foldr (fun b a => b + 256 * a) 0

/-- GET_DIGESTS reports both slots. -/
def execGetDigests (m : SpdmPath) (s : State) : Result :=
  .next (s.answer m (s.sec.algs.contains m) (fun _ =>
    s.emit (.spdm m 0x01 [3, (Config.digest (natOfBytes (s.chainOf 0))).toNat, (Config.digest (natOfBytes (s.chainOf 1))).toNat])))

/-- GET_CERTIFICATE of either slot. -/
def execGetCertificate (m : SpdmPath) (slot off len : Nat) (s : State) : Result :=
  .next (s.answer m (s.sec.algs.contains m) (fun _ =>
    if slot < 2 then s.emit (.spdm m 0x02 ([slot, off] ++ ((s.chainOf slot).drop off).take len)) else s.spdmErr m errInvalid))

/-- CHALLENGE: only the lease holder signs, for its own slot. -/
def execChallenge (m : SpdmPath) (slot : Nat) (nonce : BitVec 256) (s : State) : Result :=
  .next (s.answer m (s.sec.algs.contains m) (fun die =>
    if slot = die then s.emit (.spdm m 0x03 [slot, nonce.toNat, Config.sign die nonce.toNat]) else s.spdmErr m errInvalid))

/-! ## Measurements (Tables 15.2 and 15.5) -/

/-- SEC_FUSE_POLICY as one number of 48 bytes (Table 21.10). -/
def Sec.policy (v : Sec) : Nat :=
  v.cosign.toNat + v.revoked.toNat * 2 + v.svnMin.toNat * 2 ^ 64 + v.opHash.toNat * 2 ^ 128

/-- PNL_IDENT (Table 21.2). -/
def State.ident (s : State) : Nat := 0x4608 + s.variant36.toNat * 2 ^ 16 + 0x41 * 2 ^ 20 + 2 ^ 28

/-- The panel map of R31 as a number. -/
def State.mapNumber (s : State) : Nat := natOfBytes (s.boot.panelMap.map (fun e => e.1 + 16 * e.2.1 + 512 * e.2.2))

/-- A mask of the numbers in a list. -/
def maskOf (ks : List Nat) : Nat := (ks.eraseDups.map (fun k => 2 ^ k)).sum

/-- Links bound to a partition. -/
def State.linksOf (s : State) (p : Nat) : List Nat := (List.range 16).filter (fun l => decide ((s.link l).part = some p))

/-- Region masks and link masks of partitions 0 to 15. -/
def State.partMasks (s : State) : Nat :=
  ((List.range 16).map (fun p => (maskOf (if (s.part p).formed then (s.part p).regions else []) + maskOf (s.linksOf p) * 2 ^ 16) * 2 ^ (32 * p))).sum

/-- SEC_DEBUG_STATUS (Table 21.10), and as measurement 9 gives it, with the tick of the last start. -/
def Sec.debugStatus (v : Sec) : Nat :=
  v.debugActive.toNat + v.debugSinceReset.toNat * 2 + v.debugCount.toNat * 4 + v.debugStart / 2 ^ 24 % 2 ^ 40 * 2 ^ 24
def Sec.debugMeasure (v : Sec) : Nat :=
  v.debugActive.toNat + v.debugSinceReset.toNat * 2 + v.debugCount.toNat * 4 + v.debugStart % 2 ^ 64 * 2 ^ 64

/-- The numbers of slot and context states (Table 14.5, Table 21.5). -/
def SlotState.code : SlotState → Nat
  | .empty => 0
  | .loading => 1
  | .staged => 2
  | .current => 3
  | .retiring => 4
def XState.code : XState → Nat
  | .free => 0
  | .waiting => 1
  | .resident => 2
  | .recovering => 3
  | .killing => 4

/-- A slot's 96 bytes of a context report. -/
def slotEntry (v : Slot) : Nat :=
  match v.image with
  | some m => if v.state = .empty then 0 else
      v.state.code + v.layout * 2 ^ 8 + v.still.toNat * 2 ^ 16 + bitsOf m.manifest.header 63 0 * 2 ^ 64 + bitsOf m.manifest.header 95 64 * 2 ^ 128 +
      (imgManifestHash m).toNat * 2 ^ 192 + (imgKeyHash m).toNat * 2 ^ 448
  | none => 0

/-- A context report (Table 15.5) as a number of 2,752 bytes. -/
def State.report (s : State) (x : Nat) : Nat :=
  let c := s.ctx x
  let flags := (!c.debugOpen).toNat + (s.lockedTdi c.fn).toNat * 2 + (decide (c.st = .recovering)).toNat * 4
  1 + x * 2 ^ 16 + c.part * 2 ^ 32 + flags * 2 ^ 40 + maskOf (s.part c.part).regions * 2 ^ 48 + s.boot.serial.toNat * 2 ^ 64 +
  c.epoch * 2 ^ 128 + c.debugReads.toNat * 2 ^ 160 + Config.encapsKey c.keyGen * 2 ^ 192 +
  ((List.range 16).map (fun n => slotEntry (s.slot x n) * 2 ^ (8 * (1216 + 96 * n)))).sum

/-- The contexts a function owns, in ascending number. -/
def State.reported (s : State) (f : Nat) : List Nat := (List.range 1024).filter (fun x => (s.ctx x).fn == f && decide ((s.ctx x).st ≠ .free))

/-- The value of a measurement block for a transport: none where the index names no block, an empty block for a context
report that the requester has not (R446). -/
def State.measurement (s : State) (m : SpdmPath) (die index : Nat) : Option (Option Nat) :=
  match index with
  | 1 => some (some (Config.romDigest die).toNat)
  | 2 => some (some (s.die die).mfw.toNat)
  | 3 => some (some (s.die die).svn.toNat)
  | 4 => some (some s.sec.policy)
  | 5 => some (some s.ident)
  | 6 => some (some (Config.digest s.mapNumber).toNat)
  | 7 => some (some s.partMasks)
  | 8 => some (some Config.bpmMeasurement)
  | 9 => some (some s.sec.debugMeasure)
  | _ =>
    if 0x80 ≤ index ∧ index ≤ 0xEF then
      some (match m with
        | .doe f => ((s.reported f)[index - 0x80]?).map s.report
        | _ => none)
    else none

/-- The blocks a GET_MEASUREMENTS asks for: one, or with 0xFF every one the requester may see. -/
def State.blocks (s : State) (m : SpdmPath) (die index : Nat) : Option (List (Nat × Option Nat)) :=
  if index = 0xFF then
    let own := match m with
      | .doe f => (s.reported f).length
      | _ => 0
    some (((List.range 9).map (· + 1) ++ (List.range own).map (0x80 + ·)).map (fun i => (i, ((s.measurement m die i).getD none))))
  else (s.measurement m die index).map (fun v => [(index, v)])

/-- Blocks as a response body: the number of blocks, then for each its index, whether it is empty, and its value. -/
def blockBody (bs : List (Nat × Option Nat)) : List Nat :=
  bs.length :: bs.flatMap (fun b => [b.1, (b.2.isSome).toNat, b.2.getD 0])

/-- GET_MEASUREMENTS: index 0 asks for the number of blocks; the answer is signed by the lease holder (R439, R443). -/
def execGetMeasurements (m : SpdmPath) (slot index : Nat) (nonce : BitVec 256) (s : State) : Result :=
  .next (s.answer m (s.sec.algs.contains m) (fun die =>
    if slot ≠ die then s.spdmErr m errInvalid
    else if index = 0 then
      let n := ((s.blocks m die 0xFF).getD []).length
      s.emit (.spdm m 0x60 [n, nonce.toNat, Config.sign die (natOfBytes [nonce.toNat, n])])
    else match s.blocks m die index with
      | some bs => s.emit (.spdm m 0x60 (blockBody bs ++ [nonce.toNat, Config.sign die (natOfBytes (nonce.toNat :: blockBody bs))]))
      | none => s.spdmErr m errInvalid))

/-! ## Sessions (R442, R444) -/

/-- The heartbeat period in ticks (MGT_SPDM_CFG). -/
def State.heartbeatTicks (s : State) : Nat := bitsOf (s.reg 0xA00038) 23 16 * ticksPerS

def State.session (s : State) (id : Nat) : Option Session := s.sec.sessions.find? (fun e => e.id == id)

def State.modSession (s : State) (id : Nat) (f : Session → Session) : State :=
  { s with sec := { s.sec with sessions := s.sec.sessions.map (fun e => if e.id = id then f e else e) } }

/-- A session ends, and the chunks of its transfers with it. -/
def State.dropSession (s : State) (id : Nat) : State :=
  { s with sec := { s.sec with sessions := s.sec.sessions.filter (fun e => e.id != id), chunks := s.sec.chunks.filter (fun e => e.1 != id) } }

/-- KEY_EXCHANGE: the panel encapsulates to the requester's key; up to 64 sessions stand at once. -/
def execKeyExchange (m : SpdmPath) (slot : Nat) (key : Nat) (s : State) : Result :=
  .next (s.answer m (s.sec.algs.contains m) (fun die =>
    if slot ≠ die then s.spdmErr m errInvalid
    else if 64 ≤ s.sec.sessions.length then s.spdmErr m errSessions
    else
      let id := s.sec.nextSession
      let reply := Config.kemReply key s.fresh
      let sec := { s.sec with sessions := s.sec.sessions ++ [{ id := id, path := m, established := false, last := s.now }], nextSession := id + 1 }
      ({ s with sec := sec }).draw.emit (.spdm m 0x64 [id, reply, Config.sign die (natOfBytes [key, reply])])))

/-- A message of an established session: its silence ends with it. -/
def State.inSession (s : State) (m : SpdmPath) (id : Nat) (f : State → State) : State :=
  s.answer m true (fun _ => match s.session id with
    | some e => if e.established && decide (e.path = m) then f (s.modSession id (fun e => { e with last := s.now })) else s.spdmErr m errSession
    | none => s.spdmErr m errSession)

/-- FINISH establishes a session whose verification data is right, and ends it otherwise. -/
def execFinish (m : SpdmPath) (session : Nat) (ok : Bool) (s : State) : Result :=
  .next (s.answer m true (fun _ => match s.session session with
    | some e =>
      if e.established || decide (e.path ≠ m) then s.spdmErr m errSession
      else if ok then (s.modSession session (fun e => { e with established := true, last := s.now })).emit (.spdm m 0x65 [session])
      else (s.dropSession session).spdmErr m errDecrypt
    | none => s.spdmErr m errSession))

def execHeartbeat (m : SpdmPath) (session : Nat) (s : State) : Result :=
  .next (s.inSession m session (fun t => t.emit (.spdm m 0x68 [session])))

def execKeyUpdate (m : SpdmPath) (session : Nat) (s : State) : Result :=
  .next (s.inSession m session (fun t => (t.modSession session (fun e => { e with keyUpdates := e.keyUpdates + 1 })).emit (.spdm m 0x69 [session])))

def execEndSession (m : SpdmPath) (session : Nat) (s : State) : Result :=
  .next (s.inSession m session (fun t => (t.dropSession session).emit (.spdm m 0x6C [session])))

/-- The next chunk number of a large request. -/
def State.nextChunk (s : State) (session handle : Nat) : Nat :=
  match s.sec.chunks.find? (fun e => e.1 == session && e.2.1 == handle) with
  | some e => e.2.2
  | none => 0

/-- CHUNK_SEND: chunks of a large request come in order; the last ends the transfer. -/
def execChunkSend (m : SpdmPath) (session handle seq : Nat) (last : Bool) (s : State) : Result :=
  .next (s.inSession m session (fun t =>
    let rest := t.sec.chunks.filter (fun e => !(e.1 == session && e.2.1 == handle))
    if seq = t.nextChunk session handle then
      let sec := { t.sec with chunks := if last then rest else rest ++ [(session, handle, seq + 1)] }
      ({ t with sec := sec }).emit (.spdm m 0x85 [handle, seq])
    else t.spdmErr m errInvalid))

/-- CHUNK_GET: a chunk of a large response. -/
def execChunkGet (m : SpdmPath) (session handle seq : Nat) (s : State) : Result :=
  .next (s.inSession m session (fun t => t.emit (.spdm m 0x86 [handle, seq, Config.chunk handle seq])))

/-- A session ends after three heartbeat periods without a message. -/
def execSpdmSessionTimeout (session : Nat) (s : State) : Result :=
  match s.session session with
  | some e => if e.last + 3 * s.heartbeatTicks ≤ s.now then .next (s.dropSession session) else .next s
  | none => .next s

/-! ## IDE and TDISP (R452, R454) -/

/-- The link a transport belongs to. -/
def pathLink : SpdmPath → Option Nat
  | .doe f => some (fnLink f)
  | .mctpPcie l => some l
  | _ => none

/-- A virtual function of a transport's link moves between TDISP states. -/
def State.moveTdi (s : State) (m : SpdmPath) (f : Nat) (ok : Tdi → Bool) (next : Tdi) : Option State :=
  if decide (f < 1024) && decide (f % 64 ≠ 0) && decide (pathLink m = some (fnLink f)) && ok (s.fn f).tdi
  then some (s.modFn f (fun v => { v with tdi := next })) else none

/-- VENDOR_DEFINED_REQUEST: IDE_KM programs a stream key of the requester's link, link IDE as stream 0 and up to eight
selective streams; TDISP starts and stops an interface; others are unsupported. -/
def execVendorDefinedRequest (m : SpdmPath) (session : Nat) (v : VendorRequest) (s : State) : Result :=
  .next (s.inSession m session (fun t =>
    match v with
    | .ideKeyProg link stream key =>
      if decide (pathLink m = some link) && decide (stream ≤ 8) then
        let keys := t.sec.ideKeys.filter (fun e => !(e.1 == link && e.2.1 == stream)) ++ [(link, stream, key)]
        ({ t with sec := { t.sec with ideKeys := keys } }).emit (.spdm m 0x7E [stream])
      else t.spdmErr m errInvalid
    | .tdispStart f => (match t.moveTdi m f (fun k => match k with
        | .locked => true
        | _ => false) .run with
      | some u => u.emit (.spdm m 0x7E [f])
      | none => t.spdmErr m errInvalid)
    | .tdispStop f => (match t.moveTdi m f (fun _ => true) .unlocked with
      | some u => u.emit (.spdm m 0x7E [f])
      | none => t.spdmErr m errInvalid)
    | .other => t.spdmErr m errUnsupported))

/-- LOCK_INTERFACE: refused while a debug_open context exists on the function (Table 15.9). -/
def execLockInterface (f : Nat) (s : State) : Result :=
  let opened := s.ctxs.any (fun e => e.2.fn == f && decide (e.2.st ≠ .free) && e.2.debugOpen)
  if decide (f < 1024) && decide (f % 64 ≠ 0) && decide ((s.fn f).tdi = .unlocked) && !opened then
    .next (s.modFn f (fun v => { v with tdi := .locked }))
  else .next s

/-! ## Policy fuses (R438) -/

/-- An operator command carrying the current epoch writes a fuse; none is ever lowered, and a change takes effect at the
next cold reset. -/
def execFuseWrite (epoch : Nat) (v : FuseValue) (s : State) : Result :=
  match s.signer with
  | none => .next s
  | some die =>
    if s.current epoch = false then .next s
    else match v with
      | .operatorKeyHash h =>
        if s.sec.opHashSet then .next s else .next { s with sec := { s.sec with opHashNext := h, opHashSet := true } }
      | .cosignRequired => .next { s with sec := { s.sec with cosignNext := true } }
      | .revoke k => if k < 4 then .next { s with sec := { s.sec with revokedNext := s.sec.revokedNext ||| BitVec.ofNat 4 (2 ^ k) } } else .next s
      | .svnMin w =>
        if s.sec.svnMinNext.toNat < w.toNat ∧ w.toNat ≤ (s.die die).svn.toNat then .next { s with sec := { s.sec with svnMinNext := w } } else .next s

/-! ## Operator debug (R457 to R461) -/

/-- A debug session begins where none is open: counted, and reported (R460). -/
def State.beginDebug (s : State) : State :=
  if s.sec.debugActive then s
  else
    let n := satInc s.sec.debugCount
    ({ s with sec := { s.sec with debugActive := true, debugSinceReset := true, debugCount := n, debugStart := s.now } }).note 0x0A01 { detail := [n.toNat] }

/-- A Pewter debug command reaches a debug instrument. -/
def State.debugCommand (s : State) : State :=
  let t := s.beginDebug
  { t with sec := { t.sec with debugLast := t.now } }

/-- What begins a session: any JTAG instruction but BYPASS, IDCODE and SAMPLE, the IEEE 1687 network, or a debug
command. Pin control while a region is neither Dark nor Off acts as BYPASS and still begins one (R461). -/
def execDebugSessionStart (t : DebugTrigger) (s : State) : Result :=
  match t with
  | .jtagHarmless => .next s
  | .pewterCommand => .next s.debugCommand
  | _ => .next (if s.boot.ls18 then s.beginDebug else s)

/-- The TAP enters Test-Logic-Reset: the session ends where no debug command has come for 60 s. -/
def execDebugSessionEnd (s : State) : Result :=
  if s.sec.debugActive && decide (s.sec.debugLast + 60 * ticksPerS ≤ s.now) then .next { s with sec := { s.sec with debugActive := false } }
  else .next s

/-- Whether a cluster may be halted: it is in a state that debug stops (R61). -/
def haltable (v : Cluster) : Bool :=
  match v.st with
  | .idle | .running | .waiting | .trapped => true
  | _ => false

/-- DEBUG_HALT: the cluster retires nothing and issues no run-ahead (R63). -/
def execDebugHalt (t : DebugTarget) (s : State) : Result :=
  let u := s.debugCommand
  match t with
  | .cluster c => .next (u.modCl c (fun v => if haltable v then { v with st := .halted, haltedFrom := v.st, stepOne := false } else v))
  | .core n => .next (if n < 384 then u.modCore n (fun v => { v with halted := true, stepOne := false }) else u)

/-- DEBUG_RESUME: the cluster goes on where it was halted. -/
def execDebugResume (t : DebugTarget) (s : State) : Result :=
  let u := s.debugCommand
  match t with
  | .cluster c => .next (u.modCl c (fun v => if v.st = .halted then { v with st := v.haltedFrom, haltedFrom := .off } else v))
  | .core n => .next (if n < 384 then u.modCore n (fun v => { v with halted := false, stepOne := false }) else u)

/-- DEBUG_SINGLE_STEP: a halted cluster or core goes on until its next instruction has retired or trapped. -/
def execDebugSingleStep (t : DebugTarget) (s : State) : Result :=
  let u := s.debugCommand
  match t with
  | .cluster c => .next (u.modCl c (fun v => if v.st = .halted then { v with st := v.haltedFrom, haltedFrom := .off, stepOne := true } else v))
  | .core n => .next (if n < 384 then u.modCore n (fun v => if v.halted then { v with stepOne := true } else v) else u)

/-- The number an object has in an event. -/
def objectCode : DebugObject → Nat
  | .clusterState _ => 0
  | .programCounter _ => 1
  | .scalar _ _ => 2
  | .predicate _ => 3
  | .rowRegister _ _ => 4
  | .rowMask _ _ => 5
  | .accumulator _ _ _ => 6
  | .weightBank _ _ => 7
  | .tarnRow _ _ => 8
  | .page _ => 9
  | .journal _ => 10
  | .key => 11

/-- The number of a cluster's state (Table 2.5). -/
def CState.code : CState → Nat
  | .off => 0
  | .reserve => 1
  | .idle => 2
  | .running => 3
  | .waiting => 4
  | .trapped => 5
  | .halted => 6
  | .failed => 7

/-- A read that is logged: the event, and debug_reads of the context (R458). -/
def State.logRead (s : State) (x : Option Nat) (o : DebugObject) : State :=
  let t := s.note 0x0A02 { part := (x.map (fun x => (s.ctx x).part)).getD 31, ctx := x, detail := [x.getD 1024, objectCode o] }
  match x with
  | some x => t.modCtx x (fun c => { c with debugReads := satInc c.debugReads })
  | none => t

/-- A value of tenant data on a cluster: zeros and logged where its context is sealed. -/
def State.readSealed (s : State) (c : Nat) (o : DebugObject) (v : Nat) : State :=
  match s.ctxOf c with
  | some x => if (s.ctx x).debugOpen then s.emit (.debug o (BitVec.ofNat 4096 v)) else (s.emit (.debug o 0)).logRead (some x) o
  | none => s.emit (.debug o (BitVec.ofNat 4096 v))

/-- An accumulator cell as debug shows it: its integer, modulo 2^4096, below its flags. -/
def cellNumber (a : Cell) : Nat := (a.v.emod (2 ^ 4000)).toNat + (a.nan.toNat + 2 * a.posInf.toNat + 4 * a.negInf.toNat + 8 * a.range.toNat) * 2 ^ 4000

/-- DEBUG_READ by Table 15.8: a cluster's control state is always read; tenant data of a sealed context reads as zeros or
as ciphertext, and is logged; keys are never read. -/
def execDebugRead (o : DebugObject) (s : State) : Result :=
  let s := s.debugCommand
  match o with
  | .clusterState c => .next (s.emit (.debug o (BitVec.ofNat 4096 (s.cl c).st.code)))
  | .programCounter c => .next (s.emit (.debug o (BitVec.ofNat 4096 (s.cl c).regs.pc.toNat)))
  | .scalar c i => .next (s.readSealed c o (Tbl.get (fun _ => (0 : Word)) (s.cl c).regs.s (i % 64)).toNat)
  | .predicate c => .next (s.readSealed c o (s.cl c).regs.p.toNat)
  | .rowRegister c i => .next (s.readSealed c o (Tbl.get (fun _ => (0 : Row)) (s.cl c).regs.v (i % 64)).toNat)
  | .rowMask c i => .next (s.readSealed c o (Tbl.get (fun _ => (0 : Mask)) (s.cl c).regs.m (i % 8)).toNat)
  | .accumulator c i lane =>
    .next (s.readSealed c o (cellNumber (Tbl.get (fun _ => ({} : Cell)) (Tbl.get (fun _ => ({} : AccRow)) (s.cl c).eng.accs i).cells lane)))
  | .weightBank c b => .next (s.readSealed c o (natOfBytes (if b = 0 then (s.cl c).eng.bank0.codes else (s.cl c).eng.bank1.codes)))
  | .tarnRow c row =>
    let hidden := match s.rowTag c row with
      | .held => true
      | .poisoned => true
      | _ => false
    let sealed' := match s.ctxOf c with
      | some x => !(s.ctx x).debugOpen
      | none => false
    if hidden || sealed' then .next ((s.emit (.debug o 0)).logRead (s.ctxOf c) o) else .next (s.emit (.debug o (s.trow c row).data))
  | .page addr =>
    let a := addr / 64 * 64
    let data := BitVec.ofNat 512 (s.readNat a 64)
    let pg := s.page (a / 4096)
    let owned := match pg.use with
      | .free | .zeroing => false
      | _ => true
    if owned && (s.ctx pg.owner).debugOpen then .next (s.emit (.debug o (data.setWidth 4096)))
    else
      let t := s.emit (.debug o ((Config.cipher pg.key a data).setWidth 4096))
      .next (if owned then t.logRead (some pg.owner) o else t)
  | .journal p =>
    let a := (s.part p).journalBase
    .next (s.emit (.debug o ((Config.cipher (2 ^ 32 + (s.part p).keyGen) a (BitVec.ofNat 512 (s.readNat a 64))).setWidth 4096)))
  | .key => .next s

end Sys2Proof.Machine
end

