-- ==== Sys2Proof/Machine/Pewter.lean ====
section
/-! DEFINITION. The Pewter management controllers (18): the mirror, the lease, the management ports and protocols, the
partitions the operator forms (13), firmware update and recovery. -/

namespace Sys2Proof.Machine

open Sys2Proof

/-! ## The two dies -/

def State.pew (s : State) (v : Voter) : Pewter := match v with
  | .north => s.mgt.north
  | .south => s.mgt.south
  | .bpm => {}

def State.modPew (s : State) (v : Voter) (f : Pewter → Pewter) : State := match v with
  | .north => { s with mgt := { s.mgt with north := f s.mgt.north } }
  | .south => { s with mgt := { s.mgt with south := f s.mgt.south } }
  | .bpm => s

/-- The other Pewter. -/
def otherDie : Voter → Voter
  | .north => .south
  | .south => .north
  | .bpm => .bpm

/-- A die's number in an event. -/
def dieNo (v : Voter) : Nat := if v = .north then 0 else 1

/-- The voters but one. -/
def otherVoters : Voter → List Voter
  | .north => [.south, .bpm]
  | .south => [.north, .bpm]
  | .bpm => [.north, .south]

/-- The Pewter that stands by, where one holds the lease. -/
def State.standby (s : State) : Option Voter := s.holder.map otherDie

/-- A standby's role changes; SYNCING and MISMATCH are reported (R511, R512). -/
def State.setRole (s : State) (v : Voter) (r : Role) : State :=
  let t := s.modPew v (fun p => { p with role := r })
  if (s.pew v).role ≠ r ∧ (r = .syncing ∨ r = .mismatch) then t.note 0x1D03 { detail := [dieNo v] } else t

/-! ## The mirror (R511, R512) -/

/-- The standby takes the next change record and acknowledges it; the holder is not silent (R511, R517). -/
def execChangeRecord (seq : Nat) (s : State) : Result :=
  match s.standby with
  | some v =>
    let r := (s.pew v).role
    if (r = .inStep ∨ r = .syncing) ∧ seq = s.mgt.ackedSeq + 1 ∧ seq ≤ s.mgt.changeSeq then
      .next { s with mgt := { s.mgt with ackedSeq := seq, heardTick := s.now, changeTick := s.now } }
    else .next s
  | none => .next s

/-- No acknowledgement within 100 µs: the holder acts, and brings the standby into step afresh. -/
def execMirrorAckTimeout (s : State) : Result :=
  match s.standby with
  | some v =>
    if (s.pew v).role = .inStep ∧ s.mgt.ackedSeq < s.mgt.changeSeq ∧ s.mgt.changeTick + 100 * ticksPerUs ≤ s.now then
      .next (s.setRole v .syncing)
    else .next s
  | none => .next s

/-- The standby has applied every record up to the holder's number. -/
def execStandbySyncDone (lastSeq : Nat) (s : State) : Result :=
  match s.standby with
  | some v =>
    if (s.pew v).role = .syncing ∧ lastSeq = s.mgt.changeSeq then
      .next ({ s with mgt := { s.mgt with ackedSeq := lastSeq } }.modPew v (fun p => { p with role := .inStep }))
    else .next s
  | none => .next s

/-! ## Voters (R513 to R515) -/

/-- The term of a grant, 10 ms; and the silence an early grant and a candidacy need, 6 ms. -/
def termTicks : Nat := 10 * ticksPerMs
def silenceTicks : Nat := 6 * ticksPerMs

/-- Whether a grant of a voter has not ended. -/
def VoterRec.live (r : VoterRec) (now : Nat) : Bool := r.holder.isSome && decide (now < r.termEnd)

/-- ACQUIRE: granted for 10 ms, refused as held by the other Pewter, or refused as stale; a live grant of the other goes
first (R514, R515). -/
def VoterRec.acquire (r : VoterRec) (now : Nat) (cand : Voter) (inStep : Bool) (e : Nat) : Nat × VoterRec :=
  let held := r.live now && decide (r.holder ≠ some cand)
  let early := inStep && decide (e = r.epoch + 1) && decide (r.lastRenew + silenceTicks ≤ now)
  if held && !early then (1, r)
  else if e ≤ r.epoch then (2, r)
  else (0, { epoch := e, holder := some cand, termEnd := now + termTicks, lastRenew := now })

/-- RENEW from the grant holder with the recorded epoch restarts its term. -/
def VoterRec.renew (r : VoterRec) (now : Nat) (cand : Voter) (e : Nat) : Nat × VoterRec :=
  if r.live now && decide (r.holder = some cand) && e == r.epoch then (0, { r with termEnd := now + termTicks, lastRenew := now }) else (2, r)

/-- RELEASE from the grant holder with the recorded epoch ends its grant. -/
def VoterRec.release (r : VoterRec) (now : Nat) (cand : Voter) (e : Nat) : Nat × VoterRec :=
  if r.live now && decide (r.holder = some cand) && e == r.epoch then (0, { r with holder := none, termEnd := now }) else (2, r)

def State.voterRec (s : State) (v : Voter) : VoterRec := match v with
  | .bpm => s.mgt.bpmVote
  | v => (s.pew v).vote

def State.setVoterRec (s : State) (v : Voter) (r : VoterRec) : State := match v with
  | .bpm => { s with mgt := { s.mgt with bpmVote := r } }
  | v => s.modPew v (fun p => { p with vote := r })

/-- The sender of a vote frame. -/
def frameFrom (f : BitVec 256) : Option Voter := match bitsOf f 7 4 with
  | 0 => some .bpm
  | 1 => some .north
  | 2 => some .south
  | _ => none

/-- Whether a frame is a vote frame of a type with a right CRC (R476). -/
def voteFrameOk (f : BitVec 256) (ftype : Nat) : Bool :=
  bitsOf f 3 0 == ftype && (crc32c 0xFFFFFFFF#32 (bytesOf f 28)).toNat == bitsOf f 255 224

/-- Whether a frame is a VOTE_REQ whose fields hold no reserved value (Table 18.3). -/
def voteReqOk (f : BitVec 256) : Bool :=
  voteFrameOk f 6 && decide (1 ≤ bitsOf f 7 4) && decide (bitsOf f 7 4 ≤ 2) && decide (1 ≤ bitsOf f 55 48) && decide (bitsOf f 55 48 ≤ 3) &&
  bitsOf f 63 57 == 0 && bitsOf f 223 128 == 0

/-- Whether a voter votes: the BPM, and a Pewter that is not ABSENT (Table 18.1). -/
def State.votes (s : State) (v : Voter) : Bool := match v with
  | .bpm => true
  | v => decide ((s.pew v).role ≠ .absent)

/-- A voter's answer: its recorded epoch, its live grant, and the µs left of it (Table 18.3). -/
def State.sendVote (s : State) (v cand : Voter) (result tick : Nat) : State :=
  let r := s.voterRec v
  let live := r.live s.now
  s.emit (.vote v cand result r.epoch (if live then r.holder else none) tick (if live then min 10000 ((r.termEnd - s.now) / ticksPerUs) else 0))

/-- A request reaches a voter, which judges it and answers; a frame that fails R476 is discarded and counted by a Pewter. -/
def State.judge (s : State) (v : Voter) (f : BitVec 256) (kind : Nat) (rule : VoterRec → Voter → Nat × VoterRec) : State :=
  if !voteReqOk f then (if v = .bpm then s else s.badFrame)
  else match frameFrom f with
    | some cand =>
      if bitsOf f 55 48 ≠ kind ∨ s.votes v = false ∨ cand = v then s
      else
        let a := rule (s.voterRec v) cand
        let t := (s.setVoterRec v a.2).modPew v (fun p => { p with seen := max p.seen (bitsOf f 47 16) })
        let heard := decide (v ≠ Voter.bpm) && (kind == 2 || (kind == 1 && s.holder.isNone))
        let t := { t with mgt := { t.mgt with heardTick := if heard then t.now else t.mgt.heardTick } }
        t.sendVote v cand a.1 (bitsOf f 127 64)
    | none => s

def execAcquire (v : Voter) (f : BitVec 256) (s : State) : Result :=
  .next (s.judge v f 1 (fun r cand => r.acquire s.now cand (bitOf f 56) (bitsOf f 47 16)))

def execRenew (v : Voter) (f : BitVec 256) (s : State) : Result :=
  .next (s.judge v f 2 (fun r cand => r.renew s.now cand (bitsOf f 47 16)))

def execRelease (v : Voter) (f : BitVec 256) (s : State) : Result :=
  .next (s.judge v f 3 (fun r cand => r.release s.now cand (bitsOf f 47 16)))

/-! ## Candidates and the holder (R516 to R519) -/

/-- Whether a Pewter sets in_step: it is IN_STEP or the holder. -/
def State.inStepBit (s : State) (v : Voter) : Bool := decide ((s.pew v).role = .inStep) || decide ((s.pew v).role = .holder)

/-- A Pewter becomes a candidate for an epoch: its own vote is given by the same rule, and ACQUIRE goes to both other
voters; refused by itself as held it is none (R514, R517). No epoch exceeds 0xFFFFFFFF (R518). -/
def State.seek (s : State) (v : Voter) (e : Nat) : State :=
  if 0xFFFFFFFF < e then s
  else
    let p := s.pew v
    let a := p.vote.acquire s.now v (s.inStepBit v) e
    let t := s.modPew v (fun p => { p with vote := a.2, seen := max p.seen a.2.epoch, candidate := if a.1 = 1 then none else some e,
                                           granted := if a.1 = 0 then [v] else [] })
    if a.1 = 1 then t
    else (otherVoters v).foldl (fun (t : State) w => t.emit (.voteReq v w 1 e (s.inStepBit v) s.now)) t

/-- The role of the die beside a new holder (R512). -/
def State.besideRole (s : State) (v : Voter) : Role :=
  let o := s.pew (otherDie v)
  match o.role with
  | .absent => .absent
  | .inStep => if o.mfw = (s.pew v).mfw then .inStep else .mismatch
  | _ => if o.mfw = (s.pew v).mfw then .syncing else .mismatch

/-- The new epoch goes to every region steward, host-port die and CXL die before any other command (R518). -/
def State.spreadEpoch (s : State) (e : Nat) : State :=
  let t := s.allRegions (fun v => { v with epoch := max v.epoch e })
  let t := (List.range 8).foldl (fun (t : State) i => t.modPort i (fun v => { v with epoch := max v.epoch e })) t
  (List.range 8).foldl (fun (t : State) i => t.modCxl i (fun v => { v with epoch := max v.epoch e })) t

/-- Sequences a new holder starts again from their first event: recoveries and step changes (Tables 10.6 and 18.10). -/
def State.restartSequences (s : State) : State :=
  let now := s.now
  let t := s.allRegions (fun v => { v with change := v.change.map (fun (c : StepChange) => if c.stage < 2 then { c with stage := 0, started := now } else c) })
  { t with parts := Tbl.mapVal (fun _ => {}) (fun _ (v : Part) => match v.recovery with
      | some r => { v with recovery := some { r with stage := .draining, layoutDeadline := none }, drain := some now }
      | none => v) t.parts }

/-- The operator's selectors and latches return to their reset values (Table 21.12). -/
def State.dropOperatorLatches (s : State) : State :=
  { s with sels := Tbl.drop (fun k => k / 2 ^ 32 == 0) s.sels, halves := Tbl.drop (fun k => k / 2 ^ 32 == 0) s.halves }

/-- A candidate with two grants is the holder: it sends a KEEPALIVE at once and spreads the epoch; where the holder
changed, the change is logged, sessions end, and sequences begin anew (R517, R518, Tables 15.9, 18.10). -/
def State.becomeHolder (s : State) (v : Voter) (e : Nat) : State :=
  let old := s.holder
  let beside := s.besideRole v
  let acks := (s.pew v).granted.foldl (fun (a : Tbl Nat) w => Tbl.set (fun _ => 0) a (match w with
    | .north => 0
    | .south => 1
    | .bpm => 2) (s.now + 1)) []
  let t := s.modPew v (fun p => { p with role := .holder, candidate := none, granted := [], retried := false, handover := false, seen := max p.seen e, lastAckEach := acks })
  let t := { t with mgt := { t.mgt with epoch := e, heardTick := s.now, lastRenewal := s.now },
                    bpm := { t.bpm with keepaliveTick := s.now } }
  let t := (t.spreadEpoch e).emit (.keepalive e)
  let t := t.setRole (otherDie v) beside
  if old = some v then t
  else
    let t := { t with sec := { t.sec with sessions := [], chunks := [] } }
    (t.restartSequences.dropOperatorLatches).note 0x0D01 { detail := [(old.map (fun w => dieNo w + 1)).getD 0, e] }

def voterKey : Voter → Nat
  | .north => 0
  | .south => 1
  | .bpm => 2

/-- Whether a frame is a VOTE of a voter whose fields hold no reserved value (Table 18.3). -/
def voteOk (f : BitVec 256) (w : Voter) : Bool :=
  voteFrameOk f 7 && decide (frameFrom f = some w) && decide (bitsOf f 55 48 ≤ 3) && decide (bitsOf f 59 56 ≤ 2) &&
  bitsOf f 63 60 == 0 && bitsOf f 223 144 == 0

/-- A vote reaches a candidate: with two grants it is the holder; refused as stale it tries once more with the returned
epoch + 1; refused as held it stands down. One that reaches the holder renews its vote, or, from a BPM that has lost its
record, makes it acquire anew (R516, R517, Table 18.10). -/
def execVote (at_ : Voter) (fromV : Voter) (f : BitVec 256) (s : State) : Result :=
  if at_ = .bpm ∨ at_ = fromV ∨ s.votes at_ = false then .next s
  else if !voteOk f fromV then .next s.badFrame
  else
    let e := bitsOf f 47 16
    let result := bitsOf f 55 48
    let t := s.modPew at_ (fun p => { p with seen := max p.seen e })
    let p := t.pew at_
    match p.candidate with
    | some want =>
      if result = 0 ∧ e = want then
        let granted := if p.granted.contains fromV then p.granted else p.granted ++ [fromV]
        let t := t.modPew at_ (fun p => { p with granted := granted })
        .next (if 2 ≤ granted.length then t.becomeHolder at_ want else t)
      else if result = 1 then .next (t.modPew at_ (fun p => { p with candidate := none, granted := [], retried := false }))
      else if result = 2 ∧ p.retried = false then .next ((t.modPew at_ (fun p => { p with retried := true })).seek at_ (e + 1))
      else .next t
    | none =>
      if p.role = .holder then
        (if result = 0 ∧ e = t.mgt.epoch then
          .next (t.modPew at_ (fun p => { p with lastAckEach := Tbl.set (fun _ => 0) p.lastAckEach (voterKey fromV) (s.now + 1) }))
         else if result = 2 ∧ e < t.mgt.epoch then .next (t.seek at_ (t.mgt.epoch + 1))
         else .next t)
      else .next t

/-- Every 2 ms the holder renews its own vote and sends RENEW to both other voters. -/
def execLeaseRenewal (s : State) : Result :=
  match s.holder with
  | some v =>
    if s.mgt.lastRenewal + 2 * ticksPerMs ≤ s.now then
      let t := s.modPew v (fun p => { p with vote := (p.vote.renew s.now v s.mgt.epoch).2 })
      let t := { t with mgt := { t.mgt with lastRenewal := s.now } }
      .next ((otherVoters v).foldl (fun (t : State) w => t.emit (.voteReq v w 2 s.mgt.epoch true s.now)) t)
    else .next s
  | none => .next s

/-- The votes a holder counts as held: its own, and those renewed within the last 4 ms (R516). -/
def State.votesHeld (s : State) (v : Voter) : Nat :=
  let p := s.pew v
  (p.vote.live s.now && decide (p.vote.holder = some v)).toNat +
  ((otherVoters v).filter (fun w => decide (s.now < Tbl.get (fun _ => 0) p.lastAckEach (voterKey w) + 4 * ticksPerMs))).length

/-- With fewer than two votes the holder stops issuing commands, becomes a standby, and does not seek for 20 ms. -/
def execLeaseLoss (s : State) : Result :=
  match s.holder with
  | some v =>
    if s.votesHeld v < 2 then
      .next ((s.setRole v .syncing).modPew v (fun p => { p with candidate := none, granted := [], noSeekUntil := s.now + 20 * ticksPerMs }))
    else .next s
  | none => .next s

/-- Whether a Pewter may seek the lease now. -/
def State.maySeek (s : State) (v : Voter) : Bool := (s.pew v).candidate.isNone && decide ((s.pew v).noSeekUntil ≤ s.now)

/-- The IN_STEP standby, if there is one. -/
def State.inStepDie (s : State) : Option Voter :=
  if s.mgt.north.role = .inStep then some .north else if s.mgt.south.role = .inStep then some .south else none

/-- After 6 ms without RENEW or change record the IN_STEP standby is a candidate. -/
def execHolderSilence (s : State) : Result :=
  match s.inStepDie with
  | some v =>
    if s.maySeek v && decide (s.mgt.heardTick + silenceTicks ≤ s.now) then
      .next ((s.modPew v (fun p => { p with retried := false })).seek v ((s.pew v).seen + 1))
    else .next s
  | none => .next s

/-- At bring-up, after 20 ms without ACQUIRE or RENEW from North, South is a candidate. -/
def execSouthCandidacy (s : State) : Result :=
  let p := s.mgt.south
  if p.booted ∧ p.fuseOk ∧ p.role ≠ .absent ∧ s.holder = none ∧ s.boot.event = 3 ∧ s.maySeek .south = true ∧
      s.mgt.heardTick + 20 * ticksPerMs ≤ s.now then
    .next ((s.modPew .south (fun p => { p with retried := false })).seek .south (p.seen + 1))
  else .next s

/-- The operator hands the lease over: RELEASE to both voters, and a record to the standby; ignored, with an event, where
no standby is IN_STEP. -/
def execMgtLeaseCtlHandover (s : State) : Result :=
  match s.holder with
  | some v =>
    let o := otherDie v
    if (s.pew o).role = .inStep then
      let t := s.modPew v (fun p => { p with role := .inStep, noSeekUntil := s.now + 20 * ticksPerMs, vote := (p.vote.release s.now v s.mgt.epoch).2 })
      let t := (otherVoters v).foldl (fun (t : State) w => t.emit (.voteReq v w 3 s.mgt.epoch true s.now)) t
      .next (t.modPew o (fun p => { p with handover := true }))
    else .next (s.note 0x0D04 {})
  | none => .next s

/-- The standby that a handover record reaches, behind the RELEASE on the same link, seeks the lease at once (R519). -/
def execHandoverRecord (s : State) : Result :=
  let v := if s.mgt.north.handover then Voter.north else Voter.south
  if (s.pew v).handover then
    let t := s.modPew v (fun p => { p with handover := false, retried := false, noSeekUntil := 0, vote := (p.vote.release s.now (otherDie v) s.mgt.epoch).2 })
    .next (t.seek v ((t.pew v).seen + 1))
  else .next s

/-! ## Management ports (R521) -/

/-- Whether MGT_NET_CFG.failover is set. -/
def State.failover (s : State) : Bool := bitOf (s.reg 0xA00010) 48

def State.portUp (s : State) (i : Nat) : Bool := if i = 0 then s.mgt.port0 else s.mgt.port1

/-- A port goes down: an event, and its traffic moves to the other port where failover is set. -/
def execMgmtPortDown (i : Nat) (s : State) : Result :=
  if 2 ≤ i ∨ s.portUp i = false then .next s
  else
    let m := if i = 0 then { s.mgt with port0 := false } else { s.mgt with port1 := false }
    let m := if s.failover && m.activePort == i then { m with activePort := 1 - i } else m
    .next ({ s with mgt := m }.note 0x1D05 { detail := [i] })

def execMgmtPortUp (i : Nat) (s : State) : Result :=
  if 2 ≤ i then .next s
  else .next { s with mgt := if i = 0 then { s.mgt with port0 := true } else { s.mgt with port1 := true } }

/-! ## Redfish (R523, Table 18.6) -/

/-- What a request is answered: carried out, or refused. -/
def redfishOk : Nat := 0
def redfishRefused : Nat := 1

/-- Whether an account is locked. -/
def State.locked (s : State) (a : Nat) : Bool := s.mgt.locks.any (fun e => e.1 == a && decide (s.now < e.2))

/-- A login that failed: the fifth of one account within 60 s locks it for 300 s (Table 20.3). -/
def State.failedLogin (s : State) (a : Nat) : State :=
  let recent := s.mgt.logins.filter (fun (e : Nat × Nat) => decide (s.now < e.2 + 60 * ticksPerS)) ++ [(a, s.now)]
  if s.locked a then s
  else if 5 ≤ (recent.filter (fun (e : Nat × Nat) => e.1 == a)).length then
    ({ s with mgt := { s.mgt with logins := recent.filter (fun (e : Nat × Nat) => e.1 != a), locks := s.mgt.locks.filter (fun (e : Nat × Nat) => e.1 != a) ++ [(a, s.now + 300 * ticksPerS)] } }).note
      0x0F01 { detail := [0xA00010, a] }
  else { s with mgt := { s.mgt with logins := recent } }

/-- What a role may ask for: reading is open to all; accounts are the Administrator's; every other change is the
Administrator's or the Operator's. -/
def mayRedfish (u : RedfishUser) (a : RedfishAction) : Bool :=
  match u, a with
  | .badLogin _, _ => false
  | _, .read => true
  | .administrator, _ => true
  | .operator, .accountChange => false
  | .operator, _ => true
  | .readOnly, _ => false

/-- The boundary work of a region's partition, where one stands at a boundary. -/
def State.workAround (s : State) (r : Nat) : State :=
  match (s.region r).part with
  | some p => s.boundaryWork p
  | none => s

/-- A change the holder carries out for the operator (Table 18.6). -/
def State.redfish (s : State) (a : RedfishAction) : State :=
  match a with
  | .read => s
  | .killContext x => if x < 1024 then s.killStart x none else s
  | .failCluster c => if decide (c < 4608) && !s.vacant c && decide ((s.cl c).st ≠ .failed) then s.failAndMap c 0 else s
  | .substitute c => if decide (c < 4608) && !s.vacant c && !(s.cl c).health.subst then (s.requestSubst c).workAround (regionOf c) else s
  | .retireRegion r => if r < 16 then (s.orderRetire r).workAround r else s
  | .condemnStack k => if k < 32 then s.failStack k else s
  | .retirePc k q => if k < 32 ∧ q < 32 then (s.pcCandidate k q).workAround (k / 2) else s
  | .resetPartition p => if (s.part p).formed ∧ (s.part p).resetting = false then s.resetPart p else s
  | .railOff m => s.bpmCommand 2 m
  | .segmentOff m => s.bpmCommand 4 m
  | .accountChange => s

/-- A request on a management port in service, answered by the holder alone. -/
def execRedfishRequest (who : RedfishUser) (r : RedfishAction) (s : State) : Result :=
  if s.holder.isNone ∨ (s.mgt.port0 || s.mgt.port1) = false then .next s
  else match who with
    | .badLogin a => .next ((s.failedLogin a).emit (.redfish redfishRefused))
    | u => if mayRedfish u r then .next (((if r = .read then s else s.changed).redfish r).emit (.redfish redfishOk))
           else .next (s.emit (.redfish redfishRefused))

/-! ## Partitions (R384, R385) -/

/-- The base of the journal ring of a partition as it is formed (Table 21.3). -/
def State.ringBase (s : State) (rs : List Nat) : Nat :=
  (rs.foldl min 15) * s.sliceSize + (if s.variant36 then 64 else 88) * 2 ^ 30

/-- Whether a partition may be formed of regions: one to sixteen, all in service, none in another. -/
def State.formable (s : State) (p : Nat) (rs : List Nat) : Bool :=
  decide (p < 16) && !(s.part p).formed && !rs.isEmpty && decide rs.Nodup &&
  rs.all (fun r => decide (r < 16) && (s.region r).inService && (s.region r).part.isNone)

/-- A partition is formed: a new key, step_seq at 1, its firewalls at the regions' boundaries, its routes. -/
def execPartitionForm (p : Nat) (regions : List Nat) (s : State) : Result :=
  if s.holder.isSome && s.formable p regions then
    let t := regions.foldl (fun (t : State) r => t.modRegion r (fun v => { v with part := some p })) s.changed
    let v : Part := { formed := true, regions := regions, keyGen := s.sec.nextKey, journalBase := s.ringBase regions }
    let t := { t.setPart p v with sec := { t.sec with nextKey := t.sec.nextKey + 1 } }
    .next ((t.buildRoutes regions).fixPerims (List.range 12))
  else .next s

/-- A partition is dissolved, refused while a context exists in it; its links are bound to none. -/
def execPartitionDissolve (p : Nat) (s : State) : Result :=
  if s.holder.isSome && decide (p < 16) && (s.part p).formed && (s.ctxsOf p).isEmpty then
    let rs := (s.part p).regions
    let t := rs.foldl (fun (t : State) r => t.modRegion r (fun v => { v with part := none })) s.changed
    let t := (s.linksOf p).foldl (fun (t : State) l => t.modLink l (fun v => { v with part := none })) t
    .next (((t.setPart p {}).buildRoutes rs).fixPerims (List.range 12))
  else .next s

/-- The operator binds a link to a partition, or to none: refused while a context exists in the partition it leaves or
joins. -/
def execHostLinkBind (l : Nat) (p : Option Nat) (s : State) : Result :=
  let clear := fun (q : Option Nat) => match q with
    | some q => decide (q < 16) && (s.part q).formed && (s.ctxsOf q).isEmpty
    | none => true
  if s.holder.isSome && decide (l < 16) && clear (s.link l).part && clear p then
    let t := s.changed.modLink l (fun v => { v with part := p })
    let t := match (s.link l).part with
      | some q => if p = some q then t else t.modPart q (fun v => { v with errqs := Tbl.drop (fun k => k == l) v.errqs })
      | none => t
    .next (t.fixPerims (List.range 12))
  else .next s

/-! ## MCTP, telemetry and the console (R522, R524) -/

/-- A message discarded. -/
def State.badMessage (s : State) : State := { s with mgt := { s.mgt with msgDiscards := satInc s.mgt.msgDiscards } }

/-- An MCTP message of at most 64 KiB: PLDM base and sensors are answered by the holder; firmware update and SPDM go on as
their own commands; others are discarded. -/
def execMctpMessage (len : Nat) (kind : MctpKind) (s : State) : Result :=
  if 65536 < len then .next s.badMessage
  else match kind with
    | .pldmBase => .next (if s.holder.isSome then s.emit (.pldm 0 0) else s)
    | .pldmSensor n => .next (if s.holder.isSome then s.draw.emit (.pldm 2 (Config.sensorValue n s.fresh)) else s)
    | .pldmFirmware => .next s
    | .spdm => .next s
    | .unsupported => .next s.badMessage

/-- The period of a kind of reading in ticks (Table 18.7). -/
def readingPeriod (kind : Nat) : Nat := if kind ≤ 3 then 100 * ticksPerMs else if kind ≤ 5 then ticksPerS else 60 * ticksPerS

/-- Whether a reading has been refreshed within its last three periods; counters and references are read as they are. -/
def State.fresh? (s : State) (n : Nat) : Bool :=
  let kind := n % 8
  kind == 4 || kind == 5 ||
  (decide (0 < Tbl.get (fun _ => 0) s.mgt.telemetry n) && decide (s.now < Tbl.get (fun _ => 0) s.mgt.telemetry n + 3 * readingPeriod kind))

/-- The holder publishes a reading of Table 18.7, or that it is unavailable (R524). -/
def execTelemetryPublish (quantity : Nat) (s : State) : Result :=
  if s.holder.isSome && decide (quantity % 8 ≤ 6) then .next (s.emit (.telemetry quantity (s.fresh? quantity))) else .next s

/-- A line on the console: at most 256 characters, a read-only command; else it is discarded. -/
def execUartCommand (len : Nat) (readOnly : Bool) (s : State) : Result :=
  if len ≤ 256 ∧ readOnly ∧ s.boot.ls18 then .next (s.emit (.uart 0)) else .next s

/-! ## Firmware (R437, R527 to R529) -/

/-- The first check of R437 that an image fails, numbered as MGT_RCV_STATUS.fail numbers them, if any. -/
def State.firmwareFail (s : State) (m : FirmwareImage) : Option Nat :=
  if 4 ≤ m.romKey ∨ bitOf s.sec.revoked m.romKey = true ∨ Config.verifyFirmware false (Config.romKeyHash m.romKey) m.mfw m.signature = false then some 2
  else if s.sec.cosign = true ∧ (m.cosigKeyHash ≠ s.sec.opHash ∨ Config.verifyFirmware true m.cosigKeyHash m.mfw m.cosignature = false) then some 2
  else if m.svn.toNat < s.sec.svnMin.toNat then some 3
  else none

/-- Whether the flash holds an image that reads and passes. -/
def State.flashImage (s : State) : Option FirmwareImage :=
  match s.mgt.flash with
  | some m => if m.readOk && m.writeOk && (s.firmwareFail m).isNone then some m else none
  | none => none

/-- A new image: refused where it fails, the flash untouched; else written and read back, and it runs from the next cold
reset; a failure of the write leaves the image area invalid. In recovery, where no die holds the lease, North takes it
(R527 to R529). -/
def execFirmwareUpdate (img : FirmwareImage) (s : State) : Result :=
  if (s.holder.isNone && !(s.mgt.north.recovery && s.mgt.south.recovery)) || !s.boot.ls18 then .next s
  else if (s.firmwareFail img).isSome then .next s
  else
    let t := { s with mgt := { s.mgt with flash := some img } }
    if img.writeOk && img.readOk then .next ({ t with mgt := { t.mgt with activation := true } }.note 0x0D06 { detail := [img.svn.toNat] })
    else .next t

/-- A die that starts its firmware: it votes, and stands by with the role R512 gives it. -/
def State.bootDie (s : State) (v : Voter) (m : FirmwareImage) : State :=
  let t := s.modPew v (fun p => { p with booted := true, imageOk := true, recovery := false, mfw := m.mfw, svn := m.svn })
  match s.holder with
  | some h => t.setRole v (if (s.pew h).mfw = m.mfw then .syncing else .mismatch)
  | none => t.modPew v (fun p => { p with role := .syncing })

/-- A die in recovery tries its boot again every 10 s (R528). -/
def execBootRetry (pewter : Nat) (check : BootCheck) (s : State) : Result :=
  let v := if pewter = 0 then Voter.north else Voter.south
  let p := s.pew v
  if 2 ≤ pewter ∨ p.recovery = false ∨ s.now < p.retryTick + 10 * ticksPerS then .next s
  else
    let t := s.modPew v (fun p => { p with retryTick := s.now })
    match check, s.flashImage with
    | .ok, some m => .next ((t.modPew v (fun p => { p with selfTest := true })).bootDie v m)
    | _, _ => .next t

/-- Whether the recovery mailbox is open to host link 0: North is in recovery and nothing holds the lease. -/
def State.mailboxOpen (s : State) : Bool := s.mgt.north.recovery && s.holder.isNone

def State.setMailbox (s : State) (m : Mailbox) : State := { s with mgt := { s.mgt with mailbox := m } }

/-- A start opens a transfer, discarding an open one (R529). -/
def execMgtRcvStart (len : Nat) (s : State) : Result :=
  if s.mailboxOpen && decide (1 ≤ len) && decide (len ≤ 8388608) then .next (s.setMailbox { state := 1, len := len }) else .next s

/-- A word of the image: the offset advances. -/
def execMgtRcvData (_w : BitVec 32) (s : State) : Result :=
  let m := s.mgt.mailbox
  if s.mailboxOpen && m.state == 1 && decide (m.offset < m.len) then .next (s.setMailbox { m with offset := m.offset + 1 }) else .next s

/-- Both Pewters reset, and bring-up starts from its first event. -/
def State.restartBringUp (s : State) : State :=
  { s with mgt := { s.mgt with north := {}, south := {}, sessionOpen := false },
           boot := { s.boot with event := 0, complete := false, stopped := false },
           links := Tbl.mapVal (fun _ => {}) (fun _ (v : Link) => { v with bootFailed := false }) s.links }

/-- A commit: early, it fails and the transfer is discarded; else the image is checked, written and read back, and on done
both Pewters reset. -/
def execMgtRcvCommit (img : FirmwareImage) (s : State) : Result :=
  let m := s.mgt.mailbox
  if s.mailboxOpen = false ∨ m.state ≠ 1 then .next s
  else if m.offset < m.len then .next (s.setMailbox { m with state := 0, fail := 1 })
  else match s.firmwareFail img with
    | some why => .next (s.setMailbox { m with state := 0, fail := why })
    | none =>
      let t := { s with mgt := { s.mgt with flash := some img } }
      if img.writeOk && img.readOk then .next ((t.setMailbox { m with state := 3, fail := 0 }).restartBringUp)
      else .next (t.setMailbox { m with state := 0, fail := 4 })

end Sys2Proof.Machine
end

