-- ==== Sys2Proof/Machine/Registers.lean ====
section
/-! DEFINITION. The setup register space (21): which register lies at an offset, its fields, what it reads as, what a write
does; error queues (20), partition resets (19), and the loss of LS_VDD18 (22). -/

namespace Sys2Proof.Machine

open Sys2Proof

/-! ## Layout (R557, R559, Table 21.1) -/

/-- Access types (Table 0.5). -/
inductive Acc where
  | ro | rw | w1c | w1s | wo | rwl
  deriving DecidableEq, Repr

/-- The registers of Tables 21.2 to 21.11; in a block of a partition, a function page or CLU_ by their place there. -/
inductive SetupReg where
  | ident | cmapIndex | cmapEntry | bootStatus | resetCtl
  | prt (p o : Nat)
  | portCfg (p : Nat) | linkCfg (l : Nat) | linkStatus (l : Nat)
  | page (f o : Nat)
  | ctxLimit (f v : Nat)
  | cxpPort (p : Nat) | cxpStatus (p : Nat) | winSelect | winStatus | trustRoot (k : Nat)
  | errCount (k q : Nat) | rasCfg | scrubCfg | ppr (k : Nat) | pcStatus (k : Nat)
  | route (r d : Nat) | linkSelect | linkErr | retrainCfg | discard (r c : Nat)
  | time | epochOffset | todSet | refCfg | refStatus | ptpCfg
  | treeDelay (d : Nat) | beaconErr (d : Nat) | stretch (d w : Nat) | xingIndex | xingEntry | syncLate (r : Nat)
  | vid (r st : Nat) | phase (r : Nat) | regionStatus (r : Nat) | panelLimit | seqCfg | bpmStatus
  | hsSelect | hsStatus | coolantStatus | thresh | rotateCfg
  | fusePolicy (w : Nat) | debugStatus
  | pewterStatus | leaseCtl | netCfg (i : Nat) | netStatus (i : Nat) | logStatus | spdmCfg | rcvCtrl | rcvData | rcvStatus
  | clu (o : Nat)
  | faultInfo (n : Nat)
  deriving DecidableEq, Repr

/-- An array of `n` registers from `base` on: the index of an offset in it. -/
def arrayAt (base n off : Nat) : Option Nat :=
  if base ≤ off ∧ (off - base) / 8 < n then some ((off - base) / 8) else none

/-- The register of the blocks below 64 KiB each, by block number and offset in it. -/
def blockReg (b o : Nat) : Option SetupReg :=
  match b with
  | 0x00 => [SetupReg.ident, .cmapIndex, .cmapEntry, .bootStatus, .resetCtl][o / 8]?
  | 0x20 => ((arrayAt 0 8 o).map SetupReg.portCfg).or (((arrayAt 0x40 16 o).map SetupReg.linkCfg).or ((arrayAt 0xC0 16 o).map SetupReg.linkStatus))
  | 0x30 => ((arrayAt 0 8 o).map SetupReg.cxpPort).or (((arrayAt 0x40 8 o).map SetupReg.cxpStatus).or
      (if o = 0x80 then some .winSelect else if o = 0x88 then some .winStatus else (arrayAt 0x100 32 o).map SetupReg.trustRoot))
  | 0x40 => ((arrayAt 0 1024 o).map (fun k => SetupReg.errCount (k / 32) (k % 32))).or
      (if o = 0x2000 then some .rasCfg else if o = 0x2008 then some .scrubCfg
       else ((arrayAt 0x2100 32 o).map SetupReg.ppr).or ((arrayAt 0x2200 32 o).map SetupReg.pcStatus))
  | 0x50 => ((arrayAt 0 256 o).map (fun k => SetupReg.route (k / 16) (k % 16))).or
      (if o = 0x800 then some .linkSelect else if o = 0x808 then some .linkErr else if o = 0x810 then some .retrainCfg
       else (arrayAt 0x1000 144 o).map (fun k => SetupReg.discard (k / 9) (k % 9)))
  | 0x60 => ([SetupReg.time, .epochOffset, .todSet, .refCfg, .refStatus, .ptpCfg][o / 8]?).or
      (((arrayAt 0x100 25 o).map SetupReg.treeDelay).or (((arrayAt 0x200 25 o).map SetupReg.beaconErr).or
       (((arrayAt 0x300 50 o).map (fun k => SetupReg.stretch (k / 2) (k % 2))).or
        (if o = 0x500 then some .xingIndex else if o = 0x508 then some .xingEntry else (arrayAt 0x600 16 o).map SetupReg.syncLate))))
  | 0x70 => ((arrayAt 0 144 o).map (fun k => SetupReg.vid (k / 9) (k % 9))).or (((arrayAt 0x500 16 o).map SetupReg.phase).or
      (if o = 0x580 then some .panelLimit else if o = 0x588 then some .seqCfg else if o = 0x680 then some .bpmStatus
       else (arrayAt 0x600 16 o).map SetupReg.regionStatus))
  | 0x80 => [SetupReg.hsSelect, .hsStatus, .coolantStatus, .thresh, .rotateCfg][o / 8]?
  | 0x90 => ((arrayAt 0 6 o).map SetupReg.fusePolicy).or (if o = 0x40 then some .debugStatus else none)
  | 0xA0 => [SetupReg.pewterStatus, .leaseCtl, .netCfg 0, .netCfg 1, .netStatus 0, .netStatus 1, .logStatus, .spdmCfg, .rcvCtrl, .rcvData,
      .rcvStatus][o / 8]?
  | 0xB0 => (arrayAt 0 23 o).map SetupReg.clu
  | _ => none

/-- The register at an offset that is a multiple of 8, if one is assigned there. -/
def setupReg (off : Nat) : Option SetupReg :=
  if off % 8 ≠ 0 then none
  else if 0x100000 ≤ off ∧ off < 0x200000 then
    let p := (off - 0x100000) / 0x10000
    (arrayAt 0 14 (off % 0x10000)).map (SetupReg.prt p)
  else if 0x1000000 ≤ off ∧ off < 0x5000000 then
    let f := (off - 0x1000000) / 0x10000
    let o := off % 0x10000
    if o = 0xF00 then some (.linkCfg (f / 64)) else if o = 0xF08 then some (.linkStatus (f / 64))
    else if 0x200 ≤ o ∧ o < 0x400 then (if f % 64 = 0 then some (.ctxLimit f ((o - 0x200) / 8)) else none)
    else (arrayAt 0 13 o).map (SetupReg.page f)
  else if 0x8800000 ≤ off ∧ off < 0x8800000 + 384 * 4096 then
    if off % 4096 = 0 then some (.faultInfo ((off - 0x8800000) / 4096)) else none
  else if off < 0x100000 then blockReg 0 (if off < 0x10000 then off else 0x10000)
  else if off % 0x100000 < 0x10000 ∧ off < 0xC00000 then blockReg (off / 0x10000) (off % 0x10000)
  else none

/-! ## Fields (Tables 21.2 to 21.11) -/

/-- A register's fields: high bit, low bit, access type. -/
def fieldsOf : SetupReg → List (Nat × Nat × Acc)
  | .ident => [(15, 0, .ro), (19, 16, .ro), (27, 20, .ro), (31, 28, .ro)]
  | .cmapIndex => [(3, 0, .rw), (12, 4, .rw)]
  | .cmapEntry => [(31, 0, .ro)]
  | .bootStatus => [(3, 0, .ro), (4, 4, .ro), (5, 5, .ro), (6, 6, .w1c), (15, 8, .ro), (31, 16, .ro), (47, 32, .ro)]
  | .resetCtl => [(0, 0, .wo), (1, 1, .wo)]
  | .prt _ 0 => [(51, 30, .rw)]
  | .prt _ 1 => [(6, 0, .rw), (10, 8, .rw)]
  | .prt _ 2 => [(23, 0, .ro), (47, 24, .ro), (63, 48, .ro)]
  | .prt _ 3 => [(47, 0, .ro)]
  | .prt _ 4 => [(0, 0, .rw)]
  | .prt _ 5 => [(9, 0, .rw)]
  | .prt _ 6 => [(9, 0, .wo)]
  | .prt _ 7 => [(0, 0, .rw), (31, 16, .rw)]
  | .prt _ 8 => [(0, 0, .wo)]
  | .prt _ 9 => [(4, 0, .rw)]
  | .prt _ 10 => [(51, 12, .rw)]
  | .prt _ 11 => [(4, 0, .rw), (10, 8, .rw), (11, 11, .rw), (26, 16, .rw), (40, 32, .rw), (43, 41, .rw), (51, 44, .rw)]
  | .prt _ 12 => [(15, 0, .rw)]
  | .prt _ 13 => [(15, 0, .ro), (16, 16, .ro), (63, 32, .w1c)]
  | .prt _ _ => []
  | .portCfg _ => [(0, 0, .rwl), (1, 1, .w1s)]
  | .linkCfg _ => [(15, 0, .rw)]
  | .linkStatus _ => [(0, 0, .ro), (1, 1, .ro), (5, 2, .ro), (6, 6, .ro), (7, 7, .ro), (8, 8, .ro)]
  | .page _ 0 => [(10, 0, .rw)]
  | .page _ 1 => [(51, 12, .rw)]
  | .page _ 2 => [(51, 12, .rw)]
  | .page _ 3 => [(4, 0, .rw), (9, 5, .rw), (19, 10, .rw), (30, 20, .rw), (31, 31, .rw), (32, 32, .rw), (41, 33, .rw), (44, 42, .rw), (52, 45, .rw)]
  | .page _ 4 => [(0, 0, .ro), (1, 1, .ro), (31, 16, .ro), (63, 32, .w1c)]
  | .page _ 5 => [(0, 0, .wo), (1, 1, .wo), (25, 16, .ro), (31, 31, .ro)]
  | .page _ 6 => [(6, 0, .ro)]
  | .page _ 7 => [(9, 0, .rw), (19, 16, .rw)]
  | .page _ 8 => [(2, 0, .ro), (3, 3, .ro), (31, 16, .ro), (63, 32, .ro)]
  | .page f 9 => [(35, 0, if f % 64 = 0 then .rw else .ro)]
  | .page _ 10 => [(2, 0, .ro), (6, 3, .ro), (7, 7, .ro), (39, 8, .ro), (51, 40, .ro), (62, 52, .ro)]
  | .page _ 11 => [(51, 36, .rw)]
  | .page _ 12 => [(9, 0, .rw), (15, 15, .rw)]
  | .page _ _ => []
  | .ctxLimit _ v => [(6, 0, if v = 0 then .ro else .rw)]
  | .cxpPort _ => [(0, 0, .rw), (15, 8, .rw)]
  | .cxpStatus _ => [(0, 0, .ro), (4, 1, .ro), (5, 5, .ro), (47, 16, .w1c)]
  | .winSelect => [(4, 0, .rw)]
  | .winStatus => [(2, 0, .ro), (6, 3, .ro), (8, 7, .ro), (32, 16, .ro), (48, 33, .ro)]
  | .trustRoot _ => [(63, 0, .rw)]
  | .errCount _ _ => [(31, 0, .w1c), (47, 32, .w1c)]
  | .rasCfg => [(7, 0, .rw), (23, 8, .rw), (35, 24, .rw)]
  | .scrubCfg => [(7, 0, .rw), (31, 16, .w1c)]
  | .ppr _ => [(15, 0, .ro), (31, 16, .ro), (47, 32, .ro)]
  | .pcStatus _ => [(4, 0, .ro), (5, 5, .ro), (6, 6, .ro), (7, 7, .ro), (15, 8, .ro)]
  | .route _ _ => [(31, 0, .ro)]
  | .linkSelect => [(3, 0, .rw), (11, 4, .rw)]
  | .linkErr => [(31, 0, .w1c), (39, 32, .ro), (40, 40, .ro)]
  | .retrainCfg => [(7, 0, .rw)]
  | .discard _ _ => [(31, 0, .w1c)]
  | .time => [(63, 0, .ro)]
  | .epochOffset => [(62, 0, .ro), (63, 63, .ro)]
  | .todSet => [(47, 0, .rw)]
  | .refCfg => [(0, 0, .rw), (1, 1, .rw)]
  | .refStatus => [(1, 0, .ro), (2, 2, .ro), (3, 3, .ro), (4, 4, .ro), (31, 16, .w1c), (47, 32, .w1c)]
  | .ptpCfg => [(7, 0, .rw), (9, 8, .rw)]
  | .treeDelay _ => [(23, 0, .ro)]
  | .beaconErr _ => [(31, 0, .w1c), (63, 32, .w1c)]
  | .stretch _ _ => [(31, 0, .w1c), (63, 32, .w1c)]
  | .xingIndex => [(7, 0, .rw)]
  | .xingEntry => [(3, 0, .ro), (8, 4, .w1c), (9, 9, .ro), (10, 10, .ro), (15, 12, .ro), (19, 16, .ro), (23, 20, .ro), (31, 24, .w1c), (63, 32, .w1c)]
  | .syncLate _ => [(31, 0, .w1c)]
  | .vid _ _ => [(7, 0, .ro), (15, 8, .ro), (23, 16, .ro)]
  | .phase _ => [(63, 0, .ro)]
  | .regionStatus _ => [(2, 0, .ro), (6, 3, .ro), (10, 7, .ro), (14, 11, .ro), (30, 15, .ro), (40, 31, .ro), (41, 41, .ro), (43, 42, .ro)]
  | .panelLimit => [(15, 0, .rw)]
  | .seqCfg => [(13, 0, .rw)]
  | .bpmStatus => [(0, 0, .ro), (1, 1, .ro), (2, 2, .ro), (3, 3, .ro), (4, 4, .ro), (31, 16, .w1c)]
  | .hsSelect => [(4, 0, .rw), (9, 5, .rw), (11, 10, .rw)]
  | .hsStatus => [(11, 0, .ro), (23, 12, .ro), (35, 24, .ro), (47, 36, .ro), (48, 48, .ro), (49, 49, .ro), (50, 50, .ro)]
  | .coolantStatus => [(9, 0, .ro), (19, 10, .ro), (28, 20, .ro), (37, 29, .ro), (47, 38, .ro), (57, 48, .ro), (58, 58, .ro), (62, 59, .ro)]
  | .thresh => [(6, 0, .rw), (14, 8, .rw), (22, 16, .rw), (30, 24, .rw)]
  | .rotateCfg => [(0, 0, .rw), (31, 16, .w1c)]
  | .fusePolicy _ => [(63, 0, .ro)]
  | .debugStatus => [(0, 0, .ro), (1, 1, .ro), (17, 2, .ro), (63, 24, .ro)]
  | .pewterStatus => [(2, 0, .ro), (5, 3, .ro), (63, 32, .ro)]
  | .leaseCtl => [(0, 0, .wo)]
  | .netCfg i => [(47, 0, .ro), (49, 49, .rw)] ++ (if i = 0 then [(48, 48, .rw)] else [])
  | .netStatus _ => [(0, 0, .ro), (31, 16, .w1c), (47, 32, .w1c)]
  | .logStatus => [(13, 0, .ro), (63, 32, .w1c)]
  | .spdmCfg => [(15, 0, .rw), (23, 16, .rw)]
  | .rcvCtrl => [(0, 0, .wo), (1, 1, .wo), (31, 8, .wo)]
  | .rcvData => [(31, 0, .wo)]
  | .rcvStatus => [(1, 0, .ro), (7, 4, .ro), (31, 8, .ro)]
  | .clu o => match o with
    | 0 => [(12, 0, .rw), (13, 13, .rw), (17, 14, .rw), (22, 18, .rw), (27, 23, .rw)]
    | 1 => [(2, 0, .ro)]
    | 2 => [(7, 0, .ro), (23, 8, .ro), (37, 24, .ro)]
    | 3 => [(31, 0, .ro)]
    | 4 | 5 | 6 | 11 => [(63, 0, .ro)]
    | 7 | 8 | 9 | 10 => [(31, 0, .w1c), (63, 32, .w1c)]
    | 12 => [(31, 0, .w1c)]
    | 13 => [(15, 0, .w1c)]
    | 14 => [(15, 0, .ro), (23, 16, .ro), (24, 24, .ro), (25, 25, .ro)]
    | 15 => [(6, 0, .rw), (14, 8, .rw)]
    | 16 | 17 | 18 => [(31, 0, .ro), (63, 32, .ro)]
    | 19 => [(31, 0, .ro)]
    | 20 => [(31, 0, .ro)]
    | 21 => [(7, 0, .ro), (15, 8, .ro), (28, 16, .ro), (63, 32, .ro)]
    | 22 => [(7, 0, .ro), (15, 8, .ro)]
    | _ => []
  | .faultInfo _ => [(3, 0, .ro), (16, 4, .ro), (30, 17, .ro)]

/-- The bits of a field. -/
def fieldMask (f : Nat × Nat × Acc) : Nat := 2 ^ (f.1 + 1) - 2 ^ f.2.1

/-- The bits of a register's fields of the types that satisfy a test. -/
def maskWhere (r : SetupReg) (p : Acc → Bool) : Word := BitVec.ofNat 64 (((fieldsOf r).filter (fun f => p f.2.2)).map fieldMask).sum

/-- Bits that hold a value a write stores. -/
def storedMask (r : SetupReg) : Word := maskWhere r (fun a => match a with
  | .rw | .rwl | .w1s => true
  | _ => false)

/-- Bits that no field has (R14). -/
def reservedMask (r : SetupReg) : Word := ~~~(maskWhere r (fun _ => true))

/-- Whether a stored field of the register crosses bit 32 (R562). -/
def crossesHalf (r : SetupReg) : Bool := (fieldsOf r).any (fun f => decide (f.2.1 < 32) && decide (32 ≤ f.1) && match f.2.2 with
  | .rw | .rwl => true
  | _ => false)

/-! ## Selectors (R559, R564) -/

/-- An accessor's number: the lease holder for the operator, a function, a core. -/
def accNo : Agent → Nat
  | .operator _ _ => 0
  | .function f _ => f + 1
  | .core n => 1025 + n

def selKey (acc off : Nat) : Nat := acc * 2 ^ 32 + off

/-- An accessor's copy of a selector. -/
def State.sel (s : State) (acc off : Nat) : Word := Tbl.get (fun _ => 0) s.sels (selKey acc off)
def State.setSel (s : State) (acc off : Nat) (v : Word) : State := { s with sels := Tbl.set (fun _ => 0) s.sels (selKey acc off) v }

def pageOff (f : Nat) : Nat := 0x1000000 + f * 0x10000
def prtOff (p : Nat) : Nat := 0x100000 + p * 0x10000

/-- The queue pair and the context an accessor has selected in a function page; the error queue in a partition block. -/
def State.selQp (s : State) (acc f : Nat) : Nat := (s.sel acc (pageOff f)).toNat % 2048
def State.selCtx (s : State) (acc f : Nat) : Nat := bitsOf (s.sel acc (pageOff f + 0x38)) 9 0
def State.selSlot (s : State) (acc f : Nat) : Nat := bitsOf (s.sel acc (pageOff f + 0x38)) 19 16
def State.selErrq (s : State) (acc p : Nat) : Nat := (s.sel acc (prtOff p + 0x48)).toNat % 32

/-- Whether a function may see a context in its page: its own, or in a physical function's page one of its virtual
functions'. -/
def State.seesCtx (s : State) (f x : Nat) : Bool :=
  decide ((s.ctx x).st ≠ .free) && ((s.ctx x).fn == f || (f % 64 == 0 && fnLink (s.ctx x).fn == fnLink f))

/-- Whether a value is in a selector's range for an accessor. -/
def State.selectorOk (s : State) (a : Agent) (r : SetupReg) (v : Word) : Bool :=
  match r with
  | .cmapIndex => decide (bitsOf v 12 4 < 288)
  | .prt _ _ => decide (bitsOf v 4 0 ≤ 16) && (match a with
      | .function f _ => bitsOf v 4 0 == 16 || bitsOf v 4 0 == fnLink f
      | _ => true)
  | .page f 0 => !(s.qp (bitsOf v 10 0)).configured || (s.qp (bitsOf v 10 0)).fn == f
  | .page f _ => s.seesCtx f (bitsOf v 9 0)
  | .linkSelect => decide (bitsOf v 11 4 < 115)
  | .hsSelect => decide (bitsOf v 4 0 ≤ 16) && decide (bitsOf v 9 5 ≤ (if bitsOf v 4 0 = 16 then 14 else 22))
  | .clu _ => decide (bitsOf v 12 0 < 4608) && (!bitOf v 13 || (decide (bitsOf v 22 18 < 19) && decide (bitsOf v 27 23 < 18)))
  | _ => true

def isSelector : SetupReg → Bool
  | .cmapIndex | .prt _ 9 | .page _ 0 | .page _ 7 | .winSelect | .linkSelect | .xingIndex | .hsSelect | .clu 0 => true
  | _ => false

/-! ## What registers read as -/

/-- Fields packed into a word: low bit and value of each. -/
def pack (fs : List (Nat × Nat)) : Word := BitVec.ofNat 64 (fs.map (fun f => f.2 * 2 ^ f.1)).sum

/-- The position of a CLU_SELECT: the logical cluster whose map entry names it, where one does. -/
def State.clusterAtSite (s : State) (r k p : Nat) : Option Nat :=
  (clustersOfRegion r).find? (fun c => !s.vacant c && entrySite (s.cmapEntry r (localOf c)) == k && entryPos (s.cmapEntry r (localOf c)) == p)

/-- The cluster an accessor's CLU_SELECT shows; none for a Reserve or Failed position that no logical number names. -/
def State.selCluster (s : State) (acc : Nat) : Option Nat :=
  let v := s.sel acc 0xB00000
  if bitOf v 13 then s.clusterAtSite (bitsOf v 17 14) (bitsOf v 22 18) (bitsOf v 27 23) else some (bitsOf v 12 0)

/-- The state code of a position that no logical cluster stands on (Table 2.5). -/
def State.spareState (s : State) (r k p : Nat) : Nat :=
  if positionOk (s.region r) k p = false then 7
  else match (s.region r).pstate with
    | .park | .dark => 0
    | _ => 1

/-- Signed fields in two's complement. -/
def twos (n : Nat) (v : Int) : Nat := (v.emod (2 ^ n)).toNat

def PState.code : PState → Nat
  | .run => 0
  | .hold => 1
  | .quiet => 2
  | .park => 3
  | .dark => 4

def Role.code : Role → Nat
  | .holder => 0
  | .inStep => 1
  | .syncing => 2
  | .mismatch => 3
  | .absent => 4

def WState.code : WState → Nat
  | .free => 0
  | .zeroing => 1
  | .online => 2
  | .offline => 3
  | .lost => 4

def ErrQ.cfgWord (q : ErrQ) : Word :=
  pack [(0, q.log2), (8, q.minClass), (11, q.enable.toNat), (16, q.vector), (32, q.hart), (41, q.file), (44, q.identity)]

def State.errq (s : State) (p e : Nat) : ErrQ := Tbl.get (fun _ => {}) (s.part p).errqs e
def State.setErrq (s : State) (p e : Nat) (q : ErrQ) : State := s.modPart p (fun v => { v with errqs := Tbl.set (fun _ => {}) v.errqs e q })

/-- A PRT_ register by its place in the block (Table 21.3). -/
def State.readPrt (s : State) (acc p : Nat) : Nat → Word
  | 0 => BitVec.ofNat 64 (s.part p).journalBase
  | 1 => pack [(0, (s.part p).journalGib), (8, (s.part p).journalReserve)]
  | 2 =>
    let v := s.part p
    let used := recordUnits (trimRecords v s.ckpted v.journal)
    pack [(0, v.journalHead / 64), (24, (v.journalHead + v.ringUnits - used) % (max 1 v.ringUnits) / 64), (48, s.journalFree p / 2 ^ 18)]
  | 3 => match (s.part p).resident with
    | some x => BitVec.ofNat 64 (s.ckptNeeds x)
    | none => 0
  | 4 => pack [(0, (s.part p).interleave.toNat)]
  | 5 => pack [(0, (s.part p).quantum)]
  | 7 => pack [(0, (s.part p).shareAllow.toNat), (16, (s.part p).shardTimeout)]
  | 9 => s.sel acc (prtOff p + 0x48)
  | 10 => (s.errq p (s.selErrq acc p)).base
  | 11 => (s.errq p (s.selErrq acc p)).cfgWord
  | 12 => pack [(0, (s.errq p (s.selErrq acc p)).head)]
  | 13 => let q := s.errq p (s.selErrq acc p); pack [(0, q.tail), (16, q.cfgError.toNat), (32, q.lost.toNat)]
  | _ => 0

/-- A function page register by its place (Table 21.5). -/
def State.readPage (s : State) (acc f : Nat) : Nat → Word
  | 0 => s.sel acc (pageOff f)
  | 1 => (s.qp (s.selQp acc f)).sqBase
  | 2 => (s.qp (s.selQp acc f)).cqBase
  | 3 => (s.qp (s.selQp acc f)).cfg
  | 4 => let v := s.qp (s.selQp acc f); pack [(0, v.enabled.toNat), (1, v.cfgError.toNat), (16, v.fetch), (32, v.badDoorbell.toNat)]
  | 5 => pack [(16, (s.fn f).lastCtx.toNat), (31, (s.fn f).createError.toNat)]
  | 6 => pack [(0, s.ctxLimit f)]
  | 7 => s.sel acc (pageOff f + 0x38)
  | 8 => let x := s.ctx (s.selCtx acc f)
         pack [(0, x.st.code), (3, (decide (x.st ≠ .free) && !x.debugOpen).toNat), (16, x.lastError), (32, x.epoch)]
  | 9 => BitVec.ofNat 64 (s.ctx (s.selCtx acc f)).quota
  | 10 =>
    let x := s.selCtx acc f
    let v := s.slot x (s.selSlot acc f)
    let pins := (s.qpsOf x).filter (fun q => (s.qp q).enabled && (s.qp q).epoch == v.epoch)
    pack [(0, v.state.code), (3, v.layout), (7, v.still.toNat), (8, v.epoch), (40, pins.length), (52, (pins.foldl min 2047))]
  | 11 => (s.fn f).apertureBase
  | 12 => pack [(0, (s.fn f).apertureCtx), (15, (s.fn f).apertureValid.toNat)]
  | _ => 0

/-- A CLU_ register of a logical cluster (Table 21.11). -/
def State.readClu (s : State) (c : Nat) : Nat → Word
  | 1 => pack [(0, (s.cl c).st.code)]
  | 2 => let v := (s.cl c).trap; pack [(0, v.cause.toNat), (8, v.sw.toNat), (24, v.row.toNat)]
  | 3 => pack [(0, (s.cl c).trap.pc.toNat)]
  | 4 => (s.region (regionOf c)).cycle
  | 5 => s.tickCounter c
  | 6 => (s.cl c).cnt.retired
  | 7 => let v := (s.cl c).cnt; pack [(0, v.sqMispredict.toNat), (32, v.sqTrap.toNat)]
  | 8 => let v := (s.cl c).cnt; pack [(0, v.sqStale.toNat), (32, v.sqAbort.toNat)]
  | 9 => pack [(0, (s.cl c).cnt.sqSwitch.toNat)]
  | 10 => let v := (s.cl c).cnt; pack [(0, v.raStale.toNat), (32, v.crcMismatch.toNat)]
  | 11 => (s.cl c).cnt.waitTicks
  | 12 => pack [(0, (s.cl c).cnt.portConflict.toNat)]
  | 13 => pack [(0, (s.cl c).cnt.parity.toNat)]
  | 14 => let h := (s.cl c).health; pack [(0, ageMean h), (16, h.ageSamples.length), (24, h.warn.toNat), (25, h.migrate.toNat)]
  | 15 => s.reg 0xB00078
  | 16 => let v := (s.cl c).ev; pack [(0, v.sat.toNat), (32, v.nanOut.toNat)]
  | 17 => let v := (s.cl c).ev; pack [(0, v.nanScale.toNat), (32, v.nanToInt.toNat)]
  | 18 => let v := (s.cl c).ev; pack [(0, v.residue.toNat), (32, v.range.toNat)]
  | 19 => pack [(0, (s.cl c).ev.below.toNat)]
  | 20 => pack [(0, (s.cl c).ev.late.toNat)]
  | 21 => let v := (s.cl c).fab.fault; pack [(0, v.cause.toNat), (8, v.more.toNat), (16, v.dst.toNat), (32, v.pc.toNat)]
  | 22 => let h := (s.cl c).health; pack [(0, h.redirected.length), (8, h.spareLeft)]
  | _ => 0

/-- What a register reads as for an accessor. -/
def State.readReg (s : State) (acc : Nat) : SetupReg → Word
  | .ident => BitVec.ofNat 64 s.ident
  | .cmapIndex => s.sel acc 8
  | .cmapEntry => (s.cmapEntry (bitsOf (s.sel acc 8) 3 0) (bitsOf (s.sel acc 8) 12 4)).setWidth 64
  | .bootStatus =>
    let b := s.boot
    pack [(0, b.event), (4, b.complete.toNat), (5, b.stopped.toNat), (6, b.glitch.toNat), (8, min 255 b.diesFailed), (16, min 65535 b.condemned),
          (32, min 65535 b.linksOut)]
  | .resetCtl => 0
  | .prt p o => s.readPrt acc p o
  | .portCfg p => pack [(0, (s.port p).split.toNat), (1, (s.port p).lock.toNat)]
  | .linkCfg l => pack [(0, (s.link l).cplTimeout)]
  | .linkStatus l =>
    let v := s.link l
    pack [(0, v.up.toNat), (1, v.part.isSome.toNat), (2, v.part.getD 0), (6, v.mgmtLost.toNat), (7, v.bootFailed.toNat), (8, v.fatal.toNat)]
  | .page f o => s.readPage acc f o
  | .ctxLimit f v => pack [(0, s.ctxLimit (f + v))]
  | .cxpPort p => pack [(0, (s.cxl p).ideRequired.toNat), (8, (s.cxl p).ideRekey)]
  | .cxpStatus p =>
    let v := s.cxl p
    pack [(0, v.up.toNat), (1, v.devices.length + v.unconfigured.length), (5, v.classical.toNat), (16, v.timeouts.toNat)]
  | .winSelect => s.sel acc 0x300080
  | .winStatus =>
    let v := s.win (s.sel acc 0x300080).toNat
    pack [(0, v.st.code), (3, v.part), (7, Nat.log2 (max 1 v.devs.length)), (16, v.size), (33, v.base)]
  | .trustRoot k => s.reg (0x300100 + 8 * k)
  | .errCount k q => pack [(0, Tbl.get (fun _ => 0) (s.hbm k).corrected q), (32, min 65535 (Tbl.get (fun _ => 0) (s.hbm k).uncorrectable q))]
  | .rasCfg => s.reg 0x402000
  | .scrubCfg => s.reg 0x402008
  | .ppr k => pack [(0, (s.hbm k).soft), (16, (s.hbm k).hard), (32, (s.hbm k).remaining)]
  | .pcStatus k =>
    let v := s.hbm k
    pack [(0, v.retiredPc.getD 0), (5, v.retiredPc.isSome.toNat), (6, v.pending.toNat), (7, v.failed.toNat), (8, v.temp % 256)]
  | .route r d => (s.route r d).setWidth 64
  | .linkSelect => s.sel acc 0x500800
  | .linkErr =>
    let w := s.sel acc 0x500800
    let v := s.fabLink (bitsOf w 3 0) (bitsOf w 11 4)
    if linkExists (bitsOf w 3 0) (bitsOf w 11 4) then pack [(0, v.crcDiscards.toNat), (32, v.repairs), (40, v.outOfService.toNat)] else 0
  | .retrainCfg => s.reg 0x500810
  | .discard r c => (Tbl.get (fun _ => (0 : BitVec 32)) s.discards (r * 16 + c)).setWidth 64
  | .time => BitVec.ofNat 64 s.now
  | .epochOffset => pack [(0, s.tb.epochOffset.toNat), (63, s.tb.epochValid.toNat)]
  | .todSet => s.tb.todSet.setWidth 64
  | .refCfg => pack [(0, s.tb.primary.toNat), (1, s.tb.revert.toNat)]
  | .refStatus =>
    let v := s.tb
    pack [(0, v.ref.code), (2, v.source.toNat), (3, v.aQualified.toNat), (4, v.bQualified.toNat), (16, v.aDiscards.toNat), (32, v.bDiscards.toNat)]
  | .ptpCfg => pack [(0, s.tb.ptpDomain.toNat), (8, s.tb.ptpPorts.toNat)]
  | .treeDelay d => (s.domain d).treeDelay.setWidth 64
  | .beaconErr d => pack [(0, (s.domain d).ignored.toNat), (32, (s.domain d).large.toNat)]
  | .stretch d w =>
    let v := s.domain d
    if w = 0 then pack [(0, v.stretch125.toNat), (32, v.stretch150.toNat)] else pack [(0, v.droopGates.toNat), (32, v.gatedPeriods.toNat)]
  | .xingIndex => s.sel acc 0x600500
  | .xingEntry =>
    let x := (s.sel acc 0x600500).toNat
    let v := s.xing x
    if crossingPresent x then
      pack [(0, v.latency), (4, v.fifoPeak), (9, 1), (10, v.outOfService.toNat), (12, v.txStep), (16, v.rxStep), (20, v.attempts), (24, v.maxSlip), (32, v.slips)]
    else 0
  | .syncLate r => (s.region r).syncLate.setWidth 64
  | .vid r st => s.reg (0x700000 + 8 * (9 * r + st))
  | .phase r => (s.region r).phases
  | .regionStatus r =>
    let v := s.region r
    pack [(0, v.pstate.code), (3, v.step), (7, v.budget.maxStep), (11, v.thermalCap), (15, v.budget.measured % 65536), (31, v.blocker.getD 0),
          (41, v.blocker.isSome.toNat), (42, v.darkTrips)]
  | .panelLimit => s.reg 0x700580
  | .seqCfg => s.reg 0x700588
  | .bpmStatus =>
    let v := s.bpm
    pack [(0, v.lostN.toNat), (1, v.lostS.toNat), (2, v.pg.toNat), (3, v.present.toNat), (4, v.hold.toNat), (16, v.discards.toNat)]
  | .hsSelect => s.sel acc 0x800000
  | .hsStatus =>
    let w := s.sel acc 0x800000
    let v := s.hotSpot (bitsOf w 4 0) (hotKey (bitsOf w 9 5) (bitsOf w 11 10))
    pack [(0, twos 12 v.diode), (12, twos 12 v.ring), (24, twos 12 v.reading), (36, twos 12 v.filtered), (48, v.diodeValid.toNat), (49, v.ringValid.toNat),
          (50, v.flagged.toNat)]
  | .coolantStatus =>
    let v := s.cool
    pack [(0, v.last.flow0.getD 0), (10, v.last.flow1.getD 0), (20, v.last.dp0.getD 0), (29, v.last.dp1.getD 0), (38, v.last.inlet.getD 0 % 1024),
          (48, v.last.outlet.getD 0 % 1024), (58, v.falling.toNat), (59, v.cap)]
  | .thresh => s.reg 0x800018
  | .rotateCfg => s.reg 0x800020
  | .fusePolicy w => BitVec.ofNat 64 (s.sec.policy / 2 ^ (64 * w))
  | .debugStatus => BitVec.ofNat 64 s.sec.debugStatus
  | .pewterStatus => pack [(0, s.mgt.north.role.code), (3, s.mgt.south.role.code), (32, s.mgt.epoch)]
  | .leaseCtl => 0
  | .netCfg i => s.reg (0xA00010 + 8 * i)
  | .netStatus i => pack [(0, (s.portUp i).toNat), (32, s.mgt.msgDiscards.toNat)]
  | .logStatus => pack [(0, s.mgt.log.length), (32, s.mgt.logLost.toNat)]
  | .spdmCfg => s.reg 0xA00038
  | .rcvCtrl => 0
  | .rcvData => 0
  | .rcvStatus => pack [(0, s.mgt.mailbox.state), (4, s.mgt.mailbox.fail), (8, s.mgt.mailbox.offset)]
  | .clu 0 => s.sel acc 0xB00000
  | .clu 15 => s.reg 0xB00078
  | .clu o => match s.selCluster acc with
    | some c => s.readClu c o
    | none => if o = 1 then
        let v := s.sel acc 0xB00000
        BitVec.ofNat 64 (s.spareState (bitsOf v 17 14) (bitsOf v 22 18) (bitsOf v 27 23)) else 0
  | .faultInfo n => (s.core n).fault.setWidth 64

/-! ## Writes (R12, R560 to R564) -/

/-- A counter field cleared where the write holds a 1 in it. -/
def clearIf (v : Word) (hi lo : Nat) {α : Type} (zero old : α) : α := if bitsOf v hi lo ≠ 0 then zero else old

/-- The W1C fields of a register cleared by a write (R561). -/
def State.clearFields (s : State) (acc : Nat) (r : SetupReg) (v : Word) : State :=
  match r with
  | .bootStatus => { s with boot := { s.boot with glitch := clearIf v 6 6 false s.boot.glitch } }
  | .prt p 13 =>
    let q := s.errq p (s.selErrq acc p)
    s.setErrq p (s.selErrq acc p) { q with lost := clearIf v 63 32 0 q.lost }
  | .page f 4 => s.modQp (s.selQp acc f) (fun w => { w with badDoorbell := clearIf v 63 32 0 w.badDoorbell })
  | .cxpStatus p => s.modCxl p (fun w => { w with timeouts := clearIf v 47 16 0 w.timeouts })
  | .errCount k q => s.modHbm k (fun w => { w with
      corrected := if bitsOf v 31 0 ≠ 0 then Tbl.set (fun _ => 0) w.corrected q 0 else w.corrected,
      uncorrectable := if bitsOf v 47 32 ≠ 0 then Tbl.set (fun _ => 0) w.uncorrectable q 0 else w.uncorrectable })
  | .scrubCfg => if bitsOf v 31 16 ≠ 0 then s.setReg 0x402008 (BitVec.ofNat 64 ((s.reg 0x402008).toNat % 65536)) else s
  | .linkErr =>
    let w := s.sel acc 0x500800
    s.modFabLink (bitsOf w 3 0) (bitsOf w 11 4) (fun e => { e with crcDiscards := clearIf v 31 0 0 e.crcDiscards })
  | .discard r c => if bitsOf v 31 0 ≠ 0 then { s with discards := Tbl.set (fun _ => 0) s.discards (r * 16 + c) 0 } else s
  | .refStatus => { s with tb := { s.tb with aDiscards := clearIf v 31 16 0 s.tb.aDiscards, bDiscards := clearIf v 47 32 0 s.tb.bDiscards } }
  | .beaconErr d => s.modDomain d (fun w => { w with ignored := clearIf v 31 0 0 w.ignored, large := clearIf v 63 32 0 w.large })
  | .stretch d 0 => s.modDomain d (fun w => { w with stretch125 := clearIf v 31 0 0 w.stretch125, stretch150 := clearIf v 63 32 0 w.stretch150 })
  | .stretch d _ => s.modDomain d (fun w => { w with droopGates := clearIf v 31 0 0 w.droopGates, gatedPeriods := clearIf v 63 32 0 w.gatedPeriods })
  | .xingEntry => s.modXing (s.sel acc 0x600500).toNat (fun w => { w with
      fifoPeak := clearIf v 8 4 0 w.fifoPeak, maxSlip := clearIf v 31 24 0 w.maxSlip, slips := clearIf v 63 32 0 w.slips })
  | .syncLate r => s.modRegion r (fun w => { w with syncLate := clearIf v 31 0 0 w.syncLate })
  | .bpmStatus => { s with bpm := { s.bpm with discards := clearIf v 31 16 0 s.bpm.discards } }
  | .rotateCfg => if bitsOf v 31 16 ≠ 0 then s.setReg 0x800020 (BitVec.ofNat 64 ((s.reg 0x800020).toNat % 65536)) else s
  | .netStatus _ => { s with mgt := { s.mgt with msgDiscards := clearIf v 47 32 0 s.mgt.msgDiscards } }
  | .logStatus => { s with mgt := { s.mgt with logLost := clearIf v 63 32 0 s.mgt.logLost } }
  | .clu o => match s.selCluster acc with
    | some c => s.modCl c (fun w => { w with cnt := match o with
        | 7 => { w.cnt with sqMispredict := clearIf v 31 0 0 w.cnt.sqMispredict, sqTrap := clearIf v 63 32 0 w.cnt.sqTrap }
        | 8 => { w.cnt with sqStale := clearIf v 31 0 0 w.cnt.sqStale, sqAbort := clearIf v 63 32 0 w.cnt.sqAbort }
        | 9 => { w.cnt with sqSwitch := clearIf v 31 0 0 w.cnt.sqSwitch }
        | 10 => { w.cnt with raStale := clearIf v 31 0 0 w.cnt.raStale, crcMismatch := clearIf v 63 32 0 w.cnt.crcMismatch }
        | 12 => { w.cnt with portConflict := clearIf v 31 0 0 w.cnt.portConflict }
        | 13 => { w.cnt with parity := clearIf v 15 0 0 w.cnt.parity }
        | _ => w.cnt })
    | none => s
  | _ => s

/-- A field of a value within a range. -/
def inRange (v : Word) (hi lo a b : Nat) : Bool := decide (a ≤ bitsOf v hi lo) && decide (bitsOf v hi lo ≤ b)

/-- Whether an HBM address lies in the slice of a region of a partition. -/
def State.inSlices (s : State) (p a n : Nat) : Bool :=
  (s.part p).regions.any (fun r => decide (r * s.sliceSize ≤ a) && decide (a + n ≤ (r + 1) * s.sliceSize))

/-- Whether a stack of a partition is failed or has a retired pseudo-channel (R338). -/
def State.stackOut (s : State) (p : Nat) : Bool :=
  (s.part p).regions.any (fun r => [2 * r, 2 * r + 1].any (fun k => (s.hbm k).failed || (s.hbm k).retiredPc.isSome))

/-- Whether a new value of a register is one its fields and the other chapters allow at this moment (R563). -/
def State.regOk (s : State) (acc : Nat) (r : SetupReg) (v : Word) : Bool :=
  match r with
  | .prt p 0 => (s.ctxsOf p).isEmpty && v.toNat % 2 ^ 30 == 0 && s.inSlices p v.toNat 1
  | .prt p 1 => (s.ctxsOf p).isEmpty && inRange v 6 0 1 64 && inRange v 10 8 1 4
  | .prt p 4 => (s.ctxsOf p).isEmpty && !(bitOf v 0 && s.stackOut p)
  | .prt _ 5 => inRange v 9 0 1 1000
  | .prt _ 7 => inRange v 31 16 100 60000
  | .prt p 11 => inRange v 10 8 0 5 && inRange v 4 0 4 16 && (inRange v 51 44 1 255 || decide (s.selErrq acc p < 16)) && inRange v 40 32 0 383
  | .linkCfg _ => inRange v 15 0 1 1000
  | .page f 1 => !(s.qp (s.selQp acc f)).enabled
  | .page f 2 => !(s.qp (s.selQp acc f)).enabled
  | .page f 3 => !(s.qp (s.selQp acc f)).enabled && !bitOf v 31
  | .page f 9 => s.seesCtx f (s.selCtx acc f)
  | .page f 12 => !bitOf v 15 || s.ownsCtx f (bitsOf v 9 0)
  | .ctxLimit _ _ => inRange v 6 0 0 112
  | .cxpPort _ => inRange v 15 8 1 168
  | .rasCfg => inRange v 7 0 1 255 && inRange v 23 8 16 65535 && inRange v 35 24 1 3600
  | .scrubCfg => inRange v 7 0 1 168
  | .retrainCfg => inRange v 7 0 1 255
  | .panelLimit => inRange v 15 0 800 (if s.variant36 then 2560 else 2600)
  | .seqCfg => inRange v 13 0 10 10000
  | .thresh => inRange v 6 0 80 95 && inRange v 14 8 85 100 && inRange v 22 16 70 85 && inRange v 30 24 80 95 &&
      decide (bitsOf v 6 0 < bitsOf v 14 8) && decide (bitsOf v 22 16 < bitsOf v 30 24)
  | .spdmCfg => inRange v 23 16 1 255
  | _ => true

/-- A refused write: thresholds and panel-wide interleave have an event of their own, any other is an input violation
(R338, R494, R555). -/
def State.refuseReg (s : State) (r : SetupReg) (off : Nat) (v : Word) : State :=
  match r with
  | .thresh => s.note 0x0C08 { detail := [off] }
  | .prt p 4 => if bitOf v 0 && s.stackOut p then s.note 0x0605 { part := p, detail := [p] } else s.violation off v.toNat
  | _ => s.violation off v.toNat

/-- A function's hold on the queue pair it has selected: a free one becomes its own. -/
def State.modOwnQp (s : State) (acc f : Nat) (g : Qp → Qp) : State :=
  s.modQp (s.selQp acc f) (fun v => g { v with fn := f, configured := true })

/-- A register's stored fields take a new value. -/
def State.storeReg (s : State) (acc off : Nat) (r : SetupReg) (v : Word) : State :=
  match r with
  | .prt p 0 => s.modPart p (fun w => { w with journalBase := v.toNat, journalHead := 0 })
  | .prt p 1 => s.modPart p (fun w => { w with journalGib := bitsOf v 6 0, journalReserve := bitsOf v 10 8, journalHead := 0 })
  | .prt p 4 => s.modPart p (fun w => { w with interleave := bitOf v 0 })
  | .prt p 5 => s.modPart p (fun w => { w with quantum := bitsOf v 9 0 })
  | .prt p 7 => s.modPart p (fun w => { w with shareAllow := bitOf v 0, shardTimeout := bitsOf v 31 16 })
  | .prt p 10 =>
    let q := s.errq p (s.selErrq acc p)
    s.setErrq p (s.selErrq acc p) { q with base := v }
  | .prt p 11 =>
    let q := s.errq p (s.selErrq acc p)
    s.setErrq p (s.selErrq acc p) { q with log2 := bitsOf v 4 0, minClass := bitsOf v 10 8, enable := false, vector := bitsOf v 26 16,
                                           hart := bitsOf v 40 32, file := bitsOf v 43 41, identity := bitsOf v 51 44 }
  | .portCfg p => s.modPort p (fun w => { w with split := if w.lock then w.split else bitOf v 0, lock := w.lock || bitOf v 1 })
  | .linkCfg l => s.modLink l (fun w => { w with cplTimeout := bitsOf v 15 0 })
  | .page f 1 => s.modOwnQp acc f (fun w => { w with sqBase := v })
  | .page f 2 => s.modOwnQp acc f (fun w => { w with cqBase := v })
  | .page f 3 => s.modOwnQp acc f (fun w => { w with cfg := v })
  | .page f 9 => s.modCtx (s.selCtx acc f) (fun w => { w with quota := bitsOf v 35 0 })
  | .page f 11 => s.modFn f (fun w => { w with apertureBase := v })
  | .page f 12 => s.modFn f (fun w => { w with apertureCtx := bitsOf v 9 0, apertureValid := bitOf v 15 })
  | .ctxLimit f k => s.modFn (f + k) (fun w => { w with limit := bitsOf v 6 0 })
  | .cxpPort p => s.modCxl p (fun w => { w with ideRequired := bitOf v 0, ideRekey := bitsOf v 15 8 })
  | .refCfg => s.setTimebase { s.tb with primary := bitOf v 0, revert := bitOf v 1, primarySince := if bitOf v 0 = s.tb.primary then s.tb.primarySince else none }
  | .ptpCfg => { s with tb := { s.tb with ptpDomain := v.extractLsb' 0 8, ptpPorts := v.extractLsb' 8 2 } }
  | .trustRoot _ => s.setReg off v
  | .rasCfg => s.setReg off v
  | .scrubCfg => s.setReg off v
  | .retrainCfg => s.setReg off v
  | .panelLimit => s.setReg off v
  | .seqCfg => s.setReg off v
  | .thresh => s.setReg off v
  | .rotateCfg => s.setReg off v
  | .netCfg _ => s.setReg off v
  | .spdmCfg => s.setReg off v
  | _ => s

/-- Registers whose writes have commands of their own. -/
def ownCommand : SetupReg → Bool
  | .resetCtl | .prt _ 6 | .prt _ 8 | .prt _ 12 | .page _ 5 | .todSet | .leaseCtl | .rcvCtrl | .rcvData | .clu 15 => true
  | _ => false

/-- Whether a locked interface ignores writes to a register of its page (R454). -/
def lockedReg : SetupReg → Bool
  | .page _ 1 | .page _ 2 | .page _ 3 | .page _ 11 | .page _ 12 => true
  | _ => false

/-- PRT_ fields that a partition reset keeps (R560). -/
def keptByReset : SetupReg → Bool
  | .prt _ 0 | .prt _ 1 | .prt _ 4 | .prt _ 7 => true
  | _ => false

/-- A whole new value of a register is taken: selectors for the accessor alone, W1C fields cleared, the rest checked as a
whole and stored. -/
def State.takeReg (s : State) (a : Agent) (off : Nat) (r : SetupReg) (v : Word) : State :=
  let acc := accNo a
  if isSelector r then (if s.selectorOk a r v then s.setSel acc off v else s.violation off v.toNat)
  else
    let keep := s.readReg acc r &&& ~~~(storedMask r)
    let stored := v &&& storedMask r
    let w := stored ||| (keep &&& maskWhere r (fun k => match k with
      | .ro | .w1c => true
      | _ => false))
    if storedMask r = 0 then s.clearFields acc r v
    else if s.regOk acc r stored then (s.storeReg acc off r w).clearFields acc r v
    else s.refuseReg r off v

/-- A write of a partition's block: none is taken while it is not formed; during its reset those of kept fields wait for
its end, and others are discarded (R565). -/
def State.takePrt (s : State) (a : Agent) (off p : Nat) (r : SetupReg) (v : Word) : State :=
  if !(s.part p).formed then s
  else if (s.part p).resetting then
    (if keptByReset r then s.modPart p (fun w => { w with lateWrites := w.lateWrites ++ [(off, v)] }) else s)
  else s.takeReg a off r v

/-- Whether an agent reaches a register (R558, Table 21.1). -/
def State.reaches (s : State) (a : Agent) (r : SetupReg) : Bool :=
  match a with
  | .operator epoch _ => s.current epoch && s.holder.isSome
  | .function f t =>
    decide (f < 1024) && (s.link (fnLink f)).up && s.trustOk f t &&
    (match r with
     | .page g _ => g == f
     | .ctxLimit g _ => g == f
     | .linkCfg l => l == fnLink f && f % 64 == 0
     | .prt p _ => f % 64 == 0 && decide ((s.link (fnLink f)).part = some p)
     | _ => false)
  | .core _ => false

/-- The merged value of a 32-bit half write; a low half of a field that crosses bit 32 is held for its high half (R562). -/
def State.halfWrite (s : State) (a : Agent) (base : Nat) (r : SetupReg) (high : Bool) (held : Option Word) (v : Word) : State ⊕ Word :=
  let cur := s.readReg (accNo a) r &&& storedMask r
  let low := v.toNat % 2 ^ 32
  if high then .inr (BitVec.ofNat 64 ((held.getD cur).toNat % 2 ^ 32 + low * 2 ^ 32))
  else if crossesHalf r then .inl { s with halves := Tbl.set (fun _ => 0) s.halves (selKey (accNo a) base) (BitVec.ofNat 64 (low + 2 ^ 32)) }
  else .inr (BitVec.ofNat 64 (cur.toNat / 2 ^ 32 * 2 ^ 32 + low))

/-- The low half an accessor holds of a register. -/
def State.heldHalf (s : State) (acc base : Nat) : Option Word :=
  let h := Tbl.get (fun _ => (0 : Word)) s.halves (selKey acc base)
  if bitOf h 32 then some h else none

/-- A write to a setup register without behaviour of its own, 4 or 8 bytes wide and aligned (R11 to R14, R558 to R565). -/
def execSetupRegisterWrite (a : Agent) (off : Nat) (width : Nat) (v : Word) (s : State) : Result :=
  match a with
  | .core n => .next (if n < 384 then s.modCore n (fun c => { c with mcause := 7, tval := BitVec.ofNat 64 (0x3000000000000 + off) }) else s)
  | _ =>
    let acc := accNo a
    let base := off / 8 * 8
    let held := s.heldHalf acc base
    let t := { s with halves := Tbl.drop (fun k => k / 2 ^ 32 == acc) s.halves }
    if ¬(width = 8 ∧ off % 8 = 0 ∨ width = 4 ∧ off % 4 = 0) then .next (t.violation off v.toNat)
    else match setupReg base with
      | none => .next t
      | some r =>
        if !s.reaches a r || ownCommand r then .next t
        else
          let merged : State ⊕ Word := if width = 8 then .inr v else t.halfWrite a base r (off % 8 == 4) held v
          match merged with
          | .inl u => .next u
          | .inr w =>
            let owner := match r with
              | .page f _ => f
              | _ => 0
            if w &&& reservedMask r ≠ 0 then .next (t.violation off v.toNat)
            else if lockedReg r && s.lockedTdi owner then .next (t.tdiIgnores owner (base % 0x10000))
            else match r with
              | .prt p _ => .next (t.takePrt a base p r w)
              | _ => .next (t.takeReg a base r w)

/-! ## Error queues (R550 to R552) -/

/-- Whether an agent may set up an error queue of a partition: a physical function its own link's and the core queue. -/
def State.errqAgent (s : State) (a : Agent) (p e : Nat) : Bool :=
  decide (p < 16) && (s.part p).formed && !(s.part p).resetting && decide (e ≤ 16) && s.prtAgent a p &&
  (e == 16 || decide ((s.link e).part = some p)) &&
  match a with
  | .function f _ => e == 16 || e == fnLink f
  | _ => true

/-- An error queue is enabled: its size and base must fit, the core queue's ring lie in HBM of the partition. -/
def execPrtErrqCfgEnable (a : Agent) (p e : Nat) (base cfg : Word) (s : State) : Result :=
  if s.errqAgent a p e = false ∨ bitOf cfg 11 = false then .next s
  else if inRange cfg 10 8 0 5 = false then .next (s.violation (prtOff p + 0x58) cfg.toNat)
  else
    let q := s.errq p e
    let log2 := bitsOf cfg 4 0
    let place := decide (e < 16) || s.inSlices p base.toNat (32 * 2 ^ log2)
    if 4 ≤ log2 ∧ log2 ≤ 16 ∧ base.toNat % 4096 = 0 ∧ place = true then
      let n : ErrQ := { base := base, log2 := log2, minClass := bitsOf cfg 10 8, enable := true, vector := bitsOf cfg 26 16, hart := bitsOf cfg 40 32,
                        file := bitsOf cfg 43 41, identity := bitsOf cfg 51 44, lost := q.lost }
      .next (s.setErrq p e (if q.enable then { n with head := q.head, tail := q.tail, phase := q.phase, unreported := q.unreported } else n))
    else .next (s.setErrq p e { q with enable := false, cfgError := true })

/-- A head write frees space; the first that leaves a queue not full after losses raises 0x0003, to the log and to that
queue alone. -/
def execPrtErrqHead (a : Agent) (p e : Nat) (head : BitVec 16) (s : State) : Result :=
  let q := s.errq p e
  if s.errqAgent a p e = false then .next s
  else if 2 ^ q.log2 ≤ head.toNat then .next (s.violation (prtOff p + 0x60) head.toNat)
  else
    let q' := { q with head := head.toNat }
    let t := s.setErrq p e q'
    if 0 < q.unreported ∧ q'.full = false then
      let entry := t.entryOf 0x0003 { part := p, detail := [e, q.unreported] }
      .next (((t.setErrq p e { q' with unreported := 0 }).addLog entry).postErr p e entry)
    else .next t

/-! ## Partition resets (R542) -/

/-- PRT_RESET: every context of the partition is killed; one under way goes on. -/
def execPrtReset (a : Agent) (p : Nat) (s : State) : Result :=
  if decide (p < 16) && (s.part p).formed && s.prtAgent a p && !(s.part p).resetting then .next (s.resetPart p) else .next s

/-- Every kill has ended: the journal is emptied, the key replaced, every page the old key protected waits to be zeroed, and
reset complete is reported; held writes of kept fields are applied. -/
def execPartitionResetKillsDone (p : Nat) (s : State) : Result :=
  let v := s.part p
  if v.resetting && (s.ctxsOf p).isEmpty then
    let w := { v with journal := [], journalHead := 0, journalLow := false, stepSeq := 1, keyGen := s.sec.nextKey, resetting := false, lateWrites := [],
                      launches := [], resident := none, running := none, recovery := none, switching := none, pendingCause := none, testDue := [],
                      quantum := 10 }
    let t := s.setPart p w
    let t := { t with sec := { t.sec with nextKey := t.sec.nextKey + 1 }, zeroRuns := t.zeroRuns ++ (v.regions.map s.sliceRun) }
    let t := t.note 0x0809 { part := p }
    .next ((v.lateWrites.foldl (fun (t : State) e => match setupReg e.1 with
      | some r => t.takeReg (.operator t.mgt.epoch false) e.1 r e.2
      | none => t) t).boundaryWork p)
  else .next s

/-! ## LS_VDD18 (R582) -/

/-- LS_VDD18 out of tolerance: the low-speed pins float, reference A and TB_XO are lost; regions keep running. -/
def execLsVdd18Loss (s : State) : Result :=
  if s.boot.ls18 then
    let t := { s with boot := { s.boot with ls18 := false } }
    .next ((t.setTimebase t.tb.dropTen).note 0x1504 { detail := [24] } |>.setTimebase { (t.setTimebase t.tb.dropTen).tb with xoLost := true })
  else .next s

/-- It returns: pins, monitors and references recover by themselves. -/
def execLsVdd18Return (s : State) : Result :=
  .next { s with boot := { s.boot with ls18 := true }, tb := { s.tb with xoLost := false } }

end Sys2Proof.Machine
end

