-- ==== Sys2Proof/Machine/Boot.lean ====
section
/-! DEFINITION. Resets and bring-up (19): the cold and warm resets, the twelve events of Table 19.1 with their failures
(Table 19.2), die identity (01), and the resets of host ports. boot.event is the event under way. -/

namespace Sys2Proof.Machine

open Sys2Proof

/-! ## Resets of the panel (R540, R541, R560) -/

/-- What a fuse block holds of the policy is in force from a cold reset on (R438). -/
def Sec.afterCold (v : Sec) : Sec :=
  { cosign := v.cosignNext, revoked := v.revokedNext, svnMin := v.svnMinNext, opHash := v.opHashNext, opHashSet := v.opHashSet,
    cosignNext := v.cosignNext, revokedNext := v.revokedNext, svnMinNext := v.svnMinNext, opHashNext := v.opHashNext, nextKey := v.nextKey }

/-- A stack after a cold reset: its hard repairs, and the soft ones that training will make permanent (R343). -/
def Stack.afterCold (v : Stack) : Stack := { hard := v.hard, harden := v.harden + v.soft }

/-- A cold reset clears everything but fuses, flash contents and hard repairs (Table 19.3); pins keep their levels, and the
BPM keeps its recorded epoch (R514) and what it has switched on. -/
def State.coldReset (s : State) (held : Bool) : State :=
  { pending := s.pending, out := s.out, fresh := s.fresh, order := s.order, nextPkt := s.nextPkt, variant36 := s.variant36,
    enabled := s.enabled,
    hbms := Tbl.mapVal (fun _ => {}) (fun _ (v : Stack) => v.afterCold) s.hbms,
    ports := Tbl.mapVal (fun _ => {}) (fun _ (v : Port) => { perst := v.perst }) s.ports,
    bpm := { present := s.bpm.present, pg := s.bpm.pg, railsOn := s.bpm.railsOn, segmentsOn := s.bpm.segmentsOn },
    mgt := { bpmVote := s.mgt.bpmVote, flash := s.mgt.flash },
    sec := s.sec.afterCold,
    boot := { coldHeld := held, vaon := s.boot.vaon, ls18 := s.boot.ls18, serial := s.boot.serial } }

/-- The cold reset is released once VAON and LS_VDD18 are within tolerance (R576). -/
def execColdReset (s : State) : Result :=
  if s.boot.ls18 then
    let t := s.coldReset false
    .next { t with boot := { t.boot with vaon := true } }
  else .next s

/-- A shorter pulse of a reset pin is ignored and noted (Table 20.3). -/
def State.glitch (s : State) : State := { s with boot := { s.boot with glitch := true } }

def execPnlPorN (lowNs : Nat) (s : State) : Result := if 10000 ≤ lowNs then .next (s.coldReset true) else .next s.glitch

/-- VAON removed: the panel is Off and loses everything (Table 16.11). -/
def execVaonRemoval (s : State) : Result :=
  let t := s.coldReset true
  .next { t with boot := { t.boot with vaon := false }, bpm := { present := s.bpm.present } }

/-- The reference state is kept, the configuration of references is not (Table 19.3, R560). -/
def Timebase.afterWarm (v : Timebase) : Timebase :=
  { v with primary := false, revert := true, primarySince := if v.primary then none else v.primarySince, ptpDomain := 0, ptpPorts := 3 }

/-- What a region keeps over a warm reset: the epoch its steward has seen, its failed phases, and its records of going Dark
of itself, with which it is not powered again without a command (R469). -/
def Region.afterWarm (v : Region) : Region :=
  { epoch := v.epoch, phases := v.phases, darkTrips := v.darkTrips,
    inService := v.inService || !(decide (v.pstate = .dark) && (decide (0 < v.darkTrips) || phaseDark v.phases)) }

/-- A cluster keeps its row retirements (R105). -/
def Cluster.afterWarm (v : Cluster) : Cluster :=
  { health := { rowFails := v.health.rowFails, retiring := v.health.retiring, redirected := v.health.redirected, spareLeft := v.health.spareLeft } }

/-- A domain keeps its place in panel time, its tree delay and its stretch counters (R290); a region's first beacon after it
is powered again is exempt from the sequence check (R280). -/
def Domain.afterWarm (d : Nat) (v : Domain) : Domain :=
  { v with ignored := 0, large := 0, outOfService := false, tickLost := false, hold := false,
           lastBeacon := if d < 16 then none else v.lastBeacon, missed := 0 }

/-- A panel warm reset (Table 19.3, R541): links drop, regions go Dark, both Pewters reset, and bring-up starts again; the
timebase die runs on. -/
def State.warmReset (s : State) : State :=
  { pending := s.pending, out := s.out, fresh := s.fresh, order := s.order, nextPkt := s.nextPkt, variant36 := s.variant36,
    enabled := s.enabled,
    tb := s.tb.afterWarm,
    domains := Tbl.mapVal (fun _ => {}) Domain.afterWarm s.domains,
    regions := Tbl.mapVal (fun _ => {}) (fun _ (v : Region) => v.afterWarm) s.regions,
    clusters := Tbl.mapVal (fun _ => {}) (fun _ (v : Cluster) => v.afterWarm) s.clusters,
    hbms := Tbl.mapVal (fun _ => {}) (fun _ (v : Stack) => { soft := v.soft, hard := v.hard, harden := v.harden, remaining := v.remaining }) s.hbms,
    ports := Tbl.mapVal (fun _ => {}) (fun _ (v : Port) => { perst := v.perst, epoch := v.epoch }) s.ports,
    cxlPorts := Tbl.mapVal (fun _ => {}) (fun _ (v : CxlPort) => { epoch := v.epoch }) s.cxlPorts,
    bpm := { s.bpm with hold := false, railsWanted := false, recommanded := none, cmdOpen := none, discards := 0 },
    mgt := { bpmVote := s.mgt.bpmVote, flash := s.mgt.flash, epoch := s.mgt.epoch, log := s.mgt.log, nextSeq := s.mgt.nextSeq,
             logLost := s.mgt.logLost, port0 := s.mgt.port0, port1 := s.mgt.port1, activePort := s.mgt.activePort, activation := s.mgt.activation },
    sec := { s.sec with version := [], caps := [], algs := [], sessions := [], chunks := [], ideKeys := [] },
    boot := { warm := s.boot.warm || s.boot.complete, vaon := s.boot.vaon, ls18 := s.boot.ls18, serial := s.boot.serial } }

/-- A warm reset asked for while a cold reset is in force changes nothing (Table 19.4). -/
def State.warmStart (s : State) : State := if s.boot.coldHeld || !s.boot.vaon then s else s.warmReset

def execPnlWrstN (lowNs : Nat) (s : State) : Result := if 10000 ≤ lowNs then .next s.warmStart else .next s.glitch

/-- The lease holder writes PNL_RESET_CTL on an Administrator command. -/
def execPnlResetCtlCold (s : State) : Result := if s.holder.isSome then .next (s.coldReset true) else .next s
def execPnlResetCtlWarm (s : State) : Result := if s.holder.isSome then .next s.warmStart else .next s

/-! ## Events 1 and 2: trust (R434, R437, R528) -/

/-- A Pewter in Wellspring recovery is ABSENT (R528). -/
def State.toRecovery (s : State) (v : Voter) : State :=
  (s.modPew v (fun p => { p with role := .absent, recovery := true, retryTick := s.now })).note 0x1D03 { detail := [dieNo v] }

/-- With both Pewters in recovery bring-up stops (R528, R539). -/
def State.bothDown (s : State) (next : Nat) : State :=
  if s.mgt.north.recovery && s.mgt.south.recovery then s.bootStop 1 else s.toEvent next

/-- The timebase die leaves a cold reset at panel time 0 in FREERUN; after a warm reset it has run on (R272, R275, R541). -/
def State.startTimebase (s : State) : State := if s.tb.running then s else { s with tb := { s.tb with running := true, now := 0, ref := .freerun } }

/-- Wellspring's self-test of one die. -/
def State.selfTest (s : State) (v : Voter) (c : BootCheck) : State := match c with
  | .ok => s.modPew v (fun p => { p with selfTest := true })
  | .selfTestFailed => s.toRecovery v

/-- Event 1; while no BPM is seated bring-up stays in it (Table 16.9). -/
def execBootTimebaseStart (north south : BootCheck) (s : State) : Result :=
  if s.inEvent 0 || s.inEvent 1 then
    let t := s.startTimebase
    let t := { t with boot := { t.boot with event := 1 } }
    if s.bpm.present then .next (((t.selfTest .north north).selfTest .south south).bothDown 2) else .next t
  else .next s

/-- The roles the panel map expects: Table 1.2 and Table 1.3 (R31). -/
def standardMap : List (Nat × Nat × Nat) :=
  ((List.range 16).map (fun r => (List.range 23).map (fun k => (r, k, if k < 19 then 2 else if k = 19 then 3 else if k < 22 then 4 else 1)))).flatten ++
  (List.range 15).map (fun k => (16, k, if k < 8 then 5 else if k < 12 then 6 else if k < 14 then 7 else 8))

/-- One die reads the image area and checks it; it starts its firmware or enters recovery (R434, R437, R528). -/
def State.checkImage (s : State) (v : Voter) (m : FirmwareImage) : State :=
  if (s.pew v).recovery then s
  else if m.readOk && m.writeOk && (s.firmwareFail m).isNone then s.bootDie v m
  else s.toRecovery v

/-- Event 2. The flash holds one image area; each die brings what its own read of it met. -/
def execBootImageCheck (north south : FirmwareImage) (s : State) : Result :=
  if s.inEvent 2 then
    let area := s.mgt.flash.getD north
    let t := { s with mgt := { s.mgt with flash := some area }, boot := { s.boot with panelMap := standardMap } }
    .next (((t.checkImage .north { area with readOk := north.readOk }).checkImage .south { area with readOk := south.readOk }).bothDown 3)
  else .next s

/-! ## Die identity (R30 to R34) -/

/-- The role the panel map expects at a site. -/
def State.expectedRole (s : State) (r k : Nat) : Nat := ((s.boot.panelMap.find? (fun e => e.1 == r && e.2.1 == k)).map (fun e => e.2.2)).getD 0

/-- Whether a field of a position fuse block holds a reserved value (Tables 1.7 and 1.8). -/
def fuseReserved (f : BitVec 128) : Bool :=
  decide (17 ≤ bitsOf f 52 48) || decide (bitsOf f 55 53 ≠ 0) || decide ((if bitsOf f 52 48 < 16 then 22 else 14) < bitsOf f 60 56) ||
  decide (bitsOf f 63 61 ≠ 0) || decide (9 ≤ bitsOf f 67 64) || decide (bitsOf f 111 94 ≠ 0) ||
  (decide (bitsOf f 67 64 ≠ 2) && decide (bitsOf f 93 76 ≠ 0))

/-- The number of set bits of position_enable. -/
def enabledCount (f : BitVec 128) : Nat := ((List.range 18).filter (fun p => bitOf f (76 + p))).length

/-- The first condition of R31, counted from 1, that the fuse block reported by the die of a site meets; `twice` says that
another die has reported the same region and site. -/
def State.fuseFault (s : State) (r k : Nat) (f : BitVec 128) (twice : Bool) : Option Nat :=
  if bitsOf f 67 64 = 0 then some 1
  else if (crc16 (bytesOf f 14)).toNat ≠ bitsOf f 127 112 then some 2
  else if fuseReserved f then some 3
  else if bitsOf f 47 0 ≠ s.boot.serial.toNat then some 4
  else if bitsOf f 52 48 ≠ r ∨ bitsOf f 60 56 ≠ k then some 5
  else if bitsOf f 67 64 ≠ s.expectedRole r k then some 6
  else if bitsOf f 75 68 = 0 ∨ 0x80 ≤ bitsOf f 75 68 then some 7
  else if bitsOf f 67 64 = 2 ∧ enabledCount f ≠ 16 then some 8
  else if twice then some 9
  else none

/-- Two fuse blocks that name the same region and site. -/
def sameSite (f g : BitVec 128) : Bool := bitsOf f 52 48 == bitsOf g 52 48 && bitsOf f 60 56 == bitsOf g 60 56

/-- A die counted as failed, with the event of R32. -/
def State.dieFailed (s : State) (r k why : Nat) : State :=
  let t := { s with boot := { s.boot with diesFailed := min 255 (s.boot.diesFailed + 1), diesOff := s.boot.diesOff ++ [(r, k)] } }
  t.note 0x1E01 { region := r, site := k, detail := [k, why] }

/-! ## Event 3: authority (R33, R278, R509, R517) -/

/-- One Pewter's fuse block is checked; a die that fails does not vote (R33). -/
def State.checkPewter (s : State) (v : Voter) (f other : BitVec 128) : State :=
  let k := 12 + dieNo v
  match s.fuseFault 16 k f (sameSite f other) with
  | some why => (s.modPew v (fun p => { p with fuseOk := false, role := .absent })).dieFailed 16 k why
  | none => s.modPew v (fun p => { p with fuseOk := true })

/-- Whether a Pewter may seek the lease at bring-up. -/
def Pewter.eligible (p : Pewter) : Bool := p.booted && p.fuseOk && decide (p.role ≠ .absent)

/-- The link session opens and both fuse blocks are checked; where both fail bring-up stops (R33, R509). -/
def State.checkPewters (s : State) (north south : BitVec 128) : State :=
  let t := (s.checkPewter .north north south).checkPewter .south south north
  let t := { t with mgt := { t.mgt with sessionOpen := t.mgt.north.eligible && t.mgt.south.eligible } }
  if t.mgt.north.eligible || t.mgt.south.eligible then t else t.bootStop 6

/-- A candidate's ACQUIRE reaches the BPM, and behind a grant the other Pewter; with two grants it is the holder. Answers
the BPM's result and recorded epoch (R514, R517). -/
def State.acquireAt (s : State) (v : Voter) (e : Nat) : State × Nat × Nat :=
  let t := s.seek v e
  if (t.pew v).candidate.isNone then (t, 1, 0)
  else
    let b := t.mgt.bpmVote.acquire t.now v (t.inStepBit v) e
    let t := (t.setVoterRec .bpm b.2).sendVote .bpm v b.1 t.now
    if b.1 = 0 then
      let o := otherDie v
      let a := (t.pew o).vote.acquire t.now v (t.inStepBit v) e
      let u := if t.votes o then ((t.setVoterRec o a.2).modPew o (fun p => { p with seen := max p.seen e })).sendVote o v a.1 t.now else t
      let granted := (t.pew v).granted ++ [Voter.bpm] ++ (if t.votes o && a.1 == 0 then [o] else [])
      let u := u.modPew v (fun p => { p with granted := granted })
      (if 2 ≤ granted.length then u.becomeHolder v e else u, 0, e)
    else if b.1 = 1 then (t.modPew v (fun p => { p with candidate := none, granted := [] }), 1, 0)
    else (t, 2, b.2.epoch)

/-- The lease at bring-up: refused as stale, the candidate tries once more with the returned epoch + 1 (R517, R518). -/
def State.formLease (s : State) (v : Voter) : State :=
  let a := s.acquireAt v ((s.pew v).seen + 1)
  if a.2.1 = 2 then ((a.1.modPew v (fun p => { p with retried := true, seen := max p.seen a.2.2 })).acquireAt v (a.2.2 + 1)).1 else a.1

/-- An attempt, repeated every 100 ms: North's, or South's after 20 ms of silence; that none has succeeded after 1 s is
logged (R517, R539). -/
def State.seekAtBoot (s : State) : State :=
  if s.holder.isSome || (decide (s.boot.tries ≠ 0) && decide (s.now < s.boot.tryTick + 100 * ticksPerMs)) then s
  else
    let limit := s.boot.eventTick + ticksPerS
    let late := decide (limit ≤ s.now) && (decide (s.boot.tries = 0) || decide (s.boot.tryTick < limit))
    let t := { s with boot := { s.boot with tries := s.boot.tries + 1, tryTick := s.now } }
    let t := if t.mgt.north.eligible then t.formLease .north
      else if t.mgt.south.eligible && decide (t.mgt.heardTick + 20 * ticksPerMs ≤ t.now) then t.formLease .south else t
    if late && t.holder.isNone then t.note (0x1E00 + Config.leaseLateCode % 256) {} else t

/-- Each branch's delay is stored; a residual of more than 0.3 tick, 76.8 in units of 1/256, takes a region out of service
and stops bring-up for a fixed domain (R278, R539). An entry is the delay and its residual. -/
def State.calibrateTree (s : State) (tree : List (Nat × Nat)) : State :=
  let entry := fun (d : Nat) => tree.getD d ((s.domain d).treeDelay.toNat, 0)
  let bad := (List.range 25).filter (fun d => decide (768 < 10 * (entry d).2))
  let t := (List.range 25).foldl (fun (t : State) d => t.modDomain d (fun v => { v with treeDelay := BitVec.ofNat 24 (entry d).1 })) s
  if bad.any (fun d => decide (16 ≤ d)) then t.bootStop 2
  else
    let t := bad.foldl (fun (t : State) d => (t.modDomain d (fun v => { v with outOfService := true })).modRegion d (fun v => { v with inService := false })) t
    if (List.range 16).all (fun r => !(t.region r).inService) then t.bootStop 4 else t.toEvent 4

/-- Event 3; without a lease bring-up waits in it. -/
def execBootLeaseFormation (fuseNorth fuseSouth : BitVec 128) (treeDelay : List (Nat × Nat)) (s : State) : Result :=
  if s.inEvent 3 then
    let t := if s.boot.tries = 0 then s.checkPewters fuseNorth fuseSouth else s
    if t.boot.stopped then .next t
    else
      let t := t.seekAtBoot
      .next (if t.holder.isSome then t.calibrateTree treeDelay else t)
  else .next s

/-! ## Event 4: rails and dies (R31, R32, R34, R480) -/

/-- The mask of VBUS_HBM, VHBM_PP, VIO and VAUX (Table 16.8). -/
def auxRails : BitVec 8 := 0x17

/-- The sites in the order event 4 checks them. -/
def checkOrder : List (Nat × Nat) :=
  ((List.range 12) ++ [14]).map (fun k => (16, k)) ++ (List.range 16).map (fun r => (r, 22)) ++ (List.range 16).map (fun r => (r, 19)) ++
  ((List.range 16).map (fun r => (List.range 19).map (fun k => (r, k)))).flatten ++
  ((List.range 16).map (fun r => [(r, 20), (r, 21)])).flatten

/-- What a failed die costs the panel (Table 1.9); the timebase die's failure stops bring-up. -/
def State.loseDie (s : State) (r k : Nat) : State :=
  if r = 16 then (if k < 8 then s.modPort k (fun v => { v with absent := true }) else s)
  else if k < 19 then s.modRegion r (fun v => { v with sitesFailed := if v.sitesFailed.contains k then v.sitesFailed else v.sitesFailed ++ [k] })
  else if k = 19 then s.modRegion r (fun v => { v with cores := false })
  else if k < 22 then s.modHbm (2 * r + (k - 20)) (fun v => { v with failed := true })
  else s.modRegion r (fun v => { v with inService := false })

/-- A die that passes: a chiplet's positions are those its fuses enable (R18); a host-port die is released (R532). -/
def State.passDie (s : State) (r k : Nat) (f : BitVec 128) : State :=
  if r = 16 then (if k < 8 then s.modPort k (fun v => { v with released := true }) else s)
  else if k < 19 then { s with enabled := Tbl.set (fun _ => 0xFFFF) s.enabled (r * 19 + k) (f.extractLsb' 76 18) }
  else s

/-- One die's check; a die that reports nothing counts as blank. -/
def State.checkDie (s : State) (reports : List DieReport) (r k : Nat) : State :=
  let f := ((reports.find? (fun e => e.region == r && e.site == k)).map DieReport.fuse).getD 0
  let twice := reports.any (fun e => !(e.region == r && e.site == k) && sameSite f e.fuse)
  match s.fuseFault r k f twice with
  | some why => (s.loseDie r k).dieFailed r k why
  | none => s.passDie r k f

/-- Regions both of whose stacks have failed are out of service (Table 1.9). -/
def State.dropStackless (s : State) : State :=
  (List.range 16).foldl (fun (t : State) r =>
    if (t.hbm (2 * r)).failed && (t.hbm (2 * r + 1)).failed then t.modRegion r (fun v => { v with inService := false }) else t) s

/-- Bring-up goes on to an event where a region remains in service, and stops where none does (R539). -/
def State.onward (s : State) (n : Nat) : State :=
  if (List.range 16).all (fun r => !(s.region r).inService) then s.bootStop 4 else s.toEvent n

def State.checkDies (s : State) (reports : List DieReport) : State :=
  let t := (checkOrder.foldl (fun (t : State) e => t.checkDie reports e.1 e.2) s).dropStackless
  if t.boot.diesOff.contains (16, 14) then t.bootStop 5 else t.onward 5

/-- Event 4: the rails are commanded on; once BPM_PG is high every die is checked. -/
def execBootDieCheck (reports : List DieReport) (s : State) : Result :=
  if s.inEvent 4 && s.holder.isSome then
    let t := if s.bpm.railsWanted then s else
      let u := s.bpmCommand 1 auxRails
      { u with boot := { u.boot with railTick := some s.now } }
    .next (if t.bpm.pg && t.bpm.railsWanted then t.checkDies reports else t)
  else .next s

/-- BPM_PG is not high 100 ms after RAIL_ON: the rails are commanded again, once (R539). -/
def execRailOnPgTimeout (s : State) : Result :=
  match s.boot.railTick with
  | some k =>
    if s.inEvent 4 && !s.bpm.pg && decide (k + 100 * ticksPerMs ≤ s.now) then
      (if s.bpm.recommanded.isSome then .next (s.bootStop 3)
       else
        let t := s.bpmCommand 1 auxRails
        .next { t with boot := { t.boot with railTick := some s.now }, bpm := { t.bpm with recommanded := some s.now } })
    else .next s
  | none => .next s

/-! ## Event 5: regions (R484, Table 16.10) -/

/-- Every cluster of a region in a state. -/
def State.setClusters (s : State) (r : Nat) (f : Nat → CState) : State :=
  (clustersOfRegion r).foldl (fun (t : State) c => t.modCl c (fun v => { v with st := f c })) s

/-- Event 5 of one region: its segment is commanded on and its soft start begins, in ascending number, 500 µs apart; once it
has ended, the steward tests its base tile, and its clusters stand in Reserve at step 8. -/
def execBootRegionPower (r : Nat) (tileOk : Bool) (s : State) : Result :=
  if 16 ≤ r ∨ s.inEvent 5 = false ∨ s.holder.isNone ∨ (s.region r).inService = false then .next s
  else match (s.region r).soft with
    | none =>
      if s.bpm.killed || decide (s.now < s.boot.eventTick + 50000 * r) then .next s
      else
        let t := if (List.range 16).any (fun q => (s.region q).soft.isSome) then s else s.bpmCommand 3 0xFF
        .next (t.modRegion r (fun v => { v with soft := some { started := s.now } }))
    | some b =>
      if b.ramped = false ∨ b.bootStage ≠ 0 then .next s
      else if tileOk then
        let t := (s.modSoft r (fun b => { b with bootStage := 1 })).setClusters r (fun _ => .reserve)
        .next (((t.modXing (160 + r) startCalibration).modXing (176 + r) startCalibration).endStage)
      else .next (s.bootFail r).endStage

/-! ## Event 6: the neighbour test (R534, R535) -/

/-- The verdicts of one site that testers of the mesh gave. -/
def siteVerdicts (vs : List Verdict) (k : Nat) : List Verdict :=
  vs.filter (fun v => v.site == k && decide (v.tester < 18) && decide (v.target < 18) && hops v.tester v.target == 1)

/-- Testers that report a failure for every one of at least two targets (R535 rule 1). -/
def badTesters (vs : List Verdict) : List Nat :=
  (List.range 18).filter (fun t =>
    let own := vs.filter (fun v => v.tester == t)
    decide (2 ≤ (own.map Verdict.target).eraseDups.length) && own.all (fun v => TestResult.isFail v.result))

/-- The verdicts on one target. -/
def onTarget (vs : List Verdict) (p : Nat) : List Verdict := vs.filter (fun v => v.target == p)

/-- The judgement of one site: positions condemned and single failures reported, or the chiplet condemned as a whole. -/
def State.judgeSite (s : State) (r : Nat) (verdicts : List Verdict) (k : Nat) : State :=
  if (s.region r).sitesFailed.contains k then s
  else
    let vs := siteVerdicts verdicts k
    let bad := badTesters vs
    let rest := vs.filter (fun v => !bad.contains v.tester)
    let fails := fun (p : Nat) => failuresOf (onTarget rest p) TestResult.isFail
    let condemned := (List.range 18).filter (fun p => bad.contains p || decide (2 ≤ fails p))
    let whole := (List.range 18).any (fun p => decide (2 ≤ failuresOf (onTarget rest p) TestResult.isRouter))
    let single := rest.filter (fun v => TestResult.isFail v.result && fails v.target == 1)
    let t := s.modRegion r (fun v => { v with condemned := v.condemned ++ condemned.map (fun p => (k, p)),
                                              sitesFailed := if whole then v.sitesFailed ++ [k] else v.sitesFailed })
    let t := { t with boot := { t.boot with condemned := min 65535 (t.boot.condemned + condemned.length),
                                            diesFailed := min 255 (t.boot.diesFailed + whole.toNat) } }
    let t := condemned.foldl (fun (t : State) p => t.note 0x0E02 { region := r, site := k, detail := [k, p] }) t
    single.foldl (fun (t : State) v => t.note 0x0E02 { region := r, site := k, detail := [k, v.target, v.tester] }) t

/-- Event 6 of one region: every position of its 19 chiplets is tested and judged; every row is zero and EMPTY again. -/
def execNeighbourTest (r : Nat) (verdicts : List Verdict) (s : State) : Result :=
  if 16 ≤ r ∨ s.inEvent 6 = false ∨ (s.region r).inService = false ∨ s.stageDone r 2 then .next s
  else
    let t := { s with tarn := Tbl.drop (fun k => regionOf (k / 16384) == r) s.tarn }
    let t := (List.range 19).foldl (fun (t : State) k => t.judgeSite r verdicts k) t
    .next (t.modSoft r (fun b => { b with bootStage := 2 })).endStage

/-! ## Event 7: spares (R537, R538) -/

/-- An entry that bring-up places: away from its factory position it reads remapped, with no changes counted; placed
nowhere it is vacant, and reported. -/
def State.bootEntry (s : State) (r l : Nat) (place : Option (Nat × Nat)) : State :=
  let e := match place with
    | some (k, p) => mkEntry k p 1 0
    | none => mkEntry 0 0 2 0
  let t := s.modRegion r (fun v => { v with cmap := Tbl.set (fun l => s.factoryEntry r l) v.cmap l e })
  if place.isNone then t.note 0x0E02 { region := r, site := slotOf l, detail := [slotOf l, entryPos (s.factoryEntry r l)] } else t

/-- Whether the place of an entry is not healthy. -/
def State.misplaced (s : State) (r l : Nat) : Bool :=
  let e := s.cmapEntry r l
  entryState e != 2 && !positionOk (s.region r) (entrySite e) (entryPos e)

/-- Step 1: a condemned position of a chiplet moves to the nearest position in reserve on it. -/
def State.placeNear (s : State) (r l : Nat) : State :=
  let e := s.cmapEntry r l
  if s.misplaced r l && !(s.region r).sitesFailed.contains (entrySite e) then
    (match nearest (entryPos e) (s.freePositions r (entrySite e)) with
     | some p => s.bootEntry r l (some (entrySite e, p))
     | none => s)
  else s

/-- Steps 2 and 3: an entry still not placed moves to site 18, or is vacant. -/
def State.placeFar (s : State) (r l : Nat) : State :=
  if s.misplaced r l then s.bootEntry r l ((s.freePositions r 18).head?.map (fun p => (18, p))) else s

/-- The map of a region as bring-up builds it from the factory map (R22, R537): reserve positions first, then the chiplets
condemned as a whole in ascending site, then what is left. -/
def State.bootMap (s : State) (r : Nat) : State :=
  let t := s.modRegion r (fun v => { v with cmap := [] })
  let t := (List.range 288).foldl (fun (t : State) l => t.placeNear r l) t
  let t := (List.range 18).foldl (fun (t : State) k =>
    if (t.region r).sitesFailed.contains k then ((List.range 288).filter (fun l => slotOf l == k)).foldl (fun (t : State) l => t.placeFar r l) t else t) t
  (List.range 288).foldl (fun (t : State) l => t.placeFar r l) t

/-- Event 7 of one region: the map is written, and mapped clusters are Idle. -/
def execSpareMapping (r : Nat) (s : State) : Result :=
  if 16 ≤ r ∨ s.inEvent 7 = false ∨ (s.region r).inService = false ∨ s.stageDone r 3 then .next s
  else
    let t := s.bootMap r
    .next ((t.setClusters r (fun c => if t.vacant c then .off else .idle)).modSoft r (fun b => { b with bootStage := 3 })).endStage

/-! ## Events 8 to 12 -/

/-- Whether a crossing lies between parts in service. -/
def State.crossingLive (s : State) (x : Nat) : Bool :=
  crossingPresent x && [crossingTx x, crossingRx x].all (fun d => decide (16 ≤ d) || (s.region d).inService)

/-- Event 8: every present crossing is calibrated with the markers it kept; one that fails is tried again at the next beacon
(R292, R293). -/
def execBootCrossingCalibration (ls : List (Nat × List Nat)) (s : State) : Result :=
  if s.inEvent 8 then
    let t := ((List.range 220).filter s.crossingLive).foldl (fun (t : State) x =>
      let markers := ((ls.find? (fun e => e.1 == x)).map Prod.snd).getD []
      ((t.modXing x startCalibration).modXing x (measure markers)).endCalibration x) s
    .next (t.onward 9)
  else .next s

/-- A stack trained: its repairs are made permanent and counted; the repairs left are as measured (R343, Table 21.7). -/
def trainStack (failed : Bool) (left : Nat) (v : Stack) : Stack :=
  { v with failed := v.failed || failed, trained := !(v.failed || failed), hard := v.hard + v.harden, harden := 0, remaining := left }

/-- A region whose stacks are trained enters Run; with one stack left its slice's lower half lies on that one (Table 1.9). -/
def State.enterRun (s : State) (r : Nat) : State :=
  let e := s.wakeState
  let a := (s.hbm (2 * r)).failed
  let b := (s.hbm (2 * r + 1)).failed
  let one := if a then some (2 * r + 1) else if b then some (2 * r) else none
  s.modRegion r (fun v => { v with pstate := e.1, causes := e.2, soft := none, linear := one, upperUnmapped := a || b })

/-- A region taken out of service after it was powered. -/
def State.dropRegion (s : State) (r : Nat) : State := if (s.region r).inService then s else s.bootFail r

/-- Event 9: every stack is trained, its sectors are zero, and regions enter Run. -/
def execBootHbmTraining (failed : List Nat) (s : State) : Result :=
  if s.inEvent 9 then
    let t := (List.range 32).foldl (fun (t : State) k => (t.draw).modHbm k (trainStack (failed.contains k) (Config.repairsLeft k t.fresh))) s
    let t := (List.range 16).foldl State.loseSlice t.dropStackless
    let t := (List.range 16).foldl State.dropRegion t
    let t := ((List.range 16).filter (fun r => (t.region r).inService)).foldl State.enterRun t
    .next (t.onward 10)
  else .next s

/-- Event 10: Loch ports are trained, each named by a region and its link number; route tables are built (R247). -/
def execBootLochTraining (failed : List (Nat × Nat)) (s : State) : Result :=
  if s.inEvent 10 then
    let t := (failed.filter (fun e => linkExists e.1 e.2 && decide (linkClass e.2 = .loch))).foldl (fun (t : State) e => t.exhaustLink e.1 e.2) s
    .next ((t.buildRoutes (List.range 16)).toEvent 11)
  else .next s

/-- Event 11: CXL ports train, and their devices are enumerated (R353). -/
def execBootCxlTraining (devs : List (Nat × CxlDevice)) (s : State) : Result :=
  if s.inEvent 11 then
    .next ((devs.foldl (fun (t : State) e => if e.1 < 8 ∧ t.cxlAbsent e.1 = false then t.cxlDevice e.1 e.2 else t) s).toEvent 12)
  else .next s

/-- Link ends out of service. -/
def State.linksLost (s : State) : Nat := (s.fabLinks.filter (fun e => e.2.outOfService)).length

/-- Event 12: bring-up is complete, and its failures are logged; regions may raise their steps (R285). -/
def execBootComplete (s : State) : Result :=
  if s.inEvent 12 then
    let t := { s with boot := { s.boot with complete := true, warm := true, linksOut := min 65535 s.linksLost } }
    let t := t.note 0x0001 { detail := [t.boot.diesFailed, t.boot.condemned, t.boot.linksOut] }
    .next ((List.range 16).foldl State.boundaryStep t)
  else .next s

/-! ## Host ports (R378, R532) -/

/-- PERST of a port, pulses under 1 µs apart: asserted, its links go down; released, the port comes up in the mode chosen for
it. -/
def execPerst (port : Nat) (asserted : Bool) (ns : Nat) (s : State) : Result :=
  if 8 ≤ port ∨ ns < 1000 ∨ (s.port port).perst = asserted then .next s
  else if asserted then
    let down := fun (t : State) (l : Nat) => if (t.link l).up then (t.modLink l (fun v => { v with up := false })).resetLinkFns l else t
    .next ((down (down s (2 * port)) (2 * port + 1)).modPort port (fun v => { v with perst := true }))
  else .next (s.modPort port (fun v => { v with perst := false, splitNow := v.split }))

/-- A host link of a released port finishes training. -/
def execHostLinkUp (l : Nat) (s : State) : Result :=
  let v := s.port (l / 2)
  if l < 16 ∧ v.released ∧ v.perst = false ∧ v.absent = false ∧ (l % 2 = 0 ∨ v.splitNow) then .next (s.modLink l (fun v => { v with up := true }))
  else .next s

end Sys2Proof.Machine
end

