-- ==== Sys2Proof/Machine/Electrum.lean ====
section
/-! DEFINITION. The Electrum engine: tiles, exact accumulators, weight loads, tile operations and drains (05, 07). -/

namespace Sys2Proof.Machine

open Sys2Proof

/-! ## Tiles and windows (Tables 5.1 and 5.2) -/

def tileK (f : Nat) : Nat := match f with
  | 0 => 8
  | 1 => 16
  | 2 => 32
  | 3 => 32
  | 8 => 128
  | 0xA => 128
  | _ => 64
def tileN (f : Nat) : Nat := match f with
  | 0 => 8
  | 1 => 16
  | _ => 64
def tileV (f : Nat) : Nat := if f = 6 ∨ f = 7 then 10 else 8

/-- The window base exponent L, and the scale slack D (Table 5.2). -/
def windowL (f : Nat) : Int := match f with
  | 4 => -18
  | 5 => -32
  | 6 => -8
  | 7 => -6
  | 8 => -2
  | 3 => -48
  | 2 => -160
  | _ => 0
def windowD (f : Nat) : Int := match f with
  | 4 => 28
  | 5 => 0
  | 6 => 46
  | 7 => 52
  | 8 => 56
  | 9 => 49
  | _ => 57

/-- Formats whose cells are FP64 lanes. -/
def isLane (f : Nat) : Bool := f == 0 || f == 1

/-! ## Cells -/

/-- What a granule leaves in a cell: the value added and the flags set. -/
structure Granule where
  v : Int := 0
  nan : Bool := false
  posInf : Bool := false
  negInf : Bool := false
  range : Bool := false
  below : Bool := false
  deriving DecidableEq, Repr

/-- A product's special flags (R138). -/
def specialOf : Val → Granule
  | .nan => { nan := true }
  | .inf n => { posInf := !n, negInf := n }
  | _ => {}

def Granule.join (a b : Granule) : Granule :=
  ⟨a.v + b.v, a.nan || b.nan, a.posInf || b.posInf, a.negInf || b.negInf, a.range || b.range, a.below || b.below⟩

/-- The signed integer a finite product is in units of 2^u, where it is a whole number of them. -/
def unitsOf (u : Int) : Val → Int
  | .fin n m e _ => signedAt n m e u
  | _ => 0

/-- A signed integer d of units 2^e rounded to nearest even at 2^u. -/
def rneInt (d e u : Int) : Int :=
  let r := roundAt 0 0 (decide (d < 0)) d.natAbs e false u
  let a : Int := r.1 + (if r.2 then 1 else 0)
  if d < 0 then -a else a

/-- The products of an unscaled 8-, 6- or 4-bit or FP16 granule: exact (R135). -/
def granuleExact (f : Nat) (ps : List Val) : Granule :=
  ps.foldl (fun (g : Granule) p => g.join { specialOf p with v := unitsOf (windowL f) p }) {}

/-- One scaled block: its dot product enters by its combined scale exponent S against the anchor A (R135). -/
def granuleBlock (f : Nat) (A : Int) (sa sb : Nat) (ps : List Val) : Granule :=
  if sa = 0xFF ∨ sb = 0xFF then { nan := true }
  else
    let S : Int := ((sa : Int) - 127) + ((sb : Int) - 127)
    let g := granuleExact f ps
    if A + windowD f < S then { g with v := 0, range := true }
    else if A ≤ S then { g with v := g.v * 2 ^ (S - A).toNat }
    else { g with v := rneInt g.v S A, below := true }

/-- A BF16 granule against its anchor (R135). -/
def granuleBf16 (A : Int) (ps : List Val) : Granule :=
  let u := A - 160
  let big := fun (p : Val) => match p with
    | .fin _ m e _ => decide (m ≠ 0) && decide (A + 128 ≤ floorLog2 m e)
    | _ => false
  let low := fun (p : Val) => match p with
    | .fin _ m e _ => decide (e < u) && decide (m % 2 ^ (u - e).toNat ≠ 0)
    | _ => false
  let kept := ps.filter (fun p => !big p && !p.special)
  let flags := ps.foldl (fun (g : Granule) p => g.join (specialOf p)) {}
  let range := ps.any big
  if kept.any low then
    let sum := kept.foldl (fun s p => s.add false p) (Val.fin false 0 0)
    { flags with v := (match sum with
        | .fin n m e _ => rneInt (if n then -(m : Int) else m) e u
        | _ => 0), range := range, below := true }
  else { flags with v := (kept.map (unitsOf u)).sum, range := range }

/-- A granule added to a cell: one beyond the 2^24th is not added and sets range; the count saturates (R137). -/
def addGranule (g : Granule) (c : Cell) : Cell :=
  let n := min (c.count + 1) (2 ^ 27 - 1)
  if 2 ^ 24 ≤ c.count then { c with range := true, count := n }
  else { c with v := c.v + g.v, nan := c.nan || g.nan, posInf := c.posInf || g.posInf, negInf := c.negInf || g.negInf,
                range := c.range || g.range, below := c.below || g.below, count := n }

/-! ## FP32 and FP64 lanes (R140, R141, R151) -/

/-- One level of the pairwise tree: neighbours added and rounded to FP64. -/
def pairLevel : List Word → List Word
  | a :: b :: rest => add64 a b :: pairLevel rest
  | l => l

/-- A granule's partial: products exact, the first level rounded once from exact sums, then level by level. -/
def laneGranule (ps : List Val) : Word :=
  let rec first : List Val → List Word
    | a :: b :: rest => rne64 (a.add false b) :: first rest
    | [a] => [rne64 a]
    | [] => []
  let l := first ps
  (pairLevel (pairLevel (pairLevel l))).headD 0

/-- Still mode: a granule pushed on the stack of levels, carrying as in a binary counter (R141). -/
def pushLane (g : Word) : (fuel lvl : Nat) → List (Option Word) → Option (List (Option Word))
  | 0, _, _ => none
  | fuel + 1, lvl, st =>
    match st with
    | [] => some [some g]
    | none :: rest => some (some g :: rest)
    | some w :: rest => (pushLane (add64 w g) fuel (lvl + 1) rest).map (none :: ·)

/-- close(): the levels combined from the lowest up, the level on the left (R141). -/
def closeStack (st : List (Option Word)) : Word :=
  ((st.foldl (fun v o => match o, v with
    | some w, some a => some (add64 w a)
    | some w, none => some w
    | none, v => v) (none : Option Word))).getD 0

/-- A granule added to a lane, in Still mode or in free order (R141, R151). -/
def addLane (still : Bool) (g : Word) (c : Cell) : Cell :=
  if still then
    match pushLane g 20 0 c.stack with
    | some st => { c with stack := st }
    | none => { c with stack := c.stack.map (fun _ => none), range := true }
  else if 2 ^ 24 ≤ c.count then { c with range := true }
  else { c with sum := some (match c.sum with
      | some v => add64 v g
      | none => g), count := c.count + 1 }

/-- What a lane's close() returns. -/
def closeLane (c : Cell) : Word := match c.sum with
  | some v => v
  | none => closeStack c.stack

/-! ## Rows of several elements -/

/-- The answers of several row reads in turn. -/
inductive RowsAnswer where
  | done (ds : List Row) (s : State)
  | wait
  | bad (s : State) (n : Nat)

/-- Rows read in turn through a handle entry, the disturbance at the first. -/
def State.readRows (s : State) (c : Nat) (e : HandleEntry) (a : Access) (u : Upset) : List Nat → RowsAnswer
  | [] => .done [] s
  | j :: rest =>
    match s.entryAccess c e (handleRow e j) a 0 u with
    | .wait => .wait
    | .bad t => .bad t (handleRow e j)
    | .done d t => (match t.readRows c e a .none rest with
        | .done ds t' => .done (d :: ds) t'
        | r => r)

/-- Element k of a list of rows. -/
def elemOfRows (f : Nat) (rows : List Row) (k : Nat) : Nat := elemAt f (rows.getD (k / elemsPerRow f) 0) (k % elemsPerRow f)

/-! ## Engine errors (R139, R156) -/

/-- A parity or residue error met by a retiring instruction: contained, the third within 1 s fails the cluster. -/
def State.engineError (s : State) (c : Nat) (residue : Bool) : State :=
  let v := s.cl c
  let times := (v.health.engineTimes.filter (fun t => decide (s.now < t + ticksPerS))) ++ [s.now]
  let t := s.setCl c { v with ev := (if residue then { v.ev with residue := satInc v.ev.residue } else v.ev),
                              health := { v.health with engineTimes := times } }
  if 3 ≤ times.length then t.failCluster c 0 else t.raise 0x2301 (s.atCluster c [c])

/-! ## WLD (R198, R199) -/

def formWld : Form := { b := .scalar, h := true, fmask := 3, ext := 1 }
def wldScaled (i : Issue) : Bool := bitOf (BitVec.ofNat 6 (fF i)) 1
def wldLegal (i : Issue) : Bool :=
  formWld.legal i && bitsOf i.x0 63 6 == 0 && (wldScaled i || bitsOf i.x0 5 0 == 0)

def setBank (k : Nat) (b : Bank) (v : Cluster) : Cluster :=
  { v with eng := if k = 0 then { v.eng with bank0 := b } else { v.eng with bank1 := b } }
def bankOf (k : Nat) (v : Cluster) : Bank := if k = 0 then v.eng.bank0 else v.eng.bank1

/-- Rows that the elements e0 to e0 + n - 1 lie in, `per` to a row. -/
def rowsOfElems (e0 n per : Nat) : List Nat := (List.range ((e0 + n - 1) / per - e0 / per + 1)).map (e0 / per + ·)

def bodyWld (i : Issue) (s : State) : Effect :=
  let e := s.handle i.c (fH i)
  let se := s.handle i.c (bitsOf i.x0 5 0)
  let f := hFormat e
  let e0 := (s.sr i.c (fB i)).toNat
  let n := tileK f * tileN f
  let k := fF i % 2
  let per := elemsPerRow f
  let rows := rowsOfElems e0 n per
  let blocks := n / 32
  let srows := rowsOfElems (e0 / 32) blocks 512
  if f = 0xF ∨ e0 % tileK f ≠ 0 ∨ (wldScaled i = false ∧ alwaysScaled f) ∨ (wldScaled i ∧ mayScale f = false) ∨
      (wldScaled i ∧ hFormat se ≠ 0xF) then .trap (s.modCl i.c (setBank k {})) 0x04 0 0
  else if !handleRangeOk e (s.ctxOf i.c) .engineRead (e0 / per) rows.length ||
      (wldScaled i && !handleRangeOk se (s.ctxOf i.c) .engineRead (e0 / 32 / 512) srows.length) then
    .trap (s.modCl i.c (setBank k {})) 0x05 0 0
  else match s.readRows i.c e (readBy e true) i.u rows with
    | .wait => .hold s (s.holdFor 0x60 i) true
    | .bad t r => .integ (t.modCl i.c (setBank k {})) e r 0
    | .done ds t =>
      let codes := (List.range n).map (fun j => elemOfRows f ds (e0 % per + j))
      if wldScaled i then
        (match t.readRows i.c se (readBy se true) .none srows with
         | .wait => .hold s (s.holdFor 0x60 i) true
         | .bad t' r => .integ (t'.modCl i.c (setBank k {})) se r 0
         | .done ss t' =>
           let scales := (List.range blocks).map (fun j => elemOfRows 0xF ss (e0 / 32 % 512 + j))
           .ok (t'.modCl i.c (setBank k { loaded := true, fmt := f, scaled := true, codes := codes, scales := scales })))
      else .ok (t.modCl i.c (setBank k { loaded := true, fmt := f, scaled := false, codes := codes }))
def execWld (i : Issue) (s : State) : Result := s.retire 0x60 i (wldLegal i) (bodyWld i)

/-! ## MMA (R200, R201) -/

def mmaScaled (i : Issue) : Bool := bitOf (BitVec.ofNat 6 (fF i)) 1
def formMma (i : Issue) : Form :=
  if mmaScaled i then { b := .small, c := .small, fmask := 3, imm := true, ext := 1 } else { b := .small, fmask := 3, ext := 1 }
def mmaLegal (i : Issue) : Bool := (formMma i).legal i && bitsOf i.x0 7 6 == 0 && bitsOf i.x0 63 18 == 0
def mmaAcc (i : Issue) : Nat := bitsOf i.x0 5 0
def mmaAnchor (i : Issue) : Int := (i.x0.extractLsb' 8 10).toInt

/-- The anchor's range: that of R136 for scaled tiles and BF16; zero for every other (R201). -/
def anchorOk (f : Nat) (scaled : Bool) (A : Int) : Bool :=
  if f = 2 then decide (-106 ≤ A) && decide (A ≤ 128)
  else if scaled then decide (-254 ≤ A) && decide (A ≤ 254)
  else A == 0

/-- Byte k of a row. -/
def rowByte (r : Row) (k : Nat) : Nat := r.toNat / 256 ^ k % 256

/-- The granule of one lane: K products of a weight column and an activation vector, blocks apart where scaled. -/
def laneProducts (f : Nat) (w a : List Nat) : List Val := (w.zip a).map (fun p => (decodeElem f p.1).mul (decodeElem f p.2))

def mmaGranule (f : Nat) (A : Int) (scaled : Bool) (w a ws as : List Nat) : Granule :=
  let ps := laneProducts f w a
  if f = 2 then granuleBf16 A ps
  else if scaled then
    (List.range (tileK f / 32)).foldl (fun (g : Granule) b =>
      g.join (granuleBlock f A (as.getD b 0x7F) (ws.getD b 0x7F) ((ps.drop (32 * b)).take 32))) {}
  else granuleExact f ps

/-- One accumulator row after its granules, one for each lane. -/
def mmaRow (f : Nat) (A : Int) (scaled still : Bool) (b : Bank) (act ascales : List Nat) (r : AccRow) : AccRow :=
  let K := tileK f
  { bound := some (f, A),
    cells := (List.range (tileN f)).foldl (fun cs n =>
      let w := (b.codes.drop (n * K)).take K
      let c := Tbl.get (fun _ => ({} : Cell)) cs n
      let c' := if isLane f then addLane still (laneGranule (laneProducts f w act)) c
                else addGranule (mmaGranule f A scaled w act ((b.scales.drop (n * K / 32)).take (K / 32)) ascales) c
      Tbl.set (fun _ => {}) cs n c') r.cells }

/-- Whether the running step of a cluster's partition is in Still mode (R146). -/
def State.stillMode (s : State) (c : Nat) : Bool :=
  match (s.partOf c).bind (fun p => (s.part p).running) with
  | some st => st.still
  | none => true

def accRow (v : Cluster) (n : Nat) : AccRow := Tbl.get (fun _ => {}) v.eng.accs n
def setAcc (n : Nat) (r : AccRow) (v : Cluster) : Cluster := { v with eng := { v.eng with accs := Tbl.set (fun _ => {}) v.eng.accs n r } }

def bodyMma (i : Issue) (s : State) : Effect :=
  let v := s.cl i.c
  let b := bankOf (fF i % 2) v
  let f := b.fmt
  let V := tileV f
  let A := mmaAnchor i
  let scaled := mmaScaled i || b.scaled
  let acc := mmaAcc i
  let nblk := elemsPerRow f / 32
  let bindOk := (List.range V).all (fun j => match (accRow v (acc + j)).bound with
    | none => true
    | some p => decide (p = (f, A)))
  if b.loaded = false ∨ 64 < acc + V ∨ (mmaScaled i = false ∧ alwaysScaled f) ∨ (mmaScaled i ∧ mayScale f = false) ∨
      (mmaScaled i ∧ 512 < (fImm16 i).toNat + nblk) ∨ anchorOk f scaled A = false ∨ bindOk = false then .trap s 0x04 0 0
  else
    let row := v.regs.row (fB i)
    let srow := v.regs.row (fC i)
    let K := tileK f
    let still := s.stillMode i.c
    .ok ((List.range V).foldl (fun t j =>
      let act := (List.range K).map (fun k => elemAt f row (j * K + k))
      let asc := if mmaScaled i then (List.range (K / 32)).map (fun q => rowByte srow ((fImm16 i).toNat + j * (K / 32) + q)) else []
      t.modCl i.c (fun v => setAcc (acc + j) (mmaRow f A scaled still b act asc (accRow v (acc + j))) v)) s)
def execMma (i : Issue) (s : State) : Result :=
  .next (if i.u = .engine ∧ s.canRetire 0x61 i then s.engineError i.c false else s.retireWith 0x61 i (mmaLegal i) (fun s => .ok s) (bodyMma i))

/-! ## Drains (R142 to R145, R202 to R206) -/

def formDrn (i : Issue) : Form :=
  if fF i / 2 % 2 = 1 then { a := .small, b := .scalar, c := .scalar, d := .scalar, h := true, fmask := 3, imm := true, ext := 1 }
  else { b := .scalar, c := .scalar, d := .scalar, h := true, fmask := 3, ext := 1 }
def formDrnp : Form := { b := .scalar, d := .scalar, h := true, fmask := 1, ext := 1 }
def drnAcc (i : Issue) : Nat := bitsOf i.x0 5 0
def drnMode (i : Issue) : Nat := bitsOf i.x0 10 8
def drnScaled (i : Issue) : Bool := fF i / 2 % 2 == 1
def drnLegal (i : Issue) : Bool :=
  (formDrn i).legal i && bitsOf i.x0 7 6 == 0 && bitsOf i.x0 63 14 == 0 && decide (drnMode i < 5) && decide (bitsOf i.x0 13 12 < 2)
def drnpLegal (i : Issue) : Bool := formDrnp.legal i && bitsOf i.x0 63 6 == 0

/-- The format codes the bound rows of a run have. -/
def runFormats (v : Cluster) (acc n : Nat) : List Nat :=
  ((List.range n).filterMap (fun r => (accRow v (acc + r)).bound.map Prod.fst)).eraseDups

/-- The value a cell stands for, with whether it drains as a range NaN (R142). -/
def cellVal (f : Nat) (A : Int) (c : Cell) : Val × Bool :=
  if isLane f then (if c.range then (.nan, true) else (match val64 (closeLane c) with
    | .fin _ 0 _ _ => .fin false 0 0
    | v => v, false))
  else if c.nan || (c.posInf && c.negInf) then (.nan, false)
  else if c.posInf then (.inf false, false)
  else if c.negInf then (.inf true, false)
  else if c.range then (.nan, true)
  else (.ofInt c.v (A + windowL f), false)

/-- The cells of a run in output order, with the binding of their row: an unbound row gives zero cells. -/
def runCells (v : Cluster) (acc n N : Nat) : List (Nat × Int × Cell) :=
  (List.range (n * N)).map (fun k =>
    let r := accRow v (acc + k / N)
    let b := r.bound.getD (9, 0)
    (b.1, b.2, Tbl.get (fun _ => {}) r.cells (k % N)))

/-- The rounding a drain or a vector instruction of cluster c goes by. -/
def State.roundingFor (s : State) (c mode : Nat) (sat : Bool) (pos : Word) : Rounding :=
  { mode := mode, sat := sat, position := pos,
    seed := (s.ctxOf c).elim 0 (fun x => (s.ctx x).params.seed),
    seq := BitVec.ofNat 64 ((s.partOf c).elim 0 (fun p => s.recordSeq p)) }

/-- What a rounded drain writes: its rows, the block scales, and what it counts. -/
structure DrainOut where
  rows : List Row
  scales : List Nat
  counts : Counts
  range : Nat
  below : Nat

/-- Blocks of 32 of a list. -/
def blocksOf {α : Type} (n : Nat) (l : List α) : List (List α) := (List.range n).map (fun b => (l.drop (32 * b)).take 32)

/-- Values written as rows of a format, scaled or not: row j is rounded at position pos + j (R112, R124, R202). -/
def roundRows (f method : Nat) (scaled : Bool) (rd : Rounding) (vs : List Val) : DrainOut :=
  let per := elemsPerRow f
  let n := vs.length / per
  let outs := (List.range n).map (fun j =>
    let rd := { rd with position := rd.position + BitVec.ofNat 64 j }
    let es := (vs.drop (j * per)).take per
    if scaled then
      let bs := (blocksOf (per / 32) es).zipIdx.map (fun b => quantBlock f method rd (32 * b.2) b.1)
      (bs.flatMap (fun b => b.2.1), bs.map (fun b => b.1), bs.countP (fun b => b.2.2))
    else (es.zipIdx.map (fun e => roundElem f rd e.2 e.1), [], 0))
  { rows := outs.map (fun o => packRow f (o.1.map Prod.fst)), scales := outs.flatMap (fun o => o.2.1),
    counts := outs.foldl (fun a o => a.add (countOf (o.1.map Prod.snd) o.2.2)) {}, range := 0, below := 0 }

/-- All that a DRN writes (R142, R202, R203). -/
def State.drnOut (s : State) (i : Issue) : DrainOut :=
  let v := s.cl i.c
  let n := rowCount s i
  let N := tileN ((runFormats v (drnAcc i) n).headD 9)
  let cells := runCells v (drnAcc i) n N
  let vals := cells.map (fun c => cellVal c.1 c.2.1 c.2.2)
  let f := hFormat (s.handle i.c (fH i))
  { roundRows f (bitsOf i.x0 13 12) (drnScaled i) (s.roundingFor i.c (drnMode i) (bitOf i.x0 11) (s.sr i.c (fC i))) (vals.map Prod.fst) with
    range := vals.countP Prod.snd, below := cells.countP (fun c => c.2.2.below) }

/-- The slot size in bytes of a binding's partials (Table 5.3). -/
def slotBytes (f : Nat) : Nat := if isLane f then 8 else if f = 2 ∨ f = 3 then 64 else 16

/-- A cell as a slot of Table 5.3. -/
def slotOfCell (f : Nat) (c : Cell) : Nat :=
  let flag := fun (b : Bool) (k : Nat) => if b then 2 ^ k else 0
  if isLane f then (if c.range then 0x7FF8000000000000 else (closeLane c).toNat)
  else
    let w := if slotBytes f = 64 then 320 else 96
    (c.v.emod (2 ^ w)).toNat + flag c.nan w + flag c.posInf (w + 1) + flag c.negInf (w + 2) + flag c.range (w + 3) +
      flag c.below (w + 4) + c.count % 2 ^ 27 * 2 ^ (w + 5)

/-- Slots packed in rows: slot i at bytes i × slot size (R143). -/
def packSlots (bytes : Nat) (sl : List Nat) : List Row :=
  let per := 512 / bytes
  (List.range (sl.length / per)).map (fun j =>
    BitVec.ofNat 4096 (((sl.drop (j * per)).take per).foldr (fun e a => e + a * 256 ^ bytes) 0))

/-- All that a DRNP writes (R143, R204). -/
def State.drnpOut (s : State) (i : Issue) : List Row :=
  let v := s.cl i.c
  let n := rowCount s i
  let f := (runFormats v (drnAcc i) n).headD 9
  packSlots (slotBytes f) ((runCells v (drnAcc i) n (tileN f)).map (fun c => slotOfCell f c.2.2))

/-- The checks of R205 that both drains share, on a run of n rows with `per` elements or slots in a destination row. -/
def runBad (v : Cluster) (acc n per N : Nat) : Bool :=
  decide (64 < acc + n) || decide (1 < (runFormats v acc n).length) || decide (n * N % per ≠ 0)

def bodyDrn (i : Issue) (s : State) : Effect :=
  let v := s.cl i.c
  let n := rowCount s i
  let e := s.handle i.c (fH i)
  let f := hFormat e
  let N := tileN ((runFormats v (drnAcc i) n).headD 9)
  if n = 0 then .ok s
  else if v.hold.isSome then .hold s (v.hold.getD (s.holdFor 0x62 i)) (decide (v.st = .waiting))
  else if f = 0xF ∨ runBad v (drnAcc i) n (elemsPerRow f) N ∨ (drnScaled i = false ∧ alwaysScaled f) ∨
      (drnScaled i ∧ (mayScale f = false ∨ N ≠ 64 ∨ 512 < (fImm16 i).toNat + n * N / 32)) then .trap s 0x04 0 0
  else if handleRangeOk e (s.ctxOf i.c) .engineWrite (s.sr i.c (fB i)).toNat (n * N / elemsPerRow f) then
    .hold s { opcode := 0x62, iss := calm i } false
  else .trap s 0x05 0 0
def execDrn (i : Issue) (s : State) : Result :=
  .next (if i.u = .engine ∧ s.canRetire 0x62 i then s.engineError i.c true else s.retireWith 0x62 i (drnLegal i) (fun s => .ok s) (bodyDrn i))

def bodyDrnp (i : Issue) (s : State) : Effect :=
  let v := s.cl i.c
  let n := rowCount s i
  let e := s.handle i.c (fH i)
  let f := (runFormats v (drnAcc i) n).headD 9
  let per := 512 / slotBytes f
  if n = 0 then .ok s
  else if v.hold.isSome then .hold s (v.hold.getD (s.holdFor 0x63 i)) (decide (v.st = .waiting))
  else if runBad v (drnAcc i) n per (tileN f) then .trap s 0x04 0 0
  else if handleRangeOk e (s.ctxOf i.c) .engineWrite (s.sr i.c (fB i)).toNat (n * tileN f / per) then
    .hold s { opcode := 0x63, iss := calm i } false
  else .trap s 0x05 0 0
def execDrnp (i : Issue) (s : State) : Result :=
  .next (if i.u = .engine ∧ s.canRetire 0x63 i then s.engineError i.c true else s.retireWith 0x63 i (drnpLegal i) (fun s => .ok s) (bodyDrnp i))

/-- Accumulator rows left unbound (R145, R207). -/
def clearAccs (acc n : Nat) (v : Cluster) : Cluster :=
  { v with eng := { v.eng with accs := (List.range n).foldl (fun a r => Tbl.set (fun _ => {}) a (acc + r) {}) v.eng.accs } }

/-- What a drain does at its retirement: counts, block scales of DRN into v[a], and the clear option (R203, R206). -/
def State.drainEnd (s : State) (i : Issue) (drn : Bool) : State :=
  let n := rowCount s i
  let t := if drn then
      let o := s.drnOut i
      let t := s.modCl i.c (fun v => { v with ev := countConv o.counts { v.ev with range := satAdd v.ev.range o.range, below := satAdd v.ev.below o.below } })
      if drnScaled i then
        let at' := (fImm16 i).toNat
        t.modRegs i.c (fun r => r.mergeBits (fA i) (byteBits at' o.scales.length)
          (BitVec.ofNat 4096 (o.scales.foldr (fun e a => e + a * 256) 0 * 256 ^ at')))
      else t
    else s
  if fF i % 2 = 1 then t.modCl i.c (clearAccs (drnAcc i) n) else t

/-- One row operation of a held DRN or DRNP; after the last the drain retires (R206). -/
def State.drainOp (s : State) (h : Hold) : State :=
  let i := h.iss
  let drn := decide (h.opcode = 0x62)
  let rows := if drn then (s.drnOut i).rows else s.drnpOut i
  let e := s.handle i.c (fH i)
  let b := handleRow e ((s.sr i.c (fB i)).toNat + h.j)
  match s.entryAccess i.c e b (writeBy e) (rows.getD h.j 0) .none with
  | .wait => s.rowOpWait h
  | .bad t => t.integrityTrap i.c e b h.j
  | .done _ t => if h.j + 1 = rows.length then (t.drainEnd i drn).finish i (.ok (t.drainEnd i drn)) else t.rowOpDone h rows.length

def execDrainRowOperation (c : Nat) (u : Upset) (s : State) : Result :=
  match s.heldOn c 0x62, s.heldOn c 0x63 with
  | some h, _ | none, some h => .next (if u = .engine then s.engineError c true else s.drainOp h)
  | none, none => .next s

def formAclr : Form := { d := .scalar, fmask := 63 }
def bodyAclr (i : Issue) (s : State) : Effect :=
  let n := rowCount s i
  if n = 0 then .ok s
  else if 64 < fF i + n then .trap s 0x04 0 0
  else .ok (s.modCl i.c (clearAccs (fF i) n))
def execAclr (i : Issue) (s : State) : Result := s.retire 0x64 i (formAclr.legal i) (bodyAclr i)

end Sys2Proof.Machine
end

