-- ==== Sys2Proof/Machine/Vector.lean ====
section
/-! DEFINITION. The vector unit: elementwise operations, comparisons, row reductions, conversion and quantisation
(05, 07). -/

namespace Sys2Proof.Machine

open Sys2Proof

/-! ## The vector control field (Table 7.5) -/

def vcFmt (i : Issue) : Nat := bitsOf (fImm16 i) 3 0
def vcDfmt (i : Issue) : Nat := bitsOf (fImm16 i) 7 4
def vcMode (i : Issue) : Nat := bitsOf (fImm16 i) 10 8
def vcSat (i : Issue) : Bool := bitOf (fImm16 i) 11
def vcMethod (i : Issue) : Nat := bitsOf (fImm16 i) 13 12

/-- No reserved code stands in the control field (R197). -/
def vcLegal (i : Issue) : Bool :=
  !fmtReserved (vcFmt i) && !fmtReserved (vcDfmt i) && decide (vcMode i < 5) && decide (vcMethod i < 2) &&
    bitsOf (fImm16 i) 15 14 == 0

/-- The rounding of a vector instruction: its position is s[d] (R120). -/
def State.vcRounding (s : State) (i : Issue) : Rounding :=
  s.roundingFor i.c (vcMode i) (vcSat i) (s.sr i.c (fD i))

/-! ## Operations a format takes part in (Table 5.4) -/

/-- The kinds of operation Table 5.4 lists. -/
inductive VKind where
  | addMul
  | arith
  | compare
  | minMax
  | approx
  deriving DecidableEq, Repr

/-- Table 5.4. -/
def vecListed (k : VKind) (f : Nat) : Bool :=
  match k with
  | .addMul => f == 0 || f == 1 || f == 2 || f == 3 || f == 9
  | .arith => f == 0 || f == 1 || f == 2 || f == 3
  | .compare => f == 0 || f == 1 || f == 2 || f == 3 || f == 4 || f == 5 || f == 9
  | .minMax => f == 1 || f == 2 || f == 3 || f == 4 || f == 5 || f == 9
  | .approx => f == 1

/-- Formats that may be unscaled sources and destinations of a conversion (R211, R212). -/
def unscaledFmt (f : Nat) : Bool := f == 9 || f == 0xA || decide (f ≤ 5)

/-! ## Elements under a byte mask -/

/-- The elements of a row as codes. -/
def rowElems (f : Nat) (r : Row) : List Nat := (List.range (elemsPerRow f)).map (elemAt f r)

/-- Whether some byte of element k is enabled by a mask. -/
def elemEnabled (m : Mask) (f k : Nat) : Bool :=
  let w := elemWidth f
  (List.range (w / 8 + 2)).any (fun j => decide (w * k / 8 + j ≤ (w * k + w - 1) / 8) && bitOf m (w * k / 8 + j))

/-- Bits [lo, hi) of a row. -/
def bitRange (lo hi : Nat) : Row := if lo < hi then BitVec.ofNat 4096 (2 ^ hi - 2 ^ lo) else 0

/-- Results counted where they are written: those of elements some byte of which the mask enables (R118). -/
def writtenCounts (m : Mask) (f k0 : Nat) (rs : List (Nat × Count)) : List Count :=
  (rs.zipIdx.filter (fun r => elemEnabled m f (k0 + r.2))).map (fun r => r.1.2)

/-- Results written from element k0 of v[a] on, in format f, under the mask, and counted. -/
def State.putElems (s : State) (c a f k0 : Nat) (rs : List (Nat × Count)) (nanScale : Nat) : State :=
  let w := elemWidth f
  let d : Row := BitVec.ofNat 4096 ((packRow f (rs.map Prod.fst)).toNat * 2 ^ (w * k0))
  let m := (s.regsOf c).mask a
  (s.modRegs c (fun r => r.mergeBits a (bitRange (w * k0) (w * (k0 + rs.length))) d)).modCl c
    (fun v => { v with ev := countConv (countOf (writtenCounts m f k0 rs) nanScale) v.ev })

/-! ## Elementwise operations (R208) -/

/-- The NaN a format writes where an exact operation has a NaN operand. -/
def nanCode (f : Nat) : Nat := match fmtOf f with
  | some m => m.nan.getD 0
  | none => 0

/-- An element that an exact operation chooses or changes in sign: counted where it is NaN. -/
def exactElem (f : Nat) (v : Val) : Nat × Count := if v = .nan then (nanCode f, .nanOut) else roundElem f {} 0 v

/-- The form of a two-source, a three-source and a one-source vector operation. -/
def formV2 : Form := { a := .small, b := .small, c := .small, d := .scalar, imm := true }
def formV1 : Form := { a := .small, b := .small, d := .scalar, imm := true }

/-- An elementwise operation: operand errors, then element i of v[a] from element i of each source (R208). -/
def elementwise (k : VKind) (g : Rounding → Nat → Nat → Nat → Nat → Nat → Nat × Count) (i : Issue) (s : State) : Effect :=
  let f := vcFmt i
  if vcDfmt i ≠ f ∨ vcMethod i ≠ 0 ∨ vecListed k f = false then .trap s 0x04 0 0
  else
    let r := s.regsOf i.c
    let rd := s.vcRounding i
    let a := r.row (fA i)
    let b := r.row (fB i)
    let c := r.row (fC i)
    .ok (s.putElems i.c (fA i) f 0 ((List.range (elemsPerRow f)).map (fun n =>
      g rd f n (elemAt f a n) (elemAt f b n) (elemAt f c n))) 0)

/-- The sign of an exact zero sum of two values of unlike sign: minus only when rounding toward minus infinity
(IEEE 754-2019, 6.3). -/
def zeroSign (rd : Rounding) : Bool := rd.mode == 2

def vecAdd (rd : Rounding) (f n _a b c : Nat) : Nat × Count :=
  roundElem f rd n ((decodeElem f b).add (zeroSign rd) (decodeElem f c))
def vecSub (rd : Rounding) (f n _a b c : Nat) : Nat × Count :=
  roundElem f rd n ((decodeElem f b).add (zeroSign rd) (decodeElem f c).neg)
def vecMul (rd : Rounding) (f n _a b c : Nat) : Nat × Count := roundElem f rd n ((decodeElem f b).mul (decodeElem f c))
def vecDiv (rd : Rounding) (f n _a b c : Nat) : Nat × Count := roundElem f rd n ((decodeElem f b).div (decodeElem f c))
def vecMin (_rd : Rounding) (f _n _a b c : Nat) : Nat × Count := exactElem f ((decodeElem f b).min (decodeElem f c))
def vecMax (_rd : Rounding) (f _n _a b c : Nat) : Nat × Count := exactElem f ((decodeElem f b).max (decodeElem f c))
def vecFma (rd : Rounding) (f n a b c : Nat) : Nat × Count :=
  roundElem f rd n (((decodeElem f b).mul (decodeElem f c)).add (zeroSign rd) (decodeElem f a))
def vecSqrt (rd : Rounding) (f n _a b _c : Nat) : Nat × Count := roundElem f rd n (decodeElem f b).sqrt
def vecAbs (_rd : Rounding) (f _n _a b _c : Nat) : Nat × Count := exactElem f (decodeElem f b).abs
def vecNeg (_rd : Rounding) (f _n _a b _c : Nat) : Nat × Count := exactElem f (decodeElem f b).neg

def execVadd (i : Issue) (s : State) : Result := s.retire 0x70 i (formV2.legal i && vcLegal i) (elementwise .addMul vecAdd i)
def execVsub (i : Issue) (s : State) : Result := s.retire 0x71 i (formV2.legal i && vcLegal i) (elementwise .addMul vecSub i)
def execVmul (i : Issue) (s : State) : Result := s.retire 0x72 i (formV2.legal i && vcLegal i) (elementwise .addMul vecMul i)
def execVdiv (i : Issue) (s : State) : Result := s.retire 0x73 i (formV2.legal i && vcLegal i) (elementwise .arith vecDiv i)
def execVmin (i : Issue) (s : State) : Result := s.retire 0x74 i (formV2.legal i && vcLegal i) (elementwise .minMax vecMin i)
def execVmax (i : Issue) (s : State) : Result := s.retire 0x75 i (formV2.legal i && vcLegal i) (elementwise .minMax vecMax i)
def execVfma (i : Issue) (s : State) : Result := s.retire 0x76 i (formV2.legal i && vcLegal i) (elementwise .arith vecFma i)
def execVsqrt (i : Issue) (s : State) : Result := s.retire 0x78 i (formV1.legal i && vcLegal i) (elementwise .arith vecSqrt i)
def execVabs (i : Issue) (s : State) : Result := s.retire 0x79 i (formV1.legal i && vcLegal i) (elementwise .arith vecAbs i)
def execVneg (i : Issue) (s : State) : Result := s.retire 0x7A i (formV1.legal i && vcLegal i) (elementwise .arith vecNeg i)

/-! ## VFUN (R154): the bounds of Table 5.5, in fixed point with 400 fraction bits -/

def fxMul (a b : Int) : Int := a * b / 2 ^ 400
def fxDiv (a b : Int) : Int := a * 2 ^ 400 / b

/-- atanh of a fixed-point number of magnitude at most 1/3, by its series. -/
def fxAtanh (z : Int) : Int :=
  fxMul z ((List.range 130).foldr (fun k acc => 2 ^ 400 / (2 * (k : Int) + 1) + fxMul (fxMul z z) acc) 0)
def fxLn2 : Int := 2 * fxAtanh (fxDiv 1 3)

/-- The natural logarithm of m × 2^e for m > 0. -/
def fxLog (m : Nat) (e : Int) : Int :=
  let k : Int := 2 ^ Nat.log2 m
  2 * fxAtanh (fxDiv (m - k) (m + k)) + floorLog2 m e * fxLn2

/-- The exponential: the series at x / 2^12, squared twelve times. -/
def fxExp (x : Int) : Int :=
  let y := x / 2 ^ 12
  let t := (List.range 48).foldr (fun k acc => 2 ^ 400 + fxMul y acc / ((k : Int) + 1)) (2 ^ 400)
  (List.range 12).foldl (fun acc _ => fxMul acc acc) t

/-- The real value of VFUN's function `k` at a finite input, to within 2^-300 of it; none at a pole, outside the
domain of the function, and where the value lies beyond the largest finite FP32. -/
def funExact (k : Nat) (neg : Bool) (m : Nat) (e : Int) : Option Int :=
  let x := signedAt neg m e (-400)
  let top : Int := 2 ^ 528 - 2 ^ 504
  let bounded := fun (v : Int) => if -top ≤ v ∧ v ≤ top then some v else none
  match k with
  | 0 => if m = 0 then none else bounded (fxDiv (2 ^ 400) x)
  | 1 => if m = 0 ∨ neg then none else some (Nat.sqrt (2 ^ 1200 / x.toNat))
  | 2 => if 128 * 2 ^ 400 ≤ x then none else if x < -(200 * 2 ^ 400) then some 0 else bounded (fxExp (fxMul x fxLn2))
  | 3 => if m = 0 ∨ neg then none else some (fxDiv (fxLog m e) fxLn2)
  | 4 => if 89 * 2 ^ 400 ≤ x then none else if x < -(130 * 2 ^ 400) then some 0 else bounded (fxExp x)
  | 5 => if m = 0 ∨ neg then none else some (fxLog m e)
  | 6 =>
    if 50 * 2 ^ 400 ≤ x then some (2 ^ 400) else if x ≤ -(50 * 2 ^ 400) then some (-(2 ^ 400))
    else some (fxDiv (fxExp (2 * x) - 2 ^ 400) (fxExp (2 * x) + 2 ^ 400))
  | _ =>
    if 130 * 2 ^ 400 ≤ x then some (2 ^ 400) else if x ≤ -(130 * 2 ^ 400) then some 0
    else some (fxDiv (2 ^ 400) (2 ^ 400 + fxExp (-x)))

/-- One unit in the last place of FP32 at a fixed-point value. -/
def fxUlp (v : Int) : Int := 2 ^ ((max (floorLog2 v.natAbs (-400)) (-126)) + 377).toNat

/-- Whether an FP32 result lies within the bound of Table 5.5 about a value: 1, 2, 3 or 4 units in the last place by
function, or 2^-24 for tanh and sigmoid below one half. -/
def funWithin (k : Nat) (v : Int) (y : Nat) : Bool :=
  match decodeElem 1 y with
  | .fin neg m e _ =>
    let w := signedAt neg m e (-400)
    let ulps : Int := match k with | 0 => 1 | 1 => 1 | 2 => 2 | 3 => 2 | 4 => 3 | 5 => 3 | _ => 4
    let slack : Int := 2 ^ 100
    decide ((w - v).natAbs ≤ ulps * max (fxUlp v) (fxUlp w) + slack) ||
      (decide (6 ≤ k) && decide ((v.natAbs : Int) < 2 ^ 399) && decide (((w - v).natAbs : Int) ≤ 2 ^ 376 + slack))
  | _ => false

/-- The result of VFUN's function `k` on FP32 input bits: a fixed function of them within Table 5.5. Where the free
value is out of the bound the value's own rounding stands in its place; a NaN is read and written as the one of Table
4.3 (R111). Where the function has no value, or one beyond the format, the result is free (notes/assumptions/34.md). -/
def funResult (k x : Nat) : Nat :=
  let x := if decodeElem 1 x = .nan then nanCode 1 else x
  let y := (Config.vfun (BitVec.ofNat 3 k) (BitVec.ofNat 32 x)).toNat
  let y := if decodeElem 1 y = .nan then nanCode 1 else y
  match decodeElem 1 x with
  | .fin neg m e _ => (match funExact k neg m e with
      | some v => if funWithin k v y then y else (roundElem 1 { } 0 (Val.ofInt v (-400))).1
      | none => y)
  | _ => y

/-- VFUN: an approximate function of FP32; the rounding-mode operand is ignored (R154). -/
def vecFun (k : Nat) (_rd : Rounding) (_f _n _a b _c : Nat) : Nat × Count :=
  let y := funResult k b
  (y, if decodeElem 1 y = .nan then .nanOut else .none)
def formVfun : Form := { a := .small, b := .small, d := .scalar, fmask := 7, imm := true }
def execVfun (i : Issue) (s : State) : Result :=
  s.retire 0x7B i (formVfun.legal i && vcLegal i) (elementwise .approx (vecFun (fF i % 8)) i)

/-! ## VCMP (R209) -/

/-- The conditions of VCMP: a NaN operand makes NE true and every other false. -/
def vcmpHolds (cond : Nat) (a b : Val) : Bool :=
  if a = .nan ∨ b = .nan then cond == 1
  else match cond with
    | 0 => !a.lt b && !b.lt a
    | 1 => a.lt b || b.lt a
    | 2 => a.lt b
    | 3 => !b.lt a
    | 4 => b.lt a
    | _ => !a.lt b

/-- The mask whose bits are those of the bytes of the elements listed. -/
def elemMask (f : Nat) (bs : List Bool) : Mask :=
  let n := elemWidth f / 8
  BitVec.ofNat 512 (bs.foldr (fun b a => (if b then 2 ^ n - 1 else 0) + a * 2 ^ n) 0)

def formVcmp : Form := { a := .small, b := .small, c := .small, d := .scalar, fmask := 7, imm := true }
def bodyVcmp (i : Issue) (s : State) : Effect :=
  let f := vcFmt i
  if vcDfmt i ≠ f ∨ vcMethod i ≠ 0 ∨ vecListed .compare f = false then .trap s 0x04 0 0
  else
    let b := rowElems f ((s.regsOf i.c).row (fB i))
    let c := rowElems f ((s.regsOf i.c).row (fC i))
    .ok (s.modRegs i.c (fun r => r.setMask (fA i) (elemMask f ((b.zip c).map (fun p =>
      vcmpHolds (fF i % 8) (decodeElem f p.1) (decodeElem f p.2))))))
def execVcmp (i : Issue) (s : State) : Result :=
  s.retire 0x77 i (formVcmp.legal i && vcLegal i && decide (fF i % 8 < 6)) (bodyVcmp i)

/-! ## Row reductions (R155, R210) -/

/-- The tree T over a power of two of values, each node rounded to FP64. -/
def treeSum : (levels : Nat) → List Word → Word
  | 0, l => l.headD 0
  | n + 1, l => treeSum n (pairLevel l)

def bodyVrsum (i : Issue) (s : State) : Effect :=
  let f := vcFmt i
  let g := vcDfmt i
  if 3 < f ∨ 3 < g then .trap s 0x04 0 0
  else
    let es := (rowElems f ((s.regsOf i.c).row (fB i))).map (fun e => rne64 (decodeElem f e))
    .ok (s.putElems i.c (fA i) g 0 [roundElem g (s.vcRounding i) 0 (val64 (treeSum 8 es))] 0)
def execVrsum (i : Issue) (s : State) : Result := s.retire 0x7C i (formV1.legal i && vcLegal i) (bodyVrsum i)

/-- VRMAX and VRMIN by the choice `pick`. -/
def rowExtreme (pick : Val → Val → Val) (i : Issue) (s : State) : Effect :=
  let f := vcFmt i
  if vcDfmt i ≠ f ∨ vecListed .minMax f = false then .trap s 0x04 0 0
  else
    let vs := (rowElems f ((s.regsOf i.c).row (fB i))).map (decodeElem f)
    .ok (s.putElems i.c (fA i) f 0 [exactElem f ((vs.drop 1).foldl pick (vs.headD .nan))] 0)
def execVrmax (i : Issue) (s : State) : Result := s.retire 0x7D i (formV1.legal i && vcLegal i) (rowExtreme Val.max i)
def execVrmin (i : Issue) (s : State) : Result := s.retire 0x7E i (formV1.legal i && vcLegal i) (rowExtreme Val.min i)

/-! ## Conversion and quantisation (R211, R212) -/

/-- The elements converted, and where they start in the source and in the destination. -/
structure Placing where
  n : Nat
  src : Nat
  dst : Nat

/-- The placement of R211; none where it is an operand error. -/
def placing (sf df f : Nat) : Option Placing :=
  let a := elemsPerRow sf
  let b := elemsPerRow df
  if a < b then (if 32 * f + a ≤ b then some ⟨a, 0, 32 * f⟩ else none)
  else if b < a then (if 32 * f + b ≤ a then some ⟨b, 32 * f, 0⟩ else none)
  else if f = 0 then some ⟨a, 0, 0⟩ else none

def formVcvt : Form := { a := .small, b := .small, d := .scalar, fmask := 63, imm := true }
def bodyVcvt (i : Issue) (s : State) : Effect :=
  let sf := vcFmt i
  let df := vcDfmt i
  if unscaledFmt sf = false ∨ unscaledFmt df = false then .trap s 0x04 0 0
  else match placing sf df (fF i) with
    | none => .trap s 0x04 0 0
    | some p =>
      let row := (s.regsOf i.c).row (fB i)
      let rd := s.vcRounding i
      .ok (s.putElems i.c (fA i) df p.dst ((List.range p.n).map (fun n =>
        roundElem df rd (p.dst + n) (decodeElem sf (elemAt sf row (p.src + n))))) 0)
def execVcvt (i : Issue) (s : State) : Result := s.retire 0x80 i (formVcvt.legal i && vcLegal i) (bodyVcvt i)

def formQuant : Form := { a := .small, b := .small, c := .small, d := .scalar, fmask := 63, imm := true, ext := 1 }
def quantLegal (i : Issue) : Bool := formQuant.legal i && vcLegal i && bitsOf i.x0 63 9 == 0
def quantOff (i : Issue) : Nat := bitsOf i.x0 8 0

/-- Block scales written to bytes of v[c] under its mask; where v[c] is v[a], what those bytes hold is open. -/
def State.putScales (s : State) (i : Issue) (off : Nat) (ss : List Nat) : State :=
  let d : Row := BitVec.ofNat 4096 (ss.foldr (fun e a => e + a * 256) 0 * 256 ^ off)
  if fC i = fA i then
    (s.modRegs i.c (fun r => r.mergeBits (fC i) (bitRange (8 * off) (8 * (off + ss.length))) (Config.freeRow s.fresh))).draw
  else s.modRegs i.c (fun r => r.mergeBits (fC i) (bitRange (8 * off) (8 * (off + ss.length))) d)

def bodyVqnt (i : Issue) (s : State) : Effect :=
  let sf := vcFmt i
  let df := vcDfmt i
  if unscaledFmt sf = false ∨ mayScale df = false then .trap s 0x04 0 0
  else match placing sf df (fF i) with
    | none => .trap s 0x04 0 0
    | some p =>
      if 512 < quantOff i + p.n / 32 then .trap s 0x04 0 0
      else
        let row := (s.regsOf i.c).row (fB i)
        let vs := (List.range p.n).map (fun n => decodeElem sf (elemAt sf row (p.src + n)))
        let rd := s.vcRounding i
        let bs := (blocksOf (p.n / 32) vs).zipIdx.map (fun b => quantBlock df (vcMethod i) rd (p.dst + 32 * b.2) b.1)
        .ok ((s.putElems i.c (fA i) df p.dst (bs.flatMap (fun b => b.2.1)) (bs.countP (fun b => b.2.2))).putScales i
          (quantOff i) (bs.map Prod.fst))
def execVqnt (i : Issue) (s : State) : Result := s.retire 0x81 i (quantLegal i) (bodyVqnt i)

def bodyVdq (i : Issue) (s : State) : Effect :=
  let sf := vcFmt i
  let df := vcDfmt i
  if mayScale sf = false ∨ unscaledFmt df = false then .trap s 0x04 0 0
  else match placing sf df (fF i) with
    | none => .trap s 0x04 0 0
    | some p =>
      if 512 < quantOff i + p.n / 32 then .trap s 0x04 0 0
      else
        let row := (s.regsOf i.c).row (fB i)
        let sc := (s.regsOf i.c).row (fC i)
        let rd := s.vcRounding i
        .ok (s.putElems i.c (fA i) df p.dst ((List.range p.n).map (fun n =>
          roundElem df rd (p.dst + n) (scaledElem sf (rowByte sc (quantOff i + n / 32)) (elemAt sf row (p.src + n))))) 0)
def execVdq (i : Issue) (s : State) : Result := s.retire 0x82 i (quantLegal i) (bodyVdq i)

end Sys2Proof.Machine
end

