-- ==== Sys2Proof/Machine/Collect.lean ====
section
/-! DEFINITION. Collectives: REDUCE, ALLRED, RSCAT and AGATH, the trees of R147 and R266, their packets and the
completion wave (05, 07, 08). -/

namespace Sys2Proof.Machine

open Sys2Proof

/-! ## The collective extension word (Table 7.7) -/

def cxSrc (x : Word) : Nat := bitsOf x 11 0
def cxDst (x : Word) : Nat := bitsOf x 23 12
def cxDfmt (x : Word) : Nat := bitsOf x 27 24
def cxSfmt (x : Word) : Nat := bitsOf x 31 28
def cxAnchor (x : Word) : Int := (x.extractLsb' 32 10).toInt
def cxMode (x : Word) : Nat := bitsOf x 44 42
def cxSat (x : Word) : Bool := bitOf x 45
def cxRaw (x : Word) : Bool := bitOf x 46
def cxKind (x : Word) : Nat := bitsOf x 49 47
def cxOp (x : Word) : Nat := bitsOf x 51 50

def formColl : Form := { b := .scalar, c := .scalar, d := .scalar, ext := 1 }
def collLegal (i : Issue) : Bool :=
  formColl.legal i && !fmtReserved (cxDfmt i.x0) && !fmtReserved (cxSfmt i.x0) && decide (cxMode i.x0 < 5) &&
    decide (cxKind i.x0 < 5) && decide (cxOp i.x0 < 3) && bitsOf i.x0 63 52 == 0

/-- Slots or elements in one source row of a kind. -/
def slotsPerRow (kind sfmt : Nat) : Nat :=
  match kind with
  | 0 => 32
  | 1 => 8
  | 2 => 64
  | 3 => 128
  | _ => elemsPerRow sfmt

/-- Whether sfmt is one that the instruction and kind allow (R229). -/
def sfmtOk (agath : Bool) (kind sfmt : Nat) : Bool :=
  if agath then unscaledFmt sfmt
  else match kind with
    | 0 => decide (4 ≤ sfmt) && decide (sfmt ≤ 0xA)
    | 1 => sfmt == 2 || sfmt == 3
    | 2 => sfmt == 0
    | 3 => sfmt == 0
    | _ => unscaledFmt sfmt

/-- The anchor of a collective (R229). -/
def collAnchorOk (agath : Bool) (kind sfmt : Nat) (A : Int) : Bool :=
  if agath then A == 0
  else match kind with
    | 0 => decide (-254 ≤ A) && decide (A ≤ 254)
    | 1 => if sfmt = 2 then decide (-106 ≤ A) && decide (A ≤ 128) else A == 0
    | _ => A == 0

/-- Result rows of a reduction of n source rows (R228). -/
def collRows (x : Word) (n : Nat) : Nat :=
  if cxRaw x || decide (cxKind x = 4) then n else n * slotsPerRow (cxKind x) (cxSfmt x) / elemsPerRow (cxDfmt x)

/-- The operand errors of R229 that the parameters alone decide. -/
def collBad (agath still : Bool) (x : Word) (n : Nat) : Bool :=
  let kind := cxKind x
  if agath then
    cxDfmt x != cxSfmt x || !sfmtOk true kind (cxSfmt x) || !collAnchorOk true kind 0 (cxAnchor x) || cxRaw x ||
      kind != 0 || cxOp x != 0 || cxMode x != 0 || cxSat x
  else
    !unscaledFmt (cxDfmt x) || (decide (kind = 3) && still) || (decide (kind = 4) != decide (cxOp x ≠ 0)) ||
      !sfmtOk false kind (cxSfmt x) || !collAnchorOk false kind (cxSfmt x) (cxAnchor x) ||
      (cxRaw x && decide (3 ≤ kind)) || (decide (kind = 4) && cxDfmt x != cxSfmt x) ||
      (!cxRaw x && decide (kind < 4) && decide (n * slotsPerRow kind (cxSfmt x) % elemsPerRow (cxDfmt x) ≠ 0))

/-! ## Combining (R144, R228) -/

/-- A slot of Table 5.3 read as a cell; the value has `w` bits. -/
def cellOfSlot (w e : Nat) : Cell :=
  let v := e % 2 ^ w
  let flag := fun k => decide (e / 2 ^ (w + k) % 2 = 1)
  { v := if 2 ^ (w - 1) ≤ v then (v : Int) - 2 ^ w else v, nan := flag 0, posInf := flag 1, negInf := flag 2,
    range := flag 3, below := flag 4, count := e / 2 ^ (w + 5) % 2 ^ 27 }

/-- Two slots combine (R144). -/
def combineCells (a b : Cell) : Cell :=
  let n := a.count + b.count
  let many := decide (2 ^ 24 < n)
  { v := if many then 0 else a.v + b.v, nan := a.nan || b.nan, posInf := a.posInf || b.posInf,
    negInf := a.negInf || b.negInf, range := a.range || b.range || many, below := a.below || b.below,
    count := min n (2 ^ 27 - 1) }

/-- Two rows combined piece by piece, `bits` wide. -/
def zipRow (bits : Nat) (f : Nat → Nat → Nat) (a b : Row) : Row :=
  BitVec.ofNat 4096 ((List.range (4096 / bits)).foldr (fun k acc =>
    f (a.toNat / 2 ^ (bits * k) % 2 ^ bits) (b.toNat / 2 ^ (bits * k) % 2 ^ bits) % 2 ^ bits + acc * 2 ^ bits) 0)

/-- Two source rows of a collective combined. -/
def combineRows (x : Word) (a b : Row) : Row :=
  match cxKind x with
  | 0 => zipRow 128 (fun a b => slotOfCell 9 (combineCells (cellOfSlot 96 a) (cellOfSlot 96 b))) a b
  | 1 => zipRow 512 (fun a b => slotOfCell 2 (combineCells (cellOfSlot 320 a) (cellOfSlot 320 b))) a b
  | 2 => zipRow 64 (fun a b => (add64 (BitVec.ofNat 64 a) (BitVec.ofNat 64 b)).toNat) a b
  | 3 => zipRow 32 (fun a b => (roundElem 1 {} 0 ((decodeElem 1 a).add false (decodeElem 1 b))).1) a b
  | _ => zipRow (elemWidth (cxSfmt x)) (fun a b => (exactElem (cxSfmt x)
      (if cxOp x = 1 then (decodeElem (cxSfmt x) a).max (decodeElem (cxSfmt x) b)
       else (decodeElem (cxSfmt x) a).min (decodeElem (cxSfmt x) b))).1) a b

/-- A value of zero drains as +0 (R142). -/
def plusZero : Val → Val
  | .fin _ 0 _ _ => .fin false 0 0
  | v => v

/-- The slots of combined rows as the values they round from, with whether a slot is a range NaN, and whether below. -/
def slotVals (x : Word) (rs : List Row) : List (Val × Bool × Bool) :=
  let kind := cxKind x
  let per := slotsPerRow kind (cxSfmt x)
  let bits := 4096 / per
  rs.flatMap (fun r => (List.range per).map (fun k =>
    let e := r.toNat / 2 ^ (bits * k) % 2 ^ bits
    if kind ≤ 1 then
      let c := cellOfSlot (if kind = 0 then 96 else 320) e
      let v := cellVal (cxSfmt x) (cxAnchor x) c
      (v.1, v.2, c.below)
    else (plusZero (decodeElem (if kind = 2 then 0 else 1) e), false, false)))

/-! ## Trees (R147, R266) -/

/-- The largest power of two that divides a rank. -/
def lowBit (k : Nat) : Nat := Nat.gcd k 8192

/-- The parent of rank k in Still mode. -/
def stillParent (k : Nat) : Nat := k - lowBit k

/-- The children of rank k of m members in Still mode, in the order they combine. -/
def stillChildren (m k : Nat) : List Nat :=
  (List.range 13).filterMap (fun i => if (k = 0 || decide (2 ^ i < lowBit k)) && decide (k + 2 ^ i < m) then some (k + 2 ^ i) else none)

/-- The lowest rank of a member's region. -/
def leaderOf (ms : List Nat) (k : Nat) : Nat := ms.findIdx (fun c => regionOf c == regionOf (ms.getD k 0))

/-- The parent of rank k in free-order mode: its region's leader, or rank 0 for a leader. -/
def freeParent (ms : List Nat) (k : Nat) : Nat := if leaderOf ms k = k then 0 else leaderOf ms k

/-- The children of rank k in free-order mode. -/
def freeChildren (ms : List Nat) (k : Nat) : List Nat :=
  (List.range ms.length).filter (fun j => j != k && freeParent ms j == k && (k == 0 || leaderOf ms k == k))

def Coll.parent (q : Coll) : Nat := if q.still then stillParent q.rank else freeParent q.members q.rank
def Coll.children (q : Coll) : List Nat := if q.still then stillChildren q.members.length q.rank else freeChildren q.members q.rank

/-- The rows the children delivered, each with the number it has among those of its child, in the order they arrived. -/
def numberRows : List (Nat × Row) → List (Nat × Nat) → List (Nat × Nat × Row)
  | [], _ => []
  | (r, d) :: rest, seen =>
    let j := (seen.find? (fun e => e.1 == r)).elim 0 Prod.snd
    (r, j, d) :: numberRows rest ((r, j + 1) :: seen)

/-- Row j combined, where every child has delivered it: in rank order in Still mode, else in arrival order, those of
the same region first. -/
def Coll.combined (q : Coll) (j : Nat) : Option Row :=
  let rows := (numberRows q.child []).filter (fun e => e.2.1 == j)
  let home := fun (e : Nat × Nat × Row) => regionOf (q.members.getD e.1 0) == regionOf (q.members.getD q.rank 0)
  if q.children.all (fun c => rows.any (fun e => e.1 == c)) then
    let ds := if q.still then q.children.filterMap (fun c => (rows.find? (fun e => e.1 == c)).map (fun e => e.2.2))
      else (rows.filter home ++ rows.filter (fun e => !home e)).map (fun e => e.2.2)
    some (ds.foldl (combineRows q.ext) (q.own.getD j 0))
  else none

/-! ## Packets of a collective -/

/-- A packet of a collective from the member that holds it; a header-only one has no data flits. -/
def Coll.pkt (q : Coll) (ty : PType) (m handle : Nat) (idx : Word) (units status : Nat) (d : Row) : Packet :=
  { id := 0, ptype := ty, src := .cluster (q.members.getD q.rank 0), dst := .cluster (q.members.getD m 0),
    handle := handle, index := idx, span := cxSrc q.ext, rank := q.rank, ext := q.ext, collDst := q.dst,
    collCount := BitVec.ofNat 64 q.n, opcode := q.opcode, nth := q.nth, access := 4, units := units, status := status,
    data := d }

/-- A packet put behind those the member still has to send. -/
def Coll.queue (q : Coll) (k : Packet) : Coll := { q with outq := q.outq ++ [k], due := q.due + 1 }

/-- A result row for handle row idx of member `m`: sent, or written by the member's own unit. -/
def Coll.result (q : Coll) (m idx : Nat) (d : Row) : Coll :=
  let k := q.pkt .collRes m (q.dstHandles.getD m 0) (BitVec.ofNat 64 idx) 8 0 d
  if m = q.rank then { q with localq := q.localq ++ [k], due := q.due + 1 } else q.queue k

/-- The collective a packet belongs to. -/
def isColl (k : Packet) (q : Coll) : Bool := cxSrc q.ext == k.span && q.nth == k.nth
def collOf (v : Cluster) (k : Packet) : Option Coll := v.fab.colls.find? (isColl k)
def State.modColl (s : State) (c : Nat) (k : Packet) (f : Coll → Coll) : State :=
  s.modCl c (fun v => { v with fab := { v.fab with colls := v.fab.colls.map (fun q => if isColl k q then f q else q) } })

/-- A status raised at a node: kept and passed up once; 5 takes precedence over 6 (R265). -/
def Coll.raiseStatus (q : Coll) (st : Nat) : Coll :=
  if st = 0 ∨ q.status = 5 ∨ q.status = st then q
  else
    let q := { q with status := st }
    if q.rank = 0 then q
    else q.queue (q.pkt .coll q.parent 0 q.src 0 st 0)

/-- How a child's header compares with the node's own parameters (R230, R265). -/
def Coll.compare (q : Coll) (k : Packet) : Nat :=
  let soft : Word := 0x3FFF0000000
  let same := decide (k.opcode = q.opcode) && decide (k.index = q.src) && decide (k.collDst = q.dst) &&
    k.collCount.toNat == q.n
  if same && decide (k.ext = q.ext) then 0
  else if same && decide (k.ext &&& ~~~soft = q.ext &&& ~~~soft) then 6
  else 5

/-- A COLL packet of a child acts on the node's collective (R264, R265). -/
def Coll.take (q : Coll) (k : Packet) : Coll :=
  if q.done then q
  else if k.units = 0 && decide (k.status ≠ 0) then q.raiseStatus k.status
  else
    let st := if q.seen.contains k.rank then 0 else q.compare k
    let q := { q with seen := if q.seen.contains k.rank then q.seen else q.seen ++ [k.rank] }
    if st ≠ 0 then q.raiseStatus st
    else if k.units = 0 then { q with childWaves := q.childWaves ++ [k.rank] }
    else if q.status = 0 then { q with child := q.child ++ [(k.rank, k.data)] }
    else q

/-! ## What a member does next -/

/-- A node below rank 0 sends each combined row to its parent in turn. -/
def Coll.climb : (fuel : Nat) → Coll → Coll
  | 0, q => q
  | fuel + 1, q =>
    if q.sent < q.n then
      match q.combined q.sent with
      | some d => Coll.climb fuel { q.queue (q.pkt .coll q.parent 0 q.src 8 0 d) with sent := q.sent + 1 }
      | none => q
    else { q with finished := true }

/-- The results of a reduction, sent where Table 7.8 says; `home r` is the member and handle row of span logical row r. -/
def Coll.spread (q : Coll) (home : Nat → Nat × Nat) (outs : List Row) : Coll :=
  outs.zipIdx.foldl (fun (q : Coll) o =>
    let r := q.dst.toNat + o.2
    if q.opcode = 0xC5 then q.result (home r).1 (home r).2 o.1
    else if q.opcode = 0xC4 then q.children.foldl (fun (q : Coll) m => q.result m r o.1) (q.result 0 r o.1)
    else q.result 0 r o.1) q

/-- The member and handle row of a span logical row of a context (R96). -/
def State.spanHome (s : State) (c n r : Nat) : Nat × Nat :=
  match (s.ctxOf c).bind (fun x => s.span x n) with
  | some sp => (spanMemberOf sp r, spanRowOf sp r)
  | none => (0, r)

/-- Rank 0, every row combined, rounds by R142 and sends the results (R228, R264). -/
def State.rootResults (s : State) (c : Nat) (q : Coll) : State × Coll :=
  let rows := (List.range q.n).filterMap q.combined
  if rows.length < q.n then (s, q)
  else
    let q := { q with finished := true, sent := q.n }
    let home := s.spanHome c (cxDst q.ext)
    if cxRaw q.ext || decide (cxKind q.ext = 4) then (s, q.spread home rows)
    else
      let vs := slotVals q.ext rows
      let o := roundRows (cxDfmt q.ext) 0 false (s.roundingFor c (cxMode q.ext) (cxSat q.ext) q.dst) (vs.map Prod.fst)
      let nr := vs.countP (fun e => e.2.1)
      let nb := vs.countP (fun e => e.2.2)
      (s.modCl c (fun v => { v with ev := countConv o.counts { v.ev with range := satAdd v.ev.range nr, below := satAdd v.ev.below nb } }),
        q.spread home o.rows)

/-- What a member can do on its own: rows climb, rank 0 gives results, AGATH's reports climb (R264, R265). -/
def State.advance (s : State) (c : Nat) (q : Coll) : State × Coll :=
  if q.status ≠ 0 ∨ q.done then (s, q)
  else if q.opcode = 0xC6 then
    (s, if !q.waveUp && q.due == 0 && decide (q.rank ≠ 0) && q.children.all (fun m => q.childWaves.contains m)
        then { q.queue (q.pkt .coll q.parent 0 q.src 0 0 0) with waveUp := true } else q)
  else if q.finished then (s, q)
  else if q.rank = 0 then s.rootResults c q
  else (s, q.climb (q.n + 1))

/-- A failure recorded for a collective (R221). -/
def collFault (cause : Nat) (q : Coll) (v : Cluster) : Cluster :=
  let o : Op := { tag := 0, gen := 0, kind := .coll, pc := q.pc, dst := q.members.getD q.parent 0, flow := 0,
                  progress := q.progress, pkt := q.pkt .coll q.parent 0 0 0 0 0 }
  recordFault cause o v

/-- Packets that the flows' windows let go now; a flow that is held keeps its order. -/
def State.flush (s : State) (c : Nat) (pc : BitVec 32) : List Packet → State × List Packet
  | [] => (s, [])
  | k :: rest =>
    let d := match k.dst with
      | .cluster d => d
      | _ => 0
    let key := collFlowKey d k.span
    if s.maySend c key (regionOf d) then
      let t := s.nextTag c
      let s' := (s.sendOp c key .coll k).modCl c (fun v => { v with fab := { v.fab with
        ops := v.fab.ops.map (fun o => if o.tag = t then { o with pc := pc } else o) } })
      s'.flush c pc rest
    else
      let r := (s.holdFlow c key (regionOf d)).flush c pc rest
      (r.1, k :: r.2)

/-- A row written into the member's own tarn: done, waiting in the remote-wait queue, or still to try (R227). -/
def State.ownWrite (s : State) (c : Nat) (q : Coll) (k : Packet) : State × Bool × Bool :=
  let e := s.handle c k.handle
  if !handleOk e (s.ctxOf c) .remoteWrite k.index.toNat then (s.modCl c (collFault 0x21 q), true, true)
  else
    let n := handleRow e k.index.toNat
    let full := decide (16 ≤ (s.cl c).fab.remoteWait.length)
    let queued := s.modCl c (fun v => { v with fab := { v.fab with remoteWait := v.fab.remoteWait ++
      [{ pkt := { k with context := (s.ctxOf c).getD 0, partition := (s.partOf c).getD 0 }, since := s.now }] } })
    if heldFlow (s.cl c) k then (if full then (s, false, false) else (queued, true, false))
    else match s.entryAccess c e n (writeBy e) k.data .none with
      | .done _ t => (t, true, true)
      | .bad t => ((t.badRowEvent c e n).modCl c (collFault 0x07 q), true, true)
      | .wait => if full then (s, false, false) else (queued, true, false)

/-- The member's own writes tried in turn: the state, those still to try, and how many are done. -/
def State.ownWrites (s : State) (c : Nat) (q : Coll) : List Packet → State × List Packet × Nat
  | [] => (s, [], 0)
  | k :: rest =>
    let a := s.ownWrite c q k
    if a.2.1 then
      let r := a.1.ownWrites c q rest
      (r.1, r.2.1, r.2.2 + (if a.2.2 then 1 else 0))
    else (a.1, k :: rest, 0)

/-- A collective of cluster c goes on as far as it can; `k` names it. -/
def State.pump (s : State) (c : Nat) (k : Packet) : State :=
  match collOf (s.cl c) k with
  | none => s
  | some q =>
    let a := s.advance c q
    let w := a.1.ownWrites c a.2 a.2.localq
    let f := w.1.flush c a.2.pc a.2.outq
    f.1.modColl c k (fun _ => { a.2 with localq := w.2.1, outq := f.2, due := a.2.due - w.2.2 })

/-- Progress at the issuing cluster (R219). -/
def State.collProgress (s : State) (c : Nat) (k : Packet) (f : Coll → Coll) : State :=
  (s.modColl c k (fun q => { f q with progress := s.now })).pump c k

/-! ## Arrival (R264, R265) -/

/-- The completion wave reaches a member: it is passed on to the children, the collective completes, and status 5 or 6
is recorded as a failure (R265). -/
def Coll.endWith (q : Coll) (st : Nat) : Coll :=
  let q := { q with done := true, status := st, localq := if st = 0 then q.localq else [],
                    outq := if st = 0 then q.outq else q.outq.filter (fun k => k.units == 0) }
  q.children.foldl (fun (q : Coll) m => q.queue (q.pkt .collRes m 0 0 0 st 0)) q

def State.waveAt (s : State) (c : Nat) (k : Packet) (st : Nat) : State :=
  match collOf (s.cl c) k with
  | none => s
  | some q =>
    if q.done then s
    else
      let t := if st = 5 then s.modCl c (collFault 0x23 q) else if st = 6 then s.modCl c (collFault 0x04 q) else s
      t.collProgress c k (fun q => q.endWith st)

/-- Whether the collective a packet belongs to has yet to be issued by cluster c. -/
def notYet (v : Cluster) (k : Packet) : Bool := decide (Tbl.get (fun _ => 0) v.fab.collCount k.span ≤ k.nth)

/-- A collective packet that has passed its checks acts on the member's collective. -/
def State.collAct (s : State) (c : Nat) (k : Packet) : State :=
  if (collOf (s.cl c) k).isSome then
    (if k.ptype = .coll then s.collProgress c k (fun q => q.take k) else s.waveAt c k k.status)
  else if notYet (s.cl c) k then s.modCl c (fun v => { v with fab := { v.fab with collBuf := v.fab.collBuf ++ [k] } })
  else s

/-- A packet of a context that no longer runs on the cluster is discarded (R262). -/
def State.collFor (s : State) (c : Nat) (k : Packet) (act : State) : State :=
  if s.ctxOf c = some k.context then act else s.countDiscard (regionOf c) 8

def execColl (p : Nat) (s : State) : Result :=
  .next (s.arrive p .coll (fun k t => match k.dst with
    | .cluster c => t.collFor c k ((t.ackTo k 0).collAct c k)
    | _ => t))

/-- A result row is written through the destination handle's tag policy, and an ALLRED row goes on to the children. -/
def State.resultRow (s : State) (c : Nat) (k : Packet) : State :=
  let e := s.handle c k.handle
  let busy := decide (16 ≤ (s.cl c).fab.remoteWait.length)
  let onward := fun (t : State) => if k.opcode = 0xC4 then
      t.collProgress c k (fun q => q.children.foldl (fun (q : Coll) m => q.result m k.index.toNat k.data) q) else t
  if !handleOk e (some k.context) .remoteWrite k.index.toNat then s.ackTo k 2
  else
    let n := handleRow e k.index.toNat
    if heldFlow (s.cl c) k then (if busy then s.ackTo k 1 else onward (s.holdRemote c k))
    else match s.entryAccess c e n (writeBy e) k.data .none with
      | .done _ t => onward (t.ackTo k 0)
      | .bad t => onward ((t.badRowEvent c e n).ackTo k 3)
      | .wait => if busy then s.ackTo k 1 else onward (s.holdRemote c k)

def execCollRes (p : Nat) (s : State) : Result :=
  .next (s.arrive p .collRes (fun k t => match k.dst with
    | .cluster c => t.collFor c k (if k.units = 0 then (t.ackTo k 0).collAct c k else t.resultRow c k)
    | _ => t))

/-- Rank 0 starts the completion wave of collective k of cluster c: every result row acknowledged, for AGATH every
member's report in, or at once with status 5 or 6 (R265). -/
def execCompletionWaveStart (c k : Nat) (s : State) : Result :=
  match (s.cl c).fab.colls[k]? with
  | none => .next s
  | some q =>
    let ready := q.finished && q.due == 0 && q.outq.isEmpty && q.localq.isEmpty &&
      (decide (q.opcode ≠ 0xC6) || q.children.all (fun m => q.childWaves.contains m))
    if decide (q.rank = 0) && !q.done && (ready || decide (q.status ≠ 0)) then
      .next (s.waveAt c (q.pkt .collRes 0 0 0 0 0 0) q.status)
    else .next s

/-! ## Issue (R227 to R230) -/

/-- The rows a member's own unit or its partners will write into it pass R92 (R227). -/
def destOk (op : Nat) (x : Word) (e : HandleEntry) (ctx : Option Nat) (dp : Span) (rank m d n : Nat) : Bool :=
  if op = 0xC3 then handleRangeOk e ctx .remoteWrite (if rank = 0 then d else 0) (if rank = 0 then collRows x n else 0)
  else if op = 0xC4 then handleRangeOk e ctx .remoteWrite d (collRows x n)
  else
    let rows := if op = 0xC6 then m * n else collRows x n
    handleRangeOk e ctx .remoteWrite 0 0 &&
      (List.range rows).all (fun j => spanMemberOf dp (d + j) != rank || handleOk e ctx .remoteWrite (spanRowOf dp (d + j)))

/-- Collectives that the unit of a cluster still serves. -/
def activeColls (v : Cluster) : Nat := v.fab.colls.countP (fun q => !(q.done && q.outq.isEmpty && q.localq.isEmpty))

/-- A collective taken up by the unit: packets that came before it are taken first. -/
def State.startColl (s : State) (c : Nat) (q : Coll) : State :=
  let early := (s.cl c).fab.collBuf.filter (fun k => isColl k q)
  let k0 := q.pkt .coll 0 0 0 0 0 0
  let t := s.modCl c (fun v =>
    let counts := Tbl.set (fun _ => 0) v.fab.collCount (cxSrc q.ext) (q.nth + 1)
    let rest := v.fab.collBuf.filter (fun k => !isColl k q)
    { v with fab := { v.fab with colls := v.fab.colls ++ [q], collCount := counts, collBuf := rest } })
  early.foldl (fun s k => s.collAct c k) (t.pump c k0)

/-- The collective of opcode op with spans sp and dp, its source rows read by R227. -/
def State.issueColl (s : State) (op : Nat) (i : Issue) (sp dp : Span) : Effect :=
  let x := i.x0
  let n := rowCount s i
  let ms := sp.members.map SpanMember.cluster
  let rank := ms.idxOf i.c
  let e := s.handle i.c ((sp.members.map SpanMember.handle).getD rank 0)
  let de := s.handle i.c ((dp.members.map SpanMember.handle).getD rank 0)
  let b := (s.sr i.c (fB i)).toNat
  let d := s.sr i.c (fC i)
  if !ms.contains i.c || decide (dp.members.map SpanMember.cluster ≠ ms) || collBad (op == 0xC6) (s.stillMode i.c) x n then
    .trap s 0x04 0 0
  else if !handleRangeOk e (s.ctxOf i.c) .engineRead b n || !destOk op x de (s.ctxOf i.c) dp rank ms.length d.toNat n then
    .trap s 0x05 0 0
  else if 2 ≤ activeColls (s.cl i.c) then .hold s (s.holdFor op i) true
  else match s.readRows i.c e (readBy e true) i.u ((List.range n).map (b + ·)) with
    | .wait => .hold s (s.holdFor op i) true
    | .bad t r => .integ t e r 0
    | .done rows t =>
      let q : Coll := { nth := Tbl.get (fun _ => 0) (s.cl i.c).fab.collCount (cxSrc x), pc := (s.regsOf i.c).pc,
                        opcode := BitVec.ofNat 8 op, ext := x, src := s.sr i.c (fB i), dst := d, n := n, rank := rank,
                        members := ms, dstHandles := dp.members.map SpanMember.handle, still := s.stillMode i.c, own := rows,
                        progress := s.now }
      if op = 0xC6 then
        .ok (t.startColl i.c (rows.zipIdx.foldl (fun (q : Coll) r =>
          let at' := d.toNat + rank * n + r.2
          q.result (spanMemberOf dp at') (spanRowOf dp at') r.1) { q with finished := true }))
      else .ok (t.startColl i.c q)

/-- A collective at retirement: a count of 0 completes at once (R232); an undefined span is a handle error (R227). -/
def bodyColl (op : Nat) (i : Issue) (s : State) : Effect :=
  if rowCount s i = 0 then .ok s
  else match (s.ctxOf i.c).bind (fun x => s.span x (cxSrc i.x0)), (s.ctxOf i.c).bind (fun x => s.span x (cxDst i.x0)) with
    | some sp, some dp => s.issueColl op i sp dp
    | _, _ => .trap s 0x05 0 0

def execReduce (i : Issue) (s : State) : Result := s.retire 0xC3 i (collLegal i) (bodyColl 0xC3 i)
def execAllred (i : Issue) (s : State) : Result := s.retire 0xC4 i (collLegal i) (bodyColl 0xC4 i)
def execRscat (i : Issue) (s : State) : Result := s.retire 0xC5 i (collLegal i) (bodyColl 0xC5 i)
def execAgath (i : Issue) (s : State) : Result := s.retire 0xC6 i (collLegal i) (bodyColl 0xC6 i)

/-! ## Responses (R217 to R221, R254, R257) -/

/-- The cause an acknowledgement's status stands for, at a trap or in CLU_FAB_FAULT. -/
def causeOfStatus (st : Nat) : Nat := if st = 2 then 0x21 else if st = 3 then 0x07 else 0x0B

/-- Whether cluster c's held instruction waits for operation o. -/
def waitsFor (v : Cluster) (o : Op) : Option Hold := match v.hold with
  | some h => if h.tag = o.tag then some h else none
  | none => none

/-- A held RECV or MLD gets its row: it retires, or, on a halted cluster, keeps the row until it runs again (R223). -/
def State.rowArrives (s : State) (c : Nat) (h : Hold) (d : Row) (bits : Row) : State :=
  if (s.cl c).st = .halted then s.modCl c (fun v => { v with hold := some { h with tag := 130, data := some d } })
  else s.finish h.iss (.ok (s.modRegs c (fun r => r.mergeBits (fA h.iss) bits d)))

/-- The bytes a held RECV or MLD writes. -/
def arrivingBits (h : Hold) : Row := if h.opcode = 0xC7 then byteBits 0 (64 * memUnits h.iss) else BitVec.allOnes 4096

/-- DATA for operation o of cluster c. -/
def State.dataFor (s : State) (c : Nat) (o : Op) (k : Packet) : State :=
  let t := s.modCl c (endOp o)
  match o.kind with
  | .prefetch => t.modCl c (fun v => { v with ahead := { v.ahead with prefetch := v.ahead.prefetch.map (fun f =>
      if f.tag = o.tag ∧ f.data.isNone then { f with data := some k.data, watched := k.status != 4 } else f) } })
  | _ => match waitsFor (s.cl c) o with
    | some h => t.rowArrives c h k.data (arrivingBits h)
    | none => t

/-- A response arrives at the cluster that sent the request; one that matches no entry is stale (R257). -/
def State.respondAt (s : State) (p : Nat) (ty : PType) (f : Nat → Op → Packet → State → State) : State :=
  s.arrive p ty (fun k t => match k.dst with
    | .cluster c => (match opOf (t.cl c) k with
        | some o => f c o k t
        | none => t.countDiscard (regionOf c) 7)
    | _ => t)

def execData (p : Nat) (s : State) : Result := .next (s.respondAt p .data (fun c o k t => t.dataFor c o k))

/-- The operation answered busy: its place returns, and it is presented again after 64 cycles (R85, R254). -/
def State.busy (s : State) (c : Nat) (o : Op) : State :=
  s.modCl c (fun v => { v with fab := { v.fab with
    ops := v.fab.ops.map (fun q => if q.tag = o.tag then
      { q with progress := s.now, busyUntil := some ((s.region (regionOf c)).cycle.toNat + 64) } else q),
    flows := returnPlace o.flow v.fab.flows } })

/-- A refusal or failure of an operation whose instruction holds retirement traps there; of one that has retired it is
recorded (R218, R221, R226). -/
def State.failOp (s : State) (c : Nat) (o : Op) (cause : Nat) : State :=
  let t := s.modCl c (endOp o)
  match o.kind, waitsFor (s.cl c) o with
  | .prefetch, _ => t.modCl c (fun v => { v with ahead := { v.ahead with prefetch := v.ahead.prefetch.filter (fun f => f.tag != o.tag || f.data.isSome) } })
  | _, some h => t.trap h.iss.c cause 0 0
  | _, none => t.modCl c (recordFault cause o)

/-- A consume refused because its watch broke: an ordinary remote read follows, and run-ahead is squashed (R57). -/
def State.consumeAgain (s : State) (c : Nat) (o : Op) (h : Hold) : State :=
  let i := h.iss
  let again : Hold := { h with tag := 128, data := none }
  let t := (s.modCl c (endOp o)).modCl c (fun v =>
    { v with hold := some again, ahead := { v.ahead with prefetch := [], loads := [] },
             cnt := { v.cnt with raStale := satInc v.cnt.raStale, sqStale := satInc v.cnt.sqStale } })
  t.finish i (recvRead i (s.sr c (fC i)).toNat (rowIndex s i) t)

/-- ACK for operation o of cluster c. -/
def State.ackFor (s : State) (c : Nat) (o : Op) (k : Packet) : State :=
  if k.status = 1 then s.busy c o
  else match o.kind with
    | .coll =>
      let t := s.modCl c (endOp o)
      let t := if k.status = 0 then t else t.modCl c (recordFault (causeOfStatus k.status) o)
      t.collProgress c o.pkt (fun q => { q with due := q.due - 1 })
    | .consume =>
      (match waitsFor (s.cl c) o with
       | some h =>
         if k.status = 0 then
           ((s.modCl c (endOp o)).modCl c (fun v => { v with ahead := { v.ahead with prefetch := v.ahead.prefetch.filter (fun f =>
             !(f.handle == fH h.iss && f.index == BitVec.ofNat 64 (rowIndex s h.iss))) } })).rowArrives c h (h.data.getD 0) (BitVec.allOnes 4096)
         else if k.status = 4 then s.consumeAgain c o h
         else s.failOp c o (causeOfStatus k.status)
       | none => s.modCl c (endOp o))
    | _ => if k.status = 0 then s.modCl c (endOp o) else s.failOp c o (causeOfStatus k.status)

def execAck (p : Nat) (s : State) : Result := .next (s.respondAt p .ack (fun c o k t => t.ackFor c o k))

/-- An access answered busy is presented again after 64 cycles, once its flow has a place (R85, R254). -/
def execBusyRepresent (c tag : Nat) (s : State) : Result :=
  match (s.cl c).fab.ops.find? (fun o => o.tag == tag) with
  | none => .next s
  | some o =>
    match o.busyUntil with
    | none => .next s
    | some b =>
      let d := nodeRegion o.pkt.dst
      let v := s.cl c
      let open' := match flowOf v o.flow with
        | some f => decide (f.outstanding < s.fabWindow c) && (f.epoch == s.epochTo c d || f.outstanding == 0)
        | none => decide (v.fab.flows.length < 64)
      if decide (b ≤ (s.region (regionOf c)).cycle.toNat) && open' then
        let t := s.modCl c (fun v => { v with fab := { v.fab with
          ops := v.fab.ops.map (fun q => if q.tag = tag then { q with busyUntil := none, progress := s.now } else q),
          flows := takePlace o.flow d (s.epochTo c d) v.fab.flows } })
        if s.noRoute (regionOf c) d then .next (t.countDiscard (regionOf c) 6) else .next (t.inject o.pkt)
      else .next s

/-! ## The fabric operation timeout (R219, R217, R224) -/

/-- A collective without progress fails at this member (R219, R230). -/
def State.collTimeout (s : State) (c : Nat) (q : Coll) : State :=
  (s.modCl c (collFault 0x20 q)).modColl c (q.pkt .coll 0 0 0 0 0 0) (fun q => { q with done := true, outq := [], localq := [] })

/-- FABRIC_OP_TIMEOUT: `tag` below 128 names an entry of the outstanding-operation table, 128 the instruction that holds
retirement with nothing sent for it, and 129 + k the k-th collective of the cluster. -/
def execFabricOpTimeout (c tag : Nat) (s : State) : Result :=
  let v := s.cl c
  let late := fun (since : Nat) => decide (since + s.fabTicks c ≤ s.now)
  if tag < 128 then
    match v.fab.ops.find? (fun o => o.tag == tag) with
    | some o =>
      if late o.progress then
        (if o.kind = .coll then .next ((s.failOp c o 0x20).collProgress c o.pkt (fun q => { q with due := q.due - 1 }))
         else .next (s.failOp c o 0x20))
      else .next s
    | none => .next s
  else if tag = 128 then
    match v.hold with
    | some h =>
      if h.tag = 128 && (h.opcode = 0xC0 || h.opcode = 0xC1 || h.opcode = 0xC2 || h.opcode = 0xC7 || h.opcode = 0xC8) &&
          (h.since.elim false late) then .next (s.trap c 0x20 0 0)
      else .next s
    | none => .next s
  else match v.fab.colls[tag - 129]? with
    | some q => if !q.done && late q.progress then .next (s.collTimeout c q) else .next s
    | none => .next s

end Sys2Proof.Machine
end

