-- ==== Sys2Proof/Machine/Waits.lean ====
section
/-! DEFINITION. Tag waits of every accessor (03): an access whose tag now allows it goes on, one whose timeout has
expired ends as Table 3.5 says; and the tag updates of spilled rows. -/

namespace Sys2Proof.Machine

open Sys2Proof

/-! ## Cluster instructions -/

/-- The wait of a cluster instruction on a tag: its region runs, and the wait has a beginning (R83). -/
def State.tagWaitOf (s : State) (c : Nat) : Option Hold :=
  match (s.cl c).st, (s.cl c).hold with
  | .waiting, some h => if h.since.isSome ∧ (s.region (regionOf c)).pstate = .run then some h else none
  | _, _ => none

/-- A held instruction presents its access again (R80). -/
def State.retryHeld (s : State) (h : Hold) (u : Upset) : State :=
  let i := { h.iss with u := u }
  let again := fun (body : Issue → State → Effect) => s.finish i (body i s)
  match h.opcode.toNat with
  | 0x40 => again bodyLd
  | 0x41 => again bodyPk
  | 0x42 => again bodySt
  | 0x43 => s.movrOp h u
  | 0x44 => s.fillOp h
  | 0x46 => again bodyWaitt
  | 0x60 => again bodyWld
  | 0x62 => s.drainOp h
  | 0x63 => s.drainOp h
  | 0xC3 => again (bodyColl 0xC3)
  | 0xC4 => again (bodyColl 0xC4)
  | 0xC5 => again (bodyColl 0xC5)
  | 0xC6 => again (bodyColl 0xC6)
  | _ => s

/-- Whether the held instruction waits on a tag: a collective that waits for its unit does not, nor does an instruction
that waits for the fabric. -/
def State.waitsOnTag (s : State) (h : Hold) : Bool :=
  match h.opcode.toNat with
  | 0x40 | 0x41 | 0x42 | 0x43 | 0x44 | 0x46 | 0x60 | 0x62 | 0x63 => true
  | 0xC3 | 0xC4 | 0xC5 | 0xC6 => decide (activeColls (s.cl h.iss.c) < 2)
  | _ => false

/-- Whether a wait that began at a tick has lasted n ticks. -/
def State.expired (s : State) (since n : Nat) : Bool := decide (since + n ≤ s.now)

/-! ## Instruction fetch -/

/-- When the fetch of a line began to wait, if it waits. -/
def State.fetchSince (s : State) (c line : Nat) : Option Nat := Tbl.get (fun _ => none) (s.cl c).code.waits line

/-! ## DMA -/

/-- The cluster whose row a copy's next move goes to. -/
def dmaRowCluster (m : Dma) (e : Prog) : Nat :=
  let a := match dmaReads m e with
    | some r => r.1
    | none => if dmaNext m e = .writeScale then m.dstScale + 512 * e.scaleMoved else (m.dstUnit e.moved).1
  match placeOf a with
  | .tarn c _ => c
  | _ => 0

/-- A copy's tag timeout, by the state of its context (R86). -/
def State.dmaTagTimeout (s : State) (q k x : Nat) (m : Dma) (e : Prog) : State :=
  let c := dmaRowCluster m e
  if (s.part (s.ctx x).part).runs x then
    (s.dmaEnd q k m e stTimeout (s.containedCode x 0x2106)).contained x 0x2106 (s.atCluster c [c])
  else (s.dmaEnd q k m e stTimeout 0x0814).note 0x0814
    { part := (s.ctx x).part, ctx := some x, detail := [64 * k, c] }

/-! ## Remote accesses -/

/-- Entry k of an owner's remote-wait queue, unless an earlier entry of its flow stands before it (R220). -/
def State.remoteAt (s : State) (c k : Nat) : Option RemoteWait :=
  match (s.cl c).fab.remoteWait[k]? with
  | some w => if ((s.cl c).fab.remoteWait.take k).any (fun o => sameFlow w.pkt o.pkt) then none else some w
  | none => none

/-- The queue without its entry k. -/
def State.dropRemote (s : State) (c k : Nat) : State :=
  s.modCl c (fun v => { v with fab := { v.fab with remoteWait := v.fab.remoteWait.eraseIdx k } })

/-- A held MEM_RD or MEM_WR of a tarn row; `block` is what a tag that still forbids it leaves. -/
def State.retryByAddress (s : State) (k : Packet) (write : Bool) (u : Upset) (block : State) : State :=
  match placeOf k.index.toNat with
  | .tarn c off =>
    let n := off / 512
    (match s.coverOf c n (some k.context) (if write then .remoteWrite else .remoteRead) with
     | none => s.ackTo k 7
     | some tagged =>
       let acc : Access := if write then (if tagged then .taggedWrite else .untaggedWrite)
         else if tagged then (if k.access = 1 then .peek else .taggedRead) else .untaggedRead
       match s.rowAccess c n acc k.data u with
       | .wait => block
       | .bad t => (t.integrityEvent c n).ackTo k 3
       | .done d t => if write then t.ackTo k 0 else t.dataTo k 0 8 d)
  | _ => s.ackTo k 7

/-- A held result row of a collective: acknowledged to its sender, or counted done by the member that wrote it itself
(R227, R264). -/
def State.retryResult (s : State) (c : Nat) (k : Packet) (block : State) : State :=
  let e := s.handle c k.handle
  let own := decide (k.src = .cluster c)
  let fails := fun (t : State) (cause status : Nat) =>
    if own then
      (match collOf (t.cl c) k with
       | some q => (t.modCl c (collFault cause q)).collProgress c k (fun q => { q with due := q.due - 1 })
       | none => t)
    else t.ackTo k status
  if !handleOk e (some k.context) .remoteWrite k.index.toNat then fails s 0x21 2
  else
    let n := handleRow e k.index.toNat
    match s.entryAccess c e n (writeBy e) k.data .none with
    | .wait => block
    | .bad t => fails (t.badRowEvent c e n) 0x07 3
    | .done _ t => if own then t.collProgress c k (fun q => { q with due := q.due - 1 }) else t.ackTo k 0

/-- A held remote access presents itself again. -/
def State.retryRemote (s : State) (c k : Nat) (w : RemoteWait) (u : Upset) : State :=
  let t := s.dropRemote c k
  match w.pkt.ptype with
  | .write => t.serve c w.pkt .none s
  | .read => t.serve c w.pkt u s
  | .memRd => t.retryByAddress w.pkt false u s
  | .memWr => t.retryByAddress w.pkt true u s
  | .collRes => t.retryResult c w.pkt s
  | _ => s

/-! ## The commands -/

/-- TAG_WAIT_SATISFIED: the waiting access is presented again, and goes on if its tag allows it (R80). -/
def execTagWaitSatisfied (w : Waiter) (u : Upset) (s : State) : Result :=
  match w with
  | .cluster c =>
    (match s.tagWaitOf c with
     | some h => .next (s.retryHeld h u)
     | none => .next s)
  | .fetch c line =>
    (match s.fetchSince c line with
     | some _ => .next (s.fetchLine c line u)
     | none => .next s)
  | .dma q k =>
    (match s.runningDma q k with
     | some e =>
       let x := (s.qp q).ctx
       if e.since.isSome && !s.recovering x then .next (s.dmaStep q k x (dmaOf e.desc) 0 u) else .next s
     | none => .next s)
  | .remote c k =>
    (match s.remoteAt c k with
     | some r => .next (s.retryRemote c k r u)
     | none => .next s)
  | .core n =>
    (match (s.core n).wait with
     | some a => if (s.core n).halted && !(s.core n).stepOne then .next s else .next ((s.coreAccess n a u).coreDone n)
     | none => .next s)

/-- TAG_WAIT_TIMEOUT: a wait that has lasted its context's timeout ends as Table 3.5 says (R82 to R86); a halted
cluster's wait does not expire (R63). -/
def execTagWaitTimeout (w : Waiter) (s : State) : Result :=
  match w with
  | .cluster c =>
    (match s.tagWaitOf c with
     | some h =>
       if s.waitsOnTag h && s.expired (h.since.getD s.now) (s.tagTicksAt c) then .next (s.trap c 0x06 0 h.j) else .next s
     | none => .next s)
  | .fetch c line =>
    (match s.fetchSince c line with
     | some t => if s.expired t (s.tagTicksAt c) then .next (s.setLine c line none .address) else .next s
     | none => .next s)
  | .dma q k =>
    (match s.runningDma q k with
     | some e =>
       let x := (s.qp q).ctx
       (match e.since with
        | some t => if s.expired t (s.tagTicks x) && !s.recovering x then .next (s.dmaTagTimeout q k x (dmaOf e.desc) e) else .next s
        | none => .next s)
     | none => .next s)
  | .remote c k =>
    (match (s.cl c).fab.remoteWait[k]? with
     | some r => if s.expired r.since (s.tagTicks r.pkt.context) then .next (s.dropRemote c k) else .next s
     | none => .next s)
  | .core n =>
    (match (s.core n).wait, (s.core n).owner with
     | some a, some x =>
       if s.expired a.since (s.tagTicks x) && !s.recovering x && !(s.core n).halted then
         .next ((s.coreFaults n a.write a.addr .tagTimeout).coreDone n)
       else .next s
     | _, _ => .next s)

/-! ## Spilled rows (R98) -/

/-- The tag a part of a spilled access needs, and the one it leaves. -/
def tagChange : TagStep → Tag × Tag
  | .claimRead => (.full, .held)
  | .endRead => (.held, .empty)
  | .claimWrite => (.empty, .held)
  | .endWrite => (.held, .full)

/-- SPILLED_TAG_UPDATE: one atomic compare-and-update; a compare that fails changes nothing. -/
def execSpilledTagUpdate (c h : Nat) (row : Word) (t : TagStep) (s : State) : Result :=
  let e := s.handle c h
  if hBacking e ≠ 0 ∧ 0 < hCount e ∧ (hWrap e = true ∨ row.toNat < hCount e) then
    let i := handleRow e row.toNat
    if s.bitmapTag e i = (tagChange t).1 then .next (s.setBitmapTag e i (tagChange t).2) else .next s
  else .next s

end Sys2Proof.Machine
end

