-- ==== Sys2Proof/Machine/Dispatch.lean ====
section
/-! DEFINITION. One arm for each command of the table: a direct call of its meaning. -/

namespace Sys2Proof.Machine

open Sys2Proof

def exec (i : Instr) (s : State) : Host.Outcome State Fault Refusal :=
  match i with
  | .nop iss => Sys2Proof.Machine.execNop iss s
  | .endStep iss => Sys2Proof.Machine.execEndStep iss s
  | .br iss => Sys2Proof.Machine.execBr iss s
  | .jal iss => Sys2Proof.Machine.execJal iss s
  | .jalr iss => Sys2Proof.Machine.execJalr iss s
  | .loop iss => Sys2Proof.Machine.execLoop iss s
  | .trap iss => Sys2Proof.Machine.execTrap iss s
  | .add iss => Sys2Proof.Machine.execAdd iss s
  | .sub iss => Sys2Proof.Machine.execSub iss s
  | .and iss => Sys2Proof.Machine.execAnd iss s
  | .or iss => Sys2Proof.Machine.execOr iss s
  | .xor iss => Sys2Proof.Machine.execXor iss s
  | .sll iss => Sys2Proof.Machine.execSll iss s
  | .srl iss => Sys2Proof.Machine.execSrl iss s
  | .sra iss => Sys2Proof.Machine.execSra iss s
  | .mul iss => Sys2Proof.Machine.execMul iss s
  | .mulh iss => Sys2Proof.Machine.execMulh iss s
  | .mulhu iss => Sys2Proof.Machine.execMulhu iss s
  | .div iss => Sys2Proof.Machine.execDiv iss s
  | .divu iss => Sys2Proof.Machine.execDivu iss s
  | .rem iss => Sys2Proof.Machine.execRem iss s
  | .remu iss => Sys2Proof.Machine.execRemu iss s
  | .min iss => Sys2Proof.Machine.execMin iss s
  | .max iss => Sys2Proof.Machine.execMax iss s
  | .minu iss => Sys2Proof.Machine.execMinu iss s
  | .maxu iss => Sys2Proof.Machine.execMaxu iss s
  | .li iss => Sys2Proof.Machine.execLi iss s
  | .lix iss => Sys2Proof.Machine.execLix iss s
  | .cmp iss => Sys2Proof.Machine.execCmp iss s
  | .plog iss => Sys2Proof.Machine.execPlog iss s
  | .rdcnt iss => Sys2Proof.Machine.execRdcnt iss s
  | .movsv iss => Sys2Proof.Machine.execMovsv iss s
  | .movvs iss => Sys2Proof.Machine.execMovvs iss s
  | .vmov iss => Sys2Proof.Machine.execVmov iss s
  | .vbcast iss => Sys2Proof.Machine.execVbcast iss s
  | .msk iss => Sys2Proof.Machine.execMsk iss s
  | .ld iss => Sys2Proof.Machine.execLd iss s
  | .pk iss => Sys2Proof.Machine.execPk iss s
  | .st iss => Sys2Proof.Machine.execSt iss s
  | .movr iss => Sys2Proof.Machine.execMovr iss s
  | .movrRowOperation c u => Sys2Proof.Machine.execMovrRowOperation c u s
  | .fill iss => Sys2Proof.Machine.execFill iss s
  | .fillRowOperation c => Sys2Proof.Machine.execFillRowOperation c s
  | .tagrd iss => Sys2Proof.Machine.execTagrd iss s
  | .waitt iss => Sys2Proof.Machine.execWaitt iss s
  | .waittPoll c => Sys2Proof.Machine.execWaittPoll c s
  | .twait iss => Sys2Proof.Machine.execTwait iss s
  | .twaitRelease c => Sys2Proof.Machine.execTwaitRelease c s
  | .fetchFaultReread c u => Sys2Proof.Machine.execFetchFaultReread c u s
  | .instructionFetch c line u => Sys2Proof.Machine.execInstructionFetch c line u s
  | .wld iss => Sys2Proof.Machine.execWld iss s
  | .mma iss => Sys2Proof.Machine.execMma iss s
  | .drn iss => Sys2Proof.Machine.execDrn iss s
  | .drnp iss => Sys2Proof.Machine.execDrnp iss s
  | .drainRowOperation c u => Sys2Proof.Machine.execDrainRowOperation c u s
  | .aclr iss => Sys2Proof.Machine.execAclr iss s
  | .vadd iss => Sys2Proof.Machine.execVadd iss s
  | .vsub iss => Sys2Proof.Machine.execVsub iss s
  | .vmul iss => Sys2Proof.Machine.execVmul iss s
  | .vdiv iss => Sys2Proof.Machine.execVdiv iss s
  | .vmin iss => Sys2Proof.Machine.execVmin iss s
  | .vmax iss => Sys2Proof.Machine.execVmax iss s
  | .vfma iss => Sys2Proof.Machine.execVfma iss s
  | .vcmp iss => Sys2Proof.Machine.execVcmp iss s
  | .vsqrt iss => Sys2Proof.Machine.execVsqrt iss s
  | .vabs iss => Sys2Proof.Machine.execVabs iss s
  | .vneg iss => Sys2Proof.Machine.execVneg iss s
  | .vfun iss => Sys2Proof.Machine.execVfun iss s
  | .vrsum iss => Sys2Proof.Machine.execVrsum iss s
  | .vrmax iss => Sys2Proof.Machine.execVrmax iss s
  | .vrmin iss => Sys2Proof.Machine.execVrmin iss s
  | .vcvt iss => Sys2Proof.Machine.execVcvt iss s
  | .vqnt iss => Sys2Proof.Machine.execVqnt iss s
  | .vdq iss => Sys2Proof.Machine.execVdq iss s
  | .ehint iss => Sys2Proof.Machine.execEhint iss s
  | .send iss => Sys2Proof.Machine.execSend iss s
  | .recv iss => Sys2Proof.Machine.execRecv iss s
  | .mcast iss => Sys2Proof.Machine.execMcast iss s
  | .reduce iss => Sys2Proof.Machine.execReduce iss s
  | .allred iss => Sys2Proof.Machine.execAllred iss s
  | .rscat iss => Sys2Proof.Machine.execRscat iss s
  | .agath iss => Sys2Proof.Machine.execAgath iss s
  | .mld iss => Sys2Proof.Machine.execMld iss s
  | .mst iss => Sys2Proof.Machine.execMst iss s
  | .fencef iss => Sys2Proof.Machine.execFencef iss s
  | .fabricOpTimeout c tag => Sys2Proof.Machine.execFabricOpTimeout c tag s
  | .runAheadLoad c h row u => Sys2Proof.Machine.execRunAheadLoad c h row u s
  | .runAheadParkedPeek c k u => Sys2Proof.Machine.execRunAheadParkedPeek c k u s
  | .receivePrefetch c h row dst => Sys2Proof.Machine.execReceivePrefetch c h row dst s
  | .tagWaitSatisfied w u => Sys2Proof.Machine.execTagWaitSatisfied w u s
  | .tagWaitTimeout w => Sys2Proof.Machine.execTagWaitTimeout w s
  | .spilledTagUpdate c h row t => Sys2Proof.Machine.execSpilledTagUpdate c h row t s
  | .heartbeatMiss c selfCheck => Sys2Proof.Machine.execHeartbeatMiss c selfCheck s
  | .ageingSample c drift => Sys2Proof.Machine.execAgeingSample c drift s
  | .substitutionRerequest c => Sys2Proof.Machine.execSubstitutionRerequest c s
  | .cluAgeThreshWrite warn migrate => Sys2Proof.Machine.execCluAgeThreshWrite warn migrate s
  | .write p => Sys2Proof.Machine.execWrite p s
  | .read p u => Sys2Proof.Machine.execRead p u s
  | .consume p u => Sys2Proof.Machine.execConsume p u s
  | .coll p => Sys2Proof.Machine.execColl p s
  | .collRes p => Sys2Proof.Machine.execCollRes p s
  | .completionWaveStart c k => Sys2Proof.Machine.execCompletionWaveStart c k s
  | .memRd p ecc reply => Sys2Proof.Machine.execMemRd p ecc reply s
  | .memWr p => Sys2Proof.Machine.execMemWr p s
  | .data p => Sys2Proof.Machine.execData p s
  | .ack p => Sys2Proof.Machine.execAck p s
  | .stale p => Sys2Proof.Machine.execStale p s
  | .busyRepresent c tag => Sys2Proof.Machine.execBusyRepresent c tag s
  | .packetHop p hop => Sys2Proof.Machine.execPacketHop p hop s
  | .packetLifetimeExpiry p => Sys2Proof.Machine.execPacketLifetimeExpiry p s
  | .creditStall r link ticks => Sys2Proof.Machine.execCreditStall r link ticks s
  | .linkRetrain r link => Sys2Proof.Machine.execLinkRetrain r link s
  | .linkRetrainTimeout r link => Sys2Proof.Machine.execLinkRetrainTimeout r link s
  | .perimeterRetrainHoldTimeout die => Sys2Proof.Machine.execPerimeterRetrainHoldTimeout die s
  | .lochLockLoss r link => Sys2Proof.Machine.execLochLockLoss r link s
  | .routeEntryWrite r d entry epoch => Sys2Proof.Machine.execRouteEntryWrite r d entry epoch s
  | .flowRouteResume c k => Sys2Proof.Machine.execFlowRouteResume c k s
  | .abortDrainEnd p => Sys2Proof.Machine.execAbortDrainEnd p s
  | .ref10mWindow ppm => Sys2Proof.Machine.execRef10mWindow ppm s
  | .ref10mEdgeLoss => Sys2Proof.Machine.execRef10mEdgeLoss s
  | .refPpsPulse frac => Sys2Proof.Machine.execRefPpsPulse frac s
  | .refPpsMissing => Sys2Proof.Machine.execRefPpsMissing s
  | .ptpSample offset delayNs clockClass => Sys2Proof.Machine.execPtpSample offset delayNs clockClass s
  | .ptpSampleTimeout => Sys2Proof.Machine.execPtpSampleTimeout s
  | .referenceRevert => Sys2Proof.Machine.execReferenceRevert s
  | .tbsTodSet second => Sys2Proof.Machine.execTbsTodSet second s
  | .tbXoEdgeLoss => Sys2Proof.Machine.execTbXoEdgeLoss s
  | .beaconStrobe d word => Sys2Proof.Machine.execBeaconStrobe d word s
  | .beaconMiss d => Sys2Proof.Machine.execBeaconMiss d s
  | .beaconMissRetire d => Sys2Proof.Machine.execBeaconMissRetire d s
  | .tickLoss d => Sys2Proof.Machine.execTickLoss d s
  | .stepChangePllLocked r => Sys2Proof.Machine.execStepChangePllLocked r s
  | .clockSwitch r => Sys2Proof.Machine.execClockSwitch r s
  | .crossingCalibration x markers => Sys2Proof.Machine.execCrossingCalibration x markers s
  | .crossingCalibrationEnd x => Sys2Proof.Machine.execCrossingCalibrationEnd x s
  | .crossingWordRelease x late => Sys2Proof.Machine.execCrossingWordRelease x late s
  | .droopStretch d deep => Sys2Proof.Machine.execDroopStretch d deep s
  | .droopGateExpiry d => Sys2Proof.Machine.execDroopGateExpiry d s
  | .droopHoldExit d => Sys2Proof.Machine.execDroopHoldExit d s
  | .stepLaunch q k => Sys2Proof.Machine.execStepLaunch q k s
  | .stepRelease p => Sys2Proof.Machine.execStepRelease p s
  | .stepComplete p => Sys2Proof.Machine.execStepComplete p s
  | .checkpoint q k => Sys2Proof.Machine.execCheckpoint q k s
  | .checkpointDurable p => Sys2Proof.Machine.execCheckpointDurable p s
  | .recoveryStart p => Sys2Proof.Machine.execRecoveryStart p s
  | .neighbourTestTarget c verdicts => Sys2Proof.Machine.execNeighbourTestTarget c verdicts s
  | .recoveryRestore p => Sys2Proof.Machine.execRecoveryRestore p s
  | .recoveryRestoreDone p => Sys2Proof.Machine.execRecoveryRestoreDone p s
  | .recoveryRerelease p => Sys2Proof.Machine.execRecoveryRerelease p s
  | .shrinkTimeout p => Sys2Proof.Machine.execShrinkTimeout p s
  | .substitutionCopyDone c ok => Sys2Proof.Machine.execSubstitutionCopyDone c ok s
  | .correctedWriteBack sector => Sys2Proof.Machine.execCorrectedWriteBack sector s
  | .refresh stack => Sys2Proof.Machine.execRefresh stack s
  | .patrolScrub sector ecc => Sys2Proof.Machine.execPatrolScrub sector ecc s
  | .patrolPeriodEnd stack complete => Sys2Proof.Machine.execPatrolPeriodEnd stack complete s
  | .vacateTimeout stack => Sys2Proof.Machine.execVacateTimeout stack s
  | .stackFailure stack => Sys2Proof.Machine.execStackFailure stack s
  | .stackFailureRemap r => Sys2Proof.Machine.execStackFailureRemap r s
  | .cxlLinkUp port dev => Sys2Proof.Machine.execCxlLinkUp port dev s
  | .windowCreate w part base size devs => Sys2Proof.Machine.execWindowCreate w part base size devs s
  | .windowZeroingDone w => Sys2Proof.Machine.execWindowZeroingDone w s
  | .windowOffline w => Sys2Proof.Machine.execWindowOffline w s
  | .windowDelete w => Sys2Proof.Machine.execWindowDelete w s
  | .cxlDeviceLoss w => Sys2Proof.Machine.execCxlDeviceLoss w s
  | .cxlMemTimeout port => Sys2Proof.Machine.execCxlMemTimeout port s
  | .cxlIdeRekey port => Sys2Proof.Machine.execCxlIdeRekey port s
  | .vl8re8V n addr u => Sys2Proof.Machine.execVl8re8V n addr u s
  | .vs8rV n addr data => Sys2Proof.Machine.execVs8rV n addr data s
  | .qtarnctlWrite n v => Sys2Proof.Machine.execQtarnctlWrite n v s
  | .tarnAccessCancel n => Sys2Proof.Machine.execTarnAccessCancel n s
  | .stepInputStore n addr len data => Sys2Proof.Machine.execStepInputStore n addr len data s
  | .directoryEviction r line => Sys2Proof.Machine.execDirectoryEviction r line s
  | .msiWrite sender hart file identity => Sys2Proof.Machine.execMsiWrite sender hart file identity s
  | .coreFault n kind => Sys2Proof.Machine.execCoreFault n kind s
  | .configurationRequest die => Sys2Proof.Machine.execConfigurationRequest die s
  | .bar2Read f trusted off len u => Sys2Proof.Machine.execBar2Read f trusted off len u s
  | .bar2Write f trusted off len data => Sys2Proof.Machine.execBar2Write f trusted off len data s
  | .sqDoorbell w q v => Sys2Proof.Machine.execSqDoorbell w q v s
  | .cqDoorbell w q v => Sys2Proof.Machine.execCqDoorbell w q v s
  | .qpEnable f q cfg => Sys2Proof.Machine.execQpEnable f q cfg s
  | .qpDisable f q => Sys2Proof.Machine.execQpDisable f q s
  | .contextCreate f debugOpen => Sys2Proof.Machine.execContextCreate f debugOpen s
  | .descriptorFetch q d => Sys2Proof.Machine.execDescriptorFetch q d s
  | .descriptorStart q k => Sys2Proof.Machine.execDescriptorStart q k s
  | .descriptorNop q k => Sys2Proof.Machine.execDescriptorNop q k s
  | .dmaCopy q k => Sys2Proof.Machine.execDmaCopy q k s
  | .dmaUnit q k host u => Sys2Proof.Machine.execDmaUnit q k host u s
  | .hostCompletionTimeout w => Sys2Proof.Machine.execHostCompletionTimeout w s
  | .journalMark q k => Sys2Proof.Machine.execJournalMark q k s
  | .fence q k => Sys2Proof.Machine.execFence q k s
  | .setParam q k => Sys2Proof.Machine.execSetParam q k s
  | .selectLayout q k => Sys2Proof.Machine.execSelectLayout q k s
  | .setHandle q k => Sys2Proof.Machine.execSetHandle q k s
  | .setSpan q k bytes => Sys2Proof.Machine.execSetSpan q k bytes s
  | .spillHandle q k => Sys2Proof.Machine.execSpillHandle q k s
  | .restoreHandle q k => Sys2Proof.Machine.execRestoreHandle q k s
  | .mapPages q k => Sys2Proof.Machine.execMapPages q k s
  | .unmapPages q k => Sys2Proof.Machine.execUnmapPages q k s
  | .assignCores q k => Sys2Proof.Machine.execAssignCores q k s
  | .kill q k => Sys2Proof.Machine.execKill q k s
  | .killCryptoErase x => Sys2Proof.Machine.execKillCryptoErase x s
  | .pageZeroingDone pages => Sys2Proof.Machine.execPageZeroingDone pages s
  | .prtCtxKill a p x => Sys2Proof.Machine.execPrtCtxKill a p x s
  | .contextSaveDone p => Sys2Proof.Machine.execContextSaveDone p s
  | .scrubDone p => Sys2Proof.Machine.execScrubDone p s
  | .contextRestoreDone p => Sys2Proof.Machine.execContextRestoreDone p s
  | .functionLevelReset f => Sys2Proof.Machine.execFunctionLevelReset f s
  | .hotReset l => Sys2Proof.Machine.execHotReset l s
  | .linkDown l => Sys2Proof.Machine.execLinkDown l s
  | .loadImage q k img => Sys2Proof.Machine.execLoadImage q k img s
  | .shardFetchDone x slot shard r rows => Sys2Proof.Machine.execShardFetchDone x slot shard r rows s
  | .shardCopyDone x slot shard => Sys2Proof.Machine.execShardCopyDone x slot shard s
  | .shardTimeout x slot shard => Sys2Proof.Machine.execShardTimeout x slot shard s
  | .shardRowsReceived x slot shard r => Sys2Proof.Machine.execShardRowsReceived x slot shard r s
  | .swapImage q k => Sys2Proof.Machine.execSwapImage q k s
  | .slotRetireRelease x slot => Sys2Proof.Machine.execSlotRetireRelease x slot s
  | .getVersion m => Sys2Proof.Machine.execGetVersion m s
  | .getCapabilities m => Sys2Proof.Machine.execGetCapabilities m s
  | .negotiateAlgorithms m a => Sys2Proof.Machine.execNegotiateAlgorithms m a s
  | .getDigests m => Sys2Proof.Machine.execGetDigests m s
  | .getCertificate m slot off len => Sys2Proof.Machine.execGetCertificate m slot off len s
  | .challenge m slot nonce => Sys2Proof.Machine.execChallenge m slot nonce s
  | .getMeasurements m slot index nonce => Sys2Proof.Machine.execGetMeasurements m slot index nonce s
  | .keyExchange m slot key => Sys2Proof.Machine.execKeyExchange m slot key s
  | .finish m session ok => Sys2Proof.Machine.execFinish m session ok s
  | .heartbeat m session => Sys2Proof.Machine.execHeartbeat m session s
  | .keyUpdate m session => Sys2Proof.Machine.execKeyUpdate m session s
  | .endSession m session => Sys2Proof.Machine.execEndSession m session s
  | .chunkSend m session handle seq last => Sys2Proof.Machine.execChunkSend m session handle seq last s
  | .chunkGet m session handle seq => Sys2Proof.Machine.execChunkGet m session handle seq s
  | .vendorDefinedRequest m session v => Sys2Proof.Machine.execVendorDefinedRequest m session v s
  | .lockInterface f => Sys2Proof.Machine.execLockInterface f s
  | .spdmSessionTimeout session => Sys2Proof.Machine.execSpdmSessionTimeout session s
  | .fuseWrite epoch v => Sys2Proof.Machine.execFuseWrite epoch v s
  | .debugSessionStart t => Sys2Proof.Machine.execDebugSessionStart t s
  | .debugSessionEnd => Sys2Proof.Machine.execDebugSessionEnd s
  | .debugHalt t => Sys2Proof.Machine.execDebugHalt t s
  | .debugResume t => Sys2Proof.Machine.execDebugResume t s
  | .debugSingleStep t => Sys2Proof.Machine.execDebugSingleStep t s
  | .debugRead o => Sys2Proof.Machine.execDebugRead o s
  | .budgetReq r req => Sys2Proof.Machine.execBudgetReq r req s
  | .budgetGrant r grant => Sys2Proof.Machine.execBudgetGrant r grant s
  | .grantTimeout r => Sys2Proof.Machine.execGrantTimeout r s
  | .status port f => Sys2Proof.Machine.execStatus port f s
  | .telemetry port f => Sys2Proof.Machine.execTelemetry port f s
  | .bpmAck port f => Sys2Proof.Machine.execBpmAck port f s
  | .alert port f => Sys2Proof.Machine.execAlert port f s
  | .keepalive => Sys2Proof.Machine.execKeepalive s
  | .bpmStatusTimeout port => Sys2Proof.Machine.execBpmStatusTimeout port s
  | .bpmPgFailure => Sys2Proof.Machine.execBpmPgFailure s
  | .bpmPresentN level => Sys2Proof.Machine.execBpmPresentN level s
  | .bpmHoldN => Sys2Proof.Machine.execBpmHoldN s
  | .pnlKillN => Sys2Proof.Machine.execPnlKillN s
  | .junctionKillComparator r site => Sys2Proof.Machine.execJunctionKillComparator r site s
  | .overcurrentTrip r => Sys2Proof.Machine.execOvercurrentTrip r s
  | .phaseFailure r phase => Sys2Proof.Machine.execPhaseFailure r phase s
  | .regionPowerUp r => Sys2Proof.Machine.execRegionPowerUp r s
  | .softStartCheck r iseg => Sys2Proof.Machine.execSoftStartCheck r iseg s
  | .softStartStepDown r => Sys2Proof.Machine.execSoftStartStepDown r s
  | .softStartAbandon r => Sys2Proof.Machine.execSoftStartAbandon r s
  | .softStartDone r => Sys2Proof.Machine.execSoftStartDone r s
  | .regionPowerUpDone r => Sys2Proof.Machine.execRegionPowerUpDone r s
  | .holdEntry r epoch => Sys2Proof.Machine.execHoldEntry r epoch s
  | .quietEntry r epoch => Sys2Proof.Machine.execQuietEntry r epoch s
  | .quietExit r => Sys2Proof.Machine.execQuietExit r s
  | .parkEntry r epoch => Sys2Proof.Machine.execParkEntry r epoch s
  | .parkExit r epoch => Sys2Proof.Machine.execParkExit r epoch s
  | .darkCommand r epoch => Sys2Proof.Machine.execDarkCommand r epoch s
  | .junctionSample r site hot diode ringOsc => Sys2Proof.Machine.execJunctionSample r site hot diode ringOsc s
  | .hbmSensorSample stack t => Sys2Proof.Machine.execHbmSensorSample stack t s
  | .throttleEscalation r => Sys2Proof.Machine.execThrottleEscalation r s
  | .thermalCapRaise r => Sys2Proof.Machine.execThermalCapRaise r s
  | .hardTripKillCheck => Sys2Proof.Machine.execHardTripKillCheck s
  | .hardTripRecovery r => Sys2Proof.Machine.execHardTripRecovery r s
  | .manifoldSample m => Sys2Proof.Machine.execManifoldSample m s
  | .outletCapStep => Sys2Proof.Machine.execOutletCapStep s
  | .coolantHoldExit => Sys2Proof.Machine.execCoolantHoldExit s
  | .coolantComparator pewter m => Sys2Proof.Machine.execCoolantComparator pewter m s
  | .coolantQuietExit => Sys2Proof.Machine.execCoolantQuietExit s
  | .rotationCopyDone r => Sys2Proof.Machine.execRotationCopyDone r s
  | .changeRecord seq => Sys2Proof.Machine.execChangeRecord seq s
  | .mirrorAckTimeout => Sys2Proof.Machine.execMirrorAckTimeout s
  | .standbySyncDone lastSeq => Sys2Proof.Machine.execStandbySyncDone lastSeq s
  | .acquire v f => Sys2Proof.Machine.execAcquire v f s
  | .renew v f => Sys2Proof.Machine.execRenew v f s
  | .release v f => Sys2Proof.Machine.execRelease v f s
  | .vote at_ fromV f => Sys2Proof.Machine.execVote at_ fromV f s
  | .leaseRenewal => Sys2Proof.Machine.execLeaseRenewal s
  | .leaseLoss => Sys2Proof.Machine.execLeaseLoss s
  | .holderSilence => Sys2Proof.Machine.execHolderSilence s
  | .southCandidacy => Sys2Proof.Machine.execSouthCandidacy s
  | .mgtLeaseCtlHandover => Sys2Proof.Machine.execMgtLeaseCtlHandover s
  | .handoverRecord => Sys2Proof.Machine.execHandoverRecord s
  | .mgmtPortDown iss => Sys2Proof.Machine.execMgmtPortDown iss s
  | .redfishRequest who r => Sys2Proof.Machine.execRedfishRequest who r s
  | .partitionForm p regions => Sys2Proof.Machine.execPartitionForm p regions s
  | .partitionDissolve p => Sys2Proof.Machine.execPartitionDissolve p s
  | .hostLinkBind l p => Sys2Proof.Machine.execHostLinkBind l p s
  | .mctpMessage len kind => Sys2Proof.Machine.execMctpMessage len kind s
  | .firmwareUpdate img => Sys2Proof.Machine.execFirmwareUpdate img s
  | .telemetryPublish quantity => Sys2Proof.Machine.execTelemetryPublish quantity s
  | .uartCommand len readOnly => Sys2Proof.Machine.execUartCommand len readOnly s
  | .bootRetry pewter check => Sys2Proof.Machine.execBootRetry pewter check s
  | .mgtRcvStart len => Sys2Proof.Machine.execMgtRcvStart len s
  | .mgtRcvData w => Sys2Proof.Machine.execMgtRcvData w s
  | .mgtRcvCommit img => Sys2Proof.Machine.execMgtRcvCommit img s
  | .coldReset => Sys2Proof.Machine.execColdReset s
  | .pnlPorN lowNs => Sys2Proof.Machine.execPnlPorN lowNs s
  | .pnlWrstN lowNs => Sys2Proof.Machine.execPnlWrstN lowNs s
  | .pnlResetCtlCold => Sys2Proof.Machine.execPnlResetCtlCold s
  | .pnlResetCtlWarm => Sys2Proof.Machine.execPnlResetCtlWarm s
  | .bootTimebaseStart north south => Sys2Proof.Machine.execBootTimebaseStart north south s
  | .bootImageCheck north south => Sys2Proof.Machine.execBootImageCheck north south s
  | .bootLeaseFormation fuseNorth fuseSouth treeDelay => Sys2Proof.Machine.execBootLeaseFormation fuseNorth fuseSouth treeDelay s
  | .bootDieCheck reports => Sys2Proof.Machine.execBootDieCheck reports s
  | .bootRegionPower r tileOk => Sys2Proof.Machine.execBootRegionPower r tileOk s
  | .neighbourTest r verdicts => Sys2Proof.Machine.execNeighbourTest r verdicts s
  | .spareMapping r => Sys2Proof.Machine.execSpareMapping r s
  | .bootCrossingCalibration ls => Sys2Proof.Machine.execBootCrossingCalibration ls s
  | .bootHbmTraining failed => Sys2Proof.Machine.execBootHbmTraining failed s
  | .bootLochTraining failed => Sys2Proof.Machine.execBootLochTraining failed s
  | .bootCxlTraining devs => Sys2Proof.Machine.execBootCxlTraining devs s
  | .bootComplete => Sys2Proof.Machine.execBootComplete s
  | .perst port asserted ns => Sys2Proof.Machine.execPerst port asserted ns s
  | .prtReset a p => Sys2Proof.Machine.execPrtReset a p s
  | .partitionResetKillsDone p => Sys2Proof.Machine.execPartitionResetKillsDone p s
  | .prtErrqCfgEnable a p e base cfg => Sys2Proof.Machine.execPrtErrqCfgEnable a p e base cfg s
  | .prtErrqHead a p e head => Sys2Proof.Machine.execPrtErrqHead a p e head s
  | .lsVdd18Loss => Sys2Proof.Machine.execLsVdd18Loss s
  | .setupRegisterWrite a off width v => Sys2Proof.Machine.execSetupRegisterWrite a off width v s
  | .lsVdd18Return => Sys2Proof.Machine.execLsVdd18Return s
  | .vaonRemoval => Sys2Proof.Machine.execVaonRemoval s
  | .hostLinkUp l => Sys2Proof.Machine.execHostLinkUp l s
  | .bpmPgRise => Sys2Proof.Machine.execBpmPgRise s
  | .railOnPgTimeout => Sys2Proof.Machine.execRailOnPgTimeout s
  | .linkRetrainDone r link => Sys2Proof.Machine.execLinkRetrainDone r link s
  | .pcRetirementDone stack => Sys2Proof.Machine.execPcRetirementDone stack s
  | .transitEnd c h => Sys2Proof.Machine.execTransitEnd c h s
  | .mgmtPortUp iss => Sys2Proof.Machine.execMgmtPortUp iss s

end Sys2Proof.Machine
end

