-- ==== Sys2Proof/Safety.lean ====
section
/-! DEFINITION. The terms the statements use: what is safe of a state (memory and tarn in canonical form), what an
instruction needs to retire with its own effect, and what it leaves unchanged when it does. -/

namespace Sys2Proof.Machine

open Sys2Proof

/-! ## Invariants -/

/-- The tables that hold stored data are in canonical form: bytes of memory, tarn rows and poisoned sectors. -/
def State.Canonical (s : State) : Prop :=
  Memory.wf s.mem = true ∧ Tbl.wf (fun _ => ({} : TarnRow)) s.tarn = true ∧ Tbl.wf (fun _ => false) s.poison = true

/-- What a command's meaning keeps: the queue of waiting commands, and the canonical form of memory and tarn. -/
def Keeps (s t : State) : Prop := t.pending = s.pending ∧ (s.Canonical → t.Canonical)

/-! ## Cluster instructions -/

/-- Cluster i.c can retire instruction i: the cluster runs in a region in Run, nothing else holds retirement, the words
lie in the code range and in lines without a marked fault, the guard holds, and no register-file parity error is met
(R40, R43, R162, R163). -/
def Ready (s : State) (i : Issue) : Prop :=
  i.c < 4608 ∧ (s.region (regionOf i.c)).pstate = .run ∧ (s.cl i.c).st = .running ∧ (s.cl i.c).hold = none ∧
  (s.regsOf i.c).pc.toNat % 8 = 0 ∧ (s.regsOf i.c).pc.toNat + 8 * (1 + i.ext.toNat) ≤ (s.cl i.c).code.len ∧
  Tbl.get (fun _ => Mark.clean) (s.cl i.c).code.marks ((s.regsOf i.c).pc.toNat / 512) = .clean ∧
  Tbl.get (fun _ => Mark.clean) (s.cl i.c).code.marks (((s.regsOf i.c).pc.toNat + 8 * (1 + i.ext.toNat) - 1) / 512) = .clean ∧
  guardHolds (s.regsOf i.c) i.pg i.pn = true ∧ i.u ≠ .regParity

/-- t differs from s in cluster c alone: memory, tarn, every other cluster and all else are as they were. -/
def OnlyCluster (s t : State) (c : Nat) : Prop :=
  { t with clusters := s.clusters } = s ∧ ∀ d, d ≠ c → t.cl d = s.cl d

/-- Cluster c of t is cluster c of s but for its registers, its counters of retired instructions and the record of its
retirement. -/
def OnlyRetires (v w : Cluster) : Prop :=
  { w with regs := v.regs, cnt := { w.cnt with retired := v.cnt.retired }, st := v.st, haltedFrom := v.haltedFrom,
           stepOne := v.stepOne, hold := v.hold } = v

/-- Instruction i has retired on cluster i.c and left the register file r, its loop stack and program counter moved on from
`next` by R174 (`seq`: a loop body may end there; a jump ends none). One more is counted, and a cluster stepped singly is
halted again. -/
def Advances (s t : State) (i : Issue) (r : Regs) (seq : Bool) (next : Nat) : Prop :=
  t.regsOf i.c = { r with loops := (loopBack seq next r.loops).1, pc := BitVec.ofNat 32 (loopBack seq next r.loops).2 } ∧
  (t.cl i.c).cnt.retired = satInc (s.cl i.c).cnt.retired ∧ (t.cl i.c).hold = none ∧
  (t.cl i.c).st = (if (s.cl i.c).stepOne then .halted else .running)

/-- The same, and nothing else of the panel has changed. -/
def Moves (s t : State) (i : Issue) (r : Regs) (seq : Bool) (next : Nat) : Prop :=
  OnlyCluster s t i.c ∧ OnlyRetires (s.cl i.c) (t.cl i.c) ∧ Advances s t i r seq next

/-- The same in order: the next program counter is the sequential one of R161. -/
def Retires (s t : State) (i : Issue) (r : Regs) : Prop := Moves s t i r true (nextPc s i)

/-- The cause, the software code, the row operation and the program counter a trap of cluster c records (R40, R168). -/
def trapOf (s : State) (c cause sw row : Nat) : TrapRegs :=
  { cause := BitVec.ofNat 8 cause, sw := BitVec.ofNat 16 sw, row := BitVec.ofNat 14 row, pc := (s.regsOf c).pc }

/-- What an error's consequences leave a cluster: its trap registers, its scalar, predicate, row and mask registers and
program counter, its engine, handle table and code; and an instruction that holds nothing goes on holding nothing. -/
def SameArch (v w : Cluster) : Prop :=
  w.trap = v.trap ∧ w.regs.s = v.regs.s ∧ w.regs.p = v.regs.p ∧ w.regs.v = v.regs.v ∧ w.regs.m = v.regs.m ∧
  w.regs.pc = v.regs.pc ∧ w.eng = v.eng ∧ w.handles = v.handles ∧ w.code = v.code ∧ (v.hold = none → w.hold = none)

/-- Instruction i of cluster i.c traps precisely: the trap registers hold the cause and the trapping program counter, and
no register of the cluster is written (R40). -/
def Traps (s t : State) (i : Issue) (cause sw row : Nat) : Prop :=
  SameArch { s.cl i.c with trap := trapOf s i.c cause sw row, hold := none } (t.cl i.c)

/-! ## Rows -/

/-- No row of tarn but row n of cluster c has changed, and no byte of memory and no poisoned sector. -/
def OnlyRow (s t : State) (c n : Nat) : Prop :=
  (∀ k, k ≠ rowKey c n → Tbl.get (fun _ => ({} : TarnRow)) t.tarn k = Tbl.get (fun _ => {}) s.tarn k) ∧
  t.mem = s.mem ∧ t.poison = s.poison

/-- No row of tarn, no byte of memory and no poisoned sector has changed. -/
def NoStore (s t : State) : Prop := t.tarn = s.tarn ∧ t.mem = s.mem ∧ t.poison = s.poison

/-- Row n of cluster c can be read now: its tag is FULL, or EMPTY as well for an untagged read, its CRC matches, and no
scrub or copy holds it. -/
def Readable (s : State) (c n : Nat) (tagged : Bool) (u : Upset) : Prop :=
  s.allHeld c = false ∧ ((s.trow c n).tag = .full ∨ (tagged = false ∧ (s.trow c n).tag = .empty)) ∧
  (s.trow c n).syndrome ^^^ upsetOf u = 0

/-- Row n of cluster c can be written now: EMPTY where the handle is tagged, anything but HELD where it is not. -/
def Writable (s : State) (c n : Nat) (tagged : Bool) : Prop :=
  s.allHeld c = false ∧ (if tagged then (s.trow c n).tag = .empty else (s.trow c n).tag ≠ .held)

/-- Cluster i.c holds on instruction i: it is Waiting, and its registers are untouched. -/
def Waits (s t : State) (i : Issue) (op : Nat) : Prop :=
  (t.cl i.c).st = .waiting ∧ t.regsOf i.c = s.regsOf i.c ∧
  (t.cl i.c).hold = some { opcode := BitVec.ofNat 8 op, iss := calm i, since := some s.now } ∧ OnlyCluster s t i.c

/-! ## The fabric -/

/-- A request of cluster c for an agent can leave now: its flow and the table have room, and a route leads there. -/
def MayLeave (s : State) (c key : Nat) (d : Node) : Prop :=
  s.maySend c key (nodeRegion d) = true ∧ s.noPerimeter (regionOf c) d = false ∧ s.noRoute (regionOf c) (nodeRegion d) = false

/-- Request k of cluster c has left on a flow: its packet is in the fabric, its operation outstanding under the first free
tag and a new generation, and its flow has one place less (R242, R254, R257). -/
def Sends (s t : State) (c key : Nat) (kind : OpKind) (k : Packet) : Prop :=
  let f := (s.cl c).fab
  let tag := freeTag f.ops
  let gen := Tbl.get (fun _ => 0) f.gens tag + 1
  let pkt := { k with src := .cluster c, opTag := tag, opGen := gen, context := s.sendCtx c, partition := (s.partOf c).getD 0 }
  t.net = s.net ++ [{ pkt with id := s.nextPkt, injectTick := s.now % 65536 }] ∧ t.nextPkt = s.nextPkt + 1 ∧
  (t.cl c).fab.ops = f.ops ++ [{ tag := tag, gen := gen, kind := kind, pc := (s.regsOf c).pc, dst := nodeCode k.dst,
                                 flow := key, progress := s.now, pkt := pkt }] ∧
  (t.cl c).fab.flows = takePlace key (nodeRegion k.dst) (s.epochTo c (nodeRegion k.dst)) f.flows ∧
  ∀ d, d ≠ c → t.cl d = s.cl d

/-- Packet k, number p and of type ty, reaches agent k.dst: no earlier request of its flow stands before it, it is neither
too old nor stomped, and the endpoint is of its partition and not vacant (R29, R220, R258 to R263). -/
def Arrives (s : State) (p : Nat) (ty : PType) (k : Packet) : Prop :=
  s.net.find? (fun q => q.id == p) = some k ∧ k.ptype = ty ∧ s.behindFlow k = false ∧ s.ageOf k ≤ 1000 ∧ k.stomp = false ∧
  (∀ q, s.nodePart k.dst = some q → q = some k.partition) ∧ (∀ c, k.dst = .cluster c → s.vacant c = false)

/-- The owner has answered request k: a response of a type and status, with the data, is on its way to the requester. -/
def Answers (t : State) (k : Packet) (ty : PType) (status : Nat) (d : Row) : Prop :=
  ∃ a ∈ t.net, a.ptype = ty ∧ a.dst = k.src ∧ a.src = k.dst ∧ a.opTag = k.opTag ∧ a.opGen = k.opGen ∧ a.status = status ∧ a.data = d

/-! ## Reports -/

/-- The code of an error is in the event log: entered as a new entry, or merged into one of the last second (R525, R526). -/
def Logged (t : State) (code : Nat) : Prop := ∃ e ∈ t.mgt.log, e.code = code

/-- t differs from s in nothing but the reports of an event: the log and its change numbers, the error queues with their
interrupts, and what has been sent (R525, R526, R550, R551). -/
def OnlyReports (s t : State) : Prop :=
  { t with mgt := s.mgt, parts := s.parts, cores := s.cores, out := s.out } = s ∧
  (∀ p, { t.part p with errqs := (s.part p).errqs } = s.part p) ∧ (∀ n, { t.core n with imsic := (s.core n).imsic } = s.core n) ∧
  { t.mgt with log := s.mgt.log, nextSeq := s.mgt.nextSeq, logLost := s.mgt.logLost, changeSeq := s.mgt.changeSeq,
               changeTick := s.mgt.changeTick } = s.mgt

/-! ## Descriptors -/

/-- Descriptor k of queue pair q has completed (R391, R394, Table 13.5): it is in progress no more, and the entry at the
completion tail has its ring index, the phase of the pass, the tag of its header, its status, code and result, and the
tick. Other queue pairs are as they were. -/
def Completes (s t : State) (q k status code result : Nat) : Prop :=
  (t.qp q).prog = (s.qp q).prog.filter (fun e => e.k != k) ∧ (∀ j, j ≠ q → t.qp j = s.qp j) ∧
  ∀ d, s.prog q k = some d →
    ∃ e : Completion, Output.completion (s.qp q).cqTail e ∈ t.out ∧ e.q = q ∧ e.k = k ∧ e.phase = (s.qp q).phase ∧
      e.tag = d.desc.extractLsb' 32 32 ∧ e.status = status ∧ e.code = code ∧ e.result = BitVec.ofNat 64 result ∧ e.tick = s.now

/-- A change that descriptor k of queue pair q asks for by command i is kept for the next step boundary, which is now if the
partition stands at one (R403). -/
def Defers (s : State) (i : Instr) (q k : Nat) (c : Deferred) : Prop :=
  ∃ t : State, exec i s = .next (t.boundaryWork (s.ctx (s.qp q).ctx).part) ∧ { t with qps := s.qps, ctxs := s.ctxs } = s ∧
    (t.ctx (s.qp q).ctx).deferred = (s.ctx (s.qp q).ctx).deferred ++ [(some (q, k), c)] ∧
    (∀ e, s.prog q k = some e → t.prog q k = some { e with running := true, since := some s.now })

/-- Command i completes descriptor k of queue pair q at once with a status and a code, and stores nothing in tarn (R393,
Table 13.6). -/
def Ends (s : State) (i : Instr) (q k status code result : Nat) : Prop :=
  ∃ t : State, exec i s = .next t ∧ t.tarn = s.tarn ∧ t.clusters = s.clusters ∧ Completes s t q k status code result

end Sys2Proof.Machine
end

