-- ==== Sys2Proof/Certificates/Slice0/Obligations.lean ====
section
/-! DEFINITION. The statements about the model: for each family of commands what each command does, and what it leaves as it was,
and for the whole machine what every step keeps. `Ready s i` and its kin (Machine/Waits.lean and Safety.lean) say when an
instruction retires without a wait. The log entries named in a docstring are choices of the model on which the statement rests. -/

open Sys2Proof Sys2Proof.Machine

/-- Integer arithmetic (R176, R177). -/
def Obligations.IntegerArithmetic : Prop :=
  ∀ (i : Issue) (s : State), Ready s i → (formAlu i .scalar 1).legal i = true →
    let x := s.sr i.c (fB i)
    let y := if fF i % 2 = 1 then sImm16 i else s.sr i.c (fC i)
    let n := y.toNat % 64
    let gives := fun (c : Instr) (w : Word) =>
      ∃ t : State, exec c s = .next t ∧ Retires s t i ((s.regsOf i.c).setSreg (fA i) w)
    gives (.add i) (x + y) ∧ gives (.sub i) (x - y) ∧ gives (.and i) (x &&& y) ∧ gives (.or i) (x ||| y) ∧
    gives (.xor i) (x ^^^ y) ∧ gives (.sll i) (x <<< n) ∧ gives (.srl i) (x >>> n) ∧ gives (.sra i) (x.sshiftRight n) ∧
    gives (.mul i) (x * y) ∧ gives (.mulh i) (BitVec.ofInt 64 (x.toInt * y.toInt / 2 ^ 64)) ∧
    gives (.mulhu i) (BitVec.ofNat 64 (x.toNat * y.toNat / 2 ^ 64)) ∧
    gives (.div i) (if y = 0 then BitVec.allOnes 64 else BitVec.ofInt 64 (x.toInt.tdiv y.toInt)) ∧
    gives (.divu i) (if y = 0 then BitVec.allOnes 64 else x / y) ∧
    gives (.rem i) (if y = 0 then x else BitVec.ofInt 64 (x.toInt.tmod y.toInt)) ∧
    gives (.remu i) (if y = 0 then x else x % y) ∧
    gives (.min i) (if y.toInt < x.toInt then y else x) ∧ gives (.max i) (if x.toInt < y.toInt then y else x) ∧
    gives (.minu i) (if y.toNat < x.toNat then y else x) ∧ gives (.maxu i) (if x.toNat < y.toNat then y else x)

/-- NOP, BR, JAL, JALR, LOOP and TRAP (R166, R171 to R174). -/
def Obligations.ControlFlow : Prop :=
  ∀ (i : Issue) (s : State), Ready s i →
    let r := s.regsOf i.c
    let link := BitVec.ofNat 64 (nextPc s i)
    let near := (((r.pc.toNat : Int) + 8 * sImm32 i).emod (2 ^ 32)).toNat
    let far := s.sr i.c (fB i) + 8 * sImm16 i
    let bodyEnd := r.pc.toNat + 8 + 8 * (sImm32 i).toNat
    let count := s.sr i.c (fB i)
    (formR.legal i = true → ∃ t : State, exec (.nop i) s = .next t ∧ Retires s t i r) ∧
    (formBr.legal i = true → ∃ t : State, exec (.br i) s = .next t ∧ Moves s t i r false near) ∧
    (formJal.legal i = true → ∃ t : State, exec (.jal i) s = .next t ∧ Moves s t i (r.setSreg (fA i) link) false near) ∧
    (formJalr.legal i = true → far.toNat % 8 = 0 → far.toNat < 2 ^ 32 →
      ∃ t : State, exec (.jalr i) s = .next t ∧ Moves s t i (r.setSreg (fA i) link) false far.toNat) ∧
    (formJalr.legal i = true → (far.toNat % 8 ≠ 0 ∨ 2 ^ 32 ≤ far.toNat) → ∃ t : State, exec (.jalr i) s = .next t ∧ Traps s t i 0x04 0 0) ∧
    (formLoop.legal i = true → 0 ≤ sImm32 i → (count = 0 ∨ sImm32 i = 0) →
      ∃ t : State, exec (.loop i) s = .next t ∧ Moves s t i r true bodyEnd) ∧
    (formLoop.legal i = true → 0 < sImm32 i → count ≠ 0 → r.loops.length < 4 →
      ∃ t : State, exec (.loop i) s = .next t ∧
        Retires s t i { r with loops := { start := r.pc.toNat + 8, fin := bodyEnd, remaining := count } :: r.loops }) ∧
    (formLoop.legal i = true → 0 < sImm32 i → count ≠ 0 → 4 ≤ r.loops.length →
      ∃ t : State, exec (.loop i) s = .next t ∧ Traps s t i 0x09 0 0) ∧
    (formTrap.legal i = true → ∃ t : State, exec (.trap i) s = .next t ∧ Traps s t i 0x0A (fImm16 i).toNat 0)

/-- LI, LIX, CMP, PLOG and RDCNT (R178 to R180). MOVSV, MOVVS, VMOV, VBCAST and MSK (R181, R183). Follows the model's choices of
notes/assumptions, entries 15 to 23. -/
def Obligations.ScalarAndRowRegisterInstructions : Prop :=
  (∀ (i : Issue) (s : State), Ready s i →
    let r := s.regsOf i.c
    let x := s.sr i.c (fB i)
    let y := if fF i % 2 = 1 then sImm16 i else s.sr i.c (fC i)
    let holds := fun (k : Nat) => match k with
      | 0 => decide (x = y)
      | 1 => decide (x ≠ y)
      | 2 => decide (x.toInt < y.toInt)
      | 3 => decide (x.toNat < y.toNat)
      | 4 => decide (y.toInt ≤ x.toInt)
      | _ => decide (y.toNat ≤ x.toNat)
    let logic := fun (k : Nat) => match k with
      | 0 => r.pred (fB i) && r.pred (fC i)
      | 1 => r.pred (fB i) || r.pred (fC i)
      | 2 => xor (r.pred (fB i)) (r.pred (fC i))
      | _ => r.pred (fB i) && !r.pred (fC i)
    let counter := fun (k : Nat) => match k with
      | 0 => (s.region (regionOf i.c)).cycle
      | 1 => BitVec.ofNat 64 (s.domain (regionOf i.c)).ticks
      | 2 => (s.cl i.c).cnt.retired
      | 3 => (s.cl i.c).cnt.waitTicks
      | _ => BitVec.ofNat 64 (s.tagTicksAt i.c)
    (formLi.legal i = true → ∃ t : State, exec (.li i) s = .next t ∧ Retires s t i (r.setSreg (fA i) ((fImm32 i).signExtend 64))) ∧
    (formLix.legal i = true → ∃ t : State, exec (.lix i) s = .next t ∧ Retires s t i (r.setSreg (fA i) i.x0)) ∧
    ((formAlu i .small 15).legal i = true → fF i / 2 % 8 < 6 →
      ∃ t : State, exec (.cmp i) s = .next t ∧ Retires s t i (r.setPred (fA i) (holds (fF i / 2 % 8)))) ∧
    (formPlog.legal i = true → ∃ t : State, exec (.plog i) s = .next t ∧ Retires s t i (r.setPred (fA i) (logic (fF i / 2 % 4)))) ∧
    (formRdcnt.legal i = true → fF i < 5 → ∃ t : State, exec (.rdcnt i) s = .next t ∧ Retires s t i (r.setSreg (fA i) (counter (fF i))))) ∧
  (∀ (i : Issue) (s : State), Ready s i →
    let r := s.regsOf i.c
    let k := (if fF i % 2 = 1 then sImm16 i else s.sr i.c (fC i)).toNat
    ((formMovsv i).legal i = true → k < 64 →
      ∃ t : State, exec (.movsv i) s = .next t ∧ Retires s t i (r.setSreg (fA i) ((r.row (fB i)).extractLsb' (64 * k) 64))) ∧
    ((formMovsv i).legal i = true → 64 ≤ k → ∃ t : State, exec (.movsv i) s = .next t ∧ Traps s t i 0x04 0 0) ∧
    ((formMovvs i).legal i = true → k < 64 →
      ∃ t : State, exec (.movvs i) s = .next t ∧
        Retires s t i (r.mergeBits (fA i) (byteBits (8 * k) 8) ((r.sreg (fB i)).setWidth 4096 <<< (64 * k)))) ∧
    ((formMovvs i).legal i = true → 64 ≤ k → ∃ t : State, exec (.movvs i) s = .next t ∧ Traps s t i 0x04 0 0) ∧
    (formVmov.legal i = true → ∃ t : State, exec (.vmov i) s = .next t ∧ Retires s t i (r.mergeRow (fA i) (r.row (fB i)))) ∧
    (formVbcast.legal i = true → ∃ t : State, exec (.vbcast i) s = .next t ∧ Retires s t i (r.mergeRow (fA i) (splat (r.sreg (fB i))))) ∧
    ((formMsk i).legal i = true → fF i % 4 = 0 →
      ∃ t : State, exec (.msk i) s = .next t ∧ Retires s t i (r.setMask (fA i) (BitVec.allOnes 512))) ∧
    ((formMsk i).legal i = true → fF i % 4 = 1 → ∃ t : State, exec (.msk i) s = .next t ∧ Retires s t i (r.setMask (fA i) 0)) ∧
    ((formMsk i).legal i = true → fF i % 4 = 2 → (s.sr i.c (fC i)).toNat ≤ 512 →
      ∃ t : State, exec (.msk i) s = .next t ∧
        Retires s t i (r.setMask (fA i) (maskRange (r.sreg (fB i)).toNat (s.sr i.c (fC i)).toNat))) ∧
    ((formMsk i).legal i = true → fF i % 4 = 2 → 512 < (s.sr i.c (fC i)).toNat → ∃ t : State, exec (.msk i) s = .next t ∧ Traps s t i 0x04 0 0) ∧
    ((formMsk i).legal i = true → fF i % 4 = 3 →
      ∃ t : State, exec (.msk i) s = .next t ∧ Retires s t i (r.setMask (fA i) (maskNonZero (r.row (fC i))))))

/-- LD, PK and ST of a resident row (R184, R185, Table 3.4). MOVR and FILL begin, or have no effect, and their row operations (R169, R186).
Follows the model's choices of notes/assumptions, entries 15 to 36. -/
def Obligations.RowInstructions : Prop :=
  (∀ (i : Issue) (s : State), Ready s i → formRow.legal i = true →
    let e := s.handle i.c (fH i)
    let idx := (s.sr i.c (fB i) + sImm16 i).toNat
    let n := handleRow e idx
    let row := s.trow i.c n
    let r := s.regsOf i.c
    hBacking e = 0 →
    (handleOk e (s.ctxOf i.c) .engineRead idx = true → Readable s i.c n (hTagged e) i.u →
      (∃ t : State, exec (.ld i) s = .next t ∧ Advances s t i (r.mergeRow (fA i) row.data) true (nextPc s i) ∧
        t.trow i.c n = { row with syndrome := 0, tag := if hTagged e then .empty else row.tag } ∧ OnlyRow s t i.c n) ∧
      (∃ t : State, exec (.pk i) s = .next t ∧ Advances s t i (r.mergeRow (fA i) row.data) true (nextPc s i) ∧
        t.trow i.c n = { row with syndrome := 0 } ∧ OnlyRow s t i.c n)) ∧
    (handleOk e (s.ctxOf i.c) .engineWrite idx = true → Writable s i.c n (hTagged e) →
      ∃ t : State, exec (.st i) s = .next t ∧ Advances s t i r true (nextPc s i) ∧
        t.trow i.c n = { row with data := r.row (fA i), tag := .full, syndrome := 0 } ∧ OnlyRow s t i.c n) ∧
    (handleOk e (s.ctxOf i.c) .engineRead idx = true → hTagged e = true → (s.allHeld i.c = true ∨ row.tag = .empty) →
      (∃ t : State, exec (.ld i) s = .next t ∧ Waits s t i 0x40) ∧ (∃ t : State, exec (.pk i) s = .next t ∧ Waits s t i 0x41)) ∧
    (handleOk e (s.ctxOf i.c) .engineWrite idx = true → hTagged e = true → (s.allHeld i.c = true ∨ row.tag = .full) →
      ∃ t : State, exec (.st i) s = .next t ∧ Waits s t i 0x42) ∧
    (handleOk e (s.ctxOf i.c) .engineRead idx = false →
      (∃ t : State, exec (.ld i) s = .next t ∧ Traps s t i 0x05 0 0) ∧ (∃ t : State, exec (.pk i) s = .next t ∧ Traps s t i 0x05 0 0)) ∧
    (handleOk e (s.ctxOf i.c) .engineWrite idx = false → ∃ t : State, exec (.st i) s = .next t ∧ Traps s t i 0x05 0 0)) ∧
  ((∀ (i : Issue) (s : State), Ready s i →
    let n := rowCount s i
    let begins := fun (c : Instr) (op : BitVec 8) =>
      ∃ t : State, exec c s = .next t ∧ OnlyCluster s t i.c ∧ t.regsOf i.c = s.regsOf i.c ∧ (t.cl i.c).st = .running ∧
        (t.cl i.c).hold = some { opcode := op, iss := calm i }
    let fits := handleRangeOk (s.handle i.c (fH i)) (s.ctxOf i.c) .engineWrite (s.sr i.c (fB i)).toNat n
    let source := handleRangeOk (s.handle i.c (fF i)) (s.ctxOf i.c) .engineRead (s.sr i.c (fC i)).toNat n
    (formMovr.legal i = true → n = 0 → ∃ t : State, exec (.movr i) s = .next t ∧ Retires s t i (s.regsOf i.c)) ∧
    (formFill.legal i = true → n = 0 → ∃ t : State, exec (.fill i) s = .next t ∧ Retires s t i (s.regsOf i.c)) ∧
    (formMovr.legal i = true → n ≠ 0 → source = true → fits = true → begins (.movr i) 0x43) ∧
    (formFill.legal i = true → n ≠ 0 → fits = true → begins (.fill i) 0x44) ∧
    (formMovr.legal i = true → n ≠ 0 → (source = false ∨ fits = false) → ∃ t : State, exec (.movr i) s = .next t ∧ Traps s t i 0x05 0 0) ∧
    (formFill.legal i = true → n ≠ 0 → fits = false → ∃ t : State, exec (.fill i) s = .next t ∧ Traps s t i 0x05 0 0)) ∧
  (∀ (c : Nat) (u : Upset) (s : State) (h : Hold), (s.cl c).hold = some h → h.iss.c = c → (s.cl c).st = .running →
    (s.region (regionOf c)).pstate = .run →
    let src := s.handle c (fF h.iss)
    let dst := s.handle c (fH h.iss)
    let a := handleRow src ((s.sr c (fC h.iss)).toNat + h.j)
    let b := handleRow dst ((s.sr c (fB h.iss)).toNat + h.j)
    hBacking dst = 0 → Writable s c b (hTagged dst) →
    (h.opcode = 0x43 → hBacking src = 0 → a ≠ b → Readable s c a (hTagged src) u →
      ∃ t : State, exec (.movrRowOperation c u) s = .next t ∧
        t.trow c b = { s.trow c b with data := (s.trow c a).data, tag := .full, syndrome := 0 } ∧
        t.trow c a = { s.trow c a with tag := if hTagged src then .empty else (s.trow c a).tag, syndrome := 0 }) ∧
    (h.opcode = 0x44 →
      ∃ t : State, exec (.fillRowOperation c) s = .next t ∧
        t.trow c b = { s.trow c b with data := (s.regsOf c).row (fC h.iss), tag := .full, syndrome := 0 } ∧ OnlyRow s t c b)))

/-- TAGRD, WAITT and its poll of a spilled row's tag (R188, R189). TWAIT and its release (R190 to R192). Follows the model's choices of
notes/assumptions, entries 15 to 30. -/
def Obligations.TagAndTickInstructions : Prop :=
  ((∀ (i : Issue) (s : State), Ready s i →
    let e := s.handle i.c (fH i)
    let idx := rowIndex s i
    let tag := s.entryTag i.c e (handleRow e idx)
    let wanted := if fF i % 2 = 0 then Tag.full else Tag.empty
    handleOk e (s.ctxOf i.c) .engineRead idx = true →
    (formTagrd.legal i = true → ∃ t : State, exec (.tagrd i) s = .next t ∧
      Retires s t i ((s.regsOf i.c).setSreg (fA i) (match tag with | .empty => 0 | .full => 1 | .poisoned => 2 | .held => 3))) ∧
    (formWaitt.legal i = true → tag = wanted → ∃ t : State, exec (.waitt i) s = .next t ∧ Retires s t i (s.regsOf i.c)) ∧
    (formWaitt.legal i = true → tag ≠ wanted → tag ≠ .poisoned → ∃ t : State, exec (.waitt i) s = .next t ∧ Waits s t i 0x46)) ∧
  (∀ (c : Nat) (s : State) (h : Hold), (s.cl c).hold = some h → h.iss.c = c → h.opcode = 0x46 → (s.cl c).st = .waiting →
    (s.region (regionOf c)).pstate = .run →
    let e := s.handle c (fH h.iss)
    hBacking e ≠ 0 → handleOk e (s.ctxOf c) .engineRead (rowIndex s h.iss) = true →
    s.bitmapTag e (handleRow e (rowIndex s h.iss)) = (if fF h.iss % 2 = 0 then .full else .empty) →
    ∃ t : State, exec (.waittPoll c) s = .next t ∧ Moves s t h.iss (s.regsOf c) true (nextPc s h.iss))) ∧
  ((∀ (i : Issue) (s : State), Ready s i → formTwait.legal i = true →
    let T := (s.sr i.c (fB i) + sImm16 i).toNat
    let now := (s.domain (regionOf i.c)).ticks % 2 ^ 64
    (T ≤ now → now ≤ T + fF i → ∃ t : State, exec (.twait i) s = .next t ∧ Retires s t i (s.regsOf i.c)) ∧
    (T + fF i < now → ∃ t : State, exec (.twait i) s = .next t ∧ Advances s t i (s.regsOf i.c) true (nextPc s i) ∧
      (t.cl i.c).ev.late = satInc (s.cl i.c).ev.late ∧ (t.cl i.c).ev.lateMax = max (s.cl i.c).ev.lateMax (now - T) ∧
      (t.region (regionOf i.c)).stepLateMax = max (s.region (regionOf i.c)).stepLateMax (now - T)) ∧
    (now < T → T - now ≤ s.tagTicksAt i.c → ∃ t : State, exec (.twait i) s = .next t ∧ (t.cl i.c).st = .running ∧
      (t.cl i.c).hold = some { opcode := 0x50, iss := calm i, since := some s.now, target := T } ∧ OnlyCluster s t i.c) ∧
    (now < T → s.tagTicksAt i.c < T - now → ∃ t : State, exec (.twait i) s = .next t ∧ Traps s t i 0x08 0 0)) ∧
  (∀ (c : Nat) (s : State) (h : Hold), (s.cl c).hold = some h → h.iss.c = c → h.opcode = 0x50 → (s.cl c).st = .running →
    (s.region (regionOf c)).pstate = .run → h.target ≤ (s.domain (regionOf c)).ticks % 2 ^ 64 →
    ∃ t : State, exec (.twaitRelease c) s = .next t ∧ Moves s t h.iss (s.regsOf c) true (nextPc s h.iss)))

/-- Tag waits that end, or expire, and the tag update of a spilled row (R80, R82 to R86, R98). Follows the model's choices of
notes/assumptions, entries 15 to 30. -/
def Obligations.TagWaits : Prop :=
  (∀ (c : Nat) (u : Upset) (s : State) (h : Hold), s.tagWaitOf c = some h → h.iss.c = c → h.opcode = 0x40 → h.iss.u = u →
    let e := s.handle c (fH h.iss)
    let n := handleRow e (rowIndex s h.iss)
    hBacking e = 0 → handleOk e (s.ctxOf c) .engineRead (rowIndex s h.iss) = true → Readable s c n (hTagged e) u →
    ∃ t : State, exec (.tagWaitSatisfied (.cluster c) u) s = .next t ∧
      Advances s t h.iss ((s.regsOf c).mergeRow (fA h.iss) (s.trow c n).data) true (nextPc s h.iss) ∧
      t.trow c n = { s.trow c n with syndrome := 0, tag := if hTagged e then .empty else (s.trow c n).tag } ∧ OnlyRow s t c n) ∧
  (∀ (c : Nat) (s : State) (h : Hold) (began : Nat), s.tagWaitOf c = some h → h.iss.c = c → s.waitsOnTag h = true →
    h.since = some began →
    (began + s.tagTicksAt c ≤ s.now → ∃ t : State, exec (.tagWaitTimeout (.cluster c)) s = .next t ∧ Traps s t h.iss 0x06 0 h.j) ∧
    (s.now < began + s.tagTicksAt c → exec (.tagWaitTimeout (.cluster c)) s = .next s)) ∧
  (∀ (c line : Nat) (s : State) (began : Nat), s.fetchSince c line = some began → began + s.tagTicksAt c ≤ s.now →
    ∃ t : State, exec (.tagWaitTimeout (.fetch c line)) s = .next t ∧ OnlyCluster s t c ∧
      Tbl.get (fun _ => Mark.clean) (t.cl c).code.marks line = .address ∧ t.fetchSince c line = none) ∧
  (∀ (c k : Nat) (s : State) (r : RemoteWait), (s.cl c).fab.remoteWait[k]? = some r →
    r.since + s.tagTicks r.pkt.context ≤ s.now →
    ∃ t : State, exec (.tagWaitTimeout (.remote c k)) s = .next t ∧ OnlyCluster s t c ∧
      (t.cl c).fab.remoteWait = (s.cl c).fab.remoteWait.eraseIdx k) ∧
  (∀ (c h : Nat) (row : Word) (step : TagStep) (s : State),
    let e := s.handle c h
    let i := handleRow e row.toNat
    let a := hBitmap e + i / 4
    let k := 4 ^ (i % 4)
    let b := (s.byte a).toNat
    hBacking e ≠ 0 → 0 < hCount e → (hWrap e = true ∨ row.toNat < hCount e) →
    (s.bitmapTag e i = (tagChange step).1 →
      ∃ t : State, exec (.spilledTagUpdate c h row step) s = .next t ∧ t.bitmapTag e i = (tagChange step).2 ∧ t.tarn = s.tarn ∧
        t.clusters = s.clusters ∧ (∀ a', a' ≠ a → t.byte a' = s.byte a') ∧
        (t.byte a).toNat = b - b / k % 4 * k + (tagChange step).2.code * k) ∧
    (s.bitmapTag e i ≠ (tagChange step).1 → exec (.spilledTagUpdate c h row step) s = .next s))

/-- A code line fetched from tarn or from HBM, and a marked line read again (R42, R43, R103, R586). Run-ahead loads, parked peeks and receive
prefetches (R50 to R53, R56, R81, R255). Follows the model's choices of notes/assumptions, entries 15 to 23. -/
def Obligations.CodeFetchAndRunAhead : Prop :=
  (∀ (c line : Nat) (u : Upset) (s : State), (s.cl c).st = .running →
    (∀ h, (s.cl c).code.src = .tarn h → handleOk (s.handle c h) (s.ctxOf c) .engineRead line = true →
      let n := handleRow (s.handle c h) line
      s.allHeld c = false → (s.trow c n).tag = .full → (s.trow c n).syndrome ^^^ upsetOf u = 0 →
      (∃ t : State, exec (.instructionFetch c line u) s = .next t ∧
        Tbl.get (fun _ => none) (t.cl c).code.lines line = some (s.trow c n).data ∧
        Tbl.get (fun _ => Mark.clean) (t.cl c).code.marks line = .clean ∧ (t.trow c n).tag = .full ∧ OnlyRow s t c n) ∧
      (line = (s.regsOf c).pc.toNat / 512 → Tbl.get (fun _ => Mark.clean) (s.cl c).code.marks line = .integrityTarn →
        ∃ t : State, exec (.fetchFaultReread c u) s = .next t ∧
          Tbl.get (fun _ => none) (t.cl c).code.lines line = some (s.trow c n).data ∧
          Tbl.get (fun _ => Mark.clean) (t.cl c).code.marks line = .clean ∧ OnlyRow s t c n)) ∧
    (∀ base p, (s.cl c).code.src = .hbm base → s.partOf c = some p → s.reachable p (base + line * 512) 512 = true →
      s.readsPoison (base + line * 512) 512 = false →
      ∃ t : State, exec (.instructionFetch c line u) s = .next t ∧ OnlyCluster s t c ∧
        Tbl.get (fun _ => none) (t.cl c).code.lines line = some (BitVec.ofNat 4096 (s.readNat (base + line * 512) 512)))) ∧
  (∀ (c : Nat) (s : State),
    (exec (.runAheadLoad c 0 none .none) s = .next s) ∧
    (∀ h (w : Word) u, s.runsAhead c = true → handleOk (s.handle c h) (s.ctxOf c) .engineRead w.toNat = true → hBacking (s.handle c h) = 0 →
      (s.cl c).ahead.loads.length < 8 → s.allHeld c = false →
      let n := handleRow (s.handle c h) w.toNat
      let entry := fun (parked : Bool) (d : Row) => ({ handle := h, row := n, parked := parked, data := d, stale := false } : RaEntry)
      ((s.trow c n).tag = .full → (s.trow c n).syndrome ^^^ upsetOf u = 0 →
        ∃ t : State, exec (.runAheadLoad c h (some w) u) s = .next t ∧ OnlyRow s t c n ∧ t.trow c n = { s.trow c n with syndrome := 0 } ∧
          (t.cl c).ahead.loads = (s.cl c).ahead.loads ++ [entry false (s.trow c n).data]) ∧
      ((s.trow c n).tag = .full → (s.trow c n).syndrome ^^^ upsetOf u ≠ 0 →
        ∃ t : State, exec (.runAheadLoad c h (some w) u) s = .next t ∧ (t.trow c n).tag = .full ∧ (t.cl c).ahead = (s.cl c).ahead ∧
          (t.cl c).cnt.crcMismatch = satInc (s.cl c).cnt.crcMismatch) ∧
      ((s.trow c n).tag = .empty →
        ∃ t : State, exec (.runAheadLoad c h (some w) u) s = .next t ∧ OnlyCluster s t c ∧
          (t.cl c).ahead.loads = (s.cl c).ahead.loads ++ [entry true 0]) ∧
      ((s.trow c n).tag = .poisoned → exec (.runAheadLoad c h (some w) u) s = .next s)) ∧
    (∀ k u e, (s.cl c).ahead.loads[k]? = some e → e.parked = true → s.runsAhead c = true → s.allHeld c = false →
      ((s.trow c e.row).tag = .full → (s.trow c e.row).syndrome ^^^ upsetOf u = 0 →
        ∃ t : State, exec (.runAheadParkedPeek c k u) s = .next t ∧ OnlyRow s t c e.row ∧
          (t.cl c).ahead.loads = (s.cl c).ahead.loads.set k { e with parked := false, data := (s.trow c e.row).data, stale := false }) ∧
      ((s.trow c e.row).tag ≠ .full → exec (.runAheadParkedPeek c k u) s = .next s)) ∧
    (∀ h (w d : Word), s.runsAhead c = true → s.badDest c d.toNat = false → (s.cl c).ahead.prefetch.length < 8 →
      hBacking (s.handle d.toNat h) = 0 →
      let key := flowKey (.cluster d.toNat) h
      MayLeave s c key (.cluster d.toNat) →
      ∃ t : State, exec (.receivePrefetch c h (some w) (some d)) s = .next t ∧ NoStore s t ∧ t.regsOf c = s.regsOf c ∧
        Sends s t c key .prefetch (reqPacket c .read (.cluster d.toNat) h w.toNat 2 0 0) ∧
        (t.cl c).ahead.prefetch = (s.cl c).ahead.prefetch ++
          [{ owner := d.toNat, handle := h, index := w, tag := s.nextTag c, data := none, watched := false, stale := false }]))

/-- WLD, MMA and ACLR (R198 to R201, R207). Follows the model's choices of notes/assumptions, entries 31 to 36. -/
def Obligations.ElectrumLoadAndMultiply : Prop :=
  ∀ (i : Issue) (s : State), Ready s i →
    (wldLegal i = true → i.u = .none →
      let e := s.handle i.c (fH i)
      let se := s.handle i.c (bitsOf i.x0 5 0)
      let f := hFormat e
      let e0 := (s.sr i.c (fB i)).toNat
      let n := tileK f * tileN f
      let rows := rowsOfElems e0 n (elemsPerRow f)
      let srows := rowsOfElems (e0 / 32) (n / 32) 512
      let data := fun (h : HandleEntry) (j : Nat) => (s.trow i.c (handleRow h j)).data
      let readable := fun (h : HandleEntry) (js : List Nat) => hBacking h = 0 ∧ (∀ j ∈ js, Readable s i.c (handleRow h j) (hTagged h) .none)
      let k := fF i % 2
      f ≠ 0xF → e0 % tileK f = 0 → (if wldScaled i then mayScale f = true ∧ hFormat se = 0xF else alwaysScaled f = false) →
      handleRangeOk e (s.ctxOf i.c) .engineRead (e0 / elemsPerRow f) rows.length = true → readable e rows →
      (wldScaled i = true → handleRangeOk se (s.ctxOf i.c) .engineRead (e0 / 32 / 512) srows.length = true ∧ readable se srows) →
      ∃ t : State, exec (.wld i) s = .next t ∧ Advances s t i (s.regsOf i.c) true (nextPc s i) ∧ t.mem = s.mem ∧ t.poison = s.poison ∧
        (∀ c m, (t.trow c m).data = (s.trow c m).data ∧ (t.trow c m).tag = (s.trow c m).tag) ∧
        bankOf (1 - k) (t.cl i.c) = bankOf (1 - k) (s.cl i.c) ∧
        bankOf k (t.cl i.c) = {
          loaded := true, fmt := f, scaled := wldScaled i,
          codes := (List.range n).map (fun j => elemOfRows f (rows.map (data e)) (e0 % elemsPerRow f + j)),
          scales := if wldScaled i then (List.range (n / 32)).map (fun j => elemOfRows 0xF (srows.map (data se)) (e0 / 32 % 512 + j)) else [] }) ∧
    (mmaLegal i = true → i.u ≠ .engine →
      let v := s.cl i.c
      let b := bankOf (fF i % 2) v
      let f := b.fmt
      let A := mmaAnchor i
      let scaled := mmaScaled i || b.scaled
      let acc := mmaAcc i
      let q := tileK f / 32
      (b.loaded = false → ∃ t : State, exec (.mma i) s = .next t ∧ Traps s t i 0x04 0 0) ∧
      (b.loaded = true → acc + tileV f ≤ 64 →
        (if mmaScaled i then mayScale f = true ∧ (fImm16 i).toNat + elemsPerRow f / 32 ≤ 512 else alwaysScaled f = false) →
        anchorOk f scaled A = true →
        (∀ j < tileV f, (accRow v (acc + j)).bound = none ∨ (accRow v (acc + j)).bound = some (f, A)) →
        ∃ t : State, exec (.mma i) s = .next t ∧ OnlyCluster s t i.c ∧ Advances s t i (s.regsOf i.c) true (nextPc s i) ∧
          (∀ j < tileV f, accRow (t.cl i.c) (acc + j) = mmaRow f A scaled (s.stillMode i.c) b
            ((List.range (tileK f)).map (fun k => elemAt f (v.regs.row (fB i)) (j * tileK f + k)))
            (if mmaScaled i then (List.range q).map (fun k => rowByte (v.regs.row (fC i)) ((fImm16 i).toNat + j * q + k)) else [])
            (accRow v (acc + j))) ∧
          (∀ m, m < acc ∨ acc + tileV f ≤ m → accRow (t.cl i.c) m = accRow v m))) ∧
    (formAclr.legal i = true →
      let n := rowCount s i
      (64 < fF i + n → n ≠ 0 → ∃ t : State, exec (.aclr i) s = .next t ∧ Traps s t i 0x04 0 0) ∧
      (n = 0 ∨ fF i + n ≤ 64 →
        ∃ t : State, exec (.aclr i) s = .next t ∧ OnlyCluster s t i.c ∧ Advances s t i (s.regsOf i.c) true (nextPc s i) ∧
          ∀ m, accRow (t.cl i.c) m = if fF i ≤ m ∧ m < fF i + n then {} else accRow (s.cl i.c) m))

/-- DRN and DRNP begin, or have no effect, and their row operations (R202 to R206). Follows the model's choices of notes/assumptions, entries
31 to 36. -/
def Obligations.ElectrumDrains : Prop :=
  (∀ (i : Issue) (s : State), Ready s i → i.u ≠ .engine →
    let v := s.cl i.c
    let n := rowCount s i
    let e := s.handle i.c (fH i)
    let f := hFormat e
    let g := (runFormats v (drnAcc i) n).headD 9
    let per := 512 / slotBytes g
    let begins := fun (c : Instr) (op : BitVec 8) =>
      ∃ t : State, exec c s = .next t ∧ OnlyCluster s t i.c ∧ t.regsOf i.c = s.regsOf i.c ∧ (t.cl i.c).st = .running ∧
        (t.cl i.c).hold = some { opcode := op, iss := calm i }
    (drnLegal i = true → n = 0 → ∃ t : State, exec (.drn i) s = .next t ∧ Retires s t i (s.regsOf i.c)) ∧
    (drnpLegal i = true → n = 0 → ∃ t : State, exec (.drnp i) s = .next t ∧ Retires s t i (s.regsOf i.c)) ∧
    (n ≠ 0 → drnAcc i + n ≤ 64 → (runFormats v (drnAcc i) n).length ≤ 1 →
      (drnLegal i = true → f ≠ 0xF → n * tileN g % elemsPerRow f = 0 →
        (if drnScaled i then mayScale f = true ∧ tileN g = 64 ∧ (fImm16 i).toNat + n * tileN g / 32 ≤ 512 else alwaysScaled f = false) →
        handleRangeOk e (s.ctxOf i.c) .engineWrite (s.sr i.c (fB i)).toNat (n * tileN g / elemsPerRow f) = true →
        begins (.drn i) 0x62) ∧
      (drnpLegal i = true → n * tileN g % per = 0 →
        handleRangeOk e (s.ctxOf i.c) .engineWrite (s.sr i.c (fB i)).toNat (n * tileN g / per) = true → begins (.drnp i) 0x63)) ∧
    (n ≠ 0 → (64 < drnAcc i + n ∨ 1 < (runFormats v (drnAcc i) n).length) →
      (drnLegal i = true → ∃ t : State, exec (.drn i) s = .next t ∧ Traps s t i 0x04 0 0) ∧
      (drnpLegal i = true → ∃ t : State, exec (.drnp i) s = .next t ∧ Traps s t i 0x04 0 0))) ∧
  (∀ (c : Nat) (u : Upset) (s : State) (h : Hold), (s.cl c).hold = some h → h.iss.c = c → (s.cl c).st = .running →
    (s.region (regionOf c)).pstate = .run → u ≠ .engine → (h.opcode = 0x62 ∨ h.opcode = 0x63) →
    let i := h.iss
    let drn := decide (h.opcode = 0x62)
    let o := s.drnOut i
    let rows := if drn then o.rows else s.drnpOut i
    let e := s.handle c (fH i)
    let b := handleRow e ((s.sr c (fB i)).toNat + h.j)
    let r := s.regsOf c
    let at' := (fImm16 i).toNat
    hBacking e = 0 → Writable s c b (hTagged e) →
    ∃ t : State, exec (.drainRowOperation c u) s = .next t ∧ OnlyRow s t c b ∧
      t.trow c b = { s.trow c b with data := rows.getD h.j 0, tag := .full, syndrome := 0 } ∧
      (h.j + 1 ≠ rows.length → t.regsOf c = r ∧ (t.cl c).hold = some { h with j := h.j + 1, since := none }) ∧
      (h.j + 1 = rows.length →
        Advances s t i (if drn && drnScaled i then r.mergeBits (fA i) (byteBits at' o.scales.length)
          (BitVec.ofNat 4096 (o.scales.foldr (fun e a => e + a * 256) 0 * 256 ^ at')) else r) true (nextPc s i) ∧
        (drn = true → (t.cl c).ev = countConv o.counts { (s.cl c).ev with range := satAdd (s.cl c).ev.range o.range, below := satAdd (s.cl c).ev.below o.below }) ∧
        (∀ m, accRow (t.cl c) m = if fF i % 2 = 1 ∧ drnAcc i ≤ m ∧ m < drnAcc i + rowCount s i then {} else accRow (s.cl c) m)))

/-- Exact accumulation: an unscaled INT8 granule adds the exact integer dot product, and the order in which granules reach a cell does not
matter while both are counted (R135, R137). Follows the model's choices of notes/assumptions, entries 31 to 36. -/
def Obligations.ExactAccumulation : Prop :=
  (∀ (w a : List Nat),
    let signed := fun (x : Nat) => if 128 ≤ x then (x : Int) - 256 else x
    granuleExact 9 (laneProducts 9 w a) = { v := ((w.zip a).map (fun p => signed p.1 * signed p.2)).sum }) ∧
  (∀ (g h : Granule) (c : Cell), c.count + 2 ≤ 2 ^ 24 → addGranule g (addGranule h c) = addGranule h (addGranule g c)) ∧
  (∀ (g : Granule) (c : Cell), 2 ^ 24 ≤ c.count → addGranule g c = { c with range := true, count := min (c.count + 1) (2 ^ 27 - 1) })

/-- The elementwise vector instructions: one exact result for each element, rounded once (R154, R208, Tables 5.4, 5.5). VCMP and the row
reductions (R155, R209, R210). Follows the model's choices of notes/assumptions, entries 31 to 36. -/
def Obligations.VectorArithmetic : Prop :=
  (∀ (i : Issue) (s : State), Ready s i → vcLegal i = true →
    let f := vcFmt i
    let r := s.regsOf i.c
    let rd := s.vcRounding i
    let D := decodeElem f
    let z := zeroSign rd
    let row := fun (k : Nat) => r.row k
    let a := fun (n : Nat) => elemAt f (row (fA i)) n
    let b := fun (n : Nat) => elemAt f (row (fB i)) n
    let c := fun (n : Nat) => elemAt f (row (fC i)) n
    let gives := fun (x : Instr) (k : VKind) (legal : Bool) (g : Nat → Nat × Count) =>
      legal = true →
      (vcDfmt i = f → vcMethod i = 0 → vecListed k f = true →
        let es := (List.range (elemsPerRow f)).map g
        ∃ t : State, exec x s = .next t ∧ OnlyCluster s t i.c ∧
          Advances s t i (r.mergeBits (fA i) (BitVec.allOnes 4096) (packRow f (es.map Prod.fst))) true (nextPc s i) ∧
          (t.cl i.c).ev = countConv (countOf (writtenCounts (r.mask (fA i)) f 0 es)) (s.cl i.c).ev) ∧
      ((vcDfmt i ≠ f ∨ vcMethod i ≠ 0 ∨ vecListed k f = false) → ∃ t : State, exec x s = .next t ∧ Traps s t i 0x04 0 0)
    gives (.vadd i) .addMul (formV2.legal i) (fun n => roundElem f rd n ((D (b n)).add z (D (c n)))) ∧
    gives (.vsub i) .addMul (formV2.legal i) (fun n => roundElem f rd n ((D (b n)).add z (D (c n)).neg)) ∧
    gives (.vmul i) .addMul (formV2.legal i) (fun n => roundElem f rd n ((D (b n)).mul (D (c n)))) ∧
    gives (.vdiv i) .arith (formV2.legal i) (fun n => roundElem f rd n ((D (b n)).div (D (c n)))) ∧
    gives (.vmin i) .minMax (formV2.legal i) (fun n => exactElem f ((D (b n)).min (D (c n)))) ∧
    gives (.vmax i) .minMax (formV2.legal i) (fun n => exactElem f ((D (b n)).max (D (c n)))) ∧
    gives (.vfma i) .arith (formV2.legal i) (fun n => roundElem f rd n (((D (b n)).mul (D (c n))).add z (D (a n)))) ∧
    gives (.vsqrt i) .arith (formV1.legal i) (fun n => roundElem f rd n (D (b n)).sqrt) ∧
    gives (.vabs i) .arith (formV1.legal i) (fun n => exactElem f (D (b n)).abs) ∧
    gives (.vneg i) .arith (formV1.legal i) (fun n => exactElem f (D (b n)).neg) ∧
    gives (.vfun i) .approx (formVfun.legal i) (fun n =>
      let y := funResult (fF i % 8) (b n)
      (y, if D y = .nan then .nanOut else .none))) ∧
  (∀ (i : Issue) (s : State), Ready s i → vcLegal i = true →
    let f := vcFmt i
    let g := vcDfmt i
    let r := s.regsOf i.c
    let vs := fun (k : Nat) => (rowElems f (r.row k)).map (decodeElem f)
    let first := fun (fmt : Nat) (e : Nat × Count) (x : Instr) =>
      ∃ t : State, exec x s = .next t ∧ OnlyCluster s t i.c ∧
        Advances s t i (r.mergeBits (fA i) (bitRange 0 (elemWidth fmt)) (packRow fmt [e.1])) true (nextPc s i) ∧
        (t.cl i.c).ev = countConv (countOf (writtenCounts (r.mask (fA i)) fmt 0 [e])) (s.cl i.c).ev
    (formVcmp.legal i = true → fF i % 8 < 6 → g = f → vcMethod i = 0 → vecListed .compare f = true →
      ∃ t : State, exec (.vcmp i) s = .next t ∧
        Retires s t i (r.setMask (fA i) (elemMask f (((vs (fB i)).zip (vs (fC i))).map (fun p => vcmpHolds (fF i % 8) p.1 p.2))))) ∧
    (formVcmp.legal i = true → fF i % 8 < 6 → (g ≠ f ∨ vcMethod i ≠ 0 ∨ vecListed .compare f = false) →
      ∃ t : State, exec (.vcmp i) s = .next t ∧ Traps s t i 0x04 0 0) ∧
    (formV1.legal i = true → f ≤ 3 → g ≤ 3 →
      first g (roundElem g (s.vcRounding i) 0 (val64 (treeSum 8 ((vs (fB i)).map rne64)))) (.vrsum i)) ∧
    (formV1.legal i = true → (3 < f ∨ 3 < g) → ∃ t : State, exec (.vrsum i) s = .next t ∧ Traps s t i 0x04 0 0) ∧
    (formV1.legal i = true → g = f → vecListed .minMax f = true →
      first f (exactElem f (((vs (fB i)).drop 1).foldl Val.max ((vs (fB i)).headD .nan))) (.vrmax i) ∧
      first f (exactElem f (((vs (fB i)).drop 1).foldl Val.min ((vs (fB i)).headD .nan))) (.vrmin i)) ∧
    (formV1.legal i = true → (g ≠ f ∨ vecListed .minMax f = false) →
      (∃ t : State, exec (.vrmax i) s = .next t ∧ Traps s t i 0x04 0 0) ∧ (∃ t : State, exec (.vrmin i) s = .next t ∧ Traps s t i 0x04 0 0)))

/-- VCVT, VQNT and VDQ, and EHINT (R211 to R214). Follows the model's choices of notes/assumptions, entries 31 to 36. -/
def Obligations.VectorConversion : Prop :=
  ∀ (i : Issue) (s : State), Ready s i →
    let sf := vcFmt i
    let df := vcDfmt i
    let r := s.regsOf i.c
    let rd := s.vcRounding i
    let el := fun (n : Nat) => elemAt sf (r.row (fB i)) n
    let put := fun (x : Instr) (p : Placing) (es : List (Nat × Count)) (nans : Nat) (after : Regs → Regs) =>
      ∃ t : State, exec x s = .next t ∧ { t with fresh := s.fresh, clusters := s.clusters } = s ∧ (∀ d, d ≠ i.c → t.cl d = s.cl d) ∧
        Advances s t i (after (r.mergeBits (fA i) (bitRange (elemWidth df * p.dst) (elemWidth df * (p.dst + es.length)))
          (BitVec.ofNat 4096 ((packRow df (es.map Prod.fst)).toNat * 2 ^ (elemWidth df * p.dst))))) true (nextPc s i) ∧
        (t.cl i.c).ev = countConv (countOf (writtenCounts (r.mask (fA i)) df p.dst es) nans) (s.cl i.c).ev
    (vcLegal i = true → formVcvt.legal i = true → unscaledFmt sf = true → unscaledFmt df = true →
      ∀ p, placing sf df (fF i) = some p →
        put (.vcvt i) p ((List.range p.n).map (fun n => roundElem df rd (p.dst + n) (decodeElem sf (el (p.src + n))))) 0 id) ∧
    (quantLegal i = true → unscaledFmt sf = true → mayScale df = true →
      ∀ p, placing sf df (fF i) = some p → quantOff i + p.n / 32 ≤ 512 →
        let vs := (List.range p.n).map (fun n => decodeElem sf (el (p.src + n)))
        let bs := (blocksOf (p.n / 32) vs).zipIdx.map (fun b => quantBlock df (vcMethod i) rd (p.dst + 32 * b.2) b.1)
        put (.vqnt i) p (bs.flatMap (fun b => b.2.1)) (bs.countP (fun b => b.2.2)) (fun q =>
          q.mergeBits (fC i) (bitRange (8 * quantOff i) (8 * (quantOff i + bs.length)))
            (if fC i = fA i then Config.freeRow s.fresh
             else BitVec.ofNat 4096 ((bs.map Prod.fst).foldr (fun e a => e + a * 256) 0 * 256 ^ quantOff i)))) ∧
    (quantLegal i = true → mayScale sf = true → unscaledFmt df = true →
      ∀ p, placing sf df (fF i) = some p → quantOff i + p.n / 32 ≤ 512 →
        put (.vdq i) p ((List.range p.n).map (fun n => roundElem df rd (p.dst + n)
          (scaledElem sf (rowByte (r.row (fC i)) (quantOff i + n / 32)) (el (p.src + n))))) 0 id) ∧
    (vcLegal i = true → formVcvt.legal i = true → placing sf df (fF i) = none → ∃ t : State, exec (.vcvt i) s = .next t ∧ Traps s t i 0x04 0 0) ∧
    (formEhint.legal i = true →
      let d := min (s.sr i.c (fB i)).toNat 10000000
      ∃ t : State, exec (.ehint i) s = .next t ∧ OnlyCluster s t i.c ∧ Advances s t i r true (nextPc s i) ∧
        (t.cl i.c).hintLevel = (if d = 0 then 0 else BitVec.ofNat 4 (fF i)) ∧
        (t.cl i.c).hintUntil = if d = 0 then 0 else s.now + d)

/-- SEND, RECV and MCAST (R215 to R218, R224). Follows the model's choices of notes/assumptions, entries 10, 15 to 23, 42 to 45. -/
def Obligations.SendReceiveMulticast : Prop :=
  ∀ (i : Issue) (s : State), Ready s i →
    let d := (s.sr i.c (fC i)).toNat
    let r := s.regsOf i.c
    let row := r.row (fA i)
    let idx := rowIndex s i
    let key := flowKey (.cluster d) (fH i)
    let plain := s.prefetchOf i.c d (fH i) idx
    (s.badDest i.c d = true →
      (formSend.legal i = true → ∃ t : State, exec (.send i) s = .next t ∧ Traps s t i 0x22 0 0) ∧
      (formRecv.legal i = true → ∃ t : State, exec (.recv i) s = .next t ∧ Traps s t i 0x22 0 0)) ∧
    (s.badDest i.c d = false →
      (formSend.legal i = true → MayLeave s i.c key (.cluster d) →
        ∃ t : State, exec (.send i) s = .next t ∧ NoStore s t ∧ Advances s t i r true (nextPc s i) ∧
          Sends s t i.c key .send (reqPacket i.c .write (.cluster d) (fH i) idx 4 8 row)) ∧
      (formSend.legal i = true → s.maySend i.c key (regionOf d) = false → ∃ t : State, exec (.send i) s = .next t ∧ Waits s t i 0xC0) ∧
      (formRecv.legal i = true → plain = none → MayLeave s i.c key (.cluster d) →
        ∃ t : State, exec (.recv i) s = .next t ∧ NoStore s t ∧ t.regsOf i.c = r ∧ (t.cl i.c).st = .waiting ∧
          (t.cl i.c).hold = some { opcode := 0xC1, iss := calm i, since := some s.now, tag := s.nextTag i.c } ∧
          Sends s t i.c key .recv (reqPacket i.c .read (.cluster d) (fH i) idx (fF i % 2) 0 0)) ∧
      (formRecv.legal i = true → plain = none → s.maySend i.c key (regionOf d) = false →
        ∃ t : State, exec (.recv i) s = .next t ∧ Waits s t i 0xC1) ∧
      (∀ f data, formRecv.legal i = true → plain = some f → f.data = some data → f.watched = true → f.stale = false →
        (fF i % 2 = 1 → ∃ t : State, exec (.recv i) s = .next t ∧ OnlyCluster s t i.c ∧
          Advances s t i (r.mergeRow (fA i) data) true (nextPc s i)) ∧
        (fF i % 2 = 0 → MayLeave s i.c key (.cluster d) →
          ∃ t : State, exec (.recv i) s = .next t ∧ NoStore s t ∧ t.regsOf i.c = r ∧ (t.cl i.c).st = .waiting ∧
            (t.cl i.c).hold = some { opcode := 0xC1, iss := calm i, since := some s.now, tag := s.nextTag i.c, data := some data } ∧
            Sends s t i.c key .consume (reqPacket i.c .consume (.cluster d) (fH i) idx 3 0 0)))) ∧
    (formMcast.legal i = true → bitsOf i.x0 63 12 = 0 →
      let span := (s.ctxOf i.c).bind (fun x => s.span x (bitsOf i.x0 11 0))
      (span = none → ∃ t : State, exec (.mcast i) s = .next t ∧ Traps s t i 0x05 0 0) ∧
      (∀ sp, span = some sp →
        let ms := sp.members.filter (fun m => !(fF i % 2 == 1 && m.cluster == i.c))
        (ms.map (fun m => flowKey (.cluster m.cluster) m.handle)).Nodup →
        (∀ m ∈ ms, MayLeave s i.c (flowKey (.cluster m.cluster) m.handle) (.cluster m.cluster)) →
        (s.cl i.c).fab.ops.length + ms.length ≤ 128 → (s.cl i.c).fab.flows.length + ms.length ≤ 64 →
        ∃ t : State, exec (.mcast i) s = .next t ∧ NoStore s t ∧ Advances s t i r true (nextPc s i) ∧
          t.net.map (fun k => (k.ptype, k.src, k.dst, k.handle, k.index, k.data)) =
            s.net.map (fun k => (k.ptype, k.src, k.dst, k.handle, k.index, k.data)) ++
              ms.map (fun m => (.write, .cluster i.c, .cluster m.cluster, m.handle, BitVec.ofNat 64 idx, row))))

/-- MLD, MST, FENCEF and END (R170, R221 to R226, R587). Follows the model's choices of notes/assumptions, entries 10, 15 to 23, 42 to 45. -/
def Obligations.MemoryAccessFenceEnd : Prop :=
  ∀ (i : Issue) (s : State), Ready s i →
    let a := memAddr s i
    let d := s.agentOf a
    let key := flowKey d 2048
    let r := s.regsOf i.c
    let p := s.partOf i.c
    let fault := (s.cl i.c).fab.fault
    let legal := fun (m : Form) => m.legal i && unitsLegal i
    (∀ cause, s.memTrap i = some cause →
      (legal formMld = true → ∃ t : State, exec (.mld i) s = .next t ∧ Traps s t i cause 0 0) ∧
      (legal formMst = true → ∃ t : State, exec (.mst i) s = .next t ∧ Traps s t i cause 0 0)) ∧
    (s.memTrap i = none → s.sourceRefuses p a = true →
      (legal formMld = true → ∃ t : State, exec (.mld i) s = .next t ∧ Traps s t i 0x0B 0 0) ∧
      (legal formMst = true → fault.cause = 0 →
        ∃ t : State, exec (.mst i) s = .next t ∧ NoStore s t ∧ t.net = s.net ∧ Advances s t i r true (nextPc s i) ∧
          (t.cl i.c).fab.fault = { cause := 0x0B, more := 0, dst := BitVec.ofNat 13 (nodeCode d), pc := r.pc })) ∧
    (s.memTrap i = none → s.sourceRefuses p a = false → MayLeave s i.c key d →
      (legal formMld = true →
        ∃ t : State, exec (.mld i) s = .next t ∧ NoStore s t ∧ t.regsOf i.c = r ∧ (t.cl i.c).st = .waiting ∧
          (t.cl i.c).hold = some { opcode := 0xC7, iss := calm i, since := some s.now, tag := s.nextTag i.c } ∧
          Sends s t i.c key .mld (reqPacket i.c .memRd d 0 a (fF i / 16 % 2) (memUnits i) 0)) ∧
      (legal formMst = true →
        ∃ t : State, exec (.mst i) s = .next t ∧ NoStore s t ∧ Advances s t i r true (nextPc s i) ∧
          Sends s t i.c key .mst (reqPacket i.c .memWr d 0 a 4 (memUnits i) (r.row (fA i))))) ∧
    (formR.legal i = true →
      (fabricDone (s.cl i.c) = false →
        (∃ t : State, exec (.fencef i) s = .next t ∧ Waits s t i 0xDF) ∧ (∃ t : State, exec (.endStep i) s = .next t ∧ Waits s t i 0x01)) ∧
      (fabricDone (s.cl i.c) = true → fault.cause ≠ 0 →
        (∃ t : State, exec (.fencef i) s = .next t ∧ Traps s t i fault.cause.toNat 0 0) ∧
        (∃ t : State, exec (.endStep i) s = .next t ∧ Traps s t i fault.cause.toNat 0 0)) ∧
      (fabricDone (s.cl i.c) = true → fault.cause = 0 →
        (∃ t : State, exec (.fencef i) s = .next t ∧ OnlyCluster s t i.c ∧ Advances s t i r true (nextPc s i)) ∧
        (∃ t : State, exec (.endStep i) s = .next t ∧ NoStore s t ∧ (t.cl i.c).st = .idle ∧ (t.cl i.c).hold = none ∧
          t.regsOf i.c = { r with loops := [] } ∧ (t.cl i.c).cnt.retired = satInc (s.cl i.c).cnt.retired ∧
          (∀ c, c ≠ i.c → t.cl c = s.cl c) ∧
          ∀ q st, p = some q → (s.part q).running = some st → i.c ∈ st.clusters → i.c ∉ st.ended →
            (t.part q).running = some { st with ended := st.ended ++ [i.c] })))

/-- REDUCE, ALLRED, RSCAT and AGATH at retirement (R227 to R232): the collective is taken up by the unit with the member's own rows, and the
instruction retires. Packets of a collective at a member, and the start of the completion wave (R227, R264, R265). Follows the model's
choices of notes/assumptions, entries 37 to 41. -/
def Obligations.Collectives : Prop :=
  (∀ (i : Issue) (s : State), Ready s i → collLegal i = true →
    let x := i.x0
    let n := rowCount s i
    let span := fun (k : Nat) => (s.ctxOf i.c).bind (fun x => s.span x k)
    let r := s.regsOf i.c
    let count := Tbl.get (fun _ => 0) (s.cl i.c).fab.collCount (cxSrc x)
    let each := fun (f : Instr → Nat → Prop) => f (.reduce i) 0xC3 ∧ f (.allred i) 0xC4 ∧ f (.rscat i) 0xC5 ∧ f (.agath i) 0xC6
    (n = 0 → each (fun c _ => ∃ t : State, exec c s = .next t ∧ Retires s t i r)) ∧
    (n ≠ 0 → (span (cxSrc x) = none ∨ span (cxDst x) = none) →
      each (fun c _ => ∃ t : State, exec c s = .next t ∧ Traps s t i 0x05 0 0)) ∧
    (∀ sp dp, n ≠ 0 → span (cxSrc x) = some sp → span (cxDst x) = some dp →
      let ms := sp.members.map SpanMember.cluster
      let rank := ms.idxOf i.c
      let e := s.handle i.c ((sp.members.map SpanMember.handle).getD rank 0)
      let de := s.handle i.c ((dp.members.map SpanMember.handle).getD rank 0)
      let b := (s.sr i.c (fB i)).toNat
      let dst := (s.sr i.c (fC i)).toNat
      ((ms.contains i.c = false ∨ dp.members.map SpanMember.cluster ≠ ms) →
        each (fun c _ => ∃ t : State, exec c s = .next t ∧ Traps s t i 0x04 0 0)) ∧
      (ms.contains i.c = true → dp.members.map SpanMember.cluster = ms → 2 ≤ ms.length → activeColls (s.cl i.c) < 2 →
        (s.cl i.c).fab.collBuf = [] → (∀ q ∈ (s.cl i.c).fab.colls, ¬(cxSrc q.ext = cxSrc x ∧ q.nth = count)) →
        handleRangeOk e (s.ctxOf i.c) .engineRead b n = true → hBacking e = 0 →
        (∀ j, b ≤ j → j < b + n → Readable s i.c (handleRow e j) (hTagged e) .none) → i.u = .none →
        each (fun c op =>
          collBad (op == 0xC6) (s.stillMode i.c) x n = false → destOk op x de (s.ctxOf i.c) dp rank ms.length dst n = true →
          (op = 0xC6 →
            let own := (List.range n).filterMap (fun j => if spanMemberOf dp (dst + rank * n + j) = rank
              then some (handleRow de (spanRowOf dp (dst + rank * n + j))) else none)
            hBacking de = 0 ∧ own.Nodup ∧ ∀ m ∈ own, Writable s i.c m (hTagged de)) →
          ∃ t : State, exec c s = .next t ∧ t.mem = s.mem ∧ t.poison = s.poison ∧ Advances s t i r true (nextPc s i) ∧
            Tbl.get (fun _ => 0) (t.cl i.c).fab.collCount (cxSrc x) = count + 1 ∧
            ∃ q, (t.cl i.c).fab.colls = (s.cl i.c).fab.colls ++ [q] ∧ q.opcode = BitVec.ofNat 8 op ∧ q.nth = count ∧ q.n = n ∧
              q.rank = rank ∧ q.members = ms ∧ q.ext = x ∧
              q.own = (List.range n).map (fun j => (s.trow i.c (handleRow e (b + j))).data))))) ∧
  ((∀ (p c : Nat) (k : Packet) (s : State), k.dst = .cluster c →
    (Arrives s p .coll k → s.ctxOf c ≠ some k.context → exec (.coll p) s = .next ((s.removePkt p).countDiscard (regionOf c) 8)) ∧
    (Arrives s p .coll k → s.ctxOf c = some k.context → collOf (s.cl c) k = none → notYet (s.cl c) k = true →
      ∃ t : State, exec (.coll p) s = .next t ∧ NoStore s t ∧ Answers t k .ack 0 0 ∧ (t.cl c).fab.collBuf = (s.cl c).fab.collBuf ++ [k] ∧
        t.regsOf c = s.regsOf c ∧ ∀ d, d ≠ c → t.cl d = s.cl d) ∧
    (∀ q, Arrives s p .coll k → s.ctxOf c = some k.context → collOf (s.cl c) k = some q → q.done = false → q.opcode ≠ 0xC6 → q.rank ≠ 0 →
      q.status = 0 → q.localq = [] → 0 < k.units → k.rank ∉ q.seen → q.compare k = 0 →
      ∃ t : State, exec (.coll p) s = .next t ∧ NoStore s t ∧ Answers t k .ack 0 0 ∧
        ∃ q', collOf (t.cl c) k = some q' ∧ q'.child = q.child ++ [(k.rank, k.data)] ∧ q'.seen = q.seen ++ [k.rank]) ∧
    (Arrives s p .collRes k → s.ctxOf c = some k.context → 0 < k.units → k.opcode ≠ 0xC4 → heldFlow (s.cl c) k = false →
      let e := s.handle c k.handle
      let n := handleRow e k.index.toNat
      (handleOk e (some k.context) .remoteWrite k.index.toNat = true → hBacking e = 0 → Writable s c n (hTagged e) →
        ∃ t : State, exec (.collRes p) s = .next t ∧ OnlyRow s t c n ∧ Answers t k .ack 0 0 ∧
          t.trow c n = { s.trow c n with data := k.data, tag := .full, syndrome := 0 }) ∧
      (handleOk e (some k.context) .remoteWrite k.index.toNat = false →
        ∃ t : State, exec (.collRes p) s = .next t ∧ NoStore s t ∧ Answers t k .ack 2 0))) ∧
  (∀ (c j : Nat) (s : State) (q : Coll), (s.cl c).fab.colls[j]? = some q →
    let k := q.pkt .collRes 0 0 0 0 0 0
    (collOf (s.cl c) k = some q → q.rank = 0 → q.done = false → q.localq = [] →
      ((q.finished = true ∧ q.due = 0 ∧ q.outq = [] ∧ (q.opcode = 0xC6 → ∀ m ∈ q.children, m ∈ q.childWaves)) ∨ q.status ≠ 0) →
      ∃ t : State, exec (.completionWaveStart c j) s = .next t ∧ NoStore s t ∧ t.regsOf c = s.regsOf c ∧
        ∃ q', collOf (t.cl c) k = some q' ∧ q'.done = true ∧ q'.status = q.status) ∧
    (q.rank ≠ 0 → exec (.completionWaveStart c j) s = .next s)))

/-- Requests of point-to-point instructions served by the owner of a row (R56, R57, R85, R92, R215, R220). MEM_RD and MEM_WR at the agent that
holds the address (R93, R226). Follows the model's choices of notes/assumptions, entries 10, 24 to 30, 42 to 45. -/
def Obligations.OwnerServesRequests : Prop :=
  (∀ (p c : Nat) (k : Packet) (u : Upset) (s : State), k.dst = .cluster c → heldFlow (s.cl c) k = false →
    let e := s.handle c k.handle
    let idx := k.index.toNat
    let n := handleRow e idx
    let row := s.trow c n
    (Arrives s p .write k →
      (handleOk e (some k.context) .remoteWrite idx = true → hBacking e = 0 → Writable s c n (hTagged e) →
        ∃ t : State, exec (.write p) s = .next t ∧ OnlyRow s t c n ∧ Answers t k .ack 0 0 ∧
          t.trow c n = { row with data := k.data, tag := .full, syndrome := 0 }) ∧
      (handleOk e (some k.context) .remoteWrite idx = true → hBacking e = 0 → hTagged e = true → s.allHeld c = false → row.tag = .full →
        ∃ t : State, exec (.write p) s = .next t ∧ NoStore s t ∧
          ((s.cl c).fab.remoteWait.length < 16 → (t.cl c).fab.remoteWait = (s.cl c).fab.remoteWait ++ [{ pkt := k, since := s.now }]) ∧
          (16 ≤ (s.cl c).fab.remoteWait.length → Answers t k .ack 1 0)) ∧
      (handleOk e (some k.context) .remoteWrite idx = false → ∃ t : State, exec (.write p) s = .next t ∧ NoStore s t ∧ Answers t k .ack 2 0)) ∧
    (Arrives s p .read k → handleOk e (some k.context) .remoteRead idx = true → hBacking e = 0 →
      (k.access ≠ 2 → Readable s c n (hTagged e) u →
        ∃ t : State, exec (.read p u) s = .next t ∧ OnlyRow s t c n ∧ Answers t k .data 0 row.data ∧
          t.trow c n = { row with syndrome := 0, tag := if hTagged e ∧ k.access ≠ 1 then .empty else row.tag }) ∧
      (k.access = 2 → Readable s c n true u → ∀ q, k.src = .cluster q →
        ∃ t : State, exec (.read p u) s = .next t ∧ OnlyRow s t c n ∧ t.trow c n = { row with syndrome := 0 } ∧
          ((s.cl c).ahead.watches.length < 64 → Answers t k .data 0 row.data ∧
            (t.cl c).ahead.watches = (s.cl c).ahead.watches ++ [{ requester := q, row := n, handle := k.handle }]) ∧
          (64 ≤ (s.cl c).ahead.watches.length → Answers t k .data 4 row.data))) ∧
    (Arrives s p .read k → handleOk e (some k.context) .remoteRead idx = false →
      ∃ t : State, exec (.read p u) s = .next t ∧ NoStore s t ∧ Answers t k .ack 2 0) ∧
    (Arrives s p .consume k → handleOk e (some k.context) .remoteRead idx = true →
      (watchIntact (s.cl c) k n = true → hBacking e = 0 → Readable s c n (hTagged e) u →
        ∃ t : State, exec (.consume p u) s = .next t ∧ OnlyRow s t c n ∧ Answers t k .ack 0 0 ∧
          t.trow c n = { row with syndrome := 0, tag := if hTagged e then .empty else row.tag }) ∧
      (watchIntact (s.cl c) k n = false → ∃ t : State, exec (.consume p u) s = .next t ∧ NoStore s t ∧ Answers t k .ack 4 0)) ∧
    (∀ o, Arrives s p .stale k → k.src = .cluster o →
      ∃ t : State, exec (.stale p) s = .next t ∧ { t with net := s.net, clusters := s.clusters } = s ∧
        (t.cl c).ahead.prefetch = (s.cl c).ahead.prefetch.map (fun f =>
          if f.owner = o ∧ f.handle = k.handle ∧ handleRow (s.handle o f.handle) f.index.toNat = idx then { f with stale := true } else f))) ∧
  (∀ (p : Nat) (k : Packet) (s : State),
    let a := k.index.toNat
    let n := 64 * k.units
    ((∃ o, placeOf a = .hbm o) ∨ (∃ o, placeOf a = .tier2 o) →
      (Arrives s p .memRd k → s.targetServes k.context k.partition a n false = true → s.readsPoison a n = false →
        ∃ t : State, exec (.memRd p .clean none) s = .next t ∧ NoStore s t ∧ Answers t k .data 0 (BitVec.ofNat 4096 (s.readNat a n))) ∧
      (Arrives s p .memRd k → s.targetServes k.context k.partition a n false = false →
        ∃ t : State, exec (.memRd p .clean none) s = .next t ∧ NoStore s t ∧ Answers t k .ack 7 0) ∧
      (Arrives s p .memWr k → s.targetServes k.context k.partition a n true = true →
        ∃ t : State, exec (.memWr p) s = .next t ∧ t.tarn = s.tarn ∧ t.clusters = s.clusters ∧ Answers t k .ack 0 0 ∧
          ∀ b, t.byte b = if a ≤ b ∧ b < a + n then BitVec.ofNat 8 (k.data.toNat / 256 ^ (b - a)) else s.byte b) ∧
      (Arrives s p .memWr k → s.targetServes k.context k.partition a n true = false →
        ∃ t : State, exec (.memWr p) s = .next t ∧ NoStore s t ∧ Answers t k .ack 7 0)) ∧
    (∀ c off tagged, placeOf a = .tarn c off → off % 512 = 0 → k.units = 8 → heldFlow (s.cl c) k = false →
      let row := s.trow c (off / 512)
      (Arrives s p .memRd k → s.coverOf c (off / 512) (some k.context) .remoteRead = some tagged → Readable s c (off / 512) tagged .none →
        ∃ t : State, exec (.memRd p .clean none) s = .next t ∧ OnlyRow s t c (off / 512) ∧ Answers t k .data 0 row.data ∧
          t.trow c (off / 512) = { row with syndrome := 0, tag := if tagged ∧ k.access ≠ 1 then .empty else row.tag }) ∧
      (Arrives s p .memWr k → s.coverOf c (off / 512) (some k.context) .remoteWrite = some tagged → Writable s c (off / 512) tagged →
        ∃ t : State, exec (.memWr p) s = .next t ∧ OnlyRow s t c (off / 512) ∧ Answers t k .ack 0 0 ∧
          t.trow c (off / 512) = { row with data := k.data, tag := .full, syndrome := 0 })))

/-- Responses at the cluster that sent the request, the busy answer presented again, and the fabric operation timeout (R85, R218 to R221,
R254, R257). Follows the model's choices of notes/assumptions, entries 10, 42 to 45. -/
def Obligations.ResponsesAndTimeouts : Prop :=
  (∀ (p c : Nat) (k : Packet) (s : State), k.dst = .cluster c →
    (opOf (s.cl c) k = none →
      (Arrives s p .data k → exec (.data p) s = .next ((s.removePkt p).countDiscard (regionOf c) 7)) ∧
      (Arrives s p .ack k → exec (.ack p) s = .next ((s.removePkt p).countDiscard (regionOf c) 7))) ∧
    (∀ o, opOf (s.cl c) k = some o →
      let left := (s.cl c).fab.ops.filter (fun q => q.tag != o.tag)
      (∀ h, Arrives s p .data k → o.kind ≠ .prefetch → waitsFor (s.cl c) o = some h → h.iss.c = c → (s.cl c).st = .waiting →
        ∃ t : State, exec (.data p) s = .next t ∧ NoStore s t ∧ (t.cl c).fab.ops = left ∧
          Advances s t h.iss ((s.regsOf c).mergeBits (fA h.iss)
            (if h.opcode = 0xC7 then byteBits 0 (64 * memUnits h.iss) else BitVec.allOnes 4096) k.data) true (nextPc s h.iss)) ∧
      (Arrives s p .ack k → o.kind ≠ .coll → o.kind ≠ .consume → k.status = 0 →
        ∃ t : State, exec (.ack p) s = .next t ∧ { t with net := s.net, clusters := s.clusters } = s ∧ (∀ d, d ≠ c → t.cl d = s.cl d) ∧
          (t.cl c).fab.ops = left ∧ t.regsOf c = s.regsOf c ∧
          (t.cl c).fab.flows = (if o.busyUntil.isSome then (s.cl c).fab.flows else returnPlace o.flow (s.cl c).fab.flows)) ∧
      (Arrives s p .ack k → k.status = 1 →
        ∃ t : State, exec (.ack p) s = .next t ∧ { t with net := s.net, clusters := s.clusters } = s ∧
          (t.cl c).fab.flows = returnPlace o.flow (s.cl c).fab.flows ∧
          (t.cl c).fab.ops = (s.cl c).fab.ops.map (fun q => if q.tag = o.tag then
            { q with progress := s.now, busyUntil := some ((s.region (regionOf c)).cycle.toNat + 64) } else q)) ∧
      (Arrives s p .ack k → (o.kind = .send ∨ o.kind = .mcast ∨ o.kind = .mst) → waitsFor (s.cl c) o = none →
        k.status = 2 → (s.cl c).fab.fault.cause = 0 →
        ∃ t : State, exec (.ack p) s = .next t ∧ NoStore s t ∧ (t.cl c).fab.ops = left ∧ t.regsOf c = s.regsOf c ∧
          (t.cl c).fab.fault = { cause := 0x21, more := 0, dst := BitVec.ofNat 13 o.dst, pc := o.pc }))) ∧
  (∀ (c tag b : Nat) (s : State) (o : Op), (s.cl c).fab.ops.find? (fun o => o.tag == tag) = some o → o.busyUntil = some b →
    s.noRoute (regionOf c) (nodeRegion o.pkt.dst) = false →
    (b ≤ (s.region (regionOf c)).cycle.toNat → flowOf (s.cl c) o.flow = none → (s.cl c).fab.flows.length < 64 →
      ∃ t : State, exec (.busyRepresent c tag) s = .next t ∧ NoStore s t ∧
        t.net = s.net ++ [{ o.pkt with id := s.nextPkt, injectTick := s.now % 65536 }]) ∧
    ((s.region (regionOf c)).cycle.toNat < b → exec (.busyRepresent c tag) s = .next s)) ∧
  (∀ (c : Nat) (s : State),
    (∀ tag o, tag < 128 → (s.cl c).fab.ops.find? (fun o => o.tag == tag) = some o → (o.kind = .send ∨ o.kind = .mcast ∨ o.kind = .mst) →
      waitsFor (s.cl c) o = none →
      (o.progress + s.fabTicks c ≤ s.now → (s.cl c).fab.fault.cause = 0 →
        ∃ t : State, exec (.fabricOpTimeout c tag) s = .next t ∧ OnlyCluster s t c ∧ t.regsOf c = s.regsOf c ∧
          (t.cl c).fab.fault = { cause := 0x20, more := 0, dst := BitVec.ofNat 13 o.dst, pc := o.pc }) ∧
      (s.now < o.progress + s.fabTicks c → exec (.fabricOpTimeout c tag) s = .next s)) ∧
    (∀ h since, (s.cl c).hold = some h → h.iss.c = c → h.tag = 128 → h.opcode = 0xC0 → h.since = some since → since + s.fabTicks c ≤ s.now →
      ∃ t : State, exec (.fabricOpTimeout c 128) s = .next t ∧ Traps s t h.iss 0x20 0 0))

/-- Heartbeats, ageing and substitution requests (R67, R68, R70, R71). Follows the model's choices of notes/assumptions, entries 15 to 23. -/
def Obligations.ClusterHealth : Prop :=
  ∀ (c : Nat) (s : State),
    (∀ self, beats (s.cl c).st = true → (s.region (regionOf c)).pstate = .run →
      ∃ t : State, exec (.heartbeatMiss c self) s = .next t ∧ ((s.partOf c).isSome → (t.cl c).st = .failed ∧ t.tarn = s.tarn)) ∧
    (∀ self, beats (s.cl c).st = false → exec (.heartbeatMiss c self) s = .next s) ∧
    (∀ drift : BitVec 16, (s.cl c).st ≠ .off →
      let h := (s.cl c).health
      let kept := (h.ageSamples ++ [drift]).drop (h.ageSamples.length + 1 - 64)
      let mean := (kept.map BitVec.toNat).sum / max 1 kept.length
      let beyond := fun (limit : Nat) => decide (10 * limit ≤ mean)
      ∃ t : State, exec (.ageingSample c drift) s = .next t ∧ NoStore s t ∧ (∀ d, d ≠ c → t.cl d = s.cl d) ∧ t.regsOf c = s.regsOf c ∧
        (t.cl c).health.ageSamples = kept ∧ (t.cl c).health.warn = beyond (ageWarn s) ∧ (t.cl c).health.migrate = beyond (ageMigrate s) ∧
        (t.cl c).health.subst = (h.subst || beyond (ageMigrate s)) ∧
        Tbl.get (fun _ => 0) t.mgt.telemetry (readingNo 6 c) = s.now + 1) ∧
    ((s.cl c).health.subst = true → (s.cl c).health.substTick + 86400 * ticksPerS ≤ s.now →
      ∃ t : State, exec (.substitutionRerequest c) s = .next t ∧ NoStore s t ∧ (t.cl c).health.substTick = s.now ∧ (t.cl c).health.subst = true) ∧
    (((s.cl c).health.subst = false ∨ s.now < (s.cl c).health.substTick + 86400 * ticksPerS) →
      exec (.substitutionRerequest c) s = .next s) ∧
    (∀ warn migrate : BitVec 7,
      (5 ≤ warn.toNat → warn.toNat < migrate.toNat → migrate.toNat ≤ 100 →
        ∃ t : State, exec (.cluAgeThreshWrite warn migrate) s = .next t ∧ { t with regs := s.regs } = s ∧
          ageWarn t = warn.toNat ∧ ageMigrate t = migrate.toNat) ∧
      ((warn.toNat < 5 ∨ migrate.toNat ≤ warn.toNat ∨ 100 < migrate.toNat) →
        ∃ t : State, exec (.cluAgeThreshWrite warn migrate) s = .next t ∧ t.regs = s.regs ∧ NoStore s t))

/-- Hops, expiry and credit of packets (R258 to R263, Table 8.6). Retraining of links, its end, and loss of lock on a Loch wavelength (R238 to
R240). Route entries, flows held on a route change, and the end of an abort drain (R246, R250, R262). Follows the model's choices of
notes/assumptions, entries 10, 42 to 45. -/
def Obligations.FabricTransport : Prop :=
  ((∀ (p : Nat) (h : Hop) (k : Packet) (s : State), s.net.find? (fun q => q.id == p) = some k →
    let lost := fun (cause : Nat) => (s.removePkt k.id).countDiscard h.region cause
    let foreign := h.link.isSome && decide ((s.region h.region).part ≠ some k.partition) && !transit k h.region
    (1000 < s.ageOf k → exec (.packetHop p h) s = .next (lost 3)) ∧
    (s.ageOf k ≤ 1000 → h.hdrOk = false → exec (.packetHop p h) s = .next (lost 0)) ∧
    (s.ageOf k ≤ 1000 → h.hdrOk = true → foreign = true →
      ∃ t : State, exec (.packetHop p h) s = .next t ∧ t.net = s.net.filter (fun q => q.id != k.id) ∧ t.discards = (lost 4).discards ∧ NoStore s t) ∧
    (s.ageOf k ≤ 1000 → h.hdrOk = true → foreign = false → h.crcOk = true → k.stomp = false → exec (.packetHop p h) s = .next s) ∧
    (s.ageOf k ≤ 1000 → h.hdrOk = true → foreign = false → h.crcOk = false → k.stomp = false → h.endpoint = false → h.whole = false →
      ∃ t : State, exec (.packetHop p h) s = .next t ∧ NoStore s t ∧
        t.net = s.net.map (fun q => if q.id = k.id then { q with stomp := true } else q) ∧
        ∀ n, h.link = some n → (t.fabLink h.region n).crcDiscards = satInc (s.fabLink h.region n).crcDiscards) ∧
    (s.ageOf k ≤ 1000 → h.hdrOk = true → foreign = false → k.stomp = true → (h.whole = true ∨ h.endpoint = true) →
      exec (.packetHop p h) s = .next (lost 2)) ∧
    (1000 < s.ageOf k → exec (.packetLifetimeExpiry p) s = .next ((s.removePkt p).countDiscard (nodeRegion k.dst) 3)) ∧
    (s.ageOf k ≤ 1000 → exec (.packetLifetimeExpiry p) s = .next s)) ∧
  (∀ (r n ticks : Nat) (s : State),
    (1200 ≤ ticks → linkExists r n = true → ∃ t : State, exec (.creditStall r n ticks) s = .next t ∧ { t with fabLinks := s.fabLinks } = s ∧
      t.fabLink r n = { s.fabLink r n with due := true }) ∧
    (ticks < 1200 → exec (.creditStall r n ticks) s = .next s))) ∧
  (∀ (r n : Nat) (s : State),
    let v := s.fabLink r n
    (v.due = true → v.retraining = none → v.outOfService = false → linkExists r n = true →
      ((∀ p ∈ s.retrainWaits r n, s.atBoundary p = true) →
        ∃ t : State, exec (.linkRetrain r n) s = .next t ∧ NoStore s t ∧ (t.fabLink r n).retraining = some s.now ∧
          ∀ p ∈ s.retrainWaits r n, (t.part p).retrainHold = true) ∧
      ((∃ p ∈ s.retrainWaits r n, s.atBoundary p = false) →
        ∃ t : State, exec (.linkRetrain r n) s = .next t ∧ NoStore s t ∧ (t.fabLink r n).retraining = none ∧
          ∀ p ∈ s.retrainWaits r n, s.atBoundary p = true → (t.part p).retrainHold = true)) ∧
    (∀ t0, v.retraining = some t0 →
      (s.now ≤ t0 + retrainTicks n →
        (∃ t : State, exec (.linkRetrainDone r n) s = .next t ∧ NoStore s t ∧ (t.fabLink r n).retraining = none ∧ (t.fabLink r n).due = false ∧
          (t.fabLink r n).repairs = min (linkSpares n) (v.repairs + 1)) ∧
        exec (.linkRetrainTimeout r n) s = .next s) ∧
      (t0 + retrainTicks n < s.now →
        exec (.linkRetrainDone r n) s = .next s ∧
        ∃ t : State, exec (.linkRetrainTimeout r n) s = .next t ∧ t.tarn = s.tarn ∧ (t.fabLink r n).outOfService = true ∧
          (t.fabLink r n).retraining = none)) ∧
    (linkClass n = .loch → linkExists r n = true → v.outOfService = false →
      ∃ t : State, exec (.lochLockLoss r n) s = .next t ∧ NoStore s t ∧
        t.net = s.net.filter (fun k => !s.onPort r (lochOther r n) (lochPort n) k) ∧
        (v.repairs = 0 → (t.fabLink r n).retraining = some s.now) ∧ (1 ≤ v.repairs → (t.fabLink r n).outOfService = true)) ∧
    (∀ die t0, r = dieRegion die → n = 34 → v.heldSince = some t0 → v.due = true → v.retraining = none →
      (t0 + 100 * ticksPerMs ≤ s.now → ∃ t : State, exec (.perimeterRetrainHoldTimeout die) s = .next t ∧ NoStore s t ∧
        (t.fabLink r n).retraining = some s.now ∧ t.net = s.net.filter (fun k => !onDie die k)) ∧
      (s.now < t0 + 100 * ticksPerMs → exec (.perimeterRetrainHoldTimeout die) s = .next s))) ∧
  ((∀ (r d epoch : Nat) (entry : BitVec 32) (s : State), r < 16 → d < 16 →
    let old := s.route r d
    ((s.region r).epoch ≤ epoch →
      ∃ t : State, exec (.routeEntryWrite r d entry epoch) s = .next t ∧ { t with routes := s.routes, regions := s.regions } = s ∧
        (t.region r).epoch = epoch ∧ t.route r d &&& 0xFF#32 = entry &&& 0xFF#32 ∧
        routeEpoch (t.route r d) = (if entry &&& 0xFF#32 = old &&& 0xFF#32 then routeEpoch old else (routeEpoch old + 1) % 256) ∧
        ∀ r' d', r' < 16 → d' < 16 → (r', d') ≠ (r, d) → t.route r' d' = s.route r' d') ∧
    (epoch < (s.region r).epoch →
      ∃ t : State, exec (.routeEntryWrite r d entry epoch) s = .next t ∧ { t with regions := s.regions } = s ∧
        t.region r = { s.region r with epochRejects := (s.region r).epochRejects + 1 })) ∧
  (∀ (c k : Nat) (s : State),
    ∃ t : State, exec (.flowRouteResume c k) s = .next t ∧ OnlyCluster s t c ∧ t.regsOf c = s.regsOf c ∧
      (t.cl c).fab.flows = (s.cl c).fab.flows.filter (fun f => !(f.key == k && f.heldOnRoute && f.outstanding == 0))) ∧
  (∀ (p t0 : Nat) (s : State), (s.part p).drain = some t0 →
    (s.now < t0 + 2000 → exec (.abortDrainEnd p) s = .next s) ∧
    (t0 + 2000 ≤ s.now → (s.part p).recovery = none →
      ∃ t : State, exec (.abortDrainEnd p) s = .next t ∧ NoStore s t ∧ (t.part p).drain = none ∧
        ∀ x ∈ s.ctxsOf p, (s.ctx x).st = .killing → (s.ctx x).killStage = 1 →
          (if (s.part p).resident = some x then (t.ctx x).killStage = 2 ∧ (t.part p).scrubbing = true else (t.ctx x).killStage = 3))))

/-- The references of panel time, and the choice between them (R270 to R277, R302). Beacons, missed beacons and the loss of the tick clock
(R280, R283, R284, R301, R302). Follows the model's choices of notes/assumptions, entries 46 to 50. -/
def Obligations.PanelTime : Prop :=
  (∀ (s : State), s.tb.running = true →
    let v := s.tb
    let quiet := fun (t : State) => NoStore s t ∧ t.clusters = s.clusters ∧ t.domains = s.domains ∧ t.tb.now = v.now
    (∀ ppm : Int, ppm.natAbs ≤ 50 → ∃ t : State, exec (.ref10mWindow ppm) s = .next t ∧ quiet t ∧
      t.tb.tenWindows = min 3 (v.tenWindows + 1) ∧ t.tb.tenQualified = (v.tenQualified || decide (3 ≤ v.tenWindows + 1))) ∧
    (∀ ppm : Int, 50 < ppm.natAbs → ∃ t : State, exec (.ref10mWindow ppm) s = .next t ∧ quiet t ∧
      t.tb.tenWindows = 0 ∧ t.tb.tenQualified = false ∧ t.tb.aQualified = false ∧ t.tb.aDiscards = satInc v.aDiscards) ∧
    (∃ t : State, exec .ref10mEdgeLoss s = .next t ∧ quiet t ∧ t.tb.tenQualified = false ∧ t.tb.aQualified = false ∧
      (v.ref = .locked → v.source = false → (if v.bQualified then t.tb.ref = .locked ∧ t.tb.source = true else t.tb.ref = .holdover)) ∧
      (v.ref = .locked → v.source = true → v.bQualified = true → t.tb.ref = .locked ∧ t.tb.source = true)) ∧
    (∀ frac : Int, v.tenQualified = false → ∃ t : State, exec (.refPpsPulse frac) s = .next t ∧ quiet t ∧ t.tb.aDiscards = satInc v.aDiscards ∧ t.tb.ref = v.ref) ∧
    (∀ frac : Int, v.tenQualified = true → v.ppsExpected = none → ∃ t : State, exec (.refPpsPulse frac) s = .next t ∧ quiet t ∧
      t.tb = { v with ppsExpected := some (v.now + ticksPerS) }) ∧
    (∀ (frac : Int) e, v.tenQualified = true → v.ppsExpected = some e →
      (v.now ≤ e + 100 → e ≤ v.now + 100 → ∃ t : State, exec (.refPpsPulse frac) s = .next t ∧ quiet t ∧
        t.tb.ppsGood = min 3 (v.ppsGood + 1) ∧ t.tb.ppsBad = 0 ∧ t.tb.ppsExpected = some (v.now + ticksPerS) ∧
        t.tb.aQualified = (v.aQualified || decide (3 ≤ v.ppsGood + 1)) ∧ t.tb.steering = frac) ∧
      ((e + 100 < v.now ∨ v.now + 100 < e) → ∃ t : State, exec (.refPpsPulse frac) s = .next t ∧ quiet t ∧ t.tb.ppsGood = 0 ∧
        t.tb.ppsBad = v.ppsBad + 1 ∧ t.tb.aDiscards = satInc v.aDiscards ∧ t.tb.aQualified = (v.aQualified && decide (v.ppsBad + 1 < 3))) ∧
      (e + 100 < v.now → ∃ t : State, exec .refPpsMissing s = .next t ∧ quiet t ∧ t.tb.ppsExpected = some (e + ticksPerS) ∧
        t.tb.ppsBad = v.ppsBad + 1 ∧ t.tb.aQualified = (v.aQualified && decide (v.ppsBad + 1 < 3)))) ∧
    (∀ (offset : Int) (delayNs cls : Nat), cls ≠ 248 → cls ≠ 255 →
      let far := !v.ptpPast.isEmpty && decide (100 < (offset - Config.ptpPredict v.ptpPast).natAbs)
      ((far = true ∨ 100000 < delayNs) → ∃ t : State, exec (.ptpSample offset delayNs cls) s = .next t ∧ quiet t ∧
        t.tb.ptpGood = 0 ∧ t.tb.bDiscards = satInc v.bDiscards ∧ t.tb.bQualified = v.bQualified) ∧
      (far = false → delayNs ≤ 100000 → ∃ t : State, exec (.ptpSample offset delayNs cls) s = .next t ∧ quiet t ∧
        t.tb.ptpGood = min 16 (v.ptpGood + 1) ∧ t.tb.lastPtp = v.now ∧ t.tb.bQualified = (v.bQualified || decide (16 ≤ v.ptpGood + 1)))) ∧
    ((v.bQualified = true ∧ v.lastPtp + 4 * ticksPerS ≤ v.now → ∃ t : State, exec .ptpSampleTimeout s = .next t ∧ quiet t ∧ t.tb.bQualified = false) ∧
     (v.bQualified = false ∨ v.now < v.lastPtp + 4 * ticksPerS → exec .ptpSampleTimeout s = .next s)) ∧
    (∀ since, v.primarySince = some since → v.ref = .locked → v.source ≠ v.primary → v.revert = true →
      (since + 60 * ticksPerS ≤ v.now → exec .referenceRevert s = .next { s with tb := { v with source := v.primary } }) ∧
      (v.now < since + 60 * ticksPerS → exec .referenceRevert s = .next s)) ∧
    (∀ second, exec (.tbsTodSet second) s = .next { s with tb := { v with todSet := second, todWritten := true } }) ∧
    (∃ t : State, exec .tbXoEdgeLoss s = .next t ∧ quiet t ∧ t.tb.xoLost = true ∧
      (v.ref = .locked → v.qualified v.source = true → t.tb.running = true) ∧
      (v.ref = .holdover → v.aQualified = false → v.bQualified = false →
        t.tb.running = false ∧ ∀ r < 16, (s.region r).pstate = .run → (t.region r).pstate = .hold))) ∧
  ((∀ (d : Nat) (w : BitVec 96) (s : State), d < 25 → (s.domain d).tickLost = false → (s.domain d).outOfService = false →
    let v := s.domain d
    (beaconValid v w = true → ∃ t : State, exec (.beaconStrobe d w) s = .next t ∧ NoStore s t ∧ t.clusters = s.clusters ∧ t.tb = s.tb ∧
      v.ticks ≤ (t.domain d).ticks ∧ (t.domain d).lastBeacon = some (beaconTime w) ∧ (t.domain d).missed = 0 ∧
      ((t.domain d).deficit = 0 → (t.domain d).ticks = (beaconTime w * 256 + v.treeDelay.toNat) / 256) ∧
      (∀ e, e ≠ d → t.domain e = s.domain e)) ∧
    (beaconValid v w = false → exec (.beaconStrobe d w) s = .next (s.setDomain d { v with ignored := satInc v.ignored }))) ∧
  (∀ (d : Nat) (s : State), d < 25 → (s.domain d).tickLost = false →
    let n := s.beaconsMissed d
    (3 ≤ n → (s.domain d).missed < 3 → ∃ t : State, exec (.beaconMiss d) s = .next t ∧ NoStore s t ∧ t.domain d = { s.domain d with missed := n } ∧
      t.regions = s.regions) ∧
    (n < 3 → exec (.beaconMiss d) s = .next s) ∧
    (100 ≤ n → (s.domain d).missed < 100 → ∃ t : State, exec (.beaconMissRetire d) s = .next t ∧ t.tarn = s.tarn ∧
      (t.domain d).missed = 100 ∧
      (d < 16 → (if (s.region d).part = none then (t.region d).inService = false else (t.region d).retire = true)) ∧
      (16 ≤ d → ∀ r < 16, (s.region r).pstate = .run → (t.region r).pstate = .hold)) ∧
    (n < 100 → exec (.beaconMissRetire d) s = .next s)) ∧
  (∀ (s : State),
    (s.tb.running = true → ∃ t : State, exec (.tickLoss none) s = .next t ∧ NoStore s t ∧ t.tb.running = false ∧
      ∀ r < 16, (s.region r).pstate = .run → (t.region r).pstate = .hold) ∧
    (∀ d < 16, (s.region d).pstate = .run → ∃ t : State, exec (.tickLoss (some d)) s = .next t ∧ { t with domains := s.domains, regions := s.regions } = s ∧
      (t.domain d).tickLost = true ∧ (t.region d).pstate = .hold ∧ (t.region d).causes = [.tick]) ∧
    (∀ d, 16 ≤ d → ∃ t : State, exec (.tickLoss (some d)) s = .next t ∧ { t with domains := s.domains } = s ∧ (t.domain d).tickLost = true ∧ (t.domain d).hold = true)))

/-- Frequency steps, crossings and droop (R282, R286 to R289, R291 to R297). Follows the model's choices of notes/assumptions, entries 46 to
50. -/
def Obligations.StepsCrossingsDroop : Prop :=
  (∀ (r : Nat) (s : State) (c : StepChange), (s.region r).change = some c →
    let done := c.started + max 105 (s.riseTicks r (s.region r).step c.target)
    (c.stage = 0 → c.started + 100 ≤ s.now → ∃ t : State, exec (.stepChangePllLocked r) s = .next t ∧ { t with regions := s.regions } = s ∧
      t.region r = { s.region r with change := some { c with stage := 1 } }) ∧
    (c.stage = 0 → s.now < c.started + 100 → exec (.stepChangePllLocked r) s = .next s) ∧
    (c.stage = 1 → done ≤ s.now → ∃ t : State, exec (.clockSwitch r) s = .next t ∧
      { t with regions := s.regions, domains := s.domains, xings := s.xings } = s ∧ (t.region r).step = c.target ∧
      (t.domain r).ticks = (s.domain r).ticks ∧ (t.domain r).phase = (s.domain r).phase * t.modulus r / max 1 (s.modulus r) ∧
      ∀ x ∈ crossingsOf r, (s.xing x).outOfService = false → (t.xing x).calibrating = true) ∧
    (c.stage = 1 → s.now < done → exec (.clockSwitch r) s = .next s)) ∧
  (∀ (x : Nat) (s : State), crossingPresent x = true → (s.xing x).calibrating = true → (s.xing x).retryAtBeacon = false →
    (∀ ms : List Nat, ∃ t : State, exec (.crossingCalibration x ms) s = .next t ∧ { t with xings := s.xings } = s ∧
      (t.xing x).best = if 24 ≤ ms.length then some (max 3 (ms.foldl max 0 + 2)) else none) ∧
    (∀ l, (s.xing x).best = some l → l ≤ 12 → ∃ t : State, exec (.crossingCalibrationEnd x) s = .next t ∧
      { t with xings := s.xings, regions := s.regions } = s ∧ (t.xing x).latency = l ∧ (t.xing x).calibrating = false ∧ (t.xing x).failures = 0) ∧
    (((s.xing x).best = none ∨ ∃ l, (s.xing x).best = some l ∧ 12 < l) →
      ((s.xing x).failures = 0 → ∃ t : State, exec (.crossingCalibrationEnd x) s = .next t ∧ { t with xings := s.xings, regions := s.regions } = s ∧
        (t.xing x).failures = 1 ∧ (t.xing x).retryAtBeacon = true ∧ (t.xing x).latency = (s.xing x).latency) ∧
      ((s.xing x).failures ≠ 0 → ∃ t : State, exec (.crossingCalibrationEnd x) s = .next t ∧ t.tarn = s.tarn ∧ (t.xing x).outOfService = true ∧
        (t.xing x).calibrating = false))) ∧
  (∀ (x late : Nat) (s : State), crossingPresent x = true →
    exec (.crossingWordRelease x 0) s = .next s ∧
    (late ≠ 0 → ∃ t : State, exec (.crossingWordRelease x late) s = .next t ∧ NoStore s t ∧
      (t.xing x).slips = min 0xFFFFFFFF ((s.xing x).slips + 1) ∧ (t.xing x).maxSlip = min 255 (max (s.xing x).maxSlip late) ∧
      (t.xing x).logged = some (s.now / 1024))) ∧
  (∀ (d : Nat) (deep : Bool) (s : State), d < 24 →
    ((s.domain d).burst < 8 → ∃ t : State, exec (.droopStretch d deep) s = .next t ∧ { t with domains := s.domains } = s ∧
      (t.domain d).burst = (s.domain d).burst + 1 ∧ (t.domain d).pend = (s.domain d).pend + (if deep then 2 else 1) ∧
      (t.domain d).ticks = (s.domain d).ticks) ∧
    (8 ≤ (s.domain d).burst → (s.domain d).gateLeft = 0 → ∃ t : State, exec (.droopStretch d deep) s = .next t ∧ { t with domains := s.domains } = s ∧
      t.domain d = { s.domain d with gateLeft := 64, droopGates := satInc (s.domain d).droopGates }) ∧
    ((s.domain d).gateLeft ≠ 0 → d < 16 → (s.region d).pstate = .run → ∃ t : State, exec (.droopGateExpiry d) s = .next t ∧ t.tarn = s.tarn ∧
      (t.domain d).gateLeft = 0 ∧ (t.region d).pstate = .hold ∧ (t.region d).causes = [.droop] ∧
      (2 ≤ ((s.region d).droopHolds.filter (fun k => decide (s.now < k + ticksPerMs))).length → (t.region d).droopLower = true)) ∧
    (d < 16 → (s.region d).pstate = .hold → (s.region d).causes = [.droop] →
      ∃ t : State, exec (.droopHoldExit d) s = .next t ∧ { t with regions := s.regions } = s ∧ t.region d = { s.region d with pstate := .run, causes := [] }))

/-- A launch is accepted, and the arbiter releases the next step (R48, R303 to R306, R397, R428, R429). A step completes, and a checkpoint is
asked for and becomes durable (R305, R306, R316 to R318, R324). Follows the model's choices of notes/assumptions, entries 51 to 61. -/
def Obligations.StepsFromLaunchToCheckpoint : Prop :=
  ((∀ (q k : Nat) (s : State),
    (s.startedDesc q k 1 = none → exec (.stepLaunch q k) s = .next s) ∧
    (∀ d, s.startedDesc q k 1 = some d →
      let x := (s.qp q).ctx
      let p := (s.ctx x).part
      let epoch := if dFence d then (s.ctx x).epoch else (s.qp q).epoch
      (s.launchOk x epoch d = true → ∃ t : State, exec (.stepLaunch q k) s = .next t ∧ { t with qps := s.qps, parts := s.parts } = s ∧
        (t.part p).launches = (s.part p).launches ++ [{ q := q, k := k, ctx := x, desc := d, epoch := epoch }] ∧
        (t.qp q).epoch = epoch ∧ (t.qp q).openReq = ((s.qp q).openReq || dFence d)) ∧
      (s.launchOk x epoch d = false → exec (.stepLaunch q k) s = .next (s.rejectDesc q k 0x0813 0)))) ∧
  (∀ (p : Nat) (s : State), (s.part p).running = none → (s.part p).recovery = none →
    let b := s.boundaryWork p
    ((b.mayRelease p = false ∨ b.calibrated p = false) → exec (.stepRelease p) s = .next b) ∧
    (∀ x l, b.mayRelease p = true → b.calibrated p = true → (b.part p).resident = some x → (b.part p).nextLaunch x = some l →
      let u := b.modPart p (fun v => { v with launches := v.launches.filter (fun o => !(o.q == l.q && o.k == l.k)) })
      let cs := u.launchClusters l.ctx l.epoch l.desc
      u.launchOk l.ctx l.epoch l.desc = true → u.launchPlaced l.ctx l.epoch l.desc = true → u.recordFits p 1 = true →
      ∃ t : State, exec (.stepRelease p) s = .next t ∧ t.tarn = b.tarn ∧ t.mem = b.mem ∧
        (t.part p).running = some { ctx := l.ctx, q := l.q, k := l.k, desc := l.desc, seq := (b.part p).stepSeq, still := dStill l.desc,
                                    epoch := l.epoch, clusters := cs } ∧
        (t.part p).stepSeq = (b.part p).stepSeq + 1 ∧ (t.part p).lastQ = some l.q ∧
        (cs.Nodup → ∀ rank c, cs[rank]? = some c →
          let v := t.cl c
          let arg := fun (j : Nat) => dArg l.desc j
          v.regs.pc = 0 ∧ v.regs.p = 1 ∧ v.regs.loops = [] ∧ v.hold = none ∧ v.eng = {} ∧ v.ahead = {} ∧ v.fab.ops = [] ∧
          (v.st = if (b.cl c).st = .halted then .halted else .running) ∧
          v.regs.sreg 1 = BitVec.ofNat 64 c ∧ v.regs.sreg 2 = BitVec.ofNat 64 rank ∧ v.regs.sreg 3 = BitVec.ofNat 64 cs.length ∧
          v.regs.sreg 4 = arg 0 ∧ v.regs.sreg 5 = arg 1 ∧ v.regs.sreg 6 = arg 2 ∧ v.regs.sreg 7 = arg 3 ∧
          v.regs.sreg 8 = BitVec.ofNat 64 b.now ∧ ∀ j, 8 < j → v.regs.sreg j = 0)))) ∧
  ((∀ (p : Nat) (s : State) (st : RunStep), (s.part p).running = some st →
    ((st.isOver = false ∨ (s.part p).pendingCause.isSome) → exec (.stepComplete p) s = .next s) ∧
    (st.isOver = true → (s.part p).pendingCause = none → st.replay = false → (s.lateEvents p (some st.ctx)).recordFits p 0 = true →
      ∃ t : State, exec (.stepComplete p) s = .next (t.boundaryWork p) ∧ t.tarn = s.tarn ∧ t.clusters = s.clusters ∧
        (t.part p).running = none ∧ (t.part p).stepSeq = (s.part p).stepSeq ∧
        ((s.prog st.q st.k).isSome → ∃ j e, Output.completion j e ∈ t.out ∧ e.q = st.q ∧ e.k = st.k ∧ e.status = stOk ∧
          e.result = BitVec.ofNat 64 st.seq))) ∧
  (∀ (p : Nat) (s : State), (s.part p).running = none → exec (.stepComplete p) s = .next s) ∧
  (∀ (q k : Nat) (s : State) (d : Desc), s.startedDesc q k 5 = some d →
    let x := (s.qp q).ctx
    let p := (s.ctx x).part
    let a := dArea d
    let n := dAreaLen d
    (a % 4096 ≠ 0 → exec (.checkpoint q k) s = .next (s.failDesc q k stAlign 0)) ∧
    (a % 4096 = 0 → n < s.ckptNeeds x → exec (.checkpoint q k) s = .next (s.rejectDesc q k 0x0813 (s.ckptNeeds x))) ∧
    (a % 4096 = 0 → s.ckptNeeds x ≤ n → areasMeet (a, n) (s.ctx x).ckpt = false → a + n ≤ 0x180_0000_0000 →
      s.reachable p a (max n 1) = true → s.ownPages x a n = true →
      ∃ t : State, exec (.checkpoint q k) s = .next (t.boundaryWork p) ∧ { t with qps := s.qps, ctxs := s.ctxs } = s ∧
        (t.ctx x).deferred = (s.ctx x).deferred ++ [(some (q, k), .checkpoint a n)])) ∧
  (∀ (p x q k a n : Nat) (s : State), (s.part p).ckptBusy = some (x, q, k) → (s.ctx x).ckptPending = some (a, n) →
    ∃ t : State, exec (.checkpointDurable p) s = .next (t.boundaryWork p) ∧ t.tarn = s.tarn ∧ t.clusters = s.clusters ∧
      (t.ctx x).ckpt = some (a, n) ∧ (t.ctx x).ckptSaved = s.snapshot x ∧ (t.ctx x).ckptPending = none ∧ (t.part p).ckptBusy = none))

/-- A recovery from its start to the release of the aborted step again (R315, R319 to R328, R334). Follows the model's choices of
notes/assumptions, entries 51 to 61. -/
def Obligations.RecoverySequence : Prop :=
  ∀ (p x : Nat) (s : State), (s.part p).resident = some x →
    (∀ cause n, (s.part p).pendingCause = some (cause, n) → s.allRun p = true →
      ((s.ctx x).ckpt = none → exec (.recoveryStart p) s = .next (s.contextFatal x (cause % 4096 + 0x3000) { part := p })) ∧
      ((s.ctx x).ckpt.isSome → (s.part p).recovery = none →
        ∃ t : State, exec (.recoveryStart p) s = .next t ∧ t.tarn = s.tarn ∧ (t.part p).running = none ∧ (t.part p).pendingCause = none ∧
          (t.part p).drain = some s.now ∧ (t.ctx x).st = .recovering ∧
          ∃ r, (t.part p).recovery = some r ∧ r.stage = .draining ∧ r.cause = cause ∧
            r.step = (s.part p).running.map (fun st => { st with starts := st.starts + 1, ended := [], feed := [] }))) ∧
    ((s.allRun p = false ∨ ((s.part p).pendingCause = none ∧ (s.ctx x).recoverPending = none)) → exec (.recoveryStart p) s = .next s) ∧
    (∀ r, (s.part p).recovery = some r →
      (r.stage = .replaced → (s.part p).scrubbing = false → (s.part p).drain = none → (s.part p).testDue = [] →
        ∃ t : State, exec (.recoveryRestore p) s = .next t ∧ t.tarn = s.tarn ∧ t.clusters = s.clusters ∧
          (t.part p).recovery = some { r with stage := .restoring }) ∧
      (r.stage ≠ .replaced → exec (.recoveryRestore p) s = .next s) ∧
      (r.stage = .restoring →
        ∃ t : State, exec (.recoveryRestoreDone p) s = .next (t.replayNext p) ∧ t.mem = s.mem ∧
          (t.part p).recovery = some (let r' : Recovery := { r with stage := .replaying }
            { r' with script := replayScript (afterCheckpoint x (s.part p).journal) (r.step.map RunStep.seq) })) ∧
      (r.stage ≠ .restoring → exec (.recoveryRestoreDone p) s = .next s) ∧
      (r.stage = .done → s.changing p = false →
        (r.step = none → ∃ t : State, exec (.recoveryRerelease p) s = .next (t.boundaryWork p) ∧ NoStore s t ∧ (t.part p).recovery = none ∧
          (t.ctx x).st = .resident) ∧
        (∀ st, r.step = some st → r.journalFull = false → abortedFeed (afterCheckpoint x (s.part p).journal) st.seq = [] →
          ∃ t : State, exec (.recoveryRerelease p) s = .next t ∧ NoStore s t ∧ (t.part p).recovery = none ∧ (t.ctx x).st = .resident ∧
            ∃ st', (t.part p).running = some st' ∧ st'.seq = st.seq ∧ st'.desc = st.desc ∧ st'.starts = st.starts ∧ st'.replay = false)) ∧
      (∀ dl, r.layoutDeadline = some dl → r.stage = .waitLayout →
        (dl ≤ s.now → exec (.shrinkTimeout p) s = .next (s.contextFatal x 0x3807 { part := p })) ∧
        (s.now < dl → exec (.shrinkTimeout p) s = .next s)))

/-- Planned substitution, rotation, and the neighbour test of a recovery (R320, R330, R506, R507, R535, R536). Follows the model's choices of
notes/assumptions, entries 51 to 61. -/
def Obligations.ClusterExchange : Prop :=
  (∀ (c : Nat) (s : State) (x : Exchange), (s.region (regionOf c)).exchange = some x → x.rotation = false → x.a = c →
    let r := regionOf c
    let again := fun (t : State) => match (s.region r).part with
      | some p => t.boundaryWork p
      | none => t
    (∀ k q, s.spareFor c = some (k, q) → (s.cl c).st ≠ .failed →
      (∃ t : State, exec (.substitutionCopyDone c true) s = .next (again t) ∧ (t.region r).exchange = none ∧
        entrySite (t.cmapEntry r (localOf c)) = k ∧ entryPos (t.cmapEntry r (localOf c)) = q ∧
        (∀ l < 288, l ≠ localOf c → t.cmapEntry r l = s.cmapEntry r l)) ∧
      (∃ t : State, exec (.substitutionCopyDone c false) s = .next (again t) ∧ { t with regions := s.regions } = s ∧ (t.region r).exchange = none ∧
        (k, q) ∈ (t.region r).condemned)) ∧
    ((s.cl c).st = .failed → ∀ ok, ∃ t : State, exec (.substitutionCopyDone c ok) s = .next t ∧ { t with regions := s.regions } = s ∧
      t.region r = { s.region r with exchange := none })) ∧
  (∀ (r : Nat) (s : State) (x : Exchange), (s.region r).exchange = some x → x.rotation = true → x.a ≠ x.b →
    let again := fun (t : State) => match (s.region r).part with
      | some p => t.boundaryWork p
      | none => t
    let a := s.cmapEntry r (localOf x.a)
    let b := s.cmapEntry r (localOf x.b)
    ((s.cl x.a).st ≠ .failed → (s.cl x.b).st ≠ .failed → (s.region r).pstate = .run → localOf x.a ≠ localOf x.b →
      ∃ t : State, exec (.rotationCopyDone r) s = .next (again t) ∧ (t.region r).exchange = none ∧
        t.cmapEntry r (localOf x.a) = mkEntry (entrySite b) (entryPos b) 1 (min 255 (entryCount a + 1)) ∧
        t.cmapEntry r (localOf x.b) = mkEntry (entrySite a) (entryPos a) 1 (min 255 (entryCount b + 1))) ∧
    (((s.cl x.a).st = .failed ∨ (s.cl x.b).st = .failed) →
      ∃ t : State, exec (.rotationCopyDone r) s = .next t ∧ { t with regions := s.regions, tarn := s.tarn } = s ∧
        t.region r = { s.region r with exchange := none } ∧ ∀ n < 16384, t.trow x.a n = {} ∧ t.trow x.b n = {})) ∧
  (∀ (c p : Nat) (vs : List Verdict) (s : State), s.partOf c = some p → (s.part p).recovery.isSome → c ∈ (s.part p).testDue →
    (s.part p).running = none → s.vacant c = false →
    let e := s.cmapEntry (regionOf c) (localOf c)
    let mine := vs.filter (fun v => v.site == entrySite e && v.target == entryPos e && hops v.tester (entryPos e) == 1)
    let fails := failuresOf mine TestResult.isFail
    let tested := fun (t : State) => c ∉ (t.part p).testDue ∧ (∀ n < 16384, t.trow c n = {}) ∧
      ∀ d n, d ≠ c → n < 16384 → t.trow d n = s.trow d n
    (fails = 0 → ∃ t : State, exec (.neighbourTestTarget c vs) s = .next t ∧ { t with parts := s.parts, tarn := s.tarn } = s ∧ tested t) ∧
    (fails = 1 → ∃ t : State, exec (.neighbourTestTarget c vs) s = .next t ∧ t.clusters = s.clusters ∧ t.regions = s.regions ∧ t.mem = s.mem ∧ tested t) ∧
    (2 ≤ fails → failuresOf mine TestResult.isRouter < 2 →
      ∃ t : State, exec (.neighbourTestTarget c vs) s = .next t ∧ (t.cl c).st = .failed) ∧
    (2 ≤ fails → 2 ≤ failuresOf mine TestResult.isRouter →
      ∃ t : State, exec (.neighbourTestTarget c vs) s = .next t ∧ entrySite e ∈ (t.region (regionOf c)).sitesFailed))

/-- Corrected sectors and their write-back, uncorrectable sectors, refresh and patrol scrub (R340, R341, R344, R345). The vacate timeout and
the end of a pseudo-channel's retirement, and the failure of a stack (R347 to R349). Follows the model's choices of notes/assumptions,
entries 62 to 70. -/
def Obligations.HbmReliability : Prop :=
  (∀ (s : State),
    (∀ sector, ∃ t : State, exec (.correctedWriteBack sector) s = .next t ∧ { t with hbms := s.hbms } = s ∧
      t.hbm (s.stackOf sector) = { s.hbm (s.stackOf sector) with writeBack := (s.hbm (s.stackOf sector)).writeBack.erase sector }) ∧
    (∀ k, (s.hbm k).failed = false → (s.hbm k).selfRefresh = false →
      ∃ t : State, exec (.refresh k) s = .next t ∧ { t with hbms := s.hbms } = s ∧ (∀ j, j ≠ k → t.hbm j = s.hbm j) ∧
        (t.hbm k).refreshes = (s.hbm k).refreshes + 1 ∧
        ((s.hbm k).temp ≤ 85 → (t.hbm k).refreshDiv = 1) ∧ (85 < (s.hbm k).temp → (s.hbm k).temp ≤ 95 → (t.hbm k).refreshDiv = 2) ∧
        (95 < (s.hbm k).temp → (t.hbm k).refreshDiv = 4)) ∧
    (∀ k, ((s.hbm k).failed = true ∨ (s.hbm k).selfRefresh = true) → exec (.refresh k) s = .next s) ∧
    (∀ sector ecc,
      let a := 32 * sector
      let k := s.stackOf sector
      let q := pcOf (s.hbmPlace a).2
      let count := fun (c : Tbl Nat) => Tbl.get (fun _ => 0) c q
      a < 16 * s.sliceSize → (s.region (a / s.sliceSize)).inService = true → (s.hbm k).failed = false → (s.hbm k).selfRefresh = false →
      (ecc = .clean → s.sectorPoison a = false → ∃ t : State, exec (.patrolScrub sector ecc) s = .next t ∧
        { t with hbms := s.hbms } = s ∧ t.hbm k = { s.hbm k with patrolPos := sector + 1 } ∧ ∀ j, j ≠ k → t.hbm j = s.hbm j) ∧
      (ecc = .corrected → s.sectorPoison a = false → ∃ t : State, exec (.patrolScrub sector ecc) s = .next t ∧ NoStore s t ∧
        count (t.hbm k).corrected = min 0xFFFFFFFF (count (s.hbm k).corrected + 1) ∧
        (t.hbm k).writeBack = (s.hbm k).writeBack ++ [sector] ∧ (t.hbm k).patrolPos = sector + 1) ∧
      (ecc = .uncorrectable → ∃ t : State, exec (.patrolScrub sector ecc) s = .next t ∧
        count (t.hbm k).uncorrectable = min 65535 (count (s.hbm k).uncorrectable + 1) ∧ (t.hbm k).patrolPos = sector + 1)) ∧
    (∀ k, ∃ t : State, exec (.patrolPeriodEnd k true) s = .next t ∧ { t with hbms := s.hbms } = s ∧
      t.hbm k = { s.hbm k with patrolPos := 0 }) ∧
    (∀ k, ∃ t : State, exec (.patrolPeriodEnd k false) s = .next t ∧ { t with regs := s.regs } = s ∧
      bitsOf (t.reg 0x402008) 31 16 = min 65535 (bitsOf (s.reg 0x402008) 31 16 + 1) ∧
      bitsOf (t.reg 0x402008) 15 0 = bitsOf (s.reg 0x402008) 15 0)) ∧
  (∀ (k : Nat) (s : State), k < 32 →
    let v := s.hbm k
    let r := k / 2
    (∀ p, (s.region r).part = some p → v.pending = true → v.pendingSince + s.vacateTicks ≤ s.now →
      exec (.vacateTimeout k) s = .next (s.boundaryWork p)) ∧
    ((s.region r).part = none → v.pending = true → v.copying = false → v.failed = false → v.pendingSince + s.vacateTicks ≤ s.now →
      ∃ t : State, exec (.vacateTimeout k) s = .next t ∧ (t.hbm k).copying = true ∧
        ∀ g, (g, s.page g) ∈ s.vacating k → (t.page g).use = .free ∧ (t.page g).owner = 0) ∧
    ((v.pending = false ∨ s.now < v.pendingSince + s.vacateTicks) → exec (.vacateTimeout k) s = .next s) ∧
    (v.copying = true → ∃ t : State, exec (.pcRetirementDone k) s =
        .next (match (s.region r).part with | some p => t.boundaryWork p | none => t) ∧
      { t with hbms := s.hbms } = s ∧ (∀ j, j ≠ k → t.hbm j = s.hbm j) ∧
      t.hbm k = { v with retiredPc := v.candidate, copying := false, pending := false } ∧
      (v.candidate.isSome → ∀ a, (t.hbmPlace a).1 = k → t.cutOf ≤ (t.hbmPlace a).2 → t.hbmMapped a = false)) ∧
    (v.copying = false → exec (.pcRetirementDone k) s = .next s) ∧
    (v.failed = false → (s.region r).part = none →
      ∃ t : State, exec (.stackFailure k) s = .next t ∧ { t with hbms := s.hbms, regions := s.regions } = s ∧
        (t.hbm k).failed = true ∧ (t.hbm k).pending = false ∧ (t.hbm k).copying = false ∧ (∀ j, j ≠ k → t.hbm j = s.hbm j) ∧
        ((s.hbm (k ^^^ 1)).failed = true → (t.region r).inService = false) ∧
        ∀ a n, a < 16 * s.sliceSize → (s.hbmPlace a).1 = k → t.readsPoison a n = true) ∧
    (∀ p, v.failed = false → v.copying = false → (s.region r).part = some p → (s.part p).interleave = true →
      (s.hbm (k ^^^ 1)).failed = false → runsMeet (s.part p).ringRun (s.sliceRun r) = false →
      ∃ t : State, exec (.stackFailure k) s = .next t ∧ (t.hbm k).failed = true ∧ (t.part p).resetting = true) ∧
    (v.failed = true → exec (.stackFailure k) s = .next s) ∧
    ((s.hbm (2 * r)).failed = true → (s.hbm (2 * r + 1)).failed = false → (s.region r).linear = none → (s.region r).inService = true →
      (s.region r).part = none → s.sliceEmpty r = true →
      ∃ t : State, exec (.stackFailureRemap r) s = .next t ∧ { t with mem := s.mem, poison := s.poison, regions := s.regions } = s ∧
        t.region r = { s.region r with linear := some (2 * r + 1), upperUnmapped := true } ∧
        (∀ off, off < s.sliceSize → t.hbmPlace (r * s.sliceSize + off) = (2 * r + 1, off)) ∧
        ∀ off, s.sliceSize / 2 ≤ off → off < s.sliceSize → t.hbmMapped (r * s.sliceSize + off) = false) ∧
    ((s.hbm (2 * r)).failed = (s.hbm (2 * r + 1)).failed → exec (.stackFailureRemap r) s = .next s))

/-- CXL devices on a port and the keys of their links (R350, R351, R353, R445, R453). The life of a tier-2 window, the loss of its devices,
and a CXL.mem timeout (R351 to R356, R332, Table 11.4). Follows the model's choices of notes/assumptions, entries 62 to 70. -/
def Obligations.CxlMemory : Prop :=
  ((∀ (port : Nat) (d : CxlDevice) (s : State), port < 8 → s.cxlAbsent port = false →
    let known := (s.cxl port).devices.any (fun o => o.id == d.id)
    let wanted := d.flit256 = true ∧ d.mem = true ∧ d.logicalDevices ≤ 1 ∧ (s.cxl port).devices.length < 8
    (known = false → wanted → (s.cxl port).ideRequired = false →
      ∃ t : State, exec (.cxlLinkUp port d) s = .next t ∧ { t with cxlPorts := s.cxlPorts } = s ∧ (t.cxl port).up = true ∧
        (t.cxl port).devices = (s.cxl port).devices ++ [d] ∧ ∀ q, q ≠ port → t.cxl q = s.cxl q) ∧
    (known = false → wanted → (s.cxl port).ideRequired = true → s.cxlTrusted d = true →
      ∃ t : State, exec (.cxlLinkUp port d) s = .next t ∧ { t with cxlPorts := s.cxlPorts, fresh := s.fresh, out := s.out } = s ∧
        (t.cxl port).devices = (s.cxl port).devices ++ [d] ∧ ∃ key, (t.cxl port).ideKey = some key ∧ t.out = s.out ++ [.cxlKey port key]) ∧
    (known = false → (¬ wanted ∨ ((s.cxl port).ideRequired = true ∧ s.cxlTrusted d = false)) →
      ∃ t : State, exec (.cxlLinkUp port d) s = .next t ∧ NoStore s t ∧ Logged t 0x0701 ∧ (t.cxl port).up = true ∧
        (t.cxl port).devices = (s.cxl port).devices ∧ (t.cxl port).unconfigured = (s.cxl port).unconfigured ++ [d.id]) ∧
    (known = true → ∃ t : State, exec (.cxlLinkUp port d) s = .next t ∧ { t with cxlPorts := s.cxlPorts } = s ∧
      t.cxl port = { s.cxl port with up := true })) ∧
  (∀ (port : Nat) (d : CxlDevice) (s : State), (8 ≤ port ∨ s.cxlAbsent port = true) → exec (.cxlLinkUp port d) s = .next s) ∧
  (∀ (d : CxlDevice) (s : State), s.cxlTrusted d = true → d.rootHash ≠ 0) ∧
  (∀ (port : Nat) (s : State),
    let v := s.cxl port
    let due := v.rekeyTick + v.ideRekey * 3600 * ticksPerS
    (v.up = true → v.ideKey.isSome → due ≤ s.now →
      ∃ t : State, exec (.cxlIdeRekey port) s = .next t ∧ { t with cxlPorts := s.cxlPorts, fresh := s.fresh, out := s.out } = s ∧
        ∃ key, t.cxl port = { v with ideKey := some key, rekeyTick := s.now } ∧ t.out = s.out ++ [.cxlKey port key]) ∧
    ((v.up = false ∨ v.ideKey = none ∨ s.now < due) → exec (.cxlIdeRekey port) s = .next s))) ∧
  (∀ (w : Nat) (s : State),
    let v := s.win w
    (∀ p base size devs, s.windowOk w p base size devs = true →
      ∃ t : State, exec (.windowCreate w p base size devs) s = .next t ∧ NoStore s t ∧
        (t.win w).st = .zeroing ∧ (t.win w).part = p ∧ (t.win w).base = base ∧ (t.win w).size = size ∧ (t.win w).devs.Perm devs ∧
        ∀ j, j ≠ w → t.win j = s.win j) ∧
    (∀ p base size devs, s.windowOk w p base size devs = false → exec (.windowCreate w p base size devs) s = .next s) ∧
    (v.st = .zeroing → ∃ t : State, exec (.windowZeroingDone w) s = .next t ∧ Logged t 0x0702 ∧ t.win w = { v with st := .online } ∧
      (∀ a, v.lo ≤ a → a < v.lo + v.bytes → t.rawByte a = 0) ∧
      ∀ a, (a < v.lo ∨ v.lo + v.bytes ≤ a) → t.rawByte a = s.rawByte a) ∧
    (v.st ≠ .zeroing → exec (.windowZeroingDone w) s = .next s) ∧
    (v.st = .online → s.windowPages v = 0 → ∃ t : State, exec (.windowOffline w) s = .next t ∧
      { t with pages := s.pages, zeroRuns := s.zeroRuns, windows := s.windows } = s ∧ t.win w = { v with st := .offline }) ∧
    (v.st = .online → s.windowPages v ≠ 0 → ∃ t : State, exec (.windowOffline w) s = .next t ∧ OnlyReports s t ∧ Logged t 0x0703) ∧
    (v.st ≠ .online → exec (.windowOffline w) s = .next s) ∧
    ((v.st = .offline ∨ v.st = .lost) → ∃ t : State, exec (.windowDelete w) s = .next t ∧ t.win w = {} ∧ (∀ j, j ≠ w → t.win j = s.win j) ∧
      (∀ a, v.lo ≤ a → a < v.lo + v.bytes → t.rawByte a = 0) ∧ ∀ a, (a < v.lo ∨ v.lo + v.bytes ≤ a) → t.rawByte a = s.rawByte a) ∧
    (v.st ≠ .offline → v.st ≠ .lost → exec (.windowDelete w) s = .next s) ∧
    ((v.st = .online ∨ v.st = .zeroing ∨ v.st = .offline) →
      ∃ t : State, exec (.cxlDeviceLoss w) s = .next t ∧ t.win w = { v with st := .lost } ∧ (∀ j, j ≠ w → t.win j = s.win j) ∧
        ∀ x, (s.ctx x).st ≠ .free → (s.ctx x).part = v.part → s.ownsIn x v.run = true → (t.ctx x).st = .killing) ∧
    ((v.st = .free ∨ v.st = .lost) → exec (.cxlDeviceLoss w) s = .next s) ∧
    (∀ port, port < 8 →
      let recent := (s.cxl port).timeoutTicks.filter (fun t => decide (s.now < t + ticksPerS)) ++ [s.now]
      (recent.length < 8 → ∃ t : State, exec (.cxlMemTimeout port) s = .next t ∧ (t.cxl port).timeouts = satInc (s.cxl port).timeouts ∧
        (t.cxl port).timeoutTicks = recent ∧ t.windows = s.windows ∧
        ∀ k, s.waitingAt port = some k → k.ptype = .memWr → Answers t k .ack 3 0) ∧
      (8 ≤ recent.length → ∃ t : State, exec (.cxlMemTimeout port) s = .next t ∧ (t.cxl port).devices = [] ∧
        ∀ j ∈ s.windowsOn port, (t.win j).st = .lost ∨ (t.win j).st = .free)))

/-- What a core's accesses to tarn and to main memory do, and where they wait or fault (R365 to R369, R372, R102). Interrupts of a waiting
core, directory evictions, message-signalled interrupts and the faults of caches and cores (R363, R368, R373, R375, R38, Table 12.4).
Follows the model's choices of notes/assumptions, entries 62 to 70. -/
def Obligations.HostProcessorCores : Prop :=
  (∀ (n x : Nat) (s : State), (s.core n).owner = some x → (s.core n).runs = true →
    (∀ (addr : Word) u c off tagged, placeOf addr.toNat = .tarn c off → s.recovering x = false →
      s.coreRefuses x n addr.toNat .dmaRead = none → s.coverOf c (off / 512) (some x) .dmaRead = some tagged →
      let row := s.trow c (off / 512)
      (Readable s c (off / 512) tagged u →
        ∃ t : State, exec (.vl8re8V n addr u) s = .next t ∧ OnlyRow s t c (off / 512) ∧ (t.core n).v8 = row.data ∧ (t.core n).wait = none ∧
          t.trow c (off / 512) = { row with syndrome := 0, tag := if tagged ∧ (s.core n).peek = false then .empty else row.tag }) ∧
      (s.allHeld c = false → tagged = true → row.tag = .empty →
        ∃ t : State, exec (.vl8re8V n addr u) s = .next t ∧ { t with cores := s.cores } = s ∧
          (t.core n).wait = some { addr := addr.toNat, write := false, data := 0, since := s.now } ∧ (t.core n).v8 = (s.core n).v8)) ∧
    (∀ (addr : Word) (d : Row) c off tagged, placeOf addr.toNat = .tarn c off → s.recovering x = false →
      s.coreRefuses x n addr.toNat .dmaWrite = none → s.coverOf c (off / 512) (some x) .dmaWrite = some tagged →
      (Writable s c (off / 512) tagged →
        ∃ t : State, exec (.vs8rV n addr d) s = .next t ∧ OnlyRow s t c (off / 512) ∧ (t.core n).wait = none ∧
          t.trow c (off / 512) = { s.trow c (off / 512) with data := d, tag := .full, syndrome := 0 }) ∧
      (s.allHeld c = false → tagged = true → (s.trow c (off / 512)).tag = .full →
        ∃ t : State, exec (.vs8rV n addr d) s = .next t ∧ { t with cores := s.cores } = s ∧
          (t.core n).wait = some { addr := addr.toNat, write := true, data := d, since := s.now })) ∧
    (∀ (addr : Word) u why, s.coreMemory x n addr.toNat 512 = false → s.coreRefuses x n addr.toNat .dmaRead = some why →
      ∃ t : State, exec (.vl8re8V n addr u) s = .next t ∧ { t with cores := s.cores } = s ∧ (t.core n).mcause = 5 ∧
        (t.core n).tval = addr ∧ (t.core n).wait = none ∧ bitsOf (t.core n).fault 3 0 = why.code ∧ (t.core n).v8 = (s.core n).v8) ∧
    (∀ (addr : Word) d why, s.coreMemory x n addr.toNat 512 = false → s.coreRefuses x n addr.toNat .dmaWrite = some why →
      ∃ t : State, exec (.vs8rV n addr d) s = .next t ∧ { t with cores := s.cores } = s ∧ (t.core n).mcause = 7 ∧
        (t.core n).tval = addr ∧ (t.core n).wait = none ∧ bitsOf (t.core n).fault 3 0 = why.code) ∧
    (∀ (addr : Word) u, s.coreMemory x n addr.toNat 512 = true → s.readsPoison addr.toNat 512 = false →
      ∃ t : State, exec (.vl8re8V n addr u) s = .next t ∧ { t with cores := s.cores } = s ∧
        (t.core n).v8 = BitVec.ofNat 4096 (s.readNat addr.toNat 512)) ∧
    (∀ (addr : Word) (d : Row), s.coreMemory x n addr.toNat 512 = true → s.writablePages addr.toNat 512 = true → s.recovering x = false →
      ∃ t : State, exec (.vs8rV n addr d) s = .next t ∧ t.tarn = s.tarn ∧
        ∀ b, t.byte b = if addr.toNat ≤ b ∧ b < addr.toNat + 512 then BitVec.ofNat 8 (d.toNat / 256 ^ (b - addr.toNat)) else s.byte b) ∧
    (∀ v : Word, ∃ t : State, exec (.qtarnctlWrite n v) s = .next t ∧ { t with cores := s.cores } = s ∧ (t.core n).peek = bitOf v 0) ∧
    (∀ addr len (d : Row), 0 < len → len ≤ 512 → s.coreMemory x n addr len = true → s.stepInput addr len = true →
      (s.recovering x = false → ∃ t : State, exec (.stepInputStore n addr len d) s = .next t ∧ t.tarn = s.tarn ∧
        ∀ b, t.byte b = if addr ≤ b ∧ b < addr + len then BitVec.ofNat 8 (d.toNat / 256 ^ (b - addr)) else s.byte b) ∧
      (s.recovering x = true → exec (.stepInputStore n addr len d) s = .next s))) ∧
  ((∀ (n : Nat) (s : State), (s.core n).owner.isSome →
    ∃ t : State, exec (.tarnAccessCancel n) s = .next t ∧ { t with cores := s.cores } = s ∧
      t.core n = { s.core n with wait := none, irqTaken := true }) ∧
  (∀ (n : Nat) (s : State), (s.core n).owner = none → ∀ addr u d v len,
    exec (.tarnAccessCancel n) s = .next s ∧ exec (.vl8re8V n addr u) s = .next s ∧ exec (.vs8rV n addr d) s = .next s ∧
    exec (.qtarnctlWrite n v) s = .next s ∧ exec (.stepInputStore n len len d) s = .next s) ∧
  (∀ (r line : Nat) (s : State), (s.homeOf line = some r →
      ∃ t : State, exec (.directoryEviction r line) s = .next t ∧ t.dirLine line = {} ∧ (∀ l, l ≠ line → t.dirLine l = s.dirLine l) ∧
        t.tarn = s.tarn ∧ ∀ b, t.byte b = s.byte b) ∧
    (s.homeOf line ≠ some r → exec (.directoryEviction r line) s = .next s)) ∧
  (∀ (a : Agent) (hart file id : Nat) (s : State),
    let p := (s.region (coreRegion hart)).part
    let ok := hart < 384 ∧ file < 9 ∧ 1 ≤ id ∧ id ≤ 255 ∧ p.isSome ∧ s.agentPart a = p
    (ok → ∃ t : State, exec (.msiWrite a hart file id) s = .next t ∧ { t with cores := s.cores, out := s.out } = s ∧
      (file, id) ∈ (t.core hart).imsic ∧ t.out = s.out ++ [.coreMsi hart file id]) ∧
    (¬ ok → exec (.msiWrite a hart file id) s = .next s)) ∧
  (∀ (n : Nat) (s : State), n < 384 →
    let recent := (s.core n).errTimes.filter (fun t => decide (s.now < t + ticksPerS)) ++ [s.now]
    (∃ t : State, exec (.coreFault n .correctedEcc) s = .next t ∧ OnlyReports s t ∧ Logged t (4096 + Config.coreFaultCode 0 % 4096)) ∧
    (recent.length < 3 → ∃ t : State, exec (.coreFault n .cleanLine) s = .next t ∧ NoStore s t ∧ (t.core n).errTimes = recent ∧
      (t.core n).failed = (s.core n).failed ∧ (t.core n).owner = (s.core n).owner) ∧
    (3 ≤ recent.length → ∃ t : State, exec (.coreFault n .cleanLine) s = .next t ∧ (t.core n).failed = true) ∧
    ((s.core n).failed = false → ∃ t : State, exec (.coreFault n .controlState) s = .next t ∧ (t.core n).failed = true ∧
      (t.core n).owner = none ∧ ∀ x, (s.core n).owner = some x → (s.ctx x).st ≠ .free → (t.ctx x).st = .killing) ∧
    (∀ line, ∃ t : State, exec (.coreFault n (.directoryEntry line false)) s = .next t ∧ { t with dir := s.dir } = s ∧ t.dirLine line = {}) ∧
    (∀ line, ∃ u : State, { u with dir := s.dir, poison := s.poison } = s ∧ u.dirLine line = {} ∧ u.sectorPoison (64 * line) = true ∧
      u.sectorPoison (64 * line + 32) = true ∧ exec (.coreFault n (.directoryEntry line true)) s = .next (u.poisonEvent (64 * line)) ∧
      exec (.coreFault n (.modifiedLine line)) s = .next ((u.poisonEvent (64 * line)).coreError n)) ∧
    ((s.region (coreRegion n)).part = none → ∃ t : State, exec (.coreFault n .interconnect) s = .next t ∧
      { t with regions := s.regions, cores := s.cores } = s ∧ (t.region (coreRegion n)).cores = false ∧
      ∀ m, (coreRegion m = coreRegion n → (t.core m).owner = none ∧ (t.core m).running = false) ∧
        (coreRegion m ≠ coreRegion n → t.core m = s.core m))))

/-- Configuration requests, and host reads and writes through the device memory aperture (R380, R382, R308, R454, R520, R547). Follows the
model's choices of notes/assumptions, entries 71 to 76. -/
def Obligations.HostPortRequests : Prop :=
  (∀ (die : Nat) (s : State),
    (die < 8 → (s.port die).perst = false → (s.port die).absent = false → (s.port die).released = true →
      ∃ t : State, exec (.configurationRequest die) s = .next t ∧ { t with out := s.out } = s ∧
        t.out = s.out ++ [.cfgReply die (!(s.boot.complete || s.boot.stopped || s.boot.warm))]) ∧
    ((s.port die).perst = true → exec (.configurationRequest die) s = .next s)) ∧
  (∀ (f off len : Nat) (trusted : Bool) (u : Upset) (s : State), f < 1024 → (s.link (fnLink f)).up = true → 0 < len → len ≤ 4096 → off + len ≤ 2 ^ 36 →
    let read := exec (.bar2Read f trusted off len u) s
    let reply := fun (t : State) (status n : Nat) (d : Row) => { t with out := s.out } = s ∧ t.out = s.out ++ [.bar f status n d]
    let a := (s.fn f).apertureBase.toNat + off
    (s.trustOk f trusted = false → ∃ t : State, read = .next t ∧ reply t 3 0 0) ∧
    (s.trustOk f trusted = true → ((s.link (fnLink f)).blocked = true ∨ s.apertureOf f = none ∨
        ∃ x, s.apertureOf f = some x ∧ s.barMay x a len false = false) →
      ∃ t : State, read = .next t ∧ reply t 1 0 0) ∧
    (∀ x, s.trustOk f trusted = true → (s.link (fnLink f)).blocked = false → s.apertureOf f = some x → s.barMay x a len false = true →
      ((∀ k, k < (len + 511) / 512 → (∀ c o, placeOf (a + 512 * k) ≠ .tarn c o) ∧
          s.readsPoison (a + 512 * k) (min 512 (len - 512 * k)) = false) →
        ∃ t : State, read = .next t ∧ { t with out := s.out } = s ∧ t.out = s.out ++ (List.range ((len + 511) / 512)).map (fun k =>
          .bar f 0 (min 512 (len - 512 * k)) (BitVec.ofNat 4096 (s.readNat (a + 512 * k) (min 512 (len - 512 * k)))))) ∧
      (∀ c o tagged, placeOf a = .tarn c o → len = 512 → s.coverOf c (o / 512) (some x) .dmaRead = some tagged →
        Readable s c (o / 512) tagged u →
        ∃ t : State, read = .next t ∧ OnlyRow s t c (o / 512) ∧ t.out = s.out ++ [.bar f 0 512 (s.trow c (o / 512)).data] ∧
          t.trow c (o / 512) = { s.trow c (o / 512) with syndrome := 0, tag := if tagged then .empty else (s.trow c (o / 512)).tag }))) ∧
  (∀ (f off len : Nat) (trusted : Bool) (d : Row) (s : State), f < 1024 → (s.link (fnLink f)).up = true → 0 < len → len ≤ 512 → off + len ≤ 2 ^ 36 →
    let write := exec (.bar2Write f trusted off len d) s
    let a := (s.fn f).apertureBase.toNat + off
    ((s.trustOk f trusted = false ∨ (s.link (fnLink f)).blocked = true) → write = .next s) ∧
    (s.trustOk f trusted = true → (s.link (fnLink f)).blocked = false →
      (s.apertureOf f = none → ∃ t : State, write = .next t ∧ OnlyReports s t ∧ Logged t 0x3203) ∧
      (∀ x, s.apertureOf f = some x →
        (s.barMay x a len true = false → ∃ t : State, write = .next t ∧ t.tarn = s.tarn ∧ (t.ctx x).st = .killing) ∧
        (s.barMay x a len true = true → (∀ c o, placeOf a ≠ .tarn c o) →
          ∃ t : State, write = .next t ∧ t.tarn = s.tarn ∧
            ∀ b, t.byte b = if a ≤ b ∧ b < a + len then BitVec.ofNat 8 (d.toNat / 256 ^ (b - a)) else s.byte b) ∧
        (∀ c o tagged, s.barMay x a len true = true → placeOf a = .tarn c o → len = 512 →
          s.coverOf c (o / 512) (some x) .dmaWrite = some tagged → Writable s c (o / 512) tagged →
          ∃ t : State, write = .next t ∧ OnlyRow s t c (o / 512) ∧
            t.trow c (o / 512) = { s.trow c (o / 512) with data := d, tag := .full, syndrome := 0 }))))

/-- Doorbells, queue pairs and the creation of a context (R374, R386, R388, R389, R392, R428, R454, R588). Follows the model's choices of
notes/assumptions, entries 71 to 76. -/
def Obligations.QueuesAndContexts : Prop :=
  (∀ (w : Agent) (q : Nat) (v : Word) (s : State), q < 2048 →
    (s.doorbellFault w q 0 = none → s.doorbellOk w q v.toNat (s.qp q).sqSize = true → ∃ t : State, exec (.sqDoorbell w q v) s = .next t ∧
      { t with qps := s.qps } = s ∧ t.qp q = { s.qp q with sqTail := v.toNat } ∧ ∀ j, j ≠ q → t.qp j = s.qp j) ∧
    (s.doorbellFault w q 8 = none → s.doorbellOk w q v.toNat (s.qp q).cqSize = true → ∃ t : State, exec (.cqDoorbell w q v) s = .next t ∧
      { t with qps := s.qps } = s ∧ t.qp q = { s.qp q with cqHead := v.toNat } ∧ ∀ j, j ≠ q → t.qp j = s.qp j) ∧
    (s.doorbellFault w q 0 = none → s.doorbellOk w q v.toNat (s.qp q).sqSize = false → ∃ t : State, exec (.sqDoorbell w q v) s = .next t ∧
      t.qp q = { s.qp q with badDoorbell := satInc (s.qp q).badDoorbell } ∧ Logged t 0x0801 ∧ NoStore s t) ∧
    (∀ n, w = .core n → ((s.qp q).configured = false ∨ bitOf (s.qp q).cfg 32 = false ∨ (s.core n).owner ≠ some (s.qp q).ctx) →
      ∃ t : State, exec (.sqDoorbell w q v) s = .next t ∧ { t with cores := s.cores } = s ∧ (t.core n).mcause = 7)) ∧
  (∀ (f q : Nat) (cfg : Word) (s : State), f < 1024 → q < 2048 → bitOf cfg 31 = true → s.lockedTdi f = false →
      ((s.qp q).configured = false ∨ (s.qp q).fn = f) → (s.qp q).enabled = false →
    let w := { s.qp q with cfg := cfg &&& qpCfgMask }
    ∃ t : State, exec (.qpEnable f q cfg) s = .next t ∧ { t with qps := s.qps } = s ∧ (∀ j, j ≠ q → t.qp j = s.qp j) ∧ (t.qp q).fn = f ∧
      (s.enableOk f w = true → (t.qp q).enabled = true ∧ (t.qp q).cfg = w.cfg ∧ (t.qp q).sqTail = 0 ∧ (t.qp q).fetch = 0 ∧ (t.qp q).cqTail = 0 ∧
        (t.qp q).phase = true ∧ (t.qp q).prog = [] ∧ (t.qp q).cfgError = false ∧ (t.qp q).epoch = (s.ctx w.ctx).epoch) ∧
      (s.enableOk f w = false → (t.qp q).enabled = false ∧ (t.qp q).cfgError = true ∧ bitOf (t.qp q).cfg 31 = false)) ∧
  (∀ (f q : Nat) (s : State), (s.qp q).configured = true → (s.qp q).fn = f → (s.qp q).enabled = true → s.lockedTdi f = false →
    ∃ t : State, exec (.qpDisable f q) s = .next t ∧ { t with qps := s.qps } = s ∧ (∀ j, j ≠ q → t.qp j = s.qp j) ∧
      (t.qp q).prog = (s.qp q).prog ∧ ((s.qp q).prog = [] → (t.qp q).enabled = false) ∧
      ((s.qp q).prog ≠ [] → (t.qp q).enabled = true ∧ (t.qp q).disabling = true ∧ t.mayFetch q = false)) ∧
  (∀ (f : Nat) (o : Bool) (s : State), f < 1024 → s.lockedTdi f = false →
    let owned := (s.ctxs.filter (fun e => e.2.fn == f && decide (e.2.st ≠ .free))).length
    (∀ p x runs, (s.link (fnLink f)).part = some p → s.freeCtx = some x → s.saveArea p = some runs → owned < s.ctxLimit f →
      ∃ t : State, exec (.contextCreate f o) s = .next t ∧ { t with ctxs := s.ctxs, fns := s.fns, sec := s.sec } = s ∧
        (∀ y, y ≠ x → t.ctx y = s.ctx y) ∧ (t.ctx x).st = .waiting ∧ (t.ctx x).fn = f ∧ (t.ctx x).part = p ∧ (t.ctx x).debugOpen = o ∧
        (t.ctx x).saveRuns = runs ∧ (t.ctx x).slots = [] ∧ (t.ctx x).params = {} ∧ (t.fn f).lastCtx = BitVec.ofNat 10 x ∧
        (t.fn f).createError = false ∧ (t.ctx x).keyGen = s.sec.nextKey ∧ t.sec.nextKey = s.sec.nextKey + 1) ∧
    (((s.link (fnLink f)).part = none ∨ s.freeCtx = none ∨ s.ctxLimit f ≤ owned) →
      ∃ t : State, exec (.contextCreate f o) s = .next t ∧ { t with fns := s.fns } = s ∧ (t.fn f).createError = true)) ∧
  (∀ (f q : Nat) (cfg : Word) (s : State), s.lockedTdi f = true → f < 1024 →
    (q < 2048 → bitOf cfg 31 = true → (s.qp q).fn = f → ∃ t : State, exec (.qpEnable f q cfg) s = .next t ∧ t.qps = s.qps ∧ Logged t 0x0A03) ∧
    ∃ t : State, exec (.contextCreate f false) s = .next t ∧ t.ctxs = s.ctxs ∧ Logged t 0x0A03)

/-- Fetching and starting descriptors, and NOP, JOURNAL_MARK and FENCE (R390, R391, R393, R395, R403, R407, R308, R315, R428). Follows the
model's choices of notes/assumptions, entries 51 to 61, 77 to 80. -/
def Obligations.Descriptors : Prop :=
  (∀ (q : Nat) (d : Desc) (s : State),
    let body : Desc := if bitOf (s.qp q).cfg 32 then BitVec.ofNat 512 (s.readNat ((s.qp q).sqBase.toNat + 64 * (s.qp q).fetch) 64) else d
    (s.mayFetch q = true → ∃ t : State, exec (.descriptorFetch q d) s = .next t ∧ { t with qps := s.qps, order := s.order } = s ∧
      (∀ j, j ≠ q → t.qp j = s.qp j) ∧ (t.qp q).fetch = ((s.qp q).fetch + 1) % (s.qp q).sqSize ∧
      (t.qp q).prog = (s.qp q).prog ++ [{ k := (s.qp q).fetch, desc := body, order := s.order }]) ∧
    (s.mayFetch q = false → exec (.descriptorFetch q d) s = .next s)) ∧
  (∀ (q k : Nat) (s : State) (e : Prog), s.prog q k = some e →
    (e.started = false → s.mayStart q e = true →
      (headerCode (s.qp q).ctx e.desc = none → ∃ t : State, exec (.descriptorStart q k) s = .next t ∧ { t with qps := s.qps } = s ∧
        (∀ j, j ≠ q → t.qp j = s.qp j) ∧ t.prog q k = some { e with started := true }) ∧
      (∀ code, headerCode (s.qp q).ctx e.desc = some code → ∃ t : State, exec (.descriptorStart q k) s = .next t ∧ t.tarn = s.tarn ∧
        t.clusters = s.clusters ∧ Completes s t q k stRejected code 0)) ∧
    ((e.started = true ∨ s.mayStart q e = false) → exec (.descriptorStart q k) s = .next s) ∧
    (dType e.desc > 8 → headerCode (s.qp q).ctx e.desc = some 0x0810)) ∧
  (∀ (q k : Nat) (s : State) (d : Desc),
    (s.startedDesc q k 0 = some d → ∃ t : State, exec (.descriptorNop q k) s = .next t ∧ t.tarn = s.tarn ∧ Completes s t q k stOk 0 0 ∧
      (bitOf (s.qp q).cfg 32 = false → { t with qps := s.qps, out := s.out } = s)) ∧
    (s.startedDesc q k 6 = some d →
      let p := (s.ctx (s.qp q).ctx).part
      (s.recordFits p 0 = true → ∃ t : State, exec (.journalMark q k) s = .next t ∧ t.tarn = s.tarn ∧ Completes s t q k stOk 0 0 ∧
        (bitOf (s.qp q).cfg 32 = false → ∃ e ∈ (t.part p).journal, e.body = .mark (d.extractLsb' 64 64) ∧ e.ctx = (s.qp q).ctx ∧
          e.seq = s.recordSeq p ∧ e.tick = s.now)) ∧
      (s.recordFits p 0 = false → ∃ t : State, exec (.journalMark q k) s = .next t ∧ t.tarn = s.tarn ∧
        Completes s t q k stJournal 0x0803 0)) ∧
    (s.startedDesc q k 8 = some d → ∃ t : State, exec (.fence q k) s = .next t ∧ t.tarn = s.tarn ∧ Completes s t q k stOk 0 0 ∧
      (t.qp q).openReq = false ∧ (t.qp q).epoch = (s.ctx (s.qp q).ctx).epoch) ∧
    (s.startedDesc q k 0 = none → exec (.descriptorNop q k) s = .next s) ∧
    (s.startedDesc q k 6 = none → exec (.journalMark q k) s = .next s) ∧
    (s.startedDesc q k 8 = none → exec (.fence q k) s = .next s))

/-- DMA_COPY: its checks, its units, its tag operations and its ends (R322, R399 to R402, R406, R308). Follows the model's choices of
notes/assumptions, entries 77 to 80. -/
def Obligations.DmaCopies : Prop :=
  ∀ (q k : Nat) (s : State),
    let x := (s.qp q).ctx
    (∀ d, s.startedDesc q k 2 = some d →
      let m := dmaOf d
      let ends := fun (status code : Nat) => Ends s (.dmaCopy q k) q k status code 0
      (m.valuesOk = false → ends stRejected 0x0813) ∧
      (m.valuesOk = true → m.empty = true → ends stOk 0) ∧
      (m.valuesOk = true → m.empty = false → m.aligned = false → ends stAlign (Config.statusCode stAlign % 65536)) ∧
      (m.valuesOk = true → m.empty = false → m.aligned = true → m.countsOk = false → ends stRejected 0x0813) ∧
      (m.valuesOk = true → m.empty = false → m.aligned = true → m.countsOk = true → s.dmaChecked x m = false →
        ends stAddress (Config.statusCode stAddress % 65536)) ∧
      (∀ o, m.valuesOk = true → m.empty = false → m.aligned = true → m.countsOk = true → s.dmaChecked x m = true →
        s.prog q k = some { k := k, desc := d, started := true, order := o } → (∀ l a, placeOf m.srcScale ≠ .host l a) →
        ((∀ l a, placeOf m.src ≠ .host l a) → ∃ t : State, exec (.dmaCopy q k) s = .next t ∧ { t with qps := s.qps } = s ∧
          t.prog q k = some { k := k, desc := d, started := true, running := true, order := o }) ∧
        (∀ l a, placeOf m.src = .host l a → m.tagOp = 0 → m.convert = false → ∃ t : State, exec (.dmaCopy q k) s = .next t ∧
          { t with qps := s.qps, out := s.out } = s ∧
          t.out = s.out ++ [.hostRead l ((s.ctx x).params.hostBase + a) (min 512 m.length)] ∧
          t.prog q k = some { k := k, desc := d, started := true, running := true, hostSince := some s.now, order := o }))) ∧
    (s.startedDesc q k 2 = none → exec (.dmaCopy q k) s = .next s) ∧
    (∀ host u, s.runningDma q k = none → exec (.dmaUnit q k host u) s = .next s) ∧
    (∀ host u e, s.runningDma q k = some e → s.recovering x = true → exec (.dmaUnit q k host u) s = .next s) ∧
    (∀ host u e, s.runningDma q k = some e → s.recovering x = false →
      let m := dmaOf e.desc
      let src := m.srcUnit e.moved
      let dst := m.dstUnit e.moved
      let data := BitVec.ofNat 4096 (s.readNat src.1 src.2)
      (m.tagOp = 0 → m.convert = false → e.read = e.moved → e.buf = [] → e.moved < m.total →
        s.dmaSide x src.1 src.2 false = true → s.dmaSide x dst.1 dst.2 true = true →
        (∀ c o, placeOf src.1 ≠ .tarn c o) → (∀ l o, placeOf src.1 ≠ .host l o) → s.readsPoison src.1 src.2 = false →
        ((∀ c o, placeOf dst.1 ≠ .tarn c o) → (∀ l o, placeOf dst.1 ≠ .host l o) →
          ∃ t : State, exec (.dmaUnit q k host u) s = .next t ∧ t.tarn = s.tarn ∧
            (bitOf (s.qp q).cfg 32 = false → ∀ b, t.byte b = if dst.1 ≤ b ∧ b < dst.1 + dst.2 then s.byte (src.1 + (b - dst.1)) else s.byte b) ∧
            (e.moved + 1 < m.total → ∃ e', t.prog q k = some e' ∧ e'.moved = e.moved + 1 ∧ e'.read = e.moved + 1) ∧
            (e.moved + 1 = m.total → Completes s t q k stOk 0 (dmaMoved m { e with moved := e.moved + 1 }))) ∧
        (∀ c o tagged, placeOf dst.1 = .tarn c o → s.coverOf c (o / 512) (some x) .dmaWrite = some tagged → Writable s c (o / 512) tagged →
          ∃ t : State, exec (.dmaUnit q k host u) s = .next t ∧ t.trow c (o / 512) = { s.trow c (o / 512) with data := data, tag := .full, syndrome := 0 } ∧
            (bitOf (s.qp q).cfg 32 = false → OnlyRow s t c (o / 512)))) ∧
      (∀ c o full, m.tagOp = (if full then 2 else 1) → e.moved < m.total → s.dmaSide x dst.1 dst.2 true = true → placeOf dst.1 = .tarn c o →
        s.allHeld c = false → (s.trow c (o / 512)).tag ≠ .held → (full = true → (s.trow c (o / 512)).tag ≠ .poisoned) →
        ∃ t : State, exec (.dmaUnit q k host u) s = .next t ∧
          t.trow c (o / 512) = { s.trow c (o / 512) with tag := if full then .full else .empty } ∧
          (bitOf (s.qp q).cfg 32 = false → OnlyRow s t c (o / 512)))) ∧
    (∀ e since, s.runningDma q k = some e → e.hostSince = some since →
      let due := since + (s.link ((s.qp q).fn / 64)).cplTimeout * 50 * ticksPerUs
      (due ≤ s.now → ∃ t : State, exec (.hostCompletionTimeout (.dma q k)) s = .next t ∧ t.tarn = s.tarn ∧
        Completes s t q k stHost (Config.statusCode stHost % 65536) (dmaMoved (dmaOf e.desc) e)) ∧
      (s.now < due → exec (.hostCompletionTimeout (.dma q k)) s = .next s))

/-- CONTEXT_CTL: parameters, handles, spans, spills and restores are checked, and take effect at the next step boundary (R89, R90, R94, R95,
R97, R100, R403, R404). The end of a handle's way to its backing or back to tarn (R97, R100, R101). Follows the model's choices of
notes/assumptions, entries 24 to 30, 77 to 80. -/
def Obligations.ContextControl : Prop :=
  (∀ (q k : Nat) (s : State) (d : Desc),
    let x := (s.qp q).ctx
    (s.startedCtl q k 1 = some d →
      let n := bitsOf d 135 128
      let v := d.extractLsb' 256 64
      (paramOk n v = true → Defers s (.setParam q k) q k (.param n v)) ∧
      (paramOk n v = false → Ends s (.setParam q k) q k stRejected 0x0813 0)) ∧
    (s.startedCtl q k 3 = some d →
      let e : HandleEntry := d.extractLsb' 256 256
      let rejects := 4608 ≤ cCluster d ∨ (s.ctxCluster x (cCluster d) = true ∧ s.imageHandle x (cCluster d) (cHandle d) = true)
      (rejects → Ends s (.setHandle q k) q k stRejected 0x0813 0) ∧
      (cCluster d < 4608 → s.ctxCluster x (cCluster d) = false →
        Ends s (.setHandle q k) q k stAddress (Config.statusCode stAddress % 65536) 0) ∧
      (¬ rejects → s.ctxCluster x (cCluster d) = true → s.entryOk x e = false →
        Ends s (.setHandle q k) q k stHandle (Config.statusCode stHandle % 65536) 0) ∧
      (¬ rejects → s.ctxCluster x (cCluster d) = true → s.entryOk x e = true →
        Defers s (.setHandle q k) q k (.handle (cCluster d) (cHandle d) e))) ∧
    (∀ bytes, s.startedCtl q k 4 = some d →
      let ws := s.spanWords (cAddr d) bytes
      let len := 8 + 4 * bitsOf (ws.headD 0) 12 0
      let ready := isTarn (cAddr d) = false ∧ s.dmaSide x (cAddr d) len false = true ∧ s.readsPoison (cAddr d) len = false
      (isTarn (cAddr d) = true → Ends s (.setSpan q k bytes) q k stAlign (Config.statusCode stAlign % 65536) 0) ∧
      (isTarn (cAddr d) = false → s.dmaSide x (cAddr d) len false = false →
        Ends s (.setSpan q k bytes) q k stAddress (Config.statusCode stAddress % 65536) 0) ∧
      (∀ sp, ready → s.spanOf x ws = some sp → Defers s (.setSpan q k bytes) q k (.span (bitsOf d 139 128) sp)) ∧
      (ready → s.spanOf x ws = none → Ends s (.setSpan q k bytes) q k stRejected 0x0813 0)) ∧
    (s.startedCtl q k 5 = some d →
      let tier := bitsOf d 153 152
      let e := s.ctxHandle x (cCluster d) (cHandle d)
      let shaped := cCluster d < 4608 ∧ (tier = 0 → cAddr d = 0) ∧ s.ctxCluster x (cCluster d) = true ∧ (tier ≠ 0 → cAddr d % 4096 = 0)
      ((4608 ≤ cCluster d ∨ (tier = 0 ∧ cAddr d ≠ 0)) → Ends s (.spillHandle q k) q k stRejected 0x0813 0) ∧
      (shaped → tier ≠ 0 → s.backingOk x tier (cAddr d) (hCount e * 512) = false →
        Ends s (.spillHandle q k) q k stAddress (Config.statusCode stAddress % 65536) 0) ∧
      (shaped → (tier ≠ 0 → s.backingOk x tier (cAddr d) (hCount e * 512) = true) →
        Defers s (.spillHandle q k) q k (.spill (cCluster d) (cHandle d) tier (cAddr d)))) ∧
    (s.startedCtl q k 6 = some d →
      (4608 ≤ cCluster d → Ends s (.restoreHandle q k) q k stRejected 0x0813 0) ∧
      (cCluster d < 4608 → s.ctxCluster x (cCluster d) = false →
        Ends s (.restoreHandle q k) q k stAddress (Config.statusCode stAddress % 65536) 0) ∧
      (cCluster d < 4608 → s.ctxCluster x (cCluster d) = true →
        Defers s (.restoreHandle q k) q k (.restore (cCluster d) (cHandle d)))) ∧
    (∀ y n (v : Word), ((s.applyChange y none (.param n v)).ctx y).params = setParamOf (s.ctx y).params n v) ∧
    (∀ y n sp, (s.applyChange y none (.span n sp)).ctx y = { s.ctx y with spans := Tbl.set (fun _ => {}) (s.ctx y).spans n sp }) ∧
    (∀ y c h e, s.isResident y = true → s.ctxFits y c h e = true → hGen e = 0 →
      (s.applyChange y none (.handle c h e)).handle c h = BitVec.ofNat 256 (e.toNat + (hGen (s.handle c h) + 1) % 65536 * 2 ^ 192))) ∧
  (∀ (c h : Nat) (s : State),
    (s.transitOf c h = none → exec (.transitEnd c h) s = .next s) ∧
    (∀ x qk tr, s.transitOf c h = some (x, qk, tr) →
      let e := s.ctxHandle x c h
      ∃ u : State, exec (.transitEnd c h) s = .next ((u.closeDesc qk stOk 0).boundaryWork (s.ctx x).part) ∧ (u.ctx x).transit = none ∧
        (tr.spill = true → tr.backing < 4 → tr.addr < 2 ^ 52 → tr.bitmap < 2 ^ 52 → hBacking (u.ctxHandle x c h) = tr.backing ∧
          hBackAddr (u.ctxHandle x c h) = tr.addr ∧ hBitmap (u.ctxHandle x c h) = tr.bitmap) ∧
        (tr.spill = false → hBacking (u.ctxHandle x c h) = 0 ∧
          ∀ k, k < hCount e → u.ctxRow x c (hBase e + k) =
            { data := BitVec.ofNat 4096 (s.readNat (spillAddr e k) 512),
              tag := if s.readsPoison (spillAddr e k) 512 then .poisoned else s.bitmapTag e k })))

/-- Pages mapped, unmapped and zeroed, and cores assigned (R371, R405, R410). Follows the model's choices of notes/assumptions, entries 62 to
70, 77 to 82. -/
def Obligations.PagesAndCores : Prop :=
  (∀ (q k : Nat) (s : State) (d : Desc),
    let x := (s.qp q).ctx
    let n := cCount d
    let b := cAddr d / 4096
    (s.startedCtl q k 7 = some d →
      let input := bitOf d 288
      let fits := (List.range n).all (fun i => s.mappable x (b + i))
      (n = 0 → Ends s (.mapPages q k) q k stOk 0 0) ∧
      (n ≠ 0 → cAddr d % 4096 ≠ 0 → Ends s (.mapPages q k) q k stAlign (Config.statusCode stAlign % 65536) 0) ∧
      (n ≠ 0 → cAddr d % 4096 = 0 → fits = false → Ends s (.mapPages q k) q k stRejected 0x0813 0) ∧
      (n ≠ 0 → cAddr d % 4096 = 0 → fits = true → (s.ctx x).quota < s.ownedPages x + n →
        Ends s (.mapPages q k) q k stCapacity (Config.statusCode stCapacity % 65536) 0) ∧
      (n ≠ 0 → cAddr d % 4096 = 0 → fits = true → s.ownedPages x + n ≤ (s.ctx x).quota →
        ∃ t : State, exec (.mapPages q k) s = .next t ∧ t.tarn = s.tarn ∧ Completes s t q k stOk 0 0 ∧
          (∀ i, i < n → t.page (b + i) = { s.page (b + i) with use := if input then .stepInput else .mapped, owner := x, key := (s.ctx x).keyGen + 1 }) ∧
          ∀ g, (g < b ∨ b + n ≤ g) → t.page g = s.page g)) ∧
    (s.startedCtl q k 8 = some d →
      let own := (List.range n).all (fun i => s.mappedBy x (b + i))
      (n = 0 → Ends s (.unmapPages q k) q k stOk 0 0) ∧
      (n ≠ 0 → cAddr d % 4096 ≠ 0 → Ends s (.unmapPages q k) q k stAlign (Config.statusCode stAlign % 65536) 0) ∧
      (n ≠ 0 → cAddr d % 4096 = 0 → own = false → Ends s (.unmapPages q k) q k stAddress (Config.statusCode stAddress % 65536) 0) ∧
      (n ≠ 0 → cAddr d % 4096 = 0 → own = true → s.inCheckpoint b n = true → Ends s (.unmapPages q k) q k stRejected 0x0813 0) ∧
      (n ≠ 0 → cAddr d % 4096 = 0 → own = true → s.inCheckpoint b n = false → s.isResident x = true →
        Defers s (.unmapPages q k) q k (.unmap b n)) ∧
      (n ≠ 0 → cAddr d % 4096 = 0 → own = true → s.inCheckpoint b n = false → s.isResident x = false →
        ∃ t : State, exec (.unmapPages q k) s = .next t ∧ t.tarn = s.tarn ∧ Completes s t q k stOk 0 0 ∧
          (∀ i, i < n → (t.page (b + i)).use = .free ∧ (t.page (b + i)).owner = 0) ∧ ∀ g, (g < b ∨ b + n ≤ g) → t.page g = s.page g)) ∧
    (s.startedCtl q k 9 = some d →
      let first := bitsOf d 136 128
      let m := bitsOf d 148 144
      let off := bitOf d 149
      let ok := first < 384 ∧ m ≤ 24 ∧ first % 24 + m ≤ 24 ∧ (List.range m).all (fun i => s.coreMay x (first + i) off) = true
      (m = 0 → Ends s (.assignCores q k) q k stOk 0 0) ∧
      (m ≠ 0 → ¬ ok → Ends s (.assignCores q k) q k stRejected 0x0813 0) ∧
      (m ≠ 0 → ok → ∃ t : State, exec (.assignCores q k) s = .next t ∧ t.tarn = s.tarn ∧ Completes s t q k stOk 0 0 ∧
        ∀ i, i < m → (off = false → (t.core (first + i)).owner = some x ∧ (t.core (first + i)).running = true ∧
            (t.core (first + i)).entry = cAddr d ∧ (t.core (first + i)).a0 = BitVec.ofNat 64 (first + i) ∧
            (t.core (first + i)).a1 = BitVec.ofNat 64 x) ∧
          (off = true → (t.core (first + i)).owner = none ∧ (t.core (first + i)).running = false)))) ∧
  (∀ (gs : List Nat) (s : State), ∃ t : State, exec (.pageZeroingDone gs) s = .next t ∧ t.tarn = s.tarn ∧
    (∀ g ∈ gs, (s.page g).use = .zeroing → (t.page g).use = .free ∧ (t.page g).owner = 0 ∧ (t.page g).key = 0 ∧
      (∀ a, a / 4096 = g → t.rawByte a = 0) ∧ ∀ j, j / 128 = g → t.sectorPoison (32 * j) = false) ∧
    (∀ g, g ∉ gs → t.page g = s.page g) ∧ ∀ a, a / 4096 ∉ gs → t.rawByte a = s.rawByte a)

/-- A context killed: the start of the kill, the crypto-erase, and the scrub (R106, R410, R411, R448, Table 13.3). The context switch, and the
resets of functions and links (R38, R381, R383, R386, R387, R409, Table 13.2). Follows the model's choices of notes/assumptions, entries
71 to 76, 81 to 82. -/
def Obligations.ContextEndsAndSwitches : Prop :=
  ((∀ (q k : Nat) (s : State) (d : Desc), s.startedCtl q k 10 = some d →
    let x := (s.qp q).ctx
    (s.ctx x).st ≠ .free → (s.ctx x).st ≠ .killing →
    ∃ t : State, exec (.kill q k) s = .next t ∧ t.tarn = s.tarn ∧ (t.ctx x).st = .killing ∧ (t.ctx x).killQ = some (q, k) ∧ (t.ctx x).killStage = 1 ∧
      (∀ n, (t.core n).owner ≠ some x) ∧ (∀ j, (s.qp j).configured = true → (s.qp j).ctx = x → (t.qp j).enabled = false) ∧
      (∀ l ∈ (t.part (s.ctx x).part).launches, l.ctx ≠ x) ∧ (t.part (s.ctx x).part).running.map RunStep.ctx ≠ some x) ∧
  (∀ (a : Agent) (p x : Nat) (s : State),
    (s.prtAgent a p = true → x < 1024 → (s.ctx x).part = p → (s.ctx x).st ≠ .free → (s.ctx x).st ≠ .killing →
      ∃ t : State, exec (.prtCtxKill a p x) s = .next t ∧ t.tarn = s.tarn ∧ (t.ctx x).st = .killing ∧ (t.ctx x).killQ = none) ∧
    ((s.prtAgent a p = false ∨ (s.ctx x).part ≠ p ∨ (s.ctx x).st = .free) → exec (.prtCtxKill a p x) s = .next s)) ∧
  (∀ (x : Nat) (s : State),
    let p := (s.ctx x).part
    ((s.ctx x).st = .killing → (s.ctx x).killStage = 3 →
      ∃ t : State, exec (.killCryptoErase x) s = .next (t.boundaryWork p) ∧ t.tarn = s.tarn ∧ (t.ctx x).st = .free ∧ (t.ctx x).slots = [] ∧
        (t.ctx x).lastError = (s.ctx x).lastError ∧ (t.part p).resident ≠ some x ∧
        (∀ g, (s.page g).owner = x → (s.page g).use ≠ .free → (s.page g).use ≠ .zeroing → (t.page g).use = .zeroing ∧ (t.page g).owner = 0) ∧
        (∀ q k, (s.ctx x).killQ = some (q, k) → ∀ d, s.prog q k = some d → t.prog q k = none)) ∧
    (((s.ctx x).st ≠ .killing ∨ (s.ctx x).killStage ≠ 3) → exec (.killCryptoErase x) s = .next s)) ∧
  (∀ (p : Nat) (s : State),
    ((s.part p).scrubbing = true → ∃ t : State, exec (.scrubDone p) s = .next (t.boundaryWork p) ∧ t.mem = s.mem ∧
      (∀ c n, n < 16384 → (inRegions (s.part p).regions c = true → t.trow c n = {}) ∧
        (inRegions (s.part p).regions c = false → t.trow c n = s.trow c n)) ∧
      (∀ c, inRegions (s.part p).regions c = true → (t.cl c).handles = []) ∧ (t.part p).scrubbing = false ∧
      (∀ x, (s.part p).resident = some x → (s.ctx x).st = .killing → (s.ctx x).killStage = 2 → (t.ctx x).killStage = 3 ∧ (t.part p).resident = none)) ∧
    ((s.part p).scrubbing = false → exec (.scrubDone p) s = .next s))) ∧
  ((∀ (p o : Nat) (w : CtxSwitch) (s : State), (s.part p).switching = some w → w.stage = .saving → w.outgoing = some o →
    (∀ e ∈ s.partRows p, e.2.syndrome = 0) → ∃ t : State, exec (.contextSaveDone p) s = .next t ∧ { t with parts := s.parts, ctxs := s.ctxs } = s ∧
      (t.ctx o).st = .waiting ∧ (t.part p).resident = none ∧ (t.part p).scrubbing = true ∧
      (t.part p).switching = some { w with stage := .scrubbing } ∧ ∃ v, (t.ctx o).save = some v ∧ v.rows = s.partRows p ∧ v.handles = s.ctxTables o) ∧
  (∀ (p : Nat) (s : State), (s.part p).switching = none → exec (.contextSaveDone p) s = .next s ∧ exec (.contextRestoreDone p) s = .next s) ∧
  (∀ (p : Nat) (w : CtxSwitch) (s : State), (s.part p).switching = some w → w.stage = .restoring → (s.part p).scrubbing = false →
    (s.part p).drain = none → (s.ctx w.incoming).needLayout = false →
    ∃ t : State, exec (.contextRestoreDone p) s = .next (t.boundaryWork p) ∧ t.mem = s.mem ∧ (t.ctx w.incoming).st = .resident ∧
      (t.part p).resident = some w.incoming ∧ (t.part p).residentSince = s.now ∧ (t.part p).switching = none ∧
      ((s.ctx w.incoming).save = none → t.tarn = s.tarn) ∧
      ∀ v, (s.ctx w.incoming).save = some v → ∀ c n, n < 16384 → inRegions (s.part p).regions c = true →
        (v.rows.map Prod.fst).Nodup → ∀ r, (rowKey c n, r) ∈ v.rows → t.trow c n = r) ∧
  (∀ (f : Nat) (s : State), f < 1024 → f % 64 ≠ 0 →
    ∃ t : State, exec (.functionLevelReset f) s = .next t ∧ t.tarn = s.tarn ∧ (t.fn f).tdi = .unlocked ∧ (t.fn f).limit = (s.fn f).limit ∧
      (t.fn f).apertureValid = false ∧ (∀ q, (s.qp q).configured = true → (s.qp q).fn = f → t.qp q = {}) ∧
      ∀ x, (s.ctx x).fn = f → (s.ctx x).st ≠ .free → (t.ctx x).st = .killing) ∧
  (∀ (l : Nat) (s : State), l < 16 →
    let reset := fun (t : State) => t.tarn = s.tarn ∧ ∀ f, fnLink f = l → (t.fn f).limit = 16 ∧ (t.fn f).apertureValid = false ∧
      ((s.fn f).tdi = .run → (t.fn f).tdi = .error) ∧ (∀ q, (s.qp q).configured = true → (s.qp q).fn = f → t.qp q = {}) ∧
      ∀ x, (s.ctx x).fn = f → (s.ctx x).st ≠ .free → (t.ctx x).st = .killing
    (∃ t : State, exec (.functionLevelReset (64 * l)) s = .next t ∧ reset t) ∧
    (∃ t : State, exec (.hotReset l) s = .next t ∧ reset t) ∧
    ((s.link l).up = true → ∃ t : State, exec (.linkDown l) s = .next t ∧ reset t ∧ (t.link l).up = false) ∧
    ((s.link l).up = false → exec (.linkDown l) s = .next s)))

/-- LOAD_IMAGE: the checks in their order, what it reserves, and the slot that loads (R412 to R415, R419 to R423, Table 14.5). SWAP_IMAGE, the
release of a retiring slot, and SELECT_LAYOUT (R328, R329, R428, R430, R432). Follows the model's choices of notes/assumptions, entries 83
to 84. -/
def Obligations.ImageLoadsAndSlots : Prop :=
  (∀ (q k : Nat) (img : Image) (s : State) (d : Desc), s.startedDesc q k 3 = some d →
    let x := (s.qp q).ctx
    let p := (s.ctx x).part
    let a := bitsOf d 115 64
    let n := bitsOf d 135 128
    let load := Instr.loadImage q k img
    let empty := n < 16 ∧ (s.slot x n).state = .empty
    let readable := a % 4096 = 0 ∧ isTarn a = false ∧ s.dmaSide x a 0x2000 false = true ∧ (headerOk img = true → s.dmaSide x a (imgBytes img) false = true)
    let ls := img.manifest.layouts
    let fits := (s.layoutChoices x img).filter (fun i => match ls[i]? with | some l => s.layoutFits p l | none => false)
    let taken := fits.any (fun i => s.handlesTaken x p (ls.getD i []))
    let room := fits.findSome? (fun i => (s.reserve x p img (ls.getD i [])).map (fun r => (i, r)))
    (¬ empty → Ends s load q k stRejected 0x0813 0) ∧
    (empty → a % 4096 ≠ 0 → Ends s load q k stAlign (Config.statusCode stAlign % 65536) 0) ∧
    (empty → a % 4096 = 0 → ¬ readable → Ends s load q k stAddress (Config.statusCode stAddress % 65536) 0) ∧
    (empty → readable →
      (headerOk img = false → Ends s load q k stRejected 0x0901 0) ∧
      (headerOk img = true → Config.keyHash img.pubKey ≠ imgKeyHash img → Ends s load q k stRejected 0x0902 0) ∧
      (headerOk img = true → Config.keyHash img.pubKey = imgKeyHash img → Config.manifestHash img.manifest ≠ imgManifestHash img →
        Ends s load q k stRejected 0x0903 0) ∧
      (∀ code, s.imageCheck x img = .inl code → Ends s load q k stRejected code 0) ∧
      (∀ key, s.imageCheck x img = .inr key →
        (fits = [] → Ends s load q k stRejected 0x0813 0) ∧
        (fits ≠ [] → taken = true → Ends s load q k stHandle (Config.statusCode stHandle % 65536) 0) ∧
        (fits ≠ [] → taken = false → room = none →
          Ends s load q k stCapacity 0x0907 (s.lacking x p img (ls.getD (fits.headD 0) []))) ∧
        (∀ i r, taken = false → room = some (i, r) →
          ∃ t : State, exec load s = .next t ∧ (t.slot x n).state = .loading ∧ (t.slot x n).layout = i ∧ (t.slot x n).image = some img ∧
            (t.slot x n).contentKey = key ∧ (t.slot x n).handles = r.handles ∧ (t.slot x n).areas = r.areas ∧
            (t.slot x n).staging = some r.staging ∧ (t.slot x n).inFlight = (List.range (imgShards img)).take 4 ∧
            (∀ e, s.prog q k = some e → t.prog q k = some { e with running := true, since := some s.now }) ∧
            (s.isResident x = true → ∀ e ∈ r.handles, ∀ j, j < hCount e.2.2 → t.trow e.1 (handleRow e.2.2 j) = { data := 0, tag := .full }))))) ∧
  ((∀ (q k : Nat) (s : State) (d : Desc), s.startedDesc q k 4 = some d →
    let x := (s.qp q).ctx
    let old := bitsOf d 135 128
    let new := bitsOf d 143 136
    let ok := old < 16 ∧ new < 16 ∧ (s.slot x old).state = .current ∧ (s.slot x new).state = .staged ∧ (s.ctx x).epoch < 0xFFFFFFFF
    (ok → Defers s (.swapImage q k) q k (.swap old new)) ∧ (¬ ok → Ends s (.swapImage q k) q k stRejected 0x0813 0)) ∧
  (∀ (x n : Nat) (s : State),
    let v := s.slot x n
    (v.state = .retiring → s.epochHeld x v.epoch = false → ∃ t : State, exec (.slotRetireRelease x n) s = .next t ∧ t.slot x n = {} ∧
      t.mem = s.mem ∧ (∀ r, v.staging = some r → r ∈ t.zeroRuns) ∧
      ∀ e ∈ v.handles, (s.emptySlot x n).imageHandle x e.1 e.2.1 = false → hCount (t.ctxHandle x e.1 e.2.1) = 0) ∧
    ((v.state ≠ .retiring ∨ s.epochHeld x v.epoch = true) → exec (.slotRetireRelease x n) s = .next s)) ∧
  (∀ (q k : Nat) (s : State) (d : Desc), s.startedCtl q k 2 = some d →
    let x := (s.qp q).ctx
    let p := (s.ctx x).part
    let n := bitsOf d 135 128
    let i := bitsOf d 151 136
    let known := n < 16 ∧ (s.slot x n).state ≠ .empty ∧ ((s.slot x n).layoutOf i).isSome
    let again := State.replaceSlots s x p i ((s.ctx x).slots.filter (fun e => decide (e.2.state ≠ .empty))) [] []
    (¬ known → Ends s (.selectLayout q k) q k stRejected 0x0813 0) ∧
    (known → s.waitsLayout x = false → (s.slot x n).layout = i → Ends s (.selectLayout q k) q k stOk 0 0) ∧
    (known → s.waitsLayout x = false → (s.slot x n).layout ≠ i → Ends s (.selectLayout q k) q k stRejected 0x0813 0) ∧
    (known → s.waitsLayout x = true → again = none → Ends s (.selectLayout q k) q k stRejected 0x0813 0) ∧
    (∀ placed, known → s.waitsLayout x = true → again = some (placed, []) → ∃ t : State, exec (.selectLayout q k) s = .next t ∧ t.tarn = s.tarn ∧
      (t.ctx x).layout = i ∧ (t.ctx x).needLayout = false ∧ (t.part p).scrubbing = true ∧ Completes s t q k stOk 0 0 ∧
      ∃ r, (t.part p).recovery = some r ∧ r.stage = .replaced ∧ r.layoutDeadline = none)) ∧
  (∀ (q k : Nat) (s : State), (s.startedDesc q k 4 = none → exec (.swapImage q k) s = .next s) ∧
    (s.startedCtl q k 2 = none → exec (.selectLayout q k) s = .next s)))

/-- Shards of an image that loads: fetched, copied, late, and written along the chain (R423 to R427, R431, Table 14.6). Follows the model's
choices of notes/assumptions, entries 83 to 84. -/
def Obligations.Shards : Prop :=
  ∀ (x n shard : Nat) (s : State) (m : Image), (s.slot x n).image = some m → s.refetches x n shard = false →
    let v := s.slot x n
    let p := (s.ctx x).part
    let flying := s.loadRuns x n = true ∧ v.inFlight.contains shard = true
    let arrives := fun (t : State) (rows : List Row) => { t with ctxs := s.ctxs } = s ∧ (t.slot x n).fetched = v.fetched ++ [shard] ∧
      Tbl.get (fun _ => []) (t.slot x n).rows shard = rows ∧ (t.slot x n).state = v.state ∧ (t.slot x n).written = v.written
    let fails := fun (t : State) (status code : Nat) => t.tarn = s.tarn ∧ t.slot x n = {} ∧ Completes s t v.q v.k status code 0
    (∀ r rows, flying →
      let fetch := exec (.shardFetchDone x n shard r rows) s
      let tries := Tbl.get (fun _ => 0) v.retries shard
      (shardGood m shard r rows = true → ∃ t : State, fetch = .next t ∧ arrives t rows) ∧
      (shardGood m shard r rows = false → tries < 3 → ∃ t : State, fetch = .next t ∧ NoStore s t ∧ Logged t 0x1908 ∧
        t.slot x n = { v with retries := Tbl.set (fun _ => 0) v.retries shard (tries + 1) }) ∧
      (shardGood m shard r rows = false → 3 ≤ tries → ∃ t : State, fetch = .next t ∧ fails t stIntegrity 0x0909)) ∧
    (∀ r rows, ¬ flying → exec (.shardFetchDone x n shard r rows) s = .next s) ∧
    (∀ y o rows, flying → v.share = true → (s.part p).shareAllow = true → s.shareSource x v = some (y, o) →
      s.copyRows y (s.slot y o) shard (imgRows m shard) = some rows → ∃ t : State, exec (.shardCopyDone x n shard) s = .next t ∧ arrives t rows) ∧
    (s.shareSource x v = none → exec (.shardCopyDone x n shard) s = .next s) ∧
    (∀ e, v.requestTicks.find? (fun e => e.1 == shard) = some e →
      let due := e.2 + (s.part p).shardTimeout * ticksPerMs
      (flying → due ≤ s.now → ∃ t : State, exec (.shardTimeout x n shard) s = .next t ∧ fails t stHost 0x090A) ∧
      (s.now < due → exec (.shardTimeout x n shard) s = .next s)) ∧
    (∀ r,
      let before := (s.part p).chain.takeWhile (fun j => j != r)
      let ready := s.loadRuns x n = true ∧ v.fetched.contains shard = true ∧ v.written.contains (shard, r) = false ∧
        (s.part p).regions.contains r = true ∧ before.all (s.regionServed p v shard) = true
      let w := { v with written := v.written ++ [(shard, r)] }
      let last := (List.range (imgShards m)).all (fun j => v.fetched.contains j && (s.part p).chain.all (s.regionServed p w j))
      let mine := v.extents.filter (fun e => leShard e == shard)
      let rows := Tbl.get (fun _ => []) v.rows shard
      let stored := fun (t : State) => s.isResident x = true → (mine.flatMap (fun e => (List.range (leRows e)).filterMap (s.destOf p v e))).Nodup →
        (∀ e ∈ mine, ∀ j, j < leRows e → ∀ c l, s.destOf p v e j = some (.tarn c l) → l < 16384) →
        ∀ e ∈ mine, ∀ j, j < leRows e → ∀ c l, s.destOf p v e j = some (.tarn c l) → regionOf c = r →
          t.trow c l = { data := rows.getD (leFirstRow e + j) 0, tag := .full }
      (ready → last = false → ∃ t : State, exec (.shardRowsReceived x n shard r) s = .next t ∧ t.slot x n = w ∧ stored t) ∧
      (ready → last = true → ∃ t : State, exec (.shardRowsReceived x n shard r) s = .next (t.boundaryWork p) ∧ stored t ∧
        (t.slot x n).state = .staged ∧ (t.slot x n).staging = none ∧
        (bitOf (s.qp v.q).cfg 32 = false → Completes s t v.q v.k stOk 0 (v.directory % 2 ^ 52 + v.layout * 2 ^ 52))) ∧
      (¬ ready → exec (.shardRowsReceived x n shard r) s = .next s))

/-- The SPDM responder: versions, capabilities, algorithms, certificates, challenges and measurements (R435, R436, R439 to R443, R446, Tables
15.2 and 15.3). The numbers of requests, responses and errors are the model's (notes/assumptions/85.md). SPDM sessions: their keys,
heartbeats, chunks, IDE keys and TDISP (R442, R444, R452, R454). Follows the model's choices of notes/assumptions, entries 85 to 88. -/
def Obligations.Spdm : Prop :=
  (∀ (m : SpdmPath) (s : State),
    let sends := fun (t : State) (code : Nat) (body : List Nat) => { t with out := s.out, sec := s.sec } = s ∧ t.out = s.out ++ [.spdm m code body]
    let asks := fun (i : Instr) => ∃ t : State, exec i s = .next t ∧ t.sec = s.sec ∧ sends t 0x7F [4]
    ((s.pathUp m = false ∨ s.signer = none) → ∀ a slot off len nonce,
      exec (.getVersion m) s = .next s ∧ exec (.getCapabilities m) s = .next s ∧ exec (.negotiateAlgorithms m a) s = .next s ∧
      exec (.getDigests m) s = .next s ∧ exec (.getCertificate m slot off len) s = .next s ∧ exec (.challenge m slot nonce) s = .next s ∧
      exec (.getMeasurements m slot off nonce) s = .next s) ∧
    (∀ die, s.pathUp m = true → s.signer = some die →
      (∃ t : State, exec (.getVersion m) s = .next t ∧ sends t 0x04 [0x13] ∧ m ∈ t.sec.version ∧ m ∉ t.sec.caps ∧ m ∉ t.sec.algs) ∧
      (m ∈ s.sec.version → ∃ t : State, exec (.getCapabilities m) s = .next t ∧ sends t 0x61 [] ∧ m ∈ t.sec.caps) ∧
      (m ∉ s.sec.version → asks (.getCapabilities m)) ∧
      (∀ a, (m ∈ s.sec.caps → a.mldsa65 = true → a.mlkem768 = true → a.sha3 = true → a.aesGcm = true →
          ∃ t : State, exec (.negotiateAlgorithms m a) s = .next t ∧ sends t 0x63 [1, 3] ∧ m ∈ t.sec.algs) ∧
        (m ∈ s.sec.caps → (a.mldsa65 = false ∨ a.mlkem768 = false ∨ a.sha3 = false ∨ a.aesGcm = false) →
          ∃ t : State, exec (.negotiateAlgorithms m a) s = .next t ∧ t.sec = s.sec ∧ sends t 0x7F [1]) ∧
        (m ∉ s.sec.caps → asks (.negotiateAlgorithms m a))) ∧
      (m ∉ s.sec.algs → ∀ slot off len nonce, asks (.getDigests m) ∧ asks (.getCertificate m slot off len) ∧
        asks (.challenge m slot nonce) ∧ asks (.getMeasurements m slot off nonce)) ∧
      (m ∈ s.sec.algs → ∀ slot off len nonce,
        (∃ t : State, exec (.getDigests m) s = .next t ∧ t.sec = s.sec ∧
          sends t 0x01 [3, (Config.digest (natOfBytes (s.chainOf 0))).toNat, (Config.digest (natOfBytes (s.chainOf 1))).toNat]) ∧
        (slot < 2 → ∃ t : State, exec (.getCertificate m slot off len) s = .next t ∧ t.sec = s.sec ∧
          sends t 0x02 ([slot, off] ++ ((s.chainOf slot).drop off).take len)) ∧
        (∃ t : State, exec (.challenge m die nonce) s = .next t ∧ t.sec = s.sec ∧ sends t 0x03 [die, nonce.toNat, Config.sign die nonce.toNat]) ∧
        (slot ≠ die → ∃ t : State, exec (.challenge m slot nonce) s = .next t ∧ t.sec = s.sec ∧ sends t 0x7F [1]) ∧
        (slot ≠ die → ∃ t : State, exec (.getMeasurements m slot off nonce) s = .next t ∧ t.sec = s.sec ∧ sends t 0x7F [1]) ∧
        (∀ index bs, index ≠ 0 → s.blocks m die index = some bs →
          ∃ t : State, exec (.getMeasurements m die index nonce) s = .next t ∧ t.sec = s.sec ∧
            sends t 0x60 (blockBody bs ++ [nonce.toNat, Config.sign die (natOfBytes (nonce.toNat :: blockBody bs))])) ∧
        (∀ index, index ≠ 0 → s.blocks m die index = none → ∃ t : State, exec (.getMeasurements m die index nonce) s = .next t ∧ t.sec = s.sec ∧
          sends t 0x7F [1])))) ∧
  (∀ (m : SpdmPath) (die : Nat) (s : State), s.pathUp m = true → s.signer = some die →
    let sends := fun (t : State) (code : Nat) (body : List Nat) => t.out = s.out ++ [.spdm m code body]
    let others := fun (t : State) (id : Nat) => ∀ e, e.id ≠ id → (e ∈ t.sec.sessions ↔ e ∈ s.sec.sessions)
    (∀ key, m ∈ s.sec.algs → s.sec.sessions.length < 64 → ∃ t : State, exec (.keyExchange m die key) s = .next t ∧ { t with sec := s.sec, out := s.out, fresh := s.fresh } = s ∧
      t.sec.sessions = s.sec.sessions ++ [{ id := s.sec.nextSession, path := m, established := false, last := s.now }] ∧
      ∃ reply, sends t 0x64 [s.sec.nextSession, reply, Config.sign die (natOfBytes [key, reply])]) ∧
    (∀ key, m ∈ s.sec.algs → 64 ≤ s.sec.sessions.length → ∃ t : State, exec (.keyExchange m die key) s = .next t ∧ t.sec = s.sec ∧ sends t 0x7F [0x0A]) ∧
    (∀ slot key, m ∈ s.sec.algs → slot ≠ die → ∃ t : State, exec (.keyExchange m slot key) s = .next t ∧ t.sec = s.sec ∧ sends t 0x7F [1]) ∧
    (∀ slot key, m ∉ s.sec.algs → ∃ t : State, exec (.keyExchange m slot key) s = .next t ∧ t.sec = s.sec ∧ sends t 0x7F [4]) ∧
    (∀ id e, s.session id = some e → e.path = m →
      (e.established = false →
        (∃ t : State, exec (.finish m id true) s = .next t ∧ sends t 0x65 [id] ∧ t.session id = some { e with established := true, last := s.now } ∧ others t id) ∧
        (∃ t : State, exec (.finish m id false) s = .next t ∧ sends t 0x7F [6] ∧ t.session id = none ∧ others t id) ∧
        (∃ t : State, exec (.heartbeat m id) s = .next t ∧ t.sec = s.sec ∧ sends t 0x7F [2])) ∧
      (e.established = true →
        (∃ t : State, exec (.finish m id true) s = .next t ∧ t.sec = s.sec ∧ sends t 0x7F [2]) ∧
        (∃ t : State, exec (.heartbeat m id) s = .next t ∧ sends t 0x68 [id] ∧ t.session id = some { e with last := s.now } ∧ others t id) ∧
        (∃ t : State, exec (.keyUpdate m id) s = .next t ∧ sends t 0x69 [id] ∧
          t.session id = some { e with last := s.now, keyUpdates := e.keyUpdates + 1 } ∧ others t id) ∧
        (∃ t : State, exec (.endSession m id) s = .next t ∧ sends t 0x6C [id] ∧ t.session id = none ∧ others t id) ∧
        (∀ handle seq last, seq = s.nextChunk id handle → ∃ t : State, exec (.chunkSend m id handle seq last) s = .next t ∧
          sends t 0x85 [handle, seq] ∧ t.nextChunk id handle = (if last then 0 else seq + 1)) ∧
        (∀ handle seq last, seq ≠ s.nextChunk id handle → ∃ t : State, exec (.chunkSend m id handle seq last) s = .next t ∧
          sends t 0x7F [1] ∧ t.sec.chunks = s.sec.chunks) ∧
        (∀ handle seq, ∃ t : State, exec (.chunkGet m id handle seq) s = .next t ∧ sends t 0x86 [handle, seq, Config.chunk handle seq]) ∧
        (∀ link stream key, pathLink m = some link → stream ≤ 8 → ∃ t : State, exec (.vendorDefinedRequest m id (.ideKeyProg link stream key)) s = .next t ∧
          sends t 0x7E [stream] ∧ (link, stream, key) ∈ t.sec.ideKeys ∧ ∀ k, (link, stream, k) ∈ t.sec.ideKeys → k = key) ∧
        (∀ f, f < 1024 → f % 64 ≠ 0 → pathLink m = some (fnLink f) →
          ((s.fn f).tdi = .locked → ∃ t : State, exec (.vendorDefinedRequest m id (.tdispStart f)) s = .next t ∧ sends t 0x7E [f] ∧ (t.fn f).tdi = .run) ∧
          ((s.fn f).tdi ≠ .locked → ∃ t : State, exec (.vendorDefinedRequest m id (.tdispStart f)) s = .next t ∧ sends t 0x7F [1] ∧ t.fns = s.fns) ∧
          (∃ t : State, exec (.vendorDefinedRequest m id (.tdispStop f)) s = .next t ∧ sends t 0x7E [f] ∧ (t.fn f).tdi = .unlocked)) ∧
        (∃ t : State, exec (.vendorDefinedRequest m id .other) s = .next t ∧ sends t 0x7F [7])) ∧
      (e.last + 3 * s.heartbeatTicks ≤ s.now → ∃ t : State, exec (.spdmSessionTimeout id) s = .next t ∧ { t with sec := s.sec } = s ∧
        t.session id = none ∧ others t id) ∧
      (s.now < e.last + 3 * s.heartbeatTicks → exec (.spdmSessionTimeout id) s = .next s)) ∧
    (∀ id, s.session id = none → exec (.spdmSessionTimeout id) s = .next s ∧
      ∃ t : State, exec (.heartbeat m id) s = .next t ∧ t.sec = s.sec ∧ sends t 0x7F [2]))

/-- Locked interfaces and the policy fuses (R438, R454, Tables 15.2 and 15.9). Operator debug: sessions, halt, resume and single step, and
what may be read of a sealed context (R61, R63, R457 to R461, Table 15.8). Follows the model's choices of notes/assumptions, entries 85 to
88. -/
def Obligations.InterfacesFusesAndDebug : Prop :=
  ((∀ (f : Nat) (s : State),
    let opened := s.ctxs.any (fun e => e.2.fn == f && decide (e.2.st ≠ .free) && e.2.debugOpen)
    (f < 1024 → f % 64 ≠ 0 → (s.fn f).tdi = .unlocked → opened = false → ∃ t : State, exec (.lockInterface f) s = .next t ∧
      { t with fns := s.fns } = s ∧ t.fn f = { s.fn f with tdi := .locked } ∧ ∀ g, g ≠ f → t.fn g = s.fn g) ∧
    (((s.fn f).tdi ≠ .unlocked ∨ opened = true ∨ f % 64 = 0) → exec (.lockInterface f) s = .next s)) ∧
  (∀ (epoch : Nat) (v : FuseValue) (s : State), (s.signer = none ∨ s.current epoch = false) → exec (.fuseWrite epoch v) s = .next s) ∧
  (∀ (epoch die : Nat) (s : State), s.signer = some die → s.current epoch = true →
    let next := fun (v : FuseValue) (w : Sec) => ∃ t : State, exec (.fuseWrite epoch v) s = .next t ∧ { t with sec := s.sec } = s ∧ t.sec = w
    (∀ h, s.sec.opHashSet = false → next (.operatorKeyHash h) { s.sec with opHashNext := h, opHashSet := true }) ∧
    (∀ h, s.sec.opHashSet = true → exec (.fuseWrite epoch (.operatorKeyHash h)) s = .next s) ∧
    next .cosignRequired { s.sec with cosignNext := true } ∧
    (∀ k, k < 4 → next (.revoke k) { s.sec with revokedNext := s.sec.revokedNext ||| BitVec.ofNat 4 (2 ^ k) }) ∧
    (∀ w : Word, s.sec.svnMinNext.toNat < w.toNat → w.toNat ≤ (s.die die).svn.toNat → next (.svnMin w) { s.sec with svnMinNext := w }) ∧
    (∀ w : Word, (w.toNat ≤ s.sec.svnMinNext.toNat ∨ (s.die die).svn.toNat < w.toNat) → exec (.fuseWrite epoch (.svnMin w)) s = .next s))) ∧
  ((∀ (s : State),
    exec (.debugSessionStart .jtagHarmless) s = .next s ∧
    (s.sec.debugActive = false → ∃ t : State, exec (.debugSessionStart .pewterCommand) s = .next t ∧ NoStore s t ∧ Logged t 0x0A01 ∧
      t.sec.debugActive = true ∧ t.sec.debugSinceReset = true ∧ t.sec.debugCount = satInc s.sec.debugCount ∧ t.sec.debugStart = s.now ∧ t.sec.debugLast = s.now) ∧
    (s.sec.debugActive = true → ∃ t : State, exec (.debugSessionStart .pewterCommand) s = .next t ∧
      { t with sec := s.sec } = s ∧ t.sec = { s.sec with debugLast := s.now }) ∧
    (s.sec.debugActive = true → s.sec.debugLast + 60 * ticksPerS ≤ s.now → ∃ t : State, exec .debugSessionEnd s = .next t ∧
      { t with sec := s.sec } = s ∧ t.sec = { s.sec with debugActive := false }) ∧
    ((s.sec.debugActive = false ∨ s.now < s.sec.debugLast + 60 * ticksPerS) → exec .debugSessionEnd s = .next s)) ∧
  (∀ (c : Nat) (s : State), s.sec.debugActive = true →
    let v := s.cl c
    let only := fun (t : State) => { t with sec := s.sec, clusters := s.clusters } = s ∧ ∀ d, d ≠ c → t.cl d = s.cl d
    (haltable v = true → ∃ t : State, exec (.debugHalt (.cluster c)) s = .next t ∧ only t ∧
      t.cl c = { v with st := .halted, haltedFrom := v.st, stepOne := false }) ∧
    (haltable v = false → ∃ t : State, exec (.debugHalt (.cluster c)) s = .next t ∧ only t ∧ t.cl c = v) ∧
    (v.st = .halted → (∃ t : State, exec (.debugResume (.cluster c)) s = .next t ∧ only t ∧ t.cl c = { v with st := v.haltedFrom, haltedFrom := .off }) ∧
      (∃ t : State, exec (.debugSingleStep (.cluster c)) s = .next t ∧ only t ∧
        t.cl c = { v with st := v.haltedFrom, haltedFrom := .off, stepOne := true }))) ∧
  (∀ (n : Nat) (s : State), n < 384 → s.sec.debugActive = true →
    (∃ t : State, exec (.debugHalt (.core n)) s = .next t ∧ { t with sec := s.sec, cores := s.cores } = s ∧ (t.core n).halted = true) ∧
    (∃ t : State, exec (.debugResume (.core n)) s = .next t ∧ { t with sec := s.sec, cores := s.cores } = s ∧ (t.core n).halted = false) ∧
    ((s.core n).halted = true → ∃ t : State, exec (.debugSingleStep (.core n)) s = .next t ∧ { t with sec := s.sec, cores := s.cores } = s ∧
      (t.core n).stepOne = true)) ∧
  (∀ (c : Nat) (s : State), s.sec.debugActive = true →
    let shows := fun (o : DebugObject) (v : Row) => ∃ t : State, exec (.debugRead o) s = .next t ∧ { t with sec := s.sec, out := s.out } = s ∧
      t.out = s.out ++ [.debug o v]
    let hides := fun (o : DebugObject) (x : Nat) => ∃ t : State, exec (.debugRead o) s = .next t ∧ NoStore s t ∧ Output.debug o 0 ∈ t.out ∧
      Logged t 0x0A02 ∧ (t.ctx x).debugReads = satInc (s.ctx x).debugReads
    let open' := ∀ x, s.ctxOf c = some x → (s.ctx x).debugOpen = true
    shows (.clusterState c) (BitVec.ofNat 4096 (s.cl c).st.code) ∧
    shows (.programCounter c) ((s.regsOf c).pc.setWidth 4096) ∧
    (open' → ∀ i, i < 64 → shows (.scalar c i) ((Tbl.get (fun _ => (0 : Word)) (s.regsOf c).s i).setWidth 4096) ∧
      shows (.rowRegister c i) (Tbl.get (fun _ => (0 : Row)) (s.regsOf c).v i) ∧ shows (.predicate c) ((s.regsOf c).p.setWidth 4096)) ∧
    (∀ x, s.ctxOf c = some x → (s.ctx x).debugOpen = false → ∀ i lane b row, (s.rowTag c row ≠ .held → s.rowTag c row ≠ .poisoned →
      hides (.scalar c i) x ∧ hides (.predicate c) x ∧ hides (.rowRegister c i) x ∧ hides (.rowMask c i) x ∧ hides (.accumulator c i lane) x ∧
      hides (.weightBank c b) x ∧ hides (.tarnRow c row) x)) ∧
    (∀ row, open' → s.rowTag c row ≠ .held → s.rowTag c row ≠ .poisoned → shows (.tarnRow c row) (s.trow c row).data) ∧
    (∀ addr,
      let a := addr / 64 * 64
      let pg := s.page (a / 4096)
      let data := BitVec.ofNat 512 (s.readNat a 64)
      (pg.use = .mapped → (s.ctx pg.owner).debugOpen = true → shows (.page addr) (data.setWidth 4096)) ∧
      (pg.use = .mapped → (s.ctx pg.owner).debugOpen = false → ∃ t : State, exec (.debugRead (.page addr)) s = .next t ∧ NoStore s t ∧
        Output.debug (.page addr) ((Config.cipher pg.key a data).setWidth 4096) ∈ t.out ∧
        (t.ctx pg.owner).debugReads = satInc (s.ctx pg.owner).debugReads)) ∧
    (∃ t : State, exec (.debugRead .key) s = .next t ∧ t.out = s.out)))

/-- The budget exchange between stewards and the lease holder (R26, R285, R470 to R474, Tables 16.5 and 16.6). The power granted within the
limits is free (notes/assumptions/2.md). Follows the model's choices of notes/assumptions, entries 89 to 92. -/
def Obligations.BudgetExchange : Prop :=
  (∀ (r : Nat) (req : Word) (s : State), r < 16 → bitsOf req 3 0 = r → s.holder.isSome →
    ∃ t : State, exec (.budgetReq r req) s = .next t ∧ NoStore s t ∧ t.clusters = s.clusters ∧ (t.region r).budget.seq = bitsOf req 15 4 ∧
      (t.region r).budget.measured = bitsOf req 31 16 ∧ (t.region r).budget.forecast = bitsOf req 47 32 ∧
      (t.powerHeld r = false → ∃ g m, Output.budgetGrant r (bitsOf req 15 4) g m s.mgt.epoch ∈ t.out ∧ (t.region r).budget.issued = g ∧
        baseOf r ≤ g ∧ g ≤ max (baseOf r) (t.roomFor r) ∧ t.capOf r ≤ m ∧ m ≤ 8)) ∧
  (∀ (r : Nat) (req : Word) (s : State), (16 ≤ r ∨ bitsOf req 3 0 ≠ r ∨ s.holder = none) → exec (.budgetReq r req) s = .next s) ∧
  (∀ (r : Nat) (g : BitVec 96) (s : State), r < 16 → bitsOf g 3 0 = r → bitsOf g 63 36 = 0 →
    let e := bitsOf g 95 64
    let v := s.region r
    (e < v.epoch → ∃ t : State, exec (.budgetGrant r g) s = .next t ∧ { t with regions := s.regions } = s ∧
      t.region r = { v with epochRejects := v.epochRejects + 1 } ∧ ∀ q, q ≠ r → t.region q = s.region q) ∧
    (v.epoch ≤ e → (v.part.isSome ∨ s.boot.complete = false) → ∃ t : State, exec (.budgetGrant r g) s = .next t ∧
      { t with regions := s.regions } = s ∧ (∀ q, q ≠ r → t.region q = s.region q) ∧ (t.region r).epoch = e ∧
      (t.region r).budget.grant = bitsOf g 31 16 ∧ (t.region r).budget.maxStep = bitsOf g 35 32 ∧ (t.region r).budget.lastGrant = s.now ∧
      (t.region r).budget.fallback = false) ∧
    (v.epoch ≤ e → v.part = none → s.boot.complete = true → ∃ t : State, exec (.budgetGrant r g) s = .next (t.boundaryStep r) ∧
      { t with regions := s.regions } = s ∧ (t.region r).budget.grant = bitsOf g 31 16 ∧ (t.region r).budget.maxStep = bitsOf g 35 32)) ∧
  (∀ (r : Nat) (s : State), r < 16 →
    let b := (s.region r).budget
    (b.lastGrant + 30000 ≤ s.now → ∃ t : State, exec (.grantTimeout r) s = .next t ∧ NoStore s t ∧ (t.region r).budget.fallback = true ∧
      (t.region r).budget.grant = min b.grant (bitsOf (s.reg 0x700580) 15 0 * 10 / 16) ∧ (b.fallback = false → Logged t 0x1B03)) ∧
    (s.now < b.lastGrant + 30000 → exec (.grantTimeout r) s = .next s)) ∧
  (∀ (excess : Bool) (g : Nat), nextGating false g = 0 ∧ nextGating true 0 = 8 ∧ nextGating true 8 = 4 ∧ nextGating true 4 = 2 ∧ nextGating excess 2 = (if excess then 2 else 0))

/-- Frames of the BPM link and what the lease holder sends on it (R464, R465, R475 to R480, R515, Tables 16.7 to 16.9). Follows the model's
choices of notes/assumptions, entries 89 to 92. -/
def Obligations.BpmFrames : Prop :=
  ∀ (port : Nat) (f : BitVec 256) (s : State), port < 2 →
    let drops := fun (i : Instr) => ∃ t : State, exec i s = .next t ∧ { t with bpm := s.bpm } = s ∧ t.bpm = { s.bpm with discards := satInc s.bpm.discards }
    (frameOk f 1 = false → drops (.status port f)) ∧ (frameOk f 2 = false → drops (.telemetry port f)) ∧
    (frameOk f 4 = false → drops (.bpmAck port f)) ∧ (frameOk f 8 = false → drops (.alert port f)) ∧
    (frameOk f 1 = true → ∃ t : State, exec (.status port f) s = .next t ∧ NoStore s t ∧
      t.bpm.segmentsOn = f.extractLsb' 176 8 ∧ t.bpm.senseRails = f.extractLsb' 200 5 ∧ t.bpm.railsOn = f.extractLsb' 205 5 ∧
      t.bpm.available = bitsOf f 223 210 ∧ (port = 0 → t.bpm.lastStatusN = some s.now ∧ t.bpm.lostN = false ∧ t.bpm.lostS = s.bpm.lostS) ∧
      (port = 1 → t.bpm.lastStatusS = some s.now ∧ t.bpm.lostS = false ∧ t.bpm.lostN = s.bpm.lostN) ∧
      (∀ r, r < 16 → (t.region r).senseFault = bitOf f (184 + r)) ∧
      ∀ g, g < 8 → Tbl.get (fun _ => 0) t.bpm.ratings g ≤ 360 ∧ Tbl.get (fun _ => 0) t.bpm.ratings g ≤ max (bitsOf f (48 + 16 * g + 15) (48 + 16 * g))
        (Tbl.get (fun _ => 0) s.bpm.ratings g + (s.now - Tbl.get (fun _ => 0) s.bpm.ratingFrom g) / 2000000)) ∧
    (∀ w, w = bitsOf f 51 48 → frameOk f 2 = true → bitsOf f 223 96 = 0 → w < 8 →
      let mv := bitsOf f 67 52
      let amps := bitsOf f 87 68
      ∃ t : State, exec (.telemetry port f) s = .next t ∧ NoStore s t ∧ Tbl.get (fun _ => 0) t.bpm.volts w = mv ∧ Tbl.get (fun _ => 0) t.bpm.amps w = amps ∧
        t.bpm.temp = bitsOf f 95 88 ∧ ((900 ≤ mv ∧ mv ≤ 1000) → w ∉ t.bpm.capSegs) ∧ ((mv < 900 ∨ 1000 < mv) → w ∈ t.bpm.capSegs ∧ Logged t 0x0B04) ∧
        Tbl.get (fun _ => 0) t.bpm.cut w = (amps * 95 - 1100 * s.rating w + 999) / 1000) ∧
    (∀ w, w = bitsOf f 51 48 → frameOk f 2 = true → bitsOf f 223 96 = 0 → 8 ≤ w → w ≤ 12 →
      ∃ t : State, exec (.telemetry port f) s = .next t ∧ { t with bpm := s.bpm, mgt := s.mgt } = s ∧ Tbl.get (fun _ => 0) t.bpm.volts w = bitsOf f 67 52 ∧
        t.bpm.capSegs = s.bpm.capSegs) ∧
    (frameOk f 4 = true → bitsOf f 63 56 ≤ 2 →
      (∀ seq op mask, s.bpm.cmdOpen = some (seq, op, mask) → seq = bitsOf f 55 48 → ∃ t : State, exec (.bpmAck port f) s = .next t ∧ { t with bpm := s.bpm } = s ∧
        t.bpm = (if bitsOf f 63 56 = 0 then applyCmd op mask { s.bpm with cmdOpen := none } else { s.bpm with cmdOpen := none })) ∧
      (∀ seq op mask, s.bpm.cmdOpen = some (seq, op, mask) → seq ≠ bitsOf f 55 48 → exec (.bpmAck port f) s = .next s) ∧
      (s.bpm.cmdOpen = none → exec (.bpmAck port f) s = .next s)) ∧
    (frameOk f 8 = true → 1 ≤ bitsOf f 55 48 → bitsOf f 55 48 ≤ 4 → ∃ t : State, exec (.alert port f) s = .next t ∧ { t with bpm := s.bpm } = s ∧
      t.bpm = { s.bpm with fault := some (bitsOf f 55 48, bitsOf f 63 56) }) ∧
    (∀ v, s.holder = some v → ∃ t : State, exec .keepalive s = .next t ∧ { t with bpm := s.bpm, mgt := s.mgt, out := s.out } = s ∧
      t.bpm = { s.bpm with keepaliveTick := s.now } ∧ t.out = s.out ++ [.keepalive s.mgt.epoch, .voteReq v .bpm 2 s.mgt.epoch true s.now] ∧
      (s.mgt.bpmVote.holder = some v → t.mgt.bpmVote.lastRenew = s.now)) ∧
    (s.holder = none → exec .keepalive s = .next s) ∧
    (let last := if port = 0 then s.bpm.lastStatusN else s.bpm.lastStatusS
     let lost := if port = 0 then s.bpm.lostN else s.bpm.lostS
     (lost = false → last.getD 0 + 30000 ≤ s.now → ∃ t : State, exec (.bpmStatusTimeout port) s = .next t ∧ NoStore s t ∧ Logged t 0x1B03 ∧
       (port = 0 → t.bpm.lostN = true ∧ t.bpm.lostS = s.bpm.lostS) ∧ (port = 1 → t.bpm.lostS = true ∧ t.bpm.lostN = s.bpm.lostN)) ∧
     ((lost = true ∨ s.now < last.getD 0 + 30000) → exec (.bpmStatusTimeout port) s = .next s))

/-- Failing power, the removal of the rails, and regions that go Dark of themselves (R467 to R469, R478 to R480, R499, R520, R547, R582,
Tables 16.4 and 16.9). Follows the model's choices of notes/assumptions, entries 89 to 92. -/
def Obligations.PowerFaults : Prop :=
  ∀ (s : State),
    let holds := fun (t : State) => ∀ r, r < 16 → (s.region r).pstate = .run → (t.region r).pstate = .hold
    let removes := fun (i : Instr) => (s.bpm.killed = false → ∃ t : State, exec i s = .next t ∧ Output.killLine ∈ t.out ∧ t.bpm.killed = true ∧
        t.bpm.segmentsOn = 0 ∧ t.bpm.railsOn = 0x08 ∧ t.bpm.railsWanted = false ∧ t.net = [] ∧ (∀ r, r < 16 → (t.region r).pstate = .dark) ∧
        (∀ l, (t.link l).up = false) ∧ (∀ c n, c < 4608 → n < 16384 → t.trow c n = {}) ∧ ∀ a, a < 16 * s.sliceSize → t.rawByte a = 0) ∧
      (s.bpm.killed = true → exec i s = .next s)
    (s.bpm.railsWanted = true → (∀ k, s.bpm.recommanded = some k → k + ticksPerS ≤ s.now) →
      ∃ t : State, exec .bpmPgFailure s = .next t ∧ NoStore s t ∧ holds t ∧ t.bpm.pg = false ∧ t.bpm.recommanded = some s.now ∧ Logged t 0x1B05 ∧
        (s.bpm.present = true → s.bpm.killed = false → Output.bpmCmd 1 (s.bpm.railsOn.setWidth 8) s.mgt.epoch ∈ t.out)) ∧
    (∀ k, s.bpm.railsWanted = true → s.bpm.recommanded = some k → s.now < k + ticksPerS →
      ∃ t : State, exec .bpmPgFailure s = .next t ∧ NoStore s t ∧ holds t ∧ Logged t 0x5B05 ∧ ∀ l, l < 16 → (t.link l).fatal = true) ∧
    (s.bpm.railsWanted = false → ∃ t : State, exec .bpmPgFailure s = .next t ∧ { t with bpm := s.bpm } = s ∧ t.bpm = { s.bpm with pg := false }) ∧
    (s.bpm.railsWanted = true → s.bpm.present = true → ∃ t : State, exec (.bpmPresentN true) s = .next t ∧ NoStore s t ∧ holds t ∧
      t.bpm.present = false ∧ Logged t 0x5B05 ∧ ∀ l, l < 16 → (t.link l).fatal = true) ∧
    (∀ level, (level = false ∨ s.bpm.railsWanted = false) → ∃ t : State, exec (.bpmPresentN level) s = .next t ∧ { t with bpm := s.bpm } = s ∧
      t.bpm = { s.bpm with present := !level }) ∧
    (∃ t : State, exec .bpmHoldN s = .next t ∧ NoStore s t ∧ holds t ∧ t.bpm.hold = true ∧
      (s.bpm.hold = false → ∀ l, l < 16 → (t.link l).mgmtLost = true)) ∧
    removes .pnlKillN ∧ (∀ r site, removes (.junctionKillComparator r site)) ∧
    (∀ r, r < 16 → (s.region r).pstate ≠ .dark → (s.region r).part = none →
      ∃ t : State, exec (.overcurrentTrip r) s = .next t ∧ (t.region r).pstate = .dark ∧ (t.region r).inService = false ∧
        (t.region r).darkTrips = min 3 ((s.region r).darkTrips + 1) ∧ (t.hbm (2 * r)).failed = true ∧ (t.hbm (2 * r + 1)).failed = true ∧
        (∀ c n, c < 4608 → n < 16384 → t.trow c n = if regionOf c = r then {} else s.trow c n) ∧
        ∀ a, r * s.sliceSize ≤ a → a < (r + 1) * s.sliceSize → t.rawByte a = 0) ∧
    (∀ r p, r < 16 → (s.region r).pstate ≠ .dark → (s.region r).part = some p →
      ∃ t : State, exec (.overcurrentTrip r) s = .next t ∧ (t.region r).pstate = .dark ∧ (t.hbm (2 * r)).failed = true) ∧
    (∀ r, (s.region r).pstate = .dark → exec (.overcurrentTrip r) s = .next s) ∧
    (∀ r k, r < 16 → k < 64 → bitOf (s.region r).phases k = false →
      let w := (s.region r).phases ||| BitVec.ofNat 64 (2 ^ k)
      (phaseDark w = false → ∃ t : State, exec (.phaseFailure r k) s = .next t ∧ NoStore s t ∧ Logged t 0x1B01 ∧
        t.region r = { s.region r with phases := w } ∧ ∀ q, q ≠ r → t.region q = s.region q) ∧
      (phaseDark w = true → (s.region r).part = none → ∃ t : State, exec (.phaseFailure r k) s = .next t ∧ (t.region r).pstate = .dark)) ∧
    (∀ r k, bitOf (s.region r).phases k = true → exec (.phaseFailure r k) s = .next s) ∧
    (∃ t : State, exec .bpmPgRise s = .next t ∧ { t with bpm := s.bpm, boot := s.boot, regions := s.regions } = s ∧ t.bpm = { s.bpm with pg := true } ∧
      ∀ r, r < 16 → (s.region r).pstate = .hold → (s.region r).causes = [.bpmPg] → (t.region r).pstate = .run)

/-- The soft start of a region (R75, R64, R481 to R484). Hold, Quiet, Park and Dark on command (R62, R485 to R488, R26, Tables 16.11 and
16.13). Follows the model's choices of notes/assumptions, entries 89 to 92. -/
def Obligations.RegionPowerStates : Prop :=
  (∀ (r : Nat) (s : State), r < 16 →
    let v := s.region r
    let q := partnerOf r
    let onlyRegions := fun (t : State) => { t with regions := s.regions } = s ∧ ∀ k, k ≠ r → k ≠ q → t.region k = s.region k
    (v.pstate = .dark → v.part = none → v.darkTrips < 2 → v.soft = none → s.bpm.killed = false →
      ∃ t : State, exec (.regionPowerUp r) s = .next t ∧ onlyRegions t ∧ t.region r = { v with soft := some { started := s.now } }) ∧
    ((v.pstate ≠ .dark ∨ v.part.isSome ∨ 2 ≤ v.darkTrips ∨ v.soft.isSome ∨ s.bpm.killed = true) → exec (.regionPowerUp r) s = .next s) ∧
    (v.soft = none → ∀ iseg, exec (.softStartCheck r iseg) s = .next s ∧ exec (.softStartStepDown r) s = .next s ∧
      exec (.softStartAbandon r) s = .next s ∧ exec (.softStartDone r) s = .next s ∧ exec (.regionPowerUpDone r) s = .next s) ∧
    (∀ b, v.soft = some b →
      (∀ iseg, b.begun = none → s.now ≤ b.started + 5 * ticksPerMs → s.admits r iseg = true →
        ∃ t : State, exec (.softStartCheck r iseg) s = .next t ∧ onlyRegions t ∧ t.region r = { v with soft := some { b with begun := some s.now } }) ∧
      (∀ iseg, (b.begun.isSome ∨ s.admits r iseg = false) → exec (.softStartCheck r iseg) s = .next s) ∧
      (b.begun = none → b.partnerDue = false → b.partnerStep = none → b.partnerHeld = false → b.started + 5 * ticksPerMs ≤ s.now →
        (s.region q).pstate = .run → (s.region q).part = none → (s.region q).change = none →
        ∃ t : State, exec (.softStartStepDown r) s = .next t ∧ onlyRegions t ∧
          ((s.region q).step = 8 → (t.region q).pstate = .hold ∧ (t.region r).soft = some { b with partnerHeld := true }) ∧
          ((s.region q).step ≠ 8 → (t.region r).soft = some { b with partnerStep := some (s.region q).step } ∧
            ∃ c, (t.region q).change = some c ∧ c.target = (s.region q).step + 1)) ∧
      (s.now < b.started + 5 * ticksPerMs → exec (.softStartStepDown r) s = .next s) ∧
      (b.begun = none → b.started + bitsOf (s.reg 0x700588) 13 0 * ticksPerMs ≤ s.now → s.inEvent 5 = false →
        ∃ t : State, exec (.softStartAbandon r) s = .next t ∧ NoStore s t ∧ Logged t 0x0B06 ∧ (t.region r).soft = none ∧ (t.region r).pstate = v.pstate) ∧
      (b.begun.isSome → exec (.softStartAbandon r) s = .next s) ∧
      (∀ t0, b.begun = some t0 → b.ramped = false → t0 + 12800 ≤ s.now →
        ∃ t : State, exec (.softStartDone r) s = .next t ∧ t.mem = s.mem ∧ (t.region r).step = 8 ∧ (t.region r).cycle = 0 ∧
          (∀ c n, c < 4608 → n < 16384 → t.trow c n = if regionOf c = r then {} else s.trow c n) ∧
          ∃ b', (t.region r).soft = some b' ∧ b'.ramped = true ∧ b'.partnerHeld = false ∧ b'.partnerStep = none) ∧
      (∀ t0, b.begun = some t0 → s.now < t0 + 12800 → exec (.softStartDone r) s = .next s) ∧
      (b.ramped = true → b.bootStage = 0 → s.inEvent 5 = false → ∃ t : State, exec (.regionPowerUpDone r) s = .next t ∧ NoStore s t ∧
        (t.region r).soft = none ∧ (t.region r).inService = true ∧ (t.hbm (2 * r)).trained = true ∧ (t.hbm (2 * r + 1)).trained = true ∧
        (s.cool.response = .none → s.bpm.hold = false → (t.region r).pstate = .run) ∧
        ∀ c, c < 4608 → regionOf c = r → s.vacant c = false → (s.cl c).st ≠ .failed → (t.cl c).st = .idle) ∧
      (b.ramped = false → exec (.regionPowerUpDone r) s = .next s))) ∧
  (∀ (r e : Nat) (s : State), r < 16 →
    let v := s.region r
    let others := fun (t : State) => ∀ k, k ≠ r → t.region k = s.region k
    let stale := fun (i : Instr) => ∃ t : State, exec i s = .next t ∧ { t with regions := s.regions } = s ∧ others t ∧
      t.region r = { v with epochRejects := v.epochRejects + 1 }
    (e < v.epoch → stale (.holdEntry r e) ∧ stale (.quietEntry r e) ∧ stale (.parkEntry r e) ∧ stale (.parkExit r e) ∧ stale (.darkCommand r e)) ∧
    (v.epoch ≤ e →
      (v.pstate = .run → ∃ t : State, exec (.holdEntry r e) s = .next t ∧ { t with regions := s.regions } = s ∧ others t ∧
        t.region r = { v with epoch := e, pstate := .hold, causes := [.command] }) ∧
      ((v.pstate = .run ∨ v.pstate = .hold) → ∃ t : State, exec (.quietEntry r e) s = .next t ∧ NoStore s t ∧ others t ∧ (t.region r).pstate = .quiet ∧
        (t.hbm (2 * r)).selfRefresh = true ∧ (t.hbm (2 * r + 1)).selfRefresh = true ∧
        (∀ c, regionOf c = r → (t.regsOf c) = {} ∧ (t.cl c).eng = {} ∧ (t.cl c).ahead = {} ∧ (t.cl c).handles = (s.cl c).handles) ∧
        ∀ c, regionOf c ≠ r → t.cl c = s.cl c) ∧
      ((v.pstate = .park ∨ v.pstate = .dark) → ∃ t : State, exec (.quietEntry r e) s = .next t ∧ { t with regions := s.regions } = s ∧
        t.region r = { v with epoch := e }) ∧
      ((v.pstate = .run ∨ v.pstate = .hold) → v.part = none → s.parkBlocked r = false → ∃ t : State, exec (.parkEntry r e) s = .next t ∧
        t.tarn = s.tarn ∧ others t ∧ (t.region r).pstate = .park ∧ (t.region r).causes = [] ∧
        (∀ c, regionOf c = r → (s.cl c).st ≠ .failed → (t.cl c).st = .off ∧ (t.cl c).handles = (s.cl c).handles ∧ t.regsOf c = {}) ∧
        (∀ a, r * s.sliceSize ≤ a → a < (r + 1) * s.sliceSize → t.rawByte a = 0) ∧
        ∀ a, (a < r * s.sliceSize ∨ (r + 1) * s.sliceSize ≤ a) → t.rawByte a = s.rawByte a) ∧
      ((v.pstate = .run ∨ v.pstate = .hold) → s.parkBlocked r = true → ∃ t : State, exec (.parkEntry r e) s = .next t ∧ NoStore s t ∧
        Logged t 0x0B06 ∧ (t.region r).pstate = v.pstate ∧ (t.region r).blocker = s.parkBlocker r) ∧
      (v.pstate = .park → s.bpm.hold = false → ∃ t : State, exec (.parkExit r e) s = .next t ∧ NoStore s t ∧ (t.region r).pstate = .run ∧
        ∀ c, c < 4608 → regionOf c = r → s.vacant c = false → (s.cl c).st ≠ .failed → (t.cl c).st = .idle) ∧
      (v.part = none → v.pstate ≠ .dark → ∃ t : State, exec (.darkCommand r e) s = .next t ∧ others t ∧ (t.region r).pstate = .dark ∧ (t.region r).step = 8 ∧
        (t.region r).cycle = 0 ∧ (∀ c n, c < 4608 → n < 16384 → t.trow c n = if regionOf c = r then {} else s.trow c n) ∧
        (∀ c, regionOf c = r → (t.cl c).health = (s.cl c).health ∧ t.regsOf c = {} ∧ (t.cl c).st = (if (s.cl c).st = .failed then .failed else .off)) ∧
        ∀ a, r * s.sliceSize ≤ a → a < (r + 1) * s.sliceSize → t.rawByte a = 0) ∧
      (v.part.isSome → ∃ t : State, exec (.darkCommand r e) s = .next t ∧ { t with regions := s.regions } = s ∧ t.region r = { v with epoch := e })) ∧
    (v.pstate = .quiet → v.causes = [.command] → s.bpm.hold = false → v.part = none → ∃ t : State, exec (.quietExit r) s = .next t ∧ NoStore s t ∧
      (t.region r).pstate = .run ∧ (t.hbm (2 * r)).selfRefresh = false ∧ t.clusters = s.clusters) ∧
    (v.pstate ≠ .quiet → exec (.quietExit r) s = .next s))

/-- Junction and stack sensors, throttling, and the hard trip (R491 to R499, Tables 17.2 and 17.3). Follows the model's choices of
notes/assumptions, entries 62 to 70, 93. -/
def Obligations.ThermalControl : Prop :=
  (∀ (r site hot : Nat) (a b : Int) (s : State), r < 16 →
    let k := hotKey site hot
    let old := s.hotSpot r k
    let va := sampleValid a old.diodePrev
    let vb := sampleValid b old.ringPrev
    let v := takeSample s.now s.throttleC a b old
    ∃ t : State, exec (.junctionSample r site hot a b) s = .next t ∧ t.tarn = s.tarn ∧
      (t.hotSpot r k).reading = (if va && vb then max a b else if va then a + 40 else if vb then b + 40 else (s.throttleC : Int) * 8) ∧
      (t.hotSpot r k).filtered = ((old.recent ++ [(t.hotSpot r k).reading]).drop (old.recent.length + 1 - 4)).sum /
        (min 4 (old.recent.length + 1) : Nat) ∧
      (∀ j, j ≠ k → t.hotSpot r j = s.hotSpot r j) ∧
      (old.throttleTick = none → (s.throttleC : Int) * 8 ≤ v.filtered →
        (t.region r).thermalCap = max (s.region r).thermalCap (min 8 ((s.region r).step + 1)) ∧ (t.region r).capTick = s.now ∧
        (t.region r).budget.gating ≠ 0) ∧
      (v.filtered < (s.throttleC : Int) * 8 → (t.region r).thermalCap = (s.region r).thermalCap ∧ (t.hotSpot r k).throttleTick = none) ∧
      (v.reading < 880 → (t.region r).pstate = (s.region r).pstate) ∧
      (880 ≤ v.reading → 1 ≤ old.tripCount → ((s.region r).pstate = .run ∨ (s.region r).pstate = .hold) → (t.region r).pstate = .quiet)) ∧
  (∀ (k : Nat) (c : Int) (s : State), k < 32 →
    let v := s.hbm k
    let r := k / 2
    ∃ t : State, exec (.hbmSensorSample k c) s = .next t ∧ t.tarn = s.tarn ∧
      ((-20 ≤ c ∧ c ≤ 150) → (t.hbm k).temp = c.toNat ∧ (t.hbm k).lastSensor = s.now) ∧
      ((c < -20 ∨ 150 < c) → (t.hbm k).temp = if v.lastSensor + 10 * ticksPerMs ≤ s.now then s.hbmThrottleC else v.temp) ∧
      (t.hbm k).refreshDiv = (if 95 < (t.hbm k).temp then 4 else if 85 < (t.hbm k).temp then 2 else 1) ∧
      ((t.hbm k).throttled = true ↔ s.hbmThrottleC ≤ (t.hbm k).temp) ∧
      ((t.hbm k).throttled = true → v.throttleTick = none → (t.region r).thermalCap = max (s.region r).thermalCap (min 8 ((s.region r).step + 1))) ∧
      (105 ≤ c → c ≤ 150 → 1 ≤ v.tripCount → ((s.region r).pstate = .run ∨ (s.region r).pstate = .hold) → (t.region r).pstate = .quiet)) ∧
  (∀ (r : Nat) (s : State), r < 16 →
    let v := s.region r
    let hot := (∃ e ∈ v.hot, ∃ t, e.2.throttleTick = some t ∧ t + 10 * ticksPerMs ≤ s.now) ∨
      ∃ k, k / 2 = r ∧ ∃ t, (s.hbm k).throttleTick = some t ∧ t + 10 * ticksPerMs ≤ s.now
    (hot → v.capTick + 10 * ticksPerMs ≤ s.now → ∃ t : State, exec (.throttleEscalation r) s = .next t ∧ NoStore s t ∧ Logged t 0x1C02 ∧
      t.region r = { v with thermalCap := min 8 (v.thermalCap + 1), capTick := s.now }) ∧
    ((¬ hot ∨ s.now < v.capTick + 10 * ticksPerMs) → exec (.throttleEscalation r) s = .next s) ∧
    (∀ t0, v.coolTick = some t0 → 0 < v.thermalCap → t0 + 100 * ticksPerMs ≤ s.now → s.coolAt r (v.thermalCap - 1) = true →
      ∃ t : State, exec (.thermalCapRaise r) s = .next t ∧ { t with regions := s.regions } = s ∧
        t.region r = { v with thermalCap := v.thermalCap - 1, coolTick := some s.now }) ∧
    ((v.coolTick = none ∨ v.thermalCap = 0) → exec (.thermalCapRaise r) s = .next s) ∧
    (v.pstate = .quiet → v.causes = [.hardTrip] → v.quietTick + 100 * ticksPerMs ≤ s.now → s.bpm.hold = false → v.part = none →
      (∀ e ∈ v.hot, e.2.reading < 720 ∧ ∀ h ∈ e.2.history, h.2 < 720) →
      ∃ t : State, exec (.hardTripRecovery r) s = .next t ∧ NoStore s t ∧ (t.region r).pstate = .run ∧ (t.region r).thermalCap = 8) ∧
    ((v.pstate ≠ .quiet ∨ .hardTrip ∉ v.causes ∨ s.now < v.quietTick + 100 * ticksPerMs) → exec (.hardTripRecovery r) s = .next s)) ∧
  (∀ (s : State),
    let burning := ∃ r, r < 17 ∧ ∃ e ∈ (s.region r).hot, 880 ≤ e.2.reading
    let due := ∃ r, r < 16 ∧ (s.region r).pstate = .quiet ∧ (.hardTrip ∈ (s.region r).causes ∨ .coolant ∈ (s.region r).causes) ∧
      (s.region r).quietTick + 10 * ticksPerMs ≤ s.now
    (burning → due → ∃ detail, exec .hardTripKillCheck s = .next (s.powerRemoval detail)) ∧
    ((¬ burning ∨ ¬ due) → exec .hardTripKillCheck s = .next s))

/-- Coolant supervision and the responses of Table 17.5 (R500 to R504). Follows the model's choices of notes/assumptions, entries 93. -/
def Obligations.CoolantSupervision : Prop :=
  (∀ (m : Manifold) (s : State),
    let flow := (lowerOf m.flow0 m.flow1 800).getD 0
    let hot := ∃ k, m.outlet = some k ∧ 440 ≤ k
    let weak := s.cool.response = .none ∨ s.cool.response = .cap
    (s.holder = none → exec (.manifoldSample m) s = .next s) ∧
    (s.holder.isSome → ∃ t : State, exec (.manifoldSample m) s = .next t ∧ NoStore s t ∧ t.clusters = s.clusters ∧ t.cool.flow = flow ∧
      t.cool.inlet = m.inlet.getD 320 ∧ t.cool.last = m ∧
      (weak → (flow < 240 ∨ hot) → t.cool.response = .hold ∧ Logged t 0x1C06 ∧
        ∀ r, r < 16 → (s.region r).pstate = .run → (t.region r).pstate = .hold ∧ (t.region r).causes = [.coolant]) ∧
      ((¬ weak ∨ (240 ≤ flow ∧ ¬ hot)) → t.regions = s.regions) ∧
      (weak → 240 ≤ flow → ¬ hot → (flow < 320 ∨ 256 < m.inlet.getD 320 → t.cool.response = .cap) ∧ (t.cool.response = .cap ∨ t.cool.response = .none)) ∧
      (¬ weak → t.cool.response = s.cool.response)) ∧
    (∀ x y : Nat, x ≤ 800 → y ≤ 800 → lowerOf (some x) (some y) 800 = some (min x y) ∧ lowerOf (some x) none 800 = some x)) ∧
  (∀ (s : State),
    (∀ k, s.cool.outletHot = some k → k + 100 * ticksPerMs ≤ s.now → (s.cool.outletSteps = 0 ∨ s.cool.outletTick + 10 * ticksPerMs ≤ s.now) →
      ∃ t : State, exec .outletCapStep s = .next t ∧ NoStore s t ∧ Logged t 0x1C06 ∧
        t.cool = { s.cool with outletSteps := min 8 (s.cool.outletSteps + 1), outletTick := s.now }) ∧
    (s.cool.outletHot = none → exec .outletCapStep s = .next s) ∧
    (∀ k, s.cool.response = .hold → s.cool.goodSince = some k → k + ticksPerS ≤ s.now →
      ∃ t : State, exec .coolantHoldExit s = .next t ∧ { t with cool := s.cool, regions := s.regions } = s ∧ t.cool.response = .cap ∧
        ∀ r, r < 16 → (s.region r).pstate = .hold → (s.region r).causes = [.coolant] → (t.region r).pstate = .run) ∧
    ((s.cool.response ≠ .hold ∨ s.cool.goodSince = none) → exec .coolantHoldExit s = .next s) ∧
    (∀ m pewter, comparatorActs m = true → s.cool.response ≠ .quiet →
      ∃ t : State, exec (.coolantComparator pewter m) s = .next t ∧ t.tarn = s.tarn ∧ t.cool.response = .quiet ∧
        ((∀ p, p < 16 → (s.part p).running = none) → Logged t 0x2C07) ∧
        ∀ r, r < 16 → ((s.region r).pstate = .run ∨ (s.region r).pstate = .hold) → (t.region r).pstate = .quiet) ∧
    (∀ m pewter, (comparatorActs m = false ∨ s.cool.response = .quiet) → exec (.coolantComparator pewter m) s = .next s) ∧
    (∀ k, s.cool.response = .quiet → s.cool.goodSince = some k → k + 5 * ticksPerS ≤ s.now → s.cool.exitTick + 10000 ≤ s.now →
      ((∀ r, r < 16 → (s.region r).pstate = .quiet → .coolant ∉ (s.region r).causes) →
        ∃ t : State, exec .coolantQuietExit s = .next t ∧ { t with cool := s.cool } = s ∧ t.cool.response = .cap) ∧
      (∀ r, r < 16 → (s.region r).pstate = .quiet → (s.region r).causes = [.coolant] →
        (∀ q, q < r → (s.region q).pstate = .quiet → .coolant ∉ (s.region q).causes) → s.bpm.hold = false → (s.region r).part = none →
        ∃ t : State, exec .coolantQuietExit s = .next t ∧ NoStore s t ∧ (t.region r).pstate = .run ∧ (t.region r).thermalCap = 8 ∧
          t.cool.exitTick = s.now ∧ t.cool.response = .quiet)) ∧
    ((s.cool.response ≠ .quiet ∨ s.cool.goodSince = none) → exec .coolantQuietExit s = .next s))

/-- How a voter answers ACQUIRE, RENEW and RELEASE (R513 to R515, Tables 18.1 and 18.3): a live grant of the other Pewter goes first, then the
epoch; an early grant needs in_step, the next epoch and 6 ms without a renewal. A grant lasts 10 ms. Follows the model's choices of
notes/assumptions, entries 94 to 102. -/
def Obligations.LeaseVotes : Prop :=
  ∀ (v cand : Voter) (f : BitVec 256) (s : State),
    let r := s.voterRec v
    let e := bitsOf f 47 16
    let live := r.holder.isSome ∧ s.now < r.termEnd
    let early := bitOf f 56 = true ∧ e = r.epoch + 1 ∧ r.lastRenew + 600000 ≤ s.now
    let answers := fun (i : Instr) (result : Nat) (r' : VoterRec) => ∃ t : State, exec i s = .next t ∧ NoStore s t ∧ t.clusters = s.clusters ∧
      t.voterRec v = r' ∧ (∀ w, w ≠ v → t.voterRec w = s.voterRec w) ∧
      ∃ h left, t.out = s.out ++ [.vote v cand result r'.epoch h (bitsOf f 127 64) left] ∧ left ≤ 10000 ∧
        ((r'.holder.isSome ∧ s.now < r'.termEnd) → h = r'.holder ∧ left = min 10000 ((r'.termEnd - s.now) / 100)) ∧
        (¬(r'.holder.isSome ∧ s.now < r'.termEnd) → h = none ∧ left = 0)
    (voteReqOk f = true → frameFrom f = some cand → s.votes v = true → cand ≠ v →
      (bitsOf f 55 48 = 1 → live → r.holder ≠ some cand → ¬early → answers (.acquire v f) 1 r) ∧
      (bitsOf f 55 48 = 1 → (live → r.holder = some cand ∨ early) → e ≤ r.epoch → answers (.acquire v f) 2 r) ∧
      (bitsOf f 55 48 = 1 → (live → r.holder = some cand ∨ early) → r.epoch < e → answers (.acquire v f) 0
        { epoch := e, holder := some cand, termEnd := s.now + 1000000, lastRenew := s.now }) ∧
      (bitsOf f 55 48 = 2 → live → r.holder = some cand → e = r.epoch → answers (.renew v f) 0 { r with termEnd := s.now + 1000000, lastRenew := s.now }) ∧
      (bitsOf f 55 48 = 2 → ¬(live ∧ r.holder = some cand ∧ e = r.epoch) → answers (.renew v f) 2 r) ∧
      (bitsOf f 55 48 = 3 → live → r.holder = some cand → e = r.epoch → answers (.release v f) 0 { r with holder := none, termEnd := s.now }) ∧
      (bitsOf f 55 48 = 3 → ¬(live ∧ r.holder = some cand ∧ e = r.epoch) → answers (.release v f) 2 r)) ∧
    (∀ i ∈ [Instr.acquire v f, .renew v f, .release v f],
      (voteReqOk f = false → v = .bpm → exec i s = .next s) ∧
      (voteReqOk f = false → v ≠ .bpm → exec i s = .next { s with bpm := { s.bpm with discards := satInc s.bpm.discards } }) ∧
      (voteReqOk f = true → s.votes v = false → exec i s = .next s))

/-- The lease (R511, R512, R516 to R519, Table 18.10): who becomes a candidate, how two grants make a holder, and how the lease is kept, lost
and handed over. That no epoch over 0xFFFFFFFF is sought is R518. Follows the model's choices of notes/assumptions, entries 94 to 102. -/
def Obligations.LeaseLife : Prop :=
  ∀ (s : State) (v : Voter), v ≠ .bpm →
    let o := otherDie v
    let seeks := fun (t : State) (e : Nat) => NoStore s t ∧ t.clusters = s.clusters ∧ (t.pew v).candidate = some e ∧ v ∈ (t.pew v).granted ∧
      (t.pew v).vote.holder = some v ∧ (t.pew v).vote.epoch = e ∧ ∀ w, w ≠ v → ∃ n, Output.voteReq v w 1 e n s.now ∈ t.out
    -- silence, and North's silence at bring-up
    (s.inStepDie = some v → (s.pew v).candidate = none → (s.pew v).noSeekUntil ≤ s.now → s.mgt.heardTick + 600000 ≤ s.now →
      (s.pew v).vote.epoch ≤ (s.pew v).seen → (s.pew v).seen < 0xFFFFFFFF →
      ((s.pew v).vote.live s.now = false ∨ (s.pew v).vote.holder = some v) → ∃ t : State, exec .holderSilence s = .next t ∧ seeks t ((s.pew v).seen + 1)) ∧
    ((s.inStepDie = none ∨ s.now < s.mgt.heardTick + 600000) → exec .holderSilence s = .next s) ∧
    (v = .south → s.mgt.south.booted ∧ s.mgt.south.fuseOk ∧ s.mgt.south.role ≠ .absent ∧ s.mgt.south.role ≠ .holder → s.holder = none → s.boot.event = 3 →
      s.mgt.south.candidate = none → s.mgt.south.noSeekUntil ≤ s.now → s.mgt.heardTick + 2000000 ≤ s.now → s.mgt.south.vote.epoch ≤ s.mgt.south.seen →
      s.mgt.south.seen < 0xFFFFFFFF → s.mgt.south.vote.live s.now = false →
      ∃ t : State, exec .southCandidacy s = .next t ∧ seeks t (s.mgt.south.seen + 1)) ∧
    (s.boot.event ≠ 3 → exec .southCandidacy s = .next s) ∧
    -- a vote
    (∀ (w : Voter) (f : BitVec 256), w ≠ v → voteOk f w = true → (s.pew v).role ≠ .absent →
      let e := bitsOf f 47 16
      (∀ want, (s.pew v).candidate = some want →
        (bitsOf f 55 48 = 0 → e = want → (s.pew v).granted = [v] → (s.pew v).role ≠ .holder → (s.pew o).role ≠ .holder → ∃ t : State, exec (.vote v w f) s = .next t ∧
          NoStore s t ∧ t.holder = some v ∧ t.mgt.epoch = want ∧ t.sec.sessions = [] ∧ Output.keepalive want ∈ t.out ∧ Logged t 0x0D01 ∧
          (∀ r, r < 16 → want ≤ (t.region r).epoch) ∧ ∀ i, i < 8 → want ≤ (t.port i).epoch ∧ want ≤ (t.cxl i).epoch) ∧
        (bitsOf f 55 48 = 1 → ∃ t : State, exec (.vote v w f) s = .next t ∧ { t with mgt := s.mgt } = s ∧ (t.pew v).candidate = none ∧
          (t.pew v).granted = [] ∧ (t.pew v).role = (s.pew v).role ∧ t.pew o = s.pew o) ∧
        (bitsOf f 55 48 = 2 → (s.pew v).retried = false →
          ((s.pew v).vote.live s.now = false ∨ (s.pew v).vote.holder = some v) → (s.pew v).vote.epoch ≤ e → e < 0xFFFFFFFF →
          ∃ t : State, exec (.vote v w f) s = .next t ∧ seeks t (e + 1) ∧ (t.pew v).retried = true)) ∧
      ((s.pew v).candidate = none → (s.pew v).role = .holder → bitsOf f 55 48 = 0 → e = s.mgt.epoch → ∃ t : State, exec (.vote v w f) s = .next t ∧
        { t with mgt := s.mgt } = s ∧ Tbl.get (fun _ => 0) (t.pew v).lastAckEach (voterKey w) = s.now + 1 ∧ t.pew o = s.pew o)) ∧
    (∀ (w : Voter) (f : BitVec 256), w ≠ v → voteOk f w = false → (s.pew v).role ≠ .absent →
      exec (.vote v w f) s = .next { s with bpm := { s.bpm with discards := satInc s.bpm.discards } }) ∧
    -- the holder and its standby
    (s.holder = some v → (s.mgt.lastRenewal + 200000 ≤ s.now → ∃ t : State, exec .leaseRenewal s = .next t ∧ { t with mgt := s.mgt, out := s.out } = s ∧
      t.mgt.lastRenewal = s.now ∧ (∀ w, w ≠ v → Output.voteReq v w 2 s.mgt.epoch true s.now ∈ t.out) ∧
      ((s.pew v).vote.live s.now = true → (s.pew v).vote.holder = some v → (s.pew v).vote.epoch = s.mgt.epoch → (t.pew v).vote.termEnd = s.now + 1000000))) ∧
    (s.holder = some v → s.now < s.mgt.lastRenewal + 200000 → exec .leaseRenewal s = .next s) ∧ (s.holder = none → exec .leaseRenewal s = .next s) ∧
    (s.holder = some v → s.votesHeld v < 2 → (s.pew o).role ≠ .holder → ∃ t : State, exec .leaseLoss s = .next t ∧ NoStore s t ∧ t.holder = none ∧
      (t.pew v).role = .syncing ∧ (t.pew v).noSeekUntil = s.now + 2000000 ∧ t.pew o = s.pew o) ∧
    (s.holder = some v → 2 ≤ s.votesHeld v → exec .leaseLoss s = .next s) ∧
    (s.holder = some v → (s.pew o).role = .inStep → ∃ t : State, exec .mgtLeaseCtlHandover s = .next t ∧ { t with mgt := s.mgt, out := s.out } = s ∧
      t.holder = none ∧ (t.pew v).role = .inStep ∧ (t.pew o).handover = true ∧ ∀ w, w ≠ v → Output.voteReq v w 3 s.mgt.epoch true s.now ∈ t.out) ∧
    (s.holder = some v → (s.pew o).role ≠ .inStep → ∃ t : State, exec .mgtLeaseCtlHandover s = .next t ∧ OnlyReports s t ∧ Logged t 0x0D04) ∧
    ((s.pew v).handover = true → (s.pew o).handover = false → (s.pew v).vote.live s.now = true → (s.pew v).vote.holder = some o → (s.pew v).vote.epoch = s.mgt.epoch →
      s.mgt.epoch ≤ (s.pew v).seen → (s.pew v).seen < 0xFFFFFFFF → ∃ t : State, exec .handoverRecord s = .next t ∧ seeks t ((s.pew v).seen + 1)) ∧
    (s.mgt.north.handover = false → s.mgt.south.handover = false → exec .handoverRecord s = .next s) ∧
    -- the mirror
    (∀ seq, s.standby = some v → ((s.pew v).role = .inStep ∨ (s.pew v).role = .syncing) → seq = s.mgt.ackedSeq + 1 → seq ≤ s.mgt.changeSeq →
      exec (.changeRecord seq) s = .next { s with mgt := { s.mgt with ackedSeq := seq, heardTick := s.now, changeTick := s.now } }) ∧
    (∀ seq, seq ≠ s.mgt.ackedSeq + 1 → exec (.changeRecord seq) s = .next s) ∧
    (s.standby = some v → (s.pew v).role = .inStep → s.mgt.ackedSeq < s.mgt.changeSeq → s.mgt.changeTick + 10000 ≤ s.now → ∃ t : State,
      exec .mirrorAckTimeout s = .next t ∧ NoStore s t ∧ (t.pew v).role = .syncing ∧ Logged t 0x1D03) ∧
    (s.standby = some v → (s.mgt.changeSeq ≤ s.mgt.ackedSeq ∨ s.now < s.mgt.changeTick + 10000) → exec .mirrorAckTimeout s = .next s) ∧
    (s.standby = some v → (s.pew v).role = .syncing → ∃ t : State, exec (.standbySyncDone s.mgt.changeSeq) s = .next t ∧ { t with mgt := s.mgt } = s ∧
      (t.pew v).role = .inStep ∧ t.mgt.ackedSeq = s.mgt.changeSeq ∧ t.mgt.log = s.mgt.log) ∧
    (∀ n, n ≠ s.mgt.changeSeq → exec (.standbySyncDone n) s = .next s)

/-- Management ports, Redfish, partitions, host links, MCTP, telemetry and the console (R384, R385, R521 to R524, Tables 18.6, 18.7 and 20.3).
The value a sensor reads is free (notes/assumptions/2.md). Follows the model's choices of notes/assumptions, entries 94 to 102. -/
def Obligations.ManagementRequests : Prop :=
  ∀ (s : State),
    -- ports
    (∀ i, i < 2 → s.portUp i = true → ∃ t : State, exec (.mgmtPortDown i) s = .next t ∧ NoStore s t ∧ Logged t 0x1D05 ∧ t.portUp i = false ∧
      t.portUp (1 - i) = s.portUp (1 - i) ∧
      t.mgt.activePort = (if s.failover = true ∧ s.mgt.activePort = i then 1 - i else s.mgt.activePort)) ∧
    (∀ i, s.portUp i = false → exec (.mgmtPortDown i) s = .next s) ∧
    (∀ i, i < 2 → ∃ t : State, exec (.mgmtPortUp i) s = .next t ∧ { t with mgt := s.mgt } = s ∧ t.portUp i = true ∧ t.portUp (1 - i) = s.portUp (1 - i)) ∧
    -- Redfish
    (∀ u a, s.holder.isSome → s.mgt.port0 = true ∨ s.mgt.port1 = true → (∀ n, u ≠ .badLogin n) →
      (mayRedfish u a = false → exec (.redfishRequest u a) s = .next (s.emit (.redfish 1))) ∧
      (exec (.redfishRequest u .read) s = .next (s.emit (.redfish 0))) ∧
      (mayRedfish u a = true → a ≠ .read → exec (.redfishRequest u a) s = .next ((s.changed.redfish a).emit (.redfish 0)))) ∧
    (∀ m, s.holder.isSome → s.mgt.port0 = true → (∃ t : State, exec (.redfishRequest .operator (.railOff m)) s = .next t ∧ NoStore s t ∧
        t.out = s.out ++ [.bpmCmd 2 m s.mgt.epoch, .redfish 0] ∧ t.mgt.changeSeq = s.mgt.changeSeq + 1) ∧
      ∃ t : State, exec (.redfishRequest .operator (.segmentOff m)) s = .next t ∧ NoStore s t ∧
        t.out = s.out ++ [.bpmCmd 4 m s.mgt.epoch, .redfish 0] ∧ t.mgt.changeSeq = s.mgt.changeSeq + 1) ∧
    (∀ u a, s.holder = none ∨ (s.mgt.port0 = false ∧ s.mgt.port1 = false) → exec (.redfishRequest u a) s = .next s) ∧
    (∀ n a, s.holder.isSome → s.mgt.port0 = true ∨ s.mgt.port1 = true → s.locked n = false →
      let recent := (s.mgt.logins.filter (fun (e : Nat × Nat) => e.1 == n && decide (s.now < e.2 + 6000000000))).length
      (recent < 4 → ∃ t : State, exec (.redfishRequest (.badLogin n) a) s = .next t ∧ { t with mgt := s.mgt, out := s.out } = s ∧
        t.mgt.locks = s.mgt.locks ∧ (n, s.now) ∈ t.mgt.logins ∧ t.out = s.out ++ [.redfish 1]) ∧
      (4 ≤ recent → ∃ t : State, exec (.redfishRequest (.badLogin n) a) s = .next t ∧ NoStore s t ∧ (n, s.now + 30000000000) ∈ t.mgt.locks ∧
        Logged t 0x0F01 ∧ Output.redfish 1 ∈ t.out)) ∧
    (mayRedfish .readOnly .read = true ∧ mayRedfish .operator .accountChange = false ∧ ∀ a, mayRedfish .administrator a = true ∧
      (a ≠ .read → mayRedfish .readOnly a = false) ∧ (a ≠ .accountChange → mayRedfish .operator a = true)) ∧
    -- partitions and links
    (∀ p rs, p < 16 → s.holder.isSome → (s.part p).formed = false → rs ≠ [] → rs.Nodup →
      (∀ r ∈ rs, r < 16 ∧ (s.region r).inService = true ∧ (s.region r).part = none) → ∃ t : State, exec (.partitionForm p rs) s = .next t ∧ NoStore s t ∧
        t.clusters = s.clusters ∧ (t.part p).formed = true ∧ (t.part p).regions = rs ∧ (t.part p).stepSeq = 1 ∧ (t.part p).journal = [] ∧
        (t.part p).keyGen = s.sec.nextKey ∧ t.sec.nextKey = s.sec.nextKey + 1 ∧ (∀ r ∈ rs, (t.region r).part = some p) ∧
        (∀ r, r < 16 → r ∉ rs → (t.region r).part = (s.region r).part) ∧ ∀ q, q ≠ p → { t.part q with errqs := (s.part q).errqs } = s.part q) ∧
    (∀ p rs, s.formable p rs = false → exec (.partitionForm p rs) s = .next s) ∧
    (∀ p, p < 16 → s.holder.isSome → (s.part p).formed = true → s.ctxsOf p = [] → (∀ r ∈ (s.part p).regions, r < 16) → ∃ t : State,
      exec (.partitionDissolve p) s = .next t ∧ NoStore s t ∧ t.clusters = s.clusters ∧ (t.part p).formed = false ∧
      (∀ r ∈ (s.part p).regions, (t.region r).part = none) ∧ (∀ l, l < 16 → (s.link l).part = some p → (t.link l).part = none) ∧
      ∀ q, q ≠ p → { t.part q with errqs := (s.part q).errqs } = s.part q) ∧
    (∀ p, s.ctxsOf p ≠ [] → exec (.partitionDissolve p) s = .next s) ∧
    (∀ l q, l < 16 → s.holder.isSome → (∀ a, (s.link l).part = some a ∨ q = some a → a < 16 ∧ (s.part a).formed = true ∧ s.ctxsOf a = []) →
      ∃ t : State, exec (.hostLinkBind l q) s = .next t ∧ NoStore s t ∧ t.clusters = s.clusters ∧ t.link l = { s.link l with part := q } ∧
        ∀ k, k ≠ l → t.link k = s.link k) ∧
    (∀ l q a, ((s.link l).part = some a ∨ q = some a) → s.ctxsOf a ≠ [] → exec (.hostLinkBind l q) s = .next s) ∧
    -- messages, telemetry, console
    (∀ len k, 65536 < len ∨ k = .unsupported → exec (.mctpMessage len k) s = .next { s with mgt := { s.mgt with msgDiscards := satInc s.mgt.msgDiscards } }) ∧
    (∀ len, len ≤ 65536 → (s.holder.isSome → exec (.mctpMessage len .pldmBase) s = .next (s.emit (.pldm 0 0)) ∧
      (∀ n, ∃ v, ∃ t : State, exec (.mctpMessage len (.pldmSensor n)) s = .next t ∧ { t with out := s.out, fresh := s.fresh } = s ∧ t.out = s.out ++ [.pldm 2 v])) ∧
      exec (.mctpMessage len .pldmFirmware) s = .next s ∧ exec (.mctpMessage len .spdm) s = .next s) ∧
    (∀ q, s.holder.isSome → q % 8 ≤ 6 → exec (.telemetryPublish q) s = .next (s.emit (.telemetry q (s.fresh? q)))) ∧
    (∀ q, s.holder = none → exec (.telemetryPublish q) s = .next s) ∧
    (∀ len, len ≤ 256 → s.boot.ls18 = true → exec (.uartCommand len true) s = .next (s.emit (.uart 0))) ∧
    (∀ len ro, 256 < len ∨ ro = false → exec (.uartCommand len ro) s = .next s)

/-- Management firmware, its recovery mailbox, and the boot of a die in recovery (R437, R438, R527 to R529). The verdict of a signature is
free (notes/assumptions/2.md). Follows the model's choices of notes/assumptions, entries 94 to 102. -/
def Obligations.FirmwareAndRecovery : Prop :=
  ∀ (s : State),
    (∀ img, (s.holder.isSome ∨ (s.mgt.north.recovery = true ∧ s.mgt.south.recovery = true)) → s.boot.ls18 = true →
      (s.firmwareFail img ≠ none → exec (.firmwareUpdate img) s = .next s) ∧
      (s.firmwareFail img = none → img.readOk = true → img.writeOk = true → ∃ t : State, exec (.firmwareUpdate img) s = .next t ∧ NoStore s t ∧
        t.mgt.flash = some img ∧ t.mgt.activation = true ∧ Logged t 0x0D06 ∧ t.mgt.north = s.mgt.north ∧ t.mgt.south = s.mgt.south) ∧
      (s.firmwareFail img = none → (img.readOk = false ∨ img.writeOk = false) → ∃ t : State, exec (.firmwareUpdate img) s = .next t ∧
        t = { s with mgt := { s.mgt with flash := some img } } ∧ t.flashImage = none)) ∧
    (∀ img, ((s.firmwareFail img = none) ↔ (img.romKey < 4 ∧ bitOf s.sec.revoked img.romKey = false ∧
      Config.verifyFirmware false (Config.romKeyHash img.romKey) img.mfw img.signature = true ∧
      (s.sec.cosign = true → img.cosigKeyHash = s.sec.opHash ∧ Config.verifyFirmware true img.cosigKeyHash img.mfw img.cosignature = true) ∧
      s.sec.svnMin.toNat ≤ img.svn.toNat)) ∧ (s.firmwareFail img = some 3 → img.svn.toNat < s.sec.svnMin.toNat)) ∧
    (∀ n c, n < 2 →
      let v := if n = 0 then Voter.north else Voter.south
      ((s.pew v).recovery = false ∨ s.now < (s.pew v).retryTick + 1000000000 → exec (.bootRetry n c) s = .next s) ∧
      ((s.pew v).recovery = true → (s.pew v).retryTick + 1000000000 ≤ s.now →
        ((c = .selfTestFailed ∨ s.flashImage = none) → ∃ t : State, exec (.bootRetry n c) s = .next t ∧ { t with mgt := s.mgt } = s ∧
          t.pew v = { s.pew v with retryTick := s.now } ∧ t.pew (otherDie v) = s.pew (otherDie v)) ∧
        (∀ m, c = .ok → s.flashImage = some m → s.holder ≠ some v → ∃ t : State, exec (.bootRetry n c) s = .next t ∧ NoStore s t ∧ (t.pew v).recovery = false ∧
          (t.pew v).booted = true ∧ (t.pew v).mfw = m.mfw ∧ t.pew (otherDie v) = s.pew (otherDie v) ∧
          (t.pew v).role = (match s.holder with
            | some h => if (s.pew h).mfw = m.mfw then .syncing else .mismatch
            | none => .syncing)))) ∧
    -- the mailbox
    (∀ len, s.mailboxOpen = true → 1 ≤ len → len ≤ 8388608 → exec (.mgtRcvStart len) s = .next { s with mgt := { s.mgt with mailbox := { state := 1, len := len } } }) ∧
    (∀ len, s.mailboxOpen = false ∨ len = 0 ∨ 8388608 < len → exec (.mgtRcvStart len) s = .next s) ∧
    (∀ w, s.mailboxOpen = true → s.mgt.mailbox.state = 1 → s.mgt.mailbox.offset < s.mgt.mailbox.len →
      exec (.mgtRcvData w) s = .next { s with mgt := { s.mgt with mailbox := { s.mgt.mailbox with offset := s.mgt.mailbox.offset + 1 } } }) ∧
    (∀ w, s.mailboxOpen = false ∨ s.mgt.mailbox.state ≠ 1 ∨ s.mgt.mailbox.len ≤ s.mgt.mailbox.offset → exec (.mgtRcvData w) s = .next s) ∧
    (∀ img, s.mailboxOpen = true → s.mgt.mailbox.state = 1 →
      let ends := fun (st fail : Nat) (fl : Option FirmwareImage) => exec (.mgtRcvCommit img) s = .next
        { s with mgt := { s.mgt with flash := fl, mailbox := { s.mgt.mailbox with state := st, fail := fail } } }
      (s.mgt.mailbox.offset < s.mgt.mailbox.len → ends 0 1 s.mgt.flash) ∧
      (s.mgt.mailbox.len ≤ s.mgt.mailbox.offset → ∀ why, s.firmwareFail img = some why → ends 0 why s.mgt.flash) ∧
      (s.mgt.mailbox.len ≤ s.mgt.mailbox.offset → s.firmwareFail img = none → (img.readOk = false ∨ img.writeOk = false) → ends 0 4 (some img)) ∧
      (s.mgt.mailbox.len ≤ s.mgt.mailbox.offset → s.firmwareFail img = none → img.readOk = true → img.writeOk = true →
        ∃ t : State, exec (.mgtRcvCommit img) s = .next t ∧ NoStore s t ∧ t.mgt.flash = some img ∧ t.mgt.mailbox.state = 3 ∧ t.mgt.mailbox.fail = 0 ∧
          t.mgt.north = {} ∧ t.mgt.south = {} ∧ t.boot.event = 0 ∧ t.boot.stopped = false)) ∧
    (∀ img, s.mailboxOpen = false ∨ s.mgt.mailbox.state ≠ 1 → exec (.mgtRcvCommit img) s = .next s)

/-- The resets of the panel (R540, R541, R560, R576, R582, Tables 16.11, 19.3 and 19.4), of a host port and its links (R378, R532), and the
loss of the low-speed supply. Values a reset leaves where the spec gives none are those of notes/assumptions/6.md. Follows the model's
choices of notes/assumptions, entries 8, 109 to 116. -/
def Obligations.Resets : Prop :=
  ∀ (s : State),
    let cold := fun (t : State) => NoStore State.reset t ∧ { State.reset with
        pending := s.pending, out := s.out, fresh := s.fresh, order := s.order, nextPkt := s.nextPkt, variant36 := s.variant36,
        enabled := s.enabled, hbms := t.hbms, ports := t.ports, bpm := t.bpm, mgt := t.mgt, sec := t.sec, boot := t.boot } = t ∧
      t.mgt = { bpmVote := s.mgt.bpmVote, flash := s.mgt.flash } ∧ t.sec.sessions = [] ∧ t.sec.cosign = s.sec.cosignNext ∧ t.sec.revoked = s.sec.revokedNext ∧
      t.sec.svnMin = s.sec.svnMinNext ∧ t.sec.opHash = s.sec.opHashNext ∧ t.boot.event = 0 ∧ t.boot.complete = false ∧ t.boot.stopped = false ∧
      ∀ k, t.hbm k = { hard := (s.hbm k).hard, harden := (s.hbm k).harden + (s.hbm k).soft }
    let warm := fun (t : State) => NoStore State.reset t ∧ t.pending = s.pending ∧ t.tb.now = s.tb.now ∧ t.tb.ref = s.tb.ref ∧ t.tb.running = s.tb.running ∧
      t.mgt.log = s.mgt.log ∧ t.mgt.flash = s.mgt.flash ∧ t.mgt.epoch = s.mgt.epoch ∧ t.mgt.north = {} ∧ t.mgt.south = {} ∧ t.parts = [] ∧ t.ctxs = [] ∧
      t.net = [] ∧ t.qps = [] ∧ t.boot.event = 0 ∧ t.boot.complete = false ∧ t.boot.stopped = false ∧ t.sec.cosign = s.sec.cosign ∧ t.sec.revoked = s.sec.revoked ∧
      (∀ k, (t.hbm k).hard = (s.hbm k).hard ∧ (t.hbm k).soft = (s.hbm k).soft) ∧
      (∀ r, (t.region r).epoch = (s.region r).epoch ∧ (t.region r).pstate = .dark ∧ (t.region r).part = none) ∧
      ∀ d, (t.domain d).treeDelay = (s.domain d).treeDelay
    (s.boot.ls18 = true → ∃ t : State, exec .coldReset s = .next t ∧ cold t ∧ t.boot.coldHeld = false ∧ t.boot.vaon = true) ∧
    (s.boot.ls18 = false → exec .coldReset s = .next s) ∧
    (∀ n, 10000 ≤ n → ∃ t : State, exec (.pnlPorN n) s = .next t ∧ cold t ∧ t.boot.coldHeld = true ∧ t.boot.vaon = s.boot.vaon) ∧
    (∀ n, n < 10000 → ∀ i ∈ [Instr.pnlPorN n, .pnlWrstN n], exec i s = .next { s with boot := { s.boot with glitch := true } }) ∧
    (∃ t : State, exec .vaonRemoval s = .next t ∧ cold t ∧ t.boot.vaon = false ∧ t.bpm = { present := s.bpm.present }) ∧
    (s.holder.isSome → ∃ t : State, exec .pnlResetCtlCold s = .next t ∧ cold t ∧ t.boot.coldHeld = true) ∧
    (s.holder = none → exec .pnlResetCtlCold s = .next s ∧ exec .pnlResetCtlWarm s = .next s) ∧
    (s.boot.coldHeld = false → s.boot.vaon = true → (∀ n, 10000 ≤ n → ∃ t : State, exec (.pnlWrstN n) s = .next t ∧ warm t) ∧
      (s.holder.isSome → ∃ t : State, exec .pnlResetCtlWarm s = .next t ∧ warm t)) ∧
    ((s.boot.coldHeld = true ∨ s.boot.vaon = false) → (∀ n, 10000 ≤ n → exec (.pnlWrstN n) s = .next s) ∧ exec .pnlResetCtlWarm s = .next s) ∧
    -- the low-speed supply
    (s.boot.ls18 = true → ∃ t : State, exec .lsVdd18Loss s = .next t ∧ NoStore s t ∧ t.boot.ls18 = false ∧ t.tb.xoLost = true ∧ t.tb.aQualified = false) ∧
    (s.boot.ls18 = false → exec .lsVdd18Loss s = .next s) ∧
    exec .lsVdd18Return s = .next { s with boot := { s.boot with ls18 := true }, tb := { s.tb with xoLost := false } } ∧
    -- host ports
    (∀ k ns, k < 8 → 1000 ≤ ns → (s.port k).perst = false → ∃ t : State, exec (.perst k true ns) s = .next t ∧ (t.port k).perst = true ∧
      (t.link (2 * k)).up = false ∧ (t.link (2 * k + 1)).up = false ∧ ∀ j, j < 8 → j ≠ k → t.port j = s.port j) ∧
    (∀ k ns, k < 8 → 1000 ≤ ns → (s.port k).perst = true → ∃ t : State, exec (.perst k false ns) s = .next t ∧ { t with ports := s.ports } = s ∧
      t.port k = { s.port k with perst := false, splitNow := (s.port k).split } ∧ ∀ j, j ≠ k → t.port j = s.port j) ∧
    (∀ k a ns, (8 ≤ k ∨ ns < 1000 ∨ (s.port k).perst = a) → exec (.perst k a ns) s = .next s) ∧
    (∀ l, l < 16 → (s.port (l / 2)).released = true → (s.port (l / 2)).perst = false → (s.port (l / 2)).absent = false →
      (l % 2 = 0 ∨ (s.port (l / 2)).splitNow = true) → ∃ t : State, exec (.hostLinkUp l) s = .next t ∧ { t with links := s.links } = s ∧
        t.link l = { s.link l with up := true } ∧ ∀ j, j ≠ l → t.link j = s.link j) ∧
    (∀ l, ((s.port (l / 2)).released = false ∨ (s.port (l / 2)).perst = true) → exec (.hostLinkUp l) s = .next s)

/-- Bring-up, events 1 to 4 (R31 to R34, R434, R517, R528, R531, R532, R539, Tables 19.1 and 19.2). The number of a failure in the event of a
stopped bring-up is the model's own (notes/assumptions/8.md). Follows the model's choices of notes/assumptions, entries 8, 109 to 116. -/
def Obligations.BringUpAuthority : Prop :=
  ∀ (s : State),
    -- event 1
    (s.inEvent 0 = true ∨ s.inEvent 1 = true → ∀ n c,
      (s.bpm.present = true → n = .ok → c = .ok → s.mgt.north.recovery = false → ∃ t : State, exec (.bootTimebaseStart n c) s = .next t ∧ NoStore s t ∧
        t.boot.event = 2 ∧ t.tb.running = true ∧ t.mgt.north.selfTest = true ∧ t.mgt.south.selfTest = true ∧
        (s.tb.running = false → t.tb.now = 0 ∧ t.tb.ref = .freerun) ∧ (s.tb.running = true → t.tb = s.tb)) ∧
      (s.bpm.present = true → n = .selfTestFailed → c = .ok → s.mgt.south.recovery = false → ∃ t : State, exec (.bootTimebaseStart n c) s = .next t ∧
        NoStore s t ∧ t.boot.event = 2 ∧ t.mgt.north.recovery = true ∧ t.mgt.north.role = .absent ∧ t.mgt.south.selfTest = true ∧ Logged t 0x1D03) ∧
      (s.bpm.present = true → n = .selfTestFailed → c = .selfTestFailed → ∃ t : State, exec (.bootTimebaseStart n c) s = .next t ∧ t.boot.stopped = true ∧
        t.mgt.north.recovery = true ∧ t.mgt.south.recovery = true) ∧
      (s.bpm.present = false → ∃ t : State, exec (.bootTimebaseStart n c) s = .next t ∧ NoStore s t ∧ t.boot.event = 1 ∧ t.tb.running = true ∧ t.mgt = s.mgt)) ∧
    (∀ n c, s.inEvent 0 = false → s.inEvent 1 = false → exec (.bootTimebaseStart n c) s = .next s) ∧
    -- event 2
    (∀ n c, s.inEvent 2 = true → s.holder = none → s.mgt.north.recovery = false → s.mgt.south.recovery = false →
      let area := s.mgt.flash.getD n
      (n.readOk = true → c.readOk = true → area.writeOk = true → s.firmwareFail area = none → ∃ t : State, exec (.bootImageCheck n c) s = .next t ∧ NoStore s t ∧
        t.boot.event = 3 ∧ t.boot.panelMap = standardMap ∧ t.mgt.north.booted = true ∧ t.mgt.south.booted = true ∧ t.mgt.north.mfw = area.mfw ∧ t.mgt.south.mfw = area.mfw) ∧
      (n.readOk = false → c.readOk = true → area.writeOk = true → s.firmwareFail area = none → ∃ t : State, exec (.bootImageCheck n c) s = .next t ∧ NoStore s t ∧
        t.boot.event = 3 ∧ t.mgt.north.recovery = true ∧ t.mgt.north.role = .absent ∧ t.mgt.south.booted = true) ∧
      ((n.readOk = false ∧ c.readOk = false ∨ area.writeOk = false ∨ s.firmwareFail area ≠ none) → ∃ t : State, exec (.bootImageCheck n c) s = .next t ∧
        t.boot.stopped = true ∧ t.mgt.north.recovery = true ∧ t.mgt.south.recovery = true)) ∧
    (∀ n c, s.inEvent 2 = false → exec (.bootImageCheck n c) s = .next s) ∧
    -- event 3
    (∀ fN fS tree, s.inEvent 3 = true → (∀ d, d < 25 → 10 * (tree.getD d (0, 0)).2 ≤ 768) → tree.length = 25 → (∃ r, r < 16 ∧ (s.region r).inService = true) →
      (s.boot.tries ≠ 0 → s.holder.isSome → ∃ t : State, exec (.bootLeaseFormation fN fS tree) s = .next t ∧ NoStore s t ∧ t.mgt = s.mgt ∧ t.boot.event = 4 ∧
        ∀ d, d < 25 → (t.domain d).treeDelay = BitVec.ofNat 24 (tree.getD d (0, 0)).1) ∧
      (s.boot.tries = 0 → s.holder = none → s.fuseFault 16 12 fN (sameSite fN fS) = none → s.mgt.north.booted = true → s.mgt.north.role ≠ .absent →
        s.mgt.north.vote = {} → s.mgt.north.seen = 0 → s.mgt.bpmVote = {} → ∃ t : State, exec (.bootLeaseFormation fN fS tree) s = .next t ∧ NoStore s t ∧
          t.holder = some .north ∧ t.mgt.epoch = 1 ∧ t.boot.event = 4 ∧ ∀ d, d < 25 → (t.domain d).treeDelay = BitVec.ofNat 24 (tree.getD d (0, 0)).1)) ∧
    (∀ fN fS tree, s.inEvent 3 = true → s.boot.tries = 0 → s.fuseFault 16 12 fN (sameSite fN fS) ≠ none → s.fuseFault 16 13 fS (sameSite fS fN) ≠ none →
      ∃ t : State, exec (.bootLeaseFormation fN fS tree) s = .next t ∧ t.boot.stopped = true ∧ t.mgt.north.role = .absent ∧ t.mgt.south.role = .absent) ∧
    (∀ fN fS tree, s.inEvent 3 = false → exec (.bootLeaseFormation fN fS tree) s = .next s) ∧
    -- event 4
    (∀ reports, s.inEvent 4 = true → s.holder.isSome →
      let fuse := fun (r k : Nat) => ((reports.find? (fun (e : DieReport) => e.region == r && e.site == k)).map DieReport.fuse).getD 0
      let bad := fun (r k : Nat) => s.fuseFault r k (fuse r k) (reports.any (fun (e : DieReport) => !(e.region == r && e.site == k) && sameSite (fuse r k) e.fuse)) ≠ none
      (s.bpm.railsWanted = false → s.bpm.present = true → s.bpm.killed = false → s.bpm.pg = false → ∃ t : State, exec (.bootDieCheck reports) s = .next t ∧ NoStore s t ∧
        t.out = s.out ++ [.bpmCmd 1 0x17 s.mgt.epoch] ∧ t.bpm.railsWanted = true ∧ t.boot.railTick = some s.now ∧ t.boot.event = 4) ∧
      (s.bpm.railsWanted = true → s.bpm.pg = true → ¬bad 16 14 → (16, 14) ∉ s.boot.diesOff → ∃ t : State, exec (.bootDieCheck reports) s = .next t ∧ NoStore s t ∧
        ((∃ r, r < 16 ∧ (t.region r).inService = true) → t.boot.event = 5) ∧
        (∀ k, k < 8 → ¬bad 16 k → (t.port k).released = true) ∧ (∀ k, k < 8 → bad 16 k → (t.port k).absent = true ∧ (16, k) ∈ t.boot.diesOff) ∧
        (∀ r k, r < 16 → k < 19 → ¬bad r k → Tbl.get (fun _ => 0xFFFF) t.enabled (r * 19 + k) = (fuse r k).extractLsb' 76 18) ∧
        (∀ r k, r < 16 → k < 19 → bad r k → k ∈ (t.region r).sitesFailed) ∧ (∀ r, r < 16 → bad r 22 → (t.region r).inService = false) ∧
        ∀ r, r < 16 → bad r 19 → (t.region r).cores = false) ∧
      (s.bpm.railsWanted = true → s.bpm.pg = true → bad 16 14 → ∃ t : State, exec (.bootDieCheck reports) s = .next t ∧ t.boot.stopped = true)) ∧
    (∀ reports, s.inEvent 4 = false → exec (.bootDieCheck reports) s = .next s) ∧
    (∀ k, s.boot.railTick = some k → s.inEvent 4 = true → s.bpm.pg = false → k + 10000000 ≤ s.now →
      (s.bpm.recommanded = none → s.bpm.present = true → s.bpm.killed = false → ∃ t : State, exec .railOnPgTimeout s = .next t ∧ NoStore s t ∧
        t.out = s.out ++ [.bpmCmd 1 0x17 s.mgt.epoch] ∧ t.boot.railTick = some s.now ∧ t.bpm.recommanded = some s.now) ∧
      (s.bpm.recommanded.isSome → ∃ t : State, exec .railOnPgTimeout s = .next t ∧ t.boot.stopped = true)) ∧
    ((s.boot.railTick = none ∨ s.bpm.pg = true ∨ s.inEvent 4 = false) → exec .railOnPgTimeout s = .next s)

/-- Bring-up, events 5 to 12 (R247, R285, R292, R343, R353, R484, R531, R534, R535, R537, R538, Table 19.1). Follows the model's choices of
notes/assumptions, entries 8, 109 to 116. -/
def Obligations.BringUpRegions : Prop :=
  ∀ (s : State),
    -- event 5
    (∀ r ok, r < 16 → s.inEvent 5 = true → s.holder.isSome → (s.region r).inService = true →
      ((s.region r).soft = none → s.bpm.killed = false → s.boot.eventTick + 50000 * r ≤ s.now → ∃ t : State, exec (.bootRegionPower r ok) s = .next t ∧ NoStore s t ∧
        (t.region r).soft = some { started := s.now } ∧ (∀ q, q ≠ r → t.region q = s.region q) ∧ t.boot = s.boot) ∧
      ((s.region r).soft = none → s.now < s.boot.eventTick + 50000 * r → exec (.bootRegionPower r ok) s = .next s) ∧
      (∀ b, (s.region r).soft = some b → b.ramped = true → b.bootStage = 0 →
        (ok = true → ∃ t : State, exec (.bootRegionPower r ok) s = .next t ∧ NoStore s t ∧ (t.region r).soft = some { b with bootStage := 1 } ∧
          (∀ c, c < 4608 → regionOf c = r → (t.cl c).st = .reserve) ∧ ∀ c, regionOf c ≠ r → t.cl c = s.cl c) ∧
        (ok = false → ∃ t : State, exec (.bootRegionPower r ok) s = .next t ∧ (t.region r).pstate = .dark ∧ (t.region r).inService = false))) ∧
    (∀ r ok, (16 ≤ r ∨ s.inEvent 5 = false ∨ s.holder = none ∨ (s.region r).inService = false) → exec (.bootRegionPower r ok) s = .next s) ∧
    -- events 6 and 7
    (∀ r vs b, r < 16 → s.inEvent 6 = true → (s.region r).inService = true → (s.region r).soft = some b → b.bootStage < 2 →
      ∃ t : State, exec (.neighbourTest r vs) s = .next t ∧ t.mem = s.mem ∧ t.clusters = s.clusters ∧ (t.region r).soft = some { b with bootStage := 2 } ∧
        (∀ c n, c < 4608 → regionOf c = r → n < 16384 → t.trow c n = {}) ∧ (∀ c n, c < 4608 → regionOf c ≠ r → n < 16384 → t.trow c n = s.trow c n) ∧
        (∀ k p, k < 19 → p < 18 → k ∉ (s.region r).sitesFailed → (p ∈ badTesters (siteVerdicts vs k) ∨
          2 ≤ failuresOf (onTarget ((siteVerdicts vs k).filter (fun v => !(badTesters (siteVerdicts vs k)).contains v.tester)) p) TestResult.isFail) →
          (k, p) ∈ (t.region r).condemned) ∧
        (∀ k p, k < 19 → (∀ v ∈ siteVerdicts vs k, v.result = .pass) → (k, p) ∈ (t.region r).condemned → (k, p) ∈ (s.region r).condemned) ∧
        ∀ x ∈ (s.region r).condemned, x ∈ (t.region r).condemned) ∧
    (∀ r vs, (16 ≤ r ∨ s.inEvent 6 = false ∨ (s.region r).inService = false) → exec (.neighbourTest r vs) s = .next s) ∧
    (∀ r b, r < 16 → s.inEvent 7 = true → (s.region r).inService = true → (s.region r).soft = some b → b.bootStage < 3 →
      ∃ t : State, exec (.spareMapping r) s = .next t ∧ NoStore s t ∧ (t.region r).soft = some { b with bootStage := 3 } ∧
        (∀ c, c < 4608 → regionOf c = r → (t.cl c).st = (if t.vacant c = true then .off else .idle)) ∧ (∀ c, regionOf c ≠ r → t.cl c = s.cl c) ∧
        (∀ l, l < 288 → entryState (t.cmapEntry r l) ≠ 2 → positionOk (t.region r) (entrySite (t.cmapEntry r l)) (entryPos (t.cmapEntry r l)) = true) ∧
        ∀ l, l < 288 → entryCount (t.cmapEntry r l) = 0 ∧
          (entryState (s.factoryEntry r l) = 0 → positionOk (s.region r) (entrySite (s.factoryEntry r l)) (entryPos (s.factoryEntry r l)) = true →
            t.cmapEntry r l = s.factoryEntry r l)) ∧
    (∀ r, (16 ≤ r ∨ s.inEvent 7 = false ∨ (s.region r).inService = false) → exec (.spareMapping r) s = .next s) ∧
    -- events 8 to 11
    (∀ ls, s.inEvent 8 = true → (∃ r, r < 16 ∧ (s.region r).inService = true) →
      (∀ x, x < 220 → s.crossingLive x = true → ∃ ms, ls.find? (fun (e : Nat × List Nat) => e.1 == x) = some (x, ms) ∧ 24 ≤ ms.length ∧ ∀ m ∈ ms, m ≤ 10) →
      ∃ t : State, exec (.bootCrossingCalibration ls) s = .next t ∧ NoStore s t ∧ t.regions = s.regions ∧ t.boot.event = 9 ∧
        ∀ x ms, x < 220 → s.crossingLive x = true → ls.find? (fun (e : Nat × List Nat) => e.1 == x) = some (x, ms) →
          (t.xing x).latency = max 3 (ms.foldl max 0 + 2) ∧ (t.xing x).calibrating = false) ∧
    (∀ ls, s.inEvent 8 = false → exec (.bootCrossingCalibration ls) s = .next s) ∧
    (∀ failed r, s.inEvent 9 = true → r < 16 → (s.region r).inService = true →
      let a := (s.hbm (2 * r)).failed || failed.contains (2 * r)
      let b := (s.hbm (2 * r + 1)).failed || failed.contains (2 * r + 1)
      (a && b) = false → ∃ t : State, exec (.bootHbmTraining failed) s = .next t ∧ t.boot.event = 10 ∧ (t.region r).pstate = s.wakeState.1 ∧
        (t.region r).soft = none ∧ (t.region r).upperUnmapped = (a || b) ∧ (t.hbm (2 * r)).trained = !a ∧ (t.hbm (2 * r + 1)).trained = !b ∧
        (∀ k, k < 32 → (t.hbm k).failed = ((s.hbm k).failed || failed.contains k) ∧ (t.hbm k).hard = (s.hbm k).hard + (s.hbm k).harden) ∧
        ∀ x, r * s.sliceSize ≤ x → x < (r + 1) * s.sliceSize → Tbl.get (fun _ => (0 : Byte)) t.mem x = 0) ∧
    (∀ failed, s.inEvent 9 = false → exec (.bootHbmTraining failed) s = .next s) ∧
    (s.inEvent 10 = true → ∃ t : State, exec (.bootLochTraining []) s = .next t ∧ { t with routes := s.routes, boot := s.boot } = s ∧ t.boot.event = 11) ∧
    (∀ failed, s.inEvent 10 = true → ∃ t : State, exec (.bootLochTraining failed) s = .next t ∧ NoStore s t ∧ t.boot.event = 11 ∧
      ∀ r n, r < 16 → (r, n) ∈ failed → linkExists r n = true → linkClass n = .loch → (t.fabLink r n).outOfService = true) ∧
    (∀ failed, s.inEvent 10 = false → exec (.bootLochTraining failed) s = .next s) ∧
    (∀ devs, s.inEvent 11 = true → ∃ t : State, exec (.bootCxlTraining devs) s = .next t ∧ NoStore s t ∧ t.boot.event = 12 ∧
      ∀ p d, (p, d) ∈ devs → p < 8 → s.cxlAbsent p = false → (t.cxl p).up = true) ∧
    (∀ devs, s.inEvent 11 = false → exec (.bootCxlTraining devs) s = .next s) ∧
    -- event 12
    (s.inEvent 12 = true → ∃ t : State, exec .bootComplete s = .next ((List.range 16).foldl State.boundaryStep t) ∧ NoStore s t ∧ t.boot.complete = true ∧
      t.boot.linksOut = min 65535 s.linksLost ∧ Logged t 0x0001 ∧ t.regions = s.regions ∧ t.clusters = s.clusters) ∧
    (s.inEvent 12 = false → exec .bootComplete s = .next s)

/-- Writes of the setup registers (R11 to R14, R454, R555, R558 to R565, Tables 21.1 to 21.11): widths and alignment, selectors of one
accessor, reserved fields, values refused as a whole, counters cleared by ones, halves, and registers of a partition in reset. That a
write with a reserved bit set is an input violation is the model's reading (notes/assumptions/9.md). Follows the model's choices of
notes/assumptions, entries 9, 103 to 108. -/
def Obligations.SetupRegisters : Prop :=
  (∀ n off w v (s : State), n < 384 → ∃ t : State, exec (.setupRegisterWrite (.core n) off w v) s = .next t ∧ { t with cores := s.cores } = s ∧
    (t.core n).mcause = 7 ∧ (t.core n).tval = BitVec.ofNat 64 (0x3000000000000 + off) ∧ ∀ m, m ≠ n → t.core m = s.core m) ∧
  ∀ (a : Agent) (off : Nat) (v : Word) (s : State), (∀ n, a ≠ .core n) →
    let acc := accNo a
    let keepsAll := fun (i : Instr) => ∃ t : State, exec i s = .next t ∧ { t with halves := s.halves } = s
    let violates := fun (i : Instr) => ∃ t : State, exec i s = .next t ∧ OnlyReports { s with halves := t.halves } t ∧ Logged t 0x0F01
    (∀ w, ¬(w = 8 ∧ off % 8 = 0 ∨ w = 4 ∧ off % 4 = 0) → violates (.setupRegisterWrite a off w v)) ∧
    (off % 8 = 0 → setupReg off = none → keepsAll (.setupRegisterWrite a off 8 v)) ∧
    (∀ r, off % 8 = 0 → setupReg off = some r → s.reaches a r = false ∨ ownCommand r = true → keepsAll (.setupRegisterWrite a off 8 v)) ∧
    (∀ r, off % 8 = 0 → setupReg off = some r → s.reaches a r = true → ownCommand r = false →
      (v &&& reservedMask r ≠ 0 → violates (.setupRegisterWrite a off 8 v)) ∧
      (v &&& reservedMask r = 0 → (∀ f o, r = .page f o → s.lockedTdi f = false) → (∀ p o, r = .prt p o → (s.part p).formed = true ∧ (s.part p).resetting = false) →
        (isSelector r = true → s.selectorOk a r v = true → ∃ t : State, exec (.setupRegisterWrite a off 8 v) s = .next t ∧
          { t with sels := s.sels, halves := s.halves } = s ∧ t.sel acc off = v ∧ ∀ b o, (b, o) ≠ (acc, off) → o < 2 ^ 32 → t.sel b o = s.sel b o) ∧
        (isSelector r = true → s.selectorOk a r v = false → violates (.setupRegisterWrite a off 8 v)) ∧
        ((r = .panelLimit ∨ r = .seqCfg ∨ r = .thresh ∨ r = .retrainCfg ∨ r = .rasCfg ∨ r = .spdmCfg ∨ ∃ k, r = .trustRoot k) → s.regOk acc r v = true →
          ∃ t : State, exec (.setupRegisterWrite a off 8 v) s = .next t ∧ { t with regs := s.regs, halves := s.halves } = s ∧ t.reg off = v ∧
            ∀ o, o ≠ off → t.reg o = s.reg o) ∧
        ((r = .panelLimit ∨ r = .seqCfg ∨ r = .retrainCfg ∨ r = .rasCfg ∨ r = .spdmCfg) → s.regOk acc r v = false → violates (.setupRegisterWrite a off 8 v)) ∧
        (r = .thresh → s.regOk acc r v = false → ∃ t : State, exec (.setupRegisterWrite a off 8 v) s = .next t ∧ OnlyReports { s with halves := t.halves } t ∧
          Logged t 0x0C08) ∧
        (∀ p, r = .prt p 5 → 1 ≤ v.toNat → v.toNat ≤ 1000 → p < 16 → ∃ t : State, exec (.setupRegisterWrite a off 8 v) s = .next t ∧ { t with parts := s.parts, halves := s.halves } = s ∧
          t.part p = { s.part p with quantum := v.toNat } ∧ ∀ q, q ≠ p → t.part q = s.part q) ∧
        (∀ p, r = .portCfg p → (s.port p).lock = false → ∃ t : State, exec (.setupRegisterWrite a off 8 v) s = .next t ∧ { t with ports := s.ports, halves := s.halves } = s ∧
          t.port p = { s.port p with split := bitOf v 0, lock := bitOf v 1 }) ∧
        (∀ p, r = .portCfg p → (s.port p).lock = true → ∃ t : State, exec (.setupRegisterWrite a off 8 v) s = .next t ∧
          { t with ports := s.ports, halves := s.halves } = s ∧ ∀ k, t.port k = s.port k) ∧
        (∀ p c, r = .discard p c → ∃ t : State, exec (.setupRegisterWrite a off 8 v) s = .next t ∧ { t with discards := s.discards, halves := s.halves } = s ∧
          (bitsOf v 31 0 ≠ 0 → Tbl.get (fun _ => (0 : BitVec 32)) t.discards (p * 16 + c) = 0) ∧ (bitsOf v 31 0 = 0 → t.discards = s.discards)) ∧
        (∀ d, r = .beaconErr d → ∃ t : State, exec (.setupRegisterWrite a off 8 v) s = .next t ∧ { t with domains := s.domains, halves := s.halves } = s ∧
          t.domain d = { s.domain d with ignored := if bitsOf v 31 0 ≠ 0 then 0 else (s.domain d).ignored,
                                         large := if bitsOf v 63 32 ≠ 0 then 0 else (s.domain d).large }))) ∧
    -- a partition's block: not formed, and in reset
    (∀ p o, off % 8 = 0 → setupReg off = some (.prt p o) → s.reaches a (.prt p o) = true → ownCommand (.prt p o) = false → v &&& reservedMask (.prt p o) = 0 →
      ((s.part p).formed = false → keepsAll (.setupRegisterWrite a off 8 v)) ∧
      ((s.part p).formed = true → (s.part p).resetting = true → keptByReset (.prt p o) = false → keepsAll (.setupRegisterWrite a off 8 v)) ∧
      ((s.part p).formed = true → (s.part p).resetting = true → keptByReset (.prt p o) = true → ∃ t : State, exec (.setupRegisterWrite a off 8 v) s = .next t ∧
        { t with parts := s.parts, halves := s.halves } = s ∧ t.part p = { s.part p with lateWrites := (s.part p).lateWrites ++ [(off, v)] })) ∧
    -- a locked interface
    (∀ f o, off % 8 = 0 → setupReg off = some (.page f o) → s.reaches a (.page f o) = true → lockedReg (.page f o) = true → s.lockedTdi f = true →
      v &&& reservedMask (.page f o) = 0 → ∃ t : State, exec (.setupRegisterWrite a off 8 v) s = .next t ∧ OnlyReports { s with halves := t.halves } t ∧ Logged t 0x0A03) ∧
    -- halves
    (∀ r, off % 8 = 0 → setupReg off = some r → s.reaches a r = true → ownCommand r = false → crossesHalf r = false →
      let w : Word := BitVec.ofNat 64 ((s.readReg acc r &&& storedMask r).toNat / 2 ^ 32 * 2 ^ 32 + v.toNat % 2 ^ 32)
      w &&& reservedMask r = 0 → exec (.setupRegisterWrite a off 4 v) s = exec (.setupRegisterWrite a off 8 w) s) ∧
    (∀ r, off % 8 = 0 → setupReg off = some r → s.reaches a r = true → ownCommand r = false → crossesHalf r = true →
      ∃ t : State, exec (.setupRegisterWrite a off 4 v) s = .next t ∧ { t with halves := s.halves } = s ∧
        (off < 2 ^ 32 → t.heldHalf acc off = some (BitVec.ofNat 64 (v.toNat % 2 ^ 32 + 2 ^ 32))))

/-- Resets of a partition and its error queues (R448, R542, R550 to R552, R565, Table 21.3). Follows the model's choices of notes/assumptions,
entries 9, 103 to 108. -/
def Obligations.PartitionResetAndErrorQueues : Prop :=
  ∀ (a : Agent) (p : Nat) (s : State), p < 16 →
    ((s.part p).formed = true → s.prtAgent a p = true → (s.part p).resetting = false → ∃ t : State, exec (.prtReset a p) s = .next t ∧ t.tarn = s.tarn ∧
      (t.part p).resetting = true ∧ ∀ x, x < 1024 → (s.ctx x).part = p → (s.ctx x).st ≠ .free → (t.ctx x).st = .killing) ∧
    (((s.part p).formed = false ∨ s.prtAgent a p = false ∨ (s.part p).resetting = true) → exec (.prtReset a p) s = .next s) ∧
    ((s.part p).resetting = true → s.ctxsOf p = [] → (s.part p).lateWrites = [] → ∃ t : State, exec (.partitionResetKillsDone p) s = .next (t.boundaryWork p) ∧
      NoStore s t ∧ t.clusters = s.clusters ∧ Logged t 0x0809 ∧ (t.part p).resetting = false ∧ (t.part p).journal = [] ∧ (t.part p).journalHead = 0 ∧
      (t.part p).stepSeq = 1 ∧ (t.part p).keyGen = s.sec.nextKey ∧ t.sec.nextKey = s.sec.nextKey + 1 ∧ (t.part p).journalBase = (s.part p).journalBase ∧
      (t.part p).journalGib = (s.part p).journalGib ∧ (t.part p).shareAllow = (s.part p).shareAllow ∧ ∀ r ∈ (s.part p).regions, s.sliceRun r ∈ t.zeroRuns) ∧
    (((s.part p).resetting = false ∨ s.ctxsOf p ≠ []) → exec (.partitionResetKillsDone p) s = .next s) ∧
    ∀ (e : Nat), s.errqAgent a p e = true →
      let q := s.errq p e
      (∀ base cfg : Word, bitOf cfg 11 = true → bitsOf cfg 10 8 ≤ 5 →
        let fits := 4 ≤ bitsOf cfg 4 0 ∧ bitsOf cfg 4 0 ≤ 16 ∧ base.toNat % 4096 = 0 ∧ (e < 16 ∨ s.inSlices p base.toNat (32 * 2 ^ bitsOf cfg 4 0) = true)
        (fits → ∃ t : State, exec (.prtErrqCfgEnable a p e base cfg) s = .next t ∧ { t with parts := s.parts } = s ∧ (∀ o, o ≠ p → t.part o = s.part o) ∧
          (∀ o, o ≠ e → t.errq p o = s.errq p o) ∧ (t.errq p e).enable = true ∧ (t.errq p e).base = base ∧ (t.errq p e).log2 = bitsOf cfg 4 0 ∧
          (t.errq p e).minClass = bitsOf cfg 10 8 ∧ (t.errq p e).cfgError = false ∧
          (q.enable = false → (t.errq p e).head = 0 ∧ (t.errq p e).tail = 0) ∧ (q.enable = true → (t.errq p e).head = q.head ∧ (t.errq p e).tail = q.tail)) ∧
        (¬fits → ∃ t : State, exec (.prtErrqCfgEnable a p e base cfg) s = .next t ∧ { t with parts := s.parts } = s ∧
          t.errq p e = { q with enable := false, cfgError := true } ∧ ∀ o, o ≠ e → t.errq p o = s.errq p o)) ∧
      (∀ head : BitVec 16,
        (2 ^ q.log2 ≤ head.toNat → ∃ t : State, exec (.prtErrqHead a p e head) s = .next t ∧ OnlyReports s t ∧ Logged t 0x0F01) ∧
        (head.toNat < 2 ^ q.log2 → q.unreported = 0 → ∃ t : State, exec (.prtErrqHead a p e head) s = .next t ∧ { t with parts := s.parts } = s ∧
          t.errq p e = { q with head := head.toNat } ∧ (∀ o, o ≠ e → t.errq p o = s.errq p o) ∧ ∀ o, o ≠ p → t.part o = s.part o) ∧
        (head.toNat < 2 ^ q.log2 → 0 < q.unreported → (q.tail + 1) % 2 ^ q.log2 ≠ head.toNat → ∃ t : State, exec (.prtErrqHead a p e head) s = .next t ∧ OnlyReports s t ∧
          (t.errq p e).unreported = 0 ∧ (t.errq p e).tail = (q.tail + 1) % 2 ^ q.log2 ∧ Logged t 0x0003))

/-- Guards and illegal encodings (R46, R163 to R165, R167, R176): an instruction whose guard is false only moves on, LOOP to the end of its
body; one that is not a legal encoding traps with cause 0x01 whatever its guard. Which encodings are legal is the form of each
instruction. Follows the model's choices of notes/assumptions, entries 15 to 23, 31 to 36. -/
def Obligations.GuardsAndIllegalEncodings : Prop :=
  ∀ (i : Issue) (s : State), Ready s { i with pg := 0, pn := false } → i.u ≠ .engine →
    let alu : List Instr := [.add i, .sub i, .and i, .or i, .xor i, .sll i, .srl i, .sra i, .mul i, .mulh i, .mulhu i, .div i, .divu i, .rem i,
      .remu i, .min i, .max i, .minu i, .maxu i]
    let table : List (Instr × Bool) := alu.map (fun c => (c, (formAlu i .scalar 1).legal i)) ++
      [(.nop i, formR.legal i), (.endStep i, formR.legal i), (.br i, formBr.legal i), (.jal i, formJal.legal i),
      (.jalr i, formJalr.legal i), (.trap i, formTrap.legal i), (.li i, formLi.legal i), (.lix i, formLix.legal i),
      (.cmp i, (formAlu i .small 15).legal i && decide (cmpCond i < 6)), (.plog i, formPlog.legal i),
      (.rdcnt i, formRdcnt.legal i && decide (fF i < 5)), (.movsv i, (formMovsv i).legal i),
      (.movvs i, (formMovvs i).legal i), (.vmov i, formVmov.legal i), (.vbcast i, formVbcast.legal i),
      (.msk i, (formMsk i).legal i), (.ld i, formRow.legal i), (.pk i, formRow.legal i), (.st i, formRow.legal i),
      (.movr i, formMovr.legal i), (.fill i, formFill.legal i), (.tagrd i, formTagrd.legal i),
      (.waitt i, formWaitt.legal i), (.twait i, formTwait.legal i), (.wld i, wldLegal i), (.mma i, mmaLegal i),
      (.drn i, drnLegal i), (.drnp i, drnpLegal i), (.aclr i, formAclr.legal i), (.vadd i, formV2.legal i && vcLegal i),
      (.vsub i, formV2.legal i && vcLegal i), (.vmul i, formV2.legal i && vcLegal i),
      (.vdiv i, formV2.legal i && vcLegal i), (.vmin i, formV2.legal i && vcLegal i),
      (.vmax i, formV2.legal i && vcLegal i), (.vfma i, formV2.legal i && vcLegal i),
      (.vsqrt i, formV1.legal i && vcLegal i), (.vabs i, formV1.legal i && vcLegal i),
      (.vneg i, formV1.legal i && vcLegal i), (.vfun i, formVfun.legal i && vcLegal i),
      (.vcmp i, formVcmp.legal i && vcLegal i && decide (fF i % 8 < 6)), (.vrsum i, formV1.legal i && vcLegal i),
      (.vrmax i, formV1.legal i && vcLegal i), (.vrmin i, formV1.legal i && vcLegal i),
      (.vcvt i, formVcvt.legal i && vcLegal i), (.vqnt i, quantLegal i), (.vdq i, quantLegal i),
      (.send i, formSend.legal i), (.recv i, formRecv.legal i), (.mcast i, formMcast.legal i && bitsOf i.x0 63 12 == 0),
      (.reduce i, collLegal i), (.allred i, collLegal i), (.rscat i, collLegal i), (.agath i, collLegal i),
      (.mld i, formMld.legal i && unitsLegal i), (.mst i, formMst.legal i && unitsLegal i), (.fencef i, formR.legal i),
      (.ehint i, formEhint.legal i)]
    (∀ e ∈ table, e.2 = true → guardHolds (s.regsOf i.c) i.pg i.pn = false → ∃ t : State, exec e.1 s = .next t ∧ Retires s t i (s.regsOf i.c)) ∧
    (∀ e ∈ table, e.2 = false → ∃ t : State, exec e.1 s = .next t ∧ Traps s t i 0x01 0 0) ∧
    (formLoop.legal i = true → 0 ≤ sImm32 i → guardHolds (s.regsOf i.c) i.pg i.pn = false → ∃ t : State, exec (.loop i) s = .next t ∧
      Moves s t i (s.regsOf i.c) true ((s.regsOf i.c).pc.toNat + 8 + 8 * (sImm32 i).toNat)) ∧
    ((formLoop.legal i = false ∨ sImm32 i < 0) → ∃ t : State, exec (.loop i) s = .next t ∧ Traps s t i 0x01 0 0) ∧
    (i.pg = 0 → i.pn = true → ∀ e ∈ table, e.2 = false)

/-- R45: s0 reads as zero and p0 as true, and writes to them are discarded; p0 as guard always executes. -/
def Obligations.HardWiredRegisters : Prop :=
  (∀ (r : Regs) (w : Word) (b : Bool), r.sreg 0 = 0 ∧ r.setSreg 0 w = r ∧ r.pred 0 = true ∧ r.setPred 0 b = r ∧ guardHolds r 0 false = true) ∧
  ∀ (i : Issue) (s : State), Ready s i → fA i = 0 →
    ((formAlu i .scalar 1).legal i = true → ∃ t : State, exec (.add i) s = .next t ∧ Retires s t i (s.regsOf i.c)) ∧
    (formLix.legal i = true → ∃ t : State, exec (.lix i) s = .next t ∧ Retires s t i (s.regsOf i.c)) ∧
    (formPlog.legal i = true → ∃ t : State, exec (.plog i) s = .next t ∧ Retires s t i (s.regsOf i.c))

/-- R91, R96 and R336: the physical row behind a handle row, the member and handle row behind a row of a span, and the stack and offset behind
an address of a region's slice under region-local interleave. -/
def Obligations.HandlesSpansAndStacks : Prop :=
  (∀ (e : HandleEntry) (i : Word), hBacking e = 0 →
    (hWrap e = false → i.toNat < hCount e → handleRow e i.toNat = hBase e + i.toNat) ∧ (hWrap e = true → handleRow e i.toNat = hBase e + i.toNat % hCount e)) ∧
  (∀ (sp : Span) (r : Nat), spanMemberOf sp r = r / sp.stripe % sp.members.length ∧
    spanRowOf sp r = r / (sp.stripe * sp.members.length) * sp.stripe + r % sp.stripe) ∧
  ∀ (s : State) (r off : Nat), (s.region r).linear = none → (∀ p, (s.region r).part = some p → (s.part p).interleave = false) → off < s.sliceSize →
    s.hbmPlace (r * s.sliceSize + off) = (2 * r + off / 4096 % 2, off / 4096 / 2 * 4096 + off % 4096)

/-- A step takes the command at the front of the queue and carries it out on the state with the queue's rest. That one tick of panel time
passes while no command waits is the model's choice (notes/assumptions/1.md). Follows the model's choices of notes/assumptions, entries 1. -/
def Obligations.StepTakesFront : Prop :=
  (∀ (c : Instr) (s : State), step { s with pending := c :: s.pending } = exec c s) ∧ (∀ s : State, s.pending = [] → step s = .next s.tick)

/-- What reset leaves, as the manual states it (R20, R65, R272, R275, R345, R348, R472, R494, R505, R518, R540, R560, Tables 2.5, 21.2 to
21.11). -/
def Obligations.AfterReset : Prop :=
  let s := State.reset
  s.Canonical ∧ s.pending = [] ∧ s.now = 0 ∧ s.tb.ref = .freerun ∧ s.boot.event = 0 ∧ s.boot.complete = false ∧ s.holder = none ∧ s.mgt.epoch = 0 ∧
  s.mgt.log = [] ∧ s.net = [] ∧ (∀ c, (s.cl c).st = .off) ∧ (∀ c n, (s.trow c n).tag = .empty ∧ (s.trow c n).data = 0) ∧
  (∀ r, (s.region r).pstate = .dark ∧ (s.region r).step = 8) ∧ (∀ p, (s.part p).formed = false ∧ (s.part p).quantum = 10 ∧ (s.part p).interleave = false) ∧
  (∀ x, (s.ctx x).st = .free) ∧ (∀ w, (s.win w).st = .free) ∧ (∀ r l, r < 16 → l < 288 → entryState (s.cmapEntry r l) = 0) ∧
  s.reg 0x402008 = 24 ∧ bitsOf (s.reg 0x402000) 7 0 = 4 ∧ bitsOf (s.reg 0x402000) 35 24 = 60 ∧ s.reg 0x500810 = 16 ∧ s.reg 0x700580 = 2600 ∧ s.reg 0x700588 = 1000 ∧
  bitsOf (s.reg 0x800018) 6 0 = 95 ∧ bitsOf (s.reg 0x800018) 14 8 = 100 ∧ bitsOf (s.reg 0x800018) 22 16 = 85 ∧ bitsOf (s.reg 0x800018) 30 24 = 95 ∧
  s.reg 0x800020 = 1 ∧ bitsOf (s.reg 0xA00038) 23 16 = 60

/-- No command stops the panel: every error of the manual has an effect of its own, so in every state each command answers a next state.
Follows the model's choices of notes/assumptions, entries 12. -/
def Obligations.EveryCommandAnswers : Prop := ∀ (c : Instr) (s : State), ∃ t : State, exec c s = .next t

/-- Every step that answers a next state keeps bytes of memory, tarn rows and poisoned sectors in canonical form, and takes exactly one
command from the queue. Follows the model's choices of notes/assumptions, entries 1. -/
def Obligations.StepKeepsCanonical : Prop :=
  ∀ (s t : State), s.Canonical → step s = .next t → t.Canonical ∧ t.pending = s.pending.tail
end

