-- ==== Sys2Proof/Laws/Tbl.lean ====
section
/-! SUPPORT. The laws of sparse tables: a read after a write, and that writes keep the canonical form. -/

namespace Sys2Proof.Machine

set_option Elab.async false

variable {α : Type}

theorem Tbl.get_erase_same (d : Nat → α) (t : Tbl α) (k : Nat) : Tbl.get d (Tbl.erase t k) k = d k := by
  induction t with
  | nil => rfl
  | cons e t ih =>
    obtain ⟨j, w⟩ := e
    by_cases h : k = j <;> simp [Tbl.erase, Tbl.get, h] <;> simpa [h] using ih

theorem Tbl.get_erase_ne (d : Nat → α) (t : Tbl α) {k i : Nat} (hi : i ≠ k) :
    Tbl.get d (Tbl.erase t k) i = Tbl.get d t i := by
  induction t with
  | nil => rfl
  | cons e t ih =>
    obtain ⟨j, w⟩ := e
    by_cases h : k = j
    · subst h; simp [Tbl.erase, Tbl.get, ih, hi]
    · simp [Tbl.erase, Tbl.get, h, ih]

theorem Tbl.get_insert_ne (d : Nat → α) (t : Tbl α) {k i : Nat} (v : α) (hi : i ≠ k) :
    Tbl.get d (Tbl.insert t k v) i = Tbl.get d t i := by
  induction t with
  | nil => simp [Tbl.insert, Tbl.get, hi]
  | cons e t ih =>
    obtain ⟨j, w⟩ := e
    by_cases h : k < j
    · simp [Tbl.insert, Tbl.get, h, hi]
    · simp [Tbl.insert, Tbl.get, h, ih]

theorem Tbl.get_insert_erase (d : Nat → α) (t : Tbl α) (k : Nat) (v : α) :
    Tbl.get d (Tbl.insert (Tbl.erase t k) k v) k = v := by
  induction t with
  | nil => simp [Tbl.erase, Tbl.insert, Tbl.get]
  | cons e t ih =>
    obtain ⟨j, w⟩ := e
    by_cases h : k = j
    · simpa [Tbl.erase, h] using (h ▸ ih)
    · by_cases hl : k < j <;> simp [Tbl.erase, Tbl.insert, Tbl.get, h, hl, ih]

/-- A read after a write to the same key gives the value written. -/
@[simp] theorem Tbl.get_set_same [DecidableEq α] (d : Nat → α) (t : Tbl α) (k : Nat) (v : α) :
    Tbl.get d (Tbl.set d t k v) k = v := by
  unfold Tbl.set
  split
  · next h => rw [h]; exact Tbl.get_erase_same d t k
  · exact Tbl.get_insert_erase d t k v

/-- A write leaves every other key alone. -/
theorem Tbl.get_set_ne [DecidableEq α] (d : Nat → α) (t : Tbl α) {k i : Nat} (v : α) (hi : i ≠ k) :
    Tbl.get d (Tbl.set d t k v) i = Tbl.get d t i := by
  unfold Tbl.set
  split
  · exact Tbl.get_erase_ne d t hi
  · rw [Tbl.get_insert_ne d _ v hi]; exact Tbl.get_erase_ne d t hi

theorem Tbl.get_set [DecidableEq α] (d : Nat → α) (t : Tbl α) (k i : Nat) (v : α) :
    Tbl.get d (Tbl.set d t k v) i = if i = k then v else Tbl.get d t i := by
  by_cases h : i = k
  · subst h; simp
  · simp [h, Tbl.get_set_ne]

theorem Tbl.rising_erase (t : Tbl α) (k : Nat) : ∀ lo, Tbl.rising lo t = true → Tbl.rising lo (Tbl.erase t k) = true := by
  induction t with
  | nil => intro lo h; exact h
  | cons e t ih =>
    obtain ⟨j, w⟩ := e
    intro lo h
    simp only [Tbl.rising, Bool.and_eq_true] at h
    by_cases hk : k = j
    · simp only [Tbl.erase, hk, if_true]
      have h2 : Tbl.rising (some j) (Tbl.erase t k) = true := ih _ h.2
      rw [← hk] at h2 ⊢
      have weaken : ∀ (u : Tbl α), Tbl.rising (some k) u = true → Tbl.rising lo u = true := by
        intro u hu
        cases u with
        | nil => rfl
        | cons e' u =>
          simp only [Tbl.rising, Bool.and_eq_true, decide_eq_true_eq] at hu ⊢
          refine ⟨?_, hu.2⟩
          cases lo with
          | none => rfl
          | some l =>
            have := h.1
            simp only [decide_eq_true_eq] at this ⊢
            omega
      exact weaken _ h2
    · simp only [Tbl.erase, hk, if_false, Tbl.rising, Bool.and_eq_true]
      exact ⟨h.1, ih _ h.2⟩

theorem Tbl.rising_insert (t : Tbl α) (k : Nat) (v : α) : ∀ lo, Tbl.rising lo t = true →
    (∀ l, lo = some l → l < k) → (∀ e ∈ t, e.1 ≠ k) → Tbl.rising lo (Tbl.insert t k v) = true := by
  induction t with
  | nil =>
    intro lo _ hlo _
    cases lo with
    | none => rfl
    | some l => simp [Tbl.insert, Tbl.rising, hlo l rfl]
  | cons e t ih =>
    obtain ⟨j, w⟩ := e
    intro lo h hlo hne
    simp only [Tbl.rising, Bool.and_eq_true] at h
    by_cases hk : k < j
    · simp only [Tbl.insert, hk, if_true, Tbl.rising, Bool.and_eq_true, decide_eq_true_eq]
      refine ⟨?_, trivial, h.2⟩
      cases lo with
      | none => rfl
      | some l => simp [hlo l rfl]
    · simp only [Tbl.insert, hk, if_false, Tbl.rising, Bool.and_eq_true]
      refine ⟨h.1, ih _ h.2 ?_ ?_⟩
      · intro l hl
        have := hne (j, w) (by simp)
        simp only [Option.some.injEq] at hl
        simp only at this
        omega
      · intro e he; exact hne e (by simp [he])

theorem Tbl.mem_erase (t : Tbl α) (k : Nat) : ∀ e ∈ Tbl.erase t k, e ∈ t ∧ e.1 ≠ k := by
  induction t with
  | nil => intro e he; simp [Tbl.erase] at he
  | cons e t ih =>
    obtain ⟨j, w⟩ := e
    intro e he
    by_cases hk : k = j
    · simp only [Tbl.erase, hk, if_true] at he
      have := ih e (by rw [hk]; exact he)
      exact ⟨by simp [this.1], this.2⟩
    · simp only [Tbl.erase, hk, if_false, List.mem_cons] at he
      rcases he with rfl | he
      · exact ⟨by simp, fun h => hk h.symm⟩
      · exact ⟨by simp [(ih e he).1], (ih e he).2⟩

theorem Tbl.mem_insert (t : Tbl α) (k : Nat) (v : α) : ∀ e ∈ Tbl.insert t k v, e = (k, v) ∨ e ∈ t := by
  induction t with
  | nil => intro e he; simpa [Tbl.insert] using he
  | cons e t ih =>
    obtain ⟨j, w⟩ := e
    intro e he
    by_cases hk : k < j
    · simpa [Tbl.insert, hk] using he
    · simp only [Tbl.insert, hk, if_false, List.mem_cons] at he
      rcases he with rfl | he
      · exact .inr (by simp)
      · exact (ih e he).imp id (by intro h; simp [h])

/-- A write keeps the canonical form. -/
theorem Tbl.wf_set [DecidableEq α] (d : Nat → α) (t : Tbl α) (k : Nat) (v : α) (h : Tbl.wf d t = true) :
    Tbl.wf d (Tbl.set d t k v) = true := by
  simp only [Tbl.wf, Bool.and_eq_true, List.all_eq_true, decide_eq_true_eq] at h ⊢
  unfold Tbl.set
  split
  · exact ⟨Tbl.rising_erase t k none h.1, fun e he => h.2 e (Tbl.mem_erase t k e he).1⟩
  · next hv =>
    refine ⟨Tbl.rising_insert _ k v none (Tbl.rising_erase t k none h.1) (by simp)
      (fun e he => (Tbl.mem_erase t k e he).2), ?_⟩
    intro e he
    rcases Tbl.mem_insert _ k v e he with rfl | he
    · exact hv
    · exact h.2 e (Tbl.mem_erase t k e he).1

theorem Tbl.rising_weaken (t : Tbl α) (a : Nat) (lo : Option Nat) (hlo : ∀ l, lo = some l → l < a)
    (h : Tbl.rising (some a) t = true) : Tbl.rising lo t = true := by
  cases t with
  | nil => rfl
  | cons e t =>
    simp only [Tbl.rising, Bool.and_eq_true, decide_eq_true_eq] at h ⊢
    refine ⟨?_, h.2⟩
    cases lo with
    | none => rfl
    | some l =>
      have := hlo l rfl
      simp only [decide_eq_true_eq]
      omega

theorem Tbl.rising_bound (t : Tbl α) (j : Nat) (w : α) (lo : Option Nat)
    (h : Tbl.rising lo ((j, w) :: t) = true) : ∀ l, lo = some l → l < j := by
  intro l hl
  subst hl
  simp only [Tbl.rising, Bool.and_eq_true, decide_eq_true_eq] at h
  exact h.1

theorem Tbl.rising_mapVal [DecidableEq α] (d : Nat → α) (f : Nat → α → α) (t : Tbl α) :
    ∀ lo, Tbl.rising lo t = true → Tbl.rising lo (Tbl.mapVal d f t) = true := by
  induction t with
  | nil => intro lo h; exact h
  | cons e t ih =>
    obtain ⟨j, w⟩ := e
    intro lo h
    have hb := Tbl.rising_bound t j w lo h
    simp only [Tbl.rising, Bool.and_eq_true] at h
    unfold Tbl.mapVal
    split
    · exact Tbl.rising_erase _ j lo (Tbl.rising_weaken _ j lo hb (ih _ h.2))
    · simp only [Tbl.rising, Bool.and_eq_true]
      exact ⟨h.1, ih _ h.2⟩

/-- Replacing every listed value keeps the canonical form. -/
theorem Tbl.wf_mapVal [DecidableEq α] (d : Nat → α) (f : Nat → α → α) (t : Tbl α) (h : Tbl.wf d t = true) :
    Tbl.wf d (Tbl.mapVal d f t) = true := by
  simp only [Tbl.wf, Bool.and_eq_true] at h ⊢
  refine ⟨Tbl.rising_mapVal d f t none h.1, ?_⟩
  have : ∀ u : Tbl α, ∀ e ∈ Tbl.mapVal d f u, e.2 ≠ d e.1 := by
    intro u
    induction u with
    | nil => intro e he; simp [Tbl.mapVal] at he
    | cons e u ih =>
      intro e' he
      unfold Tbl.mapVal at he
      split at he
      · exact ih e' (Tbl.mem_erase _ _ e' he).1
      · next hne =>
        rcases List.mem_cons.mp he with rfl | he
        · exact hne
        · exact ih e' he
  simpa [List.all_eq_true] using fun a b hab => this t (a, b) hab

/-- What a key reads as after every listed value is replaced: the new value, or still what an unlisted key reads as. -/
theorem Tbl.get_mapVal [DecidableEq α] (d : Nat → α) (f : Nat → α → α) (t : Tbl α) (k : Nat) :
    Tbl.get d (Tbl.mapVal d f t) k = f k (Tbl.get d t k) ∨
      (Tbl.get d t k = d k ∧ Tbl.get d (Tbl.mapVal d f t) k = d k) := by
  induction t with
  | nil => exact .inr ⟨rfl, rfl⟩
  | cons e t ih =>
    obtain ⟨j, w⟩ := e
    unfold Tbl.mapVal
    by_cases hk : k = j
    · subst hk
      left
      split
      · next h => rw [Tbl.get_erase_same]; simp [Tbl.get, h]
      · simp [Tbl.get]
    · split
      · rw [Tbl.get_erase_ne d _ hk]; simpa [Tbl.get, hk] using ih
      · simpa [Tbl.get, hk] using ih

theorem Tbl.rising_drop (p : Nat → Bool) (t : Tbl α) :
    ∀ lo, Tbl.rising lo t = true → Tbl.rising lo (Tbl.drop p t) = true := by
  induction t with
  | nil => intro lo h; exact h
  | cons e t ih =>
    obtain ⟨j, w⟩ := e
    intro lo h
    have hb := Tbl.rising_bound t j w lo h
    simp only [Tbl.rising, Bool.and_eq_true] at h
    cases hp : p j
    · have : Tbl.drop p ((j, w) :: t) = (j, w) :: Tbl.drop p t := by simp [Tbl.drop, hp]
      rw [this]
      simp only [Tbl.rising, Bool.and_eq_true]
      exact ⟨h.1, ih _ h.2⟩
    · have : Tbl.drop p ((j, w) :: t) = Tbl.drop p t := by simp [Tbl.drop, hp]
      rw [this]
      exact Tbl.rising_weaken _ j lo hb (ih _ h.2)

/-- Leaving keys out keeps the canonical form. -/
theorem Tbl.wf_drop [DecidableEq α] (d : Nat → α) (p : Nat → Bool) (t : Tbl α) (h : Tbl.wf d t = true) :
    Tbl.wf d (Tbl.drop p t) = true := by
  simp only [Tbl.wf, Bool.and_eq_true, List.all_eq_true] at h ⊢
  exact ⟨Tbl.rising_drop p t none h.1, fun e he => h.2 e (List.mem_of_mem_filter he)⟩

end Sys2Proof.Machine
end

