-- ==== Sys2Proof/Laws/State.lean ====
section
/-! SUPPORT. One lemma for each field and each update of the state: an update of one table leaves every other field and
every reading of it alone, and its own table reads back what was put there. -/

namespace Sys2Proof.Machine

set_option Elab.async false

open Sys2Proof

theorem State.cl_def (s : State) (k : Nat) : s.cl k = Tbl.get (fun _ => {}) s.clusters k := id rfl
theorem State.part_def (s : State) (k : Nat) : s.part k = Tbl.get (fun _ => {}) s.parts k := id rfl
theorem State.ctx_def (s : State) (k : Nat) : s.ctx k = Tbl.get (fun _ => {}) s.ctxs k := id rfl
theorem State.qp_def (s : State) (k : Nat) : s.qp k = Tbl.get (fun _ => {}) s.qps k := id rfl
theorem State.fn_def (s : State) (k : Nat) : s.fn k = Tbl.get (fun _ => {}) s.fns k := id rfl
theorem State.link_def (s : State) (k : Nat) : s.link k = Tbl.get (fun _ => {}) s.links k := id rfl
theorem State.port_def (s : State) (k : Nat) : s.port k = Tbl.get (fun _ => {}) s.ports k := id rfl
theorem State.region_def (s : State) (k : Nat) : s.region k = Tbl.get (fun _ => {}) s.regions k := id rfl
theorem State.domain_def (s : State) (k : Nat) : s.domain k = Tbl.get (fun _ => {}) s.domains k := id rfl
theorem State.xing_def (s : State) (k : Nat) : s.xing k = Tbl.get (fun _ => {}) s.xings k := id rfl
theorem State.hbm_def (s : State) (k : Nat) : s.hbm k = Tbl.get (fun _ => {}) s.hbms k := id rfl
theorem State.cxl_def (s : State) (k : Nat) : s.cxl k = Tbl.get (fun _ => {}) s.cxlPorts k := id rfl
theorem State.win_def (s : State) (k : Nat) : s.win k = Tbl.get (fun _ => {}) s.windows k := id rfl
theorem State.core_def (s : State) (k : Nat) : s.core k = Tbl.get (fun _ => {}) s.cores k := id rfl
theorem State.dirLine_def (s : State) (k : Nat) : s.dirLine k = Tbl.get (fun _ => {}) s.dir k := id rfl
theorem State.page_def (s : State) (k : Nat) : s.page k = Tbl.get (fun _ => {}) s.pages k := id rfl
theorem State.now_def (s : State) : s.now = s.tb.now := id rfl
theorem State.trow_def (s : State) (c n : Nat) : s.trow c n = Tbl.get (fun _ => {}) s.tarn (rowKey c n) := id rfl
theorem State.rawByte_def (s : State) (a : Nat) : s.rawByte a = Tbl.get (fun _ => 0) s.mem a := id rfl
@[simp] theorem State.setCl_pending (s : State) (c : Nat) (v : Cluster) : (s.setCl c v).pending = s.pending := id rfl
@[simp] theorem State.setCl_out (s : State) (c : Nat) (v : Cluster) : (s.setCl c v).out = s.out := id rfl
@[simp] theorem State.setCl_fresh (s : State) (c : Nat) (v : Cluster) : (s.setCl c v).fresh = s.fresh := id rfl
@[simp] theorem State.setCl_order (s : State) (c : Nat) (v : Cluster) : (s.setCl c v).order = s.order := id rfl
@[simp] theorem State.setCl_variant36 (s : State) (c : Nat) (v : Cluster) : (s.setCl c v).variant36 = s.variant36 := id rfl
@[simp] theorem State.setCl_enabled (s : State) (c : Nat) (v : Cluster) : (s.setCl c v).enabled = s.enabled := id rfl
@[simp] theorem State.setCl_tarn (s : State) (c : Nat) (v : Cluster) : (s.setCl c v).tarn = s.tarn := id rfl
@[simp] theorem State.setCl_mem (s : State) (c : Nat) (v : Cluster) : (s.setCl c v).mem = s.mem := id rfl
@[simp] theorem State.setCl_poison (s : State) (c : Nat) (v : Cluster) : (s.setCl c v).poison = s.poison := id rfl
@[simp] theorem State.setCl_pages (s : State) (c : Nat) (v : Cluster) : (s.setCl c v).pages = s.pages := id rfl
@[simp] theorem State.setCl_zeroRuns (s : State) (c : Nat) (v : Cluster) : (s.setCl c v).zeroRuns = s.zeroRuns := id rfl
@[simp] theorem State.setCl_regions (s : State) (c : Nat) (v : Cluster) : (s.setCl c v).regions = s.regions := id rfl
@[simp] theorem State.setCl_domains (s : State) (c : Nat) (v : Cluster) : (s.setCl c v).domains = s.domains := id rfl
@[simp] theorem State.setCl_xings (s : State) (c : Nat) (v : Cluster) : (s.setCl c v).xings = s.xings := id rfl
@[simp] theorem State.setCl_tb (s : State) (c : Nat) (v : Cluster) : (s.setCl c v).tb = s.tb := id rfl
@[simp] theorem State.setCl_net (s : State) (c : Nat) (v : Cluster) : (s.setCl c v).net = s.net := id rfl
@[simp] theorem State.setCl_nextPkt (s : State) (c : Nat) (v : Cluster) : (s.setCl c v).nextPkt = s.nextPkt := id rfl
@[simp] theorem State.setCl_routes (s : State) (c : Nat) (v : Cluster) : (s.setCl c v).routes = s.routes := id rfl
@[simp] theorem State.setCl_perimRoutes (s : State) (c : Nat) (v : Cluster) : (s.setCl c v).perimRoutes = s.perimRoutes := id rfl
@[simp] theorem State.setCl_fabLinks (s : State) (c : Nat) (v : Cluster) : (s.setCl c v).fabLinks = s.fabLinks := id rfl
@[simp] theorem State.setCl_discards (s : State) (c : Nat) (v : Cluster) : (s.setCl c v).discards = s.discards := id rfl
@[simp] theorem State.setCl_parts (s : State) (c : Nat) (v : Cluster) : (s.setCl c v).parts = s.parts := id rfl
@[simp] theorem State.setCl_ctxs (s : State) (c : Nat) (v : Cluster) : (s.setCl c v).ctxs = s.ctxs := id rfl
@[simp] theorem State.setCl_qps (s : State) (c : Nat) (v : Cluster) : (s.setCl c v).qps = s.qps := id rfl
@[simp] theorem State.setCl_fns (s : State) (c : Nat) (v : Cluster) : (s.setCl c v).fns = s.fns := id rfl
@[simp] theorem State.setCl_links (s : State) (c : Nat) (v : Cluster) : (s.setCl c v).links = s.links := id rfl
@[simp] theorem State.setCl_ports (s : State) (c : Nat) (v : Cluster) : (s.setCl c v).ports = s.ports := id rfl
@[simp] theorem State.setCl_hbms (s : State) (c : Nat) (v : Cluster) : (s.setCl c v).hbms = s.hbms := id rfl
@[simp] theorem State.setCl_cxlPorts (s : State) (c : Nat) (v : Cluster) : (s.setCl c v).cxlPorts = s.cxlPorts := id rfl
@[simp] theorem State.setCl_windows (s : State) (c : Nat) (v : Cluster) : (s.setCl c v).windows = s.windows := id rfl
@[simp] theorem State.setCl_cores (s : State) (c : Nat) (v : Cluster) : (s.setCl c v).cores = s.cores := id rfl
@[simp] theorem State.setCl_dir (s : State) (c : Nat) (v : Cluster) : (s.setCl c v).dir = s.dir := id rfl
@[simp] theorem State.setCl_bpm (s : State) (c : Nat) (v : Cluster) : (s.setCl c v).bpm = s.bpm := id rfl
@[simp] theorem State.setCl_cool (s : State) (c : Nat) (v : Cluster) : (s.setCl c v).cool = s.cool := id rfl
@[simp] theorem State.setCl_mgt (s : State) (c : Nat) (v : Cluster) : (s.setCl c v).mgt = s.mgt := id rfl
@[simp] theorem State.setCl_sec (s : State) (c : Nat) (v : Cluster) : (s.setCl c v).sec = s.sec := id rfl
@[simp] theorem State.setCl_boot (s : State) (c : Nat) (v : Cluster) : (s.setCl c v).boot = s.boot := id rfl
@[simp] theorem State.setCl_regs (s : State) (c : Nat) (v : Cluster) : (s.setCl c v).regs = s.regs := id rfl
@[simp] theorem State.setCl_sels (s : State) (c : Nat) (v : Cluster) : (s.setCl c v).sels = s.sels := id rfl
@[simp] theorem State.setCl_halves (s : State) (c : Nat) (v : Cluster) : (s.setCl c v).halves = s.halves := id rfl
@[simp] theorem State.setCl_part (s : State) (c : Nat) (v : Cluster) (j : Nat) : (s.setCl c v).part j = s.part j := id rfl
@[simp] theorem State.setCl_ctx (s : State) (c : Nat) (v : Cluster) (j : Nat) : (s.setCl c v).ctx j = s.ctx j := id rfl
@[simp] theorem State.setCl_qp (s : State) (c : Nat) (v : Cluster) (j : Nat) : (s.setCl c v).qp j = s.qp j := id rfl
@[simp] theorem State.setCl_fn (s : State) (c : Nat) (v : Cluster) (j : Nat) : (s.setCl c v).fn j = s.fn j := id rfl
@[simp] theorem State.setCl_link (s : State) (c : Nat) (v : Cluster) (j : Nat) : (s.setCl c v).link j = s.link j := id rfl
@[simp] theorem State.setCl_port (s : State) (c : Nat) (v : Cluster) (j : Nat) : (s.setCl c v).port j = s.port j := id rfl
@[simp] theorem State.setCl_region (s : State) (c : Nat) (v : Cluster) (j : Nat) : (s.setCl c v).region j = s.region j := id rfl
@[simp] theorem State.setCl_domain (s : State) (c : Nat) (v : Cluster) (j : Nat) : (s.setCl c v).domain j = s.domain j := id rfl
@[simp] theorem State.setCl_xing (s : State) (c : Nat) (v : Cluster) (j : Nat) : (s.setCl c v).xing j = s.xing j := id rfl
@[simp] theorem State.setCl_hbm (s : State) (c : Nat) (v : Cluster) (j : Nat) : (s.setCl c v).hbm j = s.hbm j := id rfl
@[simp] theorem State.setCl_cxl (s : State) (c : Nat) (v : Cluster) (j : Nat) : (s.setCl c v).cxl j = s.cxl j := id rfl
@[simp] theorem State.setCl_win (s : State) (c : Nat) (v : Cluster) (j : Nat) : (s.setCl c v).win j = s.win j := id rfl
@[simp] theorem State.setCl_core (s : State) (c : Nat) (v : Cluster) (j : Nat) : (s.setCl c v).core j = s.core j := id rfl
@[simp] theorem State.setCl_dirLine (s : State) (c : Nat) (v : Cluster) (j : Nat) : (s.setCl c v).dirLine j = s.dirLine j := id rfl
@[simp] theorem State.setCl_page (s : State) (c : Nat) (v : Cluster) (j : Nat) : (s.setCl c v).page j = s.page j := id rfl
@[simp] theorem State.setCl_fabLink (s : State) (c : Nat) (v : Cluster) (r0 n0 : Nat) : (s.setCl c v).fabLink r0 n0 = s.fabLink r0 n0 := id rfl
@[simp] theorem State.setCl_reg (s : State) (c : Nat) (v : Cluster) (o0 : Nat) : (s.setCl c v).reg o0 = s.reg o0 := id rfl
@[simp] theorem State.setCl_trow (s : State) (c : Nat) (v : Cluster) (c0 n0 : Nat) : (s.setCl c v).trow c0 n0 = s.trow c0 n0 := id rfl
@[simp] theorem State.setCl_now (s : State) (c : Nat) (v : Cluster)  : (s.setCl c v).now  = s.now  := id rfl
@[simp] theorem State.setCl_rawByte (s : State) (c : Nat) (v : Cluster) (a0 : Nat) : (s.setCl c v).rawByte a0 = s.rawByte a0 := id rfl
theorem State.setCl_cl (s : State) (c : Nat) (v : Cluster) (j : Nat) : (s.setCl c v).cl j = if j = c then v else s.cl j := Tbl.get_set _ _ _ _ _
@[simp] theorem State.setCl_cl_same (s : State) (c : Nat) (v : Cluster) : (s.setCl c v).cl c = v := Tbl.get_set_same _ _ _ _
@[simp] theorem State.setCl_cl_ne (s : State) (c : Nat) (v : Cluster) (j : Nat) (h : j ≠ c) : (s.setCl c v).cl j = s.cl j := Tbl.get_set_ne _ _ _ h
@[simp] theorem State.setPart_pending (s : State) (p : Nat) (v : Part) : (s.setPart p v).pending = s.pending := id rfl
@[simp] theorem State.setPart_out (s : State) (p : Nat) (v : Part) : (s.setPart p v).out = s.out := id rfl
@[simp] theorem State.setPart_fresh (s : State) (p : Nat) (v : Part) : (s.setPart p v).fresh = s.fresh := id rfl
@[simp] theorem State.setPart_order (s : State) (p : Nat) (v : Part) : (s.setPart p v).order = s.order := id rfl
@[simp] theorem State.setPart_variant36 (s : State) (p : Nat) (v : Part) : (s.setPart p v).variant36 = s.variant36 := id rfl
@[simp] theorem State.setPart_enabled (s : State) (p : Nat) (v : Part) : (s.setPart p v).enabled = s.enabled := id rfl
@[simp] theorem State.setPart_clusters (s : State) (p : Nat) (v : Part) : (s.setPart p v).clusters = s.clusters := id rfl
@[simp] theorem State.setPart_tarn (s : State) (p : Nat) (v : Part) : (s.setPart p v).tarn = s.tarn := id rfl
@[simp] theorem State.setPart_mem (s : State) (p : Nat) (v : Part) : (s.setPart p v).mem = s.mem := id rfl
@[simp] theorem State.setPart_poison (s : State) (p : Nat) (v : Part) : (s.setPart p v).poison = s.poison := id rfl
@[simp] theorem State.setPart_pages (s : State) (p : Nat) (v : Part) : (s.setPart p v).pages = s.pages := id rfl
@[simp] theorem State.setPart_zeroRuns (s : State) (p : Nat) (v : Part) : (s.setPart p v).zeroRuns = s.zeroRuns := id rfl
@[simp] theorem State.setPart_regions (s : State) (p : Nat) (v : Part) : (s.setPart p v).regions = s.regions := id rfl
@[simp] theorem State.setPart_domains (s : State) (p : Nat) (v : Part) : (s.setPart p v).domains = s.domains := id rfl
@[simp] theorem State.setPart_xings (s : State) (p : Nat) (v : Part) : (s.setPart p v).xings = s.xings := id rfl
@[simp] theorem State.setPart_tb (s : State) (p : Nat) (v : Part) : (s.setPart p v).tb = s.tb := id rfl
@[simp] theorem State.setPart_net (s : State) (p : Nat) (v : Part) : (s.setPart p v).net = s.net := id rfl
@[simp] theorem State.setPart_nextPkt (s : State) (p : Nat) (v : Part) : (s.setPart p v).nextPkt = s.nextPkt := id rfl
@[simp] theorem State.setPart_routes (s : State) (p : Nat) (v : Part) : (s.setPart p v).routes = s.routes := id rfl
@[simp] theorem State.setPart_perimRoutes (s : State) (p : Nat) (v : Part) : (s.setPart p v).perimRoutes = s.perimRoutes := id rfl
@[simp] theorem State.setPart_fabLinks (s : State) (p : Nat) (v : Part) : (s.setPart p v).fabLinks = s.fabLinks := id rfl
@[simp] theorem State.setPart_discards (s : State) (p : Nat) (v : Part) : (s.setPart p v).discards = s.discards := id rfl
@[simp] theorem State.setPart_ctxs (s : State) (p : Nat) (v : Part) : (s.setPart p v).ctxs = s.ctxs := id rfl
@[simp] theorem State.setPart_qps (s : State) (p : Nat) (v : Part) : (s.setPart p v).qps = s.qps := id rfl
@[simp] theorem State.setPart_fns (s : State) (p : Nat) (v : Part) : (s.setPart p v).fns = s.fns := id rfl
@[simp] theorem State.setPart_links (s : State) (p : Nat) (v : Part) : (s.setPart p v).links = s.links := id rfl
@[simp] theorem State.setPart_ports (s : State) (p : Nat) (v : Part) : (s.setPart p v).ports = s.ports := id rfl
@[simp] theorem State.setPart_hbms (s : State) (p : Nat) (v : Part) : (s.setPart p v).hbms = s.hbms := id rfl
@[simp] theorem State.setPart_cxlPorts (s : State) (p : Nat) (v : Part) : (s.setPart p v).cxlPorts = s.cxlPorts := id rfl
@[simp] theorem State.setPart_windows (s : State) (p : Nat) (v : Part) : (s.setPart p v).windows = s.windows := id rfl
@[simp] theorem State.setPart_cores (s : State) (p : Nat) (v : Part) : (s.setPart p v).cores = s.cores := id rfl
@[simp] theorem State.setPart_dir (s : State) (p : Nat) (v : Part) : (s.setPart p v).dir = s.dir := id rfl
@[simp] theorem State.setPart_bpm (s : State) (p : Nat) (v : Part) : (s.setPart p v).bpm = s.bpm := id rfl
@[simp] theorem State.setPart_cool (s : State) (p : Nat) (v : Part) : (s.setPart p v).cool = s.cool := id rfl
@[simp] theorem State.setPart_mgt (s : State) (p : Nat) (v : Part) : (s.setPart p v).mgt = s.mgt := id rfl
@[simp] theorem State.setPart_sec (s : State) (p : Nat) (v : Part) : (s.setPart p v).sec = s.sec := id rfl
@[simp] theorem State.setPart_boot (s : State) (p : Nat) (v : Part) : (s.setPart p v).boot = s.boot := id rfl
@[simp] theorem State.setPart_regs (s : State) (p : Nat) (v : Part) : (s.setPart p v).regs = s.regs := id rfl
@[simp] theorem State.setPart_sels (s : State) (p : Nat) (v : Part) : (s.setPart p v).sels = s.sels := id rfl
@[simp] theorem State.setPart_halves (s : State) (p : Nat) (v : Part) : (s.setPart p v).halves = s.halves := id rfl
@[simp] theorem State.setPart_cl (s : State) (p : Nat) (v : Part) (j : Nat) : (s.setPart p v).cl j = s.cl j := id rfl
@[simp] theorem State.setPart_ctx (s : State) (p : Nat) (v : Part) (j : Nat) : (s.setPart p v).ctx j = s.ctx j := id rfl
@[simp] theorem State.setPart_qp (s : State) (p : Nat) (v : Part) (j : Nat) : (s.setPart p v).qp j = s.qp j := id rfl
@[simp] theorem State.setPart_fn (s : State) (p : Nat) (v : Part) (j : Nat) : (s.setPart p v).fn j = s.fn j := id rfl
@[simp] theorem State.setPart_link (s : State) (p : Nat) (v : Part) (j : Nat) : (s.setPart p v).link j = s.link j := id rfl
@[simp] theorem State.setPart_port (s : State) (p : Nat) (v : Part) (j : Nat) : (s.setPart p v).port j = s.port j := id rfl
@[simp] theorem State.setPart_region (s : State) (p : Nat) (v : Part) (j : Nat) : (s.setPart p v).region j = s.region j := id rfl
@[simp] theorem State.setPart_domain (s : State) (p : Nat) (v : Part) (j : Nat) : (s.setPart p v).domain j = s.domain j := id rfl
@[simp] theorem State.setPart_xing (s : State) (p : Nat) (v : Part) (j : Nat) : (s.setPart p v).xing j = s.xing j := id rfl
@[simp] theorem State.setPart_hbm (s : State) (p : Nat) (v : Part) (j : Nat) : (s.setPart p v).hbm j = s.hbm j := id rfl
@[simp] theorem State.setPart_cxl (s : State) (p : Nat) (v : Part) (j : Nat) : (s.setPart p v).cxl j = s.cxl j := id rfl
@[simp] theorem State.setPart_win (s : State) (p : Nat) (v : Part) (j : Nat) : (s.setPart p v).win j = s.win j := id rfl
@[simp] theorem State.setPart_core (s : State) (p : Nat) (v : Part) (j : Nat) : (s.setPart p v).core j = s.core j := id rfl
@[simp] theorem State.setPart_dirLine (s : State) (p : Nat) (v : Part) (j : Nat) : (s.setPart p v).dirLine j = s.dirLine j := id rfl
@[simp] theorem State.setPart_page (s : State) (p : Nat) (v : Part) (j : Nat) : (s.setPart p v).page j = s.page j := id rfl
@[simp] theorem State.setPart_fabLink (s : State) (p : Nat) (v : Part) (r0 n0 : Nat) : (s.setPart p v).fabLink r0 n0 = s.fabLink r0 n0 := id rfl
@[simp] theorem State.setPart_reg (s : State) (p : Nat) (v : Part) (o0 : Nat) : (s.setPart p v).reg o0 = s.reg o0 := id rfl
@[simp] theorem State.setPart_trow (s : State) (p : Nat) (v : Part) (c0 n0 : Nat) : (s.setPart p v).trow c0 n0 = s.trow c0 n0 := id rfl
@[simp] theorem State.setPart_now (s : State) (p : Nat) (v : Part)  : (s.setPart p v).now  = s.now  := id rfl
@[simp] theorem State.setPart_rawByte (s : State) (p : Nat) (v : Part) (a0 : Nat) : (s.setPart p v).rawByte a0 = s.rawByte a0 := id rfl
theorem State.setPart_part (s : State) (p : Nat) (v : Part) (j : Nat) : (s.setPart p v).part j = if j = p then v else s.part j := Tbl.get_set _ _ _ _ _
@[simp] theorem State.setPart_part_same (s : State) (p : Nat) (v : Part) : (s.setPart p v).part p = v := Tbl.get_set_same _ _ _ _
@[simp] theorem State.setPart_part_ne (s : State) (p : Nat) (v : Part) (j : Nat) (h : j ≠ p) : (s.setPart p v).part j = s.part j := Tbl.get_set_ne _ _ _ h
@[simp] theorem State.setCtx_pending (s : State) (x : Nat) (v : Ctx) : (s.setCtx x v).pending = s.pending := id rfl
@[simp] theorem State.setCtx_out (s : State) (x : Nat) (v : Ctx) : (s.setCtx x v).out = s.out := id rfl
@[simp] theorem State.setCtx_fresh (s : State) (x : Nat) (v : Ctx) : (s.setCtx x v).fresh = s.fresh := id rfl
@[simp] theorem State.setCtx_order (s : State) (x : Nat) (v : Ctx) : (s.setCtx x v).order = s.order := id rfl
@[simp] theorem State.setCtx_variant36 (s : State) (x : Nat) (v : Ctx) : (s.setCtx x v).variant36 = s.variant36 := id rfl
@[simp] theorem State.setCtx_enabled (s : State) (x : Nat) (v : Ctx) : (s.setCtx x v).enabled = s.enabled := id rfl
@[simp] theorem State.setCtx_clusters (s : State) (x : Nat) (v : Ctx) : (s.setCtx x v).clusters = s.clusters := id rfl
@[simp] theorem State.setCtx_tarn (s : State) (x : Nat) (v : Ctx) : (s.setCtx x v).tarn = s.tarn := id rfl
@[simp] theorem State.setCtx_mem (s : State) (x : Nat) (v : Ctx) : (s.setCtx x v).mem = s.mem := id rfl
@[simp] theorem State.setCtx_poison (s : State) (x : Nat) (v : Ctx) : (s.setCtx x v).poison = s.poison := id rfl
@[simp] theorem State.setCtx_pages (s : State) (x : Nat) (v : Ctx) : (s.setCtx x v).pages = s.pages := id rfl
@[simp] theorem State.setCtx_zeroRuns (s : State) (x : Nat) (v : Ctx) : (s.setCtx x v).zeroRuns = s.zeroRuns := id rfl
@[simp] theorem State.setCtx_regions (s : State) (x : Nat) (v : Ctx) : (s.setCtx x v).regions = s.regions := id rfl
@[simp] theorem State.setCtx_domains (s : State) (x : Nat) (v : Ctx) : (s.setCtx x v).domains = s.domains := id rfl
@[simp] theorem State.setCtx_xings (s : State) (x : Nat) (v : Ctx) : (s.setCtx x v).xings = s.xings := id rfl
@[simp] theorem State.setCtx_tb (s : State) (x : Nat) (v : Ctx) : (s.setCtx x v).tb = s.tb := id rfl
@[simp] theorem State.setCtx_net (s : State) (x : Nat) (v : Ctx) : (s.setCtx x v).net = s.net := id rfl
@[simp] theorem State.setCtx_nextPkt (s : State) (x : Nat) (v : Ctx) : (s.setCtx x v).nextPkt = s.nextPkt := id rfl
@[simp] theorem State.setCtx_routes (s : State) (x : Nat) (v : Ctx) : (s.setCtx x v).routes = s.routes := id rfl
@[simp] theorem State.setCtx_perimRoutes (s : State) (x : Nat) (v : Ctx) : (s.setCtx x v).perimRoutes = s.perimRoutes := id rfl
@[simp] theorem State.setCtx_fabLinks (s : State) (x : Nat) (v : Ctx) : (s.setCtx x v).fabLinks = s.fabLinks := id rfl
@[simp] theorem State.setCtx_discards (s : State) (x : Nat) (v : Ctx) : (s.setCtx x v).discards = s.discards := id rfl
@[simp] theorem State.setCtx_parts (s : State) (x : Nat) (v : Ctx) : (s.setCtx x v).parts = s.parts := id rfl
@[simp] theorem State.setCtx_qps (s : State) (x : Nat) (v : Ctx) : (s.setCtx x v).qps = s.qps := id rfl
@[simp] theorem State.setCtx_fns (s : State) (x : Nat) (v : Ctx) : (s.setCtx x v).fns = s.fns := id rfl
@[simp] theorem State.setCtx_links (s : State) (x : Nat) (v : Ctx) : (s.setCtx x v).links = s.links := id rfl
@[simp] theorem State.setCtx_ports (s : State) (x : Nat) (v : Ctx) : (s.setCtx x v).ports = s.ports := id rfl
@[simp] theorem State.setCtx_hbms (s : State) (x : Nat) (v : Ctx) : (s.setCtx x v).hbms = s.hbms := id rfl
@[simp] theorem State.setCtx_cxlPorts (s : State) (x : Nat) (v : Ctx) : (s.setCtx x v).cxlPorts = s.cxlPorts := id rfl
@[simp] theorem State.setCtx_windows (s : State) (x : Nat) (v : Ctx) : (s.setCtx x v).windows = s.windows := id rfl
@[simp] theorem State.setCtx_cores (s : State) (x : Nat) (v : Ctx) : (s.setCtx x v).cores = s.cores := id rfl
@[simp] theorem State.setCtx_dir (s : State) (x : Nat) (v : Ctx) : (s.setCtx x v).dir = s.dir := id rfl
@[simp] theorem State.setCtx_bpm (s : State) (x : Nat) (v : Ctx) : (s.setCtx x v).bpm = s.bpm := id rfl
@[simp] theorem State.setCtx_cool (s : State) (x : Nat) (v : Ctx) : (s.setCtx x v).cool = s.cool := id rfl
@[simp] theorem State.setCtx_mgt (s : State) (x : Nat) (v : Ctx) : (s.setCtx x v).mgt = s.mgt := id rfl
@[simp] theorem State.setCtx_sec (s : State) (x : Nat) (v : Ctx) : (s.setCtx x v).sec = s.sec := id rfl
@[simp] theorem State.setCtx_boot (s : State) (x : Nat) (v : Ctx) : (s.setCtx x v).boot = s.boot := id rfl
@[simp] theorem State.setCtx_regs (s : State) (x : Nat) (v : Ctx) : (s.setCtx x v).regs = s.regs := id rfl
@[simp] theorem State.setCtx_sels (s : State) (x : Nat) (v : Ctx) : (s.setCtx x v).sels = s.sels := id rfl
@[simp] theorem State.setCtx_halves (s : State) (x : Nat) (v : Ctx) : (s.setCtx x v).halves = s.halves := id rfl
@[simp] theorem State.setCtx_cl (s : State) (x : Nat) (v : Ctx) (j : Nat) : (s.setCtx x v).cl j = s.cl j := id rfl
@[simp] theorem State.setCtx_part (s : State) (x : Nat) (v : Ctx) (j : Nat) : (s.setCtx x v).part j = s.part j := id rfl
@[simp] theorem State.setCtx_qp (s : State) (x : Nat) (v : Ctx) (j : Nat) : (s.setCtx x v).qp j = s.qp j := id rfl
@[simp] theorem State.setCtx_fn (s : State) (x : Nat) (v : Ctx) (j : Nat) : (s.setCtx x v).fn j = s.fn j := id rfl
@[simp] theorem State.setCtx_link (s : State) (x : Nat) (v : Ctx) (j : Nat) : (s.setCtx x v).link j = s.link j := id rfl
@[simp] theorem State.setCtx_port (s : State) (x : Nat) (v : Ctx) (j : Nat) : (s.setCtx x v).port j = s.port j := id rfl
@[simp] theorem State.setCtx_region (s : State) (x : Nat) (v : Ctx) (j : Nat) : (s.setCtx x v).region j = s.region j := id rfl
@[simp] theorem State.setCtx_domain (s : State) (x : Nat) (v : Ctx) (j : Nat) : (s.setCtx x v).domain j = s.domain j := id rfl
@[simp] theorem State.setCtx_xing (s : State) (x : Nat) (v : Ctx) (j : Nat) : (s.setCtx x v).xing j = s.xing j := id rfl
@[simp] theorem State.setCtx_hbm (s : State) (x : Nat) (v : Ctx) (j : Nat) : (s.setCtx x v).hbm j = s.hbm j := id rfl
@[simp] theorem State.setCtx_cxl (s : State) (x : Nat) (v : Ctx) (j : Nat) : (s.setCtx x v).cxl j = s.cxl j := id rfl
@[simp] theorem State.setCtx_win (s : State) (x : Nat) (v : Ctx) (j : Nat) : (s.setCtx x v).win j = s.win j := id rfl
@[simp] theorem State.setCtx_core (s : State) (x : Nat) (v : Ctx) (j : Nat) : (s.setCtx x v).core j = s.core j := id rfl
@[simp] theorem State.setCtx_dirLine (s : State) (x : Nat) (v : Ctx) (j : Nat) : (s.setCtx x v).dirLine j = s.dirLine j := id rfl
@[simp] theorem State.setCtx_page (s : State) (x : Nat) (v : Ctx) (j : Nat) : (s.setCtx x v).page j = s.page j := id rfl
@[simp] theorem State.setCtx_fabLink (s : State) (x : Nat) (v : Ctx) (r0 n0 : Nat) : (s.setCtx x v).fabLink r0 n0 = s.fabLink r0 n0 := id rfl
@[simp] theorem State.setCtx_reg (s : State) (x : Nat) (v : Ctx) (o0 : Nat) : (s.setCtx x v).reg o0 = s.reg o0 := id rfl
@[simp] theorem State.setCtx_trow (s : State) (x : Nat) (v : Ctx) (c0 n0 : Nat) : (s.setCtx x v).trow c0 n0 = s.trow c0 n0 := id rfl
@[simp] theorem State.setCtx_now (s : State) (x : Nat) (v : Ctx)  : (s.setCtx x v).now  = s.now  := id rfl
@[simp] theorem State.setCtx_rawByte (s : State) (x : Nat) (v : Ctx) (a0 : Nat) : (s.setCtx x v).rawByte a0 = s.rawByte a0 := id rfl
theorem State.setCtx_ctx (s : State) (x : Nat) (v : Ctx) (j : Nat) : (s.setCtx x v).ctx j = if j = x then v else s.ctx j := Tbl.get_set _ _ _ _ _
@[simp] theorem State.setCtx_ctx_same (s : State) (x : Nat) (v : Ctx) : (s.setCtx x v).ctx x = v := Tbl.get_set_same _ _ _ _
@[simp] theorem State.setCtx_ctx_ne (s : State) (x : Nat) (v : Ctx) (j : Nat) (h : j ≠ x) : (s.setCtx x v).ctx j = s.ctx j := Tbl.get_set_ne _ _ _ h
@[simp] theorem State.setQp_pending (s : State) (q : Nat) (v : Qp) : (s.setQp q v).pending = s.pending := id rfl
@[simp] theorem State.setQp_out (s : State) (q : Nat) (v : Qp) : (s.setQp q v).out = s.out := id rfl
@[simp] theorem State.setQp_fresh (s : State) (q : Nat) (v : Qp) : (s.setQp q v).fresh = s.fresh := id rfl
@[simp] theorem State.setQp_order (s : State) (q : Nat) (v : Qp) : (s.setQp q v).order = s.order := id rfl
@[simp] theorem State.setQp_variant36 (s : State) (q : Nat) (v : Qp) : (s.setQp q v).variant36 = s.variant36 := id rfl
@[simp] theorem State.setQp_enabled (s : State) (q : Nat) (v : Qp) : (s.setQp q v).enabled = s.enabled := id rfl
@[simp] theorem State.setQp_clusters (s : State) (q : Nat) (v : Qp) : (s.setQp q v).clusters = s.clusters := id rfl
@[simp] theorem State.setQp_tarn (s : State) (q : Nat) (v : Qp) : (s.setQp q v).tarn = s.tarn := id rfl
@[simp] theorem State.setQp_mem (s : State) (q : Nat) (v : Qp) : (s.setQp q v).mem = s.mem := id rfl
@[simp] theorem State.setQp_poison (s : State) (q : Nat) (v : Qp) : (s.setQp q v).poison = s.poison := id rfl
@[simp] theorem State.setQp_pages (s : State) (q : Nat) (v : Qp) : (s.setQp q v).pages = s.pages := id rfl
@[simp] theorem State.setQp_zeroRuns (s : State) (q : Nat) (v : Qp) : (s.setQp q v).zeroRuns = s.zeroRuns := id rfl
@[simp] theorem State.setQp_regions (s : State) (q : Nat) (v : Qp) : (s.setQp q v).regions = s.regions := id rfl
@[simp] theorem State.setQp_domains (s : State) (q : Nat) (v : Qp) : (s.setQp q v).domains = s.domains := id rfl
@[simp] theorem State.setQp_xings (s : State) (q : Nat) (v : Qp) : (s.setQp q v).xings = s.xings := id rfl
@[simp] theorem State.setQp_tb (s : State) (q : Nat) (v : Qp) : (s.setQp q v).tb = s.tb := id rfl
@[simp] theorem State.setQp_net (s : State) (q : Nat) (v : Qp) : (s.setQp q v).net = s.net := id rfl
@[simp] theorem State.setQp_nextPkt (s : State) (q : Nat) (v : Qp) : (s.setQp q v).nextPkt = s.nextPkt := id rfl
@[simp] theorem State.setQp_routes (s : State) (q : Nat) (v : Qp) : (s.setQp q v).routes = s.routes := id rfl
@[simp] theorem State.setQp_perimRoutes (s : State) (q : Nat) (v : Qp) : (s.setQp q v).perimRoutes = s.perimRoutes := id rfl
@[simp] theorem State.setQp_fabLinks (s : State) (q : Nat) (v : Qp) : (s.setQp q v).fabLinks = s.fabLinks := id rfl
@[simp] theorem State.setQp_discards (s : State) (q : Nat) (v : Qp) : (s.setQp q v).discards = s.discards := id rfl
@[simp] theorem State.setQp_parts (s : State) (q : Nat) (v : Qp) : (s.setQp q v).parts = s.parts := id rfl
@[simp] theorem State.setQp_ctxs (s : State) (q : Nat) (v : Qp) : (s.setQp q v).ctxs = s.ctxs := id rfl
@[simp] theorem State.setQp_fns (s : State) (q : Nat) (v : Qp) : (s.setQp q v).fns = s.fns := id rfl
@[simp] theorem State.setQp_links (s : State) (q : Nat) (v : Qp) : (s.setQp q v).links = s.links := id rfl
@[simp] theorem State.setQp_ports (s : State) (q : Nat) (v : Qp) : (s.setQp q v).ports = s.ports := id rfl
@[simp] theorem State.setQp_hbms (s : State) (q : Nat) (v : Qp) : (s.setQp q v).hbms = s.hbms := id rfl
@[simp] theorem State.setQp_cxlPorts (s : State) (q : Nat) (v : Qp) : (s.setQp q v).cxlPorts = s.cxlPorts := id rfl
@[simp] theorem State.setQp_windows (s : State) (q : Nat) (v : Qp) : (s.setQp q v).windows = s.windows := id rfl
@[simp] theorem State.setQp_cores (s : State) (q : Nat) (v : Qp) : (s.setQp q v).cores = s.cores := id rfl
@[simp] theorem State.setQp_dir (s : State) (q : Nat) (v : Qp) : (s.setQp q v).dir = s.dir := id rfl
@[simp] theorem State.setQp_bpm (s : State) (q : Nat) (v : Qp) : (s.setQp q v).bpm = s.bpm := id rfl
@[simp] theorem State.setQp_cool (s : State) (q : Nat) (v : Qp) : (s.setQp q v).cool = s.cool := id rfl
@[simp] theorem State.setQp_mgt (s : State) (q : Nat) (v : Qp) : (s.setQp q v).mgt = s.mgt := id rfl
@[simp] theorem State.setQp_sec (s : State) (q : Nat) (v : Qp) : (s.setQp q v).sec = s.sec := id rfl
@[simp] theorem State.setQp_boot (s : State) (q : Nat) (v : Qp) : (s.setQp q v).boot = s.boot := id rfl
@[simp] theorem State.setQp_regs (s : State) (q : Nat) (v : Qp) : (s.setQp q v).regs = s.regs := id rfl
@[simp] theorem State.setQp_sels (s : State) (q : Nat) (v : Qp) : (s.setQp q v).sels = s.sels := id rfl
@[simp] theorem State.setQp_halves (s : State) (q : Nat) (v : Qp) : (s.setQp q v).halves = s.halves := id rfl
@[simp] theorem State.setQp_cl (s : State) (q : Nat) (v : Qp) (j : Nat) : (s.setQp q v).cl j = s.cl j := id rfl
@[simp] theorem State.setQp_part (s : State) (q : Nat) (v : Qp) (j : Nat) : (s.setQp q v).part j = s.part j := id rfl
@[simp] theorem State.setQp_ctx (s : State) (q : Nat) (v : Qp) (j : Nat) : (s.setQp q v).ctx j = s.ctx j := id rfl
@[simp] theorem State.setQp_fn (s : State) (q : Nat) (v : Qp) (j : Nat) : (s.setQp q v).fn j = s.fn j := id rfl
@[simp] theorem State.setQp_link (s : State) (q : Nat) (v : Qp) (j : Nat) : (s.setQp q v).link j = s.link j := id rfl
@[simp] theorem State.setQp_port (s : State) (q : Nat) (v : Qp) (j : Nat) : (s.setQp q v).port j = s.port j := id rfl
@[simp] theorem State.setQp_region (s : State) (q : Nat) (v : Qp) (j : Nat) : (s.setQp q v).region j = s.region j := id rfl
@[simp] theorem State.setQp_domain (s : State) (q : Nat) (v : Qp) (j : Nat) : (s.setQp q v).domain j = s.domain j := id rfl
@[simp] theorem State.setQp_xing (s : State) (q : Nat) (v : Qp) (j : Nat) : (s.setQp q v).xing j = s.xing j := id rfl
@[simp] theorem State.setQp_hbm (s : State) (q : Nat) (v : Qp) (j : Nat) : (s.setQp q v).hbm j = s.hbm j := id rfl
@[simp] theorem State.setQp_cxl (s : State) (q : Nat) (v : Qp) (j : Nat) : (s.setQp q v).cxl j = s.cxl j := id rfl
@[simp] theorem State.setQp_win (s : State) (q : Nat) (v : Qp) (j : Nat) : (s.setQp q v).win j = s.win j := id rfl
@[simp] theorem State.setQp_core (s : State) (q : Nat) (v : Qp) (j : Nat) : (s.setQp q v).core j = s.core j := id rfl
@[simp] theorem State.setQp_dirLine (s : State) (q : Nat) (v : Qp) (j : Nat) : (s.setQp q v).dirLine j = s.dirLine j := id rfl
@[simp] theorem State.setQp_page (s : State) (q : Nat) (v : Qp) (j : Nat) : (s.setQp q v).page j = s.page j := id rfl
@[simp] theorem State.setQp_fabLink (s : State) (q : Nat) (v : Qp) (r0 n0 : Nat) : (s.setQp q v).fabLink r0 n0 = s.fabLink r0 n0 := id rfl
@[simp] theorem State.setQp_reg (s : State) (q : Nat) (v : Qp) (o0 : Nat) : (s.setQp q v).reg o0 = s.reg o0 := id rfl
@[simp] theorem State.setQp_trow (s : State) (q : Nat) (v : Qp) (c0 n0 : Nat) : (s.setQp q v).trow c0 n0 = s.trow c0 n0 := id rfl
@[simp] theorem State.setQp_now (s : State) (q : Nat) (v : Qp)  : (s.setQp q v).now  = s.now  := id rfl
@[simp] theorem State.setQp_rawByte (s : State) (q : Nat) (v : Qp) (a0 : Nat) : (s.setQp q v).rawByte a0 = s.rawByte a0 := id rfl
theorem State.setQp_qp (s : State) (q : Nat) (v : Qp) (j : Nat) : (s.setQp q v).qp j = if j = q then v else s.qp j := Tbl.get_set _ _ _ _ _
@[simp] theorem State.setQp_qp_same (s : State) (q : Nat) (v : Qp) : (s.setQp q v).qp q = v := Tbl.get_set_same _ _ _ _
@[simp] theorem State.setQp_qp_ne (s : State) (q : Nat) (v : Qp) (j : Nat) (h : j ≠ q) : (s.setQp q v).qp j = s.qp j := Tbl.get_set_ne _ _ _ h
@[simp] theorem State.setFn_pending (s : State) (f : Nat) (v : Fn) : (s.setFn f v).pending = s.pending := id rfl
@[simp] theorem State.setFn_out (s : State) (f : Nat) (v : Fn) : (s.setFn f v).out = s.out := id rfl
@[simp] theorem State.setFn_fresh (s : State) (f : Nat) (v : Fn) : (s.setFn f v).fresh = s.fresh := id rfl
@[simp] theorem State.setFn_order (s : State) (f : Nat) (v : Fn) : (s.setFn f v).order = s.order := id rfl
@[simp] theorem State.setFn_variant36 (s : State) (f : Nat) (v : Fn) : (s.setFn f v).variant36 = s.variant36 := id rfl
@[simp] theorem State.setFn_enabled (s : State) (f : Nat) (v : Fn) : (s.setFn f v).enabled = s.enabled := id rfl
@[simp] theorem State.setFn_clusters (s : State) (f : Nat) (v : Fn) : (s.setFn f v).clusters = s.clusters := id rfl
@[simp] theorem State.setFn_tarn (s : State) (f : Nat) (v : Fn) : (s.setFn f v).tarn = s.tarn := id rfl
@[simp] theorem State.setFn_mem (s : State) (f : Nat) (v : Fn) : (s.setFn f v).mem = s.mem := id rfl
@[simp] theorem State.setFn_poison (s : State) (f : Nat) (v : Fn) : (s.setFn f v).poison = s.poison := id rfl
@[simp] theorem State.setFn_pages (s : State) (f : Nat) (v : Fn) : (s.setFn f v).pages = s.pages := id rfl
@[simp] theorem State.setFn_zeroRuns (s : State) (f : Nat) (v : Fn) : (s.setFn f v).zeroRuns = s.zeroRuns := id rfl
@[simp] theorem State.setFn_regions (s : State) (f : Nat) (v : Fn) : (s.setFn f v).regions = s.regions := id rfl
@[simp] theorem State.setFn_domains (s : State) (f : Nat) (v : Fn) : (s.setFn f v).domains = s.domains := id rfl
@[simp] theorem State.setFn_xings (s : State) (f : Nat) (v : Fn) : (s.setFn f v).xings = s.xings := id rfl
@[simp] theorem State.setFn_tb (s : State) (f : Nat) (v : Fn) : (s.setFn f v).tb = s.tb := id rfl
@[simp] theorem State.setFn_net (s : State) (f : Nat) (v : Fn) : (s.setFn f v).net = s.net := id rfl
@[simp] theorem State.setFn_nextPkt (s : State) (f : Nat) (v : Fn) : (s.setFn f v).nextPkt = s.nextPkt := id rfl
@[simp] theorem State.setFn_routes (s : State) (f : Nat) (v : Fn) : (s.setFn f v).routes = s.routes := id rfl
@[simp] theorem State.setFn_perimRoutes (s : State) (f : Nat) (v : Fn) : (s.setFn f v).perimRoutes = s.perimRoutes := id rfl
@[simp] theorem State.setFn_fabLinks (s : State) (f : Nat) (v : Fn) : (s.setFn f v).fabLinks = s.fabLinks := id rfl
@[simp] theorem State.setFn_discards (s : State) (f : Nat) (v : Fn) : (s.setFn f v).discards = s.discards := id rfl
@[simp] theorem State.setFn_parts (s : State) (f : Nat) (v : Fn) : (s.setFn f v).parts = s.parts := id rfl
@[simp] theorem State.setFn_ctxs (s : State) (f : Nat) (v : Fn) : (s.setFn f v).ctxs = s.ctxs := id rfl
@[simp] theorem State.setFn_qps (s : State) (f : Nat) (v : Fn) : (s.setFn f v).qps = s.qps := id rfl
@[simp] theorem State.setFn_links (s : State) (f : Nat) (v : Fn) : (s.setFn f v).links = s.links := id rfl
@[simp] theorem State.setFn_ports (s : State) (f : Nat) (v : Fn) : (s.setFn f v).ports = s.ports := id rfl
@[simp] theorem State.setFn_hbms (s : State) (f : Nat) (v : Fn) : (s.setFn f v).hbms = s.hbms := id rfl
@[simp] theorem State.setFn_cxlPorts (s : State) (f : Nat) (v : Fn) : (s.setFn f v).cxlPorts = s.cxlPorts := id rfl
@[simp] theorem State.setFn_windows (s : State) (f : Nat) (v : Fn) : (s.setFn f v).windows = s.windows := id rfl
@[simp] theorem State.setFn_cores (s : State) (f : Nat) (v : Fn) : (s.setFn f v).cores = s.cores := id rfl
@[simp] theorem State.setFn_dir (s : State) (f : Nat) (v : Fn) : (s.setFn f v).dir = s.dir := id rfl
@[simp] theorem State.setFn_bpm (s : State) (f : Nat) (v : Fn) : (s.setFn f v).bpm = s.bpm := id rfl
@[simp] theorem State.setFn_cool (s : State) (f : Nat) (v : Fn) : (s.setFn f v).cool = s.cool := id rfl
@[simp] theorem State.setFn_mgt (s : State) (f : Nat) (v : Fn) : (s.setFn f v).mgt = s.mgt := id rfl
@[simp] theorem State.setFn_sec (s : State) (f : Nat) (v : Fn) : (s.setFn f v).sec = s.sec := id rfl
@[simp] theorem State.setFn_boot (s : State) (f : Nat) (v : Fn) : (s.setFn f v).boot = s.boot := id rfl
@[simp] theorem State.setFn_regs (s : State) (f : Nat) (v : Fn) : (s.setFn f v).regs = s.regs := id rfl
@[simp] theorem State.setFn_sels (s : State) (f : Nat) (v : Fn) : (s.setFn f v).sels = s.sels := id rfl
@[simp] theorem State.setFn_halves (s : State) (f : Nat) (v : Fn) : (s.setFn f v).halves = s.halves := id rfl
@[simp] theorem State.setFn_cl (s : State) (f : Nat) (v : Fn) (j : Nat) : (s.setFn f v).cl j = s.cl j := id rfl
@[simp] theorem State.setFn_part (s : State) (f : Nat) (v : Fn) (j : Nat) : (s.setFn f v).part j = s.part j := id rfl
@[simp] theorem State.setFn_ctx (s : State) (f : Nat) (v : Fn) (j : Nat) : (s.setFn f v).ctx j = s.ctx j := id rfl
@[simp] theorem State.setFn_qp (s : State) (f : Nat) (v : Fn) (j : Nat) : (s.setFn f v).qp j = s.qp j := id rfl
@[simp] theorem State.setFn_link (s : State) (f : Nat) (v : Fn) (j : Nat) : (s.setFn f v).link j = s.link j := id rfl
@[simp] theorem State.setFn_port (s : State) (f : Nat) (v : Fn) (j : Nat) : (s.setFn f v).port j = s.port j := id rfl
@[simp] theorem State.setFn_region (s : State) (f : Nat) (v : Fn) (j : Nat) : (s.setFn f v).region j = s.region j := id rfl
@[simp] theorem State.setFn_domain (s : State) (f : Nat) (v : Fn) (j : Nat) : (s.setFn f v).domain j = s.domain j := id rfl
@[simp] theorem State.setFn_xing (s : State) (f : Nat) (v : Fn) (j : Nat) : (s.setFn f v).xing j = s.xing j := id rfl
@[simp] theorem State.setFn_hbm (s : State) (f : Nat) (v : Fn) (j : Nat) : (s.setFn f v).hbm j = s.hbm j := id rfl
@[simp] theorem State.setFn_cxl (s : State) (f : Nat) (v : Fn) (j : Nat) : (s.setFn f v).cxl j = s.cxl j := id rfl
@[simp] theorem State.setFn_win (s : State) (f : Nat) (v : Fn) (j : Nat) : (s.setFn f v).win j = s.win j := id rfl
@[simp] theorem State.setFn_core (s : State) (f : Nat) (v : Fn) (j : Nat) : (s.setFn f v).core j = s.core j := id rfl
@[simp] theorem State.setFn_dirLine (s : State) (f : Nat) (v : Fn) (j : Nat) : (s.setFn f v).dirLine j = s.dirLine j := id rfl
@[simp] theorem State.setFn_page (s : State) (f : Nat) (v : Fn) (j : Nat) : (s.setFn f v).page j = s.page j := id rfl
@[simp] theorem State.setFn_fabLink (s : State) (f : Nat) (v : Fn) (r0 n0 : Nat) : (s.setFn f v).fabLink r0 n0 = s.fabLink r0 n0 := id rfl
@[simp] theorem State.setFn_reg (s : State) (f : Nat) (v : Fn) (o0 : Nat) : (s.setFn f v).reg o0 = s.reg o0 := id rfl
@[simp] theorem State.setFn_trow (s : State) (f : Nat) (v : Fn) (c0 n0 : Nat) : (s.setFn f v).trow c0 n0 = s.trow c0 n0 := id rfl
@[simp] theorem State.setFn_now (s : State) (f : Nat) (v : Fn)  : (s.setFn f v).now  = s.now  := id rfl
@[simp] theorem State.setFn_rawByte (s : State) (f : Nat) (v : Fn) (a0 : Nat) : (s.setFn f v).rawByte a0 = s.rawByte a0 := id rfl
theorem State.setFn_fn (s : State) (f : Nat) (v : Fn) (j : Nat) : (s.setFn f v).fn j = if j = f then v else s.fn j := Tbl.get_set _ _ _ _ _
@[simp] theorem State.setFn_fn_same (s : State) (f : Nat) (v : Fn) : (s.setFn f v).fn f = v := Tbl.get_set_same _ _ _ _
@[simp] theorem State.setFn_fn_ne (s : State) (f : Nat) (v : Fn) (j : Nat) (h : j ≠ f) : (s.setFn f v).fn j = s.fn j := Tbl.get_set_ne _ _ _ h
@[simp] theorem State.setLink_pending (s : State) (l : Nat) (v : Link) : (s.setLink l v).pending = s.pending := id rfl
@[simp] theorem State.setLink_out (s : State) (l : Nat) (v : Link) : (s.setLink l v).out = s.out := id rfl
@[simp] theorem State.setLink_fresh (s : State) (l : Nat) (v : Link) : (s.setLink l v).fresh = s.fresh := id rfl
@[simp] theorem State.setLink_order (s : State) (l : Nat) (v : Link) : (s.setLink l v).order = s.order := id rfl
@[simp] theorem State.setLink_variant36 (s : State) (l : Nat) (v : Link) : (s.setLink l v).variant36 = s.variant36 := id rfl
@[simp] theorem State.setLink_enabled (s : State) (l : Nat) (v : Link) : (s.setLink l v).enabled = s.enabled := id rfl
@[simp] theorem State.setLink_clusters (s : State) (l : Nat) (v : Link) : (s.setLink l v).clusters = s.clusters := id rfl
@[simp] theorem State.setLink_tarn (s : State) (l : Nat) (v : Link) : (s.setLink l v).tarn = s.tarn := id rfl
@[simp] theorem State.setLink_mem (s : State) (l : Nat) (v : Link) : (s.setLink l v).mem = s.mem := id rfl
@[simp] theorem State.setLink_poison (s : State) (l : Nat) (v : Link) : (s.setLink l v).poison = s.poison := id rfl
@[simp] theorem State.setLink_pages (s : State) (l : Nat) (v : Link) : (s.setLink l v).pages = s.pages := id rfl
@[simp] theorem State.setLink_zeroRuns (s : State) (l : Nat) (v : Link) : (s.setLink l v).zeroRuns = s.zeroRuns := id rfl
@[simp] theorem State.setLink_regions (s : State) (l : Nat) (v : Link) : (s.setLink l v).regions = s.regions := id rfl
@[simp] theorem State.setLink_domains (s : State) (l : Nat) (v : Link) : (s.setLink l v).domains = s.domains := id rfl
@[simp] theorem State.setLink_xings (s : State) (l : Nat) (v : Link) : (s.setLink l v).xings = s.xings := id rfl
@[simp] theorem State.setLink_tb (s : State) (l : Nat) (v : Link) : (s.setLink l v).tb = s.tb := id rfl
@[simp] theorem State.setLink_net (s : State) (l : Nat) (v : Link) : (s.setLink l v).net = s.net := id rfl
@[simp] theorem State.setLink_nextPkt (s : State) (l : Nat) (v : Link) : (s.setLink l v).nextPkt = s.nextPkt := id rfl
@[simp] theorem State.setLink_routes (s : State) (l : Nat) (v : Link) : (s.setLink l v).routes = s.routes := id rfl
@[simp] theorem State.setLink_perimRoutes (s : State) (l : Nat) (v : Link) : (s.setLink l v).perimRoutes = s.perimRoutes := id rfl
@[simp] theorem State.setLink_fabLinks (s : State) (l : Nat) (v : Link) : (s.setLink l v).fabLinks = s.fabLinks := id rfl
@[simp] theorem State.setLink_discards (s : State) (l : Nat) (v : Link) : (s.setLink l v).discards = s.discards := id rfl
@[simp] theorem State.setLink_parts (s : State) (l : Nat) (v : Link) : (s.setLink l v).parts = s.parts := id rfl
@[simp] theorem State.setLink_ctxs (s : State) (l : Nat) (v : Link) : (s.setLink l v).ctxs = s.ctxs := id rfl
@[simp] theorem State.setLink_qps (s : State) (l : Nat) (v : Link) : (s.setLink l v).qps = s.qps := id rfl
@[simp] theorem State.setLink_fns (s : State) (l : Nat) (v : Link) : (s.setLink l v).fns = s.fns := id rfl
@[simp] theorem State.setLink_ports (s : State) (l : Nat) (v : Link) : (s.setLink l v).ports = s.ports := id rfl
@[simp] theorem State.setLink_hbms (s : State) (l : Nat) (v : Link) : (s.setLink l v).hbms = s.hbms := id rfl
@[simp] theorem State.setLink_cxlPorts (s : State) (l : Nat) (v : Link) : (s.setLink l v).cxlPorts = s.cxlPorts := id rfl
@[simp] theorem State.setLink_windows (s : State) (l : Nat) (v : Link) : (s.setLink l v).windows = s.windows := id rfl
@[simp] theorem State.setLink_cores (s : State) (l : Nat) (v : Link) : (s.setLink l v).cores = s.cores := id rfl
@[simp] theorem State.setLink_dir (s : State) (l : Nat) (v : Link) : (s.setLink l v).dir = s.dir := id rfl
@[simp] theorem State.setLink_bpm (s : State) (l : Nat) (v : Link) : (s.setLink l v).bpm = s.bpm := id rfl
@[simp] theorem State.setLink_cool (s : State) (l : Nat) (v : Link) : (s.setLink l v).cool = s.cool := id rfl
@[simp] theorem State.setLink_mgt (s : State) (l : Nat) (v : Link) : (s.setLink l v).mgt = s.mgt := id rfl
@[simp] theorem State.setLink_sec (s : State) (l : Nat) (v : Link) : (s.setLink l v).sec = s.sec := id rfl
@[simp] theorem State.setLink_boot (s : State) (l : Nat) (v : Link) : (s.setLink l v).boot = s.boot := id rfl
@[simp] theorem State.setLink_regs (s : State) (l : Nat) (v : Link) : (s.setLink l v).regs = s.regs := id rfl
@[simp] theorem State.setLink_sels (s : State) (l : Nat) (v : Link) : (s.setLink l v).sels = s.sels := id rfl
@[simp] theorem State.setLink_halves (s : State) (l : Nat) (v : Link) : (s.setLink l v).halves = s.halves := id rfl
@[simp] theorem State.setLink_cl (s : State) (l : Nat) (v : Link) (j : Nat) : (s.setLink l v).cl j = s.cl j := id rfl
@[simp] theorem State.setLink_part (s : State) (l : Nat) (v : Link) (j : Nat) : (s.setLink l v).part j = s.part j := id rfl
@[simp] theorem State.setLink_ctx (s : State) (l : Nat) (v : Link) (j : Nat) : (s.setLink l v).ctx j = s.ctx j := id rfl
@[simp] theorem State.setLink_qp (s : State) (l : Nat) (v : Link) (j : Nat) : (s.setLink l v).qp j = s.qp j := id rfl
@[simp] theorem State.setLink_fn (s : State) (l : Nat) (v : Link) (j : Nat) : (s.setLink l v).fn j = s.fn j := id rfl
@[simp] theorem State.setLink_port (s : State) (l : Nat) (v : Link) (j : Nat) : (s.setLink l v).port j = s.port j := id rfl
@[simp] theorem State.setLink_region (s : State) (l : Nat) (v : Link) (j : Nat) : (s.setLink l v).region j = s.region j := id rfl
@[simp] theorem State.setLink_domain (s : State) (l : Nat) (v : Link) (j : Nat) : (s.setLink l v).domain j = s.domain j := id rfl
@[simp] theorem State.setLink_xing (s : State) (l : Nat) (v : Link) (j : Nat) : (s.setLink l v).xing j = s.xing j := id rfl
@[simp] theorem State.setLink_hbm (s : State) (l : Nat) (v : Link) (j : Nat) : (s.setLink l v).hbm j = s.hbm j := id rfl
@[simp] theorem State.setLink_cxl (s : State) (l : Nat) (v : Link) (j : Nat) : (s.setLink l v).cxl j = s.cxl j := id rfl
@[simp] theorem State.setLink_win (s : State) (l : Nat) (v : Link) (j : Nat) : (s.setLink l v).win j = s.win j := id rfl
@[simp] theorem State.setLink_core (s : State) (l : Nat) (v : Link) (j : Nat) : (s.setLink l v).core j = s.core j := id rfl
@[simp] theorem State.setLink_dirLine (s : State) (l : Nat) (v : Link) (j : Nat) : (s.setLink l v).dirLine j = s.dirLine j := id rfl
@[simp] theorem State.setLink_page (s : State) (l : Nat) (v : Link) (j : Nat) : (s.setLink l v).page j = s.page j := id rfl
@[simp] theorem State.setLink_fabLink (s : State) (l : Nat) (v : Link) (r0 n0 : Nat) : (s.setLink l v).fabLink r0 n0 = s.fabLink r0 n0 := id rfl
@[simp] theorem State.setLink_reg (s : State) (l : Nat) (v : Link) (o0 : Nat) : (s.setLink l v).reg o0 = s.reg o0 := id rfl
@[simp] theorem State.setLink_trow (s : State) (l : Nat) (v : Link) (c0 n0 : Nat) : (s.setLink l v).trow c0 n0 = s.trow c0 n0 := id rfl
@[simp] theorem State.setLink_now (s : State) (l : Nat) (v : Link)  : (s.setLink l v).now  = s.now  := id rfl
@[simp] theorem State.setLink_rawByte (s : State) (l : Nat) (v : Link) (a0 : Nat) : (s.setLink l v).rawByte a0 = s.rawByte a0 := id rfl
theorem State.setLink_link (s : State) (l : Nat) (v : Link) (j : Nat) : (s.setLink l v).link j = if j = l then v else s.link j := Tbl.get_set _ _ _ _ _
@[simp] theorem State.setLink_link_same (s : State) (l : Nat) (v : Link) : (s.setLink l v).link l = v := Tbl.get_set_same _ _ _ _
@[simp] theorem State.setLink_link_ne (s : State) (l : Nat) (v : Link) (j : Nat) (h : j ≠ l) : (s.setLink l v).link j = s.link j := Tbl.get_set_ne _ _ _ h
@[simp] theorem State.setPort_pending (s : State) (i : Nat) (v : Port) : (s.setPort i v).pending = s.pending := id rfl
@[simp] theorem State.setPort_out (s : State) (i : Nat) (v : Port) : (s.setPort i v).out = s.out := id rfl
@[simp] theorem State.setPort_fresh (s : State) (i : Nat) (v : Port) : (s.setPort i v).fresh = s.fresh := id rfl
@[simp] theorem State.setPort_order (s : State) (i : Nat) (v : Port) : (s.setPort i v).order = s.order := id rfl
@[simp] theorem State.setPort_variant36 (s : State) (i : Nat) (v : Port) : (s.setPort i v).variant36 = s.variant36 := id rfl
@[simp] theorem State.setPort_enabled (s : State) (i : Nat) (v : Port) : (s.setPort i v).enabled = s.enabled := id rfl
@[simp] theorem State.setPort_clusters (s : State) (i : Nat) (v : Port) : (s.setPort i v).clusters = s.clusters := id rfl
@[simp] theorem State.setPort_tarn (s : State) (i : Nat) (v : Port) : (s.setPort i v).tarn = s.tarn := id rfl
@[simp] theorem State.setPort_mem (s : State) (i : Nat) (v : Port) : (s.setPort i v).mem = s.mem := id rfl
@[simp] theorem State.setPort_poison (s : State) (i : Nat) (v : Port) : (s.setPort i v).poison = s.poison := id rfl
@[simp] theorem State.setPort_pages (s : State) (i : Nat) (v : Port) : (s.setPort i v).pages = s.pages := id rfl
@[simp] theorem State.setPort_zeroRuns (s : State) (i : Nat) (v : Port) : (s.setPort i v).zeroRuns = s.zeroRuns := id rfl
@[simp] theorem State.setPort_regions (s : State) (i : Nat) (v : Port) : (s.setPort i v).regions = s.regions := id rfl
@[simp] theorem State.setPort_domains (s : State) (i : Nat) (v : Port) : (s.setPort i v).domains = s.domains := id rfl
@[simp] theorem State.setPort_xings (s : State) (i : Nat) (v : Port) : (s.setPort i v).xings = s.xings := id rfl
@[simp] theorem State.setPort_tb (s : State) (i : Nat) (v : Port) : (s.setPort i v).tb = s.tb := id rfl
@[simp] theorem State.setPort_net (s : State) (i : Nat) (v : Port) : (s.setPort i v).net = s.net := id rfl
@[simp] theorem State.setPort_nextPkt (s : State) (i : Nat) (v : Port) : (s.setPort i v).nextPkt = s.nextPkt := id rfl
@[simp] theorem State.setPort_routes (s : State) (i : Nat) (v : Port) : (s.setPort i v).routes = s.routes := id rfl
@[simp] theorem State.setPort_perimRoutes (s : State) (i : Nat) (v : Port) : (s.setPort i v).perimRoutes = s.perimRoutes := id rfl
@[simp] theorem State.setPort_fabLinks (s : State) (i : Nat) (v : Port) : (s.setPort i v).fabLinks = s.fabLinks := id rfl
@[simp] theorem State.setPort_discards (s : State) (i : Nat) (v : Port) : (s.setPort i v).discards = s.discards := id rfl
@[simp] theorem State.setPort_parts (s : State) (i : Nat) (v : Port) : (s.setPort i v).parts = s.parts := id rfl
@[simp] theorem State.setPort_ctxs (s : State) (i : Nat) (v : Port) : (s.setPort i v).ctxs = s.ctxs := id rfl
@[simp] theorem State.setPort_qps (s : State) (i : Nat) (v : Port) : (s.setPort i v).qps = s.qps := id rfl
@[simp] theorem State.setPort_fns (s : State) (i : Nat) (v : Port) : (s.setPort i v).fns = s.fns := id rfl
@[simp] theorem State.setPort_links (s : State) (i : Nat) (v : Port) : (s.setPort i v).links = s.links := id rfl
@[simp] theorem State.setPort_hbms (s : State) (i : Nat) (v : Port) : (s.setPort i v).hbms = s.hbms := id rfl
@[simp] theorem State.setPort_cxlPorts (s : State) (i : Nat) (v : Port) : (s.setPort i v).cxlPorts = s.cxlPorts := id rfl
@[simp] theorem State.setPort_windows (s : State) (i : Nat) (v : Port) : (s.setPort i v).windows = s.windows := id rfl
@[simp] theorem State.setPort_cores (s : State) (i : Nat) (v : Port) : (s.setPort i v).cores = s.cores := id rfl
@[simp] theorem State.setPort_dir (s : State) (i : Nat) (v : Port) : (s.setPort i v).dir = s.dir := id rfl
@[simp] theorem State.setPort_bpm (s : State) (i : Nat) (v : Port) : (s.setPort i v).bpm = s.bpm := id rfl
@[simp] theorem State.setPort_cool (s : State) (i : Nat) (v : Port) : (s.setPort i v).cool = s.cool := id rfl
@[simp] theorem State.setPort_mgt (s : State) (i : Nat) (v : Port) : (s.setPort i v).mgt = s.mgt := id rfl
@[simp] theorem State.setPort_sec (s : State) (i : Nat) (v : Port) : (s.setPort i v).sec = s.sec := id rfl
@[simp] theorem State.setPort_boot (s : State) (i : Nat) (v : Port) : (s.setPort i v).boot = s.boot := id rfl
@[simp] theorem State.setPort_regs (s : State) (i : Nat) (v : Port) : (s.setPort i v).regs = s.regs := id rfl
@[simp] theorem State.setPort_sels (s : State) (i : Nat) (v : Port) : (s.setPort i v).sels = s.sels := id rfl
@[simp] theorem State.setPort_halves (s : State) (i : Nat) (v : Port) : (s.setPort i v).halves = s.halves := id rfl
@[simp] theorem State.setPort_cl (s : State) (i : Nat) (v : Port) (j : Nat) : (s.setPort i v).cl j = s.cl j := id rfl
@[simp] theorem State.setPort_part (s : State) (i : Nat) (v : Port) (j : Nat) : (s.setPort i v).part j = s.part j := id rfl
@[simp] theorem State.setPort_ctx (s : State) (i : Nat) (v : Port) (j : Nat) : (s.setPort i v).ctx j = s.ctx j := id rfl
@[simp] theorem State.setPort_qp (s : State) (i : Nat) (v : Port) (j : Nat) : (s.setPort i v).qp j = s.qp j := id rfl
@[simp] theorem State.setPort_fn (s : State) (i : Nat) (v : Port) (j : Nat) : (s.setPort i v).fn j = s.fn j := id rfl
@[simp] theorem State.setPort_link (s : State) (i : Nat) (v : Port) (j : Nat) : (s.setPort i v).link j = s.link j := id rfl
@[simp] theorem State.setPort_region (s : State) (i : Nat) (v : Port) (j : Nat) : (s.setPort i v).region j = s.region j := id rfl
@[simp] theorem State.setPort_domain (s : State) (i : Nat) (v : Port) (j : Nat) : (s.setPort i v).domain j = s.domain j := id rfl
@[simp] theorem State.setPort_xing (s : State) (i : Nat) (v : Port) (j : Nat) : (s.setPort i v).xing j = s.xing j := id rfl
@[simp] theorem State.setPort_hbm (s : State) (i : Nat) (v : Port) (j : Nat) : (s.setPort i v).hbm j = s.hbm j := id rfl
@[simp] theorem State.setPort_cxl (s : State) (i : Nat) (v : Port) (j : Nat) : (s.setPort i v).cxl j = s.cxl j := id rfl
@[simp] theorem State.setPort_win (s : State) (i : Nat) (v : Port) (j : Nat) : (s.setPort i v).win j = s.win j := id rfl
@[simp] theorem State.setPort_core (s : State) (i : Nat) (v : Port) (j : Nat) : (s.setPort i v).core j = s.core j := id rfl
@[simp] theorem State.setPort_dirLine (s : State) (i : Nat) (v : Port) (j : Nat) : (s.setPort i v).dirLine j = s.dirLine j := id rfl
@[simp] theorem State.setPort_page (s : State) (i : Nat) (v : Port) (j : Nat) : (s.setPort i v).page j = s.page j := id rfl
@[simp] theorem State.setPort_fabLink (s : State) (i : Nat) (v : Port) (r0 n0 : Nat) : (s.setPort i v).fabLink r0 n0 = s.fabLink r0 n0 := id rfl
@[simp] theorem State.setPort_reg (s : State) (i : Nat) (v : Port) (o0 : Nat) : (s.setPort i v).reg o0 = s.reg o0 := id rfl
@[simp] theorem State.setPort_trow (s : State) (i : Nat) (v : Port) (c0 n0 : Nat) : (s.setPort i v).trow c0 n0 = s.trow c0 n0 := id rfl
@[simp] theorem State.setPort_now (s : State) (i : Nat) (v : Port)  : (s.setPort i v).now  = s.now  := id rfl
@[simp] theorem State.setPort_rawByte (s : State) (i : Nat) (v : Port) (a0 : Nat) : (s.setPort i v).rawByte a0 = s.rawByte a0 := id rfl
theorem State.setPort_port (s : State) (i : Nat) (v : Port) (j : Nat) : (s.setPort i v).port j = if j = i then v else s.port j := Tbl.get_set _ _ _ _ _
@[simp] theorem State.setPort_port_same (s : State) (i : Nat) (v : Port) : (s.setPort i v).port i = v := Tbl.get_set_same _ _ _ _
@[simp] theorem State.setPort_port_ne (s : State) (i : Nat) (v : Port) (j : Nat) (h : j ≠ i) : (s.setPort i v).port j = s.port j := Tbl.get_set_ne _ _ _ h
@[simp] theorem State.setRegion_pending (s : State) (r : Nat) (v : Region) : (s.setRegion r v).pending = s.pending := id rfl
@[simp] theorem State.setRegion_out (s : State) (r : Nat) (v : Region) : (s.setRegion r v).out = s.out := id rfl
@[simp] theorem State.setRegion_fresh (s : State) (r : Nat) (v : Region) : (s.setRegion r v).fresh = s.fresh := id rfl
@[simp] theorem State.setRegion_order (s : State) (r : Nat) (v : Region) : (s.setRegion r v).order = s.order := id rfl
@[simp] theorem State.setRegion_variant36 (s : State) (r : Nat) (v : Region) : (s.setRegion r v).variant36 = s.variant36 := id rfl
@[simp] theorem State.setRegion_enabled (s : State) (r : Nat) (v : Region) : (s.setRegion r v).enabled = s.enabled := id rfl
@[simp] theorem State.setRegion_clusters (s : State) (r : Nat) (v : Region) : (s.setRegion r v).clusters = s.clusters := id rfl
@[simp] theorem State.setRegion_tarn (s : State) (r : Nat) (v : Region) : (s.setRegion r v).tarn = s.tarn := id rfl
@[simp] theorem State.setRegion_mem (s : State) (r : Nat) (v : Region) : (s.setRegion r v).mem = s.mem := id rfl
@[simp] theorem State.setRegion_poison (s : State) (r : Nat) (v : Region) : (s.setRegion r v).poison = s.poison := id rfl
@[simp] theorem State.setRegion_pages (s : State) (r : Nat) (v : Region) : (s.setRegion r v).pages = s.pages := id rfl
@[simp] theorem State.setRegion_zeroRuns (s : State) (r : Nat) (v : Region) : (s.setRegion r v).zeroRuns = s.zeroRuns := id rfl
@[simp] theorem State.setRegion_domains (s : State) (r : Nat) (v : Region) : (s.setRegion r v).domains = s.domains := id rfl
@[simp] theorem State.setRegion_xings (s : State) (r : Nat) (v : Region) : (s.setRegion r v).xings = s.xings := id rfl
@[simp] theorem State.setRegion_tb (s : State) (r : Nat) (v : Region) : (s.setRegion r v).tb = s.tb := id rfl
@[simp] theorem State.setRegion_net (s : State) (r : Nat) (v : Region) : (s.setRegion r v).net = s.net := id rfl
@[simp] theorem State.setRegion_nextPkt (s : State) (r : Nat) (v : Region) : (s.setRegion r v).nextPkt = s.nextPkt := id rfl
@[simp] theorem State.setRegion_routes (s : State) (r : Nat) (v : Region) : (s.setRegion r v).routes = s.routes := id rfl
@[simp] theorem State.setRegion_perimRoutes (s : State) (r : Nat) (v : Region) : (s.setRegion r v).perimRoutes = s.perimRoutes := id rfl
@[simp] theorem State.setRegion_fabLinks (s : State) (r : Nat) (v : Region) : (s.setRegion r v).fabLinks = s.fabLinks := id rfl
@[simp] theorem State.setRegion_discards (s : State) (r : Nat) (v : Region) : (s.setRegion r v).discards = s.discards := id rfl
@[simp] theorem State.setRegion_parts (s : State) (r : Nat) (v : Region) : (s.setRegion r v).parts = s.parts := id rfl
@[simp] theorem State.setRegion_ctxs (s : State) (r : Nat) (v : Region) : (s.setRegion r v).ctxs = s.ctxs := id rfl
@[simp] theorem State.setRegion_qps (s : State) (r : Nat) (v : Region) : (s.setRegion r v).qps = s.qps := id rfl
@[simp] theorem State.setRegion_fns (s : State) (r : Nat) (v : Region) : (s.setRegion r v).fns = s.fns := id rfl
@[simp] theorem State.setRegion_links (s : State) (r : Nat) (v : Region) : (s.setRegion r v).links = s.links := id rfl
@[simp] theorem State.setRegion_ports (s : State) (r : Nat) (v : Region) : (s.setRegion r v).ports = s.ports := id rfl
@[simp] theorem State.setRegion_hbms (s : State) (r : Nat) (v : Region) : (s.setRegion r v).hbms = s.hbms := id rfl
@[simp] theorem State.setRegion_cxlPorts (s : State) (r : Nat) (v : Region) : (s.setRegion r v).cxlPorts = s.cxlPorts := id rfl
@[simp] theorem State.setRegion_windows (s : State) (r : Nat) (v : Region) : (s.setRegion r v).windows = s.windows := id rfl
@[simp] theorem State.setRegion_cores (s : State) (r : Nat) (v : Region) : (s.setRegion r v).cores = s.cores := id rfl
@[simp] theorem State.setRegion_dir (s : State) (r : Nat) (v : Region) : (s.setRegion r v).dir = s.dir := id rfl
@[simp] theorem State.setRegion_bpm (s : State) (r : Nat) (v : Region) : (s.setRegion r v).bpm = s.bpm := id rfl
@[simp] theorem State.setRegion_cool (s : State) (r : Nat) (v : Region) : (s.setRegion r v).cool = s.cool := id rfl
@[simp] theorem State.setRegion_mgt (s : State) (r : Nat) (v : Region) : (s.setRegion r v).mgt = s.mgt := id rfl
@[simp] theorem State.setRegion_sec (s : State) (r : Nat) (v : Region) : (s.setRegion r v).sec = s.sec := id rfl
@[simp] theorem State.setRegion_boot (s : State) (r : Nat) (v : Region) : (s.setRegion r v).boot = s.boot := id rfl
@[simp] theorem State.setRegion_regs (s : State) (r : Nat) (v : Region) : (s.setRegion r v).regs = s.regs := id rfl
@[simp] theorem State.setRegion_sels (s : State) (r : Nat) (v : Region) : (s.setRegion r v).sels = s.sels := id rfl
@[simp] theorem State.setRegion_halves (s : State) (r : Nat) (v : Region) : (s.setRegion r v).halves = s.halves := id rfl
@[simp] theorem State.setRegion_cl (s : State) (r : Nat) (v : Region) (j : Nat) : (s.setRegion r v).cl j = s.cl j := id rfl
@[simp] theorem State.setRegion_part (s : State) (r : Nat) (v : Region) (j : Nat) : (s.setRegion r v).part j = s.part j := id rfl
@[simp] theorem State.setRegion_ctx (s : State) (r : Nat) (v : Region) (j : Nat) : (s.setRegion r v).ctx j = s.ctx j := id rfl
@[simp] theorem State.setRegion_qp (s : State) (r : Nat) (v : Region) (j : Nat) : (s.setRegion r v).qp j = s.qp j := id rfl
@[simp] theorem State.setRegion_fn (s : State) (r : Nat) (v : Region) (j : Nat) : (s.setRegion r v).fn j = s.fn j := id rfl
@[simp] theorem State.setRegion_link (s : State) (r : Nat) (v : Region) (j : Nat) : (s.setRegion r v).link j = s.link j := id rfl
@[simp] theorem State.setRegion_port (s : State) (r : Nat) (v : Region) (j : Nat) : (s.setRegion r v).port j = s.port j := id rfl
@[simp] theorem State.setRegion_domain (s : State) (r : Nat) (v : Region) (j : Nat) : (s.setRegion r v).domain j = s.domain j := id rfl
@[simp] theorem State.setRegion_xing (s : State) (r : Nat) (v : Region) (j : Nat) : (s.setRegion r v).xing j = s.xing j := id rfl
@[simp] theorem State.setRegion_hbm (s : State) (r : Nat) (v : Region) (j : Nat) : (s.setRegion r v).hbm j = s.hbm j := id rfl
@[simp] theorem State.setRegion_cxl (s : State) (r : Nat) (v : Region) (j : Nat) : (s.setRegion r v).cxl j = s.cxl j := id rfl
@[simp] theorem State.setRegion_win (s : State) (r : Nat) (v : Region) (j : Nat) : (s.setRegion r v).win j = s.win j := id rfl
@[simp] theorem State.setRegion_core (s : State) (r : Nat) (v : Region) (j : Nat) : (s.setRegion r v).core j = s.core j := id rfl
@[simp] theorem State.setRegion_dirLine (s : State) (r : Nat) (v : Region) (j : Nat) : (s.setRegion r v).dirLine j = s.dirLine j := id rfl
@[simp] theorem State.setRegion_page (s : State) (r : Nat) (v : Region) (j : Nat) : (s.setRegion r v).page j = s.page j := id rfl
@[simp] theorem State.setRegion_fabLink (s : State) (r : Nat) (v : Region) (r0 n0 : Nat) : (s.setRegion r v).fabLink r0 n0 = s.fabLink r0 n0 := id rfl
@[simp] theorem State.setRegion_reg (s : State) (r : Nat) (v : Region) (o0 : Nat) : (s.setRegion r v).reg o0 = s.reg o0 := id rfl
@[simp] theorem State.setRegion_trow (s : State) (r : Nat) (v : Region) (c0 n0 : Nat) : (s.setRegion r v).trow c0 n0 = s.trow c0 n0 := id rfl
@[simp] theorem State.setRegion_now (s : State) (r : Nat) (v : Region)  : (s.setRegion r v).now  = s.now  := id rfl
@[simp] theorem State.setRegion_rawByte (s : State) (r : Nat) (v : Region) (a0 : Nat) : (s.setRegion r v).rawByte a0 = s.rawByte a0 := id rfl
theorem State.setRegion_region (s : State) (r : Nat) (v : Region) (j : Nat) : (s.setRegion r v).region j = if j = r then v else s.region j := Tbl.get_set _ _ _ _ _
@[simp] theorem State.setRegion_region_same (s : State) (r : Nat) (v : Region) : (s.setRegion r v).region r = v := Tbl.get_set_same _ _ _ _
@[simp] theorem State.setRegion_region_ne (s : State) (r : Nat) (v : Region) (j : Nat) (h : j ≠ r) : (s.setRegion r v).region j = s.region j := Tbl.get_set_ne _ _ _ h
@[simp] theorem State.setDomain_pending (s : State) (d : Nat) (v : Domain) : (s.setDomain d v).pending = s.pending := id rfl
@[simp] theorem State.setDomain_out (s : State) (d : Nat) (v : Domain) : (s.setDomain d v).out = s.out := id rfl
@[simp] theorem State.setDomain_fresh (s : State) (d : Nat) (v : Domain) : (s.setDomain d v).fresh = s.fresh := id rfl
@[simp] theorem State.setDomain_order (s : State) (d : Nat) (v : Domain) : (s.setDomain d v).order = s.order := id rfl
@[simp] theorem State.setDomain_variant36 (s : State) (d : Nat) (v : Domain) : (s.setDomain d v).variant36 = s.variant36 := id rfl
@[simp] theorem State.setDomain_enabled (s : State) (d : Nat) (v : Domain) : (s.setDomain d v).enabled = s.enabled := id rfl
@[simp] theorem State.setDomain_clusters (s : State) (d : Nat) (v : Domain) : (s.setDomain d v).clusters = s.clusters := id rfl
@[simp] theorem State.setDomain_tarn (s : State) (d : Nat) (v : Domain) : (s.setDomain d v).tarn = s.tarn := id rfl
@[simp] theorem State.setDomain_mem (s : State) (d : Nat) (v : Domain) : (s.setDomain d v).mem = s.mem := id rfl
@[simp] theorem State.setDomain_poison (s : State) (d : Nat) (v : Domain) : (s.setDomain d v).poison = s.poison := id rfl
@[simp] theorem State.setDomain_pages (s : State) (d : Nat) (v : Domain) : (s.setDomain d v).pages = s.pages := id rfl
@[simp] theorem State.setDomain_zeroRuns (s : State) (d : Nat) (v : Domain) : (s.setDomain d v).zeroRuns = s.zeroRuns := id rfl
@[simp] theorem State.setDomain_regions (s : State) (d : Nat) (v : Domain) : (s.setDomain d v).regions = s.regions := id rfl
@[simp] theorem State.setDomain_xings (s : State) (d : Nat) (v : Domain) : (s.setDomain d v).xings = s.xings := id rfl
@[simp] theorem State.setDomain_tb (s : State) (d : Nat) (v : Domain) : (s.setDomain d v).tb = s.tb := id rfl
@[simp] theorem State.setDomain_net (s : State) (d : Nat) (v : Domain) : (s.setDomain d v).net = s.net := id rfl
@[simp] theorem State.setDomain_nextPkt (s : State) (d : Nat) (v : Domain) : (s.setDomain d v).nextPkt = s.nextPkt := id rfl
@[simp] theorem State.setDomain_routes (s : State) (d : Nat) (v : Domain) : (s.setDomain d v).routes = s.routes := id rfl
@[simp] theorem State.setDomain_perimRoutes (s : State) (d : Nat) (v : Domain) : (s.setDomain d v).perimRoutes = s.perimRoutes := id rfl
@[simp] theorem State.setDomain_fabLinks (s : State) (d : Nat) (v : Domain) : (s.setDomain d v).fabLinks = s.fabLinks := id rfl
@[simp] theorem State.setDomain_discards (s : State) (d : Nat) (v : Domain) : (s.setDomain d v).discards = s.discards := id rfl
@[simp] theorem State.setDomain_parts (s : State) (d : Nat) (v : Domain) : (s.setDomain d v).parts = s.parts := id rfl
@[simp] theorem State.setDomain_ctxs (s : State) (d : Nat) (v : Domain) : (s.setDomain d v).ctxs = s.ctxs := id rfl
@[simp] theorem State.setDomain_qps (s : State) (d : Nat) (v : Domain) : (s.setDomain d v).qps = s.qps := id rfl
@[simp] theorem State.setDomain_fns (s : State) (d : Nat) (v : Domain) : (s.setDomain d v).fns = s.fns := id rfl
@[simp] theorem State.setDomain_links (s : State) (d : Nat) (v : Domain) : (s.setDomain d v).links = s.links := id rfl
@[simp] theorem State.setDomain_ports (s : State) (d : Nat) (v : Domain) : (s.setDomain d v).ports = s.ports := id rfl
@[simp] theorem State.setDomain_hbms (s : State) (d : Nat) (v : Domain) : (s.setDomain d v).hbms = s.hbms := id rfl
@[simp] theorem State.setDomain_cxlPorts (s : State) (d : Nat) (v : Domain) : (s.setDomain d v).cxlPorts = s.cxlPorts := id rfl
@[simp] theorem State.setDomain_windows (s : State) (d : Nat) (v : Domain) : (s.setDomain d v).windows = s.windows := id rfl
@[simp] theorem State.setDomain_cores (s : State) (d : Nat) (v : Domain) : (s.setDomain d v).cores = s.cores := id rfl
@[simp] theorem State.setDomain_dir (s : State) (d : Nat) (v : Domain) : (s.setDomain d v).dir = s.dir := id rfl
@[simp] theorem State.setDomain_bpm (s : State) (d : Nat) (v : Domain) : (s.setDomain d v).bpm = s.bpm := id rfl
@[simp] theorem State.setDomain_cool (s : State) (d : Nat) (v : Domain) : (s.setDomain d v).cool = s.cool := id rfl
@[simp] theorem State.setDomain_mgt (s : State) (d : Nat) (v : Domain) : (s.setDomain d v).mgt = s.mgt := id rfl
@[simp] theorem State.setDomain_sec (s : State) (d : Nat) (v : Domain) : (s.setDomain d v).sec = s.sec := id rfl
@[simp] theorem State.setDomain_boot (s : State) (d : Nat) (v : Domain) : (s.setDomain d v).boot = s.boot := id rfl
@[simp] theorem State.setDomain_regs (s : State) (d : Nat) (v : Domain) : (s.setDomain d v).regs = s.regs := id rfl
@[simp] theorem State.setDomain_sels (s : State) (d : Nat) (v : Domain) : (s.setDomain d v).sels = s.sels := id rfl
@[simp] theorem State.setDomain_halves (s : State) (d : Nat) (v : Domain) : (s.setDomain d v).halves = s.halves := id rfl
@[simp] theorem State.setDomain_cl (s : State) (d : Nat) (v : Domain) (j : Nat) : (s.setDomain d v).cl j = s.cl j := id rfl
@[simp] theorem State.setDomain_part (s : State) (d : Nat) (v : Domain) (j : Nat) : (s.setDomain d v).part j = s.part j := id rfl
@[simp] theorem State.setDomain_ctx (s : State) (d : Nat) (v : Domain) (j : Nat) : (s.setDomain d v).ctx j = s.ctx j := id rfl
@[simp] theorem State.setDomain_qp (s : State) (d : Nat) (v : Domain) (j : Nat) : (s.setDomain d v).qp j = s.qp j := id rfl
@[simp] theorem State.setDomain_fn (s : State) (d : Nat) (v : Domain) (j : Nat) : (s.setDomain d v).fn j = s.fn j := id rfl
@[simp] theorem State.setDomain_link (s : State) (d : Nat) (v : Domain) (j : Nat) : (s.setDomain d v).link j = s.link j := id rfl
@[simp] theorem State.setDomain_port (s : State) (d : Nat) (v : Domain) (j : Nat) : (s.setDomain d v).port j = s.port j := id rfl
@[simp] theorem State.setDomain_region (s : State) (d : Nat) (v : Domain) (j : Nat) : (s.setDomain d v).region j = s.region j := id rfl
@[simp] theorem State.setDomain_xing (s : State) (d : Nat) (v : Domain) (j : Nat) : (s.setDomain d v).xing j = s.xing j := id rfl
@[simp] theorem State.setDomain_hbm (s : State) (d : Nat) (v : Domain) (j : Nat) : (s.setDomain d v).hbm j = s.hbm j := id rfl
@[simp] theorem State.setDomain_cxl (s : State) (d : Nat) (v : Domain) (j : Nat) : (s.setDomain d v).cxl j = s.cxl j := id rfl
@[simp] theorem State.setDomain_win (s : State) (d : Nat) (v : Domain) (j : Nat) : (s.setDomain d v).win j = s.win j := id rfl
@[simp] theorem State.setDomain_core (s : State) (d : Nat) (v : Domain) (j : Nat) : (s.setDomain d v).core j = s.core j := id rfl
@[simp] theorem State.setDomain_dirLine (s : State) (d : Nat) (v : Domain) (j : Nat) : (s.setDomain d v).dirLine j = s.dirLine j := id rfl
@[simp] theorem State.setDomain_page (s : State) (d : Nat) (v : Domain) (j : Nat) : (s.setDomain d v).page j = s.page j := id rfl
@[simp] theorem State.setDomain_fabLink (s : State) (d : Nat) (v : Domain) (r0 n0 : Nat) : (s.setDomain d v).fabLink r0 n0 = s.fabLink r0 n0 := id rfl
@[simp] theorem State.setDomain_reg (s : State) (d : Nat) (v : Domain) (o0 : Nat) : (s.setDomain d v).reg o0 = s.reg o0 := id rfl
@[simp] theorem State.setDomain_trow (s : State) (d : Nat) (v : Domain) (c0 n0 : Nat) : (s.setDomain d v).trow c0 n0 = s.trow c0 n0 := id rfl
@[simp] theorem State.setDomain_now (s : State) (d : Nat) (v : Domain)  : (s.setDomain d v).now  = s.now  := id rfl
@[simp] theorem State.setDomain_rawByte (s : State) (d : Nat) (v : Domain) (a0 : Nat) : (s.setDomain d v).rawByte a0 = s.rawByte a0 := id rfl
theorem State.setDomain_domain (s : State) (d : Nat) (v : Domain) (j : Nat) : (s.setDomain d v).domain j = if j = d then v else s.domain j := Tbl.get_set _ _ _ _ _
@[simp] theorem State.setDomain_domain_same (s : State) (d : Nat) (v : Domain) : (s.setDomain d v).domain d = v := Tbl.get_set_same _ _ _ _
@[simp] theorem State.setDomain_domain_ne (s : State) (d : Nat) (v : Domain) (j : Nat) (h : j ≠ d) : (s.setDomain d v).domain j = s.domain j := Tbl.get_set_ne _ _ _ h
@[simp] theorem State.setXing_pending (s : State) (x : Nat) (v : Crossing) : (s.setXing x v).pending = s.pending := id rfl
@[simp] theorem State.setXing_out (s : State) (x : Nat) (v : Crossing) : (s.setXing x v).out = s.out := id rfl
@[simp] theorem State.setXing_fresh (s : State) (x : Nat) (v : Crossing) : (s.setXing x v).fresh = s.fresh := id rfl
@[simp] theorem State.setXing_order (s : State) (x : Nat) (v : Crossing) : (s.setXing x v).order = s.order := id rfl
@[simp] theorem State.setXing_variant36 (s : State) (x : Nat) (v : Crossing) : (s.setXing x v).variant36 = s.variant36 := id rfl
@[simp] theorem State.setXing_enabled (s : State) (x : Nat) (v : Crossing) : (s.setXing x v).enabled = s.enabled := id rfl
@[simp] theorem State.setXing_clusters (s : State) (x : Nat) (v : Crossing) : (s.setXing x v).clusters = s.clusters := id rfl
@[simp] theorem State.setXing_tarn (s : State) (x : Nat) (v : Crossing) : (s.setXing x v).tarn = s.tarn := id rfl
@[simp] theorem State.setXing_mem (s : State) (x : Nat) (v : Crossing) : (s.setXing x v).mem = s.mem := id rfl
@[simp] theorem State.setXing_poison (s : State) (x : Nat) (v : Crossing) : (s.setXing x v).poison = s.poison := id rfl
@[simp] theorem State.setXing_pages (s : State) (x : Nat) (v : Crossing) : (s.setXing x v).pages = s.pages := id rfl
@[simp] theorem State.setXing_zeroRuns (s : State) (x : Nat) (v : Crossing) : (s.setXing x v).zeroRuns = s.zeroRuns := id rfl
@[simp] theorem State.setXing_regions (s : State) (x : Nat) (v : Crossing) : (s.setXing x v).regions = s.regions := id rfl
@[simp] theorem State.setXing_domains (s : State) (x : Nat) (v : Crossing) : (s.setXing x v).domains = s.domains := id rfl
@[simp] theorem State.setXing_tb (s : State) (x : Nat) (v : Crossing) : (s.setXing x v).tb = s.tb := id rfl
@[simp] theorem State.setXing_net (s : State) (x : Nat) (v : Crossing) : (s.setXing x v).net = s.net := id rfl
@[simp] theorem State.setXing_nextPkt (s : State) (x : Nat) (v : Crossing) : (s.setXing x v).nextPkt = s.nextPkt := id rfl
@[simp] theorem State.setXing_routes (s : State) (x : Nat) (v : Crossing) : (s.setXing x v).routes = s.routes := id rfl
@[simp] theorem State.setXing_perimRoutes (s : State) (x : Nat) (v : Crossing) : (s.setXing x v).perimRoutes = s.perimRoutes := id rfl
@[simp] theorem State.setXing_fabLinks (s : State) (x : Nat) (v : Crossing) : (s.setXing x v).fabLinks = s.fabLinks := id rfl
@[simp] theorem State.setXing_discards (s : State) (x : Nat) (v : Crossing) : (s.setXing x v).discards = s.discards := id rfl
@[simp] theorem State.setXing_parts (s : State) (x : Nat) (v : Crossing) : (s.setXing x v).parts = s.parts := id rfl
@[simp] theorem State.setXing_ctxs (s : State) (x : Nat) (v : Crossing) : (s.setXing x v).ctxs = s.ctxs := id rfl
@[simp] theorem State.setXing_qps (s : State) (x : Nat) (v : Crossing) : (s.setXing x v).qps = s.qps := id rfl
@[simp] theorem State.setXing_fns (s : State) (x : Nat) (v : Crossing) : (s.setXing x v).fns = s.fns := id rfl
@[simp] theorem State.setXing_links (s : State) (x : Nat) (v : Crossing) : (s.setXing x v).links = s.links := id rfl
@[simp] theorem State.setXing_ports (s : State) (x : Nat) (v : Crossing) : (s.setXing x v).ports = s.ports := id rfl
@[simp] theorem State.setXing_hbms (s : State) (x : Nat) (v : Crossing) : (s.setXing x v).hbms = s.hbms := id rfl
@[simp] theorem State.setXing_cxlPorts (s : State) (x : Nat) (v : Crossing) : (s.setXing x v).cxlPorts = s.cxlPorts := id rfl
@[simp] theorem State.setXing_windows (s : State) (x : Nat) (v : Crossing) : (s.setXing x v).windows = s.windows := id rfl
@[simp] theorem State.setXing_cores (s : State) (x : Nat) (v : Crossing) : (s.setXing x v).cores = s.cores := id rfl
@[simp] theorem State.setXing_dir (s : State) (x : Nat) (v : Crossing) : (s.setXing x v).dir = s.dir := id rfl
@[simp] theorem State.setXing_bpm (s : State) (x : Nat) (v : Crossing) : (s.setXing x v).bpm = s.bpm := id rfl
@[simp] theorem State.setXing_cool (s : State) (x : Nat) (v : Crossing) : (s.setXing x v).cool = s.cool := id rfl
@[simp] theorem State.setXing_mgt (s : State) (x : Nat) (v : Crossing) : (s.setXing x v).mgt = s.mgt := id rfl
@[simp] theorem State.setXing_sec (s : State) (x : Nat) (v : Crossing) : (s.setXing x v).sec = s.sec := id rfl
@[simp] theorem State.setXing_boot (s : State) (x : Nat) (v : Crossing) : (s.setXing x v).boot = s.boot := id rfl
@[simp] theorem State.setXing_regs (s : State) (x : Nat) (v : Crossing) : (s.setXing x v).regs = s.regs := id rfl
@[simp] theorem State.setXing_sels (s : State) (x : Nat) (v : Crossing) : (s.setXing x v).sels = s.sels := id rfl
@[simp] theorem State.setXing_halves (s : State) (x : Nat) (v : Crossing) : (s.setXing x v).halves = s.halves := id rfl
@[simp] theorem State.setXing_cl (s : State) (x : Nat) (v : Crossing) (j : Nat) : (s.setXing x v).cl j = s.cl j := id rfl
@[simp] theorem State.setXing_part (s : State) (x : Nat) (v : Crossing) (j : Nat) : (s.setXing x v).part j = s.part j := id rfl
@[simp] theorem State.setXing_ctx (s : State) (x : Nat) (v : Crossing) (j : Nat) : (s.setXing x v).ctx j = s.ctx j := id rfl
@[simp] theorem State.setXing_qp (s : State) (x : Nat) (v : Crossing) (j : Nat) : (s.setXing x v).qp j = s.qp j := id rfl
@[simp] theorem State.setXing_fn (s : State) (x : Nat) (v : Crossing) (j : Nat) : (s.setXing x v).fn j = s.fn j := id rfl
@[simp] theorem State.setXing_link (s : State) (x : Nat) (v : Crossing) (j : Nat) : (s.setXing x v).link j = s.link j := id rfl
@[simp] theorem State.setXing_port (s : State) (x : Nat) (v : Crossing) (j : Nat) : (s.setXing x v).port j = s.port j := id rfl
@[simp] theorem State.setXing_region (s : State) (x : Nat) (v : Crossing) (j : Nat) : (s.setXing x v).region j = s.region j := id rfl
@[simp] theorem State.setXing_domain (s : State) (x : Nat) (v : Crossing) (j : Nat) : (s.setXing x v).domain j = s.domain j := id rfl
@[simp] theorem State.setXing_hbm (s : State) (x : Nat) (v : Crossing) (j : Nat) : (s.setXing x v).hbm j = s.hbm j := id rfl
@[simp] theorem State.setXing_cxl (s : State) (x : Nat) (v : Crossing) (j : Nat) : (s.setXing x v).cxl j = s.cxl j := id rfl
@[simp] theorem State.setXing_win (s : State) (x : Nat) (v : Crossing) (j : Nat) : (s.setXing x v).win j = s.win j := id rfl
@[simp] theorem State.setXing_core (s : State) (x : Nat) (v : Crossing) (j : Nat) : (s.setXing x v).core j = s.core j := id rfl
@[simp] theorem State.setXing_dirLine (s : State) (x : Nat) (v : Crossing) (j : Nat) : (s.setXing x v).dirLine j = s.dirLine j := id rfl
@[simp] theorem State.setXing_page (s : State) (x : Nat) (v : Crossing) (j : Nat) : (s.setXing x v).page j = s.page j := id rfl
@[simp] theorem State.setXing_fabLink (s : State) (x : Nat) (v : Crossing) (r0 n0 : Nat) : (s.setXing x v).fabLink r0 n0 = s.fabLink r0 n0 := id rfl
@[simp] theorem State.setXing_reg (s : State) (x : Nat) (v : Crossing) (o0 : Nat) : (s.setXing x v).reg o0 = s.reg o0 := id rfl
@[simp] theorem State.setXing_trow (s : State) (x : Nat) (v : Crossing) (c0 n0 : Nat) : (s.setXing x v).trow c0 n0 = s.trow c0 n0 := id rfl
@[simp] theorem State.setXing_now (s : State) (x : Nat) (v : Crossing)  : (s.setXing x v).now  = s.now  := id rfl
@[simp] theorem State.setXing_rawByte (s : State) (x : Nat) (v : Crossing) (a0 : Nat) : (s.setXing x v).rawByte a0 = s.rawByte a0 := id rfl
theorem State.setXing_xing (s : State) (x : Nat) (v : Crossing) (j : Nat) : (s.setXing x v).xing j = if j = x then v else s.xing j := Tbl.get_set _ _ _ _ _
@[simp] theorem State.setXing_xing_same (s : State) (x : Nat) (v : Crossing) : (s.setXing x v).xing x = v := Tbl.get_set_same _ _ _ _
@[simp] theorem State.setXing_xing_ne (s : State) (x : Nat) (v : Crossing) (j : Nat) (h : j ≠ x) : (s.setXing x v).xing j = s.xing j := Tbl.get_set_ne _ _ _ h
@[simp] theorem State.setHbm_pending (s : State) (k : Nat) (v : Stack) : (s.setHbm k v).pending = s.pending := id rfl
@[simp] theorem State.setHbm_out (s : State) (k : Nat) (v : Stack) : (s.setHbm k v).out = s.out := id rfl
@[simp] theorem State.setHbm_fresh (s : State) (k : Nat) (v : Stack) : (s.setHbm k v).fresh = s.fresh := id rfl
@[simp] theorem State.setHbm_order (s : State) (k : Nat) (v : Stack) : (s.setHbm k v).order = s.order := id rfl
@[simp] theorem State.setHbm_variant36 (s : State) (k : Nat) (v : Stack) : (s.setHbm k v).variant36 = s.variant36 := id rfl
@[simp] theorem State.setHbm_enabled (s : State) (k : Nat) (v : Stack) : (s.setHbm k v).enabled = s.enabled := id rfl
@[simp] theorem State.setHbm_clusters (s : State) (k : Nat) (v : Stack) : (s.setHbm k v).clusters = s.clusters := id rfl
@[simp] theorem State.setHbm_tarn (s : State) (k : Nat) (v : Stack) : (s.setHbm k v).tarn = s.tarn := id rfl
@[simp] theorem State.setHbm_mem (s : State) (k : Nat) (v : Stack) : (s.setHbm k v).mem = s.mem := id rfl
@[simp] theorem State.setHbm_poison (s : State) (k : Nat) (v : Stack) : (s.setHbm k v).poison = s.poison := id rfl
@[simp] theorem State.setHbm_pages (s : State) (k : Nat) (v : Stack) : (s.setHbm k v).pages = s.pages := id rfl
@[simp] theorem State.setHbm_zeroRuns (s : State) (k : Nat) (v : Stack) : (s.setHbm k v).zeroRuns = s.zeroRuns := id rfl
@[simp] theorem State.setHbm_regions (s : State) (k : Nat) (v : Stack) : (s.setHbm k v).regions = s.regions := id rfl
@[simp] theorem State.setHbm_domains (s : State) (k : Nat) (v : Stack) : (s.setHbm k v).domains = s.domains := id rfl
@[simp] theorem State.setHbm_xings (s : State) (k : Nat) (v : Stack) : (s.setHbm k v).xings = s.xings := id rfl
@[simp] theorem State.setHbm_tb (s : State) (k : Nat) (v : Stack) : (s.setHbm k v).tb = s.tb := id rfl
@[simp] theorem State.setHbm_net (s : State) (k : Nat) (v : Stack) : (s.setHbm k v).net = s.net := id rfl
@[simp] theorem State.setHbm_nextPkt (s : State) (k : Nat) (v : Stack) : (s.setHbm k v).nextPkt = s.nextPkt := id rfl
@[simp] theorem State.setHbm_routes (s : State) (k : Nat) (v : Stack) : (s.setHbm k v).routes = s.routes := id rfl
@[simp] theorem State.setHbm_perimRoutes (s : State) (k : Nat) (v : Stack) : (s.setHbm k v).perimRoutes = s.perimRoutes := id rfl
@[simp] theorem State.setHbm_fabLinks (s : State) (k : Nat) (v : Stack) : (s.setHbm k v).fabLinks = s.fabLinks := id rfl
@[simp] theorem State.setHbm_discards (s : State) (k : Nat) (v : Stack) : (s.setHbm k v).discards = s.discards := id rfl
@[simp] theorem State.setHbm_parts (s : State) (k : Nat) (v : Stack) : (s.setHbm k v).parts = s.parts := id rfl
@[simp] theorem State.setHbm_ctxs (s : State) (k : Nat) (v : Stack) : (s.setHbm k v).ctxs = s.ctxs := id rfl
@[simp] theorem State.setHbm_qps (s : State) (k : Nat) (v : Stack) : (s.setHbm k v).qps = s.qps := id rfl
@[simp] theorem State.setHbm_fns (s : State) (k : Nat) (v : Stack) : (s.setHbm k v).fns = s.fns := id rfl
@[simp] theorem State.setHbm_links (s : State) (k : Nat) (v : Stack) : (s.setHbm k v).links = s.links := id rfl
@[simp] theorem State.setHbm_ports (s : State) (k : Nat) (v : Stack) : (s.setHbm k v).ports = s.ports := id rfl
@[simp] theorem State.setHbm_cxlPorts (s : State) (k : Nat) (v : Stack) : (s.setHbm k v).cxlPorts = s.cxlPorts := id rfl
@[simp] theorem State.setHbm_windows (s : State) (k : Nat) (v : Stack) : (s.setHbm k v).windows = s.windows := id rfl
@[simp] theorem State.setHbm_cores (s : State) (k : Nat) (v : Stack) : (s.setHbm k v).cores = s.cores := id rfl
@[simp] theorem State.setHbm_dir (s : State) (k : Nat) (v : Stack) : (s.setHbm k v).dir = s.dir := id rfl
@[simp] theorem State.setHbm_bpm (s : State) (k : Nat) (v : Stack) : (s.setHbm k v).bpm = s.bpm := id rfl
@[simp] theorem State.setHbm_cool (s : State) (k : Nat) (v : Stack) : (s.setHbm k v).cool = s.cool := id rfl
@[simp] theorem State.setHbm_mgt (s : State) (k : Nat) (v : Stack) : (s.setHbm k v).mgt = s.mgt := id rfl
@[simp] theorem State.setHbm_sec (s : State) (k : Nat) (v : Stack) : (s.setHbm k v).sec = s.sec := id rfl
@[simp] theorem State.setHbm_boot (s : State) (k : Nat) (v : Stack) : (s.setHbm k v).boot = s.boot := id rfl
@[simp] theorem State.setHbm_regs (s : State) (k : Nat) (v : Stack) : (s.setHbm k v).regs = s.regs := id rfl
@[simp] theorem State.setHbm_sels (s : State) (k : Nat) (v : Stack) : (s.setHbm k v).sels = s.sels := id rfl
@[simp] theorem State.setHbm_halves (s : State) (k : Nat) (v : Stack) : (s.setHbm k v).halves = s.halves := id rfl
@[simp] theorem State.setHbm_cl (s : State) (k : Nat) (v : Stack) (j : Nat) : (s.setHbm k v).cl j = s.cl j := id rfl
@[simp] theorem State.setHbm_part (s : State) (k : Nat) (v : Stack) (j : Nat) : (s.setHbm k v).part j = s.part j := id rfl
@[simp] theorem State.setHbm_ctx (s : State) (k : Nat) (v : Stack) (j : Nat) : (s.setHbm k v).ctx j = s.ctx j := id rfl
@[simp] theorem State.setHbm_qp (s : State) (k : Nat) (v : Stack) (j : Nat) : (s.setHbm k v).qp j = s.qp j := id rfl
@[simp] theorem State.setHbm_fn (s : State) (k : Nat) (v : Stack) (j : Nat) : (s.setHbm k v).fn j = s.fn j := id rfl
@[simp] theorem State.setHbm_link (s : State) (k : Nat) (v : Stack) (j : Nat) : (s.setHbm k v).link j = s.link j := id rfl
@[simp] theorem State.setHbm_port (s : State) (k : Nat) (v : Stack) (j : Nat) : (s.setHbm k v).port j = s.port j := id rfl
@[simp] theorem State.setHbm_region (s : State) (k : Nat) (v : Stack) (j : Nat) : (s.setHbm k v).region j = s.region j := id rfl
@[simp] theorem State.setHbm_domain (s : State) (k : Nat) (v : Stack) (j : Nat) : (s.setHbm k v).domain j = s.domain j := id rfl
@[simp] theorem State.setHbm_xing (s : State) (k : Nat) (v : Stack) (j : Nat) : (s.setHbm k v).xing j = s.xing j := id rfl
@[simp] theorem State.setHbm_cxl (s : State) (k : Nat) (v : Stack) (j : Nat) : (s.setHbm k v).cxl j = s.cxl j := id rfl
@[simp] theorem State.setHbm_win (s : State) (k : Nat) (v : Stack) (j : Nat) : (s.setHbm k v).win j = s.win j := id rfl
@[simp] theorem State.setHbm_core (s : State) (k : Nat) (v : Stack) (j : Nat) : (s.setHbm k v).core j = s.core j := id rfl
@[simp] theorem State.setHbm_dirLine (s : State) (k : Nat) (v : Stack) (j : Nat) : (s.setHbm k v).dirLine j = s.dirLine j := id rfl
@[simp] theorem State.setHbm_page (s : State) (k : Nat) (v : Stack) (j : Nat) : (s.setHbm k v).page j = s.page j := id rfl
@[simp] theorem State.setHbm_fabLink (s : State) (k : Nat) (v : Stack) (r0 n0 : Nat) : (s.setHbm k v).fabLink r0 n0 = s.fabLink r0 n0 := id rfl
@[simp] theorem State.setHbm_reg (s : State) (k : Nat) (v : Stack) (o0 : Nat) : (s.setHbm k v).reg o0 = s.reg o0 := id rfl
@[simp] theorem State.setHbm_trow (s : State) (k : Nat) (v : Stack) (c0 n0 : Nat) : (s.setHbm k v).trow c0 n0 = s.trow c0 n0 := id rfl
@[simp] theorem State.setHbm_now (s : State) (k : Nat) (v : Stack)  : (s.setHbm k v).now  = s.now  := id rfl
@[simp] theorem State.setHbm_rawByte (s : State) (k : Nat) (v : Stack) (a0 : Nat) : (s.setHbm k v).rawByte a0 = s.rawByte a0 := id rfl
theorem State.setHbm_hbm (s : State) (k : Nat) (v : Stack) (j : Nat) : (s.setHbm k v).hbm j = if j = k then v else s.hbm j := Tbl.get_set _ _ _ _ _
@[simp] theorem State.setHbm_hbm_same (s : State) (k : Nat) (v : Stack) : (s.setHbm k v).hbm k = v := Tbl.get_set_same _ _ _ _
@[simp] theorem State.setHbm_hbm_ne (s : State) (k : Nat) (v : Stack) (j : Nat) (h : j ≠ k) : (s.setHbm k v).hbm j = s.hbm j := Tbl.get_set_ne _ _ _ h
@[simp] theorem State.setCxl_pending (s : State) (k : Nat) (v : CxlPort) : (s.setCxl k v).pending = s.pending := id rfl
@[simp] theorem State.setCxl_out (s : State) (k : Nat) (v : CxlPort) : (s.setCxl k v).out = s.out := id rfl
@[simp] theorem State.setCxl_fresh (s : State) (k : Nat) (v : CxlPort) : (s.setCxl k v).fresh = s.fresh := id rfl
@[simp] theorem State.setCxl_order (s : State) (k : Nat) (v : CxlPort) : (s.setCxl k v).order = s.order := id rfl
@[simp] theorem State.setCxl_variant36 (s : State) (k : Nat) (v : CxlPort) : (s.setCxl k v).variant36 = s.variant36 := id rfl
@[simp] theorem State.setCxl_enabled (s : State) (k : Nat) (v : CxlPort) : (s.setCxl k v).enabled = s.enabled := id rfl
@[simp] theorem State.setCxl_clusters (s : State) (k : Nat) (v : CxlPort) : (s.setCxl k v).clusters = s.clusters := id rfl
@[simp] theorem State.setCxl_tarn (s : State) (k : Nat) (v : CxlPort) : (s.setCxl k v).tarn = s.tarn := id rfl
@[simp] theorem State.setCxl_mem (s : State) (k : Nat) (v : CxlPort) : (s.setCxl k v).mem = s.mem := id rfl
@[simp] theorem State.setCxl_poison (s : State) (k : Nat) (v : CxlPort) : (s.setCxl k v).poison = s.poison := id rfl
@[simp] theorem State.setCxl_pages (s : State) (k : Nat) (v : CxlPort) : (s.setCxl k v).pages = s.pages := id rfl
@[simp] theorem State.setCxl_zeroRuns (s : State) (k : Nat) (v : CxlPort) : (s.setCxl k v).zeroRuns = s.zeroRuns := id rfl
@[simp] theorem State.setCxl_regions (s : State) (k : Nat) (v : CxlPort) : (s.setCxl k v).regions = s.regions := id rfl
@[simp] theorem State.setCxl_domains (s : State) (k : Nat) (v : CxlPort) : (s.setCxl k v).domains = s.domains := id rfl
@[simp] theorem State.setCxl_xings (s : State) (k : Nat) (v : CxlPort) : (s.setCxl k v).xings = s.xings := id rfl
@[simp] theorem State.setCxl_tb (s : State) (k : Nat) (v : CxlPort) : (s.setCxl k v).tb = s.tb := id rfl
@[simp] theorem State.setCxl_net (s : State) (k : Nat) (v : CxlPort) : (s.setCxl k v).net = s.net := id rfl
@[simp] theorem State.setCxl_nextPkt (s : State) (k : Nat) (v : CxlPort) : (s.setCxl k v).nextPkt = s.nextPkt := id rfl
@[simp] theorem State.setCxl_routes (s : State) (k : Nat) (v : CxlPort) : (s.setCxl k v).routes = s.routes := id rfl
@[simp] theorem State.setCxl_perimRoutes (s : State) (k : Nat) (v : CxlPort) : (s.setCxl k v).perimRoutes = s.perimRoutes := id rfl
@[simp] theorem State.setCxl_fabLinks (s : State) (k : Nat) (v : CxlPort) : (s.setCxl k v).fabLinks = s.fabLinks := id rfl
@[simp] theorem State.setCxl_discards (s : State) (k : Nat) (v : CxlPort) : (s.setCxl k v).discards = s.discards := id rfl
@[simp] theorem State.setCxl_parts (s : State) (k : Nat) (v : CxlPort) : (s.setCxl k v).parts = s.parts := id rfl
@[simp] theorem State.setCxl_ctxs (s : State) (k : Nat) (v : CxlPort) : (s.setCxl k v).ctxs = s.ctxs := id rfl
@[simp] theorem State.setCxl_qps (s : State) (k : Nat) (v : CxlPort) : (s.setCxl k v).qps = s.qps := id rfl
@[simp] theorem State.setCxl_fns (s : State) (k : Nat) (v : CxlPort) : (s.setCxl k v).fns = s.fns := id rfl
@[simp] theorem State.setCxl_links (s : State) (k : Nat) (v : CxlPort) : (s.setCxl k v).links = s.links := id rfl
@[simp] theorem State.setCxl_ports (s : State) (k : Nat) (v : CxlPort) : (s.setCxl k v).ports = s.ports := id rfl
@[simp] theorem State.setCxl_hbms (s : State) (k : Nat) (v : CxlPort) : (s.setCxl k v).hbms = s.hbms := id rfl
@[simp] theorem State.setCxl_windows (s : State) (k : Nat) (v : CxlPort) : (s.setCxl k v).windows = s.windows := id rfl
@[simp] theorem State.setCxl_cores (s : State) (k : Nat) (v : CxlPort) : (s.setCxl k v).cores = s.cores := id rfl
@[simp] theorem State.setCxl_dir (s : State) (k : Nat) (v : CxlPort) : (s.setCxl k v).dir = s.dir := id rfl
@[simp] theorem State.setCxl_bpm (s : State) (k : Nat) (v : CxlPort) : (s.setCxl k v).bpm = s.bpm := id rfl
@[simp] theorem State.setCxl_cool (s : State) (k : Nat) (v : CxlPort) : (s.setCxl k v).cool = s.cool := id rfl
@[simp] theorem State.setCxl_mgt (s : State) (k : Nat) (v : CxlPort) : (s.setCxl k v).mgt = s.mgt := id rfl
@[simp] theorem State.setCxl_sec (s : State) (k : Nat) (v : CxlPort) : (s.setCxl k v).sec = s.sec := id rfl
@[simp] theorem State.setCxl_boot (s : State) (k : Nat) (v : CxlPort) : (s.setCxl k v).boot = s.boot := id rfl
@[simp] theorem State.setCxl_regs (s : State) (k : Nat) (v : CxlPort) : (s.setCxl k v).regs = s.regs := id rfl
@[simp] theorem State.setCxl_sels (s : State) (k : Nat) (v : CxlPort) : (s.setCxl k v).sels = s.sels := id rfl
@[simp] theorem State.setCxl_halves (s : State) (k : Nat) (v : CxlPort) : (s.setCxl k v).halves = s.halves := id rfl
@[simp] theorem State.setCxl_cl (s : State) (k : Nat) (v : CxlPort) (j : Nat) : (s.setCxl k v).cl j = s.cl j := id rfl
@[simp] theorem State.setCxl_part (s : State) (k : Nat) (v : CxlPort) (j : Nat) : (s.setCxl k v).part j = s.part j := id rfl
@[simp] theorem State.setCxl_ctx (s : State) (k : Nat) (v : CxlPort) (j : Nat) : (s.setCxl k v).ctx j = s.ctx j := id rfl
@[simp] theorem State.setCxl_qp (s : State) (k : Nat) (v : CxlPort) (j : Nat) : (s.setCxl k v).qp j = s.qp j := id rfl
@[simp] theorem State.setCxl_fn (s : State) (k : Nat) (v : CxlPort) (j : Nat) : (s.setCxl k v).fn j = s.fn j := id rfl
@[simp] theorem State.setCxl_link (s : State) (k : Nat) (v : CxlPort) (j : Nat) : (s.setCxl k v).link j = s.link j := id rfl
@[simp] theorem State.setCxl_port (s : State) (k : Nat) (v : CxlPort) (j : Nat) : (s.setCxl k v).port j = s.port j := id rfl
@[simp] theorem State.setCxl_region (s : State) (k : Nat) (v : CxlPort) (j : Nat) : (s.setCxl k v).region j = s.region j := id rfl
@[simp] theorem State.setCxl_domain (s : State) (k : Nat) (v : CxlPort) (j : Nat) : (s.setCxl k v).domain j = s.domain j := id rfl
@[simp] theorem State.setCxl_xing (s : State) (k : Nat) (v : CxlPort) (j : Nat) : (s.setCxl k v).xing j = s.xing j := id rfl
@[simp] theorem State.setCxl_hbm (s : State) (k : Nat) (v : CxlPort) (j : Nat) : (s.setCxl k v).hbm j = s.hbm j := id rfl
@[simp] theorem State.setCxl_win (s : State) (k : Nat) (v : CxlPort) (j : Nat) : (s.setCxl k v).win j = s.win j := id rfl
@[simp] theorem State.setCxl_core (s : State) (k : Nat) (v : CxlPort) (j : Nat) : (s.setCxl k v).core j = s.core j := id rfl
@[simp] theorem State.setCxl_dirLine (s : State) (k : Nat) (v : CxlPort) (j : Nat) : (s.setCxl k v).dirLine j = s.dirLine j := id rfl
@[simp] theorem State.setCxl_page (s : State) (k : Nat) (v : CxlPort) (j : Nat) : (s.setCxl k v).page j = s.page j := id rfl
@[simp] theorem State.setCxl_fabLink (s : State) (k : Nat) (v : CxlPort) (r0 n0 : Nat) : (s.setCxl k v).fabLink r0 n0 = s.fabLink r0 n0 := id rfl
@[simp] theorem State.setCxl_reg (s : State) (k : Nat) (v : CxlPort) (o0 : Nat) : (s.setCxl k v).reg o0 = s.reg o0 := id rfl
@[simp] theorem State.setCxl_trow (s : State) (k : Nat) (v : CxlPort) (c0 n0 : Nat) : (s.setCxl k v).trow c0 n0 = s.trow c0 n0 := id rfl
@[simp] theorem State.setCxl_now (s : State) (k : Nat) (v : CxlPort)  : (s.setCxl k v).now  = s.now  := id rfl
@[simp] theorem State.setCxl_rawByte (s : State) (k : Nat) (v : CxlPort) (a0 : Nat) : (s.setCxl k v).rawByte a0 = s.rawByte a0 := id rfl
theorem State.setCxl_cxl (s : State) (k : Nat) (v : CxlPort) (j : Nat) : (s.setCxl k v).cxl j = if j = k then v else s.cxl j := Tbl.get_set _ _ _ _ _
@[simp] theorem State.setCxl_cxl_same (s : State) (k : Nat) (v : CxlPort) : (s.setCxl k v).cxl k = v := Tbl.get_set_same _ _ _ _
@[simp] theorem State.setCxl_cxl_ne (s : State) (k : Nat) (v : CxlPort) (j : Nat) (h : j ≠ k) : (s.setCxl k v).cxl j = s.cxl j := Tbl.get_set_ne _ _ _ h
@[simp] theorem State.setWin_pending (s : State) (k : Nat) (v : Window) : (s.setWin k v).pending = s.pending := id rfl
@[simp] theorem State.setWin_out (s : State) (k : Nat) (v : Window) : (s.setWin k v).out = s.out := id rfl
@[simp] theorem State.setWin_fresh (s : State) (k : Nat) (v : Window) : (s.setWin k v).fresh = s.fresh := id rfl
@[simp] theorem State.setWin_order (s : State) (k : Nat) (v : Window) : (s.setWin k v).order = s.order := id rfl
@[simp] theorem State.setWin_variant36 (s : State) (k : Nat) (v : Window) : (s.setWin k v).variant36 = s.variant36 := id rfl
@[simp] theorem State.setWin_enabled (s : State) (k : Nat) (v : Window) : (s.setWin k v).enabled = s.enabled := id rfl
@[simp] theorem State.setWin_clusters (s : State) (k : Nat) (v : Window) : (s.setWin k v).clusters = s.clusters := id rfl
@[simp] theorem State.setWin_tarn (s : State) (k : Nat) (v : Window) : (s.setWin k v).tarn = s.tarn := id rfl
@[simp] theorem State.setWin_mem (s : State) (k : Nat) (v : Window) : (s.setWin k v).mem = s.mem := id rfl
@[simp] theorem State.setWin_poison (s : State) (k : Nat) (v : Window) : (s.setWin k v).poison = s.poison := id rfl
@[simp] theorem State.setWin_pages (s : State) (k : Nat) (v : Window) : (s.setWin k v).pages = s.pages := id rfl
@[simp] theorem State.setWin_zeroRuns (s : State) (k : Nat) (v : Window) : (s.setWin k v).zeroRuns = s.zeroRuns := id rfl
@[simp] theorem State.setWin_regions (s : State) (k : Nat) (v : Window) : (s.setWin k v).regions = s.regions := id rfl
@[simp] theorem State.setWin_domains (s : State) (k : Nat) (v : Window) : (s.setWin k v).domains = s.domains := id rfl
@[simp] theorem State.setWin_xings (s : State) (k : Nat) (v : Window) : (s.setWin k v).xings = s.xings := id rfl
@[simp] theorem State.setWin_tb (s : State) (k : Nat) (v : Window) : (s.setWin k v).tb = s.tb := id rfl
@[simp] theorem State.setWin_net (s : State) (k : Nat) (v : Window) : (s.setWin k v).net = s.net := id rfl
@[simp] theorem State.setWin_nextPkt (s : State) (k : Nat) (v : Window) : (s.setWin k v).nextPkt = s.nextPkt := id rfl
@[simp] theorem State.setWin_routes (s : State) (k : Nat) (v : Window) : (s.setWin k v).routes = s.routes := id rfl
@[simp] theorem State.setWin_perimRoutes (s : State) (k : Nat) (v : Window) : (s.setWin k v).perimRoutes = s.perimRoutes := id rfl
@[simp] theorem State.setWin_fabLinks (s : State) (k : Nat) (v : Window) : (s.setWin k v).fabLinks = s.fabLinks := id rfl
@[simp] theorem State.setWin_discards (s : State) (k : Nat) (v : Window) : (s.setWin k v).discards = s.discards := id rfl
@[simp] theorem State.setWin_parts (s : State) (k : Nat) (v : Window) : (s.setWin k v).parts = s.parts := id rfl
@[simp] theorem State.setWin_ctxs (s : State) (k : Nat) (v : Window) : (s.setWin k v).ctxs = s.ctxs := id rfl
@[simp] theorem State.setWin_qps (s : State) (k : Nat) (v : Window) : (s.setWin k v).qps = s.qps := id rfl
@[simp] theorem State.setWin_fns (s : State) (k : Nat) (v : Window) : (s.setWin k v).fns = s.fns := id rfl
@[simp] theorem State.setWin_links (s : State) (k : Nat) (v : Window) : (s.setWin k v).links = s.links := id rfl
@[simp] theorem State.setWin_ports (s : State) (k : Nat) (v : Window) : (s.setWin k v).ports = s.ports := id rfl
@[simp] theorem State.setWin_hbms (s : State) (k : Nat) (v : Window) : (s.setWin k v).hbms = s.hbms := id rfl
@[simp] theorem State.setWin_cxlPorts (s : State) (k : Nat) (v : Window) : (s.setWin k v).cxlPorts = s.cxlPorts := id rfl
@[simp] theorem State.setWin_cores (s : State) (k : Nat) (v : Window) : (s.setWin k v).cores = s.cores := id rfl
@[simp] theorem State.setWin_dir (s : State) (k : Nat) (v : Window) : (s.setWin k v).dir = s.dir := id rfl
@[simp] theorem State.setWin_bpm (s : State) (k : Nat) (v : Window) : (s.setWin k v).bpm = s.bpm := id rfl
@[simp] theorem State.setWin_cool (s : State) (k : Nat) (v : Window) : (s.setWin k v).cool = s.cool := id rfl
@[simp] theorem State.setWin_mgt (s : State) (k : Nat) (v : Window) : (s.setWin k v).mgt = s.mgt := id rfl
@[simp] theorem State.setWin_sec (s : State) (k : Nat) (v : Window) : (s.setWin k v).sec = s.sec := id rfl
@[simp] theorem State.setWin_boot (s : State) (k : Nat) (v : Window) : (s.setWin k v).boot = s.boot := id rfl
@[simp] theorem State.setWin_regs (s : State) (k : Nat) (v : Window) : (s.setWin k v).regs = s.regs := id rfl
@[simp] theorem State.setWin_sels (s : State) (k : Nat) (v : Window) : (s.setWin k v).sels = s.sels := id rfl
@[simp] theorem State.setWin_halves (s : State) (k : Nat) (v : Window) : (s.setWin k v).halves = s.halves := id rfl
@[simp] theorem State.setWin_cl (s : State) (k : Nat) (v : Window) (j : Nat) : (s.setWin k v).cl j = s.cl j := id rfl
@[simp] theorem State.setWin_part (s : State) (k : Nat) (v : Window) (j : Nat) : (s.setWin k v).part j = s.part j := id rfl
@[simp] theorem State.setWin_ctx (s : State) (k : Nat) (v : Window) (j : Nat) : (s.setWin k v).ctx j = s.ctx j := id rfl
@[simp] theorem State.setWin_qp (s : State) (k : Nat) (v : Window) (j : Nat) : (s.setWin k v).qp j = s.qp j := id rfl
@[simp] theorem State.setWin_fn (s : State) (k : Nat) (v : Window) (j : Nat) : (s.setWin k v).fn j = s.fn j := id rfl
@[simp] theorem State.setWin_link (s : State) (k : Nat) (v : Window) (j : Nat) : (s.setWin k v).link j = s.link j := id rfl
@[simp] theorem State.setWin_port (s : State) (k : Nat) (v : Window) (j : Nat) : (s.setWin k v).port j = s.port j := id rfl
@[simp] theorem State.setWin_region (s : State) (k : Nat) (v : Window) (j : Nat) : (s.setWin k v).region j = s.region j := id rfl
@[simp] theorem State.setWin_domain (s : State) (k : Nat) (v : Window) (j : Nat) : (s.setWin k v).domain j = s.domain j := id rfl
@[simp] theorem State.setWin_xing (s : State) (k : Nat) (v : Window) (j : Nat) : (s.setWin k v).xing j = s.xing j := id rfl
@[simp] theorem State.setWin_hbm (s : State) (k : Nat) (v : Window) (j : Nat) : (s.setWin k v).hbm j = s.hbm j := id rfl
@[simp] theorem State.setWin_cxl (s : State) (k : Nat) (v : Window) (j : Nat) : (s.setWin k v).cxl j = s.cxl j := id rfl
@[simp] theorem State.setWin_core (s : State) (k : Nat) (v : Window) (j : Nat) : (s.setWin k v).core j = s.core j := id rfl
@[simp] theorem State.setWin_dirLine (s : State) (k : Nat) (v : Window) (j : Nat) : (s.setWin k v).dirLine j = s.dirLine j := id rfl
@[simp] theorem State.setWin_page (s : State) (k : Nat) (v : Window) (j : Nat) : (s.setWin k v).page j = s.page j := id rfl
@[simp] theorem State.setWin_fabLink (s : State) (k : Nat) (v : Window) (r0 n0 : Nat) : (s.setWin k v).fabLink r0 n0 = s.fabLink r0 n0 := id rfl
@[simp] theorem State.setWin_reg (s : State) (k : Nat) (v : Window) (o0 : Nat) : (s.setWin k v).reg o0 = s.reg o0 := id rfl
@[simp] theorem State.setWin_trow (s : State) (k : Nat) (v : Window) (c0 n0 : Nat) : (s.setWin k v).trow c0 n0 = s.trow c0 n0 := id rfl
@[simp] theorem State.setWin_now (s : State) (k : Nat) (v : Window)  : (s.setWin k v).now  = s.now  := id rfl
@[simp] theorem State.setWin_rawByte (s : State) (k : Nat) (v : Window) (a0 : Nat) : (s.setWin k v).rawByte a0 = s.rawByte a0 := id rfl
theorem State.setWin_win (s : State) (k : Nat) (v : Window) (j : Nat) : (s.setWin k v).win j = if j = k then v else s.win j := Tbl.get_set _ _ _ _ _
@[simp] theorem State.setWin_win_same (s : State) (k : Nat) (v : Window) : (s.setWin k v).win k = v := Tbl.get_set_same _ _ _ _
@[simp] theorem State.setWin_win_ne (s : State) (k : Nat) (v : Window) (j : Nat) (h : j ≠ k) : (s.setWin k v).win j = s.win j := Tbl.get_set_ne _ _ _ h
@[simp] theorem State.setCore_pending (s : State) (n : Nat) (v : Core) : (s.setCore n v).pending = s.pending := id rfl
@[simp] theorem State.setCore_out (s : State) (n : Nat) (v : Core) : (s.setCore n v).out = s.out := id rfl
@[simp] theorem State.setCore_fresh (s : State) (n : Nat) (v : Core) : (s.setCore n v).fresh = s.fresh := id rfl
@[simp] theorem State.setCore_order (s : State) (n : Nat) (v : Core) : (s.setCore n v).order = s.order := id rfl
@[simp] theorem State.setCore_variant36 (s : State) (n : Nat) (v : Core) : (s.setCore n v).variant36 = s.variant36 := id rfl
@[simp] theorem State.setCore_enabled (s : State) (n : Nat) (v : Core) : (s.setCore n v).enabled = s.enabled := id rfl
@[simp] theorem State.setCore_clusters (s : State) (n : Nat) (v : Core) : (s.setCore n v).clusters = s.clusters := id rfl
@[simp] theorem State.setCore_tarn (s : State) (n : Nat) (v : Core) : (s.setCore n v).tarn = s.tarn := id rfl
@[simp] theorem State.setCore_mem (s : State) (n : Nat) (v : Core) : (s.setCore n v).mem = s.mem := id rfl
@[simp] theorem State.setCore_poison (s : State) (n : Nat) (v : Core) : (s.setCore n v).poison = s.poison := id rfl
@[simp] theorem State.setCore_pages (s : State) (n : Nat) (v : Core) : (s.setCore n v).pages = s.pages := id rfl
@[simp] theorem State.setCore_zeroRuns (s : State) (n : Nat) (v : Core) : (s.setCore n v).zeroRuns = s.zeroRuns := id rfl
@[simp] theorem State.setCore_regions (s : State) (n : Nat) (v : Core) : (s.setCore n v).regions = s.regions := id rfl
@[simp] theorem State.setCore_domains (s : State) (n : Nat) (v : Core) : (s.setCore n v).domains = s.domains := id rfl
@[simp] theorem State.setCore_xings (s : State) (n : Nat) (v : Core) : (s.setCore n v).xings = s.xings := id rfl
@[simp] theorem State.setCore_tb (s : State) (n : Nat) (v : Core) : (s.setCore n v).tb = s.tb := id rfl
@[simp] theorem State.setCore_net (s : State) (n : Nat) (v : Core) : (s.setCore n v).net = s.net := id rfl
@[simp] theorem State.setCore_nextPkt (s : State) (n : Nat) (v : Core) : (s.setCore n v).nextPkt = s.nextPkt := id rfl
@[simp] theorem State.setCore_routes (s : State) (n : Nat) (v : Core) : (s.setCore n v).routes = s.routes := id rfl
@[simp] theorem State.setCore_perimRoutes (s : State) (n : Nat) (v : Core) : (s.setCore n v).perimRoutes = s.perimRoutes := id rfl
@[simp] theorem State.setCore_fabLinks (s : State) (n : Nat) (v : Core) : (s.setCore n v).fabLinks = s.fabLinks := id rfl
@[simp] theorem State.setCore_discards (s : State) (n : Nat) (v : Core) : (s.setCore n v).discards = s.discards := id rfl
@[simp] theorem State.setCore_parts (s : State) (n : Nat) (v : Core) : (s.setCore n v).parts = s.parts := id rfl
@[simp] theorem State.setCore_ctxs (s : State) (n : Nat) (v : Core) : (s.setCore n v).ctxs = s.ctxs := id rfl
@[simp] theorem State.setCore_qps (s : State) (n : Nat) (v : Core) : (s.setCore n v).qps = s.qps := id rfl
@[simp] theorem State.setCore_fns (s : State) (n : Nat) (v : Core) : (s.setCore n v).fns = s.fns := id rfl
@[simp] theorem State.setCore_links (s : State) (n : Nat) (v : Core) : (s.setCore n v).links = s.links := id rfl
@[simp] theorem State.setCore_ports (s : State) (n : Nat) (v : Core) : (s.setCore n v).ports = s.ports := id rfl
@[simp] theorem State.setCore_hbms (s : State) (n : Nat) (v : Core) : (s.setCore n v).hbms = s.hbms := id rfl
@[simp] theorem State.setCore_cxlPorts (s : State) (n : Nat) (v : Core) : (s.setCore n v).cxlPorts = s.cxlPorts := id rfl
@[simp] theorem State.setCore_windows (s : State) (n : Nat) (v : Core) : (s.setCore n v).windows = s.windows := id rfl
@[simp] theorem State.setCore_dir (s : State) (n : Nat) (v : Core) : (s.setCore n v).dir = s.dir := id rfl
@[simp] theorem State.setCore_bpm (s : State) (n : Nat) (v : Core) : (s.setCore n v).bpm = s.bpm := id rfl
@[simp] theorem State.setCore_cool (s : State) (n : Nat) (v : Core) : (s.setCore n v).cool = s.cool := id rfl
@[simp] theorem State.setCore_mgt (s : State) (n : Nat) (v : Core) : (s.setCore n v).mgt = s.mgt := id rfl
@[simp] theorem State.setCore_sec (s : State) (n : Nat) (v : Core) : (s.setCore n v).sec = s.sec := id rfl
@[simp] theorem State.setCore_boot (s : State) (n : Nat) (v : Core) : (s.setCore n v).boot = s.boot := id rfl
@[simp] theorem State.setCore_regs (s : State) (n : Nat) (v : Core) : (s.setCore n v).regs = s.regs := id rfl
@[simp] theorem State.setCore_sels (s : State) (n : Nat) (v : Core) : (s.setCore n v).sels = s.sels := id rfl
@[simp] theorem State.setCore_halves (s : State) (n : Nat) (v : Core) : (s.setCore n v).halves = s.halves := id rfl
@[simp] theorem State.setCore_cl (s : State) (n : Nat) (v : Core) (j : Nat) : (s.setCore n v).cl j = s.cl j := id rfl
@[simp] theorem State.setCore_part (s : State) (n : Nat) (v : Core) (j : Nat) : (s.setCore n v).part j = s.part j := id rfl
@[simp] theorem State.setCore_ctx (s : State) (n : Nat) (v : Core) (j : Nat) : (s.setCore n v).ctx j = s.ctx j := id rfl
@[simp] theorem State.setCore_qp (s : State) (n : Nat) (v : Core) (j : Nat) : (s.setCore n v).qp j = s.qp j := id rfl
@[simp] theorem State.setCore_fn (s : State) (n : Nat) (v : Core) (j : Nat) : (s.setCore n v).fn j = s.fn j := id rfl
@[simp] theorem State.setCore_link (s : State) (n : Nat) (v : Core) (j : Nat) : (s.setCore n v).link j = s.link j := id rfl
@[simp] theorem State.setCore_port (s : State) (n : Nat) (v : Core) (j : Nat) : (s.setCore n v).port j = s.port j := id rfl
@[simp] theorem State.setCore_region (s : State) (n : Nat) (v : Core) (j : Nat) : (s.setCore n v).region j = s.region j := id rfl
@[simp] theorem State.setCore_domain (s : State) (n : Nat) (v : Core) (j : Nat) : (s.setCore n v).domain j = s.domain j := id rfl
@[simp] theorem State.setCore_xing (s : State) (n : Nat) (v : Core) (j : Nat) : (s.setCore n v).xing j = s.xing j := id rfl
@[simp] theorem State.setCore_hbm (s : State) (n : Nat) (v : Core) (j : Nat) : (s.setCore n v).hbm j = s.hbm j := id rfl
@[simp] theorem State.setCore_cxl (s : State) (n : Nat) (v : Core) (j : Nat) : (s.setCore n v).cxl j = s.cxl j := id rfl
@[simp] theorem State.setCore_win (s : State) (n : Nat) (v : Core) (j : Nat) : (s.setCore n v).win j = s.win j := id rfl
@[simp] theorem State.setCore_dirLine (s : State) (n : Nat) (v : Core) (j : Nat) : (s.setCore n v).dirLine j = s.dirLine j := id rfl
@[simp] theorem State.setCore_page (s : State) (n : Nat) (v : Core) (j : Nat) : (s.setCore n v).page j = s.page j := id rfl
@[simp] theorem State.setCore_fabLink (s : State) (n : Nat) (v : Core) (r0 n0 : Nat) : (s.setCore n v).fabLink r0 n0 = s.fabLink r0 n0 := id rfl
@[simp] theorem State.setCore_reg (s : State) (n : Nat) (v : Core) (o0 : Nat) : (s.setCore n v).reg o0 = s.reg o0 := id rfl
@[simp] theorem State.setCore_trow (s : State) (n : Nat) (v : Core) (c0 n0 : Nat) : (s.setCore n v).trow c0 n0 = s.trow c0 n0 := id rfl
@[simp] theorem State.setCore_now (s : State) (n : Nat) (v : Core)  : (s.setCore n v).now  = s.now  := id rfl
@[simp] theorem State.setCore_rawByte (s : State) (n : Nat) (v : Core) (a0 : Nat) : (s.setCore n v).rawByte a0 = s.rawByte a0 := id rfl
theorem State.setCore_core (s : State) (n : Nat) (v : Core) (j : Nat) : (s.setCore n v).core j = if j = n then v else s.core j := Tbl.get_set _ _ _ _ _
@[simp] theorem State.setCore_core_same (s : State) (n : Nat) (v : Core) : (s.setCore n v).core n = v := Tbl.get_set_same _ _ _ _
@[simp] theorem State.setCore_core_ne (s : State) (n : Nat) (v : Core) (j : Nat) (h : j ≠ n) : (s.setCore n v).core j = s.core j := Tbl.get_set_ne _ _ _ h
@[simp] theorem State.setDir_pending (s : State) (a : Nat) (v : DirLine) : (s.setDir a v).pending = s.pending := id rfl
@[simp] theorem State.setDir_out (s : State) (a : Nat) (v : DirLine) : (s.setDir a v).out = s.out := id rfl
@[simp] theorem State.setDir_fresh (s : State) (a : Nat) (v : DirLine) : (s.setDir a v).fresh = s.fresh := id rfl
@[simp] theorem State.setDir_order (s : State) (a : Nat) (v : DirLine) : (s.setDir a v).order = s.order := id rfl
@[simp] theorem State.setDir_variant36 (s : State) (a : Nat) (v : DirLine) : (s.setDir a v).variant36 = s.variant36 := id rfl
@[simp] theorem State.setDir_enabled (s : State) (a : Nat) (v : DirLine) : (s.setDir a v).enabled = s.enabled := id rfl
@[simp] theorem State.setDir_clusters (s : State) (a : Nat) (v : DirLine) : (s.setDir a v).clusters = s.clusters := id rfl
@[simp] theorem State.setDir_tarn (s : State) (a : Nat) (v : DirLine) : (s.setDir a v).tarn = s.tarn := id rfl
@[simp] theorem State.setDir_mem (s : State) (a : Nat) (v : DirLine) : (s.setDir a v).mem = s.mem := id rfl
@[simp] theorem State.setDir_poison (s : State) (a : Nat) (v : DirLine) : (s.setDir a v).poison = s.poison := id rfl
@[simp] theorem State.setDir_pages (s : State) (a : Nat) (v : DirLine) : (s.setDir a v).pages = s.pages := id rfl
@[simp] theorem State.setDir_zeroRuns (s : State) (a : Nat) (v : DirLine) : (s.setDir a v).zeroRuns = s.zeroRuns := id rfl
@[simp] theorem State.setDir_regions (s : State) (a : Nat) (v : DirLine) : (s.setDir a v).regions = s.regions := id rfl
@[simp] theorem State.setDir_domains (s : State) (a : Nat) (v : DirLine) : (s.setDir a v).domains = s.domains := id rfl
@[simp] theorem State.setDir_xings (s : State) (a : Nat) (v : DirLine) : (s.setDir a v).xings = s.xings := id rfl
@[simp] theorem State.setDir_tb (s : State) (a : Nat) (v : DirLine) : (s.setDir a v).tb = s.tb := id rfl
@[simp] theorem State.setDir_net (s : State) (a : Nat) (v : DirLine) : (s.setDir a v).net = s.net := id rfl
@[simp] theorem State.setDir_nextPkt (s : State) (a : Nat) (v : DirLine) : (s.setDir a v).nextPkt = s.nextPkt := id rfl
@[simp] theorem State.setDir_routes (s : State) (a : Nat) (v : DirLine) : (s.setDir a v).routes = s.routes := id rfl
@[simp] theorem State.setDir_perimRoutes (s : State) (a : Nat) (v : DirLine) : (s.setDir a v).perimRoutes = s.perimRoutes := id rfl
@[simp] theorem State.setDir_fabLinks (s : State) (a : Nat) (v : DirLine) : (s.setDir a v).fabLinks = s.fabLinks := id rfl
@[simp] theorem State.setDir_discards (s : State) (a : Nat) (v : DirLine) : (s.setDir a v).discards = s.discards := id rfl
@[simp] theorem State.setDir_parts (s : State) (a : Nat) (v : DirLine) : (s.setDir a v).parts = s.parts := id rfl
@[simp] theorem State.setDir_ctxs (s : State) (a : Nat) (v : DirLine) : (s.setDir a v).ctxs = s.ctxs := id rfl
@[simp] theorem State.setDir_qps (s : State) (a : Nat) (v : DirLine) : (s.setDir a v).qps = s.qps := id rfl
@[simp] theorem State.setDir_fns (s : State) (a : Nat) (v : DirLine) : (s.setDir a v).fns = s.fns := id rfl
@[simp] theorem State.setDir_links (s : State) (a : Nat) (v : DirLine) : (s.setDir a v).links = s.links := id rfl
@[simp] theorem State.setDir_ports (s : State) (a : Nat) (v : DirLine) : (s.setDir a v).ports = s.ports := id rfl
@[simp] theorem State.setDir_hbms (s : State) (a : Nat) (v : DirLine) : (s.setDir a v).hbms = s.hbms := id rfl
@[simp] theorem State.setDir_cxlPorts (s : State) (a : Nat) (v : DirLine) : (s.setDir a v).cxlPorts = s.cxlPorts := id rfl
@[simp] theorem State.setDir_windows (s : State) (a : Nat) (v : DirLine) : (s.setDir a v).windows = s.windows := id rfl
@[simp] theorem State.setDir_cores (s : State) (a : Nat) (v : DirLine) : (s.setDir a v).cores = s.cores := id rfl
@[simp] theorem State.setDir_bpm (s : State) (a : Nat) (v : DirLine) : (s.setDir a v).bpm = s.bpm := id rfl
@[simp] theorem State.setDir_cool (s : State) (a : Nat) (v : DirLine) : (s.setDir a v).cool = s.cool := id rfl
@[simp] theorem State.setDir_mgt (s : State) (a : Nat) (v : DirLine) : (s.setDir a v).mgt = s.mgt := id rfl
@[simp] theorem State.setDir_sec (s : State) (a : Nat) (v : DirLine) : (s.setDir a v).sec = s.sec := id rfl
@[simp] theorem State.setDir_boot (s : State) (a : Nat) (v : DirLine) : (s.setDir a v).boot = s.boot := id rfl
@[simp] theorem State.setDir_regs (s : State) (a : Nat) (v : DirLine) : (s.setDir a v).regs = s.regs := id rfl
@[simp] theorem State.setDir_sels (s : State) (a : Nat) (v : DirLine) : (s.setDir a v).sels = s.sels := id rfl
@[simp] theorem State.setDir_halves (s : State) (a : Nat) (v : DirLine) : (s.setDir a v).halves = s.halves := id rfl
@[simp] theorem State.setDir_cl (s : State) (a : Nat) (v : DirLine) (j : Nat) : (s.setDir a v).cl j = s.cl j := id rfl
@[simp] theorem State.setDir_part (s : State) (a : Nat) (v : DirLine) (j : Nat) : (s.setDir a v).part j = s.part j := id rfl
@[simp] theorem State.setDir_ctx (s : State) (a : Nat) (v : DirLine) (j : Nat) : (s.setDir a v).ctx j = s.ctx j := id rfl
@[simp] theorem State.setDir_qp (s : State) (a : Nat) (v : DirLine) (j : Nat) : (s.setDir a v).qp j = s.qp j := id rfl
@[simp] theorem State.setDir_fn (s : State) (a : Nat) (v : DirLine) (j : Nat) : (s.setDir a v).fn j = s.fn j := id rfl
@[simp] theorem State.setDir_link (s : State) (a : Nat) (v : DirLine) (j : Nat) : (s.setDir a v).link j = s.link j := id rfl
@[simp] theorem State.setDir_port (s : State) (a : Nat) (v : DirLine) (j : Nat) : (s.setDir a v).port j = s.port j := id rfl
@[simp] theorem State.setDir_region (s : State) (a : Nat) (v : DirLine) (j : Nat) : (s.setDir a v).region j = s.region j := id rfl
@[simp] theorem State.setDir_domain (s : State) (a : Nat) (v : DirLine) (j : Nat) : (s.setDir a v).domain j = s.domain j := id rfl
@[simp] theorem State.setDir_xing (s : State) (a : Nat) (v : DirLine) (j : Nat) : (s.setDir a v).xing j = s.xing j := id rfl
@[simp] theorem State.setDir_hbm (s : State) (a : Nat) (v : DirLine) (j : Nat) : (s.setDir a v).hbm j = s.hbm j := id rfl
@[simp] theorem State.setDir_cxl (s : State) (a : Nat) (v : DirLine) (j : Nat) : (s.setDir a v).cxl j = s.cxl j := id rfl
@[simp] theorem State.setDir_win (s : State) (a : Nat) (v : DirLine) (j : Nat) : (s.setDir a v).win j = s.win j := id rfl
@[simp] theorem State.setDir_core (s : State) (a : Nat) (v : DirLine) (j : Nat) : (s.setDir a v).core j = s.core j := id rfl
@[simp] theorem State.setDir_page (s : State) (a : Nat) (v : DirLine) (j : Nat) : (s.setDir a v).page j = s.page j := id rfl
@[simp] theorem State.setDir_fabLink (s : State) (a : Nat) (v : DirLine) (r0 n0 : Nat) : (s.setDir a v).fabLink r0 n0 = s.fabLink r0 n0 := id rfl
@[simp] theorem State.setDir_reg (s : State) (a : Nat) (v : DirLine) (o0 : Nat) : (s.setDir a v).reg o0 = s.reg o0 := id rfl
@[simp] theorem State.setDir_trow (s : State) (a : Nat) (v : DirLine) (c0 n0 : Nat) : (s.setDir a v).trow c0 n0 = s.trow c0 n0 := id rfl
@[simp] theorem State.setDir_now (s : State) (a : Nat) (v : DirLine)  : (s.setDir a v).now  = s.now  := id rfl
@[simp] theorem State.setDir_rawByte (s : State) (a : Nat) (v : DirLine) (a0 : Nat) : (s.setDir a v).rawByte a0 = s.rawByte a0 := id rfl
theorem State.setDir_dirLine (s : State) (a : Nat) (v : DirLine) (j : Nat) : (s.setDir a v).dirLine j = if j = a then v else s.dirLine j := Tbl.get_set _ _ _ _ _
@[simp] theorem State.setDir_dirLine_same (s : State) (a : Nat) (v : DirLine) : (s.setDir a v).dirLine a = v := Tbl.get_set_same _ _ _ _
@[simp] theorem State.setDir_dirLine_ne (s : State) (a : Nat) (v : DirLine) (j : Nat) (h : j ≠ a) : (s.setDir a v).dirLine j = s.dirLine j := Tbl.get_set_ne _ _ _ h
@[simp] theorem State.setPage_pending (s : State) (g : Nat) (v : Page) : (s.setPage g v).pending = s.pending := id rfl
@[simp] theorem State.setPage_out (s : State) (g : Nat) (v : Page) : (s.setPage g v).out = s.out := id rfl
@[simp] theorem State.setPage_fresh (s : State) (g : Nat) (v : Page) : (s.setPage g v).fresh = s.fresh := id rfl
@[simp] theorem State.setPage_order (s : State) (g : Nat) (v : Page) : (s.setPage g v).order = s.order := id rfl
@[simp] theorem State.setPage_variant36 (s : State) (g : Nat) (v : Page) : (s.setPage g v).variant36 = s.variant36 := id rfl
@[simp] theorem State.setPage_enabled (s : State) (g : Nat) (v : Page) : (s.setPage g v).enabled = s.enabled := id rfl
@[simp] theorem State.setPage_clusters (s : State) (g : Nat) (v : Page) : (s.setPage g v).clusters = s.clusters := id rfl
@[simp] theorem State.setPage_tarn (s : State) (g : Nat) (v : Page) : (s.setPage g v).tarn = s.tarn := id rfl
@[simp] theorem State.setPage_mem (s : State) (g : Nat) (v : Page) : (s.setPage g v).mem = s.mem := id rfl
@[simp] theorem State.setPage_poison (s : State) (g : Nat) (v : Page) : (s.setPage g v).poison = s.poison := id rfl
@[simp] theorem State.setPage_zeroRuns (s : State) (g : Nat) (v : Page) : (s.setPage g v).zeroRuns = s.zeroRuns := id rfl
@[simp] theorem State.setPage_regions (s : State) (g : Nat) (v : Page) : (s.setPage g v).regions = s.regions := id rfl
@[simp] theorem State.setPage_domains (s : State) (g : Nat) (v : Page) : (s.setPage g v).domains = s.domains := id rfl
@[simp] theorem State.setPage_xings (s : State) (g : Nat) (v : Page) : (s.setPage g v).xings = s.xings := id rfl
@[simp] theorem State.setPage_tb (s : State) (g : Nat) (v : Page) : (s.setPage g v).tb = s.tb := id rfl
@[simp] theorem State.setPage_net (s : State) (g : Nat) (v : Page) : (s.setPage g v).net = s.net := id rfl
@[simp] theorem State.setPage_nextPkt (s : State) (g : Nat) (v : Page) : (s.setPage g v).nextPkt = s.nextPkt := id rfl
@[simp] theorem State.setPage_routes (s : State) (g : Nat) (v : Page) : (s.setPage g v).routes = s.routes := id rfl
@[simp] theorem State.setPage_perimRoutes (s : State) (g : Nat) (v : Page) : (s.setPage g v).perimRoutes = s.perimRoutes := id rfl
@[simp] theorem State.setPage_fabLinks (s : State) (g : Nat) (v : Page) : (s.setPage g v).fabLinks = s.fabLinks := id rfl
@[simp] theorem State.setPage_discards (s : State) (g : Nat) (v : Page) : (s.setPage g v).discards = s.discards := id rfl
@[simp] theorem State.setPage_parts (s : State) (g : Nat) (v : Page) : (s.setPage g v).parts = s.parts := id rfl
@[simp] theorem State.setPage_ctxs (s : State) (g : Nat) (v : Page) : (s.setPage g v).ctxs = s.ctxs := id rfl
@[simp] theorem State.setPage_qps (s : State) (g : Nat) (v : Page) : (s.setPage g v).qps = s.qps := id rfl
@[simp] theorem State.setPage_fns (s : State) (g : Nat) (v : Page) : (s.setPage g v).fns = s.fns := id rfl
@[simp] theorem State.setPage_links (s : State) (g : Nat) (v : Page) : (s.setPage g v).links = s.links := id rfl
@[simp] theorem State.setPage_ports (s : State) (g : Nat) (v : Page) : (s.setPage g v).ports = s.ports := id rfl
@[simp] theorem State.setPage_hbms (s : State) (g : Nat) (v : Page) : (s.setPage g v).hbms = s.hbms := id rfl
@[simp] theorem State.setPage_cxlPorts (s : State) (g : Nat) (v : Page) : (s.setPage g v).cxlPorts = s.cxlPorts := id rfl
@[simp] theorem State.setPage_windows (s : State) (g : Nat) (v : Page) : (s.setPage g v).windows = s.windows := id rfl
@[simp] theorem State.setPage_cores (s : State) (g : Nat) (v : Page) : (s.setPage g v).cores = s.cores := id rfl
@[simp] theorem State.setPage_dir (s : State) (g : Nat) (v : Page) : (s.setPage g v).dir = s.dir := id rfl
@[simp] theorem State.setPage_bpm (s : State) (g : Nat) (v : Page) : (s.setPage g v).bpm = s.bpm := id rfl
@[simp] theorem State.setPage_cool (s : State) (g : Nat) (v : Page) : (s.setPage g v).cool = s.cool := id rfl
@[simp] theorem State.setPage_mgt (s : State) (g : Nat) (v : Page) : (s.setPage g v).mgt = s.mgt := id rfl
@[simp] theorem State.setPage_sec (s : State) (g : Nat) (v : Page) : (s.setPage g v).sec = s.sec := id rfl
@[simp] theorem State.setPage_boot (s : State) (g : Nat) (v : Page) : (s.setPage g v).boot = s.boot := id rfl
@[simp] theorem State.setPage_regs (s : State) (g : Nat) (v : Page) : (s.setPage g v).regs = s.regs := id rfl
@[simp] theorem State.setPage_sels (s : State) (g : Nat) (v : Page) : (s.setPage g v).sels = s.sels := id rfl
@[simp] theorem State.setPage_halves (s : State) (g : Nat) (v : Page) : (s.setPage g v).halves = s.halves := id rfl
@[simp] theorem State.setPage_cl (s : State) (g : Nat) (v : Page) (j : Nat) : (s.setPage g v).cl j = s.cl j := id rfl
@[simp] theorem State.setPage_part (s : State) (g : Nat) (v : Page) (j : Nat) : (s.setPage g v).part j = s.part j := id rfl
@[simp] theorem State.setPage_ctx (s : State) (g : Nat) (v : Page) (j : Nat) : (s.setPage g v).ctx j = s.ctx j := id rfl
@[simp] theorem State.setPage_qp (s : State) (g : Nat) (v : Page) (j : Nat) : (s.setPage g v).qp j = s.qp j := id rfl
@[simp] theorem State.setPage_fn (s : State) (g : Nat) (v : Page) (j : Nat) : (s.setPage g v).fn j = s.fn j := id rfl
@[simp] theorem State.setPage_link (s : State) (g : Nat) (v : Page) (j : Nat) : (s.setPage g v).link j = s.link j := id rfl
@[simp] theorem State.setPage_port (s : State) (g : Nat) (v : Page) (j : Nat) : (s.setPage g v).port j = s.port j := id rfl
@[simp] theorem State.setPage_region (s : State) (g : Nat) (v : Page) (j : Nat) : (s.setPage g v).region j = s.region j := id rfl
@[simp] theorem State.setPage_domain (s : State) (g : Nat) (v : Page) (j : Nat) : (s.setPage g v).domain j = s.domain j := id rfl
@[simp] theorem State.setPage_xing (s : State) (g : Nat) (v : Page) (j : Nat) : (s.setPage g v).xing j = s.xing j := id rfl
@[simp] theorem State.setPage_hbm (s : State) (g : Nat) (v : Page) (j : Nat) : (s.setPage g v).hbm j = s.hbm j := id rfl
@[simp] theorem State.setPage_cxl (s : State) (g : Nat) (v : Page) (j : Nat) : (s.setPage g v).cxl j = s.cxl j := id rfl
@[simp] theorem State.setPage_win (s : State) (g : Nat) (v : Page) (j : Nat) : (s.setPage g v).win j = s.win j := id rfl
@[simp] theorem State.setPage_core (s : State) (g : Nat) (v : Page) (j : Nat) : (s.setPage g v).core j = s.core j := id rfl
@[simp] theorem State.setPage_dirLine (s : State) (g : Nat) (v : Page) (j : Nat) : (s.setPage g v).dirLine j = s.dirLine j := id rfl
@[simp] theorem State.setPage_fabLink (s : State) (g : Nat) (v : Page) (r0 n0 : Nat) : (s.setPage g v).fabLink r0 n0 = s.fabLink r0 n0 := id rfl
@[simp] theorem State.setPage_reg (s : State) (g : Nat) (v : Page) (o0 : Nat) : (s.setPage g v).reg o0 = s.reg o0 := id rfl
@[simp] theorem State.setPage_trow (s : State) (g : Nat) (v : Page) (c0 n0 : Nat) : (s.setPage g v).trow c0 n0 = s.trow c0 n0 := id rfl
@[simp] theorem State.setPage_now (s : State) (g : Nat) (v : Page)  : (s.setPage g v).now  = s.now  := id rfl
@[simp] theorem State.setPage_rawByte (s : State) (g : Nat) (v : Page) (a0 : Nat) : (s.setPage g v).rawByte a0 = s.rawByte a0 := id rfl
theorem State.setPage_page (s : State) (g : Nat) (v : Page) (j : Nat) : (s.setPage g v).page j = if j = g then v else s.page j := Tbl.get_set _ _ _ _ _
@[simp] theorem State.setPage_page_same (s : State) (g : Nat) (v : Page) : (s.setPage g v).page g = v := Tbl.get_set_same _ _ _ _
@[simp] theorem State.setPage_page_ne (s : State) (g : Nat) (v : Page) (j : Nat) (h : j ≠ g) : (s.setPage g v).page j = s.page j := Tbl.get_set_ne _ _ _ h
@[simp] theorem State.modCl_eq (s : State) (c : Nat) (u : Cluster → Cluster) : s.modCl c u = s.setCl c (u (s.cl c)) := id rfl
@[simp] theorem State.modPart_eq (s : State) (p : Nat) (u : Part → Part) : s.modPart p u = s.setPart p (u (s.part p)) := id rfl
@[simp] theorem State.modCtx_eq (s : State) (x : Nat) (u : Ctx → Ctx) : s.modCtx x u = s.setCtx x (u (s.ctx x)) := id rfl
@[simp] theorem State.modQp_eq (s : State) (q : Nat) (u : Qp → Qp) : s.modQp q u = s.setQp q (u (s.qp q)) := id rfl
@[simp] theorem State.modFn_eq (s : State) (k : Nat) (u : Fn → Fn) : s.modFn k u = s.setFn k (u (s.fn k)) := id rfl
@[simp] theorem State.modLink_eq (s : State) (l : Nat) (u : Link → Link) : s.modLink l u = s.setLink l (u (s.link l)) := id rfl
@[simp] theorem State.modPort_eq (s : State) (i : Nat) (u : Port → Port) : s.modPort i u = s.setPort i (u (s.port i)) := id rfl
@[simp] theorem State.modRegion_eq (s : State) (r : Nat) (u : Region → Region) : s.modRegion r u = s.setRegion r (u (s.region r)) := id rfl
@[simp] theorem State.modDomain_eq (s : State) (d : Nat) (u : Domain → Domain) : s.modDomain d u = s.setDomain d (u (s.domain d)) := id rfl
@[simp] theorem State.modXing_eq (s : State) (x : Nat) (u : Crossing → Crossing) : s.modXing x u = s.setXing x (u (s.xing x)) := id rfl
@[simp] theorem State.modHbm_eq (s : State) (k : Nat) (u : Stack → Stack) : s.modHbm k u = s.setHbm k (u (s.hbm k)) := id rfl
@[simp] theorem State.modCxl_eq (s : State) (k : Nat) (u : CxlPort → CxlPort) : s.modCxl k u = s.setCxl k (u (s.cxl k)) := id rfl
@[simp] theorem State.modWin_eq (s : State) (k : Nat) (u : Window → Window) : s.modWin k u = s.setWin k (u (s.win k)) := id rfl
@[simp] theorem State.modCore_eq (s : State) (n : Nat) (u : Core → Core) : s.modCore n u = s.setCore n (u (s.core n)) := id rfl
@[simp] theorem State.modPage_eq (s : State) (g : Nat) (u : Page → Page) : s.modPage g u = s.setPage g (u (s.page g)) := id rfl
@[simp] theorem State.setReg_pending (s : State) (o : Nat) (v : Word) : (s.setReg o v).pending = s.pending := id rfl
@[simp] theorem State.setReg_out (s : State) (o : Nat) (v : Word) : (s.setReg o v).out = s.out := id rfl
@[simp] theorem State.setReg_fresh (s : State) (o : Nat) (v : Word) : (s.setReg o v).fresh = s.fresh := id rfl
@[simp] theorem State.setReg_order (s : State) (o : Nat) (v : Word) : (s.setReg o v).order = s.order := id rfl
@[simp] theorem State.setReg_variant36 (s : State) (o : Nat) (v : Word) : (s.setReg o v).variant36 = s.variant36 := id rfl
@[simp] theorem State.setReg_enabled (s : State) (o : Nat) (v : Word) : (s.setReg o v).enabled = s.enabled := id rfl
@[simp] theorem State.setReg_clusters (s : State) (o : Nat) (v : Word) : (s.setReg o v).clusters = s.clusters := id rfl
@[simp] theorem State.setReg_tarn (s : State) (o : Nat) (v : Word) : (s.setReg o v).tarn = s.tarn := id rfl
@[simp] theorem State.setReg_mem (s : State) (o : Nat) (v : Word) : (s.setReg o v).mem = s.mem := id rfl
@[simp] theorem State.setReg_poison (s : State) (o : Nat) (v : Word) : (s.setReg o v).poison = s.poison := id rfl
@[simp] theorem State.setReg_pages (s : State) (o : Nat) (v : Word) : (s.setReg o v).pages = s.pages := id rfl
@[simp] theorem State.setReg_zeroRuns (s : State) (o : Nat) (v : Word) : (s.setReg o v).zeroRuns = s.zeroRuns := id rfl
@[simp] theorem State.setReg_regions (s : State) (o : Nat) (v : Word) : (s.setReg o v).regions = s.regions := id rfl
@[simp] theorem State.setReg_domains (s : State) (o : Nat) (v : Word) : (s.setReg o v).domains = s.domains := id rfl
@[simp] theorem State.setReg_xings (s : State) (o : Nat) (v : Word) : (s.setReg o v).xings = s.xings := id rfl
@[simp] theorem State.setReg_tb (s : State) (o : Nat) (v : Word) : (s.setReg o v).tb = s.tb := id rfl
@[simp] theorem State.setReg_net (s : State) (o : Nat) (v : Word) : (s.setReg o v).net = s.net := id rfl
@[simp] theorem State.setReg_nextPkt (s : State) (o : Nat) (v : Word) : (s.setReg o v).nextPkt = s.nextPkt := id rfl
@[simp] theorem State.setReg_routes (s : State) (o : Nat) (v : Word) : (s.setReg o v).routes = s.routes := id rfl
@[simp] theorem State.setReg_perimRoutes (s : State) (o : Nat) (v : Word) : (s.setReg o v).perimRoutes = s.perimRoutes := id rfl
@[simp] theorem State.setReg_fabLinks (s : State) (o : Nat) (v : Word) : (s.setReg o v).fabLinks = s.fabLinks := id rfl
@[simp] theorem State.setReg_discards (s : State) (o : Nat) (v : Word) : (s.setReg o v).discards = s.discards := id rfl
@[simp] theorem State.setReg_parts (s : State) (o : Nat) (v : Word) : (s.setReg o v).parts = s.parts := id rfl
@[simp] theorem State.setReg_ctxs (s : State) (o : Nat) (v : Word) : (s.setReg o v).ctxs = s.ctxs := id rfl
@[simp] theorem State.setReg_qps (s : State) (o : Nat) (v : Word) : (s.setReg o v).qps = s.qps := id rfl
@[simp] theorem State.setReg_fns (s : State) (o : Nat) (v : Word) : (s.setReg o v).fns = s.fns := id rfl
@[simp] theorem State.setReg_links (s : State) (o : Nat) (v : Word) : (s.setReg o v).links = s.links := id rfl
@[simp] theorem State.setReg_ports (s : State) (o : Nat) (v : Word) : (s.setReg o v).ports = s.ports := id rfl
@[simp] theorem State.setReg_hbms (s : State) (o : Nat) (v : Word) : (s.setReg o v).hbms = s.hbms := id rfl
@[simp] theorem State.setReg_cxlPorts (s : State) (o : Nat) (v : Word) : (s.setReg o v).cxlPorts = s.cxlPorts := id rfl
@[simp] theorem State.setReg_windows (s : State) (o : Nat) (v : Word) : (s.setReg o v).windows = s.windows := id rfl
@[simp] theorem State.setReg_cores (s : State) (o : Nat) (v : Word) : (s.setReg o v).cores = s.cores := id rfl
@[simp] theorem State.setReg_dir (s : State) (o : Nat) (v : Word) : (s.setReg o v).dir = s.dir := id rfl
@[simp] theorem State.setReg_bpm (s : State) (o : Nat) (v : Word) : (s.setReg o v).bpm = s.bpm := id rfl
@[simp] theorem State.setReg_cool (s : State) (o : Nat) (v : Word) : (s.setReg o v).cool = s.cool := id rfl
@[simp] theorem State.setReg_mgt (s : State) (o : Nat) (v : Word) : (s.setReg o v).mgt = s.mgt := id rfl
@[simp] theorem State.setReg_sec (s : State) (o : Nat) (v : Word) : (s.setReg o v).sec = s.sec := id rfl
@[simp] theorem State.setReg_boot (s : State) (o : Nat) (v : Word) : (s.setReg o v).boot = s.boot := id rfl
@[simp] theorem State.setReg_sels (s : State) (o : Nat) (v : Word) : (s.setReg o v).sels = s.sels := id rfl
@[simp] theorem State.setReg_halves (s : State) (o : Nat) (v : Word) : (s.setReg o v).halves = s.halves := id rfl
@[simp] theorem State.setReg_cl (s : State) (o : Nat) (v : Word) (j : Nat) : (s.setReg o v).cl j = s.cl j := id rfl
@[simp] theorem State.setReg_part (s : State) (o : Nat) (v : Word) (j : Nat) : (s.setReg o v).part j = s.part j := id rfl
@[simp] theorem State.setReg_ctx (s : State) (o : Nat) (v : Word) (j : Nat) : (s.setReg o v).ctx j = s.ctx j := id rfl
@[simp] theorem State.setReg_qp (s : State) (o : Nat) (v : Word) (j : Nat) : (s.setReg o v).qp j = s.qp j := id rfl
@[simp] theorem State.setReg_fn (s : State) (o : Nat) (v : Word) (j : Nat) : (s.setReg o v).fn j = s.fn j := id rfl
@[simp] theorem State.setReg_link (s : State) (o : Nat) (v : Word) (j : Nat) : (s.setReg o v).link j = s.link j := id rfl
@[simp] theorem State.setReg_port (s : State) (o : Nat) (v : Word) (j : Nat) : (s.setReg o v).port j = s.port j := id rfl
@[simp] theorem State.setReg_region (s : State) (o : Nat) (v : Word) (j : Nat) : (s.setReg o v).region j = s.region j := id rfl
@[simp] theorem State.setReg_domain (s : State) (o : Nat) (v : Word) (j : Nat) : (s.setReg o v).domain j = s.domain j := id rfl
@[simp] theorem State.setReg_xing (s : State) (o : Nat) (v : Word) (j : Nat) : (s.setReg o v).xing j = s.xing j := id rfl
@[simp] theorem State.setReg_hbm (s : State) (o : Nat) (v : Word) (j : Nat) : (s.setReg o v).hbm j = s.hbm j := id rfl
@[simp] theorem State.setReg_cxl (s : State) (o : Nat) (v : Word) (j : Nat) : (s.setReg o v).cxl j = s.cxl j := id rfl
@[simp] theorem State.setReg_win (s : State) (o : Nat) (v : Word) (j : Nat) : (s.setReg o v).win j = s.win j := id rfl
@[simp] theorem State.setReg_core (s : State) (o : Nat) (v : Word) (j : Nat) : (s.setReg o v).core j = s.core j := id rfl
@[simp] theorem State.setReg_dirLine (s : State) (o : Nat) (v : Word) (j : Nat) : (s.setReg o v).dirLine j = s.dirLine j := id rfl
@[simp] theorem State.setReg_page (s : State) (o : Nat) (v : Word) (j : Nat) : (s.setReg o v).page j = s.page j := id rfl
@[simp] theorem State.setReg_fabLink (s : State) (o : Nat) (v : Word) (r0 n0 : Nat) : (s.setReg o v).fabLink r0 n0 = s.fabLink r0 n0 := id rfl
@[simp] theorem State.setReg_trow (s : State) (o : Nat) (v : Word) (c0 n0 : Nat) : (s.setReg o v).trow c0 n0 = s.trow c0 n0 := id rfl
@[simp] theorem State.setReg_now (s : State) (o : Nat) (v : Word)  : (s.setReg o v).now  = s.now  := id rfl
@[simp] theorem State.setReg_rawByte (s : State) (o : Nat) (v : Word) (a0 : Nat) : (s.setReg o v).rawByte a0 = s.rawByte a0 := id rfl
@[simp] theorem State.setByte_pending (s : State) (a : Nat) (b : Byte) : (s.setByte a b).pending = s.pending := id rfl
@[simp] theorem State.setByte_out (s : State) (a : Nat) (b : Byte) : (s.setByte a b).out = s.out := id rfl
@[simp] theorem State.setByte_fresh (s : State) (a : Nat) (b : Byte) : (s.setByte a b).fresh = s.fresh := id rfl
@[simp] theorem State.setByte_order (s : State) (a : Nat) (b : Byte) : (s.setByte a b).order = s.order := id rfl
@[simp] theorem State.setByte_variant36 (s : State) (a : Nat) (b : Byte) : (s.setByte a b).variant36 = s.variant36 := id rfl
@[simp] theorem State.setByte_enabled (s : State) (a : Nat) (b : Byte) : (s.setByte a b).enabled = s.enabled := id rfl
@[simp] theorem State.setByte_clusters (s : State) (a : Nat) (b : Byte) : (s.setByte a b).clusters = s.clusters := id rfl
@[simp] theorem State.setByte_tarn (s : State) (a : Nat) (b : Byte) : (s.setByte a b).tarn = s.tarn := id rfl
@[simp] theorem State.setByte_poison (s : State) (a : Nat) (b : Byte) : (s.setByte a b).poison = s.poison := id rfl
@[simp] theorem State.setByte_pages (s : State) (a : Nat) (b : Byte) : (s.setByte a b).pages = s.pages := id rfl
@[simp] theorem State.setByte_zeroRuns (s : State) (a : Nat) (b : Byte) : (s.setByte a b).zeroRuns = s.zeroRuns := id rfl
@[simp] theorem State.setByte_regions (s : State) (a : Nat) (b : Byte) : (s.setByte a b).regions = s.regions := id rfl
@[simp] theorem State.setByte_domains (s : State) (a : Nat) (b : Byte) : (s.setByte a b).domains = s.domains := id rfl
@[simp] theorem State.setByte_xings (s : State) (a : Nat) (b : Byte) : (s.setByte a b).xings = s.xings := id rfl
@[simp] theorem State.setByte_tb (s : State) (a : Nat) (b : Byte) : (s.setByte a b).tb = s.tb := id rfl
@[simp] theorem State.setByte_net (s : State) (a : Nat) (b : Byte) : (s.setByte a b).net = s.net := id rfl
@[simp] theorem State.setByte_nextPkt (s : State) (a : Nat) (b : Byte) : (s.setByte a b).nextPkt = s.nextPkt := id rfl
@[simp] theorem State.setByte_routes (s : State) (a : Nat) (b : Byte) : (s.setByte a b).routes = s.routes := id rfl
@[simp] theorem State.setByte_perimRoutes (s : State) (a : Nat) (b : Byte) : (s.setByte a b).perimRoutes = s.perimRoutes := id rfl
@[simp] theorem State.setByte_fabLinks (s : State) (a : Nat) (b : Byte) : (s.setByte a b).fabLinks = s.fabLinks := id rfl
@[simp] theorem State.setByte_discards (s : State) (a : Nat) (b : Byte) : (s.setByte a b).discards = s.discards := id rfl
@[simp] theorem State.setByte_parts (s : State) (a : Nat) (b : Byte) : (s.setByte a b).parts = s.parts := id rfl
@[simp] theorem State.setByte_ctxs (s : State) (a : Nat) (b : Byte) : (s.setByte a b).ctxs = s.ctxs := id rfl
@[simp] theorem State.setByte_qps (s : State) (a : Nat) (b : Byte) : (s.setByte a b).qps = s.qps := id rfl
@[simp] theorem State.setByte_fns (s : State) (a : Nat) (b : Byte) : (s.setByte a b).fns = s.fns := id rfl
@[simp] theorem State.setByte_links (s : State) (a : Nat) (b : Byte) : (s.setByte a b).links = s.links := id rfl
@[simp] theorem State.setByte_ports (s : State) (a : Nat) (b : Byte) : (s.setByte a b).ports = s.ports := id rfl
@[simp] theorem State.setByte_hbms (s : State) (a : Nat) (b : Byte) : (s.setByte a b).hbms = s.hbms := id rfl
@[simp] theorem State.setByte_cxlPorts (s : State) (a : Nat) (b : Byte) : (s.setByte a b).cxlPorts = s.cxlPorts := id rfl
@[simp] theorem State.setByte_windows (s : State) (a : Nat) (b : Byte) : (s.setByte a b).windows = s.windows := id rfl
@[simp] theorem State.setByte_cores (s : State) (a : Nat) (b : Byte) : (s.setByte a b).cores = s.cores := id rfl
@[simp] theorem State.setByte_dir (s : State) (a : Nat) (b : Byte) : (s.setByte a b).dir = s.dir := id rfl
@[simp] theorem State.setByte_bpm (s : State) (a : Nat) (b : Byte) : (s.setByte a b).bpm = s.bpm := id rfl
@[simp] theorem State.setByte_cool (s : State) (a : Nat) (b : Byte) : (s.setByte a b).cool = s.cool := id rfl
@[simp] theorem State.setByte_mgt (s : State) (a : Nat) (b : Byte) : (s.setByte a b).mgt = s.mgt := id rfl
@[simp] theorem State.setByte_sec (s : State) (a : Nat) (b : Byte) : (s.setByte a b).sec = s.sec := id rfl
@[simp] theorem State.setByte_boot (s : State) (a : Nat) (b : Byte) : (s.setByte a b).boot = s.boot := id rfl
@[simp] theorem State.setByte_regs (s : State) (a : Nat) (b : Byte) : (s.setByte a b).regs = s.regs := id rfl
@[simp] theorem State.setByte_sels (s : State) (a : Nat) (b : Byte) : (s.setByte a b).sels = s.sels := id rfl
@[simp] theorem State.setByte_halves (s : State) (a : Nat) (b : Byte) : (s.setByte a b).halves = s.halves := id rfl
@[simp] theorem State.setByte_cl (s : State) (a : Nat) (b : Byte) (j : Nat) : (s.setByte a b).cl j = s.cl j := id rfl
@[simp] theorem State.setByte_part (s : State) (a : Nat) (b : Byte) (j : Nat) : (s.setByte a b).part j = s.part j := id rfl
@[simp] theorem State.setByte_ctx (s : State) (a : Nat) (b : Byte) (j : Nat) : (s.setByte a b).ctx j = s.ctx j := id rfl
@[simp] theorem State.setByte_qp (s : State) (a : Nat) (b : Byte) (j : Nat) : (s.setByte a b).qp j = s.qp j := id rfl
@[simp] theorem State.setByte_fn (s : State) (a : Nat) (b : Byte) (j : Nat) : (s.setByte a b).fn j = s.fn j := id rfl
@[simp] theorem State.setByte_link (s : State) (a : Nat) (b : Byte) (j : Nat) : (s.setByte a b).link j = s.link j := id rfl
@[simp] theorem State.setByte_port (s : State) (a : Nat) (b : Byte) (j : Nat) : (s.setByte a b).port j = s.port j := id rfl
@[simp] theorem State.setByte_region (s : State) (a : Nat) (b : Byte) (j : Nat) : (s.setByte a b).region j = s.region j := id rfl
@[simp] theorem State.setByte_domain (s : State) (a : Nat) (b : Byte) (j : Nat) : (s.setByte a b).domain j = s.domain j := id rfl
@[simp] theorem State.setByte_xing (s : State) (a : Nat) (b : Byte) (j : Nat) : (s.setByte a b).xing j = s.xing j := id rfl
@[simp] theorem State.setByte_hbm (s : State) (a : Nat) (b : Byte) (j : Nat) : (s.setByte a b).hbm j = s.hbm j := id rfl
@[simp] theorem State.setByte_cxl (s : State) (a : Nat) (b : Byte) (j : Nat) : (s.setByte a b).cxl j = s.cxl j := id rfl
@[simp] theorem State.setByte_win (s : State) (a : Nat) (b : Byte) (j : Nat) : (s.setByte a b).win j = s.win j := id rfl
@[simp] theorem State.setByte_core (s : State) (a : Nat) (b : Byte) (j : Nat) : (s.setByte a b).core j = s.core j := id rfl
@[simp] theorem State.setByte_dirLine (s : State) (a : Nat) (b : Byte) (j : Nat) : (s.setByte a b).dirLine j = s.dirLine j := id rfl
@[simp] theorem State.setByte_page (s : State) (a : Nat) (b : Byte) (j : Nat) : (s.setByte a b).page j = s.page j := id rfl
@[simp] theorem State.setByte_fabLink (s : State) (a : Nat) (b : Byte) (r0 n0 : Nat) : (s.setByte a b).fabLink r0 n0 = s.fabLink r0 n0 := id rfl
@[simp] theorem State.setByte_reg (s : State) (a : Nat) (b : Byte) (o0 : Nat) : (s.setByte a b).reg o0 = s.reg o0 := id rfl
@[simp] theorem State.setByte_trow (s : State) (a : Nat) (b : Byte) (c0 n0 : Nat) : (s.setByte a b).trow c0 n0 = s.trow c0 n0 := id rfl
@[simp] theorem State.setByte_now (s : State) (a : Nat) (b : Byte)  : (s.setByte a b).now  = s.now  := id rfl
@[simp] theorem State.setPoison_pending (s : State) (k : Nat) (b : Bool) : (s.setPoison k b).pending = s.pending := id rfl
@[simp] theorem State.setPoison_out (s : State) (k : Nat) (b : Bool) : (s.setPoison k b).out = s.out := id rfl
@[simp] theorem State.setPoison_fresh (s : State) (k : Nat) (b : Bool) : (s.setPoison k b).fresh = s.fresh := id rfl
@[simp] theorem State.setPoison_order (s : State) (k : Nat) (b : Bool) : (s.setPoison k b).order = s.order := id rfl
@[simp] theorem State.setPoison_variant36 (s : State) (k : Nat) (b : Bool) : (s.setPoison k b).variant36 = s.variant36 := id rfl
@[simp] theorem State.setPoison_enabled (s : State) (k : Nat) (b : Bool) : (s.setPoison k b).enabled = s.enabled := id rfl
@[simp] theorem State.setPoison_clusters (s : State) (k : Nat) (b : Bool) : (s.setPoison k b).clusters = s.clusters := id rfl
@[simp] theorem State.setPoison_tarn (s : State) (k : Nat) (b : Bool) : (s.setPoison k b).tarn = s.tarn := id rfl
@[simp] theorem State.setPoison_mem (s : State) (k : Nat) (b : Bool) : (s.setPoison k b).mem = s.mem := id rfl
@[simp] theorem State.setPoison_pages (s : State) (k : Nat) (b : Bool) : (s.setPoison k b).pages = s.pages := id rfl
@[simp] theorem State.setPoison_zeroRuns (s : State) (k : Nat) (b : Bool) : (s.setPoison k b).zeroRuns = s.zeroRuns := id rfl
@[simp] theorem State.setPoison_regions (s : State) (k : Nat) (b : Bool) : (s.setPoison k b).regions = s.regions := id rfl
@[simp] theorem State.setPoison_domains (s : State) (k : Nat) (b : Bool) : (s.setPoison k b).domains = s.domains := id rfl
@[simp] theorem State.setPoison_xings (s : State) (k : Nat) (b : Bool) : (s.setPoison k b).xings = s.xings := id rfl
@[simp] theorem State.setPoison_tb (s : State) (k : Nat) (b : Bool) : (s.setPoison k b).tb = s.tb := id rfl
@[simp] theorem State.setPoison_net (s : State) (k : Nat) (b : Bool) : (s.setPoison k b).net = s.net := id rfl
@[simp] theorem State.setPoison_nextPkt (s : State) (k : Nat) (b : Bool) : (s.setPoison k b).nextPkt = s.nextPkt := id rfl
@[simp] theorem State.setPoison_routes (s : State) (k : Nat) (b : Bool) : (s.setPoison k b).routes = s.routes := id rfl
@[simp] theorem State.setPoison_perimRoutes (s : State) (k : Nat) (b : Bool) : (s.setPoison k b).perimRoutes = s.perimRoutes := id rfl
@[simp] theorem State.setPoison_fabLinks (s : State) (k : Nat) (b : Bool) : (s.setPoison k b).fabLinks = s.fabLinks := id rfl
@[simp] theorem State.setPoison_discards (s : State) (k : Nat) (b : Bool) : (s.setPoison k b).discards = s.discards := id rfl
@[simp] theorem State.setPoison_parts (s : State) (k : Nat) (b : Bool) : (s.setPoison k b).parts = s.parts := id rfl
@[simp] theorem State.setPoison_ctxs (s : State) (k : Nat) (b : Bool) : (s.setPoison k b).ctxs = s.ctxs := id rfl
@[simp] theorem State.setPoison_qps (s : State) (k : Nat) (b : Bool) : (s.setPoison k b).qps = s.qps := id rfl
@[simp] theorem State.setPoison_fns (s : State) (k : Nat) (b : Bool) : (s.setPoison k b).fns = s.fns := id rfl
@[simp] theorem State.setPoison_links (s : State) (k : Nat) (b : Bool) : (s.setPoison k b).links = s.links := id rfl
@[simp] theorem State.setPoison_ports (s : State) (k : Nat) (b : Bool) : (s.setPoison k b).ports = s.ports := id rfl
@[simp] theorem State.setPoison_hbms (s : State) (k : Nat) (b : Bool) : (s.setPoison k b).hbms = s.hbms := id rfl
@[simp] theorem State.setPoison_cxlPorts (s : State) (k : Nat) (b : Bool) : (s.setPoison k b).cxlPorts = s.cxlPorts := id rfl
@[simp] theorem State.setPoison_windows (s : State) (k : Nat) (b : Bool) : (s.setPoison k b).windows = s.windows := id rfl
@[simp] theorem State.setPoison_cores (s : State) (k : Nat) (b : Bool) : (s.setPoison k b).cores = s.cores := id rfl
@[simp] theorem State.setPoison_dir (s : State) (k : Nat) (b : Bool) : (s.setPoison k b).dir = s.dir := id rfl
@[simp] theorem State.setPoison_bpm (s : State) (k : Nat) (b : Bool) : (s.setPoison k b).bpm = s.bpm := id rfl
@[simp] theorem State.setPoison_cool (s : State) (k : Nat) (b : Bool) : (s.setPoison k b).cool = s.cool := id rfl
@[simp] theorem State.setPoison_mgt (s : State) (k : Nat) (b : Bool) : (s.setPoison k b).mgt = s.mgt := id rfl
@[simp] theorem State.setPoison_sec (s : State) (k : Nat) (b : Bool) : (s.setPoison k b).sec = s.sec := id rfl
@[simp] theorem State.setPoison_boot (s : State) (k : Nat) (b : Bool) : (s.setPoison k b).boot = s.boot := id rfl
@[simp] theorem State.setPoison_regs (s : State) (k : Nat) (b : Bool) : (s.setPoison k b).regs = s.regs := id rfl
@[simp] theorem State.setPoison_sels (s : State) (k : Nat) (b : Bool) : (s.setPoison k b).sels = s.sels := id rfl
@[simp] theorem State.setPoison_halves (s : State) (k : Nat) (b : Bool) : (s.setPoison k b).halves = s.halves := id rfl
@[simp] theorem State.setPoison_cl (s : State) (k : Nat) (b : Bool) (j : Nat) : (s.setPoison k b).cl j = s.cl j := id rfl
@[simp] theorem State.setPoison_part (s : State) (k : Nat) (b : Bool) (j : Nat) : (s.setPoison k b).part j = s.part j := id rfl
@[simp] theorem State.setPoison_ctx (s : State) (k : Nat) (b : Bool) (j : Nat) : (s.setPoison k b).ctx j = s.ctx j := id rfl
@[simp] theorem State.setPoison_qp (s : State) (k : Nat) (b : Bool) (j : Nat) : (s.setPoison k b).qp j = s.qp j := id rfl
@[simp] theorem State.setPoison_fn (s : State) (k : Nat) (b : Bool) (j : Nat) : (s.setPoison k b).fn j = s.fn j := id rfl
@[simp] theorem State.setPoison_link (s : State) (k : Nat) (b : Bool) (j : Nat) : (s.setPoison k b).link j = s.link j := id rfl
@[simp] theorem State.setPoison_port (s : State) (k : Nat) (b : Bool) (j : Nat) : (s.setPoison k b).port j = s.port j := id rfl
@[simp] theorem State.setPoison_region (s : State) (k : Nat) (b : Bool) (j : Nat) : (s.setPoison k b).region j = s.region j := id rfl
@[simp] theorem State.setPoison_domain (s : State) (k : Nat) (b : Bool) (j : Nat) : (s.setPoison k b).domain j = s.domain j := id rfl
@[simp] theorem State.setPoison_xing (s : State) (k : Nat) (b : Bool) (j : Nat) : (s.setPoison k b).xing j = s.xing j := id rfl
@[simp] theorem State.setPoison_hbm (s : State) (k : Nat) (b : Bool) (j : Nat) : (s.setPoison k b).hbm j = s.hbm j := id rfl
@[simp] theorem State.setPoison_cxl (s : State) (k : Nat) (b : Bool) (j : Nat) : (s.setPoison k b).cxl j = s.cxl j := id rfl
@[simp] theorem State.setPoison_win (s : State) (k : Nat) (b : Bool) (j : Nat) : (s.setPoison k b).win j = s.win j := id rfl
@[simp] theorem State.setPoison_core (s : State) (k : Nat) (b : Bool) (j : Nat) : (s.setPoison k b).core j = s.core j := id rfl
@[simp] theorem State.setPoison_dirLine (s : State) (k : Nat) (b : Bool) (j : Nat) : (s.setPoison k b).dirLine j = s.dirLine j := id rfl
@[simp] theorem State.setPoison_page (s : State) (k : Nat) (b : Bool) (j : Nat) : (s.setPoison k b).page j = s.page j := id rfl
@[simp] theorem State.setPoison_fabLink (s : State) (k : Nat) (b : Bool) (r0 n0 : Nat) : (s.setPoison k b).fabLink r0 n0 = s.fabLink r0 n0 := id rfl
@[simp] theorem State.setPoison_reg (s : State) (k : Nat) (b : Bool) (o0 : Nat) : (s.setPoison k b).reg o0 = s.reg o0 := id rfl
@[simp] theorem State.setPoison_trow (s : State) (k : Nat) (b : Bool) (c0 n0 : Nat) : (s.setPoison k b).trow c0 n0 = s.trow c0 n0 := id rfl
@[simp] theorem State.setPoison_now (s : State) (k : Nat) (b : Bool)  : (s.setPoison k b).now  = s.now  := id rfl
@[simp] theorem State.setPoison_rawByte (s : State) (k : Nat) (b : Bool) (a0 : Nat) : (s.setPoison k b).rawByte a0 = s.rawByte a0 := id rfl
@[simp] theorem State.emit_pending (s : State) (o : Output) : (s.emit o).pending = s.pending := id rfl
@[simp] theorem State.emit_fresh (s : State) (o : Output) : (s.emit o).fresh = s.fresh := id rfl
@[simp] theorem State.emit_order (s : State) (o : Output) : (s.emit o).order = s.order := id rfl
@[simp] theorem State.emit_variant36 (s : State) (o : Output) : (s.emit o).variant36 = s.variant36 := id rfl
@[simp] theorem State.emit_enabled (s : State) (o : Output) : (s.emit o).enabled = s.enabled := id rfl
@[simp] theorem State.emit_clusters (s : State) (o : Output) : (s.emit o).clusters = s.clusters := id rfl
@[simp] theorem State.emit_tarn (s : State) (o : Output) : (s.emit o).tarn = s.tarn := id rfl
@[simp] theorem State.emit_mem (s : State) (o : Output) : (s.emit o).mem = s.mem := id rfl
@[simp] theorem State.emit_poison (s : State) (o : Output) : (s.emit o).poison = s.poison := id rfl
@[simp] theorem State.emit_pages (s : State) (o : Output) : (s.emit o).pages = s.pages := id rfl
@[simp] theorem State.emit_zeroRuns (s : State) (o : Output) : (s.emit o).zeroRuns = s.zeroRuns := id rfl
@[simp] theorem State.emit_regions (s : State) (o : Output) : (s.emit o).regions = s.regions := id rfl
@[simp] theorem State.emit_domains (s : State) (o : Output) : (s.emit o).domains = s.domains := id rfl
@[simp] theorem State.emit_xings (s : State) (o : Output) : (s.emit o).xings = s.xings := id rfl
@[simp] theorem State.emit_tb (s : State) (o : Output) : (s.emit o).tb = s.tb := id rfl
@[simp] theorem State.emit_net (s : State) (o : Output) : (s.emit o).net = s.net := id rfl
@[simp] theorem State.emit_nextPkt (s : State) (o : Output) : (s.emit o).nextPkt = s.nextPkt := id rfl
@[simp] theorem State.emit_routes (s : State) (o : Output) : (s.emit o).routes = s.routes := id rfl
@[simp] theorem State.emit_perimRoutes (s : State) (o : Output) : (s.emit o).perimRoutes = s.perimRoutes := id rfl
@[simp] theorem State.emit_fabLinks (s : State) (o : Output) : (s.emit o).fabLinks = s.fabLinks := id rfl
@[simp] theorem State.emit_discards (s : State) (o : Output) : (s.emit o).discards = s.discards := id rfl
@[simp] theorem State.emit_parts (s : State) (o : Output) : (s.emit o).parts = s.parts := id rfl
@[simp] theorem State.emit_ctxs (s : State) (o : Output) : (s.emit o).ctxs = s.ctxs := id rfl
@[simp] theorem State.emit_qps (s : State) (o : Output) : (s.emit o).qps = s.qps := id rfl
@[simp] theorem State.emit_fns (s : State) (o : Output) : (s.emit o).fns = s.fns := id rfl
@[simp] theorem State.emit_links (s : State) (o : Output) : (s.emit o).links = s.links := id rfl
@[simp] theorem State.emit_ports (s : State) (o : Output) : (s.emit o).ports = s.ports := id rfl
@[simp] theorem State.emit_hbms (s : State) (o : Output) : (s.emit o).hbms = s.hbms := id rfl
@[simp] theorem State.emit_cxlPorts (s : State) (o : Output) : (s.emit o).cxlPorts = s.cxlPorts := id rfl
@[simp] theorem State.emit_windows (s : State) (o : Output) : (s.emit o).windows = s.windows := id rfl
@[simp] theorem State.emit_cores (s : State) (o : Output) : (s.emit o).cores = s.cores := id rfl
@[simp] theorem State.emit_dir (s : State) (o : Output) : (s.emit o).dir = s.dir := id rfl
@[simp] theorem State.emit_bpm (s : State) (o : Output) : (s.emit o).bpm = s.bpm := id rfl
@[simp] theorem State.emit_cool (s : State) (o : Output) : (s.emit o).cool = s.cool := id rfl
@[simp] theorem State.emit_mgt (s : State) (o : Output) : (s.emit o).mgt = s.mgt := id rfl
@[simp] theorem State.emit_sec (s : State) (o : Output) : (s.emit o).sec = s.sec := id rfl
@[simp] theorem State.emit_boot (s : State) (o : Output) : (s.emit o).boot = s.boot := id rfl
@[simp] theorem State.emit_regs (s : State) (o : Output) : (s.emit o).regs = s.regs := id rfl
@[simp] theorem State.emit_sels (s : State) (o : Output) : (s.emit o).sels = s.sels := id rfl
@[simp] theorem State.emit_halves (s : State) (o : Output) : (s.emit o).halves = s.halves := id rfl
@[simp] theorem State.emit_cl (s : State) (o : Output) (j : Nat) : (s.emit o).cl j = s.cl j := id rfl
@[simp] theorem State.emit_part (s : State) (o : Output) (j : Nat) : (s.emit o).part j = s.part j := id rfl
@[simp] theorem State.emit_ctx (s : State) (o : Output) (j : Nat) : (s.emit o).ctx j = s.ctx j := id rfl
@[simp] theorem State.emit_qp (s : State) (o : Output) (j : Nat) : (s.emit o).qp j = s.qp j := id rfl
@[simp] theorem State.emit_fn (s : State) (o : Output) (j : Nat) : (s.emit o).fn j = s.fn j := id rfl
@[simp] theorem State.emit_link (s : State) (o : Output) (j : Nat) : (s.emit o).link j = s.link j := id rfl
@[simp] theorem State.emit_port (s : State) (o : Output) (j : Nat) : (s.emit o).port j = s.port j := id rfl
@[simp] theorem State.emit_region (s : State) (o : Output) (j : Nat) : (s.emit o).region j = s.region j := id rfl
@[simp] theorem State.emit_domain (s : State) (o : Output) (j : Nat) : (s.emit o).domain j = s.domain j := id rfl
@[simp] theorem State.emit_xing (s : State) (o : Output) (j : Nat) : (s.emit o).xing j = s.xing j := id rfl
@[simp] theorem State.emit_hbm (s : State) (o : Output) (j : Nat) : (s.emit o).hbm j = s.hbm j := id rfl
@[simp] theorem State.emit_cxl (s : State) (o : Output) (j : Nat) : (s.emit o).cxl j = s.cxl j := id rfl
@[simp] theorem State.emit_win (s : State) (o : Output) (j : Nat) : (s.emit o).win j = s.win j := id rfl
@[simp] theorem State.emit_core (s : State) (o : Output) (j : Nat) : (s.emit o).core j = s.core j := id rfl
@[simp] theorem State.emit_dirLine (s : State) (o : Output) (j : Nat) : (s.emit o).dirLine j = s.dirLine j := id rfl
@[simp] theorem State.emit_page (s : State) (o : Output) (j : Nat) : (s.emit o).page j = s.page j := id rfl
@[simp] theorem State.emit_fabLink (s : State) (o : Output) (r0 n0 : Nat) : (s.emit o).fabLink r0 n0 = s.fabLink r0 n0 := id rfl
@[simp] theorem State.emit_reg (s : State) (o : Output) (o0 : Nat) : (s.emit o).reg o0 = s.reg o0 := id rfl
@[simp] theorem State.emit_trow (s : State) (o : Output) (c0 n0 : Nat) : (s.emit o).trow c0 n0 = s.trow c0 n0 := id rfl
@[simp] theorem State.emit_now (s : State) (o : Output)  : (s.emit o).now  = s.now  := id rfl
@[simp] theorem State.emit_rawByte (s : State) (o : Output) (a0 : Nat) : (s.emit o).rawByte a0 = s.rawByte a0 := id rfl
@[simp] theorem State.draw_pending (s : State)  : (s.draw ).pending = s.pending := id rfl
@[simp] theorem State.draw_out (s : State)  : (s.draw ).out = s.out := id rfl
@[simp] theorem State.draw_order (s : State)  : (s.draw ).order = s.order := id rfl
@[simp] theorem State.draw_variant36 (s : State)  : (s.draw ).variant36 = s.variant36 := id rfl
@[simp] theorem State.draw_enabled (s : State)  : (s.draw ).enabled = s.enabled := id rfl
@[simp] theorem State.draw_clusters (s : State)  : (s.draw ).clusters = s.clusters := id rfl
@[simp] theorem State.draw_tarn (s : State)  : (s.draw ).tarn = s.tarn := id rfl
@[simp] theorem State.draw_mem (s : State)  : (s.draw ).mem = s.mem := id rfl
@[simp] theorem State.draw_poison (s : State)  : (s.draw ).poison = s.poison := id rfl
@[simp] theorem State.draw_pages (s : State)  : (s.draw ).pages = s.pages := id rfl
@[simp] theorem State.draw_zeroRuns (s : State)  : (s.draw ).zeroRuns = s.zeroRuns := id rfl
@[simp] theorem State.draw_regions (s : State)  : (s.draw ).regions = s.regions := id rfl
@[simp] theorem State.draw_domains (s : State)  : (s.draw ).domains = s.domains := id rfl
@[simp] theorem State.draw_xings (s : State)  : (s.draw ).xings = s.xings := id rfl
@[simp] theorem State.draw_tb (s : State)  : (s.draw ).tb = s.tb := id rfl
@[simp] theorem State.draw_net (s : State)  : (s.draw ).net = s.net := id rfl
@[simp] theorem State.draw_nextPkt (s : State)  : (s.draw ).nextPkt = s.nextPkt := id rfl
@[simp] theorem State.draw_routes (s : State)  : (s.draw ).routes = s.routes := id rfl
@[simp] theorem State.draw_perimRoutes (s : State)  : (s.draw ).perimRoutes = s.perimRoutes := id rfl
@[simp] theorem State.draw_fabLinks (s : State)  : (s.draw ).fabLinks = s.fabLinks := id rfl
@[simp] theorem State.draw_discards (s : State)  : (s.draw ).discards = s.discards := id rfl
@[simp] theorem State.draw_parts (s : State)  : (s.draw ).parts = s.parts := id rfl
@[simp] theorem State.draw_ctxs (s : State)  : (s.draw ).ctxs = s.ctxs := id rfl
@[simp] theorem State.draw_qps (s : State)  : (s.draw ).qps = s.qps := id rfl
@[simp] theorem State.draw_fns (s : State)  : (s.draw ).fns = s.fns := id rfl
@[simp] theorem State.draw_links (s : State)  : (s.draw ).links = s.links := id rfl
@[simp] theorem State.draw_ports (s : State)  : (s.draw ).ports = s.ports := id rfl
@[simp] theorem State.draw_hbms (s : State)  : (s.draw ).hbms = s.hbms := id rfl
@[simp] theorem State.draw_cxlPorts (s : State)  : (s.draw ).cxlPorts = s.cxlPorts := id rfl
@[simp] theorem State.draw_windows (s : State)  : (s.draw ).windows = s.windows := id rfl
@[simp] theorem State.draw_cores (s : State)  : (s.draw ).cores = s.cores := id rfl
@[simp] theorem State.draw_dir (s : State)  : (s.draw ).dir = s.dir := id rfl
@[simp] theorem State.draw_bpm (s : State)  : (s.draw ).bpm = s.bpm := id rfl
@[simp] theorem State.draw_cool (s : State)  : (s.draw ).cool = s.cool := id rfl
@[simp] theorem State.draw_mgt (s : State)  : (s.draw ).mgt = s.mgt := id rfl
@[simp] theorem State.draw_sec (s : State)  : (s.draw ).sec = s.sec := id rfl
@[simp] theorem State.draw_boot (s : State)  : (s.draw ).boot = s.boot := id rfl
@[simp] theorem State.draw_regs (s : State)  : (s.draw ).regs = s.regs := id rfl
@[simp] theorem State.draw_sels (s : State)  : (s.draw ).sels = s.sels := id rfl
@[simp] theorem State.draw_halves (s : State)  : (s.draw ).halves = s.halves := id rfl
@[simp] theorem State.draw_cl (s : State)  (j : Nat) : (s.draw ).cl j = s.cl j := id rfl
@[simp] theorem State.draw_part (s : State)  (j : Nat) : (s.draw ).part j = s.part j := id rfl
@[simp] theorem State.draw_ctx (s : State)  (j : Nat) : (s.draw ).ctx j = s.ctx j := id rfl
@[simp] theorem State.draw_qp (s : State)  (j : Nat) : (s.draw ).qp j = s.qp j := id rfl
@[simp] theorem State.draw_fn (s : State)  (j : Nat) : (s.draw ).fn j = s.fn j := id rfl
@[simp] theorem State.draw_link (s : State)  (j : Nat) : (s.draw ).link j = s.link j := id rfl
@[simp] theorem State.draw_port (s : State)  (j : Nat) : (s.draw ).port j = s.port j := id rfl
@[simp] theorem State.draw_region (s : State)  (j : Nat) : (s.draw ).region j = s.region j := id rfl
@[simp] theorem State.draw_domain (s : State)  (j : Nat) : (s.draw ).domain j = s.domain j := id rfl
@[simp] theorem State.draw_xing (s : State)  (j : Nat) : (s.draw ).xing j = s.xing j := id rfl
@[simp] theorem State.draw_hbm (s : State)  (j : Nat) : (s.draw ).hbm j = s.hbm j := id rfl
@[simp] theorem State.draw_cxl (s : State)  (j : Nat) : (s.draw ).cxl j = s.cxl j := id rfl
@[simp] theorem State.draw_win (s : State)  (j : Nat) : (s.draw ).win j = s.win j := id rfl
@[simp] theorem State.draw_core (s : State)  (j : Nat) : (s.draw ).core j = s.core j := id rfl
@[simp] theorem State.draw_dirLine (s : State)  (j : Nat) : (s.draw ).dirLine j = s.dirLine j := id rfl
@[simp] theorem State.draw_page (s : State)  (j : Nat) : (s.draw ).page j = s.page j := id rfl
@[simp] theorem State.draw_fabLink (s : State)  (r0 n0 : Nat) : (s.draw ).fabLink r0 n0 = s.fabLink r0 n0 := id rfl
@[simp] theorem State.draw_reg (s : State)  (o0 : Nat) : (s.draw ).reg o0 = s.reg o0 := id rfl
@[simp] theorem State.draw_trow (s : State)  (c0 n0 : Nat) : (s.draw ).trow c0 n0 = s.trow c0 n0 := id rfl
@[simp] theorem State.draw_now (s : State)   : (s.draw ).now  = s.now  := id rfl
@[simp] theorem State.draw_rawByte (s : State)  (a0 : Nat) : (s.draw ).rawByte a0 = s.rawByte a0 := id rfl
@[simp] theorem State.setTrow_pending (s : State) (c n : Nat) (v : TarnRow) : (s.setTrow c n v).pending = s.pending := id rfl
@[simp] theorem State.setTrow_out (s : State) (c n : Nat) (v : TarnRow) : (s.setTrow c n v).out = s.out := id rfl
@[simp] theorem State.setTrow_fresh (s : State) (c n : Nat) (v : TarnRow) : (s.setTrow c n v).fresh = s.fresh := id rfl
@[simp] theorem State.setTrow_order (s : State) (c n : Nat) (v : TarnRow) : (s.setTrow c n v).order = s.order := id rfl
@[simp] theorem State.setTrow_variant36 (s : State) (c n : Nat) (v : TarnRow) : (s.setTrow c n v).variant36 = s.variant36 := id rfl
@[simp] theorem State.setTrow_enabled (s : State) (c n : Nat) (v : TarnRow) : (s.setTrow c n v).enabled = s.enabled := id rfl
@[simp] theorem State.setTrow_clusters (s : State) (c n : Nat) (v : TarnRow) : (s.setTrow c n v).clusters = s.clusters := id rfl
@[simp] theorem State.setTrow_mem (s : State) (c n : Nat) (v : TarnRow) : (s.setTrow c n v).mem = s.mem := id rfl
@[simp] theorem State.setTrow_poison (s : State) (c n : Nat) (v : TarnRow) : (s.setTrow c n v).poison = s.poison := id rfl
@[simp] theorem State.setTrow_pages (s : State) (c n : Nat) (v : TarnRow) : (s.setTrow c n v).pages = s.pages := id rfl
@[simp] theorem State.setTrow_zeroRuns (s : State) (c n : Nat) (v : TarnRow) : (s.setTrow c n v).zeroRuns = s.zeroRuns := id rfl
@[simp] theorem State.setTrow_regions (s : State) (c n : Nat) (v : TarnRow) : (s.setTrow c n v).regions = s.regions := id rfl
@[simp] theorem State.setTrow_domains (s : State) (c n : Nat) (v : TarnRow) : (s.setTrow c n v).domains = s.domains := id rfl
@[simp] theorem State.setTrow_xings (s : State) (c n : Nat) (v : TarnRow) : (s.setTrow c n v).xings = s.xings := id rfl
@[simp] theorem State.setTrow_tb (s : State) (c n : Nat) (v : TarnRow) : (s.setTrow c n v).tb = s.tb := id rfl
@[simp] theorem State.setTrow_net (s : State) (c n : Nat) (v : TarnRow) : (s.setTrow c n v).net = s.net := id rfl
@[simp] theorem State.setTrow_nextPkt (s : State) (c n : Nat) (v : TarnRow) : (s.setTrow c n v).nextPkt = s.nextPkt := id rfl
@[simp] theorem State.setTrow_routes (s : State) (c n : Nat) (v : TarnRow) : (s.setTrow c n v).routes = s.routes := id rfl
@[simp] theorem State.setTrow_perimRoutes (s : State) (c n : Nat) (v : TarnRow) : (s.setTrow c n v).perimRoutes = s.perimRoutes := id rfl
@[simp] theorem State.setTrow_fabLinks (s : State) (c n : Nat) (v : TarnRow) : (s.setTrow c n v).fabLinks = s.fabLinks := id rfl
@[simp] theorem State.setTrow_discards (s : State) (c n : Nat) (v : TarnRow) : (s.setTrow c n v).discards = s.discards := id rfl
@[simp] theorem State.setTrow_parts (s : State) (c n : Nat) (v : TarnRow) : (s.setTrow c n v).parts = s.parts := id rfl
@[simp] theorem State.setTrow_ctxs (s : State) (c n : Nat) (v : TarnRow) : (s.setTrow c n v).ctxs = s.ctxs := id rfl
@[simp] theorem State.setTrow_qps (s : State) (c n : Nat) (v : TarnRow) : (s.setTrow c n v).qps = s.qps := id rfl
@[simp] theorem State.setTrow_fns (s : State) (c n : Nat) (v : TarnRow) : (s.setTrow c n v).fns = s.fns := id rfl
@[simp] theorem State.setTrow_links (s : State) (c n : Nat) (v : TarnRow) : (s.setTrow c n v).links = s.links := id rfl
@[simp] theorem State.setTrow_ports (s : State) (c n : Nat) (v : TarnRow) : (s.setTrow c n v).ports = s.ports := id rfl
@[simp] theorem State.setTrow_hbms (s : State) (c n : Nat) (v : TarnRow) : (s.setTrow c n v).hbms = s.hbms := id rfl
@[simp] theorem State.setTrow_cxlPorts (s : State) (c n : Nat) (v : TarnRow) : (s.setTrow c n v).cxlPorts = s.cxlPorts := id rfl
@[simp] theorem State.setTrow_windows (s : State) (c n : Nat) (v : TarnRow) : (s.setTrow c n v).windows = s.windows := id rfl
@[simp] theorem State.setTrow_cores (s : State) (c n : Nat) (v : TarnRow) : (s.setTrow c n v).cores = s.cores := id rfl
@[simp] theorem State.setTrow_dir (s : State) (c n : Nat) (v : TarnRow) : (s.setTrow c n v).dir = s.dir := id rfl
@[simp] theorem State.setTrow_bpm (s : State) (c n : Nat) (v : TarnRow) : (s.setTrow c n v).bpm = s.bpm := id rfl
@[simp] theorem State.setTrow_cool (s : State) (c n : Nat) (v : TarnRow) : (s.setTrow c n v).cool = s.cool := id rfl
@[simp] theorem State.setTrow_mgt (s : State) (c n : Nat) (v : TarnRow) : (s.setTrow c n v).mgt = s.mgt := id rfl
@[simp] theorem State.setTrow_sec (s : State) (c n : Nat) (v : TarnRow) : (s.setTrow c n v).sec = s.sec := id rfl
@[simp] theorem State.setTrow_boot (s : State) (c n : Nat) (v : TarnRow) : (s.setTrow c n v).boot = s.boot := id rfl
@[simp] theorem State.setTrow_regs (s : State) (c n : Nat) (v : TarnRow) : (s.setTrow c n v).regs = s.regs := id rfl
@[simp] theorem State.setTrow_sels (s : State) (c n : Nat) (v : TarnRow) : (s.setTrow c n v).sels = s.sels := id rfl
@[simp] theorem State.setTrow_halves (s : State) (c n : Nat) (v : TarnRow) : (s.setTrow c n v).halves = s.halves := id rfl
@[simp] theorem State.setTrow_cl (s : State) (c n : Nat) (v : TarnRow) (j : Nat) : (s.setTrow c n v).cl j = s.cl j := id rfl
@[simp] theorem State.setTrow_part (s : State) (c n : Nat) (v : TarnRow) (j : Nat) : (s.setTrow c n v).part j = s.part j := id rfl
@[simp] theorem State.setTrow_ctx (s : State) (c n : Nat) (v : TarnRow) (j : Nat) : (s.setTrow c n v).ctx j = s.ctx j := id rfl
@[simp] theorem State.setTrow_qp (s : State) (c n : Nat) (v : TarnRow) (j : Nat) : (s.setTrow c n v).qp j = s.qp j := id rfl
@[simp] theorem State.setTrow_fn (s : State) (c n : Nat) (v : TarnRow) (j : Nat) : (s.setTrow c n v).fn j = s.fn j := id rfl
@[simp] theorem State.setTrow_link (s : State) (c n : Nat) (v : TarnRow) (j : Nat) : (s.setTrow c n v).link j = s.link j := id rfl
@[simp] theorem State.setTrow_port (s : State) (c n : Nat) (v : TarnRow) (j : Nat) : (s.setTrow c n v).port j = s.port j := id rfl
@[simp] theorem State.setTrow_region (s : State) (c n : Nat) (v : TarnRow) (j : Nat) : (s.setTrow c n v).region j = s.region j := id rfl
@[simp] theorem State.setTrow_domain (s : State) (c n : Nat) (v : TarnRow) (j : Nat) : (s.setTrow c n v).domain j = s.domain j := id rfl
@[simp] theorem State.setTrow_xing (s : State) (c n : Nat) (v : TarnRow) (j : Nat) : (s.setTrow c n v).xing j = s.xing j := id rfl
@[simp] theorem State.setTrow_hbm (s : State) (c n : Nat) (v : TarnRow) (j : Nat) : (s.setTrow c n v).hbm j = s.hbm j := id rfl
@[simp] theorem State.setTrow_cxl (s : State) (c n : Nat) (v : TarnRow) (j : Nat) : (s.setTrow c n v).cxl j = s.cxl j := id rfl
@[simp] theorem State.setTrow_win (s : State) (c n : Nat) (v : TarnRow) (j : Nat) : (s.setTrow c n v).win j = s.win j := id rfl
@[simp] theorem State.setTrow_core (s : State) (c n : Nat) (v : TarnRow) (j : Nat) : (s.setTrow c n v).core j = s.core j := id rfl
@[simp] theorem State.setTrow_dirLine (s : State) (c n : Nat) (v : TarnRow) (j : Nat) : (s.setTrow c n v).dirLine j = s.dirLine j := id rfl
@[simp] theorem State.setTrow_page (s : State) (c n : Nat) (v : TarnRow) (j : Nat) : (s.setTrow c n v).page j = s.page j := id rfl
@[simp] theorem State.setTrow_fabLink (s : State) (c n : Nat) (v : TarnRow) (r0 n0 : Nat) : (s.setTrow c n v).fabLink r0 n0 = s.fabLink r0 n0 := id rfl
@[simp] theorem State.setTrow_reg (s : State) (c n : Nat) (v : TarnRow) (o0 : Nat) : (s.setTrow c n v).reg o0 = s.reg o0 := id rfl
@[simp] theorem State.setTrow_now (s : State) (c n : Nat) (v : TarnRow)  : (s.setTrow c n v).now  = s.now  := id rfl
@[simp] theorem State.setTrow_rawByte (s : State) (c n : Nat) (v : TarnRow) (a0 : Nat) : (s.setTrow c n v).rawByte a0 = s.rawByte a0 := id rfl
@[simp] theorem State.setFabLink_pending (s : State) (r n : Nat) (v : FabLink) : (s.setFabLink r n v).pending = s.pending := id rfl
@[simp] theorem State.setFabLink_out (s : State) (r n : Nat) (v : FabLink) : (s.setFabLink r n v).out = s.out := id rfl
@[simp] theorem State.setFabLink_fresh (s : State) (r n : Nat) (v : FabLink) : (s.setFabLink r n v).fresh = s.fresh := id rfl
@[simp] theorem State.setFabLink_order (s : State) (r n : Nat) (v : FabLink) : (s.setFabLink r n v).order = s.order := id rfl
@[simp] theorem State.setFabLink_variant36 (s : State) (r n : Nat) (v : FabLink) : (s.setFabLink r n v).variant36 = s.variant36 := id rfl
@[simp] theorem State.setFabLink_enabled (s : State) (r n : Nat) (v : FabLink) : (s.setFabLink r n v).enabled = s.enabled := id rfl
@[simp] theorem State.setFabLink_clusters (s : State) (r n : Nat) (v : FabLink) : (s.setFabLink r n v).clusters = s.clusters := id rfl
@[simp] theorem State.setFabLink_tarn (s : State) (r n : Nat) (v : FabLink) : (s.setFabLink r n v).tarn = s.tarn := id rfl
@[simp] theorem State.setFabLink_mem (s : State) (r n : Nat) (v : FabLink) : (s.setFabLink r n v).mem = s.mem := id rfl
@[simp] theorem State.setFabLink_poison (s : State) (r n : Nat) (v : FabLink) : (s.setFabLink r n v).poison = s.poison := id rfl
@[simp] theorem State.setFabLink_pages (s : State) (r n : Nat) (v : FabLink) : (s.setFabLink r n v).pages = s.pages := id rfl
@[simp] theorem State.setFabLink_zeroRuns (s : State) (r n : Nat) (v : FabLink) : (s.setFabLink r n v).zeroRuns = s.zeroRuns := id rfl
@[simp] theorem State.setFabLink_regions (s : State) (r n : Nat) (v : FabLink) : (s.setFabLink r n v).regions = s.regions := id rfl
@[simp] theorem State.setFabLink_domains (s : State) (r n : Nat) (v : FabLink) : (s.setFabLink r n v).domains = s.domains := id rfl
@[simp] theorem State.setFabLink_xings (s : State) (r n : Nat) (v : FabLink) : (s.setFabLink r n v).xings = s.xings := id rfl
@[simp] theorem State.setFabLink_tb (s : State) (r n : Nat) (v : FabLink) : (s.setFabLink r n v).tb = s.tb := id rfl
@[simp] theorem State.setFabLink_net (s : State) (r n : Nat) (v : FabLink) : (s.setFabLink r n v).net = s.net := id rfl
@[simp] theorem State.setFabLink_nextPkt (s : State) (r n : Nat) (v : FabLink) : (s.setFabLink r n v).nextPkt = s.nextPkt := id rfl
@[simp] theorem State.setFabLink_routes (s : State) (r n : Nat) (v : FabLink) : (s.setFabLink r n v).routes = s.routes := id rfl
@[simp] theorem State.setFabLink_perimRoutes (s : State) (r n : Nat) (v : FabLink) : (s.setFabLink r n v).perimRoutes = s.perimRoutes := id rfl
@[simp] theorem State.setFabLink_discards (s : State) (r n : Nat) (v : FabLink) : (s.setFabLink r n v).discards = s.discards := id rfl
@[simp] theorem State.setFabLink_parts (s : State) (r n : Nat) (v : FabLink) : (s.setFabLink r n v).parts = s.parts := id rfl
@[simp] theorem State.setFabLink_ctxs (s : State) (r n : Nat) (v : FabLink) : (s.setFabLink r n v).ctxs = s.ctxs := id rfl
@[simp] theorem State.setFabLink_qps (s : State) (r n : Nat) (v : FabLink) : (s.setFabLink r n v).qps = s.qps := id rfl
@[simp] theorem State.setFabLink_fns (s : State) (r n : Nat) (v : FabLink) : (s.setFabLink r n v).fns = s.fns := id rfl
@[simp] theorem State.setFabLink_links (s : State) (r n : Nat) (v : FabLink) : (s.setFabLink r n v).links = s.links := id rfl
@[simp] theorem State.setFabLink_ports (s : State) (r n : Nat) (v : FabLink) : (s.setFabLink r n v).ports = s.ports := id rfl
@[simp] theorem State.setFabLink_hbms (s : State) (r n : Nat) (v : FabLink) : (s.setFabLink r n v).hbms = s.hbms := id rfl
@[simp] theorem State.setFabLink_cxlPorts (s : State) (r n : Nat) (v : FabLink) : (s.setFabLink r n v).cxlPorts = s.cxlPorts := id rfl
@[simp] theorem State.setFabLink_windows (s : State) (r n : Nat) (v : FabLink) : (s.setFabLink r n v).windows = s.windows := id rfl
@[simp] theorem State.setFabLink_cores (s : State) (r n : Nat) (v : FabLink) : (s.setFabLink r n v).cores = s.cores := id rfl
@[simp] theorem State.setFabLink_dir (s : State) (r n : Nat) (v : FabLink) : (s.setFabLink r n v).dir = s.dir := id rfl
@[simp] theorem State.setFabLink_bpm (s : State) (r n : Nat) (v : FabLink) : (s.setFabLink r n v).bpm = s.bpm := id rfl
@[simp] theorem State.setFabLink_cool (s : State) (r n : Nat) (v : FabLink) : (s.setFabLink r n v).cool = s.cool := id rfl
@[simp] theorem State.setFabLink_mgt (s : State) (r n : Nat) (v : FabLink) : (s.setFabLink r n v).mgt = s.mgt := id rfl
@[simp] theorem State.setFabLink_sec (s : State) (r n : Nat) (v : FabLink) : (s.setFabLink r n v).sec = s.sec := id rfl
@[simp] theorem State.setFabLink_boot (s : State) (r n : Nat) (v : FabLink) : (s.setFabLink r n v).boot = s.boot := id rfl
@[simp] theorem State.setFabLink_regs (s : State) (r n : Nat) (v : FabLink) : (s.setFabLink r n v).regs = s.regs := id rfl
@[simp] theorem State.setFabLink_sels (s : State) (r n : Nat) (v : FabLink) : (s.setFabLink r n v).sels = s.sels := id rfl
@[simp] theorem State.setFabLink_halves (s : State) (r n : Nat) (v : FabLink) : (s.setFabLink r n v).halves = s.halves := id rfl
@[simp] theorem State.setFabLink_cl (s : State) (r n : Nat) (v : FabLink) (j : Nat) : (s.setFabLink r n v).cl j = s.cl j := id rfl
@[simp] theorem State.setFabLink_part (s : State) (r n : Nat) (v : FabLink) (j : Nat) : (s.setFabLink r n v).part j = s.part j := id rfl
@[simp] theorem State.setFabLink_ctx (s : State) (r n : Nat) (v : FabLink) (j : Nat) : (s.setFabLink r n v).ctx j = s.ctx j := id rfl
@[simp] theorem State.setFabLink_qp (s : State) (r n : Nat) (v : FabLink) (j : Nat) : (s.setFabLink r n v).qp j = s.qp j := id rfl
@[simp] theorem State.setFabLink_fn (s : State) (r n : Nat) (v : FabLink) (j : Nat) : (s.setFabLink r n v).fn j = s.fn j := id rfl
@[simp] theorem State.setFabLink_link (s : State) (r n : Nat) (v : FabLink) (j : Nat) : (s.setFabLink r n v).link j = s.link j := id rfl
@[simp] theorem State.setFabLink_port (s : State) (r n : Nat) (v : FabLink) (j : Nat) : (s.setFabLink r n v).port j = s.port j := id rfl
@[simp] theorem State.setFabLink_region (s : State) (r n : Nat) (v : FabLink) (j : Nat) : (s.setFabLink r n v).region j = s.region j := id rfl
@[simp] theorem State.setFabLink_domain (s : State) (r n : Nat) (v : FabLink) (j : Nat) : (s.setFabLink r n v).domain j = s.domain j := id rfl
@[simp] theorem State.setFabLink_xing (s : State) (r n : Nat) (v : FabLink) (j : Nat) : (s.setFabLink r n v).xing j = s.xing j := id rfl
@[simp] theorem State.setFabLink_hbm (s : State) (r n : Nat) (v : FabLink) (j : Nat) : (s.setFabLink r n v).hbm j = s.hbm j := id rfl
@[simp] theorem State.setFabLink_cxl (s : State) (r n : Nat) (v : FabLink) (j : Nat) : (s.setFabLink r n v).cxl j = s.cxl j := id rfl
@[simp] theorem State.setFabLink_win (s : State) (r n : Nat) (v : FabLink) (j : Nat) : (s.setFabLink r n v).win j = s.win j := id rfl
@[simp] theorem State.setFabLink_core (s : State) (r n : Nat) (v : FabLink) (j : Nat) : (s.setFabLink r n v).core j = s.core j := id rfl
@[simp] theorem State.setFabLink_dirLine (s : State) (r n : Nat) (v : FabLink) (j : Nat) : (s.setFabLink r n v).dirLine j = s.dirLine j := id rfl
@[simp] theorem State.setFabLink_page (s : State) (r n : Nat) (v : FabLink) (j : Nat) : (s.setFabLink r n v).page j = s.page j := id rfl
@[simp] theorem State.setFabLink_reg (s : State) (r n : Nat) (v : FabLink) (o0 : Nat) : (s.setFabLink r n v).reg o0 = s.reg o0 := id rfl
@[simp] theorem State.setFabLink_trow (s : State) (r n : Nat) (v : FabLink) (c0 n0 : Nat) : (s.setFabLink r n v).trow c0 n0 = s.trow c0 n0 := id rfl
@[simp] theorem State.setFabLink_now (s : State) (r n : Nat) (v : FabLink)  : (s.setFabLink r n v).now  = s.now  := id rfl
@[simp] theorem State.setFabLink_rawByte (s : State) (r n : Nat) (v : FabLink) (a0 : Nat) : (s.setFabLink r n v).rawByte a0 = s.rawByte a0 := id rfl
@[simp] theorem State.emit_out (s : State) (o : Output) : (s.emit o).out = s.out ++ [o] := id rfl
@[simp] theorem State.draw_fresh (s : State) : s.draw.fresh = s.fresh + 1 := id rfl
@[simp] theorem State.setByte_rawByte (s : State) (a : Nat) (b : Byte) (j : Nat) : (s.setByte a b).rawByte j = if j = a then b else s.rawByte j := Tbl.get_set _ _ _ _ _
@[simp] theorem State.setReg_reg (s : State) (o : Nat) (v : Word) (j : Nat) : (s.setReg o v).reg j = if j = o then v else s.reg j := Tbl.get_set _ _ _ _ _
@[simp] theorem State.setTrow_trow_same (s : State) (c n : Nat) (v : TarnRow) : (s.setTrow c n v).trow c n = v := Tbl.get_set_same _ _ _ _

end Sys2Proof.Machine
end

