-- ==== Sys2Proof/Laws/Frames.lean ====
section
/-! SUPPORT. What the shared operations leave alone: one lemma for each operation and each field, and each table's reading,
that it does not write. -/

namespace Sys2Proof.Machine

set_option Elab.async false

open Sys2Proof

@[simp] theorem foldl_pending {α : Type} (g : State → α → State) (h : ∀ t a, (g t a).pending = t.pending) (l : List α) (s : State) :
    (l.foldl g s).pending = s.pending := by
  induction l generalizing s with
  | nil => rfl
  | cons a l ih => simp only [List.foldl_cons, ih, h]
@[simp] theorem foldl_out {α : Type} (g : State → α → State) (h : ∀ t a, (g t a).out = t.out) (l : List α) (s : State) :
    (l.foldl g s).out = s.out := by
  induction l generalizing s with
  | nil => rfl
  | cons a l ih => simp only [List.foldl_cons, ih, h]
@[simp] theorem foldl_fresh {α : Type} (g : State → α → State) (h : ∀ t a, (g t a).fresh = t.fresh) (l : List α) (s : State) :
    (l.foldl g s).fresh = s.fresh := by
  induction l generalizing s with
  | nil => rfl
  | cons a l ih => simp only [List.foldl_cons, ih, h]
@[simp] theorem foldl_order {α : Type} (g : State → α → State) (h : ∀ t a, (g t a).order = t.order) (l : List α) (s : State) :
    (l.foldl g s).order = s.order := by
  induction l generalizing s with
  | nil => rfl
  | cons a l ih => simp only [List.foldl_cons, ih, h]
@[simp] theorem foldl_variant36 {α : Type} (g : State → α → State) (h : ∀ t a, (g t a).variant36 = t.variant36) (l : List α) (s : State) :
    (l.foldl g s).variant36 = s.variant36 := by
  induction l generalizing s with
  | nil => rfl
  | cons a l ih => simp only [List.foldl_cons, ih, h]
@[simp] theorem foldl_enabled {α : Type} (g : State → α → State) (h : ∀ t a, (g t a).enabled = t.enabled) (l : List α) (s : State) :
    (l.foldl g s).enabled = s.enabled := by
  induction l generalizing s with
  | nil => rfl
  | cons a l ih => simp only [List.foldl_cons, ih, h]
@[simp] theorem foldl_clusters {α : Type} (g : State → α → State) (h : ∀ t a, (g t a).clusters = t.clusters) (l : List α) (s : State) :
    (l.foldl g s).clusters = s.clusters := by
  induction l generalizing s with
  | nil => rfl
  | cons a l ih => simp only [List.foldl_cons, ih, h]
@[simp] theorem foldl_tarn {α : Type} (g : State → α → State) (h : ∀ t a, (g t a).tarn = t.tarn) (l : List α) (s : State) :
    (l.foldl g s).tarn = s.tarn := by
  induction l generalizing s with
  | nil => rfl
  | cons a l ih => simp only [List.foldl_cons, ih, h]
@[simp] theorem foldl_mem {α : Type} (g : State → α → State) (h : ∀ t a, (g t a).mem = t.mem) (l : List α) (s : State) :
    (l.foldl g s).mem = s.mem := by
  induction l generalizing s with
  | nil => rfl
  | cons a l ih => simp only [List.foldl_cons, ih, h]
@[simp] theorem foldl_poison {α : Type} (g : State → α → State) (h : ∀ t a, (g t a).poison = t.poison) (l : List α) (s : State) :
    (l.foldl g s).poison = s.poison := by
  induction l generalizing s with
  | nil => rfl
  | cons a l ih => simp only [List.foldl_cons, ih, h]
@[simp] theorem foldl_pages {α : Type} (g : State → α → State) (h : ∀ t a, (g t a).pages = t.pages) (l : List α) (s : State) :
    (l.foldl g s).pages = s.pages := by
  induction l generalizing s with
  | nil => rfl
  | cons a l ih => simp only [List.foldl_cons, ih, h]
@[simp] theorem foldl_zeroRuns {α : Type} (g : State → α → State) (h : ∀ t a, (g t a).zeroRuns = t.zeroRuns) (l : List α) (s : State) :
    (l.foldl g s).zeroRuns = s.zeroRuns := by
  induction l generalizing s with
  | nil => rfl
  | cons a l ih => simp only [List.foldl_cons, ih, h]
@[simp] theorem foldl_regions {α : Type} (g : State → α → State) (h : ∀ t a, (g t a).regions = t.regions) (l : List α) (s : State) :
    (l.foldl g s).regions = s.regions := by
  induction l generalizing s with
  | nil => rfl
  | cons a l ih => simp only [List.foldl_cons, ih, h]
@[simp] theorem foldl_domains {α : Type} (g : State → α → State) (h : ∀ t a, (g t a).domains = t.domains) (l : List α) (s : State) :
    (l.foldl g s).domains = s.domains := by
  induction l generalizing s with
  | nil => rfl
  | cons a l ih => simp only [List.foldl_cons, ih, h]
@[simp] theorem foldl_xings {α : Type} (g : State → α → State) (h : ∀ t a, (g t a).xings = t.xings) (l : List α) (s : State) :
    (l.foldl g s).xings = s.xings := by
  induction l generalizing s with
  | nil => rfl
  | cons a l ih => simp only [List.foldl_cons, ih, h]
@[simp] theorem foldl_tb {α : Type} (g : State → α → State) (h : ∀ t a, (g t a).tb = t.tb) (l : List α) (s : State) :
    (l.foldl g s).tb = s.tb := by
  induction l generalizing s with
  | nil => rfl
  | cons a l ih => simp only [List.foldl_cons, ih, h]
@[simp] theorem foldl_net {α : Type} (g : State → α → State) (h : ∀ t a, (g t a).net = t.net) (l : List α) (s : State) :
    (l.foldl g s).net = s.net := by
  induction l generalizing s with
  | nil => rfl
  | cons a l ih => simp only [List.foldl_cons, ih, h]
@[simp] theorem foldl_nextPkt {α : Type} (g : State → α → State) (h : ∀ t a, (g t a).nextPkt = t.nextPkt) (l : List α) (s : State) :
    (l.foldl g s).nextPkt = s.nextPkt := by
  induction l generalizing s with
  | nil => rfl
  | cons a l ih => simp only [List.foldl_cons, ih, h]
@[simp] theorem foldl_routes {α : Type} (g : State → α → State) (h : ∀ t a, (g t a).routes = t.routes) (l : List α) (s : State) :
    (l.foldl g s).routes = s.routes := by
  induction l generalizing s with
  | nil => rfl
  | cons a l ih => simp only [List.foldl_cons, ih, h]
@[simp] theorem foldl_perimRoutes {α : Type} (g : State → α → State) (h : ∀ t a, (g t a).perimRoutes = t.perimRoutes) (l : List α) (s : State) :
    (l.foldl g s).perimRoutes = s.perimRoutes := by
  induction l generalizing s with
  | nil => rfl
  | cons a l ih => simp only [List.foldl_cons, ih, h]
@[simp] theorem foldl_fabLinks {α : Type} (g : State → α → State) (h : ∀ t a, (g t a).fabLinks = t.fabLinks) (l : List α) (s : State) :
    (l.foldl g s).fabLinks = s.fabLinks := by
  induction l generalizing s with
  | nil => rfl
  | cons a l ih => simp only [List.foldl_cons, ih, h]
@[simp] theorem foldl_discards {α : Type} (g : State → α → State) (h : ∀ t a, (g t a).discards = t.discards) (l : List α) (s : State) :
    (l.foldl g s).discards = s.discards := by
  induction l generalizing s with
  | nil => rfl
  | cons a l ih => simp only [List.foldl_cons, ih, h]
@[simp] theorem foldl_parts {α : Type} (g : State → α → State) (h : ∀ t a, (g t a).parts = t.parts) (l : List α) (s : State) :
    (l.foldl g s).parts = s.parts := by
  induction l generalizing s with
  | nil => rfl
  | cons a l ih => simp only [List.foldl_cons, ih, h]
@[simp] theorem foldl_ctxs {α : Type} (g : State → α → State) (h : ∀ t a, (g t a).ctxs = t.ctxs) (l : List α) (s : State) :
    (l.foldl g s).ctxs = s.ctxs := by
  induction l generalizing s with
  | nil => rfl
  | cons a l ih => simp only [List.foldl_cons, ih, h]
@[simp] theorem foldl_qps {α : Type} (g : State → α → State) (h : ∀ t a, (g t a).qps = t.qps) (l : List α) (s : State) :
    (l.foldl g s).qps = s.qps := by
  induction l generalizing s with
  | nil => rfl
  | cons a l ih => simp only [List.foldl_cons, ih, h]
@[simp] theorem foldl_fns {α : Type} (g : State → α → State) (h : ∀ t a, (g t a).fns = t.fns) (l : List α) (s : State) :
    (l.foldl g s).fns = s.fns := by
  induction l generalizing s with
  | nil => rfl
  | cons a l ih => simp only [List.foldl_cons, ih, h]
@[simp] theorem foldl_links {α : Type} (g : State → α → State) (h : ∀ t a, (g t a).links = t.links) (l : List α) (s : State) :
    (l.foldl g s).links = s.links := by
  induction l generalizing s with
  | nil => rfl
  | cons a l ih => simp only [List.foldl_cons, ih, h]
@[simp] theorem foldl_ports {α : Type} (g : State → α → State) (h : ∀ t a, (g t a).ports = t.ports) (l : List α) (s : State) :
    (l.foldl g s).ports = s.ports := by
  induction l generalizing s with
  | nil => rfl
  | cons a l ih => simp only [List.foldl_cons, ih, h]
@[simp] theorem foldl_hbms {α : Type} (g : State → α → State) (h : ∀ t a, (g t a).hbms = t.hbms) (l : List α) (s : State) :
    (l.foldl g s).hbms = s.hbms := by
  induction l generalizing s with
  | nil => rfl
  | cons a l ih => simp only [List.foldl_cons, ih, h]
@[simp] theorem foldl_cxlPorts {α : Type} (g : State → α → State) (h : ∀ t a, (g t a).cxlPorts = t.cxlPorts) (l : List α) (s : State) :
    (l.foldl g s).cxlPorts = s.cxlPorts := by
  induction l generalizing s with
  | nil => rfl
  | cons a l ih => simp only [List.foldl_cons, ih, h]
@[simp] theorem foldl_windows {α : Type} (g : State → α → State) (h : ∀ t a, (g t a).windows = t.windows) (l : List α) (s : State) :
    (l.foldl g s).windows = s.windows := by
  induction l generalizing s with
  | nil => rfl
  | cons a l ih => simp only [List.foldl_cons, ih, h]
@[simp] theorem foldl_cores {α : Type} (g : State → α → State) (h : ∀ t a, (g t a).cores = t.cores) (l : List α) (s : State) :
    (l.foldl g s).cores = s.cores := by
  induction l generalizing s with
  | nil => rfl
  | cons a l ih => simp only [List.foldl_cons, ih, h]
@[simp] theorem foldl_dir {α : Type} (g : State → α → State) (h : ∀ t a, (g t a).dir = t.dir) (l : List α) (s : State) :
    (l.foldl g s).dir = s.dir := by
  induction l generalizing s with
  | nil => rfl
  | cons a l ih => simp only [List.foldl_cons, ih, h]
@[simp] theorem foldl_bpm {α : Type} (g : State → α → State) (h : ∀ t a, (g t a).bpm = t.bpm) (l : List α) (s : State) :
    (l.foldl g s).bpm = s.bpm := by
  induction l generalizing s with
  | nil => rfl
  | cons a l ih => simp only [List.foldl_cons, ih, h]
@[simp] theorem foldl_cool {α : Type} (g : State → α → State) (h : ∀ t a, (g t a).cool = t.cool) (l : List α) (s : State) :
    (l.foldl g s).cool = s.cool := by
  induction l generalizing s with
  | nil => rfl
  | cons a l ih => simp only [List.foldl_cons, ih, h]
@[simp] theorem foldl_mgt {α : Type} (g : State → α → State) (h : ∀ t a, (g t a).mgt = t.mgt) (l : List α) (s : State) :
    (l.foldl g s).mgt = s.mgt := by
  induction l generalizing s with
  | nil => rfl
  | cons a l ih => simp only [List.foldl_cons, ih, h]
@[simp] theorem foldl_sec {α : Type} (g : State → α → State) (h : ∀ t a, (g t a).sec = t.sec) (l : List α) (s : State) :
    (l.foldl g s).sec = s.sec := by
  induction l generalizing s with
  | nil => rfl
  | cons a l ih => simp only [List.foldl_cons, ih, h]
@[simp] theorem foldl_boot {α : Type} (g : State → α → State) (h : ∀ t a, (g t a).boot = t.boot) (l : List α) (s : State) :
    (l.foldl g s).boot = s.boot := by
  induction l generalizing s with
  | nil => rfl
  | cons a l ih => simp only [List.foldl_cons, ih, h]
@[simp] theorem foldl_regs {α : Type} (g : State → α → State) (h : ∀ t a, (g t a).regs = t.regs) (l : List α) (s : State) :
    (l.foldl g s).regs = s.regs := by
  induction l generalizing s with
  | nil => rfl
  | cons a l ih => simp only [List.foldl_cons, ih, h]
@[simp] theorem foldl_sels {α : Type} (g : State → α → State) (h : ∀ t a, (g t a).sels = t.sels) (l : List α) (s : State) :
    (l.foldl g s).sels = s.sels := by
  induction l generalizing s with
  | nil => rfl
  | cons a l ih => simp only [List.foldl_cons, ih, h]
@[simp] theorem foldl_halves {α : Type} (g : State → α → State) (h : ∀ t a, (g t a).halves = t.halves) (l : List α) (s : State) :
    (l.foldl g s).halves = s.halves := by
  induction l generalizing s with
  | nil => rfl
  | cons a l ih => simp only [List.foldl_cons, ih, h]

@[simp] theorem State.writeNat_pending (s : State) (a v n : Nat) : (s.writeNat a v n).pending = s.pending := by
  induction n with
  | zero => rfl
  | succ n ih => simp [State.writeNat, ih]
@[simp] theorem State.writeNat_out (s : State) (a v n : Nat) : (s.writeNat a v n).out = s.out := by
  induction n with
  | zero => rfl
  | succ n ih => simp [State.writeNat, ih]
@[simp] theorem State.writeNat_fresh (s : State) (a v n : Nat) : (s.writeNat a v n).fresh = s.fresh := by
  induction n with
  | zero => rfl
  | succ n ih => simp [State.writeNat, ih]
@[simp] theorem State.writeNat_order (s : State) (a v n : Nat) : (s.writeNat a v n).order = s.order := by
  induction n with
  | zero => rfl
  | succ n ih => simp [State.writeNat, ih]
@[simp] theorem State.writeNat_variant36 (s : State) (a v n : Nat) : (s.writeNat a v n).variant36 = s.variant36 := by
  induction n with
  | zero => rfl
  | succ n ih => simp [State.writeNat, ih]
@[simp] theorem State.writeNat_enabled (s : State) (a v n : Nat) : (s.writeNat a v n).enabled = s.enabled := by
  induction n with
  | zero => rfl
  | succ n ih => simp [State.writeNat, ih]
@[simp] theorem State.writeNat_clusters (s : State) (a v n : Nat) : (s.writeNat a v n).clusters = s.clusters := by
  induction n with
  | zero => rfl
  | succ n ih => simp [State.writeNat, ih]
@[simp] theorem State.writeNat_tarn (s : State) (a v n : Nat) : (s.writeNat a v n).tarn = s.tarn := by
  induction n with
  | zero => rfl
  | succ n ih => simp [State.writeNat, ih]
@[simp] theorem State.writeNat_poison (s : State) (a v n : Nat) : (s.writeNat a v n).poison = s.poison := by
  induction n with
  | zero => rfl
  | succ n ih => simp [State.writeNat, ih]
@[simp] theorem State.writeNat_pages (s : State) (a v n : Nat) : (s.writeNat a v n).pages = s.pages := by
  induction n with
  | zero => rfl
  | succ n ih => simp [State.writeNat, ih]
@[simp] theorem State.writeNat_zeroRuns (s : State) (a v n : Nat) : (s.writeNat a v n).zeroRuns = s.zeroRuns := by
  induction n with
  | zero => rfl
  | succ n ih => simp [State.writeNat, ih]
@[simp] theorem State.writeNat_regions (s : State) (a v n : Nat) : (s.writeNat a v n).regions = s.regions := by
  induction n with
  | zero => rfl
  | succ n ih => simp [State.writeNat, ih]
@[simp] theorem State.writeNat_domains (s : State) (a v n : Nat) : (s.writeNat a v n).domains = s.domains := by
  induction n with
  | zero => rfl
  | succ n ih => simp [State.writeNat, ih]
@[simp] theorem State.writeNat_xings (s : State) (a v n : Nat) : (s.writeNat a v n).xings = s.xings := by
  induction n with
  | zero => rfl
  | succ n ih => simp [State.writeNat, ih]
@[simp] theorem State.writeNat_tb (s : State) (a v n : Nat) : (s.writeNat a v n).tb = s.tb := by
  induction n with
  | zero => rfl
  | succ n ih => simp [State.writeNat, ih]
@[simp] theorem State.writeNat_net (s : State) (a v n : Nat) : (s.writeNat a v n).net = s.net := by
  induction n with
  | zero => rfl
  | succ n ih => simp [State.writeNat, ih]
@[simp] theorem State.writeNat_nextPkt (s : State) (a v n : Nat) : (s.writeNat a v n).nextPkt = s.nextPkt := by
  induction n with
  | zero => rfl
  | succ n ih => simp [State.writeNat, ih]
@[simp] theorem State.writeNat_routes (s : State) (a v n : Nat) : (s.writeNat a v n).routes = s.routes := by
  induction n with
  | zero => rfl
  | succ n ih => simp [State.writeNat, ih]
@[simp] theorem State.writeNat_perimRoutes (s : State) (a v n : Nat) : (s.writeNat a v n).perimRoutes = s.perimRoutes := by
  induction n with
  | zero => rfl
  | succ n ih => simp [State.writeNat, ih]
@[simp] theorem State.writeNat_fabLinks (s : State) (a v n : Nat) : (s.writeNat a v n).fabLinks = s.fabLinks := by
  induction n with
  | zero => rfl
  | succ n ih => simp [State.writeNat, ih]
@[simp] theorem State.writeNat_discards (s : State) (a v n : Nat) : (s.writeNat a v n).discards = s.discards := by
  induction n with
  | zero => rfl
  | succ n ih => simp [State.writeNat, ih]
@[simp] theorem State.writeNat_parts (s : State) (a v n : Nat) : (s.writeNat a v n).parts = s.parts := by
  induction n with
  | zero => rfl
  | succ n ih => simp [State.writeNat, ih]
@[simp] theorem State.writeNat_ctxs (s : State) (a v n : Nat) : (s.writeNat a v n).ctxs = s.ctxs := by
  induction n with
  | zero => rfl
  | succ n ih => simp [State.writeNat, ih]
@[simp] theorem State.writeNat_qps (s : State) (a v n : Nat) : (s.writeNat a v n).qps = s.qps := by
  induction n with
  | zero => rfl
  | succ n ih => simp [State.writeNat, ih]
@[simp] theorem State.writeNat_fns (s : State) (a v n : Nat) : (s.writeNat a v n).fns = s.fns := by
  induction n with
  | zero => rfl
  | succ n ih => simp [State.writeNat, ih]
@[simp] theorem State.writeNat_links (s : State) (a v n : Nat) : (s.writeNat a v n).links = s.links := by
  induction n with
  | zero => rfl
  | succ n ih => simp [State.writeNat, ih]
@[simp] theorem State.writeNat_ports (s : State) (a v n : Nat) : (s.writeNat a v n).ports = s.ports := by
  induction n with
  | zero => rfl
  | succ n ih => simp [State.writeNat, ih]
@[simp] theorem State.writeNat_hbms (s : State) (a v n : Nat) : (s.writeNat a v n).hbms = s.hbms := by
  induction n with
  | zero => rfl
  | succ n ih => simp [State.writeNat, ih]
@[simp] theorem State.writeNat_cxlPorts (s : State) (a v n : Nat) : (s.writeNat a v n).cxlPorts = s.cxlPorts := by
  induction n with
  | zero => rfl
  | succ n ih => simp [State.writeNat, ih]
@[simp] theorem State.writeNat_windows (s : State) (a v n : Nat) : (s.writeNat a v n).windows = s.windows := by
  induction n with
  | zero => rfl
  | succ n ih => simp [State.writeNat, ih]
@[simp] theorem State.writeNat_cores (s : State) (a v n : Nat) : (s.writeNat a v n).cores = s.cores := by
  induction n with
  | zero => rfl
  | succ n ih => simp [State.writeNat, ih]
@[simp] theorem State.writeNat_dir (s : State) (a v n : Nat) : (s.writeNat a v n).dir = s.dir := by
  induction n with
  | zero => rfl
  | succ n ih => simp [State.writeNat, ih]
@[simp] theorem State.writeNat_bpm (s : State) (a v n : Nat) : (s.writeNat a v n).bpm = s.bpm := by
  induction n with
  | zero => rfl
  | succ n ih => simp [State.writeNat, ih]
@[simp] theorem State.writeNat_cool (s : State) (a v n : Nat) : (s.writeNat a v n).cool = s.cool := by
  induction n with
  | zero => rfl
  | succ n ih => simp [State.writeNat, ih]
@[simp] theorem State.writeNat_mgt (s : State) (a v n : Nat) : (s.writeNat a v n).mgt = s.mgt := by
  induction n with
  | zero => rfl
  | succ n ih => simp [State.writeNat, ih]
@[simp] theorem State.writeNat_sec (s : State) (a v n : Nat) : (s.writeNat a v n).sec = s.sec := by
  induction n with
  | zero => rfl
  | succ n ih => simp [State.writeNat, ih]
@[simp] theorem State.writeNat_boot (s : State) (a v n : Nat) : (s.writeNat a v n).boot = s.boot := by
  induction n with
  | zero => rfl
  | succ n ih => simp [State.writeNat, ih]
@[simp] theorem State.writeNat_regs (s : State) (a v n : Nat) : (s.writeNat a v n).regs = s.regs := by
  induction n with
  | zero => rfl
  | succ n ih => simp [State.writeNat, ih]
@[simp] theorem State.writeNat_sels (s : State) (a v n : Nat) : (s.writeNat a v n).sels = s.sels := by
  induction n with
  | zero => rfl
  | succ n ih => simp [State.writeNat, ih]
@[simp] theorem State.writeNat_halves (s : State) (a v n : Nat) : (s.writeNat a v n).halves = s.halves := by
  induction n with
  | zero => rfl
  | succ n ih => simp [State.writeNat, ih]
@[simp] theorem State.writeNat_cl (s : State) (a v n : Nat) (j_ : Nat) : (s.writeNat a v n).cl j_ = s.cl j_ := by simp only [State.cl_def, State.writeNat_clusters]
@[simp] theorem State.writeNat_part (s : State) (a v n : Nat) (j_ : Nat) : (s.writeNat a v n).part j_ = s.part j_ := by simp only [State.part_def, State.writeNat_parts]
@[simp] theorem State.writeNat_ctx (s : State) (a v n : Nat) (j_ : Nat) : (s.writeNat a v n).ctx j_ = s.ctx j_ := by simp only [State.ctx_def, State.writeNat_ctxs]
@[simp] theorem State.writeNat_qp (s : State) (a v n : Nat) (j_ : Nat) : (s.writeNat a v n).qp j_ = s.qp j_ := by simp only [State.qp_def, State.writeNat_qps]
@[simp] theorem State.writeNat_fn (s : State) (a v n : Nat) (j_ : Nat) : (s.writeNat a v n).fn j_ = s.fn j_ := by simp only [State.fn_def, State.writeNat_fns]
@[simp] theorem State.writeNat_link (s : State) (a v n : Nat) (j_ : Nat) : (s.writeNat a v n).link j_ = s.link j_ := by simp only [State.link_def, State.writeNat_links]
@[simp] theorem State.writeNat_port (s : State) (a v n : Nat) (j_ : Nat) : (s.writeNat a v n).port j_ = s.port j_ := by simp only [State.port_def, State.writeNat_ports]
@[simp] theorem State.writeNat_region (s : State) (a v n : Nat) (j_ : Nat) : (s.writeNat a v n).region j_ = s.region j_ := by simp only [State.region_def, State.writeNat_regions]
@[simp] theorem State.writeNat_domain (s : State) (a v n : Nat) (j_ : Nat) : (s.writeNat a v n).domain j_ = s.domain j_ := by simp only [State.domain_def, State.writeNat_domains]
@[simp] theorem State.writeNat_xing (s : State) (a v n : Nat) (j_ : Nat) : (s.writeNat a v n).xing j_ = s.xing j_ := by simp only [State.xing_def, State.writeNat_xings]
@[simp] theorem State.writeNat_hbm (s : State) (a v n : Nat) (j_ : Nat) : (s.writeNat a v n).hbm j_ = s.hbm j_ := by simp only [State.hbm_def, State.writeNat_hbms]
@[simp] theorem State.writeNat_cxl (s : State) (a v n : Nat) (j_ : Nat) : (s.writeNat a v n).cxl j_ = s.cxl j_ := by simp only [State.cxl_def, State.writeNat_cxlPorts]
@[simp] theorem State.writeNat_win (s : State) (a v n : Nat) (j_ : Nat) : (s.writeNat a v n).win j_ = s.win j_ := by simp only [State.win_def, State.writeNat_windows]
@[simp] theorem State.writeNat_core (s : State) (a v n : Nat) (j_ : Nat) : (s.writeNat a v n).core j_ = s.core j_ := by simp only [State.core_def, State.writeNat_cores]
@[simp] theorem State.writeNat_dirLine (s : State) (a v n : Nat) (j_ : Nat) : (s.writeNat a v n).dirLine j_ = s.dirLine j_ := by simp only [State.dirLine_def, State.writeNat_dir]
@[simp] theorem State.writeNat_page (s : State) (a v n : Nat) (j_ : Nat) : (s.writeNat a v n).page j_ = s.page j_ := by simp only [State.page_def, State.writeNat_pages]
@[simp] theorem ite_pending (c : Prop) [Decidable c] (x y : State) : (if c then x else y).pending = if c then x.pending else y.pending := apply_ite State.pending c x y
@[simp] theorem ite_out (c : Prop) [Decidable c] (x y : State) : (if c then x else y).out = if c then x.out else y.out := apply_ite State.out c x y
@[simp] theorem ite_fresh (c : Prop) [Decidable c] (x y : State) : (if c then x else y).fresh = if c then x.fresh else y.fresh := apply_ite State.fresh c x y
@[simp] theorem ite_order (c : Prop) [Decidable c] (x y : State) : (if c then x else y).order = if c then x.order else y.order := apply_ite State.order c x y
@[simp] theorem ite_variant36 (c : Prop) [Decidable c] (x y : State) : (if c then x else y).variant36 = if c then x.variant36 else y.variant36 := apply_ite State.variant36 c x y
@[simp] theorem ite_enabled (c : Prop) [Decidable c] (x y : State) : (if c then x else y).enabled = if c then x.enabled else y.enabled := apply_ite State.enabled c x y
@[simp] theorem ite_clusters (c : Prop) [Decidable c] (x y : State) : (if c then x else y).clusters = if c then x.clusters else y.clusters := apply_ite State.clusters c x y
@[simp] theorem ite_tarn (c : Prop) [Decidable c] (x y : State) : (if c then x else y).tarn = if c then x.tarn else y.tarn := apply_ite State.tarn c x y
@[simp] theorem ite_mem (c : Prop) [Decidable c] (x y : State) : (if c then x else y).mem = if c then x.mem else y.mem := apply_ite State.mem c x y
@[simp] theorem ite_poison (c : Prop) [Decidable c] (x y : State) : (if c then x else y).poison = if c then x.poison else y.poison := apply_ite State.poison c x y
@[simp] theorem ite_pages (c : Prop) [Decidable c] (x y : State) : (if c then x else y).pages = if c then x.pages else y.pages := apply_ite State.pages c x y
@[simp] theorem ite_zeroRuns (c : Prop) [Decidable c] (x y : State) : (if c then x else y).zeroRuns = if c then x.zeroRuns else y.zeroRuns := apply_ite State.zeroRuns c x y
@[simp] theorem ite_regions (c : Prop) [Decidable c] (x y : State) : (if c then x else y).regions = if c then x.regions else y.regions := apply_ite State.regions c x y
@[simp] theorem ite_domains (c : Prop) [Decidable c] (x y : State) : (if c then x else y).domains = if c then x.domains else y.domains := apply_ite State.domains c x y
@[simp] theorem ite_xings (c : Prop) [Decidable c] (x y : State) : (if c then x else y).xings = if c then x.xings else y.xings := apply_ite State.xings c x y
@[simp] theorem ite_tb (c : Prop) [Decidable c] (x y : State) : (if c then x else y).tb = if c then x.tb else y.tb := apply_ite State.tb c x y
@[simp] theorem ite_net (c : Prop) [Decidable c] (x y : State) : (if c then x else y).net = if c then x.net else y.net := apply_ite State.net c x y
@[simp] theorem ite_nextPkt (c : Prop) [Decidable c] (x y : State) : (if c then x else y).nextPkt = if c then x.nextPkt else y.nextPkt := apply_ite State.nextPkt c x y
@[simp] theorem ite_routes (c : Prop) [Decidable c] (x y : State) : (if c then x else y).routes = if c then x.routes else y.routes := apply_ite State.routes c x y
@[simp] theorem ite_perimRoutes (c : Prop) [Decidable c] (x y : State) : (if c then x else y).perimRoutes = if c then x.perimRoutes else y.perimRoutes := apply_ite State.perimRoutes c x y
@[simp] theorem ite_fabLinks (c : Prop) [Decidable c] (x y : State) : (if c then x else y).fabLinks = if c then x.fabLinks else y.fabLinks := apply_ite State.fabLinks c x y
@[simp] theorem ite_discards (c : Prop) [Decidable c] (x y : State) : (if c then x else y).discards = if c then x.discards else y.discards := apply_ite State.discards c x y
@[simp] theorem ite_parts (c : Prop) [Decidable c] (x y : State) : (if c then x else y).parts = if c then x.parts else y.parts := apply_ite State.parts c x y
@[simp] theorem ite_ctxs (c : Prop) [Decidable c] (x y : State) : (if c then x else y).ctxs = if c then x.ctxs else y.ctxs := apply_ite State.ctxs c x y
@[simp] theorem ite_qps (c : Prop) [Decidable c] (x y : State) : (if c then x else y).qps = if c then x.qps else y.qps := apply_ite State.qps c x y
@[simp] theorem ite_fns (c : Prop) [Decidable c] (x y : State) : (if c then x else y).fns = if c then x.fns else y.fns := apply_ite State.fns c x y
@[simp] theorem ite_links (c : Prop) [Decidable c] (x y : State) : (if c then x else y).links = if c then x.links else y.links := apply_ite State.links c x y
@[simp] theorem ite_ports (c : Prop) [Decidable c] (x y : State) : (if c then x else y).ports = if c then x.ports else y.ports := apply_ite State.ports c x y
@[simp] theorem ite_hbms (c : Prop) [Decidable c] (x y : State) : (if c then x else y).hbms = if c then x.hbms else y.hbms := apply_ite State.hbms c x y
@[simp] theorem ite_cxlPorts (c : Prop) [Decidable c] (x y : State) : (if c then x else y).cxlPorts = if c then x.cxlPorts else y.cxlPorts := apply_ite State.cxlPorts c x y
@[simp] theorem ite_windows (c : Prop) [Decidable c] (x y : State) : (if c then x else y).windows = if c then x.windows else y.windows := apply_ite State.windows c x y
@[simp] theorem ite_cores (c : Prop) [Decidable c] (x y : State) : (if c then x else y).cores = if c then x.cores else y.cores := apply_ite State.cores c x y
@[simp] theorem ite_dir (c : Prop) [Decidable c] (x y : State) : (if c then x else y).dir = if c then x.dir else y.dir := apply_ite State.dir c x y
@[simp] theorem ite_bpm (c : Prop) [Decidable c] (x y : State) : (if c then x else y).bpm = if c then x.bpm else y.bpm := apply_ite State.bpm c x y
@[simp] theorem ite_cool (c : Prop) [Decidable c] (x y : State) : (if c then x else y).cool = if c then x.cool else y.cool := apply_ite State.cool c x y
@[simp] theorem ite_mgt (c : Prop) [Decidable c] (x y : State) : (if c then x else y).mgt = if c then x.mgt else y.mgt := apply_ite State.mgt c x y
@[simp] theorem ite_sec (c : Prop) [Decidable c] (x y : State) : (if c then x else y).sec = if c then x.sec else y.sec := apply_ite State.sec c x y
@[simp] theorem ite_boot (c : Prop) [Decidable c] (x y : State) : (if c then x else y).boot = if c then x.boot else y.boot := apply_ite State.boot c x y
@[simp] theorem ite_regs (c : Prop) [Decidable c] (x y : State) : (if c then x else y).regs = if c then x.regs else y.regs := apply_ite State.regs c x y
@[simp] theorem ite_sels (c : Prop) [Decidable c] (x y : State) : (if c then x else y).sels = if c then x.sels else y.sels := apply_ite State.sels c x y
@[simp] theorem ite_halves (c : Prop) [Decidable c] (x y : State) : (if c then x else y).halves = if c then x.halves else y.halves := apply_ite State.halves c x y
theorem State.sendIrq_frame (s : State) (o : Output) :
    (State.sendIrq s o).pending = s.pending ∧ (State.sendIrq s o).fresh = s.fresh ∧ (State.sendIrq s o).order = s.order ∧ (State.sendIrq s o).variant36 = s.variant36 ∧ (State.sendIrq s o).enabled = s.enabled ∧ (State.sendIrq s o).clusters = s.clusters ∧ (State.sendIrq s o).tarn = s.tarn ∧ (State.sendIrq s o).mem = s.mem ∧ (State.sendIrq s o).poison = s.poison ∧ (State.sendIrq s o).pages = s.pages ∧ (State.sendIrq s o).zeroRuns = s.zeroRuns ∧ (State.sendIrq s o).regions = s.regions ∧ (State.sendIrq s o).domains = s.domains ∧ (State.sendIrq s o).xings = s.xings ∧ (State.sendIrq s o).tb = s.tb ∧ (State.sendIrq s o).net = s.net ∧ (State.sendIrq s o).nextPkt = s.nextPkt ∧ (State.sendIrq s o).routes = s.routes ∧ (State.sendIrq s o).perimRoutes = s.perimRoutes ∧ (State.sendIrq s o).fabLinks = s.fabLinks ∧ (State.sendIrq s o).discards = s.discards ∧ (State.sendIrq s o).parts = s.parts ∧ (State.sendIrq s o).ctxs = s.ctxs ∧ (State.sendIrq s o).qps = s.qps ∧ (State.sendIrq s o).fns = s.fns ∧ (State.sendIrq s o).links = s.links ∧ (State.sendIrq s o).ports = s.ports ∧ (State.sendIrq s o).hbms = s.hbms ∧ (State.sendIrq s o).cxlPorts = s.cxlPorts ∧ (State.sendIrq s o).windows = s.windows ∧ (State.sendIrq s o).dir = s.dir ∧ (State.sendIrq s o).bpm = s.bpm ∧ (State.sendIrq s o).cool = s.cool ∧ (State.sendIrq s o).mgt = s.mgt ∧ (State.sendIrq s o).sec = s.sec ∧ (State.sendIrq s o).boot = s.boot ∧ (State.sendIrq s o).regs = s.regs ∧ (State.sendIrq s o).sels = s.sels ∧ (State.sendIrq s o).halves = s.halves := by
  generalize h_ : State.sendIrq s o = t_
  unfold State.sendIrq at h_
  (try dsimp only at h_)
  (repeat' split at h_) <;> subst h_ <;> simp
@[simp] theorem State.sendIrq_pending (s : State) (o : Output) : (State.sendIrq s o).pending = s.pending := (State.sendIrq_frame s o).1
@[simp] theorem State.sendIrq_fresh (s : State) (o : Output) : (State.sendIrq s o).fresh = s.fresh := (State.sendIrq_frame s o).2.1
@[simp] theorem State.sendIrq_order (s : State) (o : Output) : (State.sendIrq s o).order = s.order := (State.sendIrq_frame s o).2.2.1
@[simp] theorem State.sendIrq_variant36 (s : State) (o : Output) : (State.sendIrq s o).variant36 = s.variant36 := (State.sendIrq_frame s o).2.2.2.1
@[simp] theorem State.sendIrq_enabled (s : State) (o : Output) : (State.sendIrq s o).enabled = s.enabled := (State.sendIrq_frame s o).2.2.2.2.1
@[simp] theorem State.sendIrq_clusters (s : State) (o : Output) : (State.sendIrq s o).clusters = s.clusters := (State.sendIrq_frame s o).2.2.2.2.2.1
@[simp] theorem State.sendIrq_tarn (s : State) (o : Output) : (State.sendIrq s o).tarn = s.tarn := (State.sendIrq_frame s o).2.2.2.2.2.2.1
@[simp] theorem State.sendIrq_mem (s : State) (o : Output) : (State.sendIrq s o).mem = s.mem := (State.sendIrq_frame s o).2.2.2.2.2.2.2.1
@[simp] theorem State.sendIrq_poison (s : State) (o : Output) : (State.sendIrq s o).poison = s.poison := (State.sendIrq_frame s o).2.2.2.2.2.2.2.2.1
@[simp] theorem State.sendIrq_pages (s : State) (o : Output) : (State.sendIrq s o).pages = s.pages := (State.sendIrq_frame s o).2.2.2.2.2.2.2.2.2.1
@[simp] theorem State.sendIrq_zeroRuns (s : State) (o : Output) : (State.sendIrq s o).zeroRuns = s.zeroRuns := (State.sendIrq_frame s o).2.2.2.2.2.2.2.2.2.2.1
@[simp] theorem State.sendIrq_regions (s : State) (o : Output) : (State.sendIrq s o).regions = s.regions := (State.sendIrq_frame s o).2.2.2.2.2.2.2.2.2.2.2.1
@[simp] theorem State.sendIrq_domains (s : State) (o : Output) : (State.sendIrq s o).domains = s.domains := (State.sendIrq_frame s o).2.2.2.2.2.2.2.2.2.2.2.2.1
@[simp] theorem State.sendIrq_xings (s : State) (o : Output) : (State.sendIrq s o).xings = s.xings := (State.sendIrq_frame s o).2.2.2.2.2.2.2.2.2.2.2.2.2.1
@[simp] theorem State.sendIrq_tb (s : State) (o : Output) : (State.sendIrq s o).tb = s.tb := (State.sendIrq_frame s o).2.2.2.2.2.2.2.2.2.2.2.2.2.2.1
@[simp] theorem State.sendIrq_net (s : State) (o : Output) : (State.sendIrq s o).net = s.net := (State.sendIrq_frame s o).2.2.2.2.2.2.2.2.2.2.2.2.2.2.2.1
@[simp] theorem State.sendIrq_nextPkt (s : State) (o : Output) : (State.sendIrq s o).nextPkt = s.nextPkt := (State.sendIrq_frame s o).2.2.2.2.2.2.2.2.2.2.2.2.2.2.2.2.1
@[simp] theorem State.sendIrq_routes (s : State) (o : Output) : (State.sendIrq s o).routes = s.routes := (State.sendIrq_frame s o).2.2.2.2.2.2.2.2.2.2.2.2.2.2.2.2.2.1
@[simp] theorem State.sendIrq_perimRoutes (s : State) (o : Output) : (State.sendIrq s o).perimRoutes = s.perimRoutes := (State.sendIrq_frame s o).2.2.2.2.2.2.2.2.2.2.2.2.2.2.2.2.2.2.1
@[simp] theorem State.sendIrq_fabLinks (s : State) (o : Output) : (State.sendIrq s o).fabLinks = s.fabLinks := (State.sendIrq_frame s o).2.2.2.2.2.2.2.2.2.2.2.2.2.2.2.2.2.2.2.1
@[simp] theorem State.sendIrq_discards (s : State) (o : Output) : (State.sendIrq s o).discards = s.discards := (State.sendIrq_frame s o).2.2.2.2.2.2.2.2.2.2.2.2.2.2.2.2.2.2.2.2.1
@[simp] theorem State.sendIrq_parts (s : State) (o : Output) : (State.sendIrq s o).parts = s.parts := (State.sendIrq_frame s o).2.2.2.2.2.2.2.2.2.2.2.2.2.2.2.2.2.2.2.2.2.1
@[simp] theorem State.sendIrq_ctxs (s : State) (o : Output) : (State.sendIrq s o).ctxs = s.ctxs := (State.sendIrq_frame s o).2.2.2.2.2.2.2.2.2.2.2.2.2.2.2.2.2.2.2.2.2.2.1
@[simp] theorem State.sendIrq_qps (s : State) (o : Output) : (State.sendIrq s o).qps = s.qps := (State.sendIrq_frame s o).2.2.2.2.2.2.2.2.2.2.2.2.2.2.2.2.2.2.2.2.2.2.2.1
@[simp] theorem State.sendIrq_fns (s : State) (o : Output) : (State.sendIrq s o).fns = s.fns := (State.sendIrq_frame s o).2.2.2.2.2.2.2.2.2.2.2.2.2.2.2.2.2.2.2.2.2.2.2.2.1
@[simp] theorem State.sendIrq_links (s : State) (o : Output) : (State.sendIrq s o).links = s.links := (State.sendIrq_frame s o).2.2.2.2.2.2.2.2.2.2.2.2.2.2.2.2.2.2.2.2.2.2.2.2.2.1
@[simp] theorem State.sendIrq_ports (s : State) (o : Output) : (State.sendIrq s o).ports = s.ports := (State.sendIrq_frame s o).2.2.2.2.2.2.2.2.2.2.2.2.2.2.2.2.2.2.2.2.2.2.2.2.2.2.1
@[simp] theorem State.sendIrq_hbms (s : State) (o : Output) : (State.sendIrq s o).hbms = s.hbms := (State.sendIrq_frame s o).2.2.2.2.2.2.2.2.2.2.2.2.2.2.2.2.2.2.2.2.2.2.2.2.2.2.2.1
@[simp] theorem State.sendIrq_cxlPorts (s : State) (o : Output) : (State.sendIrq s o).cxlPorts = s.cxlPorts := (State.sendIrq_frame s o).2.2.2.2.2.2.2.2.2.2.2.2.2.2.2.2.2.2.2.2.2.2.2.2.2.2.2.2.1
@[simp] theorem State.sendIrq_windows (s : State) (o : Output) : (State.sendIrq s o).windows = s.windows := (State.sendIrq_frame s o).2.2.2.2.2.2.2.2.2.2.2.2.2.2.2.2.2.2.2.2.2.2.2.2.2.2.2.2.2.1
@[simp] theorem State.sendIrq_dir (s : State) (o : Output) : (State.sendIrq s o).dir = s.dir := (State.sendIrq_frame s o).2.2.2.2.2.2.2.2.2.2.2.2.2.2.2.2.2.2.2.2.2.2.2.2.2.2.2.2.2.2.1
@[simp] theorem State.sendIrq_bpm (s : State) (o : Output) : (State.sendIrq s o).bpm = s.bpm := (State.sendIrq_frame s o).2.2.2.2.2.2.2.2.2.2.2.2.2.2.2.2.2.2.2.2.2.2.2.2.2.2.2.2.2.2.2.1
@[simp] theorem State.sendIrq_cool (s : State) (o : Output) : (State.sendIrq s o).cool = s.cool := (State.sendIrq_frame s o).2.2.2.2.2.2.2.2.2.2.2.2.2.2.2.2.2.2.2.2.2.2.2.2.2.2.2.2.2.2.2.2.1
@[simp] theorem State.sendIrq_mgt (s : State) (o : Output) : (State.sendIrq s o).mgt = s.mgt := (State.sendIrq_frame s o).2.2.2.2.2.2.2.2.2.2.2.2.2.2.2.2.2.2.2.2.2.2.2.2.2.2.2.2.2.2.2.2.2.1
@[simp] theorem State.sendIrq_sec (s : State) (o : Output) : (State.sendIrq s o).sec = s.sec := (State.sendIrq_frame s o).2.2.2.2.2.2.2.2.2.2.2.2.2.2.2.2.2.2.2.2.2.2.2.2.2.2.2.2.2.2.2.2.2.2.1
@[simp] theorem State.sendIrq_boot (s : State) (o : Output) : (State.sendIrq s o).boot = s.boot := (State.sendIrq_frame s o).2.2.2.2.2.2.2.2.2.2.2.2.2.2.2.2.2.2.2.2.2.2.2.2.2.2.2.2.2.2.2.2.2.2.2.1
@[simp] theorem State.sendIrq_regs (s : State) (o : Output) : (State.sendIrq s o).regs = s.regs := (State.sendIrq_frame s o).2.2.2.2.2.2.2.2.2.2.2.2.2.2.2.2.2.2.2.2.2.2.2.2.2.2.2.2.2.2.2.2.2.2.2.2.1
@[simp] theorem State.sendIrq_sels (s : State) (o : Output) : (State.sendIrq s o).sels = s.sels := (State.sendIrq_frame s o).2.2.2.2.2.2.2.2.2.2.2.2.2.2.2.2.2.2.2.2.2.2.2.2.2.2.2.2.2.2.2.2.2.2.2.2.2.1
@[simp] theorem State.sendIrq_halves (s : State) (o : Output) : (State.sendIrq s o).halves = s.halves := (State.sendIrq_frame s o).2.2.2.2.2.2.2.2.2.2.2.2.2.2.2.2.2.2.2.2.2.2.2.2.2.2.2.2.2.2.2.2.2.2.2.2.2.2
@[simp] theorem State.sendIrq_cl (s : State) (o : Output) (j_ : Nat) : (State.sendIrq s o).cl j_ = s.cl j_ := by simp only [State.cl_def, State.sendIrq_clusters]
@[simp] theorem State.sendIrq_part (s : State) (o : Output) (j_ : Nat) : (State.sendIrq s o).part j_ = s.part j_ := by simp only [State.part_def, State.sendIrq_parts]
@[simp] theorem State.sendIrq_ctx (s : State) (o : Output) (j_ : Nat) : (State.sendIrq s o).ctx j_ = s.ctx j_ := by simp only [State.ctx_def, State.sendIrq_ctxs]
@[simp] theorem State.sendIrq_qp (s : State) (o : Output) (j_ : Nat) : (State.sendIrq s o).qp j_ = s.qp j_ := by simp only [State.qp_def, State.sendIrq_qps]
@[simp] theorem State.sendIrq_fn (s : State) (o : Output) (j_ : Nat) : (State.sendIrq s o).fn j_ = s.fn j_ := by simp only [State.fn_def, State.sendIrq_fns]
@[simp] theorem State.sendIrq_link (s : State) (o : Output) (j_ : Nat) : (State.sendIrq s o).link j_ = s.link j_ := by simp only [State.link_def, State.sendIrq_links]
@[simp] theorem State.sendIrq_port (s : State) (o : Output) (j_ : Nat) : (State.sendIrq s o).port j_ = s.port j_ := by simp only [State.port_def, State.sendIrq_ports]
@[simp] theorem State.sendIrq_region (s : State) (o : Output) (j_ : Nat) : (State.sendIrq s o).region j_ = s.region j_ := by simp only [State.region_def, State.sendIrq_regions]
@[simp] theorem State.sendIrq_domain (s : State) (o : Output) (j_ : Nat) : (State.sendIrq s o).domain j_ = s.domain j_ := by simp only [State.domain_def, State.sendIrq_domains]
@[simp] theorem State.sendIrq_xing (s : State) (o : Output) (j_ : Nat) : (State.sendIrq s o).xing j_ = s.xing j_ := by simp only [State.xing_def, State.sendIrq_xings]
@[simp] theorem State.sendIrq_hbm (s : State) (o : Output) (j_ : Nat) : (State.sendIrq s o).hbm j_ = s.hbm j_ := by simp only [State.hbm_def, State.sendIrq_hbms]
@[simp] theorem State.sendIrq_cxl (s : State) (o : Output) (j_ : Nat) : (State.sendIrq s o).cxl j_ = s.cxl j_ := by simp only [State.cxl_def, State.sendIrq_cxlPorts]
@[simp] theorem State.sendIrq_win (s : State) (o : Output) (j_ : Nat) : (State.sendIrq s o).win j_ = s.win j_ := by simp only [State.win_def, State.sendIrq_windows]
@[simp] theorem State.sendIrq_dirLine (s : State) (o : Output) (j_ : Nat) : (State.sendIrq s o).dirLine j_ = s.dirLine j_ := by simp only [State.dirLine_def, State.sendIrq_dir]
@[simp] theorem State.sendIrq_page (s : State) (o : Output) (j_ : Nat) : (State.sendIrq s o).page j_ = s.page j_ := by simp only [State.page_def, State.sendIrq_pages]
@[simp] theorem State.sendIrq_trow (s : State) (o : Output) (c_ n_ : Nat) : (State.sendIrq s o).trow c_ n_ = s.trow c_ n_ := by simp only [State.trow_def, State.sendIrq_tarn]
@[simp] theorem State.sendIrq_rawByte (s : State) (o : Output) (a_ : Nat) : (State.sendIrq s o).rawByte a_ = s.rawByte a_ := by simp only [State.rawByte_def, State.sendIrq_mem]
@[simp] theorem State.sendIrq_now (s : State) (o : Output) : (State.sendIrq s o).now = s.now := by simp only [State.now_def, State.sendIrq_tb]
theorem State.zeroBytes_frame (s : State) (a n : Nat) :
    (State.zeroBytes s a n).pending = s.pending ∧ (State.zeroBytes s a n).out = s.out ∧ (State.zeroBytes s a n).fresh = s.fresh ∧ (State.zeroBytes s a n).order = s.order ∧ (State.zeroBytes s a n).variant36 = s.variant36 ∧ (State.zeroBytes s a n).enabled = s.enabled ∧ (State.zeroBytes s a n).clusters = s.clusters ∧ (State.zeroBytes s a n).tarn = s.tarn ∧ (State.zeroBytes s a n).poison = s.poison ∧ (State.zeroBytes s a n).pages = s.pages ∧ (State.zeroBytes s a n).zeroRuns = s.zeroRuns ∧ (State.zeroBytes s a n).regions = s.regions ∧ (State.zeroBytes s a n).domains = s.domains ∧ (State.zeroBytes s a n).xings = s.xings ∧ (State.zeroBytes s a n).tb = s.tb ∧ (State.zeroBytes s a n).net = s.net ∧ (State.zeroBytes s a n).nextPkt = s.nextPkt ∧ (State.zeroBytes s a n).routes = s.routes ∧ (State.zeroBytes s a n).perimRoutes = s.perimRoutes ∧ (State.zeroBytes s a n).fabLinks = s.fabLinks ∧ (State.zeroBytes s a n).discards = s.discards ∧ (State.zeroBytes s a n).parts = s.parts ∧ (State.zeroBytes s a n).ctxs = s.ctxs ∧ (State.zeroBytes s a n).qps = s.qps ∧ (State.zeroBytes s a n).fns = s.fns ∧ (State.zeroBytes s a n).links = s.links ∧ (State.zeroBytes s a n).ports = s.ports ∧ (State.zeroBytes s a n).hbms = s.hbms ∧ (State.zeroBytes s a n).cxlPorts = s.cxlPorts ∧ (State.zeroBytes s a n).windows = s.windows ∧ (State.zeroBytes s a n).cores = s.cores ∧ (State.zeroBytes s a n).dir = s.dir ∧ (State.zeroBytes s a n).bpm = s.bpm ∧ (State.zeroBytes s a n).cool = s.cool ∧ (State.zeroBytes s a n).mgt = s.mgt ∧ (State.zeroBytes s a n).sec = s.sec ∧ (State.zeroBytes s a n).boot = s.boot ∧ (State.zeroBytes s a n).regs = s.regs ∧ (State.zeroBytes s a n).sels = s.sels ∧ (State.zeroBytes s a n).halves = s.halves := by
  generalize h_ : State.zeroBytes s a n = t_
  unfold State.zeroBytes at h_
  (try dsimp only at h_)
  (repeat' split at h_) <;> subst h_ <;> simp
@[simp] theorem State.zeroBytes_pending (s : State) (a n : Nat) : (State.zeroBytes s a n).pending = s.pending := (State.zeroBytes_frame s a n).1
@[simp] theorem State.zeroBytes_out (s : State) (a n : Nat) : (State.zeroBytes s a n).out = s.out := (State.zeroBytes_frame s a n).2.1
@[simp] theorem State.zeroBytes_fresh (s : State) (a n : Nat) : (State.zeroBytes s a n).fresh = s.fresh := (State.zeroBytes_frame s a n).2.2.1
@[simp] theorem State.zeroBytes_order (s : State) (a n : Nat) : (State.zeroBytes s a n).order = s.order := (State.zeroBytes_frame s a n).2.2.2.1
@[simp] theorem State.zeroBytes_variant36 (s : State) (a n : Nat) : (State.zeroBytes s a n).variant36 = s.variant36 := (State.zeroBytes_frame s a n).2.2.2.2.1
@[simp] theorem State.zeroBytes_enabled (s : State) (a n : Nat) : (State.zeroBytes s a n).enabled = s.enabled := (State.zeroBytes_frame s a n).2.2.2.2.2.1
@[simp] theorem State.zeroBytes_clusters (s : State) (a n : Nat) : (State.zeroBytes s a n).clusters = s.clusters := (State.zeroBytes_frame s a n).2.2.2.2.2.2.1
@[simp] theorem State.zeroBytes_tarn (s : State) (a n : Nat) : (State.zeroBytes s a n).tarn = s.tarn := (State.zeroBytes_frame s a n).2.2.2.2.2.2.2.1
@[simp] theorem State.zeroBytes_poison (s : State) (a n : Nat) : (State.zeroBytes s a n).poison = s.poison := (State.zeroBytes_frame s a n).2.2.2.2.2.2.2.2.1
@[simp] theorem State.zeroBytes_pages (s : State) (a n : Nat) : (State.zeroBytes s a n).pages = s.pages := (State.zeroBytes_frame s a n).2.2.2.2.2.2.2.2.2.1
@[simp] theorem State.zeroBytes_zeroRuns (s : State) (a n : Nat) : (State.zeroBytes s a n).zeroRuns = s.zeroRuns := (State.zeroBytes_frame s a n).2.2.2.2.2.2.2.2.2.2.1
@[simp] theorem State.zeroBytes_regions (s : State) (a n : Nat) : (State.zeroBytes s a n).regions = s.regions := (State.zeroBytes_frame s a n).2.2.2.2.2.2.2.2.2.2.2.1
@[simp] theorem State.zeroBytes_domains (s : State) (a n : Nat) : (State.zeroBytes s a n).domains = s.domains := (State.zeroBytes_frame s a n).2.2.2.2.2.2.2.2.2.2.2.2.1
@[simp] theorem State.zeroBytes_xings (s : State) (a n : Nat) : (State.zeroBytes s a n).xings = s.xings := (State.zeroBytes_frame s a n).2.2.2.2.2.2.2.2.2.2.2.2.2.1
@[simp] theorem State.zeroBytes_tb (s : State) (a n : Nat) : (State.zeroBytes s a n).tb = s.tb := (State.zeroBytes_frame s a n).2.2.2.2.2.2.2.2.2.2.2.2.2.2.1
@[simp] theorem State.zeroBytes_net (s : State) (a n : Nat) : (State.zeroBytes s a n).net = s.net := (State.zeroBytes_frame s a n).2.2.2.2.2.2.2.2.2.2.2.2.2.2.2.1
@[simp] theorem State.zeroBytes_nextPkt (s : State) (a n : Nat) : (State.zeroBytes s a n).nextPkt = s.nextPkt := (State.zeroBytes_frame s a n).2.2.2.2.2.2.2.2.2.2.2.2.2.2.2.2.1
@[simp] theorem State.zeroBytes_routes (s : State) (a n : Nat) : (State.zeroBytes s a n).routes = s.routes := (State.zeroBytes_frame s a n).2.2.2.2.2.2.2.2.2.2.2.2.2.2.2.2.2.1
@[simp] theorem State.zeroBytes_perimRoutes (s : State) (a n : Nat) : (State.zeroBytes s a n).perimRoutes = s.perimRoutes := (State.zeroBytes_frame s a n).2.2.2.2.2.2.2.2.2.2.2.2.2.2.2.2.2.2.1
@[simp] theorem State.zeroBytes_fabLinks (s : State) (a n : Nat) : (State.zeroBytes s a n).fabLinks = s.fabLinks := (State.zeroBytes_frame s a n).2.2.2.2.2.2.2.2.2.2.2.2.2.2.2.2.2.2.2.1
@[simp] theorem State.zeroBytes_discards (s : State) (a n : Nat) : (State.zeroBytes s a n).discards = s.discards := (State.zeroBytes_frame s a n).2.2.2.2.2.2.2.2.2.2.2.2.2.2.2.2.2.2.2.2.1
@[simp] theorem State.zeroBytes_parts (s : State) (a n : Nat) : (State.zeroBytes s a n).parts = s.parts := (State.zeroBytes_frame s a n).2.2.2.2.2.2.2.2.2.2.2.2.2.2.2.2.2.2.2.2.2.1
@[simp] theorem State.zeroBytes_ctxs (s : State) (a n : Nat) : (State.zeroBytes s a n).ctxs = s.ctxs := (State.zeroBytes_frame s a n).2.2.2.2.2.2.2.2.2.2.2.2.2.2.2.2.2.2.2.2.2.2.1
@[simp] theorem State.zeroBytes_qps (s : State) (a n : Nat) : (State.zeroBytes s a n).qps = s.qps := (State.zeroBytes_frame s a n).2.2.2.2.2.2.2.2.2.2.2.2.2.2.2.2.2.2.2.2.2.2.2.1
@[simp] theorem State.zeroBytes_fns (s : State) (a n : Nat) : (State.zeroBytes s a n).fns = s.fns := (State.zeroBytes_frame s a n).2.2.2.2.2.2.2.2.2.2.2.2.2.2.2.2.2.2.2.2.2.2.2.2.1
@[simp] theorem State.zeroBytes_links (s : State) (a n : Nat) : (State.zeroBytes s a n).links = s.links := (State.zeroBytes_frame s a n).2.2.2.2.2.2.2.2.2.2.2.2.2.2.2.2.2.2.2.2.2.2.2.2.2.1
@[simp] theorem State.zeroBytes_ports (s : State) (a n : Nat) : (State.zeroBytes s a n).ports = s.ports := (State.zeroBytes_frame s a n).2.2.2.2.2.2.2.2.2.2.2.2.2.2.2.2.2.2.2.2.2.2.2.2.2.2.1
@[simp] theorem State.zeroBytes_hbms (s : State) (a n : Nat) : (State.zeroBytes s a n).hbms = s.hbms := (State.zeroBytes_frame s a n).2.2.2.2.2.2.2.2.2.2.2.2.2.2.2.2.2.2.2.2.2.2.2.2.2.2.2.1
@[simp] theorem State.zeroBytes_cxlPorts (s : State) (a n : Nat) : (State.zeroBytes s a n).cxlPorts = s.cxlPorts := (State.zeroBytes_frame s a n).2.2.2.2.2.2.2.2.2.2.2.2.2.2.2.2.2.2.2.2.2.2.2.2.2.2.2.2.1
@[simp] theorem State.zeroBytes_windows (s : State) (a n : Nat) : (State.zeroBytes s a n).windows = s.windows := (State.zeroBytes_frame s a n).2.2.2.2.2.2.2.2.2.2.2.2.2.2.2.2.2.2.2.2.2.2.2.2.2.2.2.2.2.1
@[simp] theorem State.zeroBytes_cores (s : State) (a n : Nat) : (State.zeroBytes s a n).cores = s.cores := (State.zeroBytes_frame s a n).2.2.2.2.2.2.2.2.2.2.2.2.2.2.2.2.2.2.2.2.2.2.2.2.2.2.2.2.2.2.1
@[simp] theorem State.zeroBytes_dir (s : State) (a n : Nat) : (State.zeroBytes s a n).dir = s.dir := (State.zeroBytes_frame s a n).2.2.2.2.2.2.2.2.2.2.2.2.2.2.2.2.2.2.2.2.2.2.2.2.2.2.2.2.2.2.2.1
@[simp] theorem State.zeroBytes_bpm (s : State) (a n : Nat) : (State.zeroBytes s a n).bpm = s.bpm := (State.zeroBytes_frame s a n).2.2.2.2.2.2.2.2.2.2.2.2.2.2.2.2.2.2.2.2.2.2.2.2.2.2.2.2.2.2.2.2.1
@[simp] theorem State.zeroBytes_cool (s : State) (a n : Nat) : (State.zeroBytes s a n).cool = s.cool := (State.zeroBytes_frame s a n).2.2.2.2.2.2.2.2.2.2.2.2.2.2.2.2.2.2.2.2.2.2.2.2.2.2.2.2.2.2.2.2.2.1
@[simp] theorem State.zeroBytes_mgt (s : State) (a n : Nat) : (State.zeroBytes s a n).mgt = s.mgt := (State.zeroBytes_frame s a n).2.2.2.2.2.2.2.2.2.2.2.2.2.2.2.2.2.2.2.2.2.2.2.2.2.2.2.2.2.2.2.2.2.2.1
@[simp] theorem State.zeroBytes_sec (s : State) (a n : Nat) : (State.zeroBytes s a n).sec = s.sec := (State.zeroBytes_frame s a n).2.2.2.2.2.2.2.2.2.2.2.2.2.2.2.2.2.2.2.2.2.2.2.2.2.2.2.2.2.2.2.2.2.2.2.1
@[simp] theorem State.zeroBytes_boot (s : State) (a n : Nat) : (State.zeroBytes s a n).boot = s.boot := (State.zeroBytes_frame s a n).2.2.2.2.2.2.2.2.2.2.2.2.2.2.2.2.2.2.2.2.2.2.2.2.2.2.2.2.2.2.2.2.2.2.2.2.1
@[simp] theorem State.zeroBytes_regs (s : State) (a n : Nat) : (State.zeroBytes s a n).regs = s.regs := (State.zeroBytes_frame s a n).2.2.2.2.2.2.2.2.2.2.2.2.2.2.2.2.2.2.2.2.2.2.2.2.2.2.2.2.2.2.2.2.2.2.2.2.2.1
@[simp] theorem State.zeroBytes_sels (s : State) (a n : Nat) : (State.zeroBytes s a n).sels = s.sels := (State.zeroBytes_frame s a n).2.2.2.2.2.2.2.2.2.2.2.2.2.2.2.2.2.2.2.2.2.2.2.2.2.2.2.2.2.2.2.2.2.2.2.2.2.2.1
@[simp] theorem State.zeroBytes_halves (s : State) (a n : Nat) : (State.zeroBytes s a n).halves = s.halves := (State.zeroBytes_frame s a n).2.2.2.2.2.2.2.2.2.2.2.2.2.2.2.2.2.2.2.2.2.2.2.2.2.2.2.2.2.2.2.2.2.2.2.2.2.2.2
@[simp] theorem State.zeroBytes_cl (s : State) (a n : Nat) (j_ : Nat) : (State.zeroBytes s a n).cl j_ = s.cl j_ := by simp only [State.cl_def, State.zeroBytes_clusters]
@[simp] theorem State.zeroBytes_part (s : State) (a n : Nat) (j_ : Nat) : (State.zeroBytes s a n).part j_ = s.part j_ := by simp only [State.part_def, State.zeroBytes_parts]
@[simp] theorem State.zeroBytes_ctx (s : State) (a n : Nat) (j_ : Nat) : (State.zeroBytes s a n).ctx j_ = s.ctx j_ := by simp only [State.ctx_def, State.zeroBytes_ctxs]
@[simp] theorem State.zeroBytes_qp (s : State) (a n : Nat) (j_ : Nat) : (State.zeroBytes s a n).qp j_ = s.qp j_ := by simp only [State.qp_def, State.zeroBytes_qps]
@[simp] theorem State.zeroBytes_fn (s : State) (a n : Nat) (j_ : Nat) : (State.zeroBytes s a n).fn j_ = s.fn j_ := by simp only [State.fn_def, State.zeroBytes_fns]
@[simp] theorem State.zeroBytes_link (s : State) (a n : Nat) (j_ : Nat) : (State.zeroBytes s a n).link j_ = s.link j_ := by simp only [State.link_def, State.zeroBytes_links]
@[simp] theorem State.zeroBytes_port (s : State) (a n : Nat) (j_ : Nat) : (State.zeroBytes s a n).port j_ = s.port j_ := by simp only [State.port_def, State.zeroBytes_ports]
@[simp] theorem State.zeroBytes_region (s : State) (a n : Nat) (j_ : Nat) : (State.zeroBytes s a n).region j_ = s.region j_ := by simp only [State.region_def, State.zeroBytes_regions]
@[simp] theorem State.zeroBytes_domain (s : State) (a n : Nat) (j_ : Nat) : (State.zeroBytes s a n).domain j_ = s.domain j_ := by simp only [State.domain_def, State.zeroBytes_domains]
@[simp] theorem State.zeroBytes_xing (s : State) (a n : Nat) (j_ : Nat) : (State.zeroBytes s a n).xing j_ = s.xing j_ := by simp only [State.xing_def, State.zeroBytes_xings]
@[simp] theorem State.zeroBytes_hbm (s : State) (a n : Nat) (j_ : Nat) : (State.zeroBytes s a n).hbm j_ = s.hbm j_ := by simp only [State.hbm_def, State.zeroBytes_hbms]
@[simp] theorem State.zeroBytes_cxl (s : State) (a n : Nat) (j_ : Nat) : (State.zeroBytes s a n).cxl j_ = s.cxl j_ := by simp only [State.cxl_def, State.zeroBytes_cxlPorts]
@[simp] theorem State.zeroBytes_win (s : State) (a n : Nat) (j_ : Nat) : (State.zeroBytes s a n).win j_ = s.win j_ := by simp only [State.win_def, State.zeroBytes_windows]
@[simp] theorem State.zeroBytes_core (s : State) (a n : Nat) (j_ : Nat) : (State.zeroBytes s a n).core j_ = s.core j_ := by simp only [State.core_def, State.zeroBytes_cores]
@[simp] theorem State.zeroBytes_dirLine (s : State) (a n : Nat) (j_ : Nat) : (State.zeroBytes s a n).dirLine j_ = s.dirLine j_ := by simp only [State.dirLine_def, State.zeroBytes_dir]
@[simp] theorem State.zeroBytes_page (s : State) (a n : Nat) (j_ : Nat) : (State.zeroBytes s a n).page j_ = s.page j_ := by simp only [State.page_def, State.zeroBytes_pages]
@[simp] theorem State.zeroBytes_trow (s : State) (a n : Nat) (c_ n_ : Nat) : (State.zeroBytes s a n).trow c_ n_ = s.trow c_ n_ := by simp only [State.trow_def, State.zeroBytes_tarn]
@[simp] theorem State.zeroBytes_now (s : State) (a n : Nat) : (State.zeroBytes s a n).now = s.now := by simp only [State.now_def, State.zeroBytes_tb]
theorem State.healSectors_frame (s : State) (a n : Nat) :
    (State.healSectors s a n).pending = s.pending ∧ (State.healSectors s a n).out = s.out ∧ (State.healSectors s a n).fresh = s.fresh ∧ (State.healSectors s a n).order = s.order ∧ (State.healSectors s a n).variant36 = s.variant36 ∧ (State.healSectors s a n).enabled = s.enabled ∧ (State.healSectors s a n).clusters = s.clusters ∧ (State.healSectors s a n).tarn = s.tarn ∧ (State.healSectors s a n).mem = s.mem ∧ (State.healSectors s a n).pages = s.pages ∧ (State.healSectors s a n).zeroRuns = s.zeroRuns ∧ (State.healSectors s a n).regions = s.regions ∧ (State.healSectors s a n).domains = s.domains ∧ (State.healSectors s a n).xings = s.xings ∧ (State.healSectors s a n).tb = s.tb ∧ (State.healSectors s a n).net = s.net ∧ (State.healSectors s a n).nextPkt = s.nextPkt ∧ (State.healSectors s a n).routes = s.routes ∧ (State.healSectors s a n).perimRoutes = s.perimRoutes ∧ (State.healSectors s a n).fabLinks = s.fabLinks ∧ (State.healSectors s a n).discards = s.discards ∧ (State.healSectors s a n).parts = s.parts ∧ (State.healSectors s a n).ctxs = s.ctxs ∧ (State.healSectors s a n).qps = s.qps ∧ (State.healSectors s a n).fns = s.fns ∧ (State.healSectors s a n).links = s.links ∧ (State.healSectors s a n).ports = s.ports ∧ (State.healSectors s a n).hbms = s.hbms ∧ (State.healSectors s a n).cxlPorts = s.cxlPorts ∧ (State.healSectors s a n).windows = s.windows ∧ (State.healSectors s a n).cores = s.cores ∧ (State.healSectors s a n).dir = s.dir ∧ (State.healSectors s a n).bpm = s.bpm ∧ (State.healSectors s a n).cool = s.cool ∧ (State.healSectors s a n).mgt = s.mgt ∧ (State.healSectors s a n).sec = s.sec ∧ (State.healSectors s a n).boot = s.boot ∧ (State.healSectors s a n).regs = s.regs ∧ (State.healSectors s a n).sels = s.sels ∧ (State.healSectors s a n).halves = s.halves := by
  generalize h_ : State.healSectors s a n = t_
  unfold State.healSectors at h_
  (try dsimp only at h_)
  (repeat' split at h_) <;> subst h_ <;> simp
@[simp] theorem State.healSectors_pending (s : State) (a n : Nat) : (State.healSectors s a n).pending = s.pending := (State.healSectors_frame s a n).1
@[simp] theorem State.healSectors_out (s : State) (a n : Nat) : (State.healSectors s a n).out = s.out := (State.healSectors_frame s a n).2.1
@[simp] theorem State.healSectors_fresh (s : State) (a n : Nat) : (State.healSectors s a n).fresh = s.fresh := (State.healSectors_frame s a n).2.2.1
@[simp] theorem State.healSectors_order (s : State) (a n : Nat) : (State.healSectors s a n).order = s.order := (State.healSectors_frame s a n).2.2.2.1
@[simp] theorem State.healSectors_variant36 (s : State) (a n : Nat) : (State.healSectors s a n).variant36 = s.variant36 := (State.healSectors_frame s a n).2.2.2.2.1
@[simp] theorem State.healSectors_enabled (s : State) (a n : Nat) : (State.healSectors s a n).enabled = s.enabled := (State.healSectors_frame s a n).2.2.2.2.2.1
@[simp] theorem State.healSectors_clusters (s : State) (a n : Nat) : (State.healSectors s a n).clusters = s.clusters := (State.healSectors_frame s a n).2.2.2.2.2.2.1
@[simp] theorem State.healSectors_tarn (s : State) (a n : Nat) : (State.healSectors s a n).tarn = s.tarn := (State.healSectors_frame s a n).2.2.2.2.2.2.2.1
@[simp] theorem State.healSectors_mem (s : State) (a n : Nat) : (State.healSectors s a n).mem = s.mem := (State.healSectors_frame s a n).2.2.2.2.2.2.2.2.1
@[simp] theorem State.healSectors_pages (s : State) (a n : Nat) : (State.healSectors s a n).pages = s.pages := (State.healSectors_frame s a n).2.2.2.2.2.2.2.2.2.1
@[simp] theorem State.healSectors_zeroRuns (s : State) (a n : Nat) : (State.healSectors s a n).zeroRuns = s.zeroRuns := (State.healSectors_frame s a n).2.2.2.2.2.2.2.2.2.2.1
@[simp] theorem State.healSectors_regions (s : State) (a n : Nat) : (State.healSectors s a n).regions = s.regions := (State.healSectors_frame s a n).2.2.2.2.2.2.2.2.2.2.2.1
@[simp] theorem State.healSectors_domains (s : State) (a n : Nat) : (State.healSectors s a n).domains = s.domains := (State.healSectors_frame s a n).2.2.2.2.2.2.2.2.2.2.2.2.1
@[simp] theorem State.healSectors_xings (s : State) (a n : Nat) : (State.healSectors s a n).xings = s.xings := (State.healSectors_frame s a n).2.2.2.2.2.2.2.2.2.2.2.2.2.1
@[simp] theorem State.healSectors_tb (s : State) (a n : Nat) : (State.healSectors s a n).tb = s.tb := (State.healSectors_frame s a n).2.2.2.2.2.2.2.2.2.2.2.2.2.2.1
@[simp] theorem State.healSectors_net (s : State) (a n : Nat) : (State.healSectors s a n).net = s.net := (State.healSectors_frame s a n).2.2.2.2.2.2.2.2.2.2.2.2.2.2.2.1
@[simp] theorem State.healSectors_nextPkt (s : State) (a n : Nat) : (State.healSectors s a n).nextPkt = s.nextPkt := (State.healSectors_frame s a n).2.2.2.2.2.2.2.2.2.2.2.2.2.2.2.2.1
@[simp] theorem State.healSectors_routes (s : State) (a n : Nat) : (State.healSectors s a n).routes = s.routes := (State.healSectors_frame s a n).2.2.2.2.2.2.2.2.2.2.2.2.2.2.2.2.2.1
@[simp] theorem State.healSectors_perimRoutes (s : State) (a n : Nat) : (State.healSectors s a n).perimRoutes = s.perimRoutes := (State.healSectors_frame s a n).2.2.2.2.2.2.2.2.2.2.2.2.2.2.2.2.2.2.1
@[simp] theorem State.healSectors_fabLinks (s : State) (a n : Nat) : (State.healSectors s a n).fabLinks = s.fabLinks := (State.healSectors_frame s a n).2.2.2.2.2.2.2.2.2.2.2.2.2.2.2.2.2.2.2.1
@[simp] theorem State.healSectors_discards (s : State) (a n : Nat) : (State.healSectors s a n).discards = s.discards := (State.healSectors_frame s a n).2.2.2.2.2.2.2.2.2.2.2.2.2.2.2.2.2.2.2.2.1
@[simp] theorem State.healSectors_parts (s : State) (a n : Nat) : (State.healSectors s a n).parts = s.parts := (State.healSectors_frame s a n).2.2.2.2.2.2.2.2.2.2.2.2.2.2.2.2.2.2.2.2.2.1
@[simp] theorem State.healSectors_ctxs (s : State) (a n : Nat) : (State.healSectors s a n).ctxs = s.ctxs := (State.healSectors_frame s a n).2.2.2.2.2.2.2.2.2.2.2.2.2.2.2.2.2.2.2.2.2.2.1
@[simp] theorem State.healSectors_qps (s : State) (a n : Nat) : (State.healSectors s a n).qps = s.qps := (State.healSectors_frame s a n).2.2.2.2.2.2.2.2.2.2.2.2.2.2.2.2.2.2.2.2.2.2.2.1
@[simp] theorem State.healSectors_fns (s : State) (a n : Nat) : (State.healSectors s a n).fns = s.fns := (State.healSectors_frame s a n).2.2.2.2.2.2.2.2.2.2.2.2.2.2.2.2.2.2.2.2.2.2.2.2.1
@[simp] theorem State.healSectors_links (s : State) (a n : Nat) : (State.healSectors s a n).links = s.links := (State.healSectors_frame s a n).2.2.2.2.2.2.2.2.2.2.2.2.2.2.2.2.2.2.2.2.2.2.2.2.2.1
@[simp] theorem State.healSectors_ports (s : State) (a n : Nat) : (State.healSectors s a n).ports = s.ports := (State.healSectors_frame s a n).2.2.2.2.2.2.2.2.2.2.2.2.2.2.2.2.2.2.2.2.2.2.2.2.2.2.1
@[simp] theorem State.healSectors_hbms (s : State) (a n : Nat) : (State.healSectors s a n).hbms = s.hbms := (State.healSectors_frame s a n).2.2.2.2.2.2.2.2.2.2.2.2.2.2.2.2.2.2.2.2.2.2.2.2.2.2.2.1
@[simp] theorem State.healSectors_cxlPorts (s : State) (a n : Nat) : (State.healSectors s a n).cxlPorts = s.cxlPorts := (State.healSectors_frame s a n).2.2.2.2.2.2.2.2.2.2.2.2.2.2.2.2.2.2.2.2.2.2.2.2.2.2.2.2.1
@[simp] theorem State.healSectors_windows (s : State) (a n : Nat) : (State.healSectors s a n).windows = s.windows := (State.healSectors_frame s a n).2.2.2.2.2.2.2.2.2.2.2.2.2.2.2.2.2.2.2.2.2.2.2.2.2.2.2.2.2.1
@[simp] theorem State.healSectors_cores (s : State) (a n : Nat) : (State.healSectors s a n).cores = s.cores := (State.healSectors_frame s a n).2.2.2.2.2.2.2.2.2.2.2.2.2.2.2.2.2.2.2.2.2.2.2.2.2.2.2.2.2.2.1
@[simp] theorem State.healSectors_dir (s : State) (a n : Nat) : (State.healSectors s a n).dir = s.dir := (State.healSectors_frame s a n).2.2.2.2.2.2.2.2.2.2.2.2.2.2.2.2.2.2.2.2.2.2.2.2.2.2.2.2.2.2.2.1
@[simp] theorem State.healSectors_bpm (s : State) (a n : Nat) : (State.healSectors s a n).bpm = s.bpm := (State.healSectors_frame s a n).2.2.2.2.2.2.2.2.2.2.2.2.2.2.2.2.2.2.2.2.2.2.2.2.2.2.2.2.2.2.2.2.1
@[simp] theorem State.healSectors_cool (s : State) (a n : Nat) : (State.healSectors s a n).cool = s.cool := (State.healSectors_frame s a n).2.2.2.2.2.2.2.2.2.2.2.2.2.2.2.2.2.2.2.2.2.2.2.2.2.2.2.2.2.2.2.2.2.1
@[simp] theorem State.healSectors_mgt (s : State) (a n : Nat) : (State.healSectors s a n).mgt = s.mgt := (State.healSectors_frame s a n).2.2.2.2.2.2.2.2.2.2.2.2.2.2.2.2.2.2.2.2.2.2.2.2.2.2.2.2.2.2.2.2.2.2.1
@[simp] theorem State.healSectors_sec (s : State) (a n : Nat) : (State.healSectors s a n).sec = s.sec := (State.healSectors_frame s a n).2.2.2.2.2.2.2.2.2.2.2.2.2.2.2.2.2.2.2.2.2.2.2.2.2.2.2.2.2.2.2.2.2.2.2.1
@[simp] theorem State.healSectors_boot (s : State) (a n : Nat) : (State.healSectors s a n).boot = s.boot := (State.healSectors_frame s a n).2.2.2.2.2.2.2.2.2.2.2.2.2.2.2.2.2.2.2.2.2.2.2.2.2.2.2.2.2.2.2.2.2.2.2.2.1
@[simp] theorem State.healSectors_regs (s : State) (a n : Nat) : (State.healSectors s a n).regs = s.regs := (State.healSectors_frame s a n).2.2.2.2.2.2.2.2.2.2.2.2.2.2.2.2.2.2.2.2.2.2.2.2.2.2.2.2.2.2.2.2.2.2.2.2.2.1
@[simp] theorem State.healSectors_sels (s : State) (a n : Nat) : (State.healSectors s a n).sels = s.sels := (State.healSectors_frame s a n).2.2.2.2.2.2.2.2.2.2.2.2.2.2.2.2.2.2.2.2.2.2.2.2.2.2.2.2.2.2.2.2.2.2.2.2.2.2.1
@[simp] theorem State.healSectors_halves (s : State) (a n : Nat) : (State.healSectors s a n).halves = s.halves := (State.healSectors_frame s a n).2.2.2.2.2.2.2.2.2.2.2.2.2.2.2.2.2.2.2.2.2.2.2.2.2.2.2.2.2.2.2.2.2.2.2.2.2.2.2
@[simp] theorem State.healSectors_cl (s : State) (a n : Nat) (j_ : Nat) : (State.healSectors s a n).cl j_ = s.cl j_ := by simp only [State.cl_def, State.healSectors_clusters]
@[simp] theorem State.healSectors_part (s : State) (a n : Nat) (j_ : Nat) : (State.healSectors s a n).part j_ = s.part j_ := by simp only [State.part_def, State.healSectors_parts]
@[simp] theorem State.healSectors_ctx (s : State) (a n : Nat) (j_ : Nat) : (State.healSectors s a n).ctx j_ = s.ctx j_ := by simp only [State.ctx_def, State.healSectors_ctxs]
@[simp] theorem State.healSectors_qp (s : State) (a n : Nat) (j_ : Nat) : (State.healSectors s a n).qp j_ = s.qp j_ := by simp only [State.qp_def, State.healSectors_qps]
@[simp] theorem State.healSectors_fn (s : State) (a n : Nat) (j_ : Nat) : (State.healSectors s a n).fn j_ = s.fn j_ := by simp only [State.fn_def, State.healSectors_fns]
@[simp] theorem State.healSectors_link (s : State) (a n : Nat) (j_ : Nat) : (State.healSectors s a n).link j_ = s.link j_ := by simp only [State.link_def, State.healSectors_links]
@[simp] theorem State.healSectors_port (s : State) (a n : Nat) (j_ : Nat) : (State.healSectors s a n).port j_ = s.port j_ := by simp only [State.port_def, State.healSectors_ports]
@[simp] theorem State.healSectors_region (s : State) (a n : Nat) (j_ : Nat) : (State.healSectors s a n).region j_ = s.region j_ := by simp only [State.region_def, State.healSectors_regions]
@[simp] theorem State.healSectors_domain (s : State) (a n : Nat) (j_ : Nat) : (State.healSectors s a n).domain j_ = s.domain j_ := by simp only [State.domain_def, State.healSectors_domains]
@[simp] theorem State.healSectors_xing (s : State) (a n : Nat) (j_ : Nat) : (State.healSectors s a n).xing j_ = s.xing j_ := by simp only [State.xing_def, State.healSectors_xings]
@[simp] theorem State.healSectors_hbm (s : State) (a n : Nat) (j_ : Nat) : (State.healSectors s a n).hbm j_ = s.hbm j_ := by simp only [State.hbm_def, State.healSectors_hbms]
@[simp] theorem State.healSectors_cxl (s : State) (a n : Nat) (j_ : Nat) : (State.healSectors s a n).cxl j_ = s.cxl j_ := by simp only [State.cxl_def, State.healSectors_cxlPorts]
@[simp] theorem State.healSectors_win (s : State) (a n : Nat) (j_ : Nat) : (State.healSectors s a n).win j_ = s.win j_ := by simp only [State.win_def, State.healSectors_windows]
@[simp] theorem State.healSectors_core (s : State) (a n : Nat) (j_ : Nat) : (State.healSectors s a n).core j_ = s.core j_ := by simp only [State.core_def, State.healSectors_cores]
@[simp] theorem State.healSectors_dirLine (s : State) (a n : Nat) (j_ : Nat) : (State.healSectors s a n).dirLine j_ = s.dirLine j_ := by simp only [State.dirLine_def, State.healSectors_dir]
@[simp] theorem State.healSectors_page (s : State) (a n : Nat) (j_ : Nat) : (State.healSectors s a n).page j_ = s.page j_ := by simp only [State.page_def, State.healSectors_pages]
@[simp] theorem State.healSectors_trow (s : State) (a n : Nat) (c_ n_ : Nat) : (State.healSectors s a n).trow c_ n_ = s.trow c_ n_ := by simp only [State.trow_def, State.healSectors_tarn]
@[simp] theorem State.healSectors_rawByte (s : State) (a n : Nat) (a_ : Nat) : (State.healSectors s a n).rawByte a_ = s.rawByte a_ := by simp only [State.rawByte_def, State.healSectors_mem]
@[simp] theorem State.healSectors_now (s : State) (a n : Nat) : (State.healSectors s a n).now = s.now := by simp only [State.now_def, State.healSectors_tb]
theorem State.postErr_frame (s : State) (p key : Nat) (e : LogEntry) :
    (State.postErr s p key e).pending = s.pending ∧ (State.postErr s p key e).fresh = s.fresh ∧ (State.postErr s p key e).order = s.order ∧ (State.postErr s p key e).variant36 = s.variant36 ∧ (State.postErr s p key e).enabled = s.enabled ∧ (State.postErr s p key e).clusters = s.clusters ∧ (State.postErr s p key e).tarn = s.tarn ∧ (State.postErr s p key e).mem = s.mem ∧ (State.postErr s p key e).poison = s.poison ∧ (State.postErr s p key e).pages = s.pages ∧ (State.postErr s p key e).zeroRuns = s.zeroRuns ∧ (State.postErr s p key e).regions = s.regions ∧ (State.postErr s p key e).domains = s.domains ∧ (State.postErr s p key e).xings = s.xings ∧ (State.postErr s p key e).tb = s.tb ∧ (State.postErr s p key e).net = s.net ∧ (State.postErr s p key e).nextPkt = s.nextPkt ∧ (State.postErr s p key e).routes = s.routes ∧ (State.postErr s p key e).perimRoutes = s.perimRoutes ∧ (State.postErr s p key e).fabLinks = s.fabLinks ∧ (State.postErr s p key e).discards = s.discards ∧ (State.postErr s p key e).ctxs = s.ctxs ∧ (State.postErr s p key e).qps = s.qps ∧ (State.postErr s p key e).fns = s.fns ∧ (State.postErr s p key e).links = s.links ∧ (State.postErr s p key e).ports = s.ports ∧ (State.postErr s p key e).hbms = s.hbms ∧ (State.postErr s p key e).cxlPorts = s.cxlPorts ∧ (State.postErr s p key e).windows = s.windows ∧ (State.postErr s p key e).dir = s.dir ∧ (State.postErr s p key e).bpm = s.bpm ∧ (State.postErr s p key e).cool = s.cool ∧ (State.postErr s p key e).mgt = s.mgt ∧ (State.postErr s p key e).sec = s.sec ∧ (State.postErr s p key e).boot = s.boot ∧ (State.postErr s p key e).regs = s.regs ∧ (State.postErr s p key e).sels = s.sels ∧ (State.postErr s p key e).halves = s.halves := by
  generalize h_ : State.postErr s p key e = t_
  unfold State.postErr at h_
  (try dsimp only at h_)
  (repeat' split at h_) <;> subst h_ <;> simp
@[simp] theorem State.postErr_pending (s : State) (p key : Nat) (e : LogEntry) : (State.postErr s p key e).pending = s.pending := (State.postErr_frame s p key e).1
@[simp] theorem State.postErr_fresh (s : State) (p key : Nat) (e : LogEntry) : (State.postErr s p key e).fresh = s.fresh := (State.postErr_frame s p key e).2.1
@[simp] theorem State.postErr_order (s : State) (p key : Nat) (e : LogEntry) : (State.postErr s p key e).order = s.order := (State.postErr_frame s p key e).2.2.1
@[simp] theorem State.postErr_variant36 (s : State) (p key : Nat) (e : LogEntry) : (State.postErr s p key e).variant36 = s.variant36 := (State.postErr_frame s p key e).2.2.2.1
@[simp] theorem State.postErr_enabled (s : State) (p key : Nat) (e : LogEntry) : (State.postErr s p key e).enabled = s.enabled := (State.postErr_frame s p key e).2.2.2.2.1
@[simp] theorem State.postErr_clusters (s : State) (p key : Nat) (e : LogEntry) : (State.postErr s p key e).clusters = s.clusters := (State.postErr_frame s p key e).2.2.2.2.2.1
@[simp] theorem State.postErr_tarn (s : State) (p key : Nat) (e : LogEntry) : (State.postErr s p key e).tarn = s.tarn := (State.postErr_frame s p key e).2.2.2.2.2.2.1
@[simp] theorem State.postErr_mem (s : State) (p key : Nat) (e : LogEntry) : (State.postErr s p key e).mem = s.mem := (State.postErr_frame s p key e).2.2.2.2.2.2.2.1
@[simp] theorem State.postErr_poison (s : State) (p key : Nat) (e : LogEntry) : (State.postErr s p key e).poison = s.poison := (State.postErr_frame s p key e).2.2.2.2.2.2.2.2.1
@[simp] theorem State.postErr_pages (s : State) (p key : Nat) (e : LogEntry) : (State.postErr s p key e).pages = s.pages := (State.postErr_frame s p key e).2.2.2.2.2.2.2.2.2.1
@[simp] theorem State.postErr_zeroRuns (s : State) (p key : Nat) (e : LogEntry) : (State.postErr s p key e).zeroRuns = s.zeroRuns := (State.postErr_frame s p key e).2.2.2.2.2.2.2.2.2.2.1
@[simp] theorem State.postErr_regions (s : State) (p key : Nat) (e : LogEntry) : (State.postErr s p key e).regions = s.regions := (State.postErr_frame s p key e).2.2.2.2.2.2.2.2.2.2.2.1
@[simp] theorem State.postErr_domains (s : State) (p key : Nat) (e : LogEntry) : (State.postErr s p key e).domains = s.domains := (State.postErr_frame s p key e).2.2.2.2.2.2.2.2.2.2.2.2.1
@[simp] theorem State.postErr_xings (s : State) (p key : Nat) (e : LogEntry) : (State.postErr s p key e).xings = s.xings := (State.postErr_frame s p key e).2.2.2.2.2.2.2.2.2.2.2.2.2.1
@[simp] theorem State.postErr_tb (s : State) (p key : Nat) (e : LogEntry) : (State.postErr s p key e).tb = s.tb := (State.postErr_frame s p key e).2.2.2.2.2.2.2.2.2.2.2.2.2.2.1
@[simp] theorem State.postErr_net (s : State) (p key : Nat) (e : LogEntry) : (State.postErr s p key e).net = s.net := (State.postErr_frame s p key e).2.2.2.2.2.2.2.2.2.2.2.2.2.2.2.1
@[simp] theorem State.postErr_nextPkt (s : State) (p key : Nat) (e : LogEntry) : (State.postErr s p key e).nextPkt = s.nextPkt := (State.postErr_frame s p key e).2.2.2.2.2.2.2.2.2.2.2.2.2.2.2.2.1
@[simp] theorem State.postErr_routes (s : State) (p key : Nat) (e : LogEntry) : (State.postErr s p key e).routes = s.routes := (State.postErr_frame s p key e).2.2.2.2.2.2.2.2.2.2.2.2.2.2.2.2.2.1
@[simp] theorem State.postErr_perimRoutes (s : State) (p key : Nat) (e : LogEntry) : (State.postErr s p key e).perimRoutes = s.perimRoutes := (State.postErr_frame s p key e).2.2.2.2.2.2.2.2.2.2.2.2.2.2.2.2.2.2.1
@[simp] theorem State.postErr_fabLinks (s : State) (p key : Nat) (e : LogEntry) : (State.postErr s p key e).fabLinks = s.fabLinks := (State.postErr_frame s p key e).2.2.2.2.2.2.2.2.2.2.2.2.2.2.2.2.2.2.2.1
@[simp] theorem State.postErr_discards (s : State) (p key : Nat) (e : LogEntry) : (State.postErr s p key e).discards = s.discards := (State.postErr_frame s p key e).2.2.2.2.2.2.2.2.2.2.2.2.2.2.2.2.2.2.2.2.1
@[simp] theorem State.postErr_ctxs (s : State) (p key : Nat) (e : LogEntry) : (State.postErr s p key e).ctxs = s.ctxs := (State.postErr_frame s p key e).2.2.2.2.2.2.2.2.2.2.2.2.2.2.2.2.2.2.2.2.2.1
@[simp] theorem State.postErr_qps (s : State) (p key : Nat) (e : LogEntry) : (State.postErr s p key e).qps = s.qps := (State.postErr_frame s p key e).2.2.2.2.2.2.2.2.2.2.2.2.2.2.2.2.2.2.2.2.2.2.1
@[simp] theorem State.postErr_fns (s : State) (p key : Nat) (e : LogEntry) : (State.postErr s p key e).fns = s.fns := (State.postErr_frame s p key e).2.2.2.2.2.2.2.2.2.2.2.2.2.2.2.2.2.2.2.2.2.2.2.1
@[simp] theorem State.postErr_links (s : State) (p key : Nat) (e : LogEntry) : (State.postErr s p key e).links = s.links := (State.postErr_frame s p key e).2.2.2.2.2.2.2.2.2.2.2.2.2.2.2.2.2.2.2.2.2.2.2.2.1
@[simp] theorem State.postErr_ports (s : State) (p key : Nat) (e : LogEntry) : (State.postErr s p key e).ports = s.ports := (State.postErr_frame s p key e).2.2.2.2.2.2.2.2.2.2.2.2.2.2.2.2.2.2.2.2.2.2.2.2.2.1
@[simp] theorem State.postErr_hbms (s : State) (p key : Nat) (e : LogEntry) : (State.postErr s p key e).hbms = s.hbms := (State.postErr_frame s p key e).2.2.2.2.2.2.2.2.2.2.2.2.2.2.2.2.2.2.2.2.2.2.2.2.2.2.1
@[simp] theorem State.postErr_cxlPorts (s : State) (p key : Nat) (e : LogEntry) : (State.postErr s p key e).cxlPorts = s.cxlPorts := (State.postErr_frame s p key e).2.2.2.2.2.2.2.2.2.2.2.2.2.2.2.2.2.2.2.2.2.2.2.2.2.2.2.1
@[simp] theorem State.postErr_windows (s : State) (p key : Nat) (e : LogEntry) : (State.postErr s p key e).windows = s.windows := (State.postErr_frame s p key e).2.2.2.2.2.2.2.2.2.2.2.2.2.2.2.2.2.2.2.2.2.2.2.2.2.2.2.2.1
@[simp] theorem State.postErr_dir (s : State) (p key : Nat) (e : LogEntry) : (State.postErr s p key e).dir = s.dir := (State.postErr_frame s p key e).2.2.2.2.2.2.2.2.2.2.2.2.2.2.2.2.2.2.2.2.2.2.2.2.2.2.2.2.2.1
@[simp] theorem State.postErr_bpm (s : State) (p key : Nat) (e : LogEntry) : (State.postErr s p key e).bpm = s.bpm := (State.postErr_frame s p key e).2.2.2.2.2.2.2.2.2.2.2.2.2.2.2.2.2.2.2.2.2.2.2.2.2.2.2.2.2.2.1
@[simp] theorem State.postErr_cool (s : State) (p key : Nat) (e : LogEntry) : (State.postErr s p key e).cool = s.cool := (State.postErr_frame s p key e).2.2.2.2.2.2.2.2.2.2.2.2.2.2.2.2.2.2.2.2.2.2.2.2.2.2.2.2.2.2.2.1
@[simp] theorem State.postErr_mgt (s : State) (p key : Nat) (e : LogEntry) : (State.postErr s p key e).mgt = s.mgt := (State.postErr_frame s p key e).2.2.2.2.2.2.2.2.2.2.2.2.2.2.2.2.2.2.2.2.2.2.2.2.2.2.2.2.2.2.2.2.1
@[simp] theorem State.postErr_sec (s : State) (p key : Nat) (e : LogEntry) : (State.postErr s p key e).sec = s.sec := (State.postErr_frame s p key e).2.2.2.2.2.2.2.2.2.2.2.2.2.2.2.2.2.2.2.2.2.2.2.2.2.2.2.2.2.2.2.2.2.1
@[simp] theorem State.postErr_boot (s : State) (p key : Nat) (e : LogEntry) : (State.postErr s p key e).boot = s.boot := (State.postErr_frame s p key e).2.2.2.2.2.2.2.2.2.2.2.2.2.2.2.2.2.2.2.2.2.2.2.2.2.2.2.2.2.2.2.2.2.2.1
@[simp] theorem State.postErr_regs (s : State) (p key : Nat) (e : LogEntry) : (State.postErr s p key e).regs = s.regs := (State.postErr_frame s p key e).2.2.2.2.2.2.2.2.2.2.2.2.2.2.2.2.2.2.2.2.2.2.2.2.2.2.2.2.2.2.2.2.2.2.2.1
@[simp] theorem State.postErr_sels (s : State) (p key : Nat) (e : LogEntry) : (State.postErr s p key e).sels = s.sels := (State.postErr_frame s p key e).2.2.2.2.2.2.2.2.2.2.2.2.2.2.2.2.2.2.2.2.2.2.2.2.2.2.2.2.2.2.2.2.2.2.2.2.1
@[simp] theorem State.postErr_halves (s : State) (p key : Nat) (e : LogEntry) : (State.postErr s p key e).halves = s.halves := (State.postErr_frame s p key e).2.2.2.2.2.2.2.2.2.2.2.2.2.2.2.2.2.2.2.2.2.2.2.2.2.2.2.2.2.2.2.2.2.2.2.2.2
@[simp] theorem State.postErr_cl (s : State) (p key : Nat) (e : LogEntry) (j_ : Nat) : (State.postErr s p key e).cl j_ = s.cl j_ := by simp only [State.cl_def, State.postErr_clusters]
@[simp] theorem State.postErr_ctx (s : State) (p key : Nat) (e : LogEntry) (j_ : Nat) : (State.postErr s p key e).ctx j_ = s.ctx j_ := by simp only [State.ctx_def, State.postErr_ctxs]
@[simp] theorem State.postErr_qp (s : State) (p key : Nat) (e : LogEntry) (j_ : Nat) : (State.postErr s p key e).qp j_ = s.qp j_ := by simp only [State.qp_def, State.postErr_qps]
@[simp] theorem State.postErr_fn (s : State) (p key : Nat) (e : LogEntry) (j_ : Nat) : (State.postErr s p key e).fn j_ = s.fn j_ := by simp only [State.fn_def, State.postErr_fns]
@[simp] theorem State.postErr_link (s : State) (p key : Nat) (e : LogEntry) (j_ : Nat) : (State.postErr s p key e).link j_ = s.link j_ := by simp only [State.link_def, State.postErr_links]
@[simp] theorem State.postErr_port (s : State) (p key : Nat) (e : LogEntry) (j_ : Nat) : (State.postErr s p key e).port j_ = s.port j_ := by simp only [State.port_def, State.postErr_ports]
@[simp] theorem State.postErr_region (s : State) (p key : Nat) (e : LogEntry) (j_ : Nat) : (State.postErr s p key e).region j_ = s.region j_ := by simp only [State.region_def, State.postErr_regions]
@[simp] theorem State.postErr_domain (s : State) (p key : Nat) (e : LogEntry) (j_ : Nat) : (State.postErr s p key e).domain j_ = s.domain j_ := by simp only [State.domain_def, State.postErr_domains]
@[simp] theorem State.postErr_xing (s : State) (p key : Nat) (e : LogEntry) (j_ : Nat) : (State.postErr s p key e).xing j_ = s.xing j_ := by simp only [State.xing_def, State.postErr_xings]
@[simp] theorem State.postErr_hbm (s : State) (p key : Nat) (e : LogEntry) (j_ : Nat) : (State.postErr s p key e).hbm j_ = s.hbm j_ := by simp only [State.hbm_def, State.postErr_hbms]
@[simp] theorem State.postErr_cxl (s : State) (p key : Nat) (e : LogEntry) (j_ : Nat) : (State.postErr s p key e).cxl j_ = s.cxl j_ := by simp only [State.cxl_def, State.postErr_cxlPorts]
@[simp] theorem State.postErr_win (s : State) (p key : Nat) (e : LogEntry) (j_ : Nat) : (State.postErr s p key e).win j_ = s.win j_ := by simp only [State.win_def, State.postErr_windows]
@[simp] theorem State.postErr_dirLine (s : State) (p key : Nat) (e : LogEntry) (j_ : Nat) : (State.postErr s p key e).dirLine j_ = s.dirLine j_ := by simp only [State.dirLine_def, State.postErr_dir]
@[simp] theorem State.postErr_page (s : State) (p key : Nat) (e : LogEntry) (j_ : Nat) : (State.postErr s p key e).page j_ = s.page j_ := by simp only [State.page_def, State.postErr_pages]
@[simp] theorem State.postErr_trow (s : State) (p key : Nat) (e : LogEntry) (c_ n_ : Nat) : (State.postErr s p key e).trow c_ n_ = s.trow c_ n_ := by simp only [State.trow_def, State.postErr_tarn]
@[simp] theorem State.postErr_rawByte (s : State) (p key : Nat) (e : LogEntry) (a_ : Nat) : (State.postErr s p key e).rawByte a_ = s.rawByte a_ := by simp only [State.rawByte_def, State.postErr_mem]
@[simp] theorem State.postErr_now (s : State) (p key : Nat) (e : LogEntry) : (State.postErr s p key e).now = s.now := by simp only [State.now_def, State.postErr_tb]
theorem State.deliver_frame (s : State) (e : LogEntry) :
    (State.deliver s e).pending = s.pending ∧ (State.deliver s e).fresh = s.fresh ∧ (State.deliver s e).order = s.order ∧ (State.deliver s e).variant36 = s.variant36 ∧ (State.deliver s e).enabled = s.enabled ∧ (State.deliver s e).clusters = s.clusters ∧ (State.deliver s e).tarn = s.tarn ∧ (State.deliver s e).mem = s.mem ∧ (State.deliver s e).poison = s.poison ∧ (State.deliver s e).pages = s.pages ∧ (State.deliver s e).zeroRuns = s.zeroRuns ∧ (State.deliver s e).regions = s.regions ∧ (State.deliver s e).domains = s.domains ∧ (State.deliver s e).xings = s.xings ∧ (State.deliver s e).tb = s.tb ∧ (State.deliver s e).net = s.net ∧ (State.deliver s e).nextPkt = s.nextPkt ∧ (State.deliver s e).routes = s.routes ∧ (State.deliver s e).perimRoutes = s.perimRoutes ∧ (State.deliver s e).fabLinks = s.fabLinks ∧ (State.deliver s e).discards = s.discards ∧ (State.deliver s e).ctxs = s.ctxs ∧ (State.deliver s e).qps = s.qps ∧ (State.deliver s e).fns = s.fns ∧ (State.deliver s e).links = s.links ∧ (State.deliver s e).ports = s.ports ∧ (State.deliver s e).hbms = s.hbms ∧ (State.deliver s e).cxlPorts = s.cxlPorts ∧ (State.deliver s e).windows = s.windows ∧ (State.deliver s e).dir = s.dir ∧ (State.deliver s e).bpm = s.bpm ∧ (State.deliver s e).cool = s.cool ∧ (State.deliver s e).mgt = s.mgt ∧ (State.deliver s e).sec = s.sec ∧ (State.deliver s e).boot = s.boot ∧ (State.deliver s e).regs = s.regs ∧ (State.deliver s e).sels = s.sels ∧ (State.deliver s e).halves = s.halves := by
  generalize h_ : State.deliver s e = t_
  unfold State.deliver at h_
  (try dsimp only at h_)
  (repeat' split at h_) <;> subst h_ <;> simp
@[simp] theorem State.deliver_pending (s : State) (e : LogEntry) : (State.deliver s e).pending = s.pending := (State.deliver_frame s e).1
@[simp] theorem State.deliver_fresh (s : State) (e : LogEntry) : (State.deliver s e).fresh = s.fresh := (State.deliver_frame s e).2.1
@[simp] theorem State.deliver_order (s : State) (e : LogEntry) : (State.deliver s e).order = s.order := (State.deliver_frame s e).2.2.1
@[simp] theorem State.deliver_variant36 (s : State) (e : LogEntry) : (State.deliver s e).variant36 = s.variant36 := (State.deliver_frame s e).2.2.2.1
@[simp] theorem State.deliver_enabled (s : State) (e : LogEntry) : (State.deliver s e).enabled = s.enabled := (State.deliver_frame s e).2.2.2.2.1
@[simp] theorem State.deliver_clusters (s : State) (e : LogEntry) : (State.deliver s e).clusters = s.clusters := (State.deliver_frame s e).2.2.2.2.2.1
@[simp] theorem State.deliver_tarn (s : State) (e : LogEntry) : (State.deliver s e).tarn = s.tarn := (State.deliver_frame s e).2.2.2.2.2.2.1
@[simp] theorem State.deliver_mem (s : State) (e : LogEntry) : (State.deliver s e).mem = s.mem := (State.deliver_frame s e).2.2.2.2.2.2.2.1
@[simp] theorem State.deliver_poison (s : State) (e : LogEntry) : (State.deliver s e).poison = s.poison := (State.deliver_frame s e).2.2.2.2.2.2.2.2.1
@[simp] theorem State.deliver_pages (s : State) (e : LogEntry) : (State.deliver s e).pages = s.pages := (State.deliver_frame s e).2.2.2.2.2.2.2.2.2.1
@[simp] theorem State.deliver_zeroRuns (s : State) (e : LogEntry) : (State.deliver s e).zeroRuns = s.zeroRuns := (State.deliver_frame s e).2.2.2.2.2.2.2.2.2.2.1
@[simp] theorem State.deliver_regions (s : State) (e : LogEntry) : (State.deliver s e).regions = s.regions := (State.deliver_frame s e).2.2.2.2.2.2.2.2.2.2.2.1
@[simp] theorem State.deliver_domains (s : State) (e : LogEntry) : (State.deliver s e).domains = s.domains := (State.deliver_frame s e).2.2.2.2.2.2.2.2.2.2.2.2.1
@[simp] theorem State.deliver_xings (s : State) (e : LogEntry) : (State.deliver s e).xings = s.xings := (State.deliver_frame s e).2.2.2.2.2.2.2.2.2.2.2.2.2.1
@[simp] theorem State.deliver_tb (s : State) (e : LogEntry) : (State.deliver s e).tb = s.tb := (State.deliver_frame s e).2.2.2.2.2.2.2.2.2.2.2.2.2.2.1
@[simp] theorem State.deliver_net (s : State) (e : LogEntry) : (State.deliver s e).net = s.net := (State.deliver_frame s e).2.2.2.2.2.2.2.2.2.2.2.2.2.2.2.1
@[simp] theorem State.deliver_nextPkt (s : State) (e : LogEntry) : (State.deliver s e).nextPkt = s.nextPkt := (State.deliver_frame s e).2.2.2.2.2.2.2.2.2.2.2.2.2.2.2.2.1
@[simp] theorem State.deliver_routes (s : State) (e : LogEntry) : (State.deliver s e).routes = s.routes := (State.deliver_frame s e).2.2.2.2.2.2.2.2.2.2.2.2.2.2.2.2.2.1
@[simp] theorem State.deliver_perimRoutes (s : State) (e : LogEntry) : (State.deliver s e).perimRoutes = s.perimRoutes := (State.deliver_frame s e).2.2.2.2.2.2.2.2.2.2.2.2.2.2.2.2.2.2.1
@[simp] theorem State.deliver_fabLinks (s : State) (e : LogEntry) : (State.deliver s e).fabLinks = s.fabLinks := (State.deliver_frame s e).2.2.2.2.2.2.2.2.2.2.2.2.2.2.2.2.2.2.2.1
@[simp] theorem State.deliver_discards (s : State) (e : LogEntry) : (State.deliver s e).discards = s.discards := (State.deliver_frame s e).2.2.2.2.2.2.2.2.2.2.2.2.2.2.2.2.2.2.2.2.1
@[simp] theorem State.deliver_ctxs (s : State) (e : LogEntry) : (State.deliver s e).ctxs = s.ctxs := (State.deliver_frame s e).2.2.2.2.2.2.2.2.2.2.2.2.2.2.2.2.2.2.2.2.2.1
@[simp] theorem State.deliver_qps (s : State) (e : LogEntry) : (State.deliver s e).qps = s.qps := (State.deliver_frame s e).2.2.2.2.2.2.2.2.2.2.2.2.2.2.2.2.2.2.2.2.2.2.1
@[simp] theorem State.deliver_fns (s : State) (e : LogEntry) : (State.deliver s e).fns = s.fns := (State.deliver_frame s e).2.2.2.2.2.2.2.2.2.2.2.2.2.2.2.2.2.2.2.2.2.2.2.1
@[simp] theorem State.deliver_links (s : State) (e : LogEntry) : (State.deliver s e).links = s.links := (State.deliver_frame s e).2.2.2.2.2.2.2.2.2.2.2.2.2.2.2.2.2.2.2.2.2.2.2.2.1
@[simp] theorem State.deliver_ports (s : State) (e : LogEntry) : (State.deliver s e).ports = s.ports := (State.deliver_frame s e).2.2.2.2.2.2.2.2.2.2.2.2.2.2.2.2.2.2.2.2.2.2.2.2.2.1
@[simp] theorem State.deliver_hbms (s : State) (e : LogEntry) : (State.deliver s e).hbms = s.hbms := (State.deliver_frame s e).2.2.2.2.2.2.2.2.2.2.2.2.2.2.2.2.2.2.2.2.2.2.2.2.2.2.1
@[simp] theorem State.deliver_cxlPorts (s : State) (e : LogEntry) : (State.deliver s e).cxlPorts = s.cxlPorts := (State.deliver_frame s e).2.2.2.2.2.2.2.2.2.2.2.2.2.2.2.2.2.2.2.2.2.2.2.2.2.2.2.1
@[simp] theorem State.deliver_windows (s : State) (e : LogEntry) : (State.deliver s e).windows = s.windows := (State.deliver_frame s e).2.2.2.2.2.2.2.2.2.2.2.2.2.2.2.2.2.2.2.2.2.2.2.2.2.2.2.2.1
@[simp] theorem State.deliver_dir (s : State) (e : LogEntry) : (State.deliver s e).dir = s.dir := (State.deliver_frame s e).2.2.2.2.2.2.2.2.2.2.2.2.2.2.2.2.2.2.2.2.2.2.2.2.2.2.2.2.2.1
@[simp] theorem State.deliver_bpm (s : State) (e : LogEntry) : (State.deliver s e).bpm = s.bpm := (State.deliver_frame s e).2.2.2.2.2.2.2.2.2.2.2.2.2.2.2.2.2.2.2.2.2.2.2.2.2.2.2.2.2.2.1
@[simp] theorem State.deliver_cool (s : State) (e : LogEntry) : (State.deliver s e).cool = s.cool := (State.deliver_frame s e).2.2.2.2.2.2.2.2.2.2.2.2.2.2.2.2.2.2.2.2.2.2.2.2.2.2.2.2.2.2.2.1
@[simp] theorem State.deliver_mgt (s : State) (e : LogEntry) : (State.deliver s e).mgt = s.mgt := (State.deliver_frame s e).2.2.2.2.2.2.2.2.2.2.2.2.2.2.2.2.2.2.2.2.2.2.2.2.2.2.2.2.2.2.2.2.1
@[simp] theorem State.deliver_sec (s : State) (e : LogEntry) : (State.deliver s e).sec = s.sec := (State.deliver_frame s e).2.2.2.2.2.2.2.2.2.2.2.2.2.2.2.2.2.2.2.2.2.2.2.2.2.2.2.2.2.2.2.2.2.1
@[simp] theorem State.deliver_boot (s : State) (e : LogEntry) : (State.deliver s e).boot = s.boot := (State.deliver_frame s e).2.2.2.2.2.2.2.2.2.2.2.2.2.2.2.2.2.2.2.2.2.2.2.2.2.2.2.2.2.2.2.2.2.2.1
@[simp] theorem State.deliver_regs (s : State) (e : LogEntry) : (State.deliver s e).regs = s.regs := (State.deliver_frame s e).2.2.2.2.2.2.2.2.2.2.2.2.2.2.2.2.2.2.2.2.2.2.2.2.2.2.2.2.2.2.2.2.2.2.2.1
@[simp] theorem State.deliver_sels (s : State) (e : LogEntry) : (State.deliver s e).sels = s.sels := (State.deliver_frame s e).2.2.2.2.2.2.2.2.2.2.2.2.2.2.2.2.2.2.2.2.2.2.2.2.2.2.2.2.2.2.2.2.2.2.2.2.1
@[simp] theorem State.deliver_halves (s : State) (e : LogEntry) : (State.deliver s e).halves = s.halves := (State.deliver_frame s e).2.2.2.2.2.2.2.2.2.2.2.2.2.2.2.2.2.2.2.2.2.2.2.2.2.2.2.2.2.2.2.2.2.2.2.2.2
@[simp] theorem State.deliver_cl (s : State) (e : LogEntry) (j_ : Nat) : (State.deliver s e).cl j_ = s.cl j_ := by simp only [State.cl_def, State.deliver_clusters]
@[simp] theorem State.deliver_ctx (s : State) (e : LogEntry) (j_ : Nat) : (State.deliver s e).ctx j_ = s.ctx j_ := by simp only [State.ctx_def, State.deliver_ctxs]
@[simp] theorem State.deliver_qp (s : State) (e : LogEntry) (j_ : Nat) : (State.deliver s e).qp j_ = s.qp j_ := by simp only [State.qp_def, State.deliver_qps]
@[simp] theorem State.deliver_fn (s : State) (e : LogEntry) (j_ : Nat) : (State.deliver s e).fn j_ = s.fn j_ := by simp only [State.fn_def, State.deliver_fns]
@[simp] theorem State.deliver_link (s : State) (e : LogEntry) (j_ : Nat) : (State.deliver s e).link j_ = s.link j_ := by simp only [State.link_def, State.deliver_links]
@[simp] theorem State.deliver_port (s : State) (e : LogEntry) (j_ : Nat) : (State.deliver s e).port j_ = s.port j_ := by simp only [State.port_def, State.deliver_ports]
@[simp] theorem State.deliver_region (s : State) (e : LogEntry) (j_ : Nat) : (State.deliver s e).region j_ = s.region j_ := by simp only [State.region_def, State.deliver_regions]
@[simp] theorem State.deliver_domain (s : State) (e : LogEntry) (j_ : Nat) : (State.deliver s e).domain j_ = s.domain j_ := by simp only [State.domain_def, State.deliver_domains]
@[simp] theorem State.deliver_xing (s : State) (e : LogEntry) (j_ : Nat) : (State.deliver s e).xing j_ = s.xing j_ := by simp only [State.xing_def, State.deliver_xings]
@[simp] theorem State.deliver_hbm (s : State) (e : LogEntry) (j_ : Nat) : (State.deliver s e).hbm j_ = s.hbm j_ := by simp only [State.hbm_def, State.deliver_hbms]
@[simp] theorem State.deliver_cxl (s : State) (e : LogEntry) (j_ : Nat) : (State.deliver s e).cxl j_ = s.cxl j_ := by simp only [State.cxl_def, State.deliver_cxlPorts]
@[simp] theorem State.deliver_win (s : State) (e : LogEntry) (j_ : Nat) : (State.deliver s e).win j_ = s.win j_ := by simp only [State.win_def, State.deliver_windows]
@[simp] theorem State.deliver_dirLine (s : State) (e : LogEntry) (j_ : Nat) : (State.deliver s e).dirLine j_ = s.dirLine j_ := by simp only [State.dirLine_def, State.deliver_dir]
@[simp] theorem State.deliver_page (s : State) (e : LogEntry) (j_ : Nat) : (State.deliver s e).page j_ = s.page j_ := by simp only [State.page_def, State.deliver_pages]
@[simp] theorem State.deliver_trow (s : State) (e : LogEntry) (c_ n_ : Nat) : (State.deliver s e).trow c_ n_ = s.trow c_ n_ := by simp only [State.trow_def, State.deliver_tarn]
@[simp] theorem State.deliver_rawByte (s : State) (e : LogEntry) (a_ : Nat) : (State.deliver s e).rawByte a_ = s.rawByte a_ := by simp only [State.rawByte_def, State.deliver_mem]
@[simp] theorem State.deliver_now (s : State) (e : LogEntry) : (State.deliver s e).now = s.now := by simp only [State.now_def, State.deliver_tb]
theorem State.changed_frame (s : State) :
    (State.changed s).pending = s.pending ∧ (State.changed s).out = s.out ∧ (State.changed s).fresh = s.fresh ∧ (State.changed s).order = s.order ∧ (State.changed s).variant36 = s.variant36 ∧ (State.changed s).enabled = s.enabled ∧ (State.changed s).clusters = s.clusters ∧ (State.changed s).tarn = s.tarn ∧ (State.changed s).mem = s.mem ∧ (State.changed s).poison = s.poison ∧ (State.changed s).pages = s.pages ∧ (State.changed s).zeroRuns = s.zeroRuns ∧ (State.changed s).regions = s.regions ∧ (State.changed s).domains = s.domains ∧ (State.changed s).xings = s.xings ∧ (State.changed s).tb = s.tb ∧ (State.changed s).net = s.net ∧ (State.changed s).nextPkt = s.nextPkt ∧ (State.changed s).routes = s.routes ∧ (State.changed s).perimRoutes = s.perimRoutes ∧ (State.changed s).fabLinks = s.fabLinks ∧ (State.changed s).discards = s.discards ∧ (State.changed s).parts = s.parts ∧ (State.changed s).ctxs = s.ctxs ∧ (State.changed s).qps = s.qps ∧ (State.changed s).fns = s.fns ∧ (State.changed s).links = s.links ∧ (State.changed s).ports = s.ports ∧ (State.changed s).hbms = s.hbms ∧ (State.changed s).cxlPorts = s.cxlPorts ∧ (State.changed s).windows = s.windows ∧ (State.changed s).cores = s.cores ∧ (State.changed s).dir = s.dir ∧ (State.changed s).bpm = s.bpm ∧ (State.changed s).cool = s.cool ∧ (State.changed s).sec = s.sec ∧ (State.changed s).boot = s.boot ∧ (State.changed s).regs = s.regs ∧ (State.changed s).sels = s.sels ∧ (State.changed s).halves = s.halves := by
  generalize h_ : State.changed s = t_
  unfold State.changed at h_
  (try dsimp only at h_)
  (repeat' split at h_) <;> subst h_ <;> simp
@[simp] theorem State.changed_pending (s : State) : (State.changed s).pending = s.pending := (State.changed_frame s).1
@[simp] theorem State.changed_out (s : State) : (State.changed s).out = s.out := (State.changed_frame s).2.1
@[simp] theorem State.changed_fresh (s : State) : (State.changed s).fresh = s.fresh := (State.changed_frame s).2.2.1
@[simp] theorem State.changed_order (s : State) : (State.changed s).order = s.order := (State.changed_frame s).2.2.2.1
@[simp] theorem State.changed_variant36 (s : State) : (State.changed s).variant36 = s.variant36 := (State.changed_frame s).2.2.2.2.1
@[simp] theorem State.changed_enabled (s : State) : (State.changed s).enabled = s.enabled := (State.changed_frame s).2.2.2.2.2.1
@[simp] theorem State.changed_clusters (s : State) : (State.changed s).clusters = s.clusters := (State.changed_frame s).2.2.2.2.2.2.1
@[simp] theorem State.changed_tarn (s : State) : (State.changed s).tarn = s.tarn := (State.changed_frame s).2.2.2.2.2.2.2.1
@[simp] theorem State.changed_mem (s : State) : (State.changed s).mem = s.mem := (State.changed_frame s).2.2.2.2.2.2.2.2.1
@[simp] theorem State.changed_poison (s : State) : (State.changed s).poison = s.poison := (State.changed_frame s).2.2.2.2.2.2.2.2.2.1
@[simp] theorem State.changed_pages (s : State) : (State.changed s).pages = s.pages := (State.changed_frame s).2.2.2.2.2.2.2.2.2.2.1
@[simp] theorem State.changed_zeroRuns (s : State) : (State.changed s).zeroRuns = s.zeroRuns := (State.changed_frame s).2.2.2.2.2.2.2.2.2.2.2.1
@[simp] theorem State.changed_regions (s : State) : (State.changed s).regions = s.regions := (State.changed_frame s).2.2.2.2.2.2.2.2.2.2.2.2.1
@[simp] theorem State.changed_domains (s : State) : (State.changed s).domains = s.domains := (State.changed_frame s).2.2.2.2.2.2.2.2.2.2.2.2.2.1
@[simp] theorem State.changed_xings (s : State) : (State.changed s).xings = s.xings := (State.changed_frame s).2.2.2.2.2.2.2.2.2.2.2.2.2.2.1
@[simp] theorem State.changed_tb (s : State) : (State.changed s).tb = s.tb := (State.changed_frame s).2.2.2.2.2.2.2.2.2.2.2.2.2.2.2.1
@[simp] theorem State.changed_net (s : State) : (State.changed s).net = s.net := (State.changed_frame s).2.2.2.2.2.2.2.2.2.2.2.2.2.2.2.2.1
@[simp] theorem State.changed_nextPkt (s : State) : (State.changed s).nextPkt = s.nextPkt := (State.changed_frame s).2.2.2.2.2.2.2.2.2.2.2.2.2.2.2.2.2.1
@[simp] theorem State.changed_routes (s : State) : (State.changed s).routes = s.routes := (State.changed_frame s).2.2.2.2.2.2.2.2.2.2.2.2.2.2.2.2.2.2.1
@[simp] theorem State.changed_perimRoutes (s : State) : (State.changed s).perimRoutes = s.perimRoutes := (State.changed_frame s).2.2.2.2.2.2.2.2.2.2.2.2.2.2.2.2.2.2.2.1
@[simp] theorem State.changed_fabLinks (s : State) : (State.changed s).fabLinks = s.fabLinks := (State.changed_frame s).2.2.2.2.2.2.2.2.2.2.2.2.2.2.2.2.2.2.2.2.1
@[simp] theorem State.changed_discards (s : State) : (State.changed s).discards = s.discards := (State.changed_frame s).2.2.2.2.2.2.2.2.2.2.2.2.2.2.2.2.2.2.2.2.2.1
@[simp] theorem State.changed_parts (s : State) : (State.changed s).parts = s.parts := (State.changed_frame s).2.2.2.2.2.2.2.2.2.2.2.2.2.2.2.2.2.2.2.2.2.2.1
@[simp] theorem State.changed_ctxs (s : State) : (State.changed s).ctxs = s.ctxs := (State.changed_frame s).2.2.2.2.2.2.2.2.2.2.2.2.2.2.2.2.2.2.2.2.2.2.2.1
@[simp] theorem State.changed_qps (s : State) : (State.changed s).qps = s.qps := (State.changed_frame s).2.2.2.2.2.2.2.2.2.2.2.2.2.2.2.2.2.2.2.2.2.2.2.2.1
@[simp] theorem State.changed_fns (s : State) : (State.changed s).fns = s.fns := (State.changed_frame s).2.2.2.2.2.2.2.2.2.2.2.2.2.2.2.2.2.2.2.2.2.2.2.2.2.1
@[simp] theorem State.changed_links (s : State) : (State.changed s).links = s.links := (State.changed_frame s).2.2.2.2.2.2.2.2.2.2.2.2.2.2.2.2.2.2.2.2.2.2.2.2.2.2.1
@[simp] theorem State.changed_ports (s : State) : (State.changed s).ports = s.ports := (State.changed_frame s).2.2.2.2.2.2.2.2.2.2.2.2.2.2.2.2.2.2.2.2.2.2.2.2.2.2.2.1
@[simp] theorem State.changed_hbms (s : State) : (State.changed s).hbms = s.hbms := (State.changed_frame s).2.2.2.2.2.2.2.2.2.2.2.2.2.2.2.2.2.2.2.2.2.2.2.2.2.2.2.2.1
@[simp] theorem State.changed_cxlPorts (s : State) : (State.changed s).cxlPorts = s.cxlPorts := (State.changed_frame s).2.2.2.2.2.2.2.2.2.2.2.2.2.2.2.2.2.2.2.2.2.2.2.2.2.2.2.2.2.1
@[simp] theorem State.changed_windows (s : State) : (State.changed s).windows = s.windows := (State.changed_frame s).2.2.2.2.2.2.2.2.2.2.2.2.2.2.2.2.2.2.2.2.2.2.2.2.2.2.2.2.2.2.1
@[simp] theorem State.changed_cores (s : State) : (State.changed s).cores = s.cores := (State.changed_frame s).2.2.2.2.2.2.2.2.2.2.2.2.2.2.2.2.2.2.2.2.2.2.2.2.2.2.2.2.2.2.2.1
@[simp] theorem State.changed_dir (s : State) : (State.changed s).dir = s.dir := (State.changed_frame s).2.2.2.2.2.2.2.2.2.2.2.2.2.2.2.2.2.2.2.2.2.2.2.2.2.2.2.2.2.2.2.2.1
@[simp] theorem State.changed_bpm (s : State) : (State.changed s).bpm = s.bpm := (State.changed_frame s).2.2.2.2.2.2.2.2.2.2.2.2.2.2.2.2.2.2.2.2.2.2.2.2.2.2.2.2.2.2.2.2.2.1
@[simp] theorem State.changed_cool (s : State) : (State.changed s).cool = s.cool := (State.changed_frame s).2.2.2.2.2.2.2.2.2.2.2.2.2.2.2.2.2.2.2.2.2.2.2.2.2.2.2.2.2.2.2.2.2.2.1
@[simp] theorem State.changed_sec (s : State) : (State.changed s).sec = s.sec := (State.changed_frame s).2.2.2.2.2.2.2.2.2.2.2.2.2.2.2.2.2.2.2.2.2.2.2.2.2.2.2.2.2.2.2.2.2.2.2.1
@[simp] theorem State.changed_boot (s : State) : (State.changed s).boot = s.boot := (State.changed_frame s).2.2.2.2.2.2.2.2.2.2.2.2.2.2.2.2.2.2.2.2.2.2.2.2.2.2.2.2.2.2.2.2.2.2.2.2.1
@[simp] theorem State.changed_regs (s : State) : (State.changed s).regs = s.regs := (State.changed_frame s).2.2.2.2.2.2.2.2.2.2.2.2.2.2.2.2.2.2.2.2.2.2.2.2.2.2.2.2.2.2.2.2.2.2.2.2.2.1
@[simp] theorem State.changed_sels (s : State) : (State.changed s).sels = s.sels := (State.changed_frame s).2.2.2.2.2.2.2.2.2.2.2.2.2.2.2.2.2.2.2.2.2.2.2.2.2.2.2.2.2.2.2.2.2.2.2.2.2.2.1
@[simp] theorem State.changed_halves (s : State) : (State.changed s).halves = s.halves := (State.changed_frame s).2.2.2.2.2.2.2.2.2.2.2.2.2.2.2.2.2.2.2.2.2.2.2.2.2.2.2.2.2.2.2.2.2.2.2.2.2.2.2
@[simp] theorem State.changed_cl (s : State) (j_ : Nat) : (State.changed s).cl j_ = s.cl j_ := by simp only [State.cl_def, State.changed_clusters]
@[simp] theorem State.changed_part (s : State) (j_ : Nat) : (State.changed s).part j_ = s.part j_ := by simp only [State.part_def, State.changed_parts]
@[simp] theorem State.changed_ctx (s : State) (j_ : Nat) : (State.changed s).ctx j_ = s.ctx j_ := by simp only [State.ctx_def, State.changed_ctxs]
@[simp] theorem State.changed_qp (s : State) (j_ : Nat) : (State.changed s).qp j_ = s.qp j_ := by simp only [State.qp_def, State.changed_qps]
@[simp] theorem State.changed_fn (s : State) (j_ : Nat) : (State.changed s).fn j_ = s.fn j_ := by simp only [State.fn_def, State.changed_fns]
@[simp] theorem State.changed_link (s : State) (j_ : Nat) : (State.changed s).link j_ = s.link j_ := by simp only [State.link_def, State.changed_links]
@[simp] theorem State.changed_port (s : State) (j_ : Nat) : (State.changed s).port j_ = s.port j_ := by simp only [State.port_def, State.changed_ports]
@[simp] theorem State.changed_region (s : State) (j_ : Nat) : (State.changed s).region j_ = s.region j_ := by simp only [State.region_def, State.changed_regions]
@[simp] theorem State.changed_domain (s : State) (j_ : Nat) : (State.changed s).domain j_ = s.domain j_ := by simp only [State.domain_def, State.changed_domains]
@[simp] theorem State.changed_xing (s : State) (j_ : Nat) : (State.changed s).xing j_ = s.xing j_ := by simp only [State.xing_def, State.changed_xings]
@[simp] theorem State.changed_hbm (s : State) (j_ : Nat) : (State.changed s).hbm j_ = s.hbm j_ := by simp only [State.hbm_def, State.changed_hbms]
@[simp] theorem State.changed_cxl (s : State) (j_ : Nat) : (State.changed s).cxl j_ = s.cxl j_ := by simp only [State.cxl_def, State.changed_cxlPorts]
@[simp] theorem State.changed_win (s : State) (j_ : Nat) : (State.changed s).win j_ = s.win j_ := by simp only [State.win_def, State.changed_windows]
@[simp] theorem State.changed_core (s : State) (j_ : Nat) : (State.changed s).core j_ = s.core j_ := by simp only [State.core_def, State.changed_cores]
@[simp] theorem State.changed_dirLine (s : State) (j_ : Nat) : (State.changed s).dirLine j_ = s.dirLine j_ := by simp only [State.dirLine_def, State.changed_dir]
@[simp] theorem State.changed_page (s : State) (j_ : Nat) : (State.changed s).page j_ = s.page j_ := by simp only [State.page_def, State.changed_pages]
@[simp] theorem State.changed_trow (s : State) (c_ n_ : Nat) : (State.changed s).trow c_ n_ = s.trow c_ n_ := by simp only [State.trow_def, State.changed_tarn]
@[simp] theorem State.changed_rawByte (s : State) (a_ : Nat) : (State.changed s).rawByte a_ = s.rawByte a_ := by simp only [State.rawByte_def, State.changed_mem]
@[simp] theorem State.changed_now (s : State) : (State.changed s).now = s.now := by simp only [State.now_def, State.changed_tb]
theorem State.addLog_frame (s : State) (e : LogEntry) :
    (State.addLog s e).pending = s.pending ∧ (State.addLog s e).out = s.out ∧ (State.addLog s e).fresh = s.fresh ∧ (State.addLog s e).order = s.order ∧ (State.addLog s e).variant36 = s.variant36 ∧ (State.addLog s e).enabled = s.enabled ∧ (State.addLog s e).clusters = s.clusters ∧ (State.addLog s e).tarn = s.tarn ∧ (State.addLog s e).mem = s.mem ∧ (State.addLog s e).poison = s.poison ∧ (State.addLog s e).pages = s.pages ∧ (State.addLog s e).zeroRuns = s.zeroRuns ∧ (State.addLog s e).regions = s.regions ∧ (State.addLog s e).domains = s.domains ∧ (State.addLog s e).xings = s.xings ∧ (State.addLog s e).tb = s.tb ∧ (State.addLog s e).net = s.net ∧ (State.addLog s e).nextPkt = s.nextPkt ∧ (State.addLog s e).routes = s.routes ∧ (State.addLog s e).perimRoutes = s.perimRoutes ∧ (State.addLog s e).fabLinks = s.fabLinks ∧ (State.addLog s e).discards = s.discards ∧ (State.addLog s e).parts = s.parts ∧ (State.addLog s e).ctxs = s.ctxs ∧ (State.addLog s e).qps = s.qps ∧ (State.addLog s e).fns = s.fns ∧ (State.addLog s e).links = s.links ∧ (State.addLog s e).ports = s.ports ∧ (State.addLog s e).hbms = s.hbms ∧ (State.addLog s e).cxlPorts = s.cxlPorts ∧ (State.addLog s e).windows = s.windows ∧ (State.addLog s e).cores = s.cores ∧ (State.addLog s e).dir = s.dir ∧ (State.addLog s e).bpm = s.bpm ∧ (State.addLog s e).cool = s.cool ∧ (State.addLog s e).sec = s.sec ∧ (State.addLog s e).boot = s.boot ∧ (State.addLog s e).regs = s.regs ∧ (State.addLog s e).sels = s.sels ∧ (State.addLog s e).halves = s.halves := by
  generalize h_ : State.addLog s e = t_
  unfold State.addLog at h_
  (try dsimp only at h_)
  (repeat' split at h_) <;> subst h_ <;> simp
@[simp] theorem State.addLog_pending (s : State) (e : LogEntry) : (State.addLog s e).pending = s.pending := (State.addLog_frame s e).1
@[simp] theorem State.addLog_out (s : State) (e : LogEntry) : (State.addLog s e).out = s.out := (State.addLog_frame s e).2.1
@[simp] theorem State.addLog_fresh (s : State) (e : LogEntry) : (State.addLog s e).fresh = s.fresh := (State.addLog_frame s e).2.2.1
@[simp] theorem State.addLog_order (s : State) (e : LogEntry) : (State.addLog s e).order = s.order := (State.addLog_frame s e).2.2.2.1
@[simp] theorem State.addLog_variant36 (s : State) (e : LogEntry) : (State.addLog s e).variant36 = s.variant36 := (State.addLog_frame s e).2.2.2.2.1
@[simp] theorem State.addLog_enabled (s : State) (e : LogEntry) : (State.addLog s e).enabled = s.enabled := (State.addLog_frame s e).2.2.2.2.2.1
@[simp] theorem State.addLog_clusters (s : State) (e : LogEntry) : (State.addLog s e).clusters = s.clusters := (State.addLog_frame s e).2.2.2.2.2.2.1
@[simp] theorem State.addLog_tarn (s : State) (e : LogEntry) : (State.addLog s e).tarn = s.tarn := (State.addLog_frame s e).2.2.2.2.2.2.2.1
@[simp] theorem State.addLog_mem (s : State) (e : LogEntry) : (State.addLog s e).mem = s.mem := (State.addLog_frame s e).2.2.2.2.2.2.2.2.1
@[simp] theorem State.addLog_poison (s : State) (e : LogEntry) : (State.addLog s e).poison = s.poison := (State.addLog_frame s e).2.2.2.2.2.2.2.2.2.1
@[simp] theorem State.addLog_pages (s : State) (e : LogEntry) : (State.addLog s e).pages = s.pages := (State.addLog_frame s e).2.2.2.2.2.2.2.2.2.2.1
@[simp] theorem State.addLog_zeroRuns (s : State) (e : LogEntry) : (State.addLog s e).zeroRuns = s.zeroRuns := (State.addLog_frame s e).2.2.2.2.2.2.2.2.2.2.2.1
@[simp] theorem State.addLog_regions (s : State) (e : LogEntry) : (State.addLog s e).regions = s.regions := (State.addLog_frame s e).2.2.2.2.2.2.2.2.2.2.2.2.1
@[simp] theorem State.addLog_domains (s : State) (e : LogEntry) : (State.addLog s e).domains = s.domains := (State.addLog_frame s e).2.2.2.2.2.2.2.2.2.2.2.2.2.1
@[simp] theorem State.addLog_xings (s : State) (e : LogEntry) : (State.addLog s e).xings = s.xings := (State.addLog_frame s e).2.2.2.2.2.2.2.2.2.2.2.2.2.2.1
@[simp] theorem State.addLog_tb (s : State) (e : LogEntry) : (State.addLog s e).tb = s.tb := (State.addLog_frame s e).2.2.2.2.2.2.2.2.2.2.2.2.2.2.2.1
@[simp] theorem State.addLog_net (s : State) (e : LogEntry) : (State.addLog s e).net = s.net := (State.addLog_frame s e).2.2.2.2.2.2.2.2.2.2.2.2.2.2.2.2.1
@[simp] theorem State.addLog_nextPkt (s : State) (e : LogEntry) : (State.addLog s e).nextPkt = s.nextPkt := (State.addLog_frame s e).2.2.2.2.2.2.2.2.2.2.2.2.2.2.2.2.2.1
@[simp] theorem State.addLog_routes (s : State) (e : LogEntry) : (State.addLog s e).routes = s.routes := (State.addLog_frame s e).2.2.2.2.2.2.2.2.2.2.2.2.2.2.2.2.2.2.1
@[simp] theorem State.addLog_perimRoutes (s : State) (e : LogEntry) : (State.addLog s e).perimRoutes = s.perimRoutes := (State.addLog_frame s e).2.2.2.2.2.2.2.2.2.2.2.2.2.2.2.2.2.2.2.1
@[simp] theorem State.addLog_fabLinks (s : State) (e : LogEntry) : (State.addLog s e).fabLinks = s.fabLinks := (State.addLog_frame s e).2.2.2.2.2.2.2.2.2.2.2.2.2.2.2.2.2.2.2.2.1
@[simp] theorem State.addLog_discards (s : State) (e : LogEntry) : (State.addLog s e).discards = s.discards := (State.addLog_frame s e).2.2.2.2.2.2.2.2.2.2.2.2.2.2.2.2.2.2.2.2.2.1
@[simp] theorem State.addLog_parts (s : State) (e : LogEntry) : (State.addLog s e).parts = s.parts := (State.addLog_frame s e).2.2.2.2.2.2.2.2.2.2.2.2.2.2.2.2.2.2.2.2.2.2.1
@[simp] theorem State.addLog_ctxs (s : State) (e : LogEntry) : (State.addLog s e).ctxs = s.ctxs := (State.addLog_frame s e).2.2.2.2.2.2.2.2.2.2.2.2.2.2.2.2.2.2.2.2.2.2.2.1
@[simp] theorem State.addLog_qps (s : State) (e : LogEntry) : (State.addLog s e).qps = s.qps := (State.addLog_frame s e).2.2.2.2.2.2.2.2.2.2.2.2.2.2.2.2.2.2.2.2.2.2.2.2.1
@[simp] theorem State.addLog_fns (s : State) (e : LogEntry) : (State.addLog s e).fns = s.fns := (State.addLog_frame s e).2.2.2.2.2.2.2.2.2.2.2.2.2.2.2.2.2.2.2.2.2.2.2.2.2.1
@[simp] theorem State.addLog_links (s : State) (e : LogEntry) : (State.addLog s e).links = s.links := (State.addLog_frame s e).2.2.2.2.2.2.2.2.2.2.2.2.2.2.2.2.2.2.2.2.2.2.2.2.2.2.1
@[simp] theorem State.addLog_ports (s : State) (e : LogEntry) : (State.addLog s e).ports = s.ports := (State.addLog_frame s e).2.2.2.2.2.2.2.2.2.2.2.2.2.2.2.2.2.2.2.2.2.2.2.2.2.2.2.1
@[simp] theorem State.addLog_hbms (s : State) (e : LogEntry) : (State.addLog s e).hbms = s.hbms := (State.addLog_frame s e).2.2.2.2.2.2.2.2.2.2.2.2.2.2.2.2.2.2.2.2.2.2.2.2.2.2.2.2.1
@[simp] theorem State.addLog_cxlPorts (s : State) (e : LogEntry) : (State.addLog s e).cxlPorts = s.cxlPorts := (State.addLog_frame s e).2.2.2.2.2.2.2.2.2.2.2.2.2.2.2.2.2.2.2.2.2.2.2.2.2.2.2.2.2.1
@[simp] theorem State.addLog_windows (s : State) (e : LogEntry) : (State.addLog s e).windows = s.windows := (State.addLog_frame s e).2.2.2.2.2.2.2.2.2.2.2.2.2.2.2.2.2.2.2.2.2.2.2.2.2.2.2.2.2.2.1
@[simp] theorem State.addLog_cores (s : State) (e : LogEntry) : (State.addLog s e).cores = s.cores := (State.addLog_frame s e).2.2.2.2.2.2.2.2.2.2.2.2.2.2.2.2.2.2.2.2.2.2.2.2.2.2.2.2.2.2.2.1
@[simp] theorem State.addLog_dir (s : State) (e : LogEntry) : (State.addLog s e).dir = s.dir := (State.addLog_frame s e).2.2.2.2.2.2.2.2.2.2.2.2.2.2.2.2.2.2.2.2.2.2.2.2.2.2.2.2.2.2.2.2.1
@[simp] theorem State.addLog_bpm (s : State) (e : LogEntry) : (State.addLog s e).bpm = s.bpm := (State.addLog_frame s e).2.2.2.2.2.2.2.2.2.2.2.2.2.2.2.2.2.2.2.2.2.2.2.2.2.2.2.2.2.2.2.2.2.1
@[simp] theorem State.addLog_cool (s : State) (e : LogEntry) : (State.addLog s e).cool = s.cool := (State.addLog_frame s e).2.2.2.2.2.2.2.2.2.2.2.2.2.2.2.2.2.2.2.2.2.2.2.2.2.2.2.2.2.2.2.2.2.2.1
@[simp] theorem State.addLog_sec (s : State) (e : LogEntry) : (State.addLog s e).sec = s.sec := (State.addLog_frame s e).2.2.2.2.2.2.2.2.2.2.2.2.2.2.2.2.2.2.2.2.2.2.2.2.2.2.2.2.2.2.2.2.2.2.2.1
@[simp] theorem State.addLog_boot (s : State) (e : LogEntry) : (State.addLog s e).boot = s.boot := (State.addLog_frame s e).2.2.2.2.2.2.2.2.2.2.2.2.2.2.2.2.2.2.2.2.2.2.2.2.2.2.2.2.2.2.2.2.2.2.2.2.1
@[simp] theorem State.addLog_regs (s : State) (e : LogEntry) : (State.addLog s e).regs = s.regs := (State.addLog_frame s e).2.2.2.2.2.2.2.2.2.2.2.2.2.2.2.2.2.2.2.2.2.2.2.2.2.2.2.2.2.2.2.2.2.2.2.2.2.1
@[simp] theorem State.addLog_sels (s : State) (e : LogEntry) : (State.addLog s e).sels = s.sels := (State.addLog_frame s e).2.2.2.2.2.2.2.2.2.2.2.2.2.2.2.2.2.2.2.2.2.2.2.2.2.2.2.2.2.2.2.2.2.2.2.2.2.2.1
@[simp] theorem State.addLog_halves (s : State) (e : LogEntry) : (State.addLog s e).halves = s.halves := (State.addLog_frame s e).2.2.2.2.2.2.2.2.2.2.2.2.2.2.2.2.2.2.2.2.2.2.2.2.2.2.2.2.2.2.2.2.2.2.2.2.2.2.2
@[simp] theorem State.addLog_cl (s : State) (e : LogEntry) (j_ : Nat) : (State.addLog s e).cl j_ = s.cl j_ := by simp only [State.cl_def, State.addLog_clusters]
@[simp] theorem State.addLog_part (s : State) (e : LogEntry) (j_ : Nat) : (State.addLog s e).part j_ = s.part j_ := by simp only [State.part_def, State.addLog_parts]
@[simp] theorem State.addLog_ctx (s : State) (e : LogEntry) (j_ : Nat) : (State.addLog s e).ctx j_ = s.ctx j_ := by simp only [State.ctx_def, State.addLog_ctxs]
@[simp] theorem State.addLog_qp (s : State) (e : LogEntry) (j_ : Nat) : (State.addLog s e).qp j_ = s.qp j_ := by simp only [State.qp_def, State.addLog_qps]
@[simp] theorem State.addLog_fn (s : State) (e : LogEntry) (j_ : Nat) : (State.addLog s e).fn j_ = s.fn j_ := by simp only [State.fn_def, State.addLog_fns]
@[simp] theorem State.addLog_link (s : State) (e : LogEntry) (j_ : Nat) : (State.addLog s e).link j_ = s.link j_ := by simp only [State.link_def, State.addLog_links]
@[simp] theorem State.addLog_port (s : State) (e : LogEntry) (j_ : Nat) : (State.addLog s e).port j_ = s.port j_ := by simp only [State.port_def, State.addLog_ports]
@[simp] theorem State.addLog_region (s : State) (e : LogEntry) (j_ : Nat) : (State.addLog s e).region j_ = s.region j_ := by simp only [State.region_def, State.addLog_regions]
@[simp] theorem State.addLog_domain (s : State) (e : LogEntry) (j_ : Nat) : (State.addLog s e).domain j_ = s.domain j_ := by simp only [State.domain_def, State.addLog_domains]
@[simp] theorem State.addLog_xing (s : State) (e : LogEntry) (j_ : Nat) : (State.addLog s e).xing j_ = s.xing j_ := by simp only [State.xing_def, State.addLog_xings]
@[simp] theorem State.addLog_hbm (s : State) (e : LogEntry) (j_ : Nat) : (State.addLog s e).hbm j_ = s.hbm j_ := by simp only [State.hbm_def, State.addLog_hbms]
@[simp] theorem State.addLog_cxl (s : State) (e : LogEntry) (j_ : Nat) : (State.addLog s e).cxl j_ = s.cxl j_ := by simp only [State.cxl_def, State.addLog_cxlPorts]
@[simp] theorem State.addLog_win (s : State) (e : LogEntry) (j_ : Nat) : (State.addLog s e).win j_ = s.win j_ := by simp only [State.win_def, State.addLog_windows]
@[simp] theorem State.addLog_core (s : State) (e : LogEntry) (j_ : Nat) : (State.addLog s e).core j_ = s.core j_ := by simp only [State.core_def, State.addLog_cores]
@[simp] theorem State.addLog_dirLine (s : State) (e : LogEntry) (j_ : Nat) : (State.addLog s e).dirLine j_ = s.dirLine j_ := by simp only [State.dirLine_def, State.addLog_dir]
@[simp] theorem State.addLog_page (s : State) (e : LogEntry) (j_ : Nat) : (State.addLog s e).page j_ = s.page j_ := by simp only [State.page_def, State.addLog_pages]
@[simp] theorem State.addLog_trow (s : State) (e : LogEntry) (c_ n_ : Nat) : (State.addLog s e).trow c_ n_ = s.trow c_ n_ := by simp only [State.trow_def, State.addLog_tarn]
@[simp] theorem State.addLog_rawByte (s : State) (e : LogEntry) (a_ : Nat) : (State.addLog s e).rawByte a_ = s.rawByte a_ := by simp only [State.rawByte_def, State.addLog_mem]
@[simp] theorem State.addLog_now (s : State) (e : LogEntry) : (State.addLog s e).now = s.now := by simp only [State.now_def, State.addLog_tb]
theorem State.note_frame (s : State) (code : Nat) (src : Source) :
    (State.note s code src).pending = s.pending ∧ (State.note s code src).fresh = s.fresh ∧ (State.note s code src).order = s.order ∧ (State.note s code src).variant36 = s.variant36 ∧ (State.note s code src).enabled = s.enabled ∧ (State.note s code src).clusters = s.clusters ∧ (State.note s code src).tarn = s.tarn ∧ (State.note s code src).mem = s.mem ∧ (State.note s code src).poison = s.poison ∧ (State.note s code src).pages = s.pages ∧ (State.note s code src).zeroRuns = s.zeroRuns ∧ (State.note s code src).regions = s.regions ∧ (State.note s code src).domains = s.domains ∧ (State.note s code src).xings = s.xings ∧ (State.note s code src).tb = s.tb ∧ (State.note s code src).net = s.net ∧ (State.note s code src).nextPkt = s.nextPkt ∧ (State.note s code src).routes = s.routes ∧ (State.note s code src).perimRoutes = s.perimRoutes ∧ (State.note s code src).fabLinks = s.fabLinks ∧ (State.note s code src).discards = s.discards ∧ (State.note s code src).ctxs = s.ctxs ∧ (State.note s code src).qps = s.qps ∧ (State.note s code src).fns = s.fns ∧ (State.note s code src).links = s.links ∧ (State.note s code src).ports = s.ports ∧ (State.note s code src).hbms = s.hbms ∧ (State.note s code src).cxlPorts = s.cxlPorts ∧ (State.note s code src).windows = s.windows ∧ (State.note s code src).dir = s.dir ∧ (State.note s code src).bpm = s.bpm ∧ (State.note s code src).cool = s.cool ∧ (State.note s code src).sec = s.sec ∧ (State.note s code src).boot = s.boot ∧ (State.note s code src).regs = s.regs ∧ (State.note s code src).sels = s.sels ∧ (State.note s code src).halves = s.halves := by
  generalize h_ : State.note s code src = t_
  unfold State.note at h_
  (try dsimp only at h_)
  (repeat' split at h_) <;> subst h_ <;> simp
@[simp] theorem State.note_pending (s : State) (code : Nat) (src : Source) : (State.note s code src).pending = s.pending := (State.note_frame s code src).1
@[simp] theorem State.note_fresh (s : State) (code : Nat) (src : Source) : (State.note s code src).fresh = s.fresh := (State.note_frame s code src).2.1
@[simp] theorem State.note_order (s : State) (code : Nat) (src : Source) : (State.note s code src).order = s.order := (State.note_frame s code src).2.2.1
@[simp] theorem State.note_variant36 (s : State) (code : Nat) (src : Source) : (State.note s code src).variant36 = s.variant36 := (State.note_frame s code src).2.2.2.1
@[simp] theorem State.note_enabled (s : State) (code : Nat) (src : Source) : (State.note s code src).enabled = s.enabled := (State.note_frame s code src).2.2.2.2.1
@[simp] theorem State.note_clusters (s : State) (code : Nat) (src : Source) : (State.note s code src).clusters = s.clusters := (State.note_frame s code src).2.2.2.2.2.1
@[simp] theorem State.note_tarn (s : State) (code : Nat) (src : Source) : (State.note s code src).tarn = s.tarn := (State.note_frame s code src).2.2.2.2.2.2.1
@[simp] theorem State.note_mem (s : State) (code : Nat) (src : Source) : (State.note s code src).mem = s.mem := (State.note_frame s code src).2.2.2.2.2.2.2.1
@[simp] theorem State.note_poison (s : State) (code : Nat) (src : Source) : (State.note s code src).poison = s.poison := (State.note_frame s code src).2.2.2.2.2.2.2.2.1
@[simp] theorem State.note_pages (s : State) (code : Nat) (src : Source) : (State.note s code src).pages = s.pages := (State.note_frame s code src).2.2.2.2.2.2.2.2.2.1
@[simp] theorem State.note_zeroRuns (s : State) (code : Nat) (src : Source) : (State.note s code src).zeroRuns = s.zeroRuns := (State.note_frame s code src).2.2.2.2.2.2.2.2.2.2.1
@[simp] theorem State.note_regions (s : State) (code : Nat) (src : Source) : (State.note s code src).regions = s.regions := (State.note_frame s code src).2.2.2.2.2.2.2.2.2.2.2.1
@[simp] theorem State.note_domains (s : State) (code : Nat) (src : Source) : (State.note s code src).domains = s.domains := (State.note_frame s code src).2.2.2.2.2.2.2.2.2.2.2.2.1
@[simp] theorem State.note_xings (s : State) (code : Nat) (src : Source) : (State.note s code src).xings = s.xings := (State.note_frame s code src).2.2.2.2.2.2.2.2.2.2.2.2.2.1
@[simp] theorem State.note_tb (s : State) (code : Nat) (src : Source) : (State.note s code src).tb = s.tb := (State.note_frame s code src).2.2.2.2.2.2.2.2.2.2.2.2.2.2.1
@[simp] theorem State.note_net (s : State) (code : Nat) (src : Source) : (State.note s code src).net = s.net := (State.note_frame s code src).2.2.2.2.2.2.2.2.2.2.2.2.2.2.2.1
@[simp] theorem State.note_nextPkt (s : State) (code : Nat) (src : Source) : (State.note s code src).nextPkt = s.nextPkt := (State.note_frame s code src).2.2.2.2.2.2.2.2.2.2.2.2.2.2.2.2.1
@[simp] theorem State.note_routes (s : State) (code : Nat) (src : Source) : (State.note s code src).routes = s.routes := (State.note_frame s code src).2.2.2.2.2.2.2.2.2.2.2.2.2.2.2.2.2.1
@[simp] theorem State.note_perimRoutes (s : State) (code : Nat) (src : Source) : (State.note s code src).perimRoutes = s.perimRoutes := (State.note_frame s code src).2.2.2.2.2.2.2.2.2.2.2.2.2.2.2.2.2.2.1
@[simp] theorem State.note_fabLinks (s : State) (code : Nat) (src : Source) : (State.note s code src).fabLinks = s.fabLinks := (State.note_frame s code src).2.2.2.2.2.2.2.2.2.2.2.2.2.2.2.2.2.2.2.1
@[simp] theorem State.note_discards (s : State) (code : Nat) (src : Source) : (State.note s code src).discards = s.discards := (State.note_frame s code src).2.2.2.2.2.2.2.2.2.2.2.2.2.2.2.2.2.2.2.2.1
@[simp] theorem State.note_ctxs (s : State) (code : Nat) (src : Source) : (State.note s code src).ctxs = s.ctxs := (State.note_frame s code src).2.2.2.2.2.2.2.2.2.2.2.2.2.2.2.2.2.2.2.2.2.1
@[simp] theorem State.note_qps (s : State) (code : Nat) (src : Source) : (State.note s code src).qps = s.qps := (State.note_frame s code src).2.2.2.2.2.2.2.2.2.2.2.2.2.2.2.2.2.2.2.2.2.2.1
@[simp] theorem State.note_fns (s : State) (code : Nat) (src : Source) : (State.note s code src).fns = s.fns := (State.note_frame s code src).2.2.2.2.2.2.2.2.2.2.2.2.2.2.2.2.2.2.2.2.2.2.2.1
@[simp] theorem State.note_links (s : State) (code : Nat) (src : Source) : (State.note s code src).links = s.links := (State.note_frame s code src).2.2.2.2.2.2.2.2.2.2.2.2.2.2.2.2.2.2.2.2.2.2.2.2.1
@[simp] theorem State.note_ports (s : State) (code : Nat) (src : Source) : (State.note s code src).ports = s.ports := (State.note_frame s code src).2.2.2.2.2.2.2.2.2.2.2.2.2.2.2.2.2.2.2.2.2.2.2.2.2.1
@[simp] theorem State.note_hbms (s : State) (code : Nat) (src : Source) : (State.note s code src).hbms = s.hbms := (State.note_frame s code src).2.2.2.2.2.2.2.2.2.2.2.2.2.2.2.2.2.2.2.2.2.2.2.2.2.2.1
@[simp] theorem State.note_cxlPorts (s : State) (code : Nat) (src : Source) : (State.note s code src).cxlPorts = s.cxlPorts := (State.note_frame s code src).2.2.2.2.2.2.2.2.2.2.2.2.2.2.2.2.2.2.2.2.2.2.2.2.2.2.2.1
@[simp] theorem State.note_windows (s : State) (code : Nat) (src : Source) : (State.note s code src).windows = s.windows := (State.note_frame s code src).2.2.2.2.2.2.2.2.2.2.2.2.2.2.2.2.2.2.2.2.2.2.2.2.2.2.2.2.1
@[simp] theorem State.note_dir (s : State) (code : Nat) (src : Source) : (State.note s code src).dir = s.dir := (State.note_frame s code src).2.2.2.2.2.2.2.2.2.2.2.2.2.2.2.2.2.2.2.2.2.2.2.2.2.2.2.2.2.1
@[simp] theorem State.note_bpm (s : State) (code : Nat) (src : Source) : (State.note s code src).bpm = s.bpm := (State.note_frame s code src).2.2.2.2.2.2.2.2.2.2.2.2.2.2.2.2.2.2.2.2.2.2.2.2.2.2.2.2.2.2.1
@[simp] theorem State.note_cool (s : State) (code : Nat) (src : Source) : (State.note s code src).cool = s.cool := (State.note_frame s code src).2.2.2.2.2.2.2.2.2.2.2.2.2.2.2.2.2.2.2.2.2.2.2.2.2.2.2.2.2.2.2.1
@[simp] theorem State.note_sec (s : State) (code : Nat) (src : Source) : (State.note s code src).sec = s.sec := (State.note_frame s code src).2.2.2.2.2.2.2.2.2.2.2.2.2.2.2.2.2.2.2.2.2.2.2.2.2.2.2.2.2.2.2.2.1
@[simp] theorem State.note_boot (s : State) (code : Nat) (src : Source) : (State.note s code src).boot = s.boot := (State.note_frame s code src).2.2.2.2.2.2.2.2.2.2.2.2.2.2.2.2.2.2.2.2.2.2.2.2.2.2.2.2.2.2.2.2.2.1
@[simp] theorem State.note_regs (s : State) (code : Nat) (src : Source) : (State.note s code src).regs = s.regs := (State.note_frame s code src).2.2.2.2.2.2.2.2.2.2.2.2.2.2.2.2.2.2.2.2.2.2.2.2.2.2.2.2.2.2.2.2.2.2.1
@[simp] theorem State.note_sels (s : State) (code : Nat) (src : Source) : (State.note s code src).sels = s.sels := (State.note_frame s code src).2.2.2.2.2.2.2.2.2.2.2.2.2.2.2.2.2.2.2.2.2.2.2.2.2.2.2.2.2.2.2.2.2.2.2.1
@[simp] theorem State.note_halves (s : State) (code : Nat) (src : Source) : (State.note s code src).halves = s.halves := (State.note_frame s code src).2.2.2.2.2.2.2.2.2.2.2.2.2.2.2.2.2.2.2.2.2.2.2.2.2.2.2.2.2.2.2.2.2.2.2.2
@[simp] theorem State.note_cl (s : State) (code : Nat) (src : Source) (j_ : Nat) : (State.note s code src).cl j_ = s.cl j_ := by simp only [State.cl_def, State.note_clusters]
@[simp] theorem State.note_ctx (s : State) (code : Nat) (src : Source) (j_ : Nat) : (State.note s code src).ctx j_ = s.ctx j_ := by simp only [State.ctx_def, State.note_ctxs]
@[simp] theorem State.note_qp (s : State) (code : Nat) (src : Source) (j_ : Nat) : (State.note s code src).qp j_ = s.qp j_ := by simp only [State.qp_def, State.note_qps]
@[simp] theorem State.note_fn (s : State) (code : Nat) (src : Source) (j_ : Nat) : (State.note s code src).fn j_ = s.fn j_ := by simp only [State.fn_def, State.note_fns]
@[simp] theorem State.note_link (s : State) (code : Nat) (src : Source) (j_ : Nat) : (State.note s code src).link j_ = s.link j_ := by simp only [State.link_def, State.note_links]
@[simp] theorem State.note_port (s : State) (code : Nat) (src : Source) (j_ : Nat) : (State.note s code src).port j_ = s.port j_ := by simp only [State.port_def, State.note_ports]
@[simp] theorem State.note_region (s : State) (code : Nat) (src : Source) (j_ : Nat) : (State.note s code src).region j_ = s.region j_ := by simp only [State.region_def, State.note_regions]
@[simp] theorem State.note_domain (s : State) (code : Nat) (src : Source) (j_ : Nat) : (State.note s code src).domain j_ = s.domain j_ := by simp only [State.domain_def, State.note_domains]
@[simp] theorem State.note_xing (s : State) (code : Nat) (src : Source) (j_ : Nat) : (State.note s code src).xing j_ = s.xing j_ := by simp only [State.xing_def, State.note_xings]
@[simp] theorem State.note_hbm (s : State) (code : Nat) (src : Source) (j_ : Nat) : (State.note s code src).hbm j_ = s.hbm j_ := by simp only [State.hbm_def, State.note_hbms]
@[simp] theorem State.note_cxl (s : State) (code : Nat) (src : Source) (j_ : Nat) : (State.note s code src).cxl j_ = s.cxl j_ := by simp only [State.cxl_def, State.note_cxlPorts]
@[simp] theorem State.note_win (s : State) (code : Nat) (src : Source) (j_ : Nat) : (State.note s code src).win j_ = s.win j_ := by simp only [State.win_def, State.note_windows]
@[simp] theorem State.note_dirLine (s : State) (code : Nat) (src : Source) (j_ : Nat) : (State.note s code src).dirLine j_ = s.dirLine j_ := by simp only [State.dirLine_def, State.note_dir]
@[simp] theorem State.note_page (s : State) (code : Nat) (src : Source) (j_ : Nat) : (State.note s code src).page j_ = s.page j_ := by simp only [State.page_def, State.note_pages]
@[simp] theorem State.note_trow (s : State) (code : Nat) (src : Source) (c_ n_ : Nat) : (State.note s code src).trow c_ n_ = s.trow c_ n_ := by simp only [State.trow_def, State.note_tarn]
@[simp] theorem State.note_rawByte (s : State) (code : Nat) (src : Source) (a_ : Nat) : (State.note s code src).rawByte a_ = s.rawByte a_ := by simp only [State.rawByte_def, State.note_mem]
@[simp] theorem State.note_now (s : State) (code : Nat) (src : Source) : (State.note s code src).now = s.now := by simp only [State.now_def, State.note_tb]
theorem State.violation_frame (s : State) (input value : Nat) :
    (State.violation s input value).pending = s.pending ∧ (State.violation s input value).fresh = s.fresh ∧ (State.violation s input value).order = s.order ∧ (State.violation s input value).variant36 = s.variant36 ∧ (State.violation s input value).enabled = s.enabled ∧ (State.violation s input value).clusters = s.clusters ∧ (State.violation s input value).tarn = s.tarn ∧ (State.violation s input value).mem = s.mem ∧ (State.violation s input value).poison = s.poison ∧ (State.violation s input value).pages = s.pages ∧ (State.violation s input value).zeroRuns = s.zeroRuns ∧ (State.violation s input value).regions = s.regions ∧ (State.violation s input value).domains = s.domains ∧ (State.violation s input value).xings = s.xings ∧ (State.violation s input value).tb = s.tb ∧ (State.violation s input value).net = s.net ∧ (State.violation s input value).nextPkt = s.nextPkt ∧ (State.violation s input value).routes = s.routes ∧ (State.violation s input value).perimRoutes = s.perimRoutes ∧ (State.violation s input value).fabLinks = s.fabLinks ∧ (State.violation s input value).discards = s.discards ∧ (State.violation s input value).ctxs = s.ctxs ∧ (State.violation s input value).qps = s.qps ∧ (State.violation s input value).fns = s.fns ∧ (State.violation s input value).links = s.links ∧ (State.violation s input value).ports = s.ports ∧ (State.violation s input value).hbms = s.hbms ∧ (State.violation s input value).cxlPorts = s.cxlPorts ∧ (State.violation s input value).windows = s.windows ∧ (State.violation s input value).dir = s.dir ∧ (State.violation s input value).bpm = s.bpm ∧ (State.violation s input value).cool = s.cool ∧ (State.violation s input value).sec = s.sec ∧ (State.violation s input value).boot = s.boot ∧ (State.violation s input value).regs = s.regs ∧ (State.violation s input value).sels = s.sels ∧ (State.violation s input value).halves = s.halves := by
  generalize h_ : State.violation s input value = t_
  unfold State.violation at h_
  (try dsimp only at h_)
  (repeat' split at h_) <;> subst h_ <;> simp
@[simp] theorem State.violation_pending (s : State) (input value : Nat) : (State.violation s input value).pending = s.pending := (State.violation_frame s input value).1
@[simp] theorem State.violation_fresh (s : State) (input value : Nat) : (State.violation s input value).fresh = s.fresh := (State.violation_frame s input value).2.1
@[simp] theorem State.violation_order (s : State) (input value : Nat) : (State.violation s input value).order = s.order := (State.violation_frame s input value).2.2.1
@[simp] theorem State.violation_variant36 (s : State) (input value : Nat) : (State.violation s input value).variant36 = s.variant36 := (State.violation_frame s input value).2.2.2.1
@[simp] theorem State.violation_enabled (s : State) (input value : Nat) : (State.violation s input value).enabled = s.enabled := (State.violation_frame s input value).2.2.2.2.1
@[simp] theorem State.violation_clusters (s : State) (input value : Nat) : (State.violation s input value).clusters = s.clusters := (State.violation_frame s input value).2.2.2.2.2.1
@[simp] theorem State.violation_tarn (s : State) (input value : Nat) : (State.violation s input value).tarn = s.tarn := (State.violation_frame s input value).2.2.2.2.2.2.1
@[simp] theorem State.violation_mem (s : State) (input value : Nat) : (State.violation s input value).mem = s.mem := (State.violation_frame s input value).2.2.2.2.2.2.2.1
@[simp] theorem State.violation_poison (s : State) (input value : Nat) : (State.violation s input value).poison = s.poison := (State.violation_frame s input value).2.2.2.2.2.2.2.2.1
@[simp] theorem State.violation_pages (s : State) (input value : Nat) : (State.violation s input value).pages = s.pages := (State.violation_frame s input value).2.2.2.2.2.2.2.2.2.1
@[simp] theorem State.violation_zeroRuns (s : State) (input value : Nat) : (State.violation s input value).zeroRuns = s.zeroRuns := (State.violation_frame s input value).2.2.2.2.2.2.2.2.2.2.1
@[simp] theorem State.violation_regions (s : State) (input value : Nat) : (State.violation s input value).regions = s.regions := (State.violation_frame s input value).2.2.2.2.2.2.2.2.2.2.2.1
@[simp] theorem State.violation_domains (s : State) (input value : Nat) : (State.violation s input value).domains = s.domains := (State.violation_frame s input value).2.2.2.2.2.2.2.2.2.2.2.2.1
@[simp] theorem State.violation_xings (s : State) (input value : Nat) : (State.violation s input value).xings = s.xings := (State.violation_frame s input value).2.2.2.2.2.2.2.2.2.2.2.2.2.1
@[simp] theorem State.violation_tb (s : State) (input value : Nat) : (State.violation s input value).tb = s.tb := (State.violation_frame s input value).2.2.2.2.2.2.2.2.2.2.2.2.2.2.1
@[simp] theorem State.violation_net (s : State) (input value : Nat) : (State.violation s input value).net = s.net := (State.violation_frame s input value).2.2.2.2.2.2.2.2.2.2.2.2.2.2.2.1
@[simp] theorem State.violation_nextPkt (s : State) (input value : Nat) : (State.violation s input value).nextPkt = s.nextPkt := (State.violation_frame s input value).2.2.2.2.2.2.2.2.2.2.2.2.2.2.2.2.1
@[simp] theorem State.violation_routes (s : State) (input value : Nat) : (State.violation s input value).routes = s.routes := (State.violation_frame s input value).2.2.2.2.2.2.2.2.2.2.2.2.2.2.2.2.2.1
@[simp] theorem State.violation_perimRoutes (s : State) (input value : Nat) : (State.violation s input value).perimRoutes = s.perimRoutes := (State.violation_frame s input value).2.2.2.2.2.2.2.2.2.2.2.2.2.2.2.2.2.2.1
@[simp] theorem State.violation_fabLinks (s : State) (input value : Nat) : (State.violation s input value).fabLinks = s.fabLinks := (State.violation_frame s input value).2.2.2.2.2.2.2.2.2.2.2.2.2.2.2.2.2.2.2.1
@[simp] theorem State.violation_discards (s : State) (input value : Nat) : (State.violation s input value).discards = s.discards := (State.violation_frame s input value).2.2.2.2.2.2.2.2.2.2.2.2.2.2.2.2.2.2.2.2.1
@[simp] theorem State.violation_ctxs (s : State) (input value : Nat) : (State.violation s input value).ctxs = s.ctxs := (State.violation_frame s input value).2.2.2.2.2.2.2.2.2.2.2.2.2.2.2.2.2.2.2.2.2.1
@[simp] theorem State.violation_qps (s : State) (input value : Nat) : (State.violation s input value).qps = s.qps := (State.violation_frame s input value).2.2.2.2.2.2.2.2.2.2.2.2.2.2.2.2.2.2.2.2.2.2.1
@[simp] theorem State.violation_fns (s : State) (input value : Nat) : (State.violation s input value).fns = s.fns := (State.violation_frame s input value).2.2.2.2.2.2.2.2.2.2.2.2.2.2.2.2.2.2.2.2.2.2.2.1
@[simp] theorem State.violation_links (s : State) (input value : Nat) : (State.violation s input value).links = s.links := (State.violation_frame s input value).2.2.2.2.2.2.2.2.2.2.2.2.2.2.2.2.2.2.2.2.2.2.2.2.1
@[simp] theorem State.violation_ports (s : State) (input value : Nat) : (State.violation s input value).ports = s.ports := (State.violation_frame s input value).2.2.2.2.2.2.2.2.2.2.2.2.2.2.2.2.2.2.2.2.2.2.2.2.2.1
@[simp] theorem State.violation_hbms (s : State) (input value : Nat) : (State.violation s input value).hbms = s.hbms := (State.violation_frame s input value).2.2.2.2.2.2.2.2.2.2.2.2.2.2.2.2.2.2.2.2.2.2.2.2.2.2.1
@[simp] theorem State.violation_cxlPorts (s : State) (input value : Nat) : (State.violation s input value).cxlPorts = s.cxlPorts := (State.violation_frame s input value).2.2.2.2.2.2.2.2.2.2.2.2.2.2.2.2.2.2.2.2.2.2.2.2.2.2.2.1
@[simp] theorem State.violation_windows (s : State) (input value : Nat) : (State.violation s input value).windows = s.windows := (State.violation_frame s input value).2.2.2.2.2.2.2.2.2.2.2.2.2.2.2.2.2.2.2.2.2.2.2.2.2.2.2.2.1
@[simp] theorem State.violation_dir (s : State) (input value : Nat) : (State.violation s input value).dir = s.dir := (State.violation_frame s input value).2.2.2.2.2.2.2.2.2.2.2.2.2.2.2.2.2.2.2.2.2.2.2.2.2.2.2.2.2.1
@[simp] theorem State.violation_bpm (s : State) (input value : Nat) : (State.violation s input value).bpm = s.bpm := (State.violation_frame s input value).2.2.2.2.2.2.2.2.2.2.2.2.2.2.2.2.2.2.2.2.2.2.2.2.2.2.2.2.2.2.1
@[simp] theorem State.violation_cool (s : State) (input value : Nat) : (State.violation s input value).cool = s.cool := (State.violation_frame s input value).2.2.2.2.2.2.2.2.2.2.2.2.2.2.2.2.2.2.2.2.2.2.2.2.2.2.2.2.2.2.2.1
@[simp] theorem State.violation_sec (s : State) (input value : Nat) : (State.violation s input value).sec = s.sec := (State.violation_frame s input value).2.2.2.2.2.2.2.2.2.2.2.2.2.2.2.2.2.2.2.2.2.2.2.2.2.2.2.2.2.2.2.2.1
@[simp] theorem State.violation_boot (s : State) (input value : Nat) : (State.violation s input value).boot = s.boot := (State.violation_frame s input value).2.2.2.2.2.2.2.2.2.2.2.2.2.2.2.2.2.2.2.2.2.2.2.2.2.2.2.2.2.2.2.2.2.1
@[simp] theorem State.violation_regs (s : State) (input value : Nat) : (State.violation s input value).regs = s.regs := (State.violation_frame s input value).2.2.2.2.2.2.2.2.2.2.2.2.2.2.2.2.2.2.2.2.2.2.2.2.2.2.2.2.2.2.2.2.2.2.1
@[simp] theorem State.violation_sels (s : State) (input value : Nat) : (State.violation s input value).sels = s.sels := (State.violation_frame s input value).2.2.2.2.2.2.2.2.2.2.2.2.2.2.2.2.2.2.2.2.2.2.2.2.2.2.2.2.2.2.2.2.2.2.2.1
@[simp] theorem State.violation_halves (s : State) (input value : Nat) : (State.violation s input value).halves = s.halves := (State.violation_frame s input value).2.2.2.2.2.2.2.2.2.2.2.2.2.2.2.2.2.2.2.2.2.2.2.2.2.2.2.2.2.2.2.2.2.2.2.2
@[simp] theorem State.violation_cl (s : State) (input value : Nat) (j_ : Nat) : (State.violation s input value).cl j_ = s.cl j_ := by simp only [State.cl_def, State.violation_clusters]
@[simp] theorem State.violation_ctx (s : State) (input value : Nat) (j_ : Nat) : (State.violation s input value).ctx j_ = s.ctx j_ := by simp only [State.ctx_def, State.violation_ctxs]
@[simp] theorem State.violation_qp (s : State) (input value : Nat) (j_ : Nat) : (State.violation s input value).qp j_ = s.qp j_ := by simp only [State.qp_def, State.violation_qps]
@[simp] theorem State.violation_fn (s : State) (input value : Nat) (j_ : Nat) : (State.violation s input value).fn j_ = s.fn j_ := by simp only [State.fn_def, State.violation_fns]
@[simp] theorem State.violation_link (s : State) (input value : Nat) (j_ : Nat) : (State.violation s input value).link j_ = s.link j_ := by simp only [State.link_def, State.violation_links]
@[simp] theorem State.violation_port (s : State) (input value : Nat) (j_ : Nat) : (State.violation s input value).port j_ = s.port j_ := by simp only [State.port_def, State.violation_ports]
@[simp] theorem State.violation_region (s : State) (input value : Nat) (j_ : Nat) : (State.violation s input value).region j_ = s.region j_ := by simp only [State.region_def, State.violation_regions]
@[simp] theorem State.violation_domain (s : State) (input value : Nat) (j_ : Nat) : (State.violation s input value).domain j_ = s.domain j_ := by simp only [State.domain_def, State.violation_domains]
@[simp] theorem State.violation_xing (s : State) (input value : Nat) (j_ : Nat) : (State.violation s input value).xing j_ = s.xing j_ := by simp only [State.xing_def, State.violation_xings]
@[simp] theorem State.violation_hbm (s : State) (input value : Nat) (j_ : Nat) : (State.violation s input value).hbm j_ = s.hbm j_ := by simp only [State.hbm_def, State.violation_hbms]
@[simp] theorem State.violation_cxl (s : State) (input value : Nat) (j_ : Nat) : (State.violation s input value).cxl j_ = s.cxl j_ := by simp only [State.cxl_def, State.violation_cxlPorts]
@[simp] theorem State.violation_win (s : State) (input value : Nat) (j_ : Nat) : (State.violation s input value).win j_ = s.win j_ := by simp only [State.win_def, State.violation_windows]
@[simp] theorem State.violation_dirLine (s : State) (input value : Nat) (j_ : Nat) : (State.violation s input value).dirLine j_ = s.dirLine j_ := by simp only [State.dirLine_def, State.violation_dir]
@[simp] theorem State.violation_page (s : State) (input value : Nat) (j_ : Nat) : (State.violation s input value).page j_ = s.page j_ := by simp only [State.page_def, State.violation_pages]
@[simp] theorem State.violation_trow (s : State) (input value : Nat) (c_ n_ : Nat) : (State.violation s input value).trow c_ n_ = s.trow c_ n_ := by simp only [State.trow_def, State.violation_tarn]
@[simp] theorem State.violation_rawByte (s : State) (input value : Nat) (a_ : Nat) : (State.violation s input value).rawByte a_ = s.rawByte a_ := by simp only [State.rawByte_def, State.violation_mem]
@[simp] theorem State.violation_now (s : State) (input value : Nat) : (State.violation s input value).now = s.now := by simp only [State.now_def, State.violation_tb]
theorem State.record_frame (s : State) (p x units : Nat) (body : JRec) :
    (State.record s p x units body).pending = s.pending ∧ (State.record s p x units body).fresh = s.fresh ∧ (State.record s p x units body).order = s.order ∧ (State.record s p x units body).variant36 = s.variant36 ∧ (State.record s p x units body).enabled = s.enabled ∧ (State.record s p x units body).clusters = s.clusters ∧ (State.record s p x units body).tarn = s.tarn ∧ (State.record s p x units body).mem = s.mem ∧ (State.record s p x units body).poison = s.poison ∧ (State.record s p x units body).pages = s.pages ∧ (State.record s p x units body).zeroRuns = s.zeroRuns ∧ (State.record s p x units body).regions = s.regions ∧ (State.record s p x units body).domains = s.domains ∧ (State.record s p x units body).xings = s.xings ∧ (State.record s p x units body).tb = s.tb ∧ (State.record s p x units body).net = s.net ∧ (State.record s p x units body).nextPkt = s.nextPkt ∧ (State.record s p x units body).routes = s.routes ∧ (State.record s p x units body).perimRoutes = s.perimRoutes ∧ (State.record s p x units body).fabLinks = s.fabLinks ∧ (State.record s p x units body).discards = s.discards ∧ (State.record s p x units body).ctxs = s.ctxs ∧ (State.record s p x units body).qps = s.qps ∧ (State.record s p x units body).fns = s.fns ∧ (State.record s p x units body).links = s.links ∧ (State.record s p x units body).ports = s.ports ∧ (State.record s p x units body).hbms = s.hbms ∧ (State.record s p x units body).cxlPorts = s.cxlPorts ∧ (State.record s p x units body).windows = s.windows ∧ (State.record s p x units body).dir = s.dir ∧ (State.record s p x units body).bpm = s.bpm ∧ (State.record s p x units body).cool = s.cool ∧ (State.record s p x units body).sec = s.sec ∧ (State.record s p x units body).boot = s.boot ∧ (State.record s p x units body).regs = s.regs ∧ (State.record s p x units body).sels = s.sels ∧ (State.record s p x units body).halves = s.halves := by
  generalize h_ : State.record s p x units body = t_
  unfold State.record at h_
  (try dsimp only at h_)
  (repeat' split at h_) <;> subst h_ <;> simp
@[simp] theorem State.record_pending (s : State) (p x units : Nat) (body : JRec) : (State.record s p x units body).pending = s.pending := (State.record_frame s p x units body).1
@[simp] theorem State.record_fresh (s : State) (p x units : Nat) (body : JRec) : (State.record s p x units body).fresh = s.fresh := (State.record_frame s p x units body).2.1
@[simp] theorem State.record_order (s : State) (p x units : Nat) (body : JRec) : (State.record s p x units body).order = s.order := (State.record_frame s p x units body).2.2.1
@[simp] theorem State.record_variant36 (s : State) (p x units : Nat) (body : JRec) : (State.record s p x units body).variant36 = s.variant36 := (State.record_frame s p x units body).2.2.2.1
@[simp] theorem State.record_enabled (s : State) (p x units : Nat) (body : JRec) : (State.record s p x units body).enabled = s.enabled := (State.record_frame s p x units body).2.2.2.2.1
@[simp] theorem State.record_clusters (s : State) (p x units : Nat) (body : JRec) : (State.record s p x units body).clusters = s.clusters := (State.record_frame s p x units body).2.2.2.2.2.1
@[simp] theorem State.record_tarn (s : State) (p x units : Nat) (body : JRec) : (State.record s p x units body).tarn = s.tarn := (State.record_frame s p x units body).2.2.2.2.2.2.1
@[simp] theorem State.record_mem (s : State) (p x units : Nat) (body : JRec) : (State.record s p x units body).mem = s.mem := (State.record_frame s p x units body).2.2.2.2.2.2.2.1
@[simp] theorem State.record_poison (s : State) (p x units : Nat) (body : JRec) : (State.record s p x units body).poison = s.poison := (State.record_frame s p x units body).2.2.2.2.2.2.2.2.1
@[simp] theorem State.record_pages (s : State) (p x units : Nat) (body : JRec) : (State.record s p x units body).pages = s.pages := (State.record_frame s p x units body).2.2.2.2.2.2.2.2.2.1
@[simp] theorem State.record_zeroRuns (s : State) (p x units : Nat) (body : JRec) : (State.record s p x units body).zeroRuns = s.zeroRuns := (State.record_frame s p x units body).2.2.2.2.2.2.2.2.2.2.1
@[simp] theorem State.record_regions (s : State) (p x units : Nat) (body : JRec) : (State.record s p x units body).regions = s.regions := (State.record_frame s p x units body).2.2.2.2.2.2.2.2.2.2.2.1
@[simp] theorem State.record_domains (s : State) (p x units : Nat) (body : JRec) : (State.record s p x units body).domains = s.domains := (State.record_frame s p x units body).2.2.2.2.2.2.2.2.2.2.2.2.1
@[simp] theorem State.record_xings (s : State) (p x units : Nat) (body : JRec) : (State.record s p x units body).xings = s.xings := (State.record_frame s p x units body).2.2.2.2.2.2.2.2.2.2.2.2.2.1
@[simp] theorem State.record_tb (s : State) (p x units : Nat) (body : JRec) : (State.record s p x units body).tb = s.tb := (State.record_frame s p x units body).2.2.2.2.2.2.2.2.2.2.2.2.2.2.1
@[simp] theorem State.record_net (s : State) (p x units : Nat) (body : JRec) : (State.record s p x units body).net = s.net := (State.record_frame s p x units body).2.2.2.2.2.2.2.2.2.2.2.2.2.2.2.1
@[simp] theorem State.record_nextPkt (s : State) (p x units : Nat) (body : JRec) : (State.record s p x units body).nextPkt = s.nextPkt := (State.record_frame s p x units body).2.2.2.2.2.2.2.2.2.2.2.2.2.2.2.2.1
@[simp] theorem State.record_routes (s : State) (p x units : Nat) (body : JRec) : (State.record s p x units body).routes = s.routes := (State.record_frame s p x units body).2.2.2.2.2.2.2.2.2.2.2.2.2.2.2.2.2.1
@[simp] theorem State.record_perimRoutes (s : State) (p x units : Nat) (body : JRec) : (State.record s p x units body).perimRoutes = s.perimRoutes := (State.record_frame s p x units body).2.2.2.2.2.2.2.2.2.2.2.2.2.2.2.2.2.2.1
@[simp] theorem State.record_fabLinks (s : State) (p x units : Nat) (body : JRec) : (State.record s p x units body).fabLinks = s.fabLinks := (State.record_frame s p x units body).2.2.2.2.2.2.2.2.2.2.2.2.2.2.2.2.2.2.2.1
@[simp] theorem State.record_discards (s : State) (p x units : Nat) (body : JRec) : (State.record s p x units body).discards = s.discards := (State.record_frame s p x units body).2.2.2.2.2.2.2.2.2.2.2.2.2.2.2.2.2.2.2.2.1
@[simp] theorem State.record_ctxs (s : State) (p x units : Nat) (body : JRec) : (State.record s p x units body).ctxs = s.ctxs := (State.record_frame s p x units body).2.2.2.2.2.2.2.2.2.2.2.2.2.2.2.2.2.2.2.2.2.1
@[simp] theorem State.record_qps (s : State) (p x units : Nat) (body : JRec) : (State.record s p x units body).qps = s.qps := (State.record_frame s p x units body).2.2.2.2.2.2.2.2.2.2.2.2.2.2.2.2.2.2.2.2.2.2.1
@[simp] theorem State.record_fns (s : State) (p x units : Nat) (body : JRec) : (State.record s p x units body).fns = s.fns := (State.record_frame s p x units body).2.2.2.2.2.2.2.2.2.2.2.2.2.2.2.2.2.2.2.2.2.2.2.1
@[simp] theorem State.record_links (s : State) (p x units : Nat) (body : JRec) : (State.record s p x units body).links = s.links := (State.record_frame s p x units body).2.2.2.2.2.2.2.2.2.2.2.2.2.2.2.2.2.2.2.2.2.2.2.2.1
@[simp] theorem State.record_ports (s : State) (p x units : Nat) (body : JRec) : (State.record s p x units body).ports = s.ports := (State.record_frame s p x units body).2.2.2.2.2.2.2.2.2.2.2.2.2.2.2.2.2.2.2.2.2.2.2.2.2.1
@[simp] theorem State.record_hbms (s : State) (p x units : Nat) (body : JRec) : (State.record s p x units body).hbms = s.hbms := (State.record_frame s p x units body).2.2.2.2.2.2.2.2.2.2.2.2.2.2.2.2.2.2.2.2.2.2.2.2.2.2.1
@[simp] theorem State.record_cxlPorts (s : State) (p x units : Nat) (body : JRec) : (State.record s p x units body).cxlPorts = s.cxlPorts := (State.record_frame s p x units body).2.2.2.2.2.2.2.2.2.2.2.2.2.2.2.2.2.2.2.2.2.2.2.2.2.2.2.1
@[simp] theorem State.record_windows (s : State) (p x units : Nat) (body : JRec) : (State.record s p x units body).windows = s.windows := (State.record_frame s p x units body).2.2.2.2.2.2.2.2.2.2.2.2.2.2.2.2.2.2.2.2.2.2.2.2.2.2.2.2.1
@[simp] theorem State.record_dir (s : State) (p x units : Nat) (body : JRec) : (State.record s p x units body).dir = s.dir := (State.record_frame s p x units body).2.2.2.2.2.2.2.2.2.2.2.2.2.2.2.2.2.2.2.2.2.2.2.2.2.2.2.2.2.1
@[simp] theorem State.record_bpm (s : State) (p x units : Nat) (body : JRec) : (State.record s p x units body).bpm = s.bpm := (State.record_frame s p x units body).2.2.2.2.2.2.2.2.2.2.2.2.2.2.2.2.2.2.2.2.2.2.2.2.2.2.2.2.2.2.1
@[simp] theorem State.record_cool (s : State) (p x units : Nat) (body : JRec) : (State.record s p x units body).cool = s.cool := (State.record_frame s p x units body).2.2.2.2.2.2.2.2.2.2.2.2.2.2.2.2.2.2.2.2.2.2.2.2.2.2.2.2.2.2.2.1
@[simp] theorem State.record_sec (s : State) (p x units : Nat) (body : JRec) : (State.record s p x units body).sec = s.sec := (State.record_frame s p x units body).2.2.2.2.2.2.2.2.2.2.2.2.2.2.2.2.2.2.2.2.2.2.2.2.2.2.2.2.2.2.2.2.1
@[simp] theorem State.record_boot (s : State) (p x units : Nat) (body : JRec) : (State.record s p x units body).boot = s.boot := (State.record_frame s p x units body).2.2.2.2.2.2.2.2.2.2.2.2.2.2.2.2.2.2.2.2.2.2.2.2.2.2.2.2.2.2.2.2.2.1
@[simp] theorem State.record_regs (s : State) (p x units : Nat) (body : JRec) : (State.record s p x units body).regs = s.regs := (State.record_frame s p x units body).2.2.2.2.2.2.2.2.2.2.2.2.2.2.2.2.2.2.2.2.2.2.2.2.2.2.2.2.2.2.2.2.2.2.1
@[simp] theorem State.record_sels (s : State) (p x units : Nat) (body : JRec) : (State.record s p x units body).sels = s.sels := (State.record_frame s p x units body).2.2.2.2.2.2.2.2.2.2.2.2.2.2.2.2.2.2.2.2.2.2.2.2.2.2.2.2.2.2.2.2.2.2.2.1
@[simp] theorem State.record_halves (s : State) (p x units : Nat) (body : JRec) : (State.record s p x units body).halves = s.halves := (State.record_frame s p x units body).2.2.2.2.2.2.2.2.2.2.2.2.2.2.2.2.2.2.2.2.2.2.2.2.2.2.2.2.2.2.2.2.2.2.2.2
@[simp] theorem State.record_cl (s : State) (p x units : Nat) (body : JRec) (j_ : Nat) : (State.record s p x units body).cl j_ = s.cl j_ := by simp only [State.cl_def, State.record_clusters]
@[simp] theorem State.record_ctx (s : State) (p x units : Nat) (body : JRec) (j_ : Nat) : (State.record s p x units body).ctx j_ = s.ctx j_ := by simp only [State.ctx_def, State.record_ctxs]
@[simp] theorem State.record_qp (s : State) (p x units : Nat) (body : JRec) (j_ : Nat) : (State.record s p x units body).qp j_ = s.qp j_ := by simp only [State.qp_def, State.record_qps]
@[simp] theorem State.record_fn (s : State) (p x units : Nat) (body : JRec) (j_ : Nat) : (State.record s p x units body).fn j_ = s.fn j_ := by simp only [State.fn_def, State.record_fns]
@[simp] theorem State.record_link (s : State) (p x units : Nat) (body : JRec) (j_ : Nat) : (State.record s p x units body).link j_ = s.link j_ := by simp only [State.link_def, State.record_links]
@[simp] theorem State.record_port (s : State) (p x units : Nat) (body : JRec) (j_ : Nat) : (State.record s p x units body).port j_ = s.port j_ := by simp only [State.port_def, State.record_ports]
@[simp] theorem State.record_region (s : State) (p x units : Nat) (body : JRec) (j_ : Nat) : (State.record s p x units body).region j_ = s.region j_ := by simp only [State.region_def, State.record_regions]
@[simp] theorem State.record_domain (s : State) (p x units : Nat) (body : JRec) (j_ : Nat) : (State.record s p x units body).domain j_ = s.domain j_ := by simp only [State.domain_def, State.record_domains]
@[simp] theorem State.record_xing (s : State) (p x units : Nat) (body : JRec) (j_ : Nat) : (State.record s p x units body).xing j_ = s.xing j_ := by simp only [State.xing_def, State.record_xings]
@[simp] theorem State.record_hbm (s : State) (p x units : Nat) (body : JRec) (j_ : Nat) : (State.record s p x units body).hbm j_ = s.hbm j_ := by simp only [State.hbm_def, State.record_hbms]
@[simp] theorem State.record_cxl (s : State) (p x units : Nat) (body : JRec) (j_ : Nat) : (State.record s p x units body).cxl j_ = s.cxl j_ := by simp only [State.cxl_def, State.record_cxlPorts]
@[simp] theorem State.record_win (s : State) (p x units : Nat) (body : JRec) (j_ : Nat) : (State.record s p x units body).win j_ = s.win j_ := by simp only [State.win_def, State.record_windows]
@[simp] theorem State.record_dirLine (s : State) (p x units : Nat) (body : JRec) (j_ : Nat) : (State.record s p x units body).dirLine j_ = s.dirLine j_ := by simp only [State.dirLine_def, State.record_dir]
@[simp] theorem State.record_page (s : State) (p x units : Nat) (body : JRec) (j_ : Nat) : (State.record s p x units body).page j_ = s.page j_ := by simp only [State.page_def, State.record_pages]
@[simp] theorem State.record_trow (s : State) (p x units : Nat) (body : JRec) (c_ n_ : Nat) : (State.record s p x units body).trow c_ n_ = s.trow c_ n_ := by simp only [State.trow_def, State.record_tarn]
@[simp] theorem State.record_rawByte (s : State) (p x units : Nat) (body : JRec) (a_ : Nat) : (State.record s p x units body).rawByte a_ = s.rawByte a_ := by simp only [State.rawByte_def, State.record_mem]
@[simp] theorem State.record_now (s : State) (p x units : Nat) (body : JRec) : (State.record s p x units body).now = s.now := by simp only [State.now_def, State.record_tb]
theorem State.preImage_frame (s : State) (g : Nat) :
    (State.preImage s g).pending = s.pending ∧ (State.preImage s g).fresh = s.fresh ∧ (State.preImage s g).order = s.order ∧ (State.preImage s g).variant36 = s.variant36 ∧ (State.preImage s g).enabled = s.enabled ∧ (State.preImage s g).clusters = s.clusters ∧ (State.preImage s g).tarn = s.tarn ∧ (State.preImage s g).mem = s.mem ∧ (State.preImage s g).poison = s.poison ∧ (State.preImage s g).pages = s.pages ∧ (State.preImage s g).zeroRuns = s.zeroRuns ∧ (State.preImage s g).regions = s.regions ∧ (State.preImage s g).domains = s.domains ∧ (State.preImage s g).xings = s.xings ∧ (State.preImage s g).tb = s.tb ∧ (State.preImage s g).net = s.net ∧ (State.preImage s g).nextPkt = s.nextPkt ∧ (State.preImage s g).routes = s.routes ∧ (State.preImage s g).perimRoutes = s.perimRoutes ∧ (State.preImage s g).fabLinks = s.fabLinks ∧ (State.preImage s g).discards = s.discards ∧ (State.preImage s g).qps = s.qps ∧ (State.preImage s g).fns = s.fns ∧ (State.preImage s g).links = s.links ∧ (State.preImage s g).ports = s.ports ∧ (State.preImage s g).hbms = s.hbms ∧ (State.preImage s g).cxlPorts = s.cxlPorts ∧ (State.preImage s g).windows = s.windows ∧ (State.preImage s g).dir = s.dir ∧ (State.preImage s g).bpm = s.bpm ∧ (State.preImage s g).cool = s.cool ∧ (State.preImage s g).sec = s.sec ∧ (State.preImage s g).boot = s.boot ∧ (State.preImage s g).regs = s.regs ∧ (State.preImage s g).sels = s.sels ∧ (State.preImage s g).halves = s.halves := by
  generalize h_ : State.preImage s g = t_
  unfold State.preImage at h_
  (try dsimp only at h_)
  (repeat' split at h_) <;> subst h_ <;> simp
@[simp] theorem State.preImage_pending (s : State) (g : Nat) : (State.preImage s g).pending = s.pending := (State.preImage_frame s g).1
@[simp] theorem State.preImage_fresh (s : State) (g : Nat) : (State.preImage s g).fresh = s.fresh := (State.preImage_frame s g).2.1
@[simp] theorem State.preImage_order (s : State) (g : Nat) : (State.preImage s g).order = s.order := (State.preImage_frame s g).2.2.1
@[simp] theorem State.preImage_variant36 (s : State) (g : Nat) : (State.preImage s g).variant36 = s.variant36 := (State.preImage_frame s g).2.2.2.1
@[simp] theorem State.preImage_enabled (s : State) (g : Nat) : (State.preImage s g).enabled = s.enabled := (State.preImage_frame s g).2.2.2.2.1
@[simp] theorem State.preImage_clusters (s : State) (g : Nat) : (State.preImage s g).clusters = s.clusters := (State.preImage_frame s g).2.2.2.2.2.1
@[simp] theorem State.preImage_tarn (s : State) (g : Nat) : (State.preImage s g).tarn = s.tarn := (State.preImage_frame s g).2.2.2.2.2.2.1
@[simp] theorem State.preImage_mem (s : State) (g : Nat) : (State.preImage s g).mem = s.mem := (State.preImage_frame s g).2.2.2.2.2.2.2.1
@[simp] theorem State.preImage_poison (s : State) (g : Nat) : (State.preImage s g).poison = s.poison := (State.preImage_frame s g).2.2.2.2.2.2.2.2.1
@[simp] theorem State.preImage_pages (s : State) (g : Nat) : (State.preImage s g).pages = s.pages := (State.preImage_frame s g).2.2.2.2.2.2.2.2.2.1
@[simp] theorem State.preImage_zeroRuns (s : State) (g : Nat) : (State.preImage s g).zeroRuns = s.zeroRuns := (State.preImage_frame s g).2.2.2.2.2.2.2.2.2.2.1
@[simp] theorem State.preImage_regions (s : State) (g : Nat) : (State.preImage s g).regions = s.regions := (State.preImage_frame s g).2.2.2.2.2.2.2.2.2.2.2.1
@[simp] theorem State.preImage_domains (s : State) (g : Nat) : (State.preImage s g).domains = s.domains := (State.preImage_frame s g).2.2.2.2.2.2.2.2.2.2.2.2.1
@[simp] theorem State.preImage_xings (s : State) (g : Nat) : (State.preImage s g).xings = s.xings := (State.preImage_frame s g).2.2.2.2.2.2.2.2.2.2.2.2.2.1
@[simp] theorem State.preImage_tb (s : State) (g : Nat) : (State.preImage s g).tb = s.tb := (State.preImage_frame s g).2.2.2.2.2.2.2.2.2.2.2.2.2.2.1
@[simp] theorem State.preImage_net (s : State) (g : Nat) : (State.preImage s g).net = s.net := (State.preImage_frame s g).2.2.2.2.2.2.2.2.2.2.2.2.2.2.2.1
@[simp] theorem State.preImage_nextPkt (s : State) (g : Nat) : (State.preImage s g).nextPkt = s.nextPkt := (State.preImage_frame s g).2.2.2.2.2.2.2.2.2.2.2.2.2.2.2.2.1
@[simp] theorem State.preImage_routes (s : State) (g : Nat) : (State.preImage s g).routes = s.routes := (State.preImage_frame s g).2.2.2.2.2.2.2.2.2.2.2.2.2.2.2.2.2.1
@[simp] theorem State.preImage_perimRoutes (s : State) (g : Nat) : (State.preImage s g).perimRoutes = s.perimRoutes := (State.preImage_frame s g).2.2.2.2.2.2.2.2.2.2.2.2.2.2.2.2.2.2.1
@[simp] theorem State.preImage_fabLinks (s : State) (g : Nat) : (State.preImage s g).fabLinks = s.fabLinks := (State.preImage_frame s g).2.2.2.2.2.2.2.2.2.2.2.2.2.2.2.2.2.2.2.1
@[simp] theorem State.preImage_discards (s : State) (g : Nat) : (State.preImage s g).discards = s.discards := (State.preImage_frame s g).2.2.2.2.2.2.2.2.2.2.2.2.2.2.2.2.2.2.2.2.1
@[simp] theorem State.preImage_qps (s : State) (g : Nat) : (State.preImage s g).qps = s.qps := (State.preImage_frame s g).2.2.2.2.2.2.2.2.2.2.2.2.2.2.2.2.2.2.2.2.2.1
@[simp] theorem State.preImage_fns (s : State) (g : Nat) : (State.preImage s g).fns = s.fns := (State.preImage_frame s g).2.2.2.2.2.2.2.2.2.2.2.2.2.2.2.2.2.2.2.2.2.2.1
@[simp] theorem State.preImage_links (s : State) (g : Nat) : (State.preImage s g).links = s.links := (State.preImage_frame s g).2.2.2.2.2.2.2.2.2.2.2.2.2.2.2.2.2.2.2.2.2.2.2.1
@[simp] theorem State.preImage_ports (s : State) (g : Nat) : (State.preImage s g).ports = s.ports := (State.preImage_frame s g).2.2.2.2.2.2.2.2.2.2.2.2.2.2.2.2.2.2.2.2.2.2.2.2.1
@[simp] theorem State.preImage_hbms (s : State) (g : Nat) : (State.preImage s g).hbms = s.hbms := (State.preImage_frame s g).2.2.2.2.2.2.2.2.2.2.2.2.2.2.2.2.2.2.2.2.2.2.2.2.2.1
@[simp] theorem State.preImage_cxlPorts (s : State) (g : Nat) : (State.preImage s g).cxlPorts = s.cxlPorts := (State.preImage_frame s g).2.2.2.2.2.2.2.2.2.2.2.2.2.2.2.2.2.2.2.2.2.2.2.2.2.2.1
@[simp] theorem State.preImage_windows (s : State) (g : Nat) : (State.preImage s g).windows = s.windows := (State.preImage_frame s g).2.2.2.2.2.2.2.2.2.2.2.2.2.2.2.2.2.2.2.2.2.2.2.2.2.2.2.1
@[simp] theorem State.preImage_dir (s : State) (g : Nat) : (State.preImage s g).dir = s.dir := (State.preImage_frame s g).2.2.2.2.2.2.2.2.2.2.2.2.2.2.2.2.2.2.2.2.2.2.2.2.2.2.2.2.1
@[simp] theorem State.preImage_bpm (s : State) (g : Nat) : (State.preImage s g).bpm = s.bpm := (State.preImage_frame s g).2.2.2.2.2.2.2.2.2.2.2.2.2.2.2.2.2.2.2.2.2.2.2.2.2.2.2.2.2.1
@[simp] theorem State.preImage_cool (s : State) (g : Nat) : (State.preImage s g).cool = s.cool := (State.preImage_frame s g).2.2.2.2.2.2.2.2.2.2.2.2.2.2.2.2.2.2.2.2.2.2.2.2.2.2.2.2.2.2.1
@[simp] theorem State.preImage_sec (s : State) (g : Nat) : (State.preImage s g).sec = s.sec := (State.preImage_frame s g).2.2.2.2.2.2.2.2.2.2.2.2.2.2.2.2.2.2.2.2.2.2.2.2.2.2.2.2.2.2.2.1
@[simp] theorem State.preImage_boot (s : State) (g : Nat) : (State.preImage s g).boot = s.boot := (State.preImage_frame s g).2.2.2.2.2.2.2.2.2.2.2.2.2.2.2.2.2.2.2.2.2.2.2.2.2.2.2.2.2.2.2.2.1
@[simp] theorem State.preImage_regs (s : State) (g : Nat) : (State.preImage s g).regs = s.regs := (State.preImage_frame s g).2.2.2.2.2.2.2.2.2.2.2.2.2.2.2.2.2.2.2.2.2.2.2.2.2.2.2.2.2.2.2.2.2.1
@[simp] theorem State.preImage_sels (s : State) (g : Nat) : (State.preImage s g).sels = s.sels := (State.preImage_frame s g).2.2.2.2.2.2.2.2.2.2.2.2.2.2.2.2.2.2.2.2.2.2.2.2.2.2.2.2.2.2.2.2.2.2.1
@[simp] theorem State.preImage_halves (s : State) (g : Nat) : (State.preImage s g).halves = s.halves := (State.preImage_frame s g).2.2.2.2.2.2.2.2.2.2.2.2.2.2.2.2.2.2.2.2.2.2.2.2.2.2.2.2.2.2.2.2.2.2.2
@[simp] theorem State.preImage_cl (s : State) (g : Nat) (j_ : Nat) : (State.preImage s g).cl j_ = s.cl j_ := by simp only [State.cl_def, State.preImage_clusters]
@[simp] theorem State.preImage_qp (s : State) (g : Nat) (j_ : Nat) : (State.preImage s g).qp j_ = s.qp j_ := by simp only [State.qp_def, State.preImage_qps]
@[simp] theorem State.preImage_fn (s : State) (g : Nat) (j_ : Nat) : (State.preImage s g).fn j_ = s.fn j_ := by simp only [State.fn_def, State.preImage_fns]
@[simp] theorem State.preImage_link (s : State) (g : Nat) (j_ : Nat) : (State.preImage s g).link j_ = s.link j_ := by simp only [State.link_def, State.preImage_links]
@[simp] theorem State.preImage_port (s : State) (g : Nat) (j_ : Nat) : (State.preImage s g).port j_ = s.port j_ := by simp only [State.port_def, State.preImage_ports]
@[simp] theorem State.preImage_region (s : State) (g : Nat) (j_ : Nat) : (State.preImage s g).region j_ = s.region j_ := by simp only [State.region_def, State.preImage_regions]
@[simp] theorem State.preImage_domain (s : State) (g : Nat) (j_ : Nat) : (State.preImage s g).domain j_ = s.domain j_ := by simp only [State.domain_def, State.preImage_domains]
@[simp] theorem State.preImage_xing (s : State) (g : Nat) (j_ : Nat) : (State.preImage s g).xing j_ = s.xing j_ := by simp only [State.xing_def, State.preImage_xings]
@[simp] theorem State.preImage_hbm (s : State) (g : Nat) (j_ : Nat) : (State.preImage s g).hbm j_ = s.hbm j_ := by simp only [State.hbm_def, State.preImage_hbms]
@[simp] theorem State.preImage_cxl (s : State) (g : Nat) (j_ : Nat) : (State.preImage s g).cxl j_ = s.cxl j_ := by simp only [State.cxl_def, State.preImage_cxlPorts]
@[simp] theorem State.preImage_win (s : State) (g : Nat) (j_ : Nat) : (State.preImage s g).win j_ = s.win j_ := by simp only [State.win_def, State.preImage_windows]
@[simp] theorem State.preImage_dirLine (s : State) (g : Nat) (j_ : Nat) : (State.preImage s g).dirLine j_ = s.dirLine j_ := by simp only [State.dirLine_def, State.preImage_dir]
@[simp] theorem State.preImage_page (s : State) (g : Nat) (j_ : Nat) : (State.preImage s g).page j_ = s.page j_ := by simp only [State.page_def, State.preImage_pages]
@[simp] theorem State.preImage_trow (s : State) (g : Nat) (c_ n_ : Nat) : (State.preImage s g).trow c_ n_ = s.trow c_ n_ := by simp only [State.trow_def, State.preImage_tarn]
@[simp] theorem State.preImage_rawByte (s : State) (g : Nat) (a_ : Nat) : (State.preImage s g).rawByte a_ = s.rawByte a_ := by simp only [State.rawByte_def, State.preImage_mem]
@[simp] theorem State.preImage_now (s : State) (g : Nat) : (State.preImage s g).now = s.now := by simp only [State.now_def, State.preImage_tb]
theorem State.evictLine_frame (s : State) (l : Nat) :
    (State.evictLine s l).pending = s.pending ∧ (State.evictLine s l).fresh = s.fresh ∧ (State.evictLine s l).order = s.order ∧ (State.evictLine s l).variant36 = s.variant36 ∧ (State.evictLine s l).enabled = s.enabled ∧ (State.evictLine s l).clusters = s.clusters ∧ (State.evictLine s l).tarn = s.tarn ∧ (State.evictLine s l).pages = s.pages ∧ (State.evictLine s l).zeroRuns = s.zeroRuns ∧ (State.evictLine s l).regions = s.regions ∧ (State.evictLine s l).domains = s.domains ∧ (State.evictLine s l).xings = s.xings ∧ (State.evictLine s l).tb = s.tb ∧ (State.evictLine s l).net = s.net ∧ (State.evictLine s l).nextPkt = s.nextPkt ∧ (State.evictLine s l).routes = s.routes ∧ (State.evictLine s l).perimRoutes = s.perimRoutes ∧ (State.evictLine s l).fabLinks = s.fabLinks ∧ (State.evictLine s l).discards = s.discards ∧ (State.evictLine s l).qps = s.qps ∧ (State.evictLine s l).fns = s.fns ∧ (State.evictLine s l).links = s.links ∧ (State.evictLine s l).ports = s.ports ∧ (State.evictLine s l).hbms = s.hbms ∧ (State.evictLine s l).cxlPorts = s.cxlPorts ∧ (State.evictLine s l).windows = s.windows ∧ (State.evictLine s l).bpm = s.bpm ∧ (State.evictLine s l).cool = s.cool ∧ (State.evictLine s l).sec = s.sec ∧ (State.evictLine s l).boot = s.boot ∧ (State.evictLine s l).regs = s.regs ∧ (State.evictLine s l).sels = s.sels ∧ (State.evictLine s l).halves = s.halves := by
  generalize h_ : State.evictLine s l = t_
  unfold State.evictLine at h_
  (try dsimp only at h_)
  (repeat' split at h_) <;> subst h_ <;> simp
@[simp] theorem State.evictLine_pending (s : State) (l : Nat) : (State.evictLine s l).pending = s.pending := (State.evictLine_frame s l).1
@[simp] theorem State.evictLine_fresh (s : State) (l : Nat) : (State.evictLine s l).fresh = s.fresh := (State.evictLine_frame s l).2.1
@[simp] theorem State.evictLine_order (s : State) (l : Nat) : (State.evictLine s l).order = s.order := (State.evictLine_frame s l).2.2.1
@[simp] theorem State.evictLine_variant36 (s : State) (l : Nat) : (State.evictLine s l).variant36 = s.variant36 := (State.evictLine_frame s l).2.2.2.1
@[simp] theorem State.evictLine_enabled (s : State) (l : Nat) : (State.evictLine s l).enabled = s.enabled := (State.evictLine_frame s l).2.2.2.2.1
@[simp] theorem State.evictLine_clusters (s : State) (l : Nat) : (State.evictLine s l).clusters = s.clusters := (State.evictLine_frame s l).2.2.2.2.2.1
@[simp] theorem State.evictLine_tarn (s : State) (l : Nat) : (State.evictLine s l).tarn = s.tarn := (State.evictLine_frame s l).2.2.2.2.2.2.1
@[simp] theorem State.evictLine_pages (s : State) (l : Nat) : (State.evictLine s l).pages = s.pages := (State.evictLine_frame s l).2.2.2.2.2.2.2.1
@[simp] theorem State.evictLine_zeroRuns (s : State) (l : Nat) : (State.evictLine s l).zeroRuns = s.zeroRuns := (State.evictLine_frame s l).2.2.2.2.2.2.2.2.1
@[simp] theorem State.evictLine_regions (s : State) (l : Nat) : (State.evictLine s l).regions = s.regions := (State.evictLine_frame s l).2.2.2.2.2.2.2.2.2.1
@[simp] theorem State.evictLine_domains (s : State) (l : Nat) : (State.evictLine s l).domains = s.domains := (State.evictLine_frame s l).2.2.2.2.2.2.2.2.2.2.1
@[simp] theorem State.evictLine_xings (s : State) (l : Nat) : (State.evictLine s l).xings = s.xings := (State.evictLine_frame s l).2.2.2.2.2.2.2.2.2.2.2.1
@[simp] theorem State.evictLine_tb (s : State) (l : Nat) : (State.evictLine s l).tb = s.tb := (State.evictLine_frame s l).2.2.2.2.2.2.2.2.2.2.2.2.1
@[simp] theorem State.evictLine_net (s : State) (l : Nat) : (State.evictLine s l).net = s.net := (State.evictLine_frame s l).2.2.2.2.2.2.2.2.2.2.2.2.2.1
@[simp] theorem State.evictLine_nextPkt (s : State) (l : Nat) : (State.evictLine s l).nextPkt = s.nextPkt := (State.evictLine_frame s l).2.2.2.2.2.2.2.2.2.2.2.2.2.2.1
@[simp] theorem State.evictLine_routes (s : State) (l : Nat) : (State.evictLine s l).routes = s.routes := (State.evictLine_frame s l).2.2.2.2.2.2.2.2.2.2.2.2.2.2.2.1
@[simp] theorem State.evictLine_perimRoutes (s : State) (l : Nat) : (State.evictLine s l).perimRoutes = s.perimRoutes := (State.evictLine_frame s l).2.2.2.2.2.2.2.2.2.2.2.2.2.2.2.2.1
@[simp] theorem State.evictLine_fabLinks (s : State) (l : Nat) : (State.evictLine s l).fabLinks = s.fabLinks := (State.evictLine_frame s l).2.2.2.2.2.2.2.2.2.2.2.2.2.2.2.2.2.1
@[simp] theorem State.evictLine_discards (s : State) (l : Nat) : (State.evictLine s l).discards = s.discards := (State.evictLine_frame s l).2.2.2.2.2.2.2.2.2.2.2.2.2.2.2.2.2.2.1
@[simp] theorem State.evictLine_qps (s : State) (l : Nat) : (State.evictLine s l).qps = s.qps := (State.evictLine_frame s l).2.2.2.2.2.2.2.2.2.2.2.2.2.2.2.2.2.2.2.1
@[simp] theorem State.evictLine_fns (s : State) (l : Nat) : (State.evictLine s l).fns = s.fns := (State.evictLine_frame s l).2.2.2.2.2.2.2.2.2.2.2.2.2.2.2.2.2.2.2.2.1
@[simp] theorem State.evictLine_links (s : State) (l : Nat) : (State.evictLine s l).links = s.links := (State.evictLine_frame s l).2.2.2.2.2.2.2.2.2.2.2.2.2.2.2.2.2.2.2.2.2.1
@[simp] theorem State.evictLine_ports (s : State) (l : Nat) : (State.evictLine s l).ports = s.ports := (State.evictLine_frame s l).2.2.2.2.2.2.2.2.2.2.2.2.2.2.2.2.2.2.2.2.2.2.1
@[simp] theorem State.evictLine_hbms (s : State) (l : Nat) : (State.evictLine s l).hbms = s.hbms := (State.evictLine_frame s l).2.2.2.2.2.2.2.2.2.2.2.2.2.2.2.2.2.2.2.2.2.2.2.1
@[simp] theorem State.evictLine_cxlPorts (s : State) (l : Nat) : (State.evictLine s l).cxlPorts = s.cxlPorts := (State.evictLine_frame s l).2.2.2.2.2.2.2.2.2.2.2.2.2.2.2.2.2.2.2.2.2.2.2.2.1
@[simp] theorem State.evictLine_windows (s : State) (l : Nat) : (State.evictLine s l).windows = s.windows := (State.evictLine_frame s l).2.2.2.2.2.2.2.2.2.2.2.2.2.2.2.2.2.2.2.2.2.2.2.2.2.1
@[simp] theorem State.evictLine_bpm (s : State) (l : Nat) : (State.evictLine s l).bpm = s.bpm := (State.evictLine_frame s l).2.2.2.2.2.2.2.2.2.2.2.2.2.2.2.2.2.2.2.2.2.2.2.2.2.2.1
@[simp] theorem State.evictLine_cool (s : State) (l : Nat) : (State.evictLine s l).cool = s.cool := (State.evictLine_frame s l).2.2.2.2.2.2.2.2.2.2.2.2.2.2.2.2.2.2.2.2.2.2.2.2.2.2.2.1
@[simp] theorem State.evictLine_sec (s : State) (l : Nat) : (State.evictLine s l).sec = s.sec := (State.evictLine_frame s l).2.2.2.2.2.2.2.2.2.2.2.2.2.2.2.2.2.2.2.2.2.2.2.2.2.2.2.2.1
@[simp] theorem State.evictLine_boot (s : State) (l : Nat) : (State.evictLine s l).boot = s.boot := (State.evictLine_frame s l).2.2.2.2.2.2.2.2.2.2.2.2.2.2.2.2.2.2.2.2.2.2.2.2.2.2.2.2.2.1
@[simp] theorem State.evictLine_regs (s : State) (l : Nat) : (State.evictLine s l).regs = s.regs := (State.evictLine_frame s l).2.2.2.2.2.2.2.2.2.2.2.2.2.2.2.2.2.2.2.2.2.2.2.2.2.2.2.2.2.2.1
@[simp] theorem State.evictLine_sels (s : State) (l : Nat) : (State.evictLine s l).sels = s.sels := (State.evictLine_frame s l).2.2.2.2.2.2.2.2.2.2.2.2.2.2.2.2.2.2.2.2.2.2.2.2.2.2.2.2.2.2.2.1
@[simp] theorem State.evictLine_halves (s : State) (l : Nat) : (State.evictLine s l).halves = s.halves := (State.evictLine_frame s l).2.2.2.2.2.2.2.2.2.2.2.2.2.2.2.2.2.2.2.2.2.2.2.2.2.2.2.2.2.2.2.2
@[simp] theorem State.evictLine_cl (s : State) (l : Nat) (j_ : Nat) : (State.evictLine s l).cl j_ = s.cl j_ := by simp only [State.cl_def, State.evictLine_clusters]
@[simp] theorem State.evictLine_qp (s : State) (l : Nat) (j_ : Nat) : (State.evictLine s l).qp j_ = s.qp j_ := by simp only [State.qp_def, State.evictLine_qps]
@[simp] theorem State.evictLine_fn (s : State) (l : Nat) (j_ : Nat) : (State.evictLine s l).fn j_ = s.fn j_ := by simp only [State.fn_def, State.evictLine_fns]
@[simp] theorem State.evictLine_link (s : State) (l : Nat) (j_ : Nat) : (State.evictLine s l).link j_ = s.link j_ := by simp only [State.link_def, State.evictLine_links]
@[simp] theorem State.evictLine_port (s : State) (l : Nat) (j_ : Nat) : (State.evictLine s l).port j_ = s.port j_ := by simp only [State.port_def, State.evictLine_ports]
@[simp] theorem State.evictLine_region (s : State) (l : Nat) (j_ : Nat) : (State.evictLine s l).region j_ = s.region j_ := by simp only [State.region_def, State.evictLine_regions]
@[simp] theorem State.evictLine_domain (s : State) (l : Nat) (j_ : Nat) : (State.evictLine s l).domain j_ = s.domain j_ := by simp only [State.domain_def, State.evictLine_domains]
@[simp] theorem State.evictLine_xing (s : State) (l : Nat) (j_ : Nat) : (State.evictLine s l).xing j_ = s.xing j_ := by simp only [State.xing_def, State.evictLine_xings]
@[simp] theorem State.evictLine_hbm (s : State) (l : Nat) (j_ : Nat) : (State.evictLine s l).hbm j_ = s.hbm j_ := by simp only [State.hbm_def, State.evictLine_hbms]
@[simp] theorem State.evictLine_cxl (s : State) (l : Nat) (j_ : Nat) : (State.evictLine s l).cxl j_ = s.cxl j_ := by simp only [State.cxl_def, State.evictLine_cxlPorts]
@[simp] theorem State.evictLine_win (s : State) (l : Nat) (j_ : Nat) : (State.evictLine s l).win j_ = s.win j_ := by simp only [State.win_def, State.evictLine_windows]
@[simp] theorem State.evictLine_page (s : State) (l : Nat) (j_ : Nat) : (State.evictLine s l).page j_ = s.page j_ := by simp only [State.page_def, State.evictLine_pages]
@[simp] theorem State.evictLine_trow (s : State) (l : Nat) (c_ n_ : Nat) : (State.evictLine s l).trow c_ n_ = s.trow c_ n_ := by simp only [State.trow_def, State.evictLine_tarn]
@[simp] theorem State.evictLine_now (s : State) (l : Nat) : (State.evictLine s l).now = s.now := by simp only [State.now_def, State.evictLine_tb]
theorem State.evictRange_frame (s : State) (a n : Nat) :
    (State.evictRange s a n).pending = s.pending ∧ (State.evictRange s a n).fresh = s.fresh ∧ (State.evictRange s a n).order = s.order ∧ (State.evictRange s a n).variant36 = s.variant36 ∧ (State.evictRange s a n).enabled = s.enabled ∧ (State.evictRange s a n).clusters = s.clusters ∧ (State.evictRange s a n).tarn = s.tarn ∧ (State.evictRange s a n).pages = s.pages ∧ (State.evictRange s a n).zeroRuns = s.zeroRuns ∧ (State.evictRange s a n).regions = s.regions ∧ (State.evictRange s a n).domains = s.domains ∧ (State.evictRange s a n).xings = s.xings ∧ (State.evictRange s a n).tb = s.tb ∧ (State.evictRange s a n).net = s.net ∧ (State.evictRange s a n).nextPkt = s.nextPkt ∧ (State.evictRange s a n).routes = s.routes ∧ (State.evictRange s a n).perimRoutes = s.perimRoutes ∧ (State.evictRange s a n).fabLinks = s.fabLinks ∧ (State.evictRange s a n).discards = s.discards ∧ (State.evictRange s a n).qps = s.qps ∧ (State.evictRange s a n).fns = s.fns ∧ (State.evictRange s a n).links = s.links ∧ (State.evictRange s a n).ports = s.ports ∧ (State.evictRange s a n).hbms = s.hbms ∧ (State.evictRange s a n).cxlPorts = s.cxlPorts ∧ (State.evictRange s a n).windows = s.windows ∧ (State.evictRange s a n).bpm = s.bpm ∧ (State.evictRange s a n).cool = s.cool ∧ (State.evictRange s a n).sec = s.sec ∧ (State.evictRange s a n).boot = s.boot ∧ (State.evictRange s a n).regs = s.regs ∧ (State.evictRange s a n).sels = s.sels ∧ (State.evictRange s a n).halves = s.halves := by
  generalize h_ : State.evictRange s a n = t_
  unfold State.evictRange at h_
  (try dsimp only at h_)
  (repeat' split at h_) <;> subst h_ <;> simp
@[simp] theorem State.evictRange_pending (s : State) (a n : Nat) : (State.evictRange s a n).pending = s.pending := (State.evictRange_frame s a n).1
@[simp] theorem State.evictRange_fresh (s : State) (a n : Nat) : (State.evictRange s a n).fresh = s.fresh := (State.evictRange_frame s a n).2.1
@[simp] theorem State.evictRange_order (s : State) (a n : Nat) : (State.evictRange s a n).order = s.order := (State.evictRange_frame s a n).2.2.1
@[simp] theorem State.evictRange_variant36 (s : State) (a n : Nat) : (State.evictRange s a n).variant36 = s.variant36 := (State.evictRange_frame s a n).2.2.2.1
@[simp] theorem State.evictRange_enabled (s : State) (a n : Nat) : (State.evictRange s a n).enabled = s.enabled := (State.evictRange_frame s a n).2.2.2.2.1
@[simp] theorem State.evictRange_clusters (s : State) (a n : Nat) : (State.evictRange s a n).clusters = s.clusters := (State.evictRange_frame s a n).2.2.2.2.2.1
@[simp] theorem State.evictRange_tarn (s : State) (a n : Nat) : (State.evictRange s a n).tarn = s.tarn := (State.evictRange_frame s a n).2.2.2.2.2.2.1
@[simp] theorem State.evictRange_pages (s : State) (a n : Nat) : (State.evictRange s a n).pages = s.pages := (State.evictRange_frame s a n).2.2.2.2.2.2.2.1
@[simp] theorem State.evictRange_zeroRuns (s : State) (a n : Nat) : (State.evictRange s a n).zeroRuns = s.zeroRuns := (State.evictRange_frame s a n).2.2.2.2.2.2.2.2.1
@[simp] theorem State.evictRange_regions (s : State) (a n : Nat) : (State.evictRange s a n).regions = s.regions := (State.evictRange_frame s a n).2.2.2.2.2.2.2.2.2.1
@[simp] theorem State.evictRange_domains (s : State) (a n : Nat) : (State.evictRange s a n).domains = s.domains := (State.evictRange_frame s a n).2.2.2.2.2.2.2.2.2.2.1
@[simp] theorem State.evictRange_xings (s : State) (a n : Nat) : (State.evictRange s a n).xings = s.xings := (State.evictRange_frame s a n).2.2.2.2.2.2.2.2.2.2.2.1
@[simp] theorem State.evictRange_tb (s : State) (a n : Nat) : (State.evictRange s a n).tb = s.tb := (State.evictRange_frame s a n).2.2.2.2.2.2.2.2.2.2.2.2.1
@[simp] theorem State.evictRange_net (s : State) (a n : Nat) : (State.evictRange s a n).net = s.net := (State.evictRange_frame s a n).2.2.2.2.2.2.2.2.2.2.2.2.2.1
@[simp] theorem State.evictRange_nextPkt (s : State) (a n : Nat) : (State.evictRange s a n).nextPkt = s.nextPkt := (State.evictRange_frame s a n).2.2.2.2.2.2.2.2.2.2.2.2.2.2.1
@[simp] theorem State.evictRange_routes (s : State) (a n : Nat) : (State.evictRange s a n).routes = s.routes := (State.evictRange_frame s a n).2.2.2.2.2.2.2.2.2.2.2.2.2.2.2.1
@[simp] theorem State.evictRange_perimRoutes (s : State) (a n : Nat) : (State.evictRange s a n).perimRoutes = s.perimRoutes := (State.evictRange_frame s a n).2.2.2.2.2.2.2.2.2.2.2.2.2.2.2.2.1
@[simp] theorem State.evictRange_fabLinks (s : State) (a n : Nat) : (State.evictRange s a n).fabLinks = s.fabLinks := (State.evictRange_frame s a n).2.2.2.2.2.2.2.2.2.2.2.2.2.2.2.2.2.1
@[simp] theorem State.evictRange_discards (s : State) (a n : Nat) : (State.evictRange s a n).discards = s.discards := (State.evictRange_frame s a n).2.2.2.2.2.2.2.2.2.2.2.2.2.2.2.2.2.2.1
@[simp] theorem State.evictRange_qps (s : State) (a n : Nat) : (State.evictRange s a n).qps = s.qps := (State.evictRange_frame s a n).2.2.2.2.2.2.2.2.2.2.2.2.2.2.2.2.2.2.2.1
@[simp] theorem State.evictRange_fns (s : State) (a n : Nat) : (State.evictRange s a n).fns = s.fns := (State.evictRange_frame s a n).2.2.2.2.2.2.2.2.2.2.2.2.2.2.2.2.2.2.2.2.1
@[simp] theorem State.evictRange_links (s : State) (a n : Nat) : (State.evictRange s a n).links = s.links := (State.evictRange_frame s a n).2.2.2.2.2.2.2.2.2.2.2.2.2.2.2.2.2.2.2.2.2.1
@[simp] theorem State.evictRange_ports (s : State) (a n : Nat) : (State.evictRange s a n).ports = s.ports := (State.evictRange_frame s a n).2.2.2.2.2.2.2.2.2.2.2.2.2.2.2.2.2.2.2.2.2.2.1
@[simp] theorem State.evictRange_hbms (s : State) (a n : Nat) : (State.evictRange s a n).hbms = s.hbms := (State.evictRange_frame s a n).2.2.2.2.2.2.2.2.2.2.2.2.2.2.2.2.2.2.2.2.2.2.2.1
@[simp] theorem State.evictRange_cxlPorts (s : State) (a n : Nat) : (State.evictRange s a n).cxlPorts = s.cxlPorts := (State.evictRange_frame s a n).2.2.2.2.2.2.2.2.2.2.2.2.2.2.2.2.2.2.2.2.2.2.2.2.1
@[simp] theorem State.evictRange_windows (s : State) (a n : Nat) : (State.evictRange s a n).windows = s.windows := (State.evictRange_frame s a n).2.2.2.2.2.2.2.2.2.2.2.2.2.2.2.2.2.2.2.2.2.2.2.2.2.1
@[simp] theorem State.evictRange_bpm (s : State) (a n : Nat) : (State.evictRange s a n).bpm = s.bpm := (State.evictRange_frame s a n).2.2.2.2.2.2.2.2.2.2.2.2.2.2.2.2.2.2.2.2.2.2.2.2.2.2.1
@[simp] theorem State.evictRange_cool (s : State) (a n : Nat) : (State.evictRange s a n).cool = s.cool := (State.evictRange_frame s a n).2.2.2.2.2.2.2.2.2.2.2.2.2.2.2.2.2.2.2.2.2.2.2.2.2.2.2.1
@[simp] theorem State.evictRange_sec (s : State) (a n : Nat) : (State.evictRange s a n).sec = s.sec := (State.evictRange_frame s a n).2.2.2.2.2.2.2.2.2.2.2.2.2.2.2.2.2.2.2.2.2.2.2.2.2.2.2.2.1
@[simp] theorem State.evictRange_boot (s : State) (a n : Nat) : (State.evictRange s a n).boot = s.boot := (State.evictRange_frame s a n).2.2.2.2.2.2.2.2.2.2.2.2.2.2.2.2.2.2.2.2.2.2.2.2.2.2.2.2.2.1
@[simp] theorem State.evictRange_regs (s : State) (a n : Nat) : (State.evictRange s a n).regs = s.regs := (State.evictRange_frame s a n).2.2.2.2.2.2.2.2.2.2.2.2.2.2.2.2.2.2.2.2.2.2.2.2.2.2.2.2.2.2.1
@[simp] theorem State.evictRange_sels (s : State) (a n : Nat) : (State.evictRange s a n).sels = s.sels := (State.evictRange_frame s a n).2.2.2.2.2.2.2.2.2.2.2.2.2.2.2.2.2.2.2.2.2.2.2.2.2.2.2.2.2.2.2.1
@[simp] theorem State.evictRange_halves (s : State) (a n : Nat) : (State.evictRange s a n).halves = s.halves := (State.evictRange_frame s a n).2.2.2.2.2.2.2.2.2.2.2.2.2.2.2.2.2.2.2.2.2.2.2.2.2.2.2.2.2.2.2.2
@[simp] theorem State.evictRange_cl (s : State) (a n : Nat) (j_ : Nat) : (State.evictRange s a n).cl j_ = s.cl j_ := by simp only [State.cl_def, State.evictRange_clusters]
@[simp] theorem State.evictRange_qp (s : State) (a n : Nat) (j_ : Nat) : (State.evictRange s a n).qp j_ = s.qp j_ := by simp only [State.qp_def, State.evictRange_qps]
@[simp] theorem State.evictRange_fn (s : State) (a n : Nat) (j_ : Nat) : (State.evictRange s a n).fn j_ = s.fn j_ := by simp only [State.fn_def, State.evictRange_fns]
@[simp] theorem State.evictRange_link (s : State) (a n : Nat) (j_ : Nat) : (State.evictRange s a n).link j_ = s.link j_ := by simp only [State.link_def, State.evictRange_links]
@[simp] theorem State.evictRange_port (s : State) (a n : Nat) (j_ : Nat) : (State.evictRange s a n).port j_ = s.port j_ := by simp only [State.port_def, State.evictRange_ports]
@[simp] theorem State.evictRange_region (s : State) (a n : Nat) (j_ : Nat) : (State.evictRange s a n).region j_ = s.region j_ := by simp only [State.region_def, State.evictRange_regions]
@[simp] theorem State.evictRange_domain (s : State) (a n : Nat) (j_ : Nat) : (State.evictRange s a n).domain j_ = s.domain j_ := by simp only [State.domain_def, State.evictRange_domains]
@[simp] theorem State.evictRange_xing (s : State) (a n : Nat) (j_ : Nat) : (State.evictRange s a n).xing j_ = s.xing j_ := by simp only [State.xing_def, State.evictRange_xings]
@[simp] theorem State.evictRange_hbm (s : State) (a n : Nat) (j_ : Nat) : (State.evictRange s a n).hbm j_ = s.hbm j_ := by simp only [State.hbm_def, State.evictRange_hbms]
@[simp] theorem State.evictRange_cxl (s : State) (a n : Nat) (j_ : Nat) : (State.evictRange s a n).cxl j_ = s.cxl j_ := by simp only [State.cxl_def, State.evictRange_cxlPorts]
@[simp] theorem State.evictRange_win (s : State) (a n : Nat) (j_ : Nat) : (State.evictRange s a n).win j_ = s.win j_ := by simp only [State.win_def, State.evictRange_windows]
@[simp] theorem State.evictRange_page (s : State) (a n : Nat) (j_ : Nat) : (State.evictRange s a n).page j_ = s.page j_ := by simp only [State.page_def, State.evictRange_pages]
@[simp] theorem State.evictRange_trow (s : State) (a n : Nat) (c_ n_ : Nat) : (State.evictRange s a n).trow c_ n_ = s.trow c_ n_ := by simp only [State.trow_def, State.evictRange_tarn]
@[simp] theorem State.evictRange_now (s : State) (a n : Nat) : (State.evictRange s a n).now = s.now := by simp only [State.now_def, State.evictRange_tb]
theorem State.writeMem_frame (s : State) (a v n : Nat) :
    (State.writeMem s a v n).pending = s.pending ∧ (State.writeMem s a v n).fresh = s.fresh ∧ (State.writeMem s a v n).order = s.order ∧ (State.writeMem s a v n).variant36 = s.variant36 ∧ (State.writeMem s a v n).enabled = s.enabled ∧ (State.writeMem s a v n).clusters = s.clusters ∧ (State.writeMem s a v n).tarn = s.tarn ∧ (State.writeMem s a v n).pages = s.pages ∧ (State.writeMem s a v n).zeroRuns = s.zeroRuns ∧ (State.writeMem s a v n).regions = s.regions ∧ (State.writeMem s a v n).domains = s.domains ∧ (State.writeMem s a v n).xings = s.xings ∧ (State.writeMem s a v n).tb = s.tb ∧ (State.writeMem s a v n).net = s.net ∧ (State.writeMem s a v n).nextPkt = s.nextPkt ∧ (State.writeMem s a v n).routes = s.routes ∧ (State.writeMem s a v n).perimRoutes = s.perimRoutes ∧ (State.writeMem s a v n).fabLinks = s.fabLinks ∧ (State.writeMem s a v n).discards = s.discards ∧ (State.writeMem s a v n).qps = s.qps ∧ (State.writeMem s a v n).fns = s.fns ∧ (State.writeMem s a v n).links = s.links ∧ (State.writeMem s a v n).ports = s.ports ∧ (State.writeMem s a v n).hbms = s.hbms ∧ (State.writeMem s a v n).cxlPorts = s.cxlPorts ∧ (State.writeMem s a v n).windows = s.windows ∧ (State.writeMem s a v n).bpm = s.bpm ∧ (State.writeMem s a v n).cool = s.cool ∧ (State.writeMem s a v n).sec = s.sec ∧ (State.writeMem s a v n).boot = s.boot ∧ (State.writeMem s a v n).regs = s.regs ∧ (State.writeMem s a v n).sels = s.sels ∧ (State.writeMem s a v n).halves = s.halves := by
  generalize h_ : State.writeMem s a v n = t_
  unfold State.writeMem at h_
  (try dsimp only at h_)
  (repeat' split at h_) <;> subst h_ <;> simp
@[simp] theorem State.writeMem_pending (s : State) (a v n : Nat) : (State.writeMem s a v n).pending = s.pending := (State.writeMem_frame s a v n).1
@[simp] theorem State.writeMem_fresh (s : State) (a v n : Nat) : (State.writeMem s a v n).fresh = s.fresh := (State.writeMem_frame s a v n).2.1
@[simp] theorem State.writeMem_order (s : State) (a v n : Nat) : (State.writeMem s a v n).order = s.order := (State.writeMem_frame s a v n).2.2.1
@[simp] theorem State.writeMem_variant36 (s : State) (a v n : Nat) : (State.writeMem s a v n).variant36 = s.variant36 := (State.writeMem_frame s a v n).2.2.2.1
@[simp] theorem State.writeMem_enabled (s : State) (a v n : Nat) : (State.writeMem s a v n).enabled = s.enabled := (State.writeMem_frame s a v n).2.2.2.2.1
@[simp] theorem State.writeMem_clusters (s : State) (a v n : Nat) : (State.writeMem s a v n).clusters = s.clusters := (State.writeMem_frame s a v n).2.2.2.2.2.1
@[simp] theorem State.writeMem_tarn (s : State) (a v n : Nat) : (State.writeMem s a v n).tarn = s.tarn := (State.writeMem_frame s a v n).2.2.2.2.2.2.1
@[simp] theorem State.writeMem_pages (s : State) (a v n : Nat) : (State.writeMem s a v n).pages = s.pages := (State.writeMem_frame s a v n).2.2.2.2.2.2.2.1
@[simp] theorem State.writeMem_zeroRuns (s : State) (a v n : Nat) : (State.writeMem s a v n).zeroRuns = s.zeroRuns := (State.writeMem_frame s a v n).2.2.2.2.2.2.2.2.1
@[simp] theorem State.writeMem_regions (s : State) (a v n : Nat) : (State.writeMem s a v n).regions = s.regions := (State.writeMem_frame s a v n).2.2.2.2.2.2.2.2.2.1
@[simp] theorem State.writeMem_domains (s : State) (a v n : Nat) : (State.writeMem s a v n).domains = s.domains := (State.writeMem_frame s a v n).2.2.2.2.2.2.2.2.2.2.1
@[simp] theorem State.writeMem_xings (s : State) (a v n : Nat) : (State.writeMem s a v n).xings = s.xings := (State.writeMem_frame s a v n).2.2.2.2.2.2.2.2.2.2.2.1
@[simp] theorem State.writeMem_tb (s : State) (a v n : Nat) : (State.writeMem s a v n).tb = s.tb := (State.writeMem_frame s a v n).2.2.2.2.2.2.2.2.2.2.2.2.1
@[simp] theorem State.writeMem_net (s : State) (a v n : Nat) : (State.writeMem s a v n).net = s.net := (State.writeMem_frame s a v n).2.2.2.2.2.2.2.2.2.2.2.2.2.1
@[simp] theorem State.writeMem_nextPkt (s : State) (a v n : Nat) : (State.writeMem s a v n).nextPkt = s.nextPkt := (State.writeMem_frame s a v n).2.2.2.2.2.2.2.2.2.2.2.2.2.2.1
@[simp] theorem State.writeMem_routes (s : State) (a v n : Nat) : (State.writeMem s a v n).routes = s.routes := (State.writeMem_frame s a v n).2.2.2.2.2.2.2.2.2.2.2.2.2.2.2.1
@[simp] theorem State.writeMem_perimRoutes (s : State) (a v n : Nat) : (State.writeMem s a v n).perimRoutes = s.perimRoutes := (State.writeMem_frame s a v n).2.2.2.2.2.2.2.2.2.2.2.2.2.2.2.2.1
@[simp] theorem State.writeMem_fabLinks (s : State) (a v n : Nat) : (State.writeMem s a v n).fabLinks = s.fabLinks := (State.writeMem_frame s a v n).2.2.2.2.2.2.2.2.2.2.2.2.2.2.2.2.2.1
@[simp] theorem State.writeMem_discards (s : State) (a v n : Nat) : (State.writeMem s a v n).discards = s.discards := (State.writeMem_frame s a v n).2.2.2.2.2.2.2.2.2.2.2.2.2.2.2.2.2.2.1
@[simp] theorem State.writeMem_qps (s : State) (a v n : Nat) : (State.writeMem s a v n).qps = s.qps := (State.writeMem_frame s a v n).2.2.2.2.2.2.2.2.2.2.2.2.2.2.2.2.2.2.2.1
@[simp] theorem State.writeMem_fns (s : State) (a v n : Nat) : (State.writeMem s a v n).fns = s.fns := (State.writeMem_frame s a v n).2.2.2.2.2.2.2.2.2.2.2.2.2.2.2.2.2.2.2.2.1
@[simp] theorem State.writeMem_links (s : State) (a v n : Nat) : (State.writeMem s a v n).links = s.links := (State.writeMem_frame s a v n).2.2.2.2.2.2.2.2.2.2.2.2.2.2.2.2.2.2.2.2.2.1
@[simp] theorem State.writeMem_ports (s : State) (a v n : Nat) : (State.writeMem s a v n).ports = s.ports := (State.writeMem_frame s a v n).2.2.2.2.2.2.2.2.2.2.2.2.2.2.2.2.2.2.2.2.2.2.1
@[simp] theorem State.writeMem_hbms (s : State) (a v n : Nat) : (State.writeMem s a v n).hbms = s.hbms := (State.writeMem_frame s a v n).2.2.2.2.2.2.2.2.2.2.2.2.2.2.2.2.2.2.2.2.2.2.2.1
@[simp] theorem State.writeMem_cxlPorts (s : State) (a v n : Nat) : (State.writeMem s a v n).cxlPorts = s.cxlPorts := (State.writeMem_frame s a v n).2.2.2.2.2.2.2.2.2.2.2.2.2.2.2.2.2.2.2.2.2.2.2.2.1
@[simp] theorem State.writeMem_windows (s : State) (a v n : Nat) : (State.writeMem s a v n).windows = s.windows := (State.writeMem_frame s a v n).2.2.2.2.2.2.2.2.2.2.2.2.2.2.2.2.2.2.2.2.2.2.2.2.2.1
@[simp] theorem State.writeMem_bpm (s : State) (a v n : Nat) : (State.writeMem s a v n).bpm = s.bpm := (State.writeMem_frame s a v n).2.2.2.2.2.2.2.2.2.2.2.2.2.2.2.2.2.2.2.2.2.2.2.2.2.2.1
@[simp] theorem State.writeMem_cool (s : State) (a v n : Nat) : (State.writeMem s a v n).cool = s.cool := (State.writeMem_frame s a v n).2.2.2.2.2.2.2.2.2.2.2.2.2.2.2.2.2.2.2.2.2.2.2.2.2.2.2.1
@[simp] theorem State.writeMem_sec (s : State) (a v n : Nat) : (State.writeMem s a v n).sec = s.sec := (State.writeMem_frame s a v n).2.2.2.2.2.2.2.2.2.2.2.2.2.2.2.2.2.2.2.2.2.2.2.2.2.2.2.2.1
@[simp] theorem State.writeMem_boot (s : State) (a v n : Nat) : (State.writeMem s a v n).boot = s.boot := (State.writeMem_frame s a v n).2.2.2.2.2.2.2.2.2.2.2.2.2.2.2.2.2.2.2.2.2.2.2.2.2.2.2.2.2.1
@[simp] theorem State.writeMem_regs (s : State) (a v n : Nat) : (State.writeMem s a v n).regs = s.regs := (State.writeMem_frame s a v n).2.2.2.2.2.2.2.2.2.2.2.2.2.2.2.2.2.2.2.2.2.2.2.2.2.2.2.2.2.2.1
@[simp] theorem State.writeMem_sels (s : State) (a v n : Nat) : (State.writeMem s a v n).sels = s.sels := (State.writeMem_frame s a v n).2.2.2.2.2.2.2.2.2.2.2.2.2.2.2.2.2.2.2.2.2.2.2.2.2.2.2.2.2.2.2.1
@[simp] theorem State.writeMem_halves (s : State) (a v n : Nat) : (State.writeMem s a v n).halves = s.halves := (State.writeMem_frame s a v n).2.2.2.2.2.2.2.2.2.2.2.2.2.2.2.2.2.2.2.2.2.2.2.2.2.2.2.2.2.2.2.2
@[simp] theorem State.writeMem_cl (s : State) (a v n : Nat) (j_ : Nat) : (State.writeMem s a v n).cl j_ = s.cl j_ := by simp only [State.cl_def, State.writeMem_clusters]
@[simp] theorem State.writeMem_qp (s : State) (a v n : Nat) (j_ : Nat) : (State.writeMem s a v n).qp j_ = s.qp j_ := by simp only [State.qp_def, State.writeMem_qps]
@[simp] theorem State.writeMem_fn (s : State) (a v n : Nat) (j_ : Nat) : (State.writeMem s a v n).fn j_ = s.fn j_ := by simp only [State.fn_def, State.writeMem_fns]
@[simp] theorem State.writeMem_link (s : State) (a v n : Nat) (j_ : Nat) : (State.writeMem s a v n).link j_ = s.link j_ := by simp only [State.link_def, State.writeMem_links]
@[simp] theorem State.writeMem_port (s : State) (a v n : Nat) (j_ : Nat) : (State.writeMem s a v n).port j_ = s.port j_ := by simp only [State.port_def, State.writeMem_ports]
@[simp] theorem State.writeMem_region (s : State) (a v n : Nat) (j_ : Nat) : (State.writeMem s a v n).region j_ = s.region j_ := by simp only [State.region_def, State.writeMem_regions]
@[simp] theorem State.writeMem_domain (s : State) (a v n : Nat) (j_ : Nat) : (State.writeMem s a v n).domain j_ = s.domain j_ := by simp only [State.domain_def, State.writeMem_domains]
@[simp] theorem State.writeMem_xing (s : State) (a v n : Nat) (j_ : Nat) : (State.writeMem s a v n).xing j_ = s.xing j_ := by simp only [State.xing_def, State.writeMem_xings]
@[simp] theorem State.writeMem_hbm (s : State) (a v n : Nat) (j_ : Nat) : (State.writeMem s a v n).hbm j_ = s.hbm j_ := by simp only [State.hbm_def, State.writeMem_hbms]
@[simp] theorem State.writeMem_cxl (s : State) (a v n : Nat) (j_ : Nat) : (State.writeMem s a v n).cxl j_ = s.cxl j_ := by simp only [State.cxl_def, State.writeMem_cxlPorts]
@[simp] theorem State.writeMem_win (s : State) (a v n : Nat) (j_ : Nat) : (State.writeMem s a v n).win j_ = s.win j_ := by simp only [State.win_def, State.writeMem_windows]
@[simp] theorem State.writeMem_page (s : State) (a v n : Nat) (j_ : Nat) : (State.writeMem s a v n).page j_ = s.page j_ := by simp only [State.page_def, State.writeMem_pages]
@[simp] theorem State.writeMem_trow (s : State) (a v n : Nat) (c_ n_ : Nat) : (State.writeMem s a v n).trow c_ n_ = s.trow c_ n_ := by simp only [State.trow_def, State.writeMem_tarn]
@[simp] theorem State.writeMem_now (s : State) (a v n : Nat) : (State.writeMem s a v n).now = s.now := by simp only [State.now_def, State.writeMem_tb]
theorem State.putCompletion_frame (s : State) (v : Qp) (e : Completion) :
    (State.putCompletion s v e).pending = s.pending ∧ (State.putCompletion s v e).fresh = s.fresh ∧ (State.putCompletion s v e).order = s.order ∧ (State.putCompletion s v e).variant36 = s.variant36 ∧ (State.putCompletion s v e).enabled = s.enabled ∧ (State.putCompletion s v e).clusters = s.clusters ∧ (State.putCompletion s v e).tarn = s.tarn ∧ (State.putCompletion s v e).pages = s.pages ∧ (State.putCompletion s v e).zeroRuns = s.zeroRuns ∧ (State.putCompletion s v e).regions = s.regions ∧ (State.putCompletion s v e).domains = s.domains ∧ (State.putCompletion s v e).xings = s.xings ∧ (State.putCompletion s v e).tb = s.tb ∧ (State.putCompletion s v e).net = s.net ∧ (State.putCompletion s v e).nextPkt = s.nextPkt ∧ (State.putCompletion s v e).routes = s.routes ∧ (State.putCompletion s v e).perimRoutes = s.perimRoutes ∧ (State.putCompletion s v e).fabLinks = s.fabLinks ∧ (State.putCompletion s v e).discards = s.discards ∧ (State.putCompletion s v e).qps = s.qps ∧ (State.putCompletion s v e).fns = s.fns ∧ (State.putCompletion s v e).links = s.links ∧ (State.putCompletion s v e).ports = s.ports ∧ (State.putCompletion s v e).hbms = s.hbms ∧ (State.putCompletion s v e).cxlPorts = s.cxlPorts ∧ (State.putCompletion s v e).windows = s.windows ∧ (State.putCompletion s v e).bpm = s.bpm ∧ (State.putCompletion s v e).cool = s.cool ∧ (State.putCompletion s v e).sec = s.sec ∧ (State.putCompletion s v e).boot = s.boot ∧ (State.putCompletion s v e).regs = s.regs ∧ (State.putCompletion s v e).sels = s.sels ∧ (State.putCompletion s v e).halves = s.halves := by
  generalize h_ : State.putCompletion s v e = t_
  unfold State.putCompletion at h_
  (try dsimp only at h_)
  (repeat' split at h_) <;> subst h_ <;> simp
@[simp] theorem State.putCompletion_pending (s : State) (v : Qp) (e : Completion) : (State.putCompletion s v e).pending = s.pending := (State.putCompletion_frame s v e).1
@[simp] theorem State.putCompletion_fresh (s : State) (v : Qp) (e : Completion) : (State.putCompletion s v e).fresh = s.fresh := (State.putCompletion_frame s v e).2.1
@[simp] theorem State.putCompletion_order (s : State) (v : Qp) (e : Completion) : (State.putCompletion s v e).order = s.order := (State.putCompletion_frame s v e).2.2.1
@[simp] theorem State.putCompletion_variant36 (s : State) (v : Qp) (e : Completion) : (State.putCompletion s v e).variant36 = s.variant36 := (State.putCompletion_frame s v e).2.2.2.1
@[simp] theorem State.putCompletion_enabled (s : State) (v : Qp) (e : Completion) : (State.putCompletion s v e).enabled = s.enabled := (State.putCompletion_frame s v e).2.2.2.2.1
@[simp] theorem State.putCompletion_clusters (s : State) (v : Qp) (e : Completion) : (State.putCompletion s v e).clusters = s.clusters := (State.putCompletion_frame s v e).2.2.2.2.2.1
@[simp] theorem State.putCompletion_tarn (s : State) (v : Qp) (e : Completion) : (State.putCompletion s v e).tarn = s.tarn := (State.putCompletion_frame s v e).2.2.2.2.2.2.1
@[simp] theorem State.putCompletion_pages (s : State) (v : Qp) (e : Completion) : (State.putCompletion s v e).pages = s.pages := (State.putCompletion_frame s v e).2.2.2.2.2.2.2.1
@[simp] theorem State.putCompletion_zeroRuns (s : State) (v : Qp) (e : Completion) : (State.putCompletion s v e).zeroRuns = s.zeroRuns := (State.putCompletion_frame s v e).2.2.2.2.2.2.2.2.1
@[simp] theorem State.putCompletion_regions (s : State) (v : Qp) (e : Completion) : (State.putCompletion s v e).regions = s.regions := (State.putCompletion_frame s v e).2.2.2.2.2.2.2.2.2.1
@[simp] theorem State.putCompletion_domains (s : State) (v : Qp) (e : Completion) : (State.putCompletion s v e).domains = s.domains := (State.putCompletion_frame s v e).2.2.2.2.2.2.2.2.2.2.1
@[simp] theorem State.putCompletion_xings (s : State) (v : Qp) (e : Completion) : (State.putCompletion s v e).xings = s.xings := (State.putCompletion_frame s v e).2.2.2.2.2.2.2.2.2.2.2.1
@[simp] theorem State.putCompletion_tb (s : State) (v : Qp) (e : Completion) : (State.putCompletion s v e).tb = s.tb := (State.putCompletion_frame s v e).2.2.2.2.2.2.2.2.2.2.2.2.1
@[simp] theorem State.putCompletion_net (s : State) (v : Qp) (e : Completion) : (State.putCompletion s v e).net = s.net := (State.putCompletion_frame s v e).2.2.2.2.2.2.2.2.2.2.2.2.2.1
@[simp] theorem State.putCompletion_nextPkt (s : State) (v : Qp) (e : Completion) : (State.putCompletion s v e).nextPkt = s.nextPkt := (State.putCompletion_frame s v e).2.2.2.2.2.2.2.2.2.2.2.2.2.2.1
@[simp] theorem State.putCompletion_routes (s : State) (v : Qp) (e : Completion) : (State.putCompletion s v e).routes = s.routes := (State.putCompletion_frame s v e).2.2.2.2.2.2.2.2.2.2.2.2.2.2.2.1
@[simp] theorem State.putCompletion_perimRoutes (s : State) (v : Qp) (e : Completion) : (State.putCompletion s v e).perimRoutes = s.perimRoutes := (State.putCompletion_frame s v e).2.2.2.2.2.2.2.2.2.2.2.2.2.2.2.2.1
@[simp] theorem State.putCompletion_fabLinks (s : State) (v : Qp) (e : Completion) : (State.putCompletion s v e).fabLinks = s.fabLinks := (State.putCompletion_frame s v e).2.2.2.2.2.2.2.2.2.2.2.2.2.2.2.2.2.1
@[simp] theorem State.putCompletion_discards (s : State) (v : Qp) (e : Completion) : (State.putCompletion s v e).discards = s.discards := (State.putCompletion_frame s v e).2.2.2.2.2.2.2.2.2.2.2.2.2.2.2.2.2.2.1
@[simp] theorem State.putCompletion_qps (s : State) (v : Qp) (e : Completion) : (State.putCompletion s v e).qps = s.qps := (State.putCompletion_frame s v e).2.2.2.2.2.2.2.2.2.2.2.2.2.2.2.2.2.2.2.1
@[simp] theorem State.putCompletion_fns (s : State) (v : Qp) (e : Completion) : (State.putCompletion s v e).fns = s.fns := (State.putCompletion_frame s v e).2.2.2.2.2.2.2.2.2.2.2.2.2.2.2.2.2.2.2.2.1
@[simp] theorem State.putCompletion_links (s : State) (v : Qp) (e : Completion) : (State.putCompletion s v e).links = s.links := (State.putCompletion_frame s v e).2.2.2.2.2.2.2.2.2.2.2.2.2.2.2.2.2.2.2.2.2.1
@[simp] theorem State.putCompletion_ports (s : State) (v : Qp) (e : Completion) : (State.putCompletion s v e).ports = s.ports := (State.putCompletion_frame s v e).2.2.2.2.2.2.2.2.2.2.2.2.2.2.2.2.2.2.2.2.2.2.1
@[simp] theorem State.putCompletion_hbms (s : State) (v : Qp) (e : Completion) : (State.putCompletion s v e).hbms = s.hbms := (State.putCompletion_frame s v e).2.2.2.2.2.2.2.2.2.2.2.2.2.2.2.2.2.2.2.2.2.2.2.1
@[simp] theorem State.putCompletion_cxlPorts (s : State) (v : Qp) (e : Completion) : (State.putCompletion s v e).cxlPorts = s.cxlPorts := (State.putCompletion_frame s v e).2.2.2.2.2.2.2.2.2.2.2.2.2.2.2.2.2.2.2.2.2.2.2.2.1
@[simp] theorem State.putCompletion_windows (s : State) (v : Qp) (e : Completion) : (State.putCompletion s v e).windows = s.windows := (State.putCompletion_frame s v e).2.2.2.2.2.2.2.2.2.2.2.2.2.2.2.2.2.2.2.2.2.2.2.2.2.1
@[simp] theorem State.putCompletion_bpm (s : State) (v : Qp) (e : Completion) : (State.putCompletion s v e).bpm = s.bpm := (State.putCompletion_frame s v e).2.2.2.2.2.2.2.2.2.2.2.2.2.2.2.2.2.2.2.2.2.2.2.2.2.2.1
@[simp] theorem State.putCompletion_cool (s : State) (v : Qp) (e : Completion) : (State.putCompletion s v e).cool = s.cool := (State.putCompletion_frame s v e).2.2.2.2.2.2.2.2.2.2.2.2.2.2.2.2.2.2.2.2.2.2.2.2.2.2.2.1
@[simp] theorem State.putCompletion_sec (s : State) (v : Qp) (e : Completion) : (State.putCompletion s v e).sec = s.sec := (State.putCompletion_frame s v e).2.2.2.2.2.2.2.2.2.2.2.2.2.2.2.2.2.2.2.2.2.2.2.2.2.2.2.2.1
@[simp] theorem State.putCompletion_boot (s : State) (v : Qp) (e : Completion) : (State.putCompletion s v e).boot = s.boot := (State.putCompletion_frame s v e).2.2.2.2.2.2.2.2.2.2.2.2.2.2.2.2.2.2.2.2.2.2.2.2.2.2.2.2.2.1
@[simp] theorem State.putCompletion_regs (s : State) (v : Qp) (e : Completion) : (State.putCompletion s v e).regs = s.regs := (State.putCompletion_frame s v e).2.2.2.2.2.2.2.2.2.2.2.2.2.2.2.2.2.2.2.2.2.2.2.2.2.2.2.2.2.2.1
@[simp] theorem State.putCompletion_sels (s : State) (v : Qp) (e : Completion) : (State.putCompletion s v e).sels = s.sels := (State.putCompletion_frame s v e).2.2.2.2.2.2.2.2.2.2.2.2.2.2.2.2.2.2.2.2.2.2.2.2.2.2.2.2.2.2.2.1
@[simp] theorem State.putCompletion_halves (s : State) (v : Qp) (e : Completion) : (State.putCompletion s v e).halves = s.halves := (State.putCompletion_frame s v e).2.2.2.2.2.2.2.2.2.2.2.2.2.2.2.2.2.2.2.2.2.2.2.2.2.2.2.2.2.2.2.2
@[simp] theorem State.putCompletion_cl (s : State) (v : Qp) (e : Completion) (j_ : Nat) : (State.putCompletion s v e).cl j_ = s.cl j_ := by simp only [State.cl_def, State.putCompletion_clusters]
@[simp] theorem State.putCompletion_qp (s : State) (v : Qp) (e : Completion) (j_ : Nat) : (State.putCompletion s v e).qp j_ = s.qp j_ := by simp only [State.qp_def, State.putCompletion_qps]
@[simp] theorem State.putCompletion_fn (s : State) (v : Qp) (e : Completion) (j_ : Nat) : (State.putCompletion s v e).fn j_ = s.fn j_ := by simp only [State.fn_def, State.putCompletion_fns]
@[simp] theorem State.putCompletion_link (s : State) (v : Qp) (e : Completion) (j_ : Nat) : (State.putCompletion s v e).link j_ = s.link j_ := by simp only [State.link_def, State.putCompletion_links]
@[simp] theorem State.putCompletion_port (s : State) (v : Qp) (e : Completion) (j_ : Nat) : (State.putCompletion s v e).port j_ = s.port j_ := by simp only [State.port_def, State.putCompletion_ports]
@[simp] theorem State.putCompletion_region (s : State) (v : Qp) (e : Completion) (j_ : Nat) : (State.putCompletion s v e).region j_ = s.region j_ := by simp only [State.region_def, State.putCompletion_regions]
@[simp] theorem State.putCompletion_domain (s : State) (v : Qp) (e : Completion) (j_ : Nat) : (State.putCompletion s v e).domain j_ = s.domain j_ := by simp only [State.domain_def, State.putCompletion_domains]
@[simp] theorem State.putCompletion_xing (s : State) (v : Qp) (e : Completion) (j_ : Nat) : (State.putCompletion s v e).xing j_ = s.xing j_ := by simp only [State.xing_def, State.putCompletion_xings]
@[simp] theorem State.putCompletion_hbm (s : State) (v : Qp) (e : Completion) (j_ : Nat) : (State.putCompletion s v e).hbm j_ = s.hbm j_ := by simp only [State.hbm_def, State.putCompletion_hbms]
@[simp] theorem State.putCompletion_cxl (s : State) (v : Qp) (e : Completion) (j_ : Nat) : (State.putCompletion s v e).cxl j_ = s.cxl j_ := by simp only [State.cxl_def, State.putCompletion_cxlPorts]
@[simp] theorem State.putCompletion_win (s : State) (v : Qp) (e : Completion) (j_ : Nat) : (State.putCompletion s v e).win j_ = s.win j_ := by simp only [State.win_def, State.putCompletion_windows]
@[simp] theorem State.putCompletion_page (s : State) (v : Qp) (e : Completion) (j_ : Nat) : (State.putCompletion s v e).page j_ = s.page j_ := by simp only [State.page_def, State.putCompletion_pages]
@[simp] theorem State.putCompletion_trow (s : State) (v : Qp) (e : Completion) (c_ n_ : Nat) : (State.putCompletion s v e).trow c_ n_ = s.trow c_ n_ := by simp only [State.trow_def, State.putCompletion_tarn]
@[simp] theorem State.putCompletion_now (s : State) (v : Qp) (e : Completion) : (State.putCompletion s v e).now = s.now := by simp only [State.now_def, State.putCompletion_tb]
theorem State.complete_frame (s : State) (q k status code result detail : Nat) :
    (State.complete s q k status code result detail).pending = s.pending ∧ (State.complete s q k status code result detail).fresh = s.fresh ∧ (State.complete s q k status code result detail).order = s.order ∧ (State.complete s q k status code result detail).variant36 = s.variant36 ∧ (State.complete s q k status code result detail).enabled = s.enabled ∧ (State.complete s q k status code result detail).clusters = s.clusters ∧ (State.complete s q k status code result detail).tarn = s.tarn ∧ (State.complete s q k status code result detail).pages = s.pages ∧ (State.complete s q k status code result detail).zeroRuns = s.zeroRuns ∧ (State.complete s q k status code result detail).regions = s.regions ∧ (State.complete s q k status code result detail).domains = s.domains ∧ (State.complete s q k status code result detail).xings = s.xings ∧ (State.complete s q k status code result detail).tb = s.tb ∧ (State.complete s q k status code result detail).net = s.net ∧ (State.complete s q k status code result detail).nextPkt = s.nextPkt ∧ (State.complete s q k status code result detail).routes = s.routes ∧ (State.complete s q k status code result detail).perimRoutes = s.perimRoutes ∧ (State.complete s q k status code result detail).fabLinks = s.fabLinks ∧ (State.complete s q k status code result detail).discards = s.discards ∧ (State.complete s q k status code result detail).fns = s.fns ∧ (State.complete s q k status code result detail).links = s.links ∧ (State.complete s q k status code result detail).ports = s.ports ∧ (State.complete s q k status code result detail).hbms = s.hbms ∧ (State.complete s q k status code result detail).cxlPorts = s.cxlPorts ∧ (State.complete s q k status code result detail).windows = s.windows ∧ (State.complete s q k status code result detail).bpm = s.bpm ∧ (State.complete s q k status code result detail).cool = s.cool ∧ (State.complete s q k status code result detail).sec = s.sec ∧ (State.complete s q k status code result detail).boot = s.boot ∧ (State.complete s q k status code result detail).regs = s.regs ∧ (State.complete s q k status code result detail).sels = s.sels ∧ (State.complete s q k status code result detail).halves = s.halves := by
  generalize h_ : State.complete s q k status code result detail = t_
  unfold State.complete at h_
  (try dsimp only at h_)
  (repeat' split at h_) <;> subst h_ <;> simp
@[simp] theorem State.complete_pending (s : State) (q k status code result detail : Nat) : (State.complete s q k status code result detail).pending = s.pending := (State.complete_frame s q k status code result detail).1
@[simp] theorem State.complete_fresh (s : State) (q k status code result detail : Nat) : (State.complete s q k status code result detail).fresh = s.fresh := (State.complete_frame s q k status code result detail).2.1
@[simp] theorem State.complete_order (s : State) (q k status code result detail : Nat) : (State.complete s q k status code result detail).order = s.order := (State.complete_frame s q k status code result detail).2.2.1
@[simp] theorem State.complete_variant36 (s : State) (q k status code result detail : Nat) : (State.complete s q k status code result detail).variant36 = s.variant36 := (State.complete_frame s q k status code result detail).2.2.2.1
@[simp] theorem State.complete_enabled (s : State) (q k status code result detail : Nat) : (State.complete s q k status code result detail).enabled = s.enabled := (State.complete_frame s q k status code result detail).2.2.2.2.1
@[simp] theorem State.complete_clusters (s : State) (q k status code result detail : Nat) : (State.complete s q k status code result detail).clusters = s.clusters := (State.complete_frame s q k status code result detail).2.2.2.2.2.1
@[simp] theorem State.complete_tarn (s : State) (q k status code result detail : Nat) : (State.complete s q k status code result detail).tarn = s.tarn := (State.complete_frame s q k status code result detail).2.2.2.2.2.2.1
@[simp] theorem State.complete_pages (s : State) (q k status code result detail : Nat) : (State.complete s q k status code result detail).pages = s.pages := (State.complete_frame s q k status code result detail).2.2.2.2.2.2.2.1
@[simp] theorem State.complete_zeroRuns (s : State) (q k status code result detail : Nat) : (State.complete s q k status code result detail).zeroRuns = s.zeroRuns := (State.complete_frame s q k status code result detail).2.2.2.2.2.2.2.2.1
@[simp] theorem State.complete_regions (s : State) (q k status code result detail : Nat) : (State.complete s q k status code result detail).regions = s.regions := (State.complete_frame s q k status code result detail).2.2.2.2.2.2.2.2.2.1
@[simp] theorem State.complete_domains (s : State) (q k status code result detail : Nat) : (State.complete s q k status code result detail).domains = s.domains := (State.complete_frame s q k status code result detail).2.2.2.2.2.2.2.2.2.2.1
@[simp] theorem State.complete_xings (s : State) (q k status code result detail : Nat) : (State.complete s q k status code result detail).xings = s.xings := (State.complete_frame s q k status code result detail).2.2.2.2.2.2.2.2.2.2.2.1
@[simp] theorem State.complete_tb (s : State) (q k status code result detail : Nat) : (State.complete s q k status code result detail).tb = s.tb := (State.complete_frame s q k status code result detail).2.2.2.2.2.2.2.2.2.2.2.2.1
@[simp] theorem State.complete_net (s : State) (q k status code result detail : Nat) : (State.complete s q k status code result detail).net = s.net := (State.complete_frame s q k status code result detail).2.2.2.2.2.2.2.2.2.2.2.2.2.1
@[simp] theorem State.complete_nextPkt (s : State) (q k status code result detail : Nat) : (State.complete s q k status code result detail).nextPkt = s.nextPkt := (State.complete_frame s q k status code result detail).2.2.2.2.2.2.2.2.2.2.2.2.2.2.1
@[simp] theorem State.complete_routes (s : State) (q k status code result detail : Nat) : (State.complete s q k status code result detail).routes = s.routes := (State.complete_frame s q k status code result detail).2.2.2.2.2.2.2.2.2.2.2.2.2.2.2.1
@[simp] theorem State.complete_perimRoutes (s : State) (q k status code result detail : Nat) : (State.complete s q k status code result detail).perimRoutes = s.perimRoutes := (State.complete_frame s q k status code result detail).2.2.2.2.2.2.2.2.2.2.2.2.2.2.2.2.1
@[simp] theorem State.complete_fabLinks (s : State) (q k status code result detail : Nat) : (State.complete s q k status code result detail).fabLinks = s.fabLinks := (State.complete_frame s q k status code result detail).2.2.2.2.2.2.2.2.2.2.2.2.2.2.2.2.2.1
@[simp] theorem State.complete_discards (s : State) (q k status code result detail : Nat) : (State.complete s q k status code result detail).discards = s.discards := (State.complete_frame s q k status code result detail).2.2.2.2.2.2.2.2.2.2.2.2.2.2.2.2.2.2.1
@[simp] theorem State.complete_fns (s : State) (q k status code result detail : Nat) : (State.complete s q k status code result detail).fns = s.fns := (State.complete_frame s q k status code result detail).2.2.2.2.2.2.2.2.2.2.2.2.2.2.2.2.2.2.2.1
@[simp] theorem State.complete_links (s : State) (q k status code result detail : Nat) : (State.complete s q k status code result detail).links = s.links := (State.complete_frame s q k status code result detail).2.2.2.2.2.2.2.2.2.2.2.2.2.2.2.2.2.2.2.2.1
@[simp] theorem State.complete_ports (s : State) (q k status code result detail : Nat) : (State.complete s q k status code result detail).ports = s.ports := (State.complete_frame s q k status code result detail).2.2.2.2.2.2.2.2.2.2.2.2.2.2.2.2.2.2.2.2.2.1
@[simp] theorem State.complete_hbms (s : State) (q k status code result detail : Nat) : (State.complete s q k status code result detail).hbms = s.hbms := (State.complete_frame s q k status code result detail).2.2.2.2.2.2.2.2.2.2.2.2.2.2.2.2.2.2.2.2.2.2.1
@[simp] theorem State.complete_cxlPorts (s : State) (q k status code result detail : Nat) : (State.complete s q k status code result detail).cxlPorts = s.cxlPorts := (State.complete_frame s q k status code result detail).2.2.2.2.2.2.2.2.2.2.2.2.2.2.2.2.2.2.2.2.2.2.2.1
@[simp] theorem State.complete_windows (s : State) (q k status code result detail : Nat) : (State.complete s q k status code result detail).windows = s.windows := (State.complete_frame s q k status code result detail).2.2.2.2.2.2.2.2.2.2.2.2.2.2.2.2.2.2.2.2.2.2.2.2.1
@[simp] theorem State.complete_bpm (s : State) (q k status code result detail : Nat) : (State.complete s q k status code result detail).bpm = s.bpm := (State.complete_frame s q k status code result detail).2.2.2.2.2.2.2.2.2.2.2.2.2.2.2.2.2.2.2.2.2.2.2.2.2.1
@[simp] theorem State.complete_cool (s : State) (q k status code result detail : Nat) : (State.complete s q k status code result detail).cool = s.cool := (State.complete_frame s q k status code result detail).2.2.2.2.2.2.2.2.2.2.2.2.2.2.2.2.2.2.2.2.2.2.2.2.2.2.1
@[simp] theorem State.complete_sec (s : State) (q k status code result detail : Nat) : (State.complete s q k status code result detail).sec = s.sec := (State.complete_frame s q k status code result detail).2.2.2.2.2.2.2.2.2.2.2.2.2.2.2.2.2.2.2.2.2.2.2.2.2.2.2.1
@[simp] theorem State.complete_boot (s : State) (q k status code result detail : Nat) : (State.complete s q k status code result detail).boot = s.boot := (State.complete_frame s q k status code result detail).2.2.2.2.2.2.2.2.2.2.2.2.2.2.2.2.2.2.2.2.2.2.2.2.2.2.2.2.1
@[simp] theorem State.complete_regs (s : State) (q k status code result detail : Nat) : (State.complete s q k status code result detail).regs = s.regs := (State.complete_frame s q k status code result detail).2.2.2.2.2.2.2.2.2.2.2.2.2.2.2.2.2.2.2.2.2.2.2.2.2.2.2.2.2.1
@[simp] theorem State.complete_sels (s : State) (q k status code result detail : Nat) : (State.complete s q k status code result detail).sels = s.sels := (State.complete_frame s q k status code result detail).2.2.2.2.2.2.2.2.2.2.2.2.2.2.2.2.2.2.2.2.2.2.2.2.2.2.2.2.2.2.1
@[simp] theorem State.complete_halves (s : State) (q k status code result detail : Nat) : (State.complete s q k status code result detail).halves = s.halves := (State.complete_frame s q k status code result detail).2.2.2.2.2.2.2.2.2.2.2.2.2.2.2.2.2.2.2.2.2.2.2.2.2.2.2.2.2.2.2
@[simp] theorem State.complete_cl (s : State) (q k status code result detail : Nat) (j_ : Nat) : (State.complete s q k status code result detail).cl j_ = s.cl j_ := by simp only [State.cl_def, State.complete_clusters]
@[simp] theorem State.complete_fn (s : State) (q k status code result detail : Nat) (j_ : Nat) : (State.complete s q k status code result detail).fn j_ = s.fn j_ := by simp only [State.fn_def, State.complete_fns]
@[simp] theorem State.complete_link (s : State) (q k status code result detail : Nat) (j_ : Nat) : (State.complete s q k status code result detail).link j_ = s.link j_ := by simp only [State.link_def, State.complete_links]
@[simp] theorem State.complete_port (s : State) (q k status code result detail : Nat) (j_ : Nat) : (State.complete s q k status code result detail).port j_ = s.port j_ := by simp only [State.port_def, State.complete_ports]
@[simp] theorem State.complete_region (s : State) (q k status code result detail : Nat) (j_ : Nat) : (State.complete s q k status code result detail).region j_ = s.region j_ := by simp only [State.region_def, State.complete_regions]
@[simp] theorem State.complete_domain (s : State) (q k status code result detail : Nat) (j_ : Nat) : (State.complete s q k status code result detail).domain j_ = s.domain j_ := by simp only [State.domain_def, State.complete_domains]
@[simp] theorem State.complete_xing (s : State) (q k status code result detail : Nat) (j_ : Nat) : (State.complete s q k status code result detail).xing j_ = s.xing j_ := by simp only [State.xing_def, State.complete_xings]
@[simp] theorem State.complete_hbm (s : State) (q k status code result detail : Nat) (j_ : Nat) : (State.complete s q k status code result detail).hbm j_ = s.hbm j_ := by simp only [State.hbm_def, State.complete_hbms]
@[simp] theorem State.complete_cxl (s : State) (q k status code result detail : Nat) (j_ : Nat) : (State.complete s q k status code result detail).cxl j_ = s.cxl j_ := by simp only [State.cxl_def, State.complete_cxlPorts]
@[simp] theorem State.complete_win (s : State) (q k status code result detail : Nat) (j_ : Nat) : (State.complete s q k status code result detail).win j_ = s.win j_ := by simp only [State.win_def, State.complete_windows]
@[simp] theorem State.complete_page (s : State) (q k status code result detail : Nat) (j_ : Nat) : (State.complete s q k status code result detail).page j_ = s.page j_ := by simp only [State.page_def, State.complete_pages]
@[simp] theorem State.complete_trow (s : State) (q k status code result detail : Nat) (c_ n_ : Nat) : (State.complete s q k status code result detail).trow c_ n_ = s.trow c_ n_ := by simp only [State.trow_def, State.complete_tarn]
@[simp] theorem State.complete_now (s : State) (q k status code result detail : Nat) : (State.complete s q k status code result detail).now = s.now := by simp only [State.now_def, State.complete_tb]
theorem State.countDiscard_frame (s : State) (r cause : Nat) :
    (State.countDiscard s r cause).pending = s.pending ∧ (State.countDiscard s r cause).out = s.out ∧ (State.countDiscard s r cause).fresh = s.fresh ∧ (State.countDiscard s r cause).order = s.order ∧ (State.countDiscard s r cause).variant36 = s.variant36 ∧ (State.countDiscard s r cause).enabled = s.enabled ∧ (State.countDiscard s r cause).clusters = s.clusters ∧ (State.countDiscard s r cause).tarn = s.tarn ∧ (State.countDiscard s r cause).mem = s.mem ∧ (State.countDiscard s r cause).poison = s.poison ∧ (State.countDiscard s r cause).pages = s.pages ∧ (State.countDiscard s r cause).zeroRuns = s.zeroRuns ∧ (State.countDiscard s r cause).regions = s.regions ∧ (State.countDiscard s r cause).domains = s.domains ∧ (State.countDiscard s r cause).xings = s.xings ∧ (State.countDiscard s r cause).tb = s.tb ∧ (State.countDiscard s r cause).net = s.net ∧ (State.countDiscard s r cause).nextPkt = s.nextPkt ∧ (State.countDiscard s r cause).routes = s.routes ∧ (State.countDiscard s r cause).perimRoutes = s.perimRoutes ∧ (State.countDiscard s r cause).fabLinks = s.fabLinks ∧ (State.countDiscard s r cause).parts = s.parts ∧ (State.countDiscard s r cause).ctxs = s.ctxs ∧ (State.countDiscard s r cause).qps = s.qps ∧ (State.countDiscard s r cause).fns = s.fns ∧ (State.countDiscard s r cause).links = s.links ∧ (State.countDiscard s r cause).ports = s.ports ∧ (State.countDiscard s r cause).hbms = s.hbms ∧ (State.countDiscard s r cause).cxlPorts = s.cxlPorts ∧ (State.countDiscard s r cause).windows = s.windows ∧ (State.countDiscard s r cause).cores = s.cores ∧ (State.countDiscard s r cause).dir = s.dir ∧ (State.countDiscard s r cause).bpm = s.bpm ∧ (State.countDiscard s r cause).cool = s.cool ∧ (State.countDiscard s r cause).mgt = s.mgt ∧ (State.countDiscard s r cause).sec = s.sec ∧ (State.countDiscard s r cause).boot = s.boot ∧ (State.countDiscard s r cause).regs = s.regs ∧ (State.countDiscard s r cause).sels = s.sels ∧ (State.countDiscard s r cause).halves = s.halves := by
  generalize h_ : State.countDiscard s r cause = t_
  unfold State.countDiscard at h_
  (try dsimp only at h_)
  (repeat' split at h_) <;> subst h_ <;> simp
@[simp] theorem State.countDiscard_pending (s : State) (r cause : Nat) : (State.countDiscard s r cause).pending = s.pending := (State.countDiscard_frame s r cause).1
@[simp] theorem State.countDiscard_out (s : State) (r cause : Nat) : (State.countDiscard s r cause).out = s.out := (State.countDiscard_frame s r cause).2.1
@[simp] theorem State.countDiscard_fresh (s : State) (r cause : Nat) : (State.countDiscard s r cause).fresh = s.fresh := (State.countDiscard_frame s r cause).2.2.1
@[simp] theorem State.countDiscard_order (s : State) (r cause : Nat) : (State.countDiscard s r cause).order = s.order := (State.countDiscard_frame s r cause).2.2.2.1
@[simp] theorem State.countDiscard_variant36 (s : State) (r cause : Nat) : (State.countDiscard s r cause).variant36 = s.variant36 := (State.countDiscard_frame s r cause).2.2.2.2.1
@[simp] theorem State.countDiscard_enabled (s : State) (r cause : Nat) : (State.countDiscard s r cause).enabled = s.enabled := (State.countDiscard_frame s r cause).2.2.2.2.2.1
@[simp] theorem State.countDiscard_clusters (s : State) (r cause : Nat) : (State.countDiscard s r cause).clusters = s.clusters := (State.countDiscard_frame s r cause).2.2.2.2.2.2.1
@[simp] theorem State.countDiscard_tarn (s : State) (r cause : Nat) : (State.countDiscard s r cause).tarn = s.tarn := (State.countDiscard_frame s r cause).2.2.2.2.2.2.2.1
@[simp] theorem State.countDiscard_mem (s : State) (r cause : Nat) : (State.countDiscard s r cause).mem = s.mem := (State.countDiscard_frame s r cause).2.2.2.2.2.2.2.2.1
@[simp] theorem State.countDiscard_poison (s : State) (r cause : Nat) : (State.countDiscard s r cause).poison = s.poison := (State.countDiscard_frame s r cause).2.2.2.2.2.2.2.2.2.1
@[simp] theorem State.countDiscard_pages (s : State) (r cause : Nat) : (State.countDiscard s r cause).pages = s.pages := (State.countDiscard_frame s r cause).2.2.2.2.2.2.2.2.2.2.1
@[simp] theorem State.countDiscard_zeroRuns (s : State) (r cause : Nat) : (State.countDiscard s r cause).zeroRuns = s.zeroRuns := (State.countDiscard_frame s r cause).2.2.2.2.2.2.2.2.2.2.2.1
@[simp] theorem State.countDiscard_regions (s : State) (r cause : Nat) : (State.countDiscard s r cause).regions = s.regions := (State.countDiscard_frame s r cause).2.2.2.2.2.2.2.2.2.2.2.2.1
@[simp] theorem State.countDiscard_domains (s : State) (r cause : Nat) : (State.countDiscard s r cause).domains = s.domains := (State.countDiscard_frame s r cause).2.2.2.2.2.2.2.2.2.2.2.2.2.1
@[simp] theorem State.countDiscard_xings (s : State) (r cause : Nat) : (State.countDiscard s r cause).xings = s.xings := (State.countDiscard_frame s r cause).2.2.2.2.2.2.2.2.2.2.2.2.2.2.1
@[simp] theorem State.countDiscard_tb (s : State) (r cause : Nat) : (State.countDiscard s r cause).tb = s.tb := (State.countDiscard_frame s r cause).2.2.2.2.2.2.2.2.2.2.2.2.2.2.2.1
@[simp] theorem State.countDiscard_net (s : State) (r cause : Nat) : (State.countDiscard s r cause).net = s.net := (State.countDiscard_frame s r cause).2.2.2.2.2.2.2.2.2.2.2.2.2.2.2.2.1
@[simp] theorem State.countDiscard_nextPkt (s : State) (r cause : Nat) : (State.countDiscard s r cause).nextPkt = s.nextPkt := (State.countDiscard_frame s r cause).2.2.2.2.2.2.2.2.2.2.2.2.2.2.2.2.2.1
@[simp] theorem State.countDiscard_routes (s : State) (r cause : Nat) : (State.countDiscard s r cause).routes = s.routes := (State.countDiscard_frame s r cause).2.2.2.2.2.2.2.2.2.2.2.2.2.2.2.2.2.2.1
@[simp] theorem State.countDiscard_perimRoutes (s : State) (r cause : Nat) : (State.countDiscard s r cause).perimRoutes = s.perimRoutes := (State.countDiscard_frame s r cause).2.2.2.2.2.2.2.2.2.2.2.2.2.2.2.2.2.2.2.1
@[simp] theorem State.countDiscard_fabLinks (s : State) (r cause : Nat) : (State.countDiscard s r cause).fabLinks = s.fabLinks := (State.countDiscard_frame s r cause).2.2.2.2.2.2.2.2.2.2.2.2.2.2.2.2.2.2.2.2.1
@[simp] theorem State.countDiscard_parts (s : State) (r cause : Nat) : (State.countDiscard s r cause).parts = s.parts := (State.countDiscard_frame s r cause).2.2.2.2.2.2.2.2.2.2.2.2.2.2.2.2.2.2.2.2.2.1
@[simp] theorem State.countDiscard_ctxs (s : State) (r cause : Nat) : (State.countDiscard s r cause).ctxs = s.ctxs := (State.countDiscard_frame s r cause).2.2.2.2.2.2.2.2.2.2.2.2.2.2.2.2.2.2.2.2.2.2.1
@[simp] theorem State.countDiscard_qps (s : State) (r cause : Nat) : (State.countDiscard s r cause).qps = s.qps := (State.countDiscard_frame s r cause).2.2.2.2.2.2.2.2.2.2.2.2.2.2.2.2.2.2.2.2.2.2.2.1
@[simp] theorem State.countDiscard_fns (s : State) (r cause : Nat) : (State.countDiscard s r cause).fns = s.fns := (State.countDiscard_frame s r cause).2.2.2.2.2.2.2.2.2.2.2.2.2.2.2.2.2.2.2.2.2.2.2.2.1
@[simp] theorem State.countDiscard_links (s : State) (r cause : Nat) : (State.countDiscard s r cause).links = s.links := (State.countDiscard_frame s r cause).2.2.2.2.2.2.2.2.2.2.2.2.2.2.2.2.2.2.2.2.2.2.2.2.2.1
@[simp] theorem State.countDiscard_ports (s : State) (r cause : Nat) : (State.countDiscard s r cause).ports = s.ports := (State.countDiscard_frame s r cause).2.2.2.2.2.2.2.2.2.2.2.2.2.2.2.2.2.2.2.2.2.2.2.2.2.2.1
@[simp] theorem State.countDiscard_hbms (s : State) (r cause : Nat) : (State.countDiscard s r cause).hbms = s.hbms := (State.countDiscard_frame s r cause).2.2.2.2.2.2.2.2.2.2.2.2.2.2.2.2.2.2.2.2.2.2.2.2.2.2.2.1
@[simp] theorem State.countDiscard_cxlPorts (s : State) (r cause : Nat) : (State.countDiscard s r cause).cxlPorts = s.cxlPorts := (State.countDiscard_frame s r cause).2.2.2.2.2.2.2.2.2.2.2.2.2.2.2.2.2.2.2.2.2.2.2.2.2.2.2.2.1
@[simp] theorem State.countDiscard_windows (s : State) (r cause : Nat) : (State.countDiscard s r cause).windows = s.windows := (State.countDiscard_frame s r cause).2.2.2.2.2.2.2.2.2.2.2.2.2.2.2.2.2.2.2.2.2.2.2.2.2.2.2.2.2.1
@[simp] theorem State.countDiscard_cores (s : State) (r cause : Nat) : (State.countDiscard s r cause).cores = s.cores := (State.countDiscard_frame s r cause).2.2.2.2.2.2.2.2.2.2.2.2.2.2.2.2.2.2.2.2.2.2.2.2.2.2.2.2.2.2.1
@[simp] theorem State.countDiscard_dir (s : State) (r cause : Nat) : (State.countDiscard s r cause).dir = s.dir := (State.countDiscard_frame s r cause).2.2.2.2.2.2.2.2.2.2.2.2.2.2.2.2.2.2.2.2.2.2.2.2.2.2.2.2.2.2.2.1
@[simp] theorem State.countDiscard_bpm (s : State) (r cause : Nat) : (State.countDiscard s r cause).bpm = s.bpm := (State.countDiscard_frame s r cause).2.2.2.2.2.2.2.2.2.2.2.2.2.2.2.2.2.2.2.2.2.2.2.2.2.2.2.2.2.2.2.2.1
@[simp] theorem State.countDiscard_cool (s : State) (r cause : Nat) : (State.countDiscard s r cause).cool = s.cool := (State.countDiscard_frame s r cause).2.2.2.2.2.2.2.2.2.2.2.2.2.2.2.2.2.2.2.2.2.2.2.2.2.2.2.2.2.2.2.2.2.1
@[simp] theorem State.countDiscard_mgt (s : State) (r cause : Nat) : (State.countDiscard s r cause).mgt = s.mgt := (State.countDiscard_frame s r cause).2.2.2.2.2.2.2.2.2.2.2.2.2.2.2.2.2.2.2.2.2.2.2.2.2.2.2.2.2.2.2.2.2.2.1
@[simp] theorem State.countDiscard_sec (s : State) (r cause : Nat) : (State.countDiscard s r cause).sec = s.sec := (State.countDiscard_frame s r cause).2.2.2.2.2.2.2.2.2.2.2.2.2.2.2.2.2.2.2.2.2.2.2.2.2.2.2.2.2.2.2.2.2.2.2.1
@[simp] theorem State.countDiscard_boot (s : State) (r cause : Nat) : (State.countDiscard s r cause).boot = s.boot := (State.countDiscard_frame s r cause).2.2.2.2.2.2.2.2.2.2.2.2.2.2.2.2.2.2.2.2.2.2.2.2.2.2.2.2.2.2.2.2.2.2.2.2.1
@[simp] theorem State.countDiscard_regs (s : State) (r cause : Nat) : (State.countDiscard s r cause).regs = s.regs := (State.countDiscard_frame s r cause).2.2.2.2.2.2.2.2.2.2.2.2.2.2.2.2.2.2.2.2.2.2.2.2.2.2.2.2.2.2.2.2.2.2.2.2.2.1
@[simp] theorem State.countDiscard_sels (s : State) (r cause : Nat) : (State.countDiscard s r cause).sels = s.sels := (State.countDiscard_frame s r cause).2.2.2.2.2.2.2.2.2.2.2.2.2.2.2.2.2.2.2.2.2.2.2.2.2.2.2.2.2.2.2.2.2.2.2.2.2.2.1
@[simp] theorem State.countDiscard_halves (s : State) (r cause : Nat) : (State.countDiscard s r cause).halves = s.halves := (State.countDiscard_frame s r cause).2.2.2.2.2.2.2.2.2.2.2.2.2.2.2.2.2.2.2.2.2.2.2.2.2.2.2.2.2.2.2.2.2.2.2.2.2.2.2
@[simp] theorem State.countDiscard_cl (s : State) (r cause : Nat) (j_ : Nat) : (State.countDiscard s r cause).cl j_ = s.cl j_ := by simp only [State.cl_def, State.countDiscard_clusters]
@[simp] theorem State.countDiscard_part (s : State) (r cause : Nat) (j_ : Nat) : (State.countDiscard s r cause).part j_ = s.part j_ := by simp only [State.part_def, State.countDiscard_parts]
@[simp] theorem State.countDiscard_ctx (s : State) (r cause : Nat) (j_ : Nat) : (State.countDiscard s r cause).ctx j_ = s.ctx j_ := by simp only [State.ctx_def, State.countDiscard_ctxs]
@[simp] theorem State.countDiscard_qp (s : State) (r cause : Nat) (j_ : Nat) : (State.countDiscard s r cause).qp j_ = s.qp j_ := by simp only [State.qp_def, State.countDiscard_qps]
@[simp] theorem State.countDiscard_fn (s : State) (r cause : Nat) (j_ : Nat) : (State.countDiscard s r cause).fn j_ = s.fn j_ := by simp only [State.fn_def, State.countDiscard_fns]
@[simp] theorem State.countDiscard_link (s : State) (r cause : Nat) (j_ : Nat) : (State.countDiscard s r cause).link j_ = s.link j_ := by simp only [State.link_def, State.countDiscard_links]
@[simp] theorem State.countDiscard_port (s : State) (r cause : Nat) (j_ : Nat) : (State.countDiscard s r cause).port j_ = s.port j_ := by simp only [State.port_def, State.countDiscard_ports]
@[simp] theorem State.countDiscard_region (s : State) (r cause : Nat) (j_ : Nat) : (State.countDiscard s r cause).region j_ = s.region j_ := by simp only [State.region_def, State.countDiscard_regions]
@[simp] theorem State.countDiscard_domain (s : State) (r cause : Nat) (j_ : Nat) : (State.countDiscard s r cause).domain j_ = s.domain j_ := by simp only [State.domain_def, State.countDiscard_domains]
@[simp] theorem State.countDiscard_xing (s : State) (r cause : Nat) (j_ : Nat) : (State.countDiscard s r cause).xing j_ = s.xing j_ := by simp only [State.xing_def, State.countDiscard_xings]
@[simp] theorem State.countDiscard_hbm (s : State) (r cause : Nat) (j_ : Nat) : (State.countDiscard s r cause).hbm j_ = s.hbm j_ := by simp only [State.hbm_def, State.countDiscard_hbms]
@[simp] theorem State.countDiscard_cxl (s : State) (r cause : Nat) (j_ : Nat) : (State.countDiscard s r cause).cxl j_ = s.cxl j_ := by simp only [State.cxl_def, State.countDiscard_cxlPorts]
@[simp] theorem State.countDiscard_win (s : State) (r cause : Nat) (j_ : Nat) : (State.countDiscard s r cause).win j_ = s.win j_ := by simp only [State.win_def, State.countDiscard_windows]
@[simp] theorem State.countDiscard_core (s : State) (r cause : Nat) (j_ : Nat) : (State.countDiscard s r cause).core j_ = s.core j_ := by simp only [State.core_def, State.countDiscard_cores]
@[simp] theorem State.countDiscard_dirLine (s : State) (r cause : Nat) (j_ : Nat) : (State.countDiscard s r cause).dirLine j_ = s.dirLine j_ := by simp only [State.dirLine_def, State.countDiscard_dir]
@[simp] theorem State.countDiscard_page (s : State) (r cause : Nat) (j_ : Nat) : (State.countDiscard s r cause).page j_ = s.page j_ := by simp only [State.page_def, State.countDiscard_pages]
@[simp] theorem State.countDiscard_trow (s : State) (r cause : Nat) (c_ n_ : Nat) : (State.countDiscard s r cause).trow c_ n_ = s.trow c_ n_ := by simp only [State.trow_def, State.countDiscard_tarn]
@[simp] theorem State.countDiscard_rawByte (s : State) (r cause : Nat) (a_ : Nat) : (State.countDiscard s r cause).rawByte a_ = s.rawByte a_ := by simp only [State.rawByte_def, State.countDiscard_mem]
@[simp] theorem State.countDiscard_now (s : State) (r cause : Nat) : (State.countDiscard s r cause).now = s.now := by simp only [State.now_def, State.countDiscard_tb]
theorem State.dropRequests_frame (s : State) (x : Nat) :
    (State.dropRequests s x).pending = s.pending ∧ (State.dropRequests s x).out = s.out ∧ (State.dropRequests s x).fresh = s.fresh ∧ (State.dropRequests s x).order = s.order ∧ (State.dropRequests s x).variant36 = s.variant36 ∧ (State.dropRequests s x).enabled = s.enabled ∧ (State.dropRequests s x).clusters = s.clusters ∧ (State.dropRequests s x).tarn = s.tarn ∧ (State.dropRequests s x).mem = s.mem ∧ (State.dropRequests s x).poison = s.poison ∧ (State.dropRequests s x).pages = s.pages ∧ (State.dropRequests s x).zeroRuns = s.zeroRuns ∧ (State.dropRequests s x).regions = s.regions ∧ (State.dropRequests s x).domains = s.domains ∧ (State.dropRequests s x).xings = s.xings ∧ (State.dropRequests s x).tb = s.tb ∧ (State.dropRequests s x).nextPkt = s.nextPkt ∧ (State.dropRequests s x).routes = s.routes ∧ (State.dropRequests s x).perimRoutes = s.perimRoutes ∧ (State.dropRequests s x).fabLinks = s.fabLinks ∧ (State.dropRequests s x).parts = s.parts ∧ (State.dropRequests s x).ctxs = s.ctxs ∧ (State.dropRequests s x).qps = s.qps ∧ (State.dropRequests s x).fns = s.fns ∧ (State.dropRequests s x).links = s.links ∧ (State.dropRequests s x).ports = s.ports ∧ (State.dropRequests s x).hbms = s.hbms ∧ (State.dropRequests s x).cxlPorts = s.cxlPorts ∧ (State.dropRequests s x).windows = s.windows ∧ (State.dropRequests s x).cores = s.cores ∧ (State.dropRequests s x).dir = s.dir ∧ (State.dropRequests s x).bpm = s.bpm ∧ (State.dropRequests s x).cool = s.cool ∧ (State.dropRequests s x).mgt = s.mgt ∧ (State.dropRequests s x).sec = s.sec ∧ (State.dropRequests s x).boot = s.boot ∧ (State.dropRequests s x).regs = s.regs ∧ (State.dropRequests s x).sels = s.sels ∧ (State.dropRequests s x).halves = s.halves := by
  generalize h_ : State.dropRequests s x = t_
  unfold State.dropRequests at h_
  (try dsimp only at h_)
  (repeat' split at h_) <;> subst h_ <;> simp
@[simp] theorem State.dropRequests_pending (s : State) (x : Nat) : (State.dropRequests s x).pending = s.pending := (State.dropRequests_frame s x).1
@[simp] theorem State.dropRequests_out (s : State) (x : Nat) : (State.dropRequests s x).out = s.out := (State.dropRequests_frame s x).2.1
@[simp] theorem State.dropRequests_fresh (s : State) (x : Nat) : (State.dropRequests s x).fresh = s.fresh := (State.dropRequests_frame s x).2.2.1
@[simp] theorem State.dropRequests_order (s : State) (x : Nat) : (State.dropRequests s x).order = s.order := (State.dropRequests_frame s x).2.2.2.1
@[simp] theorem State.dropRequests_variant36 (s : State) (x : Nat) : (State.dropRequests s x).variant36 = s.variant36 := (State.dropRequests_frame s x).2.2.2.2.1
@[simp] theorem State.dropRequests_enabled (s : State) (x : Nat) : (State.dropRequests s x).enabled = s.enabled := (State.dropRequests_frame s x).2.2.2.2.2.1
@[simp] theorem State.dropRequests_clusters (s : State) (x : Nat) : (State.dropRequests s x).clusters = s.clusters := (State.dropRequests_frame s x).2.2.2.2.2.2.1
@[simp] theorem State.dropRequests_tarn (s : State) (x : Nat) : (State.dropRequests s x).tarn = s.tarn := (State.dropRequests_frame s x).2.2.2.2.2.2.2.1
@[simp] theorem State.dropRequests_mem (s : State) (x : Nat) : (State.dropRequests s x).mem = s.mem := (State.dropRequests_frame s x).2.2.2.2.2.2.2.2.1
@[simp] theorem State.dropRequests_poison (s : State) (x : Nat) : (State.dropRequests s x).poison = s.poison := (State.dropRequests_frame s x).2.2.2.2.2.2.2.2.2.1
@[simp] theorem State.dropRequests_pages (s : State) (x : Nat) : (State.dropRequests s x).pages = s.pages := (State.dropRequests_frame s x).2.2.2.2.2.2.2.2.2.2.1
@[simp] theorem State.dropRequests_zeroRuns (s : State) (x : Nat) : (State.dropRequests s x).zeroRuns = s.zeroRuns := (State.dropRequests_frame s x).2.2.2.2.2.2.2.2.2.2.2.1
@[simp] theorem State.dropRequests_regions (s : State) (x : Nat) : (State.dropRequests s x).regions = s.regions := (State.dropRequests_frame s x).2.2.2.2.2.2.2.2.2.2.2.2.1
@[simp] theorem State.dropRequests_domains (s : State) (x : Nat) : (State.dropRequests s x).domains = s.domains := (State.dropRequests_frame s x).2.2.2.2.2.2.2.2.2.2.2.2.2.1
@[simp] theorem State.dropRequests_xings (s : State) (x : Nat) : (State.dropRequests s x).xings = s.xings := (State.dropRequests_frame s x).2.2.2.2.2.2.2.2.2.2.2.2.2.2.1
@[simp] theorem State.dropRequests_tb (s : State) (x : Nat) : (State.dropRequests s x).tb = s.tb := (State.dropRequests_frame s x).2.2.2.2.2.2.2.2.2.2.2.2.2.2.2.1
@[simp] theorem State.dropRequests_nextPkt (s : State) (x : Nat) : (State.dropRequests s x).nextPkt = s.nextPkt := (State.dropRequests_frame s x).2.2.2.2.2.2.2.2.2.2.2.2.2.2.2.2.1
@[simp] theorem State.dropRequests_routes (s : State) (x : Nat) : (State.dropRequests s x).routes = s.routes := (State.dropRequests_frame s x).2.2.2.2.2.2.2.2.2.2.2.2.2.2.2.2.2.1
@[simp] theorem State.dropRequests_perimRoutes (s : State) (x : Nat) : (State.dropRequests s x).perimRoutes = s.perimRoutes := (State.dropRequests_frame s x).2.2.2.2.2.2.2.2.2.2.2.2.2.2.2.2.2.2.1
@[simp] theorem State.dropRequests_fabLinks (s : State) (x : Nat) : (State.dropRequests s x).fabLinks = s.fabLinks := (State.dropRequests_frame s x).2.2.2.2.2.2.2.2.2.2.2.2.2.2.2.2.2.2.2.1
@[simp] theorem State.dropRequests_parts (s : State) (x : Nat) : (State.dropRequests s x).parts = s.parts := (State.dropRequests_frame s x).2.2.2.2.2.2.2.2.2.2.2.2.2.2.2.2.2.2.2.2.1
@[simp] theorem State.dropRequests_ctxs (s : State) (x : Nat) : (State.dropRequests s x).ctxs = s.ctxs := (State.dropRequests_frame s x).2.2.2.2.2.2.2.2.2.2.2.2.2.2.2.2.2.2.2.2.2.1
@[simp] theorem State.dropRequests_qps (s : State) (x : Nat) : (State.dropRequests s x).qps = s.qps := (State.dropRequests_frame s x).2.2.2.2.2.2.2.2.2.2.2.2.2.2.2.2.2.2.2.2.2.2.1
@[simp] theorem State.dropRequests_fns (s : State) (x : Nat) : (State.dropRequests s x).fns = s.fns := (State.dropRequests_frame s x).2.2.2.2.2.2.2.2.2.2.2.2.2.2.2.2.2.2.2.2.2.2.2.1
@[simp] theorem State.dropRequests_links (s : State) (x : Nat) : (State.dropRequests s x).links = s.links := (State.dropRequests_frame s x).2.2.2.2.2.2.2.2.2.2.2.2.2.2.2.2.2.2.2.2.2.2.2.2.1
@[simp] theorem State.dropRequests_ports (s : State) (x : Nat) : (State.dropRequests s x).ports = s.ports := (State.dropRequests_frame s x).2.2.2.2.2.2.2.2.2.2.2.2.2.2.2.2.2.2.2.2.2.2.2.2.2.1
@[simp] theorem State.dropRequests_hbms (s : State) (x : Nat) : (State.dropRequests s x).hbms = s.hbms := (State.dropRequests_frame s x).2.2.2.2.2.2.2.2.2.2.2.2.2.2.2.2.2.2.2.2.2.2.2.2.2.2.1
@[simp] theorem State.dropRequests_cxlPorts (s : State) (x : Nat) : (State.dropRequests s x).cxlPorts = s.cxlPorts := (State.dropRequests_frame s x).2.2.2.2.2.2.2.2.2.2.2.2.2.2.2.2.2.2.2.2.2.2.2.2.2.2.2.1
@[simp] theorem State.dropRequests_windows (s : State) (x : Nat) : (State.dropRequests s x).windows = s.windows := (State.dropRequests_frame s x).2.2.2.2.2.2.2.2.2.2.2.2.2.2.2.2.2.2.2.2.2.2.2.2.2.2.2.2.1
@[simp] theorem State.dropRequests_cores (s : State) (x : Nat) : (State.dropRequests s x).cores = s.cores := (State.dropRequests_frame s x).2.2.2.2.2.2.2.2.2.2.2.2.2.2.2.2.2.2.2.2.2.2.2.2.2.2.2.2.2.1
@[simp] theorem State.dropRequests_dir (s : State) (x : Nat) : (State.dropRequests s x).dir = s.dir := (State.dropRequests_frame s x).2.2.2.2.2.2.2.2.2.2.2.2.2.2.2.2.2.2.2.2.2.2.2.2.2.2.2.2.2.2.1
@[simp] theorem State.dropRequests_bpm (s : State) (x : Nat) : (State.dropRequests s x).bpm = s.bpm := (State.dropRequests_frame s x).2.2.2.2.2.2.2.2.2.2.2.2.2.2.2.2.2.2.2.2.2.2.2.2.2.2.2.2.2.2.2.1
@[simp] theorem State.dropRequests_cool (s : State) (x : Nat) : (State.dropRequests s x).cool = s.cool := (State.dropRequests_frame s x).2.2.2.2.2.2.2.2.2.2.2.2.2.2.2.2.2.2.2.2.2.2.2.2.2.2.2.2.2.2.2.2.1
@[simp] theorem State.dropRequests_mgt (s : State) (x : Nat) : (State.dropRequests s x).mgt = s.mgt := (State.dropRequests_frame s x).2.2.2.2.2.2.2.2.2.2.2.2.2.2.2.2.2.2.2.2.2.2.2.2.2.2.2.2.2.2.2.2.2.1
@[simp] theorem State.dropRequests_sec (s : State) (x : Nat) : (State.dropRequests s x).sec = s.sec := (State.dropRequests_frame s x).2.2.2.2.2.2.2.2.2.2.2.2.2.2.2.2.2.2.2.2.2.2.2.2.2.2.2.2.2.2.2.2.2.2.1
@[simp] theorem State.dropRequests_boot (s : State) (x : Nat) : (State.dropRequests s x).boot = s.boot := (State.dropRequests_frame s x).2.2.2.2.2.2.2.2.2.2.2.2.2.2.2.2.2.2.2.2.2.2.2.2.2.2.2.2.2.2.2.2.2.2.2.1
@[simp] theorem State.dropRequests_regs (s : State) (x : Nat) : (State.dropRequests s x).regs = s.regs := (State.dropRequests_frame s x).2.2.2.2.2.2.2.2.2.2.2.2.2.2.2.2.2.2.2.2.2.2.2.2.2.2.2.2.2.2.2.2.2.2.2.2.1
@[simp] theorem State.dropRequests_sels (s : State) (x : Nat) : (State.dropRequests s x).sels = s.sels := (State.dropRequests_frame s x).2.2.2.2.2.2.2.2.2.2.2.2.2.2.2.2.2.2.2.2.2.2.2.2.2.2.2.2.2.2.2.2.2.2.2.2.2.1
@[simp] theorem State.dropRequests_halves (s : State) (x : Nat) : (State.dropRequests s x).halves = s.halves := (State.dropRequests_frame s x).2.2.2.2.2.2.2.2.2.2.2.2.2.2.2.2.2.2.2.2.2.2.2.2.2.2.2.2.2.2.2.2.2.2.2.2.2.2
@[simp] theorem State.dropRequests_cl (s : State) (x : Nat) (j_ : Nat) : (State.dropRequests s x).cl j_ = s.cl j_ := by simp only [State.cl_def, State.dropRequests_clusters]
@[simp] theorem State.dropRequests_part (s : State) (x : Nat) (j_ : Nat) : (State.dropRequests s x).part j_ = s.part j_ := by simp only [State.part_def, State.dropRequests_parts]
@[simp] theorem State.dropRequests_ctx (s : State) (x : Nat) (j_ : Nat) : (State.dropRequests s x).ctx j_ = s.ctx j_ := by simp only [State.ctx_def, State.dropRequests_ctxs]
@[simp] theorem State.dropRequests_qp (s : State) (x : Nat) (j_ : Nat) : (State.dropRequests s x).qp j_ = s.qp j_ := by simp only [State.qp_def, State.dropRequests_qps]
@[simp] theorem State.dropRequests_fn (s : State) (x : Nat) (j_ : Nat) : (State.dropRequests s x).fn j_ = s.fn j_ := by simp only [State.fn_def, State.dropRequests_fns]
@[simp] theorem State.dropRequests_link (s : State) (x : Nat) (j_ : Nat) : (State.dropRequests s x).link j_ = s.link j_ := by simp only [State.link_def, State.dropRequests_links]
@[simp] theorem State.dropRequests_port (s : State) (x : Nat) (j_ : Nat) : (State.dropRequests s x).port j_ = s.port j_ := by simp only [State.port_def, State.dropRequests_ports]
@[simp] theorem State.dropRequests_region (s : State) (x : Nat) (j_ : Nat) : (State.dropRequests s x).region j_ = s.region j_ := by simp only [State.region_def, State.dropRequests_regions]
@[simp] theorem State.dropRequests_domain (s : State) (x : Nat) (j_ : Nat) : (State.dropRequests s x).domain j_ = s.domain j_ := by simp only [State.domain_def, State.dropRequests_domains]
@[simp] theorem State.dropRequests_xing (s : State) (x : Nat) (j_ : Nat) : (State.dropRequests s x).xing j_ = s.xing j_ := by simp only [State.xing_def, State.dropRequests_xings]
@[simp] theorem State.dropRequests_hbm (s : State) (x : Nat) (j_ : Nat) : (State.dropRequests s x).hbm j_ = s.hbm j_ := by simp only [State.hbm_def, State.dropRequests_hbms]
@[simp] theorem State.dropRequests_cxl (s : State) (x : Nat) (j_ : Nat) : (State.dropRequests s x).cxl j_ = s.cxl j_ := by simp only [State.cxl_def, State.dropRequests_cxlPorts]
@[simp] theorem State.dropRequests_win (s : State) (x : Nat) (j_ : Nat) : (State.dropRequests s x).win j_ = s.win j_ := by simp only [State.win_def, State.dropRequests_windows]
@[simp] theorem State.dropRequests_core (s : State) (x : Nat) (j_ : Nat) : (State.dropRequests s x).core j_ = s.core j_ := by simp only [State.core_def, State.dropRequests_cores]
@[simp] theorem State.dropRequests_dirLine (s : State) (x : Nat) (j_ : Nat) : (State.dropRequests s x).dirLine j_ = s.dirLine j_ := by simp only [State.dirLine_def, State.dropRequests_dir]
@[simp] theorem State.dropRequests_page (s : State) (x : Nat) (j_ : Nat) : (State.dropRequests s x).page j_ = s.page j_ := by simp only [State.page_def, State.dropRequests_pages]
@[simp] theorem State.dropRequests_trow (s : State) (x : Nat) (c_ n_ : Nat) : (State.dropRequests s x).trow c_ n_ = s.trow c_ n_ := by simp only [State.trow_def, State.dropRequests_tarn]
@[simp] theorem State.dropRequests_rawByte (s : State) (x : Nat) (a_ : Nat) : (State.dropRequests s x).rawByte a_ = s.rawByte a_ := by simp only [State.rawByte_def, State.dropRequests_mem]
@[simp] theorem State.dropRequests_now (s : State) (x : Nat) : (State.dropRequests s x).now = s.now := by simp only [State.now_def, State.dropRequests_tb]
theorem State.modPartClusters_frame (s : State) (p : Nat) (f : Nat → Cluster → Cluster) :
    (State.modPartClusters s p f).pending = s.pending ∧ (State.modPartClusters s p f).out = s.out ∧ (State.modPartClusters s p f).fresh = s.fresh ∧ (State.modPartClusters s p f).order = s.order ∧ (State.modPartClusters s p f).variant36 = s.variant36 ∧ (State.modPartClusters s p f).enabled = s.enabled ∧ (State.modPartClusters s p f).tarn = s.tarn ∧ (State.modPartClusters s p f).mem = s.mem ∧ (State.modPartClusters s p f).poison = s.poison ∧ (State.modPartClusters s p f).pages = s.pages ∧ (State.modPartClusters s p f).zeroRuns = s.zeroRuns ∧ (State.modPartClusters s p f).regions = s.regions ∧ (State.modPartClusters s p f).domains = s.domains ∧ (State.modPartClusters s p f).xings = s.xings ∧ (State.modPartClusters s p f).tb = s.tb ∧ (State.modPartClusters s p f).net = s.net ∧ (State.modPartClusters s p f).nextPkt = s.nextPkt ∧ (State.modPartClusters s p f).routes = s.routes ∧ (State.modPartClusters s p f).perimRoutes = s.perimRoutes ∧ (State.modPartClusters s p f).fabLinks = s.fabLinks ∧ (State.modPartClusters s p f).discards = s.discards ∧ (State.modPartClusters s p f).parts = s.parts ∧ (State.modPartClusters s p f).ctxs = s.ctxs ∧ (State.modPartClusters s p f).qps = s.qps ∧ (State.modPartClusters s p f).fns = s.fns ∧ (State.modPartClusters s p f).links = s.links ∧ (State.modPartClusters s p f).ports = s.ports ∧ (State.modPartClusters s p f).hbms = s.hbms ∧ (State.modPartClusters s p f).cxlPorts = s.cxlPorts ∧ (State.modPartClusters s p f).windows = s.windows ∧ (State.modPartClusters s p f).cores = s.cores ∧ (State.modPartClusters s p f).dir = s.dir ∧ (State.modPartClusters s p f).bpm = s.bpm ∧ (State.modPartClusters s p f).cool = s.cool ∧ (State.modPartClusters s p f).mgt = s.mgt ∧ (State.modPartClusters s p f).sec = s.sec ∧ (State.modPartClusters s p f).boot = s.boot ∧ (State.modPartClusters s p f).regs = s.regs ∧ (State.modPartClusters s p f).sels = s.sels ∧ (State.modPartClusters s p f).halves = s.halves := by
  generalize h_ : State.modPartClusters s p f = t_
  unfold State.modPartClusters at h_
  (try dsimp only at h_)
  (repeat' split at h_) <;> subst h_ <;> simp
@[simp] theorem State.modPartClusters_pending (s : State) (p : Nat) (f : Nat → Cluster → Cluster) : (State.modPartClusters s p f).pending = s.pending := (State.modPartClusters_frame s p f).1
@[simp] theorem State.modPartClusters_out (s : State) (p : Nat) (f : Nat → Cluster → Cluster) : (State.modPartClusters s p f).out = s.out := (State.modPartClusters_frame s p f).2.1
@[simp] theorem State.modPartClusters_fresh (s : State) (p : Nat) (f : Nat → Cluster → Cluster) : (State.modPartClusters s p f).fresh = s.fresh := (State.modPartClusters_frame s p f).2.2.1
@[simp] theorem State.modPartClusters_order (s : State) (p : Nat) (f : Nat → Cluster → Cluster) : (State.modPartClusters s p f).order = s.order := (State.modPartClusters_frame s p f).2.2.2.1
@[simp] theorem State.modPartClusters_variant36 (s : State) (p : Nat) (f : Nat → Cluster → Cluster) : (State.modPartClusters s p f).variant36 = s.variant36 := (State.modPartClusters_frame s p f).2.2.2.2.1
@[simp] theorem State.modPartClusters_enabled (s : State) (p : Nat) (f : Nat → Cluster → Cluster) : (State.modPartClusters s p f).enabled = s.enabled := (State.modPartClusters_frame s p f).2.2.2.2.2.1
@[simp] theorem State.modPartClusters_tarn (s : State) (p : Nat) (f : Nat → Cluster → Cluster) : (State.modPartClusters s p f).tarn = s.tarn := (State.modPartClusters_frame s p f).2.2.2.2.2.2.1
@[simp] theorem State.modPartClusters_mem (s : State) (p : Nat) (f : Nat → Cluster → Cluster) : (State.modPartClusters s p f).mem = s.mem := (State.modPartClusters_frame s p f).2.2.2.2.2.2.2.1
@[simp] theorem State.modPartClusters_poison (s : State) (p : Nat) (f : Nat → Cluster → Cluster) : (State.modPartClusters s p f).poison = s.poison := (State.modPartClusters_frame s p f).2.2.2.2.2.2.2.2.1
@[simp] theorem State.modPartClusters_pages (s : State) (p : Nat) (f : Nat → Cluster → Cluster) : (State.modPartClusters s p f).pages = s.pages := (State.modPartClusters_frame s p f).2.2.2.2.2.2.2.2.2.1
@[simp] theorem State.modPartClusters_zeroRuns (s : State) (p : Nat) (f : Nat → Cluster → Cluster) : (State.modPartClusters s p f).zeroRuns = s.zeroRuns := (State.modPartClusters_frame s p f).2.2.2.2.2.2.2.2.2.2.1
@[simp] theorem State.modPartClusters_regions (s : State) (p : Nat) (f : Nat → Cluster → Cluster) : (State.modPartClusters s p f).regions = s.regions := (State.modPartClusters_frame s p f).2.2.2.2.2.2.2.2.2.2.2.1
@[simp] theorem State.modPartClusters_domains (s : State) (p : Nat) (f : Nat → Cluster → Cluster) : (State.modPartClusters s p f).domains = s.domains := (State.modPartClusters_frame s p f).2.2.2.2.2.2.2.2.2.2.2.2.1
@[simp] theorem State.modPartClusters_xings (s : State) (p : Nat) (f : Nat → Cluster → Cluster) : (State.modPartClusters s p f).xings = s.xings := (State.modPartClusters_frame s p f).2.2.2.2.2.2.2.2.2.2.2.2.2.1
@[simp] theorem State.modPartClusters_tb (s : State) (p : Nat) (f : Nat → Cluster → Cluster) : (State.modPartClusters s p f).tb = s.tb := (State.modPartClusters_frame s p f).2.2.2.2.2.2.2.2.2.2.2.2.2.2.1
@[simp] theorem State.modPartClusters_net (s : State) (p : Nat) (f : Nat → Cluster → Cluster) : (State.modPartClusters s p f).net = s.net := (State.modPartClusters_frame s p f).2.2.2.2.2.2.2.2.2.2.2.2.2.2.2.1
@[simp] theorem State.modPartClusters_nextPkt (s : State) (p : Nat) (f : Nat → Cluster → Cluster) : (State.modPartClusters s p f).nextPkt = s.nextPkt := (State.modPartClusters_frame s p f).2.2.2.2.2.2.2.2.2.2.2.2.2.2.2.2.1
@[simp] theorem State.modPartClusters_routes (s : State) (p : Nat) (f : Nat → Cluster → Cluster) : (State.modPartClusters s p f).routes = s.routes := (State.modPartClusters_frame s p f).2.2.2.2.2.2.2.2.2.2.2.2.2.2.2.2.2.1
@[simp] theorem State.modPartClusters_perimRoutes (s : State) (p : Nat) (f : Nat → Cluster → Cluster) : (State.modPartClusters s p f).perimRoutes = s.perimRoutes := (State.modPartClusters_frame s p f).2.2.2.2.2.2.2.2.2.2.2.2.2.2.2.2.2.2.1
@[simp] theorem State.modPartClusters_fabLinks (s : State) (p : Nat) (f : Nat → Cluster → Cluster) : (State.modPartClusters s p f).fabLinks = s.fabLinks := (State.modPartClusters_frame s p f).2.2.2.2.2.2.2.2.2.2.2.2.2.2.2.2.2.2.2.1
@[simp] theorem State.modPartClusters_discards (s : State) (p : Nat) (f : Nat → Cluster → Cluster) : (State.modPartClusters s p f).discards = s.discards := (State.modPartClusters_frame s p f).2.2.2.2.2.2.2.2.2.2.2.2.2.2.2.2.2.2.2.2.1
@[simp] theorem State.modPartClusters_parts (s : State) (p : Nat) (f : Nat → Cluster → Cluster) : (State.modPartClusters s p f).parts = s.parts := (State.modPartClusters_frame s p f).2.2.2.2.2.2.2.2.2.2.2.2.2.2.2.2.2.2.2.2.2.1
@[simp] theorem State.modPartClusters_ctxs (s : State) (p : Nat) (f : Nat → Cluster → Cluster) : (State.modPartClusters s p f).ctxs = s.ctxs := (State.modPartClusters_frame s p f).2.2.2.2.2.2.2.2.2.2.2.2.2.2.2.2.2.2.2.2.2.2.1
@[simp] theorem State.modPartClusters_qps (s : State) (p : Nat) (f : Nat → Cluster → Cluster) : (State.modPartClusters s p f).qps = s.qps := (State.modPartClusters_frame s p f).2.2.2.2.2.2.2.2.2.2.2.2.2.2.2.2.2.2.2.2.2.2.2.1
@[simp] theorem State.modPartClusters_fns (s : State) (p : Nat) (f : Nat → Cluster → Cluster) : (State.modPartClusters s p f).fns = s.fns := (State.modPartClusters_frame s p f).2.2.2.2.2.2.2.2.2.2.2.2.2.2.2.2.2.2.2.2.2.2.2.2.1
@[simp] theorem State.modPartClusters_links (s : State) (p : Nat) (f : Nat → Cluster → Cluster) : (State.modPartClusters s p f).links = s.links := (State.modPartClusters_frame s p f).2.2.2.2.2.2.2.2.2.2.2.2.2.2.2.2.2.2.2.2.2.2.2.2.2.1
@[simp] theorem State.modPartClusters_ports (s : State) (p : Nat) (f : Nat → Cluster → Cluster) : (State.modPartClusters s p f).ports = s.ports := (State.modPartClusters_frame s p f).2.2.2.2.2.2.2.2.2.2.2.2.2.2.2.2.2.2.2.2.2.2.2.2.2.2.1
@[simp] theorem State.modPartClusters_hbms (s : State) (p : Nat) (f : Nat → Cluster → Cluster) : (State.modPartClusters s p f).hbms = s.hbms := (State.modPartClusters_frame s p f).2.2.2.2.2.2.2.2.2.2.2.2.2.2.2.2.2.2.2.2.2.2.2.2.2.2.2.1
@[simp] theorem State.modPartClusters_cxlPorts (s : State) (p : Nat) (f : Nat → Cluster → Cluster) : (State.modPartClusters s p f).cxlPorts = s.cxlPorts := (State.modPartClusters_frame s p f).2.2.2.2.2.2.2.2.2.2.2.2.2.2.2.2.2.2.2.2.2.2.2.2.2.2.2.2.1
@[simp] theorem State.modPartClusters_windows (s : State) (p : Nat) (f : Nat → Cluster → Cluster) : (State.modPartClusters s p f).windows = s.windows := (State.modPartClusters_frame s p f).2.2.2.2.2.2.2.2.2.2.2.2.2.2.2.2.2.2.2.2.2.2.2.2.2.2.2.2.2.1
@[simp] theorem State.modPartClusters_cores (s : State) (p : Nat) (f : Nat → Cluster → Cluster) : (State.modPartClusters s p f).cores = s.cores := (State.modPartClusters_frame s p f).2.2.2.2.2.2.2.2.2.2.2.2.2.2.2.2.2.2.2.2.2.2.2.2.2.2.2.2.2.2.1
@[simp] theorem State.modPartClusters_dir (s : State) (p : Nat) (f : Nat → Cluster → Cluster) : (State.modPartClusters s p f).dir = s.dir := (State.modPartClusters_frame s p f).2.2.2.2.2.2.2.2.2.2.2.2.2.2.2.2.2.2.2.2.2.2.2.2.2.2.2.2.2.2.2.1
@[simp] theorem State.modPartClusters_bpm (s : State) (p : Nat) (f : Nat → Cluster → Cluster) : (State.modPartClusters s p f).bpm = s.bpm := (State.modPartClusters_frame s p f).2.2.2.2.2.2.2.2.2.2.2.2.2.2.2.2.2.2.2.2.2.2.2.2.2.2.2.2.2.2.2.2.1
@[simp] theorem State.modPartClusters_cool (s : State) (p : Nat) (f : Nat → Cluster → Cluster) : (State.modPartClusters s p f).cool = s.cool := (State.modPartClusters_frame s p f).2.2.2.2.2.2.2.2.2.2.2.2.2.2.2.2.2.2.2.2.2.2.2.2.2.2.2.2.2.2.2.2.2.1
@[simp] theorem State.modPartClusters_mgt (s : State) (p : Nat) (f : Nat → Cluster → Cluster) : (State.modPartClusters s p f).mgt = s.mgt := (State.modPartClusters_frame s p f).2.2.2.2.2.2.2.2.2.2.2.2.2.2.2.2.2.2.2.2.2.2.2.2.2.2.2.2.2.2.2.2.2.2.1
@[simp] theorem State.modPartClusters_sec (s : State) (p : Nat) (f : Nat → Cluster → Cluster) : (State.modPartClusters s p f).sec = s.sec := (State.modPartClusters_frame s p f).2.2.2.2.2.2.2.2.2.2.2.2.2.2.2.2.2.2.2.2.2.2.2.2.2.2.2.2.2.2.2.2.2.2.2.1
@[simp] theorem State.modPartClusters_boot (s : State) (p : Nat) (f : Nat → Cluster → Cluster) : (State.modPartClusters s p f).boot = s.boot := (State.modPartClusters_frame s p f).2.2.2.2.2.2.2.2.2.2.2.2.2.2.2.2.2.2.2.2.2.2.2.2.2.2.2.2.2.2.2.2.2.2.2.2.1
@[simp] theorem State.modPartClusters_regs (s : State) (p : Nat) (f : Nat → Cluster → Cluster) : (State.modPartClusters s p f).regs = s.regs := (State.modPartClusters_frame s p f).2.2.2.2.2.2.2.2.2.2.2.2.2.2.2.2.2.2.2.2.2.2.2.2.2.2.2.2.2.2.2.2.2.2.2.2.2.1
@[simp] theorem State.modPartClusters_sels (s : State) (p : Nat) (f : Nat → Cluster → Cluster) : (State.modPartClusters s p f).sels = s.sels := (State.modPartClusters_frame s p f).2.2.2.2.2.2.2.2.2.2.2.2.2.2.2.2.2.2.2.2.2.2.2.2.2.2.2.2.2.2.2.2.2.2.2.2.2.2.1
@[simp] theorem State.modPartClusters_halves (s : State) (p : Nat) (f : Nat → Cluster → Cluster) : (State.modPartClusters s p f).halves = s.halves := (State.modPartClusters_frame s p f).2.2.2.2.2.2.2.2.2.2.2.2.2.2.2.2.2.2.2.2.2.2.2.2.2.2.2.2.2.2.2.2.2.2.2.2.2.2.2
@[simp] theorem State.modPartClusters_part (s : State) (p : Nat) (f : Nat → Cluster → Cluster) (j_ : Nat) : (State.modPartClusters s p f).part j_ = s.part j_ := by simp only [State.part_def, State.modPartClusters_parts]
@[simp] theorem State.modPartClusters_ctx (s : State) (p : Nat) (f : Nat → Cluster → Cluster) (j_ : Nat) : (State.modPartClusters s p f).ctx j_ = s.ctx j_ := by simp only [State.ctx_def, State.modPartClusters_ctxs]
@[simp] theorem State.modPartClusters_qp (s : State) (p : Nat) (f : Nat → Cluster → Cluster) (j_ : Nat) : (State.modPartClusters s p f).qp j_ = s.qp j_ := by simp only [State.qp_def, State.modPartClusters_qps]
@[simp] theorem State.modPartClusters_fn (s : State) (p : Nat) (f : Nat → Cluster → Cluster) (j_ : Nat) : (State.modPartClusters s p f).fn j_ = s.fn j_ := by simp only [State.fn_def, State.modPartClusters_fns]
@[simp] theorem State.modPartClusters_link (s : State) (p : Nat) (f : Nat → Cluster → Cluster) (j_ : Nat) : (State.modPartClusters s p f).link j_ = s.link j_ := by simp only [State.link_def, State.modPartClusters_links]
@[simp] theorem State.modPartClusters_port (s : State) (p : Nat) (f : Nat → Cluster → Cluster) (j_ : Nat) : (State.modPartClusters s p f).port j_ = s.port j_ := by simp only [State.port_def, State.modPartClusters_ports]
@[simp] theorem State.modPartClusters_region (s : State) (p : Nat) (f : Nat → Cluster → Cluster) (j_ : Nat) : (State.modPartClusters s p f).region j_ = s.region j_ := by simp only [State.region_def, State.modPartClusters_regions]
@[simp] theorem State.modPartClusters_domain (s : State) (p : Nat) (f : Nat → Cluster → Cluster) (j_ : Nat) : (State.modPartClusters s p f).domain j_ = s.domain j_ := by simp only [State.domain_def, State.modPartClusters_domains]
@[simp] theorem State.modPartClusters_xing (s : State) (p : Nat) (f : Nat → Cluster → Cluster) (j_ : Nat) : (State.modPartClusters s p f).xing j_ = s.xing j_ := by simp only [State.xing_def, State.modPartClusters_xings]
@[simp] theorem State.modPartClusters_hbm (s : State) (p : Nat) (f : Nat → Cluster → Cluster) (j_ : Nat) : (State.modPartClusters s p f).hbm j_ = s.hbm j_ := by simp only [State.hbm_def, State.modPartClusters_hbms]
@[simp] theorem State.modPartClusters_cxl (s : State) (p : Nat) (f : Nat → Cluster → Cluster) (j_ : Nat) : (State.modPartClusters s p f).cxl j_ = s.cxl j_ := by simp only [State.cxl_def, State.modPartClusters_cxlPorts]
@[simp] theorem State.modPartClusters_win (s : State) (p : Nat) (f : Nat → Cluster → Cluster) (j_ : Nat) : (State.modPartClusters s p f).win j_ = s.win j_ := by simp only [State.win_def, State.modPartClusters_windows]
@[simp] theorem State.modPartClusters_core (s : State) (p : Nat) (f : Nat → Cluster → Cluster) (j_ : Nat) : (State.modPartClusters s p f).core j_ = s.core j_ := by simp only [State.core_def, State.modPartClusters_cores]
@[simp] theorem State.modPartClusters_dirLine (s : State) (p : Nat) (f : Nat → Cluster → Cluster) (j_ : Nat) : (State.modPartClusters s p f).dirLine j_ = s.dirLine j_ := by simp only [State.dirLine_def, State.modPartClusters_dir]
@[simp] theorem State.modPartClusters_page (s : State) (p : Nat) (f : Nat → Cluster → Cluster) (j_ : Nat) : (State.modPartClusters s p f).page j_ = s.page j_ := by simp only [State.page_def, State.modPartClusters_pages]
@[simp] theorem State.modPartClusters_trow (s : State) (p : Nat) (f : Nat → Cluster → Cluster) (c_ n_ : Nat) : (State.modPartClusters s p f).trow c_ n_ = s.trow c_ n_ := by simp only [State.trow_def, State.modPartClusters_tarn]
@[simp] theorem State.modPartClusters_rawByte (s : State) (p : Nat) (f : Nat → Cluster → Cluster) (a_ : Nat) : (State.modPartClusters s p f).rawByte a_ = s.rawByte a_ := by simp only [State.rawByte_def, State.modPartClusters_mem]
@[simp] theorem State.modPartClusters_now (s : State) (p : Nat) (f : Nat → Cluster → Cluster) : (State.modPartClusters s p f).now = s.now := by simp only [State.now_def, State.modPartClusters_tb]
theorem State.haltStep_frame (s : State) (p : Nat) :
    (State.haltStep s p).pending = s.pending ∧ (State.haltStep s p).out = s.out ∧ (State.haltStep s p).fresh = s.fresh ∧ (State.haltStep s p).order = s.order ∧ (State.haltStep s p).variant36 = s.variant36 ∧ (State.haltStep s p).enabled = s.enabled ∧ (State.haltStep s p).tarn = s.tarn ∧ (State.haltStep s p).mem = s.mem ∧ (State.haltStep s p).poison = s.poison ∧ (State.haltStep s p).pages = s.pages ∧ (State.haltStep s p).zeroRuns = s.zeroRuns ∧ (State.haltStep s p).regions = s.regions ∧ (State.haltStep s p).domains = s.domains ∧ (State.haltStep s p).xings = s.xings ∧ (State.haltStep s p).tb = s.tb ∧ (State.haltStep s p).nextPkt = s.nextPkt ∧ (State.haltStep s p).routes = s.routes ∧ (State.haltStep s p).perimRoutes = s.perimRoutes ∧ (State.haltStep s p).fabLinks = s.fabLinks ∧ (State.haltStep s p).ctxs = s.ctxs ∧ (State.haltStep s p).qps = s.qps ∧ (State.haltStep s p).fns = s.fns ∧ (State.haltStep s p).links = s.links ∧ (State.haltStep s p).ports = s.ports ∧ (State.haltStep s p).hbms = s.hbms ∧ (State.haltStep s p).cxlPorts = s.cxlPorts ∧ (State.haltStep s p).windows = s.windows ∧ (State.haltStep s p).cores = s.cores ∧ (State.haltStep s p).dir = s.dir ∧ (State.haltStep s p).bpm = s.bpm ∧ (State.haltStep s p).cool = s.cool ∧ (State.haltStep s p).mgt = s.mgt ∧ (State.haltStep s p).sec = s.sec ∧ (State.haltStep s p).boot = s.boot ∧ (State.haltStep s p).regs = s.regs ∧ (State.haltStep s p).sels = s.sels ∧ (State.haltStep s p).halves = s.halves := by
  generalize h_ : State.haltStep s p = t_
  unfold State.haltStep at h_
  (try dsimp only at h_)
  (repeat' split at h_) <;> subst h_ <;> simp
@[simp] theorem State.haltStep_pending (s : State) (p : Nat) : (State.haltStep s p).pending = s.pending := (State.haltStep_frame s p).1
@[simp] theorem State.haltStep_out (s : State) (p : Nat) : (State.haltStep s p).out = s.out := (State.haltStep_frame s p).2.1
@[simp] theorem State.haltStep_fresh (s : State) (p : Nat) : (State.haltStep s p).fresh = s.fresh := (State.haltStep_frame s p).2.2.1
@[simp] theorem State.haltStep_order (s : State) (p : Nat) : (State.haltStep s p).order = s.order := (State.haltStep_frame s p).2.2.2.1
@[simp] theorem State.haltStep_variant36 (s : State) (p : Nat) : (State.haltStep s p).variant36 = s.variant36 := (State.haltStep_frame s p).2.2.2.2.1
@[simp] theorem State.haltStep_enabled (s : State) (p : Nat) : (State.haltStep s p).enabled = s.enabled := (State.haltStep_frame s p).2.2.2.2.2.1
@[simp] theorem State.haltStep_tarn (s : State) (p : Nat) : (State.haltStep s p).tarn = s.tarn := (State.haltStep_frame s p).2.2.2.2.2.2.1
@[simp] theorem State.haltStep_mem (s : State) (p : Nat) : (State.haltStep s p).mem = s.mem := (State.haltStep_frame s p).2.2.2.2.2.2.2.1
@[simp] theorem State.haltStep_poison (s : State) (p : Nat) : (State.haltStep s p).poison = s.poison := (State.haltStep_frame s p).2.2.2.2.2.2.2.2.1
@[simp] theorem State.haltStep_pages (s : State) (p : Nat) : (State.haltStep s p).pages = s.pages := (State.haltStep_frame s p).2.2.2.2.2.2.2.2.2.1
@[simp] theorem State.haltStep_zeroRuns (s : State) (p : Nat) : (State.haltStep s p).zeroRuns = s.zeroRuns := (State.haltStep_frame s p).2.2.2.2.2.2.2.2.2.2.1
@[simp] theorem State.haltStep_regions (s : State) (p : Nat) : (State.haltStep s p).regions = s.regions := (State.haltStep_frame s p).2.2.2.2.2.2.2.2.2.2.2.1
@[simp] theorem State.haltStep_domains (s : State) (p : Nat) : (State.haltStep s p).domains = s.domains := (State.haltStep_frame s p).2.2.2.2.2.2.2.2.2.2.2.2.1
@[simp] theorem State.haltStep_xings (s : State) (p : Nat) : (State.haltStep s p).xings = s.xings := (State.haltStep_frame s p).2.2.2.2.2.2.2.2.2.2.2.2.2.1
@[simp] theorem State.haltStep_tb (s : State) (p : Nat) : (State.haltStep s p).tb = s.tb := (State.haltStep_frame s p).2.2.2.2.2.2.2.2.2.2.2.2.2.2.1
@[simp] theorem State.haltStep_nextPkt (s : State) (p : Nat) : (State.haltStep s p).nextPkt = s.nextPkt := (State.haltStep_frame s p).2.2.2.2.2.2.2.2.2.2.2.2.2.2.2.1
@[simp] theorem State.haltStep_routes (s : State) (p : Nat) : (State.haltStep s p).routes = s.routes := (State.haltStep_frame s p).2.2.2.2.2.2.2.2.2.2.2.2.2.2.2.2.1
@[simp] theorem State.haltStep_perimRoutes (s : State) (p : Nat) : (State.haltStep s p).perimRoutes = s.perimRoutes := (State.haltStep_frame s p).2.2.2.2.2.2.2.2.2.2.2.2.2.2.2.2.2.1
@[simp] theorem State.haltStep_fabLinks (s : State) (p : Nat) : (State.haltStep s p).fabLinks = s.fabLinks := (State.haltStep_frame s p).2.2.2.2.2.2.2.2.2.2.2.2.2.2.2.2.2.2.1
@[simp] theorem State.haltStep_ctxs (s : State) (p : Nat) : (State.haltStep s p).ctxs = s.ctxs := (State.haltStep_frame s p).2.2.2.2.2.2.2.2.2.2.2.2.2.2.2.2.2.2.2.1
@[simp] theorem State.haltStep_qps (s : State) (p : Nat) : (State.haltStep s p).qps = s.qps := (State.haltStep_frame s p).2.2.2.2.2.2.2.2.2.2.2.2.2.2.2.2.2.2.2.2.1
@[simp] theorem State.haltStep_fns (s : State) (p : Nat) : (State.haltStep s p).fns = s.fns := (State.haltStep_frame s p).2.2.2.2.2.2.2.2.2.2.2.2.2.2.2.2.2.2.2.2.2.1
@[simp] theorem State.haltStep_links (s : State) (p : Nat) : (State.haltStep s p).links = s.links := (State.haltStep_frame s p).2.2.2.2.2.2.2.2.2.2.2.2.2.2.2.2.2.2.2.2.2.2.1
@[simp] theorem State.haltStep_ports (s : State) (p : Nat) : (State.haltStep s p).ports = s.ports := (State.haltStep_frame s p).2.2.2.2.2.2.2.2.2.2.2.2.2.2.2.2.2.2.2.2.2.2.2.1
@[simp] theorem State.haltStep_hbms (s : State) (p : Nat) : (State.haltStep s p).hbms = s.hbms := (State.haltStep_frame s p).2.2.2.2.2.2.2.2.2.2.2.2.2.2.2.2.2.2.2.2.2.2.2.2.1
@[simp] theorem State.haltStep_cxlPorts (s : State) (p : Nat) : (State.haltStep s p).cxlPorts = s.cxlPorts := (State.haltStep_frame s p).2.2.2.2.2.2.2.2.2.2.2.2.2.2.2.2.2.2.2.2.2.2.2.2.2.1
@[simp] theorem State.haltStep_windows (s : State) (p : Nat) : (State.haltStep s p).windows = s.windows := (State.haltStep_frame s p).2.2.2.2.2.2.2.2.2.2.2.2.2.2.2.2.2.2.2.2.2.2.2.2.2.2.1
@[simp] theorem State.haltStep_cores (s : State) (p : Nat) : (State.haltStep s p).cores = s.cores := (State.haltStep_frame s p).2.2.2.2.2.2.2.2.2.2.2.2.2.2.2.2.2.2.2.2.2.2.2.2.2.2.2.1
@[simp] theorem State.haltStep_dir (s : State) (p : Nat) : (State.haltStep s p).dir = s.dir := (State.haltStep_frame s p).2.2.2.2.2.2.2.2.2.2.2.2.2.2.2.2.2.2.2.2.2.2.2.2.2.2.2.2.1
@[simp] theorem State.haltStep_bpm (s : State) (p : Nat) : (State.haltStep s p).bpm = s.bpm := (State.haltStep_frame s p).2.2.2.2.2.2.2.2.2.2.2.2.2.2.2.2.2.2.2.2.2.2.2.2.2.2.2.2.2.1
@[simp] theorem State.haltStep_cool (s : State) (p : Nat) : (State.haltStep s p).cool = s.cool := (State.haltStep_frame s p).2.2.2.2.2.2.2.2.2.2.2.2.2.2.2.2.2.2.2.2.2.2.2.2.2.2.2.2.2.2.1
@[simp] theorem State.haltStep_mgt (s : State) (p : Nat) : (State.haltStep s p).mgt = s.mgt := (State.haltStep_frame s p).2.2.2.2.2.2.2.2.2.2.2.2.2.2.2.2.2.2.2.2.2.2.2.2.2.2.2.2.2.2.2.1
@[simp] theorem State.haltStep_sec (s : State) (p : Nat) : (State.haltStep s p).sec = s.sec := (State.haltStep_frame s p).2.2.2.2.2.2.2.2.2.2.2.2.2.2.2.2.2.2.2.2.2.2.2.2.2.2.2.2.2.2.2.2.1
@[simp] theorem State.haltStep_boot (s : State) (p : Nat) : (State.haltStep s p).boot = s.boot := (State.haltStep_frame s p).2.2.2.2.2.2.2.2.2.2.2.2.2.2.2.2.2.2.2.2.2.2.2.2.2.2.2.2.2.2.2.2.2.1
@[simp] theorem State.haltStep_regs (s : State) (p : Nat) : (State.haltStep s p).regs = s.regs := (State.haltStep_frame s p).2.2.2.2.2.2.2.2.2.2.2.2.2.2.2.2.2.2.2.2.2.2.2.2.2.2.2.2.2.2.2.2.2.2.1
@[simp] theorem State.haltStep_sels (s : State) (p : Nat) : (State.haltStep s p).sels = s.sels := (State.haltStep_frame s p).2.2.2.2.2.2.2.2.2.2.2.2.2.2.2.2.2.2.2.2.2.2.2.2.2.2.2.2.2.2.2.2.2.2.2.1
@[simp] theorem State.haltStep_halves (s : State) (p : Nat) : (State.haltStep s p).halves = s.halves := (State.haltStep_frame s p).2.2.2.2.2.2.2.2.2.2.2.2.2.2.2.2.2.2.2.2.2.2.2.2.2.2.2.2.2.2.2.2.2.2.2.2
@[simp] theorem State.haltStep_ctx (s : State) (p : Nat) (j_ : Nat) : (State.haltStep s p).ctx j_ = s.ctx j_ := by simp only [State.ctx_def, State.haltStep_ctxs]
@[simp] theorem State.haltStep_qp (s : State) (p : Nat) (j_ : Nat) : (State.haltStep s p).qp j_ = s.qp j_ := by simp only [State.qp_def, State.haltStep_qps]
@[simp] theorem State.haltStep_fn (s : State) (p : Nat) (j_ : Nat) : (State.haltStep s p).fn j_ = s.fn j_ := by simp only [State.fn_def, State.haltStep_fns]
@[simp] theorem State.haltStep_link (s : State) (p : Nat) (j_ : Nat) : (State.haltStep s p).link j_ = s.link j_ := by simp only [State.link_def, State.haltStep_links]
@[simp] theorem State.haltStep_port (s : State) (p : Nat) (j_ : Nat) : (State.haltStep s p).port j_ = s.port j_ := by simp only [State.port_def, State.haltStep_ports]
@[simp] theorem State.haltStep_region (s : State) (p : Nat) (j_ : Nat) : (State.haltStep s p).region j_ = s.region j_ := by simp only [State.region_def, State.haltStep_regions]
@[simp] theorem State.haltStep_domain (s : State) (p : Nat) (j_ : Nat) : (State.haltStep s p).domain j_ = s.domain j_ := by simp only [State.domain_def, State.haltStep_domains]
@[simp] theorem State.haltStep_xing (s : State) (p : Nat) (j_ : Nat) : (State.haltStep s p).xing j_ = s.xing j_ := by simp only [State.xing_def, State.haltStep_xings]
@[simp] theorem State.haltStep_hbm (s : State) (p : Nat) (j_ : Nat) : (State.haltStep s p).hbm j_ = s.hbm j_ := by simp only [State.hbm_def, State.haltStep_hbms]
@[simp] theorem State.haltStep_cxl (s : State) (p : Nat) (j_ : Nat) : (State.haltStep s p).cxl j_ = s.cxl j_ := by simp only [State.cxl_def, State.haltStep_cxlPorts]
@[simp] theorem State.haltStep_win (s : State) (p : Nat) (j_ : Nat) : (State.haltStep s p).win j_ = s.win j_ := by simp only [State.win_def, State.haltStep_windows]
@[simp] theorem State.haltStep_core (s : State) (p : Nat) (j_ : Nat) : (State.haltStep s p).core j_ = s.core j_ := by simp only [State.core_def, State.haltStep_cores]
@[simp] theorem State.haltStep_dirLine (s : State) (p : Nat) (j_ : Nat) : (State.haltStep s p).dirLine j_ = s.dirLine j_ := by simp only [State.dirLine_def, State.haltStep_dir]
@[simp] theorem State.haltStep_page (s : State) (p : Nat) (j_ : Nat) : (State.haltStep s p).page j_ = s.page j_ := by simp only [State.page_def, State.haltStep_pages]
@[simp] theorem State.haltStep_trow (s : State) (p : Nat) (c_ n_ : Nat) : (State.haltStep s p).trow c_ n_ = s.trow c_ n_ := by simp only [State.trow_def, State.haltStep_tarn]
@[simp] theorem State.haltStep_rawByte (s : State) (p : Nat) (a_ : Nat) : (State.haltStep s p).rawByte a_ = s.rawByte a_ := by simp only [State.rawByte_def, State.haltStep_mem]
@[simp] theorem State.haltStep_now (s : State) (p : Nat) : (State.haltStep s p).now = s.now := by simp only [State.now_def, State.haltStep_tb]
theorem State.allRegions_frame (s : State) (f : Region → Region) :
    (State.allRegions s f).pending = s.pending ∧ (State.allRegions s f).out = s.out ∧ (State.allRegions s f).fresh = s.fresh ∧ (State.allRegions s f).order = s.order ∧ (State.allRegions s f).variant36 = s.variant36 ∧ (State.allRegions s f).enabled = s.enabled ∧ (State.allRegions s f).clusters = s.clusters ∧ (State.allRegions s f).tarn = s.tarn ∧ (State.allRegions s f).mem = s.mem ∧ (State.allRegions s f).poison = s.poison ∧ (State.allRegions s f).pages = s.pages ∧ (State.allRegions s f).zeroRuns = s.zeroRuns ∧ (State.allRegions s f).domains = s.domains ∧ (State.allRegions s f).xings = s.xings ∧ (State.allRegions s f).tb = s.tb ∧ (State.allRegions s f).net = s.net ∧ (State.allRegions s f).nextPkt = s.nextPkt ∧ (State.allRegions s f).routes = s.routes ∧ (State.allRegions s f).perimRoutes = s.perimRoutes ∧ (State.allRegions s f).fabLinks = s.fabLinks ∧ (State.allRegions s f).discards = s.discards ∧ (State.allRegions s f).parts = s.parts ∧ (State.allRegions s f).ctxs = s.ctxs ∧ (State.allRegions s f).qps = s.qps ∧ (State.allRegions s f).fns = s.fns ∧ (State.allRegions s f).links = s.links ∧ (State.allRegions s f).ports = s.ports ∧ (State.allRegions s f).hbms = s.hbms ∧ (State.allRegions s f).cxlPorts = s.cxlPorts ∧ (State.allRegions s f).windows = s.windows ∧ (State.allRegions s f).cores = s.cores ∧ (State.allRegions s f).dir = s.dir ∧ (State.allRegions s f).bpm = s.bpm ∧ (State.allRegions s f).cool = s.cool ∧ (State.allRegions s f).mgt = s.mgt ∧ (State.allRegions s f).sec = s.sec ∧ (State.allRegions s f).boot = s.boot ∧ (State.allRegions s f).regs = s.regs ∧ (State.allRegions s f).sels = s.sels ∧ (State.allRegions s f).halves = s.halves := by
  generalize h_ : State.allRegions s f = t_
  unfold State.allRegions at h_
  (try dsimp only at h_)
  (repeat' split at h_) <;> subst h_ <;> simp
@[simp] theorem State.allRegions_pending (s : State) (f : Region → Region) : (State.allRegions s f).pending = s.pending := (State.allRegions_frame s f).1
@[simp] theorem State.allRegions_out (s : State) (f : Region → Region) : (State.allRegions s f).out = s.out := (State.allRegions_frame s f).2.1
@[simp] theorem State.allRegions_fresh (s : State) (f : Region → Region) : (State.allRegions s f).fresh = s.fresh := (State.allRegions_frame s f).2.2.1
@[simp] theorem State.allRegions_order (s : State) (f : Region → Region) : (State.allRegions s f).order = s.order := (State.allRegions_frame s f).2.2.2.1
@[simp] theorem State.allRegions_variant36 (s : State) (f : Region → Region) : (State.allRegions s f).variant36 = s.variant36 := (State.allRegions_frame s f).2.2.2.2.1
@[simp] theorem State.allRegions_enabled (s : State) (f : Region → Region) : (State.allRegions s f).enabled = s.enabled := (State.allRegions_frame s f).2.2.2.2.2.1
@[simp] theorem State.allRegions_clusters (s : State) (f : Region → Region) : (State.allRegions s f).clusters = s.clusters := (State.allRegions_frame s f).2.2.2.2.2.2.1
@[simp] theorem State.allRegions_tarn (s : State) (f : Region → Region) : (State.allRegions s f).tarn = s.tarn := (State.allRegions_frame s f).2.2.2.2.2.2.2.1
@[simp] theorem State.allRegions_mem (s : State) (f : Region → Region) : (State.allRegions s f).mem = s.mem := (State.allRegions_frame s f).2.2.2.2.2.2.2.2.1
@[simp] theorem State.allRegions_poison (s : State) (f : Region → Region) : (State.allRegions s f).poison = s.poison := (State.allRegions_frame s f).2.2.2.2.2.2.2.2.2.1
@[simp] theorem State.allRegions_pages (s : State) (f : Region → Region) : (State.allRegions s f).pages = s.pages := (State.allRegions_frame s f).2.2.2.2.2.2.2.2.2.2.1
@[simp] theorem State.allRegions_zeroRuns (s : State) (f : Region → Region) : (State.allRegions s f).zeroRuns = s.zeroRuns := (State.allRegions_frame s f).2.2.2.2.2.2.2.2.2.2.2.1
@[simp] theorem State.allRegions_domains (s : State) (f : Region → Region) : (State.allRegions s f).domains = s.domains := (State.allRegions_frame s f).2.2.2.2.2.2.2.2.2.2.2.2.1
@[simp] theorem State.allRegions_xings (s : State) (f : Region → Region) : (State.allRegions s f).xings = s.xings := (State.allRegions_frame s f).2.2.2.2.2.2.2.2.2.2.2.2.2.1
@[simp] theorem State.allRegions_tb (s : State) (f : Region → Region) : (State.allRegions s f).tb = s.tb := (State.allRegions_frame s f).2.2.2.2.2.2.2.2.2.2.2.2.2.2.1
@[simp] theorem State.allRegions_net (s : State) (f : Region → Region) : (State.allRegions s f).net = s.net := (State.allRegions_frame s f).2.2.2.2.2.2.2.2.2.2.2.2.2.2.2.1
@[simp] theorem State.allRegions_nextPkt (s : State) (f : Region → Region) : (State.allRegions s f).nextPkt = s.nextPkt := (State.allRegions_frame s f).2.2.2.2.2.2.2.2.2.2.2.2.2.2.2.2.1
@[simp] theorem State.allRegions_routes (s : State) (f : Region → Region) : (State.allRegions s f).routes = s.routes := (State.allRegions_frame s f).2.2.2.2.2.2.2.2.2.2.2.2.2.2.2.2.2.1
@[simp] theorem State.allRegions_perimRoutes (s : State) (f : Region → Region) : (State.allRegions s f).perimRoutes = s.perimRoutes := (State.allRegions_frame s f).2.2.2.2.2.2.2.2.2.2.2.2.2.2.2.2.2.2.1
@[simp] theorem State.allRegions_fabLinks (s : State) (f : Region → Region) : (State.allRegions s f).fabLinks = s.fabLinks := (State.allRegions_frame s f).2.2.2.2.2.2.2.2.2.2.2.2.2.2.2.2.2.2.2.1
@[simp] theorem State.allRegions_discards (s : State) (f : Region → Region) : (State.allRegions s f).discards = s.discards := (State.allRegions_frame s f).2.2.2.2.2.2.2.2.2.2.2.2.2.2.2.2.2.2.2.2.1
@[simp] theorem State.allRegions_parts (s : State) (f : Region → Region) : (State.allRegions s f).parts = s.parts := (State.allRegions_frame s f).2.2.2.2.2.2.2.2.2.2.2.2.2.2.2.2.2.2.2.2.2.1
@[simp] theorem State.allRegions_ctxs (s : State) (f : Region → Region) : (State.allRegions s f).ctxs = s.ctxs := (State.allRegions_frame s f).2.2.2.2.2.2.2.2.2.2.2.2.2.2.2.2.2.2.2.2.2.2.1
@[simp] theorem State.allRegions_qps (s : State) (f : Region → Region) : (State.allRegions s f).qps = s.qps := (State.allRegions_frame s f).2.2.2.2.2.2.2.2.2.2.2.2.2.2.2.2.2.2.2.2.2.2.2.1
@[simp] theorem State.allRegions_fns (s : State) (f : Region → Region) : (State.allRegions s f).fns = s.fns := (State.allRegions_frame s f).2.2.2.2.2.2.2.2.2.2.2.2.2.2.2.2.2.2.2.2.2.2.2.2.1
@[simp] theorem State.allRegions_links (s : State) (f : Region → Region) : (State.allRegions s f).links = s.links := (State.allRegions_frame s f).2.2.2.2.2.2.2.2.2.2.2.2.2.2.2.2.2.2.2.2.2.2.2.2.2.1
@[simp] theorem State.allRegions_ports (s : State) (f : Region → Region) : (State.allRegions s f).ports = s.ports := (State.allRegions_frame s f).2.2.2.2.2.2.2.2.2.2.2.2.2.2.2.2.2.2.2.2.2.2.2.2.2.2.1
@[simp] theorem State.allRegions_hbms (s : State) (f : Region → Region) : (State.allRegions s f).hbms = s.hbms := (State.allRegions_frame s f).2.2.2.2.2.2.2.2.2.2.2.2.2.2.2.2.2.2.2.2.2.2.2.2.2.2.2.1
@[simp] theorem State.allRegions_cxlPorts (s : State) (f : Region → Region) : (State.allRegions s f).cxlPorts = s.cxlPorts := (State.allRegions_frame s f).2.2.2.2.2.2.2.2.2.2.2.2.2.2.2.2.2.2.2.2.2.2.2.2.2.2.2.2.1
@[simp] theorem State.allRegions_windows (s : State) (f : Region → Region) : (State.allRegions s f).windows = s.windows := (State.allRegions_frame s f).2.2.2.2.2.2.2.2.2.2.2.2.2.2.2.2.2.2.2.2.2.2.2.2.2.2.2.2.2.1
@[simp] theorem State.allRegions_cores (s : State) (f : Region → Region) : (State.allRegions s f).cores = s.cores := (State.allRegions_frame s f).2.2.2.2.2.2.2.2.2.2.2.2.2.2.2.2.2.2.2.2.2.2.2.2.2.2.2.2.2.2.1
@[simp] theorem State.allRegions_dir (s : State) (f : Region → Region) : (State.allRegions s f).dir = s.dir := (State.allRegions_frame s f).2.2.2.2.2.2.2.2.2.2.2.2.2.2.2.2.2.2.2.2.2.2.2.2.2.2.2.2.2.2.2.1
@[simp] theorem State.allRegions_bpm (s : State) (f : Region → Region) : (State.allRegions s f).bpm = s.bpm := (State.allRegions_frame s f).2.2.2.2.2.2.2.2.2.2.2.2.2.2.2.2.2.2.2.2.2.2.2.2.2.2.2.2.2.2.2.2.1
@[simp] theorem State.allRegions_cool (s : State) (f : Region → Region) : (State.allRegions s f).cool = s.cool := (State.allRegions_frame s f).2.2.2.2.2.2.2.2.2.2.2.2.2.2.2.2.2.2.2.2.2.2.2.2.2.2.2.2.2.2.2.2.2.1
@[simp] theorem State.allRegions_mgt (s : State) (f : Region → Region) : (State.allRegions s f).mgt = s.mgt := (State.allRegions_frame s f).2.2.2.2.2.2.2.2.2.2.2.2.2.2.2.2.2.2.2.2.2.2.2.2.2.2.2.2.2.2.2.2.2.2.1
@[simp] theorem State.allRegions_sec (s : State) (f : Region → Region) : (State.allRegions s f).sec = s.sec := (State.allRegions_frame s f).2.2.2.2.2.2.2.2.2.2.2.2.2.2.2.2.2.2.2.2.2.2.2.2.2.2.2.2.2.2.2.2.2.2.2.1
@[simp] theorem State.allRegions_boot (s : State) (f : Region → Region) : (State.allRegions s f).boot = s.boot := (State.allRegions_frame s f).2.2.2.2.2.2.2.2.2.2.2.2.2.2.2.2.2.2.2.2.2.2.2.2.2.2.2.2.2.2.2.2.2.2.2.2.1
@[simp] theorem State.allRegions_regs (s : State) (f : Region → Region) : (State.allRegions s f).regs = s.regs := (State.allRegions_frame s f).2.2.2.2.2.2.2.2.2.2.2.2.2.2.2.2.2.2.2.2.2.2.2.2.2.2.2.2.2.2.2.2.2.2.2.2.2.1
@[simp] theorem State.allRegions_sels (s : State) (f : Region → Region) : (State.allRegions s f).sels = s.sels := (State.allRegions_frame s f).2.2.2.2.2.2.2.2.2.2.2.2.2.2.2.2.2.2.2.2.2.2.2.2.2.2.2.2.2.2.2.2.2.2.2.2.2.2.1
@[simp] theorem State.allRegions_halves (s : State) (f : Region → Region) : (State.allRegions s f).halves = s.halves := (State.allRegions_frame s f).2.2.2.2.2.2.2.2.2.2.2.2.2.2.2.2.2.2.2.2.2.2.2.2.2.2.2.2.2.2.2.2.2.2.2.2.2.2.2
@[simp] theorem State.allRegions_cl (s : State) (f : Region → Region) (j_ : Nat) : (State.allRegions s f).cl j_ = s.cl j_ := by simp only [State.cl_def, State.allRegions_clusters]
@[simp] theorem State.allRegions_part (s : State) (f : Region → Region) (j_ : Nat) : (State.allRegions s f).part j_ = s.part j_ := by simp only [State.part_def, State.allRegions_parts]
@[simp] theorem State.allRegions_ctx (s : State) (f : Region → Region) (j_ : Nat) : (State.allRegions s f).ctx j_ = s.ctx j_ := by simp only [State.ctx_def, State.allRegions_ctxs]
@[simp] theorem State.allRegions_qp (s : State) (f : Region → Region) (j_ : Nat) : (State.allRegions s f).qp j_ = s.qp j_ := by simp only [State.qp_def, State.allRegions_qps]
@[simp] theorem State.allRegions_fn (s : State) (f : Region → Region) (j_ : Nat) : (State.allRegions s f).fn j_ = s.fn j_ := by simp only [State.fn_def, State.allRegions_fns]
@[simp] theorem State.allRegions_link (s : State) (f : Region → Region) (j_ : Nat) : (State.allRegions s f).link j_ = s.link j_ := by simp only [State.link_def, State.allRegions_links]
@[simp] theorem State.allRegions_port (s : State) (f : Region → Region) (j_ : Nat) : (State.allRegions s f).port j_ = s.port j_ := by simp only [State.port_def, State.allRegions_ports]
@[simp] theorem State.allRegions_domain (s : State) (f : Region → Region) (j_ : Nat) : (State.allRegions s f).domain j_ = s.domain j_ := by simp only [State.domain_def, State.allRegions_domains]
@[simp] theorem State.allRegions_xing (s : State) (f : Region → Region) (j_ : Nat) : (State.allRegions s f).xing j_ = s.xing j_ := by simp only [State.xing_def, State.allRegions_xings]
@[simp] theorem State.allRegions_hbm (s : State) (f : Region → Region) (j_ : Nat) : (State.allRegions s f).hbm j_ = s.hbm j_ := by simp only [State.hbm_def, State.allRegions_hbms]
@[simp] theorem State.allRegions_cxl (s : State) (f : Region → Region) (j_ : Nat) : (State.allRegions s f).cxl j_ = s.cxl j_ := by simp only [State.cxl_def, State.allRegions_cxlPorts]
@[simp] theorem State.allRegions_win (s : State) (f : Region → Region) (j_ : Nat) : (State.allRegions s f).win j_ = s.win j_ := by simp only [State.win_def, State.allRegions_windows]
@[simp] theorem State.allRegions_core (s : State) (f : Region → Region) (j_ : Nat) : (State.allRegions s f).core j_ = s.core j_ := by simp only [State.core_def, State.allRegions_cores]
@[simp] theorem State.allRegions_dirLine (s : State) (f : Region → Region) (j_ : Nat) : (State.allRegions s f).dirLine j_ = s.dirLine j_ := by simp only [State.dirLine_def, State.allRegions_dir]
@[simp] theorem State.allRegions_page (s : State) (f : Region → Region) (j_ : Nat) : (State.allRegions s f).page j_ = s.page j_ := by simp only [State.page_def, State.allRegions_pages]
@[simp] theorem State.allRegions_trow (s : State) (f : Region → Region) (c_ n_ : Nat) : (State.allRegions s f).trow c_ n_ = s.trow c_ n_ := by simp only [State.trow_def, State.allRegions_tarn]
@[simp] theorem State.allRegions_rawByte (s : State) (f : Region → Region) (a_ : Nat) : (State.allRegions s f).rawByte a_ = s.rawByte a_ := by simp only [State.rawByte_def, State.allRegions_mem]
@[simp] theorem State.allRegions_now (s : State) (f : Region → Region) : (State.allRegions s f).now = s.now := by simp only [State.now_def, State.allRegions_tb]
theorem State.killQp_frame (s : State) (keep : Option (Nat × Nat)) (q : Nat) :
    (State.killQp s keep q).pending = s.pending ∧ (State.killQp s keep q).fresh = s.fresh ∧ (State.killQp s keep q).order = s.order ∧ (State.killQp s keep q).variant36 = s.variant36 ∧ (State.killQp s keep q).enabled = s.enabled ∧ (State.killQp s keep q).clusters = s.clusters ∧ (State.killQp s keep q).tarn = s.tarn ∧ (State.killQp s keep q).pages = s.pages ∧ (State.killQp s keep q).zeroRuns = s.zeroRuns ∧ (State.killQp s keep q).regions = s.regions ∧ (State.killQp s keep q).domains = s.domains ∧ (State.killQp s keep q).xings = s.xings ∧ (State.killQp s keep q).tb = s.tb ∧ (State.killQp s keep q).net = s.net ∧ (State.killQp s keep q).nextPkt = s.nextPkt ∧ (State.killQp s keep q).routes = s.routes ∧ (State.killQp s keep q).perimRoutes = s.perimRoutes ∧ (State.killQp s keep q).fabLinks = s.fabLinks ∧ (State.killQp s keep q).discards = s.discards ∧ (State.killQp s keep q).fns = s.fns ∧ (State.killQp s keep q).links = s.links ∧ (State.killQp s keep q).ports = s.ports ∧ (State.killQp s keep q).hbms = s.hbms ∧ (State.killQp s keep q).cxlPorts = s.cxlPorts ∧ (State.killQp s keep q).windows = s.windows ∧ (State.killQp s keep q).bpm = s.bpm ∧ (State.killQp s keep q).cool = s.cool ∧ (State.killQp s keep q).sec = s.sec ∧ (State.killQp s keep q).boot = s.boot ∧ (State.killQp s keep q).regs = s.regs ∧ (State.killQp s keep q).sels = s.sels ∧ (State.killQp s keep q).halves = s.halves := by
  generalize h_ : State.killQp s keep q = t_
  unfold State.killQp at h_
  (try dsimp only at h_)
  (repeat' split at h_) <;> subst h_ <;> simp
@[simp] theorem State.killQp_pending (s : State) (keep : Option (Nat × Nat)) (q : Nat) : (State.killQp s keep q).pending = s.pending := (State.killQp_frame s keep q).1
@[simp] theorem State.killQp_fresh (s : State) (keep : Option (Nat × Nat)) (q : Nat) : (State.killQp s keep q).fresh = s.fresh := (State.killQp_frame s keep q).2.1
@[simp] theorem State.killQp_order (s : State) (keep : Option (Nat × Nat)) (q : Nat) : (State.killQp s keep q).order = s.order := (State.killQp_frame s keep q).2.2.1
@[simp] theorem State.killQp_variant36 (s : State) (keep : Option (Nat × Nat)) (q : Nat) : (State.killQp s keep q).variant36 = s.variant36 := (State.killQp_frame s keep q).2.2.2.1
@[simp] theorem State.killQp_enabled (s : State) (keep : Option (Nat × Nat)) (q : Nat) : (State.killQp s keep q).enabled = s.enabled := (State.killQp_frame s keep q).2.2.2.2.1
@[simp] theorem State.killQp_clusters (s : State) (keep : Option (Nat × Nat)) (q : Nat) : (State.killQp s keep q).clusters = s.clusters := (State.killQp_frame s keep q).2.2.2.2.2.1
@[simp] theorem State.killQp_tarn (s : State) (keep : Option (Nat × Nat)) (q : Nat) : (State.killQp s keep q).tarn = s.tarn := (State.killQp_frame s keep q).2.2.2.2.2.2.1
@[simp] theorem State.killQp_pages (s : State) (keep : Option (Nat × Nat)) (q : Nat) : (State.killQp s keep q).pages = s.pages := (State.killQp_frame s keep q).2.2.2.2.2.2.2.1
@[simp] theorem State.killQp_zeroRuns (s : State) (keep : Option (Nat × Nat)) (q : Nat) : (State.killQp s keep q).zeroRuns = s.zeroRuns := (State.killQp_frame s keep q).2.2.2.2.2.2.2.2.1
@[simp] theorem State.killQp_regions (s : State) (keep : Option (Nat × Nat)) (q : Nat) : (State.killQp s keep q).regions = s.regions := (State.killQp_frame s keep q).2.2.2.2.2.2.2.2.2.1
@[simp] theorem State.killQp_domains (s : State) (keep : Option (Nat × Nat)) (q : Nat) : (State.killQp s keep q).domains = s.domains := (State.killQp_frame s keep q).2.2.2.2.2.2.2.2.2.2.1
@[simp] theorem State.killQp_xings (s : State) (keep : Option (Nat × Nat)) (q : Nat) : (State.killQp s keep q).xings = s.xings := (State.killQp_frame s keep q).2.2.2.2.2.2.2.2.2.2.2.1
@[simp] theorem State.killQp_tb (s : State) (keep : Option (Nat × Nat)) (q : Nat) : (State.killQp s keep q).tb = s.tb := (State.killQp_frame s keep q).2.2.2.2.2.2.2.2.2.2.2.2.1
@[simp] theorem State.killQp_net (s : State) (keep : Option (Nat × Nat)) (q : Nat) : (State.killQp s keep q).net = s.net := (State.killQp_frame s keep q).2.2.2.2.2.2.2.2.2.2.2.2.2.1
@[simp] theorem State.killQp_nextPkt (s : State) (keep : Option (Nat × Nat)) (q : Nat) : (State.killQp s keep q).nextPkt = s.nextPkt := (State.killQp_frame s keep q).2.2.2.2.2.2.2.2.2.2.2.2.2.2.1
@[simp] theorem State.killQp_routes (s : State) (keep : Option (Nat × Nat)) (q : Nat) : (State.killQp s keep q).routes = s.routes := (State.killQp_frame s keep q).2.2.2.2.2.2.2.2.2.2.2.2.2.2.2.1
@[simp] theorem State.killQp_perimRoutes (s : State) (keep : Option (Nat × Nat)) (q : Nat) : (State.killQp s keep q).perimRoutes = s.perimRoutes := (State.killQp_frame s keep q).2.2.2.2.2.2.2.2.2.2.2.2.2.2.2.2.1
@[simp] theorem State.killQp_fabLinks (s : State) (keep : Option (Nat × Nat)) (q : Nat) : (State.killQp s keep q).fabLinks = s.fabLinks := (State.killQp_frame s keep q).2.2.2.2.2.2.2.2.2.2.2.2.2.2.2.2.2.1
@[simp] theorem State.killQp_discards (s : State) (keep : Option (Nat × Nat)) (q : Nat) : (State.killQp s keep q).discards = s.discards := (State.killQp_frame s keep q).2.2.2.2.2.2.2.2.2.2.2.2.2.2.2.2.2.2.1
@[simp] theorem State.killQp_fns (s : State) (keep : Option (Nat × Nat)) (q : Nat) : (State.killQp s keep q).fns = s.fns := (State.killQp_frame s keep q).2.2.2.2.2.2.2.2.2.2.2.2.2.2.2.2.2.2.2.1
@[simp] theorem State.killQp_links (s : State) (keep : Option (Nat × Nat)) (q : Nat) : (State.killQp s keep q).links = s.links := (State.killQp_frame s keep q).2.2.2.2.2.2.2.2.2.2.2.2.2.2.2.2.2.2.2.2.1
@[simp] theorem State.killQp_ports (s : State) (keep : Option (Nat × Nat)) (q : Nat) : (State.killQp s keep q).ports = s.ports := (State.killQp_frame s keep q).2.2.2.2.2.2.2.2.2.2.2.2.2.2.2.2.2.2.2.2.2.1
@[simp] theorem State.killQp_hbms (s : State) (keep : Option (Nat × Nat)) (q : Nat) : (State.killQp s keep q).hbms = s.hbms := (State.killQp_frame s keep q).2.2.2.2.2.2.2.2.2.2.2.2.2.2.2.2.2.2.2.2.2.2.1
@[simp] theorem State.killQp_cxlPorts (s : State) (keep : Option (Nat × Nat)) (q : Nat) : (State.killQp s keep q).cxlPorts = s.cxlPorts := (State.killQp_frame s keep q).2.2.2.2.2.2.2.2.2.2.2.2.2.2.2.2.2.2.2.2.2.2.2.1
@[simp] theorem State.killQp_windows (s : State) (keep : Option (Nat × Nat)) (q : Nat) : (State.killQp s keep q).windows = s.windows := (State.killQp_frame s keep q).2.2.2.2.2.2.2.2.2.2.2.2.2.2.2.2.2.2.2.2.2.2.2.2.1
@[simp] theorem State.killQp_bpm (s : State) (keep : Option (Nat × Nat)) (q : Nat) : (State.killQp s keep q).bpm = s.bpm := (State.killQp_frame s keep q).2.2.2.2.2.2.2.2.2.2.2.2.2.2.2.2.2.2.2.2.2.2.2.2.2.1
@[simp] theorem State.killQp_cool (s : State) (keep : Option (Nat × Nat)) (q : Nat) : (State.killQp s keep q).cool = s.cool := (State.killQp_frame s keep q).2.2.2.2.2.2.2.2.2.2.2.2.2.2.2.2.2.2.2.2.2.2.2.2.2.2.1
@[simp] theorem State.killQp_sec (s : State) (keep : Option (Nat × Nat)) (q : Nat) : (State.killQp s keep q).sec = s.sec := (State.killQp_frame s keep q).2.2.2.2.2.2.2.2.2.2.2.2.2.2.2.2.2.2.2.2.2.2.2.2.2.2.2.1
@[simp] theorem State.killQp_boot (s : State) (keep : Option (Nat × Nat)) (q : Nat) : (State.killQp s keep q).boot = s.boot := (State.killQp_frame s keep q).2.2.2.2.2.2.2.2.2.2.2.2.2.2.2.2.2.2.2.2.2.2.2.2.2.2.2.2.1
@[simp] theorem State.killQp_regs (s : State) (keep : Option (Nat × Nat)) (q : Nat) : (State.killQp s keep q).regs = s.regs := (State.killQp_frame s keep q).2.2.2.2.2.2.2.2.2.2.2.2.2.2.2.2.2.2.2.2.2.2.2.2.2.2.2.2.2.1
@[simp] theorem State.killQp_sels (s : State) (keep : Option (Nat × Nat)) (q : Nat) : (State.killQp s keep q).sels = s.sels := (State.killQp_frame s keep q).2.2.2.2.2.2.2.2.2.2.2.2.2.2.2.2.2.2.2.2.2.2.2.2.2.2.2.2.2.2.1
@[simp] theorem State.killQp_halves (s : State) (keep : Option (Nat × Nat)) (q : Nat) : (State.killQp s keep q).halves = s.halves := (State.killQp_frame s keep q).2.2.2.2.2.2.2.2.2.2.2.2.2.2.2.2.2.2.2.2.2.2.2.2.2.2.2.2.2.2.2
@[simp] theorem State.killQp_cl (s : State) (keep : Option (Nat × Nat)) (q : Nat) (j_ : Nat) : (State.killQp s keep q).cl j_ = s.cl j_ := by simp only [State.cl_def, State.killQp_clusters]
@[simp] theorem State.killQp_fn (s : State) (keep : Option (Nat × Nat)) (q : Nat) (j_ : Nat) : (State.killQp s keep q).fn j_ = s.fn j_ := by simp only [State.fn_def, State.killQp_fns]
@[simp] theorem State.killQp_link (s : State) (keep : Option (Nat × Nat)) (q : Nat) (j_ : Nat) : (State.killQp s keep q).link j_ = s.link j_ := by simp only [State.link_def, State.killQp_links]
@[simp] theorem State.killQp_port (s : State) (keep : Option (Nat × Nat)) (q : Nat) (j_ : Nat) : (State.killQp s keep q).port j_ = s.port j_ := by simp only [State.port_def, State.killQp_ports]
@[simp] theorem State.killQp_region (s : State) (keep : Option (Nat × Nat)) (q : Nat) (j_ : Nat) : (State.killQp s keep q).region j_ = s.region j_ := by simp only [State.region_def, State.killQp_regions]
@[simp] theorem State.killQp_domain (s : State) (keep : Option (Nat × Nat)) (q : Nat) (j_ : Nat) : (State.killQp s keep q).domain j_ = s.domain j_ := by simp only [State.domain_def, State.killQp_domains]
@[simp] theorem State.killQp_xing (s : State) (keep : Option (Nat × Nat)) (q : Nat) (j_ : Nat) : (State.killQp s keep q).xing j_ = s.xing j_ := by simp only [State.xing_def, State.killQp_xings]
@[simp] theorem State.killQp_hbm (s : State) (keep : Option (Nat × Nat)) (q : Nat) (j_ : Nat) : (State.killQp s keep q).hbm j_ = s.hbm j_ := by simp only [State.hbm_def, State.killQp_hbms]
@[simp] theorem State.killQp_cxl (s : State) (keep : Option (Nat × Nat)) (q : Nat) (j_ : Nat) : (State.killQp s keep q).cxl j_ = s.cxl j_ := by simp only [State.cxl_def, State.killQp_cxlPorts]
@[simp] theorem State.killQp_win (s : State) (keep : Option (Nat × Nat)) (q : Nat) (j_ : Nat) : (State.killQp s keep q).win j_ = s.win j_ := by simp only [State.win_def, State.killQp_windows]
@[simp] theorem State.killQp_page (s : State) (keep : Option (Nat × Nat)) (q : Nat) (j_ : Nat) : (State.killQp s keep q).page j_ = s.page j_ := by simp only [State.page_def, State.killQp_pages]
@[simp] theorem State.killQp_trow (s : State) (keep : Option (Nat × Nat)) (q : Nat) (c_ n_ : Nat) : (State.killQp s keep q).trow c_ n_ = s.trow c_ n_ := by simp only [State.trow_def, State.killQp_tarn]
@[simp] theorem State.killQp_now (s : State) (keep : Option (Nat × Nat)) (q : Nat) : (State.killQp s keep q).now = s.now := by simp only [State.now_def, State.killQp_tb]
theorem State.stopCores_frame (s : State) (x : Nat) :
    (State.stopCores s x).pending = s.pending ∧ (State.stopCores s x).out = s.out ∧ (State.stopCores s x).fresh = s.fresh ∧ (State.stopCores s x).order = s.order ∧ (State.stopCores s x).variant36 = s.variant36 ∧ (State.stopCores s x).enabled = s.enabled ∧ (State.stopCores s x).clusters = s.clusters ∧ (State.stopCores s x).tarn = s.tarn ∧ (State.stopCores s x).mem = s.mem ∧ (State.stopCores s x).poison = s.poison ∧ (State.stopCores s x).pages = s.pages ∧ (State.stopCores s x).zeroRuns = s.zeroRuns ∧ (State.stopCores s x).regions = s.regions ∧ (State.stopCores s x).domains = s.domains ∧ (State.stopCores s x).xings = s.xings ∧ (State.stopCores s x).tb = s.tb ∧ (State.stopCores s x).net = s.net ∧ (State.stopCores s x).nextPkt = s.nextPkt ∧ (State.stopCores s x).routes = s.routes ∧ (State.stopCores s x).perimRoutes = s.perimRoutes ∧ (State.stopCores s x).fabLinks = s.fabLinks ∧ (State.stopCores s x).discards = s.discards ∧ (State.stopCores s x).parts = s.parts ∧ (State.stopCores s x).ctxs = s.ctxs ∧ (State.stopCores s x).qps = s.qps ∧ (State.stopCores s x).fns = s.fns ∧ (State.stopCores s x).links = s.links ∧ (State.stopCores s x).ports = s.ports ∧ (State.stopCores s x).hbms = s.hbms ∧ (State.stopCores s x).cxlPorts = s.cxlPorts ∧ (State.stopCores s x).windows = s.windows ∧ (State.stopCores s x).bpm = s.bpm ∧ (State.stopCores s x).cool = s.cool ∧ (State.stopCores s x).mgt = s.mgt ∧ (State.stopCores s x).sec = s.sec ∧ (State.stopCores s x).boot = s.boot ∧ (State.stopCores s x).regs = s.regs ∧ (State.stopCores s x).sels = s.sels ∧ (State.stopCores s x).halves = s.halves := by
  generalize h_ : State.stopCores s x = t_
  unfold State.stopCores at h_
  (try dsimp only at h_)
  (repeat' split at h_) <;> subst h_ <;> simp
@[simp] theorem State.stopCores_pending (s : State) (x : Nat) : (State.stopCores s x).pending = s.pending := (State.stopCores_frame s x).1
@[simp] theorem State.stopCores_out (s : State) (x : Nat) : (State.stopCores s x).out = s.out := (State.stopCores_frame s x).2.1
@[simp] theorem State.stopCores_fresh (s : State) (x : Nat) : (State.stopCores s x).fresh = s.fresh := (State.stopCores_frame s x).2.2.1
@[simp] theorem State.stopCores_order (s : State) (x : Nat) : (State.stopCores s x).order = s.order := (State.stopCores_frame s x).2.2.2.1
@[simp] theorem State.stopCores_variant36 (s : State) (x : Nat) : (State.stopCores s x).variant36 = s.variant36 := (State.stopCores_frame s x).2.2.2.2.1
@[simp] theorem State.stopCores_enabled (s : State) (x : Nat) : (State.stopCores s x).enabled = s.enabled := (State.stopCores_frame s x).2.2.2.2.2.1
@[simp] theorem State.stopCores_clusters (s : State) (x : Nat) : (State.stopCores s x).clusters = s.clusters := (State.stopCores_frame s x).2.2.2.2.2.2.1
@[simp] theorem State.stopCores_tarn (s : State) (x : Nat) : (State.stopCores s x).tarn = s.tarn := (State.stopCores_frame s x).2.2.2.2.2.2.2.1
@[simp] theorem State.stopCores_mem (s : State) (x : Nat) : (State.stopCores s x).mem = s.mem := (State.stopCores_frame s x).2.2.2.2.2.2.2.2.1
@[simp] theorem State.stopCores_poison (s : State) (x : Nat) : (State.stopCores s x).poison = s.poison := (State.stopCores_frame s x).2.2.2.2.2.2.2.2.2.1
@[simp] theorem State.stopCores_pages (s : State) (x : Nat) : (State.stopCores s x).pages = s.pages := (State.stopCores_frame s x).2.2.2.2.2.2.2.2.2.2.1
@[simp] theorem State.stopCores_zeroRuns (s : State) (x : Nat) : (State.stopCores s x).zeroRuns = s.zeroRuns := (State.stopCores_frame s x).2.2.2.2.2.2.2.2.2.2.2.1
@[simp] theorem State.stopCores_regions (s : State) (x : Nat) : (State.stopCores s x).regions = s.regions := (State.stopCores_frame s x).2.2.2.2.2.2.2.2.2.2.2.2.1
@[simp] theorem State.stopCores_domains (s : State) (x : Nat) : (State.stopCores s x).domains = s.domains := (State.stopCores_frame s x).2.2.2.2.2.2.2.2.2.2.2.2.2.1
@[simp] theorem State.stopCores_xings (s : State) (x : Nat) : (State.stopCores s x).xings = s.xings := (State.stopCores_frame s x).2.2.2.2.2.2.2.2.2.2.2.2.2.2.1
@[simp] theorem State.stopCores_tb (s : State) (x : Nat) : (State.stopCores s x).tb = s.tb := (State.stopCores_frame s x).2.2.2.2.2.2.2.2.2.2.2.2.2.2.2.1
@[simp] theorem State.stopCores_net (s : State) (x : Nat) : (State.stopCores s x).net = s.net := (State.stopCores_frame s x).2.2.2.2.2.2.2.2.2.2.2.2.2.2.2.2.1
@[simp] theorem State.stopCores_nextPkt (s : State) (x : Nat) : (State.stopCores s x).nextPkt = s.nextPkt := (State.stopCores_frame s x).2.2.2.2.2.2.2.2.2.2.2.2.2.2.2.2.2.1
@[simp] theorem State.stopCores_routes (s : State) (x : Nat) : (State.stopCores s x).routes = s.routes := (State.stopCores_frame s x).2.2.2.2.2.2.2.2.2.2.2.2.2.2.2.2.2.2.1
@[simp] theorem State.stopCores_perimRoutes (s : State) (x : Nat) : (State.stopCores s x).perimRoutes = s.perimRoutes := (State.stopCores_frame s x).2.2.2.2.2.2.2.2.2.2.2.2.2.2.2.2.2.2.2.1
@[simp] theorem State.stopCores_fabLinks (s : State) (x : Nat) : (State.stopCores s x).fabLinks = s.fabLinks := (State.stopCores_frame s x).2.2.2.2.2.2.2.2.2.2.2.2.2.2.2.2.2.2.2.2.1
@[simp] theorem State.stopCores_discards (s : State) (x : Nat) : (State.stopCores s x).discards = s.discards := (State.stopCores_frame s x).2.2.2.2.2.2.2.2.2.2.2.2.2.2.2.2.2.2.2.2.2.1
@[simp] theorem State.stopCores_parts (s : State) (x : Nat) : (State.stopCores s x).parts = s.parts := (State.stopCores_frame s x).2.2.2.2.2.2.2.2.2.2.2.2.2.2.2.2.2.2.2.2.2.2.1
@[simp] theorem State.stopCores_ctxs (s : State) (x : Nat) : (State.stopCores s x).ctxs = s.ctxs := (State.stopCores_frame s x).2.2.2.2.2.2.2.2.2.2.2.2.2.2.2.2.2.2.2.2.2.2.2.1
@[simp] theorem State.stopCores_qps (s : State) (x : Nat) : (State.stopCores s x).qps = s.qps := (State.stopCores_frame s x).2.2.2.2.2.2.2.2.2.2.2.2.2.2.2.2.2.2.2.2.2.2.2.2.1
@[simp] theorem State.stopCores_fns (s : State) (x : Nat) : (State.stopCores s x).fns = s.fns := (State.stopCores_frame s x).2.2.2.2.2.2.2.2.2.2.2.2.2.2.2.2.2.2.2.2.2.2.2.2.2.1
@[simp] theorem State.stopCores_links (s : State) (x : Nat) : (State.stopCores s x).links = s.links := (State.stopCores_frame s x).2.2.2.2.2.2.2.2.2.2.2.2.2.2.2.2.2.2.2.2.2.2.2.2.2.2.1
@[simp] theorem State.stopCores_ports (s : State) (x : Nat) : (State.stopCores s x).ports = s.ports := (State.stopCores_frame s x).2.2.2.2.2.2.2.2.2.2.2.2.2.2.2.2.2.2.2.2.2.2.2.2.2.2.2.1
@[simp] theorem State.stopCores_hbms (s : State) (x : Nat) : (State.stopCores s x).hbms = s.hbms := (State.stopCores_frame s x).2.2.2.2.2.2.2.2.2.2.2.2.2.2.2.2.2.2.2.2.2.2.2.2.2.2.2.2.1
@[simp] theorem State.stopCores_cxlPorts (s : State) (x : Nat) : (State.stopCores s x).cxlPorts = s.cxlPorts := (State.stopCores_frame s x).2.2.2.2.2.2.2.2.2.2.2.2.2.2.2.2.2.2.2.2.2.2.2.2.2.2.2.2.2.1
@[simp] theorem State.stopCores_windows (s : State) (x : Nat) : (State.stopCores s x).windows = s.windows := (State.stopCores_frame s x).2.2.2.2.2.2.2.2.2.2.2.2.2.2.2.2.2.2.2.2.2.2.2.2.2.2.2.2.2.2.1
@[simp] theorem State.stopCores_bpm (s : State) (x : Nat) : (State.stopCores s x).bpm = s.bpm := (State.stopCores_frame s x).2.2.2.2.2.2.2.2.2.2.2.2.2.2.2.2.2.2.2.2.2.2.2.2.2.2.2.2.2.2.2.1
@[simp] theorem State.stopCores_cool (s : State) (x : Nat) : (State.stopCores s x).cool = s.cool := (State.stopCores_frame s x).2.2.2.2.2.2.2.2.2.2.2.2.2.2.2.2.2.2.2.2.2.2.2.2.2.2.2.2.2.2.2.2.1
@[simp] theorem State.stopCores_mgt (s : State) (x : Nat) : (State.stopCores s x).mgt = s.mgt := (State.stopCores_frame s x).2.2.2.2.2.2.2.2.2.2.2.2.2.2.2.2.2.2.2.2.2.2.2.2.2.2.2.2.2.2.2.2.2.1
@[simp] theorem State.stopCores_sec (s : State) (x : Nat) : (State.stopCores s x).sec = s.sec := (State.stopCores_frame s x).2.2.2.2.2.2.2.2.2.2.2.2.2.2.2.2.2.2.2.2.2.2.2.2.2.2.2.2.2.2.2.2.2.2.1
@[simp] theorem State.stopCores_boot (s : State) (x : Nat) : (State.stopCores s x).boot = s.boot := (State.stopCores_frame s x).2.2.2.2.2.2.2.2.2.2.2.2.2.2.2.2.2.2.2.2.2.2.2.2.2.2.2.2.2.2.2.2.2.2.2.1
@[simp] theorem State.stopCores_regs (s : State) (x : Nat) : (State.stopCores s x).regs = s.regs := (State.stopCores_frame s x).2.2.2.2.2.2.2.2.2.2.2.2.2.2.2.2.2.2.2.2.2.2.2.2.2.2.2.2.2.2.2.2.2.2.2.2.1
@[simp] theorem State.stopCores_sels (s : State) (x : Nat) : (State.stopCores s x).sels = s.sels := (State.stopCores_frame s x).2.2.2.2.2.2.2.2.2.2.2.2.2.2.2.2.2.2.2.2.2.2.2.2.2.2.2.2.2.2.2.2.2.2.2.2.2.1
@[simp] theorem State.stopCores_halves (s : State) (x : Nat) : (State.stopCores s x).halves = s.halves := (State.stopCores_frame s x).2.2.2.2.2.2.2.2.2.2.2.2.2.2.2.2.2.2.2.2.2.2.2.2.2.2.2.2.2.2.2.2.2.2.2.2.2.2
@[simp] theorem State.stopCores_cl (s : State) (x : Nat) (j_ : Nat) : (State.stopCores s x).cl j_ = s.cl j_ := by simp only [State.cl_def, State.stopCores_clusters]
@[simp] theorem State.stopCores_part (s : State) (x : Nat) (j_ : Nat) : (State.stopCores s x).part j_ = s.part j_ := by simp only [State.part_def, State.stopCores_parts]
@[simp] theorem State.stopCores_ctx (s : State) (x : Nat) (j_ : Nat) : (State.stopCores s x).ctx j_ = s.ctx j_ := by simp only [State.ctx_def, State.stopCores_ctxs]
@[simp] theorem State.stopCores_qp (s : State) (x : Nat) (j_ : Nat) : (State.stopCores s x).qp j_ = s.qp j_ := by simp only [State.qp_def, State.stopCores_qps]
@[simp] theorem State.stopCores_fn (s : State) (x : Nat) (j_ : Nat) : (State.stopCores s x).fn j_ = s.fn j_ := by simp only [State.fn_def, State.stopCores_fns]
@[simp] theorem State.stopCores_link (s : State) (x : Nat) (j_ : Nat) : (State.stopCores s x).link j_ = s.link j_ := by simp only [State.link_def, State.stopCores_links]
@[simp] theorem State.stopCores_port (s : State) (x : Nat) (j_ : Nat) : (State.stopCores s x).port j_ = s.port j_ := by simp only [State.port_def, State.stopCores_ports]
@[simp] theorem State.stopCores_region (s : State) (x : Nat) (j_ : Nat) : (State.stopCores s x).region j_ = s.region j_ := by simp only [State.region_def, State.stopCores_regions]
@[simp] theorem State.stopCores_domain (s : State) (x : Nat) (j_ : Nat) : (State.stopCores s x).domain j_ = s.domain j_ := by simp only [State.domain_def, State.stopCores_domains]
@[simp] theorem State.stopCores_xing (s : State) (x : Nat) (j_ : Nat) : (State.stopCores s x).xing j_ = s.xing j_ := by simp only [State.xing_def, State.stopCores_xings]
@[simp] theorem State.stopCores_hbm (s : State) (x : Nat) (j_ : Nat) : (State.stopCores s x).hbm j_ = s.hbm j_ := by simp only [State.hbm_def, State.stopCores_hbms]
@[simp] theorem State.stopCores_cxl (s : State) (x : Nat) (j_ : Nat) : (State.stopCores s x).cxl j_ = s.cxl j_ := by simp only [State.cxl_def, State.stopCores_cxlPorts]
@[simp] theorem State.stopCores_win (s : State) (x : Nat) (j_ : Nat) : (State.stopCores s x).win j_ = s.win j_ := by simp only [State.win_def, State.stopCores_windows]
@[simp] theorem State.stopCores_page (s : State) (x : Nat) (j_ : Nat) : (State.stopCores s x).page j_ = s.page j_ := by simp only [State.page_def, State.stopCores_pages]
@[simp] theorem State.stopCores_trow (s : State) (x : Nat) (c_ n_ : Nat) : (State.stopCores s x).trow c_ n_ = s.trow c_ n_ := by simp only [State.trow_def, State.stopCores_tarn]
@[simp] theorem State.stopCores_rawByte (s : State) (x : Nat) (a_ : Nat) : (State.stopCores s x).rawByte a_ = s.rawByte a_ := by simp only [State.rawByte_def, State.stopCores_mem]
@[simp] theorem State.stopCores_now (s : State) (x : Nat) : (State.stopCores s x).now = s.now := by simp only [State.now_def, State.stopCores_tb]
theorem State.killStart_frame (s : State) (x : Nat) (own : Option (Nat × Nat)) :
    (State.killStart s x own).pending = s.pending ∧ (State.killStart s x own).fresh = s.fresh ∧ (State.killStart s x own).order = s.order ∧ (State.killStart s x own).variant36 = s.variant36 ∧ (State.killStart s x own).enabled = s.enabled ∧ (State.killStart s x own).tarn = s.tarn ∧ (State.killStart s x own).pages = s.pages ∧ (State.killStart s x own).zeroRuns = s.zeroRuns ∧ (State.killStart s x own).regions = s.regions ∧ (State.killStart s x own).domains = s.domains ∧ (State.killStart s x own).xings = s.xings ∧ (State.killStart s x own).tb = s.tb ∧ (State.killStart s x own).nextPkt = s.nextPkt ∧ (State.killStart s x own).routes = s.routes ∧ (State.killStart s x own).perimRoutes = s.perimRoutes ∧ (State.killStart s x own).fabLinks = s.fabLinks ∧ (State.killStart s x own).links = s.links ∧ (State.killStart s x own).ports = s.ports ∧ (State.killStart s x own).hbms = s.hbms ∧ (State.killStart s x own).cxlPorts = s.cxlPorts ∧ (State.killStart s x own).windows = s.windows ∧ (State.killStart s x own).bpm = s.bpm ∧ (State.killStart s x own).cool = s.cool ∧ (State.killStart s x own).sec = s.sec ∧ (State.killStart s x own).boot = s.boot ∧ (State.killStart s x own).regs = s.regs ∧ (State.killStart s x own).sels = s.sels ∧ (State.killStart s x own).halves = s.halves := by
  generalize h_ : State.killStart s x own = t_
  unfold State.killStart at h_
  (try dsimp only at h_)
  (repeat' split at h_) <;> subst h_ <;> simp
@[simp] theorem State.killStart_pending (s : State) (x : Nat) (own : Option (Nat × Nat)) : (State.killStart s x own).pending = s.pending := (State.killStart_frame s x own).1
@[simp] theorem State.killStart_fresh (s : State) (x : Nat) (own : Option (Nat × Nat)) : (State.killStart s x own).fresh = s.fresh := (State.killStart_frame s x own).2.1
@[simp] theorem State.killStart_order (s : State) (x : Nat) (own : Option (Nat × Nat)) : (State.killStart s x own).order = s.order := (State.killStart_frame s x own).2.2.1
@[simp] theorem State.killStart_variant36 (s : State) (x : Nat) (own : Option (Nat × Nat)) : (State.killStart s x own).variant36 = s.variant36 := (State.killStart_frame s x own).2.2.2.1
@[simp] theorem State.killStart_enabled (s : State) (x : Nat) (own : Option (Nat × Nat)) : (State.killStart s x own).enabled = s.enabled := (State.killStart_frame s x own).2.2.2.2.1
@[simp] theorem State.killStart_tarn (s : State) (x : Nat) (own : Option (Nat × Nat)) : (State.killStart s x own).tarn = s.tarn := (State.killStart_frame s x own).2.2.2.2.2.1
@[simp] theorem State.killStart_pages (s : State) (x : Nat) (own : Option (Nat × Nat)) : (State.killStart s x own).pages = s.pages := (State.killStart_frame s x own).2.2.2.2.2.2.1
@[simp] theorem State.killStart_zeroRuns (s : State) (x : Nat) (own : Option (Nat × Nat)) : (State.killStart s x own).zeroRuns = s.zeroRuns := (State.killStart_frame s x own).2.2.2.2.2.2.2.1
@[simp] theorem State.killStart_regions (s : State) (x : Nat) (own : Option (Nat × Nat)) : (State.killStart s x own).regions = s.regions := (State.killStart_frame s x own).2.2.2.2.2.2.2.2.1
@[simp] theorem State.killStart_domains (s : State) (x : Nat) (own : Option (Nat × Nat)) : (State.killStart s x own).domains = s.domains := (State.killStart_frame s x own).2.2.2.2.2.2.2.2.2.1
@[simp] theorem State.killStart_xings (s : State) (x : Nat) (own : Option (Nat × Nat)) : (State.killStart s x own).xings = s.xings := (State.killStart_frame s x own).2.2.2.2.2.2.2.2.2.2.1
@[simp] theorem State.killStart_tb (s : State) (x : Nat) (own : Option (Nat × Nat)) : (State.killStart s x own).tb = s.tb := (State.killStart_frame s x own).2.2.2.2.2.2.2.2.2.2.2.1
@[simp] theorem State.killStart_nextPkt (s : State) (x : Nat) (own : Option (Nat × Nat)) : (State.killStart s x own).nextPkt = s.nextPkt := (State.killStart_frame s x own).2.2.2.2.2.2.2.2.2.2.2.2.1
@[simp] theorem State.killStart_routes (s : State) (x : Nat) (own : Option (Nat × Nat)) : (State.killStart s x own).routes = s.routes := (State.killStart_frame s x own).2.2.2.2.2.2.2.2.2.2.2.2.2.1
@[simp] theorem State.killStart_perimRoutes (s : State) (x : Nat) (own : Option (Nat × Nat)) : (State.killStart s x own).perimRoutes = s.perimRoutes := (State.killStart_frame s x own).2.2.2.2.2.2.2.2.2.2.2.2.2.2.1
@[simp] theorem State.killStart_fabLinks (s : State) (x : Nat) (own : Option (Nat × Nat)) : (State.killStart s x own).fabLinks = s.fabLinks := (State.killStart_frame s x own).2.2.2.2.2.2.2.2.2.2.2.2.2.2.2.1
@[simp] theorem State.killStart_links (s : State) (x : Nat) (own : Option (Nat × Nat)) : (State.killStart s x own).links = s.links := (State.killStart_frame s x own).2.2.2.2.2.2.2.2.2.2.2.2.2.2.2.2.1
@[simp] theorem State.killStart_ports (s : State) (x : Nat) (own : Option (Nat × Nat)) : (State.killStart s x own).ports = s.ports := (State.killStart_frame s x own).2.2.2.2.2.2.2.2.2.2.2.2.2.2.2.2.2.1
@[simp] theorem State.killStart_hbms (s : State) (x : Nat) (own : Option (Nat × Nat)) : (State.killStart s x own).hbms = s.hbms := (State.killStart_frame s x own).2.2.2.2.2.2.2.2.2.2.2.2.2.2.2.2.2.2.1
@[simp] theorem State.killStart_cxlPorts (s : State) (x : Nat) (own : Option (Nat × Nat)) : (State.killStart s x own).cxlPorts = s.cxlPorts := (State.killStart_frame s x own).2.2.2.2.2.2.2.2.2.2.2.2.2.2.2.2.2.2.2.1
@[simp] theorem State.killStart_windows (s : State) (x : Nat) (own : Option (Nat × Nat)) : (State.killStart s x own).windows = s.windows := (State.killStart_frame s x own).2.2.2.2.2.2.2.2.2.2.2.2.2.2.2.2.2.2.2.2.1
@[simp] theorem State.killStart_bpm (s : State) (x : Nat) (own : Option (Nat × Nat)) : (State.killStart s x own).bpm = s.bpm := (State.killStart_frame s x own).2.2.2.2.2.2.2.2.2.2.2.2.2.2.2.2.2.2.2.2.2.1
@[simp] theorem State.killStart_cool (s : State) (x : Nat) (own : Option (Nat × Nat)) : (State.killStart s x own).cool = s.cool := (State.killStart_frame s x own).2.2.2.2.2.2.2.2.2.2.2.2.2.2.2.2.2.2.2.2.2.2.1
@[simp] theorem State.killStart_sec (s : State) (x : Nat) (own : Option (Nat × Nat)) : (State.killStart s x own).sec = s.sec := (State.killStart_frame s x own).2.2.2.2.2.2.2.2.2.2.2.2.2.2.2.2.2.2.2.2.2.2.2.1
@[simp] theorem State.killStart_boot (s : State) (x : Nat) (own : Option (Nat × Nat)) : (State.killStart s x own).boot = s.boot := (State.killStart_frame s x own).2.2.2.2.2.2.2.2.2.2.2.2.2.2.2.2.2.2.2.2.2.2.2.2.1
@[simp] theorem State.killStart_regs (s : State) (x : Nat) (own : Option (Nat × Nat)) : (State.killStart s x own).regs = s.regs := (State.killStart_frame s x own).2.2.2.2.2.2.2.2.2.2.2.2.2.2.2.2.2.2.2.2.2.2.2.2.2.1
@[simp] theorem State.killStart_sels (s : State) (x : Nat) (own : Option (Nat × Nat)) : (State.killStart s x own).sels = s.sels := (State.killStart_frame s x own).2.2.2.2.2.2.2.2.2.2.2.2.2.2.2.2.2.2.2.2.2.2.2.2.2.2.1
@[simp] theorem State.killStart_halves (s : State) (x : Nat) (own : Option (Nat × Nat)) : (State.killStart s x own).halves = s.halves := (State.killStart_frame s x own).2.2.2.2.2.2.2.2.2.2.2.2.2.2.2.2.2.2.2.2.2.2.2.2.2.2.2
@[simp] theorem State.killStart_link (s : State) (x : Nat) (own : Option (Nat × Nat)) (j_ : Nat) : (State.killStart s x own).link j_ = s.link j_ := by simp only [State.link_def, State.killStart_links]
@[simp] theorem State.killStart_port (s : State) (x : Nat) (own : Option (Nat × Nat)) (j_ : Nat) : (State.killStart s x own).port j_ = s.port j_ := by simp only [State.port_def, State.killStart_ports]
@[simp] theorem State.killStart_region (s : State) (x : Nat) (own : Option (Nat × Nat)) (j_ : Nat) : (State.killStart s x own).region j_ = s.region j_ := by simp only [State.region_def, State.killStart_regions]
@[simp] theorem State.killStart_domain (s : State) (x : Nat) (own : Option (Nat × Nat)) (j_ : Nat) : (State.killStart s x own).domain j_ = s.domain j_ := by simp only [State.domain_def, State.killStart_domains]
@[simp] theorem State.killStart_xing (s : State) (x : Nat) (own : Option (Nat × Nat)) (j_ : Nat) : (State.killStart s x own).xing j_ = s.xing j_ := by simp only [State.xing_def, State.killStart_xings]
@[simp] theorem State.killStart_hbm (s : State) (x : Nat) (own : Option (Nat × Nat)) (j_ : Nat) : (State.killStart s x own).hbm j_ = s.hbm j_ := by simp only [State.hbm_def, State.killStart_hbms]
@[simp] theorem State.killStart_cxl (s : State) (x : Nat) (own : Option (Nat × Nat)) (j_ : Nat) : (State.killStart s x own).cxl j_ = s.cxl j_ := by simp only [State.cxl_def, State.killStart_cxlPorts]
@[simp] theorem State.killStart_win (s : State) (x : Nat) (own : Option (Nat × Nat)) (j_ : Nat) : (State.killStart s x own).win j_ = s.win j_ := by simp only [State.win_def, State.killStart_windows]
@[simp] theorem State.killStart_page (s : State) (x : Nat) (own : Option (Nat × Nat)) (j_ : Nat) : (State.killStart s x own).page j_ = s.page j_ := by simp only [State.page_def, State.killStart_pages]
@[simp] theorem State.killStart_trow (s : State) (x : Nat) (own : Option (Nat × Nat)) (c_ n_ : Nat) : (State.killStart s x own).trow c_ n_ = s.trow c_ n_ := by simp only [State.trow_def, State.killStart_tarn]
@[simp] theorem State.killStart_now (s : State) (x : Nat) (own : Option (Nat × Nat)) : (State.killStart s x own).now = s.now := by simp only [State.now_def, State.killStart_tb]
theorem State.endLaunch_frame (s : State) (x code detail : Nat) :
    (State.endLaunch s x code detail).pending = s.pending ∧ (State.endLaunch s x code detail).fresh = s.fresh ∧ (State.endLaunch s x code detail).order = s.order ∧ (State.endLaunch s x code detail).variant36 = s.variant36 ∧ (State.endLaunch s x code detail).enabled = s.enabled ∧ (State.endLaunch s x code detail).clusters = s.clusters ∧ (State.endLaunch s x code detail).tarn = s.tarn ∧ (State.endLaunch s x code detail).pages = s.pages ∧ (State.endLaunch s x code detail).zeroRuns = s.zeroRuns ∧ (State.endLaunch s x code detail).regions = s.regions ∧ (State.endLaunch s x code detail).domains = s.domains ∧ (State.endLaunch s x code detail).xings = s.xings ∧ (State.endLaunch s x code detail).tb = s.tb ∧ (State.endLaunch s x code detail).net = s.net ∧ (State.endLaunch s x code detail).nextPkt = s.nextPkt ∧ (State.endLaunch s x code detail).routes = s.routes ∧ (State.endLaunch s x code detail).perimRoutes = s.perimRoutes ∧ (State.endLaunch s x code detail).fabLinks = s.fabLinks ∧ (State.endLaunch s x code detail).discards = s.discards ∧ (State.endLaunch s x code detail).fns = s.fns ∧ (State.endLaunch s x code detail).links = s.links ∧ (State.endLaunch s x code detail).ports = s.ports ∧ (State.endLaunch s x code detail).hbms = s.hbms ∧ (State.endLaunch s x code detail).cxlPorts = s.cxlPorts ∧ (State.endLaunch s x code detail).windows = s.windows ∧ (State.endLaunch s x code detail).bpm = s.bpm ∧ (State.endLaunch s x code detail).cool = s.cool ∧ (State.endLaunch s x code detail).sec = s.sec ∧ (State.endLaunch s x code detail).boot = s.boot ∧ (State.endLaunch s x code detail).regs = s.regs ∧ (State.endLaunch s x code detail).sels = s.sels ∧ (State.endLaunch s x code detail).halves = s.halves := by
  generalize h_ : State.endLaunch s x code detail = t_
  unfold State.endLaunch at h_
  (try dsimp only at h_)
  (repeat' split at h_) <;> subst h_ <;> simp
@[simp] theorem State.endLaunch_pending (s : State) (x code detail : Nat) : (State.endLaunch s x code detail).pending = s.pending := (State.endLaunch_frame s x code detail).1
@[simp] theorem State.endLaunch_fresh (s : State) (x code detail : Nat) : (State.endLaunch s x code detail).fresh = s.fresh := (State.endLaunch_frame s x code detail).2.1
@[simp] theorem State.endLaunch_order (s : State) (x code detail : Nat) : (State.endLaunch s x code detail).order = s.order := (State.endLaunch_frame s x code detail).2.2.1
@[simp] theorem State.endLaunch_variant36 (s : State) (x code detail : Nat) : (State.endLaunch s x code detail).variant36 = s.variant36 := (State.endLaunch_frame s x code detail).2.2.2.1
@[simp] theorem State.endLaunch_enabled (s : State) (x code detail : Nat) : (State.endLaunch s x code detail).enabled = s.enabled := (State.endLaunch_frame s x code detail).2.2.2.2.1
@[simp] theorem State.endLaunch_clusters (s : State) (x code detail : Nat) : (State.endLaunch s x code detail).clusters = s.clusters := (State.endLaunch_frame s x code detail).2.2.2.2.2.1
@[simp] theorem State.endLaunch_tarn (s : State) (x code detail : Nat) : (State.endLaunch s x code detail).tarn = s.tarn := (State.endLaunch_frame s x code detail).2.2.2.2.2.2.1
@[simp] theorem State.endLaunch_pages (s : State) (x code detail : Nat) : (State.endLaunch s x code detail).pages = s.pages := (State.endLaunch_frame s x code detail).2.2.2.2.2.2.2.1
@[simp] theorem State.endLaunch_zeroRuns (s : State) (x code detail : Nat) : (State.endLaunch s x code detail).zeroRuns = s.zeroRuns := (State.endLaunch_frame s x code detail).2.2.2.2.2.2.2.2.1
@[simp] theorem State.endLaunch_regions (s : State) (x code detail : Nat) : (State.endLaunch s x code detail).regions = s.regions := (State.endLaunch_frame s x code detail).2.2.2.2.2.2.2.2.2.1
@[simp] theorem State.endLaunch_domains (s : State) (x code detail : Nat) : (State.endLaunch s x code detail).domains = s.domains := (State.endLaunch_frame s x code detail).2.2.2.2.2.2.2.2.2.2.1
@[simp] theorem State.endLaunch_xings (s : State) (x code detail : Nat) : (State.endLaunch s x code detail).xings = s.xings := (State.endLaunch_frame s x code detail).2.2.2.2.2.2.2.2.2.2.2.1
@[simp] theorem State.endLaunch_tb (s : State) (x code detail : Nat) : (State.endLaunch s x code detail).tb = s.tb := (State.endLaunch_frame s x code detail).2.2.2.2.2.2.2.2.2.2.2.2.1
@[simp] theorem State.endLaunch_net (s : State) (x code detail : Nat) : (State.endLaunch s x code detail).net = s.net := (State.endLaunch_frame s x code detail).2.2.2.2.2.2.2.2.2.2.2.2.2.1
@[simp] theorem State.endLaunch_nextPkt (s : State) (x code detail : Nat) : (State.endLaunch s x code detail).nextPkt = s.nextPkt := (State.endLaunch_frame s x code detail).2.2.2.2.2.2.2.2.2.2.2.2.2.2.1
@[simp] theorem State.endLaunch_routes (s : State) (x code detail : Nat) : (State.endLaunch s x code detail).routes = s.routes := (State.endLaunch_frame s x code detail).2.2.2.2.2.2.2.2.2.2.2.2.2.2.2.1
@[simp] theorem State.endLaunch_perimRoutes (s : State) (x code detail : Nat) : (State.endLaunch s x code detail).perimRoutes = s.perimRoutes := (State.endLaunch_frame s x code detail).2.2.2.2.2.2.2.2.2.2.2.2.2.2.2.2.1
@[simp] theorem State.endLaunch_fabLinks (s : State) (x code detail : Nat) : (State.endLaunch s x code detail).fabLinks = s.fabLinks := (State.endLaunch_frame s x code detail).2.2.2.2.2.2.2.2.2.2.2.2.2.2.2.2.2.1
@[simp] theorem State.endLaunch_discards (s : State) (x code detail : Nat) : (State.endLaunch s x code detail).discards = s.discards := (State.endLaunch_frame s x code detail).2.2.2.2.2.2.2.2.2.2.2.2.2.2.2.2.2.2.1
@[simp] theorem State.endLaunch_fns (s : State) (x code detail : Nat) : (State.endLaunch s x code detail).fns = s.fns := (State.endLaunch_frame s x code detail).2.2.2.2.2.2.2.2.2.2.2.2.2.2.2.2.2.2.2.1
@[simp] theorem State.endLaunch_links (s : State) (x code detail : Nat) : (State.endLaunch s x code detail).links = s.links := (State.endLaunch_frame s x code detail).2.2.2.2.2.2.2.2.2.2.2.2.2.2.2.2.2.2.2.2.1
@[simp] theorem State.endLaunch_ports (s : State) (x code detail : Nat) : (State.endLaunch s x code detail).ports = s.ports := (State.endLaunch_frame s x code detail).2.2.2.2.2.2.2.2.2.2.2.2.2.2.2.2.2.2.2.2.2.1
@[simp] theorem State.endLaunch_hbms (s : State) (x code detail : Nat) : (State.endLaunch s x code detail).hbms = s.hbms := (State.endLaunch_frame s x code detail).2.2.2.2.2.2.2.2.2.2.2.2.2.2.2.2.2.2.2.2.2.2.1
@[simp] theorem State.endLaunch_cxlPorts (s : State) (x code detail : Nat) : (State.endLaunch s x code detail).cxlPorts = s.cxlPorts := (State.endLaunch_frame s x code detail).2.2.2.2.2.2.2.2.2.2.2.2.2.2.2.2.2.2.2.2.2.2.2.1
@[simp] theorem State.endLaunch_windows (s : State) (x code detail : Nat) : (State.endLaunch s x code detail).windows = s.windows := (State.endLaunch_frame s x code detail).2.2.2.2.2.2.2.2.2.2.2.2.2.2.2.2.2.2.2.2.2.2.2.2.1
@[simp] theorem State.endLaunch_bpm (s : State) (x code detail : Nat) : (State.endLaunch s x code detail).bpm = s.bpm := (State.endLaunch_frame s x code detail).2.2.2.2.2.2.2.2.2.2.2.2.2.2.2.2.2.2.2.2.2.2.2.2.2.1
@[simp] theorem State.endLaunch_cool (s : State) (x code detail : Nat) : (State.endLaunch s x code detail).cool = s.cool := (State.endLaunch_frame s x code detail).2.2.2.2.2.2.2.2.2.2.2.2.2.2.2.2.2.2.2.2.2.2.2.2.2.2.1
@[simp] theorem State.endLaunch_sec (s : State) (x code detail : Nat) : (State.endLaunch s x code detail).sec = s.sec := (State.endLaunch_frame s x code detail).2.2.2.2.2.2.2.2.2.2.2.2.2.2.2.2.2.2.2.2.2.2.2.2.2.2.2.1
@[simp] theorem State.endLaunch_boot (s : State) (x code detail : Nat) : (State.endLaunch s x code detail).boot = s.boot := (State.endLaunch_frame s x code detail).2.2.2.2.2.2.2.2.2.2.2.2.2.2.2.2.2.2.2.2.2.2.2.2.2.2.2.2.1
@[simp] theorem State.endLaunch_regs (s : State) (x code detail : Nat) : (State.endLaunch s x code detail).regs = s.regs := (State.endLaunch_frame s x code detail).2.2.2.2.2.2.2.2.2.2.2.2.2.2.2.2.2.2.2.2.2.2.2.2.2.2.2.2.2.1
@[simp] theorem State.endLaunch_sels (s : State) (x code detail : Nat) : (State.endLaunch s x code detail).sels = s.sels := (State.endLaunch_frame s x code detail).2.2.2.2.2.2.2.2.2.2.2.2.2.2.2.2.2.2.2.2.2.2.2.2.2.2.2.2.2.2.1
@[simp] theorem State.endLaunch_halves (s : State) (x code detail : Nat) : (State.endLaunch s x code detail).halves = s.halves := (State.endLaunch_frame s x code detail).2.2.2.2.2.2.2.2.2.2.2.2.2.2.2.2.2.2.2.2.2.2.2.2.2.2.2.2.2.2.2
@[simp] theorem State.endLaunch_cl (s : State) (x code detail : Nat) (j_ : Nat) : (State.endLaunch s x code detail).cl j_ = s.cl j_ := by simp only [State.cl_def, State.endLaunch_clusters]
@[simp] theorem State.endLaunch_fn (s : State) (x code detail : Nat) (j_ : Nat) : (State.endLaunch s x code detail).fn j_ = s.fn j_ := by simp only [State.fn_def, State.endLaunch_fns]
@[simp] theorem State.endLaunch_link (s : State) (x code detail : Nat) (j_ : Nat) : (State.endLaunch s x code detail).link j_ = s.link j_ := by simp only [State.link_def, State.endLaunch_links]
@[simp] theorem State.endLaunch_port (s : State) (x code detail : Nat) (j_ : Nat) : (State.endLaunch s x code detail).port j_ = s.port j_ := by simp only [State.port_def, State.endLaunch_ports]
@[simp] theorem State.endLaunch_region (s : State) (x code detail : Nat) (j_ : Nat) : (State.endLaunch s x code detail).region j_ = s.region j_ := by simp only [State.region_def, State.endLaunch_regions]
@[simp] theorem State.endLaunch_domain (s : State) (x code detail : Nat) (j_ : Nat) : (State.endLaunch s x code detail).domain j_ = s.domain j_ := by simp only [State.domain_def, State.endLaunch_domains]
@[simp] theorem State.endLaunch_xing (s : State) (x code detail : Nat) (j_ : Nat) : (State.endLaunch s x code detail).xing j_ = s.xing j_ := by simp only [State.xing_def, State.endLaunch_xings]
@[simp] theorem State.endLaunch_hbm (s : State) (x code detail : Nat) (j_ : Nat) : (State.endLaunch s x code detail).hbm j_ = s.hbm j_ := by simp only [State.hbm_def, State.endLaunch_hbms]
@[simp] theorem State.endLaunch_cxl (s : State) (x code detail : Nat) (j_ : Nat) : (State.endLaunch s x code detail).cxl j_ = s.cxl j_ := by simp only [State.cxl_def, State.endLaunch_cxlPorts]
@[simp] theorem State.endLaunch_win (s : State) (x code detail : Nat) (j_ : Nat) : (State.endLaunch s x code detail).win j_ = s.win j_ := by simp only [State.win_def, State.endLaunch_windows]
@[simp] theorem State.endLaunch_page (s : State) (x code detail : Nat) (j_ : Nat) : (State.endLaunch s x code detail).page j_ = s.page j_ := by simp only [State.page_def, State.endLaunch_pages]
@[simp] theorem State.endLaunch_trow (s : State) (x code detail : Nat) (c_ n_ : Nat) : (State.endLaunch s x code detail).trow c_ n_ = s.trow c_ n_ := by simp only [State.trow_def, State.endLaunch_tarn]
@[simp] theorem State.endLaunch_now (s : State) (x code detail : Nat) : (State.endLaunch s x code detail).now = s.now := by simp only [State.now_def, State.endLaunch_tb]
theorem State.contextFatal_frame (s : State) (x code : Nat) (src : Source) :
    (State.contextFatal s x code src).pending = s.pending ∧ (State.contextFatal s x code src).fresh = s.fresh ∧ (State.contextFatal s x code src).order = s.order ∧ (State.contextFatal s x code src).variant36 = s.variant36 ∧ (State.contextFatal s x code src).enabled = s.enabled ∧ (State.contextFatal s x code src).tarn = s.tarn ∧ (State.contextFatal s x code src).pages = s.pages ∧ (State.contextFatal s x code src).zeroRuns = s.zeroRuns ∧ (State.contextFatal s x code src).regions = s.regions ∧ (State.contextFatal s x code src).domains = s.domains ∧ (State.contextFatal s x code src).xings = s.xings ∧ (State.contextFatal s x code src).tb = s.tb ∧ (State.contextFatal s x code src).nextPkt = s.nextPkt ∧ (State.contextFatal s x code src).routes = s.routes ∧ (State.contextFatal s x code src).perimRoutes = s.perimRoutes ∧ (State.contextFatal s x code src).fabLinks = s.fabLinks ∧ (State.contextFatal s x code src).links = s.links ∧ (State.contextFatal s x code src).ports = s.ports ∧ (State.contextFatal s x code src).hbms = s.hbms ∧ (State.contextFatal s x code src).cxlPorts = s.cxlPorts ∧ (State.contextFatal s x code src).windows = s.windows ∧ (State.contextFatal s x code src).bpm = s.bpm ∧ (State.contextFatal s x code src).cool = s.cool ∧ (State.contextFatal s x code src).sec = s.sec ∧ (State.contextFatal s x code src).boot = s.boot ∧ (State.contextFatal s x code src).regs = s.regs ∧ (State.contextFatal s x code src).sels = s.sels ∧ (State.contextFatal s x code src).halves = s.halves := by
  generalize h_ : State.contextFatal s x code src = t_
  unfold State.contextFatal at h_
  (try dsimp only at h_)
  (repeat' split at h_) <;> subst h_ <;> simp
@[simp] theorem State.contextFatal_pending (s : State) (x code : Nat) (src : Source) : (State.contextFatal s x code src).pending = s.pending := (State.contextFatal_frame s x code src).1
@[simp] theorem State.contextFatal_fresh (s : State) (x code : Nat) (src : Source) : (State.contextFatal s x code src).fresh = s.fresh := (State.contextFatal_frame s x code src).2.1
@[simp] theorem State.contextFatal_order (s : State) (x code : Nat) (src : Source) : (State.contextFatal s x code src).order = s.order := (State.contextFatal_frame s x code src).2.2.1
@[simp] theorem State.contextFatal_variant36 (s : State) (x code : Nat) (src : Source) : (State.contextFatal s x code src).variant36 = s.variant36 := (State.contextFatal_frame s x code src).2.2.2.1
@[simp] theorem State.contextFatal_enabled (s : State) (x code : Nat) (src : Source) : (State.contextFatal s x code src).enabled = s.enabled := (State.contextFatal_frame s x code src).2.2.2.2.1
@[simp] theorem State.contextFatal_tarn (s : State) (x code : Nat) (src : Source) : (State.contextFatal s x code src).tarn = s.tarn := (State.contextFatal_frame s x code src).2.2.2.2.2.1
@[simp] theorem State.contextFatal_pages (s : State) (x code : Nat) (src : Source) : (State.contextFatal s x code src).pages = s.pages := (State.contextFatal_frame s x code src).2.2.2.2.2.2.1
@[simp] theorem State.contextFatal_zeroRuns (s : State) (x code : Nat) (src : Source) : (State.contextFatal s x code src).zeroRuns = s.zeroRuns := (State.contextFatal_frame s x code src).2.2.2.2.2.2.2.1
@[simp] theorem State.contextFatal_regions (s : State) (x code : Nat) (src : Source) : (State.contextFatal s x code src).regions = s.regions := (State.contextFatal_frame s x code src).2.2.2.2.2.2.2.2.1
@[simp] theorem State.contextFatal_domains (s : State) (x code : Nat) (src : Source) : (State.contextFatal s x code src).domains = s.domains := (State.contextFatal_frame s x code src).2.2.2.2.2.2.2.2.2.1
@[simp] theorem State.contextFatal_xings (s : State) (x code : Nat) (src : Source) : (State.contextFatal s x code src).xings = s.xings := (State.contextFatal_frame s x code src).2.2.2.2.2.2.2.2.2.2.1
@[simp] theorem State.contextFatal_tb (s : State) (x code : Nat) (src : Source) : (State.contextFatal s x code src).tb = s.tb := (State.contextFatal_frame s x code src).2.2.2.2.2.2.2.2.2.2.2.1
@[simp] theorem State.contextFatal_nextPkt (s : State) (x code : Nat) (src : Source) : (State.contextFatal s x code src).nextPkt = s.nextPkt := (State.contextFatal_frame s x code src).2.2.2.2.2.2.2.2.2.2.2.2.1
@[simp] theorem State.contextFatal_routes (s : State) (x code : Nat) (src : Source) : (State.contextFatal s x code src).routes = s.routes := (State.contextFatal_frame s x code src).2.2.2.2.2.2.2.2.2.2.2.2.2.1
@[simp] theorem State.contextFatal_perimRoutes (s : State) (x code : Nat) (src : Source) : (State.contextFatal s x code src).perimRoutes = s.perimRoutes := (State.contextFatal_frame s x code src).2.2.2.2.2.2.2.2.2.2.2.2.2.2.1
@[simp] theorem State.contextFatal_fabLinks (s : State) (x code : Nat) (src : Source) : (State.contextFatal s x code src).fabLinks = s.fabLinks := (State.contextFatal_frame s x code src).2.2.2.2.2.2.2.2.2.2.2.2.2.2.2.1
@[simp] theorem State.contextFatal_links (s : State) (x code : Nat) (src : Source) : (State.contextFatal s x code src).links = s.links := (State.contextFatal_frame s x code src).2.2.2.2.2.2.2.2.2.2.2.2.2.2.2.2.1
@[simp] theorem State.contextFatal_ports (s : State) (x code : Nat) (src : Source) : (State.contextFatal s x code src).ports = s.ports := (State.contextFatal_frame s x code src).2.2.2.2.2.2.2.2.2.2.2.2.2.2.2.2.2.1
@[simp] theorem State.contextFatal_hbms (s : State) (x code : Nat) (src : Source) : (State.contextFatal s x code src).hbms = s.hbms := (State.contextFatal_frame s x code src).2.2.2.2.2.2.2.2.2.2.2.2.2.2.2.2.2.2.1
@[simp] theorem State.contextFatal_cxlPorts (s : State) (x code : Nat) (src : Source) : (State.contextFatal s x code src).cxlPorts = s.cxlPorts := (State.contextFatal_frame s x code src).2.2.2.2.2.2.2.2.2.2.2.2.2.2.2.2.2.2.2.1
@[simp] theorem State.contextFatal_windows (s : State) (x code : Nat) (src : Source) : (State.contextFatal s x code src).windows = s.windows := (State.contextFatal_frame s x code src).2.2.2.2.2.2.2.2.2.2.2.2.2.2.2.2.2.2.2.2.1
@[simp] theorem State.contextFatal_bpm (s : State) (x code : Nat) (src : Source) : (State.contextFatal s x code src).bpm = s.bpm := (State.contextFatal_frame s x code src).2.2.2.2.2.2.2.2.2.2.2.2.2.2.2.2.2.2.2.2.2.1
@[simp] theorem State.contextFatal_cool (s : State) (x code : Nat) (src : Source) : (State.contextFatal s x code src).cool = s.cool := (State.contextFatal_frame s x code src).2.2.2.2.2.2.2.2.2.2.2.2.2.2.2.2.2.2.2.2.2.2.1
@[simp] theorem State.contextFatal_sec (s : State) (x code : Nat) (src : Source) : (State.contextFatal s x code src).sec = s.sec := (State.contextFatal_frame s x code src).2.2.2.2.2.2.2.2.2.2.2.2.2.2.2.2.2.2.2.2.2.2.2.1
@[simp] theorem State.contextFatal_boot (s : State) (x code : Nat) (src : Source) : (State.contextFatal s x code src).boot = s.boot := (State.contextFatal_frame s x code src).2.2.2.2.2.2.2.2.2.2.2.2.2.2.2.2.2.2.2.2.2.2.2.2.1
@[simp] theorem State.contextFatal_regs (s : State) (x code : Nat) (src : Source) : (State.contextFatal s x code src).regs = s.regs := (State.contextFatal_frame s x code src).2.2.2.2.2.2.2.2.2.2.2.2.2.2.2.2.2.2.2.2.2.2.2.2.2.1
@[simp] theorem State.contextFatal_sels (s : State) (x code : Nat) (src : Source) : (State.contextFatal s x code src).sels = s.sels := (State.contextFatal_frame s x code src).2.2.2.2.2.2.2.2.2.2.2.2.2.2.2.2.2.2.2.2.2.2.2.2.2.2.1
@[simp] theorem State.contextFatal_halves (s : State) (x code : Nat) (src : Source) : (State.contextFatal s x code src).halves = s.halves := (State.contextFatal_frame s x code src).2.2.2.2.2.2.2.2.2.2.2.2.2.2.2.2.2.2.2.2.2.2.2.2.2.2.2
@[simp] theorem State.contextFatal_link (s : State) (x code : Nat) (src : Source) (j_ : Nat) : (State.contextFatal s x code src).link j_ = s.link j_ := by simp only [State.link_def, State.contextFatal_links]
@[simp] theorem State.contextFatal_port (s : State) (x code : Nat) (src : Source) (j_ : Nat) : (State.contextFatal s x code src).port j_ = s.port j_ := by simp only [State.port_def, State.contextFatal_ports]
@[simp] theorem State.contextFatal_region (s : State) (x code : Nat) (src : Source) (j_ : Nat) : (State.contextFatal s x code src).region j_ = s.region j_ := by simp only [State.region_def, State.contextFatal_regions]
@[simp] theorem State.contextFatal_domain (s : State) (x code : Nat) (src : Source) (j_ : Nat) : (State.contextFatal s x code src).domain j_ = s.domain j_ := by simp only [State.domain_def, State.contextFatal_domains]
@[simp] theorem State.contextFatal_xing (s : State) (x code : Nat) (src : Source) (j_ : Nat) : (State.contextFatal s x code src).xing j_ = s.xing j_ := by simp only [State.xing_def, State.contextFatal_xings]
@[simp] theorem State.contextFatal_hbm (s : State) (x code : Nat) (src : Source) (j_ : Nat) : (State.contextFatal s x code src).hbm j_ = s.hbm j_ := by simp only [State.hbm_def, State.contextFatal_hbms]
@[simp] theorem State.contextFatal_cxl (s : State) (x code : Nat) (src : Source) (j_ : Nat) : (State.contextFatal s x code src).cxl j_ = s.cxl j_ := by simp only [State.cxl_def, State.contextFatal_cxlPorts]
@[simp] theorem State.contextFatal_win (s : State) (x code : Nat) (src : Source) (j_ : Nat) : (State.contextFatal s x code src).win j_ = s.win j_ := by simp only [State.win_def, State.contextFatal_windows]
@[simp] theorem State.contextFatal_page (s : State) (x code : Nat) (src : Source) (j_ : Nat) : (State.contextFatal s x code src).page j_ = s.page j_ := by simp only [State.page_def, State.contextFatal_pages]
@[simp] theorem State.contextFatal_trow (s : State) (x code : Nat) (src : Source) (c_ n_ : Nat) : (State.contextFatal s x code src).trow c_ n_ = s.trow c_ n_ := by simp only [State.trow_def, State.contextFatal_tarn]
@[simp] theorem State.contextFatal_now (s : State) (x code : Nat) (src : Source) : (State.contextFatal s x code src).now = s.now := by simp only [State.now_def, State.contextFatal_tb]
theorem State.dueRecovery_frame (s : State) (x code detail : Nat) :
    (State.dueRecovery s x code detail).pending = s.pending ∧ (State.dueRecovery s x code detail).out = s.out ∧ (State.dueRecovery s x code detail).fresh = s.fresh ∧ (State.dueRecovery s x code detail).order = s.order ∧ (State.dueRecovery s x code detail).variant36 = s.variant36 ∧ (State.dueRecovery s x code detail).enabled = s.enabled ∧ (State.dueRecovery s x code detail).clusters = s.clusters ∧ (State.dueRecovery s x code detail).tarn = s.tarn ∧ (State.dueRecovery s x code detail).mem = s.mem ∧ (State.dueRecovery s x code detail).poison = s.poison ∧ (State.dueRecovery s x code detail).pages = s.pages ∧ (State.dueRecovery s x code detail).zeroRuns = s.zeroRuns ∧ (State.dueRecovery s x code detail).regions = s.regions ∧ (State.dueRecovery s x code detail).domains = s.domains ∧ (State.dueRecovery s x code detail).xings = s.xings ∧ (State.dueRecovery s x code detail).tb = s.tb ∧ (State.dueRecovery s x code detail).net = s.net ∧ (State.dueRecovery s x code detail).nextPkt = s.nextPkt ∧ (State.dueRecovery s x code detail).routes = s.routes ∧ (State.dueRecovery s x code detail).perimRoutes = s.perimRoutes ∧ (State.dueRecovery s x code detail).fabLinks = s.fabLinks ∧ (State.dueRecovery s x code detail).discards = s.discards ∧ (State.dueRecovery s x code detail).qps = s.qps ∧ (State.dueRecovery s x code detail).fns = s.fns ∧ (State.dueRecovery s x code detail).links = s.links ∧ (State.dueRecovery s x code detail).ports = s.ports ∧ (State.dueRecovery s x code detail).hbms = s.hbms ∧ (State.dueRecovery s x code detail).cxlPorts = s.cxlPorts ∧ (State.dueRecovery s x code detail).windows = s.windows ∧ (State.dueRecovery s x code detail).cores = s.cores ∧ (State.dueRecovery s x code detail).dir = s.dir ∧ (State.dueRecovery s x code detail).bpm = s.bpm ∧ (State.dueRecovery s x code detail).cool = s.cool ∧ (State.dueRecovery s x code detail).mgt = s.mgt ∧ (State.dueRecovery s x code detail).sec = s.sec ∧ (State.dueRecovery s x code detail).boot = s.boot ∧ (State.dueRecovery s x code detail).regs = s.regs ∧ (State.dueRecovery s x code detail).sels = s.sels ∧ (State.dueRecovery s x code detail).halves = s.halves := by
  generalize h_ : State.dueRecovery s x code detail = t_
  unfold State.dueRecovery at h_
  (try dsimp only at h_)
  (repeat' split at h_) <;> subst h_ <;> simp
@[simp] theorem State.dueRecovery_pending (s : State) (x code detail : Nat) : (State.dueRecovery s x code detail).pending = s.pending := (State.dueRecovery_frame s x code detail).1
@[simp] theorem State.dueRecovery_out (s : State) (x code detail : Nat) : (State.dueRecovery s x code detail).out = s.out := (State.dueRecovery_frame s x code detail).2.1
@[simp] theorem State.dueRecovery_fresh (s : State) (x code detail : Nat) : (State.dueRecovery s x code detail).fresh = s.fresh := (State.dueRecovery_frame s x code detail).2.2.1
@[simp] theorem State.dueRecovery_order (s : State) (x code detail : Nat) : (State.dueRecovery s x code detail).order = s.order := (State.dueRecovery_frame s x code detail).2.2.2.1
@[simp] theorem State.dueRecovery_variant36 (s : State) (x code detail : Nat) : (State.dueRecovery s x code detail).variant36 = s.variant36 := (State.dueRecovery_frame s x code detail).2.2.2.2.1
@[simp] theorem State.dueRecovery_enabled (s : State) (x code detail : Nat) : (State.dueRecovery s x code detail).enabled = s.enabled := (State.dueRecovery_frame s x code detail).2.2.2.2.2.1
@[simp] theorem State.dueRecovery_clusters (s : State) (x code detail : Nat) : (State.dueRecovery s x code detail).clusters = s.clusters := (State.dueRecovery_frame s x code detail).2.2.2.2.2.2.1
@[simp] theorem State.dueRecovery_tarn (s : State) (x code detail : Nat) : (State.dueRecovery s x code detail).tarn = s.tarn := (State.dueRecovery_frame s x code detail).2.2.2.2.2.2.2.1
@[simp] theorem State.dueRecovery_mem (s : State) (x code detail : Nat) : (State.dueRecovery s x code detail).mem = s.mem := (State.dueRecovery_frame s x code detail).2.2.2.2.2.2.2.2.1
@[simp] theorem State.dueRecovery_poison (s : State) (x code detail : Nat) : (State.dueRecovery s x code detail).poison = s.poison := (State.dueRecovery_frame s x code detail).2.2.2.2.2.2.2.2.2.1
@[simp] theorem State.dueRecovery_pages (s : State) (x code detail : Nat) : (State.dueRecovery s x code detail).pages = s.pages := (State.dueRecovery_frame s x code detail).2.2.2.2.2.2.2.2.2.2.1
@[simp] theorem State.dueRecovery_zeroRuns (s : State) (x code detail : Nat) : (State.dueRecovery s x code detail).zeroRuns = s.zeroRuns := (State.dueRecovery_frame s x code detail).2.2.2.2.2.2.2.2.2.2.2.1
@[simp] theorem State.dueRecovery_regions (s : State) (x code detail : Nat) : (State.dueRecovery s x code detail).regions = s.regions := (State.dueRecovery_frame s x code detail).2.2.2.2.2.2.2.2.2.2.2.2.1
@[simp] theorem State.dueRecovery_domains (s : State) (x code detail : Nat) : (State.dueRecovery s x code detail).domains = s.domains := (State.dueRecovery_frame s x code detail).2.2.2.2.2.2.2.2.2.2.2.2.2.1
@[simp] theorem State.dueRecovery_xings (s : State) (x code detail : Nat) : (State.dueRecovery s x code detail).xings = s.xings := (State.dueRecovery_frame s x code detail).2.2.2.2.2.2.2.2.2.2.2.2.2.2.1
@[simp] theorem State.dueRecovery_tb (s : State) (x code detail : Nat) : (State.dueRecovery s x code detail).tb = s.tb := (State.dueRecovery_frame s x code detail).2.2.2.2.2.2.2.2.2.2.2.2.2.2.2.1
@[simp] theorem State.dueRecovery_net (s : State) (x code detail : Nat) : (State.dueRecovery s x code detail).net = s.net := (State.dueRecovery_frame s x code detail).2.2.2.2.2.2.2.2.2.2.2.2.2.2.2.2.1
@[simp] theorem State.dueRecovery_nextPkt (s : State) (x code detail : Nat) : (State.dueRecovery s x code detail).nextPkt = s.nextPkt := (State.dueRecovery_frame s x code detail).2.2.2.2.2.2.2.2.2.2.2.2.2.2.2.2.2.1
@[simp] theorem State.dueRecovery_routes (s : State) (x code detail : Nat) : (State.dueRecovery s x code detail).routes = s.routes := (State.dueRecovery_frame s x code detail).2.2.2.2.2.2.2.2.2.2.2.2.2.2.2.2.2.2.1
@[simp] theorem State.dueRecovery_perimRoutes (s : State) (x code detail : Nat) : (State.dueRecovery s x code detail).perimRoutes = s.perimRoutes := (State.dueRecovery_frame s x code detail).2.2.2.2.2.2.2.2.2.2.2.2.2.2.2.2.2.2.2.1
@[simp] theorem State.dueRecovery_fabLinks (s : State) (x code detail : Nat) : (State.dueRecovery s x code detail).fabLinks = s.fabLinks := (State.dueRecovery_frame s x code detail).2.2.2.2.2.2.2.2.2.2.2.2.2.2.2.2.2.2.2.2.1
@[simp] theorem State.dueRecovery_discards (s : State) (x code detail : Nat) : (State.dueRecovery s x code detail).discards = s.discards := (State.dueRecovery_frame s x code detail).2.2.2.2.2.2.2.2.2.2.2.2.2.2.2.2.2.2.2.2.2.1
@[simp] theorem State.dueRecovery_qps (s : State) (x code detail : Nat) : (State.dueRecovery s x code detail).qps = s.qps := (State.dueRecovery_frame s x code detail).2.2.2.2.2.2.2.2.2.2.2.2.2.2.2.2.2.2.2.2.2.2.1
@[simp] theorem State.dueRecovery_fns (s : State) (x code detail : Nat) : (State.dueRecovery s x code detail).fns = s.fns := (State.dueRecovery_frame s x code detail).2.2.2.2.2.2.2.2.2.2.2.2.2.2.2.2.2.2.2.2.2.2.2.1
@[simp] theorem State.dueRecovery_links (s : State) (x code detail : Nat) : (State.dueRecovery s x code detail).links = s.links := (State.dueRecovery_frame s x code detail).2.2.2.2.2.2.2.2.2.2.2.2.2.2.2.2.2.2.2.2.2.2.2.2.1
@[simp] theorem State.dueRecovery_ports (s : State) (x code detail : Nat) : (State.dueRecovery s x code detail).ports = s.ports := (State.dueRecovery_frame s x code detail).2.2.2.2.2.2.2.2.2.2.2.2.2.2.2.2.2.2.2.2.2.2.2.2.2.1
@[simp] theorem State.dueRecovery_hbms (s : State) (x code detail : Nat) : (State.dueRecovery s x code detail).hbms = s.hbms := (State.dueRecovery_frame s x code detail).2.2.2.2.2.2.2.2.2.2.2.2.2.2.2.2.2.2.2.2.2.2.2.2.2.2.1
@[simp] theorem State.dueRecovery_cxlPorts (s : State) (x code detail : Nat) : (State.dueRecovery s x code detail).cxlPorts = s.cxlPorts := (State.dueRecovery_frame s x code detail).2.2.2.2.2.2.2.2.2.2.2.2.2.2.2.2.2.2.2.2.2.2.2.2.2.2.2.1
@[simp] theorem State.dueRecovery_windows (s : State) (x code detail : Nat) : (State.dueRecovery s x code detail).windows = s.windows := (State.dueRecovery_frame s x code detail).2.2.2.2.2.2.2.2.2.2.2.2.2.2.2.2.2.2.2.2.2.2.2.2.2.2.2.2.1
@[simp] theorem State.dueRecovery_cores (s : State) (x code detail : Nat) : (State.dueRecovery s x code detail).cores = s.cores := (State.dueRecovery_frame s x code detail).2.2.2.2.2.2.2.2.2.2.2.2.2.2.2.2.2.2.2.2.2.2.2.2.2.2.2.2.2.1
@[simp] theorem State.dueRecovery_dir (s : State) (x code detail : Nat) : (State.dueRecovery s x code detail).dir = s.dir := (State.dueRecovery_frame s x code detail).2.2.2.2.2.2.2.2.2.2.2.2.2.2.2.2.2.2.2.2.2.2.2.2.2.2.2.2.2.2.1
@[simp] theorem State.dueRecovery_bpm (s : State) (x code detail : Nat) : (State.dueRecovery s x code detail).bpm = s.bpm := (State.dueRecovery_frame s x code detail).2.2.2.2.2.2.2.2.2.2.2.2.2.2.2.2.2.2.2.2.2.2.2.2.2.2.2.2.2.2.2.1
@[simp] theorem State.dueRecovery_cool (s : State) (x code detail : Nat) : (State.dueRecovery s x code detail).cool = s.cool := (State.dueRecovery_frame s x code detail).2.2.2.2.2.2.2.2.2.2.2.2.2.2.2.2.2.2.2.2.2.2.2.2.2.2.2.2.2.2.2.2.1
@[simp] theorem State.dueRecovery_mgt (s : State) (x code detail : Nat) : (State.dueRecovery s x code detail).mgt = s.mgt := (State.dueRecovery_frame s x code detail).2.2.2.2.2.2.2.2.2.2.2.2.2.2.2.2.2.2.2.2.2.2.2.2.2.2.2.2.2.2.2.2.2.1
@[simp] theorem State.dueRecovery_sec (s : State) (x code detail : Nat) : (State.dueRecovery s x code detail).sec = s.sec := (State.dueRecovery_frame s x code detail).2.2.2.2.2.2.2.2.2.2.2.2.2.2.2.2.2.2.2.2.2.2.2.2.2.2.2.2.2.2.2.2.2.2.1
@[simp] theorem State.dueRecovery_boot (s : State) (x code detail : Nat) : (State.dueRecovery s x code detail).boot = s.boot := (State.dueRecovery_frame s x code detail).2.2.2.2.2.2.2.2.2.2.2.2.2.2.2.2.2.2.2.2.2.2.2.2.2.2.2.2.2.2.2.2.2.2.2.1
@[simp] theorem State.dueRecovery_regs (s : State) (x code detail : Nat) : (State.dueRecovery s x code detail).regs = s.regs := (State.dueRecovery_frame s x code detail).2.2.2.2.2.2.2.2.2.2.2.2.2.2.2.2.2.2.2.2.2.2.2.2.2.2.2.2.2.2.2.2.2.2.2.2.1
@[simp] theorem State.dueRecovery_sels (s : State) (x code detail : Nat) : (State.dueRecovery s x code detail).sels = s.sels := (State.dueRecovery_frame s x code detail).2.2.2.2.2.2.2.2.2.2.2.2.2.2.2.2.2.2.2.2.2.2.2.2.2.2.2.2.2.2.2.2.2.2.2.2.2.1
@[simp] theorem State.dueRecovery_halves (s : State) (x code detail : Nat) : (State.dueRecovery s x code detail).halves = s.halves := (State.dueRecovery_frame s x code detail).2.2.2.2.2.2.2.2.2.2.2.2.2.2.2.2.2.2.2.2.2.2.2.2.2.2.2.2.2.2.2.2.2.2.2.2.2.2
@[simp] theorem State.dueRecovery_cl (s : State) (x code detail : Nat) (j_ : Nat) : (State.dueRecovery s x code detail).cl j_ = s.cl j_ := by simp only [State.cl_def, State.dueRecovery_clusters]
@[simp] theorem State.dueRecovery_qp (s : State) (x code detail : Nat) (j_ : Nat) : (State.dueRecovery s x code detail).qp j_ = s.qp j_ := by simp only [State.qp_def, State.dueRecovery_qps]
@[simp] theorem State.dueRecovery_fn (s : State) (x code detail : Nat) (j_ : Nat) : (State.dueRecovery s x code detail).fn j_ = s.fn j_ := by simp only [State.fn_def, State.dueRecovery_fns]
@[simp] theorem State.dueRecovery_link (s : State) (x code detail : Nat) (j_ : Nat) : (State.dueRecovery s x code detail).link j_ = s.link j_ := by simp only [State.link_def, State.dueRecovery_links]
@[simp] theorem State.dueRecovery_port (s : State) (x code detail : Nat) (j_ : Nat) : (State.dueRecovery s x code detail).port j_ = s.port j_ := by simp only [State.port_def, State.dueRecovery_ports]
@[simp] theorem State.dueRecovery_region (s : State) (x code detail : Nat) (j_ : Nat) : (State.dueRecovery s x code detail).region j_ = s.region j_ := by simp only [State.region_def, State.dueRecovery_regions]
@[simp] theorem State.dueRecovery_domain (s : State) (x code detail : Nat) (j_ : Nat) : (State.dueRecovery s x code detail).domain j_ = s.domain j_ := by simp only [State.domain_def, State.dueRecovery_domains]
@[simp] theorem State.dueRecovery_xing (s : State) (x code detail : Nat) (j_ : Nat) : (State.dueRecovery s x code detail).xing j_ = s.xing j_ := by simp only [State.xing_def, State.dueRecovery_xings]
@[simp] theorem State.dueRecovery_hbm (s : State) (x code detail : Nat) (j_ : Nat) : (State.dueRecovery s x code detail).hbm j_ = s.hbm j_ := by simp only [State.hbm_def, State.dueRecovery_hbms]
@[simp] theorem State.dueRecovery_cxl (s : State) (x code detail : Nat) (j_ : Nat) : (State.dueRecovery s x code detail).cxl j_ = s.cxl j_ := by simp only [State.cxl_def, State.dueRecovery_cxlPorts]
@[simp] theorem State.dueRecovery_win (s : State) (x code detail : Nat) (j_ : Nat) : (State.dueRecovery s x code detail).win j_ = s.win j_ := by simp only [State.win_def, State.dueRecovery_windows]
@[simp] theorem State.dueRecovery_core (s : State) (x code detail : Nat) (j_ : Nat) : (State.dueRecovery s x code detail).core j_ = s.core j_ := by simp only [State.core_def, State.dueRecovery_cores]
@[simp] theorem State.dueRecovery_dirLine (s : State) (x code detail : Nat) (j_ : Nat) : (State.dueRecovery s x code detail).dirLine j_ = s.dirLine j_ := by simp only [State.dirLine_def, State.dueRecovery_dir]
@[simp] theorem State.dueRecovery_page (s : State) (x code detail : Nat) (j_ : Nat) : (State.dueRecovery s x code detail).page j_ = s.page j_ := by simp only [State.page_def, State.dueRecovery_pages]
@[simp] theorem State.dueRecovery_trow (s : State) (x code detail : Nat) (c_ n_ : Nat) : (State.dueRecovery s x code detail).trow c_ n_ = s.trow c_ n_ := by simp only [State.trow_def, State.dueRecovery_tarn]
@[simp] theorem State.dueRecovery_rawByte (s : State) (x code detail : Nat) (a_ : Nat) : (State.dueRecovery s x code detail).rawByte a_ = s.rawByte a_ := by simp only [State.rawByte_def, State.dueRecovery_mem]
@[simp] theorem State.dueRecovery_now (s : State) (x code detail : Nat) : (State.dueRecovery s x code detail).now = s.now := by simp only [State.now_def, State.dueRecovery_tb]
theorem State.contained_frame (s : State) (x code : Nat) (src : Source) :
    (State.contained s x code src).pending = s.pending ∧ (State.contained s x code src).fresh = s.fresh ∧ (State.contained s x code src).order = s.order ∧ (State.contained s x code src).variant36 = s.variant36 ∧ (State.contained s x code src).enabled = s.enabled ∧ (State.contained s x code src).tarn = s.tarn ∧ (State.contained s x code src).pages = s.pages ∧ (State.contained s x code src).zeroRuns = s.zeroRuns ∧ (State.contained s x code src).regions = s.regions ∧ (State.contained s x code src).domains = s.domains ∧ (State.contained s x code src).xings = s.xings ∧ (State.contained s x code src).tb = s.tb ∧ (State.contained s x code src).nextPkt = s.nextPkt ∧ (State.contained s x code src).routes = s.routes ∧ (State.contained s x code src).perimRoutes = s.perimRoutes ∧ (State.contained s x code src).fabLinks = s.fabLinks ∧ (State.contained s x code src).links = s.links ∧ (State.contained s x code src).ports = s.ports ∧ (State.contained s x code src).hbms = s.hbms ∧ (State.contained s x code src).cxlPorts = s.cxlPorts ∧ (State.contained s x code src).windows = s.windows ∧ (State.contained s x code src).bpm = s.bpm ∧ (State.contained s x code src).cool = s.cool ∧ (State.contained s x code src).sec = s.sec ∧ (State.contained s x code src).boot = s.boot ∧ (State.contained s x code src).regs = s.regs ∧ (State.contained s x code src).sels = s.sels ∧ (State.contained s x code src).halves = s.halves := by
  generalize h_ : State.contained s x code src = t_
  unfold State.contained at h_
  (try dsimp only at h_)
  (repeat' split at h_) <;> subst h_ <;> simp
@[simp] theorem State.contained_pending (s : State) (x code : Nat) (src : Source) : (State.contained s x code src).pending = s.pending := (State.contained_frame s x code src).1
@[simp] theorem State.contained_fresh (s : State) (x code : Nat) (src : Source) : (State.contained s x code src).fresh = s.fresh := (State.contained_frame s x code src).2.1
@[simp] theorem State.contained_order (s : State) (x code : Nat) (src : Source) : (State.contained s x code src).order = s.order := (State.contained_frame s x code src).2.2.1
@[simp] theorem State.contained_variant36 (s : State) (x code : Nat) (src : Source) : (State.contained s x code src).variant36 = s.variant36 := (State.contained_frame s x code src).2.2.2.1
@[simp] theorem State.contained_enabled (s : State) (x code : Nat) (src : Source) : (State.contained s x code src).enabled = s.enabled := (State.contained_frame s x code src).2.2.2.2.1
@[simp] theorem State.contained_tarn (s : State) (x code : Nat) (src : Source) : (State.contained s x code src).tarn = s.tarn := (State.contained_frame s x code src).2.2.2.2.2.1
@[simp] theorem State.contained_pages (s : State) (x code : Nat) (src : Source) : (State.contained s x code src).pages = s.pages := (State.contained_frame s x code src).2.2.2.2.2.2.1
@[simp] theorem State.contained_zeroRuns (s : State) (x code : Nat) (src : Source) : (State.contained s x code src).zeroRuns = s.zeroRuns := (State.contained_frame s x code src).2.2.2.2.2.2.2.1
@[simp] theorem State.contained_regions (s : State) (x code : Nat) (src : Source) : (State.contained s x code src).regions = s.regions := (State.contained_frame s x code src).2.2.2.2.2.2.2.2.1
@[simp] theorem State.contained_domains (s : State) (x code : Nat) (src : Source) : (State.contained s x code src).domains = s.domains := (State.contained_frame s x code src).2.2.2.2.2.2.2.2.2.1
@[simp] theorem State.contained_xings (s : State) (x code : Nat) (src : Source) : (State.contained s x code src).xings = s.xings := (State.contained_frame s x code src).2.2.2.2.2.2.2.2.2.2.1
@[simp] theorem State.contained_tb (s : State) (x code : Nat) (src : Source) : (State.contained s x code src).tb = s.tb := (State.contained_frame s x code src).2.2.2.2.2.2.2.2.2.2.2.1
@[simp] theorem State.contained_nextPkt (s : State) (x code : Nat) (src : Source) : (State.contained s x code src).nextPkt = s.nextPkt := (State.contained_frame s x code src).2.2.2.2.2.2.2.2.2.2.2.2.1
@[simp] theorem State.contained_routes (s : State) (x code : Nat) (src : Source) : (State.contained s x code src).routes = s.routes := (State.contained_frame s x code src).2.2.2.2.2.2.2.2.2.2.2.2.2.1
@[simp] theorem State.contained_perimRoutes (s : State) (x code : Nat) (src : Source) : (State.contained s x code src).perimRoutes = s.perimRoutes := (State.contained_frame s x code src).2.2.2.2.2.2.2.2.2.2.2.2.2.2.1
@[simp] theorem State.contained_fabLinks (s : State) (x code : Nat) (src : Source) : (State.contained s x code src).fabLinks = s.fabLinks := (State.contained_frame s x code src).2.2.2.2.2.2.2.2.2.2.2.2.2.2.2.1
@[simp] theorem State.contained_links (s : State) (x code : Nat) (src : Source) : (State.contained s x code src).links = s.links := (State.contained_frame s x code src).2.2.2.2.2.2.2.2.2.2.2.2.2.2.2.2.1
@[simp] theorem State.contained_ports (s : State) (x code : Nat) (src : Source) : (State.contained s x code src).ports = s.ports := (State.contained_frame s x code src).2.2.2.2.2.2.2.2.2.2.2.2.2.2.2.2.2.1
@[simp] theorem State.contained_hbms (s : State) (x code : Nat) (src : Source) : (State.contained s x code src).hbms = s.hbms := (State.contained_frame s x code src).2.2.2.2.2.2.2.2.2.2.2.2.2.2.2.2.2.2.1
@[simp] theorem State.contained_cxlPorts (s : State) (x code : Nat) (src : Source) : (State.contained s x code src).cxlPorts = s.cxlPorts := (State.contained_frame s x code src).2.2.2.2.2.2.2.2.2.2.2.2.2.2.2.2.2.2.2.1
@[simp] theorem State.contained_windows (s : State) (x code : Nat) (src : Source) : (State.contained s x code src).windows = s.windows := (State.contained_frame s x code src).2.2.2.2.2.2.2.2.2.2.2.2.2.2.2.2.2.2.2.2.1
@[simp] theorem State.contained_bpm (s : State) (x code : Nat) (src : Source) : (State.contained s x code src).bpm = s.bpm := (State.contained_frame s x code src).2.2.2.2.2.2.2.2.2.2.2.2.2.2.2.2.2.2.2.2.2.1
@[simp] theorem State.contained_cool (s : State) (x code : Nat) (src : Source) : (State.contained s x code src).cool = s.cool := (State.contained_frame s x code src).2.2.2.2.2.2.2.2.2.2.2.2.2.2.2.2.2.2.2.2.2.2.1
@[simp] theorem State.contained_sec (s : State) (x code : Nat) (src : Source) : (State.contained s x code src).sec = s.sec := (State.contained_frame s x code src).2.2.2.2.2.2.2.2.2.2.2.2.2.2.2.2.2.2.2.2.2.2.2.1
@[simp] theorem State.contained_boot (s : State) (x code : Nat) (src : Source) : (State.contained s x code src).boot = s.boot := (State.contained_frame s x code src).2.2.2.2.2.2.2.2.2.2.2.2.2.2.2.2.2.2.2.2.2.2.2.2.1
@[simp] theorem State.contained_regs (s : State) (x code : Nat) (src : Source) : (State.contained s x code src).regs = s.regs := (State.contained_frame s x code src).2.2.2.2.2.2.2.2.2.2.2.2.2.2.2.2.2.2.2.2.2.2.2.2.2.1
@[simp] theorem State.contained_sels (s : State) (x code : Nat) (src : Source) : (State.contained s x code src).sels = s.sels := (State.contained_frame s x code src).2.2.2.2.2.2.2.2.2.2.2.2.2.2.2.2.2.2.2.2.2.2.2.2.2.2.1
@[simp] theorem State.contained_halves (s : State) (x code : Nat) (src : Source) : (State.contained s x code src).halves = s.halves := (State.contained_frame s x code src).2.2.2.2.2.2.2.2.2.2.2.2.2.2.2.2.2.2.2.2.2.2.2.2.2.2.2
@[simp] theorem State.contained_link (s : State) (x code : Nat) (src : Source) (j_ : Nat) : (State.contained s x code src).link j_ = s.link j_ := by simp only [State.link_def, State.contained_links]
@[simp] theorem State.contained_port (s : State) (x code : Nat) (src : Source) (j_ : Nat) : (State.contained s x code src).port j_ = s.port j_ := by simp only [State.port_def, State.contained_ports]
@[simp] theorem State.contained_region (s : State) (x code : Nat) (src : Source) (j_ : Nat) : (State.contained s x code src).region j_ = s.region j_ := by simp only [State.region_def, State.contained_regions]
@[simp] theorem State.contained_domain (s : State) (x code : Nat) (src : Source) (j_ : Nat) : (State.contained s x code src).domain j_ = s.domain j_ := by simp only [State.domain_def, State.contained_domains]
@[simp] theorem State.contained_xing (s : State) (x code : Nat) (src : Source) (j_ : Nat) : (State.contained s x code src).xing j_ = s.xing j_ := by simp only [State.xing_def, State.contained_xings]
@[simp] theorem State.contained_hbm (s : State) (x code : Nat) (src : Source) (j_ : Nat) : (State.contained s x code src).hbm j_ = s.hbm j_ := by simp only [State.hbm_def, State.contained_hbms]
@[simp] theorem State.contained_cxl (s : State) (x code : Nat) (src : Source) (j_ : Nat) : (State.contained s x code src).cxl j_ = s.cxl j_ := by simp only [State.cxl_def, State.contained_cxlPorts]
@[simp] theorem State.contained_win (s : State) (x code : Nat) (src : Source) (j_ : Nat) : (State.contained s x code src).win j_ = s.win j_ := by simp only [State.win_def, State.contained_windows]
@[simp] theorem State.contained_page (s : State) (x code : Nat) (src : Source) (j_ : Nat) : (State.contained s x code src).page j_ = s.page j_ := by simp only [State.page_def, State.contained_pages]
@[simp] theorem State.contained_trow (s : State) (x code : Nat) (src : Source) (c_ n_ : Nat) : (State.contained s x code src).trow c_ n_ = s.trow c_ n_ := by simp only [State.trow_def, State.contained_tarn]
@[simp] theorem State.contained_now (s : State) (x code : Nat) (src : Source) : (State.contained s x code src).now = s.now := by simp only [State.now_def, State.contained_tb]
theorem State.askRecovery_frame (s : State) (x : Nat) (src : Source) :
    (State.askRecovery s x src).pending = s.pending ∧ (State.askRecovery s x src).fresh = s.fresh ∧ (State.askRecovery s x src).order = s.order ∧ (State.askRecovery s x src).variant36 = s.variant36 ∧ (State.askRecovery s x src).enabled = s.enabled ∧ (State.askRecovery s x src).tarn = s.tarn ∧ (State.askRecovery s x src).pages = s.pages ∧ (State.askRecovery s x src).zeroRuns = s.zeroRuns ∧ (State.askRecovery s x src).regions = s.regions ∧ (State.askRecovery s x src).domains = s.domains ∧ (State.askRecovery s x src).xings = s.xings ∧ (State.askRecovery s x src).tb = s.tb ∧ (State.askRecovery s x src).nextPkt = s.nextPkt ∧ (State.askRecovery s x src).routes = s.routes ∧ (State.askRecovery s x src).perimRoutes = s.perimRoutes ∧ (State.askRecovery s x src).fabLinks = s.fabLinks ∧ (State.askRecovery s x src).links = s.links ∧ (State.askRecovery s x src).ports = s.ports ∧ (State.askRecovery s x src).hbms = s.hbms ∧ (State.askRecovery s x src).cxlPorts = s.cxlPorts ∧ (State.askRecovery s x src).windows = s.windows ∧ (State.askRecovery s x src).bpm = s.bpm ∧ (State.askRecovery s x src).cool = s.cool ∧ (State.askRecovery s x src).sec = s.sec ∧ (State.askRecovery s x src).boot = s.boot ∧ (State.askRecovery s x src).regs = s.regs ∧ (State.askRecovery s x src).sels = s.sels ∧ (State.askRecovery s x src).halves = s.halves := by
  generalize h_ : State.askRecovery s x src = t_
  unfold State.askRecovery at h_
  (try dsimp only at h_)
  (repeat' split at h_) <;> subst h_ <;> simp
@[simp] theorem State.askRecovery_pending (s : State) (x : Nat) (src : Source) : (State.askRecovery s x src).pending = s.pending := (State.askRecovery_frame s x src).1
@[simp] theorem State.askRecovery_fresh (s : State) (x : Nat) (src : Source) : (State.askRecovery s x src).fresh = s.fresh := (State.askRecovery_frame s x src).2.1
@[simp] theorem State.askRecovery_order (s : State) (x : Nat) (src : Source) : (State.askRecovery s x src).order = s.order := (State.askRecovery_frame s x src).2.2.1
@[simp] theorem State.askRecovery_variant36 (s : State) (x : Nat) (src : Source) : (State.askRecovery s x src).variant36 = s.variant36 := (State.askRecovery_frame s x src).2.2.2.1
@[simp] theorem State.askRecovery_enabled (s : State) (x : Nat) (src : Source) : (State.askRecovery s x src).enabled = s.enabled := (State.askRecovery_frame s x src).2.2.2.2.1
@[simp] theorem State.askRecovery_tarn (s : State) (x : Nat) (src : Source) : (State.askRecovery s x src).tarn = s.tarn := (State.askRecovery_frame s x src).2.2.2.2.2.1
@[simp] theorem State.askRecovery_pages (s : State) (x : Nat) (src : Source) : (State.askRecovery s x src).pages = s.pages := (State.askRecovery_frame s x src).2.2.2.2.2.2.1
@[simp] theorem State.askRecovery_zeroRuns (s : State) (x : Nat) (src : Source) : (State.askRecovery s x src).zeroRuns = s.zeroRuns := (State.askRecovery_frame s x src).2.2.2.2.2.2.2.1
@[simp] theorem State.askRecovery_regions (s : State) (x : Nat) (src : Source) : (State.askRecovery s x src).regions = s.regions := (State.askRecovery_frame s x src).2.2.2.2.2.2.2.2.1
@[simp] theorem State.askRecovery_domains (s : State) (x : Nat) (src : Source) : (State.askRecovery s x src).domains = s.domains := (State.askRecovery_frame s x src).2.2.2.2.2.2.2.2.2.1
@[simp] theorem State.askRecovery_xings (s : State) (x : Nat) (src : Source) : (State.askRecovery s x src).xings = s.xings := (State.askRecovery_frame s x src).2.2.2.2.2.2.2.2.2.2.1
@[simp] theorem State.askRecovery_tb (s : State) (x : Nat) (src : Source) : (State.askRecovery s x src).tb = s.tb := (State.askRecovery_frame s x src).2.2.2.2.2.2.2.2.2.2.2.1
@[simp] theorem State.askRecovery_nextPkt (s : State) (x : Nat) (src : Source) : (State.askRecovery s x src).nextPkt = s.nextPkt := (State.askRecovery_frame s x src).2.2.2.2.2.2.2.2.2.2.2.2.1
@[simp] theorem State.askRecovery_routes (s : State) (x : Nat) (src : Source) : (State.askRecovery s x src).routes = s.routes := (State.askRecovery_frame s x src).2.2.2.2.2.2.2.2.2.2.2.2.2.1
@[simp] theorem State.askRecovery_perimRoutes (s : State) (x : Nat) (src : Source) : (State.askRecovery s x src).perimRoutes = s.perimRoutes := (State.askRecovery_frame s x src).2.2.2.2.2.2.2.2.2.2.2.2.2.2.1
@[simp] theorem State.askRecovery_fabLinks (s : State) (x : Nat) (src : Source) : (State.askRecovery s x src).fabLinks = s.fabLinks := (State.askRecovery_frame s x src).2.2.2.2.2.2.2.2.2.2.2.2.2.2.2.1
@[simp] theorem State.askRecovery_links (s : State) (x : Nat) (src : Source) : (State.askRecovery s x src).links = s.links := (State.askRecovery_frame s x src).2.2.2.2.2.2.2.2.2.2.2.2.2.2.2.2.1
@[simp] theorem State.askRecovery_ports (s : State) (x : Nat) (src : Source) : (State.askRecovery s x src).ports = s.ports := (State.askRecovery_frame s x src).2.2.2.2.2.2.2.2.2.2.2.2.2.2.2.2.2.1
@[simp] theorem State.askRecovery_hbms (s : State) (x : Nat) (src : Source) : (State.askRecovery s x src).hbms = s.hbms := (State.askRecovery_frame s x src).2.2.2.2.2.2.2.2.2.2.2.2.2.2.2.2.2.2.1
@[simp] theorem State.askRecovery_cxlPorts (s : State) (x : Nat) (src : Source) : (State.askRecovery s x src).cxlPorts = s.cxlPorts := (State.askRecovery_frame s x src).2.2.2.2.2.2.2.2.2.2.2.2.2.2.2.2.2.2.2.1
@[simp] theorem State.askRecovery_windows (s : State) (x : Nat) (src : Source) : (State.askRecovery s x src).windows = s.windows := (State.askRecovery_frame s x src).2.2.2.2.2.2.2.2.2.2.2.2.2.2.2.2.2.2.2.2.1
@[simp] theorem State.askRecovery_bpm (s : State) (x : Nat) (src : Source) : (State.askRecovery s x src).bpm = s.bpm := (State.askRecovery_frame s x src).2.2.2.2.2.2.2.2.2.2.2.2.2.2.2.2.2.2.2.2.2.1
@[simp] theorem State.askRecovery_cool (s : State) (x : Nat) (src : Source) : (State.askRecovery s x src).cool = s.cool := (State.askRecovery_frame s x src).2.2.2.2.2.2.2.2.2.2.2.2.2.2.2.2.2.2.2.2.2.2.1
@[simp] theorem State.askRecovery_sec (s : State) (x : Nat) (src : Source) : (State.askRecovery s x src).sec = s.sec := (State.askRecovery_frame s x src).2.2.2.2.2.2.2.2.2.2.2.2.2.2.2.2.2.2.2.2.2.2.2.1
@[simp] theorem State.askRecovery_boot (s : State) (x : Nat) (src : Source) : (State.askRecovery s x src).boot = s.boot := (State.askRecovery_frame s x src).2.2.2.2.2.2.2.2.2.2.2.2.2.2.2.2.2.2.2.2.2.2.2.2.1
@[simp] theorem State.askRecovery_regs (s : State) (x : Nat) (src : Source) : (State.askRecovery s x src).regs = s.regs := (State.askRecovery_frame s x src).2.2.2.2.2.2.2.2.2.2.2.2.2.2.2.2.2.2.2.2.2.2.2.2.2.1
@[simp] theorem State.askRecovery_sels (s : State) (x : Nat) (src : Source) : (State.askRecovery s x src).sels = s.sels := (State.askRecovery_frame s x src).2.2.2.2.2.2.2.2.2.2.2.2.2.2.2.2.2.2.2.2.2.2.2.2.2.2.1
@[simp] theorem State.askRecovery_halves (s : State) (x : Nat) (src : Source) : (State.askRecovery s x src).halves = s.halves := (State.askRecovery_frame s x src).2.2.2.2.2.2.2.2.2.2.2.2.2.2.2.2.2.2.2.2.2.2.2.2.2.2.2
@[simp] theorem State.askRecovery_link (s : State) (x : Nat) (src : Source) (j_ : Nat) : (State.askRecovery s x src).link j_ = s.link j_ := by simp only [State.link_def, State.askRecovery_links]
@[simp] theorem State.askRecovery_port (s : State) (x : Nat) (src : Source) (j_ : Nat) : (State.askRecovery s x src).port j_ = s.port j_ := by simp only [State.port_def, State.askRecovery_ports]
@[simp] theorem State.askRecovery_region (s : State) (x : Nat) (src : Source) (j_ : Nat) : (State.askRecovery s x src).region j_ = s.region j_ := by simp only [State.region_def, State.askRecovery_regions]
@[simp] theorem State.askRecovery_domain (s : State) (x : Nat) (src : Source) (j_ : Nat) : (State.askRecovery s x src).domain j_ = s.domain j_ := by simp only [State.domain_def, State.askRecovery_domains]
@[simp] theorem State.askRecovery_xing (s : State) (x : Nat) (src : Source) (j_ : Nat) : (State.askRecovery s x src).xing j_ = s.xing j_ := by simp only [State.xing_def, State.askRecovery_xings]
@[simp] theorem State.askRecovery_hbm (s : State) (x : Nat) (src : Source) (j_ : Nat) : (State.askRecovery s x src).hbm j_ = s.hbm j_ := by simp only [State.hbm_def, State.askRecovery_hbms]
@[simp] theorem State.askRecovery_cxl (s : State) (x : Nat) (src : Source) (j_ : Nat) : (State.askRecovery s x src).cxl j_ = s.cxl j_ := by simp only [State.cxl_def, State.askRecovery_cxlPorts]
@[simp] theorem State.askRecovery_win (s : State) (x : Nat) (src : Source) (j_ : Nat) : (State.askRecovery s x src).win j_ = s.win j_ := by simp only [State.win_def, State.askRecovery_windows]
@[simp] theorem State.askRecovery_page (s : State) (x : Nat) (src : Source) (j_ : Nat) : (State.askRecovery s x src).page j_ = s.page j_ := by simp only [State.page_def, State.askRecovery_pages]
@[simp] theorem State.askRecovery_trow (s : State) (x : Nat) (src : Source) (c_ n_ : Nat) : (State.askRecovery s x src).trow c_ n_ = s.trow c_ n_ := by simp only [State.trow_def, State.askRecovery_tarn]
@[simp] theorem State.askRecovery_now (s : State) (x : Nat) (src : Source) : (State.askRecovery s x src).now = s.now := by simp only [State.now_def, State.askRecovery_tb]
theorem State.orderRetire_frame (s : State) (r : Nat) :
    (State.orderRetire s r).pending = s.pending ∧ (State.orderRetire s r).fresh = s.fresh ∧ (State.orderRetire s r).order = s.order ∧ (State.orderRetire s r).variant36 = s.variant36 ∧ (State.orderRetire s r).enabled = s.enabled ∧ (State.orderRetire s r).tarn = s.tarn ∧ (State.orderRetire s r).pages = s.pages ∧ (State.orderRetire s r).zeroRuns = s.zeroRuns ∧ (State.orderRetire s r).domains = s.domains ∧ (State.orderRetire s r).xings = s.xings ∧ (State.orderRetire s r).tb = s.tb ∧ (State.orderRetire s r).nextPkt = s.nextPkt ∧ (State.orderRetire s r).routes = s.routes ∧ (State.orderRetire s r).perimRoutes = s.perimRoutes ∧ (State.orderRetire s r).fabLinks = s.fabLinks ∧ (State.orderRetire s r).links = s.links ∧ (State.orderRetire s r).ports = s.ports ∧ (State.orderRetire s r).hbms = s.hbms ∧ (State.orderRetire s r).cxlPorts = s.cxlPorts ∧ (State.orderRetire s r).windows = s.windows ∧ (State.orderRetire s r).bpm = s.bpm ∧ (State.orderRetire s r).cool = s.cool ∧ (State.orderRetire s r).sec = s.sec ∧ (State.orderRetire s r).boot = s.boot ∧ (State.orderRetire s r).regs = s.regs ∧ (State.orderRetire s r).sels = s.sels ∧ (State.orderRetire s r).halves = s.halves := by
  generalize h_ : State.orderRetire s r = t_
  unfold State.orderRetire at h_
  (try dsimp only at h_)
  (repeat' split at h_) <;> subst h_ <;> simp
@[simp] theorem State.orderRetire_pending (s : State) (r : Nat) : (State.orderRetire s r).pending = s.pending := (State.orderRetire_frame s r).1
@[simp] theorem State.orderRetire_fresh (s : State) (r : Nat) : (State.orderRetire s r).fresh = s.fresh := (State.orderRetire_frame s r).2.1
@[simp] theorem State.orderRetire_order (s : State) (r : Nat) : (State.orderRetire s r).order = s.order := (State.orderRetire_frame s r).2.2.1
@[simp] theorem State.orderRetire_variant36 (s : State) (r : Nat) : (State.orderRetire s r).variant36 = s.variant36 := (State.orderRetire_frame s r).2.2.2.1
@[simp] theorem State.orderRetire_enabled (s : State) (r : Nat) : (State.orderRetire s r).enabled = s.enabled := (State.orderRetire_frame s r).2.2.2.2.1
@[simp] theorem State.orderRetire_tarn (s : State) (r : Nat) : (State.orderRetire s r).tarn = s.tarn := (State.orderRetire_frame s r).2.2.2.2.2.1
@[simp] theorem State.orderRetire_pages (s : State) (r : Nat) : (State.orderRetire s r).pages = s.pages := (State.orderRetire_frame s r).2.2.2.2.2.2.1
@[simp] theorem State.orderRetire_zeroRuns (s : State) (r : Nat) : (State.orderRetire s r).zeroRuns = s.zeroRuns := (State.orderRetire_frame s r).2.2.2.2.2.2.2.1
@[simp] theorem State.orderRetire_domains (s : State) (r : Nat) : (State.orderRetire s r).domains = s.domains := (State.orderRetire_frame s r).2.2.2.2.2.2.2.2.1
@[simp] theorem State.orderRetire_xings (s : State) (r : Nat) : (State.orderRetire s r).xings = s.xings := (State.orderRetire_frame s r).2.2.2.2.2.2.2.2.2.1
@[simp] theorem State.orderRetire_tb (s : State) (r : Nat) : (State.orderRetire s r).tb = s.tb := (State.orderRetire_frame s r).2.2.2.2.2.2.2.2.2.2.1
@[simp] theorem State.orderRetire_nextPkt (s : State) (r : Nat) : (State.orderRetire s r).nextPkt = s.nextPkt := (State.orderRetire_frame s r).2.2.2.2.2.2.2.2.2.2.2.1
@[simp] theorem State.orderRetire_routes (s : State) (r : Nat) : (State.orderRetire s r).routes = s.routes := (State.orderRetire_frame s r).2.2.2.2.2.2.2.2.2.2.2.2.1
@[simp] theorem State.orderRetire_perimRoutes (s : State) (r : Nat) : (State.orderRetire s r).perimRoutes = s.perimRoutes := (State.orderRetire_frame s r).2.2.2.2.2.2.2.2.2.2.2.2.2.1
@[simp] theorem State.orderRetire_fabLinks (s : State) (r : Nat) : (State.orderRetire s r).fabLinks = s.fabLinks := (State.orderRetire_frame s r).2.2.2.2.2.2.2.2.2.2.2.2.2.2.1
@[simp] theorem State.orderRetire_links (s : State) (r : Nat) : (State.orderRetire s r).links = s.links := (State.orderRetire_frame s r).2.2.2.2.2.2.2.2.2.2.2.2.2.2.2.1
@[simp] theorem State.orderRetire_ports (s : State) (r : Nat) : (State.orderRetire s r).ports = s.ports := (State.orderRetire_frame s r).2.2.2.2.2.2.2.2.2.2.2.2.2.2.2.2.1
@[simp] theorem State.orderRetire_hbms (s : State) (r : Nat) : (State.orderRetire s r).hbms = s.hbms := (State.orderRetire_frame s r).2.2.2.2.2.2.2.2.2.2.2.2.2.2.2.2.2.1
@[simp] theorem State.orderRetire_cxlPorts (s : State) (r : Nat) : (State.orderRetire s r).cxlPorts = s.cxlPorts := (State.orderRetire_frame s r).2.2.2.2.2.2.2.2.2.2.2.2.2.2.2.2.2.2.1
@[simp] theorem State.orderRetire_windows (s : State) (r : Nat) : (State.orderRetire s r).windows = s.windows := (State.orderRetire_frame s r).2.2.2.2.2.2.2.2.2.2.2.2.2.2.2.2.2.2.2.1
@[simp] theorem State.orderRetire_bpm (s : State) (r : Nat) : (State.orderRetire s r).bpm = s.bpm := (State.orderRetire_frame s r).2.2.2.2.2.2.2.2.2.2.2.2.2.2.2.2.2.2.2.2.1
@[simp] theorem State.orderRetire_cool (s : State) (r : Nat) : (State.orderRetire s r).cool = s.cool := (State.orderRetire_frame s r).2.2.2.2.2.2.2.2.2.2.2.2.2.2.2.2.2.2.2.2.2.1
@[simp] theorem State.orderRetire_sec (s : State) (r : Nat) : (State.orderRetire s r).sec = s.sec := (State.orderRetire_frame s r).2.2.2.2.2.2.2.2.2.2.2.2.2.2.2.2.2.2.2.2.2.2.1
@[simp] theorem State.orderRetire_boot (s : State) (r : Nat) : (State.orderRetire s r).boot = s.boot := (State.orderRetire_frame s r).2.2.2.2.2.2.2.2.2.2.2.2.2.2.2.2.2.2.2.2.2.2.2.1
@[simp] theorem State.orderRetire_regs (s : State) (r : Nat) : (State.orderRetire s r).regs = s.regs := (State.orderRetire_frame s r).2.2.2.2.2.2.2.2.2.2.2.2.2.2.2.2.2.2.2.2.2.2.2.2.1
@[simp] theorem State.orderRetire_sels (s : State) (r : Nat) : (State.orderRetire s r).sels = s.sels := (State.orderRetire_frame s r).2.2.2.2.2.2.2.2.2.2.2.2.2.2.2.2.2.2.2.2.2.2.2.2.2.1
@[simp] theorem State.orderRetire_halves (s : State) (r : Nat) : (State.orderRetire s r).halves = s.halves := (State.orderRetire_frame s r).2.2.2.2.2.2.2.2.2.2.2.2.2.2.2.2.2.2.2.2.2.2.2.2.2.2
@[simp] theorem State.orderRetire_link (s : State) (r : Nat) (j_ : Nat) : (State.orderRetire s r).link j_ = s.link j_ := by simp only [State.link_def, State.orderRetire_links]
@[simp] theorem State.orderRetire_port (s : State) (r : Nat) (j_ : Nat) : (State.orderRetire s r).port j_ = s.port j_ := by simp only [State.port_def, State.orderRetire_ports]
@[simp] theorem State.orderRetire_domain (s : State) (r : Nat) (j_ : Nat) : (State.orderRetire s r).domain j_ = s.domain j_ := by simp only [State.domain_def, State.orderRetire_domains]
@[simp] theorem State.orderRetire_xing (s : State) (r : Nat) (j_ : Nat) : (State.orderRetire s r).xing j_ = s.xing j_ := by simp only [State.xing_def, State.orderRetire_xings]
@[simp] theorem State.orderRetire_hbm (s : State) (r : Nat) (j_ : Nat) : (State.orderRetire s r).hbm j_ = s.hbm j_ := by simp only [State.hbm_def, State.orderRetire_hbms]
@[simp] theorem State.orderRetire_cxl (s : State) (r : Nat) (j_ : Nat) : (State.orderRetire s r).cxl j_ = s.cxl j_ := by simp only [State.cxl_def, State.orderRetire_cxlPorts]
@[simp] theorem State.orderRetire_win (s : State) (r : Nat) (j_ : Nat) : (State.orderRetire s r).win j_ = s.win j_ := by simp only [State.win_def, State.orderRetire_windows]
@[simp] theorem State.orderRetire_page (s : State) (r : Nat) (j_ : Nat) : (State.orderRetire s r).page j_ = s.page j_ := by simp only [State.page_def, State.orderRetire_pages]
@[simp] theorem State.orderRetire_trow (s : State) (r : Nat) (c_ n_ : Nat) : (State.orderRetire s r).trow c_ n_ = s.trow c_ n_ := by simp only [State.trow_def, State.orderRetire_tarn]
@[simp] theorem State.orderRetire_now (s : State) (r : Nat) : (State.orderRetire s r).now = s.now := by simp only [State.now_def, State.orderRetire_tb]
theorem State.resetPart_frame (s : State) (p : Nat) :
    (State.resetPart s p).pending = s.pending ∧ (State.resetPart s p).fresh = s.fresh ∧ (State.resetPart s p).order = s.order ∧ (State.resetPart s p).variant36 = s.variant36 ∧ (State.resetPart s p).enabled = s.enabled ∧ (State.resetPart s p).tarn = s.tarn ∧ (State.resetPart s p).pages = s.pages ∧ (State.resetPart s p).zeroRuns = s.zeroRuns ∧ (State.resetPart s p).regions = s.regions ∧ (State.resetPart s p).domains = s.domains ∧ (State.resetPart s p).xings = s.xings ∧ (State.resetPart s p).tb = s.tb ∧ (State.resetPart s p).nextPkt = s.nextPkt ∧ (State.resetPart s p).routes = s.routes ∧ (State.resetPart s p).perimRoutes = s.perimRoutes ∧ (State.resetPart s p).fabLinks = s.fabLinks ∧ (State.resetPart s p).links = s.links ∧ (State.resetPart s p).ports = s.ports ∧ (State.resetPart s p).hbms = s.hbms ∧ (State.resetPart s p).cxlPorts = s.cxlPorts ∧ (State.resetPart s p).windows = s.windows ∧ (State.resetPart s p).bpm = s.bpm ∧ (State.resetPart s p).cool = s.cool ∧ (State.resetPart s p).sec = s.sec ∧ (State.resetPart s p).boot = s.boot ∧ (State.resetPart s p).regs = s.regs ∧ (State.resetPart s p).sels = s.sels ∧ (State.resetPart s p).halves = s.halves := by
  generalize h_ : State.resetPart s p = t_
  unfold State.resetPart at h_
  (try dsimp only at h_)
  (repeat' split at h_) <;> subst h_ <;> simp
@[simp] theorem State.resetPart_pending (s : State) (p : Nat) : (State.resetPart s p).pending = s.pending := (State.resetPart_frame s p).1
@[simp] theorem State.resetPart_fresh (s : State) (p : Nat) : (State.resetPart s p).fresh = s.fresh := (State.resetPart_frame s p).2.1
@[simp] theorem State.resetPart_order (s : State) (p : Nat) : (State.resetPart s p).order = s.order := (State.resetPart_frame s p).2.2.1
@[simp] theorem State.resetPart_variant36 (s : State) (p : Nat) : (State.resetPart s p).variant36 = s.variant36 := (State.resetPart_frame s p).2.2.2.1
@[simp] theorem State.resetPart_enabled (s : State) (p : Nat) : (State.resetPart s p).enabled = s.enabled := (State.resetPart_frame s p).2.2.2.2.1
@[simp] theorem State.resetPart_tarn (s : State) (p : Nat) : (State.resetPart s p).tarn = s.tarn := (State.resetPart_frame s p).2.2.2.2.2.1
@[simp] theorem State.resetPart_pages (s : State) (p : Nat) : (State.resetPart s p).pages = s.pages := (State.resetPart_frame s p).2.2.2.2.2.2.1
@[simp] theorem State.resetPart_zeroRuns (s : State) (p : Nat) : (State.resetPart s p).zeroRuns = s.zeroRuns := (State.resetPart_frame s p).2.2.2.2.2.2.2.1
@[simp] theorem State.resetPart_regions (s : State) (p : Nat) : (State.resetPart s p).regions = s.regions := (State.resetPart_frame s p).2.2.2.2.2.2.2.2.1
@[simp] theorem State.resetPart_domains (s : State) (p : Nat) : (State.resetPart s p).domains = s.domains := (State.resetPart_frame s p).2.2.2.2.2.2.2.2.2.1
@[simp] theorem State.resetPart_xings (s : State) (p : Nat) : (State.resetPart s p).xings = s.xings := (State.resetPart_frame s p).2.2.2.2.2.2.2.2.2.2.1
@[simp] theorem State.resetPart_tb (s : State) (p : Nat) : (State.resetPart s p).tb = s.tb := (State.resetPart_frame s p).2.2.2.2.2.2.2.2.2.2.2.1
@[simp] theorem State.resetPart_nextPkt (s : State) (p : Nat) : (State.resetPart s p).nextPkt = s.nextPkt := (State.resetPart_frame s p).2.2.2.2.2.2.2.2.2.2.2.2.1
@[simp] theorem State.resetPart_routes (s : State) (p : Nat) : (State.resetPart s p).routes = s.routes := (State.resetPart_frame s p).2.2.2.2.2.2.2.2.2.2.2.2.2.1
@[simp] theorem State.resetPart_perimRoutes (s : State) (p : Nat) : (State.resetPart s p).perimRoutes = s.perimRoutes := (State.resetPart_frame s p).2.2.2.2.2.2.2.2.2.2.2.2.2.2.1
@[simp] theorem State.resetPart_fabLinks (s : State) (p : Nat) : (State.resetPart s p).fabLinks = s.fabLinks := (State.resetPart_frame s p).2.2.2.2.2.2.2.2.2.2.2.2.2.2.2.1
@[simp] theorem State.resetPart_links (s : State) (p : Nat) : (State.resetPart s p).links = s.links := (State.resetPart_frame s p).2.2.2.2.2.2.2.2.2.2.2.2.2.2.2.2.1
@[simp] theorem State.resetPart_ports (s : State) (p : Nat) : (State.resetPart s p).ports = s.ports := (State.resetPart_frame s p).2.2.2.2.2.2.2.2.2.2.2.2.2.2.2.2.2.1
@[simp] theorem State.resetPart_hbms (s : State) (p : Nat) : (State.resetPart s p).hbms = s.hbms := (State.resetPart_frame s p).2.2.2.2.2.2.2.2.2.2.2.2.2.2.2.2.2.2.1
@[simp] theorem State.resetPart_cxlPorts (s : State) (p : Nat) : (State.resetPart s p).cxlPorts = s.cxlPorts := (State.resetPart_frame s p).2.2.2.2.2.2.2.2.2.2.2.2.2.2.2.2.2.2.2.1
@[simp] theorem State.resetPart_windows (s : State) (p : Nat) : (State.resetPart s p).windows = s.windows := (State.resetPart_frame s p).2.2.2.2.2.2.2.2.2.2.2.2.2.2.2.2.2.2.2.2.1
@[simp] theorem State.resetPart_bpm (s : State) (p : Nat) : (State.resetPart s p).bpm = s.bpm := (State.resetPart_frame s p).2.2.2.2.2.2.2.2.2.2.2.2.2.2.2.2.2.2.2.2.2.1
@[simp] theorem State.resetPart_cool (s : State) (p : Nat) : (State.resetPart s p).cool = s.cool := (State.resetPart_frame s p).2.2.2.2.2.2.2.2.2.2.2.2.2.2.2.2.2.2.2.2.2.2.1
@[simp] theorem State.resetPart_sec (s : State) (p : Nat) : (State.resetPart s p).sec = s.sec := (State.resetPart_frame s p).2.2.2.2.2.2.2.2.2.2.2.2.2.2.2.2.2.2.2.2.2.2.2.1
@[simp] theorem State.resetPart_boot (s : State) (p : Nat) : (State.resetPart s p).boot = s.boot := (State.resetPart_frame s p).2.2.2.2.2.2.2.2.2.2.2.2.2.2.2.2.2.2.2.2.2.2.2.2.1
@[simp] theorem State.resetPart_regs (s : State) (p : Nat) : (State.resetPart s p).regs = s.regs := (State.resetPart_frame s p).2.2.2.2.2.2.2.2.2.2.2.2.2.2.2.2.2.2.2.2.2.2.2.2.2.1
@[simp] theorem State.resetPart_sels (s : State) (p : Nat) : (State.resetPart s p).sels = s.sels := (State.resetPart_frame s p).2.2.2.2.2.2.2.2.2.2.2.2.2.2.2.2.2.2.2.2.2.2.2.2.2.2.1
@[simp] theorem State.resetPart_halves (s : State) (p : Nat) : (State.resetPart s p).halves = s.halves := (State.resetPart_frame s p).2.2.2.2.2.2.2.2.2.2.2.2.2.2.2.2.2.2.2.2.2.2.2.2.2.2.2
@[simp] theorem State.resetPart_link (s : State) (p : Nat) (j_ : Nat) : (State.resetPart s p).link j_ = s.link j_ := by simp only [State.link_def, State.resetPart_links]
@[simp] theorem State.resetPart_port (s : State) (p : Nat) (j_ : Nat) : (State.resetPart s p).port j_ = s.port j_ := by simp only [State.port_def, State.resetPart_ports]
@[simp] theorem State.resetPart_region (s : State) (p : Nat) (j_ : Nat) : (State.resetPart s p).region j_ = s.region j_ := by simp only [State.region_def, State.resetPart_regions]
@[simp] theorem State.resetPart_domain (s : State) (p : Nat) (j_ : Nat) : (State.resetPart s p).domain j_ = s.domain j_ := by simp only [State.domain_def, State.resetPart_domains]
@[simp] theorem State.resetPart_xing (s : State) (p : Nat) (j_ : Nat) : (State.resetPart s p).xing j_ = s.xing j_ := by simp only [State.xing_def, State.resetPart_xings]
@[simp] theorem State.resetPart_hbm (s : State) (p : Nat) (j_ : Nat) : (State.resetPart s p).hbm j_ = s.hbm j_ := by simp only [State.hbm_def, State.resetPart_hbms]
@[simp] theorem State.resetPart_cxl (s : State) (p : Nat) (j_ : Nat) : (State.resetPart s p).cxl j_ = s.cxl j_ := by simp only [State.cxl_def, State.resetPart_cxlPorts]
@[simp] theorem State.resetPart_win (s : State) (p : Nat) (j_ : Nat) : (State.resetPart s p).win j_ = s.win j_ := by simp only [State.win_def, State.resetPart_windows]
@[simp] theorem State.resetPart_page (s : State) (p : Nat) (j_ : Nat) : (State.resetPart s p).page j_ = s.page j_ := by simp only [State.page_def, State.resetPart_pages]
@[simp] theorem State.resetPart_trow (s : State) (p : Nat) (c_ n_ : Nat) : (State.resetPart s p).trow c_ n_ = s.trow c_ n_ := by simp only [State.trow_def, State.resetPart_tarn]
@[simp] theorem State.resetPart_now (s : State) (p : Nat) : (State.resetPart s p).now = s.now := by simp only [State.now_def, State.resetPart_tb]
theorem State.partFatal_frame (s : State) (p code : Nat) (src : Source) :
    (State.partFatal s p code src).pending = s.pending ∧ (State.partFatal s p code src).fresh = s.fresh ∧ (State.partFatal s p code src).order = s.order ∧ (State.partFatal s p code src).variant36 = s.variant36 ∧ (State.partFatal s p code src).enabled = s.enabled ∧ (State.partFatal s p code src).tarn = s.tarn ∧ (State.partFatal s p code src).pages = s.pages ∧ (State.partFatal s p code src).zeroRuns = s.zeroRuns ∧ (State.partFatal s p code src).regions = s.regions ∧ (State.partFatal s p code src).domains = s.domains ∧ (State.partFatal s p code src).xings = s.xings ∧ (State.partFatal s p code src).tb = s.tb ∧ (State.partFatal s p code src).nextPkt = s.nextPkt ∧ (State.partFatal s p code src).routes = s.routes ∧ (State.partFatal s p code src).perimRoutes = s.perimRoutes ∧ (State.partFatal s p code src).fabLinks = s.fabLinks ∧ (State.partFatal s p code src).links = s.links ∧ (State.partFatal s p code src).ports = s.ports ∧ (State.partFatal s p code src).hbms = s.hbms ∧ (State.partFatal s p code src).cxlPorts = s.cxlPorts ∧ (State.partFatal s p code src).windows = s.windows ∧ (State.partFatal s p code src).bpm = s.bpm ∧ (State.partFatal s p code src).cool = s.cool ∧ (State.partFatal s p code src).sec = s.sec ∧ (State.partFatal s p code src).boot = s.boot ∧ (State.partFatal s p code src).regs = s.regs ∧ (State.partFatal s p code src).sels = s.sels ∧ (State.partFatal s p code src).halves = s.halves := by
  generalize h_ : State.partFatal s p code src = t_
  unfold State.partFatal at h_
  (try dsimp only at h_)
  (repeat' split at h_) <;> subst h_ <;> simp
@[simp] theorem State.partFatal_pending (s : State) (p code : Nat) (src : Source) : (State.partFatal s p code src).pending = s.pending := (State.partFatal_frame s p code src).1
@[simp] theorem State.partFatal_fresh (s : State) (p code : Nat) (src : Source) : (State.partFatal s p code src).fresh = s.fresh := (State.partFatal_frame s p code src).2.1
@[simp] theorem State.partFatal_order (s : State) (p code : Nat) (src : Source) : (State.partFatal s p code src).order = s.order := (State.partFatal_frame s p code src).2.2.1
@[simp] theorem State.partFatal_variant36 (s : State) (p code : Nat) (src : Source) : (State.partFatal s p code src).variant36 = s.variant36 := (State.partFatal_frame s p code src).2.2.2.1
@[simp] theorem State.partFatal_enabled (s : State) (p code : Nat) (src : Source) : (State.partFatal s p code src).enabled = s.enabled := (State.partFatal_frame s p code src).2.2.2.2.1
@[simp] theorem State.partFatal_tarn (s : State) (p code : Nat) (src : Source) : (State.partFatal s p code src).tarn = s.tarn := (State.partFatal_frame s p code src).2.2.2.2.2.1
@[simp] theorem State.partFatal_pages (s : State) (p code : Nat) (src : Source) : (State.partFatal s p code src).pages = s.pages := (State.partFatal_frame s p code src).2.2.2.2.2.2.1
@[simp] theorem State.partFatal_zeroRuns (s : State) (p code : Nat) (src : Source) : (State.partFatal s p code src).zeroRuns = s.zeroRuns := (State.partFatal_frame s p code src).2.2.2.2.2.2.2.1
@[simp] theorem State.partFatal_regions (s : State) (p code : Nat) (src : Source) : (State.partFatal s p code src).regions = s.regions := (State.partFatal_frame s p code src).2.2.2.2.2.2.2.2.1
@[simp] theorem State.partFatal_domains (s : State) (p code : Nat) (src : Source) : (State.partFatal s p code src).domains = s.domains := (State.partFatal_frame s p code src).2.2.2.2.2.2.2.2.2.1
@[simp] theorem State.partFatal_xings (s : State) (p code : Nat) (src : Source) : (State.partFatal s p code src).xings = s.xings := (State.partFatal_frame s p code src).2.2.2.2.2.2.2.2.2.2.1
@[simp] theorem State.partFatal_tb (s : State) (p code : Nat) (src : Source) : (State.partFatal s p code src).tb = s.tb := (State.partFatal_frame s p code src).2.2.2.2.2.2.2.2.2.2.2.1
@[simp] theorem State.partFatal_nextPkt (s : State) (p code : Nat) (src : Source) : (State.partFatal s p code src).nextPkt = s.nextPkt := (State.partFatal_frame s p code src).2.2.2.2.2.2.2.2.2.2.2.2.1
@[simp] theorem State.partFatal_routes (s : State) (p code : Nat) (src : Source) : (State.partFatal s p code src).routes = s.routes := (State.partFatal_frame s p code src).2.2.2.2.2.2.2.2.2.2.2.2.2.1
@[simp] theorem State.partFatal_perimRoutes (s : State) (p code : Nat) (src : Source) : (State.partFatal s p code src).perimRoutes = s.perimRoutes := (State.partFatal_frame s p code src).2.2.2.2.2.2.2.2.2.2.2.2.2.2.1
@[simp] theorem State.partFatal_fabLinks (s : State) (p code : Nat) (src : Source) : (State.partFatal s p code src).fabLinks = s.fabLinks := (State.partFatal_frame s p code src).2.2.2.2.2.2.2.2.2.2.2.2.2.2.2.1
@[simp] theorem State.partFatal_links (s : State) (p code : Nat) (src : Source) : (State.partFatal s p code src).links = s.links := (State.partFatal_frame s p code src).2.2.2.2.2.2.2.2.2.2.2.2.2.2.2.2.1
@[simp] theorem State.partFatal_ports (s : State) (p code : Nat) (src : Source) : (State.partFatal s p code src).ports = s.ports := (State.partFatal_frame s p code src).2.2.2.2.2.2.2.2.2.2.2.2.2.2.2.2.2.1
@[simp] theorem State.partFatal_hbms (s : State) (p code : Nat) (src : Source) : (State.partFatal s p code src).hbms = s.hbms := (State.partFatal_frame s p code src).2.2.2.2.2.2.2.2.2.2.2.2.2.2.2.2.2.2.1
@[simp] theorem State.partFatal_cxlPorts (s : State) (p code : Nat) (src : Source) : (State.partFatal s p code src).cxlPorts = s.cxlPorts := (State.partFatal_frame s p code src).2.2.2.2.2.2.2.2.2.2.2.2.2.2.2.2.2.2.2.1
@[simp] theorem State.partFatal_windows (s : State) (p code : Nat) (src : Source) : (State.partFatal s p code src).windows = s.windows := (State.partFatal_frame s p code src).2.2.2.2.2.2.2.2.2.2.2.2.2.2.2.2.2.2.2.2.1
@[simp] theorem State.partFatal_bpm (s : State) (p code : Nat) (src : Source) : (State.partFatal s p code src).bpm = s.bpm := (State.partFatal_frame s p code src).2.2.2.2.2.2.2.2.2.2.2.2.2.2.2.2.2.2.2.2.2.1
@[simp] theorem State.partFatal_cool (s : State) (p code : Nat) (src : Source) : (State.partFatal s p code src).cool = s.cool := (State.partFatal_frame s p code src).2.2.2.2.2.2.2.2.2.2.2.2.2.2.2.2.2.2.2.2.2.2.1
@[simp] theorem State.partFatal_sec (s : State) (p code : Nat) (src : Source) : (State.partFatal s p code src).sec = s.sec := (State.partFatal_frame s p code src).2.2.2.2.2.2.2.2.2.2.2.2.2.2.2.2.2.2.2.2.2.2.2.1
@[simp] theorem State.partFatal_boot (s : State) (p code : Nat) (src : Source) : (State.partFatal s p code src).boot = s.boot := (State.partFatal_frame s p code src).2.2.2.2.2.2.2.2.2.2.2.2.2.2.2.2.2.2.2.2.2.2.2.2.1
@[simp] theorem State.partFatal_regs (s : State) (p code : Nat) (src : Source) : (State.partFatal s p code src).regs = s.regs := (State.partFatal_frame s p code src).2.2.2.2.2.2.2.2.2.2.2.2.2.2.2.2.2.2.2.2.2.2.2.2.2.1
@[simp] theorem State.partFatal_sels (s : State) (p code : Nat) (src : Source) : (State.partFatal s p code src).sels = s.sels := (State.partFatal_frame s p code src).2.2.2.2.2.2.2.2.2.2.2.2.2.2.2.2.2.2.2.2.2.2.2.2.2.2.1
@[simp] theorem State.partFatal_halves (s : State) (p code : Nat) (src : Source) : (State.partFatal s p code src).halves = s.halves := (State.partFatal_frame s p code src).2.2.2.2.2.2.2.2.2.2.2.2.2.2.2.2.2.2.2.2.2.2.2.2.2.2.2
@[simp] theorem State.partFatal_link (s : State) (p code : Nat) (src : Source) (j_ : Nat) : (State.partFatal s p code src).link j_ = s.link j_ := by simp only [State.link_def, State.partFatal_links]
@[simp] theorem State.partFatal_port (s : State) (p code : Nat) (src : Source) (j_ : Nat) : (State.partFatal s p code src).port j_ = s.port j_ := by simp only [State.port_def, State.partFatal_ports]
@[simp] theorem State.partFatal_region (s : State) (p code : Nat) (src : Source) (j_ : Nat) : (State.partFatal s p code src).region j_ = s.region j_ := by simp only [State.region_def, State.partFatal_regions]
@[simp] theorem State.partFatal_domain (s : State) (p code : Nat) (src : Source) (j_ : Nat) : (State.partFatal s p code src).domain j_ = s.domain j_ := by simp only [State.domain_def, State.partFatal_domains]
@[simp] theorem State.partFatal_xing (s : State) (p code : Nat) (src : Source) (j_ : Nat) : (State.partFatal s p code src).xing j_ = s.xing j_ := by simp only [State.xing_def, State.partFatal_xings]
@[simp] theorem State.partFatal_hbm (s : State) (p code : Nat) (src : Source) (j_ : Nat) : (State.partFatal s p code src).hbm j_ = s.hbm j_ := by simp only [State.hbm_def, State.partFatal_hbms]
@[simp] theorem State.partFatal_cxl (s : State) (p code : Nat) (src : Source) (j_ : Nat) : (State.partFatal s p code src).cxl j_ = s.cxl j_ := by simp only [State.cxl_def, State.partFatal_cxlPorts]
@[simp] theorem State.partFatal_win (s : State) (p code : Nat) (src : Source) (j_ : Nat) : (State.partFatal s p code src).win j_ = s.win j_ := by simp only [State.win_def, State.partFatal_windows]
@[simp] theorem State.partFatal_page (s : State) (p code : Nat) (src : Source) (j_ : Nat) : (State.partFatal s p code src).page j_ = s.page j_ := by simp only [State.page_def, State.partFatal_pages]
@[simp] theorem State.partFatal_trow (s : State) (p code : Nat) (src : Source) (c_ n_ : Nat) : (State.partFatal s p code src).trow c_ n_ = s.trow c_ n_ := by simp only [State.trow_def, State.partFatal_tarn]
@[simp] theorem State.partFatal_now (s : State) (p code : Nat) (src : Source) : (State.partFatal s p code src).now = s.now := by simp only [State.now_def, State.partFatal_tb]
theorem State.deviceFatal_frame (s : State) (code : Nat) (src : Source) :
    (State.deviceFatal s code src).pending = s.pending ∧ (State.deviceFatal s code src).fresh = s.fresh ∧ (State.deviceFatal s code src).order = s.order ∧ (State.deviceFatal s code src).variant36 = s.variant36 ∧ (State.deviceFatal s code src).enabled = s.enabled ∧ (State.deviceFatal s code src).clusters = s.clusters ∧ (State.deviceFatal s code src).tarn = s.tarn ∧ (State.deviceFatal s code src).mem = s.mem ∧ (State.deviceFatal s code src).poison = s.poison ∧ (State.deviceFatal s code src).pages = s.pages ∧ (State.deviceFatal s code src).zeroRuns = s.zeroRuns ∧ (State.deviceFatal s code src).domains = s.domains ∧ (State.deviceFatal s code src).xings = s.xings ∧ (State.deviceFatal s code src).tb = s.tb ∧ (State.deviceFatal s code src).net = s.net ∧ (State.deviceFatal s code src).nextPkt = s.nextPkt ∧ (State.deviceFatal s code src).routes = s.routes ∧ (State.deviceFatal s code src).perimRoutes = s.perimRoutes ∧ (State.deviceFatal s code src).fabLinks = s.fabLinks ∧ (State.deviceFatal s code src).discards = s.discards ∧ (State.deviceFatal s code src).ctxs = s.ctxs ∧ (State.deviceFatal s code src).qps = s.qps ∧ (State.deviceFatal s code src).fns = s.fns ∧ (State.deviceFatal s code src).ports = s.ports ∧ (State.deviceFatal s code src).hbms = s.hbms ∧ (State.deviceFatal s code src).cxlPorts = s.cxlPorts ∧ (State.deviceFatal s code src).windows = s.windows ∧ (State.deviceFatal s code src).dir = s.dir ∧ (State.deviceFatal s code src).bpm = s.bpm ∧ (State.deviceFatal s code src).cool = s.cool ∧ (State.deviceFatal s code src).sec = s.sec ∧ (State.deviceFatal s code src).boot = s.boot ∧ (State.deviceFatal s code src).regs = s.regs ∧ (State.deviceFatal s code src).sels = s.sels ∧ (State.deviceFatal s code src).halves = s.halves := by
  generalize h_ : State.deviceFatal s code src = t_
  unfold State.deviceFatal at h_
  (try dsimp only at h_)
  (repeat' split at h_) <;> subst h_ <;> simp
@[simp] theorem State.deviceFatal_pending (s : State) (code : Nat) (src : Source) : (State.deviceFatal s code src).pending = s.pending := (State.deviceFatal_frame s code src).1
@[simp] theorem State.deviceFatal_fresh (s : State) (code : Nat) (src : Source) : (State.deviceFatal s code src).fresh = s.fresh := (State.deviceFatal_frame s code src).2.1
@[simp] theorem State.deviceFatal_order (s : State) (code : Nat) (src : Source) : (State.deviceFatal s code src).order = s.order := (State.deviceFatal_frame s code src).2.2.1
@[simp] theorem State.deviceFatal_variant36 (s : State) (code : Nat) (src : Source) : (State.deviceFatal s code src).variant36 = s.variant36 := (State.deviceFatal_frame s code src).2.2.2.1
@[simp] theorem State.deviceFatal_enabled (s : State) (code : Nat) (src : Source) : (State.deviceFatal s code src).enabled = s.enabled := (State.deviceFatal_frame s code src).2.2.2.2.1
@[simp] theorem State.deviceFatal_clusters (s : State) (code : Nat) (src : Source) : (State.deviceFatal s code src).clusters = s.clusters := (State.deviceFatal_frame s code src).2.2.2.2.2.1
@[simp] theorem State.deviceFatal_tarn (s : State) (code : Nat) (src : Source) : (State.deviceFatal s code src).tarn = s.tarn := (State.deviceFatal_frame s code src).2.2.2.2.2.2.1
@[simp] theorem State.deviceFatal_mem (s : State) (code : Nat) (src : Source) : (State.deviceFatal s code src).mem = s.mem := (State.deviceFatal_frame s code src).2.2.2.2.2.2.2.1
@[simp] theorem State.deviceFatal_poison (s : State) (code : Nat) (src : Source) : (State.deviceFatal s code src).poison = s.poison := (State.deviceFatal_frame s code src).2.2.2.2.2.2.2.2.1
@[simp] theorem State.deviceFatal_pages (s : State) (code : Nat) (src : Source) : (State.deviceFatal s code src).pages = s.pages := (State.deviceFatal_frame s code src).2.2.2.2.2.2.2.2.2.1
@[simp] theorem State.deviceFatal_zeroRuns (s : State) (code : Nat) (src : Source) : (State.deviceFatal s code src).zeroRuns = s.zeroRuns := (State.deviceFatal_frame s code src).2.2.2.2.2.2.2.2.2.2.1
@[simp] theorem State.deviceFatal_domains (s : State) (code : Nat) (src : Source) : (State.deviceFatal s code src).domains = s.domains := (State.deviceFatal_frame s code src).2.2.2.2.2.2.2.2.2.2.2.1
@[simp] theorem State.deviceFatal_xings (s : State) (code : Nat) (src : Source) : (State.deviceFatal s code src).xings = s.xings := (State.deviceFatal_frame s code src).2.2.2.2.2.2.2.2.2.2.2.2.1
@[simp] theorem State.deviceFatal_tb (s : State) (code : Nat) (src : Source) : (State.deviceFatal s code src).tb = s.tb := (State.deviceFatal_frame s code src).2.2.2.2.2.2.2.2.2.2.2.2.2.1
@[simp] theorem State.deviceFatal_net (s : State) (code : Nat) (src : Source) : (State.deviceFatal s code src).net = s.net := (State.deviceFatal_frame s code src).2.2.2.2.2.2.2.2.2.2.2.2.2.2.1
@[simp] theorem State.deviceFatal_nextPkt (s : State) (code : Nat) (src : Source) : (State.deviceFatal s code src).nextPkt = s.nextPkt := (State.deviceFatal_frame s code src).2.2.2.2.2.2.2.2.2.2.2.2.2.2.2.1
@[simp] theorem State.deviceFatal_routes (s : State) (code : Nat) (src : Source) : (State.deviceFatal s code src).routes = s.routes := (State.deviceFatal_frame s code src).2.2.2.2.2.2.2.2.2.2.2.2.2.2.2.2.1
@[simp] theorem State.deviceFatal_perimRoutes (s : State) (code : Nat) (src : Source) : (State.deviceFatal s code src).perimRoutes = s.perimRoutes := (State.deviceFatal_frame s code src).2.2.2.2.2.2.2.2.2.2.2.2.2.2.2.2.2.1
@[simp] theorem State.deviceFatal_fabLinks (s : State) (code : Nat) (src : Source) : (State.deviceFatal s code src).fabLinks = s.fabLinks := (State.deviceFatal_frame s code src).2.2.2.2.2.2.2.2.2.2.2.2.2.2.2.2.2.2.1
@[simp] theorem State.deviceFatal_discards (s : State) (code : Nat) (src : Source) : (State.deviceFatal s code src).discards = s.discards := (State.deviceFatal_frame s code src).2.2.2.2.2.2.2.2.2.2.2.2.2.2.2.2.2.2.2.1
@[simp] theorem State.deviceFatal_ctxs (s : State) (code : Nat) (src : Source) : (State.deviceFatal s code src).ctxs = s.ctxs := (State.deviceFatal_frame s code src).2.2.2.2.2.2.2.2.2.2.2.2.2.2.2.2.2.2.2.2.1
@[simp] theorem State.deviceFatal_qps (s : State) (code : Nat) (src : Source) : (State.deviceFatal s code src).qps = s.qps := (State.deviceFatal_frame s code src).2.2.2.2.2.2.2.2.2.2.2.2.2.2.2.2.2.2.2.2.2.1
@[simp] theorem State.deviceFatal_fns (s : State) (code : Nat) (src : Source) : (State.deviceFatal s code src).fns = s.fns := (State.deviceFatal_frame s code src).2.2.2.2.2.2.2.2.2.2.2.2.2.2.2.2.2.2.2.2.2.2.1
@[simp] theorem State.deviceFatal_ports (s : State) (code : Nat) (src : Source) : (State.deviceFatal s code src).ports = s.ports := (State.deviceFatal_frame s code src).2.2.2.2.2.2.2.2.2.2.2.2.2.2.2.2.2.2.2.2.2.2.2.1
@[simp] theorem State.deviceFatal_hbms (s : State) (code : Nat) (src : Source) : (State.deviceFatal s code src).hbms = s.hbms := (State.deviceFatal_frame s code src).2.2.2.2.2.2.2.2.2.2.2.2.2.2.2.2.2.2.2.2.2.2.2.2.1
@[simp] theorem State.deviceFatal_cxlPorts (s : State) (code : Nat) (src : Source) : (State.deviceFatal s code src).cxlPorts = s.cxlPorts := (State.deviceFatal_frame s code src).2.2.2.2.2.2.2.2.2.2.2.2.2.2.2.2.2.2.2.2.2.2.2.2.2.1
@[simp] theorem State.deviceFatal_windows (s : State) (code : Nat) (src : Source) : (State.deviceFatal s code src).windows = s.windows := (State.deviceFatal_frame s code src).2.2.2.2.2.2.2.2.2.2.2.2.2.2.2.2.2.2.2.2.2.2.2.2.2.2.1
@[simp] theorem State.deviceFatal_dir (s : State) (code : Nat) (src : Source) : (State.deviceFatal s code src).dir = s.dir := (State.deviceFatal_frame s code src).2.2.2.2.2.2.2.2.2.2.2.2.2.2.2.2.2.2.2.2.2.2.2.2.2.2.2.1
@[simp] theorem State.deviceFatal_bpm (s : State) (code : Nat) (src : Source) : (State.deviceFatal s code src).bpm = s.bpm := (State.deviceFatal_frame s code src).2.2.2.2.2.2.2.2.2.2.2.2.2.2.2.2.2.2.2.2.2.2.2.2.2.2.2.2.1
@[simp] theorem State.deviceFatal_cool (s : State) (code : Nat) (src : Source) : (State.deviceFatal s code src).cool = s.cool := (State.deviceFatal_frame s code src).2.2.2.2.2.2.2.2.2.2.2.2.2.2.2.2.2.2.2.2.2.2.2.2.2.2.2.2.2.1
@[simp] theorem State.deviceFatal_sec (s : State) (code : Nat) (src : Source) : (State.deviceFatal s code src).sec = s.sec := (State.deviceFatal_frame s code src).2.2.2.2.2.2.2.2.2.2.2.2.2.2.2.2.2.2.2.2.2.2.2.2.2.2.2.2.2.2.1
@[simp] theorem State.deviceFatal_boot (s : State) (code : Nat) (src : Source) : (State.deviceFatal s code src).boot = s.boot := (State.deviceFatal_frame s code src).2.2.2.2.2.2.2.2.2.2.2.2.2.2.2.2.2.2.2.2.2.2.2.2.2.2.2.2.2.2.2.1
@[simp] theorem State.deviceFatal_regs (s : State) (code : Nat) (src : Source) : (State.deviceFatal s code src).regs = s.regs := (State.deviceFatal_frame s code src).2.2.2.2.2.2.2.2.2.2.2.2.2.2.2.2.2.2.2.2.2.2.2.2.2.2.2.2.2.2.2.2.1
@[simp] theorem State.deviceFatal_sels (s : State) (code : Nat) (src : Source) : (State.deviceFatal s code src).sels = s.sels := (State.deviceFatal_frame s code src).2.2.2.2.2.2.2.2.2.2.2.2.2.2.2.2.2.2.2.2.2.2.2.2.2.2.2.2.2.2.2.2.2.1
@[simp] theorem State.deviceFatal_halves (s : State) (code : Nat) (src : Source) : (State.deviceFatal s code src).halves = s.halves := (State.deviceFatal_frame s code src).2.2.2.2.2.2.2.2.2.2.2.2.2.2.2.2.2.2.2.2.2.2.2.2.2.2.2.2.2.2.2.2.2.2
@[simp] theorem State.deviceFatal_cl (s : State) (code : Nat) (src : Source) (j_ : Nat) : (State.deviceFatal s code src).cl j_ = s.cl j_ := by simp only [State.cl_def, State.deviceFatal_clusters]
@[simp] theorem State.deviceFatal_ctx (s : State) (code : Nat) (src : Source) (j_ : Nat) : (State.deviceFatal s code src).ctx j_ = s.ctx j_ := by simp only [State.ctx_def, State.deviceFatal_ctxs]
@[simp] theorem State.deviceFatal_qp (s : State) (code : Nat) (src : Source) (j_ : Nat) : (State.deviceFatal s code src).qp j_ = s.qp j_ := by simp only [State.qp_def, State.deviceFatal_qps]
@[simp] theorem State.deviceFatal_fn (s : State) (code : Nat) (src : Source) (j_ : Nat) : (State.deviceFatal s code src).fn j_ = s.fn j_ := by simp only [State.fn_def, State.deviceFatal_fns]
@[simp] theorem State.deviceFatal_port (s : State) (code : Nat) (src : Source) (j_ : Nat) : (State.deviceFatal s code src).port j_ = s.port j_ := by simp only [State.port_def, State.deviceFatal_ports]
@[simp] theorem State.deviceFatal_domain (s : State) (code : Nat) (src : Source) (j_ : Nat) : (State.deviceFatal s code src).domain j_ = s.domain j_ := by simp only [State.domain_def, State.deviceFatal_domains]
@[simp] theorem State.deviceFatal_xing (s : State) (code : Nat) (src : Source) (j_ : Nat) : (State.deviceFatal s code src).xing j_ = s.xing j_ := by simp only [State.xing_def, State.deviceFatal_xings]
@[simp] theorem State.deviceFatal_hbm (s : State) (code : Nat) (src : Source) (j_ : Nat) : (State.deviceFatal s code src).hbm j_ = s.hbm j_ := by simp only [State.hbm_def, State.deviceFatal_hbms]
@[simp] theorem State.deviceFatal_cxl (s : State) (code : Nat) (src : Source) (j_ : Nat) : (State.deviceFatal s code src).cxl j_ = s.cxl j_ := by simp only [State.cxl_def, State.deviceFatal_cxlPorts]
@[simp] theorem State.deviceFatal_win (s : State) (code : Nat) (src : Source) (j_ : Nat) : (State.deviceFatal s code src).win j_ = s.win j_ := by simp only [State.win_def, State.deviceFatal_windows]
@[simp] theorem State.deviceFatal_dirLine (s : State) (code : Nat) (src : Source) (j_ : Nat) : (State.deviceFatal s code src).dirLine j_ = s.dirLine j_ := by simp only [State.dirLine_def, State.deviceFatal_dir]
@[simp] theorem State.deviceFatal_page (s : State) (code : Nat) (src : Source) (j_ : Nat) : (State.deviceFatal s code src).page j_ = s.page j_ := by simp only [State.page_def, State.deviceFatal_pages]
@[simp] theorem State.deviceFatal_trow (s : State) (code : Nat) (src : Source) (c_ n_ : Nat) : (State.deviceFatal s code src).trow c_ n_ = s.trow c_ n_ := by simp only [State.trow_def, State.deviceFatal_tarn]
@[simp] theorem State.deviceFatal_rawByte (s : State) (code : Nat) (src : Source) (a_ : Nat) : (State.deviceFatal s code src).rawByte a_ = s.rawByte a_ := by simp only [State.rawByte_def, State.deviceFatal_mem]
@[simp] theorem State.deviceFatal_now (s : State) (code : Nat) (src : Source) : (State.deviceFatal s code src).now = s.now := by simp only [State.now_def, State.deviceFatal_tb]
theorem State.raise_frame (s : State) (code : Nat) (src : Source) :
    (State.raise s code src).pending = s.pending ∧ (State.raise s code src).fresh = s.fresh ∧ (State.raise s code src).order = s.order ∧ (State.raise s code src).variant36 = s.variant36 ∧ (State.raise s code src).enabled = s.enabled ∧ (State.raise s code src).tarn = s.tarn ∧ (State.raise s code src).pages = s.pages ∧ (State.raise s code src).zeroRuns = s.zeroRuns ∧ (State.raise s code src).domains = s.domains ∧ (State.raise s code src).xings = s.xings ∧ (State.raise s code src).tb = s.tb ∧ (State.raise s code src).nextPkt = s.nextPkt ∧ (State.raise s code src).routes = s.routes ∧ (State.raise s code src).perimRoutes = s.perimRoutes ∧ (State.raise s code src).fabLinks = s.fabLinks ∧ (State.raise s code src).ports = s.ports ∧ (State.raise s code src).hbms = s.hbms ∧ (State.raise s code src).cxlPorts = s.cxlPorts ∧ (State.raise s code src).windows = s.windows ∧ (State.raise s code src).bpm = s.bpm ∧ (State.raise s code src).cool = s.cool ∧ (State.raise s code src).sec = s.sec ∧ (State.raise s code src).boot = s.boot ∧ (State.raise s code src).regs = s.regs ∧ (State.raise s code src).sels = s.sels ∧ (State.raise s code src).halves = s.halves := by
  generalize h_ : State.raise s code src = t_
  unfold State.raise at h_
  (try dsimp only at h_)
  (repeat' split at h_) <;> subst h_ <;> simp
@[simp] theorem State.raise_pending (s : State) (code : Nat) (src : Source) : (State.raise s code src).pending = s.pending := (State.raise_frame s code src).1
@[simp] theorem State.raise_fresh (s : State) (code : Nat) (src : Source) : (State.raise s code src).fresh = s.fresh := (State.raise_frame s code src).2.1
@[simp] theorem State.raise_order (s : State) (code : Nat) (src : Source) : (State.raise s code src).order = s.order := (State.raise_frame s code src).2.2.1
@[simp] theorem State.raise_variant36 (s : State) (code : Nat) (src : Source) : (State.raise s code src).variant36 = s.variant36 := (State.raise_frame s code src).2.2.2.1
@[simp] theorem State.raise_enabled (s : State) (code : Nat) (src : Source) : (State.raise s code src).enabled = s.enabled := (State.raise_frame s code src).2.2.2.2.1
@[simp] theorem State.raise_tarn (s : State) (code : Nat) (src : Source) : (State.raise s code src).tarn = s.tarn := (State.raise_frame s code src).2.2.2.2.2.1
@[simp] theorem State.raise_pages (s : State) (code : Nat) (src : Source) : (State.raise s code src).pages = s.pages := (State.raise_frame s code src).2.2.2.2.2.2.1
@[simp] theorem State.raise_zeroRuns (s : State) (code : Nat) (src : Source) : (State.raise s code src).zeroRuns = s.zeroRuns := (State.raise_frame s code src).2.2.2.2.2.2.2.1
@[simp] theorem State.raise_domains (s : State) (code : Nat) (src : Source) : (State.raise s code src).domains = s.domains := (State.raise_frame s code src).2.2.2.2.2.2.2.2.1
@[simp] theorem State.raise_xings (s : State) (code : Nat) (src : Source) : (State.raise s code src).xings = s.xings := (State.raise_frame s code src).2.2.2.2.2.2.2.2.2.1
@[simp] theorem State.raise_tb (s : State) (code : Nat) (src : Source) : (State.raise s code src).tb = s.tb := (State.raise_frame s code src).2.2.2.2.2.2.2.2.2.2.1
@[simp] theorem State.raise_nextPkt (s : State) (code : Nat) (src : Source) : (State.raise s code src).nextPkt = s.nextPkt := (State.raise_frame s code src).2.2.2.2.2.2.2.2.2.2.2.1
@[simp] theorem State.raise_routes (s : State) (code : Nat) (src : Source) : (State.raise s code src).routes = s.routes := (State.raise_frame s code src).2.2.2.2.2.2.2.2.2.2.2.2.1
@[simp] theorem State.raise_perimRoutes (s : State) (code : Nat) (src : Source) : (State.raise s code src).perimRoutes = s.perimRoutes := (State.raise_frame s code src).2.2.2.2.2.2.2.2.2.2.2.2.2.1
@[simp] theorem State.raise_fabLinks (s : State) (code : Nat) (src : Source) : (State.raise s code src).fabLinks = s.fabLinks := (State.raise_frame s code src).2.2.2.2.2.2.2.2.2.2.2.2.2.2.1
@[simp] theorem State.raise_ports (s : State) (code : Nat) (src : Source) : (State.raise s code src).ports = s.ports := (State.raise_frame s code src).2.2.2.2.2.2.2.2.2.2.2.2.2.2.2.1
@[simp] theorem State.raise_hbms (s : State) (code : Nat) (src : Source) : (State.raise s code src).hbms = s.hbms := (State.raise_frame s code src).2.2.2.2.2.2.2.2.2.2.2.2.2.2.2.2.1
@[simp] theorem State.raise_cxlPorts (s : State) (code : Nat) (src : Source) : (State.raise s code src).cxlPorts = s.cxlPorts := (State.raise_frame s code src).2.2.2.2.2.2.2.2.2.2.2.2.2.2.2.2.2.1
@[simp] theorem State.raise_windows (s : State) (code : Nat) (src : Source) : (State.raise s code src).windows = s.windows := (State.raise_frame s code src).2.2.2.2.2.2.2.2.2.2.2.2.2.2.2.2.2.2.1
@[simp] theorem State.raise_bpm (s : State) (code : Nat) (src : Source) : (State.raise s code src).bpm = s.bpm := (State.raise_frame s code src).2.2.2.2.2.2.2.2.2.2.2.2.2.2.2.2.2.2.2.1
@[simp] theorem State.raise_cool (s : State) (code : Nat) (src : Source) : (State.raise s code src).cool = s.cool := (State.raise_frame s code src).2.2.2.2.2.2.2.2.2.2.2.2.2.2.2.2.2.2.2.2.1
@[simp] theorem State.raise_sec (s : State) (code : Nat) (src : Source) : (State.raise s code src).sec = s.sec := (State.raise_frame s code src).2.2.2.2.2.2.2.2.2.2.2.2.2.2.2.2.2.2.2.2.2.1
@[simp] theorem State.raise_boot (s : State) (code : Nat) (src : Source) : (State.raise s code src).boot = s.boot := (State.raise_frame s code src).2.2.2.2.2.2.2.2.2.2.2.2.2.2.2.2.2.2.2.2.2.2.1
@[simp] theorem State.raise_regs (s : State) (code : Nat) (src : Source) : (State.raise s code src).regs = s.regs := (State.raise_frame s code src).2.2.2.2.2.2.2.2.2.2.2.2.2.2.2.2.2.2.2.2.2.2.2.1
@[simp] theorem State.raise_sels (s : State) (code : Nat) (src : Source) : (State.raise s code src).sels = s.sels := (State.raise_frame s code src).2.2.2.2.2.2.2.2.2.2.2.2.2.2.2.2.2.2.2.2.2.2.2.2.1
@[simp] theorem State.raise_halves (s : State) (code : Nat) (src : Source) : (State.raise s code src).halves = s.halves := (State.raise_frame s code src).2.2.2.2.2.2.2.2.2.2.2.2.2.2.2.2.2.2.2.2.2.2.2.2.2
@[simp] theorem State.raise_port (s : State) (code : Nat) (src : Source) (j_ : Nat) : (State.raise s code src).port j_ = s.port j_ := by simp only [State.port_def, State.raise_ports]
@[simp] theorem State.raise_domain (s : State) (code : Nat) (src : Source) (j_ : Nat) : (State.raise s code src).domain j_ = s.domain j_ := by simp only [State.domain_def, State.raise_domains]
@[simp] theorem State.raise_xing (s : State) (code : Nat) (src : Source) (j_ : Nat) : (State.raise s code src).xing j_ = s.xing j_ := by simp only [State.xing_def, State.raise_xings]
@[simp] theorem State.raise_hbm (s : State) (code : Nat) (src : Source) (j_ : Nat) : (State.raise s code src).hbm j_ = s.hbm j_ := by simp only [State.hbm_def, State.raise_hbms]
@[simp] theorem State.raise_cxl (s : State) (code : Nat) (src : Source) (j_ : Nat) : (State.raise s code src).cxl j_ = s.cxl j_ := by simp only [State.cxl_def, State.raise_cxlPorts]
@[simp] theorem State.raise_win (s : State) (code : Nat) (src : Source) (j_ : Nat) : (State.raise s code src).win j_ = s.win j_ := by simp only [State.win_def, State.raise_windows]
@[simp] theorem State.raise_page (s : State) (code : Nat) (src : Source) (j_ : Nat) : (State.raise s code src).page j_ = s.page j_ := by simp only [State.page_def, State.raise_pages]
@[simp] theorem State.raise_trow (s : State) (code : Nat) (src : Source) (c_ n_ : Nat) : (State.raise s code src).trow c_ n_ = s.trow c_ n_ := by simp only [State.trow_def, State.raise_tarn]
@[simp] theorem State.raise_now (s : State) (code : Nat) (src : Source) : (State.raise s code src).now = s.now := by simp only [State.now_def, State.raise_tb]
theorem State.noteTimeout_frame (s : State) (x c pc : Nat) :
    (State.noteTimeout s x c pc).pending = s.pending ∧ (State.noteTimeout s x c pc).out = s.out ∧ (State.noteTimeout s x c pc).fresh = s.fresh ∧ (State.noteTimeout s x c pc).order = s.order ∧ (State.noteTimeout s x c pc).variant36 = s.variant36 ∧ (State.noteTimeout s x c pc).enabled = s.enabled ∧ (State.noteTimeout s x c pc).clusters = s.clusters ∧ (State.noteTimeout s x c pc).tarn = s.tarn ∧ (State.noteTimeout s x c pc).mem = s.mem ∧ (State.noteTimeout s x c pc).poison = s.poison ∧ (State.noteTimeout s x c pc).pages = s.pages ∧ (State.noteTimeout s x c pc).zeroRuns = s.zeroRuns ∧ (State.noteTimeout s x c pc).regions = s.regions ∧ (State.noteTimeout s x c pc).domains = s.domains ∧ (State.noteTimeout s x c pc).xings = s.xings ∧ (State.noteTimeout s x c pc).tb = s.tb ∧ (State.noteTimeout s x c pc).net = s.net ∧ (State.noteTimeout s x c pc).nextPkt = s.nextPkt ∧ (State.noteTimeout s x c pc).routes = s.routes ∧ (State.noteTimeout s x c pc).perimRoutes = s.perimRoutes ∧ (State.noteTimeout s x c pc).fabLinks = s.fabLinks ∧ (State.noteTimeout s x c pc).discards = s.discards ∧ (State.noteTimeout s x c pc).parts = s.parts ∧ (State.noteTimeout s x c pc).qps = s.qps ∧ (State.noteTimeout s x c pc).fns = s.fns ∧ (State.noteTimeout s x c pc).links = s.links ∧ (State.noteTimeout s x c pc).ports = s.ports ∧ (State.noteTimeout s x c pc).hbms = s.hbms ∧ (State.noteTimeout s x c pc).cxlPorts = s.cxlPorts ∧ (State.noteTimeout s x c pc).windows = s.windows ∧ (State.noteTimeout s x c pc).cores = s.cores ∧ (State.noteTimeout s x c pc).dir = s.dir ∧ (State.noteTimeout s x c pc).bpm = s.bpm ∧ (State.noteTimeout s x c pc).cool = s.cool ∧ (State.noteTimeout s x c pc).mgt = s.mgt ∧ (State.noteTimeout s x c pc).sec = s.sec ∧ (State.noteTimeout s x c pc).boot = s.boot ∧ (State.noteTimeout s x c pc).regs = s.regs ∧ (State.noteTimeout s x c pc).sels = s.sels ∧ (State.noteTimeout s x c pc).halves = s.halves := by
  generalize h_ : State.noteTimeout s x c pc = t_
  unfold State.noteTimeout at h_
  (try dsimp only at h_)
  (repeat' split at h_) <;> subst h_ <;> simp
@[simp] theorem State.noteTimeout_pending (s : State) (x c pc : Nat) : (State.noteTimeout s x c pc).pending = s.pending := (State.noteTimeout_frame s x c pc).1
@[simp] theorem State.noteTimeout_out (s : State) (x c pc : Nat) : (State.noteTimeout s x c pc).out = s.out := (State.noteTimeout_frame s x c pc).2.1
@[simp] theorem State.noteTimeout_fresh (s : State) (x c pc : Nat) : (State.noteTimeout s x c pc).fresh = s.fresh := (State.noteTimeout_frame s x c pc).2.2.1
@[simp] theorem State.noteTimeout_order (s : State) (x c pc : Nat) : (State.noteTimeout s x c pc).order = s.order := (State.noteTimeout_frame s x c pc).2.2.2.1
@[simp] theorem State.noteTimeout_variant36 (s : State) (x c pc : Nat) : (State.noteTimeout s x c pc).variant36 = s.variant36 := (State.noteTimeout_frame s x c pc).2.2.2.2.1
@[simp] theorem State.noteTimeout_enabled (s : State) (x c pc : Nat) : (State.noteTimeout s x c pc).enabled = s.enabled := (State.noteTimeout_frame s x c pc).2.2.2.2.2.1
@[simp] theorem State.noteTimeout_clusters (s : State) (x c pc : Nat) : (State.noteTimeout s x c pc).clusters = s.clusters := (State.noteTimeout_frame s x c pc).2.2.2.2.2.2.1
@[simp] theorem State.noteTimeout_tarn (s : State) (x c pc : Nat) : (State.noteTimeout s x c pc).tarn = s.tarn := (State.noteTimeout_frame s x c pc).2.2.2.2.2.2.2.1
@[simp] theorem State.noteTimeout_mem (s : State) (x c pc : Nat) : (State.noteTimeout s x c pc).mem = s.mem := (State.noteTimeout_frame s x c pc).2.2.2.2.2.2.2.2.1
@[simp] theorem State.noteTimeout_poison (s : State) (x c pc : Nat) : (State.noteTimeout s x c pc).poison = s.poison := (State.noteTimeout_frame s x c pc).2.2.2.2.2.2.2.2.2.1
@[simp] theorem State.noteTimeout_pages (s : State) (x c pc : Nat) : (State.noteTimeout s x c pc).pages = s.pages := (State.noteTimeout_frame s x c pc).2.2.2.2.2.2.2.2.2.2.1
@[simp] theorem State.noteTimeout_zeroRuns (s : State) (x c pc : Nat) : (State.noteTimeout s x c pc).zeroRuns = s.zeroRuns := (State.noteTimeout_frame s x c pc).2.2.2.2.2.2.2.2.2.2.2.1
@[simp] theorem State.noteTimeout_regions (s : State) (x c pc : Nat) : (State.noteTimeout s x c pc).regions = s.regions := (State.noteTimeout_frame s x c pc).2.2.2.2.2.2.2.2.2.2.2.2.1
@[simp] theorem State.noteTimeout_domains (s : State) (x c pc : Nat) : (State.noteTimeout s x c pc).domains = s.domains := (State.noteTimeout_frame s x c pc).2.2.2.2.2.2.2.2.2.2.2.2.2.1
@[simp] theorem State.noteTimeout_xings (s : State) (x c pc : Nat) : (State.noteTimeout s x c pc).xings = s.xings := (State.noteTimeout_frame s x c pc).2.2.2.2.2.2.2.2.2.2.2.2.2.2.1
@[simp] theorem State.noteTimeout_tb (s : State) (x c pc : Nat) : (State.noteTimeout s x c pc).tb = s.tb := (State.noteTimeout_frame s x c pc).2.2.2.2.2.2.2.2.2.2.2.2.2.2.2.1
@[simp] theorem State.noteTimeout_net (s : State) (x c pc : Nat) : (State.noteTimeout s x c pc).net = s.net := (State.noteTimeout_frame s x c pc).2.2.2.2.2.2.2.2.2.2.2.2.2.2.2.2.1
@[simp] theorem State.noteTimeout_nextPkt (s : State) (x c pc : Nat) : (State.noteTimeout s x c pc).nextPkt = s.nextPkt := (State.noteTimeout_frame s x c pc).2.2.2.2.2.2.2.2.2.2.2.2.2.2.2.2.2.1
@[simp] theorem State.noteTimeout_routes (s : State) (x c pc : Nat) : (State.noteTimeout s x c pc).routes = s.routes := (State.noteTimeout_frame s x c pc).2.2.2.2.2.2.2.2.2.2.2.2.2.2.2.2.2.2.1
@[simp] theorem State.noteTimeout_perimRoutes (s : State) (x c pc : Nat) : (State.noteTimeout s x c pc).perimRoutes = s.perimRoutes := (State.noteTimeout_frame s x c pc).2.2.2.2.2.2.2.2.2.2.2.2.2.2.2.2.2.2.2.1
@[simp] theorem State.noteTimeout_fabLinks (s : State) (x c pc : Nat) : (State.noteTimeout s x c pc).fabLinks = s.fabLinks := (State.noteTimeout_frame s x c pc).2.2.2.2.2.2.2.2.2.2.2.2.2.2.2.2.2.2.2.2.1
@[simp] theorem State.noteTimeout_discards (s : State) (x c pc : Nat) : (State.noteTimeout s x c pc).discards = s.discards := (State.noteTimeout_frame s x c pc).2.2.2.2.2.2.2.2.2.2.2.2.2.2.2.2.2.2.2.2.2.1
@[simp] theorem State.noteTimeout_parts (s : State) (x c pc : Nat) : (State.noteTimeout s x c pc).parts = s.parts := (State.noteTimeout_frame s x c pc).2.2.2.2.2.2.2.2.2.2.2.2.2.2.2.2.2.2.2.2.2.2.1
@[simp] theorem State.noteTimeout_qps (s : State) (x c pc : Nat) : (State.noteTimeout s x c pc).qps = s.qps := (State.noteTimeout_frame s x c pc).2.2.2.2.2.2.2.2.2.2.2.2.2.2.2.2.2.2.2.2.2.2.2.1
@[simp] theorem State.noteTimeout_fns (s : State) (x c pc : Nat) : (State.noteTimeout s x c pc).fns = s.fns := (State.noteTimeout_frame s x c pc).2.2.2.2.2.2.2.2.2.2.2.2.2.2.2.2.2.2.2.2.2.2.2.2.1
@[simp] theorem State.noteTimeout_links (s : State) (x c pc : Nat) : (State.noteTimeout s x c pc).links = s.links := (State.noteTimeout_frame s x c pc).2.2.2.2.2.2.2.2.2.2.2.2.2.2.2.2.2.2.2.2.2.2.2.2.2.1
@[simp] theorem State.noteTimeout_ports (s : State) (x c pc : Nat) : (State.noteTimeout s x c pc).ports = s.ports := (State.noteTimeout_frame s x c pc).2.2.2.2.2.2.2.2.2.2.2.2.2.2.2.2.2.2.2.2.2.2.2.2.2.2.1
@[simp] theorem State.noteTimeout_hbms (s : State) (x c pc : Nat) : (State.noteTimeout s x c pc).hbms = s.hbms := (State.noteTimeout_frame s x c pc).2.2.2.2.2.2.2.2.2.2.2.2.2.2.2.2.2.2.2.2.2.2.2.2.2.2.2.1
@[simp] theorem State.noteTimeout_cxlPorts (s : State) (x c pc : Nat) : (State.noteTimeout s x c pc).cxlPorts = s.cxlPorts := (State.noteTimeout_frame s x c pc).2.2.2.2.2.2.2.2.2.2.2.2.2.2.2.2.2.2.2.2.2.2.2.2.2.2.2.2.1
@[simp] theorem State.noteTimeout_windows (s : State) (x c pc : Nat) : (State.noteTimeout s x c pc).windows = s.windows := (State.noteTimeout_frame s x c pc).2.2.2.2.2.2.2.2.2.2.2.2.2.2.2.2.2.2.2.2.2.2.2.2.2.2.2.2.2.1
@[simp] theorem State.noteTimeout_cores (s : State) (x c pc : Nat) : (State.noteTimeout s x c pc).cores = s.cores := (State.noteTimeout_frame s x c pc).2.2.2.2.2.2.2.2.2.2.2.2.2.2.2.2.2.2.2.2.2.2.2.2.2.2.2.2.2.2.1
@[simp] theorem State.noteTimeout_dir (s : State) (x c pc : Nat) : (State.noteTimeout s x c pc).dir = s.dir := (State.noteTimeout_frame s x c pc).2.2.2.2.2.2.2.2.2.2.2.2.2.2.2.2.2.2.2.2.2.2.2.2.2.2.2.2.2.2.2.1
@[simp] theorem State.noteTimeout_bpm (s : State) (x c pc : Nat) : (State.noteTimeout s x c pc).bpm = s.bpm := (State.noteTimeout_frame s x c pc).2.2.2.2.2.2.2.2.2.2.2.2.2.2.2.2.2.2.2.2.2.2.2.2.2.2.2.2.2.2.2.2.1
@[simp] theorem State.noteTimeout_cool (s : State) (x c pc : Nat) : (State.noteTimeout s x c pc).cool = s.cool := (State.noteTimeout_frame s x c pc).2.2.2.2.2.2.2.2.2.2.2.2.2.2.2.2.2.2.2.2.2.2.2.2.2.2.2.2.2.2.2.2.2.1
@[simp] theorem State.noteTimeout_mgt (s : State) (x c pc : Nat) : (State.noteTimeout s x c pc).mgt = s.mgt := (State.noteTimeout_frame s x c pc).2.2.2.2.2.2.2.2.2.2.2.2.2.2.2.2.2.2.2.2.2.2.2.2.2.2.2.2.2.2.2.2.2.2.1
@[simp] theorem State.noteTimeout_sec (s : State) (x c pc : Nat) : (State.noteTimeout s x c pc).sec = s.sec := (State.noteTimeout_frame s x c pc).2.2.2.2.2.2.2.2.2.2.2.2.2.2.2.2.2.2.2.2.2.2.2.2.2.2.2.2.2.2.2.2.2.2.2.1
@[simp] theorem State.noteTimeout_boot (s : State) (x c pc : Nat) : (State.noteTimeout s x c pc).boot = s.boot := (State.noteTimeout_frame s x c pc).2.2.2.2.2.2.2.2.2.2.2.2.2.2.2.2.2.2.2.2.2.2.2.2.2.2.2.2.2.2.2.2.2.2.2.2.1
@[simp] theorem State.noteTimeout_regs (s : State) (x c pc : Nat) : (State.noteTimeout s x c pc).regs = s.regs := (State.noteTimeout_frame s x c pc).2.2.2.2.2.2.2.2.2.2.2.2.2.2.2.2.2.2.2.2.2.2.2.2.2.2.2.2.2.2.2.2.2.2.2.2.2.1
@[simp] theorem State.noteTimeout_sels (s : State) (x c pc : Nat) : (State.noteTimeout s x c pc).sels = s.sels := (State.noteTimeout_frame s x c pc).2.2.2.2.2.2.2.2.2.2.2.2.2.2.2.2.2.2.2.2.2.2.2.2.2.2.2.2.2.2.2.2.2.2.2.2.2.2.1
@[simp] theorem State.noteTimeout_halves (s : State) (x c pc : Nat) : (State.noteTimeout s x c pc).halves = s.halves := (State.noteTimeout_frame s x c pc).2.2.2.2.2.2.2.2.2.2.2.2.2.2.2.2.2.2.2.2.2.2.2.2.2.2.2.2.2.2.2.2.2.2.2.2.2.2.2
@[simp] theorem State.noteTimeout_cl (s : State) (x c pc : Nat) (j_ : Nat) : (State.noteTimeout s x c pc).cl j_ = s.cl j_ := by simp only [State.cl_def, State.noteTimeout_clusters]
@[simp] theorem State.noteTimeout_part (s : State) (x c pc : Nat) (j_ : Nat) : (State.noteTimeout s x c pc).part j_ = s.part j_ := by simp only [State.part_def, State.noteTimeout_parts]
@[simp] theorem State.noteTimeout_qp (s : State) (x c pc : Nat) (j_ : Nat) : (State.noteTimeout s x c pc).qp j_ = s.qp j_ := by simp only [State.qp_def, State.noteTimeout_qps]
@[simp] theorem State.noteTimeout_fn (s : State) (x c pc : Nat) (j_ : Nat) : (State.noteTimeout s x c pc).fn j_ = s.fn j_ := by simp only [State.fn_def, State.noteTimeout_fns]
@[simp] theorem State.noteTimeout_link (s : State) (x c pc : Nat) (j_ : Nat) : (State.noteTimeout s x c pc).link j_ = s.link j_ := by simp only [State.link_def, State.noteTimeout_links]
@[simp] theorem State.noteTimeout_port (s : State) (x c pc : Nat) (j_ : Nat) : (State.noteTimeout s x c pc).port j_ = s.port j_ := by simp only [State.port_def, State.noteTimeout_ports]
@[simp] theorem State.noteTimeout_region (s : State) (x c pc : Nat) (j_ : Nat) : (State.noteTimeout s x c pc).region j_ = s.region j_ := by simp only [State.region_def, State.noteTimeout_regions]
@[simp] theorem State.noteTimeout_domain (s : State) (x c pc : Nat) (j_ : Nat) : (State.noteTimeout s x c pc).domain j_ = s.domain j_ := by simp only [State.domain_def, State.noteTimeout_domains]
@[simp] theorem State.noteTimeout_xing (s : State) (x c pc : Nat) (j_ : Nat) : (State.noteTimeout s x c pc).xing j_ = s.xing j_ := by simp only [State.xing_def, State.noteTimeout_xings]
@[simp] theorem State.noteTimeout_hbm (s : State) (x c pc : Nat) (j_ : Nat) : (State.noteTimeout s x c pc).hbm j_ = s.hbm j_ := by simp only [State.hbm_def, State.noteTimeout_hbms]
@[simp] theorem State.noteTimeout_cxl (s : State) (x c pc : Nat) (j_ : Nat) : (State.noteTimeout s x c pc).cxl j_ = s.cxl j_ := by simp only [State.cxl_def, State.noteTimeout_cxlPorts]
@[simp] theorem State.noteTimeout_win (s : State) (x c pc : Nat) (j_ : Nat) : (State.noteTimeout s x c pc).win j_ = s.win j_ := by simp only [State.win_def, State.noteTimeout_windows]
@[simp] theorem State.noteTimeout_core (s : State) (x c pc : Nat) (j_ : Nat) : (State.noteTimeout s x c pc).core j_ = s.core j_ := by simp only [State.core_def, State.noteTimeout_cores]
@[simp] theorem State.noteTimeout_dirLine (s : State) (x c pc : Nat) (j_ : Nat) : (State.noteTimeout s x c pc).dirLine j_ = s.dirLine j_ := by simp only [State.dirLine_def, State.noteTimeout_dir]
@[simp] theorem State.noteTimeout_page (s : State) (x c pc : Nat) (j_ : Nat) : (State.noteTimeout s x c pc).page j_ = s.page j_ := by simp only [State.page_def, State.noteTimeout_pages]
@[simp] theorem State.noteTimeout_trow (s : State) (x c pc : Nat) (c_ n_ : Nat) : (State.noteTimeout s x c pc).trow c_ n_ = s.trow c_ n_ := by simp only [State.trow_def, State.noteTimeout_tarn]
@[simp] theorem State.noteTimeout_rawByte (s : State) (x c pc : Nat) (a_ : Nat) : (State.noteTimeout s x c pc).rawByte a_ = s.rawByte a_ := by simp only [State.rawByte_def, State.noteTimeout_mem]
@[simp] theorem State.noteTimeout_now (s : State) (x c pc : Nat) : (State.noteTimeout s x c pc).now = s.now := by simp only [State.now_def, State.noteTimeout_tb]
theorem State.trapEvent_frame (s : State) (c cause : Nat) :
    (State.trapEvent s c cause).pending = s.pending ∧ (State.trapEvent s c cause).fresh = s.fresh ∧ (State.trapEvent s c cause).order = s.order ∧ (State.trapEvent s c cause).variant36 = s.variant36 ∧ (State.trapEvent s c cause).enabled = s.enabled ∧ (State.trapEvent s c cause).tarn = s.tarn ∧ (State.trapEvent s c cause).pages = s.pages ∧ (State.trapEvent s c cause).zeroRuns = s.zeroRuns ∧ (State.trapEvent s c cause).domains = s.domains ∧ (State.trapEvent s c cause).xings = s.xings ∧ (State.trapEvent s c cause).tb = s.tb ∧ (State.trapEvent s c cause).nextPkt = s.nextPkt ∧ (State.trapEvent s c cause).routes = s.routes ∧ (State.trapEvent s c cause).perimRoutes = s.perimRoutes ∧ (State.trapEvent s c cause).fabLinks = s.fabLinks ∧ (State.trapEvent s c cause).ports = s.ports ∧ (State.trapEvent s c cause).hbms = s.hbms ∧ (State.trapEvent s c cause).cxlPorts = s.cxlPorts ∧ (State.trapEvent s c cause).windows = s.windows ∧ (State.trapEvent s c cause).bpm = s.bpm ∧ (State.trapEvent s c cause).cool = s.cool ∧ (State.trapEvent s c cause).sec = s.sec ∧ (State.trapEvent s c cause).boot = s.boot ∧ (State.trapEvent s c cause).regs = s.regs ∧ (State.trapEvent s c cause).sels = s.sels ∧ (State.trapEvent s c cause).halves = s.halves := by
  generalize h_ : State.trapEvent s c cause = t_
  unfold State.trapEvent at h_
  (try dsimp only at h_)
  (repeat' split at h_) <;> subst h_ <;> simp
@[simp] theorem State.trapEvent_pending (s : State) (c cause : Nat) : (State.trapEvent s c cause).pending = s.pending := (State.trapEvent_frame s c cause).1
@[simp] theorem State.trapEvent_fresh (s : State) (c cause : Nat) : (State.trapEvent s c cause).fresh = s.fresh := (State.trapEvent_frame s c cause).2.1
@[simp] theorem State.trapEvent_order (s : State) (c cause : Nat) : (State.trapEvent s c cause).order = s.order := (State.trapEvent_frame s c cause).2.2.1
@[simp] theorem State.trapEvent_variant36 (s : State) (c cause : Nat) : (State.trapEvent s c cause).variant36 = s.variant36 := (State.trapEvent_frame s c cause).2.2.2.1
@[simp] theorem State.trapEvent_enabled (s : State) (c cause : Nat) : (State.trapEvent s c cause).enabled = s.enabled := (State.trapEvent_frame s c cause).2.2.2.2.1
@[simp] theorem State.trapEvent_tarn (s : State) (c cause : Nat) : (State.trapEvent s c cause).tarn = s.tarn := (State.trapEvent_frame s c cause).2.2.2.2.2.1
@[simp] theorem State.trapEvent_pages (s : State) (c cause : Nat) : (State.trapEvent s c cause).pages = s.pages := (State.trapEvent_frame s c cause).2.2.2.2.2.2.1
@[simp] theorem State.trapEvent_zeroRuns (s : State) (c cause : Nat) : (State.trapEvent s c cause).zeroRuns = s.zeroRuns := (State.trapEvent_frame s c cause).2.2.2.2.2.2.2.1
@[simp] theorem State.trapEvent_domains (s : State) (c cause : Nat) : (State.trapEvent s c cause).domains = s.domains := (State.trapEvent_frame s c cause).2.2.2.2.2.2.2.2.1
@[simp] theorem State.trapEvent_xings (s : State) (c cause : Nat) : (State.trapEvent s c cause).xings = s.xings := (State.trapEvent_frame s c cause).2.2.2.2.2.2.2.2.2.1
@[simp] theorem State.trapEvent_tb (s : State) (c cause : Nat) : (State.trapEvent s c cause).tb = s.tb := (State.trapEvent_frame s c cause).2.2.2.2.2.2.2.2.2.2.1
@[simp] theorem State.trapEvent_nextPkt (s : State) (c cause : Nat) : (State.trapEvent s c cause).nextPkt = s.nextPkt := (State.trapEvent_frame s c cause).2.2.2.2.2.2.2.2.2.2.2.1
@[simp] theorem State.trapEvent_routes (s : State) (c cause : Nat) : (State.trapEvent s c cause).routes = s.routes := (State.trapEvent_frame s c cause).2.2.2.2.2.2.2.2.2.2.2.2.1
@[simp] theorem State.trapEvent_perimRoutes (s : State) (c cause : Nat) : (State.trapEvent s c cause).perimRoutes = s.perimRoutes := (State.trapEvent_frame s c cause).2.2.2.2.2.2.2.2.2.2.2.2.2.1
@[simp] theorem State.trapEvent_fabLinks (s : State) (c cause : Nat) : (State.trapEvent s c cause).fabLinks = s.fabLinks := (State.trapEvent_frame s c cause).2.2.2.2.2.2.2.2.2.2.2.2.2.2.1
@[simp] theorem State.trapEvent_ports (s : State) (c cause : Nat) : (State.trapEvent s c cause).ports = s.ports := (State.trapEvent_frame s c cause).2.2.2.2.2.2.2.2.2.2.2.2.2.2.2.1
@[simp] theorem State.trapEvent_hbms (s : State) (c cause : Nat) : (State.trapEvent s c cause).hbms = s.hbms := (State.trapEvent_frame s c cause).2.2.2.2.2.2.2.2.2.2.2.2.2.2.2.2.1
@[simp] theorem State.trapEvent_cxlPorts (s : State) (c cause : Nat) : (State.trapEvent s c cause).cxlPorts = s.cxlPorts := (State.trapEvent_frame s c cause).2.2.2.2.2.2.2.2.2.2.2.2.2.2.2.2.2.1
@[simp] theorem State.trapEvent_windows (s : State) (c cause : Nat) : (State.trapEvent s c cause).windows = s.windows := (State.trapEvent_frame s c cause).2.2.2.2.2.2.2.2.2.2.2.2.2.2.2.2.2.2.1
@[simp] theorem State.trapEvent_bpm (s : State) (c cause : Nat) : (State.trapEvent s c cause).bpm = s.bpm := (State.trapEvent_frame s c cause).2.2.2.2.2.2.2.2.2.2.2.2.2.2.2.2.2.2.2.1
@[simp] theorem State.trapEvent_cool (s : State) (c cause : Nat) : (State.trapEvent s c cause).cool = s.cool := (State.trapEvent_frame s c cause).2.2.2.2.2.2.2.2.2.2.2.2.2.2.2.2.2.2.2.2.1
@[simp] theorem State.trapEvent_sec (s : State) (c cause : Nat) : (State.trapEvent s c cause).sec = s.sec := (State.trapEvent_frame s c cause).2.2.2.2.2.2.2.2.2.2.2.2.2.2.2.2.2.2.2.2.2.1
@[simp] theorem State.trapEvent_boot (s : State) (c cause : Nat) : (State.trapEvent s c cause).boot = s.boot := (State.trapEvent_frame s c cause).2.2.2.2.2.2.2.2.2.2.2.2.2.2.2.2.2.2.2.2.2.2.1
@[simp] theorem State.trapEvent_regs (s : State) (c cause : Nat) : (State.trapEvent s c cause).regs = s.regs := (State.trapEvent_frame s c cause).2.2.2.2.2.2.2.2.2.2.2.2.2.2.2.2.2.2.2.2.2.2.2.1
@[simp] theorem State.trapEvent_sels (s : State) (c cause : Nat) : (State.trapEvent s c cause).sels = s.sels := (State.trapEvent_frame s c cause).2.2.2.2.2.2.2.2.2.2.2.2.2.2.2.2.2.2.2.2.2.2.2.2.1
@[simp] theorem State.trapEvent_halves (s : State) (c cause : Nat) : (State.trapEvent s c cause).halves = s.halves := (State.trapEvent_frame s c cause).2.2.2.2.2.2.2.2.2.2.2.2.2.2.2.2.2.2.2.2.2.2.2.2.2
@[simp] theorem State.trapEvent_port (s : State) (c cause : Nat) (j_ : Nat) : (State.trapEvent s c cause).port j_ = s.port j_ := by simp only [State.port_def, State.trapEvent_ports]
@[simp] theorem State.trapEvent_domain (s : State) (c cause : Nat) (j_ : Nat) : (State.trapEvent s c cause).domain j_ = s.domain j_ := by simp only [State.domain_def, State.trapEvent_domains]
@[simp] theorem State.trapEvent_xing (s : State) (c cause : Nat) (j_ : Nat) : (State.trapEvent s c cause).xing j_ = s.xing j_ := by simp only [State.xing_def, State.trapEvent_xings]
@[simp] theorem State.trapEvent_hbm (s : State) (c cause : Nat) (j_ : Nat) : (State.trapEvent s c cause).hbm j_ = s.hbm j_ := by simp only [State.hbm_def, State.trapEvent_hbms]
@[simp] theorem State.trapEvent_cxl (s : State) (c cause : Nat) (j_ : Nat) : (State.trapEvent s c cause).cxl j_ = s.cxl j_ := by simp only [State.cxl_def, State.trapEvent_cxlPorts]
@[simp] theorem State.trapEvent_win (s : State) (c cause : Nat) (j_ : Nat) : (State.trapEvent s c cause).win j_ = s.win j_ := by simp only [State.win_def, State.trapEvent_windows]
@[simp] theorem State.trapEvent_page (s : State) (c cause : Nat) (j_ : Nat) : (State.trapEvent s c cause).page j_ = s.page j_ := by simp only [State.page_def, State.trapEvent_pages]
@[simp] theorem State.trapEvent_trow (s : State) (c cause : Nat) (c_ n_ : Nat) : (State.trapEvent s c cause).trow c_ n_ = s.trow c_ n_ := by simp only [State.trow_def, State.trapEvent_tarn]
@[simp] theorem State.trapEvent_now (s : State) (c cause : Nat) : (State.trapEvent s c cause).now = s.now := by simp only [State.now_def, State.trapEvent_tb]
theorem State.trap_frame (s : State) (c cause sw row : Nat) :
    (State.trap s c cause sw row).pending = s.pending ∧ (State.trap s c cause sw row).fresh = s.fresh ∧ (State.trap s c cause sw row).order = s.order ∧ (State.trap s c cause sw row).variant36 = s.variant36 ∧ (State.trap s c cause sw row).enabled = s.enabled ∧ (State.trap s c cause sw row).tarn = s.tarn ∧ (State.trap s c cause sw row).pages = s.pages ∧ (State.trap s c cause sw row).zeroRuns = s.zeroRuns ∧ (State.trap s c cause sw row).domains = s.domains ∧ (State.trap s c cause sw row).xings = s.xings ∧ (State.trap s c cause sw row).tb = s.tb ∧ (State.trap s c cause sw row).nextPkt = s.nextPkt ∧ (State.trap s c cause sw row).routes = s.routes ∧ (State.trap s c cause sw row).perimRoutes = s.perimRoutes ∧ (State.trap s c cause sw row).fabLinks = s.fabLinks ∧ (State.trap s c cause sw row).ports = s.ports ∧ (State.trap s c cause sw row).hbms = s.hbms ∧ (State.trap s c cause sw row).cxlPorts = s.cxlPorts ∧ (State.trap s c cause sw row).windows = s.windows ∧ (State.trap s c cause sw row).bpm = s.bpm ∧ (State.trap s c cause sw row).cool = s.cool ∧ (State.trap s c cause sw row).sec = s.sec ∧ (State.trap s c cause sw row).boot = s.boot ∧ (State.trap s c cause sw row).regs = s.regs ∧ (State.trap s c cause sw row).sels = s.sels ∧ (State.trap s c cause sw row).halves = s.halves := by
  generalize h_ : State.trap s c cause sw row = t_
  unfold State.trap at h_
  (try dsimp only at h_)
  (repeat' split at h_) <;> subst h_ <;> simp
@[simp] theorem State.trap_pending (s : State) (c cause sw row : Nat) : (State.trap s c cause sw row).pending = s.pending := (State.trap_frame s c cause sw row).1
@[simp] theorem State.trap_fresh (s : State) (c cause sw row : Nat) : (State.trap s c cause sw row).fresh = s.fresh := (State.trap_frame s c cause sw row).2.1
@[simp] theorem State.trap_order (s : State) (c cause sw row : Nat) : (State.trap s c cause sw row).order = s.order := (State.trap_frame s c cause sw row).2.2.1
@[simp] theorem State.trap_variant36 (s : State) (c cause sw row : Nat) : (State.trap s c cause sw row).variant36 = s.variant36 := (State.trap_frame s c cause sw row).2.2.2.1
@[simp] theorem State.trap_enabled (s : State) (c cause sw row : Nat) : (State.trap s c cause sw row).enabled = s.enabled := (State.trap_frame s c cause sw row).2.2.2.2.1
@[simp] theorem State.trap_tarn (s : State) (c cause sw row : Nat) : (State.trap s c cause sw row).tarn = s.tarn := (State.trap_frame s c cause sw row).2.2.2.2.2.1
@[simp] theorem State.trap_pages (s : State) (c cause sw row : Nat) : (State.trap s c cause sw row).pages = s.pages := (State.trap_frame s c cause sw row).2.2.2.2.2.2.1
@[simp] theorem State.trap_zeroRuns (s : State) (c cause sw row : Nat) : (State.trap s c cause sw row).zeroRuns = s.zeroRuns := (State.trap_frame s c cause sw row).2.2.2.2.2.2.2.1
@[simp] theorem State.trap_domains (s : State) (c cause sw row : Nat) : (State.trap s c cause sw row).domains = s.domains := (State.trap_frame s c cause sw row).2.2.2.2.2.2.2.2.1
@[simp] theorem State.trap_xings (s : State) (c cause sw row : Nat) : (State.trap s c cause sw row).xings = s.xings := (State.trap_frame s c cause sw row).2.2.2.2.2.2.2.2.2.1
@[simp] theorem State.trap_tb (s : State) (c cause sw row : Nat) : (State.trap s c cause sw row).tb = s.tb := (State.trap_frame s c cause sw row).2.2.2.2.2.2.2.2.2.2.1
@[simp] theorem State.trap_nextPkt (s : State) (c cause sw row : Nat) : (State.trap s c cause sw row).nextPkt = s.nextPkt := (State.trap_frame s c cause sw row).2.2.2.2.2.2.2.2.2.2.2.1
@[simp] theorem State.trap_routes (s : State) (c cause sw row : Nat) : (State.trap s c cause sw row).routes = s.routes := (State.trap_frame s c cause sw row).2.2.2.2.2.2.2.2.2.2.2.2.1
@[simp] theorem State.trap_perimRoutes (s : State) (c cause sw row : Nat) : (State.trap s c cause sw row).perimRoutes = s.perimRoutes := (State.trap_frame s c cause sw row).2.2.2.2.2.2.2.2.2.2.2.2.2.1
@[simp] theorem State.trap_fabLinks (s : State) (c cause sw row : Nat) : (State.trap s c cause sw row).fabLinks = s.fabLinks := (State.trap_frame s c cause sw row).2.2.2.2.2.2.2.2.2.2.2.2.2.2.1
@[simp] theorem State.trap_ports (s : State) (c cause sw row : Nat) : (State.trap s c cause sw row).ports = s.ports := (State.trap_frame s c cause sw row).2.2.2.2.2.2.2.2.2.2.2.2.2.2.2.1
@[simp] theorem State.trap_hbms (s : State) (c cause sw row : Nat) : (State.trap s c cause sw row).hbms = s.hbms := (State.trap_frame s c cause sw row).2.2.2.2.2.2.2.2.2.2.2.2.2.2.2.2.1
@[simp] theorem State.trap_cxlPorts (s : State) (c cause sw row : Nat) : (State.trap s c cause sw row).cxlPorts = s.cxlPorts := (State.trap_frame s c cause sw row).2.2.2.2.2.2.2.2.2.2.2.2.2.2.2.2.2.1
@[simp] theorem State.trap_windows (s : State) (c cause sw row : Nat) : (State.trap s c cause sw row).windows = s.windows := (State.trap_frame s c cause sw row).2.2.2.2.2.2.2.2.2.2.2.2.2.2.2.2.2.2.1
@[simp] theorem State.trap_bpm (s : State) (c cause sw row : Nat) : (State.trap s c cause sw row).bpm = s.bpm := (State.trap_frame s c cause sw row).2.2.2.2.2.2.2.2.2.2.2.2.2.2.2.2.2.2.2.1
@[simp] theorem State.trap_cool (s : State) (c cause sw row : Nat) : (State.trap s c cause sw row).cool = s.cool := (State.trap_frame s c cause sw row).2.2.2.2.2.2.2.2.2.2.2.2.2.2.2.2.2.2.2.2.1
@[simp] theorem State.trap_sec (s : State) (c cause sw row : Nat) : (State.trap s c cause sw row).sec = s.sec := (State.trap_frame s c cause sw row).2.2.2.2.2.2.2.2.2.2.2.2.2.2.2.2.2.2.2.2.2.1
@[simp] theorem State.trap_boot (s : State) (c cause sw row : Nat) : (State.trap s c cause sw row).boot = s.boot := (State.trap_frame s c cause sw row).2.2.2.2.2.2.2.2.2.2.2.2.2.2.2.2.2.2.2.2.2.2.1
@[simp] theorem State.trap_regs (s : State) (c cause sw row : Nat) : (State.trap s c cause sw row).regs = s.regs := (State.trap_frame s c cause sw row).2.2.2.2.2.2.2.2.2.2.2.2.2.2.2.2.2.2.2.2.2.2.2.1
@[simp] theorem State.trap_sels (s : State) (c cause sw row : Nat) : (State.trap s c cause sw row).sels = s.sels := (State.trap_frame s c cause sw row).2.2.2.2.2.2.2.2.2.2.2.2.2.2.2.2.2.2.2.2.2.2.2.2.1
@[simp] theorem State.trap_halves (s : State) (c cause sw row : Nat) : (State.trap s c cause sw row).halves = s.halves := (State.trap_frame s c cause sw row).2.2.2.2.2.2.2.2.2.2.2.2.2.2.2.2.2.2.2.2.2.2.2.2.2
@[simp] theorem State.trap_port (s : State) (c cause sw row : Nat) (j_ : Nat) : (State.trap s c cause sw row).port j_ = s.port j_ := by simp only [State.port_def, State.trap_ports]
@[simp] theorem State.trap_domain (s : State) (c cause sw row : Nat) (j_ : Nat) : (State.trap s c cause sw row).domain j_ = s.domain j_ := by simp only [State.domain_def, State.trap_domains]
@[simp] theorem State.trap_xing (s : State) (c cause sw row : Nat) (j_ : Nat) : (State.trap s c cause sw row).xing j_ = s.xing j_ := by simp only [State.xing_def, State.trap_xings]
@[simp] theorem State.trap_hbm (s : State) (c cause sw row : Nat) (j_ : Nat) : (State.trap s c cause sw row).hbm j_ = s.hbm j_ := by simp only [State.hbm_def, State.trap_hbms]
@[simp] theorem State.trap_cxl (s : State) (c cause sw row : Nat) (j_ : Nat) : (State.trap s c cause sw row).cxl j_ = s.cxl j_ := by simp only [State.cxl_def, State.trap_cxlPorts]
@[simp] theorem State.trap_win (s : State) (c cause sw row : Nat) (j_ : Nat) : (State.trap s c cause sw row).win j_ = s.win j_ := by simp only [State.win_def, State.trap_windows]
@[simp] theorem State.trap_page (s : State) (c cause sw row : Nat) (j_ : Nat) : (State.trap s c cause sw row).page j_ = s.page j_ := by simp only [State.page_def, State.trap_pages]
@[simp] theorem State.trap_trow (s : State) (c cause sw row : Nat) (c_ n_ : Nat) : (State.trap s c cause sw row).trow c_ n_ = s.trow c_ n_ := by simp only [State.trow_def, State.trap_tarn]
@[simp] theorem State.trap_now (s : State) (c cause sw row : Nat) : (State.trap s c cause sw row).now = s.now := by simp only [State.now_def, State.trap_tb]
theorem State.integrityEvent_frame (s : State) (c n : Nat) :
    (State.integrityEvent s c n).pending = s.pending ∧ (State.integrityEvent s c n).fresh = s.fresh ∧ (State.integrityEvent s c n).order = s.order ∧ (State.integrityEvent s c n).variant36 = s.variant36 ∧ (State.integrityEvent s c n).enabled = s.enabled ∧ (State.integrityEvent s c n).tarn = s.tarn ∧ (State.integrityEvent s c n).pages = s.pages ∧ (State.integrityEvent s c n).zeroRuns = s.zeroRuns ∧ (State.integrityEvent s c n).domains = s.domains ∧ (State.integrityEvent s c n).xings = s.xings ∧ (State.integrityEvent s c n).tb = s.tb ∧ (State.integrityEvent s c n).nextPkt = s.nextPkt ∧ (State.integrityEvent s c n).routes = s.routes ∧ (State.integrityEvent s c n).perimRoutes = s.perimRoutes ∧ (State.integrityEvent s c n).fabLinks = s.fabLinks ∧ (State.integrityEvent s c n).ports = s.ports ∧ (State.integrityEvent s c n).hbms = s.hbms ∧ (State.integrityEvent s c n).cxlPorts = s.cxlPorts ∧ (State.integrityEvent s c n).windows = s.windows ∧ (State.integrityEvent s c n).bpm = s.bpm ∧ (State.integrityEvent s c n).cool = s.cool ∧ (State.integrityEvent s c n).sec = s.sec ∧ (State.integrityEvent s c n).boot = s.boot ∧ (State.integrityEvent s c n).regs = s.regs ∧ (State.integrityEvent s c n).sels = s.sels ∧ (State.integrityEvent s c n).halves = s.halves := by
  generalize h_ : State.integrityEvent s c n = t_
  unfold State.integrityEvent at h_
  (try dsimp only at h_)
  (repeat' split at h_) <;> subst h_ <;> simp
@[simp] theorem State.integrityEvent_pending (s : State) (c n : Nat) : (State.integrityEvent s c n).pending = s.pending := (State.integrityEvent_frame s c n).1
@[simp] theorem State.integrityEvent_fresh (s : State) (c n : Nat) : (State.integrityEvent s c n).fresh = s.fresh := (State.integrityEvent_frame s c n).2.1
@[simp] theorem State.integrityEvent_order (s : State) (c n : Nat) : (State.integrityEvent s c n).order = s.order := (State.integrityEvent_frame s c n).2.2.1
@[simp] theorem State.integrityEvent_variant36 (s : State) (c n : Nat) : (State.integrityEvent s c n).variant36 = s.variant36 := (State.integrityEvent_frame s c n).2.2.2.1
@[simp] theorem State.integrityEvent_enabled (s : State) (c n : Nat) : (State.integrityEvent s c n).enabled = s.enabled := (State.integrityEvent_frame s c n).2.2.2.2.1
@[simp] theorem State.integrityEvent_tarn (s : State) (c n : Nat) : (State.integrityEvent s c n).tarn = s.tarn := (State.integrityEvent_frame s c n).2.2.2.2.2.1
@[simp] theorem State.integrityEvent_pages (s : State) (c n : Nat) : (State.integrityEvent s c n).pages = s.pages := (State.integrityEvent_frame s c n).2.2.2.2.2.2.1
@[simp] theorem State.integrityEvent_zeroRuns (s : State) (c n : Nat) : (State.integrityEvent s c n).zeroRuns = s.zeroRuns := (State.integrityEvent_frame s c n).2.2.2.2.2.2.2.1
@[simp] theorem State.integrityEvent_domains (s : State) (c n : Nat) : (State.integrityEvent s c n).domains = s.domains := (State.integrityEvent_frame s c n).2.2.2.2.2.2.2.2.1
@[simp] theorem State.integrityEvent_xings (s : State) (c n : Nat) : (State.integrityEvent s c n).xings = s.xings := (State.integrityEvent_frame s c n).2.2.2.2.2.2.2.2.2.1
@[simp] theorem State.integrityEvent_tb (s : State) (c n : Nat) : (State.integrityEvent s c n).tb = s.tb := (State.integrityEvent_frame s c n).2.2.2.2.2.2.2.2.2.2.1
@[simp] theorem State.integrityEvent_nextPkt (s : State) (c n : Nat) : (State.integrityEvent s c n).nextPkt = s.nextPkt := (State.integrityEvent_frame s c n).2.2.2.2.2.2.2.2.2.2.2.1
@[simp] theorem State.integrityEvent_routes (s : State) (c n : Nat) : (State.integrityEvent s c n).routes = s.routes := (State.integrityEvent_frame s c n).2.2.2.2.2.2.2.2.2.2.2.2.1
@[simp] theorem State.integrityEvent_perimRoutes (s : State) (c n : Nat) : (State.integrityEvent s c n).perimRoutes = s.perimRoutes := (State.integrityEvent_frame s c n).2.2.2.2.2.2.2.2.2.2.2.2.2.1
@[simp] theorem State.integrityEvent_fabLinks (s : State) (c n : Nat) : (State.integrityEvent s c n).fabLinks = s.fabLinks := (State.integrityEvent_frame s c n).2.2.2.2.2.2.2.2.2.2.2.2.2.2.1
@[simp] theorem State.integrityEvent_ports (s : State) (c n : Nat) : (State.integrityEvent s c n).ports = s.ports := (State.integrityEvent_frame s c n).2.2.2.2.2.2.2.2.2.2.2.2.2.2.2.1
@[simp] theorem State.integrityEvent_hbms (s : State) (c n : Nat) : (State.integrityEvent s c n).hbms = s.hbms := (State.integrityEvent_frame s c n).2.2.2.2.2.2.2.2.2.2.2.2.2.2.2.2.1
@[simp] theorem State.integrityEvent_cxlPorts (s : State) (c n : Nat) : (State.integrityEvent s c n).cxlPorts = s.cxlPorts := (State.integrityEvent_frame s c n).2.2.2.2.2.2.2.2.2.2.2.2.2.2.2.2.2.1
@[simp] theorem State.integrityEvent_windows (s : State) (c n : Nat) : (State.integrityEvent s c n).windows = s.windows := (State.integrityEvent_frame s c n).2.2.2.2.2.2.2.2.2.2.2.2.2.2.2.2.2.2.1
@[simp] theorem State.integrityEvent_bpm (s : State) (c n : Nat) : (State.integrityEvent s c n).bpm = s.bpm := (State.integrityEvent_frame s c n).2.2.2.2.2.2.2.2.2.2.2.2.2.2.2.2.2.2.2.1
@[simp] theorem State.integrityEvent_cool (s : State) (c n : Nat) : (State.integrityEvent s c n).cool = s.cool := (State.integrityEvent_frame s c n).2.2.2.2.2.2.2.2.2.2.2.2.2.2.2.2.2.2.2.2.1
@[simp] theorem State.integrityEvent_sec (s : State) (c n : Nat) : (State.integrityEvent s c n).sec = s.sec := (State.integrityEvent_frame s c n).2.2.2.2.2.2.2.2.2.2.2.2.2.2.2.2.2.2.2.2.2.1
@[simp] theorem State.integrityEvent_boot (s : State) (c n : Nat) : (State.integrityEvent s c n).boot = s.boot := (State.integrityEvent_frame s c n).2.2.2.2.2.2.2.2.2.2.2.2.2.2.2.2.2.2.2.2.2.2.1
@[simp] theorem State.integrityEvent_regs (s : State) (c n : Nat) : (State.integrityEvent s c n).regs = s.regs := (State.integrityEvent_frame s c n).2.2.2.2.2.2.2.2.2.2.2.2.2.2.2.2.2.2.2.2.2.2.2.1
@[simp] theorem State.integrityEvent_sels (s : State) (c n : Nat) : (State.integrityEvent s c n).sels = s.sels := (State.integrityEvent_frame s c n).2.2.2.2.2.2.2.2.2.2.2.2.2.2.2.2.2.2.2.2.2.2.2.2.1
@[simp] theorem State.integrityEvent_halves (s : State) (c n : Nat) : (State.integrityEvent s c n).halves = s.halves := (State.integrityEvent_frame s c n).2.2.2.2.2.2.2.2.2.2.2.2.2.2.2.2.2.2.2.2.2.2.2.2.2
@[simp] theorem State.integrityEvent_port (s : State) (c n : Nat) (j_ : Nat) : (State.integrityEvent s c n).port j_ = s.port j_ := by simp only [State.port_def, State.integrityEvent_ports]
@[simp] theorem State.integrityEvent_domain (s : State) (c n : Nat) (j_ : Nat) : (State.integrityEvent s c n).domain j_ = s.domain j_ := by simp only [State.domain_def, State.integrityEvent_domains]
@[simp] theorem State.integrityEvent_xing (s : State) (c n : Nat) (j_ : Nat) : (State.integrityEvent s c n).xing j_ = s.xing j_ := by simp only [State.xing_def, State.integrityEvent_xings]
@[simp] theorem State.integrityEvent_hbm (s : State) (c n : Nat) (j_ : Nat) : (State.integrityEvent s c n).hbm j_ = s.hbm j_ := by simp only [State.hbm_def, State.integrityEvent_hbms]
@[simp] theorem State.integrityEvent_cxl (s : State) (c n : Nat) (j_ : Nat) : (State.integrityEvent s c n).cxl j_ = s.cxl j_ := by simp only [State.cxl_def, State.integrityEvent_cxlPorts]
@[simp] theorem State.integrityEvent_win (s : State) (c n : Nat) (j_ : Nat) : (State.integrityEvent s c n).win j_ = s.win j_ := by simp only [State.win_def, State.integrityEvent_windows]
@[simp] theorem State.integrityEvent_page (s : State) (c n : Nat) (j_ : Nat) : (State.integrityEvent s c n).page j_ = s.page j_ := by simp only [State.page_def, State.integrityEvent_pages]
@[simp] theorem State.integrityEvent_trow (s : State) (c n : Nat) (c_ n_ : Nat) : (State.integrityEvent s c n).trow c_ n_ = s.trow c_ n_ := by simp only [State.trow_def, State.integrityEvent_tarn]
@[simp] theorem State.integrityEvent_now (s : State) (c n : Nat) : (State.integrityEvent s c n).now = s.now := by simp only [State.now_def, State.integrityEvent_tb]
theorem State.failCluster_frame (s : State) (c absent : Nat) :
    (State.failCluster s c absent).pending = s.pending ∧ (State.failCluster s c absent).fresh = s.fresh ∧ (State.failCluster s c absent).order = s.order ∧ (State.failCluster s c absent).variant36 = s.variant36 ∧ (State.failCluster s c absent).enabled = s.enabled ∧ (State.failCluster s c absent).tarn = s.tarn ∧ (State.failCluster s c absent).pages = s.pages ∧ (State.failCluster s c absent).zeroRuns = s.zeroRuns ∧ (State.failCluster s c absent).domains = s.domains ∧ (State.failCluster s c absent).xings = s.xings ∧ (State.failCluster s c absent).tb = s.tb ∧ (State.failCluster s c absent).nextPkt = s.nextPkt ∧ (State.failCluster s c absent).routes = s.routes ∧ (State.failCluster s c absent).perimRoutes = s.perimRoutes ∧ (State.failCluster s c absent).fabLinks = s.fabLinks ∧ (State.failCluster s c absent).ports = s.ports ∧ (State.failCluster s c absent).hbms = s.hbms ∧ (State.failCluster s c absent).cxlPorts = s.cxlPorts ∧ (State.failCluster s c absent).windows = s.windows ∧ (State.failCluster s c absent).bpm = s.bpm ∧ (State.failCluster s c absent).cool = s.cool ∧ (State.failCluster s c absent).sec = s.sec ∧ (State.failCluster s c absent).boot = s.boot ∧ (State.failCluster s c absent).regs = s.regs ∧ (State.failCluster s c absent).sels = s.sels ∧ (State.failCluster s c absent).halves = s.halves := by
  generalize h_ : State.failCluster s c absent = t_
  unfold State.failCluster at h_
  (try dsimp only at h_)
  (repeat' split at h_) <;> subst h_ <;> simp
@[simp] theorem State.failCluster_pending (s : State) (c absent : Nat) : (State.failCluster s c absent).pending = s.pending := (State.failCluster_frame s c absent).1
@[simp] theorem State.failCluster_fresh (s : State) (c absent : Nat) : (State.failCluster s c absent).fresh = s.fresh := (State.failCluster_frame s c absent).2.1
@[simp] theorem State.failCluster_order (s : State) (c absent : Nat) : (State.failCluster s c absent).order = s.order := (State.failCluster_frame s c absent).2.2.1
@[simp] theorem State.failCluster_variant36 (s : State) (c absent : Nat) : (State.failCluster s c absent).variant36 = s.variant36 := (State.failCluster_frame s c absent).2.2.2.1
@[simp] theorem State.failCluster_enabled (s : State) (c absent : Nat) : (State.failCluster s c absent).enabled = s.enabled := (State.failCluster_frame s c absent).2.2.2.2.1
@[simp] theorem State.failCluster_tarn (s : State) (c absent : Nat) : (State.failCluster s c absent).tarn = s.tarn := (State.failCluster_frame s c absent).2.2.2.2.2.1
@[simp] theorem State.failCluster_pages (s : State) (c absent : Nat) : (State.failCluster s c absent).pages = s.pages := (State.failCluster_frame s c absent).2.2.2.2.2.2.1
@[simp] theorem State.failCluster_zeroRuns (s : State) (c absent : Nat) : (State.failCluster s c absent).zeroRuns = s.zeroRuns := (State.failCluster_frame s c absent).2.2.2.2.2.2.2.1
@[simp] theorem State.failCluster_domains (s : State) (c absent : Nat) : (State.failCluster s c absent).domains = s.domains := (State.failCluster_frame s c absent).2.2.2.2.2.2.2.2.1
@[simp] theorem State.failCluster_xings (s : State) (c absent : Nat) : (State.failCluster s c absent).xings = s.xings := (State.failCluster_frame s c absent).2.2.2.2.2.2.2.2.2.1
@[simp] theorem State.failCluster_tb (s : State) (c absent : Nat) : (State.failCluster s c absent).tb = s.tb := (State.failCluster_frame s c absent).2.2.2.2.2.2.2.2.2.2.1
@[simp] theorem State.failCluster_nextPkt (s : State) (c absent : Nat) : (State.failCluster s c absent).nextPkt = s.nextPkt := (State.failCluster_frame s c absent).2.2.2.2.2.2.2.2.2.2.2.1
@[simp] theorem State.failCluster_routes (s : State) (c absent : Nat) : (State.failCluster s c absent).routes = s.routes := (State.failCluster_frame s c absent).2.2.2.2.2.2.2.2.2.2.2.2.1
@[simp] theorem State.failCluster_perimRoutes (s : State) (c absent : Nat) : (State.failCluster s c absent).perimRoutes = s.perimRoutes := (State.failCluster_frame s c absent).2.2.2.2.2.2.2.2.2.2.2.2.2.1
@[simp] theorem State.failCluster_fabLinks (s : State) (c absent : Nat) : (State.failCluster s c absent).fabLinks = s.fabLinks := (State.failCluster_frame s c absent).2.2.2.2.2.2.2.2.2.2.2.2.2.2.1
@[simp] theorem State.failCluster_ports (s : State) (c absent : Nat) : (State.failCluster s c absent).ports = s.ports := (State.failCluster_frame s c absent).2.2.2.2.2.2.2.2.2.2.2.2.2.2.2.1
@[simp] theorem State.failCluster_hbms (s : State) (c absent : Nat) : (State.failCluster s c absent).hbms = s.hbms := (State.failCluster_frame s c absent).2.2.2.2.2.2.2.2.2.2.2.2.2.2.2.2.1
@[simp] theorem State.failCluster_cxlPorts (s : State) (c absent : Nat) : (State.failCluster s c absent).cxlPorts = s.cxlPorts := (State.failCluster_frame s c absent).2.2.2.2.2.2.2.2.2.2.2.2.2.2.2.2.2.1
@[simp] theorem State.failCluster_windows (s : State) (c absent : Nat) : (State.failCluster s c absent).windows = s.windows := (State.failCluster_frame s c absent).2.2.2.2.2.2.2.2.2.2.2.2.2.2.2.2.2.2.1
@[simp] theorem State.failCluster_bpm (s : State) (c absent : Nat) : (State.failCluster s c absent).bpm = s.bpm := (State.failCluster_frame s c absent).2.2.2.2.2.2.2.2.2.2.2.2.2.2.2.2.2.2.2.1
@[simp] theorem State.failCluster_cool (s : State) (c absent : Nat) : (State.failCluster s c absent).cool = s.cool := (State.failCluster_frame s c absent).2.2.2.2.2.2.2.2.2.2.2.2.2.2.2.2.2.2.2.2.1
@[simp] theorem State.failCluster_sec (s : State) (c absent : Nat) : (State.failCluster s c absent).sec = s.sec := (State.failCluster_frame s c absent).2.2.2.2.2.2.2.2.2.2.2.2.2.2.2.2.2.2.2.2.2.1
@[simp] theorem State.failCluster_boot (s : State) (c absent : Nat) : (State.failCluster s c absent).boot = s.boot := (State.failCluster_frame s c absent).2.2.2.2.2.2.2.2.2.2.2.2.2.2.2.2.2.2.2.2.2.2.1
@[simp] theorem State.failCluster_regs (s : State) (c absent : Nat) : (State.failCluster s c absent).regs = s.regs := (State.failCluster_frame s c absent).2.2.2.2.2.2.2.2.2.2.2.2.2.2.2.2.2.2.2.2.2.2.2.1
@[simp] theorem State.failCluster_sels (s : State) (c absent : Nat) : (State.failCluster s c absent).sels = s.sels := (State.failCluster_frame s c absent).2.2.2.2.2.2.2.2.2.2.2.2.2.2.2.2.2.2.2.2.2.2.2.2.1
@[simp] theorem State.failCluster_halves (s : State) (c absent : Nat) : (State.failCluster s c absent).halves = s.halves := (State.failCluster_frame s c absent).2.2.2.2.2.2.2.2.2.2.2.2.2.2.2.2.2.2.2.2.2.2.2.2.2
@[simp] theorem State.failCluster_port (s : State) (c absent : Nat) (j_ : Nat) : (State.failCluster s c absent).port j_ = s.port j_ := by simp only [State.port_def, State.failCluster_ports]
@[simp] theorem State.failCluster_domain (s : State) (c absent : Nat) (j_ : Nat) : (State.failCluster s c absent).domain j_ = s.domain j_ := by simp only [State.domain_def, State.failCluster_domains]
@[simp] theorem State.failCluster_xing (s : State) (c absent : Nat) (j_ : Nat) : (State.failCluster s c absent).xing j_ = s.xing j_ := by simp only [State.xing_def, State.failCluster_xings]
@[simp] theorem State.failCluster_hbm (s : State) (c absent : Nat) (j_ : Nat) : (State.failCluster s c absent).hbm j_ = s.hbm j_ := by simp only [State.hbm_def, State.failCluster_hbms]
@[simp] theorem State.failCluster_cxl (s : State) (c absent : Nat) (j_ : Nat) : (State.failCluster s c absent).cxl j_ = s.cxl j_ := by simp only [State.cxl_def, State.failCluster_cxlPorts]
@[simp] theorem State.failCluster_win (s : State) (c absent : Nat) (j_ : Nat) : (State.failCluster s c absent).win j_ = s.win j_ := by simp only [State.win_def, State.failCluster_windows]
@[simp] theorem State.failCluster_page (s : State) (c absent : Nat) (j_ : Nat) : (State.failCluster s c absent).page j_ = s.page j_ := by simp only [State.page_def, State.failCluster_pages]
@[simp] theorem State.failCluster_trow (s : State) (c absent : Nat) (c_ n_ : Nat) : (State.failCluster s c absent).trow c_ n_ = s.trow c_ n_ := by simp only [State.trow_def, State.failCluster_tarn]
@[simp] theorem State.failCluster_now (s : State) (c absent : Nat) : (State.failCluster s c absent).now = s.now := by simp only [State.now_def, State.failCluster_tb]
theorem State.inject_frame (s : State) (k : Packet) :
    (State.inject s k).pending = s.pending ∧ (State.inject s k).out = s.out ∧ (State.inject s k).fresh = s.fresh ∧ (State.inject s k).order = s.order ∧ (State.inject s k).variant36 = s.variant36 ∧ (State.inject s k).enabled = s.enabled ∧ (State.inject s k).clusters = s.clusters ∧ (State.inject s k).tarn = s.tarn ∧ (State.inject s k).mem = s.mem ∧ (State.inject s k).poison = s.poison ∧ (State.inject s k).pages = s.pages ∧ (State.inject s k).zeroRuns = s.zeroRuns ∧ (State.inject s k).regions = s.regions ∧ (State.inject s k).domains = s.domains ∧ (State.inject s k).xings = s.xings ∧ (State.inject s k).tb = s.tb ∧ (State.inject s k).routes = s.routes ∧ (State.inject s k).perimRoutes = s.perimRoutes ∧ (State.inject s k).fabLinks = s.fabLinks ∧ (State.inject s k).discards = s.discards ∧ (State.inject s k).parts = s.parts ∧ (State.inject s k).ctxs = s.ctxs ∧ (State.inject s k).qps = s.qps ∧ (State.inject s k).fns = s.fns ∧ (State.inject s k).links = s.links ∧ (State.inject s k).ports = s.ports ∧ (State.inject s k).hbms = s.hbms ∧ (State.inject s k).cxlPorts = s.cxlPorts ∧ (State.inject s k).windows = s.windows ∧ (State.inject s k).cores = s.cores ∧ (State.inject s k).dir = s.dir ∧ (State.inject s k).bpm = s.bpm ∧ (State.inject s k).cool = s.cool ∧ (State.inject s k).mgt = s.mgt ∧ (State.inject s k).sec = s.sec ∧ (State.inject s k).boot = s.boot ∧ (State.inject s k).regs = s.regs ∧ (State.inject s k).sels = s.sels ∧ (State.inject s k).halves = s.halves := by
  generalize h_ : State.inject s k = t_
  unfold State.inject at h_
  (try dsimp only at h_)
  (repeat' split at h_) <;> subst h_ <;> simp
@[simp] theorem State.inject_pending (s : State) (k : Packet) : (State.inject s k).pending = s.pending := (State.inject_frame s k).1
@[simp] theorem State.inject_out (s : State) (k : Packet) : (State.inject s k).out = s.out := (State.inject_frame s k).2.1
@[simp] theorem State.inject_fresh (s : State) (k : Packet) : (State.inject s k).fresh = s.fresh := (State.inject_frame s k).2.2.1
@[simp] theorem State.inject_order (s : State) (k : Packet) : (State.inject s k).order = s.order := (State.inject_frame s k).2.2.2.1
@[simp] theorem State.inject_variant36 (s : State) (k : Packet) : (State.inject s k).variant36 = s.variant36 := (State.inject_frame s k).2.2.2.2.1
@[simp] theorem State.inject_enabled (s : State) (k : Packet) : (State.inject s k).enabled = s.enabled := (State.inject_frame s k).2.2.2.2.2.1
@[simp] theorem State.inject_clusters (s : State) (k : Packet) : (State.inject s k).clusters = s.clusters := (State.inject_frame s k).2.2.2.2.2.2.1
@[simp] theorem State.inject_tarn (s : State) (k : Packet) : (State.inject s k).tarn = s.tarn := (State.inject_frame s k).2.2.2.2.2.2.2.1
@[simp] theorem State.inject_mem (s : State) (k : Packet) : (State.inject s k).mem = s.mem := (State.inject_frame s k).2.2.2.2.2.2.2.2.1
@[simp] theorem State.inject_poison (s : State) (k : Packet) : (State.inject s k).poison = s.poison := (State.inject_frame s k).2.2.2.2.2.2.2.2.2.1
@[simp] theorem State.inject_pages (s : State) (k : Packet) : (State.inject s k).pages = s.pages := (State.inject_frame s k).2.2.2.2.2.2.2.2.2.2.1
@[simp] theorem State.inject_zeroRuns (s : State) (k : Packet) : (State.inject s k).zeroRuns = s.zeroRuns := (State.inject_frame s k).2.2.2.2.2.2.2.2.2.2.2.1
@[simp] theorem State.inject_regions (s : State) (k : Packet) : (State.inject s k).regions = s.regions := (State.inject_frame s k).2.2.2.2.2.2.2.2.2.2.2.2.1
@[simp] theorem State.inject_domains (s : State) (k : Packet) : (State.inject s k).domains = s.domains := (State.inject_frame s k).2.2.2.2.2.2.2.2.2.2.2.2.2.1
@[simp] theorem State.inject_xings (s : State) (k : Packet) : (State.inject s k).xings = s.xings := (State.inject_frame s k).2.2.2.2.2.2.2.2.2.2.2.2.2.2.1
@[simp] theorem State.inject_tb (s : State) (k : Packet) : (State.inject s k).tb = s.tb := (State.inject_frame s k).2.2.2.2.2.2.2.2.2.2.2.2.2.2.2.1
@[simp] theorem State.inject_routes (s : State) (k : Packet) : (State.inject s k).routes = s.routes := (State.inject_frame s k).2.2.2.2.2.2.2.2.2.2.2.2.2.2.2.2.1
@[simp] theorem State.inject_perimRoutes (s : State) (k : Packet) : (State.inject s k).perimRoutes = s.perimRoutes := (State.inject_frame s k).2.2.2.2.2.2.2.2.2.2.2.2.2.2.2.2.2.1
@[simp] theorem State.inject_fabLinks (s : State) (k : Packet) : (State.inject s k).fabLinks = s.fabLinks := (State.inject_frame s k).2.2.2.2.2.2.2.2.2.2.2.2.2.2.2.2.2.2.1
@[simp] theorem State.inject_discards (s : State) (k : Packet) : (State.inject s k).discards = s.discards := (State.inject_frame s k).2.2.2.2.2.2.2.2.2.2.2.2.2.2.2.2.2.2.2.1
@[simp] theorem State.inject_parts (s : State) (k : Packet) : (State.inject s k).parts = s.parts := (State.inject_frame s k).2.2.2.2.2.2.2.2.2.2.2.2.2.2.2.2.2.2.2.2.1
@[simp] theorem State.inject_ctxs (s : State) (k : Packet) : (State.inject s k).ctxs = s.ctxs := (State.inject_frame s k).2.2.2.2.2.2.2.2.2.2.2.2.2.2.2.2.2.2.2.2.2.1
@[simp] theorem State.inject_qps (s : State) (k : Packet) : (State.inject s k).qps = s.qps := (State.inject_frame s k).2.2.2.2.2.2.2.2.2.2.2.2.2.2.2.2.2.2.2.2.2.2.1
@[simp] theorem State.inject_fns (s : State) (k : Packet) : (State.inject s k).fns = s.fns := (State.inject_frame s k).2.2.2.2.2.2.2.2.2.2.2.2.2.2.2.2.2.2.2.2.2.2.2.1
@[simp] theorem State.inject_links (s : State) (k : Packet) : (State.inject s k).links = s.links := (State.inject_frame s k).2.2.2.2.2.2.2.2.2.2.2.2.2.2.2.2.2.2.2.2.2.2.2.2.1
@[simp] theorem State.inject_ports (s : State) (k : Packet) : (State.inject s k).ports = s.ports := (State.inject_frame s k).2.2.2.2.2.2.2.2.2.2.2.2.2.2.2.2.2.2.2.2.2.2.2.2.2.1
@[simp] theorem State.inject_hbms (s : State) (k : Packet) : (State.inject s k).hbms = s.hbms := (State.inject_frame s k).2.2.2.2.2.2.2.2.2.2.2.2.2.2.2.2.2.2.2.2.2.2.2.2.2.2.1
@[simp] theorem State.inject_cxlPorts (s : State) (k : Packet) : (State.inject s k).cxlPorts = s.cxlPorts := (State.inject_frame s k).2.2.2.2.2.2.2.2.2.2.2.2.2.2.2.2.2.2.2.2.2.2.2.2.2.2.2.1
@[simp] theorem State.inject_windows (s : State) (k : Packet) : (State.inject s k).windows = s.windows := (State.inject_frame s k).2.2.2.2.2.2.2.2.2.2.2.2.2.2.2.2.2.2.2.2.2.2.2.2.2.2.2.2.1
@[simp] theorem State.inject_cores (s : State) (k : Packet) : (State.inject s k).cores = s.cores := (State.inject_frame s k).2.2.2.2.2.2.2.2.2.2.2.2.2.2.2.2.2.2.2.2.2.2.2.2.2.2.2.2.2.1
@[simp] theorem State.inject_dir (s : State) (k : Packet) : (State.inject s k).dir = s.dir := (State.inject_frame s k).2.2.2.2.2.2.2.2.2.2.2.2.2.2.2.2.2.2.2.2.2.2.2.2.2.2.2.2.2.2.1
@[simp] theorem State.inject_bpm (s : State) (k : Packet) : (State.inject s k).bpm = s.bpm := (State.inject_frame s k).2.2.2.2.2.2.2.2.2.2.2.2.2.2.2.2.2.2.2.2.2.2.2.2.2.2.2.2.2.2.2.1
@[simp] theorem State.inject_cool (s : State) (k : Packet) : (State.inject s k).cool = s.cool := (State.inject_frame s k).2.2.2.2.2.2.2.2.2.2.2.2.2.2.2.2.2.2.2.2.2.2.2.2.2.2.2.2.2.2.2.2.1
@[simp] theorem State.inject_mgt (s : State) (k : Packet) : (State.inject s k).mgt = s.mgt := (State.inject_frame s k).2.2.2.2.2.2.2.2.2.2.2.2.2.2.2.2.2.2.2.2.2.2.2.2.2.2.2.2.2.2.2.2.2.1
@[simp] theorem State.inject_sec (s : State) (k : Packet) : (State.inject s k).sec = s.sec := (State.inject_frame s k).2.2.2.2.2.2.2.2.2.2.2.2.2.2.2.2.2.2.2.2.2.2.2.2.2.2.2.2.2.2.2.2.2.2.1
@[simp] theorem State.inject_boot (s : State) (k : Packet) : (State.inject s k).boot = s.boot := (State.inject_frame s k).2.2.2.2.2.2.2.2.2.2.2.2.2.2.2.2.2.2.2.2.2.2.2.2.2.2.2.2.2.2.2.2.2.2.2.1
@[simp] theorem State.inject_regs (s : State) (k : Packet) : (State.inject s k).regs = s.regs := (State.inject_frame s k).2.2.2.2.2.2.2.2.2.2.2.2.2.2.2.2.2.2.2.2.2.2.2.2.2.2.2.2.2.2.2.2.2.2.2.2.1
@[simp] theorem State.inject_sels (s : State) (k : Packet) : (State.inject s k).sels = s.sels := (State.inject_frame s k).2.2.2.2.2.2.2.2.2.2.2.2.2.2.2.2.2.2.2.2.2.2.2.2.2.2.2.2.2.2.2.2.2.2.2.2.2.1
@[simp] theorem State.inject_halves (s : State) (k : Packet) : (State.inject s k).halves = s.halves := (State.inject_frame s k).2.2.2.2.2.2.2.2.2.2.2.2.2.2.2.2.2.2.2.2.2.2.2.2.2.2.2.2.2.2.2.2.2.2.2.2.2.2
@[simp] theorem State.inject_cl (s : State) (k : Packet) (j_ : Nat) : (State.inject s k).cl j_ = s.cl j_ := by simp only [State.cl_def, State.inject_clusters]
@[simp] theorem State.inject_part (s : State) (k : Packet) (j_ : Nat) : (State.inject s k).part j_ = s.part j_ := by simp only [State.part_def, State.inject_parts]
@[simp] theorem State.inject_ctx (s : State) (k : Packet) (j_ : Nat) : (State.inject s k).ctx j_ = s.ctx j_ := by simp only [State.ctx_def, State.inject_ctxs]
@[simp] theorem State.inject_qp (s : State) (k : Packet) (j_ : Nat) : (State.inject s k).qp j_ = s.qp j_ := by simp only [State.qp_def, State.inject_qps]
@[simp] theorem State.inject_fn (s : State) (k : Packet) (j_ : Nat) : (State.inject s k).fn j_ = s.fn j_ := by simp only [State.fn_def, State.inject_fns]
@[simp] theorem State.inject_link (s : State) (k : Packet) (j_ : Nat) : (State.inject s k).link j_ = s.link j_ := by simp only [State.link_def, State.inject_links]
@[simp] theorem State.inject_port (s : State) (k : Packet) (j_ : Nat) : (State.inject s k).port j_ = s.port j_ := by simp only [State.port_def, State.inject_ports]
@[simp] theorem State.inject_region (s : State) (k : Packet) (j_ : Nat) : (State.inject s k).region j_ = s.region j_ := by simp only [State.region_def, State.inject_regions]
@[simp] theorem State.inject_domain (s : State) (k : Packet) (j_ : Nat) : (State.inject s k).domain j_ = s.domain j_ := by simp only [State.domain_def, State.inject_domains]
@[simp] theorem State.inject_xing (s : State) (k : Packet) (j_ : Nat) : (State.inject s k).xing j_ = s.xing j_ := by simp only [State.xing_def, State.inject_xings]
@[simp] theorem State.inject_hbm (s : State) (k : Packet) (j_ : Nat) : (State.inject s k).hbm j_ = s.hbm j_ := by simp only [State.hbm_def, State.inject_hbms]
@[simp] theorem State.inject_cxl (s : State) (k : Packet) (j_ : Nat) : (State.inject s k).cxl j_ = s.cxl j_ := by simp only [State.cxl_def, State.inject_cxlPorts]
@[simp] theorem State.inject_win (s : State) (k : Packet) (j_ : Nat) : (State.inject s k).win j_ = s.win j_ := by simp only [State.win_def, State.inject_windows]
@[simp] theorem State.inject_core (s : State) (k : Packet) (j_ : Nat) : (State.inject s k).core j_ = s.core j_ := by simp only [State.core_def, State.inject_cores]
@[simp] theorem State.inject_dirLine (s : State) (k : Packet) (j_ : Nat) : (State.inject s k).dirLine j_ = s.dirLine j_ := by simp only [State.dirLine_def, State.inject_dir]
@[simp] theorem State.inject_page (s : State) (k : Packet) (j_ : Nat) : (State.inject s k).page j_ = s.page j_ := by simp only [State.page_def, State.inject_pages]
@[simp] theorem State.inject_trow (s : State) (k : Packet) (c_ n_ : Nat) : (State.inject s k).trow c_ n_ = s.trow c_ n_ := by simp only [State.trow_def, State.inject_tarn]
@[simp] theorem State.inject_rawByte (s : State) (k : Packet) (a_ : Nat) : (State.inject s k).rawByte a_ = s.rawByte a_ := by simp only [State.rawByte_def, State.inject_mem]
@[simp] theorem State.inject_now (s : State) (k : Packet) : (State.inject s k).now = s.now := by simp only [State.now_def, State.inject_tb]
theorem State.touch_frame (s : State) (c n : Nat) :
    (State.touch s c n).pending = s.pending ∧ (State.touch s c n).out = s.out ∧ (State.touch s c n).fresh = s.fresh ∧ (State.touch s c n).order = s.order ∧ (State.touch s c n).variant36 = s.variant36 ∧ (State.touch s c n).enabled = s.enabled ∧ (State.touch s c n).tarn = s.tarn ∧ (State.touch s c n).mem = s.mem ∧ (State.touch s c n).poison = s.poison ∧ (State.touch s c n).pages = s.pages ∧ (State.touch s c n).zeroRuns = s.zeroRuns ∧ (State.touch s c n).regions = s.regions ∧ (State.touch s c n).domains = s.domains ∧ (State.touch s c n).xings = s.xings ∧ (State.touch s c n).tb = s.tb ∧ (State.touch s c n).routes = s.routes ∧ (State.touch s c n).perimRoutes = s.perimRoutes ∧ (State.touch s c n).fabLinks = s.fabLinks ∧ (State.touch s c n).discards = s.discards ∧ (State.touch s c n).parts = s.parts ∧ (State.touch s c n).ctxs = s.ctxs ∧ (State.touch s c n).qps = s.qps ∧ (State.touch s c n).fns = s.fns ∧ (State.touch s c n).links = s.links ∧ (State.touch s c n).ports = s.ports ∧ (State.touch s c n).hbms = s.hbms ∧ (State.touch s c n).cxlPorts = s.cxlPorts ∧ (State.touch s c n).windows = s.windows ∧ (State.touch s c n).cores = s.cores ∧ (State.touch s c n).dir = s.dir ∧ (State.touch s c n).bpm = s.bpm ∧ (State.touch s c n).cool = s.cool ∧ (State.touch s c n).mgt = s.mgt ∧ (State.touch s c n).sec = s.sec ∧ (State.touch s c n).boot = s.boot ∧ (State.touch s c n).regs = s.regs ∧ (State.touch s c n).sels = s.sels ∧ (State.touch s c n).halves = s.halves := by
  generalize h_ : State.touch s c n = t_
  unfold State.touch at h_
  (try dsimp only at h_)
  (repeat' split at h_) <;> subst h_ <;> simp
@[simp] theorem State.touch_pending (s : State) (c n : Nat) : (State.touch s c n).pending = s.pending := (State.touch_frame s c n).1
@[simp] theorem State.touch_out (s : State) (c n : Nat) : (State.touch s c n).out = s.out := (State.touch_frame s c n).2.1
@[simp] theorem State.touch_fresh (s : State) (c n : Nat) : (State.touch s c n).fresh = s.fresh := (State.touch_frame s c n).2.2.1
@[simp] theorem State.touch_order (s : State) (c n : Nat) : (State.touch s c n).order = s.order := (State.touch_frame s c n).2.2.2.1
@[simp] theorem State.touch_variant36 (s : State) (c n : Nat) : (State.touch s c n).variant36 = s.variant36 := (State.touch_frame s c n).2.2.2.2.1
@[simp] theorem State.touch_enabled (s : State) (c n : Nat) : (State.touch s c n).enabled = s.enabled := (State.touch_frame s c n).2.2.2.2.2.1
@[simp] theorem State.touch_tarn (s : State) (c n : Nat) : (State.touch s c n).tarn = s.tarn := (State.touch_frame s c n).2.2.2.2.2.2.1
@[simp] theorem State.touch_mem (s : State) (c n : Nat) : (State.touch s c n).mem = s.mem := (State.touch_frame s c n).2.2.2.2.2.2.2.1
@[simp] theorem State.touch_poison (s : State) (c n : Nat) : (State.touch s c n).poison = s.poison := (State.touch_frame s c n).2.2.2.2.2.2.2.2.1
@[simp] theorem State.touch_pages (s : State) (c n : Nat) : (State.touch s c n).pages = s.pages := (State.touch_frame s c n).2.2.2.2.2.2.2.2.2.1
@[simp] theorem State.touch_zeroRuns (s : State) (c n : Nat) : (State.touch s c n).zeroRuns = s.zeroRuns := (State.touch_frame s c n).2.2.2.2.2.2.2.2.2.2.1
@[simp] theorem State.touch_regions (s : State) (c n : Nat) : (State.touch s c n).regions = s.regions := (State.touch_frame s c n).2.2.2.2.2.2.2.2.2.2.2.1
@[simp] theorem State.touch_domains (s : State) (c n : Nat) : (State.touch s c n).domains = s.domains := (State.touch_frame s c n).2.2.2.2.2.2.2.2.2.2.2.2.1
@[simp] theorem State.touch_xings (s : State) (c n : Nat) : (State.touch s c n).xings = s.xings := (State.touch_frame s c n).2.2.2.2.2.2.2.2.2.2.2.2.2.1
@[simp] theorem State.touch_tb (s : State) (c n : Nat) : (State.touch s c n).tb = s.tb := (State.touch_frame s c n).2.2.2.2.2.2.2.2.2.2.2.2.2.2.1
@[simp] theorem State.touch_routes (s : State) (c n : Nat) : (State.touch s c n).routes = s.routes := (State.touch_frame s c n).2.2.2.2.2.2.2.2.2.2.2.2.2.2.2.1
@[simp] theorem State.touch_perimRoutes (s : State) (c n : Nat) : (State.touch s c n).perimRoutes = s.perimRoutes := (State.touch_frame s c n).2.2.2.2.2.2.2.2.2.2.2.2.2.2.2.2.1
@[simp] theorem State.touch_fabLinks (s : State) (c n : Nat) : (State.touch s c n).fabLinks = s.fabLinks := (State.touch_frame s c n).2.2.2.2.2.2.2.2.2.2.2.2.2.2.2.2.2.1
@[simp] theorem State.touch_discards (s : State) (c n : Nat) : (State.touch s c n).discards = s.discards := (State.touch_frame s c n).2.2.2.2.2.2.2.2.2.2.2.2.2.2.2.2.2.2.1
@[simp] theorem State.touch_parts (s : State) (c n : Nat) : (State.touch s c n).parts = s.parts := (State.touch_frame s c n).2.2.2.2.2.2.2.2.2.2.2.2.2.2.2.2.2.2.2.1
@[simp] theorem State.touch_ctxs (s : State) (c n : Nat) : (State.touch s c n).ctxs = s.ctxs := (State.touch_frame s c n).2.2.2.2.2.2.2.2.2.2.2.2.2.2.2.2.2.2.2.2.1
@[simp] theorem State.touch_qps (s : State) (c n : Nat) : (State.touch s c n).qps = s.qps := (State.touch_frame s c n).2.2.2.2.2.2.2.2.2.2.2.2.2.2.2.2.2.2.2.2.2.1
@[simp] theorem State.touch_fns (s : State) (c n : Nat) : (State.touch s c n).fns = s.fns := (State.touch_frame s c n).2.2.2.2.2.2.2.2.2.2.2.2.2.2.2.2.2.2.2.2.2.2.1
@[simp] theorem State.touch_links (s : State) (c n : Nat) : (State.touch s c n).links = s.links := (State.touch_frame s c n).2.2.2.2.2.2.2.2.2.2.2.2.2.2.2.2.2.2.2.2.2.2.2.1
@[simp] theorem State.touch_ports (s : State) (c n : Nat) : (State.touch s c n).ports = s.ports := (State.touch_frame s c n).2.2.2.2.2.2.2.2.2.2.2.2.2.2.2.2.2.2.2.2.2.2.2.2.1
@[simp] theorem State.touch_hbms (s : State) (c n : Nat) : (State.touch s c n).hbms = s.hbms := (State.touch_frame s c n).2.2.2.2.2.2.2.2.2.2.2.2.2.2.2.2.2.2.2.2.2.2.2.2.2.1
@[simp] theorem State.touch_cxlPorts (s : State) (c n : Nat) : (State.touch s c n).cxlPorts = s.cxlPorts := (State.touch_frame s c n).2.2.2.2.2.2.2.2.2.2.2.2.2.2.2.2.2.2.2.2.2.2.2.2.2.2.1
@[simp] theorem State.touch_windows (s : State) (c n : Nat) : (State.touch s c n).windows = s.windows := (State.touch_frame s c n).2.2.2.2.2.2.2.2.2.2.2.2.2.2.2.2.2.2.2.2.2.2.2.2.2.2.2.1
@[simp] theorem State.touch_cores (s : State) (c n : Nat) : (State.touch s c n).cores = s.cores := (State.touch_frame s c n).2.2.2.2.2.2.2.2.2.2.2.2.2.2.2.2.2.2.2.2.2.2.2.2.2.2.2.2.1
@[simp] theorem State.touch_dir (s : State) (c n : Nat) : (State.touch s c n).dir = s.dir := (State.touch_frame s c n).2.2.2.2.2.2.2.2.2.2.2.2.2.2.2.2.2.2.2.2.2.2.2.2.2.2.2.2.2.1
@[simp] theorem State.touch_bpm (s : State) (c n : Nat) : (State.touch s c n).bpm = s.bpm := (State.touch_frame s c n).2.2.2.2.2.2.2.2.2.2.2.2.2.2.2.2.2.2.2.2.2.2.2.2.2.2.2.2.2.2.1
@[simp] theorem State.touch_cool (s : State) (c n : Nat) : (State.touch s c n).cool = s.cool := (State.touch_frame s c n).2.2.2.2.2.2.2.2.2.2.2.2.2.2.2.2.2.2.2.2.2.2.2.2.2.2.2.2.2.2.2.1
@[simp] theorem State.touch_mgt (s : State) (c n : Nat) : (State.touch s c n).mgt = s.mgt := (State.touch_frame s c n).2.2.2.2.2.2.2.2.2.2.2.2.2.2.2.2.2.2.2.2.2.2.2.2.2.2.2.2.2.2.2.2.1
@[simp] theorem State.touch_sec (s : State) (c n : Nat) : (State.touch s c n).sec = s.sec := (State.touch_frame s c n).2.2.2.2.2.2.2.2.2.2.2.2.2.2.2.2.2.2.2.2.2.2.2.2.2.2.2.2.2.2.2.2.2.1
@[simp] theorem State.touch_boot (s : State) (c n : Nat) : (State.touch s c n).boot = s.boot := (State.touch_frame s c n).2.2.2.2.2.2.2.2.2.2.2.2.2.2.2.2.2.2.2.2.2.2.2.2.2.2.2.2.2.2.2.2.2.2.1
@[simp] theorem State.touch_regs (s : State) (c n : Nat) : (State.touch s c n).regs = s.regs := (State.touch_frame s c n).2.2.2.2.2.2.2.2.2.2.2.2.2.2.2.2.2.2.2.2.2.2.2.2.2.2.2.2.2.2.2.2.2.2.2.1
@[simp] theorem State.touch_sels (s : State) (c n : Nat) : (State.touch s c n).sels = s.sels := (State.touch_frame s c n).2.2.2.2.2.2.2.2.2.2.2.2.2.2.2.2.2.2.2.2.2.2.2.2.2.2.2.2.2.2.2.2.2.2.2.2.1
@[simp] theorem State.touch_halves (s : State) (c n : Nat) : (State.touch s c n).halves = s.halves := (State.touch_frame s c n).2.2.2.2.2.2.2.2.2.2.2.2.2.2.2.2.2.2.2.2.2.2.2.2.2.2.2.2.2.2.2.2.2.2.2.2.2
@[simp] theorem State.touch_part (s : State) (c n : Nat) (j_ : Nat) : (State.touch s c n).part j_ = s.part j_ := by simp only [State.part_def, State.touch_parts]
@[simp] theorem State.touch_ctx (s : State) (c n : Nat) (j_ : Nat) : (State.touch s c n).ctx j_ = s.ctx j_ := by simp only [State.ctx_def, State.touch_ctxs]
@[simp] theorem State.touch_qp (s : State) (c n : Nat) (j_ : Nat) : (State.touch s c n).qp j_ = s.qp j_ := by simp only [State.qp_def, State.touch_qps]
@[simp] theorem State.touch_fn (s : State) (c n : Nat) (j_ : Nat) : (State.touch s c n).fn j_ = s.fn j_ := by simp only [State.fn_def, State.touch_fns]
@[simp] theorem State.touch_link (s : State) (c n : Nat) (j_ : Nat) : (State.touch s c n).link j_ = s.link j_ := by simp only [State.link_def, State.touch_links]
@[simp] theorem State.touch_port (s : State) (c n : Nat) (j_ : Nat) : (State.touch s c n).port j_ = s.port j_ := by simp only [State.port_def, State.touch_ports]
@[simp] theorem State.touch_region (s : State) (c n : Nat) (j_ : Nat) : (State.touch s c n).region j_ = s.region j_ := by simp only [State.region_def, State.touch_regions]
@[simp] theorem State.touch_domain (s : State) (c n : Nat) (j_ : Nat) : (State.touch s c n).domain j_ = s.domain j_ := by simp only [State.domain_def, State.touch_domains]
@[simp] theorem State.touch_xing (s : State) (c n : Nat) (j_ : Nat) : (State.touch s c n).xing j_ = s.xing j_ := by simp only [State.xing_def, State.touch_xings]
@[simp] theorem State.touch_hbm (s : State) (c n : Nat) (j_ : Nat) : (State.touch s c n).hbm j_ = s.hbm j_ := by simp only [State.hbm_def, State.touch_hbms]
@[simp] theorem State.touch_cxl (s : State) (c n : Nat) (j_ : Nat) : (State.touch s c n).cxl j_ = s.cxl j_ := by simp only [State.cxl_def, State.touch_cxlPorts]
@[simp] theorem State.touch_win (s : State) (c n : Nat) (j_ : Nat) : (State.touch s c n).win j_ = s.win j_ := by simp only [State.win_def, State.touch_windows]
@[simp] theorem State.touch_core (s : State) (c n : Nat) (j_ : Nat) : (State.touch s c n).core j_ = s.core j_ := by simp only [State.core_def, State.touch_cores]
@[simp] theorem State.touch_dirLine (s : State) (c n : Nat) (j_ : Nat) : (State.touch s c n).dirLine j_ = s.dirLine j_ := by simp only [State.dirLine_def, State.touch_dir]
@[simp] theorem State.touch_page (s : State) (c n : Nat) (j_ : Nat) : (State.touch s c n).page j_ = s.page j_ := by simp only [State.page_def, State.touch_pages]
@[simp] theorem State.touch_trow (s : State) (c n : Nat) (c_ n_ : Nat) : (State.touch s c n).trow c_ n_ = s.trow c_ n_ := by simp only [State.trow_def, State.touch_tarn]
@[simp] theorem State.touch_rawByte (s : State) (c n : Nat) (a_ : Nat) : (State.touch s c n).rawByte a_ = s.rawByte a_ := by simp only [State.rawByte_def, State.touch_mem]
@[simp] theorem State.touch_now (s : State) (c n : Nat) : (State.touch s c n).now = s.now := by simp only [State.now_def, State.touch_tb]
theorem State.writeHandle_frame (s : State) (c h : Nat) (e : HandleEntry) :
    (State.writeHandle s c h e).pending = s.pending ∧ (State.writeHandle s c h e).out = s.out ∧ (State.writeHandle s c h e).fresh = s.fresh ∧ (State.writeHandle s c h e).order = s.order ∧ (State.writeHandle s c h e).variant36 = s.variant36 ∧ (State.writeHandle s c h e).enabled = s.enabled ∧ (State.writeHandle s c h e).tarn = s.tarn ∧ (State.writeHandle s c h e).mem = s.mem ∧ (State.writeHandle s c h e).poison = s.poison ∧ (State.writeHandle s c h e).pages = s.pages ∧ (State.writeHandle s c h e).zeroRuns = s.zeroRuns ∧ (State.writeHandle s c h e).regions = s.regions ∧ (State.writeHandle s c h e).domains = s.domains ∧ (State.writeHandle s c h e).xings = s.xings ∧ (State.writeHandle s c h e).tb = s.tb ∧ (State.writeHandle s c h e).net = s.net ∧ (State.writeHandle s c h e).nextPkt = s.nextPkt ∧ (State.writeHandle s c h e).routes = s.routes ∧ (State.writeHandle s c h e).perimRoutes = s.perimRoutes ∧ (State.writeHandle s c h e).fabLinks = s.fabLinks ∧ (State.writeHandle s c h e).discards = s.discards ∧ (State.writeHandle s c h e).parts = s.parts ∧ (State.writeHandle s c h e).ctxs = s.ctxs ∧ (State.writeHandle s c h e).qps = s.qps ∧ (State.writeHandle s c h e).fns = s.fns ∧ (State.writeHandle s c h e).links = s.links ∧ (State.writeHandle s c h e).ports = s.ports ∧ (State.writeHandle s c h e).hbms = s.hbms ∧ (State.writeHandle s c h e).cxlPorts = s.cxlPorts ∧ (State.writeHandle s c h e).windows = s.windows ∧ (State.writeHandle s c h e).cores = s.cores ∧ (State.writeHandle s c h e).dir = s.dir ∧ (State.writeHandle s c h e).bpm = s.bpm ∧ (State.writeHandle s c h e).cool = s.cool ∧ (State.writeHandle s c h e).mgt = s.mgt ∧ (State.writeHandle s c h e).sec = s.sec ∧ (State.writeHandle s c h e).boot = s.boot ∧ (State.writeHandle s c h e).regs = s.regs ∧ (State.writeHandle s c h e).sels = s.sels ∧ (State.writeHandle s c h e).halves = s.halves := by
  generalize h_ : State.writeHandle s c h e = t_
  unfold State.writeHandle at h_
  (try dsimp only at h_)
  (repeat' split at h_) <;> subst h_ <;> simp
@[simp] theorem State.writeHandle_pending (s : State) (c h : Nat) (e : HandleEntry) : (State.writeHandle s c h e).pending = s.pending := (State.writeHandle_frame s c h e).1
@[simp] theorem State.writeHandle_out (s : State) (c h : Nat) (e : HandleEntry) : (State.writeHandle s c h e).out = s.out := (State.writeHandle_frame s c h e).2.1
@[simp] theorem State.writeHandle_fresh (s : State) (c h : Nat) (e : HandleEntry) : (State.writeHandle s c h e).fresh = s.fresh := (State.writeHandle_frame s c h e).2.2.1
@[simp] theorem State.writeHandle_order (s : State) (c h : Nat) (e : HandleEntry) : (State.writeHandle s c h e).order = s.order := (State.writeHandle_frame s c h e).2.2.2.1
@[simp] theorem State.writeHandle_variant36 (s : State) (c h : Nat) (e : HandleEntry) : (State.writeHandle s c h e).variant36 = s.variant36 := (State.writeHandle_frame s c h e).2.2.2.2.1
@[simp] theorem State.writeHandle_enabled (s : State) (c h : Nat) (e : HandleEntry) : (State.writeHandle s c h e).enabled = s.enabled := (State.writeHandle_frame s c h e).2.2.2.2.2.1
@[simp] theorem State.writeHandle_tarn (s : State) (c h : Nat) (e : HandleEntry) : (State.writeHandle s c h e).tarn = s.tarn := (State.writeHandle_frame s c h e).2.2.2.2.2.2.1
@[simp] theorem State.writeHandle_mem (s : State) (c h : Nat) (e : HandleEntry) : (State.writeHandle s c h e).mem = s.mem := (State.writeHandle_frame s c h e).2.2.2.2.2.2.2.1
@[simp] theorem State.writeHandle_poison (s : State) (c h : Nat) (e : HandleEntry) : (State.writeHandle s c h e).poison = s.poison := (State.writeHandle_frame s c h e).2.2.2.2.2.2.2.2.1
@[simp] theorem State.writeHandle_pages (s : State) (c h : Nat) (e : HandleEntry) : (State.writeHandle s c h e).pages = s.pages := (State.writeHandle_frame s c h e).2.2.2.2.2.2.2.2.2.1
@[simp] theorem State.writeHandle_zeroRuns (s : State) (c h : Nat) (e : HandleEntry) : (State.writeHandle s c h e).zeroRuns = s.zeroRuns := (State.writeHandle_frame s c h e).2.2.2.2.2.2.2.2.2.2.1
@[simp] theorem State.writeHandle_regions (s : State) (c h : Nat) (e : HandleEntry) : (State.writeHandle s c h e).regions = s.regions := (State.writeHandle_frame s c h e).2.2.2.2.2.2.2.2.2.2.2.1
@[simp] theorem State.writeHandle_domains (s : State) (c h : Nat) (e : HandleEntry) : (State.writeHandle s c h e).domains = s.domains := (State.writeHandle_frame s c h e).2.2.2.2.2.2.2.2.2.2.2.2.1
@[simp] theorem State.writeHandle_xings (s : State) (c h : Nat) (e : HandleEntry) : (State.writeHandle s c h e).xings = s.xings := (State.writeHandle_frame s c h e).2.2.2.2.2.2.2.2.2.2.2.2.2.1
@[simp] theorem State.writeHandle_tb (s : State) (c h : Nat) (e : HandleEntry) : (State.writeHandle s c h e).tb = s.tb := (State.writeHandle_frame s c h e).2.2.2.2.2.2.2.2.2.2.2.2.2.2.1
@[simp] theorem State.writeHandle_net (s : State) (c h : Nat) (e : HandleEntry) : (State.writeHandle s c h e).net = s.net := (State.writeHandle_frame s c h e).2.2.2.2.2.2.2.2.2.2.2.2.2.2.2.1
@[simp] theorem State.writeHandle_nextPkt (s : State) (c h : Nat) (e : HandleEntry) : (State.writeHandle s c h e).nextPkt = s.nextPkt := (State.writeHandle_frame s c h e).2.2.2.2.2.2.2.2.2.2.2.2.2.2.2.2.1
@[simp] theorem State.writeHandle_routes (s : State) (c h : Nat) (e : HandleEntry) : (State.writeHandle s c h e).routes = s.routes := (State.writeHandle_frame s c h e).2.2.2.2.2.2.2.2.2.2.2.2.2.2.2.2.2.1
@[simp] theorem State.writeHandle_perimRoutes (s : State) (c h : Nat) (e : HandleEntry) : (State.writeHandle s c h e).perimRoutes = s.perimRoutes := (State.writeHandle_frame s c h e).2.2.2.2.2.2.2.2.2.2.2.2.2.2.2.2.2.2.1
@[simp] theorem State.writeHandle_fabLinks (s : State) (c h : Nat) (e : HandleEntry) : (State.writeHandle s c h e).fabLinks = s.fabLinks := (State.writeHandle_frame s c h e).2.2.2.2.2.2.2.2.2.2.2.2.2.2.2.2.2.2.2.1
@[simp] theorem State.writeHandle_discards (s : State) (c h : Nat) (e : HandleEntry) : (State.writeHandle s c h e).discards = s.discards := (State.writeHandle_frame s c h e).2.2.2.2.2.2.2.2.2.2.2.2.2.2.2.2.2.2.2.2.1
@[simp] theorem State.writeHandle_parts (s : State) (c h : Nat) (e : HandleEntry) : (State.writeHandle s c h e).parts = s.parts := (State.writeHandle_frame s c h e).2.2.2.2.2.2.2.2.2.2.2.2.2.2.2.2.2.2.2.2.2.1
@[simp] theorem State.writeHandle_ctxs (s : State) (c h : Nat) (e : HandleEntry) : (State.writeHandle s c h e).ctxs = s.ctxs := (State.writeHandle_frame s c h e).2.2.2.2.2.2.2.2.2.2.2.2.2.2.2.2.2.2.2.2.2.2.1
@[simp] theorem State.writeHandle_qps (s : State) (c h : Nat) (e : HandleEntry) : (State.writeHandle s c h e).qps = s.qps := (State.writeHandle_frame s c h e).2.2.2.2.2.2.2.2.2.2.2.2.2.2.2.2.2.2.2.2.2.2.2.1
@[simp] theorem State.writeHandle_fns (s : State) (c h : Nat) (e : HandleEntry) : (State.writeHandle s c h e).fns = s.fns := (State.writeHandle_frame s c h e).2.2.2.2.2.2.2.2.2.2.2.2.2.2.2.2.2.2.2.2.2.2.2.2.1
@[simp] theorem State.writeHandle_links (s : State) (c h : Nat) (e : HandleEntry) : (State.writeHandle s c h e).links = s.links := (State.writeHandle_frame s c h e).2.2.2.2.2.2.2.2.2.2.2.2.2.2.2.2.2.2.2.2.2.2.2.2.2.1
@[simp] theorem State.writeHandle_ports (s : State) (c h : Nat) (e : HandleEntry) : (State.writeHandle s c h e).ports = s.ports := (State.writeHandle_frame s c h e).2.2.2.2.2.2.2.2.2.2.2.2.2.2.2.2.2.2.2.2.2.2.2.2.2.2.1
@[simp] theorem State.writeHandle_hbms (s : State) (c h : Nat) (e : HandleEntry) : (State.writeHandle s c h e).hbms = s.hbms := (State.writeHandle_frame s c h e).2.2.2.2.2.2.2.2.2.2.2.2.2.2.2.2.2.2.2.2.2.2.2.2.2.2.2.1
@[simp] theorem State.writeHandle_cxlPorts (s : State) (c h : Nat) (e : HandleEntry) : (State.writeHandle s c h e).cxlPorts = s.cxlPorts := (State.writeHandle_frame s c h e).2.2.2.2.2.2.2.2.2.2.2.2.2.2.2.2.2.2.2.2.2.2.2.2.2.2.2.2.1
@[simp] theorem State.writeHandle_windows (s : State) (c h : Nat) (e : HandleEntry) : (State.writeHandle s c h e).windows = s.windows := (State.writeHandle_frame s c h e).2.2.2.2.2.2.2.2.2.2.2.2.2.2.2.2.2.2.2.2.2.2.2.2.2.2.2.2.2.1
@[simp] theorem State.writeHandle_cores (s : State) (c h : Nat) (e : HandleEntry) : (State.writeHandle s c h e).cores = s.cores := (State.writeHandle_frame s c h e).2.2.2.2.2.2.2.2.2.2.2.2.2.2.2.2.2.2.2.2.2.2.2.2.2.2.2.2.2.2.1
@[simp] theorem State.writeHandle_dir (s : State) (c h : Nat) (e : HandleEntry) : (State.writeHandle s c h e).dir = s.dir := (State.writeHandle_frame s c h e).2.2.2.2.2.2.2.2.2.2.2.2.2.2.2.2.2.2.2.2.2.2.2.2.2.2.2.2.2.2.2.1
@[simp] theorem State.writeHandle_bpm (s : State) (c h : Nat) (e : HandleEntry) : (State.writeHandle s c h e).bpm = s.bpm := (State.writeHandle_frame s c h e).2.2.2.2.2.2.2.2.2.2.2.2.2.2.2.2.2.2.2.2.2.2.2.2.2.2.2.2.2.2.2.2.1
@[simp] theorem State.writeHandle_cool (s : State) (c h : Nat) (e : HandleEntry) : (State.writeHandle s c h e).cool = s.cool := (State.writeHandle_frame s c h e).2.2.2.2.2.2.2.2.2.2.2.2.2.2.2.2.2.2.2.2.2.2.2.2.2.2.2.2.2.2.2.2.2.1
@[simp] theorem State.writeHandle_mgt (s : State) (c h : Nat) (e : HandleEntry) : (State.writeHandle s c h e).mgt = s.mgt := (State.writeHandle_frame s c h e).2.2.2.2.2.2.2.2.2.2.2.2.2.2.2.2.2.2.2.2.2.2.2.2.2.2.2.2.2.2.2.2.2.2.1
@[simp] theorem State.writeHandle_sec (s : State) (c h : Nat) (e : HandleEntry) : (State.writeHandle s c h e).sec = s.sec := (State.writeHandle_frame s c h e).2.2.2.2.2.2.2.2.2.2.2.2.2.2.2.2.2.2.2.2.2.2.2.2.2.2.2.2.2.2.2.2.2.2.2.1
@[simp] theorem State.writeHandle_boot (s : State) (c h : Nat) (e : HandleEntry) : (State.writeHandle s c h e).boot = s.boot := (State.writeHandle_frame s c h e).2.2.2.2.2.2.2.2.2.2.2.2.2.2.2.2.2.2.2.2.2.2.2.2.2.2.2.2.2.2.2.2.2.2.2.2.1
@[simp] theorem State.writeHandle_regs (s : State) (c h : Nat) (e : HandleEntry) : (State.writeHandle s c h e).regs = s.regs := (State.writeHandle_frame s c h e).2.2.2.2.2.2.2.2.2.2.2.2.2.2.2.2.2.2.2.2.2.2.2.2.2.2.2.2.2.2.2.2.2.2.2.2.2.1
@[simp] theorem State.writeHandle_sels (s : State) (c h : Nat) (e : HandleEntry) : (State.writeHandle s c h e).sels = s.sels := (State.writeHandle_frame s c h e).2.2.2.2.2.2.2.2.2.2.2.2.2.2.2.2.2.2.2.2.2.2.2.2.2.2.2.2.2.2.2.2.2.2.2.2.2.2.1
@[simp] theorem State.writeHandle_halves (s : State) (c h : Nat) (e : HandleEntry) : (State.writeHandle s c h e).halves = s.halves := (State.writeHandle_frame s c h e).2.2.2.2.2.2.2.2.2.2.2.2.2.2.2.2.2.2.2.2.2.2.2.2.2.2.2.2.2.2.2.2.2.2.2.2.2.2.2
@[simp] theorem State.writeHandle_part (s : State) (c h : Nat) (e : HandleEntry) (j_ : Nat) : (State.writeHandle s c h e).part j_ = s.part j_ := by simp only [State.part_def, State.writeHandle_parts]
@[simp] theorem State.writeHandle_ctx (s : State) (c h : Nat) (e : HandleEntry) (j_ : Nat) : (State.writeHandle s c h e).ctx j_ = s.ctx j_ := by simp only [State.ctx_def, State.writeHandle_ctxs]
@[simp] theorem State.writeHandle_qp (s : State) (c h : Nat) (e : HandleEntry) (j_ : Nat) : (State.writeHandle s c h e).qp j_ = s.qp j_ := by simp only [State.qp_def, State.writeHandle_qps]
@[simp] theorem State.writeHandle_fn (s : State) (c h : Nat) (e : HandleEntry) (j_ : Nat) : (State.writeHandle s c h e).fn j_ = s.fn j_ := by simp only [State.fn_def, State.writeHandle_fns]
@[simp] theorem State.writeHandle_link (s : State) (c h : Nat) (e : HandleEntry) (j_ : Nat) : (State.writeHandle s c h e).link j_ = s.link j_ := by simp only [State.link_def, State.writeHandle_links]
@[simp] theorem State.writeHandle_port (s : State) (c h : Nat) (e : HandleEntry) (j_ : Nat) : (State.writeHandle s c h e).port j_ = s.port j_ := by simp only [State.port_def, State.writeHandle_ports]
@[simp] theorem State.writeHandle_region (s : State) (c h : Nat) (e : HandleEntry) (j_ : Nat) : (State.writeHandle s c h e).region j_ = s.region j_ := by simp only [State.region_def, State.writeHandle_regions]
@[simp] theorem State.writeHandle_domain (s : State) (c h : Nat) (e : HandleEntry) (j_ : Nat) : (State.writeHandle s c h e).domain j_ = s.domain j_ := by simp only [State.domain_def, State.writeHandle_domains]
@[simp] theorem State.writeHandle_xing (s : State) (c h : Nat) (e : HandleEntry) (j_ : Nat) : (State.writeHandle s c h e).xing j_ = s.xing j_ := by simp only [State.xing_def, State.writeHandle_xings]
@[simp] theorem State.writeHandle_hbm (s : State) (c h : Nat) (e : HandleEntry) (j_ : Nat) : (State.writeHandle s c h e).hbm j_ = s.hbm j_ := by simp only [State.hbm_def, State.writeHandle_hbms]
@[simp] theorem State.writeHandle_cxl (s : State) (c h : Nat) (e : HandleEntry) (j_ : Nat) : (State.writeHandle s c h e).cxl j_ = s.cxl j_ := by simp only [State.cxl_def, State.writeHandle_cxlPorts]
@[simp] theorem State.writeHandle_win (s : State) (c h : Nat) (e : HandleEntry) (j_ : Nat) : (State.writeHandle s c h e).win j_ = s.win j_ := by simp only [State.win_def, State.writeHandle_windows]
@[simp] theorem State.writeHandle_core (s : State) (c h : Nat) (e : HandleEntry) (j_ : Nat) : (State.writeHandle s c h e).core j_ = s.core j_ := by simp only [State.core_def, State.writeHandle_cores]
@[simp] theorem State.writeHandle_dirLine (s : State) (c h : Nat) (e : HandleEntry) (j_ : Nat) : (State.writeHandle s c h e).dirLine j_ = s.dirLine j_ := by simp only [State.dirLine_def, State.writeHandle_dir]
@[simp] theorem State.writeHandle_page (s : State) (c h : Nat) (e : HandleEntry) (j_ : Nat) : (State.writeHandle s c h e).page j_ = s.page j_ := by simp only [State.page_def, State.writeHandle_pages]
@[simp] theorem State.writeHandle_trow (s : State) (c h : Nat) (e : HandleEntry) (c_ n_ : Nat) : (State.writeHandle s c h e).trow c_ n_ = s.trow c_ n_ := by simp only [State.trow_def, State.writeHandle_tarn]
@[simp] theorem State.writeHandle_rawByte (s : State) (c h : Nat) (e : HandleEntry) (a_ : Nat) : (State.writeHandle s c h e).rawByte a_ = s.rawByte a_ := by simp only [State.rawByte_def, State.writeHandle_mem]
@[simp] theorem State.writeHandle_now (s : State) (c h : Nat) (e : HandleEntry) : (State.writeHandle s c h e).now = s.now := by simp only [State.now_def, State.writeHandle_tb]
theorem State.setBitmapTag_frame (s : State) (e : HandleEntry) (i : Nat) (t : Tag) :
    (State.setBitmapTag s e i t).pending = s.pending ∧ (State.setBitmapTag s e i t).fresh = s.fresh ∧ (State.setBitmapTag s e i t).order = s.order ∧ (State.setBitmapTag s e i t).variant36 = s.variant36 ∧ (State.setBitmapTag s e i t).enabled = s.enabled ∧ (State.setBitmapTag s e i t).clusters = s.clusters ∧ (State.setBitmapTag s e i t).tarn = s.tarn ∧ (State.setBitmapTag s e i t).pages = s.pages ∧ (State.setBitmapTag s e i t).zeroRuns = s.zeroRuns ∧ (State.setBitmapTag s e i t).regions = s.regions ∧ (State.setBitmapTag s e i t).domains = s.domains ∧ (State.setBitmapTag s e i t).xings = s.xings ∧ (State.setBitmapTag s e i t).tb = s.tb ∧ (State.setBitmapTag s e i t).net = s.net ∧ (State.setBitmapTag s e i t).nextPkt = s.nextPkt ∧ (State.setBitmapTag s e i t).routes = s.routes ∧ (State.setBitmapTag s e i t).perimRoutes = s.perimRoutes ∧ (State.setBitmapTag s e i t).fabLinks = s.fabLinks ∧ (State.setBitmapTag s e i t).discards = s.discards ∧ (State.setBitmapTag s e i t).qps = s.qps ∧ (State.setBitmapTag s e i t).fns = s.fns ∧ (State.setBitmapTag s e i t).links = s.links ∧ (State.setBitmapTag s e i t).ports = s.ports ∧ (State.setBitmapTag s e i t).hbms = s.hbms ∧ (State.setBitmapTag s e i t).cxlPorts = s.cxlPorts ∧ (State.setBitmapTag s e i t).windows = s.windows ∧ (State.setBitmapTag s e i t).bpm = s.bpm ∧ (State.setBitmapTag s e i t).cool = s.cool ∧ (State.setBitmapTag s e i t).sec = s.sec ∧ (State.setBitmapTag s e i t).boot = s.boot ∧ (State.setBitmapTag s e i t).regs = s.regs ∧ (State.setBitmapTag s e i t).sels = s.sels ∧ (State.setBitmapTag s e i t).halves = s.halves := by
  generalize h_ : State.setBitmapTag s e i t = t_
  unfold State.setBitmapTag at h_
  (try dsimp only at h_)
  (repeat' split at h_) <;> subst h_ <;> simp
@[simp] theorem State.setBitmapTag_pending (s : State) (e : HandleEntry) (i : Nat) (t : Tag) : (State.setBitmapTag s e i t).pending = s.pending := (State.setBitmapTag_frame s e i t).1
@[simp] theorem State.setBitmapTag_fresh (s : State) (e : HandleEntry) (i : Nat) (t : Tag) : (State.setBitmapTag s e i t).fresh = s.fresh := (State.setBitmapTag_frame s e i t).2.1
@[simp] theorem State.setBitmapTag_order (s : State) (e : HandleEntry) (i : Nat) (t : Tag) : (State.setBitmapTag s e i t).order = s.order := (State.setBitmapTag_frame s e i t).2.2.1
@[simp] theorem State.setBitmapTag_variant36 (s : State) (e : HandleEntry) (i : Nat) (t : Tag) : (State.setBitmapTag s e i t).variant36 = s.variant36 := (State.setBitmapTag_frame s e i t).2.2.2.1
@[simp] theorem State.setBitmapTag_enabled (s : State) (e : HandleEntry) (i : Nat) (t : Tag) : (State.setBitmapTag s e i t).enabled = s.enabled := (State.setBitmapTag_frame s e i t).2.2.2.2.1
@[simp] theorem State.setBitmapTag_clusters (s : State) (e : HandleEntry) (i : Nat) (t : Tag) : (State.setBitmapTag s e i t).clusters = s.clusters := (State.setBitmapTag_frame s e i t).2.2.2.2.2.1
@[simp] theorem State.setBitmapTag_tarn (s : State) (e : HandleEntry) (i : Nat) (t : Tag) : (State.setBitmapTag s e i t).tarn = s.tarn := (State.setBitmapTag_frame s e i t).2.2.2.2.2.2.1
@[simp] theorem State.setBitmapTag_pages (s : State) (e : HandleEntry) (i : Nat) (t : Tag) : (State.setBitmapTag s e i t).pages = s.pages := (State.setBitmapTag_frame s e i t).2.2.2.2.2.2.2.1
@[simp] theorem State.setBitmapTag_zeroRuns (s : State) (e : HandleEntry) (i : Nat) (t : Tag) : (State.setBitmapTag s e i t).zeroRuns = s.zeroRuns := (State.setBitmapTag_frame s e i t).2.2.2.2.2.2.2.2.1
@[simp] theorem State.setBitmapTag_regions (s : State) (e : HandleEntry) (i : Nat) (t : Tag) : (State.setBitmapTag s e i t).regions = s.regions := (State.setBitmapTag_frame s e i t).2.2.2.2.2.2.2.2.2.1
@[simp] theorem State.setBitmapTag_domains (s : State) (e : HandleEntry) (i : Nat) (t : Tag) : (State.setBitmapTag s e i t).domains = s.domains := (State.setBitmapTag_frame s e i t).2.2.2.2.2.2.2.2.2.2.1
@[simp] theorem State.setBitmapTag_xings (s : State) (e : HandleEntry) (i : Nat) (t : Tag) : (State.setBitmapTag s e i t).xings = s.xings := (State.setBitmapTag_frame s e i t).2.2.2.2.2.2.2.2.2.2.2.1
@[simp] theorem State.setBitmapTag_tb (s : State) (e : HandleEntry) (i : Nat) (t : Tag) : (State.setBitmapTag s e i t).tb = s.tb := (State.setBitmapTag_frame s e i t).2.2.2.2.2.2.2.2.2.2.2.2.1
@[simp] theorem State.setBitmapTag_net (s : State) (e : HandleEntry) (i : Nat) (t : Tag) : (State.setBitmapTag s e i t).net = s.net := (State.setBitmapTag_frame s e i t).2.2.2.2.2.2.2.2.2.2.2.2.2.1
@[simp] theorem State.setBitmapTag_nextPkt (s : State) (e : HandleEntry) (i : Nat) (t : Tag) : (State.setBitmapTag s e i t).nextPkt = s.nextPkt := (State.setBitmapTag_frame s e i t).2.2.2.2.2.2.2.2.2.2.2.2.2.2.1
@[simp] theorem State.setBitmapTag_routes (s : State) (e : HandleEntry) (i : Nat) (t : Tag) : (State.setBitmapTag s e i t).routes = s.routes := (State.setBitmapTag_frame s e i t).2.2.2.2.2.2.2.2.2.2.2.2.2.2.2.1
@[simp] theorem State.setBitmapTag_perimRoutes (s : State) (e : HandleEntry) (i : Nat) (t : Tag) : (State.setBitmapTag s e i t).perimRoutes = s.perimRoutes := (State.setBitmapTag_frame s e i t).2.2.2.2.2.2.2.2.2.2.2.2.2.2.2.2.1
@[simp] theorem State.setBitmapTag_fabLinks (s : State) (e : HandleEntry) (i : Nat) (t : Tag) : (State.setBitmapTag s e i t).fabLinks = s.fabLinks := (State.setBitmapTag_frame s e i t).2.2.2.2.2.2.2.2.2.2.2.2.2.2.2.2.2.1
@[simp] theorem State.setBitmapTag_discards (s : State) (e : HandleEntry) (i : Nat) (t : Tag) : (State.setBitmapTag s e i t).discards = s.discards := (State.setBitmapTag_frame s e i t).2.2.2.2.2.2.2.2.2.2.2.2.2.2.2.2.2.2.1
@[simp] theorem State.setBitmapTag_qps (s : State) (e : HandleEntry) (i : Nat) (t : Tag) : (State.setBitmapTag s e i t).qps = s.qps := (State.setBitmapTag_frame s e i t).2.2.2.2.2.2.2.2.2.2.2.2.2.2.2.2.2.2.2.1
@[simp] theorem State.setBitmapTag_fns (s : State) (e : HandleEntry) (i : Nat) (t : Tag) : (State.setBitmapTag s e i t).fns = s.fns := (State.setBitmapTag_frame s e i t).2.2.2.2.2.2.2.2.2.2.2.2.2.2.2.2.2.2.2.2.1
@[simp] theorem State.setBitmapTag_links (s : State) (e : HandleEntry) (i : Nat) (t : Tag) : (State.setBitmapTag s e i t).links = s.links := (State.setBitmapTag_frame s e i t).2.2.2.2.2.2.2.2.2.2.2.2.2.2.2.2.2.2.2.2.2.1
@[simp] theorem State.setBitmapTag_ports (s : State) (e : HandleEntry) (i : Nat) (t : Tag) : (State.setBitmapTag s e i t).ports = s.ports := (State.setBitmapTag_frame s e i t).2.2.2.2.2.2.2.2.2.2.2.2.2.2.2.2.2.2.2.2.2.2.1
@[simp] theorem State.setBitmapTag_hbms (s : State) (e : HandleEntry) (i : Nat) (t : Tag) : (State.setBitmapTag s e i t).hbms = s.hbms := (State.setBitmapTag_frame s e i t).2.2.2.2.2.2.2.2.2.2.2.2.2.2.2.2.2.2.2.2.2.2.2.1
@[simp] theorem State.setBitmapTag_cxlPorts (s : State) (e : HandleEntry) (i : Nat) (t : Tag) : (State.setBitmapTag s e i t).cxlPorts = s.cxlPorts := (State.setBitmapTag_frame s e i t).2.2.2.2.2.2.2.2.2.2.2.2.2.2.2.2.2.2.2.2.2.2.2.2.1
@[simp] theorem State.setBitmapTag_windows (s : State) (e : HandleEntry) (i : Nat) (t : Tag) : (State.setBitmapTag s e i t).windows = s.windows := (State.setBitmapTag_frame s e i t).2.2.2.2.2.2.2.2.2.2.2.2.2.2.2.2.2.2.2.2.2.2.2.2.2.1
@[simp] theorem State.setBitmapTag_bpm (s : State) (e : HandleEntry) (i : Nat) (t : Tag) : (State.setBitmapTag s e i t).bpm = s.bpm := (State.setBitmapTag_frame s e i t).2.2.2.2.2.2.2.2.2.2.2.2.2.2.2.2.2.2.2.2.2.2.2.2.2.2.1
@[simp] theorem State.setBitmapTag_cool (s : State) (e : HandleEntry) (i : Nat) (t : Tag) : (State.setBitmapTag s e i t).cool = s.cool := (State.setBitmapTag_frame s e i t).2.2.2.2.2.2.2.2.2.2.2.2.2.2.2.2.2.2.2.2.2.2.2.2.2.2.2.1
@[simp] theorem State.setBitmapTag_sec (s : State) (e : HandleEntry) (i : Nat) (t : Tag) : (State.setBitmapTag s e i t).sec = s.sec := (State.setBitmapTag_frame s e i t).2.2.2.2.2.2.2.2.2.2.2.2.2.2.2.2.2.2.2.2.2.2.2.2.2.2.2.2.1
@[simp] theorem State.setBitmapTag_boot (s : State) (e : HandleEntry) (i : Nat) (t : Tag) : (State.setBitmapTag s e i t).boot = s.boot := (State.setBitmapTag_frame s e i t).2.2.2.2.2.2.2.2.2.2.2.2.2.2.2.2.2.2.2.2.2.2.2.2.2.2.2.2.2.1
@[simp] theorem State.setBitmapTag_regs (s : State) (e : HandleEntry) (i : Nat) (t : Tag) : (State.setBitmapTag s e i t).regs = s.regs := (State.setBitmapTag_frame s e i t).2.2.2.2.2.2.2.2.2.2.2.2.2.2.2.2.2.2.2.2.2.2.2.2.2.2.2.2.2.2.1
@[simp] theorem State.setBitmapTag_sels (s : State) (e : HandleEntry) (i : Nat) (t : Tag) : (State.setBitmapTag s e i t).sels = s.sels := (State.setBitmapTag_frame s e i t).2.2.2.2.2.2.2.2.2.2.2.2.2.2.2.2.2.2.2.2.2.2.2.2.2.2.2.2.2.2.2.1
@[simp] theorem State.setBitmapTag_halves (s : State) (e : HandleEntry) (i : Nat) (t : Tag) : (State.setBitmapTag s e i t).halves = s.halves := (State.setBitmapTag_frame s e i t).2.2.2.2.2.2.2.2.2.2.2.2.2.2.2.2.2.2.2.2.2.2.2.2.2.2.2.2.2.2.2.2
@[simp] theorem State.setBitmapTag_cl (s : State) (e : HandleEntry) (i : Nat) (t : Tag) (j_ : Nat) : (State.setBitmapTag s e i t).cl j_ = s.cl j_ := by simp only [State.cl_def, State.setBitmapTag_clusters]
@[simp] theorem State.setBitmapTag_qp (s : State) (e : HandleEntry) (i : Nat) (t : Tag) (j_ : Nat) : (State.setBitmapTag s e i t).qp j_ = s.qp j_ := by simp only [State.qp_def, State.setBitmapTag_qps]
@[simp] theorem State.setBitmapTag_fn (s : State) (e : HandleEntry) (i : Nat) (t : Tag) (j_ : Nat) : (State.setBitmapTag s e i t).fn j_ = s.fn j_ := by simp only [State.fn_def, State.setBitmapTag_fns]
@[simp] theorem State.setBitmapTag_link (s : State) (e : HandleEntry) (i : Nat) (t : Tag) (j_ : Nat) : (State.setBitmapTag s e i t).link j_ = s.link j_ := by simp only [State.link_def, State.setBitmapTag_links]
@[simp] theorem State.setBitmapTag_port (s : State) (e : HandleEntry) (i : Nat) (t : Tag) (j_ : Nat) : (State.setBitmapTag s e i t).port j_ = s.port j_ := by simp only [State.port_def, State.setBitmapTag_ports]
@[simp] theorem State.setBitmapTag_region (s : State) (e : HandleEntry) (i : Nat) (t : Tag) (j_ : Nat) : (State.setBitmapTag s e i t).region j_ = s.region j_ := by simp only [State.region_def, State.setBitmapTag_regions]
@[simp] theorem State.setBitmapTag_domain (s : State) (e : HandleEntry) (i : Nat) (t : Tag) (j_ : Nat) : (State.setBitmapTag s e i t).domain j_ = s.domain j_ := by simp only [State.domain_def, State.setBitmapTag_domains]
@[simp] theorem State.setBitmapTag_xing (s : State) (e : HandleEntry) (i : Nat) (t : Tag) (j_ : Nat) : (State.setBitmapTag s e i t).xing j_ = s.xing j_ := by simp only [State.xing_def, State.setBitmapTag_xings]
@[simp] theorem State.setBitmapTag_hbm (s : State) (e : HandleEntry) (i : Nat) (t : Tag) (j_ : Nat) : (State.setBitmapTag s e i t).hbm j_ = s.hbm j_ := by simp only [State.hbm_def, State.setBitmapTag_hbms]
@[simp] theorem State.setBitmapTag_cxl (s : State) (e : HandleEntry) (i : Nat) (t : Tag) (j_ : Nat) : (State.setBitmapTag s e i t).cxl j_ = s.cxl j_ := by simp only [State.cxl_def, State.setBitmapTag_cxlPorts]
@[simp] theorem State.setBitmapTag_win (s : State) (e : HandleEntry) (i : Nat) (t : Tag) (j_ : Nat) : (State.setBitmapTag s e i t).win j_ = s.win j_ := by simp only [State.win_def, State.setBitmapTag_windows]
@[simp] theorem State.setBitmapTag_page (s : State) (e : HandleEntry) (i : Nat) (t : Tag) (j_ : Nat) : (State.setBitmapTag s e i t).page j_ = s.page j_ := by simp only [State.page_def, State.setBitmapTag_pages]
@[simp] theorem State.setBitmapTag_trow (s : State) (e : HandleEntry) (i : Nat) (t : Tag) (c_ n_ : Nat) : (State.setBitmapTag s e i t).trow c_ n_ = s.trow c_ n_ := by simp only [State.trow_def, State.setBitmapTag_tarn]
@[simp] theorem State.setBitmapTag_now (s : State) (e : HandleEntry) (i : Nat) (t : Tag) : (State.setBitmapTag s e i t).now = s.now := by simp only [State.now_def, State.setBitmapTag_tb]
theorem State.poisonEvent_frame (s : State) (a : Nat) :
    (State.poisonEvent s a).pending = s.pending ∧ (State.poisonEvent s a).fresh = s.fresh ∧ (State.poisonEvent s a).order = s.order ∧ (State.poisonEvent s a).variant36 = s.variant36 ∧ (State.poisonEvent s a).enabled = s.enabled ∧ (State.poisonEvent s a).tarn = s.tarn ∧ (State.poisonEvent s a).pages = s.pages ∧ (State.poisonEvent s a).zeroRuns = s.zeroRuns ∧ (State.poisonEvent s a).regions = s.regions ∧ (State.poisonEvent s a).domains = s.domains ∧ (State.poisonEvent s a).xings = s.xings ∧ (State.poisonEvent s a).tb = s.tb ∧ (State.poisonEvent s a).nextPkt = s.nextPkt ∧ (State.poisonEvent s a).routes = s.routes ∧ (State.poisonEvent s a).perimRoutes = s.perimRoutes ∧ (State.poisonEvent s a).fabLinks = s.fabLinks ∧ (State.poisonEvent s a).links = s.links ∧ (State.poisonEvent s a).ports = s.ports ∧ (State.poisonEvent s a).hbms = s.hbms ∧ (State.poisonEvent s a).cxlPorts = s.cxlPorts ∧ (State.poisonEvent s a).windows = s.windows ∧ (State.poisonEvent s a).bpm = s.bpm ∧ (State.poisonEvent s a).cool = s.cool ∧ (State.poisonEvent s a).sec = s.sec ∧ (State.poisonEvent s a).boot = s.boot ∧ (State.poisonEvent s a).regs = s.regs ∧ (State.poisonEvent s a).sels = s.sels ∧ (State.poisonEvent s a).halves = s.halves := by
  generalize h_ : State.poisonEvent s a = t_
  unfold State.poisonEvent at h_
  (try dsimp only at h_)
  (repeat' split at h_) <;> subst h_ <;> simp
@[simp] theorem State.poisonEvent_pending (s : State) (a : Nat) : (State.poisonEvent s a).pending = s.pending := (State.poisonEvent_frame s a).1
@[simp] theorem State.poisonEvent_fresh (s : State) (a : Nat) : (State.poisonEvent s a).fresh = s.fresh := (State.poisonEvent_frame s a).2.1
@[simp] theorem State.poisonEvent_order (s : State) (a : Nat) : (State.poisonEvent s a).order = s.order := (State.poisonEvent_frame s a).2.2.1
@[simp] theorem State.poisonEvent_variant36 (s : State) (a : Nat) : (State.poisonEvent s a).variant36 = s.variant36 := (State.poisonEvent_frame s a).2.2.2.1
@[simp] theorem State.poisonEvent_enabled (s : State) (a : Nat) : (State.poisonEvent s a).enabled = s.enabled := (State.poisonEvent_frame s a).2.2.2.2.1
@[simp] theorem State.poisonEvent_tarn (s : State) (a : Nat) : (State.poisonEvent s a).tarn = s.tarn := (State.poisonEvent_frame s a).2.2.2.2.2.1
@[simp] theorem State.poisonEvent_pages (s : State) (a : Nat) : (State.poisonEvent s a).pages = s.pages := (State.poisonEvent_frame s a).2.2.2.2.2.2.1
@[simp] theorem State.poisonEvent_zeroRuns (s : State) (a : Nat) : (State.poisonEvent s a).zeroRuns = s.zeroRuns := (State.poisonEvent_frame s a).2.2.2.2.2.2.2.1
@[simp] theorem State.poisonEvent_regions (s : State) (a : Nat) : (State.poisonEvent s a).regions = s.regions := (State.poisonEvent_frame s a).2.2.2.2.2.2.2.2.1
@[simp] theorem State.poisonEvent_domains (s : State) (a : Nat) : (State.poisonEvent s a).domains = s.domains := (State.poisonEvent_frame s a).2.2.2.2.2.2.2.2.2.1
@[simp] theorem State.poisonEvent_xings (s : State) (a : Nat) : (State.poisonEvent s a).xings = s.xings := (State.poisonEvent_frame s a).2.2.2.2.2.2.2.2.2.2.1
@[simp] theorem State.poisonEvent_tb (s : State) (a : Nat) : (State.poisonEvent s a).tb = s.tb := (State.poisonEvent_frame s a).2.2.2.2.2.2.2.2.2.2.2.1
@[simp] theorem State.poisonEvent_nextPkt (s : State) (a : Nat) : (State.poisonEvent s a).nextPkt = s.nextPkt := (State.poisonEvent_frame s a).2.2.2.2.2.2.2.2.2.2.2.2.1
@[simp] theorem State.poisonEvent_routes (s : State) (a : Nat) : (State.poisonEvent s a).routes = s.routes := (State.poisonEvent_frame s a).2.2.2.2.2.2.2.2.2.2.2.2.2.1
@[simp] theorem State.poisonEvent_perimRoutes (s : State) (a : Nat) : (State.poisonEvent s a).perimRoutes = s.perimRoutes := (State.poisonEvent_frame s a).2.2.2.2.2.2.2.2.2.2.2.2.2.2.1
@[simp] theorem State.poisonEvent_fabLinks (s : State) (a : Nat) : (State.poisonEvent s a).fabLinks = s.fabLinks := (State.poisonEvent_frame s a).2.2.2.2.2.2.2.2.2.2.2.2.2.2.2.1
@[simp] theorem State.poisonEvent_links (s : State) (a : Nat) : (State.poisonEvent s a).links = s.links := (State.poisonEvent_frame s a).2.2.2.2.2.2.2.2.2.2.2.2.2.2.2.2.1
@[simp] theorem State.poisonEvent_ports (s : State) (a : Nat) : (State.poisonEvent s a).ports = s.ports := (State.poisonEvent_frame s a).2.2.2.2.2.2.2.2.2.2.2.2.2.2.2.2.2.1
@[simp] theorem State.poisonEvent_hbms (s : State) (a : Nat) : (State.poisonEvent s a).hbms = s.hbms := (State.poisonEvent_frame s a).2.2.2.2.2.2.2.2.2.2.2.2.2.2.2.2.2.2.1
@[simp] theorem State.poisonEvent_cxlPorts (s : State) (a : Nat) : (State.poisonEvent s a).cxlPorts = s.cxlPorts := (State.poisonEvent_frame s a).2.2.2.2.2.2.2.2.2.2.2.2.2.2.2.2.2.2.2.1
@[simp] theorem State.poisonEvent_windows (s : State) (a : Nat) : (State.poisonEvent s a).windows = s.windows := (State.poisonEvent_frame s a).2.2.2.2.2.2.2.2.2.2.2.2.2.2.2.2.2.2.2.2.1
@[simp] theorem State.poisonEvent_bpm (s : State) (a : Nat) : (State.poisonEvent s a).bpm = s.bpm := (State.poisonEvent_frame s a).2.2.2.2.2.2.2.2.2.2.2.2.2.2.2.2.2.2.2.2.2.1
@[simp] theorem State.poisonEvent_cool (s : State) (a : Nat) : (State.poisonEvent s a).cool = s.cool := (State.poisonEvent_frame s a).2.2.2.2.2.2.2.2.2.2.2.2.2.2.2.2.2.2.2.2.2.2.1
@[simp] theorem State.poisonEvent_sec (s : State) (a : Nat) : (State.poisonEvent s a).sec = s.sec := (State.poisonEvent_frame s a).2.2.2.2.2.2.2.2.2.2.2.2.2.2.2.2.2.2.2.2.2.2.2.1
@[simp] theorem State.poisonEvent_boot (s : State) (a : Nat) : (State.poisonEvent s a).boot = s.boot := (State.poisonEvent_frame s a).2.2.2.2.2.2.2.2.2.2.2.2.2.2.2.2.2.2.2.2.2.2.2.2.1
@[simp] theorem State.poisonEvent_regs (s : State) (a : Nat) : (State.poisonEvent s a).regs = s.regs := (State.poisonEvent_frame s a).2.2.2.2.2.2.2.2.2.2.2.2.2.2.2.2.2.2.2.2.2.2.2.2.2.1
@[simp] theorem State.poisonEvent_sels (s : State) (a : Nat) : (State.poisonEvent s a).sels = s.sels := (State.poisonEvent_frame s a).2.2.2.2.2.2.2.2.2.2.2.2.2.2.2.2.2.2.2.2.2.2.2.2.2.2.1
@[simp] theorem State.poisonEvent_halves (s : State) (a : Nat) : (State.poisonEvent s a).halves = s.halves := (State.poisonEvent_frame s a).2.2.2.2.2.2.2.2.2.2.2.2.2.2.2.2.2.2.2.2.2.2.2.2.2.2.2
@[simp] theorem State.poisonEvent_link (s : State) (a : Nat) (j_ : Nat) : (State.poisonEvent s a).link j_ = s.link j_ := by simp only [State.link_def, State.poisonEvent_links]
@[simp] theorem State.poisonEvent_port (s : State) (a : Nat) (j_ : Nat) : (State.poisonEvent s a).port j_ = s.port j_ := by simp only [State.port_def, State.poisonEvent_ports]
@[simp] theorem State.poisonEvent_region (s : State) (a : Nat) (j_ : Nat) : (State.poisonEvent s a).region j_ = s.region j_ := by simp only [State.region_def, State.poisonEvent_regions]
@[simp] theorem State.poisonEvent_domain (s : State) (a : Nat) (j_ : Nat) : (State.poisonEvent s a).domain j_ = s.domain j_ := by simp only [State.domain_def, State.poisonEvent_domains]
@[simp] theorem State.poisonEvent_xing (s : State) (a : Nat) (j_ : Nat) : (State.poisonEvent s a).xing j_ = s.xing j_ := by simp only [State.xing_def, State.poisonEvent_xings]
@[simp] theorem State.poisonEvent_hbm (s : State) (a : Nat) (j_ : Nat) : (State.poisonEvent s a).hbm j_ = s.hbm j_ := by simp only [State.hbm_def, State.poisonEvent_hbms]
@[simp] theorem State.poisonEvent_cxl (s : State) (a : Nat) (j_ : Nat) : (State.poisonEvent s a).cxl j_ = s.cxl j_ := by simp only [State.cxl_def, State.poisonEvent_cxlPorts]
@[simp] theorem State.poisonEvent_win (s : State) (a : Nat) (j_ : Nat) : (State.poisonEvent s a).win j_ = s.win j_ := by simp only [State.win_def, State.poisonEvent_windows]
@[simp] theorem State.poisonEvent_page (s : State) (a : Nat) (j_ : Nat) : (State.poisonEvent s a).page j_ = s.page j_ := by simp only [State.page_def, State.poisonEvent_pages]
@[simp] theorem State.poisonEvent_trow (s : State) (a : Nat) (c_ n_ : Nat) : (State.poisonEvent s a).trow c_ n_ = s.trow c_ n_ := by simp only [State.trow_def, State.poisonEvent_tarn]
@[simp] theorem State.poisonEvent_now (s : State) (a : Nat) : (State.poisonEvent s a).now = s.now := by simp only [State.now_def, State.poisonEvent_tb]

end Sys2Proof.Machine
end

