-- ==== Sys2Proof/Laws/Memory.lean ====
section
/-! SUPPORT. Bytes of HBM and tier 2: what a byte reads after each operation on memory, through the caches of the
host-processor chiplets, and that each keeps memory and poison in canonical form. -/

namespace Sys2Proof.Machine

set_option Elab.async false

open Sys2Proof

/-! ## One byte -/

theorem byte_congr {s t : State} (hm : t.mem = s.mem) (hd : t.dir = s.dir) (a : Nat) : t.byte a = s.byte a := by
  unfold State.byte State.rawByte State.dirLine
  rw [hm, hd]

theorem rawByte_setByte (s : State) (a x : Nat) (b : Byte) :
    (s.setByte a b).rawByte x = if x = a then b else s.rawByte x := by
  simp only [State.rawByte, State.setByte, Tbl.get_set]

theorem rawByte_writeNat (s : State) (a v n x : Nat) :
    (s.writeNat a v n).rawByte x = if a ≤ x ∧ x < a + n then BitVec.ofNat 8 (v / 256 ^ (x - a)) else s.rawByte x := by
  induction n with
  | zero => rw [if_neg (by omega)]; rfl
  | succ n ih =>
    simp only [State.writeNat]
    rw [rawByte_setByte, ih]
    by_cases h : x = a + n
    · subst h
      rw [if_pos rfl, if_pos (by omega)]
      congr 3
      omega
    · rw [if_neg h]
      by_cases k : a ≤ x ∧ x < a + n
      · rw [if_pos k, if_pos (by omega)]
      · rw [if_neg k, if_neg (by omega)]

theorem dirLine_setDir (s : State) (l k : Nat) (v : DirLine) :
    (s.setDir l v).dirLine k = if k = l then v else s.dirLine k := by
  simp only [State.dirLine, State.setDir, Tbl.get_set]

/-! ## Lines leave the caches -/

theorem setDir_rawByte (s : State) (l x : Nat) (v : DirLine) : (s.setDir l v).rawByte x = s.rawByte x := by
  unfold State.setDir State.rawByte
  exact Eq.refl _

theorem setDir_mem (s : State) (l : Nat) (v : DirLine) : (s.setDir l v).mem = s.mem ∧ (s.setDir l v).poison = s.poison := by
  unfold State.setDir
  exact ⟨Eq.refl _, Eq.refl _⟩

/-- What a write back leaves in the directory, in memory and in poison, for any number of bytes. -/
theorem writeBack_dirLine (s : State) (g a v n m k : Nat) :
    (((s.preImage g).writeNat a v n).healSectors a m).dirLine k = s.dirLine k := by
  rw [State.healSectors_dirLine, State.writeNat_dirLine, State.preImage_dirLine]

theorem writeBack_rawByte (s : State) (g a v n m x : Nat) :
    (((s.preImage g).writeNat a v n).healSectors a m).rawByte x =
      if a ≤ x ∧ x < a + n then BitVec.ofNat 8 (v / 256 ^ (x - a)) else s.rawByte x := by
  rw [State.healSectors_rawByte, rawByte_writeNat, State.preImage_rawByte]

/-- A line leaves the caches, the number of its bytes kept as a variable. -/
theorem evictLine_eq (s : State) (l : Nat) : ∃ n, n = 64 ∧ s.evictLine l =
    if (s.dirLine l).modified = true then
      (((s.setDir l {}).preImage (l / 64)).writeNat (64 * l) (s.dirLine l).data.toNat n).healSectors (64 * l) n
    else s.setDir l {} := ⟨_, rfl, rfl⟩

theorem evictLine_dirLine (s : State) (l k : Nat) : (s.evictLine l).dirLine k = if k = l then {} else s.dirLine k := by
  obtain ⟨n, hn, e⟩ := evictLine_eq s l
  rw [e]
  split
  · exact (writeBack_dirLine _ _ _ _ _ _ _).trans (dirLine_setDir s l k {})
  · exact dirLine_setDir s l k {}

theorem evictLine_rawByte (s : State) (l x : Nat) :
    (s.evictLine l).rawByte x = if (s.dirLine l).modified = true ∧ x / 64 = l
      then BitVec.ofNat 8 ((s.dirLine l).data.toNat / 256 ^ (x % 64)) else s.rawByte x := by
  obtain ⟨n, hn, e⟩ := evictLine_eq s l
  rw [e]
  split
  · rename_i h
    refine (writeBack_rawByte _ _ _ _ _ _ _).trans ?_
    rw [setDir_rawByte]
    by_cases k : 64 * l ≤ x ∧ x < 64 * l + n
    · rw [if_pos k, if_pos ⟨h, by omega⟩]
      congr 3
      omega
    · rw [if_neg k, if_neg (by omega)]
  · rename_i h
    rw [if_neg (fun k => h k.1), setDir_rawByte]

/-- No byte changes when a line leaves the caches: a modified line is written back (R364). -/
theorem evictLine_byte (s : State) (l x : Nat) : (s.evictLine l).byte x = s.byte x := by
  unfold State.byte
  rw [evictLine_dirLine, evictLine_rawByte]
  by_cases h : x / 64 = l
  · subst h
    simp
  · rw [if_neg h, if_neg (c := (s.dirLine l).modified = true ∧ x / 64 = l) (fun k => h k.2)]

theorem evictAll_byte (ls : List Nat) (s : State) (x : Nat) : (ls.foldl State.evictLine s).byte x = s.byte x := by
  induction ls generalizing s with
  | nil => rfl
  | cons l ls ih => rw [List.foldl_cons, ih, evictLine_byte]

theorem evictAll_dirLine (ls : List Nat) (s : State) (k : Nat) :
    (ls.foldl State.evictLine s).dirLine k = if k ∈ ls then {} else s.dirLine k := by
  induction ls generalizing s with
  | nil => simp
  | cons l ls ih =>
    rw [List.foldl_cons, ih, evictLine_dirLine]
    by_cases h : k ∈ ls
    · simp [h]
    · by_cases e : k = l <;> simp [h, e]

theorem Tbl.get_unlisted {α : Type} (d : Nat → α) (t : Tbl α) (k : Nat) (h : ∀ e ∈ t, e.1 ≠ k) : Tbl.get d t k = d k := by
  induction t with
  | nil => rfl
  | cons e t ih =>
    rw [Tbl.get, if_neg (fun c => h e (by simp) c.symm)]
    exact ih (fun e he => h e (by simp [he]))

/-- After a range has left the caches no line of it is listed as modified. -/
theorem evictRange_clean (s : State) (a n x : Nat) (hx : a ≤ x ∧ x < a + n) :
    ((s.evictRange a n).dirLine (x / 64)).modified = false := by
  unfold State.evictRange
  rw [evictAll_dirLine]
  split
  · rfl
  · rename_i h
    have : s.dirLine (x / 64) = {} := by
      refine Tbl.get_unlisted _ _ _ (fun e he c => h ?_)
      simp only [Tbl.keysWhere, List.mem_map, List.mem_filter]
      refine ⟨e, ⟨he, ?_⟩, c⟩
      simp
      omega
    rw [this]

theorem evictRange_byte (s : State) (a n x : Nat) : (s.evictRange a n).byte x = s.byte x := evictAll_byte _ s x

/-! ## Writes -/

theorem foldl_preImage_dirLine (gs : List Nat) (s : State) (k : Nat) : (gs.foldl State.preImage s).dirLine k = s.dirLine k := by
  induction gs generalizing s with
  | nil => rfl
  | cons g gs ih => rw [List.foldl_cons, ih, State.preImage_dirLine]

theorem foldl_preImage_rawByte (gs : List Nat) (s : State) (k : Nat) : (gs.foldl State.preImage s).rawByte k = s.rawByte k := by
  induction gs generalizing s with
  | nil => rfl
  | cons g gs ih => rw [List.foldl_cons, ih, State.preImage_rawByte]

/-- A write to memory changes the bytes it covers and no other, whatever the caches hold (R8, R364). -/
theorem writeMem_byte (s : State) (a v n x : Nat) :
    (s.writeMem a v n).byte x = if a ≤ x ∧ x < a + n then BitVec.ofNat 8 (v / 256 ^ (x - a)) else s.byte x := by
  unfold State.byte State.writeMem
  rw [State.healSectors_dirLine, State.writeNat_dirLine, foldl_preImage_dirLine, State.healSectors_rawByte, rawByte_writeNat,
    foldl_preImage_rawByte]
  by_cases h : a ≤ x ∧ x < a + n
  · rw [if_pos h, if_pos h, evictRange_clean s a n x h]
    rfl
  · rw [if_neg h, if_neg h]
    exact evictRange_byte s a n x

/-- A change of a tag in a bitmap changes one byte (R97, R98). -/
theorem setBitmapTag_byte (s : State) (e : HandleEntry) (i : Nat) (g : Tag) (x : Nat) :
    (s.setBitmapTag e i g).byte x = if x = hBitmap e + i / 4 then
      BitVec.ofNat 8 ((s.byte (hBitmap e + i / 4)).toNat - (s.byte (hBitmap e + i / 4)).toNat / 4 ^ (i % 4) % 4 * 4 ^ (i % 4) +
        g.code * 4 ^ (i % 4)) else s.byte x := by
  unfold State.setBitmapTag
  dsimp only
  generalize BitVec.ofNat 8 _ = b
  generalize hBitmap e + i / 4 = a
  have hd : ∀ k, (((s.evictLine (a / 64)).preImage (a / 4096)).setByte a b).dirLine k = (s.evictLine (a / 64)).dirLine k :=
    fun k => State.preImage_dirLine _ _ k
  unfold State.byte
  rw [hd, rawByte_setByte, State.preImage_rawByte]
  by_cases h : x = a
  · subst h
    rw [if_pos rfl, if_pos rfl, evictLine_dirLine, if_pos rfl]
    rfl
  · rw [if_neg h, if_neg h]
    exact evictLine_byte s (a / 64) x

/-! ## Canonical form -/

theorem setByte_wf (s : State) (a : Nat) (b : Byte) (h : Memory.wf s.mem = true) : Memory.wf (s.setByte a b).mem = true :=
  Tbl.wf_set _ _ _ _ h

theorem writeNat_wf (s : State) (a v n : Nat) (h : Memory.wf s.mem = true) : Memory.wf (s.writeNat a v n).mem = true := by
  induction n with
  | zero => exact h
  | succ n ih => exact setByte_wf _ _ _ ih

theorem zeroBytes_wf (s : State) (a n : Nat) (h : Memory.wf s.mem = true) : Memory.wf (s.zeroBytes a n).mem = true :=
  Tbl.wf_drop _ (fun k => decide (a ≤ k) && decide (k < a + n)) _ h

theorem setPoison_wf (s : State) (k : Nat) (b : Bool) (h : Tbl.wf (fun _ => false) s.poison = true) :
    Tbl.wf (fun _ => false) (s.setPoison k b).poison = true := Tbl.wf_set _ _ _ _ h

theorem healSectors_wf (s : State) (a n : Nat) (h : Tbl.wf (fun _ => false) s.poison = true) :
    Tbl.wf (fun _ => false) (s.healSectors a n).poison = true := by
  unfold State.healSectors
  generalize sectorsOf a n = l
  induction l generalizing s with
  | nil => exact h
  | cons k l ih =>
    rw [List.foldl_cons]
    refine ih _ ?_
    split
    · exact setPoison_wf s k false h
    · exact h

theorem setTrow_wf (s : State) (c n : Nat) (v : TarnRow) (h : Tbl.wf (fun _ => ({} : TarnRow)) s.tarn = true) :
    Tbl.wf (fun _ => ({} : TarnRow)) (s.setTrow c n v).tarn = true := Tbl.wf_set _ _ _ _ h

theorem writeBack_wf (s : State) (g a v n m : Nat) (h : Memory.wf s.mem = true) :
    Memory.wf (((s.preImage g).writeNat a v n).healSectors a m).mem = true := by
  rw [State.healSectors_mem]
  refine writeNat_wf _ _ _ _ ?_
  rw [State.preImage_mem]
  exact h

theorem writeBack_poison (s : State) (g a v n m : Nat) (h : Tbl.wf (fun _ => false) s.poison = true) :
    Tbl.wf (fun _ => false) (((s.preImage g).writeNat a v n).healSectors a m).poison = true := by
  refine healSectors_wf _ _ _ ?_
  rw [State.writeNat_poison, State.preImage_poison]
  exact h

theorem evictLine_wf (s : State) (l : Nat) (h : Memory.wf s.mem = true) : Memory.wf (s.evictLine l).mem = true := by
  obtain ⟨n, hn, e⟩ := evictLine_eq s l
  rw [e]
  split
  · refine writeBack_wf _ _ _ _ _ _ ?_
    rw [(setDir_mem s l {}).1]
    exact h
  · rw [(setDir_mem s l {}).1]
    exact h

theorem evictLine_poison (s : State) (l : Nat) (h : Tbl.wf (fun _ => false) s.poison = true) :
    Tbl.wf (fun _ => false) (s.evictLine l).poison = true := by
  obtain ⟨n, hn, e⟩ := evictLine_eq s l
  rw [e]
  split
  · refine writeBack_poison _ _ _ _ _ _ ?_
    rw [(setDir_mem s l {}).2]
    exact h
  · rw [(setDir_mem s l {}).2]
    exact h

theorem evictRange_wf (s : State) (a n : Nat) (h : Memory.wf s.mem = true ∧ Tbl.wf (fun _ => false) s.poison = true) :
    Memory.wf (s.evictRange a n).mem = true ∧ Tbl.wf (fun _ => false) (s.evictRange a n).poison = true := by
  unfold State.evictRange
  generalize Tbl.keysWhere _ s.dir = l
  induction l generalizing s with
  | nil => exact h
  | cons k l ih => exact ih _ ⟨evictLine_wf s k h.1, evictLine_poison s k h.2⟩

theorem writeMem_wf (s : State) (a v n : Nat) (h : Memory.wf s.mem = true ∧ Tbl.wf (fun _ => false) s.poison = true) :
    Memory.wf (s.writeMem a v n).mem = true ∧ Tbl.wf (fun _ => false) (s.writeMem a v n).poison = true := by
  have k : ∀ (gs : List Nat) (t : State), (gs.foldl State.preImage t).mem = t.mem ∧ (gs.foldl State.preImage t).poison = t.poison := by
    intro gs
    induction gs with
    | nil => exact fun t => ⟨rfl, rfl⟩
    | cons g gs ih =>
      intro t
      rw [List.foldl_cons, (ih _).1, (ih _).2, State.preImage_mem, State.preImage_poison]
      exact ⟨rfl, rfl⟩
  have e := evictRange_wf s a n h
  unfold State.writeMem
  constructor
  · rw [State.healSectors_mem]
    refine writeNat_wf _ _ _ _ ?_
    rw [(k _ _).1]
    exact e.1
  · refine healSectors_wf _ _ _ ?_
    rw [State.writeNat_poison, (k _ _).2]
    exact e.2

end Sys2Proof.Machine
end

