-- ==== Sys2Proof/WellFormed.lean ====
section
/-! DEFINITION. Well-formed commands: every number names something the panel has. Counts from 01 (4,608 clusters, 16
regions, 12 perimeter dies), 03 (64 handles), 08 (115 links of a region), 09 (25 domains, 220 crossings), 11 (32
stacks, 32 windows), 12 (384 cores) and 13 (16 links, 1,024 functions, 2,048 queue pairs, 1,024 contexts). A meaning
does not rest on this: a command that names nothing the panel has changes nothing of it. -/

namespace Sys2Proof

/-- An instruction names a cluster of the panel. -/
def Issue.wellFormed (i : Issue) : Bool := decide (i.c < 4608)

def Waiter.wellFormed : Waiter → Bool
  | .cluster c => decide (c < 4608)
  | .fetch c _ => decide (c < 4608)
  | .dma q _ => decide (q < 2048)
  | .remote c k => decide (c < 4608) && decide (k < 16)
  | .core n => decide (n < 384)

def Agent.wellFormed : Agent → Bool
  | .operator _ _ => true
  | .function f _ => decide (f < 1024)
  | .core n => decide (n < 384)

def SpdmPath.wellFormed : SpdmPath → Bool
  | .doe f => decide (f < 1024)
  | .mctpI3c => true
  | .mctpPcie l => decide (l < 16)
  | .tcp => true

def DebugTarget.wellFormed : DebugTarget → Bool
  | .cluster c => decide (c < 4608)
  | .core n => decide (n < 384)

def DebugObject.wellFormed : DebugObject → Bool
  | .clusterState c => decide (c < 4608)
  | .programCounter c => decide (c < 4608)
  | .scalar c i => decide (c < 4608) && decide (i < 32)
  | .predicate c => decide (c < 4608)
  | .rowRegister c i => decide (c < 4608) && decide (i < 8)
  | .rowMask c i => decide (c < 4608) && decide (i < 8)
  | .accumulator c _ _ => decide (c < 4608)
  | .weightBank c b => decide (c < 4608) && decide (b < 2)
  | .tarnRow c row => decide (c < 4608) && decide (row < 16384)
  | .page _ => true
  | .journal p => decide (p < 16)
  | .key => true

def RedfishAction.wellFormed : RedfishAction → Bool
  | .killContext x => decide (x < 1024)
  | .failCluster c => decide (c < 4608)
  | .substitute c => decide (c < 4608)
  | .retireRegion r => decide (r < 16)
  | .condemnStack k => decide (k < 32)
  | .retirePc k pc => decide (k < 32) && decide (pc < 32)
  | .resetPartition p => decide (p < 16)
  | .read => true
  | .railOff _ => true
  | .segmentOff _ => true
  | .accountChange => true

/-- Whether every number of a command names something the panel has. -/
def Instr.wellFormed : Instr → Bool
  | .nop i => i.wellFormed
  | .endStep i => i.wellFormed
  | .br i => i.wellFormed
  | .jal i => i.wellFormed
  | .jalr i => i.wellFormed
  | .loop i => i.wellFormed
  | .trap i => i.wellFormed
  | .add i => i.wellFormed
  | .sub i => i.wellFormed
  | .and i => i.wellFormed
  | .or i => i.wellFormed
  | .xor i => i.wellFormed
  | .sll i => i.wellFormed
  | .srl i => i.wellFormed
  | .sra i => i.wellFormed
  | .mul i => i.wellFormed
  | .mulh i => i.wellFormed
  | .mulhu i => i.wellFormed
  | .div i => i.wellFormed
  | .divu i => i.wellFormed
  | .rem i => i.wellFormed
  | .remu i => i.wellFormed
  | .min i => i.wellFormed
  | .max i => i.wellFormed
  | .minu i => i.wellFormed
  | .maxu i => i.wellFormed
  | .li i => i.wellFormed
  | .lix i => i.wellFormed
  | .cmp i => i.wellFormed
  | .plog i => i.wellFormed
  | .rdcnt i => i.wellFormed
  | .movsv i => i.wellFormed
  | .movvs i => i.wellFormed
  | .vmov i => i.wellFormed
  | .vbcast i => i.wellFormed
  | .msk i => i.wellFormed
  | .ld i => i.wellFormed
  | .pk i => i.wellFormed
  | .st i => i.wellFormed
  | .movr i => i.wellFormed
  | .movrRowOperation c _ => decide (c < 4608)
  | .fill i => i.wellFormed
  | .fillRowOperation c => decide (c < 4608)
  | .tagrd i => i.wellFormed
  | .waitt i => i.wellFormed
  | .waittPoll c => decide (c < 4608)
  | .twait i => i.wellFormed
  | .twaitRelease c => decide (c < 4608)
  | .fetchFaultReread c _ => decide (c < 4608)
  | .instructionFetch c _ _ => decide (c < 4608)
  | .wld i => i.wellFormed
  | .mma i => i.wellFormed
  | .drn i => i.wellFormed
  | .drnp i => i.wellFormed
  | .drainRowOperation c _ => decide (c < 4608)
  | .aclr i => i.wellFormed
  | .vadd i => i.wellFormed
  | .vsub i => i.wellFormed
  | .vmul i => i.wellFormed
  | .vdiv i => i.wellFormed
  | .vmin i => i.wellFormed
  | .vmax i => i.wellFormed
  | .vfma i => i.wellFormed
  | .vcmp i => i.wellFormed
  | .vsqrt i => i.wellFormed
  | .vabs i => i.wellFormed
  | .vneg i => i.wellFormed
  | .vfun i => i.wellFormed
  | .vrsum i => i.wellFormed
  | .vrmax i => i.wellFormed
  | .vrmin i => i.wellFormed
  | .vcvt i => i.wellFormed
  | .vqnt i => i.wellFormed
  | .vdq i => i.wellFormed
  | .ehint i => i.wellFormed
  | .send i => i.wellFormed
  | .recv i => i.wellFormed
  | .mcast i => i.wellFormed
  | .reduce i => i.wellFormed
  | .allred i => i.wellFormed
  | .rscat i => i.wellFormed
  | .agath i => i.wellFormed
  | .mld i => i.wellFormed
  | .mst i => i.wellFormed
  | .fencef i => i.wellFormed
  | .fabricOpTimeout c tag => decide (c < 4608) && decide (tag < 128)
  | .runAheadLoad c h _ _ => decide (c < 4608) && decide (h < 64)
  | .runAheadParkedPeek c _ _ => decide (c < 4608)
  | .receivePrefetch c h _ _ => decide (c < 4608) && decide (h < 64)
  | .tagWaitSatisfied w _ => w.wellFormed
  | .tagWaitTimeout w => w.wellFormed
  | .spilledTagUpdate c h _ _ => decide (c < 4608) && decide (h < 64)
  | .heartbeatMiss c _ => decide (c < 4608)
  | .ageingSample c _ => decide (c < 4608)
  | .substitutionRerequest c => decide (c < 4608)
  | .cluAgeThreshWrite _ _ => true
  | .write _ => true
  | .read _ _ => true
  | .consume _ _ => true
  | .coll _ => true
  | .collRes _ => true
  | .completionWaveStart c _ => decide (c < 4608)
  | .memRd _ _ _ => true
  | .memWr _ => true
  | .data _ => true
  | .ack _ => true
  | .stale _ => true
  | .busyRepresent c tag => decide (c < 4608) && decide (tag < 128)
  | .packetHop _ _ => true
  | .packetLifetimeExpiry _ => true
  | .creditStall r link _ => decide (r < 16) && decide (link < 115)
  | .linkRetrain r link => decide (r < 16) && decide (link < 115)
  | .linkRetrainTimeout r link => decide (r < 16) && decide (link < 115)
  | .perimeterRetrainHoldTimeout die => decide (die < 12)
  | .lochLockLoss r link => decide (r < 16) && decide (link < 115)
  | .routeEntryWrite r d _ _ => decide (r < 16) && decide (d < 16)
  | .flowRouteResume c _ => decide (c < 4608)
  | .abortDrainEnd p => decide (p < 16)
  | .ref10mWindow _ => true
  | .ref10mEdgeLoss => true
  | .refPpsPulse _ => true
  | .refPpsMissing => true
  | .ptpSample _ _ _ => true
  | .ptpSampleTimeout => true
  | .referenceRevert => true
  | .tbsTodSet _ => true
  | .tbXoEdgeLoss => true
  | .beaconStrobe d _ => decide (d < 25)
  | .beaconMiss d => decide (d < 25)
  | .beaconMissRetire d => decide (d < 25)
  | .tickLoss d => d.all (fun k => decide (k < 25))
  | .stepChangePllLocked r => decide (r < 16)
  | .clockSwitch r => decide (r < 16)
  | .crossingCalibration x _ => decide (x < 220)
  | .crossingCalibrationEnd x => decide (x < 220)
  | .crossingWordRelease x _ => decide (x < 220)
  | .droopStretch d _ => decide (d < 25)
  | .droopGateExpiry d => decide (d < 25)
  | .droopHoldExit d => decide (d < 25)
  | .stepLaunch q _ => decide (q < 2048)
  | .stepRelease p => decide (p < 16)
  | .stepComplete p => decide (p < 16)
  | .checkpoint q _ => decide (q < 2048)
  | .checkpointDurable p => decide (p < 16)
  | .recoveryStart p => decide (p < 16)
  | .neighbourTestTarget c _ => decide (c < 4608)
  | .recoveryRestore p => decide (p < 16)
  | .recoveryRestoreDone p => decide (p < 16)
  | .recoveryRerelease p => decide (p < 16)
  | .shrinkTimeout p => decide (p < 16)
  | .substitutionCopyDone c _ => decide (c < 4608)
  | .correctedWriteBack _ => true
  | .refresh stack => decide (stack < 32)
  | .patrolScrub _ _ => true
  | .patrolPeriodEnd stack _ => decide (stack < 32)
  | .vacateTimeout stack => decide (stack < 32)
  | .stackFailure stack => decide (stack < 32)
  | .stackFailureRemap r => decide (r < 16)
  | .cxlLinkUp port _ => decide (port < 8)
  | .windowCreate w _ _ _ _ => decide (w < 32)
  | .windowZeroingDone w => decide (w < 32)
  | .windowOffline w => decide (w < 32)
  | .windowDelete w => decide (w < 32)
  | .cxlDeviceLoss w => decide (w < 32)
  | .cxlMemTimeout port => decide (port < 8)
  | .cxlIdeRekey port => decide (port < 8)
  | .vl8re8V n _ _ => decide (n < 384)
  | .vs8rV n _ _ => decide (n < 384)
  | .qtarnctlWrite n _ => decide (n < 384)
  | .tarnAccessCancel n => decide (n < 384)
  | .stepInputStore n _ _ _ => decide (n < 384)
  | .directoryEviction r _ => decide (r < 16)
  | .msiWrite sender hart _ _ => sender.wellFormed && decide (hart < 384)
  | .coreFault n _ => decide (n < 384)
  | .configurationRequest die => decide (die < 12)
  | .bar2Read f _ _ _ _ => decide (f < 1024)
  | .bar2Write f _ _ _ _ => decide (f < 1024)
  | .sqDoorbell w q _ => w.wellFormed && decide (q < 2048)
  | .cqDoorbell w q _ => w.wellFormed && decide (q < 2048)
  | .qpEnable f q _ => decide (f < 1024) && decide (q < 2048)
  | .qpDisable f q => decide (f < 1024) && decide (q < 2048)
  | .contextCreate f _ => decide (f < 1024)
  | .descriptorFetch q _ => decide (q < 2048)
  | .descriptorStart q _ => decide (q < 2048)
  | .descriptorNop q _ => decide (q < 2048)
  | .dmaCopy q _ => decide (q < 2048)
  | .dmaUnit q _ _ _ => decide (q < 2048)
  | .hostCompletionTimeout w => w.wellFormed
  | .journalMark q _ => decide (q < 2048)
  | .fence q _ => decide (q < 2048)
  | .setParam q _ => decide (q < 2048)
  | .selectLayout q _ => decide (q < 2048)
  | .setHandle q _ => decide (q < 2048)
  | .setSpan q _ _ => decide (q < 2048)
  | .spillHandle q _ => decide (q < 2048)
  | .restoreHandle q _ => decide (q < 2048)
  | .mapPages q _ => decide (q < 2048)
  | .unmapPages q _ => decide (q < 2048)
  | .assignCores q _ => decide (q < 2048)
  | .kill q _ => decide (q < 2048)
  | .killCryptoErase x => decide (x < 1024)
  | .pageZeroingDone _ => true
  | .prtCtxKill a p x => a.wellFormed && decide (p < 16) && decide (x < 1024)
  | .contextSaveDone p => decide (p < 16)
  | .scrubDone p => decide (p < 16)
  | .contextRestoreDone p => decide (p < 16)
  | .functionLevelReset f => decide (f < 1024)
  | .hotReset l => decide (l < 16)
  | .linkDown l => decide (l < 16)
  | .loadImage q _ _ => decide (q < 2048)
  | .shardFetchDone x _ _ _ _ => decide (x < 1024)
  | .shardCopyDone x _ _ => decide (x < 1024)
  | .shardTimeout x _ _ => decide (x < 1024)
  | .shardRowsReceived x _ _ r => decide (x < 1024) && decide (r < 16)
  | .swapImage q _ => decide (q < 2048)
  | .slotRetireRelease x _ => decide (x < 1024)
  | .getVersion m => m.wellFormed
  | .getCapabilities m => m.wellFormed
  | .negotiateAlgorithms m _ => m.wellFormed
  | .getDigests m => m.wellFormed
  | .getCertificate m _ _ _ => m.wellFormed
  | .challenge m _ _ => m.wellFormed
  | .getMeasurements m _ _ _ => m.wellFormed
  | .keyExchange m _ _ => m.wellFormed
  | .finish m _ _ => m.wellFormed
  | .heartbeat m _ => m.wellFormed
  | .keyUpdate m _ => m.wellFormed
  | .endSession m _ => m.wellFormed
  | .chunkSend m _ _ _ _ => m.wellFormed
  | .chunkGet m _ _ _ => m.wellFormed
  | .vendorDefinedRequest m _ _ => m.wellFormed
  | .lockInterface f => decide (f < 1024)
  | .spdmSessionTimeout _ => true
  | .fuseWrite _ _ => true
  | .debugSessionStart _ => true
  | .debugSessionEnd => true
  | .debugHalt t => t.wellFormed
  | .debugResume t => t.wellFormed
  | .debugSingleStep t => t.wellFormed
  | .debugRead o => o.wellFormed
  | .budgetReq r _ => decide (r < 16)
  | .budgetGrant r _ => decide (r < 16)
  | .grantTimeout r => decide (r < 16)
  | .status port _ => decide (port < 2)
  | .telemetry port _ => decide (port < 2)
  | .bpmAck port _ => decide (port < 2)
  | .alert port _ => decide (port < 2)
  | .keepalive => true
  | .bpmStatusTimeout port => decide (port < 2)
  | .bpmPgFailure => true
  | .bpmPresentN _ => true
  | .bpmHoldN => true
  | .pnlKillN => true
  | .junctionKillComparator r _ => decide (r < 16)
  | .overcurrentTrip r => decide (r < 16)
  | .phaseFailure r _ => decide (r < 16)
  | .regionPowerUp r => decide (r < 16)
  | .softStartCheck r _ => decide (r < 16)
  | .softStartStepDown r => decide (r < 16)
  | .softStartAbandon r => decide (r < 16)
  | .softStartDone r => decide (r < 16)
  | .regionPowerUpDone r => decide (r < 16)
  | .holdEntry r _ => decide (r < 16)
  | .quietEntry r _ => decide (r < 16)
  | .quietExit r => decide (r < 16)
  | .parkEntry r _ => decide (r < 16)
  | .parkExit r _ => decide (r < 16)
  | .darkCommand r _ => decide (r < 16)
  | .junctionSample r _ _ _ _ => decide (r < 16)
  | .hbmSensorSample stack _ => decide (stack < 32)
  | .throttleEscalation r => decide (r < 16)
  | .thermalCapRaise r => decide (r < 16)
  | .hardTripKillCheck => true
  | .hardTripRecovery r => decide (r < 16)
  | .manifoldSample _ => true
  | .outletCapStep => true
  | .coolantHoldExit => true
  | .coolantComparator pewter _ => decide (pewter < 2)
  | .coolantQuietExit => true
  | .rotationCopyDone r => decide (r < 16)
  | .changeRecord _ => true
  | .mirrorAckTimeout => true
  | .standbySyncDone _ => true
  | .acquire _ _ => true
  | .renew _ _ => true
  | .release _ _ => true
  | .vote _ _ _ => true
  | .leaseRenewal => true
  | .leaseLoss => true
  | .holderSilence => true
  | .southCandidacy => true
  | .mgtLeaseCtlHandover => true
  | .handoverRecord => true
  | .mgmtPortDown _ => true
  | .redfishRequest _ r => r.wellFormed
  | .partitionForm p regions => decide (p < 16) && regions.all (fun r => decide (r < 16))
  | .partitionDissolve p => decide (p < 16)
  | .hostLinkBind l p => decide (l < 16) && p.all (fun k => decide (k < 16))
  | .mctpMessage _ _ => true
  | .firmwareUpdate _ => true
  | .telemetryPublish _ => true
  | .uartCommand _ _ => true
  | .bootRetry pewter _ => decide (pewter < 2)
  | .mgtRcvStart _ => true
  | .mgtRcvData _ => true
  | .mgtRcvCommit _ => true
  | .coldReset => true
  | .pnlPorN _ => true
  | .pnlWrstN _ => true
  | .pnlResetCtlCold => true
  | .pnlResetCtlWarm => true
  | .bootTimebaseStart _ _ => true
  | .bootImageCheck _ _ => true
  | .bootLeaseFormation _ _ _ => true
  | .bootDieCheck reports => reports.all (fun d => decide (d.region < 17))
  | .bootRegionPower r _ => decide (r < 16)
  | .neighbourTest r _ => decide (r < 16)
  | .spareMapping r => decide (r < 16)
  | .bootCrossingCalibration _ => true
  | .bootHbmTraining _ => true
  | .bootLochTraining _ => true
  | .bootCxlTraining _ => true
  | .bootComplete => true
  | .perst port _ _ => decide (port < 8)
  | .prtReset a p => a.wellFormed && decide (p < 16)
  | .partitionResetKillsDone p => decide (p < 16)
  | .prtErrqCfgEnable a p e _ _ => a.wellFormed && decide (p < 16) && decide (e < 17)
  | .prtErrqHead a p e _ => a.wellFormed && decide (p < 16) && decide (e < 17)
  | .lsVdd18Loss => true
  | .setupRegisterWrite a _ _ _ => a.wellFormed
  | .lsVdd18Return => true
  | .vaonRemoval => true
  | .hostLinkUp l => decide (l < 16)
  | .bpmPgRise => true
  | .railOnPgTimeout => true
  | .linkRetrainDone r link => decide (r < 16) && decide (link < 115)
  | .pcRetirementDone stack => decide (stack < 32)
  | .transitEnd c h => decide (c < 4608) && decide (h < 64)
  | .mgmtPortUp _ => true

end Sys2Proof
end

