-- ==== Sys2Proof/Laws/PerInstr.lean ====
section
/-! SUPPORT. One lemma for each command: where the command is an instruction of a cluster, it is well formed exactly when
its cluster lies in one of the sixteen regions of 288 clusters (R20). -/

namespace Sys2Proof.Laws.Ranges

set_option Elab.async false

open Sys2Proof

/-- The instruction words that a command brings, where it is an instruction of a cluster. -/
def words : Instr → Option Issue
  | .nop i => some i
  | .endStep i => some i
  | .br i => some i
  | .jal i => some i
  | .jalr i => some i
  | .loop i => some i
  | .trap i => some i
  | .add i => some i
  | .sub i => some i
  | .and i => some i
  | .or i => some i
  | .xor i => some i
  | .sll i => some i
  | .srl i => some i
  | .sra i => some i
  | .mul i => some i
  | .mulh i => some i
  | .mulhu i => some i
  | .div i => some i
  | .divu i => some i
  | .rem i => some i
  | .remu i => some i
  | .min i => some i
  | .max i => some i
  | .minu i => some i
  | .maxu i => some i
  | .li i => some i
  | .lix i => some i
  | .cmp i => some i
  | .plog i => some i
  | .rdcnt i => some i
  | .movsv i => some i
  | .movvs i => some i
  | .vmov i => some i
  | .vbcast i => some i
  | .msk i => some i
  | .ld i => some i
  | .pk i => some i
  | .st i => some i
  | .movr i => some i
  | .fill i => some i
  | .tagrd i => some i
  | .waitt i => some i
  | .twait i => some i
  | .wld i => some i
  | .mma i => some i
  | .drn i => some i
  | .drnp i => some i
  | .aclr i => some i
  | .vadd i => some i
  | .vsub i => some i
  | .vmul i => some i
  | .vdiv i => some i
  | .vmin i => some i
  | .vmax i => some i
  | .vfma i => some i
  | .vcmp i => some i
  | .vsqrt i => some i
  | .vabs i => some i
  | .vneg i => some i
  | .vfun i => some i
  | .vrsum i => some i
  | .vrmax i => some i
  | .vrmin i => some i
  | .vcvt i => some i
  | .vqnt i => some i
  | .vdq i => some i
  | .ehint i => some i
  | .send i => some i
  | .recv i => some i
  | .mcast i => some i
  | .reduce i => some i
  | .allred i => some i
  | .rscat i => some i
  | .agath i => some i
  | .mld i => some i
  | .mst i => some i
  | .fencef i => some i
  | _ => none

/-- A command that is an instruction of a cluster is well formed exactly when the cluster lies in a region of the panel. -/
def Statement (i : Instr) : Prop := ∀ j : Issue, words i = some j → (i.wellFormed = true ↔ j.c / 288 < 16)

theorem words_iff (j : Issue) : j.wellFormed = true ↔ j.c / 288 < 16 := by
  simp only [Issue.wellFormed, decide_eq_true_eq]
  omega

theorem of_none {i : Instr} (h : words i = none) : Statement i := fun _ k => by simp [h] at k

theorem nop (i : Issue) : Statement (.nop i) := fun _ h => Option.some.inj h ▸ words_iff i
theorem endStep (i : Issue) : Statement (.endStep i) := fun _ h => Option.some.inj h ▸ words_iff i
theorem br (i : Issue) : Statement (.br i) := fun _ h => Option.some.inj h ▸ words_iff i
theorem jal (i : Issue) : Statement (.jal i) := fun _ h => Option.some.inj h ▸ words_iff i
theorem jalr (i : Issue) : Statement (.jalr i) := fun _ h => Option.some.inj h ▸ words_iff i
theorem loop (i : Issue) : Statement (.loop i) := fun _ h => Option.some.inj h ▸ words_iff i
theorem trap (i : Issue) : Statement (.trap i) := fun _ h => Option.some.inj h ▸ words_iff i
theorem add (i : Issue) : Statement (.add i) := fun _ h => Option.some.inj h ▸ words_iff i
theorem sub (i : Issue) : Statement (.sub i) := fun _ h => Option.some.inj h ▸ words_iff i
theorem and (i : Issue) : Statement (.and i) := fun _ h => Option.some.inj h ▸ words_iff i
theorem or (i : Issue) : Statement (.or i) := fun _ h => Option.some.inj h ▸ words_iff i
theorem xor (i : Issue) : Statement (.xor i) := fun _ h => Option.some.inj h ▸ words_iff i
theorem sll (i : Issue) : Statement (.sll i) := fun _ h => Option.some.inj h ▸ words_iff i
theorem srl (i : Issue) : Statement (.srl i) := fun _ h => Option.some.inj h ▸ words_iff i
theorem sra (i : Issue) : Statement (.sra i) := fun _ h => Option.some.inj h ▸ words_iff i
theorem mul (i : Issue) : Statement (.mul i) := fun _ h => Option.some.inj h ▸ words_iff i
theorem mulh (i : Issue) : Statement (.mulh i) := fun _ h => Option.some.inj h ▸ words_iff i
theorem mulhu (i : Issue) : Statement (.mulhu i) := fun _ h => Option.some.inj h ▸ words_iff i
theorem div (i : Issue) : Statement (.div i) := fun _ h => Option.some.inj h ▸ words_iff i
theorem divu (i : Issue) : Statement (.divu i) := fun _ h => Option.some.inj h ▸ words_iff i
theorem rem (i : Issue) : Statement (.rem i) := fun _ h => Option.some.inj h ▸ words_iff i
theorem remu (i : Issue) : Statement (.remu i) := fun _ h => Option.some.inj h ▸ words_iff i
theorem min (i : Issue) : Statement (.min i) := fun _ h => Option.some.inj h ▸ words_iff i
theorem max (i : Issue) : Statement (.max i) := fun _ h => Option.some.inj h ▸ words_iff i
theorem minu (i : Issue) : Statement (.minu i) := fun _ h => Option.some.inj h ▸ words_iff i
theorem maxu (i : Issue) : Statement (.maxu i) := fun _ h => Option.some.inj h ▸ words_iff i
theorem li (i : Issue) : Statement (.li i) := fun _ h => Option.some.inj h ▸ words_iff i
theorem lix (i : Issue) : Statement (.lix i) := fun _ h => Option.some.inj h ▸ words_iff i
theorem cmp (i : Issue) : Statement (.cmp i) := fun _ h => Option.some.inj h ▸ words_iff i
theorem plog (i : Issue) : Statement (.plog i) := fun _ h => Option.some.inj h ▸ words_iff i
theorem rdcnt (i : Issue) : Statement (.rdcnt i) := fun _ h => Option.some.inj h ▸ words_iff i
theorem movsv (i : Issue) : Statement (.movsv i) := fun _ h => Option.some.inj h ▸ words_iff i
theorem movvs (i : Issue) : Statement (.movvs i) := fun _ h => Option.some.inj h ▸ words_iff i
theorem vmov (i : Issue) : Statement (.vmov i) := fun _ h => Option.some.inj h ▸ words_iff i
theorem vbcast (i : Issue) : Statement (.vbcast i) := fun _ h => Option.some.inj h ▸ words_iff i
theorem msk (i : Issue) : Statement (.msk i) := fun _ h => Option.some.inj h ▸ words_iff i
theorem ld (i : Issue) : Statement (.ld i) := fun _ h => Option.some.inj h ▸ words_iff i
theorem pk (i : Issue) : Statement (.pk i) := fun _ h => Option.some.inj h ▸ words_iff i
theorem st (i : Issue) : Statement (.st i) := fun _ h => Option.some.inj h ▸ words_iff i
theorem movr (i : Issue) : Statement (.movr i) := fun _ h => Option.some.inj h ▸ words_iff i
theorem movrRowOperation (c : Nat) (u : Upset) : Statement (.movrRowOperation c u) := of_none rfl
theorem fill (i : Issue) : Statement (.fill i) := fun _ h => Option.some.inj h ▸ words_iff i
theorem fillRowOperation (c : Nat) : Statement (.fillRowOperation c) := of_none rfl
theorem tagrd (i : Issue) : Statement (.tagrd i) := fun _ h => Option.some.inj h ▸ words_iff i
theorem waitt (i : Issue) : Statement (.waitt i) := fun _ h => Option.some.inj h ▸ words_iff i
theorem waittPoll (c : Nat) : Statement (.waittPoll c) := of_none rfl
theorem twait (i : Issue) : Statement (.twait i) := fun _ h => Option.some.inj h ▸ words_iff i
theorem twaitRelease (c : Nat) : Statement (.twaitRelease c) := of_none rfl
theorem fetchFaultReread (c : Nat) (u : Upset) : Statement (.fetchFaultReread c u) := of_none rfl
theorem instructionFetch (c : Nat) (line : Nat) (u : Upset) : Statement (.instructionFetch c line u) := of_none rfl
theorem wld (i : Issue) : Statement (.wld i) := fun _ h => Option.some.inj h ▸ words_iff i
theorem mma (i : Issue) : Statement (.mma i) := fun _ h => Option.some.inj h ▸ words_iff i
theorem drn (i : Issue) : Statement (.drn i) := fun _ h => Option.some.inj h ▸ words_iff i
theorem drnp (i : Issue) : Statement (.drnp i) := fun _ h => Option.some.inj h ▸ words_iff i
theorem drainRowOperation (c : Nat) (u : Upset) : Statement (.drainRowOperation c u) := of_none rfl
theorem aclr (i : Issue) : Statement (.aclr i) := fun _ h => Option.some.inj h ▸ words_iff i
theorem vadd (i : Issue) : Statement (.vadd i) := fun _ h => Option.some.inj h ▸ words_iff i
theorem vsub (i : Issue) : Statement (.vsub i) := fun _ h => Option.some.inj h ▸ words_iff i
theorem vmul (i : Issue) : Statement (.vmul i) := fun _ h => Option.some.inj h ▸ words_iff i
theorem vdiv (i : Issue) : Statement (.vdiv i) := fun _ h => Option.some.inj h ▸ words_iff i
theorem vmin (i : Issue) : Statement (.vmin i) := fun _ h => Option.some.inj h ▸ words_iff i
theorem vmax (i : Issue) : Statement (.vmax i) := fun _ h => Option.some.inj h ▸ words_iff i
theorem vfma (i : Issue) : Statement (.vfma i) := fun _ h => Option.some.inj h ▸ words_iff i
theorem vcmp (i : Issue) : Statement (.vcmp i) := fun _ h => Option.some.inj h ▸ words_iff i
theorem vsqrt (i : Issue) : Statement (.vsqrt i) := fun _ h => Option.some.inj h ▸ words_iff i
theorem vabs (i : Issue) : Statement (.vabs i) := fun _ h => Option.some.inj h ▸ words_iff i
theorem vneg (i : Issue) : Statement (.vneg i) := fun _ h => Option.some.inj h ▸ words_iff i
theorem vfun (i : Issue) : Statement (.vfun i) := fun _ h => Option.some.inj h ▸ words_iff i
theorem vrsum (i : Issue) : Statement (.vrsum i) := fun _ h => Option.some.inj h ▸ words_iff i
theorem vrmax (i : Issue) : Statement (.vrmax i) := fun _ h => Option.some.inj h ▸ words_iff i
theorem vrmin (i : Issue) : Statement (.vrmin i) := fun _ h => Option.some.inj h ▸ words_iff i
theorem vcvt (i : Issue) : Statement (.vcvt i) := fun _ h => Option.some.inj h ▸ words_iff i
theorem vqnt (i : Issue) : Statement (.vqnt i) := fun _ h => Option.some.inj h ▸ words_iff i
theorem vdq (i : Issue) : Statement (.vdq i) := fun _ h => Option.some.inj h ▸ words_iff i
theorem ehint (i : Issue) : Statement (.ehint i) := fun _ h => Option.some.inj h ▸ words_iff i
theorem send (i : Issue) : Statement (.send i) := fun _ h => Option.some.inj h ▸ words_iff i
theorem recv (i : Issue) : Statement (.recv i) := fun _ h => Option.some.inj h ▸ words_iff i
theorem mcast (i : Issue) : Statement (.mcast i) := fun _ h => Option.some.inj h ▸ words_iff i
theorem reduce (i : Issue) : Statement (.reduce i) := fun _ h => Option.some.inj h ▸ words_iff i
theorem allred (i : Issue) : Statement (.allred i) := fun _ h => Option.some.inj h ▸ words_iff i
theorem rscat (i : Issue) : Statement (.rscat i) := fun _ h => Option.some.inj h ▸ words_iff i
theorem agath (i : Issue) : Statement (.agath i) := fun _ h => Option.some.inj h ▸ words_iff i
theorem mld (i : Issue) : Statement (.mld i) := fun _ h => Option.some.inj h ▸ words_iff i
theorem mst (i : Issue) : Statement (.mst i) := fun _ h => Option.some.inj h ▸ words_iff i
theorem fencef (i : Issue) : Statement (.fencef i) := fun _ h => Option.some.inj h ▸ words_iff i
theorem fabricOpTimeout (c tag : Nat) : Statement (.fabricOpTimeout c tag) := of_none rfl
theorem runAheadLoad (c h : Nat) (row : Option Word) (u : Upset) : Statement (.runAheadLoad c h row u) := of_none rfl
theorem runAheadParkedPeek (c k : Nat) (u : Upset) : Statement (.runAheadParkedPeek c k u) := of_none rfl
theorem receivePrefetch (c h : Nat) (row dst : Option Word) : Statement (.receivePrefetch c h row dst) := of_none rfl
theorem tagWaitSatisfied (w : Waiter) (u : Upset) : Statement (.tagWaitSatisfied w u) := of_none rfl
theorem tagWaitTimeout (w : Waiter) : Statement (.tagWaitTimeout w) := of_none rfl
theorem spilledTagUpdate (c h : Nat) (row : Word) (t : TagStep) : Statement (.spilledTagUpdate c h row t) := of_none rfl
theorem heartbeatMiss (c : Nat) (selfCheck : Bool) : Statement (.heartbeatMiss c selfCheck) := of_none rfl
theorem ageingSample (c : Nat) (drift : BitVec 16) : Statement (.ageingSample c drift) := of_none rfl
theorem substitutionRerequest (c : Nat) : Statement (.substitutionRerequest c) := of_none rfl
theorem cluAgeThreshWrite (warn migrate : BitVec 7) : Statement (.cluAgeThreshWrite warn migrate) := of_none rfl
theorem write (p : Nat) : Statement (.write p) := of_none rfl
theorem read (p : Nat) (u : Upset) : Statement (.read p u) := of_none rfl
theorem consume (p : Nat) (u : Upset) : Statement (.consume p u) := of_none rfl
theorem coll (p : Nat) : Statement (.coll p) := of_none rfl
theorem collRes (p : Nat) : Statement (.collRes p) := of_none rfl
theorem completionWaveStart (c k : Nat) : Statement (.completionWaveStart c k) := of_none rfl
theorem memRd (p : Nat) (ecc : Ecc) (reply : Option Row) : Statement (.memRd p ecc reply) := of_none rfl
theorem memWr (p : Nat) : Statement (.memWr p) := of_none rfl
theorem data (p : Nat) : Statement (.data p) := of_none rfl
theorem ack (p : Nat) : Statement (.ack p) := of_none rfl
theorem stale (p : Nat) : Statement (.stale p) := of_none rfl
theorem busyRepresent (c tag : Nat) : Statement (.busyRepresent c tag) := of_none rfl
theorem packetHop (p : Nat) (hop : Hop) : Statement (.packetHop p hop) := of_none rfl
theorem packetLifetimeExpiry (p : Nat) : Statement (.packetLifetimeExpiry p) := of_none rfl
theorem creditStall (r link : Nat) (ticks : Nat) : Statement (.creditStall r link ticks) := of_none rfl
theorem linkRetrain (r link : Nat) : Statement (.linkRetrain r link) := of_none rfl
theorem linkRetrainTimeout (r link : Nat) : Statement (.linkRetrainTimeout r link) := of_none rfl
theorem perimeterRetrainHoldTimeout (die : Nat) : Statement (.perimeterRetrainHoldTimeout die) := of_none rfl
theorem lochLockLoss (r link : Nat) : Statement (.lochLockLoss r link) := of_none rfl
theorem routeEntryWrite (r d : Nat) (entry : BitVec 32) (epoch : Nat) : Statement (.routeEntryWrite r d entry epoch) := of_none rfl
theorem flowRouteResume (c k : Nat) : Statement (.flowRouteResume c k) := of_none rfl
theorem abortDrainEnd (p : Nat) : Statement (.abortDrainEnd p) := of_none rfl
theorem ref10mWindow (ppm : Int) : Statement (.ref10mWindow ppm) := of_none rfl
theorem ref10mEdgeLoss : Statement (.ref10mEdgeLoss) := of_none rfl
theorem refPpsPulse (frac : Int) : Statement (.refPpsPulse frac) := of_none rfl
theorem refPpsMissing : Statement (.refPpsMissing) := of_none rfl
theorem ptpSample (offset : Int) (delayNs : Nat) (clockClass : Nat) : Statement (.ptpSample offset delayNs clockClass) := of_none rfl
theorem ptpSampleTimeout : Statement (.ptpSampleTimeout) := of_none rfl
theorem referenceRevert : Statement (.referenceRevert) := of_none rfl
theorem tbsTodSet (second : BitVec 48) : Statement (.tbsTodSet second) := of_none rfl
theorem tbXoEdgeLoss : Statement (.tbXoEdgeLoss) := of_none rfl
theorem beaconStrobe (d : Nat) (word : BitVec 96) : Statement (.beaconStrobe d word) := of_none rfl
theorem beaconMiss (d : Nat) : Statement (.beaconMiss d) := of_none rfl
theorem beaconMissRetire (d : Nat) : Statement (.beaconMissRetire d) := of_none rfl
theorem tickLoss (d : Option Nat) : Statement (.tickLoss d) := of_none rfl
theorem stepChangePllLocked (r : Nat) : Statement (.stepChangePllLocked r) := of_none rfl
theorem clockSwitch (r : Nat) : Statement (.clockSwitch r) := of_none rfl
theorem crossingCalibration (x : Nat) (markers : List Nat) : Statement (.crossingCalibration x markers) := of_none rfl
theorem crossingCalibrationEnd (x : Nat) : Statement (.crossingCalibrationEnd x) := of_none rfl
theorem crossingWordRelease (x late : Nat) : Statement (.crossingWordRelease x late) := of_none rfl
theorem droopStretch (d : Nat) (deep : Bool) : Statement (.droopStretch d deep) := of_none rfl
theorem droopGateExpiry (d : Nat) : Statement (.droopGateExpiry d) := of_none rfl
theorem droopHoldExit (d : Nat) : Statement (.droopHoldExit d) := of_none rfl
theorem stepLaunch (q k : Nat) : Statement (.stepLaunch q k) := of_none rfl
theorem stepRelease (p : Nat) : Statement (.stepRelease p) := of_none rfl
theorem stepComplete (p : Nat) : Statement (.stepComplete p) := of_none rfl
theorem checkpoint (q k : Nat) : Statement (.checkpoint q k) := of_none rfl
theorem checkpointDurable (p : Nat) : Statement (.checkpointDurable p) := of_none rfl
theorem recoveryStart (p : Nat) : Statement (.recoveryStart p) := of_none rfl
theorem neighbourTestTarget (c : Nat) (verdicts : List Verdict) : Statement (.neighbourTestTarget c verdicts) := of_none rfl
theorem recoveryRestore (p : Nat) : Statement (.recoveryRestore p) := of_none rfl
theorem recoveryRestoreDone (p : Nat) : Statement (.recoveryRestoreDone p) := of_none rfl
theorem recoveryRerelease (p : Nat) : Statement (.recoveryRerelease p) := of_none rfl
theorem shrinkTimeout (p : Nat) : Statement (.shrinkTimeout p) := of_none rfl
theorem substitutionCopyDone (c : Nat) (ok : Bool) : Statement (.substitutionCopyDone c ok) := of_none rfl
theorem correctedWriteBack (sector : Nat) : Statement (.correctedWriteBack sector) := of_none rfl
theorem refresh (stack : Nat) : Statement (.refresh stack) := of_none rfl
theorem patrolScrub (sector : Nat) (ecc : Ecc) : Statement (.patrolScrub sector ecc) := of_none rfl
theorem patrolPeriodEnd (stack : Nat) (complete : Bool) : Statement (.patrolPeriodEnd stack complete) := of_none rfl
theorem vacateTimeout (stack : Nat) : Statement (.vacateTimeout stack) := of_none rfl
theorem stackFailure (stack : Nat) : Statement (.stackFailure stack) := of_none rfl
theorem stackFailureRemap (r : Nat) : Statement (.stackFailureRemap r) := of_none rfl
theorem cxlLinkUp (port : Nat) (dev : CxlDevice) : Statement (.cxlLinkUp port dev) := of_none rfl
theorem windowCreate (w part base size : Nat) (devs : List Nat) : Statement (.windowCreate w part base size devs) := of_none rfl
theorem windowZeroingDone (w : Nat) : Statement (.windowZeroingDone w) := of_none rfl
theorem windowOffline (w : Nat) : Statement (.windowOffline w) := of_none rfl
theorem windowDelete (w : Nat) : Statement (.windowDelete w) := of_none rfl
theorem cxlDeviceLoss (w : Nat) : Statement (.cxlDeviceLoss w) := of_none rfl
theorem cxlMemTimeout (port : Nat) : Statement (.cxlMemTimeout port) := of_none rfl
theorem cxlIdeRekey (port : Nat) : Statement (.cxlIdeRekey port) := of_none rfl
theorem vl8re8V (n : Nat) (addr : Word) (u : Upset) : Statement (.vl8re8V n addr u) := of_none rfl
theorem vs8rV (n : Nat) (addr : Word) (data : Row) : Statement (.vs8rV n addr data) := of_none rfl
theorem qtarnctlWrite (n : Nat) (v : Word) : Statement (.qtarnctlWrite n v) := of_none rfl
theorem tarnAccessCancel (n : Nat) : Statement (.tarnAccessCancel n) := of_none rfl
theorem stepInputStore (n addr len : Nat) (data : Row) : Statement (.stepInputStore n addr len data) := of_none rfl
theorem directoryEviction (r line : Nat) : Statement (.directoryEviction r line) := of_none rfl
theorem msiWrite (sender : Agent) (hart file identity : Nat) : Statement (.msiWrite sender hart file identity) := of_none rfl
theorem coreFault (n : Nat) (kind : CoreFaultKind) : Statement (.coreFault n kind) := of_none rfl
theorem configurationRequest (die : Nat) : Statement (.configurationRequest die) := of_none rfl
theorem bar2Read (f : Nat) (trusted : Bool) (off len : Nat) (u : Upset) : Statement (.bar2Read f trusted off len u) := of_none rfl
theorem bar2Write (f : Nat) (trusted : Bool) (off len : Nat) (data : Row) : Statement (.bar2Write f trusted off len data) := of_none rfl
theorem sqDoorbell (w : Agent) (q : Nat) (v : Word) : Statement (.sqDoorbell w q v) := of_none rfl
theorem cqDoorbell (w : Agent) (q : Nat) (v : Word) : Statement (.cqDoorbell w q v) := of_none rfl
theorem qpEnable (f q : Nat) (cfg : Word) : Statement (.qpEnable f q cfg) := of_none rfl
theorem qpDisable (f q : Nat) : Statement (.qpDisable f q) := of_none rfl
theorem contextCreate (f : Nat) (debugOpen : Bool) : Statement (.contextCreate f debugOpen) := of_none rfl
theorem descriptorFetch (q : Nat) (d : Desc) : Statement (.descriptorFetch q d) := of_none rfl
theorem descriptorStart (q k : Nat) : Statement (.descriptorStart q k) := of_none rfl
theorem descriptorNop (q k : Nat) : Statement (.descriptorNop q k) := of_none rfl
theorem dmaCopy (q k : Nat) : Statement (.dmaCopy q k) := of_none rfl
theorem dmaUnit (q k : Nat) (host : Row) (u : Upset) : Statement (.dmaUnit q k host u) := of_none rfl
theorem hostCompletionTimeout (w : Waiter) : Statement (.hostCompletionTimeout w) := of_none rfl
theorem journalMark (q k : Nat) : Statement (.journalMark q k) := of_none rfl
theorem fence (q k : Nat) : Statement (.fence q k) := of_none rfl
theorem setParam (q k : Nat) : Statement (.setParam q k) := of_none rfl
theorem selectLayout (q k : Nat) : Statement (.selectLayout q k) := of_none rfl
theorem setHandle (q k : Nat) : Statement (.setHandle q k) := of_none rfl
theorem setSpan (q k : Nat) (bytes : List Word) : Statement (.setSpan q k bytes) := of_none rfl
theorem spillHandle (q k : Nat) : Statement (.spillHandle q k) := of_none rfl
theorem restoreHandle (q k : Nat) : Statement (.restoreHandle q k) := of_none rfl
theorem mapPages (q k : Nat) : Statement (.mapPages q k) := of_none rfl
theorem unmapPages (q k : Nat) : Statement (.unmapPages q k) := of_none rfl
theorem assignCores (q k : Nat) : Statement (.assignCores q k) := of_none rfl
theorem kill (q k : Nat) : Statement (.kill q k) := of_none rfl
theorem killCryptoErase (x : Nat) : Statement (.killCryptoErase x) := of_none rfl
theorem pageZeroingDone (pages : List Nat) : Statement (.pageZeroingDone pages) := of_none rfl
theorem prtCtxKill (a : Agent) (p x : Nat) : Statement (.prtCtxKill a p x) := of_none rfl
theorem contextSaveDone (p : Nat) : Statement (.contextSaveDone p) := of_none rfl
theorem scrubDone (p : Nat) : Statement (.scrubDone p) := of_none rfl
theorem contextRestoreDone (p : Nat) : Statement (.contextRestoreDone p) := of_none rfl
theorem functionLevelReset (f : Nat) : Statement (.functionLevelReset f) := of_none rfl
theorem hotReset (l : Nat) : Statement (.hotReset l) := of_none rfl
theorem linkDown (l : Nat) : Statement (.linkDown l) := of_none rfl
theorem loadImage (q k : Nat) (img : Image) : Statement (.loadImage q k img) := of_none rfl
theorem shardFetchDone (x slot shard : Nat) (r : FetchResult) (rows : List Row) : Statement (.shardFetchDone x slot shard r rows) := of_none rfl
theorem shardCopyDone (x slot shard : Nat) : Statement (.shardCopyDone x slot shard) := of_none rfl
theorem shardTimeout (x slot shard : Nat) : Statement (.shardTimeout x slot shard) := of_none rfl
theorem shardRowsReceived (x slot shard r : Nat) : Statement (.shardRowsReceived x slot shard r) := of_none rfl
theorem swapImage (q k : Nat) : Statement (.swapImage q k) := of_none rfl
theorem slotRetireRelease (x slot : Nat) : Statement (.slotRetireRelease x slot) := of_none rfl
theorem getVersion (m : SpdmPath) : Statement (.getVersion m) := of_none rfl
theorem getCapabilities (m : SpdmPath) : Statement (.getCapabilities m) := of_none rfl
theorem negotiateAlgorithms (m : SpdmPath) (a : SpdmAlgorithms) : Statement (.negotiateAlgorithms m a) := of_none rfl
theorem getDigests (m : SpdmPath) : Statement (.getDigests m) := of_none rfl
theorem getCertificate (m : SpdmPath) (slot off len : Nat) : Statement (.getCertificate m slot off len) := of_none rfl
theorem challenge (m : SpdmPath) (slot : Nat) (nonce : BitVec 256) : Statement (.challenge m slot nonce) := of_none rfl
theorem getMeasurements (m : SpdmPath) (slot index : Nat) (nonce : BitVec 256) : Statement (.getMeasurements m slot index nonce) := of_none rfl
theorem keyExchange (m : SpdmPath) (slot : Nat) (key : Nat) : Statement (.keyExchange m slot key) := of_none rfl
theorem finish (m : SpdmPath) (session : Nat) (ok : Bool) : Statement (.finish m session ok) := of_none rfl
theorem heartbeat (m : SpdmPath) (session : Nat) : Statement (.heartbeat m session) := of_none rfl
theorem keyUpdate (m : SpdmPath) (session : Nat) : Statement (.keyUpdate m session) := of_none rfl
theorem endSession (m : SpdmPath) (session : Nat) : Statement (.endSession m session) := of_none rfl
theorem chunkSend (m : SpdmPath) (session handle seq : Nat) (last : Bool) : Statement (.chunkSend m session handle seq last) := of_none rfl
theorem chunkGet (m : SpdmPath) (session handle seq : Nat) : Statement (.chunkGet m session handle seq) := of_none rfl
theorem vendorDefinedRequest (m : SpdmPath) (session : Nat) (v : VendorRequest) : Statement (.vendorDefinedRequest m session v) := of_none rfl
theorem lockInterface (f : Nat) : Statement (.lockInterface f) := of_none rfl
theorem spdmSessionTimeout (session : Nat) : Statement (.spdmSessionTimeout session) := of_none rfl
theorem fuseWrite (epoch : Nat) (v : FuseValue) : Statement (.fuseWrite epoch v) := of_none rfl
theorem debugSessionStart (t : DebugTrigger) : Statement (.debugSessionStart t) := of_none rfl
theorem debugSessionEnd : Statement (.debugSessionEnd) := of_none rfl
theorem debugHalt (t : DebugTarget) : Statement (.debugHalt t) := of_none rfl
theorem debugResume (t : DebugTarget) : Statement (.debugResume t) := of_none rfl
theorem debugSingleStep (t : DebugTarget) : Statement (.debugSingleStep t) := of_none rfl
theorem debugRead (o : DebugObject) : Statement (.debugRead o) := of_none rfl
theorem budgetReq (r : Nat) (req : Word) : Statement (.budgetReq r req) := of_none rfl
theorem budgetGrant (r : Nat) (grant : BitVec 96) : Statement (.budgetGrant r grant) := of_none rfl
theorem grantTimeout (r : Nat) : Statement (.grantTimeout r) := of_none rfl
theorem status (port : Nat) (f : BitVec 256) : Statement (.status port f) := of_none rfl
theorem telemetry (port : Nat) (f : BitVec 256) : Statement (.telemetry port f) := of_none rfl
theorem bpmAck (port : Nat) (f : BitVec 256) : Statement (.bpmAck port f) := of_none rfl
theorem alert (port : Nat) (f : BitVec 256) : Statement (.alert port f) := of_none rfl
theorem keepalive : Statement (.keepalive) := of_none rfl
theorem bpmStatusTimeout (port : Nat) : Statement (.bpmStatusTimeout port) := of_none rfl
theorem bpmPgFailure : Statement (.bpmPgFailure) := of_none rfl
theorem bpmPresentN (level : Bool) : Statement (.bpmPresentN level) := of_none rfl
theorem bpmHoldN : Statement (.bpmHoldN) := of_none rfl
theorem pnlKillN : Statement (.pnlKillN) := of_none rfl
theorem junctionKillComparator (r site : Nat) : Statement (.junctionKillComparator r site) := of_none rfl
theorem overcurrentTrip (r : Nat) : Statement (.overcurrentTrip r) := of_none rfl
theorem phaseFailure (r phase : Nat) : Statement (.phaseFailure r phase) := of_none rfl
theorem regionPowerUp (r : Nat) : Statement (.regionPowerUp r) := of_none rfl
theorem softStartCheck (r iseg : Nat) : Statement (.softStartCheck r iseg) := of_none rfl
theorem softStartStepDown (r : Nat) : Statement (.softStartStepDown r) := of_none rfl
theorem softStartAbandon (r : Nat) : Statement (.softStartAbandon r) := of_none rfl
theorem softStartDone (r : Nat) : Statement (.softStartDone r) := of_none rfl
theorem regionPowerUpDone (r : Nat) : Statement (.regionPowerUpDone r) := of_none rfl
theorem holdEntry (r : Nat) (epoch : Nat) : Statement (.holdEntry r epoch) := of_none rfl
theorem quietEntry (r : Nat) (epoch : Nat) : Statement (.quietEntry r epoch) := of_none rfl
theorem quietExit (r : Nat) : Statement (.quietExit r) := of_none rfl
theorem parkEntry (r : Nat) (epoch : Nat) : Statement (.parkEntry r epoch) := of_none rfl
theorem parkExit (r : Nat) (epoch : Nat) : Statement (.parkExit r epoch) := of_none rfl
theorem darkCommand (r : Nat) (epoch : Nat) : Statement (.darkCommand r epoch) := of_none rfl
theorem junctionSample (r site hot : Nat) (diode ringOsc : Int) : Statement (.junctionSample r site hot diode ringOsc) := of_none rfl
theorem hbmSensorSample (stack : Nat) (t : Int) : Statement (.hbmSensorSample stack t) := of_none rfl
theorem throttleEscalation (r : Nat) : Statement (.throttleEscalation r) := of_none rfl
theorem thermalCapRaise (r : Nat) : Statement (.thermalCapRaise r) := of_none rfl
theorem hardTripKillCheck : Statement (.hardTripKillCheck) := of_none rfl
theorem hardTripRecovery (r : Nat) : Statement (.hardTripRecovery r) := of_none rfl
theorem manifoldSample (m : Manifold) : Statement (.manifoldSample m) := of_none rfl
theorem outletCapStep : Statement (.outletCapStep) := of_none rfl
theorem coolantHoldExit : Statement (.coolantHoldExit) := of_none rfl
theorem coolantComparator (pewter : Nat) (m : Manifold) : Statement (.coolantComparator pewter m) := of_none rfl
theorem coolantQuietExit : Statement (.coolantQuietExit) := of_none rfl
theorem rotationCopyDone (r : Nat) : Statement (.rotationCopyDone r) := of_none rfl
theorem changeRecord (seq : Nat) : Statement (.changeRecord seq) := of_none rfl
theorem mirrorAckTimeout : Statement (.mirrorAckTimeout) := of_none rfl
theorem standbySyncDone (lastSeq : Nat) : Statement (.standbySyncDone lastSeq) := of_none rfl
theorem acquire (v : Voter) (f : BitVec 256) : Statement (.acquire v f) := of_none rfl
theorem renew (v : Voter) (f : BitVec 256) : Statement (.renew v f) := of_none rfl
theorem release (v : Voter) (f : BitVec 256) : Statement (.release v f) := of_none rfl
theorem vote (at_ : Voter) (fromV : Voter) (f : BitVec 256) : Statement (.vote at_ fromV f) := of_none rfl
theorem leaseRenewal : Statement (.leaseRenewal) := of_none rfl
theorem leaseLoss : Statement (.leaseLoss) := of_none rfl
theorem holderSilence : Statement (.holderSilence) := of_none rfl
theorem southCandidacy : Statement (.southCandidacy) := of_none rfl
theorem mgtLeaseCtlHandover : Statement (.mgtLeaseCtlHandover) := of_none rfl
theorem handoverRecord : Statement (.handoverRecord) := of_none rfl
theorem mgmtPortDown (i : Nat) : Statement (.mgmtPortDown i) := of_none rfl
theorem redfishRequest (who : RedfishUser) (r : RedfishAction) : Statement (.redfishRequest who r) := of_none rfl
theorem partitionForm (p : Nat) (regions : List Nat) : Statement (.partitionForm p regions) := of_none rfl
theorem partitionDissolve (p : Nat) : Statement (.partitionDissolve p) := of_none rfl
theorem hostLinkBind (l : Nat) (p : Option Nat) : Statement (.hostLinkBind l p) := of_none rfl
theorem mctpMessage (len : Nat) (kind : MctpKind) : Statement (.mctpMessage len kind) := of_none rfl
theorem firmwareUpdate (img : FirmwareImage) : Statement (.firmwareUpdate img) := of_none rfl
theorem telemetryPublish (quantity : Nat) : Statement (.telemetryPublish quantity) := of_none rfl
theorem uartCommand (len : Nat) (readOnly : Bool) : Statement (.uartCommand len readOnly) := of_none rfl
theorem bootRetry (pewter : Nat) (check : BootCheck) : Statement (.bootRetry pewter check) := of_none rfl
theorem mgtRcvStart (len : Nat) : Statement (.mgtRcvStart len) := of_none rfl
theorem mgtRcvData (w : BitVec 32) : Statement (.mgtRcvData w) := of_none rfl
theorem mgtRcvCommit (img : FirmwareImage) : Statement (.mgtRcvCommit img) := of_none rfl
theorem coldReset : Statement (.coldReset) := of_none rfl
theorem pnlPorN (lowNs : Nat) : Statement (.pnlPorN lowNs) := of_none rfl
theorem pnlWrstN (lowNs : Nat) : Statement (.pnlWrstN lowNs) := of_none rfl
theorem pnlResetCtlCold : Statement (.pnlResetCtlCold) := of_none rfl
theorem pnlResetCtlWarm : Statement (.pnlResetCtlWarm) := of_none rfl
theorem bootTimebaseStart (north south : BootCheck) : Statement (.bootTimebaseStart north south) := of_none rfl
theorem bootImageCheck (north south : FirmwareImage) : Statement (.bootImageCheck north south) := of_none rfl
theorem bootLeaseFormation (fuseNorth fuseSouth : BitVec 128) (treeDelay : List (Nat × Nat)) : Statement (.bootLeaseFormation fuseNorth fuseSouth treeDelay) := of_none rfl
theorem bootDieCheck (reports : List DieReport) : Statement (.bootDieCheck reports) := of_none rfl
theorem bootRegionPower (r : Nat) (tileOk : Bool) : Statement (.bootRegionPower r tileOk) := of_none rfl
theorem neighbourTest (r : Nat) (verdicts : List Verdict) : Statement (.neighbourTest r verdicts) := of_none rfl
theorem spareMapping (r : Nat) : Statement (.spareMapping r) := of_none rfl
theorem bootCrossingCalibration (ls : List (Nat × List Nat)) : Statement (.bootCrossingCalibration ls) := of_none rfl
theorem bootHbmTraining (failed : List Nat) : Statement (.bootHbmTraining failed) := of_none rfl
theorem bootLochTraining (failed : List (Nat × Nat)) : Statement (.bootLochTraining failed) := of_none rfl
theorem bootCxlTraining (devs : List (Nat × CxlDevice)) : Statement (.bootCxlTraining devs) := of_none rfl
theorem bootComplete : Statement (.bootComplete) := of_none rfl
theorem perst (port : Nat) (asserted : Bool) (ns : Nat) : Statement (.perst port asserted ns) := of_none rfl
theorem prtReset (a : Agent) (p : Nat) : Statement (.prtReset a p) := of_none rfl
theorem partitionResetKillsDone (p : Nat) : Statement (.partitionResetKillsDone p) := of_none rfl
theorem prtErrqCfgEnable (a : Agent) (p e : Nat) (base cfg : Word) : Statement (.prtErrqCfgEnable a p e base cfg) := of_none rfl
theorem prtErrqHead (a : Agent) (p e : Nat) (head : BitVec 16) : Statement (.prtErrqHead a p e head) := of_none rfl
theorem lsVdd18Loss : Statement (.lsVdd18Loss) := of_none rfl
theorem setupRegisterWrite (a : Agent) (off : Nat) (width : Nat) (v : Word) : Statement (.setupRegisterWrite a off width v) := of_none rfl
theorem lsVdd18Return : Statement (.lsVdd18Return) := of_none rfl
theorem vaonRemoval : Statement (.vaonRemoval) := of_none rfl
theorem hostLinkUp (l : Nat) : Statement (.hostLinkUp l) := of_none rfl
theorem bpmPgRise : Statement (.bpmPgRise) := of_none rfl
theorem railOnPgTimeout : Statement (.railOnPgTimeout) := of_none rfl
theorem linkRetrainDone (r link : Nat) : Statement (.linkRetrainDone r link) := of_none rfl
theorem pcRetirementDone (stack : Nat) : Statement (.pcRetirementDone stack) := of_none rfl
theorem transitEnd (c h : Nat) : Statement (.transitEnd c h) := of_none rfl
theorem mgmtPortUp (i : Nat) : Statement (.mgmtPortUp i) := of_none rfl

end Sys2Proof.Laws.Ranges
end

