-- ==== Sys2Proof/Laws/Retire.lean ====
section
/-! SUPPORT. What retirement does: an instruction that is ready and legal carries its effect out, one whose guard is
false only moves on, an illegal one traps; and what each end of an effect leaves. -/

namespace Sys2Proof.Machine

set_option Elab.async false

open Sys2Proof

theorem ready_canRetire {s : State} {i : Issue} (h : Ready s i) (op : Nat) : s.canRetire op i = true := by
  obtain ⟨h1, h2, h3, h4, -⟩ := h
  simp [State.canRetire, h1, h2, h3, h4]

theorem ready_address {s : State} {i : Issue} (h : Ready s i) : s.fetchAddressFault i = false := by
  obtain ⟨-, -, -, -, h5, h6, h7, h8, -⟩ := h
  simp only [State.regsOf] at h5 h6 h7 h8
  simp [State.fetchAddressFault, h5, h7, h8]
  omega

theorem ready_integrity {s : State} {i : Issue} (h : Ready s i) : s.integrityLine i = none := by
  obtain ⟨-, -, -, -, h5, h6, h7, h8, -⟩ := h
  simp only [State.regsOf] at h5 h6 h7 h8
  simp [State.integrityLine, h7, h8]

/-- A ready, legal instruction carries out its effect. -/
theorem ready_retireWith {s : State} {i : Issue} (h : Ready s i) (op : Nat) (off body : State → Effect) :
    s.retireWith op i true off body = s.finish i (body s) := by
  have h9 := h.2.2.2.2.2.2.2.2
  simp [State.retireWith, ready_canRetire h, ready_address h, ready_integrity h, State.perform, h9.1, h9.2]

theorem ready_retire {s : State} {i : Issue} (h : Ready s i) {legal : Bool} (hl : legal = true) (op : Nat) (body : State → Effect) :
    s.retire op i legal body = .next (s.finish i (body s)) := by
  subst hl
  simp only [State.retire, ready_retireWith h]

/-- A ready instruction whose encoding is illegal traps with cause 0x01. -/
theorem ready_illegal {s : State} {i : Issue} (h : Ready s i) {legal : Bool} (hl : legal = false) (op : Nat) (body : State → Effect) :
    s.retire op i legal body = .next (s.trap i.c 0x01 0 0) := by
  subst hl
  have h9 := h.2.2.2.2.2.2.2.2
  simp [State.retire, State.retireWith, ready_canRetire h, ready_address h, ready_integrity h]

/-- The ends of an effect that writes the register file: in order, past a loop body, and at a jump. -/
theorem finish_ok_regs (s : State) (i : Issue) (f : Regs → Regs) :
    Retires s (s.finish i (.ok (s.modRegs i.c f))) i (f (s.regsOf i.c)) := by
  refine ⟨⟨rfl, ?_⟩, ?_, ?_, ?_, ?_, ?_⟩
  · intro d hd; simp [State.finish, State.modRegs, State.setCl_cl_ne _ _ _ _ hd]
  all_goals simp [State.finish, State.modRegs, State.regsOf, OnlyRetires, retireCluster]

theorem finish_ok (s : State) (i : Issue) : Retires s (s.finish i (.ok s)) i (s.regsOf i.c) := by
  refine ⟨⟨rfl, ?_⟩, ?_, ?_, ?_, ?_, ?_⟩
  · intro d hd; simp [State.finish, State.setCl_cl_ne _ _ _ _ hd]
  all_goals simp [State.finish, State.regsOf, OnlyRetires, retireCluster]

theorem finish_skip (s : State) (i : Issue) (pc : Nat) : Moves s (s.finish i (.skip s pc)) i (s.regsOf i.c) true pc := by
  refine ⟨⟨rfl, ?_⟩, ?_, ?_, ?_, ?_, ?_⟩
  · intro d hd; simp [State.finish, State.setCl_cl_ne _ _ _ _ hd]
  all_goals simp [State.finish, State.regsOf, OnlyRetires, retireCluster]

theorem finish_jump_regs (s : State) (i : Issue) (f : Regs → Regs) (pc : Nat) :
    Moves s (s.finish i (.jump (s.modRegs i.c f) pc)) i (f (s.regsOf i.c)) false pc := by
  refine ⟨⟨rfl, ?_⟩, ?_, ?_, ?_, ?_, ?_⟩
  · intro d hd; simp [State.finish, State.modRegs, State.setCl_cl_ne _ _ _ _ hd]
  all_goals simp [State.finish, State.modRegs, State.regsOf, OnlyRetires, retireCluster]

theorem finish_jump (s : State) (i : Issue) (pc : Nat) : Moves s (s.finish i (.jump s pc)) i (s.regsOf i.c) false pc := by
  refine ⟨⟨rfl, ?_⟩, ?_, ?_, ?_, ?_, ?_⟩
  · intro d hd; simp [State.finish, State.setCl_cl_ne _ _ _ _ hd]
  all_goals simp [State.finish, State.regsOf, OnlyRetires, retireCluster]

/-! ## Errors and traps leave a cluster's registers -/

theorem SameArch.refl (v : Cluster) : SameArch v v := by simp [SameArch]

theorem SameArch.trans {u v w : Cluster} (h : SameArch u v) (k : SameArch v w) : SameArch u w := by
  obtain ⟨h1, h2, h3, h4, h5, h6, h7, h8, h9, h0⟩ := h
  obtain ⟨k1, k2, k3, k4, k5, k6, k7, k8, k9, k0⟩ := k
  exact ⟨k1.trans h1, k2.trans h2, k3.trans h3, k4.trans h4, k5.trans h5, k6.trans h6, k7.trans h7, k8.trans h8, k9.trans h9,
    fun h => k0 (h0 h)⟩

theorem SameArch.abort (v : Cluster) : SameArch v (abortCluster v) := by simp [SameArch, abortCluster]

/-- Two states whose clusters are the same but for what an error's consequences change. -/
def Calm (s t : State) : Prop := ∀ c, SameArch (s.cl c) (t.cl c)

theorem Calm.refl (s : State) : Calm s s := fun c => SameArch.refl (s.cl c)

theorem Calm.trans {s t u : State} (h : Calm s t) (k : Calm t u) : Calm s u := fun c => (h c).trans (k c)

theorem Calm.of_eq {s t : State} (h : t.clusters = s.clusters) : Calm s t := by
  intro c
  have : t.cl c = s.cl c := by simp only [State.cl_def, h]
  rw [this]
  exact SameArch.refl _

theorem Calm.foldl {α : Type} (g : State → α → State) (h : ∀ t a, Calm t (g t a)) (l : List α) (s : State) :
    Calm s (l.foldl g s) := by
  induction l generalizing s with
  | nil => exact Calm.refl s
  | cons a l ih => exact (h s a).trans (ih _)

theorem modPartClusters_abort (s : State) (p : Nat) : Calm s (s.modPartClusters p (fun _ v => abortCluster v)) := by
  intro c
  simp only [State.cl_def, State.modPartClusters]
  rcases Tbl.get_mapVal (fun _ => ({} : Cluster)) (fun c v => if inRegions (s.part p).regions c then abortCluster v else v)
    s.clusters c with h | ⟨h, k⟩
  · rw [h]
    split
    · exact SameArch.abort _
    · exact SameArch.refl _
  · rw [h, k]
    exact SameArch.refl _

theorem haltStep_calm (s : State) (p : Nat) : Calm s (s.haltStep p) := by
  unfold State.haltStep
  split
  · exact Calm.refl s
  · exact (modPartClusters_abort s p).trans (Calm.of_eq (by simp))

theorem killStart_calm (s : State) (x : Nat) (own : Option (Nat × Nat)) : Calm s (s.killStart x own) := by
  unfold State.killStart
  dsimp only
  split
  · exact Calm.refl s
  · exact Calm.refl s
  · refine Calm.trans (t := if ((s.part (s.ctx x).part).running.map RunStep.ctx) = some x then s.haltStep (s.ctx x).part else s.dropRequests x) ?_ (Calm.of_eq (by simp))
    split
    · exact haltStep_calm s _
    · exact Calm.of_eq (by simp)

theorem contextFatal_calm (s : State) (x code : Nat) (src : Source) : Calm s (s.contextFatal x code src) := by
  unfold State.contextFatal
  dsimp only
  split
  · exact Calm.of_eq (by simp)
  · exact Calm.of_eq (by simp)
  · exact (Calm.of_eq (by simp)).trans (killStart_calm _ _ _)

theorem contained_calm (s : State) (x code : Nat) (src : Source) : Calm s (s.contained x code src) := by
  unfold State.contained
  dsimp only
  split
  · exact Calm.of_eq (by simp)
  · exact Calm.of_eq (by simp)
  · split
    · exact contextFatal_calm s _ _ _
    · exact Calm.of_eq (by simp)

theorem partFatal_calm (s : State) (p code : Nat) (src : Source) : Calm s (s.partFatal p code src) := by
  unfold State.partFatal State.resetPart
  have h (u : State) (l : List Nat) :
      Calm u ((l.foldl (fun s x => s.killStart x none) u).modPart p (fun v => { v with resetting := true })) :=
    (Calm.foldl (fun (s : State) x => s.killStart x none) (fun t x => killStart_calm t x none) l u).trans (Calm.of_eq (by simp))
  exact (Calm.of_eq (t := s.note code { src with part := p }) (by simp)).trans (h _ _)

theorem raise_calm (s : State) (code : Nat) (src : Source) : Calm s (s.raise code src) := by
  unfold State.raise
  split
  · exact contained_calm s _ _ _
  · exact contextFatal_calm s _ _ _
  · exact partFatal_calm s _ _ _
  · exact Calm.of_eq (by simp)
  · exact Calm.of_eq (by simp)

theorem trapEvent_calm (s : State) (c cause : Nat) : Calm s (s.trapEvent c cause) := by
  unfold State.trapEvent
  split
  · exact Calm.refl s
  · dsimp only
    split
    · exact contextFatal_calm s _ _ _
    · split
      · exact Calm.refl s
      · split
        · exact (Calm.of_eq (by simp)).trans (raise_calm _ _ _)
        · exact raise_calm s _ _

/-- A trap records its cause and program counter and writes no register. -/
theorem trap_traps (s : State) (i : Issue) (cause sw row : Nat) : Traps s (s.trap i.c cause sw row) i cause sw row := by
  refine SameArch.trans ?_ (trapEvent_calm _ i.c cause i.c)
  simp [SameArch, trapCluster, trapOf, State.regsOf]

end Sys2Proof.Machine
end

