-- ==== Sys2Proof/Laws/Rows.lean ====
section
/-! SUPPORT. What an access to a tarn row does: Table 3.4 at work on one row, all other rows, memory and every cluster's
registers left alone. -/

namespace Sys2Proof.Machine

set_option Elab.async false

open Sys2Proof

/-- A cluster but for its run-ahead state. -/
def SameButAhead (v w : Cluster) : Prop := w = { v with ahead := w.ahead }

theorem SameButAhead.refl (v : Cluster) : SameButAhead v v := rfl

theorem SameButAhead.trans {u v w : Cluster} (h : SameButAhead u v) (k : SameButAhead v w) : SameButAhead u w := by
  unfold SameButAhead at *
  rw [k, h]

/-- What run-ahead hears of a row changes no cluster but in its run-ahead state. -/
theorem touch_cl (s : State) (c n d : Nat) : SameButAhead (s.cl d) ((s.touch c n).cl d) := by
  have h : (s.touch c n).cl d = (if (s.cl c).ahead.loads.isEmpty && (s.cl c).ahead.watches.isEmpty then s
      else s.modCl c (markStale n)).cl d := by
    unfold State.touch
    simp only [State.cl_def]
    rw [foldl_clusters _ (by simp)]
  rw [h]
  split
  · exact SameButAhead.refl _
  · simp only [State.modCl_eq, State.setCl_cl]
    split
    · next h => subst h; rfl
    · exact SameButAhead.refl _

theorem trow_setTrow (s : State) (c n : Nat) (v : TarnRow) (k : Nat) (h : k ≠ rowKey c n) :
    Tbl.get (fun _ => ({} : TarnRow)) (s.setTrow c n v).tarn k = Tbl.get (fun _ => {}) s.tarn k :=
  Tbl.get_set_ne _ _ _ h

/-- A read that goes through: the row's data, the tag Table 3.4 gives, and nothing else. -/
theorem rowAccess_read {s : State} {c n : Nat} {a : Access} {w : Row} {u : Upset} {g : Tag} (hr : a.reads = true)
    (hg : tagTable a (s.rowTag c n) = .go g) (hs : (s.trow c n).syndrome ^^^ upsetOf u = 0) :
    ∃ t, s.rowAccess c n a w u = .done (s.trow c n).data t ∧ t.trow c n = { s.trow c n with syndrome := 0, tag := g } ∧
      OnlyRow s t c n ∧ (∀ d, SameButAhead (s.cl d) (t.cl d)) ∧ t.parts = s.parts ∧ t.regions = s.regions ∧ t.ctxs = s.ctxs := by
  unfold State.rowAccess
  simp only [hg, hr, if_true, hs]
  refine ⟨_, rfl, ?_⟩
  split
  · refine ⟨by simp, ⟨fun k h => trow_setTrow _ _ _ _ _ h, by simp, by simp⟩, fun d => ?_, by simp, by simp, by simp⟩
    simp [SameButAhead]
  · refine ⟨by simp, ⟨fun k h => by rw [State.touch_tarn]; exact trow_setTrow _ _ _ _ _ h, by simp, by simp⟩, fun d => ?_, by simp, by simp, by simp⟩
    have := touch_cl (s.setTrow c n { s.trow c n with syndrome := 0, tag := g }) c n d
    simpa using this

/-- A write that goes through. -/
theorem rowAccess_write {s : State} {c n : Nat} {a : Access} {w : Row} {u : Upset} {g : Tag} (hr : a.stores = true)
    (hg : tagTable a (s.rowTag c n) = .go g) :
    ∃ t, s.rowAccess c n a w u = .done 0 t ∧ t.trow c n = { s.trow c n with data := w, syndrome := 0, tag := g } ∧
      OnlyRow s t c n ∧ (∀ d, SameButAhead (s.cl d) (t.cl d)) ∧ t.parts = s.parts ∧ t.regions = s.regions ∧ t.ctxs = s.ctxs := by
  have hn : a.reads = false := by cases a <;> simp_all [Access.reads, Access.stores]
  unfold State.rowAccess
  simp only [hg, hr, hn, if_true, Bool.false_eq_true, if_false]
  refine ⟨_, rfl, by simp, ⟨fun k h => by rw [State.touch_tarn]; exact trow_setTrow _ _ _ _ _ h, by simp, by simp⟩, fun d => ?_, by simp, by simp, by simp⟩
  have := touch_cl (s.setTrow c n { data := w, tag := g, syndrome := 0, former := (s.trow c n).former }) c n d
  simpa using this

theorem rowAccess_wait {s : State} {c n : Nat} {a : Access} {w : Row} {u : Upset}
    (hg : tagTable a (s.rowTag c n) = .wait) : s.rowAccess c n a w u = .wait := by
  unfold State.rowAccess
  simp only [hg]

/-! ## The ends of row instructions -/

theorem useAhead_cl (h n : Nat) (v : Cluster) :
    (useAhead h n v).regs = v.regs ∧ (useAhead h n v).cnt.retired = v.cnt.retired ∧ (useAhead h n v).stepOne = v.stepOne := by
  unfold useAhead
  split
  · simp
  · split <;> simp

/-- A state whose cluster i.c is that of s but for run-ahead, retired with the register file `f` gives. -/
theorem finish_ok_after {s t : State} {i : Issue} (ht : SameButAhead (s.cl i.c) (t.cl i.c)) (f : Regs → Regs)
    (g : Cluster → Cluster) (hg : ∀ v, (g v).regs = v.regs ∧ (g v).cnt.retired = v.cnt.retired ∧ (g v).stepOne = v.stepOne) :
    Advances s (s.finish i (.ok ((t.modCl i.c g).modRegs i.c f))) i (f (s.regsOf i.c)) true (nextPc s i) := by
  have e1 : (t.cl i.c).regs = (s.cl i.c).regs := by rw [ht]
  have e2 : (t.cl i.c).cnt = (s.cl i.c).cnt := by rw [ht]
  have e3 : (t.cl i.c).stepOne = (s.cl i.c).stepOne := by rw [ht]
  refine ⟨?_, ?_, ?_, ?_⟩ <;>
    simp [State.finish, State.modRegs, State.regsOf, retireCluster, (hg (t.cl i.c)).1, (hg (t.cl i.c)).2.1, (hg (t.cl i.c)).2.2, e1, e2, e3]

theorem finish_ok_plain {s t : State} {i : Issue} (ht : SameButAhead (s.cl i.c) (t.cl i.c)) :
    Advances s (s.finish i (.ok t)) i (s.regsOf i.c) true (nextPc s i) := by
  have e1 : (t.cl i.c).regs = (s.cl i.c).regs := by rw [ht]
  have e2 : (t.cl i.c).cnt = (s.cl i.c).cnt := by rw [ht]
  have e3 : (t.cl i.c).stepOne = (s.cl i.c).stepOne := by rw [ht]
  refine ⟨?_, ?_, ?_, ?_⟩ <;> simp [State.finish, State.regsOf, retireCluster, e1, e2, e3]

/-- An instruction that waits: nothing but the cluster's wait is recorded. -/
theorem finish_hold {s : State} {i : Issue} (op : Nat) (hh : (s.cl i.c).hold = none) :
    Waits s (s.finish i (.hold s (s.holdFor op i) true)) i op := by
  refine ⟨?_, ?_, ?_, ⟨rfl, fun d hd => ?_⟩⟩
  · simp [State.finish]
  · simp [State.finish, State.regsOf]
  · simp [State.finish, State.holdFor, State.since, hh]
  · simp [State.finish, State.setCl_cl_ne _ _ _ _ hd]

end Sys2Proof.Machine
end

