-- ==== Sys2Proof/Tests/Slice0.lean ====
section
/-! SUPPORT. Tests. `test_hyps_<statement>` shows, for the statement of that name, a state and operands that meet the
hypotheses of each of its clauses together; the other tests run one command on a small state and compare one or two
fields with what the manual's rule gives. Expected values are worked out from the rule named beside the test. -/

namespace Sys2Proof.Machine

open Sys2Proof

set_option Elab.async false

/-! ## Small states -/

/-- Operands of layout R: a, b, c, h, d, f and imm16 (Table 6.2). -/
def rOps (a b c h d f imm : Nat) : BitVec 48 :=
  BitVec.ofNat 48 (a + 32 * b + 1024 * c + 32768 * h + 2 ^ 21 * d + 2 ^ 26 * f + 2 ^ 32 * imm)

/-- Operands of layout L: a, b and imm32 (Table 6.2). -/
def lOps (a b imm : Nat) : BitVec 48 := BitVec.ofNat 48 (a + 32 * b + 1024 * imm)

/-- An instruction of cluster 0. -/
def tI (o : BitVec 48) (ext : BitVec 2 := 0) (x0 : Word := 0) (x1 : Word := 0) : Issue :=
  { c := 0, ext := ext, opnds := o, x0 := x0, x1 := x1 }

/-- Cluster 0 runs, with 4,096 bytes of code. -/
def tV : Cluster := { st := .running, code := { len := 4096 } }

/-- A state in which cluster 0 is as given and its region is in Run. -/
def tS (v : Cluster := tV) (ts : Tbl TarnRow := []) : State :=
  { State.reset with
    clusters := [(0, v)]
    regions := [(0, { pstate := .run })]
    tarn := ts }

/-- The cluster with scalar registers as given. -/
def tRegs (r : Tbl Word) : Cluster := { tV with regs := { s := r } }

/-- What a next state holds, none where a command stops. -/
def after {α : Type} (r : Result) (f : State → α) : Option α :=
  match r with
  | .next t => some (f t)
  | _ => none

/-- A handle entry: base row, row count, ring, tagged, format, rights (bits 41 to 36), owner and backing (Table 3.6). -/
def tH (base count : Nat) (ring tagged : Bool) (fmt rights owner backing : Nat) : HandleEntry :=
  BitVec.ofNat 256 (base + 2 ^ 15 * count + (if ring then 2 ^ 30 else 0) + (if tagged then 2 ^ 31 else 0) + 2 ^ 32 * fmt +
    2 ^ 36 * rights + 2 ^ 48 * owner + 2 ^ 58 * backing)

/-- Region 0 is partition 0, in which context 5 is resident; cluster 0 is as given. -/
def tC (v : Cluster := tV) (ts : Tbl TarnRow := []) : State :=
  { State.reset with
    clusters := [(0, v)]
    tarn := ts
    regions := [(0, { pstate := .run, part := some 0 })]
    parts := [(0, { formed := true, regions := [0], resident := some 5 })]
    ctxs := [(5, { st := .resident })] }

/-- The cluster with handles and scalar registers as given. -/
def tHand (hs : Tbl HandleEntry) (r : Tbl Word := []) : Cluster := { tRegs r with handles := hs }

/-- The cluster in a hold. -/
def tHold (v : Cluster) (h : Hold) (st : CState := .running) : Cluster := { v with hold := some h, st := st }

/-- The conditions of `Arrives`, computed. -/
def arrivesB (s : State) (p : Nat) (ty : PType) (k : Packet) : Bool :=
  decide (s.net.find? (fun q => q.id == p) = some k) && decide (k.ptype = ty) && !s.behindFlow k && decide (s.ageOf k ≤ 1000) && !k.stomp &&
  (match s.nodePart k.dst with | some q => decide (q = some k.partition) | none => true) &&
  (match k.dst with | .cluster c => !s.vacant c | _ => true)

theorem arrives_of {s : State} {p : Nat} {ty : PType} {k : Packet} (h : arrivesB s p ty k = true) : Arrives s p ty k := by
  simp only [arrivesB, Bool.and_eq_true, decide_eq_true_eq, Bool.not_eq_true'] at h
  obtain ⟨⟨⟨⟨⟨⟨h1, h2⟩, h3⟩, h4⟩, h5⟩, h6⟩, h7⟩ := h
  refine ⟨h1, h2, h3, h4, h5, ?_, ?_⟩
  · intro q hq
    rw [hq] at h6
    exact of_decide_eq_true h6
  · intro c hc
    rw [hc] at h7
    simpa using h7

/-- A state with one packet on its way. -/
def tNet (s : State) (k : Packet) : State := { s with net := [k] }

/-- The step of descriptor 0 of queue pair 0, which cluster 0 runs, and the state in which it runs. -/
def tStep : RunStep := { ctx := 5, q := 0, k := 0, desc := 0, seq := 1, still := true, epoch := 0, clusters := [0] }
def tRun (v : Cluster := tV) : State := { tC v with parts := [(0, { formed := true, regions := [0], resident := some 5, running := some tStep })] }

/-- A layout of one region with one rank, local index 0; set 0 is that rank, program 0 lies in handle 0 (Table 14.4). -/
def tLayout : List (BitVec 128) := [0x2101, 0x2, BitVec.ofNat 128 (8 + 2 ^ 37), BitVec.ofNat 128 (7 + 512 * 2 ^ 36)]
def tImage : Image :=
  { header := 0, pubKey := 0, signature := 0, kemCiphertext := 0, wrappedKey := 0, keyReserved := 0,
    manifest := { len := 0, header := 0, shards := [], common := [], layouts := [tLayout] } }

/-- Descriptor 0 of queue pair 0, which belongs to context 5, has started. -/
def tDesc (d : Desc) (v : Ctx := { st := .resident }) : State :=
  { tC with
    qps := [(0, { configured := true, enabled := true, cfg := BitVec.ofNat 64 (5 * 1024), prog := [{ k := 0, desc := d, started := true }] })]
    ctxs := [(5, v)] }

/-! ## Scalar instructions -/

theorem test_hyps_IntegerArithmetic : Ready (tS (tRegs [(1, 7), (2, 0)])) (tI (rOps 3 1 2 0 0 0 0)) ∧
    (formAlu (tI (rOps 3 1 2 0 0 0 0)) .scalar 1).legal (tI (rOps 3 1 2 0 0 0 0)) = true := by
  unfold Ready; decide

/-- R176: sums wrap at 64 bits. -/
theorem test_add_wraps : after (exec (.add (tI (rOps 3 1 2 0 0 0 0))) (tS (tRegs [(1, BitVec.allOnes 64), (2, 1)])))
    (fun t => (t.sr 0 3, (t.regsOf 0).pc)) = some (0, 8) := by decide
/-- R177: −2^63 ÷ −1. -/
theorem test_div_overflow : after (exec (.div (tI (rOps 3 1 2 0 0 0 0))) (tS (tRegs [(1, 0x8000000000000000), (2, BitVec.allOnes 64)])))
    (fun t => t.sr 0 3) = some 0x8000000000000000 := by decide
/-- R177: a division by zero gives all ones. -/
theorem test_div_zero : after (exec (.div (tI (rOps 3 1 2 0 0 0 0))) (tS (tRegs [(1, 7), (2, 0)]))) (fun t => t.sr 0 3) =
    some (BitVec.allOnes 64) := by decide

theorem test_hyps_ControlFlow :
    (Ready (tS) (tI 0) ∧ formR.legal (tI 0) = true ∧ formTrap.legal (tI (rOps 0 0 0 0 0 0 9)) = true ∧
      formBr.legal (tI (lOps 0 0 4)) = true ∧ formJal.legal (tI (lOps 31 0 4)) = true) ∧
    (Ready (tS (tRegs [(1, 0xFFFFFFF0)])) (tI (rOps 2 1 0 0 0 0 1)) ∧ formJalr.legal (tI (rOps 2 1 0 0 0 0 1)) = true ∧
      ((tS (tRegs [(1, 0xFFFFFFF0)])).sr 0 1 + 8 * sImm16 (tI (rOps 2 1 0 0 0 0 1))).toNat = 2 ^ 32 - 8) ∧
    ((tS (tRegs [(1, 0xFFFFFFF0)])).sr 0 1 + 8 * sImm16 (tI (rOps 2 1 0 0 0 0 2))).toNat = 2 ^ 32 ∧
    ((tS (tRegs [(1, 4)])).sr 0 1 + 8 * sImm16 (tI (rOps 2 1 0 0 0 0 0))).toNat % 8 ≠ 0 ∧
    (Ready (tS (tRegs [(1, 1)])) (tI (lOps 0 1 1)) ∧ formLoop.legal (tI (lOps 0 1 1)) = true ∧ 0 < sImm32 (tI (lOps 0 1 1)) ∧
      (tS (tRegs [(1, 1)])).sr 0 1 ≠ 0 ∧ ((tS (tRegs [(1, 1)])).regsOf 0).loops.length < 4) ∧
    (sImm32 (tI (lOps 0 1 0)) = 0 ∧ (tS).sr 0 1 = 0) ∧
    (let s := tS { tV with regs := { s := [(1, 1)], loops := List.replicate 4 { start := 8, fin := 64, remaining := 2 } } }
     Ready s (tI (lOps 0 1 1)) ∧ s.sr 0 1 ≠ 0 ∧ 4 ≤ (s.regsOf 0).loops.length) := by
  unfold Ready; decide

/-- R171: BR by −1 instruction word from 16. -/
theorem test_br_back : after (exec (.br (tI (lOps 0 0 0xFFFFFFFF))) (tS { tV with regs := { pc := 16 } })) (fun t => (t.regsOf 0).pc) = some 8 := by decide
/-- R174: a loop of one iteration left ends at the end of its body. -/
theorem test_loop_ends : after (exec (.nop (tI 0)) (tS { tV with regs := { pc := 8, loops := [{ start := 8, fin := 16, remaining := 1 }] } }))
    (fun t => ((t.regsOf 0).pc, (t.regsOf 0).loops.length)) = some (16, 0) := by decide
/-- R174: with two iterations left it goes back to the start. -/
theorem test_loop_again : after (exec (.nop (tI 0)) (tS { tV with regs := { pc := 8, loops := [{ start := 8, fin := 16, remaining := 2 }] } }))
    (fun t => ((t.regsOf 0).pc, (t.regsOf 0).loops.length)) = some (8, 1) := by decide

theorem test_hyps_ScalarAndRowRegisterInstructions_ImmediatesPredicatesCounters : Ready (tS) (tI (lOps 1 0 5)) ∧ formLi.legal (tI (lOps 1 0 5)) = true ∧
    Ready (tS) (tI (rOps 1 0 0 0 0 0 0) 1) ∧ formLix.legal (tI (rOps 1 0 0 0 0 0 0) 1) = true ∧
    (formAlu (tI (rOps 1 1 2 0 0 10 0)) .small 15).legal (tI (rOps 1 1 2 0 0 10 0)) = true ∧ fF (tI (rOps 1 1 2 0 0 10 0)) / 2 % 8 = 5 ∧
    formPlog.legal (tI (rOps 1 1 2 0 0 6 0)) = true ∧ formRdcnt.legal (tI (rOps 1 0 0 0 0 4 0)) = true ∧ fF (tI (rOps 1 0 0 0 0 4 0)) = 4 := by
  unfold Ready; decide

/-- R178: LI extends the sign. -/
theorem test_li_sign : after (exec (.li (tI (lOps 1 0 0x80000000))) (tS)) (fun t => t.sr 0 1) = some 0xFFFFFFFF80000000 := by decide

theorem test_hyps_ScalarAndRowRegisterInstructions_RowRegisterMoves :
    (Ready (tS) (tI (rOps 1 1 0 0 0 1 63)) ∧ (formMovsv (tI (rOps 1 1 0 0 0 1 63))).legal (tI (rOps 1 1 0 0 0 1 63)) = true ∧
      (sImm16 (tI (rOps 1 1 0 0 0 1 63))).toNat = 63 ∧ (sImm16 (tI (rOps 1 1 0 0 0 1 64))).toNat = 64 ∧
      (formMovvs (tI (rOps 1 1 0 0 0 1 64))).legal (tI (rOps 1 1 0 0 0 1 64)) = true) ∧
    formVmov.legal (tI (rOps 1 7 0 0 0 0 0)) = true ∧ formVbcast.legal (tI (rOps 1 31 0 0 0 0 0)) = true ∧
    (formMsk (tI (rOps 1 0 0 0 0 0 0))).legal (tI (rOps 1 0 0 0 0 0 0)) = true ∧ (formMsk (tI (rOps 1 0 0 0 0 1 0))).legal (tI (rOps 1 0 0 0 0 1 0)) = true ∧
    ((formMsk (tI (rOps 1 1 2 0 0 2 0))).legal (tI (rOps 1 1 2 0 0 2 0)) = true ∧ Ready (tS (tRegs [(1, 0), (2, 512)])) (tI (rOps 1 1 2 0 0 2 0)) ∧
      ((tS (tRegs [(1, 0), (2, 512)])).sr 0 2).toNat = 512 ∧ ((tS (tRegs [(1, 0), (2, 513)])).sr 0 2).toNat = 513) ∧
    (formMsk (tI (rOps 1 0 7 0 0 3 0))).legal (tI (rOps 1 0 7 0 0 3 0)) = true := by
  unfold Ready; decide

/-- Handle 0 of context 5: rows 0 to 3, every right, tagged or not. -/
def tagged4 : HandleEntry := tH 0 4 false true 0 63 5 0
def plain4 : HandleEntry := tH 0 4 false false 0 63 5 0

theorem test_hyps_RowInstructions_RowLoadsAndStores :
    (Ready (tC (tHand [(0, tagged4)]) [(3, { tag := .full })]) (tI (rOps 1 0 0 0 0 0 3)) ∧ formRow.legal (tI (rOps 1 0 0 0 0 0 3)) = true ∧
      hBacking tagged4 = 0 ∧ hTagged tagged4 = true ∧ hTagged plain4 = false ∧ handleOk tagged4 (some 5) .engineRead 3 = true ∧
      handleOk tagged4 (some 5) .engineWrite 3 = true ∧ handleOk tagged4 (some 5) .engineRead 4 = false ∧
      handleOk tagged4 (some 5) .engineWrite 4 = false ∧ (tC).ctxOf 0 = some 5) ∧
    Readable (tC (tHand [(0, tagged4)]) [(3, { tag := .full })]) 0 3 true .none ∧ Readable (tC (tHand [(0, plain4)])) 0 3 false .none ∧
    Writable (tC (tHand [(0, tagged4)])) 0 3 true ∧ Writable (tC (tHand [(0, plain4)]) [(3, { tag := .full })]) 0 3 false ∧
    ((tC (tHand [(0, tagged4)])).trow 0 3).tag = .empty := by
  unfold Ready Readable Writable; decide

/-- R184: a tagged load takes the row and leaves it EMPTY. -/
theorem test_ld_empties : after (exec (.ld (tI (rOps 1 0 0 0 0 0 3))) (tC (tHand [(0, tagged4)]) [(3, { data := 5, tag := .full })]))
    (fun t => (((t.regsOf 0).row 1), (t.trow 0 3).tag)) = some (5, .empty) := by decide +kernel
/-- R82: a tagged load of an EMPTY row waits. -/
theorem test_ld_waits : after (exec (.ld (tI (rOps 1 0 0 0 0 0 3))) (tC (tHand [(0, tagged4)]))) (fun t => (t.cl 0).st) = some .waiting := by decide
/-- R185: a tagged store fills the row. -/
theorem test_st_fills : after (exec (.st (tI (rOps 1 0 0 0 0 0 3))) (tC { tHand [(0, tagged4)] with regs := { v := [(1, 9)] } }))
    (fun t => ((t.trow 0 3).data, (t.trow 0 3).tag)) = some (9, .full) := by decide +kernel

theorem test_hyps_RowInstructions_MoveAndFill :
    (let s := tC (tHand [(0, plain4), (1, tH 4 4 false false 0 63 5 0)] [(3, 4)])
     let i := tI (rOps 0 0 0 1 3 0 0)
     Ready s i ∧ formMovr.legal i = true ∧ formFill.legal i = true ∧ rowCount s i = 4 ∧ rowCount s (tI (rOps 0 0 0 1 0 0 0)) = 0 ∧
      handleRangeOk (s.handle 0 1) (s.ctxOf 0) .engineWrite 0 4 = true ∧ handleRangeOk (s.handle 0 0) (s.ctxOf 0) .engineRead 0 4 = true ∧
      handleRangeOk (s.handle 0 1) (s.ctxOf 0) .engineWrite 0 5 = false ∧ handleRangeOk (s.handle 0 0) (s.ctxOf 0) .engineRead 0 5 = false) ∧
    (let h : Hold := { opcode := 0x43, iss := tI (rOps 0 0 0 1 3 0 0), j := 3 }
     let s := tC (tHold (tHand [(0, plain4), (1, tH 4 4 false false 0 63 5 0)] [(3, 4)]) h)
     (s.cl 0).hold = some h ∧ (s.cl 0).st = .running ∧ (s.region 0).pstate = .run ∧ handleRow (s.handle 0 0) 3 = 3 ∧ handleRow (s.handle 0 1) 3 = 7 ∧
      Writable s 0 7 false ∧ Readable s 0 3 false .none) := by
  unfold Ready Readable Writable; decide

theorem test_hyps_TagAndTickInstructions_TagInstructions :
    (Ready (tC (tHand [(0, tagged4)]) [(0, { tag := .full })]) (tI (rOps 1 0 0 0 0 0 0)) ∧ formTagrd.legal (tI (rOps 1 0 0 0 0 0 0)) = true ∧
      formWaitt.legal (tI (rOps 0 0 0 0 0 1 0)) = true ∧ (tC (tHand [(0, tagged4)]) [(0, { tag := .full })]).entryTag 0 tagged4 0 = .full ∧
      (tC (tHand [(0, tagged4)])).entryTag 0 tagged4 0 = .empty ∧ handleOk tagged4 (some 5) .engineRead 0 = true) ∧
    (let e := tH 0 4 false true 0 63 5 1
     let h : Hold := { opcode := 0x46, iss := tI (rOps 0 0 0 0 0 1 0), since := some 0 }
     let s := tC (tHold (tHand [(0, e)]) h .waiting)
     (s.cl 0).hold = some h ∧ (s.cl 0).st = .waiting ∧ hBacking e ≠ 0 ∧ handleOk e (s.ctxOf 0) .engineRead 0 = true ∧ s.bitmapTag e 0 = .empty) := by
  unfold Ready; decide

theorem test_hyps_TagAndTickInstructions_TickWait :
    (Ready (tC (tRegs [(1, 50)])) (tI (rOps 0 1 0 0 0 3 0)) ∧ formTwait.legal (tI (rOps 0 1 0 0 0 3 0)) = true ∧
      ((tC (tRegs [(1, 50)])).domain 0).ticks = 0 ∧ 50 ≤ (tC (tRegs [(1, 50)])).tagTicksAt 0 ∧
      ¬ 2 ^ 63 ≤ (tC (tRegs [(1, 50)])).tagTicksAt 0) ∧
    (let s := { tC (tRegs [(1, 50)]) with domains := [(0, { ticks := 53 })] }
     Ready s (tI (rOps 0 1 0 0 0 3 0)) ∧ 50 ≤ (s.domain 0).ticks ∧ (s.domain 0).ticks ≤ 50 + fF (tI (rOps 0 1 0 0 0 3 0))) ∧
    (let h : Hold := { opcode := 0x50, iss := tI (rOps 0 1 0 0 0 3 0), since := some 0, target := 50 }
     let s := { tC (tHold (tRegs [(1, 50)]) h) with domains := [(0, { ticks := 50 })] }
     (s.cl 0).hold = some h ∧ (s.cl 0).st = .running ∧ h.target ≤ (s.domain 0).ticks % 2 ^ 64) := by
  unfold Ready; decide
/-- R191: late by 1 tick beyond the allowance. -/
theorem test_twait_late : after (exec (.twait (tI (rOps 0 1 0 0 0 3 0))) { tC (tRegs [(1, 50)]) with domains := [(0, { ticks := 54 })] })
    (fun t => ((t.cl 0).ev.late, (t.cl 0).ev.lateMax)) = some (1, 4) := by decide

theorem test_hyps_CodeFetchAndRunAhead_CodeFetch :
    (let s := tC { tHand [(0, plain4)] with code := { src := .tarn 0, len := 2048, marks := [(0, .integrityTarn)] } } [(0, { data := 1, tag := .full }), (3, { tag := .full })]
     (s.cl 0).st = .running ∧ (s.cl 0).code.src = .tarn 0 ∧ handleOk (s.handle 0 0) (s.ctxOf 0) .engineRead 3 = true ∧ s.allHeld 0 = false ∧
      (s.trow 0 (handleRow (s.handle 0 0) 3)).tag = .full ∧ (s.trow 0 3).syndrome ^^^ upsetOf .none = 0 ∧
      0 = (s.regsOf 0).pc.toNat / 512 ∧ Tbl.get (fun _ => Mark.clean) (s.cl 0).code.marks 0 = .integrityTarn ∧ (s.trow 0 0).tag = .full) ∧
    (let s := tC { tV with code := { src := .hbm 4096, len := 2048 } }
     (s.cl 0).code.src = .hbm 4096 ∧ s.partOf 0 = some 0 ∧ s.reachable 0 (4096 + 3 * 512) 512 = true ∧ s.readsPoison (4096 + 3 * 512) 512 = false) := by
  decide +kernel

theorem test_hyps_TagWaits :
    (let h : Hold := { opcode := 0x40, iss := tI (rOps 1 0 0 0 0 0 3), since := some 0 }
     let s := tC (tHold (tHand [(0, tagged4)]) h .waiting) [(3, { tag := .full })]
     let u := { s with tb := { s.tb with now := 10000 } }
     s.tagWaitOf 0 = some h ∧ h.iss.c = 0 ∧ handleOk (s.handle 0 0) (s.ctxOf 0) .engineRead (rowIndex s h.iss) = true ∧
      hTagged (s.handle 0 0) = true ∧ (s.trow 0 3).tag = .full ∧ s.allHeld 0 = false ∧ s.waitsOnTag h = true ∧
      s.now < 0 + s.tagTicksAt 0 ∧ 0 + u.tagTicksAt 0 = u.now ∧ u.tagWaitOf 0 = some h) ∧
    (let s := { tC { tV with code := { src := .tarn 0, len := 512, waits := [(0, some 5)] } } with tb := { now := 10005 } }
     s.fetchSince 0 0 = some 5 ∧ 5 + s.tagTicksAt 0 ≤ s.now) ∧
    (let p : Packet := { id := 0, ptype := .write, src := .cluster 1, dst := .cluster 0, context := 5 }
     let s := { tC { tV with fab := { remoteWait := [{ pkt := p, since := 5 }] } } with tb := { now := 10005 } }
     (s.cl 0).fab.remoteWait[0]? = some { pkt := p, since := 5 } ∧ 5 + s.tagTicks p.context ≤ s.now) ∧
    (let e := tH 0 4 false true 0 63 5 1
     let s := tC (tHand [(0, e)])
     hBacking (s.handle 0 0) ≠ 0 ∧ 0 < hCount e ∧ (3 : Nat) < hCount e ∧ s.bitmapTag e 3 = .empty) := by
  decide +kernel

/-- R85: a tagged wait that has lasted the timeout traps with cause 0x06. -/
theorem test_tag_timeout :
    let h : Hold := { opcode := 0x40, iss := tI (rOps 1 0 0 0 0 0 3), since := some 0 }
    after (exec (.tagWaitTimeout (.cluster 0)) { tC (tHold (tHand [(0, tagged4)]) h .waiting) with tb := { now := 10000 } })
      (fun t => (t.cl 0).trap.cause) = some 6 := by decide +kernel

theorem test_hyps_ElectrumLoadAndMultiply :
    (let s := tC (tHand [(1, tH 0 16 false false 9 63 5 0)])
     let i := tI (rOps 0 0 0 1 0 0 0) 1
     Ready s i ∧ wldLegal i = true ∧ hFormat (s.handle 0 1) = 9 ∧ (s.sr 0 0).toNat % tileK 9 = 0 ∧ wldScaled i = false ∧ alwaysScaled 9 = false ∧
      (rowsOfElems 0 (tileK 9 * tileN 9) (elemsPerRow 9)).length = 8 ∧ handleRangeOk (s.handle 0 1) (s.ctxOf 0) .engineRead 0 8 = true ∧
      hBacking (s.handle 0 1) = 0 ∧ (∀ j ∈ rowsOfElems 0 (tileK 9 * tileN 9) (elemsPerRow 9), (s.trow 0 (handleRow (s.handle 0 1) j)).tag = .empty ∧
        (s.trow 0 (handleRow (s.handle 0 1) j)).syndrome ^^^ upsetOf .none = 0) ∧ s.allHeld 0 = false) ∧
    (let s := tC { tV with eng := { bank0 := { loaded := true, fmt := 9 } } }
     let i := tI (rOps 0 0 0 0 0 0 0) 1 56
     Ready s i ∧ mmaLegal i = true ∧ (bankOf (fF i % 2) (s.cl 0)).loaded = true ∧ mmaAcc i + tileV 9 = 64 ∧ mmaScaled i = false ∧
      anchorOk 9 false (mmaAnchor i) = true ∧ (∀ j < tileV 9, (accRow (s.cl 0) (mmaAcc i + j)).bound = none) ∧
      (bankOf 0 (tC.cl 0)).loaded = false) ∧
    (let s := tC (tRegs [(1, 1), (2, 2)])
     let i := tI (rOps 0 0 0 0 1 63 0)
     let k := tI (rOps 0 0 0 0 2 63 0)
     Ready s i ∧ formAclr.legal i = true ∧ fF i + rowCount s i = 64 ∧ formAclr.legal k = true ∧ fF k + rowCount s k = 65) := by
  unfold Ready; decide +kernel

theorem test_hyps_ElectrumDrains :
    (let s := tC { tHand [(1, tH 0 8 false false 9 63 5 0)] [(1, 8), (2, 0), (3, 64)] with eng := { accs := [(0, { bound := some (9, 0) })] } }
     let i := tI (rOps 0 2 0 1 1 0 0) 1
     Ready s i ∧ i.u ≠ .engine ∧ drnLegal i = true ∧ drnpLegal i = true ∧ rowCount s i = 8 ∧ rowCount s (tI (rOps 0 2 0 1 2 0 0) 1) = 0 ∧
      (runFormats (s.cl 0) 0 8).length = 1 ∧ hFormat (s.handle 0 1) = 9 ∧ 8 * tileN 9 % elemsPerRow 9 = 0 ∧ drnScaled i = false ∧
      handleRangeOk (s.handle 0 1) (s.ctxOf 0) .engineWrite (s.sr 0 2).toNat (8 * tileN 9 / elemsPerRow 9) = true ∧
      8 * tileN 9 % (512 / slotBytes 9) = 0 ∧ 64 < drnAcc (tI (rOps 0 2 0 1 3 0 0) 1 1) + rowCount s (tI (rOps 0 2 0 1 3 0 0) 1 1)) ∧
    (let h : Hold := { opcode := 0x62, iss := tI (rOps 0 2 0 1 1 0 0) 1 }
     let s := tC { tHand [(1, tH 0 8 false false 9 63 5 0)] [(1, 8)] with eng := { accs := [(0, { bound := some (9, 0) })] }, hold := some h }
     (s.cl 0).hold = some h ∧ (s.cl 0).st = .running ∧ hBacking (s.handle 0 1) = 0 ∧ Writable s 0 0 false ∧ (s.drnOut h.iss).rows.length = 1) := by
  unfold Ready Writable; decide +kernel

/-- R135: an INT8 granule of (−1, 2) and (3, 4) adds 5. -/
theorem test_granule_int8 : granuleExact 9 (laneProducts 9 [0xFF, 2] [3, 4]) = { v := 5 } := by decide +kernel

theorem test_hyps_ExactAccumulation : ({ count := 2 ^ 24 - 2 } : Cell).count + 2 ≤ 2 ^ 24 ∧ 2 ^ 24 ≤ ({ count := 2 ^ 24 } : Cell).count := by decide

theorem test_hyps_VectorArithmetic_VectorElementwise :
    (let i := tI (rOps 1 2 3 0 0 0 0x11)
     Ready (tC) i ∧ vcLegal i = true ∧ vcFmt i = 1 ∧ formV2.legal i = true ∧ vcDfmt i = vcFmt i ∧ vcMethod i = 0 ∧ vecListed .addMul 1 = true ∧
      vecListed .arith 1 = true ∧ vecListed .minMax 1 = true ∧ vecListed .approx 1 = true) ∧
    (let i := tI (rOps 1 2 0 0 0 7 0x11)
     Ready (tC) i ∧ formVfun.legal i = true ∧ formV1.legal (tI (rOps 1 2 0 0 0 0 0x11)) = true) ∧
    (let i := tI (rOps 1 2 3 0 0 0 0x21)
     Ready (tC) i ∧ vcLegal i = true ∧ formV2.legal i = true ∧ vcDfmt i ≠ vcFmt i) := by
  unfold Ready; decide +kernel

/-- Table 5.5: −0 orders below +0, and the sum of 1 and 2 is 3 in FP32. -/
theorem test_vec_values : (vecMin {} 1 0 0 0x80000000 0).1 = 0x80000000 ∧ (vecMax {} 1 0 0 0x80000000 0).1 = 0 ∧
    (vecAdd {} 1 0 0 0x3F800000 0x40000000).1 = 0x40400000 := by decide +kernel
/-- Table 5.5: 1 ÷ 3 in FP32, and the least subnormal squared underflows to 0. -/
theorem test_vec_div : (vecDiv {} 1 0 0 0x3F800000 0x40400000).1 = 0x3EAAAAAB ∧ (vecMul {} 1 0 0 1 1).1 = 0 := by decide +kernel

theorem test_hyps_VectorArithmetic_VectorCompareAndReduce :
    (let i := tI (rOps 1 2 3 0 0 5 0x11)
     Ready (tC) i ∧ vcLegal i = true ∧ formVcmp.legal i = true ∧ fF i % 8 = 5 ∧ vcDfmt i = vcFmt i ∧ vcMethod i = 0 ∧ vecListed .compare 1 = true ∧
      formVcmp.legal (tI (rOps 1 2 3 0 0 5 0x21)) = true ∧ vcDfmt (tI (rOps 1 2 3 0 0 5 0x21)) ≠ vcFmt (tI (rOps 1 2 3 0 0 5 0x21))) ∧
    (let i := tI (rOps 1 2 0 0 0 0 0x33)
     let k := tI (rOps 1 2 0 0 0 0 0x44)
     Ready (tC) i ∧ vcLegal i = true ∧ formV1.legal i = true ∧ vcFmt i = 3 ∧ vcDfmt i = 3 ∧ Ready (tC) k ∧ vcLegal k = true ∧ formV1.legal k = true ∧
      3 < vcFmt k ∧ vecListed .minMax 3 = true) := by
  unfold Ready; decide +kernel

/-- R155: a row sum is rounded to FP64 at each node of the tree: 1 + 2 = 3. -/
theorem test_tree_sum : treeSum 1 [0x3FF0000000000000, 0x4000000000000000] = 0x4008000000000000 := by decide +kernel

theorem test_hyps_VectorConversion :
    (let i := tI (rOps 1 2 0 0 0 0 0x21)
     Ready (tC) i ∧ vcLegal i = true ∧ formVcvt.legal i = true ∧ vcFmt i = 1 ∧ vcDfmt i = 2 ∧ unscaledFmt 1 = true ∧ unscaledFmt 2 = true ∧
      (placing 1 2 0).map (fun p => (p.n, p.src, p.dst)) = some (128, 0, 0) ∧ (placing 1 2 4).map (fun p => (p.n, p.src, p.dst)) = some (128, 0, 128) ∧ (placing 1 2 5).isNone = true) ∧
    (let i := tI (rOps 1 2 3 0 0 0 0x81) 1 508
     Ready (tC) i ∧ quantLegal i = true ∧ vcFmt i = 1 ∧ vcDfmt i = 8 ∧ mayScale 8 = true ∧ (placing 1 8 0).map (fun p => (p.n, p.src, p.dst)) = some (128, 0, 0) ∧ quantOff i + 128 / 32 = 512) := by
  unfold Ready; decide +kernel
theorem test_hyps_VectorConversion_back :
    (let i := tI (rOps 1 2 3 0 0 0 0x18) 1 508
     Ready (tC) i ∧ quantLegal i = true ∧ vcFmt i = 8 ∧ vcDfmt i = 1 ∧ (placing 8 1 0).map (fun p => (p.n, p.src, p.dst)) = some (128, 0, 0)) ∧
    (formEhint.legal (tI (rOps 0 1 0 0 0 15 0)) = true ∧ Ready (tC (tRegs [(1, 10000001)])) (tI (rOps 0 1 0 0 0 15 0))) := by
  unfold Ready; decide +kernel

/-! ## The fabric -/

theorem test_hyps_SendReceiveMulticast :
    (let s := tC (tRegs [(1, 1), (2, 48), (3, 60)])
     let i := tI (rOps 0 0 1 0 0 0 0)
     Ready s i ∧ formSend.legal i = true ∧ formRecv.legal i = true ∧ s.badDest 0 (s.sr 0 1).toNat = false ∧ s.badDest 0 4608 = true ∧
      MayLeave s 0 (flowKey (.cluster 1) 0) (.cluster 1) ∧ s.prefetchOf 0 1 0 0 = none) ∧
    (let s := tC { tRegs [(1, 1)] with fab := { flows := [{ key := flowKey (.cluster 1) 0, region := 0, epoch := 0, outstanding := 16 }] } }
     s.maySend 0 (flowKey (.cluster 1) 0) (regionOf 1) = false) ∧
    (let f : Prefetch := { owner := 1, handle := 0, index := 0, tag := 0, data := some 7, watched := true, stale := false }
     let s := tC { tRegs [(1, 1)] with ahead := { prefetch := [f] } }
     s.prefetchOf 0 1 0 0 = some f ∧ MayLeave s 0 (flowKey (.cluster 1) 0) (.cluster 1) ∧ fF (tI (rOps 0 0 1 0 0 1 0)) % 2 = 1) ∧
    (let sp : Span := { members := [⟨0, 0⟩, ⟨1, 0⟩], stripe := 1 }
     let s := { tC with ctxs := [(5, { st := .resident, spans := [(2, sp)] })] }
     let i := tI (rOps 0 0 0 0 0 1 0) 1 2
     Ready s i ∧ formMcast.legal i = true ∧ bitsOf i.x0 63 12 = 0 ∧ (s.ctxOf 0).bind (fun x => s.span x 2) = some sp ∧
      (s.ctxOf 0).bind (fun x => s.span x 3) = none ∧ MayLeave s 0 (flowKey (.cluster 1) 0) (.cluster 1)) := by
  unfold Ready MayLeave; decide +kernel

/-- R215: SEND retires when its WRITE leaves, and its operation is outstanding. -/
theorem test_send_leaves : after (exec (.send (tI (rOps 0 0 1 0 0 0 0))) (tC (tRegs [(1, 1)])))
    (fun t => (t.net.map (fun k => (k.dst, k.ptype)), (t.cl 0).fab.ops.length, (t.regsOf 0).pc)) = some ([(.cluster 1, .write)], 1, 8) := by
  decide +kernel

/-- A packet from cluster 0 to cluster 1, and an operation of cluster 0 that has sent it. -/
def tPkt (ty : PType) : Packet := { id := 0, ptype := ty, src := .cluster 0, dst := .cluster 1, context := 5, units := 8, opTag := 3, opGen := 1 }
def tOp (busy : Nat) (k : OpKind) : Op :=
  { tag := 3, gen := 1, kind := k, pc := 8, dst := 1, flow := 7, progress := 0, busyUntil := if busy = 0 then none else some busy, pkt := tPkt .write }

theorem test_hyps_MemoryAccessFenceEnd :
    (let s := tC (tRegs [(1, 4096), (2, 4100), (3, 0x180_0000_0000)])
     let i := tI (rOps 0 1 0 0 0 8 0)
     Ready s i ∧ (formMld.legal i && unitsLegal i) = true ∧ (formMst.legal i && unitsLegal i) = true ∧ s.memTrap i = none ∧
      s.sourceRefuses (s.partOf 0) 4096 = false ∧ MayLeave s 0 (flowKey (s.agentOf 4096) 2048) (s.agentOf 4096) ∧
      s.memTrap (tI (rOps 0 2 0 0 0 8 0)) = some 0x04 ∧ s.memTrap (tI (rOps 0 3 0 0 0 8 0)) = some 0x0B ∧
      s.sourceRefuses (s.partOf 0) (15 * s.sliceSize) = true ∧ (s.cl 0).fab.fault.cause = 0) ∧
    (let s := tC
     Ready s (tI 0) ∧ formR.legal (tI 0) = true ∧ fabricDone (s.cl 0) = true ∧
      fabricDone { tV with fab := { ops := [tOp 0 .send] } } = false ∧
      ((tC { tV with fab := { fault := { cause := 0x20 } } }).cl 0).fab.fault.cause ≠ 0) := by
  unfold Ready MayLeave; decide +kernel

theorem test_hyps_Collectives_CollectiveIssue :
    (let sp : Span := { members := [⟨0, 0⟩, ⟨1, 0⟩], stripe := 1 }
     let s := { tC { tHand [(0, tH 0 8 false false 1 63 5 0)] [(1, 1)] with fab := {} } with ctxs := [(5, { st := .resident, spans := [(2, sp), (3, sp)] })] }
     let i := tI (rOps 0 0 0 0 1 0 0) 1 0x6000011003002
     let j := tI (rOps 0 0 0 0 1 0 0) 1 0x11003002
     Ready s j ∧ collLegal j = true ∧ collBad false true i.x0 1 = false ∧ collBad true true j.x0 1 = false ∧
      destOk 0xC3 i.x0 (s.handle 0 0) (some 5) sp 0 2 0 1 = true ∧ destOk 0xC4 i.x0 (s.handle 0 0) (some 5) sp 0 2 0 1 = true ∧
      destOk 0xC5 i.x0 (s.handle 0 0) (some 5) sp 0 2 0 1 = true ∧ destOk 0xC6 j.x0 (s.handle 0 0) (some 5) sp 0 2 0 1 = true ∧
      Ready s i ∧ collLegal i = true ∧ rowCount s i = 1 ∧ rowCount s (tI (rOps 0 0 0 0 0 0 0) 1) = 0 ∧ (s.ctxOf 0).bind (fun x => s.span x (cxSrc i.x0)) = some sp ∧
      (s.ctxOf 0).bind (fun x => s.span x (cxDst i.x0)) = some sp ∧ (s.ctxOf 0).bind (fun x => s.span x 9) = none ∧
      activeColls (s.cl 0) < 2 ∧ handleRangeOk (s.handle 0 0) (s.ctxOf 0) .engineRead 0 1 = true ∧ Readable s 0 0 false .none ∧
      Writable s 0 0 false) := by
  unfold Ready Readable Writable; decide +kernel

/-- Cluster 1 of context 5's partition is as given; one packet is on its way to it. -/
def tOwner (v : Cluster) (ts : Tbl TarnRow) (k : Packet) : State :=
  tNet { tC tV ts with clusters := [(0, tV), (1, v)] } k

theorem test_hyps_OwnerServesRequests_OwnerServesRows_write :
    Arrives (tOwner (tHand [(0, tagged4)]) [] (tPkt .write)) 0 .write (tPkt .write) ∧
    Arrives (tOwner (tHand [(0, plain4)]) [] (tPkt .write)) 0 .write (tPkt .write) := ⟨arrives_of (by decide +kernel), arrives_of (by decide +kernel)⟩

theorem test_hyps_OwnerServesRequests_OwnerServesRows_rows :
    (let s := tOwner (tHand [(0, tagged4)]) [] (tPkt .write)
     heldFlow (s.cl 1) (tPkt .write) = false ∧ handleOk (s.handle 1 0) (some 5) .remoteWrite 0 = true ∧ hBacking (s.handle 1 0) = 0 ∧ Writable s 1 0 true) ∧
    (let s := tOwner (tHand [(0, tagged4)]) [(rowKey 1 0, { tag := .full })] (tPkt .write)
     (s.trow 1 0).tag = .full ∧ (s.cl 1).fab.remoteWait.length < 16 ∧ Readable s 1 0 true .none ∧ handleOk (s.handle 1 0) (some 5) .remoteRead 3 = true ∧
      handleOk (s.handle 1 0) (some 5) .remoteRead 4 = false) := by
  unfold Writable Readable; decide +kernel

theorem test_hyps_OwnerServesRequests_OwnerServesRows_read :
    (let k := tPkt .read
     Arrives (tOwner (tHand [(0, tagged4)]) [(rowKey 1 0, { tag := .full })] k) 0 .read k) ∧
    (let k := { tPkt .read with access := 2 }
     Arrives (tOwner (tHand [(0, tagged4)]) [(rowKey 1 0, { tag := .full })] k) 0 .read k) ∧
    (let k := tPkt .consume
     let v : Cluster := { tHand [(0, tagged4)] with ahead := { watches := [{ requester := 0, row := 0, handle := 0 }] } }
     Arrives (tOwner v [(rowKey 1 0, { tag := .full })] k) 0 .consume k ∧ watchIntact v k 0 = true ∧ watchIntact tV k 0 = false) ∧
    (let k := tPkt .stale
     Arrives (tOwner tV [] k) 0 .stale k) :=
  ⟨arrives_of (by decide +kernel), arrives_of (by decide +kernel), ⟨arrives_of (by decide +kernel), by decide +kernel⟩, arrives_of (by decide +kernel)⟩

/-- R92: a remote write to a tagged EMPTY row fills it. -/
theorem test_write_served : after (exec (.write 0) (tOwner (tHand [(0, tagged4)]) [] { tPkt .write with data := 9 }))
    (fun t => ((t.trow 1 0).data, (t.trow 1 0).tag, t.net.map (fun k => (k.dst, k.ptype, k.status)))) =
    some (9, .full, [(.cluster 0, .ack, 0)]) := by decide +kernel

theorem test_hyps_OwnerServesRequests_OwnerServesMemory :
    (let k := { tPkt .memRd with dst := .hbm 0 }
     Arrives (tNet tC k) 0 .memRd k) ∧
    (let k := { tPkt .memWr with dst := .hbm 0 }
     Arrives (tNet tC k) 0 .memWr k) ∧
    (let k := { tPkt .memRd with index := 0x2_0000_0080_0000 }
     let s := tOwner (tHand [(0, tagged4)]) [(rowKey 1 0, { tag := .full })] k
     Arrives s 0 .memRd k ∧ s.coverOf 1 0 (some 5) .remoteRead = some true ∧ s.coverOf 1 0 (some 5) .remoteWrite = some true) :=
  ⟨arrives_of (by decide +kernel), arrives_of (by decide +kernel), arrives_of (by decide +kernel), by decide +kernel⟩

theorem test_hyps_OwnerServesRequests_OwnerServesMemory_places : placeOf 0 = .hbm 0 ∧ placeOf 0x17F_FFFF_FFFF = .hbm 0x17F_FFFF_FFFF ∧
    placeOf 0x1_0000_0000_0000 = .tier2 0 ∧ placeOf 0x2_0000_0080_0000 = .tarn 1 0 ∧
    (let s := { tC with pages := [(0, { use := .mapped, owner := 5 })] }
     s.targetServes 5 0 0 512 false = true ∧ s.targetServes 5 0 0 512 true = true ∧ s.targetServes 6 0 0 512 false = false ∧
      s.targetServes 6 0 0 512 true = false ∧ s.readsPoison 0 512 = false) := by decide +kernel

/-- Cluster 0 waits in an instruction for operation 3, whose response is on its way. -/
def tWaits (op : BitVec 8) (k : OpKind) (ty : PType) (status : Nat) : State :=
  tNet (tC { tHold tV { opcode := op, iss := tI 0, since := some 0, tag := 3 } .waiting with fab := { ops := [tOp 0 k] } })
    { tPkt ty with src := .cluster 1, dst := .cluster 0, status := status }
/-- The same with nothing held. -/
def tSent (k : OpKind) (ty : PType) (status : Nat) : State :=
  tNet (tC { tV with fab := { ops := [tOp 0 k] } }) { tPkt ty with src := .cluster 1, dst := .cluster 0, status := status }

theorem test_hyps_ResponsesAndTimeouts :
    (let k := { tPkt .data with src := .cluster 1, dst := .cluster 0 }
     Arrives (tNet tC k) 0 .data k ∧ opOf (tC.cl 0) k = none) ∧
    (let k := { tPkt .data with src := .cluster 1, dst := .cluster 0 }
     let s := tWaits 0xC1 .recv .data 0
     Arrives s 0 .data k ∧ opOf (s.cl 0) k = some (tOp 0 .recv) ∧ (waitsFor (s.cl 0) (tOp 0 .recv)).isSome = true ∧ (s.cl 0).st = .waiting) ∧
    (∀ n < 3, let k := { tPkt .ack with src := .cluster 1, dst := .cluster 0, status := n }
     let s := tSent .send .ack n
     Arrives s 0 .ack k ∧ opOf (s.cl 0) k = some (tOp 0 .send) ∧ waitsFor (s.cl 0) (tOp 0 .send) = none ∧ (s.cl 0).fab.fault.cause = 0) := by
  refine ⟨⟨arrives_of (by decide +kernel), by decide +kernel⟩, ⟨arrives_of (by decide +kernel), by decide +kernel⟩, ?_⟩
  intro n hn
  have h : ∀ n < 3, arrivesB (tSent .send .ack n) 0 .ack { tPkt .ack with src := .cluster 1, dst := .cluster 0, status := n } = true := by
    decide +kernel
  exact ⟨arrives_of (h n hn), rfl, rfl, rfl⟩

theorem test_hyps_ResponsesAndTimeouts_times :
    (let s := { tC { tV with fab := { ops := [tOp 64 .send] } } with regions := [(0, { pstate := .run, part := some 0, cycle := 64 })] }
     (s.cl 0).fab.ops.find? (fun o => o.tag == 3) = some (tOp 64 .send) ∧ (tOp 64 .send).busyUntil = some 64 ∧ s.noRoute 0 0 = false ∧
      64 ≤ (s.region 0).cycle.toNat ∧ flowOf (s.cl 0) 7 = none ∧ (tC.region 0).cycle.toNat < 64) ∧
    (let s := { tSent .send .ack 0 with tb := { now := 2000 } }
     (tOp 0 .send).progress + s.fabTicks 0 = s.now ∧ (tSent .send .ack 0).now < 0 + (tSent .send .ack 0).fabTicks 0) ∧
    (let h : Hold := { opcode := 0xC0, iss := tI 0, since := some 0 }
     let s := { tC (tHold tV h .waiting) with tb := { now := 2000 } }
     (s.cl 0).hold = some h ∧ h.tag = 128 ∧ 0 + s.fabTicks 0 ≤ s.now) := by decide +kernel

/-- A collective of clusters 0 and 1, as member `rank` has it. -/
def tColl (rank : Nat) : Coll :=
  { nth := 0, pc := 0, opcode := 0xC4, ext := 0, src := 0, dst := 0, n := 1, rank := rank, members := [0, 1], dstHandles := [0, 0], still := true,
    own := [0], progress := 0 }

theorem test_hyps_Collectives_CollectivePackets :
    (let k := { tPkt .coll with src := .cluster 1, dst := .cluster 0, context := 6 }
     let s := tNet tC k
     arrivesB s 0 .coll k = true ∧ s.ctxOf 0 ≠ some k.context) ∧
    (let k := { tPkt .coll with src := .cluster 1, dst := .cluster 0 }
     let s := tNet tC k
     arrivesB s 0 .coll k = true ∧ s.ctxOf 0 = some k.context ∧ collOf (s.cl 0) k = none ∧ notYet (s.cl 0) k = true) ∧
    (let k := { tPkt .coll with src := .cluster 0, dst := .cluster 1, opcode := 0xC4, collCount := 1, rank := 2 }
     let q := { tColl 1 with members := [0, 1, 2], dstHandles := [0, 0, 0] }
     let s := tOwner { tV with fab := { colls := [q] } } [] k
     arrivesB s 0 .coll k = true ∧ s.ctxOf 1 = some 5 ∧ collOf (s.cl 1) k = some q ∧ q.done = false ∧ q.rank ≠ 0 ∧ q.status = 0 ∧ q.localq = [] ∧
      0 < k.units ∧ k.rank ∉ q.seen ∧ q.compare k = 0) ∧
    (let k := { tPkt .collRes with opcode := 0xC3 }
     let s := tOwner (tHand [(0, plain4)]) [] k
     arrivesB s 0 .collRes k = true ∧ s.ctxOf 1 = some k.context ∧ 0 < k.units ∧ heldFlow (s.cl 1) k = false ∧
      handleOk (s.handle 1 0) (some 5) .remoteWrite 0 = true ∧ handleOk (s.handle 1 1) (some 5) .remoteWrite 0 = false) ∧
    (let q := { tColl 0 with finished := true }
     let s := tC { tV with fab := { colls := [q] } }
     (s.cl 0).fab.colls[0]? = some q ∧ collOf (s.cl 0) (q.pkt .collRes 0 0 0 0 0 0) = some q ∧ q.rank = 0 ∧ q.done = false ∧ q.due = 0 ∧ q.outq = [] ∧
      (tColl 1).rank ≠ 0) := by decide +kernel

theorem test_hyps_CodeFetchAndRunAhead_RunAhead :
    (let v := { tHand [(0, tagged4)] with st := .waiting }
     let s := tC v [(0, { tag := .full }), (2, { tag := .poisoned })]
     s.runsAhead 0 = true ∧ handleOk (s.handle 0 0) (s.ctxOf 0) .engineRead 2 = true ∧ hBacking (s.handle 0 0) = 0 ∧ (s.cl 0).ahead.loads.length < 8 ∧
      s.allHeld 0 = false ∧ (s.trow 0 0).tag = .full ∧ (s.trow 0 1).tag = .empty ∧ (s.trow 0 2).tag = .poisoned ∧ (s.trow 0 0).syndrome = 0) ∧
    (let e : RaEntry := { handle := 0, row := 0, parked := true, data := 0, stale := false }
     let s := tC { tHand [(0, tagged4)] with st := .waiting, ahead := { loads := [e] } } [(0, { tag := .full })]
     (s.cl 0).ahead.loads[0]? = some e ∧ e.parked = true ∧ s.runsAhead 0 = true ∧ (s.trow 0 e.row).tag = .full) ∧
    (let s := tC { tV with st := .waiting }
     s.runsAhead 0 = true ∧ s.badDest 0 1 = false ∧ (s.cl 0).ahead.prefetch.length < 8 ∧ hBacking (s.handle 1 0) = 0 ∧
      s.maySend 0 (flowKey (.cluster 1) 0) 0 = true ∧ s.noRoute 0 0 = false) := by decide +kernel

theorem test_hyps_ClusterHealth :
    beats (tC.cl 0).st = true ∧ (tC.region 0).pstate = .run ∧ (tC.partOf 0).isSome = true ∧ beats CState.off = false ∧ (tC.cl 0).st ≠ .off ∧
    (let s := { tC { tV with health := { subst := true, substTick := 0 } } with tb := { now := 86400 * ticksPerS } }
     (s.cl 0).health.subst = true ∧ (s.cl 0).health.substTick + 86400 * ticksPerS = s.now ∧ (tC.cl 0).health.subst = false) ∧
    (5 ≤ (5 : BitVec 7).toNat ∧ (5 : BitVec 7).toNat < (6 : BitVec 7).toNat ∧ (100 : BitVec 7).toNat ≤ 100) ∧
    ((4 : BitVec 7).toNat < 5 ∧ 100 < (101 : BitVec 7).toNat) := by decide +kernel

/-- R71: thresholds out of order change nothing, in order they are taken. -/
theorem test_age_thresholds : after (exec (.cluAgeThreshWrite 5 100) tC) (fun t => (ageWarn t, ageMigrate t)) = some (5, 100) := by decide +kernel

theorem test_hyps_FabricTransport_PacketHops :
    (let k := { tPkt .write with partition := 0 }
     let s := tNet tC k
     let u := { s with tb := { now := 1001 } }
     s.net.find? (fun q => q.id == 0) = some k ∧ s.ageOf k ≤ 1000 ∧ 1000 < u.ageOf k ∧ { s with tb := { now := 1000 } }.ageOf k ≤ 1000 ∧ k.stomp = false ∧
      (s.region 1).part ≠ some k.partition ∧ transit k 1 = false) ∧ linkExists 0 0 = true := by decide +kernel
/-- R259: a hop too late discards the packet. -/
theorem test_hop_late : after (exec (.packetHop 0 ⟨0, none, true, true, false, false⟩) { tNet tC (tPkt .write) with tb := { now := 1001 } })
    (fun t => t.net.length) = some 0 := by decide +kernel

/-- Link n of region 0 is as given. -/
def tLink (n : Nat) (v : FabLink) (now : Nat := 0) : State := { tC with fabLinks := [(n, v)], tb := { now := now } }
/-- The timebase is as given. -/
def tTb (v : Timebase) : State := { tC with tb := v }
/-- Domain d is as given. -/
def tDom (d : Nat) (v : Domain) (now : Nat := 0) : State := { tC with domains := [(d, v)], tb := { now := now } }

theorem test_hyps_FabricTransport_LinkRetraining :
    (let v : FabLink := { due := true }
     let s := tLink 0 v
     s.fabLink 0 0 = v ∧ linkExists 0 0 = true ∧ (∀ p ∈ s.retrainWaits 0 35, s.atBoundary p = true) ∧ s.retrainWaits 0 35 = [0]) ∧
    (let s := { tLink 35 { due := true } with parts := [(0, { formed := true, regions := [0], resident := some 5, running := some tStep })] }
     linkExists 0 35 = true ∧ ∃ p ∈ s.retrainWaits 0 35, s.atBoundary p = false) ∧
    (let v : FabLink := { retraining := some 0 }
     (tLink 0 v).fabLink 0 0 = v ∧ (tLink 0 v (retrainTicks 0)).now = 0 + retrainTicks 0 ∧ 0 + retrainTicks 0 < (tLink 0 v (retrainTicks 0 + 1)).now) ∧
    (let s := tLink 34 { heldSince := some 0, due := true } (100 * ticksPerMs)
     0 = dieRegion 11 ∧ (s.fabLink 0 34).heldSince = some 0 ∧ 0 + 100 * ticksPerMs = s.now) := by decide +kernel

theorem test_hyps_FabricTransport_LinkRetraining_loch : ∃ n < 115, linkClass n = .loch ∧ linkExists 0 n = true ∧ (tC.fabLink 0 n).outOfService = false ∧
    (tC.fabLink 0 n).repairs = 0 := by decide +kernel

theorem test_hyps_FabricTransport_RoutesAndDrains :
    (tC.region 15).epoch ≤ 0 ∧ (let s := { tC with regions := [(0, { epoch := 2 })] }; 1 < (s.region 0).epoch) ∧
    (let s := { tC with parts := [(0, { formed := true, regions := [0], drain := some 5 })], tb := { now := 2005 } }
     (s.part 0).drain = some 5 ∧ 5 + 2000 = s.now ∧ (s.part 0).recovery = none) := by decide +kernel

/-- R246: a route entry that changes the path advances the epoch. -/
theorem test_route_epoch : after (exec (.routeEntryWrite 0 1 5 0) tC) (fun t => (routeEpoch (t.route 0 1), bitsOf (t.route 0 1) 7 0)) = some (1, 5) := by
  decide +kernel

theorem test_hyps_PanelTime_PanelTimeReferences :
    (tTb { running := true }).tb.running = true ∧ (50 : Int).natAbs ≤ 50 ∧ 50 < (-51 : Int).natAbs ∧
    (let v : Timebase := { running := true, ref := .locked, source := false, bQualified := true, tenQualified := true, ppsExpected := some 100, now := 200 }
     v.now ≤ 100 + 100 ∧ 100 ≤ v.now + 100 ∧ v.tenQualified = true ∧ v.ppsExpected = some 100) ∧
    (let v : Timebase := { running := true, bQualified := true, lastPtp := 0, now := 4 * ticksPerS }
     v.bQualified = true ∧ v.lastPtp + 4 * ticksPerS = v.now) ∧
    (let v : Timebase := { running := true, ref := .locked, source := true, primary := false, revert := true, primarySince := some 0, now := 60 * ticksPerS }
     v.primarySince = some 0 ∧ v.source ≠ v.primary ∧ 0 + 60 * ticksPerS = v.now) ∧
    (let v : Timebase := { running := true }
     v.tenQualified = false ∧ v.ppsExpected = none ∧ v.ptpPast.isEmpty = true) ∧
    (let v : Timebase := { running := true, ref := .holdover, aQualified := false, bQualified := false }
     v.ref = .holdover ∧ v.aQualified = false) := by decide +kernel

/-- R271: three windows within 50 ppm qualify the 10 MHz input. -/
theorem test_ten_mhz : after (exec (.ref10mWindow 50) (tTb { running := true, tenWindows := 2 })) (fun t => t.tb.tenQualified) = some true := by decide +kernel

theorem test_hyps_PanelTime_BeaconsAndTicks :
    ((tDom 24 {}).domain 24).tickLost = false ∧ ((tDom 24 {}).domain 24).outOfService = false ∧
    (∃ w : BitVec 96, beaconValid ((tDom 24 {}).domain 24) w = true) ∧ (∃ w : BitVec 96, beaconValid ((tDom 24 {}).domain 24) w = false) ∧
    (3 ≤ (tDom 0 { lastBeacon := some 0 } 4096).beaconsMissed 0 ∧ ((tDom 0 { lastBeacon := some 0 } 4096).domain 0).missed < 3 ∧
      (tDom 0 { lastBeacon := some 0 } 1024).beaconsMissed 0 < 3) ∧
    100 ≤ (tDom 0 { lastBeacon := some 0 } (101 * 1024)).beaconsMissed 0 ∧ (tTb { running := true }).tb.running = true ∧ (tC.region 0).pstate = .run := by
  refine ⟨by decide +kernel, by decide +kernel, ⟨BitVec.ofNat 96 ((crc16 (bytesOf (0 : BitVec 96) 10)).toNat * 2 ^ 80), by decide +kernel⟩, ⟨1, by decide +kernel⟩, by decide +kernel, by decide +kernel, by decide +kernel, by decide +kernel⟩

theorem test_hyps_StepsCrossingsDroop :
    (let c : StepChange := { target := 7, stage := 0, started := 0 }
     let s := { tC with regions := [(0, { pstate := .run, change := some c })], tb := { now := 100 } }
     (s.region 0).change = some c ∧ c.started + 100 = s.now) ∧
    (let c : StepChange := { target := 7, stage := 1, started := 0 }
     let s := { tC with regions := [(0, { pstate := .run, change := some c })], tb := { now := 100000 } }
     (s.region 0).change = some c ∧ c.started + max 105 (s.riseTicks 0 8 7) ≤ s.now) ∧
    (crossingPresent 0 = true ∧ (let s := { tC with xings := [(0, { calibrating := true, best := some 12 })] }
      (s.xing 0).calibrating = true ∧ (s.xing 0).retryAtBeacon = false ∧ (s.xing 0).best = some 12 ∧ (s.xing 0).failures = 0)) ∧
    (let s := tDom 23 { burst := 8 }
     (s.domain 23).burst = 8 ∧ (s.domain 23).gateLeft = 0 ∧ (s.domain 22).burst < 8) ∧
    (let s := tDom 0 { gateLeft := 64 }
     (s.domain 0).gateLeft ≠ 0 ∧ (s.region 0).pstate = .run) ∧
    (let s := { tC with regions := [(0, { pstate := .hold, causes := [.droop] })] }
     (s.region 0).pstate = .hold ∧ (s.region 0).causes = [.droop]) := by decide +kernel
/-- R289: the ninth stretch in a row gates the clock for 64 periods. -/
theorem test_droop_gate : after (exec (.droopStretch 0 false) (tDom 0 { burst := 8 })) (fun t => (t.domain 0).gateLeft) = some 64 := by decide +kernel

/-! ## Steps, checkpoints, recovery -/

/-- Context 5 with an image in its current slot, of weight epoch 0. -/
def tImageCtx : Ctx := { st := .resident, slots := [(1, { state := .current, image := some tImage })] }
/-- STEP_LAUNCH of program 0 over set 0 (Table 13.7). -/
def tLaunch : Desc := BitVec.ofNat 512 (1 + 5 * 2 ^ 16)

def tL : Launch := { q := 0, k := 0, ctx := 5, desc := tLaunch, epoch := 0 }
/-- A boundary with a launch waiting and nothing else to do: the region is at step 8 already, and its rotation is off. -/
def tBd : State := { tDesc tLaunch tImageCtx with parts := [(0, { formed := true, regions := [0], resident := some 5, launches := [tL], journalGib := 4 })], regs := [(0x800020, 0)], regions := [(0, { pstate := .run, part := some 0, step := 8, budget := { maxStep := 8 } })] }
theorem tBd_1 : tBd.boundaryRepair 0 = tBd := by decide +kernel
theorem tBd_2 : tBd.copying 0 = false := by decide +kernel
theorem tBd_3a : tBd.startSubst 0 = tBd := by decide +kernel
theorem tBd_3b : tBd.startRotation 0 = tBd := by decide +kernel
theorem tBd_3c : tBd.startRetirement 0 = tBd := by decide +kernel
theorem tBd_3d : tBd.startRetirement 1 = tBd := by decide +kernel
theorem tBd_3 : tBd.boundaryCopies 0 = tBd := by
  show (((tBd.startSubst 0).startRotation 0).startRetirement 0).startRetirement 1 = tBd
  rw [tBd_3a, tBd_3b, tBd_3c, tBd_3d]
theorem tBd_4 : tBd.inTransit 0 = false := by decide +kernel
theorem tBd_5 : tBd.boundaryHandles 0 = tBd := by decide +kernel
theorem tBd_6 : tBd.boundaryEpoch 0 = tBd := by decide +kernel
theorem tBd_7 : tBd.boundaryCheckpoint 0 = tBd := by decide +kernel
theorem tBd_8 : tBd.boundarySwitch 0 = tBd := by decide +kernel
theorem tBd_9 : tBd.changing 0 = false := by decide +kernel
theorem tBd_first (p : Nat → Bool) : firstStep p 1 8 = 8 := by simp [firstStep]
theorem tBd_chosen : tBd.chosenStep 0 = 8 := by
  have h : max (max (tBd.region 0).budget.maxStep (tBd.region 0).cap) (tBd.forecastCap 0) = 8 := by decide +kernel
  unfold State.chosenStep
  simp only [h, show (tBd.region 0).droopLower = false by decide +kernel, Bool.false_eq_true, if_false]
  rw [tBd_first]
  rfl
theorem tBd_10 : tBd.boundarySteps 0 = tBd := by
  show tBd.boundaryStep 0 = tBd
  unfold State.boundaryStep
  simp only [tBd_chosen]
  decide +kernel
theorem tBd_11 : tBd.boundaryRetire 0 = tBd := by decide +kernel
theorem tBd_work : tBd.boundaryWork 0 = tBd := by
  unfold State.boundaryWork
  rw [show ((tBd.part 0).busy || (tBd.part 0).switching.isSome || (tBd.part 0).ckptBusy.isSome) = false by decide +kernel]
  simp only [tBd_1, tBd_2, tBd_3, tBd_4, tBd_5, tBd_6, tBd_7, tBd_8, tBd_9, tBd_10, tBd_11, show (tBd.part 0).retrainHold = false by decide +kernel, show (tBd.part 0).busy = false by decide +kernel, show (tBd.part 0).switching.isSome = false by decide +kernel,show (tBd.part 0).ckptBusy.isSome = false by decide +kernel, Bool.false_eq_true, if_false, Bool.or_self]

theorem test_hyps_StepsFromLaunchToCheckpoint_StepLaunchAndRelease :
    (let s := tDesc tLaunch tImageCtx
     s.startedDesc 0 0 1 = some tLaunch ∧ s.launchOk 5 0 tLaunch = true ∧ (tDesc tLaunch).launchOk 5 0 tLaunch = false ∧
      (tDesc 0).startedDesc 0 0 1 = none) ∧
    (let b := tBd.boundaryWork 0
     (tBd.part 0).running = none ∧ (tBd.part 0).recovery = none ∧ b.mayRelease 0 = true ∧ b.calibrated 0 = true ∧ (b.part 0).resident = some 5 ∧
      (b.part 0).nextLaunch 5 = some tL ∧ b.launchOk 5 0 tLaunch = true ∧ b.launchPlaced 5 0 tLaunch = true ∧ b.recordFits 0 1 = true ∧
      b.launchClusters 5 0 tLaunch = [0] ∧ tRun.mayRelease 0 = false) := by
  rw [tBd_work]
  decide +kernel

/-- R48: a released step starts at 0 with its first argument in s4 and the size of its set in s3. -/
theorem test_release : after (.next (tBd.release 0 { tL with desc := tLaunch ||| BitVec.ofNat 512 (77 * 2 ^ 192) }))
    (fun t => ((t.cl 0).st, t.sr 0 4, t.sr 0 3, (t.part 0).stepSeq)) = some (.running, 77, 1, 2) := by decide +kernel

theorem test_hyps_StepsFromLaunchToCheckpoint_StepCompletionAndCheckpoints :
    (let st := { tStep with ended := [0] }
     let s := { tC with parts := [(0, { formed := true, regions := [0], resident := some 5, running := some st })] }
     (s.part 0).running = some st ∧ st.isOver = true ∧ tStep.isOver = false ∧ (s.part 0).pendingCause = none ∧ st.replay = false ∧
      (s.lateEvents 0 (some 5)).recordFits 0 0 = true) ∧
    (let d : Desc := BitVec.ofNat 512 (5 + 5 * 2 ^ 16 + 4096 * 2 ^ 64)
     let s := { tDesc d with pages := [(1, { use := .mapped, owner := 5 })] }
     s.startedDesc 0 0 5 = some d ∧ dArea d % 4096 = 0 ∧ s.ckptNeeds 5 ≤ dAreaLen d ∧ areasMeet (dArea d, dAreaLen d) (s.ctx 5).ckpt = false ∧
      s.reachable 0 (dArea d) 1 = true ∧ s.ownPages 5 (dArea d) (dAreaLen d) = true) ∧
    (let s := { tC with parts := [(0, { formed := true, regions := [0], resident := some 5, ckptBusy := some (5, 0, 0) })],
                        ctxs := [(5, { st := .resident, ckptPending := some (0, 4096) })] }
     (s.part 0).ckptBusy = some (5, 0, 0) ∧ (s.ctx 5).ckptPending = some (0, 4096)) := by decide +kernel

/-- A partition in a recovery of a stage. -/
def tRecover (g : RStage) : State :=
  { tC with
    parts := [(0, { formed := true, regions := [0], resident := some 5, recovery := some { stage := g, cause := 0x2101, started := 0, step := some tStep, layoutDeadline := some 10 } })]
    ctxs := [(5, { st := .recovering, ckpt := some (0, 4096) })]
    tb := { now := 10 } }

theorem test_hyps_RecoverySequence :
    (let s := { tC with parts := [(0, { formed := true, regions := [0], resident := some 5, running := some tStep, pendingCause := some (0x2101, 0) })], ctxs := [(5, { st := .resident, ckpt := some (0, 4096) })] }
     (s.part 0).resident = some 5 ∧ (s.part 0).pendingCause = some (0x2101, 0) ∧ s.allRun 0 = true ∧ (s.ctx 5).ckpt.isSome = true ∧
      (s.part 0).recovery = none ∧ (tC.ctx 5).ckpt = none ∧ (tC.part 0).pendingCause = none) ∧
    (let s := tRecover .replaced
     (s.part 0).recovery.isSome = true ∧ (s.part 0).scrubbing = false ∧ (s.part 0).drain = none ∧ (s.part 0).testDue = []) ∧
    ((tRecover .restoring).part 0).recovery.map Recovery.stage = some .restoring ∧
    (let s := tRecover .done
     (s.part 0).recovery.map Recovery.stage = some .done ∧ s.changing 0 = false ∧ abortedFeed (afterCheckpoint 5 (s.part 0).journal) tStep.seq = []) ∧
    (let s := tRecover .waitLayout
     (s.part 0).recovery.bind Recovery.layoutDeadline = some 10 ∧ 10 ≤ s.now) := by decide +kernel

/-- R321: recovery starts by the drain. -/
theorem test_recovery_start :
    after (exec (.recoveryStart 0) { tC with
      parts := [(0, { formed := true, regions := [0], resident := some 5, running := some tStep, pendingCause := some (0x2101, 0) })], ctxs := [(5, { st := .resident, ckpt := some (0, 4096) })] })
      (fun t => ((t.part 0).drain, (t.ctx 5).st, (t.part 0).running.isNone)) = some (some 0, .recovering, true) := by decide +kernel

/-- Region 0 in an exchange. -/
def tExch (x : Exchange) : State :=
  { tC with
    clusters := [(0, { tV with st := .idle }), (1, { tV with st := .idle })]
    regions := [(0, { pstate := .run, part := some 0, exchange := some x })] }

theorem test_hyps_ClusterExchange :
    (let s := tExch { a := 0, b := 0, rotation := false }
     (s.region 0).exchange = some { a := 0, b := 0, rotation := false } ∧ (s.spareFor 0).isSome = true ∧ (s.cl 0).st ≠ .failed) ∧
    (let s := tExch { a := 0, b := 1, rotation := true }
     (s.region 0).exchange = some { a := 0, b := 1, rotation := true } ∧ (s.cl 0).st ≠ .failed ∧ (s.cl 1).st ≠ .failed ∧ (s.region 0).pstate = .run ∧
      localOf 0 ≠ localOf 1) ∧
    (let s := { tRecover .replaced with parts := [(0, { formed := true, regions := [0], resident := some 5, testDue := [0], recovery := some { stage := .replaced, cause := 0x2101, started := 0, step := none } })] }
     s.partOf 0 = some 0 ∧ (s.part 0).recovery.isSome = true ∧ 0 ∈ (s.part 0).testDue ∧ (s.part 0).running = none ∧ s.vacant 0 = false) := by decide +kernel

/-- R535: two failing router verdicts of adjacent testers. -/
theorem test_hyps_ClusterExchange_verdicts :
    let e := tC.cmapEntry 0 0
    let v := fun (k : Nat) (r : TestResult) => ({ site := entrySite e, tester := k, target := entryPos e, result := r } : Verdict)
    let mine := [v 1 .routerFail, v 3 .routerFail].filter (fun v => v.site == entrySite e && v.target == entryPos e && hops v.tester (entryPos e) == 1)
    failuresOf mine TestResult.isFail = 2 ∧ failuresOf mine TestResult.isRouter = 2 ∧ failuresOf [v 1 .tarnFail, v 3 .pass] TestResult.isFail = 1 := by
  decide +kernel

/-! ## Memory tiers and host processors -/

theorem test_hyps_HbmReliability_HbmCorrectionAndScrub :
    (tC.hbm 0).failed = false ∧ (tC.hbm 0).selfRefresh = false ∧ 32 * 0 < 16 * tC.sliceSize ∧ (tC.region 0).inService = true ∧
    tC.sectorPoison 0 = false ∧ (let s := { tC with hbms := [(1, { temp := 95 }), (2, { temp := 85 }), (3, { temp := 96 })] }
     85 < (s.hbm 1).temp ∧ (s.hbm 1).temp ≤ 95 ∧ (s.hbm 2).temp ≤ 85 ∧ 95 < (s.hbm 3).temp) ∧
    32 * (16 * tC.sliceSize / 32 - 1) < 16 * tC.sliceSize := by decide +kernel

/-- R341: a corrected sector is counted in its pseudo-channel and put down for its write-back. -/
theorem test_patrol_corrected : after (exec (.patrolScrub 0 .corrected) tC) (fun t => ((t.hbm 0).writeBack, Tbl.get (fun _ => 0) (t.hbm 0).corrected 0)) =
    some ([0], 1) := by decide +kernel

theorem test_hyps_HbmReliability_HbmRetirementAndFailure :
    (let s := { tC with hbms := [(0, { pending := true, pendingSince := 0 })], tb := { now := tC.vacateTicks } }
     (s.region 0).part = some 0 ∧ (s.hbm 0).pending = true ∧ (s.hbm 0).pendingSince + s.vacateTicks = s.now) ∧
    (let s := { tC with regions := [(0, { pstate := .run })], hbms := [(0, { pending := true })], tb := { now := tC.vacateTicks } }
     (s.region 0).part = none ∧ (s.hbm 0).copying = false ∧ (s.hbm 0).failed = false ∧ (s.hbm 0).pendingSince + s.vacateTicks ≤ s.now) ∧
    (let s := { tC with hbms := [(31, { copying := true, candidate := some 3 })] }
     (s.hbm 31).copying = true ∧ (s.hbm 31).candidate.isSome = true) ∧
    (let s := { tC with parts := [(0, { formed := true, regions := [0], interleave := true, journalBase := 2 ^ 37 })] }
     (s.hbm 0).failed = false ∧ (s.region 0).part = some 0 ∧ (s.part 0).interleave = true ∧ (s.hbm 1).failed = false ∧
      runsMeet (s.part 0).ringRun (s.sliceRun 0) = false) ∧
    (let s := { tC with parts := [], regions := [(0, { pstate := .run })], hbms := [(0, { failed := true })] }
     (s.hbm 0).failed = true ∧ (s.hbm 1).failed = false ∧ (s.region 0).linear = none ∧ (s.region 0).part = none ∧ s.sliceEmpty 0 = true) := by
  decide +kernel

/-- A CXL device of 64 GiB that may be used. -/
def tDev : CxlDevice := { id := 7, flit256 := true, mem := true, logicalDevices := 1, spdmOk := true, rootHash := 9, classicalOnly := false, capacity := 2 ^ 36 }

theorem test_hyps_CxlMemory_CxlPorts :
    tC.cxlAbsent 7 = false ∧ (tC.cxl 7).devices.any (fun o => o.id == tDev.id) = false ∧ (tC.cxl 7).ideRequired = false ∧
    (tDev.flit256 = true ∧ tDev.mem = true ∧ tDev.logicalDevices ≤ 1 ∧ (tC.cxl 7).devices.length < 8) ∧
    (let s := { tC with cxlPorts := [(0, { ideRequired := true })], regs := [(0x300100, 9)] }
     (s.cxl 0).ideRequired = true ∧ s.cxlTrusted tDev = true ∧ tC.cxlTrusted tDev = false) ∧
    (let s := { tC with boot := { tC.boot with diesOff := [(16, 8)] } }; s.cxlAbsent 1 = true) ∧
    (let s := { tC with cxlPorts := [(0, { up := true, ideKey := some 1, ideRekey := 24 })], tb := { now := 24 * 3600 * ticksPerS } }
     (s.cxl 0).up = true ∧ (s.cxl 0).ideKey.isSome = true ∧ (s.cxl 0).rekeyTick + (s.cxl 0).ideRekey * 3600 * ticksPerS = s.now) := by decide +kernel

/-- Window 0 is as given, over device 0 of port 0. -/
def tWin (v : Window) : State := { tC with windows := [(0, v)], cxlPorts := [(0, { up := true, devices := [tDev] })] }

theorem test_hyps_CxlMemory_Windows :
    (tWin {}).windowOk 31 0 65280 256 [0] = true ∧ (tWin {}).windowOk 31 0 65281 256 [0] = false ∧
    ((tWin { st := .zeroing }).win 0).st = .zeroing ∧
    (let s := tWin { st := .online, size := 1, devs := [0] }
     (s.win 0).st = .online ∧ s.windowPages (s.win 0) = 0) ∧
    (let s := { tWin { st := .online, size := 1, devs := [0] } with pages := [(0x1_0000_0000_0000 / 4096, { use := .mapped, owner := 5 })] }
     (s.win 0).st = .online ∧ s.windowPages (s.win 0) ≠ 0) ∧
    ((tWin { st := .offline }).win 0).st = .offline ∧ ((tWin {}).win 0).st = .free := by decide +kernel
theorem test_hyps_CxlMemory_Windows_timeouts :
    ((tC.cxl 0).timeoutTicks.filter (fun t => decide (tC.now < t + ticksPerS)) ++ [tC.now]).length < 8 ∧
    (let s := { tC with cxlPorts := [(7, { timeoutTicks := List.replicate 7 0 })] }
     8 ≤ ((s.cxl 7).timeoutTicks.filter (fun t => decide (s.now < t + ticksPerS)) ++ [s.now]).length) := by decide +kernel

/-- Core 0 runs for context 5, beside cluster 0 with handle 0 as given. -/
def tCore (e : HandleEntry) (ts : Tbl TarnRow := []) (v : Core := { owner := some 5, running := true }) : State :=
  { tC (tHand [(0, e)]) ts with cores := [(0, v)] }

theorem test_hyps_HostProcessorCores_CoreAccesses :
    (let s := tCore tagged4 [(0, { tag := .full })]
     (s.core 0).owner = some 5 ∧ (s.core 0).runs = true ∧ placeOf 0x2_0000_0000_0000 = .tarn 0 0 ∧ s.recovering 5 = false ∧
      s.coreRefuses 5 0 0x2_0000_0000_0000 .dmaRead = none ∧ s.coverOf 0 0 (some 5) .dmaRead = some true ∧ s.allHeld 0 = false ∧ (s.trow 0 0).tag = .full ∧
      s.coreRefuses 5 0 0x2_0000_0000_0000 .dmaWrite = none ∧ s.coverOf 0 0 (some 5) .dmaWrite = some true ∧
      s.coreMemory 5 0 0x2_0000_0000_0001 512 = false ∧ s.coreRefuses 5 0 0x2_0000_0000_0001 .dmaRead = some .misaligned) ∧
    ((tCore tagged4).trow 0 0).tag = .empty ∧
    (let s := { tCore tagged4 with pages := [(0, { use := .stepInput, owner := 5 })] }
     s.coreMemory 5 0 0 512 = true ∧ s.readsPoison 0 512 = false ∧ s.stepInput 0 512 = true ∧
      (let u := { s with pages := [(0, { use := .mapped, owner := 5 })] }
       u.writablePages 0 512 = true)) := by decide +kernel

/-- R367: a core's load of a tagged FULL row takes it. -/
theorem test_core_load : after (exec (.vl8re8V 0 0x2_0000_0000_0000 .none) (tCore tagged4 [(0, { data := 6, tag := .full })]))
    (fun t => ((t.core 0).v8, (t.trow 0 0).tag)) = some (6, .empty) := by decide +kernel

theorem test_hyps_HostProcessorCores_CoresAndCoherence :
    ((tCore tagged4).core 0).owner.isSome = true ∧ ((tCore tagged4).core 1).owner = none ∧ tC.homeOf 0 = some 0 ∧ tC.homeOf 0 ≠ some 1 ∧
    ((tC.region (coreRegion 0)).part.isSome = true ∧ tC.agentPart (.core 23) = (tC.region (coreRegion 0)).part) ∧
    (let s := tCore tagged4 [] { owner := some 5, running := true, errTimes := [0, 0] }
     3 ≤ ((s.core 0).errTimes.filter (fun t => decide (s.now < t + ticksPerS)) ++ [s.now]).length ∧
      ((tC.core 0).errTimes.filter (fun t => decide (tC.now < t + ticksPerS)) ++ [tC.now]).length < 3 ∧ (s.core 0).failed = false) ∧
    (tC.region (coreRegion 24)).part = none := by decide +kernel

theorem test_hyps_ContextControl_HandleTransitEnd :
    let tr : Transit := { c := 0, h := 0, spill := true, backing := 1, addr := 4096, bitmap := 8192 }
    let s := { tC (tHand [(0, plain4)]) with ctxs := [(5, { st := .resident, transit := some (none, tr) })] }
    tC.transitOf 0 0 = none ∧ s.transitOf 0 0 = some (5, none, tr) ∧ tr.backing < 4 ∧ tr.addr < 2 ^ 52 ∧
    (let u := { s with ctxs := [(5, { st := .resident, transit := some (none, { tr with spill := false }) })] }
     (u.transitOf 0 0).isSome = true) := by decide +kernel

/-- Function 0 of link 0, whose link is up and bound to partition 0, owns context 5; its aperture is context 5's. -/
def tFn (base : Word) (v : Fn := {}) : State :=
  { tC (tHand [(0, tagged4)]) with
    links := [(0, { up := true, part := some 0 })]
    fns := [(0, { v with apertureValid := true, apertureCtx := 5, apertureBase := base })]
    pages := [(0, { use := .mapped, owner := 5 })] }

theorem test_hyps_HostPortRequests :
    (let s := { tC with ports := [(7, { perst := false })] }; (s.port 7).perst = false) ∧ (tC.port 7).absent = false ∧ (let s := { tC with ports := [(7, { released := true }), (6, { perst := true })] }
     (s.port 7).released = true ∧ (s.port 6).perst = true) ∧
    (let s := tFn 0
     (s.link (fnLink 0)).up = true ∧ s.trustOk 0 false = true ∧ (s.link 0).blocked = false ∧ s.apertureOf 0 = some 5 ∧ s.barMay 5 0 4096 false = true ∧
      s.barMay 5 4096 512 false = false ∧ s.readsPoison 0 512 = false ∧ s.barMay 5 0 512 true = true ∧ s.barMay 5 4096 512 true = false ∧
      (tFn 0 { tdi := .run }).trustOk 0 false = false) ∧
    (let s := { tFn 0x2_0000_0000_0000 with tarn := [(0, { tag := .full })] }
     s.barMay 5 0x2_0000_0000_0000 512 false = true ∧ s.barMay 5 0x2_0000_0000_0000 512 true = true ∧ s.coverOf 0 0 (some 5) .dmaRead = some true ∧
      s.coverOf 0 0 (some 5) .dmaWrite = some true ∧ (s.trow 0 0).tag = .full) := by decide +kernel

/-- R382: a host write of 4 bytes through the aperture, little-endian. -/
theorem test_bar_write : after (exec (.bar2Write 0 false 4 4 0x04030201) (tFn 0)) (fun t => (t.byte 3, t.byte 4, t.byte 7, t.byte 8)) =
    some (0, 1, 4, 0) := by decide +kernel

theorem test_hyps_QueuesAndContexts :
    (let s := { tFn 0 with qps := [(0, { configured := true, enabled := true, cfg := BitVec.ofNat 64 (5 * 1024 + 4 + 4 * 32 + 2 ^ 32) })],
                           cores := [(0, { owner := some 5, running := true })] }
     s.doorbellFault (.core 0) 0 0 = none ∧ s.doorbellOk (.core 0) 0 15 (s.qp 0).sqSize = true ∧ s.doorbellOk (.core 0) 0 16 (s.qp 0).sqSize = false ∧
      s.doorbellFault (.core 0) 0 8 = none ∧ s.doorbellOk (.core 0) 0 15 (s.qp 0).cqSize = true ∧ (s.core 1).owner ≠ some (s.qp 0).ctx ∧
      (s.qp 0).enabled = true ∧ (s.qp 0).fn = 0 ∧ s.lockedTdi 0 = false ∧ (s.qp 0).prog = []) ∧
    (let s := tFn 0
     let cfg : Word := BitVec.ofNat 64 (5 * 1024 + 4 + 16 * 32 + 2 ^ 31)
     bitOf cfg 31 = true ∧ s.lockedTdi 0 = false ∧ (s.qp 2047).configured = false ∧ (s.qp 2047).enabled = false ∧
      s.enableOk 0 { s.qp 2047 with cfg := cfg &&& qpCfgMask } = true ∧ s.enableOk 0 { s.qp 2047 with cfg := 0 } = false ∧
      (s.link (fnLink 0)).part = some 0 ∧ s.freeCtx = some 0 ∧ (tC.link 0).part = none ∧
      (s.ctxs.filter (fun e => e.2.fn == 0 && decide (e.2.st ≠ .free))).length < s.ctxLimit 0) ∧
    (tFn 0 { tdi := .locked }).lockedTdi 0 = true := by decide +kernel
theorem test_hyps_QueuesAndContexts_save : ((tFn 0).saveArea 0).isSome = true := by decide +kernel

/-! ## Descriptors, copies, context control -/

/-- CONTEXT_CTL of operation op for context 5, with further fields. -/
def tCtl (op : Nat) (rest : Nat := 0) : Desc := BitVec.ofNat 512 (7 + 5 * 2 ^ 16 + op * 2 ^ 64 + rest)

/-- Queue pair 0 of context 5 with entries as given. -/
def tQp (prog : List Prog) (v : Qp := {}) : State :=
  { tC with qps := [(0, { v with configured := true, enabled := true, cfg := BitVec.ofNat 64 (5 * 1024 + 4 + 16 * 32), prog := prog })] }

theorem test_hyps_Descriptors :
    (tQp [] { sqTail := 1 }).mayFetch 0 = true ∧ (tQp []).mayFetch 0 = false ∧
    (let e : Prog := { k := 0, desc := BitVec.ofNat 512 (5 * 2 ^ 16) }
     let s := tQp [e]
     s.prog 0 0 = some e ∧ s.mayStart 0 e = true ∧ headerCode (s.qp 0).ctx e.desc = none) ∧
    headerCode 5 (BitVec.ofNat 512 (5 * 2 ^ 16 + 2 ^ 511)) = some 0x0811 ∧ headerCode 5 (BitVec.ofNat 512 (4 * 2 ^ 16)) = some 0x0812 ∧
    (let e : Prog := { k := 1, desc := BitVec.ofNat 512 (8 + 5 * 2 ^ 16), order := 1 }
     (tQp [{ k := 0, desc := 0, started := true }, e]).mayStart 0 e = false ∧ headerCode 5 (BitVec.ofNat 512 (9 + 5 * 2 ^ 16)) = some 0x0810) ∧
    (tDesc (BitVec.ofNat 512 (5 * 2 ^ 16))).startedDesc 0 0 0 = some (BitVec.ofNat 512 (5 * 2 ^ 16)) ∧
    (let s := tDesc (BitVec.ofNat 512 (6 + 5 * 2 ^ 16))
     (s.startedDesc 0 0 6).isSome = true ∧ s.recordFits 0 0 = true ∧ s.startedDesc 0 0 8 = none ∧ s.startedDesc 0 0 0 = none) ∧
    ({ tC with parts := [(0, { formed := true, journalGib := 0 })] } : State).recordFits 0 0 = false ∧
    ((tDesc (BitVec.ofNat 512 (8 + 5 * 2 ^ 16))).startedDesc 0 0 8).isSome = true ∧
    (tDesc (BitVec.ofNat 512 (8 + 5 * 2 ^ 16))).startedDesc 0 0 6 = none := by decide +kernel

/-- R393: an unknown type is rejected with 0x0810, in its completion. -/
theorem test_rejected_type : after (exec (.descriptorStart 0 0) (tQp [{ k := 0, desc := BitVec.ofNat 512 (9 + 5 * 2 ^ 16) }]))
    (fun t => ((t.prog 0 0).isNone, (t.qp 0).inUse)) = some (true, 1) := by decide +kernel

/-- A copy of `len` bytes from src to dst, with further fields. -/
def tCopy (src dst len : Nat) (rest : Nat := 0) : Desc :=
  BitVec.ofNat 512 (2 + 5 * 2 ^ 16 + src * 2 ^ 64 + dst * 2 ^ 128 + len * 2 ^ 192 + 2 ^ 224 + rest)

/-- Context 5 owns the two pages from 0x1_0000_0000, and cluster 0's handle 0. -/
def tMine (d : Desc) : State :=
  { tDesc d with
    clusters := [(0, tHand [(0, plain4)])]
    pages := [(0x100000, { use := .mapped, owner := 5 }), (0x100001, { use := .mapped, owner := 5 })] }

theorem test_hyps_DmaCopies :
    ((tDesc (tCopy 0 0 0 (5 * 2 ^ 329))).startedDesc 0 0 2 = some (tCopy 0 0 0 (5 * 2 ^ 329)) ∧ (dmaOf (tCopy 0 0 0 (5 * 2 ^ 329))).valuesOk = false) ∧
    ((dmaOf (tCopy 0 0 0)).valuesOk = true ∧ (dmaOf (tCopy 0 0 0)).empty = true) ∧
    (let m := dmaOf (tCopy 0 0x2_0000_0000_0100 512)
     m.valuesOk = true ∧ m.empty = false ∧ m.aligned = false) ∧
    (let m := dmaOf (tCopy 0 0 256 (2 ^ 328))
     m.valuesOk = true ∧ m.empty = false ∧ m.aligned = true ∧ m.countsOk = false) ∧
    (let m := dmaOf (tCopy 0x1_0000_0000 0x1_0000_1000 4096)
     let s := tMine (tCopy 0x1_0000_0000 0x1_0000_1000 4096)
     m.valuesOk = true ∧ m.empty = false ∧ m.aligned = true ∧ m.countsOk = true ∧ s.dmaChecked 5 m = true ∧
      (tDesc (tCopy 0x1_0000_0000 0x1_0000_1000 4096)).dmaChecked 5 m = false) ∧
    (tDesc (tCtl 1)).startedDesc 0 0 2 = none ∧ (tDesc (tCopy 0 0 0)).runningDma 0 0 = none := by decide +kernel
/-- The copy of `d` runs, `n` units of it done. -/
def tRunning (d : Desc) (n : Nat) (since : Option Nat := none) : State :=
  { tMine d with qps := [(0, { configured := true, enabled := true, cfg := BitVec.ofNat 64 (5 * 1024 + 4 + 16 * 32), prog := [{ k := 0, desc := d, started := true, running := true, moved := n, read := n, hostSince := since }] })] }
theorem test_hyps_DmaCopies_units :
    (let d := tCopy 0x1_0000_0000 0x1_0000_1000 4096
     let s := tRunning d 7
     let m := dmaOf d
     (s.runningDma 0 0).isSome = true ∧ s.recovering 5 = false ∧ m.tagOp = 0 ∧ m.convert = false ∧ 7 < m.total ∧ 7 + 1 = m.total ∧
      s.dmaSide 5 (m.srcUnit 7).1 (m.srcUnit 7).2 false = true ∧ s.dmaSide 5 (m.dstUnit 7).1 (m.dstUnit 7).2 true = true ∧
      s.readsPoison (m.srcUnit 7).1 (m.srcUnit 7).2 = false ∧ placeOf (m.dstUnit 7).1 = .hbm 0x1_0000_1E00 ∧ placeOf (m.srcUnit 7).1 = .hbm 0x1_0000_0E00) ∧
    (let d := tCopy 0x1_0000_0000 0x2_0000_0000_0000 512
     let s := tRunning d 0
     placeOf (dmaOf d).dst = .tarn 0 0 ∧ s.coverOf 0 0 (some 5) .dmaWrite = some false ∧ s.dmaSide 5 (dmaOf d).dst 512 true = true) ∧
    (let d := tCopy 0 0x2_0000_0000_0000 512 (2 ^ 336)
     let s := tRunning d 0
     (dmaOf d).tagOp = 1 ∧ 0 < (dmaOf d).total ∧ s.dmaSide 5 (dmaOf d).dst 512 true = true ∧ s.allHeld 0 = false ∧ (s.trow 0 0).tag = .empty) ∧
    (dmaOf (tCopy 0 0x2_0000_0000_0000 512 (2 ^ 337))).tagOp = 2 ∧
    (let s := { tRunning (tCopy 0 0 512) 0 (some 0) with tb := { now := 100000000 } }
     ((s.runningDma 0 0).bind Prog.hostSince) = some 0 ∧ 0 + (s.link ((s.qp 0).fn / 64)).cplTimeout * 50 * ticksPerUs ≤ s.now) ∧
    (let s := { tRunning (tCopy 0 0 512) 0 with ctxs := [(5, { st := .recovering })] }; s.recovering 5 = true) := by decide +kernel
theorem test_hyps_DmaCopies_host : (match placeOf 0x4_0000_0000_0000 with | .host l a => decide (l = 0 ∧ a = 0) | _ => false) = true := by decide +kernel

/-- R399: a unit moves 512 bytes, the last one too. -/
theorem test_dma_unit : after (exec (.dmaUnit 0 0 0 .none) { tRunning (tCopy 0x1_0000_0000 0x1_0000_1000 1024) 1 with mem := [(0x1_0000_0200, 9)] })
    (fun t => (t.byte 0x1_0000_1200, (t.prog 0 0).isNone)) = some (9, true) := by decide +kernel

theorem test_hyps_ContextControl :
    (let d := tCtl 1 (2 * 2 ^ 128 + 64 * 2 ^ 256)
     (tDesc d).startedCtl 0 0 1 = some d ∧ paramOk 2 64 = true ∧ paramOk 2 65 = false) ∧
    (let d := tCtl 3 ((tH 0 4 false false 4 0x3F 5 0).toNat * 2 ^ 256)
     let s := tDesc d
     s.startedCtl 0 0 3 = some d ∧ cCluster d = 0 ∧ s.ctxCluster 5 0 = true ∧ s.imageHandle 5 0 0 = false ∧ s.entryOk 5 (d.extractLsb' 256 256) = true ∧
      s.entryOk 6 (d.extractLsb' 256 256) = false) ∧
    (cCluster (tCtl 3 (4608 * 2 ^ 128)) = 4608 ∧ tC.ctxCluster 5 4607 = false) ∧
    (let s := tDesc (tCtl 3) { st := .resident, slots := [(0, { state := .staged, handles := [(0, 0, plain4)] })] }
     s.imageHandle 5 0 0 = true ∧ s.ctxCluster 5 0 = true) ∧
    (let s := tMine (tCtl 4 (0x1_0000_0000 * 2 ^ 192))
     let s := { s with mem := [(0x1_0000_0000, 1), (0x1_0000_0002, 1), (0x1_0000_0004, 0x50)] }
     (s.startedCtl 0 0 4).isSome = true ∧ isTarn 0x1_0000_0000 = false ∧ s.dmaSide 5 0x1_0000_0000 12 false = true ∧ s.readsPoison 0x1_0000_0000 12 = false ∧
      (s.spanOf 5 (s.spanWords 0x1_0000_0000 [])).isSome = true ∧ tC.spanOf 5 [0] = none ∧ isTarn 0x2_0000_0000_0000 = true ∧
      tC.dmaSide 5 0x1_0000_0000 12 false = false) ∧
    (let d := tCtl 5 (2 ^ 152 + 0x1_0000_0000 * 2 ^ 192)
     let s := tMine d
     s.startedCtl 0 0 5 = some d ∧ bitsOf d 153 152 = 1 ∧ s.backingOk 5 1 (cAddr d) (hCount (s.ctxHandle 5 0 0) * 512) = true ∧
      (tDesc d).backingOk 5 1 (cAddr d) 512 = false ∧ bitsOf (tCtl 5) 153 152 = 0 ∧ cAddr (tCtl 5) = 0) ∧
    ((tDesc (tCtl 6)).startedCtl 0 0 6).isSome = true ∧
    (let s := tMine 0; s.isResident 5 = true ∧ s.ctxFits 5 0 1 plain4 = true ∧ hGen plain4 = 0) := by decide +kernel

theorem test_hyps_PagesAndCores :
    (let d := tCtl 7 (0x1_0000_0000 * 2 ^ 192 + 2 * 2 ^ 256)
     let s := tDesc d { st := .resident, quota := 2 }
     s.startedCtl 0 0 7 = some d ∧ cCount d = 2 ∧ cAddr d % 4096 = 0 ∧ s.mappable 5 0x100000 = true ∧ s.mappable 5 0x100001 = true ∧
      s.ownedPages 5 + 2 ≤ (s.ctx 5).quota ∧ (tDesc d { st := .resident, quota := 1 }).ownedPages 5 + 2 > 1 ∧ s.mappable 5 0 = false ∧
      cCount (tCtl 7) = 0 ∧ cAddr (tCtl 7 (2 ^ 192)) % 4096 ≠ 0) ∧
    (let d := tCtl 8 (0x1_0000_0000 * 2 ^ 192 + 2 * 2 ^ 256)
     let s := tMine d
     s.startedCtl 0 0 8 = some d ∧ s.mappedBy 5 0x100000 = true ∧ s.mappedBy 5 0x100001 = true ∧ s.mappedBy 5 0x100002 = false ∧
      s.inCheckpoint 0x100000 2 = false ∧ s.isResident 5 = true ∧
      ({ s with pages := [(0x100000, { use := .checkpoint, owner := 5 })] } : State).inCheckpoint 0x100000 1 = true ∧
      ({ s with parts := [(0, { formed := true, regions := [0] })] } : State).isResident 5 = false) ∧
    (let d := tCtl 9 (24 * 2 ^ 144)
     let s := tDesc d
     s.startedCtl 0 0 9 = some d ∧ bitsOf d 148 144 = 24 ∧ (List.range 24).all (fun i => s.coreMay 5 i false) = true ∧ s.coreMay 5 24 false = false ∧
      (let u := { s with cores := [(23, { owner := some 5 })] }; u.coreMay 5 23 true = true ∧ u.coreMay 5 22 true = false)) ∧
    (let s := { tC with pages := [(7, { use := .zeroing })] }; (s.page 7).use = .zeroing) := by decide +kernel

theorem test_hyps_ContextEndsAndSwitches_KillingContexts :
    ((tDesc (tCtl 10)).startedCtl 0 0 10 = some (tCtl 10) ∧ (tC.ctx 5).st ≠ .free ∧ (tC.ctx 5).st ≠ .killing) ∧
    (tC.prtAgent (.operator tC.mgt.epoch 0) 0 = true ∧ (tC.ctx 5).part = 0 ∧ tC.prtAgent (.core 0) 0 = false) ∧
    (let s := { tC with ctxs := [(5, { st := .killing, killStage := 3, killQ := some (0, 0) })] }
     (s.ctx 5).st = .killing ∧ (s.ctx 5).killStage = 3 ∧ (s.ctx 5).killQ = some (0, 0) ∧ (tC.ctx 5).st ≠ .killing) ∧
    (let s := { tC with parts := [(0, { formed := true, regions := [0], resident := some 5, scrubbing := true })], ctxs := [(5, { st := .killing, killStage := 2 })] }
     (s.part 0).scrubbing = true ∧ (s.part 0).resident = some 5 ∧ (s.ctx 5).killStage = 2 ∧ (tC.part 0).scrubbing = false ∧
      inRegions [0] 0 = true ∧ inRegions [0] 4607 = false) := by decide +kernel

theorem test_hyps_ContextEndsAndSwitches_SwitchesAndFunctionResets :
    (let w : CtxSwitch := { stage := .saving, outgoing := some 5, incoming := 6 }
     let s := { tC with parts := [(0, { formed := true, regions := [0], resident := some 5, switching := some w })] }
     (s.part 0).switching = some w ∧ (s.partRows 0).all (fun e => e.2.syndrome == 0) = true ∧ (tC.part 0).switching = none) ∧
    (let w : CtxSwitch := { stage := .restoring, outgoing := some 5, incoming := 6 }
     let s := { tC with parts := [(0, { formed := true, regions := [0], switching := some w })],
                        ctxs := [(6, { st := .waiting, save := some { rows := [(rowKey 0 0, { data := 1 })], handles := [] } })] }
     (s.part 0).switching = some w ∧ (s.part 0).scrubbing = false ∧ (s.part 0).drain = none ∧ (s.ctx 6).needLayout = false ∧
      (s.ctx 6).save.isSome = true ∧ (tC.ctx 6).save = none) ∧
    (let s := { tFn 0 { tdi := .run } with qps := [(0, { configured := true })] }
     (s.fn 0).tdi = .run ∧ fnLink 0 = 0 ∧ fnLink 1023 = 15 ∧ 1023 % 64 ≠ 0 ∧ (s.qp 0).fn = 0 ∧ (s.ctx 5).fn = 0 ∧ (s.link 0).up = true ∧ (tC.link 0).up = false) := by
  decide +kernel

/-! ## Images -/

/-- An image of one shard of one row, whose header is one of Table 14.2, with a layout of one rank. -/
def tImg (rest : BitVec 2048 := 0) : Image :=
  { tImage with
    header := BitVec.ofNat 2048 (0x474D4951 + 2 ^ 32 + 128 * 2 ^ 64 + 2 ^ 96 + 131072 * 2 ^ 128 + 2 ^ 160 + 0x3000 * 2 ^ 192) ||| rest
    manifest := { tImage.manifest with len := 128, shards := [7] } }
/-- LOAD_IMAGE from 0x1_0000_0000 to slot 3. -/
def tLoad : Desc := BitVec.ofNat 512 (3 + 5 * 2 ^ 16 + 0x1_0000_0000 * 2 ^ 64 + 3 * 2 ^ 128)
/-- Context 5 owns the four pages the image lies in, and may own eight. -/
def tLoads (v : Ctx := { st := .resident, quota := 8 }) : State :=
  { tDesc tLoad v with pages := (List.range 4).map (fun k => (0x100000 + k, { use := .mapped, owner := 5 })) }

theorem test_hyps_ImageLoadsAndSlots_LoadingImages :
    (let s := tLoads
     s.startedDesc 0 0 3 = some tLoad ∧ (s.slot 5 3).state = .empty ∧ bitsOf tLoad 115 64 % 4096 = 0 ∧ isTarn 0x1_0000_0000 = false ∧
      s.dmaSide 5 0x1_0000_0000 0x2000 false = true ∧ s.dmaSide 5 0x1_0000_0000 (imgBytes tImg) false = true ∧ headerOk tImg = true ∧ headerOk tImage = false ∧
      (tDesc tLoad).dmaSide 5 0x1_0000_0000 0x2000 false = false) ∧
    bitsOf (tLoad ||| BitVec.ofNat 512 (2 ^ 64)) 115 64 % 4096 = 1 ∧
    (let s := tLoads
     s.layoutChoices 5 tImg = [0] ∧ s.layoutFits 0 tLayout = true ∧ s.handlesTaken 5 0 tLayout = false ∧
      (tLoads { st := .resident, quota := 6 }).reserve 5 0 tImg tLayout = none) ∧
    ({ tLoads with parts := [(0, { formed := true })] } : State).layoutFits 0 tLayout = false ∧
    (tLoads { st := .resident, slots := [(3, { state := .staged })] }).slot 5 3 ≠ {} := by decide +kernel

/-- Where the header is right, the two hashes and the signature pass, the manifest is well formed and the key unwraps, the
image passes; each of these values is free. -/
theorem test_hyps_ImageLoadsAndSlots_LoadingImages_accepted (s : State) (m : Image) (key : BitVec 256) (h1 : headerOk m = true) (h2 : Config.keyHash m.pubKey = imgKeyHash m)
    (h3 : Config.manifestHash m.manifest = imgManifestHash m) (h4 : Config.verify44 (imgKeyHash m) (imgManifestHash m) m.signature = true)
    (h5 : Config.unwrap (s.ctx 5).keyGen m.kemCiphertext m.wrappedKey (imgManifestHash m) (imgKeyHash m) = some key) (h6 : manifestOk m = true) :
    s.imageCheck 5 m = .inr key := by
  simp [State.imageCheck, h1, h2, h3, h4, h5, h6]

theorem tRoom1 (h0 : Config.pick 0 = 0) : tLoads.allocRun [0] 3 = some (0x100004, 3) := by
  unfold State.allocRun
  rw [show Config.pick tLoads.fresh = 0 from h0]
  decide +kernel
def tGiven : State := tLoads.draw.givePages (0x100004, 3) .image 5
theorem tRoom2 (h1 : Config.pick 1 = 0) : tGiven.allocRun [0] 65536 = some (0x100007, 65536) := by
  unfold State.allocRun
  rw [show Config.pick tGiven.fresh = 0 from h1]
  decide +kernel
/-- The page a device picks is free; where it is one that fits no free run, the image finds room. -/
theorem test_hyps_ImageLoadsAndSlots_LoadingImages_room (h0 : Config.pick 0 = 0) (h1 : Config.pick 1 = 0) : (tLoads.reserve 5 0 tImg tLayout).isSome = true := by
  have hs : (tLoads.part 0).sorted = [0] := by decide +kernel
  have hl : (entriesOf tImg.manifest.common 9).map leAreaPages ++ [3] = [3] := by decide +kernel
  have ht : State.takeAreas 5 [0] [3] tLoads = some ([0x100004 * 4096], tGiven) := by
    simp only [State.takeAreas, tRoom1 h0]
    rfl
  unfold State.reserve
  dsimp only
  rw [hs, hl, if_neg (by decide +kernel), ht, show (tLoads.part 0).chain.head? = some 0 by decide +kernel]
  obtain ⟨v, hv⟩ := Option.isSome_iff_exists.mp (show (tLoads.placeHandles 5 0 tLayout).isSome = true by decide +kernel)
  rw [hv]
  simp only [tRoom2 h1]
  rfl

/-- Slot 3 of context 5 loads the image. -/
def tSlot (v : Slot) : State :=
  tLoads { st := .resident, quota := 8, slots := [(3, { v with image := some tImg })] }

theorem test_hyps_Shards :
    (let s := tSlot { state := .loading }
     (s.slot 5 3).image = some tImg ∧ s.refetches 5 3 0 = false ∧ s.loadRuns 5 3 = true ∧ (s.slot 5 3).inFlight.contains 0 = true ∧
      (s.slot 5 3).inFlight.contains 1 = false ∧ shardGood tImg 0 (.arrived 7 true) [0] = true ∧ shardGood tImg 0 (.arrived 7 false) [0] = false ∧
      shardGood tImg 0 .poisoned [0] = false ∧ s.shareSource 5 (s.slot 5 3) = none) ∧
    (let s := tSlot { state := .loading, retries := [(0, 3)] }; 3 ≤ Tbl.get (fun _ => 0) (s.slot 5 3).retries 0) ∧
    (let s := { tSlot { state := .loading, requestTicks := [(0, 0)] } with tb := { now := (tC.part 0).shardTimeout * ticksPerMs } }
     (s.slot 5 3).requestTicks.find? (fun e => e.1 == 0) = some (0, 0) ∧ 0 + (s.part 0).shardTimeout * ticksPerMs ≤ s.now) ∧
    (let s := tSlot { state := .loading, fetched := [0] }
     let w := { s.slot 5 3 with written := [(0, 0)] }
     s.loadRuns 5 3 = true ∧ (s.slot 5 3).fetched.contains 0 = true ∧ (s.slot 5 3).written.contains (0, 0) = false ∧
      (s.part 0).regions.contains 0 = true ∧ ((s.part 0).chain.takeWhile (fun j => j != 0)) = [] ∧
      (List.range (imgShards tImg)).all (fun j => (s.slot 5 3).fetched.contains j && (s.part 0).chain.all (s.regionServed 0 w j)) = true) := by
  decide +kernel
/-- An extent of type 5 sends the first two rows of shard 0 to handle 0 of rank 0, which is rows 0 and 1 of cluster 0. -/
def tExtent : LEntry := BitVec.ofNat 128 (5 + 2 * 2 ^ 41 + 2 ^ 59)
theorem test_hyps_Shards_stored :
    let img := { tImg with manifest := { tImg.manifest with layouts := [tLayout ++ [tExtent]] } }
    let s : State := { tLoads with
      ctxs := [(5, { st := .resident, slots := [(3, { state := .loading, fetched := [0], handles := [(0, 0, plain4)], image := some img })] })] }
    let v := s.slot 5 3
    v.extents = [tExtent] ∧ leShard tExtent = 0 ∧ leRows tExtent = 2 ∧ s.isResident 5 = true ∧
      (List.range 2).filterMap (s.destOf 0 v tExtent) = [.tarn 0 0, .tarn 0 1] ∧ regionOf 0 = 0 ∧ s.loadRuns 5 3 = true := by decide +kernel
/-- A second partition of a second context that shares the same image from its slot 0. -/
theorem test_hyps_Shards_copy :
    let img := { tImg with manifest := { tImg.manifest with layouts := [tLayout] } }
    let s := { tLoads with
      parts := [(0, { formed := true, regions := [0], resident := some 5, shareAllow := true }), (1, { formed := true, regions := [1], shareAllow := true })]
      ctxs := [(5, { st := .resident, slots := [(3, { state := .loading, image := some img, share := true, contentKey := 1 })] }),
               (6, { st := .waiting, part := 1, slots := [(0, { state := .staged, image := some img, share := true, contentKey := 1 })] })] }
    let v := s.slot 5 3
    s.shareSource 5 v = some (6, 0) ∧ v.share = true ∧ (s.part 0).shareAllow = true ∧ s.loadRuns 5 3 = true := by decide +kernel

theorem test_hyps_ImageLoadsAndSlots_ImageSlots :
    (let d : Desc := BitVec.ofNat 512 (4 + 5 * 2 ^ 16 + 2 * 2 ^ 128 + 15 * 2 ^ 136)
     let s := tDesc d { st := .resident, slots := [(2, { state := .current }), (15, { state := .staged })] }
     s.startedDesc 0 0 4 = some d ∧ bitsOf d 135 128 = 2 ∧ bitsOf d 143 136 = 15 ∧ (s.slot 5 2).state = .current ∧ (s.slot 5 15).state = .staged ∧
      (s.ctx 5).epoch < 0xFFFFFFFF ∧ (tDesc d).startedCtl 0 0 2 = none ∧ (tDesc (tCtl 2)).startedDesc 0 0 4 = none) ∧
    (let s := { tC with ctxs := [(5, { st := .resident, slots := [(2, { state := .retiring, epoch := 1, handles := [(0, 0, plain4)], staging := some (1, 2) })] })] }
     (s.slot 5 2).state = .retiring ∧ s.epochHeld 5 1 = false ∧ (s.emptySlot 5 2).imageHandle 5 0 0 = false ∧
      ({ tC with parts := [(0, { formed := true, regions := [0], resident := some 5, launches := [{ q := 0, k := 0, ctx := 5, desc := 0, epoch := 1 }] })] } : State).epochHeld 5 1 = true) ∧
    (let d := tCtl 2 (15 * 2 ^ 128)
     let r : Recovery := { stage := .waitLayout, cause := 0x2101, started := 0, step := none, layoutDeadline := some 9 }
     let s := tDesc d { st := .recovering, slots := [(15, { state := .current, image := some tImg })] }
     let u := { s with parts := [(0, { formed := true, regions := [0], resident := some 5, recovery := some r })] }
     s.startedCtl 0 0 2 = some d ∧ bitsOf d 135 128 = 15 ∧ bitsOf d 151 136 = 0 ∧ (s.slot 5 15).state ≠ .empty ∧ ((s.slot 5 15).layoutOf 0).isSome = true ∧
      s.waitsLayout 5 = false ∧ (s.slot 5 15).layout = 0 ∧ u.waitsLayout 5 = true ∧
      (match State.replaceSlots u 5 0 0 ((u.ctx 5).slots.filter (fun e => decide (e.2.state ≠ .empty))) [] [] with | some (_, []) => true | _ => false) = true ∧
      State.replaceSlots { u with parts := [(0, { formed := true })] } 5 0 0 ((u.ctx 5).slots.filter (fun e => decide (e.2.state ≠ .empty))) [] [] = none ∧
      ((s.slot 5 15).layoutOf 1).isSome = false) := by decide +kernel

/-- R426: a shard that arrives as announced is kept; one that does not is asked for again, and counted. -/
theorem test_shard : after (exec (.shardFetchDone 5 3 0 (.arrived 8 true) [0]) (tSlot { state := .loading })) (fun t => (t.slot 5 3).retries) = some [(0, 1)] ∧
    after (exec (.shardFetchDone 5 3 0 (.arrived 7 true) [5]) (tSlot { state := .loading })) (fun t => (t.slot 5 3).fetched) = some [0] := by decide +kernel

/-! ## Security -/

/-- North holds the lease, the wired network is up, and every function path's link too. -/
def tLease : State :=
  { tC with
    mgt := { tC.mgt with port0 := true, north := { tC.mgt.north with role := .holder } }
    links := [(0, { up := true })] }
/-- SPDM has negotiated over TCP. -/
def tNego : State := { tLease with sec := { tLease.sec with version := [.tcp], caps := [.tcp], algs := [.tcp] } }

theorem test_hyps_Spdm_SpdmResponder :
    (tNego.pathUp .tcp = true ∧ tNego.signer = some 0 ∧ SpdmPath.tcp ∈ tNego.sec.version ∧ SpdmPath.tcp ∈ tNego.sec.caps ∧ SpdmPath.tcp ∈ tNego.sec.algs ∧
      SpdmPath.mctpI3c ∉ tNego.sec.algs ∧ SpdmPath.tcp ∉ tLease.sec.version ∧ SpdmPath.tcp ∉ tLease.sec.caps) ∧
    (tC.signer = none ∧ tC.pathUp (.doe 0) = false ∧ tLease.pathUp (.doe 63) = true ∧ tLease.pathUp (.doe 64) = false) ∧
    (tNego.blocks .tcp 0 1).isSome = true ∧ tNego.blocks .tcp 0 0x7F = none := by decide +kernel

/-- R441: version 1.3 alone is spoken. -/
theorem test_version : after (exec (.getVersion .tcp) tLease) (fun t => t.out) = some [.spdm .tcp 0x04 [0x13]] := by decide +kernel

/-- A session of number 4 over DOE function 1. -/
def tSess (est : Bool) (now : Nat := 0) : State :=
  { tLease with sec := { tLease.sec with sessions := [{ id := 4, path := .doe 1, established := est, last := 0 }] }, tb := { now := now } }

theorem test_hyps_Spdm_SpdmSessions :
    ((tSess true).pathUp (.doe 1) = true ∧ (tSess true).signer = some 0 ∧ SpdmPath.doe 1 ∉ (tSess true).sec.algs ∧ (tNego.sec.sessions.length < 64 ∧
      SpdmPath.tcp ∈ tNego.sec.algs ∧ tNego.pathUp .tcp = true ∧ tNego.signer = some 0)) ∧
    (let e : Session := { id := 4, path := .doe 1, established := true, last := 0 }
     let s := { tNego with sec := { tNego.sec with sessions := List.replicate 64 e } }
     64 ≤ s.sec.sessions.length ∧ SpdmPath.tcp ∈ s.sec.algs ∧ s.pathUp .tcp = true ∧ s.signer = some 0) ∧
    (((tSess true).session 4).map Session.established = some true ∧ ((tSess false).session 4).map Session.established = some false ∧
      ((tSess false).session 4).map Session.path = some (.doe 1) ∧ (tSess true).session 5 = none) ∧
    (0 = (tSess true).nextChunk 4 9 ∧ pathLink (.doe 1) = some 0 ∧ pathLink (.doe 1) = some (fnLink 1)) ∧
    (((tSess true).fn 1).tdi ≠ .locked ∧ ({ tSess true with fns := [(1, { tdi := .locked })] } : State).fn 1 = { tdi := .locked }) ∧
    (0 + 3 * (tSess true).heartbeatTicks ≤ (tSess true (3 * tC.heartbeatTicks)).now ∧ (tSess true).now < 0 + 3 * (tSess true).heartbeatTicks) := by decide +kernel

theorem test_hyps_InterfacesFusesAndDebug_InterfacesAndFuses :
    ((tC.fn 1).tdi = .unlocked ∧ tC.ctxs.any (fun e => e.2.fn == 1 && decide (e.2.st ≠ .free) && e.2.debugOpen) = false) ∧
    (let s := { tC with ctxs := [(5, { st := .resident, fn := 1, debugOpen := true })] }
     s.ctxs.any (fun e => e.2.fn == 1 && decide (e.2.st ≠ .free) && e.2.debugOpen) = true) ∧
    (tLease.signer = some 0 ∧ tLease.current tLease.mgt.epoch = true ∧ tLease.current (tLease.mgt.epoch + 1) = false ∧ tC.signer = none) ∧
    (tLease.sec.opHashSet = false ∧
      (let s := { tLease with mgt := { tLease.mgt with north := { tLease.mgt.north with svn := 5 } } }
       s.sec.svnMinNext.toNat < (5 : Word).toNat ∧ (5 : Word).toNat ≤ (s.die 0).svn.toNat ∧ (s.die 0).svn.toNat < (6 : Word).toNat ∧ s.signer = some 0)) := by
  decide +kernel

/-- An operator debug session is open, and context 5 is open to it or not. -/
def tDbg (o : Bool) (v : Cluster := tV) : State :=
  { tC v with
    sec := { tC.sec with debugActive := true }
    ctxs := [(5, { st := .resident, debugOpen := o })]
    pages := [(0, { use := .mapped, owner := 5 })] }

theorem test_hyps_InterfacesFusesAndDebug_OperatorDebug :
    (tC.sec.debugActive = false ∧ (tDbg true).sec.debugActive = true ∧
      (let s := { tDbg true with tb := { now := 60 * ticksPerS } }; s.sec.debugLast + 60 * ticksPerS ≤ s.now) ∧ (tDbg true).now < (tDbg true).sec.debugLast + 60 * ticksPerS) ∧
    (haltable ((tDbg true).cl 0) = true ∧ haltable ((tDbg true).cl 1) = false ∧ ((tDbg true { tV with st := .halted, haltedFrom := .running }).cl 0).st = .halted) ∧
    (let s := { tDbg true with cores := [(383, { halted := true })] }; (s.core 383).halted = true) ∧
    ((tDbg true).ctxOf 0 = some 5 ∧ ((tDbg true).ctx 5).debugOpen = true ∧ ((tDbg false).ctx 5).debugOpen = false ∧ (tDbg true).rowTag 0 16383 = .empty ∧
      ((tDbg false).page 0).use = .mapped ∧ ((tDbg false).page 0).owner = 5) := by decide +kernel

/-- R458: a sealed context's register reads as zeros, counted. -/
theorem test_sealed : after (exec (.debugRead (.scalar 0 3)) (tDbg false { tRegs [(3, 7)] with st := .halted })) (fun t => (t.out.contains (.debug (.scalar 0 3) 0), (t.ctx 5).debugReads)) =
    some (true, 1) ∧ after (exec (.debugRead (.scalar 0 3)) (tDbg true { tRegs [(3, 7)] with st := .halted })) (fun t => t.out) = some [.debug (.scalar 0 3) 7] := by
  decide +kernel

/-! ## Power -/

/-- A frame with the CRC-32C of its first 28 bytes in its last four (R476). -/
def tFrame (f : Nat) : BitVec 256 :=
  BitVec.ofNat 256 (f + (crc32c 0xFFFFFFFF#32 (bytesOf (BitVec.ofNat 256 f) 28)).toNat * 2 ^ 224)

theorem test_hyps_BudgetExchange :
    (bitsOf (15 : Word) 3 0 = 15 ∧ tLease.holder.isSome = true ∧ tLease.powerHeld 0 = false ∧ tC.holder = none ∧ bitsOf (0 : Word) 3 0 ≠ 15) ∧
    (let g : BitVec 96 := BitVec.ofNat 96 (15 + 2 ^ 64)
     let s := { tC with regions := [(15, { epoch := 2 })] }
     bitsOf g 3 0 = 15 ∧ bitsOf g 63 36 = 0 ∧ bitsOf g 95 64 = 1 ∧ 1 < (s.region 15).epoch ∧ (tC.region 15).epoch ≤ 1 ∧ (tC.region 15).part = none ∧
      tC.boot.complete = tC.boot.complete ∧ (tC.region 0).part.isSome = true) ∧
    (let s := { tC with boot := { tC.boot with complete := true } }; s.boot.complete = true ∧ (s.region 15).part = none) ∧
    (let s := { tC with tb := { now := 30000 }, regions := [(0, { budget := { fallback := true } })] }
     (s.region 0).budget.lastGrant + 30000 ≤ s.now ∧ (s.region 0).budget.fallback = true ∧ (s.region 1).budget.fallback = false ∧
      tC.now < (tC.region 0).budget.lastGrant + 30000) := by decide +kernel

theorem test_hyps_BpmFrames :
    (frameOk 0 1 = false ∧ frameOk 0 2 = false ∧ frameOk 0 4 = false ∧ frameOk 0 8 = false) ∧
    (frameOk (tFrame 1) 1 = true ∧ frameOk (tFrame (2 + 7 * 2 ^ 48)) 2 = true ∧ frameOk (tFrame (4 + 5 * 2 ^ 48)) 4 = true ∧ frameOk (tFrame (8 + 4 * 2 ^ 48)) 8 = true) ∧
    (let f := tFrame (2 + 7 * 2 ^ 48 + 899 * 2 ^ 52)
     bitsOf f 51 48 = 7 ∧ bitsOf f 67 52 = 899 ∧ bitsOf f 223 96 = 0 ∧ bitsOf (tFrame (2 + 12 * 2 ^ 48)) 51 48 = 12 ∧ bitsOf (tFrame (2 + 900 * 2 ^ 52)) 67 52 = 900) ∧
    (let f := tFrame (4 + 5 * 2 ^ 48)
     let s := { tC with bpm := { tC.bpm with cmdOpen := some (5, 1, 255) } }
     bitsOf f 63 56 = 0 ∧ bitsOf f 55 48 = 5 ∧ s.bpm.cmdOpen = some (5, 1, 255) ∧ tC.bpm.cmdOpen = none ∧ bitsOf (tFrame (4 + 6 * 2 ^ 48)) 55 48 ≠ 5) ∧
    (tLease.holder = some .north ∧ tC.holder = none ∧
      ({ tLease with mgt := { tLease.mgt with bpmVote := { tLease.mgt.bpmVote with holder := some .north } } } : State).mgt.bpmVote.holder = some .north) ∧
    (let s := { tC with bpm := { tC.bpm with lostN := false }, tb := { now := 30000 } }
     s.bpm.lostN = false ∧ s.bpm.lastStatusN.getD 0 + 30000 ≤ s.now ∧ tC.now < tC.bpm.lastStatusN.getD 0 + 30000) := by decide +kernel

/-- R476: CRC-32C of the bytes of "123456789" without the last inversion. -/
theorem test_crc32c : crc32c 0xFFFFFFFF#32 [0x31, 0x32, 0x33, 0x34, 0x35, 0x36, 0x37, 0x38, 0x39] = 0xE3069283 := by decide +kernel

/-- The rails are wanted and on. -/
def tRails (b : Bpm) : State := { tC with bpm := { b with railsWanted := true, present := true } }

theorem test_hyps_PowerFaults :
    (let s := tRails {}
     s.bpm.railsWanted = true ∧ s.bpm.recommanded = none ∧ s.bpm.present = true ∧ s.bpm.killed = false ∧ s.bpm.hold = false ∧ (s.region 0).pstate = .run) ∧
    (let s := { tRails { recommanded := some 0 } with tb := { now := ticksPerS } }
     s.bpm.recommanded = some 0 ∧ 0 + ticksPerS ≤ s.now ∧ (tRails { recommanded := some 0 }).now < 0 + ticksPerS) ∧
    ((tRails { killed := true }).bpm.killed = true ∧ ({ tC with bpm := { tC.bpm with railsWanted := false } } : State).bpm.railsWanted = false) ∧
    (let s := { tC with regions := [(15, { pstate := .run }), (14, { pstate := .dark })], parts := [] }
     (s.region 15).pstate ≠ .dark ∧ (s.region 15).part = none ∧ (s.region 14).pstate = .dark ∧ (tC.region 0).part = some 0 ∧ (tC.region 0).pstate ≠ .dark) ∧
    (let s := { tC with regions := [(15, { pstate := .run, phases := BitVec.ofNat 64 3 })] }
     bitOf (s.region 15).phases 63 = false ∧ bitOf (s.region 15).phases 0 = true ∧ phaseDark ((s.region 15).phases ||| BitVec.ofNat 64 (2 ^ 63)) = false ∧
      phaseDark (BitVec.ofNat 64 (2 ^ 12 - 1) ||| BitVec.ofNat 64 (2 ^ 12)) = true) ∧
    (let s := { tC with regions := [(15, { pstate := .hold, causes := [.bpmPg] })] }; (s.region 15).pstate = .hold ∧ (s.region 15).causes = [.bpmPg]) := by
  decide +kernel

/-- Region 0 is in a soft start, region 1 as given. -/
def tSoft (b : SoftStart) (now : Nat := 0) (w : Region := { pstate := .run, step := 7 }) : State :=
  { tC with regions := [(0, { pstate := .dark, soft := some b }), (partnerOf 0, w)], parts := [], tb := { now := now }, bpm := { tC.bpm with ratings := [(0, 360)] } }

theorem test_hyps_RegionPowerStates_SoftStart :
    (let s := { tC with regions := [(0, { pstate := .dark })], parts := [] }
     (s.region 0).pstate = .dark ∧ (s.region 0).part = none ∧ (s.region 0).darkTrips < 2 ∧ (s.region 0).soft = none ∧ s.bpm.killed = false ∧
      (tC.region 0).pstate ≠ .dark) ∧
    (let s := tSoft { started := 0 } (5 * ticksPerMs)
     (s.region 0).soft = some { started := 0 } ∧ s.now ≤ 0 + 5 * ticksPerMs ∧ s.admits 0 0 = true ∧ 0 + 5 * ticksPerMs ≤ s.now ∧
      (s.region (partnerOf 0)).pstate = .run ∧ (s.region (partnerOf 0)).part = none ∧ (s.region (partnerOf 0)).change = none ∧
      (s.region (partnerOf 0)).step ≠ 8 ∧ (tSoft { started := 0 }).now < 0 + 5 * ticksPerMs) ∧
    ((tSoft { started := 0 } 0 { pstate := .run, step := 8 }).region (partnerOf 0)).step = 8 ∧
    (let s := tSoft { started := 0 } (16383 * ticksPerMs); 0 + bitsOf (s.reg 0x700588) 13 0 * ticksPerMs ≤ s.now ∧ s.inEvent 5 = false) ∧
    (let s := tSoft { started := 0, begun := some 7 } 12807
     (s.region 0).soft = some { started := 0, begun := some 7 } ∧ 7 + 12800 ≤ s.now ∧ (tSoft { started := 0, begun := some 7 } 12806).now < 7 + 12800) ∧
    (let s := tSoft { started := 0, begun := some 7, ramped := true }
     ((s.region 0).soft.map SoftStart.ramped) = some true ∧ ((s.region 0).soft.map SoftStart.bootStage) = some 0 ∧ s.inEvent 5 = false ∧
      s.cool.response = .none ∧ s.bpm.hold = false ∧ regionOf 0 = 0 ∧ s.vacant 0 = false ∧ (s.cl 0).st ≠ .failed) := by decide +kernel
theorem test_hyps_RegionPowerStates_SoftStart_refused : ∃ i, (tSoft { started := 0 }).admits 0 i = false := ⟨2 ^ 40, by decide +kernel⟩

/-- Region 15 in a power state. -/
def tPower (p : PState) (v : Region := {}) : State := { tC with regions := [(15, { v with pstate := p })], parts := [] }

theorem test_hyps_RegionPowerStates_PowerStates :
    (0 < ((tPower .run { epoch := 1 }).region 15).epoch ∧ ((tPower .run).region 15).epoch ≤ 0) ∧
    (((tPower .run).region 15).pstate = .run ∧ ((tPower .hold).region 15).pstate = .hold ∧ ((tPower .park).region 15).pstate = .park ∧
      ((tPower .dark).region 15).pstate = .dark ∧ ((tPower .run).region 15).part = none ∧ (tPower .run).parkBlocked 15 = false ∧ tC.bpm.hold = false ∧
      (tC.region 0).part.isSome = true) ∧
    (let s := { tPower .run with pages := [(15 * tC.sliceSize / 4096, { use := .mapped, owner := 5 })] }; s.parkBlocked 15 = true) ∧
    (let s := tPower .quiet { causes := [.command] }
     (s.region 15).pstate = .quiet ∧ (s.region 15).causes = [.command] ∧ s.bpm.hold = false ∧ (s.region 15).part = none) := by decide +kernel

/-- R487: entry to Park clears the clusters' registers. -/
theorem test_park : after (exec (.parkEntry 15 0) (tPower .run)) (fun t => ((t.region 15).pstate, (t.cl (15 * 288)).st)) = some (.park, .off) := by decide +kernel

/-! ## Cooling -/

/-- Region 15 in Run with a hot spot as given. -/
def tHot (v : HotSpot) (w : Region := { pstate := .run }) : State := { tC with regions := [(15, { w with hot := [(0, v)] })], parts := [] }

theorem test_hyps_ThermalControl :
    (hotKey 0 0 = 0 ∧ ((tHot {}).hotSpot 15 0).throttleTick = none ∧
      ((tHot {}).throttleC : Int) * 8 ≤ (takeSample 0 (tHot {}).throttleC 840 840 {}).filtered ∧
      (takeSample 0 (tHot {}).throttleC 400 400 {}).filtered < ((tHot {}).throttleC : Int) * 8 ∧
      880 ≤ (takeSample 0 (tHot {}).throttleC 880 880 { tripCount := 1 }).reading ∧ (takeSample 0 (tHot {}).throttleC 879 879 {}).reading < 880 ∧
      ((tHot { tripCount := 1 }).hotSpot 15 0).tripCount = 1 ∧ ((tHot {}).region 15).pstate = .run) ∧
    (let s := { tC with hbms := [(31, { tripCount := 1 })], regions := [(15, { pstate := .hold })] }
     1 ≤ (s.hbm 31).tripCount ∧ (s.hbm 31).throttleTick = none ∧ (s.region (31 / 2)).pstate = .hold) ∧
    (let s := { tHot { throttleTick := some 0 } with tb := { now := 10 * ticksPerMs } }
     (∃ e ∈ (s.region 15).hot, e.2.throttleTick = some 0 ∧ 0 + 10 * ticksPerMs ≤ s.now) ∧ (s.region 15).capTick + 10 * ticksPerMs ≤ s.now) ∧
    (let s := { tC with hbms := [(31, { throttleTick := some 0 })], tb := { now := 10 * ticksPerMs } }
     (s.hbm 31).throttleTick = some 0 ∧ 31 / 2 = 15 ∧ 0 + 10 * ticksPerMs ≤ s.now) ∧
    (let s := { tC with regions := [(15, { pstate := .run, coolTick := some 0, thermalCap := 1 })], tb := { now := 100 * ticksPerMs } }
     (s.region 15).coolTick = some 0 ∧ 0 < (s.region 15).thermalCap ∧ 0 + 100 * ticksPerMs ≤ s.now ∧ s.coolAt 15 ((s.region 15).thermalCap - 1) = true ∧
      (tC.region 15).coolTick = none) ∧
    (let s := { tHot { reading := 719, history := [(1, 719)] } { pstate := .quiet, causes := [.hardTrip] } with tb := { now := 100 * ticksPerMs } }
     let v := s.region 15
     v.pstate = .quiet ∧ v.causes = [.hardTrip] ∧ v.quietTick + 100 * ticksPerMs ≤ s.now ∧ s.bpm.hold = false ∧ v.part = none ∧
      ∀ e ∈ v.hot, e.2.reading < 720 ∧ ∀ h ∈ e.2.history, h.2 < 720) ∧
    (let s := { tHot { reading := 880 } { pstate := .quiet, causes := [.coolant] } with tb := { now := 10 * ticksPerMs } }
     (∃ e ∈ (s.region 15).hot, 880 ≤ e.2.reading) ∧ (s.region 15).pstate = .quiet ∧ .coolant ∈ (s.region 15).causes ∧
      (s.region 15).quietTick + 10 * ticksPerMs ≤ s.now) := by decide +kernel

def tCool (c : Coolant) (now : Nat := 0) (rs : Tbl Region := []) : State := { tLease with cool := c, tb := { now := now }, regions := rs, parts := [] }
def tMani (f0 f1 : Option Nat) (inlet outlet : Option Nat) : Manifold := { flow0 := f0, flow1 := f1, dp0 := none, dp1 := none, inlet := inlet, outlet := outlet }

theorem test_hyps_CoolantSupervision :
    (tLease.holder.isSome = true ∧ tC.holder = none ∧ (tCool {}).cool.response = .none ∧ (lowerOf (some 239) (some 800) 800).getD 0 < 240 ∧
      240 ≤ (lowerOf (some 240) (some 800) 800).getD 0 ∧ (lowerOf (some 319) none 800).getD 0 < 320 ∧ (tMani none none none (some 440)).outlet = some 440 ∧
      256 < (tMani none none (some 257) none).inlet.getD 320 ∧ (tCool { response := .hold }).cool.response ≠ .cap) ∧
    (let s := tCool { outletHot := some 0 } (100 * ticksPerMs)
     s.cool.outletHot = some 0 ∧ 0 + 100 * ticksPerMs ≤ s.now ∧ s.cool.outletSteps = 0 ∧ (tCool {}).cool.outletHot = none) ∧
    (let s := tCool { response := .hold, goodSince := some 0 } ticksPerS [(3, { pstate := .hold, causes := [.coolant] })]
     s.cool.response = .hold ∧ s.cool.goodSince = some 0 ∧ 0 + ticksPerS ≤ s.now ∧ (s.region 3).pstate = .hold ∧ (s.region 3).causes = [.coolant]) := by decide +kernel
theorem test_hyps_CoolantSupervision_quiet :
    (comparatorActs (tMani (some 99) none none none) = true ∧ comparatorActs (tMani (some 100) none none none) = false ∧ (tCool {}).cool.response ≠ .quiet ∧
      (∀ p, p < 16 → ((tCool {}).part p).running = none)) ∧
    (let s := tCool { response := .quiet, goodSince := some 0 } (5 * ticksPerS)
     s.cool.response = .quiet ∧ s.cool.goodSince = some 0 ∧ 0 + 5 * ticksPerS ≤ s.now ∧ s.cool.exitTick + 10000 ≤ s.now ∧
      ∀ r, r < 16 → (s.region r).pstate = .quiet → .coolant ∉ (s.region r).causes) ∧
    (let s := tCool { response := .quiet, goodSince := some 0 } (5 * ticksPerS) [(3, { pstate := .quiet, causes := [.coolant] })]
     (s.region 3).pstate = .quiet ∧ (s.region 3).causes = [.coolant] ∧ (∀ q, q < 3 → (s.region q).pstate = .quiet → .coolant ∉ (s.region q).causes) ∧
      s.bpm.hold = false ∧ (s.region 3).part = none) := by decide +kernel

/-! ## The lease and management -/

/-- A vote frame: a request or an answer of a sender, with further fields. -/
def tVoteF (ty sender op : Nat) (rest : Nat := 0) : BitVec 256 := tFrame (ty + 16 * sender + op * 2 ^ 48 + rest)

/-- North votes with a record as given. -/
def tVoter (r : VoterRec) (now : Nat := 0) : State := { tC with mgt := { tC.mgt with north := { role := .inStep, vote := r } }, tb := { now := now } }

theorem test_hyps_LeaseVotes :
    (voteReqOk (tVoteF 6 2 1 (5 * 2 ^ 16)) = true ∧ frameFrom (tVoteF 6 2 1) = some .south ∧ (tVoter {}).votes .north = true ∧ voteReqOk 0 = false ∧
      tC.votes .north = false ∧ tC.votes .bpm = true) ∧
    (let s := tVoter { epoch := 4, holder := some .north, termEnd := 1 }
     let f := tVoteF 6 2 1 (5 * 2 ^ 16)
     (s.voterRec .north).holder.isSome = true ∧ s.now < (s.voterRec .north).termEnd ∧ (s.voterRec .north).holder ≠ some .south ∧ bitOf f 56 = false ∧
      bitsOf f 55 48 = 1 ∧ bitsOf f 47 16 = 5) ∧
    (let s := tVoter { epoch := 4, holder := some .north, termEnd := 600001 } 600000
     let f := tVoteF 6 2 1 (5 * 2 ^ 16 + 2 ^ 56)
     voteReqOk f = true ∧ bitOf f 56 = true ∧ bitsOf f 47 16 = (s.voterRec .north).epoch + 1 ∧ (s.voterRec .north).lastRenew + 600000 ≤ s.now) ∧
    (let s := tVoter { epoch := 5, holder := some .south, termEnd := 1 }
     voteReqOk (tVoteF 6 2 2 (5 * 2 ^ 16)) = true ∧ voteReqOk (tVoteF 6 2 3 (5 * 2 ^ 16)) = true ∧ (s.voterRec .north).holder = some .south ∧
      bitsOf (tVoteF 6 2 2 (5 * 2 ^ 16)) 47 16 = (s.voterRec .north).epoch ∧ bitsOf (tVoteF 6 2 3) 55 48 = 3 ∧ bitsOf (tVoteF 6 2 2) 55 48 = 2) ∧
    (let s := tVoter { epoch := 5, holder := some .south, termEnd := 1 } 1
     ¬ s.now < (s.voterRec .north).termEnd ∧ bitsOf (tVoteF 6 2 1 (5 * 2 ^ 16)) 47 16 ≤ (s.voterRec .north).epoch) := by decide +kernel

/-- R515: a free voter grants epoch 5 to South for 10 ms. -/
theorem test_acquire : after (exec (.acquire .bpm (tVoteF 6 2 1 (5 * 2 ^ 16))) tC) (fun t => (t.mgt.bpmVote, t.out)) =
    some ({ epoch := 5, holder := some .south, termEnd := 1000000, lastRenew := 0 }, [.vote .bpm .south 0 5 (some .south) 0 10000]) := by decide +kernel

/-- North and South as given. -/
def tDies (n s : Pewter) (m : Mgt := {}) (now : Nat := 0) : State := { tC with mgt := { m with north := n, south := s }, tb := { now := now } }

theorem test_hyps_LeaseLife :
    (let s := tDies { role := .inStep, seen := 7 } {} {} 600000
     s.inStepDie = some .north ∧ (s.pew .north).candidate = none ∧ (s.pew .north).noSeekUntil ≤ s.now ∧ s.mgt.heardTick + 600000 ≤ s.now ∧
      (s.pew .north).vote.epoch ≤ (s.pew .north).seen ∧ (s.pew .north).seen < 0xFFFFFFFF ∧ (s.pew .north).vote.live s.now = false ∧ tC.inStepDie = none) ∧
    (let s := { tDies {} { role := .syncing, booted := true, fuseOk := true } {} 2000000 with boot := { tC.boot with event := 3 } }
     s.mgt.south.booted = true ∧ s.mgt.south.fuseOk = true ∧ s.mgt.south.role ≠ .absent ∧ s.mgt.south.role ≠ .holder ∧ s.holder = none ∧ s.boot.event = 3 ∧
      s.mgt.south.candidate = none ∧ s.mgt.south.noSeekUntil ≤ s.now ∧ s.mgt.heardTick + 2000000 ≤ s.now ∧ s.mgt.south.vote.epoch ≤ s.mgt.south.seen ∧
      s.mgt.south.seen < 0xFFFFFFFF ∧ s.mgt.south.vote.live s.now = false) ∧
    (let s := tDies { role := .inStep, candidate := some 5, granted := [.north] } { role := .inStep }
     voteOk (tVoteF 7 0 0 (5 * 2 ^ 16)) .bpm = true ∧ voteOk (tVoteF 7 2 1 (5 * 2 ^ 16)) .south = true ∧ voteOk (tVoteF 7 2 2 (5 * 2 ^ 16)) .south = true ∧
      voteOk 0 .bpm = false ∧ (s.pew .north).role ≠ .absent ∧ (s.pew .north).candidate = some 5 ∧ (s.pew .north).granted = [.north] ∧
      (s.pew .north).role ≠ .holder ∧ (s.pew .south).role ≠ .holder ∧ (s.pew .north).retried = false ∧ (s.pew .north).vote.live s.now = false ∧
      (s.pew .north).vote.epoch ≤ 5 ∧ bitsOf (tVoteF 7 0 0 (5 * 2 ^ 16)) 47 16 = 5) := by decide +kernel
theorem test_hyps_LeaseLife_holder :
    (let s := tDies { role := .holder } { role := .inStep } { epoch := 5 } 400000
     s.holder = some .north ∧ (s.pew .north).candidate = none ∧ (s.pew .north).role = .holder ∧ s.mgt.epoch = 5 ∧ s.mgt.lastRenewal + 200000 ≤ s.now ∧
      s.votesHeld .north < 2 ∧ (s.pew .south).role ≠ .holder ∧ (s.pew .south).role = .inStep ∧ s.standby = some .south) ∧
    (let s := tDies { role := .holder, vote := { epoch := 5, holder := some .north, termEnd := 9 }, lastAckEach := [(2, 1)] } { role := .syncing } { epoch := 5 }
     2 ≤ s.votesHeld .north ∧ (s.pew .north).vote.live s.now = true ∧ (s.pew .north).vote.holder = some .north ∧ (s.pew .north).vote.epoch = s.mgt.epoch ∧
      s.now < s.mgt.lastRenewal + 200000 ∧ (s.pew .south).role ≠ .inStep ∧ (s.pew .south).role = .syncing) ∧
    (let s := tDies { role := .inStep } { handover := true, vote := { epoch := 5, holder := some .north, termEnd := 9 }, seen := 5 } { epoch := 5 }
     (s.pew .south).handover = true ∧ (s.pew .north).handover = false ∧ (s.pew .south).vote.live s.now = true ∧ (s.pew .south).vote.holder = some (otherDie .south) ∧
      (s.pew .south).vote.epoch = s.mgt.epoch ∧ s.mgt.epoch ≤ (s.pew .south).seen ∧ (s.pew .south).seen < 0xFFFFFFFF ∧ tC.mgt.north.handover = false) ∧
    (let s := tDies { role := .holder } { role := .inStep } { changeSeq := 2, ackedSeq := 1 } 10000
     s.standby = some .south ∧ 2 = s.mgt.ackedSeq + 1 ∧ 2 ≤ s.mgt.changeSeq ∧ s.mgt.ackedSeq < s.mgt.changeSeq ∧ s.mgt.changeTick + 10000 ≤ s.now) := by
  decide +kernel

theorem test_hyps_ManagementRequests :
    (let s := { tLease with mgt := { tLease.mgt with port1 := true } }
     s.portUp 0 = true ∧ s.portUp 1 = true ∧ tC.portUp 0 = false ∧ s.failover = s.failover) ∧
    (tLease.holder.isSome = true ∧ tLease.mgt.port0 = true ∧ mayRedfish .readOnly .accountChange = false ∧ mayRedfish .administrator .accountChange = true ∧
      tC.holder = none ∧ tLease.locked 3 = false) ∧
    ((tLease.mgt.logins.filter (fun (e : Nat × Nat) => e.1 == 3 && decide (tLease.now < e.2 + 6000000000))).length < 4 ∧
      (let s := { tLease with mgt := { tLease.mgt with logins := List.replicate 4 (3, 0) } }
       4 ≤ (s.mgt.logins.filter (fun (e : Nat × Nat) => e.1 == 3 && decide (s.now < e.2 + 6000000000))).length ∧ s.locked 3 = false)) ∧
    (let s := { tLease with parts := [], regions := [], ctxs := [] }
     (s.part 15).formed = false ∧ [15, 0].Nodup ∧ (∀ r ∈ [15, 0], r < 16 ∧ (s.region r).inService = true ∧ (s.region r).part = none) ∧
      s.formable 15 [16] = false) ∧
    (let s := { tLease with ctxs := [] }
     (s.part 0).formed = true ∧ s.ctxsOf 0 = [] ∧ (∀ r ∈ (s.part 0).regions, r < 16) ∧ tLease.ctxsOf 0 ≠ []) ∧
    (let s := { tLease with ctxs := [], links := [(15, { part := some 0 })] }
     (s.link 15).part = some 0 ∧ (tLease.part 0).formed = true) ∧
    (tLease.boot.ls18 = true ∧ 15 % 8 > 6 ∧ 14 % 8 ≤ 6) := by decide +kernel

/-- A firmware image. -/
def tFw : FirmwareImage := { readOk := true, mfw := 1, svn := 2, romKey := 0, signature := 0, cosigKeyHash := 0, cosignature := 0, writeOk := true }

/-- Whether a signature is right is free: where it is, the image passes. -/
theorem test_hyps_FirmwareAndRecovery_pass (h : Config.verifyFirmware false (Config.romKeyHash tFw.romKey) tFw.mfw tFw.signature = true) :
    tC.firmwareFail tFw = none := by
  unfold State.firmwareFail
  rw [h, if_neg (by decide), if_neg (by decide), if_neg (by decide)]
theorem test_hyps_FirmwareAndRecovery :
    (tC.firmwareFail { tFw with romKey := 4 } = some 2) ∧
    (let s := tDies { recovery := true } { recovery := true }
     s.mgt.north.recovery = true ∧ s.mgt.south.recovery = true ∧ s.boot.ls18 = true ∧ s.mailboxOpen = true ∧ tC.mailboxOpen = false ∧ tC.flashImage = none) ∧
    (let s := tDies { recovery := true } {} {} 1000000000
     (s.pew .north).recovery = true ∧ (s.pew .north).retryTick + 1000000000 ≤ s.now ∧ s.flashImage = none ∧ s.holder ≠ some .north) ∧
    (let s := tDies { recovery := true } {} { mailbox := { state := 1, len := 1 } }
     s.mailboxOpen = true ∧ s.mgt.mailbox.state = 1 ∧ s.mgt.mailbox.offset < s.mgt.mailbox.len ∧
      (let u := tDies { recovery := true } {} { mailbox := { state := 1, len := 1, offset := 1 } }
       u.mgt.mailbox.len ≤ u.mgt.mailbox.offset ∧ u.firmwareFail { tFw with romKey := 4 } = some 2)) := by decide +kernel

/-! ## Resets and bring-up -/

/-- Bring-up stands at an event. -/
def tEvent (n : Nat) (m : Mgt := {}) (b : Bpm := {}) (rs : Tbl Region := []) : State :=
  { tC with boot := { tC.boot with event := n, panelMap := standardMap }, mgt := m, bpm := { b with present := true }, regions := rs, parts := [], clusters := [] }

theorem test_hyps_Resets :
    (tC.boot.ls18 = true ∧ ({ tC with boot := { tC.boot with ls18 := false } } : State).boot.ls18 = false ∧ tLease.holder.isSome = true ∧ tC.holder = none ∧
      tC.boot.coldHeld = false ∧ tC.boot.vaon = true ∧ ({ tC with boot := { tC.boot with coldHeld := true } } : State).boot.coldHeld = true) ∧
    ((tC.port 7).perst = true ∧ (let s := { tC with ports := [(7, { perst := false, released := true, splitNow := true })] }
      (s.port 7).perst = false ∧ (s.port (15 / 2)).released = true ∧ (s.port (15 / 2)).perst = false ∧ (s.port (15 / 2)).absent = false ∧
        (s.port (15 / 2)).splitNow = true)) ∧
    (tC.port 0).released = false := by decide +kernel

/-- R540: a pulse of 100 µs is a cold reset, of one less only a glitch. -/
theorem test_cold : after (exec (.pnlPorN 10000) tC) (fun t => (t.clusters.length, t.boot.coldHeld)) = some (0, true) ∧
    after (exec (.pnlPorN 9999) tC) (fun t => (t.clusters.length, t.boot.glitch)) = some (1, true) := by decide +kernel

/-- A die's fuse word, in the order of Table 15.1: serial, region, site, role, die number, enabled positions, CRC. -/
def tFuse (region site role n enabled : Nat) : BitVec 128 :=
  let f := region * 2 ^ 48 + site * 2 ^ 56 + role * 2 ^ 64 + n * 2 ^ 68 + enabled * 2 ^ 76
  BitVec.ofNat 128 (f + (crc16 (bytesOf (BitVec.ofNat 128 f) 14)).toNat * 2 ^ 112)

theorem test_hyps_BringUpAuthority :
    ((tEvent 0).inEvent 0 = true ∧ (tEvent 1).inEvent 1 = true ∧ (tEvent 0).bpm.present = true ∧ (tEvent 0).mgt.north.recovery = false ∧
      (tEvent 0).mgt.south.recovery = false ∧ (tEvent 0).tb.running = false ∧ (tEvent 2).inEvent 0 = false ∧ (tEvent 2).inEvent 1 = false ∧
      ({ tEvent 0 with bpm := { tC.bpm with present := false } } : State).bpm.present = false ∧ ({ tEvent 0 with tb := { running := true } } : State).tb.running = true) ∧
    ((tEvent 2).inEvent 2 = true ∧ (tEvent 2).holder = none ∧ (tEvent 2).firmwareFail { tFw with romKey := 4 } ≠ none) ∧
    (let s := tEvent 3 { north := { role := .holder } }
     (List.replicate 25 (0, 76)).length = 25 ∧ 10 * 76 ≤ 768 ∧ (s.region 0).inService = true ∧ s.holder.isSome = true ∧ s.inEvent 3 = true ∧
      ({ s with boot := { s.boot with tries := 1 } } : State).boot.tries ≠ 0) ∧
    (let s := tEvent 3 { north := { role := .syncing, booted := true } }
     s.boot.tries = 0 ∧ s.holder = none ∧ s.mgt.north.booted = true ∧ s.mgt.north.role ≠ .absent ∧ s.mgt.north.vote = {} ∧ s.mgt.north.seen = 0 ∧ s.mgt.bpmVote = {} ∧
      s.fuseFault 16 12 (tFuse 16 12 (s.expectedRole 16 12) 1 0) false = none ∧ s.fuseFault 16 12 0 false ≠ none ∧ s.fuseFault 16 13 0 true ≠ none) := by decide +kernel
theorem test_hyps_BringUpAuthority_dies :
    (let s := tEvent 4 { north := { role := .holder } }
     s.inEvent 4 = true ∧ s.holder.isSome = true ∧ s.bpm.railsWanted = false ∧ s.bpm.present = true ∧ s.bpm.killed = false ∧ s.bpm.pg = false) ∧
    (let s := tEvent 4 { north := { role := .holder } } { railsWanted := true, pg := true }
     s.bpm.railsWanted = true ∧ s.bpm.pg = true ∧ s.fuseFault 16 14 (tFuse 16 14 (s.expectedRole 16 14) 127 0) false = none ∧ (16, 14) ∉ s.boot.diesOff ∧
      s.fuseFault 15 18 (tFuse 15 18 (s.expectedRole 15 18) 1 0xFFFF) false = none ∧ s.fuseFault 15 18 (tFuse 15 18 (s.expectedRole 15 18) 1 0x7FFF) false ≠ none) ∧
    (let s := { tEvent 4 { north := { role := .holder } } { railsWanted := true } with tb := { now := 10000000 }, boot := { tC.boot with event := 4, railTick := some 0 } }
     s.boot.railTick = some 0 ∧ s.inEvent 4 = true ∧ s.bpm.pg = false ∧ 0 + 10000000 ≤ s.now ∧ s.bpm.recommanded = none ∧ tC.boot.railTick = none ∧
      ({ s with bpm := { s.bpm with recommanded := some 0 } } : State).bpm.recommanded.isSome = true) := by decide +kernel

theorem test_hyps_BringUpRegions :
    (let s := { tEvent 5 { north := { role := .holder } } with tb := { now := 750000 } }
     s.inEvent 5 = true ∧ s.holder.isSome = true ∧ (s.region 15).inService = true ∧ (s.region 15).soft = none ∧ s.bpm.killed = false ∧
      s.boot.eventTick + 50000 * 15 ≤ s.now ∧ (tEvent 5).now < (tEvent 5).boot.eventTick + 50000 * 15) ∧
    (let s := tEvent 5 { north := { role := .holder } } {} [(15, { soft := some { started := 0, ramped := true } })]
     ((s.region 15).soft.map SoftStart.ramped) = some true ∧ ((s.region 15).soft.map SoftStart.bootStage) = some 0) ∧
    (let s := tEvent 6 {} {} [(15, { soft := some { started := 0, ramped := true, bootStage := 1 } })]
     s.inEvent 6 = true ∧ (s.region 15).inService = true ∧ (s.region 15).soft = some { started := 0, ramped := true, bootStage := 1 } ∧ (18 : Nat) ∉ (s.region 15).sitesFailed ∧
      2 ≤ failuresOf (onTarget [{ site := 18, tester := 16, target := 17, result := .tarnFail }, { site := 18, tester := 14, target := 17, result := .tarnFail }] 17) TestResult.isFail ∧
      inRegions [15] 4607 = true) ∧
    (let s := tEvent 7 {} {} [(15, { soft := some { started := 0, ramped := true, bootStage := 2 } })]
     s.inEvent 7 = true ∧ (s.region 15).soft = some { started := 0, ramped := true, bootStage := 2 } ∧ entryState (s.factoryEntry 15 287) = 0 ∧
      positionOk (s.region 15) (entrySite (s.factoryEntry 15 287)) (entryPos (s.factoryEntry 15 287)) = true) ∧
    ((tEvent 8).inEvent 8 = true ∧ ((tEvent 8).region 0).inService = true ∧ (tEvent 9).inEvent 9 = true ∧ ((tEvent 9).hbm 0).failed = false ∧
      (tEvent 10).inEvent 10 = true ∧ linkExists 0 0 = true ∧ (tEvent 11).inEvent 11 = true ∧ (tEvent 11).cxlAbsent 7 = false ∧ (tEvent 12).inEvent 12 = true ∧
      (tEvent 11).inEvent 12 = false) := by decide +kernel
theorem test_hyps_BringUpRegions_crossings : (tEvent 8).crossingLive 0 = true ∧ 24 ≤ (List.replicate 24 10).length ∧ ∃ n, n < 115 ∧ linkExists 0 n = true ∧ linkClass n = .loch := by
  decide +kernel

/-! ## Setup registers -/


theorem test_hyps_SetupRegisters :
    (tLease.reaches (.operator tLease.mgt.epoch 0) .panelLimit = true ∧ setupReg 0x700580 = some .panelLimit ∧ ownCommand .panelLimit = false ∧
      (2600 : Word) &&& reservedMask .panelLimit = 0 ∧ (2 ^ 63 : Word) &&& reservedMask .panelLimit ≠ 0 ∧ tLease.regOk 0 .panelLimit 2600 = true ∧
      tLease.regOk 0 .panelLimit 0 = false ∧ tLease.reaches (.operator 1 0) .panelLimit = false ∧ setupReg 0xFFFF8 = none ∧ crossesHalf .panelLimit = false) ∧
    (setupReg 0x8 = some .cmapIndex ∧ isSelector .cmapIndex = true ∧ tLease.selectorOk (.operator 0 0) .cmapIndex (287 * 16) = true ∧
      tLease.selectorOk (.operator 0 0) .cmapIndex (288 * 16) = false ∧ (287 * 16 : Word) &&& reservedMask .cmapIndex = 0) ∧
    (setupReg 0x100028 = some (.prt 0 5) ∧ (tC.part 0).formed = true ∧ (tC.part 0).resetting = false ∧ (1000 : Word) &&& reservedMask (.prt 0 5) = 0 ∧
      (tC.part 1).formed = false ∧ keptByReset (.prt 0 5) = false ∧ keptByReset (.prt 0 7) = true ∧
      ({ tC with parts := [(0, { formed := true, resetting := true })] } : State).part 0 = { formed := true, resetting := true }) ∧
    (tLease.reaches (.function 0 false) (.page 0 1) = true ∧ lockedReg (.page 0 1) = true ∧ ({ tLease with fns := [(0, { tdi := .locked })] } : State).lockedTdi 0 = true ∧
      crossesHalf (.page 0 1) = true ∧ tLease.lockedTdi 0 = false) := by decide +kernel

/-- R558: the panel limit is stored whole. -/
theorem test_setup_write : after (exec (.setupRegisterWrite (.operator 0 0) 0x700580 8 2000) tLease) (fun t => t.reg 0x700580) = some 2000 := by decide +kernel

theorem test_hyps_PartitionResetAndErrorQueues :
    ((tC.part 0).formed = true ∧ tC.prtAgent (.operator 0 0) 0 = true ∧ (tC.part 0).resetting = false ∧ (tC.part 15).formed = false) ∧
    (let s := { tC with parts := [(0, { formed := true, regions := [0], resetting := true })], ctxs := [] }
     (s.part 0).resetting = true ∧ s.ctxsOf 0 = [] ∧ (s.part 0).lateWrites = [] ∧ tC.ctxsOf 0 ≠ []) ∧
    (tC.errqAgent (.operator 0 0) 0 16 = true ∧ bitOf (BitVec.ofNat 64 (2 ^ 11 + 5 * 2 ^ 8 + 16)) 11 = true ∧ bitsOf (BitVec.ofNat 64 (2 ^ 11 + 5 * 2 ^ 8 + 16)) 10 8 = 5 ∧
      bitsOf (BitVec.ofNat 64 (2 ^ 11 + 4)) 4 0 = 4 ∧ tC.inSlices 0 4096 (32 * 2 ^ 16) = true ∧ tC.inSlices 0 (2 ^ 51) (32 * 2 ^ 16) = false ∧ (tC.errq 0 16).enable = false) ∧
    (let s := { tC with parts := [(0, { formed := true, regions := [0], errqs := [(16, { log2 := 4, unreported := 1, enable := true })] })] }
     0 < (s.errq 0 16).unreported ∧ ((s.errq 0 16).tail + 1) % 2 ^ (s.errq 0 16).log2 ≠ (5 : BitVec 16).toNat ∧ (5 : BitVec 16).toNat < 2 ^ (s.errq 0 16).log2 ∧
      2 ^ (s.errq 0 16).log2 ≤ (16 : BitVec 16).toNat) := by decide +kernel

/-! ## Guards, hard-wired registers, the queue, reset -/

theorem test_hyps_GuardsAndIllegalEncodings :
    Ready (tS (tRegs [(2, 3)])) { tI (rOps 1 2 2 0 0 0 0) with pg := 0, pn := false } ∧ (tI (rOps 1 2 2 0 0 0 0)).u ≠ .engine ∧
    (let i := { tI (rOps 1 2 2 0 0 0 0) with pg := 3 }
     guardHolds ((tS (tRegs [(2, 3)])).regsOf i.c) i.pg i.pn = false ∧ (formAlu i .scalar 1).legal i = true ∧ formR.legal i = false) ∧
    (let i := { tI 0 with pg := 3 }; formR.legal i = true) ∧
    (let i := { tI (lOps 0 2 5) with pg := 3 }; formLoop.legal i = true ∧ 0 ≤ sImm32 i) := by
  unfold Ready
  decide +kernel

theorem test_hyps_HardWiredRegisters :
    Ready (tS (tRegs [(2, 3)])) (tI (rOps 0 2 2 0 0 0 0)) ∧ fA (tI (rOps 0 2 2 0 0 0 0)) = 0 ∧ (formAlu (tI (rOps 0 2 2 0 0 0 0)) .scalar 1).legal (tI (rOps 0 2 2 0 0 0 0)) = true ∧
    formLix.legal { tI 0 with ext := 1 } = true ∧ formPlog.legal (tI (rOps 0 1 2 0 0 0 0)) = true := by
  unfold Ready
  decide +kernel

theorem test_hyps_HandlesSpansAndStacks :
    (hBacking plain4 = 0 ∧ hWrap plain4 = false ∧ (3 : Word).toNat < hCount plain4 ∧ hWrap (tH 0 4 true false 0 63 5 0) = true ∧ hBacking (tH 0 4 true false 0 63 5 0) = 0) ∧
    ((tC.region 15).linear = none ∧ (tC.part 0).interleave = false ∧ tC.sliceSize - 1 < tC.sliceSize) := by decide +kernel
/-- R91 and R96: row 5 of a ring of four rows at row 8; the member and row behind row 7 of a span of two members striped by 2. -/
theorem test_rows : handleRow (tH 8 4 true false 0 63 5 0) 5 = 9 ∧
    (let sp : Span := { members := [{ cluster := 0, handle := 0 }, { cluster := 1, handle := 0 }], stripe := 2 }; (spanMemberOf sp 7, spanRowOf sp 7) = (1, 3)) := by decide +kernel

/-- Reset is canonical, and so is a state with a byte, a row and a poisoned sector. -/
theorem test_reset_canonical : State.reset.Canonical := ⟨by decide +kernel, by decide +kernel, by decide +kernel⟩
theorem test_canonical : ({ tC with mem := [(1, 2), (5, 6)], tarn := [(3, { data := 1 })], poison := [(7, true)] } : State).Canonical := ⟨by decide +kernel, by decide +kernel, by decide +kernel⟩
theorem test_canonical_not : ¬ ({ tC with mem := [(1, 0)] } : State).Canonical := by
  rintro ⟨h, _⟩
  exact absurd h (by decide +kernel)

theorem test_hyps_StepTakesFront : tC.pending = [] := by decide
theorem test_hyps_StepKeepsCanonical : ({ tS with pending := [.nop (tI 0)] } : State).Canonical ∧ ∃ t : State, step { tS with pending := [.nop (tI 0)] } = .next t :=
  ⟨⟨by decide +kernel, by decide +kernel, by decide +kernel⟩, _, rfl⟩
/-- A step takes the front command alone; with none waiting a tick passes. -/
theorem test_step : after (step { tS with pending := [.nop (tI 0), .coldReset] }) (fun t => (t.pending.length, (t.cl 0).regs.pc)) = some (1, 8) := by decide +kernel
theorem test_idle : after (step { tS with tb := { running := true } }) (fun t => t.now) = some 1 := by decide +kernel

/-! ## Well-formed commands: an ill-formed one for each kind of check -/

theorem test_wf_instruction : (Instr.add { tI 0 with c := 4607 }).wellFormed = true ∧ (Instr.add { tI 0 with c := 4608 }).wellFormed = false := by decide
theorem test_wf_cluster : (Instr.waittPoll 4607).wellFormed = true ∧ (Instr.waittPoll 4608).wellFormed = false := by decide
theorem test_wf_handle : (Instr.transitEnd 0 63).wellFormed = true ∧ (Instr.transitEnd 0 64).wellFormed = false := by decide
theorem test_wf_tag : (Instr.fabricOpTimeout 0 127).wellFormed = true ∧ (Instr.fabricOpTimeout 0 128).wellFormed = false := by decide
theorem test_wf_link : (Instr.linkRetrain 15 114).wellFormed = true ∧ (Instr.linkRetrain 15 115).wellFormed = false ∧ (Instr.linkRetrain 16 0).wellFormed = false := by decide
theorem test_wf_route : (Instr.routeEntryWrite 0 15 0 0).wellFormed = true ∧ (Instr.routeEntryWrite 0 16 0 0).wellFormed = false := by decide
theorem test_wf_die : (Instr.configurationRequest 11).wellFormed = true ∧ (Instr.configurationRequest 12).wellFormed = false := by decide
theorem test_wf_domain : (Instr.beaconMiss 24).wellFormed = true ∧ (Instr.beaconMiss 25).wellFormed = false ∧ (Instr.tickLoss (some 25)).wellFormed = false := by decide
theorem test_wf_crossing : (Instr.crossingCalibrationEnd 219).wellFormed = true ∧ (Instr.crossingCalibrationEnd 220).wellFormed = false := by decide
theorem test_wf_queue : (Instr.fence 2047 0).wellFormed = true ∧ (Instr.fence 2048 0).wellFormed = false := by decide
theorem test_wf_partition : (Instr.stepRelease 15).wellFormed = true ∧ (Instr.stepRelease 16).wellFormed = false := by decide
theorem test_wf_regions : (Instr.partitionForm 0 [15]).wellFormed = true ∧ (Instr.partitionForm 0 [16]).wellFormed = false := by decide
theorem test_wf_bind : (Instr.hostLinkBind 15 (some 15)).wellFormed = true ∧ (Instr.hostLinkBind 16 none).wellFormed = false ∧
    (Instr.hostLinkBind 0 (some 16)).wellFormed = false := by decide
theorem test_wf_stack : (Instr.refresh 31).wellFormed = true ∧ (Instr.refresh 32).wellFormed = false := by decide
theorem test_wf_port : (Instr.cxlMemTimeout 7).wellFormed = true ∧ (Instr.cxlMemTimeout 8).wellFormed = false := by decide
theorem test_wf_window : (Instr.windowDelete 31).wellFormed = true ∧ (Instr.windowDelete 32).wellFormed = false := by decide
theorem test_wf_core : (Instr.tarnAccessCancel 383).wellFormed = true ∧ (Instr.tarnAccessCancel 384).wellFormed = false := by decide
theorem test_wf_function : (Instr.contextCreate 1023 0).wellFormed = true ∧ (Instr.contextCreate 1024 0).wellFormed = false := by decide
theorem test_wf_context : (Instr.killCryptoErase 1023).wellFormed = true ∧ (Instr.killCryptoErase 1024).wellFormed = false := by decide
theorem test_wf_bpm_port : (Instr.alert 1 0).wellFormed = true ∧ (Instr.alert 2 0).wellFormed = false := by decide
theorem test_wf_pewter : (Instr.bootRetry 1 .ok).wellFormed = true ∧ (Instr.bootRetry 2 .ok).wellFormed = false := by decide
theorem test_wf_errq : (Instr.prtErrqHead (.operator 0 0) 0 16 0).wellFormed = true ∧ (Instr.prtErrqHead (.operator 0 0) 0 17 0).wellFormed = false := by decide
theorem test_wf_agent : (Instr.prtReset (.core 383) 0).wellFormed = true ∧ (Instr.prtReset (.core 384) 0).wellFormed = false ∧
    (Instr.prtReset (.function 1024 false) 0).wellFormed = false := by decide
theorem test_wf_path : (Instr.getVersion (.doe 1024)).wellFormed = false ∧ (Instr.getVersion (.mctpPcie 16)).wellFormed = false ∧
    (Instr.getVersion .tcp).wellFormed = true := by decide
theorem test_wf_waiter : (Instr.tagWaitTimeout (.remote 0 15)).wellFormed = true ∧ (Instr.tagWaitTimeout (.remote 0 16)).wellFormed = false := by decide
theorem test_wf_debug : (Instr.debugRead (.scalar 0 31)).wellFormed = true ∧ (Instr.debugRead (.scalar 0 32)).wellFormed = false ∧
    (Instr.debugRead (.rowMask 0 8)).wellFormed = false ∧ (Instr.debugRead (.weightBank 0 2)).wellFormed = false ∧
    (Instr.debugRead (.tarnRow 0 16384)).wellFormed = false ∧ (Instr.debugHalt (.core 384)).wellFormed = false := by decide
theorem test_wf_redfish : (Instr.redfishRequest .operator (.condemnStack 31)).wellFormed = true ∧ (Instr.redfishRequest .operator (.condemnStack 32)).wellFormed = false ∧
    (Instr.redfishRequest .operator (.retirePc 0 32)).wellFormed = false := by decide
theorem test_wf_report : (Instr.bootDieCheck [{ region := 16, site := 0, fuse := 0 }]).wellFormed = true ∧
    (Instr.bootDieCheck [{ region := 17, site := 0, fuse := 0 }]).wellFormed = false := by decide

end Sys2Proof.Machine
end

namespace Sys2Proof.Machine

open Sys2Proof

/-! ## Reports change nothing but the log, the error queues and what is sent (R525, R526, R550, R551) -/

theorem OnlyReports.refl (s : State) : OnlyReports s s := ⟨rfl, fun _ => rfl, fun _ => rfl, rfl⟩

theorem OnlyReports.trans {s t u : State} (hst : OnlyReports s t) (htu : OnlyReports t u) : OnlyReports s u := by
  obtain ⟨hst, hpart, hcore, hmgt⟩ := hst
  obtain ⟨htu, hpart', hcore', hmgt'⟩ := htu
  refine ⟨?_, fun p => ?_, fun n => ?_, ?_⟩
  · exact (congrArg (fun v : State => { v with mgt := s.mgt, parts := s.parts, cores := s.cores, out := s.out }) htu).trans hst
  · exact (congrArg (fun v : Part => { v with errqs := (s.part p).errqs }) (hpart' p)).trans (hpart p)
  · exact (congrArg (fun v : Core => { v with imsic := (s.core n).imsic }) (hcore' n)).trans (hcore n)
  · exact (congrArg (fun v : Mgt =>
      { v with log := s.mgt.log, nextSeq := s.mgt.nextSeq, logLost := s.mgt.logLost, changeSeq := s.mgt.changeSeq,
               changeTick := s.mgt.changeTick }) hmgt').trans hmgt

theorem OnlyReports.foldl {α : Type} {g : State → α → State} (hg : ∀ t a, OnlyReports t (g t a)) (l : List α) (s : State) :
    OnlyReports s (l.foldl g s) := by
  induction l generalizing s with
  | nil => exact .refl s
  | cons a l ih => exact (hg s a).trans (ih _)

theorem onlyReports_emit (s : State) (o : Output) : OnlyReports s (s.emit o) :=
  ⟨rfl, fun _ => rfl, fun _ => rfl, rfl⟩

/-- A change of a core's pending interrupts alone. -/
theorem onlyReports_setCore_imsic (s : State) (n : Nat) (l : List (Nat × Nat)) :
    OnlyReports s (s.setCore n { s.core n with imsic := l }) := by
  refine ⟨rfl, fun _ => rfl, fun k => ?_, rfl⟩
  rw [State.setCore_core]
  split
  next h => rw [h]
  next => rfl

/-- A change of a partition's error queues alone. -/
theorem onlyReports_setPart_errqs (s : State) (p : Nat) (q : Tbl ErrQ) :
    OnlyReports s (s.setPart p { s.part p with errqs := q }) := by
  refine ⟨rfl, fun k => ?_, fun _ => rfl, rfl⟩
  rw [State.setPart_part]
  split
  next h => rw [h]
  next => rfl

theorem onlyReports_sendIrq (s : State) (o : Output) : OnlyReports s (s.sendIrq o) := by
  unfold State.sendIrq
  split
  next h f i =>
    refine OnlyReports.trans ?_ (onlyReports_emit _ _)
    have hv : (if (s.core h).imsic.contains (f, i) then s.core h else { s.core h with imsic := (s.core h).imsic ++ [(f, i)] }) =
        { s.core h with imsic := if (s.core h).imsic.contains (f, i) then (s.core h).imsic else (s.core h).imsic ++ [(f, i)] } := by
      split <;> rfl
    rw [State.modCore_eq, hv]
    exact onlyReports_setCore_imsic s h _
  next => exact onlyReports_emit s o

theorem onlyReports_postErr (s : State) (p key : Nat) (e : LogEntry) : OnlyReports s (s.postErr p key e) := by
  unfold State.postErr
  dsimp only
  split
  · exact onlyReports_setPart_errqs s p _
  · exact ((onlyReports_setPart_errqs s p _).trans (onlyReports_emit _ _)).trans (onlyReports_sendIrq _ _)

theorem onlyReports_deliver (s : State) (e : LogEntry) : OnlyReports s (s.deliver e) := by
  unfold State.deliver
  split
  · exact .foldl (fun t p => .foldl (fun u k => onlyReports_postErr u p k e) _ t) _ s
  · exact .foldl (fun u k => onlyReports_postErr u e.part k e) _ s

theorem onlyReports_addLog (s : State) (e : LogEntry) : OnlyReports s (s.addLog e) :=
  ⟨rfl, fun _ => rfl, fun _ => rfl, rfl⟩

theorem onlyReports_note (s : State) (code : Nat) (src : Source) : OnlyReports s (s.note code src) := by
  have hentry := (onlyReports_addLog s (s.entryOf code src)).trans (onlyReports_deliver _ (s.entryOf code src))
  unfold State.note
  split
  · exact ⟨rfl, fun _ => rfl, fun _ => rfl, rfl⟩
  · dsimp only
    split
    · exact hentry.trans (onlyReports_emit _ _)
    · exact hentry

theorem onlyReports_violation (s : State) (input value : Nat) : OnlyReports s (s.violation input value) := by
  unfold State.violation
  split
  · exact .refl s
  · exact (onlyReports_addLog s _).trans (onlyReports_deliver _ _)

/-! ## A report is in the log -/

theorem logged_addLog_deliver (s : State) (e : LogEntry) : Logged ((s.addLog e).deliver e) e.code := by
  refine ⟨e, ?_, rfl⟩
  rw [State.deliver_mgt]
  exact List.mem_append_right _ (List.mem_singleton_self e)

theorem logged_note (s : State) (code : Nat) (src : Source) : Logged (s.note code src) code := by
  have hentry : Logged ((s.addLog (s.entryOf code src)).deliver (s.entryOf code src)) code := logged_addLog_deliver s (s.entryOf code src)
  unfold State.note
  split
  next hmerge =>
    obtain ⟨e, he, hm⟩ := List.any_eq_true.mp hmerge
    refine ⟨_, List.mem_map_of_mem he, ?_⟩
    have hc : e.code = code := by
      simp only [mergesInto, Bool.and_eq_true, beq_iff_eq] at hm
      simp [hm]
    rw [if_pos hm]
    exact hc
  next =>
    dsimp only
    split <;> exact hentry

theorem logged_violation (s : State) (input value : Nat) : Logged (s.violation input value) 0x0F01 := by
  unfold State.violation
  split
  next hseen =>
    obtain ⟨e, he, hc⟩ := List.any_eq_true.mp hseen
    simp only [Bool.and_eq_true, beq_iff_eq] at hc
    exact ⟨e, he, hc.1.1⟩
  next => exact logged_addLog_deliver s _

/-! ## The halves an accessor holds (R562) -/

/-- The state a write of an accessor starts from: what halves it held are discarded. -/
def State.dropHalves (s : State) (acc : Nat) : State :=
  { s with halves := Tbl.drop (fun k => k / 2 ^ 32 == acc) s.halves }

@[simp] theorem dropHalves_readReg (s : State) (acc n : Nat) (r : SetupReg) : (s.dropHalves acc).readReg n r = s.readReg n r := rfl

@[simp] theorem dropHalves_selectorOk (s : State) (acc : Nat) (a : Agent) (r : SetupReg) (v : Word) :
    (s.dropHalves acc).selectorOk a r v = s.selectorOk a r v := rfl

@[simp] theorem dropHalves_regOk (s : State) (acc n : Nat) (r : SetupReg) (v : Word) : (s.dropHalves acc).regOk n r v = s.regOk n r v := rfl

@[simp] theorem dropHalves_part (s : State) (acc p : Nat) : (s.dropHalves acc).part p = s.part p := rfl

@[simp] theorem dropHalves_port (s : State) (acc p : Nat) : (s.dropHalves acc).port p = s.port p := rfl

@[simp] theorem dropHalves_domain (s : State) (acc d : Nat) : (s.dropHalves acc).domain d = s.domain d := rfl

@[simp] theorem dropHalves_lockedTdi (s : State) (acc f : Nat) : (s.dropHalves acc).lockedTdi f = s.lockedTdi f := rfl

theorem onlyReports_of_dropHalves {s u : State} {acc : Nat} (h : OnlyReports (s.dropHalves acc) u) :
    OnlyReports { s with halves := u.halves } u := by
  have hh : u.halves = (s.dropHalves acc).halves := by rw [← h.1]
  rw [hh]
  exact h

/-- A low half put by is held until the accessor's next access. -/
theorem heldHalf_set (s : State) (acc off low : Nat) (hlow : low < 2 ^ 32) :
    ({ s with halves := Tbl.set (fun _ => 0) s.halves (selKey acc off) (BitVec.ofNat 64 (low + 2 ^ 32)) } : State).heldHalf acc off =
      some (BitVec.ofNat 64 (low + 2 ^ 32)) := by
  have hbit : bitOf (BitVec.ofNat 64 (low + 2 ^ 32)) 32 = true := by
    rw [bitOf, BitVec.getLsbD_ofNat, Nat.add_comm, Nat.testBit_two_pow_add_eq, Nat.testBit_lt_two_pow hlow]
    decide
  simp only [State.heldHalf, Tbl.get_set_same, hbit, if_true]

/-! ## Which write is which (R11 to R14, R558, R562) -/

/-- The end of a write of an assigned register that the agent reaches: what the whole value `w` of the access does, where `v` is
what the agent wrote. -/
def State.writeEnd (s : State) (a : Agent) (off : Nat) (r : SetupReg) (v w : Word) : Result :=
  let owner := match r with
    | .page f _ => f
    | _ => 0
  if w &&& reservedMask r ≠ 0 then .next (s.violation off v.toNat)
  else if lockedReg r && s.lockedTdi owner then .next (s.tdiIgnores owner (off % 0x10000))
  else match r with
    | .prt p _ => .next (s.takePrt a off p r w)
    | _ => .next (s.takeReg a off r w)

section
variable {s : State} {a : Agent} {off : Nat} {r : SetupReg} {v w : Word}

theorem writeEnd_reserved (hw : w &&& reservedMask r ≠ 0) : s.writeEnd a off r v w = .next (s.violation off v.toNat) := if_pos hw

theorem writeEnd_prt {p o : Nat} (hw : w &&& reservedMask (.prt p o) = 0) :
    s.writeEnd a off (.prt p o) v w = .next (s.takePrt a off p (.prt p o) w) := if_neg (not_not_intro hw)

theorem writeEnd_locked {f o : Nat} (hw : w &&& reservedMask (.page f o) = 0) (hl : lockedReg (.page f o) = true)
    (hf : s.lockedTdi f = true) : s.writeEnd a off (.page f o) v w = .next (s.tdiIgnores f (off % 0x10000)) := by
  simp [State.writeEnd, hw, hl, hf]

/-- A value is taken unless its register belongs to a locked interface or to a partition not formed or in reset. -/
theorem writeEnd_open (hw : w &&& reservedMask r = 0) (hpage : ∀ f o, r = .page f o → s.lockedTdi f = false)
    (hprt : ∀ p o, r = .prt p o → (s.part p).formed = true ∧ (s.part p).resetting = false) :
    s.writeEnd a off r v w = .next (s.takeReg a off r w) := by
  cases r with
  | page f o => simp [State.writeEnd, hw, hpage f o rfl]
  | prt p o => rw [writeEnd_prt hw]; simp [State.takePrt, hprt p o rfl]
  | _ => exact if_neg (not_not_intro hw)

/-- What the agent wrote counts beside the merged value only where a reserved bit is set. -/
theorem writeEnd_written (hw : w &&& reservedMask r = 0) : s.writeEnd a off r v w = s.writeEnd a off r w w := by
  simp only [State.writeEnd, hw, ne_eq, not_true_eq_false, if_false]

theorem halfWrite_low (hx : crossesHalf r = false) (held : Option Word) :
    s.halfWrite a off r false held v =
      .inr (BitVec.ofNat 64 ((s.readReg (accNo a) r &&& storedMask r).toNat / 2 ^ 32 * 2 ^ 32 + v.toNat % 2 ^ 32)) := by
  unfold State.halfWrite
  rw [hx]
  rfl

theorem halfWrite_held (hx : crossesHalf r = true) (held : Option Word) :
    s.halfWrite a off r false held v = .inl { s with
      halves := Tbl.set (fun _ => 0) s.halves (selKey (accNo a) off) (BitVec.ofNat 64 (v.toNat % 2 ^ 32 + 2 ^ 32)) } := by
  unfold State.halfWrite
  rw [hx]
  rfl

/-- The end of a write whose merged value is a low half put by, or a whole value. -/
def State.mergedEnd (s : State) (a : Agent) (off : Nat) (r : SetupReg) (v : Word) : State ⊕ Word → Result
  | .inl u => .next u
  | .inr w => s.writeEnd a off r v w

end

theorem exec_setupRegisterWrite (a : Agent) (off width : Nat) (v : Word) (s : State) :
    exec (.setupRegisterWrite a off width v) s = execSetupRegisterWrite a off width v s := rfl

/-- A host-processor core takes a store access fault (R11, R558). -/
theorem exec_write_core (n off width : Nat) (v : Word) (s : State) (hn : n < 384) :
    exec (.setupRegisterWrite (.core n) off width v) s =
      .next (s.setCore n { s.core n with mcause := 7, tval := BitVec.ofNat 64 (0x3000000000000 + off) }) := by
  rw [exec_setupRegisterWrite, execSetupRegisterWrite, if_pos hn]
  rfl

section
variable {a : Agent} {off : Nat} {v : Word} {s : State} {r : SetupReg} (ha : ∀ n, a ≠ .core n)
include ha

theorem exec_write_misaligned {width : Nat} (hw : ¬(width = 8 ∧ off % 8 = 0 ∨ width = 4 ∧ off % 4 = 0)) :
    exec (.setupRegisterWrite a off width v) s = .next ((s.dropHalves (accNo a)).violation off v.toNat) := by
  cases a with
  | core n => exact absurd rfl (ha n)
  | _ => exact if_pos hw

theorem exec_write_unassigned (h8 : off % 8 = 0) (hr : setupReg off = none) :
    exec (.setupRegisterWrite a off 8 v) s = .next (s.dropHalves (accNo a)) := by
  have hb : off / 8 * 8 = off := by omega
  cases a with
  | core n => exact absurd rfl (ha n)
  | _ => simp [exec_setupRegisterWrite, execSetupRegisterWrite, State.dropHalves, h8, hb, hr]

theorem exec_write_ignored (h8 : off % 8 = 0) (hr : setupReg off = some r) (hi : s.reaches a r = false ∨ ownCommand r = true) :
    exec (.setupRegisterWrite a off 8 v) s = .next (s.dropHalves (accNo a)) := by
  have hb : off / 8 * 8 = off := by omega
  have hi : (!s.reaches a r || ownCommand r) = true := by simpa using hi
  cases a with
  | core n => exact absurd rfl (ha n)
  | _ => simp [exec_setupRegisterWrite, execSetupRegisterWrite, State.dropHalves, h8, hb, hr, -Bool.or_eq_true, hi]

variable (h8 : off % 8 = 0) (hr : setupReg off = some r) (hreach : s.reaches a r = true) (hown : ownCommand r = false)
include h8 hr hreach hown

theorem exec_write_assigned {width : Nat} (hw : width = 8 ∨ width = 4) :
    exec (.setupRegisterWrite a off width v) s = (s.dropHalves (accNo a)).mergedEnd a off r v
      (if width = 8 then .inr v else (s.dropHalves (accNo a)).halfWrite a off r false (s.heldHalf (accNo a) off) v) := by
  have hb : off / 8 * 8 = off := by omega
  have hok : width = 8 ∧ off % 8 = 0 ∨ width = 4 ∧ off % 4 = 0 := by omega
  have hlow : (off % 8 == 4) = false := by simp [h8]
  cases a with
  | core n => exact absurd rfl (ha n)
  | _ =>
    simp only [exec_setupRegisterWrite, execSetupRegisterWrite, hb, hok, hr, hreach, hown, hlow, not_true_eq_false, if_false,
      Bool.not_true, Bool.or_false, Bool.false_eq_true]
    rfl

theorem exec_write_word :
    exec (.setupRegisterWrite a off 8 v) s = (s.dropHalves (accNo a)).writeEnd a off r v v :=
  exec_write_assigned ha h8 hr hreach hown (.inl rfl)

theorem exec_write_taken (hv : v &&& reservedMask r = 0) (hpage : ∀ f o, r = .page f o → s.lockedTdi f = false)
    (hprt : ∀ p o, r = .prt p o → (s.part p).formed = true ∧ (s.part p).resetting = false) :
    exec (.setupRegisterWrite a off 8 v) s = .next ((s.dropHalves (accNo a)).takeReg a off r v) :=
  (exec_write_word ha h8 hr hreach hown).trans (writeEnd_open hv hpage hprt)

theorem exec_write_low (hx : crossesHalf r = false) :
    exec (.setupRegisterWrite a off 4 v) s = (s.dropHalves (accNo a)).writeEnd a off r v
      (BitVec.ofNat 64 ((s.readReg (accNo a) r &&& storedMask r).toNat / 2 ^ 32 * 2 ^ 32 + v.toNat % 2 ^ 32)) := by
  rw [exec_write_assigned ha h8 hr hreach hown (.inr rfl), if_neg (by decide), halfWrite_low hx, dropHalves_readReg]
  rfl

theorem exec_write_held (hx : crossesHalf r = true) :
    exec (.setupRegisterWrite a off 4 v) s = .next { s.dropHalves (accNo a) with
      halves := Tbl.set (fun _ => 0) (s.dropHalves (accNo a)).halves (selKey (accNo a) off) (BitVec.ofNat 64 (v.toNat % 2 ^ 32 + 2 ^ 32)) } := by
  rw [exec_write_assigned ha h8 hr hreach hown (.inr rfl), if_neg (by decide), halfWrite_held hx]
  rfl

end

/-! ## Selectors (R559) -/

theorem setSel_sel_same (s : State) (acc off : Nat) (v : Word) : (s.setSel acc off v).sel acc off = v := Tbl.get_set_same _ _ _ _

/-- Below the setup space's size a selector's key names its accessor and its offset. -/
theorem selKey_inj {acc off b o : Nat} (hoff : off < 2 ^ 32) (ho : o < 2 ^ 32) (h : selKey b o = selKey acc off) :
    (b, o) = (acc, off) := by
  unfold selKey at h
  have hb : b = acc := by omega
  have ho : o = off := by omega
  rw [hb, ho]

theorem setSel_sel_ne (s : State) {acc off b o : Nat} (v : Word) (hoff : off < 2 ^ 32) (ho : o < 2 ^ 32) (hne : (b, o) ≠ (acc, off)) :
    (s.setSel acc off v).sel b o = s.sel b o :=
  Tbl.get_set_ne _ _ _ (fun h => hne (selKey_inj hoff ho h))

/-- Assigned offsets lie in the setup space of 256 MiB (R557). -/
theorem setupReg_lt {off : Nat} {r : SetupReg} (h : setupReg off = some r) : off < 2 ^ 32 := by
  by_contra hlt
  have h1 : ¬(0x100000 ≤ off ∧ off < 0x200000) := by omega
  have h2 : ¬(0x1000000 ≤ off ∧ off < 0x5000000) := by omega
  have h3 : ¬(0x8800000 ≤ off ∧ off < 0x8800000 + 384 * 4096) := by omega
  have h4 : ¬off < 0x100000 := by omega
  have h5 : ¬(off % 0x100000 < 0x10000 ∧ off < 0xC00000) := by omega
  simp only [setupReg, if_neg h1, if_neg h2, if_neg h3, if_neg h4, if_neg h5, ite_self] at h
  cases h

/-! ## Registers whose every field is stored -/

/-- Whether a write stores a field of this type. -/
def Acc.stored : Acc → Bool
  | .rw | .rwl | .w1s => true
  | _ => false

/-- Whether a write stores every field of a register. -/
def storesAll (r : SetupReg) : Bool := (fieldsOf r).all (fun f => f.2.2.stored)

theorem maskWhere_congr_of_storesAll {r : SetupReg} {p q : Acc → Bool} (hall : storesAll r = true)
    (h : ∀ k : Acc, k.stored = true → p k = q k) : maskWhere r p = maskWhere r q := by
  have hf : ∀ f ∈ fieldsOf r, p f.2.2 = q f.2.2 := fun f hf => h _ (List.all_eq_true.mp hall f hf)
  simp only [maskWhere, List.filter_congr hf]

theorem maskWhere_eq_zero_of_storesAll {r : SetupReg} {p : Acc → Bool} (hall : storesAll r = true)
    (h : ∀ k : Acc, k.stored = true → p k = false) : maskWhere r p = 0#64 := by
  rw [maskWhere_congr_of_storesAll hall h, maskWhere, List.filter_false]
  rfl

/-- A value with no reserved bit is stored whole where every field is stored. -/
theorem and_storedMask_of_storesAll {r : SetupReg} {v : Word} (hall : storesAll r = true) (hv : v &&& reservedMask r = 0) :
    v &&& storedMask r = v := by
  have hm : maskWhere r (fun _ => true) = storedMask r :=
    maskWhere_congr_of_storesAll hall (fun k hk => by revert hk; cases k <;> decide)
  have hv : v &&& ~~~(storedMask r) = 0#64 := by rw [← hm]; exact hv
  calc v &&& storedMask r = v &&& storedMask r ||| v &&& ~~~(storedMask r) := by rw [hv, BitVec.or_zero]
    _ = v := by rw [← BitVec.and_or_distrib_left, BitVec.or_not_self, BitVec.and_allOnes]

section
variable {s : State} {a : Agent} {off : Nat} {r : SetupReg} {v : Word}

theorem takeReg_selector (hsel : isSelector r = true) (hok : s.selectorOk a r v = true) :
    s.takeReg a off r v = s.setSel (accNo a) off v := by
  simp only [State.takeReg, hsel, hok, if_true]

theorem takeReg_selector_refused (hsel : isSelector r = true) (hok : s.selectorOk a r v = false) :
    s.takeReg a off r v = s.violation off v.toNat := by
  simp [State.takeReg, hsel, hok]

theorem takeReg_counters (hsel : isSelector r = false) (h0 : storedMask r = 0) :
    s.takeReg a off r v = s.clearFields (accNo a) r v := by
  simp [State.takeReg, hsel, h0]

section
variable (hsel : isSelector r = false) (hall : storesAll r = true) (h0 : storedMask r ≠ 0) (hv : v &&& reservedMask r = 0)
include hsel hall h0 hv

theorem takeReg_stored (hok : s.regOk (accNo a) r v = true) :
    s.takeReg a off r v = (s.storeReg (accNo a) off r v).clearFields (accNo a) r v := by
  have hstored := and_storedMask_of_storesAll hall hv
  simp only [State.takeReg, hsel, Bool.false_eq_true, if_false, hstored, if_neg h0, hok, if_true]
  rw [maskWhere_eq_zero_of_storesAll hall (fun k hk => by revert hk; cases k <;> decide), BitVec.and_zero, BitVec.or_zero]

theorem takeReg_refused (hok : s.regOk (accNo a) r v = false) : s.takeReg a off r v = s.refuseReg r off v := by
  have hstored := and_storedMask_of_storesAll hall hv
  simp only [State.takeReg, hsel, Bool.false_eq_true, if_false, hstored, if_neg h0, hok]

end
end

/-! ## What each kind of register takes (Tables 21.2 to 21.11) -/

section
variable {s : State} {a : Agent} {off : Nat} {v : Word}

/-- Registers kept as they are written. -/
theorem takeReg_plain {r : SetupReg}
    (hr : r = .panelLimit ∨ r = .seqCfg ∨ r = .thresh ∨ r = .retrainCfg ∨ r = .rasCfg ∨ r = .spdmCfg ∨ ∃ k, r = .trustRoot k)
    (hv : v &&& reservedMask r = 0) (hok : s.regOk (accNo a) r v = true) : s.takeReg a off r v = s.setReg off v := by
  rcases hr with rfl | rfl | rfl | rfl | rfl | rfl | ⟨k, rfl⟩
  case inr.inr.inr.inr.inr.inr => exact takeReg_stored rfl rfl (show storedMask (.trustRoot 0) ≠ 0 by decide) hv hok
  all_goals exact takeReg_stored rfl rfl (by decide) hv hok

theorem takeReg_plain_refused {r : SetupReg} (hr : r = .panelLimit ∨ r = .seqCfg ∨ r = .retrainCfg ∨ r = .rasCfg ∨ r = .spdmCfg)
    (hv : v &&& reservedMask r = 0) (hok : s.regOk (accNo a) r v = false) : s.takeReg a off r v = s.violation off v.toNat := by
  rcases hr with rfl | rfl | rfl | rfl | rfl <;> exact takeReg_refused rfl rfl (by decide) hv hok

theorem takeReg_thresh_refused (hv : v &&& reservedMask .thresh = 0) (hok : s.regOk (accNo a) .thresh v = false) :
    s.takeReg a off .thresh v = s.note 0x0C08 { detail := [off] } :=
  takeReg_refused rfl rfl (by decide) hv hok

theorem takeReg_quantum {p : Nat} (hv : v &&& reservedMask (.prt p 5) = 0) (h1 : 1 ≤ v.toNat) (h2 : v.toNat ≤ 1000) :
    s.takeReg a off (.prt p 5) v = s.setPart p { s.part p with quantum := v.toNat } := by
  have hbits : bitsOf v 9 0 = v.toNat := by
    simp only [bitsOf]
    omega
  have hok : s.regOk (accNo a) (.prt p 5) v = true := by simp [State.regOk, inRange, hbits, h1, h2]
  rw [← hbits]
  exact takeReg_stored rfl rfl (show storedMask (.prt 0 5) ≠ 0 by decide) hv hok

theorem takeReg_portCfg {p : Nat} (hv : v &&& reservedMask (.portCfg p) = 0) :
    s.takeReg a off (.portCfg p) v =
      s.setPort p { s.port p with split := if (s.port p).lock then (s.port p).split else bitOf v 0, lock := (s.port p).lock || bitOf v 1 } :=
  takeReg_stored rfl rfl (show storedMask (.portCfg 0) ≠ 0 by decide) hv rfl

theorem takeReg_portCfg_unlocked {p : Nat} (hv : v &&& reservedMask (.portCfg p) = 0) (hl : (s.port p).lock = false) :
    s.takeReg a off (.portCfg p) v = s.setPort p { s.port p with split := bitOf v 0, lock := bitOf v 1 } := by
  rw [takeReg_portCfg hv, hl]
  rfl

theorem takeReg_portCfg_locked {p : Nat} (hv : v &&& reservedMask (.portCfg p) = 0) (hl : (s.port p).lock = true) :
    s.takeReg a off (.portCfg p) v = s.setPort p (s.port p) := by
  have hkept : { s.port p with split := (s.port p).split, lock := true } = s.port p := by rw [← hl]
  rw [takeReg_portCfg hv, hl]
  exact congrArg (s.setPort p) hkept

theorem takeReg_discard {p c : Nat} :
    s.takeReg a off (.discard p c) v =
      if bitsOf v 31 0 ≠ 0 then { s with discards := Tbl.set (fun _ => 0) s.discards (p * 16 + c) 0 } else s :=
  takeReg_counters rfl (show storedMask (.discard 0 0) = 0 by decide)

theorem takeReg_beaconErr {d : Nat} :
    s.takeReg a off (.beaconErr d) v =
      s.setDomain d { s.domain d with ignored := if bitsOf v 31 0 ≠ 0 then 0 else (s.domain d).ignored,
                                      large := if bitsOf v 63 32 ≠ 0 then 0 else (s.domain d).large } :=
  takeReg_counters rfl (show storedMask (.beaconErr 0) = 0 by decide)

/-- The registers that a locked interface ignores are written by plain writes. -/
theorem ownCommand_of_lockedReg {r : SetupReg} (h : lockedReg r = true) : ownCommand r = false := by
  unfold lockedReg at h
  split at h
  case h_6 => cases h
  all_goals rfl

/-! ## Writes of a partition's block (R560, R565) -/

theorem takePrt_unformed {p : Nat} {r : SetupReg} (hf : (s.part p).formed = false) : s.takePrt a off p r v = s := by
  simp [State.takePrt, hf]

theorem takePrt_discarded {p : Nat} {r : SetupReg} (hf : (s.part p).formed = true) (hreset : (s.part p).resetting = true)
    (hk : keptByReset r = false) : s.takePrt a off p r v = s := by
  simp [State.takePrt, hf, hreset, hk]

theorem takePrt_late {p : Nat} {r : SetupReg} (hf : (s.part p).formed = true) (hreset : (s.part p).resetting = true)
    (hk : keptByReset r = true) :
    s.takePrt a off p r v = s.setPart p { s.part p with lateWrites := (s.part p).lateWrites ++ [(off, v)] } := by
  simp [State.takePrt, hf, hreset, hk]

end

/-! ## The writes of SetupRegisters -/

/-- A write refused as an input violation changes nothing but the reports and the halves the accessor held. -/
theorem violates_of_exec {s : State} {acc off n : Nat} {i : Instr} (h : exec i s = .next ((s.dropHalves acc).violation off n)) :
    ∃ t : State, exec i s = .next t ∧ OnlyReports { s with halves := t.halves } t ∧ Logged t 0x0F01 :=
  ⟨_, h, onlyReports_of_dropHalves (onlyReports_violation _ _ _), logged_violation _ _ _⟩

/-- So does one that raises an event of its own. -/
theorem reports_of_exec {s : State} {acc code : Nat} {src : Source} {i : Instr} (h : exec i s = .next ((s.dropHalves acc).note code src)) :
    ∃ t : State, exec i s = .next t ∧ OnlyReports { s with halves := t.halves } t ∧ Logged t code :=
  ⟨_, h, onlyReports_of_dropHalves (onlyReports_note _ _ _), logged_note _ _ _⟩

/-- Settles O52: each end of a write is one of the equations above, read off with the laws of the table it changes. -/
theorem setupRegisters : Obligations.SetupRegisters := by
  unfold Obligations.SetupRegisters
  refine ⟨fun n off w v s hn => ?_, fun a off v s ha => ⟨fun w hw => ?_, fun h8 hr => ?_, fun r h8 hr hi => ?_,
    fun r h8 hr hreach hown => ⟨fun hv => ?_, fun hv hpage hprt => ?_⟩, fun p o h8 hr hreach hown hv => ?_,
    fun f o h8 hr hreach hlocked hf hv => ?_, fun r h8 hr hreach hown hx => ?_, fun r h8 hr hreach hown hx => ?_⟩⟩
  · -- a core
    exact ⟨_, exec_write_core n off w v s hn, rfl, by simp, by simp, fun m hm => by simp [hm]⟩
  · -- width and alignment
    exact violates_of_exec (exec_write_misaligned ha hw)
  · -- an offset not assigned
    exact ⟨_, exec_write_unassigned ha h8 hr, rfl⟩
  · -- out of reach, or with a command of its own
    exact ⟨_, exec_write_ignored ha h8 hr hi, rfl⟩
  · -- a reserved bit set
    exact violates_of_exec ((exec_write_word ha h8 hr hreach hown).trans (writeEnd_reserved hv))
  · -- a value taken
    have htaken := exec_write_taken ha h8 hr hreach hown hv hpage hprt
    refine ⟨fun hsel hok => ?_, fun hsel hok => ?_, fun hreg hok => ?_, fun hreg hok => ?_, fun hreg hok => ?_, fun p hreg h1 h2 _ => ?_,
      fun p hreg hl => ?_, fun p hreg hl => ?_, fun p c hreg => ?_, fun d hreg => ?_⟩
    · rw [takeReg_selector (s := s.dropHalves _) hsel hok] at htaken
      exact ⟨_, htaken, rfl, setSel_sel_same _ _ _ _, fun b o hne ho => setSel_sel_ne _ v (setupReg_lt hr) ho hne⟩
    · rw [takeReg_selector_refused (s := s.dropHalves _) hsel hok] at htaken
      exact violates_of_exec htaken
    · rw [takeReg_plain (s := s.dropHalves _) hreg hv hok] at htaken
      exact ⟨_, htaken, rfl, by simp, fun o ho => by rw [State.setReg_reg, if_neg ho]; rfl⟩
    · rw [takeReg_plain_refused (s := s.dropHalves _) hreg hv hok] at htaken
      exact violates_of_exec htaken
    · subst hreg
      rw [takeReg_thresh_refused (s := s.dropHalves _) hv hok] at htaken
      exact reports_of_exec htaken
    · subst hreg
      rw [takeReg_quantum hv h1 h2] at htaken
      exact ⟨_, htaken, rfl, by simp, fun q hq => by simp [hq]⟩
    · subst hreg
      rw [takeReg_portCfg_unlocked (s := s.dropHalves _) hv hl] at htaken
      exact ⟨_, htaken, rfl, by simp⟩
    · subst hreg
      rw [takeReg_portCfg_locked (s := s.dropHalves _) hv hl] at htaken
      exact ⟨_, htaken, rfl, fun k => by rw [State.setPort_port]; split <;> simp [*]⟩
    · subst hreg
      rw [takeReg_discard] at htaken
      refine ⟨_, htaken, ?_, fun hne => ?_, fun h0 => ?_⟩
      · split <;> rfl
      · simp [hne]
      · rw [if_neg (not_not_intro h0)]
        rfl
    · subst hreg
      rw [takeReg_beaconErr] at htaken
      exact ⟨_, htaken, rfl, by simp⟩
  · -- a partition's block, not formed or in reset
    have htaken := (exec_write_word ha h8 hr hreach hown).trans (writeEnd_prt hv)
    refine ⟨fun hf => ?_, fun hf hreset hk => ?_, fun hf hreset hk => ?_⟩
    · rw [takePrt_unformed (s := s.dropHalves _) hf] at htaken
      exact ⟨_, htaken, rfl⟩
    · rw [takePrt_discarded (s := s.dropHalves _) hf hreset hk] at htaken
      exact ⟨_, htaken, rfl⟩
    · rw [takePrt_late (s := s.dropHalves _) hf hreset hk] at htaken
      exact ⟨_, htaken, rfl, by simp⟩
  · -- a locked interface
    exact reports_of_exec ((exec_write_word ha h8 hr hreach (ownCommand_of_lockedReg hlocked)).trans (writeEnd_locked hv hlocked hf))
  · -- a low half of a register with no field across bit 32
    intro w hw
    rw [exec_write_low ha h8 hr hreach hown hx, exec_write_word ha h8 hr hreach hown]
    exact writeEnd_written hw
  · -- a low half that is held
    exact ⟨_, exec_write_held ha h8 hr hreach hown hx, rfl, fun _ => heldHalf_set _ _ _ _ (Nat.mod_lt _ (Nat.two_pow_pos 32))⟩

end Sys2Proof.Machine

namespace Sys2Proof.Machine
open Sys2Proof

/-! ## What reset leaves -/

/-- The position found among the set bits of a mask lies in the mask's width. -/
theorem nthSet_lt {m : BitVec 18} {w : Nat} : ∀ {n p : Nat} (q : Nat), p + n ≤ w → 0 < w → nthSet m n p q < w
  | 0, _, _, _, hw => hw
  | n + 1, p, q, hn, hw => by
    unfold nthSet
    split
    · split
      · omega
      · exact nthSet_lt _ (by omega) hw
    · exact nthSet_lt _ (by omega) hw

/-- A cluster map from the factory maps every position: state 0 of Table 1.6. -/
theorem entryState_factoryEntry (s : State) (r : Nat) {l : Nat} (hl : l < 288) : entryState (s.factoryEntry r l) = 0 := by
  have hpos : nthSet (s.enabledAt r (slotOf l)) 18 0 (slotIdx l) < 18 := nthSet_lt _ (by omega) (by omega)
  have hslot : slotOf l < 32 := by unfold slotOf; omega
  simp only [State.factoryEntry, entryState, bitsOf, BitVec.toNat_ofNat]
  omega

/-- Settles O58: every table of the reset state is empty, and reads as its unlisted values; the registers are evaluated. -/
theorem afterReset : Obligations.AfterReset := by
  unfold Obligations.AfterReset
  refine ⟨⟨rfl, rfl, rfl⟩, rfl, rfl, rfl, rfl, rfl, rfl, rfl, rfl, rfl, fun _ => rfl, fun _ _ => ⟨rfl, rfl⟩, fun _ => ⟨rfl, rfl⟩,
    fun _ => ⟨rfl, rfl, rfl⟩, fun _ => rfl, fun _ => rfl, fun r l _ hl => entryState_factoryEntry _ r hl, ?_⟩
  decide

end Sys2Proof.Machine

namespace Sys2Proof.Machine
open Sys2Proof

/-! ## States whose stores are the same -/

theorem NoStore.refl (s : State) : NoStore s s := ⟨rfl, rfl, rfl⟩

theorem NoStore.trans {s t u : State} (hst : NoStore s t) (htu : NoStore t u) : NoStore s u := by
  obtain ⟨htarn, hmem, hpoison⟩ := hst
  obtain ⟨htarn', hmem', hpoison'⟩ := htu
  exact ⟨htarn'.trans htarn, hmem'.trans hmem, hpoison'.trans hpoison⟩

theorem NoStore.foldl {α : Type} {g : State → α → State} (hg : ∀ t a, NoStore t (g t a)) (l : List α) (s : State) :
    NoStore s (l.foldl g s) := by
  induction l generalizing s with
  | nil => exact .refl s
  | cons a l ih => exact (hg s a).trans (ih _)

theorem noStore_note (s : State) (code : Nat) (src : Source) : NoStore s (s.note code src) := by simp [NoStore]

/-! ## What an event leaves of the management state -/

@[simp] theorem note_mgt_epoch (s : State) (code : Nat) (src : Source) : (s.note code src).mgt.epoch = s.mgt.epoch := by
  obtain ⟨_, _, _, hmgt⟩ := onlyReports_note s code src
  have hepoch := congrArg Mgt.epoch hmgt
  exact hepoch

/-! ## Commands to a region (R26, R518) -/

/-- t differs from s in its regions alone. -/
def OnlyRegions (s t : State) : Prop := { t with regions := s.regions } = s

theorem OnlyRegions.trans {s t u : State} (hst : OnlyRegions s t) (htu : OnlyRegions t u) : OnlyRegions s u := by
  unfold OnlyRegions at hst htu ⊢
  exact (congrArg (fun v : State => { v with regions := s.regions }) htu).trans hst

theorem onlyRegions_setRegion (s : State) (r : Nat) (v : Region) : OnlyRegions s (s.setRegion r v) := by
  unfold OnlyRegions
  rfl

/-- A region's steward has seen a lease epoch. -/
def State.atEpoch (s : State) (r e : Nat) : State := s.setRegion r { s.region r with epoch := e }

theorem onlyRegions_atEpoch (s : State) (r e : Nat) : OnlyRegions s (s.atEpoch r e) := onlyRegions_setRegion s r _

theorem atEpoch_region_same (s : State) (r e : Nat) : (s.atEpoch r e).region r = { s.region r with epoch := e } :=
  State.setRegion_region_same _ _ _

theorem atEpoch_region_ne (s : State) {r q : Nat} (e : Nat) (hq : q ≠ r) : (s.atEpoch r e).region q = s.region q :=
  State.setRegion_region_ne _ _ _ _ hq

section
variable {s : State} {r e : Nat} {f : State → State}

theorem regionCmd_stale (he : e < (s.region r).epoch) :
    s.regionCmd r e f = s.setRegion r { s.region r with epochRejects := (s.region r).epochRejects + 1 } := if_pos he

theorem regionCmd_taken (he : (s.region r).epoch ≤ e) : s.regionCmd r e f = f (s.atEpoch r e) :=
  if_neg (Nat.not_lt.mpr he)

end

theorem partnerOf_ne (r : Nat) : partnerOf r ≠ r := by simp [partnerOf]

/-! ## The limits of a grant (R472) -/

theorem baseOf_le_grantFor (s : State) (r : Nat) : baseOf r ≤ s.grantFor r := by
  unfold State.grantFor
  dsimp only
  split <;> omega

theorem grantFor_le (s : State) (r : Nat) : s.grantFor r ≤ max (baseOf r) (s.roomFor r) := by
  unfold State.grantFor
  dsimp only
  split
  · have hpick := Nat.mod_lt (Config.grantPick s.fresh) (show 0 < s.roomFor r - baseOf r + 1 by omega)
    omega
  · omega

theorem capOf_le (s : State) (r : Nat) : s.capOf r ≤ 8 := by
  have hcap : (s.region r).cap ≤ 8 := by
    unfold Region.cap
    split <;> omega
  unfold State.capOf
  dsimp only
  split <;> omega

theorem capOf_le_maxStepFor (s : State) (r : Nat) : s.capOf r ≤ s.maxStepFor r := Nat.le_add_right _ _

theorem maxStepFor_le (s : State) (r : Nat) : s.maxStepFor r ≤ 8 := by
  have hcap := capOf_le s r
  have hpick := Nat.mod_lt (Config.grantPick (s.fresh + 1)) (show 0 < 9 - s.capOf r by omega)
  unfold State.maxStepFor
  omega

/-- The grant that a region is given counts neither for its own room nor for its caps. -/
theorem setIssued_limits (s : State) (r g : Nat) :
    (s.setRegion r { s.region r with budget := { (s.region r).budget with issued := g } }).roomFor r = s.roomFor r ∧
    (s.setRegion r { s.region r with budget := { (s.region r).budget with issued := g } }).capOf r = s.capOf r := by
  have hne := partnerOf_ne r
  have helse : (s.setRegion r { s.region r with budget := { (s.region r).budget with issued := g } }).grantedElse r = s.grantedElse r := by
    refine congrArg List.sum (List.map_congr_left fun q hq => ?_)
    have hq : q ≠ r := by simpa using (List.mem_filter.mp hq).2
    rw [State.setRegion_region_ne _ _ _ _ hq]
  constructor
  · unfold State.roomFor
    rw [helse, State.setRegion_region_ne _ _ _ _ hne]
    rfl
  · unfold State.capOf
    rw [State.setRegion_region_ne _ _ _ _ hne, State.setRegion_region_same]
    rfl

/-! ## What caps and Holds leave of a request (R472, R474) -/

/-- Nothing is stored, no cluster changes, and a region's budget changes in no more than the power granted. -/
def OnlySheds (s t : State) : Prop :=
  NoStore s t ∧ t.clusters = s.clusters ∧ t.mgt.epoch = s.mgt.epoch ∧
  ∀ q, (t.region q).budget = { (s.region q).budget with issued := (t.region q).budget.issued }

theorem OnlySheds.refl (s : State) : OnlySheds s s := ⟨.refl s, rfl, rfl, fun _ => rfl⟩

theorem OnlySheds.trans {s t u : State} (hst : OnlySheds s t) (htu : OnlySheds t u) : OnlySheds s u := by
  obtain ⟨hstore, hcl, hepoch, hbudget⟩ := hst
  obtain ⟨hstore', hcl', hepoch', hbudget'⟩ := htu
  refine ⟨hstore.trans hstore', hcl'.trans hcl, hepoch'.trans hepoch, fun q => ?_⟩
  rw [hbudget' q, hbudget q]

theorem OnlySheds.foldl {α : Type} {g : State → α → State} (hg : ∀ t a, OnlySheds t (g t a)) (l : List α) (s : State) :
    OnlySheds s (l.foldl g s) := by
  induction l generalizing s with
  | nil => exact .refl s
  | cons a l ih => exact (hg s a).trans (ih _)

theorem onlySheds_note (s : State) (code : Nat) (src : Source) : OnlySheds s (s.note code src) := by
  simp [OnlySheds, noStore_note]

theorem onlySheds_cool (s : State) (v : Coolant) : OnlySheds s { s with cool := v } := ⟨.refl s, rfl, rfl, fun _ => rfl⟩

theorem OnlySheds.ite {s t u : State} {p : Prop} [Decidable p] (ht : OnlySheds s t) (hu : OnlySheds s u) :
    OnlySheds s (if p then t else u) := by
  split
  · exact ht
  · exact hu

theorem onlySheds_modRegion (s : State) (r : Nat) {f : Region → Region}
    (hf : ∀ v, (f v).budget = { v.budget with issued := (f v).budget.issued }) : OnlySheds s (s.modRegion r f) := by
  refine ⟨.refl s, rfl, rfl, fun q => ?_⟩
  rw [State.modRegion_eq, State.setRegion_region]
  split
  next hq => rw [hq]; exact hf _
  next => rfl

theorem holdRegion_budget (c : HoldCause) (v : Region) : (holdRegion c v).budget = v.budget := by
  unfold holdRegion
  split
  · rfl
  · split <;> rfl
  · rfl

theorem releaseRegion_budget (c : HoldCause) (v : Region) : (releaseRegion c v).budget = v.budget := by
  unfold releaseRegion
  dsimp only
  split <;> rfl

theorem onlySheds_shed (s : State) (r : Nat) : OnlySheds s (s.shed r) := by
  unfold State.shed
  refine .trans (.trans (onlySheds_modRegion s r fun v => ?_) (onlySheds_modRegion _ r fun v => ?_)) (onlySheds_note _ _ _)
  · rw [holdRegion_budget]
  · rfl

theorem onlySheds_unshed (s : State) (r : Nat) : OnlySheds s (s.unshed r) := by
  unfold State.unshed
  refine .trans (.trans (onlySheds_modRegion s r fun v => ?_) (onlySheds_modRegion _ r fun v => ?_)) (onlySheds_note _ _ _)
  · rw [releaseRegion_budget]
  · rfl

theorem onlySheds_coolCap (s : State) : OnlySheds s s.coolCap := by
  unfold State.coolCap
  exact .ite (.refl s) (.ite ((onlySheds_cool s _).trans (onlySheds_note _ _ _))
    (.ite (.ite (onlySheds_cool s _) (onlySheds_cool s _)) (onlySheds_cool s _)))

theorem onlySheds_shedLoad (s : State) : OnlySheds s s.shedLoad :=
  .trans (.foldl (fun t _ => .ite (onlySheds_shed t _) (.refl t)) _ s) (.foldl (fun t _ => .ite (onlySheds_shed t _) (.refl t)) _ _)

theorem onlySheds_releaseLoad (s : State) (held : List Nat) : OnlySheds s (s.releaseLoad held) :=
  .foldl (fun t r => .ite (onlySheds_unshed t r) (.refl t)) held s

/-! ## Requests and grants -/

/-- What a region reports in its request is kept. -/
def State.takeReport (s : State) (r : Nat) (req : Word) : State :=
  (s.modRegion r (fun v => { v with budget := { v.budget with
    seq := bitsOf req 15 4, measured := bitsOf req 31 16, forecast := bitsOf req 47 32 } })).refreshReading (readingNo 2 r)

/-- The state a request leaves at the lease holder before it grants: caps and Holds are set. -/
def State.requested (s : State) (r : Nat) (req : Word) : State :=
  ((s.takeReport r req).coolCap.shedLoad).releaseLoad ((List.range 16).filter (s.takeReport r req).powerHeld)

/-- A grant sent to region r. -/
def State.sendGrant (s : State) (r seq : Nat) : State :=
  ((s.draw.draw).modRegion r (fun v => { v with budget := { v.budget with issued := s.grantFor r } })).emit
    (.budgetGrant r seq (s.grantFor r) (s.maxStepFor r) s.mgt.epoch)

theorem exec_budgetReq {r : Nat} {req : Word} {s : State} (hr : r < 16) (hreq : bitsOf req 3 0 = r) (hholder : s.holder.isSome) :
    exec (.budgetReq r req) s = if (s.requested r req).powerHeld r then .next (s.requested r req)
      else .next ((s.requested r req).sendGrant r (bitsOf req 15 4)) := by
  have hgo : ¬(16 ≤ r ∨ bitsOf req 3 0 ≠ r ∨ s.holder.isNone = true) := by
    simp [hr, hreq, Option.isSome_iff_ne_none.mp hholder]
  exact if_neg hgo

theorem exec_budgetReq_dropped {r : Nat} {req : Word} {s : State} (h : 16 ≤ r ∨ bitsOf req 3 0 ≠ r ∨ s.holder = none) :
    exec (.budgetReq r req) s = .next s := by
  have hstop : 16 ≤ r ∨ bitsOf req 3 0 ≠ r ∨ s.holder.isNone := by simpa using h
  exact if_pos hstop

/-- A request is kept as it is reported, and neither stores nor clusters change. -/
theorem requested_keeps (s : State) (r : Nat) (req : Word) :
    NoStore s (s.requested r req) ∧ (s.requested r req).clusters = s.clusters ∧ (s.requested r req).mgt.epoch = s.mgt.epoch ∧
    ((s.requested r req).region r).budget.seq = bitsOf req 15 4 ∧ ((s.requested r req).region r).budget.measured = bitsOf req 31 16 ∧
    ((s.requested r req).region r).budget.forecast = bitsOf req 47 32 := by
  have hsheds : OnlySheds (s.takeReport r req) (s.requested r req) :=
    ((onlySheds_coolCap _).trans (onlySheds_shedLoad _)).trans (onlySheds_releaseLoad _ _)
  have hreport : ((s.takeReport r req).region r).budget = { (s.region r).budget with
      seq := bitsOf req 15 4, measured := bitsOf req 31 16, forecast := bitsOf req 47 32 } :=
    congrArg Region.budget (State.setRegion_region_same s r _)
  obtain ⟨hstore, hcl, hepoch, hbudget⟩ := hsheds
  have hbudget := hbudget r
  rw [hreport] at hbudget
  exact ⟨hstore, hcl, hepoch, by rw [hbudget], by rw [hbudget], by rw [hbudget]⟩

/-- A grant changes nothing of a region's room, caps and Holds, nor what it asked for. -/
theorem sendGrant_keeps (s : State) (r seq : Nat) :
    (s.sendGrant r seq).roomFor r = s.roomFor r ∧ (s.sendGrant r seq).capOf r = s.capOf r ∧
    (s.sendGrant r seq).region r = { s.region r with budget := { (s.region r).budget with issued := s.grantFor r } } := by
  obtain ⟨hroom, hcap⟩ := setIssued_limits s r (s.grantFor r)
  exact ⟨hroom, hcap, State.setRegion_region_same _ _ _⟩

theorem budgetReq_granted {r : Nat} {req : Word} {s : State} (hr : r < 16) (hreq : bitsOf req 3 0 = r) (hholder : s.holder.isSome) :
    ∃ t : State, exec (.budgetReq r req) s = .next t ∧ NoStore s t ∧ t.clusters = s.clusters ∧ (t.region r).budget.seq = bitsOf req 15 4 ∧
      (t.region r).budget.measured = bitsOf req 31 16 ∧ (t.region r).budget.forecast = bitsOf req 47 32 ∧
      (t.powerHeld r = false → ∃ g m, Output.budgetGrant r (bitsOf req 15 4) g m s.mgt.epoch ∈ t.out ∧ (t.region r).budget.issued = g ∧
        baseOf r ≤ g ∧ g ≤ max (baseOf r) (t.roomFor r) ∧ t.capOf r ≤ m ∧ m ≤ 8) := by
  obtain ⟨hstore, hcl, hepoch, hseq, hmeasured, hforecast⟩ := requested_keeps s r req
  rw [exec_budgetReq hr hreq hholder]
  generalize s.requested r req = u at *
  split
  next hheld => exact ⟨u, rfl, hstore, hcl, hseq, hmeasured, hforecast, fun h => absurd hheld (by simp [h])⟩
  next =>
    obtain ⟨hroom, hcap, hregion⟩ := sendGrant_keeps u r (bitsOf req 15 4)
    refine ⟨_, rfl, hstore, hcl, by rw [hregion]; exact hseq, by rw [hregion]; exact hmeasured, by rw [hregion]; exact hforecast,
      fun _ => ⟨u.grantFor r, u.maxStepFor r, ?_, by rw [hregion], baseOf_le_grantFor u r, ?_, ?_, maxStepFor_le u r⟩⟩
    · rw [← hepoch]
      exact List.mem_append_right _ (List.mem_singleton_self _)
    · rw [hroom]
      exact grantFor_le u r
    · rw [hcap]
      exact capOf_le_maxStepFor u r

/-- A steward takes a grant: what it says is applied from now on, and gating is judged anew (R472). -/
def State.takeGrant (s : State) (r now : Nat) (g : BitVec 96) : State :=
  (s.modRegion r (fun v => { v with budget := { v.budget with
    grant := bitsOf g 31 16, maxStep := bitsOf g 35 32, lastGrant := now, fallback := false } })).regate r

theorem exec_budgetGrant {r : Nat} {g : BitVec 96} {s : State} (hr : r < 16) (hreg : bitsOf g 3 0 = r) (hres : bitsOf g 63 36 = 0) :
    exec (.budgetGrant r g) s = .next (s.regionCmd r (bitsOf g 95 64) (fun t =>
      if ((t.takeGrant r s.now g).region r).part.isNone && (t.takeGrant r s.now g).boot.complete
      then (t.takeGrant r s.now g).boundaryStep r else t.takeGrant r s.now g)) := if_pos ⟨hr, hreg, hres⟩

theorem onlyRegions_takeGrant (s : State) (r now : Nat) (g : BitVec 96) : OnlyRegions s (s.takeGrant r now g) :=
  (onlyRegions_setRegion s r _).trans (onlyRegions_setRegion _ r _)

theorem takeGrant_region_ne (s : State) {r q : Nat} (now : Nat) (g : BitVec 96) (hq : q ≠ r) :
    (s.takeGrant r now g).region q = s.region q := by
  simp only [State.takeGrant, State.regate, State.modRegion_eq, State.setRegion_region_ne _ _ _ _ hq]

/-- A grant leaves the gating to what the region draws, and the rest of the budget to what it says. -/
theorem takeGrant_region_same (s : State) (r now : Nat) (g : BitVec 96) : ∃ k, (s.takeGrant r now g).region r =
    { s.region r with budget := { (s.region r).budget with
      grant := bitsOf g 31 16, maxStep := bitsOf g 35 32, lastGrant := now, fallback := false, gating := k } } := by
  simp only [State.takeGrant, State.regate, State.modRegion_eq, State.setRegion_region_same]
  exact ⟨_, rfl⟩

/-- A region of a partition, or of a panel not yet up, keeps its step until a boundary (R285). -/
theorem exec_budgetGrant_kept {r : Nat} {g : BitVec 96} {s : State} (hr : r < 16) (hreg : bitsOf g 3 0 = r) (hres : bitsOf g 63 36 = 0)
    (he : (s.region r).epoch ≤ bitsOf g 95 64) (hstay : (s.region r).part.isSome ∨ s.boot.complete = false) :
    exec (.budgetGrant r g) s = .next ((s.atEpoch r (bitsOf g 95 64)).takeGrant r s.now g) := by
  rw [exec_budgetGrant hr hreg hres, regionCmd_taken he, if_neg]
  obtain ⟨k, hregion⟩ := takeGrant_region_same (s.atEpoch r (bitsOf g 95 64)) r s.now g
  rw [hregion, atEpoch_region_same]
  change ¬((s.region r).part.isNone && s.boot.complete) = true
  rcases hstay with h | h
  · simp [Option.isSome_iff_ne_none.mp h]
  · simp [h]

/-- One of no partition changes it at once (R285). -/
theorem exec_budgetGrant_applied {r : Nat} {g : BitVec 96} {s : State} (hr : r < 16) (hreg : bitsOf g 3 0 = r) (hres : bitsOf g 63 36 = 0)
    (he : (s.region r).epoch ≤ bitsOf g 95 64) (hpart : (s.region r).part = none) (hboot : s.boot.complete = true) :
    exec (.budgetGrant r g) s = .next (((s.atEpoch r (bitsOf g 95 64)).takeGrant r s.now g).boundaryStep r) := by
  rw [exec_budgetGrant hr hreg hres, regionCmd_taken he, if_pos]
  obtain ⟨k, hregion⟩ := takeGrant_region_same (s.atEpoch r (bitsOf g 95 64)) r s.now g
  rw [hregion, atEpoch_region_same]
  change ((s.region r).part.isNone && s.boot.complete) = true
  simp [hpart, hboot]

/-- A steward without grants falls back on what R473 says. -/
def State.fallBack (s : State) (r : Nat) : State :=
  (s.modRegion r (fun v => { v with budget := { (s.region r).budget with
    grant := min (s.region r).budget.grant (bitsOf (s.reg 0x700580) 15 0 * 10 / 16), fallback := true } })).regate r

theorem exec_grantTimeout {r : Nat} {s : State} (hr : r < 16) (hlate : (s.region r).budget.lastGrant + 30000 ≤ s.now) :
    exec (.grantTimeout r) s = .next (if (s.region r).budget.fallback then s.fallBack r
      else (s.fallBack r).note 0x1B03 { region := r, part := ((s.region r).part).getD 31, detail := [r] }) := if_pos ⟨hr, hlate⟩

theorem fallBack_budget (s : State) (r : Nat) : ((s.fallBack r).region r).budget.fallback = true ∧
    ((s.fallBack r).region r).budget.grant = min (s.region r).budget.grant (bitsOf (s.reg 0x700580) 15 0 * 10 / 16) := by
  simp only [State.fallBack, State.regate, State.modRegion_eq, State.setRegion_region_same, and_self]

theorem noStore_fallBack (s : State) (r : Nat) : NoStore s (s.fallBack r) := ⟨rfl, rfl, rfl⟩

/-- Settles O39: a request is kept and its grant drawn within the limits; a grant is refused, taken, or applied by the
equations above. -/
theorem budgetExchange : Obligations.BudgetExchange := by
  unfold Obligations.BudgetExchange
  refine ⟨fun r req s hr hreq hholder => budgetReq_granted hr hreq hholder, fun r req s h => exec_budgetReq_dropped h,
    fun r g s hr hreg hres => ?_, fun r s hr => ⟨fun hlate => ?_, fun hearly => ?_⟩, fun excess _ => ⟨rfl, rfl, rfl, rfl, ?_⟩⟩
  · refine ⟨fun he => ?_, fun he hstay => ?_, fun he hpart hboot => ?_⟩
    · rw [exec_budgetGrant hr hreg hres, regionCmd_stale he]
      exact ⟨_, rfl, rfl, State.setRegion_region_same _ _ _, fun q hq => State.setRegion_region_ne _ _ _ _ hq⟩
    · obtain ⟨k, hregion⟩ := takeGrant_region_same (s.atEpoch r (bitsOf g 95 64)) r s.now g
      refine ⟨_, exec_budgetGrant_kept hr hreg hres he hstay, (onlyRegions_atEpoch s r _).trans (onlyRegions_takeGrant _ r s.now g), fun q hq => ?_, ?_⟩
      · rw [takeGrant_region_ne _ _ _ hq, atEpoch_region_ne _ _ hq]
      · rw [hregion, atEpoch_region_same]
        exact ⟨rfl, rfl, rfl, rfl, rfl⟩
    · obtain ⟨k, hregion⟩ := takeGrant_region_same (s.atEpoch r (bitsOf g 95 64)) r s.now g
      refine ⟨_, exec_budgetGrant_applied hr hreg hres he hpart hboot, (onlyRegions_atEpoch s r _).trans (onlyRegions_takeGrant _ r s.now g), ?_⟩
      rw [hregion]
      exact ⟨rfl, rfl⟩
  · obtain ⟨hfallback, hgrant⟩ := fallBack_budget s r
    have hstore := noStore_fallBack s r
    refine ⟨_, exec_grantTimeout hr hlate, ?_⟩
    generalize s.fallBack r = u at *
    split
    next hbefore => exact ⟨hstore, hfallback, hgrant, fun h => absurd hbefore (by simp [h])⟩
    next =>
      rw [State.note_region]
      exact ⟨hstore.trans (noStore_note _ _ _), hfallback, hgrant, fun _ => logged_note _ _ _⟩
  · exact if_neg (by omega)
  · cases excess <;> rfl

end Sys2Proof.Machine

namespace Sys2Proof.Machine
open Sys2Proof

/-! ## Rows and bytes left out of their tables -/

theorem Tbl.get_drop {α : Type} (d : Nat → α) (p : Nat → Bool) (t : Tbl α) (k : Nat) :
    Tbl.get d (Tbl.drop p t) k = if p k then d k else Tbl.get d t k := by
  induction t with
  | nil => simp [Tbl.drop, Tbl.get]
  | cons e t ih =>
    obtain ⟨j, w⟩ := e
    unfold Tbl.drop at ih ⊢
    by_cases hj : p j
    · rw [List.filter_cons_of_neg (by simp [hj]), ih]
      by_cases hk : k = j
      · simp [hk, hj]
      · simp [Tbl.get, hk]
    · rw [List.filter_cons_of_pos (by simp [hj]), Tbl.get, ih]
      by_cases hk : k = j
      · simp [hk, hj, Tbl.get]
      · simp [Tbl.get, hk]

theorem rowKey_div (c : Nat) {n : Nat} (hn : n < 16384) : rowKey c n / 16384 = c := by
  unfold rowKey
  omega

/-- The rows of the clusters of which p holds are left out of tarn: they read zero and EMPTY. -/
theorem get_drop_rows (p : Nat → Bool) (t : Tbl TarnRow) (c : Nat) {n : Nat} (hn : n < 16384) :
    Tbl.get (fun _ => {}) (Tbl.drop (fun k => p (k / 16384)) t) (rowKey c n) = if p c then {} else Tbl.get (fun _ => {}) t (rowKey c n) := by
  rw [Tbl.get_drop, rowKey_div c hn]

theorem loseSlice_rawByte (s : State) (r a : Nat) :
    (s.loseSlice r).rawByte a = if r * s.sliceSize ≤ a ∧ a < (r + 1) * s.sliceSize then 0 else s.rawByte a := by
  unfold State.loseSlice State.rawByte
  simp only [Tbl.get_drop, Bool.and_eq_true, decide_eq_true_eq, Nat.succ_mul]

/-! ## Changes of regions alone -/

theorem OnlyRegions.refl (s : State) : OnlyRegions s s := by
  unfold OnlyRegions
  rfl

theorem OnlyRegions.ite {s t u : State} {p : Prop} [Decidable p] (ht : OnlyRegions s t) (hu : OnlyRegions s u) :
    OnlyRegions s (if p then t else u) := by
  split
  · exact ht
  · exact hu

theorem OnlyRegions.noStore {s t : State} (h : OnlyRegions s t) : NoStore s t := by
  rw [← h]
  exact ⟨rfl, rfl, rfl⟩

theorem onlyRegions_startChange (s : State) (r k : Nat) : OnlyRegions s (s.startChange r k) :=
  .ite (.refl s) (onlyRegions_setRegion s r _)

theorem startChange_region_ne (s : State) {r q : Nat} (k : Nat) (hq : q ≠ r) : (s.startChange r k).region q = s.region q := by
  unfold State.startChange
  split
  · rfl
  · exact State.setRegion_region_ne _ _ _ _ hq

theorem onlyRegions_restorePartner (s : State) (r : Nat) (b : SoftStart) : OnlyRegions s (s.restorePartner r b) := by
  have hheld : OnlyRegions s (if b.partnerHeld then s.modRegion (partnerOf r) (releaseRegion .softStart) else s) :=
    .ite (onlyRegions_setRegion s _ _) (.refl s)
  unfold State.restorePartner
  dsimp only
  split
  · exact hheld.trans (onlyRegions_startChange _ _ _)
  · exact hheld

/-- What returns the partner to its former step changes the partner alone. -/
theorem restorePartner_region_ne (s : State) {r q : Nat} (b : SoftStart) (hq : q ≠ partnerOf r) :
    (s.restorePartner r b).region q = s.region q := by
  have hheld : (if b.partnerHeld then s.modRegion (partnerOf r) (releaseRegion .softStart) else s).region q = s.region q := by
    split
    · exact State.setRegion_region_ne _ _ _ _ hq
    · rfl
  unfold State.restorePartner
  dsimp only
  split
  · rw [startChange_region_ne _ _ hq, hheld]
  · exact hheld

theorem modSoft_eq {s : State} {r : Nat} {b : SoftStart} (hsoft : (s.region r).soft = some b) (f : SoftStart → SoftStart) :
    s.modSoft r f = s.setRegion r { s.region r with soft := some (f b) } := by
  unfold State.modSoft
  rw [State.modRegion_eq, hsoft]
  rfl

/-! ## Clusters of a region -/

theorem modRegionClusters_cl_ne (s : State) {r c : Nat} (f : Nat → Cluster → Cluster) (hc : regionOf c ≠ r) :
    (s.modRegionClusters r f).cl c = s.cl c := by
  rcases Tbl.get_mapVal (fun _ => ({} : Cluster)) (fun c v => if regionOf c = r then f c v else v) s.clusters c with h | ⟨hold, hnew⟩
  · rw [if_neg hc] at h
    exact h
  · exact hnew.trans hold.symm

/-- A cluster of the region is changed, or is one that the table does not list. -/
theorem modRegionClusters_cl (s : State) {r c : Nat} (f : Nat → Cluster → Cluster) (hc : regionOf c = r) :
    (s.modRegionClusters r f).cl c = f c (s.cl c) ∨ (s.cl c = {} ∧ (s.modRegionClusters r f).cl c = {}) := by
  have h := Tbl.get_mapVal (fun _ => ({} : Cluster)) (fun c v => if regionOf c = r then f c v else v) s.clusters c
  rw [if_pos hc] at h
  exact h

/-- What holds of a changed cluster holds of every cluster of the region, if it holds of one that is not listed. -/
theorem modRegionClusters_elim {P : Cluster → Cluster → Prop} (s : State) {r c : Nat} (f : Nat → Cluster → Cluster) (hc : regionOf c = r)
    (hf : P (s.cl c) (f c (s.cl c))) (hnone : P {} {}) : P (s.cl c) ((s.modRegionClusters r f).cl c) := by
  rcases modRegionClusters_cl s f hc with h | ⟨hold, hnew⟩
  · rw [h]
    exact hf
  · rw [hold, hnew]
    exact hnone

theorem mem_clustersOfRegion (c : Nat) : c ∈ clustersOfRegion (regionOf c) := by
  refine List.mem_map.mpr ⟨localOf c, List.mem_range.mpr ?_, ?_⟩
  · unfold localOf
    omega
  · unfold clusterAt regionOf localOf
    omega

theorem vacant_congr {s t : State} {c : Nat} (he : t.enabled = s.enabled)
    (hmap : (t.region (regionOf c)).cmap = (s.region (regionOf c)).cmap) : t.vacant c = s.vacant c := by
  unfold State.vacant State.cmapEntry State.factoryEntry State.enabledAt
  rw [he, hmap]

/-- Clusters come back Idle, but for vacant positions and Failed ones (R62). -/
theorem foldl_idle_cl (l : List Nat) (s : State) (c : Nat) :
    (l.foldl (fun (t : State) c => if t.vacant c ∨ (t.cl c).st = .failed then t else t.modCl c (fun v => { v with st := .idle })) s).cl c =
      if c ∈ l ∧ s.vacant c = false ∧ (s.cl c).st ≠ .failed then { s.cl c with st := .idle } else s.cl c := by
  induction l generalizing s with
  | nil => simp
  | cons d l ih =>
    rw [List.foldl_cons, ih]
    split
    next hskip =>
      by_cases hcd : c = d
      · subst hcd
        rw [if_neg, if_neg] <;> (rintro ⟨-, hv, hst⟩; rcases hskip with h | h <;> simp_all)
      · simp [hcd]
    next hgo =>
      have hvacant : (s.modCl d (fun v => { v with st := .idle })).vacant c = s.vacant c := rfl
      rw [hvacant, State.modCl_eq, State.setCl_cl]
      by_cases hcd : c = d
      · subst hcd
        simp_all
      · simp [hcd]

theorem idleClusters_cl (s : State) {r c : Nat} (hr : regionOf c = r) (hv : s.vacant c = false) (hst : (s.cl c).st ≠ .failed) :
    ((s.idleClusters r).cl c).st = .idle := by
  unfold State.idleClusters
  rw [foldl_idle_cl, if_pos ⟨hr ▸ mem_clustersOfRegion c, hv, hst⟩]

theorem idleClusters_keeps (s : State) (r : Nat) :
    NoStore s (s.idleClusters r) ∧ (s.idleClusters r).regions = s.regions ∧ (s.idleClusters r).hbms = s.hbms := by
  simp [NoStore, State.idleClusters]

/-! ## Links and crossings of a region (R292, R484) -/

/-- Nothing is stored, and clusters, regions and stacks are as they were. -/
def OnlyLinks (s t : State) : Prop := NoStore s t ∧ t.clusters = s.clusters ∧ t.regions = s.regions ∧ t.hbms = s.hbms

theorem OnlyLinks.refl (s : State) : OnlyLinks s s := ⟨.refl s, rfl, rfl, rfl⟩

theorem OnlyLinks.trans {s t u : State} (hst : OnlyLinks s t) (htu : OnlyLinks t u) : OnlyLinks s u := by
  obtain ⟨hstore, hcl, hreg, hhbm⟩ := hst
  obtain ⟨hstore', hcl', hreg', hhbm'⟩ := htu
  exact ⟨hstore.trans hstore', hcl'.trans hcl, hreg'.trans hreg, hhbm'.trans hhbm⟩

theorem OnlyLinks.ite {s t u : State} {p : Prop} [Decidable p] (ht : OnlyLinks s t) (hu : OnlyLinks s u) :
    OnlyLinks s (if p then t else u) := by
  split
  · exact ht
  · exact hu

theorem OnlyLinks.foldl {α : Type} {g : State → α → State} (hg : ∀ t a, OnlyLinks t (g t a)) (l : List α) (s : State) :
    OnlyLinks s (l.foldl g s) := by
  induction l generalizing s with
  | nil => exact .refl s
  | cons a l ih => exact (hg s a).trans (ih _)

theorem onlyLinks_setFabLink (s : State) (r n : Nat) (v : FabLink) : OnlyLinks s (s.setFabLink r n v) := ⟨.refl s, rfl, rfl, rfl⟩

theorem onlyLinks_setXing (s : State) (x : Nat) (v : Crossing) : OnlyLinks s (s.setXing x v) := ⟨.refl s, rfl, rfl, rfl⟩

theorem onlyLinks_note (s : State) (code : Nat) (src : Source) : OnlyLinks s (s.note code src) := by
  simp [OnlyLinks, noStore_note]

theorem onlyLinks_fixPerim (s : State) (r die : Nat) : OnlyLinks s (s.fixPerim r die) := by
  have hentry (e : Tbl (BitVec 32)) : OnlyLinks s { s with perimRoutes := e } := ⟨.refl s, rfl, rfl, rfl⟩
  unfold State.fixPerim
  exact .ite ((hentry _).trans (onlyLinks_note _ _ _)) (hentry _)

theorem onlyLinks_setPortBit (s : State) (r d port : Nat) (on : Bool) : OnlyLinks s (s.setPortBit r d port on) := by
  have hroute (t : State) (r d : Nat) (e : BitVec 32) : OnlyLinks t (t.setRoute r d e) := ⟨.refl t, rfl, rfl, rfl⟩
  unfold State.setPortBit
  exact .trans (.trans ((hroute s r d _).trans (hroute _ d r _)) (.foldl (fun t _ => onlyLinks_fixPerim t _ _) _ _))
    (.foldl (fun t _ => onlyLinks_fixPerim t _ _) _ _)

theorem onlyLinks_calibrateAround (s : State) (r : Nat) : OnlyLinks s (s.calibrateAround r) :=
  .foldl (fun t _ => onlyLinks_setXing t _ _) _ s

theorem onlyLinks_restoreLinks (s : State) (r : Nat) : OnlyLinks s (s.restoreLinks r) := by
  unfold State.restoreLinks
  exact .trans (.trans (.trans (.foldl (fun t _ => .ite (onlyLinks_setFabLink t _ _ _) (.refl t)) _ s)
    (.foldl (fun t _ => (onlyLinks_setPortBit t _ _ _ _).trans (onlyLinks_setPortBit _ _ _ _ _)) _ _))
    (.foldl (fun t _ => onlyLinks_setXing t _ _) _ _)) (onlyLinks_calibrateAround _ r)

/-! ## Soft start (R481 to R484) -/

/-- A soft start whose rails have ramped and whose partner is restored. -/
def SoftStart.rampDone (b : SoftStart) : SoftStart := { b with ramped := true, partnerStep := none, partnerHeld := false, partnerDue := false }

/-- A region whose rails have ramped: at step 8, its cycle counter at zero. -/
def Region.rampedUp (v : Region) (b : SoftStart) : Region := { v with step := 8, cycle := 0, halfPeriods := 0, soft := some b.rampDone }

/-- The state the ramp of the rails leaves, but for the partner. -/
def State.rampedUp (s : State) (r : Nat) (b : SoftStart) : State :=
  { s.setRegion r ((s.region r).rampedUp b) with tarn := Tbl.drop (fun k => regionOf (k / 16384) == r) s.tarn }

theorem rampedUp_region_same (s : State) (r : Nat) (b : SoftStart) : (s.rampedUp r b).region r = (s.region r).rampedUp b :=
  State.setRegion_region_same _ _ _

section
variable {r : Nat} {s : State} {b : SoftStart}

theorem exec_regionPowerUp (hr : r < 16) (hdark : (s.region r).pstate = .dark) (hpart : (s.region r).part = none)
    (htrips : (s.region r).darkTrips < 2) (hsoft : (s.region r).soft = none) (hkill : s.bpm.killed = false) :
    exec (.regionPowerUp r) s = .next (s.setRegion r { s.region r with soft := some { started := s.now } }) :=
  if_pos ⟨hr, hdark, hpart, htrips, hsoft, hkill⟩

theorem exec_regionPowerUp_refused (h : (s.region r).pstate ≠ .dark ∨ (s.region r).part.isSome ∨ 2 ≤ (s.region r).darkTrips ∨
    (s.region r).soft.isSome ∨ s.bpm.killed = true) : exec (.regionPowerUp r) s = .next s := by
  refine if_neg ?_
  rintro ⟨-, hdark, hpart, htrips, hsoft, hkill⟩
  rw [hpart, hsoft, hkill] at h
  simp_all
  omega

/-- Without a soft start in progress none of its events acts. -/
theorem exec_softStart_none (hsoft : (s.region r).soft = none) (iseg : Nat) :
    exec (.softStartCheck r iseg) s = .next s ∧ exec (.softStartStepDown r) s = .next s ∧ exec (.softStartAbandon r) s = .next s ∧
    exec (.softStartDone r) s = .next s ∧ exec (.regionPowerUpDone r) s = .next s := by
  refine ⟨?_, ?_, ?_, ?_, ?_⟩
  · change execSoftStartCheck r iseg s = _
    simp only [execSoftStartCheck, hsoft]
  · change execSoftStartStepDown r s = _
    simp only [execSoftStartStepDown, hsoft]
  · change execSoftStartAbandon r s = _
    simp only [execSoftStartAbandon, hsoft]
  · change execSoftStartDone r s = _
    simp only [execSoftStartDone, hsoft]
  · change execRegionPowerUpDone r s = _
    simp only [execRegionPowerUpDone, hsoft]

variable (hsoft : (s.region r).soft = some b)
include hsoft

theorem exec_softStartCheck_begun {iseg : Nat} (hbegun : b.begun = none) (hopen : s.now ≤ b.started + 5 * ticksPerMs) (hok : s.admits r iseg = true) :
    exec (.softStartCheck r iseg) s = .next (s.setRegion r { s.region r with soft := some { b with begun := some s.now } }) := by
  change execSoftStartCheck r iseg s = _
  simp only [execSoftStartCheck, hsoft, modSoft_eq hsoft]
  simp [hbegun, hopen, hok]

theorem exec_softStartCheck_refused {iseg : Nat} (h : b.begun.isSome ∨ s.admits r iseg = false) : exec (.softStartCheck r iseg) s = .next s := by
  change execSoftStartCheck r iseg s = _
  simp only [execSoftStartCheck, hsoft]
  refine if_neg ?_
  rcases h with h | h
  · simp [Option.isSome_iff_ne_none.mp h]
  · simp [h]

theorem exec_softStartStepDown_early (hearly : s.now < b.started + 5 * ticksPerMs) : exec (.softStartStepDown r) s = .next s := by
  change execSoftStartStepDown r s = _
  simp only [execSoftStartStepDown, hsoft]
  exact if_pos (by simp [hearly])

/-- A partner of no partition, in Run and without a step change, steps down at once, or from step 8 enters Hold (R483). -/
theorem exec_softStartStepDown (hbegun : b.begun = none) (hdue : b.partnerDue = false) (hstep : b.partnerStep = none) (hheld : b.partnerHeld = false)
    (hlate : b.started + 5 * ticksPerMs ≤ s.now) (hrun : (s.region (partnerOf r)).pstate = .run) (hpart : (s.region (partnerOf r)).part = none)
    (hchange : (s.region (partnerOf r)).change = none) :
    exec (.softStartStepDown r) s = if (s.region (partnerOf r)).step = 8
      then .next ((s.modRegion (partnerOf r) (holdRegion .softStart)).modSoft r (fun b => { b with partnerHeld := true }))
      else .next ((s.startChange (partnerOf r) ((s.region (partnerOf r)).step + 1)).modSoft r
        (fun b => { b with partnerStep := some (s.region (partnerOf r)).step })) := by
  have hgo : ¬(b.begun.isSome || b.partnerDue || b.partnerStep.isSome || b.partnerHeld || decide (s.now < b.started + 5 * ticksPerMs) ||
      decide ((s.region (partnerOf r)).pstate ≠ .run)) = true := by
    simp [hbegun, hdue, hstep, hheld, hrun, hlate]
  change execSoftStartStepDown r s = _
  simp only [execSoftStartStepDown, hsoft, if_neg hgo, hpart, hchange]
  rfl

theorem exec_softStartAbandon (hbegun : b.begun = none) (hlate : b.started + bitsOf (s.reg 0x700588) 13 0 * ticksPerMs ≤ s.now)
    (hboot : s.inEvent 5 = false) : exec (.softStartAbandon r) s =
      .next (((s.setRegion r { s.region r with soft := none }).restorePartner r b).note 0x0B06 { region := r, detail := [r] }) := by
  change execSoftStartAbandon r s = _
  simp [execSoftStartAbandon, hsoft, hbegun, hlate, hboot]

theorem exec_softStartAbandon_begun (hbegun : b.begun.isSome) : exec (.softStartAbandon r) s = .next s := by
  change execSoftStartAbandon r s = _
  simp [execSoftStartAbandon, hsoft, Option.isSome_iff_ne_none.mp hbegun]

theorem exec_softStartDone {t0 : Nat} (hbegun : b.begun = some t0) (hramp : b.ramped = false) (hlate : t0 + 12800 ≤ s.now) :
    exec (.softStartDone r) s = .next ((s.rampedUp r b).restorePartner r b) := by
  have hgo : ¬(b.ramped || decide (s.now < t0 + 12800)) = true := by simp [hramp, hlate]
  change execSoftStartDone r s = _
  unfold execSoftStartDone
  rw [hsoft]
  dsimp only
  split
  next t1 ht1 =>
    obtain rfl : t0 = t1 := Option.some.inj (hbegun.symm.trans ht1)
    exact if_neg hgo
  next hnone => exact absurd (hbegun.symm.trans hnone) (by simp)

theorem exec_softStartDone_early {t0 : Nat} (hbegun : b.begun = some t0) (hearly : s.now < t0 + 12800) : exec (.softStartDone r) s = .next s := by
  change execSoftStartDone r s = _
  simp [execSoftStartDone, hsoft, hbegun, hearly]

theorem exec_regionPowerUpDone (hramp : b.ramped = true) (hstage : b.bootStage = 0) (hboot : s.inEvent 5 = false) :
    exec (.regionPowerUpDone r) s = .next (s.regionUp r) := by
  change execRegionPowerUpDone r s = _
  simp only [execRegionPowerUpDone, hsoft]
  exact if_pos ⟨hramp, hstage, hboot⟩

theorem exec_regionPowerUpDone_early (hramp : b.ramped = false) : exec (.regionPowerUpDone r) s = .next s := by
  change execRegionPowerUpDone r s = _
  simp [execRegionPowerUpDone, hsoft, hramp]

end

/-- The stacks of a region that comes up are trained, and its soft start is over. -/
def State.trainStacks (s : State) (r : Nat) : State :=
  let e := s.wakeState
  let heal := (s.hbm (2 * r)).failed && (s.hbm (2 * r + 1)).failed
  let train := fun (v : Stack) => { v with trained := true, failed := v.failed && !heal, selfRefresh := decide (e.1 = .quiet) }
  let t := s.modRegion r (fun v => { v with soft := none, pstate := e.1, causes := e.2, inService := true, retire := false })
  (t.modHbm (2 * r) train).modHbm (2 * r + 1) train

theorem trainStacks_region (s : State) (r : Nat) : (s.trainStacks r).region r =
    { s.region r with soft := none, pstate := s.wakeState.1, causes := s.wakeState.2, inService := true, retire := false } := by
  simp only [State.trainStacks, State.modHbm_eq, State.setHbm_region, State.modRegion_eq, State.setRegion_region_same]

theorem trainStacks_trained (s : State) (r : Nat) :
    ((s.trainStacks r).hbm (2 * r)).trained = true ∧ ((s.trainStacks r).hbm (2 * r + 1)).trained = true := by
  unfold State.trainStacks
  simp only [State.modHbm_eq, State.setHbm_hbm]
  simp

theorem trainStacks_cl (s : State) (r c : Nat) : (s.trainStacks r).cl c = s.cl c := by
  simp [State.trainStacks]

theorem trainStacks_vacant (s : State) (r c : Nat) : (s.trainStacks r).vacant c = s.vacant c := by
  refine vacant_congr rfl ?_
  simp only [State.trainStacks, State.modHbm_eq, State.setHbm_region, State.modRegion_eq, State.setRegion_region]
  split
  next h => rw [h]
  next => rfl

/-- A region that comes up: its soft start is over, its stacks are trained, and its mapped clusters are Idle (R62, R484). -/
theorem regionUp_keeps (s : State) (r : Nat) :
    NoStore s (s.regionUp r) ∧ (s.regionUp r).region r = (s.trainStacks r).region r ∧
    (∀ k, (s.regionUp r).hbm k = (s.trainStacks r).hbm k) ∧
    ∀ c, regionOf c = r → s.vacant c = false → (s.cl c).st ≠ .failed → ((s.regionUp r).cl c).st = .idle := by
  obtain ⟨hlstore, hlcl, hlreg, hlhbm⟩ := onlyLinks_restoreLinks ((s.trainStacks r).idleClusters r) r
  obtain ⟨histore, hireg, hihbm⟩ := idleClusters_keeps (s.trainStacks r) r
  have hstore : NoStore s (s.trainStacks r) := ⟨rfl, rfl, rfl⟩
  refine ⟨(hstore.trans histore).trans hlstore, ?_, fun k => ?_, fun c hr hv hst => ?_⟩
  · exact congrArg (fun m => Tbl.get (fun _ => ({} : Region)) m r) (hlreg.trans hireg)
  · exact congrArg (fun m => Tbl.get (fun _ => ({} : Stack)) m k) (hlhbm.trans hihbm)
  · rw [← trainStacks_vacant s r] at hv
    rw [← trainStacks_cl s r] at hst
    rw [← idleClusters_cl (s.trainStacks r) hr hv hst]
    exact congrArg (fun m => (Tbl.get (fun _ => ({} : Cluster)) m c).st) hlcl

theorem wakeState_run {s : State} (hcool : s.cool.response = .none) (hbpm : s.bpm.hold = false) : s.wakeState = (.run, []) := by
  simp [State.wakeState, hcool, hbpm]

end Sys2Proof.Machine

namespace Sys2Proof.Machine
open Sys2Proof

/-! ## Commands to a region: Hold, Quiet, Park, Dark (R485 to R488) -/

section
variable {r e : Nat} {s : State} (hr : r < 16)
include hr

theorem exec_holdEntry : exec (.holdEntry r e) s = .next (s.regionCmd r e (fun t => t.modRegion r (holdRegion .command))) := if_pos hr

theorem exec_quietEntry : exec (.quietEntry r e) s = .next (s.regionCmd r e (fun t => t.enterQuiet r .command)) := if_pos hr

theorem exec_parkEntry : exec (.parkEntry r e) s = .next (s.regionCmd r e (fun t => t.enterPark r)) := if_pos hr

theorem exec_parkExit : exec (.parkExit r e) s = .next (s.regionCmd r e (fun t =>
    if (t.region r).pstate = .park ∧ t.bpm.hold = false then
      ((t.modRegion r (fun v => { v with pstate := .run })).idleClusters r).calibrateAround r
    else t)) := if_pos hr

theorem exec_darkCommand : exec (.darkCommand r e) s = .next (s.regionCmd r e (fun t =>
    if (t.region r).part = none ∧ (t.region r).pstate ≠ .dark then t.goDark r else t)) := if_pos hr

end

/-- A command under a stale epoch is counted and does nothing more. -/
theorem stale_of_regionCmd {r e : Nat} {s : State} {i : Instr} {f : State → State} (hexec : exec i s = .next (s.regionCmd r e f))
    (he : e < (s.region r).epoch) : ∃ t : State, exec i s = .next t ∧ { t with regions := s.regions } = s ∧
      (∀ k, k ≠ r → t.region k = s.region k) ∧ t.region r = { s.region r with epochRejects := (s.region r).epochRejects + 1 } := by
  rw [regionCmd_stale he] at hexec
  exact ⟨_, hexec, onlyRegions_setRegion s r _, fun k hk => State.setRegion_region_ne _ _ _ _ hk, State.setRegion_region_same _ _ _⟩

theorem atEpoch_pstate (s : State) (r e : Nat) : ((s.atEpoch r e).region r).pstate = (s.region r).pstate := by
  rw [atEpoch_region_same]

/-! ### Dark -/

section
variable (s : State) (r : Nat)

theorem goDark_region_same : (s.goDark r).region r = darkRegion (s.region r) := by
  have hregions : (s.goDark r).regions = (s.setRegion r (darkRegion (s.region r))).regions := rfl
  unfold State.region at hregions ⊢
  rw [hregions]
  exact State.setRegion_region_same s r _

theorem goDark_region_ne {q : Nat} (hq : q ≠ r) : (s.goDark r).region q = s.region q := by
  have hregions : (s.goDark r).regions = (s.setRegion r (darkRegion (s.region r))).regions := rfl
  unfold State.region at hregions ⊢
  rw [hregions]
  exact State.setRegion_region_ne s r _ _ hq

theorem goDark_trow (c : Nat) {n : Nat} (hn : n < 16384) : (s.goDark r).trow c n = if regionOf c = r then {} else s.trow c n := by
  have htarn : (s.goDark r).tarn = Tbl.drop (fun k => regionOf (k / 16384) == r) s.tarn := rfl
  have hrow := get_drop_rows (fun c => regionOf c == r) s.tarn c hn
  unfold State.trow
  rw [htarn, hrow]
  simp only [beq_iff_eq]

theorem goDark_cl {c : Nat} (hc : regionOf c = r) : ((s.goDark r).cl c).health = (s.cl c).health ∧ (s.goDark r).regsOf c = {} ∧
    ((s.goDark r).cl c).st = if (s.cl c).st = .failed then .failed else .off := by
  have hclusters : (s.goDark r).clusters = (s.modRegionClusters r (fun _ v => darkCluster v)).clusters := rfl
  have hcl : (s.goDark r).cl c = (s.modRegionClusters r (fun _ v => darkCluster v)).cl c := by
    unfold State.cl
    rw [hclusters]
  unfold State.regsOf
  rw [hcl]
  exact modRegionClusters_elim (P := fun v w => w.health = v.health ∧ w.regs = {} ∧ w.st = if v.st = .failed then .failed else .off) s _ hc
    ⟨rfl, rfl, rfl⟩ ⟨rfl, rfl, rfl⟩

theorem goDark_rawByte {a : Nat} (hlo : r * s.sliceSize ≤ a) (hhi : a < (r + 1) * s.sliceSize) : (s.goDark r).rawByte a = 0 := by
  have hmem : (s.goDark r).mem = (s.loseSlice r).mem := rfl
  have hbyte : (s.goDark r).rawByte a = (s.loseSlice r).rawByte a := by
    unfold State.rawByte
    rw [hmem]
  rw [hbyte, loseSlice_rawByte, if_pos ⟨hlo, hhi⟩]

end

/-! ### Quiet -/

section
variable (s : State) (r : Nat) (cause : HoldCause)

/-- The state a region that goes Quiet leaves (R487). -/
def State.quieted (s : State) (r : Nat) (cause : HoldCause) : State :=
  let t := (s.modRegion r (fun v => { v with pstate := .quiet, causes := [cause], quietTick := s.now })).modRegionClusters r (fun _ v => quietCluster v)
  (t.modHbm (2 * r) (fun v => { v with selfRefresh := true })).modHbm (2 * r + 1) (fun v => { v with selfRefresh := true })

theorem enterQuiet_awake (h : (s.region r).pstate = .run ∨ (s.region r).pstate = .hold) : s.enterQuiet r cause = s.quieted r cause := by
  unfold State.enterQuiet
  rcases h with h | h <;> rw [h] <;> rfl

theorem enterQuiet_down (h : (s.region r).pstate = .park ∨ (s.region r).pstate = .dark) : s.enterQuiet r cause = s := by
  unfold State.enterQuiet
  rcases h with h | h <;> rw [h]

theorem noStore_quieted : NoStore s (s.quieted r cause) := ⟨rfl, rfl, rfl⟩

theorem quieted_region_same : ((s.quieted r cause).region r).pstate = .quiet := by
  have hregion : (s.quieted r cause).region r = { s.region r with pstate := .quiet, causes := [cause], quietTick := s.now } :=
    State.setRegion_region_same s r _
  rw [hregion]

theorem quieted_region_ne {q : Nat} (hq : q ≠ r) : (s.quieted r cause).region q = s.region q := State.setRegion_region_ne s r _ _ hq

theorem quieted_selfRefresh :
    ((s.quieted r cause).hbm (2 * r)).selfRefresh = true ∧ ((s.quieted r cause).hbm (2 * r + 1)).selfRefresh = true := by
  unfold State.quieted
  simp only [State.modHbm_eq, State.setHbm_hbm]
  simp

theorem quieted_cl {c : Nat} (hc : regionOf c = r) : (s.quieted r cause).regsOf c = {} ∧ ((s.quieted r cause).cl c).eng = {} ∧
    ((s.quieted r cause).cl c).ahead = {} ∧ ((s.quieted r cause).cl c).handles = (s.cl c).handles := by
  have hclusters : (s.quieted r cause).cl c = (s.modRegionClusters r (fun _ v => quietCluster v)).cl c := rfl
  unfold State.regsOf
  rw [hclusters]
  exact modRegionClusters_elim (P := fun v w => w.regs = {} ∧ w.eng = {} ∧ w.ahead = {} ∧ w.handles = v.handles) s _ hc
    ⟨rfl, rfl, rfl, rfl⟩ ⟨rfl, rfl, rfl, rfl⟩

theorem quieted_cl_ne {c : Nat} (hc : regionOf c ≠ r) : (s.quieted r cause).cl c = s.cl c :=
  modRegionClusters_cl_ne s (fun _ v => quietCluster v) hc

end

/-! ### Park -/

section
variable (s : State) (r : Nat)

theorem atEpoch_sliceRun (e : Nat) : (s.atEpoch r e).sliceRun r = s.sliceRun r := by
  unfold State.sliceRun
  rw [atEpoch_region_same]
  rfl

theorem atEpoch_parkBlocked (e : Nat) : (s.atEpoch r e).parkBlocked r = s.parkBlocked r := by
  unfold State.parkBlocked
  rw [atEpoch_sliceRun]
  rfl

theorem atEpoch_parkBlocker (e : Nat) : (s.atEpoch r e).parkBlocker r = s.parkBlocker r := by
  unfold State.parkBlocker
  rw [atEpoch_sliceRun]
  rfl

/-- A cluster of a parked region keeps its handles and loses its registers (Table 16.11). -/
def parkCluster (v : Cluster) : Cluster := { quietCluster v with st := if v.st = .failed then .failed else .off }

/-- The state a region that parks leaves (R486). -/
def State.parked (s : State) (r : Nat) : State :=
  ((s.modRegion r (fun v => { v with pstate := .park, causes := [], blocker := none })).modRegionClusters r (fun _ v => parkCluster v)).loseSlice r

theorem enterPark_parked (hawake : (s.region r).pstate = .run ∨ (s.region r).pstate = .hold) (hpart : (s.region r).part = none)
    (hfree : s.parkBlocked r = false) : s.enterPark r = s.parked r := by
  unfold State.enterPark
  dsimp only
  rw [if_neg (not_not.mpr hawake), hpart, hfree]
  rfl

theorem enterPark_blocked (hawake : (s.region r).pstate = .run ∨ (s.region r).pstate = .hold) (hblocked : s.parkBlocked r = true) :
    ∃ src, s.enterPark r = (s.setRegion r { s.region r with blocker := s.parkBlocker r }).note 0x0B06 src := by
  unfold State.enterPark
  dsimp only
  rw [if_neg (not_not.mpr hawake), hblocked, Bool.or_true, if_pos rfl]
  exact ⟨_, rfl⟩

theorem parked_region_same : (s.parked r).region r = { s.region r with pstate := .park, causes := [], blocker := none } :=
  State.setRegion_region_same s r _

theorem parked_region_ne {q : Nat} (hq : q ≠ r) : (s.parked r).region q = s.region q := State.setRegion_region_ne s r _ _ hq

theorem parked_cl {c : Nat} (hc : regionOf c = r) (hst : (s.cl c).st ≠ .failed) :
    ((s.parked r).cl c).st = .off ∧ ((s.parked r).cl c).handles = (s.cl c).handles ∧ (s.parked r).regsOf c = {} := by
  have hclusters : (s.parked r).clusters = (s.modRegionClusters r (fun _ v => parkCluster v)).clusters := rfl
  have hcl : (s.parked r).cl c = (s.modRegionClusters r (fun _ v => parkCluster v)).cl c := by
    unfold State.cl
    rw [hclusters]
  unfold State.regsOf
  rw [hcl]
  exact modRegionClusters_elim (P := fun v w => w.st = .off ∧ w.handles = v.handles ∧ w.regs = {}) s _ hc ⟨if_neg hst, rfl, rfl⟩ ⟨rfl, rfl, rfl⟩

theorem parked_rawByte (a : Nat) :
    (s.parked r).rawByte a = if r * s.sliceSize ≤ a ∧ a < (r + 1) * s.sliceSize then 0 else s.rawByte a := by
  have hmem : (s.parked r).mem = (s.loseSlice r).mem := rfl
  rw [← loseSlice_rawByte]
  unfold State.rawByte
  rw [hmem]

/-- The state a region that leaves Park enters Run in (R62). -/
def State.unparked (s : State) (r : Nat) : State :=
  ((s.setRegion r { s.region r with pstate := .run }).idleClusters r).calibrateAround r

theorem unparked_keeps : NoStore s (s.unparked r) ∧ ((s.unparked r).region r).pstate = .run ∧
    ∀ c, regionOf c = r → s.vacant c = false → (s.cl c).st ≠ .failed → ((s.unparked r).cl c).st = .idle := by
  obtain ⟨hcstore, hccl, hcreg, -⟩ := onlyLinks_calibrateAround ((s.setRegion r { s.region r with pstate := .run }).idleClusters r) r
  obtain ⟨histore, hireg, -⟩ := idleClusters_keeps (s.setRegion r { s.region r with pstate := .run }) r
  refine ⟨((onlyRegions_setRegion s r _).noStore.trans histore).trans hcstore, ?_, fun c hr hv hst => ?_⟩
  · have hregion : (s.unparked r).region r = { s.region r with pstate := .run } := by
      rw [← State.setRegion_region_same s r { s.region r with pstate := .run }]
      exact congrArg (fun m => Tbl.get (fun _ => ({} : Region)) m r) (hcreg.trans hireg)
    rw [hregion]
  · have hvacant : (s.setRegion r { s.region r with pstate := .run }).vacant c = s.vacant c := by
      refine vacant_congr rfl ?_
      rw [hr, State.setRegion_region_same]
    rw [← hvacant] at hv
    rw [← idleClusters_cl (s.setRegion r { s.region r with pstate := .run }) hr hv hst]
    exact congrArg (fun m => (Tbl.get (fun _ => ({} : Cluster)) m c).st) hccl

end

/-! ### The end of Quiet -/

/-- A region of no partition whose one cause of Quiet is over is in Run, its stacks out of self-refresh (R487). -/
def State.woken (s : State) (r : Nat) : State :=
  (((s.modRegion r (fun v => { v with pstate := .run, causes := [] })).calibrateAround r).modHbm (2 * r)
    (fun v => { v with selfRefresh := false })).modHbm (2 * r + 1) (fun v => { v with selfRefresh := false })

theorem exec_quietExit {r : Nat} {s : State} (hr : r < 16) (hquiet : (s.region r).pstate = .quiet) (hcauses : (s.region r).causes = [.command])
    (hbpm : s.bpm.hold = false) (hpart : (s.region r).part = none) : exec (.quietExit r) s = .next (s.woken r) := by
  have hend : s.endQuiet r .command = s.woken r := by
    unfold State.endQuiet State.leaveQuiet
    simp only [hquiet, hcauses, hbpm, hpart]
    rfl
  rw [← hend]
  exact if_pos hr

theorem exec_quietExit_awake {r : Nat} {s : State} (hr : r < 16) (hquiet : (s.region r).pstate ≠ .quiet) : exec (.quietExit r) s = .next s := by
  have hend : s.endQuiet r .command = s := if_neg hquiet
  have hexec : exec (.quietExit r) s = .next (s.endQuiet r .command) := if_pos hr
  rw [hexec, hend]

theorem woken_keeps (s : State) (r : Nat) : NoStore s (s.woken r) ∧ ((s.woken r).region r).pstate = .run ∧
    ((s.woken r).hbm (2 * r)).selfRefresh = false ∧ (s.woken r).clusters = s.clusters := by
  obtain ⟨hstore, hcl, hreg, -⟩ := onlyLinks_calibrateAround (s.setRegion r { s.region r with pstate := .run, causes := [] }) r
  have hregion := congrArg (fun m => Tbl.get (fun _ => ({} : Region)) m r) hreg
  refine ⟨(onlyRegions_setRegion s r _).noStore.trans hstore, ?_, ?_, hcl⟩
  · exact congrArg Region.pstate (hregion.trans (State.setRegion_region_same s r _))
  · unfold State.woken
    simp only [State.modHbm_eq, State.setHbm_hbm]
    simp

end Sys2Proof.Machine

namespace Sys2Proof.Machine
open Sys2Proof

/-! ### The commands and events as the obligation states them -/

section
variable {r : Nat} {s : State} {b : SoftStart} (hsoft : (s.region r).soft = some b)
include hsoft

/-- The partner's step-down changes the two regions alone: at step 8 the partner holds, else it takes one step (R483). -/
theorem softStartStepDown_partner (hbegun : b.begun = none) (hdue : b.partnerDue = false) (hstep : b.partnerStep = none) (hheld : b.partnerHeld = false)
    (hlate : b.started + 5 * ticksPerMs ≤ s.now) (hrun : (s.region (partnerOf r)).pstate = .run) (hpart : (s.region (partnerOf r)).part = none)
    (hchange : (s.region (partnerOf r)).change = none) :
    ∃ t : State, exec (.softStartStepDown r) s = .next t ∧
      ({ t with regions := s.regions } = s ∧ ∀ k, k ≠ r → k ≠ partnerOf r → t.region k = s.region k) ∧
      ((s.region (partnerOf r)).step = 8 → (t.region (partnerOf r)).pstate = .hold ∧ (t.region r).soft = some { b with partnerHeld := true }) ∧
      ((s.region (partnerOf r)).step ≠ 8 → (t.region r).soft = some { b with partnerStep := some (s.region (partnerOf r)).step } ∧
        ∃ c, (t.region (partnerOf r)).change = some c ∧ c.target = (s.region (partnerOf r)).step + 1) := by
  have hne := partnerOf_ne r
  rw [exec_softStartStepDown hsoft hbegun hdue hstep hheld hlate hrun hpart hchange]
  split
  next h8 =>
    have hkeep : (s.setRegion (partnerOf r) (holdRegion .softStart (s.region (partnerOf r)))).region r = s.region r :=
      State.setRegion_region_ne _ _ _ _ hne.symm
    rw [State.modRegion_eq, modSoft_eq (hkeep ▸ hsoft), hkeep]
    refine ⟨_, rfl, ⟨(onlyRegions_setRegion s _ _).trans (onlyRegions_setRegion _ r _), fun k hkr hkq => ?_⟩, fun _ => ⟨?_, ?_⟩, fun h => absurd h8 h⟩
    · rw [State.setRegion_region_ne _ _ _ _ hkr, State.setRegion_region_ne _ _ _ _ hkq]
    · rw [State.setRegion_region_ne _ _ _ _ hne, State.setRegion_region_same]
      simp only [holdRegion, hrun]
    · rw [State.setRegion_region_same]
  next h8 =>
    have hkeep := startChange_region_ne s ((s.region (partnerOf r)).step + 1) hne.symm
    rw [modSoft_eq (hkeep ▸ hsoft), hkeep]
    refine ⟨_, rfl, ⟨(onlyRegions_startChange s _ _).trans (onlyRegions_setRegion _ r _), fun k hkr hkq => ?_⟩, fun h => absurd h h8, fun _ => ⟨?_, ?_⟩⟩
    · rw [State.setRegion_region_ne _ _ _ _ hkr, startChange_region_ne _ _ hkq]
    · rw [State.setRegion_region_same]
    · rw [State.setRegion_region_ne _ _ _ _ hne]
      unfold State.startChange
      rw [if_neg (by simp [hchange]), State.modRegion_eq, State.setRegion_region_same]
      exact ⟨_, rfl, rfl⟩

theorem softStartAbandon_dark (hbegun : b.begun = none) (hlate : b.started + bitsOf (s.reg 0x700588) 13 0 * ticksPerMs ≤ s.now)
    (hboot : s.inEvent 5 = false) : ∃ t : State, exec (.softStartAbandon r) s = .next t ∧ NoStore s t ∧ Logged t 0x0B06 ∧
      (t.region r).soft = none ∧ (t.region r).pstate = (s.region r).pstate := by
  have hregions := (onlyRegions_setRegion s r { s.region r with soft := none }).trans (onlyRegions_restorePartner _ r b)
  refine ⟨_, exec_softStartAbandon hsoft hbegun hlate hboot, hregions.noStore.trans (noStore_note _ _ _), logged_note _ _ _, ?_⟩
  rw [State.note_region, restorePartner_region_ne _ _ (partnerOf_ne r).symm, State.setRegion_region_same]
  exact ⟨rfl, rfl⟩

theorem softStartDone_ramped {t0 : Nat} (hbegun : b.begun = some t0) (hramp : b.ramped = false) (hlate : t0 + 12800 ≤ s.now) :
    ∃ t : State, exec (.softStartDone r) s = .next t ∧ t.mem = s.mem ∧ (t.region r).step = 8 ∧ (t.region r).cycle = 0 ∧
      (∀ c n, c < 4608 → n < 16384 → t.trow c n = if regionOf c = r then {} else s.trow c n) ∧
      ∃ b', (t.region r).soft = some b' ∧ b'.ramped = true ∧ b'.partnerHeld = false ∧ b'.partnerStep = none := by
  obtain ⟨htarn, hmem, -⟩ := (onlyRegions_restorePartner (s.rampedUp r b) r b).noStore
  refine ⟨_, exec_softStartDone hsoft hbegun hramp hlate, hmem, ?_⟩
  rw [restorePartner_region_ne _ _ (partnerOf_ne r).symm, rampedUp_region_same]
  refine ⟨rfl, rfl, fun c n _ hn => ?_, b.rampDone, rfl, rfl, rfl, rfl⟩
  have hrow := get_drop_rows (fun c => regionOf c == r) s.tarn c hn
  unfold State.trow
  rw [htarn]
  simp only [beq_iff_eq] at hrow
  exact hrow

theorem regionPowerUpDone_up (hramp : b.ramped = true) (hstage : b.bootStage = 0) (hboot : s.inEvent 5 = false) :
    ∃ t : State, exec (.regionPowerUpDone r) s = .next t ∧ NoStore s t ∧
      (t.region r).soft = none ∧ (t.region r).inService = true ∧ (t.hbm (2 * r)).trained = true ∧ (t.hbm (2 * r + 1)).trained = true ∧
      (s.cool.response = .none → s.bpm.hold = false → (t.region r).pstate = .run) ∧
      ∀ c, c < 4608 → regionOf c = r → s.vacant c = false → (s.cl c).st ≠ .failed → (t.cl c).st = .idle := by
  obtain ⟨hstore, hregion, hhbm, hidle⟩ := regionUp_keeps s r
  obtain ⟨hlow, hhigh⟩ := trainStacks_trained s r
  refine ⟨_, exec_regionPowerUpDone hsoft hramp hstage hboot, hstore, ?_⟩
  rw [hregion, trainStacks_region, hhbm, hhbm]
  exact ⟨rfl, rfl, hlow, hhigh, fun hcool hbpm => congrArg Prod.fst (wakeState_run hcool hbpm), fun c _ => hidle c⟩

end

section
variable {r e : Nat} {s : State} (hr : r < 16) (he : (s.region r).epoch ≤ e)
include hr he

theorem holdEntry_hold (hrun : (s.region r).pstate = .run) : ∃ t : State, exec (.holdEntry r e) s = .next t ∧ { t with regions := s.regions } = s ∧
    (∀ k, k ≠ r → t.region k = s.region k) ∧ t.region r = { s.region r with epoch := e, pstate := .hold, causes := [.command] } := by
  rw [exec_holdEntry hr, regionCmd_taken he, State.modRegion_eq]
  refine ⟨_, rfl, (onlyRegions_atEpoch s r e).trans (onlyRegions_setRegion _ r _), fun k hk => ?_, ?_⟩
  · rw [State.setRegion_region_ne _ _ _ _ hk, atEpoch_region_ne _ _ hk]
  · rw [State.setRegion_region_same, atEpoch_region_same]
    simp only [holdRegion, hrun]

theorem quietEntry_quiet (hawake : (s.region r).pstate = .run ∨ (s.region r).pstate = .hold) :
    ∃ t : State, exec (.quietEntry r e) s = .next t ∧ NoStore s t ∧ (∀ k, k ≠ r → t.region k = s.region k) ∧ (t.region r).pstate = .quiet ∧
      (t.hbm (2 * r)).selfRefresh = true ∧ (t.hbm (2 * r + 1)).selfRefresh = true ∧
      (∀ c, regionOf c = r → (t.regsOf c) = {} ∧ (t.cl c).eng = {} ∧ (t.cl c).ahead = {} ∧ (t.cl c).handles = (s.cl c).handles) ∧
      ∀ c, regionOf c ≠ r → t.cl c = s.cl c := by
  obtain ⟨hlow, hhigh⟩ := quieted_selfRefresh (s.atEpoch r e) r .command
  rw [exec_quietEntry hr, regionCmd_taken he, enterQuiet_awake _ _ _ (by rwa [atEpoch_pstate])]
  refine ⟨_, rfl, (onlyRegions_atEpoch s r e).noStore.trans (noStore_quieted _ _ _), fun k hk => ?_, quieted_region_same _ _ _, hlow, hhigh, fun c => quieted_cl _ _ _, fun c => quieted_cl_ne _ _ _⟩
  rw [quieted_region_ne _ _ _ hk, atEpoch_region_ne _ _ hk]

theorem quietEntry_down (hdown : (s.region r).pstate = .park ∨ (s.region r).pstate = .dark) :
    ∃ t : State, exec (.quietEntry r e) s = .next t ∧ { t with regions := s.regions } = s ∧ t.region r = { s.region r with epoch := e } := by
  rw [exec_quietEntry hr, regionCmd_taken he, enterQuiet_down _ _ _ (by rwa [atEpoch_pstate])]
  exact ⟨_, rfl, onlyRegions_atEpoch s r e, atEpoch_region_same s r e⟩

theorem parkEntry_park (hawake : (s.region r).pstate = .run ∨ (s.region r).pstate = .hold) (hpart : (s.region r).part = none)
    (hfree : s.parkBlocked r = false) : ∃ t : State, exec (.parkEntry r e) s = .next t ∧ t.tarn = s.tarn ∧ (∀ k, k ≠ r → t.region k = s.region k) ∧
      (t.region r).pstate = .park ∧ (t.region r).causes = [] ∧
      (∀ c, regionOf c = r → (s.cl c).st ≠ .failed → (t.cl c).st = .off ∧ (t.cl c).handles = (s.cl c).handles ∧ t.regsOf c = {}) ∧
      (∀ a, r * s.sliceSize ≤ a → a < (r + 1) * s.sliceSize → t.rawByte a = 0) ∧
      ∀ a, (a < r * s.sliceSize ∨ (r + 1) * s.sliceSize ≤ a) → t.rawByte a = s.rawByte a := by
  have hregion := atEpoch_region_same s r e
  have hbyte (a : Nat) : ((s.atEpoch r e).parked r).rawByte a = if r * s.sliceSize ≤ a ∧ a < (r + 1) * s.sliceSize then 0 else s.rawByte a :=
    parked_rawByte _ _ a
  rw [exec_parkEntry hr, regionCmd_taken he, enterPark_parked _ _ (by rwa [hregion]) (by rwa [hregion]) (by rwa [atEpoch_parkBlocked])]
  refine ⟨_, rfl, rfl, fun k hk => ?_, ?_, ?_, fun c hc hst => parked_cl _ _ hc hst, fun a hlo hhi => ?_, fun a hout => ?_⟩
  · rw [parked_region_ne _ _ hk, atEpoch_region_ne _ _ hk]
  · rw [parked_region_same]
  · rw [parked_region_same]
  · rw [hbyte, if_pos ⟨hlo, hhi⟩]
  · rw [hbyte, if_neg (by omega)]

theorem parkEntry_refused (hawake : (s.region r).pstate = .run ∨ (s.region r).pstate = .hold) (hblocked : s.parkBlocked r = true) :
    ∃ t : State, exec (.parkEntry r e) s = .next t ∧ NoStore s t ∧ Logged t 0x0B06 ∧ (t.region r).pstate = (s.region r).pstate ∧
      (t.region r).blocker = s.parkBlocker r := by
  have hregion := atEpoch_region_same s r e
  obtain ⟨src, hpark⟩ := enterPark_blocked (s.atEpoch r e) r (by rwa [hregion]) (by rwa [atEpoch_parkBlocked])
  rw [exec_parkEntry hr, regionCmd_taken he, hpark]
  refine ⟨_, rfl, ?_, logged_note _ _ _, ?_⟩
  · exact ((onlyRegions_atEpoch s r e).trans (onlyRegions_setRegion _ r _)).noStore.trans (noStore_note _ _ _)
  · rw [State.note_region, State.setRegion_region_same, hregion, atEpoch_parkBlocker]
    exact ⟨rfl, rfl⟩

theorem parkExit_run (hpark : (s.region r).pstate = .park) (hbpm : s.bpm.hold = false) :
    ∃ t : State, exec (.parkExit r e) s = .next t ∧ NoStore s t ∧ (t.region r).pstate = .run ∧
      ∀ c, c < 4608 → regionOf c = r → s.vacant c = false → (s.cl c).st ≠ .failed → (t.cl c).st = .idle := by
  have hregion := atEpoch_region_same s r e
  have hpstate : ((s.atEpoch r e).region r).pstate = .park := by rwa [hregion]
  obtain ⟨hstore, hrun, hidle⟩ := unparked_keeps (s.atEpoch r e) r
  rw [exec_parkExit hr, regionCmd_taken he, if_pos ⟨hpstate, hbpm⟩]
  refine ⟨_, rfl, (onlyRegions_atEpoch s r e).noStore.trans hstore, hrun, fun c _ hc hv hst => hidle c hc ?_ hst⟩
  rw [← hv]
  refine vacant_congr rfl ?_
  rw [hc, hregion]

theorem darkCommand_dark (hpart : (s.region r).part = none) (hup : (s.region r).pstate ≠ .dark) :
    ∃ t : State, exec (.darkCommand r e) s = .next t ∧ (∀ k, k ≠ r → t.region k = s.region k) ∧ (t.region r).pstate = .dark ∧ (t.region r).step = 8 ∧
      (t.region r).cycle = 0 ∧ (∀ c n, c < 4608 → n < 16384 → t.trow c n = if regionOf c = r then {} else s.trow c n) ∧
      (∀ c, regionOf c = r → (t.cl c).health = (s.cl c).health ∧ t.regsOf c = {} ∧ (t.cl c).st = (if (s.cl c).st = .failed then .failed else .off)) ∧
      ∀ a, r * s.sliceSize ≤ a → a < (r + 1) * s.sliceSize → t.rawByte a = 0 := by
  have hregion := atEpoch_region_same s r e
  have hgo : ((s.atEpoch r e).region r).part = none ∧ ((s.atEpoch r e).region r).pstate ≠ .dark := by
    rw [hregion]
    exact ⟨hpart, hup⟩
  rw [exec_darkCommand hr, regionCmd_taken he, if_pos hgo]
  refine ⟨_, rfl, fun k hk => ?_, ?_, ?_, ?_, fun c n _ hn => goDark_trow _ r c hn, fun c hc => goDark_cl _ r hc, fun a hlo hhi => goDark_rawByte _ r hlo hhi⟩
  · rw [goDark_region_ne _ _ hk, atEpoch_region_ne _ _ hk]
  all_goals rw [goDark_region_same]; rfl

theorem darkCommand_kept (hpart : (s.region r).part.isSome) :
    ∃ t : State, exec (.darkCommand r e) s = .next t ∧ { t with regions := s.regions } = s ∧ t.region r = { s.region r with epoch := e } := by
  have hstay : ¬(((s.atEpoch r e).region r).part = none ∧ ((s.atEpoch r e).region r).pstate ≠ .dark) := by
    rw [atEpoch_region_same]
    rintro ⟨hnone, -⟩
    exact Option.isSome_iff_ne_none.mp hpart hnone
  rw [exec_darkCommand hr, regionCmd_taken he, if_neg hstay]
  exact ⟨_, rfl, onlyRegions_atEpoch s r e, atEpoch_region_same s r e⟩

end

/-- Settles O42: event by event, the soft start's and then the commands', by the lemmas above. -/
theorem regionPowerStates : Obligations.RegionPowerStates := by
  unfold Obligations.RegionPowerStates
  refine ⟨fun r s hr => ⟨fun hdark hpart htrips hsoft hkill => ?_, exec_regionPowerUp_refused, exec_softStart_none, fun b hsoft => ?_⟩,
    fun r e s hr => ⟨fun he => ?_, fun he => ?_, fun hquiet hcauses hbpm hpart => ?_, exec_quietExit_awake hr⟩⟩
  · exact ⟨_, exec_regionPowerUp hr hdark hpart htrips hsoft hkill,
      ⟨onlyRegions_setRegion s r _, fun k hk _ => State.setRegion_region_ne _ _ _ _ hk⟩, State.setRegion_region_same _ _ _⟩
  · exact ⟨fun iseg hbegun hopen hok => ⟨_, exec_softStartCheck_begun hsoft hbegun hopen hok,
        ⟨onlyRegions_setRegion s r _, fun k hk _ => State.setRegion_region_ne _ _ _ _ hk⟩, State.setRegion_region_same _ _ _⟩,
      fun iseg => exec_softStartCheck_refused hsoft, softStartStepDown_partner hsoft, exec_softStartStepDown_early hsoft,
      softStartAbandon_dark hsoft, exec_softStartAbandon_begun hsoft, fun t0 => softStartDone_ramped hsoft,
      fun t0 => exec_softStartDone_early hsoft, regionPowerUpDone_up hsoft, exec_regionPowerUpDone_early hsoft⟩
  · exact ⟨stale_of_regionCmd (exec_holdEntry hr) he, stale_of_regionCmd (exec_quietEntry hr) he, stale_of_regionCmd (exec_parkEntry hr) he,
      stale_of_regionCmd (exec_parkExit hr) he, stale_of_regionCmd (exec_darkCommand hr) he⟩
  · exact ⟨holdEntry_hold hr he, quietEntry_quiet hr he, quietEntry_down hr he, parkEntry_park hr he, parkEntry_refused hr he,
      parkExit_run hr he, darkCommand_dark hr he, darkCommand_kept hr he⟩
  · obtain ⟨hstore, hrun, hrefresh, hclusters⟩ := woken_keeps s r
    exact ⟨_, exec_quietExit hr hquiet hcauses hbpm hpart, hstore, hrun, hrefresh, hclusters⟩

end Sys2Proof.Machine

namespace Sys2Proof.Machine
open Sys2Proof

/-! ## What an event leaves of the Pewters and the voters -/

@[simp] theorem note_mgt_north (s : State) (code : Nat) (src : Source) : (s.note code src).mgt.north = s.mgt.north := by
  obtain ⟨_, _, _, hmgt⟩ := onlyReports_note s code src
  have h := congrArg Mgt.north hmgt
  exact h

@[simp] theorem note_mgt_south (s : State) (code : Nat) (src : Source) : (s.note code src).mgt.south = s.mgt.south := by
  obtain ⟨_, _, _, hmgt⟩ := onlyReports_note s code src
  have h := congrArg Mgt.south hmgt
  exact h

@[simp] theorem note_mgt_bpmVote (s : State) (code : Nat) (src : Source) : (s.note code src).mgt.bpmVote = s.mgt.bpmVote := by
  obtain ⟨_, _, _, hmgt⟩ := onlyReports_note s code src
  have h := congrArg Mgt.bpmVote hmgt
  exact h

@[simp] theorem note_holder (s : State) (code : Nat) (src : Source) : (s.note code src).holder = s.holder := by
  unfold State.holder
  rw [note_mgt_north, note_mgt_south]

/-! ## A stopped bring-up (R539, R547) -/

/-- The stage of bring-up and the two Pewters are as they were. -/
def SameBoot (s t : State) : Prop := t.boot = s.boot ∧ t.mgt.north = s.mgt.north ∧ t.mgt.south = s.mgt.south

theorem SameBoot.refl (s : State) : SameBoot s s := ⟨rfl, rfl, rfl⟩

theorem SameBoot.trans {s t u : State} (hst : SameBoot s t) (htu : SameBoot t u) : SameBoot s u := by
  obtain ⟨hboot, hnorth, hsouth⟩ := hst
  obtain ⟨hboot', hnorth', hsouth'⟩ := htu
  exact ⟨hboot'.trans hboot, hnorth'.trans hnorth, hsouth'.trans hsouth⟩

theorem SameBoot.ite {s t u : State} {p : Prop} [Decidable p] (ht : SameBoot s t) (hu : SameBoot s u) : SameBoot s (if p then t else u) := by
  split
  · exact ht
  · exact hu

theorem SameBoot.foldl {α : Type} {g : State → α → State} (hg : ∀ t a, SameBoot t (g t a)) (l : List α) (s : State) :
    SameBoot s (l.foldl g s) := by
  induction l generalizing s with
  | nil => exact .refl s
  | cons a l ih => exact (hg s a).trans (ih _)

theorem sameBoot_setRegion (s : State) (r : Nat) (v : Region) : SameBoot s (s.setRegion r v) := ⟨rfl, rfl, rfl⟩

theorem sameBoot_setLink (s : State) (l : Nat) (v : Link) : SameBoot s (s.setLink l v) := ⟨rfl, rfl, rfl⟩

theorem sameBoot_emit (s : State) (o : Output) : SameBoot s (s.emit o) := ⟨rfl, rfl, rfl⟩

theorem sameBoot_note (s : State) (code : Nat) (src : Source) : SameBoot s (s.note code src) := by simp [SameBoot]

theorem sameBoot_deviceFatal (s : State) (code : Nat) (src : Source) : SameBoot s (s.deviceFatal code src) := by
  have hholds (t : State) (f : Region → Region) : SameBoot t (t.allRegions f) := .foldl (fun u r => sameBoot_setRegion u r _) _ t
  unfold State.deviceFatal
  exact .trans ((sameBoot_note s code src).trans (hholds _ _))
    (.foldl (fun t l => .ite ((sameBoot_setLink t l _).trans (sameBoot_emit _ _)) (sameBoot_setLink t l _)) _ _)

/-- Bring-up has stopped. -/
def State.bootHalted (s : State) : State := { s with boot := { s.boot with stopped := true } }

theorem sameBoot_bootStop (s : State) (n : Nat) : SameBoot s.bootHalted (s.bootStop n) := by
  unfold State.bootStop
  exact .trans (sameBoot_deviceFatal _ _ _) (.foldl (fun t l => .ite (sameBoot_setLink t l _) (.refl t)) _ _)

theorem bootStop_keeps (s : State) (n : Nat) :
    (s.bootStop n).boot.stopped = true ∧ (s.bootStop n).mgt.north = s.mgt.north ∧ (s.bootStop n).mgt.south = s.mgt.south := by
  obtain ⟨hboot, hnorth, hsouth⟩ := sameBoot_bootStop s n
  exact ⟨congrArg Boot.stopped hboot, hnorth, hsouth⟩

/-! ## Events 1 and 2 (R434, R528) -/

theorem noStore_toRecovery (s : State) (v : Voter) : NoStore s (s.toRecovery v) := by
  have hpew : NoStore s (s.modPew v (fun p => { p with role := .absent, recovery := true, retryTick := s.now })) := by
    cases v <;> exact ⟨rfl, rfl, rfl⟩
  exact hpew.trans (noStore_note _ _ _)

theorem toRecovery_north (s : State) : (s.toRecovery .north).mgt.north = { s.mgt.north with role := .absent, recovery := true, retryTick := s.now } ∧
    (s.toRecovery .north).mgt.south = s.mgt.south := by
  unfold State.toRecovery
  rw [note_mgt_north, note_mgt_south]
  exact ⟨rfl, rfl⟩

theorem toRecovery_south (s : State) : (s.toRecovery .south).mgt.south = { s.mgt.south with role := .absent, recovery := true, retryTick := s.now } ∧
    (s.toRecovery .south).mgt.north = s.mgt.north := by
  unfold State.toRecovery
  rw [note_mgt_north, note_mgt_south]
  exact ⟨rfl, rfl⟩

/-- The state event 1 starts the self-tests from. -/
def State.eventOne (s : State) : State := { s.startTimebase with boot := { s.startTimebase.boot with event := 1 } }

theorem startTimebase_keeps (s : State) : { s.startTimebase with tb := s.tb } = s ∧ s.startTimebase.tb.running = true ∧
    (s.tb.running = false → s.startTimebase.tb.now = 0 ∧ s.startTimebase.tb.ref = .freerun) ∧ (s.tb.running = true → s.startTimebase.tb = s.tb) := by
  unfold State.startTimebase
  split
  next h => exact ⟨rfl, h, fun hf => absurd h (by simp [hf]), fun _ => rfl⟩
  next h => exact ⟨rfl, rfl, fun _ => ⟨rfl, rfl⟩, fun ht => absurd ht h⟩

theorem eventOne_keeps (s : State) : NoStore s s.eventOne ∧ s.eventOne.mgt = s.mgt ∧ s.eventOne.tb = s.startTimebase.tb ∧ s.eventOne.boot.event = 1 := by
  obtain ⟨hkeep, -⟩ := startTimebase_keeps s
  refine ⟨?_, ?_, rfl, rfl⟩
  · have htarn := congrArg State.tarn hkeep
    have hmem := congrArg State.mem hkeep
    have hpoison := congrArg State.poison hkeep
    exact ⟨htarn, hmem, hpoison⟩
  · have hmgt := congrArg State.mgt hkeep
    exact hmgt

section
variable {s : State} {n c : BootCheck}

theorem exec_bootTimebaseStart (h : s.inEvent 0 = true ∨ s.inEvent 1 = true) (hbpm : s.bpm.present = true) :
    exec (.bootTimebaseStart n c) s = .next (((s.eventOne.selfTest .north n).selfTest .south c).bothDown 2) := by
  have hev : (s.inEvent 0 || s.inEvent 1) = true := by simpa using h
  change execBootTimebaseStart n c s = _
  unfold execBootTimebaseStart
  rw [if_pos hev, if_pos hbpm]
  rfl

theorem exec_bootTimebaseStart_unseated (h : s.inEvent 0 = true ∨ s.inEvent 1 = true) (hbpm : s.bpm.present = false) :
    exec (.bootTimebaseStart n c) s = .next s.eventOne := by
  have hev : (s.inEvent 0 || s.inEvent 1) = true := by simpa using h
  change execBootTimebaseStart n c s = _
  unfold execBootTimebaseStart
  rw [if_pos hev, if_neg (by simp [hbpm])]
  rfl

theorem exec_bootTimebaseStart_idle (h0 : s.inEvent 0 = false) (h1 : s.inEvent 1 = false) : exec (.bootTimebaseStart n c) s = .next s := by
  have hev : ¬(s.inEvent 0 || s.inEvent 1) = true := by simp [h0, h1]
  exact if_neg hev

end

theorem bothDown_stops {s : State} (n : Nat) (hnorth : s.mgt.north.recovery = true) (hsouth : s.mgt.south.recovery = true) :
    s.bothDown n = s.bootStop 1 := if_pos (by simp [hnorth, hsouth])

theorem bothDown_goes {s : State} (n : Nat) (h : s.mgt.north.recovery = false ∨ s.mgt.south.recovery = false) : s.bothDown n = s.toEvent n := by
  refine if_neg ?_
  rcases h with h | h <;> simp [h]

/-- Both Pewters fail: bring-up stops (R528). -/
theorem bothDown_recovery {s : State} (n : Nat) (hnorth : s.mgt.north.recovery = true) (hsouth : s.mgt.south.recovery = true) :
    (s.bothDown n).boot.stopped = true ∧ (s.bothDown n).mgt.north.recovery = true ∧ (s.bothDown n).mgt.south.recovery = true := by
  obtain ⟨hstop, hn, hs⟩ := bootStop_keeps s 1
  rw [bothDown_stops n hnorth hsouth, hn, hs]
  exact ⟨hstop, hnorth, hsouth⟩

/-- Event 1 with both self-tests passed. -/
theorem bootTimebaseStart_passed {s : State} (h : s.inEvent 0 = true ∨ s.inEvent 1 = true) (hbpm : s.bpm.present = true)
    (hrec : s.mgt.north.recovery = false) : ∃ t : State, exec (.bootTimebaseStart .ok .ok) s = .next t ∧ NoStore s t ∧
      t.boot.event = 2 ∧ t.tb.running = true ∧ t.mgt.north.selfTest = true ∧ t.mgt.south.selfTest = true ∧
      (s.tb.running = false → t.tb.now = 0 ∧ t.tb.ref = .freerun) ∧ (s.tb.running = true → t.tb = s.tb) := by
  obtain ⟨hstore, hmgt, htb, -⟩ := eventOne_keeps s
  obtain ⟨-, hrun, hfresh, hkept⟩ := startTimebase_keeps s
  rw [← htb] at hrun hfresh hkept
  have hup : ((s.eventOne.selfTest .north .ok).selfTest .south .ok).mgt.north.recovery = false := by
    change s.eventOne.mgt.north.recovery = false
    rw [hmgt]
    exact hrec
  rw [exec_bootTimebaseStart h hbpm, bothDown_goes 2 (.inl hup)]
  generalize s.eventOne = u at *
  exact ⟨_, rfl, hstore, rfl, hrun, rfl, rfl, hfresh, hkept⟩

theorem bootTimebaseStart_northFailed {s : State} (h : s.inEvent 0 = true ∨ s.inEvent 1 = true) (hbpm : s.bpm.present = true)
    (hrec : s.mgt.south.recovery = false) : ∃ t : State, exec (.bootTimebaseStart .selfTestFailed .ok) s = .next t ∧
      NoStore s t ∧ t.boot.event = 2 ∧ t.mgt.north.recovery = true ∧ t.mgt.north.role = .absent ∧ t.mgt.south.selfTest = true ∧ Logged t 0x1D03 := by
  obtain ⟨hstore, hmgt, -⟩ := eventOne_keeps s
  obtain ⟨hnorth, hsouth⟩ := toRecovery_north s.eventOne
  have hup : ((s.eventOne.toRecovery .north).selfTest .south .ok).mgt.south.recovery = false := by
    change (s.eventOne.toRecovery .north).mgt.south.recovery = false
    rw [hsouth, hmgt]
    exact hrec
  have hlogged : Logged (s.eventOne.toRecovery .north) 0x1D03 := logged_note _ _ _
  have hstore' := hstore.trans (noStore_toRecovery s.eventOne .north)
  rw [exec_bootTimebaseStart h hbpm]
  have hnext : ((s.eventOne.selfTest .north .selfTestFailed).selfTest .south .ok).bothDown 2 =
      ((s.eventOne.toRecovery .north).selfTest .south .ok).toEvent 2 := bothDown_goes 2 (.inr hup)
  rw [hnext]
  generalize s.eventOne.toRecovery .north = u at *
  exact ⟨_, rfl, hstore', rfl, congrArg Pewter.recovery hnorth, congrArg Pewter.role hnorth, rfl, hlogged⟩

theorem bootTimebaseStart_bothFailed {s : State} (h : s.inEvent 0 = true ∨ s.inEvent 1 = true) (hbpm : s.bpm.present = true) :
    ∃ t : State, exec (.bootTimebaseStart .selfTestFailed .selfTestFailed) s = .next t ∧ t.boot.stopped = true ∧
      t.mgt.north.recovery = true ∧ t.mgt.south.recovery = true := by
  obtain ⟨hnorth, -⟩ := toRecovery_north s.eventOne
  obtain ⟨hsouth, hkept⟩ := toRecovery_south (s.eventOne.toRecovery .north)
  rw [hnorth] at hkept
  rw [exec_bootTimebaseStart h hbpm]
  exact ⟨_, rfl, bothDown_recovery 2 (congrArg Pewter.recovery hkept) (congrArg Pewter.recovery hsouth)⟩

theorem bootTimebaseStart_unseated {s : State} {n c : BootCheck} (h : s.inEvent 0 = true ∨ s.inEvent 1 = true) (hbpm : s.bpm.present = false) :
    ∃ t : State, exec (.bootTimebaseStart n c) s = .next t ∧ NoStore s t ∧ t.boot.event = 1 ∧ t.tb.running = true ∧ t.mgt = s.mgt := by
  obtain ⟨hstore, hmgt, htb, hevent⟩ := eventOne_keeps s
  obtain ⟨-, hrun, -⟩ := startTimebase_keeps s
  exact ⟨_, exec_bootTimebaseStart_unseated h hbpm, hstore, hevent, htb ▸ hrun, hmgt⟩

end Sys2Proof.Machine

namespace Sys2Proof.Machine
open Sys2Proof

theorem holder_eq_none_iff (s : State) : s.holder = none ↔ s.mgt.north.role ≠ .holder ∧ s.mgt.south.role ≠ .holder := by
  unfold State.holder
  split
  next h => simp [h]
  next h => split <;> simp [*]

/-- The state event 2 checks the dies in. -/
def State.eventTwo (s : State) (area : FirmwareImage) : State :=
  { s with mgt := { s.mgt with flash := some area }, boot := { s.boot with panelMap := standardMap } }

theorem exec_bootImageCheck {s : State} {n c : FirmwareImage} (h : s.inEvent 2 = true) : exec (.bootImageCheck n c) s =
    .next ((((s.eventTwo (s.mgt.flash.getD n)).checkImage .north { s.mgt.flash.getD n with readOk := n.readOk }).checkImage .south
      { s.mgt.flash.getD n with readOk := c.readOk }).bothDown 3) := if_pos h

theorem exec_bootImageCheck_idle {s : State} {n c : FirmwareImage} (h : s.inEvent 2 = false) : exec (.bootImageCheck n c) s = .next s :=
  if_neg (by simp [h])

/-- A die that runs the firmware of an image, before any lease (R512). -/
def Pewter.started (p : Pewter) (m : FirmwareImage) : Pewter :=
  { p with booted := true, imageOk := true, recovery := false, mfw := m.mfw, svn := m.svn, role := .syncing }

def State.startDie (s : State) (v : Voter) (m : FirmwareImage) : State := s.modPew v (fun p => p.started m)

section
variable {s : State} {v : Voter} {m : FirmwareImage}

theorem checkImage_passed (hholder : s.holder = none) (hrec : (s.pew v).recovery = false) (hread : m.readOk = true) (hwrite : m.writeOk = true)
    (hok : s.firmwareFail m = none) : s.checkImage v m = s.startDie v m := by
  have hgo : (m.readOk && m.writeOk && (s.firmwareFail m).isNone) = true := by simp [hread, hwrite, hok]
  unfold State.checkImage State.bootDie
  rw [hholder, if_neg (by simp [hrec]), if_pos hgo]
  cases v <;> rfl

theorem checkImage_failed (hrec : (s.pew v).recovery = false) (hbad : m.readOk = false ∨ m.writeOk = false ∨ s.firmwareFail m ≠ none) :
    s.checkImage v m = s.toRecovery v := by
  have hstop : ¬(m.readOk && m.writeOk && (s.firmwareFail m).isNone) = true := by
    rcases hbad with h | h | h <;> simp [h]
  unfold State.checkImage
  rw [if_neg (by simp [hrec]), if_neg hstop]

end

/-- What an image passes depends on neither the read nor anything but the policy in force. -/
theorem firmwareFail_congr {s t : State} {a : FirmwareImage} (b : Bool) (hsec : t.sec = s.sec) :
    t.firmwareFail { a with readOk := b } = s.firmwareFail a := by
  unfold State.firmwareFail
  rw [hsec]

section
variable {s : State} {n c : FirmwareImage} (hev : s.inEvent 2 = true) (hnorth : s.mgt.north.recovery = false) (hsouth : s.mgt.south.recovery = false)
include hev hnorth hsouth

/-- Both dies fail: bring-up stops (R528, R539). -/
theorem bootImageCheck_bothFailed (h : n.readOk = false ∧ c.readOk = false ∨ (s.mgt.flash.getD n).writeOk = false ∨
      s.firmwareFail (s.mgt.flash.getD n) ≠ none) : ∃ t : State, exec (.bootImageCheck n c) s = .next t ∧
      t.boot.stopped = true ∧ t.mgt.north.recovery = true ∧ t.mgt.south.recovery = true := by
  rw [exec_bootImageCheck hev]
  generalize s.mgt.flash.getD n = area at *
  have hfirst : (s.eventTwo area).checkImage .north { area with readOk := n.readOk } = (s.eventTwo area).toRecovery .north := by
    refine checkImage_failed hnorth ?_
    rcases h with ⟨h, -⟩ | h | h
    · exact .inl h
    · exact .inr (.inl h)
    · exact .inr (.inr h)
  obtain ⟨hn, hs⟩ := toRecovery_north (s.eventTwo area)
  have hsec : ((s.eventTwo area).toRecovery .north).sec = s.sec := State.note_sec _ _ _
  have hsecond : ((s.eventTwo area).toRecovery .north).checkImage .south { area with readOk := c.readOk } =
      ((s.eventTwo area).toRecovery .north).toRecovery .south := by
    refine checkImage_failed ((congrArg Pewter.recovery hs).trans hsouth) ?_
    rcases h with ⟨-, h⟩ | h | h
    · exact .inl h
    · exact .inr (.inl h)
    · refine .inr (.inr ?_)
      rwa [firmwareFail_congr _ hsec]
  obtain ⟨hs', hn'⟩ := toRecovery_south ((s.eventTwo area).toRecovery .north)
  rw [hn] at hn'
  rw [hfirst, hsecond]
  exact ⟨_, rfl, bothDown_recovery 3 (congrArg Pewter.recovery hn') (congrArg Pewter.recovery hs')⟩

variable (hholder : s.holder = none) (hcread : c.readOk = true) (hwrite : (s.mgt.flash.getD n).writeOk = true)
  (hok : s.firmwareFail (s.mgt.flash.getD n) = none)
include hholder hcread hwrite hok

theorem bootImageCheck_passed (hread : n.readOk = true) : ∃ t : State, exec (.bootImageCheck n c) s = .next t ∧ NoStore s t ∧
    t.boot.event = 3 ∧ t.boot.panelMap = standardMap ∧ t.mgt.north.booted = true ∧ t.mgt.south.booted = true ∧
    t.mgt.north.mfw = (s.mgt.flash.getD n).mfw ∧ t.mgt.south.mfw = (s.mgt.flash.getD n).mfw := by
  rw [exec_bootImageCheck hev]
  generalize s.mgt.flash.getD n = area at *
  have hfirst : (s.eventTwo area).checkImage .north { area with readOk := n.readOk } =
      (s.eventTwo area).startDie .north { area with readOk := n.readOk } := checkImage_passed hholder hnorth hread hwrite hok
  have hn : ((s.eventTwo area).startDie .north { area with readOk := n.readOk }).mgt.north = s.mgt.north.started { area with readOk := n.readOk } := rfl
  have hs : ((s.eventTwo area).startDie .north { area with readOk := n.readOk }).mgt.south = s.mgt.south := rfl
  have hsec : ((s.eventTwo area).startDie .north { area with readOk := n.readOk }).sec = s.sec := rfl
  have hstore : NoStore s ((s.eventTwo area).startDie .north { area with readOk := n.readOk }) := ⟨rfl, rfl, rfl⟩
  have hmap : ((s.eventTwo area).startDie .north { area with readOk := n.readOk }).boot.panelMap = standardMap := rfl
  rw [hfirst]
  generalize (s.eventTwo area).startDie .north { area with readOk := n.readOk } = u at *
  have hnone : u.holder = none := by
    rw [holder_eq_none_iff, hn, hs]
    exact ⟨by simp [Pewter.started], ((holder_eq_none_iff s).mp hholder).2⟩
  have hsecond : u.checkImage .south { area with readOk := c.readOk } = u.startDie .south { area with readOk := c.readOk } := by
    refine checkImage_passed hnone ((congrArg Pewter.recovery hs).trans hsouth) hcread hwrite ?_
    rwa [firmwareFail_congr _ hsec]
  rw [hsecond, bothDown_goes (s := u.startDie .south _) 3 (.inr rfl)]
  exact ⟨_, rfl, hstore, rfl, hmap, congrArg Pewter.booted hn, rfl, congrArg Pewter.mfw hn, rfl⟩

theorem bootImageCheck_northFailed (hread : n.readOk = false) : ∃ t : State, exec (.bootImageCheck n c) s = .next t ∧ NoStore s t ∧
    t.boot.event = 3 ∧ t.mgt.north.recovery = true ∧ t.mgt.north.role = .absent ∧ t.mgt.south.booted = true := by
  rw [exec_bootImageCheck hev]
  generalize s.mgt.flash.getD n = area at *
  have hfirst : (s.eventTwo area).checkImage .north { area with readOk := n.readOk } = (s.eventTwo area).toRecovery .north :=
    checkImage_failed hnorth (.inl hread)
  obtain ⟨hn, hs⟩ := toRecovery_north (s.eventTwo area)
  have hsec : ((s.eventTwo area).toRecovery .north).sec = s.sec := State.note_sec _ _ _
  have hstore : NoStore s ((s.eventTwo area).toRecovery .north) := noStore_toRecovery (s.eventTwo area) .north
  have hsrole : ((s.eventTwo area).toRecovery .north).mgt.south.role ≠ .holder := by
    rw [hs]
    exact ((holder_eq_none_iff s).mp hholder).2
  rw [hfirst]
  generalize (s.eventTwo area).toRecovery .north = u at *
  have hnone : u.holder = none := (holder_eq_none_iff u).mpr ⟨by simp [hn], hsrole⟩
  have hsecond : u.checkImage .south { area with readOk := c.readOk } = u.startDie .south { area with readOk := c.readOk } := by
    refine checkImage_passed hnone ((congrArg Pewter.recovery hs).trans hsouth) hcread hwrite ?_
    rwa [firmwareFail_congr _ hsec]
  rw [hsecond, bothDown_goes (s := u.startDie .south _) 3 (.inr rfl)]
  exact ⟨_, rfl, hstore, rfl, congrArg Pewter.recovery hn, congrArg Pewter.role hn, rfl⟩

end

end Sys2Proof.Machine

namespace Sys2Proof.Machine
open Sys2Proof

/-! ## Event 3: authority (R33, R278, R517) -/

/-- Bring-up is where it was, but for the dies counted as failed. -/
def SameStage (s t : State) : Prop := { t.boot with diesFailed := s.boot.diesFailed, diesOff := s.boot.diesOff } = s.boot

theorem SameStage.refl (s : State) : SameStage s s := rfl

theorem SameStage.trans {s t u : State} (hst : SameStage s t) (htu : SameStage t u) : SameStage s u := by
  unfold SameStage at hst htu ⊢
  exact (congrArg (fun v : Boot => { v with diesFailed := s.boot.diesFailed, diesOff := s.boot.diesOff }) htu).trans hst

/-- A field of bring-up other than the dies counted as failed is as it was. -/
theorem SameStage.field {α : Type} {s t : State} (h : SameStage s t) (f : Boot → α)
    (hf : ∀ v n l, f { v with diesFailed := n, diesOff := l } = f v) : f t.boot = f s.boot := by
  exact (hf _ _ _).symm.trans (congrArg f h)

theorem sameStage_of_boot {s t : State} (h : t.boot = s.boot) : SameStage s t := by
  unfold SameStage
  rw [h]

theorem sameStage_dieFailed (s : State) (r k why : Nat) : SameStage s (s.dieFailed r k why) := by
  unfold SameStage State.dieFailed
  rw [State.note_boot]

/-- The fault of a fuse block rests on the panel's serial number and map (R31). -/
theorem SameStage.fuseFault {s t : State} (h : SameStage s t) (r k : Nat) (f : BitVec 128) (twice : Bool) :
    t.fuseFault r k f twice = s.fuseFault r k f twice := by
  have hserial : t.boot.serial = s.boot.serial := h.field Boot.serial fun _ _ _ => rfl
  have hmap : t.boot.panelMap = s.boot.panelMap := h.field Boot.panelMap fun _ _ _ => rfl
  unfold State.fuseFault State.expectedRole
  rw [hserial, hmap]

/-- Nothing is stored, and a region in service stays so. -/
def SameService (s t : State) : Prop := NoStore s t ∧ ∀ r, (t.region r).inService = (s.region r).inService

theorem SameService.refl (s : State) : SameService s s := ⟨.refl s, fun _ => rfl⟩

theorem SameService.trans {s t u : State} (hst : SameService s t) (htu : SameService t u) : SameService s u := by
  obtain ⟨hstore, hserv⟩ := hst
  obtain ⟨hstore', hserv'⟩ := htu
  exact ⟨hstore.trans hstore', fun r => (hserv' r).trans (hserv r)⟩

theorem SameService.ite {s t u : State} {p : Prop} [Decidable p] (ht : SameService s t) (hu : SameService s u) :
    SameService s (if p then t else u) := by
  split
  · exact ht
  · exact hu

theorem SameService.foldl {α : Type} {g : State → α → State} (hg : ∀ t a, SameService t (g t a)) (l : List α) (s : State) :
    SameService s (l.foldl g s) := by
  induction l generalizing s with
  | nil => exact .refl s
  | cons a l ih => exact (hg s a).trans (ih _)

theorem sameService_emit (s : State) (o : Output) : SameService s (s.emit o) := ⟨.refl s, fun _ => rfl⟩

theorem sameService_note (s : State) (code : Nat) (src : Source) : SameService s (s.note code src) :=
  ⟨noStore_note s code src, fun r => by rw [State.note_region]⟩

theorem sameService_modPew (s : State) (v : Voter) (f : Pewter → Pewter) : SameService s (s.modPew v f) := by
  cases v <;> exact ⟨.refl s, fun _ => rfl⟩

theorem sameService_setVoterRec (s : State) (v : Voter) (r : VoterRec) : SameService s (s.setVoterRec v r) := by
  cases v <;> exact ⟨.refl s, fun _ => rfl⟩

theorem sameService_modRegion (s : State) (r : Nat) {f : Region → Region} (hf : ∀ v, (f v).inService = v.inService) :
    SameService s (s.modRegion r f) := by
  refine ⟨.refl s, fun q => ?_⟩
  rw [State.modRegion_eq, State.setRegion_region]
  split
  next hq => rw [hq, hf]
  next => rfl

theorem sameService_allRegions (s : State) {f : Region → Region} (hf : ∀ v, (f v).inService = v.inService) : SameService s (s.allRegions f) := by
  have hstep (t : State) (r : Nat) : SameService t (t.modRegion r f) := sameService_modRegion t r hf
  exact .foldl hstep (List.range 16) s

theorem sameService_setRole (s : State) (v : Voter) (r : Role) : SameService s (s.setRole v r) := by
  have hrole := sameService_modPew s v (fun p => { p with role := r })
  unfold State.setRole
  dsimp only
  split
  · exact hrole.trans (sameService_note _ _ _)
  · exact hrole

theorem sameService_spreadEpoch (s : State) (e : Nat) : SameService s (s.spreadEpoch e) := by
  have hport (t : State) (i : Nat) (v : Port) : SameService t (t.setPort i v) := ⟨.refl t, fun _ => rfl⟩
  have hcxl (t : State) (i : Nat) (v : CxlPort) : SameService t (t.setCxl i v) := ⟨.refl t, fun _ => rfl⟩
  unfold State.spreadEpoch
  refine .trans (.trans (sameService_allRegions s ?_) (.foldl (fun t i => hport t i _) _ _)) (.foldl (fun t i => hcxl t i _) _ _)
  intro v
  rfl

theorem sameService_restartSequences (s : State) : SameService s s.restartSequences := by
  have hparts (t : State) (m : Tbl Part) : SameService t { t with parts := m } := ⟨.refl t, fun _ => rfl⟩
  unfold State.restartSequences
  refine (sameService_allRegions s ?_).trans (hparts _ _)
  intro v
  rfl

end Sys2Proof.Machine

namespace Sys2Proof.Machine
open Sys2Proof

/-! ### A lease from the BPM's grant (R514, R517, R518) -/

/-- What an unused voter holds once it grants epoch 1. -/
def firstGrant (now : Nat) : VoterRec := { epoch := 1, holder := some .north, termEnd := now + termTicks, lastRenew := now }

theorem acquire_fresh (now : Nat) (inStep : Bool) : (({} : VoterRec).acquire now .north inStep 1) = (0, firstGrant now) := by
  simp [VoterRec.acquire, VoterRec.live, firstGrant]

/-- North as a candidate for epoch 1. -/
def Pewter.firstCandidacy (p : Pewter) (now : Nat) : Pewter :=
  { p with vote := firstGrant now, seen := max p.seen 1, candidate := some 1, granted := [.north] }

theorem seek_first {s : State} (hvote : s.mgt.north.vote = {}) : s.seek .north 1 =
    ((s.modPew .north (fun p => p.firstCandidacy s.now)).emit (.voteReq .north .south 1 1 (s.inStepBit .north) s.now)).emit
      (.voteReq .north .bpm 1 1 (s.inStepBit .north) s.now) := by
  have hpew : (s.pew .north).vote = {} := hvote
  unfold State.seek
  rw [if_neg (by omega)]
  dsimp only
  rw [hpew, acquire_fresh]
  rfl

theorem seek_first_keeps {s : State} (hvote : s.mgt.north.vote = {}) : SameService s (s.seek .north 1) ∧ (s.seek .north 1).boot = s.boot ∧
    ((s.seek .north 1).pew .north).candidate = some 1 ∧ ((s.seek .north 1).pew .north).granted = [.north] ∧
    (s.seek .north 1).mgt.bpmVote = s.mgt.bpmVote := by
  have hservice := sameService_modPew s .north (fun p => p.firstCandidacy s.now)
  rw [seek_first hvote]
  exact ⟨(hservice.trans (sameService_emit _ _)).trans (sameService_emit _ _), rfl, rfl, rfl, rfl⟩

/-- The candidate's grants with the BPM's, and the other Pewter's vote. -/
def State.askOthers (s : State) : State :=
  let t := (s.setVoterRec .bpm (firstGrant s.now)).sendVote .bpm .north 0 s.now
  let a := (t.pew .south).vote.acquire t.now .north (t.inStepBit .north) 1
  let u := if t.votes .south then ((t.setVoterRec .south a.2).modPew .south (fun p => { p with seen := max p.seen 1 })).sendVote .south .north a.1 t.now else t
  u.modPew .north (fun p => { p with granted := (t.pew .north).granted ++ [Voter.bpm] ++ (if t.votes .south && a.1 == 0 then [Voter.south] else []) })

theorem sameService_sendVote (s : State) (v cand : Voter) (result tick : Nat) : SameService s (s.sendVote v cand result tick) :=
  sameService_emit s _

theorem askOthers_keeps (s : State) : SameService s s.askOthers ∧ s.askOthers.boot = s.boot := by
  have hvote := (sameService_setVoterRec s .bpm (firstGrant s.now)).trans (sameService_sendVote _ .bpm .north 0 s.now)
  have hboot : ((s.setVoterRec .bpm (firstGrant s.now)).sendVote .bpm .north 0 s.now).boot = s.boot := rfl
  unfold State.askOthers
  generalize (s.setVoterRec .bpm (firstGrant s.now)).sendVote .bpm .north 0 s.now = t at *
  dsimp only
  split
  · exact ⟨(((hvote.trans (sameService_setVoterRec t .south _)).trans (sameService_modPew _ .south _)).trans (sameService_sendVote _ _ _ _ _)).trans
      (sameService_modPew _ .north _), hboot⟩
  · exact ⟨hvote.trans (sameService_modPew _ .north _), hboot⟩

theorem acquireAt_first {s : State} (hvote : s.mgt.north.vote = {}) (hbpm : s.mgt.bpmVote = {}) :
    s.acquireAt .north 1 = ((s.seek .north 1).askOthers.becomeHolder .north 1, 0, 1) := by
  obtain ⟨-, -, hcand, hgranted, hrec⟩ := seek_first_keeps hvote
  rw [hbpm] at hrec
  unfold State.acquireAt
  generalize s.seek .north 1 = t at *
  dsimp only
  rw [hcand, if_neg (by simp), hrec, acquire_fresh]
  dsimp only
  rw [if_pos rfl, if_pos]
  · rfl
  · change 2 ≤ ((t.pew .north).granted ++ [Voter.bpm] ++ _).length
    rw [hgranted]
    simp

end Sys2Proof.Machine

namespace Sys2Proof.Machine
open Sys2Proof

/-- Bring-up, North, and the lease epoch are as they were. -/
def SameLease (s t : State) : Prop := t.boot = s.boot ∧ t.mgt.north = s.mgt.north ∧ t.mgt.epoch = s.mgt.epoch

theorem SameLease.trans {s t u : State} (hst : SameLease s t) (htu : SameLease t u) : SameLease s u := by
  obtain ⟨hboot, hnorth, hepoch⟩ := hst
  obtain ⟨hboot', hnorth', hepoch'⟩ := htu
  exact ⟨hboot'.trans hboot, hnorth'.trans hnorth, hepoch'.trans hepoch⟩

theorem sameLease_note (s : State) (code : Nat) (src : Source) : SameLease s (s.note code src) := by simp [SameLease]

theorem sameLease_allRegions (s : State) (f : Region → Region) : SameLease s (s.allRegions f) := by simp [SameLease]

theorem SameLease.foldl {α : Type} {g : State → α → State} (hg : ∀ t a, SameLease t (g t a)) (l : List α) (s : State) :
    SameLease s (l.foldl g s) := by
  induction l generalizing s with
  | nil => exact ⟨rfl, rfl, rfl⟩
  | cons a l ih => exact (hg s a).trans (ih _)

theorem sameLease_spreadEpoch (s : State) (e : Nat) : SameLease s (s.spreadEpoch e) := by
  have hport (t : State) (i : Nat) (v : Port) : SameLease t (t.setPort i v) := ⟨rfl, rfl, rfl⟩
  have hcxl (t : State) (i : Nat) (v : CxlPort) : SameLease t (t.setCxl i v) := ⟨rfl, rfl, rfl⟩
  unfold State.spreadEpoch
  exact .trans (.trans (sameLease_allRegions s _) (.foldl (fun t i => hport t i _) _ _)) (.foldl (fun t i => hcxl t i _) _ _)

theorem sameLease_setRole_south (s : State) (r : Role) : SameLease s (s.setRole .south r) := by
  have hrole : SameLease s (s.modPew .south (fun p => { p with role := r })) := ⟨rfl, rfl, rfl⟩
  unfold State.setRole
  dsimp only
  split
  · exact hrole.trans (sameLease_note _ _ _)
  · exact hrole

theorem sameLease_restartSequences (s : State) : SameLease s s.restartSequences := by
  have hparts (t : State) (m : Tbl Part) : SameLease t { t with parts := m } := ⟨rfl, rfl, rfl⟩
  unfold State.restartSequences
  exact (sameLease_allRegions s _).trans (hparts _ _)

/-- North as the holder of a lease, before it tells anyone. -/
def State.leased (s : State) (e : Nat) (acks : Tbl Nat) : State :=
  let t := s.modPew .north (fun p => { p with role := .holder, candidate := none, granted := [], retried := false, handover := false, seen := max p.seen e,
                                              lastAckEach := acks })
  { t with mgt := { t.mgt with epoch := e, heardTick := s.now, lastRenewal := s.now }, bpm := { t.bpm with keepaliveTick := s.now } }

/-- What a new holder tells the panel, and the role of the die beside it (R512, R518). -/
def State.tellsPanel (s : State) (e : Nat) (beside : Role) : State := ((s.spreadEpoch e).emit (.keepalive e)).setRole .south beside

/-- Where the holder changed, sessions end and sequences begin anew (Table 18.10). -/
def State.beginsAnew (s : State) : State := { s with sec := { s.sec with sessions := [], chunks := [] } }.restartSequences.dropOperatorLatches

theorem becomeHolder_eq (s : State) (e : Nat) : ∃ acks src, s.becomeHolder .north e =
    if s.holder = some .north then (s.leased e acks).tellsPanel e (s.besideRole .north)
    else ((s.leased e acks).tellsPanel e (s.besideRole .north)).beginsAnew.note 0x0D01 src := ⟨_, _, rfl⟩

theorem tellsPanel_keeps (s : State) (e : Nat) (beside : Role) : SameService s (s.tellsPanel e beside) ∧ SameLease s (s.tellsPanel e beside) := by
  have hemit (t : State) : SameLease t (t.emit (.keepalive e)) := ⟨rfl, rfl, rfl⟩
  exact ⟨((sameService_spreadEpoch s e).trans (sameService_emit _ _)).trans (sameService_setRole _ .south beside),
    ((sameLease_spreadEpoch s e).trans (hemit _)).trans (sameLease_setRole_south _ beside)⟩

theorem beginsAnew_keeps (s : State) : SameService s s.beginsAnew ∧ SameLease s s.beginsAnew := by
  have hsec (v : Sec) : SameService s { s with sec := v } ∧ SameLease s { s with sec := v } := ⟨⟨.refl s, fun _ => rfl⟩, rfl, rfl, rfl⟩
  have hdrop (t : State) : SameService t t.dropOperatorLatches ∧ SameLease t t.dropOperatorLatches := ⟨⟨.refl t, fun _ => rfl⟩, rfl, rfl, rfl⟩
  obtain ⟨hservice, hlease⟩ := hsec { s.sec with sessions := [], chunks := [] }
  unfold State.beginsAnew
  exact ⟨(hservice.trans (sameService_restartSequences _)).trans (hdrop _).1, (hlease.trans (sameLease_restartSequences _)).trans (hdrop _).2⟩

/-- North with its lease: the epoch is spread, and no region comes into or goes out of service. -/
theorem becomeHolder_keeps (s : State) (e : Nat) : SameService s (s.becomeHolder .north e) ∧ (s.becomeHolder .north e).boot = s.boot ∧
    (s.becomeHolder .north e).mgt.north.role = .holder ∧ (s.becomeHolder .north e).mgt.epoch = e := by
  obtain ⟨acks, src, heq⟩ := becomeHolder_eq s e
  have hservice : SameService s (s.leased e acks) := ⟨.refl s, fun _ => rfl⟩
  have hlease : (s.leased e acks).boot = s.boot ∧ (s.leased e acks).mgt.north.role = .holder ∧ (s.leased e acks).mgt.epoch = e := ⟨rfl, rfl, rfl⟩
  obtain ⟨htold, htoldLease⟩ := tellsPanel_keeps (s.leased e acks) e (s.besideRole .north)
  obtain ⟨hanew, hanewLease⟩ := beginsAnew_keeps ((s.leased e acks).tellsPanel e (s.besideRole .north))
  have hfinal (t : State) (ht : SameService (s.leased e acks) t ∧ SameLease (s.leased e acks) t) :
      SameService s t ∧ t.boot = s.boot ∧ t.mgt.north.role = .holder ∧ t.mgt.epoch = e := by
    obtain ⟨hserv, hboot, hnorth, hepoch⟩ := ht
    obtain ⟨hboot', hrole', hepoch'⟩ := hlease
    exact ⟨hservice.trans hserv, hboot.trans hboot', (congrArg Pewter.role hnorth).trans hrole', hepoch.trans hepoch'⟩
  rw [heq]
  split
  · exact hfinal _ ⟨htold, htoldLease⟩
  · exact hfinal _ ⟨(htold.trans hanew).trans (sameService_note _ _ _), (htoldLease.trans hanewLease).trans (sameLease_note _ _ _)⟩

theorem holder_north {s : State} (h : s.mgt.north.role = .holder) : s.holder = some .north := if_pos h

/-- A panel on which no voter has granted a lease gives North the first (R517). -/
theorem formLease_first {s : State} (hvote : s.mgt.north.vote = {}) (hseen : s.mgt.north.seen = 0) (hbpm : s.mgt.bpmVote = {}) :
    SameService s (s.formLease .north) ∧ (s.formLease .north).boot = s.boot ∧ (s.formLease .north).holder = some .north ∧ (s.formLease .north).mgt.epoch = 1 := by
  have hepoch : (s.pew .north).seen + 1 = 1 := by
    change s.mgt.north.seen + 1 = 1
    rw [hseen]
  have hform : s.formLease .north = (s.seek .north 1).askOthers.becomeHolder .north 1 := by
    unfold State.formLease
    rw [hepoch, acquireAt_first hvote hbpm]
    exact if_neg (show ¬(0 = 2) by omega)
  obtain ⟨hseek, hseekBoot, -⟩ := seek_first_keeps hvote
  obtain ⟨hask, haskBoot⟩ := askOthers_keeps (s.seek .north 1)
  obtain ⟨hhold, hholdBoot, hrole, hone⟩ := becomeHolder_keeps (s.seek .north 1).askOthers 1
  rw [hform]
  exact ⟨(hseek.trans hask).trans hhold, (hholdBoot.trans haskBoot).trans hseekBoot, holder_north hrole, hone⟩

end Sys2Proof.Machine

namespace Sys2Proof.Machine
open Sys2Proof

/-! ### The fuse blocks of the Pewters (R33) -/

theorem mgt_dieFailed (s : State) (r k why : Nat) : (s.dieFailed r k why).mgt.north = s.mgt.north ∧ (s.dieFailed r k why).mgt.south = s.mgt.south ∧
    (s.dieFailed r k why).mgt.bpmVote = s.mgt.bpmVote := by
  unfold State.dieFailed
  rw [note_mgt_north, note_mgt_south, note_mgt_bpmVote]
  exact ⟨rfl, rfl, rfl⟩

theorem sameService_dieFailed (s : State) (r k why : Nat) : SameService s (s.dieFailed r k why) := by
  have hboot (v : Boot) : SameService s { s with boot := v } := ⟨.refl s, fun _ => rfl⟩
  unfold State.dieFailed
  exact (hboot _).trans (sameService_note _ _ _)

section
variable {s : State} {v : Voter} {f o : BitVec 128}

theorem checkPewter_passed (h : s.fuseFault 16 (12 + dieNo v) f (sameSite f o) = none) :
    s.checkPewter v f o = s.modPew v (fun p => { p with fuseOk := true }) := by
  unfold State.checkPewter
  dsimp only
  rw [h]

theorem checkPewter_failed (h : s.fuseFault 16 (12 + dieNo v) f (sameSite f o) ≠ none) : ∃ why, s.checkPewter v f o =
    (s.modPew v (fun p => { p with fuseOk := false, role := .absent })).dieFailed 16 (12 + dieNo v) why := by
  obtain ⟨why, hwhy⟩ := Option.ne_none_iff_exists'.mp h
  unfold State.checkPewter
  dsimp only
  rw [hwhy]
  exact ⟨why, rfl⟩

end

theorem sameStage_modPew (s : State) (v : Voter) (f : Pewter → Pewter) : SameStage s (s.modPew v f) := by
  cases v <;> exact .refl s

/-- A Pewter whose fuse block fails is ABSENT. -/
theorem checkPewter_lost {s : State} {v : Voter} {f o : BitVec 128} (h : s.fuseFault 16 (12 + dieNo v) f (sameSite f o) ≠ none) :
    SameStage s (s.checkPewter v f o) ∧ ((s.checkPewter v f o).pew v).role = .absent := by
  obtain ⟨why, hcheck⟩ := checkPewter_failed h
  have hstage := sameStage_modPew s v (fun p => { p with fuseOk := false, role := .absent })
  have hrole : ((s.modPew v (fun p => { p with fuseOk := false, role := .absent })).pew v).role = .absent := by cases v <;> rfl
  rw [hcheck]
  generalize s.modPew v (fun p => { p with fuseOk := false, role := .absent }) = t at *
  obtain ⟨hn, hs, -⟩ := mgt_dieFailed t 16 (12 + dieNo v) why
  refine ⟨hstage.trans (sameStage_dieFailed t _ _ _), ?_⟩
  cases v
  case north => exact (congrArg Pewter.role hn).trans hrole
  case south => exact (congrArg Pewter.role hs).trans hrole
  case bpm => rfl

/-- South's check leaves North and the BPM's grant as they were, and South no nearer to the lease. -/
theorem checkPewter_south_keeps (s : State) (f o : BitVec 128) : SameService s (s.checkPewter .south f o) ∧ SameStage s (s.checkPewter .south f o) ∧
    (s.checkPewter .south f o).mgt.north = s.mgt.north ∧ (s.checkPewter .south f o).mgt.bpmVote = s.mgt.bpmVote ∧
    (s.mgt.south.role ≠ .holder → (s.checkPewter .south f o).mgt.south.role ≠ .holder) := by
  rcases eq_or_ne (s.fuseFault 16 (12 + dieNo .south) f (sameSite f o)) none with h | h
  · rw [checkPewter_passed h]
    exact ⟨sameService_modPew s .south _, sameStage_modPew s .south _, rfl, rfl, id⟩
  · obtain ⟨why, hcheck⟩ := checkPewter_failed h
    have hservice := sameService_modPew s .south (fun p => { p with fuseOk := false, role := .absent })
    have hstage := sameStage_modPew s .south (fun p => { p with fuseOk := false, role := .absent })
    have hsouth : (s.modPew .south (fun p => { p with fuseOk := false, role := .absent })).mgt.south.role = .absent := rfl
    have hnorth : (s.modPew .south (fun p => { p with fuseOk := false, role := .absent })).mgt.north = s.mgt.north := rfl
    have hbpm : (s.modPew .south (fun p => { p with fuseOk := false, role := .absent })).mgt.bpmVote = s.mgt.bpmVote := rfl
    rw [hcheck]
    generalize s.modPew .south (fun p => { p with fuseOk := false, role := .absent }) = t at *
    obtain ⟨hn, hs, hb⟩ := mgt_dieFailed t 16 (12 + dieNo .south) why
    refine ⟨hservice.trans (sameService_dieFailed t _ _ _), hstage.trans (sameStage_dieFailed t _ _ _), hn.trans hnorth, hb.trans hbpm, fun _ => ?_⟩
    rw [hs, hsouth]
    simp

/-- The link session is open between two Pewters that may seek the lease (R509). -/
def State.linkSession (s : State) : State := { s with mgt := { s.mgt with sessionOpen := s.mgt.north.eligible && s.mgt.south.eligible } }

theorem checkPewters_up {s : State} {fN fS : BitVec 128} (h : ((s.checkPewter .north fN fS).checkPewter .south fS fN).mgt.north.eligible = true) :
    s.checkPewters fN fS = ((s.checkPewter .north fN fS).checkPewter .south fS fN).linkSession := by
  refine if_pos ?_
  change (((s.checkPewter .north fN fS).checkPewter .south fS fN).mgt.north.eligible || _) = true
  rw [h, Bool.true_or]

theorem checkPewters_down {s : State} {fN fS : BitVec 128} (hn : ((s.checkPewter .north fN fS).checkPewter .south fS fN).mgt.north.eligible = false)
    (hs : ((s.checkPewter .north fN fS).checkPewter .south fS fN).mgt.south.eligible = false) :
    s.checkPewters fN fS = ((s.checkPewter .north fN fS).checkPewter .south fS fN).linkSession.bootStop 6 := by
  refine if_neg ?_
  change ¬(((s.checkPewter .north fN fS).checkPewter .south fS fN).mgt.north.eligible ||
    ((s.checkPewter .north fN fS).checkPewter .south fS fN).mgt.south.eligible) = true
  rw [hn, hs]
  exact Bool.false_ne_true

theorem eligible_absent {p : Pewter} (h : p.role = .absent) : p.eligible = false := by simp [Pewter.eligible, h]

/-- North's fuse block passes: it may seek the lease, whatever South's holds (R33). -/
theorem checkPewters_north {s : State} {fN fS : BitVec 128} (hpass : s.fuseFault 16 12 fN (sameSite fN fS) = none) (hbooted : s.mgt.north.booted = true)
    (hrole : s.mgt.north.role ≠ .absent) (hholder : s.holder = none) : SameService s (s.checkPewters fN fS) ∧ SameStage s (s.checkPewters fN fS) ∧
    (s.checkPewters fN fS).mgt.north = { s.mgt.north with fuseOk := true } ∧ (s.checkPewters fN fS).mgt.bpmVote = s.mgt.bpmVote ∧
    (s.checkPewters fN fS).holder = none := by
  obtain ⟨hnrole, hsrole⟩ := (holder_eq_none_iff s).mp hholder
  have hfirst : s.checkPewter .north fN fS = s.modPew .north (fun p => { p with fuseOk := true }) := checkPewter_passed (v := .north) hpass
  have hservice := sameService_modPew s .north (fun p => { p with fuseOk := true })
  have hstage := sameStage_modPew s .north (fun p => { p with fuseOk := true })
  obtain ⟨hservice', hstage', hnorth, hbpm, hsouth⟩ := checkPewter_south_keeps (s.modPew .north (fun p => { p with fuseOk := true })) fS fN
  have hn : ((s.modPew .north (fun p => { p with fuseOk := true })).checkPewter .south fS fN).mgt.north = { s.mgt.north with fuseOk := true } := hnorth
  have helig : ((s.modPew .north (fun p => { p with fuseOk := true })).checkPewter .south fS fN).mgt.north.eligible = true := by
    rw [hn]
    simp [Pewter.eligible, hbooted, hrole]
  have hall := hservice.trans hservice'
  have hallStage := hstage.trans hstage'
  have hsouthRole := hsouth hsrole
  rw [← hfirst] at helig
  rw [checkPewters_up helig, hfirst]
  generalize (s.modPew .north (fun p => { p with fuseOk := true })).checkPewter .south fS fN = t at *
  refine ⟨hall, hallStage, hn, hbpm, (holder_eq_none_iff _).mpr ⟨?_, hsouthRole⟩⟩
  change t.mgt.north.role ≠ .holder
  rw [hn]
  exact hnrole

/-- Both fuse blocks fail: neither Pewter votes, and bring-up stops (R33). -/
theorem checkPewters_bothFailed {s : State} {fN fS : BitVec 128} (hnorth : s.fuseFault 16 12 fN (sameSite fN fS) ≠ none)
    (hsouth : s.fuseFault 16 13 fS (sameSite fS fN) ≠ none) : (s.checkPewters fN fS).boot.stopped = true ∧
    (s.checkPewters fN fS).mgt.north.role = .absent ∧ (s.checkPewters fN fS).mgt.south.role = .absent := by
  obtain ⟨hstage, hroleN⟩ := checkPewter_lost (v := .north) hnorth
  have hsouth' : (s.checkPewter .north fN fS).fuseFault 16 (12 + dieNo .south) fS (sameSite fS fN) ≠ none := by
    rw [hstage.fuseFault]
    exact hsouth
  obtain ⟨why, hsecond⟩ := checkPewter_failed hsouth'
  obtain ⟨hn, -, -⟩ := mgt_dieFailed ((s.checkPewter .north fN fS).modPew .south (fun p => { p with fuseOk := false, role := .absent })) 16 (12 + dieNo .south) why
  obtain ⟨-, hroleS⟩ := checkPewter_lost hsouth'
  have hroleN' : ((s.checkPewter .north fN fS).checkPewter .south fS fN).mgt.north.role = .absent := by
    rw [hsecond, hn]
    exact hroleN
  obtain ⟨hstop, hkeepN, hkeepS⟩ := bootStop_keeps ((s.checkPewter .north fN fS).checkPewter .south fS fN).linkSession 6
  rw [checkPewters_down (eligible_absent hroleN') (eligible_absent hroleS), hkeepN, hkeepS]
  exact ⟨hstop, hroleN', hroleS⟩

end Sys2Proof.Machine

namespace Sys2Proof.Machine
open Sys2Proof

/-! ### The tree of branch delays (R278) -/

/-- The delay of each branch in g is stored. -/
def State.storeDelays (s : State) (g : Nat → Nat) (l : List Nat) : State :=
  l.foldl (fun t d => t.modDomain d (fun v => { v with treeDelay := BitVec.ofNat 24 (g d) })) s

theorem storeDelays_keeps (g : Nat → Nat) (l : List Nat) (s : State) : { s.storeDelays g l with domains := s.domains } = s := by
  unfold State.storeDelays
  induction l generalizing s with
  | nil => rfl
  | cons d l ih =>
    have h := congrArg (fun t : State => { t with domains := s.domains }) (ih (s.modDomain d (fun v => { v with treeDelay := BitVec.ofNat 24 (g d) })))
    exact h

theorem storeDelays_treeDelay (g : Nat → Nat) (l : List Nat) (s : State) (k : Nat) :
    ((s.storeDelays g l).domain k).treeDelay = if k ∈ l then BitVec.ofNat 24 (g k) else (s.domain k).treeDelay := by
  unfold State.storeDelays
  induction l generalizing s with
  | nil => rfl
  | cons d l ih =>
    rw [List.foldl_cons, ih]
    by_cases hl : k ∈ l
    · simp [hl]
    · by_cases hd : k = d
      · subst hd
        simp [hl]
      · simp [hl, hd]

theorem storeDelays_noStore (g : Nat → Nat) (l : List Nat) (s : State) : NoStore s (s.storeDelays g l) ∧ (s.storeDelays g l).mgt = s.mgt := by
  have hkeeps := storeDelays_keeps g l s
  have htarn := congrArg State.tarn hkeeps
  have hmem := congrArg State.mem hkeeps
  have hpoison := congrArg State.poison hkeeps
  have hmgt := congrArg State.mgt hkeeps
  exact ⟨⟨htarn, hmem, hpoison⟩, hmgt⟩

theorem storeDelays_region (g : Nat → Nat) (l : List Nat) (s : State) (r : Nat) : (s.storeDelays g l).region r = s.region r := by
  have h := congrArg State.regions (storeDelays_keeps g l s)
  exact congrArg (fun m => Tbl.get (fun _ => ({} : Region)) m r) h

/-- A branch's delay and residual. -/
def State.branch (s : State) (tree : List (Nat × Nat)) (d : Nat) : Nat × Nat := tree.getD d ((s.domain d).treeDelay.toNat, 0)

theorem calibrateTree_eq {s : State} {tree : List (Nat × Nat)} (hgood : (List.range 25).filter (fun d => decide (768 < 10 * (s.branch tree d).2)) = []) :
    s.calibrateTree tree = (s.storeDelays (fun d => (s.branch tree d).1) (List.range 25)).onward 4 := by
  unfold State.calibrateTree
  dsimp only
  unfold State.branch at hgood
  rw [hgood, List.any_nil, if_neg Bool.false_ne_true, List.foldl_nil]
  unfold State.onward State.storeDelays State.branch
  rfl

theorem toEvent_keeps (s : State) (n : Nat) : NoStore s (s.toEvent n) ∧ (s.toEvent n).mgt = s.mgt ∧ (s.toEvent n).boot.event = n ∧
    ∀ d, (s.toEvent n).domain d = s.domain d := ⟨⟨rfl, rfl, rfl⟩, rfl, rfl, fun _ => rfl⟩

theorem onward_up {s : State} (n : Nat) (hup : ∃ r, r < 16 ∧ (s.region r).inService = true) : s.onward n = s.toEvent n := by
  obtain ⟨r, hr, hserv⟩ := hup
  refine if_neg fun hall => ?_
  have h := List.all_eq_true.mp hall r (List.mem_range.mpr hr)
  rw [hserv] at h
  exact Bool.false_ne_true h

/-- A tree whose residuals are within the limit is stored, and bring-up goes on to event 4. -/
theorem calibrateTree_good {s : State} {tree : List (Nat × Nat)} (hres : ∀ d, d < 25 → 10 * (tree.getD d (0, 0)).2 ≤ 768) (hlen : tree.length = 25)
    (hup : ∃ r, r < 16 ∧ (s.region r).inService = true) :
    NoStore s (s.calibrateTree tree) ∧ (s.calibrateTree tree).mgt = s.mgt ∧ (s.calibrateTree tree).boot.event = 4 ∧
    ∀ d, d < 25 → ((s.calibrateTree tree).domain d).treeDelay = BitVec.ofNat 24 (tree.getD d (0, 0)).1 := by
  have hentry (d : Nat) (hd : d < 25) : s.branch tree d = tree.getD d (0, 0) := by
    unfold State.branch
    rw [List.getD_eq_getElem _ _ (hlen ▸ hd), List.getD_eq_getElem _ _ (hlen ▸ hd)]
  have hgood : (List.range 25).filter (fun d => decide (768 < 10 * (s.branch tree d).2)) = [] := by
    refine List.filter_eq_nil_iff.mpr fun d hd => ?_
    rw [hentry d (List.mem_range.mp hd), decide_eq_true_eq]
    exact Nat.not_lt.mpr (hres d (List.mem_range.mp hd))
  have hup' : ∃ r, r < 16 ∧ ((s.storeDelays (fun d => (s.branch tree d).1) (List.range 25)).region r).inService = true := by
    obtain ⟨r, hr, h⟩ := hup
    exact ⟨r, hr, by rwa [storeDelays_region]⟩
  obtain ⟨hstore, hmgt⟩ := storeDelays_noStore (fun d => (s.branch tree d).1) (List.range 25) s
  rw [calibrateTree_eq hgood, onward_up 4 hup']
  obtain ⟨hstore', hmgt', hevent, hdomain⟩ := toEvent_keeps (s.storeDelays (fun d => (s.branch tree d).1) (List.range 25)) 4
  refine ⟨hstore.trans hstore', hmgt'.trans hmgt, hevent, fun d hd => ?_⟩
  rw [hdomain, storeDelays_treeDelay, if_pos (List.mem_range.mpr hd), hentry d hd]

/-! ### Event 3 -/

/-- A holder needs no lease. -/
theorem seekAtBoot_held {s : State} (h : s.holder.isSome) : s.seekAtBoot = s := if_pos (by simp [h])

/-- One more attempt at the lease, from now on. -/
def State.tried (s : State) : State := { s with boot := { s.boot with tries := s.boot.tries + 1, tryTick := s.now } }

/-- North's first attempt, where its fuse block has passed. -/
theorem seekAtBoot_first {s : State} (hholder : s.holder = none) (htries : s.boot.tries = 0) (helig : s.mgt.north.eligible = true)
    (hlease : (s.tried.formLease .north).holder = some .north) : s.seekAtBoot = s.tried.formLease .north := by
  have hgo : ¬(s.holder.isSome || (decide (s.boot.tries ≠ 0) && decide (s.now < s.boot.tryTick + 100 * ticksPerMs))) = true := by
    simp [hholder, htries]
  have helig' : s.tried.mgt.north.eligible = true := helig
  unfold State.seekAtBoot
  rw [if_neg hgo]
  dsimp only
  change (if (_ && (if s.tried.mgt.north.eligible = true then s.tried.formLease .north else _).holder.isNone) = true then _ else
    (if s.tried.mgt.north.eligible = true then s.tried.formLease .north else _)) = _
  rw [if_pos helig', hlease]
  simp

theorem inEvent_running {s : State} {n : Nat} (h : s.inEvent n = true) : s.boot.event = n ∧ s.boot.stopped = false := by
  simp only [State.inEvent, Bool.and_eq_true, beq_iff_eq, Bool.not_eq_true'] at h
  obtain ⟨⟨⟨⟨hevent, hstop⟩, -⟩, -⟩, -⟩ := h
  exact ⟨hevent, hstop⟩

section
variable {s : State} {fN fS : BitVec 128} {tree : List (Nat × Nat)}

theorem exec_bootLeaseFormation_idle (h : s.inEvent 3 = false) : exec (.bootLeaseFormation fN fS tree) s = .next s := if_neg (by simp [h])

variable (hev : s.inEvent 3 = true)
include hev

/-- A later attempt goes on to the lease at once. -/
theorem exec_bootLeaseFormation_again (htries : s.boot.tries ≠ 0) (hholder : s.holder.isSome) :
    exec (.bootLeaseFormation fN fS tree) s = .next (s.calibrateTree tree) := by
  obtain ⟨-, hstop⟩ := inEvent_running hev
  change execBootLeaseFormation fN fS tree s = _
  unfold execBootLeaseFormation
  rw [if_pos hev]
  dsimp only
  rw [if_neg htries, if_neg (by simp [hstop]), seekAtBoot_held hholder, if_pos hholder]

/-- The first attempt checks the fuse blocks before. -/
theorem exec_bootLeaseFormation_first (htries : s.boot.tries = 0) (hrun : (s.checkPewters fN fS).boot.stopped = false)
    (hlease : (s.checkPewters fN fS).seekAtBoot.holder.isSome) :
    exec (.bootLeaseFormation fN fS tree) s = .next ((s.checkPewters fN fS).seekAtBoot.calibrateTree tree) := by
  change execBootLeaseFormation fN fS tree s = _
  unfold execBootLeaseFormation
  rw [if_pos hev]
  dsimp only
  rw [if_pos htries, if_neg (by simp [hrun]), if_pos hlease]

theorem exec_bootLeaseFormation_stopped (htries : s.boot.tries = 0) (hstop : (s.checkPewters fN fS).boot.stopped = true) :
    exec (.bootLeaseFormation fN fS tree) s = .next (s.checkPewters fN fS) := by
  change execBootLeaseFormation fN fS tree s = _
  unfold execBootLeaseFormation
  rw [if_pos hev]
  dsimp only
  rw [if_pos htries, if_pos hstop]

/-- North forms the first lease and calibrates the tree (R278, R517). -/
theorem bootLeaseFormation_north (hres : ∀ d, d < 25 → 10 * (tree.getD d (0, 0)).2 ≤ 768) (hlen : tree.length = 25)
    (hup : ∃ r, r < 16 ∧ (s.region r).inService = true) (htries : s.boot.tries = 0) (hholder : s.holder = none)
    (hpass : s.fuseFault 16 12 fN (sameSite fN fS) = none) (hbooted : s.mgt.north.booted = true) (hrole : s.mgt.north.role ≠ .absent)
    (hvote : s.mgt.north.vote = {}) (hseen : s.mgt.north.seen = 0) (hbpm : s.mgt.bpmVote = {}) :
    ∃ t : State, exec (.bootLeaseFormation fN fS tree) s = .next t ∧ NoStore s t ∧ t.holder = some .north ∧ t.mgt.epoch = 1 ∧ t.boot.event = 4 ∧
      ∀ d, d < 25 → (t.domain d).treeDelay = BitVec.ofNat 24 (tree.getD d (0, 0)).1 := by
  obtain ⟨-, hstop⟩ := inEvent_running hev
  obtain ⟨hservice, hstage, hnorth, hbpm', hnone⟩ := checkPewters_north hpass hbooted hrole hholder
  have htries' : (s.checkPewters fN fS).boot.tries = 0 := (hstage.field Boot.tries fun _ _ _ => rfl).trans htries
  have hrun : (s.checkPewters fN fS).boot.stopped = false := (hstage.field Boot.stopped fun _ _ _ => rfl).trans hstop
  have helig : (s.checkPewters fN fS).mgt.north.eligible = true := by
    rw [hnorth]
    simp [Pewter.eligible, hbooted, hrole]
  have hvote' : (s.checkPewters fN fS).tried.mgt.north.vote = {} := (congrArg Pewter.vote hnorth).trans hvote
  have hseen' : (s.checkPewters fN fS).tried.mgt.north.seen = 0 := (congrArg Pewter.seen hnorth).trans hseen
  obtain ⟨hform, -, hholds, hepoch⟩ := formLease_first hvote' hseen' (hbpm'.trans hbpm)
  have hseek := seekAtBoot_first hnone htries' helig hholds
  obtain ⟨hstore, hserv⟩ : SameService s (s.checkPewters fN fS).seekAtBoot := by
    have htried : SameService (s.checkPewters fN fS) (s.checkPewters fN fS).tried := ⟨.refl _, fun _ => rfl⟩
    rw [hseek]
    exact (hservice.trans htried).trans hform
  rw [← hseek] at hholds hepoch
  have hup' : ∃ r, r < 16 ∧ ((s.checkPewters fN fS).seekAtBoot.region r).inService = true := by
    obtain ⟨r, hr, h⟩ := hup
    exact ⟨r, hr, (hserv r).trans h⟩
  rw [exec_bootLeaseFormation_first hev htries hrun (by rw [hholds]; rfl)]
  obtain ⟨hstore', hmgt, hevent, hdelay⟩ := calibrateTree_good hres hlen hup'
  refine ⟨_, rfl, hstore.trans hstore', ?_, ?_, hevent, hdelay⟩
  · unfold State.holder at hholds ⊢
    rw [hmgt]
    exact hholds
  · rw [hmgt]
    exact hepoch

end

end Sys2Proof.Machine

namespace Sys2Proof.Machine
open Sys2Proof

/-! ## Event 4: rails and dies (R31, R32, R34, R480) -/

theorem bpmCommand_on {s : State} {mask : BitVec 8} (hpresent : s.bpm.present = true) (hkill : s.bpm.killed = false) :
    NoStore s (s.bpmCommand 1 mask) ∧ (s.bpmCommand 1 mask).out = s.out ++ [.bpmCmd 1 mask s.mgt.epoch] ∧
    (s.bpmCommand 1 mask).bpm.railsWanted = true ∧ (s.bpmCommand 1 mask).bpm.pg = s.bpm.pg ∧ (s.bpmCommand 1 mask).boot = s.boot := by
  unfold State.bpmCommand
  rw [if_neg (by simp [hpresent, hkill])]
  exact ⟨⟨rfl, rfl, rfl⟩, rfl, rfl, rfl, rfl⟩

/-! ### What the checks of the dies keep and add -/

/-- Of the first report of a die's site: its fuse block. -/
def dieFuse (reports : List DieReport) (r k : Nat) : BitVec 128 :=
  ((reports.find? (fun (e : DieReport) => e.region == r && e.site == k)).map DieReport.fuse).getD 0

/-- Whether the die of a site fails its check. -/
def State.dieBad (s : State) (reports : List DieReport) (r k : Nat) : Prop :=
  s.fuseFault r k (dieFuse reports r k) (reports.any (fun (e : DieReport) => !(e.region == r && e.site == k) && sameSite (dieFuse reports r k) e.fuse)) ≠ none

section
variable {s : State} {reports : List DieReport} {r k : Nat}

theorem checkDie_good (h : ¬s.dieBad reports r k) : s.checkDie reports r k = s.passDie r k (dieFuse reports r k) := by
  have hnone := not_ne_iff.mp h
  unfold State.checkDie
  dsimp only
  unfold dieFuse at hnone
  rw [hnone]
  rfl

theorem checkDie_bad (h : s.dieBad reports r k) : ∃ why, s.checkDie reports r k = (s.loseDie r k).dieFailed r k why := by
  obtain ⟨why, hwhy⟩ := Option.ne_none_iff_exists'.mp h
  unfold State.checkDie
  dsimp only
  unfold dieFuse at hwhy
  rw [hwhy]
  exact ⟨why, rfl⟩

theorem SameStage.dieBad {t : State} (h : SameStage s t) : t.dieBad reports r k ↔ s.dieBad reports r k := by
  unfold State.dieBad
  rw [h.fuseFault]

end

theorem loseDie_boot (s : State) (r k : Nat) : (s.loseDie r k).boot = s.boot := by
  unfold State.loseDie
  repeat' split
  all_goals rfl

/-- What dieFailed adds to the loss of a die is in the reports and in bring-up's counts. -/
theorem dieFailed_keeps (s : State) (r k why : Nat) : (s.dieFailed r k why).ports = s.ports ∧ (s.dieFailed r k why).enabled = s.enabled ∧
    (s.dieFailed r k why).regions = s.regions ∧ (s.dieFailed r k why).boot.diesOff = s.boot.diesOff ++ [(r, k)] := by
  simp [State.dieFailed]

/-- The sites whose checks the statement speaks of are in the order of event 4. -/
theorem mem_checkOrder {r k : Nat} (h : r = 16 ∧ (k < 8 ∨ k = 14) ∨ r < 16 ∧ (k < 19 ∨ k = 19 ∨ k = 22)) : (r, k) ∈ checkOrder := by
  unfold checkOrder
  simp only [List.mem_append, List.mem_map, List.mem_flatten, List.mem_range, List.mem_singleton, Prod.mk.injEq]
  rcases h with ⟨rfl, hk⟩ | ⟨hr, hk | rfl | rfl⟩
  · exact .inl (.inl (.inl (.inl ⟨k, by omega, rfl, rfl⟩)))
  · exact .inl (.inr ⟨_, ⟨r, hr, rfl⟩, List.mem_map.mpr ⟨k, List.mem_range.mpr hk, rfl⟩⟩)
  · exact .inl (.inl (.inr ⟨r, hr, rfl, rfl⟩))
  · exact .inl (.inl (.inl (.inr ⟨r, hr, rfl, rfl⟩)))

/-- What the checks of dies keep: what is lost, failed or released stays so, and a good die is not listed as failed. -/
structure ChecksDies (reports : List DieReport) (s t : State) : Prop where
  store : NoStore s t
  stage : SameStage s t
  released : ∀ k, (s.port k).released = true → (t.port k).released = true
  absent : ∀ k, (s.port k).absent = true → (t.port k).absent = true
  off : ∀ e, e ∈ s.boot.diesOff → e ∈ t.boot.diesOff
  unlisted : ∀ r k, ¬s.dieBad reports r k → (r, k) ∉ s.boot.diesOff → (r, k) ∉ t.boot.diesOff
  positions : ∀ r k, k < 19 → Tbl.get (fun _ => 0xFFFF) s.enabled (r * 19 + k) = (dieFuse reports r k).extractLsb' 76 18 →
    Tbl.get (fun _ => 0xFFFF) t.enabled (r * 19 + k) = (dieFuse reports r k).extractLsb' 76 18
  sites : ∀ r k, k ∈ (s.region r).sitesFailed → k ∈ (t.region r).sitesFailed
  service : ∀ r, (s.region r).inService = false → (t.region r).inService = false
  cores : ∀ r, (s.region r).cores = false → (t.region r).cores = false

theorem ChecksDies.refl (reports : List DieReport) (s : State) : ChecksDies reports s s where
  store := .refl s
  stage := .refl s
  released _ h := h
  absent _ h := h
  off _ h := h
  unlisted _ _ _ h := h
  positions _ _ _ h := h
  sites _ _ h := h
  service _ h := h
  cores _ h := h

theorem ChecksDies.trans {reports : List DieReport} {s t u : State} (hst : ChecksDies reports s t) (htu : ChecksDies reports t u) : ChecksDies reports s u where
  store := hst.store.trans htu.store
  stage := hst.stage.trans htu.stage
  released k h := htu.released k (hst.released k h)
  absent k h := htu.absent k (hst.absent k h)
  off e h := htu.off e (hst.off e h)
  unlisted r k hgood h := htu.unlisted r k (hst.stage.dieBad.not.mpr hgood) (hst.unlisted r k hgood h)
  positions r k hk h := htu.positions r k hk (hst.positions r k hk h)
  sites r k h := htu.sites r k (hst.sites r k h)
  service r h := htu.service r (hst.service r h)
  cores r h := htu.cores r (hst.cores r h)

section
variable (reports : List DieReport) (s : State)

theorem checksDies_setPort (k : Nat) (v : Port) (hreleased : (s.port k).released = true → v.released = true)
    (habsent : (s.port k).absent = true → v.absent = true) : ChecksDies reports s (s.setPort k v) where
  store := ⟨rfl, rfl, rfl⟩
  stage := .refl s
  released j h := by
    rw [State.setPort_port]
    split
    next hj => exact hreleased (hj ▸ h)
    next => exact h
  absent j h := by
    rw [State.setPort_port]
    split
    next hj => exact habsent (hj ▸ h)
    next => exact h
  off _ h := h
  unlisted _ _ _ h := h
  positions _ _ _ h := h
  sites _ _ h := h
  service _ h := h
  cores _ h := h

theorem checksDies_setRegion (r : Nat) (v : Region) (hsites : ∀ k, k ∈ (s.region r).sitesFailed → k ∈ v.sitesFailed)
    (hservice : (s.region r).inService = false → v.inService = false) (hcores : (s.region r).cores = false → v.cores = false) :
    ChecksDies reports s (s.setRegion r v) where
  store := ⟨rfl, rfl, rfl⟩
  stage := .refl s
  released _ h := h
  absent _ h := h
  off _ h := h
  unlisted _ _ _ h := h
  positions _ _ _ h := h
  sites q k h := by
    rw [State.setRegion_region]
    split
    next hq => exact hsites k (hq ▸ h)
    next => exact h
  service q h := by
    rw [State.setRegion_region]
    split
    next hq => exact hservice (hq ▸ h)
    next => exact h
  cores q h := by
    rw [State.setRegion_region]
    split
    next hq => exact hcores (hq ▸ h)
    next => exact h

theorem checksDies_setHbm (k : Nat) (v : Stack) : ChecksDies reports s (s.setHbm k v) where
  store := ⟨rfl, rfl, rfl⟩
  stage := .refl s
  released _ h := h
  absent _ h := h
  off _ h := h
  unlisted _ _ _ h := h
  positions _ _ _ h := h
  sites _ _ h := h
  service _ h := h
  cores _ h := h

/-- The positions a chiplet's fuses enable are its own: no other site has its key. -/
theorem checksDies_enabled (r k : Nat) (hk : k < 19) : ChecksDies reports s
    { s with enabled := Tbl.set (fun _ => 0xFFFF) s.enabled (r * 19 + k) ((dieFuse reports r k).extractLsb' 76 18) } where
  store := ⟨rfl, rfl, rfl⟩
  stage := .refl s
  released _ h := h
  absent _ h := h
  off _ h := h
  unlisted _ _ _ h := h
  positions q j hj h := by
    rw [Tbl.get_set]
    split
    next hkey =>
      obtain ⟨rfl, rfl⟩ : q = r ∧ j = k := by omega
      rfl
    next => exact h
  sites _ _ h := h
  service _ h := h
  cores _ h := h

theorem checksDies_dieFailed (r k why : Nat) (hbad : s.dieBad reports r k) : ChecksDies reports s (s.dieFailed r k why) := by
  obtain ⟨hports, henabled, hregions, hoff⟩ := dieFailed_keeps s r k why
  have hport (j : Nat) : (s.dieFailed r k why).port j = s.port j := congrArg (fun m => Tbl.get (fun _ => ({} : Port)) m j) hports
  have hregion (q : Nat) : (s.dieFailed r k why).region q = s.region q := congrArg (fun m => Tbl.get (fun _ => ({} : Region)) m q) hregions
  exact {
    store := (sameService_dieFailed s r k why).1
    stage := sameStage_dieFailed s r k why
    released := fun j h => by rwa [hport]
    absent := fun j h => by rwa [hport]
    off := fun e h => by
      rw [hoff]
      exact List.mem_append_left _ h
    unlisted := fun q j hgood h => by
      rw [hoff, List.mem_append, List.mem_singleton]
      rintro (hold | hnew)
      · exact h hold
      · obtain ⟨rfl, rfl⟩ := Prod.mk.inj hnew
        exact hgood hbad
    positions := fun q j _ h => by rwa [henabled]
    sites := fun q j h => by rwa [hregion]
    service := fun q h => by rwa [hregion]
    cores := fun q h => by rwa [hregion] }

theorem checksDies_passDie (r k : Nat) : ChecksDies reports s (s.passDie r k (dieFuse reports r k)) := by
  unfold State.passDie
  split
  · split
    · exact checksDies_setPort reports s k _ (fun _ => rfl) id
    · exact .refl reports s
  · split
    next hk => exact checksDies_enabled reports s r k hk
    next => exact .refl reports s

theorem checksDies_loseDie (r k : Nat) : ChecksDies reports s (s.loseDie r k) := by
  have hsite (v : Region) (j : Nat) (h : j ∈ v.sitesFailed) : j ∈ if v.sitesFailed.contains k then v.sitesFailed else v.sitesFailed ++ [k] := by
    split
    · exact h
    · exact List.mem_append_left _ h
  unfold State.loseDie
  split
  · split
    · exact checksDies_setPort reports s k _ id (fun _ => rfl)
    · exact .refl reports s
  · split
    · exact checksDies_setRegion reports s r _ (hsite _) id id
    · split
      · exact checksDies_setRegion reports s r _ (fun _ => id) id (fun _ => rfl)
      · split
        · exact checksDies_setHbm reports s _ _
        · exact checksDies_setRegion reports s r _ (fun _ => id) (fun _ => rfl) id

theorem checksDies_checkDie (r k : Nat) : ChecksDies reports s (s.checkDie reports r k) := by
  by_cases h : s.dieBad reports r k
  · obtain ⟨why, hcheck⟩ := checkDie_bad h
    have hbad : (s.loseDie r k).dieBad reports r k := (sameStage_of_boot (loseDie_boot s r k)).dieBad.mpr h
    rw [hcheck]
    exact (checksDies_loseDie reports s r k).trans (checksDies_dieFailed reports _ r k why hbad)
  · rw [checkDie_good h]
    exact checksDies_passDie reports s r k

end

theorem ChecksDies.foldl {α : Type} {reports : List DieReport} {g : State → α → State} (hg : ∀ t a, ChecksDies reports t (g t a)) (l : List α) (s : State) :
    ChecksDies reports s (l.foldl g s) := by
  induction l generalizing s with
  | nil => exact .refl reports s
  | cons a l ih => exact (hg s a).trans (ih _)

/-- What the check of one die brings about, and later checks keep, holds once every die is checked. -/
theorem foldl_checks_reach {α : Type} {reports : List DieReport} {g : State → α → State} (hg : ∀ t a, ChecksDies reports t (g t a)) {P : State → Prop}
    (hkeep : ∀ t u, ChecksDies reports t u → P t → P u) {l : List α} {a : α} (ha : a ∈ l) {s : State}
    (hset : ∀ t, ChecksDies reports s t → P (g t a)) : P (l.foldl g s) := by
  obtain ⟨before, after, rfl⟩ := List.append_of_mem ha
  rw [List.foldl_append, List.foldl_cons]
  exact hkeep _ _ (.foldl hg after _) (hset _ (.foldl hg before s))

end Sys2Proof.Machine

namespace Sys2Proof.Machine
open Sys2Proof

/-! ### What the check of one die brings about (Table 1.9, R18, R532) -/

section
variable {t : State} {reports : List DieReport} {r k : Nat}

theorem checkDie_released (hk : k < 8) (hgood : ¬t.dieBad reports 16 k) : ((t.checkDie reports 16 k).port k).released = true := by
  have hpass : t.passDie 16 k (dieFuse reports 16 k) = t.setPort k { t.port k with released := true } := if_pos hk
  rw [checkDie_good hgood, hpass, State.setPort_port_same]

theorem checkDie_absent (hk : k < 8) (hbad : t.dieBad reports 16 k) : ((t.checkDie reports 16 k).port k).absent = true := by
  obtain ⟨why, hcheck⟩ := checkDie_bad hbad
  obtain ⟨hports, -⟩ := dieFailed_keeps (t.loseDie 16 k) 16 k why
  have hlose : t.loseDie 16 k = t.setPort k { t.port k with absent := true } := if_pos hk
  have hport : ((t.loseDie 16 k).dieFailed 16 k why).port k = (t.loseDie 16 k).port k := congrArg (fun m => Tbl.get (fun _ => ({} : Port)) m k) hports
  rw [hcheck, hport, hlose, State.setPort_port_same]

theorem checkDie_off (hbad : t.dieBad reports r k) : (r, k) ∈ (t.checkDie reports r k).boot.diesOff := by
  obtain ⟨why, hcheck⟩ := checkDie_bad hbad
  obtain ⟨-, -, -, hoff⟩ := dieFailed_keeps (t.loseDie r k) r k why
  rw [hcheck, hoff]
  exact List.mem_append_right _ (List.mem_singleton_self _)

theorem checkDie_positions (hr : r < 16) (hk : k < 19) (hgood : ¬t.dieBad reports r k) :
    Tbl.get (fun _ => 0xFFFF) (t.checkDie reports r k).enabled (r * 19 + k) = (dieFuse reports r k).extractLsb' 76 18 := by
  have hpass : (t.passDie r k (dieFuse reports r k)).enabled =
      Tbl.set (fun _ => 0xFFFF) t.enabled (r * 19 + k) ((dieFuse reports r k).extractLsb' 76 18) := by
    unfold State.passDie
    rw [if_neg (by omega), if_pos hk]
  rw [checkDie_good hgood, hpass, Tbl.get_set_same]

/-- The region a failed die of its own leaves is what loseDie leaves. -/
theorem checkDie_region (hbad : t.dieBad reports r k) (q : Nat) : (t.checkDie reports r k).region q = (t.loseDie r k).region q := by
  obtain ⟨why, hcheck⟩ := checkDie_bad hbad
  obtain ⟨-, -, hregions, -⟩ := dieFailed_keeps (t.loseDie r k) r k why
  rw [hcheck]
  exact congrArg (fun m => Tbl.get (fun _ => ({} : Region)) m q) hregions

theorem checkDie_sites (hr : r < 16) (hk : k < 19) (hbad : t.dieBad reports r k) : k ∈ ((t.checkDie reports r k).region r).sitesFailed := by
  rw [checkDie_region hbad]
  unfold State.loseDie
  rw [if_neg (by omega), if_pos hk, State.modRegion_eq, State.setRegion_region_same]
  dsimp only
  split
  next h => exact List.contains_iff_mem.mp h
  next => exact List.mem_append_right _ (List.mem_singleton_self _)

theorem checkDie_cores (hr : r < 16) (hbad : t.dieBad reports r 19) : ((t.checkDie reports r 19).region r).cores = false := by
  rw [checkDie_region hbad]
  unfold State.loseDie
  rw [if_neg (by omega), if_neg (by omega), if_pos rfl, State.modRegion_eq, State.setRegion_region_same]

theorem checkDie_service (hr : r < 16) (hbad : t.dieBad reports r 22) : ((t.checkDie reports r 22).region r).inService = false := by
  rw [checkDie_region hbad]
  unfold State.loseDie
  rw [if_neg (by omega), if_neg (by omega), if_neg (by omega), if_neg (by omega), State.modRegion_eq, State.setRegion_region_same]

end

/-! ### The panel once every die is checked -/

/-- Every die is checked, and regions without a stack are out of service. -/
def State.diesChecked (s : State) (reports : List DieReport) : State :=
  (checkOrder.foldl (fun (t : State) e => t.checkDie reports e.1 e.2) s).dropStackless

theorem checksDies_dropStackless (reports : List DieReport) (s : State) : ChecksDies reports s s.dropStackless := by
  have hstep (t : State) (r : Nat) : ChecksDies reports t (if (t.hbm (2 * r)).failed && (t.hbm (2 * r + 1)).failed
      then t.modRegion r (fun v => { v with inService := false }) else t) := by
    split
    · exact checksDies_setRegion reports t r _ (fun _ => id) (fun _ => rfl) id
    · exact .refl reports t
  exact .foldl hstep (List.range 16) s

theorem checksDies_diesChecked (reports : List DieReport) (s : State) : ChecksDies reports s (s.diesChecked reports) := by
  have hstep (t : State) (e : Nat × Nat) : ChecksDies reports t (t.checkDie reports e.1 e.2) := checksDies_checkDie reports t e.1 e.2
  exact (ChecksDies.foldl hstep checkOrder s).trans (checksDies_dropStackless reports _)

/-- What the check of a listed die brings about, and later checks keep, holds of the panel. -/
theorem diesChecked_reach {reports : List DieReport} {P : State → Prop} (hkeep : ∀ t u, ChecksDies reports t u → P t → P u) {r k : Nat}
    (hlisted : (r, k) ∈ checkOrder) {s : State} (hset : ∀ t, SameStage s t → P (t.checkDie reports r k)) : P (s.diesChecked reports) := by
  have hstep (t : State) (e : Nat × Nat) : ChecksDies reports t (t.checkDie reports e.1 e.2) := checksDies_checkDie reports t e.1 e.2
  exact hkeep _ _ (checksDies_dropStackless reports _) (foldl_checks_reach hstep hkeep hlisted fun t ht => hset t ht.stage)

section
variable {s : State} {reports : List DieReport}

theorem diesChecked_released {k : Nat} (hk : k < 8) (hgood : ¬s.dieBad reports 16 k) : ((s.diesChecked reports).port k).released = true :=
  diesChecked_reach (P := fun t => (t.port k).released = true) (fun _ _ h => h.released k) (mem_checkOrder (.inl ⟨rfl, .inl hk⟩))
    fun _ ht => checkDie_released hk (ht.dieBad.not.mpr hgood)

theorem diesChecked_absent {k : Nat} (hk : k < 8) (hbad : s.dieBad reports 16 k) : ((s.diesChecked reports).port k).absent = true :=
  diesChecked_reach (P := fun t => (t.port k).absent = true) (fun _ _ h => h.absent k) (mem_checkOrder (.inl ⟨rfl, .inl hk⟩))
    fun _ ht => checkDie_absent hk (ht.dieBad.mpr hbad)

theorem diesChecked_off {k : Nat} (hk : k < 8 ∨ k = 14) (hbad : s.dieBad reports 16 k) : (16, k) ∈ (s.diesChecked reports).boot.diesOff :=
  diesChecked_reach (P := fun t => (16, k) ∈ t.boot.diesOff) (fun _ _ h => h.off _) (mem_checkOrder (.inl ⟨rfl, hk⟩))
    fun _ ht => checkDie_off (ht.dieBad.mpr hbad)

theorem diesChecked_positions {r k : Nat} (hr : r < 16) (hk : k < 19) (hgood : ¬s.dieBad reports r k) :
    Tbl.get (fun _ => 0xFFFF) (s.diesChecked reports).enabled (r * 19 + k) = (dieFuse reports r k).extractLsb' 76 18 :=
  diesChecked_reach (P := fun t => Tbl.get (fun _ => 0xFFFF) t.enabled (r * 19 + k) = (dieFuse reports r k).extractLsb' 76 18)
    (fun _ _ h => h.positions r k hk) (mem_checkOrder (.inr ⟨hr, .inl hk⟩)) fun _ ht => checkDie_positions hr hk (ht.dieBad.not.mpr hgood)

theorem diesChecked_sites {r k : Nat} (hr : r < 16) (hk : k < 19) (hbad : s.dieBad reports r k) : k ∈ ((s.diesChecked reports).region r).sitesFailed :=
  diesChecked_reach (P := fun t => k ∈ (t.region r).sitesFailed) (fun _ _ h => h.sites r k) (mem_checkOrder (.inr ⟨hr, .inl hk⟩))
    fun _ ht => checkDie_sites hr hk (ht.dieBad.mpr hbad)

theorem diesChecked_cores {r : Nat} (hr : r < 16) (hbad : s.dieBad reports r 19) : ((s.diesChecked reports).region r).cores = false :=
  diesChecked_reach (P := fun t => (t.region r).cores = false) (fun _ _ h => h.cores r) (mem_checkOrder (.inr ⟨hr, .inr (.inl rfl)⟩))
    fun _ ht => checkDie_cores hr (ht.dieBad.mpr hbad)

theorem diesChecked_service {r : Nat} (hr : r < 16) (hbad : s.dieBad reports r 22) : ((s.diesChecked reports).region r).inService = false :=
  diesChecked_reach (P := fun t => (t.region r).inService = false) (fun _ _ h => h.service r) (mem_checkOrder (.inr ⟨hr, .inr (.inr rfl)⟩))
    fun _ ht => checkDie_service hr (ht.dieBad.mpr hbad)

end

/-! ### Bring-up goes on or stops (R539) -/

/-- What the checks of the dies have found stands. -/
structure KeepsFindings (s t : State) : Prop where
  store : NoStore s t
  ports : t.ports = s.ports
  enabled : t.enabled = s.enabled
  off : t.boot.diesOff = s.boot.diesOff
  regions : ∀ r, (t.region r).sitesFailed = (s.region r).sitesFailed ∧ (t.region r).inService = (s.region r).inService ∧ (t.region r).cores = (s.region r).cores

theorem KeepsFindings.refl (s : State) : KeepsFindings s s := ⟨.refl s, rfl, rfl, rfl, fun _ => ⟨rfl, rfl, rfl⟩⟩

theorem KeepsFindings.trans {s t u : State} (hst : KeepsFindings s t) (htu : KeepsFindings t u) : KeepsFindings s u where
  store := hst.store.trans htu.store
  ports := htu.ports.trans hst.ports
  enabled := htu.enabled.trans hst.enabled
  off := htu.off.trans hst.off
  regions r := by
    obtain ⟨hsites, hserv, hcores⟩ := hst.regions r
    obtain ⟨hsites', hserv', hcores'⟩ := htu.regions r
    exact ⟨hsites'.trans hsites, hserv'.trans hserv, hcores'.trans hcores⟩

theorem KeepsFindings.ite {s t u : State} {p : Prop} [Decidable p] (ht : KeepsFindings s t) (hu : KeepsFindings s u) :
    KeepsFindings s (if p then t else u) := by
  split
  · exact ht
  · exact hu

theorem KeepsFindings.foldl {α : Type} {g : State → α → State} (hg : ∀ t a, KeepsFindings t (g t a)) (l : List α) (s : State) :
    KeepsFindings s (l.foldl g s) := by
  induction l generalizing s with
  | nil => exact .refl s
  | cons a l ih => exact (hg s a).trans (ih _)

theorem keepsFindings_note (s : State) (code : Nat) (src : Source) : KeepsFindings s (s.note code src) where
  store := noStore_note s code src
  ports := State.note_ports s code src
  enabled := State.note_enabled s code src
  off := by rw [State.note_boot]
  regions r := by
    rw [State.note_region]
    exact ⟨rfl, rfl, rfl⟩

theorem keepsFindings_setLink (s : State) (l : Nat) (v : Link) : KeepsFindings s (s.setLink l v) :=
  ⟨⟨rfl, rfl, rfl⟩, rfl, rfl, rfl, fun _ => ⟨rfl, rfl, rfl⟩⟩

theorem keepsFindings_emit (s : State) (o : Output) : KeepsFindings s (s.emit o) :=
  ⟨⟨rfl, rfl, rfl⟩, rfl, rfl, rfl, fun _ => ⟨rfl, rfl, rfl⟩⟩

theorem keepsFindings_hold (s : State) (r : Nat) (cause : HoldCause) : KeepsFindings s (s.modRegion r (holdRegion cause)) where
  store := ⟨rfl, rfl, rfl⟩
  ports := rfl
  enabled := rfl
  off := rfl
  regions q := by
    rw [State.modRegion_eq, State.setRegion_region]
    split
    next hq =>
      rw [hq]
      unfold holdRegion
      repeat' split
      all_goals exact ⟨rfl, rfl, rfl⟩
    next => exact ⟨rfl, rfl, rfl⟩

theorem keepsFindings_deviceFatal (s : State) (code : Nat) (src : Source) : KeepsFindings s (s.deviceFatal code src) := by
  have hholds (t : State) : KeepsFindings t (t.allRegions (holdRegion .fatal)) := .foldl (fun u r => keepsFindings_hold u r .fatal) _ t
  unfold State.deviceFatal
  exact .trans ((keepsFindings_note s code src).trans (hholds _))
    (.foldl (fun t l => .ite ((keepsFindings_setLink t l _).trans (keepsFindings_emit _ _)) (keepsFindings_setLink t l _)) _ _)

theorem keepsFindings_bootStop (s : State) (n : Nat) : KeepsFindings s (s.bootStop n) := by
  have hhalt : KeepsFindings s s.bootHalted := ⟨⟨rfl, rfl, rfl⟩, rfl, rfl, rfl, fun _ => ⟨rfl, rfl, rfl⟩⟩
  have hstop : KeepsFindings s.bootHalted (s.bootStop n) := by
    unfold State.bootStop
    exact .trans (keepsFindings_deviceFatal _ _ _) (.foldl (fun t l => .ite (keepsFindings_setLink t l _) (.refl t)) _ _)
  exact hhalt.trans hstop

theorem keepsFindings_onward (s : State) (n : Nat) : KeepsFindings s (s.onward n) := by
  have hgo : KeepsFindings s (s.toEvent n) := ⟨⟨rfl, rfl, rfl⟩, rfl, rfl, rfl, fun _ => ⟨rfl, rfl, rfl⟩⟩
  unfold State.onward
  exact .ite (keepsFindings_bootStop s 4) hgo

end Sys2Proof.Machine

namespace Sys2Proof.Machine
open Sys2Proof

/-! ### Event 4 -/

section
variable {s : State} {reports : List DieReport}

theorem exec_bootDieCheck_idle (h : s.inEvent 4 = false) : exec (.bootDieCheck reports) s = .next s := if_neg (by simp [h])

variable (hev : s.inEvent 4 = true) (hholder : s.holder.isSome)
include hev hholder

/-- The rails are commanded on, and until BPM_PG is high no die is checked. -/
theorem bootDieCheck_rails (hwanted : s.bpm.railsWanted = false) (hpresent : s.bpm.present = true) (hkill : s.bpm.killed = false) (hpg : s.bpm.pg = false) :
    ∃ t : State, exec (.bootDieCheck reports) s = .next t ∧ NoStore s t ∧
      t.out = s.out ++ [.bpmCmd 1 0x17 s.mgt.epoch] ∧ t.bpm.railsWanted = true ∧ t.boot.railTick = some s.now ∧ t.boot.event = 4 := by
  obtain ⟨hstore, hout, hon, hpg', hboot⟩ := bpmCommand_on (mask := auxRails) hpresent hkill
  obtain ⟨hevent, -⟩ := inEvent_running hev
  change ∃ t : State, execBootDieCheck reports s = .next t ∧ _
  unfold execBootDieCheck
  rw [if_pos (by simp [hev, hholder]), if_neg (by simp [hwanted])]
  generalize s.bpmCommand 1 auxRails = u at *
  have hlow : ¬(u.bpm.pg && u.bpm.railsWanted) = true := by simp [hpg', hpg]
  dsimp only
  rw [if_neg hlow]
  exact ⟨_, rfl, hstore, hout, hon, rfl, (congrArg Boot.event hboot).trans hevent⟩

theorem exec_bootDieCheck (hwanted : s.bpm.railsWanted = true) (hpg : s.bpm.pg = true) :
    exec (.bootDieCheck reports) s = .next (if (s.diesChecked reports).boot.diesOff.contains (16, 14) then (s.diesChecked reports).bootStop 5
      else (s.diesChecked reports).onward 5) := by
  change execBootDieCheck reports s = _
  unfold execBootDieCheck State.checkDies
  rw [if_pos (by simp [hev, hholder]), if_pos hwanted]
  dsimp only
  rw [if_pos (by simp [hwanted, hpg]), State.diesChecked]

/-- The timebase die fails: bring-up stops. -/
theorem bootDieCheck_stopped (hwanted : s.bpm.railsWanted = true) (hpg : s.bpm.pg = true) (hbad : s.dieBad reports 16 14) :
    ∃ t : State, exec (.bootDieCheck reports) s = .next t ∧ t.boot.stopped = true := by
  obtain ⟨hstop, -⟩ := bootStop_keeps (s.diesChecked reports) 5
  rw [exec_bootDieCheck hev hholder hwanted hpg, if_pos (List.contains_iff_mem.mpr (diesChecked_off (.inr rfl) hbad))]
  exact ⟨_, rfl, hstop⟩

/-- The timebase die passes: every other die is released, enabled or counted out, and bring-up goes on where a region is left. -/
theorem bootDieCheck_checked (hwanted : s.bpm.railsWanted = true) (hpg : s.bpm.pg = true) (hgood : ¬s.dieBad reports 16 14)
    (hoff : (16, 14) ∉ s.boot.diesOff) : ∃ t : State, exec (.bootDieCheck reports) s = .next t ∧ NoStore s t ∧
      ((∃ r, r < 16 ∧ (t.region r).inService = true) → t.boot.event = 5) ∧
      (∀ k, k < 8 → ¬s.dieBad reports 16 k → (t.port k).released = true) ∧
      (∀ k, k < 8 → s.dieBad reports 16 k → (t.port k).absent = true ∧ (16, k) ∈ t.boot.diesOff) ∧
      (∀ r k, r < 16 → k < 19 → ¬s.dieBad reports r k →
        Tbl.get (fun _ => 0xFFFF) t.enabled (r * 19 + k) = (dieFuse reports r k).extractLsb' 76 18) ∧
      (∀ r k, r < 16 → k < 19 → s.dieBad reports r k → k ∈ (t.region r).sitesFailed) ∧
      (∀ r, r < 16 → s.dieBad reports r 22 → (t.region r).inService = false) ∧
      ∀ r, r < 16 → s.dieBad reports r 19 → (t.region r).cores = false := by
  have hchecks := checksDies_diesChecked reports s
  have hfindings := keepsFindings_onward (s.diesChecked reports) 5
  have hport (k : Nat) : ((s.diesChecked reports).onward 5).port k = (s.diesChecked reports).port k :=
    congrArg (fun m => Tbl.get (fun _ => ({} : Port)) m k) hfindings.ports
  rw [exec_bootDieCheck hev hholder hwanted hpg, if_neg (fun h => hchecks.unlisted 16 14 hgood hoff (List.contains_iff_mem.mp h))]
  refine ⟨_, rfl, hchecks.store.trans hfindings.store, ?_, fun k hk h => ?_, fun k hk h => ⟨?_, ?_⟩, fun r k hr hk h => ?_, fun r k hr hk h => ?_,
    fun r hr h => ?_, fun r hr h => ?_⟩
  · rintro ⟨r, hr, hserv⟩
    obtain ⟨-, hkept, -⟩ := hfindings.regions r
    rw [onward_up 5 ⟨r, hr, hkept.symm.trans hserv⟩]
    rfl
  · rw [hport]
    exact diesChecked_released hk h
  · rw [hport]
    exact diesChecked_absent hk h
  · rw [hfindings.off]
    exact diesChecked_off (.inl hk) h
  · rw [hfindings.enabled]
    exact diesChecked_positions hr hk h
  · obtain ⟨hsites, -⟩ := hfindings.regions r
    rw [hsites]
    exact diesChecked_sites hr hk h
  · obtain ⟨-, hserv, -⟩ := hfindings.regions r
    rw [hserv]
    exact diesChecked_service hr h
  · obtain ⟨-, -, hcores⟩ := hfindings.regions r
    rw [hcores]
    exact diesChecked_cores hr h

end

/-! ### Rails that do not come up (R539) -/

section
variable {s : State}

theorem exec_railOnPgTimeout_idle (h : s.boot.railTick = none ∨ s.bpm.pg = true ∨ s.inEvent 4 = false) : exec .railOnPgTimeout s = .next s := by
  change execRailOnPgTimeout s = _
  unfold execRailOnPgTimeout
  split
  next k hk =>
    refine if_neg ?_
    rcases h with h | h | h
    · exact absurd (hk.symm.trans h) (by simp)
    · simp [h]
    · simp [h]
  next => rfl

variable {k : Nat} (hk : s.boot.railTick = some k) (hev : s.inEvent 4 = true) (hpg : s.bpm.pg = false) (hlate : k + 10000000 ≤ s.now)
include hk hev hpg hlate

theorem exec_railOnPgTimeout : exec .railOnPgTimeout s = if s.bpm.recommanded.isSome then .next (s.bootStop 3) else
    .next { s.bpmCommand 1 auxRails with
      boot := { (s.bpmCommand 1 auxRails).boot with railTick := some s.now },
      bpm := { (s.bpmCommand 1 auxRails).bpm with recommanded := some s.now } } := by
  have hms : 100 * ticksPerMs = 10000000 := rfl
  change execRailOnPgTimeout s = _
  unfold execRailOnPgTimeout
  rw [hk]
  dsimp only
  rw [hms, if_pos (by simp [hev, hpg, hlate])]

theorem railOnPgTimeout_again (hfirst : s.bpm.recommanded = none) (hpresent : s.bpm.present = true) (hkill : s.bpm.killed = false) :
    ∃ t : State, exec .railOnPgTimeout s = .next t ∧ NoStore s t ∧
      t.out = s.out ++ [.bpmCmd 1 0x17 s.mgt.epoch] ∧ t.boot.railTick = some s.now ∧ t.bpm.recommanded = some s.now := by
  obtain ⟨hstore, hout, -⟩ := bpmCommand_on (mask := auxRails) hpresent hkill
  rw [exec_railOnPgTimeout hk hev hpg hlate, if_neg (by simp [hfirst])]
  generalize s.bpmCommand 1 auxRails = u at *
  exact ⟨_, rfl, hstore, hout, rfl, rfl⟩

theorem railOnPgTimeout_stopped (hagain : s.bpm.recommanded.isSome) : ∃ t : State, exec .railOnPgTimeout s = .next t ∧ t.boot.stopped = true := by
  obtain ⟨hstop, -⟩ := bootStop_keeps s 3
  rw [exec_railOnPgTimeout hk hev hpg hlate, if_pos hagain]
  exact ⟨_, rfl, hstop⟩

end

/-- Settles O50: event by event, by the lemmas above. -/
theorem bringUpAuthority : Obligations.BringUpAuthority := by
  unfold Obligations.BringUpAuthority
  refine fun s => ⟨fun h n c => ⟨?_, ?_, ?_, bootTimebaseStart_unseated h⟩, fun n c => exec_bootTimebaseStart_idle, fun n c hev hholder hnorth hsouth => ⟨?_, ?_, ?_⟩,
    fun n c => exec_bootImageCheck_idle, fun fN fS tree hev hres hlen hup => ⟨fun htries hholder => ?_, ?_⟩, fun fN fS tree hev htries hnorth hsouth => ?_,
    fun fN fS tree => exec_bootLeaseFormation_idle, fun reports hev hholder => ⟨bootDieCheck_rails hev hholder, bootDieCheck_checked hev hholder,
      bootDieCheck_stopped hev hholder⟩, fun reports => exec_bootDieCheck_idle,
    fun k hk hev hpg hlate => ⟨railOnPgTimeout_again hk hev hpg hlate, railOnPgTimeout_stopped hk hev hpg hlate⟩, exec_railOnPgTimeout_idle⟩
  · rintro hbpm rfl rfl hrec
    exact bootTimebaseStart_passed h hbpm hrec
  · rintro hbpm rfl rfl hrec
    exact bootTimebaseStart_northFailed h hbpm hrec
  · rintro hbpm rfl rfl
    exact bootTimebaseStart_bothFailed h hbpm
  · exact fun hread hcread hwrite hok => bootImageCheck_passed hev hnorth hsouth hholder hcread hwrite hok hread
  · exact fun hread hcread hwrite hok => bootImageCheck_northFailed hev hnorth hsouth hholder hcread hwrite hok hread
  · exact bootImageCheck_bothFailed hev hnorth hsouth
  · obtain ⟨hstore, hmgt, hevent, hdelay⟩ := calibrateTree_good hres hlen hup
    exact ⟨_, exec_bootLeaseFormation_again hev htries hholder, hstore, hmgt, hevent, hdelay⟩
  · exact bootLeaseFormation_north hev hres hlen hup
  · obtain ⟨hstop, hroleN, hroleS⟩ := checkPewters_bothFailed hnorth hsouth
    exact ⟨_, exec_bootLeaseFormation_stopped hev htries hstop, hstop, hroleN, hroleS⟩

end Sys2Proof.Machine

namespace Sys2Proof.Machine
open Sys2Proof

/-! ## What journalling, writing back and completing leave of contexts, partitions and cores -/

/-- A partition with the journal, the pending cause and the error queues of another. -/
def Part.withJournal (v w : Part) : Part :=
  { v with journal := w.journal, journalHead := w.journalHead, journalLow := w.journalLow, pendingCause := w.pendingCause, errqs := w.errqs }

/-- A context changes in no more than the pages it has written since its checkpoint, a partition in its journal, its pending cause and its error
queues, a core in its pending interrupts (R308, R315, R551). -/
def OnlyJournals (s t : State) : Prop :=
  (∀ x, { t.ctx x with written := (s.ctx x).written } = s.ctx x) ∧
  (∀ p, (t.part p).withJournal (s.part p) = s.part p) ∧
  ∀ n, { t.core n with imsic := (s.core n).imsic } = s.core n

theorem OnlyJournals.refl (s : State) : OnlyJournals s s := ⟨fun _ => rfl, fun _ => rfl, fun _ => rfl⟩

theorem OnlyJournals.trans {s t u : State} (hst : OnlyJournals s t) (htu : OnlyJournals t u) : OnlyJournals s u := by
  obtain ⟨hctx, hpart, hcore⟩ := hst
  obtain ⟨hctx', hpart', hcore'⟩ := htu
  refine ⟨fun x => ?_, fun p => ?_, fun n => ?_⟩
  · exact (congrArg (fun v : Ctx => { v with written := (s.ctx x).written }) (hctx' x)).trans (hctx x)
  · exact (congrArg (fun v : Part => v.withJournal (s.part p)) (hpart' p)).trans (hpart p)
  · exact (congrArg (fun v : Core => { v with imsic := (s.core n).imsic }) (hcore' n)).trans (hcore n)

theorem OnlyJournals.ite {s t u : State} {p : Prop} [Decidable p] (ht : OnlyJournals s t) (hu : OnlyJournals s u) :
    OnlyJournals s (if p then t else u) := by
  split
  · exact ht
  · exact hu

theorem OnlyJournals.foldl {α : Type} {g : State → α → State} (hg : ∀ t a, OnlyJournals t (g t a)) (l : List α) (s : State) :
    OnlyJournals s (l.foldl g s) := by
  induction l generalizing s with
  | nil => exact .refl s
  | cons a l ih => exact (hg s a).trans (ih _)

/-- A state of the same contexts, partitions and cores. -/
theorem onlyJournals_of_same {s t : State} (hctxs : t.ctxs = s.ctxs) (hparts : t.parts = s.parts) (hcores : t.cores = s.cores) : OnlyJournals s t := by
  unfold OnlyJournals State.ctx State.part State.core
  rw [hctxs, hparts, hcores]
  exact ⟨fun _ => rfl, fun _ => rfl, fun _ => rfl⟩

theorem onlyJournals_of_reports {s t : State} (h : OnlyReports s t) : OnlyJournals s t := by
  obtain ⟨hkeep, hpart, hcore, -⟩ := h
  have hctxs := congrArg State.ctxs hkeep
  refine ⟨fun x => ?_, fun p => ?_, hcore⟩
  · have hx : t.ctx x = s.ctx x := congrArg (fun m => Tbl.get (fun _ => ({} : Ctx)) m x) hctxs
    rw [hx]
  · exact congrArg (fun v : Part => { v with
      journal := (s.part p).journal, journalHead := (s.part p).journalHead, journalLow := (s.part p).journalLow,
      pendingCause := (s.part p).pendingCause }) (hpart p)

theorem onlyJournals_note (s : State) (code : Nat) (src : Source) : OnlyJournals s (s.note code src) := onlyJournals_of_reports (onlyReports_note s code src)

theorem onlyJournals_emit (s : State) (o : Output) : OnlyJournals s (s.emit o) := .refl s

theorem onlyJournals_setPart (s : State) (p : Nat) {v : Part} (hv : v.withJournal (s.part p) = s.part p) : OnlyJournals s (s.setPart p v) := by
  refine ⟨fun _ => rfl, fun q => ?_, fun _ => rfl⟩
  rw [State.setPart_part]
  split
  next hq => rw [hq]; exact hv
  next => rfl

theorem onlyJournals_record (s : State) (p x units : Nat) (body : JRec) : OnlyJournals s (s.record p x units body) := by
  have hpending (t : State) (c : Nat × Nat) : OnlyJournals t (t.modPart p (fun v => if v.pendingCause.isNone then { v with pendingCause := some c } else v)) := by
    refine onlyJournals_setPart t p ?_
    dsimp only
    split <;> rfl
  have hlow (t : State) : OnlyJournals t (t.modPart p (fun v => { v with journalLow := true })) := onlyJournals_setPart t p rfl
  have hring (j : List JEntry) (h : Nat) : OnlyJournals s (s.setPart p { s.part p with journal := j, journalHead := h }) := onlyJournals_setPart s p rfl
  unfold State.record
  dsimp only
  exact .ite ((onlyJournals_note s _ _).trans (hpending _ _))
    (.ite (((hring _ _).trans (hlow _)).trans (onlyJournals_note _ _ _)) (hring _ _))

theorem onlyJournals_setCtx_written (s : State) (x : Nat) (w : Tbl Bool) : OnlyJournals s (s.setCtx x { s.ctx x with written := w }) := by
  refine ⟨fun y => ?_, fun _ => rfl, fun _ => rfl⟩
  rw [State.setCtx_ctx]
  split
  next hy => rw [hy]
  next => rfl

theorem onlyJournals_preImage (s : State) (g : Nat) : OnlyJournals s (s.preImage g) := by
  unfold State.preImage
  dsimp only
  have hwrite : OnlyJournals s (if s.ckpted (s.page g).owner && !(Tbl.get (fun _ => false) (s.ctx (s.page g).owner).written g) then
      (s.record (s.ctx (s.page g).owner).part (s.page g).owner 64 (.preImage g (s.pageBytes g) (s.pageMask g))).modCtx (s.page g).owner
        (fun v => { v with written := Tbl.set (fun _ => false) v.written g true })
      else s) :=
    .ite ((onlyJournals_record s _ _ _ _).trans (onlyJournals_setCtx_written _ _ _)) (.refl s)
  split
  · exact hwrite
  · exact hwrite
  · exact .refl s

/-- Bytes written and sectors healed are neither contexts, partitions nor cores. -/
theorem onlyJournals_store (s : State) (a v n m : Nat) : OnlyJournals s ((s.writeNat a v n).healSectors a m) := by
  refine onlyJournals_of_same ?_ ?_ ?_ <;> simp

theorem onlyJournals_evictLine (s : State) (l : Nat) : OnlyJournals s (s.evictLine l) := by
  have hdir (v : DirLine) : OnlyJournals s (s.setDir l v) := .refl s
  obtain ⟨n, -, heq⟩ := evictLine_eq s l
  rw [heq]
  split
  · exact ((hdir _).trans (onlyJournals_preImage _ _)).trans (onlyJournals_store _ _ _ _ _)
  · exact hdir _

theorem onlyJournals_evictRange (s : State) (a n : Nat) : OnlyJournals s (s.evictRange a n) :=
  .foldl onlyJournals_evictLine _ s

theorem onlyJournals_writeMem (s : State) (a v n : Nat) : OnlyJournals s (s.writeMem a v n) := by
  unfold State.writeMem
  exact ((onlyJournals_evictRange s a n).trans (.foldl onlyJournals_preImage _ _)).trans (onlyJournals_store _ _ _ _ _)

theorem onlyJournals_putCompletion (s : State) (v : Qp) (e : Completion) : OnlyJournals s (s.putCompletion v e) := by
  unfold State.putCompletion
  exact .ite ((onlyJournals_emit s _).trans (onlyJournals_writeMem _ _ _ _)) (onlyJournals_emit s _)

theorem onlyJournals_complete (s : State) (q k status code result detail : Nat) : OnlyJournals s (s.complete q k status code result detail) := by
  have hqp (v : Qp) : OnlyJournals s (s.setQp q v) := .refl s
  unfold State.complete
  split
  · exact .refl s
  · exact .ite (((hqp _).trans (onlyJournals_putCompletion _ _ _)).trans (onlyJournals_of_reports (onlyReports_sendIrq _ _)))
      ((hqp _).trans (onlyJournals_putCompletion _ _ _))

section
variable {s t : State} (h : OnlyJournals s t)
include h

/-- A field of a context other than the pages it has written is as it was. -/
theorem OnlyJournals.ctx_field {α : Type} (f : Ctx → α) (hf : ∀ v w, f { v with written := w } = f v) (x : Nat) : f (t.ctx x) = f (s.ctx x) := by
  obtain ⟨hctx, -, -⟩ := h
  exact (hf _ _).symm.trans (congrArg f (hctx x))

/-- A field of a partition other than those is as it was. -/
theorem OnlyJournals.part_field {α : Type} (f : Part → α) (hf : ∀ v w, f (v.withJournal w) = f v) (p : Nat) : f (t.part p) = f (s.part p) := by
  obtain ⟨-, hpart, -⟩ := h
  exact (hf _ _).symm.trans (congrArg f (hpart p))

/-- A field of a core other than its pending interrupts is as it was. -/
theorem OnlyJournals.core_field {α : Type} (f : Core → α) (hf : ∀ v l, f { v with imsic := l } = f v) (n : Nat) : f (t.core n) = f (s.core n) := by
  obtain ⟨-, -, hcore⟩ := h
  exact (hf _ _).symm.trans (congrArg f (hcore n))

end

end Sys2Proof.Machine

namespace Sys2Proof.Machine
open Sys2Proof

/-! ## Bytes written in parts -/

/-- A byte of the low L bytes of a number. -/
theorem ofNat_mod_div {x L j : Nat} (hj : j < L) : BitVec.ofNat 8 (x % 256 ^ L / 256 ^ j) = BitVec.ofNat 8 (x / 256 ^ j) := by
  have hsplit : (256 : Nat) ^ L = 256 ^ j * 256 ^ (L - j) := by rw [← Nat.pow_add, Nat.add_sub_cancel' hj.le]
  have hdvd : (256 : Nat) ∣ 256 ^ (L - j) := dvd_pow_self 256 (by omega)
  apply BitVec.eq_of_toNat_eq
  rw [BitVec.toNat_ofNat, BitVec.toNat_ofNat, hsplit, Nat.mod_mul_right_div_self]
  exact Nat.mod_mod_of_dvd _ hdvd

theorem div_pow_div (x i j : Nat) : x / 256 ^ i / 256 ^ j = x / 256 ^ (i + j) := by
  rw [Nat.div_div_eq_div_mul, Nat.pow_add]

/-! ## Changes of cores alone -/

/-- t differs from s in its cores alone. -/
def OnlyCores (s t : State) : Prop := { t with cores := s.cores } = s

theorem OnlyCores.trans {s t u : State} (hst : OnlyCores s t) (htu : OnlyCores t u) : OnlyCores s u := by
  unfold OnlyCores at hst htu ⊢
  exact (congrArg (fun v : State => { v with cores := s.cores }) htu).trans hst

theorem onlyCores_setCore (s : State) (n : Nat) (v : Core) : OnlyCores s (s.setCore n v) := by
  unfold OnlyCores
  rfl

theorem onlyCores_coreDone (s : State) (n : Nat) : OnlyCores s (s.coreDone n) := onlyCores_setCore s n _

/-- A field of a core other than its debug state is as it was. -/
theorem coreDone_field {α : Type} (f : Core → α) (hf : ∀ v h o, f { v with halted := h, stepOne := o } = f v) (s : State) (n : Nat) :
    f ((s.coreDone n).core n) = f (s.core n) := by
  unfold State.coreDone
  rw [State.modCore_eq, State.setCore_core_same]
  split
  · exact hf _ _ _
  · rfl

theorem coreDone_wait (s : State) (n : Nat) : ((s.coreDone n).core n).wait = (s.core n).wait := coreDone_field Core.wait (fun _ _ _ => rfl) s n

theorem coreDone_v8 (s : State) (n : Nat) : ((s.coreDone n).core n).v8 = (s.core n).v8 := coreDone_field Core.v8 (fun _ _ _ => rfl) s n

/-- A store in cores alone stores nothing elsewhere. -/
theorem OnlyCores.onlyRow {s t u : State} {c n : Nat} (htu : OnlyCores t u) (hst : OnlyRow s t c n) :
    OnlyRow s u c n ∧ ∀ i, u.trow c i = t.trow c i := by
  unfold OnlyCores at htu
  have htarn := congrArg State.tarn htu
  have hmem := congrArg State.mem htu
  have hpoison := congrArg State.poison htu
  have htarn' : u.tarn = t.tarn := htarn
  obtain ⟨hrows, hm, hp⟩ := hst
  refine ⟨⟨fun k hk => ?_, hmem.trans hm, hpoison.trans hp⟩, fun i => ?_⟩
  · rw [htarn', hrows k hk]
  · unfold State.trow
    rw [htarn']

theorem OnlyCores.byte {s t : State} (h : OnlyCores s t) (a : Nat) : t.byte a = s.byte a := by
  unfold OnlyCores at h
  have hmem := congrArg State.mem h
  have hdir := congrArg State.dir h
  exact byte_congr hmem hdir a

theorem OnlyCores.tarn {s t : State} (h : OnlyCores s t) : t.tarn = s.tarn := by
  unfold OnlyCores at h
  have htarn := congrArg State.tarn h
  exact htarn

/-! ## Faults of a core's access (R366) -/

theorem coreFault_place (why : CoreReason) (k : Nat) : bitsOf (BitVec.ofNat 31 (why.code + 16 * k)) 3 0 = why.code := by
  have hcode : why.code < 16 := by cases why <;> decide
  unfold bitsOf
  rw [BitVec.toNat_ofNat]
  omega

end Sys2Proof.Machine

namespace Sys2Proof.Machine
open Sys2Proof

/-! ## A core's access to a tarn row (R365 to R369, R102) -/

/-- Core n waits with an access. -/
def State.coreStalls (s : State) (n : Nat) (w : CoreWait) : State := s.modCore n (fun v => { v with wait := some w })

/-- Core n has the data its load asked for. -/
def State.coreLoads (s : State) (n : Nat) (d : Row) : State := s.modCore n (fun v => { v with wait := none, v8 := d })

/-- Core n's store has been performed: it is journalled. -/
def State.coreStored (s : State) (n p x : Nat) (w : CoreWait) : State :=
  (s.modCore n (fun v => { v with wait := none })).record p x 8 (.coreData w.addr 512 w.data)

theorem coreStalls_keeps (s : State) (n : Nat) (w : CoreWait) : OnlyCores s (s.coreStalls n w) ∧
    ((s.coreStalls n w).core n).wait = some w ∧ ((s.coreStalls n w).core n).v8 = (s.core n).v8 := by
  have hcore : (s.coreStalls n w).core n = { s.core n with wait := some w } := State.setCore_core_same _ _ _
  have hv8 := congrArg Core.v8 hcore
  exact ⟨onlyCores_setCore s n _, congrArg Core.wait hcore, hv8⟩

theorem coreLoads_keeps (s : State) (n : Nat) (d : Row) : OnlyCores s (s.coreLoads n d) ∧
    ((s.coreLoads n d).core n).wait = none ∧ ((s.coreLoads n d).core n).v8 = d := by
  have hcore : (s.coreLoads n d).core n = { s.core n with wait := none, v8 := d } := State.setCore_core_same _ _ _
  exact ⟨onlyCores_setCore s n _, congrArg Core.wait hcore, congrArg Core.v8 hcore⟩

theorem coreStored_keeps (s : State) (n p x : Nat) (w : CoreWait) : (s.coreStored n p x w).tarn = s.tarn ∧ (s.coreStored n p x w).mem = s.mem ∧
    (s.coreStored n p x w).poison = s.poison ∧ ((s.coreStored n p x w).core n).wait = none := by
  have hcore : ((s.modCore n (fun v => { v with wait := none })).core n).wait = none := congrArg Core.wait (State.setCore_core_same _ _ _)
  have hfree : NoStore s (s.modCore n (fun v => { v with wait := none })) := ⟨rfl, rfl, rfl⟩
  unfold State.coreStored
  generalize s.modCore n (fun v => { v with wait := none }) = t at *
  obtain ⟨htarn, hmem, hpoison⟩ := hfree
  rw [State.record_tarn, State.record_mem, State.record_poison]
  exact ⟨htarn, hmem, hpoison, ((onlyJournals_record t p x 8 _).core_field Core.wait (fun _ _ => rfl) n).trans hcore⟩

def CoreWait.right (w : CoreWait) : Right := if w.write then .dmaWrite else .dmaRead

/-- The access of Table 3.4 that a core's load or store is (R367). -/
def CoreWait.access (w : CoreWait) (tagged peek : Bool) : Access :=
  if w.write then (if tagged then .taggedWrite else .untaggedWrite) else if tagged then (if peek then .peek else .taggedRead) else .untaggedRead

section
variable {s : State} {n x c off : Nat} {w : CoreWait} {u : Upset} {tagged : Bool} (hown : (s.core n).owner = some x)
include hown

theorem coreAccess_refused {why : CoreReason} (hwhy : s.coreRefuses x n w.addr w.right = some why) :
    s.coreAccess n w u = s.coreFaults n w.write w.addr why := by
  unfold CoreWait.right at hwhy
  unfold State.coreAccess
  simp only [hown, hwhy]

variable (hok : s.coreRefuses x n w.addr w.right = none) (hrec : s.recovering x = false) (hplace : placeOf w.addr = .tarn c off)
  (hcover : s.coverOf c (off / 512) (some x) w.right = some tagged)
include hok hrec hplace hcover

theorem coreAccess_wait (hwait : s.rowAccess c (off / 512) (w.access tagged (s.core n).peek) w.data u = .wait) :
    s.coreAccess n w u = s.coreStalls n w := by
  unfold CoreWait.right at hok hcover
  unfold CoreWait.access at hwait
  unfold State.coreAccess
  simp only [hown, hok, hrec, hplace, hcover, Option.getD_some, hwait]
  exact if_neg Bool.false_ne_true

theorem coreAccess_read {d : Row} {t : State} (hread : w.write = false)
    (hdone : s.rowAccess c (off / 512) (w.access tagged (s.core n).peek) w.data u = .done d t) :
    s.coreAccess n w u = t.coreLoads n d := by
  unfold CoreWait.right at hok hcover
  unfold CoreWait.access at hdone
  unfold State.coreAccess
  simp only [hown, hok, hrec, hplace, hcover, Option.getD_some, hdone]
  rw [if_neg Bool.false_ne_true, hread, if_neg Bool.false_ne_true]
  rfl

theorem coreAccess_write {d : Row} {t : State} (hwrite : w.write = true)
    (hdone : s.rowAccess c (off / 512) (w.access tagged (s.core n).peek) w.data u = .done d t) :
    s.coreAccess n w u = t.coreStored n (s.ctx x).part x w := by
  unfold CoreWait.right at hok hcover
  unfold CoreWait.access at hdone
  unfold State.coreAccess
  simp only [hown, hok, hrec, hplace, hcover, Option.getD_some, hdone]
  rw [if_neg Bool.false_ne_true, if_pos hwrite]
  rfl

end

/-! ### Tags (Table 3.4) -/

theorem rowTag_free {s : State} {c : Nat} (h : s.allHeld c = false) (i : Nat) : s.rowTag c i = (s.trow c i).tag := by
  unfold State.rowTag
  rw [h]
  rfl

theorem tagTable_readable {s : State} {c i : Nat} {u : Upset} {tagged : Bool} (h : Readable s c i tagged u) (peek : Bool) :
    tagTable (if tagged then (if peek then .peek else .taggedRead) else .untaggedRead) (s.rowTag c i) =
      .go (if tagged ∧ peek = false then .empty else (s.trow c i).tag) := by
  obtain ⟨hfree, htag, -⟩ := h
  rw [rowTag_free hfree]
  rcases htag with htag | ⟨rfl, htag⟩
  · rw [htag]
    cases tagged <;> cases peek <;> rfl
  · rw [htag]
    rfl

theorem tagTable_writable {s : State} {c i : Nat} {tagged : Bool} (h : Writable s c i tagged) :
    tagTable (if tagged then .taggedWrite else .untaggedWrite) (s.rowTag c i) = .go .full := by
  obtain ⟨hfree, htag⟩ := h
  rw [rowTag_free hfree]
  cases tagged
  case true =>
    rw [show (s.trow c i).tag = .empty from htag]
    rfl
  case false =>
    have hheld : (s.trow c i).tag ≠ .held := htag
    cases hcase : (s.trow c i).tag
    case held => exact absurd hcase hheld
    all_goals rfl

/-! ### vl8re8.v and vs8r.v -/

theorem coreMemory_tarn {s : State} {x n addr len c off : Nat} (h : placeOf addr = .tarn c off) : s.coreMemory x n addr len = false := by
  simp [State.coreMemory, h]

/-- A load of a core at an address. -/
def loadAt (s : State) (addr : Word) : CoreWait := { addr := addr.toNat, write := false, data := 0, since := s.now }

/-- A store of a core at an address. -/
def storeAt (s : State) (addr : Word) (d : Row) : CoreWait := { addr := addr.toNat, write := true, data := d, since := s.now }

section
variable {s : State} {n x : Nat} (hown : (s.core n).owner = some x) (hruns : (s.core n).runs = true) (addr : Word)
include hown hruns

theorem exec_vl8re8V_row (u : Upset) (hmem : s.coreMemory x n addr.toNat 512 = false) :
    exec (.vl8re8V n addr u) s = .next ((s.coreAccess n (loadAt s addr) u).coreDone n) := by
  change execVl8re8V n addr u s = _
  unfold execVl8re8V
  simp only [hown, hruns, hmem]
  rfl

theorem exec_vs8rV_row (d : Row) (hmem : s.coreMemory x n addr.toNat 512 = false) :
    exec (.vs8rV n addr d) s = .next ((s.coreAccess n (storeAt s addr d) .none).coreDone n) := by
  change execVs8rV n addr d s = _
  unfold execVs8rV
  simp only [hown, hruns, hmem]
  rfl

end

section
variable {s : State} {n x c off : Nat} {addr : Word} {tagged : Bool} (hown : (s.core n).owner = some x) (hruns : (s.core n).runs = true)
  (hplace : placeOf addr.toNat = .tarn c off) (hrec : s.recovering x = false)
include hown hruns hplace hrec

/-- A load of a row that can be read (R367). -/
theorem vl8re8V_read {u : Upset} (hok : s.coreRefuses x n addr.toNat .dmaRead = none)
    (hcover : s.coverOf c (off / 512) (some x) .dmaRead = some tagged) (hready : Readable s c (off / 512) tagged u) :
    ∃ t : State, exec (.vl8re8V n addr u) s = .next t ∧ OnlyRow s t c (off / 512) ∧ (t.core n).v8 = (s.trow c (off / 512)).data ∧
      (t.core n).wait = none ∧ t.trow c (off / 512) =
        { s.trow c (off / 512) with syndrome := 0, tag := if tagged ∧ (s.core n).peek = false then .empty else (s.trow c (off / 512)).tag } := by
  have hreads : ((loadAt s addr).access tagged (s.core n).peek).reads = true := by
    cases tagged <;> cases (s.core n).peek <;> rfl
  obtain ⟨t, hdone, htrow, honly, -⟩ := rowAccess_read (w := (loadAt s addr).data) (u := u) hreads (tagTable_readable hready (s.core n).peek) hready.2.2
  have haccess := coreAccess_read (w := loadAt s addr) hown hok hrec hplace hcover rfl hdone
  obtain ⟨hloads, hwait, hv8⟩ := coreLoads_keeps t n (s.trow c (off / 512)).data
  obtain ⟨honly', hrows⟩ := (hloads.trans (onlyCores_coreDone _ n)).onlyRow honly
  rw [exec_vl8re8V_row hown hruns addr u (coreMemory_tarn hplace), haccess]
  exact ⟨_, rfl, honly', (coreDone_v8 _ n).trans hv8, (coreDone_wait _ n).trans hwait, (hrows _).trans htrow⟩

/-- A load of an EMPTY row under a tagged handle waits (R368). -/
theorem vl8re8V_wait {u : Upset} (hok : s.coreRefuses x n addr.toNat .dmaRead = none)
    (hcover : s.coverOf c (off / 512) (some x) .dmaRead = some tagged) (hfree : s.allHeld c = false) (htagged : tagged = true)
    (hempty : (s.trow c (off / 512)).tag = .empty) : ∃ t : State, exec (.vl8re8V n addr u) s = .next t ∧ { t with cores := s.cores } = s ∧
      (t.core n).wait = some { addr := addr.toNat, write := false, data := 0, since := s.now } ∧ (t.core n).v8 = (s.core n).v8 := by
  have hwait : tagTable ((loadAt s addr).access tagged (s.core n).peek) (s.rowTag c (off / 512)) = .wait := by
    rw [rowTag_free hfree, hempty, htagged]
    cases (s.core n).peek <;> rfl
  have haccess := coreAccess_wait (w := loadAt s addr) hown hok hrec hplace hcover (rowAccess_wait (w := (loadAt s addr).data) (u := u) hwait)
  obtain ⟨hstalls, hhold, hv8⟩ := coreStalls_keeps s n (loadAt s addr)
  rw [exec_vl8re8V_row hown hruns addr u (coreMemory_tarn hplace), haccess]
  exact ⟨_, rfl, hstalls.trans (onlyCores_coreDone _ n), (coreDone_wait _ n).trans hhold, (coreDone_v8 _ n).trans hv8⟩

/-- A store to a row that can be written is performed and journalled (R308). -/
theorem exec_vs8rV_write {d : Row} (hok : s.coreRefuses x n addr.toNat .dmaWrite = none)
    (hcover : s.coverOf c (off / 512) (some x) .dmaWrite = some tagged) (hready : Writable s c (off / 512) tagged) :
    ∃ t : State, exec (.vs8rV n addr d) s = .next ((t.coreStored n (s.ctx x).part x (storeAt s addr d)).coreDone n) ∧ OnlyRow s t c (off / 512) ∧
      t.trow c (off / 512) = { s.trow c (off / 512) with data := d, syndrome := 0, tag := .full } := by
  have hstores : ((storeAt s addr d).access tagged (s.core n).peek).stores = true := by cases tagged <;> rfl
  obtain ⟨t, hdone, htrow, honly, -⟩ := rowAccess_write (w := (storeAt s addr d).data) (u := .none) hstores (tagTable_writable hready)
  refine ⟨t, ?_, honly, htrow⟩
  rw [exec_vs8rV_row hown hruns addr d (coreMemory_tarn hplace),
    coreAccess_write (w := storeAt s addr d) hown hok hrec hplace hcover rfl hdone]

theorem vs8rV_write {d : Row} (hok : s.coreRefuses x n addr.toNat .dmaWrite = none)
    (hcover : s.coverOf c (off / 512) (some x) .dmaWrite = some tagged) (hready : Writable s c (off / 512) tagged) :
    ∃ t : State, exec (.vs8rV n addr d) s = .next t ∧ OnlyRow s t c (off / 512) ∧ (t.core n).wait = none ∧
      t.trow c (off / 512) = { s.trow c (off / 512) with data := d, tag := .full, syndrome := 0 } := by
  obtain ⟨t, hexec, honly, htrow⟩ := exec_vs8rV_write hown hruns hplace hrec (d := d) hok hcover hready
  obtain ⟨htarn, hmem, hpoison, hwait⟩ := coreStored_keeps t n (s.ctx x).part x (storeAt s addr d)
  generalize t.coreStored n (s.ctx x).part x (storeAt s addr d) = v at *
  have honlyV : OnlyRow s v c (off / 512) := by
    obtain ⟨hrows, hm, hp⟩ := honly
    exact ⟨fun k hk => by rw [htarn, hrows k hk], hmem.trans hm, hpoison.trans hp⟩
  have hrow : v.trow c (off / 512) = t.trow c (off / 512) := by
    unfold State.trow
    rw [htarn]
  obtain ⟨honly', hrows⟩ := (onlyCores_coreDone v n).onlyRow honlyV
  exact ⟨_, hexec, honly', (coreDone_wait _ n).trans hwait, ((hrows _).trans hrow).trans htrow⟩

/-- A store to a FULL row under a tagged handle waits (R368). -/
theorem vs8rV_wait {d : Row} (hok : s.coreRefuses x n addr.toNat .dmaWrite = none)
    (hcover : s.coverOf c (off / 512) (some x) .dmaWrite = some tagged) (hfree : s.allHeld c = false) (htagged : tagged = true)
    (hfull : (s.trow c (off / 512)).tag = .full) : ∃ t : State, exec (.vs8rV n addr d) s = .next t ∧ { t with cores := s.cores } = s ∧
      (t.core n).wait = some { addr := addr.toNat, write := true, data := d, since := s.now } := by
  have hwait : tagTable ((storeAt s addr d).access tagged (s.core n).peek) (s.rowTag c (off / 512)) = .wait := by
    rw [rowTag_free hfree, hfull, htagged]
    rfl
  have haccess := coreAccess_wait (w := storeAt s addr d) hown hok hrec hplace hcover (rowAccess_wait (w := (storeAt s addr d).data) (u := .none) hwait)
  obtain ⟨hstalls, hhold, -⟩ := coreStalls_keeps s n (storeAt s addr d)
  rw [exec_vs8rV_row hown hruns addr d (coreMemory_tarn hplace), haccess]
  exact ⟨_, rfl, hstalls.trans (onlyCores_coreDone _ n), (coreDone_wait _ n).trans hhold⟩

end

end Sys2Proof.Machine

namespace Sys2Proof.Machine
open Sys2Proof

/-! ### Accesses that fault (R366) -/

/-- What a core's access that faults leaves. -/
theorem coreFaults_keeps (s : State) (n : Nat) (write : Bool) (addr : Nat) (why : CoreReason) :
    OnlyCores s (s.coreFaults n write addr why) ∧ ((s.coreFaults n write addr why).core n).mcause = (if write then 7 else 5) ∧
    ((s.coreFaults n write addr why).core n).tval = BitVec.ofNat 64 addr ∧ ((s.coreFaults n write addr why).core n).wait = none ∧
    bitsOf ((s.coreFaults n write addr why).core n).fault 3 0 = why.code ∧ ((s.coreFaults n write addr why).core n).v8 = (s.core n).v8 := by
  unfold State.coreFaults
  dsimp only
  rw [State.modCore_eq, State.setCore_core_same]
  refine ⟨onlyCores_setCore s n _, rfl, rfl, rfl, ?_, rfl⟩
  dsimp only
  split
  next c off _ =>
    have hplace : c * 16 + off / 512 * 2 ^ 17 = 16 * (c + off / 512 * 2 ^ 13) := by ring
    rw [hplace]
    exact coreFault_place why _
  next => exact coreFault_place why 0

theorem coreFaults_done (s : State) (n : Nat) (write : Bool) (addr : Word) (why : CoreReason) :
    OnlyCores s ((s.coreFaults n write addr.toNat why).coreDone n) ∧
    (((s.coreFaults n write addr.toNat why).coreDone n).core n).mcause = (if write then 7 else 5) ∧
    (((s.coreFaults n write addr.toNat why).coreDone n).core n).tval = addr ∧ (((s.coreFaults n write addr.toNat why).coreDone n).core n).wait = none ∧
    bitsOf (((s.coreFaults n write addr.toNat why).coreDone n).core n).fault 3 0 = why.code ∧
    (((s.coreFaults n write addr.toNat why).coreDone n).core n).v8 = (s.core n).v8 := by
  obtain ⟨honly, hcause, htval, hwait, hfault, hv8⟩ := coreFaults_keeps s n write addr.toNat why
  rw [BitVec.ofNat_toNat, BitVec.setWidth_eq] at htval
  refine ⟨honly.trans (onlyCores_coreDone _ n), ?_, ?_, (coreDone_wait _ n).trans hwait, ?_, (coreDone_v8 _ n).trans hv8⟩
  · exact (coreDone_field Core.mcause (fun _ _ _ => rfl) _ n).trans hcause
  · exact (coreDone_field Core.tval (fun _ _ _ => rfl) _ n).trans htval
  · exact (coreDone_field (fun v => bitsOf v.fault 3 0) (fun _ _ _ => rfl) _ n).trans hfault

section
variable {s : State} {n x : Nat} (hown : (s.core n).owner = some x) (hruns : (s.core n).runs = true) (addr : Word)
include hown hruns

theorem vl8re8V_fault (u : Upset) (why : CoreReason) (hmem : s.coreMemory x n addr.toNat 512 = false)
    (hwhy : s.coreRefuses x n addr.toNat .dmaRead = some why) :
    ∃ t : State, exec (.vl8re8V n addr u) s = .next t ∧ { t with cores := s.cores } = s ∧ (t.core n).mcause = 5 ∧
      (t.core n).tval = addr ∧ (t.core n).wait = none ∧ bitsOf (t.core n).fault 3 0 = why.code ∧ (t.core n).v8 = (s.core n).v8 := by
  have hfault := coreFaults_done s n false addr why
  rw [exec_vl8re8V_row hown hruns addr u hmem, coreAccess_refused (w := loadAt s addr) hown hwhy]
  exact ⟨_, rfl, hfault⟩

theorem vs8rV_fault (d : Row) (why : CoreReason) (hmem : s.coreMemory x n addr.toNat 512 = false)
    (hwhy : s.coreRefuses x n addr.toNat .dmaWrite = some why) :
    ∃ t : State, exec (.vs8rV n addr d) s = .next t ∧ { t with cores := s.cores } = s ∧ (t.core n).mcause = 7 ∧
      (t.core n).tval = addr ∧ (t.core n).wait = none ∧ bitsOf (t.core n).fault 3 0 = why.code := by
  obtain ⟨honly, hcause, htval, hwait, hcode, -⟩ := coreFaults_done s n true addr why
  rw [exec_vs8rV_row hown hruns addr d hmem, coreAccess_refused (w := storeAt s addr d) hown hwhy]
  exact ⟨_, rfl, honly, hcause, htval, hwait, hcode⟩

/-! ### Loads and stores of main memory (R364, R365) -/

theorem vl8re8V_memory (u : Upset) (hmem : s.coreMemory x n addr.toNat 512 = true) (hclean : s.readsPoison addr.toNat 512 = false) :
    ∃ t : State, exec (.vl8re8V n addr u) s = .next t ∧ { t with cores := s.cores } = s ∧
      (t.core n).v8 = BitVec.ofNat 4096 (s.readNat addr.toNat 512) := by
  have hexec : exec (.vl8re8V n addr u) s =
      .next ((s.modCore n (fun v => { v with v8 := BitVec.ofNat 4096 (s.readNat addr.toNat 512) })).coreDone n) := by
    change execVl8re8V n addr u s = _
    unfold execVl8re8V
    rw [hown]
    dsimp only
    rw [if_neg (by simp [hruns]), if_pos hmem, if_neg (by simp [hclean])]
  generalize BitVec.ofNat 4096 (s.readNat addr.toNat 512) = d at *
  refine ⟨_, hexec, (onlyCores_setCore s n _).trans (onlyCores_coreDone _ n), (coreDone_v8 _ n).trans ?_⟩
  rw [State.modCore_eq, State.setCore_core_same]

end

/-- A store of a row that is not through memory's own write changes its bytes and no row. -/
def StoresBytes (s t : State) (a len : Nat) (d : Row) : Prop :=
  t.tarn = s.tarn ∧ ∀ b, t.byte b = if a ≤ b ∧ b < a + len then BitVec.ofNat 8 (d.toNat / 256 ^ (b - a)) else s.byte b

theorem storesBytes_writeMem (s : State) (a len : Nat) (d : Row) : StoresBytes s (s.writeMem a d.toNat len) a len d :=
  ⟨State.writeMem_tarn _ _ _ _, writeMem_byte s a d.toNat len⟩

/-- One line of a store held modified by a chiplet (R363). -/
theorem dirtyLine_byte (s : State) (r x : Nat) (d : Row) (base l b : Nat) : (s.dirtyLine r x d base l).byte b =
    if b / 64 = l then BitVec.ofNat 8 (d.toNat / 256 ^ (64 * l - base + b % 64)) else s.byte b := by
  have hraw : (s.dirtyLine r x d base l).rawByte b = (s.evictLine l).rawByte b := setDir_rawByte _ _ _ _
  have hline : (s.dirtyLine r x d base l).dirLine (b / 64) = if b / 64 = l then
      { holders := [r], modified := true, data := BitVec.ofNat 512 (d.toNat / 256 ^ (64 * l - base)), ctx := x } else (s.evictLine l).dirLine (b / 64) :=
    dirLine_setDir _ _ _ _
  have hbyte := evictLine_byte s l b
  unfold State.byte at hbyte ⊢
  rw [hline, hraw]
  split
  next hl =>
    have hwidth : (2 : Nat) ^ 512 = 256 ^ 64 := pow_mul 2 8 64
    rw [if_pos rfl, BitVec.toNat_ofNat, hwidth, ofNat_mod_div (Nat.mod_lt _ (by omega)), div_pow_div]
  next => exact hbyte

theorem dirtyLine_tarn (s : State) (r x : Nat) (d : Row) (base l : Nat) : (s.dirtyLine r x d base l).tarn = s.tarn :=
  State.evictLine_tarn s l

/-- The first m lines of a store held modified. -/
def State.dirtyLines (s : State) (r x : Nat) (d : Row) (a m : Nat) : State :=
  (List.range m).foldl (fun (t : State) k => t.dirtyLine r x d a (a / 64 + k)) s

theorem storesBytes_dirtyLines (s : State) (r x : Nat) (d : Row) {a : Nat} (m : Nat) (ha : a % 64 = 0) : StoresBytes s (s.dirtyLines r x d a m) a (64 * m) d := by
  induction m with
  | zero => exact ⟨rfl, fun b => (if_neg (by omega)).symm⟩
  | succ m ih =>
    obtain ⟨htarn, hbyte⟩ := ih
    have hstep : s.dirtyLines r x d a (m + 1) = (s.dirtyLines r x d a m).dirtyLine r x d a (a / 64 + m) := by
      unfold State.dirtyLines
      rw [List.range_succ, List.foldl_append]
      rfl
    refine ⟨?_, fun b => ?_⟩
    · rw [hstep, dirtyLine_tarn, htarn]
    · rw [hstep, dirtyLine_byte, hbyte]
      by_cases hl : b / 64 = a / 64 + m
      · rw [if_pos hl, if_pos (by omega)]
        congr 3
        omega
      · rw [if_neg hl]
        by_cases hin : a ≤ b ∧ b < a + 64 * m
        · rw [if_pos hin, if_pos (by omega)]
        · rw [if_neg hin, if_neg (by omega)]

/-- One unit of a store to step_input pages is journalled and written (R308, R365). -/
def State.storeUnit (s : State) (p x a n : Nat) (d : Row) (k : Nat) : State :=
  let lo := max a ((a / 64 + k) * 64)
  let hi := min (a + n) ((a / 64 + k + 1) * 64)
  let v := d.toNat / 256 ^ (lo - a) % 256 ^ (hi - lo)
  (s.record p x 1 (.coreData lo (hi - lo) (BitVec.ofNat 4096 v))).writeMem lo v (hi - lo)

def State.storeUnits (s : State) (p x a n : Nat) (d : Row) (m : Nat) : State :=
  (List.range m).foldl (fun (t : State) k => t.storeUnit p x a n d k) s

theorem storeInput_eq (s : State) (x a n : Nat) (d : Row) :
    s.storeInput x a n d = s.storeUnits (s.ctx x).part x a n d ((a + n - 1) / 64 - a / 64 + 1) := rfl

theorem storeUnit_tarn (s : State) (p x a n : Nat) (d : Row) (k : Nat) : (s.storeUnit p x a n d k).tarn = s.tarn := by
  unfold State.storeUnit
  rw [State.writeMem_tarn, State.record_tarn]

theorem storeUnit_byte (s : State) (p x a n : Nat) (d : Row) (k b : Nat) : (s.storeUnit p x a n d k).byte b =
    if max a ((a / 64 + k) * 64) ≤ b ∧ b < min (a + n) ((a / 64 + k + 1) * 64) then BitVec.ofNat 8 (d.toNat / 256 ^ (b - a)) else s.byte b := by
  have hrecord (body : JRec) : (s.record p x 1 body).byte b = s.byte b := byte_congr (State.record_mem _ _ _ _ _) (State.record_dir _ _ _ _ _) b
  unfold State.storeUnit
  dsimp only
  rw [writeMem_byte, hrecord]
  generalize hlo : max a ((a / 64 + k) * 64) = lo
  generalize min (a + n) ((a / 64 + k + 1) * 64) = hi
  by_cases hin : lo ≤ b ∧ b < hi
  · rw [if_pos (by omega), if_pos hin, ofNat_mod_div (by omega), div_pow_div]
    congr 3
    omega
  · rw [if_neg (by omega), if_neg hin]

theorem storeUnits_bytes (s : State) (p x a n : Nat) (d : Row) (m : Nat) : (s.storeUnits p x a n d m).tarn = s.tarn ∧
    ∀ b, (s.storeUnits p x a n d m).byte b =
      if a ≤ b ∧ b < min (a + n) ((a / 64 + m) * 64) then BitVec.ofNat 8 (d.toNat / 256 ^ (b - a)) else s.byte b := by
  induction m with
  | zero => exact ⟨rfl, fun b => (if_neg (by omega)).symm⟩
  | succ m ih =>
    obtain ⟨htarn, hbyte⟩ := ih
    have hstep : s.storeUnits p x a n d (m + 1) = (s.storeUnits p x a n d m).storeUnit p x a n d m := by
      unfold State.storeUnits
      rw [List.range_succ, List.foldl_append]
      rfl
    refine ⟨?_, fun b => ?_⟩
    · rw [hstep, storeUnit_tarn, htarn]
    · rw [hstep, storeUnit_byte, hbyte]
      by_cases hnew : max a ((a / 64 + m) * 64) ≤ b ∧ b < min (a + n) ((a / 64 + m + 1) * 64)
      · rw [if_pos hnew, if_pos (by omega)]
      · rw [if_neg hnew]
        by_cases hin : a ≤ b ∧ b < min (a + n) ((a / 64 + m) * 64)
        · rw [if_pos hin, if_pos (by omega)]
        · rw [if_neg hin, if_neg (by omega)]

theorem storesBytes_storeInput (s : State) (x a : Nat) {n : Nat} (d : Row) (hn : 0 < n) : StoresBytes s (s.storeInput x a n d) a n d := by
  obtain ⟨htarn, hbyte⟩ := storeUnits_bytes s (s.ctx x).part x a n d ((a + n - 1) / 64 - a / 64 + 1)
  rw [storeInput_eq]
  refine ⟨htarn, fun b => ?_⟩
  have hend : min (a + n) ((a / 64 + ((a + n - 1) / 64 - a / 64 + 1)) * 64) = a + n := by omega
  rw [hbyte, hend]

theorem StoresBytes.coreDone {s t : State} {a len : Nat} {d : Row} (h : StoresBytes s t a len d) (n : Nat) : StoresBytes s (t.coreDone n) a len d := by
  obtain ⟨htarn, hbyte⟩ := h
  have hcores := onlyCores_coreDone t n
  exact ⟨hcores.tarn.trans htarn, fun b => (hcores.byte b).trans (hbyte b)⟩

section
variable {s : State} {n x : Nat} (hown : (s.core n).owner = some x) (hruns : (s.core n).runs = true)
include hown hruns

theorem vs8rV_memory (addr : Word) (d : Row) (hmem : s.coreMemory x n addr.toNat 512 = true) (hwritable : s.writablePages addr.toNat 512 = true)
    (hrec : s.recovering x = false) : ∃ t : State, exec (.vs8rV n addr d) s = .next t ∧ StoresBytes s t addr.toNat 512 d := by
  change ∃ t, execVs8rV n addr d s = .next t ∧ _
  unfold execVs8rV
  rw [hown]
  dsimp only
  rw [if_neg (by simp [hruns]), if_pos (by simp [hmem, hwritable])]
  split
  · rw [if_neg (by simp [hrec])]
    exact ⟨_, rfl, (storesBytes_storeInput s x addr.toNat d (by omega)).coreDone n⟩
  · split
    next ha => exact ⟨_, rfl, (storesBytes_dirtyLines s (coreRegion n) x d 8 ha).coreDone n⟩
    next => exact ⟨_, rfl, (storesBytes_writeMem s addr.toNat 512 d).coreDone n⟩

omit hown in
theorem qtarnctlWrite_peek (v : Word) : ∃ t : State, exec (.qtarnctlWrite n v) s = .next t ∧ { t with cores := s.cores } = s ∧ (t.core n).peek = bitOf v 0 := by
  refine ⟨_, if_pos hruns, (onlyCores_setCore s n _).trans (onlyCores_coreDone _ n), (coreDone_field Core.peek (fun _ _ _ => rfl) _ n).trans ?_⟩
  rw [State.modCore_eq, State.setCore_core_same]

variable {addr len : Nat} (d : Row) (hlen : 0 < len) (hmax : len ≤ 512) (hmem : s.coreMemory x n addr len = true) (hinput : s.stepInput addr len = true)
include hlen hmax hmem hinput

theorem stepInputStore_stored (hrec : s.recovering x = false) :
    ∃ t : State, exec (.stepInputStore n addr len d) s = .next t ∧ StoresBytes s t addr len d := by
  change ∃ t, execStepInputStore n addr len d s = .next t ∧ _
  unfold execStepInputStore
  rw [hown]
  dsimp only
  rw [if_pos (by simp [hruns, hlen, hmax, hmem, hinput, hrec])]
  exact ⟨_, rfl, (storesBytes_storeInput s x addr d hlen).coreDone n⟩

omit hruns hlen hmax hmem hinput in
theorem exec_stepInputStore_recovering (hrec : s.recovering x = true) : exec (.stepInputStore n addr len d) s = .next s := by
  change execStepInputStore n addr len d s = _
  unfold execStepInputStore
  rw [hown]
  exact if_neg (by simp [hrec])

end

end Sys2Proof.Machine

namespace Sys2Proof.Machine
open Sys2Proof

/-! ## Queue pairs under completions and kills (R391, R410) -/

/-- A queue pair keeps its configuration; it is enabled no more once it is not, and a free one stays free. -/
def Qp.Winds (v w : Qp) : Prop :=
  w.configured = v.configured ∧ w.fn = v.fn ∧ w.cfg = v.cfg ∧ (v.enabled = false → w.enabled = false) ∧ (v = {} → w = {})

theorem Qp.Winds.refl (v : Qp) : v.Winds v := ⟨rfl, rfl, rfl, id, id⟩

theorem Qp.Winds.trans {u v w : Qp} (huv : u.Winds v) (hvw : v.Winds w) : u.Winds w := by
  obtain ⟨hconf, hfn, hcfg, hoff, hfree⟩ := huv
  obtain ⟨hconf', hfn', hcfg', hoff', hfree'⟩ := hvw
  exact ⟨hconf'.trans hconf, hfn'.trans hfn, hcfg'.trans hcfg, hoff' ∘ hoff, hfree' ∘ hfree⟩

def WindsQps (s t : State) : Prop := ∀ q, (s.qp q).Winds (t.qp q)

theorem WindsQps.refl (s : State) : WindsQps s s := fun q => .refl (s.qp q)

theorem WindsQps.trans {s t u : State} (hst : WindsQps s t) (htu : WindsQps t u) : WindsQps s u := fun q => (hst q).trans (htu q)

theorem WindsQps.foldl {α : Type} {g : State → α → State} (hg : ∀ t a, WindsQps t (g t a)) (l : List α) (s : State) : WindsQps s (l.foldl g s) := by
  induction l generalizing s with
  | nil => exact .refl s
  | cons a l ih => exact (hg s a).trans (ih _)

theorem windsQps_of_same {s t : State} (h : ∀ q, t.qp q = s.qp q) : WindsQps s t := fun q => by
  rw [h]
  exact .refl _

theorem windsQps_setQp (s : State) (q : Nat) {v : Qp} (hv : (s.qp q).Winds v) : WindsQps s (s.setQp q v) := fun j => by
  rw [State.setQp_qp]
  split
  next hj => exact hj ▸ hv
  next => exact .refl _

/-- A queue pair from which descriptor k has completed. -/
def Qp.completed (v : Qp) (k : Nat) : Qp :=
  let wraps := decide (v.cqTail + 1 = v.cqSize)
  ({ v with prog := v.prog.filter (fun e => e.k != k), cqTail := if wraps then 0 else v.cqTail + 1, phase := if wraps then !v.phase else v.phase } : Qp).settle

theorem completed_keeps (v : Qp) (k : Nat) : (v.completed k).configured = v.configured ∧ (v.completed k).fn = v.fn ∧ (v.completed k).cfg = v.cfg ∧
    (v.enabled = false → (v.completed k).enabled = false) ∧ (v.completed k).prog = v.prog.filter (fun e => e.k != k) := by
  unfold Qp.completed Qp.settle
  dsimp only
  split
  · exact ⟨rfl, rfl, rfl, fun _ => rfl, rfl⟩
  · exact ⟨rfl, rfl, rfl, id, rfl⟩

theorem complete_qp (s : State) {q k : Nat} (status code result detail : Nat) {e : Prog} (he : s.prog q k = some e) (j : Nat) :
    (s.complete q k status code result detail).qp j = if j = q then (s.qp q).completed k else s.qp j := by
  unfold State.complete
  rw [he]
  dsimp only
  split
  · rw [State.sendIrq_qp, State.putCompletion_qp, State.setQp_qp]
    rfl
  · rw [State.putCompletion_qp, State.setQp_qp]
    rfl

/-- A free queue pair has nothing in progress. -/
theorem prog_free {s : State} {q k : Nat} {e : Prog} (he : s.prog q k = some e) : s.qp q ≠ {} := by
  intro h
  unfold State.prog at he
  rw [h] at he
  exact absurd he (by simp)

theorem complete_none (s : State) {q k : Nat} (status code result detail : Nat) (he : s.prog q k = none) : s.complete q k status code result detail = s := by
  unfold State.complete
  rw [he]

theorem windsQps_complete (s : State) (q k status code result detail : Nat) : WindsQps s (s.complete q k status code result detail) := by
  cases he : s.prog q k with
  | none =>
    rw [complete_none s _ _ _ _ he]
    exact .refl s
  | some e =>
    obtain ⟨hconf, hfn, hcfg, hoff, -⟩ := completed_keeps (s.qp q) k
    intro j
    rw [complete_qp s _ _ _ _ he]
    split
    next hj =>
      rw [hj]
      exact ⟨hconf, hfn, hcfg, hoff, fun h => absurd h (prog_free he)⟩
    next => exact .refl _

/-- A completed descriptor is in progress no more. -/
theorem complete_prog (s : State) (q k status code result detail : Nat) : (s.complete q k status code result detail).prog q k = none := by
  cases he : s.prog q k with
  | none => rw [complete_none s _ _ _ _ he, he]
  | some e =>
    obtain ⟨-, -, -, -, hprog⟩ := completed_keeps (s.qp q) k
    unfold State.prog
    rw [complete_qp s _ _ _ _ he, if_pos rfl, hprog, List.find?_eq_none]
    intro d hd
    obtain ⟨-, hk⟩ := List.mem_filter.mp hd
    simpa using hk

/-- Every descriptor of a queue pair but the one named completes as killed. -/
def State.endDescs (s : State) (keep : Option (Nat × Nat)) (q : Nat) (l : List Prog) : State :=
  l.foldl (fun s e => if keep = some (q, e.k) then s else s.complete q e.k stKilled (Config.statusCode stKilled % 65536) 0 0) s

theorem endDescs_keeps (keep : Option (Nat × Nat)) (q : Nat) (l : List Prog) (s : State) :
    OnlyJournals s (s.endDescs keep q l) ∧ WindsQps s (s.endDescs keep q l) := by
  have hjournals (t : State) (e : Prog) : OnlyJournals t (if keep = some (q, e.k) then t else t.complete q e.k stKilled (Config.statusCode stKilled % 65536) 0 0) :=
    .ite (.refl t) (onlyJournals_complete t _ _ _ _ _ _)
  have hqps (t : State) (e : Prog) : WindsQps t (if keep = some (q, e.k) then t else t.complete q e.k stKilled (Config.statusCode stKilled % 65536) 0 0) := by
    split
    · exact .refl t
    · exact windsQps_complete t _ _ _ _ _ _
  exact ⟨.foldl hjournals l s, .foldl hqps l s⟩

theorem killQp_eq (s : State) (keep : Option (Nat × Nat)) (q : Nat) :
    s.killQp keep q = (s.endDescs keep q (s.qp q).prog).modQp q (fun v => { v with enabled := false, disabling := false }) := rfl

theorem killQp_keeps (s : State) (keep : Option (Nat × Nat)) (q : Nat) :
    OnlyJournals s (s.killQp keep q) ∧ WindsQps s (s.killQp keep q) ∧ ((s.killQp keep q).qp q).enabled = false := by
  obtain ⟨hjournals, hqps⟩ := endDescs_keeps keep q (s.qp q).prog s
  rw [killQp_eq]
  generalize s.endDescs keep q (s.qp q).prog = t at *
  have hstop : (t.qp q).Winds { t.qp q with enabled := false, disabling := false } := ⟨rfl, rfl, rfl, fun _ => rfl, fun h => by rw [h]⟩
  have hset (v : Qp) : OnlyJournals t (t.setQp q v) := .refl t
  refine ⟨hjournals.trans (hset _), hqps.trans (windsQps_setQp t q hstop), ?_⟩
  rw [State.modQp_eq, State.setQp_qp_same]

def State.killQps (s : State) (own : Option (Nat × Nat)) (l : List Nat) : State := l.foldl (fun s q => s.killQp own q) s

theorem killQps_keeps (own : Option (Nat × Nat)) (l : List Nat) (s : State) : OnlyJournals s (s.killQps own l) ∧ WindsQps s (s.killQps own l) := by
  have hjournals (t : State) (q : Nat) : OnlyJournals t (t.killQp own q) := (killQp_keeps t own q).1
  have hqps (t : State) (q : Nat) : WindsQps t (t.killQp own q) := (killQp_keeps t own q).2.1
  exact ⟨.foldl hjournals l s, .foldl hqps l s⟩

/-- Every queue pair killed is disabled. -/
theorem killQps_enabled (own : Option (Nat × Nat)) {l : List Nat} {q : Nat} (hq : q ∈ l) (s : State) : ((s.killQps own l).qp q).enabled = false := by
  obtain ⟨before, after, rfl⟩ := List.append_of_mem hq
  obtain ⟨-, -, hstop⟩ := killQp_keeps (s.killQps own before) own q
  obtain ⟨-, hqps⟩ := killQps_keeps own after ((s.killQps own before).killQp own q)
  obtain ⟨-, -, -, hoff, -⟩ := hqps q
  have hfold : s.killQps own (before ++ q :: after) = ((s.killQps own before).killQp own q).killQps own after := by
    unfold State.killQps
    rw [List.foldl_append, List.foldl_cons]
  rw [hfold]
  exact hoff hstop

end Sys2Proof.Machine

namespace Sys2Proof.Machine
open Sys2Proof

theorem Tbl.get_mem {α : Type} (d : Nat → α) (t : Tbl α) (k : Nat) : (k, Tbl.get d t k) ∈ t ∨ Tbl.get d t k = d k := by
  induction t with
  | nil => exact .inr rfl
  | cons e t ih =>
    obtain ⟨j, v⟩ := e
    by_cases hj : k = j
    · rw [hj, Tbl.get, if_pos rfl]
      exact .inl List.mem_cons_self
    · rw [Tbl.get, if_neg hj]
      exact ih.imp_left (List.mem_cons_of_mem _)

/-- A key is listed where its value is of the kind asked for and what an unlisted key reads is not. -/
theorem mem_keysWhere {α : Type} {d : Nat → α} {p : Nat → α → Bool} {t : Tbl α} {k : Nat} (hp : p k (Tbl.get d t k) = true) (hd : p k (d k) = false) :
    k ∈ Tbl.keysWhere p t := by
  rcases Tbl.get_mem d t k with h | h
  · exact List.mem_map.mpr ⟨_, List.mem_filter.mpr ⟨h, hp⟩, rfl⟩
  · rw [h, hd] at hp
    exact absurd hp Bool.false_ne_true

/-! ## The start of a kill (R410 event 1, R373) -/

/-- The step of a context that is killed stops, or what it has sent is dropped. -/
def State.haltCtx (s : State) (x : Nat) : State :=
  if ((s.part (s.ctx x).part).running.map RunStep.ctx) = some x then s.haltStep (s.ctx x).part else s.dropRequests x

/-- A killed context. -/
def Ctx.killed (v : Ctx) (own : Option (Nat × Nat)) : Ctx :=
  { v with st := .killing, killQ := own, killStage := 1, deferred := [], recoverPending := none, needLayout := false, ckptPending := none }

/-- Its queue pairs are killed. -/
def State.killRings (s : State) (x : Nat) (own : Option (Nat × Nat)) : State :=
  ((s.haltCtx x).modPart (s.ctx x).part (killPart x s.now)).killQps own (s.qpsOf x)

theorem killStart_live {s : State} {x : Nat} (own : Option (Nat × Nat)) (hfree : (s.ctx x).st ≠ .free) (hkill : (s.ctx x).st ≠ .killing) :
    s.killStart x own = (((s.killRings x own).stopCores x).modFn (s.ctx x).fn (fun v => if own.isNone then v.spoil else v)).modCtx x
      (fun v => v.killed own) := by
  unfold State.killStart
  dsimp only
  split
  next h => exact absurd h hfree
  next h => exact absurd h hkill
  next => rfl

theorem killStart_dead {s : State} {x : Nat} (own : Option (Nat × Nat)) (h : (s.ctx x).st = .free ∨ (s.ctx x).st = .killing) :
    s.killStart x own = s := by
  unfold State.killStart
  dsimp only
  rcases h with h | h <;> rw [h]

section
variable (s : State) (x : Nat)

theorem haltCtx_same : (s.haltCtx x).ctxs = s.ctxs ∧ (s.haltCtx x).cores = s.cores ∧ (s.haltCtx x).qps = s.qps ∧ (s.haltCtx x).fns = s.fns := by
  unfold State.haltCtx
  split <;> simp

theorem haltStep_running (p : Nat) : ((s.haltStep p).part p).running = none := by
  unfold State.haltStep
  split
  next h => exact h
  next => rw [State.modPart_eq, State.setPart_part_same]

theorem haltCtx_running : ((s.haltCtx x).part (s.ctx x).part).running.map RunStep.ctx ≠ some x := by
  unfold State.haltCtx
  split
  next =>
    rw [haltStep_running]
    simp
  next h =>
    rw [State.dropRequests_part]
    exact h

end

section
variable (s : State) (x : Nat) (own : Option (Nat × Nat))

/-- What the kill leaves before the cores stop: contexts but for the pages written, cores but for interrupts, and functions. -/
theorem killRings_keeps : (∀ y, { (s.killRings x own).ctx y with written := (s.ctx y).written } = s.ctx y) ∧
    (∀ n, { (s.killRings x own).core n with imsic := (s.core n).imsic } = s.core n) ∧ (∀ f, (s.killRings x own).fn f = s.fn f) := by
  obtain ⟨hctxs, hcores, -, hfns⟩ := haltCtx_same s x
  have hctx (y : Nat) : ((s.haltCtx x).modPart (s.ctx x).part (killPart x s.now)).ctx y = s.ctx y := congrArg (fun m => Tbl.get (fun _ => ({} : Ctx)) m y) hctxs
  have hcore (n : Nat) : ((s.haltCtx x).modPart (s.ctx x).part (killPart x s.now)).core n = s.core n := congrArg (fun m => Tbl.get (fun _ => ({} : Core)) m n) hcores
  have hfn (f : Nat) : ((s.haltCtx x).modPart (s.ctx x).part (killPart x s.now)).fn f = s.fn f := congrArg (fun m => Tbl.get (fun _ => ({} : Fn)) m f) hfns
  unfold State.killRings
  generalize (s.haltCtx x).modPart (s.ctx x).part (killPart x s.now) = t at *
  obtain ⟨hjournals, -⟩ := killQps_keeps own (s.qpsOf x) t
  obtain ⟨hctx', -, hcore'⟩ := hjournals
  refine ⟨fun y => ?_, fun n => ?_, fun f => ?_⟩
  · rw [← hctx]
    exact hctx' y
  · rw [← hcore]
    exact hcore' n
  · rw [← hfn]
    have hkeep : (t.killQps own (s.qpsOf x)).fns = t.fns := foldl_fns _ (fun u q => State.killQp_fns u own q) _ t
    exact congrArg (fun m => Tbl.get (fun _ => ({} : Fn)) m f) hkeep

/-- The partition has no step and no launch of the context any more (R411). -/
theorem killRings_part : (∀ l ∈ ((s.killRings x own).part (s.ctx x).part).launches, l.ctx ≠ x) ∧
    ((s.killRings x own).part (s.ctx x).part).running.map RunStep.ctx ≠ some x := by
  have hpart : ((s.haltCtx x).modPart (s.ctx x).part (killPart x s.now)).part (s.ctx x).part = killPart x s.now ((s.haltCtx x).part (s.ctx x).part) :=
    State.setPart_part_same _ _ _
  have hrunning := haltCtx_running s x
  unfold State.killRings
  generalize (s.haltCtx x).modPart (s.ctx x).part (killPart x s.now) = t at *
  obtain ⟨hjournals, -⟩ := killQps_keeps own (s.qpsOf x) t
  have hlaunches := hjournals.part_field Part.launches (fun _ _ => rfl) (s.ctx x).part
  have hruns := hjournals.part_field Part.running (fun _ _ => rfl) (s.ctx x).part
  rw [hpart] at hlaunches hruns
  rw [hlaunches, hruns]
  refine ⟨fun l hl => ?_, hrunning⟩
  obtain ⟨-, hne⟩ := List.mem_filter.mp hl
  simpa using hne

/-- The queue pairs of the context are disabled, and no other is enabled or taken. -/
theorem killRings_qps : WindsQps s (s.killRings x own) ∧
    ∀ q, (s.qp q).configured = true → (s.qp q).ctx = x → ((s.killRings x own).qp q).enabled = false := by
  obtain ⟨-, -, hqps, -⟩ := haltCtx_same s x
  have hqp (q : Nat) : ((s.haltCtx x).modPart (s.ctx x).part (killPart x s.now)).qp q = s.qp q := congrArg (fun m => Tbl.get (fun _ => ({} : Qp)) m q) hqps
  unfold State.killRings
  generalize (s.haltCtx x).modPart (s.ctx x).part (killPart x s.now) = t at *
  obtain ⟨-, hwinds⟩ := killQps_keeps own (s.qpsOf x) t
  refine ⟨(windsQps_of_same hqp).trans hwinds, fun q hconf hx => killQps_enabled own (mem_keysWhere (d := fun _ => {}) ?_ ?_) t⟩
  · change ((s.qp q).configured && (s.qp q).ctx == x) = true
    rw [hconf, hx]
    simp
  · rfl

end

/-! ### What the start of a kill leaves -/

theorem stopCores_core (s : State) (x n : Nat) : ((s.stopCores x).core n).owner ≠ some x ∧ ((s.stopCores x).core n).failed = (s.core n).failed ∧
    ((s.core n).owner = none → ((s.stopCores x).core n).owner = none) := by
  have hstop (v : Core) : (if v.owner = some x then stopCore v else v).owner ≠ some x ∧ (if v.owner = some x then stopCore v else v).failed = v.failed ∧
      (v.owner = none → (if v.owner = some x then stopCore v else v).owner = none) := by
    split
    · exact ⟨by simp [stopCore], rfl, fun _ => rfl⟩
    next h => exact ⟨h, rfl, id⟩
  rcases Tbl.get_mapVal (fun _ => ({} : Core)) (fun _ v => if v.owner = some x then stopCore v else v) s.cores n with h | ⟨hold, hnew⟩
  · have hcore : (s.stopCores x).core n = if (s.core n).owner = some x then stopCore (s.core n) else s.core n := h
    rw [hcore]
    exact hstop (s.core n)
  · have hcore : (s.stopCores x).core n = s.core n := hnew.trans hold.symm
    have hdefault : s.core n = {} := hold
    rw [hcore, hdefault]
    exact ⟨by simp, rfl, id⟩

theorem spoil_spoil (v : Fn) : v.spoil.spoil = v.spoil := by
  cases h : v.tdi <;> simp [Fn.spoil, h]

/-- A function is as it was, but for a TDI that has gone to ERROR. -/
def SpoilsFn (s t : State) (f : Nat) : Prop := t.fn f = s.fn f ∨ t.fn f = (s.fn f).spoil

theorem SpoilsFn.trans {s t u : State} {f : Nat} (hst : SpoilsFn s t f) (htu : SpoilsFn t u f) : SpoilsFn s u f := by
  unfold SpoilsFn at *
  rcases htu with h | h <;> rcases hst with h' | h'
  · exact .inl (h.trans h')
  · exact .inr (h.trans h')
  · exact .inr (by rw [h, h'])
  · exact .inr (by rw [h, h', spoil_spoil])

/-- What a kill of context x has done, and what it leaves of all else. -/
structure KillBegun (s t : State) (x : Nat) (own : Option (Nat × Nat)) : Prop where
  tarn : t.tarn = s.tarn
  links : t.links = s.links
  target : ∃ w, t.ctx x = { s.ctx x with written := w }.killed own
  others : ∀ y, y ≠ x → { t.ctx y with written := (s.ctx y).written } = s.ctx y
  owner : ∀ n, (t.core n).owner ≠ some x
  failed : ∀ n, (t.core n).failed = (s.core n).failed
  unowned : ∀ n, (s.core n).owner = none → (t.core n).owner = none
  launches : ∀ l ∈ (t.part (s.ctx x).part).launches, l.ctx ≠ x
  running : (t.part (s.ctx x).part).running.map RunStep.ctx ≠ some x
  winds : WindsQps s t
  disabled : ∀ q, (s.qp q).configured = true → (s.qp q).ctx = x → (t.qp q).enabled = false
  spoils : ∀ f, SpoilsFn s t f

theorem killBegun_killStart {s : State} {x : Nat} (own : Option (Nat × Nat)) (hfree : (s.ctx x).st ≠ .free) (hkill : (s.ctx x).st ≠ .killing) :
    KillBegun s (s.killStart x own) x own := by
  obtain ⟨hctx, hcore, hfn⟩ := killRings_keeps s x own
  obtain ⟨hlaunches, hrunning⟩ := killRings_part s x own
  obtain ⟨hwinds, hdisabled⟩ := killRings_qps s x own
  have htarn := State.killStart_tarn s x own
  have hlinks := State.killStart_links s x own
  rw [killStart_live own hfree hkill] at htarn hlinks ⊢
  generalize s.killRings x own = t at *
  have hctx' (y : Nat) : (((t.stopCores x).modFn (s.ctx x).fn (fun v => if own.isNone then v.spoil else v)).modCtx x (fun v => v.killed own)).ctx y =
      if y = x then (t.ctx x).killed own else t.ctx y := State.setCtx_ctx _ _ _ _
  have hcore' (n : Nat) : (((t.stopCores x).modFn (s.ctx x).fn (fun v => if own.isNone then v.spoil else v)).modCtx x (fun v => v.killed own)).core n =
      (t.stopCores x).core n := rfl
  have hfn' (f : Nat) : (((t.stopCores x).modFn (s.ctx x).fn (fun v => if own.isNone then v.spoil else v)).modCtx x (fun v => v.killed own)).fn f =
      if f = (s.ctx x).fn then (if own.isNone then (t.fn (s.ctx x).fn).spoil else t.fn (s.ctx x).fn) else t.fn f := State.setFn_fn _ _ _ _
  have howned (n : Nat) := stopCores_core t x n
  have hfailed (n : Nat) : (t.core n).failed = (s.core n).failed := by
    have h := congrArg Core.failed (hcore n)
    exact h
  have hown (n : Nat) : (t.core n).owner = (s.core n).owner := by
    have h := congrArg Core.owner (hcore n)
    exact h
  refine {
    tarn := htarn, links := hlinks, target := ?_, others := fun y hy => ?_, owner := fun n => ?_, failed := fun n => ?_, unowned := fun n h => ?_,
    launches := hlaunches, running := hrunning, winds := hwinds, disabled := hdisabled, spoils := fun f => ?_ }
  · refine ⟨(t.ctx x).written, ?_⟩
    rw [hctx', if_pos rfl, ← hctx x]
  · rw [hctx', if_neg hy]
    exact hctx y
  · rw [hcore']
    obtain ⟨hne, -, -⟩ := howned n
    exact hne
  · rw [hcore']
    obtain ⟨-, hsame, -⟩ := howned n
    exact hsame.trans (hfailed n)
  · rw [hcore']
    obtain ⟨-, -, hnone⟩ := howned n
    exact hnone ((hown n).trans h)
  · unfold SpoilsFn
    rw [hfn']
    split
    next hf =>
      rw [hf, hfn]
      split
      · exact .inr rfl
      · exact .inl rfl
    next => exact .inl (hfn f)

end Sys2Proof.Machine

namespace Sys2Proof.Machine
open Sys2Proof

/-! ## A context-fatal error of a core's context (R544) -/

theorem onlyJournals_endLaunch (s : State) (x code detail : Nat) : OnlyJournals s (s.endLaunch x code detail) := by
  unfold State.endLaunch
  dsimp only
  split
  · exact .ite (onlyJournals_complete s _ _ _ _ _ _) (.refl s)
  · exact .refl s

/-- What a context-fatal error starts its kill from. -/
def State.fatalNoted (s : State) (x code : Nat) (src : Source) : State :=
  ((s.note code { src with ctx := some x }).endLaunch x code (src.detail.headD 0)).modCtx x (fun v => { v with lastError := code })

theorem fatalNoted_keeps (s : State) (x code : Nat) (src : Source) : ((s.fatalNoted x code src).ctx x).st = (s.ctx x).st ∧
    ∀ n, { (s.fatalNoted x code src).core n with imsic := (s.core n).imsic } = s.core n := by
  have hjournals := (onlyJournals_note s code { src with ctx := some x }).trans (onlyJournals_endLaunch _ x code (src.detail.headD 0))
  have hst := hjournals.ctx_field Ctx.st (fun _ _ => rfl) x
  obtain ⟨-, -, hcore⟩ := hjournals
  unfold State.fatalNoted
  generalize (s.note code { src with ctx := some x }).endLaunch x code (src.detail.headD 0) = t at *
  refine ⟨?_, hcore⟩
  rw [State.modCtx_eq, State.setCtx_ctx_same]
  exact hst

/-- A core that has failed stays so, one of no context gets none, and the context is killed. -/
theorem contextFatal_keeps (s : State) (x code : Nat) (src : Source) :
    (∀ n, ((s.contextFatal x code src).core n).failed = (s.core n).failed ∧ ((s.core n).owner = none → ((s.contextFatal x code src).core n).owner = none)) ∧
    ((s.ctx x).st ≠ .free → ((s.contextFatal x code src).ctx x).st = .killing) := by
  have hnote := onlyJournals_note s code { src with ctx := some x }
  have hcores (n : Nat) : ((s.note code { src with ctx := some x }).core n).failed = (s.core n).failed ∧
      ((s.core n).owner = none → ((s.note code { src with ctx := some x }).core n).owner = none) :=
    ⟨hnote.core_field Core.failed (fun _ _ => rfl) n, fun h => (hnote.core_field Core.owner (fun _ _ => rfl) n).trans h⟩
  by_cases hdead : (s.ctx x).st = .free ∨ (s.ctx x).st = .killing
  · have hfatal : s.contextFatal x code src = s.note code { src with ctx := some x } := by
      unfold State.contextFatal
      rcases hdead with h | h <;> rw [h]
    rw [hfatal]
    refine ⟨hcores, fun hfree => ?_⟩
    rw [State.note_ctx]
    exact hdead.resolve_left hfree
  · obtain ⟨hfree, hkill⟩ := not_or.mp hdead
    obtain ⟨hst, hcore⟩ := fatalNoted_keeps s x code src
    have hfatal : s.contextFatal x code src = (s.fatalNoted x code src).killStart x none := by
      unfold State.contextFatal
      dsimp only
      split
      next h => exact absurd h hfree
      next h => exact absurd h hkill
      next => rfl
    rw [hfatal]
    generalize s.fatalNoted x code src = t at *
    have hbegun := killBegun_killStart (s := t) (x := x) none (by rwa [hst]) (by rwa [hst])
    refine ⟨fun n => ⟨?_, fun h => hbegun.unowned n ?_⟩, fun _ => ?_⟩
    · have h := congrArg Core.failed (hcore n)
      exact (hbegun.failed n).trans h
    · have h' := congrArg Core.owner (hcore n)
      exact Eq.trans h' h
    · obtain ⟨w, hctx⟩ := hbegun.target
      rw [hctx]
      rfl

/-! ## Faults of caches and cores (Table 12.4) -/

/-- A failed core is held in reset, and its context is killed (Table 12.4). -/
theorem failCore_keeps (s : State) (n kind : Nat) : ((s.failCore n kind).core n).failed = true ∧ ((s.failCore n kind).core n).owner = none ∧
    ∀ x, (s.core n).owner = some x → (s.ctx x).st ≠ .free → ((s.failCore n kind).ctx x).st = .killing := by
  have hcore : (s.setCore n { failed := true }).core n = { failed := true } := State.setCore_core_same _ _ _
  have hctx (x : Nat) : (s.setCore n { failed := true }).ctx x = s.ctx x := State.setCore_ctx _ _ _ _
  unfold State.failCore
  dsimp only
  generalize s.setCore n { failed := true } = t at *
  split
  next x hx =>
    obtain ⟨hcores, hkilled⟩ := contextFatal_keeps t x (coreCode 3 kind) (s.atCore n)
    obtain ⟨hfailed, hunowned⟩ := hcores n
    rw [hcore] at hfailed hunowned
    refine ⟨hfailed, hunowned rfl, fun y hy hfree => ?_⟩
    obtain rfl : x = y := Option.some.inj (hx.symm.trans hy)
    rw [hctx] at hkilled
    exact hkilled hfree
  next hnone =>
    rw [hcore]
    exact ⟨rfl, rfl, fun y hy => absurd (hnone.symm.trans hy) (by simp)⟩

/-- The errors of a core in the last second, and now. -/
def State.recentErrors (s : State) (n : Nat) : List Nat := (s.core n).errTimes.filter (fun t => decide (s.now < t + ticksPerS)) ++ [s.now]

theorem coreError_few {s : State} {n : Nat} (h : (s.recentErrors n).length < 3) :
    s.coreError n = s.setCore n { s.core n with errTimes := s.recentErrors n } := if_neg fun hfail => absurd hfail.1 (Nat.not_le.mpr h)

/-- The third error within a second fails a core that has not failed. -/
theorem coreError_failed {s : State} {n : Nat} (h : 3 ≤ (s.recentErrors n).length) : ((s.coreError n).core n).failed = true := by
  by_cases hfailed : (s.core n).failed = false
  · have hfail : s.coreError n = (s.setCore n { s.core n with errTimes := s.recentErrors n }).failCore n 4 := if_pos ⟨h, hfailed⟩
    obtain ⟨hdone, -⟩ := failCore_keeps (s.setCore n { s.core n with errTimes := s.recentErrors n }) n 4
    rw [hfail]
    exact hdone
  · have hkeep : s.coreError n = s.setCore n { s.core n with errTimes := s.recentErrors n } := if_neg fun hfail => hfailed hfail.2
    rw [hkeep, State.setCore_core_same]
    simpa using hfailed

theorem note_recentErrors (s : State) (n code : Nat) (src : Source) : (s.note code src).recentErrors n = s.recentErrors n := by
  have herr := (onlyJournals_note s code src).core_field Core.errTimes (fun _ _ => rfl) n
  unfold State.recentErrors
  rw [herr, State.note_now]

section
variable {n : Nat} {s : State} (hn : n < 384)
include hn

theorem exec_coreFault_cleanLine : exec (.coreFault n .cleanLine) s = .next ((s.note (coreCode 1 1) (s.atCore n)).coreError n) :=
  if_neg (Nat.not_le.mpr hn)

theorem coreFault_correctedEcc : ∃ t : State, exec (.coreFault n .correctedEcc) s = .next t ∧ OnlyReports s t ∧ Logged t (4096 + Config.coreFaultCode 0 % 4096) := by
  have hexec : exec (.coreFault n .correctedEcc) s = .next (s.note (coreCode 1 0) (s.atCore n)) := if_neg (Nat.not_le.mpr hn)
  have hcode : coreCode 1 0 = 4096 + Config.coreFaultCode 0 % 4096 := by
    unfold coreCode
    rw [Nat.one_mul]
  rw [← hcode]
  exact ⟨_, hexec, onlyReports_note _ _ _, logged_note _ _ _⟩

theorem coreFault_cleanLine_few (h : (s.recentErrors n).length < 3) : ∃ t : State, exec (.coreFault n .cleanLine) s = .next t ∧ NoStore s t ∧
    (t.core n).errTimes = s.recentErrors n ∧ (t.core n).failed = (s.core n).failed ∧ (t.core n).owner = (s.core n).owner := by
  have hjournals := onlyJournals_note s (coreCode 1 1) (s.atCore n)
  have hfailed := hjournals.core_field Core.failed (fun _ _ => rfl) n
  have howner := hjournals.core_field Core.owner (fun _ _ => rfl) n
  have hstore := noStore_note s (coreCode 1 1) (s.atCore n)
  have hrecent := note_recentErrors s n (coreCode 1 1) (s.atCore n)
  rw [exec_coreFault_cleanLine hn]
  generalize s.note (coreCode 1 1) (s.atCore n) = t at *
  rw [coreError_few (by rwa [hrecent]), hrecent]
  refine ⟨_, rfl, hstore, ?_⟩
  rw [State.setCore_core_same]
  exact ⟨rfl, hfailed, howner⟩

theorem coreFault_cleanLine_failed (h : 3 ≤ (s.recentErrors n).length) : ∃ t : State, exec (.coreFault n .cleanLine) s = .next t ∧ (t.core n).failed = true := by
  rw [exec_coreFault_cleanLine hn]
  exact ⟨_, rfl, coreError_failed (by rwa [note_recentErrors])⟩

theorem coreFault_controlState (h : (s.core n).failed = false) : ∃ t : State, exec (.coreFault n .controlState) s = .next t ∧ (t.core n).failed = true ∧
    (t.core n).owner = none ∧ ∀ x, (s.core n).owner = some x → (s.ctx x).st ≠ .free → (t.ctx x).st = .killing := by
  have hexec : exec (.coreFault n .controlState) s = .next (if (s.core n).failed then s else s.failCore n 5) := if_neg (Nat.not_le.mpr hn)
  rw [hexec, if_neg (by simp [h])]
  exact ⟨_, rfl, failCore_keeps s n 5⟩

theorem coreFault_directoryEntry (line : Nat) : ∃ t : State, exec (.coreFault n (.directoryEntry line false)) s = .next t ∧ { t with dir := s.dir } = s ∧ t.dirLine line = {} := by
  have hline : (s.setDir line {}).dirLine line = {} := by rw [dirLine_setDir, if_pos rfl]
  have honly (v : DirLine) : { s.setDir line v with dir := s.dir } = s := rfl
  exact ⟨_, if_neg (Nat.not_le.mpr hn), honly {}, hline⟩

end

/-- The two sectors of a line are poisoned, and no cache holds it (R342). -/
def State.lineLost (s : State) (line : Nat) : State := ((s.setDir line {}).setPoison (2 * line) true).setPoison (2 * line + 1) true

theorem lineLost_keeps (s : State) (line : Nat) : { s.lineLost line with dir := s.dir, poison := s.poison } = s ∧ (s.lineLost line).dirLine line = {} ∧
    (s.lineLost line).sectorPoison (64 * line) = true ∧ (s.lineLost line).sectorPoison (64 * line + 32) = true := by
  have hline (v : DirLine) : (((s.setDir line v).setPoison (2 * line) true).setPoison (2 * line + 1) true).dirLine line = v :=
    Tbl.get_set_same _ _ _ _
  have hpoison (v : DirLine) : (((s.setDir line v).setPoison (2 * line) true).setPoison (2 * line + 1) true).poison =
      Tbl.set (fun _ => false) (Tbl.set (fun _ => false) s.poison (2 * line) true) (2 * line + 1) true := rfl
  have honly (v : DirLine) : { ((s.setDir line v).setPoison (2 * line) true).setPoison (2 * line + 1) true with dir := s.dir, poison := s.poison } = s := rfl
  refine ⟨honly {}, ?_, ?_, ?_⟩
  · exact hline {}
  · have hsector : 64 * line / 32 = 2 * line := by omega
    unfold State.sectorPoison State.lineLost
    rw [hpoison, hsector, Tbl.get_set_ne _ _ _ (by omega), Tbl.get_set_same]
  · have hsector : (64 * line + 32) / 32 = 2 * line + 1 := by omega
    unfold State.sectorPoison State.lineLost
    rw [hpoison, hsector, Tbl.get_set_same]

end Sys2Proof.Machine

namespace Sys2Proof.Machine
open Sys2Proof

/-! ## Interrupts, the directory, and the interconnect (R363, R368, R375, R38) -/

/-- Without an owner a core executes nothing. -/
theorem exec_core_unowned {n : Nat} {s : State} (hown : (s.core n).owner = none) (addr : Word) (u : Upset) (d : Row) (v : Word) (len : Nat) :
    exec (.tarnAccessCancel n) s = .next s ∧ exec (.vl8re8V n addr u) s = .next s ∧ exec (.vs8rV n addr d) s = .next s ∧
    exec (.qtarnctlWrite n v) s = .next s ∧ exec (.stepInputStore n len len d) s = .next s := by
  have hruns : (s.core n).runs = false := by simp [Core.runs, hown]
  refine ⟨if_neg (by simp [hown]), ?_, ?_, if_neg (by simp [hruns]), ?_⟩
  · change execVl8re8V n addr u s = _
    unfold execVl8re8V
    rw [hown]
  · change execVs8rV n addr d s = _
    unfold execVs8rV
    rw [hown]
  · change execStepInputStore n len len d s = _
    unfold execStepInputStore
    rw [hown]

theorem tarnAccessCancel_taken {n : Nat} {s : State} (hown : (s.core n).owner.isSome) :
    ∃ t : State, exec (.tarnAccessCancel n) s = .next t ∧ { t with cores := s.cores } = s ∧ t.core n = { s.core n with wait := none, irqTaken := true } :=
  ⟨_, if_pos hown, onlyCores_setCore s n _, State.setCore_core_same _ _ _⟩

theorem directoryEviction_evicts {r line : Nat} {s : State} (hhome : s.homeOf line = some r) :
    ∃ t : State, exec (.directoryEviction r line) s = .next t ∧ t.dirLine line = {} ∧ (∀ l, l ≠ line → t.dirLine l = s.dirLine l) ∧
      t.tarn = s.tarn ∧ ∀ b, t.byte b = s.byte b := by
  refine ⟨_, if_pos hhome, ?_, fun l hl => ?_, State.evictLine_tarn s line, evictLine_byte s line⟩
  · rw [evictLine_dirLine, if_pos rfl]
  · rw [evictLine_dirLine, if_neg hl]

/-- An MSI of the partition is pending at its hart (R375). -/
theorem sendIrq_coreMsi (s : State) (hart file id : Nat) : { s.sendIrq (.coreMsi hart file id) with cores := s.cores, out := s.out } = s ∧
    (file, id) ∈ ((s.sendIrq (.coreMsi hart file id)).core hart).imsic ∧ (s.sendIrq (.coreMsi hart file id)).out = s.out ++ [.coreMsi hart file id] := by
  refine ⟨rfl, ?_, rfl⟩
  have hcore : (s.sendIrq (.coreMsi hart file id)).core hart =
      if (s.core hart).imsic.contains (file, id) then s.core hart else { s.core hart with imsic := (s.core hart).imsic ++ [(file, id)] } :=
    State.setCore_core_same _ _ _
  rw [hcore]
  split
  next h => exact List.contains_iff_mem.mp h
  next => exact List.mem_append_right _ (List.mem_singleton_self _)

/-- A chiplet's interconnect fails: its region has no cores (Table 12.4). -/
def State.coresOut (s : State) (r : Nat) : State :=
  let t := s.modRegion r (fun v => { v with cores := false })
  { t with cores := Tbl.mapVal (fun _ => {}) (fun m v => if coreRegion m = r then stopCore v else v) t.cores }

theorem coresOut_keeps (s : State) (r : Nat) : { s.coresOut r with regions := s.regions, cores := s.cores } = s ∧ ((s.coresOut r).region r).cores = false ∧
    ∀ m, (coreRegion m = r → ((s.coresOut r).core m).owner = none ∧ ((s.coresOut r).core m).running = false) ∧
      (coreRegion m ≠ r → (s.coresOut r).core m = s.core m) := by
  have hregion : (s.coresOut r).region r = { s.region r with cores := false } := State.setRegion_region_same _ _ _
  refine ⟨rfl, congrArg Region.cores hregion, fun m => ?_⟩
  have hget := Tbl.get_mapVal (fun _ => ({} : Core)) (fun m v => if coreRegion m = r then stopCore v else v) s.cores m
  refine ⟨fun hm => ?_, fun hm => ?_⟩
  · rw [if_pos hm] at hget
    rcases hget with h | ⟨-, h⟩
    · have hcore : (s.coresOut r).core m = stopCore (s.core m) := h
      rw [hcore]
      exact ⟨rfl, rfl⟩
    · have hcore : (s.coresOut r).core m = {} := h
      rw [hcore]
      exact ⟨rfl, rfl⟩
  · rw [if_neg hm] at hget
    rcases hget with h | ⟨hold, h⟩
    · exact h
    · exact h.trans hold.symm

theorem exec_coreFault_interconnect {n : Nat} {s : State} (hn : n < 384) (hpart : (s.region (coreRegion n)).part = none) :
    exec (.coreFault n .interconnect) s = .next (s.coresOut (coreRegion n)) := by
  have hexec : exec (.coreFault n .interconnect) s = execCoreFault n .interconnect s := rfl
  rw [hexec]
  unfold execCoreFault
  rw [if_neg (Nat.not_le.mpr hn)]
  dsimp only
  rw [hpart]
  rfl

/-- Settles O27: a core's accesses by the address they name, then its interrupts, the directory, and the faults of Table 12.4. -/
theorem hostProcessorCores : Obligations.HostProcessorCores := by
  unfold Obligations.HostProcessorCores
  refine ⟨fun n x s hown hruns => ⟨fun addr u c off tagged hplace hrec hok hcover => ⟨?_, ?_⟩, fun addr d c off tagged hplace hrec hok hcover => ⟨?_, ?_⟩,
      vl8re8V_fault hown hruns, vs8rV_fault hown hruns, vl8re8V_memory hown hruns, vs8rV_memory hown hruns, qtarnctlWrite_peek hruns,
      fun addr len d hlen hmax hmem hinput => ⟨stepInputStore_stored hown hruns d hlen hmax hmem hinput, exec_stepInputStore_recovering hown d⟩⟩,
    fun n s => tarnAccessCancel_taken, fun n s hown => exec_core_unowned hown, fun r line s => ⟨directoryEviction_evicts, fun h => if_neg h⟩,
    fun a hart file id s => ⟨fun h => ⟨_, if_pos h, sendIrq_coreMsi s hart file id⟩, fun h => if_neg h⟩,
    fun n s hn => ⟨coreFault_correctedEcc hn, coreFault_cleanLine_few hn, coreFault_cleanLine_failed hn, coreFault_controlState hn,
      coreFault_directoryEntry hn, fun line => ?_, fun hpart => ?_⟩⟩
  · exact vl8re8V_read hown hruns hplace hrec hok hcover
  · exact vl8re8V_wait hown hruns hplace hrec hok hcover
  · exact vs8rV_write hown hruns hplace hrec hok hcover
  · exact vs8rV_wait hown hruns hplace hrec hok hcover
  · obtain ⟨honly, hline, hlow, hhigh⟩ := lineLost_keeps s line
    exact ⟨s.lineLost line, honly, hline, hlow, hhigh, if_neg (Nat.not_le.mpr hn), if_neg (Nat.not_le.mpr hn)⟩
  · exact ⟨_, exec_coreFault_interconnect hn hpart, coresOut_keeps s (coreRegion n)⟩

end Sys2Proof.Machine

namespace Sys2Proof.Machine
open Sys2Proof

/-! ## A context killed on command (R410, R411) -/

theorem begin_qp (s : State) (q k j : Nat) : ((s.begin q k).qp j).configured = (s.qp j).configured ∧ ((s.begin q k).qp j).ctx = (s.qp j).ctx := by
  unfold State.begin State.modProg
  rw [State.modQp_eq, State.setQp_qp]
  split
  next hj =>
    rw [hj]
    exact ⟨rfl, rfl⟩
  next => exact ⟨rfl, rfl⟩

/-- KILL begins: the context's cores, queue pairs, launches and step are stopped. -/
theorem kill_begins {q k : Nat} {s : State} {d : Desc} (hstart : s.startedCtl q k 10 = some d) (hfree : (s.ctx (s.qp q).ctx).st ≠ .free)
    (hkill : (s.ctx (s.qp q).ctx).st ≠ .killing) : ∃ t : State, exec (.kill q k) s = .next t ∧ t.tarn = s.tarn ∧ (t.ctx (s.qp q).ctx).st = .killing ∧
      (t.ctx (s.qp q).ctx).killQ = some (q, k) ∧ (t.ctx (s.qp q).ctx).killStage = 1 ∧ (∀ n, (t.core n).owner ≠ some (s.qp q).ctx) ∧
      (∀ j, (s.qp j).configured = true → (s.qp j).ctx = (s.qp q).ctx → (t.qp j).enabled = false) ∧
      (∀ l ∈ (t.part (s.ctx (s.qp q).ctx).part).launches, l.ctx ≠ (s.qp q).ctx) ∧
      (t.part (s.ctx (s.qp q).ctx).part).running.map RunStep.ctx ≠ some (s.qp q).ctx := by
  generalize hx : (s.qp q).ctx = x at *
  have hexec : exec (.kill q k) s = .next ((s.begin q k).killStart x (some (q, k))) := by
    change execKill q k s = _
    unfold execKill
    rw [hstart, hx]
  have hbegun : KillBegun (s.begin q k) ((s.begin q k).killStart x (some (q, k))) x (some (q, k)) := killBegun_killStart (some (q, k)) hfree hkill
  obtain ⟨w, hctx⟩ := hbegun.target
  refine ⟨_, hexec, hbegun.tarn, ?_, ?_, ?_, hbegun.owner, fun j hconf hj => ?_, hbegun.launches, hbegun.running⟩
  · rw [hctx]
    rfl
  · rw [hctx]
    rfl
  · rw [hctx]
    rfl
  · obtain ⟨hconf', hctx'⟩ := begin_qp s q k j
    exact hbegun.disabled j (hconf'.trans hconf) (hctx'.trans hj)

section
variable {a : Agent} {p x : Nat} {s : State}

/-- PRT_CTX_KILL begins a kill that no descriptor waits for. -/
theorem prtCtxKill_begins (hagent : s.prtAgent a p = true) (hx : x < 1024) (hpart : (s.ctx x).part = p) (hfree : (s.ctx x).st ≠ .free)
    (hkill : (s.ctx x).st ≠ .killing) : ∃ t : State, exec (.prtCtxKill a p x) s = .next t ∧ t.tarn = s.tarn ∧ (t.ctx x).st = .killing ∧ (t.ctx x).killQ = none := by
  have hgo : (s.prtAgent a p && decide (x < 1024) && (s.ctx x).part == p && decide ((s.ctx x).st ≠ .free)) = true := by simp [hagent, hx, hpart, hfree]
  have hbegun := killBegun_killStart (s := s) (x := x) none hfree hkill
  obtain ⟨w, hctx⟩ := hbegun.target
  refine ⟨_, if_pos hgo, hbegun.tarn, ?_, ?_⟩
  · rw [hctx]
    rfl
  · rw [hctx]
    rfl

theorem exec_prtCtxKill_ignored (h : s.prtAgent a p = false ∨ (s.ctx x).part ≠ p ∨ (s.ctx x).st = .free) : exec (.prtCtxKill a p x) s = .next s := by
  refine if_neg ?_
  rcases h with h | h | h <;> simp [h]

end

/-! ## The crypto-erase (R410 events 4 and 5, R448) -/

/-- The state of an erased context: nothing but its function and its last error. -/
def Ctx.erased (v : Ctx) : Ctx := { fn := v.fn, lastError := v.lastError }

theorem eraseCtx_keeps (s : State) (x : Nat) : (s.eraseCtx x).tarn = s.tarn ∧ (s.eraseCtx x).qps = s.qps ∧ (s.eraseCtx x).ctx x = (s.ctx x).erased ∧
    ∀ g, (s.page g).owner = x → (s.page g).use ≠ .free → (s.page g).use ≠ .zeroing → ((s.eraseCtx x).page g).use = .zeroing ∧ ((s.eraseCtx x).page g).owner = 0 := by
  refine ⟨rfl, rfl, State.setCtx_ctx_same _ _ _, fun g howner hfree hzero => ?_⟩
  have hpages : (s.eraseCtx x).pages = Tbl.mapVal (fun _ => {}) (fun _ (v : Page) => if v.owner = x ∧ v.use ≠ PageUse.free ∧ v.use ≠ PageUse.zeroing then
      { v with use := .zeroing, owner := 0 } else v) s.pages := rfl
  have hpage : (s.eraseCtx x).page g = Tbl.get (fun _ => {}) (s.eraseCtx x).pages g := rfl
  rw [hpage, hpages]
  rcases Tbl.get_mapVal (fun _ => ({} : Page)) (fun _ (v : Page) => if v.owner = x ∧ v.use ≠ PageUse.free ∧ v.use ≠ PageUse.zeroing then
      { v with use := .zeroing, owner := 0 } else v) s.pages g with h | ⟨hold, -⟩
  · rw [h, if_pos ⟨howner, hfree, hzero⟩]
    exact ⟨rfl, rfl⟩
  · have hdefault : s.page g = {} := hold
    rw [hdefault] at hfree
    exact absurd rfl hfree

/-- The context's pages, records and state are erased, and it is resident no more. -/
def State.ctxErased (s : State) (x : Nat) : State :=
  ((s.note 0x0809 { part := (s.ctx x).part, ctx := some x, detail := [x] }).eraseCtx x).modPart (s.ctx x).part
    (fun v => if v.resident = some x then { v with resident := none } else v)

theorem ctxErased_keeps (s : State) (x : Nat) : (s.ctxErased x).tarn = s.tarn ∧ (∀ q, (s.ctxErased x).qp q = s.qp q) ∧
    (s.ctxErased x).ctx x = (s.ctx x).erased ∧ ((s.ctxErased x).part (s.ctx x).part).resident ≠ some x ∧
    ∀ g, (s.page g).owner = x → (s.page g).use ≠ .free → (s.page g).use ≠ .zeroing → ((s.ctxErased x).page g).use = .zeroing ∧ ((s.ctxErased x).page g).owner = 0 := by
  have hnoteTarn := State.note_tarn s 0x0809 { part := (s.ctx x).part, ctx := some x, detail := [x] }
  have hnoteQps := State.note_qps s 0x0809 { part := (s.ctx x).part, ctx := some x, detail := [x] }
  have hnoteCtx := State.note_ctx s 0x0809 { part := (s.ctx x).part, ctx := some x, detail := [x] } x
  have hnotePage := fun g => State.note_page s 0x0809 { part := (s.ctx x).part, ctx := some x, detail := [x] } g
  unfold State.ctxErased
  generalize s.note 0x0809 { part := (s.ctx x).part, ctx := some x, detail := [x] } = t at *
  obtain ⟨htarn, hqps, hctx, hpage⟩ := eraseCtx_keeps t x
  generalize t.eraseCtx x = u at *
  refine ⟨htarn.trans hnoteTarn, fun q => congrArg (fun m => Tbl.get (fun _ => ({} : Qp)) m q) (hqps.trans hnoteQps), ?_, ?_, fun g => ?_⟩
  · rw [← hnoteCtx]
    exact hctx
  · rw [State.modPart_eq, State.setPart_part_same]
    split
    next => simp
    next h => exact h
  · rw [← hnotePage]
    exact hpage g

/-- The descriptor of the kill, if any, completes. -/
def State.killReported (s : State) (own : Option (Nat × Nat)) : State := match own with
  | some (q, k) => s.complete q k stOk 0 0 0
  | none => s

theorem killReported_keeps (s : State) (own : Option (Nat × Nat)) : OnlyJournals s (s.killReported own) ∧ (s.killReported own).tarn = s.tarn ∧
    (∀ g, (s.killReported own).page g = s.page g) ∧ ∀ q k, own = some (q, k) → (s.killReported own).prog q k = none := by
  unfold State.killReported
  split
  next q k =>
    refine ⟨onlyJournals_complete s _ _ _ _ _ _, State.complete_tarn _ _ _ _ _ _ _, State.complete_page _ _ _ _ _ _ _, ?_⟩
    rintro q' k' h
    obtain ⟨rfl, rfl⟩ := Prod.mk.inj (Option.some.inj h)
    exact complete_prog s q k _ _ _ _
  next => exact ⟨.refl s, rfl, fun _ => rfl, fun q k h => absurd h (by simp)⟩

/-- The state the erase of a killed context leaves before what waits for the partition goes on. -/
def State.cryptoErased (s : State) (x : Nat) : State :=
  let t := (s.ctxErased x).killReported (s.ctx x).killQ
  t.modPart (s.ctx x).part (fun v => { v with journalLow := t.journalLow (s.ctx x).part })

theorem exec_killCryptoErase {x : Nat} {s : State} (hst : (s.ctx x).st = .killing) (hstage : (s.ctx x).killStage = 3) :
    exec (.killCryptoErase x) s = .next ((s.cryptoErased x).boundaryWork (s.ctx x).part) := by
  have hgo : ¬((s.ctx x).st ≠ .killing ∨ (s.ctx x).killStage ≠ 3) := by simp [hst, hstage]
  change execKillCryptoErase x s = _
  unfold execKillCryptoErase State.cryptoErased State.killReported State.ctxErased
  dsimp only
  rw [if_neg hgo] <;> rfl

theorem killCryptoErase_erases {x : Nat} {s : State} (hst : (s.ctx x).st = .killing) (hstage : (s.ctx x).killStage = 3) :
    ∃ t : State, exec (.killCryptoErase x) s = .next (t.boundaryWork (s.ctx x).part) ∧ t.tarn = s.tarn ∧ (t.ctx x).st = .free ∧ (t.ctx x).slots = [] ∧
      (t.ctx x).lastError = (s.ctx x).lastError ∧ (t.part (s.ctx x).part).resident ≠ some x ∧
      (∀ g, (s.page g).owner = x → (s.page g).use ≠ .free → (s.page g).use ≠ .zeroing → (t.page g).use = .zeroing ∧ (t.page g).owner = 0) ∧
      (∀ q k, (s.ctx x).killQ = some (q, k) → ∀ d, s.prog q k = some d → t.prog q k = none) := by
  refine ⟨s.cryptoErased x, exec_killCryptoErase hst hstage, ?_⟩
  obtain ⟨htarn, -, hctx, hresident, hpage⟩ := ctxErased_keeps s x
  unfold State.cryptoErased
  dsimp only
  generalize s.ctxErased x = t at *
  obtain ⟨hjournals, htarn', hpage', hprog⟩ := killReported_keeps t (s.ctx x).killQ
  have hctxSt := hjournals.ctx_field Ctx.st (fun _ _ => rfl) x
  have hctxSlots := hjournals.ctx_field Ctx.slots (fun _ _ => rfl) x
  have hctxError := hjournals.ctx_field Ctx.lastError (fun _ _ => rfl) x
  have hres := hjournals.part_field Part.resident (fun _ _ => rfl) (s.ctx x).part
  rw [hctx] at hctxSt hctxSlots hctxError
  generalize t.killReported (s.ctx x).killQ = u at *
  refine ⟨htarn'.trans htarn, hctxSt, hctxSlots, hctxError, ?_, fun g howner hfree hzero => ?_, fun q k hown _ _ => hprog q k hown⟩
  · rw [State.modPart_eq, State.setPart_part_same]
    exact fun h => hresident (hres.symm.trans h)
  · have hkeep : ∀ v, (u.setPart (s.ctx x).part v).page g = t.page g := fun v => hpage' g
    rw [State.modPart_eq, hkeep]
    exact hpage g howner hfree hzero

theorem exec_killCryptoErase_early {x : Nat} {s : State} (h : (s.ctx x).st ≠ .killing ∨ (s.ctx x).killStage ≠ 3) : exec (.killCryptoErase x) s = .next s :=
  if_pos h

end Sys2Proof.Machine

namespace Sys2Proof.Machine
open Sys2Proof

/-! ## The scrub of a partition (R106) -/

/-- The step of a context switch that waits for the scrub. -/
def scrubSwitch (w : Option CtxSwitch) : Option CtxSwitch := match w with
  | some w => some (if w.stage = .scrubbing then { w with stage := .restoring } else w)
  | none => none

/-- The rows of the partition are zero and EMPTY, its handles invalid, and the scrub has ended. -/
def State.scrubEnded (s : State) (p : Nat) : State :=
  (State.clearHandles { s with tarn := Tbl.drop (fun key => inRegions (s.part p).regions (key / 16384)) s.tarn } p).modPart p
    (fun v => { v with scrubbing := false, switching := scrubSwitch v.switching })

/-- A killed context whose tarn is scrubbed leaves the partition. -/
def State.killScrubbed (s : State) (p x : Nat) : State :=
  (s.modCtx x (fun v => { v with killStage := 3 })).modPart p (fun v => { v with resident := none })

/-- The state the end of a scrub leaves before what waits for the partition goes on. -/
def State.scrubbed (s : State) (p : Nat) : State := match (s.part p).resident with
  | some x => if (s.ctx x).st = XState.killing ∧ (s.ctx x).killStage = 2 then (s.scrubEnded p).killScrubbed p x else s.scrubEnded p
  | none => s.scrubEnded p

section
variable (s : State) (p : Nat)

theorem exec_scrubDone (h : (s.part p).scrubbing = true) : exec (.scrubDone p) s = .next ((s.scrubbed p).boundaryWork p) := by
  have hgo : (s.part p).scrubbing ≠ false := by simp [h]
  change execScrubDone p s = _
  unfold execScrubDone State.scrubbed
  rw [if_neg hgo] <;> rfl

theorem scrubEnded_keeps : (s.scrubEnded p).mem = s.mem ∧ (s.scrubEnded p).ctxs = s.ctxs ∧ ((s.scrubEnded p).part p).scrubbing = false := by
  refine ⟨rfl, rfl, ?_⟩
  unfold State.scrubEnded
  rw [State.modPart_eq, State.setPart_part_same]

theorem scrubEnded_trow (c : Nat) {n : Nat} (hn : n < 16384) :
    (s.scrubEnded p).trow c n = if inRegions (s.part p).regions c then {} else s.trow c n :=
  get_drop_rows (inRegions (s.part p).regions) s.tarn c hn

theorem scrubEnded_handles {c : Nat} (hc : inRegions (s.part p).regions c = true) : ((s.scrubEnded p).cl c).handles = [] := by
  have hcl : (s.scrubEnded p).cl c = Tbl.get (fun _ => {}) (Tbl.mapVal (fun _ => {}) (fun c (v : Cluster) =>
      if inRegions (s.part p).regions c then { v with handles := [] } else v) s.clusters) c := rfl
  rw [hcl]
  rcases Tbl.get_mapVal (fun _ => ({} : Cluster)) (fun c (v : Cluster) => if inRegions (s.part p).regions c then { v with handles := [] } else v)
    s.clusters c with h | ⟨-, h⟩
  · rw [h, if_pos hc]
  · rw [h]

theorem killScrubbed_keeps (x : Nat) : (s.killScrubbed p x).mem = s.mem ∧ (s.killScrubbed p x).tarn = s.tarn ∧ (s.killScrubbed p x).clusters = s.clusters ∧
    ((s.killScrubbed p x).part p).scrubbing = (s.part p).scrubbing ∧ ((s.killScrubbed p x).ctx x).killStage = 3 ∧
    ((s.killScrubbed p x).part p).resident = none := by
  have hpart : (s.killScrubbed p x).part p = { s.part p with resident := none } := State.setPart_part_same _ _ _
  have hctx : (s.killScrubbed p x).ctx x = { s.ctx x with killStage := 3 } := State.setCtx_ctx_same _ _ _
  rw [hpart, hctx]
  exact ⟨rfl, rfl, rfl, rfl, rfl, rfl⟩

theorem scrubbed_keeps : (s.scrubbed p).mem = (s.scrubEnded p).mem ∧ (s.scrubbed p).tarn = (s.scrubEnded p).tarn ∧
    (s.scrubbed p).clusters = (s.scrubEnded p).clusters ∧ ((s.scrubbed p).part p).scrubbing = ((s.scrubEnded p).part p).scrubbing := by
  unfold State.scrubbed
  split
  next x _ =>
    split
    · obtain ⟨hmem, htarn, hclusters, hscrub, -, -⟩ := killScrubbed_keeps (s.scrubEnded p) p x
      exact ⟨hmem, htarn, hclusters, hscrub⟩
    · exact ⟨rfl, rfl, rfl, rfl⟩
  next => exact ⟨rfl, rfl, rfl, rfl⟩

theorem scrubbed_killed {x : Nat} (hres : (s.part p).resident = some x) (hst : (s.ctx x).st = .killing) (hstage : (s.ctx x).killStage = 2) :
    s.scrubbed p = (s.scrubEnded p).killScrubbed p x := by
  unfold State.scrubbed
  rw [hres]
  exact if_pos ⟨hst, hstage⟩

/-- The scrub of a partition ends. -/
theorem scrubDone_scrubs (hscrub : (s.part p).scrubbing = true) : ∃ t : State, exec (.scrubDone p) s = .next (t.boundaryWork p) ∧ t.mem = s.mem ∧
    (∀ c n, n < 16384 → (inRegions (s.part p).regions c = true → t.trow c n = {}) ∧
      (inRegions (s.part p).regions c = false → t.trow c n = s.trow c n)) ∧
    (∀ c, inRegions (s.part p).regions c = true → (t.cl c).handles = []) ∧ (t.part p).scrubbing = false ∧
    (∀ x, (s.part p).resident = some x → (s.ctx x).st = .killing → (s.ctx x).killStage = 2 → (t.ctx x).killStage = 3 ∧ (t.part p).resident = none) := by
  obtain ⟨hmem, -, hended⟩ := scrubEnded_keeps s p
  obtain ⟨hmem', htarn, hclusters, hscrub'⟩ := scrubbed_keeps s p
  have hrow : ∀ c n, (s.scrubbed p).trow c n = (s.scrubEnded p).trow c n := fun c n => congrArg (fun m => Tbl.get (fun _ => ({} : TarnRow)) m (rowKey c n)) htarn
  have hcl : ∀ c, (s.scrubbed p).cl c = (s.scrubEnded p).cl c := fun c => congrArg (fun m => Tbl.get (fun _ => ({} : Cluster)) m c) hclusters
  refine ⟨s.scrubbed p, exec_scrubDone s p hscrub, hmem'.trans hmem, fun c n hn => ?_, fun c hc => ?_, hscrub'.trans hended, fun x hres hst hstage => ?_⟩
  · rw [hrow, scrubEnded_trow s p c hn]
    exact ⟨fun h => if_pos h, fun h => if_neg (by simp [h])⟩
  · rw [hcl]
    exact scrubEnded_handles s p hc
  · rw [scrubbed_killed s p hres hst hstage]
    obtain ⟨-, -, -, -, hkilled, hresident⟩ := killScrubbed_keeps (s.scrubEnded p) p x
    exact ⟨hkilled, hresident⟩

end

/-! ## The context switch (R409) -/

/-- What is saved of an outgoing context. -/
def State.savedOf (s : State) (p o : Nat) : Saved :=
  { rows := (s.partRows p).map (fun e => (e.1, savedRow e.2)), handles := s.ctxTables o, layout := (s.ctx o).layout, epoch := (s.ctx o).epoch }

/-- The outgoing context is saved and the scrub has begun. -/
def State.switchedOut (s : State) (p o : Nat) (w : CtxSwitch) : State :=
  ((s.modCtx o (fun v => { v with st := .waiting, save := some (s.savedOf p o) })).modPart p
    (fun v => { v with resident := none, switching := some { w with stage := .scrubbing } })).startScrub p

section
variable {p o : Nat} {w : CtxSwitch} {s : State}

theorem exec_contextSaveDone (hsw : (s.part p).switching = some w) (hstage : w.stage = .saving) (hout : w.outgoing = some o)
    (hclean : ∀ e ∈ s.partRows p, e.2.syndrome = 0) : exec (.contextSaveDone p) s = .next (s.switchedOut p o w) := by
  have hbad : (s.partRows p).filter (fun e => decide (e.2.syndrome ≠ 0) && decide (e.2.tag ≠ .poisoned)) = [] := by
    refine List.filter_eq_nil_iff.mpr fun e he => ?_
    simp [hclean e he]
  obtain ⟨stage, outgoing, incoming⟩ := w
  obtain rfl : stage = .saving := hstage
  obtain rfl : outgoing = some o := hout
  change execContextSaveDone p s = _
  unfold execContextSaveDone
  rw [hsw]
  dsimp only
  rw [hbad] <;> rfl

theorem savedOf_rows (hclean : ∀ e ∈ s.partRows p, e.2.syndrome = 0) : (s.savedOf p o).rows = s.partRows p := by
  refine (List.map_congr_left (g := id) fun e he => ?_).trans (List.map_id _)
  have hrow : savedRow e.2 = e.2 := if_neg (by simp [hclean e he])
  rw [hrow]
  rfl

theorem switchedOut_keeps (s : State) (p o : Nat) (w : CtxSwitch) : { s.switchedOut p o w with parts := s.parts, ctxs := s.ctxs } = s ∧
    (s.switchedOut p o w).ctx o = { s.ctx o with st := .waiting, save := some (s.savedOf p o) } ∧
    (s.switchedOut p o w).part p = { s.part p with resident := none, switching := some { w with stage := .scrubbing }, scrubbing := true } := by
  have hrest (v : Ctx) (a b : Part) : { ((s.setCtx o v).setPart p a).setPart p b with parts := s.parts, ctxs := s.ctxs } = s := by
    simp only [State.setPart, State.setCtx]
  have hctx (v : Ctx) (a b : Part) : (((s.setCtx o v).setPart p a).setPart p b).ctx o = v := State.setCtx_ctx_same _ _ _
  unfold State.switchedOut State.startScrub
  generalize s.savedOf p o = v
  rw [State.modPart_eq, State.modPart_eq, State.modCtx_eq]
  refine ⟨hrest _ _ _, hctx _ _ _, ?_⟩
  rw [State.setPart_part_same, State.setPart_part_same]
  rfl

/-- The outgoing context is saved. -/
theorem contextSaveDone_saves (hsw : (s.part p).switching = some w) (hstage : w.stage = .saving) (hout : w.outgoing = some o)
    (hclean : ∀ e ∈ s.partRows p, e.2.syndrome = 0) : ∃ t : State, exec (.contextSaveDone p) s = .next t ∧ { t with parts := s.parts, ctxs := s.ctxs } = s ∧
      (t.ctx o).st = .waiting ∧ (t.part p).resident = none ∧ (t.part p).scrubbing = true ∧
      (t.part p).switching = some { w with stage := .scrubbing } ∧ ∃ v, (t.ctx o).save = some v ∧ v.rows = s.partRows p ∧ v.handles = s.ctxTables o := by
  obtain ⟨hsame, hctx, hpart⟩ := switchedOut_keeps s p o w
  refine ⟨_, exec_contextSaveDone hsw hstage hout hclean, hsame, ?_⟩
  rw [hctx, hpart]
  exact ⟨rfl, rfl, rfl, rfl, _, rfl, savedOf_rows hclean, rfl⟩

theorem exec_switch_none (hsw : (s.part p).switching = none) : exec (.contextSaveDone p) s = .next s ∧ exec (.contextRestoreDone p) s = .next s := by
  constructor
  · change execContextSaveDone p s = _
    unfold execContextSaveDone
    rw [hsw]
  · change execContextRestoreDone p s = _
    unfold execContextRestoreDone
    rw [hsw]

end

/-! ### Tarn restored -/

section
variable (keep : Nat → Bool)

theorem restoreRows_mem (rows : Tbl TarnRow) (s : State) : (s.restoreRows rows keep).mem = s.mem :=
  foldl_mem _ (fun t e => by split <;> rfl) rows s

/-- A row that is not among those saved is as it was. -/
theorem restoreRows_other (rows : Tbl TarnRow) (s : State) {k : Nat} (hk : k ∉ rows.map Prod.fst) :
    Tbl.get (fun _ => {}) (s.restoreRows rows keep).tarn k = Tbl.get (fun _ => {}) s.tarn k := by
  unfold State.restoreRows
  induction rows generalizing s with
  | nil => rfl
  | cons e rows ih =>
    rw [List.map_cons, List.mem_cons, not_or] at hk
    obtain ⟨hne, hrest⟩ := hk
    rw [List.foldl_cons, ih _ hrest]
    split
    · exact Tbl.get_set_ne _ _ _ hne
    · rfl

/-- A saved row is restored. -/
theorem restoreRows_row (rows : Tbl TarnRow) (s : State) {k : Nat} {r : TarnRow} (hkeep : keep (k / 16384) = true) (hnodup : (rows.map Prod.fst).Nodup)
    (hr : (k, r) ∈ rows) : Tbl.get (fun _ => {}) (s.restoreRows rows keep).tarn k = r := by
  induction rows generalizing s with
  | nil => exact absurd hr List.not_mem_nil
  | cons e rows ih =>
    rw [List.map_cons, List.nodup_cons] at hnodup
    obtain ⟨hhead, hrest⟩ := hnodup
    rcases List.mem_cons.mp hr with rfl | hr
    · have hstep : s.restoreRows ((k, r) :: rows) keep = State.restoreRows { s with tarn := Tbl.set (fun _ => {}) s.tarn k r } rows keep := by
        unfold State.restoreRows
        rw [List.foldl_cons, if_pos hkeep]
      rw [hstep, restoreRows_other keep rows _ hhead]
      exact Tbl.get_set_same _ _ _ _
    · exact ih _ hrest hr

end

theorem restoreHandles_keeps (keep : Nat → Nat → Bool) (hs : Tbl HandleEntry) (s : State) : (s.restoreHandles hs keep).mem = s.mem ∧
    (s.restoreHandles hs keep).tarn = s.tarn :=
  ⟨foldl_mem _ (fun t e => by split <;> rfl) hs s, foldl_tarn _ (fun t e => by split <;> rfl) hs s⟩

/-- The loads that go on change the slots of the context alone. -/
theorem resumeLoads_keeps (s : State) (x : Nat) : (s.resumeLoads x).mem = s.mem ∧ (s.resumeLoads x).tarn = s.tarn ∧
    (s.resumeLoads x).parts = s.parts ∧ ((s.resumeLoads x).ctx x).st = (s.ctx x).st := by
  unfold State.resumeLoads
  generalize (s.ctx x).slots.filter (fun e => decide (e.2.state = .loading)) = l
  refine ⟨foldl_mem _ (fun t e => ?_) l s, foldl_tarn _ (fun t e => ?_) l s, foldl_parts _ (fun t e => ?_) l s, ?_⟩
  · rfl
  · rfl
  · rfl
  generalize s.now = now
  induction l generalizing s with
  | nil => rfl
  | cons e l ih =>
    rw [List.foldl_cons, ih]
    unfold State.modSlot State.setSlot
    rw [State.modCtx_eq, State.setCtx_ctx_same]

/-- The tarn of the incoming context is restored, if it has any. -/
def State.tarnRestored (s : State) (p x : Nat) : State := match (s.ctx x).save with
  | some v => (s.restoreRows v.rows (fun c => inRegions (s.part p).regions c)).restoreHandles v.handles (fun c _ => inRegions (s.part p).regions c)
  | none => s

/-- The context becomes resident. -/
def State.madeResident (s : State) (p x since : Nat) : State :=
  (s.modCtx x (fun v => { v with st := .resident, save := none, beenResident := true })).modPart p
    (fun v => { v with resident := some x, residentSince := since, switching := none })

theorem tarnRestored_keeps (s : State) (p x : Nat) : (s.tarnRestored p x).mem = s.mem ∧
    ((s.ctx x).save = none → (s.tarnRestored p x).tarn = s.tarn) ∧
    ∀ v, (s.ctx x).save = some v → ∀ c n, n < 16384 → inRegions (s.part p).regions c = true →
      (v.rows.map Prod.fst).Nodup → ∀ r, (rowKey c n, r) ∈ v.rows → (s.tarnRestored p x).trow c n = r := by
  unfold State.tarnRestored
  cases hsave : (s.ctx x).save with
  | none => exact ⟨rfl, fun _ => rfl, fun v h => absurd h (by simp)⟩
  | some v =>
    dsimp only
    have hrow {k : Nat} {r : TarnRow} := restoreRows_row (k := k) (r := r) (fun c => inRegions (s.part p).regions c) v.rows s
    have hmem := restoreRows_mem (fun c => inRegions (s.part p).regions c) v.rows s
    generalize s.restoreRows v.rows (fun c => inRegions (s.part p).regions c) = t at *
    obtain ⟨hmem', htarn⟩ := restoreHandles_keeps (fun c _ => inRegions (s.part p).regions c) v.handles t
    refine ⟨hmem'.trans hmem, fun h => absurd h (by simp), fun v' hv c n hn hc hnodup r hr => ?_⟩
    obtain rfl := Option.some.inj hv
    rw [State.trow_def, htarn]
    exact hrow (by rw [rowKey_div c hn]; exact hc) hnodup hr

theorem madeResident_keeps (s : State) (p x since : Nat) : (s.madeResident p x since).mem = s.mem ∧ (s.madeResident p x since).tarn = s.tarn ∧
    ((s.madeResident p x since).ctx x).st = .resident ∧
    (s.madeResident p x since).part p = { s.part p with resident := some x, residentSince := since, switching := none } := by
  refine ⟨rfl, rfl, ?_, State.setPart_part_same _ _ _⟩
  unfold State.madeResident
  rw [State.modPart_eq, State.setPart_ctx, State.modCtx_eq, State.setCtx_ctx_same]

section
variable {p : Nat} {w : CtxSwitch} {s : State}

theorem exec_contextRestoreDone (hsw : (s.part p).switching = some w) (hstage : w.stage = .restoring) (hscrub : (s.part p).scrubbing = false)
    (hdrain : (s.part p).drain = none) (hlayout : (s.ctx w.incoming).needLayout = false) :
    exec (.contextRestoreDone p) s =
      .next ((((s.tarnRestored p w.incoming).madeResident p w.incoming s.now).resumeLoads w.incoming).boundaryWork p) := by
  have hskip : ¬(s.ctx w.incoming).needLayout = true := by simp [hlayout]
  change execContextRestoreDone p s = _
  unfold execContextRestoreDone State.tarnRestored
  rw [hsw]
  dsimp only
  rw [if_pos ⟨hstage, hscrub, hdrain⟩, if_neg hskip] <;> rfl

/-- The incoming context is resident, its tarn restored. -/
theorem contextRestoreDone_restores (hsw : (s.part p).switching = some w) (hstage : w.stage = .restoring) (hscrub : (s.part p).scrubbing = false)
    (hdrain : (s.part p).drain = none) (hlayout : (s.ctx w.incoming).needLayout = false) :
    ∃ t : State, exec (.contextRestoreDone p) s = .next (t.boundaryWork p) ∧ t.mem = s.mem ∧ (t.ctx w.incoming).st = .resident ∧
      (t.part p).resident = some w.incoming ∧ (t.part p).residentSince = s.now ∧ (t.part p).switching = none ∧
      ((s.ctx w.incoming).save = none → t.tarn = s.tarn) ∧
      ∀ v, (s.ctx w.incoming).save = some v → ∀ c n, n < 16384 → inRegions (s.part p).regions c = true →
        (v.rows.map Prod.fst).Nodup → ∀ r, (rowKey c n, r) ∈ v.rows → t.trow c n = r := by
  refine ⟨_, exec_contextRestoreDone hsw hstage hscrub hdrain hlayout, ?_⟩
  generalize w.incoming = x
  obtain ⟨hmem, hnone, hrow⟩ := tarnRestored_keeps s p x
  generalize s.tarnRestored p x = t at *
  obtain ⟨hmem', htarn, hst, hpart⟩ := madeResident_keeps t p x s.now
  generalize t.madeResident p x s.now = u at *
  obtain ⟨hmem'', htarn', hparts, hst'⟩ := resumeLoads_keeps u x
  generalize u.resumeLoads x = v at *
  have hpart' : v.part p = { t.part p with resident := some x, residentSince := s.now, switching := none } :=
    (congrArg (fun m => Tbl.get (fun _ => ({} : Part)) m p) hparts).trans hpart
  rw [hpart']
  refine ⟨(hmem''.trans hmem').trans hmem, hst'.trans hst, rfl, rfl, rfl, fun h => (htarn'.trans htarn).trans (hnone h), fun sv hsave c n hn hc hnodup r hr => ?_⟩
  rw [State.trow_def, htarn'.trans htarn]
  exact hrow sv hsave c n hn hc hnodup r hr

end

end Sys2Proof.Machine

namespace Sys2Proof.Machine
open Sys2Proof

/-! ## What every reset keeps (R383) -/

/-- A context is as it was, or one that exists is killed. -/
def Ctx.Kills (v w : Ctx) : Prop := w.fn = v.fn ∧ (w.st = v.st ∨ (v.st ≠ .free ∧ w.st = .killing))

theorem Ctx.Kills.refl (v : Ctx) : v.Kills v := ⟨rfl, .inl rfl⟩

theorem Ctx.Kills.trans {u v w : Ctx} (huv : u.Kills v) (hvw : v.Kills w) : u.Kills w := by
  obtain ⟨hfn, hst⟩ := huv
  obtain ⟨hfn', hst'⟩ := hvw
  refine ⟨hfn'.trans hfn, ?_⟩
  rcases hst with hst | ⟨hlive, hst⟩
  · rwa [hst] at hst'
  · refine .inr ⟨hlive, ?_⟩
    rcases hst' with hst' | ⟨-, hst'⟩
    · exact hst'.trans hst
    · exact hst'

theorem Ctx.Kills.killing {v w : Ctx} (h : v.Kills w) (hv : v.st = .killing) : w.st = .killing := by
  obtain ⟨-, hst | ⟨-, hst⟩⟩ := h
  · exact hst.trans hv
  · exact hst

theorem Ctx.Kills.live {v w : Ctx} (h : v.Kills w) (hv : v.st ≠ .free) : w.st ≠ .free := by
  obtain ⟨-, hst | ⟨-, hst⟩⟩ := h
  · rwa [hst]
  · simp [hst]

/-- A queue pair is free, or still configured as it was. -/
def Qp.Frees (v w : Qp) : Prop := w = {} ∨ (w.configured = v.configured ∧ w.fn = v.fn ∧ (v = {} → w = {}))

theorem Qp.Frees.refl (v : Qp) : v.Frees v := .inr ⟨rfl, rfl, id⟩

theorem Qp.Frees.trans {u v w : Qp} (huv : u.Frees v) (hvw : v.Frees w) : u.Frees w := by
  rcases hvw with hw | ⟨hconf, hfn, hfree⟩
  · exact .inl hw
  · rcases huv with hv | ⟨hconf', hfn', hfree'⟩
    · exact .inl (hfree hv)
    · exact .inr ⟨hconf.trans hconf', hfn.trans hfn', hfree ∘ hfree'⟩

theorem Qp.Frees.free {v w : Qp} (h : v.Frees w) (hv : v = {}) : w = {} := by
  rcases h with hw | ⟨-, -, hfree⟩
  · exact hw
  · exact hfree hv

/-- What a reset keeps: tarn, links, contexts but for kills, and queue pairs but for those freed. -/
structure Resetting (s t : State) : Prop where
  tarn : t.tarn = s.tarn
  links : t.links = s.links
  ctxs : ∀ x, (s.ctx x).Kills (t.ctx x)
  qps : ∀ q, (s.qp q).Frees (t.qp q)

theorem Resetting.refl (s : State) : Resetting s s := ⟨rfl, rfl, fun _ => .refl _, fun _ => .refl _⟩

theorem Resetting.trans {s t u : State} (hst : Resetting s t) (htu : Resetting t u) : Resetting s u :=
  ⟨htu.tarn.trans hst.tarn, htu.links.trans hst.links, fun x => (hst.ctxs x).trans (htu.ctxs x), fun q => (hst.qps q).trans (htu.qps q)⟩

theorem Resetting.foldl {α : Type} {g : State → α → State} (hg : ∀ t a, Resetting t (g t a)) (l : List α) (s : State) : Resetting s (l.foldl g s) := by
  induction l generalizing s with
  | nil => exact .refl s
  | cons a l ih => exact (hg s a).trans (ih _)

/-! ## The contexts of a function are killed -/

theorem killStart_killing (s : State) {x : Nat} (own : Option (Nat × Nat)) (hlive : (s.ctx x).st ≠ .free) : ((s.killStart x own).ctx x).st = .killing := by
  by_cases hkill : (s.ctx x).st = .killing
  · rw [killStart_dead own (.inr hkill)]
    exact hkill
  · obtain ⟨w, hctx⟩ := (killBegun_killStart own hlive hkill).target
    rw [hctx]
    rfl

theorem KillBegun.resetting {s t : State} {x : Nat} {own : Option (Nat × Nat)} (h : KillBegun s t x own) (hlive : (s.ctx x).st ≠ .free) : Resetting s t := by
  refine ⟨h.tarn, h.links, fun y => ?_, fun q => ?_⟩
  · by_cases hy : y = x
    · obtain ⟨w, hctx⟩ := h.target
      rw [hy, hctx]
      exact ⟨rfl, .inr ⟨hlive, rfl⟩⟩
    · have hfn := congrArg Ctx.fn (h.others y hy)
      have hst := congrArg Ctx.st (h.others y hy)
      exact ⟨hfn, .inl hst⟩
  · obtain ⟨hconf, hfn, -, -, hfree⟩ := h.winds q
    exact .inr ⟨hconf, hfn, hfree⟩

theorem resetting_killStart (s : State) (x : Nat) (own : Option (Nat × Nat)) : Resetting s (s.killStart x own) ∧ ∀ f, SpoilsFn s (s.killStart x own) f := by
  by_cases hdead : (s.ctx x).st = .free ∨ (s.ctx x).st = .killing
  · rw [killStart_dead own hdead]
    exact ⟨.refl s, fun _ => .inl rfl⟩
  · obtain ⟨hlive, hkill⟩ := not_or.mp hdead
    have hbegun := killBegun_killStart own hlive hkill
    exact ⟨hbegun.resetting hlive, hbegun.spoils⟩

/-- A list of contexts is killed. -/
def State.killAll (s : State) (l : List Nat) : State := l.foldl (fun (t : State) x => t.killStart x none) s

theorem resetting_killAll (s : State) (l : List Nat) : Resetting s (s.killAll l) := by
  refine .foldl (fun t x => ?_) l s
  obtain ⟨h, -⟩ := resetting_killStart t x none
  exact h

theorem killAll_spoils (s : State) (l : List Nat) (f : Nat) : SpoilsFn s (s.killAll l) f := by
  unfold State.killAll
  induction l generalizing s with
  | nil => exact .inl rfl
  | cons x l ih =>
    obtain ⟨-, h⟩ := resetting_killStart s x none
    exact (h f).trans (ih _)

theorem killAll_killing {x : Nat} {l : List Nat} (hx : x ∈ l) (s : State) (hlive : (s.ctx x).st ≠ .free) : ((s.killAll l).ctx x).st = .killing := by
  induction l generalizing s with
  | nil => exact absurd hx List.not_mem_nil
  | cons y l ih =>
    have hrest : s.killAll (y :: l) = (s.killStart y none).killAll l := rfl
    rw [hrest]
    by_cases hy : x = y
    · exact ((resetting_killAll (s.killStart y none) l).ctxs x).killing (hy ▸ killStart_killing s none hlive)
    · obtain ⟨h, -⟩ := resetting_killStart s y none
      exact ih ((List.mem_cons.mp hx).resolve_left hy) _ ((h.ctxs x).live hlive)

/-! ## The reset of a function -/

/-- The queue pairs of function f are free. -/
def State.freeRings (s : State) (f : Nat) : State :=
  { s with qps := Tbl.mapVal (fun _ => {}) (fun _ v => if v.configured && v.fn == f then {} else v) s.qps }

/-- The registers of a function that is reset. -/
def Fn.wiped (v : Fn) (byParent : Bool) : Fn := { limit := if byParent then 16 else v.limit, tdi := if byParent then v.spoil.tdi else .unlocked }

theorem resetFn_eq (s : State) (f : Nat) (byParent : Bool) :
    s.resetFn f byParent = ((s.killAll (s.ctxsOfFn f)).freeRings f).setFn f ((s.fn f).wiped byParent) := rfl

theorem freeRings_qp (s : State) (f q : Nat) : (s.freeRings f).qp q = if (s.qp q).configured = true ∧ (s.qp q).fn = f then {} else s.qp q := by
  have hqp : (s.freeRings f).qp q = Tbl.get (fun _ => {}) (Tbl.mapVal (fun _ => {}) (fun _ (v : Qp) => if v.configured && v.fn == f then {} else v) s.qps) q := rfl
  have hfree : ∀ v : Qp, v = {} → ¬(v.configured = true ∧ v.fn = f) := fun v hv h => by simp [hv] at h
  rw [hqp]
  rcases Tbl.get_mapVal (fun _ => ({} : Qp)) (fun _ v => if v.configured && v.fn == f then {} else v) s.qps q with h | ⟨hold, h⟩
  · rw [h]
    simp only [Bool.and_eq_true, beq_iff_eq]
    rfl
  · rw [h, if_neg (hfree (s.qp q) hold)]
    exact hold.symm

theorem resetting_freeRings (s : State) (f : Nat) : Resetting s (s.freeRings f) := by
  refine ⟨rfl, rfl, fun x => .refl _, fun q => ?_⟩
  rw [freeRings_qp]
  split
  · exact .inl rfl
  · exact .refl _

section
variable (s : State) (f : Nat) (byParent : Bool)

theorem resetting_resetFn : Resetting s (s.resetFn f byParent) := by
  have hset (t : State) (v : Fn) : Resetting t (t.setFn f v) := ⟨rfl, rfl, fun x => .refl _, fun q => .refl _⟩
  rw [resetFn_eq]
  exact ((resetting_killAll s _).trans (resetting_freeRings _ f)).trans (hset _ _)

theorem resetFn_fn : (s.resetFn f byParent).fn f = (s.fn f).wiped byParent := State.setFn_fn_same _ _ _

theorem resetFn_others {g : Nat} (hg : g ≠ f) : SpoilsFn s (s.resetFn f byParent) g := by
  have hkeep : (s.resetFn f byParent).fn g = (s.killAll (s.ctxsOfFn f)).fn g := State.setFn_fn_ne _ _ _ _ hg
  unfold SpoilsFn
  rw [hkeep]
  exact killAll_spoils s _ g

theorem resetFn_qp {q : Nat} (hconf : (s.qp q).configured = true) (hfn : (s.qp q).fn = f) : (s.resetFn f byParent).qp q = {} := by
  have hkeep : (s.resetFn f byParent).qp q = ((s.killAll (s.ctxsOfFn f)).freeRings f).qp q := rfl
  rw [hkeep, freeRings_qp]
  rcases (resetting_killAll s (s.ctxsOfFn f)).qps q with hfree | ⟨hconf', hfn', -⟩
  · rw [hfree]
    exact ite_self _
  · exact if_pos ⟨hconf'.trans hconf, hfn'.trans hfn⟩

theorem resetFn_kills {x : Nat} (hfn : (s.ctx x).fn = f) (hlive : (s.ctx x).st ≠ .free) : ((s.resetFn f byParent).ctx x).st = .killing := by
  have hkeep : (s.resetFn f byParent).ctx x = (s.killAll (s.ctxsOfFn f)).ctx x := rfl
  rw [hkeep]
  refine killAll_killing (mem_keysWhere (d := fun _ => ({} : Ctx)) ?_ ?_) s hlive
  · change ((s.ctx x).fn == f && decide ((s.ctx x).st ≠ .free)) = true
    simp [hfn, hlive]
  · simp

end

/-- A reset of a function that is not physical. -/
theorem functionLevelReset_resets {f : Nat} {s : State} (hf : f < 1024) (hvirtual : f % 64 ≠ 0) :
    ∃ t : State, exec (.functionLevelReset f) s = .next t ∧ t.tarn = s.tarn ∧ (t.fn f).tdi = .unlocked ∧ (t.fn f).limit = (s.fn f).limit ∧
      (t.fn f).apertureValid = false ∧ (∀ q, (s.qp q).configured = true → (s.qp q).fn = f → t.qp q = {}) ∧
      ∀ x, (s.ctx x).fn = f → (s.ctx x).st ≠ .free → (t.ctx x).st = .killing := by
  have hexec : exec (.functionLevelReset f) s = .next (s.resetFn f false) := by
    change execFunctionLevelReset f s = _
    unfold execFunctionLevelReset
    rw [if_neg (Nat.not_le.mpr hf), if_neg hvirtual]
  refine ⟨_, hexec, (resetting_resetFn s f false).tarn, ?_, ?_, ?_, fun q => resetFn_qp s f false, fun x => resetFn_kills s f false⟩ <;>
    rw [resetFn_fn] <;> rfl

/-! ## The reset of a link -/

theorem spoil_keeps (v : Fn) : v.spoil.limit = v.limit ∧ v.spoil.apertureValid = v.apertureValid ∧
    (v.tdi = .run ∨ v.tdi = .error → v.spoil.tdi = .error) := by
  cases h : v.tdi <;> simp [Fn.spoil, h]

/-- What a reset of its link leaves of function f. -/
structure LinkReset (s t : State) (f : Nat) : Prop where
  limit : (t.fn f).limit = 16
  aperture : (t.fn f).apertureValid = false
  tdi : (s.fn f).tdi = .run ∨ (s.fn f).tdi = .error → (t.fn f).tdi = .error
  qps : ∀ q, (s.qp q).configured = true → (s.qp q).fn = f → t.qp q = {}
  ctxs : ∀ x, (s.ctx x).fn = f → (s.ctx x).st ≠ .free → (t.ctx x).st = .killing

theorem linkReset_resetFn (s : State) (f : Nat) : LinkReset s (s.resetFn f true) f := by
  obtain ⟨-, -, herror⟩ := spoil_keeps (s.fn f)
  refine ⟨?_, ?_, fun h => ?_, fun q => resetFn_qp s f true, fun x => resetFn_kills s f true⟩
  · rw [resetFn_fn]
    rfl
  · rw [resetFn_fn]
    rfl
  · rw [resetFn_fn]
    exact herror h

/-- Resets of other functions after it change nothing of what the reset of function f leaves. -/
theorem LinkReset.andThen {s t u : State} {f : Nat} (h : LinkReset s t f) (hreset : Resetting t u) (hspoil : SpoilsFn t u f) : LinkReset s u f := by
  obtain ⟨hlimit, haperture, herror⟩ := spoil_keeps (t.fn f)
  refine ⟨?_, ?_, fun hrun => ?_, fun q hconf hfn => (hreset.qps q).free (h.qps q hconf hfn),
    fun x hfn hlive => (hreset.ctxs x).killing (h.ctxs x hfn hlive)⟩ <;> rcases hspoil with hfn | hfn <;> rw [hfn]
  · exact h.limit
  · exact hlimit.trans h.limit
  · exact h.aperture
  · exact haperture.trans h.aperture
  · exact h.tdi hrun
  · exact herror (.inr (h.tdi hrun))

/-- Nor do resets of other functions before it. -/
theorem LinkReset.after {s t u : State} {f : Nat} (h : LinkReset t u f) (hreset : Resetting s t) (hspoil : SpoilsFn s t f) (hon : Resetting t u) :
    LinkReset s u f := by
  obtain ⟨-, -, herror⟩ := spoil_keeps (s.fn f)
  refine ⟨h.limit, h.aperture, fun hrun => h.tdi ?_, fun q hconf hfn => ?_, fun x hfn hlive => ?_⟩
  · rcases hspoil with hsame | hspoilt
    · rwa [hsame]
    · rw [hspoilt]
      exact .inr (herror hrun)
  · rcases hreset.qps q with hfree | ⟨hconf', hfn', -⟩
    · exact (hon.qps q).free hfree
    · exact h.qps q (hconf'.trans hconf) (hfn'.trans hfn)
  · obtain ⟨hfn', -⟩ := hreset.ctxs x
    exact h.ctxs x (hfn'.trans hfn) ((hreset.ctxs x).live hlive)

/-- The virtual functions listed of link l are reset. -/
def State.resetFns (s : State) (l : Nat) (vs : List Nat) : State := vs.foldl (fun (t : State) v => t.resetFn (64 * l + v) true) s

theorem resetting_resetFns (s : State) (l : Nat) (vs : List Nat) : Resetting s (s.resetFns l vs) :=
  .foldl (fun t v => resetting_resetFn t (64 * l + v) true) vs s

theorem resetFns_others {l f : Nat} {vs : List Nat} (hf : ∀ v ∈ vs, f ≠ 64 * l + v) (s : State) : SpoilsFn s (s.resetFns l vs) f := by
  unfold State.resetFns
  induction vs generalizing s with
  | nil => exact .inl rfl
  | cons v vs ih =>
    obtain ⟨hv, hvs⟩ := List.forall_mem_cons.mp hf
    exact (resetFn_others s _ true hv).trans (ih hvs _)

theorem resetLinkFns_linkReset (s : State) (l : Nat) {f : Nat} (hf : fnLink f = l) : LinkReset s (s.resetLinkFns l) f := by
  have hsplit : f = 64 * l + f % 64 := by
    unfold fnLink at hf
    omega
  generalize f % 64 = v at hsplit
  have hv : v ∈ List.range 64 := by
    unfold fnLink at hf
    exact List.mem_range.mpr (by omega)
  obtain ⟨before, after, hrange⟩ := List.append_of_mem hv
  have hnodup : (before ++ v :: after).Nodup := hrange ▸ List.nodup_range
  have hnotin := (List.nodup_middle.mp hnodup).notMem
  rw [List.mem_append, not_or] at hnotin
  obtain ⟨hbefore, hafter⟩ := hnotin
  have hother : ∀ {vs : List Nat}, v ∉ vs → ∀ j ∈ vs, f ≠ 64 * l + j := fun hvs j hj h => hvs (by rwa [show v = j by omega])
  have hfold : s.resetLinkFns l = ((s.resetFns l before).resetFn f true).resetFns l after := by
    unfold State.resetLinkFns State.resetFns
    rw [hrange, List.foldl_append, List.foldl_cons, hsplit]
  rw [hfold]
  have hmid := (linkReset_resetFn (s.resetFns l before) f).after (resetting_resetFns s l before) (resetFns_others (hother hbefore) s) (resetting_resetFn _ f true)
  exact hmid.andThen (resetting_resetFns _ l after) (resetFns_others (hother hafter) _)

/-- What a reset of link l leaves: tarn, and each of its functions reset. -/
theorem resetLinkFns_resets (s : State) (l : Nat) : (s.resetLinkFns l).tarn = s.tarn ∧ ∀ f, fnLink f = l →
    ((s.resetLinkFns l).fn f).limit = 16 ∧ ((s.resetLinkFns l).fn f).apertureValid = false ∧
    ((s.fn f).tdi = .run → ((s.resetLinkFns l).fn f).tdi = .error) ∧
    (∀ q, (s.qp q).configured = true → (s.qp q).fn = f → (s.resetLinkFns l).qp q = {}) ∧
    ∀ x, (s.ctx x).fn = f → (s.ctx x).st ≠ .free → ((s.resetLinkFns l).ctx x).st = .killing := by
  refine ⟨(resetting_resetFns s l (List.range 64)).tarn, fun f hf => ?_⟩
  have h := resetLinkFns_linkReset s l hf
  exact ⟨h.limit, h.aperture, fun hrun => h.tdi (.inl hrun), h.qps, h.ctxs⟩

section
variable {l : Nat} (s : State) (hl : l < 16)
include hl

theorem exec_functionLevelReset_physical : exec (.functionLevelReset (64 * l)) s = .next (s.resetLinkFns l) := by
  have hlink : fnLink (64 * l) = l := Nat.mul_div_cancel_left l (by omega)
  change execFunctionLevelReset (64 * l) s = _
  unfold execFunctionLevelReset
  rw [if_neg (by omega), if_pos (Nat.mul_mod_right 64 l), hlink]

theorem exec_hotReset : exec (.hotReset l) s = .next (s.resetLinkFns l) := if_neg (Nat.not_le.mpr hl)

theorem exec_linkDown_up (hup : (s.link l).up = true) :
    exec (.linkDown l) s = .next ((s.modLink l (fun v => { v with up := false })).resetLinkFns l) :=
  if_neg (by simp [hup, hl])

end

theorem resetLinkFns_link (s : State) (l k : Nat) : (s.resetLinkFns l).link k = s.link k :=
  congrArg (fun m => Tbl.get (fun _ => ({} : Link)) m k) (resetting_resetFns s l (List.range 64)).links

theorem exec_linkDown_down {l : Nat} {s : State} (hup : (s.link l).up = false) : exec (.linkDown l) s = .next s := if_pos (.inr hup)

/-- Settles O34: a kill, its erase and the scrub, the context switch, and the resets of functions and links. -/
theorem contextEndsAndSwitches : Obligations.ContextEndsAndSwitches := by
  unfold Obligations.ContextEndsAndSwitches
  refine ⟨⟨fun q k s d hstart hfree hkill => ?_, fun a p x s => ⟨?_, exec_prtCtxKill_ignored⟩,
    fun x s => ⟨killCryptoErase_erases, exec_killCryptoErase_early⟩, fun p s => ⟨scrubDone_scrubs s p, fun h => if_pos h⟩⟩,
    fun p o w s => contextSaveDone_saves, fun p s => exec_switch_none, fun p w s => contextRestoreDone_restores,
    fun f s => functionLevelReset_resets, fun l s hl => ⟨?_, ?_, fun hup => ?_, exec_linkDown_down⟩⟩
  · exact kill_begins hstart hfree hkill
  · exact prtCtxKill_begins
  · exact ⟨_, exec_functionLevelReset_physical s hl, resetLinkFns_resets s l⟩
  · exact ⟨_, exec_hotReset s hl, resetLinkFns_resets s l⟩
  · refine ⟨_, exec_linkDown_up s hl hup, resetLinkFns_resets (s.modLink l (fun v => { v with up := false })) l, ?_⟩
    rw [resetLinkFns_link, State.modLink_eq, State.setLink_link_same]

end Sys2Proof.Machine

namespace Sys2Proof.Machine
open Sys2Proof

/-! ## Registers that never change (R45) -/

theorem setSreg_zero (r : Regs) (w : Word) : r.setSreg 0 w = r := if_pos rfl

theorem setPred_zero (r : Regs) (b : Bool) : r.setPred 0 b = r := if_pos rfl

/-- A ready, legal instruction whose effect leaves the register file as it was retires, and that is all it does. -/
theorem retires_of_regs_unchanged {s : State} {i : Issue} {legal : Bool} {op : Nat} {body : State → Effect} (f : Regs → Regs)
    (h : Ready s i) (hl : legal = true) (hbody : body s = .ok (s.modRegs i.c f)) (hf : f (s.regsOf i.c) = s.regsOf i.c) :
    ∃ t : State, s.retire op i legal body = .next t ∧ Retires s t i (s.regsOf i.c) := by
  refine ⟨_, ready_retire h hl op body, ?_⟩
  have hret := finish_ok_regs s i f
  rwa [hf, ← hbody] at hret

/-- Settles O55: a write to s0 or p0 leaves the register file as it was, so the instruction only retires. -/
theorem hardWiredRegisters : Obligations.HardWiredRegisters := by
  unfold Obligations.HardWiredRegisters
  refine ⟨fun r w b => ⟨rfl, setSreg_zero r w, rfl, setPred_zero r b, rfl⟩, fun i s hready ha => ⟨fun hl => ?_, fun hl => ?_, fun hl => ?_⟩⟩
  · exact retires_of_regs_unchanged _ hready hl rfl (ha ▸ setSreg_zero _ _)
  · exact retires_of_regs_unchanged _ hready hl rfl (ha ▸ setSreg_zero _ _)
  · exact retires_of_regs_unchanged _ hready hl rfl (ha ▸ setPred_zero _ _)

/-! ## Guards and illegal encodings (R46, R163 to R165, R167) -/

/-- Command e.1 is an instruction with words i that reaches retirement, its encoding legal as e.2 says. -/
def RetiresAs (i : Issue) (e : Instr × Bool) : Prop := ∃ op body, ∀ s, exec e.1 s = s.retire op i e.2 body

section
variable {s : State} {i : Issue} (h : Ready s { i with pg := 0, pn := false })
include h

/-- An instruction that is ready but for its guard reaches retirement without a fetch fault. -/
theorem ready_reaches (op : Nat) : s.canRetire op i = true ∧ s.fetchAddressFault i = false ∧ s.integrityLine i = none := by
  refine ⟨?_, ready_address (i := { i with pg := 0, pn := false }) h, ready_integrity (i := { i with pg := 0, pn := false }) h⟩
  obtain ⟨hc, hregion, hst, hhold, -⟩ := h
  simp only at hc hregion hst hhold
  simp [State.canRetire, hc, hregion, hst, hhold]

/-- Its guard false, a legal instruction does what a false guard leaves. -/
theorem ready_guarded {legal : Bool} (hl : legal = true) (hg : guardHolds (s.regsOf i.c) i.pg i.pn = false) (op : Nat) (off body : State → Effect) :
    s.retireWith op i legal off body = s.finish i (off s) := by
  obtain ⟨hretire, haddr, hint⟩ := ready_reaches h op
  obtain ⟨-, -, -, -, -, -, -, -, -, hparity⟩ := h
  simp only at hparity
  simp [State.retireWith, State.perform, hretire, haddr, hint, hl, hg, hparity]

/-- An illegal encoding traps whatever its guard. -/
theorem ready_traps {legal : Bool} (hl : legal = false) (op : Nat) (off body : State → Effect) :
    s.retireWith op i legal off body = s.trap i.c 0x01 0 0 := by
  obtain ⟨hretire, haddr, hint⟩ := ready_reaches h op
  simp [State.retireWith, hretire, haddr, hint, hl]

end

/-- p0 negated is no guard: whatever the form, the encoding is illegal (R167). -/
theorem legal_negated_p0 {i : Issue} (m : Form) (hpg : i.pg = 0) (hpn : i.pn = true) : m.legal i = false := by
  simp [Form.legal, hpg, hpn]

/-- Settles O54: every instruction of the table reaches retirement in the same way; there the guard and the encoding decide. -/
theorem guardsAndIllegalEncodings : Obligations.GuardsAndIllegalEncodings := by
  unfold Obligations.GuardsAndIllegalEncodings
  intro i s hready hengine alu table
  have hretires : ∀ e ∈ table, RetiresAs i e := by
    simp only [table, alu, List.map_cons, List.map_nil, List.cons_append, List.nil_append, List.forall_mem_cons, List.not_mem_nil,
      false_imp_iff, implies_true, and_true]
    and_intros
    any_goals exact ⟨_, _, fun _ => rfl⟩
    · exact ⟨0x61, bodyMma i, fun s => congrArg Host.Outcome.next (if_neg fun h => hengine h.1)⟩
    · exact ⟨0x62, bodyDrn i, fun s => congrArg Host.Outcome.next (if_neg fun h => hengine h.1)⟩
    · exact ⟨0x63, bodyDrnp i, fun s => congrArg Host.Outcome.next (if_neg fun h => hengine h.1)⟩
  refine ⟨fun e he hl hg => ?_, fun e he hl => ?_, fun hl hlen hg => ?_, fun hl => ?_, fun hpg hpn => ?_⟩
  · obtain ⟨op, body, hexec⟩ := hretires e he
    exact ⟨_, (hexec s).trans (congrArg Host.Outcome.next (ready_guarded hready hl hg op _ body)), finish_ok s i⟩
  · obtain ⟨op, body, hexec⟩ := hretires e he
    exact ⟨_, (hexec s).trans (congrArg Host.Outcome.next (ready_traps hready hl op _ body)), trap_traps s i 0x01 0 0⟩
  · have hlegal : (formLoop.legal i && decide (0 ≤ sImm32 i)) = true := by simp [hl, hlen]
    exact ⟨_, congrArg Host.Outcome.next (ready_guarded hready hlegal hg 0x05 (fun s => .skip s (loopEnd s i)) (bodyLoop i)), finish_skip s i _⟩
  · have hillegal : (formLoop.legal i && decide (0 ≤ sImm32 i)) = false :=
      Bool.and_eq_false_iff.mpr (hl.imp_right fun hneg => decide_eq_false (not_le.mpr hneg))
    exact ⟨_, congrArg Host.Outcome.next (ready_traps hready hillegal 0x05 _ (bodyLoop i)), trap_traps s i 0x01 0 0⟩
  · simp [table, alu, legal_negated_p0 _ hpg hpn, wldLegal, mmaLegal, drnLegal, drnpLegal, quantLegal, collLegal]

end Sys2Proof.Machine

namespace Sys2Proof.Machine
open Sys2Proof

/-! ## A Failed cluster stays Failed through an error's consequences (R66, R68) -/

theorem modPartClusters_cl (s : State) (p : Nat) (f : Nat → Cluster → Cluster) (c : Nat) :
    (s.modPartClusters p f).cl c = s.cl c ∨ (s.modPartClusters p f).cl c = f c (s.cl c) := by
  rcases Tbl.get_mapVal (fun _ => ({} : Cluster)) (fun c v => if inRegions (s.part p).regions c then f c v else v) s.clusters c with
    h | ⟨hold, hnew⟩
  · split at h
    · exact .inr h
    · exact .inl h
  · exact .inl (hnew.trans hold.symm)

/-- Every cluster that is Failed in s is Failed in t. -/
def KeepsFailed (s t : State) : Prop := ∀ c, (s.cl c).st = .failed → (t.cl c).st = .failed

theorem KeepsFailed.trans {s t u : State} (hst : KeepsFailed s t) (htu : KeepsFailed t u) : KeepsFailed s u := fun c h => htu c (hst c h)

theorem keepsFailed_of_clusters {s t : State} (h : t.clusters = s.clusters) : KeepsFailed s t := fun c hc => by
  rwa [State.cl_def, h]

theorem abortCluster_failed {v : Cluster} (h : v.st = .failed) : (abortCluster v).st = .failed := by
  simp only [abortCluster, h]

theorem keepsFailed_haltStep (s : State) (p : Nat) : KeepsFailed s (s.haltStep p) := by
  unfold State.haltStep
  split
  · exact fun _ h => h
  · refine KeepsFailed.trans (t := s.modPartClusters p (fun _ v => abortCluster v)) (fun c h => ?_) (keepsFailed_of_clusters (by simp))
    rcases modPartClusters_cl s p (fun _ v => abortCluster v) c with hc | hc <;> rw [hc]
    · exact h
    · exact abortCluster_failed h

theorem keepsFailed_killStart (s : State) (x : Nat) (own : Option (Nat × Nat)) : KeepsFailed s (s.killStart x own) := by
  by_cases hdead : (s.ctx x).st = .free ∨ (s.ctx x).st = .killing
  · rw [killStart_dead own hdead]
    exact fun _ h => h
  · obtain ⟨hfree, hkill⟩ := not_or.mp hdead
    rw [killStart_live own hfree hkill]
    refine KeepsFailed.trans (t := s.haltCtx x) ?_ (keepsFailed_of_clusters (by simp [State.killRings, State.killQps]))
    unfold State.haltCtx
    split
    · exact keepsFailed_haltStep s _
    · exact keepsFailed_of_clusters (by simp)

theorem keepsFailed_contextFatal (s : State) (x code : Nat) (src : Source) : KeepsFailed s (s.contextFatal x code src) := by
  unfold State.contextFatal
  dsimp only
  split
  · exact keepsFailed_of_clusters (by simp)
  · exact keepsFailed_of_clusters (by simp)
  · exact (keepsFailed_of_clusters (by simp)).trans (keepsFailed_killStart _ _ _)

theorem keepsFailed_contained (s : State) (x code : Nat) (src : Source) : KeepsFailed s (s.contained x code src) := by
  unfold State.contained
  dsimp only
  split
  · exact keepsFailed_of_clusters (by simp)
  · exact keepsFailed_of_clusters (by simp)
  · split
    · exact keepsFailed_contextFatal s _ _ _
    · exact keepsFailed_of_clusters (by simp)

/-- The event of a cluster's failure is contained in its context, where it has one. -/
theorem failCluster_failed (s : State) (c absent : Nat) : ((s.failCluster c absent).cl c).st = .failed := by
  have hfailed : ((s.modCl c (fun v => { v with st := .failed, hold := none, ahead := {} })).cl c).st = .failed := by simp
  have hraise (t : State) (src : Source) : KeepsFailed t (t.raise 0x2142 src) := by
    cases hctx : src.ctx with
    | none =>
      have hnoted : t.raise 0x2142 src = t.note 0x2142 src := by unfold State.raise; rw [hctx]; rfl
      exact keepsFailed_of_clusters (hnoted ▸ State.note_clusters t _ _)
    | some x =>
      have hcontained : t.raise 0x2142 src = t.contained x 0x2142 src := by unfold State.raise; rw [hctx]; rfl
      exact hcontained ▸ keepsFailed_contained t _ _ _
  exact hraise _ _ c hfailed

/-! ## Heartbeats, ageing and substitution requests (R67, R68, R70, R71) -/

section
variable {c : Nat} {s : State}

theorem heartbeatMiss_fails (self : Bool) (hbeats : beats (s.cl c).st = true) (hrun : (s.region (regionOf c)).pstate = .run) :
    ∃ t : State, exec (.heartbeatMiss c self) s = .next t ∧ ((s.partOf c).isSome → (t.cl c).st = .failed ∧ t.tarn = s.tarn) := by
  refine ⟨s.failAndMap c (if self then 0 else 3), if_pos (by simp [hbeats, hrun]), fun hpart => ?_⟩
  have hmap (k : Nat) : s.failAndMap c k = s.failCluster c k := if_neg (by simp [Option.isNone_eq_false_iff.mpr hpart])
  rw [hmap]
  exact ⟨failCluster_failed s c _, State.failCluster_tarn s c _⟩

theorem heartbeatMiss_silent (self : Bool) (hbeats : beats (s.cl c).st = false) : exec (.heartbeatMiss c self) s = .next s :=
  if_neg (by simp [hbeats])

theorem OnlyReports.telemetry {s t : State} (h : OnlyReports s t) : t.mgt.telemetry = s.mgt.telemetry := by
  obtain ⟨-, -, -, hmgt⟩ := h
  have htelemetry := congrArg Mgt.telemetry hmgt
  exact htelemetry

/-- A substitution request is kept in the cluster's health, and reported. -/
theorem requestSubst_keeps (s : State) (c : Nat) : NoStore s (s.requestSubst c) ∧
    (∀ d, d ≠ c → (s.requestSubst c).cl d = s.cl d) ∧ (s.requestSubst c).mgt.telemetry = s.mgt.telemetry ∧
    (s.requestSubst c).cl c = { s.cl c with health := { (s.cl c).health with subst := true, substTick := s.now } } := by
  refine ⟨by simp [NoStore, State.requestSubst], fun d hd => ?_, ?_, ?_⟩
  · simp [State.requestSubst, State.setCl_cl_ne _ _ _ _ hd]
  · exact (onlyReports_note (s.modCl c _) 0x0144 (s.atCluster c [c])).telemetry
  · simp [State.requestSubst]

/-- The health of a cluster after one more ageing sample, before a request for substitution. -/
def State.aged (s : State) (c : Nat) (drift : BitVec 16) : Health :=
  let h := (s.cl c).health
  let h' := { h with ageSamples := (h.ageSamples ++ [drift]).drop (h.ageSamples.length + 1 - 64) }
  { h' with warn := decide (10 * ageWarn s ≤ ageMean h'), migrate := decide (10 * ageMigrate s ≤ ageMean h') }

/-- The panel once a sample is taken: the cluster's health, a warning where one is due, and the reading refreshed. -/
def State.sampled (s : State) (c : Nat) (drift : BitVec 16) : State :=
  let h := s.aged c drift
  let t := s.modCl c (fun v => { v with health := h })
  (if h.warn && !(s.cl c).health.warn then t.note 0x0143 (s.atCluster c [ageMean h]) else t).refreshReading (readingNo 6 c)

theorem exec_ageingSample (drift : BitVec 16) (hon : (s.cl c).st ≠ .off) : exec (.ageingSample c drift) s =
    .next (if (s.aged c drift).migrate && !(s.cl c).health.subst then (s.sampled c drift).requestSubst c else s.sampled c drift) := by
  change execAgeingSample c drift s = _
  unfold execAgeingSample
  rw [if_neg hon]
  simp only [List.length_append, List.length_singleton]
  rfl

theorem sampled_keeps (s : State) (c : Nat) (drift : BitVec 16) : NoStore s (s.sampled c drift) ∧
    (∀ d, d ≠ c → (s.sampled c drift).cl d = s.cl d) ∧ (s.sampled c drift).cl c = { s.cl c with health := s.aged c drift } ∧
    Tbl.get (fun _ => 0) (s.sampled c drift).mgt.telemetry (readingNo 6 c) = s.now + 1 := by
  have hrefresh (t : State) (n k : Nat) : (t.refreshReading n).cl k = t.cl k := rfl
  have hreading (t : State) (n : Nat) : Tbl.get (fun _ => 0) (t.refreshReading n).mgt.telemetry n = t.now + 1 := by
    unfold State.refreshReading
    exact Tbl.get_set_same (fun _ => 0) t.mgt.telemetry n (t.now + 1)
  unfold State.sampled
  dsimp only
  refine ⟨?_, fun d hd => ?_, ?_, ?_⟩
  · split <;> simp [NoStore, State.refreshReading]
  · rw [hrefresh]
    split <;> simp [State.setCl_cl_ne _ _ _ _ hd]
  · rw [hrefresh]
    split <;> simp
  · rw [hreading]
    split <;> simp

theorem ageingSample_ages (drift : BitVec 16) (hon : (s.cl c).st ≠ .off) :
    ∃ t : State, exec (.ageingSample c drift) s = .next t ∧ NoStore s t ∧ (∀ d, d ≠ c → t.cl d = s.cl d) ∧ t.regsOf c = s.regsOf c ∧
      (t.cl c).health.ageSamples = (s.aged c drift).ageSamples ∧ (t.cl c).health.warn = (s.aged c drift).warn ∧
      (t.cl c).health.migrate = (s.aged c drift).migrate ∧ (t.cl c).health.subst = ((s.cl c).health.subst || (s.aged c drift).migrate) ∧
      Tbl.get (fun _ => 0) t.mgt.telemetry (readingNo 6 c) = s.now + 1 := by
  obtain ⟨hstore, hcl, hself, hread⟩ := sampled_keeps s c drift
  have hsubst : (s.aged c drift).subst = (s.cl c).health.subst := rfl
  refine ⟨_, exec_ageingSample drift hon, ?_⟩
  split
  next hmig =>
    obtain ⟨hstore', hcl', htelemetry, hself'⟩ := requestSubst_keeps (s.sampled c drift) c
    rw [Bool.and_eq_true] at hmig
    exact ⟨hstore.trans hstore', fun d hd => (hcl' d hd).trans (hcl d hd), by simp [State.regsOf, hself', hself], by rw [hself', hself],
      by rw [hself', hself], by rw [hself', hself], by simp [hself', hmig], by rw [htelemetry, hread]⟩
  next hmig =>
    refine ⟨hstore, hcl, by simp [State.regsOf, hself], by rw [hself], by rw [hself], by rw [hself], ?_, hread⟩
    simp only [Bool.and_eq_true, Bool.not_eq_true', not_and, Bool.not_eq_false] at hmig
    rw [hself]
    cases hm : (s.aged c drift).migrate
    · simp [hsubst]
    · simp [hsubst, hmig hm]

theorem substitutionRerequest_asks (hsubst : (s.cl c).health.subst = true) (hday : (s.cl c).health.substTick + 86400 * ticksPerS ≤ s.now) :
    ∃ t : State, exec (.substitutionRerequest c) s = .next t ∧ NoStore s t ∧ (t.cl c).health.substTick = s.now ∧ (t.cl c).health.subst = true := by
  obtain ⟨hstore, -, -, hself⟩ := requestSubst_keeps s c
  exact ⟨s.requestSubst c, if_pos (by simp [hsubst, hday]), hstore, by rw [hself], by rw [hself]⟩

theorem exec_substitutionRerequest_idle (h : (s.cl c).health.subst = false ∨ s.now < (s.cl c).health.substTick + 86400 * ticksPerS) :
    exec (.substitutionRerequest c) s = .next s := by
  refine if_neg ?_
  rcases h with h | h
  · simp [h]
  · simp [Nat.not_le.mpr h]

end

section
variable {warn migrate : BitVec 7} {s : State}

theorem cluAgeThreshWrite_stored (h1 : 5 ≤ warn.toNat) (h2 : warn.toNat < migrate.toNat) (h3 : migrate.toNat ≤ 100) :
    ∃ t : State, exec (.cluAgeThreshWrite warn migrate) s = .next t ∧ { t with regs := s.regs } = s ∧
      ageWarn t = warn.toNat ∧ ageMigrate t = migrate.toNat := by
  have hreg : (s.setReg 0xB00078 (BitVec.ofNat 64 (warn.toNat + 256 * migrate.toNat))).reg 0xB00078 =
      BitVec.ofNat 64 (warn.toNat + 256 * migrate.toNat) := Tbl.get_set_same _ _ _ _
  refine ⟨_, if_pos ⟨h1, h2, h3⟩, rfl, ?_, ?_⟩
  · rw [ageWarn, hreg, bitsOf, BitVec.toNat_ofNat]
    omega
  · rw [ageMigrate, hreg, bitsOf, BitVec.toNat_ofNat]
    omega

theorem cluAgeThreshWrite_refused (h : warn.toNat < 5 ∨ migrate.toNat ≤ warn.toNat ∨ 100 < migrate.toNat) :
    ∃ t : State, exec (.cluAgeThreshWrite warn migrate) s = .next t ∧ t.regs = s.regs ∧ NoStore s t :=
  ⟨_, if_neg (by omega), State.note_regs s _ _, noStore_note s _ _⟩

end

/-- Settles O18: heartbeats, the ageing sample, the request made again, and the thresholds, each by the lemma above. -/
theorem clusterHealth : Obligations.ClusterHealth := by
  unfold Obligations.ClusterHealth
  exact fun c s => ⟨fun self => heartbeatMiss_fails self, fun self => heartbeatMiss_silent self, fun drift => ageingSample_ages drift,
    substitutionRerequest_asks, exec_substitutionRerequest_idle, fun warn migrate => ⟨cluAgeThreshWrite_stored, cluAgeThreshWrite_refused⟩⟩

end Sys2Proof.Machine

namespace Sys2Proof.Machine
open Sys2Proof

/-! ## What has been sent stays sent -/

/-- Whatever s has sent stands among what t has sent. -/
def KeepsOut (s t : State) : Prop := ∀ o ∈ s.out, o ∈ t.out

theorem KeepsOut.refl (s : State) : KeepsOut s s := fun _ h => h

theorem KeepsOut.trans {s t u : State} (hst : KeepsOut s t) (htu : KeepsOut t u) : KeepsOut s u := fun o h => htu o (hst o h)

theorem KeepsOut.foldl {α : Type} {g : State → α → State} (hg : ∀ t a, KeepsOut t (g t a)) (l : List α) (s : State) : KeepsOut s (l.foldl g s) := by
  induction l generalizing s with
  | nil => exact .refl s
  | cons a l ih => exact (hg s a).trans (ih _)

theorem keepsOut_of_out {s t : State} (h : t.out = s.out) : KeepsOut s t := fun o ho => by rwa [h]

theorem keepsOut_emit (s : State) (o : Output) : KeepsOut s (s.emit o) := fun _ h => List.mem_append_left _ h

theorem mem_emit (s : State) (o : Output) : o ∈ (s.emit o).out := List.mem_append_right _ (List.mem_singleton_self o)

theorem keepsOut_sendIrq (s : State) (o : Output) : KeepsOut s (s.sendIrq o) := by
  unfold State.sendIrq
  split
  · exact (keepsOut_of_out (State.setCore_out s _ _)).trans (keepsOut_emit _ _)
  · exact keepsOut_emit s o

theorem keepsOut_postErr (s : State) (p key : Nat) (e : LogEntry) : KeepsOut s (s.postErr p key e) := by
  unfold State.postErr
  dsimp only
  split
  · exact keepsOut_of_out (by simp)
  · exact (keepsOut_of_out (by simp)).trans ((keepsOut_emit _ _).trans (keepsOut_sendIrq _ _))

theorem keepsOut_deliver (s : State) (e : LogEntry) : KeepsOut s (s.deliver e) := by
  unfold State.deliver
  split
  · exact .foldl (fun t p => .foldl (fun u k => keepsOut_postErr u p k e) _ t) _ s
  · exact .foldl (fun u k => keepsOut_postErr u e.part k e) _ s

theorem keepsOut_note (s : State) (code : Nat) (src : Source) : KeepsOut s (s.note code src) := by
  unfold State.note
  split
  · exact keepsOut_of_out rfl
  · have hentered := (keepsOut_of_out (s := s) (State.addLog_out s (s.entryOf code src))).trans (keepsOut_deliver _ (s.entryOf code src))
    dsimp only
    split
    · exact hentered.trans (keepsOut_emit _ _)
    · exact hentered

/-! ## Locked interfaces and policy fuses (R438, R454) -/

section
variable {f : Nat} {s : State}

/-- Whether a debug_open context exists on function f. -/
def State.debugOpened (s : State) (f : Nat) : Bool := s.ctxs.any (fun e => e.2.fn == f && decide (e.2.st ≠ .free) && e.2.debugOpen)

theorem exec_lockInterface : exec (.lockInterface f) s =
    if decide (f < 1024) && decide (f % 64 ≠ 0) && decide ((s.fn f).tdi = .unlocked) && !s.debugOpened f then
      .next (s.modFn f (fun v => { v with tdi := .locked }))
    else .next s := rfl

theorem lockInterface_locks (hf : f < 1024) (hvirtual : f % 64 ≠ 0) (hun : (s.fn f).tdi = .unlocked) (hclosed : s.debugOpened f = false) :
    ∃ t : State, exec (.lockInterface f) s = .next t ∧ { t with fns := s.fns } = s ∧ t.fn f = { s.fn f with tdi := .locked } ∧
      ∀ g, g ≠ f → t.fn g = s.fn g := by
  rw [exec_lockInterface, if_pos (by simp [hf, hvirtual, hun, hclosed])]
  exact ⟨_, rfl, rfl, State.setFn_fn_same _ _ _, fun g hg => State.setFn_fn_ne _ _ _ _ hg⟩

theorem exec_lockInterface_refused (h : (s.fn f).tdi ≠ .unlocked ∨ s.debugOpened f = true ∨ f % 64 = 0) : exec (.lockInterface f) s = .next s := by
  rw [exec_lockInterface, if_neg]
  rcases h with h | h | h <;> simp [h]

end

section
variable {epoch : Nat} {s : State}

theorem exec_fuseWrite_unsigned (v : FuseValue) (h : s.signer = none ∨ s.current epoch = false) : exec (.fuseWrite epoch v) s = .next s := by
  change execFuseWrite epoch v s = _
  unfold execFuseWrite
  rcases h with h | h
  · rw [h]
  · split
    · rfl
    · exact if_pos h

/-- A fuse value that the lease holder's die takes, under the current epoch. -/
def Sec.burn (w : Sec) (svn : Word) : FuseValue → Option Sec
  | .operatorKeyHash h => if w.opHashSet then none else some { w with opHashNext := h, opHashSet := true }
  | .cosignRequired => some { w with cosignNext := true }
  | .revoke k => if k < 4 then some { w with revokedNext := w.revokedNext ||| BitVec.ofNat 4 (2 ^ k) } else none
  | .svnMin v => if w.svnMinNext.toNat < v.toNat ∧ v.toNat ≤ svn.toNat then some { w with svnMinNext := v } else none

theorem exec_fuseWrite {die : Nat} (v : FuseValue) (hsigner : s.signer = some die) (hcur : s.current epoch = true) : exec (.fuseWrite epoch v) s =
    .next (match s.sec.burn (s.die die).svn v with
      | some w => { s with sec := w }
      | none => s) := by
  change execFuseWrite epoch v s = _
  unfold execFuseWrite
  rw [hsigner]
  dsimp only
  rw [if_neg (by simp [hcur])]
  cases v <;> simp only [Sec.burn] <;> split <;> rfl

end

/-! ## Debug sessions, halt, resume and single step (R61, R63, R457 to R461) -/

section
variable {s : State}

theorem debugSession_starts (h : s.sec.debugActive = false) : ∃ t : State, exec (.debugSessionStart .pewterCommand) s = .next t ∧ NoStore s t ∧
    Logged t 0x0A01 ∧ t.sec.debugActive = true ∧ t.sec.debugSinceReset = true ∧ t.sec.debugCount = satInc s.sec.debugCount ∧
    t.sec.debugStart = s.now ∧ t.sec.debugLast = s.now := by
  let u : State := { s with sec := { s.sec with debugActive := true, debugSinceReset := true, debugCount := satInc s.sec.debugCount, debugStart := s.now } }
  let w := u.note 0x0A01 { detail := [(satInc s.sec.debugCount).toNat] }
  have hbegin : s.beginDebug = w := if_neg (by simp [h])
  have hsec : w.sec = u.sec := State.note_sec _ _ _
  have hexec : exec (.debugSessionStart .pewterCommand) s = .next { w with sec := { w.sec with debugLast := w.now } } := by
    change Host.Outcome.next s.debugCommand = _
    unfold State.debugCommand
    rw [hbegin]
  exact ⟨_, hexec, noStore_note u _ _, logged_note u _ _, congrArg Sec.debugActive hsec, congrArg Sec.debugSinceReset hsec,
    congrArg Sec.debugCount hsec, congrArg Sec.debugStart hsec, State.note_now u _ _⟩

/-- The panel once a debug command has come in an open session. -/
def State.heard (s : State) : State := { s with sec := { s.sec with debugLast := s.now } }

theorem debugCommand_heard (h : s.sec.debugActive = true) : s.debugCommand = s.heard := by
  unfold State.debugCommand State.beginDebug
  rw [if_pos h]
  rfl

theorem exec_debugSession_goesOn (h : s.sec.debugActive = true) : exec (.debugSessionStart .pewterCommand) s = .next s.heard :=
  congrArg Host.Outcome.next (debugCommand_heard h)

theorem exec_debugSessionEnd (h : s.sec.debugActive = true) (hquiet : s.sec.debugLast + 60 * ticksPerS ≤ s.now) :
    exec .debugSessionEnd s = .next { s with sec := { s.sec with debugActive := false } } := if_pos (by simp [h, hquiet])

theorem exec_debugSessionEnd_kept (h : s.sec.debugActive = false ∨ s.now < s.sec.debugLast + 60 * ticksPerS) : exec .debugSessionEnd s = .next s := by
  refine if_neg ?_
  rcases h with h | h
  · simp [h]
  · simp [Nat.not_le.mpr h]

/-- A command that changes cluster c, after the session has heard it. -/
theorem heard_modCl (s : State) (c : Nat) (f : Cluster → Cluster) :
    ({ s.heard.modCl c f with sec := s.sec, clusters := s.clusters } = s ∧ ∀ d, d ≠ c → (s.heard.modCl c f).cl d = s.cl d) ∧
    (s.heard.modCl c f).cl c = f (s.cl c) :=
  ⟨⟨rfl, fun _ hd => State.setCl_cl_ne _ _ _ _ hd⟩, State.setCl_cl_same _ _ _⟩

/-- The same of a core. -/
theorem heard_modCore (s : State) (n : Nat) (f : Core → Core) :
    { s.heard.modCore n f with sec := s.sec, cores := s.cores } = s ∧ (s.heard.modCore n f).core n = f (s.core n) :=
  ⟨rfl, State.setCore_core_same _ _ _⟩

end

section
variable {s : State} (hactive : s.sec.debugActive = true)
include hactive

theorem exec_debugHalt_cluster (c : Nat) : exec (.debugHalt (.cluster c)) s =
    .next (s.heard.modCl c (fun v => if haltable v then { v with st := .halted, haltedFrom := v.st, stepOne := false } else v)) := by
  rw [← debugCommand_heard hactive]
  rfl

theorem exec_debugResume_cluster (c : Nat) : exec (.debugResume (.cluster c)) s =
    .next (s.heard.modCl c (fun v => if v.st = .halted then { v with st := v.haltedFrom, haltedFrom := .off } else v)) := by
  rw [← debugCommand_heard hactive]
  rfl

theorem exec_debugSingleStep_cluster (c : Nat) : exec (.debugSingleStep (.cluster c)) s =
    .next (s.heard.modCl c (fun v => if v.st = .halted then { v with st := v.haltedFrom, haltedFrom := .off, stepOne := true } else v)) := by
  rw [← debugCommand_heard hactive]
  rfl

theorem exec_debugHalt_core {n : Nat} (hn : n < 384) : exec (.debugHalt (.core n)) s =
    .next (s.heard.modCore n (fun v => { v with halted := true, stepOne := false })) := by
  rw [← debugCommand_heard hactive]
  exact congrArg Host.Outcome.next (if_pos hn)

theorem exec_debugResume_core {n : Nat} (hn : n < 384) : exec (.debugResume (.core n)) s =
    .next (s.heard.modCore n (fun v => { v with halted := false, stepOne := false })) := by
  rw [← debugCommand_heard hactive]
  exact congrArg Host.Outcome.next (if_pos hn)

theorem exec_debugSingleStep_core {n : Nat} (hn : n < 384) : exec (.debugSingleStep (.core n)) s =
    .next (s.heard.modCore n (fun v => if v.halted then { v with stepOne := true } else v)) := by
  rw [← debugCommand_heard hactive]
  exact congrArg Host.Outcome.next (if_pos hn)

end

/-! ## What debug reads show of a sealed context (R458, Table 15.8) -/

theorem readNat_congr {s t : State} (h : ∀ a, t.byte a = s.byte a) (a n : Nat) : t.readNat a n = s.readNat a n := by
  induction n with
  | zero => rfl
  | succ n ih => simp only [State.readNat, ih, h]

/-- A read that command i answers with a value, and that changes nothing but the session's clock. -/
def Shows (s : State) (o : DebugObject) (v : Row) : Prop :=
  ∃ t : State, exec (.debugRead o) s = .next t ∧ { t with sec := s.sec, out := s.out } = s ∧ t.out = s.out ++ [.debug o v]

/-- A read answered with v and logged against context x. -/
def Hides (s : State) (o : DebugObject) (v : Row) (x : Nat) : Prop :=
  ∃ t : State, exec (.debugRead o) s = .next t ∧ NoStore s t ∧ Output.debug o v ∈ t.out ∧ Logged t 0x0A02 ∧
    (t.ctx x).debugReads = satInc (s.ctx x).debugReads

section
variable {s : State} {o : DebugObject} {v : Row}

theorem shows_of_exec (h : exec (.debugRead o) s = .next (s.heard.emit (.debug o v))) : Shows s o v := ⟨_, h, rfl, rfl⟩

theorem hides_of_exec {x : Nat} (h : exec (.debugRead o) s = .next ((s.heard.emit (.debug o v)).logRead (some x) o)) : Hides s o v x := by
  let u := s.heard.emit (.debug o v)
  let w := u.note 0x0A02 { part := (u.ctx x).part, ctx := some x, detail := [x, objectCode o] }
  have hlog : u.logRead (some x) o = w.setCtx x { w.ctx x with debugReads := satInc (w.ctx x).debugReads } := rfl
  have hnote : NoStore u w := noStore_note u _ _
  refine ⟨_, h, ?_⟩
  rw [hlog]
  refine ⟨hnote, ?_, logged_note u _ _, ?_⟩
  · exact keepsOut_note u _ _ _ (mem_emit _ _)
  · rw [State.setCtx_ctx_same, State.note_ctx]
    rfl

end

section
variable {s : State} (hactive : s.sec.debugActive = true) {o : DebugObject} {c : Nat}
include hactive

/-- A register of tenant data, read where the cluster's context is open or the cluster has none. -/
theorem readSealed_shows (n : State → Nat) (hexec : exec (.debugRead o) s = .next (s.debugCommand.readSealed c o (n s.debugCommand)))
    (hopen : ∀ x, s.ctxOf c = some x → (s.ctx x).debugOpen = true) : Shows s o (BitVec.ofNat 4096 (n s.heard)) := by
  rw [debugCommand_heard hactive] at hexec
  refine shows_of_exec (hexec.trans (congrArg Host.Outcome.next ?_))
  unfold State.readSealed
  split
  next x hx => exact if_pos (hopen x hx)
  next => rfl

/-- The same of a sealed context. -/
theorem readSealed_hides {n x : Nat} (hexec : exec (.debugRead o) s = .next (s.debugCommand.readSealed c o n)) (hx : s.ctxOf c = some x) (hsealed : (s.ctx x).debugOpen = false) : Hides s o 0 x := by
  rw [debugCommand_heard hactive] at hexec
  refine hides_of_exec (hexec.trans (congrArg Host.Outcome.next ?_))
  have hx' : s.heard.ctxOf c = some x := hx
  have hsealed' : (s.heard.ctx x).debugOpen = false := hsealed
  unfold State.readSealed
  simp only [hx', hsealed']
  rfl

theorem clusterState_shows : Shows s (.clusterState c) (BitVec.ofNat 4096 (s.cl c).st.code) := by
  have hexec : exec (.debugRead (.clusterState c)) s =
    .next (s.debugCommand.emit (.debug (.clusterState c) (BitVec.ofNat 4096 (s.debugCommand.cl c).st.code))) := rfl
  rw [debugCommand_heard hactive] at hexec
  exact shows_of_exec hexec

theorem programCounter_shows : Shows s (.programCounter c) ((s.regsOf c).pc.setWidth 4096) := by
  have hexec : exec (.debugRead (.programCounter c)) s =
    .next (s.debugCommand.emit (.debug (.programCounter c) (BitVec.ofNat 4096 (s.debugCommand.cl c).regs.pc.toNat))) := rfl
  rw [debugCommand_heard hactive, BitVec.ofNat_toNat] at hexec
  exact shows_of_exec hexec

/-- A row neither HELD nor POISONED is read, or hidden where the context is sealed. -/
theorem exec_debugRead_tarnRow {row : Nat} (hheld : s.rowTag c row ≠ .held) (hpoison : s.rowTag c row ≠ .poisoned) :
    exec (.debugRead (.tarnRow c row)) s = .next (match s.ctxOf c with
      | some x => if (s.ctx x).debugOpen then s.heard.emit (.debug (.tarnRow c row) (s.trow c row).data)
          else (s.heard.emit (.debug (.tarnRow c row) 0)).logRead (some x) (.tarnRow c row)
      | none => s.heard.emit (.debug (.tarnRow c row) (s.trow c row).data)) := by
  change execDebugRead (.tarnRow c row) s = _
  have htag : s.heard.rowTag c row = s.rowTag c row := rfl
  have hctx : s.heard.ctxOf c = s.ctxOf c := rfl
  have hopen (x : Nat) : s.heard.ctx x = s.ctx x := rfl
  have hrow : s.heard.trow c row = s.trow c row := rfl
  unfold execDebugRead
  rw [debugCommand_heard hactive]
  dsimp only
  rw [htag, hctx, hrow]
  cases htag' : s.rowTag c row with
  | held => exact absurd htag' hheld
  | poisoned => exact absurd htag' hpoison
  | empty | full =>
    cases s.ctxOf c with
    | none => rfl
    | some x => cases hx : (s.ctx x).debugOpen <;> simp [hopen, hx]

/-- A mapped page is read, or shown encrypted and logged where the context is sealed. -/
theorem exec_debugRead_page {addr : Nat} (huse : (s.page (addr / 64 * 64 / 4096)).use = .mapped) :
    let a := addr / 64 * 64
    let pg := s.page (a / 4096)
    let data := BitVec.ofNat 512 (s.readNat a 64)
    exec (.debugRead (.page addr)) s = .next (if (s.ctx pg.owner).debugOpen then s.heard.emit (.debug (.page addr) (data.setWidth 4096))
      else (s.heard.emit (.debug (.page addr) ((Config.cipher pg.key a data).setWidth 4096))).logRead (some pg.owner) (.page addr)) := by
  intro a pg data
  change execDebugRead (.page addr) s = _
  have hpage : s.heard.page (a / 4096) = pg := rfl
  have hctx (x : Nat) : s.heard.ctx x = s.ctx x := rfl
  have hdata : s.heard.readNat a 64 = s.readNat a 64 := readNat_congr (fun _ => rfl) _ _
  have huse' : pg.use = .mapped := huse
  unfold execDebugRead
  rw [debugCommand_heard hactive]
  dsimp only
  rw [hpage, hdata, huse', hctx]
  cases (s.ctx pg.owner).debugOpen <;> rfl

end

/-- Settles O38: the locked interface and the fuses, then debug sessions, the halted cluster and core, and the reads of Table 15.8. -/
theorem interfacesFusesAndDebug : Obligations.InterfacesFusesAndDebug := by
  unfold Obligations.InterfacesFusesAndDebug
  refine ⟨⟨fun f s => ⟨lockInterface_locks, exec_lockInterface_refused⟩, fun epoch v s => exec_fuseWrite_unsigned v,
    fun epoch die s hsigner hcur => ?_⟩, fun s => ⟨rfl, debugSession_starts, fun h => ⟨_, exec_debugSession_goesOn h, rfl, rfl⟩,
      fun h hquiet => ⟨_, exec_debugSessionEnd h hquiet, rfl, rfl⟩, exec_debugSessionEnd_kept⟩,
    fun c s hactive => ?_, fun n s hn hactive => ?_, fun c s hactive => ?_⟩
  · have hexec (v : FuseValue) := exec_fuseWrite v hsigner hcur
    have htakes {v : FuseValue} {w : Sec} (hburn : s.sec.burn (s.die die).svn v = some w) :
        ∃ t : State, exec (.fuseWrite epoch v) s = .next t ∧ { t with sec := s.sec } = s ∧ t.sec = w :=
      ⟨{ s with sec := w }, by rw [hexec, hburn], rfl, rfl⟩
    have hkeeps {v : FuseValue} (hburn : s.sec.burn (s.die die).svn v = none) : exec (.fuseWrite epoch v) s = .next s := by rw [hexec, hburn]
    exact ⟨fun h hset => htakes (if_neg (by simp [hset])), fun h hset => hkeeps (if_pos hset), htakes rfl, fun k hk => htakes (if_pos hk),
      fun w hlo hhi => htakes (if_pos ⟨hlo, hhi⟩), fun w hw => hkeeps (if_neg (by omega))⟩
  · refine ⟨fun h => ?_, fun h => ?_, fun h => ⟨?_, ?_⟩⟩
    · obtain ⟨honly, hcl⟩ := heard_modCl s c (fun v => if haltable v then { v with st := .halted, haltedFrom := v.st, stepOne := false } else v)
      exact ⟨_, exec_debugHalt_cluster hactive c, honly, hcl.trans (if_pos h)⟩
    · obtain ⟨honly, hcl⟩ := heard_modCl s c (fun v => if haltable v then { v with st := .halted, haltedFrom := v.st, stepOne := false } else v)
      exact ⟨_, exec_debugHalt_cluster hactive c, honly, hcl.trans (if_neg (by simp [h]))⟩
    · obtain ⟨honly, hcl⟩ := heard_modCl s c (fun v => if v.st = .halted then { v with st := v.haltedFrom, haltedFrom := .off } else v)
      exact ⟨_, exec_debugResume_cluster hactive c, honly, hcl.trans (if_pos h)⟩
    · obtain ⟨honly, hcl⟩ := heard_modCl s c (fun v => if v.st = .halted then { v with st := v.haltedFrom, haltedFrom := .off, stepOne := true } else v)
      exact ⟨_, exec_debugSingleStep_cluster hactive c, honly, hcl.trans (if_pos h)⟩
  · refine ⟨?_, ?_, fun hhalt => ?_⟩
    · obtain ⟨honly, hcore⟩ := heard_modCore s n (fun v => { v with halted := true, stepOne := false })
      exact ⟨_, exec_debugHalt_core hactive hn, honly, congrArg Core.halted hcore⟩
    · obtain ⟨honly, hcore⟩ := heard_modCore s n (fun v => { v with halted := false, stepOne := false })
      exact ⟨_, exec_debugResume_core hactive hn, honly, congrArg Core.halted hcore⟩
    · obtain ⟨honly, hcore⟩ := heard_modCore s n (fun v => if v.halted then { v with stepOne := true } else v)
      exact ⟨_, exec_debugSingleStep_core hactive hn, honly, congrArg Core.stepOne (hcore.trans (if_pos hhalt))⟩
  · refine ⟨clusterState_shows hactive, programCounter_shows hactive, fun hopen i hi => ⟨?_, ?_, ?_⟩,
      fun x hx hsealed i lane b row hheld hpoison => ⟨?_, ?_, ?_, ?_, ?_, ?_, ?_⟩, fun row hopen hheld hpoison => ?_, fun addr => ⟨fun huse hopen => ?_,
        fun huse hsealed => ?_⟩, ?_⟩
    · have h := readSealed_shows hactive (o := .scalar c i) (fun t => (Tbl.get (fun _ => (0 : Word)) (t.cl c).regs.s (i % 64)).toNat) rfl hopen
      rwa [Nat.mod_eq_of_lt hi, BitVec.ofNat_toNat] at h
    · have h := readSealed_shows hactive (o := .rowRegister c i) (fun t => (Tbl.get (fun _ => (0 : Row)) (t.cl c).regs.v (i % 64)).toNat) rfl hopen
      rwa [Nat.mod_eq_of_lt hi, BitVec.ofNat_toNat, BitVec.setWidth_eq] at h
    · have h := readSealed_shows hactive (o := .predicate c) (fun t => (t.cl c).regs.p.toNat) rfl hopen
      rwa [BitVec.ofNat_toNat] at h
    · exact readSealed_hides hactive rfl hx hsealed
    · exact readSealed_hides hactive rfl hx hsealed
    · exact readSealed_hides hactive rfl hx hsealed
    · exact readSealed_hides hactive rfl hx hsealed
    · exact readSealed_hides hactive rfl hx hsealed
    · exact readSealed_hides hactive rfl hx hsealed
    · have h := exec_debugRead_tarnRow hactive hheld hpoison
      simp only [hx, hsealed, Bool.false_eq_true, if_false] at h
      exact hides_of_exec h
    · have h := exec_debugRead_tarnRow hactive hheld hpoison
      cases hx : s.ctxOf c with
      | none =>
        rw [hx] at h
        exact shows_of_exec h
      | some x =>
        simp only [hx, hopen x hx, if_true] at h
        exact shows_of_exec h
    · have h := exec_debugRead_page hactive huse
      simp only [hopen, if_true] at h
      exact shows_of_exec h
    · have h := exec_debugRead_page hactive huse
      simp only [hsealed, Bool.false_eq_true, if_false] at h
      obtain ⟨t, hexec, hstore, hout, -, hreads⟩ := hides_of_exec h
      exact ⟨t, hexec, hstore, hout, hreads⟩
    · exact ⟨_, congrArg Host.Outcome.next (debugCommand_heard hactive), rfl⟩

end Sys2Proof.Machine

namespace Sys2Proof.Machine
open Sys2Proof

/-! ## Peeks that change no tag (R42, R81) -/

/-- Row n of cluster c after a quiet peek: its CRC difference is as the disturbance leaves it. -/
def State.peeked (s : State) (c n : Nat) (u : Upset) : State :=
  s.setTrow c n { s.trow c n with syndrome := (s.trow c n).syndrome ^^^ upsetOf u }

section
variable {s : State} {c n : Nat} {u : Upset}

theorem onlyRow_setTrow (s : State) (c n : Nat) (v : TarnRow) : OnlyRow s (s.setTrow c n v) c n :=
  ⟨fun _ hk => trow_setTrow _ _ _ _ _ hk, rfl, rfl⟩

theorem peeked_tag : ((s.peeked c n u).trow c n).tag = (s.trow c n).tag := by
  rw [State.peeked, State.setTrow_trow_same]

theorem peeked_row (hsyn : (s.trow c n).syndrome ^^^ upsetOf u = 0) : (s.peeked c n u).trow c n = { s.trow c n with syndrome := 0 } := by
  rw [State.peeked, hsyn, State.setTrow_trow_same]

theorem quietPeek_full (hfree : s.allHeld c = false) (htag : (s.trow c n).tag = .full) : s.quietPeek c n u =
    if (s.trow c n).syndrome ^^^ upsetOf u = 0 then .done (s.trow c n).data (s.peeked c n u) else .bad (s.peeked c n u) := by
  unfold State.quietPeek
  rw [rowTag_free hfree, htag]
  rfl

end

/-! ## Code lines (R42, R43, R103, R586) -/

/-- A line of cluster c fetched: its bytes are kept and its mark is clean. -/
theorem setLine_fetched (s : State) (c line : Nat) (d : Row) :
    Tbl.get (fun _ => none) ((s.setLine c line (some d) .clean).cl c).code.lines line = some d ∧
    Tbl.get (fun _ => Mark.clean) ((s.setLine c line (some d) .clean).cl c).code.marks line = .clean := by
  simp [State.setLine]

section
variable {c line : Nat} {u : Upset} {s : State} (hrun : (s.cl c).st = .running)
include hrun

theorem exec_instructionFetch : exec (.instructionFetch c line u) s = .next (s.fetchLine c line u) := by
  change execInstructionFetch c line u s = _
  unfold execInstructionFetch
  rw [hrun]

section
variable {h : Nat} (hsrc : (s.cl c).code.src = .tarn h) (hfree : s.allHeld c = false) (htag : (s.trow c (handleRow (s.handle c h) line)).tag = .full)
  (hsyn : (s.trow c (handleRow (s.handle c h) line)).syndrome ^^^ upsetOf u = 0)
include hsrc hfree htag hsyn

theorem instructionFetch_tarn (hok : handleOk (s.handle c h) (s.ctxOf c) .engineRead line = true) :
    let n := handleRow (s.handle c h) line
    ∃ t : State, exec (.instructionFetch c line u) s = .next t ∧
      Tbl.get (fun _ => none) (t.cl c).code.lines line = some (s.trow c n).data ∧
      Tbl.get (fun _ => Mark.clean) (t.cl c).code.marks line = .clean ∧ (t.trow c n).tag = .full ∧ OnlyRow s t c n := by
  intro n
  have hfetch : s.fetchLine c line u = (s.peeked c n u).setLine c line (some (s.trow c n).data) .clean := by
    unfold State.fetchLine
    simp only [hsrc, hok, quietPeek_full hfree htag, hsyn, if_true]
    rfl
  obtain ⟨hline, hmark⟩ := setLine_fetched (s.peeked c n u) c line (s.trow c n).data
  exact ⟨_, (exec_instructionFetch hrun).trans (congrArg _ hfetch), hline, hmark, peeked_tag.trans htag, onlyRow_setTrow s c n _⟩

theorem fetchFaultReread_tarn (hpc : line = (s.regsOf c).pc.toNat / 512)
    (hmark : Tbl.get (fun _ => Mark.clean) (s.cl c).code.marks line = .integrityTarn) :
    let n := handleRow (s.handle c h) line
    ∃ t : State, exec (.fetchFaultReread c u) s = .next t ∧
      Tbl.get (fun _ => none) (t.cl c).code.lines line = some (s.trow c n).data ∧
      Tbl.get (fun _ => Mark.clean) (t.cl c).code.marks line = .clean ∧ OnlyRow s t c n := by
  intro n
  obtain ⟨t, hread, -, honly, -⟩ := rowAccess_read (a := .peek) (w := 0) rfl (by rw [rowTag_free hfree, htag]; rfl) hsyn
  have hreread : s.rereadLine c line u = (true, t.modCl c (fun v => { v with code :=
      { v.code with lines := Tbl.set (fun _ => none) v.code.lines line (some (s.trow c n).data), marks := Tbl.set (fun _ => .clean) v.code.marks line .clean } })) := by
    unfold State.rereadLine
    simp only [hsrc, hread]
    rfl
  have hexec : exec (.fetchFaultReread c u) s = .next (s.rereadLine c line u).2 := by
    change execFetchFaultReread c u s = _
    unfold execFetchFaultReread
    dsimp only
    rw [State.regsOf] at hpc
    rw [← hpc, hrun, hmark, hreread]
    rfl
  rw [hreread] at hexec
  exact ⟨_, hexec, by simp, by simp, honly⟩

end

theorem instructionFetch_hbm {base p : Nat} (hsrc : (s.cl c).code.src = .hbm base) (hpart : s.partOf c = some p)
    (hreach : s.reachable p (base + line * 512) 512 = true) (hclean : s.readsPoison (base + line * 512) 512 = false) :
    ∃ t : State, exec (.instructionFetch c line u) s = .next t ∧ OnlyCluster s t c ∧
      Tbl.get (fun _ => none) (t.cl c).code.lines line = some (BitVec.ofNat 4096 (s.readNat (base + line * 512) 512)) := by
  have hfetch : s.fetchLine c line u = s.setLine c line (some (BitVec.ofNat 4096 (s.readNat (base + line * 512) 512))) .clean := by
    unfold State.fetchLine
    simp only [hsrc, hpart, hreach, hclean]
    rfl
  exact ⟨_, (exec_instructionFetch hrun).trans (congrArg _ hfetch), ⟨rfl, fun _ hd => State.setCl_cl_ne _ _ _ _ hd⟩,
    (setLine_fetched s c line _).1⟩

end

/-! ## Run-ahead loads and parked peeks (R51 to R53) -/

/-- What run-ahead enters for row n of handle h. -/
def loadEntry (h n : Nat) (parked : Bool) (d : Row) : RaEntry := { handle := h, row := n, parked := parked, data := d, stale := false }

/-- An entry put into the run-ahead load buffer of cluster c. -/
def State.aheadLoad (s : State) (c : Nat) (e : RaEntry) : State :=
  s.modCl c (fun v => { v with ahead := { v.ahead with loads := v.ahead.loads ++ [e] } })

theorem aheadLoad_loads (s : State) (c : Nat) (e : RaEntry) : ((s.aheadLoad c e).cl c).ahead.loads = (s.cl c).ahead.loads ++ [e] := by
  simp [State.aheadLoad]

section
variable {c h : Nat} {w : Word} {s : State} (u : Upset) (hahead : s.runsAhead c = true)
  (hok : handleOk (s.handle c h) (s.ctxOf c) .engineRead w.toNat = true) (hback : hBacking (s.handle c h) = 0)
  (hroom : (s.cl c).ahead.loads.length < 8) (hfree : s.allHeld c = false)
include hahead hok hback hroom hfree

theorem exec_runAheadLoad : exec (.runAheadLoad c h (some w) u) s =
    let n := handleRow (s.handle c h) w.toNat
    match (s.trow c n).tag with
    | .poisoned => .next s
    | .full =>
      (match s.quietPeek c n u with
       | .done d t => .next (t.aheadLoad c (loadEntry h n false d))
       | .bad t => .next (t.modCl c (fun v => { v with cnt := { v.cnt with crcMismatch := satInc v.cnt.crcMismatch } }))
       | .wait => .next s)
    | _ => .next (s.aheadLoad c (loadEntry h n true 0)) := by
  refine (if_pos ?_).trans ?_
  · simp [hahead, hok, hback, hroom]
  · dsimp only
    rw [rowTag_free hfree]
    rfl

theorem runAheadLoad_full (htag : (s.trow c (handleRow (s.handle c h) w.toNat)).tag = .full)
    (hsyn : (s.trow c (handleRow (s.handle c h) w.toNat)).syndrome ^^^ upsetOf u = 0) :
    let n := handleRow (s.handle c h) w.toNat
    ∃ t : State, exec (.runAheadLoad c h (some w) u) s = .next t ∧ OnlyRow s t c n ∧ t.trow c n = { s.trow c n with syndrome := 0 } ∧
      (t.cl c).ahead.loads = (s.cl c).ahead.loads ++ [loadEntry h n false (s.trow c n).data] := by
  intro n
  have hexec := exec_runAheadLoad u hahead hok hback hroom hfree
  simp only [htag, quietPeek_full hfree htag, hsyn, if_true] at hexec
  exact ⟨_, hexec, onlyRow_setTrow s c n _, peeked_row hsyn, aheadLoad_loads (s.peeked c n u) c _⟩

theorem runAheadLoad_mismatch (htag : (s.trow c (handleRow (s.handle c h) w.toNat)).tag = .full)
    (hsyn : (s.trow c (handleRow (s.handle c h) w.toNat)).syndrome ^^^ upsetOf u ≠ 0) :
    ∃ t : State, exec (.runAheadLoad c h (some w) u) s = .next t ∧ (t.trow c (handleRow (s.handle c h) w.toNat)).tag = .full ∧
      (t.cl c).ahead = (s.cl c).ahead ∧ (t.cl c).cnt.crcMismatch = satInc (s.cl c).cnt.crcMismatch := by
  have hexec := exec_runAheadLoad u hahead hok hback hroom hfree
  simp only [htag, quietPeek_full hfree htag, hsyn, if_false] at hexec
  exact ⟨_, hexec, peeked_tag.trans htag, by simp [State.peeked], by simp [State.peeked]⟩

theorem runAheadLoad_empty (htag : (s.trow c (handleRow (s.handle c h) w.toNat)).tag = .empty) :
    ∃ t : State, exec (.runAheadLoad c h (some w) u) s = .next t ∧ OnlyCluster s t c ∧
      (t.cl c).ahead.loads = (s.cl c).ahead.loads ++ [loadEntry h (handleRow (s.handle c h) w.toNat) true 0] := by
  have hexec := exec_runAheadLoad u hahead hok hback hroom hfree
  simp only [htag] at hexec
  exact ⟨_, hexec, ⟨rfl, fun _ hd => State.setCl_cl_ne _ _ _ _ hd⟩, aheadLoad_loads s c _⟩

theorem exec_runAheadLoad_poisoned (htag : (s.trow c (handleRow (s.handle c h) w.toNat)).tag = .poisoned) :
    exec (.runAheadLoad c h (some w) u) s = .next s := by
  have hexec := exec_runAheadLoad u hahead hok hback hroom hfree
  simpa only [htag] using hexec

end

section
variable {c k : Nat} {e : RaEntry} {s : State} (u : Upset) (hentry : (s.cl c).ahead.loads[k]? = some e) (hfree : s.allHeld c = false)
include hentry hfree

theorem runAheadParkedPeek_full (hparked : e.parked = true) (hahead : s.runsAhead c = true) (htag : (s.trow c e.row).tag = .full)
    (hsyn : (s.trow c e.row).syndrome ^^^ upsetOf u = 0) :
    ∃ t : State, exec (.runAheadParkedPeek c k u) s = .next t ∧ OnlyRow s t c e.row ∧
      (t.cl c).ahead.loads = (s.cl c).ahead.loads.set k { e with parked := false, data := (s.trow c e.row).data, stale := false } := by
  have hexec : exec (.runAheadParkedPeek c k u) s = .next ((s.peeked c e.row u).modCl c (fun v => { v with ahead := { v.ahead with
      loads := v.ahead.loads.set k { e with parked := false, data := (s.trow c e.row).data, stale := false } } })) := by
    change execRunAheadParkedPeek c k u s = _
    unfold execRunAheadParkedPeek
    simp only [hentry, hparked, hahead, rowTag_free hfree, htag, quietPeek_full hfree htag, hsyn, if_true, decide_true, Bool.and_self]
  exact ⟨_, hexec, onlyRow_setTrow s c e.row _, by simp [State.peeked]⟩

theorem exec_runAheadParkedPeek_waits (htag : (s.trow c e.row).tag ≠ .full) : exec (.runAheadParkedPeek c k u) s = .next s := by
  change execRunAheadParkedPeek c k u s = _
  unfold execRunAheadParkedPeek
  simp [hentry, rowTag_free hfree, htag]

end

/-! ## Receive prefetches (R56, R81, R255) -/

/-- A request that may leave does. -/
theorem sendOp_sends {s : State} {c key : Nat} (kind : OpKind) (k : Packet) (hperim : s.noPerimeter (regionOf c) k.dst = false)
    (hroute : s.noRoute (regionOf c) (nodeRegion k.dst) = false) :
    Sends s (s.sendOp c key kind k) c key kind k ∧ NoStore s (s.sendOp c key kind k) ∧ (s.sendOp c key kind k).regsOf c = s.regsOf c ∧
      ((s.sendOp c key kind k).cl c).ahead = (s.cl c).ahead := by
  unfold State.sendOp
  simp only [hperim, hroute, Bool.false_eq_true, if_false]
  refine ⟨⟨rfl, rfl, ?_, ?_, fun d hd => ?_⟩, ⟨rfl, rfl, rfl⟩, ?_, ?_⟩
  · simp [State.regsOf]
  · simp
  · simp [hd]
  · simp [State.regsOf]
  · simp

/-- A change of the sender's run-ahead state alone does not touch what has been sent. -/
theorem Sends.modAhead {s t : State} {c key : Nat} {kind : OpKind} {k : Packet} (h : Sends s t c key kind k) (g : Cluster → Ahead) :
    Sends s (t.modCl c (fun v => { v with ahead := g v })) c key kind k := by
  obtain ⟨hnet, hnext, hops, hflows, hothers⟩ := h
  refine ⟨hnet, hnext, ?_, ?_, fun d hd => (State.setCl_cl_ne _ _ _ _ hd).trans (hothers d hd)⟩
  · rw [State.modCl_eq, State.setCl_cl_same]
    exact hops
  · rw [State.modCl_eq, State.setCl_cl_same]
    exact hflows

theorem receivePrefetch_sends {c h : Nat} {w d : Word} {s : State} (hahead : s.runsAhead c = true) (hdest : s.badDest c d.toNat = false)
    (hroom : (s.cl c).ahead.prefetch.length < 8) (hback : hBacking (s.handle d.toNat h) = 0)
    (hleave : MayLeave s c (flowKey (.cluster d.toNat) h) (.cluster d.toNat)) :
    let key := flowKey (.cluster d.toNat) h
    ∃ t : State, exec (.receivePrefetch c h (some w) (some d)) s = .next t ∧ NoStore s t ∧ t.regsOf c = s.regsOf c ∧
      Sends s t c key .prefetch (reqPacket c .read (.cluster d.toNat) h w.toNat 2 0 0) ∧
      (t.cl c).ahead.prefetch = (s.cl c).ahead.prefetch ++
        [{ owner := d.toNat, handle := h, index := w, tag := s.nextTag c, data := none, watched := false, stale := false }] := by
  intro key
  obtain ⟨hmay, hperim, hroute⟩ := hleave
  have hmay' : s.maySend c key (regionOf d.toNat) = true := hmay
  obtain ⟨hsends, hstore, hregs, hkept⟩ := sendOp_sends (key := key) .prefetch (reqPacket c .read (.cluster d.toNat) h w.toNat 2 0 0) hperim hroute
  refine ⟨_, if_pos (by simp [hahead, hdest, hroom, hback, hmay', key]), hstore, ?_, hsends.modAhead _, ?_⟩
  · rw [← hregs, State.regsOf, State.modCl_eq, State.setCl_cl_same]
    rfl
  · rw [State.modCl_eq, State.setCl_cl_same, hkept]

/-- Settles O7: code lines from tarn, read again and from HBM, then run-ahead loads, parked peeks and receive prefetches. -/
theorem codeFetchAndRunAhead : Obligations.CodeFetchAndRunAhead := by
  unfold Obligations.CodeFetchAndRunAhead
  refine ⟨fun c line u s hrun => ⟨fun h hsrc hok hfree htag hsyn => ⟨instructionFetch_tarn hrun hsrc hfree htag hsyn hok,
      fetchFaultReread_tarn hrun hsrc hfree htag hsyn⟩, fun base p => instructionFetch_hbm hrun⟩,
    fun c s => ⟨rfl, fun h w u hahead hok hback hroom hfree => ⟨runAheadLoad_full u hahead hok hback hroom hfree,
      runAheadLoad_mismatch u hahead hok hback hroom hfree, runAheadLoad_empty u hahead hok hback hroom hfree,
      exec_runAheadLoad_poisoned u hahead hok hback hroom hfree⟩,
      fun k u e hentry hparked hahead hfree => ⟨runAheadParkedPeek_full u hentry hfree hparked hahead, exec_runAheadParkedPeek_waits u hentry hfree⟩,
      fun h w d hahead hdest hroom hback => receivePrefetch_sends hahead hdest hroom hback⟩⟩

end Sys2Proof.Machine

namespace Sys2Proof.Machine
open Sys2Proof

/-! ## A request that arrives is served by its owner (R258 to R263) -/

theorem exec_arrives {s : State} {p : Nat} {ty : PType} {k : Packet} (h : Arrives s p ty k) (f : Packet → State → State) :
    s.arrive p ty f = f k (s.removePkt p) := by
  obtain ⟨hfind, htype, hbehind, hage, hstomp, hpart, hvacant⟩ := h
  unfold State.arrive
  rw [hfind]
  dsimp only
  rw [if_neg (by simp [htype, hbehind]), if_neg (Nat.not_lt.mpr hage), if_neg (by simp [hstomp])]
  split
  next q hq =>
    rw [if_neg (not_not.mpr (hpart q hq))]
    split
    next c hc => exact if_neg (by simp [hvacant c hc])
    next => rfl
  next => rfl

theorem answers_ackTo (t : State) (k : Packet) (status : Nat) : Answers (t.ackTo k status) k .ack status 0 :=
  ⟨_, List.mem_append_right _ (List.mem_singleton_self _), rfl, rfl, rfl, rfl, rfl, rfl, rfl⟩

theorem answers_dataTo (t : State) (k : Packet) (status units : Nat) (d : Row) : Answers (t.dataTo k status units d) k .data status d :=
  ⟨_, List.mem_append_right _ (List.mem_singleton_self _), rfl, rfl, rfl, rfl, rfl, rfl, rfl⟩

/-! ## The owner of a row (R85, R92, R215, R220) -/

/-- Row n of cluster c is written with d. -/
def RowWritten (s t : State) (c n : Nat) (d : Row) : Prop :=
  OnlyRow s t c n ∧ t.trow c n = { s.trow c n with data := d, tag := .full, syndrome := 0 }

/-- Row n of cluster c is read, and its tag left at g. -/
def RowRead (s t : State) (c n : Nat) (g : Tag) : Prop :=
  OnlyRow s t c n ∧ t.trow c n = { s.trow c n with syndrome := 0, tag := g }

section
variable {s : State} {c n : Nat} {tagged : Bool}

theorem rowAccess_writes (h : Writable s c n tagged) (d : Row) (u : Upset) :
    ∃ t, s.rowAccess c n (if tagged then .taggedWrite else .untaggedWrite) d u = .done 0 t ∧ RowWritten s t c n d := by
  obtain ⟨t, hdone, hrow, honly, -⟩ := rowAccess_write (w := d) (u := u) (by cases tagged <;> rfl) (tagTable_writable h)
  exact ⟨t, hdone, honly, hrow⟩

theorem rowAccess_reads {u : Upset} (h : Readable s c n tagged u) (peek : Bool) (w : Row) :
    ∃ t, s.rowAccess c n (if tagged then (if peek then .peek else .taggedRead) else .untaggedRead) w u = .done (s.trow c n).data t ∧
      RowRead s t c n (if tagged ∧ peek = false then .empty else (s.trow c n).tag) := by
  obtain ⟨t, hdone, hrow, honly, -⟩ := rowAccess_read (w := w) (by cases tagged <;> cases peek <;> rfl) (tagTable_readable h peek) h.2.2
  exact ⟨t, hdone, honly, hrow⟩

end

section
variable {s t : State} {c n : Nat} {k : Packet} {e : HandleEntry} {a : Access} {u : Upset} {d : Row} {status : Nat} (block : State)

theorem entryAccess_resident (hback : hBacking e = 0) (j : Nat) (w : Row) : s.entryAccess c e j a w u = s.rowAccess c j a w u :=
  if_pos hback

theorem serveRow_read (hread : a.reads = true) (hdone : s.entryAccess c e n a k.data u = .done d t) :
    s.serveRow c k e n a u status block = t.dataTo k status 8 d := by
  unfold State.serveRow
  rw [hdone]
  exact if_pos hread

theorem serveRow_write (hwrite : a.reads = false) (hdone : s.entryAccess c e n a k.data u = .done d t) :
    s.serveRow c k e n a u status block = t.ackTo k 0 := by
  unfold State.serveRow
  rw [hdone]
  exact if_neg (by simp [hwrite])

theorem serveRow_wait (hwait : s.entryAccess c e n a k.data u = .wait) : s.serveRow c k e n a u status block = block := by
  unfold State.serveRow
  rw [hwait]

end

section
variable {s : State} {c : Nat} {k : Packet} (u : Upset) (block : State)

/-- A handle that does not let the request through: it is refused with status 2. -/
theorem serve_refused (hok : handleOk (s.handle c k.handle) (some k.context) (if k.ptype = .write then .remoteWrite else .remoteRead)
    k.index.toNat = false) : s.serve c k u block = s.ackTo k 2 := by
  unfold State.serve
  exact if_neg (by simp [hok])

section
variable (hwrite : k.ptype = .write) (hok : handleOk (s.handle c k.handle) (some k.context) .remoteWrite k.index.toNat = true)
  (hback : hBacking (s.handle c k.handle) = 0)
include hwrite hok

theorem serve_write : s.serve c k u block = s.serveRow c k (s.handle c k.handle) (handleRow (s.handle c k.handle) k.index.toNat)
    (writeBy (s.handle c k.handle)) .none 0 block := by
  unfold State.serve
  simp only [hwrite, hok, if_true]

include hback

theorem serve_writes (hrow : Writable s c (handleRow (s.handle c k.handle) k.index.toNat) (hTagged (s.handle c k.handle))) :
    ∃ t : State, s.serve c k u block = t.ackTo k 0 ∧ RowWritten s t c (handleRow (s.handle c k.handle) k.index.toNat) k.data := by
  obtain ⟨t, hdone, hwritten⟩ := rowAccess_writes hrow k.data .none
  have hwrites : (writeBy (s.handle c k.handle)).reads = false := by unfold writeBy; split <;> rfl
  exact ⟨t, (serve_write u block hwrite hok).trans (serveRow_write block hwrites ((entryAccess_resident hback _ _).trans hdone)), hwritten⟩

theorem serve_write_blocked (htagged : hTagged (s.handle c k.handle) = true) (hfree : s.allHeld c = false)
    (htag : (s.trow c (handleRow (s.handle c k.handle) k.index.toNat)).tag = .full) : s.serve c k u block = block := by
  refine (serve_write u block hwrite hok).trans (serveRow_wait block ((entryAccess_resident hback _ _).trans (rowAccess_wait ?_)))
  rw [writeBy, htagged, rowTag_free hfree, htag]
  rfl

end

section
variable (hread : k.ptype = .read) (hok : handleOk (s.handle c k.handle) (some k.context) .remoteRead k.index.toNat = true)
  (hback : hBacking (s.handle c k.handle) = 0)
include hread hok hback

theorem serve_reads (haccess : k.access ≠ 2)
    (hrow : Readable s c (handleRow (s.handle c k.handle) k.index.toNat) (hTagged (s.handle c k.handle)) u) :
    let n := handleRow (s.handle c k.handle) k.index.toNat
    ∃ t : State, s.serve c k u block = t.dataTo k 0 8 (s.trow c n).data ∧
      RowRead s t c n (if hTagged (s.handle c k.handle) ∧ k.access ≠ 1 then .empty else (s.trow c n).tag) := by
  intro n
  obtain ⟨t, hdone, hdid⟩ := rowAccess_reads hrow (k.access == 1) k.data
  have hreads : (readBy (s.handle c k.handle) (k.access == 1)).reads = true := by unfold readBy; split <;> [split <;> rfl; rfl]
  have hserve : s.serve c k u block = s.serveRow c k (s.handle c k.handle) n (readBy (s.handle c k.handle) (k.access == 1)) u 0 block := by
    unfold State.serve
    simp [hread, hok, haccess, n]
  exact ⟨t, hserve.trans (serveRow_read block hreads ((entryAccess_resident hback _ _).trans hdone)), by simpa using hdid⟩

/-- A prefetch is answered with the row, and its requester watches the row where a watch is free (R56). -/
theorem serve_peeks {q : Nat} (haccess : k.access = 2) (hsrc : k.src = .cluster q) (hfree : s.allHeld c = false)
    (htag : (s.trow c (handleRow (s.handle c k.handle) k.index.toNat)).tag = .full)
    (hsyn : (s.trow c (handleRow (s.handle c k.handle) k.index.toNat)).syndrome ^^^ upsetOf u = 0) :
    let n := handleRow (s.handle c k.handle) k.index.toNat
    s.serve c k u block = if (s.cl c).ahead.watches.length < 64 then
        ((s.peeked c n u).modCl c (fun v => { v with ahead := { v.ahead with
          watches := v.ahead.watches ++ [{ requester := q, row := n, handle := k.handle }] } })).dataTo k 0 8 (s.trow c n).data
      else (s.peeked c n u).dataTo k 4 8 (s.trow c n).data := by
  intro n
  unfold State.serve
  simp only [hread, hok, haccess, hback, hsrc, quietPeek_full hfree htag, hsyn, reduceCtorEq, if_false, if_true, decide_true, Bool.and_self]
  rfl

end

end

section
variable {s : State} {c : Nat} {k : Packet} (u : Upset)

theorem noStore_removePkt (s : State) (p : Nat) : NoStore s (s.removePkt p) := ⟨rfl, rfl, rfl⟩

theorem noStore_holdRemote (s : State) (c : Nat) (k : Packet) : NoStore s (s.holdRemote c k) := by
  unfold State.holdRemote
  dsimp only
  split <;> exact ⟨rfl, rfl, rfl⟩

theorem holdRemote_held (hroom : (s.cl c).fab.remoteWait.length < 16) :
    ((s.holdRemote c k).cl c).fab.remoteWait = (s.cl c).fab.remoteWait ++ [{ pkt := k, since := s.now }] := by
  unfold State.holdRemote
  dsimp only
  rw [if_pos hroom, State.setCl_cl_same]

theorem holdRemote_busy (hfull : 16 ≤ (s.cl c).fab.remoteWait.length) : s.holdRemote c k = s.ackTo k 1 :=
  if_neg (Nat.not_lt.mpr hfull)

/-- The watch of k's requester on row n is spent. -/
def State.unwatch (s : State) (c : Nat) (k : Packet) (n : Nat) : State :=
  s.modCl c (fun v => { v with ahead := { v.ahead with
    watches := v.ahead.watches.filter (fun w => !(w.row == n && w.handle == k.handle && decide (Node.cluster w.requester = k.src))) } })

theorem consume_reads (hok : handleOk (s.handle c k.handle) (some k.context) .remoteRead k.index.toNat = true)
    (hback : hBacking (s.handle c k.handle) = 0)
    (hintact : watchIntact (s.cl c) k (handleRow (s.handle c k.handle) k.index.toNat) = true)
    (hrow : Readable s c (handleRow (s.handle c k.handle) k.index.toNat) (hTagged (s.handle c k.handle)) u) :
    let n := handleRow (s.handle c k.handle) k.index.toNat
    ∃ t : State, s.consume c k u = t.ackTo k 0 ∧ RowRead s t c n (if hTagged (s.handle c k.handle) then .empty else (s.trow c n).tag) := by
  intro n
  obtain ⟨t, hdone, hdid⟩ := rowAccess_reads (s := s.unwatch c k n) hrow false 0
  have hdone' : (s.unwatch c k n).entryAccess c (s.handle c k.handle) n (readBy (s.handle c k.handle) false) 0 u =
      .done (s.trow c n).data t := (entryAccess_resident hback _ _).trans hdone
  have hread : RowRead s t c n (if hTagged (s.handle c k.handle) = true ∧ false = false then .empty else (s.trow c n).tag) := hdid
  refine ⟨t, ?_, by simpa using hread⟩
  unfold State.consume
  rw [State.unwatch] at hdone'
  simp only [hok, hintact, if_true, n, hdone']

theorem consume_unwatched (hok : handleOk (s.handle c k.handle) (some k.context) .remoteRead k.index.toNat = true)
    (hintact : watchIntact (s.cl c) k (handleRow (s.handle c k.handle) k.index.toNat) = false) : s.consume c k u = s.ackTo k 4 := by
  unfold State.consume
  simp only [hok, hintact, if_true, Bool.false_eq_true, if_false]

end

section
variable {p c : Nat} {k : Packet} {s : State} (hdst : k.dst = .cluster c)
include hdst

section
variable (hheld : heldFlow (s.cl c) k = false)
include hheld

theorem exec_write_serve (h : Arrives s p .write k) :
    exec (.write p) s = .next ((s.removePkt p).serve c k .none ((s.removePkt p).holdRemote c k)) := by
  refine congrArg Host.Outcome.next ((exec_arrives h _).trans ?_)
  simp only [hdst]
  exact if_neg (ne_true_of_eq_false hheld)

theorem exec_read_serve (u : Upset) (h : Arrives s p .read k) :
    exec (.read p u) s = .next ((s.removePkt p).serve c k u ((s.removePkt p).holdRemote c k)) := by
  refine congrArg Host.Outcome.next ((exec_arrives h _).trans ?_)
  simp only [hdst]
  exact if_neg (ne_true_of_eq_false hheld)

end

theorem exec_consume_serve (u : Upset) (h : Arrives s p .consume k) : exec (.consume p u) s = .next ((s.removePkt p).consume c k u) := by
  refine congrArg Host.Outcome.next ((exec_arrives h _).trans ?_)
  simp only [hdst]

theorem exec_stale_breaks {o : Nat} (h : Arrives s p .stale k) (hsrc : k.src = .cluster o) :
    ∃ t : State, exec (.stale p) s = .next t ∧ { t with net := s.net, clusters := s.clusters } = s ∧
      (t.cl c).ahead.prefetch = (s.cl c).ahead.prefetch.map (fun f =>
        if f.owner = o ∧ f.handle = k.handle ∧ handleRow (s.handle o f.handle) f.index.toNat = k.index.toNat then { f with stale := true } else f) := by
  have hexec : exec (.stale p) s = _ := congrArg Host.Outcome.next (exec_arrives h _)
  simp only [hdst, hsrc] at hexec
  exact ⟨_, hexec, rfl, by rw [State.modCl_eq, State.setCl_cl_same]; rfl⟩

end

/-! ## MEM_RD and MEM_WR by address (R93, R226) -/

theorem replayRead_of_not_host {s : State} {k : Packet} (h : ∀ l off, placeOf k.index.toNat ≠ .host l off) : s.replayRead k = none := by
  unfold State.replayRead
  split
  next l off _ _ hplace => exact absurd hplace (h l off)
  next => rfl

/-- Address a lies in HBM or in tier 2. -/
def InMemory (a : Nat) : Prop := (∃ o, placeOf a = .hbm o) ∨ ∃ o, placeOf a = .tier2 o

theorem InMemory.not_host {a : Nat} (h : InMemory a) (l off : Nat) : placeOf a ≠ .host l off := by
  rcases h with ⟨o, h⟩ | ⟨o, h⟩ <;> simp [h]

theorem eccAt_clean (s : State) (a : Nat) : s.eccAt a .clean = s := by
  unfold State.eccAt
  cases placeOf a <;> rfl

section
variable {s : State} {k : Packet} (hplace : InMemory k.index.toNat)
include hplace

theorem memRead_memory : s.memRead k .clean none =
    if s.targetServes k.context k.partition k.index.toNat (64 * k.units) false then
      if s.readsPoison k.index.toNat (64 * k.units) then (s.poisonEvent k.index.toNat).ackTo k 3
      else s.dataTo k 0 k.units (BitVec.ofNat 4096 (s.readNat k.index.toNat (64 * k.units)))
    else s.ackTo k 7 := by
  unfold State.memRead
  rcases hplace with ⟨o, h⟩ | ⟨o, h⟩ <;> simp only [h, eccAt_clean]

theorem memWrite_memory : s.memWrite k =
    if s.targetServes k.context k.partition k.index.toNat (64 * k.units) true then
      (s.writeMem k.index.toNat (k.data.toNat % 256 ^ (64 * k.units)) (64 * k.units)).ackTo k 0
    else s.ackTo k 7 := by
  unfold State.memWrite
  rcases hplace with ⟨o, h⟩ | ⟨o, h⟩ <;> simp only [h]

end

section
variable {s : State} {k : Packet} {c off : Nat} {tagged : Bool} (hplace : placeOf k.index.toNat = .tarn c off) (haligned : off % 512 = 0)
  (hunits : k.units = 8) (hheld : heldFlow (s.cl c) k = false)
include hplace haligned hunits hheld

theorem memRead_tarn (hcover : s.coverOf c (off / 512) (some k.context) .remoteRead = some tagged)
    (hrow : Readable s c (off / 512) tagged .none) :
    ∃ t : State, s.memRead k .clean none = t.dataTo k 0 8 (s.trow c (off / 512)).data ∧
      RowRead s t c (off / 512) (if tagged ∧ k.access ≠ 1 then .empty else (s.trow c (off / 512)).tag) := by
  obtain ⟨t, hdone, hdid⟩ := rowAccess_reads hrow (k.access == 1) 0#4096
  refine ⟨t, ?_, by simpa using hdid⟩
  simp only [beq_iff_eq] at hdone
  unfold State.memRead
  simp [hplace, hcover, hheld, haligned, hunits, hdone]

theorem memWrite_tarn (hcover : s.coverOf c (off / 512) (some k.context) .remoteWrite = some tagged)
    (hrow : Writable s c (off / 512) tagged) :
    ∃ t : State, s.memWrite k = t.ackTo k 0 ∧ RowWritten s t c (off / 512) k.data := by
  obtain ⟨t, hdone, hdid⟩ := rowAccess_writes hrow k.data .none
  refine ⟨t, ?_, hdid⟩
  unfold State.memWrite
  simp [hplace, hcover, hheld, haligned, hunits, hdone]

end

section
variable {p : Nat} {k : Packet} {s : State}

theorem exec_memRd_serve (h : Arrives s p .memRd k) (hplace : ∀ l off, placeOf k.index.toNat ≠ .host l off) :
    exec (.memRd p .clean none) s = .next ((s.removePkt p).memRead k .clean none) := by
  refine congrArg Host.Outcome.next ((exec_arrives h _).trans ?_)
  rw [replayRead_of_not_host hplace]

theorem exec_memWr_serve (h : Arrives s p .memWr k) : exec (.memWr p) s = .next ((s.removePkt p).memWrite k) :=
  congrArg Host.Outcome.next (exec_arrives h _)

/-- Reads and writes by address of HBM and tier 2: served with the bytes, or refused with status 7. -/
theorem ownerServesMemory (hplace : InMemory k.index.toNat) :
    let a := k.index.toNat
    let n := 64 * k.units
    (Arrives s p .memRd k → s.targetServes k.context k.partition a n false = true → s.readsPoison a n = false →
      ∃ t : State, exec (.memRd p .clean none) s = .next t ∧ NoStore s t ∧ Answers t k .data 0 (BitVec.ofNat 4096 (s.readNat a n))) ∧
    (Arrives s p .memRd k → s.targetServes k.context k.partition a n false = false →
      ∃ t : State, exec (.memRd p .clean none) s = .next t ∧ NoStore s t ∧ Answers t k .ack 7 0) ∧
    (Arrives s p .memWr k → s.targetServes k.context k.partition a n true = true →
      ∃ t : State, exec (.memWr p) s = .next t ∧ t.tarn = s.tarn ∧ t.clusters = s.clusters ∧ Answers t k .ack 0 0 ∧
        ∀ b, t.byte b = if a ≤ b ∧ b < a + n then BitVec.ofNat 8 (k.data.toNat / 256 ^ (b - a)) else s.byte b) ∧
    (Arrives s p .memWr k → s.targetServes k.context k.partition a n true = false →
      ∃ t : State, exec (.memWr p) s = .next t ∧ NoStore s t ∧ Answers t k .ack 7 0) := by
  intro a n
  refine ⟨fun h hserves hclean => ?_, fun h hserves => ?_, fun h hserves => ?_, fun h hserves => ?_⟩
  · have hdata : (s.removePkt p).readNat a n = s.readNat a n := readNat_congr (s := s) (t := s.removePkt p) (fun _ => rfl) a n
    have hread : (s.removePkt p).memRead k .clean none = (s.removePkt p).dataTo k 0 k.units (BitVec.ofNat 4096 ((s.removePkt p).readNat a n)) :=
      (memRead_memory hplace).trans ((if_pos hserves).trans (if_neg (ne_true_of_eq_false hclean)))
    rw [hdata] at hread
    exact ⟨_, (exec_memRd_serve h hplace.not_host).trans (congrArg _ hread), noStore_removePkt s p, answers_dataTo _ k 0 _ _⟩
  · have hread : (s.removePkt p).memRead k .clean none = (s.removePkt p).ackTo k 7 :=
      (memRead_memory hplace).trans (if_neg (ne_true_of_eq_false hserves))
    exact ⟨_, (exec_memRd_serve h hplace.not_host).trans (congrArg _ hread), noStore_removePkt s p, answers_ackTo _ k 7⟩
  · have hwrite : (s.removePkt p).memWrite k = ((s.removePkt p).writeMem a (k.data.toNat % 256 ^ n) n).ackTo k 0 :=
      (memWrite_memory hplace).trans (if_pos hserves)
    refine ⟨_, (exec_memWr_serve h).trans (congrArg _ hwrite), State.writeMem_tarn _ a _ n, State.writeMem_clusters _ a _ n,
      answers_ackTo _ k 0, fun b => ?_⟩
    refine (writeMem_byte (s.removePkt p) a _ n b).trans ?_
    split
    next hb => exact ofNat_mod_div (by omega)
    next => rfl
  · have hwrite : (s.removePkt p).memWrite k = (s.removePkt p).ackTo k 7 :=
      (memWrite_memory hplace).trans (if_neg (ne_true_of_eq_false hserves))
    exact ⟨_, (exec_memWr_serve h).trans (congrArg _ hwrite), noStore_removePkt s p, answers_ackTo _ k 7⟩

end

section
variable {p c : Nat} {k : Packet} {s : State} (hdst : k.dst = .cluster c)
include hdst

section
variable (hheld : heldFlow (s.cl c) k = false)
include hheld

/-- A WRITE at its owner: performed, held or answered busy where the row's tag blocks it, or refused (R85, R92, R215). -/
theorem ownerServesWrite (h : Arrives s p .write k) :
    let e := s.handle c k.handle
    let n := handleRow e k.index.toNat
    (handleOk e (some k.context) .remoteWrite k.index.toNat = true → hBacking e = 0 → Writable s c n (hTagged e) →
      ∃ t : State, exec (.write p) s = .next t ∧ OnlyRow s t c n ∧ Answers t k .ack 0 0 ∧
        t.trow c n = { s.trow c n with data := k.data, tag := .full, syndrome := 0 }) ∧
    (handleOk e (some k.context) .remoteWrite k.index.toNat = true → hBacking e = 0 → hTagged e = true → s.allHeld c = false →
      (s.trow c n).tag = .full →
      ∃ t : State, exec (.write p) s = .next t ∧ NoStore s t ∧
        ((s.cl c).fab.remoteWait.length < 16 → (t.cl c).fab.remoteWait = (s.cl c).fab.remoteWait ++ [{ pkt := k, since := s.now }]) ∧
        (16 ≤ (s.cl c).fab.remoteWait.length → Answers t k .ack 1 0)) ∧
    (handleOk e (some k.context) .remoteWrite k.index.toNat = false →
      ∃ t : State, exec (.write p) s = .next t ∧ NoStore s t ∧ Answers t k .ack 2 0) := by
  intro e n
  have hexec := exec_write_serve hdst hheld h
  have htype : k.ptype = .write := h.2.1
  refine ⟨fun hok hback hrow => ?_, fun hok hback htagged hfree htag => ?_, fun hok => ?_⟩
  · obtain ⟨t, hserve, honly, hrow⟩ := serve_writes (s := s.removePkt p) .none ((s.removePkt p).holdRemote c k) htype hok hback hrow
    exact ⟨_, hexec.trans (congrArg _ hserve), honly, answers_ackTo t k 0, hrow⟩
  · have hserve := serve_write_blocked (s := s.removePkt p) .none ((s.removePkt p).holdRemote c k) htype hok hback htagged hfree htag
    refine ⟨_, hexec.trans (congrArg _ hserve), noStore_holdRemote (s.removePkt p) c k, holdRemote_held (s := s.removePkt p), fun hfull => ?_⟩
    rw [holdRemote_busy (s := s.removePkt p) hfull]
    exact answers_ackTo _ k 1
  · have hserve := serve_refused (s := s.removePkt p) .none ((s.removePkt p).holdRemote c k) (by rw [htype]; exact hok)
    exact ⟨_, hexec.trans (congrArg _ hserve), noStore_removePkt s p, answers_ackTo _ k 2⟩

/-- A READ at its owner whose handle lets it through: the row is answered; a prefetch also sets a watch (R56, R220). -/
theorem ownerServesRead (u : Upset) (h : Arrives s p .read k)
    (hok : handleOk (s.handle c k.handle) (some k.context) .remoteRead k.index.toNat = true) (hback : hBacking (s.handle c k.handle) = 0) :
    let e := s.handle c k.handle
    let n := handleRow e k.index.toNat
    let row := s.trow c n
    (k.access ≠ 2 → Readable s c n (hTagged e) u →
      ∃ t : State, exec (.read p u) s = .next t ∧ OnlyRow s t c n ∧ Answers t k .data 0 row.data ∧
        t.trow c n = { row with syndrome := 0, tag := if hTagged e ∧ k.access ≠ 1 then .empty else row.tag }) ∧
    (k.access = 2 → Readable s c n true u → ∀ q, k.src = .cluster q →
      ∃ t : State, exec (.read p u) s = .next t ∧ OnlyRow s t c n ∧ t.trow c n = { row with syndrome := 0 } ∧
        ((s.cl c).ahead.watches.length < 64 → Answers t k .data 0 row.data ∧
          (t.cl c).ahead.watches = (s.cl c).ahead.watches ++ [{ requester := q, row := n, handle := k.handle }]) ∧
        (64 ≤ (s.cl c).ahead.watches.length → Answers t k .data 4 row.data)) := by
  intro e n row
  have hexec := exec_read_serve hdst hheld u h
  have htype : k.ptype = .read := h.2.1
  refine ⟨fun haccess hrow => ?_, fun haccess hrow q hsrc => ?_⟩
  · obtain ⟨t, hserve, honly, hrow⟩ := serve_reads (s := s.removePkt p) u ((s.removePkt p).holdRemote c k) htype hok hback haccess hrow
    exact ⟨_, hexec.trans (congrArg _ hserve), honly, answers_dataTo t k 0 8 _, hrow⟩
  · obtain ⟨hfree, htag, hsyn⟩ := hrow
    have htag : row.tag = .full := htag.resolve_right (by simp)
    have hserve := serve_peeks (s := s.removePkt p) u ((s.removePkt p).holdRemote c k) htype hok hback haccess hsrc hfree htag hsyn
    by_cases hroom : (s.cl c).ahead.watches.length < 64
    · have hserve := hserve.trans (if_pos hroom)
      refine ⟨_, hexec.trans (congrArg _ hserve), onlyRow_setTrow s c n _, peeked_row hsyn, fun _ => ⟨answers_dataTo _ k 0 8 _, ?_⟩,
        fun hfull => absurd hroom (Nat.not_lt.mpr hfull)⟩
      exact congrArg (·.ahead.watches) (State.setCl_cl_same _ _ _)
    · have hserve := hserve.trans (if_neg hroom)
      exact ⟨_, hexec.trans (congrArg _ hserve), onlyRow_setTrow s c n _, peeked_row hsyn, fun hroom' => absurd hroom' hroom,
        fun _ => answers_dataTo _ k 4 8 _⟩

theorem ownerRefusesRead (u : Upset) (h : Arrives s p .read k)
    (hok : handleOk (s.handle c k.handle) (some k.context) .remoteRead k.index.toNat = false) :
    ∃ t : State, exec (.read p u) s = .next t ∧ NoStore s t ∧ Answers t k .ack 2 0 := by
  have htype : k.ptype = .read := h.2.1
  have hserve := serve_refused (s := s.removePkt p) u ((s.removePkt p).holdRemote c k) (by rw [htype]; exact hok)
  exact ⟨_, (exec_read_serve hdst hheld u h).trans (congrArg _ hserve), noStore_removePkt s p, answers_ackTo _ k 2⟩

end

/-- A CONSUME at its owner: the read's tag transition takes place only while the watch is intact (R57). -/
theorem ownerServesConsume (u : Upset) (h : Arrives s p .consume k)
    (hok : handleOk (s.handle c k.handle) (some k.context) .remoteRead k.index.toNat = true) :
    let e := s.handle c k.handle
    let n := handleRow e k.index.toNat
    (watchIntact (s.cl c) k n = true → hBacking e = 0 → Readable s c n (hTagged e) u →
      ∃ t : State, exec (.consume p u) s = .next t ∧ OnlyRow s t c n ∧ Answers t k .ack 0 0 ∧
        t.trow c n = { s.trow c n with syndrome := 0, tag := if hTagged e then .empty else (s.trow c n).tag }) ∧
    (watchIntact (s.cl c) k n = false → ∃ t : State, exec (.consume p u) s = .next t ∧ NoStore s t ∧ Answers t k .ack 4 0) := by
  intro e n
  have hexec := exec_consume_serve hdst u h
  refine ⟨fun hintact hback hrow => ?_, fun hintact => ?_⟩
  · obtain ⟨t, hserve, honly, hrow⟩ := consume_reads (s := s.removePkt p) u hok hback hintact hrow
    exact ⟨_, hexec.trans (congrArg _ hserve), honly, answers_ackTo t k 0, hrow⟩
  · exact ⟨_, hexec.trans (congrArg _ (consume_unwatched (s := s.removePkt p) u hok hintact)), noStore_removePkt s p, answers_ackTo _ k 4⟩

end

/-- A whole row of tarn read or written by address (R93). -/
theorem ownerServesTarn {p c off : Nat} {k : Packet} {s : State} {tagged : Bool} (hplace : placeOf k.index.toNat = .tarn c off)
    (haligned : off % 512 = 0) (hunits : k.units = 8) (hheld : heldFlow (s.cl c) k = false) :
    let row := s.trow c (off / 512)
    (Arrives s p .memRd k → s.coverOf c (off / 512) (some k.context) .remoteRead = some tagged → Readable s c (off / 512) tagged .none →
      ∃ t : State, exec (.memRd p .clean none) s = .next t ∧ OnlyRow s t c (off / 512) ∧ Answers t k .data 0 row.data ∧
        t.trow c (off / 512) = { row with syndrome := 0, tag := if tagged ∧ k.access ≠ 1 then .empty else row.tag }) ∧
    (Arrives s p .memWr k → s.coverOf c (off / 512) (some k.context) .remoteWrite = some tagged → Writable s c (off / 512) tagged →
      ∃ t : State, exec (.memWr p) s = .next t ∧ OnlyRow s t c (off / 512) ∧ Answers t k .ack 0 0 ∧
        t.trow c (off / 512) = { row with data := k.data, tag := .full, syndrome := 0 }) := by
  intro row
  refine ⟨fun h hcover hrow => ?_, fun h hcover hrow => ?_⟩
  · obtain ⟨t, hserve, honly, hrow⟩ := memRead_tarn (s := s.removePkt p) hplace haligned hunits hheld hcover hrow
    exact ⟨_, (exec_memRd_serve h (by simp [hplace])).trans (congrArg _ hserve), honly, answers_dataTo t k 0 8 _, hrow⟩
  · obtain ⟨t, hserve, honly, hrow⟩ := memWrite_tarn (s := s.removePkt p) hplace haligned hunits hheld hcover hrow
    exact ⟨_, (exec_memWr_serve h).trans (congrArg _ hserve), honly, answers_ackTo t k 0, hrow⟩

/-- Settles O16: the owner's answer to each request, then the target's to an access by address. -/
theorem ownerServesRequests : Obligations.OwnerServesRequests := by
  unfold Obligations.OwnerServesRequests
  refine ⟨fun p c k u s hdst hheld => ⟨ownerServesWrite hdst hheld, ownerServesRead hdst hheld u, ownerRefusesRead hdst hheld u,
      ownerServesConsume hdst u, fun o => exec_stale_breaks hdst⟩,
    fun p k s => ⟨ownerServesMemory, fun c off tagged => ownerServesTarn⟩⟩

end Sys2Proof.Machine

namespace Sys2Proof.Machine
open Sys2Proof

/-! ## A launch is accepted (R397, R428, R429) -/

section
variable {q k : Nat} {s : State}

theorem exec_stepLaunch_idle (h : s.startedDesc q k 1 = none) : exec (.stepLaunch q k) s = .next s := by
  change execStepLaunch q k s = _
  unfold execStepLaunch
  rw [h]

theorem begin_openReq (s : State) (q k : Nat) : ((s.begin q k).qp q).openReq = (s.qp q).openReq := by
  unfold State.begin State.modProg
  rw [State.modQp_eq, State.setQp_qp_same]

/-- The weight epoch that a launch of queue pair q runs under. -/
def State.launchEpoch (s : State) (q : Nat) (d : Desc) : Nat := if dFence d then (s.ctx (s.qp q).ctx).epoch else (s.qp q).epoch

/-- Launch d of queue pair q waits for the arbiter. -/
def State.launchTaken (s : State) (q k : Nat) (d : Desc) : State :=
  ((s.begin q k).modQp q (fun v => { v with epoch := s.launchEpoch q d, openReq := v.openReq || dFence d })).modPart (s.ctx (s.qp q).ctx).part
    (fun v => { v with launches := v.launches ++ [{ q := q, k := k, ctx := (s.qp q).ctx, desc := d, epoch := s.launchEpoch q d }] })

theorem begin_part (s : State) (q k p : Nat) : (s.begin q k).part p = s.part p := by
  unfold State.begin State.modProg
  rw [State.modQp_eq, State.setQp_part]

theorem modQp_modPart_keeps (s : State) (q p : Nat) (f : Qp → Qp) (g : Part → Part) (w : Tbl Qp) (v : Tbl Part) :
    { (s.modQp q f).modPart p g with qps := w, parts := v } = { s with qps := w, parts := v } := rfl

theorem begin_keeps (s : State) (q k : Nat) : { s.begin q k with qps := s.qps } = s := rfl

theorem launchTaken_keeps (d : Desc) : { s.launchTaken q k d with qps := s.qps, parts := s.parts } = s :=
  (modQp_modPart_keeps (s.begin q k) q _ _ _ s.qps s.parts).trans (congrArg (fun t : State => { t with parts := s.parts }) (begin_keeps s q k))

theorem launchTaken_launches (d : Desc) : ((s.launchTaken q k d).part (s.ctx (s.qp q).ctx).part).launches =
    (s.part (s.ctx (s.qp q).ctx).part).launches ++ [{ q := q, k := k, ctx := (s.qp q).ctx, desc := d, epoch := s.launchEpoch q d }] := by
  unfold State.launchTaken
  rw [State.modPart_eq, State.setPart_part_same, State.modQp_eq, State.setQp_part, begin_part]

theorem launchTaken_qp (d : Desc) : ((s.launchTaken q k d).qp q).epoch = s.launchEpoch q d ∧
    ((s.launchTaken q k d).qp q).openReq = ((s.qp q).openReq || dFence d) := by
  unfold State.launchTaken
  rw [State.modPart_eq, State.setPart_qp, State.modQp_eq, State.setQp_qp_same]
  exact ⟨rfl, by rw [begin_openReq]⟩

section
variable {d : Desc} (hstarted : s.startedDesc q k 1 = some d)
include hstarted

theorem exec_stepLaunch (hok : s.launchOk (s.qp q).ctx (s.launchEpoch q d) d = true) :
    exec (.stepLaunch q k) s = .next (s.launchTaken q k d) := by
  change execStepLaunch q k s = _
  unfold execStepLaunch
  rw [hstarted]
  exact if_pos hok

theorem exec_stepLaunch_rejected (hok : s.launchOk (s.qp q).ctx (s.launchEpoch q d) d = false) :
    exec (.stepLaunch q k) s = .next (s.rejectDesc q k 0x0813 0) := by
  change execStepLaunch q k s = _
  unfold execStepLaunch
  rw [hstarted]
  exact if_neg (ne_true_of_eq_false hok)

end

end

/-! ## A step is released (R48, R303, R304) -/

/-- Stores, partitions and the timebase are as they were. -/
def KeepsPanel (s t : State) : Prop := NoStore s t ∧ t.parts = s.parts ∧ t.tb = s.tb

/-- Nothing of the stores, the partitions, the timebase and the clusters' states has changed: no more than handles and contexts have. -/
def PlacesHandles (s t : State) : Prop := KeepsPanel s t ∧ ∀ c, (t.cl c).st = (s.cl c).st

theorem KeepsPanel.refl (s : State) : KeepsPanel s s := ⟨⟨rfl, rfl, rfl⟩, rfl, rfl⟩

theorem KeepsPanel.trans {s t u : State} (hst : KeepsPanel s t) (htu : KeepsPanel t u) : KeepsPanel s u := by
  obtain ⟨⟨htarn, hmem, hpoison⟩, hparts, htb⟩ := hst
  obtain ⟨⟨htarn', hmem', hpoison'⟩, hparts', htb'⟩ := htu
  exact ⟨⟨htarn'.trans htarn, hmem'.trans hmem, hpoison'.trans hpoison⟩, hparts'.trans hparts, htb'.trans htb⟩

theorem KeepsPanel.foldl {α : Type} {g : State → α → State} (hg : ∀ t a, KeepsPanel t (g t a)) (l : List α) (s : State) : KeepsPanel s (l.foldl g s) := by
  induction l generalizing s with
  | nil => exact .refl s
  | cons a l ih => exact (hg s a).trans (ih _)

theorem keepsPanel_modCl (s : State) (c : Nat) (f : Cluster → Cluster) : KeepsPanel s (s.modCl c f) := .refl s

theorem KeepsPanel.part {s t : State} (h : KeepsPanel s t) (p : Nat) : t.part p = s.part p := congrArg (fun m => Tbl.get (fun _ => ({} : Part)) m p) h.2.1

theorem KeepsPanel.now {s t : State} (h : KeepsPanel s t) : t.now = s.now := congrArg Timebase.now h.2.2

theorem PlacesHandles.refl (s : State) : PlacesHandles s s := ⟨.refl s, fun _ => rfl⟩

theorem PlacesHandles.trans {s t u : State} (hst : PlacesHandles s t) (htu : PlacesHandles t u) : PlacesHandles s u :=
  ⟨hst.1.trans htu.1, fun c => (htu.2 c).trans (hst.2 c)⟩

theorem PlacesHandles.foldl {α : Type} {g : State → α → State} (hg : ∀ t a, PlacesHandles t (g t a)) (l : List α) (s : State) :
    PlacesHandles s (l.foldl g s) := by
  induction l generalizing s with
  | nil => exact .refl s
  | cons a l ih => exact (hg s a).trans (ih _)

theorem placesHandles_placeHandle (s : State) (c h : Nat) (e : HandleEntry) : PlacesHandles s (s.placeHandle c h e) := by
  unfold State.placeHandle
  dsimp only
  split
  · exact .refl s
  · refine ⟨keepsPanel_modCl s c _, fun d => ?_⟩
    rw [State.writeHandle, State.modCl_eq, State.setCl_cl]
    split
    next hd => rw [hd]
    next => rfl

theorem placesHandles_modCtx (s : State) (x : Nat) (f : Ctx → Ctx) : PlacesHandles s (s.modCtx x f) := .refl s

theorem placesHandles_placeImage (s : State) (x n : Nat) : PlacesHandles s (s.placeImage x n) := by
  unfold State.placeImage
  dsimp only
  have hplace (e : Nat × Nat × HandleEntry → HandleEntry) (l : List (Nat × Nat × HandleEntry)) (t : State) :
      PlacesHandles t (l.foldl (fun t o => t.placeHandle o.1 o.2.1 (e o)) t) := .foldl (fun t o => placesHandles_placeHandle t o.1 o.2.1 (e o)) l t
  exact ((hplace (fun _ => 0) _ s).trans (hplace (fun o => o.2.2) _ _)).trans (placesHandles_modCtx _ _ _)

/-- The state a step's clusters start from: the image handles of its slot are in place. -/
def State.imagePlaced (s : State) (st : RunStep) : State :=
  match s.slotOfEpoch st.ctx st.epoch with
  | some n => s.placeImage st.ctx n
  | none => s

theorem placesHandles_imagePlaced (s : State) (st : RunStep) : PlacesHandles s (s.imagePlaced st) := by
  unfold State.imagePlaced
  split
  · exact placesHandles_placeImage s _ _
  · exact .refl s

theorem runStep_eq (s : State) (p : Nat) (st : RunStep) : s.runStep p st =
    ((s.imagePlaced st).startClusters st.desc (s.launchCode st.ctx st.epoch st.desc) st.clusters).modPart p (fun v => { v with running := some st }) := rfl

theorem foldl_modCl_unlisted {f : State → Nat × Nat → Cluster → Cluster} {c : Nat} (l : List (Nat × Nat)) (s : State) (hc : c ∉ l.map Prod.fst) :
    (l.foldl (fun s e => s.modCl e.1 (f s e)) s).cl c = s.cl c := by
  induction l generalizing s with
  | nil => rfl
  | cons e l ih =>
    rw [List.map_cons, List.mem_cons, not_or] at hc
    obtain ⟨he, hl⟩ := hc
    rw [List.foldl_cons, ih _ hl, State.modCl_eq, State.setCl_cl_ne _ _ _ _ he]

/-- Each cluster of a list without repetitions starts once, under its rank and at one tick. -/
theorem startClusters_cl (d : Desc) (code : CodeSrc × Nat) {cs : List Nat} (hnodup : cs.Nodup) (s : State) {rank c : Nat} (hc : cs[rank]? = some c) :
    (s.startClusters d code cs).cl c = launchCluster d code s.now c rank cs.length (s.cl c) := by
  have hstart (n : Nat) : ∀ (l : List Nat) (k rank : Nat) (s : State), l.Nodup → l[rank]? = some c →
      ((l.zipIdx k).foldl (fun (s : State) e => s.modCl e.1 (launchCluster d code s.now e.1 e.2 n)) s).cl c =
        launchCluster d code s.now c (k + rank) n (s.cl c) := by
    intro l
    induction l with
    | nil => exact fun k rank s _ h => absurd h (by simp)
    | cons a l ih =>
      intro k rank s hnodup hc
      obtain ⟨ha, hl⟩ := List.nodup_cons.mp hnodup
      cases rank with
      | zero =>
        obtain rfl : a = c := by simpa using hc
        refine (foldl_modCl_unlisted (l.zipIdx (k + 1)) _ (by simpa using ha)).trans ?_
        exact State.setCl_cl_same _ _ _
      | succ rank =>
        have hc : l[rank]? = some c := by simpa using hc
        have hne : c ≠ a := fun h => ha (h ▸ List.mem_of_getElem? hc)
        refine (ih (k + 1) rank (s.modCl a (launchCluster d code s.now a k n)) hl hc).trans ?_
        rw [State.modCl_eq, State.setCl_cl_ne _ _ _ _ hne, Nat.add_assoc, Nat.add_comm 1 rank]
        rfl
  have h := hstart cs.length cs 0 rank s hnodup hc
  rwa [Nat.zero_add] at h

theorem keepsPanel_startClusters (d : Desc) (code : CodeSrc × Nat) (cs : List Nat) (s : State) : KeepsPanel s (s.startClusters d code cs) :=
  .foldl (g := fun (t : State) (e : Nat × Nat) => t.modCl e.1 (launchCluster d code t.now e.1 e.2 cs.length)) (fun t e => keepsPanel_modCl t e.1 _) _ s

/-- What a table lists for a key, the zeros left out, is what it lists with them. -/
theorem Tbl.get_filter_ne_zero {n : Nat} : ∀ (l : Tbl (BitVec n)) (k : Nat), (l.map Prod.fst).Nodup →
    Tbl.get (fun _ => 0) (l.filter (fun e => decide (e.2 ≠ 0))) k = Tbl.get (fun _ => 0) l k
  | [], _, _ => rfl
  | (j, w) :: l, k, h => by
    obtain ⟨hj, hl⟩ := List.nodup_cons.mp h
    have ih := Tbl.get_filter_ne_zero l k hl
    by_cases hw : w = 0
    · rw [List.filter_cons_of_neg (by simpa using hw), ih, Tbl.get]
      split
      next hk =>
        rw [hw, hk]
        exact Tbl.get_unlisted _ l j (fun e he hej => hj (List.mem_map.mpr ⟨e, he, hej⟩))
      next => rfl
    · rw [List.filter_cons_of_pos (by simpa using hw), Tbl.get, Tbl.get, ih]

/-- The registers of Table 2.3: the cluster, its rank, the size of the set, the arguments and the tick; all others are 0. -/
theorem launchRegs_sreg (c rank n tick : Nat) (d : Desc) (j : Nat) : (launchRegs c rank n tick d).sreg j =
    if j = 0 then 0 else Tbl.get (fun _ => 0) [(1, BitVec.ofNat 64 c), (2, BitVec.ofNat 64 rank), (3, BitVec.ofNat 64 n), (4, dArg d 0), (5, dArg d 1),
      (6, dArg d 2), (7, dArg d 3), (8, BitVec.ofNat 64 tick)] j := by
  unfold launchRegs Regs.sreg
  dsimp only
  split
  · rfl
  · exact Tbl.get_filter_ne_zero _ j (by simp only [List.map_cons, List.map_nil]; decide)

/-- Cluster v as a step of n clusters starts on it, under rank and at tick (R48). -/
def Started (v : Cluster) (halted : Prop) [Decidable halted] (c rank n tick : Nat) (d : Desc) : Prop :=
  let arg := fun (j : Nat) => dArg d j
  v.regs.pc = 0 ∧ v.regs.p = 1 ∧ v.regs.loops = [] ∧ v.hold = none ∧ v.eng = {} ∧ v.ahead = {} ∧ v.fab.ops = [] ∧
  (v.st = if halted then .halted else .running) ∧
  v.regs.sreg 1 = BitVec.ofNat 64 c ∧ v.regs.sreg 2 = BitVec.ofNat 64 rank ∧ v.regs.sreg 3 = BitVec.ofNat 64 n ∧
  v.regs.sreg 4 = arg 0 ∧ v.regs.sreg 5 = arg 1 ∧ v.regs.sreg 6 = arg 2 ∧ v.regs.sreg 7 = arg 3 ∧
  v.regs.sreg 8 = BitVec.ofNat 64 tick ∧ ∀ j, 8 < j → v.regs.sreg j = 0

theorem launchCluster_started (d : Desc) (code : CodeSrc × Nat) (tick c rank n : Nat) (v : Cluster) :
    Started (launchCluster d code tick c rank n v) (v.st = .halted) c rank n tick d := by
  refine ⟨rfl, rfl, rfl, rfl, rfl, rfl, rfl, rfl, launchRegs_sreg c rank n tick d 1, launchRegs_sreg c rank n tick d 2, launchRegs_sreg c rank n tick d 3,
    launchRegs_sreg c rank n tick d 4, launchRegs_sreg c rank n tick d 5, launchRegs_sreg c rank n tick d 6, launchRegs_sreg c rank n tick d 7,
    launchRegs_sreg c rank n tick d 8, fun j hj => ?_⟩
  refine (launchRegs_sreg c rank n tick d j).trans ((if_neg (by omega)).trans (Tbl.get_unlisted _ _ _ ?_))
  simp only [List.forall_mem_cons, List.not_mem_nil, false_implies, implies_true, and_true]
  omega

theorem runStep_starts (s : State) (p : Nat) (st : RunStep) :
    NoStore s (s.runStep p st) ∧ (((s.runStep p st).part p).running = some st ∧ ((s.runStep p st).part p).stepSeq = (s.part p).stepSeq ∧
      ((s.runStep p st).part p).lastQ = (s.part p).lastQ) ∧
    (st.clusters.Nodup → ∀ rank c, st.clusters[rank]? = some c →
      Started ((s.runStep p st).cl c) ((s.cl c).st = .halted) c rank st.clusters.length s.now st.desc) := by
  obtain ⟨himage, hst⟩ := placesHandles_imagePlaced s st
  have hkeep := himage.trans (keepsPanel_startClusters st.desc (s.launchCode st.ctx st.epoch st.desc) st.clusters (s.imagePlaced st))
  rw [runStep_eq]
  refine ⟨hkeep.1, ?_, fun hnodup rank c hc => ?_⟩
  · rw [State.modPart_eq, State.setPart_part_same, hkeep.part]
    exact ⟨rfl, rfl, rfl⟩
  · have hstart := launchCluster_started st.desc (s.launchCode st.ctx st.epoch st.desc) (s.imagePlaced st).now c rank st.clusters.length
      ((s.imagePlaced st).cl c)
    rw [State.modPart_eq, State.setPart_cl, startClusters_cl _ _ hnodup _ hc]
    simp only [hst, himage.now] at hstart ⊢
    exact hstart

/-- Launch l waits no more. -/
def State.launchOut (s : State) (p : Nat) (l : Launch) : State :=
  s.modPart p (fun v => { v with launches := v.launches.filter (fun o => !(o.q == l.q && o.k == l.k)) })

theorem launchOut_stepSeq (s : State) (p : Nat) (l : Launch) : ((s.launchOut p l).part p).stepSeq = (s.part p).stepSeq := by
  rw [State.launchOut, State.modPart_eq, State.setPart_part_same]

/-- The step that a launch releases on the clusters cs. -/
def Launch.step (l : Launch) (seq : Nat) (cs : List Nat) : RunStep :=
  { ctx := l.ctx, q := l.q, k := l.k, desc := l.desc, seq := seq, still := dStill l.desc, epoch := l.epoch, clusters := cs }

/-- The LAUNCH record is written, and the next step of partition p will have the next number. -/
def State.launchRecorded (s : State) (p : Nat) (l : Launch) : State :=
  (s.record p l.ctx 1 (.launch l.desc (dStill l.desc) (s.ctx l.ctx).layout l.epoch l.q)).modPart p
    (fun v => { v with stepSeq := (s.part p).stepSeq + 1, lastQ := some l.q })

theorem launchRecorded_keeps (s : State) (p : Nat) (l : Launch) :
    (s.launchRecorded p l).tarn = s.tarn ∧ (s.launchRecorded p l).mem = s.mem ∧ (s.launchRecorded p l).clusters = s.clusters ∧
      (s.launchRecorded p l).now = s.now := by
  unfold State.launchRecorded
  simp

theorem launchRecorded_part (s : State) (p : Nat) (l : Launch) : ((s.launchRecorded p l).part p).stepSeq = (s.part p).stepSeq + 1 ∧
    ((s.launchRecorded p l).part p).lastQ = some l.q := by
  unfold State.launchRecorded
  rw [State.modPart_eq, State.setPart_part_same]
  exact ⟨rfl, rfl⟩

section
variable {p : Nat} {s : State} {l : Launch}

theorem release_starts (hok : (s.launchOut p l).launchOk l.ctx l.epoch l.desc = true) (hplaced : (s.launchOut p l).launchPlaced l.ctx l.epoch l.desc = true)
    (hfits : (s.launchOut p l).recordFits p 1 = true) : s.release p l = ((s.launchOut p l).launchRecorded p l).runStep p
      (l.step ((s.launchOut p l).part p).stepSeq ((s.launchOut p l).launchClusters l.ctx l.epoch l.desc)) := by
  have hboth : ((s.launchOut p l).launchOk l.ctx l.epoch l.desc && (s.launchOut p l).launchPlaced l.ctx l.epoch l.desc) = true := by
    rw [hok, hplaced]
    rfl
  exact (if_pos hboth).trans (if_pos hfits)

/-- The released step runs, its clusters started with the registers of Table 2.3 (R48, R303). -/
theorem release_runs (hok : (s.launchOut p l).launchOk l.ctx l.epoch l.desc = true) (hplaced : (s.launchOut p l).launchPlaced l.ctx l.epoch l.desc = true)
    (hfits : (s.launchOut p l).recordFits p 1 = true) {cs : List Nat} (hcs : (s.launchOut p l).launchClusters l.ctx l.epoch l.desc = cs) :
    (s.release p l).tarn = s.tarn ∧ (s.release p l).mem = s.mem ∧
      ((s.release p l).part p).running = some (l.step (s.part p).stepSeq cs) ∧ ((s.release p l).part p).stepSeq = (s.part p).stepSeq + 1 ∧
      ((s.release p l).part p).lastQ = some l.q ∧
      (cs.Nodup → ∀ rank c, cs[rank]? = some c → Started ((s.release p l).cl c) ((s.cl c).st = .halted) c rank cs.length s.now l.desc) := by
  rw [release_starts hok hplaced hfits, hcs]
  obtain ⟨htarn, hmem, hcl, hnow⟩ := launchRecorded_keeps (s.launchOut p l) p l
  obtain ⟨hnext, hlast⟩ := launchRecorded_part (s.launchOut p l) p l
  obtain ⟨⟨htarn', hmem', -⟩, ⟨hrun, hseq, hq⟩, hstart⟩ := runStep_starts ((s.launchOut p l).launchRecorded p l) p (l.step ((s.launchOut p l).part p).stepSeq cs)
  rw [launchOut_stepSeq] at hrun hnext hseq hq hstart htarn' hmem' ⊢
  refine ⟨htarn'.trans htarn, hmem'.trans hmem, hrun, hseq.trans hnext, hq.trans hlast, fun hnodup rank c hc => ?_⟩
  · have hbase : ((s.launchOut p l).launchRecorded p l).cl c = s.cl c := congrArg (fun m => Tbl.get (fun _ => ({} : Cluster)) m c) hcl
    have h := hstart hnodup rank c hc
    rw [hbase, hnow] at h
    exact h

section
variable (hrun : (s.part p).running = none) (hrec : (s.part p).recovery = none)
include hrun hrec

theorem exec_stepRelease_waits (h : (s.boundaryWork p).mayRelease p = false ∨ (s.boundaryWork p).calibrated p = false) :
    exec (.stepRelease p) s = .next (s.boundaryWork p) := by
  change execStepRelease p s = _
  unfold execStepRelease
  rw [hrun, hrec]
  simp only [Option.isSome_none, Bool.false_eq_true, if_false]
  rcases h with h | h <;> simp [h]

theorem exec_stepRelease {x : Nat} (hmay : (s.boundaryWork p).mayRelease p = true) (hcal : (s.boundaryWork p).calibrated p = true)
    (hres : ((s.boundaryWork p).part p).resident = some x) (hlaunch : ((s.boundaryWork p).part p).nextLaunch x = some l) :
    exec (.stepRelease p) s = .next ((s.boundaryWork p).release p l) := by
  change execStepRelease p s = _
  unfold execStepRelease
  rw [hrun, hrec]
  simp only [hmay, hcal, hres, hlaunch, Option.isSome_none, Bool.false_eq_true, if_false, Bool.and_self, if_true, Option.bind_some]

end

end

end Sys2Proof.Machine

namespace Sys2Proof.Machine
open Sys2Proof

/-! ## A completion is sent (R391) -/

theorem KeepsOut.ite {s t u : State} {p : Prop} [Decidable p] (ht : KeepsOut s t) (hu : KeepsOut s u) : KeepsOut s (if p then t else u) := by
  split
  · exact ht
  · exact hu

theorem keepsOut_modPart (s : State) (p : Nat) (f : Part → Part) : KeepsOut s (s.modPart p f) := keepsOut_of_out rfl

theorem keepsOut_record (s : State) (p x units : Nat) (body : JRec) : KeepsOut s (s.record p x units body) := by
  have hring (v : Part) : KeepsOut s (s.setPart p v) := keepsOut_of_out rfl
  unfold State.record
  dsimp only
  exact .ite ((keepsOut_note s _ _).trans (keepsOut_modPart _ _ _))
    (.ite (((hring _).trans (keepsOut_modPart _ _ _)).trans (keepsOut_note _ _ _)) (hring _))

theorem keepsOut_preImage (s : State) (g : Nat) : KeepsOut s (s.preImage g) := by
  have hctx (t : State) (x : Nat) (f : Ctx → Ctx) : KeepsOut t (t.modCtx x f) := keepsOut_of_out rfl
  unfold State.preImage
  dsimp only
  split
  · split
    · exact (keepsOut_record s _ _ _ _).trans (hctx _ _ _)
    · exact .refl s
  · split
    · exact (keepsOut_record s _ _ _ _).trans (hctx _ _ _)
    · exact .refl s
  · exact .refl s

/-- Bytes written and sectors healed are not sent. -/
theorem keepsOut_store (s : State) (a v n m : Nat) : KeepsOut s ((s.writeNat a v n).healSectors a m) :=
  keepsOut_of_out (by rw [State.healSectors_out, State.writeNat_out])

theorem keepsOut_evictLine (s : State) (l : Nat) : KeepsOut s (s.evictLine l) := by
  have hdir (v : DirLine) : KeepsOut s (s.setDir l v) := keepsOut_of_out rfl
  obtain ⟨n, -, heq⟩ := evictLine_eq s l
  rw [heq]
  split
  · exact ((hdir _).trans (keepsOut_preImage _ _)).trans (keepsOut_store _ _ _ _ _)
  · exact hdir _

theorem keepsOut_writeMem (s : State) (a v n : Nat) : KeepsOut s (s.writeMem a v n) := by
  have hevict : KeepsOut s (s.evictRange a n) := .foldl keepsOut_evictLine _ s
  unfold State.writeMem
  exact (hevict.trans (.foldl keepsOut_preImage _ _)).trans (keepsOut_store _ _ _ _ _)

theorem mem_putCompletion (s : State) (v : Qp) (e : Completion) : Output.completion v.cqTail e ∈ (s.putCompletion v e).out := by
  unfold State.putCompletion
  dsimp only
  split
  · exact keepsOut_writeMem _ _ _ _ _ (mem_emit s _)
  · exact mem_emit s _

/-- The completion entry of descriptor e of queue pair q (Table 13.5). -/
def State.entryFor (s : State) (q k status code result detail : Nat) (e : Prog) : Completion :=
  { q := q, k := k, phase := (s.qp q).phase, status := status, code := code, tag := e.desc.extractLsb' 32 32, result := BitVec.ofNat 64 result,
    tick := s.now, detail := detail }

theorem complete_sends {s : State} {q k : Nat} (status code result detail : Nat) {e : Prog} (he : s.prog q k = some e) :
    Output.completion (s.qp q).cqTail (s.entryFor q k status code result detail e) ∈ (s.complete q k status code result detail).out := by
  have hsent := mem_putCompletion (s.setQp q ((s.qp q).completed k)) (s.qp q) (s.entryFor q k status code result detail e)
  unfold State.complete
  rw [he]
  dsimp only
  split
  · exact keepsOut_sendIrq _ _ _ hsent
  · exact hsent

/-! ## A step completes (R299, R305, R306) -/

/-- The rows of tarn, the clusters and the queue pairs are as they were, and of contexts and partitions no more than the journal's fields have
changed. -/
def Settles (s t : State) : Prop := (t.tarn = s.tarn ∧ t.clusters = s.clusters ∧ t.qps = s.qps) ∧ OnlyJournals s t

theorem Settles.refl (s : State) : Settles s s := ⟨⟨rfl, rfl, rfl⟩, .refl s⟩

theorem Settles.trans {s t u : State} (hst : Settles s t) (htu : Settles t u) : Settles s u := by
  obtain ⟨⟨htarn, hcl, hqps⟩, hjournals⟩ := hst
  obtain ⟨⟨htarn', hcl', hqps'⟩, hjournals'⟩ := htu
  exact ⟨⟨htarn'.trans htarn, hcl'.trans hcl, hqps'.trans hqps⟩, hjournals.trans hjournals'⟩

theorem Settles.foldl {α : Type} {g : State → α → State} (hg : ∀ t a, Settles t (g t a)) (l : List α) (s : State) : Settles s (l.foldl g s) := by
  induction l generalizing s with
  | nil => exact .refl s
  | cons a l ih => exact (hg s a).trans (ih _)

theorem settles_note (s : State) (code : Nat) (src : Source) : Settles s (s.note code src) :=
  ⟨⟨State.note_tarn _ _ _, State.note_clusters _ _ _, State.note_qps _ _ _⟩, onlyJournals_note s code src⟩

theorem settles_record (s : State) (p x units : Nat) (body : JRec) : Settles s (s.record p x units body) :=
  ⟨⟨State.record_tarn _ _ _ _ _, State.record_clusters _ _ _ _ _, State.record_qps _ _ _ _ _⟩, onlyJournals_record s p x units body⟩

theorem settles_modRegion (s : State) (r : Nat) (f : Region → Region) : Settles s (s.modRegion r f) :=
  ⟨⟨rfl, rfl, rfl⟩, onlyJournals_of_same rfl rfl rfl⟩

theorem settles_lateEvents (s : State) (p : Nat) (x : Option Nat) : Settles s (s.lateEvents p x) := by
  unfold State.lateEvents
  refine .foldl (fun t r => ?_) _ s
  dsimp only
  split
  · exact .refl t
  · exact (settles_modRegion t r _).trans (settles_note _ _ _)

/-- No step of partition p runs any more. -/
def State.stepEnded (s : State) (p x : Nat) : State :=
  (s.modPart p (fun v => { v with running := none })).modCtx x (fun c => { c with lastTimeout := none })

theorem stepEnded_part (s : State) (p x : Nat) : ((s.stepEnded p x).part p).running = none ∧
    ((s.stepEnded p x).part p).stepSeq = (s.part p).stepSeq := by
  unfold State.stepEnded
  rw [State.modCtx_eq, State.setCtx_part, State.modPart_eq, State.setPart_part_same]
  exact ⟨rfl, rfl⟩

/-- The COMPLETE record of step st is written, and no step runs. -/
def State.stepOver (s : State) (p : Nat) (st : RunStep) : State :=
  ((s.lateEvents p (some st.ctx)).record p st.ctx 0 .complete).stepEnded p st.ctx

/-- Its descriptor completes. -/
def State.stepDone (s : State) (p : Nat) (st : RunStep) : State := (s.stepOver p st).complete st.q st.k stOk 0 st.seq 0

section
variable {p : Nat} {s : State} {st : RunStep}

theorem stepOver_keeps : (s.stepOver p st).tarn = s.tarn ∧ (s.stepOver p st).clusters = s.clusters ∧ (s.stepOver p st).qps = s.qps := by
  obtain ⟨hkeep, -⟩ := (settles_lateEvents s p (some st.ctx)).trans (settles_record _ p st.ctx 0 .complete)
  unfold State.stepOver State.stepEnded
  simp only [State.modCtx_eq, State.modPart_eq, State.setCtx_tarn, State.setCtx_clusters, State.setCtx_qps, State.setPart_tarn,
    State.setPart_clusters, State.setPart_qps]
  exact hkeep

theorem stepOver_part : ((s.stepOver p st).part p).running = none ∧ ((s.stepOver p st).part p).stepSeq = (s.part p).stepSeq := by
  obtain ⟨-, hjournals⟩ := (settles_lateEvents s p (some st.ctx)).trans (settles_record _ p st.ctx 0 .complete)
  have hseq := hjournals.part_field Part.stepSeq (fun _ _ => rfl) p
  obtain ⟨hnone, hkept⟩ := stepEnded_part ((s.lateEvents p (some st.ctx)).record p st.ctx 0 .complete) p st.ctx
  exact ⟨hnone, hkept.trans hseq⟩

theorem stepOver_prog (q k : Nat) : (s.stepOver p st).prog q k = s.prog q k := by
  obtain ⟨-, -, hqps⟩ := stepOver_keeps (s := s) (p := p) (st := st)
  unfold State.prog State.qp
  rw [hqps]

theorem exec_stepComplete_idle (hrun : (s.part p).running = none) : exec (.stepComplete p) s = .next s := by
  change execStepComplete p s = _
  unfold execStepComplete
  rw [hrun]

section
variable (hrun : (s.part p).running = some st)
include hrun

theorem exec_stepComplete_waits (h : st.isOver = false ∨ (s.part p).pendingCause.isSome) : exec (.stepComplete p) s = .next s := by
  change execStepComplete p s = _
  unfold execStepComplete
  rw [hrun]
  exact if_pos (by rcases h with h | h <;> simp [h])

theorem exec_stepComplete (hover : st.isOver = true) (hcause : (s.part p).pendingCause = none) (hreplay : st.replay = false)
    (hfits : (s.lateEvents p (some st.ctx)).recordFits p 0 = true) : exec (.stepComplete p) s = .next ((s.stepDone p st).boundaryWork p) := by
  change execStepComplete p s = _
  unfold execStepComplete
  rw [hrun]
  refine (if_neg (by simp [hover, hcause])).trans ((if_neg (by simp [hreplay])).trans ((if_pos hfits).trans ?_))
  rfl

theorem stepComplete_completes (hover : st.isOver = true) (hcause : (s.part p).pendingCause = none) (hreplay : st.replay = false)
    (hfits : (s.lateEvents p (some st.ctx)).recordFits p 0 = true) :
    ∃ t : State, exec (.stepComplete p) s = .next (t.boundaryWork p) ∧ t.tarn = s.tarn ∧ t.clusters = s.clusters ∧
      (t.part p).running = none ∧ (t.part p).stepSeq = (s.part p).stepSeq ∧
      ((s.prog st.q st.k).isSome → ∃ j e, Output.completion j e ∈ t.out ∧ e.q = st.q ∧ e.k = st.k ∧ e.status = stOk ∧
        e.result = BitVec.ofNat 64 st.seq) := by
  obtain ⟨htarn, hcl, -⟩ := stepOver_keeps (s := s) (p := p) (st := st)
  obtain ⟨hnone, hseq⟩ := stepOver_part (s := s) (p := p) (st := st)
  have hjournals := onlyJournals_complete (s.stepOver p st) st.q st.k stOk 0 st.seq 0
  refine ⟨s.stepDone p st, exec_stepComplete hrun hover hcause hreplay hfits, (State.complete_tarn _ _ _ _ _ _ _).trans htarn,
    (State.complete_clusters _ _ _ _ _ _ _).trans hcl, (hjournals.part_field Part.running (fun _ _ => rfl) p).trans hnone,
    (hjournals.part_field Part.stepSeq (fun _ _ => rfl) p).trans hseq, fun hprog => ?_⟩
  obtain ⟨e, he⟩ := Option.isSome_iff_exists.mp hprog
  exact ⟨_, _, complete_sends stOk 0 st.seq 0 ((stepOver_prog st.q st.k).trans he), rfl, rfl, rfl, rfl⟩

end

end

/-! ## Checkpoints (R316 to R318) -/

section
variable {q k : Nat} {s : State} {d : Desc} (hstarted : s.startedDesc q k 5 = some d)
include hstarted

theorem exec_checkpoint_misaligned (halign : dArea d % 4096 ≠ 0) : exec (.checkpoint q k) s = .next (s.failDesc q k stAlign 0) := by
  change execCheckpoint q k s = _
  unfold execCheckpoint
  rw [hstarted]
  exact if_pos halign

theorem exec_checkpoint_small (halign : dArea d % 4096 = 0) (hsmall : dAreaLen d < s.ckptNeeds (s.qp q).ctx) :
    exec (.checkpoint q k) s = .next (s.rejectDesc q k 0x0813 (s.ckptNeeds (s.qp q).ctx)) := by
  change execCheckpoint q k s = _
  unfold execCheckpoint
  rw [hstarted]
  exact (if_neg (not_not.mpr halign)).trans (if_pos (by simp [hsmall]))

end

/-- Descriptor k of queue pair q waits for the boundary of context x with change c. -/
def State.deferTo (s : State) (q k x : Nat) (c : Deferred) : State :=
  (s.begin q k).modCtx x (fun v => { v with deferred := v.deferred ++ [(some (q, k), c)] })

theorem begin_ctx (s : State) (q k x : Nat) : (s.begin q k).ctx x = s.ctx x := by
  unfold State.begin State.modProg
  rw [State.modQp_eq, State.setQp_ctx]

theorem deferTo_deferred (s : State) (q k x : Nat) (c : Deferred) :
    ((s.deferTo q k x c).ctx x).deferred = (s.ctx x).deferred ++ [(some (q, k), c)] := by
  unfold State.deferTo
  rw [State.modCtx_eq, State.setCtx_ctx_same, begin_ctx]

theorem deferTo_keeps (s : State) (q k x : Nat) (c : Deferred) : { s.deferTo q k x c with qps := s.qps, ctxs := s.ctxs } = s :=
  congrArg (fun t : State => { t with ctxs := s.ctxs }) (begin_keeps s q k)

theorem checkpoint_waits {q k : Nat} {s : State} {d : Desc} (hstarted : s.startedDesc q k 5 = some d) (halign : dArea d % 4096 = 0)
    (hroom : s.ckptNeeds (s.qp q).ctx ≤ dAreaLen d) (hapart : areasMeet (dArea d, dAreaLen d) (s.ctx (s.qp q).ctx).ckpt = false)
    (hhbm : dArea d + dAreaLen d ≤ 0x180_0000_0000) (hreach : s.reachable (s.ctx (s.qp q).ctx).part (dArea d) (max (dAreaLen d) 1) = true)
    (hown : s.ownPages (s.qp q).ctx (dArea d) (dAreaLen d) = true) : exec (.checkpoint q k) s =
      .next ((s.deferTo q k (s.qp q).ctx (.checkpoint (dArea d) (dAreaLen d))).boundaryWork (s.ctx (s.qp q).ctx).part) := by
  change execCheckpoint q k s = _
  unfold execCheckpoint
  rw [hstarted]
  exact (if_neg (not_not.mpr halign)).trans ((if_neg (by simp [hapart, hroom])).trans (if_pos (by simp [hhbm, hreach, hown])))

/-- The bytes of the area are the checkpoint's, and the earlier area is the context's own again. -/
def State.areaWritten (s : State) (x a : Nat) : State :=
  let t := ((s.freeBytes x a (s.ckptNeeds x)).healSectors a (s.ckptNeeds x)).draw
  match (s.ctx x).ckpt with
  | some old => t.givePages (areaPages old.1 old.2) .mapped x
  | none => t

/-- The area is the context's checkpoint, and holds its snapshot. -/
def State.ckptTaken (s : State) (x a n : Nat) : State :=
  (s.areaWritten x a).modCtx x (fun c => { c with ckpt := some (a, n), ckptSaved := s.snapshot x, ckptPending := none, written := [] })

/-- Partition p writes no checkpoint any more, and has its record. -/
def State.ckptRecorded (s : State) (p x a n : Nat) : State :=
  ((s.ckptTaken x a n).record p x 0 (.checkpoint a n)).modPart p (fun v => { v with ckptBusy := none })

/-- The checkpoint's descriptor completes, and the journal is measured again. -/
def State.ckptDone (s : State) (p x q k a n : Nat) : State :=
  let t := (s.ckptRecorded p x a n).complete q k stOk 0 (s.ckptNeeds x) 0
  t.modPart p (fun v => { v with journalLow := t.journalLow p })

theorem freeBytes_keeps (s : State) (x a : Nat) : ∀ n, (s.freeBytes x a n).tarn = s.tarn ∧ (s.freeBytes x a n).clusters = s.clusters
  | 0 => ⟨rfl, rfl⟩
  | n + 1 => freeBytes_keeps s x a n

theorem givePages_keeps (s : State) (run : Nat × Nat) (use : PageUse) (x : Nat) :
    (s.givePages run use x).tarn = s.tarn ∧ (s.givePages run use x).clusters = s.clusters := by
  unfold State.givePages
  induction List.range run.2 generalizing s with
  | nil => exact ⟨rfl, rfl⟩
  | cons g l ih => exact ih (s.modPage (run.1 + g) (fun v => { v with use := use, owner := x, key := (s.ctx x).keyGen + 1 }))

section
variable {s : State} {p x q k a n : Nat}

theorem areaWritten_keeps : (s.areaWritten x a).tarn = s.tarn ∧ (s.areaWritten x a).clusters = s.clusters := by
  obtain ⟨htarn, hcl⟩ := freeBytes_keeps s x a (s.ckptNeeds x)
  have htarn' := (State.healSectors_tarn (s.freeBytes x a (s.ckptNeeds x)) a (s.ckptNeeds x)).trans htarn
  have hcl' := (State.healSectors_clusters (s.freeBytes x a (s.ckptNeeds x)) a (s.ckptNeeds x)).trans hcl
  unfold State.areaWritten
  dsimp only
  split
  next old _ =>
    obtain ⟨hgtarn, hgcl⟩ := givePages_keeps ((s.freeBytes x a (s.ckptNeeds x)).healSectors a (s.ckptNeeds x)).draw (areaPages old.1 old.2) .mapped x
    exact ⟨hgtarn.trans htarn', hgcl.trans hcl'⟩
  next => exact ⟨htarn', hcl'⟩

theorem ckptTaken_ctx : ((s.ckptTaken x a n).ctx x).ckpt = some (a, n) ∧ ((s.ckptTaken x a n).ctx x).ckptSaved = s.snapshot x ∧
    ((s.ckptTaken x a n).ctx x).ckptPending = none := by
  unfold State.ckptTaken
  rw [State.modCtx_eq, State.setCtx_ctx_same]
  exact ⟨rfl, rfl, rfl⟩

/-- From the checkpoint's record on, of contexts only the journal's fields change. -/
theorem ckptDone_ctx {α : Type} (f : Ctx → α) (hf : ∀ v w, f { v with written := w } = f v) :
    f ((s.ckptDone p x q k a n).ctx x) = f ((s.ckptTaken x a n).ctx x) := by
  have hrecord := (onlyJournals_record (s.ckptTaken x a n) p x 0 (.checkpoint a n)).ctx_field f hf x
  have hcomplete := (onlyJournals_complete (s.ckptRecorded p x a n) q k stOk 0 (s.ckptNeeds x) 0).ctx_field f hf x
  unfold State.ckptDone
  rw [State.modPart_eq, State.setPart_ctx, hcomplete, State.ckptRecorded, State.modPart_eq, State.setPart_ctx, hrecord]

theorem ckptDone_keeps : (s.ckptDone p x q k a n).tarn = s.tarn ∧ (s.ckptDone p x q k a n).clusters = s.clusters := by
  have hkeep := areaWritten_keeps (s := s) (x := x) (a := a)
  unfold State.ckptDone State.ckptRecorded State.ckptTaken
  simp only [State.modPart_eq, State.modCtx_eq, State.setPart_tarn, State.setPart_clusters, State.complete_tarn, State.complete_clusters,
    State.record_tarn, State.record_clusters, State.setCtx_tarn, State.setCtx_clusters]
  exact hkeep

theorem modPart_journalLow_ckptBusy (s : State) (p : Nat) (b : Bool) :
    ((s.modPart p (fun v => { v with journalLow := b })).part p).ckptBusy = (s.part p).ckptBusy := by
  rw [State.modPart_eq, State.setPart_part_same]

theorem ckptDone_ckptBusy : ((s.ckptDone p x q k a n).part p).ckptBusy = none := by
  have hcomplete := (onlyJournals_complete (s.ckptRecorded p x a n) q k stOk 0 (s.ckptNeeds x) 0).part_field Part.ckptBusy (fun _ _ => rfl) p
  have hnone : ((s.ckptRecorded p x a n).part p).ckptBusy = none := by
    unfold State.ckptRecorded
    rw [State.modPart_eq, State.setPart_part_same]
  exact (modPart_journalLow_ckptBusy _ p _).trans (hcomplete.trans hnone)

theorem exec_checkpointDurable (hbusy : (s.part p).ckptBusy = some (x, q, k)) (hpending : (s.ctx x).ckptPending = some (a, n)) :
    exec (.checkpointDurable p) s = .next ((s.ckptDone p x q k a n).boundaryWork p) := by
  change execCheckpointDurable p s = _
  unfold execCheckpointDurable
  rw [hbusy]
  dsimp only
  rw [hpending]
  rfl

theorem checkpointDurable_kept (hbusy : (s.part p).ckptBusy = some (x, q, k)) (hpending : (s.ctx x).ckptPending = some (a, n)) :
    ∃ t : State, exec (.checkpointDurable p) s = .next (t.boundaryWork p) ∧ t.tarn = s.tarn ∧ t.clusters = s.clusters ∧
      (t.ctx x).ckpt = some (a, n) ∧ (t.ctx x).ckptSaved = s.snapshot x ∧ (t.ctx x).ckptPending = none ∧ (t.part p).ckptBusy = none := by
  obtain ⟨htarn, hcl⟩ := ckptDone_keeps (s := s) (p := p) (x := x) (q := q) (k := k) (a := a) (n := n)
  obtain ⟨hckpt, hsaved, hnone⟩ := ckptTaken_ctx (s := s) (x := x) (a := a) (n := n)
  exact ⟨s.ckptDone p x q k a n, exec_checkpointDurable hbusy hpending, htarn, hcl, (ckptDone_ctx Ctx.ckpt (fun _ _ => rfl)).trans hckpt,
    (ckptDone_ctx Ctx.ckptSaved (fun _ _ => rfl)).trans hsaved, (ckptDone_ctx Ctx.ckptPending (fun _ _ => rfl)).trans hnone, ckptDone_ckptBusy⟩

end

/-- Settles O22: a launch and its release, the step's completion, and a checkpoint asked for and become durable. -/
theorem stepsFromLaunchToCheckpoint : Obligations.StepsFromLaunchToCheckpoint := by
  unfold Obligations.StepsFromLaunchToCheckpoint
  refine ⟨⟨fun q k s => ⟨exec_stepLaunch_idle, fun d hstarted => ⟨fun hok => ?_, exec_stepLaunch_rejected hstarted⟩⟩,
      fun p s hrun hrec => ⟨exec_stepRelease_waits hrun hrec, fun x l hmay hcal hres hlaunch hok hplaced hfits => ?_⟩⟩,
    fun p s st hrun => ⟨exec_stepComplete_waits hrun, stepComplete_completes hrun⟩, fun p s => exec_stepComplete_idle,
    fun q k s d hstarted => ⟨exec_checkpoint_misaligned hstarted, exec_checkpoint_small hstarted, fun halign hroom hapart hhbm hreach hown => ?_⟩,
    fun p x q k a n s => checkpointDurable_kept⟩
  · exact ⟨s.launchTaken q k d, exec_stepLaunch hstarted hok, launchTaken_keeps d, launchTaken_launches d, launchTaken_qp d⟩
  · exact ⟨_, exec_stepRelease hrun hrec hmay hcal hres hlaunch, release_runs hok hplaced hfits rfl⟩
  · exact ⟨_, checkpoint_waits hstarted halign hroom hapart hhbm hreach hown, deferTo_keeps s q k _ _, deferTo_deferred s q k _ _⟩

end Sys2Proof.Machine

namespace Sys2Proof.Machine
open Sys2Proof

/-! ## Where rows and addresses lie (R91, R96, R336) -/

theorem handleRow_resident {e : HandleEntry} (hback : hBacking e = 0) (i : Nat) :
    handleRow e i = if hWrap e then hBase e + i % hCount e else hBase e + i := by
  simp [handleRow, hback]

/-- Without a linear layout, an address of a slice whose partition does not interleave lies in one of its region's own stacks. -/
theorem hbmPlace_regionLocal {s : State} {r off : Nat} (hlin : (s.region r).linear = none)
    (hpart : ∀ p, (s.region r).part = some p → (s.part p).interleave = false) (hoff : off < s.sliceSize) :
    s.hbmPlace (r * s.sliceSize + off) = (2 * r + off / 4096 % 2, off / 4096 / 2 * 4096 + off % 4096) := by
  have hregion : (r * s.sliceSize + off) / s.sliceSize = r := by
    rw [Nat.mul_comm, Nat.mul_add_div (by omega), Nat.div_eq_of_lt hoff, Nat.add_zero]
  have hmod : (r * s.sliceSize + off) % s.sliceSize = off := by
    rw [Nat.mul_add_mod_of_lt hoff]
  unfold State.hbmPlace
  simp only [hregion, hmod, hlin]
  cases hp : (s.region r).part with
  | none => rfl
  | some p => simp [hpart p hp]

/-- Settles O56: each clause is what the model's own definition of the place says. -/
theorem handlesSpansAndStacks : Obligations.HandlesSpansAndStacks := by
  unfold Obligations.HandlesSpansAndStacks
  refine ⟨fun e i hback => ⟨fun hring _ => ?_, fun hring => ?_⟩, fun sp r => ⟨rfl, rfl⟩, fun s r off => hbmPlace_regionLocal⟩
  · simp [handleRow_resident hback, hring]
  · simp [handleRow_resident hback, hring]

end Sys2Proof.Machine

namespace Sys2Proof.Machine
open Sys2Proof

/-! ## A held load goes on (R80, R184) -/

section
variable {s : State} {c : Nat} {h : Hold} {u : Upset}

theorem exec_tagWaitSatisfied_cluster (hwait : s.tagWaitOf c = some h) :
    exec (.tagWaitSatisfied (.cluster c) u) s = .next (s.retryHeld h u) := by
  change execTagWaitSatisfied (.cluster c) u s = _
  simp only [execTagWaitSatisfied, hwait]

/-- A held LD presents its own body again. -/
theorem retryHeld_ld (hop : h.opcode = 0x40) (hu : h.iss.u = u) : s.retryHeld h u = s.finish h.iss (bodyLd h.iss s) := by
  subst hu
  unfold State.retryHeld
  simp only [hop]
  rfl

end

theorem RowRead.of_noStore {s t v : State} {c n : Nat} {g : Tag} (h : RowRead s t c n g) (hst : NoStore t v) : RowRead s v c n g := by
  obtain ⟨⟨hrows, hmem, hpoison⟩, hrow⟩ := h
  obtain ⟨htarn, hmem', hpoison'⟩ := hst
  refine ⟨⟨fun k hk => ?_, hmem'.trans hmem, hpoison'.trans hpoison⟩, ?_⟩
  · rw [htarn]
    exact hrows k hk
  · rw [State.trow_def, htarn]
    exact hrow

theorem noStore_modCl (s : State) (c : Nat) (f : Cluster → Cluster) : NoStore s (s.modCl c f) := ⟨rfl, rfl, rfl⟩

theorem noStore_finish_ok (s : State) (i : Issue) (t : State) : NoStore t (s.finish i (.ok t)) := ⟨rfl, rfl, rfl⟩

section
variable {s : State} {i : Issue} {n : Nat} (hn : handleRow (s.handle i.c (fH i)) (rowIndex s i) = n)
  (hback : hBacking (s.handle i.c (fH i)) = 0) (hok : handleOk (s.handle i.c (fH i)) (s.ctxOf i.c) .engineRead (rowIndex s i) = true)
  (hrow : Readable s i.c n (hTagged (s.handle i.c (fH i))) i.u)
include hn hback hok hrow

/-- An LD of a readable row ends in order, in a state where the row has been read. -/
theorem bodyLd_reads : ∃ t, SameButAhead (s.cl i.c) (t.cl i.c) ∧
    RowRead s t i.c n (if hTagged (s.handle i.c (fH i)) then .empty else (s.trow i.c n).tag) ∧
    bodyLd i s = .ok ((t.modCl i.c (useAhead (fH i) n)).modRegs i.c (fun r => r.mergeRow (fA i) (s.trow i.c n).data)) := by
  obtain ⟨t, hdone, htrow, honly, hcl, -⟩ := rowAccess_read (w := 0)
    (by cases hTagged (s.handle i.c (fH i)) <;> rfl) (tagTable_readable hrow false) hrow.2.2
  have haccess : s.entryAccess i.c (s.handle i.c (fH i)) n (readBy (s.handle i.c (fH i)) false) 0 i.u = .done (s.trow i.c n).data t :=
    (entryAccess_resident hback _ _).trans hdone
  refine ⟨t, hcl i.c, ⟨honly, by simpa using htrow⟩, ?_⟩
  unfold bodyLd bodyLoad rowEffect
  simp only [hok, if_true, hn]
  rw [haccess]

/-- An LD whose row is readable writes the row's data into its register, and empties the row where the handle is tagged. -/
theorem finish_ld : Advances s (s.finish i (bodyLd i s)) i ((s.regsOf i.c).mergeRow (fA i) (s.trow i.c n).data) true (nextPc s i) ∧
    RowRead s (s.finish i (bodyLd i s)) i.c n (if hTagged (s.handle i.c (fH i)) then .empty else (s.trow i.c n).tag) := by
  obtain ⟨t, hcl, hread, hbody⟩ := bodyLd_reads hn hback hok hrow
  rw [hbody]
  exact ⟨finish_ok_after hcl (fun r => r.mergeRow (fA i) (s.trow i.c n).data) (useAhead (fH i) n) (useAhead_cl (fH i) n),
    hread.of_noStore (((noStore_modCl t i.c _).trans (noStore_modCl _ i.c _)).trans (noStore_finish_ok s i _))⟩

end

/-! ## Waits that expire (R82 to R86) -/

section
variable {s : State} {c : Nat} {h : Hold}

theorem exec_tagWaitTimeout_cluster {began : Nat} (hwait : s.tagWaitOf c = some h) (htag : s.waitsOnTag h = true) (hsince : h.since = some began) :
    exec (.tagWaitTimeout (.cluster c)) s = .next (if began + s.tagTicksAt c ≤ s.now then s.trap c 0x06 0 h.j else s) := by
  change execTagWaitTimeout (.cluster c) s = _
  simp only [execTagWaitTimeout, hwait, htag, hsince, State.expired, Option.getD_some, Bool.true_and, decide_eq_true_eq]
  split <;> rfl

theorem exec_tagWaitTimeout_fetch {line began : Nat} (hsince : s.fetchSince c line = some began) (hlate : began + s.tagTicksAt c ≤ s.now) :
    exec (.tagWaitTimeout (.fetch c line)) s = .next (s.setLine c line none .address) := by
  change execTagWaitTimeout (.fetch c line) s = _
  simp only [execTagWaitTimeout, hsince, State.expired, decide_eq_true hlate, if_true]

theorem exec_tagWaitTimeout_remote {k : Nat} {r : RemoteWait} (hwait : (s.cl c).fab.remoteWait[k]? = some r)
    (hlate : r.since + s.tagTicks r.pkt.context ≤ s.now) : exec (.tagWaitTimeout (.remote c k)) s = .next (s.dropRemote c k) := by
  change execTagWaitTimeout (.remote c k) s = _
  simp only [execTagWaitTimeout, hwait, State.expired, decide_eq_true hlate, if_true]

end

theorem onlyCluster_modCl (s : State) (c : Nat) (f : Cluster → Cluster) : OnlyCluster s (s.modCl c f) c :=
  ⟨rfl, fun _ hd => State.setCl_cl_ne s c _ _ hd⟩

theorem OnlyCluster.trans {s t u : State} {c : Nat} (hst : OnlyCluster s t c) (htu : OnlyCluster t u c) : OnlyCluster s u c := by
  obtain ⟨hst, hst'⟩ := hst
  obtain ⟨htu, htu'⟩ := htu
  exact ⟨by rw [← hst, ← htu], fun d hd => (htu' d hd).trans (hst' d hd)⟩

theorem setLine_marked (s : State) (c line : Nat) (d : Option Row) (m : Mark) :
    Tbl.get (fun _ => Mark.clean) ((s.setLine c line d m).cl c).code.marks line = m ∧ (s.setLine c line d m).fetchSince c line = none := by
  simp [State.setLine, State.fetchSince]

theorem dropRemote_queue (s : State) (c k : Nat) :
    ((s.dropRemote c k).cl c).fab.remoteWait = (s.cl c).fab.remoteWait.eraseIdx k := by
  simp [State.dropRemote]

/-! ## The tag of a spilled row (R97, R98) -/

theorem tagOfCode_code (g : Tag) : tagOfCode g.code = g := by cases g <;> rfl

theorem Tag.code_lt (g : Tag) : g.code < 4 := by cases g <;> decide

/-- A 2-bit field of a byte replaced: the byte stays a byte, and the field reads as what was put there. -/
theorem field_replaced {b j v : Nat} (hb : b < 256) (hj : j < 4) (hv : v < 4) :
    b - b / 4 ^ j % 4 * 4 ^ j + v * 4 ^ j < 256 ∧ (b - b / 4 ^ j % 4 * 4 ^ j + v * 4 ^ j) / 4 ^ j % 4 = v := by
  obtain rfl | rfl | rfl | rfl : j = 0 ∨ j = 1 ∨ j = 2 ∨ j = 3 := by omega
  all_goals norm_num; omega

/-- The byte of a bitmap after a change of the tag of row i. -/
theorem setBitmapTag_byte_same (s : State) (e : HandleEntry) (i : Nat) (g : Tag) :
    let b := (s.byte (hBitmap e + i / 4)).toNat
    ((s.setBitmapTag e i g).byte (hBitmap e + i / 4)).toNat = b - b / 4 ^ (i % 4) % 4 * 4 ^ (i % 4) + g.code * 4 ^ (i % 4) := by
  intro b
  have hbyte : b < 256 := (s.byte (hBitmap e + i / 4)).isLt
  rw [setBitmapTag_byte, if_pos rfl, BitVec.toNat_ofNat]
  exact Nat.mod_eq_of_lt (field_replaced hbyte (Nat.mod_lt _ (by decide)) g.code_lt).1

theorem setBitmapTag_bitmapTag (s : State) (e : HandleEntry) (i : Nat) (g : Tag) : (s.setBitmapTag e i g).bitmapTag e i = g := by
  have hbyte : (s.byte (hBitmap e + i / 4)).toNat < 256 := (s.byte _).isLt
  unfold State.bitmapTag
  rw [setBitmapTag_byte_same, (field_replaced hbyte (Nat.mod_lt _ (by decide)) g.code_lt).2, tagOfCode_code]

theorem exec_spilledTagUpdate {c h : Nat} {row : Word} {step : TagStep} {s : State} (hback : hBacking (s.handle c h) ≠ 0)
    (hcount : 0 < hCount (s.handle c h)) (hrange : hWrap (s.handle c h) = true ∨ row.toNat < hCount (s.handle c h)) :
    exec (.spilledTagUpdate c h row step) s =
      .next (if s.bitmapTag (s.handle c h) (handleRow (s.handle c h) row.toNat) = (tagChange step).1
        then s.setBitmapTag (s.handle c h) (handleRow (s.handle c h) row.toNat) (tagChange step).2 else s) := by
  change execSpilledTagUpdate c h row step s = _
  unfold execSpilledTagUpdate
  dsimp only
  rw [if_pos ⟨hback, hcount, hrange⟩]
  split <;> rfl

/-- Settles O6: a held LD goes on by its own body, each wait past its time ends by the one update of its accessor, and the
tag of a spilled row is one field of one byte. -/
theorem tagWaits : Obligations.TagWaits := by
  unfold Obligations.TagWaits
  refine ⟨?_, ?_, ?_, ?_, ?_⟩
  case refine_1 =>
    rintro c u s h hwait rfl hop rfl e n hback hok hrow
    obtain ⟨hadv, honly, htrow⟩ := finish_ld rfl hback hok hrow
    exact ⟨_, by rw [exec_tagWaitSatisfied_cluster hwait, retryHeld_ld hop rfl], hadv, htrow, honly⟩
  case refine_2 =>
    rintro c s h began hwait rfl htag hsince
    rw [exec_tagWaitTimeout_cluster hwait htag hsince]
    refine ⟨fun hlate => ⟨_, by rw [if_pos hlate], trap_traps s h.iss 0x06 0 h.j⟩, fun hearly => ?_⟩
    rw [if_neg (Nat.not_le.mpr hearly)]
  case refine_3 =>
    intro c line s began hsince hlate
    obtain ⟨hmark, hnone⟩ := setLine_marked s c line none .address
    exact ⟨_, exec_tagWaitTimeout_fetch hsince hlate, onlyCluster_modCl s c _, hmark, hnone⟩
  case refine_4 =>
    intro c k s r hwait hlate
    exact ⟨_, exec_tagWaitTimeout_remote hwait hlate, onlyCluster_modCl s c _, dropRemote_queue s c k⟩
  case refine_5 =>
    intro c h row step s e i a k b hback hcount hrange
    rw [exec_spilledTagUpdate hback hcount hrange]
    refine ⟨fun htag => ⟨_, by rw [if_pos htag], setBitmapTag_bitmapTag s e i _, by simp, by simp, fun a' ha => ?_,
      setBitmapTag_byte_same s e i _⟩, fun htag => by rw [if_neg htag]⟩
    rw [setBitmapTag_byte, if_neg ha]

end Sys2Proof.Machine

namespace Sys2Proof.Machine
open Sys2Proof

/-! ## A response at the cluster that sent the request (R218, R221, R254, R257) -/

/-- Operations of instructions that retire when their request leaves, and so run on without them (R217, R224, R226). -/
def OpKind.AfterRetirement (g : OpKind) : Prop := g = .send ∨ g = .mcast ∨ g = .mst

section
variable {s : State} {p c : Nat} {ty : PType} {k : Packet} {f : Nat → Op → Packet → State → State}

theorem OnlyCluster.noStore {s t : State} {c : Nat} (h : OnlyCluster s t c) : NoStore s t := by
  obtain ⟨h, -⟩ := h
  rw [← h]
  exact ⟨rfl, rfl, rfl⟩

theorem respondAt_stale (harr : Arrives s p ty k) (hdst : k.dst = .cluster c) (hop : opOf (s.cl c) k = none) :
    s.respondAt p ty f = (s.removePkt p).countDiscard (regionOf c) 7 := by
  have hop' : opOf ((s.removePkt p).cl c) k = none := hop
  unfold State.respondAt
  rw [exec_arrives harr]
  simp only [hdst, hop']

theorem respondAt_op {o : Op} (harr : Arrives s p ty k) (hdst : k.dst = .cluster c) (hop : opOf (s.cl c) k = some o) :
    s.respondAt p ty f = f c o k (s.removePkt p) := by
  have hop' : opOf ((s.removePkt p).cl c) k = some o := hop
  unfold State.respondAt
  rw [exec_arrives harr]
  simp only [hdst, hop']

end

section
variable {s : State} {c : Nat} {o : Op} {k : Packet} {h : Hold}

/-- The row of an instruction that waits for it ends its operation, and the instruction retires with the row. -/
theorem dataFor_row (hkind : o.kind ≠ .prefetch) (hwait : waitsFor (s.cl c) o = some h) (hst : (s.cl c).st = .waiting) :
    s.dataFor c o k = ((s.modCl c (endOp o)).finish h.iss
      (.ok ((s.modCl c (endOp o)).modRegs c (fun r => r.mergeBits (fA h.iss) (arrivingBits h) k.data)))) := by
  have hst' : ((s.modCl c (endOp o)).cl c).st ≠ .halted := by simp [endOp, hst]
  have hrow : s.dataFor c o k = (s.modCl c (endOp o)).rowArrives c h k.data (arrivingBits h) := by
    unfold State.dataFor
    split
    · next hk => exact absurd hk hkind
    · rw [hwait]
  rw [hrow]
  exact if_neg hst'

theorem advances_of_retireCluster {t : State} {i : Issue} {v : Cluster} {seq : Bool} {next : Nat} (hcl : t.cl i.c = retireCluster seq next v)
    (hretired : v.cnt.retired = (s.cl i.c).cnt.retired) (hstep : v.stepOne = (s.cl i.c).stepOne) : Advances s t i v.regs seq next := by
  refine ⟨?_, ?_, ?_, ?_⟩
  · rw [State.regsOf, hcl]
    rfl
  · rw [hcl, ← hretired]
    rfl
  · rw [hcl]
    rfl
  · rw [hcl, ← hstep]
    rfl

theorem dataFor_retires (hkind : o.kind ≠ .prefetch) (hwait : waitsFor (s.cl c) o = some h) (hst : (s.cl c).st = .waiting) (hc : h.iss.c = c) :
    NoStore s (s.dataFor c o k) ∧ ((s.dataFor c o k).cl c).fab.ops = (s.cl c).fab.ops.filter (fun q => q.tag != o.tag) ∧
      Advances s (s.dataFor c o k) h.iss ((s.regsOf c).mergeBits (fA h.iss) (arrivingBits h) k.data) true (nextPc s h.iss) := by
  subst hc
  rw [dataFor_row hkind hwait hst]
  have hnext : nextPc (s.modCl h.iss.c (endOp o)) h.iss = nextPc s h.iss := by
    simp [nextPc, State.regsOf, endOp]
  have hcl (t : State) (f : Regs → Regs) (n : Nat) :
      (((t.modRegs h.iss.c f).modCl h.iss.c (retireCluster true n)).cl h.iss.c) = retireCluster true n { t.cl h.iss.c with regs := f (t.regsOf h.iss.c) } := by
    simp [State.modRegs, State.regsOf]
  have hend : (s.modCl h.iss.c (endOp o)).cl h.iss.c = endOp o (s.cl h.iss.c) := by simp
  refine ⟨((noStore_modCl _ _ _).trans (noStore_modCl _ _ _)).trans (noStore_finish_ok _ _ _), ?_, ?_⟩
  · rw [State.finish, hcl, hend]
    rfl
  · rw [State.finish, hnext]
    have hadv := advances_of_retireCluster (s := s) (hcl (s.modCl h.iss.c (endOp o)) (fun r => r.mergeBits (fA h.iss) (arrivingBits h) k.data) (nextPc s h.iss))
      (by rw [hend]; rfl) (by rw [hend]; rfl)
    rw [State.regsOf, hend] at hadv
    exact hadv

theorem ackFor_done (hcoll : o.kind ≠ .coll) (hconsume : o.kind ≠ .consume) (hstatus : k.status = 0) :
    s.ackFor c o k = s.modCl c (endOp o) := by
  unfold State.ackFor
  rw [if_neg (by omega)]
  split
  · next hk => exact absurd hk hcoll
  · next hk => exact absurd hk hconsume
  · exact if_pos hstatus

theorem ackFor_busy (hstatus : k.status = 1) : s.ackFor c o k = s.busy c o := if_pos hstatus

theorem ackFor_failed (hkind : o.kind.AfterRetirement) (hbusy : k.status ≠ 1) (hfail : k.status ≠ 0) :
    s.ackFor c o k = s.failOp c o (causeOfStatus k.status) := by
  unfold State.ackFor
  rw [if_neg hbusy]
  rcases hkind with hk | hk | hk <;> simp only [hk, if_neg hfail]

/-- A failure of an operation whose instruction has retired is recorded (R221). -/
theorem failOp_recorded (cause : Nat) (hkind : o.kind.AfterRetirement) (hwait : waitsFor (s.cl c) o = none) :
    s.failOp c o cause = (s.modCl c (endOp o)).modCl c (recordFault cause o) := by
  unfold State.failOp
  rcases hkind with hk | hk | hk <;> simp only [hk, hwait]

/-- The first failure after retirement is kept as it came. -/
theorem recordFault_first {v : Cluster} (cause : Nat) (hfirst : v.fab.fault.cause = 0) :
    (recordFault cause o v).fab.fault = { cause := BitVec.ofNat 8 cause, more := 0, dst := BitVec.ofNat 13 o.dst, pc := o.pc } :=
  if_pos hfirst

/-- A failure recorded for an instruction that has retired ends its operation and touches neither its registers nor a row. -/
theorem failOp_keeps (cause : Nat) (hkind : o.kind.AfterRetirement) (hwait : waitsFor (s.cl c) o = none) (hfirst : (s.cl c).fab.fault.cause = 0) :
    OnlyCluster s (s.failOp c o cause) c ∧ ((s.failOp c o cause).cl c).fab.ops = (s.cl c).fab.ops.filter (fun q => q.tag != o.tag) ∧
      (s.failOp c o cause).regsOf c = s.regsOf c ∧
      ((s.failOp c o cause).cl c).fab.fault = { cause := BitVec.ofNat 8 cause, more := 0, dst := BitVec.ofNat 13 o.dst, pc := o.pc } := by
  have hcl : (s.failOp c o cause).cl c = recordFault cause o (endOp o (s.cl c)) := by
    rw [failOp_recorded cause hkind hwait]
    simp
  refine ⟨?_, ?_, ?_, ?_⟩
  · rw [failOp_recorded cause hkind hwait]
    exact (onlyCluster_modCl s c _).trans (onlyCluster_modCl _ c _)
  · rw [hcl]
    rfl
  · rw [State.regsOf, hcl]
    rfl
  · rw [hcl]
    exact recordFault_first cause hfirst

end

/-- t differs from s in cluster c, and in the packets in flight, alone. -/
theorem removePkt_keeps {s t : State} {p c : Nat} (h : OnlyCluster (s.removePkt p) t c) :
    { t with net := s.net, clusters := s.clusters } = s ∧ ∀ d, d ≠ c → t.cl d = s.cl d := by
  obtain ⟨heq, hcl⟩ := h
  refine ⟨?_, hcl⟩
  have hnet := congrArg (fun u : State => { u with net := s.net }) heq
  exact hnet

section
variable {s : State} {p c : Nat} {k : Packet} (hdst : k.dst = .cluster c)
include hdst

theorem exec_response_stale (hop : opOf (s.cl c) k = none) :
    (Arrives s p .data k → exec (.data p) s = .next ((s.removePkt p).countDiscard (regionOf c) 7)) ∧
    (Arrives s p .ack k → exec (.ack p) s = .next ((s.removePkt p).countDiscard (regionOf c) 7)) :=
  ⟨fun harr => congrArg Host.Outcome.next (respondAt_stale harr hdst hop), fun harr => congrArg Host.Outcome.next (respondAt_stale harr hdst hop)⟩

variable {o : Op} (hop : opOf (s.cl c) k = some o)
include hop

theorem exec_data_op (harr : Arrives s p .data k) : exec (.data p) s = .next ((s.removePkt p).dataFor c o k) :=
  congrArg Host.Outcome.next (respondAt_op harr hdst hop)

theorem exec_ack_op (harr : Arrives s p .ack k) : exec (.ack p) s = .next ((s.removePkt p).ackFor c o k) :=
  congrArg Host.Outcome.next (respondAt_op harr hdst hop)

/-- The row that a waiting RECV or MLD is due arrives: its operation is over, and it retires with the bytes it asked for. -/
theorem data_retires {h : Hold} (harr : Arrives s p .data k) (hkind : o.kind ≠ .prefetch) (hwait : waitsFor (s.cl c) o = some h)
    (hc : h.iss.c = c) (hst : (s.cl c).st = .waiting) : ∃ t : State, exec (.data p) s = .next t ∧ NoStore s t ∧
      (t.cl c).fab.ops = (s.cl c).fab.ops.filter (fun q => q.tag != o.tag) ∧
      Advances s t h.iss ((s.regsOf c).mergeBits (fA h.iss) (arrivingBits h) k.data) true (nextPc s h.iss) := by
  obtain ⟨hstore, hops, hadv⟩ := dataFor_retires (s := s.removePkt p) (k := k) hkind hwait hst hc
  exact ⟨_, exec_data_op hdst hop harr, (noStore_removePkt s p).trans hstore, hops, hadv⟩

theorem ack_ends (harr : Arrives s p .ack k) (hcoll : o.kind ≠ .coll) (hconsume : o.kind ≠ .consume) (hstatus : k.status = 0) :
    ∃ t : State, exec (.ack p) s = .next t ∧ { t with net := s.net, clusters := s.clusters } = s ∧ (∀ d, d ≠ c → t.cl d = s.cl d) ∧
      t.cl c = endOp o (s.cl c) := by
  refine ⟨_, (exec_ack_op hdst hop harr).trans (congrArg Host.Outcome.next (ackFor_done hcoll hconsume hstatus)), ?_⟩
  obtain ⟨hnet, hcl⟩ := removePkt_keeps (onlyCluster_modCl (s.removePkt p) c (endOp o))
  exact ⟨hnet, hcl, State.setCl_cl_same _ _ _⟩

theorem ack_busy (harr : Arrives s p .ack k) (hstatus : k.status = 1) :
    ∃ t : State, exec (.ack p) s = .next t ∧ { t with net := s.net, clusters := s.clusters } = s ∧
      (t.cl c).fab.flows = returnPlace o.flow (s.cl c).fab.flows ∧
      (t.cl c).fab.ops = (s.cl c).fab.ops.map (fun q => if q.tag = o.tag then
        { q with progress := s.now, busyUntil := some ((s.region (regionOf c)).cycle.toNat + 64) } else q) := by
  refine ⟨_, (exec_ack_op hdst hop harr).trans (congrArg Host.Outcome.next (ackFor_busy hstatus)),
    (removePkt_keeps (onlyCluster_modCl (s.removePkt p) c _)).1, ?_, ?_⟩
  all_goals
    rw [State.busy, State.modCl_eq, State.setCl_cl_same]
    rfl

theorem ack_fails (harr : Arrives s p .ack k) (hkind : o.kind.AfterRetirement) (hwait : waitsFor (s.cl c) o = none) (hstatus : k.status = 2)
    (hfirst : (s.cl c).fab.fault.cause = 0) : ∃ t : State, exec (.ack p) s = .next t ∧ NoStore s t ∧
      (t.cl c).fab.ops = (s.cl c).fab.ops.filter (fun q => q.tag != o.tag) ∧ t.regsOf c = s.regsOf c ∧
      (t.cl c).fab.fault = { cause := 0x21, more := 0, dst := BitVec.ofNat 13 o.dst, pc := o.pc } := by
  have hack : (s.removePkt p).ackFor c o k = (s.removePkt p).failOp c o 0x21 := by
    rw [ackFor_failed hkind (by omega) (by omega), hstatus]
    rfl
  obtain ⟨honly, hops, hregs, hfault⟩ := failOp_keeps (s := s.removePkt p) 0x21 hkind hwait hfirst
  exact ⟨_, (exec_ack_op hdst hop harr).trans (congrArg Host.Outcome.next hack), (noStore_removePkt s p).trans honly.noStore, hops, hregs, hfault⟩

end

/-! ## An access presented again, and operations without progress (R85, R219, R254) -/

/-- The operation answered busy takes a place of its flow again. -/
def State.placeAgain (s : State) (c tag : Nat) (o : Op) : State :=
  s.modCl c (fun v => { v with fab := { v.fab with
    ops := v.fab.ops.map (fun q => if q.tag = tag then { q with busyUntil := none, progress := s.now } else q),
    flows := takePlace o.flow (nodeRegion o.pkt.dst) (s.epochTo c (nodeRegion o.pkt.dst)) v.fab.flows } })

section
variable {s : State} {c tag b : Nat} {o : Op} (hfind : (s.cl c).fab.ops.find? (fun o => o.tag == tag) = some o)
include hfind

theorem exec_busyRepresent (hbusy : o.busyUntil = some b) (hroute : s.noRoute (regionOf c) (nodeRegion o.pkt.dst) = false)
    (hdue : b ≤ (s.region (regionOf c)).cycle.toNat) (hflow : flowOf (s.cl c) o.flow = none) (hroom : (s.cl c).fab.flows.length < 64) :
    exec (.busyRepresent c tag) s = .next ((s.placeAgain c tag o).inject o.pkt) := by
  change execBusyRepresent c tag s = _
  unfold execBusyRepresent
  simp only [hfind, hbusy, hflow, decide_eq_true hdue, decide_eq_true hroom, Bool.and_self, if_true, hroute, Bool.false_eq_true, if_false]
  rfl

theorem exec_busyRepresent_early (hbusy : o.busyUntil = some b) (hearly : (s.region (regionOf c)).cycle.toNat < b) :
    exec (.busyRepresent c tag) s = .next s := by
  change execBusyRepresent c tag s = _
  unfold execBusyRepresent
  simp only [hfind, hbusy, decide_eq_false (Nat.not_le.mpr hearly), Bool.false_and, Bool.false_eq_true, if_false]

theorem exec_fabricOpTimeout (htag : tag < 128) (hlate : o.progress + s.fabTicks c ≤ s.now) (hkind : o.kind ≠ .coll) :
    exec (.fabricOpTimeout c tag) s = .next (s.failOp c o 0x20) := by
  change execFabricOpTimeout c tag s = _
  unfold execFabricOpTimeout
  simp only [htag, if_true, hfind, decide_eq_true hlate, hkind, if_false]

theorem exec_fabricOpTimeout_early (htag : tag < 128) (hearly : s.now < o.progress + s.fabTicks c) : exec (.fabricOpTimeout c tag) s = .next s := by
  change execFabricOpTimeout c tag s = _
  unfold execFabricOpTimeout
  simp only [htag, if_true, hfind, decide_eq_false (Nat.not_le.mpr hearly), Bool.false_eq_true, if_false]

end

theorem OpKind.AfterRetirement.not_coll {g : OpKind} (h : g.AfterRetirement) : g ≠ .coll := by
  rintro rfl
  rcases h with h | h | h <;> exact absurd h (by decide)

/-- A SEND that holds retirement and has sent nothing times out by itself. -/
theorem exec_fabricOpTimeout_held {s : State} {c since : Nat} {h : Hold} (hhold : (s.cl c).hold = some h) (htag : h.tag = 128)
    (hop : h.opcode = 0xC0) (hsince : h.since = some since) (hlate : since + s.fabTicks c ≤ s.now) :
    exec (.fabricOpTimeout c 128) s = .next (s.trap c 0x20 0 0) := by
  change execFabricOpTimeout c 128 s = _
  unfold execFabricOpTimeout
  simp [hhold, htag, hop, hsince, hlate]

/-- Settles O17: a response acts on the one operation its tag and generation name, and a timeout on the operation or the
instruction it names. -/
theorem responsesAndTimeouts : Obligations.ResponsesAndTimeouts := by
  unfold Obligations.ResponsesAndTimeouts
  refine ⟨fun p c k s hdst => ⟨exec_response_stale hdst, fun o hop => ⟨fun h => data_retires hdst hop, ?_, ack_busy hdst hop, ack_fails hdst hop⟩⟩,
    fun c tag b s o hfind hbusy hroute => ⟨fun hdue hflow hroom => ?_, exec_busyRepresent_early hfind hbusy⟩,
    fun c s => ⟨fun tag o htag hfind hkind hwait => ⟨fun hlate hfirst => ?_, exec_fabricOpTimeout_early hfind htag⟩, ?_⟩⟩
  · intro harr hcoll hconsume hstatus
    obtain ⟨t, hexec, hnet, hothers, hcl⟩ := ack_ends hdst hop harr hcoll hconsume hstatus
    exact ⟨t, hexec, hnet, hothers, by rw [hcl]; rfl, by rw [State.regsOf, hcl]; rfl, by rw [hcl]; rfl⟩
  · exact ⟨_, exec_busyRepresent hfind hbusy hroute hdue hflow hroom, ⟨rfl, rfl, rfl⟩, rfl⟩
  · obtain ⟨honly, -, hregs, hfault⟩ := failOp_keeps 0x20 hkind hwait hfirst
    exact ⟨_, exec_fabricOpTimeout hfind htag hlate (OpKind.AfterRetirement.not_coll hkind), honly, hregs, hfault⟩
  · rintro h since hhold rfl htag hop hsince hlate
    exact ⟨_, exec_fabricOpTimeout_held hhold htag hop hsince hlate, trap_traps s h.iss 0x20 0 0⟩

end Sys2Proof.Machine

namespace Sys2Proof.Machine
open Sys2Proof

/-! ## A descriptor completes at once, or waits for the next boundary (R391, R393, R403) -/

theorem complete_completes (s : State) (q k status code result detail : Nat) :
    Completes s (s.complete q k status code result detail) q k status code result := by
  cases he : s.prog q k with
  | none =>
    rw [complete_none s _ _ _ _ he]
    refine ⟨?_, fun _ _ => rfl, fun d hd => ?_⟩
    · have hfree : ∀ e ∈ (s.qp q).prog, ¬(e.k == k) = true := List.find?_eq_none.mp he
      exact (List.filter_eq_self.mpr fun e hmem => by simpa using hfree e hmem).symm
    · rw [he] at hd
      exact absurd hd (by simp)
  | some e =>
    refine ⟨?_, fun j hj => ?_, fun d hd => ?_⟩
    · rw [complete_qp s _ _ _ _ he, if_pos rfl]
      exact (completed_keeps (s.qp q) k).2.2.2.2
    · rw [complete_qp s _ _ _ _ he, if_neg hj]
    · exact ⟨_, complete_sends status code result detail hd, rfl, rfl, rfl, rfl, rfl, rfl, rfl, rfl⟩

/-- A report before a completion changes nothing of it. -/
theorem Completes.of_note {s t : State} {q k status code result n : Nat} {src : Source}
    (h : Completes (s.note n src) t q k status code result) : Completes s t q k status code result := by
  obtain ⟨hprog, hothers, hentry⟩ := h
  simp only [State.note_qp] at hprog hothers hentry
  refine ⟨hprog, hothers, fun d hd => ?_⟩
  have hsame : (s.note n src).prog q k = s.prog q k := by rw [State.prog, State.note_qp, State.prog]
  simpa only [State.note_now] using hentry d (hsame.trans hd)

section
variable {s : State} {i : Instr} {q k : Nat}

theorem ends_of_rejectDesc {code result : Nat} (hexec : exec i s = .next (s.rejectDesc q k code result)) :
    Ends s i q k stRejected code result := by
  refine ⟨_, hexec, ?_, ?_, (complete_completes _ q k stRejected code result 0).of_note⟩
  · rw [State.rejectDesc, State.complete_tarn, State.note_tarn]
  · rw [State.rejectDesc, State.complete_clusters, State.note_clusters]

theorem ends_of_failDesc {status detail : Nat} (hexec : exec i s = .next (s.failDesc q k status detail)) :
    Ends s i q k status (Config.statusCode status % 65536) 0 :=
  ⟨_, hexec, State.complete_tarn _ _ _ _ _ _ _, State.complete_clusters _ _ _ _ _ _ _, complete_completes s q k status _ 0 detail⟩

theorem begin_prog {e : Prog} (he : s.prog q k = some e) : (s.begin q k).prog q k = some { e with running := true, since := some s.now } := by
  have hk : e.k = k := by simpa using List.find?_some he
  have hkeys : (fun e : Prog => e.k == k) ∘ (fun e => if e.k = k then { e with running := true, since := some s.now } else e) = fun e => e.k == k := by
    funext o
    dsimp only [Function.comp]
    split <;> rfl
  unfold State.begin State.modProg State.prog
  rw [State.modQp_eq, State.setQp_qp_same, List.find?_map, hkeys, show (s.qp q).prog.find? (fun e => e.k == k) = some e from he,
    Option.map_some, if_pos hk]

theorem defers_of_defer {c : Deferred} (hexec : exec i s = .next (s.defer q k c)) : Defers s i q k c :=
  ⟨s.deferTo q k (s.qp q).ctx c, hexec, deferTo_keeps s q k _ c, deferTo_deferred s q k _ c, fun _ he => begin_prog he⟩

end

/-! ## The checks of CONTEXT_CTL (R90, R94, R95, R100, R403, R404) -/

/-- Bytes of a span descriptor, by the member count of its first word. -/
def spanLen (ws : List Word) : Nat := 8 + 4 * bitsOf (ws.headD 0) 12 0

/-- Bytes of the rows of the handle that a SPILL_HANDLE names. -/
def State.spillBytes (s : State) (x : Nat) (d : Desc) : Nat := hCount (s.ctxHandle x (cCluster d) (cHandle d)) * 512

section
variable {q k : Nat} {s : State} {d : Desc}

theorem exec_setParam (h : s.startedCtl q k 1 = some d) : exec (.setParam q k) s =
    if paramOk (bitsOf d 135 128) (d.extractLsb' 256 64) then .next (s.defer q k (.param (bitsOf d 135 128) (d.extractLsb' 256 64)))
    else .next (s.rejectDesc q k 0x0813 0) := by
  change execSetParam q k s = _
  unfold execSetParam
  rw [h]

section
variable (h : s.startedCtl q k 3 = some d)
include h

theorem exec_setHandle : exec (.setHandle q k) s =
    if 4608 ≤ cCluster d then .next (s.rejectDesc q k 0x0813 0)
    else if !s.ctxCluster (s.qp q).ctx (cCluster d) then .next (s.failDesc q k stAddress 0)
    else if s.imageHandle (s.qp q).ctx (cCluster d) (cHandle d) then .next (s.rejectDesc q k 0x0813 0)
    else if s.entryOk (s.qp q).ctx (d.extractLsb' 256 256) then .next (s.defer q k (.handle (cCluster d) (cHandle d) (d.extractLsb' 256 256)))
    else .next (s.failDesc q k stHandle 0) := by
  change execSetHandle q k s = _
  unfold execSetHandle
  rw [h]

theorem exec_setHandle_rejected (hrej : 4608 ≤ cCluster d ∨
    (s.ctxCluster (s.qp q).ctx (cCluster d) = true ∧ s.imageHandle (s.qp q).ctx (cCluster d) (cHandle d) = true)) :
    exec (.setHandle q k) s = .next (s.rejectDesc q k 0x0813 0) := by
  rw [exec_setHandle h]
  by_cases hc : 4608 ≤ cCluster d
  · exact if_pos hc
  · obtain ⟨hcl, himage⟩ := hrej.resolve_left hc
    simp [hc, hcl, himage]

theorem exec_setHandle_noTarn (hc : cCluster d < 4608) (hcl : s.ctxCluster (s.qp q).ctx (cCluster d) = false) :
    exec (.setHandle q k) s = .next (s.failDesc q k stAddress 0) := by
  rw [exec_setHandle h]
  simp [Nat.not_le.mpr hc, hcl]

theorem exec_setHandle_checked (hrej : ¬(4608 ≤ cCluster d ∨
    (s.ctxCluster (s.qp q).ctx (cCluster d) = true ∧ s.imageHandle (s.qp q).ctx (cCluster d) (cHandle d) = true)))
    (hcl : s.ctxCluster (s.qp q).ctx (cCluster d) = true) : exec (.setHandle q k) s =
      if s.entryOk (s.qp q).ctx (d.extractLsb' 256 256) then .next (s.defer q k (.handle (cCluster d) (cHandle d) (d.extractLsb' 256 256)))
      else .next (s.failDesc q k stHandle 0) := by
  obtain ⟨hc, himage⟩ := not_or.mp hrej
  have himage' : s.imageHandle (s.qp q).ctx (cCluster d) (cHandle d) = false := by simpa [hcl] using himage
  rw [exec_setHandle h]
  simp [hc, hcl, himage']

end

section
variable {bytes : List Word} (h : s.startedCtl q k 4 = some d)
include h

theorem exec_setSpan : exec (.setSpan q k bytes) s =
    if isTarn (cAddr d) then .next (s.failDesc q k stAlign 0)
    else if !s.dmaSide (s.qp q).ctx (cAddr d) (spanLen (s.spanWords (cAddr d) bytes)) false then .next (s.failDesc q k stAddress 0)
    else if s.readsPoison (cAddr d) (spanLen (s.spanWords (cAddr d) bytes)) then
      .next ((s.complete q k stIntegrity (s.poisonCode (cAddr d)) 0 0).poisonEvent (cAddr d))
    else match s.spanOf (s.qp q).ctx (s.spanWords (cAddr d) bytes) with
      | some sp => .next (s.defer q k (.span (bitsOf d 139 128) sp))
      | none => .next (s.rejectDesc q k 0x0813 0) := by
  change execSetSpan q k bytes s = _
  unfold execSetSpan
  rw [h]
  rfl

theorem exec_setSpan_tarn (htarn : isTarn (cAddr d) = true) : exec (.setSpan q k bytes) s = .next (s.failDesc q k stAlign 0) := by
  rw [exec_setSpan h]
  exact if_pos htarn

theorem exec_setSpan_unreachable (htarn : isTarn (cAddr d) = false)
    (hside : s.dmaSide (s.qp q).ctx (cAddr d) (spanLen (s.spanWords (cAddr d) bytes)) false = false) :
    exec (.setSpan q k bytes) s = .next (s.failDesc q k stAddress 0) := by
  rw [exec_setSpan h]
  simp [htarn, hside]

section
variable (hready : isTarn (cAddr d) = false ∧ s.dmaSide (s.qp q).ctx (cAddr d) (spanLen (s.spanWords (cAddr d) bytes)) false = true ∧
  s.readsPoison (cAddr d) (spanLen (s.spanWords (cAddr d) bytes)) = false)
include hready

theorem exec_setSpan_defined {sp : Span} (hspan : s.spanOf (s.qp q).ctx (s.spanWords (cAddr d) bytes) = some sp) :
    exec (.setSpan q k bytes) s = .next (s.defer q k (.span (bitsOf d 139 128) sp)) := by
  obtain ⟨htarn, hside, hpoison⟩ := hready
  rw [exec_setSpan h]
  simp [htarn, hside, hpoison, hspan]

theorem exec_setSpan_rejected (hspan : s.spanOf (s.qp q).ctx (s.spanWords (cAddr d) bytes) = none) :
    exec (.setSpan q k bytes) s = .next (s.rejectDesc q k 0x0813 0) := by
  obtain ⟨htarn, hside, hpoison⟩ := hready
  rw [exec_setSpan h]
  simp [htarn, hside, hpoison, hspan]

end

end

section
variable (h : s.startedCtl q k 5 = some d)
include h

theorem exec_spillHandle : exec (.spillHandle q k) s =
    if 4608 ≤ cCluster d ∨ (bitsOf d 153 152 = 0 ∧ cAddr d ≠ 0) then .next (s.rejectDesc q k 0x0813 0)
    else if !s.ctxCluster (s.qp q).ctx (cCluster d) then .next (s.failDesc q k stAddress 0)
    else if bitsOf d 153 152 ≠ 0 ∧ cAddr d % 4096 ≠ 0 then .next (s.failDesc q k stAlign 0)
    else if bitsOf d 153 152 ≠ 0 ∧ s.backingOk (s.qp q).ctx (bitsOf d 153 152) (cAddr d) (s.spillBytes (s.qp q).ctx d) = false then
      .next (s.failDesc q k stAddress 0)
    else .next (s.defer q k (.spill (cCluster d) (cHandle d) (bitsOf d 153 152) (cAddr d))) := by
  change execSpillHandle q k s = _
  unfold execSpillHandle
  rw [h]
  rfl

theorem exec_spillHandle_rejected (hrej : 4608 ≤ cCluster d ∨ (bitsOf d 153 152 = 0 ∧ cAddr d ≠ 0)) :
    exec (.spillHandle q k) s = .next (s.rejectDesc q k 0x0813 0) := by
  rw [exec_spillHandle h]
  exact if_pos hrej

/-- A SPILL_HANDLE that names a cluster with a tarn, and a page or no address, ends by its backing alone. -/
theorem exec_spillHandle_shaped (hshaped : cCluster d < 4608 ∧ (bitsOf d 153 152 = 0 → cAddr d = 0) ∧
    s.ctxCluster (s.qp q).ctx (cCluster d) = true ∧ (bitsOf d 153 152 ≠ 0 → cAddr d % 4096 = 0)) : exec (.spillHandle q k) s =
      if bitsOf d 153 152 ≠ 0 ∧ s.backingOk (s.qp q).ctx (bitsOf d 153 152) (cAddr d) (s.spillBytes (s.qp q).ctx d) = false then
        .next (s.failDesc q k stAddress 0)
      else .next (s.defer q k (.spill (cCluster d) (cHandle d) (bitsOf d 153 152) (cAddr d))) := by
  obtain ⟨hc, hzero, hcl, halign⟩ := hshaped
  rw [exec_spillHandle h, if_neg (by rintro (hbad | ⟨htier, haddr⟩); exacts [Nat.not_le.mpr hc hbad, haddr (hzero htier)]), if_neg (by simp [hcl]),
    if_neg (by rintro ⟨htier, haddr⟩; exact haddr (halign htier))]

end

section
variable (h : s.startedCtl q k 6 = some d)
include h

theorem exec_restoreHandle : exec (.restoreHandle q k) s =
    if 4608 ≤ cCluster d then .next (s.rejectDesc q k 0x0813 0)
    else if !s.ctxCluster (s.qp q).ctx (cCluster d) then .next (s.failDesc q k stAddress 0)
    else .next (s.defer q k (.restore (cCluster d) (cHandle d))) := by
  change execRestoreHandle q k s = _
  unfold execRestoreHandle
  rw [h]

theorem exec_restoreHandle_named (hc : cCluster d < 4608) : exec (.restoreHandle q k) s =
    if !s.ctxCluster (s.qp q).ctx (cCluster d) then .next (s.failDesc q k stAddress 0)
    else .next (s.defer q k (.restore (cCluster d) (cHandle d))) := by
  rw [exec_restoreHandle h]
  exact if_neg (Nat.not_le.mpr hc)

end

end

/-! ## A change takes effect (R89, R95, R404) -/

theorem applyChange_param (s : State) (y n : Nat) (v : Word) :
    ((s.applyChange y none (.param n v)).ctx y).params = setParamOf (s.ctx y).params n v := by
  have hparams := (onlyJournals_record s (s.ctx y).part y 0 (.ctl n (paramOf (s.ctx y).params n) v)).ctx_field Ctx.params (fun _ _ => rfl) y
  change (((s.record (s.ctx y).part y 0 (.ctl n (paramOf (s.ctx y).params n) v)).modCtx y _).ctx y).params = _
  rw [State.modCtx_eq, State.setCtx_ctx_same]
  exact congrArg (fun ps => setParamOf ps n v) hparams

theorem applyChange_span (s : State) (y n : Nat) (sp : Span) :
    (s.applyChange y none (.span n sp)).ctx y = { s.ctx y with spans := Tbl.set (fun _ => {}) (s.ctx y).spans n sp } :=
  State.setCtx_ctx_same _ _ _

end Sys2Proof.Machine

namespace Sys2Proof.Machine
open Sys2Proof

/-! ## Fields of a handle entry (Table 3.6) -/

/-- Bits [lo + w - 1:lo] of a number replaced by v. -/
def putBits (x lo w v : Nat) : Nat := x - x / 2 ^ lo % 2 ^ w * 2 ^ lo + v * 2 ^ lo

/-- A number is the bits above a field, the field, and the bits below it. -/
theorem split_field (x lo w : Nat) : x = 2 ^ lo * (2 ^ w * (x / 2 ^ (lo + w)) + x / 2 ^ lo % 2 ^ w) + x % 2 ^ lo := by
  rw [pow_add, ← Nat.div_div_eq_div_mul, Nat.div_add_mod, Nat.div_add_mod]

theorem putBits_eq (x lo w v : Nat) : putBits x lo w v = 2 ^ lo * (2 ^ w * (x / 2 ^ (lo + w)) + v) + x % 2 ^ lo := by
  have hx := split_field x lo w
  unfold putBits
  rw [Nat.mul_add] at hx ⊢
  rw [Nat.mul_comm _ (2 ^ lo), Nat.mul_comm v]
  omega

theorem testBit_putBits {v w : Nat} (hv : v < 2 ^ w) (x lo j : Nat) :
    (putBits x lo w v).testBit j = if j < lo then x.testBit j else if j < lo + w then v.testBit (j - lo) else x.testBit j := by
  rw [putBits_eq, Nat.testBit_two_pow_mul_add _ (Nat.mod_lt _ (Nat.two_pow_pos lo)), Nat.testBit_two_pow_mul_add _ hv, Nat.testBit_mod_two_pow,
    Nat.testBit_div_two_pow]
  by_cases hlo : j < lo
  · simp [hlo]
  · by_cases hin : j < lo + w
    · simp [hlo, hin, show j - lo < w by omega]
    · simp [hlo, hin, show ¬j - lo < w by omega, show j - lo - w + (lo + w) = j by omega]

section
variable {v w : Nat} (hv : v < 2 ^ w) (x lo : Nat)
include hv

theorem putBits_lt {n : Nat} (hx : x < 2 ^ n) (hn : lo + w ≤ n) : putBits x lo w v < 2 ^ n := by
  refine Nat.lt_pow_two_of_testBit _ fun j hj => ?_
  rw [testBit_putBits hv, if_neg (by omega), if_neg (by omega)]
  exact Nat.testBit_lt_two_pow (lt_of_lt_of_le hx (Nat.pow_le_pow_right (by decide) hj))

theorem putBits_field_same : putBits x lo w v / 2 ^ lo % 2 ^ w = v := by
  rw [putBits_eq, Nat.mul_add_div (Nat.two_pow_pos lo), Nat.div_eq_of_lt (Nat.mod_lt _ (Nat.two_pow_pos lo)), Nat.add_zero,
    Nat.mul_add_mod, Nat.mod_eq_of_lt hv]

theorem putBits_field_ne {lo' w' : Nat} (h : lo' + w' ≤ lo ∨ lo + w ≤ lo') : putBits x lo w v / 2 ^ lo' % 2 ^ w' = x / 2 ^ lo' % 2 ^ w' := by
  refine Nat.eq_of_testBit_eq fun j => ?_
  rw [Nat.testBit_mod_two_pow, Nat.testBit_mod_two_pow, Nat.testBit_div_two_pow, Nat.testBit_div_two_pow, testBit_putBits hv]
  by_cases hj : j < w'
  · rcases h with h | h
    · rw [if_pos (show j + lo' < lo by omega)]
    · rw [if_neg (show ¬j + lo' < lo by omega), if_neg (show ¬j + lo' < lo + w by omega)]
  · simp [hj]

end

theorem field_le (x lo w : Nat) : x / 2 ^ lo % 2 ^ w * 2 ^ lo ≤ x :=
  (Nat.mul_le_mul_right _ (Nat.mod_le _ _)).trans (Nat.div_mul_le_self x (2 ^ lo))

/-- A field put into a number that has the same field as another one. -/
theorem putBits_of_field {x y lo w : Nat} (h : y / 2 ^ lo % 2 ^ w = x / 2 ^ lo % 2 ^ w) (v : Nat) :
    putBits y lo w v = y - x / 2 ^ lo % 2 ^ w * 2 ^ lo + v * 2 ^ lo := by
  rw [putBits, h]

/-- Three fields, each above the last, replaced one after the other or all at once. -/
theorem putBits_three {x a b c w₁ w₂ w₃ v₁ v₂ v₃ : Nat} (hab : a + w₁ ≤ b) (hbc : b + w₂ ≤ c) (h₁ : v₁ < 2 ^ w₁) (h₂ : v₂ < 2 ^ w₂) :
    putBits (putBits (putBits x a w₁ v₁) b w₂ v₂) c w₃ v₃ =
      x - x / 2 ^ a % 2 ^ w₁ * 2 ^ a - x / 2 ^ b % 2 ^ w₂ * 2 ^ b - x / 2 ^ c % 2 ^ w₃ * 2 ^ c + v₁ * 2 ^ a + v₂ * 2 ^ b + v₃ * 2 ^ c := by
  have hstep (u₁ u₂ u₃ : Nat) (k₁ : u₁ < 2 ^ w₁) (k₂ : u₂ < 2 ^ w₂) :
      putBits (putBits x a w₁ u₁) b w₂ u₂ = x - x / 2 ^ a % 2 ^ w₁ * 2 ^ a + u₁ * 2 ^ a - x / 2 ^ b % 2 ^ w₂ * 2 ^ b + u₂ * 2 ^ b ∧
      putBits (putBits (putBits x a w₁ u₁) b w₂ u₂) c w₃ u₃ =
        putBits (putBits x a w₁ u₁) b w₂ u₂ - x / 2 ^ c % 2 ^ w₃ * 2 ^ c + u₃ * 2 ^ c := by
    refine ⟨putBits_of_field (putBits_field_ne k₁ x a (.inr hab)) u₂, putBits_of_field ?_ u₃⟩
    rw [putBits_field_ne k₂ _ b (.inr hbc), putBits_field_ne k₁ x a (.inr (by omega))]
  have h0 := Nat.two_pow_pos w₁
  have hle₁ := field_le x a w₁
  have hle₂ := field_le (putBits x a w₁ 0) b w₂
  have hle₃ := field_le (putBits (putBits x a w₁ 0) b w₂ 0) c w₃
  rw [putBits_field_ne h0 x a (.inr hab), putBits] at hle₂
  rw [putBits_field_ne (Nat.two_pow_pos w₂) _ b (.inr hbc), putBits_field_ne h0 x a (.inr (by omega)), (hstep 0 0 0 h0 (Nat.two_pow_pos w₂)).1] at hle₃
  rw [(hstep v₁ v₂ v₃ h₁ h₂).2, (hstep v₁ v₂ v₃ h₁ h₂).1]
  omega

/-- The three fields of an entry's backing are put in one after the other. -/
theorem withBacking_toNat (e : HandleEntry) {tier addr bitmap : Nat} (ht : tier < 2 ^ 2) (ha : addr < 2 ^ 52) (hm : bitmap < 2 ^ 52) :
    (withBacking e tier addr bitmap).toNat = putBits (putBits (putBits e.toNat 58 2 tier) 64 52 addr) 128 52 bitmap := by
  have hlt := putBits_lt hm _ 128 (putBits_lt ha _ 64 (putBits_lt ht _ 58 e.isLt (by omega)) (by omega)) (by omega)
  have heq := putBits_three (x := e.toNat) (c := 128) (w₃ := 52) (v₃ := bitmap) (show 58 + 2 ≤ 64 by omega) (show 64 + 52 ≤ 128 by omega) ht ha
  unfold withBacking
  rw [BitVec.toNat_ofNat]
  exact (congrArg (· % 2 ^ 256) heq.symm).trans (Nat.mod_eq_of_lt hlt)

theorem nextGen_toNat (old e : HandleEntry) : (nextGen old e).toNat = putBits e.toNat 192 16 ((hGen old + 1) % 65536) := by
  have hgen : (hGen old + 1) % 65536 < 2 ^ 16 := Nat.mod_lt _ (by omega)
  have hlt := putBits_lt hgen _ 192 e.isLt (by omega)
  unfold nextGen
  rw [BitVec.toNat_ofNat]
  exact Nat.mod_eq_of_lt hlt

theorem withBacking_backing (e : HandleEntry) {tier addr bitmap : Nat} (ht : tier < 2 ^ 2) (ha : addr < 2 ^ 52) (hm : bitmap < 2 ^ 52) :
    hBacking (withBacking e tier addr bitmap) = tier ∧ hBackAddr (withBacking e tier addr bitmap) = addr ∧
      hBitmap (withBacking e tier addr bitmap) = bitmap := by
  unfold hBacking hBackAddr hBitmap bitsOf
  rw [withBacking_toNat e ht ha hm]
  refine ⟨?_, ?_, putBits_field_same hm _ 128⟩
  · rw [putBits_field_ne hm _ 128 (.inl (by omega)), putBits_field_ne ha _ 64 (.inl (by omega))]
    exact putBits_field_same ht _ 58
  · rw [putBits_field_ne hm _ 128 (.inl (by omega))]
    exact putBits_field_same ha _ 64

/-- A new generation leaves an entry's backing alone. -/
theorem nextGen_backing (old e : HandleEntry) :
    hBacking (nextGen old e) = hBacking e ∧ hBackAddr (nextGen old e) = hBackAddr e ∧ hBitmap (nextGen old e) = hBitmap e := by
  have hgen : (hGen old + 1) % 65536 < 2 ^ 16 := Nat.mod_lt _ (by omega)
  unfold hBacking hBackAddr hBitmap bitsOf
  rw [nextGen_toNat]
  exact ⟨putBits_field_ne hgen _ 192 (.inl (by omega)), putBits_field_ne hgen _ 192 (.inl (by omega)), putBits_field_ne hgen _ 192 (.inl (by omega))⟩

/-! ## A context's handles and rows, where it is resident and where it is saved (R89, R100) -/

section
variable (s : State) (x c h : Nat)

theorem setCtxHandle_resident (e : HandleEntry) : (s.setCtxHandle x c h e).isResident x = s.isResident x := by
  unfold State.setCtxHandle
  split
  · rfl
  · unfold State.isResident
    simp

theorem handle_writeHandle (e : HandleEntry) : (s.writeHandle c h e).handle c h = nextGen (s.handle c h) e := by
  unfold State.writeHandle State.handle
  rw [State.modCl_eq, State.setCl_cl_same]
  exact Tbl.get_set_same _ _ _ _

/-- An entry written reads back with the generation that follows the entry before it. -/
theorem ctxHandle_setCtxHandle (e : HandleEntry) : (s.setCtxHandle x c h e).ctxHandle x c h = nextGen (s.ctxHandle x c h) e := by
  have hres := setCtxHandle_resident s x c h e
  unfold State.ctxHandle
  rw [hres]
  unfold State.setCtxHandle
  cases s.isResident x
  · simp only [Bool.false_eq_true, if_false, State.modCtx_eq, State.setCtx_ctx_same]
    cases (s.ctx x).save <;> simp
    rfl
  · exact handle_writeHandle s c h e

theorem setCtxHandle_ctxRow (e : HandleEntry) (n : Nat) : (s.setCtxHandle x c h e).ctxRow x c n = s.ctxRow x c n := by
  have hres := setCtxHandle_resident s x c h e
  unfold State.ctxRow
  rw [hres]
  unfold State.setCtxHandle
  cases s.isResident x
  · simp
  · rfl

theorem setCtxRow_resident (n : Nat) (r : TarnRow) : (s.setCtxRow x c n r).isResident x = s.isResident x := by
  unfold State.setCtxRow
  split
  · rfl
  · unfold State.isResident
    simp

/-- A row written reads back, and no other row of the cluster has changed. -/
theorem ctxRow_setCtxRow (n m : Nat) (r : TarnRow) : (s.setCtxRow x c n r).ctxRow x c m = if m = n then r else s.ctxRow x c m := by
  have hkey : rowKey c m = rowKey c n ↔ m = n := by
    unfold rowKey
    omega
  have hres := setCtxRow_resident s x c n r
  unfold State.ctxRow
  rw [hres]
  unfold State.setCtxRow
  cases s.isResident x
  · simp only [Bool.false_eq_true, if_false, State.modCtx_eq, State.setCtx_ctx_same, Option.getD_some, Tbl.get_set, hkey]
  · simp only [if_true, State.trow, State.setTrow, Tbl.get_set, hkey]

end

/-! ## The way of a handle ends (R97, R100, R101) -/

/-- t differs from s in rows of tarn and in contexts alone. -/
def OnlyRowsAndCtxs (s t : State) : Prop := t = { s with tarn := t.tarn, ctxs := t.ctxs }

theorem OnlyRowsAndCtxs.trans {s t u : State} (hst : OnlyRowsAndCtxs s t) (htu : OnlyRowsAndCtxs t u) : OnlyRowsAndCtxs s u := by
  unfold OnlyRowsAndCtxs at *
  rw [htu, hst]

theorem onlyRowsAndCtxs_setCtxRow (s : State) (x c n : Nat) (r : TarnRow) : OnlyRowsAndCtxs s (s.setCtxRow x c n r) := by
  unfold State.setCtxRow
  split
  · rfl
  · rfl

/-- Row k of a spilled handle as it comes back to tarn: with the data and the tag of its backing, POISONED where those are poisoned. -/
def State.rowBack (s : State) (e : HandleEntry) (k : Nat) : TarnRow :=
  { data := BitVec.ofNat 4096 (s.readNat (spillAddr e k) 512),
    tag := if s.readsPoison (spillAddr e k) 512 then .poisoned else s.bitmapTag e k }

theorem restoreRow_eq (s : State) (x c : Nat) (e : HandleEntry) (k : Nat) : s.restoreRow x c e k = s.setCtxRow x c (hBase e + k) (s.rowBack e k) := rfl

theorem rowBack_congr {s t : State} (h : OnlyRowsAndCtxs s t) (e : HandleEntry) (k : Nat) : t.rowBack e k = s.rowBack e k := by
  have hbyte (a : Nat) : t.byte a = s.byte a := by
    rw [h]
    rfl
  have hpoison (a n : Nat) : t.readsPoison a n = s.readsPoison a n := by
    rw [h]
    rfl
  unfold State.rowBack State.bitmapTag
  rw [readNat_congr hbyte, hpoison, hbyte]

/-- The first n rows of a spilled handle come back to tarn. -/
def State.rowsBack (s : State) (x c : Nat) (e : HandleEntry) (n : Nat) : State :=
  (List.range n).foldl (fun (t : State) k => t.restoreRow x c e k) s

theorem rowsBack_succ (s : State) (x c : Nat) (e : HandleEntry) (n : Nat) :
    s.rowsBack x c e (n + 1) = (s.rowsBack x c e n).setCtxRow x c (hBase e + n) ((s.rowsBack x c e n).rowBack e n) := by
  unfold State.rowsBack
  rw [List.range_succ, List.foldl_append]
  exact restoreRow_eq _ x c e n

theorem onlyRowsAndCtxs_rowsBack (s : State) (x c : Nat) (e : HandleEntry) (n : Nat) : OnlyRowsAndCtxs s (s.rowsBack x c e n) := by
  induction n with
  | zero => rfl
  | succ n ih =>
    rw [rowsBack_succ]
    exact ih.trans (onlyRowsAndCtxs_setCtxRow _ x c _ _)

theorem rowsBack_ctxRow (s : State) (x c : Nat) (e : HandleEntry) {n k : Nat} (hk : k < n) :
    (s.rowsBack x c e n).ctxRow x c (hBase e + k) = s.rowBack e k := by
  induction n with
  | zero => omega
  | succ n ih =>
    rw [rowsBack_succ, ctxRow_setCtxRow]
    by_cases hlast : k = n
    · subst hlast
      rw [if_pos rfl]
      exact rowBack_congr (onlyRowsAndCtxs_rowsBack s x c e k) e k
    · rw [if_neg (by omega)]
      exact ih (by omega)

/-- Every row of a handle has been written to its backing, and the entry names it. -/
def State.spilled (s : State) (x c h : Nat) (tr : Transit) : State :=
  let e := s.ctxHandle x c h
  let back := withBacking e tr.backing tr.addr tr.bitmap
  ((List.range (hCount e)).foldl (fun (t : State) k => t.spillRow x c e back k) s).setCtxHandle x c h back

/-- Every row of a handle is back in tarn, and the entry names no backing. -/
def State.restored (s : State) (x c h : Nat) : State :=
  let e := s.ctxHandle x c h
  (s.rowsBack x c e (hCount e)).setCtxHandle x c h (withBacking e 0 0 0)

section
variable (s : State) (x c h : Nat)

/-- No handle of context x is on its way. -/
def State.transitOver (s : State) (x : Nat) : State := s.modCtx x (fun v => { v with transit := none })

theorem transitOver_ctx : (s.transitOver x).ctx x = { s.ctx x with transit := none } := State.setCtx_ctx_same _ _ _

theorem transitOver_resident : (s.transitOver x).isResident x = s.isResident x := by
  unfold State.isResident
  rw [transitOver_ctx]
  rfl

theorem transitOver_ctxHandle : (s.transitOver x).ctxHandle x c h = s.ctxHandle x c h := by
  unfold State.ctxHandle
  rw [transitOver_resident, transitOver_ctx]
  rfl

theorem transitOver_ctxRow (n : Nat) : (s.transitOver x).ctxRow x c n = s.ctxRow x c n := by
  unfold State.ctxRow
  rw [transitOver_resident, transitOver_ctx]
  rfl

end

/-- The way of handle h of context x on cluster c is over. -/
def State.arrived (s : State) (x c h : Nat) (tr : Transit) : State :=
  (if tr.spill then s.spilled x c h tr else s.restored x c h).transitOver x

section
variable {s : State} {x c h : Nat} {tr : Transit}

theorem exec_transitEnd_none (hnone : s.transitOf c h = none) : exec (.transitEnd c h) s = .next s := by
  change execTransitEnd c h s = _
  unfold execTransitEnd
  rw [hnone]

theorem exec_transitEnd {qk : Option (Nat × Nat)} (hway : s.transitOf c h = some (x, qk, tr)) :
    exec (.transitEnd c h) s = .next (((s.arrived x c h tr).closeDesc qk stOk 0).boundaryWork (s.ctx x).part) := by
  change execTransitEnd c h s = _
  unfold execTransitEnd
  rw [hway]
  rfl

theorem arrived_transit : ((s.arrived x c h tr).ctx x).transit = none := by
  unfold State.arrived
  rw [transitOver_ctx]

/-- After a spill the context's entry names the backing the spill went to. -/
theorem arrived_spilled (hspill : tr.spill = true) (ht : tr.backing < 4) (ha : tr.addr < 2 ^ 52) (hm : tr.bitmap < 2 ^ 52) :
    hBacking ((s.arrived x c h tr).ctxHandle x c h) = tr.backing ∧ hBackAddr ((s.arrived x c h tr).ctxHandle x c h) = tr.addr ∧
      hBitmap ((s.arrived x c h tr).ctxHandle x c h) = tr.bitmap := by
  obtain ⟨hback, haddr, hbits⟩ := withBacking_backing (s.ctxHandle x c h) ht ha hm
  rw [State.arrived, if_pos hspill, transitOver_ctxHandle, State.spilled, ctxHandle_setCtxHandle]
  obtain ⟨kback, kaddr, kbits⟩ := nextGen_backing
    (((List.range (hCount (s.ctxHandle x c h))).foldl
      (fun (t : State) k => t.spillRow x c (s.ctxHandle x c h) (withBacking (s.ctxHandle x c h) tr.backing tr.addr tr.bitmap) k) s).ctxHandle x c h)
    (withBacking (s.ctxHandle x c h) tr.backing tr.addr tr.bitmap)
  exact ⟨kback.trans hback, kaddr.trans haddr, kbits.trans hbits⟩

/-- After a restore the context's entry is resident, and its rows hold what their backing held. -/
theorem arrived_restored (hspill : tr.spill = false) : hBacking ((s.arrived x c h tr).ctxHandle x c h) = 0 ∧
    ∀ k, k < hCount (s.ctxHandle x c h) → (s.arrived x c h tr).ctxRow x c (hBase (s.ctxHandle x c h) + k) = s.rowBack (s.ctxHandle x c h) k := by
  rw [State.arrived, if_neg (by simp [hspill]), State.restored]
  refine ⟨?_, fun k hk => ?_⟩
  · rw [transitOver_ctxHandle, ctxHandle_setCtxHandle, (nextGen_backing _ _).1]
    exact (withBacking_backing _ (by omega) (by omega) (by omega)).1
  · rw [transitOver_ctxRow, setCtxHandle_ctxRow]
    exact rowsBack_ctxRow s x c _ hk

end

/-- An entry written for a resident context stands in the cluster's table, its generation one above the old entry's (R89). -/
theorem applyChange_handle {s : State} {y c h : Nat} {e : HandleEntry} (hres : s.isResident y = true) (hfits : s.ctxFits y c h e = true)
    (hgen : hGen e = 0) : (s.applyChange y none (.handle c h e)).handle c h =
      BitVec.ofNat 256 (e.toNat + (hGen (s.handle c h) + 1) % 65536 * 2 ^ 192) := by
  have hset : s.applyChange y none (.handle c h e) = s.writeHandle c h e := (if_pos hfits).trans (if_pos hres)
  rw [hset, handle_writeHandle, nextGen, hgen]
  norm_num

/-! ## Each operation ends by the first check that fails, or waits for the boundary -/

section
variable {q k : Nat} {s : State} {d : Desc}

theorem setParam_checked (h : s.startedCtl q k 1 = some d) :
    (paramOk (bitsOf d 135 128) (d.extractLsb' 256 64) = true →
      Defers s (.setParam q k) q k (.param (bitsOf d 135 128) (d.extractLsb' 256 64))) ∧
    (paramOk (bitsOf d 135 128) (d.extractLsb' 256 64) = false → Ends s (.setParam q k) q k stRejected 0x0813 0) :=
  ⟨fun hok => defers_of_defer ((exec_setParam h).trans (if_pos hok)),
    fun hbad => ends_of_rejectDesc ((exec_setParam h).trans (if_neg (by simp [hbad])))⟩

theorem spillHandle_shaped (h : s.startedCtl q k 5 = some d) (hshaped : cCluster d < 4608 ∧ (bitsOf d 153 152 = 0 → cAddr d = 0) ∧
    s.ctxCluster (s.qp q).ctx (cCluster d) = true ∧ (bitsOf d 153 152 ≠ 0 → cAddr d % 4096 = 0)) :
    (bitsOf d 153 152 ≠ 0 → s.backingOk (s.qp q).ctx (bitsOf d 153 152) (cAddr d) (s.spillBytes (s.qp q).ctx d) = false →
      Ends s (.spillHandle q k) q k stAddress (Config.statusCode stAddress % 65536) 0) ∧
    ((bitsOf d 153 152 ≠ 0 → s.backingOk (s.qp q).ctx (bitsOf d 153 152) (cAddr d) (s.spillBytes (s.qp q).ctx d) = true) →
      Defers s (.spillHandle q k) q k (.spill (cCluster d) (cHandle d) (bitsOf d 153 152) (cAddr d))) := by
  refine ⟨fun htier hbad => ends_of_failDesc ((exec_spillHandle_shaped h hshaped).trans (if_pos ⟨htier, hbad⟩)),
    fun hok => defers_of_defer ((exec_spillHandle_shaped h hshaped).trans (if_neg ?_))⟩
  rintro ⟨htier, hbad⟩
  exact Bool.false_ne_true (hbad.symm.trans (hok htier))

end

/-- Settles O32: each operation ends at once by the first check that fails, or waits for the boundary; there a change writes the field it
names, and a handle on its way arrives with its entry and its rows. -/
theorem contextControl : Obligations.ContextControl := by
  unfold Obligations.ContextControl
  constructor
  case left =>
    intro q k s d x
    refine ⟨setParam_checked, fun h => ⟨?_, ?_, ?_, ?_⟩, fun bytes h => ⟨?_, ?_, ?_, ?_⟩, fun h => ⟨?_, ?_, ?_⟩, fun h => ⟨?_, ?_, ?_⟩,
      applyChange_param s, applyChange_span s, fun y c h e => applyChange_handle⟩
    · exact fun hrej => ends_of_rejectDesc (exec_setHandle_rejected h hrej)
    · exact fun hc hcl => ends_of_failDesc (exec_setHandle_noTarn h hc hcl)
    · exact fun hrej hcl hbad => ends_of_failDesc ((exec_setHandle_checked h hrej hcl).trans (if_neg (ne_true_of_eq_false hbad)))
    · exact fun hrej hcl hok => defers_of_defer ((exec_setHandle_checked h hrej hcl).trans (if_pos hok))
    · exact fun htarn => ends_of_failDesc (exec_setSpan_tarn h htarn)
    · exact fun htarn hside => ends_of_failDesc (exec_setSpan_unreachable h htarn hside)
    · exact fun sp hready hspan => defers_of_defer (exec_setSpan_defined h hready hspan)
    · exact fun hready hspan => ends_of_rejectDesc (exec_setSpan_rejected h hready hspan)
    · exact fun hrej => ends_of_rejectDesc (exec_spillHandle_rejected h hrej)
    · exact fun hshaped => (spillHandle_shaped h hshaped).1
    · exact fun hshaped => (spillHandle_shaped h hshaped).2
    · exact fun hc => ends_of_rejectDesc ((exec_restoreHandle h).trans (if_pos hc))
    · exact fun hc hcl => ends_of_failDesc ((exec_restoreHandle_named h hc).trans (if_pos (by rw [hcl]; rfl)))
    · exact fun hc hcl => defers_of_defer ((exec_restoreHandle_named h hc).trans (if_neg (by rw [hcl]; exact Bool.false_ne_true)))
  case right =>
    intro c h s
    refine ⟨exec_transitEnd_none, fun x qk tr hway => ?_⟩
    exact ⟨s.arrived x c h tr, exec_transitEnd hway, arrived_transit, arrived_spilled, arrived_restored⟩

end Sys2Proof.Machine

namespace Sys2Proof.Machine
open Sys2Proof

/-! ## Granules of finite products (R135, R137) -/

/-- The signed integer of a sign and a magnitude: what `signedAt` scales. -/
def signedInt (neg : Bool) (m : Nat) : Int := if neg then -(m : Int) else m

theorem signedInt_xor_mul (a b : Bool) (m n : Nat) : signedInt (a ^^ b) (m * n) = signedInt a m * signedInt b n := by
  cases a <;> cases b <;> simp [signedInt]

theorem signedInt_natAbs (v : Int) : signedInt (decide (v < 0)) v.natAbs = v := by
  simp only [signedInt, decide_eq_true_eq]
  omega

/-- Integers multiply as themselves, in units of 1. -/
theorem unitsOf_ofInt_mul_ofInt (x y : Int) : unitsOf 0 ((Val.ofInt x).mul (Val.ofInt y)) = x * y := by
  have hunits : unitsOf 0 ((Val.ofInt x).mul (Val.ofInt y)) =
      signedInt (decide (x < 0) ^^ decide (y < 0)) (x.natAbs * y.natAbs) * 2 ^ (0 + 0 - 0 : Int).toNat := rfl
  rw [hunits, signedInt_xor_mul, signedInt_natAbs, signedInt_natAbs]
  simp

/-- A finite product sets no flag. -/
theorem specialOf_of_finite {p : Val} (h : p.special = false) : specialOf p = {} := by
  cases p with
  | fin => rfl
  | nan | inf => cases h

theorem Granule.join_value (g : Granule) (x : Int) : g.join { v := x } = { g with v := g.v + x } := by
  simp [Granule.join]

/-- Finite products add their exact units to what a granule holds, and set no flag of it. -/
theorem foldl_join_of_finite (f : Nat) (ps : List Val) (g : Granule) (h : ∀ p ∈ ps, p.special = false) :
    ps.foldl (fun (g : Granule) p => g.join { specialOf p with v := unitsOf (windowL f) p }) g =
      { g with v := g.v + (ps.map (unitsOf (windowL f))).sum } := by
  induction ps generalizing g with
  | nil => simp
  | cons p ps ih =>
    obtain ⟨hp, hps⟩ := List.forall_mem_cons.mp h
    rw [List.foldl_cons, specialOf_of_finite hp, Granule.join_value, ih _ hps, List.map_cons, List.sum_cons, Int.add_assoc]

/-- A granule of finite products is their exact sum (R135). -/
theorem granuleExact_of_finite (f : Nat) (ps : List Val) (h : ∀ p ∈ ps, p.special = false) :
    granuleExact f ps = { v := (ps.map (unitsOf (windowL f))).sum } := by
  exact (foldl_join_of_finite f ps {} h).trans (by rw [Int.zero_add])

/-- The two's-complement integer of an INT8 element (Table 4.1). -/
def int8 (e : Nat) : Int := if 128 ≤ e then (e : Int) - 256 else e

theorem decodeElem_int8 (e : Nat) : decodeElem 9 e = .ofInt (int8 e) := rfl

theorem laneProducts_int8 (w a : List Nat) :
    laneProducts 9 w a = (w.zip a).map (fun p => (Val.ofInt (int8 p.1)).mul (.ofInt (int8 p.2))) := rfl

/-- The granule of an INT8 lane is the exact dot product of its integers. -/
theorem granuleExact_int8 (w a : List Nat) :
    granuleExact 9 (laneProducts 9 w a) = { v := ((w.zip a).map (fun p => int8 p.1 * int8 p.2)).sum } := by
  have hfinite : ∀ p ∈ laneProducts 9 w a, p.special = false := by
    rw [laneProducts_int8]
    exact List.forall_mem_map.mpr fun _ _ => rfl
  rw [granuleExact_of_finite 9 _ hfinite, laneProducts_int8, List.map_map]
  congr 3
  funext p
  exact unitsOf_ofInt_mul_ofInt _ _

/-- A granule that a cell counts adds its value and its flags. -/
theorem addGranule_counted {c : Cell} (h : c.count < 2 ^ 24) (g : Granule) :
    addGranule g c = { c with v := c.v + g.v, nan := c.nan || g.nan, posInf := c.posInf || g.posInf, negInf := c.negInf || g.negInf,
                              range := c.range || g.range, below := c.below || g.below, count := c.count + 1 } := by
  have hcount : min (c.count + 1) (2 ^ 27 - 1) = c.count + 1 := by omega
  rw [addGranule, if_neg (by omega), hcount]

/-- Two granules that a cell counts both add alike in either order. -/
theorem addGranule_comm {c : Cell} (h : c.count + 2 ≤ 2 ^ 24) (g k : Granule) :
    addGranule g (addGranule k c) = addGranule k (addGranule g c) := by
  have hcounted (x y : Granule) : addGranule x (addGranule y c) =
      { c with v := c.v + y.v + x.v, nan := c.nan || y.nan || x.nan, posInf := c.posInf || y.posInf || x.posInf,
               negInf := c.negInf || y.negInf || x.negInf, range := c.range || y.range || x.range,
               below := c.below || y.below || x.below, count := c.count + 1 + 1 } := by
    rw [addGranule_counted (c := c) (by omega) y]
    exact addGranule_counted (by simp only; omega) x
  rw [hcounted, hcounted]
  simp only [Int.add_right_comm, Bool.or_right_comm]

/-- Past the 2^24th, a granule is not added: it sets range, and the count saturates. -/
theorem addGranule_uncounted {c : Cell} (h : 2 ^ 24 ≤ c.count) (g : Granule) :
    addGranule g c = { c with range := true, count := min (c.count + 1) (2 ^ 27 - 1) } := if_pos h

/-- Settles O10: an INT8 lane's products are finite, so their granule is the exact sum; counted granules add commutatively. -/
theorem exactAccumulation : Obligations.ExactAccumulation := by
  unfold Obligations.ExactAccumulation
  exact ⟨granuleExact_int8, fun g k _ h => addGranule_comm h g k, fun g _ h => addGranule_uncounted h g⟩

end Sys2Proof.Machine

namespace Sys2Proof.Machine
open Sys2Proof

/-! ## Elements written to a row register (R47, R112, R118) -/

theorem bitRange_zero {n : Nat} (h : 0 < n) : bitRange 0 n = BitVec.ofNat 4096 (2 ^ n - 1) := by
  rw [bitRange, if_pos h, Nat.pow_zero]

/-- The bits of a whole row are every bit of it. -/
theorem bitRange_row : bitRange 0 4096 = BitVec.allOnes 4096 := by
  rw [bitRange_zero (by omega), ← BitVec.toNat_allOnes, BitVec.ofNat_toNat, BitVec.setWidth_eq]

/-- The elements of every format of Table 5.4 fill a row. -/
theorem elemWidth_mul_elemsPerRow {k : VKind} {f : Nat} (h : vecListed k f = true) : elemWidth f * elemsPerRow f = 4096 := by
  have hf : f ≤ 5 ∨ f = 9 := by
    cases k <;> simp only [vecListed, Bool.or_eq_true, beq_iff_eq] at h <;> omega
  obtain hf | rfl := hf
  · exact (by decide : ∀ n ≤ 5, elemWidth n * elemsPerRow n = 4096) f hf
  · rfl

/-- What elements written to a row register leave of the cluster: the row's bits from element k0 on, under the mask, and the counts. -/
theorem putElems_cl (s : State) (c a f k0 : Nat) (es : List (Nat × Count)) (n : Nat) :
    (s.putElems c a f k0 es n).cl c =
      { s.cl c with
        regs := (s.regsOf c).mergeBits a (bitRange (elemWidth f * k0) (elemWidth f * (k0 + es.length)))
          (BitVec.ofNat 4096 ((packRow f (es.map Prod.fst)).toNat * 2 ^ (elemWidth f * k0))),
        ev := countConv (countOf (writtenCounts ((s.regsOf c).mask a) f k0 es) n) (s.cl c).ev } := by
  simp [State.putElems, State.modRegs, State.regsOf]

theorem onlyCluster_putElems (s : State) (c a f k0 : Nat) (es : List (Nat × Count)) (n : Nat) :
    OnlyCluster s (s.putElems c a f k0 es n) c :=
  (onlyCluster_modCl s c _).trans (onlyCluster_modCl _ c _)

section
variable {s : State} {i : Issue} {legal : Bool} (h : Ready s i) (hl : legal = true) (op : Nat) {body : State → Effect}
include h hl

/-- A ready, legal instruction whose effect writes elements retires with them merged and counted. -/
theorem retires_putElems {a f k0 n : Nat} {es : List (Nat × Count)} (hbody : body s = .ok (s.putElems i.c a f k0 es n)) :
    ∃ t : State, s.retire op i legal body = .next t ∧ OnlyCluster s t i.c ∧
      Advances s t i ((s.regsOf i.c).mergeBits a (bitRange (elemWidth f * k0) (elemWidth f * (k0 + es.length)))
        (BitVec.ofNat 4096 ((packRow f (es.map Prod.fst)).toNat * 2 ^ (elemWidth f * k0)))) true (nextPc s i) ∧
      (t.cl i.c).ev = countConv (countOf (writtenCounts ((s.regsOf i.c).mask a) f k0 es) n) (s.cl i.c).ev := by
  have hcl : (s.finish i (.ok (s.putElems i.c a f k0 es n))).cl i.c =
      retireCluster true (nextPc s i) ((s.putElems i.c a f k0 es n).cl i.c) := State.setCl_cl_same _ _ _
  rw [putElems_cl] at hcl
  refine ⟨_, ready_retire h hl op body, ?_, ?_, ?_⟩ <;> rw [hbody]
  · exact (onlyCluster_putElems s i.c a f k0 es n).trans (onlyCluster_modCl _ i.c _)
  · exact advances_of_retireCluster hcl rfl rfl
  · rw [hcl]
    rfl

/-- The same for elements written from the first of the row on. -/
theorem retires_putElems_zero {a f n : Nat} {es : List (Nat × Count)} (hbody : body s = .ok (s.putElems i.c a f 0 es n)) :
    ∃ t : State, s.retire op i legal body = .next t ∧ OnlyCluster s t i.c ∧
      Advances s t i ((s.regsOf i.c).mergeBits a (bitRange 0 (elemWidth f * es.length)) (packRow f (es.map Prod.fst))) true (nextPc s i) ∧
      (t.cl i.c).ev = countConv (countOf (writtenCounts ((s.regsOf i.c).mask a) f 0 es) n) (s.cl i.c).ev := by
  simpa using retires_putElems h hl op hbody

/-- A ready, legal instruction whose effect is a trap traps. -/
theorem traps_of_body {cause sw row : Nat} (hbody : body s = .trap s cause sw row) :
    ∃ t : State, s.retire op i legal body = .next t ∧ Traps s t i cause sw row :=
  ⟨_, ready_retire h hl op body, by rw [hbody]; exact trap_traps s i cause sw row⟩

end

/-- The values of a row's elements. -/
def rowVals (f : Nat) (r : Row) : List Val := (rowElems f r).map (decodeElem f)

/-! ## The bodies of vector instructions, by their operand errors (R208 to R210) -/

section
variable {i : Issue} {s : State}

theorem bodyVcmp_listed (hdst : vcDfmt i = vcFmt i) (hmethod : vcMethod i = 0) (hlisted : vecListed .compare (vcFmt i) = true) :
    bodyVcmp i s = .ok (s.modRegs i.c (fun r => r.setMask (fA i) (elemMask (vcFmt i)
      (((rowVals (vcFmt i) ((s.regsOf i.c).row (fB i))).zip (rowVals (vcFmt i) ((s.regsOf i.c).row (fC i)))).map (fun p =>
        vcmpHolds (fF i % 8) p.1 p.2))))) := by
  rw [rowVals, rowVals, List.zip_map, List.map_map]
  exact if_neg (by simp [hdst, hmethod, hlisted])

theorem bodyVrsum_float (hsrc : vcFmt i ≤ 3) (hdst : vcDfmt i ≤ 3) :
    bodyVrsum i s = .ok (s.putElems i.c (fA i) (vcDfmt i) 0 [roundElem (vcDfmt i) (s.vcRounding i) 0
      (val64 (treeSum 8 ((rowVals (vcFmt i) ((s.regsOf i.c).row (fB i))).map rne64)))] 0) := by
  rw [rowVals, List.map_map]
  exact if_neg (by omega)

theorem rowExtreme_listed {pick : Val → Val → Val} (hdst : vcDfmt i = vcFmt i) (hlisted : vecListed .minMax (vcFmt i) = true) :
    rowExtreme pick i s = .ok (s.putElems i.c (fA i) (vcFmt i) 0 [exactElem (vcFmt i)
      (((rowVals (vcFmt i) ((s.regsOf i.c).row (fB i))).drop 1).foldl pick ((rowVals (vcFmt i) ((s.regsOf i.c).row (fB i))).headD .nan))] 0) :=
  if_neg (by simp [hdst, hlisted])

/-- An elementwise instruction without an operand error writes its row of results under the mask, counts them and retires. -/
theorem retires_elementwise {legal : Bool} (h : Ready s i) (hl : legal = true) (op : Nat) {k : VKind}
    {g : Rounding → Nat → Nat → Nat → Nat → Nat → Nat × Count} {es : List (Nat × Count)} (hdst : vcDfmt i = vcFmt i)
    (hmethod : vcMethod i = 0) (hlisted : vecListed k (vcFmt i) = true)
    (hes : (List.range (elemsPerRow (vcFmt i))).map (fun n => g (s.vcRounding i) (vcFmt i) n (elemAt (vcFmt i) ((s.regsOf i.c).row (fA i)) n)
      (elemAt (vcFmt i) ((s.regsOf i.c).row (fB i)) n) (elemAt (vcFmt i) ((s.regsOf i.c).row (fC i)) n)) = es) :
    ∃ t : State, s.retire op i legal (elementwise k g i) = .next t ∧ OnlyCluster s t i.c ∧
      Advances s t i ((s.regsOf i.c).mergeBits (fA i) (BitVec.allOnes 4096) (packRow (vcFmt i) (es.map Prod.fst))) true (nextPc s i) ∧
      (t.cl i.c).ev = countConv (countOf (writtenCounts ((s.regsOf i.c).mask (fA i)) (vcFmt i) 0 es)) (s.cl i.c).ev := by
  have hbody : elementwise k g i s = .ok (s.putElems i.c (fA i) (vcFmt i) 0 es 0) := by
    rw [← hes]
    exact if_neg (by simp [hdst, hmethod, hlisted])
  have hlength : es.length = elemsPerRow (vcFmt i) := by rw [← hes, List.length_map, List.length_range]
  have hput := retires_putElems_zero h hl op hbody
  rw [hlength, elemWidth_mul_elemsPerRow hlisted, bitRange_row] at hput
  exact hput

end

/-- VFUN is listed for FP32 alone, so its NaN results are those of the instruction's own format. -/
theorem vecFun_listed {f : Nat} (h : vecListed .approx f = true) (k : Nat) (rd : Rounding) (n a b c : Nat) :
    vecFun k rd f n a b c = (funResult k b, if decodeElem f (funResult k b) = .nan then .nanOut else .none) := by
  obtain rfl : f = 1 := beq_iff_eq.mp h
  rfl

/-- Settles O11: a body without an operand error writes its elements, or its mask, and retires; one with an operand error traps. -/
theorem vectorArithmetic : Obligations.VectorArithmetic := by
  unfold Obligations.VectorArithmetic
  refine ⟨fun i s hready hvc => ?_, fun i s hready hvc => ?_⟩
  · intro f r rd D z row a b c gives
    have hgives (x : Instr) (op : Nat) {k : VKind} {legal : Bool} (g : Rounding → Nat → Nat → Nat → Nat → Nat → Nat × Count)
        {val : Nat → Nat × Count} (hexec : exec x s = s.retire op i (legal && vcLegal i) (elementwise k g i))
        (hval : vecListed k f = true → ∀ n, g rd f n (a n) (b n) (c n) = val n) : gives x k legal val := by
      intro hl
      have hlegal : (legal && vcLegal i) = true := by rw [hl, hvc]; rfl
      rw [hexec]
      exact ⟨fun hdst hmethod hlisted => retires_elementwise hready hlegal op hdst hmethod hlisted (List.map_congr_left fun n _ => hval hlisted n),
        fun herr => traps_of_body hready hlegal op (if_pos herr)⟩
    exact ⟨hgives _ 0x70 vecAdd rfl fun _ _ => rfl, hgives _ 0x71 vecSub rfl fun _ _ => rfl, hgives _ 0x72 vecMul rfl fun _ _ => rfl,
      hgives _ 0x73 vecDiv rfl fun _ _ => rfl, hgives _ 0x74 vecMin rfl fun _ _ => rfl, hgives _ 0x75 vecMax rfl fun _ _ => rfl,
      hgives _ 0x76 vecFma rfl fun _ _ => rfl, hgives _ 0x78 vecSqrt rfl fun _ _ => rfl, hgives _ 0x79 vecAbs rfl fun _ _ => rfl,
      hgives _ 0x7A vecNeg rfl fun _ _ => rfl,
      hgives _ 0x7B (vecFun (fF i % 8)) rfl fun hlisted n => vecFun_listed hlisted (fF i % 8) rd n (a n) (b n) (c n)⟩
  · intro f g r vs first
    have hV1 (hl : formV1.legal i = true) : (formV1.legal i && vcLegal i) = true := by rw [hl, hvc]; rfl
    have hfirst (x : Instr) (op : Nat) {fmt : Nat} {e : Nat × Count} {body : State → Effect} (hl : formV1.legal i = true)
        (hexec : exec x s = s.retire op i (formV1.legal i && vcLegal i) body) (hbody : body s = .ok (s.putElems i.c (fA i) fmt 0 [e] 0)) :
        first fmt e x := by
      have hput := retires_putElems_zero hready (hV1 hl) op hbody
      rw [List.length_singleton, Nat.mul_one, ← hexec] at hput
      exact hput
    have htraps (x : Instr) (op : Nat) {legal : Bool} {body : State → Effect} (hl : legal = true)
        (hexec : exec x s = s.retire op i legal body) (hbody : body s = .trap s 0x04 0 0) :
        ∃ t : State, exec x s = .next t ∧ Traps s t i 0x04 0 0 := by
      rw [hexec]
      exact traps_of_body hready hl op hbody
    have hVcmp (hl : formVcmp.legal i = true) (hcond : fF i % 8 < 6) : (formVcmp.legal i && vcLegal i && decide (fF i % 8 < 6)) = true := by
      rw [hl, hvc, decide_eq_true hcond]; rfl
    refine ⟨fun hl hcond hdst hmethod hlisted => ?_, fun hl hcond herr => ?_, fun hl hsrc hdst => ?_, fun hl herr => ?_,
      fun hl hdst hlisted => ⟨?_, ?_⟩, fun hl herr => ⟨?_, ?_⟩⟩
    · refine ⟨_, ready_retire hready (hVcmp hl hcond) 0x77 (bodyVcmp i), ?_⟩
      rw [bodyVcmp_listed hdst hmethod hlisted]
      exact finish_ok_regs s i _
    · exact htraps _ 0x77 (hVcmp hl hcond) rfl (if_pos herr)
    · exact hfirst _ 0x7C hl rfl (bodyVrsum_float hsrc hdst)
    · exact htraps _ 0x7C (hV1 hl) rfl (if_pos herr)
    · exact hfirst _ 0x7D hl rfl (rowExtreme_listed hdst hlisted)
    · exact hfirst _ 0x7E hl rfl (rowExtreme_listed hdst hlisted)
    · exact htraps _ 0x7D (hV1 hl) rfl (if_pos herr)
    · exact htraps _ 0x7E (hV1 hl) rfl (if_pos herr)

end Sys2Proof.Machine

namespace Sys2Proof.Machine
open Sys2Proof

/-! ## How an instruction's effect ends (R39, R171, R174) -/

theorem ready_hold {s : State} {i : Issue} (h : Ready s i) : (s.cl i.c).hold = none := by
  obtain ⟨-, -, -, hhold, -⟩ := h
  exact hhold

section
variable {s : State} {i : Issue} {legal : Bool} (h : Ready s i) (hl : legal = true) (op : Nat) {body : State → Effect} {r : Regs}
include h hl

/-- A ready, legal instruction whose effect changes the register file alone retires with the file it leaves. -/
theorem retires_of_body {f : Regs → Regs} (hbody : body s = .ok (s.modRegs i.c f)) (hf : f (s.regsOf i.c) = r) :
    ∃ t : State, s.retire op i legal body = .next t ∧ Retires s t i r :=
  ⟨_, ready_retire h hl op body, by rw [hbody, ← hf]; exact finish_ok_regs s i f⟩

/-- One whose effect is a jump moves to its target, and ends no loop body. -/
theorem moves_of_body {f : Regs → Regs} {pc : Nat} (hbody : body s = .jump (s.modRegs i.c f) pc) (hf : f (s.regsOf i.c) = r) :
    ∃ t : State, s.retire op i legal body = .next t ∧ Moves s t i r false pc :=
  ⟨_, ready_retire h hl op body, by rw [hbody, ← hf]; exact finish_jump_regs s i f pc⟩

/-- One that does nothing retires with the register file as it was. -/
theorem retires_of_idle_body (hbody : body s = .ok s) : ∃ t : State, s.retire op i legal body = .next t ∧ Retires s t i (s.regsOf i.c) :=
  ⟨_, ready_retire h hl op body, by rw [hbody]; exact finish_ok s i⟩

/-- One whose effect is a wait holds, and nothing else of the panel has changed. -/
theorem waits_of_body (hbody : body s = .hold s (s.holdFor op i) true) : ∃ t : State, s.retire op i legal body = .next t ∧ Waits s t i op :=
  ⟨_, ready_retire h hl op body, by rw [hbody]; exact finish_hold op (ready_hold h)⟩

end

/-! ## Integer arithmetic (R176, R177) -/

/-- An arithmetic instruction retires with its result in s[a]. -/
theorem aluExec_retires {s : State} {i : Issue} (h : Ready s i) (hl : (formAlu i .scalar 1).legal i = true) (op : Nat) {f : Word → Word → Word}
    {w : Word} (hw : f (s.sr i.c (fB i)) (opY s i) = w) :
    ∃ t : State, aluExec op f i s = .next t ∧ Retires s t i ((s.regsOf i.c).setSreg (fA i) w) :=
  retires_of_body h hl op rfl (congrArg ((s.regsOf i.c).setSreg (fA i)) hw)

/-- A choice by a comparison is one by its decided order. -/
theorem ite_slt (x y a b : Word) : (if y.slt x then a else b) = if y.toInt < x.toInt then a else b := by
  simp only [BitVec.slt_iff_toInt_lt]

theorem ite_ult (x y a b : Word) : (if y.ult x then a else b) = if y.toNat < x.toNat then a else b := by
  simp only [BitVec.ult_iff_toNat_lt]

/-- Settles O1: every arithmetic instruction is one function of two operands, and its result is what R176 and R177 say. -/
theorem integerArithmetic : Obligations.IntegerArithmetic := by
  unfold Obligations.IntegerArithmetic
  intro i s hready hl x y n gives
  have hgives (c : Instr) (op : Nat) (f : Word → Word → Word) {w : Word} (hexec : exec c s = aluExec op f i s) (hw : f x y = w) : gives c w := by
    obtain ⟨t, hnext, hret⟩ := aluExec_retires hready hl op hw
    exact ⟨t, hexec.trans hnext, hret⟩
  exact ⟨hgives _ _ _ rfl rfl, hgives _ _ _ rfl rfl, hgives _ _ _ rfl rfl, hgives _ _ _ rfl rfl, hgives _ _ _ rfl rfl,
    hgives _ _ _ rfl rfl, hgives _ _ _ rfl rfl, hgives _ _ _ rfl rfl, hgives _ _ _ rfl rfl, hgives _ _ _ rfl rfl,
    hgives _ _ _ rfl rfl, hgives _ _ _ rfl rfl, hgives _ _ _ rfl rfl, hgives _ _ _ rfl rfl, hgives _ _ _ rfl rfl,
    hgives _ _ _ rfl (ite_slt x y y x), hgives _ _ _ rfl (ite_slt y x y x), hgives _ _ _ rfl (ite_ult x y y x), hgives _ _ _ rfl (ite_ult y x y x)⟩

/-! ## Jumps and loops (R171, R172, R174) -/

section
variable {s : State} {i : Issue}

/-- JALR to an aligned target below 2^32 links and goes there; to any other it traps (R172). -/
theorem bodyJalr_jumps (halign : (s.sr i.c (fB i) + 8 * sImm16 i).toNat % 8 = 0) (hrange : (s.sr i.c (fB i) + 8 * sImm16 i).toNat < 2 ^ 32) :
    bodyJalr i s = .jump (s.modRegs i.c (fun r => r.setSreg (fA i) (linkOf s i))) (s.sr i.c (fB i) + 8 * sImm16 i).toNat :=
  if_neg (not_or.mpr ⟨not_not.mpr halign, Nat.not_le.mpr hrange⟩)

theorem bodyJalr_traps (hbad : (s.sr i.c (fB i) + 8 * sImm16 i).toNat % 8 ≠ 0 ∨ 2 ^ 32 ≤ (s.sr i.c (fB i) + 8 * sImm16 i).toNat) :
    bodyJalr i s = .trap s 0x04 0 0 := if_pos hbad

/-- A loop without iterations, or of an empty body, is skipped. -/
theorem bodyLoop_skips (hnone : s.sr i.c (fB i) = 0 ∨ sImm32 i = 0) : bodyLoop i s = .skip s (loopEnd s i) := if_pos hnone

section
variable (hlen : 0 < sImm32 i) (hcount : s.sr i.c (fB i) ≠ 0)
include hlen hcount

theorem bodyLoop_enters (hroom : (s.regsOf i.c).loops.length < 4) : bodyLoop i s = .ok (s.modRegs i.c (fun r => { r with
    loops := { start := (s.regsOf i.c).pc.toNat + 8, fin := loopEnd s i, remaining := s.sr i.c (fB i) } :: r.loops })) :=
  (if_neg (not_or.mpr ⟨hcount, hlen.ne'⟩)).trans (if_neg (Nat.not_le.mpr hroom))

theorem bodyLoop_overflows (hfull : 4 ≤ (s.regsOf i.c).loops.length) : bodyLoop i s = .trap s 0x09 0 0 :=
  (if_neg (not_or.mpr ⟨hcount, hlen.ne'⟩)).trans (if_pos hfull)

end

/-- A LOOP of a length that is not negative carries out its body. -/
theorem exec_loop (h : Ready s i) (hl : formLoop.legal i = true) (hlen : 0 ≤ sImm32 i) : exec (.loop i) s = .next (s.finish i (bodyLoop i s)) := by
  change execLoop i s = _
  unfold execLoop
  rw [hl, decide_eq_true hlen, Bool.true_and, ready_retireWith h]

end

/-- Settles O2: each instruction of control ends in order, at a jump's target, past a loop's body or in a trap. -/
theorem controlFlow : Obligations.ControlFlow := by
  unfold Obligations.ControlFlow
  intro i s hready r link near far bodyEnd count
  refine ⟨fun hl => ?nop, fun hl => ?br, fun hl => ?jal, fun hl halign hrange => ?jalr, fun hl hbad => ?jalrTraps,
    fun hl hlen hnone => ?loopSkips, fun hl hlen hcount hroom => ?loopEnters, fun hl hlen hcount hfull => ?loopTraps, fun hl => ?trap⟩
  case nop => exact retires_of_idle_body hready hl 0x00 rfl
  case br => exact ⟨_, ready_retire hready hl 0x02 _, finish_jump s i near⟩
  case jal => exact moves_of_body hready hl 0x03 rfl rfl
  case jalr => exact moves_of_body hready hl 0x04 (bodyJalr_jumps halign hrange) rfl
  case jalrTraps => exact traps_of_body hready hl 0x04 (bodyJalr_traps hbad)
  case loopSkips =>
    refine ⟨_, exec_loop hready hl hlen, ?_⟩
    rw [bodyLoop_skips hnone]
    exact finish_skip s i _
  case loopEnters =>
    refine ⟨_, exec_loop hready hl hlen.le, ?_⟩
    rw [bodyLoop_enters hlen hcount hroom]
    exact finish_ok_regs s i _
  case loopTraps =>
    refine ⟨_, exec_loop hready hl hlen.le, ?_⟩
    rw [bodyLoop_overflows hlen hcount hfull]
    exact trap_traps s i 0x09 0 0
  case trap => exact traps_of_body hready hl 0x06 rfl

end Sys2Proof.Machine

namespace Sys2Proof.Machine
open Sys2Proof

/-! ## Conditions, predicate logic, counters (R179, R180) -/

section
variable (x y : Word) (a b : Bool)

/-- CMP's condition of each code, as an order of its operands. -/
theorem condHolds_eq : condHolds 0 x y = decide (x = y) := rfl
theorem condHolds_ne : condHolds 1 x y = decide (x ≠ y) := by
  simp [condHolds, bne, beq_eq_decide]
theorem condHolds_lt : condHolds 2 x y = decide (x.toInt < y.toInt) := rfl
theorem condHolds_ltu : condHolds 3 x y = decide (x.toNat < y.toNat) := rfl
theorem condHolds_ge : condHolds 4 x y = decide (y.toInt ≤ x.toInt) := by
  simp [condHolds, BitVec.slt_eq_decide, ← decide_not]
theorem condHolds_geu (k : Nat) : condHolds (k + 5) x y = decide (y.toNat ≤ x.toNat) := by
  simp [condHolds, BitVec.ult_eq_decide, ← decide_not]

end

/-! ## Words of row registers and masks (R181, R183) -/

section
variable {s : State} {i : Issue}

theorem bodyMovsv_reads (hk : (wordIndex s i).toNat < 64) : bodyMovsv i s =
    .ok (s.modRegs i.c (fun r => r.setSreg (fA i) ((r.row (fB i)).extractLsb' (64 * (wordIndex s i).toNat) 64))) :=
  if_neg (Nat.not_le.mpr hk)

theorem bodyMovvs_writes (hk : (wordIndex s i).toNat < 64) : bodyMovvs i s =
    .ok (s.modRegs i.c (fun r => r.mergeBits (fA i) (byteBits (8 * (wordIndex s i).toNat) 8)
      ((r.sreg (fB i)).setWidth 4096 <<< (64 * (wordIndex s i).toNat)))) :=
  if_neg (Nat.not_le.mpr hk)

theorem bodyMsk_all (hmode : fF i % 4 = 0) : bodyMsk i s = .ok (s.modRegs i.c (fun r => r.setMask (fA i) (BitVec.allOnes 512))) := by
  simp only [bodyMsk, hmode]

theorem bodyMsk_none (hmode : fF i % 4 = 1) : bodyMsk i s = .ok (s.modRegs i.c (fun r => r.setMask (fA i) 0)) := by
  simp only [bodyMsk, hmode]

theorem bodyMsk_range (hmode : fF i % 4 = 2) : bodyMsk i s = if 512 < (s.sr i.c (fC i)).toNat then .trap s 0x04 0 0
    else .ok (s.modRegs i.c (fun r => r.setMask (fA i) (maskRange (r.sreg (fB i)).toNat (r.sreg (fC i)).toNat))) := by
  simp only [bodyMsk, hmode]

theorem bodyMsk_nonZero (hmode : fF i % 4 = 3) : bodyMsk i s = .ok (s.modRegs i.c (fun r => r.setMask (fA i) (maskNonZero (r.row (fC i))))) := by
  simp only [bodyMsk, hmode]

end

/-- Settles O3: each of these changes one register of the file, or traps at the end of its range. -/
theorem scalarAndRowRegisterInstructions : Obligations.ScalarAndRowRegisterInstructions := by
  unfold Obligations.ScalarAndRowRegisterInstructions
  refine ⟨fun i s hready => ?_, fun i s hready => ?_⟩
  · intro r x y holds logic counter
    have hcond : ∀ k, condHolds k x y = holds k
      | 0 => condHolds_eq x y
      | 1 => condHolds_ne x y
      | 2 => condHolds_lt x y
      | 3 => condHolds_ltu x y
      | 4 => condHolds_ge x y
      | k + 5 => condHolds_geu x y k
    have hlogic : ∀ k, plogOp k (r.pred (fB i)) (r.pred (fC i)) = logic k
      | 0 | 1 | 2 | _ + 3 => rfl
    have hcounter : ∀ k, counterOf s i.c k = counter k
      | 0 | 1 | 2 | 3 | _ + 4 => rfl
    refine ⟨fun hl => ?li, fun hl => ?lix, fun hl hcode => ?cmp, fun hl => ?plog, fun hl hcode => ?rdcnt⟩
    case li => exact retires_of_body hready hl 0x23 rfl rfl
    case lix => exact retires_of_body hready hl 0x24 rfl rfl
    case cmp =>
      have hlegal : ((formAlu i .small 15).legal i && decide (cmpCond i < 6)) = true :=
        Bool.and_eq_true_iff.mpr ⟨hl, decide_eq_true hcode⟩
      exact retires_of_body hready hlegal 0x25 rfl (congrArg (r.setPred (fA i)) (hcond _))
    case plog => exact retires_of_body hready hl 0x26 rfl (congrArg (r.setPred (fA i)) (hlogic _))
    case rdcnt =>
      have hlegal : (formRdcnt.legal i && decide (fF i < 5)) = true :=
        Bool.and_eq_true_iff.mpr ⟨hl, decide_eq_true hcode⟩
      exact retires_of_body hready hlegal 0x27 rfl (congrArg (r.setSreg (fA i)) (hcounter _))
  · intro r k
    refine ⟨fun hl hk => ?movsv, fun hl hk => ?movsvTraps, fun hl hk => ?movvs, fun hl hk => ?movvsTraps, fun hl => ?vmov, fun hl => ?vbcast,
      fun hl hmode => ?mskAll, fun hl hmode => ?mskNone, fun hl hmode hrange => ?mskRange, fun hl hmode hrange => ?mskTraps,
      fun hl hmode => ?mskNonZero⟩
    case movsv => exact retires_of_body hready hl 0x28 (bodyMovsv_reads hk) rfl
    case movsvTraps => exact traps_of_body hready hl 0x28 (if_pos hk)
    case movvs => exact retires_of_body hready hl 0x29 (bodyMovvs_writes hk) rfl
    case movvsTraps => exact traps_of_body hready hl 0x29 (if_pos hk)
    case vmov => exact retires_of_body hready hl 0x30 rfl rfl
    case vbcast => exact retires_of_body hready hl 0x31 rfl rfl
    case mskAll => exact retires_of_body hready hl 0x32 (bodyMsk_all hmode) rfl
    case mskNone => exact retires_of_body hready hl 0x32 (bodyMsk_none hmode) rfl
    case mskRange => exact retires_of_body hready hl 0x32 ((bodyMsk_range hmode).trans (if_neg (Nat.not_lt.mpr hrange))) rfl
    case mskTraps => exact traps_of_body hready hl 0x32 ((bodyMsk_range hmode).trans (if_pos hrange))
    case mskNonZero => exact retires_of_body hready hl 0x32 (bodyMsk_nonZero hmode) rfl

end Sys2Proof.Machine

namespace Sys2Proof.Machine
open Sys2Proof

/-! ## Rows after changes of clusters alone -/

section
variable {s t v : State} {c n : Nat} (hst : NoStore t v)
include hst

theorem trow_of_noStore (j m : Nat) : v.trow j m = t.trow j m := by
  obtain ⟨htarn, -⟩ := hst
  rw [State.trow_def, htarn, State.trow_def]

theorem OnlyRow.of_noStore (h : OnlyRow s t c n) : OnlyRow s v c n := by
  obtain ⟨hrows, hmem, hpoison⟩ := h
  obtain ⟨htarn, hmem', hpoison'⟩ := hst
  exact ⟨fun k hk => htarn ▸ hrows k hk, hmem'.trans hmem, hpoison'.trans hpoison⟩

theorem RowWritten.of_noStore {d : Row} (h : RowWritten s t c n d) : RowWritten s v c n d := by
  obtain ⟨honly, hrow⟩ := h
  exact ⟨honly.of_noStore hst, (trow_of_noStore hst c n).trans hrow⟩

end

/-- An access to one row leaves the other rows of its cluster. -/
theorem OnlyRow.trow_ne {s t : State} {c n m : Nat} (h : OnlyRow s t c n) (hne : m ≠ n) : t.trow c m = s.trow c m := by
  obtain ⟨hrows, -⟩ := h
  refine hrows _ fun hkey => hne ?_
  unfold rowKey at hkey
  omega

/-- What holds every row of a cluster is a matter of partitions and regions alone. -/
theorem allHeld_congr {s t : State} (hparts : t.parts = s.parts) (hregions : t.regions = s.regions) (c : Nat) : t.allHeld c = s.allHeld c := by
  simp only [State.allHeld, State.partOf, State.part_def, State.region_def, hparts, hregions]

/-! ## Tags that block an access (Table 3.4) -/

section
variable {s : State} {c n : Nat} {e : HandleEntry} (htagged : hTagged e = true)
include htagged

theorem tagTable_readBy_blocked (hblock : s.allHeld c = true ∨ (s.trow c n).tag = .empty) (peek : Bool) :
    tagTable (readBy e peek) (s.rowTag c n) = .wait := by
  rw [readBy, if_pos htagged, State.rowTag]
  rcases hblock with hheld | hempty
  · rw [if_pos hheld]
    cases peek <;> rfl
  · rw [hempty]
    cases peek <;> cases s.allHeld c <;> rfl

theorem tagTable_writeBy_blocked (hblock : s.allHeld c = true ∨ (s.trow c n).tag = .full) : tagTable (writeBy e) (s.rowTag c n) = .wait := by
  rw [writeBy, if_pos htagged, State.rowTag]
  rcases hblock with hheld | hfull
  · rw [if_pos hheld]
    rfl
  · rw [hfull]
    cases s.allHeld c <;> rfl

end

/-! ## A row instruction's access (R92, R184, R185) -/

section
variable {s : State} {i : Issue} {op h idx : Nat} {right : Right} {a : HandleEntry → Access} {w : Row} {k : Row → State → Effect}

/-- A handle that does not let the access through: trap 0x05. -/
theorem rowEffect_refused (hok : handleOk (s.handle i.c h) (s.ctxOf i.c) right idx = false) :
    rowEffect op i s h idx right a w k = .trap s 0x05 0 0 := if_neg (ne_true_of_eq_false hok)

section
variable (hback : hBacking (s.handle i.c h) = 0) (hok : handleOk (s.handle i.c h) (s.ctxOf i.c) right idx = true)
include hback hok

theorem rowEffect_done {d : Row} {t : State}
    (hdone : s.rowAccess i.c (handleRow (s.handle i.c h) idx) (a (s.handle i.c h)) w i.u = .done d t) :
    rowEffect op i s h idx right a w k = k d t := by
  unfold rowEffect
  simp only [hok, if_true, entryAccess_resident hback, hdone]

theorem rowEffect_waits (hwait : tagTable (a (s.handle i.c h)) (s.rowTag i.c (handleRow (s.handle i.c h) idx)) = .wait) :
    rowEffect op i s h idx right a w k = .hold s (s.holdFor op i) true := by
  unfold rowEffect
  simp only [hok, if_true, entryAccess_resident hback, rowAccess_wait hwait]

end

end

section
variable {s : State} {i : Issue} (op : Nat) (peek : Bool)

theorem bodyLoad_refused (hok : handleOk (s.handle i.c (fH i)) (s.ctxOf i.c) .engineRead (rowIndex s i) = false) :
    bodyLoad op peek i s = .trap s 0x05 0 0 := rowEffect_refused hok

section
variable (hback : hBacking (s.handle i.c (fH i)) = 0) (htagged : hTagged (s.handle i.c (fH i)) = true)
include hback htagged

theorem bodyLoad_waits (hok : handleOk (s.handle i.c (fH i)) (s.ctxOf i.c) .engineRead (rowIndex s i) = true)
    (hblock : s.allHeld i.c = true ∨ (s.trow i.c (handleRow (s.handle i.c (fH i)) (rowIndex s i))).tag = .empty) :
    bodyLoad op peek i s = .hold s (s.holdFor op i) true :=
  rowEffect_waits hback hok (tagTable_readBy_blocked htagged hblock peek)

theorem bodySt_waits (hok : handleOk (s.handle i.c (fH i)) (s.ctxOf i.c) .engineWrite (rowIndex s i) = true)
    (hblock : s.allHeld i.c = true ∨ (s.trow i.c (handleRow (s.handle i.c (fH i)) (rowIndex s i))).tag = .full) :
    bodySt i s = .hold s (s.holdFor 0x42 i) true :=
  rowEffect_waits hback hok (tagTable_writeBy_blocked htagged hblock)

end

end

section
variable {s : State} {i : Issue} {n : Nat} (hn : handleRow (s.handle i.c (fH i)) (rowIndex s i) = n)
  (hback : hBacking (s.handle i.c (fH i)) = 0)
include hn hback

/-- A PK whose row is readable writes the row's data into its register and changes no tag. -/
theorem finish_pk (hok : handleOk (s.handle i.c (fH i)) (s.ctxOf i.c) .engineRead (rowIndex s i) = true)
    (hrow : Readable s i.c n (hTagged (s.handle i.c (fH i))) i.u) :
    Advances s (s.finish i (bodyPk i s)) i ((s.regsOf i.c).mergeRow (fA i) (s.trow i.c n).data) true (nextPc s i) ∧
      RowRead s (s.finish i (bodyPk i s)) i.c n (s.trow i.c n).tag := by
  have hgo := tagTable_readable hrow true
  obtain ⟨-, -, hcrc⟩ := hrow
  obtain ⟨t, hdone, htrow, honly, hcl, -⟩ := rowAccess_read (w := 0) (by cases hTagged (s.handle i.c (fH i)) <;> rfl) hgo hcrc
  subst hn
  have hread : RowRead s t i.c (handleRow (s.handle i.c (fH i)) (rowIndex s i)) (s.trow i.c (handleRow (s.handle i.c (fH i)) (rowIndex s i))).tag :=
    ⟨honly, by simpa using htrow⟩
  rw [bodyPk, bodyLoad, rowEffect_done hback hok hdone]
  exact ⟨finish_ok_after (hcl i.c) (fun r => r.mergeRow (fA i) _) (useAhead (fH i) _) (useAhead_cl (fH i) _),
    hread.of_noStore (((noStore_modCl t i.c _).trans (noStore_modCl _ i.c _)).trans (noStore_finish_ok s i _))⟩

/-- An ST whose row is writable fills the row with its register. -/
theorem finish_st (hok : handleOk (s.handle i.c (fH i)) (s.ctxOf i.c) .engineWrite (rowIndex s i) = true)
    (hrow : Writable s i.c n (hTagged (s.handle i.c (fH i)))) :
    Advances s (s.finish i (bodySt i s)) i (s.regsOf i.c) true (nextPc s i) ∧
      RowWritten s (s.finish i (bodySt i s)) i.c n ((s.regsOf i.c).row (fA i)) := by
  obtain ⟨t, hdone, htrow, honly, hcl, -⟩ := rowAccess_write (w := (s.regsOf i.c).row (fA i)) (u := i.u)
    (by cases hTagged (s.handle i.c (fH i)) <;> rfl) (tagTable_writable hrow)
  subst hn
  rw [bodySt, rowEffect_done hback hok hdone]
  exact ⟨finish_ok_plain (hcl i.c), RowWritten.of_noStore (noStore_finish_ok s i t) ⟨honly, htrow⟩⟩

end

/-! ## MOVR and FILL begin (R169, R186) -/

section
variable {s : State} {i : Issue} {legal : Bool} (h : Ready s i) (hl : legal = true) (op : Nat) {body : State → Effect}
include h hl

/-- A ready, legal instruction whose effect takes up a hold record without a wait goes on running with it. -/
theorem begins_of_body {hd : Hold} (hbody : body s = .hold s hd false) :
    ∃ t : State, s.retire op i legal body = .next t ∧ OnlyCluster s t i.c ∧ t.regsOf i.c = s.regsOf i.c ∧ (t.cl i.c).st = .running ∧
      (t.cl i.c).hold = some hd := by
  refine ⟨_, ready_retire h hl op body, ?_⟩
  rw [hbody]
  refine ⟨onlyCluster_modCl s i.c _, ?_, ?_, ?_⟩ <;> simp [State.finish, State.regsOf]

end

section
variable {s : State} {i : Issue}

theorem bodyMovr_idle (hcount : rowCount s i = 0) : bodyMovr i s = .ok s := if_pos hcount

theorem bodyFill_idle (hcount : rowCount s i = 0) : bodyFill i s = .ok s := if_pos hcount

section
variable (hhold : (s.cl i.c).hold = none) (hcount : rowCount s i ≠ 0)
include hhold hcount

/-- MOVR with rows to move: by its two range checks it begins, or traps. -/
theorem bodyMovr_checks : bodyMovr i s =
    if handleRangeOk (s.handle i.c (fF i)) (s.ctxOf i.c) .engineRead (s.sr i.c (fC i)).toNat (rowCount s i) &&
        handleRangeOk (s.handle i.c (fH i)) (s.ctxOf i.c) .engineWrite (s.sr i.c (fB i)).toNat (rowCount s i) then
      .hold s { opcode := 0x43, iss := calm i } false
    else .trap s 0x05 0 0 := (if_neg hcount).trans (if_neg (by simp [hhold]))

/-- FILL with rows to write: by its one range check it begins, or traps. -/
theorem bodyFill_checks : bodyFill i s =
    if handleRangeOk (s.handle i.c (fH i)) (s.ctxOf i.c) .engineWrite (s.sr i.c (fB i)).toNat (rowCount s i) then
      .hold s { opcode := 0x44, iss := calm i } false
    else .trap s 0x05 0 0 := (if_neg hcount).trans (if_neg (by simp [hhold]))

end

end

/-! ## Row operations (R186, R187) -/

/-- A cluster that holds on an instruction in a region in Run acts for it. -/
theorem heldOn_eq {s : State} {c op : Nat} {h : Hold} (hhold : (s.cl c).hold = some h) (hst : (s.cl c).st = .running ∨ (s.cl c).st = .waiting)
    (hop : h.opcode = BitVec.ofNat 8 op) (hrun : (s.region (regionOf c)).pstate = .run) : s.heldOn c op = some h := by
  unfold State.heldOn
  rcases hst with hst | hst <;> simp only [hhold, hst] <;> exact if_pos ⟨hop, hrun⟩

theorem noStore_rowOpDone (s : State) (h : Hold) (n : Nat) : NoStore s (s.rowOpDone h n) := by
  unfold State.rowOpDone
  split <;> exact ⟨rfl, rfl, rfl⟩

section
variable {s : State} {h : Hold} {b : Nat} (hb : handleRow (s.handle h.iss.c (fH h.iss)) ((s.sr h.iss.c (fB h.iss)).toNat + h.j) = b)
  (hdst : hBacking (s.handle h.iss.c (fH h.iss)) = 0) (hwrite : Writable s h.iss.c b (hTagged (s.handle h.iss.c (fH h.iss))))
include hb hdst hwrite

/-- A row write of FILL. -/
theorem fillOp_writes : RowWritten s (s.fillOp h) h.iss.c b ((s.regsOf h.iss.c).row (fC h.iss)) := by
  subst hb
  obtain ⟨t, hdone, hwritten⟩ := rowAccess_writes hwrite ((s.regsOf h.iss.c).row (fC h.iss)) .none
  have hop : s.fillOp h = t.rowOpDone h (rowCount s h.iss) := by
    unfold State.fillOp writeBy
    simp only [entryAccess_resident hdst, hdone]
  rw [hop]
  exact hwritten.of_noStore (noStore_rowOpDone t h _)

/-- A row pair of MOVR: the source is read, and what it held is written to the destination. -/
theorem movrOp_moves {a : Nat} {u : Upset} (ha : handleRow (s.handle h.iss.c (fF h.iss)) ((s.sr h.iss.c (fC h.iss)).toNat + h.j) = a)
    (hsrc : hBacking (s.handle h.iss.c (fF h.iss)) = 0) (hne : a ≠ b) (hread : Readable s h.iss.c a (hTagged (s.handle h.iss.c (fF h.iss))) u) :
    (s.movrOp h u).trow h.iss.c b = { s.trow h.iss.c b with data := (s.trow h.iss.c a).data, tag := .full, syndrome := 0 } ∧
    (s.movrOp h u).trow h.iss.c a = { s.trow h.iss.c a with
      tag := if hTagged (s.handle h.iss.c (fF h.iss)) then .empty else (s.trow h.iss.c a).tag, syndrome := 0 } := by
  have hgo := tagTable_readable hread false
  obtain ⟨-, -, hcrc⟩ := hread
  obtain ⟨t, hdone, hta, honly, -, hparts, hregions, -⟩ :=
    rowAccess_read (w := 0) (by cases hTagged (s.handle h.iss.c (fF h.iss)) <;> rfl) hgo hcrc
  have htb : t.trow h.iss.c b = s.trow h.iss.c b := honly.trow_ne hne.symm
  have hwrite' : Writable t h.iss.c b (hTagged (s.handle h.iss.c (fH h.iss))) := by
    unfold Writable
    rw [htb, allHeld_congr hparts hregions]
    exact hwrite
  obtain ⟨v, hdone', honly', hvb⟩ := rowAccess_writes hwrite' (s.trow h.iss.c a).data .none
  subst ha hb
  have hop : s.movrOp h u = v.rowOpDone h (rowCount s h.iss) := by
    unfold State.movrOp readBy writeBy
    simp only [entryAccess_resident hsrc, entryAccess_resident hdst, hdone, hdone']
  rw [hop, trow_of_noStore (noStore_rowOpDone v h _), trow_of_noStore (noStore_rowOpDone v h _), hvb, htb, honly'.trow_ne hne, hta]
  simp

end

/-- Settles O4: LD, PK and ST make one access of Table 3.4 through their handle; MOVR and FILL check their ranges and then make one such
access, or a pair, for each row. -/
theorem rowInstructions : Obligations.RowInstructions := by
  unfold Obligations.RowInstructions
  refine ⟨fun i s hready hl => ?_, fun i s hready => ?_, ?_⟩
  · intro e idx n row r hback
    refine ⟨fun hok hrow => ⟨?ld, ?pk⟩, fun hok hrow => ?st, fun hok htagged hblock => ⟨?ldWaits, ?pkWaits⟩, fun hok htagged hblock => ?stWaits,
      fun hok => ⟨?ldTraps, ?pkTraps⟩, fun hok => ?stTraps⟩
    case ld =>
      obtain ⟨hadv, honly, htrow⟩ := finish_ld rfl hback hok hrow
      exact ⟨_, ready_retire hready hl 0x40 _, hadv, htrow, honly⟩
    case pk =>
      obtain ⟨hadv, honly, htrow⟩ := finish_pk rfl hback hok hrow
      exact ⟨_, ready_retire hready hl 0x41 _, hadv, htrow, honly⟩
    case st =>
      obtain ⟨hadv, honly, htrow⟩ := finish_st rfl hback hok hrow
      exact ⟨_, ready_retire hready hl 0x42 _, hadv, htrow, honly⟩
    case ldWaits => exact waits_of_body hready hl 0x40 (bodyLoad_waits 0x40 false hback htagged hok hblock)
    case pkWaits => exact waits_of_body hready hl 0x41 (bodyLoad_waits 0x41 true hback htagged hok hblock)
    case stWaits => exact waits_of_body hready hl 0x42 (bodySt_waits hback htagged hok hblock)
    case ldTraps => exact traps_of_body hready hl 0x40 (bodyLoad_refused 0x40 false hok)
    case pkTraps => exact traps_of_body hready hl 0x41 (bodyLoad_refused 0x41 true hok)
    case stTraps => exact traps_of_body hready hl 0x42 (rowEffect_refused hok)
  · intro n begins fits source
    have hhold := ready_hold hready
    refine ⟨fun hl hn => ?movrIdle, fun hl hn => ?fillIdle, fun hl hn hsource hfits => ?movr, fun hl hn hfits => ?fill,
      fun hl hn hbad => ?movrTraps, fun hl hn hbad => ?fillTraps⟩
    case movrIdle => exact retires_of_idle_body hready hl 0x43 (bodyMovr_idle hn)
    case fillIdle => exact retires_of_idle_body hready hl 0x44 (bodyFill_idle hn)
    case movr =>
      exact begins_of_body hready hl 0x43 ((bodyMovr_checks hhold hn).trans (if_pos (Bool.and_eq_true_iff.mpr ⟨hsource, hfits⟩)))
    case fill => exact begins_of_body hready hl 0x44 ((bodyFill_checks hhold hn).trans (if_pos hfits))
    case movrTraps =>
      exact traps_of_body hready hl 0x43 ((bodyMovr_checks hhold hn).trans (if_neg (ne_true_of_eq_false (Bool.and_eq_false_iff.mpr hbad))))
    case fillTraps => exact traps_of_body hready hl 0x44 ((bodyFill_checks hhold hn).trans (if_neg (ne_true_of_eq_false hbad)))
  · rintro c u s h hhold rfl hst hrun src dst a b hdst hwrite
    refine ⟨fun hop hsrc hne hread => ?_, fun hop => ?_⟩
    · have hexec : exec (.movrRowOperation h.iss.c u) s = .next (s.movrOp h u) := by
        change execMovrRowOperation h.iss.c u s = _
        simp only [execMovrRowOperation, heldOn_eq (op := 0x43) hhold (.inl hst) hop hrun]
      exact ⟨_, hexec, movrOp_moves rfl hdst hwrite rfl hsrc hne hread⟩
    · have hexec : exec (.fillRowOperation h.iss.c) s = .next (s.fillOp h) := by
        change execFillRowOperation h.iss.c s = _
        simp only [execFillRowOperation, heldOn_eq (op := 0x44) hhold (.inl hst) hop hrun]
      obtain ⟨honly, hrow⟩ := fillOp_writes rfl hdst hwrite
      exact ⟨_, hexec, hrow, honly⟩

end Sys2Proof.Machine

namespace Sys2Proof.Machine
open Sys2Proof

/-! ## Tags read and waited for (R188, R189) -/

section
variable {s : State} {i : Issue}

theorem entryTag_spilled {c : Nat} {e : HandleEntry} (hback : hBacking e ≠ 0) (j : Nat) : s.entryTag c e j = s.bitmapTag e j := if_neg hback

section
variable (hok : handleOk (s.handle i.c (fH i)) (s.ctxOf i.c) .engineRead (rowIndex s i) = true)
include hok

theorem bodyTagrd_reads : bodyTagrd i s = .ok (s.modRegs i.c (fun r => r.setSreg (fA i)
    (BitVec.ofNat 64 (s.entryTag i.c (s.handle i.c (fH i)) (handleRow (s.handle i.c (fH i)) (rowIndex s i))).code))) := if_pos hok

/-- WAITT on a tag that is not POISONED: it goes on where the tag is the one it waits for. -/
theorem bodyWaitt_checks (hgood : s.entryTag i.c (s.handle i.c (fH i)) (handleRow (s.handle i.c (fH i)) (rowIndex s i)) ≠ .poisoned) :
    bodyWaitt i s = if s.entryTag i.c (s.handle i.c (fH i)) (handleRow (s.handle i.c (fH i)) (rowIndex s i)) =
      (if fF i % 2 = 0 then .full else .empty) then .ok s else .hold s (s.holdFor 0x46 i) true := by
  unfold bodyWaitt
  rw [if_pos hok]
  dsimp only
  split
  · next hbad => exact absurd hbad hgood
  · rfl

theorem bodyWaitt_met (htag : s.entryTag i.c (s.handle i.c (fH i)) (handleRow (s.handle i.c (fH i)) (rowIndex s i)) =
    if fF i % 2 = 0 then .full else .empty) : bodyWaitt i s = .ok s := by
  refine (bodyWaitt_checks hok ?_).trans (if_pos htag)
  rw [htag]
  split <;> decide

end

end

theorem exec_waittPoll {s : State} {c : Nat} {h : Hold} (hheld : s.heldOn c 0x46 = some h) (hback : hBacking (s.handle c (fH h.iss)) ≠ 0) :
    exec (.waittPoll c) s = .next (s.finish h.iss (bodyWaitt h.iss s)) := by
  change execWaittPoll c s = _
  simp only [execWaittPoll, hheld, if_neg hback]

/-! ## Waits for a tick (R190 to R192) -/

theorem tickCounter_toNat (s : State) (c : Nat) : (s.tickCounter c).toNat = (s.domain (regionOf c)).ticks % 2 ^ 64 := BitVec.toNat_ofNat _ _

theorem holdFor_fresh {s : State} {i : Issue} (hhold : (s.cl i.c).hold = none) (op : Nat) :
    s.holdFor op i = { opcode := BitVec.ofNat 8 op, iss := calm i, since := some s.now } := by
  simp [State.holdFor, State.since, hhold]

section
variable {s : State} {i : Issue}

section
variable (hdue : twaitTarget s i ≤ (s.tickCounter i.c).toNat)
include hdue

theorem bodyTwait_onTime (hgrace : (s.tickCounter i.c).toNat ≤ twaitTarget s i + fF i) : bodyTwait i s = .ok s :=
  (if_neg (Nat.not_lt.mpr hdue)).trans (if_pos hgrace)

theorem bodyTwait_late (hlate : twaitTarget s i + fF i < (s.tickCounter i.c).toNat) :
    bodyTwait i s = .ok (s.lateEvent i.c ((s.tickCounter i.c).toNat - twaitTarget s i)) :=
  (if_neg (Nat.not_lt.mpr hdue)).trans (if_neg (Nat.not_le.mpr hlate))

end

section
variable (hearly : (s.tickCounter i.c).toNat < twaitTarget s i)
include hearly

theorem bodyTwait_begins (hshort : twaitTarget s i - (s.tickCounter i.c).toNat ≤ s.tagTicksAt i.c) :
    bodyTwait i s = .hold s { s.holdFor 0x50 i with target := twaitTarget s i } false :=
  (if_pos hearly).trans (if_neg (Nat.not_lt.mpr hshort))

theorem bodyTwait_traps (hlong : s.tagTicksAt i.c < twaitTarget s i - (s.tickCounter i.c).toNat) : bodyTwait i s = .trap s 0x08 0 0 :=
  (if_pos hearly).trans (if_pos hlong)

end

/-- What a late event leaves of its cluster and its region (R192). -/
theorem lateEvent_cl (s : State) (c late : Nat) : (s.lateEvent c late).cl c =
    { s.cl c with ev := { (s.cl c).ev with late := satInc (s.cl c).ev.late, lateMax := max (s.cl c).ev.lateMax late } } :=
  State.setCl_cl_same s c _

theorem lateEvent_region (s : State) (c late : Nat) :
    ((s.lateEvent c late).region (regionOf c)).stepLateMax = max (s.region (regionOf c)).stepLateMax late := by
  simp [State.lateEvent, State.modRegion]

/-- An effect that ends in order in a state u, where cluster i.c is v with the registers and counts it had, advances past the instruction. -/
theorem finish_ok_advances {u : State} {v : Cluster} (hcl : u.cl i.c = v) (hregs : v.regs = s.regsOf i.c)
    (hretired : v.cnt.retired = (s.cl i.c).cnt.retired) (hstep : v.stepOne = (s.cl i.c).stepOne) :
    Advances s (s.finish i (.ok u)) i (s.regsOf i.c) true (nextPc s i) := by
  subst hcl
  rw [← hregs]
  exact advances_of_retireCluster (State.setCl_cl_same u i.c _) hretired hstep

theorem finish_late (late : Nat) : Advances s (s.finish i (.ok (s.lateEvent i.c late))) i (s.regsOf i.c) true (nextPc s i) ∧
    ((s.finish i (.ok (s.lateEvent i.c late))).cl i.c).ev.late = satInc (s.cl i.c).ev.late ∧
    ((s.finish i (.ok (s.lateEvent i.c late))).cl i.c).ev.lateMax = max (s.cl i.c).ev.lateMax late ∧
    ((s.finish i (.ok (s.lateEvent i.c late))).region (regionOf i.c)).stepLateMax = max (s.region (regionOf i.c)).stepLateMax late := by
  have hcl : (s.finish i (.ok (s.lateEvent i.c late))).cl i.c = retireCluster true (nextPc s i) ((s.lateEvent i.c late).cl i.c) :=
    State.setCl_cl_same _ _ _
  rw [lateEvent_cl] at hcl
  refine ⟨finish_ok_advances (lateEvent_cl s i.c late) rfl rfl rfl, ?_, ?_, lateEvent_region s i.c late⟩
  · rw [hcl]
    rfl
  · rw [hcl]
    rfl

end

theorem exec_twaitRelease {s : State} {c : Nat} {h : Hold} (hheld : s.heldOn c 0x50 = some h) (hdue : h.target ≤ (s.tickCounter c).toNat) :
    exec (.twaitRelease c) s = .next (s.finish h.iss (.ok s)) := by
  change execTwaitRelease c s = _
  simp only [execTwaitRelease, hheld, if_pos hdue]

/-- Settles O5: TAGRD and WAITT look at one tag; TWAIT compares the tick counter with its target; what holds goes on as its condition is met. -/
theorem tagAndTickInstructions : Obligations.TagAndTickInstructions := by
  unfold Obligations.TagAndTickInstructions
  refine ⟨⟨fun i s hready => ?_, ?_⟩, fun i s hready hl => ?_, ?_⟩
  · intro e idx tag wanted hok
    refine ⟨fun hl => ?tagrd, fun hl htag => ?waittMet, fun hl htag hgood => ?waittHolds⟩
    case tagrd =>
      have hword : BitVec.ofNat 64 tag.code = match tag with | .empty => 0 | .full => 1 | .poisoned => 2 | .held => 3 := by
        clear_value tag
        cases tag <;> rfl
      exact retires_of_body hready hl 0x45 (bodyTagrd_reads hok) (congrArg ((s.regsOf i.c).setSreg (fA i)) hword)
    case waittMet => exact retires_of_idle_body hready hl 0x46 (bodyWaitt_met hok htag)
    case waittHolds => exact waits_of_body hready hl 0x46 ((bodyWaitt_checks hok hgood).trans (if_neg htag))
  · rintro c s h hhold rfl hop hst hrun e hback hok htag
    refine ⟨_, exec_waittPoll (heldOn_eq hhold (.inr hst) hop hrun) hback, ?_⟩
    rw [bodyWaitt_met hok ((entryTag_spilled hback _).trans htag)]
    exact finish_ok s h.iss
  · intro T now
    have hnow : (s.tickCounter i.c).toNat = now := tickCounter_toNat s i.c
    refine ⟨fun hdue hgrace => ?onTime, fun hlate => ?late, fun hearly hshort => ?begins, fun hearly hlong => ?traps⟩
    case onTime => exact retires_of_idle_body hready hl 0x50 (bodyTwait_onTime (hnow ▸ hdue) (hnow ▸ hgrace))
    case late =>
      refine ⟨_, ready_retire hready hl 0x50 _, ?_⟩
      rw [bodyTwait_late (hnow ▸ Nat.le_of_add_right_le hlate.le) (hnow ▸ hlate), hnow]
      exact finish_late (now - T)
    case begins =>
      obtain ⟨t, hnext, honly, -, hst, hhold⟩ := begins_of_body hready hl 0x50 (bodyTwait_begins (hnow ▸ hearly) (hnow ▸ hshort))
      rw [holdFor_fresh (ready_hold hready)] at hhold
      exact ⟨t, hnext, hst, hhold, honly⟩
    case traps => exact traps_of_body hready hl 0x50 (bodyTwait_traps (hnow ▸ hearly) (hnow ▸ hlong))
  · rintro c s h hhold rfl hop hst hrun hdue
    exact ⟨_, exec_twaitRelease (heldOn_eq hhold (.inl hst) hop hrun) (tickCounter_toNat s _ ▸ hdue), finish_ok s h.iss⟩

end Sys2Proof.Machine

namespace Sys2Proof.Machine
open Sys2Proof

/-! ## Requests that leave, and what they leave of their cluster (R226, R254) -/

/-- A change of the sender's cluster that keeps its side of the fabric does not touch what has been sent. -/
theorem Sends.modCl {s t : State} {c key : Nat} {kind : OpKind} {k : Packet} (h : Sends s t c key kind k) {g : Cluster → Cluster}
    (hg : ∀ v, (g v).fab = v.fab) : Sends s (t.modCl c g) c key kind k := by
  obtain ⟨hnet, hnext, hops, hflows, hothers⟩ := h
  have hcl : ((t.modCl c g).cl c).fab = (t.cl c).fab := by rw [State.modCl_eq, State.setCl_cl_same, hg]
  exact ⟨hnet, hnext, hcl ▸ hops, hcl ▸ hflows, fun d hd => (State.setCl_cl_ne _ _ _ _ hd).trans (hothers d hd)⟩

/-- A request that is sent changes its cluster's side of the fabric alone. -/
theorem sendOp_cl {s : State} {c key : Nat} (kind : OpKind) (k : Packet) (hperim : s.noPerimeter (regionOf c) k.dst = false)
    (hroute : s.noRoute (regionOf c) (nodeRegion k.dst) = false) :
    (s.sendOp c key kind k).cl c = { s.cl c with fab := ((s.sendOp c key kind k).cl c).fab } := by
  unfold State.sendOp
  simp [hperim, hroute]

/-- A trap of a state whose cluster i.c is as in s is a trap of s. -/
theorem traps_of_same_cl {s u : State} {i : Issue} (hcl : u.cl i.c = s.cl i.c) (cause sw row : Nat) :
    Traps s (u.trap i.c cause sw row) i cause sw row := by
  have htrap := trap_traps u i cause sw row
  unfold Traps trapOf State.regsOf at htrap ⊢
  rwa [hcl] at htrap

/-! ## MLD and MST (R225, R226, R587) -/

section
variable {s : State} {i : Issue}

theorem bodyMld_traps {cause : Nat} (hbad : s.memTrap i = some cause) : bodyMld i s = .trap s cause 0 0 := by
  simp only [bodyMld, hbad]

theorem bodyMst_traps {cause : Nat} (hbad : s.memTrap i = some cause) : bodyMst i s = .trap s cause 0 0 := by
  simp only [bodyMst, hbad]

section
variable (hgood : s.memTrap i = none)
include hgood

theorem bodyMld_starts (hhold : (s.cl i.c).hold = none) : bodyMld i s = bodyMld.go i (memAddr s i) s := by
  simp only [bodyMld, hgood, hhold]

/-- An MST that its own region refuses has retired: the refusal is recorded as a failure after retirement (R587). -/
theorem bodyMst_refused (href : s.sourceRefuses (s.partOf i.c) (memAddr s i) = true) :
    ∃ o : Op, o.dst = nodeCode (s.agentOf (memAddr s i)) ∧ o.pc = (s.regsOf i.c).pc ∧
      bodyMst i s = .ok ((s.countDiscard (regionOf i.c) 4).modCl i.c (recordFault 0x0B o)) := by
  simp only [bodyMst, hgood, href, if_true]
  exact ⟨_, rfl, rfl, rfl⟩

theorem bodyMst_sends (href : s.sourceRefuses (s.partOf i.c) (memAddr s i) = false)
    (hmay : s.maySend i.c (flowKey (s.agentOf (memAddr s i)) 2048) (nodeRegion (s.agentOf (memAddr s i))) = true) :
    bodyMst i s = .ok (s.sendOp i.c (flowKey (s.agentOf (memAddr s i)) 2048) .mst
      (reqPacket i.c .memWr (s.agentOf (memAddr s i)) 0 (memAddr s i) 4 (memUnits i) ((s.regsOf i.c).row (fA i)))) := by
  simp only [bodyMst, hgood, href, hmay, if_true, Bool.false_eq_true, if_false]

end

/-- An MLD that its own region refuses traps. -/
theorem bodyMldGo_refused {a : Nat} (href : s.sourceRefuses (s.partOf i.c) a = true) :
    bodyMld.go i a s = .trap (s.countDiscard (regionOf i.c) 4) 0x0B 0 0 := if_pos href

theorem bodyMldGo_sends {a : Nat} (href : s.sourceRefuses (s.partOf i.c) a = false)
    (hmay : s.maySend i.c (flowKey (s.agentOf a) 2048) (nodeRegion (s.agentOf a)) = true) : bodyMld.go i a s =
    .hold (s.sendOp i.c (flowKey (s.agentOf a) 2048) .mld (reqPacket i.c .memRd (s.agentOf a) 0 a (fF i / 16 % 2) (memUnits i) 0))
      { s.holdFor 0xC7 i with tag := s.nextTag i.c, since := some s.now } true :=
  (if_neg (ne_true_of_eq_false href)).trans (if_pos hmay)

theorem finish_mst_refused {o : Op} (hfirst : (s.cl i.c).fab.fault.cause = 0) :
    let t := s.finish i (.ok ((s.countDiscard (regionOf i.c) 4).modCl i.c (recordFault 0x0B o)))
    NoStore s t ∧ t.net = s.net ∧ Advances s t i (s.regsOf i.c) true (nextPc s i) ∧
      (t.cl i.c).fab.fault = { cause := 0x0B, more := 0, dst := BitVec.ofNat 13 o.dst, pc := o.pc } := by
  intro t
  have hcl : ((s.countDiscard (regionOf i.c) 4).modCl i.c (recordFault 0x0B o)).cl i.c = recordFault 0x0B o (s.cl i.c) := State.setCl_cl_same _ _ _
  have ht : t.cl i.c = retireCluster true (nextPc s i) (recordFault 0x0B o (s.cl i.c)) := by rw [← hcl]; exact State.setCl_cl_same _ _ _
  refine ⟨⟨rfl, rfl, rfl⟩, rfl, finish_ok_advances hcl rfl rfl rfl, ?_⟩
  rw [ht]
  exact recordFault_first 0x0B hfirst

section
variable {key : Nat} (kind : OpKind) (k : Packet) (hperim : s.noPerimeter (regionOf i.c) k.dst = false)
  (hroute : s.noRoute (regionOf i.c) (nodeRegion k.dst) = false)
include hperim hroute

/-- An instruction that ends as its request leaves. -/
theorem finish_sent : NoStore s (s.finish i (.ok (s.sendOp i.c key kind k))) ∧
    Advances s (s.finish i (.ok (s.sendOp i.c key kind k))) i (s.regsOf i.c) true (nextPc s i) ∧
    Sends s (s.finish i (.ok (s.sendOp i.c key kind k))) i.c key kind k := by
  obtain ⟨hsends, hstore, -⟩ := sendOp_sends kind k hperim hroute
  exact ⟨hstore.trans (noStore_finish_ok s i _), finish_ok_advances (sendOp_cl kind k hperim hroute) rfl rfl rfl, hsends.modCl fun _ => rfl⟩

/-- One that waits for the answer to its request. -/
theorem finish_awaits (hd : Hold) : NoStore s (s.finish i (.hold (s.sendOp i.c key kind k) hd true)) ∧
    (s.finish i (.hold (s.sendOp i.c key kind k) hd true)).regsOf i.c = s.regsOf i.c ∧
    ((s.finish i (.hold (s.sendOp i.c key kind k) hd true)).cl i.c).st = .waiting ∧
    ((s.finish i (.hold (s.sendOp i.c key kind k) hd true)).cl i.c).hold = some hd ∧
    Sends s (s.finish i (.hold (s.sendOp i.c key kind k) hd true)) i.c key kind k := by
  obtain ⟨hsends, hstore, hregs, -⟩ := sendOp_sends kind k hperim hroute
  refine ⟨hstore.trans (noStore_modCl _ i.c _), ?_, ?_, ?_, hsends.modCl fun _ => rfl⟩
  · rw [← hregs]
    simp [State.finish, State.regsOf]
  · simp [State.finish]
  · simp [State.finish]

end

/-! ## FENCEF and END (R170, R221, R222) -/

section
variable {op : Nat} {after : State → Effect}

theorem fenceEffect_waits (hbusy : fabricDone (s.cl i.c) = false) : fenceEffect op i s after = .hold s (s.holdFor op i) true :=
  if_neg (ne_true_of_eq_false hbusy)

section
variable (hdone : fabricDone (s.cl i.c) = true)
include hdone

theorem fenceEffect_faults (hfault : (s.cl i.c).fab.fault.cause ≠ 0) :
    fenceEffect op i s after = .trap s (s.cl i.c).fab.fault.cause.toNat 0 0 := (if_pos hdone).trans (if_neg hfault)

theorem fenceEffect_passes (hclean : (s.cl i.c).fab.fault.cause = 0) :
    fenceEffect op i s after = after (s.modCl i.c (fun v => { v with fab := { v.fab with colls := [] } })) := (if_pos hdone).trans (if_pos hclean)

end

end

end

/-- What the end of its part leaves of a cluster (R170). -/
theorem endPart_cl (s : State) (c : Nat) : (s.endPart c).cl c = { s.cl c with st := .idle, regs := { (s.cl c).regs with loops := [] } } := by
  unfold State.endPart
  split <;> simp

theorem endPart_cl_ne (s : State) {c d : Nat} (hd : d ≠ c) : (s.endPart c).cl d = s.cl d := by
  unfold State.endPart
  split <;> simp [hd]

theorem noStore_endPart (s : State) (c : Nat) : NoStore s (s.endPart c) := by
  unfold State.endPart
  split <;> exact ⟨rfl, rfl, rfl⟩

/-- The running step notes that the cluster's part has ended. -/
theorem endPart_running {s : State} {c q : Nat} {st : RunStep} (hpart : s.partOf c = some q) (hrunning : (s.part q).running = some st)
    (hmem : c ∈ st.clusters) (hnew : c ∉ st.ended) : ((s.endPart c).part q).running = some { st with ended := st.ended ++ [c] } := by
  unfold State.endPart
  simp [hpart, hrunning, hmem, hnew]

/-- END with nothing outstanding and no failure: the cluster is Idle, its part of the step ended, and nothing is stored. -/
theorem finish_end (s : State) (i : Issue) :
    let t := s.finish i (.stop ((s.modCl i.c (fun v => { v with fab := { v.fab with colls := [] } })).endPart i.c))
    NoStore s t ∧ (t.cl i.c).st = .idle ∧ (t.cl i.c).hold = none ∧ t.regsOf i.c = { s.regsOf i.c with loops := [] } ∧
      (t.cl i.c).cnt.retired = satInc (s.cl i.c).cnt.retired ∧ (∀ c, c ≠ i.c → t.cl c = s.cl c) ∧
      ∀ q st, s.partOf i.c = some q → (s.part q).running = some st → i.c ∈ st.clusters → i.c ∉ st.ended →
        (t.part q).running = some { st with ended := st.ended ++ [i.c] } := by
  intro t
  have hcl : t.cl i.c = _ := State.setCl_cl_same _ _ _
  rw [endPart_cl, State.modCl_eq, State.setCl_cl_same] at hcl
  refine ⟨((noStore_modCl s i.c _).trans (noStore_endPart _ i.c)).trans (noStore_modCl _ i.c _), ?_, ?_, ?_, ?_, fun c hc => ?_, fun q st hpart => ?_⟩
  · rw [hcl]
  · rw [hcl]
  · rw [State.regsOf, hcl]
    rfl
  · rw [hcl]
  · exact (State.setCl_cl_ne _ _ _ _ hc).trans ((endPart_cl_ne _ hc).trans (State.setCl_cl_ne _ _ _ _ hc))
  · exact endPart_running (s := s.modCl i.c _) hpart

/-- Settles O14: MLD and MST trap, are refused by their own region, or send one request; FENCEF and END wait for the fabric, trap for its
first failure, or pass. -/
theorem memoryAccessFenceEnd : Obligations.MemoryAccessFenceEnd := by
  unfold Obligations.MemoryAccessFenceEnd
  intro i s hready a d key r p fault legal
  refine ⟨fun cause hbad => ⟨fun hl => ?mldTraps, fun hl => ?mstTraps⟩, fun hgood href => ⟨fun hl => ?mldRefused, fun hl hfirst => ?mstRefused⟩,
    fun hgood href hleave => ?sends, fun hl => ⟨fun hbusy => ⟨?fenceWaits, ?endWaits⟩, fun hdone hfault => ⟨?fenceTraps, ?endTraps⟩,
      fun hdone hclean => ⟨?fence, ?endStep⟩⟩⟩
  case mldTraps => exact traps_of_body hready hl 0xC7 (bodyMld_traps hbad)
  case mstTraps => exact traps_of_body hready hl 0xC8 (bodyMst_traps hbad)
  case mldRefused =>
    refine ⟨_, ready_retire hready hl 0xC7 (bodyMld i), ?_⟩
    rw [bodyMld_starts hgood (ready_hold hready), bodyMldGo_refused href]
    exact traps_of_same_cl rfl 0x0B 0 0
  case mstRefused =>
    obtain ⟨o, hdst, hpc, hbody⟩ := bodyMst_refused hgood href
    obtain ⟨hstore, hnet, hadv, hfault⟩ := finish_mst_refused (o := o) hfirst
    rw [hdst, hpc] at hfault
    exact ⟨_, (ready_retire hready hl 0xC8 (bodyMst i)).trans (by rw [hbody]), hstore, hnet, hadv, hfault⟩
  case sends =>
    obtain ⟨hmay, hperim, hroute⟩ := hleave
    refine ⟨fun hl => ⟨_, ready_retire hready hl 0xC7 (bodyMld i), ?_⟩, fun hl => ⟨_, ready_retire hready hl 0xC8 (bodyMst i), ?_⟩⟩
    · rw [bodyMld_starts hgood (ready_hold hready), bodyMldGo_sends href hmay, holdFor_fresh (ready_hold hready)]
      exact finish_awaits .mld _ hperim hroute _
    · rw [bodyMst_sends hgood href hmay]
      exact finish_sent .mst _ hperim hroute
  case fenceWaits => exact waits_of_body hready hl 0xDF (fenceEffect_waits hbusy)
  case endWaits => exact waits_of_body hready hl 0x01 (fenceEffect_waits hbusy)
  case fenceTraps => exact traps_of_body hready hl 0xDF (fenceEffect_faults hdone hfault)
  case endTraps => exact traps_of_body hready hl 0x01 (fenceEffect_faults hdone hfault)
  case fence =>
    refine ⟨_, ready_retire hready hl 0xDF (bodyFencef i), ?_⟩
    rw [bodyFencef, fenceEffect_passes hdone hclean]
    exact ⟨(onlyCluster_modCl s i.c _).trans (onlyCluster_modCl _ i.c _), finish_ok_advances (State.setCl_cl_same s i.c _) rfl rfl rfl⟩
  case endStep =>
    refine ⟨_, ready_retire hready hl 0x01 (bodyEnd i), ?_⟩
    rw [bodyEnd, fenceEffect_passes hdone hclean]
    exact finish_end s i

end Sys2Proof.Machine

namespace Sys2Proof.Machine
open Sys2Proof

/-! ## Rows read without a change of tag (R80, R198) -/

/-- What reading rows by peek or untagged leaves: data, tags and clean CRCs, memory, and every cluster but for run-ahead. -/
structure Peeked (s t : State) : Prop where
  mem : t.mem = s.mem
  poison : t.poison = s.poison
  parts : t.parts = s.parts
  regions : t.regions = s.regions
  ctxs : t.ctxs = s.ctxs
  cl : ∀ d, SameButAhead (s.cl d) (t.cl d)
  data : ∀ c m, (t.trow c m).data = (s.trow c m).data
  tag : ∀ c m, (t.trow c m).tag = (s.trow c m).tag
  clean : ∀ c m, (s.trow c m).syndrome = 0 → (t.trow c m).syndrome = 0

theorem Peeked.refl (s : State) : Peeked s s :=
  ⟨rfl, rfl, rfl, rfl, rfl, fun _ => .refl _, fun _ _ => rfl, fun _ _ => rfl, fun _ _ h => h⟩

theorem Peeked.trans {s t u : State} (h : Peeked s t) (k : Peeked t u) : Peeked s u where
  mem := k.mem.trans h.mem
  poison := k.poison.trans h.poison
  parts := k.parts.trans h.parts
  regions := k.regions.trans h.regions
  ctxs := k.ctxs.trans h.ctxs
  cl d := (h.cl d).trans (k.cl d)
  data c m := (k.data c m).trans (h.data c m)
  tag c m := (k.tag c m).trans (h.tag c m)
  clean c m hs := k.clean c m (h.clean c m hs)

theorem Peeked.readable {s t : State} (h : Peeked s t) {c n : Nat} {tagged : Bool} (hrow : Readable s c n tagged .none) :
    Readable t c n tagged .none := by
  obtain ⟨hfree, htag, hcrc⟩ := hrow
  refine ⟨(allHeld_congr h.parts h.regions c).trans hfree, by rwa [h.tag], ?_⟩
  have hclean := h.clean c n (by simpa [upsetOf] using hcrc)
  simpa [upsetOf] using hclean

/-- A readable row read by peek or untagged gives its data. -/
theorem rowAccess_peeks {s : State} {c n : Nat} {tagged : Bool} (hrow : Readable s c n tagged .none) :
    ∃ t, s.rowAccess c n (if tagged then .peek else .untaggedRead) 0 .none = .done (s.trow c n).data t ∧ Peeked s t := by
  obtain ⟨-, -, hcrc⟩ := id hrow
  obtain ⟨t, hdone, htrow, ⟨hothers, hmem, hpoison⟩, hcl, hparts, hregions, hctxs⟩ := rowAccess_read (w := 0)
    (by cases tagged <;> rfl) (tagTable_readable hrow true) hcrc
  have hrows (d m : Nat) : t.trow d m = s.trow d m ∨ t.trow d m = { s.trow d m with syndrome := 0 } := by
    by_cases hkey : rowKey d m = rowKey c n
    · right
      rw [State.trow_def] at htrow
      rw [State.trow_def, State.trow_def s d m, hkey, htrow]
      simp [State.trow_def]
    · exact .inl (hothers _ hkey)
  refine ⟨t, hdone, hmem, hpoison, hparts, hregions, hctxs, hcl, fun d m => ?_, fun d m => ?_, fun d m hs => ?_⟩ <;>
    rcases hrows d m with h | h <;> rw [h]
  exact hs

/-- Rows of a resident handle that are all readable are read in turn, each with its data. -/
theorem readRows_peeks {c : Nat} {e : HandleEntry} (hback : hBacking e = 0) (js : List Nat) (s : State)
    (hrows : ∀ j ∈ js, Readable s c (handleRow e j) (hTagged e) .none) :
    ∃ t, s.readRows c e (readBy e true) .none js = .done (js.map (fun j => (s.trow c (handleRow e j)).data)) t ∧ Peeked s t := by
  induction js generalizing s with
  | nil => exact ⟨s, rfl, .refl s⟩
  | cons j js ih =>
    obtain ⟨t, hdone, hpeek⟩ := rowAccess_peeks (hrows j List.mem_cons_self)
    have hdone' : s.entryAccess c e (handleRow e j) (readBy e true) 0 .none = .done (s.trow c (handleRow e j)).data t :=
      (entryAccess_resident hback _ _).trans hdone
    obtain ⟨u, hrest, hpeek'⟩ := ih t (fun k hk => hpeek.readable (hrows k (List.mem_cons_of_mem _ hk)))
    refine ⟨u, ?_, hpeek.trans hpeek'⟩
    simp only [State.readRows, hdone', hrest, hpeek.data, List.map_cons]

/-! ## WLD (R198, R199) -/

section
variable (k : Nat) (b : Bank) (v : Cluster)

theorem bankOf_setBank_same : bankOf k (setBank k b v) = b := by
  unfold bankOf setBank
  split <;> rfl

theorem bankOf_setBank_other (hk : k < 2) : bankOf (1 - k) (setBank k b v) = bankOf (1 - k) v := by
  obtain rfl | rfl : k = 0 ∨ k = 1 := by omega
  · rfl
  · rfl

end

/-- A WLD that has read its rows retires with its bank loaded. -/
theorem finish_loaded {s u : State} {i : Issue} (h : Peeked s u) {k : Nat} (hk : k < 2) (b : Bank) :
    let t := s.finish i (.ok (u.modCl i.c (setBank k b)))
    Advances s t i (s.regsOf i.c) true (nextPc s i) ∧ t.mem = s.mem ∧ t.poison = s.poison ∧
      (∀ c m, (t.trow c m).data = (s.trow c m).data ∧ (t.trow c m).tag = (s.trow c m).tag) ∧
      bankOf (1 - k) (t.cl i.c) = bankOf (1 - k) (s.cl i.c) ∧ bankOf k (t.cl i.c) = b := by
  intro t
  have hcl : (u.modCl i.c (setBank k b)).cl i.c = setBank k b (u.cl i.c) := State.setCl_cl_same _ _ _
  have ht : t.cl i.c = retireCluster true (nextPc s i) (setBank k b (u.cl i.c)) := by
    rw [← hcl]
    exact State.setCl_cl_same _ _ _
  have hsame := h.cl i.c
  refine ⟨finish_ok_advances hcl ?_ ?_ ?_, h.mem, h.poison, fun c m => ⟨h.data c m, h.tag c m⟩, ?_, ?_⟩
  · rw [hsame]
    rfl
  · rw [hsame]
    rfl
  · rw [hsame]
    rfl
  · rw [ht]
    refine (bankOf_setBank_other k b (u.cl i.c) hk).trans ?_
    rw [hsame]
    rfl
  · rw [ht]
    exact bankOf_setBank_same k b (u.cl i.c)

/-- The rows of weights that a WLD reads. -/
def wldRows (s : State) (i : Issue) : List Nat :=
  let f := hFormat (s.handle i.c (fH i))
  rowsOfElems (s.sr i.c (fB i)).toNat (tileK f * tileN f) (elemsPerRow f)

/-- The rows of block scales that a scaled WLD reads. -/
def wldScaleRows (s : State) (i : Issue) : List Nat :=
  let f := hFormat (s.handle i.c (fH i))
  rowsOfElems ((s.sr i.c (fB i)).toNat / 32) (tileK f * tileN f / 32) 512

/-- The tile that a WLD loads of the weight rows and the scale rows it has read. -/
def wldBank (s : State) (i : Issue) (ds ss : List Row) : Bank :=
  let f := hFormat (s.handle i.c (fH i))
  let e0 := (s.sr i.c (fB i)).toNat
  { loaded := true, fmt := f, scaled := wldScaled i,
    codes := (List.range (tileK f * tileN f)).map (fun j => elemOfRows f ds (e0 % elemsPerRow f + j)),
    scales := if wldScaled i then (List.range (tileK f * tileN f / 32)).map (fun j => elemOfRows 0xF ss (e0 / 32 % 512 + j)) else [] }

section
variable {s : State} {i : Issue} (hf : hFormat (s.handle i.c (fH i)) ≠ 0xF)
  (halign : (s.sr i.c (fB i)).toNat % tileK (hFormat (s.handle i.c (fH i))) = 0)
  (hformat : if wldScaled i then mayScale (hFormat (s.handle i.c (fH i))) = true ∧ hFormat (s.handle i.c (bitsOf i.x0 5 0)) = 0xF
    else alwaysScaled (hFormat (s.handle i.c (fH i))) = false)
  (hrange : handleRangeOk (s.handle i.c (fH i)) (s.ctxOf i.c) .engineRead
    ((s.sr i.c (fB i)).toNat / elemsPerRow (hFormat (s.handle i.c (fH i)))) (wldRows s i).length = true)
  {ds : List Row} {t : State} (hread : s.readRows i.c (s.handle i.c (fH i)) (readBy (s.handle i.c (fH i)) true) i.u (wldRows s i) = .done ds t)
include hf halign hformat hrange hread

theorem bodyWld_plain (hscaled : wldScaled i = false) :
    bodyWld i s = .ok (t.modCl i.c (setBank (fF i % 2) (wldBank s i ds []))) := by
  unfold wldRows at hrange hread
  rw [hscaled, if_neg Bool.false_ne_true] at hformat
  simp [bodyWld, wldBank, hf, halign, hformat, hrange, hread, hscaled]

theorem bodyWld_scaled (hscaled : wldScaled i = true)
    (hsrange : handleRangeOk (s.handle i.c (bitsOf i.x0 5 0)) (s.ctxOf i.c) .engineRead ((s.sr i.c (fB i)).toNat / 32 / 512)
      (wldScaleRows s i).length = true) {ss : List Row} {u : State}
    (hsread : t.readRows i.c (s.handle i.c (bitsOf i.x0 5 0)) (readBy (s.handle i.c (bitsOf i.x0 5 0)) true) .none (wldScaleRows s i) = .done ss u) :
    bodyWld i s = .ok (u.modCl i.c (setBank (fF i % 2) (wldBank s i ds ss))) := by
  unfold wldRows at hrange hread
  unfold wldScaleRows at hsrange hsread
  rw [hscaled, if_pos rfl] at hformat
  obtain ⟨hmay, hsf⟩ := hformat
  simp [bodyWld, wldBank, hf, halign, hmay, hsf, hrange, hread, hscaled, hsrange, hsread]

end

/-! ## MMA (R200, R201) -/

/-- Without an engine error an MMA retires as other instructions do. -/
theorem exec_mma {s : State} {i : Issue} (hu : i.u ≠ .engine) : exec (.mma i) s = s.retire 0x61 i (mmaLegal i) (bodyMma i) :=
  congrArg Host.Outcome.next (if_neg (fun h => hu h.1))

theorem accRow_setAcc (n : Nat) (r : AccRow) (v : Cluster) (m : Nat) : accRow (setAcc n r v) m = if m = n then r else accRow v m :=
  Tbl.get_set _ _ _ _ _

/-- Rows acc to acc + n − 1 of a cluster's accumulators, each made over by its own function. -/
def State.mapAccs (s : State) (c acc : Nat) (g : Nat → AccRow → AccRow) (n : Nat) : State :=
  (List.range n).foldl (fun t j => t.modCl c (fun v => setAcc (acc + j) (g j (accRow v (acc + j))) v)) s

section
variable (s : State) (c acc : Nat) (g : Nat → AccRow → AccRow)

theorem mapAccs_succ (n : Nat) : s.mapAccs c acc g (n + 1) =
    (s.mapAccs c acc g n).modCl c (fun v => setAcc (acc + n) (g n (accRow v (acc + n))) v) := by
  simp only [State.mapAccs, List.range_succ, List.foldl_append, List.foldl_cons, List.foldl_nil]

theorem onlyCluster_mapAccs (n : Nat) : OnlyCluster s (s.mapAccs c acc g n) c := by
  induction n with
  | zero => exact ⟨rfl, fun _ _ => rfl⟩
  | succ n ih =>
    rw [mapAccs_succ]
    exact ih.trans (onlyCluster_modCl _ c _)

theorem mapAccs_cl (n : Nat) : (s.mapAccs c acc g n).cl c = { s.cl c with eng := ((s.mapAccs c acc g n).cl c).eng } := by
  induction n with
  | zero => rfl
  | succ n ih =>
    rw [mapAccs_succ, State.modCl_eq, State.setCl_cl_same]
    generalize s.mapAccs c acc g n = t at *
    rw [ih]
    rfl

theorem mapAccs_accRow (n m : Nat) : accRow ((s.mapAccs c acc g n).cl c) m =
    if acc ≤ m ∧ m < acc + n then g (m - acc) (accRow (s.cl c) m) else accRow (s.cl c) m := by
  induction n with
  | zero => exact (if_neg (by omega)).symm
  | succ n ih =>
    rw [mapAccs_succ, State.modCl_eq, State.setCl_cl_same, accRow_setAcc]
    by_cases hm : m = acc + n
    · subst hm
      rw [if_pos rfl, ih, if_neg (by omega), if_pos (by omega), Nat.add_sub_cancel_left]
    · rw [if_neg hm, ih]
      exact if_congr (by omega) rfl rfl

end

/-- An effect that changes a cluster's engine alone retires with the registers as they were. -/
theorem finish_engine {s u : State} {i : Issue} (honly : OnlyCluster s u i.c) (hcl : u.cl i.c = { s.cl i.c with eng := (u.cl i.c).eng }) :
    let t := s.finish i (.ok u)
    OnlyCluster s t i.c ∧ Advances s t i (s.regsOf i.c) true (nextPc s i) ∧ ∀ m, accRow (t.cl i.c) m = accRow (u.cl i.c) m := by
  intro t
  have ht : t.cl i.c = retireCluster true (nextPc s i) (u.cl i.c) := State.setCl_cl_same _ _ _
  refine ⟨honly.trans (onlyCluster_modCl u i.c _), finish_ok_advances hcl rfl rfl rfl, fun m => ?_⟩
  rw [ht]
  rfl

/-- What an MMA makes of the accumulator row of activation vector j. -/
def mmaOut (s : State) (i : Issue) (j : Nat) (r : AccRow) : AccRow :=
  let v := s.cl i.c
  let b := bankOf (fF i % 2) v
  mmaRow b.fmt (mmaAnchor i) (mmaScaled i || b.scaled) (s.stillMode i.c) b
    ((List.range (tileK b.fmt)).map (fun k => elemAt b.fmt (v.regs.row (fB i)) (j * tileK b.fmt + k)))
    (if mmaScaled i then (List.range (tileK b.fmt / 32)).map (fun q => rowByte (v.regs.row (fC i)) ((fImm16 i).toNat + j * (tileK b.fmt / 32) + q)) else [])
    r

section
variable {s : State} {i : Issue}

theorem bodyMma_unloaded (hloaded : (bankOf (fF i % 2) (s.cl i.c)).loaded = false) : bodyMma i s = .trap s 0x04 0 0 := if_pos (.inl hloaded)

theorem bodyMma_multiplies {b : Bank} (hb : bankOf (fF i % 2) (s.cl i.c) = b) (hloaded : b.loaded = true) (hroom : mmaAcc i + tileV b.fmt ≤ 64)
    (hformat : if mmaScaled i then mayScale b.fmt = true ∧ (fImm16 i).toNat + elemsPerRow b.fmt / 32 ≤ 512 else alwaysScaled b.fmt = false)
    (hanchor : anchorOk b.fmt (mmaScaled i || b.scaled) (mmaAnchor i) = true)
    (hbound : ∀ j < tileV b.fmt, (accRow (s.cl i.c) (mmaAcc i + j)).bound = none ∨
      (accRow (s.cl i.c) (mmaAcc i + j)).bound = some (b.fmt, mmaAnchor i)) :
    bodyMma i s = .ok (s.mapAccs i.c (mmaAcc i) (mmaOut s i) (tileV b.fmt)) := by
  subst hb
  refine if_neg ?_
  rintro (h | h | ⟨h, h'⟩ | ⟨h, h'⟩ | ⟨h, h'⟩ | h | h)
  · exact absurd hloaded (ne_true_of_eq_false h)
  · omega
  · rw [h, if_neg Bool.false_ne_true] at hformat
    exact absurd h' (ne_true_of_eq_false hformat)
  · rw [h, if_pos rfl] at hformat
    exact absurd hformat.1 (ne_true_of_eq_false h')
  · rw [h, if_pos rfl] at hformat
    omega
  · exact absurd hanchor (ne_true_of_eq_false h)
  · obtain ⟨j, hj, hbad⟩ := List.all_eq_false.mp h
    rcases hbound j (List.mem_range.mp hj) with hrow | hrow <;> simp [hrow] at hbad

end

/-! ## ACLR (R207) -/

/-- Accumulator rows left unbound, and the others as they were. -/
theorem accRow_clearAccs (acc n : Nat) (v : Cluster) (m : Nat) :
    accRow (clearAccs acc n v) m = if acc ≤ m ∧ m < acc + n then {} else accRow v m := by
  unfold accRow clearAccs
  induction n with
  | zero => exact (if_neg (by omega)).symm
  | succ n ih =>
    simp only [List.range_succ, List.foldl_append, List.foldl_cons, List.foldl_nil, Tbl.get_set]
    by_cases hm : m = acc + n
    · rw [if_pos hm, if_pos (by omega)]
    · rw [if_neg hm]
      exact ih.trans (if_congr (by omega) rfl rfl)

section
variable {s : State} {i : Issue}

theorem bodyAclr_idle (hn : rowCount s i = 0) : bodyAclr i s = .ok s := if_pos hn

theorem bodyAclr_clears (hn : rowCount s i ≠ 0) (hfits : fF i + rowCount s i ≤ 64) :
    bodyAclr i s = .ok (s.modCl i.c (clearAccs (fF i) (rowCount s i))) := (if_neg hn).trans (if_neg (Nat.not_lt.mpr hfits))

theorem bodyAclr_traps (hn : rowCount s i ≠ 0) (hover : 64 < fF i + rowCount s i) : bodyAclr i s = .trap s 0x04 0 0 :=
  (if_neg hn).trans (if_pos hover)

end

/-- Settles O8: WLD reads its rows and loads one bank, MMA makes over the accumulator rows of its activation vectors, ACLR unbinds its rows. -/
theorem electrumLoadAndMultiply : Obligations.ElectrumLoadAndMultiply := by
  unfold Obligations.ElectrumLoadAndMultiply
  intro i s hready
  refine ⟨fun hl hu => ?wld, fun hl hu => ?mma, fun hl => ?aclr⟩
  case wld =>
    intro e se f e0 n rows srows data readable k hf halign hformat hrange hrows hscales
    have hk : k < 2 := Nat.mod_lt _ (by decide)
    obtain ⟨hback, hrows⟩ := hrows
    obtain ⟨t, hread, hpeek⟩ := readRows_peeks hback rows s hrows
    rw [← hu] at hread
    cases hscaled : wldScaled i with
    | false =>
      refine ⟨_, ready_retire hready hl 0x60 (bodyWld i), ?_⟩
      rw [bodyWld_plain hf halign hformat hrange hread hscaled]
      obtain ⟨hadv, hmem, hpoison, htrows, hother, hbank⟩ := finish_loaded hpeek hk (wldBank s i (rows.map (data e)) [])
      refine ⟨hadv, hmem, hpoison, htrows, hother, hbank.trans ?_⟩
      simp [wldBank, hscaled, f, e0, n, e]
    | true =>
      obtain ⟨hsrange, hsback, hsrows⟩ := hscales hscaled
      obtain ⟨u, hsread, hspeek⟩ := readRows_peeks hsback srows t (fun j hj => hpeek.readable (hsrows j hj))
      simp only [hpeek.data] at hsread
      refine ⟨_, ready_retire hready hl 0x60 (bodyWld i), ?_⟩
      rw [bodyWld_scaled hf halign hformat hrange hread hscaled hsrange hsread]
      obtain ⟨hadv, hmem, hpoison, htrows, hother, hbank⟩ := finish_loaded (hpeek.trans hspeek) hk
        (wldBank s i (rows.map (data e)) (srows.map (data se)))
      refine ⟨hadv, hmem, hpoison, htrows, hother, hbank.trans ?_⟩
      simp [wldBank, hscaled, f, e0, n, e]
  case mma =>
    intro v b f A scaled acc q
    rw [exec_mma hu]
    refine ⟨fun hloaded => traps_of_body hready hl 0x61 (bodyMma_unloaded hloaded), fun hloaded hroom hformat hanchor hbound => ?_⟩
    refine ⟨_, ready_retire hready hl 0x61 (bodyMma i), ?_⟩
    rw [bodyMma_multiplies rfl hloaded hroom hformat hanchor hbound]
    obtain ⟨honly, hadv, hacc⟩ := finish_engine (onlyCluster_mapAccs s i.c acc (mmaOut s i) (tileV f)) (mapAccs_cl s i.c acc (mmaOut s i) (tileV f))
    refine ⟨honly, hadv, fun j hj => ?_, fun m hm => ?_⟩
    · rw [hacc, mapAccs_accRow, if_pos (by omega), Nat.add_sub_cancel_left]
      rfl
    · rw [hacc, mapAccs_accRow, if_neg (by omega)]
  case aclr =>
    intro n
    refine ⟨fun hover hn => traps_of_body hready hl 0x64 (bodyAclr_traps hn hover), fun hfits => ?_⟩
    refine ⟨_, ready_retire hready hl 0x64 (bodyAclr i), ?_⟩
    by_cases hn : n = 0
    · rw [bodyAclr_idle hn]
      obtain ⟨honly, hadv, hacc⟩ := finish_engine (s := s) (i := i) ⟨rfl, fun _ _ => rfl⟩ rfl
      refine ⟨honly, hadv, fun m => ?_⟩
      rw [hacc, if_neg (by omega)]
    · rw [bodyAclr_clears hn (hfits.resolve_left hn)]
      have hcl : (s.modCl i.c (clearAccs (fF i) n)).cl i.c = clearAccs (fF i) n (s.cl i.c) := State.setCl_cl_same _ _ _
      obtain ⟨honly, hadv, hacc⟩ := finish_engine (onlyCluster_modCl s i.c (clearAccs (fF i) n)) (by rw [hcl]; rfl)
      refine ⟨honly, hadv, fun m => ?_⟩
      rw [hacc, hcl, accRow_clearAccs]

end Sys2Proof.Machine

namespace Sys2Proof.Machine
open Sys2Proof

/-! ## DRN and DRNP at retirement (R202 to R205) -/

section
variable {s : State} {i : Issue}

section
variable (hu : i.u ≠ .engine)
include hu

/-- Without an engine error the drains retire as other instructions do. -/
theorem exec_drn : exec (.drn i) s = s.retire 0x62 i (drnLegal i) (bodyDrn i) := congrArg Host.Outcome.next (if_neg (fun h => hu h.1))
theorem exec_drnp : exec (.drnp i) s = s.retire 0x63 i (drnpLegal i) (bodyDrnp i) := congrArg Host.Outcome.next (if_neg (fun h => hu h.1))

end

theorem bodyDrn_idle (hn : rowCount s i = 0) : bodyDrn i s = .ok s := if_pos hn
theorem bodyDrnp_idle (hn : rowCount s i = 0) : bodyDrnp i s = .ok s := if_pos hn

/-- The format of a run's cells: that of its bound rows, INT8 where none is bound. -/
def runFormat (s : State) (i : Issue) : Nat := (runFormats (s.cl i.c) (drnAcc i) (rowCount s i)).headD 9

/-- The operand errors of a run that both drains share: it does not fit, has several formats, or does not fill whole rows (R205). -/
theorem runBad_iff (v : Cluster) (acc n per N : Nat) :
    runBad v acc n per N = true ↔ (64 < acc + n ∨ 1 < (runFormats v acc n).length) ∨ n * N % per ≠ 0 := by
  simp [runBad]

section
variable (hn : rowCount s i ≠ 0) (hhold : (s.cl i.c).hold = none)
include hn hhold

section
variable (hbad : 64 < drnAcc i + rowCount s i ∨ 1 < (runFormats (s.cl i.c) (drnAcc i) (rowCount s i)).length)
include hbad

theorem bodyDrn_badRun : bodyDrn i s = .trap s 0x04 0 0 :=
  (if_neg hn).trans ((if_neg (by simp [hhold])).trans (if_pos (.inr (.inl ((runBad_iff _ _ _ _ _).mpr (.inl hbad))))))

theorem bodyDrnp_badRun : bodyDrnp i s = .trap s 0x04 0 0 :=
  (if_neg hn).trans ((if_neg (by simp [hhold])).trans (if_pos ((runBad_iff _ _ _ _ _).mpr (.inl hbad))))

end

section
variable (hfits : drnAcc i + rowCount s i ≤ 64) (hone : (runFormats (s.cl i.c) (drnAcc i) (rowCount s i)).length ≤ 1)
include hfits hone

theorem bodyDrn_begins (hf : hFormat (s.handle i.c (fH i)) ≠ 0xF)
    (hwhole : rowCount s i * tileN (runFormat s i) % elemsPerRow (hFormat (s.handle i.c (fH i))) = 0)
    (hformat : if drnScaled i then mayScale (hFormat (s.handle i.c (fH i))) = true ∧ tileN (runFormat s i) = 64 ∧
      (fImm16 i).toNat + rowCount s i * tileN (runFormat s i) / 32 ≤ 512 else alwaysScaled (hFormat (s.handle i.c (fH i))) = false)
    (hrange : handleRangeOk (s.handle i.c (fH i)) (s.ctxOf i.c) .engineWrite (s.sr i.c (fB i)).toNat
      (rowCount s i * tileN (runFormat s i) / elemsPerRow (hFormat (s.handle i.c (fH i)))) = true) :
    bodyDrn i s = .hold s { opcode := 0x62, iss := calm i } false := by
  refine (if_neg hn).trans ((if_neg (by simp [hhold])).trans ((if_neg ?_).trans (if_pos hrange)))
  rintro (h | h | ⟨h, h'⟩ | ⟨h, h'⟩)
  · exact hf h
  · rcases (runBad_iff _ _ _ _ _).mp h with (h | h) | h
    · omega
    · omega
    · exact h hwhole
  · rw [h, if_neg Bool.false_ne_true] at hformat
    exact absurd h' (ne_true_of_eq_false hformat)
  · rw [h, if_pos rfl] at hformat
    obtain ⟨hmay, hcells, hroom⟩ := hformat
    rcases h' with h' | h' | h'
    · exact absurd hmay (ne_true_of_eq_false h')
    · exact h' hcells
    · exact absurd hroom (Nat.not_le.mpr h')

theorem bodyDrnp_begins (hwhole : rowCount s i * tileN (runFormat s i) % (512 / slotBytes (runFormat s i)) = 0)
    (hrange : handleRangeOk (s.handle i.c (fH i)) (s.ctxOf i.c) .engineWrite (s.sr i.c (fB i)).toNat
      (rowCount s i * tileN (runFormat s i) / (512 / slotBytes (runFormat s i))) = true) :
    bodyDrnp i s = .hold s { opcode := 0x63, iss := calm i } false := by
  refine (if_neg hn).trans ((if_neg (by simp [hhold])).trans ((if_neg fun h => ?_).trans (if_pos hrange)))
  rcases (runBad_iff _ _ _ _ _).mp h with (h | h) | h
  · omega
  · omega
  · exact h hwhole

end

end

end

/-! ## The row operations of a drain (R206) -/

/-- What a DRN reads of its cluster, partition and context is no matter of run-ahead. -/
theorem drnOut_congr {s t : State} {i : Issue} (hcl : SameButAhead (s.cl i.c) (t.cl i.c)) (hparts : t.parts = s.parts)
    (hregions : t.regions = s.regions) (hctxs : t.ctxs = s.ctxs) : t.drnOut i = s.drnOut i ∧ rowCount t i = rowCount s i := by
  obtain ⟨ahead, hcl⟩ : ∃ a, t.cl i.c = { s.cl i.c with ahead := a } := ⟨_, hcl⟩
  have hround (mode : Nat) (sat : Bool) (pos : Word) : t.roundingFor i.c mode sat pos = s.roundingFor i.c mode sat pos := by
    simp only [State.roundingFor, State.recordSeq, State.ctxOf, State.partOf, State.part_def, State.ctx_def, State.region_def, hparts, hregions, hctxs]
  refine ⟨?_, ?_⟩
  · simp only [State.drnOut, rowCount, State.handle, State.sr, State.regsOf, hround, hcl]
    rfl
  · simp only [rowCount, State.sr, State.regsOf, hcl]

/-- What a DRN counts, and the block scales it writes. -/
def tallyDrain (o : DrainOut) (i : Issue) (v : Cluster) : Cluster :=
  { v with
    ev := countConv o.counts { v.ev with range := satAdd v.ev.range o.range, below := satAdd v.ev.below o.below }
    regs := if drnScaled i then v.regs.mergeBits (fA i) (byteBits (fImm16 i).toNat o.scales.length)
        (BitVec.ofNat 4096 (o.scales.foldr (fun e a => e + a * 256) 0 * 256 ^ (fImm16 i).toNat))
      else v.regs }

/-- The clear option of a drain of a run of n rows. -/
def clearRun (i : Issue) (n : Nat) (v : Cluster) : Cluster := if fF i % 2 = 1 then clearAccs (drnAcc i) n v else v

/-- A cluster whose drain of a run of n rows has retired. -/
def drainedCluster (o : DrainOut) (i : Issue) (n : Nat) (drn : Bool) (v : Cluster) : Cluster :=
  clearRun i n (if drn then tallyDrain o i v else v)

theorem drainEnd_cl (s : State) (i : Issue) (drn : Bool) :
    (s.drainEnd i drn).cl i.c = drainedCluster (s.drnOut i) i (rowCount s i) drn (s.cl i.c) := by
  unfold State.drainEnd drainedCluster clearRun tallyDrain
  by_cases hclear : fF i % 2 = 1 <;> cases drn <;> by_cases hscaled : drnScaled i = true <;> simp [hclear, hscaled, State.modRegs]

theorem noStore_drainEnd (s : State) (i : Issue) (drn : Bool) : NoStore s (s.drainEnd i drn) := by
  unfold State.drainEnd
  by_cases hclear : fF i % 2 = 1 <;> cases drn <;> by_cases hscaled : drnScaled i = true <;>
    simp [hclear, hscaled, State.modRegs, NoStore]

section
variable (o : DrainOut) (i : Issue) (n : Nat) (drn : Bool) (v : Cluster)

/-- A drain's retirement writes DRN's block scales and counts, and the engine. -/
theorem drainedCluster_eq : drainedCluster o i n drn v = { v with
    regs := if drn && drnScaled i then v.regs.mergeBits (fA i) (byteBits (fImm16 i).toNat o.scales.length)
        (BitVec.ofNat 4096 (o.scales.foldr (fun e a => e + a * 256) 0 * 256 ^ (fImm16 i).toNat))
      else v.regs
    ev := if drn then countConv o.counts { v.ev with range := satAdd v.ev.range o.range, below := satAdd v.ev.below o.below } else v.ev
    eng := (drainedCluster o i n drn v).eng } := by
  unfold drainedCluster clearRun
  by_cases hclear : fF i % 2 = 1
  · simp only [if_pos hclear]
    cases drn <;> rfl
  · simp only [if_neg hclear]
    cases drn <;> rfl

theorem drainedCluster_accRow (m : Nat) : accRow (drainedCluster o i n drn v) m =
    if fF i % 2 = 1 ∧ drnAcc i ≤ m ∧ m < drnAcc i + n then {} else accRow v m := by
  have hkept : accRow (if drn then tallyDrain o i v else v) m = accRow v m := by cases drn <;> rfl
  unfold drainedCluster clearRun
  by_cases hclear : fF i % 2 = 1
  · rw [if_pos hclear, accRow_clearAccs, hkept]
    exact if_congr (by simp [hclear]) rfl rfl
  · rw [if_neg hclear, hkept, if_neg (fun h => hclear h.1)]

end

/-- The last row operation of a drain retires it, with what the run held when the operation began. -/
theorem finish_drained {s t : State} {i : Issue} (hcl : SameButAhead (s.cl i.c) (t.cl i.c)) (hparts : t.parts = s.parts)
    (hregions : t.regions = s.regions) (hctxs : t.ctxs = s.ctxs) (drn : Bool) :
    let o := s.drnOut i
    let r := s.regsOf i.c
    let u := (t.drainEnd i drn).finish i (.ok (t.drainEnd i drn))
    NoStore t u ∧
      Advances s u i (if drn && drnScaled i then r.mergeBits (fA i) (byteBits (fImm16 i).toNat o.scales.length)
        (BitVec.ofNat 4096 (o.scales.foldr (fun e a => e + a * 256) 0 * 256 ^ (fImm16 i).toNat)) else r) true (nextPc s i) ∧
      (drn = true → (u.cl i.c).ev =
        countConv o.counts { (s.cl i.c).ev with range := satAdd (s.cl i.c).ev.range o.range, below := satAdd (s.cl i.c).ev.below o.below }) ∧
      ∀ m, accRow (u.cl i.c) m =
        if fF i % 2 = 1 ∧ drnAcc i ≤ m ∧ m < drnAcc i + rowCount s i then {} else accRow (s.cl i.c) m := by
  intro o r u
  obtain ⟨hout, hcount⟩ := drnOut_congr hcl hparts hregions hctxs
  obtain ⟨ahead, hcl⟩ : ∃ a, t.cl i.c = { s.cl i.c with ahead := a } := ⟨_, hcl⟩
  have hend : (t.drainEnd i drn).cl i.c = drainedCluster o i (rowCount s i) drn { s.cl i.c with ahead := ahead } := by
    rw [drainEnd_cl, hout, hcount, hcl]
  have hacc := drainedCluster_accRow o i (rowCount s i) drn { s.cl i.c with ahead := ahead }
  have hdrained := drainedCluster_eq o i (rowCount s i) drn { s.cl i.c with ahead := ahead }
  generalize drainedCluster o i (rowCount s i) drn { s.cl i.c with ahead := ahead } = v at *
  have hnext : nextPc (t.drainEnd i drn) i = nextPc s i := by
    rw [nextPc, State.regsOf, hend, hdrained]
    cases drn && drnScaled i <;> rfl
  have hu : u.cl i.c = retireCluster true (nextPc s i) v := by
    rw [← hnext, ← hend]
    exact State.setCl_cl_same _ _ _
  refine ⟨(noStore_drainEnd t i drn).trans (noStore_finish_ok _ i _), ?_, fun hdrn => ?_, fun m => ?_⟩
  · have hadv := advances_of_retireCluster (s := s) hu (by rw [hdrained]) (by rw [hdrained])
    rw [hdrained] at hadv
    exact hadv
  · subst hdrn
    rw [hu, hdrained]
    rfl
  · rw [hu]
    exact hacc m

/-- The rows that a drain writes. -/
def drainRows (s : State) (i : Issue) (drn : Bool) : List Row := if drn then (s.drnOut i).rows else s.drnpOut i

section
variable {s : State} {h : Hold} {b : Nat} {drn : Bool} (hdrn : decide (h.opcode = 0x62) = drn)
  (hb : handleRow (s.handle h.iss.c (fH h.iss)) ((s.sr h.iss.c (fB h.iss)).toNat + h.j) = b)
  (hback : hBacking (s.handle h.iss.c (fH h.iss)) = 0) (hwrite : Writable s h.iss.c b (hTagged (s.handle h.iss.c (fH h.iss))))
include hdrn hb hback hwrite

/-- A row operation whose row is writable writes it; the drain retires after its last, and else goes on to the next row. -/
theorem drainOp_writes : ∃ t, RowWritten s t h.iss.c b ((drainRows s h.iss drn).getD h.j 0) ∧ SameButAhead (s.cl h.iss.c) (t.cl h.iss.c) ∧
    t.parts = s.parts ∧ t.regions = s.regions ∧ t.ctxs = s.ctxs ∧
    s.drainOp h = if h.j + 1 = (drainRows s h.iss drn).length then (t.drainEnd h.iss drn).finish h.iss (.ok (t.drainEnd h.iss drn))
      else t.rowOpDone h (drainRows s h.iss drn).length := by
  subst hdrn hb
  obtain ⟨t, hdone, htrow, honly, hcl, hparts, hregions, hctxs⟩ := rowAccess_write
    (w := (drainRows s h.iss (decide (h.opcode = 0x62))).getD h.j 0) (u := .none)
    (by cases hTagged (s.handle h.iss.c (fH h.iss)) <;> rfl) (tagTable_writable hwrite)
  refine ⟨t, ⟨honly, htrow⟩, hcl _, hparts, hregions, hctxs, ?_⟩
  unfold drainRows at *
  unfold State.drainOp writeBy
  simp only [entryAccess_resident hback, hdone]

end

/-- A drain that is not at its last row goes on to the next, its registers as they were. -/
theorem rowOpDone_next {t : State} {h : Hold} {n : Nat} (hmore : h.j + 1 ≠ n) : (t.rowOpDone h n).regsOf h.iss.c = t.regsOf h.iss.c ∧
    ((t.rowOpDone h n).cl h.iss.c).hold = some { h with j := h.j + 1, since := none } := by
  unfold State.rowOpDone
  rw [if_neg hmore]
  refine ⟨?_, ?_⟩ <;> simp [State.regsOf]

/-- A cluster that holds on a drain in a region in Run carries out its next row operation. -/
theorem exec_drainRowOperation {s : State} {c : Nat} {u : Upset} {h : Hold} (hhold : (s.cl c).hold = some h) (hst : (s.cl c).st = .running)
    (hrun : (s.region (regionOf c)).pstate = .run) (hu : u ≠ .engine) (hop : h.opcode = 0x62 ∨ h.opcode = 0x63) :
    exec (.drainRowOperation c u) s = .next (s.drainOp h) := by
  change execDrainRowOperation c u s = _
  unfold execDrainRowOperation
  rcases hop with hop | hop
  · simp only [heldOn_eq (op := 0x62) hhold (.inl hst) hop hrun, if_neg hu]
  · have hother : s.heldOn c 0x62 = none := by simp [State.heldOn, hhold, hst, hop]
    simp only [hother, heldOn_eq (op := 0x63) hhold (.inl hst) hop hrun, if_neg hu]

/-- Settles O9: a drain of no rows has no effect, one of a run without operand errors begins, and each of its row operations writes one row; with
the last it retires. -/
theorem electrumDrains : Obligations.ElectrumDrains := by
  unfold Obligations.ElectrumDrains
  refine ⟨fun i s hready hu => ?_, ?_⟩
  · intro v n e f g per begins
    have hhold := ready_hold hready
    rw [exec_drn hu, exec_drnp hu]
    refine ⟨fun hl hn => ?drnIdle, fun hl hn => ?drnpIdle, fun hn hfits hone => ⟨fun hl hf hwhole hformat hrange => ?drn, fun hl hwhole hrange => ?drnp⟩,
      fun hn hbad => ⟨fun hl => ?drnTraps, fun hl => ?drnpTraps⟩⟩
    case drnIdle => exact retires_of_idle_body hready hl 0x62 (bodyDrn_idle hn)
    case drnpIdle => exact retires_of_idle_body hready hl 0x63 (bodyDrnp_idle hn)
    case drn =>
      have hbegins := begins_of_body hready hl 0x62 (bodyDrn_begins hn hhold hfits hone hf hwhole hformat hrange)
      rwa [← exec_drn hu] at hbegins
    case drnp =>
      have hbegins := begins_of_body hready hl 0x63 (bodyDrnp_begins hn hhold hfits hone hwhole hrange)
      rwa [← exec_drnp hu] at hbegins
    case drnTraps => exact traps_of_body hready hl 0x62 (bodyDrn_badRun hn hhold hbad)
    case drnpTraps => exact traps_of_body hready hl 0x63 (bodyDrnp_badRun hn hhold hbad)
  · rintro c u s h hhold rfl hst hrun hu hop i drn o rows e b r at' hback hwrite
    obtain ⟨t, hwritten, hcl, hparts, hregions, hctxs, hdrain⟩ := drainOp_writes (drn := drn) rfl rfl hback hwrite
    have hexec := exec_drainRowOperation hhold hst hrun hu hop
    rw [hdrain] at hexec
    by_cases hlast : h.j + 1 = (drainRows s h.iss drn).length
    · rw [if_pos hlast] at hexec
      obtain ⟨hstore, hadv, hev, hacc⟩ := finish_drained hcl hparts hregions hctxs drn
      obtain ⟨honly, hrow⟩ := hwritten.of_noStore hstore
      exact ⟨_, hexec, honly, hrow, fun hmore => absurd hlast hmore, fun _ => ⟨hadv, hev, hacc⟩⟩
    · rw [if_neg hlast] at hexec
      obtain ⟨hregs, hnext⟩ := rowOpDone_next (t := t) hlast
      obtain ⟨honly, hrow⟩ := hwritten.of_noStore (noStore_rowOpDone t h _)
      refine ⟨_, hexec, honly, hrow, fun _ => ⟨hregs.trans ?_, hnext⟩, fun hend => absurd hend hlast⟩
      rw [State.regsOf, hcl]
      rfl

end Sys2Proof.Machine

namespace Sys2Proof.Machine
open Sys2Proof

/-! ## Conversion and quantisation (R211, R212) -/

/-- A state that differs in one cluster alone draws nothing. -/
theorem OnlyCluster.undrawn {s t : State} {c : Nat} (h : OnlyCluster s t c) : { t with fresh := s.fresh, clusters := s.clusters } = s := by
  obtain ⟨hrest, -⟩ := h
  have hfresh := congrArg State.fresh hrest
  rw [← hfresh]
  exact hrest

section
variable (s : State) (i : Issue) (off : Nat) (ss : List Nat)

/-- What block scales written to v[c] leave of the cluster; where v[c] is v[a] the bytes written are drawn. -/
theorem putScales_cl : (s.putScales i off ss).cl i.c = { s.cl i.c with
    regs := (s.regsOf i.c).mergeBits (fC i) (bitRange (8 * off) (8 * (off + ss.length)))
      (if fC i = fA i then Config.freeRow s.fresh else BitVec.ofNat 4096 (ss.foldr (fun e a => e + a * 256) 0 * 256 ^ off)) } := by
  unfold State.putScales
  split
  · exact State.setCl_cl_same _ _ _
  · exact State.setCl_cl_same _ _ _

theorem putScales_undrawn : { s.putScales i off ss with fresh := s.fresh, clusters := s.clusters } = s := by
  unfold State.putScales
  split <;> rfl

theorem putScales_cl_ne {d : Nat} (hd : d ≠ i.c) : (s.putScales i off ss).cl d = s.cl d := by
  unfold State.putScales
  split <;> exact State.setCl_cl_ne _ _ _ _ hd

end

section
variable {s : State} {i : Issue} {p : Placing} (hp : placing (vcFmt i) (vcDfmt i) (fF i) = some p)
include hp

theorem bodyVcvt_converts (hsrc : unscaledFmt (vcFmt i) = true) (hdst : unscaledFmt (vcDfmt i) = true) :
    bodyVcvt i s = .ok (s.putElems i.c (fA i) (vcDfmt i) p.dst ((List.range p.n).map (fun n => roundElem (vcDfmt i) (s.vcRounding i) (p.dst + n)
      (decodeElem (vcFmt i) (elemAt (vcFmt i) ((s.regsOf i.c).row (fB i)) (p.src + n))))) 0) := by
  simp [bodyVcvt, hp, hsrc, hdst]

section
variable (hroom : quantOff i + p.n / 32 ≤ 512)
include hroom

theorem bodyVqnt_quantises {bs : List (Nat × List (Nat × Count) × Bool)} (hsrc : unscaledFmt (vcFmt i) = true) (hdst : mayScale (vcDfmt i) = true)
    (hbs : (blocksOf (p.n / 32) ((List.range p.n).map (fun n => decodeElem (vcFmt i) (elemAt (vcFmt i) ((s.regsOf i.c).row (fB i)) (p.src + n))))).zipIdx.map
      (fun b => quantBlock (vcDfmt i) (vcMethod i) (s.vcRounding i) (p.dst + 32 * b.2) b.1) = bs) :
    bodyVqnt i s = .ok ((s.putElems i.c (fA i) (vcDfmt i) p.dst (bs.flatMap (fun b => b.2.1)) (bs.countP (fun b => b.2.2))).putScales i
      (quantOff i) (bs.map Prod.fst)) := by
  subst hbs
  simp [bodyVqnt, hp, hsrc, hdst, Nat.not_lt.mpr hroom]

theorem bodyVdq_converts (hsrc : mayScale (vcFmt i) = true) (hdst : unscaledFmt (vcDfmt i) = true) :
    bodyVdq i s = .ok (s.putElems i.c (fA i) (vcDfmt i) p.dst ((List.range p.n).map (fun n => roundElem (vcDfmt i) (s.vcRounding i) (p.dst + n)
      (scaledElem (vcFmt i) (rowByte ((s.regsOf i.c).row (fC i)) (quantOff i + n / 32)) (elemAt (vcFmt i) ((s.regsOf i.c).row (fB i)) (p.src + n))))) 0) := by
  simp [bodyVdq, hp, hsrc, hdst, Nat.not_lt.mpr hroom]

end

end

theorem bodyVcvt_unplaced {s : State} {i : Issue} (hp : placing (vcFmt i) (vcDfmt i) (fF i) = none) : bodyVcvt i s = .trap s 0x04 0 0 := by
  simp [bodyVcvt, hp]

/-- A VQNT without an operand error retires with its codes under the mask of v[a] and its block scales in v[c]. -/
theorem finish_quantised (s : State) (i : Issue) {f k0 n off : Nat} (es : List (Nat × Count)) (ss : List Nat) :
    let t := s.finish i (.ok ((s.putElems i.c (fA i) f k0 es n).putScales i off ss))
    { t with fresh := s.fresh, clusters := s.clusters } = s ∧ (∀ d, d ≠ i.c → t.cl d = s.cl d) ∧
      Advances s t i (((s.regsOf i.c).mergeBits (fA i) (bitRange (elemWidth f * k0) (elemWidth f * (k0 + es.length)))
        (BitVec.ofNat 4096 ((packRow f (es.map Prod.fst)).toNat * 2 ^ (elemWidth f * k0)))).mergeBits (fC i) (bitRange (8 * off) (8 * (off + ss.length)))
          (if fC i = fA i then Config.freeRow s.fresh else BitVec.ofNat 4096 (ss.foldr (fun e a => e + a * 256) 0 * 256 ^ off))) true (nextPc s i) ∧
      (t.cl i.c).ev = countConv (countOf (writtenCounts ((s.regsOf i.c).mask (fA i)) f k0 es) n) (s.cl i.c).ev := by
  intro t
  have hcl : t.cl i.c = retireCluster true (nextPc s i) (((s.putElems i.c (fA i) f k0 es n).putScales i off ss).cl i.c) :=
    State.setCl_cl_same _ _ _
  rw [putScales_cl, State.regsOf, putElems_cl] at hcl
  have honly := onlyCluster_putElems s i.c (fA i) f k0 es n
  refine ⟨?_, fun d hd => ?_, advances_of_retireCluster hcl rfl rfl, ?_⟩
  · have hput := honly.undrawn
    have hscales := putScales_undrawn (s.putElems i.c (fA i) f k0 es n) i off ss
    rw [← hscales] at hput
    exact hput
  · exact (State.setCl_cl_ne _ _ _ _ hd).trans ((putScales_cl_ne _ i off ss hd).trans (honly.2 d hd))
  · rw [hcl]
    rfl

/-! ## Energy hints (R213, R214) -/

/-- A cluster with the hint of level k for d ticks from now; none for no ticks. -/
def hinted (now d k : Nat) (v : Cluster) : Cluster :=
  if d = 0 then { v with hintLevel := 0, hintUntil := 0 } else { v with hintLevel := BitVec.ofNat 4 k, hintUntil := now + d }

theorem hinted_eq (now d k : Nat) (v : Cluster) : hinted now d k v =
    { v with hintLevel := if d = 0 then 0 else BitVec.ofNat 4 k, hintUntil := if d = 0 then 0 else now + d } := by
  unfold hinted
  split <;> rfl

/-- Settles O12: a conversion with a placement writes its elements, VQNT the block scales too; without one VCVT traps. EHINT sets the hint. -/
theorem vectorConversion : Obligations.VectorConversion := by
  unfold Obligations.VectorConversion
  intro i s hready sf df r rd el put
  have hput (x : Instr) (op : Nat) {legal : Bool} {body : State → Effect} {p : Placing} {es : List (Nat × Count)} (hl : legal = true)
      (hexec : exec x s = s.retire op i legal body) (hbody : body s = .ok (s.putElems i.c (fA i) df p.dst es 0)) : put x p es 0 id := by
    obtain ⟨t, hnext, honly, hadv, hev⟩ := retires_putElems hready hl op hbody
    exact ⟨t, hexec.trans hnext, honly.undrawn, honly.2, hadv, hev⟩
  refine ⟨fun hvc hl hsrc hdst p hp => ?vcvt, fun hl hsrc hdst p hp hroom => ?vqnt, fun hl hsrc hdst p hp hroom => ?vdq, fun hvc hl hp => ?vcvtTraps,
    fun hl => ?ehint⟩
  case vcvt => exact hput _ 0x80 (Bool.and_eq_true_iff.mpr ⟨hl, hvc⟩) rfl (bodyVcvt_converts hp hsrc hdst)
  case vqnt =>
    intro vs bs
    refine ⟨_, ready_retire hready hl 0x81 (bodyVqnt i), ?_⟩
    rw [bodyVqnt_quantises hp hroom hsrc hdst (bs := bs) rfl]
    have hfinish := finish_quantised s i (f := df) (k0 := p.dst) (n := bs.countP (fun b => b.2.2)) (off := quantOff i)
      (bs.flatMap (fun b => b.2.1)) (bs.map Prod.fst)
    rw [List.length_map] at hfinish
    exact hfinish
  case vdq => exact hput _ 0x82 hl rfl (bodyVdq_converts hp hroom hsrc hdst)
  case vcvtTraps => exact traps_of_body hready (Bool.and_eq_true_iff.mpr ⟨hl, hvc⟩) 0x80 (bodyVcvt_unplaced hp)
  case ehint =>
    intro d
    have hcl : (s.modCl i.c (hinted s.now d (fF i))).cl i.c = _ := (State.setCl_cl_same _ _ _).trans (hinted_eq _ _ _ _)
    have hfinish : (s.finish i (.ok (s.modCl i.c (hinted s.now d (fF i))))).cl i.c = _ := State.setCl_cl_same _ _ _
    rw [hcl] at hfinish
    refine ⟨s.finish i (.ok (s.modCl i.c (hinted s.now d (fF i)))), ready_retire hready hl 0xB0 _,
      (onlyCluster_modCl s i.c _).trans (onlyCluster_modCl _ i.c _), finish_ok_advances hcl rfl rfl rfl, ?_, ?_⟩
    · rw [hfinish]
      rfl
    · rw [hfinish]
      rfl

end Sys2Proof.Machine

namespace Sys2Proof.Machine
open Sys2Proof

/-! ## Requests sent one after the other (R224, R254, R255) -/

section
variable {key key' : Nat} (hne : key' ≠ key) (d epoch : Nat) (fs : List Flow)

theorem length_takePlace_le : (takePlace key d epoch fs).length ≤ fs.length + 1 := by
  unfold takePlace
  split <;> simp

include hne in
/-- A place taken on one flow leaves the entry of another as it was. -/
theorem find_takePlace_ne : (takePlace key d epoch fs).find? (fun f => f.key == key') = fs.find? (fun f => f.key == key') := by
  unfold takePlace
  split
  next hany =>
    clear hany
    induction fs with
    | nil => rfl
    | cons f fs ih =>
      rw [List.map_cons, List.find?_cons, List.find?_cons, ih]
      by_cases hf : f.key = key
      · simp [hf, beq_eq_false_iff_ne.mpr hne.symm]
      · rw [if_neg hf]
  next => simp [hne.symm]

end

section
variable {s : State} {c key : Nat} (kind : OpKind) (k : Packet) (hperim : s.noPerimeter (regionOf c) k.dst = false)
  (hroute : s.noRoute (regionOf c) (nodeRegion k.dst) = false)
include hperim hroute

/-- A request that leaves changes nothing that decides where packets may go. -/
theorem sendOp_frame : (s.sendOp c key kind k).regions = s.regions ∧ (s.sendOp c key kind k).parts = s.parts ∧
    (s.sendOp c key kind k).ctxs = s.ctxs ∧ (s.sendOp c key kind k).routes = s.routes ∧ (s.sendOp c key kind k).perimRoutes = s.perimRoutes := by
  unfold State.sendOp
  simp only [hperim, hroute, Bool.false_eq_true, if_false]
  exact ⟨rfl, rfl, rfl, rfl, rfl⟩

/-- After a request has left on one flow, one may leave on another while both tables have room. -/
theorem mayLeave_sendOp {key' : Nat} {d : Node} (hne : key' ≠ key) (hops : (s.cl c).fab.ops.length + 1 < 128)
    (hflows : (s.cl c).fab.flows.length + 1 < 64) (hleave : MayLeave s c key' d) : MayLeave (s.sendOp c key kind k) c key' d := by
  obtain ⟨hmay, hperim', hroute'⟩ := hleave
  obtain ⟨hregions, hparts, hctxs, hroutes, hperims⟩ := sendOp_frame (key := key) kind k hperim hroute
  obtain ⟨⟨-, -, hops', hflows', -⟩, -⟩ := sendOp_sends (key := key) kind k hperim hroute
  have hregion (r : Nat) : (s.sendOp c key kind k).region r = s.region r := by simp only [State.region_def, hregions]
  have hlen := length_takePlace_le (key := key) (nodeRegion k.dst) (s.epochTo c (nodeRegion k.dst)) (s.cl c).fab.flows
  refine ⟨?_, ?_, ?_⟩
  · have hflow : flowOf ((s.sendOp c key kind k).cl c) key' = flowOf (s.cl c) key' := by
      unfold flowOf
      rw [hflows', find_takePlace_ne hne]
    have hwindow : (s.sendOp c key kind k).fabWindow c = s.fabWindow c := by
      simp only [State.fabWindow, State.ctxOf, State.partOf, hregion, State.part_def, State.ctx_def, hparts, hctxs]
    have hepoch : (s.sendOp c key kind k).epochTo c (nodeRegion d) = s.epochTo c (nodeRegion d) := by
      simp only [State.epochTo, State.route, hroutes]
    unfold State.maySend at hmay ⊢
    simp only [hflow, hwindow, hepoch, hops', hflows', List.length_append, List.length_singleton, Bool.and_eq_true, decide_eq_true_eq] at hmay ⊢
    refine ⟨hops, ?_⟩
    cases hcase : flowOf (s.cl c) key' with
    | none => exact decide_eq_true (by omega)
    | some f => simpa only [hcase] using hmay.2
  · unfold State.noPerimeter State.perimRoute at *
    simpa only [hregion, hperims] using hperim'
  · unfold State.noRoute State.route at *
    simpa only [hregion, hroutes] using hroute'

end

/-- What of a packet its sender chooses. -/
def Packet.sent (k : Packet) : PType × Node × Node × Nat × Word × Row := (k.ptype, k.src, k.dst, k.handle, k.index, k.data)

/-- The packet of an MCAST to one member. -/
def mcastPacket (i : Issue) (row : Row) (idx : Nat) (m : SpanMember) : Packet := reqPacket i.c .write (.cluster m.cluster) m.handle idx 4 8 row

/-- An MCAST that finds a place for every member's packet sends them all, and changes its cluster's side of the fabric alone. -/
theorem mcastSend_all (i : Issue) (row : Row) (idx : Nat) (ms : List SpanMember) (s : State)
    (hkeys : (ms.map (fun m => flowKey (.cluster m.cluster) m.handle)).Nodup)
    (hleave : ∀ m ∈ ms, MayLeave s i.c (flowKey (.cluster m.cluster) m.handle) (.cluster m.cluster))
    (hops : (s.cl i.c).fab.ops.length + ms.length ≤ 128) (hflows : (s.cl i.c).fab.flows.length + ms.length ≤ 64) :
    (mcastSend i row idx ms s).2 = [] ∧ NoStore s (mcastSend i row idx ms s).1 ∧
    (mcastSend i row idx ms s).1.cl i.c = { s.cl i.c with fab := ((mcastSend i row idx ms s).1.cl i.c).fab } ∧
    (mcastSend i row idx ms s).1.net.map Packet.sent = s.net.map Packet.sent ++ ms.map (fun m => (mcastPacket i row idx m).sent) := by
  induction ms generalizing s with
  | nil => exact ⟨rfl, ⟨rfl, rfl, rfl⟩, rfl, (List.append_nil _).symm⟩
  | cons m rest ih =>
    obtain ⟨hfresh, hrest⟩ := List.nodup_cons.mp hkeys
    obtain ⟨hmay, hperim, hroute⟩ := hleave m List.mem_cons_self
    obtain ⟨⟨hnet, -, hops', hflows', -⟩, hstore, -⟩ :=
      sendOp_sends (key := flowKey (.cluster m.cluster) m.handle) .mcast (mcastPacket i row idx m) hperim hroute
    have hcl := sendOp_cl (key := flowKey (.cluster m.cluster) m.handle) .mcast (mcastPacket i row idx m) hperim hroute
    generalize ht : s.sendOp i.c (flowKey (.cluster m.cluster) m.handle) .mcast (mcastPacket i row idx m) = t at *
    have hlen := length_takePlace_le (key := flowKey (.cluster m.cluster) m.handle) (nodeRegion (mcastPacket i row idx m).dst)
      (s.epochTo i.c (nodeRegion (mcastPacket i row idx m).dst)) (s.cl i.c).fab.flows
    have hsend : mcastSend i row idx (m :: rest) s = mcastSend i row idx rest t := by
      subst ht
      exact if_pos hmay
    rw [List.length_cons] at hops hflows
    obtain ⟨hleft, hstore', hcl', hnet'⟩ := ih t hrest
      (fun m' hm' => by
        have hroom := List.length_pos_of_mem hm'
        subst ht
        refine mayLeave_sendOp _ _ hperim hroute (fun heq => hfresh (List.mem_map.mpr ⟨m', hm', heq⟩)) (by omega) (by omega)
          (hleave m' (List.mem_cons_of_mem _ hm')))
      (by rw [hops', List.length_append, List.length_singleton]; omega) (by rw [hflows']; omega)
    rw [hsend]
    refine ⟨hleft, hstore.trans hstore', ?_, ?_⟩
    · rw [hcl', hcl]
    · rw [hnet', hnet, List.map_append, List.append_assoc]
      rfl

/-! ## SEND, RECV and MCAST at retirement (R215 to R218, R224) -/

section
variable {s : State} {i : Issue}

section
variable (hbad : s.badDest i.c (s.sr i.c (fC i)).toNat = true)
include hbad

theorem bodySend_badDest : bodySend i s = .trap s 0x22 0 0 := if_pos hbad
theorem bodyRecv_badDest : bodyRecv i s = .trap s 0x22 0 0 := if_pos hbad

end

/-- A flow that holds its next packet is a change of the sender's cluster that leaves its registers and its hold. -/
theorem waits_of_heldFlow {op key d : Nat} (hhold : (s.cl i.c).hold = none) :
    Waits s (s.finish i (.hold (s.holdFlow i.c key d) (s.holdFor op i) true)) i op := by
  refine ⟨?_, ?_, ?_, (onlyCluster_modCl s i.c _).trans (onlyCluster_modCl _ i.c _)⟩
  · simp [State.finish]
  · simp [State.finish, State.holdFlow, State.regsOf]
  · simp [State.finish, holdFor_fresh hhold]

section
variable (hgood : s.badDest i.c (s.sr i.c (fC i)).toNat = false)
include hgood

theorem bodySend_sends (hmay : s.maySend i.c (flowKey (.cluster (s.sr i.c (fC i)).toNat) (fH i)) (regionOf (s.sr i.c (fC i)).toNat) = true) :
    bodySend i s = .ok (s.sendOp i.c (flowKey (.cluster (s.sr i.c (fC i)).toNat) (fH i)) .send
      (reqPacket i.c .write (.cluster (s.sr i.c (fC i)).toNat) (fH i) (rowIndex s i) 4 8 ((s.regsOf i.c).row (fA i)))) :=
  (if_neg (ne_true_of_eq_false hgood)).trans (if_pos hmay)

theorem bodySend_held (hmay : s.maySend i.c (flowKey (.cluster (s.sr i.c (fC i)).toNat) (fH i)) (regionOf (s.sr i.c (fC i)).toNat) = false) :
    bodySend i s = .hold (s.holdFlow i.c (flowKey (.cluster (s.sr i.c (fC i)).toNat) (fH i)) (regionOf (s.sr i.c (fC i)).toNat)) (s.holdFor 0xC0 i) true :=
  (if_neg (ne_true_of_eq_false hgood)).trans (if_neg (ne_true_of_eq_false hmay))

section
variable (hhold : (s.cl i.c).hold = none)
include hhold

theorem bodyRecv_plain (hplain : s.prefetchOf i.c (s.sr i.c (fC i)).toNat (fH i) (rowIndex s i) = none) :
    bodyRecv i s = recvRead i (s.sr i.c (fC i)).toNat (rowIndex s i) s := by
  simp [bodyRecv, hgood, hhold, hplain]

section
variable {f : Prefetch} {data : Row} (hprefetch : s.prefetchOf i.c (s.sr i.c (fC i)).toNat (fH i) (rowIndex s i) = some f)
  (hdata : f.data = some data) (hwatched : f.watched = true) (hfresh : f.stale = false)
include hprefetch hdata hwatched hfresh

theorem bodyRecv_peeks (hpeek : fF i % 2 = 1) :
    bodyRecv i s = .ok ((s.modCl i.c (dropPrefetch f false)).modRegs i.c (fun r => r.mergeRow (fA i) data)) := by
  simp [bodyRecv, hgood, hhold, hprefetch, hdata, hwatched, hfresh, hpeek]

theorem bodyRecv_consumes (hpeek : fF i % 2 = 0)
    (hmay : s.maySend i.c (flowKey (.cluster (s.sr i.c (fC i)).toNat) (fH i)) (regionOf (s.sr i.c (fC i)).toNat) = true) :
    bodyRecv i s = .hold (s.sendOp i.c (flowKey (.cluster (s.sr i.c (fC i)).toNat) (fH i)) .consume
        (reqPacket i.c .consume (.cluster (s.sr i.c (fC i)).toNat) (fH i) (rowIndex s i) 3 0 0))
      { s.holdFor 0xC1 i with tag := s.nextTag i.c, data := some data } true := by
  simp [bodyRecv, hgood, hhold, hprefetch, hdata, hwatched, hfresh, hpeek, hmay]

end

end

end

theorem recvRead_sends {d idx : Nat} (hmay : s.maySend i.c (flowKey (.cluster d) (fH i)) (regionOf d) = true) : recvRead i d idx s =
    .hold (s.sendOp i.c (flowKey (.cluster d) (fH i)) .recv (reqPacket i.c .read (.cluster d) (fH i) idx (fF i % 2) 0 0))
      { s.holdFor 0xC1 i with tag := s.nextTag i.c, since := some s.now } true := if_pos hmay

theorem recvRead_held {d idx : Nat} (hmay : s.maySend i.c (flowKey (.cluster d) (fH i)) (regionOf d) = false) : recvRead i d idx s =
    .hold (s.holdFlow i.c (flowKey (.cluster d) (fH i)) (regionOf d)) (s.holdFor 0xC1 i) true := if_neg (ne_true_of_eq_false hmay)

/-- A RECV served by a prefetch retires with the row it peeked. -/
theorem finish_prefetched (f : Prefetch) (data : Row) :
    let t := s.finish i (.ok ((s.modCl i.c (dropPrefetch f false)).modRegs i.c (fun r => r.mergeRow (fA i) data)))
    OnlyCluster s t i.c ∧ Advances s t i ((s.regsOf i.c).mergeRow (fA i) data) true (nextPc s i) :=
  ⟨((onlyCluster_modCl s i.c _).trans (onlyCluster_modCl _ i.c _)).trans (onlyCluster_modCl _ i.c _),
    finish_ok_after (SameButAhead.refl _) _ (dropPrefetch f false) fun _ => ⟨rfl, rfl, rfl⟩⟩

theorem bodyMcast_undefined (hspan : (s.ctxOf i.c).bind (fun x => s.span x (bitsOf i.x0 11 0)) = none) : bodyMcast i s = .trap s 0x05 0 0 := by
  simp only [bodyMcast, hspan]

/-- The members an MCAST names: all of its span, but for its own cluster where f[0] is 1. -/
def mcastMembers (i : Issue) (sp : Span) : List SpanMember := sp.members.filter (fun m => !(fF i % 2 == 1 && m.cluster == i.c))

theorem bodyMcast_all {sp : Span} (hhold : (s.cl i.c).hold = none) (hspan : (s.ctxOf i.c).bind (fun x => s.span x (bitsOf i.x0 11 0)) = some sp)
    (hsent : (mcastSend i ((s.regsOf i.c).row (fA i)) (rowIndex s i) (mcastMembers i sp) s).2 = []) :
    bodyMcast i s = .ok (mcastSend i ((s.regsOf i.c).row (fA i)) (rowIndex s i) (mcastMembers i sp) s).1 := by
  unfold mcastMembers at *
  simp only [bodyMcast, hspan, hhold, hsent, List.isEmpty_nil, if_true]

end

/-- Settles O13: a bad destination traps; else SEND's and RECV's requests leave or wait for their flow, a prefetched row serves a RECV, and an
MCAST sends one packet to each member. -/
theorem sendReceiveMulticast : Obligations.SendReceiveMulticast := by
  unfold Obligations.SendReceiveMulticast
  intro i s hready d r row idx key plain
  have hhold := ready_hold hready
  refine ⟨fun hbad => ⟨fun hl => ?sendTraps, fun hl => ?recvTraps⟩, fun hgood => ⟨fun hl hleave => ?send, fun hl hmay => ?sendWaits,
    fun hl hplain hleave => ?recv, fun hl hplain hmay => ?recvWaits, fun f data hl hprefetch hdata hwatched hfresh =>
      ⟨fun hpeek => ?recvPeek, fun hpeek hleave => ?recvConsume⟩⟩, fun hl hx => ⟨fun hspan => ?mcastTraps, fun sp hspan => ?mcast⟩⟩
  case sendTraps => exact traps_of_body hready hl 0xC0 (bodySend_badDest hbad)
  case recvTraps => exact traps_of_body hready hl 0xC1 (bodyRecv_badDest hbad)
  case send =>
    obtain ⟨hmay, hperim, hroute⟩ := hleave
    refine ⟨_, ready_retire hready hl 0xC0 (bodySend i), ?_⟩
    rw [bodySend_sends hgood hmay]
    exact finish_sent .send _ hperim hroute
  case sendWaits =>
    refine ⟨_, ready_retire hready hl 0xC0 (bodySend i), ?_⟩
    rw [bodySend_held hgood hmay]
    exact waits_of_heldFlow hhold
  case recv =>
    obtain ⟨hmay, hperim, hroute⟩ := hleave
    refine ⟨_, ready_retire hready hl 0xC1 (bodyRecv i), ?_⟩
    rw [bodyRecv_plain hgood hhold hplain, recvRead_sends hmay, holdFor_fresh hhold]
    exact finish_awaits .recv _ hperim hroute _
  case recvWaits =>
    refine ⟨_, ready_retire hready hl 0xC1 (bodyRecv i), ?_⟩
    rw [bodyRecv_plain hgood hhold hplain, recvRead_held hmay]
    exact waits_of_heldFlow hhold
  case recvPeek =>
    refine ⟨_, ready_retire hready hl 0xC1 (bodyRecv i), ?_⟩
    rw [bodyRecv_peeks hgood hhold hprefetch hdata hwatched hfresh hpeek]
    exact finish_prefetched f data
  case recvConsume =>
    obtain ⟨hmay, hperim, hroute⟩ := hleave
    refine ⟨_, ready_retire hready hl 0xC1 (bodyRecv i), ?_⟩
    rw [bodyRecv_consumes hgood hhold hprefetch hdata hwatched hfresh hpeek hmay, holdFor_fresh hhold]
    exact finish_awaits .consume _ hperim hroute _
  case mcastTraps => exact traps_of_body hready (Bool.and_eq_true_iff.mpr ⟨hl, beq_iff_eq.mpr hx⟩) 0xC2 (bodyMcast_undefined hspan)
  case mcast =>
    intro ms hkeys hleave hops hflows
    obtain ⟨hsent, hstore, hcl, hnet⟩ := mcastSend_all i row idx ms s hkeys hleave hops hflows
    refine ⟨_, ready_retire hready (Bool.and_eq_true_iff.mpr ⟨hl, beq_iff_eq.mpr hx⟩) 0xC2 (bodyMcast i), ?_⟩
    rw [bodyMcast_all hhold hspan hsent]
    exact ⟨hstore.trans (noStore_finish_ok s i _), finish_ok_advances hcl rfl rfl rfl, hnet⟩

end Sys2Proof.Machine

namespace Sys2Proof.Machine
open Sys2Proof

/-! ## An AGATH whose row number leaves 64 bits (R96, R227) -/

/-- A handle of n rows from row b on, a tagged ring or a plain range, of format 1, context 5 and every right (Table 3.6). -/
def gatherHandle (b n : Nat) (ring : Bool) : HandleEntry :=
  BitVec.ofNat 256 (b + 2 ^ 15 * n + (if ring then 2 ^ 30 + 2 ^ 31 else 0) + 2 ^ 32 + 2 ^ 36 * 63 + 2 ^ 48 * 5)

/-- A span of clusters 0 and 1 by one of their handles, of a stripe of 2^65 rows: rows 2^64 − 1 and 2^64 both lie in cluster 0. -/
def gatherSpan (handle : Nat) : Span := { members := [⟨0, handle⟩, ⟨1, handle⟩], stripe := 2 ^ 65 }

/-- Cluster 0, about to gather two rows of a plain handle into rows 2^64 − 1 and 2^64 of a ring of seven rows. -/
def gatherCluster : Cluster :=
  { st := .running, code := { len := 4096 }, handles := [(0, gatherHandle 16 2 false), (1, gatherHandle 0 7 true)],
    regs := { s := [(1, BitVec.allOnes 64), (2, 2)] } }

/-- Context 5 runs a step on cluster 0, without a checkpoint. Row 0 of the ring, which is not among the rows gathered to, is POISONED. -/
def gatherState : State :=
  { State.reset with
    clusters := [(0, gatherCluster)]
    tarn := [(0, { tag := .poisoned })]
    regions := [(0, { pstate := .run, part := some 0 })]
    parts := [(0, { formed := true, regions := [0], resident := some 5,
                    running := some { ctx := 5, q := 0, k := 0, desc := 0, seq := 1, still := true, epoch := 0, clusters := [0] } })]
    ctxs := [(5, { st := .resident, spans := [(0, gatherSpan 0), (1, gatherSpan 1)] })] }

/-- AGATH of s[2] rows from row s[0] of span 0 to row s[1] of span 1. -/
def gatherIssue : Issue := { c := 0, ext := 1, opnds := BitVec.ofNat 48 (1024 + 2 ^ 21 * 2), x0 := 0x11001000 }

/-- What cluster 0 counts of the collectives on span 0. -/
def gatherCount (s : State) : Nat := Tbl.get (fun _ => 0) (s.cl 0).fab.collCount 0

/-- What it counts of them after a command. -/
def countAfter : Result → Nat
  | .next t => gatherCount t
  | _ => 0

/-- The second row is written to row 0 of the ring, its number taken modulo 2^64; that row is POISONED, the integrity event ends the context's
step, and the abort clears what the cluster counts. -/
theorem gather_uncounted : countAfter (exec (.agath gatherIssue) gatherState) = 0 := by decide +kernel

theorem gather_ready : Ready gatherState gatherIssue := by
  unfold Ready
  decide +kernel

/-- Refutes O15: the statement does not bound a span's stripe (R95 does, by 16,384), so the handle row that an AGATH gathers into can be 2^64 or
more. A packet carries it modulo 2^64, and the statement asks another row of the ring to be writable than the one written. -/
theorem not_collectives : ¬ Obligations.Collectives := by
  unfold Obligations.Collectives
  rintro ⟨hissue, -⟩
  obtain ⟨-, -, hspans⟩ := hissue gatherIssue gatherState gather_ready (by decide +kernel)
  obtain ⟨-, htaken⟩ := hspans (gatherSpan 0) (gatherSpan 1) (by decide +kernel) (by decide +kernel) (by decide +kernel)
  have hsource : ∀ j, (gatherState.sr 0 (fB gatherIssue)).toNat ≤ j → j < (gatherState.sr 0 (fB gatherIssue)).toNat + rowCount gatherState gatherIssue →
      Readable gatherState 0 (handleRow (gatherState.handle 0 0) j) (hTagged (gatherState.handle 0 0)) .none := by
    unfold Readable
    decide +kernel
  -- Cluster 0 is a member, the spans have the same two members, its unit is free, and the source rows pass their handle.
  obtain ⟨-, -, -, hagath⟩ := htaken (by decide +kernel) (by decide +kernel) (by decide +kernel) (by decide +kernel) (by decide +kernel)
    (by decide +kernel) (by decide +kernel) (by decide +kernel) hsource rfl
  -- The parameters are legal, and the ring's rows 1 and 2, which the statement takes for the destinations, are writable.
  obtain ⟨t, hnext, -, -, -, hcount, -⟩ := hagath (by decide +kernel) (by decide +kernel) (fun _ => by unfold Writable; decide +kernel)
  have huncounted : gatherCount t = 0 := (congrArg countAfter hnext).symm.trans gather_uncounted
  exact absurd (hcount.symm.trans huncounted) (Nat.succ_ne_zero _)

end Sys2Proof.Machine

namespace Sys2Proof.Machine
open Sys2Proof

/-! ## Links as they read (Table 21.8) -/

/-- What a fold reaches at one element of its list, and keeps at every element, holds at its end; an invariant may help. -/
theorem foldl_reach {α β : Type} {g : β → α → β} {I P : β → Prop} {l : List α} (hI : ∀ t, ∀ b ∈ l, I t → I (g t b))
    (hkeep : ∀ t, ∀ b ∈ l, I t → P t → P (g t b)) {a : α} (hset : ∀ t, I t → P (g t a)) (ha : a ∈ l) {s : β} (hs : I s) : P (l.foldl g s) := by
  obtain ⟨before, after, rfl⟩ := List.append_of_mem ha
  have hbefore : I (before.foldl g s) := List.foldlRecOn before g hs fun t ht b hb => hI t b (List.mem_append_left _ hb) ht
  rw [List.foldl_append, List.foldl_cons]
  refine (List.foldlRecOn (motive := fun t => I t ∧ P t) after g ⟨hI _ a ha hbefore, hset _ hbefore⟩ fun t ht b hb => ?_).2
  have hmem : b ∈ before ++ a :: after := List.mem_append_right _ (List.mem_cons_of_mem a hb)
  exact ⟨hI t b hmem ht.1, hkeep t b hmem ht.1 ht.2⟩

theorem fabLink_congr {s t : State} (h : t.fabLinks = s.fabLinks) (r n : Nat) : t.fabLink r n = s.fabLink r n :=
  congrArg (fun m => Tbl.get (fun _ => ({} : FabLink)) m (r * 128 + n)) h

@[simp] theorem setFabLink_fabLink_same (s : State) (r n : Nat) (v : FabLink) : (s.setFabLink r n v).fabLink r n = v := Tbl.get_set_same _ _ _ _

@[simp] theorem modFabLink_fabLink_same (s : State) (r n : Nat) (f : FabLink → FabLink) : (s.modFabLink r n f).fabLink r n = f (s.fabLink r n) :=
  setFabLink_fabLink_same s r n _

/-! ## Hops (R258 to R263) -/

/-- Whether a packet enters a region of another partition than its own, and not on its way to or from the region's die (R263). -/
def State.strays (s : State) (k : Packet) (h : Hop) : Bool :=
  h.link.isSome && decide ((s.region h.region).part ≠ some k.partition) && !transit k h.region

section
variable {s : State} {k : Packet} {h : Hop}

theorem hop_late (hage : 1000 < s.ageOf k) : s.hop k h = (s.removePkt k.id).countDiscard h.region 3 := if_pos hage

variable (hage : s.ageOf k ≤ 1000)
include hage

theorem hop_badHeader (hhdr : h.hdrOk = false) : s.hop k h = (s.removePkt k.id).countDiscard h.region 0 := by
  unfold State.hop
  rw [if_neg (Nat.not_lt.mpr hage), if_pos (by simp [hhdr])]

variable (hhdr : h.hdrOk = true)
include hhdr

theorem hop_strays (hforeign : s.strays k h = true) : (s.hop k h).net = s.net.filter (fun q => q.id != k.id) ∧
    (s.hop k h).discards = ((s.removePkt k.id).countDiscard h.region 4).discards ∧ NoStore s (s.hop k h) := by
  unfold State.strays at hforeign
  unfold State.hop
  rw [if_neg (Nat.not_lt.mpr hage), if_neg (by simp [hhdr]), if_pos hforeign]
  have hgone : NoStore s ((s.removePkt k.id).countDiscard h.region 4) := ⟨rfl, rfl, rfl⟩
  refine ⟨?_, ?_, hgone.trans (noStore_note _ _ _)⟩
  · rw [State.note_net, State.countDiscard_net, State.removePkt]
  · rw [State.note_discards]

variable (hown : s.strays k h = false)
include hown

theorem hop_intact (hcrc : h.crcOk = true) (hstomp : k.stomp = false) : s.hop k h = s := by
  unfold State.strays at hown
  unfold State.hop
  rw [if_neg (Nat.not_lt.mpr hage), if_neg (by simp [hhdr]), if_neg (ne_true_of_eq_false hown), if_neg (by simp [hcrc]), if_neg (by simp [hstomp])]

theorem hop_stomped (hstomp : k.stomp = true) (hwhole : h.whole = true ∨ h.endpoint = true) :
    s.hop k h = (s.removePkt k.id).countDiscard h.region 2 := by
  unfold State.strays at hown
  unfold State.hop
  rw [if_neg (Nat.not_lt.mpr hage), if_neg (by simp [hhdr]), if_neg (ne_true_of_eq_false hown), if_neg (by simp [hstomp]),
    if_pos (by simpa [hstomp] using hwhole)]

/-- A packet cut through with a bad CRC goes on stomped, and the failure is counted against its link (R239, R259). -/
theorem hop_stomps (hcrc : h.crcOk = false) (hstomp : k.stomp = false) (hend : h.endpoint = false) (hwhole : h.whole = false) :
    NoStore s (s.hop k h) ∧ (s.hop k h).net = s.net.map (fun q => if q.id = k.id then { q with stomp := true } else q) ∧
    ∀ n, h.link = some n → ((s.hop k h).fabLink h.region n).crcDiscards = satInc (s.fabLink h.region n).crcDiscards := by
  unfold State.strays at hown
  unfold State.hop
  rw [if_neg (Nat.not_lt.mpr hage), if_neg (by simp [hhdr]), if_neg (ne_true_of_eq_false hown), if_pos (by simp [hcrc, hstomp])]
  dsimp only
  rw [if_neg (by simp [hend]), if_neg (by simp [hwhole])]
  cases h.link with
  | none => exact ⟨⟨rfl, rfl, rfl⟩, rfl, fun n hn => absurd hn (by simp)⟩
  | some m =>
    refine ⟨⟨rfl, rfl, rfl⟩, rfl, fun n hn => ?_⟩
    obtain rfl := Option.some.inj hn
    exact congrArg FabLink.crcDiscards (modFabLink_fabLink_same s h.region m _)

end

section
variable {s : State} {p : Nat} {k : Packet} (hk : s.net.find? (fun q => q.id == p) = some k)
include hk

theorem exec_packetHop (h : Hop) : exec (.packetHop p h) s = .next (s.hop k h) := by
  change execPacketHop p h s = _
  simp only [execPacketHop, hk]

theorem exec_packetLifetimeExpiry : exec (.packetLifetimeExpiry p) s =
    .next (if 1000 < s.ageOf k then (s.removePkt p).countDiscard (nodeRegion k.dst) 3 else s) := by
  change execPacketLifetimeExpiry p s = _
  simp only [execPacketLifetimeExpiry, hk]
  split <;> rfl

end

theorem exec_creditStall {s : State} {r n ticks : Nat} (hticks : 1200 ≤ ticks) (hexists : linkExists r n = true) :
    exec (.creditStall r n ticks) s = .next (s.setFabLink r n { s.fabLink r n with due := true }) := if_pos ⟨hticks, hexists⟩

theorem exec_creditStall_short {s : State} {r n ticks : Nat} (hticks : ticks < 1200) : exec (.creditStall r n ticks) s = .next s :=
  if_neg fun h => absurd h.1 (Nat.not_le.mpr hticks)

end Sys2Proof.Machine

namespace Sys2Proof.Machine
open Sys2Proof

/-! ## What a change of routes leaves as it was (R246, R248) -/

/-- Nothing is stored, packets and links are as they were, and so is every partition's hold for a retrain. -/
structure KeepsLinks (s t : State) : Prop where
  store : NoStore s t
  net : t.net = s.net
  links : t.fabLinks = s.fabLinks
  holds : ∀ p, (t.part p).retrainHold = (s.part p).retrainHold

theorem KeepsLinks.refl (s : State) : KeepsLinks s s := ⟨.refl s, rfl, rfl, fun _ => rfl⟩

theorem KeepsLinks.trans {s t u : State} (hst : KeepsLinks s t) (htu : KeepsLinks t u) : KeepsLinks s u where
  store := hst.store.trans htu.store
  net := htu.net.trans hst.net
  links := htu.links.trans hst.links
  holds p := (htu.holds p).trans (hst.holds p)

theorem keepsLinks_note (s : State) (code : Nat) (src : Source) : KeepsLinks s (s.note code src) where
  store := noStore_note s code src
  net := State.note_net s code src
  links := State.note_fabLinks s code src
  holds p := by
    obtain ⟨-, hparts, -⟩ := onlyReports_note s code src
    have hhold := congrArg Part.retrainHold (hparts p)
    exact hhold

theorem keepsLinks_fixPerim (s : State) (r die : Nat) : KeepsLinks s (s.fixPerim r die) := by
  have hentry (e : Tbl (BitVec 32)) : KeepsLinks s { s with perimRoutes := e } := ⟨.refl s, rfl, rfl, fun _ => rfl⟩
  unfold State.fixPerim
  dsimp only
  split
  · exact (hentry _).trans (keepsLinks_note _ _ _)
  · exact hentry _

theorem keepsLinks_setPortBit (s : State) (r d port : Nat) (on : Bool) : KeepsLinks s (s.setPortBit r d port on) := by
  have hroutes (e e' : BitVec 32) : KeepsLinks s ((s.setRoute r d e).setRoute d r e') := ⟨.refl s, rfl, rfl, fun _ => rfl⟩
  have hfix {t : State} (ht : KeepsLinks s t) (q : Nat) (dies : List Nat) : KeepsLinks s (dies.foldl (fun (t : State) die => t.fixPerim q die) t) :=
    List.foldlRecOn dies _ ht fun u hu die _ => hu.trans (keepsLinks_fixPerim u q die)
  unfold State.setPortBit
  exact hfix (hfix (hroutes _ _) _ _) _ _

/-! ## A retrain begins (R239, R240) -/

theorem startRetrain_keeps (s : State) (r n : Nat) : KeepsLinks (s.setFabLink r n { s.fabLink r n with retraining := some s.now, heldSince := none })
    (s.startRetrain r n) := by
  unfold State.startRetrain
  split
  · exact keepsLinks_setPortBit _ _ _ _ _
  · exact .refl _

theorem startRetrain_retraining (s : State) (r n : Nat) : ((s.startRetrain r n).fabLink r n).retraining = some s.now := by
  rw [fabLink_congr (startRetrain_keeps s r n).links, setFabLink_fabLink_same]

theorem startRetrain_noStore (s : State) (r n : Nat) : NoStore s (s.startRetrain r n) := (startRetrain_keeps s r n).store

theorem startRetrain_net (s : State) (r n : Nat) : (s.startRetrain r n).net = s.net := (startRetrain_keeps s r n).net

theorem startRetrain_retrainHold (s : State) (r n p : Nat) : ((s.startRetrain r n).part p).retrainHold = (s.part p).retrainHold :=
  (startRetrain_keeps s r n).holds p

/-- The partitions listed are held for a retrain. -/
def State.holdParts (s : State) (ps : List Nat) : State := ps.foldl (fun t p => t.modPart p (fun v => { v with retrainHold := true })) s

theorem holdParts_keeps (s : State) (ps : List Nat) :
    NoStore s (s.holdParts ps) ∧ (s.holdParts ps).fabLinks = s.fabLinks ∧ (s.holdParts ps).now = s.now := by
  simp [State.holdParts, NoStore, State.now_def]

theorem holdParts_retrainHold {ps : List Nat} {p : Nat} (hp : p ∈ ps) (s : State) : ((s.holdParts ps).part p).retrainHold = true := by
  refine foldl_reach (I := fun _ => True) (P := fun t : State => (t.part p).retrainHold = true) (fun _ _ _ _ => trivial)
    (fun t q _ _ ht => ?_) (fun t _ => ?_) hp trivial
  · rw [State.modPart_eq, State.setPart_part]
    split
    · rfl
    · exact ht
  · rw [State.modPart_eq, State.setPart_part_same]

section
variable {s : State} {r n : Nat} (hdue : (s.fabLink r n).due = true) (hfree : (s.fabLink r n).retraining = none)
  (hserv : (s.fabLink r n).outOfService = false) (hexists : linkExists r n = true)
include hdue hfree hserv hexists

/-- A link due for retraining: the partitions at a boundary are held, and it begins once that is all of them. -/
theorem exec_linkRetrain : exec (.linkRetrain r n) s =
    let ready := (s.retrainWaits r n).filter s.atBoundary
    let t := s.holdParts ready
    if ready.length = (s.retrainWaits r n).length then .next (t.startRetrain r n)
    else .next (if ready.isEmpty then t else t.modFabLink r n (fun v => { v with heldSince := some (v.heldSince.getD s.now) })) := by
  change execLinkRetrain r n s = _
  unfold execLinkRetrain
  dsimp only
  rw [if_pos (by simp [hdue, hfree, hserv, hexists])]
  obtain ⟨-, -, hnow⟩ := holdParts_keeps s ((s.retrainWaits r n).filter s.atBoundary)
  rw [← hnow]
  rfl

theorem linkRetrain_begins (hready : ∀ p ∈ s.retrainWaits r n, s.atBoundary p = true) : ∃ t : State, exec (.linkRetrain r n) s = .next t ∧
    NoStore s t ∧ (t.fabLink r n).retraining = some s.now ∧ ∀ p ∈ s.retrainWaits r n, (t.part p).retrainHold = true := by
  have hall : (s.retrainWaits r n).filter s.atBoundary = s.retrainWaits r n := List.filter_eq_self.mpr hready
  obtain ⟨hstore, -, hnow⟩ := holdParts_keeps s (s.retrainWaits r n)
  refine ⟨(s.holdParts (s.retrainWaits r n)).startRetrain r n, ?_, hstore.trans (startRetrain_noStore _ r n), ?_, fun p hp => ?_⟩
  · rw [exec_linkRetrain hdue hfree hserv hexists, hall]
    exact if_pos rfl
  · rw [startRetrain_retraining, hnow]
  · rw [startRetrain_retrainHold]
    exact holdParts_retrainHold hp s

theorem linkRetrain_waits (hbusy : ∃ p ∈ s.retrainWaits r n, s.atBoundary p = false) : ∃ t : State, exec (.linkRetrain r n) s = .next t ∧
    NoStore s t ∧ (t.fabLink r n).retraining = none ∧ ∀ p ∈ s.retrainWaits r n, s.atBoundary p = true → (t.part p).retrainHold = true := by
  have hsome : ((s.retrainWaits r n).filter s.atBoundary).length ≠ (s.retrainWaits r n).length := by
    obtain ⟨p, hp, hbusy⟩ := hbusy
    intro hlen
    exact Bool.false_ne_true (hbusy.symm.trans (List.length_filter_eq_length_iff.mp hlen p hp))
  have hheld (p : Nat) (hp : p ∈ s.retrainWaits r n) (hat : s.atBoundary p = true) :=
    holdParts_retrainHold (List.mem_filter.mpr ⟨hp, hat⟩) s
  obtain ⟨hstore, hlinks, -⟩ := holdParts_keeps s ((s.retrainWaits r n).filter s.atBoundary)
  rw [exec_linkRetrain hdue hfree hserv hexists]
  dsimp only
  rw [if_neg hsome]
  generalize s.holdParts ((s.retrainWaits r n).filter s.atBoundary) = u at hheld hstore hlinks
  have hlink : u.fabLink r n = s.fabLink r n := fabLink_congr hlinks r n
  refine ⟨_, rfl, ?_, ?_, ?_⟩ <;> split
  · exact hstore
  · exact hstore
  · rw [hlink, hfree]
  · rw [modFabLink_fabLink_same, hlink, hfree]
  · exact hheld
  · exact hheld

end

/-! ## A retrain ends (R238 to R240) -/

theorem releaseHolds_keeps (s : State) (r n : Nat) :
    NoStore s (s.releaseHolds r n) ∧ (s.releaseHolds r n).net = s.net ∧ (s.releaseHolds r n).fabLinks = s.fabLinks := by
  simp [State.releaseHolds, NoStore]

/-- A link takes a new record, the partitions held for it go on, and an event of it is reported. -/
def State.settleLink (s : State) (r n : Nat) (v : FabLink) (code : Nat) : State :=
  ((s.setFabLink r n v).releaseHolds r n).note code { region := r, detail := [n] }

theorem settleLink_keeps (s : State) (r n : Nat) (v : FabLink) (code : Nat) : NoStore s (s.settleLink r n v code) ∧
    (s.settleLink r n v code).net = s.net ∧ (s.settleLink r n v code).fabLinks = (s.setFabLink r n v).fabLinks := by
  obtain ⟨hstore, hnet, hlinks⟩ := releaseHolds_keeps (s.setFabLink r n v) r n
  have hset : NoStore s (s.setFabLink r n v) := ⟨rfl, rfl, rfl⟩
  unfold State.settleLink
  rw [State.note_net, State.note_fabLinks]
  exact ⟨(hset.trans hstore).trans (noStore_note _ _ _), hnet, hlinks⟩

theorem settleLink_fabLink (s : State) (r n : Nat) (v : FabLink) (code : Nat) : (s.settleLink r n v code).fabLink r n = v := by
  obtain ⟨-, -, hlinks⟩ := settleLink_keeps s r n v code
  rw [fabLink_congr hlinks, setFabLink_fabLink_same]

/-- A link retrained within its time, repaired; a Loch port is yet to rejoin. -/
def State.linkBack (s : State) (r n : Nat) : State :=
  s.settleLink r n { s.fabLink r n with retraining := none, due := false, recent := [], heldSince := none,
                                        repairs := min (linkSpares n) ((s.fabLink r n).repairs + 1) } 0x1401

section
variable {s : State} {r n t0 : Nat} (hretrain : (s.fabLink r n).retraining = some t0)
include hretrain

/-- The link is back; its port bit in the routes and its mark to rejoin are all that may change besides. -/
theorem exec_linkRetrainDone (hearly : s.now ≤ t0 + retrainTicks n) : ∃ t : State, exec (.linkRetrainDone r n) s = .next t ∧
    (KeepsLinks (s.linkBack r n) t ∨ t = (s.linkBack r n).modFabLink r n (fun v => { v with rejoin := true })) := by
  change ∃ t, execLinkRetrainDone r n s = _ ∧ _
  unfold execLinkRetrainDone
  simp only [hretrain, if_neg (Nat.not_lt.mpr hearly)]
  split
  · split
    · split
      · exact ⟨_, rfl, .inl (keepsLinks_setPortBit _ _ _ _ _)⟩
      · exact ⟨_, rfl, .inr rfl⟩
    · exact ⟨_, rfl, .inl (keepsLinks_setPortBit _ _ _ _ _)⟩
  · exact ⟨_, rfl, .inl (.refl _)⟩

theorem linkRetrainDone_repaired (hearly : s.now ≤ t0 + retrainTicks n) : ∃ t : State, exec (.linkRetrainDone r n) s = .next t ∧ NoStore s t ∧
    (t.fabLink r n).retraining = none ∧ (t.fabLink r n).due = false ∧ (t.fabLink r n).repairs = min (linkSpares n) ((s.fabLink r n).repairs + 1) := by
  obtain ⟨t, hexec, hback⟩ := exec_linkRetrainDone hretrain hearly
  obtain ⟨hstore, -⟩ := settleLink_keeps s r n { s.fabLink r n with
    retraining := none, due := false, recent := [], heldSince := none, repairs := min (linkSpares n) ((s.fabLink r n).repairs + 1) } 0x1401
  refine ⟨t, hexec, ?_⟩
  rcases hback with hkeeps | rfl
  · rw [fabLink_congr hkeeps.links, State.linkBack, settleLink_fabLink]
    exact ⟨hstore.trans hkeeps.store, rfl, rfl, rfl⟩
  · rw [modFabLink_fabLink_same, State.linkBack, settleLink_fabLink]
    exact ⟨hstore, rfl, rfl, rfl⟩

theorem exec_linkRetrainDone_late (hlate : t0 + retrainTicks n < s.now) : exec (.linkRetrainDone r n) s = .next s := by
  change execLinkRetrainDone r n s = _
  simp only [execLinkRetrainDone, hretrain, if_pos hlate]

theorem exec_linkRetrainTimeout : exec (.linkRetrainTimeout r n) s = .next (if t0 + retrainTicks n < s.now then s.exhaustLink r n else s) := by
  change execLinkRetrainTimeout r n s = _
  simp only [execLinkRetrainTimeout, hretrain]
  split <;> rfl

end

/-! ## Links out of service (Table 8.2) -/

/-- A link whose repair is exhausted, before what follows for its class. -/
def State.linkLost (s : State) (r n : Nat) : State :=
  s.settleLink r n { s.fabLink r n with outOfService := true, retraining := none, due := false } 0x1403

theorem linkLost_keeps (s : State) (r n : Nat) : NoStore s (s.linkLost r n) ∧ (s.linkLost r n).net = s.net ∧
    (s.linkLost r n).fabLinks = (s.setFabLink r n { s.fabLink r n with outOfService := true, retraining := none, due := false }).fabLinks :=
  settleLink_keeps s r n _ _

/-- The clusters of a chiplet that is lost fail; no row of tarn and no link changes (R25, R237). -/
theorem condemnSite_keeps (s : State) (r k : Nat) : (s.condemnSite r k).tarn = s.tarn ∧ (s.condemnSite r k).fabLinks = s.fabLinks := by
  unfold State.condemnSite
  dsimp only
  split
  · refine List.foldlRecOn (motive := fun t : State => t.tarn = s.tarn ∧ t.fabLinks = s.fabLinks) _ _ ⟨rfl, rfl⟩ fun t ht l _ => ?_
    split
    · exact ht
    · rw [State.failCluster_tarn, State.failCluster_fabLinks]
      exact ht
  · split
    · exact ⟨rfl, rfl⟩
    · exact ⟨rfl, rfl⟩

/-- The die behind a perimeter link that is lost is out of service. -/
def State.perimeterLost (s : State) (r : Nat) : State :=
  match dieAt r with
  | some d => if d < 8 then s.modPort d (fun v => { v with absent := true })
              else
                let t := (s.modCxl (2 * (d - 8)) (fun v => { v with up := false })).modCxl (2 * (d - 8) + 1) (fun v => { v with up := false })
                { t with boot := { t.boot with diesOff := t.boot.diesOff ++ [(16, d)] } }
  | none => s

theorem perimeterLost_keeps (s : State) (r : Nat) : (s.perimeterLost r).tarn = s.tarn ∧ (s.perimeterLost r).fabLinks = s.fabLinks := by
  unfold State.perimeterLost
  split
  · split <;> exact ⟨rfl, rfl⟩
  · exact ⟨rfl, rfl⟩

/-- What follows the loss of a link, by its class. -/
theorem exhaustLink_eq (s : State) (r n : Nat) : s.exhaustLink r n =
    match linkClass n, linkOther r n with
    | .diePort, _ => (s.linkLost r n).condemnSite r ((n - 35) / 4)
    | .loch, some o => (s.linkLost r n).setPortBit r o (lochPort n) false
    | .perimeter, _ => (s.linkLost r n).perimeterLost r
    | _, _ => s.linkLost r n := rfl

theorem exhaustLink_keeps (s : State) (r n : Nat) :
    (s.exhaustLink r n).tarn = s.tarn ∧ (s.exhaustLink r n).fabLinks = (s.linkLost r n).fabLinks := by
  obtain ⟨⟨htarn, -⟩, -⟩ := linkLost_keeps s r n
  rw [exhaustLink_eq, ← htarn]
  generalize s.linkLost r n = t
  split
  · exact condemnSite_keeps _ _ _
  next o _ _ =>
    have hkeeps := keepsLinks_setPortBit t r o (lochPort n) false
    exact ⟨hkeeps.store.1, hkeeps.links⟩
  · exact perimeterLost_keeps _ _
  · exact ⟨rfl, rfl⟩

theorem exhaustLink_fabLinks (s : State) (r n : Nat) : (s.exhaustLink r n).fabLinks =
    (s.setFabLink r n { s.fabLink r n with outOfService := true, retraining := none, due := false }).fabLinks := by
  obtain ⟨-, -, hlinks⟩ := linkLost_keeps s r n
  exact (exhaustLink_keeps s r n).2.trans hlinks

theorem exhaustLink_fabLink (s : State) (r n : Nat) :
    (s.exhaustLink r n).fabLink r n = { s.fabLink r n with outOfService := true, retraining := none, due := false } :=
  (fabLink_congr (exhaustLink_fabLinks s r n) r n).trans (setFabLink_fabLink_same s r n _)

/-- A Loch port that is lost leaves the routes and nothing else. -/
theorem exhaustLink_loch (s : State) {r n : Nat} (hloch : linkClass n = .loch) : KeepsLinks (s.linkLost r n) (s.exhaustLink r n) := by
  rw [exhaustLink_eq]
  unfold linkOther
  rw [hloch]
  exact keepsLinks_setPortBit _ _ _ _ _

/-! ## Loss of lock on a Loch wavelength (R240) -/

theorem exec_lochLockLoss {s : State} {r n : Nat} (hloch : linkClass n = .loch) (hexists : linkExists r n = true)
    (hserv : (s.fabLink r n).outOfService = false) : exec (.lochLockLoss r n) s =
      let t := { s with net := s.net.filter (fun k => !s.onPort r (lochOther r n) (lochPort n) k) }
      .next (if 1 ≤ (s.fabLink r n).repairs then t.exhaustLink r n else t.startRetrain r n) := by
  change execLochLockLoss r n s = _
  unfold execLochLockLoss
  rw [hloch]
  dsimp only
  rw [if_neg (by simp [hserv, hexists])]
  split <;> rfl

theorem lochLockLoss_effect {s : State} {r n : Nat} (hloch : linkClass n = .loch) (hexists : linkExists r n = true)
    (hserv : (s.fabLink r n).outOfService = false) : ∃ t : State, exec (.lochLockLoss r n) s = .next t ∧ NoStore s t ∧
      t.net = s.net.filter (fun k => !s.onPort r (lochOther r n) (lochPort n) k) ∧
      ((s.fabLink r n).repairs = 0 → (t.fabLink r n).retraining = some s.now) ∧ (1 ≤ (s.fabLink r n).repairs → (t.fabLink r n).outOfService = true) := by
  rw [exec_lochLockLoss hloch hexists hserv]
  have hlost : NoStore s { s with net := s.net.filter (fun k => !s.onPort r (lochOther r n) (lochPort n) k) } := ⟨rfl, rfl, rfl⟩
  refine ⟨_, rfl, ?_⟩
  split
  next hspent =>
    have hkeeps := exhaustLink_loch { s with net := s.net.filter (fun k => !s.onPort r (lochOther r n) (lochPort n) k) } (r := r) hloch
    obtain ⟨hstore, hnet, -⟩ := linkLost_keeps { s with net := s.net.filter (fun k => !s.onPort r (lochOther r n) (lochPort n) k) } r n
    refine ⟨(hlost.trans hstore).trans hkeeps.store, hkeeps.net.trans hnet, fun hnone => by omega, fun _ => ?_⟩
    rw [exhaustLink_fabLink]
  next hspare =>
    exact ⟨hlost.trans (startRetrain_noStore _ r n), startRetrain_net _ r n, fun _ => startRetrain_retraining _ r n, fun hspent => absurd hspent hspare⟩

/-! ## A perimeter link held for too long (R239) -/

theorem perimeterRetrain_late {s : State} {die t0 : Nat} (hheld : (s.fabLink (dieRegion die) 34).heldSince = some t0)
    (hdue : (s.fabLink (dieRegion die) 34).due = true) (hfree : (s.fabLink (dieRegion die) 34).retraining = none)
    (hlate : t0 + 100 * ticksPerMs ≤ s.now) : exec (.perimeterRetrainHoldTimeout die) s =
      .next ({ s with net := s.net.filter (fun k => !onDie die k) }.startRetrain (dieRegion die) 34) := by
  change execPerimeterRetrainHoldTimeout die s = _
  simp only [execPerimeterRetrainHoldTimeout, hheld]
  rw [if_pos (by simp [hdue, hfree, hlate])]

theorem perimeterRetrain_early {s : State} {die t0 : Nat} (hheld : (s.fabLink (dieRegion die) 34).heldSince = some t0)
    (hearly : s.now < t0 + 100 * ticksPerMs) : exec (.perimeterRetrainHoldTimeout die) s = .next s := by
  change execPerimeterRetrainHoldTimeout die s = _
  simp only [execPerimeterRetrainHoldTimeout, hheld]
  exact if_neg (by simp [hearly])

end Sys2Proof.Machine

namespace Sys2Proof.Machine
open Sys2Proof

/-! ## Route entries (R246, Table 8.5) -/

theorem toNat_and_low (e : BitVec 32) : (e &&& 0xFF#32).toNat = e.toNat % 256 := by
  rw [BitVec.toNat_and]
  exact Nat.and_two_pow_sub_one_eq_mod e.toNat 8

/-- An epoch put above the eight bits of a route is read back as their sum. -/
theorem toNat_route (body : BitVec 32) {e : Nat} (hbody : body.toNat < 256) (he : e < 256) :
    (body ||| BitVec.ofNat 32 (e * 256)).toNat = 256 * e + body.toNat := by
  rw [BitVec.toNat_or, BitVec.toNat_ofNat, Nat.mod_eq_of_lt (by omega), Nat.or_comm, Nat.mul_comm]
  exact (Nat.two_pow_add_eq_or_of_lt (i := 8) hbody e).symm

theorem bumpRoute_body (old new : BitVec 32) : bumpRoute old new &&& 0xFF#32 = new &&& 0xFF#32 := by
  unfold bumpRoute
  dsimp only
  split
  next hsame => exact hsame.symm
  next =>
    have hlow := toNat_and_low new
    apply BitVec.eq_of_toNat_eq
    rw [toNat_and_low, toNat_route _ (by omega) (Nat.mod_lt _ (by omega))]
    omega

/-- The epoch of a route counts the changes of its path. -/
theorem routeEpoch_bumpRoute (old new : BitVec 32) : routeEpoch (bumpRoute old new) =
    if new &&& 0xFF#32 = old &&& 0xFF#32 then routeEpoch old else (routeEpoch old + 1) % 256 := by
  unfold bumpRoute
  dsimp only
  split
  next => rfl
  next =>
    have hlow := toNat_and_low new
    have he : (routeEpoch old + 1) % 256 < 256 := Nat.mod_lt _ (by omega)
    generalize (routeEpoch old + 1) % 256 = e at he
    unfold routeEpoch bitsOf
    rw [toNat_route _ (by omega) he]
    omega

section
variable {s : State} {r d epoch : Nat} {entry : BitVec 32} (hr : r < 16) (hd : d < 16)
include hr hd

theorem exec_routeEntryWrite : exec (.routeEntryWrite r d entry epoch) s =
    .next (s.regionCmd r epoch (fun t => t.setRoute r d (bumpRoute (t.route r d) entry))) := if_pos ⟨hr, hd⟩

theorem exec_routeEntryWrite_taken (he : (s.region r).epoch ≤ epoch) : exec (.routeEntryWrite r d entry epoch) s =
    .next ((s.atEpoch r epoch).setRoute r d (bumpRoute (s.route r d) entry)) := by
  rw [exec_routeEntryWrite hr hd, regionCmd_taken he]
  rfl

end

theorem setRoute_route (s : State) (r d q k : Nat) (e : BitVec 32) (hd : d < 16) (hk : k < 16) :
    (s.setRoute r d e).route q k = if (q, k) = (r, d) then e else s.route q k := by
  unfold State.setRoute State.route
  rw [Tbl.get_set]
  have hkey : q * 16 + k = r * 16 + d ↔ (q, k) = (r, d) := by
    rw [Prod.mk.injEq]
    omega
  simp only [hkey]

/-! ## Flows held on a route change (R250) -/

theorem flowRouteResume_effect (c k : Nat) (s : State) : ∃ t : State, exec (.flowRouteResume c k) s = .next t ∧ OnlyCluster s t c ∧
    t.regsOf c = s.regsOf c ∧ (t.cl c).fab.flows = (s.cl c).fab.flows.filter (fun f => !(f.key == k && f.heldOnRoute && f.outstanding == 0)) := by
  refine ⟨_, rfl, ⟨rfl, fun d hd => ?_⟩, ?_, ?_⟩
  · exact State.setCl_cl_ne _ _ _ _ hd
  · rw [State.regsOf, State.modCl_eq, State.setCl_cl_same, State.regsOf]
  · rw [State.modCl_eq, State.setCl_cl_same]

/-! ## The end of an abort drain (R262) -/

/-- Context x of partition p, killed and drained, goes on to its scrub where it is resident, and past it where it is not. -/
def State.drainKill (s : State) (p x : Nat) : State :=
  if (s.ctx x).st = .killing ∧ (s.ctx x).killStage = 1 then
    (if (s.part p).resident = some x then (s.modCtx x (fun v => { v with killStage := 2 })).startScrub p
     else s.modCtx x (fun v => { v with killStage := 3 }))
  else s

/-- What the drain's end does to killed contexts leaves of the partition and the stores. -/
structure Drains (p : Nat) (s t : State) : Prop where
  store : NoStore s t
  resident : (t.part p).resident = (s.part p).resident
  recovery : (t.part p).recovery = (s.part p).recovery
  drain : (t.part p).drain = (s.part p).drain
  scrubbing : (s.part p).scrubbing = true → (t.part p).scrubbing = true

theorem Drains.refl (p : Nat) (s : State) : Drains p s s := ⟨.refl s, rfl, rfl, rfl, id⟩

theorem Drains.trans {p : Nat} {s t u : State} (hst : Drains p s t) (htu : Drains p t u) : Drains p s u where
  store := hst.store.trans htu.store
  resident := htu.resident.trans hst.resident
  recovery := htu.recovery.trans hst.recovery
  drain := htu.drain.trans hst.drain
  scrubbing h := htu.scrubbing (hst.scrubbing h)

theorem drains_startScrub (s : State) (p : Nat) : Drains p s (s.startScrub p) := by
  have hpart : (s.startScrub p).part p = { s.part p with scrubbing := true } := State.setPart_part_same s p _
  refine ⟨⟨rfl, rfl, rfl⟩, ?_, ?_, ?_, fun _ => ?_⟩ <;> rw [hpart]

theorem drains_setCtx (s : State) (p x : Nat) (v : Ctx) : Drains p s (s.setCtx x v) := ⟨⟨rfl, rfl, rfl⟩, rfl, rfl, rfl, id⟩

theorem drains_drainKill (s : State) (p x : Nat) : Drains p s (s.drainKill p x) := by
  unfold State.drainKill
  split
  · split
    · exact (drains_setCtx s p x _).trans (drains_startScrub _ p)
    · exact drains_setCtx s p x _
  · exact .refl p s

theorem drainKill_ctx_ne (s : State) (p : Nat) {x y : Nat} (hy : y ≠ x) : (s.drainKill p x).ctx y = s.ctx y := by
  unfold State.drainKill
  split
  · split <;> exact State.setCtx_ctx_ne _ _ _ _ hy
  · rfl

section
variable {s : State} {p x : Nat} (hkill : (s.ctx x).st = .killing) (hstage : (s.ctx x).killStage = 1)
include hkill hstage

theorem drainKill_resident (hres : (s.part p).resident = some x) :
    ((s.drainKill p x).ctx x).killStage = 2 ∧ ((s.drainKill p x).part p).scrubbing = true := by
  have hscrub : s.drainKill p x = (s.modCtx x (fun v => { v with killStage := 2 })).startScrub p := by
    rw [State.drainKill, if_pos ⟨hkill, hstage⟩, if_pos hres]
  rw [hscrub]
  exact ⟨congrArg Ctx.killStage (State.setCtx_ctx_same s x _), congrArg Part.scrubbing (State.setPart_part_same _ p _)⟩

theorem drainKill_absent (hres : (s.part p).resident ≠ some x) : ((s.drainKill p x).ctx x).killStage = 3 := by
  have hpast : s.drainKill p x = s.modCtx x (fun v => { v with killStage := 3 }) := by
    rw [State.drainKill, if_pos ⟨hkill, hstage⟩, if_neg hres]
  rw [hpast]
  exact congrArg Ctx.killStage (State.setCtx_ctx_same s x _)

end

/-- A context past the drain's end stays as it is. -/
theorem drainKill_ctx_past {s : State} {x : Nat} (p y : Nat) (hstage : (s.ctx x).killStage ≠ 1) : (s.drainKill p y).ctx x = s.ctx x := by
  by_cases hxy : x = y
  · rw [State.drainKill, if_neg fun h => hstage (hxy ▸ h.2)]
  · exact drainKill_ctx_ne s p hxy

/-- Every context of the partition that was killed and is drained has gone on. -/
def State.drainKills (s : State) (p : Nat) : State := (s.ctxsOf p).foldl (fun t x => t.drainKill p x) s

theorem drains_drainKills (s : State) (p : Nat) : Drains p s (s.drainKills p) :=
  List.foldlRecOn (s.ctxsOf p) _ (.refl p s) fun t ht x _ => ht.trans (drains_drainKill t p x)

/-- Where a drained context stands after the drain's end, by whether it is resident. -/
def State.killDrained (s : State) (p x : Nat) (res : Option Nat) : Prop :=
  if res = some x then (s.ctx x).killStage = 2 ∧ (s.part p).scrubbing = true else (s.ctx x).killStage = 3

theorem killDrained_stage {s : State} {p x : Nat} {res : Option Nat} (h : s.killDrained p x res) : (s.ctx x).killStage ≠ 1 := by
  unfold State.killDrained at h
  split at h <;> omega

theorem drainKill_drained {s : State} {p x y : Nat} {res : Option Nat} (h : s.killDrained p x res) : (s.drainKill p y).killDrained p x res := by
  have hctx := drainKill_ctx_past p y (killDrained_stage h)
  unfold State.killDrained at h ⊢
  rw [hctx]
  by_cases hres : res = some x
  · rw [if_pos hres] at h ⊢
    exact ⟨h.1, (drains_drainKill s p y).scrubbing h.2⟩
  · rw [if_neg hres] at h ⊢
    exact h

theorem drainKill_drains {s : State} {p x : Nat} (hkill : (s.ctx x).st = .killing) (hstage : (s.ctx x).killStage = 1) :
    (s.drainKill p x).killDrained p x (s.part p).resident := by
  unfold State.killDrained
  split
  next hres => exact drainKill_resident hkill hstage hres
  next hres => exact drainKill_absent hkill hstage hres

theorem drainKills_drained {s : State} {p x : Nat} (hx : x ∈ s.ctxsOf p) (hkill : (s.ctx x).st = .killing) (hstage : (s.ctx x).killStage = 1) :
    (s.drainKills p).killDrained p x (s.part p).resident := by
  -- Until its own turn the context is as it was; from then on it is past the drain.
  have hturn (t : State) (ht : Drains p s t ∧ (t.ctx x = s.ctx x ∨ t.killDrained p x (s.part p).resident)) :
      (t.drainKill p x).killDrained p x (s.part p).resident := by
    obtain ⟨hdrains, hctx | hpast⟩ := ht
    · rw [← hctx] at hkill hstage
      exact hdrains.resident ▸ drainKill_drains hkill hstage
    · exact drainKill_drained hpast
  refine foldl_reach (g := fun t y => State.drainKill t p y) (P := fun t => t.killDrained p x (s.part p).resident)
    (fun t y _ ht => ⟨ht.1.trans (drains_drainKill t p y), ?_⟩) (fun t y _ _ h => drainKill_drained h) hturn hx ⟨.refl p s, .inl rfl⟩
  by_cases hxy : x = y
  · exact .inr (hxy ▸ hturn t ht)
  · exact ht.2.imp (fun hctx => (drainKill_ctx_ne t p hxy).trans hctx) drainKill_drained

/-- The drain of a partition is over. -/
def State.drained (s : State) (p : Nat) : State := s.modPart p (fun v => { v with drain := none })

section
variable {s : State} {p t0 : Nat} (hdrain : (s.part p).drain = some t0)
include hdrain

theorem exec_abortDrainEnd_early (hearly : s.now < t0 + 2000) : exec (.abortDrainEnd p) s = .next s := by
  change execAbortDrainEnd p s = _
  simp only [execAbortDrainEnd, hdrain]
  exact if_neg (Nat.not_le.mpr hearly)

/-- Without a recovery the drain's end does no more than move killed contexts on. -/
theorem exec_abortDrainEnd (hlate : t0 + 2000 ≤ s.now) (hrec : (s.part p).recovery = none) :
    exec (.abortDrainEnd p) s = .next ((s.drained p).drainKills p) := by
  have hnone : (((s.drained p).drainKills p).part p).recovery = none := by
    rw [(drains_drainKills (s.drained p) p).recovery, State.drained, State.modPart_eq, State.setPart_part_same]
    exact hrec
  unfold State.drainKills State.drainKill at hnone ⊢
  change execAbortDrainEnd p s = _
  unfold execAbortDrainEnd
  rw [hdrain]
  dsimp only
  rw [if_pos hlate]
  unfold State.drained at hnone ⊢
  rw [hnone]

theorem abortDrainEnd_effect (hlate : t0 + 2000 ≤ s.now) (hrec : (s.part p).recovery = none) :
    ∃ t : State, exec (.abortDrainEnd p) s = .next t ∧ NoStore s t ∧ (t.part p).drain = none ∧
      ∀ x ∈ s.ctxsOf p, (s.ctx x).st = .killing → (s.ctx x).killStage = 1 → t.killDrained p x (s.part p).resident := by
  have hpart : (s.drained p).part p = { s.part p with drain := none } := State.setPart_part_same s p _
  have hstore : NoStore s (s.drained p) := ⟨rfl, rfl, rfl⟩
  have hdrains := drains_drainKills (s.drained p) p
  refine ⟨_, exec_abortDrainEnd hdrain hlate hrec, hstore.trans hdrains.store, ?_, fun x hx hkill hstage => ?_⟩
  · rw [hdrains.drain, hpart]
  · have hpast := drainKills_drained (s := s.drained p) hx hkill hstage
    rw [hpart] at hpast
    exact hpast

end

/-! ## Hops, retraining, routes and drains as the obligation states them -/

/-- A hop of a packet and the end of its lifetime, by what the router finds. -/
theorem packetHop_effect {s : State} {p : Nat} {k : Packet} (hk : s.net.find? (fun q => q.id == p) = some k) (h : Hop) :
    let lost := fun (cause : Nat) => (s.removePkt k.id).countDiscard h.region cause
    (1000 < s.ageOf k → exec (.packetHop p h) s = .next (lost 3)) ∧
    (s.ageOf k ≤ 1000 → h.hdrOk = false → exec (.packetHop p h) s = .next (lost 0)) ∧
    (s.ageOf k ≤ 1000 → h.hdrOk = true → s.strays k h = true →
      ∃ t : State, exec (.packetHop p h) s = .next t ∧ t.net = s.net.filter (fun q => q.id != k.id) ∧ t.discards = (lost 4).discards ∧ NoStore s t) ∧
    (s.ageOf k ≤ 1000 → h.hdrOk = true → s.strays k h = false → h.crcOk = true → k.stomp = false → exec (.packetHop p h) s = .next s) ∧
    (s.ageOf k ≤ 1000 → h.hdrOk = true → s.strays k h = false → h.crcOk = false → k.stomp = false → h.endpoint = false → h.whole = false →
      ∃ t : State, exec (.packetHop p h) s = .next t ∧ NoStore s t ∧
        t.net = s.net.map (fun q => if q.id = k.id then { q with stomp := true } else q) ∧
        ∀ n, h.link = some n → (t.fabLink h.region n).crcDiscards = satInc (s.fabLink h.region n).crcDiscards) ∧
    (s.ageOf k ≤ 1000 → h.hdrOk = true → s.strays k h = false → k.stomp = true → (h.whole = true ∨ h.endpoint = true) →
      exec (.packetHop p h) s = .next (lost 2)) ∧
    (1000 < s.ageOf k → exec (.packetLifetimeExpiry p) s = .next ((s.removePkt p).countDiscard (nodeRegion k.dst) 3)) ∧
    (s.ageOf k ≤ 1000 → exec (.packetLifetimeExpiry p) s = .next s) := by
  rw [exec_packetHop hk h, exec_packetLifetimeExpiry hk]
  refine ⟨fun hage => ?_, fun hage hhdr => ?_, fun hage hhdr hforeign => ⟨_, rfl, hop_strays hage hhdr hforeign⟩, fun hage hhdr hown hcrc hstomp => ?_,
    fun hage hhdr hown hcrc hstomp hend hwhole => ⟨_, rfl, hop_stomps hage hhdr hown hcrc hstomp hend hwhole⟩, fun hage hhdr hown hstomp hwhole => ?_,
    fun hage => ?_, fun hage => ?_⟩
  · rw [hop_late hage]
  · rw [hop_badHeader hage hhdr]
  · rw [hop_intact hage hhdr hown hcrc hstomp]
  · rw [hop_stomped hage hhdr hown hstomp hwhole]
  · rw [if_pos hage]
  · rw [if_neg (Nat.not_lt.mpr hage)]

theorem creditStall_effect (r n ticks : Nat) (s : State) :
    (1200 ≤ ticks → linkExists r n = true → ∃ t : State, exec (.creditStall r n ticks) s = .next t ∧ { t with fabLinks := s.fabLinks } = s ∧
      t.fabLink r n = { s.fabLink r n with due := true }) ∧
    (ticks < 1200 → exec (.creditStall r n ticks) s = .next s) :=
  ⟨fun hticks hexists => ⟨_, exec_creditStall hticks hexists, rfl, setFabLink_fabLink_same s r n _⟩, exec_creditStall_short⟩

theorem retraining_effect {s : State} {r n t0 : Nat} (hretrain : (s.fabLink r n).retraining = some t0) :
    (s.now ≤ t0 + retrainTicks n →
      (∃ t : State, exec (.linkRetrainDone r n) s = .next t ∧ NoStore s t ∧ (t.fabLink r n).retraining = none ∧ (t.fabLink r n).due = false ∧
        (t.fabLink r n).repairs = min (linkSpares n) ((s.fabLink r n).repairs + 1)) ∧
      exec (.linkRetrainTimeout r n) s = .next s) ∧
    (t0 + retrainTicks n < s.now →
      exec (.linkRetrainDone r n) s = .next s ∧
      ∃ t : State, exec (.linkRetrainTimeout r n) s = .next t ∧ t.tarn = s.tarn ∧ (t.fabLink r n).outOfService = true ∧
        (t.fabLink r n).retraining = none) := by
  rw [exec_linkRetrainTimeout hretrain]
  refine ⟨fun hearly => ⟨linkRetrainDone_repaired hretrain hearly, ?_⟩, fun hlate => ⟨exec_linkRetrainDone_late hretrain hlate, _, rfl, ?_⟩⟩
  · rw [if_neg (Nat.not_lt.mpr hearly)]
  · obtain ⟨htarn, -⟩ := exhaustLink_keeps s r n
    rw [if_pos hlate, exhaustLink_fabLink]
    exact ⟨htarn, rfl, rfl⟩

theorem perimeterRetrain_effect {s : State} {die t0 : Nat} (hheld : (s.fabLink (dieRegion die) 34).heldSince = some t0)
    (hdue : (s.fabLink (dieRegion die) 34).due = true) (hfree : (s.fabLink (dieRegion die) 34).retraining = none) :
    (t0 + 100 * ticksPerMs ≤ s.now → ∃ t : State, exec (.perimeterRetrainHoldTimeout die) s = .next t ∧ NoStore s t ∧
      (t.fabLink (dieRegion die) 34).retraining = some s.now ∧ t.net = s.net.filter (fun k => !onDie die k)) ∧
    (s.now < t0 + 100 * ticksPerMs → exec (.perimeterRetrainHoldTimeout die) s = .next s) := by
  have hlost : NoStore s { s with net := s.net.filter (fun k => !onDie die k) } := ⟨rfl, rfl, rfl⟩
  exact ⟨fun hlate => ⟨_, perimeterRetrain_late hheld hdue hfree hlate, hlost.trans (startRetrain_noStore _ _ _), startRetrain_retraining _ _ _,
    startRetrain_net _ _ _⟩, perimeterRetrain_early hheld⟩

theorem routeEntryWrite_effect {r d : Nat} (epoch : Nat) (entry : BitVec 32) (s : State) (hr : r < 16) (hd : d < 16) :
    ((s.region r).epoch ≤ epoch →
      ∃ t : State, exec (.routeEntryWrite r d entry epoch) s = .next t ∧ { t with routes := s.routes, regions := s.regions } = s ∧
        (t.region r).epoch = epoch ∧ t.route r d &&& 0xFF#32 = entry &&& 0xFF#32 ∧
        routeEpoch (t.route r d) = (if entry &&& 0xFF#32 = s.route r d &&& 0xFF#32 then routeEpoch (s.route r d)
          else (routeEpoch (s.route r d) + 1) % 256) ∧
        ∀ r' d', r' < 16 → d' < 16 → (r', d') ≠ (r, d) → t.route r' d' = s.route r' d') ∧
    (epoch < (s.region r).epoch →
      ∃ t : State, exec (.routeEntryWrite r d entry epoch) s = .next t ∧ { t with regions := s.regions } = s ∧
        t.region r = { s.region r with epochRejects := (s.region r).epochRejects + 1 }) := by
  refine ⟨fun he => ⟨_, exec_routeEntryWrite_taken hr hd he, rfl, ?_, ?_, ?_, fun q k _ hk hne => ?_⟩, fun he => ?_⟩
  · exact congrArg Region.epoch (atEpoch_region_same s r epoch)
  · rw [setRoute_route _ _ _ _ _ _ hd hd, if_pos rfl]
    exact bumpRoute_body _ _
  · rw [setRoute_route _ _ _ _ _ _ hd hd, if_pos rfl]
    exact routeEpoch_bumpRoute _ _
  · rw [setRoute_route _ _ _ _ _ _ hd hk, if_neg hne]
    rfl
  · obtain ⟨t, hexec, honly, -, hcount⟩ := stale_of_regionCmd (exec_routeEntryWrite (entry := entry) hr hd) he
    exact ⟨t, hexec, honly, hcount⟩

/-- Settles O19: hop by hop, link by link and route by route, by the lemmas above. -/
theorem fabricTransport : Obligations.FabricTransport := by
  unfold Obligations.FabricTransport
  refine ⟨⟨fun p h k s hk => packetHop_effect hk h, creditStall_effect⟩,
    fun r n s => ⟨fun hdue hfree hserv hexists => ⟨linkRetrain_begins hdue hfree hserv hexists, linkRetrain_waits hdue hfree hserv hexists⟩,
      fun t0 hretrain => retraining_effect hretrain, fun hloch hexists hserv => lochLockLoss_effect hloch hexists hserv, ?_⟩,
    fun r d epoch entry s hr hd => routeEntryWrite_effect epoch entry s hr hd, flowRouteResume_effect,
    fun p t0 s hdrain => ⟨exec_abortDrainEnd_early hdrain, abortDrainEnd_effect hdrain⟩⟩
  rintro die t0 rfl rfl
  exact perimeterRetrain_effect

end Sys2Proof.Machine

namespace Sys2Proof.Machine
open Sys2Proof

/-! ## Events 5 to 7 end region by region (R539) -/

/-- While a region is in service, the end of its part of an event changes at most how far bring-up has come. -/
theorem endStage_up {s : State} {r : Nat} (hr : r < 16) (hserv : (s.region r).inService = true) : ∃ b, s.endStage = { s with boot := b } := by
  have hup : ¬(List.range 16).all (fun r => !(s.region r).inService) = true := by
    intro hall
    have hdown := List.all_eq_true.mp hall r (List.mem_range.mpr hr)
    rw [hserv] at hdown
    exact Bool.false_ne_true hdown
  unfold State.endStage
  dsimp only
  rw [if_neg hup]
  split
  · split
    · exact ⟨_, rfl⟩
    · exact ⟨s.boot, rfl⟩
  · exact ⟨s.boot, rfl⟩

/-- A region that is Dark stays as Dark as it is when bring-up stops. -/
theorem bootStop_dark {s : State} {r : Nat} (n : Nat) (hdark : (s.region r).pstate = .dark) : ((s.bootStop n).region r).pstate = .dark := by
  have hhold (t : State) (q : Nat) (ht : (t.region r).pstate = .dark) : ((t.modRegion q (holdRegion .fatal)).region r).pstate = .dark := by
    rw [State.modRegion_eq, State.setRegion_region]
    split
    next hq =>
      rw [← hq, holdRegion, ht]
      exact ht
    next => exact ht
  have hlinks {t : State} (ht : (t.region r).pstate = .dark) (f : State → Nat → State) (hf : ∀ u l, (f u l).region r = u.region r) :
      (((List.range 16).foldl f t).region r).pstate = .dark :=
    List.foldlRecOn (motive := fun u : State => (u.region r).pstate = .dark) _ f ht fun u hu l _ => (hf u l).symm ▸ hu
  unfold State.bootStop State.deviceFatal
  refine hlinks (hlinks ?_ _ fun u l => ?_) _ fun u l => ?_
  · refine List.foldlRecOn (motive := fun u : State => (u.region r).pstate = .dark) _ _ ?_ fun u hu q _ => hhold u q hu
    rw [State.note_region]
    exact hdark
  · split <;> rfl
  · split <;> rfl

theorem endStage_dark {s : State} {r : Nat} (hdark : (s.region r).pstate = .dark) (hserv : (s.region r).inService = false) :
    (s.endStage.region r).pstate = .dark ∧ (s.endStage.region r).inService = false := by
  obtain ⟨-, hkept, -⟩ := (keepsFindings_bootStop s 4).regions r
  unfold State.endStage
  dsimp only
  split
  · split
    · exact ⟨bootStop_dark 4 hdark, hkept.trans hserv⟩
    · split <;> exact ⟨hdark, hserv⟩
  · exact ⟨hdark, hserv⟩

/-! ## Event 5: regions are powered (R484, R531, Table 16.10) -/

theorem bpmCommand_keeps (s : State) (op : Nat) (mask : BitVec 8) :
    NoStore s (s.bpmCommand op mask) ∧ (s.bpmCommand op mask).regions = s.regions ∧ (s.bpmCommand op mask).boot = s.boot ∧
    (s.bpmCommand op mask).now = s.now := by
  unfold State.bpmCommand
  split <;> exact ⟨⟨rfl, rfl, rfl⟩, rfl, rfl, rfl⟩

theorem region_congr {s t : State} (h : t.regions = s.regions) (r : Nat) : t.region r = s.region r :=
  congrArg (fun m => Tbl.get (fun _ => ({} : Region)) m r) h

theorem regionOf_of_mem {r c : Nat} (hc : c ∈ clustersOfRegion r) : regionOf c = r := by
  obtain ⟨l, hl, rfl⟩ := List.mem_map.mp hc
  have hl := List.mem_range.mp hl
  unfold regionOf clusterAt
  omega

theorem setClusters_keeps (s : State) (r : Nat) (f : Nat → CState) :
    NoStore s (s.setClusters r f) ∧ (s.setClusters r f).regions = s.regions ∧ (s.setClusters r f).enabled = s.enabled := by
  simp [State.setClusters, NoStore]

theorem setClusters_st (s : State) (r : Nat) (f : Nat → CState) {c : Nat} (hc : regionOf c = r) :
    ((s.setClusters r f).cl c).st = f c := by
  refine foldl_reach (I := fun _ => True) (P := fun t : State => (t.cl c).st = f c) (fun _ _ _ _ => trivial) (fun t d _ _ ht => ?_) (fun t _ => ?_)
    (hc ▸ mem_clustersOfRegion c) trivial
  · rw [State.modCl_eq, State.setCl_cl]
    split
    next hcd => rw [hcd]
    next => exact ht
  · rw [State.modCl_eq, State.setCl_cl_same]

theorem setClusters_cl_ne (s : State) {r c : Nat} (f : Nat → CState) (hc : regionOf c ≠ r) : (s.setClusters r f).cl c = s.cl c := by
  refine List.foldlRecOn (motive := fun t : State => t.cl c = s.cl c) (clustersOfRegion r) _ rfl fun t ht d hd => ?_
  have hcd : c ≠ d := fun h => hc (h ▸ regionOf_of_mem hd)
  rw [State.modCl_eq, State.setCl_cl_ne _ _ _ _ hcd]
  exact ht

/-- A region whose base tile has passed, before event 5 may end. -/
def State.tilePassed (s : State) (r : Nat) (b : SoftStart) : State :=
  (((s.setRegion r { s.region r with soft := some { b with bootStage := 1 } }).setClusters r (fun _ => .reserve)).modXing (160 + r)
    startCalibration).modXing (176 + r) startCalibration

theorem tilePassed_keeps (s : State) {r : Nat} (b : SoftStart) : NoStore s (s.tilePassed r b) ∧
    (s.tilePassed r b).region r = { s.region r with soft := some { b with bootStage := 1 } } ∧
    (∀ c, regionOf c = r → ((s.tilePassed r b).cl c).st = .reserve) ∧ ∀ c, regionOf c ≠ r → (s.tilePassed r b).cl c = s.cl c := by
  have hset : NoStore s (s.setRegion r { s.region r with soft := some { b with bootStage := 1 } }) := ⟨rfl, rfl, rfl⟩
  have hregion : (s.setRegion r { s.region r with soft := some { b with bootStage := 1 } }).region r = _ := State.setRegion_region_same s r _
  have hothers (c : Nat) : (s.setRegion r { s.region r with soft := some { b with bootStage := 1 } }).cl c = s.cl c := rfl
  unfold State.tilePassed
  simp only [State.modXing_eq, State.setXing_region, State.setXing_cl]
  generalize s.setRegion r { s.region r with soft := some { b with bootStage := 1 } } = u at hset hregion hothers
  obtain ⟨hstore, hregions, -⟩ := setClusters_keeps u r (fun _ => .reserve)
  have hxing (t : State) (x : Nat) (v : Crossing) : NoStore t (t.setXing x v) := ⟨rfl, rfl, rfl⟩
  refine ⟨hset.trans (hstore.trans ((hxing _ _ _).trans (hxing _ _ _))), (region_congr hregions r).trans hregion, fun c hc => setClusters_st u r _ hc,
    fun c hc => (setClusters_cl_ne u _ hc).trans (hothers c)⟩

section
variable {s : State} {r : Nat} {ok : Bool}

theorem exec_bootRegionPower_idle (h : 16 ≤ r ∨ s.inEvent 5 = false ∨ s.holder = none ∨ (s.region r).inService = false) :
    exec (.bootRegionPower r ok) s = .next s := by
  refine if_pos ?_
  rwa [Option.isNone_iff_eq_none]

variable (hr : r < 16) (hev : s.inEvent 5 = true) (hholder : s.holder.isSome) (hserv : (s.region r).inService = true)
include hr hev hholder hserv

theorem bootRegionPower_taken : ¬(16 ≤ r ∨ s.inEvent 5 = false ∨ s.holder.isNone ∨ (s.region r).inService = false) := by
  simp [hr, hev, Option.isSome_iff_ne_none.mp hholder, hserv]

theorem bootRegionPower_begins (hsoft : (s.region r).soft = none) (hkill : s.bpm.killed = false) (hdue : s.boot.eventTick + 50000 * r ≤ s.now) :
    ∃ t : State, exec (.bootRegionPower r ok) s = .next t ∧ NoStore s t ∧ (t.region r).soft = some { started := s.now } ∧
      (∀ q, q ≠ r → t.region q = s.region q) ∧ t.boot = s.boot := by
  have hkeeps : ∃ u : State, exec (.bootRegionPower r ok) s = .next (u.modRegion r (fun v => { v with soft := some { started := s.now } })) ∧
      NoStore s u ∧ u.regions = s.regions ∧ u.boot = s.boot := by
    obtain ⟨hstore, hregions, hboot, -⟩ := bpmCommand_keeps s 3 0xFF
    change ∃ u, execBootRegionPower r ok s = _ ∧ _
    unfold execBootRegionPower
    rw [if_neg (bootRegionPower_taken hr hev hholder hserv), hsoft]
    dsimp only
    rw [if_neg (by simp [hkill, hdue])]
    refine ⟨_, rfl, ?_⟩
    split
    · exact ⟨.refl s, rfl, rfl⟩
    · exact ⟨hstore, hregions, hboot⟩
  obtain ⟨u, hexec, hstore, hregions, hboot⟩ := hkeeps
  refine ⟨_, hexec, hstore, ?_, fun q hq => ?_, hboot⟩
  · rw [State.modRegion_eq, State.setRegion_region_same]
  · rw [State.modRegion_eq, State.setRegion_region_ne _ _ _ _ hq, region_congr hregions]

theorem exec_bootRegionPower_early (hsoft : (s.region r).soft = none) (hearly : s.now < s.boot.eventTick + 50000 * r) :
    exec (.bootRegionPower r ok) s = .next s := by
  change execBootRegionPower r ok s = _
  unfold execBootRegionPower
  rw [if_neg (bootRegionPower_taken hr hev hholder hserv), hsoft]
  exact if_pos (by simp [hearly])

variable {b : SoftStart} (hsoft : (s.region r).soft = some b) (hramp : b.ramped = true) (hstage : b.bootStage = 0)
include hsoft hramp hstage

theorem exec_bootRegionPower_passed : exec (.bootRegionPower r true) s = .next (s.tilePassed r b).endStage := by
  change execBootRegionPower r true s = _
  unfold execBootRegionPower
  rw [if_neg (bootRegionPower_taken hr hev hholder hserv), modSoft_eq hsoft, hsoft]
  dsimp only
  rw [if_neg (by simp [hramp, hstage]), if_pos rfl, State.tilePassed]

/-- The base tile passes: the region's clusters stand in Reserve, and its crossings with the steward are calibrated. -/
theorem bootRegionPower_passed : ∃ t : State, exec (.bootRegionPower r true) s = .next t ∧ NoStore s t ∧
    (t.region r).soft = some { b with bootStage := 1 } ∧ (∀ c, c < 4608 → regionOf c = r → (t.cl c).st = .reserve) ∧
    ∀ c, regionOf c ≠ r → t.cl c = s.cl c := by
  have hpassed : ∃ w : State, exec (.bootRegionPower r true) s = .next w.endStage ∧ NoStore s w ∧
      w.region r = { s.region r with soft := some { b with bootStage := 1 } } ∧ (∀ c, regionOf c = r → (w.cl c).st = .reserve) ∧
      ∀ c, regionOf c ≠ r → w.cl c = s.cl c :=
    ⟨_, exec_bootRegionPower_passed hr hev hholder hserv hsoft hramp hstage, tilePassed_keeps s b⟩
  obtain ⟨w, hexec, hstore, hregion, hreserve, hothers⟩ := hpassed
  obtain ⟨e, hend⟩ := endStage_up (s := w) hr (by rw [hregion]; exact hserv)
  rw [hexec, hend]
  exact ⟨_, rfl, hstore, congrArg Region.soft hregion, fun c _ hc => hreserve c hc, hothers⟩

/-- The base tile fails: the region is Dark and out of service. -/
theorem bootRegionPower_failed : ∃ t : State, exec (.bootRegionPower r false) s = .next t ∧ (t.region r).pstate = .dark ∧
    (t.region r).inService = false := by
  have hfail : (s.bootFail r).region r = { darkRegion (s.region r) with inService := false } := by
    rw [State.bootFail, State.modRegion_eq, State.setRegion_region_same, goDark_region_same]
  have hexec : exec (.bootRegionPower r false) s = .next (s.bootFail r).endStage := by
    change execBootRegionPower r false s = _
    unfold execBootRegionPower
    rw [if_neg (bootRegionPower_taken hr hev hholder hserv), hsoft]
    dsimp only
    rw [if_neg (by simp [hramp, hstage]), if_neg Bool.false_ne_true]
  exact ⟨_, hexec, endStage_dark (congrArg Region.pstate hfail) (congrArg Region.inService hfail)⟩

end

/-! ## Event 8: crossings are calibrated (R292, R293) -/

theorem foldl_max_le {n : Nat} : ∀ (ms : List Nat) (a : Nat), a ≤ n → (∀ m ∈ ms, m ≤ n) → ms.foldl max a ≤ n
  | [], _, ha, _ => ha
  | m :: ms, a, ha, hms => foldl_max_le ms (max a m) (max_le ha (hms m List.mem_cons_self)) fun k hk => hms k (List.mem_cons_of_mem m hk)

/-- The calibration of one crossing in event 8, with the markers it kept. -/
def State.calibrateAtBoot (s : State) (ls : List (Nat × List Nat)) (x : Nat) : State :=
  ((s.modXing x startCalibration).modXing x (measure (((ls.find? (fun e => e.1 == x)).map Prod.snd).getD []))).endCalibration x

/-- Enough markers, none of them late: the crossing's entry is stored, and nothing but crossings changes. -/
theorem calibrateAtBoot_good {ls : List (Nat × List Nat)} {x : Nat} {ms : List Nat}
    (hfind : ls.find? (fun e => e.1 == x) = some (x, ms)) (hlen : 24 ≤ ms.length) (hearly : ∀ m ∈ ms, m ≤ 10) (s : State) :
    (∃ m, s.calibrateAtBoot ls x = { s with xings := m }) ∧ (∀ y, y ≠ x → (s.calibrateAtBoot ls x).xing y = s.xing y) ∧
    ((s.calibrateAtBoot ls x).xing x).latency = max 3 (ms.foldl max 0 + 2) ∧ ((s.calibrateAtBoot ls x).xing x).calibrating = false := by
  have hbest : ((s.modXing x startCalibration).modXing x (measure ms)).xing x =
      { startCalibration (s.xing x) with best := some (max 3 (ms.foldl max 0 + 2)) } := by
    rw [State.modXing_eq, State.setXing_xing_same, State.modXing_eq, State.setXing_xing_same, measure, if_pos hlen]
  have honly : ∃ m, (s.modXing x startCalibration).modXing x (measure ms) = { s with xings := m } := ⟨_, rfl⟩
  have hothers (y : Nat) (hy : y ≠ x) : ((s.modXing x startCalibration).modXing x (measure ms)).xing y = s.xing y := by
    simp only [State.modXing_eq, State.setXing_xing_ne _ _ _ _ hy]
  have hlow : max 3 (ms.foldl max 0 + 2) ≤ 12 := by
    have := foldl_max_le (n := 10) ms 0 (by omega) hearly
    omega
  unfold State.calibrateAtBoot
  rw [hfind, Option.map_some, Option.getD_some]
  generalize (s.modXing x startCalibration).modXing x (measure ms) = u at hbest honly hothers
  obtain ⟨m, rfl⟩ := honly
  unfold State.endCalibration
  rw [hbest]
  dsimp only
  rw [if_pos (decide_eq_true hlow), Option.getD_some]
  refine ⟨⟨_, rfl⟩, fun y hy => ?_, ?_, ?_⟩
  · rw [State.setXing_xing_ne _ _ _ _ hy, hothers y hy]
  · rw [State.setXing_xing_same]
  · rw [State.setXing_xing_same]

theorem exec_bootCrossingCalibration {s : State} (ls : List (Nat × List Nat)) (hev : s.inEvent 8 = true) : exec (.bootCrossingCalibration ls) s =
    .next ((((List.range 220).filter s.crossingLive).foldl (fun t x => t.calibrateAtBoot ls x) s).onward 9) := if_pos hev

theorem exec_bootCrossingCalibration_idle {s : State} (ls : List (Nat × List Nat)) (hev : s.inEvent 8 = false) :
    exec (.bootCrossingCalibration ls) s = .next s := if_neg (ne_true_of_eq_false hev)

section
variable {s : State} {ls : List (Nat × List Nat)} {xs : List Nat}
  (hgood : ∀ x ∈ xs, ∃ ms, ls.find? (fun (e : Nat × List Nat) => e.1 == x) = some (x, ms) ∧ 24 ≤ ms.length ∧ ∀ m ∈ ms, m ≤ 10)
include hgood

theorem calibrateAll_eq : ∃ m, xs.foldl (fun t x => t.calibrateAtBoot ls x) s = { s with xings := m } := by
  refine List.foldlRecOn (motive := fun t : State => ∃ m, t = { s with xings := m }) xs _ ⟨s.xings, rfl⟩ fun t ht x hx => ?_
  obtain ⟨m, rfl⟩ := ht
  obtain ⟨ms, hfind, hlen, hearly⟩ := hgood x hx
  obtain ⟨honly, -⟩ := calibrateAtBoot_good hfind hlen hearly { s with xings := m }
  exact honly

theorem calibrateAll_xing {x : Nat} {ms : List Nat} (hx : x ∈ xs) (hfind : ls.find? (fun (e : Nat × List Nat) => e.1 == x) = some (x, ms)) :
    ((xs.foldl (fun t x => t.calibrateAtBoot ls x) s).xing x).latency = max 3 (ms.foldl max 0 + 2) ∧
    ((xs.foldl (fun t x => t.calibrateAtBoot ls x) s).xing x).calibrating = false := by
  have hset (t : State) : ((t.calibrateAtBoot ls x).xing x).latency = max 3 (ms.foldl max 0 + 2) ∧
      ((t.calibrateAtBoot ls x).xing x).calibrating = false := by
    obtain ⟨ms', hfind', hlen, hearly⟩ := hgood x hx
    obtain rfl : ms = ms' := congrArg Prod.snd (Option.some.inj (hfind.symm.trans hfind'))
    obtain ⟨-, -, hstored⟩ := calibrateAtBoot_good hfind hlen hearly t
    exact hstored
  refine foldl_reach (I := fun _ => True) (P := fun t : State => (t.xing x).latency = max 3 (ms.foldl max 0 + 2) ∧ (t.xing x).calibrating = false)
    (fun _ _ _ _ => trivial) (fun t y hy _ ht => ?_) (fun t _ => hset t) hx trivial
  by_cases hxy : x = y
  · exact hxy ▸ hset t
  · obtain ⟨_, hfind', hlen, hearly⟩ := hgood y hy
    obtain ⟨-, hothers, -⟩ := calibrateAtBoot_good hfind' hlen hearly t
    rw [hothers x hxy]
    exact ht

end

theorem bootCrossingCalibration_effect {s : State} {ls : List (Nat × List Nat)} (hev : s.inEvent 8 = true)
    (hup : ∃ r, r < 16 ∧ (s.region r).inService = true)
    (hgood : ∀ x, x < 220 → s.crossingLive x = true → ∃ ms, ls.find? (fun (e : Nat × List Nat) => e.1 == x) = some (x, ms) ∧
      24 ≤ ms.length ∧ ∀ m ∈ ms, m ≤ 10) :
    ∃ t : State, exec (.bootCrossingCalibration ls) s = .next t ∧ NoStore s t ∧ t.regions = s.regions ∧ t.boot.event = 9 ∧
      ∀ x ms, x < 220 → s.crossingLive x = true → ls.find? (fun (e : Nat × List Nat) => e.1 == x) = some (x, ms) →
        (t.xing x).latency = max 3 (ms.foldl max 0 + 2) ∧ (t.xing x).calibrating = false := by
  have hlive (x : Nat) : x ∈ (List.range 220).filter s.crossingLive ↔ x < 220 ∧ s.crossingLive x = true := by
    rw [List.mem_filter, List.mem_range]
  have hmarkers := fun x hx => hgood x ((hlive x).mp hx).1 ((hlive x).mp hx).2
  obtain ⟨m, hm⟩ := calibrateAll_eq (s := s) hmarkers
  have hxing := fun x ms hx hin => calibrateAll_xing (s := s) (x := x) (ms := ms) hmarkers ((hlive x).mpr ⟨hx, hin⟩)
  rw [hm] at hxing
  rw [exec_bootCrossingCalibration ls hev, hm, onward_up (s := { s with xings := m }) 9 hup]
  exact ⟨_, rfl, ⟨rfl, rfl, rfl⟩, rfl, rfl, hxing⟩

/-! ## Event 10: Loch ports are trained, and routes are built (R247) -/

theorem buildRoutes_eq (s : State) (rs : List Nat) : ∃ m, s.buildRoutes rs = { s with routes := m } := by
  refine List.foldlRecOn (motive := fun t : State => ∃ m, t = { s with routes := m }) rs _ ⟨s.routes, rfl⟩ fun t ht r _ => ?_
  refine List.foldlRecOn (motive := fun t : State => ∃ m, t = { s with routes := m }) (List.range 16) _ ht fun t ht d _ => ?_
  obtain ⟨m, rfl⟩ := ht
  exact ⟨_, rfl⟩

/-- The Loch ports of a list of failures that exist. -/
def lochPorts (failed : List (Nat × Nat)) : List (Nat × Nat) := failed.filter (fun e => linkExists e.1 e.2 && decide (linkClass e.2 = .loch))

theorem mem_lochPorts {failed : List (Nat × Nat)} {e : Nat × Nat} :
    e ∈ lochPorts failed ↔ e ∈ failed ∧ linkExists e.1 e.2 = true ∧ linkClass e.2 = .loch := by
  rw [lochPorts, List.mem_filter, Bool.and_eq_true, decide_eq_true_iff]

section
variable {s : State} (failed : List (Nat × Nat))

theorem exec_bootLochTraining (hev : s.inEvent 10 = true) : exec (.bootLochTraining failed) s =
    .next ((((lochPorts failed).foldl (fun t e => t.exhaustLink e.1 e.2) s).buildRoutes (List.range 16)).toEvent 11) := if_pos hev

theorem exec_bootLochTraining_idle (hev : s.inEvent 10 = false) : exec (.bootLochTraining failed) s = .next s := if_neg (ne_true_of_eq_false hev)

variable (s)

theorem exhaustPorts_noStore : NoStore s ((lochPorts failed).foldl (fun t e => t.exhaustLink e.1 e.2) s) :=
  List.foldlRecOn (lochPorts failed) _ (.refl s) fun t ht e he => by
    obtain ⟨-, -, hloch⟩ := mem_lochPorts.mp he
    obtain ⟨hstore, -⟩ := linkLost_keeps t e.1 e.2
    exact (ht.trans hstore).trans (exhaustLink_loch t hloch).store

/-- A link out of service stays so when another is lost. -/
theorem exhaustLink_outOfService {r n : Nat} (q k : Nat) (h : (s.fabLink r n).outOfService = true) :
    ((s.exhaustLink q k).fabLink r n).outOfService = true := by
  rw [fabLink_congr (exhaustLink_fabLinks s q k)]
  unfold State.setFabLink State.fabLink
  rw [Tbl.get_set]
  split
  · rfl
  · exact h

theorem exhaustPorts_outOfService {r n : Nat} (hmem : (r, n) ∈ lochPorts failed) :
    (((lochPorts failed).foldl (fun t e => t.exhaustLink e.1 e.2) s).fabLink r n).outOfService = true := by
  refine foldl_reach (I := fun _ => True) (P := fun t : State => (t.fabLink r n).outOfService = true) (fun _ _ _ _ => trivial)
    (fun t e _ _ ht => exhaustLink_outOfService t e.1 e.2 ht) (fun t _ => ?_) hmem trivial
  rw [exhaustLink_fabLink]

end

theorem bootLochTraining_clean {s : State} (hev : s.inEvent 10 = true) : ∃ t : State, exec (.bootLochTraining []) s = .next t ∧
    { t with routes := s.routes, boot := s.boot } = s ∧ t.boot.event = 11 := by
  obtain ⟨m, hm⟩ := buildRoutes_eq s (List.range 16)
  refine ⟨_, exec_bootLochTraining [] hev, ?_⟩
  rw [lochPorts, List.filter_nil, List.foldl_nil, hm]
  exact ⟨rfl, rfl⟩

theorem bootLochTraining_effect {s : State} (failed : List (Nat × Nat)) (hev : s.inEvent 10 = true) :
    ∃ t : State, exec (.bootLochTraining failed) s = .next t ∧ NoStore s t ∧ t.boot.event = 11 ∧
      ∀ r n, r < 16 → (r, n) ∈ failed → linkExists r n = true → linkClass n = .loch → (t.fabLink r n).outOfService = true := by
  have hstore := exhaustPorts_noStore s failed
  have hlost := fun r n => exhaustPorts_outOfService s failed (r := r) (n := n)
  rw [exec_bootLochTraining failed hev]
  generalize (lochPorts failed).foldl (fun t e => t.exhaustLink e.1 e.2) s = u at hstore hlost ⊢
  obtain ⟨m, hm⟩ := buildRoutes_eq u (List.range 16)
  rw [hm]
  exact ⟨_, rfl, hstore, rfl, fun r n _ hmem hexists hloch => hlost r n (mem_lochPorts.mpr ⟨hmem, hexists, hloch⟩)⟩

/-! ## Event 11: CXL ports are trained (R353) -/

/-- Nothing is stored, bring-up stands where it stood, and CXL ports that are up stay up. -/
structure KeepsUp (s t : State) : Prop where
  store : NoStore s t
  boot : t.boot = s.boot
  up : ∀ k, (s.cxl k).up = true → (t.cxl k).up = true

theorem KeepsUp.refl (s : State) : KeepsUp s s := ⟨.refl s, rfl, fun _ => id⟩

theorem KeepsUp.trans {s t u : State} (hst : KeepsUp s t) (htu : KeepsUp t u) : KeepsUp s u where
  store := hst.store.trans htu.store
  boot := htu.boot.trans hst.boot
  up k h := htu.up k (hst.up k h)

theorem keepsUp_setCxl (s : State) (k : Nat) (v : CxlPort) (hv : (s.cxl k).up = true → v.up = true) : KeepsUp s (s.setCxl k v) where
  store := ⟨rfl, rfl, rfl⟩
  boot := rfl
  up j h := by
    rw [State.setCxl_cxl]
    split
    next hj => exact hv (hj ▸ h)
    next => exact h

theorem keepsUp_note (s : State) (code : Nat) (src : Source) : KeepsUp s (s.note code src) where
  store := noStore_note s code src
  boot := State.note_boot s code src
  up k h := by rwa [State.note_cxl]

theorem keepsUp_modCxl (s : State) (k : Nat) (f : CxlPort → CxlPort) (hf : ∀ v, (f v).up = v.up) : KeepsUp s (s.modCxl k f) :=
  keepsUp_setCxl s k (f (s.cxl k)) fun h => (hf (s.cxl k)).trans h

theorem keepsUp_keyPort (s : State) (port : Nat) : KeepsUp s (s.keyPort port) := by
  have hdraw : KeepsUp s s.draw := ⟨⟨rfl, rfl, rfl⟩, rfl, fun _ => id⟩
  have hemit (t : State) (o : Output) : KeepsUp t (t.emit o) := ⟨⟨rfl, rfl, rfl⟩, rfl, fun _ => id⟩
  unfold State.keyPort
  refine (hdraw.trans ?_).trans (hemit _ _)
  exact keepsUp_modCxl _ _ _ fun _ => rfl

/-- An enumerated device is behind a port that is up. -/
theorem cxlDevice_keepsUp (s : State) (port : Nat) (d : CxlDevice) : KeepsUp (s.modCxl port (fun v => { v with up := true })) (s.cxlDevice port d) := by
  unfold State.cxlDevice
  generalize s.modCxl port (fun v => { v with up := true }) = t
  dsimp only
  split
  · exact .refl t
  · split
    · refine .trans ?_ (keepsUp_note _ _ _)
      exact keepsUp_modCxl _ _ _ fun _ => rfl
    · split
      · refine .trans ?_ (keepsUp_keyPort _ port)
        exact keepsUp_modCxl _ _ _ fun _ => rfl
      · exact keepsUp_modCxl _ _ _ fun _ => rfl

theorem keepsUp_cxlDevice (s : State) (port : Nat) (d : CxlDevice) : KeepsUp s (s.cxlDevice port d) :=
  (keepsUp_setCxl s port _ fun _ => rfl).trans (cxlDevice_keepsUp s port d)

theorem cxlDevice_up (s : State) (port : Nat) (d : CxlDevice) : ((s.cxlDevice port d).cxl port).up = true :=
  (cxlDevice_keepsUp s port d).up port (congrArg CxlPort.up (State.setCxl_cxl_same s port _))

/-- The device that event 11 finds behind a port, if that port is there. -/
def State.trainCxl (s : State) (e : Nat × CxlDevice) : State := if e.1 < 8 ∧ s.cxlAbsent e.1 = false then s.cxlDevice e.1 e.2 else s

theorem keepsUp_trainCxl (s : State) (e : Nat × CxlDevice) : KeepsUp s (s.trainCxl e) := by
  unfold State.trainCxl
  split
  · exact keepsUp_cxlDevice s e.1 e.2
  · exact .refl s

theorem exec_bootCxlTraining_idle {s : State} (devs : List (Nat × CxlDevice)) (hev : s.inEvent 11 = false) :
    exec (.bootCxlTraining devs) s = .next s := if_neg (ne_true_of_eq_false hev)

theorem bootCxlTraining_effect {s : State} (devs : List (Nat × CxlDevice)) (hev : s.inEvent 11 = true) :
    ∃ t : State, exec (.bootCxlTraining devs) s = .next t ∧ NoStore s t ∧ t.boot.event = 12 ∧
      ∀ p d, (p, d) ∈ devs → p < 8 → s.cxlAbsent p = false → (t.cxl p).up = true := by
  have hkeeps : KeepsUp s (devs.foldl State.trainCxl s) := List.foldlRecOn devs _ (.refl s) fun t ht e _ => ht.trans (keepsUp_trainCxl t e)
  refine ⟨(devs.foldl State.trainCxl s).toEvent 12, if_pos hev, hkeeps.store, rfl, fun p d hmem hp hthere => ?_⟩
  refine foldl_reach (I := KeepsUp s) (P := fun t : State => (t.cxl p).up = true) (fun t e _ ht => ht.trans (keepsUp_trainCxl t e))
    (fun t e _ _ hup => (keepsUp_trainCxl t e).up p hup) (fun t ht => ?_) hmem (.refl s)
  have hthere' : t.cxlAbsent p = false := by
    rw [State.cxlAbsent, ht.boot]
    exact hthere
  rw [State.trainCxl, if_pos ⟨hp, hthere'⟩]
  exact cxlDevice_up t p d

/-! ## Event 12: bring-up is complete (R285) -/

theorem exec_bootComplete_idle {s : State} (hev : s.inEvent 12 = false) : exec .bootComplete s = .next s := if_neg (ne_true_of_eq_false hev)

theorem bootComplete_effect {s : State} (hev : s.inEvent 12 = true) :
    ∃ t : State, exec .bootComplete s = .next ((List.range 16).foldl State.boundaryStep t) ∧ NoStore s t ∧ t.boot.complete = true ∧
      t.boot.linksOut = min 65535 s.linksLost ∧ Logged t 0x0001 ∧ t.regions = s.regions ∧ t.clusters = s.clusters := by
  have hdone (b : Boot) : NoStore s { s with boot := b } := ⟨rfl, rfl, rfl⟩
  refine ⟨_, if_pos hev, (hdone _).trans (noStore_note _ _ _), ?_, ?_, logged_note _ _ _, ?_, ?_⟩
  · rw [State.note_boot]
  · rw [State.note_boot]
  · rw [State.note_regions]
  · rw [State.note_clusters]

end Sys2Proof.Machine

namespace Sys2Proof.Machine
open Sys2Proof

/-! ## Event 6: the neighbour test (R534, R535) -/

/-- The verdicts on one site that stand: those of testers which are not themselves condemned. -/
def standing (vs : List Verdict) (k : Nat) : List Verdict :=
  (siteVerdicts vs k).filter (fun v => !(badTesters (siteVerdicts vs k)).contains v.tester)

/-- The positions of site k that the verdicts condemn (R535). -/
def condemnedAt (vs : List Verdict) (k : Nat) : List Nat :=
  (List.range 18).filter (fun p => (badTesters (siteVerdicts vs k)).contains p ||
    decide (2 ≤ failuresOf (onTarget (standing vs k) p) TestResult.isFail))

/-- Whether the verdicts condemn the chiplet of site k as a whole (R535). -/
def wholeAt (vs : List Verdict) (k : Nat) : Bool :=
  (List.range 18).any (fun p => decide (2 ≤ failuresOf (onTarget (standing vs k) p) TestResult.isRouter))

theorem mem_condemnedAt {vs : List Verdict} {k p : Nat} : p ∈ condemnedAt vs k ↔
    p < 18 ∧ (p ∈ badTesters (siteVerdicts vs k) ∨ 2 ≤ failuresOf (onTarget (standing vs k) p) TestResult.isFail) := by
  rw [condemnedAt, List.mem_filter, List.mem_range, Bool.or_eq_true, List.contains_iff_mem, decide_eq_true_iff]

section
variable {vs : List Verdict} {k : Nat} (hpass : ∀ v ∈ siteVerdicts vs k, v.result = .pass)
include hpass

/-- A tester whose verdicts all pass is not condemned: one that is condemned reports failures of two targets. -/
theorem badTesters_passed (t : Nat) : t ∉ badTesters (siteVerdicts vs k) := by
  unfold badTesters
  rw [List.mem_filter, Bool.and_eq_true, decide_eq_true_iff]
  rintro ⟨-, htwo, hfail⟩
  match hown : (siteVerdicts vs k).filter (fun v => v.tester == t) with
  | [] =>
    rw [hown] at htwo
    exact absurd htwo (by decide)
  | v :: own =>
    have hv : v ∈ (siteVerdicts vs k).filter (fun v => v.tester == t) := hown ▸ List.mem_cons_self
    have hbad := List.all_eq_true.mp hfail v hv
    rw [hpass v (List.mem_of_mem_filter hv)] at hbad
    exact absurd hbad (by decide)

theorem condemnedAt_passed (p : Nat) : p ∉ condemnedAt vs k := by
  have hnone : (onTarget (standing vs k) p).filter (fun v => TestResult.isFail v.result) = [] := by
    refine List.filter_eq_nil_iff.mpr fun v hv => ?_
    rw [hpass v (List.mem_of_mem_filter (List.mem_of_mem_filter hv))]
    decide
  rw [mem_condemnedAt, failuresOf, hnone]
  rintro ⟨-, hbad | htwo⟩
  · exact badTesters_passed hpass p hbad
  · exact absurd htwo (by decide)

end

/-- What the judgement of site k makes of its region. -/
def Region.judged (v : Region) (vs : List Verdict) (k : Nat) : Region :=
  { v with condemned := v.condemned ++ (condemnedAt vs k).map (fun p => (k, p)),
           sitesFailed := if wholeAt vs k then v.sitesFailed ++ [k] else v.sitesFailed }

/-- What event 6 leaves as it was: memory, tarn, clusters, and all of the regions but what it judges. -/
def KeepsTest (s t : State) : Prop := t.mem = s.mem ∧ t.tarn = s.tarn ∧ t.clusters = s.clusters

theorem KeepsTest.trans {s t u : State} (hst : KeepsTest s t) (htu : KeepsTest t u) : KeepsTest s u := by
  obtain ⟨hmem, htarn, hcl⟩ := hst
  obtain ⟨hmem', htarn', hcl'⟩ := htu
  exact ⟨hmem'.trans hmem, htarn'.trans htarn, hcl'.trans hcl⟩

section
variable (s : State) (r : Nat) (vs : List Verdict) (k : Nat)

theorem judgeSite_keeps : KeepsTest s (s.judgeSite r vs k) := by
  unfold State.judgeSite KeepsTest
  dsimp only
  split
  · exact ⟨rfl, rfl, rfl⟩
  · simp

theorem judgeSite_region : (s.judgeSite r vs k).region r = if k ∈ (s.region r).sitesFailed then s.region r else (s.region r).judged vs k := by
  unfold State.judgeSite
  by_cases hk : k ∈ (s.region r).sitesFailed
  · rw [if_pos (List.contains_iff_mem.mpr hk), if_pos hk]
  · rw [if_neg (fun h => hk (List.contains_iff_mem.mp h)), if_neg hk]
    refine (region_congr (s := s.setRegion r ((s.region r).judged vs k)) ?_ r).trans (State.setRegion_region_same s r _)
    dsimp only
    rw [foldl_regions _ (fun t v => State.note_regions t _ _), foldl_regions _ (fun t p => State.note_regions t _ _)]
    rfl

theorem mem_judgeSite_sitesFailed {j : Nat} (hj : j ∈ ((s.judgeSite r vs k).region r).sitesFailed) : j ∈ (s.region r).sitesFailed ∨ j = k := by
  rw [judgeSite_region] at hj
  split at hj
  · exact .inl hj
  · unfold Region.judged at hj
    dsimp only at hj
    split at hj
    · exact (List.mem_append.mp hj).imp_right List.mem_singleton.mp
    · exact .inl hj

theorem mem_judgeSite_condemned {x : Nat × Nat} : x ∈ ((s.judgeSite r vs k).region r).condemned ↔
    x ∈ (s.region r).condemned ∨ (k ∉ (s.region r).sitesFailed ∧ x.1 = k ∧ x.2 ∈ condemnedAt vs k) := by
  obtain ⟨j, p⟩ := x
  rw [judgeSite_region]
  split
  next hk => simp [hk]
  next hk =>
    simp only [Region.judged, List.mem_append, List.mem_map, Prod.mk.injEq, hk, not_false_eq_true, true_and]
    refine or_congr_right ⟨?_, ?_⟩
    · rintro ⟨q, hq, rfl, rfl⟩
      exact ⟨rfl, hq⟩
    · rintro ⟨rfl, hp⟩
      exact ⟨p, hp, rfl, rfl⟩

end

/-- All 19 sites of a region judged in turn. -/
def State.judgeAll (s : State) (r : Nat) (vs : List Verdict) : State := (List.range 19).foldl (fun t k => t.judgeSite r vs k) s

section
variable (s : State) (r : Nat) (vs : List Verdict)

theorem judgeAll_keeps : KeepsTest s (s.judgeAll r vs) :=
  List.foldlRecOn (List.range 19) _ ⟨rfl, rfl, rfl⟩ fun t ht k _ => ht.trans (judgeSite_keeps t r vs k)

/-- The judgement changes what is condemned of a region, and nothing else of it. -/
theorem judgeAll_region : { (s.judgeAll r vs).region r with condemned := (s.region r).condemned, sitesFailed := (s.region r).sitesFailed } = s.region r := by
  refine List.foldlRecOn (motive := fun t : State =>
    { t.region r with condemned := (s.region r).condemned, sitesFailed := (s.region r).sitesFailed } = s.region r) (List.range 19) _ rfl fun t ht k _ => ?_
  rw [judgeSite_region]
  split
  · exact ht
  · exact ht

theorem judgeAll_condemned_mono {x : Nat × Nat} (hx : x ∈ (s.region r).condemned) : x ∈ ((s.judgeAll r vs).region r).condemned :=
  List.foldlRecOn (motive := fun t : State => x ∈ (t.region r).condemned) (List.range 19) _ hx fun t ht k _ =>
    (mem_judgeSite_condemned t r vs k).mpr (.inl ht)

/-- A position whose site has only passes is condemned only if it was before. -/
theorem judgeAll_passed {k p : Nat} (hpass : ∀ v ∈ siteVerdicts vs k, v.result = .pass) (hin : (k, p) ∈ ((s.judgeAll r vs).region r).condemned) :
    (k, p) ∈ (s.region r).condemned := by
  refine List.foldlRecOn (motive := fun t : State => (k, p) ∈ (t.region r).condemned → (k, p) ∈ (s.region r).condemned) (List.range 19) _ id
    (fun t ht j _ hin => ?_) hin
  rcases (mem_judgeSite_condemned t r vs j).mp hin with hold | ⟨-, rfl, hnew⟩
  · exact ht hold
  · exact absurd hnew (condemnedAt_passed hpass p)

/-- A position that the verdicts condemn is condemned, unless its chiplet was already. -/
theorem judgeAll_condemned {k p : Nat} (hk : k < 19) (hwell : k ∉ (s.region r).sitesFailed) (hp : p ∈ condemnedAt vs k) :
    (k, p) ∈ ((s.judgeAll r vs).region r).condemned := by
  -- The chiplet is judged before it can be counted as failed.
  have hturn (t : State) (ht : k ∉ (t.region r).sitesFailed ∨ (k, p) ∈ (t.region r).condemned) :
      (k, p) ∈ ((t.judgeSite r vs k).region r).condemned :=
    (mem_judgeSite_condemned t r vs k).mpr (ht.symm.imp_right fun hwell => ⟨hwell, rfl, hp⟩)
  refine foldl_reach (I := fun t : State => k ∉ (t.region r).sitesFailed ∨ (k, p) ∈ (t.region r).condemned) (fun t j _ ht => ?_)
    (fun t j _ _ hin => (mem_judgeSite_condemned t r vs j).mpr (.inl hin)) hturn (List.mem_range.mpr hk) (.inl hwell)
  by_cases hjk : k = j
  · exact .inr (hjk ▸ hturn t ht)
  · exact ht.imp (fun hwell hin => hwell ((mem_judgeSite_sitesFailed t r vs j hin).resolve_right hjk))
      fun hin => (mem_judgeSite_condemned t r vs j).mpr (.inl hin)

end

theorem exec_neighbourTest_idle {s : State} {r : Nat} {vs : List Verdict} (h : 16 ≤ r ∨ s.inEvent 6 = false ∨ (s.region r).inService = false) :
    exec (.neighbourTest r vs) s = .next s := by
  refine if_pos ?_
  rcases h with h | h | h <;> simp [h]

/-- Whether a region's soft start has come as far as an event asks. -/
theorem stageDone_eq {s : State} {r n : Nat} {b : SoftStart} (hserv : (s.region r).inService = true) (hsoft : (s.region r).soft = some b)
    (hstage : b.bootStage < n) : s.stageDone r n = false := by
  unfold State.stageDone
  rw [hserv, hsoft]
  simp [hstage]

/-- The rows of a region's clusters are zero and EMPTY. -/
def State.clearRows (s : State) (r : Nat) : State := { s with tarn := Tbl.drop (fun k => regionOf (k / 16384) == r) s.tarn }

theorem clearRows_trow (s : State) (r c : Nat) {n : Nat} (hn : n < 16384) : (s.clearRows r).trow c n = if regionOf c = r then {} else s.trow c n := by
  have hrow := get_drop_rows (fun c => regionOf c == r) s.tarn c hn
  simp only [beq_iff_eq] at hrow
  exact hrow

section
variable {s : State} {r : Nat} (vs : List Verdict) {b : SoftStart} (hr : r < 16) (hev : s.inEvent 6 = true) (hserv : (s.region r).inService = true)
  (hsoft : (s.region r).soft = some b) (hstage : b.bootStage < 2)
include hr hev hserv hsoft hstage

theorem exec_neighbourTest : exec (.neighbourTest r vs) s =
    .next ((((s.clearRows r).judgeAll r vs).modSoft r (fun b => { b with bootStage := 2 })).endStage) :=
  if_neg (by simp [hr, hev, hserv, stageDone_eq hserv hsoft hstage])

/-- The rows are cleared, the verdicts judged, and the region's part of the event is over. -/
theorem neighbourTest_judged : ∃ t : State, exec (.neighbourTest r vs) s = .next t ∧ KeepsTest (s.clearRows r) t ∧
    (t.region r).soft = some { b with bootStage := 2 } ∧ (t.region r).condemned = (((s.clearRows r).judgeAll r vs).region r).condemned := by
  have hkeeps := judgeAll_keeps (s.clearRows r) r vs
  have hregion := judgeAll_region (s.clearRows r) r vs
  rw [exec_neighbourTest vs hr hev hserv hsoft hstage]
  generalize (s.clearRows r).judgeAll r vs = u at hkeeps hregion
  have husoft : (u.region r).soft = some b := (congrArg Region.soft hregion).trans hsoft
  have huserv : (u.region r).inService = true := (congrArg Region.inService hregion).trans hserv
  rw [modSoft_eq husoft]
  have hset := State.setRegion_region_same u r { u.region r with soft := some { b with bootStage := 2 } }
  have hkeeps' : KeepsTest u (u.setRegion r { u.region r with soft := some { b with bootStage := 2 } }) := ⟨rfl, rfl, rfl⟩
  generalize u.setRegion r { u.region r with soft := some { b with bootStage := 2 } } = w at hset hkeeps'
  obtain ⟨e, hend⟩ := endStage_up (s := w) hr (by rw [hset]; exact huserv)
  rw [hend]
  have hcond : (w.region r).condemned = (u.region r).condemned := by rw [hset]
  exact ⟨_, rfl, hkeeps.trans hkeeps', congrArg Region.soft hset, hcond⟩

theorem neighbourTest_effect : ∃ t : State, exec (.neighbourTest r vs) s = .next t ∧ t.mem = s.mem ∧ t.clusters = s.clusters ∧
    (t.region r).soft = some { b with bootStage := 2 } ∧
    (∀ c n, c < 4608 → regionOf c = r → n < 16384 → t.trow c n = {}) ∧ (∀ c n, c < 4608 → regionOf c ≠ r → n < 16384 → t.trow c n = s.trow c n) ∧
    (∀ k p, k < 19 → p < 18 → k ∉ (s.region r).sitesFailed → (p ∈ badTesters (siteVerdicts vs k) ∨
      2 ≤ failuresOf (onTarget (standing vs k) p) TestResult.isFail) → (k, p) ∈ (t.region r).condemned) ∧
    (∀ k p, k < 19 → (∀ v ∈ siteVerdicts vs k, v.result = .pass) → (k, p) ∈ (t.region r).condemned → (k, p) ∈ (s.region r).condemned) ∧
    ∀ x ∈ (s.region r).condemned, x ∈ (t.region r).condemned := by
  obtain ⟨t, hexec, ⟨hmem, htarn, hcl⟩, hstaged, hcond⟩ := neighbourTest_judged vs hr hev hserv hsoft hstage
  have hrow (c n : Nat) : t.trow c n = (s.clearRows r).trow c n := by rw [State.trow_def, htarn, State.trow_def]
  refine ⟨t, hexec, hmem, hcl, hstaged, fun c n _ hc hn => ?_, fun c n _ hc hn => ?_, fun k p hk hp hwell hbad => ?_,
    fun k p _ hpass hin => ?_, fun x hx => ?_⟩
  · rw [hrow, clearRows_trow s r c hn, if_pos hc]
  · rw [hrow, clearRows_trow s r c hn, if_neg hc]
  · rw [hcond]
    exact judgeAll_condemned (s.clearRows r) r vs hk hwell (mem_condemnedAt.mpr ⟨hp, hbad⟩)
  · rw [hcond] at hin
    exact judgeAll_passed (s.clearRows r) r vs hpass hin
  · rw [hcond]
    exact judgeAll_condemned_mono (s.clearRows r) r vs hx

end

end Sys2Proof.Machine

namespace Sys2Proof.Machine
open Sys2Proof

/-! ## Fields of a cluster map entry (Table 1.6) -/

section
variable {k p st n : Nat} (hk : k < 32) (hp : p < 32) (hst : st < 4) (hn : n < 256)
include hk hp hst hn

theorem mkEntry_fields : entrySite (mkEntry k p st n) = k ∧ entryPos (mkEntry k p st n) = p ∧ entryState (mkEntry k p st n) = st ∧
    entryCount (mkEntry k p st n) = n := by
  have hnat : (mkEntry k p st n).toNat = k + 32 * p + 1024 * st + 65536 * n := by
    rw [mkEntry, BitVec.toNat_ofNat]
    omega
  unfold entrySite entryPos entryState entryCount bitsOf
  rw [hnat]
  refine ⟨?_, ?_, ?_, ?_⟩ <;> omega

end

theorem entryCount_factoryEntry (s : State) (r : Nat) {l : Nat} (hl : l < 288) : entryCount (s.factoryEntry r l) = 0 := by
  have hpos : nthSet (s.enabledAt r (slotOf l)) 18 0 (slotIdx l) < 18 := nthSet_lt _ (by omega) (by omega)
  have hslot : slotOf l < 32 := by unfold slotOf; omega
  simp only [State.factoryEntry, entryCount, bitsOf, BitVec.toNat_ofNat]
  omega

theorem entrySite_lt (e : BitVec 32) : entrySite e < 32 := Nat.mod_lt _ (by decide)

/-! ## Free positions (R24) -/

theorem mem_freePositions {s : State} {r k p : Nat} (h : p ∈ s.freePositions r k) : p < 18 ∧ positionOk (s.region r) k p = true := by
  obtain ⟨hrange, hfree⟩ := List.mem_filter.mp h
  exact ⟨List.mem_range.mp hrange, (Bool.and_eq_true_iff.mp hfree).1⟩

theorem mem_of_nearest {p q : Nat} : ∀ {l : List Nat}, nearest p l = some q → q ∈ l
  | [], h => absurd h (by simp [nearest])
  | a :: rest, h => by
    unfold nearest at h
    split at h
    · exact Option.some.inj h ▸ List.mem_cons_self
    next b hb =>
      split at h
      · exact Option.some.inj h ▸ List.mem_cons_self
      · exact List.mem_cons_of_mem a (Option.some.inj h ▸ mem_of_nearest hb)

/-! ## Event 7: the cluster map is built (R22, R537) -/

/-- What an entry reads as depends on its region's map and on the positions enabled alone. -/
theorem cmapEntry_congr {s t : State} {r : Nat} (he : t.enabled = s.enabled) (hmap : (t.region r).cmap = (s.region r).cmap) (l : Nat) :
    t.cmapEntry r l = s.cmapEntry r l := by
  unfold State.cmapEntry State.factoryEntry State.enabledAt
  rw [he, hmap]

/-- Entries are placed: nothing but the map of region r changes besides reports, an entry in a healthy place stays, and no
change is counted. -/
structure PlacesEntries (r : Nat) (s t : State) : Prop where
  store : NoStore s t
  clusters : t.clusters = s.clusters
  enabled : t.enabled = s.enabled
  region : { t.region r with cmap := (s.region r).cmap } = s.region r
  healthy : ∀ l, s.misplaced r l = false → t.cmapEntry r l = s.cmapEntry r l
  count : ∀ l, entryCount (s.cmapEntry r l) = 0 → entryCount (t.cmapEntry r l) = 0

theorem positionOk_congr {v w : Region} (h : { w with cmap := v.cmap } = v) (k p : Nat) : positionOk w k p = positionOk v k p := by
  rw [← h]
  rfl

theorem PlacesEntries.misplaced {r : Nat} {s t : State} (h : PlacesEntries r s t) {l : Nat} (hl : s.misplaced r l = false) :
    t.misplaced r l = false := by
  have hentry := h.healthy l hl
  unfold State.misplaced at hl ⊢
  dsimp only at hl ⊢
  rw [hentry, positionOk_congr h.region]
  exact hl
 
theorem PlacesEntries.refl (r : Nat) (s : State) : PlacesEntries r s s := ⟨.refl s, rfl, rfl, rfl, fun _ _ => rfl, fun _ => id⟩

theorem PlacesEntries.trans {r : Nat} {s t u : State} (hst : PlacesEntries r s t) (htu : PlacesEntries r t u) : PlacesEntries r s u where
  store := hst.store.trans htu.store
  clusters := htu.clusters.trans hst.clusters
  enabled := htu.enabled.trans hst.enabled
  region := (congrArg (fun v : Region => { v with cmap := (s.region r).cmap }) htu.region).trans hst.region
  healthy l hl := (htu.healthy l (hst.misplaced hl)).trans (hst.healthy l hl)
  count l h := htu.count l (hst.count l h)

/-- The entry that stands for a place, or for none. -/
def bootPlaced (place : Option (Nat × Nat)) : BitVec 32 :=
  match place with
  | some (k, p) => mkEntry k p 1 0
  | none => mkEntry 0 0 2 0

section
variable (s : State) (r l : Nat) (place : Option (Nat × Nat))

theorem bootEntry_regions : (s.bootEntry r l place).regions = (s.setRegion r { s.region r with
    cmap := Tbl.set (fun l => s.factoryEntry r l) (s.region r).cmap l (bootPlaced place) }).regions := by
  unfold State.bootEntry
  cases place with
  | none => exact State.note_regions _ _ _
  | some q => rfl

theorem bootEntry_keeps : NoStore s (s.bootEntry r l place) ∧ (s.bootEntry r l place).clusters = s.clusters ∧
    (s.bootEntry r l place).enabled = s.enabled := by
  have hset (v : Region) : NoStore s (s.setRegion r v) := ⟨rfl, rfl, rfl⟩
  unfold State.bootEntry
  cases place with
  | none => exact ⟨(hset _).trans (noStore_note _ _ _), State.note_clusters _ _ _, State.note_enabled _ _ _⟩
  | some q => exact ⟨hset _, rfl, rfl⟩

theorem bootEntry_region : (s.bootEntry r l place).region r =
    { s.region r with cmap := Tbl.set (fun l => s.factoryEntry r l) (s.region r).cmap l (bootPlaced place) } :=
  (region_congr (bootEntry_regions s r l place) r).trans (State.setRegion_region_same s r _)

theorem bootEntry_cmapEntry (j : Nat) : (s.bootEntry r l place).cmapEntry r j = if j = l then bootPlaced place else s.cmapEntry r j := by
  obtain ⟨-, -, henabled⟩ := bootEntry_keeps s r l place
  have hfactory (i : Nat) : (s.bootEntry r l place).factoryEntry r i = s.factoryEntry r i := by
    unfold State.factoryEntry State.enabledAt
    rw [henabled]
  unfold State.cmapEntry
  rw [bootEntry_region]
  simp only [hfactory]
  exact Tbl.get_set _ _ _ _ _

variable {s r l place}

theorem placesEntries_bootEntry (hbad : s.misplaced r l = true) (hplace : ∀ k p, place = some (k, p) → k < 32 ∧ p < 18) :
    PlacesEntries r s (s.bootEntry r l place) where
  store := (bootEntry_keeps s r l place).1
  clusters := (bootEntry_keeps s r l place).2.1
  enabled := (bootEntry_keeps s r l place).2.2
  region := by rw [bootEntry_region]
  healthy j hj := by
    rw [bootEntry_cmapEntry, if_neg]
    rintro rfl
    exact Bool.false_ne_true (hj.symm.trans hbad)
  count j hj := by
    rw [bootEntry_cmapEntry]
    split
    · cases place with
      | none => decide
      | some q =>
        obtain ⟨hk, hp⟩ := hplace q.1 q.2 rfl
        obtain ⟨-, -, -, hcount⟩ := mkEntry_fields (st := 1) (n := 0) hk (by omega : q.2 < 32) (by decide) (by decide)
        exact hcount
    · exact hj

end

theorem placesEntries_placeNear (s : State) (r l : Nat) : PlacesEntries r s (s.placeNear r l) := by
  unfold State.placeNear
  dsimp only
  split
  next hbad =>
    split
    next p hp =>
      refine placesEntries_bootEntry (Bool.and_eq_true_iff.mp hbad).1 fun k q hq => ?_
      obtain ⟨rfl, rfl⟩ := Prod.mk.inj (Option.some.inj hq)
      exact ⟨entrySite_lt _, (mem_freePositions (mem_of_nearest hp)).1⟩
    next => exact .refl r s
  next => exact .refl r s

/-- The place that is left for an entry: a free position of site 18, if there is one. -/
def State.farPlace (s : State) (r : Nat) : Option (Nat × Nat) := (s.freePositions r 18).head?.map (fun p => (18, p))

theorem farPlace_some {s : State} {r k p : Nat} (h : s.farPlace r = some (k, p)) : k = 18 ∧ p < 18 ∧ positionOk (s.region r) 18 p = true := by
  obtain ⟨q, hq, hpair⟩ := Option.map_eq_some_iff.mp h
  obtain ⟨rfl, rfl⟩ := Prod.mk.inj hpair
  exact ⟨rfl, mem_freePositions (List.mem_of_head? hq)⟩

theorem placesEntries_placeFar (s : State) (r l : Nat) : PlacesEntries r s (s.placeFar r l) := by
  unfold State.placeFar
  split
  next hbad =>
    refine placesEntries_bootEntry hbad fun k p hplace => ?_
    obtain ⟨rfl, hp, -⟩ := farPlace_some hplace
    exact ⟨by decide, hp⟩
  next => exact .refl r s

/-- After steps 2 and 3 an entry is in a healthy place or vacant. -/
theorem placeFar_misplaced (s : State) (r l : Nat) : (s.placeFar r l).misplaced r l = false := by
  by_cases hbad : s.misplaced r l = true
  · have hfar : s.placeFar r l = s.bootEntry r l (s.farPlace r) := if_pos hbad
    have hok := positionOk_congr (placesEntries_placeFar s r l).region
    rw [hfar] at hok ⊢
    unfold State.misplaced
    dsimp only
    rw [hok, bootEntry_cmapEntry, if_pos rfl]
    match hplace : s.farPlace r with
    | none => rfl
    | some (k, p) =>
      obtain ⟨rfl, hp, hfree⟩ := farPlace_some hplace
      obtain ⟨hsite, hpos, -⟩ := mkEntry_fields (k := 18) (st := 1) (n := 0) (by decide) (by omega : p < 32) (by decide) (by decide)
      rw [bootPlaced, hsite, hpos, hfree, Bool.not_true, Bool.and_false]
  · have hkept : s.placeFar r l = s := if_neg hbad
    rw [hkept]
    exact Bool.eq_false_iff.mpr hbad

/-- The map of a region reads as from the factory. -/
def State.factoryMap (s : State) (r : Nat) : State := s.setRegion r { s.region r with cmap := [] }

theorem factoryMap_cmapEntry (s : State) (r l : Nat) : (s.factoryMap r).cmapEntry r l = s.factoryEntry r l := by
  unfold State.cmapEntry State.factoryMap
  rw [State.setRegion_region_same]
  rfl

/-- Steps 2 and 3 for the entries listed. -/
def State.placeFarAll (s : State) (r : Nat) (ls : List Nat) : State := ls.foldl (fun (t : State) l => t.placeFar r l) s

/-- Step 1 for every entry. -/
def State.placeNearAll (s : State) (r : Nat) : State := (List.range 288).foldl (fun (t : State) l => t.placeNear r l) s

/-- Step 2: the entries of the chiplets condemned as a whole, in ascending site. -/
def State.placeFailedSites (s : State) (r : Nat) : State := (List.range 18).foldl (fun (t : State) k =>
  if (t.region r).sitesFailed.contains k then t.placeFarAll r ((List.range 288).filter (fun l => slotOf l == k)) else t) s

theorem bootMap_eq (s : State) (r : Nat) :
    s.bootMap r = (((s.factoryMap r).placeNearAll r).placeFailedSites r).placeFarAll r (List.range 288) := by
  unfold State.bootMap State.placeFarAll State.placeFailedSites State.placeFarAll State.placeNearAll State.factoryMap
  rw [State.modRegion_eq]

theorem placesEntries_placeFarAll (s : State) (r : Nat) (ls : List Nat) : PlacesEntries r s (s.placeFarAll r ls) :=
  List.foldlRecOn ls _ (.refl r s) fun t ht l _ => ht.trans (placesEntries_placeFar t r l)

theorem placesEntries_placeNearAll (s : State) (r : Nat) : PlacesEntries r s (s.placeNearAll r) :=
  List.foldlRecOn (List.range 288) _ (.refl r s) fun t ht l _ => ht.trans (placesEntries_placeNear t r l)

theorem placesEntries_placeFailedSites (s : State) (r : Nat) : PlacesEntries r s (s.placeFailedSites r) :=
  List.foldlRecOn (List.range 18) _ (.refl r s) fun t ht k _ => by
    split
    · exact ht.trans (placesEntries_placeFarAll t r _)
    · exact ht

/-- Once steps 2 and 3 have come to an entry it is in a healthy place or vacant. -/
theorem placeFarAll_misplaced (s : State) (r : Nat) {ls : List Nat} {l : Nat} (hl : l ∈ ls) : (s.placeFarAll r ls).misplaced r l = false :=
  foldl_reach (I := fun _ => True) (P := fun t : State => t.misplaced r l = false) (fun _ _ _ _ => trivial)
    (fun t j _ _ ht => (placesEntries_placeFar t r j).misplaced ht) (fun t _ => placeFar_misplaced t r l) hl trivial

theorem bootMap_places (s : State) (r : Nat) : PlacesEntries r (s.factoryMap r) (s.bootMap r) ∧
    ∀ l, l < 288 → (s.bootMap r).misplaced r l = false := by
  rw [bootMap_eq]
  exact ⟨((placesEntries_placeNearAll _ r).trans (placesEntries_placeFailedSites _ r)).trans (placesEntries_placeFarAll _ r _),
    fun l hl => placeFarAll_misplaced _ r (List.mem_range.mpr hl)⟩

theorem factoryMap_misplaced {s : State} {r l : Nat} (hwell : positionOk (s.region r) (entrySite (s.factoryEntry r l)) (entryPos (s.factoryEntry r l)) = true) :
    (s.factoryMap r).misplaced r l = false := by
  have hregion : (s.factoryMap r).region r = { s.region r with cmap := [] } := State.setRegion_region_same s r _
  have hok := positionOk_congr (v := s.region r) (w := (s.factoryMap r).region r) (by rw [hregion])
  unfold State.misplaced
  dsimp only
  rw [factoryMap_cmapEntry, hok, hwell, Bool.not_true, Bool.and_false]

theorem exec_spareMapping_idle {s : State} {r : Nat} (h : 16 ≤ r ∨ s.inEvent 7 = false ∨ (s.region r).inService = false) :
    exec (.spareMapping r) s = .next s := by
  refine if_pos ?_
  rcases h with h | h | h <;> simp [h]

/-- The clusters of region r stand as the map of u wants them: Idle where they are mapped, and Off where they are not. -/
structure MapsClusters (r : Nat) (u w : State) : Prop where
  store : NoStore u w
  regions : w.regions = u.regions
  enabled : w.enabled = u.enabled
  own : ∀ c, regionOf c = r → (w.cl c).st = (if u.vacant c = true then .off else .idle)
  others : ∀ c, regionOf c ≠ r → w.cl c = u.cl c

theorem mapsClusters_setClusters (u : State) (r : Nat) :
    MapsClusters r u (u.setClusters r (fun c => if u.vacant c then .off else .idle)) where
  store := (setClusters_keeps u r _).1
  regions := (setClusters_keeps u r _).2.1
  enabled := (setClusters_keeps u r _).2.2
  own _ hc := setClusters_st u r (fun c => if u.vacant c then .off else .idle) hc
  others _ hc := setClusters_cl_ne u _ hc

section
variable {s : State} {r : Nat} {b : SoftStart} (hr : r < 16) (hev : s.inEvent 7 = true) (hserv : (s.region r).inService = true)
  (hsoft : (s.region r).soft = some b) (hstage : b.bootStage < 3)
include hr hserv hsoft

/-- A region's clusters stand by its map: its part of the event is over, and its map as it was. -/
theorem endMapping {u w : State} (hplaces : PlacesEntries r (s.factoryMap r) u) (hmaps : MapsClusters r u w) :
    ∃ t : State, (w.modSoft r (fun b => { b with bootStage := 3 })).endStage = t ∧ NoStore s t ∧ (t.region r).soft = some { b with bootStage := 3 } ∧
      (∀ c, regionOf c = r → (t.cl c).st = (if t.vacant c = true then .off else .idle)) ∧ (∀ c, regionOf c ≠ r → t.cl c = s.cl c) ∧
      (∀ l, t.cmapEntry r l = u.cmapEntry r l) ∧ ∀ k p, positionOk (t.region r) k p = positionOk (u.region r) k p := by
  have hfactory : (s.factoryMap r).region r = { s.region r with cmap := [] } := State.setRegion_region_same s r _
  have hplaced := hplaces.region
  rw [hfactory] at hplaced
  have husoft : (u.region r).soft = some b := (congrArg Region.soft hplaced).trans hsoft
  have huserv : (u.region r).inService = true := (congrArg Region.inService hplaced).trans hserv
  have hwregion := region_congr hmaps.regions r
  rw [modSoft_eq (hwregion ▸ husoft), hwregion]
  have hset := State.setRegion_region_same w r { u.region r with soft := some { b with bootStage := 3 } }
  have hkeeps : NoStore w (w.setRegion r { u.region r with soft := some { b with bootStage := 3 } }) := ⟨rfl, rfl, rfl⟩
  have hcl (c : Nat) : (w.setRegion r { u.region r with soft := some { b with bootStage := 3 } }).cl c = w.cl c := rfl
  have henabled : (w.setRegion r { u.region r with soft := some { b with bootStage := 3 } }).enabled = u.enabled := hmaps.enabled
  generalize w.setRegion r { u.region r with soft := some { b with bootStage := 3 } } = x at hset hkeeps hcl henabled
  obtain ⟨e, hend⟩ := endStage_up (s := x) hr (by rw [hset]; exact huserv)
  have hcmap : (x.region r).cmap = (u.region r).cmap := by rw [hset]
  have hcleared : NoStore s (s.factoryMap r) := ⟨rfl, rfl, rfl⟩
  have hcl0 (c : Nat) : (s.factoryMap r).cl c = s.cl c := rfl
  have hucl (c : Nat) : u.cl c = s.cl c := by rw [State.cl_def, hplaces.clusters, ← State.cl_def, hcl0]
  refine ⟨_, hend, ((hcleared.trans hplaces.store).trans hmaps.store).trans hkeeps, congrArg Region.soft hset, fun c hc => ?_, fun c hc => ?_,
    cmapEntry_congr (t := { x with boot := e }) henabled hcmap, fun k p => ?_⟩
  · have hvacant : ({ x with boot := e } : State).vacant c = u.vacant c := vacant_congr henabled (hc.symm ▸ hcmap)
    rw [hvacant]
    exact (congrArg Cluster.st (hcl c)).trans (hmaps.own c hc)
  · exact ((hcl c).trans (hmaps.others c hc)).trans (hucl c)
  · have hok : positionOk (x.region r) k p = positionOk (u.region r) k p := by
      rw [hset]
      rfl
    exact hok

include hev hstage

theorem exec_spareMapping : exec (.spareMapping r) s = .next ((((s.bootMap r).setClusters r
    (fun c => if (s.bootMap r).vacant c then .off else .idle)).modSoft r (fun b => { b with bootStage := 3 })).endStage) :=
  if_neg (by simp [hr, hev, hserv, stageDone_eq hserv hsoft hstage])

theorem spareMapping_effect : ∃ t : State, exec (.spareMapping r) s = .next t ∧ NoStore s t ∧ (t.region r).soft = some { b with bootStage := 3 } ∧
    (∀ c, c < 4608 → regionOf c = r → (t.cl c).st = (if t.vacant c = true then .off else .idle)) ∧ (∀ c, regionOf c ≠ r → t.cl c = s.cl c) ∧
    (∀ l, l < 288 → entryState (t.cmapEntry r l) ≠ 2 → positionOk (t.region r) (entrySite (t.cmapEntry r l)) (entryPos (t.cmapEntry r l)) = true) ∧
    ∀ l, l < 288 → entryCount (t.cmapEntry r l) = 0 ∧
      (entryState (s.factoryEntry r l) = 0 → positionOk (s.region r) (entrySite (s.factoryEntry r l)) (entryPos (s.factoryEntry r l)) = true →
        t.cmapEntry r l = s.factoryEntry r l) := by
  obtain ⟨hplaces, hplaced⟩ := bootMap_places s r
  obtain ⟨t, hend, hstore, hstaged, hst, hne, hentry, hok⟩ := endMapping hr hserv hsoft hplaces (mapsClusters_setClusters (s.bootMap r) r)
  refine ⟨t, hend ▸ exec_spareMapping hr hev hserv hsoft hstage, hstore, hstaged, fun c _ hc => hst c hc, hne, fun l hl hmapped => ?_,
    fun l hl => ⟨?_, fun _ hwell => ?_⟩⟩
  · have hwell := hplaced l hl
    unfold State.misplaced at hwell
    rw [hentry] at hmapped ⊢
    rw [hok]
    simpa [hmapped] using hwell
  · rw [hentry]
    exact hplaces.count l ((factoryMap_cmapEntry s r l).symm ▸ entryCount_factoryEntry s r hl)
  · rw [hentry, ← factoryMap_cmapEntry]
    exact hplaces.healthy l (factoryMap_misplaced hwell)

end

end Sys2Proof.Machine

namespace Sys2Proof.Machine
open Sys2Proof

/-! ## Event 9: the stacks are trained (R343, Table 21.7) -/

/-- One stack trained, with the number its free value is drawn at. -/
def State.trainHbm (s : State) (failed : List Nat) (k : Nat) : State :=
  s.draw.modHbm k (trainStack (failed.contains k) (Config.repairsLeft k s.fresh))

/-- All 32 stacks trained in turn. -/
def State.trainHbms (s : State) (failed : List Nat) (ks : List Nat) : State := ks.foldl (fun t k => t.trainHbm failed k) s

theorem trainHbms_eq (s : State) (failed ks : List Nat) : ∃ n m, s.trainHbms failed ks = { s with fresh := n, hbms := m } :=
  List.foldlRecOn (motive := fun t : State => ∃ n m, t = { s with fresh := n, hbms := m }) ks _ ⟨s.fresh, s.hbms, rfl⟩ fun t ht k _ => by
    obtain ⟨n, m, rfl⟩ := ht
    exact ⟨_, _, rfl⟩

theorem trainHbm_hbm_same (s : State) (failed : List Nat) (k : Nat) :
    (s.trainHbm failed k).hbm k = trainStack (failed.contains k) (Config.repairsLeft k s.fresh) (s.hbm k) := State.setHbm_hbm_same _ _ _

theorem trainHbm_hbm_ne (s : State) (failed : List Nat) {j k : Nat} (hj : j ≠ k) : (s.trainHbm failed k).hbm j = s.hbm j :=
  State.setHbm_hbm_ne _ _ _ _ hj

theorem trainHbms_hbm_unlisted (failed : List Nat) {ks : List Nat} {k : Nat} (hk : k ∉ ks) (s : State) : (s.trainHbms failed ks).hbm k = s.hbm k :=
  List.foldlRecOn (motive := fun t : State => t.hbm k = s.hbm k) ks _ rfl fun t ht j hj =>
    (trainHbm_hbm_ne t failed fun h : k = j => hk (h ▸ hj)).trans ht

/-- A stack listed once is trained once. -/
theorem trainHbms_hbm (failed : List Nat) {ks : List Nat} (hnodup : ks.Nodup) {k : Nat} (hk : k ∈ ks) (s : State) :
    ∃ left, (s.trainHbms failed ks).hbm k = trainStack (failed.contains k) left (s.hbm k) := by
  induction ks generalizing s with
  | nil => exact absurd hk List.not_mem_nil
  | cons j ks ih =>
    obtain ⟨hj, hnodup⟩ := List.nodup_cons.mp hnodup
    have hrest : s.trainHbms failed (j :: ks) = (s.trainHbm failed j).trainHbms failed ks := rfl
    rw [hrest]
    by_cases hkj : k = j
    · subst hkj
      rw [trainHbms_hbm_unlisted failed hj, trainHbm_hbm_same]
      exact ⟨_, rfl⟩
    · obtain ⟨left, htrained⟩ := ih hnodup ((List.mem_cons.mp hk).resolve_left hkj) (s.trainHbm failed j)
      exact ⟨left, htrained.trans (by rw [trainHbm_hbm_ne s failed hkj])⟩

/-! ### Regions without a stack (Table 1.9) -/

section
variable {s : State} {r : Nat}

/-- Dropping the regions without a stack changes regions alone, and not one that has a stack left. -/
theorem dropStackless_keeps (hone : ((s.hbm (2 * r)).failed && (s.hbm (2 * r + 1)).failed) = false) :
    ∃ m, s.dropStackless = { s with regions := m } ∧ s.dropStackless.region r = s.region r := by
  refine List.foldlRecOn (motive := fun t : State => ∃ m, t = { s with regions := m } ∧ t.region r = s.region r) (List.range 16) _
    ⟨s.regions, rfl, rfl⟩ fun t ht q _ => ?_
  obtain ⟨m, rfl, hregion⟩ := ht
  split
  next hboth =>
    have hq : r ≠ q := by
      rintro rfl
      exact Bool.false_ne_true (hone.symm.trans hboth)
    exact ⟨_, rfl, (State.setRegion_region_ne _ q _ r hq).trans hregion⟩
  next => exact ⟨m, rfl, hregion⟩

end

theorem loseSlices_eq (s : State) (rs : List Nat) : ∃ m p, rs.foldl State.loseSlice s = { s with mem := m, poison := p } :=
  List.foldlRecOn (motive := fun t : State => ∃ m p, t = { s with mem := m, poison := p }) rs _ ⟨s.mem, s.poison, rfl⟩ fun t ht q _ => by
    obtain ⟨m, p, rfl⟩ := ht
    exact ⟨_, _, rfl⟩

/-- Once a slice is lost its bytes read zero. -/
theorem loseSlices_rawByte (s : State) {rs : List Nat} {r a : Nat} (hr : r ∈ rs) (hlo : r * s.sliceSize ≤ a) (hhi : a < (r + 1) * s.sliceSize) :
    (rs.foldl State.loseSlice s).rawByte a = 0 := by
  refine foldl_reach (g := State.loseSlice) (I := fun t : State => t.sliceSize = s.sliceSize) (P := fun t : State => t.rawByte a = 0) (fun _ _ _ ht => ht)
    (fun t q _ _ hzero => ?_) (fun t ht => ?_) hr rfl
  · rw [loseSlice_rawByte, hzero, ite_self]
  · rw [loseSlice_rawByte, ht, if_pos ⟨hlo, hhi⟩]

/-! ### Regions out of service go Dark (R539) -/

/-- A region without power, before its slice and its stacks are lost. -/
def State.darkened (s : State) (r : Nat) : State :=
  let t := (s.modRegion r darkRegion).modRegionClusters r (fun _ v => darkCluster v)
  let t := { t with tarn := Tbl.drop (fun k => regionOf (k / 16384) == r) t.tarn,
                    cores := Tbl.mapVal (fun _ => {}) (fun n v => if n / 24 = r then stopCore v else v) t.cores,
                    dir := t.dir.filter (fun e => e.1 / (s.sliceSize / 64) != r) }
  t.modDomain r (fun v => { v with lastBeacon := none, missed := 0 })

theorem goDark_eq (s : State) (r : Nat) : s.goDark r =
    (((s.darkened r).loseSlice r).modHbm (2 * r) (fun v => { v with selfRefresh := false, trained := false })).modHbm (2 * r + 1)
      (fun v => { v with selfRefresh := false, trained := false }) := by
  unfold State.goDark State.darkened
  dsimp only

theorem darkened_keeps (s : State) (r : Nat) : (s.darkened r).hbms = s.hbms ∧ (s.darkened r).cool = s.cool ∧ (s.darkened r).bpm = s.bpm ∧
    (s.darkened r).mem = s.mem ∧ (s.darkened r).variant36 = s.variant36 := ⟨rfl, rfl, rfl, rfl, rfl⟩

theorem hbm_congr {s t : State} (h : t.hbms = s.hbms) (k : Nat) : t.hbm k = s.hbm k := congrArg (fun m => Tbl.get (fun _ => ({} : Stack)) m k) h

theorem wakeState_congr {s t : State} (hcool : t.cool = s.cool) (hbpm : t.bpm = s.bpm) : t.wakeState = s.wakeState := by
  rw [State.wakeState, hcool, hbpm, State.wakeState]

theorem rawByte_congr {s t : State} (h : t.mem = s.mem) (a : Nat) : t.rawByte a = s.rawByte a := by rw [State.rawByte_def, h, State.rawByte_def]

/-- What is left of the stacks, of memory and of what decides how a region wakes, when region `q` goes Dark. -/
theorem goDark_keeps (s : State) (q : Nat) : (s.goDark q).cool = s.cool ∧ (s.goDark q).bpm = s.bpm ∧
    (∀ k, ((s.goDark q).hbm k).failed = (s.hbm k).failed ∧ ((s.goDark q).hbm k).hard = (s.hbm k).hard ∧ (k / 2 ≠ q → (s.goDark q).hbm k = s.hbm k)) ∧
    ∀ a, s.rawByte a = 0 → (s.goDark q).rawByte a = 0 := by
  obtain ⟨hhbms, hcool, hbpm, hmem, -⟩ := darkened_keeps s q
  rw [goDark_eq]
  generalize s.darkened q = d at hhbms hcool hbpm hmem
  have hstack (k : Nat) : (d.loseSlice q).hbm k = s.hbm k := hbm_congr hhbms k
  refine ⟨hcool, hbpm, fun k => ?_, fun a ha => ?_⟩
  · simp only [State.modHbm_eq, State.setHbm_hbm, hstack]
    by_cases hodd : k = 2 * q + 1
    · subst hodd
      refine ⟨?_, ?_, fun h => absurd (by omega) h⟩ <;> simp
    · by_cases heven : k = 2 * q
      · subst heven
        refine ⟨?_, ?_, fun h => absurd (by omega) h⟩ <;> simp
      · simp [hodd, heven]
  · have hbyte : (d.loseSlice q).rawByte a = 0 := by rw [loseSlice_rawByte, rawByte_congr hmem, ha, ite_self]
    exact hbyte

/-- What dropping the other regions leaves of region r, of its slice and its stacks, and of what decides how it wakes. -/
structure KeepsRegion (r : Nat) (s t : State) : Prop where
  region : t.region r = s.region r
  counts : ∀ k, (t.hbm k).failed = (s.hbm k).failed ∧ (t.hbm k).hard = (s.hbm k).hard
  own : ∀ k, k / 2 = r → t.hbm k = s.hbm k
  wake : t.wakeState = s.wakeState
  zero : ∀ a, s.rawByte a = 0 → t.rawByte a = 0

theorem KeepsRegion.refl (r : Nat) (s : State) : KeepsRegion r s s := ⟨rfl, fun _ => ⟨rfl, rfl⟩, fun _ _ => rfl, rfl, fun _ => id⟩

theorem KeepsRegion.trans {r : Nat} {s t u : State} (hst : KeepsRegion r s t) (htu : KeepsRegion r t u) : KeepsRegion r s u where
  region := htu.region.trans hst.region
  counts k := by
    obtain ⟨hfailed, hhard⟩ := hst.counts k
    obtain ⟨hfailed', hhard'⟩ := htu.counts k
    exact ⟨hfailed'.trans hfailed, hhard'.trans hhard⟩
  own k hk := (htu.own k hk).trans (hst.own k hk)
  wake := htu.wake.trans hst.wake
  zero a h := htu.zero a (hst.zero a h)

theorem keepsRegion_bootFail (s : State) {r q : Nat} (hrq : r ≠ q) : KeepsRegion r s (s.bootFail q) := by
  obtain ⟨hcool, hbpm, hstacks, hzero⟩ := goDark_keeps s q
  have hregion := goDark_region_ne s q hrq
  rw [State.bootFail, State.modRegion_eq]
  generalize s.goDark q = d at hcool hbpm hstacks hzero hregion
  exact {
    region := (State.setRegion_region_ne _ q _ r hrq).trans hregion
    counts := fun k => by
      obtain ⟨hfailed, hhard, -⟩ := hstacks k
      exact ⟨hfailed, hhard⟩
    own := fun k hk => by
      obtain ⟨-, -, hother⟩ := hstacks k
      exact hother fun h => hrq (hk.symm.trans h)
    wake := wakeState_congr hcool hbpm
    zero := hzero }

/-- The regions out of service go Dark; one in service stays. -/
theorem keepsRegion_dropRegions {s : State} {r : Nat} (hserv : (s.region r).inService = true) (rs : List Nat) :
    KeepsRegion r s (rs.foldl State.dropRegion s) :=
  List.foldlRecOn rs _ (.refl r s) fun t ht q _ => by
    unfold State.dropRegion
    split
    · exact ht
    next hout =>
      refine ht.trans (keepsRegion_bootFail t ?_)
      rintro rfl
      rw [ht.region] at hout
      exact hout hserv

/-! ### Regions enter Run -/

/-- What a region in service is once its stacks are trained. -/
def State.Entered (s : State) (r : Nat) (v : Region) : Prop :=
  v.inService = true ∧ v.pstate = s.wakeState.1 ∧ v.soft = none ∧ v.upperUnmapped = ((s.hbm (2 * r)).failed || (s.hbm (2 * r + 1)).failed)

theorem enterRegions_eq (s : State) (rs : List Nat) : ∃ m, rs.foldl State.enterRun s = { s with regions := m } :=
  List.foldlRecOn (motive := fun t : State => ∃ m, t = { s with regions := m }) rs _ ⟨s.regions, rfl⟩ fun t ht q _ => by
    obtain ⟨m, rfl⟩ := ht
    exact ⟨_, rfl⟩

theorem enterRegions_entered {s : State} {rs : List Nat} {r : Nat} (hr : r ∈ rs) (hserv : (s.region r).inService = true) :
    s.Entered r ((rs.foldl State.enterRun s).region r) := by
  have hturn (t : State) (ht : (∃ m, t = { s with regions := m }) ∧ (t.region r).inService = true) : s.Entered r ((t.enterRun r).region r) := by
    obtain ⟨⟨m, rfl⟩, hserv⟩ := ht
    unfold State.enterRun
    dsimp only
    rw [State.modRegion_eq, State.setRegion_region_same]
    exact ⟨hserv, rfl, rfl, rfl⟩
  have hother (t : State) {q : Nat} (hq : r ≠ q) : (t.enterRun q).region r = t.region r := State.setRegion_region_ne _ q _ r hq
  refine foldl_reach (I := fun t : State => (∃ m, t = { s with regions := m }) ∧ (t.region r).inService = true)
    (P := fun t : State => s.Entered r (t.region r)) (fun t q _ ht => ⟨?_, ?_⟩) (fun t q _ ht hin => ?_) hturn hr ⟨⟨s.regions, rfl⟩, hserv⟩
  · obtain ⟨⟨m, rfl⟩, -⟩ := ht
    exact ⟨_, rfl⟩
  · by_cases hq : r = q
    · exact hq ▸ (hturn t ht).1
    · rw [hother t hq]
      exact ht.2
  · by_cases hq : r = q
    · exact hq ▸ hturn t ht
    · rw [hother t hq]
      exact hin

/-! ### Event 9 -/

/-- The panel once event 9 has trained its stacks, zeroed its slices, and dropped the regions that are out of service. -/
def State.hbmsTrained (s : State) (failed : List Nat) : State :=
  (List.range 16).foldl State.dropRegion ((List.range 16).foldl State.loseSlice (s.trainHbms failed (List.range 32)).dropStackless)

theorem exec_bootHbmTraining {s : State} (failed : List Nat) (hev : s.inEvent 9 = true) : exec (.bootHbmTraining failed) s =
    .next ((((List.range 16).filter (fun r => ((s.hbmsTrained failed).region r).inService)).foldl State.enterRun (s.hbmsTrained failed)).onward 10) :=
  if_pos hev

theorem exec_bootHbmTraining_idle {s : State} (failed : List Nat) (hev : s.inEvent 9 = false) : exec (.bootHbmTraining failed) s = .next s :=
  if_neg (ne_true_of_eq_false hev)

theorem trainHbms_stack (failed : List Nat) {k : Nat} (hk : k < 32) (s : State) :
    let v := (s.trainHbms failed (List.range 32)).hbm k
    v.failed = ((s.hbm k).failed || failed.contains k) ∧ v.trained = !((s.hbm k).failed || failed.contains k) ∧
    v.hard = (s.hbm k).hard + (s.hbm k).harden := by
  obtain ⟨left, htrained⟩ := trainHbms_hbm failed List.nodup_range (List.mem_range.mpr hk) s
  rw [htrained]
  exact ⟨rfl, rfl, rfl⟩

section
variable {s : State} {failed : List Nat} {r : Nat} (hserv : (s.region r).inService = true)
  (hone : (((s.hbm (2 * r)).failed || failed.contains (2 * r)) && ((s.hbm (2 * r + 1)).failed || failed.contains (2 * r + 1))) = false)

include hserv hone

/-- A region in service with a stack left: it is as it was, its stacks are trained, and its slice is zero. -/
theorem hbmsTrained_keeps (hr : r < 16) : ((s.hbmsTrained failed).region r).inService = true ∧ (s.hbmsTrained failed).wakeState = s.wakeState ∧
    (∀ k, k < 32 → ((s.hbmsTrained failed).hbm k).failed = ((s.hbm k).failed || failed.contains k) ∧
      ((s.hbmsTrained failed).hbm k).hard = (s.hbm k).hard + (s.hbm k).harden) ∧
    (∀ k, k / 2 = r → ((s.hbmsTrained failed).hbm k).trained = !((s.hbm k).failed || failed.contains k)) ∧
    ∀ a, r * s.sliceSize ≤ a → a < (r + 1) * s.sliceSize → (s.hbmsTrained failed).rawByte a = 0 := by
  have hstack := fun k hk => trainHbms_stack failed (k := k) hk s
  obtain ⟨n, m, htrain⟩ := trainHbms_eq s failed (List.range 32)
  unfold State.hbmsTrained
  rw [htrain] at hstack ⊢
  have honeLeft : ((State.hbm { s with fresh := n, hbms := m } (2 * r)).failed && (State.hbm { s with fresh := n, hbms := m } (2 * r + 1)).failed) = false := by
    obtain ⟨hfailed, -⟩ := hstack (2 * r) (by omega)
    obtain ⟨hfailed', -⟩ := hstack (2 * r + 1) (by omega)
    rw [hfailed, hfailed', hone]
  obtain ⟨g, hdrop, hregion⟩ := dropStackless_keeps honeLeft
  rw [hdrop] at hregion ⊢
  have hslice := fun a => loseSlices_rawByte { s with fresh := n, hbms := m, regions := g } (a := a) (List.mem_range.mpr hr)
  obtain ⟨y, p, hlose⟩ := loseSlices_eq { s with fresh := n, hbms := m, regions := g } (List.range 16)
  dsimp only at hlose hslice ⊢
  rw [hlose] at hslice ⊢
  have hserv' : (State.region { s with fresh := n, hbms := m, regions := g, mem := y, poison := p } r).inService = true :=
    (congrArg Region.inService hregion).trans hserv
  have hkeeps := keepsRegion_dropRegions hserv' (List.range 16)
  generalize (List.range 16).foldl State.dropRegion { s with fresh := n, hbms := m, regions := g, mem := y, poison := p } = w at hkeeps ⊢
  refine ⟨(congrArg Region.inService hkeeps.region).trans hserv', hkeeps.wake, fun k hk => ?_, fun k hk => ?_, fun a hlo hhi => hkeeps.zero a (hslice a hlo hhi)⟩
  · obtain ⟨hfailed, -, hhard⟩ := hstack k hk
    obtain ⟨hkept, hkept'⟩ := hkeeps.counts k
    exact ⟨hkept.trans hfailed, hkept'.trans hhard⟩
  · obtain ⟨-, htrained, -⟩ := hstack k (by omega)
    exact (congrArg Stack.trained (hkeeps.own k hk)).trans htrained

theorem bootHbmTraining_effect (hev : s.inEvent 9 = true) (hr : r < 16) : ∃ t : State, exec (.bootHbmTraining failed) s = .next t ∧ t.boot.event = 10 ∧
    (t.region r).pstate = s.wakeState.1 ∧ (t.region r).soft = none ∧
    (t.region r).upperUnmapped = (((s.hbm (2 * r)).failed || failed.contains (2 * r)) || ((s.hbm (2 * r + 1)).failed || failed.contains (2 * r + 1))) ∧
    (t.hbm (2 * r)).trained = !((s.hbm (2 * r)).failed || failed.contains (2 * r)) ∧
    (t.hbm (2 * r + 1)).trained = !((s.hbm (2 * r + 1)).failed || failed.contains (2 * r + 1)) ∧
    (∀ k, k < 32 → (t.hbm k).failed = ((s.hbm k).failed || failed.contains k) ∧ (t.hbm k).hard = (s.hbm k).hard + (s.hbm k).harden) ∧
    ∀ x, r * s.sliceSize ≤ x → x < (r + 1) * s.sliceSize → Tbl.get (fun _ => (0 : Byte)) t.mem x = 0 := by
  obtain ⟨hup, hwake, hstacks, htrained, hzero⟩ := hbmsTrained_keeps hserv hone hr
  rw [exec_bootHbmTraining failed hev]
  generalize s.hbmsTrained failed = u at hup hwake hstacks htrained hzero ⊢
  have hlisted : r ∈ (List.range 16).filter (fun r => (u.region r).inService) := List.mem_filter.mpr ⟨List.mem_range.mpr hr, hup⟩
  obtain ⟨hserv', hpstate, hsoft, hunmapped⟩ := enterRegions_entered hlisted hup
  obtain ⟨m, hm⟩ := enterRegions_eq u ((List.range 16).filter (fun r => (u.region r).inService))
  generalize ((List.range 16).filter (fun r => (u.region r).inService)).foldl State.enterRun u = w at hserv' hpstate hsoft hunmapped hm ⊢
  obtain ⟨hfailed, -⟩ := hstacks (2 * r) (by omega)
  obtain ⟨hfailed', -⟩ := hstacks (2 * r + 1) (by omega)
  have hhbm (k : Nat) : w.hbm k = u.hbm k := by rw [hm]; rfl
  have hbyte (a : Nat) : w.rawByte a = u.rawByte a := by rw [hm]; rfl
  rw [onward_up 10 ⟨r, hr, hserv'⟩]
  refine ⟨w.toEvent 10, rfl, rfl, hpstate.trans (by rw [hwake]), hsoft, hunmapped.trans (by rw [hfailed, hfailed']), ?_, ?_, fun k hk => ?_,
    fun x hlo hhi => (hbyte x).trans (hzero x hlo hhi)⟩
  · exact (congrArg Stack.trained (hhbm _)).trans (htrained _ (by omega))
  · exact (congrArg Stack.trained (hhbm _)).trans (htrained _ (by omega))
  · obtain ⟨hf, hh⟩ := hstacks k hk
    exact ⟨(congrArg Stack.failed (hhbm k)).trans hf, (congrArg Stack.hard (hhbm k)).trans hh⟩

end

end Sys2Proof.Machine

namespace Sys2Proof.Machine
open Sys2Proof

/-! ## Bring-up, events 5 to 12 -/

/-- Settles O51: the events one after the other, each by the lemma that says what it does and the one that says when it does nothing. -/
theorem bringUpRegions : Obligations.BringUpRegions := by
  unfold Obligations.BringUpRegions
  refine fun s => ⟨fun r ok hr hev hholder hserv => ⟨?_, ?_, fun b hsoft hramp hstage => ⟨?_, ?_⟩⟩,
    ?_, ?_, ?_, ?_, ?_, ?_, ?_, ?_, ?_, ?_, ?_, ?_, ?_, ?_, ?_, ?_⟩
  · exact bootRegionPower_begins hr hev hholder hserv
  · exact exec_bootRegionPower_early hr hev hholder hserv
  · rintro rfl
    exact bootRegionPower_passed hr hev hholder hserv hsoft hramp hstage
  · rintro rfl
    exact bootRegionPower_failed hr hev hholder hserv hsoft hramp hstage
  · exact fun _ _ => exec_bootRegionPower_idle
  · exact fun _ vs _ hr hev hserv hsoft hstage => neighbourTest_effect vs hr hev hserv hsoft hstage
  · exact fun _ _ => exec_neighbourTest_idle
  · exact fun _ _ hr hev hserv hsoft hstage => spareMapping_effect hr hev hserv hsoft hstage
  · exact fun _ => exec_spareMapping_idle
  · exact fun _ hev hup hgood => bootCrossingCalibration_effect hev hup hgood
  · exact fun ls => exec_bootCrossingCalibration_idle ls
  · exact fun _ _ hev hr hserv hone => bootHbmTraining_effect hserv hone hev hr
  · exact fun failed => exec_bootHbmTraining_idle failed
  · exact bootLochTraining_clean
  · exact bootLochTraining_effect
  · exact fun failed => exec_bootLochTraining_idle failed
  · exact bootCxlTraining_effect
  · exact fun devs => exec_bootCxlTraining_idle devs
  · exact bootComplete_effect
  · exact exec_bootComplete_idle

end Sys2Proof.Machine

namespace Sys2Proof.Machine
open Sys2Proof

/-! ## A change of the references leaves the panel's stores, clusters, domains and time (R272, R275) -/

/-- Nothing is stored, no cluster and no domain changes, and panel time stands. -/
def KeepsTime (s t : State) : Prop := NoStore s t ∧ t.clusters = s.clusters ∧ t.domains = s.domains ∧ t.tb.now = s.tb.now

theorem KeepsTime.refl (s : State) : KeepsTime s s := ⟨.refl s, rfl, rfl, rfl⟩

theorem KeepsTime.trans {s t u : State} (hst : KeepsTime s t) (htu : KeepsTime t u) : KeepsTime s u := by
  obtain ⟨hstore, hcl, hdom, hnow⟩ := hst
  obtain ⟨hstore', hcl', hdom', hnow'⟩ := htu
  exact ⟨hstore.trans hstore', hcl'.trans hcl, hdom'.trans hdom, hnow'.trans hnow⟩

theorem keepsTime_note (s : State) (code : Nat) (src : Source) : KeepsTime s (s.note code src) :=
  ⟨noStore_note s code src, State.note_clusters s code src, State.note_domains s code src, congrArg Timebase.now (State.note_tb s code src)⟩

theorem keepsTime_setTb (s : State) {v : Timebase} (hnow : v.now = s.tb.now) : KeepsTime s { s with tb := v } := ⟨.refl s, rfl, rfl, hnow⟩

/-! ## The whole panel enters Hold (R302, R547) -/

/-- Whether a region is in Run or in Hold, where a cause of Hold finds it. -/
def Region.Awake (v : Region) : Prop := v.pstate = .run ∨ v.pstate = .hold

theorem holdRegion_run (cause : HoldCause) {v : Region} (hrun : v.pstate = .run) : holdRegion cause v = { v with pstate := .hold, causes := [cause] } := by
  simp only [holdRegion, hrun]

theorem holdRegion_awake (cause : HoldCause) {v : Region} (h : v.Awake) : (holdRegion cause v).pstate = .hold := by
  rcases h with hrun | hhold
  · rw [holdRegion_run cause hrun]
  · unfold holdRegion
    simp only [hhold]
    split
    · exact hhold
    · rfl

theorem holdAll_holds (s : State) (cause : HoldCause) {r : Nat} (hr : r < 16) (h : (s.region r).Awake) :
    ((s.allRegions (holdRegion cause)).region r).pstate = .hold := by
  have hturn (t : State) (q : Nat) (ht : (t.region r).Awake) (P : Region → Prop) (hkeep : P (t.region r))
      (hset : P (holdRegion cause (t.region r))) : P ((t.modRegion q (holdRegion cause)).region r) := by
    rw [State.modRegion_eq, State.setRegion_region]
    split
    next hq => exact hq ▸ hset
    next => exact hkeep
  refine foldl_reach (I := fun t : State => (t.region r).Awake) (P := fun t : State => (t.region r).pstate = .hold)
    (fun t q _ ht => hturn t q ht Region.Awake ht (.inr (holdRegion_awake cause ht)))
    (fun t q _ ht hhold => hturn t q ht (fun v => v.pstate = .hold) hhold (holdRegion_awake cause ht)) (fun t ht => ?_) (List.mem_range.mpr hr) h
  rw [State.modRegion_eq, State.setRegion_region_same]
  exact holdRegion_awake cause ht

theorem deviceFatal_region (s : State) (code : Nat) (src : Source) (r : Nat) :
    (s.deviceFatal code src).region r = ((s.note code src).allRegions (holdRegion .fatal)).region r := by
  unfold State.deviceFatal
  refine List.foldlRecOn (motive := fun t : State => t.region r = ((s.note code src).allRegions (holdRegion .fatal)).region r) _ _ rfl
    fun t ht l _ => ?_
  dsimp only
  split <;> exact ht

/-- A device-fatal error holds every region that runs. -/
theorem deviceFatal_holds (s : State) (code : Nat) (src : Source) {r : Nat} (hr : r < 16) (h : (s.region r).Awake) :
    ((s.deviceFatal code src).region r).pstate = .hold := by
  rw [deviceFatal_region]
  exact holdAll_holds _ .fatal hr (by rwa [State.note_region])

/-- The tick fails everywhere: panel time stops, and nothing else of the timebase changes. -/
theorem tickLossAll_keeps (s : State) : KeepsTime s s.tickLossAll ∧ s.tickLossAll.tb = { s.tb with running := false } := by
  have htb : s.tickLossAll.tb = { s.tb with running := false } := by simp [State.tickLossAll]
  exact ⟨⟨by simp [State.tickLossAll, NoStore], by simp [State.tickLossAll], by simp [State.tickLossAll], by rw [htb]⟩, htb⟩

theorem tickLossAll_holds (s : State) {r : Nat} (hr : r < 16) (hrun : (s.region r).pstate = .run) : (s.tickLossAll.region r).pstate = .hold :=
  deviceFatal_holds _ _ _ hr (.inr (holdAll_holds { s with tb := { s.tb with running := false } } .tick hr (.inl hrun)))

/-! ## The choice between the references (R272, R273) -/

theorem choose_eq (v : Timebase) : v.choose = { v with ref := v.choose.ref, source := v.choose.source } := by
  unfold Timebase.choose
  dsimp only
  repeat' split
  all_goals rfl

/-- A locked timebase stays with a source that is qualified. -/
theorem choose_stays {v : Timebase} (hlocked : v.ref = .locked) (hsource : v.qualified v.source = true) : v.choose = v := by
  unfold Timebase.choose
  rw [hlocked]
  dsimp only
  rw [if_pos hsource]

theorem choose_moves {v : Timebase} (hlocked : v.ref = .locked) (hsource : v.qualified v.source = false) (hother : v.qualified (!v.source) = true) :
    v.choose = { v with source := !v.source } := by
  unfold Timebase.choose
  rw [hlocked]
  dsimp only
  rw [if_neg (ne_true_of_eq_false hsource), if_pos hother]

/-- A locked timebase with no reference left goes to HOLDOVER. -/
theorem choose_holdover {v : Timebase} (hlocked : v.ref = .locked) (hsource : v.qualified v.source = false)
    (hother : v.qualified (!v.source) = false) : v.choose = { v with ref := .holdover } := by
  unfold Timebase.choose
  rw [hlocked]
  dsimp only
  rw [if_neg (ne_true_of_eq_false hsource), if_neg (ne_true_of_eq_false hother)]

theorem choose_unqualified {v : Timebase} (hholdover : v.ref = .holdover) (ha : v.aQualified = false) (hb : v.bQualified = false) : v.choose = v := by
  have hnone (b : Bool) : v.qualified b = false := by cases b <;> assumption
  unfold Timebase.choose
  simp only [hholdover, hnone, Bool.false_eq_true, if_false]

theorem trackPrimary_choose (v : Timebase) :
    v.choose.trackPrimary = { v with ref := v.choose.ref, source := v.choose.source, primarySince := v.choose.trackPrimary.primarySince } :=
  congrArg (fun w : Timebase => { w with primarySince := v.choose.trackPrimary.primarySince }) (choose_eq v)

/-! ## What a change of the references leaves (R272, R302) -/

/-- Whether no tick is left: TB_XO is lost, and no reference is locked. -/
def Timebase.tickless (v : Timebase) : Bool := v.xoLost && decide (v.choose.ref ≠ .locked)

/-- The timebase after a change, its references chosen anew. -/
def Timebase.settled (v : Timebase) : Timebase :=
  { v with ref := v.choose.ref, source := v.choose.source, primarySince := v.choose.trackPrimary.primarySince, running := v.running && !v.tickless }

theorem settled_running (v : Timebase) : v.settled.running = (v.running && !v.tickless) := rfl

/-- The state whose timebase has chosen its reference, before the tick is lost where none is left. -/
def State.rechosen (s : State) (v : Timebase) : State :=
  let t := { s with tb := v.choose.trackPrimary }
  if v.choose.ref = s.tb.ref then t else t.note 0x0501 { detail := [s.tb.ref.code, v.choose.ref.code] }

theorem setTimebase_eq (s : State) (v : Timebase) :
    s.setTimebase v = if v.tickless && v.running then (s.rechosen v).tickLossAll else s.rechosen v := by
  have href : v.choose.trackPrimary.ref = v.choose.ref := rfl
  have hlost : v.choose.trackPrimary.xoLost = v.xoLost := by rw [trackPrimary_choose]
  have hrunning : v.choose.trackPrimary.running = v.running := by rw [trackPrimary_choose]
  unfold State.setTimebase
  simp only [href, hlost, hrunning]
  rfl

theorem rechosen_keeps (s : State) {v : Timebase} (hnow : v.now = s.tb.now) :
    KeepsTime s (s.rechosen v) ∧ (s.rechosen v).tb = v.choose.trackPrimary ∧ (s.rechosen v).regions = s.regions := by
  have hset : KeepsTime s { s with tb := v.choose.trackPrimary } := keepsTime_setTb s (by rw [trackPrimary_choose]; exact hnow)
  unfold State.rechosen
  dsimp only
  split
  · exact ⟨hset, rfl, rfl⟩
  · exact ⟨hset.trans (keepsTime_note _ _ _), State.note_tb _ _ _, State.note_regions _ _ _⟩

/-- A change of the references settles the timebase and leaves the stores, the clusters, the domains and the time. -/
theorem setTimebase_keeps (s : State) {v : Timebase} (hnow : v.now = s.tb.now) :
    KeepsTime s (s.setTimebase v) ∧ (s.setTimebase v).tb = v.settled := by
  obtain ⟨hkeeps, htb, -⟩ := rechosen_keeps s hnow
  rw [setTimebase_eq, Timebase.settled]
  split
  next hlost =>
    obtain ⟨hloss, hlossTb⟩ := tickLossAll_keeps (s.rechosen v)
    obtain ⟨htickless, -⟩ := Bool.and_eq_true_iff.mp hlost
    refine ⟨hkeeps.trans hloss, ?_⟩
    rw [hlossTb, htb, trackPrimary_choose, htickless, Bool.not_true, Bool.and_false]
  next hkept =>
    have hrunning : (v.running && !v.tickless) = v.running := by
      revert hkept
      cases v.running <;> cases v.tickless <;> simp
    rw [htb, trackPrimary_choose, hrunning]
    exact ⟨hkeeps, rfl⟩

/-- With no tick left, every region that runs is held. -/
theorem setTimebase_holds (s : State) {v : Timebase} (hnow : v.now = s.tb.now) (htickless : v.tickless = true) (hrunning : v.running = true)
    {r : Nat} (hr : r < 16) (hrun : (s.region r).pstate = .run) : ((s.setTimebase v).region r).pstate = .hold := by
  obtain ⟨-, -, hregions⟩ := rechosen_keeps s hnow
  rw [setTimebase_eq, htickless, hrunning]
  exact tickLossAll_holds _ hr (by rwa [region_congr hregions])

/-! ## Reference A: REF_10M and its pulses (R271, Table 9.1) -/

/-- A count that stops at n has reached it with this one. -/
theorem min_succ_beq (n k : Nat) : (min n (k + 1) == n) = decide (n ≤ k + 1) := by
  rw [Bool.eq_iff_iff, beq_iff_eq, decide_eq_true_eq, min_eq_left_iff]

section
variable {s : State} (hrunning : s.tb.running = true)
include hrunning

theorem ref10mWindow_good {ppm : Int} (hppm : ppm.natAbs ≤ 50) : ∃ t : State, exec (.ref10mWindow ppm) s = .next t ∧ KeepsTime s t ∧
    t.tb.tenWindows = min 3 (s.tb.tenWindows + 1) ∧ t.tb.tenQualified = (s.tb.tenQualified || decide (3 ≤ s.tb.tenWindows + 1)) := by
  change ∃ t, execRef10mWindow ppm s = _ ∧ _
  unfold execRef10mWindow
  rw [if_neg (by simp [hrunning]), if_pos hppm]
  obtain ⟨hkeeps, htb⟩ := setTimebase_keeps s (v := { s.tb with
    tenWindows := min 3 (s.tb.tenWindows + 1), tenQualified := s.tb.tenQualified || min 3 (s.tb.tenWindows + 1) == 3 }) rfl
  refine ⟨_, rfl, hkeeps, ?_⟩
  rw [htb, ← min_succ_beq]
  exact ⟨rfl, rfl⟩

theorem ref10mWindow_bad {ppm : Int} (hppm : 50 < ppm.natAbs) : ∃ t : State, exec (.ref10mWindow ppm) s = .next t ∧ KeepsTime s t ∧
    t.tb.tenWindows = 0 ∧ t.tb.tenQualified = false ∧ t.tb.aQualified = false ∧ t.tb.aDiscards = satInc s.tb.aDiscards := by
  change ∃ t, execRef10mWindow ppm s = _ ∧ _
  unfold execRef10mWindow
  rw [if_neg (by simp [hrunning]), if_neg (Nat.not_le.mpr hppm)]
  obtain ⟨hkeeps, htb⟩ := setTimebase_keeps s (v := { s.tb.dropTen with aDiscards := satInc s.tb.aDiscards }) rfl
  refine ⟨_, rfl, hkeeps, ?_⟩
  rw [htb]
  exact ⟨rfl, rfl, rfl, rfl⟩

end

/-- Without REF_10M a panel locked to reference A goes over to B, or to HOLDOVER; one locked to B stays. -/
theorem ref10mEdgeLoss_effect (s : State) : ∃ t : State, exec .ref10mEdgeLoss s = .next t ∧ KeepsTime s t ∧
    t.tb.tenQualified = false ∧ t.tb.aQualified = false ∧
    (s.tb.ref = .locked → s.tb.source = false → (if s.tb.bQualified then t.tb.ref = .locked ∧ t.tb.source = true else t.tb.ref = .holdover)) ∧
    (s.tb.ref = .locked → s.tb.source = true → s.tb.bQualified = true → t.tb.ref = .locked ∧ t.tb.source = true) := by
  change ∃ t, execRef10mEdgeLoss s = _ ∧ _
  obtain ⟨hkeeps, htb⟩ := setTimebase_keeps s (v := s.tb.dropTen) rfl
  refine ⟨_, rfl, hkeeps, ?_⟩
  have href : s.tb.dropTen.settled.ref = s.tb.dropTen.choose.ref := rfl
  have hsource : s.tb.dropTen.settled.source = s.tb.dropTen.choose.source := rfl
  have hb : s.tb.dropTen.qualified true = s.tb.bQualified := rfl
  rw [htb, href, hsource]
  refine ⟨rfl, rfl, fun hlocked ha => ?_, fun hlocked hsrc hqual => ?_⟩
  · have hlost : s.tb.dropTen.qualified s.tb.dropTen.source = false := congrArg s.tb.dropTen.qualified ha
    have hother : s.tb.dropTen.qualified (!s.tb.dropTen.source) = s.tb.bQualified := congrArg (fun b => s.tb.dropTen.qualified (!b)) ha
    split
    next hqual =>
      rw [choose_moves (v := s.tb.dropTen) hlocked hlost (hother.trans hqual)]
      exact ⟨hlocked, congrArg not ha⟩
    next hqual =>
      rw [choose_holdover (v := s.tb.dropTen) hlocked hlost (hother.trans (eq_false_of_ne_true hqual))]
  · rw [choose_stays (v := s.tb.dropTen) hlocked ((congrArg s.tb.dropTen.qualified hsrc).trans (hb.trans hqual))]
    exact ⟨hlocked, hsrc⟩

/-! ### Pulses -/

/-- The epoch offset is written; nothing else of the timebase changes (R276). -/
theorem setOffset_keeps (s : State) (o : Int) : KeepsTime s (s.setOffset o) ∧
    (s.setOffset o).tb = { s.tb with epochOffset := BitVec.ofInt 63 o, epochValid := true } := by
  have hset : KeepsTime s { s with tb := { s.tb with epochOffset := BitVec.ofInt 63 o, epochValid := true } } := keepsTime_setTb s rfl
  unfold State.setOffset
  dsimp only
  split
  · exact ⟨hset.trans (keepsTime_note _ _ _), State.note_tb _ _ _⟩
  · exact ⟨hset, rfl⟩

theorem ppsEpoch_keeps (s : State) (first : Bool) : KeepsTime s (s.ppsEpoch first) ∧
    ∃ o valid written, (s.ppsEpoch first).tb = { s.tb with epochOffset := o, epochValid := valid, todWritten := written } := by
  unfold State.ppsEpoch
  dsimp only
  split
  · obtain ⟨hkeeps, htb⟩ := setOffset_keeps { s with tb := { s.tb with todWritten := false } } ((s.tb.todSet.toNat : Int) * ticksPerS - s.tb.now)
    exact ⟨(keepsTime_setTb s rfl).trans hkeeps, _, _, _, htb⟩
  · split
    · split
      · obtain ⟨hkeeps, htb⟩ := setOffset_keeps s (s.tb.offset - secondError s.tb.now s.tb.offset)
        exact ⟨hkeeps, _, _, s.tb.todWritten, htb⟩
      · exact ⟨.refl s, _, _, _, rfl⟩
    · exact ⟨.refl s, _, _, _, rfl⟩

section
variable {s : State} (hrunning : s.tb.running = true) (frac : Int)
include hrunning

theorem refPpsPulse_unqualified (hten : s.tb.tenQualified = false) : ∃ t : State, exec (.refPpsPulse frac) s = .next t ∧ KeepsTime s t ∧
    t.tb.aDiscards = satInc s.tb.aDiscards ∧ t.tb.ref = s.tb.ref := by
  change ∃ t, execRefPpsPulse frac s = _ ∧ _
  unfold execRefPpsPulse
  dsimp only
  rw [if_neg (by simp [hrunning]), if_pos hten]
  exact ⟨_, rfl, keepsTime_setTb s rfl, rfl, rfl⟩

variable (hten : s.tb.tenQualified = true)
include hten

theorem refPpsPulse_first (hnone : s.tb.ppsExpected = none) : ∃ t : State, exec (.refPpsPulse frac) s = .next t ∧ KeepsTime s t ∧
    t.tb = { s.tb with ppsExpected := some (s.tb.now + ticksPerS) } := by
  change ∃ t, execRefPpsPulse frac s = _ ∧ _
  unfold execRefPpsPulse
  dsimp only
  rw [if_neg (by simp [hrunning]), if_neg (by simp [hten]), hnone]
  exact ⟨_, rfl, keepsTime_setTb s rfl, rfl⟩

variable {e : Nat} (he : s.tb.ppsExpected = some e)
include he

theorem refPpsPulse_accepted (hlate : s.tb.now ≤ e + 100) (hearly : e ≤ s.tb.now + 100) :
    ∃ t : State, exec (.refPpsPulse frac) s = .next t ∧ KeepsTime s t ∧
      t.tb.ppsGood = min 3 (s.tb.ppsGood + 1) ∧ t.tb.ppsBad = 0 ∧ t.tb.ppsExpected = some (s.tb.now + ticksPerS) ∧
      t.tb.aQualified = (s.tb.aQualified || decide (3 ≤ s.tb.ppsGood + 1)) ∧ t.tb.steering = frac := by
  change ∃ t, execRefPpsPulse frac s = _ ∧ _
  unfold execRefPpsPulse
  dsimp only
  rw [if_neg (by simp [hrunning]), if_neg (by simp [hten]), he]
  dsimp only
  rw [if_pos ⟨hlate, hearly⟩]
  obtain ⟨hkeeps, htb⟩ := setTimebase_keeps s (v := { s.tb with
    ppsGood := min 3 (s.tb.ppsGood + 1), ppsBad := 0, ppsExpected := some (s.tb.now + ticksPerS), steering := frac,
    aQualified := s.tb.aQualified || min 3 (s.tb.ppsGood + 1) == 3 }) rfl
  refine ⟨_, rfl, ?_⟩
  generalize s.setTimebase _ = u at hkeeps htb ⊢
  obtain ⟨hepoch, o, valid, written, htb'⟩ := ppsEpoch_keeps u (u.tb.aQualified && !s.tb.aQualified)
  refine ⟨hkeeps.trans hepoch, ?_⟩
  rw [htb', htb, ← min_succ_beq]
  exact ⟨rfl, rfl, rfl, rfl, rfl⟩

theorem refPpsPulse_discarded (hout : e + 100 < s.tb.now ∨ s.tb.now + 100 < e) :
    ∃ t : State, exec (.refPpsPulse frac) s = .next t ∧ KeepsTime s t ∧ t.tb.ppsGood = 0 ∧ t.tb.ppsBad = s.tb.ppsBad + 1 ∧
      t.tb.aDiscards = satInc s.tb.aDiscards ∧ t.tb.aQualified = (s.tb.aQualified && decide (s.tb.ppsBad + 1 < 3)) := by
  change ∃ t, execRefPpsPulse frac s = _ ∧ _
  unfold execRefPpsPulse
  dsimp only
  rw [if_neg (by simp [hrunning]), if_neg (by simp [hten]), he]
  dsimp only
  rw [if_neg (by omega)]
  obtain ⟨hkeeps, htb⟩ := setTimebase_keeps s (v := { s.tb.ppsFail with aDiscards := satInc s.tb.aDiscards }) rfl
  refine ⟨_, rfl, hkeeps, ?_⟩
  rw [htb]
  exact ⟨rfl, rfl, rfl, rfl⟩

end

theorem refPpsMissing_late {s : State} {e : Nat} (he : s.tb.ppsExpected = some e) (hlate : e + 100 < s.tb.now) :
    ∃ t : State, exec .refPpsMissing s = .next t ∧ KeepsTime s t ∧ t.tb.ppsExpected = some (e + ticksPerS) ∧
      t.tb.ppsBad = s.tb.ppsBad + 1 ∧ t.tb.aQualified = (s.tb.aQualified && decide (s.tb.ppsBad + 1 < 3)) := by
  change ∃ t, execRefPpsMissing s = _ ∧ _
  unfold execRefPpsMissing
  rw [he]
  dsimp only
  rw [if_pos hlate]
  obtain ⟨hkeeps, htb⟩ := setTimebase_keeps s (v := { s.tb.ppsFail with ppsExpected := some (e + ticksPerS) }) rfl
  refine ⟨_, rfl, hkeeps, ?_⟩
  rw [htb]
  exact ⟨rfl, rfl, rfl⟩

/-! ## Reference B: PTP samples (R270, R271) -/

/-- Whether a sample lies more than 100 ticks from what the last ones predict. -/
def Timebase.strays (v : Timebase) (offset : Int) : Bool := !v.ptpPast.isEmpty && decide (100 < (offset - Config.ptpPredict v.ptpPast).natAbs)

section
variable {s : State} {offset : Int} {delayNs cls : Nat} (hrunning : s.tb.running = true) (hslave : cls ≠ 248) (hlocal : cls ≠ 255)
include hrunning hslave hlocal

theorem ptpSample_discarded (h : s.tb.strays offset = true ∨ 100000 < delayNs) :
    ∃ t : State, exec (.ptpSample offset delayNs cls) s = .next t ∧ KeepsTime s t ∧
      t.tb.ptpGood = 0 ∧ t.tb.bDiscards = satInc s.tb.bDiscards ∧ t.tb.bQualified = s.tb.bQualified := by
  change ∃ t, execPtpSample offset delayNs cls s = _ ∧ _
  unfold execPtpSample
  dsimp only
  rw [if_neg (by simp [hrunning, hslave, hlocal]), if_pos (by simpa [Timebase.strays] using h)]
  obtain ⟨hkeeps, htb⟩ := setTimebase_keeps s (v := { s.tb with bDiscards := satInc s.tb.bDiscards, ptpGood := 0 }) rfl
  refine ⟨_, rfl, hkeeps, ?_⟩
  rw [htb]
  exact ⟨rfl, rfl, rfl⟩

theorem ptpSample_accepted (hnear : s.tb.strays offset = false) (hdelay : delayNs ≤ 100000) :
    ∃ t : State, exec (.ptpSample offset delayNs cls) s = .next t ∧ KeepsTime s t ∧
      t.tb.ptpGood = min 16 (s.tb.ptpGood + 1) ∧ t.tb.lastPtp = s.tb.now ∧
      t.tb.bQualified = (s.tb.bQualified || decide (16 ≤ s.tb.ptpGood + 1)) := by
  change ∃ t, execPtpSample offset delayNs cls s = _ ∧ _
  have hgood : ¬((!s.tb.ptpPast.isEmpty && decide (100 < (offset - Config.ptpPredict s.tb.ptpPast).natAbs)) || decide (100000 < delayNs)) = true := by
    change ¬(s.tb.strays offset || decide (100000 < delayNs)) = true
    simp [hnear, Nat.not_lt.mpr hdelay]
  unfold execPtpSample
  dsimp only
  rw [if_neg (by simp [hrunning, hslave, hlocal]), if_neg hgood]
  obtain ⟨hkeeps, htb⟩ := setTimebase_keeps s (v := { s.tb with
    ptpGood := min 16 (s.tb.ptpGood + 1), lastPtp := s.tb.now, ptpPast := (s.tb.ptpPast ++ [offset]).drop ((s.tb.ptpPast ++ [offset]).length - 8),
    bQualified := s.tb.bQualified || min 16 (s.tb.ptpGood + 1) == 16 }) rfl
  rw [← min_succ_beq]
  generalize s.setTimebase _ = u at hkeeps htb ⊢
  split
  · obtain ⟨hoffset, htb'⟩ := setOffset_keeps u offset
    refine ⟨_, rfl, hkeeps.trans hoffset, ?_⟩
    rw [htb', htb]
    exact ⟨rfl, rfl, rfl⟩
  · refine ⟨_, rfl, hkeeps, ?_⟩
    rw [htb]
    exact ⟨rfl, rfl, rfl⟩

end

theorem ptpSampleTimeout_late {s : State} (hqual : s.tb.bQualified = true) (hlate : s.tb.lastPtp + 4 * ticksPerS ≤ s.tb.now) :
    ∃ t : State, exec .ptpSampleTimeout s = .next t ∧ KeepsTime s t ∧ t.tb.bQualified = false := by
  change ∃ t, execPtpSampleTimeout s = _ ∧ _
  unfold execPtpSampleTimeout
  rw [if_pos (by simp [hqual, hlate])]
  obtain ⟨hkeeps, htb⟩ := setTimebase_keeps s (v := s.tb.dropPtp) rfl
  refine ⟨_, rfl, hkeeps, ?_⟩
  rw [htb]
  rfl

theorem exec_ptpSampleTimeout_early {s : State} (h : s.tb.bQualified = false ∨ s.tb.now < s.tb.lastPtp + 4 * ticksPerS) :
    exec .ptpSampleTimeout s = .next s := by
  change execPtpSampleTimeout s = _
  exact if_neg (by rcases h with h | h <;> simp [h])

/-! ## The primary reference, and the loss of TB_XO (R273, R302) -/

section
variable {s : State} {since : Nat} (hsince : s.tb.primarySince = some since)
include hsince

theorem exec_referenceRevert (hlocked : s.tb.ref = .locked) (hother : s.tb.source ≠ s.tb.primary) (hrevert : s.tb.revert = true)
    (hlate : since + 60 * ticksPerS ≤ s.tb.now) : exec .referenceRevert s = .next { s with tb := { s.tb with source := s.tb.primary } } := by
  change execReferenceRevert s = _
  unfold execReferenceRevert
  rw [hsince]
  exact if_pos ⟨hlocked, hother, hrevert, hlate⟩

theorem exec_referenceRevert_early (hearly : s.tb.now < since + 60 * ticksPerS) : exec .referenceRevert s = .next s := by
  change execReferenceRevert s = _
  unfold execReferenceRevert
  rw [hsince]
  exact if_neg fun ⟨_, _, _, hlate⟩ => Nat.not_le.mpr hearly hlate

end

/-- The timebase without TB_XO. -/
def Timebase.loseXo (v : Timebase) : Timebase := { v with xoLost := true }

/-- Without TB_XO a locked reference keeps the tick going; in HOLDOVER with neither reference qualified the tick fails everywhere. -/
theorem tbXoEdgeLoss_effect {s : State} (hrunning : s.tb.running = true) : ∃ t : State, exec .tbXoEdgeLoss s = .next t ∧ KeepsTime s t ∧
    t.tb.xoLost = true ∧ (s.tb.ref = .locked → s.tb.qualified s.tb.source = true → t.tb.running = true) ∧
    (s.tb.ref = .holdover → s.tb.aQualified = false → s.tb.bQualified = false →
      t.tb.running = false ∧ ∀ r < 16, (s.region r).pstate = .run → (t.region r).pstate = .hold) := by
  change ∃ t, execTbXoEdgeLoss s = _ ∧ _
  have href : s.tb.loseXo.ref = s.tb.ref := rfl
  have hnow : s.tb.loseXo.now = (s.note 0x1504 { detail := [24] }).tb.now := by
    rw [State.note_tb]
    rfl
  obtain ⟨hkeeps, htb⟩ := setTimebase_keeps (s.note 0x1504 { detail := [24] }) hnow
  refine ⟨(s.note 0x1504 { detail := [24] }).setTimebase s.tb.loseXo, rfl, (keepsTime_note _ _ _).trans hkeeps, ?_⟩
  rw [htb]
  refine ⟨rfl, fun hlocked hsource => ?_, fun hholdover ha hb => ?_⟩
  · have hstays : s.tb.loseXo.tickless = false := by
      rw [Timebase.tickless, choose_stays (v := s.tb.loseXo) hlocked hsource, href, hlocked]
      rfl
    rw [settled_running, hstays, Bool.not_false, Bool.and_true]
    exact hrunning
  · have htickless : s.tb.loseXo.tickless = true := by
      rw [Timebase.tickless, choose_unqualified (v := s.tb.loseXo) hholdover ha hb, href, hholdover]
      rfl
    refine ⟨?_, fun r hr hrun => setTimebase_holds _ hnow htickless hrunning hr (by rwa [State.note_region])⟩
    rw [settled_running, htickless, Bool.not_true, Bool.and_false]

end Sys2Proof.Machine

namespace Sys2Proof.Machine
open Sys2Proof

/-! ## Beacons (R280, R284, R301) -/

theorem domain_congr {s t : State} (h : t.domains = s.domains) (d : Nat) : t.domain d = s.domain d :=
  congrArg (fun m => Tbl.get (fun _ => ({} : Domain)) m d) h

theorem setDomain_onlyDomains (s : State) (d : Nat) (v : Domain) : { s.setDomain d v with domains := s.domains } = s := id rfl

/-- A fold of changes of crossings changes crossings alone. -/
theorem foldl_modXing_eq (s : State) (l : List Nat) (f : Crossing → Crossing) :
    ∃ m, l.foldl (fun (t : State) x => t.modXing x f) s = { s with xings := m } :=
  List.foldlRecOn (motive := fun t : State => ∃ m, t = { s with xings := m }) l _ ⟨s.xings, rfl⟩ fun t ht x _ => by
    obtain ⟨m, rfl⟩ := ht
    exact ⟨_, rfl⟩

/-- The accumulator's integer does not fall: a time not below it is taken, one below it becomes a deficit. -/
theorem correct_ticks_le (M : Nat) (w : BitVec 96) (v : Domain) : v.ticks ≤ (correct M w v).ticks := by
  unfold correct
  dsimp only
  split
  next hraw =>
    unfold rawTime at hraw
    rw [Nat.le_div_iff_mul_le (by decide)]
    exact (Nat.le_add_right _ _).trans hraw
  next => exact le_rfl

/-- Without a deficit the accumulator reads the beacon's time with the tree's delay. -/
theorem correct_ticks {M : Nat} {w : BitVec 96} {v : Domain} (h : (correct M w v).deficit = 0) :
    (correct M w v).ticks = (beaconTime w * 256 + v.treeDelay.toNat) / 256 := by
  unfold correct at h ⊢
  dsimp only at h ⊢
  split
  next => rfl
  next hraw =>
    rw [if_neg hraw] at h
    exact absurd (Nat.sub_eq_zero_iff_le.mp h) hraw

theorem correct_seen (M : Nat) (w : BitVec 96) (v : Domain) : (correct M w v).lastBeacon = some (beaconTime w) ∧ (correct M w v).missed = 0 := by
  unfold correct
  dsimp only
  split <;> exact ⟨rfl, rfl⟩

section
variable {d : Nat} {w : BitVec 96} {s : State} (hd : d < 25) (hclock : (s.domain d).tickLost = false) (hserv : (s.domain d).outOfService = false)
include hd hclock hserv

/-- A valid beacon corrects the domain's accumulator, and counts a large correction. -/
theorem exec_beaconStrobe_valid (hvalid : beaconValid (s.domain d) w = true) : ∃ (t : State) (k : BitVec 32),
    exec (.beaconStrobe d w) s = .next t ∧ NoStore s t ∧ t.clusters = s.clusters ∧ t.tb = s.tb ∧
      t.domains = (s.setDomain d { correct (s.modulus d) w (s.domain d) with large := k }).domains := by
  obtain ⟨m, hretry⟩ : ∃ m, s.retryCrossings d = { s with xings := m } := foldl_modXing_eq s _ _
  change ∃ t k, execBeaconStrobe d w s = .next t ∧ _
  unfold execBeaconStrobe
  dsimp only
  rw [if_neg (by simp [hclock, hserv, Nat.not_le.mpr hd]), if_pos hvalid, hretry]
  split
  · refine ⟨_, satInc (s.domain d).large, rfl, ?_⟩
    simp only [NoStore, State.note_tarn, State.note_mem, State.note_poison, State.note_clusters, State.note_tb, State.note_domains]
    exact ⟨⟨rfl, rfl, rfl⟩, rfl, rfl, rfl⟩
  · exact ⟨_, (correct (s.modulus d) w (s.domain d)).large, rfl, ⟨rfl, rfl, rfl⟩, rfl, rfl, rfl⟩

theorem beaconStrobe_corrects (hvalid : beaconValid (s.domain d) w = true) : ∃ t : State, exec (.beaconStrobe d w) s = .next t ∧ NoStore s t ∧
    t.clusters = s.clusters ∧ t.tb = s.tb ∧ (s.domain d).ticks ≤ (t.domain d).ticks ∧ (t.domain d).lastBeacon = some (beaconTime w) ∧
    (t.domain d).missed = 0 ∧
    ((t.domain d).deficit = 0 → (t.domain d).ticks = (beaconTime w * 256 + (s.domain d).treeDelay.toNat) / 256) ∧
    ∀ e, e ≠ d → t.domain e = s.domain e := by
  obtain ⟨t, k, hexec, hstore, hcl, htb, hdomains⟩ := exec_beaconStrobe_valid hd hclock hserv hvalid
  obtain ⟨hlast, hmissed⟩ := correct_seen (s.modulus d) w (s.domain d)
  refine ⟨t, hexec, hstore, hcl, htb, ?_⟩
  rw [domain_congr hdomains, State.setDomain_domain_same]
  refine ⟨correct_ticks_le _ _ _, hlast, hmissed, correct_ticks, fun e he => ?_⟩
  rw [domain_congr hdomains, State.setDomain_domain_ne _ _ _ _ he]

theorem exec_beaconStrobe_invalid (hinvalid : beaconValid (s.domain d) w = false) : exec (.beaconStrobe d w) s =
    .next (s.setDomain d { s.domain d with ignored := satInc (s.domain d).ignored }) := by
  change execBeaconStrobe d w s = _
  unfold execBeaconStrobe
  dsimp only
  rw [if_neg (by simp [hclock, hserv, Nat.not_le.mpr hd]), if_neg (by simp [hinvalid])]

end

/-! ### Missed beacons (R301) -/

/-- What an order to retire leaves of its region: out of service at once without a partition, else to be retired (R333). -/
theorem orderRetire_region (s : State) (r : Nat) : (s.orderRetire r).region r =
    if (s.region r).part = none then { s.region r with inService := false } else { s.region r with retire := true } := by
  unfold State.orderRetire
  split
  next hnone => rw [if_pos hnone, State.modRegion_eq, State.setRegion_region_same]
  next p hpart =>
    rw [if_neg (by simp [hpart])]
    dsimp only
    split
    · split
      · rw [State.askRecovery_region, State.modRegion_eq, State.setRegion_region_same]
      · rw [State.modRegion_eq, State.setRegion_region_same]
    · rw [State.modRegion_eq, State.setRegion_region_same]

section
variable {d : Nat} {s : State}

theorem beaconMiss_corrected (hd : d < 25) (hclock : (s.domain d).tickLost = false) (hmany : 3 ≤ s.beaconsMissed d) (hnew : (s.domain d).missed < 3) :
    ∃ t : State, exec (.beaconMiss d) s = .next t ∧ NoStore s t ∧ t.domain d = { s.domain d with missed := s.beaconsMissed d } ∧
      t.regions = s.regions := by
  change ∃ t, execBeaconMiss d s = _ ∧ _
  unfold execBeaconMiss
  dsimp only
  rw [if_pos ⟨hd, hclock, hmany, hnew⟩]
  have hset : NoStore s (s.setDomain d { s.domain d with missed := s.beaconsMissed d }) := ⟨rfl, rfl, rfl⟩
  refine ⟨_, rfl, hset.trans (noStore_note _ _ _), ?_, ?_⟩
  · rw [State.note_domain, State.modDomain_eq, State.setDomain_domain_same]
  · rw [State.note_regions, State.modDomain_eq, State.setDomain_regions]

theorem exec_beaconMiss_few (hfew : s.beaconsMissed d < 3) : exec (.beaconMiss d) s = .next s := by
  change execBeaconMiss d s = _
  exact if_neg fun ⟨_, _, hmany, _⟩ => Nat.not_le.mpr hfew hmany

theorem exec_beaconMissRetire_few (hfew : s.beaconsMissed d < 100) : exec (.beaconMissRetire d) s = .next s := by
  change execBeaconMissRetire d s = _
  exact if_neg fun ⟨_, _, hmany, _⟩ => Nat.not_le.mpr hfew hmany

/-- A region's domain is retired; a fixed domain takes the whole panel to Hold. -/
theorem beaconMissRetire_effect (hd : d < 25) (hclock : (s.domain d).tickLost = false) (hmany : 100 ≤ s.beaconsMissed d)
    (hnew : (s.domain d).missed < 100) : ∃ t : State, exec (.beaconMissRetire d) s = .next t ∧ t.tarn = s.tarn ∧ (t.domain d).missed = 100 ∧
      (d < 16 → (if (s.region d).part = none then (t.region d).inService = false else (t.region d).retire = true)) ∧
      (16 ≤ d → ∀ r < 16, (s.region r).pstate = .run → (t.region r).pstate = .hold) := by
  change ∃ t, execBeaconMissRetire d s = _ ∧ _
  unfold execBeaconMissRetire
  rw [if_pos ⟨hd, hclock, hmany, hnew⟩]
  have hmissed : ((s.modDomain d (fun v => { v with missed := 100 })).domain d).missed = 100 := by
    rw [State.modDomain_eq, State.setDomain_domain_same]
  have htarn : (s.modDomain d (fun v => { v with missed := 100 })).tarn = s.tarn := rfl
  have hregion (r : Nat) : (s.modDomain d (fun v => { v with missed := 100 })).region r = s.region r := rfl
  dsimp only
  generalize s.modDomain d (fun v => { v with missed := 100 }) = u at hmissed htarn hregion ⊢
  split
  next hlow =>
    refine ⟨_, rfl, (State.orderRetire_tarn u d).trans htarn, ?_, fun _ => ?_, fun hhigh => absurd hlow (Nat.not_lt.mpr hhigh)⟩
    · rw [State.orderRetire_domain]
      exact hmissed
    · rw [orderRetire_region, hregion]
      split <;> rfl
  next hhigh =>
    refine ⟨_, rfl, (State.deviceFatal_tarn u _ _).trans htarn, ?_, fun hlow => absurd hlow hhigh, fun _ r hr hrun => ?_⟩
    · rw [State.deviceFatal_domain]
      exact hmissed
    · exact deviceFatal_holds u _ _ hr (.inl ((congrArg Region.pstate (hregion r)).trans hrun))

/-! ### The loss of the tick clock (R302) -/

theorem tickLoss_all (hrunning : s.tb.running = true) : ∃ t : State, exec (.tickLoss none) s = .next t ∧ NoStore s t ∧ t.tb.running = false ∧
    ∀ r < 16, (s.region r).pstate = .run → (t.region r).pstate = .hold := by
  have hexec : exec (.tickLoss none) s = .next s.tickLossAll := by
    change Host.Outcome.next (if s.tb.running then s.tickLossAll else s) = _
    rw [if_pos hrunning]
  obtain ⟨⟨hstore, -⟩, htb⟩ := tickLossAll_keeps s
  exact ⟨_, hexec, hstore, congrArg Timebase.running htb, fun r hr hrun => tickLossAll_holds s hr hrun⟩

theorem tickLoss_region (hd : d < 16) (hrun : (s.region d).pstate = .run) : ∃ t : State, exec (.tickLoss (some d)) s = .next t ∧
    { t with domains := s.domains, regions := s.regions } = s ∧ (t.domain d).tickLost = true ∧
    (t.region d).pstate = .hold ∧ (t.region d).causes = [.tick] := by
  have hexec : exec (.tickLoss (some d)) s = .next ((s.setDomain d { s.domain d with
      tickLost := true, hold := decide (16 ≤ d) || (s.domain d).hold }).setRegion d (holdRegion .tick (s.region d))) :=
    congrArg Host.Outcome.next (if_pos hd)
  refine ⟨_, hexec, by simp only [State.setRegion, State.setDomain], ?_⟩
  rw [State.setRegion_domain, State.setDomain_domain_same, State.setRegion_region_same, holdRegion_run .tick hrun]
  exact ⟨rfl, rfl, rfl⟩

theorem tickLoss_fixed (hd : 16 ≤ d) : ∃ t : State, exec (.tickLoss (some d)) s = .next t ∧ { t with domains := s.domains } = s ∧
    (t.domain d).tickLost = true ∧ (t.domain d).hold = true := by
  have hexec : exec (.tickLoss (some d)) s = .next (s.setDomain d { s.domain d with
      tickLost := true, hold := decide (16 ≤ d) || (s.domain d).hold }) := congrArg Host.Outcome.next (if_neg (Nat.not_lt.mpr hd))
  refine ⟨_, hexec, setDomain_onlyDomains s d _, ?_⟩
  rw [State.setDomain_domain_same, decide_eq_true hd]
  exact ⟨rfl, rfl⟩

end

end Sys2Proof.Machine

namespace Sys2Proof.Machine
open Sys2Proof

/-! ## Panel time -/

/-- Settles O20: the two references event by event, then beacons, missed beacons and the loss of the tick clock, each by its lemma. -/
theorem panelTime : Obligations.PanelTime := by
  unfold Obligations.PanelTime
  refine ⟨fun s hrunning => ⟨?_, ?_, ?_, ?_, ?_, ?_, ?_, ⟨?_, ?_⟩, ?_, ?_, ?_⟩, ?_, ?_, ?_⟩
  · exact fun _ hppm => ref10mWindow_good hrunning hppm
  · exact fun _ hppm => ref10mWindow_bad hrunning hppm
  · exact ref10mEdgeLoss_effect s
  · exact fun frac hten => refPpsPulse_unqualified hrunning frac hten
  · exact fun frac hten hnone => refPpsPulse_first hrunning frac hten hnone
  · exact fun frac _ hten he => ⟨fun hlate hearly => refPpsPulse_accepted hrunning frac hten he hlate hearly,
      fun hout => refPpsPulse_discarded hrunning frac hten he hout, fun hlate => refPpsMissing_late he hlate⟩
  · exact fun _ _ _ hslave hlocal => ⟨fun h => ptpSample_discarded hrunning hslave hlocal h,
      fun hnear hdelay => ptpSample_accepted hrunning hslave hlocal hnear hdelay⟩
  · exact fun ⟨hqual, hlate⟩ => ptpSampleTimeout_late hqual hlate
  · exact exec_ptpSampleTimeout_early
  · exact fun _ hsince hlocked hother hrevert => ⟨exec_referenceRevert hsince hlocked hother hrevert, exec_referenceRevert_early hsince⟩
  · exact fun _ => rfl
  · exact tbXoEdgeLoss_effect hrunning
  · exact fun _ _ _ hd hclock hserv => ⟨beaconStrobe_corrects hd hclock hserv, exec_beaconStrobe_invalid hd hclock hserv⟩
  · exact fun _ _ hd hclock => ⟨beaconMiss_corrected hd hclock, exec_beaconMiss_few, beaconMissRetire_effect hd hclock, exec_beaconMissRetire_few⟩
  · exact fun _ => ⟨tickLoss_all, fun _ => tickLoss_region, fun _ => tickLoss_fixed⟩

end Sys2Proof.Machine

namespace Sys2Proof.Machine
open Sys2Proof

/-! ## Steps of a region's frequency (R282, R286, R287) -/

theorem calibrateAround_eq (s : State) (r : Nat) : ∃ m, s.calibrateAround r = { s with xings := m } := foldl_modXing_eq s _ _

theorem startCalibration_calibrating {v : Crossing} (hserv : v.outOfService = false) :
    (startCalibration v).outOfService = false ∧ (startCalibration v).calibrating = true := by
  rw [startCalibration, if_neg (ne_true_of_eq_false hserv)]
  exact ⟨hserv, rfl⟩

/-- Every crossing of a region that is in service is calibrated again. -/
theorem calibrateAround_calibrating (s : State) {r x : Nat} (hx : x ∈ crossingsOf r) (hserv : (s.xing x).outOfService = false) :
    ((s.calibrateAround r).xing x).calibrating = true := by
  refine foldl_reach (I := fun t : State => (t.xing x).outOfService = false) (P := fun t : State => (t.xing x).calibrating = true)
    (fun t y _ ht => ?_) (fun t y _ ht hcal => ?_) (fun t ht => ?_) hx hserv
  · rw [State.modXing_eq, State.setXing_xing]
    split
    next hy => exact hy ▸ (startCalibration_calibrating ht).1
    next => exact ht
  · rw [State.modXing_eq, State.setXing_xing]
    split
    next hy => exact hy ▸ (startCalibration_calibrating ht).2
    next => exact hcal
  · rw [State.modXing_eq, State.setXing_xing_same]
    exact (startCalibration_calibrating ht).2

/-- The modulus of a domain depends on the regions alone. -/
theorem modulus_congr {s t : State} (h : t.regions = s.regions) (d : Nat) : t.modulus d = s.modulus d := by
  unfold State.modulus State.domainHalves
  rw [region_congr h]

/-- A region at the step its change asked for. -/
def State.stepped (s : State) (r : Nat) (c : StepChange) : State :=
  s.setRegion r { s.region r with step := c.target, change := some { c with stage := 2 } }

/-- The same, its phase rescaled to the new modulus, before its crossings are calibrated again. -/
def State.rephased (s : State) (r : Nat) (c : StepChange) : State :=
  (s.stepped r c).setDomain r { s.domain r with phase := (s.domain r).phase * (s.stepped r c).modulus r / max 1 (s.modulus r) }

theorem rephased_keeps (s : State) (r : Nat) (c : StepChange) : { s.rephased r c with regions := s.regions, domains := s.domains } = s ∧
    ((s.rephased r c).region r).step = c.target ∧ ((s.rephased r c).domain r).ticks = (s.domain r).ticks ∧
    ((s.rephased r c).domain r).phase = (s.domain r).phase * (s.rephased r c).modulus r / max 1 (s.modulus r) := by
  have hmodulus : (s.rephased r c).modulus r = (s.stepped r c).modulus r := modulus_congr rfl r
  have honly : { s.rephased r c with regions := s.regions, domains := s.domains } = s := by
    simp only [State.rephased, State.stepped, State.setDomain, State.setRegion]
  rw [hmodulus, State.rephased, State.setDomain_domain_same, State.setDomain_region, State.stepped, State.setRegion_region_same]
  exact ⟨honly, rfl, rfl, rfl⟩

section
variable {r : Nat} {s : State} {c : StepChange} (hchange : (s.region r).change = some c)
include hchange

theorem stepChangePllLocked_effect (hstage : c.stage = 0) (hlate : c.started + 100 ≤ s.now) : ∃ t : State,
    exec (.stepChangePllLocked r) s = .next t ∧ { t with regions := s.regions } = s ∧
    t.region r = { s.region r with change := some { c with stage := 1 } } := by
  have hexec : exec (.stepChangePllLocked r) s = .next (s.setRegion r { s.region r with change := some { c with stage := 1 } }) := by
    change execStepChangePllLocked r s = _
    unfold execStepChangePllLocked
    rw [hchange]
    exact if_pos ⟨hstage, hlate⟩
  exact ⟨_, hexec, onlyRegions_setRegion s r _, State.setRegion_region_same _ _ _⟩

theorem exec_stepChangePllLocked_early (hearly : s.now < c.started + 100) : exec (.stepChangePllLocked r) s = .next s := by
  change execStepChangePllLocked r s = _
  unfold execStepChangePllLocked
  rw [hchange]
  exact if_neg fun ⟨_, hlate⟩ => Nat.not_le.mpr hearly hlate

theorem exec_clockSwitch (hstage : c.stage = 1) (hlate : c.started + max 105 (s.riseTicks r (s.region r).step c.target) ≤ s.now) :
    exec (.clockSwitch r) s = .next ((s.rephased r c).calibrateAround r) := by
  change execClockSwitch r s = _
  unfold execClockSwitch
  rw [hchange]
  exact if_pos ⟨hstage, hlate⟩

/-- The clock switches: the phase is rescaled to the new modulus, and the region's crossings are calibrated again. -/
theorem clockSwitch_effect (hstage : c.stage = 1) (hlate : c.started + max 105 (s.riseTicks r (s.region r).step c.target) ≤ s.now) :
    ∃ t : State, exec (.clockSwitch r) s = .next t ∧ { t with regions := s.regions, domains := s.domains, xings := s.xings } = s ∧
      (t.region r).step = c.target ∧ (t.domain r).ticks = (s.domain r).ticks ∧
      (t.domain r).phase = (s.domain r).phase * t.modulus r / max 1 (s.modulus r) ∧
      ∀ x ∈ crossingsOf r, (s.xing x).outOfService = false → (t.xing x).calibrating = true := by
  obtain ⟨honly, hstep, hticks, hphase⟩ := rephased_keeps s r c
  obtain ⟨m, hm⟩ := calibrateAround_eq (s.rephased r c) r
  have hregions : ((s.rephased r c).calibrateAround r).regions = (s.rephased r c).regions := by rw [hm]
  have hdomains : ((s.rephased r c).calibrateAround r).domains = (s.rephased r c).domains := by rw [hm]
  refine ⟨_, exec_clockSwitch hchange hstage hlate, ?_, ?_, ?_, ?_, fun x hx hserv => calibrateAround_calibrating _ hx hserv⟩
  · rw [hm]
    exact honly
  · rw [region_congr hregions, hstep]
  · rw [domain_congr hdomains, hticks]
  · rw [domain_congr hdomains, hphase, modulus_congr hregions]

theorem exec_clockSwitch_early (hearly : s.now < c.started + max 105 (s.riseTicks r (s.region r).step c.target)) :
    exec (.clockSwitch r) s = .next s := by
  change execClockSwitch r s = _
  unfold execClockSwitch
  rw [hchange]
  exact if_neg fun ⟨_, hlate⟩ => Nat.not_le.mpr hearly hlate

end

/-! ## Calibration of a crossing (R291 to R293) -/

/-- A fold of `settleChange` changes regions alone. -/
theorem settleChanges_eq (s : State) (rs : List Nat) : ∃ m, rs.foldl (fun (t : State) r => t.settleChange r) s = { s with regions := m } :=
  List.foldlRecOn (motive := fun t : State => ∃ m, t = { s with regions := m }) rs _ ⟨s.regions, rfl⟩ fun t ht r _ => by
    obtain ⟨m, rfl⟩ := ht
    unfold State.settleChange
    split
    · split
      · exact ⟨_, rfl⟩
      · exact ⟨m, rfl⟩
    · exact ⟨m, rfl⟩

theorem releaseHolds_xings (s : State) (r n : Nat) : (s.releaseHolds r n).xings = s.xings := by simp [State.releaseHolds]

theorem fixPerim_xings (s : State) (r die : Nat) : (s.fixPerim r die).xings = s.xings := by
  unfold State.fixPerim
  dsimp only
  split
  · rw [State.note_xings]
  · rfl

theorem setPortBit_xings (s : State) (r d port : Nat) (on : Bool) : (s.setPortBit r d port on).xings = s.xings := by
  unfold State.setPortBit
  dsimp only
  rw [foldl_xings _ (fun t die => fixPerim_xings t d die), foldl_xings _ (fun t die => fixPerim_xings t r die)]
  rfl

theorem condemnSite_xings (s : State) (r k : Nat) : (s.condemnSite r k).xings = s.xings := by
  unfold State.condemnSite
  dsimp only
  split
  · rw [foldl_xings _ fun t l => ?_]
    · rfl
    · split
      · rfl
      · rw [State.failCluster_xings]
  · split <;> rfl

theorem perimeterLost_xings (s : State) (r : Nat) : (s.perimeterLost r).xings = s.xings := by
  unfold State.perimeterLost
  split
  · split <;> rfl
  · rfl

/-- What follows the loss of a link touches no crossing. -/
theorem exhaustLink_xings (s : State) (r n : Nat) : (s.exhaustLink r n).xings = s.xings := by
  have hlost : (s.linkLost r n).xings = s.xings := by
    unfold State.linkLost State.settleLink
    rw [State.note_xings, releaseHolds_xings]
    rfl
  rw [exhaustLink_eq, ← hlost]
  split
  · exact condemnSite_xings _ _ _
  · exact setPortBit_xings _ _ _ _ _
  · exact perimeterLost_xings _ _
  · rfl

/-- A crossing that is lost is out of service and calibrated no more, whatever else follows (R293). -/
theorem loseCrossing_keeps (s : State) (x : Nat) : (s.loseCrossing x).tarn = s.tarn ∧
    (s.loseCrossing x).xings = (s.setXing x { s.xing x with outOfService := true, calibrating := false }).xings := by
  have hlink (t : State) (r n : Nat) : (t.exhaustLink r n).tarn = t.tarn ∧ (t.exhaustLink r n).xings = t.xings :=
    ⟨(exhaustLink_keeps t r n).1, exhaustLink_xings t r n⟩
  unfold State.loseCrossing
  dsimp only
  split
  · exact hlink _ _ _
  · split
    · exact ⟨State.orderRetire_tarn _ _, State.orderRetire_xings _ _⟩
    · exact hlink _ _ _

/-- A calibration that measured a latency of at most 12 ends with its entry stored. -/
theorem endCalibration_good {s : State} {x l : Nat} (hbest : (s.xing x).best = some l) (hlow : l ≤ 12) : ∃ v,
    s.endCalibration x = s.setXing x v ∧ v.latency = l ∧ v.calibrating = false ∧ v.failures = 0 := by
  unfold State.endCalibration
  simp only [hbest, decide_eq_true hlow, if_true, Option.getD_some]
  exact ⟨_, rfl, rfl, rfl, rfl⟩

/-- Whether the last measurement of a crossing has failed: too few markers, or too long a latency (R293). -/
def Crossing.Misses (v : Crossing) : Prop := v.best = none ∨ ∃ l, v.best = some l ∧ 12 < l

/-- One that failed is tried once more, and the second time the crossing is lost. -/
theorem endCalibration_missed {s : State} {x : Nat} (hmiss : (s.xing x).Misses) : s.endCalibration x =
    let v := { s.xing x with attempts := min 15 ((s.xing x).attempts + 1) }
    if (s.xing x).failures = 0 then s.setXing x { v with failures := 1, best := none, retryAtBeacon := true }
    else (s.setXing x { v with failures := 2 }).loseCrossing x := by
  unfold State.endCalibration
  rcases hmiss with hnone | ⟨l, hbest, hlong⟩
  · simp only [hnone, Bool.false_eq_true, if_false]
  · simp only [hbest, decide_eq_false (Nat.not_le.mpr hlong), Bool.false_eq_true, if_false]

section
variable {s : State} {x : Nat} (hpresent : crossingPresent x = true) (hcal : (s.xing x).calibrating = true)
  (hretry : (s.xing x).retryAtBeacon = false)
include hpresent hcal hretry

theorem measuring_of : s.measuring x = true := by
  rw [State.measuring, hpresent, hcal, hretry]
  rfl

theorem crossingCalibration_effect (ms : List Nat) : ∃ t : State, exec (.crossingCalibration x ms) s = .next t ∧ { t with xings := s.xings } = s ∧
    (t.xing x).best = if 24 ≤ ms.length then some (max 3 (ms.foldl max 0 + 2)) else none := by
  have hexec : exec (.crossingCalibration x ms) s = .next (s.setXing x (measure ms (s.xing x))) := if_pos (measuring_of hpresent hcal hretry)
  refine ⟨_, hexec, rfl, ?_⟩
  rw [State.setXing_xing_same, measure]
  split <;> rfl

/-- The end of a calibration is that of the crossing; besides it only regions change. -/
theorem exec_crossingCalibrationEnd : ∃ m, exec (.crossingCalibrationEnd x) s = .next { s.endCalibration x with regions := m } := by
  obtain ⟨m, hm⟩ := settleChanges_eq (s.endCalibration x) (List.range 16)
  change ∃ m, execCrossingCalibrationEnd x s = _
  unfold execCrossingCalibrationEnd
  rw [if_pos (measuring_of hpresent hcal hretry)]
  exact ⟨m, congrArg _ hm⟩

/-- A calibration with a latency of at most 12 stores its entry. -/
theorem crossingCalibrationEnd_good {l : Nat} (hbest : (s.xing x).best = some l) (hlow : l ≤ 12) : ∃ t : State,
    exec (.crossingCalibrationEnd x) s = .next t ∧ { t with xings := s.xings, regions := s.regions } = s ∧
    (t.xing x).latency = l ∧ (t.xing x).calibrating = false ∧ (t.xing x).failures = 0 := by
  obtain ⟨m, hexec⟩ := exec_crossingCalibrationEnd hpresent hcal hretry
  obtain ⟨v, hend, hv⟩ := endCalibration_good hbest hlow
  have hxing : State.xing { s.setXing x v with regions := m } x = v := State.setXing_xing_same s x v
  rw [hend] at hexec
  refine ⟨_, hexec, rfl, ?_⟩
  rw [hxing]
  exact hv

/-- The first calibration that fails is tried again at the next beacon, under the latency there was. -/
theorem crossingCalibrationEnd_retried (hmiss : (s.xing x).Misses) (hfirst : (s.xing x).failures = 0) : ∃ t : State,
    exec (.crossingCalibrationEnd x) s = .next t ∧ { t with xings := s.xings, regions := s.regions } = s ∧
    (t.xing x).failures = 1 ∧ (t.xing x).retryAtBeacon = true ∧ (t.xing x).latency = (s.xing x).latency := by
  obtain ⟨m, hexec⟩ := exec_crossingCalibrationEnd hpresent hcal hretry
  have hxing (v : Crossing) : State.xing { s.setXing x v with regions := m } x = v := State.setXing_xing_same s x v
  rw [endCalibration_missed hmiss, if_pos hfirst] at hexec
  refine ⟨_, hexec, rfl, ?_⟩
  rw [hxing]
  exact ⟨rfl, rfl, rfl⟩

/-- The second takes the crossing out of service. -/
theorem crossingCalibrationEnd_lost (hmiss : (s.xing x).Misses) (hagain : (s.xing x).failures ≠ 0) : ∃ t : State,
    exec (.crossingCalibrationEnd x) s = .next t ∧ t.tarn = s.tarn ∧ (t.xing x).outOfService = true ∧ (t.xing x).calibrating = false := by
  obtain ⟨m, hexec⟩ := exec_crossingCalibrationEnd hpresent hcal hretry
  rw [endCalibration_missed hmiss, if_neg hagain] at hexec
  generalize hw : s.setXing x _ = w at hexec
  obtain ⟨htarn, hxings⟩ := loseCrossing_keeps w x
  have hxing : State.xing { w.loseCrossing x with regions := m } x = { w.xing x with outOfService := true, calibrating := false } :=
    (congrArg (fun g => Tbl.get (fun _ => ({} : Crossing)) g x) hxings).trans (State.setXing_xing_same w x _)
  have hsame : w.tarn = s.tarn := hw ▸ rfl
  refine ⟨_, hexec, htarn.trans hsame, ?_⟩
  rw [hxing]
  exact ⟨rfl, rfl⟩

end

/-! ## Slips (R296, R297) -/

section
variable {s : State} {x : Nat}

theorem exec_crossingWordRelease_early : exec (.crossingWordRelease x 0) s = .next s := rfl

theorem crossingWordRelease_late {late : Nat} (hpresent : crossingPresent x = true) (hlate : late ≠ 0) : ∃ t : State,
    exec (.crossingWordRelease x late) s = .next t ∧ NoStore s t ∧ (t.xing x).slips = min 0xFFFFFFFF ((s.xing x).slips + 1) ∧
    (t.xing x).maxSlip = min 255 (max (s.xing x).maxSlip late) ∧ (t.xing x).logged = some (s.now / 1024) := by
  have hset : NoStore s (s.setXing x (slipped s.now late (s.xing x))) := ⟨rfl, rfl, rfl⟩
  change ∃ t, execCrossingWordRelease x late s = _ ∧ _
  unfold execCrossingWordRelease
  rw [if_neg (by simp [hlate, hpresent])]
  dsimp only
  split
  · refine ⟨_, rfl, hset, ?_⟩
    rw [State.modXing_eq, State.setXing_xing_same]
    exact ⟨rfl, rfl, rfl⟩
  · refine ⟨_, rfl, hset.trans (noStore_note _ _ _), ?_⟩
    rw [State.note_xing, State.modXing_eq, State.setXing_xing_same]
    exact ⟨rfl, rfl, rfl⟩

end

/-! ## Droop (R288, R289) -/

section
variable {d : Nat} {s : State}

theorem exec_droopStretch (hd : d < 24) (deep : Bool) : exec (.droopStretch d deep) s = .next (s.setDomain d (stretch deep (s.domain d))) :=
  if_neg (Nat.not_le.mpr hd)

theorem droopStretch_stretched (hd : d < 24) (deep : Bool) (hfew : (s.domain d).burst < 8) : ∃ t : State,
    exec (.droopStretch d deep) s = .next t ∧ { t with domains := s.domains } = s ∧
    (t.domain d).burst = (s.domain d).burst + 1 ∧ (t.domain d).pend = (s.domain d).pend + (if deep then 2 else 1) ∧
    (t.domain d).ticks = (s.domain d).ticks := by
  refine ⟨_, exec_droopStretch hd deep, setDomain_onlyDomains s d _, ?_⟩
  rw [State.setDomain_domain_same, stretch, if_neg (Nat.not_le.mpr hfew)]
  cases deep <;> exact ⟨rfl, rfl, rfl⟩

/-- The ninth stretch in a row gates the clock. -/
theorem droopStretch_gated (hd : d < 24) (deep : Bool) (hmany : 8 ≤ (s.domain d).burst) (hopen : (s.domain d).gateLeft = 0) : ∃ t : State,
    exec (.droopStretch d deep) s = .next t ∧ { t with domains := s.domains } = s ∧
    t.domain d = { s.domain d with gateLeft := 64, droopGates := satInc (s.domain d).droopGates } := by
  refine ⟨_, exec_droopStretch hd deep, setDomain_onlyDomains s d _, ?_⟩
  rw [State.setDomain_domain_same, stretch, if_pos hmany, if_pos hopen]

/-- The error of a third droop Hold is contained, or no more than logged; it leaves the regions as they were. -/
theorem raise_thirdDroop_region (s : State) (src : Source) (r : Nat) : (s.raise 0x2509 src).region r = s.region r := by
  cases hctx : src.ctx with
  | none =>
    have hnote : s.raise 0x2509 src = s.note 0x2509 src := by simp [State.raise, codeClass, hctx]
    rw [hnote, State.note_region]
  | some x =>
    have hcontained : s.raise 0x2509 src = s.contained x 0x2509 src := by simp [State.raise, codeClass, hctx]
    rw [hcontained, State.contained_region]

/-- The third droop Hold marks its region's step to be lowered, whatever becomes of the running step. -/
theorem thirdDroop_keeps (s : State) (r : Nat) : (s.thirdDroop r).tarn = s.tarn ∧ (s.thirdDroop r).domains = s.domains ∧
    (s.thirdDroop r).region r = { s.region r with droopLower := true } := by
  have hset : (s.setRegion r { s.region r with droopLower := true }).region r = _ := State.setRegion_region_same _ _ _
  unfold State.thirdDroop
  dsimp only
  split
  · exact ⟨State.raise_tarn _ _ _, State.raise_domains _ _ _, (raise_thirdDroop_region _ _ _).trans hset⟩
  · exact ⟨State.note_tarn _ _ _, State.note_domains _ _ _, (State.note_region _ _ _ _).trans hset⟩

/-- The droop Holds of a region within the last millisecond. -/
def State.recentDroops (s : State) (d : Nat) : List Nat := (s.region d).droopHolds.filter (fun k => decide (s.now < k + ticksPerMs))

/-- A region held for droop that has not cleared in 64 gated periods, its gate open again and the Hold reported. -/
def State.droopHeld (s : State) (d : Nat) : State :=
  (((s.modDomain d (fun v => { v with gateLeft := 0, burst := 0, gatedPeriods := satAdd v.gatedPeriods 64 })).modRegion d (holdRegion .droop)).modRegion d
    (fun v => { v with droopHolds := s.recentDroops d ++ [s.now] })).note 0x1508 { region := d, part := ((s.region d).part).getD 31, detail := [d] }

theorem exec_droopGateExpiry (hgated : (s.domain d).gateLeft ≠ 0) (hd : d < 16) : exec (.droopGateExpiry d) s =
    .next (if 3 ≤ (s.recentDroops d ++ [s.now]).length then (s.droopHeld d).thirdDroop d else s.droopHeld d) := by
  change execDroopGateExpiry d s = _
  unfold execDroopGateExpiry
  rw [if_neg (by simp [hgated, Nat.not_le.mpr (hd.trans (by decide : 16 < 24))])]
  exact if_pos hd

theorem droopGateExpiry_effect (hgated : (s.domain d).gateLeft ≠ 0) (hd : d < 16) (hrun : (s.region d).pstate = .run) : ∃ t : State,
    exec (.droopGateExpiry d) s = .next t ∧ t.tarn = s.tarn ∧ (t.domain d).gateLeft = 0 ∧ (t.region d).pstate = .hold ∧
    (t.region d).causes = [.droop] ∧ (2 ≤ (s.recentDroops d).length → (t.region d).droopLower = true) := by
  have htarn : (s.droopHeld d).tarn = s.tarn := by
    rw [State.droopHeld, State.note_tarn, State.modRegion_eq, State.setRegion_tarn, State.modRegion_eq, State.setRegion_tarn, State.modDomain_eq,
      State.setDomain_tarn]
  have hdomain : ((s.droopHeld d).domain d).gateLeft = 0 := by
    rw [State.droopHeld, State.note_domain, State.modRegion_eq, State.setRegion_domain, State.modRegion_eq, State.setRegion_domain,
      State.modDomain_eq, State.setDomain_domain_same]
  have hregion : (s.droopHeld d).region d = { s.region d with pstate := .hold, causes := [.droop], droopHolds := s.recentDroops d ++ [s.now] } := by
    rw [State.droopHeld, State.note_region, State.modRegion_eq, State.setRegion_region_same, State.modRegion_eq, State.setRegion_region_same,
      State.modDomain_eq, State.setDomain_region, holdRegion_run .droop hrun]
  refine ⟨_, exec_droopGateExpiry hgated hd, ?_⟩
  split
  · obtain ⟨htarn', hdomains, hregion'⟩ := thirdDroop_keeps (s.droopHeld d) d
    rw [domain_congr hdomains, hregion', hregion]
    exact ⟨htarn'.trans htarn, hdomain, rfl, rfl, fun _ => rfl⟩
  next hfew =>
    rw [hregion]
    refine ⟨htarn, hdomain, rfl, rfl, fun htwo => absurd ?_ hfew⟩
    rw [List.length_append, List.length_singleton]
    omega

theorem droopHoldExit_runs (hd : d < 16) (hhold : (s.region d).pstate = .hold) (hcauses : (s.region d).causes = [.droop]) : ∃ t : State,
    exec (.droopHoldExit d) s = .next t ∧ { t with regions := s.regions } = s ∧ t.region d = { s.region d with pstate := .run, causes := [] } := by
  have hrelease : releaseRegion .droop (s.region d) = { s.region d with pstate := .run, causes := [] } := by
    simp [releaseRegion, hhold, hcauses]
  have hexec : exec (.droopHoldExit d) s = .next (s.setRegion d (releaseRegion .droop (s.region d))) := if_pos hd
  refine ⟨_, hexec, onlyRegions_setRegion s d _, ?_⟩
  rw [State.setRegion_region_same, hrelease]

end

end Sys2Proof.Machine

namespace Sys2Proof.Machine
open Sys2Proof

/-! ## Frequency steps, crossings and droop -/

/-- Settles O21: a step change, then a crossing's calibration and slips, then a domain's droop, each by its lemma. -/
theorem stepsCrossingsDroop : Obligations.StepsCrossingsDroop := by
  unfold Obligations.StepsCrossingsDroop
  refine ⟨fun r s c hchange => ⟨?_, ?_, ?_, ?_⟩, fun x s hpresent hcal hretry => ⟨?_, ?_, fun hmiss => ⟨?_, ?_⟩⟩,
    fun x late s hpresent => ⟨?_, ?_⟩, fun d deep s hd => ⟨?_, ?_, ?_, ?_⟩⟩
  · exact stepChangePllLocked_effect hchange
  · exact fun _ => exec_stepChangePllLocked_early hchange
  · exact clockSwitch_effect hchange
  · exact fun _ => exec_clockSwitch_early hchange
  · exact crossingCalibration_effect hpresent hcal hretry
  · exact fun _ => crossingCalibrationEnd_good hpresent hcal hretry
  · exact crossingCalibrationEnd_retried hpresent hcal hretry hmiss
  · exact crossingCalibrationEnd_lost hpresent hcal hretry hmiss
  · exact exec_crossingWordRelease_early
  · exact crossingWordRelease_late hpresent
  · exact droopStretch_stretched hd deep
  · exact droopStretch_gated hd deep
  · exact droopGateExpiry_effect
  · exact droopHoldExit_runs

end Sys2Proof.Machine

namespace Sys2Proof.Machine
open Sys2Proof

/-! ## Descriptors in progress (R390, R391) -/

section
variable {s : State} {q k : Nat}

/-- A change of descriptor k that keeps its ring index. -/
theorem modProg_prog {f : Prog → Prog} (hf : ∀ o, (f o).k = o.k) {e : Prog} (he : s.prog q k = some e) : (s.modProg q k f).prog q k = some (f e) := by
  have hk : e.k = k := by simpa using List.find?_some he
  have hkeys : (fun e : Prog => e.k == k) ∘ (fun e => if e.k = k then f e else e) = fun e => e.k == k := by
    funext o
    dsimp only [Function.comp]
    split
    · rw [hf]
    · rfl
  unfold State.modProg State.prog
  rw [State.modQp_eq, State.setQp_qp_same, List.find?_map, hkeys, show (s.qp q).prog.find? (fun e => e.k == k) = some e from he,
    Option.map_some, if_pos hk]

theorem modProg_others (f : Prog → Prog) {j : Nat} (hj : j ≠ q) : (s.modProg q k f).qp j = s.qp j := by
  unfold State.modProg
  rw [State.modQp_eq, State.setQp_qp_ne _ _ _ _ hj]

/-- A descriptor whose effect has not begun is in progress. -/
theorem prog_of_startedDesc {ty : Nat} {d : Desc} (h : s.startedDesc q k ty = some d) :
    ∃ e, s.prog q k = some e ∧ e.desc = d ∧ e.started = true ∧ e.running = false ∧ dType d = ty := by
  unfold State.startedDesc at h
  split at h
  next e he =>
    obtain ⟨hcond, hd⟩ : (e.started && !e.running && dType e.desc == ty) = true ∧ e.desc = d := by simpa using h
    simp only [Bool.and_eq_true, Bool.not_eq_true', beq_iff_eq] at hcond
    obtain ⟨⟨hstarted, hrunning⟩, hty⟩ := hcond
    exact ⟨e, he, hd, hstarted, hrunning, hd ▸ hty⟩
  next => exact absurd h (by simp)

/-- A completion for the host, and its interrupt, are no more than sent. -/
theorem complete_host (status code result detail : Nat) (hhost : bitOf (s.qp q).cfg 32 = false) :
    { s.complete q k status code result detail with qps := s.qps, out := s.out } = s := by
  have hput (t : State) (e : Completion) : t.putCompletion (s.qp q) e = t.emit (.completion (s.qp q).cqTail e) := by
    unfold State.putCompletion
    rw [hhost]
    rfl
  have hirq : qpInterrupt (s.qp q) = .interrupt (s.qp q).fn (bitsOf (s.qp q).cfg 30 20) := by
    unfold qpInterrupt
    rw [hhost]
    rfl
  unfold State.complete
  split
  · rfl
  · dsimp only
    rw [hput, hirq]
    split <;> rfl

theorem part_of_kept {t : State} (h : { t with qps := s.qps, out := s.out } = s) (p : Nat) : t.part p = s.part p := by
  have hpart := congrArg (State.part · p) h
  exact hpart

/-- A completion sent from a state that has the same queue pairs and time. -/
theorem Completes.of_same {u t : State} {status code result : Nat} (hqps : ∀ j, u.qp j = s.qp j) (hnow : u.now = s.now)
    (h : Completes u t q k status code result) : Completes s t q k status code result := by
  have hprog : u.prog q k = s.prog q k := by rw [State.prog, hqps, State.prog]
  unfold Completes at h ⊢
  simpa only [hqps, hnow, hprog] using h

end

/-! ## Fetch and start (R390, R393, R395) -/

section
variable {q : Nat} {s : State}

/-- What a fetch from queue pair q reads: host memory, or for a core-side queue pair its ring in HBM. -/
def State.fetched (s : State) (q : Nat) (d : Desc) : Desc :=
  if bitOf (s.qp q).cfg 32 then BitVec.ofNat 512 (s.readNat ((s.qp q).sqBase.toNat + 64 * (s.qp q).fetch) 64) else d

theorem descriptorFetch_fetches (d : Desc) (hmay : s.mayFetch q = true) :
    ∃ t : State, exec (.descriptorFetch q d) s = .next t ∧ { t with qps := s.qps, order := s.order } = s ∧
      (∀ j, j ≠ q → t.qp j = s.qp j) ∧ (t.qp q).fetch = ((s.qp q).fetch + 1) % (s.qp q).sqSize ∧
      (t.qp q).prog = (s.qp q).prog ++ [{ k := (s.qp q).fetch, desc := s.fetched q d, order := s.order }] := by
  refine ⟨_, if_pos hmay, rfl, fun j hj => State.setQp_qp_ne _ _ _ _ hj, ?_⟩
  rw [State.setQp_qp_same]
  exact ⟨rfl, rfl⟩

theorem exec_descriptorFetch_idle (d : Desc) (hmay : s.mayFetch q = false) : exec (.descriptorFetch q d) s = .next s := if_neg (by simp [hmay])

section
variable {k : Nat} {e : Prog} (he : s.prog q k = some e)
include he

theorem exec_descriptorStart : exec (.descriptorStart q k) s =
    if e.started || !s.mayStart q e then .next s
    else match headerCode (s.qp q).ctx e.desc with
      | some code => .next (s.rejectDesc q k code 0)
      | none => .next (s.modProg q k (fun e => { e with started := true })) := by
  change execDescriptorStart q k s = _
  unfold execDescriptorStart
  rw [he] <;> rfl

theorem exec_descriptorStart_idle (h : e.started = true ∨ s.mayStart q e = false) : exec (.descriptorStart q k) s = .next s := by
  rw [exec_descriptorStart he]
  exact if_pos (by rcases h with h | h <;> simp [h])

section
variable (hfresh : e.started = false) (hmay : s.mayStart q e = true)
include hfresh hmay

theorem descriptorStart_starts (hok : headerCode (s.qp q).ctx e.desc = none) :
    ∃ t : State, exec (.descriptorStart q k) s = .next t ∧ { t with qps := s.qps } = s ∧
      (∀ j, j ≠ q → t.qp j = s.qp j) ∧ t.prog q k = some { e with started := true } := by
  refine ⟨s.modProg q k (fun e => { e with started := true }), ?_, rfl, fun j hj => modProg_others _ hj, modProg_prog (f := fun e => { e with started := true }) (fun _ => rfl) he⟩
  rw [exec_descriptorStart he, if_neg (by simp [hfresh, hmay]), hok]

theorem descriptorStart_rejected {code : Nat} (hbad : headerCode (s.qp q).ctx e.desc = some code) :
    Ends s (.descriptorStart q k) q k stRejected code 0 := by
  refine ends_of_rejectDesc ?_
  rw [exec_descriptorStart he, if_neg (by simp [hfresh, hmay]), hbad]

end

end

end

/-! ## NOP, JOURNAL_MARK and FENCE (R308, R315, R395, R407, R428) -/

section
variable {q k : Nat} {s : State}

theorem exec_descriptorNop {d : Desc} (h : s.startedDesc q k 0 = some d) : exec (.descriptorNop q k) s = .next (s.complete q k stOk 0 0 0) := by
  change execDescriptorNop q k s = _
  unfold execDescriptorNop
  rw [h]

theorem exec_descriptorNop_idle (h : s.startedDesc q k 0 = none) : exec (.descriptorNop q k) s = .next s := by
  change execDescriptorNop q k s = _
  unfold execDescriptorNop
  rw [h]

/-- A record that fits is the newest of the journal. -/
theorem mem_record {p x units : Nat} (body : JRec) (hfits : s.recordFits p units = true) :
    ({ ctx := x, seq := s.recordSeq p, tick := s.now, units := units, body := body } : JEntry) ∈ ((s.record p x units body).part p).journal := by
  have hroom := Nat.not_lt.mpr (of_decide_eq_true hfits)
  have hjournal (t : State) (c : Nat) (src : Source) : ((t.note c src).part p).journal = (t.part p).journal := by
    obtain ⟨-, hpart, -, -⟩ := onlyReports_note t c src
    have hkept := congrArg Part.journal (hpart p)
    exact hkept
  have hlow (t : State) : ((t.modPart p (fun v => { v with journalLow := true })).part p).journal = (t.part p).journal := by
    rw [State.modPart_eq, State.setPart_part_same]
  unfold State.record
  dsimp only
  rw [if_neg hroom]
  generalize hu : s.setPart p _ = u
  have hmem : ({ ctx := x, seq := s.recordSeq p, tick := s.now, units := units, body := body } : JEntry) ∈ (u.part p).journal := by
    rw [← hu, State.setPart_part_same]
    exact List.mem_append_right _ (List.mem_singleton_self _)
  split
  · rw [hjournal, hlow]
    exact hmem
  · exact hmem

/-- The MARK record of a JOURNAL_MARK of queue pair q is written. -/
def State.marked (s : State) (q : Nat) (d : Desc) : State :=
  s.record (s.ctx (s.qp q).ctx).part (s.qp q).ctx 0 (.mark (d.extractLsb' 64 64))

theorem marked_completes (d : Desc) (status code : Nat) : ((s.marked q d).complete q k status code 0 0).tarn = s.tarn ∧
    Completes s ((s.marked q d).complete q k status code 0 0) q k status code 0 :=
  ⟨(State.complete_tarn _ _ _ _ _ _ _).trans (State.record_tarn _ _ _ _ _),
    .of_same (fun _ => State.record_qp _ _ _ _ _ _) (State.record_now _ _ _ _ _) (complete_completes _ _ _ _ _ _ _)⟩

section
variable {d : Desc} (h : s.startedDesc q k 6 = some d)
include h

theorem exec_journalMark : exec (.journalMark q k) s = if s.recordFits (s.ctx (s.qp q).ctx).part 0 then
    .next ((s.marked q d).complete q k stOk 0 0 0) else .next ((s.marked q d).complete q k stJournal 0x0803 0 0) := by
  change execJournalMark q k s = _
  unfold execJournalMark
  rw [h]
  rfl

theorem journalMark_marks (hfits : s.recordFits (s.ctx (s.qp q).ctx).part 0 = true) :
    ∃ t : State, exec (.journalMark q k) s = .next t ∧ t.tarn = s.tarn ∧ Completes s t q k stOk 0 0 ∧
      (bitOf (s.qp q).cfg 32 = false → ∃ e ∈ (t.part (s.ctx (s.qp q).ctx).part).journal, e.body = .mark (d.extractLsb' 64 64) ∧
        e.ctx = (s.qp q).ctx ∧ e.seq = s.recordSeq (s.ctx (s.qp q).ctx).part ∧ e.tick = s.now) := by
  obtain ⟨htarn, hdone⟩ := marked_completes (s := s) (q := q) (k := k) d stOk 0
  refine ⟨_, (exec_journalMark h).trans (if_pos hfits), htarn, hdone, fun hhost => ⟨⟨_, _, _, 0, .mark (d.extractLsb' 64 64)⟩, ?_, rfl, rfl, rfl, rfl⟩⟩
  have hcfg : bitOf ((s.marked q d).qp q).cfg 32 = false := by rwa [State.marked, State.record_qp]
  rw [part_of_kept (complete_host (k := k) stOk 0 0 0 hcfg)]
  exact mem_record _ hfits

theorem journalMark_full (hfull : s.recordFits (s.ctx (s.qp q).ctx).part 0 = false) :
    ∃ t : State, exec (.journalMark q k) s = .next t ∧ t.tarn = s.tarn ∧ Completes s t q k stJournal 0x0803 0 :=
  ⟨_, (exec_journalMark h).trans (if_neg (ne_true_of_eq_false hfull)), marked_completes d stJournal 0x0803⟩

end

theorem exec_journalMark_idle (h : s.startedDesc q k 6 = none) : exec (.journalMark q k) s = .next s := by
  change execJournalMark q k s = _
  unfold execJournalMark
  rw [h]

/-- Queue pair q has no request open, and submits under its context's epoch. -/
def State.fenced (s : State) (q : Nat) : State := s.modQp q (fun v => { v with openReq := false, epoch := (s.ctx v.ctx).epoch })

theorem fenced_qp (s : State) (q : Nat) : (s.fenced q).qp q = { s.qp q with openReq := false, epoch := (s.ctx (s.qp q).ctx).epoch } :=
  State.setQp_qp_same _ _ _

theorem fenced_others {j : Nat} (hj : j ≠ q) : (s.fenced q).qp j = s.qp j := State.setQp_qp_ne _ _ _ _ hj

theorem completed_openReq_epoch (v : Qp) (k : Nat) : (v.completed k).openReq = v.openReq ∧ (v.completed k).epoch = v.epoch := by
  unfold Qp.completed Qp.settle
  dsimp only
  split <;> exact ⟨rfl, rfl⟩

theorem fence_completes {d : Desc} (h : s.startedDesc q k 8 = some d) :
    ∃ t : State, exec (.fence q k) s = .next t ∧ t.tarn = s.tarn ∧ Completes s t q k stOk 0 0 ∧
      (t.qp q).openReq = false ∧ (t.qp q).epoch = (s.ctx (s.qp q).ctx).epoch := by
  have hexec : exec (.fence q k) s = .next ((s.fenced q).complete q k stOk 0 0 0) := by
    change execFence q k s = _
    unfold execFence
    rw [h]
    rfl
  obtain ⟨e, he, -⟩ := prog_of_startedDesc h
  have hprog : (s.fenced q).prog q k = s.prog q k := by rw [State.prog, fenced_qp, State.prog]
  obtain ⟨hleft, hothers, hentry⟩ := complete_completes (s.fenced q) q k stOk 0 0 0
  rw [fenced_qp] at hleft hentry
  rw [hprog] at hentry
  obtain ⟨hreq, hepoch⟩ := completed_openReq_epoch ((s.fenced q).qp q) k
  refine ⟨_, hexec, (State.complete_tarn _ _ _ _ _ _ _).trans rfl, ⟨hleft, fun j hj => (hothers j hj).trans (fenced_others hj), hentry⟩, ?_⟩
  rw [complete_qp _ _ _ _ _ (hprog.trans he), if_pos rfl, hreq, hepoch, fenced_qp]
  exact ⟨rfl, rfl⟩

theorem exec_fence_idle (h : s.startedDesc q k 8 = none) : exec (.fence q k) s = .next s := by
  change execFence q k s = _
  unfold execFence
  rw [h]

end

/-- Settles O30: a fetch, the start of what it fetched, and then NOP, JOURNAL_MARK and FENCE, each by its lemma. -/
theorem descriptors : Obligations.Descriptors := by
  unfold Obligations.Descriptors
  refine ⟨fun q d s => ⟨descriptorFetch_fetches d, exec_descriptorFetch_idle d⟩,
    fun q k s e he => ⟨fun hfresh hmay => ⟨descriptorStart_starts he hfresh hmay, fun code => descriptorStart_rejected he hfresh hmay⟩,
      exec_descriptorStart_idle he, fun hty => if_pos (.inl hty)⟩,
    fun q k s d => ⟨fun h => ⟨_, exec_descriptorNop h, State.complete_tarn _ _ _ _ _ _ _, complete_completes _ _ _ _ _ _ _, complete_host _ _ _ _⟩,
      fun h => ⟨journalMark_marks h, journalMark_full h⟩, fence_completes, exec_descriptorNop_idle, exec_journalMark_idle, exec_fence_idle⟩⟩

end Sys2Proof.Machine

namespace Sys2Proof.Machine
open Sys2Proof

/-! ## LOAD_IMAGE: the checks in their order (R412 to R415, R419 to R421, Table 14.5) -/

/-- The layouts of an image that LOAD_IMAGE tries on partition p: those of its choices that fit. -/
def State.layoutsTried (s : State) (x p : Nat) (img : Image) : List Nat :=
  (s.layoutChoices x img).filter (fun i => match img.manifest.layouts[i]? with
    | some l => s.layoutFits p l
    | none => false)

/-- The first of the layouts l that can be reserved, with what it reserves. -/
def State.roomFound (s : State) (x p : Nat) (img : Image) (l : List Nat) : Option (Nat × Reserved) :=
  l.findSome? (fun i => (s.reserve x p img (img.manifest.layouts.getD i [])).map (fun r => (i, r)))

/-- Whether a handle number of one of them is taken. -/
def State.numbersTaken (s : State) (x p : Nat) (img : Image) (l : List Nat) : Bool :=
  l.any (fun i => s.handlesTaken x p (img.manifest.layouts.getD i []))

/-- Whether the image of load d can be read from memory, as far as its header says it reaches. -/
def State.imageReadable (s : State) (x : Nat) (d : Desc) (img : Image) : Prop :=
  bitsOf d 115 64 % 4096 = 0 ∧ isTarn (bitsOf d 115 64) = false ∧ s.dmaSide x (bitsOf d 115 64) 0x2000 false = true ∧
  (headerOk img = true → s.dmaSide x (bitsOf d 115 64) (imgBytes img) false = true)

/-- The slot that a load fills: LOADING, by layout i, with what is reserved for it. -/
def State.loadingSlot (s : State) (q k : Nat) (img : Image) (d : Desc) (key : BitVec 256) (i : Nat) (r : Reserved) : Slot :=
  { state := .loading, layout := i, still := bitOf img.manifest.header 101, share := bitOf d 136, image := some img,
    contentKey := key, q := q, k := k, started := s.now, handles := r.handles, spans := r.spans, areas := r.areas,
    directory := r.directory, staging := some r.staging }

/-- The slot of a load filled, its handles' rows zeroed, and its descriptor waiting for the shards. -/
def State.loadBegun (s : State) (q k : Nat) (img : Image) (d : Desc) (key : BitVec 256) (i : Nat) (r : Reserved) : State :=
  let v := s.loadingSlot q k img d key i r
  ((r.after.setSlot (s.qp q).ctx (bitsOf d 135 128) (v.request s.now)).zeroHandles (s.qp q).ctx v).begin q k

/-- What an image whose checks have passed brings about where the layouts l are tried: an end, or a slot that loads. -/
def State.loadTried (s : State) (q k : Nat) (img : Image) (d : Desc) (key : BitVec 256) (l : List Nat) : Result :=
  let x := (s.qp q).ctx
  let p := (s.ctx x).part
  match l with
  | [] => .next (s.rejectDesc q k 0x0813 0)
  | i0 :: _ =>
    if s.numbersTaken x p img l then .next (s.failDesc q k stHandle 0)
    else match s.roomFound x p img l with
      | none =>
        let lack := s.lacking x p img (img.manifest.layouts.getD i0 [])
        .next ((s.note 0x0907 { part := p, ctx := some x, detail := [lack] }).complete q k stCapacity 0x0907 lack 0)
      | some (i, r) => .next (s.loadBegun q k img d key i r)

section
variable {q k : Nat} {img : Image} {s : State} {d : Desc}

section
variable (h : s.startedDesc q k 3 = some d)
include h

theorem exec_loadImage_occupied (hslot : ¬(bitsOf d 135 128 < 16 ∧ (s.slot (s.qp q).ctx (bitsOf d 135 128)).state = .empty)) :
    exec (.loadImage q k img) s = .next (s.rejectDesc q k 0x0813 0) := by
  change execLoadImage q k img s = _
  unfold execLoadImage
  rw [h]
  exact if_pos (by rwa [not_and_or, Nat.not_lt] at hslot)

section
variable (hslot : bitsOf d 135 128 < 16 ∧ (s.slot (s.qp q).ctx (bitsOf d 135 128)).state = .empty)
include hslot

theorem exec_loadImage_misaligned (halign : bitsOf d 115 64 % 4096 ≠ 0) : exec (.loadImage q k img) s = .next (s.failDesc q k stAlign 0) := by
  change execLoadImage q k img s = _
  unfold execLoadImage
  rw [h]
  exact (if_neg (by rwa [not_or, Nat.not_le, not_not])).trans (if_pos halign)

theorem exec_loadImage_unreadable (halign : bitsOf d 115 64 % 4096 = 0) (hread : ¬s.imageReadable (s.qp q).ctx d img) :
    exec (.loadImage q k img) s = .next (s.failDesc q k stAddress 0) := by
  change execLoadImage q k img s = _
  unfold execLoadImage
  rw [h]
  refine (if_neg (by rwa [not_or, Nat.not_le, not_not])).trans ((if_neg (not_not.mpr halign)).trans (if_pos ?_))
  unfold State.imageReadable at hread
  simp only [halign, true_and, Bool.or_eq_true, Bool.and_eq_true, Bool.not_eq_true'] at hread ⊢
  grind

variable (hread : s.imageReadable (s.qp q).ctx d img)
include hread

theorem exec_loadImage_readable : exec (.loadImage q k img) s = match s.imageCheck (s.qp q).ctx img with
    | .inl code => .next (s.rejectDesc q k code 0)
    | .inr key => s.loadTried q k img d key (s.layoutsTried (s.qp q).ctx (s.ctx (s.qp q).ctx).part img) := by
  obtain ⟨halign, htarn, hhead, hwhole⟩ := hread
  change execLoadImage q k img s = _
  unfold execLoadImage
  rw [h]
  refine (if_neg (by rwa [not_or, Nat.not_le, not_not])).trans ((if_neg (not_not.mpr halign)).trans ((if_neg ?_).trans ?_))
  · simp only [htarn, hhead, Bool.or_eq_true, Bool.and_eq_true, Bool.not_eq_true']
    grind
  · generalize hl : s.layoutsTried (s.qp q).ctx (s.ctx (s.qp q).ctx).part img = l
    cases s.imageCheck (s.qp q).ctx img with
    | inl code => rfl
    | inr key =>
      dsimp only
      split
      next htried =>
        obtain rfl := hl.symm.trans htried
        rfl
      next htried =>
        obtain rfl := hl.symm.trans htried
        rfl

end

end

/-! ### The first check that fails (R414, R415) -/

section
variable {x : Nat}

theorem imageCheck_badHeader (hhead : headerOk img = false) : s.imageCheck x img = .inl 0x0901 := if_pos hhead

variable (hhead : headerOk img = true)
include hhead

theorem imageCheck_badKey (hkey : Config.keyHash img.pubKey ≠ imgKeyHash img) : s.imageCheck x img = .inl 0x0902 :=
  (if_neg (by simp [hhead])).trans (if_pos hkey)

theorem imageCheck_badManifest (hkey : Config.keyHash img.pubKey = imgKeyHash img)
    (hmanifest : Config.manifestHash img.manifest ≠ imgManifestHash img) : s.imageCheck x img = .inl 0x0903 :=
  (if_neg (by simp [hhead])).trans ((if_neg (not_not.mpr hkey)).trans (if_pos hmanifest))

end

/-! ### The end by the layouts and the room for them (R419, R421) -/

section
variable {key : BitVec 256} {l : List Nat}

theorem loadTried_taken (hl : l ≠ []) (htaken : s.numbersTaken (s.qp q).ctx (s.ctx (s.qp q).ctx).part img l = true) :
    s.loadTried q k img d key l = .next (s.failDesc q k stHandle 0) := by
  cases l with
  | nil => exact absurd rfl hl
  | cons i0 rest => exact if_pos htaken

theorem loadTried_noRoom (hl : l ≠ []) (htaken : s.numbersTaken (s.qp q).ctx (s.ctx (s.qp q).ctx).part img l = false)
    (hroom : s.roomFound (s.qp q).ctx (s.ctx (s.qp q).ctx).part img l = none) :
    let p := (s.ctx (s.qp q).ctx).part
    let lack := s.lacking (s.qp q).ctx p img (img.manifest.layouts.getD (l.headD 0) [])
    s.loadTried q k img d key l =
      .next ((s.note 0x0907 { part := p, ctx := some (s.qp q).ctx, detail := [lack] }).complete q k stCapacity 0x0907 lack 0) := by
  cases l with
  | nil => exact absurd rfl hl
  | cons i0 rest =>
    refine (if_neg (ne_true_of_eq_false htaken)).trans ?_
    rw [hroom]
    rfl

theorem loadTried_begun {i : Nat} {r : Reserved} (htaken : s.numbersTaken (s.qp q).ctx (s.ctx (s.qp q).ctx).part img l = false)
    (hroom : s.roomFound (s.qp q).ctx (s.ctx (s.qp q).ctx).part img l = some (i, r)) :
    s.loadTried q k img d key l = .next (s.loadBegun q k img d key i r) := by
  cases l with
  | nil => exact absurd hroom (by simp [State.roomFound])
  | cons i0 rest =>
    refine (if_neg (ne_true_of_eq_false htaken)).trans ?_
    rw [hroom]

end

end

/-! ### What a load reserves (R421, R423) -/

theorem givePages_pages (s : State) (run : Nat × Nat) (use : PageUse) (x : Nat) : ∃ m, s.givePages run use x = { s with pages := m } :=
  List.foldlRecOn (motive := fun t : State => ∃ m, t = { s with pages := m }) (List.range run.2) _ ⟨s.pages, rfl⟩ fun t ht g _ => by
    obtain ⟨m, rfl⟩ := ht
    exact ⟨_, rfl⟩

theorem takeAreas_pages {x : Nat} {rs : List Nat} : ∀ (ns : List Nat) (s : State) {as : List Nat} {t : State},
    State.takeAreas x rs ns s = some (as, t) → ∃ n m, t = { s with fresh := n, pages := m }
  | [], s, as, t, h => by
    obtain ⟨-, rfl⟩ : [] = as ∧ s = t := by simpa [State.takeAreas] using h
    exact ⟨s.fresh, s.pages, rfl⟩
  | n :: rest, s, as, t, h => by
    unfold State.takeAreas at h
    split at h
    · exact absurd h (by simp)
    next r _ =>
      obtain ⟨⟨as', t'⟩, hrest, heq⟩ := Option.map_eq_some_iff.mp h
      obtain ⟨-, rfl⟩ : r.1 * 4096 :: as' = as ∧ t' = t := by simpa using heq
      obtain ⟨m, hgive⟩ := givePages_pages s.draw r .image x
      obtain ⟨n', m', rfl⟩ := takeAreas_pages rest _ hrest
      rw [hgive]
      exact ⟨n', m', rfl⟩

theorem reserve_pages {s : State} {x p : Nat} {img : Image} {l : List LEntry} {r : Reserved} (h : s.reserve x p img l = some r) :
    ∃ n m, r.after = { s with fresh := n, pages := m } := by
  unfold State.reserve at h
  dsimp only at h
  split at h
  · exact absurd h (by simp)
  · split at h
    · split at h
      · exact absurd h (by simp)
      next hareas =>
        obtain ⟨n, m, rfl⟩ := takeAreas_pages _ _ hareas
        obtain ⟨run, -, rfl⟩ := Option.map_eq_some_iff.mp h
        exact ⟨n + 1, m, rfl⟩
    · exact absurd h (by simp)

theorem roomFound_pages {s : State} {x p : Nat} {img : Image} {l : List Nat} {i : Nat} {r : Reserved} (h : s.roomFound x p img l = some (i, r)) :
    ∃ n m, r.after = { s with fresh := n, pages := m } := by
  obtain ⟨j, -, hj⟩ := List.exists_of_findSome?_eq_some h
  obtain ⟨r', hr, heq⟩ := Option.map_eq_some_iff.mp hj
  obtain ⟨-, rfl⟩ : j = i ∧ r' = r := by simpa using heq
  exact reserve_pages hr

/-! ### The rows of its handles are zeroed (R422) -/

theorem setSlot_slot (s : State) (x n : Nat) (v : Slot) : (s.setSlot x n v).slot x n = v := by
  unfold State.slot State.setSlot
  rw [State.modCtx_eq, State.setCtx_ctx_same]
  exact Tbl.get_set_same _ _ _ _

/-- Partitions, queue pairs and time are as they were, and contexts but for their save areas. -/
def KeepsSlots (s t : State) : Prop := t.parts = s.parts ∧ t.qps = s.qps ∧ t.now = s.now ∧ ∀ x, { t.ctx x with save := (s.ctx x).save } = s.ctx x

theorem KeepsSlots.refl (s : State) : KeepsSlots s s := ⟨rfl, rfl, rfl, fun _ => rfl⟩

theorem KeepsSlots.trans {s t u : State} (hst : KeepsSlots s t) (htu : KeepsSlots t u) : KeepsSlots s u := by
  obtain ⟨hparts, hqps, hnow, hctx⟩ := hst
  obtain ⟨hparts', hqps', hnow', hctx'⟩ := htu
  exact ⟨hparts'.trans hparts, hqps'.trans hqps, hnow'.trans hnow,
    fun x => (congrArg (fun v : Ctx => { v with save := (s.ctx x).save }) (hctx' x)).trans (hctx x)⟩

theorem KeepsSlots.foldl {α : Type} {g : State → α → State} (hg : ∀ t a, KeepsSlots t (g t a)) (l : List α) (s : State) : KeepsSlots s (l.foldl g s) :=
  List.foldlRecOn l g (.refl s) fun t ht a _ => ht.trans (hg t a)

section
variable {s t : State} (h : KeepsSlots s t)
include h

theorem KeepsSlots.slot (x n : Nat) : t.slot x n = s.slot x n := by
  obtain ⟨-, -, -, hctx⟩ := h
  have hslots := congrArg Ctx.slots (hctx x)
  exact congrArg (fun m => Tbl.get (fun _ => ({} : Slot)) m n) hslots

theorem KeepsSlots.resident (x : Nat) : t.isResident x = s.isResident x := by
  obtain ⟨hparts, -, -, hctx⟩ := h
  have hpart : (t.ctx x).part = (s.ctx x).part := by
    have hkept := congrArg Ctx.part (hctx x)
    exact hkept
  unfold State.isResident State.part
  rw [hpart, hparts]

theorem KeepsSlots.prog (q k : Nat) : t.prog q k = s.prog q k := by
  obtain ⟨-, hqps, -, -⟩ := h
  unfold State.prog State.qp
  rw [hqps]

end

section
variable (s : State) (x c n : Nat)

theorem keepsSlots_putDest_tarn (w : Row) : KeepsSlots s (s.putDest x (.tarn c n) w) := by
  unfold State.putDest
  dsimp only
  split
  · exact ⟨State.touch_parts _ _ _, State.touch_qps _ _ _, State.touch_now _ _ _, fun y => by rw [State.touch_ctx]; rfl⟩
  next hres =>
    unfold State.setCtxRow
    rw [if_neg hres]
    refine ⟨rfl, rfl, rfl, fun y => ?_⟩
    rw [State.modCtx_eq, State.setCtx_ctx]
    split
    next hy => rw [hy]
    next => rfl

theorem putDest_tarn_trow (hres : s.isResident x = true) (w : Row) (c' n' : Nat) : (s.putDest x (.tarn c n) w).trow c' n' =
    if rowKey c' n' = rowKey c n then { data := w, tag := .full } else s.trow c' n' := by
  unfold State.putDest
  dsimp only
  rw [if_pos hres, State.touch_trow]
  exact Tbl.get_set _ _ _ _ _

end

/-- The rows of one handle of an image are written with zeros. -/
def State.zeroHandle (s : State) (x : Nat) (e : Nat × Nat × HandleEntry) : State :=
  (List.range (hCount e.2.2)).foldl (fun (s : State) i => s.putDest x (.tarn e.1 (handleRow e.2.2 i)) 0) s

theorem keepsSlots_zeroHandle (s : State) (x : Nat) (e : Nat × Nat × HandleEntry) : KeepsSlots s (s.zeroHandle x e) :=
  .foldl (fun t _ => keepsSlots_putDest_tarn t x _ _ 0) _ s

theorem keepsSlots_zeroHandles (s : State) (x : Nat) (v : Slot) : KeepsSlots s (s.zeroHandles x v) :=
  .foldl (fun t e => keepsSlots_zeroHandle t x e) _ s

theorem zeroHandles_trow {s : State} {x : Nat} {v : Slot} (hres : s.isResident x = true) {e : Nat × Nat × HandleEntry} (he : e ∈ v.handles) {j : Nat}
    (hj : j < hCount e.2.2) : (s.zeroHandles x v).trow e.1 (handleRow e.2.2 j) = { data := 0, tag := .full } := by
  have hput (t : State) (c n : Nat) (ht : t.isResident x = true) (hrow : t.trow e.1 (handleRow e.2.2 j) = { data := 0, tag := .full }) :
      (t.putDest x (.tarn c n) 0).trow e.1 (handleRow e.2.2 j) = { data := 0, tag := .full } := by
    rw [putDest_tarn_trow t x c n ht]
    split
    · rfl
    · exact hrow
  have hkeep (t : State) (c n : Nat) (ht : t.isResident x = true) : (t.putDest x (.tarn c n) 0).isResident x = true :=
    ((keepsSlots_putDest_tarn t x c n 0).resident x).trans ht
  refine foldl_reach (I := fun t => t.isResident x = true) (g := fun t e => t.zeroHandle x e)
    (P := fun t => t.trow e.1 (handleRow e.2.2 j) = { data := 0, tag := .full }) (fun t o _ ht => ((keepsSlots_zeroHandle t x o).resident x).trans ht)
    (fun t o _ ht hrow => ?_) (fun t ht => ?_) he hres
  · exact (List.foldlRecOn (motive := fun u : State => u.isResident x = true ∧ u.trow e.1 (handleRow e.2.2 j) = { data := 0, tag := .full }) _ _
      ⟨ht, hrow⟩ fun u hu i _ => ⟨hkeep u _ _ hu.1, hput u _ _ hu.1 hu.2⟩).2
  · refine foldl_reach (I := fun t => t.isResident x = true) (P := fun t => t.trow e.1 (handleRow e.2.2 j) = { data := 0, tag := .full })
      (fun u i _ hu => hkeep u _ _ hu) (fun u i _ hu hrow => hput u _ _ hu hrow) (fun u hu => ?_)
      (List.mem_range.mpr hj) ht
    rw [putDest_tarn_trow u x _ _ hu, if_pos rfl]

/-! ### A load begins (R423) -/

theorem begin_slot (s : State) (q k x n : Nat) : (s.begin q k).slot x n = s.slot x n := rfl

theorem loadBegun_loads {q k : Nat} {img : Image} {s : State} {d : Desc} {key : BitVec 256} {i : Nat} {r : Reserved}
    (hafter : ∃ n m, r.after = { s with fresh := n, pages := m }) :
    let x := (s.qp q).ctx
    let t := s.loadBegun q k img d key i r
    t.slot x (bitsOf d 135 128) = (s.loadingSlot q k img d key i r).request s.now ∧
    (∀ e, s.prog q k = some e → t.prog q k = some { e with running := true, since := some s.now }) ∧
    (s.isResident x = true → ∀ e ∈ r.handles, ∀ j, j < hCount e.2.2 → t.trow e.1 (handleRow e.2.2 j) = { data := 0, tag := .full }) := by
  obtain ⟨n, m, hafter⟩ := hafter
  let v := s.loadingSlot q k img d key i r
  have hset (y : Nat) : (r.after.setSlot (s.qp q).ctx (bitsOf d 135 128) (v.request s.now)).isResident y = s.isResident y := by
    rw [hafter]
    unfold State.setSlot State.isResident
    rw [State.modCtx_eq, State.setCtx_ctx]
    split
    next hy =>
      rw [hy]
      rfl
    next => rfl
  have hzero := keepsSlots_zeroHandles (r.after.setSlot (s.qp q).ctx (bitsOf d 135 128) (v.request s.now)) (s.qp q).ctx v
  have hprog := hzero.prog q k
  have hnow : _ = s.now := hzero.2.2.1.trans (by rw [hafter]; rfl)
  refine ⟨?_, fun e he => ?_, fun hres e he j hj => ?_⟩
  · exact (hzero.slot _ _).trans (setSlot_slot _ _ _ _)
  · rw [State.loadBegun, begin_prog (hprog.trans (by rw [hafter]; exact he)), hnow]
  · exact zeroHandles_trow ((hset _).trans hres) he hj

/-! ## SWAP_IMAGE and the release of a slot (R428, R430) -/

section
variable {q k : Nat} {s : State}

theorem exec_swapImage {d : Desc} (h : s.startedDesc q k 4 = some d) : exec (.swapImage q k) s =
    if bitsOf d 135 128 < 16 ∧ bitsOf d 143 136 < 16 ∧ (s.slot (s.qp q).ctx (bitsOf d 135 128)).state = .current ∧
        (s.slot (s.qp q).ctx (bitsOf d 143 136)).state = .staged ∧ (s.ctx (s.qp q).ctx).epoch < 0xFFFFFFFF then
      .next (s.defer q k (.swap (bitsOf d 135 128) (bitsOf d 143 136)))
    else .next (s.rejectDesc q k 0x0813 0) := by
  change execSwapImage q k s = _
  unfold execSwapImage
  rw [h]

theorem exec_swapImage_idle (h : s.startedDesc q k 4 = none) : exec (.swapImage q k) s = .next s := by
  change execSwapImage q k s = _
  unfold execSwapImage
  rw [h]

end

/-- An entry of no rows keeps having none under a new generation. -/
theorem nextGen_count (old e : HandleEntry) : hCount (nextGen old e) = hCount e := by
  have hgen : (hGen old + 1) % 65536 < 2 ^ 16 := Nat.mod_lt _ (by omega)
  unfold hCount bitsOf
  rw [nextGen_toNat]
  exact putBits_field_ne hgen _ 192 (.inl (by omega))

section
variable (s : State) (x c h : Nat)

theorem setCtxHandle_keeps (e : HandleEntry) : (s.setCtxHandle x c h e).mem = s.mem ∧ (s.setCtxHandle x c h e).zeroRuns = s.zeroRuns ∧
    ((s.setCtxHandle x c h e).ctx x).slots = (s.ctx x).slots := by
  unfold State.setCtxHandle
  split
  · exact ⟨rfl, rfl, rfl⟩
  · refine ⟨rfl, rfl, ?_⟩
    rw [State.modCtx_eq, State.setCtx_ctx_same]

/-- An entry written is either the one read or leaves it as it was. -/
theorem ctxHandle_setCtxHandle_other (e : HandleEntry) (c' h' : Nat) : (s.setCtxHandle x c h e).ctxHandle x c' h' = s.ctxHandle x c' h' ∨
    ∃ old, (s.setCtxHandle x c h e).ctxHandle x c' h' = nextGen old e := by
  have hres := setCtxHandle_resident s x c h e
  unfold State.ctxHandle
  rw [hres]
  unfold State.setCtxHandle
  cases s.isResident x with
  | true =>
    by_cases hc : c' = c
    · subst hc
      by_cases hh : h' = h
      · subst hh
        exact .inr ⟨_, handle_writeHandle s c' h' e⟩
      · refine .inl ?_
        simp only [if_true, State.writeHandle, State.handle, State.modCl_eq, State.setCl_cl_same]
        exact Tbl.get_set_ne _ _ _ hh
    · refine .inl ?_
      simp only [if_true, State.writeHandle, State.handle, State.modCl_eq, State.setCl_cl_ne _ _ _ _ hc]
  | false =>
    simp only [Bool.false_eq_true, if_false, State.modCtx_eq, State.setCtx_ctx_same]
    by_cases hk : c' * 64 + h' = c * 64 + h
    · rw [hk, Tbl.get_set_same]
      exact .inr ⟨_, rfl⟩
    · rw [Tbl.get_set_ne _ _ _ hk]
      refine .inl ?_
      cases (s.ctx x).save <;> rfl

end

/-- The entries of a released slot's handles are cleared, where no other slot defines them. -/
def State.clearSlotHandles (s : State) (x : Nat) (l : List (Nat × Nat × HandleEntry)) : State :=
  l.foldl (fun (t : State) e => if t.imageHandle x e.1 e.2.1 then t else t.setCtxHandle x e.1 e.2.1 0) s

section
variable {s : State} {x n : Nat}

theorem clearSlotHandles_keeps (l : List (Nat × Nat × HandleEntry)) : (s.clearSlotHandles x l).mem = s.mem ∧ (s.clearSlotHandles x l).zeroRuns = s.zeroRuns ∧
    ((s.clearSlotHandles x l).ctx x).slots = (s.ctx x).slots := by
  refine List.foldlRecOn (motive := fun t : State => t.mem = s.mem ∧ t.zeroRuns = s.zeroRuns ∧ (t.ctx x).slots = (s.ctx x).slots) l _ ⟨rfl, rfl, rfl⟩
    fun t ht e _ => ?_
  split
  · exact ht
  · obtain ⟨hmem, hruns, hslots⟩ := setCtxHandle_keeps t x e.1 e.2.1 0
    exact ⟨hmem.trans ht.1, hruns.trans ht.2.1, hslots.trans ht.2.2⟩

theorem clearSlotHandles_count {l : List (Nat × Nat × HandleEntry)} {e : Nat × Nat × HandleEntry} (he : e ∈ l) (hother : s.imageHandle x e.1 e.2.1 = false) :
    hCount ((s.clearSlotHandles x l).ctxHandle x e.1 e.2.1) = 0 := by
  refine foldl_reach (I := fun t : State => (t.ctx x).slots = (s.ctx x).slots) (P := fun t : State => hCount (t.ctxHandle x e.1 e.2.1) = 0)
    (fun t o _ ht => ?_) (fun t o _ _ hzero => ?_) (fun t ht => ?_) he rfl
  · split
    · exact ht
    · exact (setCtxHandle_keeps t x o.1 o.2.1 0).2.2.trans ht
  · split
    · exact hzero
    · rcases ctxHandle_setCtxHandle_other t x o.1 o.2.1 0 e.1 e.2.1 with hsame | ⟨old, hnew⟩
      · rwa [hsame]
      · rw [hnew, nextGen_count]
        rfl
  · have hsame : t.imageHandle x e.1 e.2.1 = false := by
      unfold State.imageHandle at hother ⊢
      rwa [ht]
    rw [hsame, if_neg Bool.false_ne_true, ctxHandle_setCtxHandle, nextGen_count]
    rfl

theorem emptySlot_keeps : (s.emptySlot x n).slot x n = {} ∧ (s.emptySlot x n).mem = s.mem ∧
    ∀ r, (s.slot x n).staging = some r → r ∈ (s.emptySlot x n).zeroRuns := by
  refine ⟨setSlot_slot _ _ _ _, rfl, fun r hr => ?_⟩
  change r ∈ s.zeroRuns ++ (s.slot x n).staging.toList
  simp [hr]

theorem slotRetireRelease_releases (hretiring : (s.slot x n).state = .retiring) (hfree : s.epochHeld x (s.slot x n).epoch = false) :
    ∃ t : State, exec (.slotRetireRelease x n) s = .next t ∧ t.slot x n = {} ∧ t.mem = s.mem ∧
      (∀ r, (s.slot x n).staging = some r → r ∈ t.zeroRuns) ∧
      ∀ e ∈ (s.slot x n).handles, (s.emptySlot x n).imageHandle x e.1 e.2.1 = false → hCount (t.ctxHandle x e.1 e.2.1) = 0 := by
  have hexec : exec (.slotRetireRelease x n) s = .next ((s.emptySlot x n).clearSlotHandles x (s.slot x n).handles) := if_pos ⟨hretiring, hfree⟩
  obtain ⟨hempty, hmem, hstaging⟩ := emptySlot_keeps (s := s) (x := x) (n := n)
  obtain ⟨hmem', hruns, hslots⟩ := clearSlotHandles_keeps (s := s.emptySlot x n) (x := x) (s.slot x n).handles
  refine ⟨_, hexec, ?_, hmem'.trans hmem, fun r hr => hruns ▸ hstaging r hr, fun e he hother => clearSlotHandles_count he hother⟩
  rw [State.slot, hslots]
  exact hempty

theorem exec_slotRetireRelease_held (h : (s.slot x n).state ≠ .retiring ∨ s.epochHeld x (s.slot x n).epoch = true) :
    exec (.slotRetireRelease x n) s = .next s := by
  refine if_neg ?_
  rintro ⟨hretiring, hfree⟩
  rcases h with h | h
  · exact h hretiring
  · exact absurd (h.symm.trans hfree) (by decide)

end

/-! ## SELECT_LAYOUT (R328, R329, R432) -/

/-- Whether a SELECT_LAYOUT names a layout of the image of a slot in use. -/
def State.layoutKnown (s : State) (x : Nat) (d : Desc) : Prop :=
  bitsOf d 135 128 < 16 ∧ (s.slot x (bitsOf d 135 128)).state ≠ .empty ∧ ((s.slot x (bitsOf d 135 128)).layoutOf (bitsOf d 151 136)).isSome

/-- The slots of context x placed anew by the layout a SELECT_LAYOUT names. -/
def State.slotsReplaced (s : State) (x : Nat) (d : Desc) : Option (List (Nat × Slot) × List Nat) :=
  State.replaceSlots s x (s.ctx x).part (bitsOf d 151 136) ((s.ctx x).slots.filter (fun e => decide (e.2.state ≠ .empty))) [] []

/-- Rows of tarn, queue pairs and time are as they were, and partitions but for their journals. -/
def KeepsRows (s t : State) : Prop := t.tarn = s.tarn ∧ t.qps = s.qps ∧ t.now = s.now ∧ ∀ p, (t.part p).withJournal (s.part p) = s.part p

theorem KeepsRows.refl (s : State) : KeepsRows s s := ⟨rfl, rfl, rfl, fun _ => rfl⟩

theorem KeepsRows.trans {s t u : State} (hst : KeepsRows s t) (htu : KeepsRows t u) : KeepsRows s u := by
  obtain ⟨htarn, hqps, hnow, hpart⟩ := hst
  obtain ⟨htarn', hqps', hnow', hpart'⟩ := htu
  exact ⟨htarn'.trans htarn, hqps'.trans hqps, hnow'.trans hnow,
    fun p => (congrArg (fun v : Part => v.withJournal (s.part p)) (hpart' p)).trans (hpart p)⟩

theorem KeepsRows.foldl {α : Type} {g : State → α → State} (hg : ∀ t a, KeepsRows t (g t a)) (l : List α) (s : State) : KeepsRows s (l.foldl g s) :=
  List.foldlRecOn l g (.refl s) fun t ht a _ => ht.trans (hg t a)

theorem keepsRows_record (s : State) (p x units : Nat) (body : JRec) : KeepsRows s (s.record p x units body) :=
  ⟨State.record_tarn _ _ _ _ _, State.record_qps _ _ _ _ _, State.record_now _ _ _ _ _, (onlyJournals_record s p x units body).2.1⟩

theorem keepsRows_writeNat (s : State) (a v n : Nat) : KeepsRows s (s.writeNat a v n) :=
  ⟨State.writeNat_tarn _ _ _ _, State.writeNat_qps _ _ _ _, congrArg Timebase.now (State.writeNat_tb _ _ _ _), fun p => by rw [State.writeNat_part]; rfl⟩

theorem keepsRows_writeDirectory (s : State) (p a : Nat) (areas : List Nat) (l : List LEntry) : KeepsRows s (s.writeDirectory p a areas l) := by
  have hevict : KeepsRows s (s.evictRange a 12288) :=
    ⟨State.evictRange_tarn _ _ _, State.evictRange_qps _ _ _, State.evictRange_now _ _ _, (onlyJournals_evictRange s a 12288).2.1⟩
  have hheal (t : State) : KeepsRows t (t.healSectors a 12288) :=
    ⟨State.healSectors_tarn _ _ _, State.healSectors_qps _ _ _, State.healSectors_now _ _ _, fun p => by rw [State.healSectors_part]; rfl⟩
  exact ((hevict.trans (.foldl (fun t _ => keepsRows_writeNat t _ _ _) _ _)).trans (.foldl (fun t _ => keepsRows_writeNat t _ _ _) _ _)).trans (hheal _)

theorem keepsRows_modCtx (s : State) (x : Nat) (f : Ctx → Ctx) : KeepsRows s (s.modCtx x f) := .refl s

/-- The slots of context x stand as they are placed by layout i, after the CTL record; those that cannot follow are released. -/
def State.layoutPlaced (s : State) (x p i : Nat) (placed : List (Nat × Slot)) (gone : List Nat) : State :=
  (placed.foldl (fun (t : State) e => (t.setSlot x e.1 e.2).writeDirectory p e.2.directory e.2.areas e.2.placed)
    (gone.foldl (fun (t : State) n => t.releaseSlot x n)
      (s.record p x 0 (.ctl 8 (BitVec.ofNat 64 (s.ctx x).layout) (BitVec.ofNat 64 i))))).modCtx x (fun c => { c with layout := i, needLayout := false })

theorem layoutPlaced_keeps (s : State) (x p i : Nat) (placed : List (Nat × Slot)) : KeepsRows s (s.layoutPlaced x p i placed []) := by
  unfold State.layoutPlaced
  rw [List.foldl_nil]
  exact ((keepsRows_record s p x 0 _).trans
    (.foldl (fun t _ => (keepsRows_modCtx t x _).trans (keepsRows_writeDirectory _ _ _ _ _)) _ _)).trans (keepsRows_modCtx _ _ _)

theorem layoutPlaced_ctx (s : State) (x p i : Nat) (placed : List (Nat × Slot)) (gone : List Nat) :
    ((s.layoutPlaced x p i placed gone).ctx x).layout = i ∧ ((s.layoutPlaced x p i placed gone).ctx x).needLayout = false := by
  rw [State.layoutPlaced, State.modCtx_eq, State.setCtx_ctx_same]
  exact ⟨rfl, rfl⟩

/-- Recovery goes on at its scrub, under the layout placed. -/
def State.recoveryPlaced (s : State) (p : Nat) : State :=
  (s.modPart p (fun v => { v with recovery := v.recovery.map (fun r => { r with stage := .replaced, layoutDeadline := none }) })).startScrub p

theorem takeLayout_eq (s : State) (x p i : Nat) (placed : List (Nat × Slot)) (gone : List Nat) :
    s.takeLayout x p i placed gone = (s.layoutPlaced x p i placed gone).recoveryPlaced p := rfl

theorem recoveryPlaced_part (s : State) (p : Nat) : ((s.recoveryPlaced p).part p).scrubbing = true ∧
    ((s.recoveryPlaced p).part p).recovery = (s.part p).recovery.map (fun r => { r with stage := .replaced, layoutDeadline := none }) := by
  unfold State.recoveryPlaced State.startScrub
  simp only [State.modPart_eq, State.setPart_part_same, and_self]

section
variable {q k : Nat} {s : State}

section
variable {d : Desc} (h : s.startedCtl q k 2 = some d)
include h

theorem exec_selectLayout_unknown (hunknown : ¬s.layoutKnown (s.qp q).ctx d) : exec (.selectLayout q k) s = .next (s.rejectDesc q k 0x0813 0) := by
  change execSelectLayout q k s = _
  unfold execSelectLayout
  rw [h]
  refine if_pos ?_
  unfold State.layoutKnown at hunknown
  rw [not_and_or, not_and_or, Nat.not_lt, not_not, Option.not_isSome_iff_eq_none, ← Option.isNone_iff_eq_none] at hunknown
  exact hunknown

variable (hknown : s.layoutKnown (s.qp q).ctx d)
include hknown

theorem exec_selectLayout : exec (.selectLayout q k) s =
    if s.waitsLayout (s.qp q).ctx then
      match s.slotsReplaced (s.qp q).ctx d with
      | none => .next (s.rejectDesc q k 0x0813 0)
      | some (placed, gone) =>
        .next ((s.takeLayout (s.qp q).ctx (s.ctx (s.qp q).ctx).part (bitsOf d 151 136) placed gone).complete q k stOk 0 0 0)
    else if (s.slot (s.qp q).ctx (bitsOf d 135 128)).layout = bitsOf d 151 136 then .next (s.complete q k stOk 0 0 0)
    else .next (s.rejectDesc q k 0x0813 0) := by
  obtain ⟨hn, hstate, hlayout⟩ := hknown
  change execSelectLayout q k s = _
  unfold execSelectLayout
  rw [h]
  refine (if_neg ?_).trans rfl
  rintro (hbad | hbad | hbad)
  · exact absurd hn (Nat.not_lt.mpr hbad)
  · exact hstate hbad
  · exact absurd hlayout (by rwa [Option.not_isSome_iff_eq_none, ← Option.isNone_iff_eq_none])

theorem exec_selectLayout_same (hwaits : s.waitsLayout (s.qp q).ctx = false)
    (hsame : (s.slot (s.qp q).ctx (bitsOf d 135 128)).layout = bitsOf d 151 136) : exec (.selectLayout q k) s = .next (s.complete q k stOk 0 0 0) := by
  rw [exec_selectLayout h hknown, if_neg (ne_true_of_eq_false hwaits), if_pos hsame]

theorem exec_selectLayout_other (hwaits : s.waitsLayout (s.qp q).ctx = false)
    (hother : (s.slot (s.qp q).ctx (bitsOf d 135 128)).layout ≠ bitsOf d 151 136) :
    exec (.selectLayout q k) s = .next (s.rejectDesc q k 0x0813 0) := by
  rw [exec_selectLayout h hknown, if_neg (ne_true_of_eq_false hwaits), if_neg hother]

variable (hwaits : s.waitsLayout (s.qp q).ctx = true)
include hwaits

theorem exec_selectLayout_noRoom (hnone : s.slotsReplaced (s.qp q).ctx d = none) :
    exec (.selectLayout q k) s = .next (s.rejectDesc q k 0x0813 0) := by
  rw [exec_selectLayout h hknown, if_pos hwaits, hnone]

theorem selectLayout_selects {placed : List (Nat × Slot)} (hplaced : s.slotsReplaced (s.qp q).ctx d = some (placed, [])) :
    let p := (s.ctx (s.qp q).ctx).part
    ∃ t : State, exec (.selectLayout q k) s = .next t ∧ t.tarn = s.tarn ∧ (t.ctx (s.qp q).ctx).layout = bitsOf d 151 136 ∧
      (t.ctx (s.qp q).ctx).needLayout = false ∧ (t.part p).scrubbing = true ∧ Completes s t q k stOk 0 0 ∧
      ∃ r, (t.part p).recovery = some r ∧ r.stage = .replaced ∧ r.layoutDeadline = none := by
  intro p
  obtain ⟨r, hr⟩ : ∃ r, (s.part p).recovery = some r := by
    unfold State.waitsLayout at hwaits
    split at hwaits
    next r hr => exact ⟨r, hr⟩
    next => exact absurd hwaits Bool.false_ne_true
  have hexec : exec (.selectLayout q k) s =
      .next (((s.layoutPlaced (s.qp q).ctx p (bitsOf d 151 136) placed []).recoveryPlaced p).complete q k stOk 0 0 0) := by
    rw [exec_selectLayout h hknown, if_pos hwaits, hplaced]
    exact congrArg (fun u : State => Host.Outcome.next (u.complete q k stOk 0 0 0)) (takeLayout_eq _ _ _ _ _ _)
  obtain ⟨htarn, hqps, hnow, hpart⟩ := layoutPlaced_keeps s (s.qp q).ctx p (bitsOf d 151 136) placed
  obtain ⟨hlayout, hneed⟩ := layoutPlaced_ctx s (s.qp q).ctx p (bitsOf d 151 136) placed []
  have hrec : ((s.layoutPlaced (s.qp q).ctx p (bitsOf d 151 136) placed []).part p).recovery = some r := by
    have hkept := congrArg Part.recovery (hpart p)
    exact hkept.trans hr
  generalize s.layoutPlaced (s.qp q).ctx p (bitsOf d 151 136) placed [] = u at *
  obtain ⟨hscrub, hrecovery⟩ := recoveryPlaced_part u p
  rw [hrec] at hrecovery
  have hjournals := onlyJournals_complete (u.recoveryPlaced p) q k stOk 0 0 0
  refine ⟨_, hexec, (State.complete_tarn _ _ _ _ _ _ _).trans htarn, (hjournals.ctx_field Ctx.layout (fun _ _ => rfl) _).trans hlayout,
    (hjournals.ctx_field Ctx.needLayout (fun _ _ => rfl) _).trans hneed, (hjournals.part_field Part.scrubbing (fun _ _ => rfl) p).trans hscrub,
    .of_same (fun j => ?_) hnow (complete_completes _ _ _ _ _ _ _), _, (hjournals.part_field Part.recovery (fun _ _ => rfl) p).trans hrecovery, rfl, rfl⟩
  exact congrArg (fun m => Tbl.get (fun _ => ({} : Qp)) m j) hqps

end

theorem exec_selectLayout_idle (h : s.startedCtl q k 2 = none) : exec (.selectLayout q k) s = .next s := by
  change execSelectLayout q k s = _
  unfold execSelectLayout
  rw [h]

end

/-! ## The checks, the load, and the slots -/

theorem loadImage_ends {q k : Nat} {img : Image} {s : State} {d : Desc} (h : s.startedDesc q k 3 = some d)
    (hslot : bitsOf d 135 128 < 16 ∧ (s.slot (s.qp q).ctx (bitsOf d 135 128)).state = .empty) (hread : s.imageReadable (s.qp q).ctx d img) {code : Nat}
    (hcheck : s.imageCheck (s.qp q).ctx img = .inl code) : Ends s (.loadImage q k img) q k stRejected code 0 :=
  ends_of_rejectDesc (by rw [exec_loadImage_readable h hslot hread, hcheck])

/-- Settles O35: LOAD_IMAGE ends at the first check that fails and else by its layouts and the room for them; SWAP_IMAGE waits for the boundary, a
slot that nothing holds is released, and SELECT_LAYOUT goes ahead only under R328. -/
theorem imageLoadsAndSlots : Obligations.ImageLoadsAndSlots := by
  unfold Obligations.ImageLoadsAndSlots
  refine ⟨fun q k img s d h => ⟨fun hslot => ends_of_rejectDesc (exec_loadImage_occupied h hslot),
      fun hslot halign => ends_of_failDesc (exec_loadImage_misaligned h hslot halign),
      fun hslot halign hread => ends_of_failDesc (exec_loadImage_unreadable h hslot halign hread),
      fun hslot hread => ⟨fun hhead => loadImage_ends h hslot hread (imageCheck_badHeader hhead),
        fun hhead hkey => loadImage_ends h hslot hread (imageCheck_badKey hhead hkey),
        fun hhead hkey hmanifest => loadImage_ends h hslot hread (imageCheck_badManifest hhead hkey hmanifest),
        fun code => loadImage_ends h hslot hread, fun key hcheck => ?_⟩⟩,
    fun q k s d h => ⟨fun hok => ?_, fun hbad => ?_⟩, fun x n s => ⟨slotRetireRelease_releases, exec_slotRetireRelease_held⟩,
    fun q k s d h => ⟨?_, ?_, ?_, ?_, ?_⟩, fun q k s => ⟨exec_swapImage_idle, exec_selectLayout_idle⟩⟩
  · have hexec : exec (.loadImage q k img) s = s.loadTried q k img d key (s.layoutsTried (s.qp q).ctx (s.ctx (s.qp q).ctx).part img) := by
      rw [exec_loadImage_readable h hslot hread, hcheck]
    refine ⟨fun hnone => ends_of_rejectDesc ?_, fun hfits htaken => ends_of_failDesc (hexec.trans (loadTried_taken hfits htaken)),
      fun hfits htaken hroom => ?_, fun i r htaken hroom => ?_⟩
    · rw [hexec, show s.layoutsTried _ _ img = [] from hnone]
      rfl
    · exact ⟨_, hexec.trans (loadTried_noRoom hfits htaken hroom), (State.complete_tarn _ _ _ _ _ _ _).trans (State.note_tarn _ _ _),
        (State.complete_clusters _ _ _ _ _ _ _).trans (State.note_clusters _ _ _), (complete_completes _ _ _ _ _ _ _).of_note⟩
    · obtain ⟨hload, hprog, hzero⟩ := loadBegun_loads (q := q) (k := k) (img := img) (d := d) (key := key) (i := i) (roomFound_pages hroom)
      refine ⟨_, hexec.trans (loadTried_begun htaken hroom), ?_⟩
      rw [hload]
      exact ⟨rfl, rfl, rfl, rfl, rfl, rfl, rfl, by simp [Slot.request, Slot.inFlight, State.loadingSlot], hprog, hzero⟩
  · exact defers_of_defer ((exec_swapImage h).trans (if_pos hok))
  · exact ends_of_rejectDesc ((exec_swapImage h).trans (if_neg hbad))
  · exact fun hunknown => ends_of_rejectDesc (exec_selectLayout_unknown h hunknown)
  · exact fun hknown hwaits hsame => ⟨_, exec_selectLayout_same h hknown hwaits hsame, State.complete_tarn _ _ _ _ _ _ _, State.complete_clusters _ _ _ _ _ _ _,
      complete_completes _ _ _ _ _ _ _⟩
  · exact fun hknown hwaits hother => ends_of_rejectDesc (exec_selectLayout_other h hknown hwaits hother)
  · exact fun hknown hwaits hnone => ends_of_rejectDesc (exec_selectLayout_noRoom h hknown hwaits hnone)
  · exact fun placed hknown hwaits hplaced => selectLayout_selects h hknown hwaits hplaced

end Sys2Proof.Machine

namespace Sys2Proof.Machine
open Sys2Proof

/-! ## Configuration requests (R380) -/

section
variable {die : Nat} {s : State}

theorem configurationRequest_answers (hdie : die < 8) (hperst : (s.port die).perst = false) (habsent : (s.port die).absent = false)
    (hreleased : (s.port die).released = true) : ∃ t : State, exec (.configurationRequest die) s = .next t ∧ { t with out := s.out } = s ∧
      t.out = s.out ++ [.cfgReply die (!(s.boot.complete || s.boot.stopped || s.boot.warm))] :=
  ⟨_, if_neg (by simp [Nat.not_le.mpr hdie, hperst, habsent, hreleased]), rfl, rfl⟩

theorem exec_configurationRequest_reset (hperst : (s.port die).perst = true) : exec (.configurationRequest die) s = .next s :=
  if_pos (.inr (.inl hperst))

end

/-! ## Host reads through the aperture (R382, R454) -/

/-- An access that goes through sends nothing outside the panel, and changes no queue pair. -/
theorem rowAccess_quiet {s t : State} {c n : Nat} {a : Access} {w d : Row} {u : Upset} (h : s.rowAccess c n a w u = .done d t) :
    t.out = s.out ∧ t.qps = s.qps := by
  have htouched (v : TarnRow) : ((s.setTrow c n v).touch c n).out = s.out ∧ ((s.setTrow c n v).touch c n).qps = s.qps :=
    ⟨State.touch_out _ _ _, State.touch_qps _ _ _⟩
  unfold State.rowAccess at h
  dsimp only at h
  split at h
  · exact absurd h (by simp)
  · exact absurd h (by simp)
  · split at h
    · split at h
      · obtain ⟨-, rfl⟩ := RowAnswer.done.inj h
        split
        · exact ⟨rfl, rfl⟩
        · exact htouched _
      · exact absurd h (by simp)
    · split at h <;>
      · obtain ⟨-, rfl⟩ := RowAnswer.done.inj h
        exact htouched _

theorem rowAccess_out {s t : State} {c n : Nat} {a : Access} {w d : Row} {u : Upset} (h : s.rowAccess c n a w u = .done d t) : t.out = s.out := by
  obtain ⟨hout, -⟩ := rowAccess_quiet h
  exact hout

/-- The address that offset off of function f's aperture names. -/
def State.apertureAt (s : State) (f off : Nat) : Nat := (s.fn f).apertureBase.toNat + off

/-- What a host read is answered where no more is done. -/
theorem emit_bar_reply (s : State) (o : Output) : { s.emit o with out := s.out } = s ∧ (s.emit o).out = s.out ++ [o] := ⟨rfl, rfl⟩

/-- The answer to piece k of a read of len bytes from a. -/
def State.barPiece (s : State) (f a len k : Nat) : Output :=
  .bar f 0 (min 512 (len - 512 * k)) (BitVec.ofNat 4096 (s.readNat (a + 512 * k) (min 512 (len - 512 * k))))

section
variable {f x a len : Nat} {u : Upset} {s : State}

/-- A piece in memory that is not poisoned is answered with its bytes. -/
theorem barPieces_memory (count k : Nat) (hplace : ∀ c o, placeOf (a + 512 * k) ≠ .tarn c o)
    (hclean : s.readsPoison (a + 512 * k) (min 512 (len - 512 * k)) = false) :
    State.barPieces f x a len u (count + 1) k s = State.barPieces f x a len u count (k + 1) (s.emit (s.barPiece f a len k)) := by
  rw [State.barPieces]
  dsimp only
  split
  next c o h => exact absurd h (hplace c o)
  next =>
    rw [hclean, if_neg Bool.false_ne_true]
    rfl

theorem emit_barPiece (o : Output) (k : Nat) : (s.emit o).barPiece f a len k = s.barPiece f a len k := by
  unfold State.barPiece
  rw [readNat_congr (s := s) (t := s.emit o) fun _ => rfl]

/-- Pieces that all lie in memory that is not poisoned are answered in their order. -/
theorem barPieces_answers (count k : Nat) (s : State) (hclean : ∀ j, k ≤ j → j < k + count → (∀ c o, placeOf (a + 512 * j) ≠ .tarn c o) ∧
    s.readsPoison (a + 512 * j) (min 512 (len - 512 * j)) = false) :
    State.barPieces f x a len u count k s = { s with out := s.out ++ (List.range' k count).map (s.barPiece f a len) } := by
  induction count generalizing k s with
  | zero => simp [State.barPieces]
  | succ count ih =>
    obtain ⟨hplace, hpoison⟩ := hclean k (le_refl k) (by omega)
    rw [barPieces_memory count k hplace hpoison, ih (k + 1) (s.emit (s.barPiece f a len k)) fun j hj hlt => hclean j (by omega) (by omega), List.range'_succ, List.map_cons,
      State.emit_out, List.append_assoc, List.singleton_append, List.map_congr_left fun j _ => emit_barPiece (s.barPiece f a len k) j]
    rfl

/-- A row that can be read is answered with its data. -/
theorem barPieces_row {c o : Nat} {tagged : Bool} (hplace : placeOf a = .tarn c o) (hcover : s.coverOf c (o / 512) (some x) .dmaRead = some tagged)
    (hready : Readable s c (o / 512) tagged u) : ∃ t, State.barPieces f x a len u 1 0 s = t ∧ OnlyRow s t c (o / 512) ∧
      t.out = s.out ++ [.bar f 0 512 (s.trow c (o / 512)).data] ∧
      t.trow c (o / 512) = { s.trow c (o / 512) with syndrome := 0, tag := if tagged then .empty else (s.trow c (o / 512)).tag } := by
  obtain ⟨t, hdone, honly, hrow⟩ := rowAccess_reads hready false 0
  simp only [Bool.false_eq_true, if_false, and_true] at hdone hrow
  have hpieces : State.barPieces f x a len u 1 0 s = t.emit (.bar f 0 512 (s.trow c (o / 512)).data) := by
    rw [State.barPieces]
    simp only [Nat.mul_zero, Nat.add_zero, hplace, hcover, Option.getD_some, hdone, State.barPieces]
    rfl
  refine ⟨_, hpieces, honly, ?_, hrow⟩
  rw [State.emit_out, rowAccess_out hdone]

end

section
variable {f off len : Nat} {u : Upset} {s : State}

/-- A host access that its link can bring: of a function, of a size and within its aperture. -/
def State.barFits (s : State) (f off len most : Nat) : Prop :=
  f < 1024 ∧ (s.link (fnLink f)).up = true ∧ 0 < len ∧ len ≤ most ∧ off + len ≤ 2 ^ 36

section
variable {trusted : Bool} (hfits : s.barFits f off len 4096)
include hfits

theorem exec_bar2Read : exec (.bar2Read f trusted off len u) s =
    if !s.trustOk f trusted then .next (s.emit (.bar f barUnsupported 0 0))
    else if (s.link (fnLink f)).blocked then .next (s.emit (.bar f barAbort 0 0))
    else match s.apertureOf f with
      | none => .next (s.emit (.bar f barAbort 0 0))
      | some x =>
        if s.barMay x (s.apertureAt f off) len false then .next (State.barPieces f x (s.apertureAt f off) len u ((len + 511) / 512) 0 s)
        else .next (s.emit (.bar f barAbort 0 0)) := by
  obtain ⟨hf, hup, hpos, hmost, hin⟩ := hfits
  refine (if_neg ?_).trans rfl
  simp only [hup, Bool.true_eq_false, false_or]
  omega

theorem bar2Read_untrusted (htrust : s.trustOk f trusted = false) :
    ∃ t : State, exec (.bar2Read f trusted off len u) s = .next t ∧ { t with out := s.out } = s ∧ t.out = s.out ++ [.bar f 3 0 0] :=
  ⟨_, (exec_bar2Read hfits).trans (if_pos (by simp [htrust])), emit_bar_reply s _⟩

variable (htrust : s.trustOk f trusted = true)
include htrust

theorem bar2Read_aborts (hrefused : (s.link (fnLink f)).blocked = true ∨ s.apertureOf f = none ∨
    ∃ x, s.apertureOf f = some x ∧ s.barMay x (s.apertureAt f off) len false = false) :
    ∃ t : State, exec (.bar2Read f trusted off len u) s = .next t ∧ { t with out := s.out } = s ∧ t.out = s.out ++ [.bar f 1 0 0] := by
  refine ⟨s.emit (.bar f barAbort 0 0), ?_, emit_bar_reply s _⟩
  rw [exec_bar2Read hfits, if_neg (by simp [htrust])]
  by_cases hblocked : (s.link (fnLink f)).blocked = true
  · exact if_pos hblocked
  · rw [if_neg hblocked]
    rcases hrefused.resolve_left hblocked with hnone | ⟨x, hx, hmay⟩
    · rw [hnone]
    · rw [hx]
      exact if_neg (ne_true_of_eq_false hmay)

variable (hblocked : (s.link (fnLink f)).blocked = false) {x : Nat} (hx : s.apertureOf f = some x)
  (hmay : s.barMay x (s.apertureAt f off) len false = true)
include hblocked hx hmay

theorem exec_bar2Read_checked : exec (.bar2Read f trusted off len u) s =
    .next (State.barPieces f x (s.apertureAt f off) len u ((len + 511) / 512) 0 s) := by
  rw [exec_bar2Read hfits, if_neg (by simp [htrust]), if_neg (ne_true_of_eq_false hblocked), hx]
  exact if_pos hmay

theorem bar2Read_memory (hclean : ∀ k, k < (len + 511) / 512 → (∀ c o, placeOf (s.apertureAt f off + 512 * k) ≠ .tarn c o) ∧
    s.readsPoison (s.apertureAt f off + 512 * k) (min 512 (len - 512 * k)) = false) :
    ∃ t : State, exec (.bar2Read f trusted off len u) s = .next t ∧ { t with out := s.out } = s ∧
      t.out = s.out ++ (List.range ((len + 511) / 512)).map (s.barPiece f (s.apertureAt f off) len) := by
  refine ⟨_, exec_bar2Read_checked hfits htrust hblocked hx hmay, ?_⟩
  rw [barPieces_answers _ 0 s fun j _ hj => hclean j (by omega), List.range_eq_range']
  exact ⟨rfl, rfl⟩

theorem bar2Read_row {c o : Nat} {tagged : Bool} (hplace : placeOf (s.apertureAt f off) = .tarn c o) (hlen : len = 512)
    (hcover : s.coverOf c (o / 512) (some x) .dmaRead = some tagged) (hready : Readable s c (o / 512) tagged u) :
    ∃ t : State, exec (.bar2Read f trusted off len u) s = .next t ∧ OnlyRow s t c (o / 512) ∧
      t.out = s.out ++ [.bar f 0 512 (s.trow c (o / 512)).data] ∧
      t.trow c (o / 512) = { s.trow c (o / 512) with syndrome := 0, tag := if tagged then .empty else (s.trow c (o / 512)).tag } := by
  subst hlen
  obtain ⟨t, hpieces, hkeeps⟩ := barPieces_row (f := f) (len := 512) hplace hcover hready
  exact ⟨t, (exec_bar2Read_checked hfits htrust hblocked hx hmay).trans (congrArg _ hpieces), hkeeps⟩

end

/-! ## Host writes through the aperture (R308, R382, R454, R547) -/

section
variable {trusted : Bool} {d : Row}

theorem exec_bar2Write_dropped (h : s.trustOk f trusted = false ∨ (s.link (fnLink f)).blocked = true) :
    exec (.bar2Write f trusted off len d) s = .next s :=
  if_pos (.inr (.inr (by rcases h with h | h <;> simp [h])))

/-- A write to a row is journalled, and changes no other row (R308). -/
theorem dmaPut_row {x a n c o : Nat} {tagged : Bool} (hplace : placeOf a = .tarn c o) (hcover : s.coverOf c (o / 512) (some x) .dmaWrite = some tagged)
    (hready : Writable s c (o / 512) tagged) : ∃ t, s.dmaPut x a n d = .ok t ∧ RowWritten s t c (o / 512) d := by
  obtain ⟨t, hdone, ⟨hrows, hmem, hpoison⟩, hrow⟩ := rowAccess_writes hready d .none
  refine ⟨t.record (s.ctx x).part x 8 (.hostData a n d), ?_, ⟨fun k hk => ?_, (State.record_mem _ _ _ _ _).trans hmem,
    (State.record_poison _ _ _ _ _).trans hpoison⟩, (State.record_trow _ _ _ _ _ _ _).trans hrow⟩
  · unfold State.dmaPut
    simp only [hplace, hcover, Option.getD_some, hdone]
  · rw [State.record_tarn, hrows k hk]

variable (hfits : s.barFits f off len 512) (htrust : s.trustOk f trusted = true) (hblocked : (s.link (fnLink f)).blocked = false)
include hfits htrust hblocked

theorem exec_bar2Write : exec (.bar2Write f trusted off len d) s = match s.apertureOf f with
    | none => .next (s.note 0x3203 { part := (s.link (fnLink f)).part.getD 31, detail := [s.apertureAt f off] })
    | some x =>
      if s.barMay x (s.apertureAt f off) len true then
        match placeOf (s.apertureAt f off) with
        | .tarn _ _ => (match s.dmaPut x (s.apertureAt f off) len d with
            | .ok t => .next t
            | .wait => .next (s.barDrop x (s.apertureAt f off))
            | .bad t c n => .next ((t.integrityEvent c n).barDrop x (s.apertureAt f off)))
        | _ => .next (s.writeMem (s.apertureAt f off) (d.toNat % 256 ^ len) len)
      else .next (s.barDrop x (s.apertureAt f off)) := by
  obtain ⟨hf, hup, hpos, hmost, hin⟩ := hfits
  refine (if_neg ?_).trans rfl
  simp only [hup, htrust, hblocked, Bool.true_eq_false, Bool.false_eq_true, false_or]
  omega

theorem bar2Write_unmapped (hnone : s.apertureOf f = none) :
    ∃ t : State, exec (.bar2Write f trusted off len d) s = .next t ∧ OnlyReports s t ∧ Logged t 0x3203 := by
  refine ⟨_, ?_, onlyReports_note s 0x3203 { part := (s.link (fnLink f)).part.getD 31, detail := [s.apertureAt f off] }, logged_note _ _ _⟩
  rw [exec_bar2Write hfits htrust hblocked, hnone]

variable {x : Nat} (hx : s.apertureOf f = some x)
include hx

/-- A write the context's rights refuse is fatal to the context. -/
theorem bar2Write_refused (hmay : s.barMay x (s.apertureAt f off) len true = false) :
    ∃ t : State, exec (.bar2Write f trusted off len d) s = .next t ∧ t.tarn = s.tarn ∧ (t.ctx x).st = .killing := by
  have hlive : (s.ctx x).st ≠ .free := by
    intro hfree
    unfold State.apertureOf at hx
    dsimp only at hx
    split at hx
    next howns =>
      obtain rfl : (s.fn f).apertureCtx = x := Option.some.inj hx
      simp [State.ownsCtx, hfree] at howns
    next => exact absurd hx (by simp)
  refine ⟨s.barDrop x (s.apertureAt f off), ?_, State.contextFatal_tarn _ _ _ _, (contextFatal_keeps s x _ _).2 hlive⟩
  rw [exec_bar2Write hfits htrust hblocked, hx]
  exact if_neg (ne_true_of_eq_false hmay)

variable (hmay : s.barMay x (s.apertureAt f off) len true = true)
include hmay

theorem bar2Write_memory (hplace : ∀ c o, placeOf (s.apertureAt f off) ≠ .tarn c o) :
    ∃ t : State, exec (.bar2Write f trusted off len d) s = .next t ∧ StoresBytes s t (s.apertureAt f off) len d := by
  refine ⟨s.writeMem (s.apertureAt f off) (d.toNat % 256 ^ len) len, ?_, State.writeMem_tarn _ _ _ _, fun b => ?_⟩
  · rw [exec_bar2Write hfits htrust hblocked, hx]
    refine (if_pos hmay).trans ?_
    split
    next c o h => exact absurd h (hplace c o)
    next => rfl
  · rw [writeMem_byte]
    split
    next hb => exact ofNat_mod_div (by omega)
    next => rfl

theorem bar2Write_row {c o : Nat} {tagged : Bool} (hplace : placeOf (s.apertureAt f off) = .tarn c o)
    (hcover : s.coverOf c (o / 512) (some x) .dmaWrite = some tagged) (hready : Writable s c (o / 512) tagged) :
    ∃ t : State, exec (.bar2Write f trusted off len d) s = .next t ∧ RowWritten s t c (o / 512) d := by
  obtain ⟨t, hput, hwritten⟩ := dmaPut_row (n := len) (d := d) hplace hcover hready
  refine ⟨t, ?_, hwritten⟩
  rw [exec_bar2Write hfits htrust hblocked, hx]
  refine (if_pos hmay).trans ?_
  rw [hplace, hput]

end

end

/-- Settles O28: configuration requests, then reads and writes through the aperture in the order of their checks. -/
theorem hostPortRequests : Obligations.HostPortRequests := by
  unfold Obligations.HostPortRequests
  refine ⟨fun die s => ⟨configurationRequest_answers, exec_configurationRequest_reset⟩, fun f off len trusted u s hf hup hpos hmost hin => ?_,
    fun f off len trusted d s hf hup hpos hmost hin => ?_⟩
  · have hfits : s.barFits f off len 4096 := ⟨hf, hup, hpos, hmost, hin⟩
    exact ⟨bar2Read_untrusted hfits, bar2Read_aborts hfits, fun x htrust hblocked hx hmay => ⟨bar2Read_memory hfits htrust hblocked hx hmay,
      fun c o tagged => bar2Read_row hfits htrust hblocked hx hmay⟩⟩
  · have hfits : s.barFits f off len 512 := ⟨hf, hup, hpos, hmost, hin⟩
    exact ⟨exec_bar2Write_dropped, fun htrust hblocked => ⟨bar2Write_unmapped hfits htrust hblocked, fun x hx => ⟨bar2Write_refused hfits htrust hblocked hx,
      bar2Write_memory hfits htrust hblocked hx, fun c o tagged hmay hplace _ => bar2Write_row hfits htrust hblocked hx hmay hplace⟩⟩⟩

end Sys2Proof.Machine

namespace Sys2Proof.Machine
open Sys2Proof

/-! ## Devices on a CXL port and the keys of its link (R350, R351, R353, R445, R453) -/

/-- A port whose link is up. -/
def State.cxlUp (s : State) (port : Nat) : State := s.setCxl port { s.cxl port with up := true }

/-- A port whose link is up, with one device more. -/
def State.cxlAdded (s : State) (port : Nat) (d : CxlDevice) : State :=
  (s.cxlUp port).modCxl port (fun v => { v with devices := v.devices ++ [d], classical := v.classical || (s.cxlTrusted d && d.classicalOnly) })

/-- A device that was not there is enumerated. -/
theorem cxlDevice_new {s : State} {port : Nat} {d : CxlDevice} (hnew : (s.cxl port).devices.any (fun o => o.id == d.id) = false) :
    s.cxlDevice port d = match s.cxlReason port d with
      | some why => ((s.cxlUp port).modCxl port (fun v => { v with unconfigured := v.unconfigured ++ [d.id] })).note 0x0701 { detail := [port, d.id, why] }
      | none =>
        if (s.cxl port).ideRequired then (s.cxlAdded port d).keyPort port else s.cxlAdded port d := by
  unfold State.cxlDevice
  rw [hnew]
  rfl

/-- A device is wanted on a port, as R351 says. -/
def State.cxlWanted (s : State) (port : Nat) (d : CxlDevice) : Prop :=
  d.flit256 = true ∧ d.mem = true ∧ d.logicalDevices ≤ 1 ∧ (s.cxl port).devices.length < 8

/-- A device is configured where it is wanted and has authenticated itself, if that is required. -/
theorem cxlReason_none_iff {s : State} {port : Nat} {d : CxlDevice} :
    s.cxlReason port d = none ↔ s.cxlWanted port d ∧ ((s.cxl port).ideRequired = true → s.cxlTrusted d = true) := by
  unfold State.cxlReason State.cxlWanted
  split_ifs <;> simp_all

theorem cxlDevice_configured {s : State} {port : Nat} {d : CxlDevice} (hnew : (s.cxl port).devices.any (fun o => o.id == d.id) = false)
    (hwanted : s.cxlWanted port d) (htrust : (s.cxl port).ideRequired = true → s.cxlTrusted d = true) :
    s.cxlDevice port d =
      if (s.cxl port).ideRequired then (s.cxlAdded port d).keyPort port else s.cxlAdded port d := by
  rw [cxlDevice_new hnew, cxlReason_none_iff.mpr ⟨hwanted, htrust⟩]

theorem cxlDevice_unconfigured {s : State} {port : Nat} {d : CxlDevice} (hnew : (s.cxl port).devices.any (fun o => o.id == d.id) = false)
    (hno : ¬ (s.cxlWanted port d ∧ ((s.cxl port).ideRequired = true → s.cxlTrusted d = true))) :
    NoStore s (s.cxlDevice port d) ∧ Logged (s.cxlDevice port d) 0x0701 ∧ ((s.cxlDevice port d).cxl port).devices = (s.cxl port).devices ∧
      ((s.cxlDevice port d).cxl port).unconfigured = (s.cxl port).unconfigured ++ [d.id] := by
  obtain ⟨why, hwhy⟩ := Option.ne_none_iff_exists'.mp (mt cxlReason_none_iff.mp hno)
  have hdevice := cxlDevice_new hnew
  rw [hwhy] at hdevice
  have hstore : NoStore s ((s.cxlUp port).modCxl port (fun v => { v with unconfigured := v.unconfigured ++ [d.id] })) := ⟨rfl, rfl, rfl⟩
  rw [hdevice]
  refine ⟨hstore.trans (noStore_note _ _ _), logged_note _ _ _, ?_, ?_⟩ <;> simp [State.cxlUp]

/-- What a new key changes: the port's key and the time of it; the key is sent to the devices. -/
theorem keyPort_effect (s : State) (port : Nat) :
    { s.keyPort port with cxlPorts := s.cxlPorts, fresh := s.fresh, out := s.out } = s ∧
      (s.keyPort port).cxl port = { s.cxl port with ideKey := some (Config.newKey s.fresh), rekeyTick := s.now } ∧
      (s.keyPort port).out = s.out ++ [.cxlKey port (Config.newKey s.fresh)] :=
  ⟨rfl, State.setCxl_cxl_same _ _ _, rfl⟩

theorem exec_cxlLinkUp {s : State} {port : Nat} (d : CxlDevice) (hport : port < 8) (hthere : s.cxlAbsent port = false) :
    exec (.cxlLinkUp port d) s = .next (s.cxlDevice port d) := if_pos ⟨hport, hthere⟩

theorem exec_cxlLinkUp_idle {s : State} {port : Nat} (d : CxlDevice) (hno : 8 ≤ port ∨ s.cxlAbsent port = true) :
    exec (.cxlLinkUp port d) s = .next s := if_neg fun ⟨hport, hthere⟩ => by simp_all; omega

theorem cxlLinkUp_plain {s : State} {port : Nat} {d : CxlDevice} (hnew : (s.cxl port).devices.any (fun o => o.id == d.id) = false)
    (hwanted : s.cxlWanted port d) (hide : (s.cxl port).ideRequired = false) :
    { s.cxlDevice port d with cxlPorts := s.cxlPorts } = s ∧ ((s.cxlDevice port d).cxl port).devices = (s.cxl port).devices ++ [d] ∧
      ∀ q, q ≠ port → (s.cxlDevice port d).cxl q = s.cxl q := by
  rw [cxlDevice_configured hnew hwanted (fun h => absurd (hide.symm.trans h) Bool.false_ne_true), hide]
  refine ⟨rfl, ?_, fun q hq => ?_⟩
  · simp [State.cxlAdded, State.cxlUp]
  · simp [State.cxlAdded, State.cxlUp, hq]

theorem cxlLinkUp_keyed {s : State} {port : Nat} {d : CxlDevice} (hnew : (s.cxl port).devices.any (fun o => o.id == d.id) = false)
    (hwanted : s.cxlWanted port d) (hide : (s.cxl port).ideRequired = true) (htrust : s.cxlTrusted d = true) :
    { s.cxlDevice port d with cxlPorts := s.cxlPorts, fresh := s.fresh, out := s.out } = s ∧
      ((s.cxlDevice port d).cxl port).devices = (s.cxl port).devices ++ [d] ∧
      ∃ key, ((s.cxlDevice port d).cxl port).ideKey = some key ∧ (s.cxlDevice port d).out = s.out ++ [.cxlKey port key] := by
  have hdevice : s.cxlDevice port d = (s.cxlAdded port d).keyPort port := (cxlDevice_configured hnew hwanted (fun _ => htrust)).trans (if_pos hide)
  rw [hdevice]
  have hadded : { s.cxlAdded port d with cxlPorts := s.cxlPorts } = s := rfl
  have hdevs : ((s.cxlAdded port d).cxl port).devices = (s.cxl port).devices ++ [d] := by simp [State.cxlAdded, State.cxlUp]
  have houts : (s.cxlAdded port d).out = s.out := rfl
  generalize s.cxlAdded port d = u at *
  obtain ⟨hsame, hport, hout⟩ := keyPort_effect u port
  refine ⟨?_, ?_, Config.newKey u.fresh, ?_, ?_⟩
  · calc { u.keyPort port with cxlPorts := s.cxlPorts, fresh := s.fresh, out := s.out }
      _ = { { u.keyPort port with cxlPorts := u.cxlPorts, fresh := u.fresh, out := u.out } with cxlPorts := s.cxlPorts, fresh := s.fresh, out := s.out } := rfl
      _ = { u with cxlPorts := s.cxlPorts, fresh := s.fresh, out := s.out } := by rw [hsame]
      _ = { { u with cxlPorts := s.cxlPorts } with fresh := s.fresh, out := s.out } := rfl
      _ = s := by rw [hadded]
  · rw [hport]
    exact hdevs
  · rw [hport]
  · rw [hout, houts]

theorem cxlLinkUp_known {s : State} {port : Nat} {d : CxlDevice} (hknown : (s.cxl port).devices.any (fun o => o.id == d.id) = true) :
    s.cxlDevice port d = s.cxlUp port := if_pos hknown

theorem cxlTrusted_rootHash {s : State} {d : CxlDevice} (h : s.cxlTrusted d = true) : d.rootHash ≠ 0 := by
  simp only [State.cxlTrusted, Bool.and_eq_true, decide_eq_true_eq] at h
  exact h.1.2

theorem exec_cxlIdeRekey {s : State} {port : Nat} (hup : (s.cxl port).up = true) (hkey : (s.cxl port).ideKey.isSome)
    (hdue : (s.cxl port).rekeyTick + (s.cxl port).ideRekey * 3600 * ticksPerS ≤ s.now) : exec (.cxlIdeRekey port) s = .next (s.keyPort port) :=
  if_pos (by simp [hup, hkey, hdue])

theorem exec_cxlIdeRekey_idle {s : State} {port : Nat} (hno : (s.cxl port).up = false ∨ (s.cxl port).ideKey = none ∨
    s.now < (s.cxl port).rekeyTick + (s.cxl port).ideRekey * 3600 * ticksPerS) : exec (.cxlIdeRekey port) s = .next s := by
  refine if_neg ?_
  rcases hno with h | h | h <;> simp [h]

/-! ## Perimeter entries leave windows alone -/

/-- Nothing is stored, and no window changes. -/
def KeepsWindows (s t : State) : Prop := NoStore s t ∧ t.windows = s.windows

theorem keepsWindows_fixPerim (s : State) (r die : Nat) : KeepsWindows s (s.fixPerim r die) := by
  obtain ⟨hstore, -⟩ := onlyLinks_fixPerim s r die
  refine ⟨hstore, ?_⟩
  unfold State.fixPerim
  dsimp only
  split
  · rw [State.note_windows]
  · rfl

theorem keepsWindows_fixPerims (s : State) (dies : List Nat) : KeepsWindows s (s.fixPerims dies) := by
  have htrans {s t u : State} (hst : KeepsWindows s t) (htu : KeepsWindows t u) : KeepsWindows s u :=
    ⟨hst.1.trans htu.1, htu.2.trans hst.2⟩
  have hdie (t : State) (d : Nat) : KeepsWindows t ((List.range 16).foldl (fun (t : State) r => t.fixPerim r d) t) :=
    List.foldlRecOn (motive := KeepsWindows t) _ _ ⟨.refl t, rfl⟩ fun u hu r _ => htrans hu (keepsWindows_fixPerim u r d)
  exact List.foldlRecOn (motive := KeepsWindows s) dies _ ⟨.refl s, rfl⟩ fun u hu d _ => htrans hu (hdie u d)

theorem KeepsWindows.win {s t : State} (h : KeepsWindows s t) (j : Nat) : t.win j = s.win j := by
  rw [State.win_def, h.2, ← State.win_def]

theorem NoStore.rawByte {s t : State} (h : NoStore s t) (a : Nat) : t.rawByte a = s.rawByte a := by
  obtain ⟨-, hmem, -⟩ := h
  unfold State.rawByte
  rw [hmem]

/-! ## The life of a window (R351 to R354, Table 11.4) -/

theorem windowCreate_effect {s : State} {w p base size : Nat} {devs : List Nat} (hok : s.windowOk w p base size devs = true) :
    ∃ t : State, exec (.windowCreate w p base size devs) s = .next t ∧ NoStore s t ∧
      t.win w = { st := .zeroing, part := p, base := base, size := size, devs := sortNat devs } ∧ ∀ j, j ≠ w → t.win j = s.win j := by
  have hkeeps := keepsWindows_fixPerims (s.setWin w { st := .zeroing, part := p, base := base, size := size, devs := sortNat devs }) [8, 9, 10, 11]
  refine ⟨_, if_pos hok, hkeeps.1, ?_, fun j hj => ?_⟩
  · rw [hkeeps.win, State.setWin_win_same]
  · rw [hkeeps.win, State.setWin_win_ne _ _ _ _ hj]

theorem exec_windowCreate_idle {s : State} {w p base size : Nat} {devs : List Nat} (hno : s.windowOk w p base size devs = false) :
    exec (.windowCreate w p base size devs) s = .next s := if_neg (ne_true_of_eq_false hno)

theorem clearWindow_inside (s : State) (v : Window) {a : Nat} (hlo : v.lo ≤ a) (hhi : a < v.lo + v.bytes) : (s.clearWindow v).rawByte a = 0 := by
  unfold State.rawByte State.clearWindow
  rw [Tbl.get_drop, if_pos (by simp [hlo, hhi])]

theorem clearWindow_outside (s : State) (v : Window) {a : Nat} (hout : a < v.lo ∨ v.lo + v.bytes ≤ a) : (s.clearWindow v).rawByte a = s.rawByte a := by
  have hno : ¬ (decide (v.lo ≤ a) && decide (a < v.lo + v.bytes)) = true := by
    simp only [Bool.and_eq_true, decide_eq_true_eq]
    omega
  unfold State.rawByte State.clearWindow
  rw [Tbl.get_drop, if_neg hno]

theorem windowZeroingDone_effect {s : State} {w : Nat} (hst : (s.win w).st = .zeroing) :
    ∃ t : State, exec (.windowZeroingDone w) s = .next t ∧ Logged t 0x0702 ∧ t.win w = { s.win w with st := .online } ∧
      NoStore (s.clearWindow (s.win w)) t := by
  have hstore : NoStore (s.clearWindow (s.win w)) ((s.clearWindow (s.win w)).setWin w { s.win w with st := .online }) := ⟨rfl, rfl, rfl⟩
  refine ⟨_, if_pos hst, logged_note _ _ _, ?_, hstore.trans (noStore_note _ _ _)⟩
  rw [State.note_win, State.setWin_win_same]

theorem exec_windowZeroingDone_idle {s : State} {w : Nat} (hst : (s.win w).st ≠ .zeroing) : exec (.windowZeroingDone w) s = .next s := if_neg hst

theorem windowOffline_effect {s : State} {w : Nat} (hst : (s.win w).st = .online) (hnone : s.windowPages (s.win w) = 0) :
    ∃ t : State, exec (.windowOffline w) s = .next t ∧ { t with pages := s.pages, zeroRuns := s.zeroRuns, windows := s.windows } = s ∧
      t.win w = { s.win w with st := .offline } :=
  ⟨_, (if_pos hst).trans (if_pos hnone), rfl, State.setWin_win_same _ _ _⟩

theorem windowOffline_refused {s : State} {w : Nat} (hst : (s.win w).st = .online) (hsome : s.windowPages (s.win w) ≠ 0) :
    ∃ t : State, exec (.windowOffline w) s = .next t ∧ OnlyReports s t ∧ Logged t 0x0703 :=
  ⟨_, (if_pos hst).trans (if_neg hsome), onlyReports_note _ _ _, logged_note _ _ _⟩

theorem exec_windowOffline_idle {s : State} {w : Nat} (hst : (s.win w).st ≠ .online) : exec (.windowOffline w) s = .next s := if_neg hst

/-- A window is free, with its bytes zero and none of its pages left. -/
def State.windowDropped (s : State) (w : Nat) : State :=
  let t := s.clearWindow (s.win w)
  { t with pages := Tbl.drop (fun g => inRun g (s.win w).run) t.pages,
           zeroRuns := t.zeroRuns.filter (fun z => !runsMeet z (s.win w).run) }.setWin w {}

theorem windowDelete_effect {s : State} {w : Nat} (hst : (s.win w).st = .offline ∨ (s.win w).st = .lost) :
    ∃ t : State, exec (.windowDelete w) s = .next t ∧ t.win w = {} ∧ (∀ j, j ≠ w → t.win j = s.win j) ∧
      NoStore (s.clearWindow (s.win w)) t := by
  have hkeeps := keepsWindows_fixPerims (s.windowDropped w) [8, 9, 10, 11]
  have hstore : NoStore (s.clearWindow (s.win w)) (s.windowDropped w) := ⟨rfl, rfl, rfl⟩
  refine ⟨_, if_pos hst, ?_, fun j hj => ?_, hstore.trans hkeeps.1⟩
  · exact (hkeeps.win w).trans (State.setWin_win_same _ _ _)
  · exact (hkeeps.win j).trans (State.setWin_win_ne _ _ _ _ hj)

theorem exec_windowDelete_idle {s : State} {w : Nat} (hoff : (s.win w).st ≠ .offline) (hlost : (s.win w).st ≠ .lost) :
    exec (.windowDelete w) s = .next s := if_neg fun h => h.elim hoff hlost

/-! ## The loss of a window's devices (R332, R355) -/

theorem noted_kills (s : State) (x code : Nat) (src : Source) (y : Nat) : (s.ctx y).Kills ((s.fatalNoted x code src).ctx y) := by
  have hjournals := (onlyJournals_note s code { src with ctx := some x }).trans (onlyJournals_endLaunch _ x code (src.detail.headD 0))
  have hst := hjournals.ctx_field Ctx.st (fun _ _ => rfl) y
  have hfn := hjournals.ctx_field Ctx.fn (fun _ _ => rfl) y
  unfold State.fatalNoted
  generalize (s.note code { src with ctx := some x }).endLaunch x code (src.detail.headD 0) = t at *
  rw [State.modCtx_eq, State.setCtx_ctx]
  split
  next hy =>
    rw [hy] at hst hfn ⊢
    exact ⟨hfn, .inl hst⟩
  next => exact ⟨hfn, .inl hst⟩

/-- A context-fatal error kills at most the context it names. -/
theorem contextFatal_kills (s : State) (x code : Nat) (src : Source) (y : Nat) : (s.ctx y).Kills ((s.contextFatal x code src).ctx y) := by
  have hnoted : (s.ctx y).Kills ((s.note code { src with ctx := some x }).ctx y) := by
    rw [State.note_ctx]
    exact .refl _
  unfold State.contextFatal
  dsimp only
  split
  · exact hnoted
  · exact hnoted
  · obtain ⟨hreset, -⟩ := resetting_killStart (s.fatalNoted x code src) x none
    exact (noted_kills s x code src y).trans (hreset.ctxs y)

/-- Context-fatal errors for a list of contexts: each of them that exists is killed, no window changes. -/
theorem fatalAll_kills (l : List Nat) (code : Nat) (src : Source) (s : State) :
    (l.foldl (fun (t : State) x => t.contextFatal x code src) s).windows = s.windows ∧
      ∀ x ∈ l, (s.ctx x).st ≠ .free → ((l.foldl (fun (t : State) x => t.contextFatal x code src) s).ctx x).st = .killing := by
  refine ⟨List.foldlRecOn (motive := fun t : State => t.windows = s.windows) l _ rfl fun t ht y _ => ?_, fun x hx hlive => ?_⟩
  · rw [State.contextFatal_windows, ht]
  · refine foldl_reach (I := fun t : State => (t.ctx x).st ≠ .free) (P := fun t : State => (t.ctx x).st = .killing)
      (fun t y _ ht => (contextFatal_kills t y code src x).live ht) (fun t y _ _ ht => (contextFatal_kills t y code src x).killing ht)
      (fun t ht => ?_) hx hlive
    obtain ⟨-, hkill⟩ := contextFatal_keeps t x code src
    exact hkill ht

/-- A window that exists and is not yet lost is LOST after its loss, and the contexts with pages in it are killed. -/
theorem loseWindow_live {s : State} {w : Nat} (hlive : (s.win w).st ≠ .free) (hlost : (s.win w).st ≠ .lost) :
    (s.loseWindow w).windows = (s.setWin w { s.win w with st := .lost }).windows ∧
      ∀ x, (s.ctx x).st ≠ .free → (s.ctx x).part = (s.win w).part → s.ownsIn x (s.win w).run = true → ((s.loseWindow w).ctx x).st = .killing := by
  have hlose : s.loseWindow w = ((s.ctxsOf (s.win w).part).filter (fun x => s.ownsIn x (s.win w).run)).foldl (fun (t : State) x =>
      t.contextFatal x 0x3704 { part := (s.win w).part, detail := [w] }) (s.setWin w { s.win w with st := .lost }) := by
    unfold State.loseWindow
    dsimp only
    cases hst : (s.win w).st
    case free => exact absurd hst hlive
    case lost => exact absurd hst hlost
    all_goals rfl
  obtain ⟨hwindows, hkill⟩ := fatalAll_kills ((s.ctxsOf (s.win w).part).filter (fun x => s.ownsIn x (s.win w).run)) 0x3704
    { part := (s.win w).part, detail := [w] } (s.setWin w { s.win w with st := .lost })
  rw [hlose]
  refine ⟨hwindows, fun x hx hpart howns => hkill x (List.mem_filter.mpr ⟨?_, howns⟩) hx⟩
  have hctx : Tbl.get (fun _ => {}) s.ctxs x = s.ctx x := rfl
  refine mem_keysWhere (d := fun _ => {}) ?_ (by simp)
  rw [hctx]
  simp [hpart, hx]

theorem loseWindow_idle {s : State} {w : Nat} (hst : (s.win w).st = .free ∨ (s.win w).st = .lost) : s.loseWindow w = s := by
  unfold State.loseWindow
  dsimp only
  rcases hst with h | h <;> rw [h]

theorem loseWindow_win_ne (s : State) {w j : Nat} (hj : j ≠ w) : (s.loseWindow w).win j = s.win j := by
  by_cases hst : (s.win w).st = .free ∨ (s.win w).st = .lost
  · rw [loseWindow_idle hst]
  · obtain ⟨hlive, hlost⟩ := not_or.mp hst
    obtain ⟨hwindows, -⟩ := loseWindow_live hlive hlost
    rw [State.win_def, hwindows, ← State.win_def, State.setWin_win_ne _ _ _ _ hj]

/-- A window is gone: LOST, or it never was. -/
def Window.gone (v : Window) : Prop := v.st = .lost ∨ v.st = .free

theorem loseWindow_gone (s : State) (w : Nat) : ((s.loseWindow w).win w).gone := by
  by_cases hst : (s.win w).st = .free ∨ (s.win w).st = .lost
  · rw [loseWindow_idle hst]
    exact hst.symm
  · obtain ⟨hlive, hlost⟩ := not_or.mp hst
    obtain ⟨hwindows, -⟩ := loseWindow_live hlive hlost
    rw [State.win_def, hwindows, ← State.win_def, State.setWin_win_same]
    exact .inl rfl

theorem loseWindow_keepsGone {s : State} {j : Nat} (w : Nat) (hgone : (s.win j).gone) : ((s.loseWindow w).win j).gone := by
  by_cases hj : j = w
  · exact hj ▸ loseWindow_gone s j
  · rwa [loseWindow_win_ne s hj]

theorem loseWindows_gone {l : List Nat} {j : Nat} (hj : j ∈ l) (s : State) : ((l.foldl State.loseWindow s).win j).gone :=
  foldl_reach (I := fun _ => True) (P := fun t : State => (t.win j).gone) (fun _ _ _ _ => trivial) (fun _ w _ _ => loseWindow_keepsGone w)
    (fun t _ => loseWindow_gone t j) hj trivial

/-! ## A CXL.mem timeout (R356) -/

/-- The timeouts of a port within the last second, with the one now. -/
def State.recentTimeouts (s : State) (port : Nat) : List Nat :=
  (s.cxl port).timeoutTicks.filter (fun t => decide (s.now < t + ticksPerS)) ++ [s.now]

/-- A timeout is counted. -/
def State.timeoutCounted (s : State) (port : Nat) : State :=
  s.setCxl port { s.cxl port with timeouts := satInc (s.cxl port).timeouts, timeoutTicks := s.recentTimeouts port }

/-- The request that waited longest, if any, is answered with poison. -/
def State.timeoutAnswered (s : State) (waiting : Option Packet) : State :=
  match waiting with
  | some k => if k.ptype = .memRd then ((s.removePkt k.id).poisonEvent k.index.toNat).ackTo k 3 else (s.removePkt k.id).ackTo k 3
  | none => s

theorem timeoutAnswered_keeps (s : State) (waiting : Option Packet) (port : Nat) :
    (s.timeoutAnswered waiting).cxl port = s.cxl port ∧ (s.timeoutAnswered waiting).windows = s.windows := by
  unfold State.timeoutAnswered
  split
  · split
    · exact ⟨State.poisonEvent_cxl _ _ _, State.poisonEvent_windows _ _⟩
    · exact ⟨rfl, rfl⟩
  · exact ⟨rfl, rfl⟩

theorem timeoutAnswered_write (s : State) {k : Packet} (hk : k.ptype = .memWr) : Answers (s.timeoutAnswered (some k)) k .ack 3 0 := by
  have hne : k.ptype ≠ .memRd := by simp [hk]
  unfold State.timeoutAnswered
  dsimp only
  rw [if_neg hne]
  exact answers_ackTo _ _ _

theorem exec_cxlMemTimeout {s : State} {port : Nat} (hport : port < 8) :
    exec (.cxlMemTimeout port) s =
      if 8 ≤ (s.recentTimeouts port).length then
        .next (((s.windowsOn port).foldl State.loseWindow ((s.timeoutCounted port).timeoutAnswered (s.waitingAt port))).modCxl port
          (fun v => { v with devices := [], timeoutTicks := [] }))
      else .next ((s.timeoutCounted port).timeoutAnswered (s.waitingAt port)) := if_pos hport

theorem cxlMemTimeout_few {s : State} {port : Nat} (hport : port < 8) (hfew : (s.recentTimeouts port).length < 8) :
    ∃ t : State, exec (.cxlMemTimeout port) s = .next t ∧ (t.cxl port).timeouts = satInc (s.cxl port).timeouts ∧
      (t.cxl port).timeoutTicks = s.recentTimeouts port ∧ t.windows = s.windows ∧
      ∀ k, s.waitingAt port = some k → k.ptype = .memWr → Answers t k .ack 3 0 := by
  obtain ⟨hcxl, hwindows⟩ := timeoutAnswered_keeps (s.timeoutCounted port) (s.waitingAt port) port
  have hcounted : (s.timeoutCounted port).cxl port = _ := State.setCxl_cxl_same _ _ _
  refine ⟨_, (exec_cxlMemTimeout hport).trans (if_neg hfew.not_ge), ?_, ?_, hwindows, fun k hk hwrite => ?_⟩
  · rw [hcxl, hcounted]
  · rw [hcxl, hcounted]
  · rw [hk]
    exact timeoutAnswered_write _ hwrite

theorem cxlMemTimeout_many {s : State} {port : Nat} (hport : port < 8) (hmany : 8 ≤ (s.recentTimeouts port).length) :
    ∃ t : State, exec (.cxlMemTimeout port) s = .next t ∧ (t.cxl port).devices = [] ∧ ∀ j ∈ s.windowsOn port, (t.win j).gone := by
  refine ⟨_, (exec_cxlMemTimeout hport).trans (if_pos hmany), ?_, fun j hj => ?_⟩
  · rw [State.modCxl_eq, State.setCxl_cxl_same]
  · rw [State.modCxl_eq, State.setCxl_win]
    exact loseWindows_gone hj _

theorem cxlDevices (port : Nat) (d : CxlDevice) (s : State) (hport : port < 8) (hthere : s.cxlAbsent port = false) :
    let known := (s.cxl port).devices.any (fun o => o.id == d.id)
    let wanted := d.flit256 = true ∧ d.mem = true ∧ d.logicalDevices ≤ 1 ∧ (s.cxl port).devices.length < 8
    (known = false → wanted → (s.cxl port).ideRequired = false →
      ∃ t : State, exec (.cxlLinkUp port d) s = .next t ∧ { t with cxlPorts := s.cxlPorts } = s ∧ (t.cxl port).up = true ∧
        (t.cxl port).devices = (s.cxl port).devices ++ [d] ∧ ∀ q, q ≠ port → t.cxl q = s.cxl q) ∧
    (known = false → wanted → (s.cxl port).ideRequired = true → s.cxlTrusted d = true →
      ∃ t : State, exec (.cxlLinkUp port d) s = .next t ∧ { t with cxlPorts := s.cxlPorts, fresh := s.fresh, out := s.out } = s ∧
        (t.cxl port).devices = (s.cxl port).devices ++ [d] ∧ ∃ key, (t.cxl port).ideKey = some key ∧ t.out = s.out ++ [.cxlKey port key]) ∧
    (known = false → (¬ wanted ∨ ((s.cxl port).ideRequired = true ∧ s.cxlTrusted d = false)) →
      ∃ t : State, exec (.cxlLinkUp port d) s = .next t ∧ NoStore s t ∧ Logged t 0x0701 ∧ (t.cxl port).up = true ∧
        (t.cxl port).devices = (s.cxl port).devices ∧ (t.cxl port).unconfigured = (s.cxl port).unconfigured ++ [d.id]) ∧
    (known = true → ∃ t : State, exec (.cxlLinkUp port d) s = .next t ∧ { t with cxlPorts := s.cxlPorts } = s ∧
      t.cxl port = { s.cxl port with up := true }) := by
  have hexec := exec_cxlLinkUp d hport hthere
  have hup := cxlDevice_up s port d
  refine ⟨fun hnew hwanted hide => ?_, fun hnew hwanted hide htrust => ?_, fun hnew hno => ?_, fun hknown => ?_⟩
  · obtain ⟨hsame, hdevs, hothers⟩ := cxlLinkUp_plain hnew hwanted hide
    exact ⟨_, hexec, hsame, hup, hdevs, hothers⟩
  · exact ⟨_, hexec, cxlLinkUp_keyed hnew hwanted hide htrust⟩
  · obtain ⟨hstore, hlogged, hdevs, hunconf⟩ := cxlDevice_unconfigured hnew fun ⟨hwanted, htrust⟩ => hno.elim (· hwanted) fun ⟨hide, hbad⟩ =>
      absurd (hbad.symm.trans (htrust hide)) Bool.false_ne_true
    exact ⟨_, hexec, hstore, hlogged, hup, hdevs, hunconf⟩
  · rw [hexec, cxlLinkUp_known hknown]
    exact ⟨_, rfl, rfl, State.setCxl_cxl_same _ _ _⟩

/-- Settles O26: one lemma a transition, the losses by folds that kill and lose and undo neither. -/
theorem cxlMemory : Obligations.CxlMemory := by
  unfold Obligations.CxlMemory
  refine ⟨⟨cxlDevices, fun _ d _ => exec_cxlLinkUp_idle d, fun _ _ => cxlTrusted_rootHash, fun port s => ⟨fun hup hkey hdue => ?_,
    exec_cxlIdeRekey_idle⟩⟩, fun w s => ⟨fun p base size devs hok => ?_, fun _ _ _ _ => exec_windowCreate_idle, fun hst => ?_,
    exec_windowZeroingDone_idle, windowOffline_effect, windowOffline_refused, exec_windowOffline_idle, fun hst => ?_, exec_windowDelete_idle,
    fun hst => ?_, fun hst => congrArg _ (loseWindow_idle hst), fun port hport => ⟨cxlMemTimeout_few hport, cxlMemTimeout_many hport⟩⟩⟩
  · obtain ⟨hsame, hport, hout⟩ := keyPort_effect s port
    exact ⟨_, exec_cxlIdeRekey hup hkey hdue, hsame, _, hport, hout⟩
  · obtain ⟨t, hexec, hstore, hwin, hothers⟩ := windowCreate_effect hok
    refine ⟨t, hexec, hstore, ?_⟩
    rw [hwin]
    exact ⟨rfl, rfl, rfl, rfl, sortNat_perm devs, hothers⟩
  · obtain ⟨t, hexec, hlogged, hwin, hstore⟩ := windowZeroingDone_effect hst
    exact ⟨t, hexec, hlogged, hwin, fun a hlo hhi => (hstore.rawByte a).trans (clearWindow_inside s _ hlo hhi),
      fun a hout => (hstore.rawByte a).trans (clearWindow_outside s _ hout)⟩
  · obtain ⟨t, hexec, hwin, hothers, hstore⟩ := windowDelete_effect hst
    exact ⟨t, hexec, hwin, hothers, fun a hlo hhi => (hstore.rawByte a).trans (clearWindow_inside s _ hlo hhi),
      fun a hout => (hstore.rawByte a).trans (clearWindow_outside s _ hout)⟩
  · have hlive : (s.win w).st ≠ .free := by rcases hst with h | h | h <;> simp [h]
    have hlost : (s.win w).st ≠ .lost := by rcases hst with h | h | h <;> simp [h]
    obtain ⟨hwindows, hkill⟩ := loseWindow_live hlive hlost
    refine ⟨_, rfl, ?_, fun j hj => loseWindow_win_ne s hj, hkill⟩
    rw [State.win_def, hwindows, ← State.win_def, State.setWin_win_same]

end Sys2Proof.Machine

namespace Sys2Proof.Machine
open Sys2Proof

/-! ## Bytes of a number read from memory (R8) -/

theorem readNat_lt (s : State) (a n : Nat) : s.readNat a n < 256 ^ n := by
  induction n with
  | zero => simp [State.readNat]
  | succ n ih =>
    have hbyte : (s.byte (a + n)).toNat ≤ 255 := Nat.le_of_lt_succ (s.byte (a + n)).isLt
    have hmul : (s.byte (a + n)).toNat * 256 ^ n ≤ 255 * 256 ^ n := Nat.mul_le_mul_right _ hbyte
    rw [State.readNat, Nat.pow_succ]
    omega

theorem readNat_byte (s : State) (a : Nat) {n j : Nat} (hj : j < n) : BitVec.ofNat 8 (s.readNat a n / 256 ^ j) = s.byte (a + j) := by
  induction n with
  | zero => exact absurd hj (Nat.not_lt_zero j)
  | succ n ih =>
    rw [State.readNat]
    by_cases hlast : j = n
    · have hdiv : (s.readNat a n + (s.byte (a + n)).toNat * 256 ^ n) / 256 ^ n = (s.byte (a + n)).toNat := by
        rw [Nat.add_mul_div_right _ _ (by positivity), Nat.div_eq_of_lt (readNat_lt s a n), Nat.zero_add]
      rw [hlast, hdiv, BitVec.ofNat_toNat, BitVec.setWidth_eq]
    · have hlow := ih (by omega)
      have hmod : s.readNat a n = (s.readNat a n + (s.byte (a + n)).toNat * 256 ^ n) % 256 ^ n := by
        rw [Nat.add_mul_mod_self_right, Nat.mod_eq_of_lt (readNat_lt s a n)]
      rw [← hlow]
      conv_rhs => rw [hmod, ofNat_mod_div (by omega)]

/-- A unit of at most 512 bytes written as a row's number reads back byte for byte. -/
theorem rowNat_byte (s : State) (a : Nat) {n j : Nat} (hn : n ≤ 512) (hj : j < n) :
    BitVec.ofNat 8 ((BitVec.ofNat 4096 (s.readNat a n)).toNat / 256 ^ j) = s.byte (a + j) := by
  have hlt : s.readNat a n < 2 ^ 4096 := by
    refine (readNat_lt s a n).trans_le ?_
    calc 256 ^ n ≤ 256 ^ 512 := Nat.pow_le_pow_right (by omega) hn
      _ = 2 ^ 4096 := (Nat.pow_mul 2 8 512).symm
  rw [BitVec.toNat_ofNat, Nat.mod_eq_of_lt hlt, readNat_byte s a hj]

/-! ## Units of a copy (R400) -/

theorem unitLen_le (m : Dma) (j : Nat) : m.unitLen j ≤ 512 := by
  unfold Dma.unitLen
  split
  · exact le_rfl
  · exact min_le_left _ _

/-- Without a conversion the units of both sides are of one length. -/
theorem dstUnit_len {m : Dma} (hconvert : m.convert = false) (k : Nat) : (m.dstUnit k).2 = (m.srcUnit k).2 := by
  simp [Dma.dstUnit, Dma.srcUnit, Dma.dstUnits, hconvert]

theorem srcUnit_zero (m : Dma) : m.srcUnit 0 = (m.src, m.unitLen 0) := by simp [Dma.srcUnit]

theorem elemsPerRow_pos (f : Nat) : 0 < elemsPerRow f := by
  unfold elemsPerRow elemWidth
  split <;> split <;> decide

/-- A copy that moves something has a unit to write. -/
theorem total_pos {m : Dma} (hempty : m.empty = false) (hcounts : m.countsOk = true) : 0 < m.total := by
  obtain ⟨hlength, hreps⟩ : m.length ≠ 0 ∧ m.reps ≠ 0 := by simpa [Dma.empty] using hempty
  refine Nat.mul_pos (Nat.pos_of_ne_zero hreps) ?_
  unfold Dma.dstUnits
  split
  next hconvert =>
    obtain ⟨hrows, hwhole⟩ : m.length % 512 = 0 ∧ m.length / 512 * elemsPerRow m.srcFmt % elemsPerRow m.dstFmt = 0 := by
      simpa [Dma.countsOk, hconvert] using hcounts
    have helems : 0 < m.length / 512 * elemsPerRow m.srcFmt := Nat.mul_pos (by omega) (elemsPerRow_pos _)
    exact Nat.div_pos (Nat.le_of_dvd helems (Nat.dvd_of_mod_eq_zero hwhole)) (elemsPerRow_pos _)
  next =>
    unfold Dma.srcUnits
    omega

/-! ## What a copy does next -/

section
variable {m : Dma} {e : Prog}

theorem dmaNext_tag (htag : 0 < m.tagOp) (hmore : e.moved < m.total) : dmaNext m e = .write := by
  unfold dmaNext
  rw [if_pos htag, if_pos hmore]

theorem dmaNext_read (htag : m.tagOp = 0) (hconvert : m.convert = false) (hmore : e.moved < m.total) (hread : e.read ≤ e.moved) :
    dmaNext m e = .read := by
  simp [dmaNext, htag, hconvert, Nat.not_le.mpr hmore, hread]

theorem dmaNext_put (htag : m.tagOp = 0) (hconvert : m.convert = false) (hmore : e.moved < m.total) (hread : e.moved < e.read) :
    dmaNext m e = .write := by
  simp [dmaNext, htag, hconvert, Nat.not_le.mpr hmore, Nat.not_le.mpr hread]

theorem dmaNext_done (htag : m.tagOp = 0) (hconvert : m.convert = false) (hall : m.total ≤ e.moved) : dmaNext m e = .done := by
  simp [dmaNext, htag, hconvert, hall]

/-- A copy that has not begun reads its first source scales or its first unit, or sets its first tag. -/
theorem dmaNext_first (htotal : 0 < m.total) (hread : e.read = 0) (hmoved : e.moved = 0) (hscale : e.scaleRead = 0) (hout : e.scaleOut = []) :
    dmaNext m e ≠ .done ∧ ∀ a n, dmaReads m e = some (a, n) → a = m.srcScale ∨ a = m.src := by
  unfold dmaReads dmaNext
  have hpos := elemsPerRow_pos m.dstFmt
  simp only [hread, hmoved, hscale, hout, srcUnit_zero, List.length_nil, List.isEmpty_nil, Nat.not_le.mpr htotal, htotal]
  split_ifs <;> simp_all

end

/-! ## What a copy sends, and its end (R399, R400) -/

/-- A descriptor that waits for the host to answer its read. -/
def Prog.asked (now : Nat) (e : Prog) : Prog := { e with hostSince := some now }

section
variable {s : State} {q k x : Nat} {m : Dma} {e : Prog}

theorem dmaSettle_done (he : s.prog q k = some e) (hnext : dmaNext m e = .done) :
    s.dmaSettle q k x m = s.complete q k stOk 0 (dmaMoved m e) 0 := by
  unfold State.dmaSettle
  simp only [he, hnext]

theorem dmaSettle_going (he : s.prog q k = some e) (hnext : dmaNext m e ≠ .done) :
    s.dmaSettle q k x m = match dmaReads m e with
      | some (a, n) => (match placeOf a with
        | .host l off => if e.hostSince.isSome then s
            else (s.emit (.hostRead l ((s.ctx x).params.hostBase + off) n)).modProg q k (Prog.asked s.now)
        | _ => s)
      | none => s := by
  unfold State.dmaSettle
  simp only [he]
  cases hcase : dmaNext m e
  case done => exact absurd hcase hnext
  all_goals rfl

theorem dmaSettle_host {a n l off : Nat} (he : s.prog q k = some e) (hnext : dmaNext m e ≠ .done) (hreads : dmaReads m e = some (a, n))
    (hplace : placeOf a = .host l off) (hsince : e.hostSince = none) :
    s.dmaSettle q k x m = (s.emit (.hostRead l ((s.ctx x).params.hostBase + off) n)).modProg q k (Prog.asked s.now) := by
  rw [dmaSettle_going he hnext]
  simp only [hreads, hplace, hsince]
  rfl

theorem dmaSettle_rest (he : s.prog q k = some e) (hnext : dmaNext m e ≠ .done)
    (hplace : ∀ a n, dmaReads m e = some (a, n) → ∀ l o, placeOf a ≠ .host l o) : s.dmaSettle q k x m = s := by
  rw [dmaSettle_going he hnext]
  split
  next a n hreads =>
    split
    next l off hhost => exact absurd hhost (hplace a n hreads l off)
    next => rfl
  next => rfl

/-- A copy that goes on sends at most a read of the host. -/
theorem dmaSettle_going_cases (he : s.prog q k = some e) (hnext : dmaNext m e ≠ .done) :
    s.dmaSettle q k x m = s ∨ ∃ o, s.dmaSettle q k x m = (s.emit o).modProg q k (Prog.asked s.now) := by
  rw [dmaSettle_going he hnext]
  split
  · split
    · split
      · exact .inl rfl
      · exact .inr ⟨_, rfl⟩
    · exact .inl rfl
  · exact .inl rfl

theorem dmaSettle_prog (he : s.prog q k = some e) (hnext : dmaNext m e ≠ .done) :
    ∃ e', (s.dmaSettle q k x m).prog q k = some e' ∧ e'.moved = e.moved ∧ e'.read = e.read := by
  rcases dmaSettle_going_cases (x := x) he hnext with h | ⟨o, h⟩
  · exact ⟨e, h.symm ▸ he, rfl, rfl⟩
  · have hsent : (s.emit o).prog q k = some e := he
    exact ⟨e.asked s.now, h.symm ▸ modProg_prog (f := Prog.asked s.now) (fun _ => rfl) hsent, rfl, rfl⟩

/-- t differs from s in no row of tarn, and with completions in host memory in nothing but queue pairs and what is sent. -/
def OnlyTells (s t : State) (q : Nat) : Prop :=
  t.tarn = s.tarn ∧ (bitOf (s.qp q).cfg 32 = false → { t with qps := s.qps, out := s.out } = s)

theorem onlyTells_dmaSettle (he : s.prog q k = some e) : OnlyTells s (s.dmaSettle q k x m) q := by
  by_cases hnext : dmaNext m e = .done
  · rw [dmaSettle_done he hnext]
    exact ⟨State.complete_tarn _ _ _ _ _ _ _, complete_host _ _ _ _⟩
  · rcases dmaSettle_going_cases (x := x) he hnext with h | ⟨o, h⟩ <;> rw [h]
    · exact ⟨rfl, fun _ => rfl⟩
    · exact ⟨rfl, fun _ => rfl⟩

theorem byte_of_kept {t : State} (h : { t with qps := s.qps, out := s.out } = s) (b : Nat) : t.byte b = s.byte b := by
  have hbyte := congrArg (State.byte · b) h
  exact hbyte

theorem OnlyTells.byte {t : State} (h : OnlyTells s t q) (hhost : bitOf (s.qp q).cfg 32 = false) (b : Nat) : t.byte b = s.byte b :=
  byte_of_kept (h.2 hhost) b

theorem OnlyTells.onlyRow {r t : State} {c n : Nat} (h : OnlyTells s t q) (hhost : bitOf (s.qp q).cfg 32 = false) (hrow : OnlyRow r s c n) :
    OnlyRow r t c n := by
  obtain ⟨htarn, hkept⟩ := h
  obtain ⟨hrows, hmem, hpoison⟩ := hrow
  have hmem' := congrArg State.mem (hkept hhost)
  have hpoison' := congrArg State.poison (hkept hhost)
  exact ⟨fun j hj => by rw [htarn, hrows j hj], Eq.trans hmem' hmem, Eq.trans hpoison' hpoison⟩

end

/-! ## What a change of a descriptor leaves alone -/

section
variable {s : State} {q k : Nat} {f : Prog → Prog}

theorem modProg_kept : { s.modProg q k f with qps := s.qps } = s := rfl

theorem modProg_cfg (j : Nat) : ((s.modProg q k f).qp j).cfg = (s.qp j).cfg := by
  by_cases hj : j = q
  · rw [hj, State.modProg, State.modQp_eq, State.setQp_qp_same]
  · rw [modProg_others f hj]

theorem dmaSide_of_kept {t : State} (h : { t with qps := s.qps } = s) (x a n : Nat) (w : Bool) : t.dmaSide x a n w = s.dmaSide x a n w := by
  have hside := congrArg (State.dmaSide · x a n w) h
  exact hside

theorem byte_modProg (b : Nat) : (s.modProg q k f).byte b = s.byte b := rfl

/-- A completion seen from a state before changes of its descriptor that keep its ring index. -/
theorem completes_of_modProg {t : State} {status code result : Nat} (hf : ∀ e, (f e).k = e.k ∧ (f e).desc = e.desc)
    (h : Completes (s.modProg q k f) t q k status code result) : Completes s t q k status code result := by
  obtain ⟨hprog, hothers, hentry⟩ := h
  have hqp : (s.modProg q k f).qp q = { s.qp q with prog := (s.qp q).prog.map (fun e => if e.k = k then f e else e) } :=
    State.setQp_qp_same _ _ _
  refine ⟨?_, fun j hj => (hothers j hj).trans (modProg_others f hj), fun d hd => ?_⟩
  · rw [hprog, hqp]
    dsimp only
    induction (s.qp q).prog with
    | nil => rfl
    | cons e es ih =>
      by_cases he : e.k = k
      · simp [he, hf, ih]
      · simp [he, ih]
  · obtain ⟨e, hsent, hq, hk, hphase, htag, hrest⟩ := hentry (f d) (modProg_prog (fun e => (hf e).1) hd)
    rw [hqp] at hsent hphase
    exact ⟨e, hsent, hq, hk, hphase, by rw [htag, (hf d).2], hrest⟩

end

/-! ## DMA_COPY begins (R399, R400, R402) -/

/-- A descriptor whose copy runs. -/
def Prog.begun (e : Prog) : Prog := { e with running := true }

section
variable {s : State} {q k : Nat} {d : Desc} (h : s.startedDesc q k 2 = some d)
include h

theorem exec_dmaCopy : exec (.dmaCopy q k) s =
    if !(dmaOf d).valuesOk then .next (s.rejectDesc q k 0x0813 0)
    else if (dmaOf d).empty then .next (s.complete q k stOk 0 0 0)
    else if !(dmaOf d).aligned then .next (s.failDesc q k stAlign 0)
    else if !(dmaOf d).countsOk then .next (s.rejectDesc q k 0x0813 0)
    else if !s.dmaChecked (s.qp q).ctx (dmaOf d) then .next (s.failDesc q k stAddress 0)
    else .next ((s.modProg q k Prog.begun).dmaSettle q k (s.qp q).ctx (dmaOf d)) := by
  change execDmaCopy q k s = _
  unfold execDmaCopy
  rw [h] <;> rfl

theorem dmaCopy_checks :
    let m := dmaOf d
    let ends := fun (status code : Nat) => Ends s (.dmaCopy q k) q k status code 0
    (m.valuesOk = false → ends stRejected 0x0813) ∧
    (m.valuesOk = true → m.empty = true → ends stOk 0) ∧
    (m.valuesOk = true → m.empty = false → m.aligned = false → ends stAlign (Config.statusCode stAlign % 65536)) ∧
    (m.valuesOk = true → m.empty = false → m.aligned = true → m.countsOk = false → ends stRejected 0x0813) ∧
    (m.valuesOk = true → m.empty = false → m.aligned = true → m.countsOk = true → s.dmaChecked (s.qp q).ctx m = false →
      ends stAddress (Config.statusCode stAddress % 65536)) := by
  have hexec := exec_dmaCopy h
  refine ⟨fun hvalues => ?_, fun hvalues hempty => ?_, fun hvalues hempty haligned => ?_, fun hvalues hempty haligned hcounts => ?_,
    fun hvalues hempty haligned hcounts hchecked => ?_⟩
  · simp only [hvalues, Bool.not_false, if_true] at hexec
    exact ends_of_rejectDesc hexec
  · simp only [hvalues, hempty, Bool.not_true, if_true, Bool.false_eq_true, if_false] at hexec
    exact ⟨_, hexec, State.complete_tarn _ _ _ _ _ _ _, State.complete_clusters _ _ _ _ _ _ _, complete_completes _ _ _ _ _ _ _⟩
  · simp only [hvalues, hempty, haligned, Bool.not_true, Bool.not_false, if_true, Bool.false_eq_true, if_false] at hexec
    exact ends_of_failDesc hexec
  · simp only [hvalues, hempty, haligned, hcounts, Bool.not_true, Bool.not_false, if_true, Bool.false_eq_true, if_false] at hexec
    exact ends_of_rejectDesc hexec
  · simp only [hvalues, hempty, haligned, hcounts, hchecked, Bool.not_true, Bool.not_false, if_true, Bool.false_eq_true, if_false] at hexec
    exact ends_of_failDesc hexec

variable {o : Nat} (hvalues : (dmaOf d).valuesOk = true) (hempty : (dmaOf d).empty = false) (haligned : (dmaOf d).aligned = true)
  (hcounts : (dmaOf d).countsOk = true) (hchecked : s.dmaChecked (s.qp q).ctx (dmaOf d) = true)
  (he : s.prog q k = some { k := k, desc := d, started := true, order := o })
include hvalues hempty haligned hcounts hchecked he

/-- A copy that passes its checks runs. -/
theorem exec_dmaCopy_runs : exec (.dmaCopy q k) s =
      .next ((s.modProg q k Prog.begun).dmaSettle q k (s.qp q).ctx (dmaOf d)) ∧
    (s.modProg q k Prog.begun).prog q k = some { k := k, desc := d, started := true, running := true, order := o } := by
  refine ⟨?_, modProg_prog (f := Prog.begun) (fun _ => rfl) he⟩
  rw [exec_dmaCopy h]
  simp [hvalues, hempty, haligned, hcounts, hchecked]

theorem dmaCopy_local (hscale : ∀ l a, placeOf (dmaOf d).srcScale ≠ .host l a) (hsrc : ∀ l a, placeOf (dmaOf d).src ≠ .host l a) :
    ∃ t : State, exec (.dmaCopy q k) s = .next t ∧ { t with qps := s.qps } = s ∧
      t.prog q k = some { k := k, desc := d, started := true, running := true, order := o } := by
  obtain ⟨hexec, hprog⟩ := exec_dmaCopy_runs h hvalues hempty haligned hcounts hchecked he
  obtain ⟨hnext, hreads⟩ := dmaNext_first (m := dmaOf d) (e := { k := k, desc := d, started := true, running := true, order := o })
    (total_pos hempty hcounts) rfl rfl rfl rfl
  rw [dmaSettle_rest hprog hnext fun a n hread => (hreads a n hread).elim (fun ha => ha ▸ hscale) (fun ha => ha ▸ hsrc)] at hexec
  exact ⟨_, hexec, rfl, hprog⟩

theorem dmaCopy_host {l a : Nat} (hsrc : placeOf (dmaOf d).src = .host l a) (htag : (dmaOf d).tagOp = 0) (hconvert : (dmaOf d).convert = false) :
    ∃ t : State, exec (.dmaCopy q k) s = .next t ∧ { t with qps := s.qps, out := s.out } = s ∧
      t.out = s.out ++ [.hostRead l ((s.ctx (s.qp q).ctx).params.hostBase + a) (min 512 (dmaOf d).length)] ∧
      t.prog q k = some { k := k, desc := d, started := true, running := true, hostSince := some s.now, order := o } := by
  obtain ⟨hexec, hprog⟩ := exec_dmaCopy_runs h hvalues hempty haligned hcounts hchecked he
  have hread : dmaNext (dmaOf d) { k := k, desc := d, started := true, running := true, order := o } = .read :=
    dmaNext_read htag hconvert (total_pos hempty hcounts) le_rfl
  have hlen : (dmaOf d).unitLen 0 = min 512 (dmaOf d).length := by simp [Dma.unitLen, hconvert]
  have hreads : dmaReads (dmaOf d) { k := k, desc := d, started := true, running := true, order := o } =
      some ((dmaOf d).src, min 512 (dmaOf d).length) := by
    unfold dmaReads
    rw [hread]
    exact congrArg some ((srcUnit_zero _).trans (by rw [hlen]))
  rw [dmaSettle_host hprog (by simp [hread]) hreads hsrc rfl] at hexec
  exact ⟨_, hexec, rfl, rfl, modProg_prog (f := Prog.asked s.now) (fun _ => rfl) hprog⟩

end

theorem exec_dmaCopy_idle {s : State} {q k : Nat} (h : s.startedDesc q k 2 = none) : exec (.dmaCopy q k) s = .next s := by
  change execDmaCopy q k s = _
  unfold execDmaCopy
  rw [h]

/-! ## One unit moves (R399 to R401) -/

section
variable {s : State} {q k x : Nat} {m : Dma} {e : Prog} {host : Row} {u : Upset}

theorem prog_of_runningDma (h : s.runningDma q k = some e) : s.prog q k = some e := by
  unfold State.runningDma at h
  split at h
  next e' he =>
    split at h
    · exact he.trans h
    · exact absurd h (by simp)
  next => exact absurd h (by simp)

theorem exec_dmaUnit_idle (h : s.runningDma q k = none) : exec (.dmaUnit q k host u) s = .next s := by
  change execDmaUnit q k host u s = _
  unfold execDmaUnit
  rw [h]

theorem exec_dmaUnit (h : s.runningDma q k = some e) : exec (.dmaUnit q k host u) s =
    if s.recovering (s.qp q).ctx then .next s else .next (s.dmaStep q k (s.qp q).ctx (dmaOf e.desc) host u) := by
  change execDmaUnit q k host u s = _
  unfold execDmaUnit
  rw [h]

theorem dmaReads_write (hnext : dmaNext m e = .write) : dmaReads m e = none := by
  unfold dmaReads
  rw [hnext]

/-- A step that writes does no more before it settles. -/
theorem dmaStep_write (he : s.prog q k = some e) (hnext : dmaNext m e = .write) :
    s.dmaStep q k x m host u = (s.dmaMove q k x m e host u).dmaSettle q k x m := by
  unfold State.dmaStep
  simp only [he, dmaReads_write hnext]

/-- A step that reads goes on to the write its row allows. -/
theorem dmaStep_through {e' : Prog} (he : s.prog q k = some e) (hnext : dmaNext m e = .read)
    (he' : (s.dmaMove q k x m e host u).prog q k = some e') (hnext' : dmaNext m e' = .write) :
    s.dmaStep q k x m host u = ((s.dmaMove q k x m e host u).dmaMove q k x m e' 0 .none).dmaSettle q k x m := by
  have hreads : dmaReads m e = some (m.srcUnit e.read) := by
    unfold dmaReads
    rw [hnext]
  unfold State.dmaStep
  simp only [he, hreads, he', hnext', if_true]

/-- A descriptor with one source row more in hand. -/
def Prog.took (w : Row) (e : Prog) : Prog := { e with buf := e.buf ++ [w], read := e.read + 1, since := none, hostSince := none }

/-- A descriptor with its first row in hand written. -/
def Prog.put (e : Prog) : Prog := { e with moved := e.moved + 1, buf := e.buf.drop 1, since := none }

/-- A descriptor with one tag more set. -/
def Prog.tagged (e : Prog) : Prog := { e with moved := e.moved + 1, since := none }

/-- A unit of memory that is not poisoned is read (R399). -/
theorem dmaMove_read (hnext : dmaNext m e = .read) (hside : s.dmaSide x (m.srcUnit e.read).1 (m.srcUnit e.read).2 false = true)
    (htarn : ∀ c o, placeOf (m.srcUnit e.read).1 ≠ .tarn c o) (hhost : ∀ l o, placeOf (m.srcUnit e.read).1 ≠ .host l o)
    (hclean : s.readsPoison (m.srcUnit e.read).1 (m.srcUnit e.read).2 = false) :
    s.dmaMove q k x m e host u = s.modProg q k (Prog.took (BitVec.ofNat 4096 (s.readNat (m.srcUnit e.read).1 (m.srcUnit e.read).2))) := by
  unfold State.dmaMove
  simp only [hnext]
  unfold State.dmaRead
  rw [if_pos hside]
  split
  next c o h => exact absurd h (htarn c o)
  next l o h => exact absurd h (hhost l o)
  next => exact if_neg (by simp [hclean])

theorem dmaMove_put {t : State} (hnext : dmaNext m e = .write) (hside : s.dmaSide x (m.dstUnit e.moved).1 (m.dstUnit e.moved).2 true = true)
    (htag : m.tagOp = 0) (hconvert : m.convert = false)
    (hput : s.dmaPut x (m.dstUnit e.moved).1 (m.dstUnit e.moved).2 (e.buf.headD 0) = .ok t) :
    s.dmaMove q k x m e host u = t.modProg q k Prog.put := by
  unfold State.dmaMove
  simp only [hnext, hside, htag, hconvert, hput]
  rfl

theorem dmaMove_tag {t : State} (hnext : dmaNext m e = .write) (hside : s.dmaSide x (m.dstUnit e.moved).1 (m.dstUnit e.moved).2 true = true)
    (htag : 0 < m.tagOp) (hput : s.dmaTag x (m.dstUnit e.moved).1 (m.tagOp == 2) = .ok t) :
    s.dmaMove q k x m e host u = t.modProg q k Prog.tagged := by
  unfold State.dmaMove
  simp only [hnext, hside, htag, hput]
  rfl

/-- A unit that the host does not hold is read, and written where the write goes through. -/
theorem dmaStep_unit {t : State} (he : s.prog q k = some e) (htag : m.tagOp = 0) (hconvert : m.convert = false) (hread : e.read = e.moved)
    (hbuf : e.buf = []) (hmore : e.moved < m.total) (hsrc : s.dmaSide x (m.srcUnit e.moved).1 (m.srcUnit e.moved).2 false = true)
    (hdst : s.dmaSide x (m.dstUnit e.moved).1 (m.dstUnit e.moved).2 true = true)
    (htarn : ∀ c o, placeOf (m.srcUnit e.moved).1 ≠ .tarn c o) (hhost : ∀ l o, placeOf (m.srcUnit e.moved).1 ≠ .host l o)
    (hclean : s.readsPoison (m.srcUnit e.moved).1 (m.srcUnit e.moved).2 = false) {w : Row}
    (hw : w = BitVec.ofNat 4096 (s.readNat (m.srcUnit e.moved).1 (m.srcUnit e.moved).2))
    (hput : (s.modProg q k (Prog.took w)).dmaPut x (m.dstUnit e.moved).1 (m.dstUnit e.moved).2 w = .ok t) :
    s.dmaStep q k x m host u = (t.modProg q k Prog.put).dmaSettle q k x m := by
  have hnext : dmaNext m e = .read := dmaNext_read htag hconvert hmore hread.le
  have hmove : s.dmaMove q k x m e host u = s.modProg q k (Prog.took w) := by
    rw [← hread] at hsrc htarn hhost hclean hw
    rw [dmaMove_read hnext hsrc htarn hhost hclean, hw]
  have hprog : (s.dmaMove q k x m e host u).prog q k = some (e.took w) := by
    rw [hmove]
    exact modProg_prog (f := Prog.took w) (fun _ => rfl) he
  have hnext' : dmaNext m (e.took w) = .write := dmaNext_put htag hconvert hmore (by simp [Prog.took, hread])
  have hhead : (e.took w).buf.headD 0 = w := by simp [Prog.took, hbuf]
  rw [dmaStep_through he hnext hprog hnext', hmove, dmaMove_put hnext' ((dmaSide_of_kept modProg_kept x _ _ _).trans hdst) htag hconvert]
  rw [hhead]
  exact hput

/-- After the unit: the copy goes on with the next, or it completes with the bytes written. -/
theorem dmaUnit_after {t : State} {w : Row} (he : s.prog q k = some e) (htag : m.tagOp = 0) (hconvert : m.convert = false)
    (hread : e.read = e.moved) (hqps : ∀ j, t.qp j = (s.modProg q k (Prog.took w)).qp j) (hnow : t.now = s.now) :
    (e.moved + 1 < m.total → ∃ e', ((t.modProg q k Prog.put).dmaSettle q k x m).prog q k = some e' ∧ e'.moved = e.moved + 1 ∧
      e'.read = e.moved + 1) ∧
    (e.moved + 1 = m.total →
      Completes s ((t.modProg q k Prog.put).dmaSettle q k x m) q k stOk 0 (dmaMoved m { e with moved := e.moved + 1 })) := by
  have htook : t.prog q k = some (e.took w) := by
    rw [State.prog, hqps]
    exact modProg_prog (f := Prog.took w) (fun _ => rfl) he
  have hput : (t.modProg q k Prog.put).prog q k = some (e.took w).put := modProg_prog (f := Prog.put) (fun _ => rfl) htook
  refine ⟨fun hmore => ?_, fun hall => ?_⟩
  · have hnext : dmaNext m (e.took w).put = .read := dmaNext_read htag hconvert hmore (by simp [Prog.took, Prog.put, hread])
    obtain ⟨e', he', hmoved, hreads⟩ := dmaSettle_prog (m := m) (x := x) hput (by simp [hnext])
    exact ⟨e', he', hmoved, by rw [hreads, ← hread]; rfl⟩
  · have hnext : dmaNext m (e.took w).put = .done := dmaNext_done htag hconvert hall.ge
    rw [dmaSettle_done hput hnext]
    have hafter := completes_of_modProg (f := Prog.put) (fun _ => ⟨rfl, rfl⟩)
      (complete_completes (t.modProg q k Prog.put) q k stOk 0 (dmaMoved m (e.took w).put) 0)
    exact completes_of_modProg (f := Prog.took w) (fun _ => ⟨rfl, rfl⟩) (hafter.of_same hqps hnow)

/-- What a write to memory of a unit does. -/
theorem dmaPut_memory {a n : Nat} {w : Row} (htarn : ∀ c o, placeOf a ≠ .tarn c o) (hhost : ∀ l o, placeOf a ≠ .host l o) :
    ∃ t, s.dmaPut x a n w = .ok t ∧ t.tarn = s.tarn ∧ (∀ j, t.qp j = s.qp j) ∧ t.now = s.now ∧
      ∀ b, t.byte b = if a ≤ b ∧ b < a + n then BitVec.ofNat 8 (w.toNat / 256 ^ (b - a)) else s.byte b := by
  have hrecord (b : Nat) : (s.record (s.ctx x).part x ((n + 63) / 64) (.hostData a n w)).byte b = s.byte b := by
    unfold State.byte
    rw [State.record_dirLine, State.record_rawByte]
  refine ⟨(s.record (s.ctx x).part x ((n + 63) / 64) (.hostData a n w)).writeMem a w.toNat n, ?_, ?_, fun j => ?_, ?_, fun b => ?_⟩
  · unfold State.dmaPut
    dsimp only
    split
    next c o h => exact absurd h (htarn c o)
    next l o h => exact absurd h (hhost l o)
    next => rfl
  · rw [State.writeMem_tarn, State.record_tarn]
  · rw [State.writeMem_qp, State.record_qp]
  · rw [State.writeMem_now, State.record_now]
  · rw [writeMem_byte, hrecord]

/-- A tag set goes through where Table 3.4 lets it, and moves no data. -/
theorem rowAccess_tags {c n : Nat} {a : Access} {w : Row} {u : Upset} {g : Tag} (hreads : a.reads = false) (hstores : a.stores = false)
    (hhold : a ≠ .hold) (hgo : tagTable a (s.rowTag c n) = .go g) :
    ∃ t, s.rowAccess c n a w u = .done 0 t ∧ (∀ j, t.qp j = s.qp j) ∧ t.trow c n = { s.trow c n with tag := g } ∧ OnlyRow s t c n := by
  unfold State.rowAccess
  simp only [hgo, hreads, hstores, hhold, Bool.false_eq_true, if_false]
  refine ⟨_, rfl, fun j => ?_, ?_, fun i hi => ?_, ?_, ?_⟩
  · rw [State.touch_qp, State.setTrow_qp]
  · rw [State.touch_trow, State.setTrow_trow_same]
  · rw [State.touch_tarn]
    exact trow_setTrow _ _ _ _ _ hi
  · rw [State.touch_mem, State.setTrow_mem]
  · rw [State.touch_poison, State.setTrow_poison]

/-- The access that sets a tag. -/
def tagAccess (full : Bool) : Access := if full then .setFull else .setEmpty

theorem tagTable_tagAccess {full : Bool} {g : Tag} (hheld : g ≠ .held) (hpoison : full = true → g ≠ .poisoned) :
    tagTable (tagAccess full) g = .go (if full then .full else .empty) := by
  cases full <;> cases g <;> simp_all [tagAccess, tagTable]

/-- A tag is set in a row that is not HELD, and none but the row's is touched (R401, Table 3.4). -/
theorem dmaTag_row {a c o : Nat} {full : Bool} (hplace : placeOf a = .tarn c o) (hheld : s.allHeld c = false)
    (htag : (s.trow c (o / 512)).tag ≠ .held) (hpoison : full = true → (s.trow c (o / 512)).tag ≠ .poisoned) :
    ∃ t, s.dmaTag x a full = .ok t ∧ (∀ j, t.qp j = s.qp j) ∧ OnlyRow s t c (o / 512) ∧
      t.trow c (o / 512) = { s.trow c (o / 512) with tag := if full then .full else .empty } := by
  have htags : s.rowTag c (o / 512) = (s.trow c (o / 512)).tag := by simp [State.rowTag, hheld]
  obtain ⟨t, hdone, hqps, hrow, hrows, hmem, hpoisons⟩ := rowAccess_tags (s := s) (c := c) (n := o / 512) (a := tagAccess full) (w := 0) (u := .none)
    (by cases full <;> rfl) (by cases full <;> rfl) (by cases full <;> decide) (htags ▸ tagTable_tagAccess htag hpoison)
  refine ⟨t.record (s.ctx x).part x 1 (.tagSet a full), ?_, fun j => (State.record_qp _ _ _ _ _ j).trans (hqps j), ⟨fun i hi => ?_,
    (State.record_mem _ _ _ _ _).trans hmem, (State.record_poison _ _ _ _ _).trans hpoisons⟩, (State.record_trow _ _ _ _ _ _ _).trans hrow⟩
  · unfold tagAccess at hdone
    unfold State.dmaTag
    simp only [hplace, hdone]
  · rw [State.record_tarn, hrows i hi]

/-- A write to a row that goes through keeps queue pairs. -/
theorem dmaPut_row_qp {a n c o : Nat} {w : Row} {t : State} (hplace : placeOf a = .tarn c o) (hput : s.dmaPut x a n w = .ok t) (j : Nat) :
    t.qp j = s.qp j := by
  unfold State.dmaPut at hput
  simp only [hplace] at hput
  split at hput
  next r v hdone =>
    obtain ⟨-, hqps⟩ := rowAccess_quiet hdone
    obtain rfl := DmaPut.ok.inj hput
    rw [State.record_qp, State.qp_def, hqps, ← State.qp_def]
  next => exact absurd hput (by simp)
  next => exact absurd hput (by simp)

end

/-! ## DMA_COPY -/

section
variable {s : State} {q k : Nat} {e : Prog} {host : Row} {u : Upset} (h : s.runningDma q k = some e) (hfree : s.recovering (s.qp q).ctx = false)
include h hfree

theorem exec_dmaUnit_steps : exec (.dmaUnit q k host u) s = .next (s.dmaStep q k (s.qp q).ctx (dmaOf e.desc) host u) := by
  rw [exec_dmaUnit h, hfree]
  rfl

theorem dmaUnit_tags {c o : Nat} {full : Bool} (htag : (dmaOf e.desc).tagOp = if full then 2 else 1) (hmore : e.moved < (dmaOf e.desc).total)
    (hdst : s.dmaSide (s.qp q).ctx ((dmaOf e.desc).dstUnit e.moved).1 ((dmaOf e.desc).dstUnit e.moved).2 true = true)
    (hplace : placeOf ((dmaOf e.desc).dstUnit e.moved).1 = .tarn c o) (hheld : s.allHeld c = false)
    (hrow : (s.trow c (o / 512)).tag ≠ .held) (hpoison : full = true → (s.trow c (o / 512)).tag ≠ .poisoned) :
    ∃ t : State, exec (.dmaUnit q k host u) s = .next t ∧
      t.trow c (o / 512) = { s.trow c (o / 512) with tag := if full then .full else .empty } ∧
      (bitOf (s.qp q).cfg 32 = false → OnlyRow s t c (o / 512)) := by
  have he := prog_of_runningDma h
  have hpos : 0 < (dmaOf e.desc).tagOp := by
    rw [htag]
    cases full <;> decide
  have hfull : ((dmaOf e.desc).tagOp == 2) = full := by
    rw [htag]
    cases full <;> decide
  obtain ⟨t, hput, hqps, honly, hset⟩ := dmaTag_row (x := (s.qp q).ctx) hplace hheld hrow hpoison
  have hnext := dmaNext_tag hpos hmore
  have hprog : (t.modProg q k Prog.tagged).prog q k = some e.tagged := by
    refine modProg_prog (f := Prog.tagged) (fun _ => rfl) ?_
    rw [State.prog, hqps]
    exact he
  have htells := onlyTells_dmaSettle (x := (s.qp q).ctx) (m := dmaOf e.desc) hprog
  refine ⟨_, exec_dmaUnit_steps h hfree, ?_⟩
  rw [dmaStep_write he hnext, dmaMove_tag hnext hdst hpos (hfull.symm ▸ hput)]
  refine ⟨?_, fun hhost => htells.onlyRow ?_ honly⟩
  · rw [State.trow_def, htells.1]
    exact hset
  · rw [modProg_cfg, hqps]
    exact hhost

variable (htag : (dmaOf e.desc).tagOp = 0) (hconvert : (dmaOf e.desc).convert = false) (hread : e.read = e.moved) (hbuf : e.buf = [])
  (hmore : e.moved < (dmaOf e.desc).total)
  (hsrc : s.dmaSide (s.qp q).ctx ((dmaOf e.desc).srcUnit e.moved).1 ((dmaOf e.desc).srcUnit e.moved).2 false = true)
  (hdst : s.dmaSide (s.qp q).ctx ((dmaOf e.desc).dstUnit e.moved).1 ((dmaOf e.desc).dstUnit e.moved).2 true = true)
  (htarn : ∀ c o, placeOf ((dmaOf e.desc).srcUnit e.moved).1 ≠ .tarn c o)
  (hhost : ∀ l o, placeOf ((dmaOf e.desc).srcUnit e.moved).1 ≠ .host l o)
  (hclean : s.readsPoison ((dmaOf e.desc).srcUnit e.moved).1 ((dmaOf e.desc).srcUnit e.moved).2 = false)
include htag hconvert hread hbuf hmore hsrc hdst htarn hhost hclean

theorem dmaUnit_memory (hmem : ∀ c o, placeOf ((dmaOf e.desc).dstUnit e.moved).1 ≠ .tarn c o)
    (hown : ∀ l o, placeOf ((dmaOf e.desc).dstUnit e.moved).1 ≠ .host l o) :
    ∃ t : State, exec (.dmaUnit q k host u) s = .next t ∧ t.tarn = s.tarn ∧
      (bitOf (s.qp q).cfg 32 = false → ∀ b, t.byte b =
        if ((dmaOf e.desc).dstUnit e.moved).1 ≤ b ∧ b < ((dmaOf e.desc).dstUnit e.moved).1 + ((dmaOf e.desc).dstUnit e.moved).2 then
          s.byte (((dmaOf e.desc).srcUnit e.moved).1 + (b - ((dmaOf e.desc).dstUnit e.moved).1)) else s.byte b) ∧
      (e.moved + 1 < (dmaOf e.desc).total → ∃ e', t.prog q k = some e' ∧ e'.moved = e.moved + 1 ∧ e'.read = e.moved + 1) ∧
      (e.moved + 1 = (dmaOf e.desc).total →
        Completes s t q k stOk 0 (dmaMoved (dmaOf e.desc) { e with moved := e.moved + 1 })) := by
  have he := prog_of_runningDma h
  generalize hw : BitVec.ofNat 4096 (s.readNat ((dmaOf e.desc).srcUnit e.moved).1 ((dmaOf e.desc).srcUnit e.moved).2) = w
  obtain ⟨t, hput, hrows, hqps, hnow, hbytes⟩ := dmaPut_memory (s := s.modProg q k (Prog.took w)) (x := (s.qp q).ctx)
    (n := ((dmaOf e.desc).dstUnit e.moved).2) (w := w) hmem hown
  have hprog : (t.modProg q k Prog.put).prog q k = some (e.took w).put := by
    refine modProg_prog (f := Prog.put) (fun _ => rfl) ?_
    rw [State.prog, hqps]
    exact modProg_prog (f := Prog.took w) (fun _ => rfl) he
  have htells := onlyTells_dmaSettle (x := (s.qp q).ctx) (m := dmaOf e.desc) hprog
  refine ⟨_, exec_dmaUnit_steps h hfree, ?_⟩
  rw [dmaStep_unit he htag hconvert hread hbuf hmore hsrc hdst htarn hhost hclean hw.symm hput]
  refine ⟨htells.1.trans hrows, fun hcfg b => ?_, dmaUnit_after he htag hconvert hread hqps hnow⟩
  have hcfg' : bitOf ((t.modProg q k Prog.put).qp q).cfg 32 = false := by
    rw [modProg_cfg, hqps, modProg_cfg]
    exact hcfg
  rw [htells.byte hcfg', byte_modProg, hbytes, byte_modProg]
  split
  next hb =>
    rw [← hw]
    refine rowNat_byte s _ (unitLen_le _ _) ?_
    have hlen := dstUnit_len hconvert e.moved
    omega
  next => rfl

theorem dmaUnit_row {c o : Nat} {tagged : Bool} (hplace : placeOf ((dmaOf e.desc).dstUnit e.moved).1 = .tarn c o)
    (hcover : s.coverOf c (o / 512) (some (s.qp q).ctx) .dmaWrite = some tagged) (hready : Writable s c (o / 512) tagged) :
    ∃ t : State, exec (.dmaUnit q k host u) s = .next t ∧ t.trow c (o / 512) = { s.trow c (o / 512) with
        data := BitVec.ofNat 4096 (s.readNat ((dmaOf e.desc).srcUnit e.moved).1 ((dmaOf e.desc).srcUnit e.moved).2), tag := .full, syndrome := 0 } ∧
      (bitOf (s.qp q).cfg 32 = false → OnlyRow s t c (o / 512)) := by
  have he := prog_of_runningDma h
  generalize hw : BitVec.ofNat 4096 (s.readNat ((dmaOf e.desc).srcUnit e.moved).1 ((dmaOf e.desc).srcUnit e.moved).2) = w
  have hcover' : (s.modProg q k (Prog.took w)).coverOf c (o / 512) (some (s.qp q).ctx) .dmaWrite = some tagged := hcover
  have hready' : Writable (s.modProg q k (Prog.took w)) c (o / 512) tagged := hready
  obtain ⟨t, hput, honly, hrow⟩ := dmaPut_row (n := ((dmaOf e.desc).dstUnit e.moved).2) (d := w) hplace hcover' hready'
  have hqps := dmaPut_row_qp hplace hput
  have hprog : (t.modProg q k Prog.put).prog q k = some (e.took w).put := by
    refine modProg_prog (f := Prog.put) (fun _ => rfl) ?_
    rw [State.prog, hqps]
    exact modProg_prog (f := Prog.took w) (fun _ => rfl) he
  have htells := onlyTells_dmaSettle (x := (s.qp q).ctx) (m := dmaOf e.desc) hprog
  refine ⟨_, exec_dmaUnit_steps h hfree, ?_⟩
  rw [dmaStep_unit he htag hconvert hread hbuf hmore hsrc hdst htarn hhost hclean hw.symm hput]
  refine ⟨?_, fun hcfg => htells.onlyRow ?_ honly⟩
  · rw [State.trow_def, htells.1]
    exact hrow
  · rw [modProg_cfg, hqps, modProg_cfg]
    exact hcfg

end

/-! ## The host does not answer (R406) -/

section
variable {s : State} {q k since : Nat} {e : Prog} (h : s.runningDma q k = some e) (hsince : e.hostSince = some since)
include h hsince

theorem exec_hostCompletionTimeout : exec (.hostCompletionTimeout (.dma q k)) s =
    if since + (s.link ((s.qp q).fn / 64)).cplTimeout * 50 * ticksPerUs ≤ s.now then
      .next (s.dmaEnd q k (dmaOf e.desc) e stHost (Config.statusCode stHost % 65536)) else .next s := by
  change execHostCompletionTimeout (.dma q k) s = _
  unfold execHostCompletionTimeout
  simp only [h, hsince]

theorem hostCompletionTimeout_due (hdue : since + (s.link ((s.qp q).fn / 64)).cplTimeout * 50 * ticksPerUs ≤ s.now) :
    ∃ t : State, exec (.hostCompletionTimeout (.dma q k)) s = .next t ∧ t.tarn = s.tarn ∧
      Completes s t q k stHost (Config.statusCode stHost % 65536) (dmaMoved (dmaOf e.desc) e) :=
  ⟨_, (exec_hostCompletionTimeout h hsince).trans (if_pos hdue), State.complete_tarn _ _ _ _ _ _ _, complete_completes _ _ _ _ _ _ _⟩

theorem hostCompletionTimeout_early (hearly : s.now < since + (s.link ((s.qp q).fn / 64)).cplTimeout * 50 * ticksPerUs) :
    exec (.hostCompletionTimeout (.dma q k)) s = .next s := (exec_hostCompletionTimeout h hsince).trans (if_neg hearly.not_ge)

end

/-- Settles O31: the checks in their order, then a unit as its read and its write, each tied to what the copy settles. -/
theorem dmaCopies : Obligations.DmaCopies := by
  unfold Obligations.DmaCopies
  refine fun q k s => ⟨fun d h => ?_, exec_dmaCopy_idle, fun _ _ => exec_dmaUnit_idle, fun host u e h hrec => ?_, fun host u e h hfree => ?_,
    fun e since h hsince => ⟨hostCompletionTimeout_due h hsince, hostCompletionTimeout_early h hsince⟩⟩
  · obtain ⟨hvalues, hempty, haligned, hcounts, hchecked⟩ := dmaCopy_checks h
    refine ⟨hvalues, hempty, haligned, hcounts, hchecked, fun o hv hn ha hc hd he hscale => ⟨?_, fun l a => ?_⟩⟩
    · exact dmaCopy_local h hv hn ha hc hd he hscale
    · exact dmaCopy_host h hv hn ha hc hd he
  · rw [exec_dmaUnit h, hrec]
    rfl
  · refine ⟨fun htag hconvert hread hbuf hmore hsrc hdst htarn hhost hclean => ⟨?_, fun c o tagged => ?_⟩, fun c o full htag hmore hdst hplace => ?_⟩
    · exact dmaUnit_memory h hfree htag hconvert hread hbuf hmore hsrc hdst htarn hhost hclean
    · exact dmaUnit_row h hfree htag hconvert hread hbuf hmore hsrc hdst htarn hhost hclean
    · exact dmaUnit_tags h hfree htag hmore hdst hplace

end Sys2Proof.Machine

namespace Sys2Proof.Machine
open Sys2Proof

/-! ## A recovery starts (R319, R321 events 1 and 2) -/

theorem errqs_fields {v w : Part} {e : Tbl ErrQ} (h : { v with errqs := e } = w) : v.running = w.running ∧ v.pendingCause = w.pendingCause ∧
    v.drain = w.drain ∧ v.recovery = w.recovery := by
  rw [← h]
  exact ⟨rfl, rfl, rfl, rfl⟩

/-- A report leaves what a partition runs as it was. -/
theorem note_part_fields (s : State) (code : Nat) (src : Source) (p : Nat) : ((s.note code src).part p).running = (s.part p).running ∧
    ((s.note code src).part p).pendingCause = (s.part p).pendingCause ∧ ((s.note code src).part p).drain = (s.part p).drain ∧
    ((s.note code src).part p).recovery = (s.part p).recovery := by
  obtain ⟨-, hpart, -, -⟩ := onlyReports_note s code src
  exact errqs_fields (hpart p)

/-- What precedes the abort of a step: its late events are reported, and a checkpoint being written is abandoned. -/
def State.recoveryReady (s : State) (p x : Nat) : State := (s.lateEvents p (some x)).abandonCheckpoint p

theorem lateEvents_now (s : State) (p : Nat) (x : Option Nat) : (s.lateEvents p x).now = s.now := by
  unfold State.lateEvents
  refine List.foldlRecOn (motive := fun t : State => t.now = s.now) _ _ rfl fun t ht r _ => ?_
  dsimp only
  split
  · exact ht
  · rw [State.note_now, State.modRegion_eq, State.setRegion_now, ht]

theorem abandonCheckpoint_keeps (s : State) (p : Nat) : (s.abandonCheckpoint p).tarn = s.tarn ∧ (s.abandonCheckpoint p).now = s.now := by
  unfold State.abandonCheckpoint State.failDesc
  split
  · exact ⟨rfl, rfl⟩
  · dsimp only
    rw [State.complete_tarn, State.complete_now]
    split
    next a n _ =>
      obtain ⟨m, hgive⟩ := givePages_pages s (areaPages a n) .mapped _
      rw [hgive]
      exact ⟨rfl, rfl⟩
    next => exact ⟨rfl, rfl⟩

theorem recoveryReady_keeps (s : State) (p x : Nat) : (s.recoveryReady p x).tarn = s.tarn ∧ (s.recoveryReady p x).now = s.now := by
  obtain ⟨htarn, hnow⟩ := abandonCheckpoint_keeps (s.lateEvents p (some x)) p
  obtain ⟨⟨hlate, -, -⟩, -⟩ := settles_lateEvents s p (some x)
  exact ⟨htarn.trans hlate, hnow.trans (lateEvents_now s p (some x))⟩

/-- Recovery r of context x stands in partition p, and its drain runs from a tick. -/
def State.recoverAs (s : State) (p x : Nat) (r : Recovery) (tick : Nat) : State :=
  (s.modPart p (fun v => { v with recovery := some r, drain := some tick, pendingCause := none })).modCtx x
    (fun c => { c with st := .recovering, recoverPending := none })

theorem recoverAs_effect (s : State) (p x : Nat) (r : Recovery) (tick : Nat) : (s.recoverAs p x r tick).tarn = s.tarn ∧
    ((s.recoverAs p x r tick).part p).running = (s.part p).running ∧ ((s.recoverAs p x r tick).part p).pendingCause = none ∧
    ((s.recoverAs p x r tick).part p).drain = some tick ∧ ((s.recoverAs p x r tick).part p).recovery = some r ∧
    ((s.recoverAs p x r tick).ctx x).st = .recovering := by
  unfold State.recoverAs
  rw [State.modCtx_eq, State.modPart_eq, State.setCtx_part, State.setPart_part_same, State.setCtx_ctx_same]
  exact ⟨rfl, rfl, rfl, rfl, rfl, rfl⟩

/-- The ABORT record is written and the step halts. -/
def State.stepAborted (s : State) (p x cause : Nat) : State := (s.record p x 0 (.abort cause)).haltStep p

theorem stepAborted_keeps (s : State) (p x cause : Nat) : (s.stepAborted p x cause).tarn = s.tarn ∧
    ((s.stepAborted p x cause).part p).running = none := by
  refine ⟨?_, haltStep_running _ p⟩
  rw [State.stepAborted, State.haltStep_tarn, State.record_tarn]

/-- Partition p stands at event 2 of recovery r of context x. -/
def State.recoveryBegun (s : State) (p x : Nat) (r : Recovery) : State := (s.stepAborted p x r.cause).recoverAs p x r s.now

theorem recoveryBegun_effect (s : State) (p x : Nat) (r : Recovery) : (s.recoveryBegun p x r).tarn = s.tarn ∧
    ((s.recoveryBegun p x r).part p).running = none ∧ ((s.recoveryBegun p x r).part p).pendingCause = none ∧
    ((s.recoveryBegun p x r).part p).drain = some s.now ∧ ((s.recoveryBegun p x r).part p).recovery = some r ∧
    ((s.recoveryBegun p x r).ctx x).st = .recovering := by
  obtain ⟨htarn, hrunning⟩ := stepAborted_keeps s p x r.cause
  obtain ⟨htarn', hrunning', hfields⟩ := recoverAs_effect (s.stepAborted p x r.cause) p x r s.now
  exact ⟨htarn'.trans htarn, hrunning'.trans hrunning, hfields⟩

/-- The recovery that a cause begins at event 2, with the step it aborts. -/
def State.newRecovery (s : State) (p x cause : Nat) : Recovery :=
  { stage := .draining, cause := cause, started := (s.recoveryReady p x).now, journalFull := decide (cause = 0x0803),
    step := (s.part p).running.map (fun st => { st with starts := st.starts + 1, ended := [], feed := [] }) }

theorem startRecovery_first {s : State} {p : Nat} (x cause : Nat) (hnone : (s.part p).recovery = none) :
    s.startRecovery p x cause = ((s.recoveryReady p x).recoveryBegun p x (s.newRecovery p x cause)).note 0x2804
      { part := p, ctx := some x, detail := [(s.recoveryReady p x).recordSeq p, cause] } := by
  unfold State.startRecovery
  simp only [hnone]
  rfl

section
variable {p x : Nat} {s : State} (hres : (s.part p).resident = some x)
include hres

theorem exec_recoveryStart_due {cause n : Nat} (hcause : (s.part p).pendingCause = some (cause, n)) (hrun : s.allRun p = true) :
    exec (.recoveryStart p) s =
      if (s.ctx x).ckpt.isNone then .next (s.contextFatal x (cause % 4096 + 0x3000) { part := p }) else .next (s.startRecovery p x cause) := by
  change execRecoveryStart p s = _
  unfold execRecoveryStart
  simp only [hrun, hres, hcause, Bool.not_true, Bool.false_eq_true, if_false]

theorem recoveryStart_fatal {cause n : Nat} (hcause : (s.part p).pendingCause = some (cause, n)) (hrun : s.allRun p = true)
    (hckpt : (s.ctx x).ckpt = none) : exec (.recoveryStart p) s = .next (s.contextFatal x (cause % 4096 + 0x3000) { part := p }) := by
  rw [exec_recoveryStart_due hres hcause hrun, hckpt]
  rfl

theorem recoveryStart_begins {cause n : Nat} (hcause : (s.part p).pendingCause = some (cause, n)) (hrun : s.allRun p = true)
    (hckpt : (s.ctx x).ckpt.isSome) (hnone : (s.part p).recovery = none) :
    ∃ t : State, exec (.recoveryStart p) s = .next t ∧ t.tarn = s.tarn ∧ (t.part p).running = none ∧ (t.part p).pendingCause = none ∧
      (t.part p).drain = some s.now ∧ (t.ctx x).st = .recovering ∧
      ∃ r, (t.part p).recovery = some r ∧ r.stage = .draining ∧ r.cause = cause ∧
        r.step = (s.part p).running.map (fun st => { st with starts := st.starts + 1, ended := [], feed := [] }) := by
  have hsome : (s.ctx x).ckpt.isNone = false := by simpa using hckpt
  have hfirst := startRecovery_first x cause hnone
  have hexec : exec (.recoveryStart p) s = .next (s.startRecovery p x cause) :=
    (exec_recoveryStart_due hres hcause hrun).trans (if_neg (by simp [hsome]))
  obtain ⟨htarn, hnow⟩ := recoveryReady_keeps s p x
  obtain ⟨hbegun, hrunning, hpending, hdrain, hrecovery, hst⟩ := recoveryBegun_effect (s.recoveryReady p x) p x (s.newRecovery p x cause)
  have hstep : (s.newRecovery p x cause).step = (s.part p).running.map (fun st => { st with starts := st.starts + 1, ended := [], feed := [] }) := rfl
  have hstage : (s.newRecovery p x cause).stage = .draining := rfl
  have hrcause : (s.newRecovery p x cause).cause = cause := rfl
  refine ⟨_, hexec, ?_⟩
  rw [hfirst]
  generalize ({ part := p, ctx := some x, detail := [(s.recoveryReady p x).recordSeq p, cause] } : Source) = src
  generalize (s.recoveryReady p x).recoveryBegun p x (s.newRecovery p x cause) = t at *
  generalize s.newRecovery p x cause = r at *
  obtain ⟨hrunning', hpending', hdrain', hrecovery'⟩ := note_part_fields t 0x2804 src p
  exact ⟨(State.note_tarn _ _ _).trans (hbegun.trans htarn), hrunning'.trans hrunning, hpending'.trans hpending,
    (hdrain'.trans hdrain).trans (congrArg some hnow), (congrArg Ctx.st (State.note_ctx _ _ _ x)).trans hst, r, hrecovery'.trans hrecovery,
    hstage, hrcause, hstep⟩

theorem exec_recoveryStart_idle (hno : s.allRun p = false ∨ ((s.part p).pendingCause = none ∧ (s.ctx x).recoverPending = none)) :
    exec (.recoveryStart p) s = .next s := by
  change execRecoveryStart p s = _
  unfold execRecoveryStart
  rcases hno with hrun | ⟨hcause, hpending⟩
  · rw [hrun]
    rfl
  · simp only [hres, hcause, hpending, ite_self]

end

/-! ## The restore (R321 events 6 to 8) -/

/-- Memory, its poison and the lines of host-processor chiplets may have changed, and nothing else. -/
def OnlyMemory (s t : State) : Prop := { t with mem := s.mem, poison := s.poison, dir := s.dir } = s

theorem OnlyMemory.refl (s : State) : OnlyMemory s s := rfl

theorem OnlyMemory.trans {s t u : State} (hst : OnlyMemory s t) (htu : OnlyMemory t u) : OnlyMemory s u := by
  unfold OnlyMemory at *
  rw [← htu] at hst
  exact hst

theorem OnlyMemory.foldl {α : Type} {g : State → α → State} (hg : ∀ t a, OnlyMemory t (g t a)) (l : List α) (s : State) : OnlyMemory s (l.foldl g s) :=
  List.foldlRecOn l g (.refl s) fun t ht a _ => ht.trans (hg t a)

theorem onlyMemory_restorePage (s : State) (g : Nat) (bytes : List Host.Cell) (mask : BitVec 128) : OnlyMemory s (s.restorePage g bytes mask) := by
  have hbytes (t : State) : OnlyMemory t (bytes.foldl (fun (t : State) e => t.setByte e.1 e.2) t) := .foldl (g := fun (t : State) e => t.setByte e.1 e.2) (fun _ _ => rfl) bytes t
  have hpoison (t : State) : OnlyMemory t ((List.range 128).foldl (fun (t : State) k => if bitOf mask k then t.setPoison (g * 128 + k) true else t) t) := by
    refine .foldl (fun u k => ?_) _ t
    split
    · rfl
    · rfl
  have hdropped : OnlyMemory s { s with mem := Tbl.drop (fun a => a / 4096 == g) s.mem, poison := Tbl.drop (fun k => k / 128 == g) s.poison,
                                        dir := s.dir.filter (fun e => e.1 / 64 != g) } := rfl
  exact (hdropped.trans (hbytes _)).trans (hpoison _)

theorem onlyMemory_applyPreImages (s : State) (p x : Nat) : OnlyMemory s (s.applyPreImages p x) := by
  unfold State.applyPreImages
  refine .foldl (fun t e => ?_) _ s
  split
  · exact onlyMemory_restorePage _ _ _ _
  · exact .refl _

section
variable {p x : Nat} {s : State} {r : Recovery} (hrec : (s.part p).recovery = some r) (hres : (s.part p).resident = some x)
include hrec hres

theorem exec_recoveryRestore : exec (.recoveryRestore p) s =
    if r.stage = .replaced && !(s.part p).scrubbing && (s.part p).drain.isNone && (s.part p).testDue.isEmpty then
      .next ((s.applyPreImages p x).modPart p (fun v => { v with recovery := some { r with stage := .restoring } })) else .next s := by
  change execRecoveryRestore p s = _
  unfold execRecoveryRestore
  simp only [hrec, hres]

theorem recoveryRestore_restores (hstage : r.stage = .replaced) (hscrub : (s.part p).scrubbing = false) (hdrain : (s.part p).drain = none)
    (htests : (s.part p).testDue = []) : ∃ t : State, exec (.recoveryRestore p) s = .next t ∧ t.tarn = s.tarn ∧ t.clusters = s.clusters ∧
      (t.part p).recovery = some { r with stage := .restoring } := by
  have hmem := onlyMemory_applyPreImages s p x
  have hexec := exec_recoveryRestore hrec hres
  rw [if_pos (by simp [hstage, hscrub, hdrain, htests])] at hexec
  generalize s.applyPreImages p x = u at *
  have htarn := congrArg State.tarn hmem
  have hclusters := congrArg State.clusters hmem
  exact ⟨_, hexec, htarn, hclusters, congrArg Part.recovery (State.setPart_part_same _ _ _)⟩

theorem exec_recoveryRestore_idle (hstage : r.stage ≠ .replaced) : exec (.recoveryRestore p) s = .next s := by
  rw [exec_recoveryRestore hrec hres, if_neg (by simp [hstage])]

end

/-! ### What the restore of a checkpoint writes -/

/-- A recovery that replays the records given, up to the aborted step. -/
def Recovery.replays (r : Recovery) (es : List JEntry) : Recovery :=
  { r with stage := .replaying, script := replayScript es (r.step.map RunStep.seq) }

theorem putDest_tarn_mem (s : State) (x c n : Nat) (w : Row) : (s.putDest x (.tarn c n) w).mem = s.mem := by
  unfold State.putDest
  dsimp only
  split
  · rw [State.touch_mem, State.setTrow_mem]
  next hres => rw [State.setCtxRow, if_neg hres, State.modCtx_eq, State.setCtx_mem]

theorem zeroHandles_mem (s : State) (x : Nat) (v : Slot) : (s.zeroHandles x v).mem = s.mem := by
  have hhandle (t : State) (e : Nat × Nat × HandleEntry) : ((List.range (hCount e.2.2)).foldl (fun (s : State) i =>
      s.putDest x (.tarn e.1 (handleRow e.2.2 i)) 0) t).mem = t.mem :=
    foldl_mem _ (fun u i => putDest_tarn_mem u x e.1 (handleRow e.2.2 i) 0) _ t
  exact foldl_mem _ hhandle v.handles s

/-- Of a shard that is put back in tarn, nothing goes to memory. -/
theorem writeShard_tarn_mem (s : State) (x p : Nat) (v : Slot) (k : Nat) (rows : List Row) : (s.writeShard x p v k rows none true).mem = s.mem := by
  unfold State.writeShard
  refine foldl_mem _ (fun t e => foldl_mem _ (fun u j => ?_) _ t) _ s
  cases u.destOf p v e j with
  | none => rfl
  | some d =>
    cases d with
    | tarn c n => exact putDest_tarn_mem _ _ _ _ _
    | hbm a => rfl

theorem refillSlot_mem (s : State) (x p : Nat) (v : Slot) : (s.refillSlot x p v).mem = s.mem := by
  unfold State.refillSlot
  exact (foldl_mem _ (fun t (e : Nat × List Row) => writeShard_tarn_mem t x p v e.1 e.2) v.rows _).trans (zeroHandles_mem s x v)

theorem rebuildSpan_mem (s : State) (rows : Tbl TarnRow) (old new : Span) (oldE newE : Nat → Nat → Option HandleEntry) :
    (s.rebuildSpan rows old new oldE newE).mem = s.mem := by
  unfold State.rebuildSpan
  refine foldl_mem _ (fun t i => ?_) _ s
  split
  · exact State.setTrow_mem _ _ _ _
  · rfl

theorem rebuildSlot_mem (s : State) (p x : Nat) (rows : Tbl TarnRow) (old : Nat × List (Nat × Nat × HandleEntry) × List (Nat × Span)) :
    (s.rebuildSlot p x rows old).mem = s.mem := by
  unfold State.rebuildSlot
  refine (foldl_mem _ (fun t e => ?_) _ _).trans (refillSlot_mem s x p _)
  split
  · exact rebuildSpan_mem _ _ _ _ _ _
  · rfl

theorem restoreHandles_mem (keep : Nat → Nat → Bool) (hs : Tbl HandleEntry) (s : State) : (s.restoreHandles hs keep).mem = s.mem := by
  obtain ⟨hmem, -⟩ := restoreHandles_keeps keep hs s
  exact hmem

theorem restoreCheckpoint_mem (s : State) (p x : Nat) : (s.restoreCheckpoint p x).mem = s.mem := by
  unfold State.restoreCheckpoint
  dsimp only
  refine (foldl_mem _ (fun t e => ?_) _ _).trans ?_
  · split
    · exact refillSlot_mem t x p e.2
    · exact refillSlot_mem t x p e.2
    · exact refillSlot_mem t x p e.2
    · exact zeroHandles_mem t x e.2
    · rfl
  · have hclear : (s.clearHandles p).mem = s.mem := State.modPartClusters_mem _ _ _
    have hctx (t : State) (f : Ctx → Ctx) : (t.modCtx x f).mem = t.mem := rfl
    split
    · rw [hctx, restoreHandles_mem, restoreRows_mem, hclear]
    · rw [hctx, foldl_mem _ (fun t l => rebuildSlot_mem t p x _ l), restoreRows_mem, restoreHandles_mem, hclear]

section
variable {p x : Nat} {s : State} {r : Recovery} (hrec : (s.part p).recovery = some r) (hres : (s.part p).resident = some x)
include hrec hres

theorem exec_recoveryRestoreDone : exec (.recoveryRestoreDone p) s =
    if r.stage = .restoring then
      .next (((s.restoreCheckpoint p x).modPart p (fun v => { v with recovery := some (r.replays (afterCheckpoint x (s.part p).journal)) })).replayNext p)
    else .next s := by
  change execRecoveryRestoreDone p s = _
  unfold execRecoveryRestoreDone
  simp only [hrec, hres]
  rfl

theorem recoveryRestoreDone_replays (hstage : r.stage = .restoring) :
    ∃ t : State, exec (.recoveryRestoreDone p) s = .next (t.replayNext p) ∧ t.mem = s.mem ∧
      (t.part p).recovery = some (let r' : Recovery := { r with stage := .replaying }
        { r' with script := replayScript (afterCheckpoint x (s.part p).journal) (r.step.map RunStep.seq) }) :=
  ⟨(s.restoreCheckpoint p x).modPart p (fun v => { v with recovery := some (r.replays (afterCheckpoint x (s.part p).journal)) }),
    (exec_recoveryRestoreDone hrec hres).trans (if_pos hstage), restoreCheckpoint_mem s p x, congrArg Part.recovery (State.setPart_part_same _ _ _)⟩

theorem exec_recoveryRestoreDone_idle (hstage : r.stage ≠ .restoring) : exec (.recoveryRestoreDone p) s = .next s :=
  (exec_recoveryRestoreDone hrec hres).trans (if_neg hstage)

end

/-! ## The aborted step again (R321 event 9) -/

/-- The recovery of context x is over, before what it reports. -/
def State.recoveryOver (s : State) (p x : Nat) : State :=
  (s.modPart p (fun v => { v with recovery := none, testDue := [] })).modCtx x
    (fun c => { c with st := .resident, recoverPending := none, needLayout := false })

theorem resumeLoads_poison (s : State) (x : Nat) : (s.resumeLoads x).poison = s.poison := by
  unfold State.resumeLoads
  exact List.foldlRecOn (motive := fun t : State => t.poison = s.poison) _ _ rfl fun t ht _ _ => ht

/-- Recovery complete is reported, and the loads go on. -/
def State.recoveryReported (s : State) (p x : Nat) (src : Source) : State := ((s.recoveryOver p x).note 0x0805 src).resumeLoads x

theorem recoveryReported_effect (s : State) (p x : Nat) (src : Source) : NoStore s (s.recoveryReported p x src) ∧
    ((s.recoveryReported p x src).part p).recovery = none ∧ ((s.recoveryReported p x src).ctx x).st = .resident := by
  have hover : NoStore s (s.recoveryOver p x) ∧ ((s.recoveryOver p x).part p).recovery = none ∧ ((s.recoveryOver p x).ctx x).st = .resident := by
    refine ⟨⟨rfl, rfl, rfl⟩, ?_, ?_⟩
    · rw [State.recoveryOver, State.modCtx_eq, State.setCtx_part, State.modPart_eq, State.setPart_part_same]
    · rw [State.recoveryOver, State.modCtx_eq, State.setCtx_ctx_same]
  unfold State.recoveryReported
  generalize s.recoveryOver p x = t at *
  obtain ⟨hstore, hrecovery, hst⟩ := hover
  obtain ⟨-, -, -, hrecovery'⟩ := note_part_fields t 0x0805 src p
  have hnoted : (t.note 0x0805 src).ctx x = t.ctx x := State.note_ctx _ _ _ x
  have hstored := hstore.trans (noStore_note t 0x0805 src)
  generalize t.note 0x0805 src = u at *
  obtain ⟨hmem, htarn, hparts, hresumed⟩ := resumeLoads_keeps u x
  refine ⟨hstored.trans ⟨htarn, hmem, resumeLoads_poison u x⟩, ?_, ?_⟩
  · rw [State.part_def, hparts, ← State.part_def]
    exact hrecovery'.trans hrecovery
  · rw [hresumed, hnoted, hst]

section
variable {p x : Nat} {s : State} {r : Recovery} (hrec : (s.part p).recovery = some r) (hres : (s.part p).resident = some x)
include hrec hres

/-- What a recovery that is over reports. -/
def State.recoverySrc (s : State) (p x : Nat) (r : Recovery) : Source :=
  { part := p, ctx := some x, detail := [(r.step.map RunStep.seq).getD (s.part p).stepSeq] }

/-- The aborted step as it is released again. -/
def State.stepAgain (s : State) (x : Nat) (st : RunStep) (feed : List JEntry) : RunStep :=
  { st with clusters := s.launchClusters x st.epoch st.desc, feed := feed, feedSince := none, ended := [], replay := false }

/-- What the end of a recovery goes on with, from the state that reports it. -/
def Recovery.resume (r : Recovery) (p x : Nat) (feed : RunStep → List JEntry) (t : State) : Result :=
  match r.step with
  | none => .next (t.boundaryWork p)
  | some st =>
    if r.journalFull then .next ((t.complete st.q st.k stJournal 0x0803 st.seq 0).boundaryWork p)
    else .next ((t.runStep p (t.stepAgain x st (feed st))).feedStep p)

omit hrec hres in
theorem resume_none {feed : RunStep → List JEntry} {t : State} (hstep : r.step = none) : r.resume p x feed t = .next (t.boundaryWork p) := by
  unfold Recovery.resume
  rw [hstep]

omit hrec hres in
theorem resume_some {feed : RunStep → List JEntry} {t : State} {st : RunStep} (hstep : r.step = some st) (hjournal : r.journalFull = false) :
    r.resume p x feed t = .next ((t.runStep p (t.stepAgain x st (feed st))).feedStep p) := by
  unfold Recovery.resume
  rw [hstep]
  exact if_neg (by simp [hjournal])

theorem exec_recoveryRerelease (hstage : r.stage = .done) (hstill : s.changing p = false) : exec (.recoveryRerelease p) s =
    r.resume p x (fun st => abortedFeed (afterCheckpoint x (s.part p).journal) st.seq) (s.recoveryReported p x (s.recoverySrc p x r)) := by
  change execRecoveryRerelease p s = _
  unfold execRecoveryRerelease
  simp only [hrec, hres, hstage, hstill]
  rfl

theorem exec_recoveryRerelease_none (hstage : r.stage = .done) (hstill : s.changing p = false) (hstep : r.step = none) :
    ∃ t : State, exec (.recoveryRerelease p) s = .next (t.boundaryWork p) ∧ NoStore s t ∧ (t.part p).recovery = none ∧ (t.ctx x).st = .resident :=
  ⟨s.recoveryReported p x (s.recoverySrc p x r), (exec_recoveryRerelease hrec hres hstage hstill).trans (resume_none hstep),
    recoveryReported_effect s p x (s.recoverySrc p x r)⟩

end

/-! ### A step that runs again -/

/-- No context has changed. -/
structure KeepsCtxs (s t : State) : Prop where
  ctxs : t.ctxs = s.ctxs

theorem KeepsCtxs.refl (s : State) : KeepsCtxs s s := ⟨rfl⟩

theorem KeepsCtxs.trans {s t u : State} (hst : KeepsCtxs s t) (htu : KeepsCtxs t u) : KeepsCtxs s u := ⟨htu.ctxs.trans hst.ctxs⟩

theorem KeepsCtxs.foldl {α : Type} {g : State → α → State} (hg : ∀ t a, KeepsCtxs t (g t a)) (l : List α) (s : State) : KeepsCtxs s (l.foldl g s) :=
  List.foldlRecOn l g (.refl s) fun t ht a _ => ht.trans (hg t a)

theorem KeepsCtxs.ctx {s t : State} (h : KeepsCtxs s t) (x : Nat) : t.ctx x = s.ctx x := by
  rw [State.ctx_def, h.ctxs, ← State.ctx_def]

theorem keepsCtxs_placeHandle (s : State) (c h : Nat) (e : HandleEntry) : KeepsCtxs s (s.placeHandle c h e) := by
  unfold State.placeHandle
  dsimp only
  split
  · exact .refl s
  · exact ⟨State.writeHandle_ctxs _ _ _ _⟩

theorem keepsCtxs_placeHandles (entry : Nat × Nat × HandleEntry → HandleEntry) (l : List (Nat × Nat × HandleEntry)) (s : State) :
    KeepsCtxs s (l.foldl (fun (t : State) o => t.placeHandle o.1 o.2.1 (entry o)) s) :=
  .foldl (fun t o => keepsCtxs_placeHandle t o.1 o.2.1 (entry o)) l s

theorem keepsCtxs_startClusters (d : Desc) (code : CodeSrc × Nat) (cs : List Nat) (s : State) : KeepsCtxs s (s.startClusters d code cs) :=
  .foldl (g := fun (t : State) (e : Nat × Nat) => t.modCl e.1 (launchCluster d code t.now e.1 e.2 cs.length)) (fun _ _ => ⟨rfl⟩) _ s

theorem modCtx_spans_st (s : State) (x y : Nat) (spans : Tbl Span) : ((s.modCtx y (fun c => { c with spans := spans })).ctx x).st = (s.ctx x).st := by
  rw [State.modCtx_eq, State.setCtx_ctx]
  split
  next hy => rw [hy]
  next => rfl

theorem imagePlaced_ctx_st (s : State) (st : RunStep) (x : Nat) : ((s.imagePlaced st).ctx x).st = (s.ctx x).st := by
  unfold State.imagePlaced
  split
  · have hothers := keepsCtxs_placeHandles (fun _ => 0)
    have hmine := keepsCtxs_placeHandles (fun o => o.2.2)
    exact (modCtx_spans_st _ x _ _).trans (congrArg Ctx.st (((hothers _ s).trans (hmine _ _)).ctx x))
  · rfl

theorem runStep_keeps (s : State) (p x : Nat) (st : RunStep) : ((s.runStep p st).part p).recovery = (s.part p).recovery ∧
    ((s.runStep p st).ctx x).st = (s.ctx x).st := by
  obtain ⟨himage, -⟩ := placesHandles_imagePlaced s st
  have hkeep := himage.trans (keepsPanel_startClusters st.desc (s.launchCode st.ctx st.epoch st.desc) st.clusters (s.imagePlaced st))
  have hstarted := keepsCtxs_startClusters st.desc (s.launchCode st.ctx st.epoch st.desc) st.clusters (s.imagePlaced st)
  rw [runStep_eq]
  constructor
  · rw [State.modPart_eq, State.setPart_part_same, hkeep.part]
  · rw [State.modPart_eq, State.setPart_ctx, hstarted.ctx, imagePlaced_ctx_st]

theorem feedStep_idle {s : State} {p : Nat} {st : RunStep} (hrun : (s.part p).running = some st) (hfeed : st.feed = []) : s.feedStep p = s := by
  unfold State.feedStep
  simp only [hrun, hfeed, List.isEmpty_nil, if_true]

section
variable {p x : Nat} {s : State} {r : Recovery} (hrec : (s.part p).recovery = some r) (hres : (s.part p).resident = some x)
include hrec hres

theorem recoveryRerelease_step {st : RunStep} (hstage : r.stage = .done) (hstill : s.changing p = false) (hstep : r.step = some st)
    (hjournal : r.journalFull = false) (hfeed : abortedFeed (afterCheckpoint x (s.part p).journal) st.seq = []) :
    ∃ t : State, exec (.recoveryRerelease p) s = .next t ∧ NoStore s t ∧ (t.part p).recovery = none ∧ (t.ctx x).st = .resident ∧
      ∃ st', (t.part p).running = some st' ∧ st'.seq = st.seq ∧ st'.desc = st.desc ∧ st'.starts = st.starts ∧ st'.replay = false := by
  have hexec := (exec_recoveryRerelease hrec hres hstage hstill).trans (resume_some hstep hjournal)
  rw [hfeed] at hexec
  obtain ⟨hstore, hrecovery, hst⟩ := recoveryReported_effect s p x (s.recoverySrc p x r)
  generalize s.recoveryReported p x (s.recoverySrc p x r) = u at *
  obtain ⟨hstore', ⟨hrunning, -, -⟩, -⟩ := runStep_starts u p (u.stepAgain x st [])
  obtain ⟨hrecovery', hst'⟩ := runStep_keeps u p x (u.stepAgain x st [])
  rw [feedStep_idle hrunning rfl] at hexec
  exact ⟨_, hexec, hstore.trans hstore', hrecovery'.trans hrecovery, hst'.trans hst, _, hrunning, rfl, rfl, rfl, rfl⟩

/-- The layout that R328 waits for, or its time out. -/
theorem exec_shrinkTimeout {dl : Nat} (hdl : r.layoutDeadline = some dl) (hstage : r.stage = .waitLayout) : exec (.shrinkTimeout p) s =
    if dl ≤ s.now then .next (s.contextFatal x 0x3807 { part := p }) else .next s := by
  change execShrinkTimeout p s = _
  unfold execShrinkTimeout
  simp only [hrec, hres, hdl, hstage, true_and]

end

/-- Settles O23: one lemma a row of the recovery, in the order of the sequence. -/
theorem recoverySequence : Obligations.RecoverySequence := by
  unfold Obligations.RecoverySequence
  refine fun p x s hres => ⟨fun cause n hcause hrun => ⟨recoveryStart_fatal hres hcause hrun, recoveryStart_begins hres hcause hrun⟩,
    exec_recoveryStart_idle hres, fun r hrec => ⟨recoveryRestore_restores hrec hres, exec_recoveryRestore_idle hrec hres,
      recoveryRestoreDone_replays hrec hres, exec_recoveryRestoreDone_idle hrec hres,
      fun hstage hstill => ⟨exec_recoveryRerelease_none hrec hres hstage hstill, fun st => recoveryRerelease_step hrec hres hstage hstill⟩,
      fun dl hdl hstage => ⟨fun hdue => ?_, fun hearly => ?_⟩⟩⟩
  · exact (exec_shrinkTimeout hrec hres hdl hstage).trans (if_pos hdue)
  · exact (exec_shrinkTimeout hrec hres hdl hstage).trans (if_neg hearly.not_ge)

end Sys2Proof.Machine

namespace Sys2Proof.Machine
open Sys2Proof

/-! ## What contained errors leave alone -/

/-- No region has changed, nor which positions are enabled. -/
structure KeepsRegions (s t : State) : Prop where
  regions : t.regions = s.regions
  enabled : t.enabled = s.enabled

theorem KeepsRegions.refl (s : State) : KeepsRegions s s := ⟨rfl, rfl⟩

theorem KeepsRegions.trans {s t u : State} (hst : KeepsRegions s t) (htu : KeepsRegions t u) : KeepsRegions s u :=
  ⟨htu.regions.trans hst.regions, htu.enabled.trans hst.enabled⟩

theorem KeepsRegions.foldl {α : Type} {g : State → α → State} (hg : ∀ t a, KeepsRegions t (g t a)) (l : List α) (s : State) :
    KeepsRegions s (l.foldl g s) :=
  List.foldlRecOn l g (.refl s) fun t ht a _ => ht.trans (hg t a)

theorem KeepsRegions.region {s t : State} (h : KeepsRegions s t) (r : Nat) : t.region r = s.region r := by
  rw [State.region_def, h.regions, ← State.region_def]

theorem KeepsRegions.cmapEntry {s t : State} (h : KeepsRegions s t) (r l : Nat) : t.cmapEntry r l = s.cmapEntry r l :=
  cmapEntry_congr h.enabled (congrArg Region.cmap (h.region r)) l

/-- A contained error changes no region. -/
theorem keepsRegions_raise (s : State) {code : Nat} (src : Source) (hclass : codeClass code = 2) : KeepsRegions s (s.raise code src) := by
  unfold State.raise
  rw [hclass]
  cases src.ctx with
  | none => exact ⟨State.note_regions _ _ _, State.note_enabled _ _ _⟩
  | some x => exact ⟨State.contained_regions _ _ _ _, State.contained_enabled _ _ _ _⟩

theorem keepsRegions_failCluster (s : State) (c absent : Nat) : KeepsRegions s (s.failCluster c absent) := by
  have hmarked : KeepsRegions s (s.modCl c (fun v => { v with st := .failed, hold := none, ahead := {} })) := ⟨rfl, rfl⟩
  exact hmarked.trans (keepsRegions_raise _ _ rfl)

theorem keepsRegions_copyFaults (s : State) (c : Nat) : KeepsRegions s (s.copyFaults c) := by
  have hfault (t : State) (e : Nat × TarnRow) : KeepsRegions t
      (({ t with tarn := Tbl.set (fun _ => {}) t.tarn e.1 { e.2 with tag := .poisoned } }).integrityEvent c (e.1 % 16384)) := by
    have hpoisoned : KeepsRegions t { t with tarn := Tbl.set (fun _ => {}) t.tarn e.1 { e.2 with tag := .poisoned } } := ⟨rfl, rfl⟩
    exact hpoisoned.trans (keepsRegions_raise _ _ rfl)
  exact .foldl hfault _ s

/-! ## Planned substitution (R330) -/

/-- A spare is a position of a site of the map. -/
theorem replacement_lt {s : State} {r k p k' q : Nat} (hk : k < 32) (h : s.replacement r k p = some (k', q)) : k' < 32 ∧ q < 32 := by
  unfold State.replacement at h
  split at h
  next b hnear =>
    obtain ⟨rfl, rfl⟩ := Prod.mk.inj (Option.some.inj h)
    split at hnear
    · exact absurd hnear (by simp)
    · have hfree := (mem_freePositions (mem_of_nearest hnear)).1
      exact ⟨hk, by omega⟩
  next =>
    obtain ⟨b, hhead, hb⟩ := Option.map_eq_some_iff.mp h
    obtain ⟨rfl, rfl⟩ := Prod.mk.inj hb
    have hfree := (mem_freePositions (List.mem_of_mem_head? hhead)).1
    exact ⟨by omega, by omega⟩

theorem moveEntry_cmapEntry (s : State) (r l : Nat) (k q : Nat) (j : Nat) : (s.moveEntry r l (some (k, q))).cmapEntry r j =
    if j = l then mkEntry k q 1 (min 255 (entryCount (s.cmapEntry r l) + 1)) else s.cmapEntry r j := by
  unfold State.moveEntry State.cmapEntry
  rw [State.modRegion_eq, State.setRegion_region_same]
  exact Tbl.get_set _ _ _ _ _

theorem moveEntry_exchange (s : State) (r l : Nat) (place : Option (Nat × Nat)) : ((s.moveEntry r l place).region r).exchange = (s.region r).exchange := by
  unfold State.moveEntry
  rw [State.modRegion_eq, State.setRegion_region_same]

/-- The exchange of region r is over. -/
def State.exchangeOver (s : State) (r : Nat) : State := s.modRegion r (fun v => { v with exchange := none })

theorem exchangeOver_region (s : State) (r : Nat) : (s.exchangeOver r).region r = { s.region r with exchange := none } := State.setRegion_region_same _ _ _

theorem exchangeOver_cmapEntry (s : State) (r l : Nat) : (s.exchangeOver r).cmapEntry r l = s.cmapEntry r l :=
  cmapEntry_congr (s := s) (t := s.exchangeOver r) rfl (by rw [exchangeOver_region]) l

/-- After an exchange its partition's boundary goes on. -/
def State.boundaryAgain (s : State) (r : Nat) (t : State) : State := match (s.region r).part with
  | some p => t.boundaryWork p
  | none => t

section
variable {c : Nat} {s : State} {x : Exchange} (hx : (s.region (regionOf c)).exchange = some x) (hplan : x.rotation = false) (ha : x.a = c)
include hx hplan ha

/-- The spare k, q has taken the place of cluster c, with its rows and its handles. -/
def State.substituted (s : State) (c k q : Nat) : State :=
  ((((s.exchangeOver (regionOf c)).moveEntry (regionOf c) (localOf c) (some (k, q))).modCl c
    (fun v => { st := v.st, haltedFrom := v.haltedFrom, handles := v.handles })).copyFaults c)

theorem exec_substitutionCopyDone (ok : Bool) : exec (.substitutionCopyDone c ok) s =
    match s.spareFor c with
    | none => .next (s.exchangeOver (regionOf c))
    | some (k, q) =>
      if (s.cl c).st = .failed then .next (s.exchangeOver (regionOf c))
      else if !ok then .next (s.boundaryAgain (regionOf c)
        ((s.exchangeOver (regionOf c)).modRegion (regionOf c) (fun v => { v with condemned := v.condemned ++ [(k, q)] })))
      else .next (s.boundaryAgain (regionOf c) (s.substituted c k q)) := by
  change execSubstitutionCopyDone c ok s = _
  unfold execSubstitutionCopyDone
  simp only [hx, hplan, ha, Bool.false_or, bne_self_eq_false, Bool.false_eq_true, if_false]
  rfl

theorem substitutionCopyDone_failed (hfailed : (s.cl c).st = .failed) (ok : Bool) :
    exec (.substitutionCopyDone c ok) s = .next (s.exchangeOver (regionOf c)) := by
  rw [exec_substitutionCopyDone hx hplan ha]
  split
  · rfl
  · exact if_pos hfailed

variable {k q : Nat} (hspare : s.spareFor c = some (k, q)) (hlive : (s.cl c).st ≠ .failed)
include hspare hlive

theorem substitutionCopyDone_bad : exec (.substitutionCopyDone c false) s = .next (s.boundaryAgain (regionOf c)
    ((s.exchangeOver (regionOf c)).modRegion (regionOf c) (fun v => { v with condemned := v.condemned ++ [(k, q)] }))) := by
  rw [exec_substitutionCopyDone hx hplan ha, hspare]
  exact (if_neg hlive).trans (if_pos rfl)

theorem substitutionCopyDone_good : exec (.substitutionCopyDone c true) s = .next (s.boundaryAgain (regionOf c) (s.substituted c k q)) := by
  rw [exec_substitutionCopyDone hx hplan ha, hspare]
  exact (if_neg hlive).trans (if_neg (by decide))

omit hx hplan ha hlive in
theorem substituted_effect : ((s.substituted c k q).region (regionOf c)).exchange = none ∧
    entrySite ((s.substituted c k q).cmapEntry (regionOf c) (localOf c)) = k ∧
    entryPos ((s.substituted c k q).cmapEntry (regionOf c) (localOf c)) = q ∧
    ∀ l, l ≠ localOf c → (s.substituted c k q).cmapEntry (regionOf c) l = s.cmapEntry (regionOf c) l := by
  obtain ⟨hk, hq⟩ := replacement_lt (entrySite_lt _) hspare
  obtain ⟨hsite, hpos, -, -⟩ := mkEntry_fields (st := 1) (n := min 255 (entryCount ((s.exchangeOver (regionOf c)).cmapEntry (regionOf c) (localOf c)) + 1))
    hk hq (by decide) (by omega)
  have hcl (t : State) (f : Cluster → Cluster) : KeepsRegions t (t.modCl c f) := ⟨rfl, rfl⟩
  have hkeeps : KeepsRegions ((s.exchangeOver (regionOf c)).moveEntry (regionOf c) (localOf c) (some (k, q))) (s.substituted c k q) :=
    (hcl _ _).trans (keepsRegions_copyFaults _ c)
  have hentry := moveEntry_cmapEntry (s.exchangeOver (regionOf c)) (regionOf c) (localOf c) k q
  refine ⟨?_, ?_, ?_, fun l hl => ?_⟩
  · rw [hkeeps.region, moveEntry_exchange, exchangeOver_region]
  · rw [hkeeps.cmapEntry, hentry, if_pos rfl, hsite]
  · rw [hkeeps.cmapEntry, hentry, if_pos rfl, hpos]
  · rw [hkeeps.cmapEntry, hentry, if_neg hl, exchangeOver_cmapEntry]

end

/-! ## Rotation (R506, R507) -/

/-- The entry of a position that takes the place of another, remapped once more. -/
def takesPlace (own other : BitVec 32) : BitVec 32 := mkEntry (entrySite other) (entryPos other) 1 (min 255 (entryCount own + 1))

theorem swapEntries_effect (s : State) {r a b : Nat} (hab : a ≠ b) : ((s.swapEntries r a b).region r).exchange = (s.region r).exchange ∧
    (s.swapEntries r a b).cmapEntry r a = takesPlace (s.cmapEntry r a) (s.cmapEntry r b) ∧
    (s.swapEntries r a b).cmapEntry r b = takesPlace (s.cmapEntry r b) (s.cmapEntry r a) := by
  unfold State.swapEntries
  dsimp only
  refine ⟨?_, ?_, ?_⟩
  · rw [State.modRegion_eq, State.setRegion_region_same]
  · unfold State.cmapEntry
    rw [State.modRegion_eq, State.setRegion_region_same]
    exact (Tbl.get_set_ne _ _ _ hab).trans (Tbl.get_set_same _ _ _ _)
  · unfold State.cmapEntry
    rw [State.modRegion_eq, State.setRegion_region_same]
    exact Tbl.get_set_same _ _ _ _

/-- Both positions of a rotation have changed places, and with them what telemetry counts. -/
def State.rotated (s : State) (r : Nat) (x : Exchange) : State :=
  let t := (((s.exchangeOver r).swapEntries r (localOf x.a) (localOf x.b)).modCl x.a (fun v => { v with health := (s.cl x.b).health })).modCl x.b
    (fun v => { v with health := (s.cl x.a).health })
  let w := s.reg 0x800020
  ((t.setReg 0x800020 (BitVec.ofNat 64 (w.toNat % 65536 + 65536 * min 65535 (w.toNat / 65536 + 1)))).copyFaults x.a).copyFaults x.b

theorem rotated_keepsRegions (s : State) (r : Nat) (x : Exchange) :
    KeepsRegions ((s.exchangeOver r).swapEntries r (localOf x.a) (localOf x.b)) (s.rotated r x) := by
  have hcl (t : State) (c : Nat) (f : Cluster → Cluster) : KeepsRegions t (t.modCl c f) := ⟨rfl, rfl⟩
  have hreg (t : State) (o : Nat) (v : Word) : KeepsRegions t (t.setReg o v) := ⟨rfl, rfl⟩
  exact ((((hcl _ _ _).trans (hcl _ _ _)).trans (hreg _ _ _)).trans (keepsRegions_copyFaults _ _)).trans (keepsRegions_copyFaults _ _)

/-- Both tarns of a rotation are lost. -/
def State.rotationLost (s : State) (r : Nat) (x : Exchange) : State :=
  { s.exchangeOver r with tarn := Tbl.drop (fun key => key / 16384 == x.a || key / 16384 == x.b) s.tarn }

theorem rotationLost_rows (s : State) (r : Nat) (x : Exchange) {c n : Nat} (hn : n < 16384) (hc : c = x.a ∨ c = x.b) :
    (s.rotationLost r x).trow c n = {} := by
  refine (get_drop_rows (fun j => j == x.a || j == x.b) s.tarn c hn).trans (if_pos ?_)
  simpa using hc

section
variable {r : Nat} {s : State} {x : Exchange} (hx : (s.region r).exchange = some x) (hrot : x.rotation = true)
include hx hrot

theorem rotationCopyDone_failed (hfailed : (s.cl x.a).st = .failed ∨ (s.cl x.b).st = .failed) :
    exec (.rotationCopyDone r) s = .next (s.rotationLost r x) := by
  have hone : (decide ((s.cl x.a).st = .failed) || decide ((s.cl x.b).st = .failed)) = true := by simpa using hfailed
  change execRotationCopyDone r s = _
  unfold execRotationCopyDone
  simp only [hx, hrot, hone, Bool.not_true, Bool.false_eq_true, if_false, Bool.true_or, if_true]
  split
  · rfl
  · rfl

theorem rotationCopyDone_rotates (ha : (s.cl x.a).st ≠ .failed) (hb : (s.cl x.b).st ≠ .failed) (hrun : (s.region r).pstate = .run) :
    exec (.rotationCopyDone r) s = .next (s.boundaryAgain r (s.rotated r x)) := by
  have hnone : (decide ((s.cl x.a).st = .failed) || decide ((s.cl x.b).st = .failed)) = false := by simp [ha, hb]
  change execRotationCopyDone r s = _
  unfold execRotationCopyDone
  simp only [hx, hrot, hnone, hrun, Bool.not_true, Bool.false_eq_true, if_false, Bool.false_or, ne_eq, not_true_eq_false, decide_false]
  unfold State.boundaryAgain
  cases (s.region r).part with
  | none => rfl
  | some p => rfl

omit hx hrot in
theorem rotated_effect (hab : localOf x.a ≠ localOf x.b) : ((s.rotated r x).region r).exchange = none ∧
    (s.rotated r x).cmapEntry r (localOf x.a) = takesPlace (s.cmapEntry r (localOf x.a)) (s.cmapEntry r (localOf x.b)) ∧
    (s.rotated r x).cmapEntry r (localOf x.b) = takesPlace (s.cmapEntry r (localOf x.b)) (s.cmapEntry r (localOf x.a)) := by
  have hkeeps := rotated_keepsRegions s r x
  obtain ⟨hexchange, ha, hb⟩ := swapEntries_effect (s.exchangeOver r) (r := r) hab
  refine ⟨?_, ?_, ?_⟩
  · rw [hkeeps.region, hexchange, exchangeOver_region]
  · rw [hkeeps.cmapEntry, ha, exchangeOver_cmapEntry, exchangeOver_cmapEntry]
  · rw [hkeeps.cmapEntry, hb, exchangeOver_cmapEntry, exchangeOver_cmapEntry]

end

/-! ## The neighbour test of a recovery (R320, R535, R536) -/

/-- The verdicts of its neighbours on the position of cluster c. -/
def State.neighbourVerdicts (s : State) (c : Nat) (vs : List Verdict) : List Verdict :=
  let e := s.cmapEntry (regionOf c) (localOf c)
  vs.filter (fun v => v.site == entrySite e && v.target == entryPos e && (hops v.tester (entryPos e) == 1))

/-- Cluster c of partition p is tested: its test is due no more, and its tarn is gone. -/
def State.neighbourTested (s : State) (c p : Nat) : State :=
  let t := s.modPart p (fun v => { v with testDue := v.testDue.filter (· != c) })
  { t with tarn := Tbl.drop (fun key => key / 16384 == c) t.tarn }

/-- What a test that the cluster outlives leaves: no test due, its rows empty, and the rows of others as they were. -/
def Tested (s t : State) (c p : Nat) : Prop :=
  c ∉ (t.part p).testDue ∧ (∀ n < 16384, t.trow c n = {}) ∧ ∀ d n, d ≠ c → n < 16384 → t.trow d n = s.trow d n

theorem neighbourTested_tested (s : State) (c p : Nat) : Tested s (s.neighbourTested c p) c p := by
  have hpart : (s.neighbourTested c p).part p = { s.part p with testDue := (s.part p).testDue.filter (· != c) } := State.setPart_part_same _ _ _
  refine ⟨?_, fun n hn => ?_, fun d n hd hn => ?_⟩
  · rw [hpart]
    simp
  · exact (get_drop_rows (fun j => j == c) s.tarn c hn).trans (if_pos (by simp))
  · exact (get_drop_rows (fun j => j == c) s.tarn d hn).trans (if_neg (by simpa using hd))

theorem Tested.of_note {s t : State} {c p : Nat} (h : Tested s t c p) (code : Nat) (src : Source) : Tested s (t.note code src) c p := by
  obtain ⟨hdue, hrows, hothers⟩ := h
  obtain ⟨-, hpart, -, -⟩ := onlyReports_note t code src
  have hsame : ((t.note code src).part p).testDue = (t.part p).testDue := by
    have hfield := congrArg Part.testDue (hpart p)
    exact hfield
  refine ⟨?_, fun n hn => ?_, fun d n hd hn => ?_⟩
  · rw [hsame]
    exact hdue
  · rw [State.note_trow, hrows n hn]
  · rw [State.note_trow, hothers d n hd hn]

/-- Site k of region r is marked failed. -/
def State.siteMarked (s : State) (r k : Nat) : State :=
  s.modRegion r (fun v => { v with sitesFailed := if v.sitesFailed.contains k then v.sitesFailed else v.sitesFailed ++ [k] })

theorem mem_siteMarked (s : State) (r k : Nat) : k ∈ ((s.siteMarked r k).region r).sitesFailed := by
  rw [State.siteMarked, State.modRegion_eq, State.setRegion_region_same]
  dsimp only
  split
  next h => simpa using h
  next => simp

/-- A cluster of a condemned die fails, if it has not. -/
def State.failOnce (s : State) (c : Nat) : State := if (s.cl c).st = .failed then s else s.failCluster c 0

theorem keepsRegions_failOnce (s : State) (c : Nat) : KeepsRegions s (s.failOnce c) := by
  unfold State.failOnce
  split
  · exact .refl s
  · exact keepsRegions_failCluster s c 0

theorem condemnSite_eq (s : State) (r k : Nat) : s.condemnSite r k =
    if k < 19 then ((List.range 288).filter (fun l => entryState (s.cmapEntry r l) ≠ 2 && entrySite (s.cmapEntry r l) == k)).foldl
      (fun (t : State) l => t.failOnce (clusterAt r l)) (s.siteMarked r k)
    else if k = 19 then (s.siteMarked r k).modRegion r (fun v => { v with cores := false })
    else s.siteMarked r k := rfl

theorem condemnSite_sitesFailed (s : State) (r k : Nat) : k ∈ ((s.condemnSite r k).region r).sitesFailed := by
  have hmarked := mem_siteMarked s r k
  rw [condemnSite_eq]
  generalize s.siteMarked r k = t at *
  split
  · rw [(KeepsRegions.foldl (fun u l => keepsRegions_failOnce u (clusterAt r l)) _ t).region]
    exact hmarked
  · split
    · rw [State.modRegion_eq, State.setRegion_region_same]
      exact hmarked
    · exact hmarked

section
variable {c p : Nat} {vs : List Verdict} {s : State} (hpart : s.partOf c = some p) (hrec : (s.part p).recovery.isSome)
  (hdue : c ∈ (s.part p).testDue) (hidle : (s.part p).running = none) (hplace : s.vacant c = false)
include hpart hrec hdue hidle hplace

theorem exec_neighbourTestTarget : exec (.neighbourTestTarget c vs) s =
    let e := s.cmapEntry (regionOf c) (localOf c)
    if 2 ≤ failuresOf (s.neighbourVerdicts c vs) TestResult.isFail then
      (if 2 ≤ failuresOf (s.neighbourVerdicts c vs) TestResult.isRouter then .next ((s.neighbourTested c p).condemnSite (regionOf c) (entrySite e))
       else .next ((s.neighbourTested c p).failCluster c 0))
    else if failuresOf (s.neighbourVerdicts c vs) TestResult.isFail = 1 then
      .next ((s.neighbourTested c p).note 0x0E02 (s.atCluster c [entrySite e, entryPos e]))
    else .next (s.neighbourTested c p) := by
  have hnone : (s.part p).recovery.isNone = false := by simpa using hrec
  change execNeighbourTestTarget c vs s = _
  unfold execNeighbourTestTarget
  simp only [hpart, hnone, hdue, hidle, hplace, List.contains_iff_mem.mpr, Bool.not_true, Bool.or_false, Option.isSome_none, Bool.false_eq_true,
    if_false]
  rfl

theorem neighbourTest_passes (hfails : failuresOf (s.neighbourVerdicts c vs) TestResult.isFail = 0) :
    ∃ t : State, exec (.neighbourTestTarget c vs) s = .next t ∧ { t with parts := s.parts, tarn := s.tarn } = s ∧ Tested s t c p :=
  ⟨s.neighbourTested c p, (exec_neighbourTestTarget hpart hrec hdue hidle hplace).trans ((if_neg (by omega)).trans (if_neg (by omega))), rfl,
    neighbourTested_tested s c p⟩

theorem neighbourTest_suspect (hfails : failuresOf (s.neighbourVerdicts c vs) TestResult.isFail = 1) :
    ∃ t : State, exec (.neighbourTestTarget c vs) s = .next t ∧ t.clusters = s.clusters ∧ t.regions = s.regions ∧ t.mem = s.mem ∧ Tested s t c p := by
  refine ⟨_, (exec_neighbourTestTarget hpart hrec hdue hidle hplace).trans ((if_neg (by omega)).trans (if_pos hfails)), ?_, ?_, ?_,
    (neighbourTested_tested s c p).of_note _ _⟩
  · exact State.note_clusters _ _ _
  · exact State.note_regions _ _ _
  · exact State.note_mem _ _ _

variable (hfails : 2 ≤ failuresOf (s.neighbourVerdicts c vs) TestResult.isFail)
include hfails

theorem neighbourTest_cluster (hrouter : failuresOf (s.neighbourVerdicts c vs) TestResult.isRouter < 2) :
    ∃ t : State, exec (.neighbourTestTarget c vs) s = .next t ∧ (t.cl c).st = .failed :=
  ⟨_, (exec_neighbourTestTarget hpart hrec hdue hidle hplace).trans ((if_pos hfails).trans (if_neg hrouter.not_ge)), failCluster_failed _ c 0⟩

theorem neighbourTest_chiplet (hrouter : 2 ≤ failuresOf (s.neighbourVerdicts c vs) TestResult.isRouter) :
    ∃ t : State, exec (.neighbourTestTarget c vs) s = .next t ∧
      entrySite (s.cmapEntry (regionOf c) (localOf c)) ∈ (t.region (regionOf c)).sitesFailed :=
  ⟨_, (exec_neighbourTestTarget hpart hrec hdue hidle hplace).trans ((if_pos hfails).trans (if_pos hrouter)), condemnSite_sitesFailed _ _ _⟩

end

/-- Settles O24: an exchange by the entries it writes, and the neighbour test by what its verdicts condemn. -/
theorem clusterExchange : Obligations.ClusterExchange := by
  unfold Obligations.ClusterExchange
  refine ⟨fun c s x hx hplan ha => ⟨fun k q hspare hlive => ⟨?_, ?_⟩, fun hfailed ok => ?_⟩, fun r s x hx hrot _ =>
    ⟨fun ha hb hrun hab => ?_, fun hfailed => ?_⟩, fun c p vs s hpart hrec hdue hidle hplace => ⟨?_, ?_, ?_, ?_⟩⟩
  · obtain ⟨hexchange, hsite, hpos, hothers⟩ := substituted_effect hspare
    exact ⟨_, substitutionCopyDone_good hx hplan ha hspare hlive, hexchange, hsite, hpos, fun l _ => hothers l⟩
  · refine ⟨_, substitutionCopyDone_bad hx hplan ha hspare hlive, rfl, ?_, ?_⟩
    · rw [State.modRegion_eq, State.setRegion_region_same, exchangeOver_region]
    · rw [State.modRegion_eq, State.setRegion_region_same]
      simp
  · exact ⟨_, substitutionCopyDone_failed hx hplan ha hfailed ok, rfl, exchangeOver_region s _⟩
  · exact ⟨_, rotationCopyDone_rotates hx hrot ha hb hrun, rotated_effect hab⟩
  · exact ⟨_, rotationCopyDone_failed hx hrot hfailed, rfl, exchangeOver_region s r, fun n hn =>
      ⟨rotationLost_rows s r x hn (.inl rfl), rotationLost_rows s r x hn (.inr rfl)⟩⟩
  · exact neighbourTest_passes hpart hrec hdue hidle hplace
  · exact neighbourTest_suspect hpart hrec hdue hidle hplace
  · exact neighbourTest_cluster hpart hrec hdue hidle hplace
  · exact neighbourTest_chiplet hpart hrec hdue hidle hplace

end Sys2Proof.Machine
